-- ==== Sys2Proof/Word.lean ====
section
/-! DEFINITION. Words, bytes and sparse tables: the plain data types every other file builds on. -/

namespace Sys2Proof

/-- A register of the hub: 32 bits (R6). -/
abbrev Word := BitVec 32

/-- A byte of memory, of a record or of a frame. -/
abbrev Byte := BitVec 8

/-- A finite table by number: pairs of a key and a value, keys rising. An absent key reads as the default its reader names. -/
structure Tab (α : Type) where
  cells : List (Nat × α) := []
deriving DecidableEq, Repr

/-- The value under key `k` of a list of pairs, or `d`. -/
def findKey {α : Type} (k : Nat) (d : α) : List (Nat × α) → α
  | [] => d
  | (j, v) :: rest => if j == k then v else findKey k d rest

/-- The pairs with `v` under key `k`, in rising order of keys. -/
def putKey {α : Type} (k : Nat) (v : α) : List (Nat × α) → List (Nat × α)
  | [] => [(k, v)]
  | (j, w) :: rest =>
    if j < k then (j, w) :: putKey k v rest
    else if j == k then (k, v) :: rest
    else (k, v) :: (j, w) :: rest

/-- The pairs without key `k`. -/
def dropKey {α : Type} (k : Nat) : List (Nat × α) → List (Nat × α)
  | [] => []
  | (j, w) :: rest => if j == k then dropKey k rest else (j, w) :: dropKey k rest

/-- The value under `k`, or `d` where the table has none. -/
def Tab.get {α : Type} (t : Tab α) (k : Nat) (d : α) : α := findKey k d t.cells

/-- The table with `v` under `k`. -/
def Tab.set {α : Type} (t : Tab α) (k : Nat) (v : α) : Tab α := ⟨putKey k v t.cells⟩

/-- The table with nothing under `k`. -/
def Tab.del {α : Type} (t : Tab α) (k : Nat) : Tab α := ⟨dropKey k t.cells⟩

/-- The keys of the table, rising. -/
def Tab.keys {α : Type} (t : Tab α) : List Nat := t.cells.map Prod.fst

end Sys2Proof
end

