-- ==== Sys2Proof/Syntax.lean ====
section
/-! DEFINITION. The commands of the hub, as syntax: the rows of the spec's opcode table with their operands. Where an operand
stands for something the surroundings tell the hub with the event (data read, a frame's fields, whether a check of a
cited code passed), its docstring or the docstring of the meaning says so. -/

namespace Sys2Proof

/-- A requester of the register bus (R464). -/
inductive Req where
  | mgmt | port | jtag | coop0 | coop1 | tendril | i3c
deriving DecidableEq, Repr

/-- A context slot (R9). -/
abbrev Slot := Fin 64
/-- A tile ID (R9). -/
abbrev TileId := Fin 16384
/-- A cane (R18). -/
abbrev Cane := Fin 128
/-- A press lane (R18). -/
abbrev Lane := Fin 16
/-- A tendril: 0 north, 1 east, 2 south, 3 west (R58). -/
abbrev TendrilId := Fin 4
/-- A cooper (R437). -/
abbrev CoopId := Fin 2


/-- Where rows of bytes lie in tile SRAM: the base address and the row pitch (R245). -/
structure Rows where
  base : Nat := 0
  pitch : Nat := 0
deriving DecidableEq, Repr

/-- The descriptor a tasteable operation presents on the operand tap (R245), with the header fields of R250: `kind` 1 MXU, 2 CONV;
the rows of A, its scales, B, its scales (CONV: the produced scales), C_init, the result and the SAT bits. -/
structure OpDesc where
  kind : Nat := 1
  fmtA : Nat := 0
  fmtB : Nat := 0
  sclA : Nat := 0
  sclB : Nat := 0
  blkA : Nat := 0
  blkB : Nat := 0
  kn : Nat := 0
  cinitZero : Bool := true
  intAcc : Bool := false
  satAny : Bool := false
  sr : Bool := false
  stream : Nat := 0
  selfScale : Bool := false
  a : Rows := {}
  sa : Rows := {}
  b : Rows := {}
  sb : Rows := {}
  ci : Rows := {}
  c : Rows := {}
  sat : Rows := {}
deriving DecidableEq, Repr

/-- An access of a tile on a trace tap (R195). -/
inductive Access where
  | load (addr : Nat)
  | store (addr : Nat)
  | delivery (addr : Nat)
  | fetch (addr : Nat)
deriving DecidableEq, Repr

/-- What a tile shows its spur on one executed edge (R195, R268, R491): a branch outcome, accesses, an event with its argument, the numeric
kinds raised, as a mask, and the memory reads and writes issued (T_RD_ISSUE, T_WR_ISSUE). -/
structure Taps where
  branch : Option Bool := none
  acc : List Access := []
  event : Option (Nat × Nat) := none
  kinds : Nat := 0
  written : Bool := false
  reads : Nat := 0
  writes : Nat := 0
  beat : Bool := false
deriving DecidableEq, Repr

/-- What a round of tending finds (R417, R419). -/
inductive TendFind where
  | corrected (page : Nat)
  | uncorrectable (page : Nat)
  | parity (addr : Nat)
  | silent (tile : TileId)
  | taster (n : Fin 4)
  | lane (l : Lane)
deriving DecidableEq, Repr

/-- An entry of the mirror stream (R421), as far as the standby's state shows it. -/
inductive MirrorEntry where
  | register (addr : Nat) (value : Word)
  | heartbeat
  | other
deriving DecidableEq, Repr

/-- One unit's run in the boot BIST (R372 step 7, R400): its target (0 HUB_LOGIC, 1 LANE, 2 TASTER, 3 CANE, 4 TILE; for HUB_LOGIC the unit is
the core), its outcome as BIST_RESULT codes it, and what the result registers show of it. -/
structure BistFind where
  target : Nat
  unit : Nat
  outcome : Nat
  randomFail : Bool := false
  info : Nat := 0
  got : Nat := 0
  want : Nat := 0
deriving DecidableEq, Repr

/-- A unit that accesses package memory through the cellar port (R484): a lane's stream writes, metadata, the harvest's digests, the decant, the
digest of external memory, trace, racking, the tile table, a lane's reads of regions and of the snapshot. -/
inductive CellUser where
  | lane (l : Lane)
  | metadata
  | harvest
  | decant
  | digest
  | trace
  | rack
  | table
  | read (l : Lane)
deriving DecidableEq, Repr

/-- The header of a class 2 tendril frame (R317, R318): the tendril it arrives on, SEQ, DEST, SOURCE and TXN. ANNOUNCE has no TXN, IMAGE
neither SOURCE nor TXN: they read 0. -/
structure Hdr2 where
  tendril : TendrilId := 0
  seq : Fin 256 := 0
  dest : Fin 2048 := 0
  src : Fin 2048 := 0
  txn : Fin 256 := 0
deriving DecidableEq, Repr

/-- The commands of the hub: one constructor per row of spec/opcode_table.json, named after the row's mnemonic. -/
inductive Instr where
  /-- POWER_GOOD, R372: The rising edge of PWR_GOOD with a stable root clock starts the start-up sequence and the HCLK count of R43. -/
  | powerGood (pkg : Fin 16) (fuses : List (Fin 512 × Word)) (corrected failed : List (Fin 512))
  /-- POWER_GOOD_FALL, R482: The fall of PWR_GOOD resets the block and ends PWRCYC_REQ. -/
  | powerGoodFall
  /-- MASTER_WAIT_EXPIRY, R45: A lead hub with MASTER set begins the flash read once 4,096 HCLK have passed since its first tendril came UP. -/
  | masterWaitExpiry
  /-- FLASH_HEADER_READ, R379: The time master reads the 64-byte image header; on no flash, no answer or a bad header it sends IMAGE_DONE of length 0 at once. -/
  | flashHeaderRead (header : List Byte)
  /-- IMAGE_READ_COMPLETE, R379: Once LENGTH bytes are read, the master checks the image and sends IMAGE_DONE with the length and CRC, or length 0 with a reason. -/
  | imageReadComplete (rest : List Byte) (keyOk sigOk eccBad : Bool)
  /-- IMAGE_FRAME_RX, R380: A received IMAGE frame is taken once per offset, staged where its section applies, and forwarded. -/
  | imageFrameRx (tendril : TendrilId) (seq : BitVec 8) (offset : Word) (data : BitVec 96)
  /-- IMAGE_DONE_RX, R380: A received IMAGE_DONE makes the hub accept and apply the staged sections or fall back to factory defaults. -/
  | imageDoneRx (hd : Hdr2) (length crc : Word) (reason : BitVec 8) (eccBad : Bool)
  /-- IMAGE_WAIT_TIMEOUT, R334: A hub that receives no IMAGE frame or IMAGE_DONE within 6.4 ms of its links coming UP uses factory defaults with NO_IMAGE. -/
  | imageWaitTimeout
  /-- IMAGE_DONE_TIMEOUT, R380: A hub with IMAGE frames but no IMAGE_DONE within 16 ms of the first uses factory defaults and sets PG_ERROR.FLOOD. -/
  | imageDoneTimeout
  /-- MASTER_ASSUMED, R380: A lead hub with MASTER clear that hears no image or master within 3.2 ms takes the master role and reads its own flash. -/
  | masterAssumed
  /-- BOOT_BIST_DONE, R373: Step 7 ends when its BIST targets are done, then the time base is established and the dividers restart. -/
  | bootBistDone (found : List BistFind)
  /-- BOOT_BIST_TIMEOUT, R373: Step 7 ends at BOOT_BIST_LIMIT or 39 ms after power-good, recording unfinished targets as NOT_RUN. -/
  | bootBistTimeout (completed : List (Fin 5)) (found : List BistFind)
  /-- DIVIDER_RESTART, R35: At the restart GCN G_r both partition dividers restart with new origins, TCLK_RESTART having pulsed in the period before. -/
  | dividerRestart
  /-- RELEASED, R373: Step 9 deasserts TILE_HOLD, records BOOT_TIME_RELEASE and raises RELEASED. -/
  | released
  /-- NO_TIME_RELEASE, R373: A hub that completed step 7 without a time base releases after 6.4 ms or at 40 ms, setting NO_TIME. -/
  | noTimeRelease
  /-- BOOT_RELEASE, R374: BOOT_CMD RELEASE from JTAG releases a BLANK hub. -/
  | bootRelease (r : Req)
  /-- LIFE_ADVANCE, R388: ADVANCE burns one more life-cycle bit in all three copies, effective at the next power-up. -/
  | lifeAdvance (r : Req) (burnOk vppReady : Bool)
  /-- LIFE_SCRAP, R388: SCRAP burns all five life-cycle bits and the hub behaves as SCRAPPED from the next HCLK. -/
  | lifeScrap (r : Req) (burnOk vppReady : Bool)
  /-- PROGRAM_KEY, R388: PROGRAM_KEY burns LIFE_KEY_0 to 11 into the KEY_HASH rows with their ECC, once only. -/
  | programKey (r : Req) (burnOk vppReady : Bool)
  /-- ADD_BAD_TILE, R388: ADD_BAD_TILE burns the first unused bad-tile entry with LIFE_ARG.TILE. -/
  | addBadTile (r : Req) (burnOk vppReady : Bool)
  /-- AUTH_CHALLENGE, R389: CHALLENGE draws a 128-bit nonce and shows it in AUTH_NONCE. -/
  | authChallenge (r : Req) (entropyOk : Bool)
  /-- AUTH_VERIFY, R389: VERIFY checks the key hash and the ECDSA signature over the grant message and stores a grant or fails. -/
  | authVerify (r : Req) (keyOk sigOk : Bool)
  /-- AUTH_REVOKE, R390: REVOKE ends the grant in the selected record. -/
  | authRevoke (r : Req)
  /-- GRANT_EXPIRY, R390: A grant's HCLK lifetime runs out or its absolute GCN expiry passes, ending the grant. -/
  | grantExpiry
  /-- NONCE_EXPIRY, R389: The nonce becomes invalid 1 s after CHALLENGE. -/
  | nonceExpiry
  /-- AUTH_LOCKOUT_EXPIRY, R391: The 2^30 HCLK lockout after 8 failed VERIFY commands ends. -/
  | authLockoutExpiry
  /-- ESTABLISH, R60: ESTABLISH at a master released without a time base establishes GCN and the epoch. -/
  | establish (r : Req)
  /-- REEPOCH, R46: REEPOCH sets a new GCN and epoch number across a single-package domain. -/
  | reepoch (r : Req)
  /-- TIME_RESYNC, R49: RESYNC at the time master floods its current GCN so that disagreeing hubs step to it. -/
  | timeResync (r : Req)
  /-- ARM_TBS, R51: ARM_TBS arms the time master to load GCN and the epoch at the next valid TB_SYNC pulse. -/
  | armTbs (r : Req)
  /-- CLKCHG, R55: CLKCHG requests a partition clock change at a declared GCN, rounded up to G_c. -/
  | clkchg (r : Req)
  /-- CLKCHG_CANCEL, R56: CLKCHG_CANCEL cancels a pending clock change up to G_c − 64. -/
  | clkchgCancel (r : Req)
  /-- CLKCHG_APPLIED, R54: At G_c the new divider takes effect, new edge 0 is stalled, and CLKCHG_APPLIED is raised. -/
  | clkchgApplied (east : Bool)
  /-- TB_SYNC_PULSE, R51: A TB_SYNC rising edge seen by the master is validated and, if armed, loads GCN and floods the package. -/
  | tbSyncPulse (high : Nat)
  /-- TBS_ARM_TIMEOUT, R52: An armed master that sees no pulse within 2^32 HCLK cancels the arm with TIMEOUT. -/
  | tbsArmTimeout
  /-- TBS_MISS, R53: An expected repeated TB_SYNC pulse absent for TIME_TBS_PERIOD + 2 HCLK sets TBS_MISS and clears XPKG_OK. -/
  | tbsMiss
  /-- SYNC_CHECK_PERIOD, R49: Every TIME_SYNC_PERIOD each hub sends its GCN on every tendril. -/
  | syncCheckPeriod
  /-- SYNC_ESTABLISH_RX, R48: A SYNC ESTABLISH frame sets the receiver's GCN to V + 12 and is forwarded on the other tendrils. -/
  | syncEstablishRx (tendril : TendrilId) (gcn : BitVec 64) (epoch : Word) (origin : Fin 2048)
  /-- SYNC_CHECK_RX, R49: A SYNC CHECK frame is compared with GCN − 12 and a difference records a mismatch. -/
  | syncCheckRx (tendril : TendrilId) (gcn : BitVec 64) (epoch : Word)
  /-- SYNC_RESYNC_RX, R49: A SYNC RESYNC frame steps a disagreeing hub to the flooded GCN and sets PKG_OK. -/
  | syncResyncRx (tendril : TendrilId) (gcn : BitVec 64) (epoch : Word) (origin : Fin 2048)
  /-- SYNC_REPLY_RX, R326: A SYNC REPLY lets a restarting hub set GCN to V + 12 and raise TIME_JOINED. -/
  | syncReplyRx (tendril : TendrilId) (gcn : BitVec 64) (epoch : Word)
  /-- TRAIN_RX, R319: A TRAIN frame is echoed or used to measure the tendril delay and set the receive FIFO, bringing the tendril UP or failing training. -/
  | trainRx (tendril : TendrilId) (echo : Bool) (senderCount echoedCount : Word)
  /-- ANNOUNCE_RX, R322: An ANNOUNCE updates the route table, resolves two time masters and is forwarded. -/
  | announceRx (hd : Hdr2) (hops : BitVec 8) (flags : BitVec 4) (round : Word)
  /-- ANNOUNCE_PERIOD, R322: Every 2^24 HCLK a hub floods an ANNOUNCE and stale route entries become invalid. -/
  | announcePeriod
  /-- ACK_RX, R320: A tendril ACK frame releases acknowledged class 2 frames from the sender. -/
  | ackRx (tendril : TendrilId) (seq : BitVec 8)
  /-- TENDRIL_ACK_TIMER, R320: 64 HCLK after an unacknowledged acceptance the receiver sends an ACK. -/
  | tendrilAckTimer
  /-- TENDRIL_RESEND_TIMEOUT, R320: A sender with no ACK for 256 HCLK resends from the oldest unacknowledged frame. -/
  | tendrilResendTimeout
  /-- TENDRIL_RETRAIN_TIMER, R321: A FAILED tendril retrains every 1 ms when AUTO_RETRAIN is set. -/
  | tendrilRetrainTimer
  /-- FED_RETRAIN, R338: FED_CMD RETRAIN retrains the selected tendril. -/
  | fedRetrain (r : Req)
  /-- REANNOUNCE, R322: FED_CMD REANNOUNCE floods a fresh ANNOUNCE. -/
  | reannounce (r : Req)
  /-- FED_CLEAR_STATS, R338: FED_CMD CLEAR_STATS clears the federation counters. -/
  | fedClearStats (r : Req)
  /-- FED_DOMAIN_WRITE, R324: A write to FED_DOMAIN is refused above 1,024 hubs, otherwise flooded by lead hubs. -/
  | fedDomainWrite (r : Req) (v : Word)
  /-- FED_JOB_WRITE, R330: A write to FED_JOB marks a stopped slot as federated with its anchor, or is ignored for a running slot. -/
  | fedJobWrite (r : Req) (v : Word)
  /-- TENDRIL_REG_READ, R333: A tendril REG_READ command reads a register with requester TENDRIL and answers with RESP. -/
  | tendrilRegRead (hd : Hdr2) (addr : Word)
  /-- TENDRIL_REG_WRITE, R333: A tendril REG_WRITE command writes a register with requester TENDRIL. -/
  | tendrilRegWrite (hd : Hdr2) (addr v : Word)
  /-- RESP_RX, R333: A RESP frame completes the pending tendril request of its TXN. -/
  | respRx (hd : Hdr2) (opcode status : BitVec 8) (data : BitVec 64)
  /-- REMOTE_TIMEOUT, R333: A tendril request with no answer within FED_CMD_TIMEOUT ends with TIMEOUT and raises REMOTE_TIMEOUT. -/
  | remoteTimeout
  /-- TIME_REQ_RX, R326: A TIME_REQ command is answered within 64 HCLK with a SYNC REPLY. -/
  | timeReqRx (hd : Hdr2)
  /-- CORK_STOP, R79: STOP resolves the scope, computes targets and lead, and sends the cork wave. -/
  | corkStop (r : Req)
  /-- CORK_STEP, R74: STEP runs each stopped domain for CORK_STEP_COUNT schedule cycles and stops it again. -/
  | corkStep (r : Req)
  /-- CORK_RESUME, R73: RESUME sets Gs = a + L_min and sends the resume wave to stopped domains. -/
  | corkResume (r : Req)
  /-- CORK_ABORT, R75: ABORT cancels an accepted stop before its stop period and raises CORK_ABORTED. -/
  | corkAbort (r : Req)
  /-- STALL_SET, R500: STALL_SET applies CORK_STALL_MASK as the MANUAL stall source of the scope's domains from acceptance + 32. -/
  | stallSet (r : Req)
  /-- STALL_CLEAR, R500: STALL_CLEAR ends the MANUAL stall source of the scope's domains. -/
  | stallClear (r : Req)
  /-- CORK_WAVE_RX, R70: A spur acts on the first good copy of a trellis wave and arms, reporting a masked fault when copy A was bad. -/
  | corkWaveRx (tile : TileId) (goodA goodB : Bool)
  /-- TILE_STOPPED, R68: An armed spur gates its tile once its shadow SCN reaches T and sends STOPPED. -/
  | tileStopped (tile : TileId)
  /-- STOPPED_REPORT_RX, R71: STOPPED reports reaching the root are checked and the command completes when all have reported. -/
  | stoppedReportRx (tile : TileId)
  /-- CORK_REPORT_TIMEOUT, R71: CORK_REPORT_LIMIT passes with a spur silent, sending stop-now and ending with TIMEOUT. -/
  | corkReportTimeout
  /-- RESUMED, R73: At Gs the domains execute cycle S + 1 and RESUMED is raised. -/
  | resumed
  /-- WAVE_FRAME_RX, R328: A member acts on the first good copy of a WAVE frame, checks its lead, forwards it and sends it down its trellis. -/
  | waveFrameRx (tendril : TendrilId) (waveId : BitVec 8) (issuer : Fin 2048) (op : Fin 16) (extReq : Bool) (target : BitVec 64) (start : Word) (tag : BitVec 16) (mode : Fin 4) (field : Bool)
  /-- CORK_REPORT_RX, R329: A CORK_REPORT command from a member is collected by the issuer, which completes when all members have reported. -/
  | corkReportRx (hd : Hdr2) (waveId status : BitVec 8) (flags : BitVec 3) (scn : BitVec 64)
  /-- MEMBER_REPORT_TIMEOUT, R329: A member silent for FED_CMD_TIMEOUT after the issuer's own completion ends the command with TIMEOUT. -/
  | memberReportTimeout
  /-- STALL_PATTERN_APPLY, R80: At Ga a stall pattern replaces the previous one and spurs start numbering edges from 0. -/
  | stallPatternApply
  /-- MANUAL_STALL_EXPIRY, R82: The MANUAL stall source ends after CORK_STALL_DURATION counted TCLK edges. -/
  | manualStallExpiry
  /-- HOLD_REQUEST_RX, R83: A lossless-trace hold request from a spur sets the TRACE stall source of its domain to 0xFFFF. -/
  | holdRequestRx (tile : TileId)
  /-- HOLD_RELEASE_RX, R83: When every requesting spur is below its low-water mark the TRACE hold is released. -/
  | holdReleaseRx (tile : TileId)
  /-- HOLD_LIMIT, R83: A hold lasting CORK_HOLD_LIMIT is released, the domain's trace turns lossy and HOLD_LIMIT is raised. -/
  | holdLimit
  /-- STALL_REQ_RX, R330: The anchor takes a member's STALL_REQ mask, and floods a STALL frame when the OR changes. -/
  | stallReqRx (hd : Hdr2) (mask tag : BitVec 16)
  /-- STALL_FRAME_RX, R331: A STALL frame is applied to the member's domain at Ga, or late with STALL_LATE and a divergence. -/
  | stallFrameRx (tendril : TendrilId) (anchor : Fin 2048) (mask tag : BitVec 16) (ga : BitVec 64)
  /-- JOB_CHECK_PERIOD, R332: Every FED_JOB_CHECK HCLK the anchor sends JOB_CHECK to the members. -/
  | jobCheckPeriod
  /-- JOB_CHECK_RX, R332: A member answers JOB_CHECK with its reference SCN at Gq. -/
  | jobCheckRx (hd : Hdr2) (tag : BitVec 16) (gq : BitVec 64)
  /-- JOB_CHECK_RESP_RX, R332: The anchor compares a member's reference SCN and raises JOB_SKEW on a difference. -/
  | jobCheckRespRx (hd : Hdr2) (status : BitVec 8) (scn : BitVec 64)
  /-- POWER_WINDOW_END, R90: At the end of each 12,500 HCLK window the estimate is formed, P chosen and the cap guard acts. -/
  | powerWindowEnd (counts : List Nat)
  /-- CAL_START, R88: A write of PWR_CTRL.CAL_START starts a calibration. -/
  | calStart (r : Req)
  /-- PWR_TELEM_FRAME, R490: A PWR_TELEM frame is checked by CRC-4 and becomes the latest measured sample. -/
  | pwrTelemFrame (v : Word)
  /-- TELEM_MISSING, R86: No valid sample for PWR_TELEM_TIMEOUT sets EST_ONLY and raises TELEM_MISSING. -/
  | telemMissing
  /-- EST_ONLY_FORCE, R86: A write of PWR_CTRL.EST_ONLY_FORCE makes the hub ignore samples, or clear forcing. -/
  | estOnlyForce (r : Req) (on : Bool)
  /-- PWR_CLKREQ, R92: PWR_CLKREQ.GO turns the power controller's request into a CLKCHG 4,096 HCLK ahead. -/
  | pwrClkreq (r : Req) (part : Fin 2) (div : Fin 4)
  /-- PWR_CTX_WRITE, R84: A PWR_CTX write sets a stopped slot's cap-tolerant flag and floor, or is ignored with an error. -/
  | pwrCtxWrite (r : Req) (v : Word)
  /-- HARVEST, R126: HARVEST checks the command, reserves space, opens a vintage and starts the phases. -/
  | harvest (r : Req)
  /-- HARV_SETUP_DONE, R109: The reservation is admitted and the harvest wave is sent to start the drain wait. -/
  | harvSetupDone
  /-- DRAIN_LIMIT, R110: HARV_DRAIN_LIMIT passes with tiles undrained; phase 1 starts and NOT_QUIET is raised. -/
  | drainLimit
  /-- HARV_RECORD_RX, R113: A record arriving at the harvest engine is parity checked and passed on, or retried, bypassed or replaced by a GAP. -/
  | harvRecordRx (column : Cane) (bad : Fin 5) (srcErr : Bool) (got : List Byte)
  /-- HARV_SPUR_TIMEOUT, R108: A spur silent for HARV_SPUR_LIMIT while not backpressured yields a GAP with reason SPUR_TIMEOUT. -/
  | harvSpurTimeout (column : Cane)
  /-- HARV_DONE, R127: Phase 4 flushes the lanes and writes the manifest, closing the vintage with its final status. -/
  | harvDone (err : Bool)
  /-- CASK_AVAILABLE, R176: Space returning to the cellar lets a waiting harvest continue from where it stood. -/
  | caskAvailable
  /-- HARV_ABORT, R127: ABORT ends a harvest at the next record boundary with GAP records of reason ABORTED. -/
  | harvAbort (r : Req)
  /-- DECANT, R123: DECANT verifies a vintage domain and restores regions, SRAM and state into the slot. -/
  | decant (r : Req)
  /-- DECANT_DONE, R123: Step 6 turns the canes back, sets the reference SCN and raises DECANT_DONE. -/
  | decantDone
  /-- DECANT_RELEASE, R124: DECANT_RELEASE returns a failed-decant slot's tiles to PARKED and empties the slot. -/
  | decantRelease (r : Req)
  /-- CANE_TURN_DONE, R26: A cane finishes its 256 HCLK change of direction. -/
  | caneTurnDone
  /-- CANE_LOCATE, R135: LOCATE makes each spur of the selected cane inject a pattern to find the broken stage. -/
  | caneLocate (r : Req)
  /-- LOCATE_DONE, R135: LOCATE finishes, records the break row and may engage bypass, raising CANE_LOCATE_DONE. -/
  | locateDone (cane : Cane) (row : Option (Fin 128))
  /-- CLEAR_BROKEN, R135: CLEAR_BROKEN ends bypass on the selected cane. -/
  | clearBroken (r : Req)
  /-- CANE_CLEAR_STATS, R135: CANE_CMD CLEAR_STATS clears the cane counters. -/
  | caneClearStats (r : Req)
  /-- CANE_BROKEN_WRITE, R135: Writing 1 to a CANE_BROKEN bit engages bypass at CANE_INFO.BREAK_ROW. -/
  | caneBrokenWrite (r : Req) (word : Fin 4) (v : Word)
  /-- HARVEST_ARGS_RX, R333: A HARVEST_ARGS command stores the selection for the following HARVEST of the same TXN. -/
  | harvestArgsRx (hd : Hdr2) (args : BitVec 96)
  /-- FED_HARVEST_RX, R128: A tendril HARVEST command starts a member harvest under the issuer's vintage number. -/
  | fedHarvestRx (hd : Hdr2) (args : BitVec 96)
  /-- PRESS_BLOCK_DONE, R159: A completed block is verified, written as COMPRESSED or RAW, and its LOCATOR entries filled. -/
  | pressBlockDone (lane : Lane) (fault : Fin 3)
  /-- REF_FETCH_DONE, R148: A reference record fetch completes or fails, releasing the waiting encoder. -/
  | refFetchDone (lane : Lane) (ok : Bool)
  /-- FLUSH_BLOCK, R156: FLUSH_BLOCK ends the lane's current block with FLUSHED set. -/
  | flushBlock (r : Req) (lane : Lane) (taken : BitVec 25)
  /-- LANE_RETIRE, R161: RETIRE takes a press lane out of service so that its partner serves both. -/
  | laneRetire (r : Req) (lane : Lane)
  /-- LANE_RESTORE, R161: RESTORE returns a retired lane that has passed BIST. -/
  | laneRestore (r : Req) (lane : Lane)
  /-- PRESS_CLEAR_STATS, R161: PRESS_CMD CLEAR_STATS clears the lane counters. -/
  | pressClearStats (r : Req) (lane : Lane)
  /-- PRESS_CTRL_WRITE, R165: A PRESS_CTRL write takes effect only while the lane is IDLE or RETIRED. -/
  | pressCtrlWrite (r : Req) (lane : Lane) (v : Word)
  /-- CELLAR_RESPONSE, R484: A cellar port response delivers read data or a write acknowledgement, or a fabric error to the issuing unit. -/
  | cellarResponse (user : CellUser) (err : Bool)
  /-- CELL_PIN, R175: PIN sets PIN on a closed vintage within the pin limit. -/
  | cellPin (r : Req)
  /-- CELL_UNPIN, R175: UNPIN clears PIN on a closed vintage. -/
  | cellUnpin (r : Req)
  /-- CELL_DELETE, R188: DELETE removes an unpinned, unheld vintage and raises VINTAGE_DELETED. -/
  | cellDelete (r : Req)
  /-- CELL_FORMAT, R188: FORMAT rewrites the cellar with the geometry registers, deleting every vintage. -/
  | cellFormat (r : Req)
  /-- FORMAT_DONE, R192: The FORMAT finishes and CELLAR_FORMATTED is raised. -/
  | formatDone
  /-- CELL_CLEAR_STATS, R192: CELL_CMD CLEAR_STATS clears the cellar counters. -/
  | cellClearStats (r : Req)
  /-- RACK, R183: RACK queues a request to send a vintage's manifest and streams over the rack port. -/
  | rack (r : Req)
  /-- RACK_TRACE, R183: RACK_TRACE queues a request to freeze and send a hub's trace ring as object 17. -/
  | rackTrace (r : Req)
  /-- RACK_CANCEL, R189: CANCEL removes a queued rack request or stops the active one at a segment boundary. -/
  | rackCancel (r : Req)
  /-- RACK_CLEAR_STATS, R194: RACK_CMD CLEAR_STATS clears the racking counters. -/
  | rackClearStats (r : Req)
  /-- RACK_START, R183: The idle racking engine chooses the next eligible request, places its hold and raises RACK_STARTED. -/
  | rackStart
  /-- RACK_PAUSE, R194: Setting or clearing RACK_CTRL.PAUSE stops or resumes BULK sending after the current segment. -/
  | rackPause (r : Req) (on : Bool)
  /-- HOLD_RENEW, R186: Every 1 ms the lead renews the racking hold on a remote vintage. -/
  | holdRenew
  /-- RACK_HOLD_LAPSE, R186: A racking hold unrenewed for 10 ms is dropped. -/
  | rackHoldLapse
  /-- HOLD_RX, R186: A tendril HOLD command acquires, renews or drops a racking hold on a vintage. -/
  | holdRx (hd : Hdr2) (vintage : Word) (kind : BitVec 8)
  /-- CLOSED_RX, R185: A CLOSED command at a lead queues an automatic RACK for a served crash vintage. -/
  | closedRx (hd : Hdr2) (vintage : Word) (flags : BitVec 8)
  /-- TRACE_START, R216: START applies TRACE_CTRL and sends filters and visibility to every spur. -/
  | traceStart (r : Req)
  /-- TRACE_STOP, R216: STOP flushes spur buffers and router frames and raises TRACE_STOPPED. -/
  | traceStop (r : Req)
  /-- TRACE_FREEZE, R209: FREEZE sets the COMMAND freeze reason. -/
  | traceFreeze (r : Req)
  /-- TRACE_UNFREEZE, R209: UNFREEZE clears the COMMAND and TRIGGER freeze reasons. -/
  | traceUnfreeze (r : Req)
  /-- TRACE_RESYNC, R204: RESYNC makes every tracing spur emit a SYNC with reason COMMAND. -/
  | traceResync (r : Req)
  /-- CLEAR_RING, R216: CLEAR_RING sets TRACE_WPTR to 0 and clears WRAPPED, RING_OPEN and FULL. -/
  | clearRing (r : Req)
  /-- TRACE_ARM, R213: ARM sets TRACE_STATE.ARMED. -/
  | traceArm (r : Req)
  /-- TRACE_TRIGGER, R213: TRIGGER fires a trigger of source COMMAND, or writes only its packet when not armed. -/
  | traceTrigger (r : Req)
  /-- TRACE_CLEAR_STATS, R219: TRACE_CMD CLEAR_STATS clears the trace counters. -/
  | traceClearStats (r : Req)
  /-- TILE_TAP_EDGE, R195: On an executed TCLK edge the spur takes the tile's branch, access, event and numeric taps into its trace unit and counters. -/
  | tileTapEdge (tile : TileId) (taps : Taps)
  /-- LOW_POWER_ENTRY, R195: The tile's low-power entry strobe makes the spur emit a POWER packet. -/
  | lowPowerEntry (tile : TileId) (state : Fin 16)
  /-- LOW_POWER_EXIT, R195: The tile's low-power exit strobe makes the spur emit a SYNC with reason POWER. -/
  | lowPowerExit (tile : TileId)
  /-- TRACE_SYNC_PERIOD, R204: TRACE_SYNC_PERIOD since a spur's last SYNC makes it emit a SYNC before its next packet. -/
  | traceSyncPeriod (tile : TileId)
  /-- TRACE_PACKET_RX, R206: A complete trace packet at the router is checked and appended to its column's frame, or dropped or held. -/
  | tracePacketRx (tile : TileId) (malformed : Bool)
  /-- TRACE_FLUSH_LIMIT, R206: A frame open for TRACE_FLUSH_LIMIT is written to the ring. -/
  | traceFlushLimit
  /-- TRACE_FRAME_WRITTEN, R208: A frame write advances TRACE_WPTR, wraps or freezes the ring, and counts toward the post-trigger window. -/
  | traceFrameWritten (buffer : Fin 129) (err : Bool)
  /-- FRAME_BUFFER_FREE, R207: A freed frame buffer lets the router begin an OVERFLOW frame and request resyncs. -/
  | frameBufferFree (column : Cane)
  /-- SPUR_TRIGGER_RX, R213: A spur trigger reaching the hub fires the armed trigger and may issue a trigger cork. -/
  | spurTriggerRx (tile : TileId) (event : Bool) (window : Fin 4)
  /-- TRACEF_WRITE, R221: A write to a TRACEF filter register is broadcast to every spur as a wave. -/
  | tracefWrite (r : Req) (off : BitVec 12) (v : Word)
  /-- TRACEF_BCAST_TIMEOUT, R220: A filter write not acknowledged by every spur within 256 HCLK sets BCAST_FAIL. -/
  | tracefBcastTimeout (missing : Bool)
  /-- TASTE_TICK, R246: Every TASTE_INTERVAL the scheduler picks a slot and tile, reserves a buffer and sends a sample request. -/
  | tasteTick
  /-- TASTE_REQUEST_RX, R247: A spur receiving a sample request arms 8 HCLK later. -/
  | tasteRequestRx (tile : TileId)
  /-- TASTE_OP_ISSUE, R247: An armed spur samples the first eligible tasteable operation and starts reading its operands. -/
  | tasteOpIssue (tile : TileId) (desc : OpDesc)
  /-- TASTE_MISSED, R247: No eligible operation within TASTE_WAIT makes the spur report MISSED. -/
  | tasteMissed (tile : TileId)
  /-- TASTE_LATE, R249: Residency runs out before the last read and the sample ends LATE. -/
  | tasteLate (tile : TileId)
  /-- SAMPLE_RX, R254: A complete sample reaches the hub and is checked and handed to a taster. -/
  | sampleRx (buffer : Fin 8) (bad : Fin 3) (got : Option (List Byte))
  /-- TASTER_RESULT, R255: A taster finishes its recomputation and the result is compared, confirmed and acted on. -/
  | tasterResult (taster : Fin 4) (faulty : Option (List Nat))
  /-- SAMPLE_NOW, R273: SAMPLE_NOW sends a sample request to the tile in TASTE_ARG. -/
  | sampleNow (r : Req)
  /-- UNLOCK_EVID, R257: UNLOCK_EVID unlocks the evidence buffer. -/
  | unlockEvid (r : Req)
  /-- RETIRE_TASTER, R273: RETIRE_TASTER takes a taster out of service. -/
  | retireTaster (r : Req)
  /-- RESTORE_TASTER, R273: RESTORE_TASTER returns a taster that passed BIST to service. -/
  | restoreTaster (r : Req)
  /-- TASTE_CLEAR_STATS, R276: TASTE_CMD CLEAR_STATS clears the tasting counters. -/
  | tasteClearStats (r : Req)
  /-- EVID_DATA_READ, R276: A read of TASTE_EVID_DATA returns the word at OFFSET and adds 4 to OFFSET. -/
  | evidDataRead (r : Req)
  /-- RUN_TILES, R262: RUN_TILES sends a digest wave for a slot and set down the trellis. -/
  | runTiles (r : Req)
  /-- RUN_EXT, R266: RUN_EXT digests a region table entry through the cellar port. -/
  | runExt (r : Req)
  /-- DIGEST_ABORT, R273: ABORT ends a running or repeating digest pass. -/
  | digestAbort (r : Req)
  /-- DIGEST_CLEAR_STATS, R278: DIGEST_CMD CLEAR_STATS clears the digest counters. -/
  | digestClearStats (r : Req)
  /-- DIGEST_PASS_END, R264: A digest pass ends, its sum is stored and compared, and DIGEST_DONE, MISMATCH or INCOMPLETE is raised. -/
  | digestPassEnd (ext : Bool) (crcBad : Option TileId)
  /-- DIGEST_REPEAT, R264: With REPEAT set the pass is issued again every DIGEST_PERIOD. -/
  | digestRepeat (ext : Bool)
  /-- FED_DIGEST_RX, R267: A tendril DIGEST command makes a member digest its slot of the tag and return its sum. -/
  | fedDigestRx (hd : Hdr2) (tag : BitVec 16) (set flags : BitVec 8)
  /-- NUMW_WINDOW_END, R269: At each numeric watch window end the spurs latch their counts and the hub collects sums, maxima and first occurrences. -/
  | numwWindowEnd (bad : Option Slot)
  /-- REARM_FIRST, R270: REARM_FIRST re-enables NUMW_FIRST for the selected slot and kind. -/
  | rearmFirst (r : Req)
  /-- NUMW_CLEAR_STATS, R280: NUMW_CMD CLEAR_STATS clears the numeric watch totals. -/
  | numwClearStats (r : Req)
  /-- BEAT_REPORT_RX, R283: A beat report at the root is a complete beat that records the epoch, or a partial beat handled as divergence. -/
  | beatReportRx (slot : Slot) (count : Nat)
  /-- HANG_THRESHOLD_EXPIRY, R286: A monitor timer exceeds its threshold, the monitor fires and BEAT_POLICY applies. -/
  | hangThresholdExpiry
  /-- STROBE_FAULT_RX, R287: A spur's strobe fault report raises SCN_STROBE and applies DIV_POLICY. -/
  | strobeFaultRx (tile : TileId)
  /-- AUDIT_TICK, R288: Every 16 HCLK the cork unit sends an audit wave for the next audited slot. -/
  | auditTick
  /-- AUDIT_RESULT, R290: The reduced audit result arrives and any disagreement raises SCN_DIVERGE and applies DIV_POLICY. -/
  | auditResult (crcBad : Bool)
  /-- POLICY_RETRY, R293: A policy harvest refused with BUSY is offered again every 1 ms. -/
  | policyRetry
  /-- HANG_FENCE, R294: FENCE asserts the fence request of a slot to the field memory port. -/
  | hangFence (r : Req)
  /-- HANG_RELEASE, R296: RELEASE ends the fence of a stopped or empty slot. -/
  | hangRelease (r : Req)
  /-- CLEAR_FIRED, R286: CLEAR_FIRED takes a monitor out of FIRED and restarts its timer. -/
  | clearFired (r : Req)
  /-- CLEAR_HISTORY, R285: CLEAR_HISTORY empties a monitor's durations and returns it to LEARNING. -/
  | clearHistory (r : Req)
  /-- HANG_CLEAR_STATS, R312: HANG_CMD CLEAR_STATS clears the hang counters. -/
  | hangClearStats (r : Req)
  /-- FENCE_DRAINED, R294: FENCE_DRAINED from the port raises FENCED and sets the slot's bit in HANG_FENCED. -/
  | fenceDrained (slot : Slot)
  /-- FENCE_DRAIN_LIMIT, R295: HANG_FENCE_DRAIN passes without drain, so the hub orders the port to abandon outstanding requests. -/
  | fenceDrainLimit
  /-- FENCE_ABANDON_DONE, R295: The port reports abandonment complete and affected spurs set ABANDONED and clear their counts. -/
  | fenceAbandonDone (slot : Slot)
  /-- FENCE_LIMIT, R296: A fence lasting HANG_FENCE_LIMIT raises FENCE_LIMIT and may start the CONTEXT level. -/
  | fenceLimit
  /-- FENCE_ACK_TIMEOUT, R311: No FENCE_ACK within 64 HCLK sets PG_ERROR.FENCE_NACK. -/
  | fenceAckTimeout (slot : Slot)
  /-- LADDER_RESET, R297: RSET_CMD RESET starts the named ladder level, superseding a lower one. -/
  | ladderReset (r : Req)
  /-- ISOLATE, R298: ISOLATE isolates a tile in no context without a reset. -/
  | isolate (r : Req)
  /-- READMIT, R302: READMIT runs tile LBIST, a tile reset and clock release to return an out-of-service tile. -/
  | readmit (r : Req)
  /-- RSET_CLEAR_STATS, R314: RSET_CMD CLEAR_STATS clears the ladder counters. -/
  | rsetClearStats (r : Req)
  /-- TILE_RESET_ACK, R298: T_RST_ACK seen at or after the end of the 64 TCLK pulse completes the tile reset. -/
  | tileResetAck (tile : TileId)
  /-- TILE_RESET_TIMEOUT, R298: No acknowledge within 4,096 TCLK raises TILE_RESET_TIMEOUT and isolates the tile. -/
  | tileResetTimeout (tile : TileId)
  /-- ISOLATION_WATCH_END, R298: After 256 HCLK of watching, isolation is judged held or failed. -/
  | isolationWatchEnd (tile : TileId) (strobe answered : Bool)
  /-- LADDER_LEVEL_DONE, R300: A ladder level completes or fails, climbing further or raising LADDER_DONE. -/
  | ladderLevelDone
  /-- LADDER_LEVEL_TIMEOUT, R300: A FIELD or CHIP level not released within its limit fails. -/
  | ladderLevelTimeout
  /-- LADDER_RX, R333: A tendril LADDER command orders a FIELD level or reports release to the lead. -/
  | ladderRx (hd : Hdr2) (level : BitVec 8) (released : Bool) (tag : BitVec 16)
  /-- PEER_LOST, R304: A PEER_LOST message at a lead is relayed into the package and the tags' peer policies are applied. -/
  | peerLost (pkg : Fin 16) (tags : List (BitVec 16))
  /-- TENDRIL_PEER_LOST, R304: A relayed PEER_LOST command raises PEER_LOST in the hub and is forwarded. -/
  | tendrilPeerLost (hd : Hdr2) (pkg : BitVec 8) (count : BitVec 8) (tags : BitVec 80)
  /-- PEER_POLICY_DONE, R305: The last step of a peer policy ends and the lead records it in HANG_PEER_LAST. -/
  | peerPolicyDone
  /-- PCS_CODEWORD_RX, R343: A received RS codeword is decoded and its flit slots passed on, or counted as uncorrectable, affecting lock. -/
  | pcsCodewordRx (symbols : List (BitVec 10))
  /-- FLIT_RX, R347: A received flit is checked, ACK, NAK and credits are applied, and an in-order DATA flit is accepted. -/
  | flitRx (flit : List Byte)
  /-- INIT_FLIT_RX, R355: An INIT flit records the peer's credits and window and can bring the link UP. -/
  | initFlitRx (flit : List Byte)
  /-- FLIT_SLOT, R351: At each 4 HCLK flit boundary the transmitter picks a replay, COMMAND, EVENT, BULK or NULL flit. -/
  | flitSlot
  /-- LINK_REPLAY_TIMEOUT, R348: No ACK progress for LINK_REPLAY_TIMEOUT starts a replay, counting toward LINK_REPLAY_LIMIT. -/
  | linkReplayTimeout
  /-- NAK_TIMEOUT, R347: The expected flit not arriving within LINK_REPLAY_TIMEOUT counts a new NAK. -/
  | nakTimeout
  /-- LINK_IDLE_TIMEOUT, R354: No good flit for LINK_IDLE_LIMIT while UP takes the link DOWN with cause IDLE. -/
  | linkIdleTimeout
  /-- LINK_TRAIN_TIMEOUT, R353: A retrain not UP within LINK_TRAIN_LIMIT returns to DOWN with TRAIN_TIMEOUT. -/
  | linkTrainTimeout
  /-- LINK_RETRAIN_TIMER, R353: 1 ms after entering DOWN with AUTO_RETRAIN set, a retrain begins. -/
  | linkRetrainTimer
  /-- PMA_READY_CHANGE, R353: PMA_READY rising moves the link to FEC_LOCK, and falling takes it DOWN with PMA_LOST. -/
  | pmaReadyChange (ready : Bool)
  /-- LINK_RETRAIN, R353: LINK_CMD RETRAIN takes the link down and retrains it. -/
  | linkRetrain (r : Req)
  /-- LINK_DOWN_CMD, R354: LINK_CMD DOWN takes the link DOWN with cause COMMAND. -/
  | linkDownCmd (r : Req)
  /-- LINK_CLEAR_STATS, R371: LINK_CMD CLEAR_STATS clears the link counters. -/
  | linkClearStats (r : Req)
  /-- MESSAGE_DELIVERED, R349: The last flit of a message is acknowledged and delivery is reported to its source, such as the racking engine. -/
  | messageDelivered
  /-- PORT_REG_READ, R360: A REG_READ message reads up to 16 registers locally or relays one, answering with REG_RESP. -/
  | portRegRead (tag dest : BitVec 16) (body : List Byte)
  /-- PORT_REG_WRITE, R360: A REG_WRITE message writes registers locally or relays one, answering with REG_RESP. -/
  | portRegWrite (tag dest : BitVec 16) (body : List Byte)
  /-- PORT_CORK, R358: A CORK message issues a cork command with requester PORT and answers at acceptance and completion. -/
  | portCork (tag dest : BitVec 16) (body : List Byte)
  /-- PORT_XPKG, R362: An XPKG message from the TDC issues a cross-package cork or harvest in the package. -/
  | portXpkg (tag dest : BitVec 16) (body : List Byte)
  /-- PORT_XPKG_REPORT, R362: An XPKG_REPORT from another package is collected by the issuing lead. -/
  | portXpkgReport (tag dest : BitVec 16) (body : List Byte)
  /-- PORT_PEER_LOST, R362: A PEER_LOST message is handled under R304 and answered with ERROR OK once relayed. -/
  | portPeerLost (tag dest : BitVec 16) (body : List Byte)
  /-- TIME_PING, R365: A TIME_PING is answered with a TIME_PONG carrying GCN_RX, GCN_TX and the echoed value. -/
  | timePing (tag dest : BitVec 16) (body : List Byte)
  /-- BIST_RUN, R400: BIST RUN starts a logic and memory test of a target unit. -/
  | bistRun (r : Req)
  /-- BIST_ABORT, R411: BIST ABORT ends every run of the named target and unit with ABORTED. -/
  | bistAbort (r : Req)
  /-- LOAD_PACK, R405: LOAD_PACK reads and checks a pack from package memory into a pack slot. -/
  | loadPack (r : Req)
  /-- PACK_CHECK_DONE, R405: A pack read completes its check, making the slot valid or rejecting it. -/
  | packCheckDone (slot : Fin 16) (err : Bool)
  /-- DROP_PACK, R411: DROP_PACK empties the named pack slot. -/
  | dropPack (r : Req)
  /-- BIST_CLEAR_STATS, R414: BIST_CMD CLEAR_STATS clears the BIST counters. -/
  | bistClearStats (r : Req)
  /-- BIST_RUN_END, R409: A run ends with its outcome and failures act per target. -/
  | bistRunEnd (target : Fin 5) (unit outcome : Nat) (randomFail : Bool) (info got want : Nat)
  /-- BIST_RUN_TIMEOUT, R409: A run exceeding BIST_RUN_LIMIT times its nominal duration ends with TIMEOUT. -/
  | bistRunTimeout
  /-- JTAG_REGBUS_ACCESS, R410: An update of the REGBUS data register performs a register read or write with requester JTAG. -/
  | jtagRegbusAccess (data : BitVec 66)
  /-- TAP_RESET, R467: TAP test-logic reset ends JTAG page ownership. -/
  | tapReset
  /-- TENDING_ROUND, R417: Every REL_TEND_PERIOD tending scrubs SRAM, checks parity, echoes spurs and checks tasters and idle lanes. -/
  | tendingRound (found : List TendFind)
  /-- TEND_NOW, R433: REL_CMD TEND_NOW starts a tending round at once. -/
  | tendNow (r : Req)
  /-- REL_CLEAR_STATS, R433: REL_CMD CLEAR_STATS clears the reliability counters. -/
  | relClearStats (r : Req)
  /-- FAULT_INJECT, R430: REL_INJECT.GO plants one fault of the given kind for validation. -/
  | faultInject (r : Req) (v : Word)
  /-- STATE_MACHINE_FAULT, R415: An invalid code word or critical element fault is detected, resetting the unit or escalating to takeover or SAFE. -/
  | stateMachineFault (page : BitVec 8)
  /-- HEARTBEAT_TIMEOUT, R423: The heartbeat missing on both mirror paths for PAIR_HB_LIMIT starts a takeover or leads to SAFE. -/
  | heartbeatTimeout
  /-- PAIR_TAKEOVER, R423: PAIR_CMD TAKEOVER starts a takeover by command. -/
  | pairTakeover (r : Req)
  /-- RESTORE_STANDBY, R436: RESTORE_STANDBY sends a full checkpoint, restarts the mirror and raises STANDBY_RESTORED. -/
  | restoreStandby (r : Req)
  /-- PAIR_CLEAR_STATS, R435: PAIR_CMD CLEAR_STATS clears the pair counters. -/
  | pairClearStats (r : Req)
  /-- TAKEOVER_DONE, R424: The new active core finishes halting streams, applying the mirror, closing harvests and re-joining time. -/
  | takeoverDone
  /-- MIRROR_ENTRY_RX, R421: The standby applies a mirror stream entry from the active core. -/
  | mirrorEntryRx (path : Fin 2) (good : Bool) (entry : MirrorEntry)
  /-- CHECKPOINT_PERIOD, R422: Every PAIR_CKPT_PERIOD the active core writes a checkpoint into the standby's store. -/
  | checkpointPeriod
  /-- CHECKPOINT_RX, R422: The standby checks a checkpoint's CRC, raising CHECKPOINT_FAIL on failure. -/
  | checkpointRx (good : Bool)
  /-- COOP_START, R440: COOPn_CMD START starts the named script with COOPn_ARG in W1. -/
  | coopStart (r : Req) (coop : CoopId) (script : Fin 8)
  /-- COOP_ABORT, R454: COOPn_CMD ABORT halts the cooper with cause ABORT or ends LOADING. -/
  | coopAbort (r : Req) (coop : CoopId)
  /-- LOAD_BEGIN, R452: LOAD_BEGIN puts an idle or halted cooper into LOADING. -/
  | loadBegin (r : Req) (coop : CoopId)
  /-- LOAD_COMMIT, R452: LOAD_COMMIT checks the loaded program under R449 and makes the cooper IDLE or EMPTY. -/
  | loadCommit (r : Req) (coop : CoopId)
  /-- COOP_CLEAR_STATS, R457: COOPn_CMD CLEAR_STATS clears the cooper counters. -/
  | coopClearStats (r : Req) (coop : CoopId)
  /-- COOP_PROG_DATA_WRITE, R457: A write of COOPn_PROG_DATA during LOADING stores a program word and advances WORD. -/
  | coopProgDataWrite (r : Req) (coop : CoopId) (v : Word)
  /-- COOP_DATA_DATA_ACCESS, R457: An access to COOPn_DATA_DATA reads or writes a data word and advances WORD. -/
  | coopDataDataAccess (r : Req) (coop : CoopId) (write : Option Word)
  /-- COOP_EVENT_TRIGGER, R439: An occurrence matching an EVENT script filter starts or pends that script. -/
  | coopEventTrigger (coop : CoopId)
  /-- COOP_PENDING_START, R440: A pending script starts when the cooper next becomes IDLE. -/
  | coopPendingStart (coop : CoopId)
  /-- COOP_NOP, R442: NOP does nothing but update the signature. -/
  | coopNop (coop : CoopId)
  /-- COOP_LI, R442: LI loads a zero-extended immediate. -/
  | coopLi (coop : CoopId)
  /-- COOP_LIH, R442: LIH loads bits [31:18] of a register from the immediate. -/
  | coopLih (coop : CoopId)
  /-- COOP_ADDI, R442: ADDI adds a sign-extended immediate. -/
  | coopAddi (coop : CoopId)
  /-- COOP_ANDI, R442: ANDI ands with a zero-extended immediate. -/
  | coopAndi (coop : CoopId)
  /-- COOP_ORI, R442: ORI ors with a zero-extended immediate. -/
  | coopOri (coop : CoopId)
  /-- COOP_ADD, R442: ADD adds two registers modulo 2^32. -/
  | coopAdd (coop : CoopId)
  /-- COOP_SUB, R442: SUB subtracts two registers modulo 2^32. -/
  | coopSub (coop : CoopId)
  /-- COOP_AND, R442: AND ands two registers. -/
  | coopAnd (coop : CoopId)
  /-- COOP_OR, R442: OR ors two registers. -/
  | coopOr (coop : CoopId)
  /-- COOP_XOR, R442: XOR xors two registers. -/
  | coopXor (coop : CoopId)
  /-- COOP_SHL, R442: SHL shifts a register left. -/
  | coopShl (coop : CoopId)
  /-- COOP_SHR, R442: SHR shifts a register right logically. -/
  | coopShr (coop : CoopId)
  /-- COOP_LD, R442: LD loads a data store word, halting with BAD_ADDR out of range. -/
  | coopLd (coop : CoopId)
  /-- COOP_ST, R442: ST stores a data store word, halting with BAD_ADDR out of range. -/
  | coopSt (coop : CoopId)
  /-- COOP_JMP, R442: JMP transfers control by a signed offset. -/
  | coopJmp (coop : CoopId)
  /-- COOP_BEQ, R442: BEQ branches when two registers are equal. -/
  | coopBeq (coop : CoopId)
  /-- COOP_BNE, R442: BNE branches when two registers differ. -/
  | coopBne (coop : CoopId)
  /-- COOP_BLTU, R442: BLTU branches when unsigned less than. -/
  | coopBltu (coop : CoopId)
  /-- COOP_BGEU, R442: BGEU branches when unsigned greater or equal. -/
  | coopBgeu (coop : CoopId)
  /-- COOP_CALL, R442: CALL pushes the return address and branches, halting with STACK on overflow. -/
  | coopCall (coop : CoopId)
  /-- COOP_RET, R442: RET pops the PC, halting with STACK when empty. -/
  | coopRet (coop : CoopId)
  /-- COOP_END, R442: END ends the script and makes the cooper IDLE. -/
  | coopEnd (coop : CoopId)
  /-- COOP_FAIL, R442: FAIL halts the cooper with cause FAIL and its code. -/
  | coopFail (coop : CoopId)
  /-- COOP_SIG, R448: SIG checks the execution signature, reloading the watchdog or halting with SIGNATURE. -/
  | coopSig (coop : CoopId)
  /-- COOP_RD, R444: RD reads a register with the cooper's requester code. -/
  | coopRd (coop : CoopId)
  /-- COOP_WR, R444: WR writes a register with the cooper's requester code and returns the status. -/
  | coopWr (coop : CoopId)
  /-- COOP_CORK, R443: The CORK instruction issues a cork command from its data store block. -/
  | coopCork (coop : CoopId)
  /-- COOP_HARV, R443: The HARV instruction issues a harvest command from its data store block. -/
  | coopHarv (coop : CoopId)
  /-- COOP_RACK, R443: The RACK instruction issues a racking command from its data store block. -/
  | coopRack (coop : CoopId)
  /-- COOP_XREG, R444: XREG starts a remote register access over the tendrils and waits. -/
  | coopXreg (coop : CoopId)
  /-- COOP_WAIT, R445: WAIT takes a queued matching occurrence or suspends until one arrives or the timeout passes. -/
  | coopWait (coop : CoopId)
  /-- COOP_DELAY, R442: DELAY suspends the script for W[A] HCLK. -/
  | coopDelay (coop : CoopId)
  /-- COOP_WAITT, R442: WAITT suspends the script until GCN reaches a value. -/
  | coopWaitt (coop : CoopId)
  /-- COOP_GETEV, R442: GETEV reads a field of the last occurrence taken. -/
  | coopGetev (coop : CoopId)
  /-- COOP_STAT, R444: STAT reads the cooper's last status. -/
  | coopStat (coop : CoopId)
  /-- COOP_ARM, R445: ARM sets the event queue filter and empties the queue. -/
  | coopArm (coop : CoopId)
  /-- COOP_EVENT_ARRIVAL, R446: A matching occurrence reaches the cooper 2 HCLK after raising, completing a WAIT or joining the queue. -/
  | coopEventArrival (coop : CoopId)
  /-- COOP_WAIT_TIMEOUT, R445: A WAIT's timeout passes and W[D] receives 0. -/
  | coopWaitTimeout (coop : CoopId)
  /-- COOP_DELAY_EXPIRY, R447: A DELAY's count expires and the script continues. -/
  | coopDelayExpiry (coop : CoopId)
  /-- COOP_WAITT_REACHED, R447: GCN reaches the WAITT value, or a join ends the wait with result 1. -/
  | coopWaittReached (coop : CoopId)
  /-- COOP_WATCHDOG, R450: The watchdog reaches 0 and the cooper halts with cause WATCHDOG. -/
  | coopWatchdog (coop : CoopId)
  /-- GLB_OPEN, R471: OPEN makes an empty slot a stopped stop domain with the given tag, privilege, profile, seed and SCN. -/
  | glbOpen (r : Req)
  /-- ADD_TILES, R471: ADD_TILES joins every PARKED tile in the rectangle to the slot. -/
  | addTiles (r : Req)
  /-- REMOVE_TILES, R471: REMOVE_TILES returns the slot's tiles in the rectangle to PARKED. -/
  | removeTiles (r : Req)
  /-- GLB_CLOSE, R471: CLOSE returns every tile of the slot to PARKED, empties it and resets its FED_JOB entry. -/
  | glbClose (r : Req)
  /-- SOFT_RESET, R462: PG_CTRL.SOFT_RESET returns the page's RW fields and counters to reset once the page is not busy. -/
  | softReset (r : Req) (page : BitVec 8)
  /-- PG_LOCK, R463: PG_CTRL.LOCK freezes the page's RW fields until a FIELD level or power-up. -/
  | pgLock (r : Req) (page : BitVec 8)
  /-- PG_EVENT_FORCE, R461: A 1 written to PG_EVENT_FORCE sets the PG_EVENT bit with its interrupt effect. -/
  | pgEventForce (r : Req) (page : BitVec 8) (bits : Word)
  /-- PG_CLAIM, R467: PG_OWNER.CLAIM gives an unowned page to the requester. -/
  | pgClaim (r : Req) (page : BitVec 8)
  /-- PG_RELEASE, R467: PG_OWNER.RELEASE gives up ownership of the page. -/
  | pgRelease (r : Req) (page : BitVec 8)
  /-- FORCE_RELEASE, R467: PG_OWNER.FORCE_RELEASE by MGMT or JTAG ends any requester's ownership. -/
  | forceRelease (r : Req) (page : BitVec 8)
  /-- LO_READ_LATCH, R6: A read of a LO register latches its HI half for the same requester. -/
  | loReadLatch (r : Req) (addr : BitVec 20)
  /-- REGISTER_WRITE, R469: A write to a register with no row of its own is checked and carried out or refused. -/
  | registerWrite (r : Req) (addr : BitVec 20) (v : Word)
  /-- SPUR_WINDOW_ACCESS, R475: An access to the SPURW window is carried to the selected spur and completes when it answers. -/
  | spurWindowAccess (r : Req) (off : BitVec 8) (write : Option Word)
  /-- SPUR_WINDOW_TIMEOUT, R475: No good spur answer within 1,024 HCLK ends the access with TIMEOUT. -/
  | spurWindowTimeout (r : Req) (crc : Bool)
  /-- SPUR_SRAM_LO_READ, R476: A read of SPUR_SRAM_LO reads 8 SRAM bytes, returns bytes 0–3 and latches 4–7. -/
  | spurSramLoRead (r : Req)
  /-- SPUR_SRAM_LO_WRITE, R476: A write of SPUR_SRAM_LO is staged per requester. -/
  | spurSramLoWrite (r : Req) (v : Word)
  /-- SPUR_SRAM_HI_WRITE, R476: A write of SPUR_SRAM_HI writes the 8 staged bytes into tile SRAM. -/
  | spurSramHiWrite (r : Req) (v : Word)
  /-- I3C_ENTDAA, R466: ENTDAA assigns the I3C target its dynamic address. -/
  | i3cEntdaa (addr : BitVec 7)
  /-- I3C_PRIVATE_WRITE, R466: An I3C private write sets the register address and may write 4 data bytes. -/
  | i3cPrivateWrite (addr : BitVec 24) (data : Option Word) (parityBad : Bool)
  /-- I3C_PRIVATE_READ, R466: An I3C private read returns a register with a status byte and advances the address by 4. -/
  | i3cPrivateRead (parityBad : Bool)
  /-- MEMORY_DELIVERY, R493: A memory delivery enters the spur and is passed to the tile, caught, or discarded. -/
  | memoryDelivery (tile : TileId) (dest : BitVec 16) (data : List Byte) (be : BitVec 64) (mtag : BitVec 16) (err : Bool)
  /-- MEMORY_COMPLETION, R106: M_RD_DONE or M_WR_ACK counts the tile's outstanding reads or writes down. -/
  | memoryCompletion (tile : TileId) (rd : Bool)
  /-- TILE_SCN_STROBE, R40: The tile's SCN increment strobe advances the spur's shadow SCN. -/
  | tileScnStrobe (tile : TileId) (sram scan : List (BitVec 16 × List Byte))
  /-- FRAME_CRC_ERROR, R321: A tendril frame that fails its CRC, is interrupted by abort or a new first beat, or carries a reserved TYPE is discarded and counted; 8 consecutive bad frames take the tendril to FAILED and raise TENDRIL_DOWN. -/
  | frameCrcError (tendril : TendrilId)
  /-- MIRROR_PATH_LOSS, R422: One of the two mirror paths of Dysko 16K-R goes silent, which sets PAIR PG_ERROR.MIRROR_PATH and raises MIRROR_PATH while the other path keeps the standby in service. -/
  | mirrorPathLoss (path : Fin 2)
deriving DecidableEq, Repr

end Sys2Proof
end

