-- ==== Sys2Proof/Decode.lean ====
section
/-! DEFINITION. Words of the opcode table: its rows give no bits, so no word spells a command. -/

namespace Sys2Proof

/-- The command spelt by a word of the opcode table's bits: every row of the table has zero bits, hence none. -/
def decodeTableWord (_nbits _w : Nat) : Option Instr := none

end Sys2Proof
end

