-- ==== Sys2Proof/Machine/RegTable.lean ====
section
/-! DEFINITION. The register map: the address of every register of the 1 MiB register space (R458) and, per page, every
field with its place, its access code (R7) and its reset value, transcribed from the register tables of the chapters
(the rule of each page stands at its list). A PRESS register has the address of lane 0, a COOP register that of
cooper 0; the page of another lane or cooper adds 0x1000 for each step (R458). -/

namespace Sys2Proof.Machine

/-- The access codes of R7. -/
inductive Acc where
  | rw | ro | wo | w1s | w1c
deriving DecidableEq, Repr

/-- One field of a register: lowest bit, width, access and reset value. -/
structure FieldDef where
  lo : Nat
  width : Nat
  acc : Acc
  reset : Nat
deriving DecidableEq, Repr

/-- One register: its offset in its page and its fields. Bits of no field are reserved (R8). -/
structure RegDef where
  off : Nat
  fields : List FieldDef
deriving DecidableEq, Repr

/-- A named field of the register space: the register's address, the field's lowest bit and its width. -/
structure Fld where
  addr : Nat
  lo : Nat
  width : Nat
deriving DecidableEq, Repr

/-- The same field in page `n` pages further on (lane n, or cooper n). -/
def Fld.lane (f : Fld) (n : Nat) : Fld := ⟨f.addr + n * 0x1000, f.lo, f.width⟩

/-! ### Addresses of the registers -/

/-- PG_ID, R459. -/
def R.PG_ID : Nat := 0x00000
/-- PG_VERSION, R459. -/
def R.PG_VERSION : Nat := 0x00004
/-- PG_CAPS, R459. -/
def R.PG_CAPS : Nat := 0x00008
/-- PG_CTRL, R459. -/
def R.PG_CTRL : Nat := 0x0000C
/-- PG_STATUS, R459. -/
def R.PG_STATUS : Nat := 0x00010
/-- PG_EVENT, R459. -/
def R.PG_EVENT : Nat := 0x00014
/-- PG_EVENT_EN, R459. -/
def R.PG_EVENT_EN : Nat := 0x00018
/-- PG_EVENT_FORCE, R459. -/
def R.PG_EVENT_FORCE : Nat := 0x0001C
/-- PG_ERROR, R459. -/
def R.PG_ERROR : Nat := 0x00020
/-- PG_ERROR_INFO, R459. -/
def R.PG_ERROR_INFO : Nat := 0x00024
/-- PG_OWNER, R459. -/
def R.PG_OWNER : Nat := 0x00028
/-- PG_PARITY, R459. -/
def R.PG_PARITY : Nat := 0x0002C
/-- GLB_HUB, R474. -/
def R.GLB_HUB : Nat := 0x00040
/-- GLB_GRID, R474. -/
def R.GLB_GRID : Nat := 0x00044
/-- GLB_WHOAMI, R474. -/
def R.GLB_WHOAMI : Nat := 0x00048
/-- GLB_INT_0, R474. -/
def R.GLB_INT_0 : Nat := 0x0004C
/-- GLB_INT_1, R474. -/
def R.GLB_INT_1 : Nat := 0x00050
/-- GLB_REFUSED, R474. -/
def R.GLB_REFUSED : Nat := 0x00054
/-- GLB_REFUSED_COUNT, R474. -/
def R.GLB_REFUSED_COUNT : Nat := 0x00058
/-- GLB_CTX_SEL, R474. -/
def R.GLB_CTX_SEL : Nat := 0x0005C
/-- GLB_CTX_CFG, R474. -/
def R.GLB_CTX_CFG : Nat := 0x00060
/-- GLB_CTX_PROFILE, R474. -/
def R.GLB_CTX_PROFILE : Nat := 0x00064
/-- GLB_CTX_SEED_LO, R474. -/
def R.GLB_CTX_SEED_LO : Nat := 0x00068
/-- GLB_CTX_SEED_HI, R474. -/
def R.GLB_CTX_SEED_HI : Nat := 0x0006C
/-- GLB_CTX_SCN_LO, R474. -/
def R.GLB_CTX_SCN_LO : Nat := 0x00070
/-- GLB_CTX_SCN_HI, R474. -/
def R.GLB_CTX_SCN_HI : Nat := 0x00074
/-- GLB_CTX_RECT, R474. -/
def R.GLB_CTX_RECT : Nat := 0x00078
/-- GLB_CMD, R474. -/
def R.GLB_CMD : Nat := 0x0007C
/-- GLB_CMD_STATUS, R474. -/
def R.GLB_CMD_STATUS : Nat := 0x00080
/-- GLB_CTX_STATE, R474. -/
def R.GLB_CTX_STATE : Nat := 0x00084
/-- GLB_CTX_TAG, R474. -/
def R.GLB_CTX_TAG : Nat := 0x00088
/-- BOOT_STATUS, R395. -/
def R.BOOT_STATUS : Nat := 0x01040
/-- BOOT_IMAGE_LEN, R395. -/
def R.BOOT_IMAGE_LEN : Nat := 0x01044
/-- BOOT_IMAGE_SEQ, R395. -/
def R.BOOT_IMAGE_SEQ : Nat := 0x01048
/-- BOOT_CFG_INFO, R395. -/
def R.BOOT_CFG_INFO : Nat := 0x0104C
/-- BOOT_TIME_RELEASE, R395. -/
def R.BOOT_TIME_RELEASE : Nat := 0x01050
/-- BOOT_TIME_IMAGE, R395. -/
def R.BOOT_TIME_IMAGE : Nat := 0x01054
/-- BOOT_BIST_SEL, R395. -/
def R.BOOT_BIST_SEL : Nat := 0x01058
/-- BOOT_BIST_LIMIT, R395. -/
def R.BOOT_BIST_LIMIT : Nat := 0x0105C
/-- BOOT_BIST_RESULT, R395. -/
def R.BOOT_BIST_RESULT : Nat := 0x01060
/-- BOOT_CMD, R395. -/
def R.BOOT_CMD : Nat := 0x01064
/-- BOOT_CMD_STATUS, R395. -/
def R.BOOT_CMD_STATUS : Nat := 0x01068
/-- LIFE_STATE, R396. -/
def R.LIFE_STATE : Nat := 0x02040
/-- LIFE_DEVICE_ID_LO, R396. -/
def R.LIFE_DEVICE_ID_LO : Nat := 0x02044
/-- LIFE_DEVICE_ID_HI, R396. -/
def R.LIFE_DEVICE_ID_HI : Nat := 0x02048
/-- LIFE_FUSE_SEL, R396. -/
def R.LIFE_FUSE_SEL : Nat := 0x0204C
/-- LIFE_FUSE_DATA, R396. -/
def R.LIFE_FUSE_DATA : Nat := 0x02050
/-- LIFE_CMD, R396. -/
def R.LIFE_CMD : Nat := 0x02054
/-- LIFE_ARG, R396. -/
def R.LIFE_ARG : Nat := 0x02058
/-- LIFE_CMD_STATUS, R396. -/
def R.LIFE_CMD_STATUS : Nat := 0x0205C
/-- LIFE_KEY_0, R396. -/
def R.LIFE_KEY_0 : Nat := 0x02060
/-- LIFE_KEY_1, R396. -/
def R.LIFE_KEY_1 : Nat := 0x02064
/-- LIFE_KEY_2, R396. -/
def R.LIFE_KEY_2 : Nat := 0x02068
/-- LIFE_KEY_3, R396. -/
def R.LIFE_KEY_3 : Nat := 0x0206C
/-- LIFE_KEY_4, R396. -/
def R.LIFE_KEY_4 : Nat := 0x02070
/-- LIFE_KEY_5, R396. -/
def R.LIFE_KEY_5 : Nat := 0x02074
/-- LIFE_KEY_6, R396. -/
def R.LIFE_KEY_6 : Nat := 0x02078
/-- LIFE_KEY_7, R396. -/
def R.LIFE_KEY_7 : Nat := 0x0207C
/-- LIFE_KEY_8, R396. -/
def R.LIFE_KEY_8 : Nat := 0x02080
/-- LIFE_KEY_9, R396. -/
def R.LIFE_KEY_9 : Nat := 0x02084
/-- LIFE_KEY_10, R396. -/
def R.LIFE_KEY_10 : Nat := 0x02088
/-- LIFE_KEY_11, R396. -/
def R.LIFE_KEY_11 : Nat := 0x0208C
/-- TIME_GCN_LO, R58. -/
def R.TIME_GCN_LO : Nat := 0x03040
/-- TIME_GCN_HI, R58. -/
def R.TIME_GCN_HI : Nat := 0x03044
/-- TIME_EPOCH, R58. -/
def R.TIME_EPOCH : Nat := 0x03048
/-- TIME_STATE, R58. -/
def R.TIME_STATE : Nat := 0x0304C
/-- TIME_CTRL, R58. -/
def R.TIME_CTRL : Nat := 0x03050
/-- TIME_CMD, R58. -/
def R.TIME_CMD : Nat := 0x03054
/-- TIME_CMD_STATUS, R58. -/
def R.TIME_CMD_STATUS : Nat := 0x03058
/-- TIME_ARG_EPOCH, R58. -/
def R.TIME_ARG_EPOCH : Nat := 0x0305C
/-- TIME_TBS_GCN_LO, R58. -/
def R.TIME_TBS_GCN_LO : Nat := 0x03060
/-- TIME_TBS_GCN_HI, R58. -/
def R.TIME_TBS_GCN_HI : Nat := 0x03064
/-- TIME_TBS_COMP, R58. -/
def R.TIME_TBS_COMP : Nat := 0x03068
/-- TIME_TBS_PERIOD, R58. -/
def R.TIME_TBS_PERIOD : Nat := 0x0306C
/-- TIME_TBS_LAST, R58. -/
def R.TIME_TBS_LAST : Nat := 0x03070
/-- TIME_SYNC_PERIOD, R58. -/
def R.TIME_SYNC_PERIOD : Nat := 0x03074
/-- TIME_SYNC_ERR, R58. -/
def R.TIME_SYNC_ERR : Nat := 0x03078
/-- TIME_CLK_DIV, R58. -/
def R.TIME_CLK_DIV : Nat := 0x0307C
/-- TIME_CLKCHG_REQ, R58. -/
def R.TIME_CLKCHG_REQ : Nat := 0x03080
/-- TIME_CLKCHG_GCN_LO, R58. -/
def R.TIME_CLKCHG_GCN_LO : Nat := 0x03084
/-- TIME_CLKCHG_GCN_HI, R58. -/
def R.TIME_CLKCHG_GCN_HI : Nat := 0x03088
/-- TIME_CLKCHG_APPLY_LO, R58. -/
def R.TIME_CLKCHG_APPLY_LO : Nat := 0x0308C
/-- TIME_CLKCHG_APPLY_HI, R58. -/
def R.TIME_CLKCHG_APPLY_HI : Nat := 0x03090
/-- TIME_ORIGIN_W, R58. -/
def R.TIME_ORIGIN_W : Nat := 0x03094
/-- TIME_ORIGIN_E, R58. -/
def R.TIME_ORIGIN_E : Nat := 0x03098
/-- TIME_SCN_SLOT, R58. -/
def R.TIME_SCN_SLOT : Nat := 0x0309C
/-- TIME_SCN_LO, R58. -/
def R.TIME_SCN_LO : Nat := 0x030A0
/-- TIME_SCN_HI, R58. -/
def R.TIME_SCN_HI : Nat := 0x030A4
/-- TIME_SCN_FLAGS, R58. -/
def R.TIME_SCN_FLAGS : Nat := 0x030A8
/-- CORK_CMD, R96. -/
def R.CORK_CMD : Nat := 0x04040
/-- CORK_SCOPE, R96. -/
def R.CORK_SCOPE : Nat := 0x04044
/-- CORK_MODE, R96. -/
def R.CORK_MODE : Nat := 0x04048
/-- CORK_TARGET_LO, R96. -/
def R.CORK_TARGET_LO : Nat := 0x0404C
/-- CORK_TARGET_HI, R96. -/
def R.CORK_TARGET_HI : Nat := 0x04050
/-- CORK_STEP_COUNT, R96. -/
def R.CORK_STEP_COUNT : Nat := 0x04054
/-- CORK_STATUS, R96. -/
def R.CORK_STATUS : Nat := 0x04058
/-- CORK_RESULT_SCN_LO, R96. -/
def R.CORK_RESULT_SCN_LO : Nat := 0x0405C
/-- CORK_RESULT_SCN_HI, R96. -/
def R.CORK_RESULT_SCN_HI : Nat := 0x04060
/-- CORK_RESULT_GCN_LO, R96. -/
def R.CORK_RESULT_GCN_LO : Nat := 0x04064
/-- CORK_RESULT_GCN_HI, R96. -/
def R.CORK_RESULT_GCN_HI : Nat := 0x04068
/-- CORK_LEAD, R96. -/
def R.CORK_LEAD : Nat := 0x0406C
/-- CORK_STOPPED_LO, R96. -/
def R.CORK_STOPPED_LO : Nat := 0x04070
/-- CORK_STOPPED_HI, R96. -/
def R.CORK_STOPPED_HI : Nat := 0x04074
/-- CORK_DOMAIN_SEL, R96. -/
def R.CORK_DOMAIN_SEL : Nat := 0x04078
/-- CORK_DOMAIN_STATE, R96. -/
def R.CORK_DOMAIN_STATE : Nat := 0x0407C
/-- CORK_STALL_MASK, R96. -/
def R.CORK_STALL_MASK : Nat := 0x04080
/-- CORK_STALL_DURATION, R96. -/
def R.CORK_STALL_DURATION : Nat := 0x04084
/-- CORK_HOLD_LIMIT, R96. -/
def R.CORK_HOLD_LIMIT : Nat := 0x04088
/-- CORK_REPORT_LIMIT, R96. -/
def R.CORK_REPORT_LIMIT : Nat := 0x0408C
/-- CORK_XPKG_LEAD, R96. -/
def R.CORK_XPKG_LEAD : Nat := 0x04090
/-- CORK_SKEW_INFO, R96. -/
def R.CORK_SKEW_INFO : Nat := 0x04094
/-- CORK_TRIG_SCOPE, R96. -/
def R.CORK_TRIG_SCOPE : Nat := 0x04098
/-- CORK_TRIG_DELAY, R96. -/
def R.CORK_TRIG_DELAY : Nat := 0x0409C
/-- CANE_CTRL, R135. -/
def R.CANE_CTRL : Nat := 0x06040
/-- CANE_DIR_0, R135. -/
def R.CANE_DIR_0 : Nat := 0x06044
/-- CANE_DIR_1, R135. -/
def R.CANE_DIR_1 : Nat := 0x06048
/-- CANE_DIR_2, R135. -/
def R.CANE_DIR_2 : Nat := 0x0604C
/-- CANE_DIR_3, R135. -/
def R.CANE_DIR_3 : Nat := 0x06050
/-- CANE_BROKEN_0, R135. -/
def R.CANE_BROKEN_0 : Nat := 0x06054
/-- CANE_BROKEN_1, R135. -/
def R.CANE_BROKEN_1 : Nat := 0x06058
/-- CANE_BROKEN_2, R135. -/
def R.CANE_BROKEN_2 : Nat := 0x0605C
/-- CANE_BROKEN_3, R135. -/
def R.CANE_BROKEN_3 : Nat := 0x06060
/-- CANE_SEL, R135. -/
def R.CANE_SEL : Nat := 0x06064
/-- CANE_INFO, R135. -/
def R.CANE_INFO : Nat := 0x06068
/-- CANE_QUEUE, R135. -/
def R.CANE_QUEUE : Nat := 0x0606C
/-- CANE_CMD, R135. -/
def R.CANE_CMD : Nat := 0x06070
/-- CANE_CMD_STATUS, R135. -/
def R.CANE_CMD_STATUS : Nat := 0x06074
/-- HARV_CMD, R132. -/
def R.HARV_CMD : Nat := 0x07040
/-- HARV_SCOPE, R132. -/
def R.HARV_SCOPE : Nat := 0x07044
/-- HARV_SEL, R132. -/
def R.HARV_SEL : Nat := 0x07048
/-- HARV_RECT, R132. -/
def R.HARV_RECT : Nat := 0x0704C
/-- HARV_RANGE, R132. -/
def R.HARV_RANGE : Nat := 0x07050
/-- HARV_VINTAGE, R132. -/
def R.HARV_VINTAGE : Nat := 0x07054
/-- HARV_REF_VINTAGE, R132. -/
def R.HARV_REF_VINTAGE : Nat := 0x07058
/-- HARV_TRACE_SNAP_LEN, R132. -/
def R.HARV_TRACE_SNAP_LEN : Nat := 0x0705C
/-- HARV_STATUS, R132. -/
def R.HARV_STATUS : Nat := 0x07060
/-- HARV_CUR_VINTAGE, R132. -/
def R.HARV_CUR_VINTAGE : Nat := 0x07064
/-- HARV_NEXT_VINTAGE, R132. -/
def R.HARV_NEXT_VINTAGE : Nat := 0x07068
/-- HARV_PROGRESS, R132. -/
def R.HARV_PROGRESS : Nat := 0x0706C
/-- HARV_RAW_LO, R132. -/
def R.HARV_RAW_LO : Nat := 0x07070
/-- HARV_RAW_HI, R132. -/
def R.HARV_RAW_HI : Nat := 0x07074
/-- HARV_PRESSED_LO, R132. -/
def R.HARV_PRESSED_LO : Nat := 0x07078
/-- HARV_PRESSED_HI, R132. -/
def R.HARV_PRESSED_HI : Nat := 0x0707C
/-- HARV_DRAIN_LIMIT, R132. -/
def R.HARV_DRAIN_LIMIT : Nat := 0x07080
/-- HARV_SPUR_LIMIT, R132. -/
def R.HARV_SPUR_LIMIT : Nat := 0x07084
/-- HARV_OPEN_GCN_LO, R132. -/
def R.HARV_OPEN_GCN_LO : Nat := 0x07088
/-- HARV_OPEN_GCN_HI, R132. -/
def R.HARV_OPEN_GCN_HI : Nat := 0x0708C
/-- HARV_CLOSE_GCN_LO, R132. -/
def R.HARV_CLOSE_GCN_LO : Nat := 0x07090
/-- HARV_CLOSE_GCN_HI, R132. -/
def R.HARV_CLOSE_GCN_HI : Nat := 0x07094
/-- HARV_REGION_SEL, R132. -/
def R.HARV_REGION_SEL : Nat := 0x07098
/-- HARV_REGION_CTRL, R132. -/
def R.HARV_REGION_CTRL : Nat := 0x0709C
/-- HARV_REGION_BASE_LO, R132. -/
def R.HARV_REGION_BASE_LO : Nat := 0x070A0
/-- HARV_REGION_BASE_HI, R132. -/
def R.HARV_REGION_BASE_HI : Nat := 0x070A4
/-- HARV_REGION_LEN_LO, R132. -/
def R.HARV_REGION_LEN_LO : Nat := 0x070A8
/-- HARV_REGION_LEN_HI, R132. -/
def R.HARV_REGION_LEN_HI : Nat := 0x070AC
/-- HARV_REGION_DIGEST_LO, R132. -/
def R.HARV_REGION_DIGEST_LO : Nat := 0x070B0
/-- HARV_REGION_DIGEST_HI, R132. -/
def R.HARV_REGION_DIGEST_HI : Nat := 0x070B4
/-- HARV_DECANT_SLOT, R132. -/
def R.HARV_DECANT_SLOT : Nat := 0x070B8
/-- HARV_DECANT_DOMAIN, R132. -/
def R.HARV_DECANT_DOMAIN : Nat := 0x070BC
/-- PRESS_CTRL, R164. -/
def R.PRESS_CTRL : Nat := 0x08040
/-- PRESS_STATE, R164. -/
def R.PRESS_STATE : Nat := 0x08044
/-- PRESS_CMD, R164. -/
def R.PRESS_CMD : Nat := 0x08048
/-- PRESS_CMD_STATUS, R164. -/
def R.PRESS_CMD_STATUS : Nat := 0x0804C
/-- PRESS_IN_LO, R164. -/
def R.PRESS_IN_LO : Nat := 0x08050
/-- PRESS_IN_HI, R164. -/
def R.PRESS_IN_HI : Nat := 0x08054
/-- PRESS_OUT_LO, R164. -/
def R.PRESS_OUT_LO : Nat := 0x08058
/-- PRESS_OUT_HI, R164. -/
def R.PRESS_OUT_HI : Nat := 0x0805C
/-- PRESS_BLOCKS, R164. -/
def R.PRESS_BLOCKS : Nat := 0x08060
/-- PRESS_RAW_BLOCKS, R164. -/
def R.PRESS_RAW_BLOCKS : Nat := 0x08064
/-- PRESS_REF_BLOCKS, R164. -/
def R.PRESS_REF_BLOCKS : Nat := 0x08068
/-- PRESS_REF_STAT, R164. -/
def R.PRESS_REF_STAT : Nat := 0x0806C
/-- PRESS_VERIFY, R164. -/
def R.PRESS_VERIFY : Nat := 0x08070
/-- PRESS_DEC_ERR, R164. -/
def R.PRESS_DEC_ERR : Nat := 0x08074
/-- PRESS_DEC_POS_LO, R164. -/
def R.PRESS_DEC_POS_LO : Nat := 0x08078
/-- PRESS_DEC_POS_HI, R164. -/
def R.PRESS_DEC_POS_HI : Nat := 0x0807C
/-- PRESS_STALL, R164. -/
def R.PRESS_STALL : Nat := 0x08080
/-- PRESS_STREAM, R164. -/
def R.PRESS_STREAM : Nat := 0x08084
/-- CELL_CTRL, R192. -/
def R.CELL_CTRL : Nat := 0x18040
/-- CELL_BASE_LO, R192. -/
def R.CELL_BASE_LO : Nat := 0x18044
/-- CELL_BASE_HI, R192. -/
def R.CELL_BASE_HI : Nat := 0x18048
/-- CELL_SIZE, R192. -/
def R.CELL_SIZE : Nat := 0x1804C
/-- CELL_CASK, R192. -/
def R.CELL_CASK : Nat := 0x18050
/-- CELL_RING, R192. -/
def R.CELL_RING : Nat := 0x18054
/-- CELL_PIN_LIMIT, R192. -/
def R.CELL_PIN_LIMIT : Nat := 0x18058
/-- CELL_ADMIT, R192. -/
def R.CELL_ADMIT : Nat := 0x1805C
/-- CELL_STATE, R192. -/
def R.CELL_STATE : Nat := 0x18060
/-- CELL_CASKS_TOTAL, R192. -/
def R.CELL_CASKS_TOTAL : Nat := 0x18064
/-- CELL_CASKS_FREE, R192. -/
def R.CELL_CASKS_FREE : Nat := 0x18068
/-- CELL_CASKS_PINNED, R192. -/
def R.CELL_CASKS_PINNED : Nat := 0x1806C
/-- CELL_VINTAGES, R192. -/
def R.CELL_VINTAGES : Nat := 0x18070
/-- CELL_CMD, R192. -/
def R.CELL_CMD : Nat := 0x18074
/-- CELL_CMD_STATUS, R192. -/
def R.CELL_CMD_STATUS : Nat := 0x18078
/-- CELL_ARG_VINTAGE, R192. -/
def R.CELL_ARG_VINTAGE : Nat := 0x1807C
/-- CELL_OLDEST, R192. -/
def R.CELL_OLDEST : Nat := 0x18080
/-- CELL_EVICTED, R192. -/
def R.CELL_EVICTED : Nat := 0x18084
/-- CELL_INDEX_SEL, R192. -/
def R.CELL_INDEX_SEL : Nat := 0x18088
/-- CELL_INDEX_VINTAGE, R192. -/
def R.CELL_INDEX_VINTAGE : Nat := 0x1808C
/-- CELL_INDEX_STATE, R192. -/
def R.CELL_INDEX_STATE : Nat := 0x18090
/-- RACK_CTRL, R194. -/
def R.RACK_CTRL : Nat := 0x19040
/-- RACK_CMD, R194. -/
def R.RACK_CMD : Nat := 0x19044
/-- RACK_ARG_HUB, R194. -/
def R.RACK_ARG_HUB : Nat := 0x19048
/-- RACK_ARG_VINTAGE, R194. -/
def R.RACK_ARG_VINTAGE : Nat := 0x1904C
/-- RACK_ARG_OBJ, R194. -/
def R.RACK_ARG_OBJ : Nat := 0x19050
/-- RACK_STATUS, R194. -/
def R.RACK_STATUS : Nat := 0x19054
/-- RACK_QUEUE, R194. -/
def R.RACK_QUEUE : Nat := 0x19058
/-- RACK_SERVE_0, R194. -/
def R.RACK_SERVE_0 : Nat := 0x1905C
/-- RACK_SERVE_1, R194. -/
def R.RACK_SERVE_1 : Nat := 0x19060
/-- RACK_SERVE_2, R194. -/
def R.RACK_SERVE_2 : Nat := 0x19064
/-- RACK_SERVE_3, R194. -/
def R.RACK_SERVE_3 : Nat := 0x19068
/-- RACK_SENT_LO, R194. -/
def R.RACK_SENT_LO : Nat := 0x1906C
/-- RACK_SENT_HI, R194. -/
def R.RACK_SENT_HI : Nat := 0x19070
/-- RACK_CUR_VINTAGE, R194. -/
def R.RACK_CUR_VINTAGE : Nat := 0x19074
/-- RACK_CUR_OBJ, R194. -/
def R.RACK_CUR_OBJ : Nat := 0x19078
/-- RACK_CUR_POS_LO, R194. -/
def R.RACK_CUR_POS_LO : Nat := 0x1907C
/-- RACK_CUR_POS_HI, R194. -/
def R.RACK_CUR_POS_HI : Nat := 0x19080
/-- RACK_FAIL_INFO, R194. -/
def R.RACK_FAIL_INFO : Nat := 0x19084
/-- LINK_CTRL, R371. -/
def R.LINK_CTRL : Nat := 0x1A040
/-- LINK_STATE, R371. -/
def R.LINK_STATE : Nat := 0x1A044
/-- LINK_CMD, R371. -/
def R.LINK_CMD : Nat := 0x1A048
/-- LINK_CMD_STATUS, R371. -/
def R.LINK_CMD_STATUS : Nat := 0x1A04C
/-- LINK_WINDOW, R371. -/
def R.LINK_WINDOW : Nat := 0x1A050
/-- LINK_REPLAY_TIMEOUT, R371. -/
def R.LINK_REPLAY_TIMEOUT : Nat := 0x1A054
/-- LINK_REPLAY_LIMIT, R371. -/
def R.LINK_REPLAY_LIMIT : Nat := 0x1A058
/-- LINK_TRAIN_LIMIT, R371. -/
def R.LINK_TRAIN_LIMIT : Nat := 0x1A05C
/-- LINK_IDLE_LIMIT, R371. -/
def R.LINK_IDLE_LIMIT : Nat := 0x1A060
/-- LINK_CREDIT, R371. -/
def R.LINK_CREDIT : Nat := 0x1A064
/-- LINK_SEQ, R371. -/
def R.LINK_SEQ : Nat := 0x1A068
/-- LINK_UNACKED, R371. -/
def R.LINK_UNACKED : Nat := 0x1A06C
/-- LINK_FEC_CORR_LO, R371. -/
def R.LINK_FEC_CORR_LO : Nat := 0x1A070
/-- LINK_FEC_CORR_HI, R371. -/
def R.LINK_FEC_CORR_HI : Nat := 0x1A074
/-- LINK_FEC_UNCORR, R371. -/
def R.LINK_FEC_UNCORR : Nat := 0x1A078
/-- LINK_REPLAYS, R371. -/
def R.LINK_REPLAYS : Nat := 0x1A07C
/-- LINK_FLITS_TX_LO, R371. -/
def R.LINK_FLITS_TX_LO : Nat := 0x1A080
/-- LINK_FLITS_TX_HI, R371. -/
def R.LINK_FLITS_TX_HI : Nat := 0x1A084
/-- LINK_FLITS_RX_LO, R371. -/
def R.LINK_FLITS_RX_LO : Nat := 0x1A088
/-- LINK_FLITS_RX_HI, R371. -/
def R.LINK_FLITS_RX_HI : Nat := 0x1A08C
/-- LINK_EVCLASS, R371. -/
def R.LINK_EVCLASS : Nat := 0x1A090
/-- LINK_EVLOSS_SEL, R371. -/
def R.LINK_EVLOSS_SEL : Nat := 0x1A094
/-- LINK_EVLOSS, R371. -/
def R.LINK_EVLOSS : Nat := 0x1A098
/-- LINK_PEER, R371. -/
def R.LINK_PEER : Nat := 0x1A09C
/-- LINK_TAG, R371. -/
def R.LINK_TAG : Nat := 0x1A0A0
/-- LINK_DOWN_COUNT, R371. -/
def R.LINK_DOWN_COUNT : Nat := 0x1A0A4
/-- TRACE_CTRL, R219. -/
def R.TRACE_CTRL : Nat := 0x1B040
/-- TRACE_CMD, R219. -/
def R.TRACE_CMD : Nat := 0x1B044
/-- TRACE_CMD_STATUS, R219. -/
def R.TRACE_CMD_STATUS : Nat := 0x1B048
/-- TRACE_STATE, R219. -/
def R.TRACE_STATE : Nat := 0x1B04C
/-- TRACE_RING_BASE_LO, R219. -/
def R.TRACE_RING_BASE_LO : Nat := 0x1B050
/-- TRACE_RING_BASE_HI, R219. -/
def R.TRACE_RING_BASE_HI : Nat := 0x1B054
/-- TRACE_RING_SIZE, R219. -/
def R.TRACE_RING_SIZE : Nat := 0x1B058
/-- TRACE_WPTR_LO, R219. -/
def R.TRACE_WPTR_LO : Nat := 0x1B05C
/-- TRACE_WPTR_HI, R219. -/
def R.TRACE_WPTR_HI : Nat := 0x1B060
/-- TRACE_SYNC_PERIOD, R219. -/
def R.TRACE_SYNC_PERIOD : Nat := 0x1B064
/-- TRACE_FLUSH_LIMIT, R219. -/
def R.TRACE_FLUSH_LIMIT : Nat := 0x1B068
/-- TRACE_POST_FRAMES, R219. -/
def R.TRACE_POST_FRAMES : Nat := 0x1B06C
/-- TRACE_TRIG_CTRL, R219. -/
def R.TRACE_TRIG_CTRL : Nat := 0x1B070
/-- TRACE_TRIG_EVENT, R219. -/
def R.TRACE_TRIG_EVENT : Nat := 0x1B074
/-- TRACE_TRIG_INFO, R219. -/
def R.TRACE_TRIG_INFO : Nat := 0x1B078
/-- TRACE_TRIG_GCN_LO, R219. -/
def R.TRACE_TRIG_GCN_LO : Nat := 0x1B07C
/-- TRACE_TRIG_GCN_HI, R219. -/
def R.TRACE_TRIG_GCN_HI : Nat := 0x1B080
/-- TRACE_TRIG_WPTR_LO, R219. -/
def R.TRACE_TRIG_WPTR_LO : Nat := 0x1B084
/-- TRACE_TRIG_WPTR_HI, R219. -/
def R.TRACE_TRIG_WPTR_HI : Nat := 0x1B088
/-- TRACE_FRAMES_LO, R219. -/
def R.TRACE_FRAMES_LO : Nat := 0x1B08C
/-- TRACE_FRAMES_HI, R219. -/
def R.TRACE_FRAMES_HI : Nat := 0x1B090
/-- TRACE_LOST_LO, R219. -/
def R.TRACE_LOST_LO : Nat := 0x1B094
/-- TRACE_LOST_HI, R219. -/
def R.TRACE_LOST_HI : Nat := 0x1B098
/-- TRACE_DISCARDED, R219. -/
def R.TRACE_DISCARDED : Nat := 0x1B09C
/-- TRACE_LOSS_CANE_SEL, R219. -/
def R.TRACE_LOSS_CANE_SEL : Nat := 0x1B0A0
/-- TRACE_LOSS_CANE, R219. -/
def R.TRACE_LOSS_CANE : Nat := 0x1B0A4
/-- TRACE_EVLOSS_SEL, R219. -/
def R.TRACE_EVLOSS_SEL : Nat := 0x1B0A8
/-- TRACE_EVLOSS, R219. -/
def R.TRACE_EVLOSS : Nat := 0x1B0AC
/-- TRACEF_SLOT_SEL, R221. -/
def R.TRACEF_SLOT_SEL : Nat := 0x1C040
/-- TRACEF_SLOT, R221. -/
def R.TRACEF_SLOT : Nat := 0x1C044
/-- TRACEF_RECT, R221. -/
def R.TRACEF_RECT : Nat := 0x1C048
/-- TRACEF_WIN_SEL, R221. -/
def R.TRACEF_WIN_SEL : Nat := 0x1C04C
/-- TRACEF_WIN_CTRL, R221. -/
def R.TRACEF_WIN_CTRL : Nat := 0x1C050
/-- TRACEF_WIN_ADDR, R221. -/
def R.TRACEF_WIN_ADDR : Nat := 0x1C054
/-- TRACEF_TEV, R221. -/
def R.TRACEF_TEV : Nat := 0x1C058
/-- TRACEF_TEV_TRIG, R221. -/
def R.TRACEF_TEV_TRIG : Nat := 0x1C05C
/-- TRACEF_EVCLASS, R221. -/
def R.TRACEF_EVCLASS : Nat := 0x1C060
/-- TRACEF_BCAST, R221. -/
def R.TRACEF_BCAST : Nat := 0x1C064
/-- TASTE_CTRL, R276. -/
def R.TASTE_CTRL : Nat := 0x1D040
/-- TASTE_INTERVAL, R276. -/
def R.TASTE_INTERVAL : Nat := 0x1D044
/-- TASTE_STRIDE, R276. -/
def R.TASTE_STRIDE : Nat := 0x1D048
/-- TASTE_WAIT, R276. -/
def R.TASTE_WAIT : Nat := 0x1D04C
/-- TASTE_SLOT_SEL, R276. -/
def R.TASTE_SLOT_SEL : Nat := 0x1D050
/-- TASTE_SLOT, R276. -/
def R.TASTE_SLOT : Nat := 0x1D054
/-- TASTE_SLOT_FMT, R276. -/
def R.TASTE_SLOT_FMT : Nat := 0x1D058
/-- TASTE_STATE, R276. -/
def R.TASTE_STATE : Nat := 0x1D05C
/-- TASTE_CMD, R276. -/
def R.TASTE_CMD : Nat := 0x1D060
/-- TASTE_CMD_STATUS, R276. -/
def R.TASTE_CMD_STATUS : Nat := 0x1D064
/-- TASTE_ARG, R276. -/
def R.TASTE_ARG : Nat := 0x1D068
/-- TASTE_STAT_SEL, R276. -/
def R.TASTE_STAT_SEL : Nat := 0x1D06C
/-- TASTE_STAT, R276. -/
def R.TASTE_STAT : Nat := 0x1D070
/-- TASTE_THROTTLED, R276. -/
def R.TASTE_THROTTLED : Nat := 0x1D074
/-- TASTE_LAST_TILE, R276. -/
def R.TASTE_LAST_TILE : Nat := 0x1D078
/-- TASTE_LAST_SCN_LO, R276. -/
def R.TASTE_LAST_SCN_LO : Nat := 0x1D07C
/-- TASTE_LAST_SCN_HI, R276. -/
def R.TASTE_LAST_SCN_HI : Nat := 0x1D080
/-- TASTE_LAST_ELEM, R276. -/
def R.TASTE_LAST_ELEM : Nat := 0x1D084
/-- TASTE_LAST_GOT, R276. -/
def R.TASTE_LAST_GOT : Nat := 0x1D088
/-- TASTE_LAST_WANT, R276. -/
def R.TASTE_LAST_WANT : Nat := 0x1D08C
/-- TASTE_EVID_ADDR, R276. -/
def R.TASTE_EVID_ADDR : Nat := 0x1D090
/-- TASTE_EVID_DATA, R276. -/
def R.TASTE_EVID_DATA : Nat := 0x1D094
/-- TASTE_EVID_LEN, R276. -/
def R.TASTE_EVID_LEN : Nat := 0x1D098
/-- NUMW_CTRL, R280. -/
def R.NUMW_CTRL : Nat := 0x1E040
/-- NUMW_WINDOW, R280. -/
def R.NUMW_WINDOW : Nat := 0x1E044
/-- NUMW_SEL, R280. -/
def R.NUMW_SEL : Nat := 0x1E048
/-- NUMW_CFG, R280. -/
def R.NUMW_CFG : Nat := 0x1E04C
/-- NUMW_LAST, R280. -/
def R.NUMW_LAST : Nat := 0x1E050
/-- NUMW_TOTAL_LO, R280. -/
def R.NUMW_TOTAL_LO : Nat := 0x1E054
/-- NUMW_TOTAL_HI, R280. -/
def R.NUMW_TOTAL_HI : Nat := 0x1E058
/-- NUMW_MAXTILE, R280. -/
def R.NUMW_MAXTILE : Nat := 0x1E05C
/-- NUMW_FIRST, R280. -/
def R.NUMW_FIRST : Nat := 0x1E060
/-- NUMW_FIRST_SCN_LO, R280. -/
def R.NUMW_FIRST_SCN_LO : Nat := 0x1E064
/-- NUMW_FIRST_SCN_HI, R280. -/
def R.NUMW_FIRST_SCN_HI : Nat := 0x1E068
/-- NUMW_CMD, R280. -/
def R.NUMW_CMD : Nat := 0x1E06C
/-- NUMW_CMD_STATUS, R280. -/
def R.NUMW_CMD_STATUS : Nat := 0x1E070
/-- DIGEST_CMD, R278. -/
def R.DIGEST_CMD : Nat := 0x1F040
/-- DIGEST_CMD_STATUS, R278. -/
def R.DIGEST_CMD_STATUS : Nat := 0x1F044
/-- DIGEST_ARG, R278. -/
def R.DIGEST_ARG : Nat := 0x1F048
/-- DIGEST_RESULT_LO, R278. -/
def R.DIGEST_RESULT_LO : Nat := 0x1F04C
/-- DIGEST_RESULT_HI, R278. -/
def R.DIGEST_RESULT_HI : Nat := 0x1F050
/-- DIGEST_EXPECT_LO, R278. -/
def R.DIGEST_EXPECT_LO : Nat := 0x1F054
/-- DIGEST_EXPECT_HI, R278. -/
def R.DIGEST_EXPECT_HI : Nat := 0x1F058
/-- DIGEST_RESULT_INFO, R278. -/
def R.DIGEST_RESULT_INFO : Nat := 0x1F05C
/-- DIGEST_PERIOD, R278. -/
def R.DIGEST_PERIOD : Nat := 0x1F060
/-- DIGEST_TABLE_BASE_LO, R278. -/
def R.DIGEST_TABLE_BASE_LO : Nat := 0x1F064
/-- DIGEST_TABLE_BASE_HI, R278. -/
def R.DIGEST_TABLE_BASE_HI : Nat := 0x1F068
/-- DIGEST_NAMED, R278. -/
def R.DIGEST_NAMED : Nat := 0x1F06C
/-- DIGEST_DONE_GCN_LO, R278. -/
def R.DIGEST_DONE_GCN_LO : Nat := 0x1F070
/-- DIGEST_DONE_GCN_HI, R278. -/
def R.DIGEST_DONE_GCN_HI : Nat := 0x1F074
/-- DIGEST_PASSES, R278. -/
def R.DIGEST_PASSES : Nat := 0x1F078
/-- HANG_CTRL, R312. -/
def R.HANG_CTRL : Nat := 0x20040
/-- HANG_MON_SEL, R312. -/
def R.HANG_MON_SEL : Nat := 0x20044
/-- HANG_MON_CFG, R312. -/
def R.HANG_MON_CFG : Nat := 0x20048
/-- HANG_MON_STATE, R312. -/
def R.HANG_MON_STATE : Nat := 0x2004C
/-- HANG_MON_THRESH, R312. -/
def R.HANG_MON_THRESH : Nat := 0x20050
/-- HANG_MON_TIMER, R312. -/
def R.HANG_MON_TIMER : Nat := 0x20054
/-- HANG_MON_LONGEST, R312. -/
def R.HANG_MON_LONGEST : Nat := 0x20058
/-- HANG_INIT, R312. -/
def R.HANG_INIT : Nat := 0x2005C
/-- HANG_FLOOR, R312. -/
def R.HANG_FLOOR : Nat := 0x20060
/-- HANG_CEIL, R312. -/
def R.HANG_CEIL : Nat := 0x20064
/-- HANG_LAST_FAULT, R312. -/
def R.HANG_LAST_FAULT : Nat := 0x20068
/-- HANG_LAST_DELTA, R312. -/
def R.HANG_LAST_DELTA : Nat := 0x2006C
/-- HANG_LAST_GCN_LO, R312. -/
def R.HANG_LAST_GCN_LO : Nat := 0x20070
/-- HANG_LAST_GCN_HI, R312. -/
def R.HANG_LAST_GCN_HI : Nat := 0x20074
/-- HANG_DIV_COUNT, R312. -/
def R.HANG_DIV_COUNT : Nat := 0x20078
/-- HANG_FENCE_DRAIN, R312. -/
def R.HANG_FENCE_DRAIN : Nat := 0x2007C
/-- HANG_FENCE_LIMIT, R312. -/
def R.HANG_FENCE_LIMIT : Nat := 0x20080
/-- HANG_FENCED_LO, R312. -/
def R.HANG_FENCED_LO : Nat := 0x20084
/-- HANG_FENCED_HI, R312. -/
def R.HANG_FENCED_HI : Nat := 0x20088
/-- HANG_CMD, R312. -/
def R.HANG_CMD : Nat := 0x2008C
/-- HANG_CMD_STATUS, R312. -/
def R.HANG_CMD_STATUS : Nat := 0x20090
/-- HANG_ARG, R312. -/
def R.HANG_ARG : Nat := 0x20094
/-- HANG_PEER_SEL, R312. -/
def R.HANG_PEER_SEL : Nat := 0x20098
/-- HANG_PEER_POLICY, R312. -/
def R.HANG_PEER_POLICY : Nat := 0x2009C
/-- HANG_PEER_DEFAULT, R312. -/
def R.HANG_PEER_DEFAULT : Nat := 0x200A0
/-- HANG_PEER_LAST, R312. -/
def R.HANG_PEER_LAST : Nat := 0x200A4
/-- RSET_CTRL, R314. -/
def R.RSET_CTRL : Nat := 0x21040
/-- RSET_CMD, R314. -/
def R.RSET_CMD : Nat := 0x21044
/-- RSET_ARG, R314. -/
def R.RSET_ARG : Nat := 0x21048
/-- RSET_STATUS, R314. -/
def R.RSET_STATUS : Nat := 0x2104C
/-- RSET_LAST_TILE, R314. -/
def R.RSET_LAST_TILE : Nat := 0x21050
/-- RSET_OOS_COUNT, R314. -/
def R.RSET_OOS_COUNT : Nat := 0x21054
/-- RSET_OOS_SEL, R314. -/
def R.RSET_OOS_SEL : Nat := 0x21058
/-- RSET_OOS_WORD, R314. -/
def R.RSET_OOS_WORD : Nat := 0x2105C
/-- RSET_COUNT_SEL, R314. -/
def R.RSET_COUNT_SEL : Nat := 0x21060
/-- RSET_COUNT, R314. -/
def R.RSET_COUNT : Nat := 0x21064
/-- RSET_PWRCYC, R314. -/
def R.RSET_PWRCYC : Nat := 0x21068
/-- BIST_CTRL, R414. -/
def R.BIST_CTRL : Nat := 0x22040
/-- BIST_CMD, R414. -/
def R.BIST_CMD : Nat := 0x22044
/-- BIST_ARG, R414. -/
def R.BIST_ARG : Nat := 0x22048
/-- BIST_CMD_STATUS, R414. -/
def R.BIST_CMD_STATUS : Nat := 0x2204C
/-- BIST_PACK_ADDR_LO, R414. -/
def R.BIST_PACK_ADDR_LO : Nat := 0x22050
/-- BIST_PACK_ADDR_HI, R414. -/
def R.BIST_PACK_ADDR_HI : Nat := 0x22054
/-- BIST_RESULT_SEL, R414. -/
def R.BIST_RESULT_SEL : Nat := 0x22058
/-- BIST_RESULT, R414. -/
def R.BIST_RESULT : Nat := 0x2205C
/-- BIST_SIG_GOT_LO, R414. -/
def R.BIST_SIG_GOT_LO : Nat := 0x22060
/-- BIST_SIG_GOT_HI, R414. -/
def R.BIST_SIG_GOT_HI : Nat := 0x22064
/-- BIST_SIG_WANT_LO, R414. -/
def R.BIST_SIG_WANT_LO : Nat := 0x22068
/-- BIST_SIG_WANT_HI, R414. -/
def R.BIST_SIG_WANT_HI : Nat := 0x2206C
/-- BIST_ACTIVE, R414. -/
def R.BIST_ACTIVE : Nat := 0x22070
/-- BIST_TILE_MAX, R414. -/
def R.BIST_TILE_MAX : Nat := 0x22074
/-- BIST_RUN_LIMIT, R414. -/
def R.BIST_RUN_LIMIT : Nat := 0x22078
/-- BIST_PASSES, R414. -/
def R.BIST_PASSES : Nat := 0x2207C
/-- BIST_PACK_SEL, R414. -/
def R.BIST_PACK_SEL : Nat := 0x22080
/-- BIST_PACK_INFO, R414. -/
def R.BIST_PACK_INFO : Nat := 0x22084
/-- REL_CTRL, R433. -/
def R.REL_CTRL : Nat := 0x23040
/-- REL_STATE, R433. -/
def R.REL_STATE : Nat := 0x23044
/-- REL_DEGRADED, R433. -/
def R.REL_DEGRADED : Nat := 0x23048
/-- REL_CANES_BYPASSED, R433. -/
def R.REL_CANES_BYPASSED : Nat := 0x2304C
/-- REL_TEND_PERIOD, R433. -/
def R.REL_TEND_PERIOD : Nat := 0x23050
/-- REL_TEND_ROUNDS, R433. -/
def R.REL_TEND_ROUNDS : Nat := 0x23054
/-- REL_ECC_CORR, R433. -/
def R.REL_ECC_CORR : Nat := 0x23058
/-- REL_ECC_UNCORR, R433. -/
def R.REL_ECC_UNCORR : Nat := 0x2305C
/-- REL_LAST_FAULT, R433. -/
def R.REL_LAST_FAULT : Nat := 0x23060
/-- REL_LAST_GCN_LO, R433. -/
def R.REL_LAST_GCN_LO : Nat := 0x23064
/-- REL_LAST_GCN_HI, R433. -/
def R.REL_LAST_GCN_HI : Nat := 0x23068
/-- REL_INJECT, R433. -/
def R.REL_INJECT : Nat := 0x2306C
/-- REL_CMD, R433. -/
def R.REL_CMD : Nat := 0x23070
/-- REL_CMD_STATUS, R433. -/
def R.REL_CMD_STATUS : Nat := 0x23074
/-- PAIR_CTRL, R435. -/
def R.PAIR_CTRL : Nat := 0x24040
/-- PAIR_STATE, R435. -/
def R.PAIR_STATE : Nat := 0x24044
/-- PAIR_CKPT_PERIOD, R435. -/
def R.PAIR_CKPT_PERIOD : Nat := 0x24048
/-- PAIR_HB_LIMIT, R435. -/
def R.PAIR_HB_LIMIT : Nat := 0x2404C
/-- PAIR_CKPT_GCN_LO, R435. -/
def R.PAIR_CKPT_GCN_LO : Nat := 0x24050
/-- PAIR_CKPT_GCN_HI, R435. -/
def R.PAIR_CKPT_GCN_HI : Nat := 0x24054
/-- PAIR_TAKEOVERS, R435. -/
def R.PAIR_TAKEOVERS : Nat := 0x24058
/-- PAIR_TAKEOVER_TIME, R435. -/
def R.PAIR_TAKEOVER_TIME : Nat := 0x2405C
/-- PAIR_CMD, R435. -/
def R.PAIR_CMD : Nat := 0x24060
/-- PAIR_CMD_STATUS, R435. -/
def R.PAIR_CMD_STATUS : Nat := 0x24064
/-- FED_CTRL, R338. -/
def R.FED_CTRL : Nat := 0x25040
/-- FED_SELF, R338. -/
def R.FED_SELF : Nat := 0x25044
/-- FED_LINK_SEL, R338. -/
def R.FED_LINK_SEL : Nat := 0x25048
/-- FED_LINK, R338. -/
def R.FED_LINK : Nat := 0x2504C
/-- FED_LINK_ERR, R338. -/
def R.FED_LINK_ERR : Nat := 0x25050
/-- FED_ROUTE_SEL, R338. -/
def R.FED_ROUTE_SEL : Nat := 0x25054
/-- FED_ROUTE, R338. -/
def R.FED_ROUTE : Nat := 0x25058
/-- FED_MEMBERS, R338. -/
def R.FED_MEMBERS : Nat := 0x2505C
/-- FED_DOMAIN, R338. -/
def R.FED_DOMAIN : Nat := 0x25060
/-- FED_JOB_SEL, R338. -/
def R.FED_JOB_SEL : Nat := 0x25064
/-- FED_JOB, R338. -/
def R.FED_JOB : Nat := 0x25068
/-- FED_JOB_CHECK, R338. -/
def R.FED_JOB_CHECK : Nat := 0x2506C
/-- FED_CMD_TIMEOUT, R338. -/
def R.FED_CMD_TIMEOUT : Nat := 0x25070
/-- FED_CMD, R338. -/
def R.FED_CMD : Nat := 0x25074
/-- FED_CMD_STATUS, R338. -/
def R.FED_CMD_STATUS : Nat := 0x25078
/-- FED_LAST, R338. -/
def R.FED_LAST : Nat := 0x2507C
/-- PWR_CTRL, R99. -/
def R.PWR_CTRL : Nat := 0x26040
/-- PWR_CAP, R99. -/
def R.PWR_CAP : Nat := 0x26044
/-- PWR_HYST, R99. -/
def R.PWR_HYST : Nat := 0x26048
/-- PWR_EST, R99. -/
def R.PWR_EST : Nat := 0x2604C
/-- PWR_MEAS, R99. -/
def R.PWR_MEAS : Nat := 0x26050
/-- PWR_USED, R99. -/
def R.PWR_USED : Nat := 0x26054
/-- PWR_STATUS, R99. -/
def R.PWR_STATUS : Nat := 0x26058
/-- PWR_CAL_FACTOR, R99. -/
def R.PWR_CAL_FACTOR : Nat := 0x2605C
/-- PWR_STATIC, R99. -/
def R.PWR_STATIC : Nat := 0x26060
/-- PWR_COEF_0, R99. -/
def R.PWR_COEF_0 : Nat := 0x26064
/-- PWR_COEF_1, R99. -/
def R.PWR_COEF_1 : Nat := 0x26068
/-- PWR_COEF_2, R99. -/
def R.PWR_COEF_2 : Nat := 0x2606C
/-- PWR_COEF_3, R99. -/
def R.PWR_COEF_3 : Nat := 0x26070
/-- PWR_COEF_4, R99. -/
def R.PWR_COEF_4 : Nat := 0x26074
/-- PWR_COEF_5, R99. -/
def R.PWR_COEF_5 : Nat := 0x26078
/-- PWR_COEF_6, R99. -/
def R.PWR_COEF_6 : Nat := 0x2607C
/-- PWR_COEF_7, R99. -/
def R.PWR_COEF_7 : Nat := 0x26080
/-- PWR_COEF_8, R99. -/
def R.PWR_COEF_8 : Nat := 0x26084
/-- PWR_COEF_9, R99. -/
def R.PWR_COEF_9 : Nat := 0x26088
/-- PWR_COEF_10, R99. -/
def R.PWR_COEF_10 : Nat := 0x2608C
/-- PWR_COEF_11, R99. -/
def R.PWR_COEF_11 : Nat := 0x26090
/-- PWR_COEF_12, R99. -/
def R.PWR_COEF_12 : Nat := 0x26094
/-- PWR_COEF_13, R99. -/
def R.PWR_COEF_13 : Nat := 0x26098
/-- PWR_COEF_14, R99. -/
def R.PWR_COEF_14 : Nat := 0x2609C
/-- PWR_COEF_15, R99. -/
def R.PWR_COEF_15 : Nat := 0x260A0
/-- PWR_CLKREQ, R99. -/
def R.PWR_CLKREQ : Nat := 0x260A4
/-- PWR_TELEM_TIMEOUT, R99. -/
def R.PWR_TELEM_TIMEOUT : Nat := 0x260A8
/-- PWR_CTX_SEL, R99. -/
def R.PWR_CTX_SEL : Nat := 0x260AC
/-- PWR_CTX, R99. -/
def R.PWR_CTX : Nat := 0x260B0
/-- COOP_CTRL, R457. -/
def R.COOP_CTRL : Nat := 0x27040
/-- COOP_STATE, R457. -/
def R.COOP_STATE : Nat := 0x27044
/-- COOP_CMD, R457. -/
def R.COOP_CMD : Nat := 0x27048
/-- COOP_CMD_STATUS, R457. -/
def R.COOP_CMD_STATUS : Nat := 0x2704C
/-- COOP_ARG, R457. -/
def R.COOP_ARG : Nat := 0x27050
/-- COOP_FAIL_CODE, R457. -/
def R.COOP_FAIL_CODE : Nat := 0x27054
/-- COOP_WDOG_LEFT, R457. -/
def R.COOP_WDOG_LEFT : Nat := 0x27058
/-- COOP_SIG, R457. -/
def R.COOP_SIG : Nat := 0x2705C
/-- COOP_PROG_SEL, R457. -/
def R.COOP_PROG_SEL : Nat := 0x27060
/-- COOP_PROG_DATA, R457. -/
def R.COOP_PROG_DATA : Nat := 0x27064
/-- COOP_PROG_CRC, R457. -/
def R.COOP_PROG_CRC : Nat := 0x27068
/-- COOP_PROG_WORDS, R457. -/
def R.COOP_PROG_WORDS : Nat := 0x2706C
/-- COOP_DATA_SEL, R457. -/
def R.COOP_DATA_SEL : Nat := 0x27070
/-- COOP_DATA_DATA, R457. -/
def R.COOP_DATA_DATA : Nat := 0x27074
/-- COOP_SCRIPT_SEL, R457. -/
def R.COOP_SCRIPT_SEL : Nat := 0x27078
/-- COOP_SCRIPT_ENTRY, R457. -/
def R.COOP_SCRIPT_ENTRY : Nat := 0x2707C
/-- COOP_SCRIPT_FILTER, R457. -/
def R.COOP_SCRIPT_FILTER : Nat := 0x27080
/-- COOP_SCRIPT_WDOG, R457. -/
def R.COOP_SCRIPT_WDOG : Nat := 0x27084
/-- COOP_FILTER, R457. -/
def R.COOP_FILTER : Nat := 0x27088
/-- COOP_QUEUE, R457. -/
def R.COOP_QUEUE : Nat := 0x2708C
/-- COOP_EVLOSS, R457. -/
def R.COOP_EVLOSS : Nat := 0x27090
/-- COOP_RUNS, R457. -/
def R.COOP_RUNS : Nat := 0x27094
/-- COOP_W_SEL, R457. -/
def R.COOP_W_SEL : Nat := 0x27098
/-- COOP_W, R457. -/
def R.COOP_W : Nat := 0x2709C
/-- SPURW_TILE, R477. -/
def R.SPURW_TILE : Nat := 0x29040
/-- SPURW_STATUS, R477. -/
def R.SPURW_STATUS : Nat := 0x29044
/-- SPUR_ID, R477. -/
def R.SPUR_ID : Nat := 0x29100
/-- SPUR_SCN_LO, R477. -/
def R.SPUR_SCN_LO : Nat := 0x29104
/-- SPUR_SCN_HI, R477. -/
def R.SPUR_SCN_HI : Nat := 0x29108
/-- SPUR_FLAGS, R477. -/
def R.SPUR_FLAGS : Nat := 0x2910C
/-- SPUR_OUTSTANDING, R477. -/
def R.SPUR_OUTSTANDING : Nat := 0x29110
/-- SPUR_TRACE, R477. -/
def R.SPUR_TRACE : Nat := 0x29114
/-- SPUR_DIG_0_RANGE, R477. -/
def R.SPUR_DIG_0_RANGE : Nat := 0x29120
/-- SPUR_DIG_1_RANGE, R477. -/
def R.SPUR_DIG_1_RANGE : Nat := 0x29130
/-- SPUR_DIG_2_RANGE, R477. -/
def R.SPUR_DIG_2_RANGE : Nat := 0x29140
/-- SPUR_DIG_3_RANGE, R477. -/
def R.SPUR_DIG_3_RANGE : Nat := 0x29150
/-- SPUR_DIG_0_LBASE_LO, R477. -/
def R.SPUR_DIG_0_LBASE_LO : Nat := 0x29124
/-- SPUR_DIG_1_LBASE_LO, R477. -/
def R.SPUR_DIG_1_LBASE_LO : Nat := 0x29134
/-- SPUR_DIG_2_LBASE_LO, R477. -/
def R.SPUR_DIG_2_LBASE_LO : Nat := 0x29144
/-- SPUR_DIG_3_LBASE_LO, R477. -/
def R.SPUR_DIG_3_LBASE_LO : Nat := 0x29154
/-- SPUR_DIG_0_LBASE_HI, R477. -/
def R.SPUR_DIG_0_LBASE_HI : Nat := 0x29128
/-- SPUR_DIG_1_LBASE_HI, R477. -/
def R.SPUR_DIG_1_LBASE_HI : Nat := 0x29138
/-- SPUR_DIG_2_LBASE_HI, R477. -/
def R.SPUR_DIG_2_LBASE_HI : Nat := 0x29148
/-- SPUR_DIG_3_LBASE_HI, R477. -/
def R.SPUR_DIG_3_LBASE_HI : Nat := 0x29158
/-- SPUR_DIG_PARTIAL_LO, R477. -/
def R.SPUR_DIG_PARTIAL_LO : Nat := 0x29160
/-- SPUR_DIG_PARTIAL_HI, R477. -/
def R.SPUR_DIG_PARTIAL_HI : Nat := 0x29164
/-- SPUR_NUMW_0, R477. -/
def R.SPUR_NUMW_0 : Nat := 0x29170
/-- SPUR_NUMW_1, R477. -/
def R.SPUR_NUMW_1 : Nat := 0x29174
/-- SPUR_NUMW_2, R477. -/
def R.SPUR_NUMW_2 : Nat := 0x29178
/-- SPUR_NUMW_3, R477. -/
def R.SPUR_NUMW_3 : Nat := 0x2917C
/-- SPUR_SRAM_ADDR, R477. -/
def R.SPUR_SRAM_ADDR : Nat := 0x29180
/-- SPUR_SRAM_LO, R477. -/
def R.SPUR_SRAM_LO : Nat := 0x29184
/-- SPUR_SRAM_HI, R477. -/
def R.SPUR_SRAM_HI : Nat := 0x29188
/-- AUTH_CMD, R397. -/
def R.AUTH_CMD : Nat := 0x2A040
/-- AUTH_CMD_STATUS, R397. -/
def R.AUTH_CMD_STATUS : Nat := 0x2A044
/-- AUTH_NONCE_0, R397. -/
def R.AUTH_NONCE_0 : Nat := 0x2A048
/-- AUTH_NONCE_1, R397. -/
def R.AUTH_NONCE_1 : Nat := 0x2A04C
/-- AUTH_NONCE_2, R397. -/
def R.AUTH_NONCE_2 : Nat := 0x2A050
/-- AUTH_NONCE_3, R397. -/
def R.AUTH_NONCE_3 : Nat := 0x2A054
/-- AUTH_SCOPE, R397. -/
def R.AUTH_SCOPE : Nat := 0x2A058
/-- AUTH_SLOTS_LO, R397. -/
def R.AUTH_SLOTS_LO : Nat := 0x2A05C
/-- AUTH_SLOTS_HI, R397. -/
def R.AUTH_SLOTS_HI : Nat := 0x2A060
/-- AUTH_LIFE_LO, R397. -/
def R.AUTH_LIFE_LO : Nat := 0x2A064
/-- AUTH_LIFE_HI, R397. -/
def R.AUTH_LIFE_HI : Nat := 0x2A068
/-- AUTH_LIFE_EPOCH, R397. -/
def R.AUTH_LIFE_EPOCH : Nat := 0x2A06C
/-- AUTH_DATA_SEL, R397. -/
def R.AUTH_DATA_SEL : Nat := 0x2A070
/-- AUTH_DATA, R397. -/
def R.AUTH_DATA : Nat := 0x2A074
/-- AUTH_GRANT_SEL, R397. -/
def R.AUTH_GRANT_SEL : Nat := 0x2A078
/-- AUTH_GRANT, R397. -/
def R.AUTH_GRANT : Nat := 0x2A07C
/-- AUTH_GRANT_SLOTS_LO, R397. -/
def R.AUTH_GRANT_SLOTS_LO : Nat := 0x2A080
/-- AUTH_GRANT_SLOTS_HI, R397. -/
def R.AUTH_GRANT_SLOTS_HI : Nat := 0x2A084
/-- AUTH_GRANT_LEFT_LO, R397. -/
def R.AUTH_GRANT_LEFT_LO : Nat := 0x2A088
/-- AUTH_GRANT_LEFT_HI, R397. -/
def R.AUTH_GRANT_LEFT_HI : Nat := 0x2A08C
/-- AUTH_FAILS, R397. -/
def R.AUTH_FAILS : Nat := 0x2A090
/-- TRAY_PINS, R478. -/
def R.TRAY_PINS : Nat := 0x2B040
/-- TRAY_ALERT, R478. -/
def R.TRAY_ALERT : Nat := 0x2B044
/-- TRAY_SUMMARY, R478. -/
def R.TRAY_SUMMARY : Nat := 0x2B048
/-- TRAY_I3C, R478. -/
def R.TRAY_I3C : Nat := 0x2B04C
/-- TRAY_MBOX_0, R478. -/
def R.TRAY_MBOX_0 : Nat := 0x2B050
/-- TRAY_MBOX_1, R478. -/
def R.TRAY_MBOX_1 : Nat := 0x2B054

/-! ### Fields of the registers. A header field has the address of page 0; `Fld.lane` moves it. -/

/-- PG_ID.PAGE. -/
def F.PG_ID_PAGE : Fld := ⟨0x00000, 0, 8⟩
/-- PG_ID.INSTANCE. -/
def F.PG_ID_INSTANCE : Fld := ⟨0x00000, 8, 4⟩
/-- PG_ID.CORE. -/
def F.PG_ID_CORE : Fld := ⟨0x00000, 15, 1⟩
/-- PG_ID.BLOCK. -/
def F.PG_ID_BLOCK : Fld := ⟨0x00000, 16, 16⟩
/-- PG_VERSION.MINOR. -/
def F.PG_VERSION_MINOR : Fld := ⟨0x00004, 0, 8⟩
/-- PG_VERSION.MAJOR. -/
def F.PG_VERSION_MAJOR : Fld := ⟨0x00004, 8, 8⟩
/-- PG_VERSION.MEMBER. -/
def F.PG_VERSION_MEMBER : Fld := ⟨0x00004, 16, 2⟩
/-- PG_VERSION.PAIR. -/
def F.PG_VERSION_PAIR : Fld := ⟨0x00004, 18, 1⟩
/-- PG_CAPS.EVENTS. -/
def F.PG_CAPS_EVENTS : Fld := ⟨0x00008, 0, 5⟩
/-- PG_CAPS.ERRORS. -/
def F.PG_CAPS_ERRORS : Fld := ⟨0x00008, 5, 5⟩
/-- PG_CAPS.OWNABLE. -/
def F.PG_CAPS_OWNABLE : Fld := ⟨0x00008, 10, 1⟩
/-- PG_CAPS.LOCKABLE. -/
def F.PG_CAPS_LOCKABLE : Fld := ⟨0x00008, 11, 1⟩
/-- PG_CTRL.EN. -/
def F.PG_CTRL_EN : Fld := ⟨0x0000C, 0, 1⟩
/-- PG_CTRL.SOFT_RESET. -/
def F.PG_CTRL_SOFT_RESET : Fld := ⟨0x0000C, 1, 1⟩
/-- PG_CTRL.LOCK. -/
def F.PG_CTRL_LOCK : Fld := ⟨0x0000C, 2, 1⟩
/-- PG_STATUS.BUSY. -/
def F.PG_STATUS_BUSY : Fld := ⟨0x00010, 0, 1⟩
/-- PG_STATUS.LOCKED. -/
def F.PG_STATUS_LOCKED : Fld := ⟨0x00010, 1, 1⟩
/-- PG_STATUS.OWNED. -/
def F.PG_STATUS_OWNED : Fld := ⟨0x00010, 2, 1⟩
/-- PG_STATUS.SAFE. -/
def F.PG_STATUS_SAFE : Fld := ⟨0x00010, 3, 1⟩
/-- PG_STATUS.INT. -/
def F.PG_STATUS_INT : Fld := ⟨0x00010, 4, 1⟩
/-- PG_EVENT.EVENTS. -/
def F.PG_EVENT_EVENTS : Fld := ⟨0x00014, 0, 32⟩
/-- PG_EVENT_EN.ENABLE. -/
def F.PG_EVENT_EN_ENABLE : Fld := ⟨0x00018, 0, 32⟩
/-- PG_EVENT_FORCE.FORCE. -/
def F.PG_EVENT_FORCE_FORCE : Fld := ⟨0x0001C, 0, 32⟩
/-- PG_ERROR.ERRORS. -/
def F.PG_ERROR_ERRORS : Fld := ⟨0x00020, 0, 32⟩
/-- PG_ERROR_INFO.OFFSET. -/
def F.PG_ERROR_INFO_OFFSET : Fld := ⟨0x00024, 0, 12⟩
/-- PG_ERROR_INFO.BIT. -/
def F.PG_ERROR_INFO_BIT : Fld := ⟨0x00024, 12, 5⟩
/-- PG_ERROR_INFO.REQUESTER. -/
def F.PG_ERROR_INFO_REQUESTER : Fld := ⟨0x00024, 17, 3⟩
/-- PG_OWNER.OWNER. -/
def F.PG_OWNER_OWNER : Fld := ⟨0x00028, 0, 3⟩
/-- PG_OWNER.CLAIM. -/
def F.PG_OWNER_CLAIM : Fld := ⟨0x00028, 4, 1⟩
/-- PG_OWNER.RELEASE. -/
def F.PG_OWNER_RELEASE : Fld := ⟨0x00028, 5, 1⟩
/-- PG_OWNER.FORCE_RELEASE. -/
def F.PG_OWNER_FORCE_RELEASE : Fld := ⟨0x00028, 6, 1⟩
/-- PG_PARITY.REG. -/
def F.PG_PARITY_REG : Fld := ⟨0x0002C, 0, 31⟩
/-- PG_PARITY.OTHER. -/
def F.PG_PARITY_OTHER : Fld := ⟨0x0002C, 31, 1⟩
/-- GLB_HUB.HUB. -/
def F.GLB_HUB_HUB : Fld := ⟨0x00040, 0, 11⟩
/-- GLB_HUB.LEAD. -/
def F.GLB_HUB_LEAD : Fld := ⟨0x00040, 11, 1⟩
/-- GLB_HUB.PAIR. -/
def F.GLB_HUB_PAIR : Fld := ⟨0x00040, 12, 1⟩
/-- GLB_HUB.ACTIVE_CORE. -/
def F.GLB_HUB_ACTIVE_CORE : Fld := ⟨0x00040, 13, 1⟩
/-- GLB_GRID.COLUMNS. -/
def F.GLB_GRID_COLUMNS : Fld := ⟨0x00044, 0, 8⟩
/-- GLB_GRID.ROWS. -/
def F.GLB_GRID_ROWS : Fld := ⟨0x00044, 8, 8⟩
/-- GLB_GRID.SEAM. -/
def F.GLB_GRID_SEAM : Fld := ⟨0x00044, 16, 7⟩
/-- GLB_WHOAMI.REQUESTER. -/
def F.GLB_WHOAMI_REQUESTER : Fld := ⟨0x00048, 0, 3⟩
/-- GLB_INT_0.PAGES. -/
def F.GLB_INT_0_PAGES : Fld := ⟨0x0004C, 0, 32⟩
/-- GLB_INT_1.PAGES. -/
def F.GLB_INT_1_PAGES : Fld := ⟨0x00050, 0, 12⟩
/-- GLB_REFUSED.ADDR. -/
def F.GLB_REFUSED_ADDR : Fld := ⟨0x00054, 0, 20⟩
/-- GLB_REFUSED.REQUESTER. -/
def F.GLB_REFUSED_REQUESTER : Fld := ⟨0x00054, 20, 3⟩
/-- GLB_REFUSED.WRITE. -/
def F.GLB_REFUSED_WRITE : Fld := ⟨0x00054, 23, 1⟩
/-- GLB_REFUSED.STATUS. -/
def F.GLB_REFUSED_STATUS : Fld := ⟨0x00054, 24, 8⟩
/-- GLB_REFUSED_COUNT.COUNT. -/
def F.GLB_REFUSED_COUNT_COUNT : Fld := ⟨0x00058, 0, 32⟩
/-- GLB_CTX_SEL.SLOT. -/
def F.GLB_CTX_SEL_SLOT : Fld := ⟨0x0005C, 0, 6⟩
/-- GLB_CTX_CFG.JOB_TAG. -/
def F.GLB_CTX_CFG_JOB_TAG : Fld := ⟨0x00060, 0, 16⟩
/-- GLB_CTX_CFG.PRIV. -/
def F.GLB_CTX_CFG_PRIV : Fld := ⟨0x00060, 16, 2⟩
/-- GLB_CTX_PROFILE.PROFILE. -/
def F.GLB_CTX_PROFILE_PROFILE : Fld := ⟨0x00064, 0, 16⟩
/-- GLB_CTX_SEED_LO.SEED_LO. -/
def F.GLB_CTX_SEED_LO_SEED_LO : Fld := ⟨0x00068, 0, 32⟩
/-- GLB_CTX_SEED_HI.SEED_HI. -/
def F.GLB_CTX_SEED_HI_SEED_HI : Fld := ⟨0x0006C, 0, 32⟩
/-- GLB_CTX_SCN_LO.SCN_LO. -/
def F.GLB_CTX_SCN_LO_SCN_LO : Fld := ⟨0x00070, 0, 32⟩
/-- GLB_CTX_SCN_HI.SCN_HI. -/
def F.GLB_CTX_SCN_HI_SCN_HI : Fld := ⟨0x00074, 0, 32⟩
/-- GLB_CTX_RECT.RECT. -/
def F.GLB_CTX_RECT_RECT : Fld := ⟨0x00078, 0, 31⟩
/-- GLB_CMD.OP. -/
def F.GLB_CMD_OP : Fld := ⟨0x0007C, 0, 3⟩
/-- GLB_CMD_STATUS.STATUS. -/
def F.GLB_CMD_STATUS_STATUS : Fld := ⟨0x00080, 0, 8⟩
/-- GLB_CMD_STATUS.OP. -/
def F.GLB_CMD_STATUS_OP : Fld := ⟨0x00080, 8, 3⟩
/-- GLB_CMD_STATUS.DONE. -/
def F.GLB_CMD_STATUS_DONE : Fld := ⟨0x00080, 11, 1⟩
/-- GLB_CMD_STATUS.TILES. -/
def F.GLB_CMD_STATUS_TILES : Fld := ⟨0x00080, 12, 15⟩
/-- GLB_CTX_STATE.OPEN. -/
def F.GLB_CTX_STATE_OPEN : Fld := ⟨0x00084, 0, 1⟩
/-- GLB_CTX_STATE.PRIV. -/
def F.GLB_CTX_STATE_PRIV : Fld := ⟨0x00084, 1, 2⟩
/-- GLB_CTX_STATE.WEST. -/
def F.GLB_CTX_STATE_WEST : Fld := ⟨0x00084, 3, 1⟩
/-- GLB_CTX_STATE.EAST. -/
def F.GLB_CTX_STATE_EAST : Fld := ⟨0x00084, 4, 1⟩
/-- GLB_CTX_STATE.TILES. -/
def F.GLB_CTX_STATE_TILES : Fld := ⟨0x00084, 5, 15⟩
/-- GLB_CTX_TAG.JOB_TAG. -/
def F.GLB_CTX_TAG_JOB_TAG : Fld := ⟨0x00088, 0, 16⟩
/-- BOOT_STATUS.STEP. -/
def F.BOOT_STATUS_STEP : Fld := ⟨0x01040, 0, 4⟩
/-- BOOT_STATUS.CFG_DEFAULTED. -/
def F.BOOT_STATUS_CFG_DEFAULTED : Fld := ⟨0x01040, 4, 1⟩
/-- BOOT_STATUS.DEFAULT_REASON. -/
def F.BOOT_STATUS_DEFAULT_REASON : Fld := ⟨0x01040, 5, 3⟩
/-- BOOT_STATUS.SIG_OK. -/
def F.BOOT_STATUS_SIG_OK : Fld := ⟨0x01040, 8, 1⟩
/-- BOOT_STATUS.MASTER_ASSUMED. -/
def F.BOOT_STATUS_MASTER_ASSUMED : Fld := ⟨0x01040, 9, 1⟩
/-- BOOT_STATUS.NO_TIME. -/
def F.BOOT_STATUS_NO_TIME : Fld := ⟨0x01040, 10, 1⟩
/-- BOOT_STATUS.FIELD_RESTART. -/
def F.BOOT_STATUS_FIELD_RESTART : Fld := ⟨0x01040, 11, 1⟩
/-- BOOT_STATUS.PKG_ID. -/
def F.BOOT_STATUS_PKG_ID : Fld := ⟨0x01040, 12, 4⟩
/-- BOOT_STATUS.PACKS_VALID. -/
def F.BOOT_STATUS_PACKS_VALID : Fld := ⟨0x01040, 16, 1⟩
/-- BOOT_IMAGE_LEN.BYTES. -/
def F.BOOT_IMAGE_LEN_BYTES : Fld := ⟨0x01044, 0, 23⟩
/-- BOOT_IMAGE_SEQ.SEQ. -/
def F.BOOT_IMAGE_SEQ_SEQ : Fld := ⟨0x01048, 0, 32⟩
/-- BOOT_CFG_INFO.SKIPPED. -/
def F.BOOT_CFG_INFO_SKIPPED : Fld := ⟨0x0104C, 0, 12⟩
/-- BOOT_CFG_INFO.REJ_PROFILES. -/
def F.BOOT_CFG_INFO_REJ_PROFILES : Fld := ⟨0x0104C, 12, 4⟩
/-- BOOT_CFG_INFO.IGNORED. -/
def F.BOOT_CFG_INFO_IGNORED : Fld := ⟨0x0104C, 16, 8⟩
/-- BOOT_TIME_RELEASE.HCLK. -/
def F.BOOT_TIME_RELEASE_HCLK : Fld := ⟨0x01050, 0, 32⟩
/-- BOOT_TIME_IMAGE.HCLK. -/
def F.BOOT_TIME_IMAGE_HCLK : Fld := ⟨0x01054, 0, 32⟩
/-- BOOT_BIST_SEL.TARGETS. -/
def F.BOOT_BIST_SEL_TARGETS : Fld := ⟨0x01058, 0, 5⟩
/-- BOOT_BIST_LIMIT.HCLK. -/
def F.BOOT_BIST_LIMIT_HCLK : Fld := ⟨0x0105C, 0, 32⟩
/-- BOOT_BIST_RESULT.RUN. -/
def F.BOOT_BIST_RESULT_RUN : Fld := ⟨0x01060, 0, 5⟩
/-- BOOT_BIST_RESULT.FAILED. -/
def F.BOOT_BIST_RESULT_FAILED : Fld := ⟨0x01060, 8, 5⟩
/-- BOOT_BIST_RESULT.NOT_RUN. -/
def F.BOOT_BIST_RESULT_NOT_RUN : Fld := ⟨0x01060, 16, 5⟩
/-- BOOT_CMD.OP. -/
def F.BOOT_CMD_OP : Fld := ⟨0x01064, 0, 2⟩
/-- BOOT_CMD_STATUS.STATUS. -/
def F.BOOT_CMD_STATUS_STATUS : Fld := ⟨0x01068, 0, 8⟩
/-- LIFE_STATE.STATE. -/
def F.LIFE_STATE_STATE : Fld := ⟨0x02040, 0, 3⟩
/-- LIFE_STATE.INVALID. -/
def F.LIFE_STATE_INVALID : Fld := ⟨0x02040, 3, 1⟩
/-- LIFE_STATE.PENDING. -/
def F.LIFE_STATE_PENDING : Fld := ⟨0x02040, 4, 1⟩
/-- LIFE_STATE.PENDING_STATE. -/
def F.LIFE_STATE_PENDING_STATE : Fld := ⟨0x02040, 5, 3⟩
/-- LIFE_STATE.KEY_SET. -/
def F.LIFE_STATE_KEY_SET : Fld := ⟨0x02040, 8, 1⟩
/-- LIFE_STATE.VPP_READY. -/
def F.LIFE_STATE_VPP_READY : Fld := ⟨0x02040, 9, 1⟩
/-- LIFE_STATE.BAD_USED. -/
def F.LIFE_STATE_BAD_USED : Fld := ⟨0x02040, 10, 10⟩
/-- LIFE_STATE.BAD_PARITY. -/
def F.LIFE_STATE_BAD_PARITY : Fld := ⟨0x02040, 20, 4⟩
/-- LIFE_DEVICE_ID_LO.ID_LO. -/
def F.LIFE_DEVICE_ID_LO_ID_LO : Fld := ⟨0x02044, 0, 32⟩
/-- LIFE_DEVICE_ID_HI.ID_HI. -/
def F.LIFE_DEVICE_ID_HI_ID_HI : Fld := ⟨0x02048, 0, 32⟩
/-- LIFE_FUSE_SEL.ROW. -/
def F.LIFE_FUSE_SEL_ROW : Fld := ⟨0x0204C, 0, 9⟩
/-- LIFE_FUSE_DATA.DATA. -/
def F.LIFE_FUSE_DATA_DATA : Fld := ⟨0x02050, 0, 32⟩
/-- LIFE_CMD.OP. -/
def F.LIFE_CMD_OP : Fld := ⟨0x02054, 0, 3⟩
/-- LIFE_ARG.TARGET. -/
def F.LIFE_ARG_TARGET : Fld := ⟨0x02058, 0, 3⟩
/-- LIFE_ARG.TILE. -/
def F.LIFE_ARG_TILE : Fld := ⟨0x02058, 16, 14⟩
/-- LIFE_CMD_STATUS.STATUS. -/
def F.LIFE_CMD_STATUS_STATUS : Fld := ⟨0x0205C, 0, 8⟩
/-- LIFE_CMD_STATUS.DONE. -/
def F.LIFE_CMD_STATUS_DONE : Fld := ⟨0x0205C, 8, 1⟩
/-- LIFE_KEY_0.HASH. -/
def F.LIFE_KEY_0_HASH : Fld := ⟨0x02060, 0, 32⟩
/-- LIFE_KEY_1.HASH. -/
def F.LIFE_KEY_1_HASH : Fld := ⟨0x02064, 0, 32⟩
/-- LIFE_KEY_2.HASH. -/
def F.LIFE_KEY_2_HASH : Fld := ⟨0x02068, 0, 32⟩
/-- LIFE_KEY_3.HASH. -/
def F.LIFE_KEY_3_HASH : Fld := ⟨0x0206C, 0, 32⟩
/-- LIFE_KEY_4.HASH. -/
def F.LIFE_KEY_4_HASH : Fld := ⟨0x02070, 0, 32⟩
/-- LIFE_KEY_5.HASH. -/
def F.LIFE_KEY_5_HASH : Fld := ⟨0x02074, 0, 32⟩
/-- LIFE_KEY_6.HASH. -/
def F.LIFE_KEY_6_HASH : Fld := ⟨0x02078, 0, 32⟩
/-- LIFE_KEY_7.HASH. -/
def F.LIFE_KEY_7_HASH : Fld := ⟨0x0207C, 0, 32⟩
/-- LIFE_KEY_8.HASH. -/
def F.LIFE_KEY_8_HASH : Fld := ⟨0x02080, 0, 32⟩
/-- LIFE_KEY_9.HASH. -/
def F.LIFE_KEY_9_HASH : Fld := ⟨0x02084, 0, 32⟩
/-- LIFE_KEY_10.HASH. -/
def F.LIFE_KEY_10_HASH : Fld := ⟨0x02088, 0, 32⟩
/-- LIFE_KEY_11.HASH. -/
def F.LIFE_KEY_11_HASH : Fld := ⟨0x0208C, 0, 32⟩
/-- TIME_GCN_LO.GCN_LO. -/
def F.TIME_GCN_LO_GCN_LO : Fld := ⟨0x03040, 0, 32⟩
/-- TIME_GCN_HI.GCN_HI. -/
def F.TIME_GCN_HI_GCN_HI : Fld := ⟨0x03044, 0, 32⟩
/-- TIME_EPOCH.EPOCH. -/
def F.TIME_EPOCH_EPOCH : Fld := ⟨0x03048, 0, 32⟩
/-- TIME_STATE.STATE. -/
def F.TIME_STATE_STATE : Fld := ⟨0x0304C, 0, 3⟩
/-- TIME_STATE.IS_MASTER. -/
def F.TIME_STATE_IS_MASTER : Fld := ⟨0x0304C, 3, 1⟩
/-- TIME_STATE.PKG_OK. -/
def F.TIME_STATE_PKG_OK : Fld := ⟨0x0304C, 4, 1⟩
/-- TIME_STATE.XPKG_OK. -/
def F.TIME_STATE_XPKG_OK : Fld := ⟨0x0304C, 5, 1⟩
/-- TIME_CTRL.MASTER. -/
def F.TIME_CTRL_MASTER : Fld := ⟨0x03050, 0, 1⟩
/-- TIME_CTRL.TBS_EN. -/
def F.TIME_CTRL_TBS_EN : Fld := ⟨0x03050, 1, 1⟩
/-- TIME_CTRL.SYNC_CHECK_EN. -/
def F.TIME_CTRL_SYNC_CHECK_EN : Fld := ⟨0x03050, 2, 1⟩
/-- TIME_CMD.OP. -/
def F.TIME_CMD_OP : Fld := ⟨0x03054, 0, 4⟩
/-- TIME_CMD_STATUS.STATUS. -/
def F.TIME_CMD_STATUS_STATUS : Fld := ⟨0x03058, 0, 8⟩
/-- TIME_CMD_STATUS.OP. -/
def F.TIME_CMD_STATUS_OP : Fld := ⟨0x03058, 8, 4⟩
/-- TIME_CMD_STATUS.DONE. -/
def F.TIME_CMD_STATUS_DONE : Fld := ⟨0x03058, 12, 1⟩
/-- TIME_ARG_EPOCH.EPOCH. -/
def F.TIME_ARG_EPOCH_EPOCH : Fld := ⟨0x0305C, 0, 32⟩
/-- TIME_TBS_GCN_LO.GCN_LO. -/
def F.TIME_TBS_GCN_LO_GCN_LO : Fld := ⟨0x03060, 0, 32⟩
/-- TIME_TBS_GCN_HI.GCN_HI. -/
def F.TIME_TBS_GCN_HI_GCN_HI : Fld := ⟨0x03064, 0, 32⟩
/-- TIME_TBS_COMP.COMP. -/
def F.TIME_TBS_COMP_COMP : Fld := ⟨0x03068, 0, 8⟩
/-- TIME_TBS_PERIOD.PERIOD. -/
def F.TIME_TBS_PERIOD_PERIOD : Fld := ⟨0x0306C, 0, 32⟩
/-- TIME_TBS_LAST.DEV. -/
def F.TIME_TBS_LAST_DEV : Fld := ⟨0x03070, 0, 8⟩
/-- TIME_TBS_LAST.COUNT. -/
def F.TIME_TBS_LAST_COUNT : Fld := ⟨0x03070, 8, 16⟩
/-- TIME_SYNC_PERIOD.PERIOD. -/
def F.TIME_SYNC_PERIOD_PERIOD : Fld := ⟨0x03074, 0, 32⟩
/-- TIME_SYNC_ERR.TENDRIL. -/
def F.TIME_SYNC_ERR_TENDRIL : Fld := ⟨0x03078, 0, 2⟩
/-- TIME_SYNC_ERR.DIFF. -/
def F.TIME_SYNC_ERR_DIFF : Fld := ⟨0x03078, 2, 16⟩
/-- TIME_CLK_DIV.WEST. -/
def F.TIME_CLK_DIV_WEST : Fld := ⟨0x0307C, 0, 2⟩
/-- TIME_CLK_DIV.EAST. -/
def F.TIME_CLK_DIV_EAST : Fld := ⟨0x0307C, 2, 2⟩
/-- TIME_CLK_DIV.WEST_PEND. -/
def F.TIME_CLK_DIV_WEST_PEND : Fld := ⟨0x0307C, 4, 1⟩
/-- TIME_CLK_DIV.EAST_PEND. -/
def F.TIME_CLK_DIV_EAST_PEND : Fld := ⟨0x0307C, 5, 1⟩
/-- TIME_CLK_DIV.PHASE_EQ. -/
def F.TIME_CLK_DIV_PHASE_EQ : Fld := ⟨0x0307C, 6, 1⟩
/-- TIME_CLKCHG_REQ.PART. -/
def F.TIME_CLKCHG_REQ_PART : Fld := ⟨0x03080, 0, 1⟩
/-- TIME_CLKCHG_REQ.DIV. -/
def F.TIME_CLKCHG_REQ_DIV : Fld := ⟨0x03080, 1, 2⟩
/-- TIME_CLKCHG_GCN_LO.GCN_LO. -/
def F.TIME_CLKCHG_GCN_LO_GCN_LO : Fld := ⟨0x03084, 0, 32⟩
/-- TIME_CLKCHG_GCN_HI.GCN_HI. -/
def F.TIME_CLKCHG_GCN_HI_GCN_HI : Fld := ⟨0x03088, 0, 32⟩
/-- TIME_CLKCHG_APPLY_LO.GCN_LO. -/
def F.TIME_CLKCHG_APPLY_LO_GCN_LO : Fld := ⟨0x0308C, 0, 32⟩
/-- TIME_CLKCHG_APPLY_HI.GCN_HI. -/
def F.TIME_CLKCHG_APPLY_HI_GCN_HI : Fld := ⟨0x03090, 0, 32⟩
/-- TIME_ORIGIN_W.G0. -/
def F.TIME_ORIGIN_W_G0 : Fld := ⟨0x03094, 0, 3⟩
/-- TIME_ORIGIN_E.G0. -/
def F.TIME_ORIGIN_E_G0 : Fld := ⟨0x03098, 0, 3⟩
/-- TIME_SCN_SLOT.SLOT. -/
def F.TIME_SCN_SLOT_SLOT : Fld := ⟨0x0309C, 0, 6⟩
/-- TIME_SCN_LO.SCN_LO. -/
def F.TIME_SCN_LO_SCN_LO : Fld := ⟨0x030A0, 0, 32⟩
/-- TIME_SCN_HI.SCN_HI. -/
def F.TIME_SCN_HI_SCN_HI : Fld := ⟨0x030A4, 0, 32⟩
/-- TIME_SCN_FLAGS.VALID. -/
def F.TIME_SCN_FLAGS_VALID : Fld := ⟨0x030A8, 0, 1⟩
/-- TIME_SCN_FLAGS.STOPPED. -/
def F.TIME_SCN_FLAGS_STOPPED : Fld := ⟨0x030A8, 1, 1⟩
/-- CORK_CMD.OP. -/
def F.CORK_CMD_OP : Fld := ⟨0x04040, 0, 4⟩
/-- CORK_SCOPE.KIND. -/
def F.CORK_SCOPE_KIND : Fld := ⟨0x04044, 0, 3⟩
/-- CORK_SCOPE.FED. -/
def F.CORK_SCOPE_FED : Fld := ⟨0x04044, 3, 1⟩
/-- CORK_SCOPE.XPKG. -/
def F.CORK_SCOPE_XPKG : Fld := ⟨0x04044, 4, 1⟩
/-- CORK_SCOPE.PART. -/
def F.CORK_SCOPE_PART : Fld := ⟨0x04044, 5, 1⟩
/-- CORK_SCOPE.SLOT. -/
def F.CORK_SCOPE_SLOT : Fld := ⟨0x04044, 6, 6⟩
/-- CORK_SCOPE.JOB_TAG. -/
def F.CORK_SCOPE_JOB_TAG : Fld := ⟨0x04044, 16, 16⟩
/-- CORK_MODE.TARGET. -/
def F.CORK_MODE_TARGET : Fld := ⟨0x04048, 0, 2⟩
/-- CORK_TARGET_LO.TARGET_LO. -/
def F.CORK_TARGET_LO_TARGET_LO : Fld := ⟨0x0404C, 0, 32⟩
/-- CORK_TARGET_HI.TARGET_HI. -/
def F.CORK_TARGET_HI_TARGET_HI : Fld := ⟨0x04050, 0, 32⟩
/-- CORK_STEP_COUNT.COUNT. -/
def F.CORK_STEP_COUNT_COUNT : Fld := ⟨0x04054, 0, 32⟩
/-- CORK_STATUS.STATUS. -/
def F.CORK_STATUS_STATUS : Fld := ⟨0x04058, 0, 8⟩
/-- CORK_STATUS.FINAL. -/
def F.CORK_STATUS_FINAL : Fld := ⟨0x04058, 8, 8⟩
/-- CORK_STATUS.OP. -/
def F.CORK_STATUS_OP : Fld := ⟨0x04058, 16, 4⟩
/-- CORK_STATUS.DONE. -/
def F.CORK_STATUS_DONE : Fld := ⟨0x04058, 20, 1⟩
/-- CORK_STATUS.ALREADY. -/
def F.CORK_STATUS_ALREADY : Fld := ⟨0x04058, 21, 1⟩
/-- CORK_RESULT_SCN_LO.SCN_LO. -/
def F.CORK_RESULT_SCN_LO_SCN_LO : Fld := ⟨0x0405C, 0, 32⟩
/-- CORK_RESULT_SCN_HI.SCN_HI. -/
def F.CORK_RESULT_SCN_HI_SCN_HI : Fld := ⟨0x04060, 0, 32⟩
/-- CORK_RESULT_GCN_LO.GCN_LO. -/
def F.CORK_RESULT_GCN_LO_GCN_LO : Fld := ⟨0x04064, 0, 32⟩
/-- CORK_RESULT_GCN_HI.GCN_HI. -/
def F.CORK_RESULT_GCN_HI_GCN_HI : Fld := ⟨0x04068, 0, 32⟩
/-- CORK_LEAD.LMIN. -/
def F.CORK_LEAD_LMIN : Fld := ⟨0x0406C, 0, 16⟩
/-- CORK_STOPPED_LO.MAP_LO. -/
def F.CORK_STOPPED_LO_MAP_LO : Fld := ⟨0x04070, 0, 32⟩
/-- CORK_STOPPED_HI.MAP_HI. -/
def F.CORK_STOPPED_HI_MAP_HI : Fld := ⟨0x04074, 0, 32⟩
/-- CORK_DOMAIN_SEL.SLOT. -/
def F.CORK_DOMAIN_SEL_SLOT : Fld := ⟨0x04078, 0, 6⟩
/-- CORK_DOMAIN_STATE.STATE. -/
def F.CORK_DOMAIN_STATE_STATE : Fld := ⟨0x0407C, 0, 2⟩
/-- CORK_DOMAIN_STATE.STEPPING. -/
def F.CORK_DOMAIN_STATE_STEPPING : Fld := ⟨0x0407C, 2, 1⟩
/-- CORK_DOMAIN_STATE.HELD. -/
def F.CORK_DOMAIN_STATE_HELD : Fld := ⟨0x0407C, 3, 1⟩
/-- CORK_DOMAIN_STATE.SOURCES. -/
def F.CORK_DOMAIN_STATE_SOURCES : Fld := ⟨0x0407C, 4, 4⟩
/-- CORK_STALL_MASK.MANUAL. -/
def F.CORK_STALL_MASK_MANUAL : Fld := ⟨0x04080, 0, 16⟩
/-- CORK_STALL_MASK.EFFECTIVE. -/
def F.CORK_STALL_MASK_EFFECTIVE : Fld := ⟨0x04080, 16, 16⟩
/-- CORK_STALL_DURATION.EDGES. -/
def F.CORK_STALL_DURATION_EDGES : Fld := ⟨0x04084, 0, 32⟩
/-- CORK_HOLD_LIMIT.HCLK. -/
def F.CORK_HOLD_LIMIT_HCLK : Fld := ⟨0x04088, 0, 32⟩
/-- CORK_REPORT_LIMIT.HCLK. -/
def F.CORK_REPORT_LIMIT_HCLK : Fld := ⟨0x0408C, 0, 16⟩
/-- CORK_XPKG_LEAD.HCLK. -/
def F.CORK_XPKG_LEAD_HCLK : Fld := ⟨0x04090, 0, 32⟩
/-- CORK_SKEW_INFO.TILE. -/
def F.CORK_SKEW_INFO_TILE : Fld := ⟨0x04094, 0, 14⟩
/-- CORK_SKEW_INFO.VALID. -/
def F.CORK_SKEW_INFO_VALID : Fld := ⟨0x04094, 14, 1⟩
/-- CORK_SKEW_INFO.DELTA. -/
def F.CORK_SKEW_INFO_DELTA : Fld := ⟨0x04094, 16, 16⟩
/-- CORK_TRIG_SCOPE.SCOPE. -/
def F.CORK_TRIG_SCOPE_SCOPE : Fld := ⟨0x04098, 0, 12⟩
/-- CORK_TRIG_SCOPE.EN. -/
def F.CORK_TRIG_SCOPE_EN : Fld := ⟨0x04098, 15, 1⟩
/-- CORK_TRIG_SCOPE.JOB_TAG. -/
def F.CORK_TRIG_SCOPE_JOB_TAG : Fld := ⟨0x04098, 16, 16⟩
/-- CORK_TRIG_DELAY.CYCLES. -/
def F.CORK_TRIG_DELAY_CYCLES : Fld := ⟨0x0409C, 0, 32⟩
/-- CANE_CTRL.AUTO_BYPASS. -/
def F.CANE_CTRL_AUTO_BYPASS : Fld := ⟨0x06040, 0, 1⟩
/-- CANE_CTRL.PARITY_EN. -/
def F.CANE_CTRL_PARITY_EN : Fld := ⟨0x06040, 1, 1⟩
/-- CANE_DIR_0.DOWN. -/
def F.CANE_DIR_0_DOWN : Fld := ⟨0x06044, 0, 32⟩
/-- CANE_DIR_1.DOWN. -/
def F.CANE_DIR_1_DOWN : Fld := ⟨0x06048, 0, 32⟩
/-- CANE_DIR_2.DOWN. -/
def F.CANE_DIR_2_DOWN : Fld := ⟨0x0604C, 0, 32⟩
/-- CANE_DIR_3.DOWN. -/
def F.CANE_DIR_3_DOWN : Fld := ⟨0x06050, 0, 32⟩
/-- CANE_BROKEN_0.BROKEN. -/
def F.CANE_BROKEN_0_BROKEN : Fld := ⟨0x06054, 0, 32⟩
/-- CANE_BROKEN_1.BROKEN. -/
def F.CANE_BROKEN_1_BROKEN : Fld := ⟨0x06058, 0, 32⟩
/-- CANE_BROKEN_2.BROKEN. -/
def F.CANE_BROKEN_2_BROKEN : Fld := ⟨0x0605C, 0, 32⟩
/-- CANE_BROKEN_3.BROKEN. -/
def F.CANE_BROKEN_3_BROKEN : Fld := ⟨0x06060, 0, 32⟩
/-- CANE_SEL.CANE. -/
def F.CANE_SEL_CANE : Fld := ⟨0x06064, 0, 7⟩
/-- CANE_INFO.BREAK_ROW. -/
def F.CANE_INFO_BREAK_ROW : Fld := ⟨0x06068, 0, 7⟩
/-- CANE_INFO.BREAK_VALID. -/
def F.CANE_INFO_BREAK_VALID : Fld := ⟨0x06068, 7, 1⟩
/-- CANE_INFO.PARITY_ERRS. -/
def F.CANE_INFO_PARITY_ERRS : Fld := ⟨0x06068, 8, 16⟩
/-- CANE_INFO.MODE. -/
def F.CANE_INFO_MODE : Fld := ⟨0x06068, 24, 2⟩
/-- CANE_QUEUE.LEVEL. -/
def F.CANE_QUEUE_LEVEL : Fld := ⟨0x0606C, 0, 15⟩
/-- CANE_QUEUE.PEAK. -/
def F.CANE_QUEUE_PEAK : Fld := ⟨0x0606C, 16, 15⟩
/-- CANE_CMD.OP. -/
def F.CANE_CMD_OP : Fld := ⟨0x06070, 0, 3⟩
/-- CANE_CMD_STATUS.STATUS. -/
def F.CANE_CMD_STATUS_STATUS : Fld := ⟨0x06074, 0, 8⟩
/-- CANE_CMD_STATUS.DONE. -/
def F.CANE_CMD_STATUS_DONE : Fld := ⟨0x06074, 8, 1⟩
/-- HARV_CMD.OP. -/
def F.HARV_CMD_OP : Fld := ⟨0x07040, 0, 4⟩
/-- HARV_SCOPE.SCOPE. -/
def F.HARV_SCOPE_SCOPE : Fld := ⟨0x07044, 0, 32⟩
/-- HARV_SEL.STATE_ONLY. -/
def F.HARV_SEL_STATE_ONLY : Fld := ⟨0x07048, 0, 1⟩
/-- HARV_SEL.RECT_EN. -/
def F.HARV_SEL_RECT_EN : Fld := ⟨0x07048, 1, 1⟩
/-- HARV_SEL.RANGE_EN. -/
def F.HARV_SEL_RANGE_EN : Fld := ⟨0x07048, 2, 1⟩
/-- HARV_SEL.EXT. -/
def F.HARV_SEL_EXT : Fld := ⟨0x07048, 3, 2⟩
/-- HARV_SEL.TRACE_SNAP. -/
def F.HARV_SEL_TRACE_SNAP : Fld := ⟨0x07048, 5, 1⟩
/-- HARV_SEL.DELTA. -/
def F.HARV_SEL_DELTA : Fld := ⟨0x07048, 6, 1⟩
/-- HARV_SEL.PIN. -/
def F.HARV_SEL_PIN : Fld := ⟨0x07048, 7, 1⟩
/-- HARV_SEL.CRASH. -/
def F.HARV_SEL_CRASH : Fld := ⟨0x07048, 8, 1⟩
/-- HARV_RECT.X0. -/
def F.HARV_RECT_X0 : Fld := ⟨0x0704C, 0, 7⟩
/-- HARV_RECT.Y0. -/
def F.HARV_RECT_Y0 : Fld := ⟨0x0704C, 8, 7⟩
/-- HARV_RECT.X1. -/
def F.HARV_RECT_X1 : Fld := ⟨0x0704C, 16, 7⟩
/-- HARV_RECT.Y1. -/
def F.HARV_RECT_Y1 : Fld := ⟨0x0704C, 24, 7⟩
/-- HARV_RANGE.START. -/
def F.HARV_RANGE_START : Fld := ⟨0x07050, 0, 10⟩
/-- HARV_RANGE.END. -/
def F.HARV_RANGE_END : Fld := ⟨0x07050, 16, 10⟩
/-- HARV_VINTAGE.NUMBER. -/
def F.HARV_VINTAGE_NUMBER : Fld := ⟨0x07054, 0, 32⟩
/-- HARV_REF_VINTAGE.NUMBER. -/
def F.HARV_REF_VINTAGE_NUMBER : Fld := ⟨0x07058, 0, 32⟩
/-- HARV_TRACE_SNAP_LEN.MIB. -/
def F.HARV_TRACE_SNAP_LEN_MIB : Fld := ⟨0x0705C, 0, 8⟩
/-- HARV_STATUS.STATUS. -/
def F.HARV_STATUS_STATUS : Fld := ⟨0x07060, 0, 8⟩
/-- HARV_STATUS.FINAL. -/
def F.HARV_STATUS_FINAL : Fld := ⟨0x07060, 8, 8⟩
/-- HARV_STATUS.OP. -/
def F.HARV_STATUS_OP : Fld := ⟨0x07060, 16, 4⟩
/-- HARV_STATUS.DONE. -/
def F.HARV_STATUS_DONE : Fld := ⟨0x07060, 20, 1⟩
/-- HARV_STATUS.PHASE. -/
def F.HARV_STATUS_PHASE : Fld := ⟨0x07060, 21, 3⟩
/-- HARV_STATUS.RESTORABLE. -/
def F.HARV_STATUS_RESTORABLE : Fld := ⟨0x07060, 24, 1⟩
/-- HARV_CUR_VINTAGE.NUMBER. -/
def F.HARV_CUR_VINTAGE_NUMBER : Fld := ⟨0x07064, 0, 32⟩
/-- HARV_NEXT_VINTAGE.NUMBER. -/
def F.HARV_NEXT_VINTAGE_NUMBER : Fld := ⟨0x07068, 0, 32⟩
/-- HARV_PROGRESS.TILES. -/
def F.HARV_PROGRESS_TILES : Fld := ⟨0x0706C, 0, 15⟩
/-- HARV_PROGRESS.GAPS. -/
def F.HARV_PROGRESS_GAPS : Fld := ⟨0x0706C, 16, 15⟩
/-- HARV_RAW_LO.BYTES_LO. -/
def F.HARV_RAW_LO_BYTES_LO : Fld := ⟨0x07070, 0, 32⟩
/-- HARV_RAW_HI.BYTES_HI. -/
def F.HARV_RAW_HI_BYTES_HI : Fld := ⟨0x07074, 0, 32⟩
/-- HARV_PRESSED_LO.BYTES_LO. -/
def F.HARV_PRESSED_LO_BYTES_LO : Fld := ⟨0x07078, 0, 32⟩
/-- HARV_PRESSED_HI.BYTES_HI. -/
def F.HARV_PRESSED_HI_BYTES_HI : Fld := ⟨0x0707C, 0, 32⟩
/-- HARV_DRAIN_LIMIT.HCLK. -/
def F.HARV_DRAIN_LIMIT_HCLK : Fld := ⟨0x07080, 0, 32⟩
/-- HARV_SPUR_LIMIT.HCLK. -/
def F.HARV_SPUR_LIMIT_HCLK : Fld := ⟨0x07084, 0, 32⟩
/-- HARV_OPEN_GCN_LO.GCN_LO. -/
def F.HARV_OPEN_GCN_LO_GCN_LO : Fld := ⟨0x07088, 0, 32⟩
/-- HARV_OPEN_GCN_HI.GCN_HI. -/
def F.HARV_OPEN_GCN_HI_GCN_HI : Fld := ⟨0x0708C, 0, 32⟩
/-- HARV_CLOSE_GCN_LO.GCN_LO. -/
def F.HARV_CLOSE_GCN_LO_GCN_LO : Fld := ⟨0x07090, 0, 32⟩
/-- HARV_CLOSE_GCN_HI.GCN_HI. -/
def F.HARV_CLOSE_GCN_HI_GCN_HI : Fld := ⟨0x07094, 0, 32⟩
/-- HARV_REGION_SEL.INDEX. -/
def F.HARV_REGION_SEL_INDEX : Fld := ⟨0x07098, 0, 8⟩
/-- HARV_REGION_CTRL.VALID. -/
def F.HARV_REGION_CTRL_VALID : Fld := ⟨0x0709C, 0, 1⟩
/-- HARV_REGION_CTRL.SLOT. -/
def F.HARV_REGION_CTRL_SLOT : Fld := ⟨0x0709C, 1, 6⟩
/-- HARV_REGION_CTRL.MODE. -/
def F.HARV_REGION_CTRL_MODE : Fld := ⟨0x0709C, 7, 1⟩
/-- HARV_REGION_BASE_LO.BASE_LO. -/
def F.HARV_REGION_BASE_LO_BASE_LO : Fld := ⟨0x070A0, 0, 32⟩
/-- HARV_REGION_BASE_HI.BASE_HI. -/
def F.HARV_REGION_BASE_HI_BASE_HI : Fld := ⟨0x070A4, 0, 32⟩
/-- HARV_REGION_LEN_LO.LEN_LO. -/
def F.HARV_REGION_LEN_LO_LEN_LO : Fld := ⟨0x070A8, 0, 32⟩
/-- HARV_REGION_LEN_HI.LEN_HI. -/
def F.HARV_REGION_LEN_HI_LEN_HI : Fld := ⟨0x070AC, 0, 32⟩
/-- HARV_REGION_DIGEST_LO.DIG_LO. -/
def F.HARV_REGION_DIGEST_LO_DIG_LO : Fld := ⟨0x070B0, 0, 32⟩
/-- HARV_REGION_DIGEST_HI.DIG_HI. -/
def F.HARV_REGION_DIGEST_HI_DIG_HI : Fld := ⟨0x070B4, 0, 32⟩
/-- HARV_DECANT_SLOT.SLOT. -/
def F.HARV_DECANT_SLOT_SLOT : Fld := ⟨0x070B8, 0, 6⟩
/-- HARV_DECANT_DOMAIN.INDEX. -/
def F.HARV_DECANT_DOMAIN_INDEX : Fld := ⟨0x070BC, 0, 8⟩
/-- PRESS_CTRL.VERIFY_EN. -/
def F.PRESS_CTRL_VERIFY_EN : Fld := ⟨0x08040, 0, 1⟩
/-- PRESS_CTRL.REF_EN. -/
def F.PRESS_CTRL_REF_EN : Fld := ⟨0x08040, 1, 1⟩
/-- PRESS_CTRL.FORCE_RAW. -/
def F.PRESS_CTRL_FORCE_RAW : Fld := ⟨0x08040, 2, 1⟩
/-- PRESS_STATE.MODE. -/
def F.PRESS_STATE_MODE : Fld := ⟨0x08044, 0, 3⟩
/-- PRESS_STATE.SERVING_PARTNER. -/
def F.PRESS_STATE_SERVING_PARTNER : Fld := ⟨0x08044, 3, 1⟩
/-- PRESS_STATE.REF_ACTIVE. -/
def F.PRESS_STATE_REF_ACTIVE : Fld := ⟨0x08044, 4, 1⟩
/-- PRESS_CMD.OP. -/
def F.PRESS_CMD_OP : Fld := ⟨0x08048, 0, 3⟩
/-- PRESS_CMD_STATUS.STATUS. -/
def F.PRESS_CMD_STATUS_STATUS : Fld := ⟨0x0804C, 0, 8⟩
/-- PRESS_CMD_STATUS.OP. -/
def F.PRESS_CMD_STATUS_OP : Fld := ⟨0x0804C, 8, 3⟩
/-- PRESS_CMD_STATUS.DONE. -/
def F.PRESS_CMD_STATUS_DONE : Fld := ⟨0x0804C, 11, 1⟩
/-- PRESS_IN_LO.BYTES_LO. -/
def F.PRESS_IN_LO_BYTES_LO : Fld := ⟨0x08050, 0, 32⟩
/-- PRESS_IN_HI.BYTES_HI. -/
def F.PRESS_IN_HI_BYTES_HI : Fld := ⟨0x08054, 0, 32⟩
/-- PRESS_OUT_LO.BYTES_LO. -/
def F.PRESS_OUT_LO_BYTES_LO : Fld := ⟨0x08058, 0, 32⟩
/-- PRESS_OUT_HI.BYTES_HI. -/
def F.PRESS_OUT_HI_BYTES_HI : Fld := ⟨0x0805C, 0, 32⟩
/-- PRESS_BLOCKS.COUNT. -/
def F.PRESS_BLOCKS_COUNT : Fld := ⟨0x08060, 0, 32⟩
/-- PRESS_RAW_BLOCKS.COUNT. -/
def F.PRESS_RAW_BLOCKS_COUNT : Fld := ⟨0x08064, 0, 32⟩
/-- PRESS_REF_BLOCKS.COUNT. -/
def F.PRESS_REF_BLOCKS_COUNT : Fld := ⟨0x08068, 0, 32⟩
/-- PRESS_REF_STAT.MISS. -/
def F.PRESS_REF_STAT_MISS : Fld := ⟨0x0806C, 0, 16⟩
/-- PRESS_REF_STAT.FETCH_ERR. -/
def F.PRESS_REF_STAT_FETCH_ERR : Fld := ⟨0x0806C, 16, 16⟩
/-- PRESS_VERIFY.FAILS. -/
def F.PRESS_VERIFY_FAILS : Fld := ⟨0x08070, 0, 16⟩
/-- PRESS_VERIFY.LIMIT. -/
def F.PRESS_VERIFY_LIMIT : Fld := ⟨0x08070, 16, 8⟩
/-- PRESS_DEC_ERR.CODE. -/
def F.PRESS_DEC_ERR_CODE : Fld := ⟨0x08074, 0, 4⟩
/-- PRESS_DEC_POS_LO.POS_LO. -/
def F.PRESS_DEC_POS_LO_POS_LO : Fld := ⟨0x08078, 0, 32⟩
/-- PRESS_DEC_POS_HI.POS_HI. -/
def F.PRESS_DEC_POS_HI_POS_HI : Fld := ⟨0x0807C, 0, 32⟩
/-- PRESS_STALL.HCLK. -/
def F.PRESS_STALL_HCLK : Fld := ⟨0x08080, 0, 32⟩
/-- PRESS_STREAM.VINTAGE. -/
def F.PRESS_STREAM_VINTAGE : Fld := ⟨0x08084, 0, 32⟩
/-- CELL_CTRL.POLICY. -/
def F.CELL_CTRL_POLICY : Fld := ⟨0x18040, 0, 1⟩
/-- CELL_CTRL.AUTO_PIN_CRASH. -/
def F.CELL_CTRL_AUTO_PIN_CRASH : Fld := ⟨0x18040, 1, 1⟩
/-- CELL_CTRL.FREE_AFTER_RACK. -/
def F.CELL_CTRL_FREE_AFTER_RACK : Fld := ⟨0x18040, 2, 1⟩
/-- CELL_CTRL.UNPIN_AFTER_RACK. -/
def F.CELL_CTRL_UNPIN_AFTER_RACK : Fld := ⟨0x18040, 3, 1⟩
/-- CELL_CTRL.KEEP. -/
def F.CELL_CTRL_KEEP : Fld := ⟨0x18040, 4, 1⟩
/-- CELL_BASE_LO.BASE_LO. -/
def F.CELL_BASE_LO_BASE_LO : Fld := ⟨0x18044, 0, 32⟩
/-- CELL_BASE_HI.BASE_HI. -/
def F.CELL_BASE_HI_BASE_HI : Fld := ⟨0x18048, 0, 32⟩
/-- CELL_SIZE.UNITS. -/
def F.CELL_SIZE_UNITS : Fld := ⟨0x1804C, 0, 7⟩
/-- CELL_CASK.CODE. -/
def F.CELL_CASK_CODE : Fld := ⟨0x18050, 0, 4⟩
/-- CELL_RING.MIB. -/
def F.CELL_RING_MIB : Fld := ⟨0x18054, 0, 14⟩
/-- CELL_PIN_LIMIT.PCT. -/
def F.CELL_PIN_LIMIT_PCT : Fld := ⟨0x18058, 0, 7⟩
/-- CELL_ADMIT.CASKS. -/
def F.CELL_ADMIT_CASKS : Fld := ⟨0x1805C, 0, 24⟩
/-- CELL_STATE.STATE. -/
def F.CELL_STATE_STATE : Fld := ⟨0x18060, 0, 2⟩
/-- CELL_STATE.FULL. -/
def F.CELL_STATE_FULL : Fld := ⟨0x18060, 2, 1⟩
/-- CELL_STATE.STALLED. -/
def F.CELL_STATE_STALLED : Fld := ⟨0x18060, 3, 1⟩
/-- CELL_STATE.KEPT. -/
def F.CELL_STATE_KEPT : Fld := ⟨0x18060, 4, 1⟩
/-- CELL_CASKS_TOTAL.COUNT. -/
def F.CELL_CASKS_TOTAL_COUNT : Fld := ⟨0x18064, 0, 24⟩
/-- CELL_CASKS_FREE.COUNT. -/
def F.CELL_CASKS_FREE_COUNT : Fld := ⟨0x18068, 0, 24⟩
/-- CELL_CASKS_PINNED.COUNT. -/
def F.CELL_CASKS_PINNED_COUNT : Fld := ⟨0x1806C, 0, 24⟩
/-- CELL_VINTAGES.CLOSED. -/
def F.CELL_VINTAGES_CLOSED : Fld := ⟨0x18070, 0, 11⟩
/-- CELL_VINTAGES.PINNED. -/
def F.CELL_VINTAGES_PINNED : Fld := ⟨0x18070, 16, 11⟩
/-- CELL_CMD.OP. -/
def F.CELL_CMD_OP : Fld := ⟨0x18074, 0, 3⟩
/-- CELL_CMD_STATUS.STATUS. -/
def F.CELL_CMD_STATUS_STATUS : Fld := ⟨0x18078, 0, 8⟩
/-- CELL_CMD_STATUS.OP. -/
def F.CELL_CMD_STATUS_OP : Fld := ⟨0x18078, 8, 3⟩
/-- CELL_CMD_STATUS.DONE. -/
def F.CELL_CMD_STATUS_DONE : Fld := ⟨0x18078, 11, 1⟩
/-- CELL_ARG_VINTAGE.NUMBER. -/
def F.CELL_ARG_VINTAGE_NUMBER : Fld := ⟨0x1807C, 0, 32⟩
/-- CELL_OLDEST.NUMBER. -/
def F.CELL_OLDEST_NUMBER : Fld := ⟨0x18080, 0, 32⟩
/-- CELL_EVICTED.COUNT. -/
def F.CELL_EVICTED_COUNT : Fld := ⟨0x18084, 0, 32⟩
/-- CELL_INDEX_SEL.ENTRY. -/
def F.CELL_INDEX_SEL_ENTRY : Fld := ⟨0x18088, 0, 10⟩
/-- CELL_INDEX_VINTAGE.NUMBER. -/
def F.CELL_INDEX_VINTAGE_NUMBER : Fld := ⟨0x1808C, 0, 32⟩
/-- CELL_INDEX_STATE.STATE. -/
def F.CELL_INDEX_STATE_STATE : Fld := ⟨0x18090, 0, 8⟩
/-- CELL_INDEX_STATE.FLAGS. -/
def F.CELL_INDEX_STATE_FLAGS : Fld := ⟨0x18090, 8, 8⟩
/-- CELL_INDEX_STATE.HELD. -/
def F.CELL_INDEX_STATE_HELD : Fld := ⟨0x18090, 16, 1⟩
/-- CELL_INDEX_STATE.QUEUED. -/
def F.CELL_INDEX_STATE_QUEUED : Fld := ⟨0x18090, 17, 1⟩
/-- RACK_CTRL.AUTO_CRASH. -/
def F.RACK_CTRL_AUTO_CRASH : Fld := ⟨0x19040, 0, 1⟩
/-- RACK_CTRL.PAUSE. -/
def F.RACK_CTRL_PAUSE : Fld := ⟨0x19040, 1, 1⟩
/-- RACK_CMD.OP. -/
def F.RACK_CMD_OP : Fld := ⟨0x19044, 0, 3⟩
/-- RACK_ARG_HUB.HUB. -/
def F.RACK_ARG_HUB_HUB : Fld := ⟨0x19048, 0, 11⟩
/-- RACK_ARG_VINTAGE.NUMBER. -/
def F.RACK_ARG_VINTAGE_NUMBER : Fld := ⟨0x1904C, 0, 32⟩
/-- RACK_ARG_OBJ.MANIFEST. -/
def F.RACK_ARG_OBJ_MANIFEST : Fld := ⟨0x19050, 0, 1⟩
/-- RACK_ARG_OBJ.STREAMS. -/
def F.RACK_ARG_OBJ_STREAMS : Fld := ⟨0x19050, 1, 1⟩
/-- RACK_ARG_OBJ.LANES. -/
def F.RACK_ARG_OBJ_LANES : Fld := ⟨0x19050, 2, 16⟩
/-- RACK_ARG_OBJ.REQ. -/
def F.RACK_ARG_OBJ_REQ : Fld := ⟨0x19050, 24, 8⟩
/-- RACK_STATUS.STATUS. -/
def F.RACK_STATUS_STATUS : Fld := ⟨0x19054, 0, 8⟩
/-- RACK_STATUS.OP. -/
def F.RACK_STATUS_OP : Fld := ⟨0x19054, 8, 3⟩
/-- RACK_STATUS.DONE. -/
def F.RACK_STATUS_DONE : Fld := ⟨0x19054, 11, 1⟩
/-- RACK_STATUS.REQ_ID. -/
def F.RACK_STATUS_REQ_ID : Fld := ⟨0x19054, 24, 8⟩
/-- RACK_QUEUE.DEPTH. -/
def F.RACK_QUEUE_DEPTH : Fld := ⟨0x19058, 0, 6⟩
/-- RACK_QUEUE.ACTIVE_ID. -/
def F.RACK_QUEUE_ACTIVE_ID : Fld := ⟨0x19058, 8, 8⟩
/-- RACK_QUEUE.SUSPENDED. -/
def F.RACK_QUEUE_SUSPENDED : Fld := ⟨0x19058, 16, 1⟩
/-- RACK_SERVE_0.FIELDS. -/
def F.RACK_SERVE_0_FIELDS : Fld := ⟨0x1905C, 0, 32⟩
/-- RACK_SERVE_1.FIELDS. -/
def F.RACK_SERVE_1_FIELDS : Fld := ⟨0x19060, 0, 32⟩
/-- RACK_SERVE_2.FIELDS. -/
def F.RACK_SERVE_2_FIELDS : Fld := ⟨0x19064, 0, 32⟩
/-- RACK_SERVE_3.FIELDS. -/
def F.RACK_SERVE_3_FIELDS : Fld := ⟨0x19068, 0, 32⟩
/-- RACK_SENT_LO.BYTES_LO. -/
def F.RACK_SENT_LO_BYTES_LO : Fld := ⟨0x1906C, 0, 32⟩
/-- RACK_SENT_HI.BYTES_HI. -/
def F.RACK_SENT_HI_BYTES_HI : Fld := ⟨0x19070, 0, 32⟩
/-- RACK_CUR_VINTAGE.NUMBER. -/
def F.RACK_CUR_VINTAGE_NUMBER : Fld := ⟨0x19074, 0, 32⟩
/-- RACK_CUR_OBJ.OBJECT. -/
def F.RACK_CUR_OBJ_OBJECT : Fld := ⟨0x19078, 0, 5⟩
/-- RACK_CUR_OBJ.HUB. -/
def F.RACK_CUR_OBJ_HUB : Fld := ⟨0x19078, 16, 11⟩
/-- RACK_CUR_POS_LO.POS_LO. -/
def F.RACK_CUR_POS_LO_POS_LO : Fld := ⟨0x1907C, 0, 32⟩
/-- RACK_CUR_POS_HI.POS_HI. -/
def F.RACK_CUR_POS_HI_POS_HI : Fld := ⟨0x19080, 0, 32⟩
/-- RACK_FAIL_INFO.REQ_ID. -/
def F.RACK_FAIL_INFO_REQ_ID : Fld := ⟨0x19084, 0, 8⟩
/-- RACK_FAIL_INFO.STATUS. -/
def F.RACK_FAIL_INFO_STATUS : Fld := ⟨0x19084, 8, 8⟩
/-- RACK_FAIL_INFO.HUB. -/
def F.RACK_FAIL_INFO_HUB : Fld := ⟨0x19084, 16, 11⟩
/-- LINK_CTRL.EN. -/
def F.LINK_CTRL_EN : Fld := ⟨0x1A040, 0, 1⟩
/-- LINK_CTRL.AUTO_RETRAIN. -/
def F.LINK_CTRL_AUTO_RETRAIN : Fld := ⟨0x1A040, 1, 1⟩
/-- LINK_CTRL.PCS_LOOPBACK. -/
def F.LINK_CTRL_PCS_LOOPBACK : Fld := ⟨0x1A040, 2, 1⟩
/-- LINK_STATE.STATE. -/
def F.LINK_STATE_STATE : Fld := ⟨0x1A044, 0, 3⟩
/-- LINK_STATE.PMA_READY. -/
def F.LINK_STATE_PMA_READY : Fld := ⟨0x1A044, 3, 1⟩
/-- LINK_STATE.FEC_LOCKED. -/
def F.LINK_STATE_FEC_LOCKED : Fld := ⟨0x1A044, 4, 1⟩
/-- LINK_STATE.DOWN_CAUSE. -/
def F.LINK_STATE_DOWN_CAUSE : Fld := ⟨0x1A044, 8, 4⟩
/-- LINK_CMD.OP. -/
def F.LINK_CMD_OP : Fld := ⟨0x1A048, 0, 2⟩
/-- LINK_CMD_STATUS.STATUS. -/
def F.LINK_CMD_STATUS_STATUS : Fld := ⟨0x1A04C, 0, 8⟩
/-- LINK_CMD_STATUS.OP. -/
def F.LINK_CMD_STATUS_OP : Fld := ⟨0x1A04C, 8, 2⟩
/-- LINK_CMD_STATUS.DONE. -/
def F.LINK_CMD_STATUS_DONE : Fld := ⟨0x1A04C, 10, 1⟩
/-- LINK_WINDOW.FLITS. -/
def F.LINK_WINDOW_FLITS : Fld := ⟨0x1A050, 0, 12⟩
/-- LINK_REPLAY_TIMEOUT.HCLK. -/
def F.LINK_REPLAY_TIMEOUT_HCLK : Fld := ⟨0x1A054, 0, 16⟩
/-- LINK_REPLAY_LIMIT.COUNT. -/
def F.LINK_REPLAY_LIMIT_COUNT : Fld := ⟨0x1A058, 0, 8⟩
/-- LINK_TRAIN_LIMIT.HCLK. -/
def F.LINK_TRAIN_LIMIT_HCLK : Fld := ⟨0x1A05C, 0, 32⟩
/-- LINK_IDLE_LIMIT.HCLK. -/
def F.LINK_IDLE_LIMIT_HCLK : Fld := ⟨0x1A060, 0, 16⟩
/-- LINK_CREDIT.COMMAND. -/
def F.LINK_CREDIT_COMMAND : Fld := ⟨0x1A064, 0, 8⟩
/-- LINK_CREDIT.EVENT. -/
def F.LINK_CREDIT_EVENT : Fld := ⟨0x1A064, 8, 8⟩
/-- LINK_CREDIT.BULK. -/
def F.LINK_CREDIT_BULK : Fld := ⟨0x1A064, 16, 16⟩
/-- LINK_SEQ.TX_NEXT. -/
def F.LINK_SEQ_TX_NEXT : Fld := ⟨0x1A068, 0, 12⟩
/-- LINK_SEQ.RX_EXPECT. -/
def F.LINK_SEQ_RX_EXPECT : Fld := ⟨0x1A068, 16, 12⟩
/-- LINK_UNACKED.FLITS. -/
def F.LINK_UNACKED_FLITS : Fld := ⟨0x1A06C, 0, 13⟩
/-- LINK_FEC_CORR_LO.COUNT_LO. -/
def F.LINK_FEC_CORR_LO_COUNT_LO : Fld := ⟨0x1A070, 0, 32⟩
/-- LINK_FEC_CORR_HI.COUNT_HI. -/
def F.LINK_FEC_CORR_HI_COUNT_HI : Fld := ⟨0x1A074, 0, 32⟩
/-- LINK_FEC_UNCORR.COUNT. -/
def F.LINK_FEC_UNCORR_COUNT : Fld := ⟨0x1A078, 0, 32⟩
/-- LINK_REPLAYS.REPLAYS. -/
def F.LINK_REPLAYS_REPLAYS : Fld := ⟨0x1A07C, 0, 16⟩
/-- LINK_REPLAYS.NAKS. -/
def F.LINK_REPLAYS_NAKS : Fld := ⟨0x1A07C, 16, 16⟩
/-- LINK_FLITS_TX_LO.COUNT_LO. -/
def F.LINK_FLITS_TX_LO_COUNT_LO : Fld := ⟨0x1A080, 0, 32⟩
/-- LINK_FLITS_TX_HI.COUNT_HI. -/
def F.LINK_FLITS_TX_HI_COUNT_HI : Fld := ⟨0x1A084, 0, 32⟩
/-- LINK_FLITS_RX_LO.COUNT_LO. -/
def F.LINK_FLITS_RX_LO_COUNT_LO : Fld := ⟨0x1A088, 0, 32⟩
/-- LINK_FLITS_RX_HI.COUNT_HI. -/
def F.LINK_FLITS_RX_HI_COUNT_HI : Fld := ⟨0x1A08C, 0, 32⟩
/-- LINK_EVCLASS.CLASSES. -/
def F.LINK_EVCLASS_CLASSES : Fld := ⟨0x1A090, 1, 14⟩
/-- LINK_EVLOSS_SEL.CLASS. -/
def F.LINK_EVLOSS_SEL_CLASS : Fld := ⟨0x1A094, 0, 4⟩
/-- LINK_EVLOSS.COUNT. -/
def F.LINK_EVLOSS_COUNT : Fld := ⟨0x1A098, 0, 16⟩
/-- LINK_PEER.VERSION. -/
def F.LINK_PEER_VERSION : Fld := ⟨0x1A09C, 0, 8⟩
/-- LINK_PEER.ID. -/
def F.LINK_PEER_ID : Fld := ⟨0x1A09C, 16, 16⟩
/-- LINK_TAG.LAST. -/
def F.LINK_TAG_LAST : Fld := ⟨0x1A0A0, 0, 16⟩
/-- LINK_TAG.DUPS. -/
def F.LINK_TAG_DUPS : Fld := ⟨0x1A0A0, 16, 16⟩
/-- LINK_DOWN_COUNT.COUNT. -/
def F.LINK_DOWN_COUNT_COUNT : Fld := ⟨0x1A0A4, 0, 16⟩
/-- TRACE_CTRL.MODE. -/
def F.TRACE_CTRL_MODE : Fld := ⟨0x1B040, 0, 1⟩
/-- TRACE_CTRL.RING_MODE. -/
def F.TRACE_CTRL_RING_MODE : Fld := ⟨0x1B040, 1, 1⟩
/-- TRACE_CTRL.EV_EN. -/
def F.TRACE_CTRL_EV_EN : Fld := ⟨0x1B040, 2, 1⟩
/-- TRACE_CMD.OP. -/
def F.TRACE_CMD_OP : Fld := ⟨0x1B044, 0, 4⟩
/-- TRACE_CMD_STATUS.STATUS. -/
def F.TRACE_CMD_STATUS_STATUS : Fld := ⟨0x1B048, 0, 8⟩
/-- TRACE_CMD_STATUS.OP. -/
def F.TRACE_CMD_STATUS_OP : Fld := ⟨0x1B048, 8, 4⟩
/-- TRACE_CMD_STATUS.DONE. -/
def F.TRACE_CMD_STATUS_DONE : Fld := ⟨0x1B048, 12, 1⟩
/-- TRACE_STATE.RUNNING. -/
def F.TRACE_STATE_RUNNING : Fld := ⟨0x1B04C, 0, 1⟩
/-- TRACE_STATE.EFF_OPEN. -/
def F.TRACE_STATE_EFF_OPEN : Fld := ⟨0x1B04C, 1, 1⟩
/-- TRACE_STATE.OPEN_DENIED. -/
def F.TRACE_STATE_OPEN_DENIED : Fld := ⟨0x1B04C, 2, 1⟩
/-- TRACE_STATE.RING_OPEN. -/
def F.TRACE_STATE_RING_OPEN : Fld := ⟨0x1B04C, 3, 1⟩
/-- TRACE_STATE.WRAPPED. -/
def F.TRACE_STATE_WRAPPED : Fld := ⟨0x1B04C, 4, 1⟩
/-- TRACE_STATE.ARMED. -/
def F.TRACE_STATE_ARMED : Fld := ⟨0x1B04C, 5, 1⟩
/-- TRACE_STATE.TRIGGERED. -/
def F.TRACE_STATE_TRIGGERED : Fld := ⟨0x1B04C, 6, 1⟩
/-- TRACE_STATE.SNAP_GUARD. -/
def F.TRACE_STATE_SNAP_GUARD : Fld := ⟨0x1B04C, 7, 1⟩
/-- TRACE_STATE.FROZEN. -/
def F.TRACE_STATE_FROZEN : Fld := ⟨0x1B04C, 8, 4⟩
/-- TRACE_RING_BASE_LO.BASE_LO. -/
def F.TRACE_RING_BASE_LO_BASE_LO : Fld := ⟨0x1B050, 0, 32⟩
/-- TRACE_RING_BASE_HI.BASE_HI. -/
def F.TRACE_RING_BASE_HI_BASE_HI : Fld := ⟨0x1B054, 0, 32⟩
/-- TRACE_RING_SIZE.MIB. -/
def F.TRACE_RING_SIZE_MIB : Fld := ⟨0x1B058, 0, 14⟩
/-- TRACE_WPTR_LO.PTR_LO. -/
def F.TRACE_WPTR_LO_PTR_LO : Fld := ⟨0x1B05C, 0, 32⟩
/-- TRACE_WPTR_HI.PTR_HI. -/
def F.TRACE_WPTR_HI_PTR_HI : Fld := ⟨0x1B060, 0, 32⟩
/-- TRACE_SYNC_PERIOD.HCLK. -/
def F.TRACE_SYNC_PERIOD_HCLK : Fld := ⟨0x1B064, 0, 32⟩
/-- TRACE_FLUSH_LIMIT.HCLK. -/
def F.TRACE_FLUSH_LIMIT_HCLK : Fld := ⟨0x1B068, 0, 16⟩
/-- TRACE_POST_FRAMES.FRAMES. -/
def F.TRACE_POST_FRAMES_FRAMES : Fld := ⟨0x1B06C, 0, 24⟩
/-- TRACE_TRIG_CTRL.WIN_EN. -/
def F.TRACE_TRIG_CTRL_WIN_EN : Fld := ⟨0x1B070, 0, 1⟩
/-- TRACE_TRIG_CTRL.TEV_EN. -/
def F.TRACE_TRIG_CTRL_TEV_EN : Fld := ⟨0x1B070, 1, 1⟩
/-- TRACE_TRIG_CTRL.HUBEV_EN. -/
def F.TRACE_TRIG_CTRL_HUBEV_EN : Fld := ⟨0x1B070, 2, 1⟩
/-- TRACE_TRIG_CTRL.POST_FREEZE. -/
def F.TRACE_TRIG_CTRL_POST_FREEZE : Fld := ⟨0x1B070, 3, 1⟩
/-- TRACE_TRIG_EVENT.CODE. -/
def F.TRACE_TRIG_EVENT_CODE : Fld := ⟨0x1B074, 0, 16⟩
/-- TRACE_TRIG_EVENT.MASK. -/
def F.TRACE_TRIG_EVENT_MASK : Fld := ⟨0x1B074, 16, 16⟩
/-- TRACE_TRIG_INFO.SOURCE. -/
def F.TRACE_TRIG_INFO_SOURCE : Fld := ⟨0x1B078, 0, 2⟩
/-- TRACE_TRIG_INFO.WINDOW. -/
def F.TRACE_TRIG_INFO_WINDOW : Fld := ⟨0x1B078, 2, 2⟩
/-- TRACE_TRIG_INFO.TILE. -/
def F.TRACE_TRIG_INFO_TILE : Fld := ⟨0x1B078, 4, 14⟩
/-- TRACE_TRIG_INFO.TILE_VALID. -/
def F.TRACE_TRIG_INFO_TILE_VALID : Fld := ⟨0x1B078, 18, 1⟩
/-- TRACE_TRIG_INFO.LATER. -/
def F.TRACE_TRIG_INFO_LATER : Fld := ⟨0x1B078, 24, 8⟩
/-- TRACE_TRIG_GCN_LO.GCN_LO. -/
def F.TRACE_TRIG_GCN_LO_GCN_LO : Fld := ⟨0x1B07C, 0, 32⟩
/-- TRACE_TRIG_GCN_HI.GCN_HI. -/
def F.TRACE_TRIG_GCN_HI_GCN_HI : Fld := ⟨0x1B080, 0, 32⟩
/-- TRACE_TRIG_WPTR_LO.PTR_LO. -/
def F.TRACE_TRIG_WPTR_LO_PTR_LO : Fld := ⟨0x1B084, 0, 32⟩
/-- TRACE_TRIG_WPTR_HI.PTR_HI. -/
def F.TRACE_TRIG_WPTR_HI_PTR_HI : Fld := ⟨0x1B088, 0, 32⟩
/-- TRACE_FRAMES_LO.COUNT_LO. -/
def F.TRACE_FRAMES_LO_COUNT_LO : Fld := ⟨0x1B08C, 0, 32⟩
/-- TRACE_FRAMES_HI.COUNT_HI. -/
def F.TRACE_FRAMES_HI_COUNT_HI : Fld := ⟨0x1B090, 0, 32⟩
/-- TRACE_LOST_LO.COUNT_LO. -/
def F.TRACE_LOST_LO_COUNT_LO : Fld := ⟨0x1B094, 0, 32⟩
/-- TRACE_LOST_HI.COUNT_HI. -/
def F.TRACE_LOST_HI_COUNT_HI : Fld := ⟨0x1B098, 0, 32⟩
/-- TRACE_DISCARDED.COUNT. -/
def F.TRACE_DISCARDED_COUNT : Fld := ⟨0x1B09C, 0, 32⟩
/-- TRACE_LOSS_CANE_SEL.CANE. -/
def F.TRACE_LOSS_CANE_SEL_CANE : Fld := ⟨0x1B0A0, 0, 7⟩
/-- TRACE_LOSS_CANE.COUNT. -/
def F.TRACE_LOSS_CANE_COUNT : Fld := ⟨0x1B0A4, 0, 32⟩
/-- TRACE_EVLOSS_SEL.CLASS. -/
def F.TRACE_EVLOSS_SEL_CLASS : Fld := ⟨0x1B0A8, 0, 4⟩
/-- TRACE_EVLOSS.COUNT. -/
def F.TRACE_EVLOSS_COUNT : Fld := ⟨0x1B0AC, 0, 16⟩
/-- TRACEF_SLOT_SEL.SLOT. -/
def F.TRACEF_SLOT_SEL_SLOT : Fld := ⟨0x1C040, 0, 6⟩
/-- TRACEF_SLOT.EN. -/
def F.TRACEF_SLOT_EN : Fld := ⟨0x1C044, 0, 1⟩
/-- TRACEF_SLOT.LOSSLESS. -/
def F.TRACEF_SLOT_LOSSLESS : Fld := ⟨0x1C044, 1, 1⟩
/-- TRACEF_SLOT.BRANCH. -/
def F.TRACEF_SLOT_BRANCH : Fld := ⟨0x1C044, 2, 1⟩
/-- TRACEF_SLOT.WATCH. -/
def F.TRACEF_SLOT_WATCH : Fld := ⟨0x1C044, 3, 1⟩
/-- TRACEF_SLOT.TEVENT. -/
def F.TRACEF_SLOT_TEVENT : Fld := ⟨0x1C044, 4, 1⟩
/-- TRACEF_RECT.X0. -/
def F.TRACEF_RECT_X0 : Fld := ⟨0x1C048, 0, 7⟩
/-- TRACEF_RECT.Y0. -/
def F.TRACEF_RECT_Y0 : Fld := ⟨0x1C048, 8, 7⟩
/-- TRACEF_RECT.X1. -/
def F.TRACEF_RECT_X1 : Fld := ⟨0x1C048, 16, 7⟩
/-- TRACEF_RECT.Y1. -/
def F.TRACEF_RECT_Y1 : Fld := ⟨0x1C048, 24, 7⟩
/-- TRACEF_WIN_SEL.WIN. -/
def F.TRACEF_WIN_SEL_WIN : Fld := ⟨0x1C04C, 0, 2⟩
/-- TRACEF_WIN_CTRL.EN. -/
def F.TRACEF_WIN_CTRL_EN : Fld := ⟨0x1C050, 0, 1⟩
/-- TRACEF_WIN_CTRL.KINDS. -/
def F.TRACEF_WIN_CTRL_KINDS : Fld := ⟨0x1C050, 1, 4⟩
/-- TRACEF_WIN_CTRL.PACKET. -/
def F.TRACEF_WIN_CTRL_PACKET : Fld := ⟨0x1C050, 5, 1⟩
/-- TRACEF_WIN_CTRL.TRIGGER. -/
def F.TRACEF_WIN_CTRL_TRIGGER : Fld := ⟨0x1C050, 6, 1⟩
/-- TRACEF_WIN_CTRL.SLOT_ANY. -/
def F.TRACEF_WIN_CTRL_SLOT_ANY : Fld := ⟨0x1C050, 7, 1⟩
/-- TRACEF_WIN_CTRL.SLOT. -/
def F.TRACEF_WIN_CTRL_SLOT : Fld := ⟨0x1C050, 8, 6⟩
/-- TRACEF_WIN_ADDR.BASE. -/
def F.TRACEF_WIN_ADDR_BASE : Fld := ⟨0x1C054, 0, 16⟩
/-- TRACEF_WIN_ADDR.MASK. -/
def F.TRACEF_WIN_ADDR_MASK : Fld := ⟨0x1C054, 16, 16⟩
/-- TRACEF_TEV.CODE. -/
def F.TRACEF_TEV_CODE : Fld := ⟨0x1C058, 0, 16⟩
/-- TRACEF_TEV.MASK. -/
def F.TRACEF_TEV_MASK : Fld := ⟨0x1C058, 16, 16⟩
/-- TRACEF_TEV_TRIG.CODE. -/
def F.TRACEF_TEV_TRIG_CODE : Fld := ⟨0x1C05C, 0, 16⟩
/-- TRACEF_TEV_TRIG.MASK. -/
def F.TRACEF_TEV_TRIG_MASK : Fld := ⟨0x1C05C, 16, 16⟩
/-- TRACEF_EVCLASS.CLASSES. -/
def F.TRACEF_EVCLASS_CLASSES : Fld := ⟨0x1C060, 1, 14⟩
/-- TRACEF_BCAST.PENDING. -/
def F.TRACEF_BCAST_PENDING : Fld := ⟨0x1C064, 0, 1⟩
/-- TASTE_CTRL.EN. -/
def F.TASTE_CTRL_EN : Fld := ⟨0x1D040, 0, 1⟩
/-- TASTE_CTRL.CONFIRM. -/
def F.TASTE_CTRL_CONFIRM : Fld := ⟨0x1D040, 1, 1⟩
/-- TASTE_INTERVAL.HCLK. -/
def F.TASTE_INTERVAL_HCLK : Fld := ⟨0x1D044, 0, 32⟩
/-- TASTE_STRIDE.STRIDE. -/
def F.TASTE_STRIDE_STRIDE : Fld := ⟨0x1D048, 0, 14⟩
/-- TASTE_WAIT.CYCLES. -/
def F.TASTE_WAIT_CYCLES : Fld := ⟨0x1D04C, 0, 24⟩
/-- TASTE_SLOT_SEL.SLOT. -/
def F.TASTE_SLOT_SEL_SLOT : Fld := ⟨0x1D050, 0, 6⟩
/-- TASTE_SLOT.EN. -/
def F.TASTE_SLOT_EN : Fld := ⟨0x1D054, 0, 1⟩
/-- TASTE_SLOT.MODE. -/
def F.TASTE_SLOT_MODE : Fld := ⟨0x1D054, 1, 2⟩
/-- TASTE_SLOT.ACTION. -/
def F.TASTE_SLOT_ACTION : Fld := ⟨0x1D054, 3, 2⟩
/-- TASTE_SLOT.MXU. -/
def F.TASTE_SLOT_MXU : Fld := ⟨0x1D054, 5, 1⟩
/-- TASTE_SLOT.CONV. -/
def F.TASTE_SLOT_CONV : Fld := ⟨0x1D054, 6, 1⟩
/-- TASTE_SLOT.WEIGHT. -/
def F.TASTE_SLOT_WEIGHT : Fld := ⟨0x1D054, 8, 8⟩
/-- TASTE_SLOT.ULP_TOL. -/
def F.TASTE_SLOT_ULP_TOL : Fld := ⟨0x1D054, 16, 8⟩
/-- TASTE_SLOT.RESIDENCY. -/
def F.TASTE_SLOT_RESIDENCY : Fld := ⟨0x1D054, 24, 8⟩
/-- TASTE_SLOT_FMT.FORMATS. -/
def F.TASTE_SLOT_FMT_FORMATS : Fld := ⟨0x1D058, 0, 14⟩
/-- TASTE_STATE.IN_SERVICE. -/
def F.TASTE_STATE_IN_SERVICE : Fld := ⟨0x1D05C, 0, 4⟩
/-- TASTE_STATE.TENDING. -/
def F.TASTE_STATE_TENDING : Fld := ⟨0x1D05C, 4, 4⟩
/-- TASTE_STATE.EVID_LOCKED. -/
def F.TASTE_STATE_EVID_LOCKED : Fld := ⟨0x1D05C, 8, 1⟩
/-- TASTE_STATE.BUSY_BUFS. -/
def F.TASTE_STATE_BUSY_BUFS : Fld := ⟨0x1D05C, 9, 4⟩
/-- TASTE_CMD.OP. -/
def F.TASTE_CMD_OP : Fld := ⟨0x1D060, 0, 3⟩
/-- TASTE_CMD_STATUS.STATUS. -/
def F.TASTE_CMD_STATUS_STATUS : Fld := ⟨0x1D064, 0, 8⟩
/-- TASTE_CMD_STATUS.OP. -/
def F.TASTE_CMD_STATUS_OP : Fld := ⟨0x1D064, 8, 3⟩
/-- TASTE_CMD_STATUS.DONE. -/
def F.TASTE_CMD_STATUS_DONE : Fld := ⟨0x1D064, 11, 1⟩
/-- TASTE_ARG.TILE. -/
def F.TASTE_ARG_TILE : Fld := ⟨0x1D068, 0, 14⟩
/-- TASTE_ARG.TASTER. -/
def F.TASTE_ARG_TASTER : Fld := ⟨0x1D068, 16, 2⟩
/-- TASTE_STAT_SEL.SLOT. -/
def F.TASTE_STAT_SEL_SLOT : Fld := ⟨0x1D06C, 0, 6⟩
/-- TASTE_STAT_SEL.COUNTER. -/
def F.TASTE_STAT_SEL_COUNTER : Fld := ⟨0x1D06C, 8, 3⟩
/-- TASTE_STAT.COUNT. -/
def F.TASTE_STAT_COUNT : Fld := ⟨0x1D070, 0, 32⟩
/-- TASTE_THROTTLED.COUNT. -/
def F.TASTE_THROTTLED_COUNT : Fld := ⟨0x1D074, 0, 32⟩
/-- TASTE_LAST_TILE.TILE. -/
def F.TASTE_LAST_TILE_TILE : Fld := ⟨0x1D078, 0, 14⟩
/-- TASTE_LAST_TILE.VALID. -/
def F.TASTE_LAST_TILE_VALID : Fld := ⟨0x1D078, 14, 1⟩
/-- TASTE_LAST_TILE.SLOT. -/
def F.TASTE_LAST_TILE_SLOT : Fld := ⟨0x1D078, 16, 6⟩
/-- TASTE_LAST_TILE.CORK_STATUS. -/
def F.TASTE_LAST_TILE_CORK_STATUS : Fld := ⟨0x1D078, 24, 8⟩
/-- TASTE_LAST_SCN_LO.NS_LO. -/
def F.TASTE_LAST_SCN_LO_NS_LO : Fld := ⟨0x1D07C, 0, 32⟩
/-- TASTE_LAST_SCN_HI.NS_HI. -/
def F.TASTE_LAST_SCN_HI_NS_HI : Fld := ⟨0x1D080, 0, 32⟩
/-- TASTE_LAST_ELEM.I. -/
def F.TASTE_LAST_ELEM_I : Fld := ⟨0x1D084, 0, 5⟩
/-- TASTE_LAST_ELEM.E5. -/
def F.TASTE_LAST_ELEM_E5 : Fld := ⟨0x1D084, 5, 1⟩
/-- TASTE_LAST_ELEM.J. -/
def F.TASTE_LAST_ELEM_J : Fld := ⟨0x1D084, 8, 5⟩
/-- TASTE_LAST_ELEM.COUNT. -/
def F.TASTE_LAST_ELEM_COUNT : Fld := ⟨0x1D084, 16, 11⟩
/-- TASTE_LAST_ELEM.UNCONFIRMED. -/
def F.TASTE_LAST_ELEM_UNCONFIRMED : Fld := ⟨0x1D084, 27, 1⟩
/-- TASTE_LAST_ELEM.CONV. -/
def F.TASTE_LAST_ELEM_CONV : Fld := ⟨0x1D084, 28, 1⟩
/-- TASTE_LAST_GOT.CODE. -/
def F.TASTE_LAST_GOT_CODE : Fld := ⟨0x1D088, 0, 32⟩
/-- TASTE_LAST_WANT.CODE. -/
def F.TASTE_LAST_WANT_CODE : Fld := ⟨0x1D08C, 0, 32⟩
/-- TASTE_EVID_ADDR.OFFSET. -/
def F.TASTE_EVID_ADDR_OFFSET : Fld := ⟨0x1D090, 0, 15⟩
/-- TASTE_EVID_DATA.DATA. -/
def F.TASTE_EVID_DATA_DATA : Fld := ⟨0x1D094, 0, 32⟩
/-- TASTE_EVID_LEN.BYTES. -/
def F.TASTE_EVID_LEN_BYTES : Fld := ⟨0x1D098, 0, 15⟩
/-- NUMW_CTRL.EN. -/
def F.NUMW_CTRL_EN : Fld := ⟨0x1E040, 0, 1⟩
/-- NUMW_WINDOW.UNITS. -/
def F.NUMW_WINDOW_UNITS : Fld := ⟨0x1E044, 0, 8⟩
/-- NUMW_SEL.SLOT. -/
def F.NUMW_SEL_SLOT : Fld := ⟨0x1E048, 0, 6⟩
/-- NUMW_SEL.KIND. -/
def F.NUMW_SEL_KIND : Fld := ⟨0x1E048, 8, 3⟩
/-- NUMW_CFG.THRESH. -/
def F.NUMW_CFG_THRESH : Fld := ⟨0x1E04C, 0, 16⟩
/-- NUMW_CFG.FIRST_EN. -/
def F.NUMW_CFG_FIRST_EN : Fld := ⟨0x1E04C, 16, 1⟩
/-- NUMW_LAST.COUNT. -/
def F.NUMW_LAST_COUNT : Fld := ⟨0x1E050, 0, 32⟩
/-- NUMW_TOTAL_LO.COUNT_LO. -/
def F.NUMW_TOTAL_LO_COUNT_LO : Fld := ⟨0x1E054, 0, 32⟩
/-- NUMW_TOTAL_HI.COUNT_HI. -/
def F.NUMW_TOTAL_HI_COUNT_HI : Fld := ⟨0x1E058, 0, 32⟩
/-- NUMW_MAXTILE.TILE. -/
def F.NUMW_MAXTILE_TILE : Fld := ⟨0x1E05C, 0, 14⟩
/-- NUMW_MAXTILE.VALID. -/
def F.NUMW_MAXTILE_VALID : Fld := ⟨0x1E05C, 14, 1⟩
/-- NUMW_MAXTILE.COUNT. -/
def F.NUMW_MAXTILE_COUNT : Fld := ⟨0x1E05C, 16, 16⟩
/-- NUMW_FIRST.TILE. -/
def F.NUMW_FIRST_TILE : Fld := ⟨0x1E060, 0, 14⟩
/-- NUMW_FIRST.VALID. -/
def F.NUMW_FIRST_VALID : Fld := ⟨0x1E060, 14, 1⟩
/-- NUMW_FIRST.ARMED. -/
def F.NUMW_FIRST_ARMED : Fld := ⟨0x1E060, 15, 1⟩
/-- NUMW_FIRST_SCN_LO.SCN_LO. -/
def F.NUMW_FIRST_SCN_LO_SCN_LO : Fld := ⟨0x1E064, 0, 32⟩
/-- NUMW_FIRST_SCN_HI.SCN_HI. -/
def F.NUMW_FIRST_SCN_HI_SCN_HI : Fld := ⟨0x1E068, 0, 32⟩
/-- NUMW_CMD.OP. -/
def F.NUMW_CMD_OP : Fld := ⟨0x1E06C, 0, 2⟩
/-- NUMW_CMD_STATUS.STATUS. -/
def F.NUMW_CMD_STATUS_STATUS : Fld := ⟨0x1E070, 0, 8⟩
/-- NUMW_CMD_STATUS.DONE. -/
def F.NUMW_CMD_STATUS_DONE : Fld := ⟨0x1E070, 8, 1⟩
/-- DIGEST_CMD.OP. -/
def F.DIGEST_CMD_OP : Fld := ⟨0x1F040, 0, 3⟩
/-- DIGEST_CMD_STATUS.STATUS. -/
def F.DIGEST_CMD_STATUS_STATUS : Fld := ⟨0x1F044, 0, 8⟩
/-- DIGEST_CMD_STATUS.FINAL. -/
def F.DIGEST_CMD_STATUS_FINAL : Fld := ⟨0x1F044, 8, 8⟩
/-- DIGEST_CMD_STATUS.OP. -/
def F.DIGEST_CMD_STATUS_OP : Fld := ⟨0x1F044, 16, 3⟩
/-- DIGEST_CMD_STATUS.DONE. -/
def F.DIGEST_CMD_STATUS_DONE : Fld := ⟨0x1F044, 19, 1⟩
/-- DIGEST_ARG.SLOT. -/
def F.DIGEST_ARG_SLOT : Fld := ⟨0x1F048, 0, 6⟩
/-- DIGEST_ARG.SET. -/
def F.DIGEST_ARG_SET : Fld := ⟨0x1F048, 6, 3⟩
/-- DIGEST_ARG.PER_TILE. -/
def F.DIGEST_ARG_PER_TILE : Fld := ⟨0x1F048, 9, 1⟩
/-- DIGEST_ARG.FED. -/
def F.DIGEST_ARG_FED : Fld := ⟨0x1F048, 10, 1⟩
/-- DIGEST_ARG.COMPARE. -/
def F.DIGEST_ARG_COMPARE : Fld := ⟨0x1F048, 11, 1⟩
/-- DIGEST_ARG.REPEAT. -/
def F.DIGEST_ARG_REPEAT : Fld := ⟨0x1F048, 12, 1⟩
/-- DIGEST_ARG.REGION. -/
def F.DIGEST_ARG_REGION : Fld := ⟨0x1F048, 16, 8⟩
/-- DIGEST_RESULT_LO.SUM_LO. -/
def F.DIGEST_RESULT_LO_SUM_LO : Fld := ⟨0x1F04C, 0, 32⟩
/-- DIGEST_RESULT_HI.SUM_HI. -/
def F.DIGEST_RESULT_HI_SUM_HI : Fld := ⟨0x1F050, 0, 32⟩
/-- DIGEST_EXPECT_LO.SUM_LO. -/
def F.DIGEST_EXPECT_LO_SUM_LO : Fld := ⟨0x1F054, 0, 32⟩
/-- DIGEST_EXPECT_HI.SUM_HI. -/
def F.DIGEST_EXPECT_HI_SUM_HI : Fld := ⟨0x1F058, 0, 32⟩
/-- DIGEST_RESULT_INFO.TILES. -/
def F.DIGEST_RESULT_INFO_TILES : Fld := ⟨0x1F05C, 0, 15⟩
/-- DIGEST_RESULT_INFO.INCOMPLETE. -/
def F.DIGEST_RESULT_INFO_INCOMPLETE : Fld := ⟨0x1F05C, 15, 1⟩
/-- DIGEST_RESULT_INFO.COMPARED. -/
def F.DIGEST_RESULT_INFO_COMPARED : Fld := ⟨0x1F05C, 16, 1⟩
/-- DIGEST_RESULT_INFO.MATCH. -/
def F.DIGEST_RESULT_INFO_MATCH : Fld := ⟨0x1F05C, 17, 1⟩
/-- DIGEST_RESULT_INFO.DIFF_TILES. -/
def F.DIGEST_RESULT_INFO_DIFF_TILES : Fld := ⟨0x1F05C, 18, 14⟩
/-- DIGEST_PERIOD.HCLK. -/
def F.DIGEST_PERIOD_HCLK : Fld := ⟨0x1F060, 0, 32⟩
/-- DIGEST_TABLE_BASE_LO.BASE_LO. -/
def F.DIGEST_TABLE_BASE_LO_BASE_LO : Fld := ⟨0x1F064, 0, 32⟩
/-- DIGEST_TABLE_BASE_HI.BASE_HI. -/
def F.DIGEST_TABLE_BASE_HI_BASE_HI : Fld := ⟨0x1F068, 0, 32⟩
/-- DIGEST_NAMED.TILE. -/
def F.DIGEST_NAMED_TILE : Fld := ⟨0x1F06C, 0, 14⟩
/-- DIGEST_NAMED.VALID. -/
def F.DIGEST_NAMED_VALID : Fld := ⟨0x1F06C, 14, 1⟩
/-- DIGEST_NAMED.MISSING. -/
def F.DIGEST_NAMED_MISSING : Fld := ⟨0x1F06C, 15, 1⟩
/-- DIGEST_DONE_GCN_LO.GCN_LO. -/
def F.DIGEST_DONE_GCN_LO_GCN_LO : Fld := ⟨0x1F070, 0, 32⟩
/-- DIGEST_DONE_GCN_HI.GCN_HI. -/
def F.DIGEST_DONE_GCN_HI_GCN_HI : Fld := ⟨0x1F074, 0, 32⟩
/-- DIGEST_PASSES.COUNT. -/
def F.DIGEST_PASSES_COUNT : Fld := ⟨0x1F078, 0, 32⟩
/-- HANG_CTRL.AUDIT_EN. -/
def F.HANG_CTRL_AUDIT_EN : Fld := ⟨0x20040, 0, 1⟩
/-- HANG_CTRL.STROBE_EN. -/
def F.HANG_CTRL_STROBE_EN : Fld := ⟨0x20040, 1, 1⟩
/-- HANG_CTRL.BEAT_EN. -/
def F.HANG_CTRL_BEAT_EN : Fld := ⟨0x20040, 2, 1⟩
/-- HANG_MON_SEL.SLOT. -/
def F.HANG_MON_SEL_SLOT : Fld := ⟨0x20044, 0, 6⟩
/-- HANG_MON_CFG.EN. -/
def F.HANG_MON_CFG_EN : Fld := ⟨0x20048, 0, 1⟩
/-- HANG_MON_CFG.FIXED. -/
def F.HANG_MON_CFG_FIXED : Fld := ⟨0x20048, 1, 1⟩
/-- HANG_MON_CFG.BEAT_POLICY. -/
def F.HANG_MON_CFG_BEAT_POLICY : Fld := ⟨0x20048, 2, 2⟩
/-- HANG_MON_CFG.DIV_POLICY. -/
def F.HANG_MON_CFG_DIV_POLICY : Fld := ⟨0x20048, 4, 2⟩
/-- HANG_MON_CFG.FED. -/
def F.HANG_MON_CFG_FED : Fld := ⟨0x20048, 6, 1⟩
/-- HANG_MON_CFG.SNAP. -/
def F.HANG_MON_CFG_SNAP : Fld := ⟨0x20048, 7, 1⟩
/-- HANG_MON_STATE.STATE. -/
def F.HANG_MON_STATE_STATE : Fld := ⟨0x2004C, 0, 2⟩
/-- HANG_MON_STATE.EPOCHS. -/
def F.HANG_MON_STATE_EPOCHS : Fld := ⟨0x2004C, 2, 5⟩
/-- HANG_MON_STATE.FENCED. -/
def F.HANG_MON_STATE_FENCED : Fld := ⟨0x2004C, 7, 1⟩
/-- HANG_MON_STATE.POLICY_BUSY. -/
def F.HANG_MON_STATE_POLICY_BUSY : Fld := ⟨0x2004C, 8, 1⟩
/-- HANG_MON_STATE.POLICY_STATUS. -/
def F.HANG_MON_STATE_POLICY_STATUS : Fld := ⟨0x2004C, 16, 8⟩
/-- HANG_MON_THRESH.HCLK. -/
def F.HANG_MON_THRESH_HCLK : Fld := ⟨0x20050, 0, 32⟩
/-- HANG_MON_TIMER.HCLK. -/
def F.HANG_MON_TIMER_HCLK : Fld := ⟨0x20054, 0, 32⟩
/-- HANG_MON_LONGEST.HCLK. -/
def F.HANG_MON_LONGEST_HCLK : Fld := ⟨0x20058, 0, 32⟩
/-- HANG_INIT.HCLK. -/
def F.HANG_INIT_HCLK : Fld := ⟨0x2005C, 0, 32⟩
/-- HANG_FLOOR.HCLK. -/
def F.HANG_FLOOR_HCLK : Fld := ⟨0x20060, 0, 32⟩
/-- HANG_CEIL.HCLK. -/
def F.HANG_CEIL_HCLK : Fld := ⟨0x20064, 0, 32⟩
/-- HANG_LAST_FAULT.TILE. -/
def F.HANG_LAST_FAULT_TILE : Fld := ⟨0x20068, 0, 14⟩
/-- HANG_LAST_FAULT.TILE_VALID. -/
def F.HANG_LAST_FAULT_TILE_VALID : Fld := ⟨0x20068, 14, 1⟩
/-- HANG_LAST_FAULT.ALL. -/
def F.HANG_LAST_FAULT_ALL : Fld := ⟨0x20068, 15, 1⟩
/-- HANG_LAST_FAULT.SLOT. -/
def F.HANG_LAST_FAULT_SLOT : Fld := ⟨0x20068, 16, 6⟩
/-- HANG_LAST_FAULT.KIND. -/
def F.HANG_LAST_FAULT_KIND : Fld := ⟨0x20068, 22, 3⟩
/-- HANG_LAST_DELTA.DELTA. -/
def F.HANG_LAST_DELTA_DELTA : Fld := ⟨0x2006C, 0, 32⟩
/-- HANG_LAST_GCN_LO.GCN_LO. -/
def F.HANG_LAST_GCN_LO_GCN_LO : Fld := ⟨0x20070, 0, 32⟩
/-- HANG_LAST_GCN_HI.GCN_HI. -/
def F.HANG_LAST_GCN_HI_GCN_HI : Fld := ⟨0x20074, 0, 32⟩
/-- HANG_DIV_COUNT.COUNT. -/
def F.HANG_DIV_COUNT_COUNT : Fld := ⟨0x20078, 0, 15⟩
/-- HANG_FENCE_DRAIN.HCLK. -/
def F.HANG_FENCE_DRAIN_HCLK : Fld := ⟨0x2007C, 0, 32⟩
/-- HANG_FENCE_LIMIT.HCLK. -/
def F.HANG_FENCE_LIMIT_HCLK : Fld := ⟨0x20080, 0, 32⟩
/-- HANG_FENCED_LO.MAP_LO. -/
def F.HANG_FENCED_LO_MAP_LO : Fld := ⟨0x20084, 0, 32⟩
/-- HANG_FENCED_HI.MAP_HI. -/
def F.HANG_FENCED_HI_MAP_HI : Fld := ⟨0x20088, 0, 32⟩
/-- HANG_CMD.OP. -/
def F.HANG_CMD_OP : Fld := ⟨0x2008C, 0, 3⟩
/-- HANG_CMD_STATUS.STATUS. -/
def F.HANG_CMD_STATUS_STATUS : Fld := ⟨0x20090, 0, 8⟩
/-- HANG_CMD_STATUS.OP. -/
def F.HANG_CMD_STATUS_OP : Fld := ⟨0x20090, 8, 3⟩
/-- HANG_CMD_STATUS.DONE. -/
def F.HANG_CMD_STATUS_DONE : Fld := ⟨0x20090, 11, 1⟩
/-- HANG_ARG.SLOT. -/
def F.HANG_ARG_SLOT : Fld := ⟨0x20094, 0, 6⟩
/-- HANG_PEER_SEL.ENTRY. -/
def F.HANG_PEER_SEL_ENTRY : Fld := ⟨0x20098, 0, 4⟩
/-- HANG_PEER_POLICY.JOB_TAG. -/
def F.HANG_PEER_POLICY_JOB_TAG : Fld := ⟨0x2009C, 0, 16⟩
/-- HANG_PEER_POLICY.VALID. -/
def F.HANG_PEER_POLICY_VALID : Fld := ⟨0x2009C, 16, 1⟩
/-- HANG_PEER_POLICY.POLICY. -/
def F.HANG_PEER_POLICY_POLICY : Fld := ⟨0x2009C, 17, 2⟩
/-- HANG_PEER_DEFAULT.POLICY. -/
def F.HANG_PEER_DEFAULT_POLICY : Fld := ⟨0x200A0, 0, 2⟩
/-- HANG_PEER_LAST.JOB_TAG. -/
def F.HANG_PEER_LAST_JOB_TAG : Fld := ⟨0x200A4, 0, 16⟩
/-- HANG_PEER_LAST.PACKAGE. -/
def F.HANG_PEER_LAST_PACKAGE : Fld := ⟨0x200A4, 16, 4⟩
/-- HANG_PEER_LAST.VALID. -/
def F.HANG_PEER_LAST_VALID : Fld := ⟨0x200A4, 20, 1⟩
/-- HANG_PEER_LAST.STATUS. -/
def F.HANG_PEER_LAST_STATUS : Fld := ⟨0x200A4, 24, 8⟩
/-- RSET_CTRL.AUTO_EN. -/
def F.RSET_CTRL_AUTO_EN : Fld := ⟨0x21040, 0, 1⟩
/-- RSET_CTRL.AUTO_MAX. -/
def F.RSET_CTRL_AUTO_MAX : Fld := ⟨0x21040, 1, 3⟩
/-- RSET_CMD.OP. -/
def F.RSET_CMD_OP : Fld := ⟨0x21044, 0, 3⟩
/-- RSET_ARG.LEVEL. -/
def F.RSET_ARG_LEVEL : Fld := ⟨0x21048, 0, 3⟩
/-- RSET_ARG.PART. -/
def F.RSET_ARG_PART : Fld := ⟨0x21048, 3, 1⟩
/-- RSET_ARG.SLOT. -/
def F.RSET_ARG_SLOT : Fld := ⟨0x21048, 4, 6⟩
/-- RSET_ARG.TILE. -/
def F.RSET_ARG_TILE : Fld := ⟨0x21048, 16, 14⟩
/-- RSET_STATUS.STATUS. -/
def F.RSET_STATUS_STATUS : Fld := ⟨0x2104C, 0, 8⟩
/-- RSET_STATUS.FINAL. -/
def F.RSET_STATUS_FINAL : Fld := ⟨0x2104C, 8, 8⟩
/-- RSET_STATUS.OP. -/
def F.RSET_STATUS_OP : Fld := ⟨0x2104C, 16, 3⟩
/-- RSET_STATUS.DONE. -/
def F.RSET_STATUS_DONE : Fld := ⟨0x2104C, 19, 1⟩
/-- RSET_STATUS.LEVEL. -/
def F.RSET_STATUS_LEVEL : Fld := ⟨0x2104C, 20, 3⟩
/-- RSET_STATUS.ACTIVE. -/
def F.RSET_STATUS_ACTIVE : Fld := ⟨0x2104C, 23, 1⟩
/-- RSET_LAST_TILE.TILE. -/
def F.RSET_LAST_TILE_TILE : Fld := ⟨0x21050, 0, 14⟩
/-- RSET_LAST_TILE.VALID. -/
def F.RSET_LAST_TILE_VALID : Fld := ⟨0x21050, 14, 1⟩
/-- RSET_LAST_TILE.ISO_FAILED. -/
def F.RSET_LAST_TILE_ISO_FAILED : Fld := ⟨0x21050, 15, 1⟩
/-- RSET_LAST_TILE.REASON. -/
def F.RSET_LAST_TILE_REASON : Fld := ⟨0x21050, 16, 8⟩
/-- RSET_OOS_COUNT.COUNT. -/
def F.RSET_OOS_COUNT_COUNT : Fld := ⟨0x21054, 0, 15⟩
/-- RSET_OOS_SEL.WORD. -/
def F.RSET_OOS_SEL_WORD : Fld := ⟨0x21058, 0, 9⟩
/-- RSET_OOS_WORD.MAP. -/
def F.RSET_OOS_WORD_MAP : Fld := ⟨0x2105C, 0, 32⟩
/-- RSET_COUNT_SEL.LEVEL. -/
def F.RSET_COUNT_SEL_LEVEL : Fld := ⟨0x21060, 0, 3⟩
/-- RSET_COUNT.COUNT. -/
def F.RSET_COUNT_COUNT : Fld := ⟨0x21064, 0, 32⟩
/-- RSET_PWRCYC.ASSERTED. -/
def F.RSET_PWRCYC_ASSERTED : Fld := ⟨0x21068, 0, 1⟩
/-- BIST_CTRL.PACKS_EN. -/
def F.BIST_CTRL_PACKS_EN : Fld := ⟨0x22040, 0, 1⟩
/-- BIST_CMD.OP. -/
def F.BIST_CMD_OP : Fld := ⟨0x22044, 0, 3⟩
/-- BIST_ARG.TARGET. -/
def F.BIST_ARG_TARGET : Fld := ⟨0x22048, 0, 3⟩
/-- BIST_ARG.PACK_EN. -/
def F.BIST_ARG_PACK_EN : Fld := ⟨0x22048, 3, 1⟩
/-- BIST_ARG.PACK. -/
def F.BIST_ARG_PACK : Fld := ⟨0x22048, 4, 4⟩
/-- BIST_ARG.UNIT. -/
def F.BIST_ARG_UNIT : Fld := ⟨0x22048, 16, 14⟩
/-- BIST_CMD_STATUS.STATUS. -/
def F.BIST_CMD_STATUS_STATUS : Fld := ⟨0x2204C, 0, 8⟩
/-- BIST_CMD_STATUS.OP. -/
def F.BIST_CMD_STATUS_OP : Fld := ⟨0x2204C, 8, 3⟩
/-- BIST_CMD_STATUS.DONE. -/
def F.BIST_CMD_STATUS_DONE : Fld := ⟨0x2204C, 11, 1⟩
/-- BIST_CMD_STATUS.REASON. -/
def F.BIST_CMD_STATUS_REASON : Fld := ⟨0x2204C, 12, 4⟩
/-- BIST_PACK_ADDR_LO.ADDR_LO. -/
def F.BIST_PACK_ADDR_LO_ADDR_LO : Fld := ⟨0x22050, 0, 32⟩
/-- BIST_PACK_ADDR_HI.ADDR_HI. -/
def F.BIST_PACK_ADDR_HI_ADDR_HI : Fld := ⟨0x22054, 0, 32⟩
/-- BIST_RESULT_SEL.TARGET. -/
def F.BIST_RESULT_SEL_TARGET : Fld := ⟨0x22058, 0, 3⟩
/-- BIST_RESULT_SEL.UNIT. -/
def F.BIST_RESULT_SEL_UNIT : Fld := ⟨0x22058, 16, 14⟩
/-- BIST_RESULT.OUTCOME. -/
def F.BIST_RESULT_OUTCOME : Fld := ⟨0x2205C, 0, 3⟩
/-- BIST_RESULT.VALID. -/
def F.BIST_RESULT_VALID : Fld := ⟨0x2205C, 3, 1⟩
/-- BIST_RESULT.PACK_USED. -/
def F.BIST_RESULT_PACK_USED : Fld := ⟨0x2205C, 4, 1⟩
/-- BIST_RESULT.RANDOM_FAIL. -/
def F.BIST_RESULT_RANDOM_FAIL : Fld := ⟨0x2205C, 5, 1⟩
/-- BIST_RESULT.INFO. -/
def F.BIST_RESULT_INFO : Fld := ⟨0x2205C, 8, 8⟩
/-- BIST_SIG_GOT_LO.SIG_LO. -/
def F.BIST_SIG_GOT_LO_SIG_LO : Fld := ⟨0x22060, 0, 32⟩
/-- BIST_SIG_GOT_HI.SIG_HI. -/
def F.BIST_SIG_GOT_HI_SIG_HI : Fld := ⟨0x22064, 0, 32⟩
/-- BIST_SIG_WANT_LO.SIG_LO. -/
def F.BIST_SIG_WANT_LO_SIG_LO : Fld := ⟨0x22068, 0, 32⟩
/-- BIST_SIG_WANT_HI.SIG_HI. -/
def F.BIST_SIG_WANT_HI_SIG_HI : Fld := ⟨0x2206C, 0, 32⟩
/-- BIST_ACTIVE.TARGETS. -/
def F.BIST_ACTIVE_TARGETS : Fld := ⟨0x22070, 0, 5⟩
/-- BIST_ACTIVE.TILES. -/
def F.BIST_ACTIVE_TILES : Fld := ⟨0x22070, 16, 15⟩
/-- BIST_TILE_MAX.TILES. -/
def F.BIST_TILE_MAX_TILES : Fld := ⟨0x22074, 0, 15⟩
/-- BIST_RUN_LIMIT.FACTOR. -/
def F.BIST_RUN_LIMIT_FACTOR : Fld := ⟨0x22078, 0, 4⟩
/-- BIST_PASSES.COUNT. -/
def F.BIST_PASSES_COUNT : Fld := ⟨0x2207C, 0, 16⟩
/-- BIST_PASSES.FAILS. -/
def F.BIST_PASSES_FAILS : Fld := ⟨0x2207C, 16, 16⟩
/-- BIST_PACK_SEL.SLOT. -/
def F.BIST_PACK_SEL_SLOT : Fld := ⟨0x22080, 0, 4⟩
/-- BIST_PACK_INFO.VALID. -/
def F.BIST_PACK_INFO_VALID : Fld := ⟨0x22084, 0, 1⟩
/-- BIST_PACK_INFO.TARGET. -/
def F.BIST_PACK_INFO_TARGET : Fld := ⟨0x22084, 1, 3⟩
/-- BIST_PACK_INFO.PUSHED. -/
def F.BIST_PACK_INFO_PUSHED : Fld := ⟨0x22084, 4, 1⟩
/-- BIST_PACK_INFO.BYTES. -/
def F.BIST_PACK_INFO_BYTES : Fld := ⟨0x22084, 8, 21⟩
/-- REL_CTRL.TEND_EN. -/
def F.REL_CTRL_TEND_EN : Fld := ⟨0x23040, 0, 1⟩
/-- REL_CTRL.SCRUB_EN. -/
def F.REL_CTRL_SCRUB_EN : Fld := ⟨0x23040, 1, 1⟩
/-- REL_CTRL.IDLE_WORDS. -/
def F.REL_CTRL_IDLE_WORDS : Fld := ⟨0x23040, 2, 1⟩
/-- REL_STATE.STATE. -/
def F.REL_STATE_STATE : Fld := ⟨0x23044, 0, 2⟩
/-- REL_STATE.REPLACE_REQ. -/
def F.REL_STATE_REPLACE_REQ : Fld := ⟨0x23044, 2, 1⟩
/-- REL_STATE.ALERT. -/
def F.REL_STATE_ALERT : Fld := ⟨0x23044, 3, 1⟩
/-- REL_STATE.TENDING. -/
def F.REL_STATE_TENDING : Fld := ⟨0x23044, 4, 1⟩
/-- REL_STATE.SAFE_CAUSE. -/
def F.REL_STATE_SAFE_CAUSE : Fld := ⟨0x23044, 8, 4⟩
/-- REL_DEGRADED.LANES. -/
def F.REL_DEGRADED_LANES : Fld := ⟨0x23048, 0, 16⟩
/-- REL_DEGRADED.CANE. -/
def F.REL_DEGRADED_CANE : Fld := ⟨0x23048, 16, 1⟩
/-- REL_DEGRADED.TASTERS. -/
def F.REL_DEGRADED_TASTERS : Fld := ⟨0x23048, 17, 4⟩
/-- REL_DEGRADED.STANDBY. -/
def F.REL_DEGRADED_STANDBY : Fld := ⟨0x23048, 21, 1⟩
/-- REL_CANES_BYPASSED.COUNT. -/
def F.REL_CANES_BYPASSED_COUNT : Fld := ⟨0x2304C, 0, 8⟩
/-- REL_TEND_PERIOD.HCLK. -/
def F.REL_TEND_PERIOD_HCLK : Fld := ⟨0x23050, 0, 32⟩
/-- REL_TEND_ROUNDS.COUNT. -/
def F.REL_TEND_ROUNDS_COUNT : Fld := ⟨0x23054, 0, 32⟩
/-- REL_ECC_CORR.COUNT. -/
def F.REL_ECC_CORR_COUNT : Fld := ⟨0x23058, 0, 32⟩
/-- REL_ECC_UNCORR.COUNT. -/
def F.REL_ECC_UNCORR_COUNT : Fld := ⟨0x2305C, 0, 16⟩
/-- REL_ECC_UNCORR.PARITY. -/
def F.REL_ECC_UNCORR_PARITY : Fld := ⟨0x2305C, 16, 16⟩
/-- REL_LAST_FAULT.PAGE. -/
def F.REL_LAST_FAULT_PAGE : Fld := ⟨0x23060, 0, 8⟩
/-- REL_LAST_FAULT.INSTANCE. -/
def F.REL_LAST_FAULT_INSTANCE : Fld := ⟨0x23060, 8, 8⟩
/-- REL_LAST_FAULT.KIND. -/
def F.REL_LAST_FAULT_KIND : Fld := ⟨0x23060, 16, 4⟩
/-- REL_LAST_FAULT.MASKED. -/
def F.REL_LAST_FAULT_MASKED : Fld := ⟨0x23060, 20, 1⟩
/-- REL_LAST_FAULT.VALID. -/
def F.REL_LAST_FAULT_VALID : Fld := ⟨0x23060, 21, 1⟩
/-- REL_LAST_GCN_LO.GCN_LO. -/
def F.REL_LAST_GCN_LO_GCN_LO : Fld := ⟨0x23064, 0, 32⟩
/-- REL_LAST_GCN_HI.GCN_HI. -/
def F.REL_LAST_GCN_HI_GCN_HI : Fld := ⟨0x23068, 0, 32⟩
/-- REL_INJECT.KIND. -/
def F.REL_INJECT_KIND : Fld := ⟨0x2306C, 0, 4⟩
/-- REL_INJECT.PAGE. -/
def F.REL_INJECT_PAGE : Fld := ⟨0x2306C, 8, 8⟩
/-- REL_INJECT.TILE. -/
def F.REL_INJECT_TILE : Fld := ⟨0x2306C, 16, 14⟩
/-- REL_INJECT.GO. -/
def F.REL_INJECT_GO : Fld := ⟨0x2306C, 31, 1⟩
/-- REL_CMD.OP. -/
def F.REL_CMD_OP : Fld := ⟨0x23070, 0, 2⟩
/-- REL_CMD_STATUS.STATUS. -/
def F.REL_CMD_STATUS_STATUS : Fld := ⟨0x23074, 0, 8⟩
/-- REL_CMD_STATUS.DONE. -/
def F.REL_CMD_STATUS_DONE : Fld := ⟨0x23074, 8, 1⟩
/-- PAIR_CTRL.AUTO_TAKEOVER. -/
def F.PAIR_CTRL_AUTO_TAKEOVER : Fld := ⟨0x24040, 0, 1⟩
/-- PAIR_CTRL.CKPT_EN. -/
def F.PAIR_CTRL_CKPT_EN : Fld := ⟨0x24040, 1, 1⟩
/-- PAIR_STATE.ACTIVE. -/
def F.PAIR_STATE_ACTIVE : Fld := ⟨0x24044, 0, 1⟩
/-- PAIR_STATE.STANDBY. -/
def F.PAIR_STATE_STANDBY : Fld := ⟨0x24044, 1, 2⟩
/-- PAIR_STATE.TAKEOVER. -/
def F.PAIR_STATE_TAKEOVER : Fld := ⟨0x24044, 3, 1⟩
/-- PAIR_STATE.LAST_CAUSE. -/
def F.PAIR_STATE_LAST_CAUSE : Fld := ⟨0x24044, 4, 4⟩
/-- PAIR_CKPT_PERIOD.HCLK. -/
def F.PAIR_CKPT_PERIOD_HCLK : Fld := ⟨0x24048, 0, 32⟩
/-- PAIR_HB_LIMIT.HCLK. -/
def F.PAIR_HB_LIMIT_HCLK : Fld := ⟨0x2404C, 0, 16⟩
/-- PAIR_CKPT_GCN_LO.GCN_LO. -/
def F.PAIR_CKPT_GCN_LO_GCN_LO : Fld := ⟨0x24050, 0, 32⟩
/-- PAIR_CKPT_GCN_HI.GCN_HI. -/
def F.PAIR_CKPT_GCN_HI_GCN_HI : Fld := ⟨0x24054, 0, 32⟩
/-- PAIR_TAKEOVERS.COUNT. -/
def F.PAIR_TAKEOVERS_COUNT : Fld := ⟨0x24058, 0, 16⟩
/-- PAIR_TAKEOVERS.CKPT_FAILS. -/
def F.PAIR_TAKEOVERS_CKPT_FAILS : Fld := ⟨0x24058, 16, 16⟩
/-- PAIR_TAKEOVER_TIME.HCLK. -/
def F.PAIR_TAKEOVER_TIME_HCLK : Fld := ⟨0x2405C, 0, 32⟩
/-- PAIR_CMD.OP. -/
def F.PAIR_CMD_OP : Fld := ⟨0x24060, 0, 2⟩
/-- PAIR_CMD_STATUS.STATUS. -/
def F.PAIR_CMD_STATUS_STATUS : Fld := ⟨0x24064, 0, 8⟩
/-- PAIR_CMD_STATUS.DONE. -/
def F.PAIR_CMD_STATUS_DONE : Fld := ⟨0x24064, 8, 1⟩
/-- FED_CTRL.EN. -/
def F.FED_CTRL_EN : Fld := ⟨0x25040, 0, 1⟩
/-- FED_CTRL.AUTO_RETRAIN. -/
def F.FED_CTRL_AUTO_RETRAIN : Fld := ⟨0x25040, 1, 1⟩
/-- FED_CTRL.JOB_CHECK_EN. -/
def F.FED_CTRL_JOB_CHECK_EN : Fld := ⟨0x25040, 2, 1⟩
/-- FED_SELF.HUB. -/
def F.FED_SELF_HUB : Fld := ⟨0x25044, 0, 11⟩
/-- FED_SELF.LEAD. -/
def F.FED_SELF_LEAD : Fld := ⟨0x25044, 11, 1⟩
/-- FED_SELF.JOINED. -/
def F.FED_SELF_JOINED : Fld := ⟨0x25044, 12, 1⟩
/-- FED_SELF.MAX_HOPS. -/
def F.FED_SELF_MAX_HOPS : Fld := ⟨0x25044, 16, 5⟩
/-- FED_LINK_SEL.TENDRIL. -/
def F.FED_LINK_SEL_TENDRIL : Fld := ⟨0x25048, 0, 2⟩
/-- FED_LINK.STATE. -/
def F.FED_LINK_STATE : Fld := ⟨0x2504C, 0, 2⟩
/-- FED_LINK.NEIGHBOUR. -/
def F.FED_LINK_NEIGHBOUR : Fld := ⟨0x2504C, 2, 11⟩
/-- FED_LINK.NB_VALID. -/
def F.FED_LINK_NB_VALID : Fld := ⟨0x2504C, 13, 1⟩
/-- FED_LINK.RAW_DELAY. -/
def F.FED_LINK_RAW_DELAY : Fld := ⟨0x2504C, 14, 4⟩
/-- FED_LINK.PAD. -/
def F.FED_LINK_PAD : Fld := ⟨0x2504C, 18, 4⟩
/-- FED_LINK_ERR.CRC_ERRS. -/
def F.FED_LINK_ERR_CRC_ERRS : Fld := ⟨0x25050, 0, 16⟩
/-- FED_LINK_ERR.RESENDS. -/
def F.FED_LINK_ERR_RESENDS : Fld := ⟨0x25050, 16, 16⟩
/-- FED_ROUTE_SEL.FIELD. -/
def F.FED_ROUTE_SEL_FIELD : Fld := ⟨0x25054, 0, 7⟩
/-- FED_ROUTE.TENDRIL. -/
def F.FED_ROUTE_TENDRIL : Fld := ⟨0x25058, 0, 2⟩
/-- FED_ROUTE.VALID. -/
def F.FED_ROUTE_VALID : Fld := ⟨0x25058, 2, 1⟩
/-- FED_ROUTE.HOPS. -/
def F.FED_ROUTE_HOPS : Fld := ⟨0x25058, 3, 5⟩
/-- FED_MEMBERS.COUNT. -/
def F.FED_MEMBERS_COUNT : Fld := ⟨0x2505C, 0, 7⟩
/-- FED_DOMAIN.PACKAGES. -/
def F.FED_DOMAIN_PACKAGES : Fld := ⟨0x25060, 0, 16⟩
/-- FED_DOMAIN.HUBS. -/
def F.FED_DOMAIN_HUBS : Fld := ⟨0x25060, 16, 11⟩
/-- FED_JOB_SEL.SLOT. -/
def F.FED_JOB_SEL_SLOT : Fld := ⟨0x25064, 0, 6⟩
/-- FED_JOB.FEDERATED. -/
def F.FED_JOB_FEDERATED : Fld := ⟨0x25068, 0, 1⟩
/-- FED_JOB.ANCHOR. -/
def F.FED_JOB_ANCHOR : Fld := ⟨0x25068, 1, 11⟩
/-- FED_JOB.HOPS. -/
def F.FED_JOB_HOPS : Fld := ⟨0x25068, 12, 5⟩
/-- FED_JOB.IS_ANCHOR. -/
def F.FED_JOB_IS_ANCHOR : Fld := ⟨0x25068, 17, 1⟩
/-- FED_JOB_CHECK.HCLK. -/
def F.FED_JOB_CHECK_HCLK : Fld := ⟨0x2506C, 0, 32⟩
/-- FED_CMD_TIMEOUT.HCLK. -/
def F.FED_CMD_TIMEOUT_HCLK : Fld := ⟨0x25070, 0, 32⟩
/-- FED_CMD.OP. -/
def F.FED_CMD_OP : Fld := ⟨0x25074, 0, 3⟩
/-- FED_CMD_STATUS.STATUS. -/
def F.FED_CMD_STATUS_STATUS : Fld := ⟨0x25078, 0, 8⟩
/-- FED_CMD_STATUS.OP. -/
def F.FED_CMD_STATUS_OP : Fld := ⟨0x25078, 8, 3⟩
/-- FED_CMD_STATUS.DONE. -/
def F.FED_CMD_STATUS_DONE : Fld := ⟨0x25078, 11, 1⟩
/-- FED_LAST.HUB. -/
def F.FED_LAST_HUB : Fld := ⟨0x2507C, 0, 11⟩
/-- FED_LAST.VALID. -/
def F.FED_LAST_VALID : Fld := ⟨0x2507C, 11, 1⟩
/-- FED_LAST.SLOT. -/
def F.FED_LAST_SLOT : Fld := ⟨0x2507C, 12, 6⟩
/-- PWR_CTRL.GUARD_EN. -/
def F.PWR_CTRL_GUARD_EN : Fld := ⟨0x26040, 0, 1⟩
/-- PWR_CTRL.AUTO_CAL. -/
def F.PWR_CTRL_AUTO_CAL : Fld := ⟨0x26040, 1, 1⟩
/-- PWR_CTRL.EST_ONLY_FORCE. -/
def F.PWR_CTRL_EST_ONLY_FORCE : Fld := ⟨0x26040, 2, 1⟩
/-- PWR_CTRL.CAL_START. -/
def F.PWR_CTRL_CAL_START : Fld := ⟨0x26040, 3, 1⟩
/-- PWR_CAP.MW. -/
def F.PWR_CAP_MW : Fld := ⟨0x26044, 0, 24⟩
/-- PWR_HYST.PCT. -/
def F.PWR_HYST_PCT : Fld := ⟨0x26048, 0, 5⟩
/-- PWR_EST.MW. -/
def F.PWR_EST_MW : Fld := ⟨0x2604C, 0, 24⟩
/-- PWR_MEAS.MW. -/
def F.PWR_MEAS_MW : Fld := ⟨0x26050, 0, 24⟩
/-- PWR_MEAS.VALID. -/
def F.PWR_MEAS_VALID : Fld := ⟨0x26050, 31, 1⟩
/-- PWR_USED.MW. -/
def F.PWR_USED_MW : Fld := ⟨0x26054, 0, 24⟩
/-- PWR_USED.SOURCE. -/
def F.PWR_USED_SOURCE : Fld := ⟨0x26054, 24, 2⟩
/-- PWR_STATUS.CAP_ACTIVE. -/
def F.PWR_STATUS_CAP_ACTIVE : Fld := ⟨0x26058, 0, 1⟩
/-- PWR_STATUS.UNREACHABLE. -/
def F.PWR_STATUS_UNREACHABLE : Fld := ⟨0x26058, 1, 1⟩
/-- PWR_STATUS.DISAGREE. -/
def F.PWR_STATUS_DISAGREE : Fld := ⟨0x26058, 2, 1⟩
/-- PWR_STATUS.EST_ONLY. -/
def F.PWR_STATUS_EST_ONLY : Fld := ⟨0x26058, 3, 1⟩
/-- PWR_STATUS.DUTY. -/
def F.PWR_STATUS_DUTY : Fld := ⟨0x26058, 4, 4⟩
/-- PWR_STATUS.ISSUE_CAP. -/
def F.PWR_STATUS_ISSUE_CAP : Fld := ⟨0x26058, 8, 5⟩
/-- PWR_STATUS.RUN. -/
def F.PWR_STATUS_RUN : Fld := ⟨0x26058, 16, 8⟩
/-- PWR_CAL_FACTOR.FACTOR. -/
def F.PWR_CAL_FACTOR_FACTOR : Fld := ⟨0x2605C, 0, 16⟩
/-- PWR_STATIC.MW. -/
def F.PWR_STATIC_MW : Fld := ⟨0x26060, 0, 16⟩
/-- PWR_COEF_0.E. -/
def F.PWR_COEF_0_E : Fld := ⟨0x26064, 0, 16⟩
/-- PWR_COEF_1.E. -/
def F.PWR_COEF_1_E : Fld := ⟨0x26068, 0, 16⟩
/-- PWR_COEF_2.E. -/
def F.PWR_COEF_2_E : Fld := ⟨0x2606C, 0, 16⟩
/-- PWR_COEF_3.E. -/
def F.PWR_COEF_3_E : Fld := ⟨0x26070, 0, 16⟩
/-- PWR_COEF_4.E. -/
def F.PWR_COEF_4_E : Fld := ⟨0x26074, 0, 16⟩
/-- PWR_COEF_5.E. -/
def F.PWR_COEF_5_E : Fld := ⟨0x26078, 0, 16⟩
/-- PWR_COEF_6.E. -/
def F.PWR_COEF_6_E : Fld := ⟨0x2607C, 0, 16⟩
/-- PWR_COEF_7.E. -/
def F.PWR_COEF_7_E : Fld := ⟨0x26080, 0, 16⟩
/-- PWR_COEF_8.E. -/
def F.PWR_COEF_8_E : Fld := ⟨0x26084, 0, 16⟩
/-- PWR_COEF_9.E. -/
def F.PWR_COEF_9_E : Fld := ⟨0x26088, 0, 16⟩
/-- PWR_COEF_10.E. -/
def F.PWR_COEF_10_E : Fld := ⟨0x2608C, 0, 16⟩
/-- PWR_COEF_11.E. -/
def F.PWR_COEF_11_E : Fld := ⟨0x26090, 0, 16⟩
/-- PWR_COEF_12.E. -/
def F.PWR_COEF_12_E : Fld := ⟨0x26094, 0, 16⟩
/-- PWR_COEF_13.E. -/
def F.PWR_COEF_13_E : Fld := ⟨0x26098, 0, 16⟩
/-- PWR_COEF_14.E. -/
def F.PWR_COEF_14_E : Fld := ⟨0x2609C, 0, 16⟩
/-- PWR_COEF_15.E. -/
def F.PWR_COEF_15_E : Fld := ⟨0x260A0, 0, 16⟩
/-- PWR_CLKREQ.PART. -/
def F.PWR_CLKREQ_PART : Fld := ⟨0x260A4, 0, 1⟩
/-- PWR_CLKREQ.DIV. -/
def F.PWR_CLKREQ_DIV : Fld := ⟨0x260A4, 1, 2⟩
/-- PWR_CLKREQ.GO. -/
def F.PWR_CLKREQ_GO : Fld := ⟨0x260A4, 3, 1⟩
/-- PWR_CLKREQ.STATUS. -/
def F.PWR_CLKREQ_STATUS : Fld := ⟨0x260A4, 4, 8⟩
/-- PWR_TELEM_TIMEOUT.HCLK. -/
def F.PWR_TELEM_TIMEOUT_HCLK : Fld := ⟨0x260A8, 0, 32⟩
/-- PWR_CTX_SEL.SLOT. -/
def F.PWR_CTX_SEL_SLOT : Fld := ⟨0x260AC, 0, 6⟩
/-- PWR_CTX.CAP_TOL. -/
def F.PWR_CTX_CAP_TOL : Fld := ⟨0x260B0, 0, 1⟩
/-- PWR_CTX.FLOOR. -/
def F.PWR_CTX_FLOOR : Fld := ⟨0x260B0, 1, 5⟩
/-- COOP_CTRL.EN. -/
def F.COOP_CTRL_EN : Fld := ⟨0x27040, 0, 1⟩
/-- COOP_STATE.STATE. -/
def F.COOP_STATE_STATE : Fld := ⟨0x27044, 0, 3⟩
/-- COOP_STATE.SCRIPT. -/
def F.COOP_STATE_SCRIPT : Fld := ⟨0x27044, 3, 3⟩
/-- COOP_STATE.PC. -/
def F.COOP_STATE_PC : Fld := ⟨0x27044, 6, 10⟩
/-- COOP_STATE.LAST_STATUS. -/
def F.COOP_STATE_LAST_STATUS : Fld := ⟨0x27044, 16, 8⟩
/-- COOP_STATE.CAUSE. -/
def F.COOP_STATE_CAUSE : Fld := ⟨0x27044, 24, 4⟩
/-- COOP_CMD.OP. -/
def F.COOP_CMD_OP : Fld := ⟨0x27048, 0, 3⟩
/-- COOP_CMD.SCRIPT. -/
def F.COOP_CMD_SCRIPT : Fld := ⟨0x27048, 4, 3⟩
/-- COOP_CMD_STATUS.STATUS. -/
def F.COOP_CMD_STATUS_STATUS : Fld := ⟨0x2704C, 0, 8⟩
/-- COOP_CMD_STATUS.OP. -/
def F.COOP_CMD_STATUS_OP : Fld := ⟨0x2704C, 8, 3⟩
/-- COOP_CMD_STATUS.DONE. -/
def F.COOP_CMD_STATUS_DONE : Fld := ⟨0x2704C, 11, 1⟩
/-- COOP_ARG.VALUE. -/
def F.COOP_ARG_VALUE : Fld := ⟨0x27050, 0, 32⟩
/-- COOP_FAIL_CODE.CODE. -/
def F.COOP_FAIL_CODE_CODE : Fld := ⟨0x27054, 0, 16⟩
/-- COOP_WDOG_LEFT.HCLK. -/
def F.COOP_WDOG_LEFT_HCLK : Fld := ⟨0x27058, 0, 32⟩
/-- COOP_SIG.S. -/
def F.COOP_SIG_S : Fld := ⟨0x2705C, 0, 32⟩
/-- COOP_PROG_SEL.WORD. -/
def F.COOP_PROG_SEL_WORD : Fld := ⟨0x27060, 0, 10⟩
/-- COOP_PROG_DATA.DATA. -/
def F.COOP_PROG_DATA_DATA : Fld := ⟨0x27064, 0, 32⟩
/-- COOP_PROG_CRC.CRC. -/
def F.COOP_PROG_CRC_CRC : Fld := ⟨0x27068, 0, 32⟩
/-- COOP_PROG_WORDS.COUNT. -/
def F.COOP_PROG_WORDS_COUNT : Fld := ⟨0x2706C, 0, 11⟩
/-- COOP_DATA_SEL.WORD. -/
def F.COOP_DATA_SEL_WORD : Fld := ⟨0x27070, 0, 8⟩
/-- COOP_DATA_DATA.DATA. -/
def F.COOP_DATA_DATA_DATA : Fld := ⟨0x27074, 0, 32⟩
/-- COOP_SCRIPT_SEL.SCRIPT. -/
def F.COOP_SCRIPT_SEL_SCRIPT : Fld := ⟨0x27078, 0, 3⟩
/-- COOP_SCRIPT_ENTRY.ENTRY. -/
def F.COOP_SCRIPT_ENTRY_ENTRY : Fld := ⟨0x2707C, 0, 10⟩
/-- COOP_SCRIPT_ENTRY.TRIGGER. -/
def F.COOP_SCRIPT_ENTRY_TRIGGER : Fld := ⟨0x2707C, 10, 2⟩
/-- COOP_SCRIPT_ENTRY.VALID. -/
def F.COOP_SCRIPT_ENTRY_VALID : Fld := ⟨0x2707C, 12, 1⟩
/-- COOP_SCRIPT_ENTRY.PENDING. -/
def F.COOP_SCRIPT_ENTRY_PENDING : Fld := ⟨0x2707C, 13, 1⟩
/-- COOP_SCRIPT_FILTER.CODE. -/
def F.COOP_SCRIPT_FILTER_CODE : Fld := ⟨0x27080, 0, 16⟩
/-- COOP_SCRIPT_FILTER.MASK. -/
def F.COOP_SCRIPT_FILTER_MASK : Fld := ⟨0x27080, 16, 16⟩
/-- COOP_SCRIPT_WDOG.HCLK. -/
def F.COOP_SCRIPT_WDOG_HCLK : Fld := ⟨0x27084, 0, 32⟩
/-- COOP_FILTER.FILTER. -/
def F.COOP_FILTER_FILTER : Fld := ⟨0x27088, 0, 32⟩
/-- COOP_QUEUE.DEPTH. -/
def F.COOP_QUEUE_DEPTH : Fld := ⟨0x2708C, 0, 5⟩
/-- COOP_EVLOSS.QUEUE. -/
def F.COOP_EVLOSS_QUEUE : Fld := ⟨0x27090, 0, 16⟩
/-- COOP_EVLOSS.TRIG_LOST. -/
def F.COOP_EVLOSS_TRIG_LOST : Fld := ⟨0x27090, 16, 16⟩
/-- COOP_RUNS.STARTS. -/
def F.COOP_RUNS_STARTS : Fld := ⟨0x27094, 0, 16⟩
/-- COOP_RUNS.FAULTS. -/
def F.COOP_RUNS_FAULTS : Fld := ⟨0x27094, 16, 16⟩
/-- COOP_W_SEL.REG. -/
def F.COOP_W_SEL_REG : Fld := ⟨0x27098, 0, 4⟩
/-- COOP_W.VALUE. -/
def F.COOP_W_VALUE : Fld := ⟨0x2709C, 0, 32⟩
/-- SPURW_TILE.TILE. -/
def F.SPURW_TILE_TILE : Fld := ⟨0x29040, 0, 14⟩
/-- SPURW_STATUS.STATUS. -/
def F.SPURW_STATUS_STATUS : Fld := ⟨0x29044, 0, 8⟩
/-- SPURW_STATUS.DONE. -/
def F.SPURW_STATUS_DONE : Fld := ⟨0x29044, 8, 1⟩
/-- SPUR_ID.TILE. -/
def F.SPUR_ID_TILE : Fld := ⟨0x29100, 0, 14⟩
/-- SPUR_ID.STATE. -/
def F.SPUR_ID_STATE : Fld := ⟨0x29100, 14, 2⟩
/-- SPUR_ID.SLOT. -/
def F.SPUR_ID_SLOT : Fld := ⟨0x29100, 16, 6⟩
/-- SPUR_ID.PRIV. -/
def F.SPUR_ID_PRIV : Fld := ⟨0x29100, 22, 2⟩
/-- SPUR_ID.BAD. -/
def F.SPUR_ID_BAD : Fld := ⟨0x29100, 24, 1⟩
/-- SPUR_SCN_LO.SCN_LO. -/
def F.SPUR_SCN_LO_SCN_LO : Fld := ⟨0x29104, 0, 32⟩
/-- SPUR_SCN_HI.SCN_HI. -/
def F.SPUR_SCN_HI_SCN_HI : Fld := ⟨0x29108, 0, 32⟩
/-- SPUR_FLAGS.SCN_VALID. -/
def F.SPUR_FLAGS_SCN_VALID : Fld := ⟨0x2910C, 0, 1⟩
/-- SPUR_FLAGS.GATED. -/
def F.SPUR_FLAGS_GATED : Fld := ⟨0x2910C, 1, 1⟩
/-- SPUR_FLAGS.QUIET. -/
def F.SPUR_FLAGS_QUIET : Fld := ⟨0x2910C, 2, 1⟩
/-- SPUR_FLAGS.ABANDONED. -/
def F.SPUR_FLAGS_ABANDONED : Fld := ⟨0x2910C, 3, 1⟩
/-- SPUR_FLAGS.STROBE_FAULT. -/
def F.SPUR_FLAGS_STROBE_FAULT : Fld := ⟨0x2910C, 4, 1⟩
/-- SPUR_FLAGS.HOLD_REQ. -/
def F.SPUR_FLAGS_HOLD_REQ : Fld := ⟨0x2910C, 5, 1⟩
/-- SPUR_FLAGS.CATCH_COUNT. -/
def F.SPUR_FLAGS_CATCH_COUNT : Fld := ⟨0x2910C, 6, 7⟩
/-- SPUR_OUTSTANDING.RD_OUT. -/
def F.SPUR_OUTSTANDING_RD_OUT : Fld := ⟨0x29110, 0, 16⟩
/-- SPUR_OUTSTANDING.WR_OUT. -/
def F.SPUR_OUTSTANDING_WR_OUT : Fld := ⟨0x29110, 16, 16⟩
/-- SPUR_TRACE.LEVEL. -/
def F.SPUR_TRACE_LEVEL : Fld := ⟨0x29114, 0, 10⟩
/-- SPUR_DIG_PARTIAL_LO.PARTIAL. -/
def F.SPUR_DIG_PARTIAL_LO_PARTIAL : Fld := ⟨0x29160, 0, 32⟩
/-- SPUR_DIG_PARTIAL_HI.PARTIAL. -/
def F.SPUR_DIG_PARTIAL_HI_PARTIAL : Fld := ⟨0x29164, 0, 32⟩
/-- SPUR_NUMW_0.COUNT. -/
def F.SPUR_NUMW_0_COUNT_0 : Fld := ⟨0x29170, 0, 16⟩
/-- SPUR_NUMW_0.COUNT. -/
def F.SPUR_NUMW_0_COUNT_1 : Fld := ⟨0x29170, 16, 16⟩
/-- SPUR_NUMW_1.COUNT. -/
def F.SPUR_NUMW_1_COUNT_0 : Fld := ⟨0x29174, 0, 16⟩
/-- SPUR_NUMW_1.COUNT. -/
def F.SPUR_NUMW_1_COUNT_1 : Fld := ⟨0x29174, 16, 16⟩
/-- SPUR_NUMW_2.COUNT. -/
def F.SPUR_NUMW_2_COUNT_0 : Fld := ⟨0x29178, 0, 16⟩
/-- SPUR_NUMW_2.COUNT. -/
def F.SPUR_NUMW_2_COUNT_1 : Fld := ⟨0x29178, 16, 16⟩
/-- SPUR_NUMW_3.COUNT. -/
def F.SPUR_NUMW_3_COUNT_0 : Fld := ⟨0x2917C, 0, 16⟩
/-- SPUR_NUMW_3.COUNT. -/
def F.SPUR_NUMW_3_COUNT_1 : Fld := ⟨0x2917C, 16, 16⟩
/-- SPUR_SRAM_ADDR.ADDR. -/
def F.SPUR_SRAM_ADDR_ADDR : Fld := ⟨0x29180, 3, 13⟩
/-- SPUR_SRAM_ADDR.AUTO_INC. -/
def F.SPUR_SRAM_ADDR_AUTO_INC : Fld := ⟨0x29180, 16, 1⟩
/-- SPUR_SRAM_LO.DATA. -/
def F.SPUR_SRAM_LO_DATA : Fld := ⟨0x29184, 0, 32⟩
/-- SPUR_SRAM_HI.DATA. -/
def F.SPUR_SRAM_HI_DATA : Fld := ⟨0x29188, 0, 32⟩
/-- AUTH_CMD.OP. -/
def F.AUTH_CMD_OP : Fld := ⟨0x2A040, 0, 3⟩
/-- AUTH_CMD_STATUS.STATUS. -/
def F.AUTH_CMD_STATUS_STATUS : Fld := ⟨0x2A044, 0, 8⟩
/-- AUTH_CMD_STATUS.DONE. -/
def F.AUTH_CMD_STATUS_DONE : Fld := ⟨0x2A044, 8, 1⟩
/-- AUTH_NONCE_0.NONCE. -/
def F.AUTH_NONCE_0_NONCE : Fld := ⟨0x2A048, 0, 32⟩
/-- AUTH_NONCE_1.NONCE. -/
def F.AUTH_NONCE_1_NONCE : Fld := ⟨0x2A04C, 0, 32⟩
/-- AUTH_NONCE_2.NONCE. -/
def F.AUTH_NONCE_2_NONCE : Fld := ⟨0x2A050, 0, 32⟩
/-- AUTH_NONCE_3.NONCE. -/
def F.AUTH_NONCE_3_NONCE : Fld := ⟨0x2A054, 0, 32⟩
/-- AUTH_SCOPE.RIGHTS. -/
def F.AUTH_SCOPE_RIGHTS : Fld := ⟨0x2A058, 0, 5⟩
/-- AUTH_SLOTS_LO.SLOTS_LO. -/
def F.AUTH_SLOTS_LO_SLOTS_LO : Fld := ⟨0x2A05C, 0, 32⟩
/-- AUTH_SLOTS_HI.SLOTS_HI. -/
def F.AUTH_SLOTS_HI_SLOTS_HI : Fld := ⟨0x2A060, 0, 32⟩
/-- AUTH_LIFE_LO.VALUE_LO. -/
def F.AUTH_LIFE_LO_VALUE_LO : Fld := ⟨0x2A064, 0, 32⟩
/-- AUTH_LIFE_HI.VALUE_HI. -/
def F.AUTH_LIFE_HI_VALUE_HI : Fld := ⟨0x2A068, 0, 32⟩
/-- AUTH_LIFE_EPOCH.EPOCH. -/
def F.AUTH_LIFE_EPOCH_EPOCH : Fld := ⟨0x2A06C, 0, 32⟩
/-- AUTH_DATA_SEL.WORD. -/
def F.AUTH_DATA_SEL_WORD : Fld := ⟨0x2A070, 0, 6⟩
/-- AUTH_DATA.DATA. -/
def F.AUTH_DATA_DATA : Fld := ⟨0x2A074, 0, 32⟩
/-- AUTH_GRANT_SEL.RECORD. -/
def F.AUTH_GRANT_SEL_RECORD : Fld := ⟨0x2A078, 0, 2⟩
/-- AUTH_GRANT.VALID. -/
def F.AUTH_GRANT_VALID : Fld := ⟨0x2A07C, 0, 1⟩
/-- AUTH_GRANT.RIGHTS. -/
def F.AUTH_GRANT_RIGHTS : Fld := ⟨0x2A07C, 1, 5⟩
/-- AUTH_GRANT.ABS. -/
def F.AUTH_GRANT_ABS : Fld := ⟨0x2A07C, 6, 1⟩
/-- AUTH_GRANT_SLOTS_LO.SLOTS_LO. -/
def F.AUTH_GRANT_SLOTS_LO_SLOTS_LO : Fld := ⟨0x2A080, 0, 32⟩
/-- AUTH_GRANT_SLOTS_HI.SLOTS_HI. -/
def F.AUTH_GRANT_SLOTS_HI_SLOTS_HI : Fld := ⟨0x2A084, 0, 32⟩
/-- AUTH_GRANT_LEFT_LO.LEFT_LO. -/
def F.AUTH_GRANT_LEFT_LO_LEFT_LO : Fld := ⟨0x2A088, 0, 32⟩
/-- AUTH_GRANT_LEFT_HI.LEFT_HI. -/
def F.AUTH_GRANT_LEFT_HI_LEFT_HI : Fld := ⟨0x2A08C, 0, 32⟩
/-- AUTH_FAILS.COUNT. -/
def F.AUTH_FAILS_COUNT : Fld := ⟨0x2A090, 0, 4⟩
/-- AUTH_FAILS.LOCKED. -/
def F.AUTH_FAILS_LOCKED : Fld := ⟨0x2A090, 4, 1⟩
/-- TRAY_PINS.REPLACE_REQ. -/
def F.TRAY_PINS_REPLACE_REQ : Fld := ⟨0x2B040, 0, 1⟩
/-- TRAY_PINS.PWRCYC_REQ. -/
def F.TRAY_PINS_PWRCYC_REQ : Fld := ⟨0x2B040, 1, 1⟩
/-- TRAY_PINS.ALERT. -/
def F.TRAY_PINS_ALERT : Fld := ⟨0x2B040, 2, 1⟩
/-- TRAY_PINS.TILE_HOLD. -/
def F.TRAY_PINS_TILE_HOLD : Fld := ⟨0x2B040, 3, 1⟩
/-- TRAY_ALERT.LADDER_FAIL. -/
def F.TRAY_ALERT_LADDER_FAIL : Fld := ⟨0x2B044, 0, 1⟩
/-- TRAY_ALERT.CHIP_LEVEL. -/
def F.TRAY_ALERT_CHIP_LEVEL : Fld := ⟨0x2B044, 1, 1⟩
/-- TRAY_ALERT.SAFE. -/
def F.TRAY_ALERT_SAFE : Fld := ⟨0x2B044, 2, 1⟩
/-- TRAY_SUMMARY.REL_STATE. -/
def F.TRAY_SUMMARY_REL_STATE : Fld := ⟨0x2B048, 0, 2⟩
/-- TRAY_SUMMARY.BOOT_STEP. -/
def F.TRAY_SUMMARY_BOOT_STEP : Fld := ⟨0x2B048, 2, 4⟩
/-- TRAY_SUMMARY.LIFE. -/
def F.TRAY_SUMMARY_LIFE : Fld := ⟨0x2B048, 6, 3⟩
/-- TRAY_SUMMARY.CFG_DEFAULTED. -/
def F.TRAY_SUMMARY_CFG_DEFAULTED : Fld := ⟨0x2B048, 9, 1⟩
/-- TRAY_SUMMARY.TIME_OK. -/
def F.TRAY_SUMMARY_TIME_OK : Fld := ⟨0x2B048, 10, 1⟩
/-- TRAY_SUMMARY.LINK_UP. -/
def F.TRAY_SUMMARY_LINK_UP : Fld := ⟨0x2B048, 11, 1⟩
/-- TRAY_I3C.DYN_ADDR. -/
def F.TRAY_I3C_DYN_ADDR : Fld := ⟨0x2B04C, 0, 7⟩
/-- TRAY_I3C.ADDR_VALID. -/
def F.TRAY_I3C_ADDR_VALID : Fld := ⟨0x2B04C, 7, 1⟩
/-- TRAY_MBOX_0.DATA. -/
def F.TRAY_MBOX_0_DATA : Fld := ⟨0x2B050, 0, 32⟩
/-- TRAY_MBOX_1.DATA. -/
def F.TRAY_MBOX_1_DATA : Fld := ⟨0x2B054, 0, 32⟩

/-! ### The tables -/

/-- The common header (R459). -/
def regsHDR : List RegDef :=
  [⟨0x000, [⟨0, 8, .ro, 0⟩, ⟨8, 4, .ro, 0⟩, ⟨15, 1, .ro, 0⟩, ⟨16, 16, .ro, 0xD75C⟩]⟩,
   ⟨0x004, [⟨0, 8, .ro, 0⟩, ⟨8, 8, .ro, 1⟩, ⟨16, 2, .ro, 2⟩, ⟨18, 1, .ro, 0⟩]⟩,
   ⟨0x008, [⟨0, 5, .ro, 0⟩, ⟨5, 5, .ro, 0⟩, ⟨10, 1, .ro, 0⟩, ⟨11, 1, .ro, 0⟩]⟩,
   ⟨0x00C, [⟨0, 1, .rw, 1⟩, ⟨1, 1, .w1s, 0⟩, ⟨2, 1, .w1s, 0⟩]⟩,
   ⟨0x010, [⟨0, 1, .ro, 0⟩, ⟨1, 1, .ro, 0⟩, ⟨2, 1, .ro, 0⟩, ⟨3, 1, .ro, 0⟩, ⟨4, 1, .ro, 0⟩]⟩,
   ⟨0x014, [⟨0, 32, .w1c, 0⟩]⟩,
   ⟨0x018, [⟨0, 32, .rw, 0⟩]⟩,
   ⟨0x01C, [⟨0, 32, .w1s, 0⟩]⟩,
   ⟨0x020, [⟨0, 32, .w1c, 0⟩]⟩,
   ⟨0x024, [⟨0, 12, .ro, 0⟩, ⟨12, 5, .ro, 0⟩, ⟨17, 3, .ro, 0⟩]⟩,
   ⟨0x028, [⟨0, 3, .ro, 0⟩, ⟨4, 1, .w1s, 0⟩, ⟨5, 1, .w1s, 0⟩, ⟨6, 1, .w1s, 0⟩]⟩,
   ⟨0x02C, [⟨0, 31, .w1c, 0⟩, ⟨31, 1, .w1c, 0⟩]⟩]

/-- The GLB page (R474). -/
def regsGLB : List RegDef :=
  [⟨0x040, [⟨0, 11, .ro, 0⟩, ⟨11, 1, .ro, 0⟩, ⟨12, 1, .ro, 0⟩, ⟨13, 1, .ro, 0⟩]⟩,
   ⟨0x044, [⟨0, 8, .ro, 0⟩, ⟨8, 8, .ro, 0⟩, ⟨16, 7, .ro, 0⟩]⟩,
   ⟨0x048, [⟨0, 3, .ro, 0⟩]⟩,
   ⟨0x04C, [⟨0, 32, .ro, 0⟩]⟩,
   ⟨0x050, [⟨0, 12, .ro, 0⟩]⟩,
   ⟨0x054, [⟨0, 20, .ro, 0⟩, ⟨20, 3, .ro, 0⟩, ⟨23, 1, .ro, 0⟩, ⟨24, 8, .ro, 0⟩]⟩,
   ⟨0x058, [⟨0, 32, .ro, 0⟩]⟩,
   ⟨0x05C, [⟨0, 6, .rw, 0⟩]⟩,
   ⟨0x060, [⟨0, 16, .rw, 0⟩, ⟨16, 2, .rw, 0⟩]⟩,
   ⟨0x064, [⟨0, 16, .rw, 0⟩]⟩,
   ⟨0x068, [⟨0, 32, .rw, 0⟩]⟩,
   ⟨0x06C, [⟨0, 32, .rw, 0⟩]⟩,
   ⟨0x070, [⟨0, 32, .rw, 0⟩]⟩,
   ⟨0x074, [⟨0, 32, .rw, 0⟩]⟩,
   ⟨0x078, [⟨0, 31, .rw, 0x7F7F0000⟩]⟩,
   ⟨0x07C, [⟨0, 3, .wo, 0⟩]⟩,
   ⟨0x080, [⟨0, 8, .ro, 0⟩, ⟨8, 3, .ro, 0⟩, ⟨11, 1, .ro, 1⟩, ⟨12, 15, .ro, 0⟩]⟩,
   ⟨0x084, [⟨0, 1, .ro, 0⟩, ⟨1, 2, .ro, 0⟩, ⟨3, 1, .ro, 0⟩, ⟨4, 1, .ro, 0⟩, ⟨5, 15, .ro, 0⟩]⟩,
   ⟨0x088, [⟨0, 16, .ro, 0⟩]⟩]

/-- The BOOT page (R395). -/
def regsBOOT : List RegDef :=
  [⟨0x040, [⟨0, 4, .ro, 1⟩, ⟨4, 1, .ro, 0⟩, ⟨5, 3, .ro, 0⟩, ⟨8, 1, .ro, 0⟩, ⟨9, 1, .ro, 0⟩, ⟨10, 1, .ro, 0⟩, ⟨11, 1, .ro, 0⟩, ⟨12, 4, .ro, 0⟩, ⟨16, 1, .ro, 0⟩]⟩,
   ⟨0x044, [⟨0, 23, .ro, 0⟩]⟩,
   ⟨0x048, [⟨0, 32, .ro, 0⟩]⟩,
   ⟨0x04C, [⟨0, 12, .ro, 0⟩, ⟨12, 4, .ro, 0⟩, ⟨16, 8, .ro, 0⟩]⟩,
   ⟨0x050, [⟨0, 32, .ro, 0⟩]⟩,
   ⟨0x054, [⟨0, 32, .ro, 0⟩]⟩,
   ⟨0x058, [⟨0, 5, .rw, 0⟩]⟩,
   ⟨0x05C, [⟨0, 32, .rw, 0x17D7840⟩]⟩,
   ⟨0x060, [⟨0, 5, .ro, 0⟩, ⟨8, 5, .ro, 0⟩, ⟨16, 5, .ro, 0⟩]⟩,
   ⟨0x064, [⟨0, 2, .wo, 0⟩]⟩,
   ⟨0x068, [⟨0, 8, .ro, 0⟩]⟩]

/-- The LIFE page (R396). -/
def regsLIFE : List RegDef :=
  [⟨0x040, [⟨0, 3, .ro, 0⟩, ⟨3, 1, .ro, 0⟩, ⟨4, 1, .ro, 0⟩, ⟨5, 3, .ro, 0⟩, ⟨8, 1, .ro, 0⟩, ⟨9, 1, .ro, 0⟩, ⟨10, 10, .ro, 0⟩, ⟨20, 4, .ro, 0⟩]⟩,
   ⟨0x044, [⟨0, 32, .ro, 0⟩]⟩,
   ⟨0x048, [⟨0, 32, .ro, 0⟩]⟩,
   ⟨0x04C, [⟨0, 9, .rw, 0⟩]⟩,
   ⟨0x050, [⟨0, 32, .ro, 0⟩]⟩,
   ⟨0x054, [⟨0, 3, .wo, 0⟩]⟩,
   ⟨0x058, [⟨0, 3, .rw, 0⟩, ⟨16, 14, .rw, 0⟩]⟩,
   ⟨0x05C, [⟨0, 8, .ro, 0⟩, ⟨8, 1, .ro, 1⟩]⟩,
   ⟨0x060, [⟨0, 32, .rw, 0⟩]⟩,
   ⟨0x064, [⟨0, 32, .rw, 0⟩]⟩,
   ⟨0x068, [⟨0, 32, .rw, 0⟩]⟩,
   ⟨0x06C, [⟨0, 32, .rw, 0⟩]⟩,
   ⟨0x070, [⟨0, 32, .rw, 0⟩]⟩,
   ⟨0x074, [⟨0, 32, .rw, 0⟩]⟩,
   ⟨0x078, [⟨0, 32, .rw, 0⟩]⟩,
   ⟨0x07C, [⟨0, 32, .rw, 0⟩]⟩,
   ⟨0x080, [⟨0, 32, .rw, 0⟩]⟩,
   ⟨0x084, [⟨0, 32, .rw, 0⟩]⟩,
   ⟨0x088, [⟨0, 32, .rw, 0⟩]⟩,
   ⟨0x08C, [⟨0, 32, .rw, 0⟩]⟩]

/-- The TIME page (R58). -/
def regsTIME : List RegDef :=
  [⟨0x040, [⟨0, 32, .ro, 0⟩]⟩,
   ⟨0x044, [⟨0, 32, .ro, 0⟩]⟩,
   ⟨0x048, [⟨0, 32, .ro, 0⟩]⟩,
   ⟨0x04C, [⟨0, 3, .ro, 0⟩, ⟨3, 1, .ro, 0⟩, ⟨4, 1, .ro, 0⟩, ⟨5, 1, .ro, 0⟩]⟩,
   ⟨0x050, [⟨0, 1, .rw, 0⟩, ⟨1, 1, .rw, 0⟩, ⟨2, 1, .rw, 1⟩]⟩,
   ⟨0x054, [⟨0, 4, .wo, 0⟩]⟩,
   ⟨0x058, [⟨0, 8, .ro, 0⟩, ⟨8, 4, .ro, 0⟩, ⟨12, 1, .ro, 1⟩]⟩,
   ⟨0x05C, [⟨0, 32, .rw, 0⟩]⟩,
   ⟨0x060, [⟨0, 32, .rw, 0⟩]⟩,
   ⟨0x064, [⟨0, 32, .rw, 0⟩]⟩,
   ⟨0x068, [⟨0, 8, .rw, 0⟩]⟩,
   ⟨0x06C, [⟨0, 32, .rw, 0⟩]⟩,
   ⟨0x070, [⟨0, 8, .ro, 0⟩, ⟨8, 16, .ro, 0⟩]⟩,
   ⟨0x074, [⟨0, 32, .rw, 0x100000⟩]⟩,
   ⟨0x078, [⟨0, 2, .ro, 0⟩, ⟨2, 16, .ro, 0⟩]⟩,
   ⟨0x07C, [⟨0, 2, .ro, 0⟩, ⟨2, 2, .ro, 0⟩, ⟨4, 1, .ro, 0⟩, ⟨5, 1, .ro, 0⟩, ⟨6, 1, .ro, 1⟩]⟩,
   ⟨0x080, [⟨0, 1, .rw, 0⟩, ⟨1, 2, .rw, 0⟩]⟩,
   ⟨0x084, [⟨0, 32, .rw, 0⟩]⟩,
   ⟨0x088, [⟨0, 32, .rw, 0⟩]⟩,
   ⟨0x08C, [⟨0, 32, .ro, 0⟩]⟩,
   ⟨0x090, [⟨0, 32, .ro, 0⟩]⟩,
   ⟨0x094, [⟨0, 3, .ro, 0⟩]⟩,
   ⟨0x098, [⟨0, 3, .ro, 0⟩]⟩,
   ⟨0x09C, [⟨0, 6, .rw, 0⟩]⟩,
   ⟨0x0A0, [⟨0, 32, .ro, 0⟩]⟩,
   ⟨0x0A4, [⟨0, 32, .ro, 0⟩]⟩,
   ⟨0x0A8, [⟨0, 1, .ro, 0⟩, ⟨1, 1, .ro, 0⟩]⟩]

/-- The CORK page (R96). -/
def regsCORK : List RegDef :=
  [⟨0x040, [⟨0, 4, .wo, 0⟩]⟩,
   ⟨0x044, [⟨0, 3, .rw, 0⟩, ⟨3, 1, .rw, 0⟩, ⟨4, 1, .rw, 0⟩, ⟨5, 1, .rw, 0⟩, ⟨6, 6, .rw, 0⟩, ⟨16, 16, .rw, 0⟩]⟩,
   ⟨0x048, [⟨0, 2, .rw, 0⟩]⟩,
   ⟨0x04C, [⟨0, 32, .rw, 0⟩]⟩,
   ⟨0x050, [⟨0, 32, .rw, 0⟩]⟩,
   ⟨0x054, [⟨0, 32, .rw, 1⟩]⟩,
   ⟨0x058, [⟨0, 8, .ro, 0⟩, ⟨8, 8, .ro, 0⟩, ⟨16, 4, .ro, 0⟩, ⟨20, 1, .ro, 1⟩, ⟨21, 1, .ro, 0⟩]⟩,
   ⟨0x05C, [⟨0, 32, .ro, 0⟩]⟩,
   ⟨0x060, [⟨0, 32, .ro, 0⟩]⟩,
   ⟨0x064, [⟨0, 32, .ro, 0⟩]⟩,
   ⟨0x068, [⟨0, 32, .ro, 0⟩]⟩,
   ⟨0x06C, [⟨0, 16, .ro, 0x20⟩]⟩,
   ⟨0x070, [⟨0, 32, .ro, 0⟩]⟩,
   ⟨0x074, [⟨0, 32, .ro, 0⟩]⟩,
   ⟨0x078, [⟨0, 6, .rw, 0⟩]⟩,
   ⟨0x07C, [⟨0, 2, .ro, 0⟩, ⟨2, 1, .ro, 0⟩, ⟨3, 1, .ro, 0⟩, ⟨4, 4, .ro, 0⟩]⟩,
   ⟨0x080, [⟨0, 16, .rw, 0⟩, ⟨16, 16, .ro, 0⟩]⟩,
   ⟨0x084, [⟨0, 32, .rw, 0⟩]⟩,
   ⟨0x088, [⟨0, 32, .rw, 0x1312D0⟩]⟩,
   ⟨0x08C, [⟨0, 16, .rw, 0x100⟩]⟩,
   ⟨0x090, [⟨0, 32, .rw, 0x61A8⟩]⟩,
   ⟨0x094, [⟨0, 14, .ro, 0⟩, ⟨14, 1, .ro, 0⟩, ⟨16, 16, .ro, 0⟩]⟩,
   ⟨0x098, [⟨0, 12, .rw, 0⟩, ⟨15, 1, .rw, 0⟩, ⟨16, 16, .rw, 0⟩]⟩,
   ⟨0x09C, [⟨0, 32, .rw, 0⟩]⟩]

/-- The CANE page (R135). -/
def regsCANE : List RegDef :=
  [⟨0x040, [⟨0, 1, .rw, 1⟩, ⟨1, 1, .rw, 1⟩]⟩,
   ⟨0x044, [⟨0, 32, .ro, 0⟩]⟩,
   ⟨0x048, [⟨0, 32, .ro, 0⟩]⟩,
   ⟨0x04C, [⟨0, 32, .ro, 0⟩]⟩,
   ⟨0x050, [⟨0, 32, .ro, 0⟩]⟩,
   ⟨0x054, [⟨0, 32, .rw, 0⟩]⟩,
   ⟨0x058, [⟨0, 32, .rw, 0⟩]⟩,
   ⟨0x05C, [⟨0, 32, .rw, 0⟩]⟩,
   ⟨0x060, [⟨0, 32, .rw, 0⟩]⟩,
   ⟨0x064, [⟨0, 7, .rw, 0⟩]⟩,
   ⟨0x068, [⟨0, 7, .rw, 0⟩, ⟨7, 1, .ro, 0⟩, ⟨8, 16, .ro, 0⟩, ⟨24, 2, .ro, 0⟩]⟩,
   ⟨0x06C, [⟨0, 15, .ro, 0⟩, ⟨16, 15, .ro, 0⟩]⟩,
   ⟨0x070, [⟨0, 3, .wo, 0⟩]⟩,
   ⟨0x074, [⟨0, 8, .ro, 0⟩, ⟨8, 1, .ro, 1⟩]⟩]

/-- The HARV page (R132). -/
def regsHARV : List RegDef :=
  [⟨0x040, [⟨0, 4, .wo, 0⟩]⟩,
   ⟨0x044, [⟨0, 32, .rw, 0⟩]⟩,
   ⟨0x048, [⟨0, 1, .rw, 0⟩, ⟨1, 1, .rw, 0⟩, ⟨2, 1, .rw, 0⟩, ⟨3, 2, .rw, 1⟩, ⟨5, 1, .rw, 0⟩, ⟨6, 1, .rw, 0⟩, ⟨7, 1, .rw, 0⟩, ⟨8, 1, .rw, 0⟩]⟩,
   ⟨0x04C, [⟨0, 7, .rw, 0⟩, ⟨8, 7, .rw, 0⟩, ⟨16, 7, .rw, 0x7F⟩, ⟨24, 7, .rw, 0x7F⟩]⟩,
   ⟨0x050, [⟨0, 10, .rw, 0⟩, ⟨16, 10, .rw, 0x3FF⟩]⟩,
   ⟨0x054, [⟨0, 32, .rw, 0⟩]⟩,
   ⟨0x058, [⟨0, 32, .rw, 0⟩]⟩,
   ⟨0x05C, [⟨0, 8, .rw, 0x10⟩]⟩,
   ⟨0x060, [⟨0, 8, .ro, 0⟩, ⟨8, 8, .ro, 0⟩, ⟨16, 4, .ro, 0⟩, ⟨20, 1, .ro, 1⟩, ⟨21, 3, .ro, 0⟩, ⟨24, 1, .ro, 0⟩]⟩,
   ⟨0x064, [⟨0, 32, .ro, 0⟩]⟩,
   ⟨0x068, [⟨0, 32, .rw, 1⟩]⟩,
   ⟨0x06C, [⟨0, 15, .ro, 0⟩, ⟨16, 15, .ro, 0⟩]⟩,
   ⟨0x070, [⟨0, 32, .ro, 0⟩]⟩,
   ⟨0x074, [⟨0, 32, .ro, 0⟩]⟩,
   ⟨0x078, [⟨0, 32, .ro, 0⟩]⟩,
   ⟨0x07C, [⟨0, 32, .ro, 0⟩]⟩,
   ⟨0x080, [⟨0, 32, .rw, 0x30D4⟩]⟩,
   ⟨0x084, [⟨0, 32, .rw, 0x10000⟩]⟩,
   ⟨0x088, [⟨0, 32, .ro, 0⟩]⟩,
   ⟨0x08C, [⟨0, 32, .ro, 0⟩]⟩,
   ⟨0x090, [⟨0, 32, .ro, 0⟩]⟩,
   ⟨0x094, [⟨0, 32, .ro, 0⟩]⟩,
   ⟨0x098, [⟨0, 8, .rw, 0⟩]⟩,
   ⟨0x09C, [⟨0, 1, .rw, 0⟩, ⟨1, 6, .rw, 0⟩, ⟨7, 1, .rw, 0⟩]⟩,
   ⟨0x0A0, [⟨0, 32, .rw, 0⟩]⟩,
   ⟨0x0A4, [⟨0, 32, .rw, 0⟩]⟩,
   ⟨0x0A8, [⟨0, 32, .rw, 0⟩]⟩,
   ⟨0x0AC, [⟨0, 32, .rw, 0⟩]⟩,
   ⟨0x0B0, [⟨0, 32, .ro, 0⟩]⟩,
   ⟨0x0B4, [⟨0, 32, .ro, 0⟩]⟩] ++
  [⟨0x0B8, [⟨0, 6, .rw, 0⟩]⟩,
   ⟨0x0BC, [⟨0, 8, .rw, 0⟩]⟩]

/-- The PRESS page (R164). -/
def regsPRESS : List RegDef :=
  [⟨0x040, [⟨0, 1, .rw, 1⟩, ⟨1, 1, .rw, 1⟩, ⟨2, 1, .rw, 0⟩]⟩,
   ⟨0x044, [⟨0, 3, .ro, 0⟩, ⟨3, 1, .ro, 0⟩, ⟨4, 1, .ro, 0⟩]⟩,
   ⟨0x048, [⟨0, 3, .wo, 0⟩]⟩,
   ⟨0x04C, [⟨0, 8, .ro, 0⟩, ⟨8, 3, .ro, 0⟩, ⟨11, 1, .ro, 1⟩]⟩,
   ⟨0x050, [⟨0, 32, .ro, 0⟩]⟩,
   ⟨0x054, [⟨0, 32, .ro, 0⟩]⟩,
   ⟨0x058, [⟨0, 32, .ro, 0⟩]⟩,
   ⟨0x05C, [⟨0, 32, .ro, 0⟩]⟩,
   ⟨0x060, [⟨0, 32, .ro, 0⟩]⟩,
   ⟨0x064, [⟨0, 32, .ro, 0⟩]⟩,
   ⟨0x068, [⟨0, 32, .ro, 0⟩]⟩,
   ⟨0x06C, [⟨0, 16, .ro, 0⟩, ⟨16, 16, .ro, 0⟩]⟩,
   ⟨0x070, [⟨0, 16, .ro, 0⟩, ⟨16, 8, .rw, 4⟩]⟩,
   ⟨0x074, [⟨0, 4, .ro, 0⟩]⟩,
   ⟨0x078, [⟨0, 32, .ro, 0⟩]⟩,
   ⟨0x07C, [⟨0, 32, .ro, 0⟩]⟩,
   ⟨0x080, [⟨0, 32, .ro, 0⟩]⟩,
   ⟨0x084, [⟨0, 32, .ro, 0⟩]⟩]

/-- The CELL page (R192). -/
def regsCELL : List RegDef :=
  [⟨0x040, [⟨0, 1, .rw, 0⟩, ⟨1, 1, .rw, 1⟩, ⟨2, 1, .rw, 0⟩, ⟨3, 1, .rw, 0⟩, ⟨4, 1, .rw, 0⟩]⟩,
   ⟨0x044, [⟨0, 32, .rw, 0⟩]⟩,
   ⟨0x048, [⟨0, 32, .rw, 0⟩]⟩,
   ⟨0x04C, [⟨0, 7, .rw, 8⟩]⟩,
   ⟨0x050, [⟨0, 4, .rw, 4⟩]⟩,
   ⟨0x054, [⟨0, 14, .rw, 0x100⟩]⟩,
   ⟨0x058, [⟨0, 7, .rw, 0x32⟩]⟩,
   ⟨0x05C, [⟨0, 24, .rw, 0⟩]⟩,
   ⟨0x060, [⟨0, 2, .ro, 0⟩, ⟨2, 1, .ro, 0⟩, ⟨3, 1, .ro, 0⟩, ⟨4, 1, .ro, 0⟩]⟩,
   ⟨0x064, [⟨0, 24, .ro, 0⟩]⟩,
   ⟨0x068, [⟨0, 24, .ro, 0⟩]⟩,
   ⟨0x06C, [⟨0, 24, .ro, 0⟩]⟩,
   ⟨0x070, [⟨0, 11, .ro, 0⟩, ⟨16, 11, .ro, 0⟩]⟩,
   ⟨0x074, [⟨0, 3, .wo, 0⟩]⟩,
   ⟨0x078, [⟨0, 8, .ro, 0⟩, ⟨8, 3, .ro, 0⟩, ⟨11, 1, .ro, 1⟩]⟩,
   ⟨0x07C, [⟨0, 32, .rw, 0⟩]⟩,
   ⟨0x080, [⟨0, 32, .ro, 0⟩]⟩,
   ⟨0x084, [⟨0, 32, .ro, 0⟩]⟩,
   ⟨0x088, [⟨0, 10, .rw, 0⟩]⟩,
   ⟨0x08C, [⟨0, 32, .ro, 0⟩]⟩,
   ⟨0x090, [⟨0, 8, .ro, 0⟩, ⟨8, 8, .ro, 0⟩, ⟨16, 1, .ro, 0⟩, ⟨17, 1, .ro, 0⟩]⟩]

/-- The RACK page (R194). -/
def regsRACK : List RegDef :=
  [⟨0x040, [⟨0, 1, .rw, 1⟩, ⟨1, 1, .rw, 0⟩]⟩,
   ⟨0x044, [⟨0, 3, .wo, 0⟩]⟩,
   ⟨0x048, [⟨0, 11, .rw, 0⟩]⟩,
   ⟨0x04C, [⟨0, 32, .rw, 0⟩]⟩,
   ⟨0x050, [⟨0, 1, .rw, 1⟩, ⟨1, 1, .rw, 1⟩, ⟨2, 16, .rw, 0xFFFF⟩, ⟨24, 8, .rw, 0⟩]⟩,
   ⟨0x054, [⟨0, 8, .ro, 0⟩, ⟨8, 3, .ro, 0⟩, ⟨11, 1, .ro, 1⟩, ⟨24, 8, .ro, 0⟩]⟩,
   ⟨0x058, [⟨0, 6, .ro, 0⟩, ⟨8, 8, .ro, 0⟩, ⟨16, 1, .ro, 0⟩]⟩,
   ⟨0x05C, [⟨0, 32, .rw, 0⟩]⟩,
   ⟨0x060, [⟨0, 32, .rw, 0⟩]⟩,
   ⟨0x064, [⟨0, 32, .rw, 0⟩]⟩,
   ⟨0x068, [⟨0, 32, .rw, 0⟩]⟩,
   ⟨0x06C, [⟨0, 32, .ro, 0⟩]⟩,
   ⟨0x070, [⟨0, 32, .ro, 0⟩]⟩,
   ⟨0x074, [⟨0, 32, .ro, 0⟩]⟩,
   ⟨0x078, [⟨0, 5, .ro, 0⟩, ⟨16, 11, .ro, 0⟩]⟩,
   ⟨0x07C, [⟨0, 32, .ro, 0⟩]⟩,
   ⟨0x080, [⟨0, 32, .ro, 0⟩]⟩,
   ⟨0x084, [⟨0, 8, .ro, 0⟩, ⟨8, 8, .ro, 0⟩, ⟨16, 11, .ro, 0⟩]⟩]

/-- The LINK page (R371). -/
def regsLINK : List RegDef :=
  [⟨0x040, [⟨0, 1, .rw, 0⟩, ⟨1, 1, .rw, 1⟩, ⟨2, 1, .rw, 0⟩]⟩,
   ⟨0x044, [⟨0, 3, .ro, 0⟩, ⟨3, 1, .ro, 0⟩, ⟨4, 1, .ro, 0⟩, ⟨8, 4, .ro, 0⟩]⟩,
   ⟨0x048, [⟨0, 2, .wo, 0⟩]⟩,
   ⟨0x04C, [⟨0, 8, .ro, 0⟩, ⟨8, 2, .ro, 0⟩, ⟨10, 1, .ro, 1⟩]⟩,
   ⟨0x050, [⟨0, 12, .rw, 0x100⟩]⟩,
   ⟨0x054, [⟨0, 16, .rw, 0x400⟩]⟩,
   ⟨0x058, [⟨0, 8, .rw, 0x10⟩]⟩,
   ⟨0x05C, [⟨0, 32, .rw, 0x7735940⟩]⟩,
   ⟨0x060, [⟨0, 16, .rw, 0x4E2⟩]⟩,
   ⟨0x064, [⟨0, 8, .ro, 0⟩, ⟨8, 8, .ro, 0⟩, ⟨16, 16, .ro, 0⟩]⟩,
   ⟨0x068, [⟨0, 12, .ro, 0⟩, ⟨16, 12, .ro, 0⟩]⟩,
   ⟨0x06C, [⟨0, 13, .ro, 0⟩]⟩,
   ⟨0x070, [⟨0, 32, .ro, 0⟩]⟩,
   ⟨0x074, [⟨0, 32, .ro, 0⟩]⟩,
   ⟨0x078, [⟨0, 32, .ro, 0⟩]⟩,
   ⟨0x07C, [⟨0, 16, .ro, 0⟩, ⟨16, 16, .ro, 0⟩]⟩,
   ⟨0x080, [⟨0, 32, .ro, 0⟩]⟩,
   ⟨0x084, [⟨0, 32, .ro, 0⟩]⟩,
   ⟨0x088, [⟨0, 32, .ro, 0⟩]⟩,
   ⟨0x08C, [⟨0, 32, .ro, 0⟩]⟩,
   ⟨0x090, [⟨1, 14, .rw, 0x7FFE⟩]⟩,
   ⟨0x094, [⟨0, 4, .rw, 0⟩]⟩,
   ⟨0x098, [⟨0, 16, .ro, 0⟩]⟩,
   ⟨0x09C, [⟨0, 8, .ro, 0⟩, ⟨16, 16, .ro, 0⟩]⟩,
   ⟨0x0A0, [⟨0, 16, .ro, 0⟩, ⟨16, 16, .ro, 0⟩]⟩,
   ⟨0x0A4, [⟨0, 16, .ro, 0⟩]⟩]

/-- The TRACE page (R219). -/
def regsTRACE : List RegDef :=
  [⟨0x040, [⟨0, 1, .rw, 0⟩, ⟨1, 1, .rw, 0⟩, ⟨2, 1, .rw, 0⟩]⟩,
   ⟨0x044, [⟨0, 4, .wo, 0⟩]⟩,
   ⟨0x048, [⟨0, 8, .ro, 0⟩, ⟨8, 4, .ro, 0⟩, ⟨12, 1, .ro, 1⟩]⟩,
   ⟨0x04C, [⟨0, 1, .ro, 0⟩, ⟨1, 1, .ro, 0⟩, ⟨2, 1, .ro, 0⟩, ⟨3, 1, .ro, 0⟩, ⟨4, 1, .ro, 0⟩, ⟨5, 1, .ro, 0⟩, ⟨6, 1, .ro, 0⟩, ⟨7, 1, .ro, 0⟩, ⟨8, 4, .ro, 0⟩]⟩,
   ⟨0x050, [⟨0, 32, .ro, 0⟩]⟩,
   ⟨0x054, [⟨0, 32, .ro, 0⟩]⟩,
   ⟨0x058, [⟨0, 14, .ro, 0⟩]⟩,
   ⟨0x05C, [⟨0, 32, .ro, 0⟩]⟩,
   ⟨0x060, [⟨0, 32, .ro, 0⟩]⟩,
   ⟨0x064, [⟨0, 32, .rw, 0x100000⟩]⟩,
   ⟨0x068, [⟨0, 16, .rw, 0x400⟩]⟩,
   ⟨0x06C, [⟨0, 24, .rw, 0x1000⟩]⟩,
   ⟨0x070, [⟨0, 1, .rw, 1⟩, ⟨1, 1, .rw, 1⟩, ⟨2, 1, .rw, 0⟩, ⟨3, 1, .rw, 1⟩]⟩,
   ⟨0x074, [⟨0, 16, .rw, 0⟩, ⟨16, 16, .rw, 0xFFFF⟩]⟩,
   ⟨0x078, [⟨0, 2, .ro, 0⟩, ⟨2, 2, .ro, 0⟩, ⟨4, 14, .ro, 0⟩, ⟨18, 1, .ro, 0⟩, ⟨24, 8, .ro, 0⟩]⟩,
   ⟨0x07C, [⟨0, 32, .ro, 0⟩]⟩,
   ⟨0x080, [⟨0, 32, .ro, 0⟩]⟩,
   ⟨0x084, [⟨0, 32, .ro, 0⟩]⟩,
   ⟨0x088, [⟨0, 32, .ro, 0⟩]⟩,
   ⟨0x08C, [⟨0, 32, .ro, 0⟩]⟩,
   ⟨0x090, [⟨0, 32, .ro, 0⟩]⟩,
   ⟨0x094, [⟨0, 32, .ro, 0⟩]⟩,
   ⟨0x098, [⟨0, 32, .ro, 0⟩]⟩,
   ⟨0x09C, [⟨0, 32, .ro, 0⟩]⟩,
   ⟨0x0A0, [⟨0, 7, .rw, 0⟩]⟩,
   ⟨0x0A4, [⟨0, 32, .ro, 0⟩]⟩,
   ⟨0x0A8, [⟨0, 4, .rw, 0⟩]⟩,
   ⟨0x0AC, [⟨0, 16, .ro, 0⟩]⟩]

/-- The TRACEF page (R221). -/
def regsTRACEF : List RegDef :=
  [⟨0x040, [⟨0, 6, .rw, 0⟩]⟩,
   ⟨0x044, [⟨0, 1, .rw, 0⟩, ⟨1, 1, .rw, 0⟩, ⟨2, 1, .rw, 1⟩, ⟨3, 1, .rw, 1⟩, ⟨4, 1, .rw, 1⟩]⟩,
   ⟨0x048, [⟨0, 7, .rw, 0⟩, ⟨8, 7, .rw, 0⟩, ⟨16, 7, .rw, 0x7F⟩, ⟨24, 7, .rw, 0x7F⟩]⟩,
   ⟨0x04C, [⟨0, 2, .rw, 0⟩]⟩,
   ⟨0x050, [⟨0, 1, .rw, 0⟩, ⟨1, 4, .rw, 0⟩, ⟨5, 1, .rw, 1⟩, ⟨6, 1, .rw, 0⟩, ⟨7, 1, .rw, 1⟩, ⟨8, 6, .rw, 0⟩]⟩,
   ⟨0x054, [⟨0, 16, .rw, 0⟩, ⟨16, 16, .rw, 0xFFFF⟩]⟩,
   ⟨0x058, [⟨0, 16, .rw, 0⟩, ⟨16, 16, .rw, 0⟩]⟩,
   ⟨0x05C, [⟨0, 16, .rw, 0⟩, ⟨16, 16, .rw, 0xFFFF⟩]⟩,
   ⟨0x060, [⟨1, 14, .rw, 0⟩]⟩,
   ⟨0x064, [⟨0, 1, .ro, 0⟩]⟩]

/-- The TASTE page (R276). -/
def regsTASTE : List RegDef :=
  [⟨0x040, [⟨0, 1, .rw, 0⟩, ⟨1, 1, .rw, 1⟩]⟩,
   ⟨0x044, [⟨0, 32, .rw, 0x1E848⟩]⟩,
   ⟨0x048, [⟨0, 14, .rw, 0x138B⟩]⟩,
   ⟨0x04C, [⟨0, 24, .rw, 0x10000⟩]⟩,
   ⟨0x050, [⟨0, 6, .rw, 0⟩]⟩,
   ⟨0x054, [⟨0, 1, .rw, 0⟩, ⟨1, 2, .rw, 0⟩, ⟨3, 2, .rw, 1⟩, ⟨5, 1, .rw, 1⟩, ⟨6, 1, .rw, 1⟩, ⟨8, 8, .rw, 1⟩, ⟨16, 8, .rw, 0⟩, ⟨24, 8, .rw, 0⟩]⟩,
   ⟨0x058, [⟨0, 14, .rw, 0x3FFF⟩]⟩,
   ⟨0x05C, [⟨0, 4, .ro, 0xF⟩, ⟨4, 4, .ro, 0⟩, ⟨8, 1, .ro, 0⟩, ⟨9, 4, .ro, 0⟩]⟩,
   ⟨0x060, [⟨0, 3, .wo, 0⟩]⟩,
   ⟨0x064, [⟨0, 8, .ro, 0⟩, ⟨8, 3, .ro, 0⟩, ⟨11, 1, .ro, 1⟩]⟩,
   ⟨0x068, [⟨0, 14, .rw, 0⟩, ⟨16, 2, .rw, 0⟩]⟩,
   ⟨0x06C, [⟨0, 6, .rw, 0⟩, ⟨8, 3, .rw, 0⟩]⟩,
   ⟨0x070, [⟨0, 32, .ro, 0⟩]⟩,
   ⟨0x074, [⟨0, 32, .ro, 0⟩]⟩,
   ⟨0x078, [⟨0, 14, .ro, 0⟩, ⟨14, 1, .ro, 0⟩, ⟨16, 6, .ro, 0⟩, ⟨24, 8, .ro, 0⟩]⟩,
   ⟨0x07C, [⟨0, 32, .ro, 0⟩]⟩,
   ⟨0x080, [⟨0, 32, .ro, 0⟩]⟩,
   ⟨0x084, [⟨0, 5, .ro, 0⟩, ⟨5, 1, .ro, 0⟩, ⟨8, 5, .ro, 0⟩, ⟨16, 11, .ro, 0⟩, ⟨27, 1, .ro, 0⟩, ⟨28, 1, .ro, 0⟩]⟩,
   ⟨0x088, [⟨0, 32, .ro, 0⟩]⟩,
   ⟨0x08C, [⟨0, 32, .ro, 0⟩]⟩,
   ⟨0x090, [⟨0, 15, .rw, 0⟩]⟩,
   ⟨0x094, [⟨0, 32, .ro, 0⟩]⟩,
   ⟨0x098, [⟨0, 15, .ro, 0⟩]⟩]

/-- The NUMW page (R280). -/
def regsNUMW : List RegDef :=
  [⟨0x040, [⟨0, 1, .rw, 1⟩]⟩,
   ⟨0x044, [⟨0, 8, .rw, 0xA⟩]⟩,
   ⟨0x048, [⟨0, 6, .rw, 0⟩, ⟨8, 3, .rw, 0⟩]⟩,
   ⟨0x04C, [⟨0, 16, .rw, 0⟩, ⟨16, 1, .rw, 0⟩]⟩,
   ⟨0x050, [⟨0, 32, .ro, 0⟩]⟩,
   ⟨0x054, [⟨0, 32, .ro, 0⟩]⟩,
   ⟨0x058, [⟨0, 32, .ro, 0⟩]⟩,
   ⟨0x05C, [⟨0, 14, .ro, 0⟩, ⟨14, 1, .ro, 0⟩, ⟨16, 16, .ro, 0⟩]⟩,
   ⟨0x060, [⟨0, 14, .ro, 0⟩, ⟨14, 1, .ro, 0⟩, ⟨15, 1, .ro, 0⟩]⟩,
   ⟨0x064, [⟨0, 32, .ro, 0⟩]⟩,
   ⟨0x068, [⟨0, 32, .ro, 0⟩]⟩,
   ⟨0x06C, [⟨0, 2, .wo, 0⟩]⟩,
   ⟨0x070, [⟨0, 8, .ro, 0⟩, ⟨8, 1, .ro, 1⟩]⟩]

/-- The DIGEST page (R278). -/
def regsDIGEST : List RegDef :=
  [⟨0x040, [⟨0, 3, .wo, 0⟩]⟩,
   ⟨0x044, [⟨0, 8, .ro, 0⟩, ⟨8, 8, .ro, 0⟩, ⟨16, 3, .ro, 0⟩, ⟨19, 1, .ro, 1⟩]⟩,
   ⟨0x048, [⟨0, 6, .rw, 0⟩, ⟨6, 3, .rw, 0⟩, ⟨9, 1, .rw, 0⟩, ⟨10, 1, .rw, 0⟩, ⟨11, 1, .rw, 0⟩, ⟨12, 1, .rw, 0⟩, ⟨16, 8, .rw, 0⟩]⟩,
   ⟨0x04C, [⟨0, 32, .ro, 0⟩]⟩,
   ⟨0x050, [⟨0, 32, .ro, 0⟩]⟩,
   ⟨0x054, [⟨0, 32, .rw, 0⟩]⟩,
   ⟨0x058, [⟨0, 32, .rw, 0⟩]⟩,
   ⟨0x05C, [⟨0, 15, .ro, 0⟩, ⟨15, 1, .ro, 0⟩, ⟨16, 1, .ro, 0⟩, ⟨17, 1, .ro, 0⟩, ⟨18, 14, .ro, 0⟩]⟩,
   ⟨0x060, [⟨0, 32, .rw, 0x1000000⟩]⟩,
   ⟨0x064, [⟨0, 32, .rw, 0⟩]⟩,
   ⟨0x068, [⟨0, 32, .rw, 0⟩]⟩,
   ⟨0x06C, [⟨0, 14, .ro, 0⟩, ⟨14, 1, .ro, 0⟩, ⟨15, 1, .ro, 0⟩]⟩,
   ⟨0x070, [⟨0, 32, .ro, 0⟩]⟩,
   ⟨0x074, [⟨0, 32, .ro, 0⟩]⟩,
   ⟨0x078, [⟨0, 32, .ro, 0⟩]⟩]

/-- The HANG page (R312). -/
def regsHANG : List RegDef :=
  [⟨0x040, [⟨0, 1, .rw, 1⟩, ⟨1, 1, .rw, 1⟩, ⟨2, 1, .rw, 1⟩]⟩,
   ⟨0x044, [⟨0, 6, .rw, 0⟩]⟩,
   ⟨0x048, [⟨0, 1, .rw, 0⟩, ⟨1, 1, .rw, 0⟩, ⟨2, 2, .rw, 0⟩, ⟨4, 2, .rw, 1⟩, ⟨6, 1, .rw, 0⟩, ⟨7, 1, .rw, 0⟩]⟩,
   ⟨0x04C, [⟨0, 2, .ro, 0⟩, ⟨2, 5, .ro, 0⟩, ⟨7, 1, .ro, 0⟩, ⟨8, 1, .ro, 0⟩, ⟨16, 8, .ro, 0⟩]⟩,
   ⟨0x050, [⟨0, 32, .ro, 0⟩]⟩,
   ⟨0x054, [⟨0, 32, .ro, 0⟩]⟩,
   ⟨0x058, [⟨0, 32, .ro, 0⟩]⟩,
   ⟨0x05C, [⟨0, 32, .rw, 0x7735940⟩]⟩,
   ⟨0x060, [⟨0, 32, .rw, 0x1E848⟩]⟩,
   ⟨0x064, [⟨0, 32, .rw, 0x4A817C80⟩]⟩,
   ⟨0x068, [⟨0, 14, .ro, 0⟩, ⟨14, 1, .ro, 0⟩, ⟨15, 1, .ro, 0⟩, ⟨16, 6, .ro, 0⟩, ⟨22, 3, .ro, 0⟩]⟩,
   ⟨0x06C, [⟨0, 32, .ro, 0⟩]⟩,
   ⟨0x070, [⟨0, 32, .ro, 0⟩]⟩,
   ⟨0x074, [⟨0, 32, .ro, 0⟩]⟩,
   ⟨0x078, [⟨0, 15, .ro, 0⟩]⟩,
   ⟨0x07C, [⟨0, 32, .rw, 0x30D4⟩]⟩,
   ⟨0x080, [⟨0, 32, .rw, 0x7735940⟩]⟩,
   ⟨0x084, [⟨0, 32, .ro, 0⟩]⟩,
   ⟨0x088, [⟨0, 32, .ro, 0⟩]⟩,
   ⟨0x08C, [⟨0, 3, .wo, 0⟩]⟩,
   ⟨0x090, [⟨0, 8, .ro, 0⟩, ⟨8, 3, .ro, 0⟩, ⟨11, 1, .ro, 1⟩]⟩,
   ⟨0x094, [⟨0, 6, .rw, 0⟩]⟩,
   ⟨0x098, [⟨0, 4, .rw, 0⟩]⟩,
   ⟨0x09C, [⟨0, 16, .rw, 0⟩, ⟨16, 1, .rw, 0⟩, ⟨17, 2, .rw, 2⟩]⟩,
   ⟨0x0A0, [⟨0, 2, .rw, 2⟩]⟩,
   ⟨0x0A4, [⟨0, 16, .ro, 0⟩, ⟨16, 4, .ro, 0⟩, ⟨20, 1, .ro, 0⟩, ⟨24, 8, .ro, 0⟩]⟩]

/-- The RSET page (R314). -/
def regsRSET : List RegDef :=
  [⟨0x040, [⟨0, 1, .rw, 1⟩, ⟨1, 3, .rw, 2⟩]⟩,
   ⟨0x044, [⟨0, 3, .wo, 0⟩]⟩,
   ⟨0x048, [⟨0, 3, .rw, 0⟩, ⟨3, 1, .rw, 0⟩, ⟨4, 6, .rw, 0⟩, ⟨16, 14, .rw, 0⟩]⟩,
   ⟨0x04C, [⟨0, 8, .ro, 0⟩, ⟨8, 8, .ro, 0⟩, ⟨16, 3, .ro, 0⟩, ⟨19, 1, .ro, 1⟩, ⟨20, 3, .ro, 0⟩, ⟨23, 1, .ro, 0⟩]⟩,
   ⟨0x050, [⟨0, 14, .ro, 0⟩, ⟨14, 1, .ro, 0⟩, ⟨15, 1, .ro, 0⟩, ⟨16, 8, .ro, 0⟩]⟩,
   ⟨0x054, [⟨0, 15, .ro, 0⟩]⟩,
   ⟨0x058, [⟨0, 9, .rw, 0⟩]⟩,
   ⟨0x05C, [⟨0, 32, .ro, 0⟩]⟩,
   ⟨0x060, [⟨0, 3, .rw, 0⟩]⟩,
   ⟨0x064, [⟨0, 32, .ro, 0⟩]⟩,
   ⟨0x068, [⟨0, 1, .ro, 0⟩]⟩]

/-- The BIST page (R414). -/
def regsBIST : List RegDef :=
  [⟨0x040, [⟨0, 1, .rw, 1⟩]⟩,
   ⟨0x044, [⟨0, 3, .wo, 0⟩]⟩,
   ⟨0x048, [⟨0, 3, .rw, 0⟩, ⟨3, 1, .rw, 0⟩, ⟨4, 4, .rw, 0⟩, ⟨16, 14, .rw, 0⟩]⟩,
   ⟨0x04C, [⟨0, 8, .ro, 0⟩, ⟨8, 3, .ro, 0⟩, ⟨11, 1, .ro, 1⟩, ⟨12, 4, .ro, 0⟩]⟩,
   ⟨0x050, [⟨0, 32, .rw, 0⟩]⟩,
   ⟨0x054, [⟨0, 32, .rw, 0⟩]⟩,
   ⟨0x058, [⟨0, 3, .rw, 0⟩, ⟨16, 14, .rw, 0⟩]⟩,
   ⟨0x05C, [⟨0, 3, .ro, 0⟩, ⟨3, 1, .ro, 0⟩, ⟨4, 1, .ro, 0⟩, ⟨5, 1, .ro, 0⟩, ⟨8, 8, .ro, 0⟩]⟩,
   ⟨0x060, [⟨0, 32, .ro, 0⟩]⟩,
   ⟨0x064, [⟨0, 32, .ro, 0⟩]⟩,
   ⟨0x068, [⟨0, 32, .ro, 0⟩]⟩,
   ⟨0x06C, [⟨0, 32, .ro, 0⟩]⟩,
   ⟨0x070, [⟨0, 5, .ro, 0⟩, ⟨16, 15, .ro, 0⟩]⟩,
   ⟨0x074, [⟨0, 15, .rw, 0x40⟩]⟩,
   ⟨0x078, [⟨0, 4, .rw, 2⟩]⟩,
   ⟨0x07C, [⟨0, 16, .ro, 0⟩, ⟨16, 16, .ro, 0⟩]⟩,
   ⟨0x080, [⟨0, 4, .rw, 0⟩]⟩,
   ⟨0x084, [⟨0, 1, .ro, 0⟩, ⟨1, 3, .ro, 0⟩, ⟨4, 1, .ro, 0⟩, ⟨8, 21, .ro, 0⟩]⟩]

/-- The REL page (R433). -/
def regsREL : List RegDef :=
  [⟨0x040, [⟨0, 1, .rw, 1⟩, ⟨1, 1, .rw, 1⟩, ⟨2, 1, .rw, 1⟩]⟩,
   ⟨0x044, [⟨0, 2, .ro, 0⟩, ⟨2, 1, .ro, 0⟩, ⟨3, 1, .ro, 0⟩, ⟨4, 1, .ro, 0⟩, ⟨8, 4, .ro, 0⟩]⟩,
   ⟨0x048, [⟨0, 16, .ro, 0⟩, ⟨16, 1, .ro, 0⟩, ⟨17, 4, .ro, 0⟩, ⟨21, 1, .ro, 0⟩]⟩,
   ⟨0x04C, [⟨0, 8, .ro, 0⟩]⟩,
   ⟨0x050, [⟨0, 32, .rw, 0xBEBC20⟩]⟩,
   ⟨0x054, [⟨0, 32, .ro, 0⟩]⟩,
   ⟨0x058, [⟨0, 32, .ro, 0⟩]⟩,
   ⟨0x05C, [⟨0, 16, .ro, 0⟩, ⟨16, 16, .ro, 0⟩]⟩,
   ⟨0x060, [⟨0, 8, .ro, 0⟩, ⟨8, 8, .ro, 0⟩, ⟨16, 4, .ro, 0⟩, ⟨20, 1, .ro, 0⟩, ⟨21, 1, .ro, 0⟩]⟩,
   ⟨0x064, [⟨0, 32, .ro, 0⟩]⟩,
   ⟨0x068, [⟨0, 32, .ro, 0⟩]⟩,
   ⟨0x06C, [⟨0, 4, .rw, 0⟩, ⟨8, 8, .rw, 0⟩, ⟨16, 14, .rw, 0⟩, ⟨31, 1, .w1s, 0⟩]⟩,
   ⟨0x070, [⟨0, 2, .wo, 0⟩]⟩,
   ⟨0x074, [⟨0, 8, .ro, 0⟩, ⟨8, 1, .ro, 1⟩]⟩]

/-- The PAIR page (R435). -/
def regsPAIR : List RegDef :=
  [⟨0x040, [⟨0, 1, .rw, 1⟩, ⟨1, 1, .rw, 1⟩]⟩,
   ⟨0x044, [⟨0, 1, .ro, 0⟩, ⟨1, 2, .ro, 0⟩, ⟨3, 1, .ro, 0⟩, ⟨4, 4, .ro, 0⟩]⟩,
   ⟨0x048, [⟨0, 32, .rw, 0x1312D0⟩]⟩,
   ⟨0x04C, [⟨0, 16, .rw, 0x100⟩]⟩,
   ⟨0x050, [⟨0, 32, .ro, 0⟩]⟩,
   ⟨0x054, [⟨0, 32, .ro, 0⟩]⟩,
   ⟨0x058, [⟨0, 16, .ro, 0⟩, ⟨16, 16, .ro, 0⟩]⟩,
   ⟨0x05C, [⟨0, 32, .ro, 0⟩]⟩,
   ⟨0x060, [⟨0, 2, .wo, 0⟩]⟩,
   ⟨0x064, [⟨0, 8, .ro, 0⟩, ⟨8, 1, .ro, 1⟩]⟩]

/-- The FED page (R338). -/
def regsFED : List RegDef :=
  [⟨0x040, [⟨0, 1, .rw, 0⟩, ⟨1, 1, .rw, 1⟩, ⟨2, 1, .rw, 1⟩]⟩,
   ⟨0x044, [⟨0, 11, .ro, 0⟩, ⟨11, 1, .ro, 0⟩, ⟨12, 1, .ro, 0⟩, ⟨16, 5, .ro, 0⟩]⟩,
   ⟨0x048, [⟨0, 2, .rw, 0⟩]⟩,
   ⟨0x04C, [⟨0, 2, .ro, 0⟩, ⟨2, 11, .ro, 0⟩, ⟨13, 1, .ro, 0⟩, ⟨14, 4, .ro, 0⟩, ⟨18, 4, .ro, 0⟩]⟩,
   ⟨0x050, [⟨0, 16, .ro, 0⟩, ⟨16, 16, .ro, 0⟩]⟩,
   ⟨0x054, [⟨0, 7, .rw, 0⟩]⟩,
   ⟨0x058, [⟨0, 2, .ro, 0⟩, ⟨2, 1, .ro, 0⟩, ⟨3, 5, .ro, 0⟩]⟩,
   ⟨0x05C, [⟨0, 7, .ro, 0⟩]⟩,
   ⟨0x060, [⟨0, 16, .rw, 0⟩, ⟨16, 11, .rw, 0⟩]⟩,
   ⟨0x064, [⟨0, 6, .rw, 0⟩]⟩,
   ⟨0x068, [⟨0, 1, .rw, 0⟩, ⟨1, 11, .rw, 0⟩, ⟨12, 5, .rw, 0⟩, ⟨17, 1, .ro, 0⟩]⟩,
   ⟨0x06C, [⟨0, 32, .rw, 0x100000⟩]⟩,
   ⟨0x070, [⟨0, 32, .rw, 0x1E848⟩]⟩,
   ⟨0x074, [⟨0, 3, .wo, 0⟩]⟩,
   ⟨0x078, [⟨0, 8, .ro, 0⟩, ⟨8, 3, .ro, 0⟩, ⟨11, 1, .ro, 1⟩]⟩,
   ⟨0x07C, [⟨0, 11, .ro, 0⟩, ⟨11, 1, .ro, 0⟩, ⟨12, 6, .ro, 0⟩]⟩]

/-- The PWR page (R99). -/
def regsPWR : List RegDef :=
  [⟨0x040, [⟨0, 1, .rw, 1⟩, ⟨1, 1, .rw, 0⟩, ⟨2, 1, .rw, 0⟩, ⟨3, 1, .w1s, 0⟩]⟩,
   ⟨0x044, [⟨0, 24, .rw, 0xFFFFFF⟩]⟩,
   ⟨0x048, [⟨0, 5, .rw, 3⟩]⟩,
   ⟨0x04C, [⟨0, 24, .ro, 0⟩]⟩,
   ⟨0x050, [⟨0, 24, .ro, 0⟩, ⟨31, 1, .ro, 0⟩]⟩,
   ⟨0x054, [⟨0, 24, .ro, 0⟩, ⟨24, 2, .ro, 2⟩]⟩,
   ⟨0x058, [⟨0, 1, .ro, 0⟩, ⟨1, 1, .ro, 0⟩, ⟨2, 1, .ro, 0⟩, ⟨3, 1, .ro, 0⟩, ⟨4, 4, .ro, 0⟩, ⟨8, 5, .ro, 0x10⟩, ⟨16, 8, .ro, 0⟩]⟩,
   ⟨0x05C, [⟨0, 16, .rw, 0x100⟩]⟩,
   ⟨0x060, [⟨0, 16, .rw, 0⟩]⟩,
   ⟨0x064, [⟨0, 16, .rw, 0⟩]⟩,
   ⟨0x068, [⟨0, 16, .rw, 0⟩]⟩,
   ⟨0x06C, [⟨0, 16, .rw, 0⟩]⟩,
   ⟨0x070, [⟨0, 16, .rw, 0⟩]⟩,
   ⟨0x074, [⟨0, 16, .rw, 0⟩]⟩,
   ⟨0x078, [⟨0, 16, .rw, 0⟩]⟩,
   ⟨0x07C, [⟨0, 16, .rw, 0⟩]⟩,
   ⟨0x080, [⟨0, 16, .rw, 0⟩]⟩,
   ⟨0x084, [⟨0, 16, .rw, 0⟩]⟩,
   ⟨0x088, [⟨0, 16, .rw, 0⟩]⟩,
   ⟨0x08C, [⟨0, 16, .rw, 0⟩]⟩,
   ⟨0x090, [⟨0, 16, .rw, 0⟩]⟩,
   ⟨0x094, [⟨0, 16, .rw, 0⟩]⟩,
   ⟨0x098, [⟨0, 16, .rw, 0⟩]⟩,
   ⟨0x09C, [⟨0, 16, .rw, 0⟩]⟩,
   ⟨0x0A0, [⟨0, 16, .rw, 0⟩]⟩,
   ⟨0x0A4, [⟨0, 1, .rw, 0⟩, ⟨1, 2, .rw, 0⟩, ⟨3, 1, .w1s, 0⟩, ⟨4, 8, .ro, 0⟩]⟩,
   ⟨0x0A8, [⟨0, 32, .rw, 0x1E848⟩]⟩,
   ⟨0x0AC, [⟨0, 6, .rw, 0⟩]⟩,
   ⟨0x0B0, [⟨0, 1, .rw, 0⟩, ⟨1, 5, .rw, 0x10⟩]⟩]

/-- The COOP page (R457). -/
def regsCOOP : List RegDef :=
  [⟨0x040, [⟨0, 1, .rw, 1⟩]⟩,
   ⟨0x044, [⟨0, 3, .ro, 0⟩, ⟨3, 3, .ro, 0⟩, ⟨6, 10, .ro, 0⟩, ⟨16, 8, .ro, 0⟩, ⟨24, 4, .ro, 0⟩]⟩,
   ⟨0x048, [⟨0, 3, .wo, 0⟩, ⟨4, 3, .wo, 0⟩]⟩,
   ⟨0x04C, [⟨0, 8, .ro, 0⟩, ⟨8, 3, .ro, 0⟩, ⟨11, 1, .ro, 1⟩]⟩,
   ⟨0x050, [⟨0, 32, .rw, 0⟩]⟩,
   ⟨0x054, [⟨0, 16, .ro, 0⟩]⟩,
   ⟨0x058, [⟨0, 32, .ro, 0⟩]⟩,
   ⟨0x05C, [⟨0, 32, .ro, 0xFFFFFFFF⟩]⟩,
   ⟨0x060, [⟨0, 10, .rw, 0⟩]⟩,
   ⟨0x064, [⟨0, 32, .rw, 0⟩]⟩,
   ⟨0x068, [⟨0, 32, .rw, 0⟩]⟩,
   ⟨0x06C, [⟨0, 11, .rw, 0⟩]⟩,
   ⟨0x070, [⟨0, 8, .rw, 0⟩]⟩,
   ⟨0x074, [⟨0, 32, .rw, 0⟩]⟩,
   ⟨0x078, [⟨0, 3, .rw, 0⟩]⟩,
   ⟨0x07C, [⟨0, 10, .rw, 0⟩, ⟨10, 2, .rw, 0⟩, ⟨12, 1, .rw, 0⟩, ⟨13, 1, .ro, 0⟩]⟩,
   ⟨0x080, [⟨0, 16, .rw, 0⟩, ⟨16, 16, .rw, 0xFFFF⟩]⟩,
   ⟨0x084, [⟨0, 32, .rw, 0⟩]⟩,
   ⟨0x088, [⟨0, 32, .ro, 0⟩]⟩,
   ⟨0x08C, [⟨0, 5, .ro, 0⟩]⟩,
   ⟨0x090, [⟨0, 16, .ro, 0⟩, ⟨16, 16, .ro, 0⟩]⟩,
   ⟨0x094, [⟨0, 16, .ro, 0⟩, ⟨16, 16, .ro, 0⟩]⟩,
   ⟨0x098, [⟨0, 4, .rw, 0⟩]⟩,
   ⟨0x09C, [⟨0, 32, .ro, 0⟩]⟩]

/-- The SPURW page (R477). -/
def regsSPURW : List RegDef :=
  [⟨0x040, [⟨0, 14, .rw, 0⟩]⟩,
   ⟨0x044, [⟨0, 8, .ro, 0⟩, ⟨8, 1, .ro, 1⟩]⟩,
   ⟨0x100, [⟨0, 14, .ro, 0⟩, ⟨14, 2, .ro, 0⟩, ⟨16, 6, .ro, 0⟩, ⟨22, 2, .ro, 0⟩, ⟨24, 1, .ro, 0⟩]⟩,
   ⟨0x104, [⟨0, 32, .ro, 0⟩]⟩,
   ⟨0x108, [⟨0, 32, .ro, 0⟩]⟩,
   ⟨0x10C, [⟨0, 1, .ro, 0⟩, ⟨1, 1, .ro, 0⟩, ⟨2, 1, .ro, 0⟩, ⟨3, 1, .ro, 0⟩, ⟨4, 1, .ro, 0⟩, ⟨5, 1, .ro, 0⟩, ⟨6, 7, .ro, 0⟩]⟩,
   ⟨0x110, [⟨0, 16, .ro, 0⟩, ⟨16, 16, .ro, 0⟩]⟩,
   ⟨0x114, [⟨0, 10, .ro, 0⟩]⟩,
   ⟨0x120, [⟨0, 32, .rw, 0⟩]⟩,
   ⟨0x124, [⟨0, 32, .rw, 0⟩]⟩,
   ⟨0x128, [⟨0, 32, .rw, 0⟩]⟩,
   ⟨0x130, [⟨0, 32, .rw, 0⟩]⟩,
   ⟨0x134, [⟨0, 32, .rw, 0⟩]⟩,
   ⟨0x138, [⟨0, 32, .rw, 0⟩]⟩,
   ⟨0x140, [⟨0, 32, .rw, 0⟩]⟩,
   ⟨0x144, [⟨0, 32, .rw, 0⟩]⟩,
   ⟨0x148, [⟨0, 32, .rw, 0⟩]⟩,
   ⟨0x150, [⟨0, 32, .rw, 0⟩]⟩,
   ⟨0x154, [⟨0, 32, .rw, 0⟩]⟩,
   ⟨0x158, [⟨0, 32, .rw, 0⟩]⟩,
   ⟨0x160, [⟨0, 32, .ro, 0⟩]⟩,
   ⟨0x164, [⟨0, 32, .ro, 0⟩]⟩,
   ⟨0x170, [⟨0, 16, .ro, 0⟩, ⟨16, 16, .ro, 0⟩]⟩,
   ⟨0x174, [⟨0, 16, .ro, 0⟩, ⟨16, 16, .ro, 0⟩]⟩,
   ⟨0x178, [⟨0, 16, .ro, 0⟩, ⟨16, 16, .ro, 0⟩]⟩,
   ⟨0x17C, [⟨0, 16, .ro, 0⟩, ⟨16, 16, .ro, 0⟩]⟩,
   ⟨0x180, [⟨3, 13, .rw, 0⟩, ⟨16, 1, .rw, 0⟩]⟩,
   ⟨0x184, [⟨0, 32, .rw, 0⟩]⟩,
   ⟨0x188, [⟨0, 32, .rw, 0⟩]⟩]

/-- The AUTH page (R397). -/
def regsAUTH : List RegDef :=
  [⟨0x040, [⟨0, 3, .wo, 0⟩]⟩,
   ⟨0x044, [⟨0, 8, .ro, 0⟩, ⟨8, 1, .ro, 1⟩]⟩,
   ⟨0x048, [⟨0, 32, .ro, 0⟩]⟩,
   ⟨0x04C, [⟨0, 32, .ro, 0⟩]⟩,
   ⟨0x050, [⟨0, 32, .ro, 0⟩]⟩,
   ⟨0x054, [⟨0, 32, .ro, 0⟩]⟩,
   ⟨0x058, [⟨0, 5, .rw, 0⟩]⟩,
   ⟨0x05C, [⟨0, 32, .rw, 0⟩]⟩,
   ⟨0x060, [⟨0, 32, .rw, 0⟩]⟩,
   ⟨0x064, [⟨0, 32, .rw, 0⟩]⟩,
   ⟨0x068, [⟨0, 32, .rw, 0⟩]⟩,
   ⟨0x06C, [⟨0, 32, .rw, 0⟩]⟩,
   ⟨0x070, [⟨0, 6, .rw, 0⟩]⟩,
   ⟨0x074, [⟨0, 32, .rw, 0⟩]⟩,
   ⟨0x078, [⟨0, 2, .rw, 0⟩]⟩,
   ⟨0x07C, [⟨0, 1, .ro, 0⟩, ⟨1, 5, .ro, 0⟩, ⟨6, 1, .ro, 0⟩]⟩,
   ⟨0x080, [⟨0, 32, .ro, 0⟩]⟩,
   ⟨0x084, [⟨0, 32, .ro, 0⟩]⟩,
   ⟨0x088, [⟨0, 32, .ro, 0⟩]⟩,
   ⟨0x08C, [⟨0, 32, .ro, 0⟩]⟩,
   ⟨0x090, [⟨0, 4, .ro, 0⟩, ⟨4, 1, .ro, 0⟩]⟩]

/-- The TRAY page (R478). -/
def regsTRAY : List RegDef :=
  [⟨0x040, [⟨0, 1, .ro, 0⟩, ⟨1, 1, .ro, 0⟩, ⟨2, 1, .ro, 0⟩, ⟨3, 1, .ro, 1⟩]⟩,
   ⟨0x044, [⟨0, 1, .w1c, 0⟩, ⟨1, 1, .w1c, 0⟩, ⟨2, 1, .ro, 0⟩]⟩,
   ⟨0x048, [⟨0, 2, .ro, 0⟩, ⟨2, 4, .ro, 1⟩, ⟨6, 3, .ro, 0⟩, ⟨9, 1, .ro, 0⟩, ⟨10, 1, .ro, 0⟩, ⟨11, 1, .ro, 0⟩]⟩,
   ⟨0x04C, [⟨0, 7, .ro, 0⟩, ⟨7, 1, .ro, 0⟩]⟩,
   ⟨0x050, [⟨0, 32, .rw, 0⟩]⟩,
   ⟨0x054, [⟨0, 32, .rw, 0⟩]⟩]

end Sys2Proof.Machine
end

