-- ==== Sys2Proof/Machine/Bits.lean ====
section
/-! DEFINITION. Bit fields, byte strings, the check codes and the mixing functions that records, frames and registers use. -/

namespace Sys2Proof.Machine

/-- Bits `[lo + w - 1 : lo]` of a number. -/
def bitsOf (v lo w : Nat) : Nat := (v >>> lo) % 2 ^ w

/-- `v` with bits `[lo + w - 1 : lo]` replaced by those of `x`. -/
def setBits (v lo w x : Nat) : Nat :=
  v % 2 ^ lo + (x % 2 ^ w) * 2 ^ lo + (v / 2 ^ (lo + w)) * 2 ^ (lo + w)

/-- Bit `n` of a number. -/
def bitAt (v n : Nat) : Bool := (v >>> n) % 2 == 1

/-- 1 for true, 0 for false. -/
def b2n (b : Bool) : Nat := if b then 1 else 0

/-- The mask of width `w` at `lo`. -/
def maskOf (lo w : Nat) : Nat := (2 ^ w - 1) * 2 ^ lo

/-- The number of ones among the low `n` bits. -/
def popCount : Nat → Nat → Nat
  | 0, _ => 0
  | n + 1, v => v % 2 + popCount n (v / 2)

/-- Reads `w` bits as a signed number in two's complement. -/
def signed (w v : Nat) : Int :=
  if v % 2 ^ w < 2 ^ (w - 1) then (v % 2 ^ w : Nat) else ((v % 2 ^ w : Nat) : Int) - (2 ^ w : Nat)

/-- A signed number as `w` bits, modulo 2^w. -/
def unsigned (w : Nat) (i : Int) : Nat := (i % ((2 ^ w : Nat) : Int)).toNat

/-- A signed number as `w` bits, saturating. -/
def satSigned (w : Nat) (i : Int) : Nat :=
  let hi : Int := (2 ^ (w - 1) : Nat) - 1
  let lo : Int := -((2 ^ (w - 1) : Nat) : Int)
  unsigned w (if i > hi then hi else if i < lo then lo else i)

/-- A count in `w` bits that saturates. -/
def sat (w n : Nat) : Nat := if n < 2 ^ w then n else 2 ^ w - 1

/-- Rounds up to a multiple of `m`. -/
def roundUp (n m : Nat) : Nat := if m == 0 then n else (n + m - 1) / m * m

/-- Division rounding up. -/
def ceilDiv (n m : Nat) : Nat := if m == 0 then 0 else (n + m - 1) / m

/-! ### Byte strings, little-endian -/

/-- `n` bytes of a number, lowest byte first. -/
def le : Nat → Nat → List Byte
  | 0, _ => []
  | n + 1, v => BitVec.ofNat 8 v :: le n (v / 256)

/-- The number a byte string spells, lowest byte first. -/
def fromLe : List Byte → Nat
  | [] => 0
  | b :: bs => b.toNat + 256 * fromLe bs

/-- `n` bytes of a string from offset `at_`, read as a number. Bytes past its end read 0. -/
def leAt (bs : List Byte) (at_ n : Nat) : Nat := fromLe ((bs.drop at_).take n)

/-- `n` zero bytes. -/
def zeros (n : Nat) : List Byte := List.replicate n 0

/-- A byte string padded with zeros to `n` bytes. -/
def padTo (n : Nat) (bs : List Byte) : List Byte := bs ++ zeros (n - bs.length)

/-- A byte string padded with zeros to a multiple of `m` bytes. -/
def padMul (m : Nat) (bs : List Byte) : List Byte := padTo (roundUp bs.length m) bs

/-- A byte string with `n` bytes of `v` at offset `at_`. -/
def patchLe (bs : List Byte) (at_ n v : Nat) : List Byte := bs.take at_ ++ le n v ++ bs.drop (at_ + n)

/-! ### Check codes -/

/-- One bit of CRC-32C (polynomial 0x1EDC_6F41 of the shared codes, in reflected form). -/
def crcBit (c : Nat) : Nat := if c % 2 == 1 then (c / 2) ^^^ 0x82F63B78 else c / 2

/-- `n` bits of CRC-32C. -/
def crcBits : Nat → Nat → Nat
  | 0, c => c
  | n + 1, c => crcBits n (crcBit c)

/-- The CRC-32C register after one byte. -/
def crcByte (c : Nat) (b : Byte) : Nat := crcBits 8 (c ^^^ b.toNat)

/-- The CRC-32C register after a byte string, without the final inversion (as R448 uses it). -/
def crcUpdate : Nat → List Byte → Nat
  | c, [] => c
  | c, b :: bs => crcUpdate (crcByte c b) bs

/-- CRC-32C of a byte string: initial value all ones, final inversion. -/
def crc32c (bs : List Byte) : Nat := crcUpdate 0xFFFFFFFF bs ^^^ 0xFFFFFFFF

/-- The CRC-4 register `c` of R490 (polynomial x^4 + x + 1) after the low `n` bits of `v`, least significant bit first. -/
def crc4 : Nat → Nat → Nat → Nat
  | 0, _, c => c
  | n + 1, v, c =>
    let shifted := (c * 2) % 16
    crc4 n (v / 2) (if (v + c / 8) % 2 == 1 then shifted ^^^ 3 else shifted)

/-! ### Lists of numbers -/

/-- Inserts a number into a rising list without repeats. -/
def insertNat (n : Nat) : List Nat → List Nat
  | [] => [n]
  | m :: ms => if n < m then n :: m :: ms else if n == m then m :: ms else m :: insertNat n ms

/-- The numbers of `l` without `n`. -/
def removeNat (n : Nat) (l : List Nat) : List Nat := l.filter (· != n)

/-- Sum of a list. -/
def sumNat (l : List Nat) : Nat := l.foldl (· + ·) 0

/-- Smallest of a list, `d` when it is empty. -/
def minNat (d : Nat) : List Nat → Nat
  | [] => d
  | x :: xs => xs.foldl (fun a b => if b < a then b else a) x

/-- The smaller of two numbers. -/
def least (a b : Nat) : Nat := if a < b then a else b

/-- Largest of a list, 0 when it is empty. -/
def maxNat (l : List Nat) : Nat := l.foldl (fun a b => if a < b then b else a) 0

/-- The first `n` numbers from `a`. -/
def countFrom (a n : Nat) : List Nat := (List.range n).map (· + a)

/-- The bits set among the low `n` bits of a mask, rising. -/
def maskList (n v : Nat) : List Nat := (List.range n).filter (bitAt v)

/-- The mask with the listed bits set. -/
def listMask (l : List Nat) : Nat := l.foldl (fun m b => m ||| 2 ^ b) 0

/-- Element `i` of a list, or `d`. -/
def nth {α : Type} (l : List α) (i : Nat) (d : α) : α := l.getD i d

/-- A list with element `i` replaced. -/
def setNth {α : Type} : List α → Nat → α → List α
  | [], _, _ => []
  | _ :: xs, 0, v => v :: xs
  | x :: xs, n + 1, v => x :: setNth xs n v

/-- Folds a state through a list, as a unit does one item after another. -/
def doEach {σ α : Type} (l : List α) (s : σ) (f : σ → α → σ) : σ := l.foldl f s

end Sys2Proof.Machine
end

