-- ==== Sys2Proof/Machine/Pcs.lean ====
section
/-! DEFINITION. The physical coding sublayer (12_rack_port.md, R341 to R343): the Reed-Solomon code RS(544,514) of
IEEE 802.3 clause 119, the message layout and the scrambler. The field polynomial x^10 + x^3 + 1, the generator polynomial with roots
alpha^0 to alpha^29 and the symbol order (the first symbol is the coefficient of the highest power) are those of the clause that R341
cites (PRESUMED, log entry 10). -/

namespace Sys2Proof.Machine

/-! ### Arithmetic in GF(2^10) -/

/-- Multiplication by alpha. -/
def gfX (a : Nat) : Nat := if a < 512 then 2 * a else (2 * a) ^^^ 0x409

/-- The product of `a` and the low `n` bits of `b`, added to `acc`. -/
def gfMulAdd : Nat → Nat → Nat → Nat → Nat
  | 0, _, _, acc => acc
  | n + 1, a, b, acc => gfMulAdd n (gfX a) (b / 2) (if b % 2 == 1 then acc ^^^ a else acc)

/-- Product of two symbols. -/
def gfMul (a b : Nat) : Nat := gfMulAdd 10 a b 0

/-- `a` to the power spelled by the low `n` bits of `e`, times `acc`. -/
def gfPowBits : Nat → Nat → Nat → Nat → Nat
  | 0, _, _, acc => acc
  | n + 1, a, e, acc => gfPowBits n (gfMul a a) (e / 2) (if e % 2 == 1 then gfMul acc a else acc)

/-- A power of a symbol. -/
def gfPow (a e : Nat) : Nat := gfPowBits 10 a e 1

/-- The inverse of a symbol other than 0. -/
def gfInv (a : Nat) : Nat := gfPow a 1022

/-- Alpha to a power. -/
def gfAlpha (e : Nat) : Nat := gfPow 2 (e % 1023)

/-- The value of a polynomial, its lowest coefficient first, at `x`. -/
def polyAt (p : List Nat) (x : Nat) : Nat := p.foldr (fun c acc => gfMul acc x ^^^ c) 0

/-- The sum of two polynomials. -/
def polyAdd : List Nat → List Nat → List Nat
  | [], q => q
  | p, [] => p
  | a :: p, b :: q => (a ^^^ b) :: polyAdd p q

/-- A polynomial times a symbol. -/
def polyScale (c : Nat) (p : List Nat) : List Nat := p.map (gfMul c)

/-- The product of two polynomials. -/
def polyMul : List Nat → List Nat → List Nat
  | [], _ => []
  | a :: p, q => polyAdd (polyScale a q) (0 :: polyMul p q)

/-! ### The code, R341 -/

/-- Symbols of a codeword, and of its message. -/
def rsN : Nat := 544
def rsK : Nat := 514

/-- Syndrome `j` of a received word. -/
def syndrome (w : List Nat) (j : Nat) : Nat :=
  let a := gfAlpha j
  w.foldl (fun acc r => gfMul acc a ^^^ r) 0

/-- The search for the error locator: the present locator, the previous one, the register length, the distance to the previous length
change and the discrepancy at that change. -/
structure Locator where
  cur : List Nat := [1]
  prev : List Nat := [1]
  len : Nat := 0
  gap : Nat := 1
  disc : Nat := 1

/-- One step of the search, on syndrome `n`. -/
def Locator.step (l : Locator) (synd : List Nat) (n : Nat) : Locator :=
  let d := (List.range (l.len + 1)).foldl (fun acc i => acc ^^^ gfMul (nth l.cur i 0) (nth synd (n - i) 0)) 0
  if d == 0 then { l with gap := l.gap + 1 }
  else
    let corr := List.replicate l.gap 0 ++ polyScale (gfMul d (gfInv l.disc)) l.prev
    let cur := polyAdd l.cur corr
    if 2 * l.len ≤ n then { cur := cur, prev := l.cur, len := n + 1 - l.len, gap := 1, disc := d }
    else { l with cur := cur, gap := l.gap + 1 }

/-- The powers at which a received word is wrong, with the values to add there; none when the errors cannot be located. -/
def rsErrors (synd : List Nat) : Option (List (Nat × Nat)) :=
  let l := (List.range 30).foldl (fun (l : Locator) n => l.step synd n) {}
  let at_ := (List.range rsN).filter (fun p => polyAt l.cur (gfAlpha (1023 - p)) == 0)
  if 15 < l.len || at_.length != l.len then none
  else
    let omega := (polyMul synd l.cur).take 30
    let deriv := (List.range l.cur.length).filterMap (fun i => if i % 2 == 1 then some (nth l.cur i 0) else none)
    some (at_.map (fun p =>
      let xi := gfAlpha (1023 - p)
      let den := polyAt deriv (gfMul xi xi)
      (p, gfMul (gfAlpha p) (gfMul (polyAt omega xi) (gfInv den)))))

/-- Decodes a codeword: the message symbols and how many symbols were corrected; none when it cannot be corrected. -/
def rsDecode (w : List Nat) : Option (List Nat × Nat) :=
  let synd := (List.range 30).map (syndrome w)
  if synd.all (· == 0) then some (w.take rsK, 0)
  else
    match rsErrors synd with
    | none => none
    | some errs =>
      let fixed := errs.foldl (fun w e => let i := rsN - 1 - e.1; setNth w i (nth w i 0 ^^^ e.2)) w
      if (List.range 30).all (fun j => syndrome fixed j == 0) then some (fixed.take rsK, errs.length) else none

/-! ### The scrambler and the message layout, R341 -/

/-- The scrambler's 58 bits of state at bit 20 of a codeword with CW_SEQ 0; bit i is s(n - 1 - i). -/
def scrOnes : Nat := 2 ^ 58 - 1

/-- `n` bits of the scrambler's output after `acc`, the newest bit first, and the state after them. -/
def scrRun : Nat → Nat → List Bool → List Bool × Nat
  | 0, st, acc => (acc, st)
  | n + 1, st, acc =>
    let b := bitAt st 38 != bitAt st 57
    scrRun n ((st * 2 + b2n b) % 2 ^ 58) (b :: acc)

/-- The state after the scrambled bits of `n` codewords. -/
def scrAfter : Nat → Nat → Nat
  | 0, st => st
  | n + 1, st => scrAfter n (scrRun 5120 st []).2

/-- The output of one codeword as a number, its first bit lowest. -/
def scrWord (st : Nat) : Nat := (scrRun 5120 st []).1.foldl (fun v b => 2 * v + b2n b) 0

/-- A received message: the slots marked as fill, CW_SEQ, whether SYNC is right, and the scrambled bits. -/
structure Codeword where
  fill : Nat
  seq : Nat
  sync : Bool
  slots : Nat

/-- Reads the message symbols, ten bits each, the lowest bit first. -/
def codewordOf (symbols : List Nat) : Codeword :=
  let v := symbols.foldr (fun x acc => x + acc * 1024) 0
  ⟨bitsOf v 0 8, bitsOf v 8 8, bitsOf v 16 4 == 6, v / 2 ^ 20⟩

/-- The flits of the slots that are not fill, in order. -/
def Codeword.flits (c : Codeword) (st : Nat) : List (List Byte) :=
  let v := c.slots ^^^ scrWord st
  ((List.range 8).filter (fun k => !bitAt c.fill k)).map (fun k => le 80 (v / 2 ^ (640 * k)))

/-! ### Codewords to be sent, R341 and R342 -/

/-- The generator polynomial without its leading 1, the highest power first. -/
def rsGen : List Nat := (((List.range 30).foldl (fun g i => polyMul g [gfAlpha i, 1]) [1]).take 30).reverse

/-- The division by the generator polynomial goes on with a message symbol. -/
def rsStep (gen par : List Nat) (m : Nat) : List Nat :=
  let fb := m ^^^ nth par 0 0
  List.zipWith (fun p c => p ^^^ gfMul fb c) (par.drop 1 ++ [0]) gen

/-- A message of 514 symbols with its 30 parity symbols. -/
def rsEncode (m : List Nat) : List Nat := m ++ m.foldl (rsStep rsGen) (List.replicate 30 0)

/-- The codeword of up to eight flits: FILL marks the slots after them, which carry zeros. -/
def codeword (flits : List (List Byte)) (seq st : Nat) : List Nat :=
  let n := flits.length
  let slots := (flits.zipIdx.map (fun p => leAt p.1 0 80 * 2 ^ (640 * p.2))).sum
  let v := (256 - 2 ^ n) + seq * 256 + 6 * 2 ^ 16 + (slots ^^^ scrWord st) * 2 ^ 20
  rsEncode ((List.range rsK).map (fun i => bitsOf v (10 * i) 10))

end Sys2Proof.Machine
end

