-- ==== Sys2Proof/Config.lean ====
section
/-! DEFINITION. What is fixed for the member modelled (Dysko 16K and 16K-R, R1), and the free values: constants without a
body that stand for what the spec leaves open. -/

namespace Sys2Proof.Config

/-- Trellis latency, root to spur and spur to root, in HCLK (R16). -/
def trellisLatency : Nat := 24

/-- Tendril latency of one hop in HCLK (R48, R319). -/
def tendrilLatency : Nat := 12

/-- HCLK periods in one millisecond (HCLK is 1.25 GHz, R32). -/
def millisecond : Nat := 1250000

/-- CHAIN_LEN, the length of a tile's LBIST chains: an integration parameter, W84 has 384 (R401; log entry 11). -/
def tileChainLen : Nat := 384

/-- FREE VALUE (log entry 4): the word drawn as number `n` where the spec states that a value exists and not which. -/
opaque freeWord : Nat → BitVec 32

/-- FREE VALUE (log entry 330): the PRPG seed of the ROM for a BIST target (R401 gives the counts of the ROM patterns and not the seed). -/
opaque romSeed : Nat → BitVec 64

end Sys2Proof.Config
end

