-- ==== Sys2Proof/Machine/Flags.lean ====
section
/-! DEFINITION. The codes every unit shares: command statuses (R20), register pages (R458), event codes (R21 and each
chapter's own table) and the PG_ERROR bits of each page. -/

namespace Sys2Proof.Machine

/-! ### Command statuses, R20 -/

def St.OK : Nat := 0x00
def St.BUSY : Nat := 0x01
def St.DENIED : Nat := 0x02
def St.BAD_ARG : Nat := 0x03
def St.TOO_SOON : Nat := 0x04
def St.SCOPE_SPLIT : Nat := 0x05
def St.NOT_STOPPED : Nat := 0x06
def St.NO_SPACE : Nat := 0x07
def St.TIMEOUT : Nat := 0x08
def St.FAULT : Nat := 0x09
def St.UNSUPPORTED : Nat := 0x0A
def St.NOT_RESTORABLE : Nat := 0x0B
def St.LIMIT : Nat := 0x0C

/-! ### Register pages, R458. PRESS is the page of lane 0, COOP that of cooper 0. -/

def Pg.GLB : Nat := 0x00
def Pg.BOOT : Nat := 0x01
def Pg.LIFE : Nat := 0x02
def Pg.TIME : Nat := 0x03
def Pg.CORK : Nat := 0x04
def Pg.TREL : Nat := 0x05
def Pg.CANE : Nat := 0x06
def Pg.HARV : Nat := 0x07
def Pg.PRESS : Nat := 0x08
def Pg.CELL : Nat := 0x18
def Pg.RACK : Nat := 0x19
def Pg.LINK : Nat := 0x1A
def Pg.TRACE : Nat := 0x1B
def Pg.TRACEF : Nat := 0x1C
def Pg.TASTE : Nat := 0x1D
def Pg.NUMW : Nat := 0x1E
def Pg.DIGEST : Nat := 0x1F
def Pg.HANG : Nat := 0x20
def Pg.RSET : Nat := 0x21
def Pg.BIST : Nat := 0x22
def Pg.REL : Nat := 0x23
def Pg.PAIR : Nat := 0x24
def Pg.FED : Nat := 0x25
def Pg.PWR : Nat := 0x26
def Pg.COOP : Nat := 0x27
def Pg.SPURW : Nat := 0x29
def Pg.AUTH : Nat := 0x2A
def Pg.TRAY : Nat := 0x2B

/-! ### Event codes -/

/-- R93. -/
def Ev.CORK_DONE : Nat := 0x0101
/-- R93. -/
def Ev.STEP_DONE : Nat := 0x0102
/-- R93. -/
def Ev.RESUMED : Nat := 0x0103
/-- R93. -/
def Ev.CORK_ABORTED : Nat := 0x0104
/-- R93. -/
def Ev.CORK_SKEW : Nat := 0x0105
/-- R93. -/
def Ev.CORK_TIMEOUT : Nat := 0x0106
/-- R93. -/
def Ev.MEMBER_STATUS : Nat := 0x0107
/-- R93. -/
def Ev.XPKG_LATE : Nat := 0x0108
/-- R93. -/
def Ev.HOLD_LIMIT : Nat := 0x0109
/-- R93. -/
def Ev.CLKCHG_APPLIED : Nat := 0x010A
/-- R93. -/
def Ev.CLKCHG_CANCELLED : Nat := 0x010B
/-- R93. -/
def Ev.TRIG_CORK : Nat := 0x010C
/-- R93. -/
def Ev.WAVE_CRC : Nat := 0x010D
/-- R94. -/
def Ev.CAP_ACTIVE : Nat := 0x0D01
/-- R94. -/
def Ev.CAP_RELEASED : Nat := 0x0D02
/-- R94. -/
def Ev.EST_DISAGREE : Nat := 0x0D03
/-- R94. -/
def Ev.TELEM_MISSING : Nat := 0x0D04
/-- R94. -/
def Ev.TELEM_RESTORED : Nat := 0x0D05
/-- R94. -/
def Ev.CAL_REQUEST : Nat := 0x0D06
/-- R94. -/
def Ev.CAL_DONE : Nat := 0x0D07
/-- R94. -/
def Ev.CAP_UNREACHABLE : Nat := 0x0D08
/-- R94. -/
def Ev.CLKREQ_REFUSED : Nat := 0x0D09
/-- R130. -/
def Ev.HARV_STARTED : Nat := 0x0201
/-- R130. -/
def Ev.STATE_DONE : Nat := 0x0202
/-- R130. -/
def Ev.HARV_DONE : Nat := 0x0203
/-- R130. -/
def Ev.HARV_GAP : Nat := 0x0204
/-- R130. -/
def Ev.NOT_QUIET : Nat := 0x0205
/-- R130. -/
def Ev.DECANT_STARTED : Nat := 0x0206
/-- R130. -/
def Ev.DECANT_DONE : Nat := 0x0207
/-- R130. -/
def Ev.DECANT_FAILED : Nat := 0x0208
/-- R130. -/
def Ev.REGION_MISMATCH : Nat := 0x0209
/-- R130. -/
def Ev.CANE_PARITY : Nat := 0x020A
/-- R130. -/
def Ev.CANE_BROKEN : Nat := 0x020B
/-- R130. -/
def Ev.CANE_LOCATE_DONE : Nat := 0x020C
/-- R130. -/
def Ev.HARV_ABORTED : Nat := 0x020D
/-- R162. -/
def Ev.VERIFY_FAIL : Nat := 0x0301
/-- R162. -/
def Ev.LANE_RAW_ONLY : Nat := 0x0302
/-- R162. -/
def Ev.LANE_RETIRED : Nat := 0x0303
/-- R162. -/
def Ev.LANE_RESTORED : Nat := 0x0304
/-- R162. -/
def Ev.DECODE_ERROR : Nat := 0x0305
/-- R162. -/
def Ev.REF_UNAVAILABLE : Nat := 0x0306
/-- R162. -/
def Ev.REF_FETCH_ERROR : Nat := 0x0307
/-- R162. -/
def Ev.FLUSHED : Nat := 0x0308
/-- R190. -/
def Ev.CELL_FULL : Nat := 0x0401
/-- R190. -/
def Ev.VINTAGE_EVICTED : Nat := 0x0402
/-- R190. -/
def Ev.VINTAGE_DELETED : Nat := 0x0403
/-- R190. -/
def Ev.PIN_LIMIT : Nat := 0x0404
/-- R190. -/
def Ev.CELLAR_STALLED : Nat := 0x0405
/-- R190. -/
def Ev.HARV_REFUSED_SPACE : Nat := 0x0406
/-- R190. -/
def Ev.CELLAR_KEPT : Nat := 0x0407
/-- R190. -/
def Ev.CELLAR_FORMATTED : Nat := 0x0408
/-- R190. -/
def Ev.META_ERROR : Nat := 0x0409
/-- R190. -/
def Ev.RACK_STARTED : Nat := 0x040A
/-- R190. -/
def Ev.RACK_DONE : Nat := 0x040B
/-- R190. -/
def Ev.RACK_SUSPENDED : Nat := 0x040C
/-- R190. -/
def Ev.RACK_RESUMED : Nat := 0x040D
/-- R190. -/
def Ev.RACK_FAILED : Nat := 0x040E
/-- R190. -/
def Ev.RACK_CANCELLED : Nat := 0x040F
/-- R217. -/
def Ev.TRACE_STARTED : Nat := 0x0601
/-- R217. -/
def Ev.TRACE_STOPPED : Nat := 0x0602
/-- R217. -/
def Ev.TRIGGERED : Nat := 0x0603
/-- R217. -/
def Ev.RING_FROZEN : Nat := 0x0604
/-- R217. -/
def Ev.RING_UNFROZEN : Nat := 0x0605
/-- R217. -/
def Ev.RING_WRAPPED : Nat := 0x0606
/-- R217. -/
def Ev.TRACE_LOSS : Nat := 0x0607
/-- R217. -/
def Ev.OPEN_DENIED : Nat := 0x0608
/-- R274. -/
def Ev.TASTE_MISMATCH : Nat := 0x0701
/-- R274. -/
def Ev.TASTE_ILLEGAL : Nat := 0x0702
/-- R274. -/
def Ev.TASTE_LOSS : Nat := 0x0703
/-- R274. -/
def Ev.TASTER_LOST : Nat := 0x0704
/-- R274. -/
def Ev.TASTER_RESTORED : Nat := 0x0705
/-- R274. -/
def Ev.TASTE_EVID_LOCKED : Nat := 0x0706
/-- R274. -/
def Ev.DIGEST_DONE : Nat := 0x0707
/-- R274. -/
def Ev.DIGEST_MISMATCH : Nat := 0x0708
/-- R274. -/
def Ev.DIGEST_INCOMPLETE : Nat := 0x0709
/-- R274. -/
def Ev.NUMW_THRESHOLD : Nat := 0x070A
/-- R274. -/
def Ev.NUMW_FIRST : Nat := 0x070B
/-- R310. -/
def Ev.HANG_BEAT : Nat := 0x0801
/-- R310. -/
def Ev.SCN_DIVERGE : Nat := 0x0802
/-- R310. -/
def Ev.SCN_STROBE : Nat := 0x0803
/-- R310. -/
def Ev.BEAT_PARTIAL : Nat := 0x0804
/-- R310. -/
def Ev.FENCED : Nat := 0x0805
/-- R310. -/
def Ev.FENCE_DRAIN_LIMIT : Nat := 0x0806
/-- R310. -/
def Ev.FENCE_LIMIT : Nat := 0x0807
/-- R310. -/
def Ev.FENCE_RELEASED : Nat := 0x0808
/-- R310. -/
def Ev.PEER_LOST : Nat := 0x0809
/-- R310. -/
def Ev.PEER_POLICY_DONE : Nat := 0x080A
/-- R310. -/
def Ev.LADDER_STEP : Nat := 0x080B
/-- R310. -/
def Ev.LADDER_DONE : Nat := 0x080C
/-- R310. -/
def Ev.TILE_RESET_TIMEOUT : Nat := 0x080D
/-- R310. -/
def Ev.TILE_ISOLATED : Nat := 0x080E
/-- R310. -/
def Ev.ISOLATION_FAILED : Nat := 0x080F
/-- R310. -/
def Ev.TILE_READMITTED : Nat := 0x0810
/-- R310. -/
def Ev.READMIT_FAILED : Nat := 0x0811
/-- R310. -/
def Ev.PWRCYC_REQUESTED : Nat := 0x0812
/-- R336. -/
def Ev.TIME_ESTABLISHED : Nat := 0x0C01
/-- R336. -/
def Ev.TIME_JOINED : Nat := 0x0C02
/-- R336. -/
def Ev.TIME_MISMATCH : Nat := 0x0C03
/-- R336. -/
def Ev.TIME_STEPPED : Nat := 0x0C04
/-- R336. -/
def Ev.TBS_FAULT : Nat := 0x0C05
/-- R336. -/
def Ev.TENDRIL_UP : Nat := 0x0C06
/-- R336. -/
def Ev.TENDRIL_DOWN : Nat := 0x0C07
/-- R336. -/
def Ev.ROUTES_CHANGED : Nat := 0x0C08
/-- R336. -/
def Ev.STALL_LATE : Nat := 0x0C09
/-- R336. -/
def Ev.JOB_SKEW : Nat := 0x0C0A
/-- R336. -/
def Ev.REMOTE_TIMEOUT : Nat := 0x0C0B
/-- R336. -/
def Ev.MASTER_YIELDED : Nat := 0x0C0C
/-- R369. -/
def Ev.LINK_UP : Nat := 0x0501
/-- R369. -/
def Ev.LINK_DOWN : Nat := 0x0502
/-- R369. -/
def Ev.LINK_RETRAIN : Nat := 0x0503
/-- R369. -/
def Ev.LINK_REPLAY : Nat := 0x0504
/-- R369. -/
def Ev.REPLAY_LIMIT : Nat := 0x0505
/-- R369. -/
def Ev.FEC_UNCORR : Nat := 0x0506
/-- R369. -/
def Ev.MSG_ERROR : Nat := 0x0507
/-- R369. -/
def Ev.DUP_COMMAND : Nat := 0x0508
/-- R369. -/
def Ev.PORT_EVENT_LOSS : Nat := 0x0509
/-- R393. -/
def Ev.FUSE_LOADED : Nat := 0x0A01
/-- R393. -/
def Ev.FUSE_ECC : Nat := 0x0A02
/-- R393. -/
def Ev.IMAGE_ACCEPTED : Nat := 0x0A03
/-- R393. -/
def Ev.CFG_DEFAULTED : Nat := 0x0A04
/-- R393. -/
def Ev.SECTION_SKIPPED : Nat := 0x0A05
/-- R393. -/
def Ev.BOOT_BIST_DONE : Nat := 0x0A06
/-- R393. -/
def Ev.RELEASED : Nat := 0x0A07
/-- R393. -/
def Ev.MASTER_ASSUMED : Nat := 0x0A08
/-- R393. -/
def Ev.LC_ADVANCED : Nat := 0x0A09
/-- R393. -/
def Ev.LC_INVALID : Nat := 0x0A0A
/-- R393. -/
def Ev.GRANT_BEGIN : Nat := 0x0A0B
/-- R393. -/
def Ev.GRANT_END : Nat := 0x0A0C
/-- R393. -/
def Ev.AUTH_FAIL : Nat := 0x0A0D
/-- R412. -/
def Ev.BIST_STARTED : Nat := 0x0901
/-- R412. -/
def Ev.BIST_PASS : Nat := 0x0902
/-- R412. -/
def Ev.BIST_FAIL : Nat := 0x0903
/-- R412. -/
def Ev.BIST_ABORTED : Nat := 0x0904
/-- R412. -/
def Ev.PACK_LOADED : Nat := 0x0905
/-- R412. -/
def Ev.PACK_REJECTED : Nat := 0x0906
/-- R431. -/
def Ev.ECC_CORRECTED : Nat := 0x0B01
/-- R431. -/
def Ev.ECC_UNCORR : Nat := 0x0B02
/-- R431. -/
def Ev.REG_PARITY : Nat := 0x0B03
/-- R431. -/
def Ev.FSM_FAULT : Nat := 0x0B04
/-- R431. -/
def Ev.TEND_FAULT : Nat := 0x0B05
/-- R431. -/
def Ev.DEGRADED : Nat := 0x0B06
/-- R431. -/
def Ev.DEGRADED_CLEARED : Nat := 0x0B07
/-- R431. -/
def Ev.SAFE_ENTERED : Nat := 0x0B08
/-- R431. -/
def Ev.TRELLIS_SILENT : Nat := 0x0B09
/-- R431. -/
def Ev.TAKEOVER_START : Nat := 0x0B0A
/-- R431. -/
def Ev.TAKEOVER_DONE : Nat := 0x0B0B
/-- R431. -/
def Ev.STANDBY_LOST : Nat := 0x0B0C
/-- R431. -/
def Ev.STANDBY_RESTORED : Nat := 0x0B0D
/-- R431. -/
def Ev.CHECKPOINT_FAIL : Nat := 0x0B0E
/-- R431. -/
def Ev.MIRROR_PATH : Nat := 0x0B0F
/-- R455. -/
def Ev.COOP_STARTED : Nat := 0x0E01
/-- R455. -/
def Ev.COOP_ENDED : Nat := 0x0E02
/-- R455. -/
def Ev.COOP_FAILED : Nat := 0x0E03
/-- R455. -/
def Ev.COOP_FAULT : Nat := 0x0E04
/-- R455. -/
def Ev.COOP_TRIG_LOST : Nat := 0x0E05
/-- R455. -/
def Ev.COOP_LOADED : Nat := 0x0E06
/-- R455. -/
def Ev.COOP_LOAD_REJECT : Nat := 0x0E07

/-! ### PG_ERROR bits -/

/-- A PG_ERROR bit: the page and the bit (the page of lane 0 or cooper 0 for PRESS and COOP). -/
structure ErrBit where
  page : Nat
  bit : Nat
deriving DecidableEq, Repr

/-- The same bit in the page of lane or cooper `n`. -/
def ErrBit.lane (e : ErrBit) (n : Nat) : ErrBit := ⟨e.page + n, e.bit⟩

/-- R57. -/
def Er.TIME_SYNC_MISMATCH : ErrBit := ⟨0x03, 0⟩
/-- R57. -/
def Er.TIME_TBS_DEV : ErrBit := ⟨0x03, 1⟩
/-- R57. -/
def Er.TIME_TBS_MISS : ErrBit := ⟨0x03, 2⟩
/-- R57. -/
def Er.TIME_TBS_GLITCH : ErrBit := ⟨0x03, 3⟩
/-- R57. -/
def Er.TIME_GCN_PARITY : ErrBit := ⟨0x03, 4⟩
/-- R95. -/
def Er.CORK_WAVE_CRC : ErrBit := ⟨0x04, 0⟩
/-- R95. -/
def Er.CORK_FSM_CODE : ErrBit := ⟨0x04, 1⟩
/-- R95. -/
def Er.CORK_REF_PARITY : ErrBit := ⟨0x04, 2⟩
/-- R95. -/
def Er.CORK_ARG_BUSY : ErrBit := ⟨0x04, 3⟩
/-- R98. -/
def Er.PWR_TELEM_FORMAT : ErrBit := ⟨0x26, 0⟩
/-- R98. -/
def Er.PWR_CTX_RUNNING : ErrBit := ⟨0x26, 1⟩
/-- R98. -/
def Er.PWR_FLOOR_RANGE : ErrBit := ⟨0x26, 2⟩
/-- R131. -/
def Er.HARV_ARG_BUSY : ErrBit := ⟨0x07, 0⟩
/-- R131. -/
def Er.HARV_MANIFEST_WRITE : ErrBit := ⟨0x07, 1⟩
/-- R131. -/
def Er.HARV_FSM_CODE : ErrBit := ⟨0x07, 2⟩
/-- R131. -/
def Er.HARV_QUEUE_ECC : ErrBit := ⟨0x07, 3⟩
/-- R131. -/
def Er.HARV_STREAM_WRITE : ErrBit := ⟨0x07, 4⟩
/-- R134. -/
def Er.CANE_DATA_PARITY : ErrBit := ⟨0x06, 0⟩
/-- R134. -/
def Er.CANE_TAG_PARITY : ErrBit := ⟨0x06, 1⟩
/-- R134. -/
def Er.CANE_QUEUE_ECC_CORR : ErrBit := ⟨0x06, 2⟩
/-- R134. -/
def Er.CANE_LOCATE_FAIL : ErrBit := ⟨0x06, 3⟩
/-- R163. -/
def Er.PRESS_VERIFY : ErrBit := ⟨0x08, 0⟩
/-- R163. -/
def Er.PRESS_DECODE : ErrBit := ⟨0x08, 1⟩
/-- R163. -/
def Er.PRESS_BUF_ECC : ErrBit := ⟨0x08, 2⟩
/-- R163. -/
def Er.PRESS_REF_FETCH : ErrBit := ⟨0x08, 3⟩
/-- R163. -/
def Er.PRESS_FSM_CODE : ErrBit := ⟨0x08, 4⟩
/-- R191. -/
def Er.CELL_DESC_CRC : ErrBit := ⟨0x18, 0⟩
/-- R191. -/
def Er.CELL_INDEX_CRC : ErrBit := ⟨0x18, 1⟩
/-- R191. -/
def Er.CELL_SUPER_BAD : ErrBit := ⟨0x18, 2⟩
/-- R191. -/
def Er.CELL_FABRIC : ErrBit := ⟨0x18, 3⟩
/-- R191. -/
def Er.CELL_ARG_BUSY : ErrBit := ⟨0x18, 4⟩
/-- R191. -/
def Er.CELL_CONFIG : ErrBit := ⟨0x18, 5⟩
/-- R191. -/
def Er.CELL_MAP_ECC : ErrBit := ⟨0x18, 6⟩
/-- R193. -/
def Er.RACK_FABRIC_READ : ErrBit := ⟨0x19, 0⟩
/-- R193. -/
def Er.RACK_REMOTE_META : ErrBit := ⟨0x19, 1⟩
/-- R193. -/
def Er.RACK_HOLD_LOST : ErrBit := ⟨0x19, 2⟩
/-- R193. -/
def Er.RACK_ARG_BUSY : ErrBit := ⟨0x19, 3⟩
/-- R193. -/
def Er.RACK_QUEUE_ECC : ErrBit := ⟨0x19, 4⟩
/-- R218. -/
def Er.TRACE_ARG_BUSY : ErrBit := ⟨0x1B, 0⟩
/-- R218. -/
def Er.TRACE_RING_FABRIC : ErrBit := ⟨0x1B, 1⟩
/-- R218. -/
def Er.TRACE_BUF_ECC : ErrBit := ⟨0x1B, 2⟩
/-- R218. -/
def Er.TRACE_PKT_FORMAT : ErrBit := ⟨0x1B, 3⟩
/-- R218. -/
def Er.TRACE_FSM_CODE : ErrBit := ⟨0x1B, 4⟩
/-- R220. -/
def Er.TRACEF_BCAST_FAIL : ErrBit := ⟨0x1C, 0⟩
/-- R220. -/
def Er.TRACEF_ARG_RANGE : ErrBit := ⟨0x1C, 1⟩
/-- R275. -/
def Er.TASTE_SAMPLE_CHECK : ErrBit := ⟨0x1D, 0⟩
/-- R275. -/
def Er.TASTE_BUF_ECC : ErrBit := ⟨0x1D, 1⟩
/-- R275. -/
def Er.TASTE_TASTER_DISAGREE : ErrBit := ⟨0x1D, 2⟩
/-- R275. -/
def Er.TASTE_FSM_CODE : ErrBit := ⟨0x1D, 3⟩
/-- R275. -/
def Er.TASTE_ARG_BUSY : ErrBit := ⟨0x1D, 4⟩
/-- R277. -/
def Er.DIGEST_PARTIAL_CRC : ErrBit := ⟨0x1F, 0⟩
/-- R277. -/
def Er.DIGEST_FABRIC : ErrBit := ⟨0x1F, 1⟩
/-- R277. -/
def Er.DIGEST_ARG_BUSY : ErrBit := ⟨0x1F, 2⟩
/-- R277. -/
def Er.DIGEST_FSM_CODE : ErrBit := ⟨0x1F, 3⟩
/-- R279. -/
def Er.NUMW_COLLECT_CRC : ErrBit := ⟨0x1E, 0⟩
/-- R279. -/
def Er.NUMW_ARG_BUSY : ErrBit := ⟨0x1E, 1⟩
/-- R279. -/
def Er.NUMW_FSM_CODE : ErrBit := ⟨0x1E, 2⟩
/-- R311. -/
def Er.HANG_AUDIT_CRC : ErrBit := ⟨0x20, 0⟩
/-- R311. -/
def Er.HANG_FSM_CODE : ErrBit := ⟨0x20, 1⟩
/-- R311. -/
def Er.HANG_ARG_BUSY : ErrBit := ⟨0x20, 2⟩
/-- R311. -/
def Er.HANG_FENCE_NACK : ErrBit := ⟨0x20, 3⟩
/-- R313. -/
def Er.RSET_ISO_FAILED : ErrBit := ⟨0x21, 0⟩
/-- R313. -/
def Er.RSET_FSM_CODE : ErrBit := ⟨0x21, 1⟩
/-- R313. -/
def Er.RSET_ARG_BUSY : ErrBit := ⟨0x21, 2⟩
/-- R313. -/
def Er.RSET_PORT_ABANDON : ErrBit := ⟨0x21, 3⟩
/-- R337. -/
def Er.FED_TRAIN : ErrBit := ⟨0x25, 0⟩
/-- R337. -/
def Er.FED_FRAME_CRC : ErrBit := ⟨0x25, 1⟩
/-- R337. -/
def Er.FED_NO_ROUTE : ErrBit := ⟨0x25, 2⟩
/-- R337. -/
def Er.FED_DOMAIN : ErrBit := ⟨0x25, 3⟩
/-- R337. -/
def Er.FED_ARG_BUSY : ErrBit := ⟨0x25, 4⟩
/-- R337. -/
def Er.FED_FSM_CODE : ErrBit := ⟨0x25, 5⟩
/-- R370. -/
def Er.LINK_FEC_UNCORR : ErrBit := ⟨0x1A, 0⟩
/-- R370. -/
def Er.LINK_FLIT_CRC : ErrBit := ⟨0x1A, 1⟩
/-- R370. -/
def Er.LINK_REPLAY_LIMIT : ErrBit := ⟨0x1A, 2⟩
/-- R370. -/
def Er.LINK_TRAIN : ErrBit := ⟨0x1A, 3⟩
/-- R370. -/
def Er.LINK_MSG_FORMAT : ErrBit := ⟨0x1A, 4⟩
/-- R370. -/
def Er.LINK_CREDIT : ErrBit := ⟨0x1A, 5⟩
/-- R370. -/
def Er.LINK_FIFO : ErrBit := ⟨0x1A, 6⟩
/-- R370. -/
def Er.LINK_BUF_ECC : ErrBit := ⟨0x1A, 7⟩
/-- R370. -/
def Er.LINK_FSM_CODE : ErrBit := ⟨0x1A, 8⟩
/-- R370. -/
def Er.LINK_ARG_BUSY : ErrBit := ⟨0x1A, 9⟩
/-- R394. -/
def Er.BOOT_FUSE_ECC_CORR : ErrBit := ⟨0x01, 0⟩
/-- R394. -/
def Er.BOOT_FUSE_ECC_UNCORR : ErrBit := ⟨0x01, 1⟩
/-- R394. -/
def Er.BOOT_XSPI : ErrBit := ⟨0x01, 2⟩
/-- R394. -/
def Er.BOOT_IMAGE_CHECK : ErrBit := ⟨0x01, 3⟩
/-- R394. -/
def Er.BOOT_FLOOD : ErrBit := ⟨0x01, 4⟩
/-- R394. -/
def Er.BOOT_STAGE_ECC : ErrBit := ⟨0x01, 5⟩
/-- R413. -/
def Er.BIST_ARG_BUSY : ErrBit := ⟨0x22, 0⟩
/-- R413. -/
def Er.BIST_PACK_CHECK : ErrBit := ⟨0x22, 1⟩
/-- R413. -/
def Er.BIST_PACK_FABRIC : ErrBit := ⟨0x22, 2⟩
/-- R413. -/
def Er.BIST_FSM_CODE : ErrBit := ⟨0x22, 3⟩
/-- R432. -/
def Er.REL_SCRUB_UNCORR : ErrBit := ⟨0x23, 0⟩
/-- R432. -/
def Er.REL_ECHO : ErrBit := ⟨0x23, 1⟩
/-- R432. -/
def Er.REL_KAT : ErrBit := ⟨0x23, 2⟩
/-- R432. -/
def Er.REL_LANE_CHECK : ErrBit := ⟨0x23, 3⟩
/-- R432. -/
def Er.REL_ARG_BUSY : ErrBit := ⟨0x23, 4⟩
/-- R432. -/
def Er.REL_FSM_CODE : ErrBit := ⟨0x23, 5⟩
/-- R434. -/
def Er.PAIR_MIRROR_PATH : ErrBit := ⟨0x24, 0⟩
/-- R434. -/
def Er.PAIR_CKPT_CRC : ErrBit := ⟨0x24, 1⟩
/-- R434. -/
def Er.PAIR_SELECTOR : ErrBit := ⟨0x24, 2⟩
/-- R434. -/
def Er.PAIR_FSM_CODE : ErrBit := ⟨0x24, 3⟩
/-- R456. -/
def Er.COOP_STORE_ECC : ErrBit := ⟨0x27, 0⟩
/-- R456. -/
def Er.COOP_SIGNATURE : ErrBit := ⟨0x27, 1⟩
/-- R456. -/
def Er.COOP_WATCHDOG : ErrBit := ⟨0x27, 2⟩
/-- R456. -/
def Er.COOP_ARG_BUSY : ErrBit := ⟨0x27, 3⟩
/-- R456. -/
def Er.COOP_FSM_CODE : ErrBit := ⟨0x27, 4⟩
/-- R473. -/
def Er.GLB_ARG_BUSY : ErrBit := ⟨0x00, 0⟩
/-- R473. -/
def Er.GLB_ACCESS : ErrBit := ⟨0x00, 1⟩
/-- R473. -/
def Er.GLB_FSM_CODE : ErrBit := ⟨0x00, 2⟩
/-- R396. -/
def Er.LIFE_BURN_VERIFY : ErrBit := ⟨0x02, 0⟩
/-- R396. -/
def Er.LIFE_FSM_CODE : ErrBit := ⟨0x02, 1⟩
/-- R396. -/
def Er.LIFE_ARG_BUSY : ErrBit := ⟨0x02, 2⟩
/-- R397. -/
def Er.AUTH_ARG_BUSY : ErrBit := ⟨0x2A, 0⟩
/-- R397. -/
def Er.AUTH_ENTROPY : ErrBit := ⟨0x2A, 1⟩
/-- R397. -/
def Er.AUTH_FSM_CODE : ErrBit := ⟨0x2A, 2⟩
/-- R477. -/
def Er.SPURW_ARG_BUSY : ErrBit := ⟨0x29, 0⟩
/-- R477. -/
def Er.SPURW_WINDOW_TIMEOUT : ErrBit := ⟨0x29, 1⟩
/-- R477. -/
def Er.SPURW_WINDOW_CRC : ErrBit := ⟨0x29, 2⟩
/-- R478. -/
def Er.TRAY_I3C_PARITY : ErrBit := ⟨0x2B, 0⟩
/-- R478. -/
def Er.TRAY_I3C_REFUSED : ErrBit := ⟨0x2B, 1⟩

/-- How many PG_ERROR bits each page allocates (PG_CAPS.ERRORS, R459). -/
def errorCount (page : Nat) : Nat :=

  if page == 0x00 then 3 else
  if page == 0x01 then 6 else
  if page == 0x02 then 3 else
  if page == 0x03 then 5 else
  if page == 0x04 then 4 else
  if page == 0x06 then 4 else
  if page == 0x07 then 5 else
  if 0x08 ≤ page ∧ page ≤ 0x17 then 5 else
  if page == 0x18 then 7 else
  if page == 0x19 then 5 else
  if page == 0x1A then 10 else
  if page == 0x1B then 5 else
  if page == 0x1C then 2 else
  if page == 0x1D then 5 else
  if page == 0x1E then 3 else
  if page == 0x1F then 4 else
  if page == 0x20 then 4 else
  if page == 0x21 then 4 else
  if page == 0x22 then 4 else
  if page == 0x23 then 6 else
  if page == 0x24 then 4 else
  if page == 0x25 then 6 else
  if page == 0x26 then 3 else
  if page == 0x27 ∨ page == 0x28 then 5 else
  if page == 0x29 then 3 else
  if page == 0x2A then 3 else
  if page == 0x2B then 2 else
  0

/-- How many PG_EVENT bits each page allocates (PG_CAPS.EVENTS, R459), by the event tables of the chapters. -/
def eventCount (page : Nat) : Nat :=
  if page == Pg.CORK then 13 else if page == Pg.PWR then 9 else if page == Pg.HARV then 9 else if page == Pg.CANE then 3
  else if 0x08 ≤ page ∧ page ≤ 0x17 then 8 else if page == Pg.CELL then 9 else if page == Pg.RACK then 6
  else if page == Pg.TRACE then 8 else if page == Pg.TASTE then 6 else if page == Pg.DIGEST then 3
  else if page == Pg.NUMW then 2 else if page == Pg.HANG then 10 else if page == Pg.RSET then 8
  else if page == Pg.FED then 12 else if page == Pg.LINK then 9 else if page == Pg.BOOT then 8
  else if page == Pg.LIFE then 2 else if page == Pg.AUTH then 3 else if page == Pg.BIST then 6
  else if page == Pg.REL then 9 else if page == Pg.PAIR then 6
  else if page == 0x27 ∨ page == 0x28 then 7 else 0

/-- The page and PG_EVENT bit of an event code, none for a code that sets no bit (HARV_ABORTED, R130). `unit` chooses the
lane of a press event and the cooper of a cooper event (R162, R455). -/
def eventBit (code unit : Nat) : Option (Nat × Nat) :=
  let low := code % 256
  match code / 256 with
  | 0x01 => some (Pg.CORK, low - 1)
  | 0x02 => if low ≤ 9 then some (Pg.HARV, low - 1) else if low ≤ 12 then some (Pg.CANE, low - 10) else none
  | 0x03 => some (Pg.PRESS + unit % 16, low - 1)
  | 0x04 => if low ≤ 9 then some (Pg.CELL, low - 1) else some (Pg.RACK, low - 10)
  | 0x05 => some (Pg.LINK, low - 1)
  | 0x06 => some (Pg.TRACE, low - 1)
  | 0x07 => if low ≤ 6 then some (Pg.TASTE, low - 1) else if low ≤ 9 then some (Pg.DIGEST, low - 7)
            else some (Pg.NUMW, low - 10)
  | 0x08 => if low ≤ 10 then some (Pg.HANG, low - 1) else some (Pg.RSET, low - 11)
  | 0x09 => some (Pg.BIST, low - 1)
  | 0x0A => if low ≤ 8 then some (Pg.BOOT, low - 1) else if low ≤ 10 then some (Pg.LIFE, low - 9)
            else some (Pg.AUTH, low - 11)
  | 0x0B => if low ≤ 9 then some (Pg.REL, low - 1) else some (Pg.PAIR, low - 10)
  | 0x0C => some (Pg.FED, low - 1)
  | 0x0D => some (Pg.PWR, low - 1)
  | 0x0E => some (Pg.COOP + unit % 2, low - 1)
  | _ => none

end Sys2Proof.Machine
end

