-- ==== Sys2Proof/Machine/State.lean ====
section
/-! DEFINITION. The state of the hub as plain data: every register, buffer, queue, counter, mode and pin the spec gives the
block, its reset value beside each field (`:=`), and after it the width and the rule that names it. A record whose fields
carry no note is described by its own line. -/

namespace Sys2Proof.Machine

/-- State of a stop domain (R96): EMPTY, RUNNING, STOPPING, STOPPED. -/
inductive DomState where
  | empty | running | stopping | stopped
deriving DecidableEq, Repr

/-- State of a tile at its spur (R477). -/
inductive TileState where
  | parked | inContext | outOfService | underTest
deriving DecidableEq, Repr

/-- State of a cooper (R438). -/
inductive CoopState where
  | empty | idle | running | waiting | halted | loading
deriving DecidableEq, Repr

/-- What a WAITING script waits for: an event (with its deadline, if any), a delay, a GCN, the end of a command or of a remote access
(R443, R444, R445, R447). `rd` is the register that receives the result. -/
inductive CoopWait where
  | none
  | event (rd : Nat) (filter : Word) (deadline : Option Nat)
  | delay (deadline : Nat)
  | gcn (rd : Nat) (value : Nat) (joined : Bool)
  | remote (rd : Nat)
deriving DecidableEq, Repr

/-- Who waits for the answer to a tendril request (R333). -/
inductive RemoteWho where
  | none
  | coop (n : Nat) (rd : Nat) (write : Bool)
  | port (tag : Nat) (count : Nat) (write : Bool)
  | unit
deriving DecidableEq, Repr

/-- What a rack-port message is, for the report of its delivery (R349). -/
inductive MsgSrc where
  | resp
  | event (code : Nat)
  | loss
  | rackData (obj : Nat) (pos : Nat) (last : Bool)
  | other
deriving DecidableEq, Repr

/-- GCN, dividers, clock changes and TB_SYNC (chapter 02). -/
structure TimeBase where
  hclk : Nat := 0 -- 64; R43, R39 (02_time_base.md); HCLK periods since power-good, the count every interval timer uses
  powered : Bool := false -- 1; R372, R482 (13_startup_lifecycle.md, 18_integration.md); PWR_GOOD level
  gcn : Nat := 0 -- 64; R37 (02_time_base.md); GCN, counted while a time base exists
  restartAt : Option Nat := none -- 64+1; R35 (02_time_base.md); G_r of a divider restart that is still to come
  chgW : Option (Nat × Nat) := none -- 2+64+1; R54 (02_time_base.md); pending west clock change: divider code, G_c
  chgE : Option (Nat × Nat) := none -- 2+64+1; R54 (02_time_base.md); pending east clock change: divider code, G_c
  armGcn : Nat := 0 -- 64; R51 (02_time_base.md); TIME_TBS_GCN as armed
  armEpoch : Nat := 0 -- 32; R51, R60 (02_time_base.md); epoch number as armed
  armComp : Int := 0 -- 8 signed; R51 (02_time_base.md); TIME_TBS_COMP as armed
  armedAt : Option Nat := none -- 64+1; R52 (02_time_base.md); HCLK count at which an arm was accepted
  lastPulse : Option Nat := none -- 64+1; R50 (02_time_base.md); HCLK count of the last valid TB_SYNC edge
  pulseGcn : Option Nat := none -- 64+1; R53 (02_time_base.md); GCN of the arming pulse, or of the last repeated pulse as expected
  lastSync : Nat := 0 -- 64; R49 (02_time_base.md); HCLK count of the last SYNC CHECK sent
  resyncAt : Option (Nat × Nat) := none -- 64+11+1; R49 (02_time_base.md); HCLK count at which a RESYNC flood was last forwarded, and its origin
  numwFrom : Nat := 0 -- 64; R269, R271 (09_tasting.md); GCN of the last numeric watch window end or GCN step
deriving DecidableEq, Repr

/-- A manual stall source (R82, R500): mask, apply GCN, edges still to count (none = until STALL_CLEAR). -/
structure ManualStall where
  mask : Nat := 0
  ga : Nat := 0
  left : Option Nat := none
deriving DecidableEq, Repr

/-- One stop domain, one per context slot (chapters 03, 17). -/
structure Domain where
  st : DomState := .empty -- 2; R96 (03_cork.md); EMPTY, RUNNING, STOPPING or STOPPED
  tag : Nat := 0 -- 16; R471 (17_registers.md); job context tag
  priv : Nat := 0 -- 2; R471, R474 (17_registers.md); 0 USER, 1 SYSTEM, 2 SECURE
  profile : Nat := 0 -- 16; R471, R244 (17_registers.md, 08_number_formats.md); arithmetic profile
  seed : Nat := 0 -- 64; R471, R235 (17_registers.md, 08_number_formats.md); context seed
  scn : Nat := 0 -- 64; R40 (02_time_base.md); reference SCN
  stepping : Bool := false -- 1; R96, R74 (03_cork.md); a STEP is in progress
  startAt : Option Nat := none -- 64+1; R73 (03_cork.md); Gs of an accepted RESUME or STEP
  stopScn : Option Nat := none -- 64+1; R68 (03_cork.md); target T of the stop in force or pending
  stopAtGcn : Option Nat := none -- 64+1; R69 (03_cork.md); G of a stop in GCN mode
  predP : Nat := 0 -- 64; R66, R75 (03_cork.md); stop period predicted without stalls
  stopGcn : Nat := 0 -- 64; R96, R119 (03_cork.md, 04_harvest.md); period of the first gated edge
  stopEpoch : Nat := 0 -- 32; R38, R106 (02_time_base.md, 04_harvest.md); epoch of stopGcn
  final : Nat := 0 -- 8; R71, R119 (03_cork.md, 04_harvest.md); final status of the stop in force
  consistent : Bool := false -- 1; R71, R120 (03_cork.md, 04_harvest.md); the stop in force ended OK
  timeAligned : Bool := false -- 1; R119 (04_harvest.md); the stop in force came from a STOP in GCN mode
  xpkgLate : Bool := false -- 1; R78, R119 (03_cork.md, 04_harvest.md); its package stopped late
  stopNow : Bool := false -- 1; R71, R288 (03_cork.md, 10_hang_reset.md); stopped by a stop-now wave
  firstReport : Option Nat := none -- 64+1; R71 (03_cork.md); SCN of the first STOPPED report
  reached : Option Nat := none -- 64+1; R71 (03_cork.md); HCLK count at which the reference reached T (in GCN mode, of its stop period)
  held : Bool := false -- 1; R69, R71 (03_cork.md); the stop period has come: the first gated edge is past
  skewed : Bool := false -- 1; R71 (03_cork.md); a STOPPED report of the stop in progress disagreed
  power : Nat := 0 -- 4; R82, R90 (03_cork.md); POWER duty in sixteenths
  hold : Option Nat := none -- 64+1; R83 (03_cork.md); HCLK count at which the TRACE hold began
  losslessOff : Bool := false -- 1; R83 (03_cork.md); lossless mode left off after HOLD_LIMIT
  clkStall : Bool := false -- 1; R54, R82 (02_time_base.md, 03_cork.md); the CLKCHG stall edge is due
  manual : Option ManualStall := none -- 16+64+32+1; R82, R500 (03_cork.md); MANUAL source
  mask : Nat := 0 -- 16; R80, R82 (03_cork.md); effective mask in force
  ga : Nat := 0 -- 64; R80 (03_cork.md); apply GCN of the pattern in force
  edge : Nat := 0 -- 4; R80 (03_cork.md); number modulo 16 of the next TCLK edge of the pattern
  bare : Nat := 0 -- 16; R82 (03_cork.md); the mask in force less the MANUAL source's share
  waiting : List (Nat × Nat × Nat) := [] -- (64+16+16)n; R80, R82 (03_cork.md); decided patterns still to apply: Ga, mask, mask less MANUAL
  wavesOut : List (Nat × Nat) := [] -- (64+64)n; R70, R80, R84 (03_cork.md); stall and cap waves on the trellis: HCLK count sent, Ga
  fedMask : Nat := 0 -- 16; R330 (11_federation.md); last effective local mask sent to the anchor
  memberMasks : List (Nat × Nat) := [] -- (11+16)n; R330 (11_federation.md); at the anchor, latest mask of each member
  failedDecant : Bool := false -- 1; R124 (04_harvest.md); held by a failed decant
  cap : Nat := 16 -- 5; R84, R90 (03_cork.md); issue cap in force
  capNext : Option (Nat × Nat) := none -- 64+5+1; R84, R90 (03_cork.md); issue cap still to apply: Ga, cap
deriving DecidableEq, Repr

/-- Where a cork command came from, so that its completion is reported there (R20, R75, R358, R443). -/
inductive CorkSrc where
  | reg (r : Req)
  | port (tag : Nat)
  | coop (c : Nat)
  | trigger
  | policy (slot : Nat)
  | peer (tag : Nat)
  | taste (slot : Nat)
  | member (issuer : Nat) (wave : Nat)
  | xpkg (xid : Nat) (tag : Nat)
deriving DecidableEq, Repr

/-- An outstanding STOP, STEP or RESUME of the cork unit (chapter 03). -/
structure CorkOp where
  id : Nat := 0 -- 32; R24 (03_cork.md); identity of the operation inside the cork unit
  op : Nat := 1 -- 4; R96 (03_cork.md); 1 STOP, 2 STEP, 3 RESUME
  src : CorkSrc := .reg .mgmt -- -; R79 (03_cork.md); requester path
  slots : List Nat := [] -- 64; R63 (03_cork.md); stop domains of the scope
  live : List Nat := [] -- 64; R501 (03_cork.md); domains this operation stops, steps or resumes
  kind : Nat := 0 -- 3; R62 (03_cork.md); scope kind
  part : Nat := 0 -- 1; R62 (03_cork.md); partition of a PARTITION scope
  tag : Nat := 0 -- 16; R62 (03_cork.md); job tag of a JOB scope
  fed : Bool := false -- 1; R62 (03_cork.md); federated scope
  xpkg : Bool := false -- 1; R62 (03_cork.md); cross-package scope
  mode : Nat := 0 -- 2; R64 (03_cork.md); target mode
  target : Nat := 0 -- 64; R64 (03_cork.md); T, count or G carried by the wave
  start : Nat := 0 -- 64; R73 (03_cork.md); Gs
  started : Bool := false -- 1; R73 (03_cork.md); Gs of a STEP or RESUME has come and RESUMED is raised
  gateAt : Option Nat := none -- 64+1; R63 (03_cork.md); period on which tiles in no context are gated
  firstSlot : Nat := 0 -- 6; R93, R96 (03_cork.md); lowest slot of the scope
  wave : Nat := 0 -- 8; R318 (11_federation.md); WAVE_ID of a federated wave
  xid : Nat := 0 -- 32; R358 (12_rack_port.md); XID of a cross-package cork
  localDone : Bool := false -- 1; R77 (03_cork.md); own field complete
  localAt : Nat := 0 -- 64; R329 (11_federation.md); HCLK count of the own completion
  fedFinal : Nat := 0 -- 8; R77 (03_cork.md); first member status other than OK
  members : List Nat := [] -- 11n; R329 (11_federation.md); members still to report
  packages : List Nat := [] -- 4n; R78 (03_cork.md); packages still to report
  disagree : Option (Nat × Int) := none -- 14+64+1; R71 (03_cork.md); disagreeing tile of lowest ID and its difference
  silent : Option Nat := none -- 14+1; R71 (03_cork.md); silent tile of lowest ID
  stopNowSent : Bool := false -- 1; R71 (03_cork.md); stop-now wave sent
  loose : List Nat := [] -- 14n; R63 (03_cork.md); tiles in no context that a STOP gates
  found : Bool := false -- 1; R62 (03_cork.md); some hub of a federated JOB scope holds a domain of the tag
deriving DecidableEq, Repr

/-- A caught or offered memory delivery (R107, R493). -/
structure Delivery where
  be : Nat := 0
  dest : Nat := 0
  err : Bool := false
  mtag : Nat := 0
  arrive : Nat := 0
  data : List (BitVec 8) := []
deriving DecidableEq, Repr

/-- What the spur of an armed tile waits for (R68, R69, R71): nothing, a schedule cycle, a GCN, the stop of a domain
whose scope holds the tile (R63), or its next edge. -/
inductive Arm where
  | none
  | scn (t : Nat)
  | gcn (g : Nat)
  | slot (z : Nat)
  | now
deriving DecidableEq, Repr

/-- A trellis wave on its way to a spur (R63, R70, R71, R73, R75): what the spur will be armed with, and for RESUME and STEP the start GCN;
`viaB` once copy A proved bad and the spur waits for copy B, 2 HCLK later. -/
structure SpurWave where
  arm : Arm := .none
  start : Option Nat := Option.none
  stopNow : Bool := false
  sentAt : Nat := 0
  viaB : Bool := false
deriving DecidableEq, Repr

/-- Digest descriptor of a spur (R261). -/
structure DigDesc where
  range : Nat := 0
  lbase : Nat := 0
deriving DecidableEq, Repr

/-- State of a tasting request at its spur (R247 to R249). -/
structure SpurTaste where
  req : Nat := 0
  armAt : Nat := 0
  armScn : Nat := 0
  started : Bool := false
  written : Bool := false
  ns : Nat := 0
  header : List (BitVec 8) := []
  desc : OpDesc := {}
deriving DecidableEq, Repr

/-- One tile and its spur (R9, chapters 03, 04, 07, 09, 10, 17, 18). -/
structure Tile where
  st : TileState := .parked -- 2; R477 (17_registers.md); PARKED, IN_CONTEXT, OUT_OF_SERVICE or UNDER_TEST
  bad : Bool := false -- 1; R377, R477 (13_startup_lifecycle.md, 17_registers.md); in the fused bad-tile list
  slot : Nat := 0 -- 6; R471 (17_registers.md); slot when in a context
  priv : Nat := 0 -- 2; R471 (17_registers.md)
  tag : Nat := 0 -- 16; R471 (17_registers.md)
  seed : Nat := 0 -- 64; R471, R235 (17_registers.md, 08_number_formats.md)
  profile : Nat := 0 -- 16; R471 (17_registers.md)
  cap : Nat := 16 -- 5; R84, R106 (03_cork.md, 04_harvest.md); issue cap in force
  scn : Nat := 0 -- 64; R40 (02_time_base.md); shadow SCN
  scnValid : Bool := false -- 1; R41 (02_time_base.md)
  arm : Arm := .none -- 64+2; R68 to R71 (03_cork.md); stop armed in the spur
  gated : Bool := false -- 1; R477 (17_registers.md); armed stop in force
  gateGcn : Nat := 0 -- 64; R106 (04_harvest.md); period of the first gated edge
  gateEpoch : Nat := 0 -- 32; R106 (04_harvest.md)
  stopNow : Bool := false -- 1; R106 (04_harvest.md); stopped by a stop-now wave
  missed : List Nat := [] -- 64n; R70 (03_cork.md); apply GCNs of stall and cap waves of which both copies were bad here
  oldMask : Option (Nat × Nat) := none -- 16+4+1; R70, R80 (03_cork.md); pattern a spur goes on with that missed the domain's, and its edge number modulo 16 when that took force
  wave : Option SpurWave := none -- -; R70 (03_cork.md); trellis wave sent to the spur and not yet received
  start : Option Nat := none -- 64+1; R73 (03_cork.md); Gs at which the gate opens
  report : Option Nat := none -- 64+1; R71 (03_cork.md); SCN of a STOPPED report on its way to the root
  reportAt : Nat := 0 -- 64; R16, R71 (01_architecture.md, 03_cork.md); HCLK count at which that report was sent
  reported : Bool := false -- 1; R71 (03_cork.md); its STOPPED report reached the root
  catchBuf : List Delivery := [] -- 64 x 640; R72, R107 (03_cork.md, 04_harvest.md); catch buffer
  dlvLast : Option Delivery := none -- 640+1; R107, R491, R493 (04_harvest.md, 18_integration.md); T_DLV_*: the delivery last presented to the tile, with its ERR
  rdOut : Nat := 0 -- 16; R106 (04_harvest.md); outstanding reads
  wrOut : Nat := 0 -- 16; R106 (04_harvest.md); outstanding writes
  discard : Bool := false -- 1; R502 (18_integration.md); deliveries discarded until both counts reach 0
  abandoned : Bool := false -- 1; R295 (10_hang_reset.md)
  strobeFault : Bool := false -- 1; R287 (10_hang_reset.md)
  holdReq : Bool := false -- 1; R200, R477 (07_trace.md, 17_registers.md)
  inReset : Bool := false -- 1; R298 (10_hang_reset.md); T_RST asserted
  resetAt : Nat := 0 -- 64; R298 (10_hang_reset.md); HCLK count at which T_RST was asserted
  rstAck : Bool := false -- 1; R298 (10_hang_reset.md); T_RST_ACK came during the reset pulse and stays high
  strobed : Bool := false -- 1; R287 (10_hang_reset.md); its SCN strobe came on the present edge
  strobeDue : Bool := false -- 1; R287 (10_hang_reset.md); its strobe fault report is on its way
  trigs : List (Nat × Nat) := [] -- 4n; R213 (07_trace.md); triggers (source, window) on their way to the hub
  fresh : Bool := false -- 1; R303 (10_hang_reset.md); assigned since its slot last resumed
  oos : Bool := false -- 1; R299, R302 (10_hang_reset.md); out-of-service map bit of a tile under test
  strobeSeen : Bool := false -- 1; R298 (10_hang_reset.md); a strobe came during the isolation watch
  isoFailed : Bool := false -- 1; R298, R300 (10_hang_reset.md); its isolation failed
  isolated : Bool := false -- 1; R298, R299 (10_hang_reset.md); clock enable low and reset asserted
  watchAt : Option Nat := none -- 64+1; R298 (10_hang_reset.md); HCLK count at which the isolation watch began
  watchWhy : Nat := 0 -- 8; R314 (10_hang_reset.md); REASON recorded with the isolation
  readmit : Nat := 0 -- 2; R302 (10_hang_reset.md); re-admission: 0 none, 1 LBIST, 2 reset
  lowPower : Nat := 0 -- 4; R195 (07_trace.md); low-power state code, 0 when awake
  dig : List DigDesc := [] -- 4 x 96; R261 (09_tasting.md); digest descriptors
  partialSum : Nat := 0 -- 64; R261, R262 (09_tasting.md); partial of the last pass
  numw : List Nat := [] -- 8 x 16; R268 (09_tasting.md); current-window counters
  firstScn : List (Option Nat) := [] -- 8 x 65; R270 (09_tasting.md); SCN latched at the first strobe of a kind
  sramAddr : Nat := 0 -- 17; R477 (17_registers.md); SPUR_SRAM_ADDR with AUTO_INC
  taste : Option SpurTaste := none -- -; R247 (09_tasting.md); sampling request
  halfHigh : Bool := false -- 1; R252 (09_tasting.md); the next HALF sample covers columns 16 to 31
  tbuf : List (List (BitVec 32)) := [] -- 512 x 32; R198 (07_trace.md); trace buffer, packet by packet, oldest first
  branch : List Bool := [] -- 27; R195, R202 (07_trace.md); outcomes of the pending BRANCH packet
  branchGcn : Nat := 0 -- 64; R203 (07_trace.md); time-stamp of its last outcome
  chain : Option Nat := none -- 64+1; R203 (07_trace.md); time-stamp of the last packet in the delta chain
  lastSyncAt : Nat := 0 -- 64; R204 (07_trace.md); HCLK count of the last SYNC
  syncDue : Option Nat := none -- 3+1; R204 (07_trace.md); reason of the SYNC that must precede the next packet
  lost : Nat := 0 -- 24; R199 (07_trace.md); packets lost since the last OVERFLOW
  lostFirst : Nat := 0 -- 64; R199 (07_trace.md)
  lostLast : Nat := 0 -- 64; R199 (07_trace.md)
deriving DecidableEq, Repr

/-- The power loop (R85 to R92). -/
structure Power where
  winStart : Nat := 0 -- 64; R85 (03_cork.md); GCN, or count of R43, at which the window in progress began
  short : Bool := false -- 1; R89 (03_cork.md); the window in progress is short and is discarded
  sample : Option Nat := none -- 24+1; R86 (03_cork.md); latest valid sample, mW
  sampleAt : Nat := 0 -- 64; R86 (03_cork.md); HCLK count of its arrival
  everSample : Bool := false -- 1; R86 (03_cork.md)
  missFrom : Nat := 0 -- 64; R86 (03_cork.md); HCLK count from which PWR_TELEM_TIMEOUT counts
  missRaised : Bool := false -- 1; R86 (03_cork.md); TELEM_MISSING was raised for the present gap
  sampleInWin : Bool := false -- 1; R89 (03_cork.md); a sample arrived in the window in progress
  prevSample : Option Nat := none -- 24+1; R89 (03_cork.md); sample in force before this window
  prevAt : Nat := 0 -- 64; R86, R89 (03_cork.md); HCLK count of its arrival
  disagree : Nat := 0 -- 8; R87, R88 (03_cork.md); consecutive disagreeing windows
  agree : Nat := 0 -- 8; R87 (03_cork.md); consecutive agreeing windows
  low : Nat := 0 -- 3; R90 (03_cork.md); consecutive low windows
  level : Nat := 0 -- 5; R90 (03_cork.md); reduction level L
  calLeft : Nat := 0 -- 9; R88 (03_cork.md); windows a calibration still needs
  calM : Nat := 0 -- 40; R88 (03_cork.md); sum of M
  calE : Nat := 0 -- 40; R88 (03_cork.md); sum of E
deriving DecidableEq, Repr

/-- A harvest record of the lane stream (R103). -/
structure Rec where
  type : Nat := 0
  flags : Nat := 0
  tile : Nat := 0
  offset : Nat := 0
  payload : List (BitVec 8) := []
deriving DecidableEq, Repr

/-- A gap table entry (R108, R119). -/
structure Gap where
  region : Bool := false
  id : Nat := 0
  reason : Nat := 0
  missing : Nat := 0
  line : Nat := 0
  gcn : Nat := 0
deriving DecidableEq, Repr

/-- The harvest cursor of a column (R109, R113); `silent` counts the HCLK in which its present spur could send (R114). -/
structure CaneCur where
  phase : Nat := 0
  tiles : List Nat := []
  sub : Nat := 0
  tries : Nat := 0
  silent : Nat := 0
deriving DecidableEq, Repr

/-- What a harvest has of a tile of its scope (R108, R119, R120). `gapMiss` and `gapPieces` are what GAP records already stand for, `shutOut` a tile left out
for good, `sramSent` that an SRAM record of it was taken. -/
structure TileCap where
  slot : Option Nat := none
  selected : Bool := true
  gap : Bool := false
  placed : Bool := false
  offset : Nat := 0
  lane : Nat := 0
  tcs : Bool := false
  quiet : Bool := false
  catchCount : Nat := 0
  catchSeen : Nat := 0
  sramSeen : Nat := 0
  sramSent : Bool := false
  shutOut : Bool := false
  gapMiss : Nat := 0
  gapPieces : Nat := 0
  flagged : Bool := false
deriving DecidableEq, Repr

/-- A region of a harvest's scope (R116, R119): `next` is the next piece to hand out, `left` the pieces not yet written. -/
structure RegionCap where
  index : Nat := 0
  slot : Nat := 0
  mode : Nat := 0
  bad : Bool := false
  pieces : Nat := 0
  next : Nat := 0
  left : Nat := 0
  base : Nat := 0
  len : Nat := 0
  digest : Nat := 0
  done : Bool := false
deriving DecidableEq, Repr

/-- The harvest and decant engine (chapter 04). HARV_STATUS.PHASE shows its phase. -/
structure Harv where
  op : Nat := 0 -- 4; R126 (04_harvest.md); 1 HARVEST, 2 DECANT in progress or held, 0 none
  req : Nat := 0 -- 3; R118 (04_harvest.md); requester code, 6 POLICY
  policySlot : Option Nat := none -- 6+1; R292 (10_hang_reset.md); slot whose policy started the harvest
  peerTag : Option Nat := none -- 16+1; R305 (10_hang_reset.md); peer policy that started the harvest
  cause : Nat := 0 -- 16; R118 (04_harvest.md)
  issuer : Nat := 0 -- 11; R118, R128 (04_harvest.md)
  txn : Option Nat := none -- 8+1; R128 (04_harvest.md); transaction of a member harvest
  xsrc : Option (Nat × Nat) := none -- 32+16+1; R128, R359 (04_harvest.md, 12_rack_port.md); XID of a harvest from another package and TAG of its XPKG message
  federated : Bool := false -- 1; R118 (04_harvest.md)
  sel : Nat := 0 -- 9; R115 (04_harvest.md); HARV_SEL as applied
  rect : Nat := 0 -- 31; R115 (04_harvest.md); HARV_RECT as applied
  range : Nat := 0 -- 26; R115 (04_harvest.md); HARV_RANGE as applied
  snapLen : Nat := 0 -- 8; R115 (04_harvest.md)
  slots : List Nat := [] -- 64; R109 (04_harvest.md); stop domains of the scope
  denied : List Nat := [] -- 64; R127 (04_harvest.md); SECURE domains without a grant
  vintage : Nat := 0 -- 32; R100 (04_harvest.md)
  entry : Nat := 0 -- 10; R172 (06_cellar_racking.md); index entry of the vintage
  ref : Nat := 0 -- 32; R115 (04_harvest.md); reference vintage, 0 if none
  openGcn : Nat := 0 -- 64; R118 (04_harvest.md)
  openEpoch : Nat := 0 -- 32; R118 (04_harvest.md)
  pinAsked : Bool := false -- 1; R175 (06_cellar_racking.md)
  crash : Bool := false -- 1; R129 (04_harvest.md)
  first : Nat := 0 -- 6; R130 (04_harvest.md); lowest slot of the scope
  admitted : Bool := false -- 1; R127 (04_harvest.md)
  waveAt : Nat := 0 -- 64; R110 (04_harvest.md); HCLK count of the harvest wave
  drained : Bool := false -- 1; R110 (04_harvest.md); the drain wait has ended
  cur : Tab CaneCur := {} -- 128 entries; R109 (04_harvest.md); cane cursors
  caps : Tab TileCap := {} -- 16384 entries; R119 (04_harvest.md); tile table in the making
  gaps : List Gap := [] -- 16 B each; R119 (04_harvest.md); gap table
  gapSeen : List Nat := [] -- 11; R130 (04_harvest.md); reasons for which HARV_GAP was raised
  regions : List RegionCap := [] -- up to 256; R116 (04_harvest.md)
  snapFrom : Nat := 0 -- 64; R210 (07_trace.md); ring offset of the snapshot's oldest byte
  snapTotal : Nat := 0 -- 34; R210 (07_trace.md); bytes of the snapshot
  snapPiece : Nat := 0 -- 24; R104 (04_harvest.md); next piece of the snapshot
  stateDone : Bool := false -- 1; R130 (04_harvest.md); STATE_DONE was raised
  stalled : Bool := false -- 1; R176 (06_cellar_racking.md); CELLAR_STALLED raised for this harvest
  ended : Option Nat := none -- 8+1; R127 (04_harvest.md); final status of an early end
  closed : Bool := false -- 1; R128 (04_harvest.md); the own manifest is written
  final : Nat := 0 -- 8; R126 (04_harvest.md); final status of the own field
  manifestChain : List Nat := [] -- casks; R170 (06_cellar_racking.md)
  manifest : List (BitVec 8) := [] -- bytes; R118 (04_harvest.md); manifest read by a decant
  dStep : Nat := 0 -- 3; R123 (04_harvest.md); step of a decant
  dLane : Nat := 0 -- 5; R123 (04_harvest.md); lane a decant reads next
  dSlot : Nat := 0 -- 6; R122 (04_harvest.md)
  dDomain : Nat := 0 -- 8; R122 (04_harvest.md)
  memStatus : Nat := 0 -- 8; R128 (04_harvest.md); first non-OK member or package status
  memLeft : List Nat := [] -- 11n; R128 (04_harvest.md); members still to report
  xid : Nat := 0 -- 32; R128 (04_harvest.md); XID of a cross-package harvest
  pkgLeft : List Nat := [] -- 4n; R128 (04_harvest.md); packages still to report
  refMap : List (Nat × Nat × Nat) := [] -- 4+64+64 x 16,384; R148 (05_press.md); reference cask map: lane, first stream position, cask
  abortWait : Bool := false -- 1; R127 (04_harvest.md); ABORT waits for records whose reference is still being fetched
  argsFrom : List (Nat × Nat × List (BitVec 8)) := [] -- R333 (11_federation.md); HARVEST_ARGS received, by source and TXN
deriving DecidableEq, Repr

/-- A cane slot (R102): the data word, its 4 parity bits, the 16-bit tag. -/
structure CaneSlot where
  data : BitVec 32 := 0
  parity : BitVec 4 := 0xF
  tag : BitVec 16 := 0x8000
deriving DecidableEq, Repr

/-- One cane (chapters 01, 04). -/
structure CaneSt where
  down : Bool := false -- 1; R26, R135 (01_architecture.md, 04_harvest.md)
  turning : Option (Bool × Nat) := none -- 1+64+1; R26 (01_architecture.md); direction and end of a turn
  broken : Bool := false -- 1; R135 (04_harvest.md)
  breakRow : Nat := 0 -- 7; R135 (04_harvest.md)
  breakValid : Bool := false -- 1; R135 (04_harvest.md)
  parityErrs : Nat := 0 -- 16; R135 (04_harvest.md)
  mode : Nat := 0 -- 2; R135 (04_harvest.md)
  suspect : Bool := false -- 1; R113 (04_harvest.md)
  locate : Option Nat := none -- 64+1; R135 (04_harvest.md); HCLK count at which LOCATE began
  peak : Nat := 0 -- 15; R135 (04_harvest.md)
  queue : List Rec := [] -- 16 KiB; R114 (04_harvest.md); framed records waiting for the lane
  slot : CaneSlot := {} -- 32+4+16; R102 (04_harvest.md); the word in the cane's last slot: data, parity, tag
  sor : CaneSlot := {} -- 32+4+16; R102 (04_harvest.md); the first word of the payload that ended there
  harvTurn : Nat := 0 -- 7; R19, R27 (01_architecture.md); column whose harvest record the cane carried last
  traceCol : Nat := 0 -- 7; R19, R27 (01_architecture.md); column whose trace packet the cane carried last
  traceTurn : Option Nat := none -- 14+1; R27, R198 (01_architecture.md, 07_trace.md); tile of the column whose trace packet was sent last
  patterns : Nat := 0 -- 64; R402 (14_self_test.md); CLASS 2 pattern words sent down the cane by a BIST
deriving DecidableEq, Repr

/-- A LOCATOR entry being built (R149). -/
structure LocEnt where
  idx : Nat := 0
  pos : Nat := 0
  type : Nat := 0
  usesRef : Bool := false
  raw : Bool := false
deriving DecidableEq, Repr

/-- One press lane (chapter 05). -/
structure LaneSt where
  eccDue : Bool := false -- 1; R159, R415 (05_press.md, 15_faults_degraded.md); an uncorrectable word waits in the lane's buffers for the next block
  mode : Nat := 0 -- 3; R164 (05_press.md); 0 IDLE, 1 ENCODE, 2 DECODE, 3 RAW_ONLY, 4 RETIRED
  bistOk : Bool := false -- 1; R161 (05_press.md); passed BIST since it retired
  isOpen : Bool := false -- 1; R139 (05_press.md); a stream is open
  pos : Nat := 0 -- 64; R139 (05_press.md); stream position of the next byte
  casks : List Nat := [] -- R154 (05_press.md); chain so far, oldest first
  used : Nat := 0 -- 25; R169 (06_cellar_racking.md); bytes written in the last cask
  firstHdr : Option Nat := none -- 32+1; R169 (06_cellar_racking.md); FIRST_HDR of the last cask
  caskPos : Nat := 0 -- 64; R169 (06_cellar_racking.md); stream position of the last cask's first byte
  tail : List Nat := [] -- R154 (05_press.md); tail reserve
  locRows : Nat := 0 -- 8; R149 (05_press.md)
  locY0 : Nat := 0 -- 7; R149 (05_press.md)
  loc : List LocEnt := [] -- R149, R150 (05_press.md); entries filled so far
  extPos : Option Nat := none -- 64+1; R151 (05_press.md)
  blocks : Nat := 0 -- 32; R139 (05_press.md)
  recs : Nat := 0 -- 32; R151 (05_press.md)
  raw : Nat := 0 -- 64; R139 (05_press.md); record bytes
  cur : Option Rec := none -- R142 (05_press.md); record in the encoder
  curPos : Nat := 0 -- 25; R142 (05_press.md); raw position reached in it
  curStart : Nat := 0 -- 64; R149 (05_press.md); stream position of its first block header
  curUsesRef : Bool := false -- 1; R149 (05_press.md)
  curRaw : Bool := false -- 1; R149 (05_press.md)
  refWait : Bool := false -- 1; R148 (05_press.md); waiting for a reference fetch
  refRec : Option (List (BitVec 8)) := none -- 8 x 4 KiB; R148 (05_press.md); reference staging
  refMiss : Bool := false -- 1; R148 (05_press.md); REF_UNAVAILABLE raised for this vintage
  held : Bool := false -- 1; R154 (05_press.md); output held for want of a cask
  heldRaw : Bool := false -- 1; R159 (05_press.md); the held block failed its verification
  rr : Nat := 0 -- 4; R114 (04_harvest.md); entry queue served next, round-robin
  resv : List Nat := [] -- R170 (06_cellar_racking.md); casks reserved for the LOCATOR
  region : Option Nat := none -- 8+1; R111 (04_harvest.md); region of the piece in the encoder
  last : Option (Nat × Nat × Nat) := none -- 8+14+24+1; R127 (04_harvest.md); type, tile and offset of the record written last
  spill : List (BitVec 8) := [] -- 8n; R154 (05_press.md); bytes of the block in hand that no cask holds yet
  hdrDue : Bool := false -- 1; R154 (05_press.md); the header of the block in hand is not written yet
  blockPos : Nat := 0 -- 64; R154 (05_press.md); stream position of the block in hand
  blockHdr : Option Nat := none -- 32+1; R155 (05_press.md); FIRST_HDR of the last cask before the block in hand
  blockCasks : Nat := 0 -- 32; R155 (05_press.md); casks of the chain before the block in hand
  heldFlush : Option Nat := none -- 25+1; R156 (05_press.md); where FLUSH_BLOCK ended the held block
  limit : Nat := 0 -- 8; R165 (05_press.md); PRESS_VERIFY.LIMIT as latched for the stream
deriving DecidableEq, Repr

/-- A vintage index entry (R172). -/
structure Vint where
  number : Nat := 0
  ref : Nat := 0
  state : Nat := 0
  flags : Nat := 0
  seq : Nat := 0
  manifest : Nat := 0
  closeGcn : Nat := 0
  epoch : Nat := 0
  casks : Nat := 0
  pressed : Nat := 0
  chain : List Nat := []
  hasSecure : List Nat := []
  rackHold : List (Nat × Nat) := [] -- lead hub and HCLK count of its last renewal, R174, R186
  decantHold : Bool := false
deriving DecidableEq, Repr

/-- The cellar (chapter 06). -/
structure Cellar where
  base : Nat := 0 -- 64; R166 (06_cellar_racking.md); base in force
  units : Nat := 0 -- 7; R166 (06_cellar_racking.md); size in force
  caskCode : Nat := 0 -- 4; R166 (06_cellar_racking.md)
  ringMib : Nat := 0 -- 14; R166 (06_cellar_racking.md); ring size after rounding
  pool : Nat := 0 -- 24; R167 (06_cellar_racking.md); pool casks
  metaWho : List Nat := [] -- 3n; R180 (06_cellar_racking.md); who waits for the outstanding metadata accesses, oldest first: 0 the harvest, else the CELL_CMD
  usedCasks : List Nat := [] -- R170 (06_cellar_racking.md); casks not free, ascending (the free map)
  nextSeq : Nat := 1 -- 32; R173 (06_cellar_racking.md)
  index : Tab Vint := {} -- 1024 x 64 B; R172 (06_cellar_racking.md); vintage index by entry
  ops : List (Nat × Nat) := [] -- 128 per channel; R484 (18_integration.md); outstanding accesses: tag, unit
  ringHolds : List (Nat × Nat) := [] -- R183, R209 (06_cellar_racking.md, 07_trace.md); leads whose RACK_TRACE reads this ring, and when each last renewed
  formatAt : Option Nat := none -- 64+1; R192 (06_cellar_racking.md); FORMAT in progress since
deriving DecidableEq, Repr

/-- A racking request (R183). -/
structure RackReq where
  id : Nat := 0
  hub : Nat := 0
  vintage : Nat := 0
  objs : Nat := 0
  trace : Bool := false
  crash : Bool := false
  waits : Bool := false
deriving DecidableEq, Repr

/-- A RACK of a vintage in another hub's cellar that is being checked there before it is accepted (R189): who asked, and whether R189 row 3 applies. -/
structure RackAsk where
  req : RackReq := {}
  external : Bool := false
  coop : Option (Nat × Nat × Nat) := none
deriving DecidableEq, Repr

/-- The racking engine (R182 to R187). -/
structure Rack where
  queue : List RackReq := [] -- 32 entries; R183 (06_cellar_racking.md)
  active : Option RackReq := none -- R183 (06_cellar_racking.md)
  nextId : Nat := 0 -- 8; R194 (06_cellar_racking.md)
  step : Nat := 0 -- 3; R183, R186 (06_cellar_racking.md); 0 none, 1 hold asked, 2 registers asked, 3 metadata read, 4 sending, 5 all sent
  got : List (Nat × Nat) := [] -- 20+32 each; R186 (06_cellar_racking.md); registers read from a remote hub
  left : List Nat := [] -- 18; R183 (06_cellar_racking.md); objects still to send, the present one first
  pos : Nat := 0 -- 64; R194 (06_cellar_racking.md); position of the next segment
  doneObj : Nat := 0 -- 5; R187 (06_cellar_racking.md); object of the first segment not reported delivered
  donePos : Nat := 0 -- 64; R187 (06_cellar_racking.md); its position
  renewAt : Nat := 0 -- 64; R186 (06_cellar_racking.md)
  suspended : Bool := false -- 1; R187 (06_cellar_racking.md)
  ask : Option RackAsk := none -- R189 (06_cellar_racking.md); a request whose vintage is being looked up at its hub
  used : Bool := false -- 1; R194 (06_cellar_racking.md); a request has been queued since reset
deriving DecidableEq, Repr

/-- The two frame buffers of a cane, or of the hub (R206): the open frame, the closed one that waits to be written, and the rows whose packets
the router lost (R207). -/
structure FrameBuf where
  words : List (BitVec 32) := []
  since : Nat := 0
  loss : Bool := false
  ready : Option (List (BitVec 32)) := none
  readyLoss : Bool := false
  seq : Nat := 0
  noted : List Nat := []
  lost : Nat := 0
  lostFirst : Nat := 0
  lostLast : Nat := 0
  lossCount : Nat := 0
deriving DecidableEq, Repr

/-- The trace router and ring (chapter 07). -/
structure TraceSt where
  frames : Tab FrameBuf := {} -- 129 entries; R206 (07_trace.md); per cane, and 128 for hub frames
  everWrapped : Bool := false -- 1; R217 (07_trace.md); RING_WRAPPED was raised since CLEAR_RING
  snapAt : Option Nat := none -- 64+1; R210 (07_trace.md); P_snap
  snapLeft : Nat := 0 -- 34; R210 (07_trace.md); bytes of the snapshot not yet copied
  postLeft : Option Nat := none -- 24+1; R214 (07_trace.md); frames of the post-trigger window left
  lossAt : Option Nat := none -- 64+1; R217 (07_trace.md); HCLK count of the last TRACE_LOSS
  ringMode : Nat := 0 -- 1; R208 (07_trace.md); RING_MODE in force
  evLoss : Tab Nat := {} -- 15 x 16; R219 (07_trace.md)
  bcastAt : Option Nat := none -- 64+1; R220 (07_trace.md)
  stopping : Bool := false -- 1; R216 (07_trace.md); STOP waits for packets in spurs whose cane carries nothing upward
deriving DecidableEq, Repr

/-- A sample buffer of the hub core (R246). `conf` is TASTE_SLOT and TASTE_SLOT_FMT as they were at the request, once they have been written since (R281). -/
structure SampBuf where
  tile : Nat := 0
  slot : Nat := 0
  req : Nat := 0
  data : List (BitVec 8) := []
  ready : Bool := false
  tasters : List (Nat × List Nat) := []
  busyOn : Option Nat := none
  conf : Option (Nat × Nat) := none
deriving DecidableEq, Repr

/-- Tasting (chapter 09). -/
structure Taste where
  bufs : Tab SampBuf := {} -- 8 x 24 KiB; R246 (09_tasting.md); reserved sample buffers
  cursor : Tab Nat := {} -- 64 x 14; R246 (09_tasting.md); slot cursors
  rrSlot : Nat := 0 -- 6; R246 (09_tasting.md); slot of the round in progress
  rrLeft : Nat := 0 -- 8; R246 (09_tasting.md); requests left to it
  lastTick : Nat := 0 -- 64; R246 (09_tasting.md)
  nextReq : Nat := 0 -- 32; R250 (09_tasting.md); REQ
  stats : Tab Nat := {} -- 64 x 8 x 32; R276 (09_tasting.md); key slot * 8 + counter
  lossAt : Option Nat := none -- 64+1; R274 (09_tasting.md)
  evidSample : List (BitVec 8) := [] -- 24 KiB; R257, R276 (09_tasting.md)
  evidWant : List (BitVec 8) := [] -- 8 KiB; R276 (09_tasting.md)
  evidSlot : Nat := 0 -- 6; R257 (09_tasting.md)
  bistOk : List Nat := [] -- 4; R273 (09_tasting.md); tasters that passed BIST since they retired
  retired : List Nat := [] -- 4; R255 (09_tasting.md)
  profiles : List (List (BitVec 8)) := [] -- 16 x 32 B; R242 (08_number_formats.md); image profiles
deriving DecidableEq, Repr

/-- A digest pass (R262 to R267): `arg` is DIGEST_ARG as accepted, `own` says that the hub's own part has been read, `nextAt` when it repeats. -/
structure Pass where
  active : Bool := false
  slot : Nat := 0
  set : Nat := 0
  arg : Nat := 0
  sum : Nat := 0
  own : Bool := false
  tiles : Nat := 0
  startedAt : Nat := 0
  hasBase : Bool := false
  fedLeft : List Nat := []
  fedBad : Bool := false
  fedReq : Option (Nat × Nat) := none
  missing : Option Nat := none
  diff : List Nat := []
deriving DecidableEq, Repr

/-- A pass that repeats until ABORT (R264): DIGEST_ARG as accepted, the HCLK count at which it is issued again, and whether its first pass has given
DIGEST_EXPECT. -/
structure Again where
  ext : Bool := false
  arg : Nat := 0
  nextAt : Nat := 0
  hasBase : Bool := false
deriving DecidableEq, Repr

/-- A numeric watch pair (R270, R280). -/
structure NumwPair where
  last : Nat := 0
  total : Nat := 0
  maxTile : Option Nat := none
  maxCount : Nat := 0
  first : Option (Nat × Nat) := none
  fired : Bool := false
deriving DecidableEq, Repr

/-- A hang monitor with the policy in progress on its slot (R284 to R293). -/
structure Monitor where
  st : Nat := 0 -- 2; R312 (10_hang_reset.md); 0 OFF, 1 LEARNING, 2 ADAPTIVE, 3 FIRED
  timer : Nat := 0 -- 36; R284 (10_hang_reset.md); in 1/16 HCLK
  durs : List Nat := [] -- 16 x 36; R284 (10_hang_reset.md); newest first, in 1/16 HCLK
  openSkip : Bool := false -- 1; R285 (10_hang_reset.md); the open epoch is not recorded
  fenced : Bool := false -- 1; R294 (10_hang_reset.md); FENCED shown
  fenceAt : Option Nat := none -- 64+1; R294 (10_hang_reset.md); HCLK count of the fence request
  fenceAck : Bool := false -- 1; R485 (18_integration.md)
  abandon : Bool := false -- 1; R295 (10_hang_reset.md); FENCE_ABANDON asserted
  policy : Nat := 0 -- 2; R292 (10_hang_reset.md); policy in progress, 0 none
  pstep : Nat := 0 -- 3; R292 (10_hang_reset.md); 0 to begin, 1 cork, 2 fence, 3 harvest, 4 ladder
  pstatus : Nat := 0 -- 8; R293 (10_hang_reset.md)
  pcause : Nat := 0 -- 16; R292 (10_hang_reset.md); event code
  ptile : Option Nat := none -- 14+1; R292 (10_hang_reset.md); tile named by the fault
  retryAt : Nat := 0 -- 64; R293 (10_hang_reset.md)
  pdue : Bool := false -- 1; R292 (10_hang_reset.md); the step in progress has ended with pstatus
deriving DecidableEq, Repr

/-- An audit on its way (R288): the slot, the HCLK count of its period Gq, whether a partial beat asked for it (R283), and, once the spurs have latched, the tiles that
disagree with their differences. -/
structure Audit where
  slot : Nat := 0
  gq : Nat := 0
  names : Bool := false
  diffs : Option (List (Nat × Int)) := none
deriving DecidableEq, Repr

/-- A peer policy in progress (R305): `step` 1 cork, 2 harvest, 3 reset, 4 over; `due` says that the step's work has ended with `status`;
`retryAt` is the HCLK count at which a harvest refused with BUSY is offered again. -/
structure Peer where
  tag : Nat := 0
  pkg : Nat := 0
  policy : Nat := 0
  step : Nat := 0
  left : List Nat := []
  due : Bool := false
  status : Nat := 0
  retryAt : Nat := 0
deriving DecidableEq, Repr

/-- A beat report on its way up the trellis (R282). -/
structure Beat where
  slot : Nat := 0
  scn : Nat := 0
  count : Nat := 0
  at_ : Nat := 0
deriving DecidableEq, Repr

/-- Hang controller state outside the monitors (R288 to R290, R304, R305). -/
structure HangCtl where
  auditAt : Nat := 0 -- 64; R288 (10_hang_reset.md); HCLK count of the last audit wave
  beats : List Beat := [] -- 4 x 6+64+15; R282 (10_hang_reset.md); beat reports on the trellis, oldest first
  auditSlot : Nat := 63 -- 6; R288 (10_hang_reset.md); slot audited last
  audits : List Audit := [] -- 4 x 6+64; R288 (10_hang_reset.md); audits in flight, oldest first
  reports : List (Nat × Nat × Int) := [] -- R71, R291 (03_cork.md, 10_hang_reset.md); slot, tile and SCN difference of tiles handed over as divergent
  lastPeer : List (Nat × List Nat × Nat) := [] -- R304 (10_hang_reset.md); package, tags, HCLK count of copies seen
  peers : List Peer := [] -- R305 (10_hang_reset.md); running peer policies
deriving DecidableEq, Repr

/-- The reset ladder (R297 to R302). -/
structure Ladder where
  active : Bool := false -- 1; R314 (10_hang_reset.md)
  level : Nat := 0 -- 3; R297 (10_hang_reset.md)
  since : Nat := 0 -- 64; R297 (10_hang_reset.md)
  part : Nat := 0 -- 1; R297 (10_hang_reset.md)
  slot : Nat := 0 -- 6; R297 (10_hang_reset.md)
  tile : Nat := 0 -- 14; R297 (10_hang_reset.md)
  drain : List Nat := [] -- 64; R295, R297 (10_hang_reset.md); slots whose fence must drain before the reset
  begun : Bool := false -- 1; R297 (10_hang_reset.md); the tiles of the level have been reset
  restarted : Bool := false -- 1; R375 (13_startup_lifecycle.md); the hub core was restarted by the level
  tilesLeft : List Nat := [] -- R298 (10_hang_reset.md); tiles of the level still in reset or under watch
  tiles : List Nat := [] -- R307 (10_hang_reset.md); tiles the level has reset
  failed : Option Nat := none -- 14+1; R300 (10_hang_reset.md); tile whose isolation failed
  waiting : Bool := false -- 1; R301 (10_hang_reset.md); waits for a harvest or decant
  hubsLeft : List Nat := [] -- R300 (10_hang_reset.md); hubs that have not reported release
  next : List Nat := [] -- 64; R305 (10_hang_reset.md); further slots for a CONTEXT level
  reportTo : Option Nat := none -- 11+1; R297, R333 (10_hang_reset.md, 11_federation.md); lead that ordered the level
  isolateAfter : Option Nat := none -- 14+1; R292 (10_hang_reset.md); tile isolated after a RESET policy
  counts : Tab Nat := {} -- 8 x 32; R314 (10_hang_reset.md)
deriving DecidableEq, Repr

/-- One tendril (R316 to R321). -/
structure Tendril where
  st : Nat := 0 -- 2; R338 (11_federation.md); 0 DOWN, 1 TRAINING, 2 UP, 3 FAILED
  neighbour : Nat := 0 -- 11; R338 (11_federation.md)
  nbValid : Bool := false -- 1; R338 (11_federation.md)
  delay : Nat := 0 -- 4; R319, R338 (11_federation.md)
  crcErrs : Nat := 0 -- 16; R338 (11_federation.md)
  resends : Nat := 0 -- 16; R338 (11_federation.md)
  badRun : Nat := 0 -- 4; R321 (11_federation.md)
  txSeq : Nat := 0 -- 8; R320 (11_federation.md)
  unacked : List (List (BitVec 8)) := [] -- 32 frames; R320 (11_federation.md); oldest first
  waitQ : List (List (BitVec 8)) := [] -- R320 (11_federation.md); class 2 frames not yet sent
  resendRun : Nat := 0 -- 5; R321 (11_federation.md); resends of the oldest frame
  ackAt : Nat := 0 -- 64; R320 (11_federation.md); HCLK count of the last ACK or first unacknowledged send
  rxExpect : Nat := 0 -- 8; R320 (11_federation.md)
  rxUnacked : Nat := 0 -- 4; R320 (11_federation.md); accepted frames not yet acknowledged
  rxAt : Nat := 0 -- 64; R320 (11_federation.md)
  failedAt : Nat := 0 -- 64; R321 (11_federation.md); HCLK count at which the tendril failed or its training began
  echo : Option (Nat × Nat) := none -- 64+32+1; R319 (11_federation.md); TRAIN echo in its turnaround: HCLK count at which it goes, count echoed
  txQ : List (List (BitVec 8)) := [] -- 192n; R318 (11_federation.md); frames the transmitter holds, oldest first
  sending : Option (List (BitVec 8) × Nat) := none -- 192+4+1; R316, R318 (11_federation.md); frame on the wires, and the beat of it they carry
  out : List (List (BitVec 8)) := [] -- 192n; R316 (11_federation.md); frames sent whole on the tendril, oldest first (the TX port)
deriving DecidableEq, Repr

/-- A route entry (R322). -/
structure Route where
  tendril : Nat := 0
  hops : Nat := 0
  valid : Bool := false
  round : Nat := 0
  past : List (Nat × Nat) := []
  age : Nat := 0
deriving DecidableEq, Repr

/-- A pending request to another hub (R332, R333). -/
structure RemoteReq where
  txn : Nat := 0
  dest : Nat := 0
  opcode : Nat := 0
  sentAt : Nat := 0
  who : RemoteWho := .none
  arg : Nat := 0
deriving DecidableEq, Repr

/-- Federation (chapter 11). -/
structure Fed where
  tend : Tab Tendril := {} -- 4 entries; R316 (11_federation.md)
  routes : Tab Route := {} -- 127 entries; R322 (11_federation.md)
  round : Nat := 0 -- 32; R318, R322 (11_federation.md); ROUND of the next ANNOUNCE
  lastAnn : Nat := 0 -- 64; R322 (11_federation.md)
  firstUp : Option Nat := none -- 64+1; R45, R380 (02_time_base.md, 13_startup_lifecycle.md)
  masterSeen : Bool := false -- 1; R380 (13_startup_lifecycle.md); an ANNOUNCE with MASTER set was received
  leads : List Nat := [] -- R185 (06_cellar_racking.md); lead hubs announced
  bcastSeen : List (Nat × Nat × Nat) := [] -- R323 (11_federation.md); SOURCE, OPCODE, TXN of accepted broadcasts
  nextTxn : Nat := 0 -- 8; R333 (11_federation.md)
  reqs : List RemoteReq := [] -- 256; R333 (11_federation.md)
  reqWait : List (RemoteReq × List Byte) := [] -- R333 (11_federation.md); requests that wait for a TXN, with their ARGS, oldest first
  nextWave : Nat := 0 -- 8; R318 (11_federation.md)
  wavesSeen : List (Nat × Nat) := [] -- R328 (11_federation.md); ISSUER, WAVE_ID acted on
  stallsSeen : List (Nat × Nat × Nat) := [] -- R331 (11_federation.md); anchor, job tag, Ga of STALL frames acted on
  joining : Bool := false -- 1; R326 (11_federation.md); asked for time and not yet joined
  jobCheckAt : Nat := 0 -- 64; R332 (11_federation.md)
  jobChecks : List (Nat × Nat × Nat) := [] -- R332 (11_federation.md); slot, Gq, reference of checks in flight
deriving DecidableEq, Repr

/-- A message of the rack port waiting to be sent (R357). -/
structure Msg where
  cls : Nat := 0
  bytes : List (BitVec 8) := []
  src : MsgSrc := .resp
deriving DecidableEq, Repr

/-- A kept response of the TAG table (R363). -/
structure TagEnt where
  tag : Nat := 0
  type : Nat := 0
  resp : List (BitVec 8) := []
  accept : List (BitVec 8) := []
deriving DecidableEq, Repr

/-- The rack port (chapter 12). -/
structure LinkSt where
  since : Nat := 0 -- 64; R353 (12_rack_port.md); HCLK count at which the state was entered
  noAuto : Bool := false -- 1; R354 (12_rack_port.md); down for VERSION
  retrainAt : Nat := 0 -- 64; R353 (12_rack_port.md); HCLK count at which the retrain began
  lockRun : Nat := 0 -- 7; R343 (12_rack_port.md); good codewords in a row
  badRun : Nat := 0 -- 4; R343 (12_rack_port.md)
  cwExpect : Nat := 0 -- 8; R343 (12_rack_port.md)
  rxScr : Nat := 0 -- 58; R341 (12_rack_port.md); descrambler state
  fecEvAt : Option Nat := none -- 64+1; R369 (12_rack_port.md)
  txNext : Nat := 0 -- 12; R346 (12_rack_port.md)
  ackd : Nat := 0 -- 12; R346 (12_rack_port.md); oldest unacknowledged SEQ
  replayBuf : List (List (BitVec 8)) := [] -- 4096 flits; R346 (12_rack_port.md)
  replayPos : Option Nat := none -- 13+1; R348 (12_rack_port.md); replay in progress, index in the buffer
  replayRun : Nat := 0 -- 8; R348 (12_rack_port.md)
  progressAt : Nat := 0 -- 64; R348 (12_rack_port.md)
  replayEvAt : Option Nat := none -- 64+1; R369 (12_rack_port.md)
  rxExpect : Nat := 0 -- 12; R347 (12_rack_port.md)
  rxAny : Bool := false -- 1; R344 (12_rack_port.md); ACK_VALID
  nakOut : Bool := false -- 1; R347 (12_rack_port.md)
  nakAt : Nat := 0 -- 64; R347 (12_rack_port.md)
  lastGood : Nat := 0 -- 64; R354 (12_rack_port.md)
  credit : Tab Nat := {} -- 3 x 16; R352 (12_rack_port.md); peer credits held per class
  credLast : Tab Nat := {} -- 3 x 8; R352 (12_rack_port.md); last CRED_TOTAL seen
  credSent : Nat := 0 -- 8; R352 (12_rack_port.md); COMMAND buffers freed, as last told to the peer
  freed : Tab Nat := {} -- 3 x 8; R344, R352 (12_rack_port.md); own buffers freed
  credClass : Nat := 0 -- 2; R352 (12_rack_port.md)
  initAcked : Bool := false -- 1; R355 (12_rack_port.md); a good INIT was received
  initAckSent : Bool := false -- 1; R355 (12_rack_port.md)
  initPeerAcked : Bool := false -- 1; R355 (12_rack_port.md)
  window : Nat := 256 -- 12; R346, R371 (12_rack_port.md); LINK_WINDOW in force
  timeout : Nat := 1024 -- 16; R371 (12_rack_port.md)
  limit : Nat := 16 -- 8; R371 (12_rack_port.md)
  evClass : Nat := 0x7FFE -- 15; R371 (12_rack_port.md)
  rxMsg : List (BitVec 8) := [] -- R350 (12_rack_port.md); partly received COMMAND bytes
  cmdQ : List Msg := [] -- R351 (12_rack_port.md); COMMAND messages waiting
  evQ : List Msg := [] -- 64 occurrences; R366 (12_rack_port.md)
  bulkQ : List Msg := [] -- R184 (06_cellar_racking.md); RACK_DATA waiting
  partTx : Tab Msg := {} -- R350 (12_rack_port.md); the message each class is sending, with the bytes still to be sent
  inFlight : List (Nat × Msg) := [] -- R349 (12_rack_port.md); messages wholly sent, with their last SEQ, 4096 once it is acknowledged
  reqQ : List (List (BitVec 8) × Nat × Nat) := [] -- (8n+64+32)n; R359, R365 (12_rack_port.md); requests that wait for a relayed access to be answered
  tagTab : List TagEnt := [] -- 64 entries; R363 (12_rack_port.md)
  evLoss : Tab Nat := {} -- 15 x 16; R366, R371 (12_rack_port.md)
  lossDue : Bool := false -- 1; R358 (12_rack_port.md); EVENT_LOSS to be sent
  txOut : List (List (BitVec 8)) := [] -- 640n; R340 (12_rack_port.md); flits handed to the PCS, oldest first
  txFifo : List (List (BitVec 8)) := [] -- 16 x 640; R340 (12_rack_port.md); transmit synchroniser FIFO
  cwPhase : Nat := 0 -- 9; R341 (12_rack_port.md); fourteenths of an HCLK since the codeword on the lane began, of 425
  cwSeq : Nat := 0 -- 8; R341 (12_rack_port.md); CW_SEQ of the next codeword
  txScr : Nat := 2 ^ 58 - 1 -- 58; R341 (12_rack_port.md); scrambler state
  cwOut : List (List Nat) := [] -- (544 x 10)n; R341 (12_rack_port.md); codewords passed to the PMA interface, oldest first
  nextXid : Nat := 0 -- 32; R362 (12_rack_port.md)
deriving DecidableEq, Repr

/-- Start-up (chapter 13). -/
structure Boot where
  fuses : Tab (BitVec 32) := {} -- 512 x 32; R376 (13_startup_lifecycle.md); fuse array, unburnt rows read 0
  life : Nat := 0 -- 3; R386 (13_startup_lifecycle.md); life-cycle state in force
  keyBad : Bool := false -- 1; R382 (13_startup_lifecycle.md); an uncorrectable KEY_HASH row
  fixedRows : List Nat := [] -- 512; R376 (13_startup_lifecycle.md); rows that were corrected when last read
  deadRows : List Nat := [] -- 512; R376 (13_startup_lifecycle.md); rows that were uncorrectable when last read
  stepAt : Nat := 0 -- 64; R373 (13_startup_lifecycle.md); HCLK count at which the present step began
  reading : Bool := false -- 1; R379 (13_startup_lifecycle.md); the master reads the flash
  flooding : Bool := false -- 1; R45 (02_time_base.md); an image flood has begun
  header : List (BitVec 8) := [] -- 64 B; R381 (13_startup_lifecycle.md)
  stage : List (Nat × List (BitVec 8)) := [] -- 256 KiB; R380 (13_startup_lifecycle.md); image bytes received, by offset
  firstFrame : Option Nat := none -- 64+1; R380 (13_startup_lifecycle.md)
  kept : List (BitVec 8) := [] -- 256 KiB; R375 (13_startup_lifecycle.md); sections kept from the last power-up
  released : Bool := false -- 1; R373 (13_startup_lifecycle.md)
  tcsMap : Nat := 0 -- 16; R384 (13_startup_lifecycle.md); TCS_MAP_ID
  packBase : Nat := 0 -- 64; R384 (13_startup_lifecycle.md)
  fuseRegs : Tab (BitVec 32) := {} -- -; R462, R480 (17_registers.md); start-up values of "fuse" and "state" fields after step 6
deriving DecidableEq, Repr

/-- A grant record (R389, R390). -/
structure Grant where
  valid : Bool := false
  rights : Nat := 0
  slots : Nat := 0
  abs : Bool := false
  left : Nat := 0
  epoch : Nat := 0
deriving DecidableEq, Repr

/-- The authorisation unit (R389 to R391). -/
structure Auth where
  grants : Tab Grant := {} -- 4 entries; R389 (13_startup_lifecycle.md)
  nonceAt : Option Nat := none -- 64+1; R389 (13_startup_lifecycle.md); a valid nonce, drawn at this HCLK count
  lockedAt : Option Nat := none -- 64+1; R391 (13_startup_lifecycle.md)
deriving DecidableEq, Repr

/-- A BIST run (R400). `det` is 0 before its downward phase, 1 while its cane is turned for it, 2 after it (R401, R402); `detAt` is the HCLK count at
which the cane lay downward. -/
structure Run where
  target : Nat := 0
  unit : Nat := 0
  packEn : Bool := false
  pack : Nat := 0
  at_ : Nat := 0
  readmit : Bool := false
  wasOos : Bool := false
  wasIn : Bool := false
  det : Nat := 0
  detAt : Option Nat := none
deriving DecidableEq, Repr

/-- A BIST result record (R414). -/
structure BistRes where
  outcome : Nat := 0
  valid : Bool := false
  packUsed : Bool := false
  randomFail : Bool := false
  info : Nat := 0
  got : Nat := 0
  want : Nat := 0
deriving DecidableEq, Repr

/-- A pattern pack slot (R405). -/
structure Pack where
  valid : Bool := false
  target : Nat := 0
  pushed : Bool := false
  len : Nat := 0
  addr : Nat := 0
  checking : Bool := false
deriving DecidableEq, Repr

/-- The BIST controller (chapter 14). -/
structure Bist where
  runs : List Run := [] -- R400 (14_self_test.md); runs in progress
  results : Tab BistRes := {} -- R414 (14_self_test.md); key target * 16384 + unit
  packs : Tab Pack := {} -- 16 entries; R405 (14_self_test.md)
  standbyPass : Bool := false -- 1; R436 (15_faults_degraded.md); HUB_LOGIC PASS on the standby since it was lost
  regbus : Nat := 0 -- 66; R410 (14_self_test.md); JTAG REGBUS register
  ir : Nat := 1 -- 8; R410 (14_self_test.md); TAP instruction, IDCODE after test-logic reset
deriving DecidableEq, Repr

/-- Reliability and the pair (chapter 15). -/
structure RelSt where
  lastTend : Nat := 0 -- 64; R417 (15_faults_degraded.md)
  eccEvAt : Option Nat := none -- 64+1; R431 (15_faults_degraded.md)
  inject : Option (Nat × Nat × Nat) := none -- 4+8+14+1; R430 (15_faults_degraded.md); planted fault: kind, page, tile
  safe : Bool := false -- 1; R428 (15_faults_degraded.md)
  takeoverAt : Nat := 0 -- 64; R435 (15_faults_degraded.md); HCLK count of the trigger
  beatAt : Nat := 0 -- 64; R421, R423 (15_faults_degraded.md); HCLK count of the last heartbeat
  ckptAt : Nat := 0 -- 64; R422 (15_faults_degraded.md)
  ckptBad : Nat := 0 -- 2; R422 (15_faults_degraded.md); consecutive failures
  pathLost : List Nat := [] -- 2; R422 (15_faults_degraded.md)
  mirrorRegs : Tab (Word × Word) := {} -- 32 each; R421 (15_faults_degraded.md); mirrored words that differ in the standby: the word here at its entry, the word there (every other register there holds what it holds here)
  ckptRack : Rack := {} -- R422, R187 (15_faults_degraded.md, 06_cellar_racking.md); checkpoint: racking queue, with the request active there
  ckptGrants : Tab Grant := {} -- R422 (15_faults_degraded.md); checkpoint: grant records
  ckptOos : List Nat := [] -- 14n; R422 (15_faults_degraded.md); checkpoint: the out-of-service map
  ckptStats : List (Nat × Nat) := [] -- (20+32)n; R422 (15_faults_degraded.md); checkpoint: the statistics counters, by address
  ckptGood : Bool := false -- 1; R422 (15_faults_degraded.md)
deriving DecidableEq, Repr

/-- An occurrence of an event (R22). -/
structure Occ where
  code : Nat := 0
  gcn : Nat := 0
  epoch : Nat := 0
  hub : Nat := 0
  unit : Option Nat := none
  masked : Bool := false
  other : Bool := false
  scn : Option Nat := none
  at_ : Nat := 0
deriving DecidableEq, Repr

/-- A script table entry (R439, R457). -/
structure Script where
  entry : Nat := 0
  trigger : Nat := 0
  valid : Bool := false
  pending : Option Occ := none
  code : Nat := 0
  mask : Nat := 0xFFFF
  wdog : Nat := 0
deriving DecidableEq, Repr

/-- One cooper (chapter 16). -/
structure Cooper where
  st : CoopState := .empty -- 3; R438 (16_coopers.md)
  script : Nat := 0 -- 3; R457 (16_coopers.md)
  pc : Nat := 0 -- 10; R457 (16_coopers.md)
  lastStatus : Nat := 0 -- 8; R444 (16_coopers.md)
  cause : Nat := 0 -- 4; R457 (16_coopers.md)
  prog : Tab (BitVec 32) := {} -- 1024 x 32; R437 (16_coopers.md)
  scripts : Tab Script := {} -- 8 entries; R437 (16_coopers.md)
  data : Tab (BitVec 32) := {} -- 256 x 32; R437 (16_coopers.md)
  initData : Tab (BitVec 32) := {} -- 256 x 32; R452 (16_coopers.md); data words of the last accepted load
  w : Tab (BitVec 32) := {} -- 15 x 32; R437 (16_coopers.md); W1 to W15
  stack : List Nat := [] -- 8 x 10; R437 (16_coopers.md); top first
  queue : List Occ := [] -- 16 occurrences; R437, R445 (16_coopers.md)
  transit : List Occ := [] -- R446 (16_coopers.md); occurrences raised and not yet arrived
  trig : List Occ := [] -- R439, R446 (16_coopers.md); occurrences on their way to an EVENT script's filter
  last : Occ := {} -- R446 (16_coopers.md); last occurrence taken
  sig : BitVec 32 := 0xFFFFFFFF -- 32; R448 (16_coopers.md); S
  filter : Option (BitVec 32) := none -- 32+1; R445 (16_coopers.md)
  wdog : Nat := 0 -- 32; R450 (16_coopers.md); remaining budget
  wait : CoopWait := .none -- R445, R447, R444 (16_coopers.md); what a WAITING script waits for
  startW1 : Nat := 0 -- 32; R453 (16_coopers.md); W1 at the original start
  loading : Bool := false -- 1; R452 (16_coopers.md)
deriving DecidableEq, Repr

/-- Output and input pins (R478, R482, R489). -/
structure Pins where
  tileHold : Bool := true -- 1; R482 (18_integration.md); TILE_HOLD, reset TRAY_PINS 1
  pwrcycReq : Bool := false -- 1; R489, R297 (18_integration.md, 10_hang_reset.md)
  tclkDivW : Nat := 0 -- 2; R486 (18_integration.md); TCLK_DIV_W
  tclkDivE : Nat := 0 -- 2; R486 (18_integration.md); TCLK_DIV_E
  tclkRestart : Bool := false -- 1; R486 (18_integration.md)
  tclkSwitchW : Bool := false -- 1; R486 (18_integration.md)
  tclkSwitchE : Bool := false -- 1; R486 (18_integration.md)
  pmaResetN : Bool := false -- 1; R487 (18_integration.md)
  rootActive : Nat := 0 -- 1; R420 (15_faults_degraded.md); ROOT_ACTIVE, the core whose root the spurs obey
  trim : BitVec 128 := 0#128 -- 128; R489 (18_integration.md); TRIM, fuse rows 8 to 11, valid from the end of step 2
  i3cPtr : Nat := 0 -- 20; R466 (17_registers.md); I3C register address
deriving DecidableEq, Repr

/-- The response of the register bus to a requester (R465, R483). -/
structure BusResp where
  value : Nat := 0
  status : Nat := 0
deriving DecidableEq, Repr

/-- A memory the hub addresses: tile SRAM, tile control state, package memory. -/
inductive Space where
  | sram | scan | mem
deriving DecidableEq, Repr

/-- The contents of the addressed memories, each in the canonical form of `Memory.wf`. -/
structure Store where
  sram : List Host.Cell := [] -- 16384 x 64 KiB; R103, R104 (04_harvest.md); tile SRAM, key tile * 65536 + byte
  scan : List Host.Cell := [] -- 16384 x 2048 B; R105 (04_harvest.md); tile control state, key tile * 2048 + byte
  mem : List Host.Cell := [] -- 2^64 B; R166, R167 (06_cellar_racking.md); package memory, key package address
deriving DecidableEq, Repr

/-- A write a command makes to a memory: bytes at rising addresses from `at_`. -/
structure StoreWrite where
  space : Space
  at_ : Nat
  bytes : List Byte
deriving DecidableEq, Repr

/-- Everything the hub holds besides its queue of commands. -/
structure Hub where
  regs : Tab Word := {} -- 1 MiB x 32; R458 (17_registers.md); registers by address (banked ones by bank * 2^20 + address), absent = reset value
  hi : Tab Word := {} -- 32 each; R6, R470 (17_registers.md); HI latches, key requester code * 2^20 + address
  stage : Tab Word := {} -- 8 x 32; R476 (17_registers.md); staged SPUR_SRAM_LO per requester
  bus : Tab BusResp := {} -- 40 each; R465, R469 (17_registers.md); response of the last access of each requester
  owners : Tab Nat := {} -- 256 x 3; R467 (17_registers.md); OWNER of each page
  softReset : List Nat := [] -- 256; R462 (17_registers.md); pages whose SOFT_RESET waits for BUSY to end
  pins : Pins := {}
  time : TimeBase := {}
  doms : Tab Domain := {}
  glbLeft : Nat := 0 -- 7; R471 (17_registers.md); HCLK periods until DONE of GLB_CMD_STATUS returns
  corks : List CorkOp := []
  nextOp : Nat := 0 -- 32; R24 (03_cork.md); identity of the next cork operation
  corkShown : Option Nat := none -- 32+1; R96 (03_cork.md); operation that CORK_STATUS describes
  waveCrc : List (Nat × Nat) := [] -- 43+14 each; R70 (03_cork.md); masked-fault reports on their way up the trellis, with the HCLK count they arrive at
  tiles : Tab Tile := {}
  power : Power := {}
  harv : Harv := {}
  canes : Tab CaneSt := {}
  lanes : Tab LaneSt := {}
  cell : Cellar := {}
  rack : Rack := {}
  trace : TraceSt := {}
  taste : Taste := {}
  digTiles : Pass := {}
  digExt : Pass := {}
  digAgain : List Again := []
  numwHeld : Tab Nat := {} -- 512 x 32; R281 (09_tasting.md); NUMW_CFG in force in the current window, where it has been written in it
  numw : Tab NumwPair := {}
  hang : Tab Monitor := {}
  hangCtl : HangCtl := {}
  ladder : Ladder := {}
  fed : Fed := {}
  link : LinkSt := {}
  boot : Boot := {}
  auth : Auth := {}
  bist : Bist := {}
  rel : RelSt := {}
  coops : Tab Cooper := {}
  freeCount : Nat := 0 -- the model's own; free values drawn so far (log entry 4), no state of the spec
  store : Store := {}
  occs : List Occ := [] -- the model's own; occurrences the command in progress raises (R22, R23), empty between commands
  writes : List StoreWrite := [] -- the model's own; memory writes of the command in progress, empty between commands
deriving DecidableEq, Repr

/-- The machine: the hub and the queue of commands that wait, first in, first out. -/
structure State where
  hub : Hub := {}
  pending : List Instr := []
deriving DecidableEq, Repr

/-- Why the model stops. -/
inductive Fault where
  /-- Raised by a meaning whose operand has a length no wire of the hub can carry (a flit that is not 80 bytes); safe. -/
  | malformed
deriving DecidableEq, Repr

/-- Why a command is turned away by the model. -/
inductive Refusal where
  /-- Raised by the arm of a command that has no meaning yet; safe. -/
  | notModelled (mnemonic : String)
deriving DecidableEq, Repr

/-- The machine right after reset, before PWR_GOOD rises (R372, R479, R482): every register at its reset value (an absent entry of `regs`
reads as the reset value of its table), every unit as its structure's defaults say, memories with nothing listed. -/
def State.reset : State := {}

end Sys2Proof.Machine
end

