-- ==== Sys2Proof/Machine/Ops.lean ====
section
/-! DEFINITION. The named operations every unit uses: registers and their fields, the three memories, raising an event,
recording an error, and running a command. -/

namespace Sys2Proof.Machine

/-! ### Requesters, R464 -/

/-- The requester code of R464. -/
def reqCode : Req → Nat
  | .mgmt => 0
  | .port => 1
  | .jtag => 2
  | .coop0 => 3
  | .coop1 => 4
  | .tendril => 5
  | .i3c => 7

/-- The requester of a cooper. -/
def coopReq (c : Nat) : Req := if c == 0 then .coop0 else .coop1

/-! ### Registers -/

/-- The registers of a page (R458); none for a reserved page. -/
def pageRegs (page : Nat) : List RegDef :=
  if page == Pg.GLB then regsGLB else if page == Pg.BOOT then regsBOOT else if page == Pg.LIFE then regsLIFE
  else if page == Pg.TIME then regsTIME else if page == Pg.CORK then regsCORK else if page == Pg.CANE then regsCANE
  else if page == Pg.HARV then regsHARV else if 0x08 ≤ page ∧ page ≤ 0x17 then regsPRESS
  else if page == Pg.CELL then regsCELL else if page == Pg.RACK then regsRACK else if page == Pg.LINK then regsLINK
  else if page == Pg.TRACE then regsTRACE else if page == Pg.TRACEF then regsTRACEF
  else if page == Pg.TASTE then regsTASTE else if page == Pg.NUMW then regsNUMW else if page == Pg.DIGEST then regsDIGEST
  else if page == Pg.HANG then regsHANG else if page == Pg.RSET then regsRSET else if page == Pg.BIST then regsBIST
  else if page == Pg.REL then regsREL else if page == Pg.PAIR then regsPAIR else if page == Pg.FED then regsFED
  else if page == Pg.PWR then regsPWR else if page == 0x27 ∨ page == 0x28 then regsCOOP
  else if page == Pg.SPURW then regsSPURW else if page == Pg.AUTH then regsAUTH else if page == Pg.TRAY then regsTRAY
  else []

/-- Whether a page exists (R458): 0x00 to 0x2B. -/
def pageExists (page : Nat) : Bool := page ≤ 0x2B

/-- The definition of the register at an address, if the address is not reserved. -/
def regDef (addr : Nat) : Option RegDef :=
  let page := addr / 0x1000
  let off := addr % 0x1000 / 4 * 4
  if !pageExists page then none
  else if off < 0x40 then regsHDR.find? (fun r => r.off == off)
  else (pageRegs page).find? (fun r => r.off == off)

/-- The reset value of a register as its fields give it. -/
def RegDef.resetValue (r : RegDef) : Nat := r.fields.foldl (fun v f => v + (f.reset % 2 ^ f.width) * 2 ^ f.lo) 0

/-- The bits of a register with one of the given access codes. -/
def RegDef.mask (r : RegDef) (a : Acc) : Nat :=
  r.fields.foldl (fun m f => if f.acc == a then m ||| maskOf f.lo f.width else m) 0

/-- The reset value of the register at an address, 0 for a reserved one (R8). -/
def regReset (addr : Nat) : Nat :=
  match regDef addr with
  | some r => r.resetValue
  | none => 0

/-- The key of a register in `Hub.regs`: its address, and a bank for a register that one exists of per slot, cane, kind and so on. -/
def regKey (addr bank : Nat) : Nat := bank * 0x100000 + addr

/-- The stored value of a register of a bank. -/
def Hub.regB (s : Hub) (addr bank : Nat) : Nat := (s.regs.get (regKey addr bank) (BitVec.ofNat 32 (regReset addr))).toNat

/-- The stored value of a register. -/
def Hub.reg (s : Hub) (addr : Nat) : Nat := s.regB addr 0

/-- Stores a register of a bank. -/
def Hub.setRegB (s : Hub) (addr bank v : Nat) : Hub :=
  { s with regs := s.regs.set (regKey addr bank) (BitVec.ofNat 32 v) }

/-- Stores a register. -/
def Hub.setReg (s : Hub) (addr v : Nat) : Hub := s.setRegB addr 0 v

/-- A field of a register of a bank. -/
def Hub.rdB (s : Hub) (f : Fld) (bank : Nat) : Nat := bitsOf (s.regB f.addr bank) f.lo f.width

/-- A field of a register. -/
def Hub.rd (s : Hub) (f : Fld) : Nat := s.rdB f 0

/-- A one-bit field as a truth value. -/
def Hub.flag (s : Hub) (f : Fld) : Bool := s.rd f == 1

/-- Sets a field of a register of a bank, keeping the register's other bits. -/
def Hub.wrB (s : Hub) (f : Fld) (bank v : Nat) : Hub :=
  s.setRegB f.addr bank (setBits (s.regB f.addr bank) f.lo f.width v)

/-- Sets a field of a register. -/
def Hub.wr (s : Hub) (f : Fld) (v : Nat) : Hub := s.wrB f 0 v

/-- The 64-bit value of a LO/HI pair (R6), HI at the next address. -/
def Hub.reg64 (s : Hub) (lo : Nat) : Nat := s.reg lo + s.reg (lo + 4) * 0x100000000

/-- Stores a LO/HI pair. -/
def Hub.setReg64 (s : Hub) (lo v : Nat) : Hub :=
  (s.setReg lo (v % 0x100000000)).setReg (lo + 4) (v / 0x100000000 % 0x100000000)

/-- The 64-bit value of a banked pair. -/
def Hub.reg64B (s : Hub) (lo bank : Nat) : Nat := s.regB lo bank + s.regB (lo + 4) bank * 0x100000000

/-- Stores a banked pair. -/
def Hub.setReg64B (s : Hub) (lo bank v : Nat) : Hub :=
  (s.setRegB lo bank (v % 0x100000000)).setRegB (lo + 4) bank (v / 0x100000000 % 0x100000000)

/-- Adds to a counter register that saturates at its width. -/
def Hub.bump (s : Hub) (f : Fld) (n : Nat) : Hub := s.wr f (sat f.width (s.rd f + n))

/-- Adds to a counter pair that wraps modulo 2^64. -/
def Hub.bump64 (s : Hub) (lo n : Nat) : Hub := s.setReg64 lo (s.reg64 lo + n)

/-! ### Units by number -/

def Hub.dom (s : Hub) (i : Nat) : Domain := s.doms.get i {}
def Hub.setDom (s : Hub) (i : Nat) (d : Domain) : Hub := { s with doms := s.doms.set i d }
def Hub.tile (s : Hub) (t : Nat) : Tile := s.tiles.get t {}
def Hub.setTile (s : Hub) (t : Nat) (x : Tile) : Hub := { s with tiles := s.tiles.set t x }
def Hub.cane (s : Hub) (c : Nat) : CaneSt := s.canes.get c {}
def Hub.setCane (s : Hub) (c : Nat) (x : CaneSt) : Hub := { s with canes := s.canes.set c x }
def Hub.lane (s : Hub) (l : Nat) : LaneSt := s.lanes.get l {}
def Hub.setLane (s : Hub) (l : Nat) (x : LaneSt) : Hub := { s with lanes := s.lanes.set l x }
def Hub.mon (s : Hub) (i : Nat) : Monitor := s.hang.get i {}
def Hub.setMon (s : Hub) (i : Nat) (m : Monitor) : Hub := { s with hang := s.hang.set i m }
def Hub.coop (s : Hub) (c : Nat) : Cooper := s.coops.get c {}
def Hub.setCoop (s : Hub) (c : Nat) (x : Cooper) : Hub := { s with coops := s.coops.set c x }
def Hub.tend (s : Hub) (t : Nat) : Tendril := s.fed.tend.get t {}
def Hub.setTend (s : Hub) (t : Nat) (x : Tendril) : Hub := { s with fed := { s.fed with tend := s.fed.tend.set t x } }

/-! ### Identity and time -/

/-- The hub's address (R9), as GLB_HUB shows it. -/
def Hub.hubAddr (s : Hub) : Nat := s.rd F.GLB_HUB_HUB

/-- The package index of a hub address (R9). -/
def packageOf (hub : Nat) : Nat := hub / 128

/-- The field index of a hub address (R9). -/
def fieldOf (hub : Nat) : Nat := hub % 128

/-- Whether the hub is lead-designated (GLB_HUB.LEAD). -/
def Hub.isLead (s : Hub) : Bool := s.flag F.GLB_HUB_LEAD

/-- Whether the hub is a Dysko 16K-R (GLB_HUB.PAIR). (DEDUCED, log entry 235) -/
def Hub.isPair (s : Hub) : Bool := s.flag F.GLB_HUB_PAIR

/-- Whether the hub is in SAFE (R428). -/
def Hub.isSafe (s : Hub) : Bool := s.rel.safe

/-- The epoch number in force, 0 while no time base exists (R43). -/
def Hub.epoch (s : Hub) : Nat := s.rd F.TIME_EPOCH_EPOCH

/-- Whether the time base exists (R43). -/
def Hub.timeOk (s : Hub) : Bool := s.epoch != 0

/-- GCN, or the count of R43 that stands in for it before a time base exists. -/
def Hub.now (s : Hub) : Nat := if s.timeOk then s.time.gcn else s.time.hclk

/-- Whether an interval of `n` HCLK that began at HCLK count `since` has run out (R39). -/
def Hub.elapsed (s : Hub) (since n : Nat) : Bool := since + n ≤ s.time.hclk

/-! ### Memories -/

/-- What a byte of a memory reads as where nothing was written (log entry 3). -/
def memDefault : Byte := 0

/-- One byte of a memory. -/
def memRead (m : List Host.Cell) (a : Nat) : Byte := findKey a memDefault m

/-- Writes one byte, keeping the canonical form: a byte equal to the default is not listed. -/
def memWrite (m : List Host.Cell) (a : Nat) (b : Byte) : List Host.Cell :=
  if b == memDefault then dropKey a m else putKey a b m

/-- Writes bytes at rising addresses. -/
def memWriteAll : List Host.Cell → Nat → List Byte → List Host.Cell
  | m, _, [] => m
  | m, a, b :: bs => memWriteAll (memWrite m a b) (a + 1) bs

/-- The canonical form of a memory: addresses strictly rising, no cell equal to the default. -/
def Memory.wf : List Host.Cell → Bool
  | [] => true
  | [c] => c.2 != memDefault
  | c :: d :: rest => c.1 < d.1 && c.2 != memDefault && Memory.wf (d :: rest)

/-- One memory of the store. -/
def Store.get (st : Store) : Space → List Host.Cell
  | .sram => st.sram
  | .scan => st.scan
  | .mem => st.mem

/-- The store after one write. -/
def Store.write (st : Store) (w : StoreWrite) : Store :=
  match w.space with
  | .sram => { st with sram := memWriteAll st.sram w.at_ w.bytes }
  | .scan => { st with scan := memWriteAll st.scan w.at_ w.bytes }
  | .mem => { st with mem := memWriteAll st.mem w.at_ w.bytes }

/-- The store after writes, first to last. -/
def Store.writeAll (st : Store) (ws : List StoreWrite) : Store := ws.foldl Store.write st

/-- All three memories are in canonical form. -/
def Store.wf (st : Store) : Bool := Memory.wf st.sram && Memory.wf st.scan && Memory.wf st.mem

/-- A write of the command in progress. -/
def Hub.put (s : Hub) (sp : Space) (a : Nat) (bs : List Byte) : Hub :=
  { s with writes := s.writes ++ [⟨sp, a, bs⟩] }

/-- The newest of the pending writes that covers an address. -/
def pendingByte (sp : Space) (a : Nat) : List StoreWrite → Option Byte
  | [] => none
  | w :: ws =>
    match pendingByte sp a ws with
    | some b => some b
    | none =>
      if w.space == sp && w.at_ ≤ a && a < w.at_ + w.bytes.length then w.bytes[a - w.at_]? else none

/-- A byte as the command in progress sees it. -/
def Hub.peek (s : Hub) (sp : Space) (a : Nat) : Byte :=
  match pendingByte sp a s.writes with
  | some b => b
  | none => memRead (s.store.get sp) a

/-- `n` bytes as the command in progress sees them. -/
def Hub.peeks (s : Hub) (sp : Space) (a n : Nat) : List Byte := (List.range n).map (fun i => s.peek sp (a + i))

/-- SRAM bytes of a tile. -/
def Hub.sram (s : Hub) (t a n : Nat) : List Byte := s.peeks .sram (t * 65536 + a) n

/-- Writes SRAM of a tile. -/
def Hub.putSram (s : Hub) (t a : Nat) (bs : List Byte) : Hub := s.put .sram (t * 65536 + a) bs

/-- Tile control state bytes of a tile. -/
def Hub.scan (s : Hub) (t a n : Nat) : List Byte := s.peeks .scan (t * 2048 + a) n

/-- Writes tile control state of a tile. -/
def Hub.putScan (s : Hub) (t a : Nat) (bs : List Byte) : Hub := s.put .scan (t * 2048 + a) bs

/-- Package memory bytes. -/
def Hub.mem (s : Hub) (a n : Nat) : List Byte := s.peeks .mem a n

/-- Writes package memory. -/
def Hub.putMem (s : Hub) (a : Nat) (bs : List Byte) : Hub := s.put .mem a bs

/-! ### Free values -/

/-- Draws a free word: the value is whatever `Config.freeWord` gives for the draw's number. -/
def Hub.drawWord (s : Hub) : Word × Hub := (Config.freeWord s.freeCount, { s with freeCount := s.freeCount + 1 })

/-! ### Errors and events -/

/-- Sets a PG_ERROR bit of a page, and PG_ERROR_INFO.BIT (R459). -/
def Hub.err (s : Hub) (e : ErrBit) : Hub :=
  let f := F.PG_ERROR_ERRORS.lane e.page
  (s.wr f (s.rd f ||| 2 ^ e.bit)).wr (F.PG_ERROR_INFO_BIT.lane e.page) e.bit

/-- Whether a PG_ERROR bit is set. -/
def Hub.hasErr (s : Hub) (e : ErrBit) : Bool := bitAt (s.rd (F.PG_ERROR_ERRORS.lane e.page)) e.bit

/-- Records the register and the requester of an ignored write in PG_ERROR_INFO (R459). -/
def Hub.errAt (s : Hub) (r : Req) (addr : Nat) : Hub :=
  let page := addr / 0x1000
  (s.wr (F.PG_ERROR_INFO_OFFSET.lane page) (addr % 0x1000)).wr (F.PG_ERROR_INFO_REQUESTER.lane page) (reqCode r)

/-- Raises an event (R22): the occurrence carries GCN, the epoch number and the hub address of this edge. -/
def Hub.raise (s : Hub) (code : Nat) (unit : Option Nat := none) : Hub :=
  { s with occs := s.occs ++ [{ code := code, gcn := s.now, epoch := s.epoch, hub := s.hubAddr, unit := unit, at_ := s.time.hclk }] }

/-- Raises an event whose unit is a slot or a region though its code may also name a tile (R130, R274). -/
def Hub.raiseOther (s : Hub) (code unit : Nat) : Hub :=
  { s with occs := s.occs ++ [{ code := code, gcn := s.now, epoch := s.epoch, hub := s.hubAddr, unit := some unit, other := true,
                                at_ := s.time.hclk }] }

/-- Raises an event of a tile, slot, lane or other unit. -/
def Hub.raiseOf (s : Hub) (code unit : Nat) : Hub := s.raise code (some unit)

/-- Raises an event that is limited to its first occurrence after a clear and then one per 1,048,576 HCLK: `last` is the
HCLK count of the previous one; answers the new count. -/
def Hub.raiseLimited (s : Hub) (last : Option Nat) (code : Nat) (unit : Option Nat) : Hub × Option Nat :=
  match last with
  | some t => if s.elapsed t 1048576 then (s.raise code unit, some s.time.hclk) else (s, last)
  | none => (s.raise code unit, some s.time.hclk)

end Sys2Proof.Machine
end

