-- ==== Sys2Proof/Machine/Operands.lean ====
section
/-! DEFINITION. The operand forms the commands share: tile coordinates and rectangles, the partitions and their tile clocks,
stop domains and scopes, grants. -/

namespace Sys2Proof.Machine

/-! ### Geometry, R9 -/

/-- Column of a tile ID. -/
def colOf (t : Nat) : Nat := t % 128

/-- Row of a tile ID. -/
def rowOf (t : Nat) : Nat := t / 128 % 128

/-- Tile ID of a column and a row. -/
def tileAt (x y : Nat) : Nat := y * 128 + x

/-- The tile lies in the configured grid (GLB_GRID). -/
def Hub.inGrid (s : Hub) (t : Nat) : Bool := colOf t < s.rd F.GLB_GRID_COLUMNS && rowOf t < s.rd F.GLB_GRID_ROWS

/-- The tile lies in the east partition (columns from GLB_GRID.SEAM). -/
def Hub.isEast (s : Hub) (t : Nat) : Bool := s.rd F.GLB_GRID_SEAM ≤ colOf t

/-- Partition of a tile: 0 west, 1 east. -/
def Hub.partOf (s : Hub) (t : Nat) : Nat := b2n (s.isEast t)

/-- The cane on which a column's words reach the hub core at the south edge: its own, or the neighbour's under bypass. Words from the spurs north of
a break travel down their own cane as far as the break and cross over there, those from the break southward cross over at once (R19), so that all
of them arrive on the neighbour's. -/
def Hub.caneFor (s : Hub) (col : Nat) : Nat :=
  match (s.cane col).mode with
  | 1 => col + 1
  | 2 => col - 1
  | _ => col

/-- A cane carries nothing upward: it is turned, turning, or under LOCATE. -/
def Hub.caneShut (s : Hub) (q : Nat) : Bool :=
  let x := s.cane q
  x.down || x.turning.isSome || x.locate.isSome

/-- A cane is turned downward, or turning either way (R26). -/
def Hub.caneDown (s : Hub) (q : Nat) : Bool := (s.cane q).down || (s.cane q).turning.isSome

/-- The cane a run turns: that of its tile's column, or the cane under test (R26). -/
def Hub.runCane (s : Hub) (r : Run) : Nat := if r.target == 4 then s.caneFor (colOf r.unit) else r.unit

/-- A test holds a cane downward. -/
def Hub.bistHolds (s : Hub) (c : Nat) : Bool := s.bist.runs.any (fun r => r.det == 1 && s.runCane r == c)

/-- Words waiting in a trace buffer. -/
def Tile.traceWords (x : Tile) : Nat := sumNat (x.tbuf.map List.length)

/-- A rectangle as HARV_RECT lays it out (R132): X0, Y0, X1, Y1 in bytes 0 to 3, seven bits each. -/
structure Rect where
  x0 : Nat
  y0 : Nat
  x1 : Nat
  y1 : Nat
deriving DecidableEq, Repr

/-- Reads a rectangle from its word. -/
def rectOf (w : Nat) : Rect := ⟨bitsOf w 0 7, bitsOf w 8 7, bitsOf w 16 7, bitsOf w 24 7⟩

/-- X0 > X1 or Y0 > Y1. -/
def Rect.bad (r : Rect) : Bool := r.x1 < r.x0 || r.y1 < r.y0

/-- The tile lies in the rectangle, borders included. -/
def Rect.has (r : Rect) (t : Nat) : Bool :=
  r.x0 ≤ colOf t && colOf t ≤ r.x1 && r.y0 ≤ rowOf t && rowOf t ≤ r.y1

/-- Every tile ID of the grid, ascending. -/
def Hub.gridTiles (s : Hub) : List Nat :=
  (List.range (s.rd F.GLB_GRID_ROWS)).flatMap (fun y => (List.range (s.rd F.GLB_GRID_COLUMNS)).map (fun x => tileAt x y))

/-- The tiles of a rectangle within the grid, ascending. -/
def Hub.rectTiles (s : Hub) (r : Rect) : List Nat := s.gridTiles.filter r.has

/-! ### Tiles of a slot -/

/-- The tile is assigned to the slot. -/
def Tile.isOf (x : Tile) (slot : Nat) : Bool := x.st == .inContext && x.slot == slot

/-- The tiles of a slot, ascending. -/
def Hub.slotTiles (s : Hub) (slot : Nat) : List Nat :=
  (s.tiles.cells.filter (fun p => p.2.isOf slot)).map Prod.fst

/-- The slot has a tile in a partition. -/
def Hub.slotIn (s : Hub) (slot part : Nat) : Bool := (s.slotTiles slot).any (fun t => s.partOf t == part)

/-- The slot has tiles on both sides of the seam. -/
def Hub.spans (s : Hub) (slot : Nat) : Bool := s.slotIn slot 0 && s.slotIn slot 1

/-- The slots that hold a context, ascending. -/
def Hub.openSlots (s : Hub) : List Nat := (s.doms.cells.filter (fun p => p.2.st != .empty)).map Prod.fst

/-- The slots whose domain runs or is stopping. -/
def Hub.runningSlots (s : Hub) : List Nat :=
  (s.doms.cells.filter (fun p => p.2.st == .running || p.2.st == .stopping)).map Prod.fst

/-- A context spans the seam. -/
def Hub.anySpans (s : Hub) : Bool := s.openSlots.any s.spans

/-- The partition whose clock a domain follows: west when it has a west tile or no tile, east otherwise (log entry 7). -/
def Hub.domPart (s : Hub) (slot : Nat) : Nat := if s.slotIn slot 0 then 0 else if s.slotIn slot 1 then 1 else 0

/-! ### Tile clocks, R34 to R36 and R42 -/

/-- Divider of the root clock for a divider code. -/
def dividerOf (code : Nat) : Nat :=
  match code with
  | 0 => 4
  | 1 => 5
  | 2 => 6
  | _ => 8

/-- Alignment step of a divider code in HCLK. -/
def alignOf (code : Nat) : Nat :=
  match code with
  | 0 => 1
  | 1 => 5
  | 2 => 3
  | _ => 2

/-- Present divider code of a partition (TIME_CLK_DIV). -/
def Hub.divCode (s : Hub) (part : Nat) : Nat := if part == 0 then s.rd F.TIME_CLK_DIV_WEST else s.rd F.TIME_CLK_DIV_EAST

/-- Divider of a partition. -/
def Hub.divider (s : Hub) (part : Nat) : Nat := dividerOf (s.divCode part)

/-- Origin of a partition, reduced modulo its alignment step (TIME_ORIGIN_W, TIME_ORIGIN_E). -/
def Hub.origin (s : Hub) (part : Nat) : Nat := if part == 0 then s.rd F.TIME_ORIGIN_W_G0 else s.rd F.TIME_ORIGIN_E_G0

/-- Sets an origin, reduced modulo the alignment step (R35). -/
def Hub.setOrigin (s : Hub) (part : Nat) (g : Int) : Hub :=
  let v := (g % ((alignOf (s.divCode part) : Nat) : Int)).toNat
  if part == 0 then s.wr F.TIME_ORIGIN_W_G0 v else s.wr F.TIME_ORIGIN_E_G0 v

/-- E(g) of R42, counted from 30 periods (a whole number of alignment steps) before the stored origin, so that the edges of periods below a
re-expressed origin count too: the TCLK edges of the partition up to, but not including, period `g`. -/
def Hub.edges (s : Hub) (part g : Nat) : Nat := ceilDiv (4 * (g + 30 - s.origin part)) (s.divider part)

/-- The period in which edge `k` falls (R35), with `k` counted as by `Hub.edges`. -/
def Hub.edgePeriod (s : Hub) (part k : Nat) : Nat := s.origin part + k * s.divider part / 4 - 30

/-- An edge of the partition falls in period `g`. -/
def Hub.edgeIn (s : Hub) (part g : Nat) : Bool := s.edges part g < s.edges part (g + 1)

/-- The first period at or after `g` in which an edge falls. -/
def Hub.firstEdge (s : Hub) (part g : Nat) : Nat := s.edgePeriod part (s.edges part g)

/-- The pending change of a partition (R54): divider code and G_c. -/
def Hub.pendingChg (s : Hub) (part : Nat) : Option (Nat × Nat) := if part == 0 then s.time.chgW else s.time.chgE

/-- Where a partition's edge count splits (R35, R42): a pending clock change or a divider restart to come, with the divider code from there on. -/
def Hub.splitAt (s : Hub) (part : Nat) : Option (Nat × Nat) :=
  match s.pendingChg part with
  | some x => some x
  | none => s.time.restartAt.map (fun g => (s.rd (if part == 0 then F.TIME_CLK_DIV_WEST else F.TIME_CLK_DIV_EAST), g))

/-- Edges in periods [a, b) that a running domain executes when nothing more is stalled: [a, b) is split at the G_c of a pending change or at a divider restart, and new
edge 0, in period G_c, is a stall cycle (R42, R54). -/
def Hub.edgesOf (s : Hub) (part a b : Nat) : Nat :=
  match s.splitAt part with
  | some (code, gc) =>
    if a < gc && gc < b then (s.edges part gc - s.edges part a) + (ceilDiv (4 * (b - gc)) (dividerOf code) - 1)
    else s.edges part b - s.edges part a
  | none => s.edges part b - s.edges part a

/-- The period in which executed edge `n` (the first is 0) at or after period `a` falls, split as `Hub.edgesOf` splits. -/
def Hub.periodOf (s : Hub) (part a n : Nat) : Nat :=
  let plain := s.edgePeriod part (s.edges part a + n)
  match s.splitAt part with
  | some (code, gc) =>
    let old := s.edges part gc - s.edges part a
    if a < gc && old ≤ n then gc + (n - old + 1) * dividerOf code / 4 else plain
  | none => plain

/-- GCN has reached `g`: GCN arithmetic is modulo 2^64 (R37). -/
def reachedGcn (g now : Nat) : Bool := (now + 2 ^ 64 - g % 2 ^ 64) % 2 ^ 64 < 2 ^ 63

/-- The partitions are phase-equal (R36). -/
def Hub.phaseEq (s : Hub) : Bool :=
  s.divider 0 == s.divider 1 && (4 * ((s.origin 0 : Int) - s.origin 1)) % (s.divider 0 : Int) == 0

/-! ### Life cycle, R386 -/

def Life.BLANK : Nat := 0
def Life.MANUFACTURE : Nat := 1
def Life.PROVISIONED : Nat := 2
def Life.FIELD : Nat := 3
def Life.RETURN : Nat := 4
def Life.SCRAPPED : Nat := 5

/-- The hub behaves as SCRAPPED. -/
def Hub.scrapped (s : Hub) : Bool := s.boot.life == Life.SCRAPPED

/-! ### Grants, R389 and R390 -/

/-- Grant right bits. -/
def Right.SYSTEM : Nat := 0
def Right.SECURE : Nat := 1
def Right.OPEN : Nat := 2
def Right.BIST : Nat := 3
def Right.LIFE : Nat := 4

/-- A valid grant has the right; a hub that behaves as SCRAPPED has none (R387). -/
def Hub.granted (s : Hub) (right : Nat) : Bool := !s.scrapped && s.auth.grants.cells.any (fun p => p.2.valid && bitAt p.2.rights right)

/-- A valid grant with the right covers the slot. -/
def Hub.covers (s : Hub) (right slot : Nat) : Bool :=
  !s.scrapped && s.auth.grants.cells.any (fun p => p.2.valid && bitAt p.2.rights right && bitAt p.2.slots slot)

/-- The slot holds a SECURE context that no grant covers. -/
def Hub.secureUncovered (s : Hub) (slot : Nat) : Bool :=
  (s.dom slot).st != .empty && (s.dom slot).priv == 2 && !s.covers Right.SECURE slot

/-- The requester is PORT or JTAG. -/
def isExternal (r : Req) : Bool := r == .port || r == .jtag

/-! ### Scopes, R62 and R63 -/

/-- The arguments of a cork command, from whichever path (R62, R64, R74). -/
structure CorkArgs where
  kind : Nat
  fed : Bool
  xpkg : Bool
  part : Nat
  slot : Nat
  tag : Nat
  mode : Nat
  target : Nat
  count : Nat
  gs : Option Nat := none
deriving DecidableEq, Repr

/-- Reads a scope word laid out as CORK_SCOPE. -/
def scopeOf (w : Nat) : CorkArgs :=
  { kind := bitsOf w 0 3, fed := bitAt w 3, xpkg := bitAt w 4, part := bitsOf w 5 1, slot := bitsOf w 6 6,
    tag := bitsOf w 16 16, mode := 0, target := 0, count := 0 }

/-- The stop domains of this field that a scope resolves to, ascending. -/
def Hub.scopeSlots (s : Hub) (a : CorkArgs) : List Nat :=
  match a.kind with
  | 0 => if (s.dom a.slot).st == .empty then [] else [a.slot]
  | 1 => s.openSlots.filter (fun z => (s.dom z).tag == a.tag)
  | 2 => s.openSlots.filter (fun z => s.slotIn z a.part)
  | 3 => s.openSlots
  | _ => []

/-- The tile is in no context. -/
def Tile.noContext (x : Tile) : Bool := x.st != .inContext

/-- The tiles in no context that a PARTITION or FIELD scope holds. -/
def Hub.scopeLoose (s : Hub) (a : CorkArgs) : List Nat :=
  match a.kind with
  | 2 => s.gridTiles.filter (fun t => (s.tile t).noContext && s.partOf t == a.part)
  | 3 => s.gridTiles.filter (fun t => (s.tile t).noContext)
  | _ => []

/-- The requester is PORT or JTAG and the scope holds a SECURE context that no grant covers, or the hub is SCRAPPED (R79 row 2). -/
def Hub.scopeDenied (s : Hub) (external : Bool) (slots : List Nat) : Bool :=
  s.scrapped || (external && slots.any s.secureUncovered)

/-! ### Masks of the stall sources, R81 and R82 -/

/-- Canonical mask of a duty of `k` sixteenths (R81). -/
def dutyMask (k : Nat) : Nat :=
  listMask ((List.range 16).filter (fun i => i * k / 16 < (i + 1) * k / 16))

/-- The OR of a domain's active sources other than MANUAL (R82). CLKCHG is the single edge `clkStall`. -/
def Domain.bareMask (d : Domain) : Nat := dutyMask d.power ||| (if d.hold.isSome then 0xFFFF else 0)

/-- The effective mask of a domain: the OR of its active sources (R82). -/
def Domain.effective (d : Domain) : Nat :=
  d.bareMask ||| (match d.manual with | some m => m.mask | none => 0)

/-- The mask last decided for a domain: of the newest waiting pattern, or the one in force. -/
def Domain.decided (d : Domain) : Nat :=
  match d.waiting.getLast? with
  | some (_, m, _) => m
  | none => d.mask

/-- The bit of the stall pattern a spur is at: its domain's, or the older one it kept where it missed the wave (R70, R80). -/
def Hub.patternBit (s : Hub) (t : Nat) : Bool :=
  let x := s.tile t
  let d := s.dom x.slot
  match x.oldMask with
  | some (m, n) => bitAt m ((n + d.edge) % 16)
  | none => bitAt d.mask d.edge

/-- The tile executes the present edge: its clock is not gated, held or stalled. -/
def Hub.tileRuns (s : Hub) (t : Nat) : Bool :=
  let x := s.tile t
  let d := s.dom x.slot
  !s.pins.tileHold && !x.gated && !x.inReset && !x.isolated && x.st != .underTest &&
    !(x.st == .inContext && (d.clkStall || s.patternBit t))

/-- A strobe fault: the spur of a tile in a context with SCN_VALID latches it, once, and reports it (R287). -/
def Tile.strobeBad (x : Tile) : Tile :=
  if x.st == .inContext && x.scnValid && !x.strobeFault then { x with strobeFault := true, strobeDue := true } else x

/-- The spur's comparison at the end of an edge of its slot (R287): a tile that had its clock and gave no strobe is at fault. (DEDUCED, log entry 351) -/
def Hub.strobeCheck (s : Hub) (stalled : Bool) (t : Nat) : Hub :=
  let x := s.tile t
  if x.strobed then s.setTile t { x with strobed := false }
  else if stalled || !x.scnValid || x.strobeFault || !s.tileRuns t then s
  else s.setTile t x.strobeBad

/-- The tile's bit in the out-of-service map, which only the end of READMIT clears (R299, R302). -/
def Tile.mapped (x : Tile) : Bool := x.st == .outOfService || (x.st == .underTest && x.oos)

end Sys2Proof.Machine
end

