-- ==== Sys2Proof/Machine/Messages.lean ====
section
/-! DEFINITION. Messages of the rack port (R357, R358): their layout, and queueing responses and messages of the hub. -/

namespace Sys2Proof.Machine

/-! ### Message types, R358 -/

def Mt.REG_READ : Nat := 0x01
def Mt.REG_WRITE : Nat := 0x02
def Mt.REG_RESP : Nat := 0x03
def Mt.CORK : Nat := 0x04
def Mt.CORK_RESP : Nat := 0x05
def Mt.EVENT : Nat := 0x06
def Mt.EVENT_LOSS : Nat := 0x07
def Mt.RACK_DATA : Nat := 0x08
def Mt.XPKG : Nat := 0x09
def Mt.XPKG_REPORT : Nat := 0x0A
def Mt.PEER_LOST : Nat := 0x0B
def Mt.TIME_PING : Nat := 0x0C
def Mt.TIME_PONG : Nat := 0x0D
def Mt.ERROR : Nat := 0x0E

/-- A message: the 8-byte header of R357 and the body. -/
def message (type flags tag hub : Nat) (body : List Byte) : List Byte :=
  le 1 type ++ le 1 flags ++ le 2 body.length ++ le 2 tag ++ le 2 hub ++ body

/-- Queues a COMMAND-class message. -/
def Hub.portSend (s : Hub) (m : List Byte) : Hub :=
  { s with link := { s.link with cmdQ := s.link.cmdQ ++ [{ cls := 0, bytes := m, src := .resp }] } }

/-- The TAG table with a kept response (R363): 64 entries, the oldest falls out. A completion keeps the
acceptance beside it: a repeat gets both (R368). -/
def keepTag (l : List TagEnt) (e : TagEnt) : List TagEnt :=
  let old := l.find? (fun x => x.tag == e.tag && x.type == e.type)
  let e := match old with
    | some o => if o.resp.isEmpty then e else { e with accept := o.resp }
    | none => e
  let l := l.filter (fun x => !(x.tag == e.tag && x.type == e.type)) ++ [e]
  l.drop (l.length - 64)

/-- Queues the response to request `type` under its TAG and keeps it (R359, R363); a response without FINAL leaves the
completion pending. -/
def Hub.portRespond (s : Hub) (tag type respType : Nat) (final : Bool) (body : List Byte) : Hub :=
  let m := message respType (b2n final) tag s.hubAddr body
  let s := { s with link := { s.link with
    tagTab := keepTag s.link.tagTab { tag := tag, type := type, resp := m } } }
  s.portSend m

/-- The body of a CORK_RESP (R358). -/
def corkRespBody (status final op : Nat) (done already aborted : Bool) (scn gcn : Nat) : List Byte :=
  le 1 status ++ le 1 final ++ le 1 op ++ le 1 (b2n done + 2 * b2n already + 4 * b2n aborted) ++ le 8 scn ++ le 8 gcn

/-- The body of an ERROR message. -/
def errorBody (status type : Nat) : List Byte := le 1 status ++ le 1 type ++ zeros 2

/-- The body of an XPKG_REPORT. -/
def xpkgReportBody (xid status : Nat) (stopped : Bool) (hub scn : Nat) : List Byte :=
  le 4 xid ++ le 1 status ++ le 1 (b2n stopped) ++ le 2 hub ++ le 8 scn

/-- The body of a CORK message as an XPKG message carries it: OP, MODE, SCOPE, TARGET, STEP_COUNT, stall MASK and DURATION. -/
def corkBody (op : Nat) (a : CorkArgs) : List Byte :=
  le 1 op ++ le 1 a.mode ++ zeros 2 ++
  le 4 (a.kind + 8 * b2n a.fed + 16 * b2n a.xpkg + 32 * a.part + 64 * a.slot + 65536 * a.tag) ++
  le 8 a.target ++ le 4 a.count ++ zeros 8

/-- The body of an XPKG message (R358). -/
def xpkgBody (op issuer xid : Nat) (body : List Byte) : List Byte :=
  le 1 op ++ zeros 1 ++ le 2 issuer ++ le 4 xid ++ body

end Sys2Proof.Machine
end

