-- ==== Sys2Proof/Machine/Access.lean ====
section
/-! DEFINITION. The checks of a register access (R463, R464, R466 to R469), the record of a refused access, and the
response of the register bus. -/

namespace Sys2Proof.Machine

/-- Page of a register address (R458). -/
def pageOf (addr : Nat) : Nat := addr / 0x1000 % 256

/-- Offset of a register in its page, bits [1:0] ignored (R458). -/
def offOf (addr : Nat) : Nat := addr % 0x1000 / 4 * 4

/-- A register address with bits [1:0] ignored and 20 bits kept (R458). -/
def normAddr (addr : Nat) : Nat := addr % 0x100000 / 4 * 4

/-- The bank of a register that a selector register chooses (R79, R97, R133, R219, R276, R280, R312, R338, R397), 0 for any other. -/
def Hub.bankOf (s : Hub) (addr : Nat) : Nat :=
  let isIn (l : List Nat) : Bool := l.contains (normAddr addr)
  if isIn [R.HARV_REGION_CTRL, R.HARV_REGION_BASE_LO, R.HARV_REGION_BASE_HI, R.HARV_REGION_LEN_LO, R.HARV_REGION_LEN_HI,
      R.HARV_REGION_DIGEST_LO, R.HARV_REGION_DIGEST_HI] then s.rd F.HARV_REGION_SEL_INDEX
  else if isIn [R.PWR_CTX] then s.rd F.PWR_CTX_SEL_SLOT
  else if isIn [R.TRACEF_SLOT] then s.rd F.TRACEF_SLOT_SEL_SLOT
  else if isIn [R.TRACEF_WIN_CTRL, R.TRACEF_WIN_ADDR] then s.rd F.TRACEF_WIN_SEL_WIN
  else if isIn [R.TASTE_SLOT, R.TASTE_SLOT_FMT] then s.rd F.TASTE_SLOT_SEL_SLOT
  else if isIn [R.NUMW_CFG] then s.rd F.NUMW_SEL_SLOT * 8 + s.rd F.NUMW_SEL_KIND
  else if isIn [R.HANG_MON_CFG] then s.rd F.HANG_MON_SEL_SLOT
  else if isIn [R.HANG_PEER_POLICY] then s.rd F.HANG_PEER_SEL_ENTRY
  else if isIn [R.FED_JOB] then s.rd F.FED_JOB_SEL_SLOT
  else if isIn [R.AUTH_DATA] then s.rd F.AUTH_DATA_SEL_WORD
  else 0

/-- The address of a register in the page its table describes: a lane's register moved to lane 0, a cooper's to cooper 0. -/
def baseAddr (addr : Nat) : Nat :=
  let p := pageOf addr
  if 0x08 ≤ p ∧ p ≤ 0x17 then 0x08000 + offOf addr
  else if p == 0x28 then 0x27000 + offOf addr
  else p * 0x1000 + offOf addr

/-- How far a page is from the first page of its kind. -/
def pageStep (addr : Nat) : Nat :=
  let p := pageOf addr
  if 0x08 ≤ p ∧ p ≤ 0x17 then p - 0x08 else if p == 0x28 then 1 else 0

/-- PG_EVENT, PG_ERROR and PG_PARITY are written by everyone (R468). -/
def isStatusHeader (addr : Nat) : Bool := offOf addr == 0x014 || offOf addr == 0x020 || offOf addr == 0x02C

/-- A register that R468 guards: a block register, PG_CTRL, PG_EVENT_EN or PG_EVENT_FORCE. -/
def isGuarded (addr : Nat) : Bool :=
  0x40 ≤ offOf addr || offOf addr == 0x00C || offOf addr == 0x018 || offOf addr == 0x01C

/-! ### Argument registers -/

/-- The argument registers of the chapters (R59, R97, R133, R192, R194, R281, R315, R338, R371, R396, R397, R414, R433, R457, R474):
for such a register, the DONE field it waits for and the PG_ERROR bit an early write sets. -/
def argRule (addr : Nat) : Option (Fld × Option ErrBit) :=
  let a := baseAddr addr
  let o := offOf addr
  let isIn (l : List Nat) : Bool := l.contains a
  match a / 0x1000 with
  | 0x00 => if 0x05C ≤ o ∧ o ≤ 0x078 then some (F.GLB_CMD_STATUS_DONE, some Er.GLB_ARG_BUSY) else none
  | 0x02 => if isIn [R.LIFE_ARG] || (0x060 ≤ o && o ≤ 0x08C) then some (F.LIFE_CMD_STATUS_DONE, some Er.LIFE_ARG_BUSY) else none
  | 0x03 =>
    if isIn [R.TIME_ARG_EPOCH, R.TIME_TBS_GCN_LO, R.TIME_TBS_GCN_HI, R.TIME_TBS_COMP, R.TIME_CLKCHG_REQ,
        R.TIME_CLKCHG_GCN_LO, R.TIME_CLKCHG_GCN_HI] then some (F.TIME_CMD_STATUS_DONE, none) else none
  | 0x04 =>
    if isIn [R.CORK_SCOPE, R.CORK_MODE, R.CORK_TARGET_LO, R.CORK_TARGET_HI, R.CORK_STEP_COUNT, R.CORK_STALL_MASK,
        R.CORK_STALL_DURATION] then some (F.CORK_STATUS_DONE, some Er.CORK_ARG_BUSY) else none
  | 0x07 =>
    if isIn [R.HARV_SCOPE, R.HARV_SEL, R.HARV_RECT, R.HARV_RANGE, R.HARV_VINTAGE, R.HARV_REF_VINTAGE,
        R.HARV_TRACE_SNAP_LEN, R.HARV_DECANT_SLOT, R.HARV_DECANT_DOMAIN, R.HARV_REGION_CTRL, R.HARV_REGION_BASE_LO,
        R.HARV_REGION_BASE_HI, R.HARV_REGION_LEN_LO, R.HARV_REGION_LEN_HI]
    then some (F.HARV_STATUS_DONE, some Er.HARV_ARG_BUSY) else none
  | 0x18 =>
    if isIn [R.CELL_ARG_VINTAGE, R.CELL_BASE_LO, R.CELL_BASE_HI, R.CELL_SIZE, R.CELL_CASK, R.CELL_RING]
    then some (F.CELL_CMD_STATUS_DONE, some Er.CELL_ARG_BUSY) else none
  | 0x19 =>
    if isIn [R.RACK_ARG_HUB, R.RACK_ARG_VINTAGE, R.RACK_ARG_OBJ] then some (F.RACK_STATUS_DONE, some Er.RACK_ARG_BUSY)
    else none
  | 0x1A =>
    if isIn [R.LINK_WINDOW, R.LINK_REPLAY_TIMEOUT, R.LINK_REPLAY_LIMIT, R.LINK_TRAIN_LIMIT, R.LINK_IDLE_LIMIT]
    then some (F.LINK_CMD_STATUS_DONE, some Er.LINK_ARG_BUSY) else none
  | 0x1D => if isIn [R.TASTE_ARG] then some (F.TASTE_CMD_STATUS_DONE, some Er.TASTE_ARG_BUSY) else none
  | 0x1E => if isIn [R.NUMW_SEL] then some (F.NUMW_CMD_STATUS_DONE, some Er.NUMW_ARG_BUSY) else none
  | 0x1F =>
    if isIn [R.DIGEST_ARG, R.DIGEST_EXPECT_LO, R.DIGEST_EXPECT_HI, R.DIGEST_TABLE_BASE_LO, R.DIGEST_TABLE_BASE_HI]
    then some (F.DIGEST_CMD_STATUS_DONE, some Er.DIGEST_ARG_BUSY) else none
  | 0x20 => if isIn [R.HANG_ARG] then some (F.HANG_CMD_STATUS_DONE, some Er.HANG_ARG_BUSY) else none
  | 0x21 => if isIn [R.RSET_ARG] then some (F.RSET_STATUS_DONE, some Er.RSET_ARG_BUSY) else none
  | 0x22 =>
    if isIn [R.BIST_ARG, R.BIST_PACK_ADDR_LO, R.BIST_PACK_ADDR_HI] then some (F.BIST_CMD_STATUS_DONE, some Er.BIST_ARG_BUSY)
    else none
  | 0x23 => if isIn [R.REL_INJECT] then some (F.REL_CMD_STATUS_DONE, some Er.REL_ARG_BUSY) else none
  | 0x25 => if isIn [R.FED_LINK_SEL] then some (F.FED_CMD_STATUS_DONE, some Er.FED_ARG_BUSY) else none
  | 0x27 =>
    if isIn [R.COOP_ARG] then some (F.COOP_CMD_STATUS_DONE.lane (pageStep addr), some (Er.COOP_ARG_BUSY.lane (pageStep addr)))
    else none
  | 0x29 => if isIn [R.SPURW_TILE] then some (F.SPURW_STATUS_DONE, some Er.SPURW_ARG_BUSY) else none
  | 0x2A =>
    if 0x058 ≤ o ∧ o ≤ 0x078 then some (F.AUTH_CMD_STATUS_DONE, some Er.AUTH_ARG_BUSY) else none
  | _ => none

/-- Registers that stay writable under LOCK beside the argument registers (R463): selectors, data windows, TASTE_EVID_ADDR. -/
def lockFree (addr : Nat) : Bool :=
  let a := baseAddr addr
  [R.LIFE_FUSE_SEL, R.CORK_DOMAIN_SEL, R.PWR_CTX_SEL, R.HARV_REGION_SEL, R.CANE_SEL, R.CELL_INDEX_SEL, R.TRACE_LOSS_CANE_SEL,
   R.TRACE_EVLOSS_SEL, R.TRACEF_SLOT_SEL, R.TRACEF_WIN_SEL, R.TASTE_SLOT_SEL, R.TASTE_STAT_SEL, R.NUMW_SEL, R.HANG_MON_SEL,
   R.HANG_PEER_SEL, R.RSET_OOS_SEL, R.RSET_COUNT_SEL, R.FED_LINK_SEL, R.FED_ROUTE_SEL, R.FED_JOB_SEL, R.LINK_EVLOSS_SEL,
   R.BOOT_BIST_SEL, R.AUTH_DATA_SEL, R.AUTH_GRANT_SEL, R.BIST_RESULT_SEL, R.BIST_PACK_SEL, R.COOP_PROG_SEL, R.COOP_DATA_SEL,
   R.COOP_SCRIPT_SEL, R.COOP_W_SEL].contains a ||
  [R.AUTH_DATA, R.COOP_PROG_DATA, R.COOP_DATA_DATA, R.TASTE_EVID_ADDR].contains a ||
  (argRule addr).isSome

/-- Pages on which LOCK has an effect (R463). -/
def lockable (page : Nat) : Bool := page != Pg.GLB && page != Pg.SPURW && page != Pg.TRAY && pageExists page

/-- Pages that can be claimed (R467). -/
def ownable (page : Nat) : Bool := page != Pg.TRAY && pageExists page

/-- LOCK of a page is set. -/
def Hub.locked (s : Hub) (page : Nat) : Bool := lockable page && s.flag (F.PG_CTRL_LOCK.lane page)

/-- A write falls on a field frozen by LOCK (R463). In a register that also has command or W1C fields, the RW fields are
written to only by a value that would change them (log entry 8). -/
def Hub.frozen (s : Hub) (addr v : Nat) : Bool :=
  match regDef addr with
  | none => false
  | some d =>
    let rw := d.mask .rw
    let mixed := (d.mask .w1s ||| d.mask .w1c ||| d.mask .wo) != 0
    s.locked (pageOf addr) && rw != 0 && !lockFree addr &&
      (0x40 ≤ offOf addr || offOf addr == 0x00C || offOf addr == 0x018) &&
      (!mixed || (v &&& rw) != (s.reg addr &&& rw))

/-- The registers an I3C write may reach (R466). -/
def i3cWritable (addr v : Nat) : Bool :=
  (pageOf addr == Pg.TRAY && 0x40 ≤ offOf addr) ||
  [R.TIME_ARG_EPOCH, R.TIME_TBS_GCN_LO, R.TIME_TBS_GCN_HI, R.TIME_TBS_COMP, R.TIME_TBS_PERIOD].contains (normAddr addr) ||
  (normAddr addr == R.TIME_CMD && v % 16 == 4) ||
  offOf addr == 0x014 || offOf addr == 0x020

/-- OWNER of a page: 0 NONE, otherwise the requester code plus 1. -/
def Hub.owner (s : Hub) (page : Nat) : Nat := s.owners.get page 0

/-- The page is owned by a requester other than `r`. -/
def Hub.ownedByOther (s : Hub) (r : Req) (page : Nat) : Bool := s.owner page != 0 && s.owner page != reqCode r + 1

/-- The status of an access by the rows of R469, with SAFE (R30) and a takeover (R425) before them. -/
def Hub.accessStatus (s : Hub) (r : Req) (addr : Nat) (write : Bool) (v : Nat) : Nat :=
  let page := pageOf addr
  let off := offOf addr
  if (regDef (normAddr addr)).isNone then St.OK
  else if write && s.isSafe &&
      !([R.RSET_ARG, R.RSET_CMD].contains (normAddr addr) || off == 0x014 || off == 0x020) then St.FAULT
  else if write && s.flag F.PAIR_STATE_TAKEOVER &&
      !([R.RSET_ARG, R.RSET_CMD].contains (normAddr addr) || off == 0x014 || off == 0x020) then St.BUSY
  else if (r == .tendril && (page == Pg.BOOT || page == Pg.LIFE || page == Pg.AUTH)) ||
      (write && r == .i3c && !i3cWritable addr v) ||
      (write && off == 0x028 && bitAt v 4 && (r == .tendril || r == .i3c)) ||
      (write && off == 0x028 && bitAt v 6 && !(r == .mgmt || r == .jtag)) then St.DENIED
  else if (write && isGuarded addr && s.ownedByOther r page) ||
      (write && off == 0x028 && (bitAt v 4 || bitAt v 5) && !bitAt v 6 && s.ownedByOther r page) ||
      (write && normAddr addr == R.GLB_CMD && !s.flag F.GLB_CMD_STATUS_DONE) then St.BUSY
  else if write && s.frozen (normAddr addr) v then St.DENIED
  else St.OK

/-- The response of the register bus to a requester: value and status (R465). -/
def Hub.respond (s : Hub) (r : Req) (value status : Nat) : Hub :=
  { s with bus := s.bus.set (reqCode r) { value := value, status := status } }

/-- Records a refused access (R469): GLB_REFUSED, the count and PG_ERROR.ACCESS. -/
def Hub.refuse (s : Hub) (r : Req) (addr : Nat) (write : Bool) (status : Nat) : Hub :=
  let s := s.setReg R.GLB_REFUSED
    (normAddr addr + reqCode r * 0x100000 + b2n write * 0x800000 + status * 0x1000000)
  let s := s.bump F.GLB_REFUSED_COUNT_COUNT 1
  (s.err Er.GLB_ACCESS).respond r 0 status

/-- A command register written by a requester: checked as an access (R469); when the access is admitted, `f` is what the
unit does. -/
def Hub.command (s : Hub) (r : Req) (addr v : Nat) (f : Hub → Hub) : Hub :=
  let st := s.accessStatus r addr true v
  if st == St.OK then (f s).respond r 0 St.OK else s.refuse r addr true st

end Sys2Proof.Machine
end

