-- ==== Sys2Proof/Machine/Frames.lean ====
section
/-! DEFINITION. Tendril frames (R316 to R320): their layout, the three classes, and sending to a neighbour, to a hub and
to every hub of the package. A frame handed to a tendril waits in its transmitter (`txQ`), goes out in 12 beats, and has then joined `out`. -/

namespace Sys2Proof.Machine

/-! ### Frame types and opcodes, R318 and R333 -/

def Ft.SYNC : Nat := 0x01
def Ft.WAVE : Nat := 0x02
def Ft.STALL : Nat := 0x03
def Ft.CMD : Nat := 0x05
def Ft.RESP : Nat := 0x06
def Ft.ANNOUNCE : Nat := 0x07
def Ft.IMAGE : Nat := 0x08
def Ft.ACK : Nat := 0x09
def Ft.TRAIN : Nat := 0x1E

def Op.REG_READ : Nat := 0x01
def Op.REG_WRITE : Nat := 0x02
def Op.CORK_REPORT : Nat := 0x03
def Op.HARVEST : Nat := 0x04
def Op.DIGEST : Nat := 0x05
def Op.HOLD : Nat := 0x06
def Op.CLOSED : Nat := 0x07
def Op.LADDER : Nat := 0x08
def Op.PEER_LOST : Nat := 0x09
def Op.STALL_REQ : Nat := 0x0A
def Op.JOB_CHECK : Nat := 0x0B
def Op.TIME_REQ : Nat := 0x0C
def Op.IMAGE_DONE : Nat := 0x0D
def Op.HARVEST_ARGS : Nat := 0x0E

/-- A frame of 24 bytes (R317): type, byte 1, bytes 2 and 3, payload, CRC. -/
def frame (type b1 b23 : Nat) (payload : List Byte) : List Byte :=
  let body := le 1 type ++ le 1 b1 ++ le 2 b23 ++ (padTo 16 payload).take 16
  body ++ le 4 (crc32c body)

/-- Hands a frame to a tendril's transmitter. (DESIGN CHOICE, log entry 66) -/
def Hub.emit (s : Hub) (t : Nat) (f : List Byte) : Hub :=
  let x := s.tend t
  s.setTend t { x with txQ := x.txQ ++ [f] }

/-- Destination of a class 2 frame, its TYPE and its payload. -/
def Fr.dest (f : List Byte) : Nat := leAt f 2 2 % 2048
def Fr.type (f : List Byte) : Nat := leAt f 0 1 % 32
def Fr.payload (f : List Byte) : List Byte := (f.drop 4).take 16

/-- The class of a frame (R318): 0 WAVE and STALL, either copy; 1 SYNC, ACK and TRAIN; 2 the others. -/
def Fr.cls (f : List Byte) : Nat :=
  match leAt f 0 1 % 0x20 with
  | 0x02 | 0x03 => 0
  | 0x01 | 0x09 | 0x1E => 1
  | _ => 2

/-- A frame as its transmit edge finds it (R318, R319): SYNC carries the GCN of that edge, TRAIN the sender's count. -/
def Hub.stamp (s : Hub) (f : List Byte) : List Byte :=
  let ty := leAt f 0 1
  let body (n v : Nat) : List Byte := frame ty (leAt f 1 1) (leAt f 2 2) (le n v ++ ((f.drop (4 + n)).take (16 - n)))
  if ty == Ft.SYNC then body 8 s.time.gcn
  else if ty == Ft.TRAIN then body 4 s.time.hclk
  else f

/-- The frame a transmitter begins next: the oldest of the lowest class (R318). -/
def Tendril.nextTx (x : Tendril) : Option (List Byte) :=
  (x.txQ.find? (fun f => Fr.cls f == 0)).or ((x.txQ.find? (fun f => Fr.cls f == 1)).or x.txQ.head?)

/-- The transmitter begins a frame it holds: its first beat, or goes idle. -/
def Hub.beginTx (s : Hub) (t : Nat) : Hub :=
  let x := s.tend t
  match x.nextTx with
  | some f => s.setTend t { x with txQ := x.txQ.erase f, sending := some (s.stamp f, 0) }
  | none => s.setTend t { x with sending := none }

/-- One HCLK of a tendril's transmitter (R316, R318): a beat of the frame on the wires has passed; after the twelfth the frame is
out; a class 0 frame starts its first beat at once in place of a frame of class 1 or 2, which is sent again whole afterwards. -/
def Hub.tendTick (s : Hub) (t : Nat) : Hub :=
  let s := match (s.tend t).echo with
    | some (due, n) => if due ≤ s.time.hclk then
        s.setTend t { s.tend t with echo := none, txQ := (s.tend t).txQ ++ [frame Ft.TRAIN 1 0 (le 4 s.time.hclk ++ le 4 n)] }
      else s
    | none => s
  let x := s.tend t
  match x.sending with
  | none => if x.txQ.isEmpty then s else s.beginTx t
  | some (f, n) =>
    if n == 11 then (s.setTend t { x with sending := none, out := x.out ++ [f] }).beginTx t
    else if Fr.cls f != 0 && x.txQ.any (fun g => Fr.cls g == 0) then (s.setTend t { x with sending := none, txQ := f :: x.txQ }).beginTx t
    else s.setTend t { x with sending := some (f, n + 1) }

/-- What the wires of a tendril carry: TCTL and TDAT (R316). -/
def Tendril.wires (x : Tendril) : Nat × Nat :=
  match x.sending with
  | none => (0, 0)
  | some (f, n) => (if n == 0 then 1 else 2, leAt f (2 * n) 2)

/-- The tendrils that are UP, ascending. -/
def Hub.upTendrils (s : Hub) : List Nat := [0, 1, 2, 3].filter (fun t => (s.tend t).st == 2)

/-- Sends a class 0 frame on a tendril: copy A, then copy B with COPY_B set (R318). -/
def Hub.send0 (s : Hub) (t type b1 b23 : Nat) (payload : List Byte) : Hub :=
  (s.emit t (frame type b1 b23 payload)).emit t (frame (type + 0x20) b1 b23 payload)

/-- Sends a class 0 frame on every UP tendril except one. -/
def Hub.flood0 (s : Hub) (except : Option Nat) (type b1 b23 : Nat) (payload : List Byte) : Hub :=
  doEach (s.upTendrils.filter (fun t => some t != except)) s (fun s t => s.send0 t type b1 b23 payload)

/-- Sends a class 2 frame on a tendril with the next SEQ, keeping it until it is acknowledged; with 32 frames unacknowledged, or
while the tendril is not UP, the frame waits (R320, R321). A waiting frame has SEQ 0. -/
def Hub.send2 (s : Hub) (t type dest : Nat) (payload : List Byte) : Hub :=
  let x := s.tend t
  if x.st == 2 && x.unacked.length < 32 then
    let f := frame type x.txSeq dest payload
    s.setTend t { x with
      txSeq := (x.txSeq + 1) % 256
      unacked := x.unacked ++ [f]
      ackAt := if x.unacked.isEmpty then s.time.hclk else x.ackAt
      txQ := x.txQ ++ [f] }
  else
    s.setTend t { x with waitQ := x.waitQ ++ [frame type 0 dest payload] }

/-- Sends the waiting class 2 frames of a tendril while there is room among the unacknowledged ones. -/
def Hub.drainWait (s : Hub) (t : Nat) : Hub :=
  let q := (s.tend t).waitQ
  let s := s.setTend t { s.tend t with waitQ := [] }
  doEach q s (fun s f => s.send2 t (leAt f 0 1) (leAt f 2 2) ((f.drop 4).take 16))

/-- The broadcast address of the hub's package (R323). -/
def Hub.broadcast (s : Hub) : Nat := packageOf s.hubAddr * 128 + 127

/-- The route to a hub: its tendril, where the table has a valid entry (R322). -/
def Hub.routeTo (s : Hub) (hub : Nat) : Option Nat :=
  let r := s.fed.routes.get (fieldOf hub) {}
  if r.valid && packageOf hub == packageOf s.hubAddr then some r.tendril else none

/-- Sends a class 2 frame to every hub of the package, on every UP tendril except one (R323). -/
def Hub.flood2 (s : Hub) (except : Option Nat) (type : Nat) (payload : List Byte) : Hub :=
  doEach (s.upTendrils.filter (fun t => some t != except)) s (fun s t => s.send2 t type s.broadcast payload)

/-- Sends a class 2 frame to a hub over the route table; with no valid route it is dropped (R323). -/
def Hub.sendTo (s : Hub) (dest type : Nat) (payload : List Byte) : Hub :=
  if dest == s.broadcast then s.flood2 none type payload
  else
    match s.routeTo dest with
    | some t => s.send2 t type dest payload
    | none => s.err Er.FED_NO_ROUTE

/-- The payload of a CMD frame. -/
def cmdPayload (source opcode txn : Nat) (args : List Byte) : List Byte :=
  le 2 source ++ le 1 opcode ++ le 1 txn ++ padTo 12 args

/-- The payload of a RESP frame. -/
def respPayload (source opcode txn status : Nat) (data : List Byte) : List Byte :=
  le 2 source ++ le 1 opcode ++ le 1 txn ++ le 1 status ++ zeros 3 ++ padTo 8 data

/-- The TXN of the next request: the first from the counter on under which no request awaits its answer (R333). -/
def Hub.newTxn (s : Hub) : Nat :=
  let used := s.fed.reqs.map (fun q => q.txn)
  (((List.range 256).map (fun n => (s.fed.nextTxn + n) % 256)).find? (fun n => !used.contains n)).getD s.fed.nextTxn

/-- Sends a CMD that needs no answer, under a new TXN. -/
def Hub.sendCmd (s : Hub) (dest opcode : Nat) (args : List Byte) : Hub :=
  let txn := s.newTxn
  let s := { s with fed := { s.fed with nextTxn := (txn + 1) % 256 } }
  s.sendTo dest Ft.CMD (cmdPayload s.hubAddr opcode txn args)

/-- Sends a CMD that awaits an answer (R333): the request is kept under its TXN until the answer or FED_CMD_TIMEOUT; with 256 awaiting
answers it waits for a TXN (DESIGN CHOICE, log entry 333). -/
def Hub.sendRequest (s : Hub) (dest opcode : Nat) (args : List Byte) (who : RemoteWho) (arg : Nat) : Hub :=
  let txn := s.newTxn
  let req : RemoteReq := { txn := txn, dest := dest, opcode := opcode, sentAt := s.time.hclk, who := who, arg := arg }
  if 256 ≤ s.fed.reqs.length then { s with fed := { s.fed with reqWait := s.fed.reqWait ++ [(req, args)] } }
  else
    let s := { s with fed := { s.fed with nextTxn := (txn + 1) % 256, reqs := s.fed.reqs ++ [req] } }
    s.sendTo dest Ft.CMD (cmdPayload s.hubAddr opcode txn args)

/-- Answers a CMD with a RESP (R318). -/
def Hub.answer (s : Hub) (dest opcode txn status : Nat) (data : List Byte) : Hub :=
  s.sendTo dest Ft.RESP (respPayload s.hubAddr opcode txn status data)

/-- The package members other than this hub: hubs with a valid route (R324). -/
def Hub.members (s : Hub) : List Nat :=
  (s.fed.routes.cells.filter (fun p => p.2.valid)).map (fun p => packageOf s.hubAddr * 128 + p.1)

/-! ### SYNC frames, R48 and R318 -/

def SyncKind.ESTABLISH : Nat := 0
def SyncKind.CHECK : Nat := 1
def SyncKind.RESYNC : Nat := 2
def SyncKind.REPLY : Nat := 3

/-- Sends a SYNC frame on one tendril: the GCN of this edge and the epoch number. -/
def Hub.sendSync (s : Hub) (t kind origin : Nat) : Hub :=
  s.emit t (frame Ft.SYNC kind 0 (le 8 s.time.gcn ++ le 4 s.epoch ++ le 2 origin))

/-- Sends a SYNC frame on every UP tendril except one. -/
def Hub.floodSync (s : Hub) (except : Option Nat) (kind origin : Nat) : Hub :=
  doEach (s.upTendrils.filter (fun t => some t != except)) s (fun s t => s.sendSync t kind origin)

/-! ### ANNOUNCE, R322 -/

/-- Byte 7 of an ANNOUNCE: LEAD, PAIR, SAFE, MASTER. -/
def Hub.announceFlags (s : Hub) : Nat :=
  b2n s.isLead + 2 * b2n s.isPair + 4 * b2n s.isSafe + 8 * s.rd F.TIME_STATE_IS_MASTER

/-- Floods a fresh ANNOUNCE with HOPS 0 under the next ROUND. -/
def Hub.announce (s : Hub) : Hub :=
  let s := { s with fed := { s.fed with round := (s.fed.round + 1) % 0x100000000, lastAnn := s.time.hclk } }
  s.flood2 none Ft.ANNOUNCE
    (le 2 s.hubAddr ++ le 1 0 ++ le 1 s.announceFlags ++ le 4 s.fed.round)

/-! ### Training again, R319 and R325 -/

/-- The sequence numbers of a tendril start again (R320, R325); its transmitter keeps no class 2 frame. -/
def Tendril.restart (x : Tendril) : Tendril :=
  let keep (f : List Byte) : Bool := Fr.cls f != 2
  { x with txSeq := 0, rxExpect := 0, rxUnacked := 0, badRun := 0, resendRun := 0, txQ := x.txQ.filter keep
           sending := x.sending.filter (fun (p : List Byte × Nat) => keep p.1) }

/-- A tendril that is not in use sends nothing. -/
def Tendril.silent (x : Tendril) : Tendril := { x.restart with txQ := [], sending := none }

/-- The class 2 frames of a tendril not yet acknowledged join those that wait, oldest first; broadcasts are dropped. -/
def Tendril.requeue (x : Tendril) (bcast : Nat) : Tendril :=
  { x with unacked := [], waitQ := (x.unacked ++ x.waitQ).filter (fun f => Fr.dest f != bcast) }

/-- Sends a TRAIN frame on a tendril: the own count and an echoed one (R318, R319). -/
def Hub.sendTrain (s : Hub) (t echo echoed : Nat) : Hub :=
  s.emit t (frame Ft.TRAIN echo 0 (le 4 s.time.hclk ++ le 4 echoed))

/-- Begins a training of a tendril that was in use; its unacknowledged class 2 frames are dropped (R325). -/
def Hub.retrain (s : Hub) (t : Nat) : Hub :=
  let x := { s.tend t with unacked := [] }.silent
  (s.setTend t { x with st := 1, failedAt := s.time.hclk }).sendTrain t 0 0

end Sys2Proof.Machine
end

