-- ==== Sys2Proof/Machine/Time.lean ====
section
/-! DEFINITION. The time base (02_time_base.md): establishing, stepping and joining GCN, TB_SYNC, the checks between
hubs, and partition clock changes. -/

namespace Sys2Proof.Machine

/-! ### Effects of a GCN step -/

/-- Makes every tile of a context emit a SYNC with the reason before its next packet, closing its delta chain (R47, R204). (DEDUCED, log entry 65) -/
def Hub.traceResync (s : Hub) (reason : Nat) : Hub :=
  { s with tiles := ⟨s.tiles.cells.map (fun p =>
      if p.2.st == .inContext then (p.1, { p.2 with syncDue := some reason, chain := none }) else p)⟩ }

/-- Ends a grant record and raises GRANT_END (R390). -/
def Hub.endGrant (s : Hub) (g : Nat) : Hub :=
  let s := { s with auth := { s.auth with grants := s.auth.grants.set g {} } }
  s.raiseOf Ev.GRANT_END g

/-- OPEN mode is allowed (R211). -/
def Hub.openAllowed (s : Hub) : Bool :=
  s.boot.life == Life.MANUFACTURE || s.boot.life == Life.RETURN || (!s.scrapped && s.granted Right.OPEN)

/-- The context of a slot is visible in the effective mode. -/
def Hub.visible (s : Hub) (slot : Nat) : Bool :=
  if s.flag F.TRACE_STATE_EFF_OPEN then true
  else match (s.dom slot).priv with
    | 0 => true
    | 1 => s.covers Right.SYSTEM slot
    | _ => false

/-- Makes the spurs of a context emit a SYNC with a reason before their next packet. -/
def Hub.traceContext (s : Hub) (slot reason : Nat) : Hub :=
  doEach (s.slotTiles slot) s (fun s t => s.setTile t { s.tile t with syncDue := some reason, chain := none })

/-- A grant began or ended since the hub was `old`: when the OPEN grant is over, OPEN trace becomes NATIVE (R212); the spurs whose visibility changed
emit a SYNC with reason COMMAND (R204). -/
def Hub.traceGrants (s old : Hub) : Hub :=
  if !s.flag F.TRACE_STATE_RUNNING then s
  else if s.flag F.TRACE_STATE_EFF_OPEN && !s.openAllowed then
    ((s.wr F.TRACE_STATE_EFF_OPEN 0).wr F.TRACE_STATE_OPEN_DENIED 1).traceResync 7 |>.raise Ev.OPEN_DENIED
  else doEach (s.openSlots.filter (fun z => s.visible z != old.visible z)) s (fun s z => s.traceContext z 7)

/-- Ends every grant with an absolute expiry (R47, R390). -/
def Hub.endAbsGrants (s : Hub) : Hub :=
  (doEach ((s.auth.grants.cells.filter (fun p => p.2.valid && p.2.abs)).map Prod.fst) s Hub.endGrant).traceGrants s

/-- A join ends every pending WAITT with result 1 (R447). -/
def Hub.joinWaits (s : Hub) : Hub :=
  { s with coops := ⟨s.coops.cells.map (fun p =>
      match p.2.wait with
      | .gcn rd v _ => (p.1, { p.2 with wait := .gcn rd v true })
      | _ => p)⟩ }

/-- GCN reads `value` on this edge under an epoch number. Both origins are re-expressed (R35, R47); a hub that had no time base will
restart its dividers at the smallest multiple of 30 that is at least e + 1 (R35); the power and numeric watch windows in
progress end short (R89, R271) unless GCN already held the value. An arm that waits goes on waiting (R52, R60). The model's choice where the spec is
silent: a restart still to come is reckoned anew from the new GCN (DESIGN CHOICE, log entry 301), and a pending clock change and the next expected
TB_SYNC pulse keep the GCN they were stated in (DESIGN CHOICE, log entries 302 and 303). -/
def Hub.loadGcn (s : Hub) (value epoch : Nat) : Hub :=
  let had := s.timeOk
  let old := s.now
  let e : Nat := value % 2 ^ 64
  let shift : Int := (e : Int) - old
  let s := s.setOrigin 0 (s.origin 0 + shift)
  let s := s.setOrigin 1 (s.origin 1 + shift)
  let restart := if had && s.time.restartAt.isNone then none else some ((e + 1 + 29) / 30 * 30 % 2 ^ 64)
  let s := { s with time := { s.time with gcn := e, restartAt := restart } }
  let s := if e == old && had then s else
    { s with
      power := { s.power with winStart := e, short := e % 12500 != 0, sampleInWin := false,
                              sample := if s.power.sampleInWin then s.power.prevSample else s.power.sample
                              sampleAt := if s.power.sampleInWin then s.power.prevAt else s.power.sampleAt }
      time := { s.time with numwFrom := e } }
  let s := s.wr F.TIME_EPOCH_EPOCH epoch
  let s := s.wr F.TIME_STATE_STATE (if s.time.armedAt.isSome then 2 else 1)
  s.wr F.TIME_STATE_PKG_OK 1

/-- Establishment and re-epoch (R44, R46, R47): the trace resyncs and grants with an absolute expiry end. -/
def Hub.enterEpoch (s : Hub) (e epoch : Nat) : Hub :=
  let s := s.loadGcn e epoch
  let s := (s.traceResync 5).endAbsGrants
  ({ s with fed := { s.fed with joining := false } }).raiseOf Ev.TIME_ESTABLISHED (epoch % 65536)

/-- A join (R47, R52, R326): as a re-epoch, and pending WAITTs end; `how` is the tendril, or 4 for TB_SYNC. -/
def Hub.joinEpoch (s : Hub) (e epoch how : Nat) : Hub :=
  let s := s.loadGcn e epoch
  let s := ((s.traceResync 5).endAbsGrants).joinWaits
  let s := { s with fed := { s.fed with joining := false } }
  let s := s.wr F.FED_SELF_JOINED 1
  s.raiseOf Ev.TIME_JOINED how

/-- The time master establishes GCN 0 under an epoch number and floods SYNC ESTABLISH (R44). -/
def Hub.establish (s : Hub) (epoch : Nat) : Hub :=
  let s := s.enterEpoch 0 epoch
  s.floodSync none SyncKind.ESTABLISH s.hubAddr

/-! ### The master role, R45 -/

/-- Sets IS_MASTER; a change floods a fresh ANNOUNCE. -/
def Hub.setMaster (s : Hub) (v : Bool) : Hub :=
  if s.flag F.TIME_STATE_IS_MASTER == v then s else (s.wr F.TIME_STATE_IS_MASTER (b2n v)).announce

/-- The hub gives up the role to another hub. -/
def Hub.yieldMaster (s : Hub) (keeper : Nat) : Hub :=
  let s := s.wr F.TIME_CTRL_MASTER 0
  let s := { s with boot := { s.boot with flooding := false, reading := false } }
  (s.setMaster false).raiseOf Ev.MASTER_YIELDED keeper

/-- An ANNOUNCE with MASTER set from another hub of the package reaches a hub that holds the role. -/
def Hub.meetMaster (s : Hub) (other : Nat) : Hub :=
  if s.flag F.TIME_STATE_IS_MASTER && packageOf other == packageOf s.hubAddr && other != s.hubAddr then
    if fieldOf other < fieldOf s.hubAddr then s.yieldMaster other
    else if s.timeOk then s.floodSync none SyncKind.RESYNC s.hubAddr
    else s
  else s

/-! ### TIME_CMD, R55, R56 and R60 -/

/-- An operation stated at an absolute GCN is pending: a clock change, a time-aligned cork, a WAITT (R46). -/
def Hub.gcnPending (s : Hub) : Bool :=
  s.time.chgW.isSome || s.time.chgE.isSome || s.corks.any (fun c => c.op == 1 && c.mode == 3) ||
  s.coops.cells.any (fun p => match p.2.wait with | .gcn _ _ _ => true | _ => false)

/-- FED_DOMAIN.PACKAGES has more than one bit set. -/
def Hub.multiPackage (s : Hub) : Bool := 1 < popCount 16 (s.rd F.FED_DOMAIN_PACKAGES)

/-- Writes TIME_CMD_STATUS; DONE is 0 while an arm is outstanding (R58). -/
def Hub.timeStatus (s : Hub) (op status : Nat) (done : Bool) : Hub :=
  ((s.wr F.TIME_CMD_STATUS_STATUS status).wr F.TIME_CMD_STATUS_OP op).wr F.TIME_CMD_STATUS_DONE (b2n (done && s.time.armedAt.isNone))

/-- Sets or clears the pending change of a partition, with its bit of TIME_CLK_DIV. -/
def Hub.setChg (s : Hub) (part : Nat) (c : Option (Nat × Nat)) : Hub :=
  if part == 0 then ({ s with time := { s.time with chgW := c } }).wr F.TIME_CLK_DIV_WEST_PEND (b2n c.isSome)
  else ({ s with time := { s.time with chgE := c } }).wr F.TIME_CLK_DIV_EAST_PEND (b2n c.isSome)

/-- The status of a TIME_CMD operation by the rows of R60. -/
def Hub.timeCheck (s : Hub) (op : Nat) : Nat :=
  let epochArg := s.rd F.TIME_ARG_EPOCH_EPOCH
  let state := s.rd F.TIME_STATE_STATE
  let armEpoch := if epochArg == 0 then (if s.timeOk then s.epoch else 1) else epochArg
  if s.isSafe then St.FAULT
  else if op == 0 || 6 < op then St.BAD_ARG
  else if op ≤ 4 && !s.flag F.TIME_STATE_IS_MASTER then St.UNSUPPORTED
  else if (op == 1 && state != 0) || (op == 2 && epochArg != 0 && epochArg == s.epoch) ||
      (op == 4 && !s.flag F.TIME_CTRL_TBS_EN) || (op == 6 && (s.pendingChg (s.rd F.TIME_CLKCHG_REQ_PART)).isNone)
    then St.BAD_ARG
  else if op == 2 && s.multiPackage then St.UNSUPPORTED
  else if ((op == 2 || op == 3) && !s.timeOk) || (op == 4 && state == 2) ||
      ((op == 2 || (op == 4 && armEpoch != s.epoch)) && s.gcnPending) then St.BUSY
  else St.OK

/-- ESTABLISH (R60). -/
def Hub.timeEstablish (s : Hub) : Hub :=
  let st := s.timeCheck 1
  if st == St.OK then
    let e := s.rd F.TIME_ARG_EPOCH_EPOCH
    (s.establish (if e == 0 then 1 else e)).timeStatus 1 St.OK true
  else s.timeStatus 1 st true

/-- REEPOCH (R46, R60). -/
def Hub.timeReepoch (s : Hub) : Hub :=
  let st := s.timeCheck 2
  if st == St.OK then
    let e := s.rd F.TIME_ARG_EPOCH_EPOCH
    let next := if s.epoch == 0xFFFFFFFF then 1 else s.epoch + 1
    (s.establish (if e == 0 then next else e)).timeStatus 2 St.OK true
  else s.timeStatus 2 st true

/-- RESYNC (R49). -/
def Hub.timeResync (s : Hub) : Hub :=
  let st := s.timeCheck 3
  if st == St.OK then (s.floodSync none SyncKind.RESYNC s.hubAddr).timeStatus 3 St.OK true
  else s.timeStatus 3 st true

/-- ARM_TBS (R51, R60). -/
def Hub.timeArm (s : Hub) : Hub :=
  let st := s.timeCheck 4
  if st == St.OK then
    let e := s.rd F.TIME_ARG_EPOCH_EPOCH
    let s := { s with time := { s.time with
      armGcn := s.reg64 R.TIME_TBS_GCN_LO
      armEpoch := if e == 0 then (if s.timeOk then s.epoch else 1) else e
      armComp := signed 8 (s.rd F.TIME_TBS_COMP_COMP)
      armedAt := some s.time.hclk } }
    ((s.wr F.TIME_STATE_STATE 2).wr F.TIME_TBS_LAST_COUNT 0).timeStatus 4 St.OK false
  else s.timeStatus 4 st true

/-- A slot has a cork, step, resume, harvest or decant in progress (R24, R55). -/
def Hub.slotBusy (s : Hub) (slot : Nat) : Bool :=
  s.corks.any (fun c => c.slots.contains slot) || (s.harv.op != 0 && s.harv.slots.contains slot)

/-- The status of a clock change request by the rows of R55 and the row R331 adds. -/
def Hub.clkchgCheck (s : Hub) (part declared : Nat) : Nat :=
  if !s.timeOk then St.BUSY
  else if s.anySpans || s.openSlots.any (fun z => s.slotIn z part && s.rdB F.FED_JOB_FEDERATED z == 1) then St.SCOPE_SPLIT
  else if (s.pendingChg part).isSome then St.BUSY
  else if s.openSlots.any (fun z => s.slotIn z part && (s.slotBusy z || (s.dom z).failedDecant)) then St.BUSY
  else if !reachedGcn (s.now + 1024) declared then St.TOO_SOON
  else if !reachedGcn declared (s.now + 2 ^ 32) then St.BAD_ARG
  else St.OK

/-- The GCN at which a declared change takes effect: the next period at or after it that the present alignment step allows (R54). -/
def Hub.applyGcn (s : Hub) (part declared : Nat) : Nat :=
  let step := alignOf (s.divCode part)
  s.origin part + roundUp (declared - s.origin part) step

/-- Accepts a clock change: pending until G_c, unless the code is the present one (R55). (DESIGN CHOICE, log entry 339) -/
def Hub.acceptChg (s : Hub) (part code declared : Nat) : Hub :=
  if code == s.divCode part then s
  else
    let gc := s.applyGcn part declared
    (s.setChg part (some (code, gc))).setReg64 R.TIME_CLKCHG_APPLY_LO gc

/-- CLKCHG (R55). -/
def Hub.timeClkchg (s : Hub) : Hub :=
  let part := s.rd F.TIME_CLKCHG_REQ_PART
  let code := s.rd F.TIME_CLKCHG_REQ_DIV
  let declared := s.reg64 R.TIME_CLKCHG_GCN_LO
  let st := s.timeCheck 5
  if st != St.OK then s.timeStatus 5 st true
  else
    let st := s.clkchgCheck part declared
    if st == St.OK then (s.acceptChg part code declared).timeStatus 5 St.OK true
    else s.timeStatus 5 st true

/-- CLKCHG_CANCEL (R56): up to G_c − 64. (DEDUCED, log entry 64) -/
def Hub.timeCancel (s : Hub) : Hub :=
  let part := s.rd F.TIME_CLKCHG_REQ_PART
  let st := s.timeCheck 6
  if st != St.OK then s.timeStatus 6 st true
  else
    match s.pendingChg part with
    | some (_, gc) =>
      if reachedGcn (s.now + 64) gc then ((s.setChg part none).raiseOf Ev.CLKCHG_CANCELLED part).timeStatus 6 St.OK true
      else s.timeStatus 6 St.TOO_SOON true
    | none => s.timeStatus 6 St.BAD_ARG true

/-- A write of TIME_CMD. -/
def Hub.timeCmd (s : Hub) (op : Nat) : Hub :=
  match op with
  | 1 => s.timeEstablish
  | 2 => s.timeReepoch
  | 3 => s.timeResync
  | 4 => s.timeArm
  | 5 => s.timeClkchg
  | 6 => s.timeCancel
  | _ => s.timeStatus op (s.timeCheck op) true

/-- A write of TIME_CTRL.MASTER: effective only in a lead-designated hub (R44, R45). -/
def Hub.timeCtrlWritten (s : Hub) : Hub := s.setMaster (s.isLead && s.flag F.TIME_CTRL_MASTER)

/-! ### Events of the time base -/

/-- The running domains of a partition treat their next edge as a stall cycle (R35, R54); one whose stop has come is stopped (R56). -/
def Hub.stallNext (s : Hub) (part : Nat) : Hub :=
  doEach (s.runningSlots.filter (fun z => s.domPart z == part && !(s.dom z).held)) s
    (fun s z => s.setDom z { s.dom z with clkStall := true })

/-- Both partition dividers restart with origin G_r, edge 0 stalled (R35). -/
def Hub.restartClocks (s : Hub) (g : Nat) : Hub :=
  let s := (((s.setOrigin 0 g).setOrigin 1 g).stallNext 0).stallNext 1
  { s with time := { s.time with restartAt := none } }

/-- At G_r both partition dividers restart with new origins (R35). -/
def Hub.dividerRestart (s : Hub) : Hub :=
  match s.time.restartAt with
  | some g =>
    if reachedGcn g s.time.gcn then
      s.restartClocks g
    else s
  | none => s

/-- A partition's new divider, with its new origin and its stalled edge 0 (R54). -/
def Hub.changeClock (s : Hub) (part code gc : Nat) : Hub :=
  let s := if part == 0 then s.wr F.TIME_CLK_DIV_WEST code else s.wr F.TIME_CLK_DIV_EAST code
  ((s.setChg part none).setOrigin part gc).stallNext part

/-- At G_c the new divider takes effect (R54). -/
def Hub.clkchgApplied (s : Hub) (part : Nat) : Hub :=
  match s.pendingChg part with
  | some (code, gc) =>
    if reachedGcn gc s.time.gcn then (s.changeClock part code gc).raiseOf Ev.CLKCHG_APPLIED part else s
  | none => s

/-- Marks a TB_SYNC fault: the error bit and TBS_FAULT (R50 to R53). -/
def Hub.tbsFault (s : Hub) (e : ErrBit) : Hub := (s.err e).raise Ev.TBS_FAULT

/-- The GCN expected of the next repeated pulse: TIME_TBS_PERIOD after the last one reckoned with, modulo 2^64 (R37, R53). -/
def Hub.nextPulse (s : Hub) : Option Nat :=
  let p := s.rd F.TIME_TBS_PERIOD_PERIOD
  if p == 0 then none else s.time.pulseGcn.map (fun g => (g + p) % 2 ^ 64)

/-- TIME_TBS_PERIOD is written: pulses repeat every period after the arming pulse, so the next expected one is the first of them still to come. -/
def Hub.tbsPeriodWritten (s : Hub) : Hub :=
  let p := s.rd F.TIME_TBS_PERIOD_PERIOD
  match s.time.pulseGcn with
  | some g =>
    if p == 0 then s
    else { s with time := { s.time with pulseGcn := some ((g + (s.time.gcn + 2 ^ 64 - g) % 2 ^ 64 / p * p) % 2 ^ 64) } }
  | none => s

/-- The TB_SYNC check of a repeated pulse or of its absence: a deviation of 2 HCLK or more, and the new expectation (R53). An absent pulse counts as a
checked one in TIME_TBS_LAST.COUNT (DESIGN CHOICE, log entry 304). -/
def Hub.tbsChecked (s : Hub) (dev : Int) (e : ErrBit) (expected : Nat) : Hub :=
  let s := s.wr F.TIME_TBS_LAST_DEV (satSigned 8 dev)
  let s := s.bump F.TIME_TBS_LAST_COUNT 1
  let s := { s with time := { s.time with pulseGcn := some expected } }
  if dev ≤ 1 && -1 ≤ dev then s else (s.wr F.TIME_STATE_XPKG_OK 0).tbsFault e

/-- A rising edge of TB_SYNC seen by the master, 8 HCLK after its first sight; `high` is for how many HCLK it stayed high
(R50, R51, R53). (DESIGN CHOICE, log entry 337) -/
def Hub.tbSyncPulse (s : Hub) (high : Nat) : Hub :=
  if !(s.flag F.TIME_STATE_IS_MASTER && s.flag F.TIME_CTRL_TBS_EN) then s
  else
    let close := match s.time.lastPulse with
      | some t => s.time.hclk < t + 1024
      | none => false
    if high < 8 || close then s.tbsFault Er.TIME_TBS_GLITCH
    else
      let s := { s with time := { s.time with lastPulse := some s.time.hclk } }
      if s.rd F.TIME_STATE_STATE == 2 then
        let at_ : Int := (s.time.armGcn : Int) + 11 + s.time.armComp
        let e := (at_ % (2 ^ 64 : Nat)).toNat
        let s := { s with time := { s.time with armedAt := none } }
        let join := s.timeOk && s.time.armEpoch == s.epoch
        let s := if join then s.joinEpoch e s.time.armEpoch 4 else s.enterEpoch e s.time.armEpoch
        let s := s.wr F.TIME_STATE_XPKG_OK (b2n s.multiPackage)
        let s := { s with time := { s.time with pulseGcn := some ((e + 2 ^ 64 - 8) % 2 ^ 64) } }
        let s := s.floodSync none SyncKind.ESTABLISH s.hubAddr
        s.timeStatus 4 St.OK true
      else
        match s.nextPulse with
        | some g => s.tbsChecked (signed 64 (unsigned 64 ((s.time.gcn : Int) - 8 - g))) Er.TIME_TBS_DEV g
        | none => s

/-- An armed master saw no pulse within 2^32 HCLK (R52). -/
def Hub.tbsArmTimeout (s : Hub) : Hub :=
  match s.time.armedAt with
  | some t =>
    if s.rd F.TIME_STATE_STATE == 2 && s.elapsed t (2 ^ 32) then
      let s := { s with time := { s.time with armedAt := none } }
      let s := s.wr F.TIME_STATE_STATE (b2n s.timeOk)
      (s.timeStatus 4 St.TIMEOUT true).raise Ev.TBS_FAULT
    else s
  | none => s

/-- An expected repeated pulse is absent for TIME_TBS_PERIOD + 2 HCLK (R53). (DESIGN CHOICE, log entry 62) -/
def Hub.tbsMiss (s : Hub) : Hub :=
  match s.nextPulse with
  | some g =>
    if reachedGcn (g + 2) s.time.gcn then s.tbsChecked (signed 64 (unsigned 64 ((s.time.gcn : Int) - g))) Er.TIME_TBS_MISS g else s
  | none => s

/-- Every TIME_SYNC_PERIOD the hub sends its GCN on every tendril (R49). -/
def Hub.syncCheckPeriod (s : Hub) : Hub :=
  let p := s.rd F.TIME_SYNC_PERIOD_PERIOD
  if s.timeOk && s.elapsed s.time.lastSync (if p < 4096 then 4096 else p) then
    let s := { s with time := { s.time with lastSync := s.time.hclk } }
    s.floodSync none SyncKind.CHECK s.hubAddr
  else s

/-- The GCN that a SYNC frame with value `v` gives the receive edge: V + 12 (R48). (DEDUCED, log entry 61) -/
def syncValue (v : Nat) : Nat := (v + Config.tendrilLatency) % 2 ^ 64

/-- The signed difference between a received value and the hub's GCN. -/
def Hub.syncDiff (s : Hub) (v : Nat) : Int := signed 64 (unsigned 64 ((syncValue v : Int) - s.time.gcn))

/-- A GCN comparison failed (R49): recorded and raised, GCN not corrected. -/
def Hub.syncMismatch (s : Hub) (t v : Nat) : Hub :=
  let s := s.err Er.TIME_SYNC_MISMATCH
  let s := (s.wr F.TIME_SYNC_ERR_TENDRIL t).wr F.TIME_SYNC_ERR_DIFF (satSigned 16 (s.syncDiff v))
  (s.wr F.TIME_STATE_PKG_OK 0).raiseOf Ev.TIME_MISMATCH t

/-- SYNC ESTABLISH received on tendril `t` (R48, R49). -/
def Hub.syncEstablish (s : Hub) (t v epoch origin : Nat) : Hub :=
  if s.timeOk && epoch == s.epoch then
    if s.syncDiff v == 0 then s else s.syncMismatch t v
  else
    let s := s.enterEpoch (syncValue v) epoch
    s.floodSync (some t) SyncKind.ESTABLISH origin

/-- SYNC CHECK received (R49); a hub that waits to re-join after a takeover takes its GCN from it (R325). An equal GCN under another epoch number counts
as a mismatch (DESIGN CHOICE, log entry 305). (DESIGN CHOICE, log entry 338) -/
def Hub.syncCheck (s : Hub) (t v epoch : Nat) : Hub :=
  if s.fed.joining then s.joinEpoch (syncValue v) epoch t
  else if !s.timeOk || !s.flag F.TIME_CTRL_SYNC_CHECK_EN then s
  else if s.syncDiff v == 0 && epoch == s.epoch then s
  else s.syncMismatch t v

/-- SYNC RESYNC received (R49): a hub whose GCN or epoch differs steps to the flooded value. A copy within 1,024 HCLK of the
last one forwarded is a duplicate of the same flood and is not forwarded again (log entry 9); a duplicate, or a copy back at the hub that floods it, whose value
disagrees is a mismatch, and GCN is not corrected. -/
def Hub.syncResync (s : Hub) (t v epoch origin : Nat) : Hub :=
  let dup := match s.time.resyncAt with
    | some (a, from_) => s.time.hclk < a + 1024 && from_ == origin
    | none => false
  let diff := s.syncDiff v
  let again := dup || origin == s.hubAddr
  let s :=
    if s.timeOk && diff == 0 && epoch == s.epoch then s.wr F.TIME_STATE_PKG_OK 1
    else if again && s.timeOk then s.syncMismatch t v
    else
      let s := (s.wr F.TIME_SYNC_ERR_TENDRIL t).wr F.TIME_SYNC_ERR_DIFF (satSigned 16 diff)
      (s.loadGcn (syncValue v) epoch).raiseOf Ev.TIME_STEPPED t
  if again then s
  else
    let s := { s with time := { s.time with resyncAt := some (s.time.hclk, origin) } }
    s.floodSync (some t) SyncKind.RESYNC origin

/-- SYNC REPLY received (R326). -/
def Hub.syncReply (s : Hub) (t v epoch : Nat) : Hub :=
  if s.fed.joining then s.joinEpoch (syncValue v) epoch t
  else if s.timeOk && (s.syncDiff v != 0 || epoch != s.epoch) then s.syncMismatch t v
  else s

/-- A TIME_REQ command from a neighbour is answered with a SYNC REPLY on its tendril (R326). -/
def Hub.timeReq (s : Hub) (t : Nat) : Hub :=
  if s.timeOk then s.sendSync t SyncKind.REPLY s.hubAddr else s

end Sys2Proof.Machine
end

