-- ==== Sys2Proof/Machine/Cork.lean ====
section
/-! DEFINITION. The cork unit (03_cork.md, and 11_federation.md for waves across fields): STOP, STEP, RESUME and ABORT from
acceptance to completion, the reports of the spurs and of other hubs, and stall waves. -/

namespace Sys2Proof.Machine

/-! ### Lead and targets, R64 to R67 -/

/-- L_min of R65. (DESIGN CHOICE, log entry 233) -/
def Hub.lMin (s : Hub) (a : CorkArgs) : Nat :=
  if a.xpkg then (let v := s.rd F.CORK_XPKG_LEAD_HCLK; if v < 25000 then 25000 else v)
  else if a.fed then 32 + 28 * s.rd F.FED_SELF_MAX_HOPS
  else 32

/-- The period P of R66 on which cycle T + 1 would begin, none when T has passed (T ≤ S_a); a pending clock change splits the count (R42). -/
def Hub.stopPeriod (s : Hub) (slot t : Nat) : Option Nat :=
  let sa := (s.dom slot).scn
  if t ≤ sa then none else some (s.periodOf (s.domPart slot) s.now (t - sa))

/-- The smallest T whose period is at or after `g` (R67), counted as R42 says. -/
def Hub.asapTarget (s : Hub) (slot g : Nat) : Nat :=
  (s.dom slot).scn + s.edgesOf (s.domPart slot) s.now g

/-- The schedule cycle T a STOP gives a domain (R64); none in GCN mode. Mode 4 is a trigger cork: the ASAP target plus CORK_TRIG_DELAY
(R96, R214). -/
def Hub.stopTarget (s : Hub) (a : CorkArgs) (slot : Nat) : Option Nat :=
  match a.mode with
  | 0 => some (s.asapTarget slot (s.now + s.lMin a))
  | 1 => some a.target
  | 2 => some ((s.dom slot).scn + a.target)
  | 4 => some (s.asapTarget slot (s.now + s.lMin a) + a.target)
  | _ => none

/-- The predicted stop period of a domain without further stalls (R66, R75). -/
def Hub.stopAt (s : Hub) (a : CorkArgs) (slot : Nat) : Option Nat :=
  match s.stopTarget a slot with
  | some t => s.stopPeriod slot t
  | none => some a.target

/-! ### Refusals, R79 -/

/-- The scope is against R62 or R64, or an argument is out of range (row 3). -/
def Hub.corkBadArg (s : Hub) (op : Nat) (a : CorkArgs) : Bool :=
  let slots := s.scopeSlots a
  op == 0 || 6 < op || 3 < a.kind ||
  ((a.kind == 0 || a.kind == 2) && (a.fed || a.xpkg)) || (a.kind == 3 && a.xpkg) || (a.xpkg && !a.fed) ||
  (a.kind == 0 && slots.isEmpty) || (a.kind == 1 && slots.isEmpty && !a.fed) ||
  (op == 1 && (a.mode == 1 || a.mode == 2) && 1 < slots.length) ||
  (op == 1 && a.mode == 2 && a.target == 0) || (op == 1 && 4 < a.mode) ||
  (op == 2 && a.count == 0) ||
  (op == 1 && a.mode == 3 && s.timeOk && !reachedGcn a.target (s.now + 2 ^ 32))

/-- The scope covers tiles of both partitions (row 8). -/
def Hub.scopeBoth (s : Hub) (a : CorkArgs) : Bool :=
  let slots := s.scopeSlots a
  let seam := s.rd F.GLB_GRID_SEAM
  let west := slots.any (fun z => s.slotIn z 0) || (a.kind == 3 && 0 < seam) || (a.kind == 2 && a.part == 0)
  let east := slots.any (fun z => s.slotIn z 1) || (a.kind == 3 && seam < s.rd F.GLB_GRID_COLUMNS) || (a.kind == 2 && a.part == 1)
  west && east

/-- The scope of a pending operation overlaps a command's: a domain, a loose tile, or the same federated job (R24, R63). -/
def Hub.overlaps (s : Hub) (a : CorkArgs) (c : CorkOp) : Bool :=
  c.slots.any (s.scopeSlots a).contains || c.loose.any (s.scopeLoose a).contains ||
  (c.fed && a.fed && c.kind == a.kind && (a.kind != 1 || c.tag == a.tag))

/-- Pending STOP operations whose scope overlaps a command's: what an ABORT cancels, each whole (R75; DESIGN CHOICE, log entry 306). -/
def Hub.stopsOn (s : Hub) (a : CorkArgs) : List CorkOp :=
  s.corks.filter (fun c => c.op == 1 && !c.localDone && s.overlaps a c)

/-- Rows 1 to 4 of R79. -/
def Hub.corkCheck4 (s : Hub) (external : Bool) (op : Nat) (a : CorkArgs) : Nat :=
  if s.isSafe then St.FAULT
  else if s.scopeDenied external (s.scopeSlots a) then St.DENIED
  else if s.corkBadArg op a then St.BAD_ARG
  else if op == 1 && a.mode == 3 && !s.timeOk then St.BUSY
  else St.OK

/-- Rows 1 to 8 of R79. -/
def Hub.corkCheck8 (s : Hub) (external : Bool) (op : Nat) (a : CorkArgs) : Nat :=
  let slots := s.scopeSlots a
  if s.corkCheck4 external op a != St.OK then s.corkCheck4 external op a
  else if (a.xpkg && (!s.isLead || !s.multiPackage || !s.flag F.TIME_STATE_XPKG_OK)) ||
      (a.fed && (!s.flag F.FED_CTRL_EN || s.fed.joining)) then St.UNSUPPORTED
  else if op != 4 && slots.any (fun z => s.slotBusy z || (s.dom z).failedDecant) then St.BUSY
  else if ((op == 2 || op == 3) && slots.any (fun z => (s.dom z).st != .stopped)) || (op == 4 && (s.stopsOn a).isEmpty)
    then St.NOT_STOPPED
  else if ((op == 1 && a.mode != 3) || op == 2) && s.scopeBoth a && !s.phaseEq then St.SCOPE_SPLIT
  else St.OK

/-- The domains of the scope that a STOP still has to stop (R501). -/
def Hub.liveSlots (s : Hub) (op : Nat) (a : CorkArgs) : List Nat :=
  (s.scopeSlots a).filter (fun z => op != 1 || (s.dom z).st != .stopped)

/-- Row 9 of R79 for a STOP: L < L_min, or a target that has passed, for any domain of the scope, a stopped one too (R66). -/
def Hub.tooSoon (s : Hub) (a : CorkArgs) : Bool :=
  (a.mode == 3 && !reachedGcn (s.now + s.lMin a) a.target) ||
  (s.scopeSlots a).any (fun z =>
    match s.stopAt a z with
    | some p => !reachedGcn (s.now + s.lMin a) p
    | none => true)

/-- The tiles in no context of the scope that no earlier stop gated. -/
def Hub.looseOpen (s : Hub) (a : CorkArgs) : List Nat := (s.scopeLoose a).filter (fun t => !(s.tile t).gated)

/-- A STOP whose scope is already stopped (row 11). A federated scope is never so: other fields hold part of it. -/
def Hub.alreadyStopped (s : Hub) (a : CorkArgs) : Bool :=
  !a.fed && (s.liveSlots 1 a).isEmpty && (s.looseOpen a).isEmpty

/-- The status of a STOP, STEP, RESUME or ABORT by all rows of R79. -/
def Hub.corkCheck (s : Hub) (external : Bool) (op : Nat) (a : CorkArgs) : Nat :=
  let st := s.corkCheck8 external op a
  if st != St.OK then st
  else if op == 1 && s.tooSoon a then St.TOO_SOON
  else if op == 4 && (s.stopsOn a).any (fun c => c.live.any (fun z => (s.dom z).predP < s.now + s.lMin a) ||
      (match c.gateAt with | some g => g < s.now + s.lMin a | none => false)) then St.TOO_SOON
  else if (a.fed || a.xpkg) && op != 4 && 4 ≤ (s.corks.filter (fun c => (c.fed || c.xpkg) && c.op != 4)).length then St.LIMIT
  else St.OK

/-- The status of STALL_SET and STALL_CLEAR: rows 1 to 3 of R79 as R500 states. -/
def Hub.stallCheck (s : Hub) (external : Bool) (op : Nat) (a : CorkArgs) : Nat :=
  if s.isSafe then St.FAULT
  else if s.scopeDenied external (s.scopeSlots a) then St.DENIED
  else if a.fed || a.xpkg || s.corkBadArg op a then St.BAD_ARG
  else St.OK

/-! ### Stall sources, R80 to R83 and R330 -/

/-- Issues a pattern to a domain (R80). -/
def Hub.patternOf (s : Hub) (slot ga mask bare : Nat) : Hub :=
  let d := s.dom slot
  s.setDom slot { d with
    waiting := d.waiting ++ [(ga, mask, bare)]
    wavesOut := d.wavesOut.filter (fun w => s.time.hclk < w.1 + 2 * Config.trellisLatency) ++ [(s.time.hclk, ga)] }

/-- Issues a pattern that an anchor decided: no share of it is this hub's own MANUAL source. -/
def Hub.pattern (s : Hub) (slot ga mask : Nat) : Hub := s.patternOf slot ga mask mask

/-- The OR of the members' masks at the anchor. -/
def Domain.anchorMask (d : Domain) : Nat := d.memberMasks.foldl (fun m p => m ||| p.2) 0

/-- The anchor takes a member's mask (R330): when the OR changes it floods a STALL frame with Ga = decision + 32 + 40 × HOPS and
applies the pattern to its own domain. -/
def Hub.anchorTake (s : Hub) (slot hub mask : Nat) : Hub :=
  let d := s.dom slot
  let before := d.anchorMask
  let d := { d with memberMasks := (d.memberMasks.filter (fun p => p.1 != hub)) ++ [(hub, mask)] }
  let s := s.setDom slot d
  let now := d.anchorMask
  if now == before then s
  else
    let ga := s.now + 32 + 40 * s.rdB F.FED_JOB_HOPS slot
    let s := s.flood0 none Ft.STALL 0 s.hubAddr (le 2 now ++ le 2 d.tag ++ zeros 4 ++ le 8 ga)
    s.pattern slot ga now

/-- A source of a domain changed: the new effective mask becomes a pattern with the apply GCN `ga`, or goes to the anchor of a
federated slot. -/
def Hub.restall (s : Hub) (slot ga : Nat) : Hub :=
  let d := s.dom slot
  let eff := d.effective
  if s.rdB F.FED_JOB_FEDERATED slot == 1 then
    if eff == d.fedMask then s
    else
      let s := s.setDom slot { d with fedMask := eff }
      let anchor := s.rdB F.FED_JOB_ANCHOR slot
      if anchor == s.rd F.FED_SELF_HUB then s.anchorTake slot anchor eff
      else s.sendRequest anchor Op.STALL_REQ (le 2 eff ++ le 2 d.tag) .unit slot
  else if eff == d.decided then s
  else s.patternOf slot ga eff d.bareMask

/-- STALL_SET on a domain (R500). -/
def Hub.manualSet (s : Hub) (slot mask duration : Nat) : Hub :=
  let ga := s.now + 32
  let s := s.setDom slot { s.dom slot with
    manual := some { mask := mask, ga := ga, left := if duration == 0 then none else some duration } }
  s.restall slot ga

/-- STALL_CLEAR on a domain. -/
def Hub.manualClear (s : Hub) (slot : Nat) : Hub :=
  let s := s.setDom slot { s.dom slot with manual := none }
  s.restall slot (s.now + 32)

/-! ### Waves down the trellis, R63, R68 to R73 -/

/-- Sends a wave to a spur. -/
def Hub.wave (s : Hub) (t : Nat) (w : SpurWave) : Hub :=
  s.setTile t { s.tile t with wave := some { w with sentAt := s.time.hclk } }

/-- Sends a wave to every tile of a slot. -/
def Hub.waveSlot (s : Hub) (slot : Nat) (w : SpurWave) : Hub := doEach (s.slotTiles slot) s (fun s t => s.wave t w)

/-- Forgets the STOPPED reports of a slot's earlier stop. -/
def Hub.clearReports (s : Hub) (slot : Nat) : Hub :=
  doEach (s.slotTiles slot) s (fun s t => s.setTile t { s.tile t with reported := false, report := none })

/-- A domain accepts a stop: STOPPING, the target, the wave that arms its spurs. -/
def Hub.startStop (s : Hub) (a : CorkArgs) (slot : Nat) : Hub :=
  let target := s.stopTarget a slot
  let p := (s.stopAt a slot).getD s.now
  let s := s.clearReports slot
  let s := s.setDom slot { s.dom slot with
    st := .stopping, stopScn := target, stopAtGcn := if target.isNone then some a.target else none, predP := p,
    stepping := false, stopNow := false, firstReport := none, reached := none, held := false, skewed := false, final := 0, consistent := false,
    timeAligned := a.mode == 3, xpkgLate := false }
  s.waveSlot slot { arm := match target with | some t => .scn t | none => .gcn a.target }

/-- A domain accepts a STEP or RESUME: it will start at Gs, and with a count stop again at S + count (R73, R74). From its
start the domain has the POWER duty of the present level (R90). -/
def Hub.startRun (s : Hub) (slot gs : Nat) (count : Option Nat) : Hub :=
  let d := s.dom slot
  let target := count.map (· + d.scn)
  let s := s.clearReports slot
  let s := s.setDom slot { d with
    startAt := some gs, stopScn := target, stopAtGcn := none, stepping := count.isSome, stopNow := false,
    predP := match count with | some n => s.periodOf (s.domPart slot) gs n | none => 0,
    firstReport := none, reached := none, held := false, skewed := false, clkStall := false, power := s.rd F.PWR_STATUS_DUTY }
  let s := s.restall slot gs
  s.waveSlot slot { arm := match target with | some t => .scn t | none => .none, start := some gs }

/-! ### Completion, R71, R77, R93 and R96 -/

/-- The operation is the one CORK_STATUS describes. -/
def Hub.shown (s : Hub) (id : Nat) : Bool := s.corkShown == some id

/-- Shows the stop of the scope's lowest slot in CORK_RESULT_SCN and CORK_RESULT_GCN. -/
def Hub.showResult (s : Hub) (slot : Nat) : Hub :=
  (s.setReg64 R.CORK_RESULT_SCN_LO (s.dom slot).scn).setReg64 R.CORK_RESULT_GCN_LO (s.dom slot).stopGcn

/-- Writes CORK_STATUS. -/
def Hub.corkStatus (s : Hub) (op status final : Nat) (done already : Bool) : Hub :=
  s.setReg R.CORK_STATUS (status + final * 0x100 + op * 0x10000 + b2n done * 0x100000 + b2n already * 0x200000)

/-- Raises an event whose occurrence carries an SCN (R69, R78). -/
def Hub.raiseScn (s : Hub) (code unit scn : Nat) : Hub :=
  { s with occs := s.occs ++ [{ code := code, gcn := s.now, epoch := s.epoch, hub := s.hubAddr, unit := some unit,
                                scn := some scn, at_ := s.time.hclk }] }

/-- The completion event of an operation (R93), with the stop SCN of its first domain (R69). -/
def Hub.corkEvent (s : Hub) (op slot : Nat) : Hub :=
  if op == 1 || op == 2 then s.raiseScn (if op == 1 then Ev.CORK_DONE else Ev.STEP_DONE) slot (s.dom slot).scn else s

/-- Tells the requester of an operation how it ended. (DEDUCED, log entry 313) -/
def Hub.corkTell (s : Hub) (c : CorkOp) (final : Nat) (aborted : Bool) : Hub :=
  let d := s.dom c.firstSlot
  match c.src with
  | .reg _ =>
    if !s.shown c.id then s
    else
      let s := s.corkStatus c.op St.OK final true false
      if c.op == 4 then s else s.showResult c.firstSlot
  | .port tag =>
    s.portRespond tag Mt.CORK Mt.CORK_RESP true (corkRespBody St.OK final c.op true false aborted d.scn d.stopGcn)
  | .policy slot => s.setMon slot { s.mon slot with pdue := true, pstatus := final }
  | .member issuer wave =>
    let flags := b2n (d.st == .stopped) + 2 * b2n (!s.phaseEq) + 4 * b2n c.slots.isEmpty
    s.sendRequest issuer Op.CORK_REPORT (le 1 wave ++ le 1 final ++ le 1 flags ++ le 8 d.scn) .none 0
  | .xpkg xid tag =>
    s.portRespond tag Mt.XPKG Mt.XPKG_REPORT true
      (xpkgReportBody xid final (c.slots.all (fun z => (s.dom z).st == .stopped)) s.hubAddr d.scn)
  | .peer tag =>
    { s with hangCtl := { s.hangCtl with peers := s.hangCtl.peers.map (fun p =>
        if p.tag == tag then { p with due := true, status := final } else p) } }
  | _ => s

/-- Ends an operation: a cross-package stop that ends with TIMEOUT leaves its domains inconsistent (R306), it leaves the list, its requester is told, its event raised. -/
def Hub.corkEnd (s : Hub) (c : CorkOp) (final : Nat) : Hub :=
  let s := { s with corks := s.corks.filter (fun x => x.id != c.id) }
  let s := if c.xpkg && c.op == 1 && final == St.TIMEOUT then doEach c.slots s (fun s z => s.setDom z { s.dom z with xpkgLate := true }) else s
  (s.corkEvent c.op c.firstSlot).corkTell c final false

/-- Replaces an operation in the list. -/
def Hub.setCork (s : Hub) (c : CorkOp) : Hub :=
  { s with corks := s.corks.map (fun x => if x.id == c.id then c else x) }

/-- Changes the operations a source issued. -/
def Hub.corkMark (s : Hub) (src : CorkSrc) (f : CorkOp → CorkOp) : Hub :=
  { s with corks := s.corks.map (fun c => if c.src == src then f c else c) }

/-- The final status of the own field (R71): FAULT with a disagreeing report, TIMEOUT with a missing one, else OK. -/
def CorkOp.localFinal (c : CorkOp) : Nat :=
  if c.disagree.isSome then St.FAULT else if c.silent.isSome then St.TIMEOUT else St.OK

/-- No hub of a federated JOB scope holds a domain of the tag (R62). -/
def CorkOp.unmatched (c : CorkOp) : Bool := c.fed && c.kind == 1 && c.slots.isEmpty && !c.found

/-- Ends the operation when its own field, every member and every package have reported (R77, R78, R329): the first
status other than OK among the own field's, then the members', is final; a tag that no hub holds ends with BAD_ARG (R62). -/
def Hub.corkJoin (s : Hub) (c : CorkOp) : Hub :=
  if c.localDone && c.members.isEmpty && c.packages.isEmpty then
    s.corkEnd c (if c.localFinal != St.OK then c.localFinal else if c.fedFinal != St.OK then c.fedFinal
      else if c.unmatched then St.BAD_ARG else St.OK)
  else s.setCork c

/-- A domain of an operation has come to its stop (R71): the stop SCN, its own status and
consistency. It carries no hold (R83): where one ends the mask changes (R82). -/
def Hub.domStopped (s : Hub) (slot : Nat) : Hub :=
  let d := s.dom slot
  let scn := match d.stopScn with
    | some t => if d.stopNow then d.scn else t
    | none => d.firstReport.getD d.scn
  let final := if d.skewed then St.FAULT else if (s.slotTiles slot).all (fun t => (s.tile t).reported) then St.OK else St.TIMEOUT
  let s := s.setDom slot { d with
    st := .stopped, scn := scn, stopEpoch := s.epoch, final := final, consistent := final == St.OK,
    stepping := false, startAt := none, stopScn := none, stopAtGcn := none, reached := none, held := false, clkStall := false, hold := none }
  if d.hold.isSome then s.restall slot (s.now + 32) else s

/-- The own field of an operation is complete: domains STOPPED, CORK_SKEW and CORK_TIMEOUT raised, CORK_SKEW_INFO recorded. -/
def Hub.corkLocal (s : Hub) (c : CorkOp) : Hub :=
  let s := doEach c.live s Hub.domStopped
  let s := match c.disagree with
    | some (t, d) =>
      (s.setReg R.CORK_SKEW_INFO (t + 0x4000 + satSigned 16 d * 0x10000)).raiseOf Ev.CORK_SKEW t
    | none =>
      match c.silent with
      | some t => s.setReg R.CORK_SKEW_INFO (t + 0x4000)
      | none => s
  let s := match c.silent with
    | some t => s.raiseOf Ev.CORK_TIMEOUT t
    | none => s
  s.corkJoin { c with localDone := true, localAt := s.time.hclk }

/-! ### Acceptance -/

/-- The payload of a WAVE frame (R318). -/
def wavePayload (target start tag mode kind : Nat) : List Byte :=
  le 8 target ++ le 4 start ++ le 2 tag ++ le 1 (mode + 4 * kind) ++ zeros 1

/-- Sends a federated operation as WAVE frames on every UP tendril (R327). -/
def Hub.sendWave (s : Hub) (c : CorkOp) (external : Bool) (except : Option Nat) : Hub :=
  s.flood0 except Ft.WAVE c.wave (s.hubAddr + c.op * 0x800 + b2n external * 0x8000)
    (wavePayload c.target (c.start % 2 ^ 32) c.tag c.mode (b2n (c.kind == 3)))

/-- The value the wave of a federated command carries (R327): T, G, or the count. -/
def Hub.waveTarget (s : Hub) (op : Nat) (a : CorkArgs) : Nat × Nat :=
  if op == 2 then (a.mode, a.count)
  else if op != 1 then (a.mode, 0)
  else if a.mode == 3 then (3, a.target)
  else if a.kind == 3 && a.mode == 0 then (3, s.now + s.lMin a)
  else if a.kind == 3 && a.mode == 4 then (3, s.now + s.lMin a + a.target * s.divider 0 / 4)
  else
    match s.scopeSlots a with
    | z :: _ => (1, (s.stopTarget a z).getD 0)
    | [] => if a.mode == 1 then (1, a.target) else (3, s.now + s.lMin a)

/-- Starts an accepted STOP, STEP or RESUME; a federated STOP that its wave carries in GCN mode stops the issuer's own domains so too (R327). Tiles in no context gate with the scope's stop (R63): on its period in GCN mode or in a scope
without a domain, else when the lowest domain stops, whatever stalls precede (DESIGN CHOICE, log entry 316). -/
def Hub.corkStart (s : Hub) (src : CorkSrc) (external : Bool) (op : Nat) (a : CorkArgs) : Hub :=
  let slots := s.scopeSlots a
  let live := s.liveSlots op a
  let gs := a.gs.getD (s.now + s.lMin a)
  let loose := if op == 1 then s.looseOpen a else []
  let gate := if loose.isEmpty then none
    else if a.mode == 3 then some a.target
    else if live.isEmpty then some gs
    else none
  let arm := match gate, live with
    | some g, _ => Arm.gcn g
    | none, z :: _ => Arm.slot z
    | none, [] => Arm.none
  let wt := s.waveTarget op a
  let c : CorkOp := {
    id := s.nextOp, op := op, src := src, slots := slots, live := live, kind := a.kind, part := a.part, tag := a.tag,
    fed := a.fed, xpkg := a.xpkg, mode := wt.1, target := wt.2, start := gs, gateAt := gate, loose := loose, firstSlot := minNat a.slot slots,
    wave := s.fed.nextWave, xid := s.link.nextXid, members := if a.fed then s.members else [],
    packages := if a.xpkg then (maskList 16 (s.rd F.FED_DOMAIN_PACKAGES)).filter (· != packageOf s.hubAddr) else []
  }
  let s := { s with nextOp := s.nextOp + 1, corks := s.corks ++ [c] }
  let s := match op with
    | 1 => doEach live s (fun s z => s.startStop (if a.fed && wt.1 == 3 then { a with mode := 3, target := wt.2 } else a) z)
    | 2 => doEach live s (fun s z => s.startRun z gs (some a.count))
    | _ => doEach live s (fun s z => s.startRun z gs none)
  let s := doEach loose s (fun s t => s.wave t { arm := arm })
  let s := if op == 3 then
      doEach ((s.scopeLoose a).filter (fun t => (s.tile t).gated)) s (fun s t => s.wave t { start := some gs })
    else s
  let s := if a.fed then
      (s.sendWave c external none |> fun s => { s with fed := { s.fed with nextWave := (s.fed.nextWave + 1) % 256 } })
    else s
  if a.xpkg then
    let s := { s with link := { s.link with nextXid := (s.link.nextXid + 1) % 2 ^ 32 } }
    let body := corkBody op { a with mode := wt.1, target := if op == 1 then wt.2 else gs }
    s.portSend (message Mt.XPKG 0 0 s.hubAddr (xpkgBody 1 s.hubAddr c.xid body))
  else s

/-- The scope of an operation, as a command's arguments. -/
def CorkOp.scope (c : CorkOp) : CorkArgs :=
  { kind := c.kind, fed := c.fed, xpkg := c.xpkg, part := c.part, slot := c.firstSlot, tag := c.tag, mode := c.mode, target := c.target, count := 0 }

/-- An accepted ABORT (R75): the pending stops of the scope are cancelled, their spurs disarmed, the cancel carried to the members and the other
packages. A register STOP that another path cancels shows FINAL OK with DONE 1 in CORK_STATUS (DESIGN CHOICE, log entry 307). -/
def Hub.corkCancel (s : Hub) (external : Bool) (c : CorkOp) : Hub :=
  let s := doEach c.live s (fun s z =>
    let s := s.setDom z { s.dom z with st := .running, stopScn := none, stopAtGcn := none }
    s.waveSlot z {})
  let s := doEach c.loose s (fun s t => s.wave t {})
  let s := { s with corks := s.corks.filter (fun x => x.id != c.id) }
  let s := match c.src with
    | .port _ => s.corkTell c St.OK true
    | .policy _ => s.corkTell c St.OK true
    | .xpkg _ _ => s.corkTell c St.OK true
    | .reg _ => if s.shown c.id then s.corkStatus 1 St.OK St.OK true false else s
    | _ => s
  let s := if c.fed then s.sendWave { c with op := 4, target := 0 } external none else s
  let s := if c.xpkg then
      { s with link := { s.link with nextXid := (s.link.nextXid + 1) % 2 ^ 32 } }.portSend
        (message Mt.XPKG 0 0 s.hubAddr (xpkgBody 1 s.hubAddr s.link.nextXid (corkBody 4 c.scope)))
    else s
  s.raiseOf Ev.CORK_ABORTED c.firstSlot

/-! ### A command from any path -/

/-- What became of a command: its status, whether it is complete, and CORK_STATUS.ALREADY. -/
structure CorkAnswer where
  status : Nat
  done : Bool
  already : Bool
deriving DecidableEq, Repr

/-- The operations that wait for the members' reports of an ABORT (R329), one for each federated STOP it cancels; the requester is told by the
first of them. -/
def Hub.abortOps (s : Hub) (src : CorkSrc) (cs : List CorkOp) : Hub :=
  let ops := ((cs.filter (fun c => c.fed)).zipIdx).map (fun (p : CorkOp × Nat) =>
    { id := s.nextOp + p.2, op := 4, src := if p.2 == 0 then src else .trigger, kind := p.1.kind, tag := p.1.tag, fed := true, wave := p.1.wave
      firstSlot := p.1.firstSlot, localDone := true, localAt := s.time.hclk, members := s.members, found := true : CorkOp })
  doEach ops { s with nextOp := s.nextOp + ops.length, corks := s.corks ++ ops } Hub.corkJoin

/-- Runs a cork command of any path: the checks, then its start. A cross-package cork from JTAG, none of the requesters of R78, is turned away
as by row 5 (DEDUCED, log entry 317). A STOP that finds its scope stopped completes, and raises CORK_DONE (R93). `mask` and `duration` are those of STALL_SET. -/
def Hub.corkIssue (s : Hub) (src : CorkSrc) (external : Bool) (op : Nat) (a : CorkArgs) (mask duration : Nat) : CorkAnswer × Hub :=
  if op == 5 || op == 6 then
    let st := s.stallCheck external op a
    if st != St.OK then (⟨st, true, false⟩, s)
    else if op == 5 then (⟨St.OK, true, false⟩, doEach (s.scopeSlots a) s (fun s z => s.manualSet z mask duration))
    else (⟨St.OK, true, false⟩, doEach (s.scopeSlots a) s Hub.manualClear)
  else
    let st := if a.xpkg && src == .reg .jtag && s.corkCheck4 external op a == St.OK then St.UNSUPPORTED
      else s.corkCheck external op a
    if st != St.OK then (⟨st, true, false⟩, s)
    else if op == 4 then
      let cs := s.stopsOn a
      let waits := cs.any (fun c => c.fed) && !s.members.isEmpty
      let s := doEach cs s (fun s c => s.corkCancel external c)
      (⟨St.OK, !waits, false⟩, if waits then s.abortOps src cs else s)
    else if op == 1 && s.alreadyStopped a then (⟨St.OK, true, true⟩, s.corkEvent 1 (minNat a.slot (s.scopeSlots a)))
    else (⟨St.OK, false, false⟩, s.corkStart src external op a)

/-- The arguments of the CORK page. -/
def Hub.corkRegArgs (s : Hub) : CorkArgs :=
  { scopeOf (s.reg R.CORK_SCOPE) with
    mode := s.rd F.CORK_MODE_TARGET, target := s.reg64 R.CORK_TARGET_LO, count := s.rd F.CORK_STEP_COUNT_COUNT }

/-- A write of CORK_CMD by a requester (R96). CORK_STATUS, CORK_RESULT and CORK_LEAD describe this command from now on. (DEDUCED, log entry 73) -/
def Hub.corkCmd (s : Hub) (r : Req) (op : Nat) : Hub :=
  let a := s.corkRegArgs
  let id := s.nextOp
  let first := minNat a.slot (s.scopeSlots a)
  let res := s.corkIssue (.reg r) (isExternal r) op a (s.rd F.CORK_STALL_MASK_MANUAL) (s.rd F.CORK_STALL_DURATION_EDGES)
  let ans := res.1
  let lead := sat 16 (s.lMin a)
  let s := res.2
  let s := { s with corkShown := if ans.done then none else some id }
  let s := s.wr F.CORK_LEAD_LMIN lead
  let s := s.corkStatus (op % 16) ans.status (if ans.done then ans.status else 0) ans.done ans.already
  if ans.already then s.showResult first else s

/-! ### Spurs -/

/-- A spur acts on a wave (R63, R68 to R71, R73, R75). A stop-now wave that finds the tile gated has not stopped it (R106). -/
def Hub.armWave (s : Hub) (t : Nat) (w : SpurWave) : Hub :=
  let x := s.tile t
  s.setTile t { x with
    wave := none, arm := if w.stopNow then .now else w.arm, start := w.start
    stopNow := w.stopNow && (x.stopNow || !x.gated) }

/-- Copy A of a wave sent at `sentAt` reaches the spurs in this period, 24 HCLK after (R16). -/
def Hub.waveArrives (s : Hub) (sentAt : Nat) : Bool := sentAt + Config.trellisLatency == s.time.hclk

/-- A masked-fault report leaves a spur that acted on copy B: in the period after copy B came, 26 HCLK after the wave was sent, and 24 HCLK
under way (R70). -/
def Hub.maskedReport (s : Hub) (t : Nat) : Hub :=
  { s with waveCrc := s.waveCrc ++ [(s.time.hclk + Config.trellisLatency + 3, t)] }

/-- The apply GCNs of the stall and cap waves whose copy A reaches the spurs of a domain in this period. -/
def Hub.wavesHere (s : Hub) (slot : Nat) : List Nat :=
  ((s.dom slot).wavesOut.filter (fun w => s.waveArrives w.1)).map Prod.snd

/-- A wave reaches a spur, 24 HCLK after it was sent (R16), with its copies good or bad (R70): the spur acts on copy A, or 2 HCLK later on copy
B with a masked-fault report; with both bad it does not act, and a stall or cap wave leaves it with the pattern or cap it has. In any other
period nothing arrives. -/
def Hub.corkWaveRx (s : Hub) (t : Nat) (goodA goodB : Bool) : Hub :=
  let x := s.tile t
  let gas := if x.st == .inContext then s.wavesHere x.slot else []
  let lost (s : Hub) : Hub := if gas.isEmpty then s else s.setTile t { s.tile t with missed := (s.tile t).missed ++ gas }
  match x.wave with
  | some w =>
    if !s.waveArrives w.sentAt || w.viaB then s
    else if goodA then s.armWave t w
    else if goodB then (s.setTile t { x with wave := some { w with viaB := true } }).maskedReport t
    else lost (s.setTile t { x with wave := none })
  | none =>
    if gas.isEmpty && !s.trace.bcastAt.any s.waveArrives || goodA then s
    else if goodB then s.maskedReport t
    else lost s

/-- The waves that reached the spurs in the period that ends and were not reported bad are acted on (R16, R70). -/
def Hub.wavesLand (s : Hub) : Hub :=
  doEach s.tiles.cells s (fun s p =>
    match p.2.wave with
    | some w => if w.sentAt + Config.trellisLatency + (if w.viaB then 2 else 0) ≤ s.time.hclk then s.armWave p.1 w else s
    | none => s)

/-- Masked-fault reports that reach the root at this edge (R70). -/
def Hub.waveCrcRx (s : Hub) : Hub :=
  match s.waveCrc with
  | [] => s
  | l =>
    let due := l.filter (fun p => p.1 ≤ s.time.hclk)
    doEach due { s with waveCrc := l.filter (fun p => s.time.hclk < p.1) } (fun s p =>
      (s.err Er.CORK_WAVE_CRC).raiseOf Ev.WAVE_CRC p.2)

/-- A domain's present edge is at or past the stop in force: no cycle executes on it (R68, R69). -/
def Domain.atStop (d : Domain) (now : Nat) : Bool :=
  match d.stopScn, d.stopAtGcn with
  | some t, _ => t ≤ d.scn
  | none, some g => reachedGcn g now
  | none, none => false

/-- A domain executes on its edges: it runs, or its start GCN has come (R73). -/
def Domain.started (d : Domain) (now : Nat) : Bool :=
  match d.startAt with
  | some g => reachedGcn g now
  | none => d.st == .running || d.st == .stopping

/-- The arm of a spur says that its next edge is gated. -/
def Hub.armDue (s : Hub) (x : Tile) : Bool :=
  match x.arm with
  | .none => false
  | .scn t => t ≤ x.scn
  | .gcn g => g ≤ s.now
  | .slot z =>
    let d := s.dom z
    d.held || d.st == .stopped || (d.started s.now && d.atStop s.now && s.edgeIn (s.domPart z) s.now)
  | .now => true

/-- A spur gates its tile at its next edge. -/
def Hub.gateDue (s : Hub) (t : Nat) : Bool :=
  let x := s.tile t
  s.armDue x && !x.gated && x.start.isNone

/-- An armed spur gates its tile and sends STOPPED (R68, R69, R71); a tile in no context sends no report. -/
def Hub.tileStopped (s : Hub) (t : Nat) : Hub :=
  let x := s.tile t
  if s.gateDue t then
    s.setTile t { x with gated := true, gateGcn := s.now, gateEpoch := s.epoch,
                         report := if x.st == .inContext then some x.scn else none, reportAt := s.time.hclk, holdReq := false }
  else s

/-- The cork unit sends the stop-now wave to a domain (R71); an audit of it whose Gq has not passed is void (R288). (DEDUCED, log entry 75) -/
def Hub.stopNow (s : Hub) (slot : Nat) : Hub :=
  let s := (s.setDom slot { s.dom slot with stopNow := true }).waveSlot slot { stopNow := true }
  { s with hangCtl := { s.hangCtl with audits := s.hangCtl.audits.filter (fun a => a.slot != slot || a.diffs.isSome) } }

/-- Every tile of the operation's domains has reported. -/
def Hub.allReported (s : Hub) (c : CorkOp) : Bool := c.live.all (fun z => (s.slotTiles z).all (fun t => (s.tile t).reported))

/-- Keeps the disagreeing tile of lowest ID. -/
def lowestSkew (o : Option (Nat × Int)) (t : Nat) (d : Int) : Option (Nat × Int) :=
  match o with
  | some (u, e) => if u < t then some (u, e) else some (t, d)
  | none => some (t, d)

/-- A STOPPED report reaches the root 24 HCLK after the spur sent it (R16, R71); in any other period nothing arrives. -/
def Hub.stoppedReport (s : Hub) (t : Nat) : Hub :=
  let x := s.tile t
  match x.report with
  | none => s
  | some scn =>
    if !s.waveArrives x.reportAt then s else
    let s := s.setTile t { x with report := none, reported := true }
    match s.corks.find? (fun c => (c.op == 1 || c.op == 2) && !c.localDone && c.live.contains x.slot) with
    | none => s
    | some c =>
      let d := s.dom x.slot
      let expect := match d.stopScn with
        | some v => v
        | none => d.firstReport.getD scn
      let s := s.setDom x.slot { d with
        firstReport := some (d.firstReport.getD scn),
        stopGcn := if d.firstReport.isNone then x.gateGcn else d.stopGcn
        skewed := d.skewed || scn != expect }
      let diff : Int := (scn : Int) - expect
      let bad := diff != 0
      let c' := if bad then { c with disagree := lowestSkew c.disagree t diff, stopNowSent := true } else c
      let s := if bad then
          { s with hangCtl := { s.hangCtl with reports := s.hangCtl.reports ++ [(x.slot, t, diff)] } } else s
      let s := if bad && !d.stopNow then s.stopNow x.slot else s
      let s := s.setCork c'
      if s.allReported c' then s.corkLocal c' else s

/-- The silent tiles of an operation, ascending. -/
def Hub.silentTiles (s : Hub) (c : CorkOp) : List Nat :=
  (c.live.flatMap (fun z => (s.slotTiles z).filter (fun t => !(s.tile t).reported))).foldr insertNat []

/-- The report limit of an operation has passed: CORK_REPORT_LIMIT HCLK, at least 64, since a domain with a silent spur came to its stop. -/
def Hub.reportDue (s : Hub) (c : CorkOp) : Bool :=
  let l := s.rd F.CORK_REPORT_LIMIT_HCLK
  let l := if l < 64 then 64 else l
  (c.op == 1 || c.op == 2) && !c.localDone && c.live.any (fun z =>
    (s.slotTiles z).any (fun t => !(s.tile t).reported) &&
      match (s.dom z).reached with
      | some r => s.elapsed r l
      | none => false)

/-- CORK_REPORT_LIMIT passes with a spur silent (R71): stop-now to each domain with a silent spur, the silent tiles handed over as divergent, the command completes. -/
def Hub.reportTimeout (s : Hub) : Hub :=
  doEach (s.corks.filter s.reportDue) s (fun s c =>
    let silent := s.silentTiles c
    let s := doEach (c.live.filter (fun z => (s.slotTiles z).any (fun t => !(s.tile t).reported))) s Hub.stopNow
    let s := { s with hangCtl := { s.hangCtl with
      reports := s.hangCtl.reports ++ silent.map (fun t => ((s.tile t).slot, t, (0 : Int))) } }
    s.corkLocal { c with silent := silent.head?, stopNowSent := true })

/-- PWR_STATUS.ISSUE_CAP: the smallest issue cap in force, of a domain or of a tile that a decant gave one of its own (R99, R123). -/
def Hub.showCap (s : Hub) : Hub :=
  let tiles := (s.tiles.cells.filter (fun (p : Nat × Tile) => p.2.st == .inContext)).map (fun (p : Nat × Tile) => p.2.cap)
  s.wr F.PWR_STATUS_ISSUE_CAP (minNat 16 (s.openSlots.map (fun z => (s.dom z).cap) ++ tiles))

/-- The issue cap of a domain that runs and whose Ga has come takes force, in the domain and in those of its tiles that
have the wave (R84, R90). -/
def Hub.capApply (s : Hub) (z : Nat) : Hub :=
  let d := s.dom z
  match d.capNext with
  | some (ga, c) =>
    if ga ≤ s.now && d.st != .stopped then
      let s := s.setDom z { d with cap := c, capNext := none }
      let s := doEach ((s.slotTiles z).filter (fun t => !(s.tile t).missed.contains ga)) s (fun s t => s.setTile t { s.tile t with cap := c })
      s.showCap
    else s
  | none => s

/-- The spurs whose start GCN has come open their gates. -/
def Hub.openGates (s : Hub) : Hub :=
  let now := s.now
  { s with tiles := ⟨s.tiles.cells.map (fun (p : Nat × Tile) =>
      match p.2.start with
      | some g => if g ≤ now then (p.1, { p.2 with gated := false, start := none }) else p
      | none => p)⟩ }

/-- At Gs the domains execute their first cycle, with the issue cap that waited for it (R90), and RESUMED is raised (R73); a RESUME is complete. -/
def Hub.resumed (s : Hub) : Hub :=
  doEach (s.corks.filter (fun c => (c.op == 2 || c.op == 3) && !c.localDone && !c.started && reachedGcn c.start s.now)) s (fun s c =>
      let c := { c with started := true }
      let s := doEach c.live s (fun s z =>
        let d := s.dom z
        let d := { d with st := if d.stepping then .stopping else .running, startAt := none, failedDecant := false }
        (doEach (s.slotTiles z) (s.setDom z d) (fun s t => if (s.tile t).fresh then s.setTile t { s.tile t with fresh := false } else s)).capApply z)
      let s := s.openGates
      let s := s.raiseOf Ev.RESUMED c.firstSlot
      if c.op == 3 then s.corkJoin { c with localDone := true, localAt := s.time.hclk } else s.setCork c)

/-! ### Stall events -/

/-- The spurs of a domain when a pattern takes force: one that missed its wave goes on with the pattern it has, any other is in step. -/
def Hub.spurPatterns (s : Hub) (slot ga edge : Nat) : Hub :=
  let d := s.dom slot
  doEach ((s.slotTiles slot).filter (fun t => !(s.tile t).missed.isEmpty || (s.tile t).oldMask.isSome)) s (fun s t =>
    let x := s.tile t
    s.setTile t { x with
      oldMask := if x.missed.contains ga then
          (match x.oldMask with
            | some (m, n) => some (m, (n + d.edge + 16 - edge) % 16)
            | none => some (d.mask, (d.edge + 16 - edge) % 16))
        else none
      missed := x.missed.filter (fun g => g != ga) })

/-- At Ga a pattern replaces the one before it, edges numbered from 0 at the first edge at or after Ga (R80); issue caps
follow the same rule. -/
def Hub.patternApply (s : Hub) : Hub :=
  let s := doEach (s.doms.cells.map Prod.fst) s Hub.capApply
  doEach (s.doms.cells.map Prod.fst) s (fun s z =>
    let d := s.dom z
    match (d.waiting.filter (fun w => w.1 ≤ s.now)).getLast? with
    | some (ga, m, bare) =>
      let p := s.domPart z
      let edge := (s.edges p s.now - s.edges p ga) % 16
      (s.spurPatterns z ga edge).setDom z { d with
        mask := m, bare := bare, ga := ga, edge := edge, waiting := d.waiting.filter (fun w => s.now < w.1) }
    | none => s)

/-- A MANUAL source has counted its edges (R82): it ends, the effective mask without it applies at once,
and the patterns still to apply lose its share. -/
def Hub.manualExpiry (s : Hub) : Hub :=
  doEach (s.doms.cells.map Prod.fst) s (fun s z =>
    match (s.dom z).manual with
    | some { left := some 0, .. } =>
      let d := { s.dom z with manual := none }
      let s := s.setDom z { d with waiting := d.waiting.map (fun w => (w.1, w.2.2, w.2.2)) }
      if s.rdB F.FED_JOB_FEDERATED z == 1 then s.restall z s.now
      else if d.mask == d.bare then s
      else s.setDom z { s.dom z with waiting := (s.now, d.bare, d.bare) :: (s.dom z).waiting }
    | _ => s)

/-- A hold request of a spur reaches the root (R83): the TRACE source of its domain, unless the domain is stopped, or gated by
a stop that has come, its lossless mode
is off, or the slot is federated (R331). -/
def Hub.holdRequest (s : Hub) (t : Nat) : Hub :=
  let x := s.tile t
  let d := s.dom x.slot
  if 128 ≤ x.traceWords && x.st == .inContext && (d.st == .running || d.st == .stopping) && !d.held && !d.losslessOff && s.rdB F.TRACEF_SLOT_LOSSLESS x.slot == 1 &&
      s.rdB F.FED_JOB_FEDERATED x.slot == 0 then
    let s := s.setTile t { x with holdReq := true }
    let s := s.setDom x.slot { d with hold := some (d.hold.getD s.time.hclk) }
    s.restall x.slot (s.now + 32)
  else s

/-- A spur that asked for a hold has fallen to its low-water mark, 32 words; with no other requester the hold is released (R83, R200). -/
def Hub.holdRelease (s : Hub) (t : Nat) : Hub :=
  let x := s.tile t
  if !x.holdReq || 32 < x.traceWords then s
  else
  let s := s.setTile t { x with holdReq := false }
  if (s.slotTiles x.slot).any (fun u => (s.tile u).holdReq) then s
  else
    let s := s.setDom x.slot { s.dom x.slot with hold := none }
    s.restall x.slot (s.now + 32)

/-- A hold lasted CORK_HOLD_LIMIT (R83). -/
def Hub.holdLimit (s : Hub) : Hub :=
  doEach (s.doms.cells.map Prod.fst) s (fun s z =>
    match (s.dom z).hold with
    | some t =>
      if s.elapsed t (s.rd F.CORK_HOLD_LIMIT_HCLK) then
        let s := (s.setDom z { s.dom z with hold := none, losslessOff := true }).wrB F.TRACEF_SLOT_LOSSLESS z 0
        let s := doEach (s.slotTiles z) s (fun s u => s.setTile u { s.tile u with holdReq := false })
        (s.restall z (s.now + 32)).raiseOf Ev.HOLD_LIMIT z
      else s
    | none => s)

/-! ### Other hubs -/

/-- The arguments a WAVE frame carries for this hub's own domains: a JOB STOP in any SCN mode or in ASAP mode carries T (R327). -/
def waveArgs (tag mode kind target : Nat) : CorkArgs :=
  { kind := if kind == 1 then 3 else 1, fed := true, xpkg := false, part := 0, slot := 0, tag := tag
    mode := if kind != 1 && mode != 3 then 1 else mode, target := target,
    count := target }

/-- The domains of a wave's scope at a member. A JOB the member does not hold is an empty scope. -/
def Hub.memberSlots (s : Hub) (a : CorkArgs) : List Nat := s.scopeSlots a

/-- A member acts on a WAVE frame received on tendril `t` (R328): once per ISSUER and WAVE_ID, an ABORT naming the
WAVE_ID of the STOP it cancels (R327); it forwards the wave, checks rows 1
to 8 and its own lead of 32 HCLK, and stops ASAP and reports TOO_SOON where the lead fails. (DESIGN CHOICE, log entry 70) -/
def Hub.waveRx (s : Hub) (t waveId issuer op : Nat) (external : Bool) (target start tag mode kind : Nat) : Hub :=
  let key := (issuer, waveId + 256 * b2n (op == 4))
  if s.fed.wavesSeen.contains key || issuer == s.hubAddr then s
  else
    let seen := s.fed.wavesSeen ++ [key]
    let s := { s with fed := { s.fed with wavesSeen := seen.drop (seen.length - 256) } }
    let s := s.flood0 (some t) Ft.WAVE waveId (issuer + op * 0x800 + b2n external * 0x8000) (wavePayload target start tag mode kind)
    let a := waveArgs tag mode kind target
    let src := CorkSrc.member issuer waveId
    let report (s : Hub) (st : Nat) : Hub :=
      s.sendRequest issuer Op.CORK_REPORT (le 1 waveId ++ le 1 st ++ le 1 (4 * b2n (s.memberSlots a).isEmpty) ++ le 8 0) .none 0
    if !s.flag F.FED_CTRL_EN then report s St.UNSUPPORTED
    else if op == 4 then
      let mine := s.corks.filter (fun c => c.src == src)
      let st := s.corkCheck4 external op a
      if st != St.OK then report s st
      else report (doEach mine s (fun s c => s.corkCancel external c)) (if mine.isEmpty then St.NOT_STOPPED else St.OK)
    else
      let st := s.corkCheck8 external op a
      if st != St.OK then report s st
      else if (s.memberSlots a).isEmpty && kind != 1 then report s St.OK
      else
        let own := { a with fed := false }
        if op != 1 then
          let gs := s.now + (start + 2 ^ 32 - s.now % 2 ^ 32) % 2 ^ 32
          s.corkStart src external op { own with gs := some gs }
        else
          let late := (s.liveSlots 1 own).any (fun z =>
            match s.stopAt own z with
            | some p => p < s.now + 32
            | none => true)
          if late then
            let s := s.corkStart src external 1 { own with mode := 0 }
            s.corkMark src (fun c => { c with fedFinal := St.TOO_SOON })
          else s.corkStart src external 1 own

/-- A member's CORK_REPORT reaches the issuer (R77, R329); its NONE flag says that it holds no domain of the scope (R62). (DEDUCED, log entry 314) -/
def Hub.corkReport (s : Hub) (from_ waveId status : Nat) (notPhaseEq noDomain : Bool) : Hub :=
  match s.corks.find? (fun c => c.fed && c.wave == waveId && c.members.contains from_) with
  | none => s
  | some c =>
    let bad := status != St.OK
    let c := { c with
      members := removeNat from_ c.members, fedFinal := if bad && c.fedFinal == St.OK then status else c.fedFinal, found := c.found || !noDomain }
    let s := if bad || notPhaseEq then s.raiseOf Ev.MEMBER_STATUS from_ else s
    s.corkJoin c

/-- Members silent for FED_CMD_TIMEOUT after the issuer's own completion (R329). -/
def Hub.memberTimeout (s : Hub) : Hub :=
  doEach (s.corks.filter (fun c => c.fed && c.localDone && !c.members.isEmpty &&
      s.elapsed c.localAt (s.rd F.FED_CMD_TIMEOUT_HCLK))) s (fun s c =>
    let s := doEach c.members s (fun s m => s.raiseOf Ev.MEMBER_STATUS m)
    s.corkJoin { c with members := [], fedFinal := if c.fedFinal == St.OK then St.TIMEOUT else c.fedFinal })

/-- The stop of an operation is not consistent across packages: its domains' entries of the manifest state it (R78, R119). -/
def Hub.crossLate (s : Hub) (c : CorkOp) : Hub := doEach c.slots s (fun s z => s.setDom z { s.dom z with xpkgLate := true })

/-- A package's XPKG_REPORT reaches the issuing lead (R78, R362); a package that holds no domain of the tag
ended with BAD_ARG, which is the final status only when none holds one (R62). (DEDUCED, log entry 72) -/
def Hub.xpkgReport (s : Hub) (xid status pkg : Nat) : Hub :=
  match s.corks.find? (fun c => c.xpkg && c.xid == xid) with
  | none => s
  | some c =>
    let none := c.kind == 1 && status == St.BAD_ARG
    let bad := status != St.OK && !none
    let c := { c with
      packages := removeNat pkg c.packages, fedFinal := if bad && c.fedFinal == St.OK then status else c.fedFinal, found := c.found || !none }
    (if bad && c.op == 1 then s.crossLate c else s).corkJoin c

/-- The SCN difference of a package that stops late (R78): its first domain's own stop target less the one asked for, modulo 2^64 (R37). A target G
asks for the SCN that the domain has there, counted without stalls as R42 counts. -/
def Hub.lateBy (s : Hub) (a : CorkArgs) : Nat :=
  match s.scopeSlots a with
  | z :: _ =>
    let d := s.dom z
    let p := s.domPart z
    let asked : Int := if a.mode != 3 then a.target
      else if reachedGcn a.target s.now then (d.scn : Int) - (s.edges p s.now - s.edges p a.target : Nat)
      else (d.scn : Int) + s.edgesOf p s.now a.target
    unsigned 64 ((d.stopScn.getD d.scn : Int) - asked)
  | [] => 0

/-- An XPKG cork from the TDC (R78, R335), a RESUME or STEP with the start GCN it carries: issued in the package as a federated wave; with a lead too short the package stops ASAP,
ends its part with TOO_SOON and raises XPKG_LATE with the SCN difference; a late start comes as soon as the package's lead allows
(DESIGN CHOICE, log entry 315). -/
def Hub.xpkgCork (s : Hub) (tag xid op : Nat) (a : CorkArgs) : Hub :=
  let own := { a with fed := true, xpkg := false }
  let src := CorkSrc.xpkg xid tag
  let run := op == 2 || op == 3
  let lead := s.now + s.lMin own
  let late := (op == 1 && s.tooSoon own) || (run && a.target < lead)
  let ans := s.corkIssue src false op
    (if run then { own with gs := some (if late then lead else a.target), mode := 0, target := 0 }
     else if late then { own with mode := 0 } else own) 0 0
  let s := ans.2
  if ans.1.status != St.OK || ans.1.done then
    s.portRespond tag Mt.XPKG Mt.XPKG_REPORT true (xpkgReportBody xid ans.1.status ans.1.already s.hubAddr
      (if ans.1.already then (s.dom (minNat a.slot (s.scopeSlots own))).scn else 0))
  else if late then
    let s := s.corkMark src (fun c => { c with fedFinal := St.TOO_SOON })
    let s := doEach (s.scopeSlots own) s (fun s z => s.setDom z { s.dom z with xpkgLate := true })
    s.raiseScn Ev.XPKG_LATE (packageOf s.hubAddr) (s.lateBy own)
  else s

/-- A member's STALL_REQ reaches the anchor (R330). -/
def Hub.stallReq (s : Hub) (from_ mask tag : Nat) : Hub :=
  doEach (s.openSlots.filter (fun z => (s.dom z).tag == tag && s.rdB F.FED_JOB_FEDERATED z == 1 &&
      s.rdB F.FED_JOB_ANCHOR z == s.rd F.FED_SELF_HUB)) s (fun s z => s.anchorTake z from_ mask)

/-- A STALL frame received on tendril `t` (R330, R331): applied at Ga, or late from receipt + 32 with STALL_LATE and a divergence. -/
def Hub.stallFrame (s : Hub) (t anchor mask tag ga : Nat) : Hub :=
  if s.fed.stallsSeen.contains (anchor, tag, ga) || anchor == s.hubAddr then s else
  let seen := s.fed.stallsSeen ++ [(anchor, tag, ga)]
  let s := { s with fed := { s.fed with stallsSeen := seen.drop (seen.length - 256) } }
  let s := s.flood0 (some t) Ft.STALL 0 anchor (le 2 mask ++ le 2 tag ++ zeros 4 ++ le 8 ga)
  doEach (s.openSlots.filter (fun z => (s.dom z).tag == tag && s.rdB F.FED_JOB_FEDERATED z == 1 &&
      s.rdB F.FED_JOB_ANCHOR z == anchor)) s (fun s z =>
    if ga < s.now + 32 then
      let s := s.pattern z (s.now + 32) mask
      let s := s.wr F.FED_LAST_SLOT z
      let s := s.raiseOf Ev.STALL_LATE z
      { s with hangCtl := { s.hangCtl with reports := s.hangCtl.reports ++ [(z, 0x4000, 0)] } }
    else s.pattern z ga mask)

/-! ### The tick's part -/

/-- One HCLK period of a domain: on a TCLK edge of its partition the reference advances unless the edge is stalled or gated (R40, R42, R80). -/
def Hub.domTick (s : Hub) (slot : Nat) : Hub :=
  let d := s.dom slot
  let p := s.domPart slot
  if !d.started s.now || !s.edgeIn p s.now then s
  else
    if d.atStop s.now then
      s.setDom slot { d with reached := some (d.reached.getD s.time.hclk), held := true, stopGcn := if d.held then d.stopGcn else s.now }
    else
      let manual := d.manual.map (fun m =>
        if m.ga ≤ s.now then { m with left := m.left.map (fun n => n - 1) } else m)
      let stalled := d.clkStall || bitAt d.mask d.edge
      let scn := if stalled then d.scn else (d.scn + 1) % 2 ^ 64
      let s := doEach (s.slotTiles slot) s (fun s t => s.strobeCheck stalled t)
      s.setDom slot { d with
        reached := if d.stopScn == some scn && d.reached.isNone then some s.time.hclk else d.reached
        scn := scn, clkStall := false, edge := (d.edge + 1) % 16, manual := manual }

/-- Operations with nothing left to report whose stop period has come complete (R63: a scope with no tile in a context). -/
def Hub.corkTick (s : Hub) : Hub :=
  doEach (s.corks.filter (fun c => (c.op == 1 || (c.op == 2 && c.started)) && !c.localDone && s.allReported c &&
      c.live.all (fun z => (s.dom z).held) &&
      (match c.gateAt with | some g => g ≤ s.now | none => true))) s Hub.corkLocal

end Sys2Proof.Machine
end

