-- ==== Sys2Proof/Machine/Power.lean ====
section
/-! DEFINITION. The power loop (03_cork.md, R84 to R92): estimate, measurement, calibration, the cap guard, and the requests
of the field power controller. -/

namespace Sys2Proof.Machine

/-- Length of a power window in HCLK (R85). -/
def powerWindow : Nat := 12500

/-- The boundary that ends the window in progress: the first multiple of 12,500 after its start (R85, R89). (DEDUCED, log entry 63) -/
def Hub.powerBoundary (s : Hub) : Nat := (s.power.winStart / powerWindow + 1) * powerWindow

/-- Coefficient e_i in 1/16 pJ (PWR_COEF_0 to PWR_COEF_15). -/
def Hub.coef (s : Hub) (i : Nat) : Nat := s.reg (R.PWR_COEF_0 + 4 * i) % 65536

/-- The estimate E of R85 in mW, an integer (DESIGN CHOICE, log entry 308). -/
def Hub.estimate (s : Hub) (counts : List Nat) : Nat :=
  s.rd F.PWR_STATIC_MW + sumNat ((List.range 16).map (fun i => nth counts i 0 * s.coef i)) / 160000

/-- The measurement M of a window (R86). -/
def Hub.measured (s : Hub) : Option Nat :=
  match s.power.sample with
  | some m =>
    if s.flag F.PWR_STATUS_EST_ONLY || s.flag F.PWR_CTRL_EST_ONLY_FORCE ||
        s.power.sampleAt + s.rd F.PWR_TELEM_TIMEOUT_HCLK < s.time.hclk then none else some m
  | none => none

/-- A window disagrees when |Ec − M| × 5 > M (R87). -/
def disagrees (ec m : Nat) : Bool := m < (ec - m + (m - ec)) * 5

/-- Starts a calibration of 256 windows (R88). (DESIGN CHOICE, log entry 220) -/
def Hub.calStart (s : Hub) : Hub :=
  let s := { s with power := { s.power with calLeft := 256, calM := 0, calE := 0 } }
  s.wr F.PWR_CTRL_CAL_START 1

/-- 256 × ΣM / ΣE rounded to nearest and clamped to 0x0080–0x0200 (R88); 0x0200 where ΣE is 0 (DESIGN CHOICE, log entry 309). -/
def calFactor (m e : Nat) : Nat :=
  let f := if e == 0 then 0x200 else (256 * m * 2 + e) / (2 * e)
  if f < 0x80 then 0x80 else if 0x200 < f then 0x200 else f

/-- Judges a window with a measurement (R87, R88): runs, EST_DISAGREE, CAL_REQUEST, and the window's share of a calibration. The
window that starts an automatic calibration is not one of its 256 (DESIGN CHOICE, log entry 310). -/
def Hub.judge (s : Hub) (e ec m : Nat) : Hub :=
  let dis := disagrees ec m
  let run := if dis then s.power.disagree + 1 else 0
  let agree := if dis then 0 else s.power.agree + 1
  let was := s.flag F.PWR_STATUS_DISAGREE
  let s := { s with power := { s.power with disagree := run, agree := agree } }
  let s := s.wr F.PWR_STATUS_RUN (sat 8 run)
  let s := if dis && run == 8 && !was then (s.wr F.PWR_STATUS_DISAGREE 1).raise Ev.EST_DISAGREE else s
  let s := if !dis && 8 ≤ agree then s.wr F.PWR_STATUS_DISAGREE 0 else s
  let s := if s.power.calLeft == 0 then s
    else
      let p := { s.power with calLeft := s.power.calLeft - 1, calM := s.power.calM + m, calE := s.power.calE + e }
      let s := { s with power := p }
      if p.calLeft == 0 then
        ((s.wr F.PWR_CAL_FACTOR_FACTOR (calFactor p.calM p.calE)).wr F.PWR_CTRL_CAL_START 0).raise Ev.CAL_DONE
      else s
  if dis && run == 64 then
    let s := s.raise Ev.CAL_REQUEST
    if s.flag F.PWR_CTRL_AUTO_CAL && s.power.calLeft == 0 then s.calStart else s
  else s

/-- The slot's context is cap-tolerant (PWR_CTX). -/
def Hub.capTolerant (s : Hub) (z : Nat) : Bool := s.rdB F.PWR_CTX_CAP_TOL z == 1

/-- Issue-cap floor of a slot. -/
def Hub.floorOf (s : Hub) (z : Nat) : Nat := s.rdB F.PWR_CTX_FLOOR z

/-- K of R90: 16 less the smallest floor among the running cap-tolerant domains, 0 when none runs. -/
def Hub.capRange (s : Hub) : Nat :=
  let l := (s.runningSlots.filter s.capTolerant).map s.floorOf
  if l.isEmpty then 0 else 16 - minNat 16 l

/-- Applies the reduction level: issue caps and POWER duty with Ga 32 HCLK ahead (R90). -/
def Hub.applyLevel (s : Hub) (k : Nat) : Hub :=
  let l := s.power.level
  let duty := l - k
  let ga := s.now + 32
  let s := doEach (s.openSlots.filter s.capTolerant) s (fun s z =>
    let c := 16 - (if l < k then l else k)
    let f := s.floorOf z
    let d := s.dom z
    s.setDom z { d with
      capNext := some (ga, if c < f then f else c)
      wavesOut := d.wavesOut.filter (fun w => s.time.hclk < w.1 + 2 * Config.trellisLatency) ++ [(s.time.hclk, ga)] })
  let s := doEach s.runningSlots s (fun s z => (s.setDom z { s.dom z with power := duty }).restall z ga)
  let s := doEach (s.openSlots.filter (fun z => (s.dom z).st == .stopped && (s.dom z).startAt.isSome)) s (fun s z =>
    (s.setDom z { s.dom z with power := duty }).restall z ga)
  (s.wr F.PWR_STATUS_DUTY duty).wr F.PWR_STATUS_CAP_ACTIVE (b2n (l != 0))

/-- The cap guard acts once at the end of a window on P (R90, R91). -/
def Hub.capGuard (s : Hub) (p : Nat) : Hub :=
  let cap := s.rd F.PWR_CAP_MW
  let k := s.capRange
  let l0 := s.power.level
  let tooHigh := cap < p
  let isLow := p * 100 < cap * (100 - s.rd F.PWR_HYST_PCT)
  let lows := if isLow then s.power.low + 1 else 0
  let loosen := lows == 4
  let atMax := s.rd F.PWR_STATUS_DUTY == 15
  let l1 := if tooHigh then l0 + 1 else if loosen then l0 - 1 else l0
  let l := if k + 15 < l1 then k + 15 else l1
  let s := { s with power := { s.power with level := l, low := if loosen then 0 else lows } }
  let s := if tooHigh && atMax && !s.flag F.PWR_STATUS_UNREACHABLE
    then (s.wr F.PWR_STATUS_UNREACHABLE 1).raise Ev.CAP_UNREACHABLE else s
  let s := if loosen && l < l0 then s.wr F.PWR_STATUS_UNREACHABLE 0 else s
  let s := if l0 == 0 && l != 0 then s.raise Ev.CAP_ACTIVE else s
  let s := if l0 != 0 && l == 0 then s.raise Ev.CAP_RELEASED else s
  s.applyLevel k

/-- The next window begins at a boundary. -/
def Hub.nextWindow (s : Hub) (boundary : Nat) : Hub :=
  { s with power := { s.power with
      winStart := boundary, short := false, sampleInWin := false, prevSample := s.power.sample, prevAt := s.power.sampleAt } }

/-- The end of a power window (R85 to R91); `counts` are the sums of the spurs' sixteen activity counts. Before the boundary nothing
happens; a short window is discarded (R89). (DESIGN CHOICE, log entry 340) -/
def Hub.powerWindowEnd (s : Hub) (counts : List Nat) : Hub :=
  let b := s.powerBoundary
  if s.now < b then s
  else if s.power.short then
    let s := { s with power := { s.power with
      sample := if s.power.sampleInWin then s.power.prevSample else s.power.sample
      sampleAt := if s.power.sampleInWin then s.power.prevAt else s.power.sampleAt } }
    s.nextWindow b
  else
    let e := s.estimate counts
    let ec := e * s.rd F.PWR_CAL_FACTOR_FACTOR / 256
    let m := s.measured
    let s := match m with
      | some m => s.judge e ec m
      | none => s
    let dis := s.flag F.PWR_STATUS_DISAGREE
    let p := match m with
      | some m => if dis then (if m < ec then ec else m) else m
      | none => ec
    let source := match m with
      | some _ => if dis then 1 else 0
      | none => 2
    let s := s.wr F.PWR_EST_MW (sat 24 ec)
    let s := s.setReg R.PWR_MEAS (match m with | some m => m + 0x80000000 | none => 0)
    let s := (s.wr F.PWR_USED_MW (sat 24 p)).wr F.PWR_USED_SOURCE source
    let s := if s.flag F.PWR_CTRL_GUARD_EN then s.capGuard p else s
    s.nextWindow b

/-- A PWR_TELEM frame (R86, R490): checked by CRC-4, ignored while EST_ONLY_FORCE is 1. -/
def Hub.telemFrame (s : Hub) (w : Nat) : Hub :=
  if crc4 28 w 0 != bitsOf w 28 4 then s.err Er.PWR_TELEM_FORMAT
  else if s.flag F.PWR_CTRL_EST_ONLY_FORCE then s
  else
    let missed := s.power.missRaised
    let s := { s with power := { s.power with
      sample := some (w % 2 ^ 24), sampleAt := s.time.hclk, everSample := true, missRaised := false, sampleInWin := true } }
    let s := s.wr F.PWR_STATUS_EST_ONLY 0
    if missed then s.raise Ev.TELEM_RESTORED else s

/-- No valid sample for PWR_TELEM_TIMEOUT (R86), counted from the last sample, from release or from the end of forcing. -/
def Hub.telemMissing (s : Hub) : Hub :=
  let from_ := if s.power.everSample && s.power.missFrom < s.power.sampleAt then s.power.sampleAt else s.power.missFrom
  if s.boot.released && !s.flag F.PWR_CTRL_EST_ONLY_FORCE && !s.power.missRaised &&
      s.elapsed from_ (s.rd F.PWR_TELEM_TIMEOUT_HCLK) then
    let s := { s with power := { s.power with missRaised := true } }
    (s.wr F.PWR_STATUS_EST_ONLY 1).raise Ev.TELEM_MISSING
  else s

/-- A write of PWR_CTRL took effect: forcing begins or ends (R86), a calibration starts (R88). `forced` is the bit before the write. -/
def Hub.pwrCtrlWritten (s : Hub) (forced start : Bool) : Hub :=
  let force := s.flag F.PWR_CTRL_EST_ONLY_FORCE
  let s := if force && !forced then
      let s := { s with power := { s.power with missRaised := false } }
      (s.wr F.PWR_STATUS_EST_ONLY 1).wr F.PWR_USED_SOURCE 2
    else if !force && forced then { s with power := { s.power with missFrom := s.time.hclk } }
    else s
  if start && s.power.calLeft == 0 then s.calStart else s

/-- PWR_CLKREQ.GO (R92): a CLKCHG whose declared GCN is 4,096 HCLK ahead. -/
def Hub.pwrClkreq (s : Hub) : Hub :=
  let part := s.rd F.PWR_CLKREQ_PART
  let code := s.rd F.PWR_CLKREQ_DIV
  let declared := s.now + 4096
  let st := if s.isSafe then St.FAULT else s.clkchgCheck part declared
  let s := s.wr F.PWR_CLKREQ_STATUS st
  if st == St.OK then s.acceptChg part code declared else s.raise Ev.CLKREQ_REFUSED

/-- A PWR_CTX write for the selected slot (R84, R99): ignored while the domain runs or with FLOOR 0 or above 16;
with both, CTX_RUNNING alone is set (DESIGN CHOICE, log entry 311). A context that is not cap-tolerant has no cap, and no cap is below the floor. -/
def Hub.pwrCtxWrite (s : Hub) (r : Req) (v : Nat) : Hub :=
  let z := s.rd F.PWR_CTX_SEL_SLOT
  let st := (s.dom z).st
  let floor := bitsOf v 1 5
  if st == .running || st == .stopping then (s.err Er.PWR_CTX_RUNNING).errAt r R.PWR_CTX
  else if floor == 0 || 16 < floor then (s.err Er.PWR_FLOOR_RANGE).errAt r R.PWR_CTX
  else
    let s := s.setRegB R.PWR_CTX z (v % 64)
    let fit (c : Nat) : Nat := if v % 2 == 0 then 16 else if c < floor then floor else c
    let s := s.setDom z { s.dom z with
      cap := fit (s.dom z).cap
      capNext := if v % 2 == 0 then none else (s.dom z).capNext.map (fun n => (n.1, fit n.2)) }
    let s := doEach (s.slotTiles z) s (fun s t => s.setTile t { s.tile t with cap := fit (s.tile t).cap })
    s.showCap

end Sys2Proof.Machine
end

