-- ==== Sys2Proof/Machine/Cane.lean ====
section
/-! DEFINITION. The canes (01_architecture.md R19, R26; 04_harvest.md R135): bypass, the LOCATE search, and the CANE commands. -/

namespace Sys2Proof.Machine

/-- The cane a broken cane's column crosses over to: the east neighbour, or the west one at the easternmost column (R19); none when that
neighbour is broken too or absent, or one of the two carries another column already: two columns share a cane, not three. -/
def Hub.bypassTo (s : Hub) (c : Nat) : Option (Nat × Nat) :=
  let last := s.rd F.GLB_GRID_COLUMNS - 1
  let n := if c < last then c + 1 else c - 1
  if n == c || (s.cane n).broken || (s.cane n).mode == 3 || (s.cane c).mode == 3 then none else some (n, if c < last then 1 else 2)

/-- A neighbour of `c` is bypassed into it. -/
def Hub.carries (s : Hub) (c : Nat) : Bool :=
  (c != 0 && (s.cane (c - 1)).mode == 1) || (s.cane (c + 1)).mode == 2

/-- Marks a cane broken and engages bypass at the stage in BREAK_ROW (R113, R135). With no cane to cross over to it is marked broken, MODE 0, without
CANE_BROKEN, and its column stays on it (DESIGN CHOICE, log entry 300). -/
def Hub.engageBypass (s : Hub) (c : Nat) : Hub :=
  let x := s.cane c
  if x.broken then s
  else
    match s.bypassTo c with
    | some (n, mode) =>
      let s := s.setCane c { x with broken := true, mode := mode, suspect := false }
      let s := s.setCane n { s.cane n with mode := 3 }
      s.raiseOf Ev.CANE_BROKEN c
    | none => s.setCane c { x with broken := true, suspect := false }

/-- Ends bypass on a cane (R135): BROKEN and MODE are cleared. -/
def Hub.clearBroken (s : Hub) (c : Nat) : Hub :=
  let x := s.cane c
  let n := if x.mode == 1 then c + 1 else c - 1
  let was := x.mode == 1 || x.mode == 2
  let s := s.setCane c { x with broken := false, mode := if s.carries c then 3 else 0 }
  if was && !s.carries n && (s.cane n).mode == 3 then s.setCane n { s.cane n with mode := 0 } else s

/-- A cane begins to change its direction, 256 HCLK (R26). -/
def Hub.turnCane (s : Hub) (c : Nat) (down : Bool) : Hub :=
  let x := s.cane c
  if x.down == down && x.turning.isNone then s
  else s.setCane c { x with turning := some (down, s.time.hclk + 256) }

/-- A cane turns back upward as soon as nothing holds it downward (R26). -/
def Hub.turnUp (s : Hub) (c : Nat) : Hub := if s.bistHolds c then s else s.turnCane c false

/-- The canes whose change of direction is over take the new one. -/
def Hub.caneTurned (s : Hub) : Hub :=
  { s with canes := ⟨s.canes.cells.map (fun (p : Nat × CaneSt) =>
      match p.2.turning with
      | some (d, t) => if t ≤ s.time.hclk then (p.1, { p.2 with down := d, turning := none }) else p
      | none => p)⟩ }

/-- CANE_CMD_STATUS.DONE: 0 while LOCATE runs, on whichever cane and for whom (R135). -/
def Hub.locateShown (s : Hub) : Hub :=
  s.wr F.CANE_CMD_STATUS_DONE (b2n !(s.canes.cells.any (fun (p : Nat × CaneSt) => p.2.locate.isSome)))

/-- Writes CANE_CMD_STATUS. -/
def Hub.caneStatus (s : Hub) (status : Nat) : Hub := (s.wr F.CANE_CMD_STATUS_STATUS status).locateShown

/-- A harvest or decant holds the cane downward, or LOCATE runs on it. -/
def Hub.caneHeld (s : Hub) (c : Nat) : Bool :=
  let x := s.cane c
  (s.harv.op != 0 && (x.down || x.turning.isSome)) || x.locate.isSome

/-- The status of a CANE_CMD (R135). -/
def Hub.caneCheck (s : Hub) (op : Nat) : Nat :=
  if s.isSafe then St.FAULT
  else if op == 0 || 3 < op then St.BAD_ARG
  else if s.caneHeld (s.rd F.CANE_SEL_CANE) then St.BUSY
  else St.OK

/-- Starts LOCATE on a cane. (DEDUCED, log entry 100) -/
def Hub.startLocate (s : Hub) (c : Nat) : Hub := (s.setCane c { s.cane c with locate := some s.time.hclk }).locateShown

/-- A write of CANE_CMD. -/
def Hub.caneCmd (s : Hub) (op : Nat) : Hub :=
  let st := s.caneCheck op
  let c := s.rd F.CANE_SEL_CANE
  if st != St.OK then s.caneStatus st
  else
    match op with
    | 1 => (s.startLocate c).caneStatus St.OK
    | 2 => (s.clearBroken c).caneStatus St.OK
    | _ => (s.setCane c { s.cane c with parityErrs := 0, peak := 0 }).caneStatus St.OK

/-- A write of a CANE_BROKEN register: each bit written 1 engages bypass at CANE_INFO.BREAK_ROW (R135). -/
def Hub.caneBrokenWrite (s : Hub) (j v : Nat) : Hub :=
  doEach (maskList 32 v) s (fun s i => s.engageBypass (32 * j + i))

/-- A write of CANE_INFO.BREAK_ROW for the selected cane. -/
def Hub.caneInfoWrite (s : Hub) (v : Nat) : Hub :=
  let c := s.rd F.CANE_SEL_CANE
  s.setCane c { s.cane c with breakRow := v % 128, breakValid := true }

/-! ### Cane slots, R102 -/

/-- Odd parity over the low `n` bits of a value. -/
def oddParity (v n : Nat) : Nat := ((List.range n).foldl (fun p i => p + bitsOf v i 1) 1) % 2

/-- The parity bits of a data word: bit i covers byte i. -/
def slotParity (w : Nat) : Nat := listMask ((List.range 4).filter (fun i => oddParity (bitsOf w (8 * i) 8) 8 == 1))

/-- A slot's tag: CLASS, ROW, XOVER, SOR, EOR, ERR, RTYPE, TPAR. -/
def slotTag (cls row : Nat) (xover sor eor err : Bool) (rtype : Nat) : Nat :=
  let t := cls % 4 + 4 * (row % 128) + 0x200 * b2n xover + 0x400 * b2n sor + 0x800 * b2n eor + 0x1000 * b2n err + 0x2000 * (rtype % 4)
  t + 0x8000 * oddParity t 15

/-- A cane slot. -/
def caneSlot (w tag : Nat) : CaneSlot :=
  { data := BitVec.ofNat 32 w, parity := BitVec.ofNat 4 (slotParity w), tag := BitVec.ofNat 16 tag }

/-- A slot passes the checks of R113: data parity and tag parity. -/
def CaneSlot.ok (x : CaneSlot) : Bool :=
  x.parity.toNat == slotParity x.data.toNat && bitsOf x.tag.toNat 15 1 == oddParity (x.tag.toNat % 0x8000) 15

/-- RTYPE of a record type. -/
def recordKind (type : Nat) : Nat := if type == 1 then 0 else if type == 3 then 1 else 2

/-- The slots that carry a payload, in ascending byte order, SOR on the first word and EOR on the last (R102). -/
def slotsOf (cls row : Nat) (xover : Bool) (rtype : Nat) (payload : List Byte) : List CaneSlot :=
  let n := ceilDiv payload.length 4
  (List.range n).map (fun i => caneSlot (leAt payload (4 * i) 4) (slotTag cls row xover (i == 0) (i + 1 == n) false rtype))

/-- The first slot of a payload. -/
def firstSlot (cls row : Nat) (xover : Bool) (rtype : Nat) (payload : List Byte) : CaneSlot :=
  caneSlot (leAt payload 0 4) (slotTag cls row xover true (payload.length ≤ 4) false rtype)

/-- The last slot of a payload; ERR is shown there when the source reported an error in the record (DESIGN CHOICE, log entry 336). -/
def lastSlot (cls row : Nat) (xover err : Bool) (rtype : Nat) (payload : List Byte) : CaneSlot :=
  let n := ceilDiv payload.length 4
  caneSlot (leAt payload (4 * (n - 1)) 4) (slotTag cls row xover (n == 1) true err rtype)

/-- A spur whose words travel on a cane has a tasting sample under way: class 1 of R27. -/
def Hub.sampleWaiting (s : Hub) (q : Nat) : Bool :=
  s.tiles.cells.any (fun (p : Nat × Tile) => s.caneFor (colOf p.1) == q && p.2.taste.any (·.started))

end Sys2Proof.Machine
end

