-- ==== Sys2Proof/Machine/Codec.lean ====
section
/-! DEFINITION. The press format (05_press.md, R140 to R157): the encoder of one block, the decoder of one block, and the
digest of R259 and R260. -/

namespace Sys2Proof.Machine

/-! ### Tokens, R144 -/

/-- A token of a COMPRESSED block. -/
inductive Tok where
  | lit (bytes : List Byte)
  | rep (len dist : Nat)
  | ref (len pos : Nat)
  | zero (len : Nat)
  | endd
deriving DecidableEq, Repr

/-- Largest raw output of a block (R141). -/
def blockMax : Nat := 262144

/-- The shortest encoding of a token (R144). -/
def tokBytes : Tok → List Byte
  | .lit bs => if bs.length ≤ 63 then le 1 (bs.length - 1) ++ bs else le 1 0x3F ++ le 2 (bs.length - 64) ++ bs
  | .rep n d => if n ≤ 66 then le 1 (0x40 + n - 4) ++ le 2 (d - 1) else le 1 0x7F ++ le 2 (n - 67) ++ le 2 (d - 1)
  | .ref n p => if n ≤ 66 then le 1 (0x80 + n - 4) ++ le 2 p else le 1 0xBF ++ le 2 (n - 67) ++ le 2 p
  | .zero n => if n ≤ 34 then le 1 (0xC0 + n - 4) else le 1 0xDF ++ le 2 (n - 35)
  | .endd => le 1 0xE0

/-! ### The encoder, R152 and R153 -/

/-- h(j) of R152 from the word of four bytes. -/
def pressHash (w : Nat) : Nat := (w * 0x9E3779B1) % 2 ^ 32 / 2 ^ 20

/-- The number of equal bytes two strings start with. -/
def samePrefix : List Byte → List Byte → Nat
  | a :: as_, b :: bs => if a == b then samePrefix as_ bs + 1 else 0
  | _, _ => 0

/-- Enters raw positions `j`, `j + 1`, … (`n` of them) of record `r` into the hash table. -/
def hashIn (r : List Byte) : Nat → Nat → Tab Nat → Tab Nat
  | 0, _, t => t
  | n + 1, j, t => hashIn r n (j + 1) (if j + 4 ≤ r.length then t.set (pressHash (leAt r j 4)) j else t)

/-- The largest earlier position with the hash of position `i`, if there is one. -/
def candidate (r : List Byte) (i : Nat) (t : Tab Nat) : Option Nat :=
  if i + 4 ≤ r.length then (t.cells.find? (fun p => p.1 == pressHash (leAt r i 4))).map Prod.snd else none

/-- The pending literal run as LIT tokens. -/
def flushLits (lits : List Byte) : List Byte :=
  if lits.isEmpty then [] else
  if lits.length ≤ 65599 then tokBytes (.lit lits)
  else (List.range (ceilDiv lits.length 65599)).flatMap (fun k => tokBytes (.lit ((lits.drop (k * 65599)).take 65599)))

/-- The state of the encoder inside a block: position, table, pending literals, body so far, whether a REF was taken. -/
structure EncState where
  i : Nat
  table : Tab Nat
  lits : List Byte
  body : List Byte
  usesRef : Bool
deriving DecidableEq, Repr

/-- One evaluation of the greedy rule at position `i` (R153). -/
def encStep (r : List Byte) (ref : Option (List Byte)) (stop : Nat) (e : EncState) : EncState :=
  let rest := (r.drop e.i).take (stop - e.i)
  let z := least (rest.takeWhile (· == 0)).length 65570
  let m := match candidate r e.i e.table with
    | some c =>
      if e.i - c ≤ 65536 && leAt r c 4 == leAt r e.i 4 then (least (samePrefix (r.drop c) rest) 65602, e.i - c) else (0, 0)
    | none => (0, 0)
  let f := match ref with
    | some p => if 16 ≤ e.i then least (samePrefix (p.drop (e.i - 16)) rest) 65602 else 0
    | none => 0
  let best := maxNat [z, f, m.1]
  if best < 4 then
    { e with i := e.i + 1, table := hashIn r 1 e.i e.table, lits := e.lits ++ rest.take 1 }
  else
    let tok := if z == best then Tok.zero z else if f == best then Tok.ref f (e.i - 16) else Tok.rep m.1 m.2
    { i := e.i + best, table := hashIn r best e.i e.table, lits := [], body := e.body ++ flushLits e.lits ++ tokBytes tok,
      usesRef := e.usesRef || (z != best && f == best) }

/-- The encoder's loop over a block. -/
def encLoop (r : List Byte) (ref : Option (List Byte)) (stop : Nat) : Nat → EncState → EncState
  | 0, e => e
  | n + 1, e => if stop ≤ e.i then e else encLoop r ref stop n (encStep r ref stop e)

/-- The body of the block of record `r` that runs from `start` to `stop`, and whether it holds a REF token (R153). -/
def encodeBody (r : List Byte) (ref : Option (List Byte)) (start stop : Nat) : List Byte × Bool :=
  let e := encLoop r ref stop (stop - start) { i := start, table := hashIn r start 0 {}, lits := [], body := [], usesRef := false }
  (e.body ++ flushLits e.lits ++ tokBytes .endd, e.usesRef)

/-! ### Blocks, R140 -/

def BlkKind.COMPRESSED : Nat := 0
def BlkKind.RAW : Nat := 1
def BlkKind.LOCATOR : Nat := 2
def BlkKind.END : Nat := 3

/-- A block: header, CHECK over header bytes 0 to 11 and `covered`, body. -/
def block (kind flags rawLen : Nat) (covered body : List Byte) : List Byte :=
  let h := le 1 0xD7 ++ le 1 kind ++ le 1 flags ++ zeros 1 ++ le 4 rawLen ++ le 4 body.length
  h ++ le 4 (crc32c (h ++ covered)) ++ body

/-- A written data block with what the lane counts about it. -/
structure DataBlock where
  bytes : List Byte
  raw : Bool
  usesRef : Bool
deriving DecidableEq, Repr

/-- The data block of record `r` from `start` to `stop`: RAW when forced or when the body would not be shorter (R153). -/
def dataBlock (r : List Byte) (ref : Option (List Byte)) (start stop : Nat) (flushed forceRaw : Bool) : DataBlock :=
  let out := (r.drop start).take (stop - start)
  let enc := encodeBody r ref start stop
  let raw := forceRaw || out.length ≤ enc.1.length
  let usesRef := !raw && enc.2
  let flags := b2n (start == 0) + 2 * b2n (stop == r.length) + 4 * b2n usesRef + 8 * b2n flushed
  { bytes := block (if raw then BlkKind.RAW else BlkKind.COMPRESSED) flags out.length out (if raw then out else enc.1),
    raw := raw, usesRef := usesRef }

/-! ### The decoder, R145 and R157 -/

/-- Decoder failure codes of R157. -/
def Dec.BAD_HEADER : Nat := 1
def Dec.BAD_LENGTH : Nat := 2
def Dec.BAD_TOKEN : Nat := 3
def Dec.OVERRUN : Nat := 4
def Dec.UNDERRUN : Nat := 5
def Dec.TRAILING : Nat := 6
def Dec.BAD_DISTANCE : Nat := 7
def Dec.BAD_REF : Nat := 8
def Dec.NO_REF : Nat := 9
def Dec.CHECK : Nat := 10
def Dec.SEQUENCE : Nat := 11
def Dec.ECC : Nat := 12
/-- The reference fetch of a block failed (R148): the lane shows NO_REF. -/
def Dec.FETCH : Nat := 16

/-- The next token of a body: the token and the bytes it takes, none for a reserved token byte or one that runs past the body. -/
def nextTok (b : List Byte) : Option (Tok × Nat) :=
  match b with
  | [] => none
  | t :: rest =>
    let t := t.toNat
    let need (n : Nat) (k : Tok × Nat) : Option (Tok × Nat) := if n ≤ rest.length then some k else none
    if t < 0x3F then need (t + 1) (.lit (rest.take (t + 1)), t + 2)
    else if t == 0x3F then
      let n := 64 + leAt rest 0 2
      need (2 + n) (.lit ((rest.drop 2).take n), n + 3)
    else if t < 0x7F then need 2 (.rep (t - 0x40 + 4) (leAt rest 0 2 + 1), 3)
    else if t == 0x7F then need 4 (.rep (67 + leAt rest 0 2) (leAt rest 2 2 + 1), 5)
    else if t < 0xBF then need 2 (.ref (t - 0x80 + 4) (leAt rest 0 2), 3)
    else if t == 0xBF then need 4 (.ref (67 + leAt rest 0 2) (leAt rest 2 2), 5)
    else if t < 0xDF then some (.zero (t - 0xC0 + 4), 1)
    else if t == 0xDF then need 2 (.zero (35 + leAt rest 0 2), 3)
    else if t == 0xE0 then some (.endd, 1)
    else none

/-- Appends `n` bytes, each the byte `d` before the end of the output (R145). -/
def copyBack : Nat → Nat → List Byte → List Byte
  | 0, _, o => o
  | n + 1, d, o => copyBack n d (o ++ [nth o (o.length - d) 0])

/-- The decoder's loop over a body: `o` is the record's output so far, `limit` the length it must reach, `base` where the block began.
Answers the output or a failure code. -/
def decLoop (usesRef : Bool) (ref : Option (List Byte)) (limit : Nat) : Nat → List Byte → List Byte → Except Nat (List Byte)
  | 0, _, _ => .error Dec.BAD_TOKEN
  | n + 1, b, o =>
    if b.isEmpty then .error Dec.UNDERRUN
    else
      match nextTok b with
      | none => .error Dec.BAD_TOKEN
      | some (.endd, k) =>
        if o.length < limit then .error Dec.UNDERRUN
        else if (b.drop k).isEmpty then .ok o
        else .error Dec.TRAILING
      | some (.lit bs, k) =>
        if limit < o.length + bs.length then .error Dec.OVERRUN else decLoop usesRef ref limit n (b.drop k) (o ++ bs)
      | some (.zero len, k) =>
        if limit < o.length + len then .error Dec.OVERRUN else decLoop usesRef ref limit n (b.drop k) (o ++ zeros len)
      | some (.rep len d, k) =>
        if limit < o.length + len then .error Dec.OVERRUN
        else if o.length < d then .error Dec.BAD_DISTANCE
        else decLoop usesRef ref limit n (b.drop k) (copyBack len d o)
      | some (.ref len p, k) =>
        let src := ref.getD []
        if limit < o.length + len then .error Dec.OVERRUN
        else if !usesRef || o.length < 16 || src.length < p + len then .error Dec.BAD_REF
        else decLoop usesRef ref limit n (b.drop k) (o ++ (src.drop p).take len)

/-- A block header as read (R140). -/
structure BlkHdr where
  kind : Nat
  flags : Nat
  rawLen : Nat
  bodyLen : Nat
  check : Nat
deriving DecidableEq, Repr

/-- Reads a block header, with BAD_HEADER and BAD_LENGTH of R157. -/
def readHdr (b : List Byte) : Except Nat BlkHdr :=
  let h : BlkHdr := { kind := leAt b 1 1, flags := leAt b 2 1, rawLen := leAt b 4 4, bodyLen := leAt b 8 4, check := leAt b 12 4 }
  if leAt b 0 1 != 0xD7 || 3 < h.kind || 15 < h.flags || leAt b 3 1 != 0 || (2 ≤ h.kind && h.flags != 0) then .error Dec.BAD_HEADER
  else
    let good :=
      if h.kind == BlkKind.COMPRESSED then 2 ≤ h.rawLen && h.rawLen ≤ blockMax && 1 ≤ h.bodyLen && h.bodyLen < h.rawLen
      else if h.kind == BlkKind.RAW then 1 ≤ h.rawLen && h.rawLen ≤ blockMax && h.bodyLen == h.rawLen
      else if h.kind == BlkKind.LOCATOR then h.rawLen == h.bodyLen && 16 ≤ h.bodyLen && (h.bodyLen - 16) % 2736 == 0 && h.bodyLen ≤ 16 + 2736 * 128
      else h.rawLen == 16 && h.bodyLen == 16
    if good then .ok h else .error Dec.BAD_LENGTH

/-- The record header a COMPRESSED body begins with: the LIT and ZERO tokens that make up its first 16 bytes. -/
def peekHeader (body : List Byte) : List Byte :=
  let rec go : Nat → List Byte → List Byte → List Byte
    | 0, _, o => o
    | n + 1, b, o =>
      if 16 ≤ o.length then o
      else
        match nextTok b with
        | some (.lit bs, k) => go n (b.drop k) (o ++ bs)
        | some (.zero len, k) => go n (b.drop k) (o ++ zeros (least len 16))
        | some (.rep len d, k) => if o.length < d then o else go n (b.drop k) (copyBack (least len 16) d o)
        | _ => o
  (go 16 body []).take 16

/-- The raw output of a data block, given the output of the record so far. -/
def decodeBlock (h : BlkHdr) (hdr body o : List Byte) (ref : Except Nat (List Byte)) : Except Nat (List Byte) :=
  let usesRef := bitAt h.flags 2
  let type := leAt (if o.isEmpty then [] else o) 0 1
  let out : Except Nat (List Byte) :=
    if h.kind == BlkKind.RAW then (if usesRef then .error Dec.BAD_REF else .ok (o ++ body))
    else if usesRef && !(bitAt h.flags 0 && bitAt h.flags 1) then .error Dec.BAD_REF
    else
      match usesRef, ref with
      | true, .error c =>
        if 16 ≤ o.length + (peekHeader body).length then .error c
        else
          match decLoop true none (o.length + h.rawLen) (body.length + 1) body o with
          | .error e => .error e
          | .ok _ => .error c
      | true, .ok p => decLoop true (some p) (o.length + h.rawLen) (body.length + 1) body o
      | false, _ => decLoop false none (o.length + h.rawLen) (body.length + 1) body o
  match out with
  | .error c => .error c
  | .ok res =>
    let raw := res.drop o.length
    if crc32c (hdr.take 12 ++ raw) != h.check then .error Dec.CHECK
    else if usesRef && !(([1, 2, 3] : List Nat).contains (if o.isEmpty then leAt res 0 1 else type)) then .error Dec.BAD_REF
    else .ok res

/-! ### Records as bytes, R103 -/

/-- The 16-byte header of a record. -/
def recHeader (type flags tile vint offset : Nat) (payload : List Byte) : List Byte :=
  le 1 type ++ le 1 flags ++ le 2 tile ++ le 2 vint ++ le 3 payload.length ++ le 3 offset ++ le 4 (crc32c payload)

/-! ### Decoding a stream, R157 -/

/-- A record of a decoded stream: its bytes, the stream position of its first block, whether a block used REF. -/
structure DecRec where
  bytes : List Byte
  pos : Nat
  usesRef : Bool
deriving DecidableEq, Repr

/-- What decoding a stream gave: the complete records, and the first failure with the position of its block. -/
structure DecOut where
  recs : List DecRec
  fail : Option (Nat × Nat)
deriving DecidableEq, Repr

/-- Decodes blocks from `pos` to the end of the stream. `cur` is the record in the making; `refOf` gives the reference record's payload for a
record header. -/
def decStream (st : List Byte) (refOf : List Byte → Except Nat (List Byte)) : Nat → Nat → Option DecRec → List DecRec → DecOut
  | 0, pos, _, done => { recs := done, fail := some (Dec.SEQUENCE, pos) }
  | n + 1, pos, cur, done =>
    let rest := st.drop pos
    let stop (c : Nat) : DecOut := { recs := done, fail := some (c, pos) }
    if rest.length < 16 then stop Dec.SEQUENCE
    else
      match readHdr rest with
      | .error c => stop c
      | .ok h =>
        let body := (rest.drop 16).take h.bodyLen
        if body.length < h.bodyLen then stop Dec.SEQUENCE
        else if h.kind == BlkKind.LOCATOR then
          if pos != 0 then stop Dec.SEQUENCE
          else if h.bodyLen != 16 + 2736 * leAt body 3 1 then stop Dec.BAD_LENGTH
          else if crc32c (rest.take 12 ++ body) != h.check then stop Dec.CHECK
          else decStream st refOf n (pos + 16 + h.bodyLen) none done
        else if pos == 0 then stop Dec.SEQUENCE
        else if h.kind == BlkKind.END then
          if crc32c (rest.take 12 ++ body) != h.check then stop Dec.CHECK
          else if pos + 32 == st.length then { recs := done, fail := none }
          else { recs := done, fail := some (Dec.SEQUENCE, pos + 32) }
        else
          let first := bitAt h.flags 0
          if first == cur.isSome then stop Dec.SEQUENCE
          else
            let o := (cur.map DecRec.bytes).getD []
            let ref := refOf body
            match decodeBlock h rest body o ref with
            | .error c => stop c
            | .ok res =>
              let r : DecRec := { bytes := res, pos := (cur.map DecRec.pos).getD pos,
                                  usesRef := (cur.map DecRec.usesRef).getD false || bitAt h.flags 2 }
              if bitAt h.flags 1 then decStream st refOf n (pos + 16 + h.bodyLen) none (done ++ [r])
              else decStream st refOf n (pos + 16 + h.bodyLen) (some r) done

/-- Decodes a whole lane stream. -/
def decodeStream (st : List Byte) (refOf : List Byte → Except Nat (List Byte)) : DecOut := decStream st refOf (st.length / 17 + 1) 0 none []

/-! ### Digests, R259 and R260 -/

/-- mix64 of R259. -/
def mix64 (a w : Nat) : Nat :=
  let x := (w % 2 ^ 64) ^^^ ((a * 0x9E3779B97F4A7C15) % 2 ^ 64)
  let x := x ^^^ (x >>> 31)
  let x := (x * 0xBF58476D1CE4E5B9) % 2 ^ 64
  x ^^^ (x >>> 29)

/-- The digest of consecutive words: `n` words of a byte string, the first at logical offset `a`. -/
def digestBytes (bs : List Byte) (a : Nat) : Nat → Nat
  | 0 => 0
  | n + 1 => (mix64 a (leAt bs 0 8) + digestBytes (bs.drop 8) (a + 8) n) % 2 ^ 64

/-- The digest of a byte string whose length is a multiple of 8, from logical offset `a`. -/
def digestOf (bs : List Byte) (a : Nat) : Nat := digestBytes bs a (bs.length / 8)

end Sys2Proof.Machine
end

