-- ==== Sys2Proof/Machine/Cellar.lean ====
section
/-! DEFINITION. The cellar (06_cellar_racking.md, R166 to R181, R188): layout, superblock, cask descriptors and chains, the vintage
index, allocation and eviction, and the CELL commands. -/

namespace Sys2Proof.Machine

/-! ### Geometry and layout, R166 and R167 -/

/-- The geometry of a cellar. -/
structure Geo where
  base : Nat
  units : Nat
  code : Nat
  ringMib : Nat
deriving DecidableEq, Repr

/-- 1 MiB. -/
def mebi : Nat := 0x100000

def Geo.size (g : Geo) : Nat := g.units * 256 * mebi
def Geo.cask (g : Geo) : Nat := 0x10000 * 2 ^ g.code
def Geo.metaLen (g : Geo) : Nat := roundUp (0x11000 + 32 * (g.size / g.cask)) g.cask
def Geo.ringAt (g : Geo) : Nat := g.base + g.metaLen
def Geo.ringLen (g : Geo) : Nat := g.ringMib * mebi
def Geo.poolAt (g : Geo) : Nat := g.ringAt + g.ringLen
def Geo.pool (g : Geo) : Nat := (g.size - g.metaLen - g.ringLen) / g.cask
def Geo.indexAt (g : Geo) (e : Nat) : Nat := g.base + 0x1000 + 64 * e
def Geo.descAt (g : Geo) (i : Nat) : Nat := g.base + 0x11000 + 32 * i
def Geo.caskAt (g : Geo) (i : Nat) : Nat := g.poolAt + g.cask * i
/-- The cask whose descriptor lies at an address. -/
def Geo.caskOf (g : Geo) (descAddr : Nat) : Nat := (descAddr - g.base - 0x11000) / 32

/-- The geometry in force. -/
def Hub.geo (s : Hub) : Geo := ⟨s.cell.base, s.cell.units, s.cell.caskCode, s.cell.ringMib⟩

/-- The geometry the registers ask for, the ring rounded up to the cask size (R166). -/
def Hub.geoAsked (s : Hub) : Geo :=
  let code := s.rd F.CELL_CASK_CODE
  let cask := 0x10000 * 2 ^ code
  { base := s.reg64 R.CELL_BASE_LO / 0x200000 * 0x200000, units := s.rd F.CELL_SIZE_UNITS, code := code,
    ringMib := roundUp (s.rd F.CELL_RING_MIB * mebi) cask / mebi }

/-- The geometry is legal (R166). -/
def Geo.legal (g : Geo) : Bool :=
  1 ≤ g.units && g.units ≤ 64 && g.code ≤ 8 && g.metaLen + g.ringLen ≤ g.size && 64 ≤ g.pool

/-- The cellar is READY. -/
def Hub.cellReady (s : Hub) : Bool := s.rd F.CELL_STATE_STATE == 1

/-! ### Superblock, R168 -/

def superMagic : Nat := 0xCE11A201

/-- The 64 bytes of the superblock. -/
def superBytes (g : Geo) (hub nextSeq fmtEpoch nextVintage : Nat) : List Byte :=
  let b := le 4 superMagic ++ le 2 1 ++ le 2 hub ++ le 1 g.code ++ zeros 3 ++ le 4 g.units ++ le 4 g.ringMib ++ le 4 g.pool ++
    le 4 nextSeq ++ le 4 fmtEpoch ++ le 4 nextVintage ++ zeros 24
  b ++ le 4 (crc32c b)

/-- Epoch of the last FORMAT as the superblock in memory holds it. -/
def Hub.fmtEpoch (s : Hub) : Nat := leAt (s.mem s.cell.base 64) 28 4

/-- Rewrites the superblock. -/
def Hub.putSuper (s : Hub) (fmtEpoch : Nat) : Hub :=
  s.putMem s.cell.base (superBytes s.geo s.hubAddr s.cell.nextSeq fmtEpoch (s.reg R.HARV_NEXT_VINTAGE))

/-- The geometry a superblock at `base` states for a hub, when its MAGIC, FORMAT, HUB and CRC are good. -/
def Hub.superAt (s : Hub) (base hub : Nat) : Option Geo :=
  let b := s.mem base 64
  let g : Geo := ⟨base, leAt b 12 4, leAt b 8 1, leAt b 16 4⟩
  if leAt b 0 4 == superMagic && leAt b 4 2 == 1 && leAt b 6 2 == hub && crc32c (b.take 60) == leAt b 60 4 && g.legal then some g
  else none

/-! ### Cask descriptors and chains, R169 -/

/-- A cask descriptor. -/
structure Desc where
  next : Nat
  vintage : Nat
  kind : Nat
  lane : Nat
  closed : Bool
  used : Nat
  pos : Nat
  firstHdr : Nat
deriving DecidableEq, Repr

/-- "None" in NEXT and FIRST_HDR. -/
def noCask : Nat := 0xFFFFFFFF

/-- The 32 bytes of a descriptor. -/
def Desc.bytes (d : Desc) : List Byte :=
  let b := le 4 d.next ++ le 4 d.vintage ++ le 1 d.kind ++ le 1 d.lane ++ le 1 (b2n d.closed) ++ zeros 1 ++ le 4 d.used ++ le 8 d.pos ++
    le 4 d.firstHdr
  b ++ le 4 (crc32c b)

/-- The descriptor of a free cask. (DESIGN CHOICE, log entry 103) -/
def freeDesc : Desc :=
  { next := noCask, vintage := 0, kind := 0, lane := 0, closed := false, used := 0, pos := 0, firstHdr := noCask }

/-- The descriptor of a cask, none when its CRC fails. -/
def Hub.desc (s : Hub) (g : Geo) (i : Nat) : Option Desc :=
  let b := s.mem (g.descAt i) 32
  if crc32c (b.take 28) == leAt b 28 4 then
    some { next := leAt b 0 4, vintage := leAt b 4 4, kind := leAt b 8 1, lane := leAt b 9 1, closed := bitAt (leAt b 10 1) 0,
           used := leAt b 12 4, pos := leAt b 16 8, firstHdr := leAt b 24 4 }
  else none

/-- Writes a descriptor of the own cellar. -/
def Hub.putDesc (s : Hub) (i : Nat) (d : Desc) : Hub := s.putMem (s.geo.descAt i) d.bytes

/-- The chain that begins at cask `i`, each cask with its USED; none when a descriptor fails its check, or the chain is longer than the
pool. -/
def Hub.chain (s : Hub) (g : Geo) : Nat → Nat → Option (List (Nat × Nat))
  | 0, _ => none
  | n + 1, i =>
    match s.desc g i with
    | none => none
    | some d =>
      if d.kind == 0 || g.pool ≤ i || g.cask < d.used then none
      else if d.next == noCask then some [(i, d.used)]
      else (s.chain g n d.next).map (fun l => (i, d.used) :: l)

/-- The bytes of a chain. -/
def Hub.chainBytes (s : Hub) (g : Geo) (l : List (Nat × Nat)) : List Byte := l.flatMap (fun c => s.mem (g.caskAt c.1) c.2)

/-- The content of the chain whose first descriptor lies at an address. -/
def Hub.readChain (s : Hub) (g : Geo) (descAddr : Nat) : Option (List Byte) :=
  (s.chain g g.pool (g.caskOf descAddr)).map (s.chainBytes g)

/-! ### The manifest as read back, R118 and R119. `m` is its payload. -/

def Man.domains (m : List Byte) : Nat := leAt m 40 1
def Man.lanes (m : List Byte) : Nat := leAt m 42 1
def Man.gaps (m : List Byte) : Nat := leAt m 44 2
def Man.regions (m : List Byte) : Nat := leAt m 74 2
def Man.cols (m : List Byte) : Nat := leAt m 36 1
def Man.domAt (i : Nat) : Nat := 128 + 32 * i
def Man.laneAt (m : List Byte) (l : Nat) : Nat := Man.domAt (Man.domains m) + 32 * l
def Man.regionAt (m : List Byte) (i : Nat) : Nat := Man.laneAt m (Man.lanes m) + 48 * i
def Man.gapAt (m : List Byte) (i : Nat) : Nat := Man.regionAt m (Man.regions m) + 16 * i
def Man.tileAt (m : List Byte) (t : Nat) : Nat := Man.gapAt m (Man.gaps m) + 8 * (rowOf t * Man.cols m + colOf t)

/-- The payload of a MANIFEST record whose CRC and length are good. -/
def manifestPayload (b : List Byte) : Option (List Byte) :=
  let len := leAt b 6 3
  let p := (b.drop 16).take len
  if leAt b 0 1 == 6 && p.length == len && 128 ≤ len && crc32c p == leAt b 12 4 then some p else none

/-- The manifest payload of a vintage. -/
def Hub.manifestOf (s : Hub) (g : Geo) (descAddr : Nat) : Option (List Byte) :=
  match s.readChain g descAddr with
  | some b => manifestPayload b
  | none => none

/-- The slots of the SECURE domains of a manifest. -/
def Man.secure (m : List Byte) : List Nat :=
  ((List.range (Man.domains m)).filter (fun i => leAt m (Man.domAt i + 1) 1 == 2)).map (fun i => leAt m (Man.domAt i) 1)

/-- First descriptor, raw bytes and pressed bytes of a lane. -/
def Man.lane (m : List Byte) (l : Nat) : Nat × Nat × Nat :=
  let a := Man.laneAt m l
  (leAt m a 8, leAt m (a + 8) 8, leAt m (a + 16) 8)

/-! ### The vintage index, R172 -/

/-- The index entry that holds a vintage. -/
def Hub.findVintage (s : Hub) (v : Nat) : Option (Nat × Vint) := s.cell.index.cells.find? (fun p => p.2.number == v)

/-- The 64 bytes of an index entry. -/
def Vint.bytes (v : Vint) : List Byte :=
  let b := le 4 v.number ++ le 4 v.ref ++ le 1 v.state ++ le 1 v.flags ++ zeros 2 ++ le 4 v.seq ++ le 8 v.manifest ++ le 8 v.closeGcn ++
    le 4 v.epoch ++ le 4 v.casks ++ le 8 v.pressed ++ zeros 12
  b ++ le 4 (crc32c b)

/-- Writes an index entry, in the hub and in memory. -/
def Hub.putVintage (s : Hub) (e : Nat) (v : Vint) : Hub :=
  ({ s with cell := { s.cell with index := s.cell.index.set e v } }).putMem (s.geo.indexAt e) v.bytes

/-- The lowest free index entry. -/
def Hub.freeEntry (s : Hub) : Option Nat := (List.range 1024).find? (fun e => !s.cell.index.keys.contains e)

/-- FLAGS bits of an index entry. -/
def Vint.pin (v : Vint) : Bool := bitAt v.flags 0
def Vint.isCrash (v : Vint) : Bool := bitAt v.flags 1

/-- A vintage carries a hold (R174). -/
def Hub.held (s : Hub) (v : Vint) : Bool :=
  v.number != 0 && (v.state == 1 || v.decantHold || !v.rackHold.isEmpty ||
  (s.harv.op != 0 && s.harv.ref == v.number && v.number != 0) ||
  s.cell.index.cells.any (fun p => p.2.ref == v.number && p.2.number != v.number) ||
  (match s.rack.active with
   | some r => r.hub == s.hubAddr && r.vintage == v.number && !r.trace
   | none => false))

/-- A vintage that eviction may take (R176). -/
def Hub.evictable (s : Hub) (v : Vint) : Bool := v.state == 2 && !v.pin && !s.held v

/-- The evictable entry with the smallest SEQ. -/
def Hub.oldest (s : Hub) : Option (Nat × Vint) :=
  (s.cell.index.cells.filter (fun p => s.evictable p.2)).foldl (fun (o : Option (Nat × Vint)) p =>
    match o with
    | some q => if p.2.seq < q.2.seq then some p else o
    | none => some p) none

/-! ### Allocation, R170 and R176 -/

/-- Casks not free in the pool. -/
def Hub.freeCasks (s : Hub) : Nat := s.cell.pool - s.cell.usedCasks.length

/-- The smallest number from `n` that a rising list does not hold. -/
def firstGap : Nat → List Nat → Nat
  | n, [] => n
  | n, x :: xs => if x < n then firstGap n xs else if x == n then firstGap (n + 1) xs else n

/-- Takes the lowest-numbered free cask. -/
def Hub.takeCask (s : Hub) : Option Nat × Hub :=
  let c := firstGap 0 s.cell.usedCasks
  if c < s.cell.pool then
    (some c, ({ s with cell := { s.cell with usedCasks := insertNat c s.cell.usedCasks } }).wr F.CELL_STATE_FULL 0)
  else (none, s.wr F.CELL_STATE_FULL 1)

/-- Takes `n` casks; all or none. -/
def Hub.takeCasks (s : Hub) : Nat → Option (List Nat) × Hub
  | 0 => (some [], s)
  | n + 1 =>
    match s.takeCask with
    | (none, s') => (none, s')
    | (some c, s') =>
      match s'.takeCasks n with
      | (some l, s2) => (some (c :: l), s2)
      | (none, _) => (none, s.wr F.CELL_STATE_FULL 1)

/-- Gives casks back to the pool, their descriptors freed. -/
def Hub.freeCask (s : Hub) (c : Nat) : Hub :=
  ({ s with cell := { s.cell with usedCasks := removeNat c s.cell.usedCasks } }).putDesc c freeDesc

def Hub.giveBack (s : Hub) (l : List Nat) : Hub := doEach l s Hub.freeCask

/-- Records the end of a request that failed (R189, R194). -/
def Hub.rackFail (s : Hub) (r : RackReq) (status : Nat) : Hub :=
  let s := ((s.wr F.RACK_FAIL_INFO_REQ_ID r.id).wr F.RACK_FAIL_INFO_STATUS status).wr F.RACK_FAIL_INFO_HUB r.hub
  s.raiseOf Ev.RACK_FAILED r.id

/-- Queued rack requests for a vintage of the own cellar that is gone end with NO_SPACE (R176). -/
def Hub.dropRacks (s : Hub) (v : Nat) : Hub :=
  let mine (r : RackReq) : Bool := r.hub == s.hubAddr && r.vintage == v && !r.trace
  let gone := s.rack.queue.filter mine
  let s := { s with rack := { s.rack with queue := s.rack.queue.filter (fun r => !mine r) } }
  doEach gone s (fun s r => s.rackFail r St.NO_SPACE)

/-- Removes a vintage: its casks and its index entry are free. -/
def Hub.removeVintage (s : Hub) (e : Nat) (v : Vint) : Hub :=
  let s := s.giveBack v.chain
  let s := { s with cell := { s.cell with index := s.cell.index.del e } }
  (s.putMem (s.geo.indexAt e) (zeros 64)).dropRacks v.number

/-- Evicts the eligible vintage with the smallest SEQ, if there is one (R176). -/
def Hub.evictOne (s : Hub) : Option Hub :=
  match s.oldest with
  | some (e, v) => some (((s.removeVintage e v).bump F.CELL_EVICTED_COUNT 1).raiseOf Ev.VINTAGE_EVICTED (v.number % 65536))
  | none => none

/-- Evicts until `n` casks are free and, where wanted, an index entry; answers whether they are. CELL_STATE.FULL shows a failure (R192). -/
def Hub.makeRoom (n : Nat) (entry : Bool) : Nat → Hub → Bool × Hub
  | 0, s => let ok := decide (n ≤ s.freeCasks) && (!entry || s.freeEntry.isSome)
            (ok, s.wr F.CELL_STATE_FULL (b2n !ok))
  | k + 1, s =>
    if n ≤ s.freeCasks && (!entry || s.freeEntry.isSome) then (true, s)
    else if s.rd F.CELL_CTRL_POLICY == 0 then (false, s.wr F.CELL_STATE_FULL 1)
    else
      match s.evictOne with
      | some s' => Hub.makeRoom n entry k s'
      | none => (false, s.wr F.CELL_STATE_FULL 1)

/-- Deletes a vintage with VINTAGE_DELETED (R177, R188). -/
def Hub.deleteVintage (s : Hub) (e : Nat) (v : Vint) : Hub := (s.removeVintage e v).raiseOf Ev.VINTAGE_DELETED (v.number % 65536)

/-! ### Pins, R175 -/

/-- Casks of the pinned vintages. -/
def Hub.pinnedCasks (s : Hub) : Nat := sumNat ((s.cell.index.cells.filter (fun p => p.2.pin)).map (fun p => p.2.casks))

/-- A vintage of `casks` casks may be pinned. -/
def Hub.pinFits (s : Hub) (casks : Nat) : Bool :=
  !s.cell.index.cells.any (fun p => p.2.pin) || (s.pinnedCasks + casks) * 100 ≤ s.rd F.CELL_PIN_LIMIT_PCT * s.cell.pool

/-- Sets or clears PIN of an entry. -/
def Hub.setPin (s : Hub) (e : Nat) (v : Vint) (pin : Bool) : Hub := s.putVintage e { v with flags := setBits v.flags 0 1 (b2n pin) }

/-! ### FORMAT and start-up, R178 -/

/-- Puts a geometry into force. -/
def Hub.setGeo (s : Hub) (g : Geo) : Hub :=
  { s with cell := { s.cell with base := g.base, units := g.units, caskCode := g.code, ringMib := g.ringMib, pool := g.pool } }

/-- Writes a fresh superblock, a free index and free descriptors; NEXT_SEQ is 1 (R178). -/
def Hub.formatCellar (s : Hub) (g : Geo) : Hub :=
  let s := s.setGeo g
  let s := { s with cell := { s.cell with usedCasks := [], nextSeq := 1, index := {} } }
  let s := doEach (List.range 1024) s (fun s e => s.putMem (g.indexAt e) (zeros 64))
  let s := doEach (List.range (g.size / g.cask)) s (fun s i => s.putDesc i freeDesc)
  let s := (s.putMem g.base (zeros 0x1000)).putSuper s.epoch
  let s := (s.wr F.CELL_STATE_STATE 1).wr F.CELL_STATE_KEPT 0
  s.raise Ev.CELLAR_FORMATTED

/-- A descriptor of the chain that begins at cask `i` fails its CRC. -/
def Hub.chainBadCrc (s : Hub) (g : Geo) : Nat → Nat → Bool
  | 0, _ => false
  | n + 1, i =>
    match s.desc g i with
    | none => true
    | some d => d.next != noCask && d.kind != 0 && s.chainBadCrc g n d.next

/-- A descriptor of a vintage's chains fails its CRC (R191). -/
def Hub.descBad (s : Hub) (g : Geo) (manifest : Nat) : Bool :=
  s.chainBadCrc g g.pool (g.caskOf manifest) ||
  (match s.manifestOf g manifest with
   | some m => (List.range (Man.lanes m)).any (fun l => (Man.lane m l).1 != 0 && s.chainBadCrc g g.pool (g.caskOf (Man.lane m l).1))
   | none => false)

/-- The casks of every chain of a CLOSED vintage, none when a check of R178 fails. -/
def Hub.vintageCasks (s : Hub) (g : Geo) (manifest : Nat) : Option (List Nat × List Byte) :=
  match s.chain g g.pool (g.caskOf manifest), s.manifestOf g manifest with
  | some mc, some m =>
    (List.range (Man.lanes m)).foldl (fun (o : Option (List Nat × List Byte)) l =>
      let first := (Man.lane m l).1
      match o with
      | none => none
      | some (cs, m) =>
        if first == 0 then some (cs, m)
        else (s.chain g g.pool (g.caskOf first)).map (fun c => (cs ++ c.map Prod.fst, m))) (some (mc.map Prod.fst, m))
  | _, _ => none

/-- Metadata of a vintage of the own cellar fails its check on read: META_ERROR, and DESC_CRC where a descriptor's CRC fails (R190, R191). -/
def Hub.metaBad (s : Hub) (v : Vint) : Hub :=
  (if s.descBad s.geo v.manifest then s.err Er.CELL_DESC_CRC else s).raiseOf Ev.META_ERROR (v.number % 65536)

/-- A reference vintage's manifest or a chain of it fails its check where its cask map is loaded (R148, R190). -/
def Hub.refChecked (s : Hub) (ref : Nat) : Hub :=
  match if ref == 0 then none else s.findVintage ref with
  | some (_, v) => if (s.manifestOf s.geo v.manifest).isNone || s.descBad s.geo v.manifest then s.metaBad v else s
  | none => s

/-- Checks one index entry at start-up: kept, discarded, or discarded with META_ERROR. -/
def Hub.keepEntry (s : Hub) (e : Nat) : Hub :=
  let g := s.geo
  let b := s.mem (g.indexAt e) 64
  let number := leAt b 0 4
  let drop (s : Hub) : Hub := s.putMem (g.indexAt e) (zeros 64)
  let bad (s : Hub) : Hub := (drop s).raiseOf Ev.META_ERROR (number % 65536)
  if number == 0 then s
  else if crc32c (b.take 60) != leAt b 60 4 then bad (s.err Er.CELL_INDEX_CRC)
  else if leAt b 8 1 != 2 then drop s
  else
    match s.vintageCasks g (leAt b 16 8) with
    | none => bad (if s.descBad g (leAt b 16 8) then s.err Er.CELL_DESC_CRC else s)
    | some (casks, m) =>
      let v : Vint := { number := number, ref := leAt b 4 4, state := 2, flags := leAt b 9 1, seq := leAt b 12 4, manifest := leAt b 16 8,
                        closeGcn := leAt b 24 8, epoch := leAt b 32 4, casks := leAt b 36 4, pressed := leAt b 40 8, chain := casks,
                        hasSecure := Man.secure m }
      { s with cell := { s.cell with index := s.cell.index.set e v, usedCasks := casks.foldl (fun l c => insertNat c l) s.cell.usedCasks } }

/-- The number after a vintage number (R100). -/
def nextNumber (v : Nat) : Nat := if v == 0xFFFFFFFF then 1 else v + 1

/-- Keeps the cellar (R178). -/
def Hub.keepCellar (s : Hub) (g : Geo) : Hub :=
  let b := s.mem g.base 64
  let s := s.setGeo g
  let s := { s with cell := { s.cell with usedCasks := [], index := {}, nextSeq := leAt b 24 4 } }
  let s := doEach (List.range 1024) s Hub.keepEntry
  let used := s.cell.usedCasks
  let s := doEach ((List.range g.pool).filter (fun c => !used.contains c)) s (fun s c => s.putDesc c freeDesc)
  let top := maxNat (leAt b 32 4 :: s.cell.index.cells.map (fun p => p.2.number))
  let s := s.setReg R.HARV_NEXT_VINTAGE (nextNumber top)
  let s := (s.wr F.CELL_STATE_STATE 1).wr F.CELL_STATE_KEPT 1
  s.raiseOf Ev.CELLAR_KEPT s.cell.index.cells.length

/-- The superblock fails R178 at start-up: SUPER_BAD, and META_ERROR with unit 0 (R190, R191). -/
def Hub.superBad (s : Hub) : Hub := (s.err Er.CELL_SUPER_BAD).raiseOf Ev.META_ERROR 0

/-- The cellar at start-up (R178): kept, formatted, or UNFORMATTED when no base was supplied or the geometry is illegal. -/
def Hub.cellarStartup (s : Hub) (hasBase : Bool) : Hub :=
  let g := s.geoAsked
  if !hasBase then s.wr F.CELL_STATE_STATE 0
  else if !g.legal then (s.err Er.CELL_CONFIG).wr F.CELL_STATE_STATE 0
  else
    match s.superAt g.base s.hubAddr with
    | some k =>
      if s.flag F.CELL_CTRL_KEEP && k == g then s.keepCellar g
      else (if k == g then s else s.superBad).formatCellar g
    | none => s.superBad.formatCellar g

/-! ### CELL_CMD, R188 -/

/-- Writes CELL_CMD_STATUS. -/
def Hub.cellStatus (s : Hub) (op status : Nat) (done : Bool) : Hub :=
  ((s.wr F.CELL_CMD_STATUS_STATUS status).wr F.CELL_CMD_STATUS_OP op).wr F.CELL_CMD_STATUS_DONE (b2n done)

/-- The vintage holds a SECURE domain not covered by a grant. -/
def Hub.vintageDenied (s : Hub) (external : Bool) (v : Option (Nat × Vint)) : Bool :=
  match v with
  | some (_, v) => external && v.hasSecure.any (fun z => !s.covers Right.SECURE z)
  | none => false

/-- Cellar users by number, for the outstanding accesses of R484: lane `l` is `l`. -/
def Cu.META : Nat := 16
def Cu.HARV : Nat := 17
def Cu.DECANT : Nat := 18
def Cu.DIGEST : Nat := 19
def Cu.TRACE : Nat := 20
def Cu.RACK : Nat := 21
def Cu.TABLE : Nat := 22
/-- Region, snapshot and stream reads of a lane. -/
def Cu.READ (l : Nat) : Nat := 32 + l

/-- Outstanding accesses of a unit. -/
def Hub.outstanding (s : Hub) (unit : Nat) : Nat := findKey unit 0 s.cell.ops

/-- A unit issues accesses that the fabric will answer once (R484). (DESIGN CHOICE, log entry 89) -/
def Hub.issued (s : Hub) (unit : Nat) : Hub :=
  { s with cell := { s.cell with ops := putKey unit (s.outstanding unit + 1) s.cell.ops } }

/-- The cellar port channel that carries a lane's output (R18, R31). -/
def channelOf (lane : Nat) : Nat := lane / 2

/-- Accesses of lane output outstanding on a channel: those of its two lanes. -/
def Hub.onChannel (s : Hub) (n : Nat) : Nat := s.outstanding (2 * n) + s.outstanding (2 * n + 1)

/-- A lane's channel takes another access: at most 128 are outstanding on it (R484). -/
def Hub.channelFree (s : Hub) (l : Nat) : Bool := s.onChannel (channelOf l) < 128

/-- A metadata access on behalf of the harvest (0) or of a CELL_CMD (its OP): a fabric error fails that one (R180). -/
def Hub.issuedMeta (s : Hub) (who : Nat) : Hub :=
  let s := s.issued Cu.META
  { s with cell := { s.cell with metaWho := s.cell.metaWho ++ [who] } }

/-- One answer less is outstanding for a unit. -/
def Hub.answered (s : Hub) (unit : Nat) : Hub :=
  let n := s.outstanding unit
  { s with cell := { s.cell with ops := if n ≤ 1 then dropKey unit s.cell.ops else putKey unit (n - 1) s.cell.ops } }

/-- The cellar is in use by a harvest, a decant, a racking read, that of a remote lead's RACK_TRACE among them (it froze the ring), or trace
(row 4, R215). -/
def Hub.cellarInUse (s : Hub) : Bool :=
  s.harv.op != 0 || s.outstanding Cu.TRACE != 0 || s.flag F.TRACE_STATE_RUNNING || s.cell.index.cells.any (fun p => !p.2.rackHold.isEmpty) ||
  bitAt (s.rd F.TRACE_STATE_FROZEN) 1 ||
  (match s.rack.active with
   | some r => r.hub == s.hubAddr
   | none => false)

/-- The status of a CELL_CMD by the rows of R188. -/
def Hub.cellCheck (s : Hub) (external : Bool) (op : Nat) : Nat :=
  let v := s.findVintage (s.reg R.CELL_ARG_VINTAGE)
  let named := op == 1 || op == 2 || op == 3
  let number := s.reg R.CELL_ARG_VINTAGE
  if s.isSafe then St.FAULT
  else if named && s.vintageDenied external v then St.DENIED
  else if op == 0 || 5 < op || (named && (number == 0 || v.isNone)) || (op == 4 && !s.geoAsked.legal) then St.BAD_ARG
  else if op == 4 && s.cellarInUse then St.BUSY
  else
    match v with
    | some (_, v) =>
      if op == 3 && (v.pin || s.held v) then St.BUSY
      else if (op == 1 || op == 2) && v.state == 1 then St.BUSY
      else if op == 1 && !v.pin && !s.pinFits v.casks then St.LIMIT
      else St.OK
    | none => St.OK

/-- A write of CELL_CMD. -/
def Hub.cellCmd (s : Hub) (r : Req) (op : Nat) : Hub :=
  let st := s.cellCheck (isExternal r) op
  if st != St.OK then s.cellStatus op st true
  else if op == 4 then
    let s := { s with cell := { s.cell with formatAt := some s.time.hclk } }
    ((s.wr F.CELL_STATE_STATE 3).issuedMeta 4).cellStatus 4 St.OK false
  else if op == 5 then (s.wr F.CELL_EVICTED_COUNT 0).cellStatus 5 St.OK true
  else
    match s.findVintage (s.reg R.CELL_ARG_VINTAGE) with
    | some (e, v) =>
      let s := match op with
        | 1 => s.setPin e v true
        | 2 => s.setPin e v false
        | _ => s.deleteVintage e v
      (s.issuedMeta op).cellStatus op St.OK true
    | none => s

/-- The FORMAT finishes (R178, R192): the geometry registers take effect. -/
def Hub.formatDone (s : Hub) : Hub :=
  match s.cell.formatAt with
  | none => s
  | some _ =>
    let s := { s with cell := { s.cell with formatAt := none } }
    (s.formatCellar s.geoAsked).cellStatus 4 St.OK true

end Sys2Proof.Machine
end

