-- ==== Sys2Proof/Machine/Trace.lean ====
section
/-! DEFINITION. Trace (07_trace.md): the spurs' packets, the router's frames, the ring, freezing, triggers, and the TRACE and
TRACEF commands. -/

namespace Sys2Proof.Machine

/-! ### Who may be traced, R211 and R212 -/

/-- A tile's spur traces (R197): in a context of an enabled slot, inside TRACEF_RECT, visible. -/
def Hub.traces (s : Hub) (t : Nat) : Bool :=
  let x := s.tile t
  s.flag F.TRACE_STATE_RUNNING && !s.trace.stopping && x.st == .inContext && !x.isolated && s.rdB F.TRACEF_SLOT_EN x.slot == 1 &&
  (rectOf (s.reg R.TRACEF_RECT)).has t && s.visible x.slot

/-- The slot's spurs trace in lossless mode (R200): never those of a federated slot (R331). -/
def Hub.lossless (s : Hub) (slot : Nat) : Bool :=
  s.rdB F.TRACEF_SLOT_LOSSLESS slot == 1 && !(s.dom slot).losslessOff && s.rdB F.FED_JOB_FEDERATED slot == 0

/-! ### Packets, R201 and R202 -/

def Pk.SYNC : Nat := 1
def Pk.BRANCH : Nat := 2
def Pk.WATCH : Nat := 3
def Pk.TEVENT : Nat := 4
def Pk.OVERFLOW : Nat := 5
def Pk.POWER : Nat := 6
def Pk.TRIGGER : Nat := 7
def Pk.EVENT : Nat := 8

/-- A word. -/
def wd (n : Nat) : Word := BitVec.ofNat 32 n

/-- A packet: header and payload words. -/
def packet (type row dt : Nat) (payload : List Nat) : List Word :=
  wd (type + payload.length * 16 + row * 256 + dt * 65536) :: payload.map wd

/-- A 64-bit value as two words, low first. -/
def two (v : Nat) : List Nat := [v % 2 ^ 32, v / 2 ^ 32 % 2 ^ 32]

/-- The SYNC of a spur at a time-stamp (R202). -/
def Hub.syncPacket (s : Hub) (t ts reason : Nat) : List Word :=
  let x := s.tile t
  packet Pk.SYNC (rowOf t) 0 (two ts ++ two x.scn ++
    [x.slot + x.priv * 64 + reason * 256 + b2n x.scnValid * 4096 + b2n (s.flag F.TRACE_STATE_EFF_OPEN) * 8192 + x.tag * 65536, s.epoch])

/-- TRACE_SYNC_PERIOD, at least 65,536. -/
def Hub.syncPeriod (s : Hub) : Nat := let p := s.rd F.TRACE_SYNC_PERIOD_HCLK; if p < 65536 then 65536 else p

/-- The reason of the SYNC that must precede a packet with time-stamp `ts`, if one must (R204). A packet outside the chain has DT 0 (R203), so it needs
no GAP. -/
def Hub.syncReason (s : Hub) (x : Tile) (ts : Nat) (chained : Bool) : Option Nat :=
  match x.syncDue, x.chain with
  | some r, _ => some r
  | none, none => some 0
  | none, some last =>
    if chained && 65535 < ts - last then some 2
    else if s.elapsed x.lastSyncAt s.syncPeriod then some 1
    else none

/-- Counts a packet the spur discards (R199). -/
def Tile.lose (x : Tile) (ts : Nat) : Tile :=
  { x with lost := sat 24 (x.lost + 1), lostFirst := if x.lost == 0 then ts else x.lostFirst, lostLast := ts }

/-- The OVERFLOW packet that ends a spur's discarding, once 64 words are free (R199); a BRANCH packet still pending goes
before it (R197) and so is the last one discarded. A spur that does not trace emits none. -/
def Hub.endOverflow (s : Hub) (t : Nat) : Hub :=
  let x := s.tile t
  if x.lost != 0 && (s.traces t || s.trace.stopping) && x.traceWords + 64 ≤ 512 then
    let x := if x.branch.isEmpty then x else { x.lose x.branchGcn with branch := [] }
    s.setTile t { x with
      tbuf := x.tbuf ++ [packet Pk.OVERFLOW (rowOf t) 0 ([x.lost] ++ two x.lostFirst ++ two x.lostLast)]
      lost := 0, lostFirst := 0, lostLast := 0, chain := none, syncDue := some 3 }
  else s

/-- A spur emits a packet with time-stamp `ts` (R197, R199, R203, R204): a SYNC before it where one is due; `chained` says that it carries
a delta and continues the chain, else it closes the chain. A spur in lossless mode discards nothing (R200). -/
def Hub.emitPacket (s : Hub) (t ts type : Nat) (payload : List Nat) (chained : Bool) : Hub :=
  let s := s.endOverflow t
  let x := s.tile t
  let sync := s.syncReason x ts chained
  let head := match sync with
    | some r => [s.syncPacket t ts r]
    | none => []
  let dt := if sync.isSome || !chained then 0 else ts - x.chain.getD ts
  let p := packet type (rowOf t) dt payload
  if x.lost != 0 || (!s.lossless x.slot && 512 < x.traceWords + sumNat (head.map List.length) + p.length) then s.setTile t (x.lose ts)
  else
    s.setTile t { x with
      tbuf := x.tbuf ++ head ++ [p]
      syncDue := none
      lastSyncAt := if sync.isSome then s.time.hclk else x.lastSyncAt
      chain := if chained then some ts else none }

/-- Emits the pending BRANCH packet of a spur (R197); a spur that traces no more drops it (R197, R212, R215). -/
def Hub.flushBranch (s : Hub) (t : Nat) : Hub :=
  let x := s.tile t
  if x.branch.isEmpty then s
  else if !s.traces t then s.setTile t { x with branch := [] }
  else
    let w := (x.branch.zipIdx.foldl (fun a p => a + b2n p.1 * 2 ^ p.2) 0) + (x.branch.length - 1) * 2 ^ 27
    (s.setTile t { x with branch := [] }).emitPacket t x.branchGcn Pk.BRANCH [w] true

/-- A packet other than BRANCH: the pending BRANCH packet goes first. -/
def Hub.spurPacket (s : Hub) (t type : Nat) (payload : List Nat) (chained : Bool) : Hub :=
  (s.flushBranch t).emitPacket t s.now type payload chained

/-! ### Freezing and loss, R208 and R209 -/

/-- Freeze reason bits. -/
def Fz.TRIGGER : Nat := 0
def Fz.RACK : Nat := 1
def Fz.COMMAND : Nat := 2
def Fz.FULL : Nat := 3

/-- The ring is frozen. -/
def Hub.frozenRing (s : Hub) : Bool := s.rd F.TRACE_STATE_FROZEN != 0

/-- Sets a freeze reason. -/
def Hub.freeze (s : Hub) (bit : Nat) : Hub :=
  let was := s.rd F.TRACE_STATE_FROZEN
  let s := s.wr F.TRACE_STATE_FROZEN (was ||| 2 ^ bit)
  if was == 0 then s.raiseOf Ev.RING_FROZEN (2 ^ bit) else s

/-- Clears freeze reasons. -/
def Hub.unfreeze (s : Hub) (bits : List Nat) : Hub :=
  let was := s.rd F.TRACE_STATE_FROZEN
  let now := bits.foldl (fun v b => setBits v b 1 0) was
  let s := s.wr F.TRACE_STATE_FROZEN now
  if was != 0 && now == 0 then s.raise Ev.RING_UNFROZEN else s

def Hub.frameBuf (s : Hub) (i : Nat) : FrameBuf := s.trace.frames.get i {}
def Hub.setFrameBuf (s : Hub) (i : Nat) (f : FrameBuf) : Hub :=
  { s with trace := { s.trace with frames := s.trace.frames.set i f } }

/-- Counts lost packets of a cane, or of the hub where `cane` is 128, and raises TRACE_LOSS under its limit (R217, R219). -/
def Hub.traceLost (s : Hub) (cane n : Nat) : Hub :=
  if n == 0 then s
  else
    let f := s.frameBuf cane
    let s := s.setFrameBuf cane { f with lossCount := sat 32 (f.lossCount + n) }
    let s := s.bump64 R.TRACE_LOST_LO n
    let p := s.raiseLimited s.trace.lossAt Ev.TRACE_LOSS (if cane < 128 then some cane else none)
    { p.1 with trace := { p.1.trace with lossAt := p.2 } }

/-- Counts discarded packets of a cane (R209). -/
def Hub.traceDiscard (s : Hub) (cane n : Nat) : Hub :=
  let f := s.frameBuf cane
  (s.setFrameBuf cane { f with lossCount := sat 32 (f.lossCount + n) }).bump F.TRACE_DISCARDED_COUNT n

/-- The router drops a packet of a row: the row is noted until its SYNC, the loss is kept for the OVERFLOW packet (R207). -/
def FrameBuf.drop (f : FrameBuf) (row now : Nat) : FrameBuf :=
  { f with noted := insertNat row f.noted, lost := sat 24 (f.lost + 1), lostFirst := if f.lost == 0 then now else f.lostFirst, lostLast := now }

/-! ### The router, R205 to R207 -/

/-- TRACE_FLUSH_LIMIT, at least 64. -/
def Hub.flushLimit (s : Hub) : Nat := let p := s.rd F.TRACE_FLUSH_LIMIT_HCLK; if p < 64 then 64 else p

/-- The open frame waits to be written, when the other buffer is free. -/
def FrameBuf.close (f : FrameBuf) : FrameBuf :=
  if f.words.isEmpty || f.ready.isSome then f else { f with ready := some f.words, readyLoss := f.loss, words := [], loss := false }

/-- A packet joins the open frame; none when both buffers are full. -/
def FrameBuf.add (f : FrameBuf) (p : List Word) (now : Nat) : Option FrameBuf :=
  if f.words.length + p.length ≤ 15 then
    some { f with words := f.words ++ p, since := if f.words.isEmpty then now else f.since }
  else if f.ready.isNone then some { f.close with words := p, since := now }
  else none

/-- With a buffer free after a loss, the next frame begins with OVERFLOW and the noted rows are asked for a resync (R207). -/
def Hub.beginOverflow (s : Hub) (cane : Nat) : Hub :=
  let f := s.frameBuf cane
  if f.lost == 0 || s.frozenRing || (!f.words.isEmpty && f.ready.isSome) then s
  else
    let f := f.close
    let p := packet Pk.OVERFLOW 0 0 ([f.lost + 2 ^ 24] ++ two f.lostFirst ++ two f.lostLast)
    let s := s.setFrameBuf cane { f with words := p, since := s.time.hclk, loss := true, lost := 0, lostFirst := 0, lostLast := 0 }
    doEach f.noted s (fun s row =>
      let t := tileAt cane row
      s.setTile t { s.tile t with syncDue := some 3, chain := none })

/-- Any traced slot has LOSSLESS set (R207). -/
def Hub.anyLossless (s : Hub) : Bool := s.openSlots.any (fun z => s.rdB F.TRACEF_SLOT_EN z == 1 && s.rdB F.TRACEF_SLOT_LOSSLESS z == 1)

/-- TYPE of a packet. -/
def pktType (p : List Word) : Nat := bitsOf ((p.head?.getD 0).toNat) 0 4

/-- A packet's words have passed on the cane as CLASS 3, SOR on the header and EOR on the last word (R102, R198): both slots stay visible, and the
turn passes on (R27). -/
def Hub.traceSlot (s : Hub) (t : Nat) (p : List Word) : Hub :=
  let c := colOf t
  let q := s.caneFor c
  let s := s.setCane c { s.cane c with traceTurn := some t }
  s.setCane q { s.cane q with
    traceCol := c
    sor := caneSlot (p.headD 0).toNat (slotTag 3 (rowOf t) (q != c) true (p.length == 1) false 0)
    slot := caneSlot (p.getLast?.getD 0).toNat (slotTag 3 (rowOf t) (q != c) (p.length == 1) true false 0) }

/-- The oldest packet of a tile's trace buffer reaches the router (R206, R207, R209). A malformed one is dropped and counted as lost. -/
def Hub.tracePacketRx (s : Hub) (t : Nat) (malformed : Bool) : Hub :=
  let x := s.tile t
  let cane := colOf t
  if s.caneShut (s.caneFor cane) then s
  else
    match x.tbuf with
    | [] => s
    | p :: rest =>
      let row := rowOf t
      let pop (s : Hub) : Hub := ((s.setTile t { s.tile t with tbuf := rest }).traceSlot t p).endOverflow t
      if malformed then ((pop s).err Er.TRACE_PKT_FORMAT).traceLost cane 1
      else if s.frozenRing then
        let s := (pop s).traceDiscard cane 1
        s.setFrameBuf cane ((s.frameBuf cane).drop row s.now)
      else
        let s := s.beginOverflow cane
        let f := s.frameBuf cane
        if f.noted.contains row && pktType p != Pk.SYNC then
          let s := (pop s).traceLost cane 1
          s.setFrameBuf cane ((s.frameBuf cane).drop row s.now)
        else
          match f.add p s.time.hclk with
          | some f =>
            let s := (pop s).setFrameBuf cane { f with noted := removeNat row f.noted }
            if pktType p == Pk.OVERFLOW then s.traceLost cane (bitsOf ((p.getD 1 0).toNat) 0 24) else s
          | none =>
            if s.anyLossless then s
            else
              let s := (pop s).traceLost cane 1
              s.setFrameBuf cane ((s.frameBuf cane).drop row s.now)
/-- Packets in a frame's words. -/
def pktCount : Nat → List Word → Nat
  | 0, _ => 0
  | n + 1, ws =>
    match ws with
    | [] => 0
    | w :: rest => 1 + pktCount n (rest.drop (bitsOf w.toNat 4 4))

/-- Rows of the packets in a frame's words. -/
def pktRows : Nat → List Word → List Nat
  | 0, _ => []
  | n + 1, ws =>
    match ws with
    | [] => []
    | w :: rest => bitsOf w.toNat 8 7 :: pktRows n (rest.drop (bitsOf w.toNat 4 4))

/-- The packets of one of a column's two frame buffers are lost (R215, R218): counted, their rows noted; the next frame begins with OVERFLOW (R207).
-/
def Hub.loseFrame (s : Hub) (i : Nat) (open_ : Bool) : Hub :=
  let f := s.frameBuf i
  let ws := if open_ then f.words else f.ready.getD []
  let f := (pktRows 15 ws).foldl (fun f r => f.drop r s.now) f
  let s := s.setFrameBuf i (if open_ then { f with words := [], loss := false } else { f with ready := none, readyLoss := false })
  s.traceLost i (pktCount 15 ws)

/-- The packets of the hub's own frame buffers are lost from trace. -/
def Hub.loseHubFrames (s : Hub) : Hub :=
  let f := s.frameBuf 128
  let n := pktCount 15 f.words + pktCount 15 (f.ready.getD [])
  (s.setFrameBuf 128 { f with words := [], loss := false, ready := none, readyLoss := false }).traceLost 128 n

/-- Everything in the router's buffers is lost: the failed core held it (R215). Every cane resumes with OVERFLOW and a resync of its noted rows. -/
def Hub.loseRouter (s : Hub) : Hub :=
  doEach (s.trace.frames.keys.filter (fun i => i < 128)) s.loseHubFrames (fun s i =>
    ((s.loseFrame i true).loseFrame i false).beginOverflow i)

/-- An uncorrectable ECC error in a router buffer (R218): which of them it is is a free value. (DESIGN CHOICE, log entry 326) -/
def Hub.routerEcc (s : Hub) : Hub :=
  let s := s.err Er.TRACE_BUF_ECC
  let ks := s.trace.frames.keys
  if ks.isEmpty then s
  else
    let d := s.drawWord
    let i := nth ks (d.1.toNat / 2 % ks.length) 0
    if i == 128 then d.2.loseHubFrames else (d.2.loseFrame i (d.1.getLsbD 0)).beginOverflow i

/-- The 64 bytes of a frame (R205). -/
def frameBytes (i : Nat) (words : List Word) (loss : Bool) (seq : Nat) : List Byte :=
  let head := (if i == 128 then 128 else i) + words.length * 256 + b2n loss * 4096 + (seq % 65536) * 65536
  padTo 64 (le 4 head ++ words.flatMap (fun w => le 4 w.toNat))

/-- Ring length in bytes. -/
def Hub.ringLen (s : Hub) : Nat := s.geo.ringLen

/-- TRACE_WPTR. -/
def Hub.wptr (s : Hub) : Nat := s.reg64 R.TRACE_WPTR_LO

/-- The write of a frame at TRACE_WPTR would enter the guarded snapshot (R210). -/
def Hub.guarded (s : Hub) : Bool :=
  match s.trace.snapAt with
  | some p => s.ringLen != 0 && s.ringLen < (s.wptr + s.ringLen - p) % s.ringLen + 64 + s.trace.snapLeft
  | none => false

/-- A frame of the post-trigger window was written (R214). -/
def Hub.postFrame (s : Hub) : Hub :=
  match s.trace.postLeft with
  | some n =>
    let s := { s with trace := { s.trace with postLeft := if n ≤ 1 then none else some (n - 1) } }
    if n ≤ 1 then s.freeze Fz.TRIGGER else s
  | none => s

/-- The write pointer returns to 0 (R208). -/
def Hub.wrapRing (s : Hub) : Hub :=
  let s := (s.setReg64 R.TRACE_WPTR_LO 0).wr F.TRACE_STATE_WRAPPED 1
  if s.trace.everWrapped then s
  else ({ s with trace := { s.trace with everWrapped := true } }).raise Ev.RING_WRAPPED

/-- A closed frame is written to the ring (R208): TRACE_WPTR advances, wraps or freezes the ring. `err` is a fabric error: the frame is lost. (DEDUCED, log entry 110) -/
def Hub.frameWritten (s : Hub) (i : Nat) (err : Bool) : Hub :=
  let f := s.frameBuf i
  match f.ready with
  | none => s
  | some ws =>
    if s.frozenRing || s.ringLen == 0 then s
    else
      let f' := { f with ready := none, readyLoss := false }
      if s.guarded then
        let s := (s.setFrameBuf i f').traceDiscard i (pktCount 15 ws)
        s.setFrameBuf i ((pktRows 15 ws).foldl (fun f r => f.drop r s.now) (s.frameBuf i))
      else
        let s := if s.wptr < s.ringLen then s else s.wrapRing
        let at_ := s.wptr
        let s := s.setFrameBuf i { f' with seq := (f.seq + 1) % 65536 }
        let s := if err then (s.err Er.TRACE_RING_FABRIC).traceLost i (pktCount 15 ws)
          else (s.putMem (s.geo.ringAt + at_) (frameBytes i ws f.readyLoss f.seq)).bump64 R.TRACE_FRAMES_LO 1
        let s := s.issued Cu.TRACE
        let s := s.setReg64 R.TRACE_WPTR_LO (at_ + 64)
        let s := if at_ + 64 < s.ringLen then s else if s.trace.ringMode == 1 then s.freeze Fz.FULL else s.wrapRing
        s.postFrame

/-- A frame open for TRACE_FLUSH_LIMIT is closed (R206). -/
def Hub.flushFrames (s : Hub) : Hub :=
  { s with trace := { s.trace with frames := ⟨s.trace.frames.cells.map (fun (p : Nat × FrameBuf) =>
      if p.2.since + s.flushLimit ≤ s.time.hclk then (p.1, p.2.close) else p)⟩ } }

/-- Closes every open frame. -/
def Hub.closeFrames (s : Hub) : Hub :=
  { s with trace := { s.trace with frames := ⟨s.trace.frames.cells.map (fun (p : Nat × FrameBuf) => (p.1, p.2.close))⟩ } }

/-- Closes and writes every frame, as STOP and the end of a harvest's phase 0 do. -/
def Hub.writeFrames (s : Hub) : Hub :=
  doEach s.trace.frames.keys s (fun s i =>
    let s := s.frameWritten i false
    let s := s.setFrameBuf i (s.frameBuf i).close
    s.frameWritten i false)

/-- A packet of a hub frame; while the ring is frozen it is discarded and counted (R209). False when a full buffer loses it (R215). -/
def Hub.hubPacket (s : Hub) (p : List Word) : Bool × Hub :=
  if s.frozenRing then (true, s.bump F.TRACE_DISCARDED_COUNT 1)
  else
    match (s.frameBuf 128).add p s.time.hclk with
    | some f => (true, s.setFrameBuf 128 f)
    | none => (false, s)

/-! ### Triggers, R213 and R214 -/

/-- Issues the cork of CORK_TRIG_SCOPE (R96, R214). -/
def Hub.trigCork (s : Hub) : Hub :=
  let w := s.reg R.CORK_TRIG_SCOPE
  if s.flag F.CORK_TRIG_SCOPE_EN then
    let a := { scopeOf (w % 4096 + w / 65536 * 65536) with mode := 4, target := s.rd F.CORK_TRIG_DELAY_CYCLES }
    let first := minNat a.slot (s.scopeSlots a)
    ((s.corkIssue .trigger false 1 a 0 0).2).raiseOf Ev.TRIG_CORK first
  else s

/-- A trigger fires, or is counted when none is armed (R213). -/
def Hub.trigger (s : Hub) (source window : Nat) (tile : Option Nat) : Hub :=
  if !s.flag F.TRACE_STATE_ARMED then
    if s.flag F.TRACE_STATE_TRIGGERED then s.bump F.TRACE_TRIG_INFO_LATER 1 else s
  else
    let s := (s.wr F.TRACE_STATE_ARMED 0).wr F.TRACE_STATE_TRIGGERED 1
    let s := s.setReg R.TRACE_TRIG_INFO (source + window * 4 + tile.getD 0 * 16 + b2n tile.isSome * 2 ^ 18)
    let s := (s.setReg64 R.TRACE_TRIG_GCN_LO s.now).setReg64 R.TRACE_TRIG_WPTR_LO s.wptr
    let s := s.raise Ev.TRIGGERED tile
    let s := if s.flag F.TRACE_TRIG_CTRL_POST_FREEZE then
        let n := s.rd F.TRACE_POST_FRAMES_FRAMES
        if n == 0 then s.freeze Fz.TRIGGER else { s with trace := { s.trace with postLeft := some n } }
      else s
    s.trigCork

/-- The TRIGGER packet of a hub frame (R202). (DEDUCED, log entry 141) -/
def Hub.hubTrigger (s : Hub) (source : Nat) : Hub := (s.hubPacket (packet Pk.TRIGGER 0 0 ([source] ++ two s.now))).2

/-! ### TRACE_CMD, R216 -/

/-- Writes TRACE_CMD_STATUS; DONE stays 0 while a STOP is still flushing (R219). -/
def Hub.traceStatus (s : Hub) (op status : Nat) : Hub :=
  ((s.wr F.TRACE_CMD_STATUS_STATUS status).wr F.TRACE_CMD_STATUS_OP op).wr F.TRACE_CMD_STATUS_DONE (b2n (!s.trace.stopping))

/-- The status of a TRACE_CMD. -/
def Hub.traceCheck (s : Hub) (op : Nat) : Nat :=
  if s.isSafe then St.FAULT
  else if op == 1 && s.scrapped then St.DENIED
  else if op == 0 || 9 < op then St.BAD_ARG
  else if op == 1 && !s.timeOk then St.BUSY
  else if op == 1 && !s.cellReady then St.NO_SPACE
  else if op == 1 && s.ringLen == 0 then St.UNSUPPORTED
  else if op == 6 && (bitAt (s.rd F.TRACE_STATE_FROZEN) Fz.RACK || s.flag F.TRACE_STATE_SNAP_GUARD) then St.BUSY
  else St.OK

/-- CLEAR_RING (R216). -/
def Hub.clearRing (s : Hub) : Hub :=
  let s := (s.setReg64 R.TRACE_WPTR_LO 0).wr F.TRACE_STATE_WRAPPED 0
  let s := { s with trace := { s.trace with everWrapped := false } }
  (s.wr F.TRACE_STATE_RING_OPEN 0).unfreeze [Fz.FULL]

/-- START (R211, R212, R216). -/
def Hub.traceStart (s : Hub) : Hub :=
  if s.flag F.TRACE_STATE_RUNNING then s
  else
    let wants := s.rd F.TRACE_CTRL_MODE == 1
    let eff := wants && s.openAllowed
    let s := if eff != s.flag F.TRACE_STATE_RING_OPEN then s.clearRing else s
    let s := if s.trace.ringMode != s.rd F.TRACE_CTRL_RING_MODE then s.unfreeze [Fz.FULL] else s
    let s := { s with trace := { s.trace with ringMode := s.rd F.TRACE_CTRL_RING_MODE, lossAt := none } }
    let s := (s.wr F.TRACE_STATE_EFF_OPEN (b2n eff)).wr F.TRACE_STATE_OPEN_DENIED (b2n (wants && !eff))
    let s := if eff then s.wr F.TRACE_STATE_RING_OPEN 1 else s
    let s := s.wr F.TRACE_STATE_RUNNING 1
    let s := s.traceResync 0
    let s := if wants && !eff then s.raise Ev.OPEN_DENIED else s
    s.raise Ev.TRACE_STARTED

/-- Tiles with packets in their trace buffers. -/
def Hub.tracing (s : Hub) : List Nat := (s.tiles.cells.filter (fun p => !p.2.tbuf.isEmpty)).map Prod.fst

/-- STOP's flush of the spur buffers and the router's frames (R216): it ends, with TRACE_STOPPED, when no packet is left in a spur; until then the
command stays outstanding, and the cane carries the packets in its order (R27). (DESIGN CHOICE, log entry 327) -/
def Hub.traceFlush (s : Hub) : Hub :=
  if s.tracing.isEmpty then
    let s := { s with trace := { s.trace with stopping := false } }
    ((s.writeFrames.wr F.TRACE_STATE_RUNNING 0).wr F.TRACE_CMD_STATUS_DONE 1).raise Ev.TRACE_STOPPED
  else ({ s with trace := { s.trace with stopping := true } }).wr F.TRACE_CMD_STATUS_DONE 0

/-- STOP flushes the spurs and the frames (R216); the ladder stops trace the same way (R215). -/
def Hub.traceStop (s : Hub) : Hub :=
  if !s.flag F.TRACE_STATE_RUNNING || s.trace.stopping then s
  else
    let s := doEach ((s.tiles.cells.filter (fun p => !p.2.branch.isEmpty)).map Prod.fst) s Hub.flushBranch
    let s := doEach s.tracing s (fun s t => s.endOverflow t)
    s.traceFlush

/-- CLEAR_STATS of the TRACE page. -/
def Hub.traceClear (s : Hub) : Hub :=
  let s := ((s.setReg64 R.TRACE_FRAMES_LO 0).setReg64 R.TRACE_LOST_LO 0).setReg R.TRACE_DISCARDED 0
  { s with trace := { s.trace with
      evLoss := {}, frames := ⟨s.trace.frames.cells.map (fun (p : Nat × FrameBuf) => (p.1, { p.2 with lossCount := 0 }))⟩ } }

/-- A write of TRACE_CMD. -/
def Hub.traceCmd (s : Hub) (op : Nat) : Hub :=
  let st := s.traceCheck op
  let s := s.traceStatus op st
  if st != St.OK then s
  else
    match op with
    | 1 => s.traceStart
    | 2 => s.traceStop
    | 3 => s.freeze Fz.COMMAND
    | 4 => s.unfreeze [Fz.COMMAND, Fz.TRIGGER]
    | 5 => s.traceResync 7
    | 6 => s.clearRing
    | 7 => (s.wr F.TRACE_STATE_ARMED 1).wr F.TRACE_STATE_TRIGGERED 0
    | 8 => let armed := s.flag F.TRACE_STATE_ARMED
           let s := s.hubTrigger 3
           if armed then s.trigger 3 0 none else s
    | _ => s.traceClear

/-! ### What a spur observes, R195 and R196 -/

/-- What the tile's taps show on one executed TCLK edge (R491): the branch outcome, the accesses by kind (LOAD, STORE, DELIVERY, FETCH), the tile
event, the beat, the eight numeric strobes. -/
def Hub.windowHit (s : Hub) (slot w kind addr : Nat) : Bool :=
  let base := s.rdB F.TRACEF_WIN_ADDR_BASE w
  let mask := s.rdB F.TRACEF_WIN_ADDR_MASK w
  s.rdB F.TRACEF_WIN_CTRL_EN w == 1 && bitAt (s.rdB F.TRACEF_WIN_CTRL_KINDS w) kind && (addr &&& mask) == (base &&& mask) &&
  (s.rdB F.TRACEF_WIN_CTRL_SLOT_ANY w == 1 || s.rdB F.TRACEF_WIN_CTRL_SLOT w == slot)

/-- The windows that match an access. -/
def Hub.hits (s : Hub) (slot : Nat) (a : Nat × Nat) : List Nat := [0, 1, 2, 3].filter (fun w => s.windowHit slot w a.1 a.2)

/-- A code passes a filter register laid out as TRACEF_TEV. -/
def passes (reg code : Nat) : Bool := (code &&& (reg / 65536)) == (reg % 65536 &&& (reg / 65536))

/-- A spur trigger reaches the hub (R213): its TRIGGER packet is already in the spur's stream; one that no spur sent is none. -/
def Hub.spurTrigger (s : Hub) (t source window : Nat) : Hub :=
  let x := s.tile t
  if x.trigs.contains (source, window) then (s.setTile t { x with trigs := x.trigs.erase (source, window) }).trigger source window (some t)
  else s

/-- A spur's TRIGGER packet enters its stream and its trigger starts for the hub on the trellis (R213). -/
def Hub.spurFires (s : Hub) (t source window : Nat) : Hub :=
  let s := s.spurPacket t Pk.TRIGGER ([source + 4 * window] ++ two s.now) true
  s.setTile t { s.tile t with trigs := (s.tile t).trigs ++ [(source, window)] }

/-- The spur's trace unit on one executed edge (R195 to R197). `acc` lists the accesses as (kind, address), at most one of a kind; they are
taken in the order LOAD, STORE, DELIVERY, FETCH; `ev` is the tile event. -/
def Hub.spurEdge (s : Hub) (t : Nat) (br : Option Bool) (acc : List (Nat × Nat)) (ev : Option (Nat × Nat)) : Hub :=
  if !s.traces t then s.flushBranch t
  else
    let slot := (s.tile t).slot
    let acc := [0, 1, 2, 3].filterMap (fun k => acc.find? (fun a => a.1 == k))
    let s := match br with
      | some b =>
        if s.rdB F.TRACEF_SLOT_BRANCH slot == 1 then
          let x := s.tile t
          let s := s.setTile t { x with branch := x.branch ++ [b], branchGcn := s.now }
          if x.branch.length == 26 then s.flushBranch t else s
        else s
      | none => s
    let matched := acc.filter (fun a => !(s.hits slot a).isEmpty)
    let s := match matched with
      | [] => s
      | a :: others =>
        let ws := s.hits slot a
        let s := if s.rdB F.TRACEF_SLOT_WATCH slot == 1 &&
              (matched.flatMap (s.hits slot)).any (fun w => s.rdB F.TRACEF_WIN_CTRL_PACKET w == 1) then
            s.spurPacket t Pk.WATCH [a.2 % 65536 + a.1 * 65536 + listMask ws * 2 ^ 18 + b2n (!others.isEmpty) * 2 ^ 22] true
          else s
        match (matched.flatMap (s.hits slot)).find? (fun w => s.rdB F.TRACEF_WIN_CTRL_TRIGGER w == 1) with
        | some w =>
          if s.flag F.TRACE_TRIG_CTRL_WIN_EN then s.spurFires t 0 w else s
        | none => s
    match ev with
    | some (code, arg) =>
      let s := if s.rdB F.TRACEF_SLOT_TEVENT slot == 1 && passes (s.reg R.TRACEF_TEV) code then
          s.spurPacket t Pk.TEVENT [code % 65536 + arg % 65536 * 65536] true
        else s
      if s.flag F.TRACE_TRIG_CTRL_TEV_EN && passes (s.reg R.TRACEF_TEV_TRIG) code then
        s.spurFires t 1 0
      else s
    | none => s

/-- Low-power entry (R195): the pending BRANCH, then POWER; deltas never cross the gap. -/
def Hub.lowPowerEntry (s : Hub) (t state : Nat) : Hub :=
  let s := if s.traces t then s.spurPacket t Pk.POWER ([state % 16] ++ two s.now) false else s
  s.setTile t { s.tile t with lowPower := state % 16, syncDue := some 4, chain := none }

/-- Low-power exit: the spur emits a SYNC with reason POWER, or OVERFLOW where its discarding has just ended (R199, R204). -/
def Hub.lowPowerExit (s : Hub) (t : Nat) : Hub :=
  let s := s.setTile t { s.tile t with lowPower := 0 }
  if !s.traces t then s
  else
    let s := s.endOverflow t
    let x := s.tile t
    let p := s.syncPacket t s.now (if x.syncDue == some 3 then 3 else 4)
    if x.lost != 0 || (!s.lossless x.slot && 512 < x.traceWords + p.length) then s.setTile t (x.lose s.now)
    else s.setTile t { x with tbuf := x.tbuf ++ [p], syncDue := none, chain := some s.now, lastSyncAt := s.time.hclk }

/-- TRACE_SYNC_PERIOD has passed since a spur's last SYNC (R204). -/
def Hub.syncPeriodDue (s : Hub) (t : Nat) : Hub :=
  let x := s.tile t
  if s.elapsed x.lastSyncAt s.syncPeriod && x.syncDue.isNone then s.setTile t { x with syncDue := some 1 } else s

/-! ### TRACEF, R220 and R221 -/

/-- A filter write goes to every spur (R70, R221): PENDING until every spur has acknowledged. -/
def Hub.broadcastFilter (s : Hub) : Hub :=
  ({ s with trace := { s.trace with bcastAt := some s.time.hclk } }).wr F.TRACEF_BCAST_PENDING 1

/-- A write of a TRACEF filter register. -/
def Hub.tracefWrite (s : Hub) (r : Req) (addr v : Nat) : Hub :=
  if addr == R.TRACEF_SLOT then
    let z := s.rd F.TRACEF_SLOT_SEL_SLOT
    let s := (s.setRegB addr z (v % 32)).setDom z { s.dom z with losslessOff := false }
    s.broadcastFilter
  else if addr == R.TRACEF_RECT then
    if (rectOf v).bad then (s.err Er.TRACEF_ARG_RANGE).errAt r addr else (s.setReg addr (v &&& 0x7F7F7F7F)).broadcastFilter
  else if addr == R.TRACEF_WIN_CTRL then (s.setRegB addr (s.rd F.TRACEF_WIN_SEL_WIN) (v % 2 ^ 14)).broadcastFilter
  else if addr == R.TRACEF_WIN_ADDR then (s.setRegB addr (s.rd F.TRACEF_WIN_SEL_WIN) v).broadcastFilter
  else if addr == R.TRACEF_EVCLASS then s.setReg addr (v &&& 0x7FFE)
  else (s.setReg addr v).broadcastFilter

/-- The acknowledgements of a filter write (R220, R221): with every spur's, 48 HCLK after it at the soonest (24 down, 24 up, R16), PENDING clears; when
a spur's is `missing` 256 HCLK after it, BCAST_FAIL is set. (DEDUCED, log entry 328) -/
def Hub.bcastTimeout (s : Hub) (missing : Bool) : Hub :=
  match s.trace.bcastAt with
  | some t =>
    if !s.elapsed t (if missing then 256 else 48) then s
    else
      let s := ({ s with trace := { s.trace with bcastAt := none } }).wr F.TRACEF_BCAST_PENDING 0
      if missing then s.err Er.TRACEF_BCAST_FAIL else s
  | none => s

end Sys2Proof.Machine
end

