-- ==== Sys2Proof/Machine/Rack.lean ====
section
/-! DEFINITION. Racking (06_cellar_racking.md, R182 to R189): the request queue, the holds, and sending objects segment by segment. -/

namespace Sys2Proof.Machine

/-- LINK_STATE.STATE codes (R371). -/
def Lk.DISABLED : Nat := 0
def Lk.DOWN : Nat := 1
def Lk.PMA_WAIT : Nat := 2
def Lk.FEC_LOCK : Nat := 3
def Lk.INIT : Nat := 4
def Lk.UP : Nat := 5

/-- The rack link is UP. -/
def Hub.linkUp (s : Hub) : Bool := s.rd F.LINK_STATE_STATE == Lk.UP

/-- A field is served by this lead (R182). -/
def Hub.serves (s : Hub) (hub : Nat) : Bool :=
  packageOf hub == packageOf s.hubAddr &&
  (hub == s.hubAddr || bitAt (s.reg (R.RACK_SERVE_0 + 4 * (fieldOf hub / 32))) (fieldOf hub % 32))

/-- Object selection bits of RACK_ARG_OBJ. -/
def Obj.manifest (o : Nat) : Bool := bitAt o 0
def Obj.streams (o : Nat) : Bool := bitAt o 1
def Obj.lanes (o : Nat) : Nat := bitsOf o 2 16
/-- No object is selected (R189). -/
def Obj.none (o : Nat) : Bool := !(Obj.manifest o || (Obj.streams o && Obj.lanes o != 0))
/-- MANIFEST and every lane. -/
def Obj.full : Nat := 0x3FFFF

/-- Arguments of a racking command (R194). -/
structure RackArgs where
  hub : Nat
  vintage : Nat
  obj : Nat
deriving DecidableEq, Repr

/-- The arguments of the RACK page. -/
def Hub.rackRegArgs (s : Hub) : RackArgs :=
  { hub := s.rd F.RACK_ARG_HUB_HUB, vintage := s.reg R.RACK_ARG_VINTAGE, obj := s.reg R.RACK_ARG_OBJ }

/-- The request is known: queued or active. (DEDUCED, log entry 111) -/
def Hub.rackKnown (s : Hub) (id : Nat) : Bool := s.rack.queue.any (·.id == id) || (match s.rack.active with | some r => r.id == id | none => false)

/-- The status of a racking command by the rows of R189. What they say of a vintage in another hub's cellar the lead must first look up there
(`Hub.rackLookup`); one such command at a time, another ends with BUSY (DESIGN CHOICE, log entry 319). -/
def Hub.rackCheck (s : Hub) (external : Bool) (op : Nat) (a : RackArgs) : Nat :=
  let own := a.hub == s.hubAddr
  let v := s.findVintage a.vintage
  if s.isSafe then St.FAULT
  else if !s.isLead || s.rd F.LINK_STATE_STATE == Lk.DISABLED then St.UNSUPPORTED
  else if op == 1 && own && s.vintageDenied external v then St.DENIED
  else if op == 0 || 4 < op || ((op == 1 || op == 2) && !s.serves a.hub) ||
      (op == 1 && (a.vintage == 0 || (own && (v.isNone || Obj.none a.obj)))) ||
      (op == 3 && !s.rackKnown (bitsOf a.obj 24 8)) then St.BAD_ARG
  else if ((op == 1 && own) || op == 2) && 32 ≤ s.rack.queue.length then St.LIMIT
  else if op == 1 && !own && s.rack.ask.isSome then St.BUSY
  else St.OK

/-- Queues a request under the next ID. -/
def Hub.rackQueue (s : Hub) (r : RackReq) : Hub :=
  { s with rack := { s.rack with queue := s.rack.queue ++ [{ r with id := s.rack.nextId }], nextId := (s.rack.nextId + 1) % 255, used := true } }

/-! ### Holds, R174 and R186 -/

/-- Sets or drops a lead's racking hold of a vintage of the own cellar. The holds of the two leads are independent (R182). -/
def Hub.setRackHold (s : Hub) (v lead : Nat) (hold : Option Nat) : Hub :=
  match s.findVintage v with
  | some (e, x) =>
    { s with cell := { s.cell with index := s.cell.index.set e { x with
      rackHold := match hold with
        | some t => putKey lead t x.rackHold
        | none => dropKey lead x.rackHold } } }
  | none => s

/-- R177 for a vintage racked in full. -/
def Hub.rackedFully (s : Hub) (v : Nat) : Hub :=
  match s.findVintage v with
  | none => s
  | some (e, x) =>
    let pin := x.pin && !s.flag F.CELL_CTRL_UNPIN_AFTER_RACK
    let x := { x with flags := setBits (setBits x.flags 2 1 1) 0 1 (b2n pin) }
    let s := s.putVintage e x
    if s.flag F.CELL_CTRL_FREE_AFTER_RACK && !pin && !s.held x then s.deleteVintage e x else s

/-- The ring is no longer frozen for racking when no RACK_TRACE, of this lead or another, reads it. -/
def Hub.ringFree (s : Hub) : Hub :=
  let own := match s.rack.active with
    | some r => r.trace && r.hub == s.hubAddr
    | none => false
  if s.cell.ringHolds.isEmpty && !own then s.unfreeze [Fz.RACK] else s

/-- A racking hold unrenewed for 10 ms is dropped (R186). -/
def Hub.holdLapse (s : Hub) : Hub :=
  let live := s.cell.ringHolds.filter (fun h => !s.elapsed h.2 (10 * Config.millisecond))
  let s := if live == s.cell.ringHolds then s else ({ s with cell := { s.cell with ringHolds := live } }).ringFree
  { s with cell := { s.cell with index := ⟨s.cell.index.cells.map (fun (p : Nat × Vint) =>
      if p.2.rackHold.isEmpty then p
      else (p.1, { p.2 with rackHold := p.2.rackHold.filter (fun h => !s.elapsed h.2 (10 * Config.millisecond)) }))⟩ } }

/-- A lead drops its hold. Whether it sent the vintage in full, HOLD does not say (R333): where it did, R177 applies to the vintage here. A free
value (DESIGN CHOICE, log entry 320). -/
def Hub.holdDropped (s : Hub) (v src : Nat) : Hub :=
  let s := s.setRackHold v src none
  if bitAt s.drawWord.1.toNat 0 then s.drawWord.2.rackedFully v else s.drawWord.2

/-- A HOLD of vintage 0 stands for the trace ring: a lead's RACK_TRACE freezes it with reason RACK, and its end clears only RACK (R183, R209). No
opcode of R333 is given for it (DESIGN CHOICE, log entry 335). -/
def Hub.ringHold (s : Hub) (src txn kind : Nat) : Hub :=
  let keep (s : Hub) (l : List (Nat × Nat)) : Hub := { s with cell := { s.cell with ringHolds := l } }
  let mine := s.cell.ringHolds.any (fun h => h.1 == src)
  match kind with
  | 0 => ((keep s (putKey src s.time.hclk s.cell.ringHolds)).freeze Fz.RACK).answer src Op.HOLD txn St.OK []
  | 1 => if mine then (keep s (putKey src s.time.hclk s.cell.ringHolds)).answer src Op.HOLD txn St.OK []
         else s.answer src Op.HOLD txn St.NOT_STOPPED []
  | 2 => (keep s (dropKey src s.cell.ringHolds)).ringFree.answer src Op.HOLD txn St.OK []
  | _ => s.answer src Op.HOLD txn St.BAD_ARG []

/-- A HOLD command at the hub whose cellar holds the vintage (R186, R333): 0 acquire, 1 renew, 2 drop; FAULT in SAFE (R30). An OPEN vintage is
not held. -/
def Hub.holdRx (s : Hub) (src txn v kind : Nat) : Hub :=
  if s.isSafe then s.answer src Op.HOLD txn St.FAULT []
  else if v == 0 then s.ringHold src txn kind
  else
    match s.findVintage v with
    | none => s.answer src Op.HOLD txn St.BAD_ARG []
    | some (_, x) =>
      let mine := x.rackHold.any (fun h => h.1 == src)
      match kind with
      | 0 => if x.state == 2 then (s.setRackHold v src (some s.time.hclk)).answer src Op.HOLD txn St.OK []
             else s.answer src Op.HOLD txn St.BUSY []
      | 1 => if mine then (s.setRackHold v src (some s.time.hclk)).answer src Op.HOLD txn St.OK []
             else s.answer src Op.HOLD txn St.NOT_STOPPED []
      | 2 => (if mine then s.holdDropped v src else s).answer src Op.HOLD txn St.OK []
      | _ => s.answer src Op.HOLD txn St.BAD_ARG []

/-! ### A request's end -/

/-- The active request gives up what it holds: the hold of its vintage, or the ring it froze. -/
def Hub.rackRelease (s : Hub) (r : RackReq) : Hub :=
  if r.trace then
    if r.hub == s.hubAddr then (if s.cell.ringHolds.isEmpty then s.unfreeze [Fz.RACK] else s)
    else s.sendRequest r.hub Op.HOLD (le 4 0 ++ le 1 2) .none 0
  else if r.hub == s.hubAddr then s.setRackHold r.vintage s.hubAddr none
  else s.sendRequest r.hub Op.HOLD (le 4 r.vintage ++ le 1 2) .none 0

/-- The engine is idle again. -/
def Hub.rackIdle (s : Hub) : Hub :=
  { s with rack := { s.rack with active := none, step := 0, got := [], left := [], pos := 0, suspended := false } }

/-- The active request fails (R186): the hold is dropped, RACK_FAILED is raised. -/
def Hub.rackAbort (s : Hub) (status : Nat) : Hub :=
  match s.rack.active with
  | some r => (((s.rackRelease r).rackIdle).rackFail r status).answered Cu.RACK
  | none => s

/-! ### RACK_CMD -/

/-- Writes RACK_STATUS. -/
def Hub.rackStatus (s : Hub) (op status : Nat) : Hub :=
  ((s.wr F.RACK_STATUS_STATUS status).wr F.RACK_STATUS_OP op).wr F.RACK_STATUS_DONE 1

/-- A vintage of the own cellar is a crash vintage. -/
def Hub.isCrashVintage (s : Hub) (a : RackArgs) : Bool :=
  a.hub == s.hubAddr && (match s.findVintage a.vintage with | some (_, v) => v.isCrash | none => false)

/-- Marks the REG_READ answers that belong to a lookup. -/
def askArg (a : Nat) : Nat := a + 0x100000

/-- Queues an accepted request and shows its ID. -/
def Hub.rackAccept (s : Hub) (r : RackReq) : Hub := (s.wr F.RACK_STATUS_REQ_ID s.rack.nextId).rackQueue r

/-- Asks the hub of a vintage for its CELL_BASE, to look the vintage up in its cellar (R186, R189). -/
def Hub.rackLookup (s : Hub) (q : RackAsk) : Hub :=
  let s := { s with rack := { s.rack with ask := some q } }
  (s.sendRequest q.req.hub Op.REG_READ (le 4 R.CELL_BASE_LO) .unit (askArg R.CELL_BASE_LO)).wr F.RACK_STATUS_DONE 0

/-- A racking command of any path: its status, none while a vintage is looked up at its hub. -/
def Hub.rackIssue (s : Hub) (external : Bool) (coop : Option (Nat × Nat × Nat)) (op : Nat) (a : RackArgs) : Option Nat × Hub :=
  let st := s.rackCheck external op a
  if st != St.OK then (some st, s)
  else
    match op with
    | 1 =>
      let r : RackReq := { hub := a.hub, vintage := a.vintage, objs := a.obj % 0x40000, crash := s.isCrashVintage a }
      if a.hub == s.hubAddr then (some st, s.rackAccept r)
      else (none, s.rackLookup { req := r, external := external, coop := coop })
    | 2 => (some st, (s.wr F.RACK_STATUS_REQ_ID s.rack.nextId).rackQueue { hub := a.hub, trace := true })
    | 3 =>
      let id := bitsOf a.obj 24 8
      let s := if (match s.rack.active with | some r => r.id == id | none => false) then
          match s.rack.active with
          | some r => ({ s.rackRelease r with link := { s.link with bulkQ := [] } }).rackIdle
          | none => s
        else { s with rack := { s.rack with queue := s.rack.queue.filter (fun r => r.id != id) } }
      (some st, s.raiseOf Ev.RACK_CANCELLED id)
    | _ => (some st, s.setReg64 R.RACK_SENT_LO 0)

/-- A write of RACK_CMD. -/
def Hub.rackCmd (s : Hub) (r : Req) (op : Nat) : Hub :=
  let res := s.rackIssue (isExternal r) none op s.rackRegArgs
  match res.1 with
  | some st => res.2.rackStatus op st
  | none => ((res.2.rackStatus op St.OK).wr F.RACK_STATUS_DONE 0)

/-- A CLOSED command, or the own close, at a lead (R185): requests that waited for it may start (R183). -/
def Hub.closedRx (s : Hub) (hub vintage flags : Nat) : Hub :=
  let s := { s with rack := { s.rack with queue := s.rack.queue.map (fun r =>
    if r.hub == hub && r.vintage == vintage && !r.trace then { r with waits := false, crash := bitAt flags 6 } else r) } }
  if !s.isLead || !s.flag F.RACK_CTRL_AUTO_CRASH || !s.serves hub || !bitAt flags 6 then s
  else if 32 ≤ s.rack.queue.length then s.rackFail { id := 0xFF, hub := hub } St.LIMIT
  else s.rackQueue { hub := hub, vintage := vintage, objs := Obj.full, crash := true }

/-! ### Starting a request -/

/-- A queued request may start: its vintage is not OPEN, of a remote one as far as the lead knows. -/
def Hub.rackReady (s : Hub) (r : RackReq) : Bool :=
  r.trace || (r.hub != s.hubAddr && !r.waits) || (r.hub == s.hubAddr && match s.findVintage r.vintage with | some (_, v) => v.state != 1 | none => true)

/-- The request R183 chooses: the oldest of a crash vintage, else the oldest. -/
def Hub.rackChoice (s : Hub) : Option RackReq :=
  let q := s.rack.queue.filter s.rackReady
  match q.find? (fun r => r.crash || (!r.trace && s.isCrashVintage ⟨r.hub, r.vintage, 0⟩)) with
  | some r => some r
  | none => q.head?

/-- Registers of a remote hub the lead reads first (R186; for RACK_TRACE the ring's state beside). -/
def rackRegs (trace : Bool) : List Nat :=
  if trace then [R.CELL_BASE_LO, R.CELL_BASE_HI, R.TRACE_WPTR_LO, R.TRACE_WPTR_HI, R.TRACE_STATE] else [R.CELL_BASE_LO, R.CELL_BASE_HI]

/-- Asks a remote hub for the next register it must tell. (DESIGN CHOICE, log entry 112) -/
def Hub.rackAsk (s : Hub) (r : RackReq) : Hub :=
  match (rackRegs r.trace).find? (fun a => !s.rack.got.any (fun g => g.1 == a)) with
  | some a => s.sendRequest r.hub Op.REG_READ (le 4 a) .unit a
  | none => ({ s with rack := { s.rack with step := 3 } }).issued Cu.RACK

/-- The idle engine of a lead with an enabled rack port (R182) takes its next request (R183): the hold, RACK_STARTED. -/
def Hub.rackStart (s : Hub) : Hub :=
  if s.rack.active.isSome || !s.isLead || s.rd F.LINK_STATE_STATE == Lk.DISABLED then s
  else
    match s.rackChoice with
    | none => s
    | some r =>
      let s := { s with rack := { s.rack with
        active := some r, queue := s.rack.queue.filter (fun q => q.id != r.id), renewAt := s.time.hclk, got := [], left := [], pos := 0,
        doneObj := 0, donePos := 0, suspended := false } }
      let s := s.raiseOf Ev.RACK_STARTED r.id
      if r.hub == s.hubAddr then
        let s := if r.trace then s.freeze Fz.RACK else s.setRackHold r.vintage s.hubAddr (some s.time.hclk)
        ({ s with rack := { s.rack with step := 3 } }).issued Cu.RACK
      else if r.trace then
        let s := s.sendRequest r.hub Op.HOLD (le 4 0 ++ le 1 0) .none 0
        ({ s with rack := { s.rack with step := 2 } }).rackAsk r
      else
        let s := { s with rack := { s.rack with step := 1 } }
        s.sendRequest r.hub Op.HOLD (le 4 r.vintage ++ le 1 0) .unit r.vintage

/-- The answer of a remote hub to the engine's HOLD or REG_READ (R186): a vintage still OPEN leaves its request in the queue until it closes
(R183); one that is gone ends it with NO_SPACE (R176). -/
def Hub.rackAnswer (s : Hub) (opcode status arg data : Nat) : Hub :=
  match s.rack.active with
  | none => s
  | some r =>
    if opcode == Op.HOLD then
      if s.rack.step == 1 && status == St.BUSY then
        let s := (s.err Er.RACK_HOLD_LOST).rackIdle
        { s with rack := { s.rack with queue := { r with waits := true } :: s.rack.queue } }
      else if s.rack.step == 1 && status == St.BAD_ARG then (s.err Er.RACK_HOLD_LOST).rackAbort St.NO_SPACE
      else if status != St.OK then (s.err Er.RACK_HOLD_LOST).rackAbort St.FAULT
      else if s.rack.step == 1 then ({ s with rack := { s.rack with step := 2 } }).rackAsk r
      else s
    else if s.rack.step != 2 then s
    else if status != St.OK then s.rackAbort St.FAULT
    else ({ s with rack := { s.rack with got := s.rack.got ++ [(arg, data)] } }).rackAsk r

/-! ### Objects, R183 and R184 -/

/-- A register read from the remote hub. -/
def Hub.rackGot (s : Hub) (a : Nat) : Nat := findKey a 0 s.rack.got

/-- The geometry of the cellar a request reads. -/
def Hub.rackGeo (s : Hub) (r : RackReq) : Option Geo :=
  if r.hub == s.hubAddr then some s.geo
  else s.superAt ((s.rackGot R.CELL_BASE_LO + s.rackGot R.CELL_BASE_HI * 0x100000000) / 0x200000 * 0x200000) r.hub

/-- The index entry of a vintage in memory, its CRC good. -/
def Hub.indexEntry (s : Hub) (g : Geo) (v : Nat) : Option (List Byte) :=
  match (List.range 1024).find? (fun e => leAt (s.mem (g.indexAt e) 4) 0 4 == v) with
  | some e =>
    let b := s.mem (g.indexAt e) 64
    if crc32c (b.take 60) == leAt b 60 4 then some b else none
  | none => none

/-- The manifest address of a closed vintage, from the index in memory. -/
def Hub.indexManifest (s : Hub) (g : Geo) (v : Nat) : Option Nat :=
  match s.indexEntry g v with
  | some b => if leAt b 8 1 == 2 then some (leAt b 16 8) else none
  | none => none

/-- A lookup has CELL_BASE: the vintage is absent at H (BAD_ARG), SECURE and not covered (DENIED), or accepted with what its index entry says of it
(R189); a superblock that fails its check ends with FAULT (R193). (DEDUCED, log entry 349) -/
def Hub.rackLooked (s : Hub) (q : RackAsk) (base : Nat) : Nat × RackReq × Hub :=
  match s.superAt (base / 0x200000 * 0x200000) q.req.hub with
  | none => (St.FAULT, q.req, s.err Er.RACK_REMOTE_META)
  | some g =>
    match s.indexEntry g q.req.vintage with
    | none => (St.BAD_ARG, q.req, s)
    | some b =>
      let secure := match s.manifestOf g (leAt b 16 8) with
        | some m => if leAt b 8 1 == 2 then Man.secure m else []
        | none => []
      let st := if s.vintageDenied q.external (some (0, { hasSecure := secure })) then St.DENIED
        else if Obj.none q.req.objs then St.BAD_ARG
        else if 32 ≤ s.rack.queue.length then St.LIMIT else St.OK
      (st, { q.req with waits := leAt b 8 1 == 1, crash := bitAt (leAt b 9 1) 1 }, s)

/-- The manifest address of a request's vintage. -/
def Hub.rackManifest (s : Hub) (g : Geo) (r : RackReq) : Option Nat :=
  if r.hub == s.hubAddr then (s.findVintage r.vintage).map (fun p => p.2.manifest) else s.indexManifest g r.vintage

/-- The ring's content, oldest byte first. -/
def Hub.ringContent (s : Hub) (g : Geo) (wptr : Nat) (wrapped : Bool) : List Byte :=
  (if wrapped then s.mem (g.ringAt + wptr) (g.ringLen - wptr) else []) ++ s.mem g.ringAt wptr

/-- The bytes of an object, none when a descriptor fails its check. -/
def Hub.rackObject (s : Hub) (r : RackReq) (obj : Nat) : Option (List Byte) :=
  match s.rackGeo r with
  | none => none
  | some g =>
    if obj == 17 then
      if r.hub == s.hubAddr then some (s.ringContent g s.wptr (s.flag F.TRACE_STATE_WRAPPED))
      else some (s.ringContent g (s.rackGot R.TRACE_WPTR_LO + s.rackGot R.TRACE_WPTR_HI * 0x100000000)
        (bitAt (s.rackGot R.TRACE_STATE) F.TRACE_STATE_WRAPPED.lo))
    else
      match s.rackManifest g r with
      | none => none
      | some a =>
        if obj == 0 then s.readChain g a
        else
          match s.manifestOf g a with
          | some m => s.readChain g (Man.lane m (obj - 1)).1
          | none => none

/-- The objects a request sends, in order; none when the metadata cannot be read. -/
def Hub.rackObjects (s : Hub) (r : RackReq) : Option (List Nat) :=
  match s.rackGeo r with
  | none => none
  | some g =>
    if r.trace then some [17]
    else
      match s.rackManifest g r with
      | none => none
      | some a =>
        match s.manifestOf g a with
        | none => none
        | some m =>
          let lanes := (List.range (Man.lanes m)).filter (fun l =>
            Obj.streams r.objs && bitAt (Obj.lanes r.objs) l && (Man.lane m l).1 != 0)
          some ((if Obj.manifest r.objs then [0] else []) ++ lanes.map (· + 1))

/-- Bytes of a segment (R184). -/
def segment : Nat := 4096

/-- Queues the RACK_DATA message of a segment (R358). -/
def Hub.rackSend (s : Hub) (r : RackReq) (obj pos : Nat) (seg : List Byte) (lastObj lastReq : Bool) : Hub :=
  let body := le 4 (if obj == 17 then 0 else r.vintage) ++ le 1 obj ++ le 1 (b2n lastObj + 2 * b2n lastReq) ++ le 1 r.id ++ zeros 1 ++
    le 8 pos ++ padMul 4 seg
  let m : Msg := { cls := 2, bytes := message Mt.RACK_DATA 0 0 r.hub body, src := .rackData obj pos lastReq }
  ({ s with link := { s.link with bulkQ := s.link.bulkQ ++ [m] } }).bump64 R.RACK_SENT_LO seg.length

/-- The engine may read its next segment: link UP, not paused, nothing waiting. -/
def Hub.rackFree (s : Hub) : Bool :=
  s.rack.step == 4 && s.linkUp && !s.flag F.RACK_CTRL_PAUSE && s.link.bulkQ.isEmpty && !s.rack.suspended && s.outstanding Cu.RACK == 0

/-- Reads the next segment when it may. -/
def Hub.rackNext (s : Hub) : Hub := if s.rackFree then s.issued Cu.RACK else s

/-- Metadata of the cellar a request reads fails its check: the request ends FAULT (R186), a remote cellar's under REMOTE_META (R193), the own
one's as DESC_CRC with META_ERROR (R190, R191). -/
def Hub.rackMeta (s : Hub) (r : RackReq) : Hub :=
  let s := if r.hub != s.hubAddr then s.err Er.RACK_REMOTE_META
    else
      let bad := match s.rackManifest s.geo r with
        | some a => s.descBad s.geo a
        | none => false
      (if bad then s.err Er.CELL_DESC_CRC else s).raiseOf Ev.META_ERROR (r.vintage % 65536)
  s.rackAbort St.FAULT

/-- The last segment of the active request was delivered (R183). -/
def Hub.rackFinish (s : Hub) : Hub :=
  match s.rack.active with
  | some r =>
    let full := !r.trace && Obj.manifest r.objs && Obj.streams r.objs && s.rackObjects r == s.rackObjects { r with objs := Obj.full }
    let s := (s.rackRelease r).rackIdle
    let s := if full && r.hub == s.hubAddr then s.rackedFully r.vintage else s
    s.raiseOf Ev.RACK_DONE r.id
  | none => s

/-- The cellar's answer to the racking engine (R183, R186): metadata first, then segment after segment. -/
def Hub.rackRead (s : Hub) (err : Bool) : Hub :=
  match s.rack.active with
  | none => s
  | some r =>
    if err then (s.err Er.RACK_FABRIC_READ).rackAbort St.FAULT
    else if s.rack.step == 3 then
      match s.rackObjects r with
      | none => s.rackMeta r
      | some [] => s.rackFinish
      | some (o :: os) => ({ s with rack := { s.rack with step := 4, left := o :: os, pos := 0, doneObj := o, donePos := 0 } }).rackNext
    else if s.rack.step == 4 && !s.rack.suspended then
      match s.rack.left with
      | [] => s
      | o :: os =>
        match s.rackObject r o with
        | none => s.rackMeta r
        | some b =>
          let seg := (b.drop s.rack.pos).take segment
          let endd := b.length ≤ s.rack.pos + segment
          let s := s.rackSend r o s.rack.pos seg endd (endd && os.isEmpty)
          if endd then { s with rack := { s.rack with left := os, pos := 0, step := if os.isEmpty then 5 else 4 } }
          else { s with rack := { s.rack with pos := s.rack.pos + segment } }
    else s

/-- The link reports a segment delivered (R183, R187, R349). -/
def Hub.rackDelivered (s : Hub) (obj pos : Nat) (last : Bool) : Hub :=
  let s := { s with rack := { s.rack with doneObj := obj, donePos := pos + segment } }
  if last && s.rack.step == 5 then s.rackFinish else s

/-- The rack link went down during a request (R187), whatever step it is at. -/
def Hub.rackSuspend (s : Hub) : Hub :=
  match s.rack.active with
  | some r =>
    if s.rack.suspended then s
    else ({ s with rack := { s.rack with suspended := true } }).raiseOf Ev.RACK_SUSPENDED r.id
  | none => s

/-- The link is up again: the engine resumes from the first segment not reported delivered (R187). -/
def Hub.rackResume (s : Hub) : Hub :=
  match s.rack.active with
  | some r =>
    if !s.rack.suspended then s.rackNext
    else if s.rack.step < 4 then ({ s with rack := { s.rack with suspended := false } }).raiseOf Ev.RACK_RESUMED r.id
    else
      let objs := ((s.rackObjects r).getD []).filter (fun o => s.rack.doneObj ≤ o)
      let sent := ((s.rackObject r s.rack.doneObj).getD []).length ≤ s.rack.donePos
      let s := { s with rack := { s.rack with
        suspended := false, step := 4
        left := if sent then objs.drop 1 else objs
        pos := if sent then 0 else s.rack.donePos } }
      (s.raiseOf Ev.RACK_RESUMED r.id).rackNext
  | none => s

/-- Every 1 ms the lead renews the hold on a remote vintage (R186), or on a remote ring (log entry 335). -/
def Hub.holdRenew (s : Hub) : Hub :=
  match s.rack.active with
  | some r =>
    if !s.elapsed s.rack.renewAt Config.millisecond then s
    else
      let s := { s with rack := { s.rack with renewAt := s.time.hclk } }
      if r.trace then (if r.hub == s.hubAddr then s else s.sendRequest r.hub Op.HOLD (le 4 0 ++ le 1 1) .none 0)
      else if r.hub == s.hubAddr then s.setRackHold r.vintage s.hubAddr (some s.time.hclk)
      else s.sendRequest r.hub Op.HOLD (le 4 r.vintage ++ le 1 1) .unit r.vintage
  | none => s

/-- RACK_CTRL.PAUSE was written (R194). -/
def Hub.rackPause (s : Hub) (pause : Bool) : Hub := (s.wr F.RACK_CTRL_PAUSE (b2n pause)).rackNext

end Sys2Proof.Machine
end

