-- ==== Sys2Proof/Machine/Link.lean ====
section
/-! DEFINITION. The link layer of the rack port (12_rack_port.md, R339 to R356, R366, R369, R371): states, flits, retry, credits and the
packing of messages. What the requests it brings do is in Port.lean. -/

namespace Sys2Proof.Machine

/-! ### States, R353 and R354 -/

def Dc.PMA_LOST : Nat := 1
def Dc.FEC_LOST : Nat := 2
def Dc.REPLAY_LIMIT : Nat := 3
def Dc.IDLE : Nat := 4
def Dc.COMMAND : Nat := 5
def Dc.TRAIN_TIMEOUT : Nat := 6
def Dc.VERSION : Nat := 7
def Dc.PROTOCOL : Nat := 8
def Dc.TAKEOVER : Nat := 9

/-- The state of the link. -/
def Hub.linkSt (s : Hub) : Nat := s.rd F.LINK_STATE_STATE

/-- The port is enabled: a lead hub that is not SCRAPPED (R339). -/
def Hub.portOn (s : Hub) : Bool := s.isLead && !s.scrapped && s.flag F.LINK_CTRL_EN

/-- Updates the link layer. -/
def Hub.mapLink (s : Hub) (f : LinkSt → LinkSt) : Hub := { s with link := f s.link }

/-- Enters a link state at this edge. -/
def Hub.linkGo (s : Hub) (st : Nat) : Hub := (s.wr F.LINK_STATE_STATE st).mapLink (fun l => { l with since := s.time.hclk })

/-- Counts a lost occurrence of a class and raises PORT_EVENT_LOSS; the loss of a PORT_EVENT_LOSS is only counted (R366, R369). -/
def Hub.portLoss (s : Hub) (code : Nat) : Hub :=
  let c := code / 256
  let s := s.mapLink (fun l => { l with evLoss := l.evLoss.set c (sat 16 (l.evLoss.get c 0 + 1)), lossDue := true })
  if code == Ev.PORT_EVENT_LOSS then s else s.raiseOf Ev.PORT_EVENT_LOSS c

/-- The occurrences among the undelivered messages. -/
def LinkSt.lostEvents (l : LinkSt) : List Nat :=
  let src : MsgSrc → Option Nat := fun m => match m with
    | .event code => some code
    | _ => none
  (l.inFlight.filter (fun p => p.1 != 4096)).filterMap (fun p => src p.2.src) ++
  (l.partTx.cells.filterMap (fun (p : Nat × Msg) => src p.2.src)) ++ l.evQ.filterMap (fun m => src m.src)

/-- Buffers and messages are discarded at entry to DOWN (R356). (DEDUCED, log entry 180) -/
def Hub.linkDiscard (s : Hub) : Hub :=
  let lost := s.link.lostEvents
  let s := s.mapLink (fun l => { l with
    replayBuf := [], replayPos := none, replayRun := 0, rxMsg := [], cmdQ := [], evQ := [], bulkQ := [], partTx := {},
    inFlight := l.inFlight.filter (fun p => p.1 == 4096), nakOut := false, txFifo := [], ackd := l.txNext, lockRun := 0, badRun := 0,
    initAcked := false, initAckSent := false, initPeerAcked := false })
  doEach lost s Hub.portLoss

/-- The link goes from a training state or UP to DOWN for a cause (R354, R356). -/
def Hub.linkDown (s : Hub) (cause : Nat) : Hub :=
  let st := s.linkSt
  if st == Lk.DISABLED || st == Lk.DOWN then s
  else
    let s := (s.wr F.LINK_STATE_DOWN_CAUSE cause).wr F.LINK_STATE_FEC_LOCKED 0
    let s := if st == Lk.INIT || st == Lk.UP then (s.bump F.LINK_DOWN_COUNT_COUNT 1).raiseOf Ev.LINK_DOWN cause else s
    let s := if st == Lk.UP then s.rackSuspend else s
    let s := s.linkDiscard.mapLink (fun l => { l with noAuto := cause == Dc.VERSION })
    (s.linkGo Lk.DOWN).wr F.LINK_CMD_STATUS_DONE 1

/-- A retrain begins (R353); the PMA is reset (R487). (DEDUCED, log entry 355) -/
def Hub.linkRetrain (s : Hub) : Hub :=
  let s := s.linkGo Lk.PMA_WAIT
  let s := s.mapLink (fun l => { l with retrainAt := s.time.hclk, lockRun := 0, badRun := 0, noAuto := false })
  let s := { s with pins := { s.pins with pmaResetN := false } }
  (s.wr F.LINK_CMD_STATUS_DONE 0).raise Ev.LINK_RETRAIN

/-- Entry to INIT: the limit registers take effect (R371). -/
def Hub.linkInit (s : Hub) : Hub :=
  let lo (v m : Nat) : Nat := if v < m then m else v
  let w := lo (s.rd F.LINK_WINDOW_FLITS) 16
  let t := lo (s.rd F.LINK_REPLAY_TIMEOUT_HCLK) 256
  let n := lo (s.rd F.LINK_REPLAY_LIMIT_COUNT) 1
  let c := s.reg R.LINK_EVCLASS % 0x8000
  (s.linkGo Lk.INIT).mapLink (fun l => { l with
    window := w, timeout := t, limit := n, evClass := c, initAcked := false, initAckSent := false, initPeerAcked := false })

/-- Entry to UP (R355): sequence numbers, counts and ACK restart. -/
def Hub.linkEnterUp (s : Hub) : Hub :=
  let s := (s.linkGo Lk.UP).mapLink (fun l => { l with
    txNext := 0, ackd := 0, replayBuf := [], replayPos := none, replayRun := 0, progressAt := s.time.hclk, rxExpect := 0, rxAny := false,
    nakOut := false, lastGood := s.time.hclk, credLast := {}, freed := {}, credSent := 0, lossDue := true })
  let s := (s.wr F.LINK_CMD_STATUS_DONE 1).raise Ev.LINK_UP
  s.rackResume

/-- UP is entered when an INIT with ACKED was received and one was sent. -/
def Hub.initCheck (s : Hub) : Hub :=
  if s.linkSt == Lk.INIT && s.link.initPeerAcked && s.link.initAckSent then s.linkEnterUp else s

/-- The port becomes DISABLED (R339). -/
def Hub.linkDisable (s : Hub) : Hub := if s.linkSt == Lk.DISABLED then s else (s.linkDown Dc.COMMAND).linkGo Lk.DISABLED

/-- LINK_CTRL was written: EN moves the port between DISABLED and DOWN (R353). -/
def Hub.linkCtrlWritten (s : Hub) : Hub :=
  if s.portOn then (if s.linkSt == Lk.DISABLED then s.linkGo Lk.DOWN else s)
  else s.linkDisable

/-! ### LINK_CMD, R353, R354 and R371 -/

/-- CLEAR_STATS. -/
def Hub.linkClear (s : Hub) : Hub :=
  let s := (((s.setReg64 R.LINK_FEC_CORR_LO 0).setReg R.LINK_FEC_UNCORR 0).setReg R.LINK_REPLAYS 0).setReg64 R.LINK_FLITS_TX_LO 0
  let s := ((s.setReg64 R.LINK_FLITS_RX_LO 0).wr F.LINK_TAG_DUPS 0).setReg R.LINK_DOWN_COUNT 0
  s.mapLink (fun l => { l with evLoss := {}, fecEvAt := none, replayEvAt := none })

/-- The status of a LINK_CMD. -/
def Hub.linkCheck (s : Hub) (op : Nat) : Nat :=
  if !s.isLead then St.UNSUPPORTED else if op == 0 || 3 < op then St.BAD_ARG else St.OK

/-- A write of LINK_CMD. -/
def Hub.linkCmd (s : Hub) (op : Nat) : Hub :=
  let st := s.linkCheck op
  let s := (s.wr F.LINK_CMD_STATUS_STATUS st).wr F.LINK_CMD_STATUS_OP op
  if st != St.OK then s
  else
    match op with
    | 1 => if s.linkSt == Lk.DISABLED then s else (s.linkDown Dc.COMMAND).linkRetrain
    | 2 => s.linkDown Dc.COMMAND
    | _ => s.linkClear

/-! ### Timers -/

/-- 1 ms after entering DOWN with AUTO_RETRAIN set (R353). -/
def Hub.linkRetrainTimer (s : Hub) : Hub :=
  if s.linkSt == Lk.DOWN && s.portOn && s.flag F.LINK_CTRL_AUTO_RETRAIN && !s.link.noAuto && s.elapsed s.link.since Config.millisecond
  then s.linkRetrain else s

/-- A retrain that is not UP within LINK_TRAIN_LIMIT (R353). -/
def Hub.linkTrainTimeout (s : Hub) : Hub :=
  let st := s.linkSt
  if (st == Lk.PMA_WAIT || st == Lk.FEC_LOCK || st == Lk.INIT) && s.elapsed s.link.retrainAt (s.rd F.LINK_TRAIN_LIMIT_HCLK) then
    ((s.err Er.LINK_TRAIN).linkDown Dc.TRAIN_TIMEOUT).wr F.LINK_CMD_STATUS_STATUS St.TIMEOUT
  else s

/-- No good flit for LINK_IDLE_LIMIT while UP (R354). -/
def Hub.linkIdleTimeout (s : Hub) : Hub :=
  let n := s.rd F.LINK_IDLE_LIMIT_HCLK
  if s.linkUp && s.elapsed s.link.lastGood (if n < 256 then 256 else n) then s.linkDown Dc.IDLE else s

/-- The PMA asserts ready: a link that waits for it goes on (R353). -/
def Hub.pmaGo (s : Hub) : Hub :=
  if s.linkSt == Lk.PMA_WAIT then (s.linkGo Lk.FEC_LOCK).mapLink (fun l => { l with lockRun := 0, badRun := 0 }) else s

/-- PMA_RESET_N rises 512 HCLK after a retrain began (R487); a PMA that is ready then has kept its ready.
(DESIGN CHOICE, log entry 184) -/
def Hub.pmaRelease (s : Hub) : Hub :=
  if s.isLead && s.elapsed s.link.retrainAt 511 && !s.pins.pmaResetN then
    let s := { s with pins := { s.pins with pmaResetN := true } }
    if s.flag F.LINK_STATE_PMA_READY then s.pmaGo else s
  else s

/-- PMA_READY changes (R353, R354). -/
def Hub.pmaReady (s : Hub) (ready : Bool) : Hub :=
  if !s.isLead then s
  else
    let s := s.wr F.LINK_STATE_PMA_READY (b2n ready)
    let st := s.linkSt
    if ready then s.pmaGo
    else if !ready && (st == Lk.FEC_LOCK || st == Lk.INIT || st == Lk.UP) then s.linkDown Dc.PMA_LOST
    else s

/-! ### Retry, R346 to R348 -/

/-- A replay starts at a place of the replay buffer (R348). -/
def Hub.startReplay (s : Hub) (at_ : Nat) : Hub :=
  let run := s.link.replayRun + 1
  let s := s.mapLink (fun l => { l with replayPos := some at_, replayRun := run, progressAt := s.time.hclk })
  let s := s.bump F.LINK_REPLAYS_REPLAYS 1
  let r := s.raiseLimited s.link.replayEvAt Ev.LINK_REPLAY none
  let s := r.1.mapLink (fun l => { l with replayEvAt := r.2 })
  if s.link.limit < run then ((s.err Er.LINK_REPLAY_LIMIT).raise Ev.REPLAY_LIMIT).linkDown Dc.REPLAY_LIMIT else s

/-- Flits are unacknowledged and ACK has not advanced for LINK_REPLAY_TIMEOUT (R348). -/
def Hub.linkReplayTimeout (s : Hub) : Hub :=
  if s.linkUp && !s.link.replayBuf.isEmpty && s.elapsed s.link.progressAt s.link.timeout then s.startReplay 0 else s

/-- The expected flit did not arrive within LINK_REPLAY_TIMEOUT (R347). -/
def Hub.nakTimeout (s : Hub) : Hub :=
  if s.linkUp && s.link.nakOut && s.elapsed s.link.nakAt s.link.timeout then
    (s.bump F.LINK_REPLAYS_NAKS 1).mapLink (fun l => { l with nakAt := s.time.hclk })
  else s

/-- A flit is lost or out of order: a NAK goes out, if none is outstanding (R347). -/
def Hub.nak (s : Hub) : Hub :=
  if s.link.nakOut then s
  else (s.bump F.LINK_REPLAYS_NAKS 1).mapLink (fun l => { l with nakOut := true, nakAt := s.time.hclk })

/-! ### Received flits, R344 to R347, R350, R352 and R355 -/

/-- The fields of a flit. -/
def Fl.kind (f : List Byte) : Nat := bitsOf (leAt f 0 1) 0 2
def Fl.cls (f : List Byte) : Nat := bitsOf (leAt f 0 1) 2 2
def Fl.seq (f : List Byte) : Nat := leAt f 1 2 % 4096
def Fl.ack (f : List Byte) : Nat := leAt f 3 2
def Fl.credClass (f : List Byte) : Nat := leAt f 6 1
def Fl.nak (f : List Byte) : Nat := leAt f 8 2
def Fl.payload (f : List Byte) : List Byte := (f.drop 12).take 64

/-- The CRC of a flit holds (R344, R354). -/
def flitIntact (f : List Byte) : Bool := crc32c (f.take 76) == leAt f 76 4

/-- The CRC holds and no field has a reserved value (R345). -/
def flitGood (f : List Byte) : Bool :=
  flitIntact f && leAt f 0 1 < 16 && Fl.kind f != 3 && Fl.cls f != 3 && leAt f 1 2 < 4096 && Fl.ack f < 0x2000 &&
  Fl.credClass f < 3 && Fl.nak f < 0x2000 && leAt f 10 2 == 0

/-- A bad flit (R345). -/
def Hub.flitBad (s : Hub) : Hub :=
  let s := s.err Er.LINK_FLIT_CRC
  if s.linkUp then s.nak else s

/-- ACK of a flit: acknowledged flits leave the replay buffer and their messages are delivered (R346, R349). -/
def Hub.ackRx (s : Hub) (ack : Nat) : Hub :=
  let l := s.link
  let n := (ack % 4096 + 1 + 4096 - l.ackd) % 4096
  if !bitAt ack 12 || n == 0 || l.replayBuf.length < n then s
  else
    let left := l.replayBuf.length - n
    let acked (q : Nat) : Bool := q != 4096 && left ≤ (q + 4096 - ack % 4096 - 1) % 4096
    s.mapLink (fun l => { l with
      ackd := (l.ackd + n) % 4096, replayBuf := l.replayBuf.drop n, progressAt := s.time.hclk, replayRun := 0,
      replayPos := match l.replayPos with
        | some p => if p < l.replayBuf.length then some (p - n) else none
        | none => none
      inFlight := l.inFlight.map (fun p => if acked p.1 then (4096, p.2) else p) })

/-- NAK of a flit (R348): outside the unacknowledged range, or while its flit is being replayed, it is ignored. (DEDUCED, log entry 182) -/
def Hub.nakRx (s : Hub) (nak : Nat) : Hub :=
  let at_ := (nak % 4096 + 4096 - s.link.ackd) % 4096
  if bitAt nak 12 && at_ < s.link.replayBuf.length && s.link.replayPos.isNone then s.startReplay at_ else s

/-- The credit count of a flit (R352). -/
def Hub.creditRx (s : Hub) (cls total : Nat) : Hub :=
  let gain := (total + 256 - s.link.credLast.get cls 0) % 256
  s.mapLink (fun l => { l with credit := l.credit.set cls (l.credit.get cls 0 + gain), credLast := l.credLast.set cls total })

/-- The complete messages at the head of received bytes, and what is left (R350, R357): PAD ends a flit. (DEDUCED, log entry 181) -/
def takeMessages : Nat → List Byte → List (List Byte) → List (List Byte) × List Byte
  | 0, b, acc => (acc, b)
  | n + 1, b, acc =>
    if b.isEmpty || leAt b 0 1 == 0 then (acc, [])
    else
      let len := 8 + leAt b 2 2
      if b.length < 8 || b.length < len then (acc, b) else takeMessages n (b.drop len) (acc ++ [b.take len])

/-- The COMMAND credits the peer still holds (R352): the 64 granted, less the flits received whose buffers it has not been told are free. -/
def Hub.commandCredits (s : Hub) : Nat := 64 - (s.link.freed.get 0 0 + 256 - s.link.credSent) % 256

/-- An in-order DATA flit is accepted; answers the messages it completes. Its buffer is free at once. -/
def Hub.dataRx (s : Hub) (f : List Byte) : List (List Byte) × Hub :=
  if Fl.cls f != 0 || s.commandCredits == 0 then ([], (s.err Er.LINK_CREDIT).linkDown Dc.PROTOCOL)
  else if Fl.seq f != s.link.rxExpect then ([], s.nak)
  else
    let got := takeMessages 9 (s.link.rxMsg ++ Fl.payload f) []
    let s := s.mapLink (fun l => { l with
      rxExpect := (l.rxExpect + 1) % 4096, rxAny := true, nakOut := false, freed := l.freed.set 0 ((l.freed.get 0 0 + 1) % 256),
      rxMsg := got.2 })
    (got.1, s.bump64 R.LINK_FLITS_RX_LO 1)

/-- An INIT flit (R355). -/
def Hub.initRx (s : Hub) (f : List Byte) : Hub :=
  let p := Fl.payload f
  if s.linkSt != Lk.INIT then s
  else
    let s := (s.wr F.LINK_PEER_VERSION (leAt p 0 1)).wr F.LINK_PEER_ID (leAt p 2 2)
    if leAt p 0 1 != 1 then s.linkDown Dc.VERSION
    else
      let acked := bitAt (leAt p 1 1) 0
      (s.mapLink (fun l => { l with
        initAcked := true, initPeerAcked := l.initPeerAcked || acked
        credit := ⟨[(0, leAt p 4 1), (1, leAt p 5 1), (2, leAt p 6 2)]⟩ })).initCheck

/-- A flit reaches the link layer (R345 to R348, R352, R355); answers the messages it completes. -/
def Hub.linkRx (s : Hub) (f : List Byte) : List (List Byte) × Hub :=
  if s.linkSt != Lk.INIT && !s.linkUp then ([], s)
  else
    let s := if flitIntact f then s.mapLink (fun l => { l with lastGood := s.time.hclk }) else s
    if !flitGood f then ([], s.flitBad)
    else if Fl.kind f == 2 then ([], s.initRx f)
    else if !s.linkUp then ([], s)
    else
      let s := ((s.ackRx (Fl.ack f)).creditRx (Fl.credClass f) (leAt f 7 1)).nakRx (Fl.nak f)
      if Fl.kind f == 1 && s.linkUp then s.dataRx f else ([], s)

/-! ### Transmission, R346, R350 to R352 and R355 -/

/-- A flit with the present ACK, credit count and NAK (R344); CRED_CLASS rotates. -/
def Hub.flit (s : Hub) (kind cls seq start : Nat) (payload : List Byte) : List Byte × Hub :=
  let l := s.link
  let body := le 1 (kind + 4 * cls) ++ le 2 seq ++ le 2 ((l.rxExpect + 4095) % 4096 + 4096 * b2n l.rxAny) ++ le 1 start ++
    le 1 l.credClass ++ le 1 (l.freed.get l.credClass 0) ++ le 2 (if l.nakOut then l.rxExpect + 4096 else 0) ++ zeros 2 ++
    (padTo 64 payload).take 64
  (body ++ le 4 (crc32c body), s.mapLink (fun l => { l with
    credClass := (l.credClass + 1) % 3, credSent := if l.credClass == 0 then l.freed.get 0 0 else l.credSent }))

/-- The fields of a flit that a resend carries anew: ACK, credits and NAK; class, SEQ and payload are kept. -/
def Hub.resent (s : Hub) (f : List Byte) : List Byte × Hub := s.flit 1 (Fl.cls f) (Fl.seq f) (leAt f 5 1) (Fl.payload f)

/-- Hands a flit to the PCS through its FIFO (R340). -/
def Hub.txFlit (s : Hub) (r : List Byte × Hub) : Hub := r.2.mapLink (fun l => { l with txOut := s.link.txOut ++ [r.1], txFifo := s.link.txFifo ++ [r.1] })

/-- The messages of a class that wait. -/
def LinkSt.queue (l : LinkSt) (cls : Nat) : List Msg := if cls == 0 then l.cmdQ else if cls == 1 then l.evQ else l.bulkQ

/-- Replaces the messages of a class that wait. -/
def LinkSt.setQueue (l : LinkSt) (cls : Nat) (q : List Msg) : LinkSt :=
  if cls == 0 then { l with cmdQ := q } else if cls == 1 then { l with evQ := q } else { l with bulkQ := q }

/-- The body of an EVENT_LOSS message (R358). -/
def LinkSt.lossBody (l : LinkSt) : List Byte := (countFrom 1 14).flatMap (fun c => le 2 (l.evLoss.get c 0))

/-- EVENT_LOSS goes before the waiting occurrences when it is due (R358). -/
def Hub.lossMessage (s : Hub) : Hub :=
  if s.link.lossDue && s.link.evQ.length < 64 then
    let m : Msg := { cls := 1, bytes := message Mt.EVENT_LOSS 0 0 s.hubAddr s.link.lossBody, src := .loss }
    s.mapLink (fun l => { l with evQ := m :: l.evQ, lossDue := false })
  else s

/-- A TIME_PONG takes GCN_TX when its first flit is selected (R365). -/
def Hub.stamped (s : Hub) (m : Msg) : Msg :=
  if m.cls == 0 && leAt m.bytes 0 1 == Mt.TIME_PONG then { m with bytes := patchLe m.bytes 16 8 s.time.gcn } else m

/-- Packs bytes of a class into a payload (R350): the bytes so far, where the first header begins, the messages that end here. -/
def Hub.pack (s : Hub) (cls : Nat) : Nat → LinkSt → List Byte → Nat → List Msg → List Byte × Nat × List Msg × LinkSt
  | 0, l, b, start, done => (b, start, done, l)
  | n + 1, l, b, start, done =>
    let room := 64 - b.length
    if room == 0 then (b, start, done, l)
    else
      match l.partTx.cells.find? (fun (p : Nat × Msg) => p.1 == cls) with
      | some (_, m) =>
        let l := if m.bytes.length ≤ room then { l with partTx := l.partTx.del cls }
          else { l with partTx := l.partTx.set cls { m with bytes := m.bytes.drop room } }
        Hub.pack s cls n l (b ++ m.bytes.take room) start (if m.bytes.length ≤ room then done ++ [m] else done)
      | none =>
        match l.queue cls with
        | [] => (b, start, done, l)
        | m :: rest =>
          Hub.pack s cls n { l.setQueue cls rest with partTx := l.partTx.set cls (s.stamped m) } b
            (if start == 255 then b.length else start) done

/-- A DATA flit of a class may be sent (R346, R351). -/
def Hub.mayClass (s : Hub) (cls : Nat) : Bool :=
  let l := s.link
  (!(l.queue cls).isEmpty || l.partTx.keys.contains cls) && 0 < l.credit.get cls 0 && l.replayBuf.length < 4095 &&
  l.replayBuf.length < (if cls == 0 then l.window else l.window - 8)

/-- Sends the next DATA flit of a class. -/
def Hub.sendData (s : Hub) (cls : Nat) : Hub :=
  let seq := s.link.txNext
  let p := s.pack cls 64 s.link [] 255 []
  let r := ({ s with link := p.2.2.2 }).flit 1 cls seq p.2.1 p.1
  let s := s.txFlit r
  let s := s.mapLink (fun l => { l with
    txNext := (seq + 1) % 4096, replayBuf := l.replayBuf ++ [r.1], credit := l.credit.set cls (l.credit.get cls 0 - 1)
    progressAt := if l.replayBuf.isEmpty then s.time.hclk else l.progressAt
    inFlight := l.inFlight ++ p.2.2.1.map (fun m => (seq, { m with bytes := [] })) })
  s.bump64 R.LINK_FLITS_TX_LO 1

/-- The INIT payload (R355). -/
def Hub.initPayload (s : Hub) : List Byte :=
  le 1 1 ++ le 1 (b2n s.link.initAcked) ++ le 2 s.hubAddr ++ le 1 64 ++ le 1 0 ++ le 2 0 ++ le 2 s.link.window

/-- A flit boundary of the transmitter (R351): a replay, COMMAND, EVENT, BULK, NULL; INIT flits in INIT, NULL flits in FEC_LOCK. A flit that
finds the 16 places of the FIFO taken overflows it (R340). -/
def Hub.flitSlot (s : Hub) : Hub :=
  let st := s.linkSt
  if st != Lk.FEC_LOCK && st != Lk.INIT && st != Lk.UP then s
  else if 16 ≤ s.link.txFifo.length then (s.err Er.LINK_FIFO).linkDown Dc.PROTOCOL
  else if st == Lk.INIT then
    let s := s.txFlit (s.flit 2 0 0 255 s.initPayload)
    (s.mapLink (fun l => { l with initAckSent := l.initAckSent || l.initAcked })).initCheck
  else if st == Lk.FEC_LOCK then s.txFlit (s.flit 0 0 0 255 [])
  else
    match s.link.replayPos with
    | some p =>
      let s := s.txFlit (s.resent (nth s.link.replayBuf p []))
      let next := if p + 1 < s.link.replayBuf.length then some (p + 1) else none
      (s.mapLink (fun l => { l with replayPos := next })).bump64 R.LINK_FLITS_TX_LO 1
    | none =>
      let s := s.lossMessage
      if s.mayClass 0 then s.sendData 0
      else if s.mayClass 1 then s.sendData 1
      else if s.mayClass 2 then (s.sendData 2).rackNext
      else s.txFlit (s.flit 0 0 0 255 [])

/-- The oldest acknowledged message is reported delivered to its source (R349). -/
def Hub.messageDelivered (s : Hub) : Hub :=
  match s.link.inFlight.find? (fun p => p.1 == 4096) with
  | none => s
  | some p =>
    let s := s.mapLink (fun l => { l with inFlight := l.inFlight.erase p })
    match p.2.src with
    | .rackData obj pos last => s.rackDelivered obj pos last
    | _ => s

/-! ### Events on the port, R366 and R369 -/

/-- The body of an EVENT message (R358). -/
def Occ.portBody (o : Occ) : List Byte :=
  le 2 o.code ++ le 2 ((o.unit.getD 0) % 0x4000 + 0x4000 * b2n o.unit.isSome + 0x8000 * b2n o.masked) ++ le 8 o.gcn ++ le 4 o.epoch ++ zeros 4

/-- An occurrence reaches the rack port. -/
def Hub.portEvent (s : Hub) (o : Occ) : Hub :=
  if !s.portOn || !bitAt s.link.evClass (o.code / 256) then s
  else if s.linkUp && s.link.evQ.length < 64 then
    let m : Msg := { cls := 1, bytes := message Mt.EVENT 0 0 o.hub o.portBody, src := .event o.code }
    s.mapLink (fun l => { l with evQ := l.evQ ++ [m] })
  else s.portLoss o.code

/-! ### Received codewords, R341 and R343 -/

/-- Takes a codeword into account for lock: `good` says that it decoded with SYNC and the expected CW_SEQ. -/
def Hub.lockStep (s : Hub) (good : Bool) : Hub :=
  if s.flag F.LINK_STATE_FEC_LOCKED then
    let bad := if good then 0 else s.link.badRun + 1
    let s := s.mapLink (fun l => { l with badRun := bad })
    if 8 ≤ bad then s.linkDown Dc.FEC_LOST else s
  else
    let run := if good then s.link.lockRun + 1 else 0
    let s := s.mapLink (fun l => { l with lockRun := run, badRun := 0 })
    if 64 ≤ run && s.linkSt == Lk.FEC_LOCK then (s.wr F.LINK_STATE_FEC_LOCKED 1).linkInit else s

/-- A received codeword (R343): answers the flits it brings while the PCS is locked. -/
def Hub.codewordRx (s : Hub) (w : List Nat) : List (List Byte) × Hub :=
  let st := s.linkSt
  let locked := s.flag F.LINK_STATE_FEC_LOCKED
  if st != Lk.FEC_LOCK && st != Lk.INIT && st != Lk.UP then ([], s)
  else
    match rsDecode w with
    | none =>
      let s := s.mapLink (fun l => { l with cwExpect := (l.cwExpect + 1) % 256, rxScr := scrAfter 1 l.rxScr })
      let s :=
        if !locked then s
        else
          let s := (s.err Er.LINK_FEC_UNCORR).bump F.LINK_FEC_UNCORR_COUNT 1
          let r := s.raiseLimited s.link.fecEvAt Ev.FEC_UNCORR none
          r.1.mapLink (fun l => { l with fecEvAt := r.2 })
      ([], s.lockStep false)
    | some (m, n) =>
      let c := codewordOf m
      let scr := if c.seq == 0 then scrOnes else if c.seq == s.link.cwExpect then s.link.rxScr else scrAfter c.seq scrOnes
      let good := c.sync && c.seq == s.link.cwExpect
      let s := s.bump64 R.LINK_FEC_CORR_LO n
      let s := s.mapLink (fun l => { l with cwExpect := (c.seq + 1) % 256, rxScr := scrAfter 1 scr })
      (if locked then c.flits scr else [], s.lockStep good)

/-! ### Codewords sent, R341 and R342 -/

/-- One HCLK of the transmit PCS: a codeword of 5,440 bits at 179.2 bits an HCLK lasts 425/14 HCLK; it takes the flits complete in the FIFO
as it begins, and the scrambler starts again at CW_SEQ 0. (DEDUCED, log entry 232) -/
def Hub.pcsSend (s : Hub) : Hub :=
  let st := s.linkSt
  let l := s.link
  if st != Lk.FEC_LOCK && st != Lk.INIT && st != Lk.UP then s
  else if l.cwPhase + 14 < 425 then { s with link := { l with cwPhase := l.cwPhase + 14 } }
  else
    let scr := if l.cwSeq == 0 then scrOnes else l.txScr
    { s with link := { l with
      cwPhase := l.cwPhase + 14 - 425, txFifo := l.txFifo.drop 8, cwSeq := (l.cwSeq + 1) % 256, txScr := scrAfter 1 scr
      cwOut := l.cwOut ++ [codeword (l.txFifo.take 8) l.cwSeq scr] } }

end Sys2Proof.Machine
end

