-- ==== Sys2Proof/Machine/Samples.lean ====
section
/-! DEFINITION. The end of a sample request (09_tasting.md, R246, R249, R274): the outcome counters, the reserved buffers, and requests that
end ABANDONED. -/

namespace Sys2Proof.Machine

/-! ### The counters of TASTE_STAT, R276 -/

def Tc.REQUESTED : Nat := 0
def Tc.TASTED : Nat := 1
def Tc.MISMATCH : Nat := 2
def Tc.MISSED : Nat := 3
def Tc.LATE : Nat := 4
def Tc.ABANDONED : Nat := 5
def Tc.ILLEGAL : Nat := 6
def Tc.CORRUPT : Nat := 7

/-- Counts in a slot's counter, saturating. -/
def Hub.tasteCount (s : Hub) (slot counter : Nat) : Hub :=
  let k := slot * 8 + counter
  { s with taste := { s.taste with stats := s.taste.stats.set k (sat 32 (s.taste.stats.get k 0 + 1)) } }

/-- A sample buffer. -/
def Hub.sampBuf (s : Hub) (b : Nat) : SampBuf := s.taste.bufs.get b {}

/-- Sets a sample buffer. -/
def Hub.setBuf (s : Hub) (b : Nat) (x : SampBuf) : Hub := { s with taste := { s.taste with bufs := s.taste.bufs.set b x } }

/-- A request ends with an outcome (R249): it is counted, the buffer is free again, the spur forgets the request, and LATE,
ABANDONED and CORRUPT raise TASTE_LOSS within its limit (R274). -/
def Hub.endSample (s : Hub) (b outcome : Nat) : Hub :=
  let x := s.sampBuf b
  let s := { s with taste := { s.taste with bufs := s.taste.bufs.del b } }
  let t := s.tile x.tile
  let s := if t.taste.any (fun q => q.req == x.req) then s.setTile x.tile { t with taste := none } else s
  let s := s.tasteCount x.slot outcome
  if outcome == Tc.LATE || outcome == Tc.ABANDONED || outcome == Tc.CORRUPT then
    let r := s.raiseLimited s.taste.lossAt Ev.TASTE_LOSS (some x.slot)
    let s := r.1
    { s with taste := { s.taste with lossAt := r.2 } }
  else s

/-- The buffer reserved for a tile's request. -/
def Hub.bufOf (s : Hub) (t : Nat) : Option Nat := (s.taste.bufs.cells.find? (fun p => p.2.tile == t)).map Prod.fst

/-- The request or sample in progress at a tile's spur ends ABANDONED (R249, R272). -/
def Hub.abandonSample (s : Hub) (t : Nat) : Hub :=
  if (s.tile t).taste.isSome then
    match s.bufOf t with
    | some b => s.endSample b Tc.ABANDONED
    | none => s.setTile t { s.tile t with taste := none }
  else s

/-- Samples of the tiles of a turned column end ABANDONED (R272). -/
def Hub.abandonTaste (s : Hub) (cane : Nat) : Hub :=
  doEach ((s.tiles.cells.filter (fun (p : Nat × Tile) => s.caneFor (colOf p.1) == cane && p.2.taste.isSome)).map Prod.fst) s
    Hub.abandonSample

end Sys2Proof.Machine
end

