-- ==== Sys2Proof/Machine/Slots.lean ====
section
/-! DEFINITION. Context slots (17_registers.md, R471 and R472; R41, R303): opening, tiles joining and leaving, closing. -/

namespace Sys2Proof.Machine

/-- The profile is present: the built-in 0 or one of the image's (R243). -/
def Hub.profilePresent (s : Hub) (p : Nat) : Bool := p == 0 || s.taste.profiles.any (fun b => leAt b 0 2 == p)

/-- A hang monitor's history begins (R285). -/
def Hub.startHistory (s : Hub) (z : Nat) : Hub :=
  let m := s.mon z
  s.setMon z { m with durs := [], timer := 0, openSkip := true, st := if s.rdB F.HANG_MON_CFG_EN z == 1 then 1 else 0 }

/-- A tile of the slot of a running digest pass is not summed (R265): the pass keeps the first such tile. -/
def Hub.digestMiss (s : Hub) (t : Nat) : Hub :=
  let x := s.tile t
  if s.digTiles.active && x.isOf s.digTiles.slot then
    { s with digTiles := { s.digTiles with missing := some (least t (s.digTiles.missing.getD t)) } }
  else s

/-- A tile leaves its context and is PARKED: its shadow is not valid (R41). -/
def Hub.parkTile (s : Hub) (t : Nat) : Hub :=
  let s := (s.digestMiss t).abandonSample t
  let x := s.tile t
  s.setTile t { x with
    st := .parked, slot := 0, priv := 0, tag := 0, seed := 0, profile := 0, cap := 16, scn := 0, scnValid := false, arm := .none,
    gated := false, gateGcn := 0, gateEpoch := 0, stopNow := false, wave := none, start := none, report := none, reported := false,
    missed := [], oldMask := none, holdReq := false, branch := [], chain := none, syncDue := none, taste := none, numw := [], firstScn := [] }

/-- A PARKED tile joins a slot (R41, R471). (DEDUCED, log entry 71) -/
def Hub.joinTile (s : Hub) (z t : Nat) : Hub :=
  let d := s.dom z
  let x := s.tile t
  s.setTile t { x with
    st := .inContext, slot := z, priv := d.priv, tag := d.tag, seed := d.seed, profile := d.profile,
    cap := if s.rdB F.PWR_CTX_CAP_TOL z == 1 then d.cap else 16, scn := d.scn, scnValid := true, arm := .none, gated := true,
    gateGcn := d.stopGcn, gateEpoch := d.stopEpoch, report := none, reported := false, missed := [], oldMask := none, syncDue := some 6, chain := none, fresh := true }

/-- OPEN (R471). (DEDUCED, log entry 76) -/
def Hub.openSlot (s : Hub) (z : Nat) : Hub :=
  let s := s.setDom z {
    st := .stopped, tag := s.rd F.GLB_CTX_CFG_JOB_TAG, priv := s.rd F.GLB_CTX_CFG_PRIV, profile := s.rd F.GLB_CTX_PROFILE_PROFILE,
    seed := s.reg64 R.GLB_CTX_SEED_LO, scn := s.reg64 R.GLB_CTX_SCN_LO, consistent := true }
  s.startHistory z

/-- The PARKED tiles of a rectangle. -/
def Hub.parkedIn (s : Hub) (r : Rect) : List Nat := (s.rectTiles r).filter (fun t => (s.tile t).st == .parked && !(s.tile t).bad)

/-- The slot's tiles in a rectangle. -/
def Hub.slotTilesIn (s : Hub) (z : Nat) (r : Rect) : List Nat := (s.slotTiles z).filter r.has

/-- Coverage of a slot ends in every grant (R390). -/
def Hub.uncover (s : Hub) (z : Nat) : Hub :=
  ({ s with auth := { s.auth with grants := ⟨s.auth.grants.cells.map (fun (p : Nat × Grant) =>
    (p.1, { p.2 with slots := setBits p.2.slots z 1 0 }))⟩ } }).traceGrants s

/-- CLOSE: the tiles are PARKED, the slot is EMPTY, its FED_JOB entry returns to reset (R471). -/
def Hub.closeSlot (s : Hub) (z : Nat) : Hub :=
  let s := doEach (s.slotTiles z) s Hub.parkTile
  let s := { s with doms := s.doms.del z }
  ((s.setRegB R.FED_JOB z (regReset R.FED_JOB)).uncover z).showCap

/-- Writes GLB_CMD_STATUS. -/
def Hub.glbStatus (s : Hub) (op status tiles : Nat) : Hub :=
  (((s.wr F.GLB_CMD_STATUS_STATUS status).wr F.GLB_CMD_STATUS_OP op).wr F.GLB_CMD_STATUS_DONE 1).wr F.GLB_CMD_STATUS_TILES tiles

/-- ADD_TILES, REMOVE_TILES and CLOSE reach the spurs on the trellis: DONE reads 0 until it returns, 1 to 64 HCLK after acceptance (R471); the
count is a free value. -/
def Hub.glbOnTrellis (s : Hub) : Hub :=
  let n := 64 - s.drawWord.1.toNat % 64
  { s.drawWord.2.wr F.GLB_CMD_STATUS_DONE 0 with glbLeft := n }

/-- ADD_TILES would give the slot tiles on both sides of the seam. -/
def Hub.wouldSpan (s : Hub) (z : Nat) : Bool :=
  let new := s.parkedIn (rectOf (s.reg R.GLB_CTX_RECT))
  let all := new ++ s.slotTiles z
  !new.isEmpty && all.any s.isEast && all.any (fun t => !s.isEast t)

/-- The status of a GLB_CMD by the rows of R472. -/
def Hub.glbCheck (s : Hub) (r : Req) (op : Nat) : Nat :=
  let z := s.rd F.GLB_CTX_SEL_SLOT
  let d := s.dom z
  let empty := d.st == .empty
  let outside := r == .port || r == .jtag || r == .i3c || r == .tendril
  let secure := (!empty && d.priv == 2) || (op == 1 && s.rd F.GLB_CTX_CFG_PRIV == 2)
  if s.isSafe then St.FAULT
  else if outside && secure && !s.covers Right.SECURE z then St.DENIED
  else if op == 0 || 4 < op ||
      (op == 1 && (s.rd F.GLB_CTX_CFG_PRIV == 3 || !empty || !s.profilePresent (s.rd F.GLB_CTX_PROFILE_PROFILE))) ||
      (op != 1 && empty) || ((op == 2 || op == 3) && (rectOf (s.reg R.GLB_CTX_RECT)).bad) then St.BAD_ARG
  else if s.slotBusy z || d.failedDecant || (op == 2 && (s.time.chgW.isSome || s.time.chgE.isSome) && s.wouldSpan z) then St.BUSY
  else if op != 1 && d.st != .stopped then St.NOT_STOPPED
  else if op == 2 && s.wouldSpan z && !s.phaseEq then St.SCOPE_SPLIT
  else St.OK

/-- A write of GLB_CMD. (DESIGN CHOICE, log entry 77) -/
def Hub.glbCmd (s : Hub) (r : Req) (op : Nat) : Hub :=
  let z := s.rd F.GLB_CTX_SEL_SLOT
  let st := s.glbCheck r op
  if st != St.OK then s.glbStatus op st 0
  else
    let rect := rectOf (s.reg R.GLB_CTX_RECT)
    match op with
    | 1 => (s.openSlot z).glbStatus 1 St.OK 0
    | 2 =>
      let ts := s.parkedIn rect
      ((doEach ts s (fun s t => s.joinTile z t)).startHistory z).glbStatus 2 St.OK ts.length |>.glbOnTrellis
    | 3 =>
      let ts := s.slotTilesIn z rect
      (doEach ts s Hub.parkTile).glbStatus 3 St.OK ts.length |>.glbOnTrellis
    | _ =>
      let n := (s.slotTiles z).length
      (s.closeSlot z).glbStatus 4 St.OK n |>.glbOnTrellis

end Sys2Proof.Machine
end

