-- ==== Sys2Proof/Machine/Boot.lean ====
section
/-! DEFINITION. Fuses, life cycle, grants, the check of a configuration image and the release (13_startup_lifecycle.md). What applies an
image's sections is in Startup.lean. -/

namespace Sys2Proof.Machine

/-! ### Fuses, R376 and R377 -/

/-- A fuse row as it stands. -/
def Hub.fuseRow (s : Hub) (r : Nat) : Nat := (s.boot.fuses.get r 0).toNat

/-- A fuse row as the hub uses it: an uncorrectable row gives 0, the ROM default of its fields (log entry 1). -/
def Hub.fuseUsed (s : Hub) (r : Nat) : Nat := if s.boot.deadRows.contains r then 0 else s.fuseRow r

/-- Burns bits of a row: a bit is never returned to 0. -/
def Hub.burn (s : Hub) (r v : Nat) : Hub :=
  { s with boot := { s.boot with fuses := s.boot.fuses.set r (BitVec.ofNat 32 (s.fuseRow r ||| v)) } }

/-- KEY_HASH is not zero; a row that cannot be read counts as burnt. -/
def Hub.keySet (s : Hub) : Bool := s.boot.keyBad || (countFrom 12 12).any (fun r => s.fuseRow r != 0)

/-- Entry `n` of the bad-tile list. (DEDUCED, log entry 48) -/
def Hub.badEntry (s : Hub) (n : Nat) : Nat := bitsOf (s.fuseRow (64 + n / 2)) (16 * (n % 2)) 16

/-- The parity of an entry is odd, as R376 asks. -/
def badParityOk (e : Nat) : Bool := popCount 16 e % 2 == 1

/-- The entries in use: those with a burnt bit. -/
def Hub.badUsed (s : Hub) : List Nat := (List.range 512).filter (fun n => s.badEntry n != 0)

/-- The fused bad tiles. -/
def Hub.badTiles (s : Hub) : List Nat :=
  ((s.badUsed.map s.badEntry).filter (fun e => badParityOk e && bitAt e 14)).map (fun e => bitsOf e 0 14)

/-- The entry that names a tile: VALID, with its parity bit. -/
def badEntryFor (tile : Nat) : Nat :=
  let e := tile % 0x4000 + 0x4000
  if popCount 16 e % 2 == 1 then e else e + 0x8000

/-! ### Life cycle, R386 to R388 -/

/-- The thermometer code of a life-cycle state. -/
def thermometer (state : Nat) : Nat := 2 ^ state - 1

/-- The bitwise majority of the three copies. -/
def Hub.lifeBits (s : Hub) : Nat :=
  let a := s.fuseRow 0 % 32
  let b := s.fuseRow 1 % 32
  let c := s.fuseRow 2 % 32
  (a &&& b) ||| (a &&& c) ||| (b &&& c)

/-- The state that a majority decodes to; none when it is no thermometer code. -/
def lifeOf (bits : Nat) : Option Nat := (List.range 6).find? (fun n => thermometer n == bits)

/-- Writes LIFE_CMD_STATUS. -/
def Hub.lifeStatus (s : Hub) (status : Nat) : Hub := (s.wr F.LIFE_CMD_STATUS_STATUS status).wr F.LIFE_CMD_STATUS_DONE 1

/-- R388 allows the command to the requester. -/
def Hub.lifeAllowed (s : Hub) (r : Req) (op : Nat) : Bool :=
  let life := s.boot.life
  match op with
  | 1 =>
    match life with
    | 0 => r == .jtag
    | 1 => s.keySet
    | 2 => s.granted Right.LIFE
    | 3 => s.granted Right.LIFE
    | _ => false
  | 2 => life == Life.MANUFACTURE
  | 3 => life == Life.MANUFACTURE || life == Life.RETURN
  | _ => life == Life.RETURN || s.granted Right.LIFE || (life == Life.BLANK && r == .jtag)

/-- The status of a LIFE_CMD by the rows of R392. (DEDUCED, log entry 49) -/
def Hub.lifeCheck (s : Hub) (r : Req) (op : Nat) : Nat :=
  if op == 0 || 4 < op || (op == 1 && s.rd F.LIFE_ARG_TARGET != s.boot.life + 1) || (op == 2 && s.keySet) then St.BAD_ARG
  else if s.scrapped || !s.lifeAllowed r op then St.DENIED
  else if !s.flag F.LIFE_STATE_VPP_READY then St.BUSY
  else if op == 3 && s.badUsed.length == 512 then St.LIMIT
  else St.OK

/-- The rows a LIFE_CMD burns, with the bits it adds. -/
def Hub.burnList (s : Hub) (op : Nat) : List (Nat × Nat) :=
  match op with
  | 1 => [0, 1, 2].map (fun r => (r, thermometer (s.boot.life + 1)))
  | 2 => (List.range 12).map (fun n => (12 + n, s.reg (R.LIFE_KEY_0 + 4 * n)))
  | 3 =>
    match (List.range 512).find? (fun n => s.badEntry n == 0) with
    | some n => [(64 + n / 2, badEntryFor (s.rd F.LIFE_ARG_TILE) * 2 ^ (16 * (n % 2)))]
    | none => []
  | _ => [0, 1, 2].map (fun r => (r, 0x1F))

/-- What a successful burn makes of the hub: an ADVANCE waits for the next power-up, SCRAP acts at once. (DESIGN CHOICE, log entry 50) -/
def Hub.burnt (s : Hub) (op : Nat) : Hub :=
  match op with
  | 1 =>
    let next := s.boot.life + 1
    ((s.wr F.LIFE_STATE_PENDING 1).wr F.LIFE_STATE_PENDING_STATE next).raiseOf Ev.LC_ADVANCED next
  | 2 => s.wr F.LIFE_STATE_KEY_SET (b2n s.keySet)
  | 3 => s.wr F.LIFE_STATE_BAD_USED s.badUsed.length
  | _ =>
    let s := { s with boot := { s.boot with life := Life.SCRAPPED } }
    ((s.wr F.LIFE_STATE_STATE Life.SCRAPPED).linkDisable).raiseOf Ev.LC_ADVANCED Life.SCRAPPED

/-- A write of LIFE_CMD. `burnOk` says that every row reads back as burnt; where one does not, which of its bits are burnt is left open
(R388, log entry 4). -/
def Hub.lifeCmd (s : Hub) (r : Req) (op : Nat) (burnOk : Bool) : Hub :=
  let st := s.lifeCheck r op
  if st != St.OK then s.lifeStatus st
  else if burnOk then
    ((doEach (s.burnList op) s (fun s p => s.burn p.1 p.2)).burnt op).lifeStatus St.OK
  else
    let s := doEach (s.burnList op) s (fun s p =>
      let (w, s) := s.drawWord
      s.burn p.1 (p.2 &&& w.toNat))
    (s.err Er.LIFE_BURN_VERIFY).lifeStatus St.FAULT

/-! ### Grants, R389 to R391 -/

/-- Writes AUTH_CMD_STATUS. -/
def Hub.authStatus (s : Hub) (status : Nat) : Hub := (s.wr F.AUTH_CMD_STATUS_STATUS status).wr F.AUTH_CMD_STATUS_DONE 1

/-- The lockout after 8 failures is in force. -/
def Hub.authLocked (s : Hub) : Bool :=
  match s.auth.lockedAt with
  | some t => !s.elapsed t (2 ^ 30)
  | none => false

/-- A nonce was drawn less than 1 s ago and not used. -/
def Hub.nonceValid (s : Hub) : Bool :=
  match s.auth.nonceAt with
  | some t => !s.elapsed t 1250000000
  | none => false

/-- A free grant record. -/
def Hub.freeGrant (s : Hub) : Option Nat := [0, 1, 2, 3].find? (fun g => !(s.auth.grants.get g {}).valid)

/-- The status of an AUTH_CMD by the rows of R392; BLANK has no grants (R387). (DEDUCED, log entry 49) -/
def Hub.authCheck (s : Hub) (op : Nat) : Nat :=
  if op == 0 || 3 < op || (op == 3 && !(s.auth.grants.get (s.rd F.AUTH_GRANT_SEL_RECORD) {}).valid) then St.BAD_ARG
  else if s.scrapped then St.DENIED
  else if op != 3 && !s.keySet then St.UNSUPPORTED
  else if op != 3 && s.boot.life == Life.BLANK then St.DENIED
  else if op == 2 && !s.nonceValid then St.BAD_ARG
  else if (op == 1 && s.authLocked) || (op == 2 && s.freeGrant.isNone) then St.LIMIT
  else St.OK

/-- CHALLENGE draws a nonce; with a failed health test of the random source it ends with FAULT (R391). -/
def Hub.authChallenge (s : Hub) (entropyOk : Bool) : Hub :=
  let st := s.authCheck 1
  if st != St.OK then s.authStatus st
  else if !entropyOk then (s.err Er.AUTH_ENTROPY).authStatus St.FAULT
  else
    let s := doEach [0, 4, 8, 12] s (fun s o =>
      let (w, s) := s.drawWord
      s.setReg (R.AUTH_NONCE_0 + o) w.toNat)
    ({ s with auth := { s.auth with nonceAt := some s.time.hclk } }).authStatus St.OK

/-- The grant that the AUTH page's scope registers spell. Without ABS its `left` is the HCLK count at which it runs out. -/
def Hub.grantAsked (s : Hub) : Grant :=
  let life := s.reg64 R.AUTH_LIFE_LO
  let abs := bitAt life 63
  { valid := true, rights := s.rd F.AUTH_SCOPE_RIGHTS, slots := s.reg64 R.AUTH_SLOTS_LO, abs := abs,
    left := if abs then life % 2 ^ 63 else s.time.hclk + life % 2 ^ 63, epoch := s.rd F.AUTH_LIFE_EPOCH_EPOCH }

/-- VERIFY (R389, R391): `ok` says that the key's hash equals KEY_HASH and that the signature over the message of R389 verifies. -/
def Hub.authVerify (s : Hub) (ok : Bool) : Hub :=
  let st := s.authCheck 2
  if st != St.OK then s.authStatus st
  else
    let s := { s with auth := { s.auth with nonceAt := none } }
    match ok, s.freeGrant with
    | true, some g =>
      let s := ({ s with auth := { s.auth with grants := s.auth.grants.set g s.grantAsked } }).traceGrants s
      ((s.wr F.AUTH_FAILS_COUNT 0).raiseOf Ev.GRANT_BEGIN g).authStatus St.OK
    | _, _ =>
      let s := s.bump F.AUTH_FAILS_COUNT 1
      let s := if s.rd F.AUTH_FAILS_COUNT == 8 && !s.flag F.AUTH_FAILS_LOCKED then
          ({ s with auth := { s.auth with lockedAt := some s.time.hclk } }).wr F.AUTH_FAILS_LOCKED 1
        else s
      (s.raise Ev.AUTH_FAIL).authStatus St.DENIED

/-- REVOKE (R390). -/
def Hub.authRevoke (s : Hub) : Hub :=
  let st := s.authCheck 3
  if st != St.OK then s.authStatus st
  else ((s.endGrant (s.rd F.AUTH_GRANT_SEL_RECORD)).traceGrants s).authStatus St.OK

/-- A write of AUTH_CMD. `ok` is the result of the check the operation makes. -/
def Hub.authCmd (s : Hub) (op : Nat) (ok : Bool) : Hub :=
  match op with
  | 1 => s.authChallenge ok
  | 2 => s.authVerify ok
  | 3 => s.authRevoke
  | _ => s.authStatus (s.authCheck op)

/-- A grant's lifetime has run out, or its GCN expiry has passed (R390). (DEDUCED, log entry 52) -/
def Hub.grantOver (s : Hub) (g : Grant) : Bool :=
  g.valid && (if g.abs then s.timeOk && (g.epoch != s.epoch || g.left ≤ s.time.gcn) else g.left ≤ s.time.hclk)

/-- Ends the grants that are over. -/
def Hub.grantExpiry (s : Hub) : Hub :=
  (doEach [0, 1, 2, 3] s (fun s g => if s.grantOver (s.auth.grants.get g {}) then s.endGrant g else s)).traceGrants s

/-- The nonce is 1 s old (R389). -/
def Hub.nonceExpiry (s : Hub) : Hub := if s.nonceValid then s else { s with auth := { s.auth with nonceAt := none } }

/-- The lockout is over (R391): the count of failures starts again. -/
def Hub.lockoutExpiry (s : Hub) : Hub :=
  if s.auth.lockedAt.isSome && !s.authLocked then
    ({ s with auth := { s.auth with lockedAt := none } }).setReg R.AUTH_FAILS 0
  else s

/-! ### The configuration image, R381 to R384 -/

/-- DEFAULT_REASON codes (R395). -/
def Dr.NO_IMAGE : Nat := 1
def Dr.CHECK : Nat := 2
def Dr.SIG : Nat := 3
def Dr.TOO_LARGE : Nat := 4
def Dr.BLANK : Nat := 5
def Dr.MEMBER : Nat := 6
def Dr.FUSE : Nat := 7

/-- Fields of the image header (R381). -/
def Img.length (b : List Byte) : Nat := leAt b 8 4
def Img.seq (b : List Byte) : Nat := leAt b 12 4
def Img.sections (b : List Byte) : Nat := leAt b 16 2
def Img.signed (b : List Byte) : Bool := bitAt (leAt b 7 1) 0
/-- Bytes of the signature block. -/
def Img.sigLen (b : List Byte) : Nat := if Img.signed b then 196 else 0

/-- What is wrong with a header, 0 when it is good (R381, R382). -/
def headerFault (b : List Byte) : Nat :=
  if leAt b 0 4 != 0x4B535944 || leAt b 4 2 != 1 || leAt b 60 4 != crc32c (b.take 60) then Dr.CHECK
  else if leAt b 6 1 != 1 then Dr.MEMBER
  else if 4194304 < Img.length b then Dr.TOO_LARGE
  else if 1 < leAt b 7 1 || leAt b 18 42 != 0 || Img.length b < 84 || Img.sections b == 0 then Dr.CHECK
  else 0

/-- A section of an image (R384). -/
structure Section where
  type : Nat
  scope : Nat
  body : List Byte
deriving DecidableEq, Repr

/-- The sections a byte string holds, none unless exactly `n` good ones fill it. -/
def sectionsOf : Nat → List Byte → Option (List Section)
  | 0, b => if b.isEmpty then some [] else none
  | n + 1, b =>
    let len := leAt b 4 4
    let body := (b.drop 16).take len
    if b.length < 16 + len || len % 4 != 0 || leAt b 3 1 != 0 || leAt b 8 4 != 0 || leAt b 12 4 != crc32c body then none
    else (sectionsOf n (b.drop (16 + len))).map (fun l => { type := leAt b 0 2, scope := leAt b 2 1, body := body } :: l)

/-- The sections of an image whose header is good. -/
def imageSections (b : List Byte) : Option (List Section) :=
  let stop := Img.length b - 4 - Img.sigLen b
  if b.length < Img.length b || stop < 64 then none else sectionsOf (Img.sections b) ((b.take stop).drop 64)

/-- The section applies to the hub. -/
def Hub.sectionMine (s : Hub) (x : Section) : Bool := bitAt x.scope 7 || x.scope % 128 == fieldOf s.hubAddr

/-- The image must carry a valid signature (R382). -/
def Hub.needsSig (s : Hub) : Bool :=
  s.keySet && (s.boot.life == Life.PROVISIONED || s.boot.life == Life.FIELD || s.boot.life == Life.RETURN)

/-- What is wrong with an image, 0 when it passes R382. `keyOk` says that the key's SHA-384 hash equals KEY_HASH, `sigOk` that the signature
verifies. (DEDUCED, log entry 42) -/
def Hub.imageFault (s : Hub) (b : List Byte) (keyOk sigOk : Bool) : Nat :=
  let h := headerFault b
  let stop := Img.length b - 4 - Img.sigLen b
  if h != 0 then h
  else
    match imageSections b with
    | none => Dr.CHECK
    | some l =>
      if (l.head?.map Section.type) != some 1 || leAt b stop 4 != crc32c (b.take stop) then Dr.CHECK
      else if s.needsSig && s.boot.keyBad then Dr.FUSE
      else if s.needsSig && !(Img.signed b && leAt b (stop + 4) 1 == 4 && leAt b (stop + 101) 3 == 0 && keyOk && sigOk) then Dr.SIG
      else if 262144 < sumNat ((l.filter s.sectionMine).map (fun x => 16 + x.body.length)) then Dr.TOO_LARGE
      else 0

/-- Floods image bytes from offset `at_` as IMAGE frames of 12 bytes (R318, R379). -/
def Hub.floodImage (s : Hub) (at_ : Nat) : Nat → List Byte → Hub
  | 0, _ => s
  | n + 1, b =>
    if b.isEmpty then s
    else (s.flood2 none Ft.IMAGE (le 4 at_ ++ padTo 12 (b.take 12))).floodImage (at_ + 12) n (b.drop 12)

/-- Sends IMAGE_DONE to every hub of the package (R333). -/
def Hub.sendImageDone (s : Hub) (len crc reason : Nat) : Hub :=
  s.sendCmd s.broadcast Op.IMAGE_DONE (le 4 len ++ le 4 crc ++ le 1 reason)

/-- When the links came UP; with no tendril UP, when step 4 began. -/
def Hub.linksUpAt (s : Hub) : Nat := s.fed.firstUp.getD s.boot.stepAt

/-- The hub is in a step of start-up. -/
def Hub.inStep (s : Hub) (n : Nat) : Bool := s.time.powered && s.rd F.BOOT_STATUS_STEP == n

/-- Enters a step of start-up. -/
def Hub.setStep (s : Hub) (n : Nat) : Hub :=
  ({ s with boot := { s.boot with stepAt := s.time.hclk } }).wr F.BOOT_STATUS_STEP n

/-! ### Release, R373 and R374 -/

/-- Step 9: TILE_HOLD is deasserted and RELEASED raised. -/
def Hub.release (s : Hub) : Hub :=
  let s := (s.setStep 9).wr F.BOOT_TIME_RELEASE_HCLK (sat 32 s.time.hclk)
  let s := { s with
    boot := { s.boot with released := true }
    pins := { s.pins with tileHold := s.rel.safe }
    power := { s.power with missFrom := s.time.hclk } }
  s.raise Ev.RELEASED

/-- The hub may release at step 8: it has the time base and its dividers have restarted. -/
def Hub.readyToRelease (s : Hub) : Bool :=
  s.inStep 8 && s.boot.life != Life.BLANK && s.timeOk && s.time.restartAt.isNone && !s.isSafe

/-- RELEASED: step 9 follows step 8 (R373). -/
def Hub.releaseDue (s : Hub) : Hub := if s.readyToRelease then s.release else s

/-- A hub without a time base releases 8,000,000 HCLK after step 7, or 50,000,000 after power-good (R373). -/
def Hub.noTimeRelease (s : Hub) : Hub :=
  if s.inStep 8 && s.boot.life != Life.BLANK && !s.timeOk && !s.isSafe &&
      (s.elapsed s.boot.stepAt 8000000 || 50000000 ≤ s.time.hclk) then
    (s.wr F.BOOT_STATUS_NO_TIME 1).release
  else s

/-- A write of BOOT_CMD (R374, R392). -/
def Hub.bootCmd (s : Hub) (r : Req) (op : Nat) : Hub :=
  let st := if op != 1 || s.boot.life != Life.BLANK || s.boot.released then St.BAD_ARG
    else if r != .jtag then St.DENIED
    else St.OK
  let s := s.wr F.BOOT_CMD_STATUS_STATUS st
  if st == St.OK then s.release else s

end Sys2Proof.Machine
end

