-- ==== Sys2Proof/Machine/Coop.lean ====
section
/-! DEFINITION. The coopers (16_coopers.md): scripts and triggers, waiting, halting, loading, and every instruction that stays inside the
cooper. The instructions that reach other units are in CoopExec.lean. -/

namespace Sys2Proof.Machine

/-- Causes of COOPn_STATE.CAUSE (R457). -/
def Cc.WATCHDOG : Nat := 1
def Cc.SIGNATURE : Nat := 2
def Cc.ILLEGAL : Nat := 3
def Cc.STACK : Nat := 4
def Cc.BAD_ADDR : Nat := 5
def Cc.ECC : Nat := 6
def Cc.FAIL : Nat := 7
def Cc.SAFE : Nat := 8
def Cc.ABORT : Nat := 9
def Cc.END : Nat := 10

/-- Opcodes of R442. -/
def Co.NOP : Nat := 0x01
def Co.LI : Nat := 0x02
def Co.LIH : Nat := 0x03
def Co.ADDI : Nat := 0x04
def Co.ANDI : Nat := 0x05
def Co.ORI : Nat := 0x06
def Co.ADD : Nat := 0x08
def Co.SUB : Nat := 0x09
def Co.AND : Nat := 0x0A
def Co.OR : Nat := 0x0B
def Co.XOR : Nat := 0x0C
def Co.SHL : Nat := 0x0D
def Co.SHR : Nat := 0x0E
def Co.LD : Nat := 0x10
def Co.ST : Nat := 0x11
def Co.JMP : Nat := 0x14
def Co.BEQ : Nat := 0x15
def Co.BNE : Nat := 0x16
def Co.BLTU : Nat := 0x17
def Co.BGEU : Nat := 0x18
def Co.CALL : Nat := 0x19
def Co.RET : Nat := 0x1A
def Co.END : Nat := 0x1B
def Co.FAIL : Nat := 0x1C
def Co.SIG : Nat := 0x1D
def Co.RD : Nat := 0x20
def Co.WR : Nat := 0x21
def Co.CORK : Nat := 0x22
def Co.HARV : Nat := 0x23
def Co.RACK : Nat := 0x24
def Co.XREG : Nat := 0x25
def Co.WAIT : Nat := 0x28
def Co.DELAY : Nat := 0x29
def Co.WAITT : Nat := 0x2A
def Co.GETEV : Nat := 0x2B
def Co.STAT : Nat := 0x2C
def Co.ARM : Nat := 0x2D

/-- The opcodes of R442. -/
def coopOps : List Nat :=
  [Co.NOP, Co.LI, Co.LIH, Co.ADDI, Co.ANDI, Co.ORI, Co.ADD, Co.SUB, Co.AND, Co.OR, Co.XOR, Co.SHL, Co.SHR, Co.LD, Co.ST, Co.JMP, Co.BEQ,
   Co.BNE, Co.BLTU, Co.BGEU, Co.CALL, Co.RET, Co.END, Co.FAIL, Co.SIG, Co.RD, Co.WR, Co.CORK, Co.HARV, Co.RACK, Co.XREG, Co.WAIT, Co.DELAY,
   Co.WAITT, Co.GETEV, Co.STAT, Co.ARM]

/-! ### Fields of an instruction word, R441 -/

def Iw.op (w : Nat) : Nat := bitsOf w 26 6
/-- D of formats R and I, A of format B. -/
def Iw.f1 (w : Nat) : Nat := bitsOf w 22 4
/-- A of formats R and I, B of format B. -/
def Iw.f2 (w : Nat) : Nat := bitsOf w 18 4
/-- B of format R. -/
def Iw.f3 (w : Nat) : Nat := bitsOf w 14 4
def Iw.imm (w : Nat) : Nat := bitsOf w 0 18
def Iw.imm16 (w : Nat) : Nat := bitsOf w 0 16
/-- OFF of format B. -/
def Iw.off (w : Nat) : Int := signed 18 (bitsOf w 0 18)

/-- The control transfers of R442. -/
def isTransfer (w : Nat) : Bool :=
  [Co.JMP, Co.BEQ, Co.BNE, Co.BLTU, Co.BGEU, Co.CALL, Co.RET, Co.END, Co.FAIL].contains (Iw.op w)

/-- Instructions with a target (R449). -/
def hasTarget (w : Nat) : Bool := [Co.JMP, Co.BEQ, Co.BNE, Co.BLTU, Co.BGEU, Co.CALL].contains (Iw.op w)

/-- The opcode and every reserved field are legal (R441, R442). -/
def legalWord (w : Nat) : Bool :=
  let op := Iw.op w
  let rFormat := [Co.ADD, Co.SUB, Co.AND, Co.OR, Co.XOR, Co.SHL, Co.SHR, Co.WR, Co.WAIT, Co.DELAY, Co.ARM].contains op
  let sFormat := [Co.NOP, Co.RET, Co.END, Co.FAIL, Co.SIG].contains op
  let noImm := [Co.NOP, Co.RET, Co.END].contains op
  coopOps.contains op &&
  (!rFormat || bitsOf w 0 14 == 0) &&
  (!sFormat || bitsOf w 16 10 == 0) &&
  (!noImm || Iw.imm w == 0) &&
  (op != Co.LI || Iw.f2 w == 0) &&
  (op != Co.LIH || bitsOf w 14 4 == 0) &&
  (!(op == Co.JMP) || bitsOf w 18 8 == 0) &&
  (op != Co.STAT || (Iw.f2 w == 0 && Iw.imm w == 0)) &&
  (op != Co.ARM || (Iw.f1 w == 0 && Iw.f3 w == 0)) &&
  (op != Co.GETEV || Iw.imm w ≤ 3)

/-! ### Loading, R449 and R452 -/

/-- The word a branch or CALL at `i` goes to. -/
def targetOf (i w : Nat) : Int := (i : Int) + 1 + Iw.off w

/-- No run of more than 32 words without a SIG or a control transfer; `run` counts the words since the last one. -/
def runsOk : Nat → List Nat → Bool
  | _, [] => true
  | run, w :: ws => if isTransfer w || Iw.op w == Co.SIG then runsOk 0 ws else run < 32 && runsOk (run + 1) ws

/-- R449 for a program, its entry points and its CRC. -/
def programOk (prog entries : List Nat) (crc : Nat) : Bool :=
  let n := prog.length
  let at_ (i : Nat) : Nat := nth prog i 0
  let targets := (prog.zipIdx.filter (fun p => hasTarget p.1)).map (fun p => targetOf p.2 p.1)
  let isTarget (i : Nat) : Bool := targets.any (fun t => t == (i : Int))
  let blockStart (i : Nat) : Bool := i == 0 || entries.contains i || isTarget i || isTransfer (at_ (i - 1))
  let sig (i : Nat) : Bool := Iw.op (at_ i) == Co.SIG
  0 < n && n ≤ 1024 && prog.all legalWord && entries.all (fun e => e < n) &&
  targets.all (fun t => 0 ≤ t && t < (n : Int)) &&
  (List.range n).all (fun i => !isTransfer (at_ i) || blockStart i || sig (i - 1)) &&
  (List.range n).all (fun i => !isTarget i || entries.contains i || i == 0 || sig (i - 1) || isTransfer (at_ (i - 1))) &&
  runsOk 0 prog && crc32c (prog.flatMap (le 4)) == crc

/-- The program words of a cooper, the first `n`. -/
def Cooper.words (c : Cooper) (n : Nat) : List Nat := (List.range n).map (fun i => (c.prog.get i 0).toNat)

/-- The defined scripts, ascending. -/
def Cooper.defined (c : Cooper) : List Nat := (List.range 8).filter (fun i => (c.scripts.get i {}).valid)

/-- The unit field of a cooper's event (R455). -/
def coopUnit (c script : Nat) : Nat := c + 2 * script

/-- LOAD_COMMIT, or the acceptance of a COOPER section: R449 decides; the answer says whether the load was accepted. -/
def Hub.coopAccept (s : Hub) (c words crc : Nat) : Bool × Hub :=
  let x := s.coop c
  let l := x.defined
  let ok := l.all (fun i => (x.scripts.get i {}).trigger != 3) &&
    programOk (x.words words) (l.map (fun i => (x.scripts.get i {}).entry)) crc
  if ok then
    (true, (s.setCoop c { x with st := .idle, loading := false, cause := 0, initData := x.data }).raiseOf Ev.COOP_LOADED c)
  else (false, (s.setCoop c { x with st := .empty, loading := false }).raiseOf Ev.COOP_LOAD_REJECT c)

/-! ### Registers, halting and starting -/

/-- A working register; W0 reads 0. -/
def Cooper.reg (c : Cooper) (n : Nat) : Nat := if n == 0 then 0 else (c.w.get n 0).toNat

/-- Writes a working register; a write to W0 is ignored. -/
def Cooper.setReg (c : Cooper) (n v : Nat) : Cooper := if n == 0 then c else { c with w := c.w.set n (BitVec.ofNat 32 v) }

/-- The script the cooper runs or ran last. -/
def Cooper.cur (c : Cooper) : Script := c.scripts.get c.script {}

/-- The watchdog budget of a script (R450). -/
def Script.budget (x : Script) : Nat := if x.wdog == 0 then 12500 else x.wdog

/-- Ends the ownership of every page a requester holds (R467). -/
def Hub.disown (s : Hub) (r : Req) : Hub :=
  { s with owners := ⟨s.owners.cells.filter (fun (p : Nat × Nat) => p.2 != reqCode r + 1)⟩ }

/-- The cooper halts with a cause (R451): it releases its pages; a fault raises COOP_FAULT. -/
def Hub.coopHalt (s : Hub) (c cause : Nat) : Hub :=
  let x := s.coop c
  let s := s.setCoop c { x with st := .halted, cause := cause, wait := .none }
  let s := s.disown (coopReq c)
  if cause ≤ 6 then
    let s := s.bump (F.COOP_RUNS_FAULTS.lane c) 1
    let s := if cause == Cc.WATCHDOG then s.err (Er.COOP_WATCHDOG.lane c)
      else if cause == Cc.SIGNATURE then s.err (Er.COOP_SIGNATURE.lane c)
      else if cause == Cc.ECC then s.err (Er.COOP_STORE_ECC.lane c)
      else s
    s.raiseOf Ev.COOP_FAULT (coopUnit c x.script)
  else if cause == Cc.FAIL then s.raiseOf Ev.COOP_FAILED (coopUnit c x.script)
  else s

/-- A script starts (R440). -/
def Hub.coopStart (s : Hub) (c script w1 : Nat) (occ : Occ) : Hub :=
  let x := s.coop c
  let e := x.scripts.get script {}
  let x := { x with
    st := .running, script := script, pc := e.entry, cause := 0, w := {}, stack := [], queue := [], filter := none, sig := 0xFFFFFFFF,
    wdog := e.budget, wait := .none, startW1 := w1, last := occ, scripts := x.scripts.set script { e with pending := none } }
  let s := s.setCoop c (x.setReg 1 w1)
  (s.bump (F.COOP_RUNS_STARTS.lane c) 1).raiseOf Ev.COOP_STARTED (coopUnit c script)

/-- The occurrence word of R446. -/
def Occ.word (o : Occ) : Nat :=
  o.code + (o.unit.getD 0) % 0x4000 * 0x10000 + b2n o.unit.isSome * 0x40000000 + b2n o.masked * 0x80000000

/-- A filter value matches a code (R445). -/
def filterHit (filter code : Nat) : Bool := (code &&& (filter / 65536)) == ((filter % 65536) &&& (filter / 65536))

/-- A trigger of a script arrives (R440): with EN 0 it is not accepted. -/
def Hub.coopTrigger (s : Hub) (c script : Nat) (occ : Occ) : Hub :=
  let x := s.coop c
  let e := x.scripts.get script {}
  if !s.flag (F.COOP_CTRL_EN.lane c) then s
  else if x.st == .idle || (x.st == .halted && (x.cause == Cc.ABORT || x.cause == Cc.END)) then s.coopStart c script occ.word occ
  else if x.st == .running || x.st == .waiting || x.st == .loading then
    if e.pending.isSome then
      (s.bump (F.COOP_EVLOSS_TRIG_LOST.lane c) 1).raiseOf Ev.COOP_TRIG_LOST (coopUnit c script)
    else s.setCoop c { x with scripts := x.scripts.set script { e with pending := some occ } }
  else s

/-- Start-up step 9 triggers the RELEASE scripts (R439). -/
def Hub.coopRelease (s : Hub) : Hub :=
  doEach [0, 1] s (fun s c =>
    let l := (s.coop c).defined.filter (fun i => ((s.coop c).scripts.get i {}).trigger == 1)
    doEach l s (fun s i => s.coopTrigger c i {}))

/-- A pending script of lowest index starts once the cooper is IDLE (R440). -/
def Hub.coopPending (s : Hub) (c : Nat) : Hub :=
  let x := s.coop c
  if x.st != .idle || !s.flag (F.COOP_CTRL_EN.lane c) then s
  else
    match (List.range 8).find? (fun i => (x.scripts.get i {}).pending.isSome) with
    | some i =>
      let o := (x.scripts.get i {}).pending.getD {}
      s.coopStart c i o.word o
    | none => s

/-! ### Occurrences, R445 and R446 -/

/-- An occurrence sets out for the coopers: a script that runs may take it, an EVENT script whose filter it matches may start. (DEDUCED, log entry 212) -/
def Hub.coopSend (s : Hub) (o : Occ) : Hub :=
  doEach [0, 1] s (fun s c =>
    let x := s.coop c
    let live := x.st == .running || x.st == .waiting
    let hit := x.defined.any (fun i =>
      let e := x.scripts.get i {}
      e.trigger == 2 && filterHit (e.code + 65536 * e.mask) o.code)
    if live || hit then s.setCoop c { x with
      transit := if live then x.transit ++ [o] else x.transit
      trig := if hit then x.trig ++ [o] else x.trig }
    else s)

/-- An occurrence has been on its way for 2 HCLK. -/
def Hub.arrived (s : Hub) (o : Occ) : Bool := o.at_ + 2 ≤ s.time.hclk

/-- The occurrences that match EVENT scripts reach the cooper (R439). -/
def Hub.coopEventTrigger (s : Hub) (c : Nat) : Hub :=
  let x := s.coop c
  let due := x.trig.filter s.arrived
  let s := s.setCoop c { x with trig := x.trig.filter (fun o => !s.arrived o) }
  doEach due s (fun s o =>
    let l := (s.coop c).defined.filter (fun i =>
      let e := (s.coop c).scripts.get i {}
      e.trigger == 2 && filterHit (e.code + 65536 * e.mask) o.code)
    doEach l s (fun s i => s.coopTrigger c i o))

/-- One occurrence at a cooper's queue: it completes a WAIT, joins the queue, or is lost from a full one (R445). -/
def Hub.coopTake (s : Hub) (c : Nat) (o : Occ) : Hub :=
  let x := s.coop c
  match x.filter with
  | none => s
  | some f =>
    if !filterHit f.toNat o.code then s
    else
      match x.wait with
      | .event rd _ _ => s.setCoop c ({ x with st := .running, wait := .none, last := o }.setReg rd o.word)
      | _ =>
        if x.queue.length < 16 then s.setCoop c { x with queue := x.queue ++ [o] }
        else s.bump (F.COOP_EVLOSS_QUEUE.lane c) 1

/-- The occurrences that are 2 HCLK old reach the cooper (R446). -/
def Hub.coopArrival (s : Hub) (c : Nat) : Hub :=
  let x := s.coop c
  let due := x.transit.filter s.arrived
  let s := s.setCoop c { x with transit := x.transit.filter (fun o => !s.arrived o) }
  doEach due s (fun s o => s.coopTake c o)

/-- The deadline of a WAIT has passed (R445): W[D] receives 0. -/
def Hub.coopWaitTimeout (s : Hub) (c : Nat) : Hub :=
  let x := s.coop c
  match x.wait with
  | .event rd _ (some t) => if t ≤ s.time.hclk then s.setCoop c ({ x with st := .running, wait := .none }.setReg rd 0) else s
  | _ => s

/-- A DELAY has run out (R447). -/
def Hub.coopDelayEnd (s : Hub) (c : Nat) : Hub :=
  let x := s.coop c
  match x.wait with
  | .delay t => if t ≤ s.time.hclk then s.setCoop c { x with st := .running, wait := .none } else s
  | _ => s

/-- GCN has reached the value of a WAITT, or a join ends the wait (R447). -/
def Hub.coopGcnReached (s : Hub) (c : Nat) : Hub :=
  let x := s.coop c
  match x.wait with
  | .gcn rd v joined =>
    if joined then s.setCoop c ({ x with st := .running, wait := .none }.setReg rd 1)
    else if v ≤ s.now then s.setCoop c ({ x with st := .running, wait := .none }.setReg rd 0)
    else s
  | _ => s

/-- The watchdog of a RUNNING cooper has reached 0 (R450). -/
def Hub.coopWatchdog (s : Hub) (c : Nat) : Hub :=
  let x := s.coop c
  if x.st == .running && x.wdog == 0 then s.coopHalt c Cc.WATCHDOG else s

/-- One HCLK period of a cooper: the watchdog of a RUNNING one counts down. -/
def Hub.coopTick (s : Hub) (c : Nat) : Hub :=
  let x := s.coop c
  if x.st == .running then s.setCoop c { x with wdog := x.wdog - 1 } else s

/-- Entry to SAFE (R453). -/
def Hub.coopSafe (s : Hub) : Hub :=
  doEach [0, 1] s (fun s c => if (s.coop c).st == .empty then s else s.coopHalt c Cc.SAFE)

/-- The remote access of a cooper has ended (R444): the status in W[D] and as the last status; a read leaves its value in w3 of the block. -/
def Hub.coopRemoteDone (s : Hub) (c rd : Nat) (write : Bool) (block status value : Nat) : Hub :=
  let x := s.coop c
  match x.wait with
  | .remote _ =>
    let x := { x with st := .running, wait := .none, lastStatus := status }
    let x := if write then x else { x with data := x.data.set (block + 3) (BitVec.ofNat 32 (if status == St.OK then value else 0)) }
    s.setCoop c (x.setReg rd status)
  | _ => s

/-! ### Executing, R442 and R448 -/

/-- A control transfer or a SIG leaves S at its start value. -/
def sigStart : Word := 0xFFFFFFFF

/-- Executes the instruction at the PC of a RUNNING cooper when its opcode is `op`: S is updated, the PC moves to the next word, then `f`
acts with the word and its place. A word with no opcode of R442 halts the cooper; another opcode leaves everything. (DEDUCED, log entry 211) -/
def Hub.coopDo (s : Hub) (c op : Nat) (f : Hub → Nat → Nat → Hub) : Hub :=
  let x := s.coop c
  let w := (x.prog.get x.pc 0).toNat
  if x.st != .running then s
  else if !coopOps.contains (Iw.op w) then s.coopHalt c Cc.ILLEGAL
  else if Iw.op w != op then s
  else
    let sig := if op == Co.SIG then x.sig else BitVec.ofNat 32 (crcUpdate x.sig.toNat (le 4 w))
    f (s.setCoop c { x with pc := (x.pc + 1) % 1024, sig := sig }) w x.pc

/-- An instruction that gives W[D] a value of W[A] and W[B]. -/
def Hub.coopAlu (s : Hub) (c op : Nat) (f : Nat → Nat → Nat) : Hub :=
  s.coopDo c op (fun s w _ =>
    let x := s.coop c
    s.setCoop c (x.setReg (Iw.f1 w) (f (x.reg (Iw.f2 w)) (x.reg (Iw.f3 w)))))

/-- An instruction that gives W[D] a value of W[D], W[A] and IMM. -/
def Hub.coopImm (s : Hub) (c op : Nat) (f : Nat → Nat → Nat → Nat) : Hub :=
  s.coopDo c op (fun s w _ =>
    let x := s.coop c
    s.setCoop c (x.setReg (Iw.f1 w) (f (x.reg (Iw.f1 w)) (x.reg (Iw.f2 w)) (Iw.imm w))))

/-- Sets the PC after a control transfer. -/
def Hub.coopGo (s : Hub) (c : Nat) (pc : Option Nat) : Hub :=
  let x := s.coop c
  s.setCoop c { x with pc := pc.getD x.pc, sig := sigStart }

/-- The word a branch at `at_` goes to, within the 10 bits of the PC. -/
def branchTo (at_ w : Nat) : Nat := unsigned 10 (targetOf at_ w)

/-- A conditional branch. -/
def Hub.coopBranch (s : Hub) (c op : Nat) (f : Nat → Nat → Bool) : Hub :=
  s.coopDo c op (fun s w at_ =>
    let x := s.coop c
    s.coopGo c (if f (x.reg (Iw.f1 w)) (x.reg (Iw.f2 w)) then some (branchTo at_ w) else none))

/-- CALL: a ninth push halts. -/
def Hub.coopCall (s : Hub) (c : Nat) : Hub :=
  s.coopDo c Co.CALL (fun s w at_ =>
    let x := s.coop c
    if 8 ≤ x.stack.length then (s.setCoop c { x with pc := at_ }).coopHalt c Cc.STACK
    else (s.setCoop c { x with stack := x.pc :: x.stack }).coopGo c (some (branchTo at_ w)))

/-- RET: an empty pop halts. -/
def Hub.coopRet (s : Hub) (c : Nat) : Hub :=
  s.coopDo c Co.RET (fun s _ at_ =>
    let x := s.coop c
    match x.stack with
    | p :: rest => (s.setCoop c { x with stack := rest }).coopGo c (some p)
    | [] => (s.setCoop c { x with pc := at_ }).coopHalt c Cc.STACK)

/-- END: the cooper becomes IDLE. -/
def Hub.coopEnd (s : Hub) (c : Nat) : Hub :=
  s.coopDo c Co.END (fun s _ at_ =>
    let x := s.coop c
    (s.setCoop c { x with st := .idle, pc := at_, cause := Cc.END, sig := sigStart }).raiseOf Ev.COOP_ENDED (coopUnit c x.script))

/-- FAIL: the code of the word is kept. -/
def Hub.coopFail (s : Hub) (c : Nat) : Hub :=
  s.coopDo c Co.FAIL (fun s w at_ =>
    let s := s.wr (F.COOP_FAIL_CODE_CODE.lane c) (Iw.imm16 w)
    (s.setCoop c { s.coop c with pc := at_, sig := sigStart }).coopHalt c Cc.FAIL)

/-- SIG (R448). -/
def Hub.coopSig (s : Hub) (c : Nat) : Hub :=
  s.coopDo c Co.SIG (fun s w at_ =>
    let x := s.coop c
    if (x.sig.toNat ^^^ 0xFFFFFFFF) % 65536 == Iw.imm16 w then s.setCoop c { x with wdog := x.cur.budget, sig := sigStart }
    else (s.setCoop c { x with pc := at_, sig := sigStart }).coopHalt c Cc.SIGNATURE)

/-- The data store address of format I, none when it is 256 or more. -/
def Cooper.dataAddr (x : Cooper) (w : Nat) : Option Nat :=
  let a := x.reg (Iw.f2 w) + Iw.imm w
  if a < 256 then some a else none

/-- Words of the data store from an address; the store ends at word 255. -/
def Cooper.block (x : Cooper) (a n : Nat) : List Nat := (List.range n).map (fun i => (x.data.get (a + i) 0).toNat)

/-- Halts with BAD_ADDR at a word. -/
def Hub.coopBadAddr (s : Hub) (c at_ : Nat) : Hub := (s.setCoop c { s.coop c with pc := at_ }).coopHalt c Cc.BAD_ADDR

/-- Does `f` with the block of `n` words that format I names; a block beyond the data store halts with BAD_ADDR. -/
def Hub.coopBlock (s : Hub) (c w at_ n : Nat) (f : Hub → Nat → List Nat → Hub) : Hub :=
  match (s.coop c).dataAddr w with
  | some a => if a + n ≤ 256 then f s a ((s.coop c).block a n) else s.coopBadAddr c at_
  | none => s.coopBadAddr c at_

/-- LD. -/
def Hub.coopLd (s : Hub) (c : Nat) : Hub :=
  s.coopDo c Co.LD (fun s w at_ => s.coopBlock c w at_ 1 (fun s a _ =>
    let x := s.coop c
    s.setCoop c (x.setReg (Iw.f1 w) (x.data.get a 0).toNat)))

/-- ST. -/
def Hub.coopSt (s : Hub) (c : Nat) : Hub :=
  s.coopDo c Co.ST (fun s w at_ => s.coopBlock c w at_ 1 (fun s a _ =>
    let x := s.coop c
    s.setCoop c { x with data := x.data.set a (BitVec.ofNat 32 (x.reg (Iw.f1 w))) }))

/-- WAIT (R445). -/
def Hub.coopWait (s : Hub) (c : Nat) : Hub :=
  s.coopDo c Co.WAIT (fun s w _ =>
    let x := s.coop c
    let filter := BitVec.ofNat 32 (x.reg (Iw.f2 w))
    let limit := x.reg (Iw.f3 w)
    let x := if x.filter == some filter then x else { x with filter := some filter, queue := [] }
    match x.queue with
    | o :: rest => s.setCoop c ({ x with queue := rest, last := o }.setReg (Iw.f1 w) o.word)
    | [] => s.setCoop c { x with
      st := .waiting, wait := .event (Iw.f1 w) filter (if limit == 0 then none else some (s.time.hclk + limit)) })

/-- DELAY. -/
def Hub.coopDelay (s : Hub) (c : Nat) : Hub :=
  s.coopDo c Co.DELAY (fun s w _ =>
    let x := s.coop c
    s.setCoop c { x with st := .waiting, wait := .delay (s.time.hclk + x.reg (Iw.f2 w)) })

/-- WAITT: a value already reached ends the wait at once. -/
def Hub.coopWaitt (s : Hub) (c : Nat) : Hub :=
  s.coopDo c Co.WAITT (fun s w at_ => s.coopBlock c w at_ 2 (fun s a l =>
    let x := s.coop c
    let _ := a
    (s.setCoop c { x with st := .waiting, wait := .gcn (Iw.f1 w) (nth l 0 0 + nth l 1 0 * 0x100000000) false }).coopGcnReached c))

/-- GETEV: other values of IMM are illegal. -/
def Hub.coopGetev (s : Hub) (c : Nat) : Hub :=
  s.coopDo c Co.GETEV (fun s w at_ =>
    let x := s.coop c
    let o := x.last
    let put (v : Nat) : Hub := s.setCoop c (x.setReg (Iw.f1 w) v)
    match Iw.imm w with
    | 0 => put (o.gcn % 0x100000000)
    | 1 => put (o.gcn / 0x100000000)
    | 2 => put o.epoch
    | 3 => put o.hub
    | _ => (s.setCoop c { x with pc := at_ }).coopHalt c Cc.ILLEGAL)

/-- STAT. -/
def Hub.coopStat (s : Hub) (c : Nat) : Hub :=
  s.coopDo c Co.STAT (fun s w _ =>
    let x := s.coop c
    s.setCoop c (x.setReg (Iw.f1 w) x.lastStatus))

/-- ARM (R445). -/
def Hub.coopArm (s : Hub) (c : Nat) : Hub :=
  s.coopDo c Co.ARM (fun s w _ =>
    let x := s.coop c
    s.setCoop c { x with filter := some (BitVec.ofNat 32 (x.reg (Iw.f2 w))), queue := [] })

/-! ### COOPn_CMD, R454, and the load registers, R457 -/

/-- Writes COOPn_CMD_STATUS. -/
def Hub.coopStatus (s : Hub) (c op status : Nat) : Hub :=
  ((s.wr (F.COOP_CMD_STATUS_STATUS.lane c) status).wr (F.COOP_CMD_STATUS_OP.lane c) op).wr (F.COOP_CMD_STATUS_DONE.lane c) 1

/-- The status of a COOPn_CMD by rows 1 to 3 of R454. -/
def Hub.coopCheck (s : Hub) (c op script : Nat) : Nat :=
  let x := s.coop c
  if s.isSafe then St.FAULT
  else if op == 0 || 5 < op || (op == 1 && (!(x.scripts.get script {}).valid || x.st == .empty)) || (op == 4 && x.st != .loading)
    then St.BAD_ARG
  else if ((op == 1 || op == 3) && (x.st == .running || x.st == .waiting)) || (x.st == .loading && op != 2 && op != 4) then St.BUSY
  else St.OK

/-- A write of COOPn_CMD. (DEDUCED, log entry 210) -/
def Hub.coopCmd (s : Hub) (c op script : Nat) : Hub :=
  let st := s.coopCheck c op script
  if st != St.OK then s.coopStatus c op st
  else
    let x := s.coop c
    match op with
    | 1 =>
      let s := s.coopStart c script (s.rd (F.COOP_ARG_VALUE.lane c)) {}
      s.coopStatus c 1 St.OK
    | 2 =>
      let s := if x.st == .loading then s.setCoop c { x with st := .empty, loading := false }
        else if x.st == .empty then s
        else s.coopHalt c Cc.ABORT
      s.coopStatus c 2 St.OK
    | 3 => (s.setCoop c { x with st := .loading, loading := true }).coopStatus c 3 St.OK
    | 4 =>
      let (ok, s) := s.coopAccept c (s.rd (F.COOP_PROG_WORDS_COUNT.lane c)) (s.rd (F.COOP_PROG_CRC_CRC.lane c))
      s.coopStatus c 4 (if ok then St.OK else St.BAD_ARG)
    | _ => ((s.setReg (R.COOP_EVLOSS + c * 0x1000) 0).setReg (R.COOP_RUNS + c * 0x1000) 0).coopStatus c 5 St.OK

/-- A load register is written outside LOADING. -/
def Hub.coopLoadRefused (s : Hub) (r : Req) (c addr : Nat) : Hub := (s.err (Er.COOP_ARG_BUSY.lane c)).errAt r addr

/-- A write of COOPn_PROG_DATA. -/
def Hub.coopProgWrite (s : Hub) (r : Req) (c v : Nat) : Hub :=
  let x := s.coop c
  if x.st != .loading then s.coopLoadRefused r c (R.COOP_PROG_DATA + c * 0x1000)
  else
    let w := s.rd (F.COOP_PROG_SEL_WORD.lane c)
    (s.setCoop c { x with prog := x.prog.set w (BitVec.ofNat 32 v) }).wr (F.COOP_PROG_SEL_WORD.lane c) (w + 1)

/-- A read of COOPn_PROG_DATA: the selected word, and WORD advances. -/
def Hub.coopProgRead (s : Hub) (c : Nat) : Nat × Hub :=
  let w := s.rd (F.COOP_PROG_SEL_WORD.lane c)
  (((s.coop c).prog.get w 0).toNat, s.wr (F.COOP_PROG_SEL_WORD.lane c) (w + 1))

/-- A write of COOPn_DATA_DATA: ignored while a script runs. -/
def Hub.coopDataWrite (s : Hub) (r : Req) (c v : Nat) : Hub :=
  let x := s.coop c
  if x.st == .running || x.st == .waiting then s.coopLoadRefused r c (R.COOP_DATA_DATA + c * 0x1000)
  else
    let w := s.rd (F.COOP_DATA_SEL_WORD.lane c)
    (s.setCoop c { x with data := x.data.set w (BitVec.ofNat 32 v) }).wr (F.COOP_DATA_SEL_WORD.lane c) (w + 1)

/-- A read of COOPn_DATA_DATA. -/
def Hub.coopDataRead (s : Hub) (c : Nat) : Nat × Hub :=
  let w := s.rd (F.COOP_DATA_SEL_WORD.lane c)
  (((s.coop c).data.get w 0).toNat, s.wr (F.COOP_DATA_SEL_WORD.lane c) (w + 1))

/-- A write of a SCRIPT register of the selected entry: 0 ENTRY, 1 FILTER, 2 WDOG. -/
def Hub.coopScriptWrite (s : Hub) (r : Req) (c which v : Nat) : Hub :=
  let x := s.coop c
  if x.st != .loading then s.coopLoadRefused r c (R.COOP_SCRIPT_ENTRY + c * 0x1000 + 4 * which)
  else
    let i := s.rd (F.COOP_SCRIPT_SEL_SCRIPT.lane c)
    let e := x.scripts.get i {}
    let e := match which with
      | 0 => { e with entry := bitsOf v 0 10, trigger := bitsOf v 10 2, valid := bitAt v 12 }
      | 1 => { e with code := v % 65536, mask := v / 65536 % 65536 }
      | _ => { e with wdog := v }
    s.setCoop c { x with scripts := x.scripts.set i e }

/-- A write of COOPn_PROG_CRC. -/
def Hub.coopCrcWrite (s : Hub) (r : Req) (c v : Nat) : Hub :=
  if (s.coop c).st != .loading then s.coopLoadRefused r c (R.COOP_PROG_CRC + c * 0x1000)
  else s.setReg (R.COOP_PROG_CRC + c * 0x1000) v

/-- A COOPER section of the image (R452): its index of the cooper and whether it was accepted. (DEDUCED, log entry 40) -/
def Hub.coopSection (s : Hub) (b : List Byte) : Bool × Hub :=
  let c := leAt b 0 1
  let n := leAt b 1 1
  let words := leAt b 2 2
  let datas := leAt b 4 2
  let word (o i : Nat) : BitVec 32 := BitVec.ofNat 32 (leAt b (o + 4 * i) 4)
  let progAt := 16 + 16 * n
  let dataAt := progAt + 4 * words
  if 1 < c then (false, s)
  else if n == 0 || 8 < n || 1024 < words || 256 < datas || b.length < dataAt + 4 * datas || leAt b 6 2 != 0 || leAt b 12 4 != 0 then
    (false, (s.setCoop c {}).raiseOf Ev.COOP_LOAD_REJECT c)
  else
    let scripts : Tab Script := (List.range n).foldl (fun (t : Tab Script) i =>
      let o := 16 + 16 * i
      t.set i { entry := leAt b o 2, trigger := leAt b (o + 2) 1, valid := true, code := leAt b (o + 4) 2, mask := leAt b (o + 6) 2,
                wdog := leAt b (o + 8) 4 }) {}
    let fill (o m : Nat) : Tab (BitVec 32) := (List.range m).foldl (fun (t : Tab (BitVec 32)) i => t.set i (word o i)) {}
    let resv := (List.range n).any (fun i => leAt b (16 + 16 * i + 3) 1 != 0 || leAt b (16 + 16 * i + 12) 4 != 0 ||
      2 < leAt b (16 + 16 * i + 2) 1)
    let s := s.setCoop c { prog := fill progAt words, scripts := scripts, data := fill dataAt datas }
    if resv then (false, (s.setCoop c {}).raiseOf Ev.COOP_LOAD_REJECT c)
    else s.coopAccept c words (leAt b 8 4)

/-- After a takeover a script that ran starts again at its entry, from the data of its last load (R453). -/
def Hub.coopRestart (s : Hub) (c : Nat) : Hub :=
  let x := s.coop c
  if x.st == .running || x.st == .waiting then
    let s := s.setCoop c { x with data := x.initData, transit := [] }
    s.coopStart c x.script x.startW1 {}
  else s

end Sys2Proof.Machine
end

