-- ==== Sys2Proof/Machine/Press.lean ====
section
/-! DEFINITION. The press lanes (05_press.md): streams and cask chains, LOCATOR and END, the encoder's work block by block,
reference records, and the PRESS commands. -/

namespace Sys2Proof.Machine

/-! ### Which lane carries a column, R18, R19 and R160 -/

/-- Lane p is retired. -/
def Hub.retired (s : Hub) (l : Nat) : Bool := (s.lane l).mode == 4

/-- The partner of a lane. -/
def partner (l : Nat) : Nat := l ^^^ 1

/-- The lane that serves a lane's queues. -/
def Hub.servedBy (s : Hub) (l : Nat) : Nat := if s.retired l then partner l else l

/-- The lane that carries a column. -/
def Hub.laneOf (s : Hub) (col : Nat) : Nat := s.servedBy (s.caneFor col / 8)

/-- The entry queues a lane serves, in order. -/
def Hub.laneCanes (s : Hub) (l : Nat) : List Nat :=
  if s.retired (partner l) then countFrom (8 * least l (partner l)) 16 else countFrom (8 * l) 8

/-! ### Streams in casks, R154 and R171 -/

/-- Cask size in force. -/
def Hub.caskSize (s : Hub) : Nat := s.geo.cask

/-- The final descriptor of a lane's cask number `n` of its chain. -/
def Hub.laneDesc (s : Hub) (l : Nat) (next : Nat) (closed : Bool) : Desc :=
  let x := s.lane l
  { next := next, vintage := s.harv.vintage, kind := 1, lane := l, closed := closed, used := if closed then x.used else 0, pos := x.caskPos,
    firstHdr := x.firstHdr.getD noCask }

/-- Links a cask to a lane's chain: the cask before it is closed, its own descriptor is written. -/
def Hub.linkCask (s : Hub) (l c : Nat) : Hub :=
  let x := s.lane l
  let s := match x.casks.getLast? with
    | some p => s.putDesc p { s.laneDesc l c true with used := s.caskSize }
    | none => s
  let s := s.setLane l { x with casks := x.casks ++ [c], caskPos := x.casks.length * s.caskSize, firstHdr := none, used := 0 }
  s.putDesc c (s.laneDesc l noCask false)

/-- One cask for a lane: from its LOCATOR reservation, from its tail reserve where it may use it, or from the pool, evicting where the policy
allows it (R176). -/
def Hub.laneCask (s : Hub) (l : Nat) (tail : Bool) : Option Nat × Hub :=
  let x := s.lane l
  match x.resv, tail, x.tail with
  | c :: rest, _, _ => (some c, s.setLane l { x with resv := rest })
  | [], true, c :: rest => (some c, s.setLane l { x with tail := rest })
  | [], _, _ =>
    match s.takeCask with
    | (some c, s) => (some c, s)
    | (none, s) =>
      if s.rd F.CELL_CTRL_POLICY == 0 then (none, s)
      else
        match s.evictOne with
        | some s => s.takeCask
        | none => (none, s)

/-- Writes stream bytes of a lane at a stream position, across its casks. -/
def Hub.streamPut (s : Hub) (l : Nat) : Nat → Nat → List Byte → Hub
  | 0, _, _ => s
  | n + 1, pos, bs =>
    if bs.isEmpty then s
    else
      let size := s.caskSize
      let here := size - pos % size
      let c := nth (s.lane l).casks (pos / size) 0
      let s := s.putMem (s.geo.caskAt c + pos % size) (bs.take here)
      Hub.streamPut s l n (pos + here) (bs.drop here)

/-- Pours bytes into a lane's chain, cask by cask, linking the next one when the last is full (R154); the first of them may begin a block, whose
header its cask records. Answers what no cask held. -/
def Hub.lanePour (l : Nat) (tail : Bool) : Nat → Hub → List Byte → List Byte × Hub
  | 0, s, bs => (bs, s)
  | n + 1, s, bs =>
    if bs.isEmpty then ([], s)
    else
      let x := s.lane l
      let size := s.caskSize
      let room := x.casks.length * size - x.pos
      if room == 0 then
        match s.laneCask l tail with
        | (none, s) => (bs, s)
        | (some c, s) => Hub.lanePour l tail n (s.linkCask l c) bs
      else
        let part := bs.take room
        let s := s.putMem (s.geo.caskAt (x.casks.getLast?.getD 0) + x.pos % size) part
        let pos := x.pos + part.length
        let s := s.setLane l { x with
          pos := pos, used := pos - x.caskPos, hdrDue := false
          firstHdr := if x.hdrDue then some (x.firstHdr.getD (x.pos % size)) else x.firstHdr }
        Hub.lanePour l tail n s (bs.drop room)

/-- A block begins: what the lane returns to should the block never be whole (R155). -/
def LaneSt.blockBegin (x : LaneSt) : LaneSt :=
  { x with hdrDue := true, blockPos := x.pos, blockHdr := x.firstHdr, blockCasks := x.casks.length }

/-- Appends a block to a lane's stream, or what is left of it; false when the casks do not hold it all: the rest waits for a cask (R154). -/
def Hub.laneAppend (s : Hub) (l : Nat) (bs : List Byte) (tail : Bool) : Bool × Hub :=
  let x := s.lane l
  let todo := if x.spill.isEmpty then bs else x.spill
  let s := if x.spill.isEmpty then s.setLane l x.blockBegin else s
  let got := Hub.lanePour l tail (2 * (todo.length / s.caskSize) + 4) s todo
  let n := todo.length - got.1.length
  let s := got.2.setLane l { got.2.lane l with spill := got.1 }
  let s := (s.bump64 (R.PRESS_OUT_LO + l * 0x1000) n).bump64 R.HARV_PRESSED_LO n
  (got.1.isEmpty, if n == 0 then s else s.issued l)

/-- Takes back a block that is not whole: the stream ends at the boundary before it, and the casks it had taken return to the pool. (DESIGN CHOICE,
log entry 93) -/
def Hub.dropSpill (s : Hub) (l : Nat) : Hub :=
  let x := s.lane l
  if x.spill.isEmpty then s
  else
    let size := s.caskSize
    let s := s.giveBack (x.casks.drop x.blockCasks)
    let caskPos := (x.blockCasks - 1) * size
    let casks := x.casks.take x.blockCasks
    let s := s.setLane l { x with
      spill := [], hdrDue := false, pos := x.blockPos, firstHdr := x.blockHdr, casks := casks, caskPos := caskPos
      used := x.blockPos - caskPos }
    match casks.getLast? with
    | some c => s.putDesc c (s.laneDesc l noCask false)
    | none => s

/-! ### LOCATOR and END, R149 to R151 -/

/-- Entries of a lane's LOCATOR. -/
def LaneSt.locSize (x : LaneSt) : Nat := x.locRows * 342

/-- The 8 bytes of a LOCATOR entry. -/
def LocEnt.bytes (e : LocEnt) : List Byte := le 8 (e.pos % 2 ^ 40 + e.type * 2 ^ 40 + b2n e.usesRef * 2 ^ 48 + b2n e.raw * 2 ^ 49)

/-- The body of a lane's LOCATOR with the entries filled so far. -/
def locBody (l : Nat) (x : LaneSt) : List Byte :=
  le 1 1 ++ le 1 l ++ le 1 x.locY0 ++ le 1 x.locRows ++ le 1 18 ++ le 1 19 ++ le 1 8 ++ zeros 1 ++ le 4 x.loc.length ++ zeros 4 ++
  (List.range x.locSize).flatMap (fun i =>
    match x.loc.find? (fun e => e.idx == i) with
    | some e => e.bytes
    | none => zeros 8)

/-- The LOCATOR slot of a record (R149), none for a type that is never entered. -/
def locSlot (type offset : Nat) : Option Nat :=
  if type == 1 then some 0
  else if type == 3 then some (1 + offset / 32)
  else if type == 2 then some (3 + offset / 4096)
  else none

/-- The index of a tile's slot in a lane's LOCATOR. -/
def locIndex (l y0 rows t slot : Nat) : Option Nat :=
  let west := 16 * (l / 2)
  let x := colOf t + 1
  if west ≤ x && x ≤ west + 17 && y0 ≤ rowOf t && rowOf t < y0 + rows && slot < 19 then
    some (((rowOf t - y0) * 18 + (x - west)) * 19 + slot)
  else none

/-- Opens a lane's stream: the LOCATOR header and the space of its entries go to stream position 0 (R150). -/
def Hub.openStream (s : Hub) (l : Nat) (rows : Nat) : Bool × Hub :=
  let x := s.lane l
  if x.isOpen then (true, s)
  else
    let y0 := (rectOf s.harv.rect).y0
    let x : LaneSt := { x with locRows := rows, locY0 := y0, loc := [], limit := s.rd (F.PRESS_VERIFY_LIMIT.lane l) }
    let body := locBody l x
    match ((s.wr (F.PRESS_VERIFY_FAILS.lane l) 0).setLane l x).laneAppend l (block BlkKind.LOCATOR 0 body.length body body) false with
    | (true, s) => (true, (s.setLane l { s.lane l with isOpen := true }).setReg (R.PRESS_STREAM + l * 0x1000) s.harv.vintage)
    | (false, s) => (false, s)

/-- Enters a complete record, the first of its slot (R149). -/
def Hub.locate (s : Hub) (l : Nat) (r : Rec) (pos : Nat) (usesRef raw : Bool) : Hub :=
  let x := s.lane l
  match (locSlot r.type r.offset).bind (locIndex l x.locY0 x.locRows r.tile) with
  | none => s
  | some i =>
    if x.loc.any (fun e => e.idx == i) then s
    else
      let e : LocEnt := { idx := i, pos := pos, type := r.type, usesRef := usesRef, raw := raw }
      (s.setLane l { x with loc := x.loc ++ [e] }).streamPut l 2 (32 + 8 * i) e.bytes

/-- Closes a lane's stream: END, the finished LOCATOR, the last descriptor (R151, R156); unused reserves return to the pool (R154). -/
def Hub.closeStream (s : Hub) (l : Nat) : Hub :=
  let x := s.lane l
  let s := if !x.isOpen then s
    else
      let body := le 8 (x.extPos.getD 0xFFFFFFFFFFFFFFFF) ++ le 4 x.blocks ++ le 4 x.recs
      let s := (s.laneAppend l (block BlkKind.END 0 16 body body) true).2
      let lb := locBody l (s.lane l)
      let s := s.streamPut l (lb.length / s.caskSize + 3) 0 (block BlkKind.LOCATOR 0 lb.length lb lb)
      match (s.lane l).casks.getLast? with
      | some c => s.putDesc c (s.laneDesc l noCask true)
      | none => s
  let y := s.lane l
  let s := s.giveBack (y.resv ++ y.tail)
  s.setLane l { s.lane l with isOpen := false, resv := [], tail := [], cur := none, held := false, refWait := false, refRec := none }

/-! ### Reference records, R146 to R148 -/

/-- The cask map of a reference vintage's lane streams (R148): the first stream position and the cask, lane by lane, at most 16,384 of them.
(DESIGN CHOICE, log entry 323) -/
def Hub.refMapOf (s : Hub) (ref : Nat) : List (Nat × Nat × Nat) :=
  match if ref == 0 then none else (s.findVintage ref).bind (fun p => s.manifestOf s.geo p.2.manifest) with
  | none => []
  | some m =>
    ((List.range (Man.lanes m)).flatMap (fun l =>
      match if (Man.lane m l).1 == 0 then none else s.chain s.geo s.geo.pool (s.geo.caskOf (Man.lane m l).1) with
      | some ch => ch.zipIdx.map (fun c => (l, c.2 * s.caskSize, c.1.1))
      | none => [])).take 16384

/-- The bytes of a reference lane's stream that the cask map reaches. -/
def Hub.refStream (s : Hub) (map : List (Nat × Nat × Nat)) (l len : Nat) : List Byte :=
  ((map.filter (fun c => c.1 == l)).flatMap (fun c => s.mem (s.geo.caskAt c.2.2) s.caskSize)).take len

/-- The fetch of a record's reference record (R146, R148): whether it fails because a block of it does not decode and pass its CHECK, and the
reference record's payload where it exists. A record that lies beyond the cask map is absent. -/
def Hub.refFetch (s : Hub) (map : List (Nat × Nat × Nat)) (ref type tile offset len : Nat) : Bool × Option (List Byte) :=
  match (s.findVintage ref).bind (fun p => s.manifestOf s.geo p.2.manifest) with
  | none => (false, none)
  | some m =>
    let l := bitsOf (leAt m (Man.tileAt m tile) 8) 40 4
    let pressed := (Man.lane m l).2.2
    let st := s.refStream map l pressed
    match if st.length < 32 then none else (locSlot type offset).bind (locIndex l (leAt st 18 1) (leAt st 19 1) tile) with
    | none => (false, none)
    | some i =>
      let e := leAt st (32 + 8 * i) 8
      if bitsOf e 40 8 != type || bitAt e 48 then (false, none)
      else
        let out := decStream st (fun _ => .error Dec.BAD_REF) (st.length / 17 + 1) (bitsOf e 0 40) none []
        match out.recs.head? with
        | none => (!(st.length < pressed && out.fail.map Prod.fst == some Dec.SEQUENCE), none)
        | some r =>
          let p := r.bytes.drop 16
          if leAt r.bytes 0 1 == type && bitsOf (leAt r.bytes 2 2) 0 14 == tile && leAt r.bytes 9 3 == offset &&
              leAt r.bytes 6 3 == len && p.length == len && !r.usesRef then (false, some p)
          else (false, none)

/-- A record may have a reference: a tile record of a DELTA vintage, REF_EN set (R147, R164). (DEDUCED, log entry 348) -/
def Hub.mayRef (s : Hub) (l : Nat) (r : Rec) : Bool :=
  s.harv.ref != 0 && [1, 2, 3].contains r.type && s.flag (F.PRESS_CTRL_REF_EN.lane l)

/-- A record without a reference: REF_UNAVAILABLE once per lane and vintage (R148). -/
def Hub.noReference (s : Hub) (l : Nat) : Hub :=
  let s := s.bump (F.PRESS_REF_STAT_MISS.lane l) 1
  if (s.lane l).refMiss then s
  else (s.setLane l { s.lane l with refMiss := true }).raiseOf Ev.REF_UNAVAILABLE l

/-- A reference fetch failed (R148, R163). -/
def Hub.refFailed (s : Hub) (l : Nat) : Hub :=
  ((s.err (Er.PRESS_REF_FETCH.lane l)).bump (F.PRESS_REF_STAT_FETCH_ERR.lane l) 1).raiseOf Ev.REF_FETCH_ERROR l

/-- The reference fetch of the record in the encoder completes or fails (R148): `ok` is the memory's answer; what it brought may still fail its
CHECK. -/
def Hub.refFetchDone (s : Hub) (l : Nat) (ok : Bool) : Hub :=
  let x := s.lane l
  match x.cur with
  | some r =>
    if !x.refWait then s
    else
      let s := s.setLane l { x with refWait := false, refRec := none }
      let got := s.refFetch s.harv.refMap s.harv.ref r.type r.tile r.offset r.payload.length
      if !ok || got.1 then (s.refFailed l).noReference l
      else
        match got.2 with
        | some p => s.setLane l { s.lane l with refRec := some p }
        | none => s.noReference l
  | none => s

/-! ### The encoder's work -/

/-- A record's bytes, header included. -/
def Hub.recBytes (s : Hub) (r : Rec) : List Byte := recHeader r.type r.flags r.tile (s.harv.vintage % 65536) r.offset r.payload ++ r.payload

/-- A record enters a free encoder. -/
def Hub.beginRec (s : Hub) (l : Nat) (r : Rec) : Hub :=
  let x := s.lane l
  s.setLane l { x with cur := some r, curPos := 0, curStart := x.pos, curUsesRef := false, curRaw := false, refRec := none,
                       refWait := s.mayRef l r }

/-- The lane takes the next complete record from its entry queues, round-robin (R114). -/
def Hub.laneTake (s : Hub) (l : Nat) : Hub :=
  let x := s.lane l
  if x.cur.isSome || s.harv.abortWait then s
  else
    let canes := s.laneCanes l
    let order := (countFrom x.rr canes.length).map (fun i => i % canes.length)
    match order.find? (fun i => !(s.cane (nth canes i 0)).queue.isEmpty) with
    | none => s
    | some i =>
      let c := nth canes i 0
      let q := s.cane c
      match q.queue with
      | [] => s
      | r :: rest =>
        let s := s.setCane c { q with queue := rest }
        let s := s.setLane l { s.lane l with rr := (i + 1) % canes.length }
        s.beginRec l r

/-- Where the block in the encoder ends: record end or 262,144 bytes, or earlier for a flush (R142). -/
def blockStop (len at_ : Nat) (flush : Option Nat) : Nat :=
  let stop := least len (at_ + blockMax)
  match flush with
  | some n => if 0 < n && at_ + n < stop then at_ + n else stop
  | none => stop

/-- The block the encoder has in hand; `bad` says that verification failed. -/
def Hub.curBlock (s : Hub) (l : Nat) (flush : Option Nat) (bad : Bool) : Option DataBlock :=
  let x := s.lane l
  x.cur.map (fun r =>
    let bytes := s.recBytes r
    let stop := blockStop bytes.length x.curPos flush
    let ref := if x.curPos == 0 && stop == bytes.length then x.refRec else none
    dataBlock bytes ref x.curPos stop (flush.isSome && stop != blockStop bytes.length x.curPos none)
      (bad || x.mode == 3 || s.flag (F.PRESS_CTRL_FORCE_RAW.lane l)))

/-- Counts of a written data block. -/
def Hub.countBlock (s : Hub) (l : Nat) (b : DataBlock) (raw : Nat) : Hub :=
  let s := s.bump (F.PRESS_BLOCKS_COUNT.lane l) 1
  let s := if b.raw then s.bump (F.PRESS_RAW_BLOCKS_COUNT.lane l) 1 else s
  let s := if b.usesRef then s.bump (F.PRESS_REF_BLOCKS_COUNT.lane l) 1 else s
  s.bump64 (R.PRESS_IN_LO + l * 0x1000) raw

/-- A verification failure (R159): counted; at PRESS_VERIFY.LIMIT, as its stream latched it (R165), the lane goes RAW_ONLY. -/
def Hub.verifyFail (s : Hub) (l : Nat) (ecc : Bool) : Hub :=
  let s := if ecc then s.err (Er.PRESS_BUF_ECC.lane l) else s
  let s := ((s.err (Er.PRESS_VERIFY.lane l)).bump (F.PRESS_VERIFY_FAILS.lane l) 1).raiseOf Ev.VERIFY_FAIL l
  let limit := if (s.lane l).isOpen then (s.lane l).limit else s.rd (F.PRESS_VERIFY_LIMIT.lane l)
  let limit := if limit == 0 then 1 else limit
  if limit ≤ s.rd (F.PRESS_VERIFY_FAILS.lane l) && (s.lane l).mode == 1 then
    (s.setLane l { s.lane l with mode := 3 }).raiseOf Ev.LANE_RAW_ONLY l
  else s

/-- The outcome of a block's verification where no command reports it: that of a block ended by FLUSH_BLOCK, by an ABORT or an early end, or of a GAP
record of an early end. A free value. (DESIGN CHOICE, log entry 322) -/
def Hub.verdict (s : Hub) (l : Nat) (b : Option DataBlock) : Bool × Hub :=
  match b with
  | some b =>
    if (s.lane l).eccDue then (true, (s.setLane l { s.lane l with eccDue := false }).verifyFail l true)
    else if b.raw || !s.flag (F.PRESS_CTRL_VERIFY_EN.lane l) then (false, s)
    else if s.drawWord.1.getLsbD 0 then (true, s.drawWord.2.verifyFail l false)
    else (false, s.drawWord.2)
  | none => (false, s)

/-- What became of a block: written, with the record it completed; or held for want of a cask. -/
inductive Wrote where
  | nothing
  | held
  | block (done : Option Rec)
deriving DecidableEq, Repr

/-- Writes the block in the encoder (R142, R150, R154). The first block of a tile's first record fixes the tile table's offset. (DESIGN CHOICE, log entry 343) -/
def Hub.writeBlock (s : Hub) (l : Nat) (flush : Option Nat) (bad tail : Bool) : Wrote × Hub :=
  let x := s.lane l
  match x.cur, s.curBlock l flush bad with
  | some r, some b =>
    match s.laneAppend l b.bytes tail with
    | (false, s) => (.held, s)
    | (true, s) =>
      let bytes := s.recBytes r
      let stop := blockStop bytes.length x.curPos flush
      let s := s.countBlock l b (stop - x.curPos)
      let cap := s.harv.caps.get r.tile {}
      let isTile := ([1, 2, 3].contains r.type || (r.type == 5 && !bitAt (leAt r.payload 1 1) 3)) && s.harv.caps.keys.contains r.tile
      let s := if isTile && x.curPos == 0 && !cap.placed then
          { s with harv := { s.harv with caps := s.harv.caps.set r.tile { cap with placed := true, offset := x.raw, lane := l } } }
        else s
      let start := if x.curPos == 0 then (s.lane l).blockPos else x.curStart
      let usesRef := x.curUsesRef || b.usesRef
      let raw := x.curRaw || b.raw
      let y := s.lane l
      let ext := if (r.type == 4 || r.type == 7) && x.curPos == 0 then some (y.extPos.getD start) else y.extPos
      let y := { y with blocks := y.blocks + 1, extPos := ext }
      if stop == bytes.length then
        let s := s.setLane l { y with cur := none, curPos := 0, recs := y.recs + 1, raw := y.raw + bytes.length, refRec := none,
                                      last := some (r.type, r.tile, r.offset) }
        let s := s.bump64 R.HARV_RAW_LO bytes.length
        (.block (some r), s.locate l r start usesRef raw)
      else
        let s := s.setLane l { y with curPos := stop, curStart := start, curUsesRef := usesRef, curRaw := raw }
        (.block none, s)
  | _, _ => (.nothing, s)

/-! ### PRESS_CMD, R161 -/

/-- Writes PRESS_CMD_STATUS of a lane. -/
def Hub.pressStatus (s : Hub) (l op status : Nat) : Hub :=
  ((s.wr (F.PRESS_CMD_STATUS_STATUS.lane l) status).wr (F.PRESS_CMD_STATUS_OP.lane l) op).wr (F.PRESS_CMD_STATUS_DONE.lane l) 1

/-- The status of a PRESS_CMD. -/
def Hub.pressCheck (s : Hub) (l op : Nat) : Nat :=
  if s.isSafe then St.FAULT
  else if (op == 2 || op == 3) && s.harv.op != 0 then St.BUSY
  else if op == 2 && s.retired (partner l) then St.LIMIT
  else if op == 3 && s.retired l && !(s.lane l).bistOk then St.FAULT
  else if op == 0 || 4 < op then St.BAD_ARG
  else St.OK

/-- Retires a lane: its partner serves its queues from the next harvest or decant on. -/
def Hub.retireLane (s : Hub) (l : Nat) : Hub :=
  if s.retired l then s
  else (s.setLane l { s.lane l with mode := 4, bistOk := false }).raiseOf Ev.LANE_RETIRED l

/-- Clears a lane's counters (R164). (DEDUCED, log entry 344) -/
def Hub.clearPress (s : Hub) (l : Nat) : Hub :=
  let o := l * 0x1000
  let s := (s.setReg64 (R.PRESS_IN_LO + o) 0).setReg64 (R.PRESS_OUT_LO + o) 0
  let s := doEach [R.PRESS_BLOCKS, R.PRESS_RAW_BLOCKS, R.PRESS_REF_BLOCKS, R.PRESS_REF_STAT, R.PRESS_STALL] s (fun s a => s.setReg (a + o) 0)
  s.wr (F.PRESS_VERIFY_FAILS.lane l) 0

/-- A PRESS_CTRL write takes effect only while the lane is IDLE or RETIRED (R165). -/
def Hub.pressCtrlWrite (s : Hub) (r : Req) (l v : Nat) : Hub :=
  let m := (s.lane l).mode
  if m == 0 || m == 4 then s.setReg (R.PRESS_CTRL + l * 0x1000) (v % 8)
  else s.errAt r (R.PRESS_CTRL + l * 0x1000)

end Sys2Proof.Machine
end

