-- ==== Sys2Proof/Machine/Harvest.lean ====
section
/-! DEFINITION. The harvest engine (04_harvest.md, R100 to R120, R126 to R129): acceptance, setup, the cane cursors, gaps, external regions and
the trace snapshot, the early end, and the manifest. -/

namespace Sys2Proof.Machine

/-! ### Requests -/

/-- A harvest request from any path. `req` is the REQUESTER code of R118. -/
structure HarvReq where
  a : CorkArgs
  sel : Nat
  rect : Nat
  range : Nat
  vintage : Nat
  ref : Nat
  snap : Nat
  req : Nat
  cause : Nat := 0
  issuer : Option Nat := none
  txn : Option Nat := none
  xsrc : Option (Nat × Nat) := none
  policySlot : Option Nat := none
  peerTag : Option Nat := none
deriving DecidableEq, Repr

/-- HARV_SEL fields (R132). -/
def Sel.stateOnly (v : Nat) : Bool := bitAt v 0
def Sel.rectEn (v : Nat) : Bool := bitAt v 1
def Sel.rangeEn (v : Nat) : Bool := bitAt v 2
def Sel.ext (v : Nat) : Nat := bitsOf v 3 2
def Sel.traceSnap (v : Nat) : Bool := bitAt v 5
def Sel.delta (v : Nat) : Bool := bitAt v 6
def Sel.pin (v : Nat) : Bool := bitAt v 7
def Sel.crash (v : Nat) : Bool := bitAt v 8

/-- START and END of HARV_RANGE. -/
def Rng.first (v : Nat) : Nat := bitsOf v 0 10
def Rng.last (v : Nat) : Nat := bitsOf v 16 10

/-- The request the HARV page's argument registers spell. -/
def Hub.harvRegReq (s : Hub) (req : Nat) : HarvReq :=
  { a := scopeOf (s.reg R.HARV_SCOPE), sel := s.reg R.HARV_SEL, rect := s.reg R.HARV_RECT, range := s.reg R.HARV_RANGE,
    vintage := s.reg R.HARV_VINTAGE, ref := s.reg R.HARV_REF_VINTAGE, snap := s.rd F.HARV_TRACE_SNAP_LEN_MIB, req := req }

/-- Writes the command fields of HARV_STATUS; DONE reads 0 while a harvest or decant is in progress. -/
def Hub.harvStatus (s : Hub) (op status : Nat) (done : Bool) : Hub :=
  ((s.wr F.HARV_STATUS_STATUS status).wr F.HARV_STATUS_OP op).wr F.HARV_STATUS_DONE (b2n done)

/-- Shows a phase in HARV_STATUS. -/
def Hub.harvPhase (s : Hub) (p : Nat) : Hub := s.wr F.HARV_STATUS_PHASE p

/-! ### Refusals, R126 -/

/-- Every domain of the scope is SECURE and none is covered by a grant. -/
def Hub.allSecret (s : Hub) (slots : List Nat) : Bool := !slots.isEmpty && slots.all s.secureUncovered

/-- FED and XPKG against the rules of R62, an undefined KIND, or a scope that names nothing. -/
def Hub.scopeBad (s : Hub) (a : CorkArgs) : Bool :=
  let slots := s.scopeSlots a
  3 < a.kind || ((a.kind == 0 || a.kind == 2) && (a.fed || a.xpkg)) || (a.kind == 3 && a.xpkg) || (a.xpkg && !a.fed) ||
  (a.kind == 0 && slots.isEmpty) || (a.kind == 1 && slots.isEmpty && !a.fed)

/-- The manifest of a vintage of the own cellar. -/
def Hub.vintageManifest (s : Hub) (v : Nat) : Option (List Byte) :=
  match s.findVintage v with
  | some (_, x) => if x.state == 2 then s.manifestOf s.geo x.manifest else none
  | none => none

/-- The tile-table word of a tile. -/
def Man.tile (m : List Byte) (t : Nat) : Nat := leAt m (Man.tileAt m t) 8

/-- The reference is in the cellar and covers a tile of the scope. -/
def Hub.refCovers (s : Hub) (ref : Nat) (tiles : List Nat) : Bool :=
  match s.vintageManifest ref with
  | some m => tiles.any (fun t => colOf t < Man.cols m && bitsOf (Man.tile m t) 48 3 != 0)
  | none => false

/-- The tiles of a scope: those of its domains, and the tiles in no context of a PARTITION or FIELD scope. -/
def Hub.harvTiles (s : Hub) (a : CorkArgs) : List Nat :=
  let slots := s.scopeSlots a
  let loose := s.scopeLoose a
  s.gridTiles.filter (fun t => ((s.tile t).st == .inContext && slots.contains (s.tile t).slot) || loose.contains t)

/-- Row 3 of R126 for a HARVEST. (DEDUCED, log entry 81) -/
def Hub.harvBadArg (s : Hub) (h : HarvReq) : Bool :=
  s.scopeBad h.a || (rectOf h.rect).bad || Rng.last h.range < Rng.first h.range ||
  (Sel.stateOnly h.sel && (Sel.rangeEn h.sel || Sel.ext h.sel != 0)) ||
  (h.vintage != 0 && (s.findVintage h.vintage).isSome) ||
  (Sel.delta h.sel && (h.ref == 0 || !s.refCovers h.ref (s.harvTiles h.a)))

/-- Federation or the cross-package domain is missing (row 4). -/
def Hub.fedMissing (s : Hub) (a : CorkArgs) : Bool :=
  (a.xpkg && (!s.isLead || !s.flag F.TIME_STATE_XPKG_OK)) || (a.fed && (!s.flag F.FED_CTRL_EN || s.fed.joining))

/-! ### What setup reserves, R119, R154 and R170 -/

/-- The region table entries of slots: index, slot, declared mode, base, length (R116). (DEDUCED, log entry 85) -/
def Hub.regionsOf (s : Hub) (slots : List Nat) : List RegionCap :=
  ((List.range 256).filter (fun i => s.rdB F.HARV_REGION_CTRL_VALID i == 1 && slots.contains (s.rdB F.HARV_REGION_CTRL_SLOT i))).map
    (fun i =>
      let len := s.reg64B R.HARV_REGION_LEN_LO i / 64 * 64
      let n := ceilDiv len mebi
      { index := i, slot := s.rdB F.HARV_REGION_CTRL_SLOT i, mode := s.rdB F.HARV_REGION_CTRL_MODE i, pieces := n, left := n,
        base := s.reg64B R.HARV_REGION_BASE_LO i / 64 * 64, len := len })

/-- The regions with the mode EXT gives them: 0 captured, 1 digest, 2 omitted. -/
def applyExt (ext : Nat) (rs : List RegionCap) : List RegionCap :=
  rs.map (fun r =>
    let m := match ext with
      | 0 => 2
      | 1 => r.mode
      | 2 => 1
      | _ => 0
    { r with mode := m, pieces := if m == 0 then r.pieces else 0, left := if m == 0 then r.pieces else 0,
             done := m == 2 || r.len == 0 })

/-- Largest size of the MANIFEST record for a scope (R119). -/
def Hub.manifestMax (s : Hub) (slots tiles regions : Nat) : Nat :=
  let entries := s.rd F.GLB_GRID_COLUMNS * s.rd F.GLB_GRID_ROWS
  16 + 128 + 32 * slots + 32 * 16 + 64 * regions + 16 * tiles + roundUp (8 * entries) 16

/-- Columns whose entry queues a lane may carry: its pair's, and a bypassed neighbour's on each side (R154). -/
def lanePair (l col : Nat) : Bool := 16 * (l / 2) ≤ col + 1 && col ≤ 16 * (l / 2) + 16

/-- Tiles of the columns whose entry queues a lane may carry (R154). -/
def Hub.laneTiles (s : Hub) (l : Nat) : Nat :=
  ((List.range (s.rd F.GLB_GRID_COLUMNS)).filter (lanePair l)).length * s.rd F.GLB_GRID_ROWS

/-- Casks of a lane's LOCATOR. -/
def Hub.locCasks (s : Hub) (rows : Nat) : Nat := ceilDiv (32 + 8 * 342 * rows) s.caskSize

/-- Casks of a lane's tail reserve for `n` GAP records. -/
def Hub.tailCasks (s : Hub) (n : Nat) : Nat := ceilDiv (32 + 48 * n) s.caskSize

/-- Lanes in service. -/
def Hub.lanesUp (s : Hub) : List Nat := (List.range 16).filter (fun l => !s.retired l)

/-- Lanes with a column in scope. -/
def Hub.lanesOf (s : Hub) (tiles : List Nat) : List Nat := s.lanesUp.filter (fun l => tiles.any (fun t => s.laneOf (colOf t) == l))

/-- Casks a harvest reserves at setup (R170). -/
def Hub.reservation (s : Hub) (slots : Nat) (tiles : List Nat) (regions rows : Nat) : Nat :=
  ceilDiv (s.manifestMax slots tiles.length regions) s.caskSize +
  sumNat ((s.lanesOf tiles).map (fun l => s.locCasks rows + s.tailCasks (s.laneTiles l + regions)))

/-- HARV_RECT as applied: the full grid when not selected. -/
def Hub.rectApplied (s : Hub) (h : HarvReq) : Nat :=
  if Sel.rectEn h.sel then h.rect else (s.rd F.GLB_GRID_COLUMNS - 1) * 0x10000 + (s.rd F.GLB_GRID_ROWS - 1) * 0x1000000

/-- HARV_RANGE as applied. -/
def rangeApplied (h : HarvReq) : Nat := if Sel.rangeEn h.sel then h.range else 0x03FF0000

/-- Rows of a rectangle inside the grid. -/
def Hub.rectRows (s : Hub) (w : Nat) : Nat :=
  let r := rectOf w
  least (r.y1 + 1) (s.rd F.GLB_GRID_ROWS) - r.y0

/-- The tiles of the scope the selection takes. -/
def Hub.selTiles (s : Hub) (h : HarvReq) : List Nat := (s.harvTiles h.a).filter (rectOf (s.rectApplied h)).has

/-- The free casks suffice to let in the request (R170). -/
def Hub.admits (s : Hub) (h : HarvReq) : Bool :=
  let slots := s.scopeSlots h.a
  let need := s.reservation slots.length (s.harvTiles h.a) (s.regionsOf slots).length (s.rectRows (s.rectApplied h))
  let minCasks := s.rd F.CELL_ADMIT_CASKS
  (if need < minCasks then minCasks else need) ≤ s.freeCasks && s.freeEntry.isSome

/-- The status of a HARVEST by the rows of R126. -/
def Hub.harvCheck (s : Hub) (h : HarvReq) : Nat :=
  let slots := s.scopeSlots h.a
  if s.isSafe then St.FAULT
  else if s.scrapped || s.allSecret slots then St.DENIED
  else if s.harvBadArg h then St.BAD_ARG
  else if s.fedMissing h.a then St.UNSUPPORTED
  else if s.harv.op != 0 || slots.any s.slotBusy then St.BUSY
  else if slots.any (fun z => (s.dom z).st != .stopped) then St.NOT_STOPPED
  else if !s.cellReady || (s.rd F.CELL_CTRL_POLICY == 0 && !s.admits h) then St.NO_SPACE
  else St.OK

/-! ### Acceptance -/

/-- The first free vintage number from `v` (R100). -/
def Hub.freeNumber (s : Hub) : Nat → Nat → Nat
  | 0, v => v
  | n + 1, v => if (s.findVintage v).isSome || v == 0 then s.freeNumber n (nextNumber v) else v

/-- The vintage number of a request; an assigned one moves HARV_NEXT_VINTAGE on. -/
def Hub.takeNumber (s : Hub) (v : Nat) : Nat × Hub :=
  if v != 0 then (v, s)
  else
    let n := s.freeNumber 1026 (s.reg R.HARV_NEXT_VINTAGE)
    (n, s.setReg R.HARV_NEXT_VINTAGE (nextNumber n))

/-- The 12 argument bytes of HARVEST and of HARVEST_ARGS (R333). -/
def harvArgs4 (h : HarvReq) (number : Nat) : List Byte := le 4 number ++ le 2 h.sel ++ le 2 h.a.tag ++ le 4 h.ref
def harvArgsE (h : HarvReq) : List Byte := le 4 h.rect ++ le 4 h.range ++ le 1 h.snap ++ le 1 h.a.kind ++ zeros 2

/-- Sends the harvest to every member (R128): HARVEST_ARGS, then HARVEST under the same TXN. -/
def Hub.harvMembers (s : Hub) (h : HarvReq) (number : Nat) : Hub :=
  doEach s.members s (fun s m =>
    let s := s.sendTo m Ft.CMD (cmdPayload s.hubAddr Op.HARVEST_ARGS s.newTxn (harvArgsE h))
    s.sendRequest m Op.HARVEST (harvArgs4 h number) .unit number)

/-- Accepts a harvest: the vintage number, HARV_STARTED, phase 0; a federated one goes to the members, a cross-package one to the TDC. -/
def Hub.harvAccept (s : Hub) (h : HarvReq) : Hub :=
  let slots := s.scopeSlots h.a
  let num := s.takeNumber h.vintage
  let s := num.2
  let number := num.1
  let first := minNat h.a.slot slots
  let crash := Sel.crash h.sel || h.policySlot.isSome || h.peerTag.isSome
  let tiles := s.harvTiles h.a
  let sel := s.selTiles h
  let caps : Tab TileCap := ⟨tiles.map (fun t =>
    (t, { slot := if (s.tile t).st == .inContext then some (s.tile t).slot else none, selected := sel.contains t }))⟩
  let s := { s with harv := {
    op := 1, req := h.req, policySlot := h.policySlot, peerTag := h.peerTag, cause := h.cause, issuer := h.issuer.getD s.hubAddr,
    txn := h.txn, xsrc := h.xsrc, federated := h.a.fed || h.txn.isSome || h.xsrc.isSome, sel := h.sel, rect := s.rectApplied h,
    range := rangeApplied h, snapLen := if h.snap == 0 then 1 else h.snap, slots := slots, denied := slots.filter s.secureUncovered,
    vintage := number, ref := if Sel.delta h.sel then h.ref else 0, openGcn := s.now, openEpoch := s.epoch,
    pinAsked := Sel.pin h.sel || (crash && s.flag F.CELL_CTRL_AUTO_PIN_CRASH), crash := crash, first := first, caps := caps,
    regions := applyExt (Sel.ext h.sel) (s.regionsOf slots), memLeft := if h.a.fed then s.members else [],
    xid := s.link.nextXid, pkgLeft := if h.a.xpkg then (maskList 16 (s.rd F.FED_DOMAIN_PACKAGES)).filter (· != packageOf s.hubAddr) else [],
    argsFrom := s.harv.argsFrom } }
  let s := s.setReg R.HARV_CUR_VINTAGE number
  let s := s.setReg64 R.HARV_OPEN_GCN_LO s.now
  let s := ((s.setReg R.HARV_PROGRESS 0).setReg64 R.HARV_RAW_LO 0).setReg64 R.HARV_PRESSED_LO 0
  let s := (s.harvPhase 1).issuedMeta 0
  let s := s.raiseOf Ev.HARV_STARTED first
  let s := if h.a.fed then s.harvMembers h number else s
  if h.a.xpkg then
    let s := { s with link := { s.link with nextXid := (s.link.nextXid + 1) % 2 ^ 32 } }
    s.portSend (message Mt.XPKG 0 0 s.hubAddr (xpkgBody 2 s.hubAddr s.harv.xid (harvArgs4 h number ++ harvArgsE h)))
  else s

/-- A harvest refused for space raises HARV_REFUSED_SPACE (R176) and shows FULL (R192). -/
def Hub.harvRefused (s : Hub) (st : Nat) (h : HarvReq) : Hub :=
  if st == St.NO_SPACE then (s.wr F.CELL_STATE_FULL 1).raiseOf Ev.HARV_REFUSED_SPACE (minNat h.a.slot (s.scopeSlots h.a)) else s

/-- Runs a harvest request; answers its acceptance status. A refusal for space raises HARV_REFUSED_SPACE (R176). -/
def Hub.harvIssue (s : Hub) (h : HarvReq) : Nat × Hub :=
  let st := s.harvCheck h
  if st == St.OK then (st, s.harvAccept h)
  else (st, s.harvRefused st h)

/-- A HARVEST written to HARV_CMD by a requester. -/
def Hub.harvest (s : Hub) (r : Req) : Hub :=
  let res := s.harvIssue (s.harvRegReq (reqCode r))
  let s := res.2.harvStatus 1 res.1 (res.1 != St.OK && (s.harv.op == 0 || s.flag F.HARV_STATUS_DONE))
  if res.1 != St.OK && s.flag F.HARV_STATUS_DONE then s.wr F.HARV_STATUS_FINAL res.1 else s

def Hub.cursor (s : Hub) (c : Nat) : CaneCur := s.harv.cur.get c {}
def Hub.setCursor (s : Hub) (c : Nat) (k : CaneCur) : Hub := { s with harv := { s.harv with cur := s.harv.cur.set c k } }
def Hub.cap (s : Hub) (t : Nat) : TileCap := s.harv.caps.get t {}
def Hub.setCap (s : Hub) (t : Nat) (c : TileCap) : Hub := { s with harv := { s.harv with caps := s.harv.caps.set t c } }

/-- INCONSISTENT of a tile (R105). -/
def Hub.inconsistent (s : Hub) (t : Nat) : Bool :=
  match (s.cap t).slot with
  | some z => (s.dom z).final == St.FAULT || (s.dom z).final == St.TIMEOUT || (s.dom z).xpkgLate
  | none => false

/-- The SRAM pieces of the selection: offset and length of each. -/
def pieces (range : Nat) : List (Nat × Nat) :=
  (List.range 16).filterMap (fun p =>
    let lo := if Rng.first range < 64 * p then 64 * p else Rng.first range
    let hi := least (Rng.last range) (64 * p + 63)
    if lo ≤ hi then some (64 * lo, 64 * (hi - lo + 1)) else none)

/-- SRAM pieces of the selection as a mask, from piece number `k` of the selection on. -/
def pieceMask (range k : Nat) : Nat := listMask (((pieces range).drop k).map (fun p => p.1 / 4096))

/-! ### Gaps, R108 -/

/-- GAP reasons. -/
def Gp.BAD_TILE : Nat := 1
def Gp.OUT_OF_SERVICE : Nat := 2
def Gp.DENIED : Nat := 3
def Gp.CANE_PARITY : Nat := 4
def Gp.SPUR_TIMEOUT : Nat := 5
def Gp.LADDER : Nat := 6
def Gp.TAKEOVER : Nat := 7
def Gp.NO_SPACE : Nat := 8
def Gp.ABORTED : Nat := 9
def Gp.REGION_ERROR : Nat := 10
def Gp.WRITE_ERROR : Nat := 11

/-- MISSING bits. -/
def Miss.TCS : Nat := 1
def Miss.DELIVERY : Nat := 2
def Miss.SRAM : Nat := 4
def Miss.EXTREGION : Nat := 8

/-- The GAP record of a gap decided now, with its FLAGS (R105). -/
def Hub.gapRec (s : Hub) (id reason missing line flags : Nat) : Rec :=
  { type := 5, flags := flags, tile := id, offset := 0,
    payload := le 1 reason ++ le 1 missing ++ le 2 line ++ zeros 4 ++ le 8 s.now }

/-- Enters a gap in the gap table, merged into the entry of its tile or region if there is one; HARV_GAP for the first of each reason. -/
def Hub.noteGap (s : Hub) (region : Bool) (id reason missing line : Nat) : Hub :=
  let h := s.harv
  let old := h.gaps.any (fun g => g.region == region && g.id == id)
  let gaps := if old then
      h.gaps.map (fun g => if g.region == region && g.id == id then { g with missing := g.missing ||| missing, line := least g.line line }
        else g)
    else h.gaps ++ [{ region := region, id := id, reason := reason, missing := missing, line := line, gcn := s.now }]
  let seen := h.gapSeen.contains reason
  let h := { h with gaps := gaps, gapSeen := if seen then h.gapSeen else h.gapSeen ++ [reason] }
  let h := if region then h else
    { h with caps := h.caps.set id { h.caps.get id {} with gap := true } }
  let s := { s with harv := h }
  let s := s.wr F.HARV_PROGRESS_GAPS gaps.length
  if seen then s else if region then s.raiseOther Ev.HARV_GAP id else s.raiseOf Ev.HARV_GAP id

/-- A framed record joins the entry queue of a cane (R114). -/
def Hub.queuePut (s : Hub) (q : Nat) (r : Rec) : Hub :=
  let x := s.cane q
  let fill := sumNat ((x.queue ++ [r]).map (fun r => if r.type ≤ 3 then r.payload.length else 0))
  s.setCane q { x with queue := x.queue ++ [r], peak := if x.peak < fill then sat 15 fill else x.peak }

/-- Bytes in an entry queue. -/
def CaneSt.fill (x : CaneSt) : Nat := sumNat (x.queue.map (fun r => if r.type ≤ 3 then r.payload.length else 0))

/-- A gap of a tile on its column's cane: the table entry, and the GAP record where the missing records would have stood. `pieces` are the SRAM
pieces it stands for; `last` says that no record of the tile follows it. -/
def Hub.tileGap (s : Hub) (t reason missing line pieces : Nat) (last : Bool) : Hub :=
  let q := s.caneFor (colOf t)
  let s := s.queuePut q (s.gapRec t reason missing line (b2n last + 4 * b2n (s.inconsistent t)))
  let s := s.noteGap false t reason missing line
  let c := s.cap t
  let s := s.setCap t { c with gapMiss := c.gapMiss ||| missing, gapPieces := c.gapPieces ||| pieces }
  s.laneTake (s.servedBy (q / 8))

/-! ### The cane cursors, R109 and R115 -/

/-- The reason a tile cannot be captured at all, if there is one. -/
def Hub.shut (s : Hub) (t : Nat) : Option Nat :=
  let x := s.tile t
  if x.bad then some Gp.BAD_TILE
  else if x.st == .outOfService then some Gp.OUT_OF_SERVICE
  else
    match (s.harv.caps.get t {}).slot with
    | some z => if s.harv.denied.contains z then some Gp.DENIED else none
    | none => none

/-- The tiles a column sends, ascending: selected, not under test. -/
def Hub.columnTiles (s : Hub) (c : Nat) : List Nat :=
  (s.harv.caps.cells.filter (fun p => colOf p.1 == c && p.2.selected && (s.tile p.1).st != .underTest)).map Prod.fst

/-- Columns with a tile in the scope and selection. -/
def Hub.harvCols (s : Hub) : List Nat := (List.range (s.rd F.GLB_GRID_COLUMNS)).filter (fun c => !(s.columnTiles c).isEmpty)

/-- MISSING of a tile of which nothing was sent. -/
def Hub.missingAll (s : Hub) (t : Nat) : Nat :=
  Miss.TCS + (if (s.tile t).catchBuf.isEmpty then 0 else Miss.DELIVERY) + (if Sel.stateOnly s.harv.sel then 0 else Miss.SRAM)

/-- The other columns whose words travel on the same cane (R19). -/
def Hub.caneMates (s : Hub) (c : Nat) : List Nat := s.harv.cur.keys.filter (fun m => m != c && s.caneFor m == s.caneFor c)

/-- A column enters phase 2: the tiles shut out in phase 1 have their GAP already. -/
def Hub.enterSram (s : Hub) (c : Nat) : Hub :=
  s.setCursor c { phase := 2, tiles := (s.columnTiles c).filter (fun t => !(s.cap t).shutOut) }

/-- First missing SRAM line of a gap at an offset, 0 when no SRAM of the tile was sent (R108). -/
def Hub.gapLine (s : Hub) (t offset : Nat) : Nat := if (s.cap t).sramSent then offset / 64 else 0

/-- Brings a cursor to its next record: tiles that cannot be captured become gaps; a column with nothing left moves to the next phase, together
with the column that shares its cane (R109). -/
def Hub.advance (s : Hub) (c : Nat) : Nat → Hub
  | 0 => s
  | n + 1 =>
    let k := s.cursor c
    if k.phase != 1 && k.phase != 2 then s
    else
      match k.tiles with
      | [] =>
        if k.phase == 1 && !Sel.stateOnly s.harv.sel then
          let mates := s.caneMates c
          if mates.any (fun m => (s.cursor m).phase == 1 && !(s.cursor m).tiles.isEmpty) then s
          else
            let all := c :: mates.filter (fun m => (s.cursor m).phase == 1)
            let s := doEach all s Hub.enterSram
            doEach all s (fun s m => s.advance m n)
        else s.setCursor c { k with phase := 3 }
      | t :: rest =>
        match s.shut t with
        | some reason =>
          let s := s.setCursor c { k with tiles := rest, sub := 0, tries := 0, silent := 0 }
          let s := s.setCap t { s.cap t with shutOut := true }
          if k.phase == 1 then (s.tileGap t reason (s.missingAll t) 0 (pieceMask s.harv.range 0) true).advance c n
          else (s.tileGap t reason Miss.SRAM (s.gapLine t (nth (pieces s.harv.range) k.sub (0, 0)).1)
            (pieceMask s.harv.range k.sub) true).advance c n
        | none => s

/-- Fuel that brings a cursor anywhere. -/
def cursorFuel : Nat := 300

/-- Records of the head tile in a phase. -/
def Hub.subCount (s : Hub) (phase sub t : Nat) : Nat :=
  let n := if sub == 0 then (s.tile t).catchBuf.length else (s.cap t).catchCount
  if phase == 1 then 1 + ceilDiv n 32 else (pieces s.harv.range).length

/-- The cursor moves past the present record. -/
def Hub.nextRecord (s : Hub) (c : Nat) : Hub :=
  let k := s.cursor c
  match k.tiles with
  | [] => s
  | t :: rest =>
    let k := { k with tries := 0, silent := 0 }
    let s := if k.sub + 1 < s.subCount k.phase k.sub t then s.setCursor c { k with sub := k.sub + 1 }
      else s.setCursor c { k with tiles := rest, sub := 0 }
    s.advance c cursorFuel

/-! ### Records, R104 to R107 -/

/-- STATE byte of the spur section. -/
def tcsState (x : Tile) (quiet : Bool) : Nat :=
  b2n quiet + 2 * b2n x.scnValid + 4 * b2n x.stopNow + 8 * b2n (x.st == .inContext)

/-- The 64-byte spur section of a TCS record (R106). -/
def Hub.spurSection (s : Hub) (t : Nat) (quiet : Bool) : List Byte :=
  let x := s.tile t
  let p := s.partOf t
  let gated := x.gated
  padTo 64 (le 8 x.scn ++ le 8 (if gated then x.gateGcn else 0) ++ le 4 (if gated then x.gateEpoch else 0) ++ le 2 x.tag ++
    le 1 (x.slot + 64 * x.priv) ++ le 1 (tcsState x quiet) ++ le 2 s.boot.tcsMap ++ le 1 x.catchBuf.length ++
    le 1 (s.divCode p + 4 * p) ++ le 2 x.rdOut ++ le 2 x.wrOut ++ le 8 x.seed ++ le 2 x.profile ++ le 1 x.cap)

/-- The TCS payload: the spur section and the tile scan content. -/
def Hub.tcsPayload (s : Hub) (t : Nat) : List Byte := s.spurSection t (s.cap t).quiet ++ s.scan t 64 1984

/-- A DELIVERY entry (R107). -/
def Delivery.bytes (d : Delivery) : List Byte :=
  le 8 d.be ++ le 2 (d.dest % 1024 + 0x8000 * b2n d.err) ++ le 2 d.mtag ++ le 4 d.arrive ++ (padTo 64 d.data).take 64

/-- Reads a DELIVERY entry back. -/
def deliveryOf (b : List Byte) : Delivery :=
  { be := leAt b 0 8, dest := leAt b 8 2 % 1024, err := bitAt (leAt b 8 2) 15, mtag := leAt b 10 2, arrive := leAt b 12 4,
    data := (b.drop 16).take 64 }

/-- The record the cursor of a column stands at, without RETRIED and SRC_ERR. (DEDUCED, log entry 80) -/
def Hub.recordAt (s : Hub) (t : Nat) (k : CaneCur) : Rec :=
  let inc := 4 * b2n (s.inconsistent t)
  if k.phase == 1 then
    let last := b2n (Sel.stateOnly s.harv.sel && k.sub + 1 == s.subCount 1 k.sub t)
    if k.sub == 0 then
      { type := 1, flags := last + inc + 8 * b2n (s.cap t).quiet, tile := t, offset := 0, payload := s.tcsPayload t }
    else
      let i := 32 * (k.sub - 1)
      let n := least 32 ((s.cap t).catchCount - i)
      { type := 3, flags := last + inc, tile := t, offset := i,
        payload := (((s.tile t).catchBuf.drop i).take n).flatMap Delivery.bytes }
  else
    let ps := pieces s.harv.range
    let p := nth ps k.sub (0, 0)
    { type := 2, flags := b2n (k.sub + 1 == ps.length) + inc + 2 * b2n (p.2 < 4096), tile := t, offset := p.1,
      payload := s.sram t p.1 p.2 }

/-- Room an entry queue must have for a record of a phase's kind (R114). -/
def Hub.roomFor (s : Hub) (k : CaneCur) : Nat :=
  if k.phase == 1 then (if k.sub == 0 then 2048 else 2560) else maxNat ((pieces s.harv.range).map Prod.snd)

/-- MISSING bit of a record type. -/
def missOf (type : Nat) : Nat := if type == 1 then Miss.TCS else if type == 3 then Miss.DELIVERY else Miss.SRAM

/-- All cursors have left phase 1: STATE_DONE (R130); the phase shown in HARV_STATUS. -/
def Hub.harvShow (s : Hub) : Hub :=
  let ks := s.harv.cur.cells.map (fun p => p.2.phase)
  if s.harv.op != 1 || !s.harv.drained then s
  else
    let s := if !s.harv.stateDone && ks.all (fun p => 2 ≤ p) then
        ({ s with harv := { s.harv with stateDone := true } }).raiseOf Ev.STATE_DONE s.harv.first
      else s
    s.harvPhase (if !s.harv.stateDone then 2 else if ks.any (· == 2) then 3 else 4)

/-- Tiles of the columns a lane serves are all past phase 2, their queues empty (R109). -/
def Hub.lanePhase3 (s : Hub) (l : Nat) : Bool :=
  s.harv.drained && (s.laneCanes l).all (fun q => (s.cane q).queue.isEmpty) &&
  s.harv.cur.cells.all (fun p => s.laneOf p.1 != l || p.2.phase == 3)

/-- A captured region with a piece still to hand out, in table order. -/
def Hub.nextRegion (s : Hub) : Option RegionCap := s.harv.regions.find? (fun r => r.mode == 0 && !r.bad && r.next < r.pieces)

/-- A digest region still to read. -/
def Hub.nextDigest (s : Hub) : Option RegionCap := s.harv.regions.find? (fun r => r.mode == 1 && !r.bad && !r.done)

/-- Pieces of the snapshot. -/
def Hub.snapPieces (s : Hub) : Nat := ceilDiv s.harv.snapTotal mebi

/-- Phase 3 work is left to hand out. -/
def Hub.phase3Left (s : Hub) : Bool := s.nextRegion.isSome || s.harv.snapPiece < s.snapPieces

/-- Lanes that may take phase 3 pieces issue their reads (R109, R111); the engine issues the digest reads. -/
def Hub.phase3 (s : Hub) : Hub :=
  if s.harv.op != 1 || !s.harv.drained || s.harv.ended.isSome || Sel.stateOnly s.harv.sel then s
  else
    let s := doEach s.lanesUp s (fun s l =>
      if s.phase3Left && s.lanePhase3 l && (s.lane l).cur.isNone && s.outstanding (Cu.READ l) == 0 then
        s.issued (Cu.READ l)
      else s)
    if s.nextDigest.isSome && s.outstanding Cu.HARV == 0 then s.issued Cu.HARV else s

/-- What follows a change of the engine's state: the phase shown, phase 3 reads. -/
def Hub.harvGo (s : Hub) : Hub := s.harvShow.phase3

/-- A good record passes on to its lane (R113, R114). -/
def Hub.recordTaken (s : Hub) (c t : Nat) (r : Rec) (srcErr : Bool) : Hub :=
  let k := s.cursor c
  let q := s.caneFor c
  let cap := s.cap t
  let cap := if r.type == 1 then { cap with catchCount := (s.tile t).catchBuf.length } else cap
  let cap := { cap with sramSent := cap.sramSent || r.type == 2 }
  let cap := if srcErr || (r.type == 2 && bitAt r.flags 1) then { cap with flagged := true } else cap
  let s := s.setCap t cap
  let r := { r with flags := r.flags + 16 * b2n srcErr + 32 * b2n (k.tries != 0) }
  let s := s.queuePut q r
  let s := s.laneTake (s.servedBy (q / 8))
  (s.nextRecord c).harvGo

/-- A record that failed for good becomes a GAP (R113). -/
def Hub.recordLost (s : Hub) (c t : Nat) (r : Rec) : Hub :=
  let s := s.tileGap t Gp.CANE_PARITY (missOf r.type) (if r.type == 2 then s.gapLine t r.offset else 0)
    (if r.type == 2 then 2 ^ (r.offset / 4096) else 0) (bitAt r.flags 0)
  let s := if r.type == 1 then s.setCap t { s.cap t with catchCount := (s.tile t).catchBuf.length } else s
  (s.nextRecord c).harvGo

/-- The harvest engine takes the record a column's present tile sends: phase 1 or 2, with room in the entry queue. -/
def Hub.recordDue (s : Hub) (c : Nat) : Bool :=
  let k := s.cursor c
  let q := s.caneFor c
  !k.tiles.isEmpty && s.harv.op == 1 && s.harv.ended.isNone && !s.harv.abortWait && (k.phase == 1 || k.phase == 2) && !s.caneShut q &&
  (s.cane q).fill + s.roomFor k ≤ 16384

/-- The cane grants a column's record (R27): no tasting sample waits, and of two columns that share the cane, each at half rate (R19), the other one
has its turn only when it has a record too. -/
def Hub.recordGranted (s : Hub) (c : Nat) : Bool :=
  let q := s.caneFor c
  s.recordDue c && !s.sampleWaiting q && ((s.cane q).harvTurn != c || !(s.caneMates c).any s.recordDue)

/-- A record's words have passed on the cane, up from its spur or down to it: its first and last slots stay visible (R102), and the turn passes on. -/
def Hub.carryRecord (s : Hub) (c : Nat) (r : Rec) (err : Bool) : Hub :=
  let q := s.caneFor c
  s.setCane q { s.cane q with
    harvTurn := c
    sor := firstSlot 2 (rowOf r.tile) (q != c) (recordKind r.type) r.payload
    slot := lastSlot 2 (rowOf r.tile) (q != c) err (recordKind r.type) r.payload }

/-- A record of a column arrives at the harvest engine (R113). `bad`: 0 intact, 1 a data parity error, 2 a tag parity error, 3 an
uncorrectable and 4 a corrected ECC error in the entry queue; `got` is the payload as received, used while PARITY_EN is 0. (DEDUCED, log entry 87) -/
def Hub.harvRecordRx (s : Hub) (c bad : Nat) (srcErr : Bool) (got : List Byte) : Hub :=
  let k := s.cursor c
  let q := s.caneFor c
  match k.tiles with
  | [] => s
  | t :: _ =>
    if !s.recordGranted c then s
    else
      let r := s.recordAt t k
      let srcErr := srcErr && r.type == 2
      let s := s.carryRecord c r srcErr
      if bad == 4 then (s.err Er.CANE_QUEUE_ECC_CORR).recordTaken c t r srcErr
      else if bad == 0 then s.recordTaken c t r srcErr
      else if bad != 3 && !s.flag F.CANE_CTRL_PARITY_EN then
        s.recordTaken c t { r with payload := if got.length == r.payload.length then got else r.payload } srcErr
      else
        let s := if bad == 3 then s.err Er.HARV_QUEUE_ECC
          else
            let s := s.err (if bad == 1 then Er.CANE_DATA_PARITY else Er.CANE_TAG_PARITY)
            let s := s.setCane q { s.cane q with parityErrs := sat 16 ((s.cane q).parityErrs + 1) }
            s.raiseOf Ev.CANE_PARITY q
        let tries := k.tries + 1
        let s := s.setCursor c { k with tries := tries, silent := 0 }
        if tries == 1 then s
        else if tries == 2 && s.flag F.CANE_CTRL_AUTO_BYPASS && !(s.cane q).broken then
          (s.setCane q { s.cane q with suspect := true }).startLocate q
        else
          let s := if tries == 2 then s.setCane q { s.cane q with suspect := true } else s
          s.recordLost c t r

/-- HARV_SPUR_LIMIT, at least 4,096. -/
def Hub.spurLimit (s : Hub) : Nat := let v := s.rd F.HARV_SPUR_LIMIT_HCLK; if v < 4096 then 4096 else v

/-- The present spur of a column could send: its cane slot is free of higher classes and its entry queue has room (R114). -/
def Hub.spurFree (s : Hub) (c : Nat) : Bool :=
  let k := s.cursor c
  let q := s.caneFor c
  !k.tiles.isEmpty && (k.phase == 1 || k.phase == 2) && !s.caneShut q && !s.sampleWaiting q && (s.cane q).fill + s.roomFor k ≤ 16384

/-- HARV_SPUR_LIMIT counts the HCLK in which a spur could send (R114). -/
def Hub.silentTick (s : Hub) (c : Nat) : Hub :=
  if s.harv.op == 1 && s.harv.ended.isNone && s.spurFree c then s.setCursor c { s.cursor c with silent := (s.cursor c).silent + 1 } else s

/-- The spur of a column's present tile sent nothing for HARV_SPUR_LIMIT while it could (R108): a GAP for the rest of the tile in this phase. -/
def Hub.spurTimeout (s : Hub) (c : Nat) : Hub :=
  let k := s.cursor c
  match k.tiles with
  | [] => s
  | t :: rest =>
    if s.harv.op != 1 || s.harv.ended.isSome || !s.spurFree c || k.silent < s.spurLimit then s
    else
      let n := if k.phase == 1 && k.sub == 0 then (s.tile t).catchBuf.length else (s.cap t).catchCount
      let missing := if k.phase == 2 then Miss.SRAM
        else (if k.sub == 0 then Miss.TCS else 0) + (if n == 0 then 0 else Miss.DELIVERY)
      let line := if k.phase == 2 then s.gapLine t (nth (pieces s.harv.range) k.sub (0, 0)).1 else 0
      let s := s.tileGap t Gp.SPUR_TIMEOUT missing line (if k.phase == 2 then pieceMask s.harv.range k.sub else 0)
        (k.phase == 2 || Sel.stateOnly s.harv.sel)
      let s := s.setCursor c { k with tiles := rest, sub := 0, tries := 0, silent := 0 }
      (s.advance c cursorFuel).harvGo

/-- LOCATE finishes (R135): `row` is the northernmost stage after which every pattern arrives intact, none when no single stage was found. A
suspect cane is bypassed where AUTO_BYPASS is 1; else the waiting record of each column it carries
becomes a GAP (R113). -/
def Hub.locateDone (s : Hub) (q : Nat) (row : Option Nat) : Hub :=
  let x := s.cane q
  if x.locate.isNone then s
  else
    let was := x.suspect
    let s := s.setCane q { x with locate := none }
    let s := match row with
      | some r => s.setCane q { s.cane q with breakRow := r % 128, breakValid := true }
      | none => s.err Er.CANE_LOCATE_FAIL
    let s := s.raiseOf Ev.CANE_LOCATE_DONE q
    let s := s.locateShown
    let cols := s.harv.cur.keys.filter (fun c => s.caneFor c == q)
    let s := if was && row.isSome && s.flag F.CANE_CTRL_AUTO_BYPASS then s.engageBypass q else s
    if was && ((s.cane q).mode == 0 || (s.cane q).mode == 3) then
      doEach cols s (fun s c =>
        let k := s.cursor c
        match k.tiles with
        | t :: _ => if s.harv.op == 1 && k.tries == 2 then s.recordLost c t (s.recordAt t k) else s
        | [] => s)
    else s

end Sys2Proof.Machine
end

