-- ==== Sys2Proof/Machine/HarvestEnd.lean ====
section
/-! DEFINITION. The harvest engine from admission to the manifest (04_harvest.md, R109 to R111, R116 to R120, R127, R128; 05_press.md, R154, R155,
R159; 06_cellar_racking.md, R170, R173, R175, R176). -/

namespace Sys2Proof.Machine

/-! ### The end of a harvest for its requesters -/

/-- Tells everyone who waits how the harvest ended, and frees the engine (R126, R128, R292, R305). -/
def Hub.harvFinish (s : Hub) : Hub :=
  let h := s.harv
  let final := h.memStatus
  let s := (s.harvStatus 1 (s.rd F.HARV_STATUS_STATUS) true).wr F.HARV_STATUS_FINAL final
  let s := { s with harv := { argsFrom := h.argsFrom } }
  let s := s.harvPhase 0
  let s := match h.txn with
    | some t => s.answer h.issuer Op.HARVEST t St.OK (le 1 final)
    | none => s
  let s := match h.xsrc with
    | some (xid, tag) => s.portRespond tag Mt.XPKG Mt.XPKG_REPORT true (xpkgReportBody xid final false s.hubAddr 0)
    | none => s
  let s := match h.policySlot with
    | some z => s.setMon z { s.mon z with pdue := true, pstatus := final }
    | none => s
  match h.peerTag with
  | some tag => { s with hangCtl := { s.hangCtl with peers := s.hangCtl.peers.map (fun p =>
      if p.tag == tag then { p with due := true, status := final } else p) } }
  | none => s

/-- The own field is closed with a status: the harvest's final status is the first one other than OK, its own among those of the members (R128). -/
def Hub.harvOwn (s : Hub) (final : Nat) : Hub :=
  { s with harv := { s.harv with closed := true, final := final,
                                 memStatus := if s.harv.memStatus == St.OK then final else s.harv.memStatus } }

/-- The harvest completes when the own field is closed and every member and package has reported (R128). -/
def Hub.harvJoin (s : Hub) : Hub :=
  if s.harv.op == 1 && s.harv.closed && s.harv.memLeft.isEmpty && s.harv.pkgLeft.isEmpty then s.harvFinish else s

/-- A member's or package's final status reaches the issuer (R128). -/
def Hub.harvMember (s : Hub) (hub status : Nat) : Hub :=
  let h := s.harv
  if h.op != 1 || !h.memLeft.contains hub then s
  else
    ({ s with harv := { h with memLeft := removeNat hub h.memLeft,
                               memStatus := if h.memStatus == St.OK then status else h.memStatus } }).harvJoin

/-- A package's XPKG_REPORT reaches the issuing lead. -/
def Hub.harvPackage (s : Hub) (xid pkg status : Nat) : Hub :=
  let h := s.harv
  if h.op != 1 || h.xid != xid || !h.pkgLeft.contains pkg then s
  else
    ({ s with harv := { h with pkgLeft := removeNat pkg h.pkgLeft,
                               memStatus := if h.memStatus == St.OK then status else h.memStatus } }).harvJoin

/-- A harvest ends before its reservation was admitted: no vintage is written (R127). -/
def Hub.harvDrop (s : Hub) (final : Nat) : Hub :=
  let s := s.harvOwn final
  let s := { s with harv := { s.harv with vintage := 0 } }
  let s := (s.setReg R.HARV_CUR_VINTAGE 0).wr F.CELL_STATE_STALLED 0
  (s.raiseOf Ev.HARV_DONE 0).harvJoin

/-! ### Setup, R109, R110 and R170 -/

/-- CELLAR_STALLED, once per harvest (R176). -/
def Hub.harvStall (s : Hub) : Hub :=
  let s := s.wr F.CELL_STATE_STALLED 1
  if s.harv.stalled then s
  else ({ s with harv := { s.harv with stalled := true } }).raiseOf Ev.CELLAR_STALLED s.harv.first

/-- A tile has drained. -/
def Tile.quietNow (x : Tile) : Bool := x.rdOut == 0 && x.wrOut == 0

/-- Tiles the drain wait waits for: those of the scope's stop domains, whether selected or not (R111), and the selected ones in no context. -/
def Hub.drainTiles (s : Hub) : List Nat :=
  (s.harv.caps.cells.filter (fun p => (p.2.selected || p.2.slot.isSome) && (s.tile p.1).st != .underTest)).map Prod.fst

/-- Bytes written in the trace ring. -/
def Hub.ringWritten (s : Hub) : Nat := if s.flag F.TRACE_STATE_WRAPPED then s.ringLen else s.wptr

/-- Latches the snapshot at the end of phase 0 (R210). STATE_ONLY skips phase 3, and with it the snapshot (R115). -/
def Hub.latchSnap (s : Hub) : Hub :=
  if !Sel.traceSnap s.harv.sel || Sel.stateOnly s.harv.sel || s.ringLen == 0 then s
  else
    let s := s.closeFrames.writeFrames
    let n := least (s.harv.snapLen * mebi) s.ringWritten
    let from_ := (s.wptr + s.ringLen - n) % s.ringLen
    let s := { s with
      harv := { s.harv with snapFrom := from_, snapTotal := n, snapPiece := 0 }
      trace := { s.trace with snapAt := if n == 0 then none else some s.wptr, snapLeft := n } }
    s.wr F.TRACE_STATE_SNAP_GUARD (b2n (n != 0))

/-- Phase 0 ends: QUIET is settled (never set for a tile whose ABANDONED latch is set, R295), the snapshot latched, the cursors start (R110). -/
def Hub.startState (s : Hub) : Hub :=
  let ts := s.drainTiles
  let s := doEach ts s (fun s t => s.setCap t { s.cap t with quiet := (s.tile t).quietNow && !(s.tile t).abandoned })
  let s := match ts.find? (fun t => (s.cap t).selected && !(s.tile t).quietNow) with
    | some t => s.raiseOf Ev.NOT_QUIET t
    | none => s
  let s := s.latchSnap
  let cols := s.harvCols
  let s := { s with harv := { s.harv with drained := true } }
  let s := doEach cols s (fun s c => s.setCursor c { phase := 1, tiles := s.columnTiles c })
  (doEach cols s (fun s c => s.advance c cursorFuel)).harvGo

/-- Phase 1 starts once every tile has drained. -/
def Hub.drainCheck (s : Hub) : Hub :=
  if s.harv.op == 1 && s.harv.admitted && !s.harv.drained && s.harv.ended.isNone && s.drainTiles.all (fun t => (s.tile t).quietNow)
  then s.startState else s

/-- HARV_DRAIN_LIMIT has passed since the harvest wave (R110). -/
def Hub.drainLimit (s : Hub) : Hub :=
  if s.harv.op == 1 && s.harv.admitted && !s.harv.drained && s.harv.ended.isNone && s.elapsed s.harv.waveAt (s.rd F.HARV_DRAIN_LIMIT_HCLK)
  then s.startState else s

/-- A lane's reservation at setup: its LOCATOR and its tail reserve. (DEDUCED, log entry 82) -/
def Hub.laneReserve (s : Hub) (l : Nat) : Hub :=
  let loc := s.takeCasks (s.locCasks (s.rectRows s.harv.rect))
  let s := loc.2
  let tail := s.takeCasks (s.tailCasks (s.laneTiles l + s.harv.regions.length))
  let s := tail.2
  s.setLane l { s.lane l with resv := loc.1.getD [], tail := tail.1.getD [] }

/-- The lanes at the start of a vintage. (DEDUCED, log entry 345) -/
def Hub.lanesBegin (s : Hub) (mode : Nat) : Hub :=
  doEach (List.range 16) s (fun s l =>
    let x := s.lane l
    s.setLane l { mode := if x.mode == 3 || x.mode == 4 then x.mode else mode, bistOk := x.bistOk })

/-- The reservation is admitted (R109, R170): casks, the OPEN index entry, the harvest wave. -/
def Hub.harvAdmit (s : Hub) : Hub :=
  let h := s.harv
  let tiles := h.caps.keys
  let entry := (s.freeEntry).getD 0
  let s := s.lanesBegin 1
  let man := s.takeCasks (ceilDiv (s.manifestMax h.slots.length tiles.length h.regions.length) s.caskSize)
  let s := man.2
  let s := doEach (s.lanesOf tiles) s Hub.laneReserve
  let s := s.putVintage entry { number := h.vintage, ref := h.ref, state := 1,
                                hasSecure := h.slots.filter (fun z => (s.dom z).priv == 2) }
  let s := { s with harv := { s.harv with
    admitted := true, refMap := s.refMapOf h.ref, entry := entry, manifestChain := man.1.getD [], waveAt := s.time.hclk } }
  ((s.refChecked h.ref).wr F.CELL_STATE_STALLED 0).drainCheck

/-- The reservation of phase 0 (R170, R176): evicting where the policy says so, waiting where nothing is eligible. (DEDUCED, log entry 92) -/
def Hub.harvSetupDone (s : Hub) : Hub :=
  let h := s.harv
  if h.op != 1 || h.admitted || h.closed then s
  else
    let need := s.reservation h.slots.length h.caps.keys h.regions.length (s.rectRows h.rect)
    let minCasks := s.rd F.CELL_ADMIT_CASKS
    match Hub.makeRoom (if need < minCasks then minCasks else need) true 1025 s with
    | (true, s) => s.harvAdmit
    | (false, s) =>
      if s.rd F.CELL_CTRL_POLICY == 0 then (s.raiseOf Ev.HARV_REFUSED_SPACE h.first).harvDrop St.NO_SPACE
      else s.harvStall

/-! ### Lanes at work -/

/-- Opens a lane's stream where it has none: without LOCATOR rows where a phase 3 piece is its first work (R150). A lane without a column in scope
takes its tail reserve here, evicting where the policy allows it (R176). -/
def Hub.laneOpened (s : Hub) (l : Nat) : Bool × Hub :=
  let x := s.lane l
  if x.isOpen then (true, s)
  else
    let cols := (s.lanesOf s.harv.caps.keys).contains l
    let rows := match x.cur with
      | some r => if r.type == 4 || r.type == 7 || (r.type == 5 && bitAt (leAt r.payload 1 1) 3) then 0 else s.rectRows s.harv.rect
      | none => if cols then s.rectRows s.harv.rect else 0
    if cols || !x.tail.isEmpty then s.openStream l rows
    else
      let n := s.tailCasks (s.laneTiles l + s.harv.regions.length)
      match Hub.makeRoom n false 1025 s with
      | (false, s) => (false, s)
      | (true, s) =>
        match s.takeCasks n with
        | (some cs, s) => (s.setLane l { s.lane l with tail := cs }).openStream l rows
        | (none, s) => (false, s)

/-- Replaces a region of the harvest. -/
def Hub.setRegion (s : Hub) (r : RegionCap) : Hub :=
  { s with harv := { s.harv with regions := s.harv.regions.map (fun x => if x.index == r.index then r else x) } }

/-- A region of the harvest is captured or digested: its digest is shown (R116). -/
def Hub.regionDone (s : Hub) (r : RegionCap) : Hub :=
  (s.setRegion { r with done := true }).setReg64B R.HARV_REGION_DIGEST_LO r.index r.digest

/-- A region ends with a GAP (R116): the record goes to a lane's stream. -/
def Hub.regionGap (s : Hub) (l : Nat) (r : RegionCap) (reason : Nat) : Hub :=
  let s := s.setRegion { r with bad := true }
  let s := s.noteGap true r.index reason Miss.EXTREGION 0
  (s.queuePut (8 * l) (s.gapRec r.index reason Miss.EXTREGION 0 1)).laneTake l

/-- What a tile still lacks. -/
def Hub.tileMissing (s : Hub) (t : Nat) : Nat :=
  let c := s.cap t
  let n := if c.tcs then c.catchCount else (s.tile t).catchBuf.length
  (if c.tcs then 0 else Miss.TCS) + (if c.catchSeen < n then Miss.DELIVERY else 0) +
  (if Sel.stateOnly s.harv.sel || c.sramSeen == pieceMask s.harv.range 0 then 0 else Miss.SRAM)

/-- What a tile still lacks and no GAP record stands for yet (R108). -/
def Hub.tileUnsaid (s : Hub) (t : Nat) : Nat :=
  let c := s.cap t
  let miss := s.tileMissing t
  (if bitAt miss 0 && !bitAt c.gapMiss 0 then Miss.TCS else 0) + (if bitAt miss 1 && !bitAt c.gapMiss 1 then Miss.DELIVERY else 0) +
  (if bitAt miss 2 && (c.sramSeen ||| c.gapPieces) != (pieceMask s.harv.range 0 ||| c.gapPieces) then Miss.SRAM else 0)

/-- The first missing SRAM line of a tile that no GAP record stands for, 0 when no SRAM was sent. -/
def Hub.missingLine (s : Hub) (t : Nat) : Nat :=
  let c := s.cap t
  if c.sramSeen == 0 then 0
  else
    match (pieces s.harv.range).find? (fun p => !bitAt (c.sramSeen ||| c.gapPieces) (p.1 / 4096)) with
    | some p => p.1 / 64
    | none => 0

/-- A complete record has left the encoder: the tile or region it belongs to. -/
def Hub.recordDone (s : Hub) (r : Rec) : Hub :=
  match r.type with
  | 4 =>
    match s.harv.regions.find? (fun x => x.index == r.tile) with
    | some x =>
      let x := { x with left := x.left - 1 }
      if x.left == 0 && !x.bad then s.regionDone x else s.setRegion x
    | none => s
  | 5 => s
  | 7 => s
  | type =>
    let c := s.cap r.tile
    let c := match type with
      | 1 => { c with tcs := true }
      | 3 => { c with catchSeen := c.catchSeen + r.payload.length / 80 }
      | _ => { c with sramSeen := c.sramSeen ||| 2 ^ (r.offset / 4096) }
    let s := s.setCap r.tile c
    if s.tileMissing r.tile == 0 then s.bump F.HARV_PROGRESS_TILES 1 else s

/-- Forgets what the last record of a lane brought: its block write failed (R127). Where blocks of the record in the encoder are out, it is that
one, still incomplete, that failed. -/
def Hub.recordUndone (s : Hub) (l : Nat) : Hub :=
  match if (s.lane l).cur.isSome && (s.lane l).curPos != 0 then none else (s.lane l).last with
  | none => s
  | some (type, id, offset) =>
    match type with
    | 4 =>
      match s.harv.regions.find? (fun x => x.index == id) with
      | some x => s.setRegion { x with done := false }
      | none => s
    | 1 => s.setCap id { s.cap id with tcs := false }
    | 2 => let c := s.cap id
           s.setCap id { c with sramSeen := c.sramSeen ^^^ (c.sramSeen &&& 2 ^ (offset / 4096)) }
    | 3 => s.setCap id { s.cap id with catchSeen := offset }
    | _ => s

/-! ### The early end, R127, R154 and R155 -/

/-- Writes a GAP record of an early end to a lane's stream, from its tail reserve. A tile's first record fixes its tile-table offset and lane
(R119). -/
def Hub.tailGap (s : Hub) (l : Nat) (r : Rec) (ofTile : Bool) : Hub :=
  match s.laneOpened l with
  | (false, s) => s.dropSpill l
  | (true, s) =>
    let bytes := s.recBytes r
    let plain := s.flag (F.PRESS_CTRL_FORCE_RAW.lane l) || (s.lane l).mode == 3
    let v := s.verdict l (some (dataBlock bytes none 0 bytes.length false plain))
    let s := v.2
    let b := dataBlock bytes none 0 bytes.length false (plain || v.1)
    match s.laneAppend l b.bytes true with
    | (false, s) => s.dropSpill l
    | (true, s) =>
      let s := s.countBlock l b bytes.length
      let x := s.lane l
      let c := s.cap r.tile
      let s := if ofTile && !c.placed then s.setCap r.tile { c with placed := true, offset := x.raw, lane := l } else s
      (s.setLane l { x with blocks := x.blocks + 1, recs := x.recs + 1, raw := x.raw + bytes.length }).bump64 R.HARV_RAW_LO bytes.length

/-- The lane that takes a region's GAP record: the first open one, else the first in service. -/
def Hub.gapLane (s : Hub) : Nat :=
  match s.lanesUp.find? (fun l => (s.lane l).isOpen) with
  | some l => l
  | none => (s.lanesOf s.harv.caps.keys).head?.getD 0

/-- The missing part of a tile becomes a gap. -/
def Hub.endTile (s : Hub) (reason t : Nat) : Hub :=
  let miss := s.tileUnsaid t
  if miss == 0 then s
  else
    let line := s.missingLine t
    let s := s.tailGap (s.laneOf (colOf t)) (s.gapRec t reason miss line (1 + 4 * b2n (s.inconsistent t))) true
    s.noteGap false t reason miss line

/-- A region not completely captured becomes a gap. -/
def Hub.endRegion (s : Hub) (reason : Nat) (r : RegionCap) : Hub :=
  if r.done || r.bad || r.mode == 2 then s
  else
    let s := s.tailGap s.gapLane (s.gapRec r.index reason Miss.EXTREGION 0 1) false
    (s.setRegion { r with bad := true }).noteGap true r.index reason Miss.EXTREGION 0

/-- Everything still on its way to a lane is dropped. -/
def Hub.dropQueues (s : Hub) : Hub :=
  { s with
    canes := ⟨s.canes.cells.map (fun (p : Nat × CaneSt) => (p.1, { p.2 with queue := [] }))⟩
    lanes := ⟨s.lanes.cells.map (fun (p : Nat × LaneSt) =>
      (p.1, { p.2 with cur := none, curPos := 0, held := false, heldRaw := false, heldFlush := none, refWait := false }))⟩ }

/-- The snapshot is over: its guard is cleared (R210). -/
def Hub.endSnap (s : Hub) : Hub :=
  ({ s with trace := { s.trace with snapAt := none, snapLeft := 0 } }).wr F.TRACE_STATE_SNAP_GUARD 0

/-- A lane stops at the next block boundary (R155): the block in its encoder is completed and written; output that no cask holds is taken back. -/
def Hub.laneStop (s : Hub) (l : Nat) : Hub :=
  let x := s.lane l
  if x.cur.isNone || x.refWait || x.held then s.dropSpill l
  else
    match s.laneOpened l with
    | (false, s) => s.dropSpill l
    | (true, s) =>
      let v := s.verdict l (s.curBlock l none false)
      match v.2.writeBlock l none v.1 false with
      | (.block (some r), s) => s.recordDone r
      | (_, s) => s.dropSpill l

/-- A harvest ends early; after a takeover the streams are cut after their last block (R424), else every lane completes its block (R155): the GAP records that were on their way (R108), then
GAP records for everything not captured; HARV_DONE will close it with `final`. -/
def Hub.harvEnd (s : Hub) (reason final : Nat) : Hub :=
  if s.harv.op != 1 || s.harv.closed || s.harv.ended.isSome then s
  else if !s.harv.admitted then s.harvDrop final
  else
    let ts := (s.harv.caps.cells.filter (fun p => p.2.selected && (s.tile p.1).st != .underTest)).map Prod.fst
    let gaps := (s.canes.cells.flatMap (fun (p : Nat × CaneSt) => p.2.queue.map (fun r => (p.1, r)))).filter (fun p => p.2.type == 5)
    let s := (doEach s.lanesUp s (if reason == Gp.TAKEOVER then Hub.dropSpill else Hub.laneStop)).dropQueues.endSnap
    let s := { s with harv := { s.harv with cur := {}, abortWait := false, ended := some final, drained := true } }
    let s := doEach gaps s (fun s p => s.tailGap (s.servedBy (p.1 / 8)) p.2 (!bitAt (leAt p.2.payload 1 1) 3))
    let s := doEach ts s (fun s t => s.endTile reason t)
    let s := doEach s.harv.regions s (fun s r => s.endRegion reason r)
    (s.harvPhase 5).wr F.CELL_STATE_STALLED 0

/-- No cask for a lane (R127, R154, R176): the lane holds its output where it stands, or under REFUSE_NEW the harvest ends with NO_SPACE. -/
def Hub.outOfSpace (s : Hub) (l : Nat) (bad : Bool) (flush : Option Nat) : Hub :=
  let s := s.setLane l { s.lane l with held := true, heldRaw := bad, heldFlush := flush }
  if s.rd F.CELL_CTRL_POLICY == 0 then (s.raiseOf Ev.CELL_FULL (s.harv.vintage % 65536)).harvEnd Gp.NO_SPACE St.NO_SPACE
  else s.harvStall

/-- The encoder's block goes to the stream; a completed record makes room for the next (R142, R154, R159). `flush` is where FLUSH_BLOCK ended it.
(DEDUCED, log entry 93) -/
def Hub.blockOut (s : Hub) (l : Nat) (bad : Bool) (flush : Option Nat) : Hub :=
  match s.laneOpened l with
  | (false, s) => s.outOfSpace l bad flush
  | (true, s) =>
    match s.writeBlock l flush bad false with
    | (.held, s) => s.outOfSpace l bad flush
    | (.block done, s) =>
      let s := s.setLane l { s.lane l with held := false, heldRaw := false, heldFlush := none }
      match done with
      | some r => ((s.recordDone r).laneTake l).harvGo
      | none => if flush.isSome then s.raiseOf Ev.FLUSHED l else s
    | (.nothing, s) => s

/-- A lane's encoder has a block in hand that it may write. -/
def Hub.blockDue (s : Hub) (l : Nat) : Bool :=
  let x := s.lane l
  s.harv.op == 1 && s.harv.ended.isNone && x.cur.isSome && !x.refWait && !x.held && s.channelFree l

/-- A completed block leaves the encoder of a lane (R159): `fault` is 0 verified, 1 a mismatch found by the verification, 2 an uncorrectable ECC
error in a lane buffer. -/
def Hub.pressBlockDone (s : Hub) (l fault : Nat) : Hub :=
  if !s.blockDue l then s
  else
    let compressed := match s.curBlock l none false with
      | some b => !b.raw
      | none => false
    let fault := if (s.lane l).eccDue then 2 else fault
    let s := s.setLane l { s.lane l with eccDue := false }
    let bad := fault == 2 || (fault == 1 && compressed && s.flag (F.PRESS_CTRL_VERIFY_EN.lane l))
    let s := if bad then s.verifyFail l (fault == 2) else s
    s.blockOut l bad none

/-- Space returned to the cellar: a harvest that waits goes on from where it stood (R154, R176). -/
def Hub.caskAvailable (s : Hub) : Hub :=
  if s.harv.op != 1 || s.harv.closed then s
  else if !s.harv.admitted then (if s.harv.stalled then s.harvSetupDone else s)
  else
    let s := if s.lanesUp.any (fun l => (s.lane l).held) then s.wr F.CELL_STATE_STALLED 0 else s
    doEach (s.lanesUp.filter (fun l => (s.lane l).held)) s (fun s l =>
      let x := s.lane l
      if !x.held then s else (s.setLane l { x with held := false }).blockOut l x.heldRaw x.heldFlush)

/-- Finishes the record in a lane's encoder, as ABORT lets it (R127). -/
def Hub.finishRec (l : Nat) : Nat → Hub → Hub
  | 0, s => s
  | n + 1, s =>
    if (s.lane l).cur.isNone || (s.lane l).held then s
    else
      match s.laneOpened l with
      | (false, s) => s
      | (true, s) =>
        let v := s.verdict l (s.curBlock l none false)
        match v.2.writeBlock l none v.1 false with
        | (.block (some r), s) => s.recordDone r
        | (.block none, s) => Hub.finishRec l n s
        | (_, s) => s

/-- ABORT by the rows of R126 that apply to it. -/
def Hub.abortCheck (s : Hub) : Nat :=
  if s.isSafe then St.FAULT
  else if s.scrapped then St.DENIED
  else if s.harv.op != 1 || s.harv.closed then St.NOT_STOPPED
  else St.OK

/-- ABORT (R127): every lane ends at its next record boundary. Answers the status. -/
def Hub.harvAbortIssue (s : Hub) : Nat × Hub :=
  let st := s.abortCheck
  if st != St.OK then (st, s)
  else
    let s := s.raiseOf Ev.HARV_ABORTED s.harv.first
    let s := doEach (s.lanesUp.filter (fun l => !(s.lane l).refWait)) s (fun s l => Hub.finishRec l 8 s)
    if s.lanesUp.any (fun l => (s.lane l).refWait) then (st, { s with harv := { s.harv with abortWait := true } })
    else (st, s.harvEnd Gp.ABORTED St.OK)

/-- A reference fetch completes or fails (R148). An ABORT that waited for it lets the lane finish its record, and ends the harvest when no other lane
waits (R127). -/
def Hub.refFetched (s : Hub) (l : Nat) (ok : Bool) : Hub :=
  let s := s.refFetchDone l ok
  if !s.harv.abortWait then s
  else
    let s := Hub.finishRec l 8 s
    if s.lanesUp.any (fun l => (s.lane l).refWait) then s else s.harvEnd Gp.ABORTED St.OK

/-- A write of HARV_CMD with ABORT. (DEDUCED, log entry 83) -/
def Hub.harvAbort (s : Hub) : Hub :=
  let res := s.harvAbortIssue
  let s := res.2.wr F.HARV_STATUS_STATUS res.1
  if s.harv.op == 1 then s.wr F.HARV_STATUS_OP 3
  else
    let s := s.wr F.HARV_STATUS_OP 3
    if res.1 != St.OK then s.wr F.HARV_STATUS_FINAL res.1 else s

/-! ### Phase 3, R111, R116 and R210 -/

/-- One byte range of the trace ring from an offset, around its end. -/
def Hub.ringBytes (s : Hub) (from_ n : Nat) : List Byte :=
  let here := least n (s.ringLen - from_)
  s.mem (s.geo.ringAt + from_) here ++ s.mem s.geo.ringAt (n - here)

/-- A read of region or snapshot data comes back to a lane (R109, R111). `err` is a fabric error. -/
def Hub.laneRead (s : Hub) (l : Nat) (err : Bool) : Hub :=
  if s.harv.op != 1 || s.harv.ended.isSome || s.harv.abortWait || (s.lane l).cur.isSome then s
  else
    match s.nextRegion with
    | some r =>
      if err then (s.regionGap l r Gp.REGION_ERROR).harvGo
      else
        let off := r.next * mebi
        let bytes := s.mem (r.base + off) (least mebi (r.len - off))
        let s := s.setRegion { r with next := r.next + 1, digest := (r.digest + digestOf bytes off) % 2 ^ 64 }
        let s := s.setLane l { s.lane l with region := some r.index }
        (s.beginRec l { type := 4, flags := b2n (r.next + 1 == r.pieces), tile := r.index, offset := r.next,
                        payload := bytes }).harvGo
    | none =>
      if s.snapPieces ≤ s.harv.snapPiece then s
      else if err then ({ s with harv := { s.harv with snapTotal := s.harv.snapPiece * mebi } }).endSnap
      else
        let i := s.harv.snapPiece
        let n := least mebi (s.harv.snapTotal - i * mebi)
        let bytes := s.ringBytes ((s.harv.snapFrom + i * mebi) % s.ringLen) n
        let s := { s with harv := { s.harv with snapPiece := i + 1 } }
        let s := if s.harv.snapTotal ≤ (i + 1) * mebi then s.endSnap else s
        (s.beginRec l { type := 7, flags := b2n (s.snapPieces == i + 1), tile := 0, offset := i,
                        payload := bytes }).harvGo

/-- A region in DIGEST mode has been read for the harvest (R116). -/
def Hub.digestRead (s : Hub) (err : Bool) : Hub :=
  if s.harv.op != 1 || s.harv.ended.isSome || s.harv.abortWait then s
  else
    match s.nextDigest with
    | some r =>
      if err then (s.regionGap s.gapLane r Gp.REGION_ERROR).harvGo
      else (s.regionDone { r with digest := digestOf (s.mem r.base r.len) 0 }).harvGo
    | none => s

/-- A fabric error on a lane stream write ends the harvest (R127). -/
def Hub.streamError (s : Hub) (l : Nat) : Hub :=
  if s.harv.op != 1 || !s.harv.admitted || s.harv.closed then s
  else ((s.recordUndone l).err Er.HARV_STREAM_WRITE).harvEnd Gp.WRITE_ERROR St.FAULT

/-- The oldest metadata access is answered. -/
def Hub.metaDone (s : Hub) : Hub := { s with cell := { s.cell with metaWho := s.cell.metaWho.drop 1 } }

/-- A fabric error on a metadata access (R180): the PIN, UNPIN, DELETE or FORMAT, or the harvest, that needed it fails with FAULT. (DEDUCED, log entry 84) -/
def Hub.metaError (s : Hub) : Hub :=
  let s := s.err Er.CELL_FABRIC
  let who := s.cell.metaWho.headD 0
  let s := s.metaDone
  if who == 4 then
    let s := { s with cell := { s.cell with formatAt := none } }
    (s.wr F.CELL_STATE_STATE 0).cellStatus 4 St.FAULT true
  else if who != 0 then s.cellStatus who St.FAULT true
  else if s.harv.op == 1 && !s.harv.closed then s.harvEnd Gp.WRITE_ERROR St.FAULT
  else s

/-! ### PRESS_CMD, R161 -/

/-- FLUSH_BLOCK (R156): the block in hand ends at the last byte the encoder has taken and is written, or held for want of a cask. -/
def Hub.flushBlock (s : Hub) (l taken : Nat) : Hub :=
  let x := s.lane l
  match x.cur with
  | none => s
  | some r =>
    let len := (s.recBytes r).length
    if taken == 0 || x.held || x.refWait || blockStop len x.curPos (some taken) == blockStop len x.curPos none then s
    else
      let v := s.verdict l (s.curBlock l (some taken) false)
      v.2.blockOut l v.1 (some taken)

/-- A write of PRESS_CMD. `taken` is how many bytes of the block in progress the encoder has taken, for FLUSH_BLOCK (R156). (DEDUCED, log entry 101) -/
def Hub.pressCmd (s : Hub) (l op taken : Nat) : Hub :=
  let st := s.pressCheck l op
  let s := s.pressStatus l op st
  if st != St.OK then s
  else
    match op with
    | 1 => s.flushBlock l taken
    | 2 => if s.retired l then s.raiseOf Ev.LANE_RETIRED l else s.retireLane l
    | 3 => (if s.retired l then s.setLane l { s.lane l with mode := 0 } else s).raiseOf Ev.LANE_RESTORED l
    | _ => s.clearPress l

/-! ### The manifest, R118 to R120 -/

/-- A domain's RESTORABLE, tile by tile: QUIET, every DELIVERY and all 16 SRAM pieces, none SELECTIVE or SRC_ERR, no GAP. -/
def Hub.tileWhole (s : Hub) (t : Nat) : Bool :=
  let c := s.cap t
  c.tcs && c.quiet && c.catchCount ≤ c.catchSeen && c.sramSeen == 0xFFFF && !c.flagged && !c.gap

/-- Tiles of a domain of the harvest. -/
def Hub.capsOf (s : Hub) (z : Nat) : List Nat := (s.harv.caps.cells.filter (fun p => p.2.slot == some z)).map Prod.fst

/-- The regions of a domain are captured or digested, status OK. -/
def Hub.regionsOk (s : Hub) (z : Nat) : Bool := (s.harv.regions.filter (fun r => r.slot == z)).all (fun r => r.mode != 2 && r.done && !r.bad)

/-- The domain's stop ended OK (CONSISTENT). -/
def Domain.stopOk (d : Domain) : Bool := d.final == St.OK && d.consistent

/-- A domain of the vintage is restorable (R120). -/
def Hub.domRestorable (s : Hub) (z : Nat) : Bool :=
  (s.dom z).stopOk && !(s.dom z).xpkgLate && (s.capsOf z).all s.tileWhole && s.regionsOk z

/-- SELECTIVE of the header and of the domains. -/
def Hub.harvSelective (s : Hub) : Bool := Sel.rectEn s.harv.sel || Sel.stateOnly s.harv.sel || Sel.rangeEn s.harv.sel

/-- A domain entry (R119). -/
def Hub.domEntry (s : Hub) (z : Nat) : List Byte :=
  let d := s.dom z
  let ts := s.capsOf z
  let complete := ts.all (fun t => !(s.cap t).gap && (s.cap t).tcs)
  let flags := b2n (s.domRestorable z) + 2 * b2n d.stopOk + 4 * b2n (ts.all (fun t => (s.cap t).quiet)) + 8 * b2n complete +
    16 * b2n (s.regionsOk z) + 32 * b2n s.harvSelective + 64 * b2n d.xpkgLate + 128 * b2n d.timeAligned
  let clock := s.divCode 0 + 4 * s.divCode 1 + 16 * b2n (ts.any (fun t => s.partOf t == 0)) + 32 * b2n (ts.any (fun t => s.partOf t == 1))
  padTo 32 (le 1 z ++ le 1 d.priv ++ le 2 d.tag ++ le 2 ts.length ++ le 1 flags ++ le 1 clock ++ le 8 d.scn ++ le 8 d.stopGcn ++
    le 1 d.final ++ zeros 1 ++ le 2 d.profile)

/-- A lane entry. -/
def Hub.laneEntry (s : Hub) (l : Nat) : List Byte :=
  let x := s.lane l
  match x.casks.head? with
  | some c => le 8 (s.geo.descAt c) ++ le 8 x.raw ++ le 8 x.pos ++ le 4 x.blocks ++ zeros 4
  | none => zeros 32

/-- A region entry. -/
def regionEntry (r : RegionCap) : List Byte :=
  padTo 48 (le 1 r.index ++ le 1 r.slot ++ le 1 r.mode ++ le 1 (b2n (r.mode != 2 && (r.bad || !r.done))) ++
    le 4 (if r.mode == 0 then r.pieces else 0) ++ le 8 r.base ++ le 8 r.len ++ le 8 (if r.mode == 2 then 0 else r.digest))

/-- A gap entry. -/
def gapEntry (g : Gap) : List Byte := le 2 g.id ++ le 1 g.reason ++ le 1 g.missing ++ le 2 g.line ++ zeros 2 ++ le 8 g.gcn

/-- A tile entry (R119). (DEDUCED, log entry 342) -/
def Hub.tileEntry (s : Hub) (t : Nat) : List Byte :=
  if !s.harv.caps.keys.contains t then zeros 8
  else
    let c := s.cap t
    let status :=
      if !c.selected then 4
      else if c.gap then 3
      else if !c.tcs then 5
      else
        match c.slot with
        | some z => if (s.dom z).stopOk && s.tileWhole t then 1 else 2
        | none => 2
    let present := b2n c.tcs + 2 * b2n (c.catchSeen != 0) + 4 * b2n (c.sramSeen != 0)
    let lane := if c.placed then c.lane else s.laneOf (colOf t)
    le 8 (c.offset % 2 ^ 40 + lane * 2 ^ 40 + status * 2 ^ 44 + present * 2 ^ 48)

/-- Manifest FLAGS (R118). -/
def Hub.manifestFlags (s : Hub) : Nat :=
  let h := s.harv
  let some_ := !h.slots.isEmpty
  b2n (some_ && h.slots.all s.domRestorable) + 2 * b2n (some_ && h.slots.all (fun z => (s.dom z).stopOk)) +
  4 * b2n (h.gaps.isEmpty && h.ended.isNone) + 8 * b2n s.harvSelective + 16 * b2n (Sel.stateOnly h.sel) + 32 * b2n (h.ref != 0) +
  64 * b2n h.crash + 128 * b2n (Sel.pin h.sel) + 256 * b2n (h.slots.any (fun z => (s.dom z).xpkgLate)) + 512 * b2n h.federated +
  1024 * b2n (some_ && h.slots.all (fun z => (s.dom z).timeAligned)) + 2048 * b2n (Sel.traceSnap h.sel)

/-- The MANIFEST payload (R118, R119). -/
def Hub.manifestBytes (s : Hub) : List Byte :=
  let h := s.harv
  let lanes := List.range 16
  let tiles := (h.caps.cells.filter (fun p => p.2.tcs)).length
  let head := le 2 1 ++ le 2 s.manifestFlags ++ le 4 h.vintage ++ le 4 h.ref ++ le 4 h.openEpoch ++ le 8 h.openGcn ++ le 8 s.now ++
    le 2 s.hubAddr ++ le 2 s.boot.tcsMap ++ le 1 (s.rd F.GLB_GRID_COLUMNS) ++ le 1 (s.rd F.GLB_GRID_ROWS) ++ le 2 h.cause ++
    le 1 h.slots.length ++ zeros 1 ++ le 1 16 ++ le 1 h.req ++ le 2 h.gaps.length ++ le 2 tiles ++
    le 8 (sumNat (lanes.map (fun l => (s.lane l).raw))) ++ le 8 (sumNat (lanes.map (fun l => (s.lane l).pos))) ++ le 4 h.range ++
    le 4 h.rect ++ le 2 h.issuer ++ le 2 h.regions.length
  padMul 16 (padTo 128 head ++ h.slots.flatMap s.domEntry ++ lanes.flatMap s.laneEntry ++ h.regions.flatMap regionEntry ++
    h.gaps.flatMap gapEntry ++ s.gridTiles.flatMap s.tileEntry)

/-- The MANIFEST record. -/
def Hub.manifestRec (s : Hub) : List Byte :=
  let p := s.manifestBytes
  recHeader 6 0 0 (s.harv.vintage % 65536) 0 p ++ p

/-- Everything of the harvest is in the lanes' streams. -/
def Hub.harvReady (s : Hub) : Bool :=
  s.harv.op == 1 && s.harv.admitted && !s.harv.closed &&
  (s.harv.ended.isSome ||
   (s.harv.drained && s.harv.cur.cells.all (fun p => p.2.phase == 3) && s.canes.cells.all (fun p => p.2.queue.isEmpty) &&
    s.lanesUp.all (fun l => (s.lane l).cur.isNone) && s.nextDigest.isNone && !s.phase3Left &&
    s.harv.regions.all (fun r => r.mode == 2 || r.done || r.bad)))

/-- Writes the MANIFEST record into its chain (R169, R170): casks not needed return to the pool. -/
def Hub.putManifest (s : Hub) (rec_ : List Byte) : List Nat × Hub :=
  let size := s.caskSize
  let n := ceilDiv rec_.length size
  let chain := s.harv.manifestChain
  let used := chain.take n
  let s := s.giveBack (chain.drop n)
  let s := doEach (used.zipIdx) s (fun s (c : Nat × Nat) =>
    let part := (rec_.drop (c.2 * size)).take size
    let s := s.putMem (s.geo.caskAt c.1) part
    s.putDesc c.1 { next := if c.2 + 1 < used.length then nth used (c.2 + 1) 0 else noCask, vintage := s.harv.vintage, kind := 2, lane := 0,
                    closed := true, used := part.length, pos := c.2 * size, firstHdr := 0 })
  (used, s)

/-- The lanes after the close of a vintage (R159): a RAW_ONLY lane retires unless its partner is retired. (DEDUCED, log entry 347) -/
def Hub.lanesEnd (s : Hub) : Hub :=
  doEach s.lanesUp s (fun s l =>
    if (s.lane l).mode == 3 then (if s.retired (partner l) then s else s.retireLane l)
    else s.setLane l { s.lane l with mode := 0 })

/-- The closing hub announces a close to the lead hubs (R185). -/
def Hub.announceClose (s : Hub) (vintage flags : Nat) : Hub :=
  let s := doEach (s.fed.leads.filter (fun h => h != s.hubAddr)) s (fun s h =>
    s.sendRequest h Op.CLOSED (le 4 vintage ++ le 1 flags) .unit 0)
  s.closedRx s.hubAddr vintage flags

/-- Phase 4 (R109, R156, R173): streams closed, manifest written, the index entry CLOSED, the superblock rewritten, HARV_DONE. `err` is a fabric
error on the manifest's write or on a metadata access of the close (R180). -/
def Hub.harvDone (s : Hub) (err : Bool) : Hub :=
  if !s.harvReady then s
  else
    let s := doEach s.lanesUp s Hub.closeStream
    let rec_ := s.manifestRec
    let flags := s.manifestFlags
    let lanes := (List.range 16).flatMap (fun l => (s.lane l).casks)
    let pressed := sumNat ((List.range 16).map (fun l => (s.lane l).pos)) + rec_.length
    let m := s.putManifest rec_
    let s := m.2
    let chain := lanes ++ m.1
    let h := s.harv
    let s := s.lanesEnd
    let s := s.endSnap
    if err then
      let s := (s.err Er.HARV_MANIFEST_WRITE).err Er.CELL_FABRIC
      let s := s.giveBack chain
      let s := { s with cell := { s.cell with index := s.cell.index.del h.entry } }
      let s := s.putMem (s.geo.indexAt h.entry) (zeros 64)
      s.harvDrop St.FAULT
    else
      let pin := h.pinAsked && s.pinFits chain.length
      let v : Vint := {
        number := h.vintage, ref := h.ref, state := 2,
        flags := b2n pin + 2 * b2n h.crash + 8 * (flags % 2) + 16 * bitsOf flags 2 1 + 32 * b2n h.federated, seq := s.cell.nextSeq,
        manifest := s.geo.descAt (m.1.headD 0), closeGcn := s.now, epoch := h.openEpoch, casks := chain.length, pressed := pressed,
        chain := chain, hasSecure := h.slots.filter (fun z => (s.dom z).priv == 2) }
      let s := s.putVintage h.entry v
      let s := { s with cell := { s.cell with nextSeq := s.cell.nextSeq + 1 } }
      let s := s.putSuper s.fmtEpoch
      let s := s.setReg64 R.HARV_CLOSE_GCN_LO s.now
      let s := s.wr F.HARV_STATUS_RESTORABLE (flags % 2)
      let s := if h.pinAsked && !pin then s.raiseOf Ev.PIN_LIMIT (h.vintage % 65536) else s
      let s := s.raiseOf Ev.HARV_DONE (h.vintage % 65536)
      let s := s.announceClose h.vintage (flags % 256)
      let s := s.wr F.CELL_STATE_STALLED 0
      (s.harvOwn (h.ended.getD St.OK)).harvJoin

end Sys2Proof.Machine
end

