-- ==== Sys2Proof/Machine/Decant.lean ====
section
/-! DEFINITION. Decant (04_harvest.md, R122 to R126; 05_press.md, R146, R157, R158), harvests of other hubs and packages (R128), and the
answers of the cellar port (R484). -/

namespace Sys2Proof.Machine

/-! ### The records of a vintage -/

/-- A domain entry of a manifest. -/
structure DomEnt where
  slot : Nat
  priv : Nat
  tiles : Nat
  flags : Nat
  scn : Nat
  profile : Nat
deriving DecidableEq, Repr

/-- Reads domain entry `i` of a manifest. -/
def Man.dom (m : List Byte) (i : Nat) : DomEnt :=
  let a := Man.domAt i
  { slot := leAt m a 1, priv := leAt m (a + 1) 1, tiles := leAt m (a + 4) 2, flags := leAt m (a + 6) 1, scn := leAt m (a + 8) 8,
    profile := leAt m (a + 26) 2 }

/-- A region entry of a manifest: index, slot, mode, base, length, digest. -/
def Man.region (m : List Byte) (i : Nat) : RegionCap :=
  let a := Man.regionAt m i
  { index := leAt m a 1, slot := leAt m (a + 1) 1, mode := leAt m (a + 2) 1, base := leAt m (a + 8) 8, len := leAt m (a + 16) 8,
    digest := leAt m (a + 24) 8 }

/-- The regions of a domain. -/
def Man.regionsOf (m : List Byte) (slot : Nat) : List RegionCap :=
  ((List.range (Man.regions m)).map (Man.region m)).filter (fun r => r.slot == slot)

/-- Decodes the stream of a lane of a manifest (R157); none for a lane without a stream. -/
def Hub.decodeLane (s : Hub) (m : List Byte) (map : List (Nat × Nat × Nat)) (ref l : Nat) : Option DecOut :=
  let e := Man.lane m l
  if e.1 == 0 then none
  else
    match s.readChain s.geo e.1 with
    | none => some { recs := [], fail := some (Dec.ECC, 0) }
    | some st =>
      some (decodeStream (st.take e.2.2) (fun body =>
        let h := peekHeader body
        if ref == 0 || (16 ≤ h.length && !([1, 2, 3] : List Nat).contains (leAt h 0 1)) then .error Dec.BAD_REF
        else
          match s.refFetch map ref (leAt h 0 1) (bitsOf (leAt h 2 2) 0 14) (leAt h 9 3) (leAt h 6 3) with
          | (true, _) => .error Dec.FETCH
          | (false, some p) => .ok p
          | (false, none) => .error Dec.NO_REF))

/-- A decoded record with its header fields. -/
def DecRec.rec_ (d : DecRec) : Rec :=
  { type := leAt d.bytes 0 1, flags := leAt d.bytes 1 1, tile := bitsOf (leAt d.bytes 2 2) 0 14,
    offset := leAt d.bytes 9 3, payload := d.bytes.drop 16 }

/-- The record's payload CRC and length are good (R103). -/
def DecRec.good (d : DecRec) : Bool := crc32c (d.bytes.drop 16) == leAt d.bytes 12 4 && (d.bytes.drop 16).length == leAt d.bytes 6 3

/-! ### Refusals of DECANT, R126 -/

/-- The tiles of the slot are those the vintage domain lists as captured (R122): their count, a captured status for each, and no TCS record that
names another slot. -/
def Hub.decantTiles (s : Hub) (m : List Byte) (d : DomEnt) (z : Nat) : Bool :=
  let ts := s.slotTiles z
  let ref := leAt m 8 4
  let map := s.refMapOf ref
  let recs := ((List.range (Man.lanes m)).flatMap (fun l => match s.decodeLane m map ref l with | some o => o.recs | none => [])).map DecRec.rec_
  ts.length == d.tiles &&
  ts.all (fun t => colOf t < Man.cols m && (let st := bitsOf (Man.tile m t) 44 4; st == 1 || st == 2)) &&
  recs.all (fun r => r.type != 1 || !ts.contains r.tile || bitsOf (leAt r.payload 22 1) 0 6 == d.slot)

/-- The closed vintage a DECANT names, with its index entry. -/
def Hub.decantVintage (s : Hub) : Option (Nat × Vint) :=
  match s.findVintage (s.reg R.HARV_VINTAGE) with
  | some (e, v) => if v.state == 2 then some (e, v) else none
  | none => none

/-- Step 1 of R123: the manifest, the domain, the scan map and profile, the reference, the digests. Answers a region that differs. -/
def Hub.decantVerify (s : Hub) (m : List Byte) (d : DomEnt) : Bool × Option Nat :=
  let ref := leAt m 8 4
  if !bitAt d.flags 0 || leAt m 34 2 != s.boot.tcsMap || !s.profilePresent d.profile || (ref != 0 && (s.findVintage ref).isNone) then (false, none)
  else
    match (Man.regionsOf m d.slot).find? (fun r => r.mode == 1 && digestOf (s.mem r.base r.len) 0 != r.digest) with
    | some r => (false, some r.index)
    | none => (true, none)

/-- The status of a DECANT, and the region whose digest differs. (DEDUCED, log entry 90) -/
def Hub.decantCheck (s : Hub) : Nat × Option Nat :=
  let z := s.rd F.HARV_DECANT_SLOT_SLOT
  let i := s.rd F.HARV_DECANT_DOMAIN_INDEX
  let dom := s.dom z
  let v := s.decantVintage
  let man := v.bind (fun p => s.manifestOf s.geo p.2.manifest)
  let ent := man.bind (fun m => if i < Man.domains m then some (Man.dom m i) else none)
  let priv := match ent with
    | some d => d.priv
    | none => dom.priv
  let bad := match man, ent with
    | some m, some d => d.priv != dom.priv || !s.decantTiles m d z
    | some _, none => true
    | none, _ => v.isNone
  if s.isSafe then (St.FAULT, none)
  else if s.scrapped || (priv == 2 && !s.covers Right.SECURE z) then (St.DENIED, none)
  else if bad then (St.BAD_ARG, none)
  else if (s.harv.op != 0 && !dom.failedDecant) || s.corks.any (fun c => c.slots.contains z) then (St.BUSY, none)
  else if dom.st != .stopped then (St.NOT_STOPPED, none)
  else
    match man, ent with
    | some m, some d =>
      let r := s.decantVerify m d
      (if r.1 then St.OK else St.NOT_RESTORABLE, r.2)
    | _, _ => (St.NOT_RESTORABLE, none)

/-- The columns of a slot's tiles, as canes. -/
def Hub.decantCanes (s : Hub) (z : Nat) : List Nat :=
  (s.slotTiles z).foldl (fun l t => insertNat (s.caneFor (colOf t)) l) []

/-- An accepted DECANT: the vintage is held, the lanes that serve one of its streams decode (R157, R158), the regions are read first. -/
def Hub.decantAccept (s : Hub) : Hub :=
  let z := s.rd F.HARV_DECANT_SLOT_SLOT
  match s.decantVintage with
  | none => s
  | some (e, v) =>
    let m := (s.manifestOf s.geo v.manifest).getD []
    let s := s.setDom z { s.dom z with failedDecant := false }
    let s := s.lanesBegin 0
    let ls := (List.range (Man.lanes m)).filter (fun l => (Man.lane m l).1 != 0)
    let s := doEach ls s (fun s l =>
      let p := s.servedBy l
      let s := if (s.lane p).mode == 0 then s.setLane p { s.lane p with mode := 2 } else s
      s.setReg (R.PRESS_STREAM + p * 0x1000) v.number)
    let s := { s with
      cell := { s.cell with index := s.cell.index.set e { v with decantHold := true } }
      harv := { op := 2, slots := [z], vintage := v.number, entry := e, ref := leAt m 8 4, refMap := s.refMapOf (leAt m 8 4), manifest := m, dStep := 2, dLane := 0, dSlot := z,
                dDomain := s.rd F.HARV_DECANT_DOMAIN_INDEX, first := z, argsFrom := s.harv.argsFrom } }
    (((s.refChecked (leAt m 8 4)).harvPhase 6).issued Cu.DECANT).raiseOf Ev.DECANT_STARTED z

/-- A write of HARV_CMD with DECANT. -/
def Hub.decant (s : Hub) : Hub :=
  let st := s.decantCheck
  if st.1 == St.OK then s.decantAccept.harvStatus 2 St.OK false
  else
    let s := match s.decantVintage with
      | some (_, v) => if st.1 == St.NOT_RESTORABLE && ((s.manifestOf s.geo v.manifest).isNone || s.descBad s.geo v.manifest) then s.metaBad v else s
      | none => s
    let s := match st.2 with
      | some r => s.raiseOf Ev.REGION_MISMATCH r
      | none => s
    let busy := !s.flag F.HARV_STATUS_DONE
    let s := s.harvStatus 2 st.1 (!busy)
    if busy then s else s.wr F.HARV_STATUS_FINAL st.1

/-! ### The steps of a decant -/

/-- The domain being restored. -/
def Hub.decantDom (s : Hub) : DomEnt := Man.dom s.harv.manifest s.harv.dDomain

/-- Ends the hold on the vintage and returns the lanes. -/
def Hub.decantLetGo (s : Hub) : Hub :=
  let s := doEach s.lanesUp s (fun s l => if (s.lane l).mode == 2 then s.setLane l { s.lane l with mode := 0 } else s)
  match s.cell.index.cells.find? (fun p => p.1 == s.harv.entry) with
  | some (e, v) => { s with cell := { s.cell with index := s.cell.index.set e { v with decantHold := false } } }
  | none => s

/-- A decant fails in steps 2 to 5 (R124): the slot stays held. (DEDUCED, log entry 91) -/
def Hub.decantFail (s : Hub) (id : Nat) : Hub :=
  let z := s.harv.dSlot
  let s := s.decantLetGo
  let s := doEach (s.decantCanes z) s Hub.turnUp
  let s := s.setDom z { s.dom z with failedDecant := true }
  let s := { s with harv := { op := 2, slots := [z], dSlot := z, first := z, argsFrom := s.harv.argsFrom } }
  let s := s.harvPhase 7
  ((s.harvStatus 2 (s.rd F.HARV_STATUS_STATUS) true).wr F.HARV_STATUS_FINAL St.FAULT).raiseOf Ev.DECANT_FAILED id

/-- A decoder failure of a lane (R158). -/
def Hub.decodeFail (s : Hub) (l code pos : Nat) : Hub :=
  let p := s.servedBy l
  let s := (s.wr (F.PRESS_DEC_ERR_CODE.lane p) code).setReg64 (R.PRESS_DEC_POS_LO + p * 0x1000) pos
  (s.err (Er.PRESS_DECODE.lane p)).raiseOf Ev.DECODE_ERROR p

/-- What a decoder's want of a reference record raises (R148). -/
def Hub.decodeRef (s : Hub) (l code : Nat) : Hub :=
  let p := s.servedBy l
  if code == Dec.FETCH then (s.refFailed p).noReference p
  else if code == Dec.NO_REF then s.noReference p
  else s

/-- An uncorrectable ECC error in a buffer of a lane that decodes (R157, R158): the decant fails. Which block it met is a free value. (DESIGN
CHOICE, log entry 324) -/
def Hub.decodeEcc (s : Hub) (p : Nat) : Hub :=
  if s.harv.op != 2 || s.harv.manifest.isEmpty || !((s.lane p).mode == 2 || (s.lane p).mode == 3) then s
  else
    let d := s.drawWord
    (d.2.decodeFail p Dec.ECC (d.1.toNat % (Man.lane s.harv.manifest p).2.2)).decantFail 0

/-- Writes an EXTREGION piece back (step 2). -/
def Hub.putRegion (s : Hub) (r : Rec) : Hub :=
  match (Man.regionsOf s.harv.manifest s.decantDom.slot).find? (fun x => x.index == r.tile && x.mode == 0) with
  | some x => s.putMem (x.base + r.offset * mebi) r.payload
  | none => s

/-- Loads a TCS record into its tile (step 5): scan content, shadow SCN, seed and issue cap. -/
def Hub.putTcs (s : Hub) (r : Rec) : Hub :=
  let p := r.payload
  let t := r.tile
  let x := s.tile t
  let s := s.putScan t 64 ((p.drop 64).take 1984)
  s.setTile t { x with scn := leAt p 0 8, scnValid := bitAt (leAt p 23 1) 1, seed := leAt p 32 8, cap := leAt p 42 1 }
  |>.showCap

/-- Loads DELIVERY entries into a tile's catch buffer, at the place of their first entry, so in recorded order whichever lane they came on. -/
def Hub.putDeliveries (s : Hub) (r : Rec) : Hub :=
  let x := s.tile r.tile
  let ds := (List.range (r.payload.length / 80)).map (fun i => deliveryOf ((r.payload.drop (80 * i)).take 80))
  s.setTile r.tile { x with catchBuf := x.catchBuf.take r.offset ++ ds ++ x.catchBuf.drop r.offset }

/-- What a step of a decant does with a record. -/
def Hub.decantRec (s : Hub) (step : Nat) (r : Rec) : Hub :=
  let mine := (s.slotTiles s.harv.dSlot).contains r.tile
  let down (s : Hub) : Hub := s.carryRecord (colOf r.tile) r false
  match step, r.type with
  | 2, 4 => s.putRegion r
  | 4, 2 => if mine then (down s).putSram r.tile r.offset r.payload else s
  | 5, 1 => if mine then (down s).putTcs r else s
  | 5, 3 => if mine then (down s).putDeliveries r else s
  | _, _ => s

/-- The canes of the domain are all turned the way a decant needs them. -/
def Hub.canesDown (s : Hub) : Bool := (s.decantCanes s.harv.dSlot).all (fun c => (s.cane c).down && (s.cane c).turning.isNone)

/-- A decant has finished a step on every lane. -/
def Hub.decantNext (s : Hub) : Hub :=
  let go (s : Hub) (n : Nat) : Hub := { s with harv := { s.harv with dStep := n, dLane := 0 } }
  match s.harv.dStep with
  | 2 =>
    let cs := s.decantCanes s.harv.dSlot
    let s := doEach cs s (fun s c => (s.turnCane c true).abandonTaste c)
    if s.canesDown then (go s 4).issued Cu.DECANT else go s 3
  | 4 =>
    let s := doEach (s.slotTiles s.harv.dSlot) s (fun s t => s.setTile t { s.tile t with catchBuf := [] })
    (go s 5).issued Cu.DECANT
  | _ => go s 6

/-- The canes have turned (R26): step 4 begins (R123). -/
def Hub.decantTurned (s : Hub) : Hub :=
  if s.harv.op == 2 && s.harv.dStep == 3 && s.canesDown then
    ({ s with harv := { s.harv with dStep := 4, dLane := 0 } }).issued Cu.DECANT
  else s

/-- The stream of the next lane comes back from the cellar (R123, R158). `err` is a fabric error. (DESIGN CHOICE, log entry 341; DEDUCED, log entry 346) -/
def Hub.decantRead (s : Hub) (err : Bool) : Hub :=
  let h := s.harv
  if h.op != 2 || !(h.dStep == 2 || h.dStep == 4 || h.dStep == 5) then s
  else
    let l := h.dLane
    let s := { s with harv := { h with dLane := l + 1 } }
    let last := Man.lanes h.manifest ≤ l + 1
    match s.decodeLane h.manifest h.refMap h.ref l with
    | none => if last then s.decantNext else s.issued Cu.DECANT
    | some o =>
      if err then
        let d := s.drawWord
        (d.2.decodeFail l Dec.ECC (d.1.toNat % (Man.lane h.manifest l).2.2)).decantFail 0
      else
        let s := s.bump64 (R.PRESS_IN_LO + s.servedBy l * 0x1000) (sumNat (o.recs.map (fun d => d.bytes.length)))
        let s := s.bump64 (R.PRESS_OUT_LO + s.servedBy l * 0x1000) (match o.fail with | some (_, pos) => pos | none => (Man.lane h.manifest l).2.2)
        match o.fail, o.recs.find? (fun d => !d.good) with
        | some (c, pos), _ =>
          let s := match s.findVintage h.vintage with
            | some (_, v) => if c == Dec.ECC && s.descBad s.geo v.manifest then s.metaBad v else s
            | none => s
          ((s.decodeRef l c).decodeFail l (if c == Dec.FETCH then Dec.NO_REF else c) pos).decantFail ((o.recs.getLast?.map (fun d => d.rec_.tile)).getD 0)
        | none, some d => s.decantFail d.rec_.tile
        | none, none =>
          let s := doEach o.recs s (fun s d => s.decantRec h.dStep d.rec_)
          if last then s.decantNext else s.issued Cu.DECANT

/-- Step 6 (R123): the canes turn back, the slot's reference SCN is the stop SCN, DECANT_DONE. -/
def Hub.decantDone (s : Hub) : Hub :=
  if s.harv.op != 2 || s.harv.dStep != 6 then s
  else
    let z := s.harv.dSlot
    let scn := s.decantDom.scn
    let s := doEach (s.decantCanes z) s Hub.turnUp
    let s := s.setDom z { s.dom z with scn := scn, final := St.OK, consistent := true, stopNow := false, xpkgLate := false }
    let s := ((s.startHistory z).traceContext z 6).decantLetGo
    let s := { s with harv := { argsFrom := s.harv.argsFrom } }
    let s := (s.harvStatus 2 (s.rd F.HARV_STATUS_STATUS) true).wr F.HARV_STATUS_FINAL St.OK
    (s.harvPhase 0).raiseOf Ev.DECANT_DONE z

/-- The ladder ends a decant (R30): its tiles are not restorable, the engine is free. -/
def Hub.decantEnd (s : Hub) : Hub :=
  if s.harv.op != 2 then s
  else
    let z := s.harv.dSlot
    let s := doEach (s.decantCanes z) s.decantLetGo Hub.turnUp
    let s := s.setDom z { s.dom z with failedDecant := true, consistent := false }
    let s := { s with harv := { argsFrom := s.harv.argsFrom } }
    let s := (s.harvStatus 2 (s.rd F.HARV_STATUS_STATUS) true).wr F.HARV_STATUS_FINAL St.FAULT
    (s.harvPhase 0).raiseOther Ev.DECANT_FAILED z

/-- The status of a DECANT_RELEASE. -/
def Hub.decantReleaseCheck (s : Hub) : Nat :=
  let z := s.rd F.HARV_DECANT_SLOT_SLOT
  if s.isSafe then St.FAULT
  else if s.scrapped then St.DENIED
  else if (s.dom z).failedDecant then St.OK
  else if s.harv.op != 0 then St.BUSY
  else St.NOT_STOPPED

/-- A write of HARV_CMD with DECANT_RELEASE (R124). -/
def Hub.decantRelease (s : Hub) : Hub :=
  let st := s.decantReleaseCheck
  let s := if st == St.OK then
      let s := s.closeSlot (s.rd F.HARV_DECANT_SLOT_SLOT)
      ({ s with harv := { argsFrom := s.harv.argsFrom } }).harvPhase 0
    else s
  let busy := !s.flag F.HARV_STATUS_DONE
  let s := s.harvStatus 4 st (!busy)
  if busy then s else s.wr F.HARV_STATUS_FINAL st

/-- A write of HARV_CMD. -/
def Hub.harvCmd (s : Hub) (r : Req) (op : Nat) : Hub :=
  match op with
  | 1 => s.harvest r
  | 2 => s.decant
  | 3 => s.harvAbort
  | 4 => s.decantRelease
  | _ =>
    let st := if s.isSafe then St.FAULT else if s.scrapped then St.DENIED else St.BAD_ARG
    let busy := !s.flag F.HARV_STATUS_DONE
    let s := s.harvStatus op st (!busy)
    if busy then s else s.wr F.HARV_STATUS_FINAL st

/-! ### Harvests of other hubs and packages, R128 -/

/-- A HARVEST_ARGS command is kept until the HARVEST of the same TXN (R333). -/
def Hub.harvestArgsRx (s : Hub) (src txn : Nat) (args : List Byte) : Hub :=
  let rest := s.harv.argsFrom.filter (fun p => !(p.1 == src && p.2.1 == txn))
  { s with harv := { s.harv with argsFrom := rest ++ [(src, txn, args)] } }

/-- The request that a HARVEST command with its HARVEST_ARGS spells. -/
def fedHarvReq (args argsE : List Byte) : HarvReq :=
  { a := { kind := bitsOf (leAt argsE 9 1) 0 3, fed := false, xpkg := false, part := 0, slot := 0, tag := leAt args 6 2, mode := 0, target := 0,
           count := 0 },
    sel := leAt args 4 2, rect := leAt argsE 0 4, range := leAt argsE 4 4, vintage := leAt args 0 4, ref := leAt args 8 4,
    snap := leAt argsE 8 1, req := 5 }

/-- A HARVEST command from the issuer (R128): refused on its own, or a member harvest under the issuer's vintage number; without its
HARVEST_ARGS it is refused with BAD_ARG. A member that holds no domain of the job has nothing to harvest. (DESIGN CHOICE, log entry 86) -/
def Hub.fedHarvestRx (s : Hub) (src txn : Nat) (args : List Byte) : Hub :=
  match s.harv.argsFrom.find? (fun p => p.1 == src && p.2.1 == txn) with
  | none => s.answer src Op.HARVEST txn St.BAD_ARG (le 1 St.BAD_ARG)
  | some (_, _, argsE) =>
    let s := { s with harv := { s.harv with argsFrom := s.harv.argsFrom.filter (fun p => !(p.1 == src && p.2.1 == txn)) } }
    let h := { fedHarvReq args argsE with issuer := some src, txn := some txn }
    let st := s.harvCheck { h with a := { h.a with fed := true } }
    if st != St.OK then (s.harvRefused st h).answer src Op.HARVEST txn st (le 1 st)
    else if h.a.kind == 1 && (s.scopeSlots h.a).isEmpty then s.answer src Op.HARVEST txn St.OK (le 1 St.OK)
    else (s.harvAccept h).harvStatus 1 St.OK false

/-- An XPKG harvest from the TDC (R128, R335, R362): issued in the package as a federated harvest. -/
def Hub.xpkgHarvest (s : Hub) (tag issuer xid : Nat) (args argsE : List Byte) : Hub :=
  let h := fedHarvReq args argsE
  let h := { h with a := { h.a with fed := true }, req := 1, issuer := some issuer, xsrc := some (xid, tag) }
  let res := s.harvIssue h
  if res.1 == St.OK then res.2.harvStatus 1 St.OK false
  else res.2.portRespond tag Mt.XPKG Mt.XPKG_REPORT true (xpkgReportBody xid res.1 false s.hubAddr 0)

end Sys2Proof.Machine
end

