-- ==== Sys2Proof/Machine/Digest.lean ====
section
/-! DEFINITION. Weight digests (09_tasting.md, R259 to R267, R273, R277 and R278): descriptors, tile passes, external
passes, comparison, repetition and the passes of a federation. -/

namespace Sys2Proof.Machine

/-! ### DIGEST_ARG -/

def Da.slot (a : Nat) : Nat := bitsOf a 0 6
def Da.set (a : Nat) : Nat := bitsOf a 6 3
def Da.perTile (a : Nat) : Bool := bitAt a 9
def Da.fed (a : Nat) : Bool := bitAt a 10
def Da.compare (a : Nat) : Bool := bitAt a 11
def Da.repeats (a : Nat) : Bool := bitAt a 12
def Da.region (a : Nat) : Nat := bitsOf a 16 8

/-! ### Tile partials, R261 and R262 -/

/-- START, SET and COUNT of a descriptor. -/
def DigDesc.start (d : DigDesc) : Nat := bitsOf d.range 0 13
def DigDesc.set (d : DigDesc) : Nat := bitsOf d.range 13 3
def DigDesc.count (d : DigDesc) : Nat := bitsOf d.range 16 14

/-- The words a descriptor covers: up to the end of SRAM. -/
def DigDesc.words (d : DigDesc) : Nat := least d.count (8192 - d.start)

/-- The digest of one descriptor's words. -/
def Hub.descSum (s : Hub) (t : Nat) (d : DigDesc) : Nat := digestOf (s.sram t (8 * d.start) (8 * d.words)) (d.lbase / 8 * 8)

/-- A tile's partial of a set. -/
def Hub.tilePartial (s : Hub) (t set : Nat) : Nat :=
  sumNat (((s.tile t).dig.filter (fun d => d.set == set)).map (s.descSum t)) % 2 ^ 64

/-! ### Passes -/

/-- A pass of either kind. -/
def Hub.pass (s : Hub) (ext : Bool) : Pass := if ext then s.digExt else s.digTiles

/-- Sets a pass. -/
def Hub.setPass (s : Hub) (ext : Bool) (p : Pass) : Hub := if ext then { s with digExt := p } else { s with digTiles := p }

/-- Writes DIGEST_CMD_STATUS.DONE: 0 while a pass is outstanding. -/
def Hub.digestBusy (s : Hub) : Hub := s.wr F.DIGEST_CMD_STATUS_DONE (b2n (!s.digTiles.active && !s.digExt.active))

/-- Starts a tile pass; with FED the members are asked for their sums (R267). -/
def Hub.startTiles (s : Hub) (arg : Nat) (hasBase : Bool) (fedReq : Option (Nat × Nat)) : Hub :=
  let z := Da.slot arg
  let left := if Da.fed arg then s.members else []
  let s := { s with digTiles := {
    active := true, slot := z, set := Da.set arg, arg := arg, startedAt := s.time.hclk, hasBase := hasBase, fedLeft := left,
    fedReq := fedReq } }
  let s := doEach left s (fun s h => s.sendRequest h Op.DIGEST (le 2 (s.dom z).tag ++ le 1 (Da.set arg) ++ le 1 0) .unit h)
  s.digestBusy

/-- Starts an external pass: the region is read through the cellar port. -/
def Hub.startExt (s : Hub) (arg : Nat) (hasBase : Bool) : Hub :=
  let s := { s with digExt := { active := true, arg := arg, startedAt := s.time.hclk, hasBase := hasBase } }
  (s.issued Cu.DIGEST).digestBusy

/-- DIGEST_PERIOD. -/
def Hub.digestPeriod (s : Hub) : Nat := let p := s.rd F.DIGEST_PERIOD_HCLK; if p < 262144 then 262144 else p

/-- The address of a tile's entry in the tile table (R263). -/
def Hub.tableAt (s : Hub) (t : Nat) : Nat :=
  s.reg64 R.DIGEST_TABLE_BASE_LO / 64 * 64 + 8 * (rowOf t * s.rd F.GLB_GRID_COLUMNS + colOf t)

/-- Whether the sum of a pass is compared (R264). -/
def Pass.compares (p : Pass) : Bool := Da.compare p.arg || (Da.repeats p.arg && p.hasBase)

/-- Sets DIGEST_NAMED. -/
def Hub.digestNamed (s : Hub) (t : Option Nat) (missing : Bool) : Hub :=
  s.setReg R.DIGEST_NAMED (match t with | some t => t + 0x4000 + b2n missing * 0x8000 | none => 0)

/-- A repeating pass is set down for its next period: the one of the same kind and arguments is replaced (R264). (DESIGN CHOICE, log entry 325) -/
def Hub.repeatPass (s : Hub) (a : Again) : Hub :=
  { s with digAgain := s.digAgain.filter (fun x => !(x.ext == a.ext && x.arg == a.arg)) ++ [a] }

/-- A pass is over: the combiner is free, FINAL, the count and the period are shown, a member's pass is answered, and a repeating one
will be issued again. -/
def Hub.passOver (s : Hub) (ext : Bool) (final : Nat) (hasBase : Bool) : Hub :=
  let p := s.pass ext
  let s := (s.wr F.DIGEST_CMD_STATUS_FINAL final).bump F.DIGEST_PASSES_COUNT 1
  let s := s.setReg64 R.DIGEST_DONE_GCN_LO s.now
  let s := s.setPass ext { p with
    active := false, hasBase := hasBase, fedLeft := [], missing := none }
  let s := if Da.repeats p.arg && p.fedReq.isNone then
      s.repeatPass { ext := ext, arg := p.arg, nextAt := p.startedAt + s.digestPeriod, hasBase := hasBase }
    else s
  let s := match p.fedReq with
    | some (src, txn) => s.answer src Op.DIGEST txn final (le 8 p.sum)
    | none => s
  s.digestBusy

/-- A pass that missed a tile, a member or its data (R265, R266). -/
def Hub.passFault (s : Hub) (ext : Bool) (named : Option Nat) : Hub :=
  let p := s.pass ext
  let s := s.setReg R.DIGEST_RESULT_INFO (sat 15 p.tiles + 0x8000)
  let s := s.digestNamed (if ext then none else named) true
  (match named with
    | some r => if ext then s.raiseOther Ev.DIGEST_INCOMPLETE r else s.raiseOf Ev.DIGEST_INCOMPLETE r
    | none => s.raise Ev.DIGEST_INCOMPLETE).passOver ext St.FAULT p.hasBase

/-- A pass that ended OK (R264): its sum is shown and compared. -/
def Hub.passOk (s : Hub) (ext : Bool) : Hub :=
  let p := s.pass ext
  let diff := p.diff
  let unit := if ext then Da.region p.arg else p.slot
  let s := s.setReg64 R.DIGEST_RESULT_LO p.sum
  let first := Da.repeats p.arg && !Da.compare p.arg && !p.hasBase
  let s := if first then s.setReg64 R.DIGEST_EXPECT_LO p.sum else s
  let same := p.sum == s.reg64 R.DIGEST_EXPECT_LO
  let s := s.setReg R.DIGEST_RESULT_INFO
    (sat 15 p.tiles + b2n p.compares * 0x10000 + b2n (p.compares && same) * 0x20000 + sat 14 diff.length * 0x40000)
  let s := s.digestNamed diff.head? false
  let s := s.raiseOf Ev.DIGEST_DONE unit
  let s := if p.compares && !same then (match diff with
      | t :: _ => s.raiseOf Ev.DIGEST_MISMATCH t
      | [] => s.raiseOther Ev.DIGEST_MISMATCH unit) else s
  s.passOver ext St.OK (p.hasBase || first)

/-- The tiles whose table entry differs from the new partial; read before the table is written. -/
def Hub.tableDiff (s : Hub) (p : Pass) (tiles : List Nat) : List Nat :=
  if Da.perTile p.arg && p.compares then tiles.filter (fun t => leAt (s.mem (s.tableAt t) 8) 0 8 != (s.tile t).partialSum) else []

/-- Ends a tile pass when the own part and every member's sum are there. -/
def Hub.passJoin (s : Hub) : Hub :=
  let p := s.digTiles
  if !p.active || !p.own || !p.fedLeft.isEmpty then s
  else if p.missing.isSome || p.fedBad then s.passFault false p.missing
  else s.passOk false

/-- A tile's partial passes on its cane as CLASS 0, two words tagged with its row, SOR on the first and EOR on the second (R27, R102, R263). -/
def Hub.partialSlot (s : Hub) (t : Nat) : Hub :=
  let c := colOf t
  let q := s.caneFor c
  let v := (s.tile t).partialSum
  s.setCane q { s.cane q with
    sor := caneSlot v (slotTag 0 (rowOf t) (q != c) true false false 0)
    slot := caneSlot (v / 2 ^ 32) (slotTag 0 (rowOf t) (q != c) false true false 0) }

/-- The partials of a tile pass reach the combiner (R262, R263). A tile whose partial failed its CRC on both copies is named in `crcBad`. -/
def Hub.tilesSummed (s : Hub) (crcBad : Option Nat) : Hub :=
  let p := s.digTiles
  let tiles := s.slotTiles p.slot
  let s := doEach tiles s (fun s t => s.setTile t { s.tile t with partialSum := s.tilePartial t p.set })
  let s := match crcBad with
    | some t => if tiles.contains t then
        { (s.err Er.DIGEST_PARTIAL_CRC) with digTiles := { p with missing := some (least t (p.missing.getD t)) } }
      else s
    | none => s
  let good := tiles.filter (fun t => crcBad != some t)
  let diff := s.tableDiff p good
  let s := if Da.perTile p.arg then
      doEach good s (fun s t => (s.partialSlot t).putMem (s.tableAt t) (le 8 (s.tile t).partialSum)) |> fun s => s.issued Cu.TABLE
    else s
  let sum := (p.sum + sumNat (good.map (fun t => (s.tile t).partialSum))) % 2 ^ 64
  let s := { s with digTiles := { s.digTiles with sum := sum, own := true, tiles := good.length, diff := diff } }
  s.passJoin

/-- The partials that a tile pass with PER_TILE sends on the canes wait while the cane of one of its tiles is turned downward (R29, R272). -/
def Hub.sumsWait (s : Hub) : Bool := Da.perTile s.digTiles.arg && (s.slotTiles s.digTiles.slot).any (fun t => s.caneDown (s.caneFor (colOf t)))

/-- The end of a pass is reached (R262, R266). (DEDUCED, log entry 130) -/
def Hub.digestPassEnd (s : Hub) (ext : Bool) (crcBad : Option Nat) : Hub :=
  let p := s.pass ext
  if !p.active then s
  else if !ext then (if p.own || s.sumsWait then s else s.tilesSummed crcBad)
  else if p.own then s.passOk true
  else s

/-- The cellar port answered the external pass (R266). -/
def Hub.extRead (s : Hub) (err : Bool) : Hub :=
  let p := s.digExt
  if !p.active then s
  else if err then (s.err Er.DIGEST_FABRIC).passFault true (some (Da.region p.arg))
  else
    let i := Da.region p.arg
    let base := s.reg64B R.HARV_REGION_BASE_LO i / 64 * 64
    let len := s.reg64B R.HARV_REGION_LEN_LO i / 64 * 64
    let sum := digestOf (s.mem base len) 0
    ({ s with digExt := { p with sum := sum, own := true } }).setReg64B R.HARV_REGION_DIGEST_LO i sum

/-- A write of the tile table came back with a fabric error. -/
def Hub.tableAnswered (s : Hub) (err : Bool) : Hub := if err then s.err Er.DIGEST_FABRIC else s

/-- A member answers with its sum (R267). -/
def Hub.digestMember (s : Hub) (hub status sum : Nat) : Hub :=
  let p := s.digTiles
  if !p.active || !p.fedLeft.contains hub then s
  else
    let s := { s with digTiles := { p with
      fedLeft := removeNat hub p.fedLeft, fedBad := p.fedBad || status != St.OK, sum := (p.sum + sum) % 2 ^ 64 } }
    s.passJoin

/-- DIGEST_PERIOD has passed: the first repeating pass of the kind that is due is issued again, once no pass of the kind is running (R264). While its
slot is empty it waits for its next period. -/
def Hub.digestRepeat (s : Hub) (ext : Bool) : Hub :=
  match s.digAgain.find? (fun a => a.ext == ext && a.nextAt ≤ s.time.hclk) with
  | none => s
  | some a =>
    if (s.pass ext).active then s
    else if ext then s.startExt a.arg a.hasBase
    else if (s.dom (Da.slot a.arg)).st == .empty then s.repeatPass { a with nextAt := s.time.hclk + s.digestPeriod }
    else s.startTiles a.arg a.hasBase none

/-- A DIGEST command from another hub (R267): the member digests its slot with that tag. -/
def Hub.fedDigestRx (s : Hub) (src txn : Nat) (args : List Byte) : Hub :=
  let tag := leAt args 0 2
  let set := leAt args 2 1 % 8
  if s.isSafe then s.answer src Op.DIGEST txn St.FAULT []
  else if !s.flag F.FED_CTRL_EN then s.answer src Op.DIGEST txn St.UNSUPPORTED []
  else
    match s.openSlots.find? (fun z => (s.dom z).tag == tag) with
    | none => s.answer src Op.DIGEST txn St.OK (le 8 0)
    | some z =>
      if s.digTiles.active then s.answer src Op.DIGEST txn St.BUSY []
      else s.startTiles (z + set * 64) false (some (src, txn))

/-! ### DIGEST_CMD, R273 -/

/-- A decant holds the slot. -/
def Hub.decantHolds (s : Hub) (z : Nat) : Bool := (s.harv.op == 2 && s.harv.dSlot == z) || (s.dom z).failedDecant

/-- The status of a DIGEST_CMD by the rows of R273. -/
def Hub.digestCheck (s : Hub) (op : Nat) : Nat :=
  let a := s.reg R.DIGEST_ARG
  if s.isSafe then St.FAULT
  else if op == 0 || 4 < op || (op == 1 && (s.dom (Da.slot a)).st == .empty) ||
      (op == 2 && s.rdB F.HARV_REGION_CTRL_VALID (Da.region a) != 1) then St.BAD_ARG
  else if op ≤ 2 && Da.fed a && !s.flag F.FED_CTRL_EN then St.UNSUPPORTED
  else if (op == 1 && (s.digTiles.active || s.decantHolds (Da.slot a))) || (op == 2 && s.digExt.active) then St.BUSY
  else St.OK

/-- ABORT: a running or repeating pass of either kind ends; a member's is answered with FAULT. (DEDUCED, log entry 131) -/
def Hub.digestAbort (s : Hub) : Hub :=
  let s := match s.digTiles.fedReq with
    | some (src, txn) => if s.digTiles.active then s.answer src Op.DIGEST txn St.FAULT [] else s
    | none => s
  ({ s with digTiles := {}, digExt := {}, digAgain := [] }).digestBusy

/-- A write of DIGEST_CMD. -/
def Hub.digestCmd (s : Hub) (op : Nat) : Hub :=
  let st := s.digestCheck op
  let a := s.reg R.DIGEST_ARG
  let s := (s.wr F.DIGEST_CMD_STATUS_STATUS st).wr F.DIGEST_CMD_STATUS_OP op
  if st != St.OK then s
  else
    match op with
    | 1 => s.startTiles a false none
    | 2 => s.startExt a false
    | 3 => s.digestAbort
    | _ => s.wr F.DIGEST_PASSES_COUNT 0

end Sys2Proof.Machine
end

