-- ==== Sys2Proof/Machine/Hang.lean ====
section
/-! DEFINITION. The hang controller (10_hang_reset.md, R282 to R296 and R308 to R312): monitors, beats, divergence, audits and fences. The steps of
a policy are in Policy.lean. -/

namespace Sys2Proof.Machine

/-! ### Monitors, R284 to R286 -/

/-- HANG_CEIL, no less than HANG_FLOOR. -/
def Hub.hangCeil (s : Hub) : Nat :=
  let f := s.rd F.HANG_FLOOR_HCLK
  let c := s.rd F.HANG_CEIL_HCLK
  if c < f then f else c

/-- The threshold in force of a slot's monitor, in 1/16 HCLK (R285). (DEDUCED, log entry 166) -/
def Hub.hangThreshold (s : Hub) (z : Nat) : Nat :=
  let m := s.mon z
  let init := 16 * s.rd F.HANG_INIT_HCLK
  if s.rdB F.HANG_MON_CFG_FIXED z == 1 || m.durs.length < 16 then init
  else
    let v := 8 * maxNat m.durs
    let lo := 16 * s.rd F.HANG_FLOOR_HCLK
    let hi := 16 * s.hangCeil
    if v < lo then lo else if hi < v then hi else v

/-- The state of a monitor that is not FIRED (R285). -/
def Hub.monState (s : Hub) (z : Nat) (durs : List Nat) : Nat :=
  if s.rdB F.HANG_MON_CFG_EN z == 0 then 0 else if durs.length < 16 then 1 else 2

/-- One HCLK period of a slot's monitor (R284): it advances by 16 − k while the domain is RUNNING. -/
def Hub.monTick (s : Hub) (z : Nat) : Hub :=
  let m := s.mon z
  let d := s.dom z
  if d.st != .running || m.st == 0 || s.rdB F.HANG_MON_CFG_EN z == 0 then s
  else s.setMon z { m with timer := m.timer + (16 - popCount 16 d.mask) }

/-- Fault kinds of HANG_LAST_FAULT. -/
def Fk.BEAT : Nat := 0
def Fk.DIVERGE : Nat := 1
def Fk.STROBE : Nat := 2
def Fk.PARTIAL : Nat := 3
def Fk.CORK : Nat := 4

/-- Records a fault in the HANG_LAST registers; without a tile, TILE_VALID is clear. -/
def Hub.hangLast (s : Hub) (z kind : Nat) (tile : Option Nat) (all : Bool) (delta : Int) : Hub :=
  let t := match tile with
    | some t => t % 0x4000 + 0x4000
    | none => 0
  let s := s.setReg R.HANG_LAST_FAULT (t + b2n all * 0x8000 + z * 0x10000 + kind * 2 ^ 22)
  (s.setReg R.HANG_LAST_DELTA (satSigned 32 delta)).setReg64 R.HANG_LAST_GCN_LO s.now

/-- The monitor of a slot enters FIRED and its policy is to begin, unless it is FIRED already (R286, R291); a policy in progress
goes on alone (R293). -/
def Hub.hangFire (s : Hub) (z policy code : Nat) (tile : Option Nat) : Hub :=
  let m := s.mon z
  if m.st == 3 then s
  else
    let s := s.setMon z { m with st := 3 }
    if m.policy != 0 || policy == 0 then s
    else s.setMon z { s.mon z with policy := policy, pstep := 0, pstatus := 0, pcause := code, ptile := tile, retryAt := 0, pdue := true }

/-- A slot is handled as divergent (R291): recorded, FIRED, DIV_POLICY. -/
def Hub.diverge (s : Hub) (z kind code : Nat) (tile : Option Nat) (delta : Int) : Hub :=
  (s.hangLast z kind tile false delta).hangFire z (s.rdB F.HANG_MON_CFG_DIV_POLICY z) code tile

/-- Tiles and slots handed over as divergent (R71, R291, R331): a number beyond the tiles says that no tile is named. -/
def Hub.takeReports (s : Hub) : Hub :=
  let l := s.hangCtl.reports
  let s := { s with hangCtl := { s.hangCtl with reports := [] } }
  doEach l s (fun s r =>
    if r.2.1 == 0x4000 then s.diverge r.1 Fk.DIVERGE (if r.2.2 == 0 then Ev.STALL_LATE else Ev.JOB_SKEW) none r.2.2
    else s.diverge r.1 Fk.CORK (if r.2.2 == 0 then Ev.CORK_TIMEOUT else Ev.CORK_SKEW) (some r.2.1) r.2.2)

/-- Timers above their threshold fire (R286). -/
def Hub.hangExpiry (s : Hub) : Hub :=
  doEach s.openSlots s (fun s z =>
    let m := s.mon z
    if (m.st == 1 || m.st == 2) && s.rdB F.HANG_MON_CFG_EN z == 1 && s.hangThreshold z < m.timer then
      let s := s.raiseOf Ev.HANG_BEAT z
      let s := s.hangLast z Fk.BEAT none false 0
      s.hangFire z (s.rdB F.HANG_MON_CFG_BEAT_POLICY z) Ev.HANG_BEAT none
    else s)

/-- The oldest beat report of a slot with that count leaves the trellis; where the spurs' tap edges were not commanded none waits there. -/
def Hub.beatTaken (s : Hub) (z count : Nat) : Hub :=
  match s.hangCtl.beats.find? (fun b => b.slot == z && b.count == count) with
  | some b => { s with hangCtl := { s.hangCtl with beats := s.hangCtl.beats.erase b } }
  | none => s

/-- The tiles of a slot that its beats and audits count: those assigned before it last resumed (R303). -/
def Hub.countedTiles (s : Hub) (z : Nat) : List Nat := (s.slotTiles z).filter (fun t => !(s.tile t).fresh)

/-- A beat report reaches the root (R283, R284): complete when it counts every tile of the slot, otherwise partial, and audited at once. (DEDUCED, log entry 350) -/
def Hub.beatReport (s : Hub) (z count : Nat) : Hub :=
  let s := s.beatTaken z count
  if !s.flag F.HANG_CTRL_BEAT_EN || (s.dom z).st == .empty then s
  else if count == (s.countedTiles z).length then
    let m := s.mon z
    if s.rdB F.HANG_MON_CFG_EN z == 0 || m.st == 0 then s
    else
      let durs := if m.openSkip then m.durs else (m.timer :: m.durs).take 16
      s.setMon z { m with durs := durs, timer := 0, openSkip := false, st := s.monState z durs }
  else
    let s := s.raiseOf Ev.BEAT_PARTIAL z
    let s := if (s.dom z).stopNow then s
      else { s with hangCtl := { s.hangCtl with audits := s.hangCtl.audits ++ [{ slot := z, gq := s.time.hclk + 32, names := true }] } }
    s.diverge z Fk.PARTIAL Ev.BEAT_PARTIAL none 0

/-- A spur's strobe fault report (R287): latched once per tile. (DEDUCED, log entry 152) -/
def Hub.strobeFaultRx (s : Hub) (t : Nat) : Hub :=
  let x := s.tile t
  if !s.flag F.HANG_CTRL_STROBE_EN || x.st != .inContext || !x.scnValid || (x.strobeFault && !x.strobeDue) then s
  else
    let s := s.setTile t { x with strobeFault := true, strobeDue := false }
    let s := s.raiseOf Ev.SCN_STROBE t
    s.diverge x.slot Fk.STROBE Ev.SCN_STROBE (some t) 0

/-! ### Audits, R288 to R290 -/

/-- The slots audited, ascending. -/
def Hub.auditSlots (s : Hub) : List Nat := s.openSlots.filter (fun z => !(s.dom z).stopNow)

/-- The next audit wave (R288). (DEDUCED, log entry 160) -/
def Hub.auditTick (s : Hub) : Hub :=
  if !s.flag F.HANG_CTRL_AUDIT_EN || !s.elapsed s.hangCtl.auditAt 16 then s
  else
    let l := s.auditSlots
    match l.find? (fun z => s.hangCtl.auditSlot < z) <|> l.head? with
    | some z => { s with hangCtl := { s.hangCtl with
        auditAt := s.time.hclk, auditSlot := z, audits := s.hangCtl.audits ++ [{ slot := z, gq := s.time.hclk + 32 }] } }
    | none => s

/-- The tiles whose shadow differs from the reference, with shadow minus reference. -/
def Hub.auditDiffs (s : Hub) (z : Nat) : List (Nat × Int) :=
  ((s.countedTiles z).filter (fun t => (s.tile t).scnValid && (s.tile t).scn != (s.dom z).scn)).map
    (fun t => (t, ((s.tile t).scn : Int) - (s.dom z).scn))

/-- The spurs latch their shadows in the period Gq. -/
def Hub.auditLatch (s : Hub) : Hub :=
  { s with hangCtl := { s.hangCtl with audits := s.hangCtl.audits.map (fun a =>
      if a.gq ≤ s.time.hclk && a.diffs.isNone then { a with diffs := some (s.auditDiffs a.slot) } else a) } }

/-- Every tile of the slot disagrees by the same amount. -/
def Hub.auditAll (s : Hub) (z : Nat) (diffs : List (Nat × Int)) : Bool :=
  match diffs with
  | [] => false
  | d :: rest => rest.all (fun e => e.2 == d.2) && diffs.length == (s.countedTiles z).length

/-- The result of an audit (R290). The audit of a partial beat names the tile, for its policy too (R292),
and raises no event of its own (R283). A later audit of a FIRED slot that HANG_LAST_FAULT names updates its count and difference (R312). (DESIGN CHOICE, log entry 352) -/
def Hub.auditJudge (s : Hub) (z : Nat) (names : Bool) (diffs : List (Nat × Int)) : Hub :=
  if (s.mon z).st == 3 && !names then
    if s.rd F.HANG_LAST_FAULT_SLOT == z then
      (s.setReg R.HANG_DIV_COUNT (sat 15 diffs.length)).setReg R.HANG_LAST_DELTA (satSigned 32 ((diffs.map Prod.snd).headD 0))
    else s
  else match diffs with
  | [] => s
  | d :: _ =>
    let s := s.setReg R.HANG_DIV_COUNT (sat 15 diffs.length)
    let all := s.auditAll z diffs
    let tile := if all then none else some d.1
    if names then
      let s := s.hangLast z Fk.PARTIAL tile all d.2
      let m := s.mon z
      if m.policy != 0 && m.pcause == Ev.BEAT_PARTIAL && m.ptile.isNone then s.setMon z { m with ptile := tile } else s
    else
      let s := s.raiseOf Ev.SCN_DIVERGE (tile.getD z)
      let s := s.hangLast z Fk.DIVERGE tile all d.2
      s.hangFire z (s.rdB F.HANG_MON_CFG_DIV_POLICY z) Ev.SCN_DIVERGE tile

/-- The reduced result of the oldest audit arrives, by Gq + 32; with `crcBad` its responses failed their CRC on both copies and it is
repeated at the slot's next turn (R311). -/
def Hub.auditResult (s : Hub) (crcBad : Bool) : Hub :=
  match s.hangCtl.audits with
  | [] => s
  | a :: rest =>
    match a.diffs with
    | none => s
    | some d =>
      let s := { s with hangCtl := { s.hangCtl with audits := rest } }
      if crcBad then s.err Er.HANG_AUDIT_CRC else s.auditJudge a.slot a.names d

/-! ### Fences, R294 to R296 -/

/-- Asserts the fence request of a slot. -/
def Hub.fence (s : Hub) (z : Nat) : Hub :=
  let m := s.mon z
  if m.fenceAt.isSome then s
  else s.setMon z { m with fenceAt := some s.time.hclk, fenceAck := false, fenced := false, abandon := false }

/-- Withdraws the fence request of a slot. -/
def Hub.unfence (s : Hub) (z : Nat) : Hub :=
  s.setMon z { s.mon z with fenceAt := none, fenceAck := false, fenced := false, abandon := false }

/-- Ends a fence with FENCE_RELEASED. -/
def Hub.fenceRelease (s : Hub) (z : Nat) : Hub :=
  if (s.mon z).fenceAt.isSome then (s.unfence z).raiseOf Ev.FENCE_RELEASED z else s

/-- A slot is fenced: no request of it is outstanding. A policy and a ladder level that wait for it go on. -/
def Hub.fenceShut (s : Hub) (z : Nat) : Hub :=
  let m := s.mon z
  let s := s.setMon z { m with fenced := true, fenceAck := true, abandon := false, pdue := m.pdue || (m.policy != 0 && m.pstep == 2) }
  let s := { s with ladder := { s.ladder with drain := removeNat z s.ladder.drain } }
  s.raiseOf Ev.FENCED z

/-- FENCE_DRAINED of a slot rises (R294). -/
def Hub.fenceDrained (s : Hub) (z : Nat) : Hub :=
  let m := s.mon z
  if m.fenceAt.isSome && !m.fenced then s.fenceShut z else s

/-- HANG_FENCE_DRAIN has passed without the drain (R295). -/
def Hub.fenceDrainLimit (s : Hub) : Hub :=
  doEach s.hang.keys s (fun s z =>
    let m := s.mon z
    match m.fenceAt with
    | some t =>
      if !m.fenced && !m.abandon && s.elapsed t (s.rd F.HANG_FENCE_DRAIN_HCLK) then
        (s.setMon z { m with abandon := true }).raiseOf Ev.FENCE_DRAIN_LIMIT z
      else s
    | none => s)

/-- FENCE_ABANDON_DONE of a slot (R295): the spurs whose requests were abandoned set ABANDONED and clear their counts. -/
def Hub.fenceAbandonDone (s : Hub) (z : Nat) : Hub :=
  let m := s.mon z
  if !m.abandon then s
  else
    let s := doEach (s.slotTiles z) s (fun s t =>
      let x := s.tile t
      if x.rdOut == 0 && x.wrOut == 0 then s else s.setTile t { x with abandoned := true, rdOut := 0, wrOut := 0 })
    s.fenceShut z

/-- 64 HCLK after a fence request without its acknowledge (R311). -/
def Hub.fenceAckTimeout (s : Hub) (z : Nat) : Hub :=
  let m := s.mon z
  match m.fenceAt with
  | some t => if !m.fenceAck && s.elapsed t 64 then s.err Er.HANG_FENCE_NACK else s
  | none => s

/-! ### HANG_CMD, R308 and R312 -/

/-- Writes HANG_CMD_STATUS. -/
def Hub.hangStatus (s : Hub) (op status : Nat) : Hub := (s.wr F.HANG_CMD_STATUS_STATUS status).wr F.HANG_CMD_STATUS_OP op

/-- The status of a HANG_CMD by the rows of R308. -/
def Hub.hangCheck (s : Hub) (op : Nat) : Nat :=
  let z := s.rd F.HANG_ARG_SLOT
  let st := (s.dom z).st
  if s.isSafe then St.FAULT
  else if op == 0 || 5 < op || (op == 1 && st == .empty) || (op == 2 && (s.mon z).fenceAt.isNone) then St.BAD_ARG
  else if op == 2 && (st == .running || st == .stopping) then St.NOT_STOPPED
  else St.OK

/-- CLEAR_FIRED: the monitor leaves FIRED, its timer restarts, and the strobe latches of the slot's spurs clear (R286, R287). -/
def Hub.clearFired (s : Hub) (z : Nat) : Hub :=
  let m := s.mon z
  let s := if m.st == 3 then s.setMon z { m with st := s.monState z m.durs, timer := 0 } else s
  doEach (s.slotTiles z) s (fun s t => s.setTile t { s.tile t with strobeFault := false, strobeDue := false })

/-- CLEAR_STATS: the records of the last fault and the last peer policy. -/
def Hub.clearHang (s : Hub) : Hub := s.setReg R.HANG_DIV_COUNT 0

/-- A write of HANG_CMD. -/
def Hub.hangCmd (s : Hub) (op : Nat) : Hub :=
  let st := s.hangCheck op
  let z := s.rd F.HANG_ARG_SLOT
  let s := s.hangStatus op st
  if st != St.OK then s
  else
    match op with
    | 1 => s.fence z
    | 2 => s.fenceRelease z
    | 3 => s.clearFired z
    | 4 => s.startHistory z
    | _ => s.clearHang

/-- A write of HANG_MON_CFG of the selected monitor: a history begins when EN is set, and the monitor is OFF when it is cleared (R285, R286). -/
def Hub.monCfgWrite (s : Hub) (v : Nat) : Hub :=
  let z := s.rd F.HANG_MON_SEL_SLOT
  let was := s.rdB F.HANG_MON_CFG_EN z
  let s := s.setRegB R.HANG_MON_CFG z (v % 256)
  let en := s.rdB F.HANG_MON_CFG_EN z
  if en == 1 && was == 0 then s.startHistory z
  else if en == 0 && was == 1 && (s.mon z).st != 3 then s.setMon z { s.mon z with st := 0, timer := 0 }
  else s

end Sys2Proof.Machine
end

