-- ==== Sys2Proof/Machine/Numw.lean ====
section
/-! DEFINITION. Numeric watch (09_tasting.md, R268 to R273, R279 and R280). -/

namespace Sys2Proof.Machine

/-- The pair of a slot and a kind. -/
def numwKey (slot kind : Nat) : Nat := slot * 8 + kind

/-- A pair's record. -/
def Hub.numwPair (s : Hub) (slot kind : Nat) : NumwPair := s.numw.get (numwKey slot kind) {}

/-- Sets a pair's record. -/
def Hub.setNumw (s : Hub) (slot kind : Nat) (p : NumwPair) : Hub := { s with numw := s.numw.set (numwKey slot kind) p }

/-- A field of NUMW_CFG of a pair, as the present window has it. -/
def Hub.numwCfg (s : Hub) (f : Fld) (slot kind : Nat) : Nat :=
  match s.numwHeld.cells.find? (fun p => p.1 == numwKey slot kind) with
  | some p => bitsOf p.2 f.lo f.width
  | none => s.rdB f (numwKey slot kind)

/-- A write of NUMW_CFG takes effect in the next window (R281): the present one goes on with the value it began with. -/
def Hub.numwHold (s : Hub) (bank : Nat) : Hub :=
  if s.numwHeld.keys.contains bank then s else { s with numwHeld := s.numwHeld.set bank (s.regB R.NUMW_CFG bank) }

/-- A list of `n` elements, missing ones filled. -/
def padList {α : Type} (n : Nat) (d : α) (l : List α) : List α := (List.range n).map (fun i => nth l i d)

/-- The tile raised numeric strobes on an executed edge (R268, R270): its counters, saturating, and the SCN of a first occurrence where
FIRST_EN is set. A stopped domain counts nothing. -/
def Hub.numwStrobe (s : Hub) (t kinds : Nat) : Hub :=
  let x := s.tile t
  if kinds % 256 == 0 || x.st != .inContext || x.gated || (s.dom x.slot).st == .stopped || !s.flag F.NUMW_CTRL_EN then s
  else
    let counts := (padList 8 0 x.numw).zipIdx.map (fun c => if bitAt kinds c.2 then sat 16 (c.1 + 1) else c.1)
    let firsts := (padList 8 none x.firstScn).zipIdx.map (fun (f : Option Nat × Nat) =>
      if bitAt kinds f.2 && f.1.isNone && s.numwCfg F.NUMW_CFG_FIRST_EN x.slot f.2 == 1 then some x.scn else f.1)
    s.setTile t { x with numw := counts, firstScn := firsts }

/-- The length of a window. -/
def Hub.numwLen (s : Hub) : Nat := let u := s.rd F.NUMW_WINDOW_UNITS; (if u == 0 then 1 else u) * 12500

/-- The end of the window in progress: the first multiple of its length after it began (R269, R271). -/
def Hub.numwEnd (s : Hub) : Nat := (s.time.numwFrom / s.numwLen + 1) * s.numwLen

/-- The tile with the largest count, the lowest ID winning a tie. -/
def maxCount : Option (Nat × Nat) → List (Nat × Nat) → Option (Nat × Nat)
  | best, [] => best
  | none, c :: rest => maxCount (some c) rest
  | some b, c :: rest => maxCount (some (if b.2 < c.2 then c else b)) rest

/-- The tile with the lowest latched SCN, the lowest ID winning a tie. -/
def minFirst : Option (Nat × Nat) → List (Nat × Option Nat) → Option (Nat × Nat)
  | best, [] => best
  | best, (_, none) :: rest => minFirst best rest
  | none, (t, some v) :: rest => minFirst (some (t, v)) rest
  | some b, (t, some v) :: rest => minFirst (some (if v < b.2 then (t, v) else b)) rest

/-- The hub collects one pair (R269, R270). -/
def Hub.numwCollect (s : Hub) (slot kind : Nat) (tiles : List Nat) : Hub :=
  let counts := tiles.map (fun t => (t, nth (s.tile t).numw kind 0))
  let sum := sumNat (counts.map Prod.snd)
  let big := (maxCount none counts).filter (fun c => c.2 != 0)
  let p := s.numwPair slot kind
  let first := minFirst none (tiles.map (fun t => (t, nth (s.tile t).firstScn kind none)))
  let fires := s.numwCfg F.NUMW_CFG_FIRST_EN slot kind == 1 && !p.fired && sum != 0
  let s := s.setNumw slot kind { p with
    last := sum, total := (p.total + sum) % 2 ^ 64, maxTile := big.map Prod.fst, maxCount := (big.map Prod.snd).getD 0,
    first := if fires then first else p.first, fired := p.fired || (fires && first.isSome) }
  let th := s.numwCfg F.NUMW_CFG_THRESH slot kind
  let s := if th != 0 && th < sum then s.raise Ev.NUMW_THRESHOLD (big.map Prod.fst) else s
  match first with
  | some (t, _) => if fires then s.raiseOf Ev.NUMW_FIRST t else s
  | none => s

/-- The end of a window (R269 to R271): every slot with tiles is collected, and the spurs' counters clear. A slot whose collection failed its
CRC on both copies is named in `bad`: its sums are discarded. -/
def Hub.numwWindowEnd (s : Hub) (bad : Option Nat) : Hub :=
  if !s.flag F.NUMW_CTRL_EN || s.now < s.numwEnd then s
  else
    let s := doEach s.openSlots s (fun s z =>
      let tiles := s.slotTiles z
      if tiles.isEmpty then s
      else
        let s := if bad == some z then s.err Er.NUMW_COLLECT_CRC
          else doEach (List.range 8) s (fun s k => s.numwCollect z k tiles)
        doEach tiles s (fun s t => s.setTile t { s.tile t with numw := [] }))
    { s with time := { s.time with numwFrom := s.now / s.numwLen * s.numwLen }, numwHeld := {} }

/-- Writes NUMW_CMD_STATUS. -/
def Hub.numwStatus (s : Hub) (status : Nat) : Hub := s.wr F.NUMW_CMD_STATUS_STATUS status

/-- The status of a NUMW_CMD by the rows of R273. -/
def Hub.numwCheck (s : Hub) (op : Nat) : Nat :=
  if s.isSafe then St.FAULT else if op == 0 || 2 < op then St.BAD_ARG else St.OK

/-- REARM_FIRST for the selected pair: its spurs latch anew. -/
def Hub.rearmFirst (s : Hub) (slot kind : Nat) : Hub :=
  let s := s.setNumw slot kind { s.numwPair slot kind with fired := false, first := none }
  doEach (s.slotTiles slot) s (fun s t =>
    let x := s.tile t
    s.setTile t { x with firstScn := setNth (padList 8 none x.firstScn) kind none })

/-- A write of NUMW_CMD. -/
def Hub.numwCmd (s : Hub) (op : Nat) : Hub :=
  let st := s.numwCheck op
  let s := s.numwStatus st
  if st != St.OK then s
  else if op == 1 then s.rearmFirst (s.rd F.NUMW_SEL_SLOT) (s.rd F.NUMW_SEL_KIND)
  else { s with numw := ⟨s.numw.cells.map (fun (p : Nat × NumwPair) => (p.1, { p.2 with total := 0 }))⟩ }

end Sys2Proof.Machine
end

