-- ==== Sys2Proof/Machine/Reset.lean ====
section
/-! DEFINITION. Resets and isolation of single tiles (10_hang_reset.md, R298, R299; 18_integration.md, R502), and the runs of the self-test as
far as their start and their abort go (14_self_test.md, R400, R403, R408, R414). -/

namespace Sys2Proof.Machine

/-- TCLK periods of a tile's partition in HCLK, rounded up. -/
def Hub.tclks (s : Hub) (t n : Nat) : Nat := ceilDiv (n * s.divider (s.partOf t)) 4

/-- A tile reset begins (R298): the catch buffer is emptied and deliveries are discarded until both counts are 0 (R502). -/
def Hub.startReset (s : Hub) (t : Nat) : Hub :=
  let s := (s.digestMiss t).abandonSample t
  let x := s.tile t
  s.setTile t { x with inReset := true, rstAck := false, resetAt := s.time.hclk, catchBuf := [], discard := x.rdOut != 0 || x.wrOut != 0 }

/-- T_RST_ACK counts from the end of the 64 TCLK pulse (R298). -/
def Hub.resetDone (s : Hub) (t : Nat) : Bool :=
  let x := s.tile t
  x.inReset && !x.isolated && s.elapsed x.resetAt (s.tclks t 64)

/-- A tile reset is complete: latches that last until the next tile reset are clear (R295); the tile is PARKED, or, out of service,
isolated as before (R299). -/
def Hub.endReset (s : Hub) (t : Nat) : Hub :=
  let x := s.tile t
  s.setTile t { x with
    inReset := x.st == .outOfService && x.readmit != 2, isolated := x.isolated || (x.st == .outOfService && x.readmit != 2)
    rstAck := false, abandoned := false, strobeFault := false, strobeDue := false
    st := if x.st == .outOfService || x.st == .underTest then x.st else .parked }

/-- Records a tile in RSET_LAST_TILE. (DEDUCED, log entry 163) -/
def Hub.lastTile (s : Hub) (t : Nat) (failed : Bool) (reason : Nat) : Hub :=
  s.setReg R.RSET_LAST_TILE (t + 0x4000 + b2n failed * 0x8000 + reason * 0x10000)

/-- A tile is isolated (R298, R299): clock enable low, reset asserted, out of service; its spur watches it. -/
def Hub.isolate (s : Hub) (t why : Nat) : Hub :=
  let s := if (s.tile t).inReset then s else s.startReset t
  let x := s.tile t
  s.setTile t { x with st := .outOfService, isolated := true, watchAt := some s.time.hclk, watchWhy := why, readmit := 0, branch := [], strobeSeen := false, isoFailed := false }

/-! ### Runs of the self-test -/

/-- Target codes (R401). -/
def Bt.HUB_LOGIC : Nat := 0
def Bt.LANE : Nat := 1
def Bt.TASTER : Nat := 2
def Bt.CANE : Nat := 3
def Bt.TILE : Nat := 4

/-- Outcomes (R414). -/
def Bo.PASS : Nat := 0
def Bo.TIMEOUT : Nat := 5
def Bo.ABORTED : Nat := 6
def Bo.NOT_RUN : Nat := 7

/-- The run of a unit, if one is in progress. -/
def Hub.bistRun (s : Hub) (target unit : Nat) : Option Run := s.bist.runs.find? (fun r => r.target == target && r.unit == unit)

/-- Tiles under test. -/
def Hub.tilesUnderTest (s : Hub) : Nat := (s.bist.runs.filter (fun r => r.target == Bt.TILE)).length

/-- A result record (R414). -/
def Hub.setResult (s : Hub) (target unit : Nat) (r : BistRes) : Hub :=
  { s with bist := { s.bist with results := s.bist.results.set (target * 16384 + unit) r } }

/-- `n` free words as bytes: contents the spec calls destroyed. (DESIGN CHOICE, log entry 201) -/
def Hub.freeBytes : Nat → Hub → List Byte × Hub
  | 0, s => ([], s)
  | n + 1, s =>
    let w := s.drawWord
    let r := Hub.freeBytes n w.2
    (le 4 w.1.toNat ++ r.1, r.2)

/-- A run begins (R400): the unit is isolated; a tile's SRAM and control state are destroyed (R403). -/
def Hub.bistStart (s : Hub) (r : Run) : Hub :=
  let s := { s with bist := { s.bist with runs := s.bist.runs ++ [{ r with at_ := s.time.hclk }] } }
  let s := match r.target with
    | 2 => { s with taste := { s.taste with bufs := ⟨s.taste.bufs.cells.map (fun (p : Nat × SampBuf) =>
        if p.2.busyOn == some r.unit then (p.1, { p.2 with busyOn := none }) else p)⟩ } }
    | 4 =>
      let s := (s.digestMiss r.unit).abandonSample r.unit
      let sram := Hub.freeBytes 16384 s
      let scan := Hub.freeBytes 512 sram.2
      let s := (scan.2.putSram r.unit 0 sram.1).putScan r.unit 0 scan.1
      let x := s.tile r.unit
      s.setTile r.unit { x with st := .underTest, catchBuf := [], discard := true, branch := [], oos := x.mapped }
    | _ => s
  s.raiseOf Ev.BIST_STARTED r.unit

/-- The unit of a run that is over is re-initialised and returns to its state before the run (R403). -/
def Hub.bistReturn (s : Hub) (r : Run) : Hub :=
  match r.target with
  | 4 =>
    let x := s.tile r.unit
    (s.setTile r.unit { x with st := if r.wasOos then .outOfService else .parked }).startReset r.unit
  | _ => s

/-- A decant in progress holds a cane downward. -/
def Hub.decantKeeps (s : Hub) (c : Nat) : Bool := s.harv.op == 2 && (s.slotTiles s.harv.dSlot).any (fun t => s.caneFor (colOf t) == c)

/-- The downward phase of a run is over: its cane turns back upward unless something else holds it (R26, R402). -/
def Hub.endDown (s : Hub) (c : Nat) : Hub := if s.decantKeeps c then s else s.turnUp c

/-- A run leaves the list. -/
def Hub.dropRun (s : Hub) (r : Run) : Hub :=
  let s := { s with bist := { s.bist with runs := s.bist.runs.filter (fun x => !(x.target == r.target && x.unit == r.unit)) } }
  if r.det == 1 then s.endDown (s.runCane r) else s

/-- A run ends ABORTED (R408, R409): no service state changes. -/
def Hub.abortRun (s : Hub) (r : Run) : Hub :=
  let s := (s.dropRun r).bistReturn r
  let s := s.setResult r.target r.unit { outcome := Bo.ABORTED, valid := true, packUsed := r.packEn }
  let s := s.raiseOf Ev.BIST_ABORTED r.unit
  let s := if r.readmit then ((s.lastTile r.unit false 2).setTile r.unit { s.tile r.unit with readmit := 0 }).raiseOf Ev.READMIT_FAILED r.unit else s
  if r.target == Bt.HUB_LOGIC && s.isPair && s.rd F.PAIR_STATE_STANDBY == 3 then s.wr F.PAIR_STATE_STANDBY 1 else s

/-- Every run ends ABORTED. -/
def Hub.abortRuns (s : Hub) : Hub := doEach s.bist.runs s Hub.abortRun

end Sys2Proof.Machine
end

