-- ==== Sys2Proof/Machine/Formats.lean ====
section
/-! DEFINITION. Number formats and the arithmetic contract (08_number_formats.md, R222 to R243): exact values, element and scale
codes, conversion and rounding, the stochastic draws, profiles, and the result of one MXU operation. -/

namespace Sys2Proof.Machine

/-! ### Exact values -/

/-- An exact value: NaN, an infinity, or a signed fraction `num / den` whose zero keeps its sign. -/
inductive Num where
  | nan
  | inf (neg : Bool)
  | fin (neg : Bool) (num den : Nat)
deriving DecidableEq, Repr

/-- The magnitude `k * 2^e` as a fraction. -/
def pow2Frac (k : Nat) (e : Int) : Nat × Nat := if 0 ≤ e then (k * 2 ^ e.toNat, 1) else (k, 2 ^ (-e).toNat)

/-- The value `k * 2^e` with a sign. -/
def Num.ofPow (neg : Bool) (k : Nat) (e : Int) : Num := .fin neg (pow2Frac k e).1 (pow2Frac k e).2

/-- A product (R240): NaN times anything and zero times infinity are NaN, the sign is the XOR of the factors' signs. -/
def Num.mul : Num → Num → Num
  | .nan, _ => .nan
  | _, .nan => .nan
  | .inf a, .inf b => .inf (a != b)
  | .inf a, .fin b n _ => if n == 0 then .nan else .inf (a != b)
  | .fin a n _, .inf b => if n == 0 then .nan else .inf (a != b)
  | .fin a n d, .fin b m e => .fin (a != b) (n * m) (d * e)

/-- A quotient by a positive finite value. -/
def Num.quot (x : Num) (num den : Nat) : Num :=
  match x with
  | .fin a n d => .fin a (n * den) (d * num)
  | y => y

/-! ### Element formats, R222 to R228 -/

def Ef.INT2 : Nat := 0
def Ef.TERN : Nat := 1
def Ef.INT3 : Nat := 2
def Ef.INT4 : Nat := 3
def Ef.E2M1 : Nat := 4
def Ef.E3M0 : Nat := 5
def Ef.E2M3 : Nat := 6
def Ef.E3M2 : Nat := 7
def Ef.INT8 : Nat := 8
def Ef.E4M3 : Nat := 9
def Ef.E5M2 : Nat := 10
def Ef.BF16 : Nat := 11
def Ef.FP16 : Nat := 12
def Ef.FP32 : Nat := 13

/-- Width of an element format (R222). -/
def fmtWidth (f : Nat) : Nat := nth [2, 2, 3, 4, 4, 4, 6, 6, 8, 8, 8, 16, 16, 32] f 0

/-- An integer format or TERN. -/
def fmtInt (f : Nat) : Bool := f ≤ 3 || f == 8

/-- Fraction bits of a floating format (R225). -/
def fmtFrac (f : Nat) : Nat := nth [0, 0, 0, 0, 1, 0, 3, 2, 0, 3, 2, 7, 10, 23] f 0

/-- Bias of a floating format (R225). -/
def fmtBias (f : Nat) : Nat := nth [0, 0, 0, 0, 1, 4, 1, 3, 0, 7, 15, 127, 15, 127] f 0

/-- Magnitude code of the largest finite value of a floating format (R225). -/
def fmtMax (f : Nat) : Nat := nth [0, 0, 0, 0, 7, 7, 31, 31, 0, 0x7E, 0x7B, 0x7F7F, 0x7BFF, 0x7F7FFFFF] f 0

/-- e_max of a floating format (R225). -/
def fmtEmax (f : Nat) : Nat := nth [0, 0, 0, 0, 2, 3, 2, 4, 0, 8, 15, 127, 15, 127] f 0

/-- Magnitude code of Inf, where the format has one (R225). -/
def fmtInf (f : Nat) : Option Nat := if f == 10 then some 0x7C else if f == 11 then some 0x7F80 else if f == 12 then some 0x7C00
  else if f == 13 then some 0x7F800000 else none

/-- The canonical NaN of a format, where it has one (R226). -/
def fmtNan (f : Nat) : Option Nat := if f == 9 || f == 10 then some 0x7F else if f == 11 then some 0x7FC0
  else if f == 12 then some 0x7E00 else if f == 13 then some 0x7FC00000 else none

/-- The magnitude code without the sign bit. -/
def magOf (f code : Nat) : Nat := code % 2 ^ (fmtWidth f - 1)

/-- The sign bit of a code. -/
def signOf (f code : Nat) : Bool := bitAt code (fmtWidth f - 1)

/-- The code is a NaN (R225). -/
def isNan (f code : Nat) : Bool :=
  let m := magOf f code
  if f == 9 then m == 0x7F
  else match fmtInf f with
    | some i => i < m
    | none => false

/-- The value of a floating magnitude code that is no special one (R226). -/
def magValue (f : Nat) (neg : Bool) (m : Nat) : Num :=
  let fr := fmtFrac f
  let e := m / 2 ^ fr
  let x := m % 2 ^ fr
  if e == 0 then .ofPow neg x (1 - fmtBias f - fr) else .ofPow neg (2 ^ fr + x) ((e : Int) - fmtBias f - fr)

/-- The value an element code stands for (R224 to R226). -/
def valueOf (f code : Nat) : Num :=
  if f == 1 then (if code % 4 == 1 then .fin false 1 1 else if code % 4 == 3 then .fin true 1 1 else .fin false 0 1)
  else if fmtInt f then
    let v := signed (fmtWidth f) code
    .fin (v < 0) v.natAbs 1
  else if isNan f code then .nan
  else if fmtInf f == some (magOf f code) then .inf (signOf f code)
  else magValue f (signOf f code) (magOf f code)

/-- A subnormal element code of a floating format. -/
def isSubnormal (f code : Nat) : Bool :=
  !fmtInt f && magOf f code != 0 && magOf f code < 2 ^ fmtFrac f

/-! ### Scales, R229 and R230 -/

/-- The value of an E8M0 code. -/
def e8m0 (c : Nat) : Num := if c == 0xFF then .nan else .ofPow false 1 ((c : Int) - 127)

/-- The value of a UE4M3 code. -/
def ue4m3 (c : Nat) : Num := if 0x7F ≤ c then .nan else magValue 9 false c

/-- B_s of its code: 0 for 16, 1 for 32, 2 for 64 (R250). -/
def blockLen (code : Nat) : Nat := 16 * 2 ^ code

/-- Bytes of the scales of `n` consecutive elements (R223). -/
def scaleBytes (fmt bs n : Nat) : Nat :=
  if fmt == 0 then 0 else if fmt == 3 then ceilDiv n bs + ceilDiv n 16 else ceilDiv n bs

/-- The scale of element `k` within a run of elements whose scale bytes are given (R230). -/
def scaleAt (fmt bs : Nat) (bytes : List Byte) (k : Nat) : Num :=
  let byte (i : Nat) : Nat := leAt bytes i 1
  match fmt with
  | 0 => .fin false 1 1
  | 1 => e8m0 (byte (k / bs))
  | 2 => ue4m3 (byte (k / bs))
  | _ => (e8m0 (byte (k / bs * (1 + bs / 16)))).mul (ue4m3 (byte (k / bs * (1 + bs / 16) + 1 + k % bs / 16)))

/-! ### Packing, R223 -/

/-- `n` elements of width `w` from a byte string. -/
def unpack (w n : Nat) (bs : List Byte) : List Nat :=
  let v := fromLe bs
  (List.range n).map (fun i => bitsOf v (i * w) w)

/-- Elements of width `w` as one number, element 0 lowest. -/
def packNat (w : Nat) : List Nat → Nat
  | [] => 0
  | x :: xs => x % 2 ^ w + 2 ^ w * packNat w xs

/-- Elements of width `w` as bytes. -/
def pack (w : Nat) (l : List Nat) : List Byte := le (ceilDiv (l.length * w) 8) (packNat w l)

/-! ### Rounding and conversion, R231 to R234 -/

/-- floor(log2 (num / den)) of a positive fraction. -/
def floorLog2 (num den : Nat) : Int :=
  let e : Int := (num.log2 : Int) - den.log2
  let p := pow2Frac 1 e
  if num * p.2 < p.1 * den then e - 1 else e

/-- Whether a value between two neighbours goes to the upper one: `rem / den` is the fraction of the way, `code` the lower one's
code. Round to nearest, ties to the even code and for FP4 E3M0 between two powers of two to the larger (R231); or the stochastic draw `r` (R234). (DEDUCED, log entry 120) -/
def roundsUp (f : Nat) (sr : Option Nat) (code rem_ den : Nat) : Bool :=
  match sr with
  | some r => r < rem_ * 2 ^ 32 / den
  | none => den < 2 * rem_ || (2 * rem_ == den && (if f == 5 then code != 0 else code % 2 == 1))

/-- The magnitude code of a positive fraction in a floating format, the exponent unbounded above (R231). -/
def roundMag (f : Nat) (sr : Option Nat) (num den : Nat) : Nat :=
  let fr := fmtFrac f
  let emin : Int := 1 - fmtBias f
  let e := floorLog2 num den
  let e := if e < emin then emin else e
  let q := pow2Frac 1 (e - fr)
  let n := num * q.2
  let d := den * q.1
  let code := (e - emin).toNat * 2 ^ fr + n / d
  if roundsUp f sr code (n % d) d then code + 1 else code

/-- The integer magnitude of a fraction (R231, R234). -/
def roundInt (f : Nat) (sr : Option Nat) (num den : Nat) : Nat :=
  if roundsUp f sr (num / den) (num % den) den then num / den + 1 else num / den

/-- The largest magnitude of an integer format in a direction (R224). -/
def intLimit (f : Nat) (sym neg : Bool) : Nat :=
  if f == 1 then 1 else if neg && !sym then 2 ^ (fmtWidth f - 1) else 2 ^ (fmtWidth f - 1) - 1

/-- A signed magnitude code. -/
def withSign (f : Nat) (neg : Bool) (m : Nat) : Nat := b2n neg * 2 ^ (fmtWidth f - 1) + m

/-- What a source beyond the largest finite value becomes (R232). -/
def overflowCode (f : Nat) (convSat neg : Bool) : Nat :=
  if convSat then withSign f neg (fmtMax f)
  else match fmtInf f with
    | some i => withSign f neg i
    | none => match fmtNan f with
      | some n => n
      | none => withSign f neg (fmtMax f)

/-- Converts an exact value to a code (R231, R232). -/
def convert (f : Nat) (convSat intSym : Bool) (sr : Option Nat) (x : Num) : Nat :=
  if fmtInt f then
    match x with
    | .nan => 0
    | .inf neg => unsigned (fmtWidth f) (if neg then -(intLimit f intSym neg : Int) else intLimit f intSym neg)
    | .fin neg n d =>
      let m := least (roundInt f sr n d) (intLimit f intSym neg)
      unsigned (fmtWidth f) (if neg then -(m : Int) else m)
  else
    match x with
    | .nan => (fmtNan f).getD 0
    | .inf neg => match fmtInf f with
      | some i => withSign f neg i
      | none => overflowCode f convSat neg
    | .fin neg n d =>
      if n == 0 then withSign f neg 0
      else
        let m := roundMag f sr n d
        if fmtMax f < m then overflowCode f convSat neg else withSign f neg m

/-! ### Stochastic draws, R235 and R236 -/

/-- The generator step. -/
def xs (v : Nat) : Nat :=
  let v := v ^^^ ((v * 2 ^ 13) % 2 ^ 32)
  let v := v ^^^ (v / 2 ^ 17)
  v ^^^ ((v * 2 ^ 5) % 2 ^ 32)

/-- u of R235. -/
def drawU (seed tile ns : Nat) : Nat :=
  (seed % 2 ^ 32) ^^^ (seed / 2 ^ 32 % 2 ^ 32) ^^^ (tile * 65536) ^^^ (ns % 2 ^ 32) ^^^ (ns / 2 ^ 32 % 2 ^ 32)

/-- The draw state s of R235. -/
def drawState (seed tile ns : Nat) : Nat :=
  let v := (drawU seed tile ns * 0x9E3779B1) % 2 ^ 32
  if v == 0 then 1 else v

/-- xs applied `n` times. -/
def xsN : Nat → Nat → Nat
  | 0, v => v
  | n + 1, v => xsN n (xs v)

/-- The draw of element `e` of stream `q` (R236). -/
def draw (seed tile ns q e : Nat) : Nat := xsN (64 * q + e + 1) (drawState seed tile ns)

/-! ### Profiles, R242 and R243 -/

/-- An arithmetic profile. -/
structure Prof where
  formats : Nat
  scales : Nat
  blocks : Nat
  group : Nat
  daz : Bool
  ftz : Bool
  accSat : Bool
  convSat : Bool
  intSym : Bool
  sr : Bool
  intAcc : Bool
  k4 : Nat
  k8 : Nat
  k16 : Nat
  k32 : Nat
deriving DecidableEq, Repr

/-- A profile from its record. -/
def profOf (b : List Byte) : Prof :=
  let fl := leAt b 7 1
  { formats := leAt b 2 2, scales := leAt b 4 1, blocks := leAt b 5 1, group := 16 * 2 ^ leAt b 6 1, daz := bitAt fl 0, ftz := bitAt fl 1,
    accSat := bitAt fl 2, convSat := bitAt fl 3, intSym := bitAt fl 4, sr := bitAt fl 5, intAcc := bitAt fl 6,
    k4 := 16 * leAt b 8 1, k8 := 16 * leAt b 9 1, k16 := 16 * leAt b 10 1, k32 := 16 * leAt b 11 1 }

/-- Profile 0, the W84 tile. -/
def profile0 : Prof :=
  { formats := 0x3FFF, scales := 7, blocks := 7, group := 32, daz := false, ftz := false, accSat := false, convSat := true,
    intSym := false, sr := true, intAcc := true, k4 := 512, k8 := 256, k16 := 128, k32 := 64 }

/-- `lo ≤ byte i ≤ hi`. -/
def byteIn (b : List Byte) (i lo hi : Nat) : Bool := lo ≤ leAt b i 1 && leAt b i 1 ≤ hi

/-- A profile record is acceptable beside the ones accepted before it (R243). -/
def profileOk (before : List (List Byte)) (b : List Byte) : Bool :=
  b.length == 32 && crc32c (b.take 28) == leAt b 28 4 && 1 ≤ leAt b 0 2 && leAt b 0 2 ≤ 0xFFFE &&
    leAt b 2 2 < 0x4000 && leAt b 4 1 < 8 && leAt b 5 1 < 8 && leAt b 6 1 ≤ 2 && leAt b 7 1 < 128 &&
    byteIn b 8 1 32 && byteIn b 9 1 16 && byteIn b 10 1 8 && byteIn b 11 1 4 && leAt b 12 16 == 0 &&
    !before.any (fun p => leAt p 0 2 == leAt b 0 2)

/-- K_MAX of a profile for an element width (R238). -/
def Prof.kMax (p : Prof) (w : Nat) : Nat := if w ≤ 4 then p.k4 else if w ≤ 8 then p.k8 else if w ≤ 16 then p.k16 else p.k32

/-! ### The MXU operation, R238 to R241 -/

/-- Rounds an exact value to an FP32 code, overflow to infinity, or to the largest value under ACC_SAT; subnormal results become
zero under FTZ_ACC (R239). -/
def toFp32 (p : Prof) (x : Num) : Nat :=
  let code := match x with
    | .inf neg => withSign 13 neg 0x7F800000
    | y => convert 13 p.accSat false none y
  if p.ftz && isSubnormal 13 code then withSign 13 (signOf 13 code) 0 else code

/-- An operand's value: the element, flushed under DAZ, times its scale (R239). -/
def operandValue (p : Prof) (f code : Nat) (scale : Num) : Num :=
  let v := if p.daz && isSubnormal f code then Num.fin (signOf f code) 0 1 else valueOf f code
  v.mul scale

/-- The scale of 2^600 every product of a legal operation is a multiple of (R254). -/
def unit600 : Nat := 2 ^ 600

/-- A finite product in units of 2^−600. -/
def Num.units : Num → Int
  | .fin neg n d => if neg then -((n * (unit600 / d) : Nat) : Int) else (n * (unit600 / d) : Nat)
  | _ => 0

/-- The exact sum of a group's terms with the special values of R240. -/
def groupSum (terms : List Num) : Num :=
  let isInf (b : Bool) : Bool := terms.any (· == Num.inf b)
  if terms.any (· == Num.nan) then .nan
  else if isInf true && isInf false then .nan
  else if isInf true then .inf true
  else if isInf false then .inf false
  else
    let v := terms.foldl (fun a t => a + t.units) (0 : Int)
    if v == 0 then
      .fin (!terms.isEmpty && terms.all (fun t => match t with | .fin neg n _ => neg && n == 0 | _ => false)) 0 1
    else .fin (v < 0) v.natAbs unit600

/-- add_fp32 of two FP32 codes (R239, R240). -/
def addFp32 (p : Prof) (c r : Nat) : Nat :=
  let x := valueOf 13 c
  let y := valueOf 13 r
  toFp32 p (groupSum [x, y])

/-- Successive groups of `n` elements of a list. -/
def groupsOf {α : Type} (n : Nat) : Nat → List α → List (List α)
  | 0, _ => []
  | fuel + 1, l => if l.isEmpty then [] else l.take n :: groupsOf n fuel (l.drop n)

/-- One output element with an FP32 accumulator: the products in ascending k, group by group. -/
def mxuFp32 (p : Prof) (c : Nat) (terms : List Num) : Nat :=
  (groupsOf p.group terms.length terms).foldl (fun c g => addFp32 p c (toFp32 p (groupSum g))) c

/-- One output element with an INT32 accumulator, with its SAT flag (R241). -/
def mxuInt32 (p : Prof) (c : Nat) (terms : List Num) : Nat × Bool :=
  let sums := (groupsOf p.group terms.length terms).map (fun g => g.foldl (fun a t =>
    match t with | .fin neg n _ => if neg then a - (n : Int) else a + n | _ => a) (0 : Int))
  let r := sums.foldl (fun (a : Int × Bool) s =>
    let v := a.1 + s
    if v < -(2 ^ 31 : Nat) then (-(2 ^ 31 : Nat), true) else if (2 ^ 31 : Nat) ≤ v then ((2 ^ 31 : Nat) - 1, true) else (v, a.2))
    (signed 32 c, false)
  (unsigned 32 r.1, r.2)

end Sys2Proof.Machine
end

