-- ==== Sys2Proof/Machine/Tasting.lean ====
section
/-! DEFINITION. Tasting (09_tasting.md, R245 to R258 and R272 to R276): the scheduler, the sampler of a spur, samples,
recomputation under the contract, comparison, and TASTE_CMD. -/

namespace Sys2Proof.Machine

/-! ### The sample, R250 to R253 -/

def Sh.kind (h : List Byte) : Nat := leAt h 0 1
def Sh.flag (h : List Byte) (n : Nat) : Bool := bitAt (leAt h 1 1) n
def Sh.half (h : List Byte) : Bool := Sh.flag h 0
def Sh.high (h : List Byte) : Bool := Sh.flag h 1
def Sh.cinitZero (h : List Byte) : Bool := Sh.flag h 2
def Sh.intAcc (h : List Byte) : Bool := Sh.flag h 3
def Sh.tile (h : List Byte) : Nat := bitsOf (leAt h 2 2) 0 14
def Sh.slot (h : List Byte) : Nat := bitsOf (leAt h 4 1) 0 6
def Sh.priv (h : List Byte) : Nat := bitsOf (leAt h 4 1) 6 2
def Sh.profile (h : List Byte) : Nat := leAt h 6 2
def Sh.ns (h : List Byte) : Nat := leAt h 8 8
def Sh.fmtA (h : List Byte) : Nat := leAt h 26 1
def Sh.fmtB (h : List Byte) : Nat := leAt h 27 1
def Sh.sclA (h : List Byte) : Nat := bitsOf (leAt h 28 1) 0 2
def Sh.sclB (h : List Byte) : Nat := bitsOf (leAt h 28 1) 2 2
def Sh.blkA (h : List Byte) : Nat := bitsOf (leAt h 29 1) 0 2
def Sh.blkB (h : List Byte) : Nat := bitsOf (leAt h 29 1) 2 2
def Sh.kn (h : List Byte) : Nat := leAt h 30 2
def Sh.stream (h : List Byte) : Nat := bitsOf (leAt h 32 1) 0 2
def Sh.sr (h : List Byte) : Bool := bitAt (leAt h 32 1) 2
def Sh.selfScale (h : List Byte) : Bool := bitAt (leAt h 32 1) 3
def Sh.len (h : List Byte) : Nat := leAt h 36 4
def Sh.seed (h : List Byte) : Nat := leAt h 40 8

/-- The columns a sample covers (R252). -/
def Sh.cols (h : List Byte) : Nat := if Sh.half h then 16 else 32

/-- The first column a sample covers. -/
def Sh.firstCol (h : List Byte) : Nat := if Sh.high h then 16 else 0

/-- The lengths of the payload sections in bytes, before padding (R251, R253). -/
def Sh.sections (h : List Byte) : List Nat :=
  let wa := fmtWidth (Sh.fmtA h)
  let wb := fmtWidth (Sh.fmtB h)
  let n := Sh.kn h
  let bs := blockLen (Sh.blkA h)
  if Sh.kind h == 1 then
    let c := Sh.cols h
    [ceilDiv (32 * n * wa) 8, 32 * scaleBytes (Sh.sclA h) bs n, ceilDiv (c * n * wb) 8,
     c * scaleBytes (Sh.sclB h) (blockLen (Sh.blkB h)) n, if Sh.cinitZero h then 0 else 128 * c, 128 * c,
     if Sh.intAcc h then 4 * c else 0]
  else
    [ceilDiv (n * wa) 8, if 2 ≤ Sh.sclA h then scaleBytes (Sh.sclA h) bs n else 0, ceilDiv (n * wb) 8,
     if Sh.selfScale h then ceilDiv n bs else 0]

/-- The payload length the header's fields call for. -/
def Sh.payload (h : List Byte) : Nat := sumNat ((Sh.sections h).map (fun n => roundUp n 16))

/-- A payload section of a sample. -/
def sectionOf (b : List Byte) (i : Nat) : List Byte :=
  let ls := Sh.sections b
  (b.drop (64 + sumNat ((ls.take i).map (fun n => roundUp n 16)))).take (nth ls i 0)

/-- The largest sample (R250). -/
def sampleMax : Nat := 24576

/-- The header of a sample (R250): the descriptor, the tile's context, n_s and the period of the issuing edge. -/
def Hub.sampleHeader (s : Hub) (t : Nat) (q : SpurTaste) (d : OpDesc) (ns : Nat) (half high : Bool) : List Byte :=
  let x := s.tile t
  let mxu := d.kind == 1
  let flags := b2n half + 2 * b2n high + 4 * b2n (mxu && d.cinitZero) + 8 * b2n (mxu && d.intAcc) + 16 * b2n (mxu && d.satAny) + 32 * b2n (!mxu && d.sr)
  let conv := if mxu then 0 else d.stream % 4 + 4 * b2n d.sr + 8 * b2n d.selfScale
  let h := le 1 d.kind ++ le 1 flags ++ le 2 t ++ le 1 (x.slot + 64 * x.priv) ++ zeros 1 ++ le 2 x.profile ++ le 8 ns ++ le 8 s.now ++
    le 2 x.tag ++ le 1 d.fmtA ++ le 1 d.fmtB ++ le 1 (d.sclA % 4 + 4 * (d.sclB % 4)) ++ le 1 (d.blkA % 4 + 4 * (d.blkB % 4)) ++
    le 2 d.kn ++ le 1 conv ++ zeros 3 ++ zeros 4 ++ le 8 (if !mxu && d.sr then x.seed else 0) ++ le 4 q.req ++ le 4 s.epoch ++ zeros 8
  patchLe h 36 4 (Sh.payload h)

/-- `n` bytes of a tile's SRAM, the address taken modulo its size. -/
def Hub.debugRead (s : Hub) (t a n : Nat) : List Byte := (List.range n).map (fun i => s.peek .sram (t * 65536 + (a + i) % 65536))

/-- `count` rows of `len` bytes from row `first` on, `off` bytes into each. -/
def Hub.debugRows (s : Hub) (t : Nat) (r : Rows) (first count off len : Nat) : List Byte :=
  (List.range count).flatMap (fun i => s.debugRead t (r.base + (first + i) * r.pitch + off) len)

/-- The payload of a sample, read over the SRAM debug port in the order of R251 and R253. -/
def Hub.samplePayload (s : Hub) (t : Nat) (h : List Byte) (d : OpDesc) : List Byte :=
  let ls := Sh.sections h
  let n (i : Nat) : Nat := nth ls i 0
  let c := Sh.cols h
  let f := Sh.firstCol h
  let secs := if Sh.kind h == 1 then
      [s.debugRows t d.a 0 32 0 (n 0 / 32), s.debugRows t d.sa 0 32 0 (n 1 / 32), s.debugRows t d.b f c 0 (n 2 / c),
       s.debugRows t d.sb f c 0 (n 3 / c), if n 4 == 0 then [] else s.debugRows t d.ci 0 32 (4 * f) (4 * c),
       s.debugRows t d.c 0 32 (4 * f) (4 * c), if n 6 == 0 then [] else s.debugRows t d.sat 0 32 (f / 8) (c / 8)]
    else
      [s.debugRead t d.a.base (n 0), s.debugRead t d.sa.base (n 1), s.debugRead t d.c.base (n 2), s.debugRead t d.sb.base (n 3)]
  secs.flatMap (padMul 16)

/-- The trailer of a sample. -/
def sampleTrailer (body : List Byte) (payload status : Nat) : List Byte :=
  le 4 (crc32c body) ++ le 1 status ++ zeros 3 ++ le 4 (payload / 8) ++ zeros 4

/-! ### The scheduler, R246 -/

/-- The slot may be sampled. -/
def Hub.tasteable (s : Hub) (z : Nat) : Bool :=
  s.rdB F.TASTE_SLOT_EN z == 1 && s.rdB F.TASTE_SLOT_RESIDENCY z != 0 && (s.dom z).st == .running

/-- Requests a slot gets in a round. -/
def Hub.tasteWeight (s : Hub) (z : Nat) : Nat := let w := s.rdB F.TASTE_SLOT_WEIGHT z; if w == 0 then 1 else w

/-- The cursor step, bit 0 read as 1. -/
def Hub.tasteStride (s : Hub) : Nat := s.rd F.TASTE_STRIDE_STRIDE ||| 1

/-- Advances a cursor until it names a tile of the slot without a request. -/
def Hub.cursorNext (s : Hub) (z : Nat) : Nat → Nat → Option Nat
  | 0, _ => none
  | fuel + 1, c =>
    let c := (c + s.tasteStride) % 16384
    if (s.tile c).isOf z && (s.bufOf c).isNone then some c else s.cursorNext z fuel c

/-- The lowest free sample buffer. -/
def Hub.freeBuf (s : Hub) : Option Nat := (List.range 8).find? (fun b => !s.taste.bufs.keys.contains b)

/-- Reserves a buffer and sends the request to a tile's spur. -/
def Hub.requestSample (s : Hub) (b z t : Nat) : Hub :=
  let req := s.taste.nextReq
  let s := s.setBuf b { tile := t, slot := z, req := req }
  let s := s.setTile t { s.tile t with taste := some { req := req } }
  let s := { s with taste := { s.taste with nextReq := (req + 1) % 2 ^ 32 } }
  s.tasteCount z Tc.REQUESTED

/-- The eligible slots in round-robin order, each with the requests left to it: the slot of the round in progress first. -/
def Hub.tasteOrder (s : Hub) : List (Nat × Nat) :=
  let zs := s.runningSlots.filter s.tasteable
  let cur := s.taste.rrSlot
  let new (l : List Nat) : List (Nat × Nat) := l.map (fun z => (z, s.tasteWeight z))
  (if s.taste.rrLeft != 0 && zs.contains cur then [(cur, s.taste.rrLeft)] else []) ++
    new (zs.filter (fun z => cur < z)) ++ new (zs.filter (fun z => z ≤ cur))

/-- The first slot in order whose cursor finds a tile. -/
def Hub.tasteChoice (s : Hub) : List (Nat × Nat) → Option (Nat × Nat × Nat)
  | [] => none
  | (z, left) :: rest =>
    match s.cursorNext z 16384 (s.taste.cursor.get z 0) with
    | some t => some (z, left, t)
    | none => s.tasteChoice rest

/-- A scheduler tick (R246), once TASTE_INTERVAL has passed since the last. (DEDUCED, log entry 125) -/
def Hub.tasteTick (s : Hub) : Hub :=
  let i := s.rd F.TASTE_INTERVAL_HCLK
  if !s.flag F.TASTE_CTRL_EN || !s.elapsed s.taste.lastTick (if i < 25000 then 25000 else i) then s
  else
    let s := { s with taste := { s.taste with lastTick := s.time.hclk } }
    let order := s.tasteOrder
    if order.isEmpty then s
    else
      match s.freeBuf, s.tasteChoice order with
      | some b, some (z, left, t) =>
        let s := { s with taste := { s.taste with rrSlot := z, rrLeft := left - 1, cursor := s.taste.cursor.set z t } }
        s.requestSample b z t
      | _, _ => s.bump F.TASTE_THROTTLED_COUNT 1

/-! ### The spur, R247 to R249 -/

/-- A request reaches the spur, which arms 8 HCLK later. -/
def Hub.tasteRequestRx (s : Hub) (t : Nat) : Hub :=
  let x := s.tile t
  match x.taste with
  | some q => if q.armAt == 0 then s.setTile t { x with taste := some { q with armAt := s.time.hclk + 8, armScn := x.scn } } else s
  | none => s

/-- TASTE_WAIT in schedule cycles. -/
def Hub.tasteWait (s : Hub) : Nat := let w := s.rd F.TASTE_WAIT_CYCLES; if w < 1024 then 1024 else w

/-- The spur is armed and has not begun a sample. -/
def Hub.tasteArmed (s : Hub) (q : SpurTaste) : Bool := q.armAt != 0 && q.armAt ≤ s.time.hclk && !q.started

/-- A field of TASTE_SLOT or TASTE_SLOT_FMT for the request that holds a buffer: a write applies from the next request (R281). -/
def Hub.tasteConf (s : Hub) (b : Option SampBuf) (z : Nat) (f : Fld) : Nat :=
  match b.bind (fun b => b.conf) with
  | some c => bitsOf (if f.addr == R.TASTE_SLOT then c.1 else c.2) f.lo f.width
  | none => s.rdB f z

/-- The outstanding requests of a slot keep the configuration they began with (R281). -/
def Hub.tasteHold (s : Hub) (z : Nat) : Hub :=
  { s with taste := { s.taste with bufs := ⟨s.taste.bufs.cells.map (fun (p : Nat × SampBuf) =>
      if p.2.slot == z && p.2.conf.isNone then (p.1, { p.2 with conf := some (s.regB R.TASTE_SLOT z, s.regB R.TASTE_SLOT_FMT z) }) else p)⟩ } }

/-- The operation's kind and element formats are enabled for the slot, and the slot has a RESIDENCY: one without is never sampled (R245, R247). -/
def Hub.tasteEligible (s : Hub) (b : Option SampBuf) (z : Nat) (d : OpDesc) : Bool :=
  let fmts := s.tasteConf b z F.TASTE_SLOT_FMT_FORMATS
  s.tasteConf b z F.TASTE_SLOT_RESIDENCY != 0 &&
    (if d.kind == 1 then s.tasteConf b z F.TASTE_SLOT_MXU == 1 else d.kind == 2 && s.tasteConf b z F.TASTE_SLOT_CONV == 1) &&
    bitAt fmts d.fmtA && bitAt fmts d.fmtB

/-- A tile issues a tasteable operation (R247): an armed spur samples it, in halves when all columns would not fit (R252). n_s is the
SCN with the issuing cycle counted. A sample taken while the cane is turned downward is discarded (R29). (DEDUCED, log entry 123) -/
def Hub.tasteOpIssue (s : Hub) (t : Nat) (d : OpDesc) : Hub :=
  let x := s.tile t
  match x.taste with
  | some q =>
    if !s.tasteArmed q || x.gated || !s.tasteEligible ((s.bufOf t).map s.sampBuf) x.slot d then s
    else if s.caneDown (s.caneFor (colOf t)) then s.abandonSample t
    else
      let full := s.sampleHeader t q d x.scn false false
      let half := d.kind == 1 && sampleMax < 80 + Sh.len full
      let h := if half then s.sampleHeader t q d x.scn true x.halfHigh else full
      s.setTile t { x with
        taste := some { q with started := true, ns := x.scn, header := h, desc := d }
        halfHigh := if half then !x.halfHigh else x.halfHigh }
  | none => s

/-- The tile signals the result of the sampled operation written (T_RES_WRITTEN, R491): the sampler may read its section (R249). -/
def Hub.resultWritten (s : Hub) (t : Nat) : Hub :=
  let x := s.tile t
  match x.taste with
  | some q => if q.started then s.setTile t { x with taste := some { q with written := true } } else s
  | none => s

/-- No eligible operation within TASTE_WAIT (R247). -/
def Hub.tasteMissed (s : Hub) (t : Nat) : Hub :=
  match (s.tile t).taste, s.bufOf t with
  | some q, some b => if s.tasteArmed q && q.armScn + s.tasteWait ≤ (s.tile t).scn then s.endSample b Tc.MISSED else s
  | _, _ => s

/-- Residency ran out before the last read (R249). -/
def Hub.tasteLate (s : Hub) (t : Nat) : Hub :=
  let x := s.tile t
  match x.taste, s.bufOf t with
  | some q, some b =>
    if q.started && q.ns + 1024 * s.tasteConf (some (s.sampBuf b)) x.slot F.TASTE_SLOT_RESIDENCY ≤ x.scn then s.endSample b Tc.LATE else s
  | _, _ => s

/-! ### Recomputation, R254 and R258 -/

/-- The profile a sample names, if it is present (R243, R244). -/
def Hub.profileOf (s : Hub) (id : Nat) : Option Prof :=
  if id == 0 then some profile0 else (s.taste.profiles.find? (fun b => leAt b 0 2 == id)).map profOf

/-- The profile permits a scale format with its block length. -/
def Prof.scaleOk (p : Prof) (fmt blk : Nat) : Bool :=
  fmt == 0 || (bitAt p.scales (fmt - 1) && blk ≤ 2 && bitAt p.blocks blk && !(fmt == 3 && blk == 0))

/-- The profile permits an element format. -/
def Prof.fmtOk (p : Prof) (f : Nat) : Bool := f < 14 && bitAt p.formats f

/-- The operation of a sample is legal (R238; for a conversion, what the profile permits). -/
def Sh.legal (p : Prof) (h : List Byte) : Bool :=
  let fa := Sh.fmtA h
  let fb := Sh.fmtB h
  let n := Sh.kn h
  let ok (scl blk : Nat) : Bool := p.scaleOk scl blk && (scl == 0 || n % blockLen blk == 0)
  if Sh.kind h == 1 then
    p.fmtOk fa && p.fmtOk fb && ok (Sh.sclA h) (Sh.blkA h) && ok (Sh.sclB h) (Sh.blkB h) && n % p.group == 0 &&
      n ≤ p.kMax (if fmtWidth fa < fmtWidth fb then fmtWidth fb else fmtWidth fa) && (fa == 13) == (fb == 13) &&
      (!Sh.intAcc h || (fmtInt fa && fmtInt fb && Sh.sclA h == 0 && Sh.sclB h == 0 && p.intAcc))
  else
    p.fmtOk fa && p.fmtOk fb && p.scaleOk (Sh.sclA h) (Sh.blkA h) && 1 ≤ n && n ≤ 64 && (!Sh.sr h || p.sr) &&
      (Sh.sclA h == 1) == Sh.selfScale h && !(Sh.selfScale h && fmtInt fb)

/-- A result: the element codes, the SAT bits, the produced scales. -/
structure Result where
  codes : List Nat
  sats : List Nat
  scales : List Nat
deriving DecidableEq, Repr

/-- The operand values of one row of elements with its scales. -/
def operandRow (p : Prof) (f scl bs : Nat) (codes : List Nat) (scales : List Byte) : List Num :=
  (codes.zipIdx).map (fun e => operandValue p f e.1 (scaleAt scl bs scales e.2))

/-- Rows of a packed section: `n` elements each, with their scale bytes. (DEDUCED, log entry 124) -/
def operandRows (p : Prof) (f scl blk rows n : Nat) (elems scales : List Byte) : List (List Num) :=
  let w := fmtWidth f
  let sb := scaleBytes scl (blockLen blk) n
  (List.range rows).map (fun i =>
    operandRow p f scl (blockLen blk) (unpack w n ((elems.drop (i * (n * w / 8))).take (n * w / 8))) ((scales.drop (i * sb)).take sb))

/-- The contract's result of an MXU sample (R238 to R241). -/
def mxuResult (p : Prof) (b : List Byte) : Result :=
  let n := Sh.kn b
  let c := Sh.cols b
  let rows := operandRows p (Sh.fmtA b) (Sh.sclA b) (Sh.blkA b) 32 n (sectionOf b 0) (sectionOf b 1)
  let cols := operandRows p (Sh.fmtB b) (Sh.sclB b) (Sh.blkB b) c n (sectionOf b 2) (sectionOf b 3)
  let init := sectionOf b 4
  let cells := (rows.zipIdx).flatMap (fun r => (cols.zipIdx).map (fun q =>
    let c0 := if Sh.cinitZero b then 0 else leAt init (4 * (r.2 * c + q.2)) 4
    let terms := List.zipWith Num.mul r.1 q.1
    if Sh.intAcc b then mxuInt32 p c0 terms else (mxuFp32 p c0 terms, false)))
  { codes := cells.map Prod.fst, sats := if Sh.intAcc b then cells.map (fun x => b2n x.2) else [], scales := [] }

/-- The larger of two magnitudes as fractions. -/
def maxFrac (a b : Nat × Nat) : Nat × Nat := if a.1 * b.2 < b.1 * a.2 then b else a

/-- The E8M0 scale a conversion produces for a block, and its elements (R233). (DEDUCED, log entry 121) -/
def selfScaled (p : Prof) (f : Nat) (sr : Nat → Option Nat) (first : Nat) (vals : List Num) : Nat × List Nat :=
  let special := vals.any (fun v => match v with | .fin _ _ _ => false | _ => true)
  let amax := vals.foldl (fun a v => match v with | .fin _ n d => maxFrac a (n, d) | _ => a) (0, 1)
  if special then (0xFF, vals.map (fun _ => 0))
  else if amax.1 == 0 then (0, vals.map (fun v => convert f p.convSat p.intSym none v))
  else
    let x := floorLog2 amax.1 amax.2 - fmtEmax f
    let q := pow2Frac 1 x
    (if x + 127 < 0 then 0 else if 254 < x + 127 then 254 else (x + 127).toNat,
     (vals.zipIdx).map (fun v => convert f p.convSat p.intSym (sr (first + v.2)) (v.1.quot q.1 q.2)))

/-- The contract's result of a conversion sample (R231 to R236). -/
def convResult (p : Prof) (b : List Byte) : Result :=
  let n := Sh.kn b
  let f := Sh.fmtB b
  let bs := blockLen (Sh.blkA b)
  let sr (e : Nat) : Option Nat := if Sh.sr b then some (draw (Sh.seed b) (Sh.tile b) (Sh.ns b) (Sh.stream b) e) else none
  let vals := (unpack (fmtWidth (Sh.fmtA b)) n (sectionOf b 0)).map (valueOf (Sh.fmtA b))
  if Sh.selfScale b then
    let blocks := ((groupsOf bs vals.length vals).zipIdx).map (fun g => selfScaled p f sr (g.2 * bs) g.1)
    { codes := blocks.flatMap Prod.snd, sats := [], scales := blocks.map Prod.fst }
  else
    let codes := (vals.zipIdx).map (fun v =>
      match scaleAt (Sh.sclA b) bs (sectionOf b 1) v.2 with
      | .fin _ m d => if m == 0 then 0 else convert f p.convSat p.intSym (sr v.2) (v.1.quot m d)
      | _ => 0)
    { codes := codes, sats := [], scales := [] }

/-- The contract's result of a sample. -/
def contractResult (p : Prof) (b : List Byte) : Result := if Sh.kind b == 1 then mxuResult p b else convResult p b

/-- The tile's result as the sample holds it. -/
def tileResult (b : List Byte) : Result :=
  if Sh.kind b == 1 then
    let m := 32 * Sh.cols b
    { codes := unpack 32 m (sectionOf b 5), sats := if Sh.intAcc b then unpack 1 m (sectionOf b 6) else [], scales := [] }
  else
    { codes := unpack (fmtWidth (Sh.fmtB b)) (Sh.kn b) (sectionOf b 2), sats := [],
      scales := if Sh.selfScale b then unpack 8 (ceilDiv (Sh.kn b) (blockLen (Sh.blkA b))) (sectionOf b 3) else [] }

/-- A result as the evidence buffer holds it: packed as in the payload. -/
def resultBytes (b : List Byte) (r : Result) : List Byte :=
  if Sh.kind b == 1 then padMul 16 (pack 32 r.codes) ++ padMul 16 (pack 1 r.sats)
  else padMul 16 (pack (fmtWidth (Sh.fmtB b)) r.codes) ++ padMul 16 (pack 8 r.scales)

/-! ### Comparison, R256 -/

/-- The ordered code of an FP32 code. -/
def ordered (c : Nat) : Int := if bitAt c 31 then -((c % 2 ^ 31 : Nat) : Int) else ((c % 2 ^ 31 : Nat) : Int)

/-- An FP32 code is finite. -/
def finite32 (c : Nat) : Bool := c % 2 ^ 31 < 0x7F800000

/-- Two result codes of a format match under a mode; INT32 results have no format. -/
def codesMatch (mode tol : Nat) (fmt : Option Nat) (a b : Nat) : Bool :=
  a == b ||
  (match fmt with
   | some f =>
     (mode == 1 || mode == 2) &&
       ((isNan f a && isNan f b) || (!fmtInt f && magOf f a == 0 && magOf f b == 0) ||
        (mode == 2 && f == 13 && finite32 a && finite32 b && (ordered a - ordered b).natAbs ≤ tol))
   | none => false)

/-- The format of a sample's result codes: none for INT32. -/
def resultFmt (b : List Byte) : Option Nat :=
  if Sh.kind b == 1 then (if Sh.intAcc b then none else some 13) else some (Sh.fmtB b)

/-- The elements that differ, with the tile's code and the contract's. A produced scale that differs counts for its block's elements. -/
def differing (mode tol : Nat) (b : List Byte) (got want : Result) : List (Nat × Nat × Nat) :=
  let bs := blockLen (Sh.blkA b)
  ((got.codes.zip want.codes).zipIdx).filterMap (fun p =>
    let i := p.2
    if codesMatch mode tol (resultFmt b) p.1.1 p.1.2 && nth got.sats i 0 == nth want.sats i 0 &&
        nth got.scales (i / bs) 0 == nth want.scales (i / bs) 0 then none
    else some (i, p.1.1, p.1.2))

/-! ### Tasters, R254 and R255 -/

/-- A taster is in service: neither retired nor under test. -/
def Hub.tasterUp (s : Hub) (n : Nat) : Bool :=
  n < 4 && !s.taste.retired.contains n && !s.bist.runs.any (fun r => r.target == 2 && r.unit == n)

/-- Tasters in service. -/
def Hub.tastersUp (s : Hub) : List Nat := (List.range 4).filter s.tasterUp

/-- A taster works on a buffer. -/
def Hub.tasterBusy (s : Hub) (n : Nat) : Bool := s.taste.bufs.cells.any (fun p => p.2.busyOn == some n)

/-- Gives each complete sample that waits to a free taster that has not recomputed it yet. -/
def Hub.assignTasters (s : Hub) : Hub :=
  doEach ((s.taste.bufs.cells.filter (fun p => p.2.ready && p.2.busyOn.isNone)).map Prod.fst) s (fun s b =>
    let x := s.sampBuf b
    match s.tastersUp.find? (fun n => !s.tasterBusy n && !x.tasters.any (fun r => r.1 == n)) with
    | some n => s.setBuf b { x with busyOn := some n }
    | none => s)

/-- Records the tile, slot and n_s of TASTE_LAST. -/
def Hub.tasteLast (s : Hub) (b : List Byte) (corkStatus : Nat) : Hub :=
  (s.setReg R.TASTE_LAST_TILE (Sh.tile b + 0x4000 + Sh.slot b * 65536 + corkStatus * 2 ^ 24)).setReg64 R.TASTE_LAST_SCN_LO (Sh.ns b)

/-- Copies a sample and the contract's result into the evidence buffer and locks it, unless it is locked (R257). -/
def Hub.keepEvidence (s : Hub) (b : List Byte) (want : Result) : Hub :=
  if s.flag F.TASTE_STATE_EVID_LOCKED then s
  else
    let s := { s with taste := { s.taste with evidSample := b, evidWant := resultBytes b want, evidSlot := Sh.slot b } }
    let s := (s.wr F.TASTE_STATE_EVID_LOCKED 1).wr F.TASTE_EVID_LEN_BYTES b.length
    s.raiseOf Ev.TASTE_EVID_LOCKED (Sh.tile b)

/-- A STOP of one slot in ASAP mode with the rights of MGMT: its acceptance status. -/
def Hub.stopSlot (s : Hub) (src : CorkSrc) (z : Nat) : Nat × Hub :=
  let r := s.corkIssue src false 1 { kind := 0, fed := false, xpkg := false, part := 0, slot := z, tag := 0, mode := 0, target := 0, count := 0 } 0 0
  (r.1.status, r.2)

/-- A mismatch counts and acts by TASTE_SLOT.ACTION (R257). -/
def Hub.tasteMismatch (s : Hub) (bufNo : Nat) (want : Result) (diffs : List (Nat × Nat × Nat)) (unconfirmed : Bool) : Hub :=
  let x := s.sampBuf bufNo
  let b := x.data
  let s := s.tasteCount x.slot Tc.MISMATCH
  let action := s.tasteConf (some x) x.slot F.TASTE_SLOT_ACTION
  let s :=
    if action == 0 then s
    else
      let r := if action == 2 then s.stopSlot (.taste x.slot) x.slot else (0, s)
      let s := r.2.tasteLast b r.1
      let d := diffs.headD (0, 0, 0)
      let conv := Sh.kind b == 2
      let c := Sh.cols b
      let elem := if conv then d.1 % 32 + d.1 / 32 * 32 else d.1 / c + (Sh.firstCol b + d.1 % c) * 256
      let s := s.setReg R.TASTE_LAST_ELEM (elem + diffs.length * 65536 + b2n unconfirmed * 2 ^ 27 + b2n conv * 2 ^ 28)
      let s := (s.setReg R.TASTE_LAST_GOT d.2.1).setReg R.TASTE_LAST_WANT d.2.2
      let s := s.raiseOf Ev.TASTE_MISMATCH (Sh.tile b)
      s.keepEvidence b want
  s.endSample bufNo Tc.TASTED

/-- Compares a result the tasters agree on with the tile's. -/
def Hub.tasteCompare (s : Hub) (bufNo : Nat) (want : Result) (unconfirmed : Bool) : Hub :=
  let x := s.sampBuf bufNo
  let diffs := differing (s.tasteConf (some x) x.slot F.TASTE_SLOT_MODE) (s.tasteConf (some x) x.slot F.TASTE_SLOT_ULP_TOL) x.data (tileResult x.data) want
  if diffs.isEmpty then s.endSample bufNo Tc.TASTED else s.tasteMismatch bufNo want diffs unconfirmed

/-- The result as numbers, as the buffer keeps it. -/
def Result.toList (r : Result) : List Nat := r.codes ++ r.sats ++ r.scales

/-- The result a buffer keeps as numbers, cut as the sample's own result is. -/
def resultOf (b : List Byte) (l : List Nat) : Result :=
  let t := tileResult b
  { codes := l.take t.codes.length, sats := (l.drop t.codes.length).take t.sats.length,
    scales := l.drop (t.codes.length + t.sats.length) }

/-- Takes a taster out of service (R255, R273). -/
def Hub.retireTaster (s : Hub) (n : Nat) : Hub :=
  let s := { s with taste := { s.taste with
    retired := insertNat n s.taste.retired, bistOk := removeNat n s.taste.bistOk,
    bufs := ⟨s.taste.bufs.cells.map (fun (p : Nat × SampBuf) => if p.2.busyOn == some n then (p.1, { p.2 with busyOn := none }) else p)⟩ } }
  s.raiseOf Ev.TASTER_LOST n

/-- What the results so far decide about a sample (R255). -/
def Hub.tasteJudge (s : Hub) (bufNo : Nat) : Hub :=
  let x := s.sampBuf bufNo
  let b := x.data
  match x.tasters with
  | [] => s
  | [(_, r)] =>
    let want := resultOf b r
    let same := (differing (s.tasteConf (some x) x.slot F.TASTE_SLOT_MODE) (s.tasteConf (some x) x.slot F.TASTE_SLOT_ULP_TOL) b (tileResult b) want).isEmpty
    if same then s.endSample bufNo Tc.TASTED
    else if s.flag F.TASTE_CTRL_CONFIRM && s.tastersUp.any (· != (x.tasters.headD (0, [])).1) then s
    else s.tasteCompare bufNo want true
  | [(n, r), (m, q)] =>
    if r == q then s.tasteCompare bufNo (resultOf b r) false
    else if s.tastersUp.any (fun k => k != n && k != m) then s
    else (s.err Er.TASTE_TASTER_DISAGREE).endSample bufNo Tc.CORRUPT
  | (n, r) :: (m, q) :: (k, u) :: _ =>
    if r == u then (s.retireTaster m).tasteCompare bufNo (resultOf b r) false
    else if q == u then (s.retireTaster n).tasteCompare bufNo (resultOf b q) false
    else if r == q then (s.retireTaster k).tasteCompare bufNo (resultOf b r) false
    else s.endSample bufNo Tc.CORRUPT

/-- Judges every sample that waits with a result, then hands out the free tasters. -/
def Hub.tastersGo (s : Hub) : Hub :=
  let s := doEach ((s.taste.bufs.cells.filter (fun p => p.2.ready && p.2.busyOn.isNone && !p.2.tasters.isEmpty)).map Prod.fst) s Hub.tasteJudge
  s.assignTasters

/-- A taster finishes its recomputation; a faulty one's result is given (R254, R255). -/
def Hub.tasterResult (s : Hub) (n : Nat) (faulty : Option (List Nat)) : Hub :=
  match s.taste.bufs.cells.find? (fun p => p.2.busyOn == some n) with
  | some (bufNo, x) =>
    match s.profileOf (Sh.profile x.data) with
    | some p =>
      let r := faulty.getD (contractResult p x.data).toList
      (s.setBuf bufNo { x with busyOn := none, tasters := x.tasters ++ [(n, r)] }).tastersGo
    | none => s
  | none => s

/-- The CRC check of a received sample (R249, R250): its words are those its spur sent. -/
def sampleOk (b : List Byte) : Bool :=
  let n := Sh.len b
  (Sh.kind b == 1 || Sh.kind b == 2) && b.length == 80 + n && crc32c (b.take (64 + n)) == leAt b (64 + n) 4

/-- The length check of a received sample (R249, R250): its payload is what the fields of its header call for. -/
def sampleFits (b : List Byte) : Bool := Sh.len b == Sh.payload b && b.length ≤ sampleMax

/-- A buffer waits for a sample that its spur can send to the end: begun, its result written (R249), its cane carrying words upward. -/
def Hub.sampleDue (s : Hub) (b : Nat) : Bool :=
  let t := (s.sampBuf b).tile
  s.taste.bufs.keys.contains b && !(s.sampBuf b).ready && !s.caneShut (s.caneFor (colOf t)) &&
  (match (s.tile t).taste with
   | some q => q.started && q.written
   | none => false)

/-- A sample's words have passed on the cane as CLASS 1 (R102, R249): the last one is the trailer's reserved word. -/
def Hub.sampleSlot (s : Hub) (t : Nat) : Hub :=
  let c := colOf t
  let q := s.caneFor c
  s.setCane q { s.cane q with slot := caneSlot 0 (slotTag 1 (rowOf t) (q != c) false true false 0) }

/-- A complete sample reaches the hub (R249, R254, R258). `bad`: 0 good, 1 a cane parity error, 2 an uncorrectable error in the buffer. `got` is
what arrived when it is not what the spur sent: the header, the payload the spur read, and the trailer. (DEDUCED, log entry 122) -/
def Hub.sampleRx (s : Hub) (bufNo bad : Nat) (got : Option (List Byte)) : Hub :=
  if !s.sampleDue bufNo then s
  else
    let x := s.sampBuf bufNo
    match (s.tile x.tile).taste with
    | some q =>
        let s := s.sampleSlot x.tile
        let payload := s.samplePayload x.tile q.header q.desc
        let body := q.header ++ payload
        let b := got.getD (body ++ sampleTrailer body payload.length 0)
        if bad != 0 || !sampleOk b then
          (s.err (if bad == 2 then Er.TASTE_BUF_ECC else Er.TASTE_SAMPLE_CHECK)).endSample bufNo Tc.CORRUPT
        else if leAt b (64 + Sh.len b + 4) 1 == 1 then s.endSample bufNo Tc.LATE
        else
          match (s.profileOf (Sh.profile b)).filter (fun p => Sh.legal p b) with
          | none => ((s.tasteLast b 0).raiseOf Ev.TASTE_ILLEGAL (Sh.tile b)).endSample bufNo Tc.ILLEGAL
          | some _ =>
            if !sampleFits b then (s.err Er.TASTE_SAMPLE_CHECK).endSample bufNo Tc.CORRUPT
            else
            let s := s.setTile x.tile { s.tile x.tile with taste := none }
            (s.setBuf bufNo { x with data := b, ready := true }).assignTasters
    | none => s

/-! ### TASTE_CMD, R273 -/

/-- Writes TASTE_CMD_STATUS. -/
def Hub.tasteStatus (s : Hub) (op status : Nat) : Hub :=
  (s.wr F.TASTE_CMD_STATUS_STATUS status).wr F.TASTE_CMD_STATUS_OP op

/-- The status of a TASTE_CMD by the rows of R273. -/
def Hub.tasteCheck (s : Hub) (op : Nat) : Nat :=
  let t := s.rd F.TASTE_ARG_TILE
  let n := s.rd F.TASTE_ARG_TASTER
  if s.isSafe then St.FAULT
  else if op == 0 || 5 < op || (op == 1 && (s.tile t).noContext) then St.BAD_ARG
  else if op == 1 && (s.freeBuf.isNone || (s.bufOf t).isSome) then St.BUSY
  else if op == 1 && (s.dom (s.tile t).slot).st != .running then St.NOT_STOPPED
  else if op == 3 && s.tastersUp.length ≤ 1 then St.LIMIT
  else if op == 4 && s.taste.retired.contains n && !s.taste.bistOk.contains n then St.FAULT
  else St.OK

/-- Clears the tasting counters. -/
def Hub.clearTaste (s : Hub) : Hub :=
  ({ s with taste := { s.taste with stats := {}, lossAt := none } }).wr F.TASTE_THROTTLED_COUNT 0

/-- A write of TASTE_CMD. -/
def Hub.tasteCmd (s : Hub) (op : Nat) : Hub :=
  let st := s.tasteCheck op
  let n := s.rd F.TASTE_ARG_TASTER
  let t := s.rd F.TASTE_ARG_TILE
  let s := s.tasteStatus op st
  if st != St.OK then s
  else
    match op with
    | 1 => match s.freeBuf with
      | some b => s.requestSample b (s.tile t).slot t
      | none => s
    | 2 => s.wr F.TASTE_STATE_EVID_LOCKED 0
    | 3 => if s.tasterUp n then (s.retireTaster n).tastersGo else s
    | 4 => (({ s with taste := { s.taste with retired := removeNat n s.taste.retired } }).raiseOf Ev.TASTER_RESTORED n).tastersGo
    | _ => s.clearTaste

/-- A read of TASTE_EVID_DATA (R257, R276): the word at OFFSET, 0 to PORT and JTAG for a SECURE slot no grant covers; OFFSET grows by 4. -/
def Hub.evidRead (s : Hub) (r : Req) : Nat × Hub :=
  let a := s.rd F.TASTE_EVID_ADDR_OFFSET / 4 * 4
  let secret := Sh.priv s.taste.evidSample == 2 && !s.covers Right.SECURE s.taste.evidSlot && isExternal r
  let v := if secret then 0 else if a < 0x6000 then leAt s.taste.evidSample a 4 else leAt s.taste.evidWant (a - 0x6000) 4
  (v, s.wr F.TASTE_EVID_ADDR_OFFSET ((a + 4) % 2 ^ 15))

end Sys2Proof.Machine
end

