-- ==== Sys2Proof/Machine/Rel.lean ====
section
/-! DEFINITION. Faults, degraded service, SAFE and the pair (15_faults_degraded.md, R415 to R436). -/

namespace Sys2Proof.Machine

/-! ### Records of faults, R415, R416 and R433 -/

/-- REL_LAST_FAULT.KIND. -/
def Lf.ECC_UNCORR : Nat := 1
def Lf.PARITY : Nat := 2
def Lf.FSM : Nat := 3
def Lf.ECHO : Nat := 4
def Lf.KAT : Nat := 5
def Lf.LANE_CHECK : Nat := 6
def Lf.ROOT_ECHO : Nat := 7
def Lf.HEARTBEAT : Nat := 8

/-- Records a fault in REL_LAST_FAULT with its GCN. -/
def Hub.lastFault (s : Hub) (page unit kind : Nat) (masked : Bool) : Hub :=
  let s := s.setReg R.REL_LAST_FAULT (page % 256 + unit % 256 * 0x100 + kind * 0x10000 + b2n masked * 0x100000 + 0x200000)
  s.setReg64 R.REL_LAST_GCN_LO s.now

/-- The standby of a 16K-R is in service. -/
def Hub.pairReady (s : Hub) : Bool := s.isPair && s.rd F.PAIR_STATE_STANDBY == 1

/-- A corrected word of a page's memories (R431). -/
def Hub.eccCorr (s : Hub) (page : Nat) : Hub :=
  let s := s.bump F.REL_ECC_CORR_COUNT 1
  let r := s.raiseLimited s.rel.eccEvAt Ev.ECC_CORRECTED (some page)
  let s := r.1
  { s with rel := { s.rel with eccEvAt := r.2 } }

/-- An uncorrectable word of a page's memories. -/
def Hub.eccUncorr (s : Hub) (page unit : Nat) : Hub :=
  let s := (s.bump F.REL_ECC_UNCORR_COUNT 1).lastFault page unit Lf.ECC_UNCORR false
  s.raiseOf Ev.ECC_UNCORR page

/-! ### Degraded service, R426 -/

/-- REL_DEGRADED as the present causes give it. -/
def Hub.degradedNow (s : Hub) : Nat :=
  listMask ((List.range 16).filter s.retired) + 0x10000 * b2n (s.canes.cells.any (fun p => p.2.mode == 1 || p.2.mode == 2)) +
  0x20000 * listMask s.taste.retired + 0x200000 * b2n (s.isPair && s.rd F.PAIR_STATE_STANDBY == 2)

/-- The page of a bit of REL_DEGRADED. -/
def degradedPage (bit : Nat) : Nat :=
  if bit < 16 then Pg.PRESS + bit else if bit == 16 then Pg.CANE else if bit < 21 then Pg.TASTE else Pg.PAIR

/-- Each cause entering raises DEGRADED; the last one clearing raises DEGRADED_CLEARED. -/
def Hub.degradedCheck (s : Hub) : Hub :=
  let was := s.reg R.REL_DEGRADED
  let now := s.degradedNow
  if was == now then s
  else
    let s := s.setReg R.REL_DEGRADED now
    let s := doEach ((maskList 22 now).filter (fun b => !bitAt was b)) s (fun s b => s.raiseOf Ev.DEGRADED (degradedPage b))
    if now == 0 then s.raise Ev.DEGRADED_CLEARED else s

/-- REPLACE_REQ is asserted (R426). -/
def Hub.replaceReq (s : Hub) : Bool := s.reg R.REL_DEGRADED != 0 || s.isSafe

/-! ### The SAFE state, R428 -/

def Sc.TRELLIS_ROOT : Nat := 1
def Sc.CORK : Nat := 2
def Sc.BOOT : Nat := 3
def Sc.HUB_LOGIC_BIST : Nat := 4
def Sc.NO_STANDBY : Nat := 5
def Sc.TAKEOVER_FAULT : Nat := 6

/-- A domain is stopped without consistency; a hold ends with a new pattern (R82). (DEDUCED, log entry 74) -/
def Domain.safeStop (d : Domain) (gcn epoch : Nat) : Domain :=
  if d.st == .running || d.st == .stopping then
    { d with st := .stopped, stepping := false, startAt := none, stopScn := none, stopAtGcn := none, stopGcn := gcn, stopEpoch := epoch,
             final := St.FAULT, consistent := false, timeAligned := false, stopNow := true, hold := none
             waiting := if d.hold.isSome then d.waiting ++ [(gcn + 32, { d with hold := none }.effective, { d with hold := none }.bareMask)]
               else d.waiting }
  else d

/-- A tile is gated at once. -/
def Tile.safeStop (x : Tile) (gcn epoch : Nat) : Tile :=
  if x.gated then x
  else { x with arm := .none, gated := true, gateGcn := gcn, gateEpoch := epoch, stopNow := true, wave := none, start := none }

/-- The hub enters SAFE (R428): tiles stop without consistency, cork commands end FAULT, samples end ABANDONED (R249), coopers halt, TILE_HOLD is asserted. -/
def Hub.enterSafe (s : Hub) (cause : Nat) : Hub :=
  if s.isSafe then s
  else
    let s := doEach ((s.tiles.cells.filter (fun p => !p.2.branch.isEmpty)).map Prod.fst) s Hub.flushBranch
    let s := { s with
      rel := { s.rel with safe := true }
      doms := ⟨s.doms.cells.map (fun (p : Nat × Domain) => (p.1, p.2.safeStop s.now s.epoch))⟩
      tiles := ⟨s.tiles.cells.map (fun (p : Nat × Tile) => (p.1, p.2.safeStop s.now s.epoch))⟩
      hangCtl := { s.hangCtl with audits := s.hangCtl.audits.filter (fun a => a.diffs.isSome) }
      pins := { s.pins with tileHold := true } }
    let s := doEach s.corks s (fun s c => s.corkEnd c St.FAULT)
    let s := doEach (s.taste.bufs.cells.map (fun p => p.2.tile)) s Hub.abandonSample
    let s := s.coopSafe
    (s.wr F.REL_STATE_SAFE_CAUSE cause).raiseOf Ev.SAFE_ENTERED cause

/-! ### Takeover, R423 to R425 -/

/-- The standby becomes LOST. -/
def Hub.standbyLost (s : Hub) : Hub :=
  if !s.isPair || s.rd F.PAIR_STATE_STANDBY == 2 then s
  else
    let s := (s.wr F.PAIR_STATE_STANDBY 2).raiseOf Ev.STANDBY_LOST (1 - s.rd F.PAIR_STATE_ACTIVE)
    { s with bist := { s.bist with standbyPass := false } }

/-- The halt wave of a takeover stops every harvest, decant and digest stream (R424, R425). -/
def Hub.haltStreams (s : Hub) : Hub :=
  let s := s.harvEnd Gp.TAKEOVER St.FAULT
  let s := if s.harv.op == 2 && !(s.dom s.harv.dSlot).failedDecant then s.decantFail s.harv.dSlot else s
  let s := if s.digTiles.active then s.passFault false none else s
  if s.digExt.active then s.passFault true (some (Da.region s.digExt.arg)) else s

/-- The selector moves the active designation (R423), and the halt wave goes out (R424); the tendrils and the rack link retrain from the new active core (R325, R354). -/
def Hub.takeoverStart (s : Hub) (cause : Nat) : Hub :=
  let core := 1 - s.rd F.PAIR_STATE_ACTIVE
  let s := ((s.wr F.PAIR_STATE_ACTIVE core).wr F.PAIR_STATE_TAKEOVER 1).wr F.PAIR_STATE_LAST_CAUSE cause
  let s := (s.bump F.PAIR_TAKEOVERS_COUNT 1).raiseOf Ev.TAKEOVER_START core
  let s := { s with rel := { s.rel with takeoverAt := s.time.hclk }, hi := {} }
  let s := s.standbyLost.haltStreams
  let s := if s.linkSt == Lk.DISABLED then s else (s.linkDown Dc.TAKEOVER).linkRetrain
  let s := doEach [0, 1, 2, 3] s (fun s t =>
    if (s.tend t).st == 0 then s else s.retrain t)
  if s.fed.tend.cells.any (fun p => p.2.st != 0) then
    ({ s with fed := { s.fed with joining := true } }).wr F.FED_SELF_JOINED 0
  else s

/-- The statistics counters a checkpoint carries (R422): the counter registers that CLEAR_STATS commands clear. -/
def statRegs : List Nat :=
  [R.CELL_EVICTED, R.RACK_SENT_LO, R.RACK_SENT_LO + 4, R.LINK_FEC_CORR_LO, R.LINK_FEC_CORR_LO + 4, R.LINK_FEC_UNCORR, R.LINK_REPLAYS,
   R.LINK_FLITS_TX_LO, R.LINK_FLITS_TX_LO + 4, R.LINK_FLITS_RX_LO, R.LINK_FLITS_RX_LO + 4, R.LINK_DOWN_COUNT, R.DIGEST_PASSES,
   R.TRACE_FRAMES_LO, R.TRACE_FRAMES_LO + 4, R.TRACE_LOST_LO, R.TRACE_LOST_LO + 4, R.TRACE_DISCARDED, R.HANG_DIV_COUNT, R.BIST_PASSES,
   R.REL_TEND_ROUNDS, R.REL_ECC_CORR, R.REL_ECC_UNCORR] ++
  (List.range 16).flatMap (fun l => [R.PRESS_IN_LO, R.PRESS_IN_LO + 4, R.PRESS_OUT_LO, R.PRESS_OUT_LO + 4, R.PRESS_BLOCKS, R.PRESS_RAW_BLOCKS,
    R.PRESS_REF_BLOCKS, R.PRESS_REF_STAT, R.PRESS_STALL].map (fun a => a + l * 0x1000))

/-- What the checkpoint holds is loaded (R422, R424). A spur keeps a tile isolated whatever the map says. (DEDUCED, log entry 191) -/
def Hub.loadCheckpoint (s : Hub) : Hub :=
  if !s.rel.ckptGood then s
  else
    let s := doEach s.rel.ckptStats s (fun s (p : Nat × Nat) => s.setReg p.1 p.2)
    let s := doEach (s.rel.ckptOos.filter (fun t => (s.tile t).st == .parked)) s (fun s t => s.setTile t { s.tile t with st := .outOfService })
    ({ s with
      rack := { s.rel.ckptRack with nextId := s.rack.nextId, ask := s.rack.ask }
      auth := { s.auth with grants := s.rel.ckptGrants } }).traceGrants s

/-- The request that racks restarts its present object (R187). -/
def Hub.rackRestart (s : Hub) : Hub :=
  if s.rack.active.isNone || s.rack.step < 4 then s
  else { s with rack := { s.rack with suspended := true, doneObj := s.rack.left.headD s.rack.doneObj, donePos := 0 } }

/-- A register of the standby as its last mirror entry left it: the RW fields of the word that was written, every other field as it is
here. An entry is overtaken by any later change of the register here, which the mirror stream carries too (R421). (DEDUCED, log entry 332) -/
def Hub.mirrored (s : Hub) (key : Nat) : Nat :=
  let old := (s.regs.get key (BitVec.ofNat 32 (regReset (key % 0x100000)))).toNat
  match regDef (key % 0x100000), s.rel.mirrorRegs.get key (0, 0) with
  | some d, (was, v) =>
    let m := d.mask .rw
    if (s.rel.mirrorRegs.keys.contains key) && was.toNat == old then (old ^^^ (old &&& m)) ||| (v.toNat &&& m) else old
  | none, _ => old

/-- Registers take the values the mirror holds (R424). The pair's own page is the selector's, and no part of the mirror. -/
def Hub.applyMirror (s : Hub) : Hub :=
  doEach (s.rel.mirrorRegs.keys.filter (fun k => pageOf (k % 0x100000) != Pg.PAIR)) s (fun s k => s.setRegB (k % 0x100000) (k / 0x100000) (s.mirrored k))

/-- A ladder level in progress restarts from its beginning (R307). -/
def Hub.ladderRestart (s : Hub) : Hub :=
  if s.ladder.active then { s with ladder := { s.ladder with begun := false, tilesLeft := [], since := s.time.hclk } } else s

/-- The new active core has finished (R424, R425). -/
def Hub.takeoverDone (s : Hub) : Hub :=
  if !s.flag F.PAIR_STATE_TAKEOVER then s
  else
    let s := s.applyMirror.loadCheckpoint
    let s := doEach s.taste.bufs.keys s.haltStreams (fun s b => s.endSample b Tc.ABANDONED)
    let s := doEach s.openSlots s Hub.startHistory
    let s := (s.abortRuns.ladderRestart).rackRestart
    let s := s.loseRouter
    let s := doEach [0, 1] s Hub.coopRestart
    let s := (s.wr F.PAIR_STATE_TAKEOVER 0).setReg R.PAIR_TAKEOVER_TIME (sat 32 (s.time.hclk - s.rel.takeoverAt))
    (s.wr F.PAIR_CMD_STATUS_DONE 1).raiseOf Ev.TAKEOVER_DONE (s.rd F.PAIR_STATE_ACTIVE)

/-- A critical element of the active core has failed (R423, R425, R428). -/
def Hub.critical (s : Hub) (cause : Nat) : Hub :=
  if s.flag F.PAIR_STATE_TAKEOVER then s.enterSafe Sc.TAKEOVER_FAULT
  else if s.isPair && !s.pairReady then s.abortRuns.enterSafe Sc.NO_STANDBY
  else if s.pairReady && s.flag F.PAIR_CTRL_AUTO_TAKEOVER then s.takeoverStart 1
  else s.enterSafe cause

/-! ### State machine faults, R415 -/

/-- The PG_ERROR.FSM_CODE bit of a page. -/
def fsmBit (page : Nat) : Option ErrBit :=
  if 0x08 ≤ page ∧ page ≤ 0x17 then some (Er.PRESS_FSM_CODE.lane (page - 8))
  else if page == 0x28 then some (Er.COOP_FSM_CODE.lane 1)
  else [Er.CORK_FSM_CODE, Er.HARV_FSM_CODE, Er.TRACE_FSM_CODE, Er.TASTE_FSM_CODE, Er.DIGEST_FSM_CODE, Er.NUMW_FSM_CODE,
    Er.HANG_FSM_CODE, Er.RSET_FSM_CODE, Er.FED_FSM_CODE, Er.LINK_FSM_CODE, Er.BIST_FSM_CODE, Er.REL_FSM_CODE, Er.PAIR_FSM_CODE,
    Er.COOP_FSM_CODE, Er.GLB_FSM_CODE, Er.LIFE_FSM_CODE, Er.AUTH_FSM_CODE].find? (fun e => e.page == page)

/-- A command outstanding in the unit ends FAULT. -/
def Hub.endCommand (s : Hub) (done status : Fld) : Hub :=
  if s.flag done then s else (s.wr status St.FAULT).wr done 1

/-- The unit of a page resets and its command ends FAULT. (DEDUCED, log entry 190) -/
def Hub.unitReset (s : Hub) (page : Nat) : Hub :=
  if page == Pg.HARV then
    if s.harv.op == 1 then s.harvEnd Gp.ABORTED St.FAULT
    else if s.harv.op == 2 && !(s.dom s.harv.dSlot).failedDecant then s.decantFail s.harv.dSlot
    else s
  else if page == Pg.RACK then (s.rackAbort St.FAULT).endCommand F.RACK_STATUS_DONE F.RACK_STATUS_STATUS
  else if page == Pg.LINK then (s.linkDown Dc.COMMAND).endCommand F.LINK_CMD_STATUS_DONE F.LINK_CMD_STATUS_STATUS
  else if page == Pg.TRACE then s.traceStop.endCommand F.TRACE_CMD_STATUS_DONE F.TRACE_CMD_STATUS_STATUS
  else if page == Pg.TASTE then doEach s.taste.bufs.keys s (fun s b => s.endSample b Tc.ABANDONED)
  else if page == Pg.DIGEST then
    let s := if s.digTiles.active then s.passFault false none else s
    let s := if s.digExt.active then s.passFault true (some (Da.region s.digExt.arg)) else s
    s.endCommand F.DIGEST_CMD_STATUS_DONE F.DIGEST_CMD_STATUS_STATUS
  else if page == Pg.HANG then doEach s.openSlots s Hub.startHistory
  else if page == Pg.RSET then
    if s.ladder.active then
      let s := { s with ladder := { s.ladder with active := false, begun := false, drain := [], tilesLeft := [], hubsLeft := [], next := [], waiting := false } }
      (s.wr F.RSET_STATUS_FINAL St.FAULT).wr F.RSET_STATUS_DONE 1
    else s
  else if page == Pg.BIST then s.abortRuns.endCommand F.BIST_CMD_STATUS_DONE F.BIST_CMD_STATUS_STATUS
  else if page == Pg.REL then s.wr F.REL_STATE_TENDING 0
  else if page == Pg.CELL then s.endCommand F.CELL_CMD_STATUS_DONE F.CELL_CMD_STATUS_STATUS
  else if page == Pg.CANE then s.endCommand F.CANE_CMD_STATUS_DONE F.CANE_CMD_STATUS_STATUS
  else if page == Pg.TIME then if s.time.armedAt.isSome then s else s.endCommand F.TIME_CMD_STATUS_DONE F.TIME_CMD_STATUS_STATUS
  else if page == Pg.LIFE then s.endCommand F.LIFE_CMD_STATUS_DONE F.LIFE_CMD_STATUS_STATUS
  else if page == Pg.AUTH then s.endCommand F.AUTH_CMD_STATUS_DONE F.AUTH_CMD_STATUS_STATUS
  else if page == Pg.GLB then ({ s with glbLeft := 0 }).endCommand F.GLB_CMD_STATUS_DONE F.GLB_CMD_STATUS_STATUS
  else if page == Pg.FED then s.endCommand F.FED_CMD_STATUS_DONE F.FED_CMD_STATUS_STATUS
  else if page == 0x27 || page == 0x28 then
    let c := page - 0x27
    let s := s.disown (coopReq c)
    (s.setCoop c {}).endCommand (F.COOP_CMD_STATUS_DONE.lane c) (F.COOP_CMD_STATUS_STATUS.lane c)
  else s

/-- An invalid code word in a unit, or a root echo that differs (the page of the trellis) (R415, R423, R428). -/
def Hub.fsmFault (s : Hub) (page : Nat) : Hub :=
  let crit := page == Pg.CORK || page == Pg.TREL || page == Pg.BOOT
  let masked := crit && s.pairReady && s.flag F.PAIR_CTRL_AUTO_TAKEOVER && !s.flag F.PAIR_STATE_TAKEOVER
  let s := match fsmBit page with
    | some e => s.err e
    | none => s
  let s := s.lastFault page (if crit then s.rd F.PAIR_STATE_ACTIVE else pageStep (page * 0x1000))
    (if page == Pg.TREL then Lf.ROOT_ECHO else Lf.FSM) masked
  let s := s.raiseOf Ev.FSM_FAULT page
  if page == Pg.CORK then s.critical Sc.CORK
  else if page == Pg.TREL then s.critical Sc.TRELLIS_ROOT
  else if page == Pg.BOOT then s.critical Sc.BOOT
  else s.unitReset page

/-! ### Parity of a register, R416 -/

/-- A parity error in the register at an address (R416): reloaded from the mirror where the standby is in service. An error in
a cork state register, which here stands for the selected domain's state and reference SCN, is a fault of the cork unit, and one of PAIR_STATE
is an outvoted copy of the selector (DESIGN CHOICE, log entry 312). -/
def Hub.regParity (s : Hub) (addr : Nat) : Hub :=
  let page := pageOf addr
  let off := offOf addr
  let bit := if 0x40 ≤ off ∧ off < 0xBC then (off - 0x40) / 4 else 31
  let f := F.PG_PARITY_REG.lane page
  let s := s.setReg f.addr (s.reg f.addr ||| 2 ^ bit)
  let s := if [R.TIME_GCN_LO, R.TIME_GCN_HI, R.TIME_SCN_LO, R.TIME_SCN_HI].contains (normAddr addr) then s.err Er.TIME_GCN_PARITY
    else if normAddr addr == R.CORK_DOMAIN_STATE then s.err Er.CORK_REF_PARITY
    else if normAddr addr == R.PAIR_STATE then s.err Er.PAIR_SELECTOR
    else s
  let masked := s.pairReady
  let s := if masked && (regDef (normAddr addr)).isSome then s.setReg (normAddr addr) (s.mirrored (normAddr addr)) else s
  let s := (s.bump F.REL_ECC_UNCORR_PARITY 1).lastFault page 0 Lf.PARITY masked
  let s := s.raiseOf Ev.REG_PARITY page
  if normAddr addr == R.CORK_DOMAIN_STATE then s.critical Sc.CORK else s

/-! ### Tending, R417 to R419 -/

/-- An uncorrectable word in a page's memories: the owning unit's error bit and its own rule. (DESIGN CHOICE, log entry 354) -/
def Hub.storeFault (s : Hub) (page : Nat) : Hub :=
  if page == Pg.HARV then s.err Er.HARV_QUEUE_ECC
  else if 0x08 ≤ page ∧ page ≤ 0x17 then 
    let l := page - 8
    let s := s.err (Er.PRESS_BUF_ECC.lane l)
    if s.harv.op == 1 then s.setLane l { s.lane l with eccDue := true } else s.decodeEcc l
  else if page == Pg.CELL then s.err Er.CELL_MAP_ECC
  else if page == Pg.RACK then
    let s := s.err Er.RACK_QUEUE_ECC
    match s.rack.queue[s.drawWord.1.toNat % s.rack.queue.length]? with
    | some r => ({ s.drawWord.2 with rack := { s.rack with queue := s.rack.queue.filter (fun q => q.id != r.id) } }).rackFail r St.FAULT
    | none => s
  else if page == Pg.TRACE then s.routerEcc
  else if page == Pg.TASTE then
    let s := s.err Er.TASTE_BUF_ECC
    let full := (s.taste.bufs.cells.filter (fun p => p.2.ready)).map Prod.fst
    match full[s.drawWord.1.toNat % full.length]? with
    | some b => (s.drawWord.2.endSample b Tc.CORRUPT).tastersGo
    | none => s
  else if page == Pg.LINK then
    let s := s.err Er.LINK_BUF_ECC
    if s.linkSt == Lk.DISABLED then s else (s.linkDown Dc.COMMAND).linkRetrain
  else if page == Pg.BOOT then s.err Er.BOOT_STAGE_ECC
  else if page == 0x27 || page == 0x28 then
    let c := page - 0x27
    let s := s.err (Er.COOP_STORE_ECC.lane c)
    if (s.coop c).st == .running || (s.coop c).st == .waiting then s.coopHalt c Cc.ECC else s
  else s

/-- A lane fails its check: it retires, or stays RAW_ONLY where its partner has retired (R160, R419). (DEDUCED, log entry 102) -/
def Hub.loseLane (s : Hub) (l : Nat) : Hub :=
  if s.retired l then s
  else if s.retired (partner l) then (s.setLane l { s.lane l with mode := 3 }).raiseOf Ev.LANE_RAW_ONLY l
  else s.retireLane l

/-- A spur gave no trellis answer (R415): its tile is passed on as divergent. -/
def Hub.silentSpur (s : Hub) (t : Nat) : Hub :=
  let x := s.tile t
  if x.st == .inContext then s.diverge x.slot Fk.CORK Ev.TRELLIS_SILENT (some t) 0 else s

/-- What one finding of a round does (R419). -/
def Hub.tendFind (s : Hub) (f : TendFind) : Hub :=
  match f with
  | .corrected page => if s.flag F.REL_CTRL_SCRUB_EN then s.eccCorr page else s
  | .uncorrectable page =>
    if !s.flag F.REL_CTRL_SCRUB_EN then s
    else
      let s := ((s.storeFault page).err Er.REL_SCRUB_UNCORR).eccUncorr page (pageStep (page * 0x1000))
      s.raiseOf Ev.TEND_FAULT page
  | .parity addr => (s.regParity addr).raiseOf Ev.TEND_FAULT (pageOf addr)
  | .silent t =>
    let s := (s.err Er.REL_ECHO).lastFault Pg.TREL 0 Lf.ECHO false
    (s.silentSpur t).raiseOf Ev.TEND_FAULT Pg.TREL
  | .taster n =>
    if s.taste.retired.contains n || s.bist.runs.any (fun r => r.target == Bt.TASTER) then s
    else
      let s := (s.err Er.REL_KAT).lastFault Pg.TASTE n Lf.KAT false
      ((s.retireTaster n).raiseOf Ev.TEND_FAULT Pg.TASTE).tastersGo
  | .lane l =>
    if (s.lane l).mode != 0 then s
    else
      let s := (s.err Er.REL_LANE_CHECK).lastFault (Pg.PRESS + l) l Lf.LANE_CHECK false
      (s.loseLane l).raiseOf Ev.TEND_FAULT (Pg.PRESS + l)

/-- The silent spurs a round found, in the order found. -/
def silentOf (l : List TendFind) : List Nat := l.filterMap (fun f => match f with
  | .silent t => some t.val
  | _ => none)

/-- The period of the rounds (R433). -/
def Hub.tendPeriod (s : Hub) : Nat :=
  let p := s.rd F.REL_TEND_PERIOD_HCLK
  if p < 1250000 then 1250000 else if 12500000 < p then 12500000 else p

/-- A round of tending with what it finds (R417, R419): due after REL_TEND_PERIOD, or asked for by TEND_NOW. -/
def Hub.tendingRound (s : Hub) (found : List TendFind) : Hub :=
  let due := s.flag F.REL_CTRL_TEND_EN && s.elapsed s.rel.lastTend s.tendPeriod
  if !due && !s.flag F.REL_STATE_TENDING then s
  else
    let s := { s with rel := { s.rel with lastTend := s.time.hclk } }
    let s := doEach found s Hub.tendFind
    let s := match silentOf found with
      | t :: _ => s.raiseOf Ev.TRELLIS_SILENT t
      | [] => s
    (s.bump F.REL_TEND_ROUNDS_COUNT 1).wr F.REL_STATE_TENDING 0

/-- A write of REL_CMD (R433). -/
def Hub.relCmd (s : Hub) (op : Nat) : Hub :=
  if op == 1 then
    if s.flag F.REL_STATE_TENDING then s.wr F.REL_CMD_STATUS_STATUS St.BUSY
    else (s.wr F.REL_STATE_TENDING 1).wr F.REL_CMD_STATUS_STATUS St.OK
  else if op == 2 then
    let s := ((s.setReg R.REL_TEND_ROUNDS 0).setReg R.REL_ECC_CORR 0).setReg R.REL_ECC_UNCORR 0
    ({ s with rel := { s.rel with eccEvAt := none } }).wr F.REL_CMD_STATUS_STATUS St.OK
  else s.wr F.REL_CMD_STATUS_STATUS St.BAD_ARG

/-! ### Fault injection, R430 -/

/-- The status of REL_INJECT.GO. -/
def Hub.injectCheck (s : Hub) (kind : Nat) : Nat :=
  let free := s.boot.life == Life.MANUFACTURE || s.boot.life == Life.RETURN || (!s.scrapped && s.granted Right.BIST)
  if !free then St.DENIED
  else if kind == 0 || 8 < kind then St.BAD_ARG
  else if kind == 8 && !s.pairReady then St.DENIED
  else St.OK

/-- REL_INJECT is written; with GO it plants a fault. -/
def Hub.faultInject (s : Hub) (v : Nat) : Hub :=
  let s := s.setReg R.REL_INJECT (v &&& 0x3FFFFF0F)
  if !bitAt v 31 then s
  else
    let kind := s.rd F.REL_INJECT_KIND
    let st := s.injectCheck kind
    let s := s.wr F.REL_CMD_STATUS_STATUS st
    if st != St.OK then s
    else
      let s := { s with rel := { s.rel with inject := some (kind, s.rd F.REL_INJECT_PAGE, s.rd F.REL_INJECT_TILE) } }
      (s.wr F.REL_INJECT_GO 1).wr F.REL_CMD_STATUS_DONE 0

/-- The planted fault takes effect. -/
def Hub.injectTaken (s : Hub) : Hub :=
  let s := { s with rel := { s.rel with inject := none } }
  (s.wr F.REL_INJECT_GO 0).wr F.REL_CMD_STATUS_DONE 1

/-- A planted fault of a kind for a target is waiting. (DEDUCED, log entry 192) -/
def Hub.planted (s : Hub) (kind target : Nat) : Bool :=
  match s.rel.inject with
  | some (k, page, tile) => k == kind && (if 4 ≤ k then (if k == 6 then tile % 128 == target else if k == 7 then page == target else tile == target) else page == target)
  | none => false

/-- The unit of a page is used: a fault planted there takes effect (kinds 1, 2, 3 and 7). `addr` is the register used. -/
def Hub.usePage (s : Hub) (addr : Nat) : Hub :=
  let page := pageOf addr
  if s.planted 1 page then s.injectTaken.eccCorr page
  else if s.planted 2 page then (s.injectTaken.storeFault page).eccUncorr page (pageStep addr)
  else if s.planted 3 page then s.injectTaken.regParity addr
  else if s.planted 7 page then s.injectTaken.fsmFault page
  else s

/-- A command register written by a requester, and the use of its page. (DESIGN CHOICE, log entry 231) -/
def Hub.cmd (s : Hub) (r : Req) (addr v : Nat) (f : Hub → Hub) : Hub := (s.command r addr v f).usePage addr

/-! ### The pair's commands and streams, R421, R422 and R436 -/

/-- The status of a PAIR_CMD by the rows of R436. -/
def Hub.pairCheck (s : Hub) (op : Nat) : Nat :=
  if !s.isPair then St.UNSUPPORTED
  else if s.isSafe then St.FAULT
  else if op == 0 || 3 < op || (op == 2 && s.pairReady) then St.BAD_ARG
  else if (op == 1 && !s.pairReady) || s.flag F.PAIR_STATE_TAKEOVER then St.BUSY
  else if op == 2 && !s.bist.standbyPass then St.FAULT
  else St.OK

/-- The out-of-service map (R299). -/
def Hub.oosTiles (s : Hub) : List Nat := (s.tiles.cells.filter (fun (p : Nat × Tile) => p.2.mapped)).map Prod.fst

/-- A checkpoint as the active core writes it. -/
def Hub.checkpoint (s : Hub) : Hub :=
  { s with rel := { s.rel with
      ckptRack := s.rack, ckptGrants := s.auth.grants, ckptOos := s.oosTiles
      ckptStats := statRegs.map (fun a => (a, s.reg a)), ckptGood := true, ckptAt := s.time.hclk, ckptBad := 0 } }

/-- RESTORE_STANDBY: a full checkpoint, and the mirror restarts. -/
def Hub.restoreStandby (s : Hub) : Hub :=
  let s := s.checkpoint
  let s := { s with rel := { s.rel with mirrorRegs := {}, pathLost := [], beatAt := s.time.hclk } }
  let s := (s.setReg64 R.PAIR_CKPT_GCN_LO s.now).wr F.PAIR_STATE_STANDBY 1
  s.raiseOf Ev.STANDBY_RESTORED (1 - s.rd F.PAIR_STATE_ACTIVE)

/-- A planted heartbeat stop holds (R430): no heartbeat of the active core counts until its loss is detected. -/
def Hub.beatStopped (s : Hub) : Bool :=
  match s.rel.inject with
  | some (k, _, _) => k == 8
  | none => false

/-- The heartbeat is missing on both mirror paths for PAIR_HB_LIMIT (R423). -/
def Hub.heartbeatTimeout (s : Hub) : Hub :=
  let n := s.rd F.PAIR_HB_LIMIT_HCLK
  if !s.pairReady || !s.elapsed s.rel.beatAt (if n < 128 then 128 else n) then s
  else
    let auto := s.flag F.PAIR_CTRL_AUTO_TAKEOVER
    let s := s.lastFault Pg.PAIR (s.rd F.PAIR_STATE_ACTIVE) Lf.HEARTBEAT auto
    let s := { s with rel := { s.rel with beatAt := s.time.hclk } }
    let s := if s.beatStopped then s.injectTaken else s
    if auto then s.takeoverStart 2 else s.enterSafe Sc.NO_STANDBY

/-- A write of PAIR_CMD. -/
def Hub.pairCmd (s : Hub) (op : Nat) : Hub :=
  let st := s.pairCheck op
  let s := s.wr F.PAIR_CMD_STATUS_STATUS st
  if st != St.OK then s
  else
    match op with
    | 1 => (s.takeoverStart 3).wr F.PAIR_CMD_STATUS_DONE 0
    | 2 => s.restoreStandby
    | _ => s.setReg R.PAIR_TAKEOVERS 0

/-- One mirror path failed its CRC or went silent (R422). -/
def Hub.mirrorPathLoss (s : Hub) (path : Nat) : Hub :=
  if !s.pairReady || s.rel.pathLost.contains path then s
  else
    let s := { s with rel := { s.rel with pathLost := insertNat path s.rel.pathLost } }
    (s.err Er.PAIR_MIRROR_PATH).raiseOf Ev.MIRROR_PATH path

/-- The standby applies an entry of the mirror stream (R421); an entry that fails its CRC is a loss of its path. -/
def Hub.mirrorEntry (s : Hub) (path : Nat) (good : Bool) (e : MirrorEntry) : Hub :=
  if !s.pairReady then s
  else if !good then s.mirrorPathLoss path
  else
    let s := { s with rel := { s.rel with pathLost := removeNat path s.rel.pathLost } }
    match e with
    | .register addr v =>
      let a := normAddr addr
      let b := s.bankOf a
      { s with rel := { s.rel with mirrorRegs := s.rel.mirrorRegs.set (regKey a b) (BitVec.ofNat 32 (s.regB a b), v) } }
    | .heartbeat =>
      if s.beatStopped then s else { s with rel := { s.rel with beatAt := s.time.hclk } }
    | .other => s

/-- The period of the checkpoints (R435). -/
def Hub.ckptPeriod (s : Hub) : Nat :=
  let p := s.rd F.PAIR_CKPT_PERIOD_HCLK
  if p < 125000 then 125000 else if 1250000 < p then 1250000 else p

/-- Every PAIR_CKPT_PERIOD the active core writes a checkpoint (R422); after a failed one the next is sent at once. -/
def Hub.checkpointPeriod (s : Hub) : Hub :=
  if s.pairReady && s.flag F.PAIR_CTRL_CKPT_EN && (s.elapsed s.rel.ckptAt s.ckptPeriod || s.rel.ckptBad != 0) then
    { s with rel := { s.rel with ckptAt := s.time.hclk } }
  else s

/-- The standby checks a checkpoint (R422). -/
def Hub.checkpointRx (s : Hub) (good : Bool) : Hub :=
  if !s.pairReady then s
  else if good then s.checkpoint.setReg64 R.PAIR_CKPT_GCN_LO s.now
  else
    let n := s.rel.ckptBad + 1
    let s := { s with rel := { s.rel with ckptBad := n % 3 } }
    let s := ((s.bump F.PAIR_TAKEOVERS_CKPT_FAILS 1).err Er.PAIR_CKPT_CRC).raise Ev.CHECKPOINT_FAIL
    if 3 ≤ n then s.standbyLost else s

end Sys2Proof.Machine
end

