-- ==== Sys2Proof/Machine/Bist.lean ====
section
/-! DEFINITION. The self-test (14_self_test.md): the engines' registers, pattern packs, BIST_CMD, the end of a run and what follows it. -/

namespace Sys2Proof.Machine

/-! ### Engines, R398 and R399 -/

/-- The step g of PRPG and MISR (R398). -/
def lbistStep (s : Nat) : Nat := ((s * 2) % 2 ^ 64) ^^^ (if bitAt s 63 then 0x1B else 0)

/-- The PRPG after `n` steps. -/
def prpg : Nat → Nat → Nat
  | 0, s => s
  | n + 1, s => prpg n (lbistStep s)

/-- The MISR after input words. -/
def misr (m : Nat) (l : List Nat) : Nat := l.foldl (fun m u => lbistStep m ^^^ u) m

/-- The scan-in bit of chain `c` with PRPG state `s` (R399). -/
def scanIn (s c : Nat) : Bool := popCount (c / 64 + 1) (listMask ((List.range (c / 64 + 1)).filter (fun j => bitAt s ((c + 17 * j) % 64)))) % 2 == 1

/-- The MISR input of a chain's unload bits: bit i is the XOR of every chain c with c mod 64 = i; masked bits count as 0. -/
def misrInput (unload : List Bool) (masked : List Nat) : Nat :=
  listMask ((List.range 64).filter (fun i =>
    ((List.range unload.length).filter (fun c => c % 64 == i && !masked.contains c && nth unload c false)).length % 2 == 1))

/-- Chains and their length of a target; none for CANE. -/
def chainsOf (target : Nat) : Option (Nat × Nat) :=
  match target with
  | 0 => some (512, 512)
  | 1 => some (64, 256)
  | 2 => some (256, 384)
  | 4 => some (128, Config.tileChainLen)
  | _ => none

/-- Random patterns of the ROM (R401). -/
def romPatterns (target : Nat) : Nat :=
  match target with
  | 0 => 8192
  | 1 => 2048
  | 2 => 4096
  | 4 => 8192
  | _ => 0

/-! ### Pattern packs, R404 and R405 -/

/-- Bytes of a pack's body by its header. -/
def packBody (h : List Byte) : Nat := roundUp (4 * leAt h 48 4) 16 + leAt h 28 4 * roundUp (ceilDiv (leAt h 12 2 * leAt h 14 2) 8) 16

/-- A pack passes the check of R404 for a target. -/
def packGood (b : List Byte) (target : Nat) : Bool :=
  let h := b.take 64
  let n := leAt h 8 4
  match chainsOf target with
  | none => false
  | some (chains, len) =>
    leAt h 0 4 == 0x4B434150 && leAt h 4 2 == 1 && leAt h 6 1 == target && leAt h 7 1 == 1 && n ≤ 0x100000 &&
    leAt h 12 2 == chains && leAt h 14 2 == len && leAt h 16 8 != 0 && 1 ≤ leAt h 24 4 && leAt h 24 4 ≤ 2 ^ 20 && leAt h 28 4 ≤ 4096 &&
    leAt h 48 4 ≤ 4096 && leAt h 52 8 == 0 && crc32c (h.take 60) == leAt h 60 4 && n == 68 + packBody h &&
    crc32c ((b.drop 64).take (packBody h)) == leAt b (64 + packBody h) 4

/-- The bytes of the pack at an address. -/
def Hub.packBytes (s : Hub) (addr : Nat) : List Byte :=
  let n := leAt (s.mem (addr + 8) 4) 0 4
  s.mem addr (if 0x100000 < n then 64 else n)

/-- A pack slot. -/
def Hub.packSlot (s : Hub) (n : Nat) : Pack := s.bist.packs.get n {}

/-- Sets a pack slot. -/
def Hub.setPack (s : Hub) (n : Nat) (p : Pack) : Hub := { s with bist := { s.bist with packs := s.bist.packs.set n p } }

/-- A pack failed its check: the slot is empty. -/
def Hub.packReject (s : Hub) (n : Nat) (e : ErrBit) : Hub := ((s.setPack n {}).err e).raiseOf Ev.PACK_REJECTED n

/-- The check of a slot's pack is over (R405); `err` is a fabric error. -/
def Hub.packCheckDone (s : Hub) (n : Nat) (err : Bool) : Hub :=
  let p := s.packSlot n
  if !p.checking then s
  else
    let b := s.packBytes p.addr
    let good := !err && packGood b (if p.pushed then leAt b 6 1 else p.target)
    let s := if good then (s.setPack n { p with checking := false, valid := true, target := leAt b 6 1, len := leAt b 8 4 }).raiseOf Ev.PACK_LOADED n
      else s.packReject n (if err then Er.BIST_PACK_FABRIC else Er.BIST_PACK_CHECK)
    if p.pushed then
      let s := s.wr F.BIST_CMD_STATUS_DONE 1
      if good then s else s.wr F.BIST_CMD_STATUS_STATUS St.FAULT
    else if s.bist.packs.cells.any (fun (q : Nat × Pack) => q.2.checking) then s
    else s.wr F.BOOT_STATUS_PACKS_VALID 1

/-! ### BIST_CMD, R406, R407 and R411 -/

/-- Reasons of a BUSY. -/
def Br.IN_CONTEXT : Nat := 1
def Br.HARVEST : Nat := 2
def Br.IN_SERVICE : Nat := 3
def Br.NO_STANDBY : Nat := 4
def Br.ENGINE : Nat := 5

/-- R406 lets the requester do the operation. (DEDUCED, log entry 200) -/
def Hub.bistAllowed (s : Hub) (r : Req) (op : Nat) : Bool :=
  let life := s.boot.life
  if op == 5 then true
  else if life == Life.MANUFACTURE || life == Life.RETURN then true
  else if life == Life.PROVISIONED || life == Life.FIELD then s.granted Right.BIST
  else r == .jtag && op != 3

/-- Only ROM patterns may be used (R406). -/
def Hub.romOnly (s : Hub) : Bool := s.boot.life == Life.BLANK || s.scrapped

/-- The slot's pack is usable: one of the image only once PACKS_VALID is set (R405). -/
def Hub.packInUse (s : Hub) (n : Nat) : Bool :=
  let p := s.packSlot n
  p.valid && (p.pushed || s.flag F.BOOT_STATUS_PACKS_VALID)

/-- The pack of a run that no BIST_ARG describes, at boot and under READMIT: the first slot with a pack of the target, read and checked
again (R405); one that fails empties its slot and the ROM patterns are used. (DEDUCED, log entry 330) -/
def Hub.takePack (s : Hub) (target : Nat) : Option Nat × Hub :=
  if !s.flag F.BIST_CTRL_PACKS_EN || s.romOnly then (none, s)
  else
    match (List.range 16).find? (fun n => s.packInUse n && (s.packSlot n).target == target) with
    | none => (none, s)
    | some n => if packGood (s.packBytes (s.packSlot n).addr) target then (some n, s) else (none, s.packReject n Er.BIST_PACK_CHECK)

/-- BIST_ARG asks for a pack that may be used. -/
def Hub.wantsPack (s : Hub) : Bool := s.flag F.BIST_ARG_PACK_EN && s.flag F.BIST_CTRL_PACKS_EN && !s.romOnly

/-- The unit number is out of range for its target. -/
def Hub.badUnit (s : Hub) (target unit : Nat) : Bool :=
  match target with
  | 0 => (if s.isPair then 2 else 1) ≤ unit
  | 1 => 16 ≤ unit
  | 2 => 4 ≤ unit
  | 3 => s.rd F.GLB_GRID_COLUMNS ≤ unit
  | 4 => !s.inGrid unit || (s.tile unit).bad
  | _ => true

/-- A tester of the target is at work on another unit. -/
def Hub.engineBusy (s : Hub) (target : Nat) : Bool := s.bist.runs.any (fun r => r.target == target)

/-- The conditions of R407: 0, or the reason of the BUSY. -/
def Hub.bistReason (s : Hub) (target unit : Nat) : Nat :=
  match target with
  | 0 =>
    let st := s.rd F.PAIR_STATE_STANDBY
    if s.engineBusy 0 then Br.ENGINE
    else if s.isPair && (unit == s.rd F.PAIR_STATE_ACTIVE || st == 0 || st == 3) then Br.NO_STANDBY
    else 0
  | 1 => if s.harv.op != 0 then Br.HARVEST else if s.engineBusy 1 then Br.ENGINE else 0
  | 2 => if s.tastersUp.length < 2 || s.engineBusy 2 || s.flag F.REL_STATE_TENDING then Br.IN_SERVICE else 0
  | 3 =>
    let c := s.cane unit
    if s.harv.op != 0 && (c.down || c.turning.isSome) then Br.HARVEST else if s.engineBusy 3 then Br.ENGINE else 0
  | _ =>
    match (s.tile unit).st with
    | .inContext => Br.IN_CONTEXT
    | .underTest => Br.ENGINE
    | _ => 0

/-- The status of a BIST_CMD by the rows of R411, with the reason of a BUSY. -/
def Hub.bistCheck (s : Hub) (r : Req) (op : Nat) : Nat × Nat :=
  let target := s.rd F.BIST_ARG_TARGET
  let unit := s.rd F.BIST_ARG_UNIT
  let p := s.packSlot (s.rd F.BIST_ARG_PACK)
  let x := s.tile unit
  let locked := s.boot.life == Life.PROVISIONED || s.boot.life == Life.FIELD
  if s.isSafe then (St.FAULT, 0)
  else if !s.bistAllowed r op || (op == 1 && target == Bt.TILE && locked && x.st == .parked) then (St.DENIED, 0)
  else if op == 0 || 5 < op || ((op == 1 || op == 2) && s.badUnit target unit) ||
      (op == 1 && s.flag F.BIST_ARG_PACK_EN && !(s.packInUse (s.rd F.BIST_ARG_PACK) && p.target == target)) then (St.BAD_ARG, 0)
  else if op == 3 then (if s.flag F.BIST_CMD_STATUS_DONE then (St.OK, 0) else (St.BUSY, Br.ENGINE))
  else if op != 1 then (St.OK, 0)
  else if target == Bt.HUB_LOGIC && !s.isPair && s.boot.released then (St.UNSUPPORTED, 0)
  else
    let why := s.bistReason target unit
    let most := s.rd F.BIST_TILE_MAX_TILES
    if why != 0 then (St.BUSY, why)
    else if target == Bt.TILE && (if most == 0 then 1 else most) ≤ s.tilesUnderTest then (St.LIMIT, 0)
    else (St.OK, 0)

/-- Writes BIST_CMD_STATUS. -/
def Hub.bistStatus (s : Hub) (op status reason : Nat) : Hub :=
  ((s.wr F.BIST_CMD_STATUS_STATUS status).wr F.BIST_CMD_STATUS_OP op).wr F.BIST_CMD_STATUS_REASON reason

/-- RUN of a unit that passed the checks: the pack is read and checked again (R405); one that fails empties its slot. -/
def Hub.bistRunNow (s : Hub) (target unit : Nat) : Hub :=
  let n := s.rd F.BIST_ARG_PACK
  if s.wantsPack && !packGood (s.packBytes (s.packSlot n).addr) target then
    (s.packReject n Er.BIST_PACK_CHECK).bistStatus 1 St.BAD_ARG 0
  else
    let run : Run := {
      target := target, unit := unit, packEn := s.wantsPack, pack := n, wasOos := (s.tile unit).st == .outOfService
      wasIn := if target == Bt.TASTER then !s.taste.retired.contains unit else s.pairReady }
    let s := if target == Bt.HUB_LOGIC && s.isPair then s.wr F.PAIR_STATE_STANDBY 3 else s
    let s := s.bistStart run
    if target == Bt.TASTER then s.tastersGo else s

/-- LOAD_PACK: the slot's pack is to be read from BIST_PACK_ADDR. -/
def Hub.loadPack (s : Hub) : Hub :=
  let addr := s.reg64 R.BIST_PACK_ADDR_LO / 4096 * 4096
  (s.setPack (s.rd F.BIST_ARG_PACK) { pushed := true, addr := addr, checking := true }).wr F.BIST_CMD_STATUS_DONE 0

/-- CLEAR_STATS. -/
def Hub.bistClear (s : Hub) : Hub := s.setReg R.BIST_PASSES 0

/-- A write of BIST_CMD. -/
def Hub.bistCmd (s : Hub) (r : Req) (op : Nat) : Hub :=
  let st := s.bistCheck r op
  let target := s.rd F.BIST_ARG_TARGET
  let unit := s.rd F.BIST_ARG_UNIT
  let s := s.bistStatus op st.1 st.2
  if st.1 != St.OK then s
  else
    match op with
    | 1 => s.bistRunNow target unit
    | 2 => doEach (s.bist.runs.filter (fun r => r.target == target && r.unit == unit)) s Hub.abortRun
    | 3 => s.loadPack
    | 4 => s.setPack (s.rd F.BIST_ARG_PACK) {}
    | _ => s.bistClear

/-! ### The end of a run, R409 -/

/-- Nominal duration of a run in HCLK (R399, R401): SCLK is 4 HCLK, TCLK that of the tile's partition. -/
def Hub.bistNominal (s : Hub) (r : Run) : Nat :=
  let h := s.mem (s.packSlot r.pack).addr 64
  let random := if r.packEn then leAt h 24 4 else romPatterns r.target
  let det := if r.packEn then leAt h 28 4 else 0
  let logic := match chainsOf r.target with
    | some (_, len) => 4 * ((random + det) * (len + 4) + len)
    | none => 0
  logic + (match r.target with
    | 0 => 1250000
    | 2 => 576
    | 3 => 33280
    | 4 => s.tclks r.unit 81920
    | _ => 0)

/-- Where the downward phase of a run lies in it, and for how long it sends patterns, in HCLK (R399, R401, R402): the deterministic patterns of a TILE
run follow its random ones, one 32-bit word each HCLK; a CANE run sends 64 words to each of 128 stages. -/
def Hub.downPhase (s : Hub) (r : Run) : Option (Nat × Nat) :=
  match r.target with
  | 3 => some (24576, 8192)
  | 4 =>
    let h := s.mem (s.packSlot r.pack).addr 64
    let det := leAt h 28 4
    let load := 4 * (Config.tileChainLen + 4)
    if r.packEn && det != 0 then some (leAt h 24 4 * load, det * load) else none
  | _ => none

/-- The PRPG of a run's engine (R398 to R400): loaded with SEED, one step each shift SCLK, none in the 4 SCLK of a capture. -/
def Hub.runPrpg (s : Hub) (r : Run) : Option Nat :=
  match chainsOf r.target with
  | none => none
  | some (_, len) =>
    let seed := if r.packEn then leAt (s.mem (s.packSlot r.pack).addr 64) 16 8 else (Config.romSeed r.target).toNat
    let sclk := (s.time.hclk - r.at_) / 4
    some (prpg (sclk / (len + 4) * len + least len (sclk % (len + 4))) seed)

/-- Replaces a run. -/
def Hub.setRun (s : Hub) (r : Run) : Hub :=
  { s with bist := { s.bist with runs := s.bist.runs.map (fun x => if x.target == r.target && x.unit == r.unit then r else x) } }

/-- A run's use of its cane at a clock edge (R26, R402): the cane turns down when the phase is due and no harvest or decant is in progress (R408), the
column's samples end (R29), the patterns go down it as CLASS 2 words, and it turns back. -/
def Hub.runTick (s : Hub) (r : Run) : Hub :=
  match s.downPhase r with
  | none => s
  | some (from_, len) =>
    let c := s.runCane r
    let x := s.cane c
    match r.det, r.detAt with
    | 0, _ =>
      if s.elapsed r.at_ from_ && s.harv.op == 0 && x.locate.isNone then
        ((s.setRun { r with det := 1 }).turnCane c true).abandonTaste c
      else s
    | 1, none => if x.down && x.turning.isNone then s.setRun { r with detAt := some s.time.hclk } else s
    | 1, some at_ =>
      if s.elapsed at_ len then ((s.setRun { r with det := 2 }).setCane c { x with patterns := x.patterns + len }).endDown c else s
    | _, _ => s

/-- The runs at a clock edge. -/
def Hub.bistTick (s : Hub) : Hub := doEach s.bist.runs s Hub.runTick

/-- What a passed run changes. -/
def Hub.bistPassed (s : Hub) (r : Run) : Hub :=
  match r.target with
  | 0 =>
    if !s.isPair then s
    else if r.wasIn then s.wr F.PAIR_STATE_STANDBY 1
    else ({ s with bist := { s.bist with standbyPass := true } }).wr F.PAIR_STATE_STANDBY 2
  | 1 => s.setLane r.unit { s.lane r.unit with bistOk := true }
  | 2 => { s with taste := { s.taste with bistOk := insertNat r.unit s.taste.bistOk } }
  | _ => s

/-- What a failed run changes (R409). A tile that was being re-admitted stays isolated (R302). -/
def Hub.bistFailed (s : Hub) (r : Run) (outcome info : Nat) : Hub :=
  match r.target with
  | 0 =>
    if s.isPair then (if r.wasIn then s.standbyLost else s.wr F.PAIR_STATE_STANDBY 2)
    else if s.boot.released then s else s.enterSafe Sc.HUB_LOGIC_BIST
  | 1 => (s.setLane r.unit { s.lane r.unit with bistOk := false }).loseLane r.unit
  | 2 =>
    if s.taste.retired.contains r.unit then { s with taste := { s.taste with bistOk := removeNat r.unit s.taste.bistOk } }
    else (s.retireTaster r.unit).tastersGo
  | 3 =>
    if s.flag F.CANE_CTRL_AUTO_BYPASS && outcome == 4 then
      (s.setCane r.unit { s.cane r.unit with breakRow := info % 128, breakValid := true }).engageBypass r.unit
    else s.setCane r.unit { s.cane r.unit with suspect := true }
  | _ => if r.readmit then s else s.isolate r.unit 2

/-- A run ends with an outcome other than ABORTED. -/
def Hub.bistEnd (s : Hub) (r : Run) (outcome : Nat) (randomFail : Bool) (info got want : Nat) : Hub :=
  let s := s.dropRun r
  let s := s.setResult r.target r.unit { outcome := outcome, valid := true, packUsed := r.packEn, randomFail := randomFail,
                                         info := info % 256, got := got, want := want }
  let s := if r.readmit then s else s.bistReturn r
  if outcome == Bo.PASS then ((s.bump F.BIST_PASSES_COUNT 1).raiseOf Ev.BIST_PASS r.unit).bistPassed r
  else ((s.bump F.BIST_PASSES_FAILS 1).raiseOf Ev.BIST_FAIL r.unit).bistFailed r outcome info

/-- The runs that exceed BIST_RUN_LIMIT times their nominal duration. -/
def Hub.bistOverdue (s : Hub) : List Run :=
  let f := s.rd F.BIST_RUN_LIMIT_FACTOR
  s.bist.runs.filter (fun r => s.elapsed r.at_ ((if f < 2 then 2 else f) * s.bistNominal r))

end Sys2Proof.Machine
end

