-- ==== Sys2Proof/Machine/Ladder.lean ====
section
/-! DEFINITION. The reset ladder (10_hang_reset.md, R297 to R302, R309, R314): levels, isolation, re-admission. The restart of the hub core
at FIELD level is in Startup.lean. -/

namespace Sys2Proof.Machine

def Lv.CONTEXT : Nat := 0
def Lv.TILE : Nat := 1
def Lv.PARTITION : Nat := 2
def Lv.FIELD : Nat := 3
def Lv.CHIP : Nat := 4
def Lv.POWER_CYCLE : Nat := 5

/-- Updates the ladder. -/
def Hub.mapLadder (s : Hub) (f : Ladder → Ladder) : Hub := { s with ladder := f s.ladder }

/-- Limit of a FIELD and of a CHIP level (R297). -/
def levelLimit (level : Nat) : Nat := if level == Lv.FIELD then 62500000 else 125000000

/-! ### What a level covers -/

/-- The slots a level empties. -/
def Hub.levelSlots (s : Hub) : List Nat :=
  match s.ladder.level with
  | 0 => if (s.dom s.ladder.slot).st == .empty then [] else [s.ladder.slot]
  | 1 => []
  | 2 => s.openSlots.filter (fun z => s.slotIn z s.ladder.part)
  | _ => s.openSlots

/-- The tiles a level resets: those of its slots, and every other tile it covers; a CONTEXT level that restarts after a takeover has emptied its
slot already (R307). -/
def Hub.levelTiles (s : Hub) : List Nat :=
  let inSlots := s.levelSlots.flatMap s.slotTiles
  let free (t : Nat) : Bool := let x := s.tile t
                               !x.bad && x.st == .parked
  match s.ladder.level with
  | 0 => if inSlots.isEmpty then s.ladder.tiles else inSlots
  | 1 => [s.ladder.tile]
  | 2 => inSlots ++ s.gridTiles.filter (fun t => s.partOf t == s.ladder.part && free t)
  | _ => inSlots ++ s.gridTiles.filter free

/-- A harvest or a decant holds a slot (R301). -/
def Hub.slotHeld (s : Hub) (z : Nat) : Bool := s.harv.op != 0 && s.harv.slots.contains z

/-! ### The course of a level -/

/-- A slot leaves the cork operations it belongs to; one left without a domain ends FAULT. (DEDUCED, log entry 167) -/
def Hub.dropCorks (s : Hub) (z : Nat) : Hub :=
  doEach (s.corks.filter (fun c => c.slots.contains z)) s (fun s c =>
    let c := { c with slots := removeNat z c.slots, live := removeNat z c.live }
    if c.slots.isEmpty then s.corkEnd c St.FAULT else s.setCork c)

/-- Fences a slot for a level (R297); a drain that is still pending is cut short (R301). -/
def Hub.levelFence (s : Hub) (z : Nat) : Hub :=
  let m := s.mon z
  if m.fenced then s
  else
    let s := if m.fenceAt.isSome then (s.setMon z { m with abandon := true }).err Er.RSET_PORT_ABANDON else s.fence z
    s.mapLadder (fun l => { l with drain := insertNat z l.drain })

/-- A level resets a tile anew whose isolation failed: it is held no longer, and its 4,096 TCLK count again (R298, R300). -/
def Hub.unisolate (s : Hub) (t : Nat) : Hub := s.setTile t { s.tile t with isolated := false, watchAt := none, isoFailed := false }

/-- The slots are drained: they are emptied, and the tiles of the level are reset together (R297); an isolated tile keeps its hold (R299). -/
def Hub.levelReset (s : Hub) : Hub :=
  let slots := s.levelSlots
  let tiles := s.levelTiles.filter (fun t => !(s.tile t).isolated || (s.tile t).isoFailed)
  let s := doEach slots s (fun s z => (s.dropCorks z).closeSlot z)
  let s := doEach tiles s (fun s t => (s.startReset t).unisolate t)
  s.mapLadder (fun l => { l with begun := true, tilesLeft := tiles, tiles := tiles })

/-- The tests a level covers end ABORTED (R408). -/
def Hub.levelAborts (s : Hub) : Hub :=
  match s.ladder.level with
  | 0 => s
  | 1 => s
  | 2 => doEach (s.bist.runs.filter (fun r => r.target == Bt.TILE && s.partOf r.unit == s.ladder.part)) s Hub.abortRun
  | _ => s.abortRuns

/-- FIELD and CHIP do not wait: a harvest ends and its vintage is closed, a decant ends, trace stops (R30, R127, R215). (DEDUCED, log entry 88) -/
def Hub.levelEnds (s : Hub) : Hub :=
  if s.ladder.level < Lv.FIELD then s
  else
    let s := s.harvEnd Gp.LADDER St.FAULT
    let s := if s.harv.op == 1 && s.harv.ended.isSome then s.harvDone false else s
    let s := s.decantEnd
    let s := (s.mapLadder (fun l => { l with waiting := false })).traceStop
    s

/-- Goes as far as a level can: waits for a harvest or decant (R301), fences, waits for the drain, resets. (DEDUCED, log entry 162) -/
def Hub.levelGo (s : Hub) : Hub :=
  if !s.ladder.active || s.ladder.begun || s.ladder.level == Lv.POWER_CYCLE then s
  else if s.ladder.level < Lv.FIELD && s.levelSlots.any s.slotHeld then s.mapLadder (fun l => { l with waiting := true })
  else
    let s := s.mapLadder (fun l => { l with waiting := false })
    let s := doEach (s.levelSlots.filter (fun z => !s.ladder.drain.contains z)) s Hub.levelFence
    if s.ladder.drain.isEmpty then s.levelReset else s

/-- The lead hub of the package a CHIP request is forwarded to. -/
def Hub.leadHub (s : Hub) : Nat := s.fed.leads.headD (packageOf s.hubAddr * 128)

/-- No level, isolation or re-admission is outstanding: RSET_STATUS.DONE. -/
def Hub.rsetDone (s : Hub) : Hub :=
  if s.ladder.active || s.tiles.cells.any (fun p => p.2.watchAt.isSome || p.2.readmit != 0) then s else s.wr F.RSET_STATUS_DONE 1

/-- A level begins (R297, R300): counted, LADDER_STEP raised, and the running level, if any, ends where it stands (R301). A hub that is
not lead hands CHIP to the lead. -/
def Hub.levelStart (s : Hub) (level part slot tile : Nat) : Hub :=
  if level == Lv.CHIP && !s.isLead then
    ((s.mapLadder (fun l => { l with active := false, drain := [], tilesLeft := [] })).sendRequest s.leadHub Op.LADDER (le 1 Lv.CHIP ++ le 1 0) .none 0).rsetDone
  else
    let s := s.mapLadder (fun l => { l with
      active := true, level := level, since := s.time.hclk, part := part, slot := slot, tile := tile, drain := [], begun := false,
      restarted := false, tilesLeft := [], tiles := [], failed := none, waiting := false, hubsLeft := [],
      counts := l.counts.set level (sat 32 (l.counts.get level 0 + 1)) })
    let s := (s.wr F.RSET_STATUS_LEVEL level).wr F.RSET_STATUS_DONE 0
    let s := s.raiseOf Ev.LADDER_STEP level
    if level == Lv.POWER_CYCLE then
      ({ s with pins := { s.pins with pwrcycReq := true } }).raiseOf Ev.PWRCYC_REQUESTED s.hubAddr
    else
      let s := if level == Lv.CHIP then
          let others := s.members
          let s := doEach others s (fun s h => s.sendRequest h Op.LADDER (le 1 Lv.FIELD ++ le 1 0) .none 0)
          (s.mapLadder (fun l => { l with hubsLeft := others })).wr F.TRAY_ALERT_CHIP_LEVEL 1
        else s
      s.levelAborts.levelEnds.levelGo

/-- The fences of the slots a level emptied are withdrawn (R296). -/
def Hub.levelUnfence (s : Hub) : Hub :=
  let slots := if s.ladder.level == Lv.CONTEXT then [s.ladder.slot]
    else s.hang.keys.filter (fun z => (s.dom z).st == .empty && (s.mon z).fenceAt.isSome)
  doEach slots s (fun s z => if (s.dom z).st == .empty then s.fenceRelease z else s)

/-- A policy whose last step is the level of its slot goes on when the ladder is done with it. -/
def Hub.ladderPolicy (s : Hub) (z status : Nat) : Hub :=
  let m := s.mon z
  if m.policy != 0 && m.pstep == 4 then s.setMon z { m with pdue := true, pstatus := status } else s

/-- A hub has no CONTEXT level of a peer policy left: the policy ends with the last of them (R305). (DEDUCED, log entry 353) -/
def Hub.peerLevelOver (s : Hub) (src : Nat) : Hub :=
  { s with hangCtl := { s.hangCtl with peers := s.hangCtl.peers.map (fun p =>
      if p.step == 3 then
        let left := removeNat src p.left
        { p with left := left, step := if left.isEmpty then 4 else 3 }
      else p) } }

/-- Reports levels over to the hub that ordered them (R297, R305, R333). -/
def Hub.levelReport (s : Hub) (h level : Nat) : Hub :=
  if h == s.hubAddr then s.peerLevelOver h else s.sendRequest h Op.LADDER (le 1 level ++ le 1 1) .none 0

/-- The ladder finishes with a final status; a policy that waits for it goes on. -/
def Hub.ladderFinish (s : Hub) (final : Nat) : Hub :=
  let level := s.ladder.level
  let z := s.ladder.slot
  let next := s.ladder.next
  let report := if next.isEmpty then s.ladder.reportTo else none
  let s := s.mapLadder (fun l => { l with active := false, drain := [], tilesLeft := [], hubsLeft := [], next := [], reportTo := if next.isEmpty then none else l.reportTo, isolateAfter := none })
  let s := s.wr F.RSET_STATUS_FINAL final
  let s := if final == St.OK then s else s.wr F.TRAY_ALERT_LADDER_FAIL 1
  let s := s.rsetDone.raiseOf Ev.LADDER_DONE level
  let s := match report with
    | some h => if final == St.OK || level < Lv.FIELD then s.levelReport h level else s
    | none => s
  let s := s.ladderPolicy z final
  match next with
  | y :: rest => (s.mapLadder (fun l => { l with next := rest })).levelStart Lv.CONTEXT 0 y 0
  | [] => s

/-- The highest level the ladder reaches on its own. -/
def Hub.autoMax (s : Hub) : Nat := least (s.rd F.RSET_CTRL_AUTO_MAX) 5

/-- A level has failed (R300): the next higher one starts, or the ladder stops. -/
def Hub.levelFail (s : Hub) : Hub :=
  let next := s.ladder.level + 1
  let t := s.ladder.failed.getD s.ladder.tile
  if s.flag F.RSET_CTRL_AUTO_EN && next ≤ s.autoMax then
    s.levelStart next (if s.ladder.failed.isSome then s.partOf t else s.ladder.part) s.ladder.slot t
  else s.ladderFinish St.FAULT

/-- A level has done its work and is to be judged. -/
def Hub.levelOver (s : Hub) : Bool :=
  let l := s.ladder
  l.active && l.level != Lv.POWER_CYCLE && l.begun && l.tilesLeft.isEmpty &&
  (l.level < Lv.FIELD || l.failed.isSome || (l.restarted && (s.boot.released || s.isSafe) && (l.level == Lv.FIELD || l.hubsLeft.isEmpty)))

/-- A ladder level completes or fails (R300). -/
def Hub.levelDone (s : Hub) : Hub :=
  if !s.levelOver then s
  else if s.ladder.failed.isSome || (Lv.FIELD ≤ s.ladder.level && s.isSafe) then s.levelFail
  else s.levelUnfence.ladderFinish St.OK

/-- A FIELD or CHIP level is not released within its limit (R300). -/
def Hub.levelTimeout (s : Hub) : Hub :=
  let l := s.ladder
  if l.active && (l.level == Lv.FIELD || l.level == Lv.CHIP) && s.elapsed l.since (levelLimit l.level) then s.levelFail else s

/-! ### Tiles of a level, isolation and re-admission -/

/-- A tile is done with: the level no longer waits for it. -/
def Hub.levelTileDone (s : Hub) (t : Nat) : Hub := s.mapLadder (fun l => { l with tilesLeft := removeNat t l.tilesLeft })

/-- A re-admission fails (R302): the tile stays isolated. -/
def Hub.readmitFail (s : Hub) (t reason : Nat) : Hub :=
  let x := s.tile t
  let s := s.setTile t { x with readmit := 0, isolated := true, inReset := true, st := .outOfService }
  ((s.lastTile t false reason).raiseOf Ev.READMIT_FAILED t).rsetDone

/-- T_RST_ACK of a tile (R298): during the 64 TCLK pulse it is kept, and completes the reset at the end of the pulse. -/
def Hub.tileResetAck (s : Hub) (t : Nat) : Hub :=
  if !s.resetDone t then
    let x := s.tile t
    if x.inReset && !x.isolated then s.setTile t { x with rstAck := true } else s
  else
    let x := s.tile t
    let s := s.endReset t
    if x.readmit == 2 then
      let s := s.setTile t { s.tile t with st := .parked, readmit := 0 }
      ((s.lastTile t false 0).raiseOf Ev.TILE_READMITTED t).rsetDone
    else if s.ladder.isolateAfter == some t && s.ladder.tilesLeft.contains t then s.isolate t 0
    else s.levelTileDone t

/-- The resets whose acknowledge came during their pulse complete at its end (R298). -/
def Hub.resetsTick (s : Hub) : Hub :=
  doEach ((s.tiles.cells.filter (fun (p : Nat × Tile) => p.2.rstAck && s.resetDone p.1)).map Prod.fst) s Hub.tileResetAck

/-- No acknowledge 4,096 TCLK after a reset was asserted (R298). -/
def Hub.tileResetTimeout (s : Hub) (t : Nat) : Hub :=
  let x := s.tile t
  if !x.inReset || x.isolated || !s.elapsed x.resetAt (s.tclks t 4096) then s
  else
    let s := (s.lastTile t false 1).raiseOf Ev.TILE_RESET_TIMEOUT t
    if x.readmit == 2 then s.readmitFail t 1 else s.isolate t 1

/-- 256 HCLK of watching an isolated tile are over (R298): `strobe` says that a strobe came, `answered` that the spur answered. -/
def Hub.isolationWatchEnd (s : Hub) (t : Nat) (strobe answered : Bool) : Hub :=
  let x := s.tile t
  match x.watchAt with
  | none => s
  | some at_ =>
    if !s.elapsed at_ 256 then s
    else
      let s := s.setTile t { x with watchAt := none }
      let strobe := strobe || x.strobeSeen
      if strobe || !answered then
        let s := s.setTile t { s.tile t with isoFailed := true }
        let s := ((s.err Er.RSET_ISO_FAILED).lastTile t true (if strobe then 3 else 4)).raiseOf Ev.ISOLATION_FAILED t
        let s := if s.ladder.tilesLeft.contains t then s.mapLadder (fun l => { l with failed := some t }) else s
        (s.levelTileDone t).rsetDone
      else ((s.lastTile t false x.watchWhy).raiseOf Ev.TILE_ISOLATED t).levelTileDone t |>.rsetDone

/-- READMIT (R302): tile LBIST first. -/
def Hub.readmit (s : Hub) (t : Nat) : Hub :=
  let s := s.setTile t { s.tile t with readmit := 1, watchAt := none }
  let (p, s) := s.takePack Bt.TILE
  s.bistStart { target := Bt.TILE, unit := t, packEn := p.isSome, pack := p.getD 0, readmit := true, wasOos := true }

/-- The end of a run (R400, R409), re-admission included: after a PASS the tile is reset, then its clock released. -/
def Hub.bistRunEnd (s : Hub) (target unit outcome : Nat) (randomFail : Bool) (info got want : Nat) : Hub :=
  match s.bistRun target unit with
  | none => s
  | some r =>
    let s := s.bistEnd r outcome randomFail info got want
    if !r.readmit then s
    else if outcome == Bo.PASS then
      let s := s.setTile unit { s.tile unit with st := .outOfService, readmit := 2, isolated := false }
      s.startReset unit
    else (s.setTile unit { s.tile unit with st := .outOfService }).readmitFail unit 2

/-- Runs that take too long end with TIMEOUT (R409). -/
def Hub.bistRunTimeout (s : Hub) : Hub := doEach s.bistOverdue s (fun s r => s.bistRunEnd r.target r.unit Bo.TIMEOUT false 0 0 0)

/-! ### RSET_CMD, R309 -/

/-- The status of an RSET_CMD by the rows of R309. -/
def Hub.rsetCheck (s : Hub) (r : Req) (op : Nat) : Nat :=
  let level := s.rd F.RSET_ARG_LEVEL
  let z := s.rd F.RSET_ARG_SLOT
  let t := s.rd F.RSET_ARG_TILE
  let x := s.tile t
  let l := s.ladder
  if (op == 2 || op == 3) && s.isSafe then St.FAULT
  else if op == 1 && level == Lv.CONTEXT && isExternal r && s.secureUncovered z then St.DENIED
  else if op == 0 || 4 < op || (op == 1 && 5 < level) || (op == 1 && level == Lv.CONTEXT && (s.dom z).st == .empty) ||
      (((op == 1 && level == Lv.TILE) || op == 2 || op == 3) && !s.inGrid t) ||
      (op == 3 && (x.st != .outOfService || x.bad)) || (op == 2 && x.st == .inContext) then St.BAD_ARG
  else if op == 1 && level == Lv.CHIP && !s.flag F.FED_CTRL_EN then St.UNSUPPORTED
  else if (op == 1 && l.active && level ≤ l.level) || (op == 1 && level == Lv.TILE && x.st == .inContext) ||
      (op == 3 && l.active && ((l.level == Lv.PARTITION && l.part == s.partOf t) || Lv.FIELD ≤ l.level)) then St.BUSY
  else St.OK

/-- ISOLATE of a tile in no context. -/
def Hub.isolateCmd (s : Hub) (t : Nat) : Hub :=
  let s := doEach (s.bist.runs.filter (fun r => r.target == Bt.TILE && r.unit == t)) s Hub.abortRun
  (s.isolate t 0).wr F.RSET_STATUS_DONE 0

/-- CLEAR_STATS. -/
def Hub.rsetClear (s : Hub) : Hub := s.mapLadder (fun l => { l with counts := {} })

/-- A write of RSET_CMD. -/
def Hub.rsetCmd (s : Hub) (r : Req) (op : Nat) : Hub :=
  let st := s.rsetCheck r op
  let t := s.rd F.RSET_ARG_TILE
  let s := (s.wr F.RSET_STATUS_STATUS st).wr F.RSET_STATUS_OP op
  if st != St.OK then (if s.flag F.RSET_STATUS_DONE then s.wr F.RSET_STATUS_FINAL st else s)
  else
    match op with
    | 1 => ((if s.ladder.active then s.ladderPolicy s.ladder.slot St.FAULT else s).mapLadder (fun l => { l with next := [], isolateAfter := none })).levelStart
        (s.rd F.RSET_ARG_LEVEL) (s.rd F.RSET_ARG_PART) (s.rd F.RSET_ARG_SLOT) t
    | 2 => s.isolateCmd t
    | 3 => (s.wr F.RSET_STATUS_DONE 0).readmit t
    | _ => s.rsetClear

/-! ### Between hubs, R297 and R333 -/

/-- A tendril LADDER command from a hub: a level ordered, a release reported, or a CONTEXT level for a job tag (log entry 12). -/
def Hub.ladderRx (s : Hub) (src level : Nat) (released : Bool) (tag : Nat) : Hub :=
  if released then (s.mapLadder (fun l => { l with hubsLeft := removeNat src l.hubsLeft })).peerLevelOver src
  else if level == Lv.CONTEXT then
    match s.openSlots.filter (fun z => (s.dom z).tag == tag) with
    | [] => s.levelReport src Lv.CONTEXT
    | z :: rest =>
      let s := s.mapLadder (fun l => { l with reportTo := some src })
      if s.ladder.active then s.mapLadder (fun l => { l with next := l.next ++ z :: rest })
      else (s.mapLadder (fun l => { l with next := rest })).levelStart Lv.CONTEXT 0 z 0
  else if s.ladder.active && level ≤ s.ladder.level then s
  else if level == Lv.FIELD then (s.mapLadder (fun l => { l with reportTo := some src })).levelStart Lv.FIELD 0 0 0
  else if level == Lv.CHIP && s.isLead then s.levelStart Lv.CHIP 0 0 0
  else s

end Sys2Proof.Machine
end

