-- ==== Sys2Proof/Machine/Policy.lean ====
section
/-! DEFINITION. The policies of the hang controller (10_hang_reset.md, R292, R293, R296, R304, R305): what follows a fault of a slot, the limit
of a fence, and the loss of a package. -/

namespace Sys2Proof.Machine

/-- A harvest the hub starts on its own, or for another hub: as `harvIssue`, with HARV_STATUS showing it when it is accepted. -/
def Hub.harvStart (s : Hub) (h : HarvReq) : Nat × Hub :=
  let res := s.harvIssue h
  (res.1, if res.1 == St.OK then res.2.harvStatus 1 St.OK false else res.2)

/-- HARV_SEL of a capture: EXT = 1, CRASH, and TRACE_SNAP where asked (R292). -/
def captureSel (snap : Bool) : Nat := 8 + 32 * b2n snap + 256

/-! ### Slot policies, R292 and R293 -/

def Policy.FENCE : Nat := 1
def Policy.CAPTURE : Nat := 2
def Policy.RESET : Nat := 3

/-- The scope of a slot's policy: CONTEXT, or JOB with FED when HANG_MON_CFG.FED is 1. -/
def Hub.policyScope (s : Hub) (z : Nat) : CorkArgs :=
  let fed := s.rdB F.HANG_MON_CFG_FED z == 1
  { kind := b2n fed, fed := fed, xpkg := false, part := 0, slot := z, tag := (s.dom z).tag, mode := 0, target := 0, count := 0 }

/-- A policy ends with the status of its last step. -/
def Hub.policyEnd (s : Hub) (z status : Nat) : Hub :=
  s.setMon z { s.mon z with policy := 0, pstep := 0, pstatus := status, pdue := false, retryAt := 0 }

/-- A policy waits in a step. -/
def Hub.policyAt (s : Hub) (z step : Nat) : Hub := s.setMon z { s.mon z with pstep := step, pdue := false, retryAt := 0 }

/-- The fence step of CAPTURE and RESET: the harvest follows FENCED. -/
def Hub.policyFence (s : Hub) (z : Nat) : Hub :=
  let s := (s.fence z).policyAt z 2
  s.setMon z { s.mon z with pdue := (s.mon z).fenced }

/-- The ladder step of RESET: a CONTEXT level for the slot, subject to RSET_CTRL.AUTO_EN; the tile named by the fault is then isolated. -/
def Hub.policyLadder (s : Hub) (z : Nat) : Hub :=
  if !s.flag F.RSET_CTRL_AUTO_EN || (s.dom z).st == .empty then s.policyEnd z (s.mon z).pstatus
  else if s.ladder.active then
    if s.ladder.level == Lv.CONTEXT && s.ladder.slot == z then
      (s.policyAt z 4).mapLadder (fun l => { l with isolateAfter := (s.mon z).ptile })
    else s.policyEnd z St.BUSY
  else
    let s := s.mapLadder (fun l => { l with next := [], reportTo := none, isolateAfter := (s.mon z).ptile })
    (s.policyAt z 4).levelStart Lv.CONTEXT 0 z 0

/-- A policy whose harvest does not take place: CAPTURE ends, RESET goes on with the ladder. (DEDUCED, log entry 164) -/
def Hub.policyNoHarvest (s : Hub) (z status : Nat) : Hub :=
  let s := s.setMon z { s.mon z with pstatus := status }
  if (s.mon z).policy == Policy.RESET then s.policyLadder z else s.policyEnd z status

/-- The harvest a slot's policy asks for. -/
def Hub.policyReq (s : Hub) (z : Nat) : HarvReq :=
  { a := s.policyScope z, sel := captureSel (s.rdB F.HANG_MON_CFG_SNAP z == 1), rect := 0, range := 0x03FF0000, vintage := 0, ref := 0,
    snap := s.rd F.HARV_TRACE_SNAP_LEN_MIB, req := 6, cause := (s.mon z).pcause, policySlot := some z }

/-- Offers the harvest of a policy: refused with BUSY it is offered again 1,250,000 HCLK later (R293). -/
def Hub.policyHarvest (s : Hub) (z : Nat) : Hub :=
  let res := s.harvStart (s.policyReq z)
  let s := res.2
  if res.1 == St.OK then s.policyAt z 3
  else if res.1 == St.BUSY then
    s.setMon z { s.mon z with pdue := false, pstatus := St.BUSY, retryAt := s.time.hclk + Config.millisecond }
  else s.policyNoHarvest z res.1

/-- The cork step of CAPTURE and RESET; a refused cork ends the policy. -/
def Hub.policyCork (s : Hub) (z : Nat) : Hub :=
  let s := s.policyAt z 1
  let ans := s.corkIssue (.policy z) false 1 (s.policyScope z) 0 0
  if ans.1.status != St.OK then ans.2.policyEnd z ans.1.status
  else if ans.1.done then ans.2.policyFence z
  else ans.2

/-- A policy whose step has ended goes on with the next one. -/
def Hub.policyGo (s : Hub) (z : Nat) : Hub :=
  let m := s.mon z
  match m.pstep with
  | 0 => if m.policy == Policy.FENCE then (s.fence z).policyEnd z St.OK else s.policyCork z
  | 1 => if (s.dom z).st == .empty then s.policyEnd z m.pstatus else s.policyFence z
  | 2 => s.policyHarvest z
  | 3 => if m.policy == Policy.RESET then s.policyLadder z else s.policyEnd z m.pstatus
  | _ => s.policyEnd z m.pstatus

/-- The policies whose step has ended, lowest slot first. -/
def Hub.policies (s : Hub) : Nat → Hub
  | 0 => s
  | n + 1 =>
    match s.hang.cells.find? (fun p => p.2.policy != 0 && p.2.pdue) with
    | some p => (s.policyGo p.1).policies n
    | none => s

/-- HANG_FENCE_LIMIT has passed since the fence request of a slot. -/
def Hub.fenceOver (s : Hub) (z : Nat) : Bool :=
  match (s.mon z).fenceAt with
  | some t => s.elapsed t (s.rd F.HANG_FENCE_LIMIT_HCLK)
  | none => true

/-- Replaces a peer policy, by its tag. -/
def Hub.setPeer (s : Hub) (p : Peer) : Hub :=
  { s with hangCtl := { s.hangCtl with peers := s.hangCtl.peers.map (fun q => if q.tag == p.tag then p else q) } }

/-- The harvest a peer policy asks for (R305): the scope of its cork, CAUSE 0x0809. -/
def Hub.peerReq (s : Hub) (tag : Nat) : HarvReq :=
  { a := { kind := 1, fed := true, xpkg := false, part := 0, slot := 0, tag := tag, mode := 0, target := 0, count := 0 },
    sel := captureSel false, rect := 0, range := 0x03FF0000, vintage := 0, ref := 0, snap := s.rd F.HARV_TRACE_SNAP_LEN_MIB, req := 6,
    cause := 0x0809, peerTag := some tag }

/-- A peer policy offers its harvest; refused with BUSY it is offered again 1,250,000 HCLK later, any other refusal goes on as the end of the
harvest. -/
def Hub.peerHarvest (s : Hub) (p : Peer) : Hub :=
  let s := s.setPeer { p with step := 2, due := false }
  let res := s.harvStart (s.peerReq p.tag)
  let s := res.2
  if res.1 == St.OK then s
  else if res.1 == St.BUSY then
    s.setPeer { p with step := 2, due := false, status := St.BUSY, retryAt := s.time.hclk + Config.millisecond }
  else s.setPeer { p with step := 2, due := true, status := res.1 }

/-- The reset step of CAPTURE_RESET: a CONTEXT level in every member hub for each slot holding the tag (log entry 12);
it ends when every hub has reported its levels over. -/
def Hub.peerReset (s : Hub) (p : Peer) : Hub :=
  let s := s.setPeer { p with step := 3, due := false, left := s.hubAddr :: s.members }
  let s := doEach s.members s (fun s m => s.sendRequest m Op.LADDER (le 1 Lv.CONTEXT ++ le 1 0 ++ le 2 p.tag) .none 0)
  s.ladderRx s.hubAddr Lv.CONTEXT false p.tag

/-- A peer policy whose step has ended goes on: cork, harvest, reset. -/
def Hub.peerGo (s : Hub) (p : Peer) : Hub :=
  if p.step == 1 && 2 ≤ p.policy then s.peerHarvest p
  else if p.step == 2 && p.policy == 3 then s.peerReset p
  else s.setPeer { p with step := 4, due := false }

/-- The peer policies whose step has ended. -/
def Hub.peers (s : Hub) : Nat → Hub
  | 0 => s
  | n + 1 =>
    match s.hangCtl.peers.find? (fun p => p.due) with
    | some p => (s.peerGo p).peers n
    | none => s

/-- POLICY_RETRY (R293): the harvests refused with BUSY whose time has come are offered again; past HANG_FENCE_LIMIT they are given up. -/
def Hub.policyRetry (s : Hub) : Hub :=
  let zs := (s.hang.cells.filter (fun p => p.2.policy != 0 && p.2.pstep == 2 && p.2.retryAt != 0 && p.2.retryAt ≤ s.time.hclk)).map Prod.fst
  let s := doEach zs s (fun s z => if s.fenceOver z then s.policyNoHarvest z St.BUSY else s.policyHarvest z)
  let ps := s.hangCtl.peers.filter (fun p => p.step == 2 && p.retryAt != 0 && p.retryAt ≤ s.time.hclk)
  doEach ps s (fun s p => s.peerHarvest { p with retryAt := 0 })

/-- A fence reaches HANG_FENCE_LIMIT (R296): it ends, FENCE_LIMIT is raised, and with AUTO_EN a CONTEXT level starts for the slot; while
another CONTEXT level runs it follows that one. -/
def Hub.fenceLimitOf (s : Hub) (z : Nat) : Hub :=
  let s := (s.unfence z).raiseOf Ev.FENCE_LIMIT z
  let m := s.mon z
  let waits := m.policy != 0 && m.pstep == 2
  if !s.flag F.RSET_CTRL_AUTO_EN || (s.dom z).st == .empty then (if waits then s.policyNoHarvest z St.BUSY else s)
  else if waits && m.policy == Policy.RESET then s.policyNoHarvest z St.BUSY
  else
    let s := if waits then s.policyEnd z St.BUSY else s
    if s.ladder.active then
      if s.ladder.level == Lv.CONTEXT && s.ladder.slot != z then s.mapLadder (fun l => { l with next := l.next ++ [z] }) else s
    else
      (s.mapLadder (fun l => { l with next := [], reportTo := none, isolateAfter := none })).levelStart Lv.CONTEXT 0 z 0

/-- FENCE_LIMIT: the fences whose limit has passed. (DEDUCED, log entry 161) -/
def Hub.fenceLimit (s : Hub) : Hub :=
  doEach (s.hang.keys.filter (fun z => (s.mon z).fenceAt.isSome && s.fenceOver z)) s Hub.fenceLimitOf

/-! ### Loss of a package, R304 and R305 -/

/-- The policy of a job tag: its valid entry in HANG_PEER_POLICY, or HANG_PEER_DEFAULT. (DEDUCED, log entry 165) -/
def Hub.peerPolicy (s : Hub) (tag : Nat) : Nat :=
  match (List.range 16).find? (fun i => s.rdB F.HANG_PEER_POLICY_VALID i == 1 && s.rdB F.HANG_PEER_POLICY_JOB_TAG i == tag) with
  | some i => s.rdB F.HANG_PEER_POLICY_POLICY i
  | none => s.rd F.HANG_PEER_DEFAULT_POLICY

/-- The tags the hub knows: those of its own domains and those of the valid policy entries. -/
def Hub.knownTags (s : Hub) : List Nat :=
  (s.openSlots.map (fun z => (s.dom z).tag) ++
    ((List.range 16).filter (fun i => s.rdB F.HANG_PEER_POLICY_VALID i == 1)).map (fun i => s.rdB F.HANG_PEER_POLICY_JOB_TAG i)).eraseDups

/-- Begins the policy of one tag: a STOP in ASAP mode, scope JOB with FED. A refused cork ends the policy. -/
def Hub.peerStart (s : Hub) (pkg tag : Nat) : Hub :=
  let pol := s.peerPolicy tag
  if pol == 0 || (s.members.isEmpty && !s.openSlots.any (fun z => (s.dom z).tag == tag)) || s.hangCtl.peers.any (fun p => p.tag == tag) then s
  else
    let p : Peer := { tag := tag, pkg := pkg, policy := pol, step := 1 }
    let s := { s with hangCtl := { s.hangCtl with peers := s.hangCtl.peers ++ [p] } }
    let ans := s.corkIssue (.peer tag) false 1 (s.peerReq tag).a 0 0
    if ans.1.status != St.OK then ans.2.setPeer { p with step := 4, status := ans.1.status }
    else if ans.1.done then ans.2.setPeer { p with due := true, status := St.OK }
    else ans.2

/-- A copy of a PEER_LOST seen less than 1,250,000 HCLK ago. -/
def Hub.peerSeen (s : Hub) (pkg : Nat) (tags : List Nat) : Bool :=
  s.hangCtl.lastPeer.any (fun p => p.1 == pkg && p.2.1 == tags && !s.elapsed p.2.2 Config.millisecond)

/-- Remembers a PEER_LOST. -/
def Hub.peerNote (s : Hub) (pkg : Nat) (tags : List Nat) : Hub :=
  let l := s.hangCtl.lastPeer.filter (fun p => !s.elapsed p.2.2 Config.millisecond)
  { s with hangCtl := { s.hangCtl with lastPeer := l ++ [(pkg, tags, s.time.hclk)] } }

/-- The tags of PEER_LOST frames, five to a frame, at least one frame (R333). -/
def tagGroups : Nat → List Nat → List (List Nat)
  | 0, _ => []
  | n + 1, l => l.take 5 :: (if l.length ≤ 5 then [] else tagGroups n (l.drop 5))

/-- A PEER_LOST command for one group of tags: package, count, tags. -/
def peerArgs (pkg : Nat) (tags : List Nat) : List Byte := le 1 pkg ++ le 1 tags.length ++ tags.flatMap (le 2)

/-- Cross-package corks that include the lost package end with TIMEOUT (R305); one whose own field has not stopped yet ends so when it has. -/
def Hub.peerCorks (s : Hub) (pkg : Nat) : Hub :=
  doEach (s.corks.filter (fun c => c.xpkg && c.packages.contains pkg)) s (fun s c =>
    (if c.op == 1 then s.crossLate c else s).corkJoin { c with packages := [], members := [], fedFinal := St.TIMEOUT })

/-- A PEER_LOST message at a lead hub (R304, R305): relayed into the package, raised, and the tags' policies begin; no tag means every tag. -/
def Hub.peerLost (s : Hub) (pkg : Nat) (tags : List Nat) : Hub :=
  if s.peerSeen pkg tags then s
  else
    let s := s.peerNote pkg tags
    let s := doEach (tagGroups 4 tags) s (fun s g => s.sendCmd s.broadcast Op.PEER_LOST (peerArgs pkg g))
    let s := (s.raiseOf Ev.PEER_LOST pkg).peerCorks pkg
    doEach (if tags.isEmpty then s.knownTags else tags.eraseDups) s (fun s t => s.peerStart pkg t)

/-- A PEER_LOST command relayed over the tendrils (R304): the hub raises PEER_LOST, copies of the same
package and tags within 1,250,000 HCLK aside. -/
def Hub.peerLostRx (s : Hub) (pkg : Nat) (tags : List Nat) : Hub :=
  if s.peerSeen pkg tags then s else (s.peerNote pkg tags).raiseOf Ev.PEER_LOST pkg

/-- Peer policies whose last step has ended: PEER_POLICY_DONE and HANG_PEER_LAST (R305). A tag whose cork ended with
BAD_ARG is held by no stop domain of the package (R62), and no policy of it was applied. -/
def Hub.peerDone (s : Hub) : Hub :=
  let ended := s.hangCtl.peers.filter (fun p => p.step == 4 && p.status != St.BAD_ARG)
  let s := { s with hangCtl := { s.hangCtl with peers := s.hangCtl.peers.filter (fun p => p.step != 4) } }
  doEach ended s (fun s p =>
    (s.setReg R.HANG_PEER_LAST (p.tag + p.pkg * 0x10000 + 0x100000 + p.status * 0x1000000)).raiseOf Ev.PEER_POLICY_DONE p.tag)

end Sys2Proof.Machine
end

