-- ==== Sys2Proof/Machine/Fed.lean ====
section
/-! DEFINITION. The tendrils and the commands between hubs (11_federation.md, R316 to R338): training, reliable frames, routes, answers, JOB_CHECK
and the FED page. -/

namespace Sys2Proof.Machine

/-! ### Tendril states, R319 to R321 -/

def Ts.DOWN : Nat := 0
def Ts.TRAINING : Nat := 1
def Ts.UP : Nat := 2
def Ts.FAILED : Nat := 3

/-- No training is under way: FED_CMD_STATUS.DONE. -/
def Hub.trainDone (s : Hub) : Hub :=
  if [0, 1, 2, 3].any (fun t => (s.tend t).st == Ts.TRAINING) then s else s.wr F.FED_CMD_STATUS_DONE 1

/-- Unicast frames that wait for a FAILED tendril leave over the new route (R321). -/
def Hub.reroute (s : Hub) : Hub :=
  doEach ([0, 1, 2, 3].filter (fun t => (s.tend t).st == Ts.FAILED)) s (fun s t =>
    let moves (f : List Byte) : Bool := match s.routeTo (Fr.dest f) with
      | some u => u != t
      | none => false
    let go := (s.tend t).waitQ.filter moves
    let s := s.setTend t { s.tend t with waitQ := (s.tend t).waitQ.filter (fun f => !moves f) }
    doEach go s (fun s f => s.sendTo (Fr.dest f) (Fr.type f) (Fr.payload f)))

/-- A tendril moves to FAILED (R321): TENDRIL_DOWN, and a fresh ANNOUNCE on the others (R322). -/
def Hub.tendrilFail (s : Hub) (t : Nat) : Hub :=
  let x := ((s.tend t).requeue s.broadcast).silent
  let s := s.setTend t { x with st := Ts.FAILED, failedAt := s.time.hclk, nbValid := false }
  (s.raiseOf Ev.TENDRIL_DOWN t).announce.reroute

/-- Asks a neighbour for the time (R326). -/
def Hub.askTime (s : Hub) (t : Nat) : Hub :=
  let x := s.tend t
  if s.fed.joining && x.st == Ts.UP && x.nbValid then
    let txn := s.newTxn
    let s := { s with fed := { s.fed with nextTxn := (txn + 1) % 256 } }
    s.send2 t Ft.CMD x.neighbour (cmdPayload s.hubAddr Op.TIME_REQ txn [])
  else s

/-- Training succeeds with a raw delay `d` (R319, R321). -/
def Hub.tendrilUp (s : Hub) (t d : Nat) : Hub :=
  let s := s.setTend t { s.tend t with st := Ts.UP, delay := d, badRun := 0 }
  let s := { s with fed := { s.fed with firstUp := some (s.fed.firstUp.getD s.time.hclk) } }
  (((s.raiseOf Ev.TENDRIL_UP t).announce.drainWait t).askTime t).trainDone

/-- Training fails (R319): the tendril is FAILED, so that AUTO_RETRAIN tries again, and a fresh ANNOUNCE goes out (R322). (DEDUCED, log entry 170) -/
def Hub.trainFail (s : Hub) (t : Nat) : Hub :=
  ((s.setTend t { (s.tend t).silent with st := Ts.FAILED, failedAt := s.time.hclk }).err Er.FED_TRAIN).announce.trainDone

/-- A TRAIN frame (R319). One without ECHO is echoed after the turnaround of 24 HCLK, and
an end that was not in training trains too, so that each end measures. One with ECHO gives the
round trip, from which 24 HCLK are taken and which is halved. -/
def Hub.trainRx (s : Hub) (t : Nat) (echo : Bool) (senderCount echoedCount : Nat) : Hub :=
  if !s.time.powered then s
  else if echo then
    let trip := (s.time.hclk + 2 ^ 32 - echoedCount % 2 ^ 32) % 2 ^ 32
    let d := (trip - 24) / 2
    if (s.tend t).st == Ts.UP then s
    else if trip < 24 || (trip - 24) % 2 == 1 || d < 3 || 11 < d then s.trainFail t
    else s.tendrilUp t d
  else
    let x := s.tend t
    let s := if x.st == Ts.TRAINING then s else s.retrain t
    s.setTend t { s.tend t with badRun := 0, echo := some (s.time.hclk + 24, senderCount) }

/-- AUTO_RETRAIN (R321): a tendril FAILED for 1,250,000 HCLK trains again, and so does one whose training has had no answer for as long
(DESIGN CHOICE, log entry 334). -/
def Hub.retrainTimer (s : Hub) : Hub :=
  if !s.flag F.FED_CTRL_AUTO_RETRAIN then s
  else doEach ([0, 1, 2, 3].filter (fun t => ((s.tend t).st == Ts.FAILED || (s.tend t).st == Ts.TRAINING) && s.elapsed (s.tend t).failedAt Config.millisecond)) s Hub.retrain

/-! ### Reliable frames, R320 and R321 -/

/-- Sends an ACK of the last SEQ received in order. -/
def Hub.sendAck (s : Hub) (t : Nat) : Hub :=
  let x := s.tend t
  (s.setTend t { x with rxUnacked := 0 }).emit t (frame Ft.ACK ((x.rxExpect + 255) % 256) 0 [])

/-- A class 2 frame reaches the receiver of a tendril that is UP: only the next SEQ is accepted; an ACK follows every 8 frames. (DEDUCED, log entry 171) -/
def Hub.accept2 (s : Hub) (t seq : Nat) : Bool × Hub :=
  let x := { s.tend t with badRun := 0 }
  if x.st != Ts.UP then (false, s)
  else if seq % 256 != x.rxExpect then (false, s.setTend t x)
  else
    let n := x.rxUnacked + 1
    let s := s.setTend t { x with
      rxExpect := (x.rxExpect + 1) % 256, rxUnacked := n, rxAt := if x.rxUnacked == 0 then s.time.hclk else x.rxAt }
    (true, if 8 ≤ n then s.sendAck t else s)

/-- 64 HCLK after an unacknowledged acceptance an ACK is sent. -/
def Hub.ackTimer (s : Hub) : Hub :=
  doEach ([0, 1, 2, 3].filter (fun t => (s.tend t).st == Ts.UP && (s.tend t).rxUnacked != 0 && s.elapsed (s.tend t).rxAt 64)) s Hub.sendAck

/-- An ACK frame releases the frames up to its SEQ; frames that wait follow. -/
def Hub.tendrilAck (s : Hub) (t seq : Nat) : Hub :=
  let x := { s.tend t with badRun := 0 }
  if x.st != Ts.UP then s
  else
    match x.unacked with
    | [] => s.setTend t x
    | f :: _ =>
      let n := (seq + 256 - leAt f 1 1) % 256 + 1
      if n ≤ x.unacked.length then
        (s.setTend t { x with unacked := x.unacked.drop n, resendRun := 0, ackAt := s.time.hclk }).drainWait t
      else s.setTend t x

/-- No ACK for 256 HCLK (R320): everything from the oldest unacknowledged frame is resent; 16 resends of one frame fail the tendril. -/
def Hub.resendTimeout (s : Hub) : Hub :=
  let due (t : Nat) : Bool := let x := s.tend t
                              x.st == Ts.UP && !x.unacked.isEmpty && s.elapsed x.ackAt 256
  doEach ([0, 1, 2, 3].filter due) s (fun s t =>
    let x := s.tend t
    let s := s.setTend t { x with txQ := x.txQ.filter (fun f => Fr.cls f != 2) ++ x.unacked, resends := sat 16 (x.resends + 1), resendRun := x.resendRun + 1, ackAt := s.time.hclk }
    if 16 ≤ x.resendRun + 1 then s.tendrilFail t else s)

/-- A frame that fails its CRC, is interrupted, or carries a reserved TYPE (R316, R318, R321). -/
def Hub.frameBad (s : Hub) (t : Nat) : Hub :=
  let x := s.tend t
  let s := (s.setTend t { x with crcErrs := sat 16 (x.crcErrs + 1), badRun := least 8 (x.badRun + 1) }).err Er.FED_FRAME_CRC
  if x.st == Ts.UP && 8 ≤ x.badRun + 1 then s.tendrilFail t else s

/-- A good frame of class 0 or 1 on a tendril: taken while it is UP. -/
def Hub.goodFrame (s : Hub) (t : Nat) (f : Hub → Hub) : Hub :=
  if (s.tend t).st == Ts.UP then f (s.setTend t { s.tend t with badRun := 0 }) else s

/-- A broadcast was accepted before: its SOURCE, OPCODE and TXN (R323). -/
def Hub.bcastOld (s : Hub) (key : Nat × Nat × Nat) : Bool := key.1 == s.hubAddr || s.fed.bcastSeen.contains key

/-- Remembers a broadcast. -/
def Hub.bcastNote (s : Hub) (key : Nat × Nat × Nat) : Hub :=
  let l := s.fed.bcastSeen ++ [key]
  { s with fed := { s.fed with bcastSeen := l.drop (l.length - 256) } }

/-- A class 2 frame of a source (R320, R323): accepted in order; a broadcast is taken once and forwarded on the other tendrils; a frame for
this hub is taken; any other is forwarded along the route table, or dropped where there is no route. -/
def Hub.frame2 (s : Hub) (h : Hdr2) (type opcode : Nat) (payload : List Byte) (own : Hub → Hub) : Hub :=
  let r := s.accept2 h.tendril h.seq
  let s := r.2
  let key := ((h.src : Nat), opcode, (h.txn : Nat))
  if !r.1 then s
  else if h.dest == s.broadcast then
    if s.bcastOld key then s else own ((s.bcastNote key).flood2 (some h.tendril) type payload)
  else if h.dest == s.hubAddr then own s
  else s.sendTo h.dest type payload

/-- A CMD frame (R333). (DESIGN CHOICE, log entry 232) -/
def Hub.cmdFrame (s : Hub) (h : Hdr2) (opcode : Nat) (args : List Byte) (own : Hub → Hub) : Hub :=
  s.frame2 h Ft.CMD opcode (cmdPayload h.src opcode h.txn args) own

/-- Answers a CMD frame addressed to this hub; a broadcast is not answered. -/
def Hub.reply (s : Hub) (h : Hdr2) (opcode status : Nat) (data : List Byte) : Hub :=
  if h.dest == s.hubAddr then s.answer h.src opcode h.txn status data else s

/-- A request to a member: FAULT in SAFE (R30), UNSUPPORTED while federation is disabled (R324). (DEDUCED, log entry 173) -/
def Hub.memberRequest (s : Hub) (h : Hdr2) (opcode : Nat) (f : Hub → Hub) : Hub :=
  if s.isSafe then s.reply h opcode St.FAULT []
  else if s.flag F.FED_CTRL_EN then f s else s.reply h opcode St.UNSUPPORTED []

/-! ### Routes, R322 -/

/-- FED_SELF.MAX_HOPS: the largest HOPS of the table. -/
def Hub.showHops (s : Hub) : Hub :=
  s.wr F.FED_SELF_MAX_HOPS (sat 5 (maxNat ((s.fed.routes.cells.filter (fun p => p.2.valid)).map (fun p => p.2.hops))))

/-- A route entry changes: ROUTES_CHANGED, MAX_HOPS, and waiting frames leave over the new route. -/
def Hub.setRoute (s : Hub) (field : Nat) (r : Route) : Hub :=
  let old := s.fed.routes.get field {}
  let s := { s with fed := { s.fed with routes := s.fed.routes.set field r } }
  if old.valid == r.valid && old.tendril == r.tendril && old.hops == r.hops then s
  else (s.showHops.raiseOf Ev.ROUTES_CHANGED field).reroute

/-- An ANNOUNCE is the first with its SOURCE and ROUND, or has fewer HOPS than the one recorded. -/
def Route.takes (r : Route) (round hops : Nat) : Bool :=
  match r.past.find? (fun p => p.1 == round) with
  | some (_, h) => hops < h
  | none => true

/-- The HOPS recorded for the rounds of a source, newest first; the last 16 rounds are kept. -/
def Route.note (r : Route) (round hops : Nat) : List (Nat × Nat) := ((round, hops) :: r.past.filter (fun p => p.1 != round)).take 16

/-- A neighbour announces itself: its address is recorded; one whose address changed while the tendril was UP fails it (R321). -/
def Hub.neighbour (s : Hub) (t src : Nat) : Bool × Hub :=
  let x := s.tend t
  if x.nbValid && x.neighbour != src then (false, s.tendrilFail t)
  else if x.nbValid then (true, s)
  else (true, (s.setTend t { x with neighbour := src, nbValid := true }).askTime t)

/-- What an ANNOUNCE says of its source: a lead hub, the time master (R45, R322). -/
def Hub.announced (s : Hub) (src flags : Nat) : Hub :=
  let s := { s with fed := { s.fed with
    leads := if bitAt flags 0 then insertNat src s.fed.leads else removeNat src s.fed.leads
    masterSeen := s.fed.masterSeen || bitAt flags 3 } }
  if bitAt flags 3 then s.meetMaster src else s

/-- An ANNOUNCE frame (R322): 1 is added to HOPS; an accepted one records the route and is forwarded on the other UP tendrils. -/
def Hub.announceRx (s : Hub) (h : Hdr2) (hops flags round : Nat) : Hub :=
  let t : Nat := h.tendril
  let r := s.accept2 t h.seq
  let s := r.2
  if !r.1 || h.src == s.hubAddr || packageOf h.src != packageOf s.hubAddr then s
  else
    let hops := hops % 256 + 1
    let n := if hops == 1 then s.neighbour t h.src else (true, s)
    let s := n.2
    let old := s.fed.routes.get (fieldOf h.src) {}
    if !n.1 || !old.takes round hops then s
    else
      let s := s.setRoute (fieldOf h.src) { tendril := t, hops := hops, valid := true, round := round, past := old.note round hops, age := 0 }
      let s := s.flood2 (some t) Ft.ANNOUNCE (le 2 h.src ++ le 1 hops ++ le 1 flags ++ le 4 round)
      s.announced h.src flags

/-- Every 2^24 HCLK the hub floods an ANNOUNCE; an entry not refreshed in two consecutive rounds becomes invalid (R322). (DEDUCED, log entry 172) -/
def Hub.announcePeriod (s : Hub) : Hub :=
  if !s.time.powered || !s.elapsed s.fed.lastAnn (2 ^ 24) then s
  else
    let s := s.announce
    doEach s.fed.routes.keys s (fun s f =>
      let r := s.fed.routes.get f {}
      s.setRoute f { r with age := r.age + 1, valid := r.valid && r.age + 1 < 3 })

/-! ### Requests and answers, R332 and R333 -/

/-- Takes a pending request off the list; the oldest that waits for a TXN goes out. -/
def Hub.dropReq (s : Hub) (q : RemoteReq) : Hub :=
  let s := { s with fed := { s.fed with reqs := s.fed.reqs.filter (fun x => x != q) } }
  match s.fed.reqWait with
  | (w, args) :: rest => ({ s with fed := { s.fed with reqWait := rest } }).sendRequest w.dest w.opcode args w.who w.arg
  | [] => s

/-- JOB_CHECK answered (R332): a member whose value differs is named by JOB_SKEW, and the anchor's own slot is divergent. -/
def Hub.jobChecked (s : Hub) (check hub status scn : Nat) : Hub :=
  match s.fed.jobChecks.find? (fun c => c.1 + 64 * c.2.1 == check) with
  | some (z, _, want) =>
    if status != St.OK || scn == want then s
    else
      let s := ((s.wr F.FED_LAST_HUB hub).wr F.FED_LAST_VALID 1).wr F.FED_LAST_SLOT z
      let s := s.raiseOf Ev.JOB_SKEW hub
      { s with hangCtl := { s.hangCtl with reports := s.hangCtl.reports ++ [(z, 0x4000, signed 64 (unsigned 64 ((scn : Int) - want)))] } }
  | none => s

/-- A lookup ends: its requester learns the status, and an accepted request is queued (R189). -/
def Hub.rackAnswered (s : Hub) (q : RackAsk) (status : Nat) (r : RackReq) : Hub :=
  let s := { s with rack := { s.rack with ask := none } }
  let id := s.rack.nextId
  let s := if status == St.OK then s.rackAccept r else s
  match q.coop with
  | none => s.rackStatus 1 status
  | some (c, rd, a) =>
    (s.coopRemoteDone c rd (status != St.OK) a status (setBits ((s.coop c).data.get (a + 3) 0).toNat 24 8 id)).wr F.RACK_STATUS_DONE 1

/-- An answer to a lookup: CELL_BASE_LO, then CELL_BASE_HI; a hub that does not answer ends it with that status. -/
def Hub.rackAsked (s : Hub) (arg status data : Nat) : Hub :=
  match s.rack.ask with
  | none => s
  | some q =>
    if status != St.OK then s.rackAnswered q status q.req
    else if arg == askArg R.CELL_BASE_LO then
      let s := { s with rack := { s.rack with ask := some { q with req := { q.req with id := data } } } }
      s.sendRequest q.req.hub Op.REG_READ (le 4 R.CELL_BASE_HI) .unit (askArg R.CELL_BASE_HI)
    else
      let res := s.rackLooked q (q.req.id + data * 0x100000000)
      res.2.2.rackAnswered q res.1 res.2.1

/-- A pending request ends with a status and data, for whoever waits (R333, R361, R444). -/
def Hub.answered2 (s : Hub) (q : RemoteReq) (status : Nat) (data : List Byte) : Hub :=
  match q.who with
  | .none => s
  | .coop n rd write => s.coopRemoteDone n rd write q.arg status (leAt data 0 4)
  | .port tag _ write =>
    let ok := status == St.OK
    s.portRespond tag (if write then Mt.REG_WRITE else Mt.REG_READ) Mt.REG_RESP true
      (le 1 status ++ le 1 (b2n ok) ++ zeros 2 ++ (if ok && !write then (padTo 4 data).take 4 else []))
  | .unit =>
    if q.opcode == Op.HARVEST then s.harvMember q.dest (if status == St.OK then leAt data 0 1 else status)
    else if q.opcode == Op.DIGEST then s.digestMember q.dest status (leAt data 0 8)
    else if q.opcode == Op.JOB_CHECK then s.jobChecked q.arg q.dest status (leAt data 0 8)
    else if q.opcode == Op.REG_READ && 0x100000 ≤ q.arg then s.rackAsked q.arg status (leAt data 0 4)
    else if q.opcode == Op.HOLD || q.opcode == Op.REG_READ then s.rackAnswer q.opcode status q.arg (leAt data 0 4)
    else s

/-- A RESP frame (R333): the pending request of its TXN completes. -/
def Hub.respRx (s : Hub) (h : Hdr2) (opcode status : Nat) (data : List Byte) : Hub :=
  s.frame2 h Ft.RESP (256 + opcode) (respPayload h.src opcode h.txn status data) (fun s =>
    match s.fed.reqs.find? (fun q => q.txn == h.txn.val && q.opcode == opcode && q.dest == h.src.val) with
    | some q => (s.dropReq q).answered2 q status (padTo 8 data)
    | none => s)

/-- Requests without an answer for FED_CMD_TIMEOUT (R333): TIMEOUT for the requester, REMOTE_TIMEOUT. -/
def Hub.remoteTimeout (s : Hub) : Hub :=
  doEach (s.fed.reqs.filter (fun q => s.elapsed q.sentAt (s.rd F.FED_CMD_TIMEOUT_HCLK))) s (fun s q =>
    let s := ((s.dropReq q).wr F.FED_LAST_HUB q.dest).wr F.FED_LAST_VALID 1
    (s.raiseOf Ev.REMOTE_TIMEOUT q.dest).answered2 q St.TIMEOUT [])

/-! ### JOB_CHECK, R332 -/

/-- `n` HCLK periods of a domain on from now, with the patterns, the clock changes and the divider restart that are decided. -/
def Hub.ahead (s : Hub) (z : Nat) : Nat → Hub
  | 0 => s
  | n + 1 =>
    let due (s : Hub) (part : Nat) : Hub := match s.pendingChg part with
      | some (code, gc) => if reachedGcn gc s.now then s.changeClock part code gc else s
      | none => s
    let s := match s.time.restartAt with
      | some g => if reachedGcn g s.now then s.restartClocks g else s
      | none => s
    let s := ((due s 0 |> fun s => due s 1).patternApply).domTick z
    ({ s with time := { s.time with gcn := (s.time.gcn + 1) % 2 ^ 64, hclk := s.time.hclk + 1 } }).ahead z n

/-- The reference SCN of a domain at a GCN that is still to come (R42). -/
def Hub.scnAt (s : Hub) (z g : Nat) : Nat := ((s.ahead z (g - s.now)).dom z).scn

/-- FED_JOB_CHECK, no less than 65,536. -/
def Hub.jobCheckTime (s : Hub) : Nat := let v := s.rd F.FED_JOB_CHECK_HCLK
                                        if v < 65536 then 65536 else v

/-- The anchor asks the members for their references (R332). -/
def Hub.jobCheckPeriod (s : Hub) : Hub :=
  if !s.flag F.FED_CTRL_JOB_CHECK_EN || !s.elapsed s.fed.jobCheckAt s.jobCheckTime then s
  else
    let s := { s with fed := { s.fed with
      jobCheckAt := s.time.hclk
      jobChecks := s.fed.jobChecks.filter (fun c => s.fed.reqs.any (fun q => q.opcode == Op.JOB_CHECK && q.arg == c.1 + 64 * c.2.1)) } }
    let zs := s.openSlots.filter (fun z => s.rdB F.FED_JOB_FEDERATED z == 1 && s.rdB F.FED_JOB_ANCHOR z == s.hubAddr)
    doEach zs s (fun s z =>
      let gq := s.now + 32 + 28 * s.rdB F.FED_JOB_HOPS z
      let s := { s with fed := { s.fed with jobChecks := s.fed.jobChecks ++ [(z, gq, s.scnAt z gq)] } }
      doEach s.members s (fun s m => s.sendRequest m Op.JOB_CHECK (le 2 (s.dom z).tag ++ le 8 gq) .unit (z + 64 * gq)))

/-- A JOB_CHECK at a member (R332): the reference of its domain of the tag at Gq. -/
def Hub.jobCheckRx (s : Hub) (h : Hdr2) (tag gq : Nat) : Hub :=
  match s.openSlots.find? (fun z => (s.dom z).tag == tag) with
  | none => s.reply h Op.JOB_CHECK St.BAD_ARG []
  | some z => if gq < s.now then s.reply h Op.JOB_CHECK St.TOO_SOON [] else s.reply h Op.JOB_CHECK St.OK (le 8 (s.scnAt z gq))

/-! ### The FED page, R338 -/

/-- The status of a FED_CMD. -/
def Hub.fedCheck (s : Hub) (op : Nat) : Nat :=
  if s.isSafe then St.FAULT else if op == 0 || 3 < op then St.BAD_ARG else St.OK

/-- CLEAR_STATS of the FED page. -/
def Hub.fedClear (s : Hub) : Hub := doEach [0, 1, 2, 3] s (fun s t => s.setTend t { s.tend t with crcErrs := 0, resends := 0 })

/-- A write of FED_CMD. RETRAIN of a tendril that is DOWN sends a TRAIN and leaves it DOWN until a neighbour answers (R321). -/
def Hub.fedCmd (s : Hub) (op : Nat) : Hub :=
  let st := s.fedCheck op
  let s := (s.wr F.FED_CMD_STATUS_STATUS st).wr F.FED_CMD_STATUS_OP op
  if st != St.OK then s
  else
    match op with
    | 1 =>
      let t := s.rd F.FED_LINK_SEL_TENDRIL
      if (s.tend t).st == Ts.DOWN then s.sendTrain t 0 0 else (s.retrain t).wr F.FED_CMD_STATUS_DONE 0
    | 2 => s.announce
    | _ => s.fedClear

/-- A write of FED_DOMAIN (R324): refused above 1,024 hubs; a lead hub floods what it is given to its package. (DEDUCED, log entry 174) -/
def Hub.fedDomainWrite (s : Hub) (r : Req) (v : Nat) : Hub :=
  if 1024 < bitsOf v 16 11 then (s.err Er.FED_DOMAIN).errAt r R.FED_DOMAIN
  else
    let s := s.setReg R.FED_DOMAIN (v % 2 ^ 27)
    if s.isLead && r != .tendril then s.sendCmd s.broadcast Op.REG_WRITE (le 4 R.FED_DOMAIN ++ le 4 (v % 2 ^ 27)) else s

/-- A write of FED_JOB for the selected slot (R330): ignored for a running slot. A federated slot does not apply its local mask, it sends it to
the anchor. -/
def Hub.fedJobWrite (s : Hub) (r : Req) (v : Nat) : Hub :=
  let z := s.rd F.FED_JOB_SEL_SLOT
  let d := s.dom z
  if d.st == .running || d.st == .stopping then s.errAt r R.FED_JOB
  else
    let s := s.setRegB R.FED_JOB z (v % 2 ^ 17)
    let fed := bitsOf v F.FED_JOB_FEDERATED.lo 1 == 1
    let d := { d with fedMask := 0, memberMasks := [] }
    let d := if fed then { d with mask := 0, bare := 0, waiting := [] } else d
    if d.st == .empty then s.setDom z d else (s.setDom z d).restall z (s.now + 32)

end Sys2Proof.Machine
end

