-- ==== Sys2Proof/Machine/Views.lean ====
section
/-! DEFINITION. What a register reads (R6, R7, R58, R459, R460, R474, R478 and the register tables): the stored value, with the fields
that show the state of a unit laid over it; the bank of a register that a selector chooses; PG_STATUS.BUSY; the interrupt. -/

namespace Sys2Proof.Machine

/-- The LO halves of the 64-bit pairs (R6), lane 0 or cooper 0 for PRESS and COOP. -/
def loRegs : List Nat :=
  [R.TIME_GCN_LO, R.TIME_TBS_GCN_LO, R.TIME_CLKCHG_GCN_LO, R.TIME_CLKCHG_APPLY_LO, R.TIME_SCN_LO, R.CORK_TARGET_LO,
   R.CORK_RESULT_SCN_LO, R.CORK_RESULT_GCN_LO, R.CORK_STOPPED_LO, R.HARV_RAW_LO, R.HARV_PRESSED_LO,
   R.HARV_OPEN_GCN_LO, R.HARV_CLOSE_GCN_LO, R.HARV_REGION_BASE_LO, R.HARV_REGION_LEN_LO, R.HARV_REGION_DIGEST_LO,
   R.PRESS_IN_LO, R.PRESS_OUT_LO, R.PRESS_DEC_POS_LO, R.CELL_BASE_LO, R.RACK_SENT_LO, R.RACK_CUR_POS_LO,
   R.TRACE_RING_BASE_LO, R.TRACE_WPTR_LO, R.TRACE_TRIG_GCN_LO, R.TRACE_TRIG_WPTR_LO, R.TRACE_FRAMES_LO,
   R.TRACE_LOST_LO, R.TASTE_LAST_SCN_LO, R.DIGEST_RESULT_LO, R.DIGEST_EXPECT_LO, R.DIGEST_TABLE_BASE_LO,
   R.DIGEST_DONE_GCN_LO, R.NUMW_TOTAL_LO, R.NUMW_FIRST_SCN_LO, R.HANG_LAST_GCN_LO, R.HANG_FENCED_LO,
   R.LINK_FEC_CORR_LO, R.LINK_FLITS_TX_LO, R.LINK_FLITS_RX_LO, R.LIFE_DEVICE_ID_LO, R.AUTH_SLOTS_LO, R.AUTH_LIFE_LO,
   R.AUTH_GRANT_SLOTS_LO, R.AUTH_GRANT_LEFT_LO, R.BIST_PACK_ADDR_LO, R.BIST_SIG_GOT_LO, R.BIST_SIG_WANT_LO,
   R.REL_LAST_GCN_LO, R.PAIR_CKPT_GCN_LO, R.GLB_CTX_SEED_LO, R.GLB_CTX_SCN_LO, R.SPUR_SCN_LO, R.SPUR_DIG_0_LBASE_LO,
   R.SPUR_DIG_1_LBASE_LO, R.SPUR_DIG_2_LBASE_LO, R.SPUR_DIG_3_LBASE_LO, R.SPUR_DIG_PARTIAL_LO, R.SPUR_SRAM_LO]
/-- The register is the LO half of a pair. -/
def isLo (addr : Nat) : Bool := loRegs.contains (baseAddr addr)

/-- The register is the HI half of a pair. -/
def isHi (addr : Nat) : Bool := 4 ≤ offOf addr && loRegs.contains (baseAddr addr - 4)

/-! ### The header, R459, R460 -/

/-- The page asserts the management interrupt. -/
def Hub.pageInt (s : Hub) (page : Nat) : Bool :=
  let o := page * 0x1000
  pageExists page && bitAt (s.reg (R.PG_CTRL + o)) 0 && (s.reg (R.PG_EVENT + o) &&& s.reg (R.PG_EVENT_EN + o)) != 0

/-- The pages that assert the interrupt, as a mask. -/
def Hub.intPages (s : Hub) : Nat := listMask ((List.range 0x2C).filter s.pageInt)

/-- MGMT_IRQ (R460, R483). -/
def Hub.irq (s : Hub) : Bool := s.intPages != 0

/-- PG_STATUS.BUSY: the page's unit has a command or operation outstanding (log entry 20). -/
def Hub.pageBusy (s : Hub) (page : Nat) : Bool :=
  let open_ (f : Fld) : Bool := !s.flag f
  if page == Pg.GLB then open_ F.GLB_CMD_STATUS_DONE
  else if page == Pg.BOOT then s.rd F.BOOT_STATUS_STEP != 9
  else if page == Pg.LIFE then open_ F.LIFE_CMD_STATUS_DONE
  else if page == Pg.TIME then open_ F.TIME_CMD_STATUS_DONE || s.time.chgW.isSome || s.time.chgE.isSome
  else if page == Pg.CORK then open_ F.CORK_STATUS_DONE || !s.corks.isEmpty
  else if page == Pg.CANE then open_ F.CANE_CMD_STATUS_DONE
  else if page == Pg.HARV then open_ F.HARV_STATUS_DONE || s.harv.op != 0
  else if 0x08 ≤ page ∧ page ≤ 0x17 then
    open_ (F.PRESS_CMD_STATUS_DONE.lane (page - 0x08)) || (s.lane (page - 0x08)).isOpen || (s.lane (page - 0x08)).mode == 2
  else if page == Pg.CELL then open_ F.CELL_CMD_STATUS_DONE
  else if page == Pg.RACK then open_ F.RACK_STATUS_DONE || s.rack.active.isSome || !s.rack.queue.isEmpty
  else if page == Pg.LINK then open_ F.LINK_CMD_STATUS_DONE
  else if page == Pg.TRACE then open_ F.TRACE_CMD_STATUS_DONE || s.trace.snapAt.isSome
  else if page == Pg.TRACEF then s.flag F.TRACEF_BCAST_PENDING
  else if page == Pg.TASTE then open_ F.TASTE_CMD_STATUS_DONE
  else if page == Pg.NUMW then open_ F.NUMW_CMD_STATUS_DONE
  else if page == Pg.DIGEST then open_ F.DIGEST_CMD_STATUS_DONE
  else if page == Pg.HANG then open_ F.HANG_CMD_STATUS_DONE || s.hang.cells.any (fun (p : Nat × Monitor) => p.2.policy != 0)
  else if page == Pg.RSET then open_ F.RSET_STATUS_DONE || s.ladder.active
  else if page == Pg.BIST then open_ F.BIST_CMD_STATUS_DONE || !s.bist.runs.isEmpty
  else if page == Pg.REL then open_ F.REL_CMD_STATUS_DONE
  else if page == Pg.PAIR then open_ F.PAIR_CMD_STATUS_DONE || s.flag F.PAIR_STATE_TAKEOVER
  else if page == Pg.FED then open_ F.FED_CMD_STATUS_DONE
  else if page == Pg.PWR then s.power.calLeft != 0
  else if page == 0x27 ∨ page == 0x28 then
    open_ (F.COOP_CMD_STATUS_DONE.lane (page - 0x27)) ||
      [CoopState.running, .waiting, .loading].contains (s.coop (page - 0x27)).st
  else if page == Pg.SPURW then open_ F.SPURW_STATUS_DONE
  else if page == Pg.AUTH then open_ F.AUTH_CMD_STATUS_DONE
  else false

/-- ALERT_N is asserted (R478). -/
def Hub.alert (s : Hub) : Bool := s.flag F.TRAY_ALERT_LADDER_FAIL || s.flag F.TRAY_ALERT_CHIP_LEVEL || s.isSafe

/-- A register value with a field laid over it. -/
def withField (f : Fld) (x v : Nat) : Nat := setBits v f.lo f.width x

/-- A header register of a page. -/
def Hub.viewHeader (s : Hub) (page off v : Nat) : Nat :=
  if off == R.PG_ID then
    let inst := if 0x08 ≤ page ∧ page ≤ 0x17 then page - 0x08 else if page == 0x28 then 1 else 0
    withField F.PG_ID_PAGE page (withField F.PG_ID_INSTANCE inst (withField F.PG_ID_CORE (s.rd F.PAIR_STATE_ACTIVE) v))
  else if off == R.PG_CAPS then
    withField F.PG_CAPS_EVENTS (eventCount page) (withField F.PG_CAPS_ERRORS (errorCount page)
      (withField F.PG_CAPS_OWNABLE (b2n (ownable page)) (withField F.PG_CAPS_LOCKABLE (b2n (lockable page)) v)))
  else if off == R.PG_CTRL then withField F.PG_CTRL_SOFT_RESET (b2n (s.softReset.contains page)) v
  else if off == R.PG_STATUS then
    b2n (s.pageBusy page) + 2 * b2n (s.locked page) + 4 * b2n (s.owner page != 0) + 8 * b2n s.isSafe + 16 * b2n (s.pageInt page)
  else if off == R.PG_OWNER then s.owner page
  else v

/-! ### The pages whose fields show the state of a unit -/

/-- GLB (R474). -/
def Hub.viewGLB (s : Hub) (r : Req) (a v : Nat) : Nat :=
  let z := s.rd F.GLB_CTX_SEL_SLOT
  let d := s.dom z
  if a == R.GLB_HUB then withField F.GLB_HUB_ACTIVE_CORE (s.rd F.PAIR_STATE_ACTIVE) v
  else if a == R.GLB_WHOAMI then reqCode r
  else if a == R.GLB_INT_0 then s.intPages % 2 ^ 32
  else if a == R.GLB_INT_1 then s.intPages / 2 ^ 32
  else if a == R.GLB_CTX_STATE then
    if d.st == .empty then 0
    else 1 + 2 * d.priv + 8 * b2n (s.slotIn z 0) + 16 * b2n (s.slotIn z 1) + 32 * (s.slotTiles z).length
  else if a == R.GLB_CTX_TAG then (if d.st == .empty then 0 else d.tag)
  else v

/-- CORK and TIME (R58, R96). -/
def Hub.viewCork (s : Hub) (a v : Nat) : Nat :=
  let d := s.dom (s.rd F.CORK_DOMAIN_SEL_SLOT)
  if a == R.TIME_GCN_LO then (if s.timeOk then s.time.gcn else 0)
  else if a == R.TIME_CLK_DIV then withField F.TIME_CLK_DIV_PHASE_EQ (b2n s.phaseEq) v
  else if a == R.CORK_STOPPED_LO then listMask ((List.range 64).filter (fun z => (s.dom z).st == .stopped))
  else if a == R.CORK_DOMAIN_STATE then
    let st := match d.st with | .empty => 0 | .running => 1 | .stopping => 2 | .stopped => 3
    st + 4 * b2n d.stepping + 8 * b2n d.hold.isSome +
      16 * (b2n (d.power != 0) + 2 * b2n d.hold.isSome + 4 * b2n d.clkStall + 8 * b2n d.manual.isSome)
  else if a == R.CORK_STALL_MASK then withField F.CORK_STALL_MASK_EFFECTIVE d.effective v
  else v

/-- CANE and PRESS (R135, R164): `l` is the lane of the page. -/
def Hub.viewCane (s : Hub) (l a v : Nat) : Nat :=
  let word (j : Nat) (f : CaneSt → Bool) : Nat := listMask ((List.range 32).filter (fun i => f (s.cane (32 * j + i))))
  let c := s.cane (s.rd F.CANE_SEL_CANE)
  let x := s.lane l
  if R.CANE_DIR_0 ≤ a ∧ a ≤ R.CANE_DIR_3 then word ((a - R.CANE_DIR_0) / 4) CaneSt.down
  else if R.CANE_BROKEN_0 ≤ a ∧ a ≤ R.CANE_BROKEN_3 then word ((a - R.CANE_BROKEN_0) / 4) CaneSt.broken
  else if a == R.CANE_INFO then c.breakRow + 0x80 * b2n c.breakValid + 0x100 * c.parityErrs + 0x1000000 * c.mode
  else if a == R.CANE_QUEUE then c.fill + 0x10000 * c.peak
  else if a == R.PRESS_STATE then
    x.mode + 8 * b2n (s.retired (partner l) && !s.retired l) + 16 * b2n (x.mode != 4 && !s.harv.refMap.isEmpty)
  else v

/-- CELL, RACK and TRACE (R192, R194, R219). (DESIGN CHOICE, log entry 318) -/
def Hub.viewCell (s : Hub) (a v : Nat) : Nat :=
  let e := s.cell.index.get (s.rd F.CELL_INDEX_SEL_ENTRY) {}
  let closed := s.cell.index.cells.filter (fun (p : Nat × Vint) => p.2.state == 2)
  if a == R.CELL_CASKS_TOTAL then s.cell.pool
  else if a == R.CELL_CASKS_FREE then s.freeCasks
  else if a == R.CELL_CASKS_PINNED then s.pinnedCasks
  else if a == R.CELL_VINTAGES then
    closed.length + 0x10000 * ((s.cell.index.cells.filter (fun (p : Nat × Vint) => p.2.state != 0 && p.2.pin)).length)
  else if a == R.CELL_OLDEST then (match s.oldest with | some (_, w) => w.number | none => 0)
  else if a == R.CELL_INDEX_VINTAGE then e.number
  else if a == R.CELL_INDEX_STATE then
    e.state + 0x100 * e.flags + 0x10000 * b2n (s.held e) +
      0x20000 * b2n (e.state != 0 && (!e.rackHold.isEmpty ||
        (s.rack.queue ++ s.rack.active.toList).any (fun q => !q.trace && q.hub == s.hubAddr && q.vintage == e.number)))
  else if a == R.RACK_QUEUE then
    s.rack.queue.length + 0x100 * (match s.rack.active with | some q => q.id | none => if s.isLead && s.rack.used then 0xFF else 0) + 0x10000 * b2n s.rack.suspended
  else if a == R.RACK_CUR_VINTAGE then (match s.rack.active with | some q => q.vintage | none => 0)
  else if a == R.RACK_CUR_OBJ then
    (match s.rack.active with | some q => s.rack.left.headD 0 + 0x10000 * q.hub | none => 0)
  else if a == R.RACK_CUR_POS_LO then s.rack.pos
  else if a == R.TRACE_RING_BASE_LO then (if s.cellReady then s.geo.ringAt else 0)
  else if a == R.TRACE_RING_SIZE then s.cell.ringMib
  else if a == R.TRACE_LOSS_CANE then (s.frameBuf (s.rd F.TRACE_LOSS_CANE_SEL_CANE)).lossCount
  else if a == R.TRACE_EVLOSS then s.trace.evLoss.get (s.rd F.TRACE_EVLOSS_SEL_CLASS) 0
  else v

/-- TASTE and NUMW (R276, R280). (DEDUCED, log entry 126) -/
def Hub.viewTaste (s : Hub) (a v : Nat) : Nat :=
  let z := s.rd F.NUMW_SEL_SLOT
  let k := s.rd F.NUMW_SEL_KIND
  let p := s.numwPair z k
  if a == R.TASTE_STRIDE then v ||| 1
  else if a == R.TASTE_EVID_ADDR then v / 4 * 4
  else if a == R.TASTE_STATE then
    withField F.TASTE_STATE_IN_SERVICE (listMask s.tastersUp)
      (withField F.TASTE_STATE_TENDING 0 (withField F.TASTE_STATE_BUSY_BUFS s.taste.bufs.cells.length v))
  else if a == R.TASTE_STAT then s.taste.stats.get (s.rd F.TASTE_STAT_SEL_SLOT * 8 + s.rd F.TASTE_STAT_SEL_COUNTER) 0
  else if a == R.NUMW_LAST then sat 32 p.last
  else if a == R.NUMW_TOTAL_LO then p.total
  else if a == R.NUMW_MAXTILE then
    (match p.maxTile with | some t => t + 0x4000 + 0x10000 * sat 16 p.maxCount | none => 0)
  else if a == R.NUMW_FIRST then
    (match p.first with | some (t, _) => t + 0x4000 | none => 0) +
      0x8000 * b2n (s.numwCfg F.NUMW_CFG_FIRST_EN z k == 1 && !p.fired && p.first.isNone)
  else if a == R.NUMW_FIRST_SCN_LO then (match p.first with | some (_, n) => n | none => 0)
  else v

/-- HANG and RSET (R312, R314). -/
def Hub.viewHang (s : Hub) (a v : Nat) : Nat :=
  let z := s.rd F.HANG_MON_SEL_SLOT
  let m := s.mon z
  let out (t : Nat) : Bool := (s.tile t).mapped
  if a == R.HANG_MON_STATE then
    m.st + 4 * m.durs.length + 0x80 * b2n m.fenced + 0x100 * b2n (m.policy != 0) + 0x10000 * m.pstatus
  else if a == R.HANG_MON_THRESH then (if m.st == 0 then 0 else sat 32 (s.hangThreshold z / 16))
  else if a == R.HANG_MON_TIMER then sat 32 (m.timer / 16)
  else if a == R.HANG_MON_LONGEST then sat 32 (maxNat m.durs / 16)
  else if a == R.HANG_FENCED_LO then listMask ((List.range 64).filter (fun n => (s.mon n).fenced))
  else if a == R.RSET_STATUS then withField F.RSET_STATUS_ACTIVE (b2n s.ladder.active) v
  else if a == R.RSET_OOS_COUNT then ((s.tiles.cells.filter (fun (p : Nat × Tile) => p.2.mapped && !p.2.bad)).length)
  else if a == R.RSET_OOS_WORD then
    listMask ((List.range 32).filter (fun i => out (32 * s.rd F.RSET_OOS_SEL_WORD + i)))
  else if a == R.RSET_COUNT then s.ladder.counts.get (s.rd F.RSET_COUNT_SEL_LEVEL) 0
  else if a == R.RSET_PWRCYC then b2n s.pins.pwrcycReq
  else v

/-- FED and LINK (R338, R371). -/
def Hub.viewFed (s : Hub) (a v : Nat) : Nat :=
  let t := s.tend (s.rd F.FED_LINK_SEL_TENDRIL)
  let r := s.fed.routes.get (s.rd F.FED_ROUTE_SEL_FIELD) {}
  if a == R.FED_LINK then
    t.st + 4 * t.neighbour + 0x2000 * b2n t.nbValid + 0x4000 * t.delay + 0x40000 * (if t.delay == 0 then 0 else 12 - t.delay)
  else if a == R.FED_LINK_ERR then t.crcErrs + 0x10000 * t.resends
  else if a == R.FED_ROUTE then r.tendril + 4 * b2n r.valid + 8 * r.hops
  else if a == R.FED_MEMBERS then s.members.length
  else if a == R.FED_JOB then
    withField F.FED_JOB_IS_ANCHOR (b2n (bitsOf v F.FED_JOB_ANCHOR.lo 11 == s.hubAddr)) v
  else if a == R.LINK_CREDIT then
    sat 8 (s.link.credit.get 0 0) + 0x100 * sat 8 (s.link.credit.get 1 0) + 0x10000 * sat 16 (s.link.credit.get 2 0)
  else if a == R.LINK_SEQ then s.link.txNext + 0x10000 * s.link.rxExpect
  else if a == R.LINK_UNACKED then s.link.replayBuf.length
  else if a == R.LINK_EVLOSS then s.link.evLoss.get (s.rd F.LINK_EVLOSS_SEL_CLASS) 0
  else v

/-- LIFE, AUTH and BIST (R396, R397, R414). (DEDUCED, log entry 55) -/
def Hub.viewLife (s : Hub) (a v : Nat) : Nat :=
  let g := s.auth.grants.get (s.rd F.AUTH_GRANT_SEL_RECORD) {}
  let b := s.bist.results.get (s.rd F.BIST_RESULT_SEL_TARGET * 16384 + s.rd F.BIST_RESULT_SEL_UNIT) {}
  let p := s.packSlot (s.rd F.BIST_PACK_SEL_SLOT)
  if a == R.LIFE_FUSE_DATA then s.fuseUsed (s.rd F.LIFE_FUSE_SEL_ROW)
  else if a == R.AUTH_GRANT then b2n g.valid + 2 * g.rights + 0x40 * b2n g.abs
  else if a == R.AUTH_GRANT_SLOTS_LO then g.slots
  else if a == R.AUTH_GRANT_LEFT_LO then (if !g.valid then 0 else if g.abs then g.left else g.left - s.time.hclk)
  else if a == R.BIST_RESULT then
    b.outcome + 8 * b2n b.valid + 0x10 * b2n b.packUsed + 0x20 * b2n b.randomFail + 0x100 * b.info
  else if a == R.BIST_SIG_GOT_LO then b.got
  else if a == R.BIST_SIG_WANT_LO then b.want
  else if a == R.BIST_ACTIVE then listMask (s.bist.runs.map Run.target) + 0x10000 * s.tilesUnderTest
  else if a == R.BIST_PACK_INFO then b2n (s.packInUse (s.rd F.BIST_PACK_SEL_SLOT)) + 2 * p.target + 0x10 * b2n p.pushed + 0x100 * p.len
  else v

/-- REL and TRAY (R433, R478). -/
def Hub.viewRel (s : Hub) (a v : Nat) : Nat :=
  let st := if s.isSafe then 2 else if s.reg R.REL_DEGRADED != 0 then 1 else 0
  if a == R.REL_STATE then
    withField F.REL_STATE_STATE st (withField F.REL_STATE_REPLACE_REQ (b2n s.replaceReq) (withField F.REL_STATE_ALERT (b2n s.alert) v))
  else if a == R.REL_CANES_BYPASSED then ((s.canes.cells.filter (fun (p : Nat × CaneSt) => p.2.broken)).length)
  else if a == R.TRAY_PINS then
    b2n s.replaceReq + 2 * b2n s.pins.pwrcycReq + 4 * b2n s.alert + 8 * b2n s.pins.tileHold
  else if a == R.TRAY_ALERT then withField F.TRAY_ALERT_SAFE (b2n s.isSafe) v
  else if a == R.TRAY_SUMMARY then
    st + 4 * s.rd F.BOOT_STATUS_STEP + 0x40 * s.rd F.LIFE_STATE_STATE + 0x200 * s.rd F.BOOT_STATUS_CFG_DEFAULTED +
      0x400 * b2n s.timeOk + 0x800 * b2n s.linkUp
  else v

/-- COOP (R457): `c` is the cooper of the page. -/
def Hub.viewCoop (s : Hub) (c a v : Nat) : Nat :=
  let x := s.coop c
  let e := x.scripts.get (s.rd (F.COOP_SCRIPT_SEL_SCRIPT.lane c)) {}
  if a == R.COOP_STATE then
    let st := match x.st with | .empty => 0 | .idle => 1 | .running => 2 | .waiting => 3 | .halted => 4 | .loading => 5
    st + 8 * x.script + 0x40 * x.pc + 0x10000 * x.lastStatus + 0x1000000 * x.cause
  else if a == R.COOP_WDOG_LEFT then x.wdog
  else if a == R.COOP_SIG then x.sig.toNat
  else if a == R.COOP_SCRIPT_ENTRY then e.entry + 0x400 * e.trigger + 0x1000 * b2n e.valid + 0x2000 * b2n e.pending.isSome
  else if a == R.COOP_SCRIPT_FILTER then e.code + 0x10000 * e.mask
  else if a == R.COOP_SCRIPT_WDOG then e.wdog
  else if a == R.COOP_FILTER then (match x.filter with | some f => f.toNat | none => 0)
  else if a == R.COOP_QUEUE then x.queue.length
  else if a == R.COOP_W then x.reg (s.rd (F.COOP_W_SEL_REG.lane c))
  else v

/-- The page's unit is not at work in this hub, and its page reads as at reset: LINK and RACK in a hub that is not lead (R194, R339), PAIR in
a Dysko 16K (R435). -/
def Hub.pageIdle (s : Hub) (page : Nat) : Bool := ((page == Pg.LINK || page == Pg.RACK) && !s.isLead) || (page == Pg.PAIR && !s.isPair)

/-- Such a page still shows what its command ended with. (DEDUCED, log entry 331) -/
def Hub.readsReset (s : Hub) (addr : Nat) : Bool :=
  s.pageIdle (pageOf addr) && 0x40 ≤ offOf addr && !([R.LINK_CMD_STATUS, R.RACK_STATUS, R.PAIR_CMD_STATUS].contains addr)

/-- The value of a register as requester `r` would read it: 64 bits wide for the LO half of a pair. -/
def Hub.value (s : Hub) (r : Req) (addr : Nat) : Nat :=
  let addr := normAddr addr
  let a := baseAddr addr
  let page := pageOf addr
  let b := s.bankOf addr
  let v := if isLo addr then s.reg64B addr b else s.regB addr b
  if (regDef addr).isNone then 0
  else if s.readsReset addr then (s.boot.fuseRegs.get addr (BitVec.ofNat 32 (regReset addr))).toNat
  else if offOf addr < 0x40 then s.viewHeader page (offOf addr) (if page == Pg.LINK && s.pageIdle page then regReset addr else v)
  else if page == Pg.GLB then s.viewGLB r a v
  else if page == Pg.TIME ∨ page == Pg.CORK then s.viewCork a v
  else if page == Pg.CANE ∨ (0x08 ≤ page ∧ page ≤ 0x17) then s.viewCane (pageStep addr) a v
  else if page == Pg.CELL ∨ page == Pg.RACK ∨ page == Pg.TRACE then s.viewCell a v
  else if page == Pg.TASTE ∨ page == Pg.NUMW then s.viewTaste a v
  else if page == Pg.HANG ∨ page == Pg.RSET then s.viewHang a v
  else if page == Pg.FED ∨ page == Pg.LINK then s.viewFed a v
  else if page == Pg.LIFE ∨ page == Pg.AUTH ∨ page == Pg.BIST then s.viewLife a v
  else if page == Pg.REL ∨ page == Pg.TRAY then s.viewRel a v
  else if page == 0x27 ∨ page == 0x28 then s.viewCoop (pageStep addr) a v
  else v

end Sys2Proof.Machine
end

