-- ==== Sys2Proof/Machine/Regs.lean ====
section
/-! DEFINITION. A register access (R6 to R8, R458 to R477): reads with their latches, writes with the argument rule, the header's own
registers, SOFT_RESET, ownership, the spur window, and the units that a write reaches. -/

namespace Sys2Proof.Machine

/-- A free truth value: a result of the surroundings that the command carries no operand for. -/
def Hub.drawBool (s : Hub) : Bool × Hub := (s.drawWord.1.getLsbD 0, s.drawWord.2)

/-- The key of the HI latch of a requester for a pair's HI half. -/
def hiKey (r : Req) (addr : Nat) : Nat := reqCode r * 0x100000 + addr

/-- Latches the HI half of a pair for a requester (R6). (DEDUCED, log entry 60) -/
def Hub.latchHi (s : Hub) (r : Req) (lo v : Nat) : Hub :=
  { s with hi := s.hi.set (hiKey r (normAddr lo + 4)) (BitVec.ofNat 32 (v / 2 ^ 32)) }

/-! ### The spur window, R475 to R477 -/

/-- The offset of an SRAM access through the window. -/
def spurSram (addr : Nat) (write : Bool) : Bool :=
  normAddr addr == R.SPUR_SRAM_LO || (write && normAddr addr == R.SPUR_SRAM_HI)

/-- The digest descriptor a window offset belongs to. -/
def spurDig (addr : Nat) : Option Nat :=
  if R.SPUR_DIG_0_RANGE ≤ normAddr addr ∧ normAddr addr < R.SPUR_DIG_PARTIAL_LO then some ((normAddr addr - R.SPUR_DIG_0_RANGE) / 16)
  else none

/-- A harvest streams the tile's SRAM, or a decant writes it (log entry 21). -/
def Hub.sramBusy (s : Hub) (t : Nat) : Bool :=
  (s.harv.op == 1 && s.harv.admitted && s.harv.ended.isNone &&
    (s.cursor (colOf t)).phase == 2 && (s.cursor (colOf t)).tiles.headD 16384 == t) ||
  (s.harv.op == 2 && 4 ≤ s.harv.dStep && (s.tile t).isOf s.harv.dSlot)

/-- The result of a window access by the rows of R475. -/
def Hub.spurStatus (s : Hub) (r : Req) (t addr : Nat) (write : Bool) : Nat :=
  let x := s.tile t
  let sram := spurSram addr write
  if !s.inGrid t || (sram && x.bad) then St.BAD_ARG
  else if [Req.port, .jtag, .i3c, .tendril].contains r && x.st == .inContext && x.priv == 2 && !s.covers Right.SECURE x.slot then
    St.DENIED
  else if x.st == .underTest || (sram && s.sramBusy t) then St.BUSY
  else if write && (sram || (spurDig addr).isSome) && x.st == .inContext && (s.dom x.slot).st != .stopped then St.NOT_STOPPED
  else St.OK

/-- Writes SPURW_STATUS. -/
def Hub.spurwStatus (s : Hub) (status : Nat) : Hub := s.wr F.SPURW_STATUS_STATUS status

/-- SPUR_SRAM_ADDR after an access with AUTO_INC. -/
def Tile.sramNext (x : Tile) : Tile :=
  if bitAt x.sramAddr 16 then { x with sramAddr := 0x10000 + (x.sramAddr + 8) % 0x10000 } else x

/-- The value of a spur register, 64 bits for a LO half. -/
def Hub.spurValue (s : Hub) (t addr : Nat) : Nat :=
  let x := s.tile t
  let a := normAddr addr
  let st := match x.st with | .parked => 0 | .inContext => 1 | .outOfService => 2 | .underTest => 3
  if a == R.SPUR_ID then t + 0x4000 * st + 0x10000 * x.slot + 0x400000 * x.priv + 0x1000000 * b2n x.bad
  else if a == R.SPUR_SCN_LO then x.scn
  else if a == R.SPUR_FLAGS then
    b2n x.scnValid + 2 * b2n x.gated + 4 * b2n (x.rdOut == 0 && x.wrOut == 0) + 8 * b2n x.abandoned + 16 * b2n x.strobeFault +
      32 * b2n x.holdReq + 64 * x.catchBuf.length
  else if a == R.SPUR_OUTSTANDING then x.rdOut + 0x10000 * x.wrOut
  else if a == R.SPUR_TRACE then sat 10 x.traceWords
  else if a == R.SPUR_DIG_PARTIAL_LO then x.partialSum
  else if R.SPUR_NUMW_0 ≤ a ∧ a ≤ R.SPUR_NUMW_3 then
    let i := (a - R.SPUR_NUMW_0) / 4
    nth x.numw (2 * i) 0 + 0x10000 * nth x.numw (2 * i + 1) 0
  else if a == R.SPUR_SRAM_ADDR then x.sramAddr
  else if a == R.SPUR_SRAM_LO then fromLe (s.sram t (x.sramAddr % 0x10000) 8)
  else
    match spurDig a with
    | some n => if a % 16 == 0 then (nth x.dig n {}).range else (nth x.dig n {}).lbase
    | none => 0

/-- A read of a window offset that the rows of R475 allow. (DEDUCED, log entry 151) -/
def Hub.spurReadOk (s : Hub) (r : Req) (t addr : Nat) : Nat × Hub :=
  let a := normAddr addr
  if isHi a || a == R.SPUR_SRAM_HI then ((s.hi.get (hiKey r a) 0).toNat, s)
  else
    let v := s.spurValue t a
    let s := if isLo a then s.latchHi r a v else s
    let s := if a == R.SPUR_SRAM_LO then s.setTile t (s.tile t).sramNext else s
    (v % 2 ^ 32, s)

/-- A write of a window offset that the rows of R475 allow. -/
def Hub.spurWriteOk (s : Hub) (r : Req) (t addr v : Nat) : Hub :=
  let a := normAddr addr
  let x := s.tile t
  if a == R.SPUR_SRAM_ADDR then s.setTile t { x with sramAddr := v &&& 0x1FFF8 }
  else if a == R.SPUR_SRAM_LO then { s with stage := s.stage.set (reqCode r) (BitVec.ofNat 32 v) }
  else if a == R.SPUR_SRAM_HI then
    let s := s.putSram t (x.sramAddr % 0x10000) (le 4 (s.stage.get (reqCode r) 0).toNat ++ le 4 v)
    s.setTile t x.sramNext
  else
    match spurDig a with
    | none => s
    | some n =>
      let d := nth x.dig n {}
      let d := if a % 16 == 0 then { d with range := v &&& 0x3FFFFFFF }
        else if a % 16 == 4 then { d with lbase := d.lbase / 2 ^ 32 * 2 ^ 32 + v }
        else { d with lbase := d.lbase % 2 ^ 32 + v * 2 ^ 32 }
      s.setTile t { x with dig := setNth (padList 4 {} x.dig) n d }

/-- A window access (R475): carried to the spur that SPURW_TILE selects, its result in SPURW_STATUS. -/
def Hub.spurAccess (s : Hub) (r : Req) (addr : Nat) (write : Option Nat) : Nat × Hub :=
  let t := s.rd F.SPURW_TILE_TILE
  let st := s.spurStatus r t addr write.isSome
  let s := s.spurwStatus st
  if st != St.OK then (0, s)
  else
    match write with
    | none => s.spurReadOk r t addr
    | some v => (0, s.spurWriteOk r t addr v)

/-- No good answer of the spur within 1,024 HCLK (R475); `crc` says that an answer failed on both copies. -/
def Hub.windowTimeout (s : Hub) (r : Req) (crc : Bool) : Hub :=
  let t := s.rd F.SPURW_TILE_TILE
  let s := (s.spurwStatus St.TIMEOUT).err Er.SPURW_WINDOW_TIMEOUT
  let s := if crc then s.err Er.SPURW_WINDOW_CRC else s
  (s.raiseOf Ev.TRELLIS_SILENT t).respond r 0 St.OK

/-- The address is an offset of the spur window. -/
def inWindow (addr : Nat) : Bool := pageOf addr == Pg.SPURW && 0x100 ≤ offOf addr

/-! ### SOFT_RESET, R462 -/

/-- Pages on which SOFT_RESET has no effect. -/
def softIgnored (page : Nat) : Bool :=
  [Pg.GLB, Pg.BOOT, Pg.LIFE, Pg.TIME, Pg.CORK, Pg.AUTH, Pg.PAIR, Pg.SPURW].contains page

/-- Returns the RW fields of a page's block registers to their values after start-up step 6, in every bank. -/
def Hub.softFields (s : Hub) (page : Nat) : Hub :=
  let mine (a : Nat) : Bool := pageOf a == page && 0x40 ≤ offOf a
  let fresh (k : Nat) : Nat := if k < 0x100000 then (s.boot.fuseRegs.get k (BitVec.ofNat 32 (regReset k))).toNat else regReset (k % 0x100000)
  let back (k v : Nat) : Nat :=
    match regDef (k % 0x100000) with
    | none => v
    | some d => let m := d.mask .rw; (v ^^^ (v &&& m)) ||| (fresh k &&& m)
  let s := { s with regs := ⟨s.regs.cells.map (fun (p : Nat × Word) =>
      if mine (p.1 % 0x100000) then (p.1, BitVec.ofNat 32 (back p.1 p.2.toNat)) else p)⟩ }
  doEach (s.boot.fuseRegs.keys.filter mine) s (fun s k => s.setReg k (back k (s.reg k)))

/-- Clears the counters of a page: what its CLEAR_STATS clears, or its counter registers. -/
def Hub.softCounters (s : Hub) (page : Nat) : Hub :=
  if page == Pg.CANE then
    { s with canes := ⟨s.canes.cells.map (fun (p : Nat × CaneSt) => (p.1, { p.2 with parityErrs := 0, peak := 0 }))⟩ }
  else if 0x08 ≤ page ∧ page ≤ 0x17 then s.clearPress (page - 0x08)
  else if page == Pg.CELL then s.setReg R.CELL_EVICTED 0
  else if page == Pg.RACK then s.setReg64 R.RACK_SENT_LO 0
  else if page == Pg.LINK then s.linkClear
  else if page == Pg.TRACE then s.traceClear
  else if page == Pg.TASTE then s.clearTaste
  else if page == Pg.NUMW then { s with numw := ⟨s.numw.cells.map (fun (p : Nat × NumwPair) => (p.1, { p.2 with total := 0 }))⟩ }
  else if page == Pg.DIGEST then s.setReg R.DIGEST_PASSES 0
  else if page == Pg.HANG then s.clearHang
  else if page == Pg.RSET then s.rsetClear
  else if page == Pg.BIST then s.bistClear
  else if page == Pg.REL then ((s.setReg R.REL_TEND_ROUNDS 0).setReg R.REL_ECC_CORR 0).setReg R.REL_ECC_UNCORR 0
  else if page == Pg.FED then s.fedClear
  else if page == 0x27 ∨ page == 0x28 then
    (s.setReg (R.COOP_EVLOSS + (page - 0x27) * 0x1000) 0).setReg (R.COOP_RUNS + (page - 0x27) * 0x1000) 0
  else s

/-- The units follow the fields that SOFT_RESET has returned. -/
def Hub.softFollow (s : Hub) (page : Nat) (forced : Bool) : Hub :=
  if page == Pg.CANE then
    let s := doEach ((s.canes.cells.filter (fun (p : Nat × CaneSt) => p.2.broken)).map Prod.fst) s Hub.clearBroken
    { s with canes := ⟨s.canes.cells.map (fun (p : Nat × CaneSt) => (p.1, { p.2 with breakRow := 0 }))⟩ }
  else if page == Pg.LINK then s.linkCtrlWritten
  else if page == Pg.PWR then s.pwrCtrlWritten forced false
  else if page == Pg.TRACEF then s.broadcastFilter
  else if page == Pg.HANG then
    { s with hang := ⟨s.hang.cells.map (fun (p : Nat × Monitor) => if p.2.st == 3 then p else (p.1, { p.2 with st := 0, timer := 0 }))⟩ }
  else if page == Pg.RACK then s.rackNext
  else s

/-- SOFT_RESET of a page whose BUSY is 0 takes effect. -/
def Hub.softResetPage (s : Hub) (page : Nat) : Hub :=
  let forced := s.flag F.PWR_CTRL_EST_ONLY_FORCE
  let o := page * 0x1000
  let s := ((s.softFields page).softCounters page).softFollow page forced
  let s := doEach [R.PG_EVENT, R.PG_ERROR, R.PG_ERROR_INFO, R.PG_PARITY] s (fun s a => s.setReg (a + o) 0)
  { s with softReset := s.softReset.filter (· != page) }

/-- The pages whose SOFT_RESET may take effect now. (DEDUCED, log entry 193) -/
def Hub.softResets (s : Hub) : Hub := doEach (s.softReset.filter (fun p => !s.pageBusy p)) s Hub.softResetPage

/-! ### The header's registers, R459, R461, R463, R467 -/

/-- PG_OWNER is written: FORCE_RELEASE, RELEASE by the owner, CLAIM of a page that nobody owns. -/
def Hub.ownerWrite (s : Hub) (r : Req) (page v : Nat) : Hub :=
  let set (s : Hub) (n : Nat) : Hub := { s with owners := s.owners.set page n }
  let s := if bitAt v 6 then set s 0 else s
  let s := if bitAt v 5 && s.owner page == reqCode r + 1 then set s 0 else s
  if bitAt v 4 && s.owner page == 0 && ownable page then set s (reqCode r + 1) else s

/-- PG_EVENT_FORCE is written: allocated bits are set, with no occurrence for any other consumer; no effect in SCRAPPED. -/
def Hub.forceEvents (s : Hub) (page v : Nat) : Hub :=
  if s.scrapped then s
  else
    let a := R.PG_EVENT + page * 0x1000
    s.setReg a (s.reg a ||| v % 2 ^ eventCount page)

/-- PG_CTRL is written: EN, SOFT_RESET, and LOCK, which only sets. -/
def Hub.ctrlWrite (s : Hub) (page v : Nat) : Hub :=
  let a := R.PG_CTRL + page * 0x1000
  let lock := (bitAt v 2 && lockable page) || bitAt (s.reg a) 2
  let s := s.setReg a (v % 2 + 4 * b2n lock)
  if bitAt v 1 && !softIgnored page then { s with softReset := insertNat page s.softReset } else s

/-- A header register of a page is written. -/
def Hub.headerWrite (s : Hub) (r : Req) (addr v : Nat) : Hub :=
  let page := pageOf addr
  let off := offOf addr
  let clear (s : Hub) : Hub := s.setReg addr (s.reg addr ^^^ (s.reg addr &&& v))
  if off == R.PG_CTRL then s.ctrlWrite page v
  else if off == R.PG_EVENT ∨ off == R.PG_ERROR ∨ off == R.PG_PARITY then clear s
  else if off == R.PG_EVENT_EN then s.setReg addr (v % 2 ^ eventCount page)
  else if off == R.PG_EVENT_FORCE then s.forceEvents page v
  else if off == R.PG_OWNER then s.ownerWrite r page v
  else s

/-! ### Block registers -/

/-- Stores the RW bits of a register and clears the W1C bits written 1, in the bank its selector chooses. -/
def Hub.storeWrite (s : Hub) (addr v : Nat) : Hub :=
  match regDef addr with
  | none => s
  | some d =>
    let b := s.bankOf addr
    let old := s.regB addr b
    let rw := d.mask .rw
    let old := (old ^^^ (old &&& rw)) ||| (v &&& rw)
    let new := old ^^^ (old &&& (v &&& d.mask .w1c))
    if rw == 0 && d.mask .w1c == 0 then s else s.setRegB addr b new

/-- The field of a command word that names its operation. -/
def opField (v w : Nat) : Nat := bitsOf v 0 w

/-- A command register of the pages GLB to CANE is written. (DESIGN CHOICE, log entry 51) -/
def Hub.commandWrite1 (s : Hub) (r : Req) (a v : Nat) : Option Hub :=
  if a == R.GLB_CMD then some (s.glbCmd r (opField v 3))
  else if a == R.BOOT_CMD then some (s.bootCmd r (opField v 2))
  else if a == R.LIFE_CMD then some (s.drawBool.2.lifeCmd r (opField v 3) s.drawBool.1)
  else if a == R.TIME_CMD then some (s.timeCmd (opField v 4))
  else if a == R.CORK_CMD then some (s.corkCmd r (opField v 4))
  else if a == R.HARV_CMD then some (s.harvCmd r (opField v 4))
  else if a == R.CANE_CMD then some (s.caneCmd (opField v 3))
  else if a == R.CELL_CMD then some (s.cellCmd r (opField v 3))
  else if a == R.RACK_CMD then some (s.rackCmd r (opField v 3))
  else if a == R.LINK_CMD then some (s.linkCmd (opField v 2))
  else if a == R.TRACE_CMD then some (s.traceCmd (opField v 4))
  else none

/-- A command register of the other pages is written; `l` is the lane or the cooper of the page. -/
def Hub.commandWrite2 (s : Hub) (r : Req) (l a v : Nat) : Option Hub :=
  if a == R.PRESS_CMD then some (s.drawWord.2.pressCmd l (opField v 3) s.drawWord.1.toNat)
  else if a == R.TASTE_CMD then some (s.tasteCmd (opField v 3))
  else if a == R.NUMW_CMD then some (s.numwCmd (opField v 2))
  else if a == R.DIGEST_CMD then some (s.digestCmd (opField v 3))
  else if a == R.HANG_CMD then some (s.hangCmd (opField v 3))
  else if a == R.RSET_CMD then some (s.rsetCmd r (opField v 3))
  else if a == R.BIST_CMD then some (s.bistCmd r (opField v 3))
  else if a == R.REL_CMD then some (s.relCmd (opField v 2))
  else if a == R.PAIR_CMD then some (s.pairCmd (opField v 2))
  else if a == R.FED_CMD then some (s.fedCmd (opField v 3))
  else if a == R.COOP_CMD then some (s.coopCmd l (opField v 3) (bitsOf v 4 3))
  else if a == R.AUTH_CMD then some (s.drawBool.2.authCmd (opField v 3) s.drawBool.1)
  else none

/-- A register with a rule of its own is written; `l` is the lane or the cooper of the page. -/
def Hub.specialWrite (s : Hub) (r : Req) (l a v : Nat) : Option Hub :=
  if a == R.TIME_CTRL then some (s.storeWrite a v).timeCtrlWritten
  else if a == R.TIME_TBS_PERIOD then some (s.storeWrite a v).tbsPeriodWritten
  else if a == R.TRACE_CTRL then some (if s.flag F.TRACE_STATE_RUNNING then (s.err Er.TRACE_ARG_BUSY).errAt r a else s.storeWrite a v)
  else if a == R.HARV_NEXT_VINTAGE then some (if v == 0 then s else s.storeWrite a v)
  else if a == R.REL_INJECT then some (s.faultInject v)
  else if R.CANE_BROKEN_0 ≤ a ∧ a ≤ R.CANE_BROKEN_3 then some (s.caneBrokenWrite ((a - R.CANE_BROKEN_0) / 4) v)
  else if a == R.CANE_INFO then some (s.caneInfoWrite v)
  else if a == R.PRESS_CTRL then some (s.pressCtrlWrite r l v)
  else if a == R.RACK_CTRL then some ((s.storeWrite a v).rackPause (bitAt v 1))
  else if a == R.LINK_CTRL then some (s.storeWrite a v).linkCtrlWritten
  else if [R.TRACEF_SLOT, R.TRACEF_RECT, R.TRACEF_WIN_CTRL, R.TRACEF_WIN_ADDR, R.TRACEF_TEV, R.TRACEF_TEV_TRIG, R.TRACEF_EVCLASS].contains a
  then some (s.tracefWrite r a v)
  else if a == R.TASTE_SLOT || a == R.TASTE_SLOT_FMT then some ((s.tasteHold (s.bankOf a)).storeWrite a v)
  else if a == R.NUMW_CFG then some ((s.numwHold (s.bankOf a)).storeWrite a v)
  else if a == R.HANG_MON_CFG then some (s.monCfgWrite v)
  else if a == R.FED_DOMAIN then some (s.fedDomainWrite r v)
  else if a == R.FED_JOB then some (s.fedJobWrite r v)
  else if a == R.PWR_CTRL then some ((s.storeWrite a v).pwrCtrlWritten (s.flag F.PWR_CTRL_EST_ONLY_FORCE) (bitAt v 3))
  else if a == R.PWR_CLKREQ then some (if bitAt v 3 then (s.storeWrite a v).pwrClkreq else s.storeWrite a v)
  else if a == R.PWR_CTX then some (s.pwrCtxWrite r v)
  else if a == R.AUTH_DATA then
    some ((s.storeWrite a v).wr F.AUTH_DATA_SEL_WORD (s.rd F.AUTH_DATA_SEL_WORD + 1))
  else if a == R.COOP_PROG_DATA then some (s.coopProgWrite r l v)
  else if a == R.COOP_DATA_DATA then some (s.coopDataWrite r l v)
  else if a == R.COOP_SCRIPT_ENTRY then some (s.coopScriptWrite r l 0 v)
  else if a == R.COOP_SCRIPT_FILTER then some (s.coopScriptWrite r l 1 v)
  else if a == R.COOP_SCRIPT_WDOG then some (s.coopScriptWrite r l 2 v)
  else if a == R.COOP_PROG_CRC then some (s.coopCrcWrite r l v)
  else none

/-- An argument register may be written: its DONE is 1. The region table is closed only in harvest phases 0 to 3 and decant steps 1 and 2 (R133). -/
def Hub.argOpen (s : Hub) (addr : Nat) (done : Fld) : Bool :=
  let p := s.rd F.HARV_STATUS_PHASE
  if R.HARV_REGION_CTRL ≤ addr ∧ addr ≤ R.HARV_REGION_LEN_HI then
    !((s.harv.op == 1 && 1 ≤ p && p ≤ 4) || (s.harv.op == 2 && 1 ≤ s.harv.dStep && s.harv.dStep ≤ 2))
  else s.flag done

/-- A write that the checks of R469 let through. -/
def Hub.writeReg (s : Hub) (r : Req) (addr v : Nat) : Hub :=
  let addr := normAddr addr
  let v := v % 2 ^ 32
  let a := baseAddr addr
  let l := pageStep addr
  if offOf addr < 0x40 then s.headerWrite r addr v
  else if inWindow addr then (s.spurAccess r addr (some v)).2
  else
    match argRule addr with
    | some (done, e) =>
      if s.argOpen addr done then
        match s.specialWrite r l a v with
        | some s' => s'
        | none => s.storeWrite addr v
      else
        (match e with | some e => s.err e | none => s).errAt r addr
    | none =>
      match s.commandWrite1 r a v with
      | some s' => s'
      | none =>
        match s.commandWrite2 r l a v with
        | some s' => s'
        | none =>
          match s.specialWrite r l a v with
          | some s' => s'
          | none => s.storeWrite addr v

/-- A register write of a requester (R7, R8, R469): a reserved address is ignored. -/
def Hub.regWrite (s : Hub) (r : Req) (addr v : Nat) : Hub :=
  if (regDef (normAddr addr)).isNone then s.respond r 0 St.OK
  else s.cmd r addr (v % 2 ^ 32) (fun s => s.writeReg r addr v)

/-! ### Reads -/

/-- A read of TIME_GCN_LO latches the reference SCN of the slot in TIME_SCN_SLOT (R58). -/
def Hub.latchScn (s : Hub) : Hub :=
  let d := s.dom (s.rd F.TIME_SCN_SLOT_SLOT)
  let s := s.setReg64 R.TIME_SCN_LO d.scn
  (s.wr F.TIME_SCN_FLAGS_VALID (b2n (d.st != .empty))).wr F.TIME_SCN_FLAGS_STOPPED (b2n (d.st == .stopped))

/-- A read that the checks of R469 let through: its value, and what the read itself does. -/
def Hub.readReg (s : Hub) (r : Req) (addr : Nat) : Nat × Hub :=
  let addr := normAddr addr
  let a := baseAddr addr
  if inWindow addr then s.spurAccess r addr none
  else if isHi addr then ((s.hi.get (hiKey r addr) 0).toNat, s)
  else if a == R.TASTE_EVID_DATA then s.evidRead r
  else if a == R.COOP_PROG_DATA then s.coopProgRead (pageStep addr)
  else if a == R.COOP_DATA_DATA then s.coopDataRead (pageStep addr)
  else if a == R.AUTH_DATA then (s.value r addr, s.wr F.AUTH_DATA_SEL_WORD (s.rd F.AUTH_DATA_SEL_WORD + 1))
  else
    let v := s.value r addr
    let s := if isLo addr then s.latchHi r addr v else s
    let s := if a == R.TIME_GCN_LO then s.latchScn.latchHi r R.TIME_SCN_LO (s.dom (s.rd F.TIME_SCN_SLOT_SLOT)).scn else s
    (v % 2 ^ 32, s)

/-- A register read of a requester (R469): the response holds the value and the status. -/
def Hub.regRead (s : Hub) (r : Req) (addr : Nat) : Hub :=
  let st := s.accessStatus r addr false 0
  if st != St.OK then s.refuse r addr false st
  else if (regDef (normAddr addr)).isNone then s.respond r 0 St.OK
  else
    let (v, s) := s.readReg r addr
    (s.respond r v St.OK).usePage addr

/-- The response a requester's last access got. -/
def Hub.response (s : Hub) (r : Req) : BusResp := s.bus.get (reqCode r) {}

/-! ### I3C, R466 -/

/-- ENTDAA gives the target its dynamic address. -/
def Hub.i3cEntdaa (s : Hub) (addr : Nat) : Hub := (s.wr F.TRAY_I3C_DYN_ADDR addr).wr F.TRAY_I3C_ADDR_VALID 1

/-- A transfer that failed its parity or T-bit check is discarded. -/
def Hub.i3cBad (s : Hub) : Hub := s.err Er.TRAY_I3C_PARITY

/-- A private write of 3 bytes sets the register address; one of 7 bytes also writes the register. -/
def Hub.i3cWrite (s : Hub) (addr : Nat) (data : Option Nat) : Hub :=
  let s := { s with pins := { s.pins with i3cPtr := addr % 0x100000 } }
  match data with
  | none => s
  | some v =>
    let s := s.regWrite .i3c addr v
    if (s.response .i3c).status != St.OK then s.err Er.TRAY_I3C_REFUSED else s

/-- A private read returns the register at the address, with a status byte, and advances the address by 4. -/
def Hub.i3cRead (s : Hub) : Hub :=
  let a := s.pins.i3cPtr
  let s := s.regRead .i3c a
  { s with pins := { s.pins with i3cPtr := (a + 4) % 0x100000 } }

end Sys2Proof.Machine
end

