-- ==== Sys2Proof/Machine/Port.lean ====
section
/-! DEFINITION. The requests of the rack port (R357 to R365): the format check, the TAG table, register accesses local and relayed, corks,
cross-package messages, PEER_LOST and TIME_PING; and the flits and codewords that bring them. -/

namespace Sys2Proof.Machine

/-! ### Fields of a message, R357 -/

def Pm.type (m : List Byte) : Nat := leAt m 0 1
def Pm.flags (m : List Byte) : Nat := leAt m 1 1
def Pm.len (m : List Byte) : Nat := leAt m 2 2
def Pm.tag (m : List Byte) : Nat := leAt m 4 2
def Pm.hub (m : List Byte) : Nat := leAt m 6 2
def Pm.body (m : List Byte) : List Byte := m.drop 8

/-- A CORK body (R358): its reserved bytes, and the reserved bits of CORK_CMD, CORK_MODE and CORK_SCOPE in it, are 0 (R97, R357). -/
def corkBodyOk (b : List Byte) : Bool :=
  b.length == 28 && leAt b 0 1 < 16 && leAt b 1 1 < 4 && leAt b 2 2 == 0 && bitsOf (leAt b 4 4) 12 4 == 0 && leAt b 22 2 == 0

/-- The body's length and reserved bytes fit the type (R358); a type that only the hub sends counts as reserved (log entry 24). -/
def bodyOk (type : Nat) (b : List Byte) : Bool :=
  if type == Mt.REG_READ then b.length == 8 && leAt b 5 3 == 0
  else if type == Mt.REG_WRITE then
    let n := leAt b 4 1
    leAt b 5 3 == 0 && b.length % 4 == 0 && 12 ≤ b.length && b.length ≤ 72 && (n == 0 || 16 < n || b.length == 8 + 4 * n)
  else if type == Mt.CORK then corkBodyOk b
  else if type == Mt.XPKG then leAt b 1 1 == 0 && leAt b 2 2 < 2048 && (b.length == 32 || (b.length == 36 && (leAt b 0 1 != 1 || corkBodyOk (b.drop 8))))
  else if type == Mt.XPKG_REPORT then b.length == 16 && leAt b 5 1 < 2 && leAt b 6 2 < 2048
  else if type == Mt.PEER_LOST then b.length == 36 && leAt b 0 1 < 16 && leAt b 2 2 == 0
  else type == Mt.TIME_PING && b.length == 8

/-- A message passes the format check of R357. -/
def messageOk (m : List Byte) : Bool :=
  Pm.flags m < 2 && Pm.hub m < 2048 && (Pm.body m).length == Pm.len m && bodyOk (Pm.type m) (Pm.body m)

/-! ### Register accesses, R360, R361, R364 -/

/-- The consecutive registers of a REG_READ, up to the first access that fails: the values read and that status. -/
def Hub.portReads : Nat → Nat → List Nat → Hub → List Nat × Nat × Hub
  | 0, _, got, s => (got, St.OK, s)
  | n + 1, addr, got, s =>
    let s := s.regRead .port addr
    let a := s.response .port
    if a.status != St.OK then (got, a.status, s) else portReads n (addr + 4) (got ++ [a.value]) s

/-- The consecutive registers of a REG_WRITE: how many were written and the status of the first that failed. -/
def Hub.portWrites : List Nat → Nat → Nat → Hub → Nat × Nat × Hub
  | [], _, done, s => (done, St.OK, s)
  | v :: vs, addr, done, s =>
    let s := s.regWrite .port addr v
    let a := s.response .port
    if a.status != St.OK then (done, a.status, s) else portWrites vs (addr + 4) (done + 1) s

/-- The body of a REG_RESP. -/
def regRespBody (status done : Nat) (values : List Nat) : List Byte := le 1 status ++ le 1 done ++ zeros 2 ++ values.flatMap (le 4)

/-- A relayed access is turned away: of more than one register, or of a page R361 closes; in SAFE a write other than R364's. (DEDUCED, log entry 175) -/
def Hub.relayStatus (s : Hub) (addr count : Nat) (write : Bool) : Nat :=
  let page := pageOf addr
  if write && s.isSafe && !([R.RSET_ARG, R.RSET_CMD].contains (normAddr addr) || offOf addr == 0x014 || offOf addr == 0x020) then St.FAULT
  else if count != 1 then St.BAD_ARG
  else if page == Pg.BOOT || page == Pg.LIFE || page == Pg.AUTH then St.DENIED
  else St.OK

/-- A REG_READ or REG_WRITE message. -/
def Hub.portReg (s : Hub) (write : Bool) (tag hub : Nat) (b : List Byte) : Hub :=
  let type := if write then Mt.REG_WRITE else Mt.REG_READ
  let addr := leAt b 0 4
  let count := leAt b 4 1
  let values := (List.range count).map (fun i => leAt b (8 + 4 * i) 4)
  let ends (s : Hub) (status done : Nat) (vs : List Nat) : Hub := s.portRespond tag type Mt.REG_RESP true (regRespBody status done vs)
  if count == 0 || 16 < count || 0xFFFFC < addr / 4 * 4 + 4 * (count - 1) then ends s St.BAD_ARG 0 []
  else if hub == s.hubAddr then
    if write then
      let (n, st, s) := Hub.portWrites values addr 0 s
      ends s st n []
    else
      let (vs, st, s) := Hub.portReads count addr [] s
      ends s st vs.length vs
  else if packageOf hub != packageOf s.hubAddr || fieldOf hub == 127 then ends s St.BAD_ARG 0 []
  else
    let st := s.relayStatus addr count write
    if st != St.OK then ends s st 0 []
    else if write then s.sendRequest hub Op.REG_WRITE (le 4 addr ++ le 4 (leAt b 8 4)) (.port tag 1 true) 0
    else s.sendRequest hub Op.REG_READ (le 4 addr) (.port tag 1 false) 0

/-! ### The other requests -/

/-- The arguments of a CORK body (R358); a MODE that CORK_MODE does not define is none of its four (R64, R79 row 3). -/
def corkBodyArgs (b : List Byte) : CorkArgs :=
  { scopeOf (leAt b 4 4) with mode := (if leAt b 1 1 < 4 then leAt b 1 1 else 0xFF), target := leAt b 8 8, count := leAt b 16 4 }

/-- A CORK message (R358, R362): a response at acceptance, and a second at the completion of an accepted command. -/
def Hub.portCork (s : Hub) (tag hub : Nat) (b : List Byte) : Hub :=
  let op := leAt b 0 1
  let a := corkBodyArgs b
  let first := s.dom (minNat a.slot (s.scopeSlots a))
  if hub != s.hubAddr then
    s.portRespond tag Mt.CORK Mt.CORK_RESP true (corkRespBody St.BAD_ARG St.BAD_ARG op true false false 0 0)
  else
    let (ans, s) := s.corkIssue (.port tag) true op a (leAt b 20 2) (leAt b 24 4)
    let scn := if ans.already then first.scn else 0
    let gcn := if ans.already then first.stopGcn else 0
    if ans.done then
      let s := if ans.status == St.OK then
          s.portRespond tag Mt.CORK Mt.CORK_RESP false (corkRespBody ans.status 0 op false false false 0 0)
        else s
      s.portRespond tag Mt.CORK Mt.CORK_RESP true (corkRespBody ans.status ans.status op true ans.already false scn gcn)
    else s.portRespond tag Mt.CORK Mt.CORK_RESP false (corkRespBody ans.status 0 op false false false 0 0)

/-- An XPKG message from the TDC (R128, R335, R362). Its response is the XPKG_REPORT; until then a repeat of it gets nothing. -/
def Hub.portXpkg (s : Hub) (tag hub : Nat) (b : List Byte) : Hub :=
  let op := leAt b 0 1
  let issuer := leAt b 2 2
  let xid := leAt b 4 4
  let body := b.drop 8
  if hub != s.hubAddr || !((op == 1 && body.length == 28) || (op == 2 && body.length == 24)) then
    s.portRespond tag Mt.XPKG Mt.XPKG_REPORT true (xpkgReportBody xid St.BAD_ARG false s.hubAddr 0)
  else
    let s := { s with link := { s.link with
      tagTab := keepTag s.link.tagTab { tag := tag, type := Mt.XPKG, resp := [] } } }
    if op == 1 then s.xpkgCork tag xid (leAt body 0 1) (corkBodyArgs body)
    else s.xpkgHarvest tag issuer xid (body.take 12) (body.drop 12)

/-- An XPKG_REPORT of another package at the issuing lead. -/
def Hub.portXpkgReport (s : Hub) (b : List Byte) : Hub :=
  let xid := leAt b 0 4
  let pkg := packageOf (leAt b 6 2)
  (s.xpkgReport xid (leAt b 4 1) pkg).harvPackage xid pkg (leAt b 4 1)

/-- A PEER_LOST message (R304, R305, R362): answered with ERROR OK once it is relayed. -/
def Hub.portPeerLost (s : Hub) (tag hub : Nat) (b : List Byte) : Hub :=
  let n := leAt b 1 1
  let ends (s : Hub) (status : Nat) : Hub := s.portRespond tag Mt.PEER_LOST Mt.ERROR true (errorBody status Mt.PEER_LOST)
  if s.isSafe then ends s St.FAULT
  else if hub != s.hubAddr || 16 < n then ends s St.BAD_ARG
  else ends (s.peerLost (leAt b 0 1) ((List.range n).map (fun i => leAt b (4 + 2 * i) 2))) St.OK

/-- A TIME_PING whose last flit was accepted at the GCN and epoch `rx` (R365); GCN_TX is filled in when the first flit is selected. -/
def Hub.portPing (s : Hub) (tag : Nat) (b : List Byte) (rx : Nat × Nat) : Hub :=
  if s.isSafe then s.portRespond tag Mt.TIME_PING Mt.ERROR true (errorBody St.FAULT Mt.TIME_PING)
  else s.portRespond tag Mt.TIME_PING Mt.TIME_PONG true (le 8 rx.1 ++ zeros 8 ++ le 4 rx.2 ++ b.take 8)

/-- Executes a request that passed the format check. -/
def Hub.portExec (s : Hub) (m : List Byte) (rx : Nat × Nat) : Hub :=
  let type := Pm.type m
  let tag := Pm.tag m
  let hub := Pm.hub m
  let b := Pm.body m
  if type == Mt.XPKG_REPORT then s.portXpkgReport b
  else
    let s := s.wr F.LINK_TAG_LAST tag
    if type == Mt.REG_READ then s.portReg false tag hub b
    else if type == Mt.REG_WRITE then s.portReg true tag hub b
    else if type == Mt.CORK then s.portCork tag hub b
    else if type == Mt.XPKG then s.portXpkg tag hub b
    else if type == Mt.PEER_LOST then s.portPeerLost tag hub b
    else s.portPing tag b rx

/-! ### Arrival, R357, R359, R363 -/

/-- A relayed access of the port awaits its answer. -/
def Hub.relayPending (s : Hub) : Bool :=
  s.fed.reqs.any (fun q => match q.who with | .port .. => true | _ => false)

/-- A message of the TDC in its turn: the format check, the TAG table, its execution. -/
def Hub.portTake (s : Hub) (m : List Byte) (rx : Nat × Nat) : Hub :=
  let type := Pm.type m
  let tag := Pm.tag m
  if !messageOk m then
    let s := (s.err Er.LINK_MSG_FORMAT).raiseOf Ev.MSG_ERROR type
    s.portRespond tag type Mt.ERROR true (errorBody St.BAD_ARG type)
  else
    match s.link.tagTab.find? (fun e => e.tag == tag && e.type == type) with
    | some e =>
      let s := (s.bump F.LINK_TAG_DUPS 1).raiseOf Ev.DUP_COMMAND (tag % 2 ^ 14)
      let s := if e.accept.isEmpty then s else s.portSend e.accept
      if e.resp.isEmpty then s else s.portSend e.resp
    | none => s.portExec m rx

/-- A complete COMMAND-class message: requests are executed in arrival order, one at a time. -/
def Hub.portRx (s : Hub) (m : List Byte) : Hub :=
  if s.relayPending || !s.link.reqQ.isEmpty then s.mapLink (fun l => { l with reqQ := l.reqQ ++ [(m, s.time.gcn, s.epoch)] }) else s.portTake m (s.time.gcn, s.epoch)

/-- The requests that waited for a relayed access go on once it is answered. -/
def Hub.portNext : Nat → Hub → Hub
  | 0, s => s
  | n + 1, s =>
    match s.link.reqQ with
    | [] => s
    | m :: rest => if s.relayPending then s else portNext n ((s.mapLink (fun l => { l with reqQ := rest })).portTake m.1 m.2)

/-- A message reaches the hub whole: only while the link is UP. -/
def Hub.portMessage (s : Hub) (type tag hub : Nat) (body : List Byte) : Hub :=
  if s.linkUp then s.portRx (message type 0 tag hub body) else s

/-- A flit reaches the link layer; the messages it completes are taken. (DESIGN CHOICE, log entry 183) -/
def Hub.flitRx (s : Hub) (f : List Byte) : Hub :=
  let (ms, s) := s.linkRx f
  doEach ms s Hub.portRx

/-- A codeword reaches the receive PCS (R343); its flits go to the link layer in order. -/
def Hub.pcsTake (s : Hub) (w : List Nat) : Hub :=
  let (fs, s) := s.codewordRx w
  doEach fs s Hub.flitRx

/-- A codeword reaches the hub from the lane; with PCS_LOOPBACK the receive PCS is fed by the transmit PCS instead (R371). -/
def Hub.pcsRx (s : Hub) (w : List Nat) : Hub := if s.flag F.LINK_CTRL_PCS_LOOPBACK then s else s.pcsTake w

/-- One HCLK of the PCS: a codeword that the transmit PCS completes reaches the receive PCS under PCS_LOOPBACK. -/
def Hub.pcsTick (s : Hub) : Hub :=
  let t := s.pcsSend
  if s.link.cwOut.length < t.link.cwOut.length && s.flag F.LINK_CTRL_PCS_LOOPBACK then t.pcsTake (t.link.cwOut.getLastD []) else t

end Sys2Proof.Machine
end

