-- ==== Sys2Proof/Machine/CoopExec.lean ====
section
/-! DEFINITION. The instructions by which a cooper reaches other units (R442 to R444): RD, WR, CORK, HARV, RACK and XREG. -/

namespace Sys2Proof.Machine

/-- The end of an instruction that has a status: the cooper's last status, and W[D]. -/
def Hub.coopGot (s : Hub) (c rd status value : Nat) : Hub :=
  s.setCoop c ({ s.coop c with lastStatus := status }.setReg rd value)

/-- Writes a word of the data store of a cooper. -/
def Hub.coopStore (s : Hub) (c a v : Nat) : Hub :=
  let x := s.coop c
  s.setCoop c { x with data := x.data.set a (BitVec.ofNat 32 v) }

/-- RD: W[D] receives the register, 0 when the access fails. -/
def Hub.coopRd (s : Hub) (c : Nat) : Hub :=
  s.coopDo c Co.RD (fun s w _ =>
    let s := s.regRead (coopReq c) (((s.coop c).reg (Iw.f2 w) + Iw.imm w) % 0x100000)
    let a := s.response (coopReq c)
    s.coopGot c (Iw.f1 w) a.status (if a.status == St.OK then a.value else 0))

/-- WR: W[D] receives the status. -/
def Hub.coopWr (s : Hub) (c : Nat) : Hub :=
  s.coopDo c Co.WR (fun s w _ =>
    let x := s.coop c
    let s := s.regWrite (coopReq c) (x.reg (Iw.f2 w) % 0x100000) (x.reg (Iw.f3 w))
    let st := (s.response (coopReq c)).status
    s.coopGot c (Iw.f1 w) st st)

/-- CORK: the block is the body of the port CORK message; W[D] receives the acceptance status. -/
def Hub.coopCork (s : Hub) (c : Nat) : Hub :=
  s.coopDo c Co.CORK (fun s w at_ => s.coopBlock c w at_ 7 (fun s _ l =>
    let b := l.flatMap (le 4)
    let (ans, s) := s.corkIssue (.coop c) false (leAt b 0 1) (corkBodyArgs b) (leAt b 20 2) (leAt b 24 4)
    s.coopGot c (Iw.f1 w) ans.status ans.status))

/-- Runs `f` with the decant arguments of a block in place of those of the HARV page, which keep their values (R443). -/
def Hub.withDecantArgs (s : Hub) (vintage w7 : Nat) (f : Hub → Nat × Hub) : Nat × Hub :=
  let v := s.reg R.HARV_VINTAGE
  let z := s.reg R.HARV_DECANT_SLOT
  let d := s.reg R.HARV_DECANT_DOMAIN
  let s := ((s.setReg R.HARV_VINTAGE vintage).setReg R.HARV_DECANT_SLOT (bitsOf w7 8 6)).setReg R.HARV_DECANT_DOMAIN (bitsOf w7 16 8)
  let (st, s) := f s
  (st, ((s.setReg R.HARV_VINTAGE v).setReg R.HARV_DECANT_SLOT z).setReg R.HARV_DECANT_DOMAIN d)

/-- A harvest command of a cooper's block: its acceptance status. A refused one leaves HARV_STATUS as it is. -/
def Hub.coopHarvIssue (s : Hub) (c : Nat) (l : List Nat) : Nat × Hub :=
  let w (i : Nat) : Nat := nth l i 0
  match w 0 with
  | 1 => s.harvStart { a := scopeOf (w 1), sel := w 2, rect := w 3, range := w 4, vintage := w 5, ref := w 6, snap := w 7 % 256,
                       req := reqCode (coopReq c) }
  | 2 => s.withDecantArgs (w 5) (w 7) (fun s =>
      let st := s.decantCheck
      if st.1 == St.OK then (St.OK, s.decantAccept.harvStatus 2 St.OK false)
      else (st.1, match st.2 with | some r => s.raiseOf Ev.REGION_MISMATCH r | none => s))
  | 3 => s.harvAbortIssue
  | 4 => s.withDecantArgs (w 5) (w 7) (fun s =>
      let st := s.decantReleaseCheck
      (st, if st == St.OK then s.decantRelease else s))
  | _ => (if s.isSafe then St.FAULT else if s.scrapped then St.DENIED else St.BAD_ARG, s)

/-- HARV: on OK of a harvest the block's word 5 receives the vintage number used. (DEDUCED, log entry 214) -/
def Hub.coopHarv (s : Hub) (c : Nat) : Hub :=
  s.coopDo c Co.HARV (fun s w at_ => s.coopBlock c w at_ 8 (fun s a l =>
    let (st, s) := s.coopHarvIssue c l
    let s := if st == St.OK && nth l 0 0 == 1 then s.coopStore c (a + 5) s.harv.vintage else s
    s.coopGot c (Iw.f1 w) st st))

/-- RACK: on OK of a request the block's word 3 receives the request ID. The script waits while a vintage is looked up at another hub. -/
def Hub.coopRack (s : Hub) (c : Nat) : Hub :=
  s.coopDo c Co.RACK (fun s w at_ => s.coopBlock c w at_ 4 (fun s a l =>
    let op := nth l 0 0
    let obj := nth l 3 0
    let id := s.rack.nextId
    match s.rackIssue false (some (c, Iw.f1 w, a)) op { hub := nth l 1 0 % 2048, vintage := nth l 2 0, obj := obj } with
    | (some st, s) =>
      let s := if st == St.OK && (op == 1 || op == 2) then s.coopStore c (a + 3) (setBits obj 24 8 id) else s
      s.coopGot c (Iw.f1 w) st st
    | (none, s) => s.setCoop c { s.coop c with st := .waiting, wait := .remote (Iw.f1 w) }))

/-- XREG: a register access at another hub of the package over the tendrils; the script waits for its answer. (DEDUCED, log entry 213) -/
def Hub.coopXreg (s : Hub) (c : Nat) : Hub :=
  s.coopDo c Co.XREG (fun s w at_ => s.coopBlock c w at_ 4 (fun s a l =>
    let op := nth l 0 0
    let hub := nth l 1 0 % 2048
    let addr := nth l 2 0
    let rd := Iw.f1 w
    if !(op == 1 || op == 2) || packageOf hub != packageOf s.hubAddr then s.coopGot c rd St.BAD_ARG St.BAD_ARG
    else
      let s := s.setCoop c { s.coop c with st := .waiting, wait := .remote rd }
      if op == 1 then s.sendRequest hub Op.REG_READ (le 4 addr) (.coop c rd false) a
      else s.sendRequest hub Op.REG_WRITE (le 4 addr ++ le 4 (nth l 3 0)) (.coop c rd true) a))

end Sys2Proof.Machine
end

