-- ==== Sys2Proof/Machine/Startup.lean ====
section
/-! DEFINITION. Start-up, step by step (13_startup_lifecycle.md, R372 to R385): fuses, the image from flash or from the flood, its sections,
boot BIST, and the restart of a FIELD level. Durations of steps 2, 3, 5 and 6 are not modelled: each step's work is done at the command
that starts it. -/

namespace Sys2Proof.Machine

/-! ### Steps 2 and 3: fuses, R376, R377, R480 -/

/-- Rows whose ECC can fail: all but the life-cycle copies and the bad-tile list. -/
def eccRow (r : Nat) : Bool := (3 ≤ r && r < 64) || (320 ≤ r && r < 512)

/-- Reads the fuse array: rows corrected and rows that cannot be read. The TRIM outputs take rows 8 to 11, row 8 lowest, a row that
cannot be read as 0 (R376, R489). -/
def Hub.fuseEcc (s : Hub) (corr uncorr : List Nat) : Hub :=
  let dead := (List.range 512).filter (fun r => eccRow r && uncorr.contains r)
  let fixed := corr.filter (fun r => eccRow r && !dead.contains r)
  let s := { s with boot := { s.boot with deadRows := dead, fixedRows := fixed, keyBad := dead.any (fun r => 12 ≤ r && r < 24) } }
  let s := { s with pins := { s.pins with trim := BitVec.ofNat 128 ((countFrom 8 4).foldr (fun r acc => acc * 2 ^ 32 + s.fuseUsed r) 0) } }
  let s := doEach fixed s (fun s _ => (s.eccCorr Pg.BOOT).err Er.BOOT_FUSE_ECC_CORR)
  doEach dead s (fun s r => (s.err Er.BOOT_FUSE_ECC_UNCORR).raiseOf Ev.FUSE_ECC r)

/-- The register fields that take their start-up values from the fuses, with those values (R480). -/
def Hub.fuseFields (s : Hub) : List (Fld × Nat) :=
  let ident := s.fuseUsed 3
  let opt := s.fuseUsed 6
  [ (F.TIME_CTRL_MASTER, bitsOf ident 8 1), (F.TIME_CLK_DIV_WEST, bitsOf opt 21 2), (F.TIME_CLK_DIV_EAST, bitsOf opt 23 2),
    (F.GLB_GRID_COLUMNS, bitsOf opt 0 7 + 1), (F.GLB_GRID_ROWS, bitsOf opt 7 7 + 1), (F.GLB_GRID_SEAM, bitsOf opt 14 7),
    (F.CELL_CTRL_KEEP, bitsOf ident 12 1), (F.RACK_SERVE_0_FIELDS, bitsOf (s.fuseUsed 7) 0 21), (F.FED_CTRL_EN, bitsOf ident 9 1),
    (F.LINK_CTRL_EN, bitsOf ident 10 1), (F.PWR_STATIC_MW, bitsOf (s.fuseUsed 32) 0 16) ] ++
  (List.range 16).map (fun i => (⟨R.PWR_COEF_0 + 4 * i, 0, 16⟩, bitsOf (s.fuseUsed (24 + i / 2)) (16 * (i % 2)) 16))

/-- The identity of the hub (R372, R376): address, LEAD, PAIR. -/
def Hub.fuseIdentity (s : Hub) (pkg : Nat) : Hub :=
  let ident := s.fuseUsed 3
  let hub := pkg % 16 * 128 + bitsOf ident 0 7
  let lead := bitsOf ident 7 1
  let pair := bitsOf ident 11 1
  let s := (((s.wr F.GLB_HUB_HUB hub).wr F.GLB_HUB_LEAD lead).wr F.GLB_HUB_PAIR pair).wr F.BOOT_STATUS_PKG_ID pkg
  let s := (s.wr F.FED_SELF_HUB hub).wr F.FED_SELF_LEAD lead
  if pair == 1 then (doEach (List.range 0x2C) s (fun s p => s.wr (F.PG_VERSION_PAIR.lane p) 1)).wr F.PAIR_STATE_STANDBY 1 else s

/-- The life-cycle state and what the LIFE and BOOT pages show of the fuses (R386, R395, R396). `life` is the state that takes effect. -/
def Hub.fuseLife (s : Hub) (life : Nat) : Hub :=
  let s := { s with boot := { s.boot with life := life } }
  let s := (s.wr F.LIFE_STATE_STATE life).wr F.LIFE_STATE_KEY_SET (b2n s.keySet)
  let s := (s.wr F.LIFE_STATE_BAD_USED s.badUsed.length).wr F.LIFE_STATE_BAD_PARITY
    (sat 4 (s.badUsed.filter (fun n => !badParityOk (s.badEntry n))).length)
  let s := (s.setReg R.LIFE_DEVICE_ID_LO (s.fuseUsed 4)).setReg R.LIFE_DEVICE_ID_HI (s.fuseUsed 5)
  s.wr F.BOOT_BIST_SEL_TARGETS (if life == Life.MANUFACTURE || life == Life.RETURN then 0x1F else 0)

/-- A tile out of service: its clock enable low and its reset asserted. (DEDUCED, log entry 45) -/
def Hub.outAtStart (s : Hub) (t : Nat) : Hub := s.setTile t { s.tile t with st := .outOfService, isolated := true, inReset := true }

/-- Steps 2 and 3 with the fuses as they stand. `life` is the life-cycle state in force. -/
def Hub.loadFuses (s : Hub) (pkg life : Nat) : Hub :=
  let s := doEach s.fuseFields s (fun s p => s.wr p.1 p.2)
  let s := (s.fuseIdentity pkg).fuseLife life
  let s := doEach s.badTiles s (fun s t => (s.outAtStart t).setTile t { (s.outAtStart t).tile t with bad := true })
  let s := { s with pins := { s.pins with tileHold := true } }
  let s := s.linkCtrlWritten
  let s := doEach [0, 1, 2, 3] s (fun s t => s.sendTrain t 0 0)
  s.raise Ev.FUSE_LOADED

/-! ### Step 6: sections, R384 and R385 -/

/-- Sections or records were skipped or rejected: SECTION_SKIPPED once per section. -/
def Hub.skipped (s : Hub) (index n : Nat) : Hub := if n == 0 then s else s.raiseOf Ev.SECTION_SKIPPED index

/-- RO registers whose reset is "fuse" and that a record may set, with their fuse fields. -/
def fuseRo (addr : Nat) : List Fld :=
  if offOf addr == R.PG_VERSION then [F.PG_VERSION_PAIR.lane (pageOf addr)]
  else if addr == R.TIME_CLK_DIV then [F.TIME_CLK_DIV_WEST, F.TIME_CLK_DIV_EAST]
  else if addr == R.GLB_GRID then [F.GLB_GRID_COLUMNS, F.GLB_GRID_ROWS, F.GLB_GRID_SEAM]
  else []

/-- A record is skipped (R385). `pages` are the pages of its section, empty for any. -/
def recordSkipped (pages : List Nat) (addr : Nat) : Bool :=
  match regDef addr with
  | none => true
  | some d =>
    let all (a : Acc) : Bool := d.fields.all (fun f => f.acc == a)
    (!pages.isEmpty && !pages.contains (pageOf addr)) || all .wo || [Pg.BOOT, Pg.LIFE, Pg.AUTH].contains (pageOf addr) ||
    [R.FED_SELF, R.GLB_HUB, R.TRAY_SUMMARY].contains addr || (all .ro && (fuseRo addr).isEmpty)

/-- Applies register-write records in order; answers how many were skipped. (DEDUCED, log entry 44) -/
def Hub.applyRecords (pages : List Nat) : Nat → Nat → List Byte → Hub → Nat × Hub
  | 0, k, _, s => (k, s)
  | n + 1, k, b, s =>
    let addr := normAddr (leAt b 0 4 % 0x100000)
    let v := leAt b 4 4
    if b.length < 8 then (k, s)
    else if recordSkipped pages addr then Hub.applyRecords pages n (k + 1) (b.drop 8) s
    else
      let s := if (fuseRo addr).isEmpty then s.writeReg .mgmt addr v
        else doEach (fuseRo addr) s (fun s f => s.wr f (bitsOf v f.lo f.width))
      Hub.applyRecords pages n k (b.drop 8) s

/-- A section of register-write records. -/
def Hub.recordSection (s : Hub) (index : Nat) (pages : List Nat) (b : List Byte) : Hub :=
  let r := Hub.applyRecords pages (b.length / 8) 0 b s
  (r.2.bump F.BOOT_CFG_INFO_SKIPPED r.1).skipped index r.1

/-- The PROFILES section (R243): a rejected profile is absent. -/
def Hub.applyProfiles : Nat → Nat → List Byte → Hub → Nat × Hub
  | 0, k, _, s => (k, s)
  | n + 1, k, b, s =>
    let p := b.take 32
    if profileOk s.taste.profiles p && s.taste.profiles.length < 16 then
      Hub.applyProfiles n k (b.drop 32) { s with taste := { s.taste with profiles := s.taste.profiles ++ [p] } }
    else Hub.applyProfiles n (k + 1) (b.drop 32) s

/-- The entries of a BIST_PACK section (R405): slot, offset from PACK_BASE, pack bytes. -/
def packEntries : Nat → List Byte → List (Nat × Nat × List Byte)
  | 0, _ => []
  | n + 1, b =>
    let len := leAt b 8 4
    if b.length < 16 + len || b.isEmpty then []
    else (leAt b 0 1, leAt b 4 4, (b.drop 16).take len) :: packEntries n (b.drop (16 + len))

/-- The pack slots an image names: each is read and checked before it is valid. -/
def Hub.notePacks (s : Hub) (b : List Byte) : Hub :=
  if s.boot.packBase == 0 then s
  else doEach (packEntries (b.length / 16) b) s (fun s e =>
    if e.1 < 16 then s.setPack e.1 { target := leAt e.2.2 6 1, addr := s.boot.packBase + e.2.1, checking := true } else s)

/-- Applies one section of an image, the `index`-th. -/
def Hub.applySection (s : Hub) (index : Nat) (x : Section) : Hub :=
  match x.type with
  | 1 =>
    let s := { s with boot := { s.boot with tcsMap := leAt x.body 0 2, packBase := leAt x.body 8 8 } }
    s.recordSection index [] (x.body.drop 16)
  | 2 => doEach (List.range (least 4096 (x.body.length / 2))) s (fun s i =>
      let e := leAt x.body (2 * i) 2
      if e < 0x4000 then s.outAtStart e else s)
  | 3 =>
    let r := s.coopSection x.body
    if r.1 then r.2 else (r.2.bump F.BOOT_CFG_INFO_SKIPPED 1).skipped index 1
  | 4 =>
    let r := Hub.applyProfiles (ceilDiv x.body.length 32) 0 x.body s
    (r.2.bump F.BOOT_CFG_INFO_REJ_PROFILES r.1).skipped index r.1
  | 5 => s.recordSection index [Pg.TRACEF] x.body
  | 6 => s.recordSection index [Pg.HANG, Pg.RSET, Pg.CELL, Pg.RACK, Pg.PWR, Pg.TASTE, Pg.NUMW] x.body
  | 7 => s.notePacks x.body
  | _ => (s.bump F.BOOT_CFG_INFO_IGNORED 1).skipped index 1

/-- Applies the sections of an image that are the hub's, in image order. -/
def Hub.applySections (s : Hub) (image : List Byte) : Hub :=
  let l := (imageSections image).getD []
  let s := { s.setReg R.BOOT_CFG_INFO 0 with taste := { s.taste with profiles := [] } }
  doEach (List.range l.length) s (fun s i =>
    match l[i]? with
    | some x => if s.sectionMine x then s.applySection i x else s
    | none => s)

/-- The fields whose start-up value SOFT_RESET returns to (R462). -/
def fuseRw : List Fld :=
  [F.TIME_CTRL_MASTER, F.CELL_CTRL_KEEP, F.CELL_BASE_LO_BASE_LO, F.CELL_BASE_HI_BASE_HI, F.RACK_SERVE_0_FIELDS, F.RACK_SERVE_1_FIELDS,
   F.RACK_SERVE_2_FIELDS, F.RACK_SERVE_3_FIELDS, F.FED_CTRL_EN, F.LINK_CTRL_EN, F.PWR_STATIC_MW, F.BOOT_BIST_SEL_TARGETS] ++
  (List.range 16).map (fun i => (⟨R.PWR_COEF_0 + 4 * i, 0, 16⟩ : Fld))

/-- The values those fields have now, laid over their registers' reset values. -/
def Hub.startValues (s : Hub) : Tab Word :=
  fuseRw.foldl (fun (t : Tab Word) f =>
    let old := (t.get f.addr (BitVec.ofNat 32 (regReset f.addr))).toNat
    t.set f.addr (BitVec.ofNat 32 (setBits old f.lo f.width (s.rd f)))) {}

/-- The end of step 6: the cellar's start-up (R178), the values SOFT_RESET returns to, BOOT_TIME_IMAGE; step 7 begins. -/
def Hub.endStep6 (s : Hub) : Hub :=
  let s := s.cellarStartup (s.reg64 R.CELL_BASE_LO != 0)
  let s := { s with boot := { s.boot with fuseRegs := s.startValues, stage := [], header := [], reading := false, flooding := false } }
  (s.wr F.BOOT_TIME_IMAGE_HCLK (sat 32 s.time.hclk)).setStep 7

/-- Factory defaults for a reason (R383). (DEDUCED, log entry 41) -/
def Hub.useDefaults (s : Hub) (reason : Nat) : Hub :=
  let s := { s with boot := { s.boot with kept := [] } }
  let s := (s.wr F.BOOT_STATUS_CFG_DEFAULTED 1).wr F.BOOT_STATUS_DEFAULT_REASON reason
  (s.raiseOf Ev.CFG_DEFAULTED reason).endStep6

/-- An accepted image is applied (R380, R384). -/
def Hub.useImage (s : Hub) (image : List Byte) : Hub :=
  let seq := Img.seq image
  let s := { s with boot := { s.boot with kept := image } }
  let s := (s.setReg R.BOOT_IMAGE_LEN (Img.length image)).setReg R.BOOT_IMAGE_SEQ seq
  ((s.applySections image).raiseOf Ev.IMAGE_ACCEPTED (seq % 0x10000)).endStep6

/-- Step 8 begins (R372): the master establishes the time base (R44); a restarted hub keeps its own (R375). -/
def Hub.enterStep8 (s : Hub) : Hub :=
  let s := s.setStep 8
  let epoch := s.rd F.TIME_ARG_EPOCH_EPOCH
  if s.flag F.TIME_STATE_IS_MASTER && !s.timeOk && !s.isSafe && !s.flag F.BOOT_STATUS_FIELD_RESTART then s.establish (if epoch == 0 then 1 else epoch) else s

/-! ### Steps 1 to 4 -/

/-- The rising edge of PWR_GOOD (R372): `pkg` is PKG_ID, `burnt` what the fuse array holds by row, `corr` and `uncorr` the rows whose ECC
corrected or failed. A hub that is powered already sees no edge. -/
def Hub.powerGood (s : Hub) (pkg : Nat) (burnt : List (Nat × Nat)) (corr uncorr : List Nat) : Hub :=
  if s.time.powered then s
  else
    let s : Hub := { freeCount := s.freeCount, store := s.store, boot := { fuses := s.boot.fuses }, time := { powered := true } }
    let s := doEach burnt s (fun s p => s.burn (p.1 % 512) p.2)
    let s := s.fuseEcc corr uncorr
    let life := lifeOf s.lifeBits
    let s := s.loadFuses pkg (life.getD Life.SCRAPPED)
    let s := if life.isNone then (s.wr F.LIFE_STATE_INVALID 1).raise Ev.LC_INVALID else s
    let s := s.wr F.TIME_STATE_IS_MASTER (b2n (s.isLead && s.flag F.TIME_CTRL_MASTER))
    if s.boot.life == Life.BLANK then
      let s := (s.wr F.BOOT_STATUS_CFG_DEFAULTED 1).wr F.BOOT_STATUS_DEFAULT_REASON Dr.BLANK
      ({ s with boot := { s.boot with fuseRegs := s.startValues } }).raiseOf Ev.CFG_DEFAULTED Dr.BLANK |>.enterStep8
    else s.setStep 4

/-- The fall of PWR_GOOD (R482): the block is reset; what the fuses hold stays. -/
def Hub.powerFall (s : Hub) : Hub := { freeCount := s.freeCount, boot := { fuses := s.boot.fuses } }

/-- The master's wait for a competing master is over (R45): it reads the flash. -/
def Hub.masterWait (s : Hub) : Hub :=
  if s.inStep 4 && s.flag F.TIME_STATE_IS_MASTER && !s.boot.reading && s.elapsed s.linksUpAt 4096 then
    { s with boot := { s.boot with reading := true } }
  else s

/-- A lead hub hears of no image and no master (R380): it takes the role. -/
def Hub.assumeMaster (s : Hub) : Hub :=
  let up := match s.fed.firstUp with
    | some t => s.elapsed t 4000000
    | none => false
  if s.inStep 4 && s.isLead && !s.flag F.TIME_CTRL_MASTER && !s.boot.reading && s.boot.firstFrame.isNone && !s.fed.masterSeen && up then
    let s := ((s.wr F.TIME_CTRL_MASTER 1).setMaster true).wr F.BOOT_STATUS_MASTER_ASSUMED 1
    ({ s with boot := { s.boot with reading := true } }).raise Ev.MASTER_ASSUMED
  else s

/-- Keeps image bytes by offset, unless the offset was taken before (R323). -/
def Hub.stageBytes (s : Hub) (at_ : Nat) (b : List Byte) : Hub :=
  if s.boot.stage.any (fun p => p.1 == at_) then s else { s with boot := { s.boot with stage := s.boot.stage ++ [(at_, b)] } }

/-- Floods image bytes and counts their offsets as taken. -/
def Hub.sendImage (s : Hub) (at_ : Nat) (b : List Byte) : Hub :=
  let n := ceilDiv b.length 12
  let s := s.floodImage at_ n b
  doEach (List.range n) s (fun s i => s.stageBytes (at_ + 12 * i) (padTo 12 ((b.drop (12 * i)).take 12)))

/-- The flash read fails before or in the header: IMAGE_DONE of length 0 at once (R379). -/
def Hub.noImage (s : Hub) (reason : Nat) : Hub := (s.sendImageDone 0 0 reason).useDefaults reason

/-- The master has read the 64-byte header (R379). Data lines that read all ones or all zeros are no answer. -/
def Hub.headerRead (s : Hub) (b : List Byte) : Hub :=
  if !s.inStep 4 || !s.boot.reading || s.boot.flooding then s
  else if bitAt (s.fuseUsed 6) 30 == false then s.noImage Dr.NO_IMAGE
  else if b.all (fun x => x == 0) || b.all (fun x => x == 0xFF) then (s.err Er.BOOT_XSPI).noImage Dr.NO_IMAGE
  else if headerFault b != 0 then (s.err Er.BOOT_IMAGE_CHECK).noImage (headerFault b)
  else ({ s with boot := { s.boot with header := b, flooding := true } }).sendImage 0 (b.take 60)

/-- The time master writes the packs of an image to package memory while it reads it (R384, R405). -/
def Hub.writePacks (s : Hub) (image : List Byte) : Hub :=
  let l := (imageSections image).getD []
  let base := (l.filter (fun x => x.type == 1 && s.sectionMine x)).foldl (fun _ x => leAt x.body 8 8) 0
  if base == 0 then s
  else doEach ((l.filter (fun x => x.type == 7)).map Section.body) s (fun s b =>
    doEach (packEntries (b.length / 16) b) s (fun s e => if e.1 < 16 then s.putMem (base + e.2.1) e.2.2 else s))

/-- The master has read LENGTH bytes, of which `rest` follow the header (R379, R382). `keyOk` and `sigOk` are the results of the signature
check, `eccBad` an uncorrectable word of the staging store. -/
def Hub.readComplete (s : Hub) (rest : List Byte) (keyOk sigOk eccBad : Bool) : Hub :=
  if !s.inStep 4 || !s.boot.reading || !s.boot.flooding then s
  else
    let len := Img.length s.boot.header
    let image := s.boot.header ++ padTo (len - 64) (rest.take (len - 64))
    let s := (s.sendImage 60 (image.drop 60)).writePacks image
    let fault := s.imageFault image keyOk sigOk
    if fault != 0 then (s.err Er.BOOT_IMAGE_CHECK).noImage fault
    else
      let s := (s.sendImageDone len (crc32c image) 0).wr F.BOOT_STATUS_SIG_OK (b2n s.needsSig)
      if eccBad then ((s.err Er.BOOT_STAGE_ECC).eccUncorr Pg.BOOT 0).useDefaults Dr.CHECK else s.useImage image

/-- An IMAGE frame (R323, R380): taken once per offset, forwarded, staged. -/
def Hub.imageFrame (s : Hub) (t seq at_ : Nat) (data : List Byte) : Hub :=
  let r := s.accept2 t seq
  let s := r.2
  if !r.1 || s.boot.stage.any (fun p => p.1 == at_) then s
  else
    let s := (s.flood2 (some t) Ft.IMAGE (le 4 at_ ++ padTo 12 data)).stageBytes at_ (padTo 12 (data.take 12))
    { s with boot := { s.boot with firstFrame := some (s.boot.firstFrame.getD s.time.hclk) } }

/-- The first `n` frames' worth of staged bytes, none when an offset is missing. -/
def stagedFrom (stage : List (Nat × List Byte)) : Nat → Nat → Option (List Byte)
  | 0, _ => some []
  | n + 1, at_ =>
    match stage.find? (fun p => p.1 == at_) with
    | some p => (stagedFrom stage n (at_ + 12)).map (fun b => p.2 ++ b)
    | none => none

/-- The bytes received so far are an image of `len` bytes with the CRC of IMAGE_DONE. -/
def Hub.received (s : Hub) (len crc : Nat) : Option (List Byte) :=
  let n := ceilDiv len 12
  match (if s.boot.stage.length == n then stagedFrom s.boot.stage n 0 else none) with
  | some b =>
    let b := b.take len
    if Img.length b == len && crc32c b == crc then some b else none
  | none => none

/-- The sections that apply to the hub fit the staging store. (DEDUCED, log entry 43) -/
def Hub.stageFits (s : Hub) (image : List Byte) : Bool :=
  sumNat ((((imageSections image).getD []).filter s.sectionMine).map (fun x => 16 + x.body.length)) ≤ 262144

/-- IMAGE_DONE at a receiving hub (R380). -/
def Hub.imageDone (s : Hub) (len crc reason : Nat) (eccBad : Bool) : Hub :=
  if !s.inStep 4 || s.flag F.TIME_STATE_IS_MASTER then s
  else if len == 0 then s.useDefaults (reason % 8)
  else
    match s.received len crc with
    | none => (s.err Er.BOOT_FLOOD).useDefaults Dr.CHECK
    | some b =>
      if eccBad then ((s.err Er.BOOT_STAGE_ECC).eccUncorr Pg.BOOT 0).useDefaults Dr.CHECK
      else if !s.stageFits b then (s.err Er.BOOT_IMAGE_CHECK).useDefaults Dr.TOO_LARGE
      else s.useImage b

/-- The IMAGE_DONE command of a time master. -/
def Hub.imageDoneRx (s : Hub) (h : Hdr2) (len crc reason : Nat) (eccBad : Bool) : Hub :=
  s.cmdFrame h Op.IMAGE_DONE (le 4 len ++ le 4 crc ++ le 1 reason) (fun s => s.imageDone len crc reason eccBad)

/-- A hub that waits for its image from another. (DEDUCED, log entry 53) -/
def Hub.waitsImage (s : Hub) : Bool := s.inStep 4 && !s.boot.reading && !s.flag F.TIME_STATE_IS_MASTER

/-- No IMAGE frame and no IMAGE_DONE within 6.4 ms of the links coming UP (R334, R380). -/
def Hub.imageWaitTimeout (s : Hub) : Hub :=
  if s.waitsImage && s.boot.firstFrame.isNone && s.elapsed s.linksUpAt 8000000 then s.useDefaults Dr.NO_IMAGE else s

/-- IMAGE frames but no IMAGE_DONE within 16 ms of the first (R380). -/
def Hub.imageDoneTimeout (s : Hub) : Hub :=
  match s.boot.firstFrame with
  | some t => if s.waitsImage && s.elapsed t 20000000 then (s.err Er.BOOT_FLOOD).useDefaults Dr.NO_IMAGE else s
  | none => s

/-! ### Step 7: boot BIST, R373, R403, R409 -/

/-- The units of a target. -/
def Hub.bootUnits (s : Hub) (target : Nat) : List Nat :=
  match target with
  | 0 => if s.isPair then [0, 1] else [0]
  | 1 => List.range 16
  | 2 => List.range 4
  | 3 => List.range (s.rd F.GLB_GRID_COLUMNS)
  | _ => s.gridTiles.filter (fun t => (s.tile t).st != .outOfService)

/-- The hub logic was tested (R403, R409): the cores that failed, and the re-initialisation. -/
def Hub.bootLogic (s : Hub) (failed : List Nat) : Hub :=
  let s := if s.boot.kept.isEmpty then s else s.applySections s.boot.kept
  let s := s.cellarStartup (s.reg64 R.CELL_BASE_LO != 0)
  if failed.isEmpty then s
  else if !s.isPair || (failed.contains 0 && failed.contains 1) then s.enterSafe Sc.HUB_LOGIC_BIST
  else (s.wr F.PAIR_STATE_ACTIVE (if failed.contains 0 then 1 else 0)).standbyLost

/-- One unit's run of the boot BIST. -/
def Hub.bootRun (s : Hub) (f : BistFind) : Hub :=
  let (p, s) := s.takePack f.target
  let run : Run := { target := f.target, unit := f.unit, packEn := p.isSome, pack := p.getD 0 }
  if f.target == 0 then
    let s := s.setResult 0 f.unit { outcome := f.outcome, valid := true, packUsed := p.isSome, randomFail := f.randomFail,
                                    info := f.info % 256, got := f.got, want := f.want }
    let s := s.raiseOf Ev.BIST_STARTED f.unit
    if f.outcome == Bo.PASS then (s.bump F.BIST_PASSES_COUNT 1).raiseOf Ev.BIST_PASS f.unit
    else (s.bump F.BIST_PASSES_FAILS 1).raiseOf Ev.BIST_FAIL f.unit
  else (s.bistStart run).bistEnd run f.outcome f.randomFail f.info f.got f.want

/-- The end of step 7: the runs that ended, the targets among BOOT_BIST_SEL that were completed; the rest are NOT_RUN. Then step 8. -/
def Hub.endStep7 (s : Hub) (done : List Nat) (found : List BistFind) : Hub :=
  let sel := maskList 5 (s.rd F.BOOT_BIST_SEL_TARGETS)
  let ran := sel.filter done.contains
  let found := found.filter (fun f => ran.contains f.target && (s.bootUnits f.target).contains f.unit)
  let failed := ran.filter (fun t => found.any (fun f => f.target == t && f.outcome != Bo.PASS))
  let cut := sel.filter (fun t => !ran.contains t)
  let s := doEach found s Hub.bootRun
  let s := if ran.contains 0 then
      s.bootLogic ((found.filter (fun f => f.target == 0 && f.outcome != Bo.PASS)).map BistFind.unit)
    else s
  let s := doEach cut s (fun s t => doEach (s.bootUnits t) s (fun s u => s.setResult t u { outcome := Bo.NOT_RUN }))
  let s := ((s.wr F.BOOT_BIST_RESULT_RUN (listMask ran)).wr F.BOOT_BIST_RESULT_FAILED (listMask failed)).wr
    F.BOOT_BIST_RESULT_NOT_RUN (listMask cut)
  (s.raiseOf Ev.BOOT_BIST_DONE (listMask failed)).enterStep8

/-- Every target of the boot BIST is done. (DESIGN CHOICE, log entry 46) -/
def Hub.bootBistDone (s : Hub) (found : List BistFind) : Hub := if s.inStep 7 then s.endStep7 [0, 1, 2, 3, 4] found else s

/-- BOOT_BIST_LIMIT, or 39 ms after power-good, ends step 7 (R373); `done` are the targets completed. -/
def Hub.bootBistTimeout (s : Hub) (done : List Nat) (found : List BistFind) : Hub :=
  let late := !s.flag F.BOOT_STATUS_FIELD_RESTART && 48750000 ≤ s.time.hclk
  if s.inStep 7 && (late || s.elapsed s.boot.stepAt (s.rd F.BOOT_BIST_LIMIT_HCLK)) then s.endStep7 done found else s

/-! ### A FIELD level, R297 and R375 -/

/-- A tile after a FIELD level: parked or out of service; the counts of its outstanding requests are the spur's. -/
def Tile.restarted (x : Tile) : Tile :=
  { st := if x.mapped then .outOfService else .parked, bad := x.bad, isolated := x.isolated, inReset := x.isolated,
    rdOut := x.rdOut, wrOut := x.wrOut, discard := x.discard }

/-- What a monitor keeps: the fence, which the ladder withdraws at its end. -/
def Monitor.restarted (m : Monitor) : Monitor :=
  { fenced := m.fenced, fenceAt := m.fenceAt, fenceAck := m.fenceAck, abandon := m.abandon }

/-- Registers a FIELD level keeps: the time base, the active core, the life-cycle command that waits, the reset ladder's own, and what the
BOOT page says of the image. -/
def fieldKept : List Nat :=
  [R.TIME_EPOCH, R.TIME_STATE, R.TIME_CLK_DIV, R.TIME_ORIGIN_W, R.TIME_ORIGIN_E, R.PAIR_STATE, R.LIFE_STATE, R.RSET_STATUS, R.TRAY_ALERT,
   R.HANG_FENCED_LO, R.HANG_FENCED_HI, R.BOOT_STATUS, R.BOOT_IMAGE_LEN, R.BOOT_IMAGE_SEQ]

/-- The hub core as it restarts: everything of the block at reset but what a FIELD level keeps. -/
def Hub.restarted (s : Hub) : Hub :=
  { regs := ⟨s.regs.cells.filter (fun (p : Nat × Word) => fieldKept.contains p.1)⟩,
    time := { hclk := s.time.hclk, powered := true, gcn := s.time.gcn, numwFrom := s.now },
    tiles := ⟨s.tiles.cells.map (fun (p : Nat × Tile) => (p.1, p.2.restarted))⟩,
    power := { winStart := s.now, short := s.now % powerWindow != 0 },
    hang := ⟨s.hang.cells.map (fun (p : Nat × Monitor) => (p.1, p.2.restarted))⟩,
    ladder := { s.ladder with restarted := true },
    fed := { joining := true, tend := ⟨s.fed.tend.cells.map (fun (p : Nat × Tendril) => (p.1, { out := p.2.out }))⟩ },
    link := { since := s.time.hclk, txOut := s.link.txOut, cwOut := s.link.cwOut },
    boot := { fuses := s.boot.fuses, life := s.boot.life, kept := s.boot.kept, deadRows := s.boot.deadRows, fixedRows := s.boot.fixedRows, keyBad := s.boot.keyBad },
    freeCount := s.freeCount, store := s.store, writes := s.writes }

/-- A FIELD level has reset its tiles: the hub core restarts at step 2 (R375). A harvest the level ended is closed first, the rack link
goes DOWN (R368). (DEDUCED, log entry 54) -/
def Hub.fieldRestart (s : Hub) : Hub :=
  let pkg := s.rd F.BOOT_STATUS_PKG_ID
  let reason := s.rd F.BOOT_STATUS_DEFAULT_REASON
  let div := s.reg R.TIME_CLK_DIV
  let bits := s.reg R.LIFE_STATE
  let s := if s.harv.op == 1 && s.harv.ended.isSome then s.harvDone false else s
  let pma := s.rd F.LINK_STATE_PMA_READY
  let up := s.linkSt == Lk.INIT || s.linkSt == Lk.UP
  let s := s.restarted
  let s := if up then s.raiseOf Ev.LINK_DOWN Dc.COMMAND else s
  let s := ((s.wr F.LINK_STATE_PMA_READY pma).wr F.LINK_STATE_DOWN_CAUSE Dc.COMMAND)
  let s := ((s.fuseEcc s.boot.fixedRows s.boot.deadRows).loadFuses pkg s.boot.life).setReg R.TIME_CLK_DIV (div % 16)
  let s := s.timeCtrlWritten
  let s := if s.rd F.TIME_STATE_STATE == 2 then s.wr F.TIME_STATE_STATE (b2n s.timeOk) else s
  let s := (s.wr F.LIFE_STATE_PENDING (bitsOf bits 4 1)).wr F.LIFE_STATE_PENDING_STATE (bitsOf bits 5 3)
  let s := ((s.wr F.BOOT_STATUS_FIELD_RESTART 1).wr F.BOOT_STATUS_PACKS_VALID 0).wr F.BOOT_STATUS_NO_TIME 0
  if s.boot.life == Life.BLANK then s.enterStep8
  else if s.boot.kept.isEmpty then s.useDefaults reason
  else s.useImage s.boot.kept

/-- A FIELD or CHIP level whose tiles are all done restarts the hub core, once. -/
def Hub.fieldDue (s : Hub) : Hub :=
  let l := s.ladder
  if l.active && (l.level == Lv.FIELD || l.level == Lv.CHIP) && l.begun && l.tilesLeft.isEmpty && l.failed.isNone && !l.restarted then
    s.fieldRestart
  else s

end Sys2Proof.Machine
end

