-- ==== Sys2Proof/Machine/Spur.lean ====
section
/-! DEFINITION. The interface between a spur, its tile and the field memory port (18_integration.md, R491 to R502; R40, R72, R106). -/

namespace Sys2Proof.Machine

/-- The cases of R502: the spur discards deliveries. -/
def Tile.discards (x : Tile) : Bool := x.discard || x.inReset || x.isolated || x.st == .underTest

/-- Deliveries are discarded until both counts are zero. -/
def Tile.drained (x : Tile) : Tile := if x.rdOut == 0 && x.wrOut == 0 then { x with discard := false } else x

/-- A delivery is presented to the tile on T_DLV_*, its ERR with it (R107, R491), and the tile writes the bytes with BYTE_EN into its SRAM. -/
def Hub.deliver (s : Hub) (t : Nat) (d : Delivery) : Hub :=
  doEach (List.range 64) (s.setTile t { s.tile t with dlvLast := some d }) (fun s i =>
    if bitAt d.be i then s.putSram t (64 * (d.dest % 1024) + i) [(d.data[i]?).getD 0] else s)

/-- A delivery of the field memory port is offered to a spur (R72, R493, R502). With 64 entries caught M_DLV_READY is low and it waits at the
port. A discarded one counts RD_OUT down; every other is counted down at M_RD_DONE (log entry 30). -/
def Hub.delivery (s : Hub) (t : Nat) (d : Delivery) : Hub :=
  let x := s.tile t
  let d := { d with
    arrive := s.now % 2 ^ 32
    data := (List.range 64).map (fun i => if bitAt d.be i then (d.data[i]?).getD 0 else 0) }
  if x.discards then s.setTile t { x with rdOut := x.rdOut - 1 }.drained
  else if 64 ≤ x.catchBuf.length then s
  else if s.tileRuns t && x.catchBuf.isEmpty then s.deliver t d
  else s.setTile t { x with catchBuf := x.catchBuf ++ [d] }

/-- M_RD_DONE or M_WR_ACK of a tile (R106). -/
def Hub.completion (s : Hub) (t : Nat) (rd : Bool) : Hub :=
  let x := s.tile t
  s.setTile t (if rd then { x with rdOut := x.rdOut - 1 } else { x with wrOut := x.wrOut - 1 }).drained

/-- The tile issues memory accesses (T_RD_ISSUE, T_WR_ISSUE). -/
def Hub.issues (s : Hub) (t reads writes : Nat) : Hub :=
  if reads == 0 && writes == 0 then s
  else
    let x := s.tile t
    s.setTile t { x with rdOut := sat 16 (x.rdOut + reads), wrOut := sat 16 (x.wrOut + writes) }

/-- A strobe of the tile at its spur: one during the isolation watch is noted (R298), one on an edge without clock enable is a strobe fault
(R287). -/
def Tile.noteStrobe (x : Tile) (enabled : Bool) : Tile :=
  let x := { x with strobeSeen := x.strobeSeen || x.watchAt.isSome }
  if enabled then x else x.strobeBad

/-- The tile's SCN increment strobe (R11, R40): the shadow advances, and the oldest caught delivery is presented (R72). `sram` and `state` are
the bytes of SRAM and of control state that the tile's own cycle changes. A strobe seen before a re-admitted tile's clock is released fails
the re-admission (R302). -/
def Hub.scnStrobe (s : Hub) (t : Nat) (sram state : List (Nat × List Byte)) : Hub :=
  let x := s.tile t
  if x.readmit == 2 then s.readmitFail t 3
  else
    let s := doEach sram s (fun s w => s.putSram t (w.1 % 65536) (w.2.take (65536 - w.1 % 65536)))
    let s := doEach state s (fun s w => s.putScan t (w.1 % 2048) (w.2.take (2048 - w.1 % 2048)))
    let x := x.noteStrobe (s.tileRuns t)
    let s := s.setTile t (if x.st == .inContext then { x with scn := (x.scn + 1) % 2 ^ 64, strobed := true } else x)
    match x.catchBuf with
    | d :: rest =>
      if x.gated || x.discards then s else (s.setTile t { s.tile t with catchBuf := rest }).deliver t d
    | [] => s

/-- The kind number and the address of an access (R195). -/
def Access.code : Access → Nat × Nat
  | .load a => (0, a)
  | .store a => (1, a)
  | .delivery a => (2, a)
  | .fetch a => (3, a)

/-- The beats of a slot and SCN in one HCLK period are merged on their way up the trellis (R282). -/
def Hub.beatMerged (b : List Beat) (slot scn at_ : Nat) : List Beat :=
  if b.any (fun e => e.slot == slot && e.scn == scn && e.at_ == at_) then
    b.map (fun e => if e.slot == slot && e.scn == scn && e.at_ == at_ then { e with count := e.count + 1 } else e)
  else b ++ [{ slot := slot, scn := scn, count := 1, at_ := at_ }]

/-- A beat strobe: the spur of a tile in a context sends a report with its slot, its shadow SCN and a count of 1 (R282). -/
def Hub.beatSent (s : Hub) (t : Nat) : Hub :=
  let x := s.tile t
  if x.st != .inContext then s
  else { s with hangCtl := { s.hangCtl with beats := Hub.beatMerged s.hangCtl.beats x.slot x.scn s.time.hclk } }

/-- What the tile's taps show on one executed edge: the trace unit, the numeric watch, the outstanding counts, the sampler. -/
def Hub.tapEdge (s : Hub) (t : Nat) (x : Taps) : Hub :=
  let s := ((s.spurEdge t x.branch (x.acc.map Access.code) x.event).numwStrobe t x.kinds).issues t x.reads x.writes
  let s := if (s.tile t).watchAt.isSome then s.setTile t { s.tile t with strobeSeen := true } else s
  let s := if x.beat then s.beatSent t else s
  if x.written then s.resultWritten t else s

end Sys2Proof.Machine
end

