-- ==== Sys2Proof/Machine/Run.lean ====
section
/-! DEFINITION. What every command ends with: the units that wait for one another go on, and the occurrences raised on this edge are delivered
to their consumers (01_architecture.md, R22 and R23). -/

namespace Sys2Proof.Machine

/-! ### Delivery of events, R22 and R23 -/

/-- Codes whose unit is a tile that may be in a context (R93, R130, R217, R274, R311). -/
def tileCodes : List Nat :=
  [Ev.CORK_SKEW, Ev.CORK_TIMEOUT, Ev.WAVE_CRC, Ev.HARV_GAP, Ev.NOT_QUIET, Ev.DECANT_FAILED, Ev.TRIGGERED, Ev.TASTE_MISMATCH, Ev.TASTE_ILLEGAL,
   Ev.TASTE_EVID_LOCKED, Ev.DIGEST_MISMATCH, Ev.DIGEST_INCOMPLETE, Ev.NUMW_THRESHOLD, Ev.NUMW_FIRST, Ev.SCN_DIVERGE, Ev.SCN_STROBE,
   Ev.TRELLIS_SILENT]

/-- The occurrence names a tile of a context that trace may not show (R212). -/
def Hub.hiddenTile (s : Hub) (o : Occ) : Bool :=
  match o.unit with
  | some t => tileCodes.contains o.code && !o.other && (s.tile t).st == .inContext && !s.visible (s.tile t).slot
  | none => false

/-- The EVENT packet of an occurrence (R202, R212). (DEDUCED, log entry 140) -/
def Hub.eventPacket (s : Hub) (o : Occ) : List Word :=
  let hide := s.hiddenTile o
  let u := if hide then 0 else o.unit.getD 0 % 0x4000
  packet Pk.EVENT 0 0
    ([o.code + u * 65536 + b2n (o.unit.isSome && !hide) * 2 ^ 30 + b2n (o.masked || hide) * 2 ^ 31] ++ two o.gcn ++ [o.epoch, o.hub])

/-- An occurrence reaches the trace stream: the EVENT packet, counted in TRACE_EVLOSS when it cannot enter, and the hub-event trigger (R213,
R215). -/
def Hub.traceEvent (s : Hub) (o : Occ) : Hub :=
  let c := o.code / 256
  let running := s.flag F.TRACE_STATE_RUNNING
  let s := if running && s.flag F.TRACE_CTRL_EV_EN && bitAt (s.reg R.TRACEF_EVCLASS) c then
      let r := s.hubPacket (s.eventPacket o)
      if r.1 then r.2 else { r.2 with trace := { r.2.trace with evLoss := r.2.trace.evLoss.set c (sat 16 (r.2.trace.evLoss.get c 0 + 1)) } }
    else s
  if s.flag F.TRACE_TRIG_CTRL_HUBEV_EN && passes (s.reg R.TRACE_TRIG_EVENT) o.code &&
      (s.flag F.TRACE_STATE_ARMED || s.flag F.TRACE_STATE_TRIGGERED) then
    (if s.flag F.TRACE_STATE_ARMED then s.hubTrigger 2 else s).trigger 2 0 none
  else s

/-- The PG_EVENT bit of an occurrence. -/
def Hub.setEventBit (s : Hub) (o : Occ) : Hub :=
  match eventBit o.code (o.unit.getD 0) with
  | some (page, bit) =>
    let a := R.PG_EVENT + page * 0x1000
    s.setReg a (s.reg a ||| 2 ^ bit)
  | none => s

/-- One occurrence goes to every consumer that has enabled its code. -/
def Hub.deliverOne (s : Hub) (o : Occ) : Hub :=
  let s := (((s.setEventBit o).coopSend o).portEvent o).traceEvent o
  if o.code == Ev.RELEASED then s.coopRelease else s

/-- Inserts an occurrence into a list that rises by code, behind those of the same code. -/
def insertOcc (o : Occ) : List Occ → List Occ
  | [] => [o]
  | x :: rest => if o.code < x.code then o :: x :: rest else x :: insertOcc o rest

/-- The occurrences of one edge in ascending order of code, those of one code in the order raised. (DEDUCED, log entry 234) -/
def sortOccs (l : List Occ) : List Occ := l.foldl (fun l o => insertOcc o l) []

/-- Delivers the occurrences raised so far, then those their delivery raised. -/
def Hub.deliverAll : Nat → Hub → Hub
  | 0, s => { s with occs := [] }
  | n + 1, s =>
    match s.occs with
    | [] => s
    | l => Hub.deliverAll n (doEach (sortOccs l) { s with occs := [] } Hub.deliverOne)

/-! ### Units that wait -/

/-- A level of the ladder that could not go on tries again; a FIELD level whose tiles are done restarts the hub core. -/
def Hub.ladderGo (s : Hub) : Hub := (if s.ladder.active && !s.ladder.begun then s.levelGo else s).fieldDue

/-- Columns that had waited for another one of their cane go on once they no longer share it (R109). -/
def Hub.columnsGo (s : Hub) : Hub :=
  if s.harv.op != 1 || s.harv.ended.isSome then s
  else doEach ((s.harv.cur.cells.filter (fun p => p.2.phase == 1 && p.2.tiles.isEmpty)).map Prod.fst) s (fun s c => (s.advance c 2).harvGo)

/-- PHASE shows the close from the end of phase 3 on (R109, R132). -/
def Hub.closePhase (s : Hub) : Hub :=
  if s.harvReady && s.rd F.HARV_STATUS_PHASE != 5 then s.harvPhase 5 else s

/-- What goes on as soon as its condition holds: columns of a harvest and its close, divergences handed over, policies whose step has ended, requests of the rack port that waited,
SOFT_RESET, the ladder, the drain wait. -/
def Hub.follow (s : Hub) : Hub :=
  let s := (s.takeReports.policies 256).peers 256
  (Hub.portNext 64 s).softResets.ladderGo.drainCheck.columnsGo.closePhase

/-- Everything a command leaves to be done on its own edge. -/
def Hub.settle (s : Hub) : Hub := Hub.deliverAll 64 s.follow.follow.degradedCheck

/-- The divider code on a TCLK_DIV output (R486): that of the partition, or the new one from period G_c − 1 of a change on. -/
def Hub.divOut (s : Hub) (part : Nat) (code : Nat) : Nat :=
  match s.pendingChg part with
  | some (new, gc) => if gc ≤ s.now + 1 then new else code
  | none => code

/-- A change of the partition takes effect in the next period (R486). -/
def Hub.switchNext (s : Hub) (part : Nat) : Bool :=
  match s.pendingChg part with
  | some (_, gc) => gc == s.now + 1
  | none => false

/-- The outputs to the clock generators, to the PMA and to the spurs' root selection in the present period (R420, R486, R487). -/
def Hub.drivePins (s : Hub) : Hub :=
  { s with pins := { s.pins with
    rootActive := s.rd F.PAIR_STATE_ACTIVE
    tclkDivW := s.divOut 0 (s.rd F.TIME_CLK_DIV_WEST)
    tclkDivE := s.divOut 1 (s.rd F.TIME_CLK_DIV_EAST)
    tclkRestart := s.time.restartAt == some (s.now + 1)
    tclkSwitchW := s.switchNext 0
    tclkSwitchE := s.switchNext 1
    pmaResetN := s.time.powered && s.isLead && s.pins.pmaResetN } }

/-- The memory writes of the command take effect on the memories as they stood before it: no unit changes them otherwise. -/
def Hub.commit (h : Hub) (st : Store) : Hub := { h with store := st.writeAll h.writes, writes := [] }

/-- A command: what it does to the hub, then what follows on the same edge. The queue is left alone. (DEDUCED, log entry 230) -/
def run (f : Hub → Hub) (s : State) : Host.Outcome State Fault Refusal := .next { s with hub := (f s.hub).settle.drivePins.commit s.hub.store }

/-- The memories do not keep their contents through a loss of power (06_cellar_racking.md, R178). -/
def State.withoutMemory (s : State) : State := { s with hub := { s.hub with store := {} } }

/-- A command whose operand must have a shape the hub's wires give it. (DEDUCED, log entry 6) -/
def runIf (ok : Bool) (f : Hub → Hub) (s : State) : Host.Outcome State Fault Refusal := if ok then run f s else .fault .malformed

end Sys2Proof.Machine
end

