-- ==== Sys2Proof/Machine/CmdBist.lean ====
section
/-! DEFINITION. The commands of self-test and of the TAP (14_bist.md). -/

namespace Sys2Proof.Machine

/-- An update of the REGBUS data register (R410): [19:0] offset, [63:32] data, [65:64] operation. What the register captures next is the data
read, the status and DONE. (DEDUCED, log entry 202) -/
def Hub.jtagAccess (s : Hub) (d : Nat) : Hub :=
  let s := { s with bist := { s.bist with ir := 0x10 } }
  let op := bitsOf d 64 2
  if op != 1 && op != 2 then s
  else
    let s := if op == 1 then s.regRead .jtag (bitsOf d 0 20) else s.regWrite .jtag (bitsOf d 0 20) (bitsOf d 32 32)
    let a := s.response .jtag
    { s with bist := { s.bist with regbus := a.value + a.status * 2 ^ 32 + 2 ^ 40 } }

/-- TAP test-logic reset: the instruction is IDCODE (R410), and JTAG owns no page any more (R467). -/
def Hub.tapReset (s : Hub) : Hub := { s.disown .jtag with bist := { s.bist with ir := 1 } }

/-- BIST_CMD RUN (R400, R411). -/
def execBistRun (r : Req) (s : State) : Host.Outcome State Fault Refusal := run (fun h => h.cmd r R.BIST_CMD 1 (fun h => h.bistCmd r 1)) s

/-- BIST_CMD ABORT (R411). -/
def execBistAbort (r : Req) (s : State) : Host.Outcome State Fault Refusal := run (fun h => h.cmd r R.BIST_CMD 2 (fun h => h.bistCmd r 2)) s

/-- BIST_CMD LOAD_PACK (R405). -/
def execLoadPack (r : Req) (s : State) : Host.Outcome State Fault Refusal := run (fun h => h.cmd r R.BIST_CMD 3 (fun h => h.bistCmd r 3)) s

/-- The check of a pack slot is over (R405); `err` is a fabric error of its reads. -/
def execPackCheckDone (slot : Fin 16) (err : Bool) (s : State) : Host.Outcome State Fault Refusal :=
  run (fun h => h.packCheckDone slot err) s

/-- BIST_CMD DROP_PACK (R411). -/
def execDropPack (r : Req) (s : State) : Host.Outcome State Fault Refusal := run (fun h => h.cmd r R.BIST_CMD 4 (fun h => h.bistCmd r 4)) s

/-- BIST_CMD CLEAR_STATS (R414). -/
def execBistClearStats (r : Req) (s : State) : Host.Outcome State Fault Refusal :=
  run (fun h => h.cmd r R.BIST_CMD 5 (fun h => h.bistCmd r 5)) s

/-- A run ends (R409) with an outcome as BIST_RESULT codes it; the rest is what its result registers show. -/
def execBistRunEnd (target : Fin 5) (unit outcome : Nat) (randomFail : Bool) (info got want : Nat) (s : State) : Host.Outcome State Fault Refusal :=
  run (fun h => h.bistRunEnd target unit outcome randomFail info got want) s

/-- Runs that exceed their limit (R409). -/
def execBistRunTimeout (s : State) : Host.Outcome State Fault Refusal := run Hub.bistRunTimeout s

/-- An update of the REGBUS data register (R410). -/
def execJtagRegbusAccess (data : BitVec 66) (s : State) : Host.Outcome State Fault Refusal := run (fun h => h.jtagAccess data.toNat) s

/-- TAP test-logic reset (R467). -/
def execTapReset (s : State) : Host.Outcome State Fault Refusal := run Hub.tapReset s

end Sys2Proof.Machine
end

