-- ==== Sys2Proof/Machine/CmdBoot.lean ====
section
/-! DEFINITION. The commands of start-up, of the life cycle and of grants (13_startup_lifecycle.md). -/

namespace Sys2Proof.Machine

/-- PWR_GOOD rises (R372, R482): `pkg` is PKG_ID, `fuses` the burnt rows, `corrected` and `failed` the rows whose ECC corrected or failed.
-/
def execPowerGood (pkg : Fin 16) (fuses : List (Fin 512 × Word)) (corrected failed : List (Fin 512)) (s : State) : Host.Outcome State Fault Refusal :=
  run (fun h => h.powerGood pkg (fuses.map (fun (p : Fin 512 × Word) => (p.1.val, p.2.toNat))) (corrected.map Fin.val) (failed.map Fin.val))
    s

/-- PWR_GOOD falls (R482). -/
def execPowerGoodFall (s : State) : Host.Outcome State Fault Refusal := run Hub.powerFall s.withoutMemory

/-- The wait for a competing master is over (R45). -/
def execMasterWaitExpiry (s : State) : Host.Outcome State Fault Refusal := run Hub.masterWait s

/-- The flash answers the read of the image header (R379): its 64 bytes. -/
def execFlashHeaderRead (header : List Byte) (s : State) : Host.Outcome State Fault Refusal :=
  runIf (header.length == 64) (fun h => h.headerRead header) s

/-- The flash has answered LENGTH bytes (R379, R382): `rest` follows the header, `keyOk` says that the key's hash is KEY_HASH, `sigOk`
that the signature verifies, `eccBad` that the staging store had an uncorrectable word. -/
def execImageReadComplete (rest : List Byte) (keyOk sigOk eccBad : Bool) (s : State) : Host.Outcome State Fault Refusal :=
  run (fun h => h.readComplete rest keyOk sigOk eccBad) s

/-- An IMAGE frame (R334, R380): 12 bytes of the image from an offset, byte 0 lowest. -/
def execImageFrameRx (tendril : TendrilId) (seq : BitVec 8) (offset : Word) (data : BitVec 96) (s : State) : Host.Outcome State Fault Refusal :=
  run (fun h => h.imageFrame tendril seq.toNat offset.toNat (le 12 data.toNat)) s

/-- The IMAGE_DONE command (R333, R380); `eccBad` says that the staging store had an uncorrectable word. -/
def execImageDoneRx (hd : Hdr2) (length crc : Word) (reason : BitVec 8) (eccBad : Bool) (s : State) : Host.Outcome State Fault Refusal :=
  run (fun h => h.imageDoneRx hd length.toNat crc.toNat reason.toNat eccBad) s

/-- 6.4 ms without an image (R334). -/
def execImageWaitTimeout (s : State) : Host.Outcome State Fault Refusal := run Hub.imageWaitTimeout s

/-- 16 ms from the first IMAGE frame (R380). -/
def execImageDoneTimeout (s : State) : Host.Outcome State Fault Refusal := run Hub.imageDoneTimeout s

/-- 3.2 ms without an image or a master (R380). -/
def execMasterAssumed (s : State) : Host.Outcome State Fault Refusal := run Hub.assumeMaster s

/-- The targets of the boot BIST are done (R373); `found` are the runs. -/
def execBootBistDone (found : List BistFind) (s : State) : Host.Outcome State Fault Refusal := run (fun h => h.bootBistDone found) s

/-- Step 7 ends at its limit (R373); `completed` are the targets whose units are all done. -/
def execBootBistTimeout (completed : List (Fin 5)) (found : List BistFind) (s : State) : Host.Outcome State Fault Refusal :=
  run (fun h => h.bootBistTimeout (completed.map Fin.val) found) s

/-- The period G_r (R35). -/
def execDividerRestart (s : State) : Host.Outcome State Fault Refusal := run Hub.dividerRestart s

/-- Step 9 (R373). -/
def execReleased (s : State) : Host.Outcome State Fault Refusal := run Hub.releaseDue s

/-- Release of a hub without a time base (R373). -/
def execNoTimeRelease (s : State) : Host.Outcome State Fault Refusal := run Hub.noTimeRelease s

/-- BOOT_CMD RELEASE (R374). -/
def execBootRelease (r : Req) (s : State) : Host.Outcome State Fault Refusal :=
  run (fun h => h.cmd r R.BOOT_CMD 1 (fun h => h.bootCmd r 1)) s

/-- LIFE_CMD ADVANCE (R388); `vppReady` is VPP_READY, `burnOk` says that every burnt row reads back as burnt. -/
def execLifeAdvance (r : Req) (burnOk vppReady : Bool) (s : State) : Host.Outcome State Fault Refusal :=
  run (fun h => (h.wr F.LIFE_STATE_VPP_READY (b2n vppReady)).cmd r R.LIFE_CMD 1 (fun h => h.lifeCmd r 1 burnOk)) s

/-- LIFE_CMD SCRAP (R388); operands as LIFE_ADVANCE. -/
def execLifeScrap (r : Req) (burnOk vppReady : Bool) (s : State) : Host.Outcome State Fault Refusal :=
  run (fun h => (h.wr F.LIFE_STATE_VPP_READY (b2n vppReady)).cmd r R.LIFE_CMD 4 (fun h => h.lifeCmd r 4 burnOk)) s

/-- LIFE_CMD PROGRAM_KEY (R388); operands as LIFE_ADVANCE. -/
def execProgramKey (r : Req) (burnOk vppReady : Bool) (s : State) : Host.Outcome State Fault Refusal :=
  run (fun h => (h.wr F.LIFE_STATE_VPP_READY (b2n vppReady)).cmd r R.LIFE_CMD 2 (fun h => h.lifeCmd r 2 burnOk)) s

/-- LIFE_CMD ADD_BAD_TILE (R388); operands as LIFE_ADVANCE. -/
def execAddBadTile (r : Req) (burnOk vppReady : Bool) (s : State) : Host.Outcome State Fault Refusal :=
  run (fun h => (h.wr F.LIFE_STATE_VPP_READY (b2n vppReady)).cmd r R.LIFE_CMD 3 (fun h => h.lifeCmd r 3 burnOk)) s

/-- AUTH_CMD CHALLENGE (R389); `entropyOk` says that the random source passes its health test (R391). -/
def execAuthChallenge (r : Req) (entropyOk : Bool) (s : State) : Host.Outcome State Fault Refusal :=
  run (fun h => h.cmd r R.AUTH_CMD 1 (fun h => h.authCmd 1 entropyOk)) s

/-- AUTH_CMD VERIFY (R389); `keyOk` says that the key's hash is KEY_HASH, `sigOk` that the signature verifies. -/
def execAuthVerify (r : Req) (keyOk sigOk : Bool) (s : State) : Host.Outcome State Fault Refusal :=
  run (fun h => h.cmd r R.AUTH_CMD 2 (fun h => h.authCmd 2 (keyOk && sigOk))) s

/-- AUTH_CMD REVOKE (R390). -/
def execAuthRevoke (r : Req) (s : State) : Host.Outcome State Fault Refusal :=
  run (fun h => h.cmd r R.AUTH_CMD 3 (fun h => h.authCmd 3 true)) s

/-- Grants whose lifetime is over end (R390). -/
def execGrantExpiry (s : State) : Host.Outcome State Fault Refusal := run Hub.grantExpiry s

/-- The nonce is 1 s old (R389). -/
def execNonceExpiry (s : State) : Host.Outcome State Fault Refusal := run Hub.nonceExpiry s

/-- The lockout is over (R391). -/
def execAuthLockoutExpiry (s : State) : Host.Outcome State Fault Refusal := run Hub.lockoutExpiry s

end Sys2Proof.Machine
end

