-- ==== Sys2Proof/Machine/CmdCellar.lean ====
section
/-! DEFINITION. The commands of the cellar and of racking (06_cellar_racking.md, 18_integration.md). -/

namespace Sys2Proof.Machine

/-- The number of a cellar user. -/
def cellUser : CellUser → Nat
  | .lane l => l
  | .metadata => Cu.META
  | .harvest => Cu.HARV
  | .decant => Cu.DECANT
  | .digest => Cu.DIGEST
  | .trace => Cu.TRACE
  | .rack => Cu.RACK
  | .table => Cu.TABLE
  | .read l => Cu.READ l

/-- What a unit does with the answer of its access; `err` is a fabric error. -/
def Hub.unitAnswer (s : Hub) (user : CellUser) (err : Bool) : Hub :=
  match user with
  | .lane l => if err then s.streamError l else s
  | .metadata => if err then s.metaError else s.metaDone
  | .harvest => s.digestRead err
  | .decant => s.decantRead err
  | .digest => s.extRead err
  | .trace => s
  | .rack => s.rackRead err
  | .table => s.tableAnswered err
  | .read l => s.laneRead l err

/-- The answer of the fabric to an access of a unit (R484): one that is not outstanding is a state machine fault of the cellar port. -/
def Hub.cellarResponse (s : Hub) (user : CellUser) (err : Bool) : Hub :=
  if s.outstanding (cellUser user) == 0 then (s.err Er.REL_FSM_CODE).fsmFault Pg.CELL
  else (s.answered (cellUser user)).unitAnswer user err

/-- The fabric answers an access (R484): `user` is the unit that issued it, `err` a fabric error. (DEDUCED, log entry 113) -/
def execCellarResponse (user : CellUser) (err : Bool) (s : State) : Host.Outcome State Fault Refusal :=
  run (fun h => h.cellarResponse user err) s

/-- CELL_CMD PIN (R175). -/
def execCellPin (r : Req) (s : State) : Host.Outcome State Fault Refusal := run (fun h => h.cmd r R.CELL_CMD 1 (fun h => h.cellCmd r 1)) s

/-- CELL_CMD UNPIN (R175). -/
def execCellUnpin (r : Req) (s : State) : Host.Outcome State Fault Refusal := run (fun h => h.cmd r R.CELL_CMD 2 (fun h => h.cellCmd r 2)) s

/-- CELL_CMD DELETE (R188). -/
def execCellDelete (r : Req) (s : State) : Host.Outcome State Fault Refusal :=
  run (fun h => h.cmd r R.CELL_CMD 3 (fun h => h.cellCmd r 3)) s

/-- CELL_CMD FORMAT (R188). -/
def execCellFormat (r : Req) (s : State) : Host.Outcome State Fault Refusal :=
  run (fun h => h.cmd r R.CELL_CMD 4 (fun h => h.cellCmd r 4)) s

/-- The FORMAT finishes (R178, R192). -/
def execFormatDone (s : State) : Host.Outcome State Fault Refusal := run Hub.formatDone s

/-- CELL_CMD CLEAR_STATS (R192). -/
def execCellClearStats (r : Req) (s : State) : Host.Outcome State Fault Refusal :=
  run (fun h => h.cmd r R.CELL_CMD 5 (fun h => h.cellCmd r 5)) s

/-- RACK_CMD RACK (R183, R189). -/
def execRack (r : Req) (s : State) : Host.Outcome State Fault Refusal := run (fun h => h.cmd r R.RACK_CMD 1 (fun h => h.rackCmd r 1)) s

/-- RACK_CMD RACK_TRACE (R183, R189). -/
def execRackTrace (r : Req) (s : State) : Host.Outcome State Fault Refusal := run (fun h => h.cmd r R.RACK_CMD 2 (fun h => h.rackCmd r 2)) s

/-- RACK_CMD CANCEL (R189). -/
def execRackCancel (r : Req) (s : State) : Host.Outcome State Fault Refusal :=
  run (fun h => h.cmd r R.RACK_CMD 3 (fun h => h.rackCmd r 3)) s

/-- RACK_CMD CLEAR_STATS (R194). -/
def execRackClearStats (r : Req) (s : State) : Host.Outcome State Fault Refusal :=
  run (fun h => h.cmd r R.RACK_CMD 4 (fun h => h.rackCmd r 4)) s

/-- The idle engine takes its next request (R183). -/
def execRackStart (s : State) : Host.Outcome State Fault Refusal := run Hub.rackStart s

/-- A write of RACK_CTRL with PAUSE as given and the other bits as they stand (R194). -/
def execRackPause (r : Req) (on : Bool) (s : State) : Host.Outcome State Fault Refusal :=
  run (fun h => h.regWrite r R.RACK_CTRL (setBits (h.reg R.RACK_CTRL) 1 1 (b2n on))) s

/-- 1 ms since the hold on a remote vintage was renewed (R186). -/
def execHoldRenew (s : State) : Host.Outcome State Fault Refusal := run Hub.holdRenew s

/-- Racking holds unrenewed for 10 ms (R186). -/
def execRackHoldLapse (s : State) : Host.Outcome State Fault Refusal := run Hub.holdLapse s

/-- A HOLD command (R186, R333). -/
def execHoldRx (hd : Hdr2) (vintage : Word) (kind : BitVec 8) (s : State) : Host.Outcome State Fault Refusal :=
  run (fun h => h.cmdFrame hd Op.HOLD (le 4 vintage.toNat ++ le 1 kind.toNat) (fun h => h.holdRx hd.src hd.txn vintage.toNat kind.toNat)) s

/-- A CLOSED command (R185, R333), in SAFE ended with FAULT (R30). -/
def execClosedRx (hd : Hdr2) (vintage : Word) (flags : BitVec 8) (s : State) : Host.Outcome State Fault Refusal :=
  run (fun h => h.cmdFrame hd Op.CLOSED (le 4 vintage.toNat ++ le 1 flags.toNat) (fun h => if h.isSafe then h.reply hd Op.CLOSED St.FAULT []
    else (h.closedRx hd.src vintage.toNat flags.toNat).reply hd Op.CLOSED St.OK [])) s

end Sys2Proof.Machine
end

