-- ==== Sys2Proof/Machine/CmdCoop.lean ====
section
/-! DEFINITION. The commands and the instructions of the coopers (16_coopers.md). -/

namespace Sys2Proof.Machine

/-- An access to COOPn_DATA_DATA. -/
def Hub.dataAccess (s : Hub) (r : Req) (c : Nat) (write : Option Nat) : Hub :=
  match write with
  | some v => s.regWrite r (R.COOP_DATA_DATA + 0x1000 * c) v
  | none => s.regRead r (R.COOP_DATA_DATA + 0x1000 * c)

/-- COOPn_CMD START of a script (R440). -/
def execCoopStart (r : Req) (coop : CoopId) (script : Fin 8) (s : State) : Host.Outcome State Fault Refusal :=
  run (fun h => h.cmd r (R.COOP_CMD + 0x1000 * coop) (1 + 16 * script) (fun h => h.coopCmd coop 1 script)) s

/-- COOPn_CMD ABORT (R454). -/
def execCoopAbort (r : Req) (coop : CoopId) (s : State) : Host.Outcome State Fault Refusal :=
  run (fun h => h.cmd r (R.COOP_CMD + 0x1000 * coop) 2 (fun h => h.coopCmd coop 2 0)) s

/-- COOPn_CMD LOAD_BEGIN (R452). -/
def execLoadBegin (r : Req) (coop : CoopId) (s : State) : Host.Outcome State Fault Refusal :=
  run (fun h => h.cmd r (R.COOP_CMD + 0x1000 * coop) 3 (fun h => h.coopCmd coop 3 0)) s

/-- COOPn_CMD LOAD_COMMIT (R452). -/
def execLoadCommit (r : Req) (coop : CoopId) (s : State) : Host.Outcome State Fault Refusal :=
  run (fun h => h.cmd r (R.COOP_CMD + 0x1000 * coop) 4 (fun h => h.coopCmd coop 4 0)) s

/-- COOPn_CMD CLEAR_STATS (R457). -/
def execCoopClearStats (r : Req) (coop : CoopId) (s : State) : Host.Outcome State Fault Refusal :=
  run (fun h => h.cmd r (R.COOP_CMD + 0x1000 * coop) 5 (fun h => h.coopCmd coop 5 0)) s

/-- A write of COOPn_PROG_DATA (R457). -/
def execCoopProgDataWrite (r : Req) (coop : CoopId) (v : Word) (s : State) : Host.Outcome State Fault Refusal :=
  run (fun h => h.regWrite r (R.COOP_PROG_DATA + 0x1000 * coop) v.toNat) s

/-- An access to COOPn_DATA_DATA (R457): a write with its value, or a read. -/
def execCoopDataDataAccess (r : Req) (coop : CoopId) (write : Option Word) (s : State) : Host.Outcome State Fault Refusal :=
  run (fun h => h.dataAccess r coop (write.map BitVec.toNat)) s

/-- Occurrences reach the filters of EVENT scripts (R439). -/
def execCoopEventTrigger (coop : CoopId) (s : State) : Host.Outcome State Fault Refusal := run (fun h => h.coopEventTrigger coop) s

/-- A pending script starts at an IDLE cooper (R440). -/
def execCoopPendingStart (coop : CoopId) (s : State) : Host.Outcome State Fault Refusal := run (fun h => h.coopPending coop) s

/-- NOP (R442). -/
def execCoopNop (coop : CoopId) (s : State) : Host.Outcome State Fault Refusal := run (fun h => h.coopDo coop Co.NOP (fun h _ _ => h)) s

/-- LI (R442). -/
def execCoopLi (coop : CoopId) (s : State) : Host.Outcome State Fault Refusal := run (fun h => h.coopImm coop Co.LI (fun _ _ i => i)) s

/-- LIH (R442). -/
def execCoopLih (coop : CoopId) (s : State) : Host.Outcome State Fault Refusal :=
  run (fun h => h.coopImm coop Co.LIH (fun d _ i => d % 2 ^ 18 + i % 2 ^ 14 * 2 ^ 18)) s

/-- ADDI (R442). -/
def execCoopAddi (coop : CoopId) (s : State) : Host.Outcome State Fault Refusal :=
  run (fun h => h.coopImm coop Co.ADDI (fun _ a i => a + unsigned 32 (signed 18 i))) s

/-- ANDI (R442). -/
def execCoopAndi (coop : CoopId) (s : State) : Host.Outcome State Fault Refusal :=
  run (fun h => h.coopImm coop Co.ANDI (fun _ a i => a &&& i)) s

/-- ORI (R442). -/
def execCoopOri (coop : CoopId) (s : State) : Host.Outcome State Fault Refusal :=
  run (fun h => h.coopImm coop Co.ORI (fun _ a i => a ||| i)) s

/-- ADD (R442). -/
def execCoopAdd (coop : CoopId) (s : State) : Host.Outcome State Fault Refusal := run (fun h => h.coopAlu coop Co.ADD (fun a b => a + b)) s

/-- SUB (R442). -/
def execCoopSub (coop : CoopId) (s : State) : Host.Outcome State Fault Refusal :=
  run (fun h => h.coopAlu coop Co.SUB (fun a b => a + 2 ^ 32 - b)) s

/-- AND (R442). -/
def execCoopAnd (coop : CoopId) (s : State) : Host.Outcome State Fault Refusal :=
  run (fun h => h.coopAlu coop Co.AND (fun a b => a &&& b)) s

/-- OR (R442). -/
def execCoopOr (coop : CoopId) (s : State) : Host.Outcome State Fault Refusal := run (fun h => h.coopAlu coop Co.OR (fun a b => a ||| b)) s

/-- XOR (R442). -/
def execCoopXor (coop : CoopId) (s : State) : Host.Outcome State Fault Refusal :=
  run (fun h => h.coopAlu coop Co.XOR (fun a b => a ^^^ b)) s

/-- SHL (R442). -/
def execCoopShl (coop : CoopId) (s : State) : Host.Outcome State Fault Refusal :=
  run (fun h => h.coopAlu coop Co.SHL (fun a b => a <<< (b % 32))) s

/-- SHR (R442). -/
def execCoopShr (coop : CoopId) (s : State) : Host.Outcome State Fault Refusal :=
  run (fun h => h.coopAlu coop Co.SHR (fun a b => a >>> (b % 32))) s

/-- LD (R442). -/
def execCoopLd (coop : CoopId) (s : State) : Host.Outcome State Fault Refusal := run (fun h => h.coopLd coop) s

/-- ST (R442). -/
def execCoopSt (coop : CoopId) (s : State) : Host.Outcome State Fault Refusal := run (fun h => h.coopSt coop) s

/-- JMP (R442). -/
def execCoopJmp (coop : CoopId) (s : State) : Host.Outcome State Fault Refusal :=
  run (fun h => h.coopBranch coop Co.JMP (fun _ _ => true)) s

/-- BEQ (R442). -/
def execCoopBeq (coop : CoopId) (s : State) : Host.Outcome State Fault Refusal :=
  run (fun h => h.coopBranch coop Co.BEQ (fun a b => a == b)) s

/-- BNE (R442). -/
def execCoopBne (coop : CoopId) (s : State) : Host.Outcome State Fault Refusal :=
  run (fun h => h.coopBranch coop Co.BNE (fun a b => a != b)) s

/-- BLTU (R442). -/
def execCoopBltu (coop : CoopId) (s : State) : Host.Outcome State Fault Refusal :=
  run (fun h => h.coopBranch coop Co.BLTU (fun a b => a < b)) s

/-- BGEU (R442). -/
def execCoopBgeu (coop : CoopId) (s : State) : Host.Outcome State Fault Refusal :=
  run (fun h => h.coopBranch coop Co.BGEU (fun a b => b ≤ a)) s

/-- CALL (R442). -/
def execCoopCall (coop : CoopId) (s : State) : Host.Outcome State Fault Refusal := run (fun h => h.coopCall coop) s

/-- RET (R442). -/
def execCoopRet (coop : CoopId) (s : State) : Host.Outcome State Fault Refusal := run (fun h => h.coopRet coop) s

/-- END (R442). -/
def execCoopEnd (coop : CoopId) (s : State) : Host.Outcome State Fault Refusal := run (fun h => h.coopEnd coop) s

/-- FAIL (R442). -/
def execCoopFail (coop : CoopId) (s : State) : Host.Outcome State Fault Refusal := run (fun h => h.coopFail coop) s

/-- SIG (R448). -/
def execCoopSig (coop : CoopId) (s : State) : Host.Outcome State Fault Refusal := run (fun h => h.coopSig coop) s

/-- RD (R444). -/
def execCoopRd (coop : CoopId) (s : State) : Host.Outcome State Fault Refusal := run (fun h => h.coopRd coop) s

/-- WR (R444). -/
def execCoopWr (coop : CoopId) (s : State) : Host.Outcome State Fault Refusal := run (fun h => h.coopWr coop) s

/-- CORK (R443). -/
def execCoopCork (coop : CoopId) (s : State) : Host.Outcome State Fault Refusal := run (fun h => h.coopCork coop) s

/-- HARV (R443). -/
def execCoopHarv (coop : CoopId) (s : State) : Host.Outcome State Fault Refusal := run (fun h => h.coopHarv coop) s

/-- RACK (R443). -/
def execCoopRack (coop : CoopId) (s : State) : Host.Outcome State Fault Refusal := run (fun h => h.coopRack coop) s

/-- XREG (R444). -/
def execCoopXreg (coop : CoopId) (s : State) : Host.Outcome State Fault Refusal := run (fun h => h.coopXreg coop) s

/-- WAIT (R445). -/
def execCoopWait (coop : CoopId) (s : State) : Host.Outcome State Fault Refusal := run (fun h => h.coopWait coop) s

/-- DELAY (R442). -/
def execCoopDelay (coop : CoopId) (s : State) : Host.Outcome State Fault Refusal := run (fun h => h.coopDelay coop) s

/-- WAITT (R442). -/
def execCoopWaitt (coop : CoopId) (s : State) : Host.Outcome State Fault Refusal := run (fun h => h.coopWaitt coop) s

/-- GETEV (R442). -/
def execCoopGetev (coop : CoopId) (s : State) : Host.Outcome State Fault Refusal := run (fun h => h.coopGetev coop) s

/-- STAT (R444). -/
def execCoopStat (coop : CoopId) (s : State) : Host.Outcome State Fault Refusal := run (fun h => h.coopStat coop) s

/-- ARM (R445). -/
def execCoopArm (coop : CoopId) (s : State) : Host.Outcome State Fault Refusal := run (fun h => h.coopArm coop) s

/-- Occurrences 2 HCLK old reach the cooper (R446). -/
def execCoopEventArrival (coop : CoopId) (s : State) : Host.Outcome State Fault Refusal := run (fun h => h.coopArrival coop) s

/-- The timeout of a WAIT (R445). -/
def execCoopWaitTimeout (coop : CoopId) (s : State) : Host.Outcome State Fault Refusal := run (fun h => h.coopWaitTimeout coop) s

/-- The count of a DELAY (R447). -/
def execCoopDelayExpiry (coop : CoopId) (s : State) : Host.Outcome State Fault Refusal := run (fun h => h.coopDelayEnd coop) s

/-- The value of a WAITT, or a join (R447). -/
def execCoopWaittReached (coop : CoopId) (s : State) : Host.Outcome State Fault Refusal := run (fun h => h.coopGcnReached coop) s

/-- The watchdog of a cooper is at 0 (R450). -/
def execCoopWatchdog (coop : CoopId) (s : State) : Host.Outcome State Fault Refusal := run (fun h => h.coopWatchdog coop) s

end Sys2Proof.Machine
end

