-- ==== Sys2Proof/Machine/CmdCork.lean ====
section
/-! DEFINITION. The commands of the cork and of its waves (03_cork.md, 11_federation.md). -/

namespace Sys2Proof.Machine

/-- An armed spur gates its tile: the pending BRANCH packet goes out first (R197), and a sample in progress is abandoned (R272). -/
def Hub.spurStops (s : Hub) (t : Nat) : Hub :=
  if s.gateDue t then ((s.flushBranch t).tileStopped t).abandonSample t else s

/-- CORK_CMD STOP (R64, R79). -/
def execCorkStop (r : Req) (s : State) : Host.Outcome State Fault Refusal := run (fun h => h.cmd r R.CORK_CMD 1 (fun h => h.corkCmd r 1)) s

/-- CORK_CMD STEP (R74). -/
def execCorkStep (r : Req) (s : State) : Host.Outcome State Fault Refusal := run (fun h => h.cmd r R.CORK_CMD 2 (fun h => h.corkCmd r 2)) s

/-- CORK_CMD RESUME (R73). -/
def execCorkResume (r : Req) (s : State) : Host.Outcome State Fault Refusal :=
  run (fun h => h.cmd r R.CORK_CMD 3 (fun h => h.corkCmd r 3)) s

/-- CORK_CMD ABORT (R75). -/
def execCorkAbort (r : Req) (s : State) : Host.Outcome State Fault Refusal := run (fun h => h.cmd r R.CORK_CMD 4 (fun h => h.corkCmd r 4)) s

/-- CORK_CMD STALL_SET (R82, R500). -/
def execStallSet (r : Req) (s : State) : Host.Outcome State Fault Refusal := run (fun h => h.cmd r R.CORK_CMD 5 (fun h => h.corkCmd r 5)) s

/-- CORK_CMD STALL_CLEAR (R82, R500). -/
def execStallClear (r : Req) (s : State) : Host.Outcome State Fault Refusal :=
  run (fun h => h.cmd r R.CORK_CMD 6 (fun h => h.corkCmd r 6)) s

/-- A trellis wave at a spur (R16, R70); `goodA` and `goodB` say which copies pass their CRC. -/
def execCorkWaveRx (tile : TileId) (goodA goodB : Bool) (s : State) : Host.Outcome State Fault Refusal :=
  run (fun h => h.corkWaveRx tile goodA goodB) s

/-- An armed spur's next edge is gated (R68): the pending BRANCH packet goes out (R197), a sample in progress is abandoned (R272), and
STOPPED is sent. -/
def execTileStopped (tile : TileId) (s : State) : Host.Outcome State Fault Refusal := run (fun h => h.spurStops tile) s

/-- A STOPPED report at the root (R71). -/
def execStoppedReportRx (tile : TileId) (s : State) : Host.Outcome State Fault Refusal := run (fun h => h.stoppedReport tile) s

/-- CORK_REPORT_LIMIT has passed (R71). -/
def execCorkReportTimeout (s : State) : Host.Outcome State Fault Refusal := run Hub.reportTimeout s

/-- The period Gs of domains that start (R73). -/
def execResumed (s : State) : Host.Outcome State Fault Refusal := run Hub.resumed s

/-- A WAVE frame (R318, R328); `extReq` is EXT_REQ, `field` the KIND bit. -/
def execWaveFrameRx (tendril : TendrilId) (waveId : BitVec 8) (issuer : Fin 2048) (op : Fin 16) (extReq : Bool) (target : BitVec 64) (start : Word) (tag : BitVec 16) (mode : Fin 4) (field : Bool) (s : State) : Host.Outcome State Fault Refusal :=
  run (fun h => h.goodFrame tendril (fun h => h.waveRx tendril waveId.toNat issuer op extReq target.toNat start.toNat tag.toNat mode (b2n
    field))) s

/-- A CORK_REPORT command (R329, R333): `flags` holds STOPPED, NOT_PHASE_EQ, NONE. -/
def execCorkReportRx (hd : Hdr2) (waveId status : BitVec 8) (flags : BitVec 3) (scn : BitVec 64) (s : State) : Host.Outcome State Fault Refusal :=
  run (fun h => h.cmdFrame hd Op.CORK_REPORT (le 1 waveId.toNat ++ le 1 status.toNat ++ le 1 flags.toNat ++ le 8 scn.toNat) (fun h =>
    (h.corkReport hd.src waveId.toNat status.toNat (bitAt flags.toNat 1) (bitAt flags.toNat 2)).reply hd Op.CORK_REPORT St.OK [])) s

/-- FED_CMD_TIMEOUT since the issuer's own completion (R329). -/
def execMemberReportTimeout (s : State) : Host.Outcome State Fault Refusal := run Hub.memberTimeout s

/-- The period Ga of patterns and issue caps (R80, R84). -/
def execStallPatternApply (s : State) : Host.Outcome State Fault Refusal := run Hub.patternApply s

/-- MANUAL sources whose edges are counted (R82). -/
def execManualStallExpiry (s : State) : Host.Outcome State Fault Refusal := run Hub.manualExpiry s

/-- A hold request of a spur (R83). -/
def execHoldRequestRx (tile : TileId) (s : State) : Host.Outcome State Fault Refusal := run (fun h => h.holdRequest tile) s

/-- A spur is below its low-water mark (R83). -/
def execHoldReleaseRx (tile : TileId) (s : State) : Host.Outcome State Fault Refusal := run (fun h => h.holdRelease tile) s

/-- CORK_HOLD_LIMIT has passed (R83). -/
def execHoldLimit (s : State) : Host.Outcome State Fault Refusal := run Hub.holdLimit s

end Sys2Proof.Machine
end

