-- ==== Sys2Proof/Machine/CmdFed.lean ====
section
/-! DEFINITION. The commands of the tendrils and of federation (11_federation.md). -/

namespace Sys2Proof.Machine

/-- A REG_READ of another hub (R333): the read runs with requester TENDRIL, its status and value are the answer. -/
def Hub.tendrilRead (s : Hub) (hd : Hdr2) (addr : Nat) : Hub :=
  let s := s.regRead .tendril addr
  let a := s.response .tendril
  s.reply hd Op.REG_READ a.status (le 4 a.value)

/-- A REG_WRITE of another hub (R333): the write runs with requester TENDRIL, its status is the answer. -/
def Hub.tendrilWrite (s : Hub) (hd : Hdr2) (addr v : Nat) : Hub :=
  let s := s.regWrite .tendril addr v
  s.reply hd Op.REG_WRITE (s.response .tendril).status []

/-- A TRAIN frame (R319). -/
def execTrainRx (tendril : TendrilId) (echo : Bool) (senderCount echoedCount : Word) (s : State) : Host.Outcome State Fault Refusal :=
  run (fun h => h.trainRx tendril echo senderCount.toNat echoedCount.toNat) s

/-- An ANNOUNCE frame (R322): HOPS, byte 7, ROUND. -/
def execAnnounceRx (hd : Hdr2) (hops : BitVec 8) (flags : BitVec 4) (round : Word) (s : State) : Host.Outcome State Fault Refusal :=
  run (fun h => h.announceRx hd hops.toNat flags.toNat round.toNat) s

/-- 2^24 HCLK have passed since the last period (R322). -/
def execAnnouncePeriod (s : State) : Host.Outcome State Fault Refusal := run Hub.announcePeriod s

/-- An ACK frame (R320). -/
def execAckRx (tendril : TendrilId) (seq : BitVec 8) (s : State) : Host.Outcome State Fault Refusal :=
  run (fun h => h.goodFrame tendril (fun h => h.tendrilAck tendril seq.toNat)) s

/-- 64 HCLK since an unacknowledged acceptance (R320). -/
def execTendrilAckTimer (s : State) : Host.Outcome State Fault Refusal := run Hub.ackTimer s

/-- 256 HCLK without an ACK (R320). -/
def execTendrilResendTimeout (s : State) : Host.Outcome State Fault Refusal := run Hub.resendTimeout s

/-- A FAILED tendril's 1 ms is over (R321). -/
def execTendrilRetrainTimer (s : State) : Host.Outcome State Fault Refusal := run Hub.retrainTimer s

/-- FED_CMD RETRAIN (R338). -/
def execFedRetrain (r : Req) (s : State) : Host.Outcome State Fault Refusal := run (fun h => h.cmd r R.FED_CMD 1 (fun h => h.fedCmd 1)) s

/-- FED_CMD REANNOUNCE (R322). -/
def execReannounce (r : Req) (s : State) : Host.Outcome State Fault Refusal := run (fun h => h.cmd r R.FED_CMD 2 (fun h => h.fedCmd 2)) s

/-- FED_CMD CLEAR_STATS (R338). -/
def execFedClearStats (r : Req) (s : State) : Host.Outcome State Fault Refusal := run (fun h => h.cmd r R.FED_CMD 3 (fun h => h.fedCmd 3)) s

/-- A write of FED_DOMAIN (R324). -/
def execFedDomainWrite (r : Req) (v : Word) (s : State) : Host.Outcome State Fault Refusal :=
  run (fun h => h.regWrite r R.FED_DOMAIN v.toNat) s

/-- A write of FED_JOB (R330). -/
def execFedJobWrite (r : Req) (v : Word) (s : State) : Host.Outcome State Fault Refusal := run (fun h => h.regWrite r R.FED_JOB v.toNat) s

/-- A REG_READ command (R333). -/
def execTendrilRegRead (hd : Hdr2) (addr : Word) (s : State) : Host.Outcome State Fault Refusal :=
  run (fun h => h.cmdFrame hd Op.REG_READ (le 4 addr.toNat) (fun h => h.tendrilRead hd addr.toNat)) s

/-- A REG_WRITE command (R333). -/
def execTendrilRegWrite (hd : Hdr2) (addr v : Word) (s : State) : Host.Outcome State Fault Refusal :=
  run (fun h => h.cmdFrame hd Op.REG_WRITE (le 4 addr.toNat ++ le 4 v.toNat) (fun h => h.tendrilWrite hd addr.toNat v.toNat)) s

/-- A RESP frame (R333), DATA byte 0 lowest. -/
def execRespRx (hd : Hdr2) (opcode status : BitVec 8) (data : BitVec 64) (s : State) : Host.Outcome State Fault Refusal :=
  run (fun h => h.respRx hd opcode.toNat status.toNat (le 8 data.toNat)) s

/-- Requests whose FED_CMD_TIMEOUT is over (R333). -/
def execRemoteTimeout (s : State) : Host.Outcome State Fault Refusal := run Hub.remoteTimeout s

/-- A TIME_REQ command (R326), in SAFE ended with FAULT (R30). -/
def execTimeReqRx (hd : Hdr2) (s : State) : Host.Outcome State Fault Refusal :=
  run (fun h => h.cmdFrame hd Op.TIME_REQ [] (fun h => if h.isSafe then h.reply hd Op.TIME_REQ St.FAULT []
    else h.timeReq hd.tendril)) s

/-- A STALL_REQ command at the anchor (R330). -/
def execStallReqRx (hd : Hdr2) (mask tag : BitVec 16) (s : State) : Host.Outcome State Fault Refusal :=
  run (fun h => h.cmdFrame hd Op.STALL_REQ (le 2 mask.toNat ++ le 2 tag.toNat) (fun h => h.memberRequest hd Op.STALL_REQ (fun h =>
    (h.stallReq hd.src mask.toNat tag.toNat).reply hd Op.STALL_REQ St.OK []))) s

/-- A STALL frame (R330, R331). -/
def execStallFrameRx (tendril : TendrilId) (anchor : Fin 2048) (mask tag : BitVec 16) (ga : BitVec 64) (s : State) : Host.Outcome State Fault Refusal :=
  run (fun h => h.goodFrame tendril (fun h => h.stallFrame tendril anchor mask.toNat tag.toNat ga.toNat)) s

/-- FED_JOB_CHECK has passed at an anchor (R332). -/
def execJobCheckPeriod (s : State) : Host.Outcome State Fault Refusal := run Hub.jobCheckPeriod s

/-- A JOB_CHECK command (R332). -/
def execJobCheckRx (hd : Hdr2) (tag : BitVec 16) (gq : BitVec 64) (s : State) : Host.Outcome State Fault Refusal :=
  run (fun h => h.cmdFrame hd Op.JOB_CHECK (le 2 tag.toNat ++ le 8 gq.toNat) (fun h => h.memberRequest hd Op.JOB_CHECK (fun h =>
    h.jobCheckRx hd tag.toNat gq.toNat))) s

/-- The RESP of a JOB_CHECK (R332). -/
def execJobCheckRespRx (hd : Hdr2) (status : BitVec 8) (scn : BitVec 64) (s : State) : Host.Outcome State Fault Refusal :=
  run (fun h => h.respRx hd Op.JOB_CHECK status.toNat (le 8 scn.toNat)) s

/-- A frame is discarded (R321). -/
def execFrameCrcError (tendril : TendrilId) (s : State) : Host.Outcome State Fault Refusal := run (fun h => h.frameBad tendril) s

end Sys2Proof.Machine
end

