-- ==== Sys2Proof/Machine/CmdHang.lean ====
section
/-! DEFINITION. The commands of hang monitoring, fences and the reset ladder (10_hang_reset.md). -/

namespace Sys2Proof.Machine

/-- A PEER_LOST of the rack port: taken by a lead hub that is not in SAFE (R304, R364). -/
def Hub.peerLostMessage (s : Hub) (pkg : Nat) (tags : List Nat) : Hub := if s.isLead && !s.isSafe then s.peerLost pkg (tags.take 16) else s

/-- A beat report of a slot with its tile count (R283). -/
def execBeatReportRx (slot : Slot) (count : Nat) (s : State) : Host.Outcome State Fault Refusal := run (fun h => h.beatReport slot count) s

/-- Monitors whose timer exceeds the threshold (R286). -/
def execHangThresholdExpiry (s : State) : Host.Outcome State Fault Refusal := run Hub.hangExpiry s

/-- A spur's strobe fault report (R287); one of a tile whose re-admission is at its reset fails that (R302). (DEDUCED, log entry 329) -/
def Hub.strobeReport (s : Hub) (t : Nat) : Hub := if (s.tile t).readmit == 2 then s.readmitFail t 3 else s.strobeFaultRx t

/-- A spur's strobe fault report (R287). -/
def execStrobeFaultRx (tile : TileId) (s : State) : Host.Outcome State Fault Refusal := run (fun h => h.strobeReport tile) s

/-- 16 HCLK since the last audit wave (R288). -/
def execAuditTick (s : State) : Host.Outcome State Fault Refusal := run Hub.auditTick s

/-- The reduced result of the oldest audit (R290); `crcBad` says that its responses failed their CRC on both copies. -/
def execAuditResult (crcBad : Bool) (s : State) : Host.Outcome State Fault Refusal := run (fun h => h.auditResult crcBad) s

/-- 1 ms since a policy's harvest was refused with BUSY (R293). -/
def execPolicyRetry (s : State) : Host.Outcome State Fault Refusal := run Hub.policyRetry s

/-- HANG_CMD FENCE (R294). -/
def execHangFence (r : Req) (s : State) : Host.Outcome State Fault Refusal := run (fun h => h.cmd r R.HANG_CMD 1 (fun h => h.hangCmd 1)) s

/-- HANG_CMD RELEASE (R296). -/
def execHangRelease (r : Req) (s : State) : Host.Outcome State Fault Refusal := run (fun h => h.cmd r R.HANG_CMD 2 (fun h => h.hangCmd 2)) s

/-- HANG_CMD CLEAR_FIRED (R286). -/
def execClearFired (r : Req) (s : State) : Host.Outcome State Fault Refusal := run (fun h => h.cmd r R.HANG_CMD 3 (fun h => h.hangCmd 3)) s

/-- HANG_CMD CLEAR_HISTORY (R285). -/
def execClearHistory (r : Req) (s : State) : Host.Outcome State Fault Refusal :=
  run (fun h => h.cmd r R.HANG_CMD 4 (fun h => h.hangCmd 4)) s

/-- HANG_CMD CLEAR_STATS (R312). -/
def execHangClearStats (r : Req) (s : State) : Host.Outcome State Fault Refusal :=
  run (fun h => h.cmd r R.HANG_CMD 5 (fun h => h.hangCmd 5)) s

/-- FENCE_DRAINED of a slot rises (R294). -/
def execFenceDrained (slot : Slot) (s : State) : Host.Outcome State Fault Refusal := run (fun h => h.fenceDrained slot) s

/-- HANG_FENCE_DRAIN has passed (R295). -/
def execFenceDrainLimit (s : State) : Host.Outcome State Fault Refusal := run Hub.fenceDrainLimit s

/-- The port has abandoned a slot's requests (R295). -/
def execFenceAbandonDone (slot : Slot) (s : State) : Host.Outcome State Fault Refusal := run (fun h => h.fenceAbandonDone slot) s

/-- HANG_FENCE_LIMIT has passed (R296). -/
def execFenceLimit (s : State) : Host.Outcome State Fault Refusal := run Hub.fenceLimit s

/-- 64 HCLK without FENCE_ACK (R311). -/
def execFenceAckTimeout (slot : Slot) (s : State) : Host.Outcome State Fault Refusal := run (fun h => h.fenceAckTimeout slot) s

/-- RSET_CMD RESET (R297). -/
def execLadderReset (r : Req) (s : State) : Host.Outcome State Fault Refusal :=
  run (fun h => h.cmd r R.RSET_CMD 1 (fun h => h.rsetCmd r 1)) s

/-- RSET_CMD ISOLATE (R298). -/
def execIsolate (r : Req) (s : State) : Host.Outcome State Fault Refusal := run (fun h => h.cmd r R.RSET_CMD 2 (fun h => h.rsetCmd r 2)) s

/-- RSET_CMD READMIT (R302). -/
def execReadmit (r : Req) (s : State) : Host.Outcome State Fault Refusal := run (fun h => h.cmd r R.RSET_CMD 3 (fun h => h.rsetCmd r 3)) s

/-- RSET_CMD CLEAR_STATS (R314). -/
def execRsetClearStats (r : Req) (s : State) : Host.Outcome State Fault Refusal :=
  run (fun h => h.cmd r R.RSET_CMD 4 (fun h => h.rsetCmd r 4)) s

/-- T_RST_ACK of a tile (R298). -/
def execTileResetAck (tile : TileId) (s : State) : Host.Outcome State Fault Refusal := run (fun h => h.tileResetAck tile) s

/-- 4,096 TCLK without T_RST_ACK (R298). -/
def execTileResetTimeout (tile : TileId) (s : State) : Host.Outcome State Fault Refusal := run (fun h => h.tileResetTimeout tile) s

/-- 256 HCLK of watching an isolated tile are over (R298). -/
def execIsolationWatchEnd (tile : TileId) (strobe answered : Bool) (s : State) : Host.Outcome State Fault Refusal :=
  run (fun h => h.isolationWatchEnd tile strobe answered) s

/-- A ladder level has done its work (R300). -/
def execLadderLevelDone (s : State) : Host.Outcome State Fault Refusal := run Hub.levelDone s

/-- The limit of a FIELD or CHIP level (R300). -/
def execLadderLevelTimeout (s : State) : Host.Outcome State Fault Refusal := run Hub.levelTimeout s

/-- A LADDER command (R297, R333); `tag` is ARGS bytes 2 and 3 (log entry 12). -/
def execLadderRx (hd : Hdr2) (level : BitVec 8) (released : Bool) (tag : BitVec 16) (s : State) : Host.Outcome State Fault Refusal :=
  run (fun h => h.cmdFrame hd Op.LADDER (le 1 level.toNat ++ le 1 (b2n released) ++ le 2 tag.toNat) (fun h => (h.ladderRx hd.src level.toNat
    released tag.toNat).reply hd Op.LADDER St.OK [])) s

/-- A PEER_LOST of the rack port at a lead (R304). -/
def execPeerLost (pkg : Fin 16) (tags : List (BitVec 16)) (s : State) : Host.Outcome State Fault Refusal :=
  run (fun h => h.peerLostMessage pkg (tags.map BitVec.toNat)) s

/-- A PEER_LOST command (R304, R333): up to five tags, the first lowest. -/
def execTendrilPeerLost (hd : Hdr2) (pkg : BitVec 8) (count : BitVec 8) (tags : BitVec 80) (s : State) : Host.Outcome State Fault Refusal :=
  run (fun h => h.cmdFrame hd Op.PEER_LOST (le 1 pkg.toNat ++ le 1 count.toNat ++ le 10 tags.toNat) (fun h => h.peerLostRx pkg.toNat
    ((List.range (least 5 count.toNat)).map (fun i => bitsOf tags.toNat (16 * i) 16)))) s

/-- The last step of a peer policy has ended (R305). -/
def execPeerPolicyDone (s : State) : Host.Outcome State Fault Refusal := run Hub.peerDone s

end Sys2Proof.Machine
end

