-- ==== Sys2Proof/Machine/CmdHarvest.lean ====
section
/-! DEFINITION. The commands of harvest, decant and the canes (04_harvest.md). -/

namespace Sys2Proof.Machine

/-- A record of a column reaches the harvest engine; an ECC error of the entry queue is counted (R431). -/
def Hub.recordRx (s : Hub) (c bad : Nat) (srcErr : Bool) (got : List Byte) : Hub :=
  let due := s.recordGranted c
  let s := s.harvRecordRx c bad srcErr got
  if !due then s
  else if bad == 3 then s.eccUncorr Pg.HARV c
  else if bad == 4 then s.eccCorr Pg.CANE
  else s

/-- HARV_CMD HARVEST (R126). -/
def execHarvest (r : Req) (s : State) : Host.Outcome State Fault Refusal := run (fun h => h.cmd r R.HARV_CMD 1 (fun h => h.harvCmd r 1)) s

/-- The reservation of phase 0 is made (R109, R170). -/
def execHarvSetupDone (s : State) : Host.Outcome State Fault Refusal := run Hub.harvSetupDone s

/-- HARV_DRAIN_LIMIT has passed since the harvest wave (R110). -/
def execDrainLimit (s : State) : Host.Outcome State Fault Refusal := run Hub.drainLimit s

/-- The record a column sends reaches the harvest engine (R113): `bad` is 0 intact, 1 a data parity error, 2 a tag parity error, 3 an
uncorrectable and 4 a corrected ECC error in the entry queue; `srcErr` is T_SRAM_ERR of the tile while the piece was read; `got` is the
payload as received, used while PARITY_EN is 0. -/
def execHarvRecordRx (column : Cane) (bad : Fin 5) (srcErr : Bool) (got : List Byte) (s : State) : Host.Outcome State Fault Refusal :=
  run (fun h => h.recordRx column bad srcErr got) s

/-- HARV_SPUR_LIMIT has passed at a column (R108). -/
def execHarvSpurTimeout (column : Cane) (s : State) : Host.Outcome State Fault Refusal := run (fun h => h.spurTimeout column) s

/-- Phase 4 (R127); `err` is a fabric error on the write of the manifest. -/
def execHarvDone (err : Bool) (s : State) : Host.Outcome State Fault Refusal := run (fun h => h.harvDone err) s

/-- Space has returned to the cellar (R176). -/
def execCaskAvailable (s : State) : Host.Outcome State Fault Refusal := run Hub.caskAvailable s

/-- HARV_CMD ABORT (R127). -/
def execHarvAbort (r : Req) (s : State) : Host.Outcome State Fault Refusal := run (fun h => h.cmd r R.HARV_CMD 3 (fun h => h.harvCmd r 3)) s

/-- HARV_CMD DECANT (R123). -/
def execDecant (r : Req) (s : State) : Host.Outcome State Fault Refusal := run (fun h => h.cmd r R.HARV_CMD 2 (fun h => h.harvCmd r 2)) s

/-- Step 6 of a decant (R123). -/
def execDecantDone (s : State) : Host.Outcome State Fault Refusal := run Hub.decantDone s

/-- HARV_CMD DECANT_RELEASE (R124). -/
def execDecantRelease (r : Req) (s : State) : Host.Outcome State Fault Refusal :=
  run (fun h => h.cmd r R.HARV_CMD 4 (fun h => h.harvCmd r 4)) s

/-- 256 HCLK of a change of direction are over (R26). -/
def execCaneTurnDone (s : State) : Host.Outcome State Fault Refusal := run (fun h => h.caneTurned.decantTurned) s

/-- CANE_CMD LOCATE (R135). -/
def execCaneLocate (r : Req) (s : State) : Host.Outcome State Fault Refusal := run (fun h => h.cmd r R.CANE_CMD 1 (fun h => h.caneCmd 1)) s

/-- LOCATE finishes (R135): `row` is the northernmost stage after which every pattern arrives intact, none when no single stage was found.
-/
def execLocateDone (cane : Cane) (row : Option (Fin 128)) (s : State) : Host.Outcome State Fault Refusal :=
  run (fun h => h.locateDone cane (row.map Fin.val)) s

/-- CANE_CMD CLEAR_BROKEN (R135). -/
def execClearBroken (r : Req) (s : State) : Host.Outcome State Fault Refusal := run (fun h => h.cmd r R.CANE_CMD 2 (fun h => h.caneCmd 2)) s

/-- CANE_CMD CLEAR_STATS (R135). -/
def execCaneClearStats (r : Req) (s : State) : Host.Outcome State Fault Refusal :=
  run (fun h => h.cmd r R.CANE_CMD 3 (fun h => h.caneCmd 3)) s

/-- A write of a CANE_BROKEN register (R135). -/
def execCaneBrokenWrite (r : Req) (word : Fin 4) (v : Word) (s : State) : Host.Outcome State Fault Refusal :=
  run (fun h => h.regWrite r (R.CANE_BROKEN_0 + 4 * word) v.toNat) s

/-- A HARVEST_ARGS command (R333), ARGS byte 0 lowest; it is not answered, its HARVEST is. -/
def execHarvestArgsRx (hd : Hdr2) (args : BitVec 96) (s : State) : Host.Outcome State Fault Refusal :=
  run (fun h => h.cmdFrame hd Op.HARVEST_ARGS (le 12 args.toNat) (fun h =>
    if h.isSafe || !h.flag F.FED_CTRL_EN then h else h.harvestArgsRx hd.src hd.txn (le 12 args.toNat))) s

/-- A HARVEST command (R128, R333), ARGS byte 0 lowest. -/
def execFedHarvestRx (hd : Hdr2) (args : BitVec 96) (s : State) : Host.Outcome State Fault Refusal :=
  run (fun h => h.cmdFrame hd Op.HARVEST (le 12 args.toNat) (fun h => h.memberRequest hd Op.HARVEST (fun h => h.fedHarvestRx hd.src hd.txn
    (le 12 args.toNat)))) s

end Sys2Proof.Machine
end

