-- ==== Sys2Proof/Machine/CmdLink.lean ====
section
/-! DEFINITION. The commands of the rack link and its port (12_rack_port.md). -/

namespace Sys2Proof.Machine

/-- A received RS codeword of 544 symbols (R343). -/
def execPcsCodewordRx (symbols : List (BitVec 10)) (s : State) : Host.Outcome State Fault Refusal :=
  runIf (symbols.length == 544) (fun h => h.pcsRx (symbols.map BitVec.toNat)) s

/-- A received flit of 80 bytes (R345, R347). -/
def execFlitRx (flit : List Byte) (s : State) : Host.Outcome State Fault Refusal := runIf (flit.length == 80) (fun h => h.flitRx flit) s

/-- A received flit of kind INIT (R355). -/
def execInitFlitRx (flit : List Byte) (s : State) : Host.Outcome State Fault Refusal := runIf (flit.length == 80) (fun h => h.flitRx flit) s

/-- A flit boundary of the transmitter (R351). -/
def execFlitSlot (s : State) : Host.Outcome State Fault Refusal := run Hub.flitSlot s

/-- LINK_REPLAY_TIMEOUT without ACK progress (R348). -/
def execLinkReplayTimeout (s : State) : Host.Outcome State Fault Refusal := run Hub.linkReplayTimeout s

/-- LINK_REPLAY_TIMEOUT without the expected flit (R347). -/
def execNakTimeout (s : State) : Host.Outcome State Fault Refusal := run Hub.nakTimeout s

/-- LINK_IDLE_LIMIT without a good flit (R354). -/
def execLinkIdleTimeout (s : State) : Host.Outcome State Fault Refusal := run Hub.linkIdleTimeout s

/-- LINK_TRAIN_LIMIT of a retrain (R353). -/
def execLinkTrainTimeout (s : State) : Host.Outcome State Fault Refusal := run Hub.linkTrainTimeout s

/-- 1 ms in DOWN (R353). -/
def execLinkRetrainTimer (s : State) : Host.Outcome State Fault Refusal := run Hub.linkRetrainTimer s

/-- PMA_READY takes a level (R353). -/
def execPmaReadyChange (ready : Bool) (s : State) : Host.Outcome State Fault Refusal := run (fun h => h.pmaReady ready) s

/-- LINK_CMD RETRAIN (R353). -/
def execLinkRetrain (r : Req) (s : State) : Host.Outcome State Fault Refusal := run (fun h => h.cmd r R.LINK_CMD 1 (fun h => h.linkCmd 1)) s

/-- LINK_CMD DOWN (R354). -/
def execLinkDownCmd (r : Req) (s : State) : Host.Outcome State Fault Refusal := run (fun h => h.cmd r R.LINK_CMD 2 (fun h => h.linkCmd 2)) s

/-- LINK_CMD CLEAR_STATS (R371). -/
def execLinkClearStats (r : Req) (s : State) : Host.Outcome State Fault Refusal :=
  run (fun h => h.cmd r R.LINK_CMD 3 (fun h => h.linkCmd 3)) s

/-- The oldest acknowledged message is reported delivered (R349). -/
def execMessageDelivered (s : State) : Host.Outcome State Fault Refusal := run Hub.messageDelivered s

/-- A REG_READ message (R360): TAG, HUB and body. -/
def execPortRegRead (tag dest : BitVec 16) (body : List Byte) (s : State) : Host.Outcome State Fault Refusal :=
  run (fun h => h.portMessage Mt.REG_READ tag.toNat dest.toNat body) s

/-- A REG_WRITE message (R360). -/
def execPortRegWrite (tag dest : BitVec 16) (body : List Byte) (s : State) : Host.Outcome State Fault Refusal :=
  run (fun h => h.portMessage Mt.REG_WRITE tag.toNat dest.toNat body) s

/-- A CORK message (R358, R362). -/
def execPortCork (tag dest : BitVec 16) (body : List Byte) (s : State) : Host.Outcome State Fault Refusal :=
  run (fun h => h.portMessage Mt.CORK tag.toNat dest.toNat body) s

/-- An XPKG message of the TDC (R335, R362). -/
def execPortXpkg (tag dest : BitVec 16) (body : List Byte) (s : State) : Host.Outcome State Fault Refusal :=
  run (fun h => h.portMessage Mt.XPKG tag.toNat dest.toNat body) s

/-- An XPKG_REPORT of another package (R362). -/
def execPortXpkgReport (tag dest : BitVec 16) (body : List Byte) (s : State) : Host.Outcome State Fault Refusal :=
  run (fun h => h.portMessage Mt.XPKG_REPORT tag.toNat dest.toNat body) s

/-- A PEER_LOST message (R304, R362). -/
def execPortPeerLost (tag dest : BitVec 16) (body : List Byte) (s : State) : Host.Outcome State Fault Refusal :=
  run (fun h => h.portMessage Mt.PEER_LOST tag.toNat dest.toNat body) s

/-- A TIME_PING message (R365). -/
def execTimePing (tag dest : BitVec 16) (body : List Byte) (s : State) : Host.Outcome State Fault Refusal :=
  run (fun h => h.portMessage Mt.TIME_PING tag.toNat dest.toNat body) s

end Sys2Proof.Machine
end

