-- ==== Sys2Proof/Machine/CmdPower.lean ====
section
/-! DEFINITION. The commands of power control (03_cork.md, 18_integration.md). -/

namespace Sys2Proof.Machine

/-- The end of a power window (R85 to R91): the field's sixteen activity counts. -/
def execPowerWindowEnd (counts : List Nat) (s : State) : Host.Outcome State Fault Refusal :=
  runIf (counts.length == 16) (fun h => h.powerWindowEnd counts) s

/-- A write of PWR_CTRL with CAL_START 1 and the other bits as they stand (R88). -/
def execCalStart (r : Req) (s : State) : Host.Outcome State Fault Refusal :=
  run (fun h => h.regWrite r R.PWR_CTRL (h.reg R.PWR_CTRL ||| 8)) s

/-- A PWR_TELEM frame (R490). -/
def execPwrTelemFrame (v : Word) (s : State) : Host.Outcome State Fault Refusal := run (fun h => h.telemFrame v.toNat) s

/-- PWR_TELEM_TIMEOUT without a valid sample (R86). -/
def execTelemMissing (s : State) : Host.Outcome State Fault Refusal := run Hub.telemMissing s

/-- A write of PWR_CTRL with EST_ONLY_FORCE as given, CAL_START 0 and the other bits as they stand (R86). -/
def execEstOnlyForce (r : Req) (on : Bool) (s : State) : Host.Outcome State Fault Refusal :=
  run (fun h => h.regWrite r R.PWR_CTRL (setBits (setBits (h.reg R.PWR_CTRL) 3 1 0) 2 1 (b2n on))) s

/-- A write of PWR_CLKREQ with GO 1 (R92). -/
def execPwrClkreq (r : Req) (part : Fin 2) (div : Fin 4) (s : State) : Host.Outcome State Fault Refusal :=
  run (fun h => h.regWrite r R.PWR_CLKREQ (part + 2 * div + 8)) s

/-- A write of PWR_CTX (R84, R99). -/
def execPwrCtxWrite (r : Req) (v : Word) (s : State) : Host.Outcome State Fault Refusal := run (fun h => h.regWrite r R.PWR_CTX v.toNat) s

end Sys2Proof.Machine
end

