-- ==== Sys2Proof/Machine/CmdPress.lean ====
section
/-! DEFINITION. The commands of the press (05_press.md). -/

namespace Sys2Proof.Machine

/-- A block leaves the encoder of a lane; an uncorrectable word of its buffers is counted (R159, R431). -/
def Hub.blockDone (s : Hub) (l fault : Nat) : Hub :=
  let due := s.blockDue l
  let s := s.pressBlockDone l fault
  if due && fault == 2 then s.eccUncorr (Pg.PRESS + l) l else s

/-- The block in a lane's encoder is complete (R159): `fault` is 0 none, 1 a verification mismatch, 2 an uncorrectable ECC error in a lane
buffer. -/
def execPressBlockDone (lane : Lane) (fault : Fin 3) (s : State) : Host.Outcome State Fault Refusal :=
  run (fun h => h.blockDone lane fault) s

/-- A reference fetch completes or fails (R148). -/
def execRefFetchDone (lane : Lane) (ok : Bool) (s : State) : Host.Outcome State Fault Refusal := run (fun h => h.refFetched lane ok) s

/-- PRESS_CMD FLUSH_BLOCK (R156): `taken` is how many bytes of the block in progress the encoder has taken. -/
def execFlushBlock (r : Req) (lane : Lane) (taken : BitVec 25) (s : State) : Host.Outcome State Fault Refusal :=
  run (fun h => h.cmd r (R.PRESS_CMD + 0x1000 * lane) 1 (fun h => h.pressCmd lane 1 taken.toNat)) s

/-- PRESS_CMD RETIRE (R161). -/
def execLaneRetire (r : Req) (lane : Lane) (s : State) : Host.Outcome State Fault Refusal :=
  run (fun h => h.cmd r (R.PRESS_CMD + 0x1000 * lane) 2 (fun h => h.pressCmd lane 2 0)) s

/-- PRESS_CMD RESTORE (R161). -/
def execLaneRestore (r : Req) (lane : Lane) (s : State) : Host.Outcome State Fault Refusal :=
  run (fun h => h.cmd r (R.PRESS_CMD + 0x1000 * lane) 3 (fun h => h.pressCmd lane 3 0)) s

/-- PRESS_CMD CLEAR_STATS (R161). -/
def execPressClearStats (r : Req) (lane : Lane) (s : State) : Host.Outcome State Fault Refusal :=
  run (fun h => h.cmd r (R.PRESS_CMD + 0x1000 * lane) 4 (fun h => h.pressCmd lane 4 0)) s

/-- A write of PRESS_CTRL (R165). -/
def execPressCtrlWrite (r : Req) (lane : Lane) (v : Word) (s : State) : Host.Outcome State Fault Refusal :=
  run (fun h => h.regWrite r (R.PRESS_CTRL + 0x1000 * lane) v.toNat) s

end Sys2Proof.Machine
end

