-- ==== Sys2Proof/Machine/CmdRegs.lean ====
section
/-! DEFINITION. The commands of the register pages, the spur window, the I3C target and the tile interface (17_registers.md, 18_integration.md). -/

namespace Sys2Proof.Machine

/-- A write of a page's PG_CTRL that sets one bit and leaves EN. -/
def Hub.headerSet (s : Hub) (r : Req) (page : Nat) (f : Fld) : Hub :=
  let a := R.PG_CTRL + 0x1000 * page
  s.regWrite r a (s.reg a % 2 + 2 ^ f.lo)

/-- An access to the spur window. -/
def Hub.windowAccess (s : Hub) (r : Req) (off : Nat) (write : Option Nat) : Hub :=
  match write with
  | some v => s.regWrite r (R.SPUR_ID + off) v
  | none => s.regRead r (R.SPUR_ID + off)

/-- GLB_CMD OPEN (R471). -/
def execGlbOpen (r : Req) (s : State) : Host.Outcome State Fault Refusal := run (fun h => h.cmd r R.GLB_CMD 1 (fun h => h.glbCmd r 1)) s

/-- GLB_CMD ADD_TILES (R471). -/
def execAddTiles (r : Req) (s : State) : Host.Outcome State Fault Refusal := run (fun h => h.cmd r R.GLB_CMD 2 (fun h => h.glbCmd r 2)) s

/-- GLB_CMD REMOVE_TILES (R471). -/
def execRemoveTiles (r : Req) (s : State) : Host.Outcome State Fault Refusal := run (fun h => h.cmd r R.GLB_CMD 3 (fun h => h.glbCmd r 3)) s

/-- GLB_CMD CLOSE (R471). -/
def execGlbClose (r : Req) (s : State) : Host.Outcome State Fault Refusal := run (fun h => h.cmd r R.GLB_CMD 4 (fun h => h.glbCmd r 4)) s

/-- A write of a page's PG_CTRL with SOFT_RESET 1 and EN as it stands (R462). -/
def execSoftReset (r : Req) (page : BitVec 8) (s : State) : Host.Outcome State Fault Refusal :=
  run (fun h => h.headerSet r page.toNat F.PG_CTRL_SOFT_RESET) s

/-- A write of a page's PG_CTRL with LOCK 1 and EN as it stands (R463). -/
def execPgLock (r : Req) (page : BitVec 8) (s : State) : Host.Outcome State Fault Refusal :=
  run (fun h => h.headerSet r page.toNat F.PG_CTRL_LOCK) s

/-- A write of a page's PG_EVENT_FORCE (R461). -/
def execPgEventForce (r : Req) (page : BitVec 8) (bits : Word) (s : State) : Host.Outcome State Fault Refusal :=
  run (fun h => h.regWrite r (R.PG_EVENT_FORCE + 0x1000 * page.toNat) bits.toNat) s

/-- A write of a page's PG_OWNER with CLAIM 1 (R467). -/
def execPgClaim (r : Req) (page : BitVec 8) (s : State) : Host.Outcome State Fault Refusal :=
  run (fun h => h.regWrite r (R.PG_OWNER + 0x1000 * page.toNat) (2 ^ F.PG_OWNER_CLAIM.lo)) s

/-- A write of a page's PG_OWNER with RELEASE 1 (R467). -/
def execPgRelease (r : Req) (page : BitVec 8) (s : State) : Host.Outcome State Fault Refusal :=
  run (fun h => h.regWrite r (R.PG_OWNER + 0x1000 * page.toNat) (2 ^ F.PG_OWNER_RELEASE.lo)) s

/-- A write of a page's PG_OWNER with FORCE_RELEASE 1 (R467). -/
def execForceRelease (r : Req) (page : BitVec 8) (s : State) : Host.Outcome State Fault Refusal :=
  run (fun h => h.regWrite r (R.PG_OWNER + 0x1000 * page.toNat) (2 ^ F.PG_OWNER_FORCE_RELEASE.lo)) s

/-- A read of a LO register (R6); any register reads the same way. -/
def execLoReadLatch (r : Req) (addr : BitVec 20) (s : State) : Host.Outcome State Fault Refusal := run (fun h => h.regRead r addr.toNat) s

/-- A register write (R469). -/
def execRegisterWrite (r : Req) (addr : BitVec 20) (v : Word) (s : State) : Host.Outcome State Fault Refusal :=
  run (fun h => h.regWrite r addr.toNat v.toNat) s

/-- An access to the spur window `off` bytes after its first offset 0x100 (R475): a write with its value, or a read. -/
def execSpurWindowAccess (r : Req) (off : BitVec 8) (write : Option Word) (s : State) : Host.Outcome State Fault Refusal :=
  run (fun h => h.windowAccess r off.toNat (write.map BitVec.toNat)) s

/-- 1,024 HCLK without a good answer of the spur (R475); `crc` says that an answer failed its CRC on both copies. -/
def execSpurWindowTimeout (r : Req) (crc : Bool) (s : State) : Host.Outcome State Fault Refusal := run (fun h => h.windowTimeout r crc) s

/-- A read of SPUR_SRAM_LO (R476). -/
def execSpurSramLoRead (r : Req) (s : State) : Host.Outcome State Fault Refusal := run (fun h => h.regRead r R.SPUR_SRAM_LO) s

/-- A write of SPUR_SRAM_LO (R476). -/
def execSpurSramLoWrite (r : Req) (v : Word) (s : State) : Host.Outcome State Fault Refusal :=
  run (fun h => h.regWrite r R.SPUR_SRAM_LO v.toNat) s

/-- A write of SPUR_SRAM_HI (R476). -/
def execSpurSramHiWrite (r : Req) (v : Word) (s : State) : Host.Outcome State Fault Refusal :=
  run (fun h => h.regWrite r R.SPUR_SRAM_HI v.toNat) s

/-- ENTDAA assigns the dynamic address (R466). -/
def execI3cEntdaa (addr : BitVec 7) (s : State) : Host.Outcome State Fault Refusal := run (fun h => h.i3cEntdaa addr.toNat) s

/-- A private write of 3 or 7 bytes (R466); `parityBad` says that its parity fails. -/
def execI3cPrivateWrite (addr : BitVec 24) (data : Option Word) (parityBad : Bool) (s : State) : Host.Outcome State Fault Refusal :=
  run (fun h => if parityBad then h.i3cBad else h.i3cWrite addr.toNat (data.map BitVec.toNat)) s

/-- A private read (R466); `parityBad` says that a T-bit check fails. -/
def execI3cPrivateRead (parityBad : Bool) (s : State) : Host.Outcome State Fault Refusal :=
  run (fun h => if parityBad then h.i3cBad else h.i3cRead) s

/-- A delivery of the field memory port (R493): destination, 64 bytes, byte enables, tag and error. -/
def execMemoryDelivery (tile : TileId) (dest : BitVec 16) (data : List Byte) (be : BitVec 64) (mtag : BitVec 16) (err : Bool) (s : State) : Host.Outcome State Fault Refusal :=
  runIf (data.length == 64) (fun h => h.delivery tile { dest := dest.toNat, data := data, be := be.toNat, mtag := mtag.toNat, err := err })
    s

/-- M_RD_DONE, or else M_WR_ACK, of a tile (R106). -/
def execMemoryCompletion (tile : TileId) (rd : Bool) (s : State) : Host.Outcome State Fault Refusal := run (fun h => h.completion tile rd) s

/-- A tile's SCN increment strobe (R40); `sram` and `scan` are the bytes of SRAM and of control state that the tile's own cycle changes,
by address. -/
def execTileScnStrobe (tile : TileId) (sram scan : List (BitVec 16 × List Byte)) (s : State) : Host.Outcome State Fault Refusal :=
  run (fun h => h.scnStrobe tile (sram.map (fun (p : BitVec 16 × List Byte) => (p.1.toNat, p.2))) (scan.map (fun (p : BitVec 16 × List Byte)
    => (p.1.toNat, p.2)))) s

end Sys2Proof.Machine
end

