-- ==== Sys2Proof/Machine/CmdRel.lean ====
section
/-! DEFINITION. The commands of reliability and of the pair (15_faults_degraded.md). -/

namespace Sys2Proof.Machine

/-- A tending round with what it finds (R417, R419). -/
def execTendingRound (found : List TendFind) (s : State) : Host.Outcome State Fault Refusal := run (fun h => h.tendingRound found) s

/-- REL_CMD TEND_NOW (R433). -/
def execTendNow (r : Req) (s : State) : Host.Outcome State Fault Refusal := run (fun h => h.cmd r R.REL_CMD 1 (fun h => h.relCmd 1)) s

/-- REL_CMD CLEAR_STATS (R433). -/
def execRelClearStats (r : Req) (s : State) : Host.Outcome State Fault Refusal := run (fun h => h.cmd r R.REL_CMD 2 (fun h => h.relCmd 2)) s

/-- A write of REL_INJECT (R430). -/
def execFaultInject (r : Req) (v : Word) (s : State) : Host.Outcome State Fault Refusal :=
  run (fun h => h.cmd r R.REL_INJECT v.toNat (fun h => h.writeReg r R.REL_INJECT v.toNat)) s

/-- An invalid code word in the unit of a page, or a root echo that differs, named by the page of the trellis (R415). -/
def execStateMachineFault (page : BitVec 8) (s : State) : Host.Outcome State Fault Refusal := run (fun h => h.fsmFault page.toNat) s

/-- PAIR_HB_LIMIT without a heartbeat on both paths (R423). -/
def execHeartbeatTimeout (s : State) : Host.Outcome State Fault Refusal := run Hub.heartbeatTimeout s

/-- PAIR_CMD TAKEOVER (R423). -/
def execPairTakeover (r : Req) (s : State) : Host.Outcome State Fault Refusal :=
  run (fun h => h.cmd r R.PAIR_CMD 1 (fun h => h.pairCmd 1)) s

/-- PAIR_CMD RESTORE_STANDBY (R436). -/
def execRestoreStandby (r : Req) (s : State) : Host.Outcome State Fault Refusal :=
  run (fun h => h.cmd r R.PAIR_CMD 2 (fun h => h.pairCmd 2)) s

/-- PAIR_CMD CLEAR_STATS (R435). -/
def execPairClearStats (r : Req) (s : State) : Host.Outcome State Fault Refusal :=
  run (fun h => h.cmd r R.PAIR_CMD 3 (fun h => h.pairCmd 3)) s

/-- The new active core has finished (R424). -/
def execTakeoverDone (s : State) : Host.Outcome State Fault Refusal := run Hub.takeoverDone s

/-- A mirror entry reaches the standby (R421); `good` says that its CRC holds. -/
def execMirrorEntryRx (path : Fin 2) (good : Bool) (entry : MirrorEntry) (s : State) : Host.Outcome State Fault Refusal :=
  run (fun h => h.mirrorEntry path good entry) s

/-- PAIR_CKPT_PERIOD has passed (R422). -/
def execCheckpointPeriod (s : State) : Host.Outcome State Fault Refusal := run Hub.checkpointPeriod s

/-- The standby checks a checkpoint (R422). -/
def execCheckpointRx (good : Bool) (s : State) : Host.Outcome State Fault Refusal := run (fun h => h.checkpointRx good) s

/-- A mirror path is silent or fails its CRC (R422). -/
def execMirrorPathLoss (path : Fin 2) (s : State) : Host.Outcome State Fault Refusal := run (fun h => h.mirrorPathLoss path) s

end Sys2Proof.Machine
end

