-- ==== Sys2Proof/Machine/CmdTaste.lean ====
section
/-! DEFINITION. The commands of tasting, digests and the numeric watch (09_tasting.md). -/

namespace Sys2Proof.Machine

/-- A sample reaches its buffer; an uncorrectable word of the buffer is counted (R431). -/
def Hub.sampleIn (s : Hub) (b bad : Nat) (got : Option (List Byte)) : Hub :=
  let due := s.sampleDue b
  let s := s.sampleRx b bad got
  if due && bad == 2 then s.eccUncorr Pg.TASTE b else s

/-- TASTE_INTERVAL has passed (R246). -/
def execTasteTick (s : State) : Host.Outcome State Fault Refusal := run Hub.tasteTick s

/-- A sample request reaches a spur (R247). -/
def execTasteRequestRx (tile : TileId) (s : State) : Host.Outcome State Fault Refusal := run (fun h => h.tasteRequestRx tile) s

/-- A tile issues a tasteable operation (R245, R247). -/
def execTasteOpIssue (tile : TileId) (desc : OpDesc) (s : State) : Host.Outcome State Fault Refusal :=
  run (fun h => h.tasteOpIssue tile desc) s

/-- TASTE_WAIT has passed at an armed spur (R247). -/
def execTasteMissed (tile : TileId) (s : State) : Host.Outcome State Fault Refusal := run (fun h => h.tasteMissed tile) s

/-- The residency of a sample ran out (R249). -/
def execTasteLate (tile : TileId) (s : State) : Host.Outcome State Fault Refusal := run (fun h => h.tasteLate tile) s

/-- A complete sample reaches a buffer (R254): `bad` is 0 good, 1 a cane parity error, 2 an uncorrectable ECC error in the buffer; `got`
is what arrived where it is not what the spur sent. -/
def execSampleRx (buffer : Fin 8) (bad : Fin 3) (got : Option (List Byte)) (s : State) : Host.Outcome State Fault Refusal :=
  run (fun h => h.sampleIn buffer bad got) s

/-- A taster finishes (R255): `faulty` is its result where it is not the contract's. -/
def execTasterResult (taster : Fin 4) (faulty : Option (List Nat)) (s : State) : Host.Outcome State Fault Refusal :=
  run (fun h => h.tasterResult taster faulty) s

/-- TASTE_CMD SAMPLE_NOW (R273). -/
def execSampleNow (r : Req) (s : State) : Host.Outcome State Fault Refusal := run (fun h => h.cmd r R.TASTE_CMD 1 (fun h => h.tasteCmd 1)) s

/-- TASTE_CMD UNLOCK_EVID (R257). -/
def execUnlockEvid (r : Req) (s : State) : Host.Outcome State Fault Refusal :=
  run (fun h => h.cmd r R.TASTE_CMD 2 (fun h => h.tasteCmd 2)) s

/-- TASTE_CMD RETIRE_TASTER (R273). -/
def execRetireTaster (r : Req) (s : State) : Host.Outcome State Fault Refusal :=
  run (fun h => h.cmd r R.TASTE_CMD 3 (fun h => h.tasteCmd 3)) s

/-- TASTE_CMD RESTORE_TASTER (R273). -/
def execRestoreTaster (r : Req) (s : State) : Host.Outcome State Fault Refusal :=
  run (fun h => h.cmd r R.TASTE_CMD 4 (fun h => h.tasteCmd 4)) s

/-- TASTE_CMD CLEAR_STATS (R276). -/
def execTasteClearStats (r : Req) (s : State) : Host.Outcome State Fault Refusal :=
  run (fun h => h.cmd r R.TASTE_CMD 5 (fun h => h.tasteCmd 5)) s

/-- A read of TASTE_EVID_DATA (R276). -/
def execEvidDataRead (r : Req) (s : State) : Host.Outcome State Fault Refusal := run (fun h => h.regRead r R.TASTE_EVID_DATA) s

/-- DIGEST_CMD RUN_TILES (R262). -/
def execRunTiles (r : Req) (s : State) : Host.Outcome State Fault Refusal :=
  run (fun h => h.cmd r R.DIGEST_CMD 1 (fun h => h.digestCmd 1)) s

/-- DIGEST_CMD RUN_EXT (R266). -/
def execRunExt (r : Req) (s : State) : Host.Outcome State Fault Refusal := run (fun h => h.cmd r R.DIGEST_CMD 2 (fun h => h.digestCmd 2)) s

/-- DIGEST_CMD ABORT (R273). -/
def execDigestAbort (r : Req) (s : State) : Host.Outcome State Fault Refusal :=
  run (fun h => h.cmd r R.DIGEST_CMD 3 (fun h => h.digestCmd 3)) s

/-- DIGEST_CMD CLEAR_STATS (R278). -/
def execDigestClearStats (r : Req) (s : State) : Host.Outcome State Fault Refusal :=
  run (fun h => h.cmd r R.DIGEST_CMD 4 (fun h => h.digestCmd 4)) s

/-- The end of a pass (R262, R266); `crcBad` names a tile whose partial failed its CRC on both copies. -/
def execDigestPassEnd (ext : Bool) (crcBad : Option TileId) (s : State) : Host.Outcome State Fault Refusal :=
  run (fun h => h.digestPassEnd ext (crcBad.map Fin.val)) s

/-- DIGEST_PERIOD has passed (R264). -/
def execDigestRepeat (ext : Bool) (s : State) : Host.Outcome State Fault Refusal := run (fun h => h.digestRepeat ext) s

/-- A DIGEST command (R267, R333). -/
def execFedDigestRx (hd : Hdr2) (tag : BitVec 16) (set flags : BitVec 8) (s : State) : Host.Outcome State Fault Refusal :=
  run (fun h => h.cmdFrame hd Op.DIGEST (le 2 tag.toNat ++ le 1 set.toNat ++ le 1 flags.toNat) (fun h => h.memberRequest hd Op.DIGEST (fun h
    => h.fedDigestRx hd.src hd.txn (le 2 tag.toNat ++ le 1 set.toNat ++ le 1 flags.toNat)))) s

/-- The end of a numeric watch window (R269); `bad` names a slot whose collection failed its CRC on both copies. -/
def execNumwWindowEnd (bad : Option Slot) (s : State) : Host.Outcome State Fault Refusal :=
  run (fun h => h.numwWindowEnd (bad.map Fin.val)) s

/-- NUMW_CMD REARM_FIRST (R270). -/
def execRearmFirst (r : Req) (s : State) : Host.Outcome State Fault Refusal := run (fun h => h.cmd r R.NUMW_CMD 1 (fun h => h.numwCmd 1)) s

/-- NUMW_CMD CLEAR_STATS (R280). -/
def execNumwClearStats (r : Req) (s : State) : Host.Outcome State Fault Refusal :=
  run (fun h => h.cmd r R.NUMW_CMD 2 (fun h => h.numwCmd 2)) s

end Sys2Proof.Machine
end

