-- ==== Sys2Proof/Machine/CmdTime.lean ====
section
/-! DEFINITION. The commands of the time base (02_time_base.md). -/

namespace Sys2Proof.Machine

/-- TIME_CMD ESTABLISH (R60). -/
def execEstablish (r : Req) (s : State) : Host.Outcome State Fault Refusal := run (fun h => h.cmd r R.TIME_CMD 1 (fun h => h.timeCmd 1)) s

/-- TIME_CMD REEPOCH (R46, R60). -/
def execReepoch (r : Req) (s : State) : Host.Outcome State Fault Refusal := run (fun h => h.cmd r R.TIME_CMD 2 (fun h => h.timeCmd 2)) s

/-- TIME_CMD RESYNC (R49). -/
def execTimeResync (r : Req) (s : State) : Host.Outcome State Fault Refusal := run (fun h => h.cmd r R.TIME_CMD 3 (fun h => h.timeCmd 3)) s

/-- TIME_CMD ARM_TBS (R51). -/
def execArmTbs (r : Req) (s : State) : Host.Outcome State Fault Refusal := run (fun h => h.cmd r R.TIME_CMD 4 (fun h => h.timeCmd 4)) s

/-- TIME_CMD CLKCHG (R55). -/
def execClkchg (r : Req) (s : State) : Host.Outcome State Fault Refusal := run (fun h => h.cmd r R.TIME_CMD 5 (fun h => h.timeCmd 5)) s

/-- TIME_CMD CLKCHG_CANCEL (R56). -/
def execClkchgCancel (r : Req) (s : State) : Host.Outcome State Fault Refusal :=
  run (fun h => h.cmd r R.TIME_CMD 6 (fun h => h.timeCmd 6)) s

/-- The period G_c of a partition's change (R54). -/
def execClkchgApplied (east : Bool) (s : State) : Host.Outcome State Fault Refusal := run (fun h => h.clkchgApplied (b2n east)) s

/-- A rising edge of TB_SYNC that stays high for `high` HCLK (R50 to R53). -/
def execTbSyncPulse (high : Nat) (s : State) : Host.Outcome State Fault Refusal := run (fun h => h.tbSyncPulse high) s

/-- 2^32 HCLK without a pulse (R52). -/
def execTbsArmTimeout (s : State) : Host.Outcome State Fault Refusal := run Hub.tbsArmTimeout s

/-- A repeated pulse is absent (R53). -/
def execTbsMiss (s : State) : Host.Outcome State Fault Refusal := run Hub.tbsMiss s

/-- TIME_SYNC_PERIOD has passed (R49). -/
def execSyncCheckPeriod (s : State) : Host.Outcome State Fault Refusal := run Hub.syncCheckPeriod s

/-- A SYNC ESTABLISH frame (R48): the GCN at its transmit edge, the epoch number, the origin hub. -/
def execSyncEstablishRx (tendril : TendrilId) (gcn : BitVec 64) (epoch : Word) (origin : Fin 2048) (s : State) : Host.Outcome State Fault Refusal :=
  run (fun h => h.goodFrame tendril (fun h => h.syncEstablish tendril gcn.toNat epoch.toNat origin)) s

/-- A SYNC CHECK frame (R49). -/
def execSyncCheckRx (tendril : TendrilId) (gcn : BitVec 64) (epoch : Word) (s : State) : Host.Outcome State Fault Refusal :=
  run (fun h => h.goodFrame tendril (fun h => h.syncCheck tendril gcn.toNat epoch.toNat)) s

/-- A SYNC RESYNC frame (R49). -/
def execSyncResyncRx (tendril : TendrilId) (gcn : BitVec 64) (epoch : Word) (origin : Fin 2048) (s : State) : Host.Outcome State Fault Refusal :=
  run (fun h => h.goodFrame tendril (fun h => h.syncResync tendril gcn.toNat epoch.toNat origin)) s

/-- A SYNC REPLY frame (R326). -/
def execSyncReplyRx (tendril : TendrilId) (gcn : BitVec 64) (epoch : Word) (s : State) : Host.Outcome State Fault Refusal :=
  run (fun h => h.goodFrame tendril (fun h => h.syncReply tendril gcn.toNat epoch.toNat)) s

end Sys2Proof.Machine
end

