-- ==== Sys2Proof/Machine/CmdTrace.lean ====
section
/-! DEFINITION. The commands of trace (07_trace.md). -/

namespace Sys2Proof.Machine

/-- Tiles with trace waiting for a cane. -/
def Hub.traceWaiting (s : Hub) (q : Nat) : List Nat := s.tracing.filter (fun t => s.caneFor (colOf t) == q)

/-- The spur whose packet the cane carries next (R27, R198): of two columns that share the cane at half rate each (R19) the one that did not have the last
turn, where it has a packet; in the column the next row in turn. -/
def Hub.traceNext (s : Hub) (q : Nat) : Option Nat :=
  let ts := s.traceWaiting q
  let others := ts.filter (fun t => colOf t != (s.cane q).traceCol)
  let col := colOf ((if others.isEmpty then ts else others).headD 0)
  let mine := ts.filter (fun t => colOf t == col)
  match mine.find? (fun t => (s.cane col).traceTurn.any (fun u => rowOf u < rowOf t)) with
  | some t => some t
  | none => mine.head?

/-- The cane grants a tile's trace packet (R27): no sample under way and no harvest record due on the cane, and it is the spur's turn. (DESIGN CHOICE,
log entry 321) -/
def Hub.traceGranted (s : Hub) (t : Nat) : Bool :=
  let q := s.caneFor (colOf t)
  !s.sampleWaiting q && !s.harv.cur.keys.any (fun c => s.caneFor c == q && s.recordDue c) && s.traceNext q == some t

/-- A packet reaches the router when its cane grants it slots; the last one of a STOP ends it (R216). -/
def Hub.tracePacketIn (s : Hub) (t : Nat) (malformed : Bool) : Hub := if s.traceGranted t then
    let s := s.tracePacketRx t malformed
    if s.trace.stopping then s.traceFlush else s
  else s

/-- TRACE_CMD START (R211, R216). -/
def execTraceStart (r : Req) (s : State) : Host.Outcome State Fault Refusal :=
  run (fun h => h.cmd r R.TRACE_CMD 1 (fun h => h.traceCmd 1)) s

/-- TRACE_CMD STOP (R216). -/
def execTraceStop (r : Req) (s : State) : Host.Outcome State Fault Refusal := run (fun h => h.cmd r R.TRACE_CMD 2 (fun h => h.traceCmd 2)) s

/-- TRACE_CMD FREEZE (R209). -/
def execTraceFreeze (r : Req) (s : State) : Host.Outcome State Fault Refusal :=
  run (fun h => h.cmd r R.TRACE_CMD 3 (fun h => h.traceCmd 3)) s

/-- TRACE_CMD UNFREEZE (R209). -/
def execTraceUnfreeze (r : Req) (s : State) : Host.Outcome State Fault Refusal :=
  run (fun h => h.cmd r R.TRACE_CMD 4 (fun h => h.traceCmd 4)) s

/-- TRACE_CMD RESYNC (R204). -/
def execTraceResync (r : Req) (s : State) : Host.Outcome State Fault Refusal :=
  run (fun h => h.cmd r R.TRACE_CMD 5 (fun h => h.traceCmd 5)) s

/-- TRACE_CMD CLEAR_RING (R216). -/
def execClearRing (r : Req) (s : State) : Host.Outcome State Fault Refusal := run (fun h => h.cmd r R.TRACE_CMD 6 (fun h => h.traceCmd 6)) s

/-- TRACE_CMD ARM (R213). -/
def execTraceArm (r : Req) (s : State) : Host.Outcome State Fault Refusal := run (fun h => h.cmd r R.TRACE_CMD 7 (fun h => h.traceCmd 7)) s

/-- TRACE_CMD TRIGGER (R213). -/
def execTraceTrigger (r : Req) (s : State) : Host.Outcome State Fault Refusal :=
  run (fun h => h.cmd r R.TRACE_CMD 8 (fun h => h.traceCmd 8)) s

/-- TRACE_CMD CLEAR_STATS (R219). -/
def execTraceClearStats (r : Req) (s : State) : Host.Outcome State Fault Refusal :=
  run (fun h => h.cmd r R.TRACE_CMD 9 (fun h => h.traceCmd 9)) s

/-- What a tile's taps show on one executed edge (R195, R268, R491). (DESIGN CHOICE, log entry 150) -/
def execTileTapEdge (tile : TileId) (taps : Taps) (s : State) : Host.Outcome State Fault Refusal := run (fun h => h.tapEdge tile taps) s

/-- The low-power entry strobe of a tile with its state code (R195). -/
def execLowPowerEntry (tile : TileId) (state : Fin 16) (s : State) : Host.Outcome State Fault Refusal :=
  run (fun h => h.lowPowerEntry tile state) s

/-- The low-power exit strobe of a tile (R195). -/
def execLowPowerExit (tile : TileId) (s : State) : Host.Outcome State Fault Refusal := run (fun h => h.lowPowerExit tile) s

/-- TRACE_SYNC_PERIOD since a spur's last SYNC (R204). -/
def execTraceSyncPeriod (tile : TileId) (s : State) : Host.Outcome State Fault Refusal := run (fun h => h.syncPeriodDue tile) s

/-- The oldest packet of a spur's buffer is complete at the router (R206). -/
def execTracePacketRx (tile : TileId) (malformed : Bool) (s : State) : Host.Outcome State Fault Refusal :=
  run (fun h => h.tracePacketIn tile malformed) s

/-- Frames open for TRACE_FLUSH_LIMIT (R206). -/
def execTraceFlushLimit (s : State) : Host.Outcome State Fault Refusal := run Hub.flushFrames s

/-- The write of a closed frame (R208): `buffer` is its column, 128 for the hub's own; `err` is a fabric error. -/
def execTraceFrameWritten (buffer : Fin 129) (err : Bool) (s : State) : Host.Outcome State Fault Refusal :=
  run (fun h => h.frameWritten buffer err) s

/-- A frame buffer of a column is free after a loss (R207). -/
def execFrameBufferFree (column : Cane) (s : State) : Host.Outcome State Fault Refusal := run (fun h => h.beginOverflow column) s

/-- A spur trigger reaches the hub (R213): of a tile event, or of a window. -/
def execSpurTriggerRx (tile : TileId) (event : Bool) (window : Fin 4) (s : State) : Host.Outcome State Fault Refusal :=
  run (fun h => h.spurTrigger tile (b2n event) window) s

/-- A write of a TRACEF register (R221). -/
def execTracefWrite (r : Req) (off : BitVec 12) (v : Word) (s : State) : Host.Outcome State Fault Refusal :=
  run (fun h => h.regWrite r (0x1C000 + off.toNat) v.toNat) s

/-- 256 HCLK since a filter write (R220): `missing` says that a spur has not acknowledged it. -/
def execTracefBcastTimeout (missing : Bool) (s : State) : Host.Outcome State Fault Refusal := run (fun h => h.bcastTimeout missing) s

end Sys2Proof.Machine
end

