-- ==== Sys2Proof/Machine/Dispatch.lean ====
section
/-! DEFINITION. One arm per command of the opcode table: each is one call of the command's meaning. -/

namespace Sys2Proof.Machine

def exec (i : Instr) (s : State) : Host.Outcome State Fault Refusal :=
  match i with
  | .powerGood pkg fuses corrected failed => Sys2Proof.Machine.execPowerGood pkg fuses corrected failed s
  | .powerGoodFall => Sys2Proof.Machine.execPowerGoodFall s
  | .masterWaitExpiry => Sys2Proof.Machine.execMasterWaitExpiry s
  | .flashHeaderRead header => Sys2Proof.Machine.execFlashHeaderRead header s
  | .imageReadComplete rest keyOk sigOk eccBad => Sys2Proof.Machine.execImageReadComplete rest keyOk sigOk eccBad s
  | .imageFrameRx tendril seq offset data => Sys2Proof.Machine.execImageFrameRx tendril seq offset data s
  | .imageDoneRx hd length crc reason eccBad => Sys2Proof.Machine.execImageDoneRx hd length crc reason eccBad s
  | .imageWaitTimeout => Sys2Proof.Machine.execImageWaitTimeout s
  | .imageDoneTimeout => Sys2Proof.Machine.execImageDoneTimeout s
  | .masterAssumed => Sys2Proof.Machine.execMasterAssumed s
  | .bootBistDone found => Sys2Proof.Machine.execBootBistDone found s
  | .bootBistTimeout completed found => Sys2Proof.Machine.execBootBistTimeout completed found s
  | .dividerRestart => Sys2Proof.Machine.execDividerRestart s
  | .released => Sys2Proof.Machine.execReleased s
  | .noTimeRelease => Sys2Proof.Machine.execNoTimeRelease s
  | .bootRelease r => Sys2Proof.Machine.execBootRelease r s
  | .lifeAdvance r burnOk vppReady => Sys2Proof.Machine.execLifeAdvance r burnOk vppReady s
  | .lifeScrap r burnOk vppReady => Sys2Proof.Machine.execLifeScrap r burnOk vppReady s
  | .programKey r burnOk vppReady => Sys2Proof.Machine.execProgramKey r burnOk vppReady s
  | .addBadTile r burnOk vppReady => Sys2Proof.Machine.execAddBadTile r burnOk vppReady s
  | .authChallenge r entropyOk => Sys2Proof.Machine.execAuthChallenge r entropyOk s
  | .authVerify r keyOk sigOk => Sys2Proof.Machine.execAuthVerify r keyOk sigOk s
  | .authRevoke r => Sys2Proof.Machine.execAuthRevoke r s
  | .grantExpiry => Sys2Proof.Machine.execGrantExpiry s
  | .nonceExpiry => Sys2Proof.Machine.execNonceExpiry s
  | .authLockoutExpiry => Sys2Proof.Machine.execAuthLockoutExpiry s
  | .establish r => Sys2Proof.Machine.execEstablish r s
  | .reepoch r => Sys2Proof.Machine.execReepoch r s
  | .timeResync r => Sys2Proof.Machine.execTimeResync r s
  | .armTbs r => Sys2Proof.Machine.execArmTbs r s
  | .clkchg r => Sys2Proof.Machine.execClkchg r s
  | .clkchgCancel r => Sys2Proof.Machine.execClkchgCancel r s
  | .clkchgApplied east => Sys2Proof.Machine.execClkchgApplied east s
  | .tbSyncPulse high => Sys2Proof.Machine.execTbSyncPulse high s
  | .tbsArmTimeout => Sys2Proof.Machine.execTbsArmTimeout s
  | .tbsMiss => Sys2Proof.Machine.execTbsMiss s
  | .syncCheckPeriod => Sys2Proof.Machine.execSyncCheckPeriod s
  | .syncEstablishRx tendril gcn epoch origin => Sys2Proof.Machine.execSyncEstablishRx tendril gcn epoch origin s
  | .syncCheckRx tendril gcn epoch => Sys2Proof.Machine.execSyncCheckRx tendril gcn epoch s
  | .syncResyncRx tendril gcn epoch origin => Sys2Proof.Machine.execSyncResyncRx tendril gcn epoch origin s
  | .syncReplyRx tendril gcn epoch => Sys2Proof.Machine.execSyncReplyRx tendril gcn epoch s
  | .trainRx tendril echo senderCount echoedCount => Sys2Proof.Machine.execTrainRx tendril echo senderCount echoedCount s
  | .announceRx hd hops flags round => Sys2Proof.Machine.execAnnounceRx hd hops flags round s
  | .announcePeriod => Sys2Proof.Machine.execAnnouncePeriod s
  | .ackRx tendril seq => Sys2Proof.Machine.execAckRx tendril seq s
  | .tendrilAckTimer => Sys2Proof.Machine.execTendrilAckTimer s
  | .tendrilResendTimeout => Sys2Proof.Machine.execTendrilResendTimeout s
  | .tendrilRetrainTimer => Sys2Proof.Machine.execTendrilRetrainTimer s
  | .fedRetrain r => Sys2Proof.Machine.execFedRetrain r s
  | .reannounce r => Sys2Proof.Machine.execReannounce r s
  | .fedClearStats r => Sys2Proof.Machine.execFedClearStats r s
  | .fedDomainWrite r v => Sys2Proof.Machine.execFedDomainWrite r v s
  | .fedJobWrite r v => Sys2Proof.Machine.execFedJobWrite r v s
  | .tendrilRegRead hd addr => Sys2Proof.Machine.execTendrilRegRead hd addr s
  | .tendrilRegWrite hd addr v => Sys2Proof.Machine.execTendrilRegWrite hd addr v s
  | .respRx hd opcode status data => Sys2Proof.Machine.execRespRx hd opcode status data s
  | .remoteTimeout => Sys2Proof.Machine.execRemoteTimeout s
  | .timeReqRx hd => Sys2Proof.Machine.execTimeReqRx hd s
  | .corkStop r => Sys2Proof.Machine.execCorkStop r s
  | .corkStep r => Sys2Proof.Machine.execCorkStep r s
  | .corkResume r => Sys2Proof.Machine.execCorkResume r s
  | .corkAbort r => Sys2Proof.Machine.execCorkAbort r s
  | .stallSet r => Sys2Proof.Machine.execStallSet r s
  | .stallClear r => Sys2Proof.Machine.execStallClear r s
  | .corkWaveRx tile goodA goodB => Sys2Proof.Machine.execCorkWaveRx tile goodA goodB s
  | .tileStopped tile => Sys2Proof.Machine.execTileStopped tile s
  | .stoppedReportRx tile => Sys2Proof.Machine.execStoppedReportRx tile s
  | .corkReportTimeout => Sys2Proof.Machine.execCorkReportTimeout s
  | .resumed => Sys2Proof.Machine.execResumed s
  | .waveFrameRx tendril waveId issuer op extReq target start tag mode field => Sys2Proof.Machine.execWaveFrameRx tendril waveId issuer op extReq target start tag mode field s
  | .corkReportRx hd waveId status flags scn => Sys2Proof.Machine.execCorkReportRx hd waveId status flags scn s
  | .memberReportTimeout => Sys2Proof.Machine.execMemberReportTimeout s
  | .stallPatternApply => Sys2Proof.Machine.execStallPatternApply s
  | .manualStallExpiry => Sys2Proof.Machine.execManualStallExpiry s
  | .holdRequestRx tile => Sys2Proof.Machine.execHoldRequestRx tile s
  | .holdReleaseRx tile => Sys2Proof.Machine.execHoldReleaseRx tile s
  | .holdLimit => Sys2Proof.Machine.execHoldLimit s
  | .stallReqRx hd mask tag => Sys2Proof.Machine.execStallReqRx hd mask tag s
  | .stallFrameRx tendril anchor mask tag ga => Sys2Proof.Machine.execStallFrameRx tendril anchor mask tag ga s
  | .jobCheckPeriod => Sys2Proof.Machine.execJobCheckPeriod s
  | .jobCheckRx hd tag gq => Sys2Proof.Machine.execJobCheckRx hd tag gq s
  | .jobCheckRespRx hd status scn => Sys2Proof.Machine.execJobCheckRespRx hd status scn s
  | .powerWindowEnd counts => Sys2Proof.Machine.execPowerWindowEnd counts s
  | .calStart r => Sys2Proof.Machine.execCalStart r s
  | .pwrTelemFrame v => Sys2Proof.Machine.execPwrTelemFrame v s
  | .telemMissing => Sys2Proof.Machine.execTelemMissing s
  | .estOnlyForce r on => Sys2Proof.Machine.execEstOnlyForce r on s
  | .pwrClkreq r part div => Sys2Proof.Machine.execPwrClkreq r part div s
  | .pwrCtxWrite r v => Sys2Proof.Machine.execPwrCtxWrite r v s
  | .harvest r => Sys2Proof.Machine.execHarvest r s
  | .harvSetupDone => Sys2Proof.Machine.execHarvSetupDone s
  | .drainLimit => Sys2Proof.Machine.execDrainLimit s
  | .harvRecordRx column bad srcErr got => Sys2Proof.Machine.execHarvRecordRx column bad srcErr got s
  | .harvSpurTimeout column => Sys2Proof.Machine.execHarvSpurTimeout column s
  | .harvDone err => Sys2Proof.Machine.execHarvDone err s
  | .caskAvailable => Sys2Proof.Machine.execCaskAvailable s
  | .harvAbort r => Sys2Proof.Machine.execHarvAbort r s
  | .decant r => Sys2Proof.Machine.execDecant r s
  | .decantDone => Sys2Proof.Machine.execDecantDone s
  | .decantRelease r => Sys2Proof.Machine.execDecantRelease r s
  | .caneTurnDone => Sys2Proof.Machine.execCaneTurnDone s
  | .caneLocate r => Sys2Proof.Machine.execCaneLocate r s
  | .locateDone cane row => Sys2Proof.Machine.execLocateDone cane row s
  | .clearBroken r => Sys2Proof.Machine.execClearBroken r s
  | .caneClearStats r => Sys2Proof.Machine.execCaneClearStats r s
  | .caneBrokenWrite r word v => Sys2Proof.Machine.execCaneBrokenWrite r word v s
  | .harvestArgsRx hd args => Sys2Proof.Machine.execHarvestArgsRx hd args s
  | .fedHarvestRx hd args => Sys2Proof.Machine.execFedHarvestRx hd args s
  | .pressBlockDone lane fault => Sys2Proof.Machine.execPressBlockDone lane fault s
  | .refFetchDone lane ok => Sys2Proof.Machine.execRefFetchDone lane ok s
  | .flushBlock r lane taken => Sys2Proof.Machine.execFlushBlock r lane taken s
  | .laneRetire r lane => Sys2Proof.Machine.execLaneRetire r lane s
  | .laneRestore r lane => Sys2Proof.Machine.execLaneRestore r lane s
  | .pressClearStats r lane => Sys2Proof.Machine.execPressClearStats r lane s
  | .pressCtrlWrite r lane v => Sys2Proof.Machine.execPressCtrlWrite r lane v s
  | .cellarResponse user err => Sys2Proof.Machine.execCellarResponse user err s
  | .cellPin r => Sys2Proof.Machine.execCellPin r s
  | .cellUnpin r => Sys2Proof.Machine.execCellUnpin r s
  | .cellDelete r => Sys2Proof.Machine.execCellDelete r s
  | .cellFormat r => Sys2Proof.Machine.execCellFormat r s
  | .formatDone => Sys2Proof.Machine.execFormatDone s
  | .cellClearStats r => Sys2Proof.Machine.execCellClearStats r s
  | .rack r => Sys2Proof.Machine.execRack r s
  | .rackTrace r => Sys2Proof.Machine.execRackTrace r s
  | .rackCancel r => Sys2Proof.Machine.execRackCancel r s
  | .rackClearStats r => Sys2Proof.Machine.execRackClearStats r s
  | .rackStart => Sys2Proof.Machine.execRackStart s
  | .rackPause r on => Sys2Proof.Machine.execRackPause r on s
  | .holdRenew => Sys2Proof.Machine.execHoldRenew s
  | .rackHoldLapse => Sys2Proof.Machine.execRackHoldLapse s
  | .holdRx hd vintage kind => Sys2Proof.Machine.execHoldRx hd vintage kind s
  | .closedRx hd vintage flags => Sys2Proof.Machine.execClosedRx hd vintage flags s
  | .traceStart r => Sys2Proof.Machine.execTraceStart r s
  | .traceStop r => Sys2Proof.Machine.execTraceStop r s
  | .traceFreeze r => Sys2Proof.Machine.execTraceFreeze r s
  | .traceUnfreeze r => Sys2Proof.Machine.execTraceUnfreeze r s
  | .traceResync r => Sys2Proof.Machine.execTraceResync r s
  | .clearRing r => Sys2Proof.Machine.execClearRing r s
  | .traceArm r => Sys2Proof.Machine.execTraceArm r s
  | .traceTrigger r => Sys2Proof.Machine.execTraceTrigger r s
  | .traceClearStats r => Sys2Proof.Machine.execTraceClearStats r s
  | .tileTapEdge tile taps => Sys2Proof.Machine.execTileTapEdge tile taps s
  | .lowPowerEntry tile state => Sys2Proof.Machine.execLowPowerEntry tile state s
  | .lowPowerExit tile => Sys2Proof.Machine.execLowPowerExit tile s
  | .traceSyncPeriod tile => Sys2Proof.Machine.execTraceSyncPeriod tile s
  | .tracePacketRx tile malformed => Sys2Proof.Machine.execTracePacketRx tile malformed s
  | .traceFlushLimit => Sys2Proof.Machine.execTraceFlushLimit s
  | .traceFrameWritten buffer err => Sys2Proof.Machine.execTraceFrameWritten buffer err s
  | .frameBufferFree column => Sys2Proof.Machine.execFrameBufferFree column s
  | .spurTriggerRx tile event window => Sys2Proof.Machine.execSpurTriggerRx tile event window s
  | .tracefWrite r off v => Sys2Proof.Machine.execTracefWrite r off v s
  | .tracefBcastTimeout missing => Sys2Proof.Machine.execTracefBcastTimeout missing s
  | .tasteTick => Sys2Proof.Machine.execTasteTick s
  | .tasteRequestRx tile => Sys2Proof.Machine.execTasteRequestRx tile s
  | .tasteOpIssue tile desc => Sys2Proof.Machine.execTasteOpIssue tile desc s
  | .tasteMissed tile => Sys2Proof.Machine.execTasteMissed tile s
  | .tasteLate tile => Sys2Proof.Machine.execTasteLate tile s
  | .sampleRx buffer bad got => Sys2Proof.Machine.execSampleRx buffer bad got s
  | .tasterResult taster faulty => Sys2Proof.Machine.execTasterResult taster faulty s
  | .sampleNow r => Sys2Proof.Machine.execSampleNow r s
  | .unlockEvid r => Sys2Proof.Machine.execUnlockEvid r s
  | .retireTaster r => Sys2Proof.Machine.execRetireTaster r s
  | .restoreTaster r => Sys2Proof.Machine.execRestoreTaster r s
  | .tasteClearStats r => Sys2Proof.Machine.execTasteClearStats r s
  | .evidDataRead r => Sys2Proof.Machine.execEvidDataRead r s
  | .runTiles r => Sys2Proof.Machine.execRunTiles r s
  | .runExt r => Sys2Proof.Machine.execRunExt r s
  | .digestAbort r => Sys2Proof.Machine.execDigestAbort r s
  | .digestClearStats r => Sys2Proof.Machine.execDigestClearStats r s
  | .digestPassEnd ext crcBad => Sys2Proof.Machine.execDigestPassEnd ext crcBad s
  | .digestRepeat ext => Sys2Proof.Machine.execDigestRepeat ext s
  | .fedDigestRx hd tag set flags => Sys2Proof.Machine.execFedDigestRx hd tag set flags s
  | .numwWindowEnd bad => Sys2Proof.Machine.execNumwWindowEnd bad s
  | .rearmFirst r => Sys2Proof.Machine.execRearmFirst r s
  | .numwClearStats r => Sys2Proof.Machine.execNumwClearStats r s
  | .beatReportRx slot count => Sys2Proof.Machine.execBeatReportRx slot count s
  | .hangThresholdExpiry => Sys2Proof.Machine.execHangThresholdExpiry s
  | .strobeFaultRx tile => Sys2Proof.Machine.execStrobeFaultRx tile s
  | .auditTick => Sys2Proof.Machine.execAuditTick s
  | .auditResult crcBad => Sys2Proof.Machine.execAuditResult crcBad s
  | .policyRetry => Sys2Proof.Machine.execPolicyRetry s
  | .hangFence r => Sys2Proof.Machine.execHangFence r s
  | .hangRelease r => Sys2Proof.Machine.execHangRelease r s
  | .clearFired r => Sys2Proof.Machine.execClearFired r s
  | .clearHistory r => Sys2Proof.Machine.execClearHistory r s
  | .hangClearStats r => Sys2Proof.Machine.execHangClearStats r s
  | .fenceDrained slot => Sys2Proof.Machine.execFenceDrained slot s
  | .fenceDrainLimit => Sys2Proof.Machine.execFenceDrainLimit s
  | .fenceAbandonDone slot => Sys2Proof.Machine.execFenceAbandonDone slot s
  | .fenceLimit => Sys2Proof.Machine.execFenceLimit s
  | .fenceAckTimeout slot => Sys2Proof.Machine.execFenceAckTimeout slot s
  | .ladderReset r => Sys2Proof.Machine.execLadderReset r s
  | .isolate r => Sys2Proof.Machine.execIsolate r s
  | .readmit r => Sys2Proof.Machine.execReadmit r s
  | .rsetClearStats r => Sys2Proof.Machine.execRsetClearStats r s
  | .tileResetAck tile => Sys2Proof.Machine.execTileResetAck tile s
  | .tileResetTimeout tile => Sys2Proof.Machine.execTileResetTimeout tile s
  | .isolationWatchEnd tile strobe answered => Sys2Proof.Machine.execIsolationWatchEnd tile strobe answered s
  | .ladderLevelDone => Sys2Proof.Machine.execLadderLevelDone s
  | .ladderLevelTimeout => Sys2Proof.Machine.execLadderLevelTimeout s
  | .ladderRx hd level released tag => Sys2Proof.Machine.execLadderRx hd level released tag s
  | .peerLost pkg tags => Sys2Proof.Machine.execPeerLost pkg tags s
  | .tendrilPeerLost hd pkg count tags => Sys2Proof.Machine.execTendrilPeerLost hd pkg count tags s
  | .peerPolicyDone => Sys2Proof.Machine.execPeerPolicyDone s
  | .pcsCodewordRx symbols => Sys2Proof.Machine.execPcsCodewordRx symbols s
  | .flitRx flit => Sys2Proof.Machine.execFlitRx flit s
  | .initFlitRx flit => Sys2Proof.Machine.execInitFlitRx flit s
  | .flitSlot => Sys2Proof.Machine.execFlitSlot s
  | .linkReplayTimeout => Sys2Proof.Machine.execLinkReplayTimeout s
  | .nakTimeout => Sys2Proof.Machine.execNakTimeout s
  | .linkIdleTimeout => Sys2Proof.Machine.execLinkIdleTimeout s
  | .linkTrainTimeout => Sys2Proof.Machine.execLinkTrainTimeout s
  | .linkRetrainTimer => Sys2Proof.Machine.execLinkRetrainTimer s
  | .pmaReadyChange ready => Sys2Proof.Machine.execPmaReadyChange ready s
  | .linkRetrain r => Sys2Proof.Machine.execLinkRetrain r s
  | .linkDownCmd r => Sys2Proof.Machine.execLinkDownCmd r s
  | .linkClearStats r => Sys2Proof.Machine.execLinkClearStats r s
  | .messageDelivered => Sys2Proof.Machine.execMessageDelivered s
  | .portRegRead tag dest body => Sys2Proof.Machine.execPortRegRead tag dest body s
  | .portRegWrite tag dest body => Sys2Proof.Machine.execPortRegWrite tag dest body s
  | .portCork tag dest body => Sys2Proof.Machine.execPortCork tag dest body s
  | .portXpkg tag dest body => Sys2Proof.Machine.execPortXpkg tag dest body s
  | .portXpkgReport tag dest body => Sys2Proof.Machine.execPortXpkgReport tag dest body s
  | .portPeerLost tag dest body => Sys2Proof.Machine.execPortPeerLost tag dest body s
  | .timePing tag dest body => Sys2Proof.Machine.execTimePing tag dest body s
  | .bistRun r => Sys2Proof.Machine.execBistRun r s
  | .bistAbort r => Sys2Proof.Machine.execBistAbort r s
  | .loadPack r => Sys2Proof.Machine.execLoadPack r s
  | .packCheckDone slot err => Sys2Proof.Machine.execPackCheckDone slot err s
  | .dropPack r => Sys2Proof.Machine.execDropPack r s
  | .bistClearStats r => Sys2Proof.Machine.execBistClearStats r s
  | .bistRunEnd target unit outcome randomFail info got want => Sys2Proof.Machine.execBistRunEnd target unit outcome randomFail info got want s
  | .bistRunTimeout => Sys2Proof.Machine.execBistRunTimeout s
  | .jtagRegbusAccess data => Sys2Proof.Machine.execJtagRegbusAccess data s
  | .tapReset => Sys2Proof.Machine.execTapReset s
  | .tendingRound found => Sys2Proof.Machine.execTendingRound found s
  | .tendNow r => Sys2Proof.Machine.execTendNow r s
  | .relClearStats r => Sys2Proof.Machine.execRelClearStats r s
  | .faultInject r v => Sys2Proof.Machine.execFaultInject r v s
  | .stateMachineFault page => Sys2Proof.Machine.execStateMachineFault page s
  | .heartbeatTimeout => Sys2Proof.Machine.execHeartbeatTimeout s
  | .pairTakeover r => Sys2Proof.Machine.execPairTakeover r s
  | .restoreStandby r => Sys2Proof.Machine.execRestoreStandby r s
  | .pairClearStats r => Sys2Proof.Machine.execPairClearStats r s
  | .takeoverDone => Sys2Proof.Machine.execTakeoverDone s
  | .mirrorEntryRx path good entry => Sys2Proof.Machine.execMirrorEntryRx path good entry s
  | .checkpointPeriod => Sys2Proof.Machine.execCheckpointPeriod s
  | .checkpointRx good => Sys2Proof.Machine.execCheckpointRx good s
  | .coopStart r coop script => Sys2Proof.Machine.execCoopStart r coop script s
  | .coopAbort r coop => Sys2Proof.Machine.execCoopAbort r coop s
  | .loadBegin r coop => Sys2Proof.Machine.execLoadBegin r coop s
  | .loadCommit r coop => Sys2Proof.Machine.execLoadCommit r coop s
  | .coopClearStats r coop => Sys2Proof.Machine.execCoopClearStats r coop s
  | .coopProgDataWrite r coop v => Sys2Proof.Machine.execCoopProgDataWrite r coop v s
  | .coopDataDataAccess r coop write => Sys2Proof.Machine.execCoopDataDataAccess r coop write s
  | .coopEventTrigger coop => Sys2Proof.Machine.execCoopEventTrigger coop s
  | .coopPendingStart coop => Sys2Proof.Machine.execCoopPendingStart coop s
  | .coopNop coop => Sys2Proof.Machine.execCoopNop coop s
  | .coopLi coop => Sys2Proof.Machine.execCoopLi coop s
  | .coopLih coop => Sys2Proof.Machine.execCoopLih coop s
  | .coopAddi coop => Sys2Proof.Machine.execCoopAddi coop s
  | .coopAndi coop => Sys2Proof.Machine.execCoopAndi coop s
  | .coopOri coop => Sys2Proof.Machine.execCoopOri coop s
  | .coopAdd coop => Sys2Proof.Machine.execCoopAdd coop s
  | .coopSub coop => Sys2Proof.Machine.execCoopSub coop s
  | .coopAnd coop => Sys2Proof.Machine.execCoopAnd coop s
  | .coopOr coop => Sys2Proof.Machine.execCoopOr coop s
  | .coopXor coop => Sys2Proof.Machine.execCoopXor coop s
  | .coopShl coop => Sys2Proof.Machine.execCoopShl coop s
  | .coopShr coop => Sys2Proof.Machine.execCoopShr coop s
  | .coopLd coop => Sys2Proof.Machine.execCoopLd coop s
  | .coopSt coop => Sys2Proof.Machine.execCoopSt coop s
  | .coopJmp coop => Sys2Proof.Machine.execCoopJmp coop s
  | .coopBeq coop => Sys2Proof.Machine.execCoopBeq coop s
  | .coopBne coop => Sys2Proof.Machine.execCoopBne coop s
  | .coopBltu coop => Sys2Proof.Machine.execCoopBltu coop s
  | .coopBgeu coop => Sys2Proof.Machine.execCoopBgeu coop s
  | .coopCall coop => Sys2Proof.Machine.execCoopCall coop s
  | .coopRet coop => Sys2Proof.Machine.execCoopRet coop s
  | .coopEnd coop => Sys2Proof.Machine.execCoopEnd coop s
  | .coopFail coop => Sys2Proof.Machine.execCoopFail coop s
  | .coopSig coop => Sys2Proof.Machine.execCoopSig coop s
  | .coopRd coop => Sys2Proof.Machine.execCoopRd coop s
  | .coopWr coop => Sys2Proof.Machine.execCoopWr coop s
  | .coopCork coop => Sys2Proof.Machine.execCoopCork coop s
  | .coopHarv coop => Sys2Proof.Machine.execCoopHarv coop s
  | .coopRack coop => Sys2Proof.Machine.execCoopRack coop s
  | .coopXreg coop => Sys2Proof.Machine.execCoopXreg coop s
  | .coopWait coop => Sys2Proof.Machine.execCoopWait coop s
  | .coopDelay coop => Sys2Proof.Machine.execCoopDelay coop s
  | .coopWaitt coop => Sys2Proof.Machine.execCoopWaitt coop s
  | .coopGetev coop => Sys2Proof.Machine.execCoopGetev coop s
  | .coopStat coop => Sys2Proof.Machine.execCoopStat coop s
  | .coopArm coop => Sys2Proof.Machine.execCoopArm coop s
  | .coopEventArrival coop => Sys2Proof.Machine.execCoopEventArrival coop s
  | .coopWaitTimeout coop => Sys2Proof.Machine.execCoopWaitTimeout coop s
  | .coopDelayExpiry coop => Sys2Proof.Machine.execCoopDelayExpiry coop s
  | .coopWaittReached coop => Sys2Proof.Machine.execCoopWaittReached coop s
  | .coopWatchdog coop => Sys2Proof.Machine.execCoopWatchdog coop s
  | .glbOpen r => Sys2Proof.Machine.execGlbOpen r s
  | .addTiles r => Sys2Proof.Machine.execAddTiles r s
  | .removeTiles r => Sys2Proof.Machine.execRemoveTiles r s
  | .glbClose r => Sys2Proof.Machine.execGlbClose r s
  | .softReset r page => Sys2Proof.Machine.execSoftReset r page s
  | .pgLock r page => Sys2Proof.Machine.execPgLock r page s
  | .pgEventForce r page bits => Sys2Proof.Machine.execPgEventForce r page bits s
  | .pgClaim r page => Sys2Proof.Machine.execPgClaim r page s
  | .pgRelease r page => Sys2Proof.Machine.execPgRelease r page s
  | .forceRelease r page => Sys2Proof.Machine.execForceRelease r page s
  | .loReadLatch r addr => Sys2Proof.Machine.execLoReadLatch r addr s
  | .registerWrite r addr v => Sys2Proof.Machine.execRegisterWrite r addr v s
  | .spurWindowAccess r off write => Sys2Proof.Machine.execSpurWindowAccess r off write s
  | .spurWindowTimeout r crc => Sys2Proof.Machine.execSpurWindowTimeout r crc s
  | .spurSramLoRead r => Sys2Proof.Machine.execSpurSramLoRead r s
  | .spurSramLoWrite r v => Sys2Proof.Machine.execSpurSramLoWrite r v s
  | .spurSramHiWrite r v => Sys2Proof.Machine.execSpurSramHiWrite r v s
  | .i3cEntdaa addr => Sys2Proof.Machine.execI3cEntdaa addr s
  | .i3cPrivateWrite addr data parityBad => Sys2Proof.Machine.execI3cPrivateWrite addr data parityBad s
  | .i3cPrivateRead parityBad => Sys2Proof.Machine.execI3cPrivateRead parityBad s
  | .memoryDelivery tile dest data be mtag err => Sys2Proof.Machine.execMemoryDelivery tile dest data be mtag err s
  | .memoryCompletion tile rd => Sys2Proof.Machine.execMemoryCompletion tile rd s
  | .tileScnStrobe tile sram scan => Sys2Proof.Machine.execTileScnStrobe tile sram scan s
  | .frameCrcError tendril => Sys2Proof.Machine.execFrameCrcError tendril s
  | .mirrorPathLoss path => Sys2Proof.Machine.execMirrorPathLoss path s

end Sys2Proof.Machine
end

