-- ==== Sys2Proof/Machine/Tick.lean ====
section
/-! DEFINITION. One HCLK period of the hub without a command: what happens by itself at a clock edge (02_time_base.md, 03_cork.md,
05_press.md, 10_hang_reset.md, 12_rack_port.md, 16_coopers.md). Deadlines are rows of the opcode table and act when commanded. -/

namespace Sys2Proof.Machine

/-- PRESS_STALL of a lane whose output waits for a cask or for its cellar channel counts HCLK, saturating (R164). -/
def Hub.stallCount (s : Hub) (l : Nat) : Hub :=
  if (s.lane l).held || ((s.lane l).cur.isSome && !s.channelFree l) then s.bump (F.PRESS_STALL_HCLK.lane l) 1 else s

/-- DONE of GLB_CMD_STATUS returns when the trellis has carried the command to its spurs (R471). -/
def Hub.glbTick (s : Hub) : Hub :=
  match s.glbLeft with
  | 0 => s
  | 1 => { s.wr F.GLB_CMD_STATUS_DONE 1 with glbLeft := 0 }
  | n + 2 => { s with glbLeft := n + 1 }

/-- The counts step: the HCLK count of R43, and GCN once there is a time base (R37). -/
def Hub.countOn (s : Hub) : Hub :=
  { s with time := { s.time with
    hclk := s.time.hclk + 1
    gcn := if s.timeOk then (s.time.gcn + 1) % 2 ^ 64 else s.time.gcn } }

/-- The period that ends: the tendrils' transmitters carry a beat, the waves that arrived in it are acted on, audits latch, references and monitors step, cork operations with nothing left to wait for complete, watchdogs,
stall counters and the silence of harvest spurs count; then the counts step. -/
def Hub.tick (s : Hub) : Hub :=
  let s := doEach [0, 1, 2, 3] s Hub.tendTick
  let s := s.wavesLand.auditLatch
  let s := doEach s.openSlots s Hub.domTick
  let s := doEach s.openSlots s Hub.monTick
  let s := s.corkTick
  let s := doEach [0, 1] s Hub.coopTick
  let s := doEach (s.lanes.cells.map Prod.fst) s Hub.stallCount
  let s := doEach s.harv.cur.keys s Hub.silentTick
  let s := s.bistTick.resetsTick
  let s := if s.trace.stopping && s.flag F.TRACE_STATE_RUNNING then s.traceFlush else s
  s.pmaRelease.pcsTick.glbTick.countOn.waveCrcRx

/-- A step with no command waiting: a hub with PWR_GOOD high passes one HCLK period; without it, nothing happens (R372). -/
def State.tick (s : State) : Host.Outcome State Fault Refusal :=
  if s.hub.time.powered then run Hub.tick s else .next s

end Sys2Proof.Machine
end

