-- ==== Sys2Proof/Machine/Step.lean ====
section
/-! DEFINITION. One step of the machine: the command at the front of the queue, or one HCLK period when none waits. -/

namespace Sys2Proof.Machine

/-- Takes the command at the front of the queue and answers what it does; with no command one HCLK period passes (log entry 2). -/
def step (s : State) : Host.Outcome State Fault Refusal :=
  match s.pending with
  | c :: rest => exec c { s with pending := rest }
  | [] => s.tick

/-- The command a table word spells, put at the front of the queue; the table gives no command a word (01_architecture.md, R1). -/
def State.withFetchWord (s : State) (nbits w : Nat) : State :=
  match Sys2Proof.decodeTableWord nbits w with
  | some c => { s with pending := c :: s.pending }
  | none => s

end Sys2Proof.Machine
end

