-- ==== Sys2Proof/WellFormed.lean ====
section
/-! DEFINITION. The commands whose operands have the shape the hub's wires give them. Every other operand's type already bounds it. -/

namespace Sys2Proof

/-- A command is well formed: the byte and symbol strings it carries have the length the spec gives them. The header of an image is 64 bytes
(R381), a flit or INIT flit 80 bytes (R344), a codeword 544 symbols (R341), the data of a delivery 64 bytes (R493); a power window ends with
sixteen activity counts (R85). -/
def Instr.WellFormed : Instr → Bool
  | .flashHeaderRead header => header.length == 64
  | .pcsCodewordRx symbols => symbols.length == 544
  | .flitRx flit => flit.length == 80
  | .initFlitRx flit => flit.length == 80
  | .powerWindowEnd counts => counts.length == 16
  | .memoryDelivery _ _ data _ _ _ => data.length == 64
  | _ => true

end Sys2Proof
end

