-- ==== Sys2Proof/Safety.lean ====
section
/-! DEFINITION. What statements about the whole machine are made of: a step that goes on, and the invariant every step keeps. -/

namespace Sys2Proof.Machine

/-- The outcome is a next state. -/
def goesOn (o : Host.Outcome State Fault Refusal) : Bool :=
  match o with
  | .next _ => true
  | _ => false

/-- Every command that waits is well formed. -/
def State.queueWf (s : State) : Bool := s.pending.all Instr.WellFormed

/-- The memories are in canonical form, and nothing a command raises or writes on its own edge is left over for a later one. -/
def State.clean (s : State) : Bool := s.hub.store.wf && s.hub.writes.isEmpty && s.hub.occs.isEmpty

/-- The outputs to the clock generators, to the PMA and to the spurs' root selection are what the registers and the time base say (R420, R486,
R487). -/
def Hub.driven (h : Hub) : Bool :=
  h.pins.rootActive == h.rd F.PAIR_STATE_ACTIVE && h.pins.tclkDivW == h.divOut 0 (h.rd F.TIME_CLK_DIV_WEST) && h.pins.tclkDivE == h.divOut 1 (h.rd F.TIME_CLK_DIV_EAST) &&
  h.pins.tclkRestart == (h.time.restartAt == some (h.now + 1)) && h.pins.tclkSwitchW == h.switchNext 0 &&
  h.pins.tclkSwitchE == h.switchNext 1 && (!h.pins.pmaResetN || (h.time.powered && h.isLead))

/-- Nothing waits to go on by itself on this edge, no fault is planted, trace does not run and no hub event is a trigger: what a command does is what its unit does, and
the events it raises reach their consumers. -/
def Hub.calm (h : Hub) : Bool :=
  h.hangCtl.reports.isEmpty && h.hang.cells.all (fun p => p.2.policy == 0 || !p.2.pdue) && h.hangCtl.peers.all (fun p => !p.due) &&
  h.link.reqQ.isEmpty && h.softReset.isEmpty && (!h.ladder.active || (h.ladder.begun && h.ladder.level < Lv.FIELD)) &&
  !(h.harv.op == 1 && h.harv.admitted && !h.harv.drained && h.harv.ended.isNone) && h.rel.inject.isNone &&
  h.harv.cur.cells.all (fun p => p.2.phase != 1 || !p.2.tiles.isEmpty) && (!h.harvReady || h.rd F.HARV_STATUS_PHASE == 5) &&
  !h.flag F.TRACE_STATE_RUNNING && !h.flag F.TRACE_TRIG_CTRL_HUBEV_EN && h.occs.isEmpty && h.writes.isEmpty

/-- The command goes on to a next state whose queue is untouched and whose hub has the property. -/
def Answers (i : Instr) (s : State) (p : Hub → Prop) : Prop := ∃ t, exec i s = .next t ∧ t.pending = s.pending ∧ p t.hub

/-- The register bus takes a requester's write of a register (R468, R469). -/
def Hub.takesWrite (h : Hub) (r : Req) (addr v : Nat) : Bool := h.accessStatus r addr true v == St.OK

/-- The registers that delivering events may change, by key: PG_EVENT of every page (R22) and REL_DEGRADED (R426). -/
def eventKey (k : Nat) : Bool := k % 0x1000 == R.PG_EVENT || k == R.REL_DEGRADED

/-- A cooper without the occurrences on their way to it (R446), which every event may add to. -/
def Cooper.told (x : Cooper) : Cooper := { x with transit := [], trig := [] }

/-- `t` with everything that answering on the bus, writing registers, delivering events and driving the outputs may change taken from `s`: the
registers, the bus, the occurrences on their way to the coopers, the rack port's event queue and the clock outputs. Two hubs agree in all the
rest when this is `s`. -/
def Hub.rest (s t : Hub) : Hub :=
  { t with
    regs := s.regs
    bus := s.bus
    coops := if (t.coop 0).told = (s.coop 0).told ∧ (t.coop 1).told = (s.coop 1).told then s.coops else t.coops
    link := { t.link with evQ := s.link.evQ, evLoss := s.link.evLoss, lossDue := s.link.lossDue }
    pins := s.pins }

/-- Every register of `t` reads as in `s`, but for those of the keys and those that delivering events may change. -/
def Hub.keeps (s t : Hub) (keys : List Nat) : Prop :=
  ∀ a b, eventKey (regKey a b) = false → regKey a b ∉ keys → t.regB a b = s.regB a b

/-- The same, but for the registers of whole pages. -/
def Hub.keepsOff (s t : Hub) (pages : List Nat) : Prop :=
  ∀ a b, eventKey (regKey a b) = false → regKey a b % 0x100000 / 0x1000 ∉ pages → t.regB a b = s.regB a b

/-- The command rows that write one register and nothing before it: the requester, the address and the value written (R458, R469). -/
def asWrite (h : Hub) (i : Instr) : Option (Req × Nat × Nat) :=
  match i with
  | .bistRun r => some (r, R.BIST_CMD, 1)
  | .bistAbort r => some (r, R.BIST_CMD, 2)
  | .loadPack r => some (r, R.BIST_CMD, 3)
  | .dropPack r => some (r, R.BIST_CMD, 4)
  | .bistClearStats r => some (r, R.BIST_CMD, 5)
  | .bootRelease r => some (r, R.BOOT_CMD, 1)
  | .authChallenge r _ => some (r, R.AUTH_CMD, 1)
  | .authVerify r _ _ => some (r, R.AUTH_CMD, 2)
  | .authRevoke r => some (r, R.AUTH_CMD, 3)
  | .cellPin r => some (r, R.CELL_CMD, 1)
  | .cellUnpin r => some (r, R.CELL_CMD, 2)
  | .cellDelete r => some (r, R.CELL_CMD, 3)
  | .cellFormat r => some (r, R.CELL_CMD, 4)
  | .cellClearStats r => some (r, R.CELL_CMD, 5)
  | .rack r => some (r, R.RACK_CMD, 1)
  | .rackTrace r => some (r, R.RACK_CMD, 2)
  | .rackCancel r => some (r, R.RACK_CMD, 3)
  | .rackClearStats r => some (r, R.RACK_CMD, 4)
  | .rackPause r on => some (r, R.RACK_CTRL, setBits (h.reg R.RACK_CTRL) 1 1 (b2n on))
  | .coopStart r coop script => some (r, R.COOP_CMD + 0x1000 * coop, 1 + 16 * script)
  | .coopAbort r coop => some (r, R.COOP_CMD + 0x1000 * coop, 2)
  | .loadBegin r coop => some (r, R.COOP_CMD + 0x1000 * coop, 3)
  | .loadCommit r coop => some (r, R.COOP_CMD + 0x1000 * coop, 4)
  | .coopClearStats r coop => some (r, R.COOP_CMD + 0x1000 * coop, 5)
  | .coopProgDataWrite r coop v => some (r, R.COOP_PROG_DATA + 0x1000 * coop, v.toNat)
  | .corkStop r => some (r, R.CORK_CMD, 1)
  | .corkStep r => some (r, R.CORK_CMD, 2)
  | .corkResume r => some (r, R.CORK_CMD, 3)
  | .corkAbort r => some (r, R.CORK_CMD, 4)
  | .stallSet r => some (r, R.CORK_CMD, 5)
  | .stallClear r => some (r, R.CORK_CMD, 6)
  | .fedRetrain r => some (r, R.FED_CMD, 1)
  | .reannounce r => some (r, R.FED_CMD, 2)
  | .fedClearStats r => some (r, R.FED_CMD, 3)
  | .fedDomainWrite r v => some (r, R.FED_DOMAIN, v.toNat)
  | .fedJobWrite r v => some (r, R.FED_JOB, v.toNat)
  | .hangFence r => some (r, R.HANG_CMD, 1)
  | .hangRelease r => some (r, R.HANG_CMD, 2)
  | .clearFired r => some (r, R.HANG_CMD, 3)
  | .clearHistory r => some (r, R.HANG_CMD, 4)
  | .hangClearStats r => some (r, R.HANG_CMD, 5)
  | .ladderReset r => some (r, R.RSET_CMD, 1)
  | .isolate r => some (r, R.RSET_CMD, 2)
  | .readmit r => some (r, R.RSET_CMD, 3)
  | .rsetClearStats r => some (r, R.RSET_CMD, 4)
  | .harvest r => some (r, R.HARV_CMD, 1)
  | .harvAbort r => some (r, R.HARV_CMD, 3)
  | .decant r => some (r, R.HARV_CMD, 2)
  | .decantRelease r => some (r, R.HARV_CMD, 4)
  | .caneLocate r => some (r, R.CANE_CMD, 1)
  | .clearBroken r => some (r, R.CANE_CMD, 2)
  | .caneClearStats r => some (r, R.CANE_CMD, 3)
  | .caneBrokenWrite r word v => some (r, R.CANE_BROKEN_0 + 4 * word, v.toNat)
  | .linkRetrain r => some (r, R.LINK_CMD, 1)
  | .linkDownCmd r => some (r, R.LINK_CMD, 2)
  | .linkClearStats r => some (r, R.LINK_CMD, 3)
  | .calStart r => some (r, R.PWR_CTRL, h.reg R.PWR_CTRL ||| 8)
  | .pwrClkreq r part div => some (r, R.PWR_CLKREQ, part + 2 * div + 8)
  | .pwrCtxWrite r v => some (r, R.PWR_CTX, v.toNat)
  | .flushBlock r lane _ => some (r, R.PRESS_CMD + 0x1000 * lane, 1)
  | .laneRetire r lane => some (r, R.PRESS_CMD + 0x1000 * lane, 2)
  | .laneRestore r lane => some (r, R.PRESS_CMD + 0x1000 * lane, 3)
  | .pressClearStats r lane => some (r, R.PRESS_CMD + 0x1000 * lane, 4)
  | .pressCtrlWrite r lane v => some (r, R.PRESS_CTRL + 0x1000 * lane, v.toNat)
  | .glbOpen r => some (r, R.GLB_CMD, 1)
  | .addTiles r => some (r, R.GLB_CMD, 2)
  | .removeTiles r => some (r, R.GLB_CMD, 3)
  | .glbClose r => some (r, R.GLB_CMD, 4)
  | .pgEventForce r page bits => some (r, R.PG_EVENT_FORCE + 0x1000 * page.toNat, bits.toNat)
  | .pgClaim r page => some (r, R.PG_OWNER + 0x1000 * page.toNat, 2 ^ F.PG_OWNER_CLAIM.lo)
  | .pgRelease r page => some (r, R.PG_OWNER + 0x1000 * page.toNat, 2 ^ F.PG_OWNER_RELEASE.lo)
  | .forceRelease r page => some (r, R.PG_OWNER + 0x1000 * page.toNat, 2 ^ F.PG_OWNER_FORCE_RELEASE.lo)
  | .registerWrite r addr v => some (r, addr.toNat, v.toNat)
  | .spurSramLoWrite r v => some (r, R.SPUR_SRAM_LO, v.toNat)
  | .spurSramHiWrite r v => some (r, R.SPUR_SRAM_HI, v.toNat)
  | .tendNow r => some (r, R.REL_CMD, 1)
  | .relClearStats r => some (r, R.REL_CMD, 2)
  | .faultInject r v => some (r, R.REL_INJECT, v.toNat)
  | .pairTakeover r => some (r, R.PAIR_CMD, 1)
  | .restoreStandby r => some (r, R.PAIR_CMD, 2)
  | .pairClearStats r => some (r, R.PAIR_CMD, 3)
  | .sampleNow r => some (r, R.TASTE_CMD, 1)
  | .unlockEvid r => some (r, R.TASTE_CMD, 2)
  | .retireTaster r => some (r, R.TASTE_CMD, 3)
  | .restoreTaster r => some (r, R.TASTE_CMD, 4)
  | .tasteClearStats r => some (r, R.TASTE_CMD, 5)
  | .runTiles r => some (r, R.DIGEST_CMD, 1)
  | .runExt r => some (r, R.DIGEST_CMD, 2)
  | .digestAbort r => some (r, R.DIGEST_CMD, 3)
  | .digestClearStats r => some (r, R.DIGEST_CMD, 4)
  | .rearmFirst r => some (r, R.NUMW_CMD, 1)
  | .numwClearStats r => some (r, R.NUMW_CMD, 2)
  | .establish r => some (r, R.TIME_CMD, 1)
  | .reepoch r => some (r, R.TIME_CMD, 2)
  | .timeResync r => some (r, R.TIME_CMD, 3)
  | .armTbs r => some (r, R.TIME_CMD, 4)
  | .clkchg r => some (r, R.TIME_CMD, 5)
  | .clkchgCancel r => some (r, R.TIME_CMD, 6)
  | .traceStart r => some (r, R.TRACE_CMD, 1)
  | .traceStop r => some (r, R.TRACE_CMD, 2)
  | .traceFreeze r => some (r, R.TRACE_CMD, 3)
  | .traceUnfreeze r => some (r, R.TRACE_CMD, 4)
  | .traceResync r => some (r, R.TRACE_CMD, 5)
  | .clearRing r => some (r, R.TRACE_CMD, 6)
  | .traceArm r => some (r, R.TRACE_CMD, 7)
  | .traceTrigger r => some (r, R.TRACE_CMD, 8)
  | .traceClearStats r => some (r, R.TRACE_CMD, 9)
  | .tracefWrite r off v => some (r, 0x1C000 + off.toNat, v.toNat)
  | .estOnlyForce r on => some (r, R.PWR_CTRL, setBits (setBits (h.reg R.PWR_CTRL) 3 1 0) 2 1 (b2n on))
  | .softReset r page => some (r, R.PG_CTRL + 0x1000 * page.toNat, h.reg (R.PG_CTRL + 0x1000 * page.toNat) % 2 + 2 ^ F.PG_CTRL_SOFT_RESET.lo)
  | .pgLock r page => some (r, R.PG_CTRL + 0x1000 * page.toNat, h.reg (R.PG_CTRL + 0x1000 * page.toNat) % 2 + 2 ^ F.PG_CTRL_LOCK.lo)
  | _ => none

/-- The requester sees its write carried out: status OK (R469). -/
abbrev Hub.tookWrite (h : Hub) (r : Req) : Prop := h.bus.get (reqCode r) {} = { value := 0, status := St.OK }

/-- A CMD or RESP frame reaches this hub in order on a tendril that is UP, addressed to it or broadcast for the first time (R320, R323); `op`
is its OPCODE, plus 256 for a RESP. -/
def Hub.takesFrame (h : Hub) (d : Hdr2) (op : Nat) : Bool :=
  (h.tend d.tendril).st == Ts.UP && d.seq.val == (h.tend d.tendril).rxExpect &&
    if d.dest == h.broadcast then !h.bcastOld ((d.src : Nat), op, (d.txn : Nat)) else d.dest == h.hubAddr

/-- A RESP to a command addressed to this hub can leave at once on tendril `u`. -/
def Hub.canAnswer (h : Hub) (d : Hdr2) (u : Nat) : Bool :=
  d.dest == h.hubAddr && d.dest != h.broadcast && d.src != h.broadcast && h.routeTo d.src == some u &&
    (h.tend u).st == Ts.UP && (h.tend u).unacked.length < 32

/-- The RESP that answers a command on tendril `u` (R318, R333). -/
def Hub.respFrame (h : Hub) (d : Hdr2) (u op status : Nat) (data : List Byte) : List Byte :=
  frame Ft.RESP (h.tend u).txSeq d.src (respPayload h.hubAddr op d.txn status data)

/-- The cooper is RUNNING, and the word at its PC is `w`, of opcode `op` (R442). -/
def Cooper.executes (x : Cooper) (op w : Nat) : Bool := x.st == .running && (x.prog.get x.pc 0).toNat == w && Iw.op w == op

/-- The cooper past the word `w`, before the word's action: the PC at the next word, and S updated with the word (R448). -/
def Cooper.past (x : Cooper) (w : Nat) : Cooper :=
  { x with pc := (x.pc + 1) % 1024, sig := BitVec.ofNat 32 (crcUpdate x.sig.toNat (le 4 w)) }

/-- Cooper `c` has become `x`, and the other one is as it was. -/
def Hub.onlyCoop (s t : Hub) (c : Nat) (x : Cooper) : Prop := t.coop c = x ∧ ∀ d, d ≠ c → t.coop d = s.coop d

/-- The same, but for the occurrences on their way, which an event of the command adds to. -/
def Hub.onlyCoopTold (s t : Hub) (c : Nat) (x : Cooper) : Prop :=
  (t.coop c).told = x.told ∧ ∀ d, d ≠ c → (t.coop d).told = (s.coop d).told

/-- The rack port takes a request at once: the link is UP, nothing waits, the message passes its format check and its TAG is new (R357, R359,
R363). -/
def Hub.takesMessage (h : Hub) (type tag dest : Nat) (body : List Byte) : Bool :=
  h.linkUp && !h.relayPending && messageOk (message type 0 tag dest body) && !h.link.tagTab.any (fun e => e.tag == tag && e.type == type)

/-- The response to a request of the rack port is queued and kept under its TAG (R359, R363). -/
abbrev Hub.portAnswers (s t : Hub) (tag type respType : Nat) (final : Bool) (body : List Byte) : Prop :=
  t.link.cmdQ = s.link.cmdQ ++ [{ cls := 0, bytes := message respType (b2n final) tag s.hubAddr body, src := .resp }] ∧
  t.link.tagTab = keepTag s.link.tagTab { tag := tag, type := type, resp := message respType (b2n final) tag s.hubAddr body }

/-- The event stands in PG_EVENT of its page (R22, R459). -/
def Hub.shows (h : Hub) (code unit : Nat) : Bool :=
  match eventBit code unit with
  | some (page, bit) => bitAt (h.reg (R.PG_EVENT + page * 0x1000)) bit
  | none => true

end Sys2Proof.Machine
end

