-- ==== Sys2Proof/Certificates/Slice0/Obligations.lean ====
section
/-! DEFINITION. The statements for the provers. -/

open Sys2Proof Sys2Proof.Machine

/-- With command c at the front of the queue, step of s is exec of c on s with the rest of the queue. -/
def Obligations.a_step_runs_the_command_in_front : Prop :=
  ∀ (s : State) (c : Instr) (rest : List Instr),
    step { s with pending := c :: rest } = exec c { s with pending := rest }

/-- With an empty queue and no power nothing happens; with power one HCLK period passes: the HCLK count and, with a time base, GCN step, the watchdog of each RUNNING cooper counts down, and a tendril carries the next beat of the frame on its wires, which is out after its twelfth; every 425/14 HCLK of an UP link a codeword takes up to eight flits of the FIFO (stated where no domain is open, and no cork operation, wave, tile reset or BIST run is under way, and PCS_LOOPBACK is 0). That a step without a command is one HCLK period is the choice of the model (log entry 2). -/
def Obligations.a_step_without_a_command_is_one_period : Prop :=
  (∀ (s : State), s.pending = [] → s.hub.time.powered = false → step s = .next s) ∧
  (∀ (s : State), s.pending = [] → s.hub.time.powered = true → s.hub.calm = true → s.hub.openSlots = [] → s.hub.corks = [] →
    s.hub.waveCrc = [] → s.hub.bist.runs = [] → s.hub.tiles.cells.all (fun p => p.2.wave.isNone && !p.2.rstAck) = true → s.hub.flag F.LINK_CTRL_PCS_LOOPBACK = false →
    ∃ t, step s = .next t ∧ t.pending = [] ∧ t.hub.time.hclk = s.hub.time.hclk + 1 ∧
      t.hub.time.gcn = (if s.hub.timeOk then (s.hub.time.gcn + 1) % 2 ^ 64 else s.hub.time.gcn) ∧
      (∀ c, c < 2 → (t.hub.coop c).wdog = (s.hub.coop c).wdog - (if (s.hub.coop c).st = .running then 1 else 0)) ∧
      (∀ u f n, u < 4 → (s.hub.tend u).sending = some (f, n) → n < 12 →
        (t.hub.tend u).out = (s.hub.tend u).out ++ (if n = 11 then [f] else []) ∧
        (n < 11 → (Fr.cls f = 0 ∨ ∀ g ∈ (s.hub.tend u).txQ, Fr.cls g ≠ 0) → (t.hub.tend u).sending = some (f, n + 1))) ∧
      (s.hub.linkSt = Lk.UP →
        t.hub.link.cwOut = s.hub.link.cwOut ++ (if s.hub.link.cwPhase < 411 then [] else
          [codeword (s.hub.link.txFifo.take 8) s.hub.link.cwSeq (if s.hub.link.cwSeq = 0 then scrOnes else s.hub.link.txScr)]) ∧
        t.hub.link.txFifo = (if s.hub.link.cwPhase < 411 then s.hub.link.txFifo else s.hub.link.txFifo.drop 8)))

/-- After reset every register reads its reset value, TILE_HOLD is asserted, the hub waits for PWR_GOOD, no command waits, the memories are in canonical form with nothing listed, and the outputs are driven as the registers say. The reset values the tables give as fuse, state or a dash, and the empty memories, are the choices of the model (log entries 1 and 3). -/
def Obligations.reset_leaves_every_register_at_its_reset_value : Prop :=
  State.reset.pending = [] ∧ State.reset.clean = true ∧ State.reset.hub.driven = true ∧ State.reset.hub.store = {} ∧
  State.reset.hub.time.powered = false ∧ State.reset.hub.pins.tileHold = true ∧
  ∀ a b, State.reset.hub.regB a b = regReset a % 2 ^ 32

/-- A command goes on to a next state exactly when its byte and symbol operands have the lengths the interfaces give them; an ill-formed one ends in the fault malformed. No command is refused, in any state. -/
def Obligations.well_formed_commands_complete : Prop :=
  ∀ (i : Instr) (s : State),
    (i.WellFormed = true → goesOn (exec i s) = true) ∧ (i.WellFormed = false → exec i s = .fault .malformed)

/-- In every state whose memories are in canonical form and where no memory write and no occurrence is left over, a step that goes on leaves such a state: memories in canonical form, every write of the command made, every event it raised delivered to its consumers on the same edge. -/
def Obligations.every_step_keeps_the_machine_clean : Prop :=
  ∀ (s t : State), s.clean = true → step s = .next t → t.clean = true

/-- In every state whose clock, PMA and ROOT_ACTIVE outputs are what the registers and the time base say, a step that goes on leaves such a state: the divider codes of both partitions (the new code from period G_c - 1 of a change on), the switch outputs high only in period G_c - 1, TCLK_RESTART only in period G_r - 1, and PMA_RESET_N low in a hub that is not powered or not a lead. -/
def Obligations.every_step_drives_the_outputs : Prop :=
  ∀ (s t : State), s.hub.driven = true → step s = .next t → t.hub.driven = true

/-- For every command row that is a write of one register (Safety.asWrite lists them with their register), in a calm hub: when the check of R469 gives a status other than OK, the requester sees that status, GLB_REFUSED holds the address, the requester, the direction and the status, GLB_REFUSED_COUNT counts it, GLB PG_ERROR.ACCESS is set, and every other register, unit, memory and page owner is as before. -/
def Obligations.a_refused_register_write_changes_nothing_but_its_record : Prop :=
  ∀ (s : State) (i : Instr) (r : Req) (a v st : Nat),
    s.hub.calm = true → asWrite s.hub i = some (r, a, v) → s.hub.accessStatus r a true (v % 2 ^ 32) = st → st ≠ St.OK →
    Answers i s fun h =>
      h.bus.get (reqCode r) {} = { value := 0, status := st } ∧ (∀ q, q ≠ r → h.bus.get (reqCode q) {} = s.hub.bus.get (reqCode q) {}) ∧
      h.reg R.GLB_REFUSED = (normAddr a + reqCode r * 2 ^ 20 + 2 ^ 23 + st * 2 ^ 24) % 2 ^ 32 ∧
      h.rd F.GLB_REFUSED_COUNT_COUNT = sat F.GLB_REFUSED_COUNT_COUNT.width (s.hub.rd F.GLB_REFUSED_COUNT_COUNT + 1) ∧
      h.hasErr Er.GLB_ACCESS = true ∧ s.hub.rest h = s.hub ∧
      s.hub.keeps h [R.GLB_REFUSED, R.GLB_REFUSED_COUNT, R.PG_ERROR, R.PG_ERROR_INFO]

/-- mix64 of an offset and a word is the formula of R259 over 64-bit words; for a fixed offset it takes the 64-bit words one to one onto the 64-bit words; and the digest of a byte string changes when any one of its words changes. -/
def Obligations.changing_a_word_changes_the_digest : Prop :=
  (∀ (a : Nat) (w : BitVec 64),
    let x := w ^^^ BitVec.ofNat 64 (a * 0x9E3779B97F4A7C15)
    let y := (x ^^^ (x >>> 31)) * 0xBF58476D1CE4E5B9
    mix64 a w.toNat = (y ^^^ (y >>> 29)).toNat) ∧
  (∀ (a v w : Nat), v < 2 ^ 64 → w < 2 ^ 64 → mix64 a v = mix64 a w → v = w) ∧
  (∀ (a y : Nat), y < 2 ^ 64 → ∃ w, w < 2 ^ 64 ∧ mix64 a w = y) ∧
  (∀ (a n : Nat) (pre post u v : List Byte), pre.length = 8 * n → u.length = 8 → v.length = 8 → post.length % 8 = 0 → u ≠ v →
    digestOf (pre ++ u ++ post) a ≠ digestOf (pre ++ v ++ post) a)

/-- The order in which the occurrences of one edge are delivered to every consumer rises by code, keeps those of one code in the order raised, and neither loses nor adds one. -/
def Obligations.occurrences_leave_in_ascending_order_of_code : Prop :=
  ∀ (l : List Occ),
    (sortOccs l).Pairwise (fun x y => x.code ≤ y.code) ∧ (sortOccs l).Perm l ∧
    ∀ c, (sortOccs l).filter (fun o => o.code == c) = l.filter (fun o => o.code == c)

/-- In a calm hub an accepted GLB_CMD whose check gives OK completes: OPEN makes the slot STOPPED with the argument registers; ADD_TILES puts the PARKED tiles of the rectangle into it, REMOVE_TILES parks its tiles in the rectangle and CLOSE parks all and empties the slot; GLB_CMD_STATUS shows the operation, and the three that reach spurs leave DONE 0 for 1 to 64 HCLK (the exact count is a free value of the model). CLOSE also returns the FED_JOB entry of the slot to its reset value and ends the coverage of the slot in every grant. No other domain, register or unit changes, but for the samples and digest passes that a tile leaves. -/
def Obligations.glb_commands_form_and_clear_contexts : Prop :=
  (∀ (s : State) (r : Req) (z : Nat),
    s.hub.calm = true → s.hub.takesWrite r R.GLB_CMD 1 = true → s.hub.rd F.GLB_CTX_SEL_SLOT = z → s.hub.glbCheck r 1 = St.OK →
    Answers (.glbOpen r) s fun h =>
      h.tookWrite r ∧ (h.dom z).st = .stopped ∧ (h.dom z).tag = s.hub.rd F.GLB_CTX_CFG_JOB_TAG ∧
      (h.dom z).priv = s.hub.rd F.GLB_CTX_CFG_PRIV ∧ (h.dom z).profile = s.hub.rd F.GLB_CTX_PROFILE_PROFILE ∧
      (h.dom z).seed = s.hub.reg64 R.GLB_CTX_SEED_LO ∧ (h.dom z).scn = s.hub.reg64 R.GLB_CTX_SCN_LO ∧ h.rd F.GLB_CMD_STATUS_STATUS = St.OK ∧
      h.rd F.GLB_CMD_STATUS_OP = 1 ∧ h.rd F.GLB_CMD_STATUS_DONE = 1 ∧ (∀ y, y ≠ z → h.dom y = s.hub.dom y) ∧
      s.hub.rest h = { s.hub with doms := h.doms, hang := h.hang } ∧ s.hub.keeps h [R.GLB_CMD_STATUS]) ∧
  (∀ (s : State) (r : Req) (z : Nat) (t : Nat),
    s.hub.calm = true → s.hub.takesWrite r R.GLB_CMD 2 = true → s.hub.rd F.GLB_CTX_SEL_SLOT = z → s.hub.glbCheck r 2 = St.OK →
    t ∈ s.hub.parkedIn (rectOf (s.hub.reg R.GLB_CTX_RECT)) →
    Answers (.addTiles r) s fun h =>
      h.tookWrite r ∧ (h.tile t).st = .inContext ∧ (h.tile t).slot = z ∧ (h.tile t).scn = (s.hub.dom z).scn ∧ (h.tile t).gated = true ∧
      h.rd F.GLB_CMD_STATUS_STATUS = St.OK ∧ h.rd F.GLB_CMD_STATUS_OP = 2 ∧ h.rd F.GLB_CMD_STATUS_DONE = 0 ∧ 1 ≤ h.glbLeft ∧
      h.glbLeft ≤ 64 ∧ (∀ u, u ∉ s.hub.parkedIn (rectOf (s.hub.reg R.GLB_CTX_RECT)) → h.tile u = s.hub.tile u) ∧
      s.hub.rest h = { s.hub with tiles := h.tiles, hang := h.hang, glbLeft := h.glbLeft, freeCount := h.freeCount } ∧
      s.hub.keeps h [R.GLB_CMD_STATUS]) ∧
  (∀ (s : State) (r : Req) (z : Nat) (t : Nat),
    s.hub.calm = true → s.hub.takesWrite r R.GLB_CMD 3 = true → s.hub.rd F.GLB_CTX_SEL_SLOT = z → s.hub.glbCheck r 3 = St.OK →
    t ∈ s.hub.slotTilesIn z (rectOf (s.hub.reg R.GLB_CTX_RECT)) →
    Answers (.removeTiles r) s fun h =>
      h.tookWrite r ∧ (h.tile t).st = .parked ∧ (h.tile t).scnValid = false ∧ h.rd F.GLB_CMD_STATUS_STATUS = St.OK ∧
      h.rd F.GLB_CMD_STATUS_OP = 3 ∧ h.rd F.GLB_CMD_STATUS_DONE = 0 ∧ 1 ≤ h.glbLeft ∧ h.glbLeft ≤ 64 ∧
      s.hub.rest h = { s.hub with tiles := h.tiles, digTiles := h.digTiles, taste := h.taste, glbLeft := h.glbLeft, freeCount := h.freeCount } ∧
      s.hub.keeps h [R.GLB_CMD_STATUS]) ∧
  (∀ (s : State) (r : Req) (z : Nat) (t : Nat),
    s.hub.calm = true → s.hub.takesWrite r R.GLB_CMD 4 = true → s.hub.rd F.GLB_CTX_SEL_SLOT = z → s.hub.glbCheck r 4 = St.OK →
    t ∈ s.hub.slotTiles z →
    Answers (.glbClose r) s fun h =>
      h.tookWrite r ∧ (h.tile t).st = .parked ∧ (h.dom z).st = .empty ∧ h.regB R.FED_JOB z = regReset R.FED_JOB ∧
      h.rd F.GLB_CMD_STATUS_STATUS = St.OK ∧ h.rd F.GLB_CMD_STATUS_OP = 4 ∧ h.rd F.GLB_CMD_STATUS_DONE = 0 ∧ 1 ≤ h.glbLeft ∧
      h.glbLeft ≤ 64 ∧ (∀ y, y ≠ z → h.dom y = s.hub.dom y) ∧
      s.hub.rest h = { s.hub with doms := h.doms, tiles := h.tiles, digTiles := h.digTiles, taste := h.taste, auth := h.auth, glbLeft := h.glbLeft, freeCount := h.freeCount } ∧
      s.hub.keeps h [R.GLB_CMD_STATUS, regKey R.FED_JOB z, F.PWR_STATUS_ISSUE_CAP.addr])

/-- An accepted CLAIM of a page nobody owns makes the requester its owner; RELEASE by the owner and FORCE_RELEASE leave it without one; LOCK is set; a forced event bit the page allocates reads 1; SOFT_RESET of a busy page waits; that of an idle page clears its error record. Every other page keeps its owner and its registers, and no unit changes but the one whose page SOFT_RESET names. -/
def Obligations.page_headers_are_claimed_released_and_locked : Prop :=
  (∀ (s : State) (r : Req) (page : BitVec 8),
    s.hub.calm = true → s.hub.takesWrite r (R.PG_OWNER + 0x1000 * page.toNat) (2 ^ F.PG_OWNER_CLAIM.lo) = true → ownable page.toNat = true →
    s.hub.owner page.toNat = 0 →
    Answers (.pgClaim r page) s fun h =>
      h.tookWrite r ∧ h.owner page.toNat = reqCode r + 1 ∧ (∀ q, q ≠ page.toNat → h.owner q = s.hub.owner q) ∧
      s.hub.rest h = { s.hub with owners := h.owners } ∧ s.hub.keeps h []) ∧
  (∀ (s : State) (r : Req) (page : BitVec 8),
    s.hub.calm = true → s.hub.takesWrite r (R.PG_OWNER + 0x1000 * page.toNat) (2 ^ F.PG_OWNER_RELEASE.lo) = true →
    ownable page.toNat = true → s.hub.owner page.toNat = reqCode r + 1 →
    Answers (.pgRelease r page) s fun h =>
      h.tookWrite r ∧ h.owner page.toNat = 0 ∧ (∀ q, q ≠ page.toNat → h.owner q = s.hub.owner q) ∧
      s.hub.rest h = { s.hub with owners := h.owners } ∧ s.hub.keeps h []) ∧
  (∀ (s : State) (r : Req) (page : BitVec 8),
    s.hub.calm = true → s.hub.takesWrite r (R.PG_OWNER + 0x1000 * page.toNat) (2 ^ F.PG_OWNER_FORCE_RELEASE.lo) = true →
    ownable page.toNat = true →
    Answers (.forceRelease r page) s fun h =>
      h.tookWrite r ∧ h.owner page.toNat = 0 ∧ (∀ q, q ≠ page.toNat → h.owner q = s.hub.owner q) ∧
      s.hub.rest h = { s.hub with owners := h.owners } ∧ s.hub.keeps h []) ∧
  (∀ (s : State) (r : Req) (page : BitVec 8),
    s.hub.calm = true →
    s.hub.takesWrite r (R.PG_CTRL + 0x1000 * page.toNat) (s.hub.reg (R.PG_CTRL + 0x1000 * page.toNat) % 2 + 2 ^ F.PG_CTRL_LOCK.lo) = true →
    lockable page.toNat = true →
    Answers (.pgLock r page) s fun h =>
      h.tookWrite r ∧ h.locked page.toNat = true ∧
      h.reg (R.PG_CTRL + 0x1000 * page.toNat) % 2 = s.hub.reg (R.PG_CTRL + 0x1000 * page.toNat) % 2 ∧ s.hub.rest h = s.hub ∧
      s.hub.keeps h [R.PG_CTRL + 0x1000 * page.toNat]) ∧
  (∀ (s : State) (r : Req) (page : BitVec 8) (bits : Word) (i : Nat),
    s.hub.calm = true → s.hub.takesWrite r (R.PG_EVENT_FORCE + 0x1000 * page.toNat) bits.toNat = true → pageExists page.toNat = true →
    s.hub.scrapped = false → bitAt bits.toNat i = true → i < eventCount page.toNat →
    Answers (.pgEventForce r page bits) s fun h =>
      h.tookWrite r ∧ bitAt (h.reg (R.PG_EVENT + page.toNat * 0x1000)) i = true ∧ s.hub.rest h = s.hub ∧ s.hub.keeps h []) ∧
  (∀ (s : State) (r : Req) (page : BitVec 8),
    s.hub.calm = true →
    s.hub.takesWrite r (R.PG_CTRL + 0x1000 * page.toNat) (s.hub.reg (R.PG_CTRL + 0x1000 * page.toNat) % 2 + 2 ^ F.PG_CTRL_SOFT_RESET.lo) = true →
    pageExists page.toNat = true → softIgnored page.toNat = false → s.hub.pageBusy page.toNat = true →
    Answers (.softReset r page) s fun h =>
      h.tookWrite r ∧ h.softReset = [page.toNat] ∧ s.hub.rest h = { s.hub with softReset := h.softReset } ∧
      s.hub.keeps h [R.PG_CTRL + 0x1000 * page.toNat]) ∧
  (∀ (s : State) (r : Req) (page : BitVec 8),
    s.hub.calm = true →
    s.hub.takesWrite r (R.PG_CTRL + 0x1000 * page.toNat) (s.hub.reg (R.PG_CTRL + 0x1000 * page.toNat) % 2 + 2 ^ F.PG_CTRL_SOFT_RESET.lo) = true →
    page.toNat ∈ [Pg.HARV, Pg.CELL, Pg.TRACE, Pg.TASTE, Pg.NUMW, Pg.DIGEST, Pg.RSET, Pg.BIST, Pg.REL, Pg.FED] →
    s.hub.pageBusy page.toNat = false →
    Answers (.softReset r page) s fun h =>
      h.tookWrite r ∧ h.softReset = [] ∧ h.reg (R.PG_ERROR + page.toNat * 0x1000) = 0 ∧ h.reg (R.PG_ERROR_INFO + page.toNat * 0x1000) = 0 ∧
      s.hub.keepsOff h [page.toNat] ∧ h.doms = s.hub.doms ∧ h.owners = s.hub.owners)

/-- An accepted write of an argument register (here GLB_CTX_RECT) while its DONE is 1 stores the value; while DONE is 0 it is ignored and PG_ERROR records it; a write of a reserved address is ignored and answered OK. An accepted read of a LO register answers the low half of the pair and latches the high half for its requester; an I3C private read answers the register at the address pointer and advances the pointer by 4; a private write without data only sets the pointer; a transfer that fails its parity check is discarded and counted as an error; ENTDAA gives the target its address. -/
def Obligations.register_reads_and_writes_reach_their_register : Prop :=
  (∀ (s : State) (r : Req) (v : Word),
    s.hub.calm = true → s.hub.takesWrite r R.GLB_CTX_RECT v.toNat = true → s.hub.flag F.GLB_CMD_STATUS_DONE = true →
    Answers (.registerWrite r R.GLB_CTX_RECT v) s fun h =>
      h.tookWrite r ∧ h.rd F.GLB_CTX_RECT_RECT = bitsOf v.toNat F.GLB_CTX_RECT_RECT.lo F.GLB_CTX_RECT_RECT.width ∧ s.hub.rest h = s.hub ∧
      s.hub.keeps h [R.GLB_CTX_RECT]) ∧
  (∀ (s : State) (r : Req) (v : Word),
    s.hub.calm = true → s.hub.takesWrite r R.GLB_CTX_RECT v.toNat = true → s.hub.flag F.GLB_CMD_STATUS_DONE = false →
    Answers (.registerWrite r R.GLB_CTX_RECT v) s fun h =>
      h.tookWrite r ∧ h.hasErr Er.GLB_ARG_BUSY = true ∧ h.rd (F.PG_ERROR_INFO_OFFSET.lane 0) = 0x078 ∧ s.hub.rest h = s.hub ∧
      s.hub.keeps h [R.PG_ERROR, R.PG_ERROR_INFO]) ∧
  (∀ (s : State) (r : Req) (a : BitVec 20) (v : Word),
    s.hub.calm = true → (regDef (normAddr a.toNat)).isNone = true →
    Answers (.registerWrite r a v) s fun h =>
      h.tookWrite r ∧ s.hub.rest h = s.hub ∧ s.hub.keeps h []) ∧
  (∀ (s : State) (r : Req) (a : BitVec 20),
    s.hub.calm = true → s.hub.accessStatus r a.toNat false 0 = St.OK → (regDef (normAddr a.toNat)).isSome = true →
    inWindow (normAddr a.toNat) = false → isHi (normAddr a.toNat) = false →
    [R.TASTE_EVID_DATA, R.COOP_PROG_DATA, R.COOP_DATA_DATA, R.AUTH_DATA, R.TIME_GCN_LO].contains (baseAddr (normAddr a.toNat)) = false →
    isLo (normAddr a.toNat) = true →
    Answers (.loReadLatch r a) s fun h =>
      h.bus.get (reqCode r) {} = { value := s.hub.value r (normAddr a.toNat) % 2 ^ 32, status := St.OK } ∧
      (h.hi.get (hiKey r (normAddr a.toNat + 4)) 0).toNat = s.hub.value r (normAddr a.toNat) / 2 ^ 32 % 2 ^ 32 ∧
      s.hub.rest h = { s.hub with hi := h.hi } ∧ s.hub.keeps h []) ∧
  (∀ (s : State) (addr : BitVec 7),
    s.hub.calm = true →
    Answers (.i3cEntdaa addr) s fun h =>
      h.rd F.TRAY_I3C_DYN_ADDR = addr.toNat ∧ h.rd F.TRAY_I3C_ADDR_VALID = 1 ∧ s.hub.rest h = s.hub ∧ s.hub.keeps h [R.TRAY_I3C]) ∧
  (∀ (s : State) (addr : BitVec 24) (data : Option Word),
    s.hub.calm = true →
    Answers (.i3cPrivateWrite addr data true) s fun h =>
      h.hasErr Er.TRAY_I3C_PARITY = true ∧ h.pins.i3cPtr = s.hub.pins.i3cPtr ∧ s.hub.rest h = s.hub ∧
      s.hub.keeps h [R.PG_ERROR + Pg.TRAY * 0x1000, R.PG_ERROR_INFO + Pg.TRAY * 0x1000]) ∧
  (∀ (s : State) (addr : BitVec 24),
    s.hub.calm = true →
    Answers (.i3cPrivateWrite addr none false) s fun h =>
      h.pins.i3cPtr = addr.toNat % 2 ^ 20 ∧ s.hub.rest h = s.hub ∧ s.hub.keeps h []) ∧
  (∀ (s : State) (a : Nat),
    s.hub.calm = true → s.hub.pins.i3cPtr = a → s.hub.accessStatus .i3c a false 0 = St.OK → (regDef (normAddr a)).isSome = true →
    inWindow (normAddr a) = false → isHi (normAddr a) = false →
    [R.TASTE_EVID_DATA, R.COOP_PROG_DATA, R.COOP_DATA_DATA, R.AUTH_DATA, R.TIME_GCN_LO].contains (baseAddr (normAddr a)) = false →
    isLo (normAddr a) = false →
    Answers (.i3cPrivateRead false) s fun h =>
      h.bus.get (reqCode .i3c) {} = { value := s.hub.value .i3c (normAddr a) % 2 ^ 32, status := St.OK } ∧
      h.pins.i3cPtr = (a + 4) % 2 ^ 20 ∧ s.hub.rest h = s.hub ∧ s.hub.keeps h []) ∧
  (∀ (s : State),
    s.hub.calm = true →
    Answers (.i3cPrivateRead true) s fun h =>
      h.hasErr Er.TRAY_I3C_PARITY = true ∧ h.pins.i3cPtr = s.hub.pins.i3cPtr ∧ s.hub.rest h = s.hub ∧
      s.hub.keeps h [R.PG_ERROR + Pg.TRAY * 0x1000, R.PG_ERROR_INFO + Pg.TRAY * 0x1000])

/-- An accepted window access whose status is OK reads the spur register, stages an SRAM low word, or writes eight bytes of the tile SRAM at SPUR_SRAM_ADDR and advances the address when AUTO_INC is set; a window that times out shows TIMEOUT, records the error and raises TRELLIS_SILENT. No other byte of tile SRAM changes. -/
def Obligations.the_spur_window_reaches_the_selected_spur : Prop :=
  (∀ (s : State) (r : Req) (off : BitVec 8) (t : Nat),
    s.hub.calm = true → s.hub.rd F.SPURW_TILE_TILE = t → s.hub.accessStatus r (R.SPUR_ID + off.toNat) false 0 = St.OK →
    (regDef (normAddr (R.SPUR_ID + off.toNat))).isSome = true → isHi (R.SPUR_ID + off.toNat) = false →
    isLo (R.SPUR_ID + off.toNat) = false → R.SPUR_ID + off.toNat ≠ R.SPUR_SRAM_HI →
    s.hub.spurStatus r t (R.SPUR_ID + off.toNat) false = St.OK →
    Answers (.spurWindowAccess r off none) s fun h =>
      h.bus.get (reqCode r) {} = { value := s.hub.spurValue t (R.SPUR_ID + off.toNat) % 2 ^ 32, status := St.OK } ∧
      h.rd F.SPURW_STATUS_STATUS = St.OK ∧ s.hub.rest h = s.hub ∧ s.hub.keeps h [R.SPURW_STATUS]) ∧
  (∀ (s : State) (r : Req) (crc : Bool) (t : Nat),
    s.hub.calm = true → s.hub.rd F.SPURW_TILE_TILE = t →
    Answers (.spurWindowTimeout r crc) s fun h =>
      h.tookWrite r ∧ h.rd F.SPURW_STATUS_STATUS = St.TIMEOUT ∧ h.hasErr Er.SPURW_WINDOW_TIMEOUT = true ∧
      (crc = true → h.hasErr Er.SPURW_WINDOW_CRC = true) ∧ h.shows Ev.TRELLIS_SILENT t = true ∧ s.hub.rest h = s.hub ∧
      s.hub.keeps h [R.SPURW_STATUS, R.PG_ERROR + Pg.SPURW * 0x1000, R.PG_ERROR_INFO + Pg.SPURW * 0x1000]) ∧
  (∀ (s : State) (r : Req) (t : Nat),
    s.hub.calm = true → s.hub.rd F.SPURW_TILE_TILE = t → s.hub.accessStatus r R.SPUR_SRAM_LO false 0 = St.OK →
    s.hub.spurStatus r t R.SPUR_SRAM_LO false = St.OK →
    Answers (.spurSramLoRead r) s fun h =>
      h.bus.get (reqCode r) {} = { value := fromLe (s.hub.sram t ((s.hub.tile t).sramAddr % 0x10000) 8) % 2 ^ 32, status := St.OK } ∧
      (h.hi.get (hiKey r R.SPUR_SRAM_HI) 0).toNat = fromLe (s.hub.sram t ((s.hub.tile t).sramAddr % 0x10000) 8) / 2 ^ 32 ∧
      h.tile t = (s.hub.tile t).sramNext ∧ s.hub.rest h = { s.hub with hi := h.hi, tiles := h.tiles } ∧ s.hub.keeps h [R.SPURW_STATUS]) ∧
  (∀ (s : State) (r : Req) (v : Word) (t : Nat),
    s.hub.calm = true → s.hub.rd F.SPURW_TILE_TILE = t → s.hub.takesWrite r R.SPUR_SRAM_LO v.toNat = true →
    s.hub.spurStatus r t R.SPUR_SRAM_LO true = St.OK →
    Answers (.spurSramLoWrite r v) s fun h =>
      h.tookWrite r ∧ h.stage.get (reqCode r) 0 = v ∧ h.rd F.SPURW_STATUS_STATUS = St.OK ∧ s.hub.rest h = { s.hub with stage := h.stage } ∧
      s.hub.keeps h [R.SPURW_STATUS]) ∧
  (∀ (s : State) (r : Req) (v : Word) (t : Nat) (p : Nat),
    s.hub.calm = true → s.hub.rd F.SPURW_TILE_TILE = t → s.hub.takesWrite r R.SPUR_SRAM_HI v.toNat = true →
    s.hub.spurStatus r t R.SPUR_SRAM_HI true = St.OK → t * 65536 + (s.hub.tile t).sramAddr % 0x10000 = p →
    Answers (.spurSramHiWrite r v) s fun h =>
      h.tookWrite r ∧ h.tile t = (s.hub.tile t).sramNext ∧
      (∀ i, i < 8 → memRead h.store.sram (p + i) = (le 4 (s.hub.stage.get (reqCode r) 0).toNat ++ le 4 v.toNat).getD i 0) ∧
      (∀ a, a < p ∨ p + 8 ≤ a → memRead h.store.sram a = memRead s.hub.store.sram a) ∧
      s.hub.rest h = { s.hub with tiles := h.tiles, store := h.store } ∧ h.store = { s.hub.store with sram := h.store.sram } ∧
      s.hub.keeps h [R.SPURW_STATUS])

/-- A delivery to a tile that does not execute the edge is caught behind those already caught; one to a discarding spur only counts RD_OUT down; a delivery to a tile that executes the edge with nothing caught before it is presented with its data and ERR, and its enabled bytes are written to the cache line in SRAM that DEST names; a completion counts its access down; the SCN strobe of a tile in a context advances its shadow by one. No other tile and no register changes. -/
def Obligations.memory_port_traffic_of_a_tile_is_counted_and_kept : Prop :=
  (∀ (s : State) (tile : TileId) (dest : BitVec 16) (data : List Byte) (be : BitVec 64) (mtag : BitVec 16) (err : Bool),
    s.hub.calm = true → data.length = 64 → (s.hub.tile tile).discards = false → (s.hub.tile tile).catchBuf.length < 64 →
    s.hub.tileRuns tile = false →
    Answers (.memoryDelivery tile dest data be mtag err) s fun h =>
      (h.tile tile).catchBuf.length = (s.hub.tile tile).catchBuf.length + 1 ∧
      (h.tile tile).catchBuf.take (s.hub.tile tile).catchBuf.length = (s.hub.tile tile).catchBuf ∧
      (h.tile tile).catchBuf.getLast?.map Delivery.dest = some dest.toNat ∧
      (h.tile tile).catchBuf.getLast?.map Delivery.be = some be.toNat ∧ (∀ u, u ≠ (tile : Nat) → h.tile u = s.hub.tile u) ∧
      s.hub.rest h = { s.hub with tiles := h.tiles } ∧ s.hub.keeps h []) ∧
  (∀ (s : State) (tile : TileId) (dest : BitVec 16) (data : List Byte) (be : BitVec 64) (mtag : BitVec 16) (err : Bool),
    s.hub.calm = true → data.length = 64 → (s.hub.tile tile).discards = true →
    Answers (.memoryDelivery tile dest data be mtag err) s fun h =>
      (h.tile tile).rdOut = (s.hub.tile tile).rdOut - 1 ∧ (h.tile tile).catchBuf = (s.hub.tile tile).catchBuf ∧
      (∀ u, u ≠ (tile : Nat) → h.tile u = s.hub.tile u) ∧ s.hub.rest h = { s.hub with tiles := h.tiles } ∧ s.hub.keeps h []) ∧
  (∀ (s : State) (tile : TileId) (dest : BitVec 16) (data : List Byte) (be : BitVec 64) (mtag : BitVec 16) (err : Bool),
    s.hub.calm = true → data.length = 64 → (s.hub.tile tile).discards = false → (s.hub.tile tile).catchBuf = [] → s.hub.tileRuns tile = true →
    Answers (.memoryDelivery tile dest data be mtag err) s fun h =>
      (∀ i, i < 64 → bitAt be.toNat i = true → memRead h.store.sram (tile * 65536 + (64 * (dest.toNat % 1024) + i)) = data.getD i 0) ∧
      (∀ a, a < tile * 65536 + 64 * (dest.toNat % 1024) ∨ tile * 65536 + 64 * (dest.toNat % 1024) + 64 ≤ a → memRead h.store.sram a = memRead s.hub.store.sram a) ∧
      (∀ u, u ≠ (tile : Nat) → h.tile u = s.hub.tile u) ∧ h.tile tile = { s.hub.tile tile with dlvLast := (h.tile tile).dlvLast } ∧
      (h.tile tile).dlvLast.map Delivery.data = some ((List.range 64).map (fun i => if bitAt be.toNat i then data.getD i 0 else 0)) ∧
      (h.tile tile).dlvLast.map Delivery.err = some err ∧ s.hub.rest h = { s.hub with tiles := h.tiles, store := h.store } ∧
      h.store = { s.hub.store with sram := h.store.sram } ∧ s.hub.keeps h []) ∧
  (∀ (s : State) (tile : TileId) (rd : Bool),
    s.hub.calm = true →
    Answers (.memoryCompletion tile rd) s fun h =>
      (h.tile tile).rdOut = (s.hub.tile tile).rdOut - (if rd then 1 else 0) ∧
      (h.tile tile).wrOut = (s.hub.tile tile).wrOut - (if rd then 0 else 1) ∧ (∀ u, u ≠ (tile : Nat) → h.tile u = s.hub.tile u) ∧
      s.hub.rest h = { s.hub with tiles := h.tiles } ∧ s.hub.keeps h []) ∧
  (∀ (s : State) (tile : TileId) (sram : List (BitVec 16 × List Byte)) (scan : List (BitVec 16 × List Byte)),
    s.hub.calm = true → (s.hub.tile tile).readmit ≠ 2 → (s.hub.tile tile).st = .inContext →
    Answers (.tileScnStrobe tile sram scan) s fun h =>
      (h.tile tile).scn = ((s.hub.tile tile).scn + 1) % 2 ^ 64 ∧ (h.tile tile).slot = (s.hub.tile tile).slot ∧
      (∀ u, u ≠ (tile : Nat) → h.tile u = s.hub.tile u) ∧ s.hub.rest h = { s.hub with tiles := h.tiles, store := h.store } ∧
      s.hub.keeps h [])

/-- An accepted write of PG_EVENT_FORCE sets every PG_EVENT bit the page allocates that the value names and leaves the others, and the page asserts the management interrupt when PG_CTRL.EN is set and an enabled event bit stands; no occurrence reaches the port, the trace stream or the coopers; in SCRAPPED nothing changes. -/
def Obligations.forced_event_bits_reach_the_interrupt_alone : Prop :=
  (∀ (s : State) (r : Req) (page : BitVec 8) (bits : Word),
    s.hub.calm = true → s.hub.takesWrite r (R.PG_EVENT_FORCE + 0x1000 * page.toNat) bits.toNat = true → pageExists page.toNat = true →
    s.hub.scrapped = false →
    Answers (.pgEventForce r page bits) s fun h =>
      h.tookWrite r ∧
      (∀ i, i < eventCount page.toNat → bitAt (h.reg (R.PG_EVENT + page.toNat * 0x1000)) i = (bitAt (s.hub.reg (R.PG_EVENT + page.toNat * 0x1000)) i || bitAt bits.toNat i)) ∧
      h.pageInt page.toNat = (bitAt (s.hub.reg (R.PG_CTRL + page.toNat * 0x1000)) 0 && (h.reg (R.PG_EVENT + page.toNat * 0x1000) &&& s.hub.reg (R.PG_EVENT_EN + page.toNat * 0x1000)) != 0) ∧
      h.coops = s.hub.coops ∧ h.link = s.hub.link ∧ h.trace = s.hub.trace ∧ s.hub.rest h = s.hub ∧ s.hub.keeps h []) ∧
  (∀ (s : State) (r : Req) (page : BitVec 8) (bits : Word),
    s.hub.calm = true → s.hub.takesWrite r (R.PG_EVENT_FORCE + 0x1000 * page.toNat) bits.toNat = true → s.hub.scrapped = true →
    Answers (.pgEventForce r page bits) s fun h =>
      h.tookWrite r ∧ h.reg (R.PG_EVENT + page.toNat * 0x1000) = s.hub.reg (R.PG_EVENT + page.toNat * 0x1000) ∧ h.coops = s.hub.coops ∧
      h.link = s.hub.link ∧ s.hub.rest h = s.hub ∧ s.hub.keeps h [])

/-- The rise of PWR_GOOD starts an unpowered hub from its reset state: a fuse row holds what it held and what was burnt into it; every register field that takes its start-up value from the fuses (Hub.fuseFields) reads it, the hub address is PKG_ID and the field index of IDENT, LEAD and PAIR are those of IDENT; the life-cycle state is that of the fuses, SCRAPPED when they have no legal code; the tiles of the bad-tile list are out of service; TILE_HOLD is asserted, FUSE_LOADED is raised, and start-up goes to step 4, or to step 8 in a BLANK hub; no unit but those named leaves its reset state. A powered hub sees no edge. Its fall puts the whole block back to the reset state but for the fuse array. The wait of the master in step 4 ends in reading the flash, and a lead hub that hears no image and no master takes the role, reads its own flash and raises MASTER_ASSUMED. (The count of free values and the memories are kept by the model: log entries 3 and 4.) -/
def Obligations.power_starts_and_ends_the_block : Prop :=
  (∀ (s : State) (pkg : Fin 16) (fuses : List (Fin 512 × Word)) (corrected : List (Fin 512)) (failed : List (Fin 512)),
    s.hub.time.powered = false →
    Answers (.powerGood pkg fuses corrected failed) s fun h =>
      h.time.powered = true ∧ h.time.hclk = 0 ∧
      (∀ row, h.fuseRow row = (fuses.filter (fun x => x.1.val == row)).foldl (fun n x => n ||| x.2.toNat) (s.hub.fuseRow row)) ∧
      (∀ p ∈ h.fuseFields, h.rd p.1 = p.2) ∧ h.rd F.BOOT_STATUS_PKG_ID = pkg ∧ h.hubAddr = 128 * pkg.val + bitsOf (h.fuseUsed 3) 0 7 ∧
      h.rd F.GLB_HUB_LEAD = bitsOf (h.fuseUsed 3) 7 1 ∧ h.rd F.GLB_HUB_PAIR = bitsOf (h.fuseUsed 3) 11 1 ∧
      h.boot.life = (lifeOf h.lifeBits).getD Life.SCRAPPED ∧ h.rd F.LIFE_STATE_STATE = h.boot.life ∧
      (∀ t ∈ h.badTiles, (h.tile t).st = .outOfService) ∧ h.pins.tileHold = true ∧ h.shows Ev.FUSE_LOADED 0 = true ∧
      (h.boot.life = Life.BLANK → h.rd F.BOOT_STATUS_STEP = 8) ∧ (h.boot.life ≠ Life.BLANK → h.rd F.BOOT_STATUS_STEP = 4) ∧
      State.reset.hub.rest h = { State.reset.hub with boot := h.boot, time := h.time, tiles := h.tiles, power := h.power, auth := h.auth, fed := h.fed, freeCount := h.freeCount, store := s.hub.store, link := (State.reset.hub.rest h).link, coops := (State.reset.hub.rest h).coops }) ∧
  (∀ (s : State) (pkg : Fin 16) (fuses : List (Fin 512 × Word)) (corrected : List (Fin 512)) (failed : List (Fin 512)),
    s.hub.calm = true → s.hub.time.powered = true →
    Answers (.powerGood pkg fuses corrected failed) s fun h =>
      s.hub.rest h = s.hub ∧ s.hub.keeps h []) ∧
  (∀ (s : State),
    Answers .powerGoodFall s fun h =>
      h = { State.reset.hub with freeCount := s.hub.freeCount, boot := { State.reset.hub.boot with fuses := s.hub.boot.fuses } }) ∧
  (∀ (s : State),
    s.hub.calm = true → s.hub.inStep 4 = true → s.hub.flag F.TIME_STATE_IS_MASTER = true → s.hub.boot.reading = false →
    s.hub.elapsed s.hub.linksUpAt 4096 = true →
    Answers .masterWaitExpiry s fun h =>
      h.boot.reading = true ∧ s.hub.rest h = { s.hub with boot := { s.hub.boot with reading := true } } ∧ s.hub.keeps h []) ∧
  (∀ (s : State) (t : Nat),
    s.hub.calm = true → s.hub.inStep 4 = true → s.hub.isLead = true → s.hub.flag F.TIME_CTRL_MASTER = false → s.hub.boot.reading = false →
    s.hub.boot.firstFrame = none → s.hub.fed.masterSeen = false → s.hub.fed.firstUp = some t → s.hub.elapsed t 4000000 = true →
    Answers .masterAssumed s fun h =>
      h.rd F.TIME_CTRL_MASTER = 1 ∧ h.rd F.TIME_STATE_IS_MASTER = 1 ∧ h.rd F.BOOT_STATUS_MASTER_ASSUMED = 1 ∧ h.boot.reading = true ∧
      h.shows Ev.MASTER_ASSUMED 0 = true ∧ s.hub.rest h = { s.hub with boot := { s.hub.boot with reading := true }, fed := h.fed } ∧
      s.hub.keeps h [R.TIME_CTRL, R.TIME_STATE, R.BOOT_STATUS])

/-- In step 4 a good header is kept and the flood of the image begins; an image that passes the check is kept and step 7 follows, at the master after its read and at another hub after IMAGE_DONE; frames are staged by offset; a bad header, an IMAGE_DONE of length 0 and the two time limits leave factory defaults with their reason, raise CFG_DEFAULTED and go to step 7. The images named here carry no register records for the hub, so that only the image itself acts. -/
def Obligations.the_image_is_read_flooded_and_checked : Prop :=
  (∀ (s : State) (header : List Byte),
    s.hub.calm = true → header.length = 64 → s.hub.inStep 4 = true → s.hub.boot.reading = true → s.hub.boot.flooding = false →
    bitAt (s.hub.fuseUsed 6) 30 = true → header.all (fun x => x == 0) = false → header.all (fun x => x == 0xFF) = false →
    headerFault header = 0 →
    Answers (.flashHeaderRead header) s fun h =>
      h.boot.header = header ∧ h.boot.flooding = true ∧ s.hub.rest h = { s.hub with boot := h.boot, fed := h.fed } ∧ s.hub.keeps h []) ∧
  (∀ (s : State) (header : List Byte),
    s.hub.calm = true → header.length = 64 → s.hub.inStep 4 = true → s.hub.boot.reading = true → s.hub.boot.flooding = false →
    bitAt (s.hub.fuseUsed 6) 30 = true → header.all (fun x => x == 0) = false → header.all (fun x => x == 0xFF) = false →
    headerFault header ≠ 0 →
    Answers (.flashHeaderRead header) s fun h =>
      h.rd F.BOOT_STATUS_CFG_DEFAULTED = 1 ∧ h.rd F.BOOT_STATUS_DEFAULT_REASON = headerFault header ∧ h.rd F.BOOT_STATUS_STEP = 7 ∧
      h.hasErr Er.BOOT_IMAGE_CHECK = true ∧ h.shows Ev.CFG_DEFAULTED (headerFault header) = true ∧
      s.hub.rest h = { s.hub with boot := h.boot, fed := h.fed, cell := h.cell, store := h.store, freeCount := h.freeCount } ∧
      s.hub.keepsOff h [Pg.BOOT, Pg.CELL, Pg.HARV]) ∧
  (∀ (s : State) (rest : List Byte) (image : List Byte) (keyOk : Bool) (sigOk : Bool),
    s.hub.calm = true → s.hub.inStep 4 = true → s.hub.boot.reading = true → s.hub.boot.flooding = true →
    image = s.hub.boot.header ++ padTo (Img.length s.hub.boot.header - 64) (rest.take (Img.length s.hub.boot.header - 64)) →
    s.hub.imageFault image keyOk sigOk = 0 →
    ((imageSections image).getD []).all (fun x => !s.hub.sectionMine x || (x.type == 1 && x.body.length == 16)) = true →
    Answers (.imageReadComplete rest keyOk sigOk false) s fun h =>
      h.boot.kept = image ∧ h.rd F.BOOT_STATUS_STEP = 7 ∧ h.reg R.BOOT_IMAGE_SEQ = Img.seq image % 2 ^ 32 ∧
      h.shows Ev.IMAGE_ACCEPTED (Img.seq image % 0x10000) = true ∧
      s.hub.rest h = { s.hub with boot := h.boot, fed := h.fed, taste := h.taste, cell := h.cell, store := h.store, freeCount := h.freeCount } ∧
      s.hub.keepsOff h [Pg.BOOT, Pg.CELL, Pg.HARV]) ∧
  (∀ (s : State) (tendril : TendrilId) (seq : BitVec 8) (offset : Word) (data : BitVec 96),
    s.hub.calm = true → (s.hub.accept2 tendril seq.toNat).1 = true → s.hub.boot.stage.any (fun p => p.1 == offset.toNat) = false →
    Answers (.imageFrameRx tendril seq offset data) s fun h =>
      (offset.toNat, le 12 data.toNat) ∈ h.boot.stage ∧ h.boot.firstFrame.isSome = true ∧
      s.hub.rest h = { s.hub with boot := h.boot, fed := h.fed } ∧ s.hub.keeps h []) ∧
  (∀ (s : State) (hd : Hdr2) (crc : Word) (reason : BitVec 8) (eccBad : Bool),
    s.hub.calm = true → s.hub.takesFrame hd Op.IMAGE_DONE = true → s.hub.inStep 4 = true → s.hub.flag F.TIME_STATE_IS_MASTER = false →
    Answers (.imageDoneRx hd 0 crc reason eccBad) s fun h =>
      h.rd F.BOOT_STATUS_CFG_DEFAULTED = 1 ∧ h.rd F.BOOT_STATUS_DEFAULT_REASON = reason.toNat % 8 ∧ h.rd F.BOOT_STATUS_STEP = 7 ∧
      h.shows Ev.CFG_DEFAULTED reason.toNat = true ∧
      s.hub.rest h = { s.hub with boot := h.boot, fed := h.fed, cell := h.cell, store := h.store, freeCount := h.freeCount } ∧
      s.hub.keepsOff h [Pg.BOOT, Pg.CELL, Pg.HARV]) ∧
  (∀ (s : State) (hd : Hdr2) (length : Word) (crc : Word) (reason : BitVec 8) (image : List Byte),
    s.hub.calm = true → s.hub.takesFrame hd Op.IMAGE_DONE = true → s.hub.inStep 4 = true → s.hub.flag F.TIME_STATE_IS_MASTER = false →
    length ≠ 0 → s.hub.received length.toNat crc.toNat = some image → s.hub.stageFits image = true →
    ((imageSections image).getD []).all (fun x => !s.hub.sectionMine x || (x.type == 1 && x.body.length == 16)) = true →
    Answers (.imageDoneRx hd length crc reason false) s fun h =>
      h.boot.kept = image ∧ h.rd F.BOOT_STATUS_STEP = 7 ∧ h.reg R.BOOT_IMAGE_SEQ = Img.seq image % 2 ^ 32 ∧
      h.shows Ev.IMAGE_ACCEPTED (Img.seq image % 0x10000) = true ∧
      s.hub.rest h = { s.hub with boot := h.boot, fed := h.fed, taste := h.taste, cell := h.cell, store := h.store, freeCount := h.freeCount } ∧
      s.hub.keepsOff h [Pg.BOOT, Pg.CELL, Pg.HARV]) ∧
  (∀ (s : State),
    s.hub.calm = true → s.hub.waitsImage = true → s.hub.boot.firstFrame = none → s.hub.elapsed s.hub.linksUpAt 8000000 = true →
    Answers .imageWaitTimeout s fun h =>
      h.rd F.BOOT_STATUS_CFG_DEFAULTED = 1 ∧ h.rd F.BOOT_STATUS_DEFAULT_REASON = Dr.NO_IMAGE ∧ h.rd F.BOOT_STATUS_STEP = 7 ∧
      h.shows Ev.CFG_DEFAULTED Dr.NO_IMAGE = true ∧
      s.hub.rest h = { s.hub with boot := h.boot, fed := h.fed, cell := h.cell, store := h.store, freeCount := h.freeCount } ∧
      s.hub.keepsOff h [Pg.BOOT, Pg.CELL, Pg.HARV]) ∧
  (∀ (s : State) (t : Nat),
    s.hub.calm = true → s.hub.waitsImage = true → s.hub.boot.firstFrame = some t → s.hub.elapsed t 20000000 = true →
    Answers .imageDoneTimeout s fun h =>
      h.rd F.BOOT_STATUS_CFG_DEFAULTED = 1 ∧ h.rd F.BOOT_STATUS_DEFAULT_REASON = Dr.NO_IMAGE ∧ h.rd F.BOOT_STATUS_STEP = 7 ∧
      h.hasErr Er.BOOT_FLOOD = true ∧ h.shows Ev.CFG_DEFAULTED Dr.NO_IMAGE = true ∧
      s.hub.rest h = { s.hub with boot := h.boot, fed := h.fed, cell := h.cell, store := h.store, freeCount := h.freeCount } ∧
      s.hub.keepsOff h [Pg.BOOT, Pg.CELL, Pg.HARV])

/-- In step 7 the end of the boot BIST goes to step 8 and shows which selected targets ran and which its limit cut off (with no image kept, so that nothing is applied anew); a hub ready to release deasserts TILE_HOLD, goes to step 9 and raises RELEASED, also without a time base and by BOOT_CMD from JTAG in a BLANK hub. -/
def Obligations.boot_self_test_and_release_end_start_up : Prop :=
  (∀ (s : State) (found : List BistFind),
    s.hub.calm = true → s.hub.inStep 7 = true → s.hub.boot.kept = [] →
    Answers (.bootBistDone found) s fun h =>
      h.rd F.BOOT_STATUS_STEP = 8 ∧ h.rd F.BOOT_BIST_RESULT_RUN = s.hub.rd F.BOOT_BIST_SEL_TARGETS ∧ h.rd F.BOOT_BIST_RESULT_NOT_RUN = 0 ∧
      (found = [] → s.hub.flag F.TIME_STATE_IS_MASTER = false → s.hub.rest h = { s.hub with boot := h.boot, bist := h.bist, fed := h.fed, cell := h.cell, store := h.store, freeCount := h.freeCount }) ∧
      (found = [] → s.hub.flag F.TIME_STATE_IS_MASTER = false → s.hub.keepsOff h [Pg.BOOT, Pg.CELL, Pg.HARV])) ∧
  (∀ (s : State) (completed : List (Fin 5)) (found : List BistFind),
    s.hub.calm = true → s.hub.inStep 7 = true → s.hub.boot.kept = [] →
    s.hub.elapsed s.hub.boot.stepAt (s.hub.rd F.BOOT_BIST_LIMIT_HCLK) = true →
    Answers (.bootBistTimeout completed found) s fun h =>
      h.rd F.BOOT_STATUS_STEP = 8 ∧
      h.rd F.BOOT_BIST_RESULT_RUN = listMask ((maskList 5 (s.hub.rd F.BOOT_BIST_SEL_TARGETS)).filter (completed.map Fin.val).contains) ∧
      h.rd F.BOOT_BIST_RESULT_NOT_RUN = listMask ((maskList 5 (s.hub.rd F.BOOT_BIST_SEL_TARGETS)).filter (fun t => !(completed.map Fin.val).contains t)) ∧
      (found = [] → s.hub.flag F.TIME_STATE_IS_MASTER = false → s.hub.rest h = { s.hub with boot := h.boot, bist := h.bist, fed := h.fed, cell := h.cell, store := h.store, freeCount := h.freeCount }) ∧
      (found = [] → s.hub.flag F.TIME_STATE_IS_MASTER = false → s.hub.keepsOff h [Pg.BOOT, Pg.CELL, Pg.HARV])) ∧
  (∀ (s : State),
    s.hub.calm = true → s.hub.readyToRelease = true →
    Answers .released s fun h =>
      h.rd F.BOOT_STATUS_STEP = 9 ∧ h.boot.released = true ∧ h.pins.tileHold = false ∧ h.shows Ev.RELEASED 0 = true ∧
      s.hub.rest h = { s.hub with boot := h.boot, power := h.power, coops := (s.hub.rest h).coops } ∧
      s.hub.keeps h [R.COOP_RUNS, R.COOP_RUNS + 0x1000, R.COOP_EVLOSS, R.COOP_EVLOSS + 0x1000, R.BOOT_STATUS, F.BOOT_TIME_RELEASE_HCLK.addr]) ∧
  (∀ (s : State),
    s.hub.calm = true → s.hub.inStep 8 = true → s.hub.boot.life ≠ Life.BLANK → s.hub.timeOk = false → s.hub.isSafe = false →
    s.hub.elapsed s.hub.boot.stepAt 8000000 = true →
    Answers .noTimeRelease s fun h =>
      h.rd F.BOOT_STATUS_STEP = 9 ∧ h.rd F.BOOT_STATUS_NO_TIME = 1 ∧ h.boot.released = true ∧ h.pins.tileHold = false ∧
      h.shows Ev.RELEASED 0 = true ∧ s.hub.rest h = { s.hub with boot := h.boot, power := h.power, coops := (s.hub.rest h).coops } ∧
      s.hub.keeps h [R.COOP_RUNS, R.COOP_RUNS + 0x1000, R.COOP_EVLOSS, R.COOP_EVLOSS + 0x1000, R.BOOT_STATUS, F.BOOT_TIME_RELEASE_HCLK.addr]) ∧
  (∀ (s : State),
    s.hub.calm = true → s.hub.takesWrite .jtag R.BOOT_CMD 1 = true → s.hub.boot.life = Life.BLANK → s.hub.boot.released = false →
    Answers (.bootRelease .jtag) s fun h =>
      h.tookWrite .jtag ∧ h.rd F.BOOT_STATUS_STEP = 9 ∧ h.rd F.BOOT_CMD_STATUS_STATUS = St.OK ∧ h.boot.released = true ∧
      h.pins.tileHold = s.hub.rel.safe ∧ h.shows Ev.RELEASED 0 = true ∧
      s.hub.rest h = { s.hub with boot := h.boot, power := h.power, coops := (s.hub.rest h).coops } ∧
      s.hub.keeps h [R.COOP_RUNS, R.COOP_RUNS + 0x1000, R.COOP_EVLOSS, R.COOP_EVLOSS + 0x1000, R.BOOT_STATUS, F.BOOT_TIME_RELEASE_HCLK.addr, R.BOOT_CMD_STATUS]) ∧
  (∀ (s : State) (r : Req),
    s.hub.calm = true → s.hub.takesWrite r R.BOOT_CMD 1 = true → s.hub.boot.life = Life.BLANK → s.hub.boot.released = false → r ≠ .jtag →
    Answers (.bootRelease r) s fun h =>
      h.tookWrite r ∧ h.rd F.BOOT_CMD_STATUS_STATUS = St.DENIED ∧ s.hub.rest h = s.hub ∧ s.hub.keeps h [R.BOOT_CMD_STATUS])

/-- An accepted ADVANCE burns the next thermometer code into the three copies in rows 0 to 2, shows the next state as pending, and leaves the state in force as it is; PROGRAM_KEY burns the twelve words of LIFE_KEY into rows 12 to 23; ADD_BAD_TILE burns the entry for LIFE_ARG.TILE into the first unused entry and no other; SCRAP burns the code of SCRAPPED into the three copies and SCRAPPED is in force at once. Where the rows of any of the four do not read back as burnt, the command ends with FAULT and BURN_VERIFY and the state in force stays. -/
def Obligations.the_life_cycle_advances_by_burning_fuses : Prop :=
  (∀ (s : State) (r : Req) (vpp : Bool),
    s.hub.calm = true → s.hub.takesWrite r R.LIFE_CMD 1 = true → (s.hub.wr F.LIFE_STATE_VPP_READY (b2n vpp)).lifeCheck r 1 = St.OK →
    Answers (.lifeAdvance r true vpp) s fun h =>
      h.tookWrite r ∧ h.rd F.LIFE_CMD_STATUS_STATUS = St.OK ∧ h.rd F.LIFE_STATE_PENDING = 1 ∧
      h.rd F.LIFE_STATE_PENDING_STATE = s.hub.boot.life + 1 ∧ h.boot.life = s.hub.boot.life ∧
      h.fuseRow 0 = s.hub.fuseRow 0 ||| thermometer (s.hub.boot.life + 1) ∧
      h.fuseRow 1 = s.hub.fuseRow 1 ||| thermometer (s.hub.boot.life + 1) ∧
      h.fuseRow 2 = s.hub.fuseRow 2 ||| thermometer (s.hub.boot.life + 1) ∧ h.shows Ev.LC_ADVANCED 0 = true ∧
      s.hub.rest h = { s.hub with boot := h.boot } ∧ s.hub.keeps h [R.LIFE_STATE, R.LIFE_CMD_STATUS]) ∧
  (∀ (s : State) (r : Req) (vpp : Bool),
    s.hub.calm = true → s.hub.takesWrite r R.LIFE_CMD 2 = true → (s.hub.wr F.LIFE_STATE_VPP_READY (b2n vpp)).lifeCheck r 2 = St.OK →
    Answers (.programKey r true vpp) s fun h =>
      h.tookWrite r ∧ h.rd F.LIFE_CMD_STATUS_STATUS = St.OK ∧
      (List.range 12).all (fun n => h.fuseRow (12 + n) == s.hub.fuseRow (12 + n) ||| s.hub.reg (R.LIFE_KEY_0 + 4 * n)) = true ∧
      h.rd F.LIFE_STATE_KEY_SET = b2n h.keySet ∧ h.boot.life = s.hub.boot.life ∧ s.hub.rest h = { s.hub with boot := h.boot } ∧
      s.hub.keeps h [R.LIFE_STATE, R.LIFE_CMD_STATUS]) ∧
  (∀ (s : State) (r : Req) (vpp : Bool),
    s.hub.calm = true → s.hub.takesWrite r R.LIFE_CMD 3 = true → (s.hub.wr F.LIFE_STATE_VPP_READY (b2n vpp)).lifeCheck r 3 = St.OK →
    Answers (.addBadTile r true vpp) s fun h =>
      h.tookWrite r ∧ h.rd F.LIFE_CMD_STATUS_STATUS = St.OK ∧
      (match (List.range 512).find? (fun n => s.hub.badEntry n == 0) with | some n => h.badEntry n == badEntryFor (s.hub.rd F.LIFE_ARG_TILE) && (List.range 512).all (fun m => m == n || h.badEntry m == s.hub.badEntry m) | none => true) = true ∧
      h.rd F.LIFE_STATE_BAD_USED = h.badUsed.length % 1024 ∧ h.badUsed.length = s.hub.badUsed.length + 1 ∧ h.boot.life = s.hub.boot.life ∧
      s.hub.rest h = { s.hub with boot := h.boot } ∧ s.hub.keeps h [R.LIFE_STATE, R.LIFE_CMD_STATUS]) ∧
  (∀ (s : State) (r : Req) (vpp : Bool),
    s.hub.calm = true → s.hub.takesWrite r R.LIFE_CMD 4 = true → (s.hub.wr F.LIFE_STATE_VPP_READY (b2n vpp)).lifeCheck r 4 = St.OK →
    Answers (.lifeScrap r true vpp) s fun h =>
      h.tookWrite r ∧ h.rd F.LIFE_CMD_STATUS_STATUS = St.OK ∧ h.boot.life = Life.SCRAPPED ∧ h.rd F.LIFE_STATE_STATE = Life.SCRAPPED ∧
      (List.range 3).all (fun n => h.fuseRow n == s.hub.fuseRow n ||| 0x1F) = true ∧ h.shows Ev.LC_ADVANCED 0 = true ∧
      s.hub.rest h = { s.hub with boot := h.boot, link := (s.hub.rest h).link } ∧ s.hub.keepsOff h [Pg.LIFE, Pg.LINK]) ∧
  (∀ (s : State) (r : Req) (vpp : Bool),
    s.hub.calm = true → s.hub.takesWrite r R.LIFE_CMD 1 = true → (s.hub.wr F.LIFE_STATE_VPP_READY (b2n vpp)).lifeCheck r 1 = St.OK →
    Answers (.lifeAdvance r false vpp) s fun h =>
      h.tookWrite r ∧ h.rd F.LIFE_CMD_STATUS_STATUS = St.FAULT ∧ h.hasErr Er.LIFE_BURN_VERIFY = true ∧ h.boot.life = s.hub.boot.life ∧
      s.hub.rest h = { s.hub with boot := h.boot, freeCount := h.freeCount } ∧ s.hub.keepsOff h [Pg.LIFE]) ∧
  (∀ (s : State) (r : Req) (vpp : Bool),
    s.hub.calm = true → s.hub.takesWrite r R.LIFE_CMD 2 = true → (s.hub.wr F.LIFE_STATE_VPP_READY (b2n vpp)).lifeCheck r 2 = St.OK →
    Answers (.programKey r false vpp) s fun h =>
      h.tookWrite r ∧ h.rd F.LIFE_CMD_STATUS_STATUS = St.FAULT ∧ h.hasErr Er.LIFE_BURN_VERIFY = true ∧ h.boot.life = s.hub.boot.life ∧
      s.hub.rest h = { s.hub with boot := h.boot, freeCount := h.freeCount } ∧ s.hub.keepsOff h [Pg.LIFE]) ∧
  (∀ (s : State) (r : Req) (vpp : Bool),
    s.hub.calm = true → s.hub.takesWrite r R.LIFE_CMD 3 = true → (s.hub.wr F.LIFE_STATE_VPP_READY (b2n vpp)).lifeCheck r 3 = St.OK →
    Answers (.addBadTile r false vpp) s fun h =>
      h.tookWrite r ∧ h.rd F.LIFE_CMD_STATUS_STATUS = St.FAULT ∧ h.hasErr Er.LIFE_BURN_VERIFY = true ∧ h.boot.life = s.hub.boot.life ∧
      s.hub.rest h = { s.hub with boot := h.boot, freeCount := h.freeCount } ∧ s.hub.keepsOff h [Pg.LIFE]) ∧
  (∀ (s : State) (r : Req) (vpp : Bool),
    s.hub.calm = true → s.hub.takesWrite r R.LIFE_CMD 4 = true → (s.hub.wr F.LIFE_STATE_VPP_READY (b2n vpp)).lifeCheck r 4 = St.OK →
    Answers (.lifeScrap r false vpp) s fun h =>
      h.tookWrite r ∧ h.rd F.LIFE_CMD_STATUS_STATUS = St.FAULT ∧ h.hasErr Er.LIFE_BURN_VERIFY = true ∧ h.boot.life = s.hub.boot.life ∧
      s.hub.rest h = { s.hub with boot := h.boot, freeCount := h.freeCount } ∧ s.hub.keepsOff h [Pg.LIFE])

/-- An accepted CHALLENGE takes the next four free words as the nonce, whose lifetime begins, and changes no grant; an accepted VERIFY with a good key and signature and a free record stores the asked grant there with GRANT_BEGIN, zeroes the count of failures and uses the nonce up, and one with a bad key or signature changes no grant, uses the nonce up, counts the failure and ends DENIED with AUTH_FAIL; an accepted REVOKE ends its grant with GRANT_END and no other; a grant whose lifetime is over ends with GRANT_END, the others that are not over stay; a nonce that is no longer valid is gone, and a lockout that is over ends and zeroes the count of failures. (That the nonce is made of free values is log entry 4.) -/
def Obligations.grants_begin_with_verify_and_end_with_revoke_or_expiry : Prop :=
  (∀ (s : State) (r : Req),
    s.hub.calm = true → s.hub.takesWrite r R.AUTH_CMD 1 = true → s.hub.authCheck 1 = St.OK →
    Answers (.authChallenge r true) s fun h =>
      h.tookWrite r ∧ h.auth.nonceAt = some s.hub.time.hclk ∧ h.reg R.AUTH_NONCE_0 = (Config.freeWord s.hub.freeCount).toNat ∧
      h.reg (R.AUTH_NONCE_0 + 4) = (Config.freeWord (s.hub.freeCount + 1)).toNat ∧
      h.reg (R.AUTH_NONCE_0 + 8) = (Config.freeWord (s.hub.freeCount + 2)).toNat ∧
      h.reg (R.AUTH_NONCE_0 + 12) = (Config.freeWord (s.hub.freeCount + 3)).toNat ∧ h.freeCount = s.hub.freeCount + 4 ∧
      h.rd F.AUTH_CMD_STATUS_STATUS = St.OK ∧ h.auth.grants = s.hub.auth.grants ∧
      s.hub.rest h = { s.hub with auth := h.auth, freeCount := h.freeCount } ∧
      s.hub.keeps h [R.AUTH_NONCE_0, R.AUTH_NONCE_0 + 4, R.AUTH_NONCE_0 + 8, R.AUTH_NONCE_0 + 12, R.AUTH_CMD_STATUS]) ∧
  (∀ (s : State) (r : Req) (g : Nat),
    s.hub.calm = true → s.hub.takesWrite r R.AUTH_CMD 2 = true → s.hub.authCheck 2 = St.OK → s.hub.freeGrant = some g →
    Answers (.authVerify r true true) s fun h =>
      h.tookWrite r ∧ h.auth.grants.get g {} = s.hub.grantAsked ∧ h.auth.nonceAt = none ∧ h.rd F.AUTH_FAILS_COUNT = 0 ∧
      h.rd F.AUTH_CMD_STATUS_STATUS = St.OK ∧ h.shows Ev.GRANT_BEGIN 0 = true ∧ s.hub.rest h = { s.hub with auth := h.auth } ∧
      s.hub.keeps h [R.AUTH_FAILS, R.AUTH_CMD_STATUS]) ∧
  (∀ (s : State) (r : Req) (keyOk : Bool) (sigOk : Bool),
    s.hub.calm = true → s.hub.takesWrite r R.AUTH_CMD 2 = true → s.hub.authCheck 2 = St.OK → (keyOk && sigOk) = false →
    Answers (.authVerify r keyOk sigOk) s fun h =>
      h.tookWrite r ∧ h.auth.grants = s.hub.auth.grants ∧ h.auth.nonceAt = none ∧
      h.rd F.AUTH_FAILS_COUNT = sat F.AUTH_FAILS_COUNT.width (s.hub.rd F.AUTH_FAILS_COUNT + 1) ∧ h.rd F.AUTH_CMD_STATUS_STATUS = St.DENIED ∧
      h.shows Ev.AUTH_FAIL 0 = true ∧ s.hub.rest h = { s.hub with auth := h.auth } ∧ s.hub.keeps h [R.AUTH_FAILS, R.AUTH_CMD_STATUS]) ∧
  (∀ (s : State) (r : Req) (g : Nat),
    s.hub.calm = true → s.hub.takesWrite r R.AUTH_CMD 3 = true → s.hub.authCheck 3 = St.OK → s.hub.rd F.AUTH_GRANT_SEL_RECORD = g →
    Answers (.authRevoke r) s fun h =>
      h.tookWrite r ∧ (h.auth.grants.get g {}).valid = false ∧ h.rd F.AUTH_CMD_STATUS_STATUS = St.OK ∧ h.shows Ev.GRANT_END g = true ∧
      s.hub.rest h = { s.hub with auth := h.auth, tiles := h.tiles } ∧ s.hub.keeps h [R.AUTH_CMD_STATUS] ∧
      (∀ k, k ≠ g → h.auth.grants.get k {} = s.hub.auth.grants.get k {})) ∧
  (∀ (s : State) (g : Nat),
    s.hub.calm = true → g < 4 → s.hub.grantOver (s.hub.auth.grants.get g {}) = true →
    Answers .grantExpiry s fun h =>
      (h.auth.grants.get g {}).valid = false ∧ h.shows Ev.GRANT_END g = true ∧
      s.hub.rest h = { s.hub with auth := h.auth, tiles := h.tiles } ∧ s.hub.keeps h [] ∧
      (∀ k, s.hub.grantOver (s.hub.auth.grants.get k {}) = false → h.auth.grants.get k {} = s.hub.auth.grants.get k {})) ∧
  (∀ (s : State),
    s.hub.calm = true → s.hub.nonceValid = false →
    Answers .nonceExpiry s fun h =>
      h.auth.nonceAt = none ∧ s.hub.rest h = { s.hub with auth := { s.hub.auth with nonceAt := none } } ∧ s.hub.keeps h []) ∧
  (∀ (s : State),
    s.hub.calm = true → s.hub.auth.lockedAt.isSome = true → s.hub.authLocked = false →
    Answers .authLockoutExpiry s fun h =>
      h.auth.lockedAt = none ∧ h.rd F.AUTH_FAILS_COUNT = 0 ∧ h.rd F.AUTH_FAILS_LOCKED = 0 ∧
      s.hub.rest h = { s.hub with auth := { s.hub.auth with lockedAt := none } } ∧ s.hub.keeps h [R.AUTH_FAILS])

/-- An accepted TIME_CMD completes: ESTABLISH sets GCN 0 under the epoch of TIME_ARG_EPOCH or 1; REEPOCH under that epoch or the next; RESYNC leaves GCN and puts a SYNC RESYNC with GCN, epoch and hub address on every UP tendril; ARM_TBS arms with the TBS registers and waits; CLKCHG makes a change to another divider pending at its aligned GCN; CLKCHG_CANCEL withdraws one no nearer than 64 periods. Other units keep their state. -/
def Obligations.time_commands_set_gcn_epoch_and_clock_changes : Prop :=
  (∀ (s : State) (r : Req),
    s.hub.calm = true → s.hub.takesWrite r R.TIME_CMD 1 = true → s.hub.timeCheck 1 = St.OK →
    Answers (.establish r) s fun h =>
      h.tookWrite r ∧ h.rd F.TIME_CMD_STATUS_STATUS = St.OK ∧ h.rd F.TIME_CMD_STATUS_OP = 1 ∧
      h.rd F.TIME_CMD_STATUS_DONE = b2n s.hub.time.armedAt.isNone ∧ h.time.gcn = 0 ∧
      h.epoch = (if s.hub.rd F.TIME_ARG_EPOCH_EPOCH = 0 then 1 else s.hub.rd F.TIME_ARG_EPOCH_EPOCH) ∧
      h.rd F.TIME_STATE_STATE = (if s.hub.time.armedAt.isSome then 2 else 1) ∧ h.shows Ev.TIME_ESTABLISHED 0 = true ∧
      s.hub.rest h = { s.hub with time := h.time, power := h.power, tiles := h.tiles, auth := h.auth, fed := h.fed } ∧
      s.hub.keeps h [R.TIME_EPOCH, R.TIME_STATE, R.TIME_ORIGIN_W, R.TIME_ORIGIN_E, R.TIME_CMD_STATUS]) ∧
  (∀ (s : State) (r : Req),
    s.hub.calm = true → s.hub.takesWrite r R.TIME_CMD 2 = true → s.hub.timeCheck 2 = St.OK →
    Answers (.reepoch r) s fun h =>
      h.tookWrite r ∧ h.rd F.TIME_CMD_STATUS_STATUS = St.OK ∧ h.rd F.TIME_CMD_STATUS_OP = 2 ∧
      h.rd F.TIME_CMD_STATUS_DONE = b2n s.hub.time.armedAt.isNone ∧ h.time.gcn = 0 ∧
      h.epoch = (if s.hub.rd F.TIME_ARG_EPOCH_EPOCH = 0 then (if s.hub.epoch = 0xFFFFFFFF then 1 else s.hub.epoch + 1) else s.hub.rd F.TIME_ARG_EPOCH_EPOCH) ∧
      h.shows Ev.TIME_ESTABLISHED 0 = true ∧
      s.hub.rest h = { s.hub with time := h.time, power := h.power, tiles := h.tiles, auth := h.auth, fed := h.fed } ∧
      s.hub.keeps h [R.TIME_EPOCH, R.TIME_STATE, R.TIME_ORIGIN_W, R.TIME_ORIGIN_E, R.TIME_CMD_STATUS]) ∧
  (∀ (s : State) (r : Req),
    s.hub.calm = true → s.hub.takesWrite r R.TIME_CMD 3 = true → s.hub.timeCheck 3 = St.OK →
    Answers (.timeResync r) s fun h =>
      h.tookWrite r ∧ h.rd F.TIME_CMD_STATUS_STATUS = St.OK ∧ h.rd F.TIME_CMD_STATUS_OP = 3 ∧
      h.rd F.TIME_CMD_STATUS_DONE = b2n s.hub.time.armedAt.isNone ∧ h.time.gcn = s.hub.time.gcn ∧
      (∀ u ∈ s.hub.upTendrils, frame Ft.SYNC SyncKind.RESYNC 0 (le 8 s.hub.time.gcn ++ le 4 s.hub.epoch ++ le 2 s.hub.hubAddr) ∈ (h.tend u).txQ) ∧
      s.hub.rest h = { s.hub with fed := h.fed } ∧ s.hub.keeps h [R.TIME_CMD_STATUS]) ∧
  (∀ (s : State) (r : Req),
    s.hub.calm = true → s.hub.takesWrite r R.TIME_CMD 4 = true → s.hub.timeCheck 4 = St.OK →
    Answers (.armTbs r) s fun h =>
      h.tookWrite r ∧ h.rd F.TIME_CMD_STATUS_STATUS = St.OK ∧ h.rd F.TIME_CMD_STATUS_OP = 4 ∧ h.rd F.TIME_CMD_STATUS_DONE = 0 ∧
      h.rd F.TIME_STATE_STATE = 2 ∧ h.time.armedAt = some s.hub.time.hclk ∧ h.time.armGcn = s.hub.reg64 R.TIME_TBS_GCN_LO ∧
      h.time.armComp = signed 8 (s.hub.rd F.TIME_TBS_COMP_COMP) ∧ h.time.gcn = s.hub.time.gcn ∧
      s.hub.rest h = { s.hub with time := h.time } ∧ s.hub.keeps h [R.TIME_STATE, F.TIME_TBS_LAST_COUNT.addr, R.TIME_CMD_STATUS]) ∧
  (∀ (s : State) (r : Req) (p : Nat) (code : Nat) (declared : Nat),
    s.hub.calm = true → s.hub.takesWrite r R.TIME_CMD 5 = true → s.hub.timeCheck 5 = St.OK → s.hub.rd F.TIME_CLKCHG_REQ_PART = p →
    s.hub.rd F.TIME_CLKCHG_REQ_DIV = code → s.hub.reg64 R.TIME_CLKCHG_GCN_LO = declared → s.hub.clkchgCheck p declared = St.OK →
    code ≠ s.hub.divCode p →
    Answers (.clkchg r) s fun h =>
      h.tookWrite r ∧ h.rd F.TIME_CMD_STATUS_STATUS = St.OK ∧ h.pendingChg p = some (code, s.hub.applyGcn p declared) ∧
      h.pendingChg (1 - p) = s.hub.pendingChg (1 - p) ∧ s.hub.rest h = { s.hub with time := h.time } ∧
      s.hub.keeps h [R.TIME_CLK_DIV, R.TIME_CLKCHG_APPLY_LO, R.TIME_CLKCHG_APPLY_LO + 4, R.TIME_CMD_STATUS]) ∧
  (∀ (s : State) (r : Req) (p : Nat) (code : Nat) (gc : Nat),
    s.hub.calm = true → s.hub.takesWrite r R.TIME_CMD 6 = true → s.hub.timeCheck 6 = St.OK → s.hub.rd F.TIME_CLKCHG_REQ_PART = p →
    s.hub.pendingChg p = some (code, gc) → reachedGcn (s.hub.now + 64) gc = true →
    Answers (.clkchgCancel r) s fun h =>
      h.tookWrite r ∧ h.rd F.TIME_CMD_STATUS_STATUS = St.OK ∧ h.pendingChg p = none ∧ h.pendingChg (1 - p) = s.hub.pendingChg (1 - p) ∧
      h.shows Ev.CLKCHG_CANCELLED 0 = true ∧ s.hub.rest h = { s.hub with time := h.time } ∧
      s.hub.keeps h [R.TIME_CLK_DIV, R.TIME_CMD_STATUS]) ∧
  (∀ (s : State) (r : Req) (p : Nat) (code : Nat) (gc : Nat),
    s.hub.calm = true → s.hub.takesWrite r R.TIME_CMD 6 = true → s.hub.timeCheck 6 = St.OK → s.hub.rd F.TIME_CLKCHG_REQ_PART = p →
    s.hub.pendingChg p = some (code, gc) → reachedGcn (s.hub.now + 64) gc = false →
    Answers (.clkchgCancel r) s fun h =>
      h.tookWrite r ∧ h.rd F.TIME_CMD_STATUS_STATUS = St.TOO_SOON ∧ s.hub.rest h = s.hub ∧ s.hub.keeps h [R.TIME_CMD_STATUS])

/-- At its GCN a divider restart makes G_r the origin of both partitions, reduced to its alignment step, and the next edge of every running domain a stall cycle; a clock change takes the new divider at G_c, makes G_c the origin of its partition alone, makes the next edge of the running domains of that partition a stall cycle and raises CLKCHG_APPLIED. A pulse of TB_SYNC at an armed master sets GCN to the armed value plus 11 plus COMP and the epoch to the armed one, ends the arm with OK and sends SYNC ESTABLISH on every UP tendril; a pulse of less than 8 HCLK, or within 1,024 HCLK of the last, is a glitch and changes nothing else; a repeated pulse within one HCLK of the expected GCN is accepted, one further off clears XPKG_OK and is a fault. An arm without a pulse for 2^32 HCLK ends with TIMEOUT; an absent repeated pulse clears XPKG_OK and is a fault; at each check period every UP tendril carries a SYNC CHECK with GCN, epoch and hub address. -/
def Obligations.the_time_base_follows_its_own_clock_events : Prop :=
  (∀ (s : State) (g : Nat),
    s.hub.calm = true → s.hub.time.restartAt = some g → reachedGcn g s.hub.time.gcn = true →
    Answers .dividerRestart s fun h =>
      h.origin 0 = g % alignOf (s.hub.divCode 0) ∧ h.origin 1 = g % alignOf (s.hub.divCode 1) ∧
      (∀ z, h.dom z = (if s.hub.runningSlots.contains z && true then { s.hub.dom z with clkStall := true } else s.hub.dom z)) ∧
      s.hub.rest h = { s.hub with time := { s.hub.time with restartAt := none }, doms := h.doms } ∧
      s.hub.keeps h [R.TIME_ORIGIN_W, R.TIME_ORIGIN_E]) ∧
  (∀ (s : State) (east : Bool) (code : Nat) (gc : Nat),
    s.hub.calm = true → s.hub.pendingChg (b2n east) = some (code, gc) → reachedGcn gc s.hub.time.gcn = true →
    Answers (.clkchgApplied east) s fun h =>
      h.pendingChg (b2n east) = none ∧ h.pendingChg (1 - b2n east) = s.hub.pendingChg (1 - b2n east) ∧ h.divCode (b2n east) = code % 4 ∧
      h.divCode (1 - b2n east) = s.hub.divCode (1 - b2n east) ∧ h.origin (b2n east) = gc % alignOf (code % 4) ∧
      h.origin (1 - b2n east) = s.hub.origin (1 - b2n east) ∧
      (∀ z, h.dom z = (if s.hub.runningSlots.contains z && (s.hub.domPart z == b2n east) then { s.hub.dom z with clkStall := true } else s.hub.dom z)) ∧
      h.shows Ev.CLKCHG_APPLIED 0 = true ∧
      s.hub.rest h = { s.hub with time := { s.hub.time with chgW := h.time.chgW, chgE := h.time.chgE }, doms := h.doms } ∧
      s.hub.keeps h [R.TIME_CLK_DIV, R.TIME_ORIGIN_W, R.TIME_ORIGIN_E]) ∧
  (∀ (s : State) (high : Nat),
    s.hub.calm = true → s.hub.flag F.TIME_STATE_IS_MASTER = true → s.hub.flag F.TIME_CTRL_TBS_EN = true → 8 ≤ high →
    (match s.hub.time.lastPulse with | some t => decide (t + 1024 ≤ s.hub.time.hclk) | none => true) = true →
    s.hub.rd F.TIME_STATE_STATE = 2 →
    Answers (.tbSyncPulse high) s fun h =>
      (h.time.gcn : Int) = ((s.hub.time.armGcn : Int) + 11 + s.hub.time.armComp) % 2 ^ 64 ∧ h.epoch = s.hub.time.armEpoch % 2 ^ 32 ∧
      h.rd F.TIME_STATE_STATE = 1 ∧ h.time.armedAt = none ∧ h.time.lastPulse = some s.hub.time.hclk ∧
      h.rd F.TIME_CMD_STATUS_STATUS = St.OK ∧ h.rd F.TIME_CMD_STATUS_OP = 4 ∧ h.rd F.TIME_CMD_STATUS_DONE = 1 ∧
      (∀ u ∈ s.hub.upTendrils, frame Ft.SYNC SyncKind.ESTABLISH 0 (le 8 h.time.gcn ++ le 4 h.epoch ++ le 2 s.hub.hubAddr) ∈ (h.tend u).txQ) ∧
      s.hub.rest h = { s.hub with time := h.time, power := h.power, tiles := h.tiles, auth := h.auth, fed := h.fed, coops := (s.hub.rest h).coops } ∧
      s.hub.keeps h [R.TIME_EPOCH, R.TIME_STATE, R.TIME_ORIGIN_W, R.TIME_ORIGIN_E, R.TIME_CMD_STATUS, R.FED_SELF]) ∧
  (∀ (s : State) (high : Nat),
    s.hub.calm = true → s.hub.flag F.TIME_STATE_IS_MASTER = true → s.hub.flag F.TIME_CTRL_TBS_EN = true →
    (high < 8 || !(match s.hub.time.lastPulse with | some t => decide (t + 1024 ≤ s.hub.time.hclk) | none => true)) = true →
    Answers (.tbSyncPulse high) s fun h =>
      h.hasErr Er.TIME_TBS_GLITCH = true ∧ h.shows Ev.TBS_FAULT 0 = true ∧ s.hub.rest h = s.hub ∧
      s.hub.keeps h [R.PG_ERROR + Pg.TIME * 0x1000, R.PG_ERROR_INFO + Pg.TIME * 0x1000]) ∧
  (∀ (s : State) (high : Nat) (g : Nat) (dev : Int),
    s.hub.calm = true → s.hub.flag F.TIME_STATE_IS_MASTER = true → s.hub.flag F.TIME_CTRL_TBS_EN = true → 8 ≤ high →
    (match s.hub.time.lastPulse with | some t => decide (t + 1024 ≤ s.hub.time.hclk) | none => true) = true →
    s.hub.rd F.TIME_STATE_STATE ≠ 2 → s.hub.nextPulse = some g → signed 64 (unsigned 64 ((s.hub.time.gcn : Int) - 8 - g)) = dev →
    Answers (.tbSyncPulse high) s fun h =>
      h.time.gcn = s.hub.time.gcn ∧ h.time.pulseGcn = some g ∧ h.rd F.TIME_TBS_LAST_DEV = satSigned 8 dev ∧
      ((2 ≤ dev ∨ dev ≤ -2) → h.rd F.TIME_STATE_XPKG_OK = 0 ∧ h.hasErr Er.TIME_TBS_DEV = true ∧ h.shows Ev.TBS_FAULT 0 = true) ∧
      ((-1 ≤ dev ∧ dev ≤ 1) → h.rd F.TIME_STATE_XPKG_OK = s.hub.rd F.TIME_STATE_XPKG_OK) ∧
      s.hub.rest h = { s.hub with time := { s.hub.time with lastPulse := some s.hub.time.hclk, pulseGcn := some g } } ∧
      s.hub.keeps h [R.TIME_STATE, F.TIME_TBS_LAST_COUNT.addr, R.PG_ERROR + Pg.TIME * 0x1000, R.PG_ERROR_INFO + Pg.TIME * 0x1000]) ∧
  (∀ (s : State) (t : Nat),
    s.hub.calm = true → s.hub.time.armedAt = some t → s.hub.rd F.TIME_STATE_STATE = 2 → s.hub.elapsed t (2 ^ 32) = true →
    Answers .tbsArmTimeout s fun h =>
      h.rd F.TIME_CMD_STATUS_STATUS = St.TIMEOUT ∧ h.rd F.TIME_CMD_STATUS_OP = 4 ∧ h.rd F.TIME_CMD_STATUS_DONE = 1 ∧
      h.rd F.TIME_STATE_STATE = b2n s.hub.timeOk ∧ h.shows Ev.TBS_FAULT 0 = true ∧
      s.hub.rest h = { s.hub with time := { s.hub.time with armedAt := none } } ∧ s.hub.keeps h [R.TIME_STATE, R.TIME_CMD_STATUS]) ∧
  (∀ (s : State) (g : Nat),
    s.hub.calm = true → s.hub.nextPulse = some g → 2 ≤ s.hub.time.gcn - g → s.hub.time.gcn < g + 2 ^ 62 →
    Answers .tbsMiss s fun h =>
      h.hasErr Er.TIME_TBS_MISS = true ∧ h.rd F.TIME_STATE_XPKG_OK = 0 ∧
      h.rd F.TIME_TBS_LAST_DEV = satSigned 8 ((s.hub.time.gcn : Int) - g) ∧
      h.nextPulse = some ((g + s.hub.rd F.TIME_TBS_PERIOD_PERIOD) % 2 ^ 64) ∧ h.shows Ev.TBS_FAULT 0 = true ∧
      s.hub.rest h = { s.hub with time := { s.hub.time with pulseGcn := some g } } ∧
      s.hub.keeps h [R.TIME_STATE, F.TIME_TBS_LAST_COUNT.addr, R.PG_ERROR + Pg.TIME * 0x1000, R.PG_ERROR_INFO + Pg.TIME * 0x1000]) ∧
  (∀ (s : State),
    s.hub.calm = true → s.hub.timeOk = true →
    s.hub.elapsed s.hub.time.lastSync (if s.hub.rd F.TIME_SYNC_PERIOD_PERIOD < 4096 then 4096 else s.hub.rd F.TIME_SYNC_PERIOD_PERIOD) = true →
    Answers .syncCheckPeriod s fun h =>
      h.time.lastSync = s.hub.time.hclk ∧
      (∀ u ∈ s.hub.upTendrils, frame Ft.SYNC SyncKind.CHECK 0 (le 8 s.hub.time.gcn ++ le 4 s.hub.epoch ++ le 2 s.hub.hubAddr) ∈ (h.tend u).txQ) ∧
      s.hub.rest h = { s.hub with time := { s.hub.time with lastSync := s.hub.time.hclk }, fed := h.fed } ∧ s.hub.keeps h [])

/-- A SYNC frame on an UP tendril gives V + 12: ESTABLISH of another epoch starts it here and is flooded on, of the same epoch a difference is recorded and GCN is not corrected; CHECK only compares; RESYNC steps a hub to the value and is flooded on, but a copy within 1,024 HCLK of the last one of the same origin, or back at its origin, that disagrees is a mismatch and GCN is not corrected; REPLY joins a hub that asked for the time. -/
def Obligations.sync_frames_carry_the_time_to_a_hub : Prop :=
  (∀ (s : State) (tendril : TendrilId) (gcn : BitVec 64) (epoch : Word) (origin : Fin 2048),
    s.hub.calm = true → (s.hub.tend tendril).st = Ts.UP → (s.hub.timeOk && epoch.toNat == s.hub.epoch) = false →
    Answers (.syncEstablishRx tendril gcn epoch origin) s fun h =>
      h.time.gcn = syncValue gcn.toNat ∧ h.epoch = epoch.toNat ∧ h.rd F.TIME_STATE_STATE = (if s.hub.time.armedAt.isSome then 2 else 1) ∧
      (∀ u ∈ s.hub.upTendrils, u ≠ (tendril : Nat) → frame Ft.SYNC SyncKind.ESTABLISH 0 (le 8 (syncValue gcn.toNat) ++ le 4 epoch.toNat ++ le 2 (origin : Nat)) ∈ (h.tend u).txQ) ∧
      h.shows Ev.TIME_ESTABLISHED 0 = true ∧
      s.hub.rest h = { s.hub with time := h.time, power := h.power, tiles := h.tiles, auth := h.auth, fed := h.fed } ∧
      s.hub.keeps h [R.TIME_EPOCH, R.TIME_STATE, R.TIME_ORIGIN_W, R.TIME_ORIGIN_E]) ∧
  (∀ (s : State) (tendril : TendrilId) (gcn : BitVec 64) (epoch : Word) (origin : Fin 2048),
    s.hub.calm = true → (s.hub.tend tendril).st = Ts.UP → s.hub.timeOk = true → epoch.toNat = s.hub.epoch → s.hub.syncDiff gcn.toNat ≠ 0 →
    Answers (.syncEstablishRx tendril gcn epoch origin) s fun h =>
      h.time.gcn = s.hub.time.gcn ∧ h.hasErr Er.TIME_SYNC_MISMATCH = true ∧ h.rd F.TIME_STATE_PKG_OK = 0 ∧
      h.rd F.TIME_SYNC_ERR_TENDRIL = tendril ∧ h.shows Ev.TIME_MISMATCH tendril = true ∧ s.hub.rest h = { s.hub with fed := h.fed } ∧
      s.hub.keeps h [R.TIME_STATE, F.TIME_SYNC_ERR_TENDRIL.addr, R.PG_ERROR + Pg.TIME * 0x1000, R.PG_ERROR_INFO + Pg.TIME * 0x1000]) ∧
  (∀ (s : State) (tendril : TendrilId) (gcn : BitVec 64) (epoch : Word),
    s.hub.calm = true → (s.hub.tend tendril).st = Ts.UP → s.hub.fed.joining = false → s.hub.timeOk = true →
    s.hub.flag F.TIME_CTRL_SYNC_CHECK_EN = true → (s.hub.syncDiff gcn.toNat == 0 && epoch.toNat == s.hub.epoch) = false →
    Answers (.syncCheckRx tendril gcn epoch) s fun h =>
      h.time.gcn = s.hub.time.gcn ∧ h.hasErr Er.TIME_SYNC_MISMATCH = true ∧ h.rd F.TIME_STATE_PKG_OK = 0 ∧
      h.shows Ev.TIME_MISMATCH tendril = true ∧ s.hub.rest h = { s.hub with fed := h.fed } ∧
      s.hub.keeps h [R.TIME_STATE, F.TIME_SYNC_ERR_TENDRIL.addr, R.PG_ERROR + Pg.TIME * 0x1000, R.PG_ERROR_INFO + Pg.TIME * 0x1000]) ∧
  (∀ (s : State) (tendril : TendrilId) (gcn : BitVec 64) (epoch : Word),
    s.hub.calm = true → (s.hub.tend tendril).st = Ts.UP → s.hub.fed.joining = false → s.hub.syncDiff gcn.toNat = 0 →
    epoch.toNat = s.hub.epoch →
    Answers (.syncCheckRx tendril gcn epoch) s fun h =>
      s.hub.rest h = { s.hub with fed := h.fed } ∧ s.hub.keeps h [] ∧ h.time.gcn = s.hub.time.gcn) ∧
  (∀ (s : State) (tendril : TendrilId) (gcn : BitVec 64) (epoch : Word) (origin : Fin 2048),
    s.hub.calm = true → (s.hub.tend tendril).st = Ts.UP →
    (s.hub.timeOk && s.hub.syncDiff gcn.toNat == 0 && epoch.toNat == s.hub.epoch) = false →
    (match s.hub.time.resyncAt with | some (a, f) => decide (a + 1024 ≤ s.hub.time.hclk) || f != (origin : Nat) | none => true) = true →
    (origin : Nat) ≠ s.hub.hubAddr →
    Answers (.syncResyncRx tendril gcn epoch origin) s fun h =>
      h.time.gcn = syncValue gcn.toNat ∧ h.epoch = epoch.toNat ∧ h.time.resyncAt = some (s.hub.time.hclk, (origin : Nat)) ∧
      (∀ u ∈ s.hub.upTendrils, u ≠ (tendril : Nat) → frame Ft.SYNC SyncKind.RESYNC 0 (le 8 (syncValue gcn.toNat) ++ le 4 epoch.toNat ++ le 2 (origin : Nat)) ∈ (h.tend u).txQ) ∧
      h.shows Ev.TIME_STEPPED tendril = true ∧ s.hub.rest h = { s.hub with time := h.time, power := h.power, fed := h.fed } ∧
      s.hub.keeps h [R.TIME_EPOCH, R.TIME_STATE, R.TIME_ORIGIN_W, R.TIME_ORIGIN_E, F.TIME_SYNC_ERR_TENDRIL.addr]) ∧
  (∀ (s : State) (tendril : TendrilId) (gcn : BitVec 64) (epoch : Word) (origin : Fin 2048),
    s.hub.calm = true → (s.hub.tend tendril).st = Ts.UP → s.hub.timeOk = true →
    (s.hub.syncDiff gcn.toNat == 0 && epoch.toNat == s.hub.epoch) = false →
    (!(match s.hub.time.resyncAt with | some (a, f) => decide (a + 1024 ≤ s.hub.time.hclk) || f != (origin : Nat) | none => true) || (origin : Nat) == s.hub.hubAddr) = true →
    Answers (.syncResyncRx tendril gcn epoch origin) s fun h =>
      h.time.gcn = s.hub.time.gcn ∧ h.hasErr Er.TIME_SYNC_MISMATCH = true ∧ h.rd F.TIME_STATE_PKG_OK = 0 ∧
      h.shows Ev.TIME_MISMATCH tendril = true ∧ s.hub.rest h = { s.hub with fed := h.fed } ∧
      s.hub.keeps h [R.TIME_STATE, F.TIME_SYNC_ERR_TENDRIL.addr, R.PG_ERROR + Pg.TIME * 0x1000, R.PG_ERROR_INFO + Pg.TIME * 0x1000]) ∧
  (∀ (s : State) (tendril : TendrilId) (gcn : BitVec 64) (epoch : Word),
    s.hub.calm = true → (s.hub.tend tendril).st = Ts.UP → s.hub.fed.joining = true →
    Answers (.syncReplyRx tendril gcn epoch) s fun h =>
      h.time.gcn = syncValue gcn.toNat ∧ h.epoch = epoch.toNat ∧ h.fed.joining = false ∧ h.rd F.FED_SELF_JOINED = 1 ∧
      h.shows Ev.TIME_JOINED tendril = true ∧
      s.hub.rest h = { s.hub with time := h.time, power := h.power, tiles := h.tiles, auth := h.auth, fed := h.fed, coops := (s.hub.rest h).coops } ∧
      s.hub.keeps h [R.TIME_EPOCH, R.TIME_STATE, R.TIME_ORIGIN_W, R.TIME_ORIGIN_E, R.FED_SELF]) ∧
  (∀ (s : State) (hd : Hdr2),
    s.hub.calm = true → s.hub.takesFrame hd Op.TIME_REQ = true → s.hub.isSafe = false → s.hub.timeOk = true →
    Answers (.timeReqRx hd) s fun h =>
      frame Ft.SYNC SyncKind.REPLY 0 (le 8 s.hub.time.gcn ++ le 4 s.hub.epoch ++ le 2 s.hub.hubAddr) ∈ (h.tend hd.tendril).txQ ∧
      s.hub.rest h = { s.hub with fed := h.fed } ∧ s.hub.keeps h [])

/-- A TRAIN echo with a legal round trip brings a tendril UP with half of the trip less 24 as its delay; an ACK releases the frames up to its SEQ; 64 HCLK after an acceptance an ACK goes out; 256 HCLK without an ACK everything from the oldest unacknowledged frame is resent and a resend counted; a FAILED tendril trains again after its wait; a bad frame is counted, and the eighth in a row fails the tendril with TENDRIL_DOWN. A trip outside 30 to 46 fails the training; a TRAIN without ECHO at a tendril in training is due its echo 24 HCLK later. -/
def Obligations.tendrils_train_acknowledge_and_resend : Prop :=
  (∀ (s : State) (tendril : TendrilId) (senderCount : Word) (echoedCount : Word) (trip : Nat),
    s.hub.calm = true → s.hub.time.powered = true → (s.hub.tend tendril).st ≠ Ts.UP →
    (s.hub.time.hclk + 2 ^ 32 - echoedCount.toNat) % 2 ^ 32 = trip → trip % 2 = 0 → 30 ≤ trip → trip ≤ 46 →
    Answers (.trainRx tendril true senderCount echoedCount) s fun h =>
      (h.tend tendril).st = Ts.UP ∧ (h.tend tendril).delay = (trip - 24) / 2 ∧ h.shows Ev.TENDRIL_UP 0 = true ∧
      s.hub.rest h = { s.hub with fed := h.fed } ∧ s.hub.keeps h [F.FED_CMD_STATUS_DONE.addr]) ∧
  (∀ (s : State) (tendril : TendrilId) (senderCount : Word) (echoedCount : Word) (trip : Nat),
    s.hub.calm = true → s.hub.time.powered = true → (s.hub.tend tendril).st ≠ Ts.UP →
    (s.hub.time.hclk + 2 ^ 32 - echoedCount.toNat) % 2 ^ 32 = trip → (trip < 30 ∨ 46 < trip) →
    Answers (.trainRx tendril true senderCount echoedCount) s fun h =>
      (h.tend tendril).st = Ts.FAILED ∧ (h.tend tendril).failedAt = s.hub.time.hclk ∧ h.hasErr Er.FED_TRAIN = true ∧
      (∀ u, u ≠ (tendril : Nat) → h.tend u = s.hub.tend u) ∧ s.hub.rest h = { s.hub with fed := h.fed } ∧
      s.hub.keeps h [F.FED_CMD_STATUS_DONE.addr, R.PG_ERROR + Pg.FED * 0x1000, R.PG_ERROR_INFO + Pg.FED * 0x1000]) ∧
  (∀ (s : State) (tendril : TendrilId) (senderCount : Word) (echoedCount : Word),
    s.hub.calm = true → s.hub.time.powered = true → (s.hub.tend tendril).st = Ts.TRAINING →
    Answers (.trainRx tendril false senderCount echoedCount) s fun h =>
      h.tend tendril = { s.hub.tend tendril with badRun := 0, echo := some (s.hub.time.hclk + 24, senderCount.toNat) } ∧
      (∀ u, u ≠ (tendril : Nat) → h.tend u = s.hub.tend u) ∧ s.hub.rest h = { s.hub with fed := h.fed } ∧ s.hub.keeps h []) ∧
  (∀ (s : State) (tendril : TendrilId) (seq : BitVec 8) (n : Nat),
    s.hub.calm = true → (s.hub.tend tendril).st = Ts.UP → (s.hub.tend tendril).unacked ≠ [] →
    (seq.toNat + 256 - leAt ((s.hub.tend tendril).unacked.headD []) 1 1) % 256 + 1 = n → n ≤ (s.hub.tend tendril).unacked.length →
    (s.hub.tend tendril).waitQ = [] →
    Answers (.ackRx tendril seq) s fun h =>
      (h.tend tendril).unacked = (s.hub.tend tendril).unacked.drop n ∧ (h.tend tendril).resendRun = 0 ∧
      (∀ u, u ≠ (tendril : Nat) → h.tend u = s.hub.tend u) ∧ s.hub.rest h = { s.hub with fed := h.fed } ∧ s.hub.keeps h []) ∧
  (∀ (s : State) (t : Nat),
    s.hub.calm = true → t < 4 → (s.hub.tend t).st = Ts.UP → (s.hub.tend t).rxUnacked ≠ 0 → s.hub.elapsed (s.hub.tend t).rxAt 64 = true →
    Answers .tendrilAckTimer s fun h =>
      (h.tend t).rxUnacked = 0 ∧ frame Ft.ACK (((s.hub.tend t).rxExpect + 255) % 256) 0 [] ∈ (h.tend t).txQ ∧
      s.hub.rest h = { s.hub with fed := h.fed } ∧ s.hub.keeps h []) ∧
  (∀ (s : State) (t : Nat),
    s.hub.calm = true → t < 4 → (s.hub.tend t).st = Ts.UP → (s.hub.tend t).unacked ≠ [] → s.hub.elapsed (s.hub.tend t).ackAt 256 = true →
    (s.hub.tend t).resendRun < 15 →
    Answers .tendrilResendTimeout s fun h =>
      (h.tend t).st = Ts.UP ∧ (h.tend t).resendRun = (s.hub.tend t).resendRun + 1 ∧
      (h.tend t).resends = sat 16 ((s.hub.tend t).resends + 1) ∧ (h.tend t).ackAt = s.hub.time.hclk ∧
      (h.tend t).unacked = (s.hub.tend t).unacked ∧ (∀ f ∈ (s.hub.tend t).unacked, f ∈ (h.tend t).txQ) ∧
      s.hub.rest h = { s.hub with fed := h.fed } ∧ s.hub.keeps h []) ∧
  (∀ (s : State) (t : Nat),
    s.hub.calm = true → t < 4 → s.hub.flag F.FED_CTRL_AUTO_RETRAIN = true → (s.hub.tend t).st = Ts.FAILED →
    s.hub.elapsed (s.hub.tend t).failedAt Config.millisecond = true →
    Answers .tendrilRetrainTimer s fun h =>
      (h.tend t).st = Ts.TRAINING ∧ s.hub.rest h = { s.hub with fed := h.fed } ∧ s.hub.keeps h []) ∧
  (∀ (s : State) (tendril : TendrilId),
    s.hub.calm = true → ((s.hub.tend tendril).badRun < 7 ∨ (s.hub.tend tendril).st ≠ Ts.UP) →
    Answers (.frameCrcError tendril) s fun h =>
      (h.tend tendril).crcErrs = sat 16 ((s.hub.tend tendril).crcErrs + 1) ∧ (h.tend tendril).st = (s.hub.tend tendril).st ∧
      h.hasErr Er.FED_FRAME_CRC = true ∧ (∀ u, u ≠ (tendril : Nat) → h.tend u = s.hub.tend u) ∧ s.hub.rest h = { s.hub with fed := h.fed } ∧
      s.hub.keeps h [R.PG_ERROR + Pg.FED * 0x1000, R.PG_ERROR_INFO + Pg.FED * 0x1000]) ∧
  (∀ (s : State) (tendril : TendrilId),
    s.hub.calm = true → 7 ≤ (s.hub.tend tendril).badRun → (s.hub.tend tendril).st = Ts.UP →
    Answers (.frameCrcError tendril) s fun h =>
      (h.tend tendril).st = Ts.FAILED ∧ h.shows Ev.TENDRIL_DOWN tendril = true ∧ h.hasErr Er.FED_FRAME_CRC = true ∧
      s.hub.rest h = { s.hub with fed := h.fed, rack := h.rack } ∧ s.hub.keepsOff h [Pg.FED, Pg.RACK])

/-- An accepted RETRAIN trains the selected tendril again, one that is DOWN only by sending a TRAIN, REANNOUNCE begins the next round of announcements at this edge and changes no route, CLEAR_STATS clears the counts of every tendril; FED_DOMAIN takes at most 1,024 hubs; FED_JOB is taken for a slot that does not run and ignored otherwise. -/
def Obligations.fed_page_commands_act_on_tendrils_and_settings : Prop :=
  (∀ (s : State) (r : Req) (t : Nat),
    s.hub.calm = true → s.hub.takesWrite r R.FED_CMD 1 = true → s.hub.fedCheck 1 = St.OK → s.hub.rd F.FED_LINK_SEL_TENDRIL = t →
    (s.hub.tend t).st ≠ Ts.DOWN →
    Answers (.fedRetrain r) s fun h =>
      h.tookWrite r ∧ (h.tend t).st = Ts.TRAINING ∧ (∀ u, u ≠ t → h.tend u = s.hub.tend u) ∧ h.rd F.FED_CMD_STATUS_STATUS = St.OK ∧
      h.rd F.FED_CMD_STATUS_DONE = 0 ∧ s.hub.rest h = { s.hub with fed := h.fed } ∧ s.hub.keeps h [R.FED_CMD_STATUS]) ∧
  (∀ (s : State) (r : Req) (t : Nat),
    s.hub.calm = true → s.hub.takesWrite r R.FED_CMD 1 = true → s.hub.fedCheck 1 = St.OK → s.hub.rd F.FED_LINK_SEL_TENDRIL = t → t < 4 →
    (s.hub.tend t).st = Ts.DOWN →
    Answers (.fedRetrain r) s fun h =>
      h.tookWrite r ∧ frame Ft.TRAIN 0 0 (le 4 s.hub.time.hclk ++ le 4 0) ∈ (h.tend t).txQ ∧ (h.tend t).st = Ts.DOWN ∧
      (∀ u, u ≠ t → h.tend u = s.hub.tend u) ∧ h.rd F.FED_CMD_STATUS_STATUS = St.OK ∧ s.hub.rest h = { s.hub with fed := h.fed } ∧
      s.hub.keeps h [R.FED_CMD_STATUS]) ∧
  (∀ (s : State) (r : Req),
    s.hub.calm = true → s.hub.takesWrite r R.FED_CMD 2 = true → s.hub.fedCheck 2 = St.OK →
    Answers (.reannounce r) s fun h =>
      h.tookWrite r ∧ h.fed.round = (s.hub.fed.round + 1) % 2 ^ 32 ∧ h.fed.lastAnn = s.hub.time.hclk ∧
      h.rd F.FED_CMD_STATUS_STATUS = St.OK ∧ h.fed.routes = s.hub.fed.routes ∧ s.hub.rest h = { s.hub with fed := h.fed } ∧
      s.hub.keeps h [R.FED_CMD_STATUS]) ∧
  (∀ (s : State) (r : Req) (t : Nat),
    s.hub.calm = true → s.hub.takesWrite r R.FED_CMD 3 = true → s.hub.fedCheck 3 = St.OK → t < 4 →
    Answers (.fedClearStats r) s fun h =>
      h.tookWrite r ∧ h.tend t = { s.hub.tend t with crcErrs := 0, resends := 0 } ∧ h.rd F.FED_CMD_STATUS_STATUS = St.OK ∧
      s.hub.rest h = { s.hub with fed := h.fed } ∧ s.hub.keeps h [R.FED_CMD_STATUS]) ∧
  (∀ (s : State) (r : Req) (v : Word),
    s.hub.calm = true → s.hub.takesWrite r R.FED_DOMAIN v.toNat = true → bitsOf v.toNat 16 11 ≤ 1024 →
    Answers (.fedDomainWrite r v) s fun h =>
      h.tookWrite r ∧ h.reg R.FED_DOMAIN = v.toNat % 2 ^ 27 ∧ s.hub.rest h = { s.hub with fed := h.fed } ∧
      s.hub.keeps h [R.FED_DOMAIN, R.PG_ERROR + Pg.FED * 0x1000, R.PG_ERROR_INFO + Pg.FED * 0x1000]) ∧
  (∀ (s : State) (r : Req) (v : Word),
    s.hub.calm = true → s.hub.takesWrite r R.FED_DOMAIN v.toNat = true → 1024 < bitsOf v.toNat 16 11 →
    Answers (.fedDomainWrite r v) s fun h =>
      h.tookWrite r ∧ h.reg R.FED_DOMAIN = s.hub.reg R.FED_DOMAIN ∧ h.hasErr Er.FED_DOMAIN = true ∧ s.hub.rest h = s.hub ∧
      s.hub.keeps h [R.PG_ERROR + Pg.FED * 0x1000, R.PG_ERROR_INFO + Pg.FED * 0x1000]) ∧
  (∀ (s : State) (r : Req) (v : Word) (z : Nat),
    s.hub.calm = true → s.hub.takesWrite r R.FED_JOB v.toNat = true → s.hub.rd F.FED_JOB_SEL_SLOT = z → (s.hub.dom z).st ≠ .running →
    (s.hub.dom z).st ≠ .stopping →
    Answers (.fedJobWrite r v) s fun h =>
      h.tookWrite r ∧ h.regB R.FED_JOB z = v.toNat % 2 ^ 17 ∧ h.dom z = { s.hub.dom z with fedMask := 0, memberMasks := [] } ∧
      (∀ y, y ≠ z → h.dom y = s.hub.dom y) ∧ s.hub.rest h = { s.hub with doms := h.doms } ∧ s.hub.keeps h [regKey R.FED_JOB z]) ∧
  (∀ (s : State) (r : Req) (v : Word) (z : Nat),
    s.hub.calm = true → s.hub.takesWrite r R.FED_JOB v.toNat = true → s.hub.rd F.FED_JOB_SEL_SLOT = z →
    ((s.hub.dom z).st = .running ∨ (s.hub.dom z).st = .stopping) →
    Answers (.fedJobWrite r v) s fun h =>
      h.tookWrite r ∧ h.regB R.FED_JOB z = s.hub.regB R.FED_JOB z ∧ s.hub.rest h = s.hub ∧ s.hub.keeps h [R.PG_ERROR_INFO + Pg.FED * 0x1000])

/-- An ANNOUNCE of another hub of the package that is new or nearer records the route to it; an announce period invalidates an entry that two rounds did not refresh; a register command of another hub runs with requester TENDRIL; a RESP ends the pending request it answers; a request without an answer ends with REMOTE_TIMEOUT. Each check period the anchor reads its own reference at Gq for each federated slot; a JOB_CHECK is answered with the reference of the domain of the tag at Gq, or TOO_SOON when Gq has passed; an answer that agrees with the anchor ends the request and reports nothing. -/
def Obligations.routes_requests_and_answers_between_hubs : Prop :=
  (∀ (s : State) (hd : Hdr2) (hops : BitVec 8) (flags : BitVec 4) (round : Word),
    s.hub.calm = true → (s.hub.accept2 hd.tendril hd.seq).1 = true → hd.src ≠ s.hub.hubAddr → packageOf hd.src = packageOf s.hub.hubAddr →
    hops.toNat ≠ 0 → hops.toNat ≠ 255 → bitAt flags.toNat 3 = false →
    (s.hub.fed.routes.get (fieldOf hd.src) {}).takes round.toNat (hops.toNat + 1) = true →
    Answers (.announceRx hd hops flags round) s fun h =>
      (h.fed.routes.get (fieldOf hd.src) {}).tendril = hd.tendril ∧ (h.fed.routes.get (fieldOf hd.src) {}).hops = hops.toNat + 1 ∧
      (h.fed.routes.get (fieldOf hd.src) {}).valid = true ∧ (∀ f, f ≠ fieldOf hd.src → h.fed.routes.get f {} = s.hub.fed.routes.get f {}) ∧
      h.fed.leads = (if bitAt flags.toNat 0 then insertNat hd.src s.hub.fed.leads else removeNat hd.src s.hub.fed.leads) ∧
      s.hub.rest h = { s.hub with fed := h.fed } ∧
      s.hub.keeps h [R.FED_SELF, R.PG_ERROR + Pg.FED * 0x1000, R.PG_ERROR_INFO + Pg.FED * 0x1000]) ∧
  (∀ (s : State) (f : Nat),
    s.hub.calm = true → s.hub.time.powered = true → s.hub.elapsed s.hub.fed.lastAnn (2 ^ 24) = true → f ∈ s.hub.fed.routes.keys →
    2 ≤ (s.hub.fed.routes.get f {}).age →
    Answers .announcePeriod s fun h =>
      (h.fed.routes.get f {}).valid = false ∧ h.fed.lastAnn = s.hub.time.hclk ∧ h.fed.round = (s.hub.fed.round + 1) % 2 ^ 32 ∧
      s.hub.rest h = { s.hub with fed := h.fed } ∧ s.hub.keeps h []) ∧
  (∀ (s : State) (hd : Hdr2) (addr : Word),
    s.hub.calm = true → s.hub.takesFrame hd Op.REG_READ = true → s.hub.accessStatus .tendril addr.toNat false 0 = St.OK →
    (regDef (normAddr addr.toNat)).isSome = true → inWindow (normAddr addr.toNat) = false → isHi (normAddr addr.toNat) = false →
    [R.TASTE_EVID_DATA, R.COOP_PROG_DATA, R.COOP_DATA_DATA, R.AUTH_DATA, R.TIME_GCN_LO].contains (baseAddr (normAddr addr.toNat)) = false →
    isLo (normAddr addr.toNat) = false → pageOf (normAddr addr.toNat) = Pg.GLB →
    Answers (.tendrilRegRead hd addr) s fun h =>
      h.bus.get (reqCode .tendril) {} = { value := s.hub.value .tendril (normAddr addr.toNat) % 2 ^ 32, status := St.OK } ∧
      s.hub.rest h = { s.hub with fed := h.fed } ∧ s.hub.keeps h [R.PG_ERROR + Pg.FED * 0x1000, R.PG_ERROR_INFO + Pg.FED * 0x1000]) ∧
  (∀ (s : State) (hd : Hdr2) (v : Word),
    s.hub.calm = true → s.hub.takesFrame hd Op.REG_WRITE = true → s.hub.takesWrite .tendril R.GLB_CTX_RECT v.toNat = true →
    s.hub.flag F.GLB_CMD_STATUS_DONE = true →
    Answers (.tendrilRegWrite hd R.GLB_CTX_RECT v) s fun h =>
      h.tookWrite .tendril ∧ h.rd F.GLB_CTX_RECT_RECT = v.toNat % 2 ^ 31 ∧ s.hub.rest h = { s.hub with fed := h.fed } ∧
      s.hub.keeps h [R.GLB_CTX_RECT, R.PG_ERROR + Pg.FED * 0x1000, R.PG_ERROR_INFO + Pg.FED * 0x1000]) ∧
  (∀ (s : State) (hd : Hdr2) (opcode : BitVec 8) (status : BitVec 8) (data : BitVec 64) (q : RemoteReq) (tag : Nat) (t2 : Nat),
    s.hub.calm = true → s.hub.takesFrame hd (256 + opcode.toNat) = true →
    s.hub.fed.reqs.find? (fun x => x.txn == hd.txn.val && x.opcode == opcode.toNat && x.dest == hd.src.val) = some q →
    q.who = .port tag t2 false →
    Answers (.respRx hd opcode status data) s fun h =>
      q ∉ h.fed.reqs ∧ (∀ x ∈ s.hub.fed.reqs, x ≠ q → x ∈ h.fed.reqs) ∧
      s.hub.rest h = { s.hub with fed := h.fed, link := (s.hub.rest h).link } ∧ s.hub.keepsOff h [Pg.FED, Pg.LINK]) ∧
  (∀ (s : State) (q : RemoteReq) (tag : Nat) (t2 : Nat),
    s.hub.calm = true → s.hub.fed.reqs = [q] → q.who = .port tag t2 false → s.hub.elapsed q.sentAt (s.hub.rd F.FED_CMD_TIMEOUT_HCLK) = true →
    Answers .remoteTimeout s fun h =>
      h.fed.reqs = [] ∧ h.rd F.FED_LAST_VALID = 1 ∧ h.rd F.FED_LAST_HUB = q.dest % 2 ^ 11 ∧ h.shows Ev.REMOTE_TIMEOUT q.dest = true ∧
      s.hub.rest h = { s.hub with fed := h.fed, link := (s.hub.rest h).link } ∧ s.hub.keepsOff h [Pg.FED, Pg.LINK]) ∧
  (∀ (s : State) (q : RemoteReq),
    s.hub.calm = true → q ∈ s.hub.fed.reqs → s.hub.elapsed q.sentAt (s.hub.rd F.FED_CMD_TIMEOUT_HCLK) = true →
    Answers .remoteTimeout s fun h =>
      h.rd F.FED_LAST_VALID = 1 ∧ h.shows Ev.REMOTE_TIMEOUT 0 = true) ∧
  (∀ (s : State),
    s.hub.calm = true → s.hub.flag F.FED_CTRL_JOB_CHECK_EN = true → s.hub.elapsed s.hub.fed.jobCheckAt s.hub.jobCheckTime = true →
    Answers .jobCheckPeriod s fun h =>
      h.fed.jobCheckAt = s.hub.time.hclk ∧
      (∀ z ∈ s.hub.openSlots, s.hub.rdB F.FED_JOB_FEDERATED z = 1 → s.hub.rdB F.FED_JOB_ANCHOR z = s.hub.hubAddr → (z, s.hub.now + 32 + 28 * s.hub.rdB F.FED_JOB_HOPS z, s.hub.scnAt z (s.hub.now + 32 + 28 * s.hub.rdB F.FED_JOB_HOPS z)) ∈ h.fed.jobChecks) ∧
      s.hub.rest h = { s.hub with fed := h.fed } ∧ s.hub.keeps h [R.PG_ERROR + Pg.FED * 0x1000, R.PG_ERROR_INFO + Pg.FED * 0x1000]) ∧
  (∀ (s : State) (hd : Hdr2) (tag : BitVec 16) (gq : BitVec 64) (u : Nat) (z : Nat),
    s.hub.calm = true → s.hub.takesFrame hd Op.JOB_CHECK = true → s.hub.canAnswer hd u = true → s.hub.isSafe = false →
    s.hub.flag F.FED_CTRL_EN = true → s.hub.openSlots.find? (fun y => (s.hub.dom y).tag == tag.toNat) = some z → gq.toNat < s.hub.now →
    Answers (.jobCheckRx hd tag gq) s fun h =>
      s.hub.respFrame hd u Op.JOB_CHECK St.TOO_SOON [] ∈ (h.tend u).txQ ∧ s.hub.rest h = { s.hub with fed := h.fed } ∧ s.hub.keeps h []) ∧
  (∀ (s : State) (hd : Hdr2) (tag : BitVec 16) (gq : BitVec 64) (u : Nat) (z : Nat),
    s.hub.calm = true → s.hub.takesFrame hd Op.JOB_CHECK = true → s.hub.canAnswer hd u = true → s.hub.isSafe = false →
    s.hub.flag F.FED_CTRL_EN = true → s.hub.openSlots.find? (fun y => (s.hub.dom y).tag == tag.toNat) = some z → s.hub.now ≤ gq.toNat →
    Answers (.jobCheckRx hd tag gq) s fun h =>
      s.hub.respFrame hd u Op.JOB_CHECK St.OK (le 8 (s.hub.scnAt z gq.toNat)) ∈ (h.tend u).txQ ∧
      s.hub.rest h = { s.hub with fed := h.fed } ∧ s.hub.keeps h []) ∧
  (∀ (s : State) (hd : Hdr2) (status : BitVec 8) (scn : BitVec 64) (q : RemoteReq) (gq : Nat),
    s.hub.calm = true → s.hub.takesFrame hd (256 + Op.JOB_CHECK) = true →
    s.hub.fed.reqs.find? (fun x => x.txn == hd.txn.val && x.opcode == Op.JOB_CHECK && x.dest == hd.src.val) = some q → q.who = .unit →
    q.opcode = Op.JOB_CHECK → s.hub.fed.jobChecks.find? (fun c => c.1 == q.arg) = some (q.arg, gq, scn.toNat) →
    Answers (.jobCheckRespRx hd status scn) s fun h =>
      q ∉ h.fed.reqs ∧ h.hangCtl = s.hub.hangCtl ∧ s.hub.rest h = { s.hub with fed := h.fed } ∧ s.hub.keeps h [])

/-- A cork command that passes every row of R79 starts: STOP makes each live domain STOPPING with its target, STEP and RESUME set the start GCN at the lead of R65, ABORT sets the domains of a pending stop RUNNING again and raises CORK_ABORTED; CORK_STATUS shows the command. A STOP of a scope already stopped is done at once with ALREADY and CORK_DONE. -/
def Obligations.cork_commands_stop_step_resume_and_abort_domains : Prop :=
  (∀ (s : State) (r : Req) (a : CorkArgs) (z : Nat),
    s.hub.calm = true → s.hub.takesWrite r R.CORK_CMD 1 = true → s.hub.corkRegArgs = a → (a.xpkg && r == .jtag) = false →
    s.hub.corkCheck (isExternal r) 1 a = St.OK → s.hub.alreadyStopped a = false → z ∈ s.hub.liveSlots 1 a →
    Answers (.corkStop r) s fun h =>
      h.tookWrite r ∧ (h.dom z).st = .stopping ∧ (h.dom z).stopScn = s.hub.stopTarget a z ∧ (h.dom z).scn = (s.hub.dom z).scn ∧
      h.corkShown = some s.hub.nextOp ∧ (∃ c ∈ h.corks, c.id = s.hub.nextOp ∧ c.op = 1 ∧ z ∈ c.live) ∧
      (∀ t ∈ s.hub.slotTiles z, (h.tile t).wave.isSome = true) ∧ h.rd F.CORK_STATUS_STATUS = St.OK ∧ h.rd F.CORK_STATUS_DONE = 0 ∧
      h.rd F.CORK_STATUS_OP = 1 ∧
      s.hub.rest h = { s.hub with doms := h.doms, tiles := h.tiles, corks := h.corks, nextOp := h.nextOp, corkShown := h.corkShown, fed := h.fed, link := (s.hub.rest h).link } ∧
      s.hub.keeps h [R.CORK_STATUS, R.CORK_LEAD]) ∧
  (∀ (s : State) (r : Req) (a : CorkArgs),
    s.hub.calm = true → s.hub.takesWrite r R.CORK_CMD 1 = true → s.hub.corkRegArgs = a → (a.xpkg && r == .jtag) = false →
    s.hub.corkCheck (isExternal r) 1 a = St.OK → s.hub.alreadyStopped a = true →
    Answers (.corkStop r) s fun h =>
      h.tookWrite r ∧ h.rd F.CORK_STATUS_STATUS = St.OK ∧ h.rd F.CORK_STATUS_DONE = 1 ∧ h.rd F.CORK_STATUS_ALREADY = 1 ∧
      h.corkShown = none ∧ h.shows Ev.CORK_DONE (minNat a.slot (s.hub.scopeSlots a)) = true ∧
      s.hub.rest h = { s.hub with corkShown := none } ∧
      s.hub.keeps h [R.CORK_STATUS, R.CORK_LEAD, R.CORK_RESULT_SCN_LO, R.CORK_RESULT_SCN_LO + 4, R.CORK_RESULT_GCN_LO, R.CORK_RESULT_GCN_LO + 4]) ∧
  (∀ (s : State) (r : Req) (a : CorkArgs) (z : Nat),
    s.hub.calm = true → s.hub.takesWrite r R.CORK_CMD 2 = true → s.hub.corkRegArgs = a → (a.xpkg && r == .jtag) = false →
    s.hub.corkCheck (isExternal r) 2 a = St.OK → z ∈ s.hub.liveSlots 2 a →
    Answers (.corkStep r) s fun h =>
      h.tookWrite r ∧ (h.dom z).startAt = some (s.hub.now + s.hub.lMin a) ∧ (h.dom z).stopScn = some ((s.hub.dom z).scn + a.count) ∧
      (h.dom z).stepping = true ∧ h.corkShown = some s.hub.nextOp ∧ h.rd F.CORK_STATUS_STATUS = St.OK ∧ h.rd F.CORK_STATUS_DONE = 0 ∧
      s.hub.rest h = { s.hub with doms := h.doms, tiles := h.tiles, corks := h.corks, nextOp := h.nextOp, corkShown := h.corkShown, fed := h.fed, link := (s.hub.rest h).link } ∧
      s.hub.keeps h [R.CORK_STATUS, R.CORK_LEAD, R.PG_ERROR + Pg.FED * 0x1000, R.PG_ERROR_INFO + Pg.FED * 0x1000]) ∧
  (∀ (s : State) (r : Req) (a : CorkArgs) (z : Nat),
    s.hub.calm = true → s.hub.takesWrite r R.CORK_CMD 3 = true → s.hub.corkRegArgs = a → (a.xpkg && r == .jtag) = false →
    s.hub.corkCheck (isExternal r) 3 a = St.OK → z ∈ s.hub.liveSlots 3 a →
    Answers (.corkResume r) s fun h =>
      h.tookWrite r ∧ (h.dom z).startAt = some (s.hub.now + s.hub.lMin a) ∧ (h.dom z).stopScn = none ∧ (h.dom z).stepping = false ∧
      h.corkShown = some s.hub.nextOp ∧ h.rd F.CORK_STATUS_STATUS = St.OK ∧ h.rd F.CORK_STATUS_DONE = 0 ∧
      s.hub.rest h = { s.hub with doms := h.doms, tiles := h.tiles, corks := h.corks, nextOp := h.nextOp, corkShown := h.corkShown, fed := h.fed, link := (s.hub.rest h).link } ∧
      s.hub.keeps h [R.CORK_STATUS, R.CORK_LEAD, R.PG_ERROR + Pg.FED * 0x1000, R.PG_ERROR_INFO + Pg.FED * 0x1000]) ∧
  (∀ (s : State) (r : Req) (a : CorkArgs) (c : CorkOp) (z : Nat),
    s.hub.calm = true → s.hub.takesWrite r R.CORK_CMD 4 = true → s.hub.corkRegArgs = a → (a.xpkg && r == .jtag) = false →
    s.hub.corkCheck (isExternal r) 4 a = St.OK → c ∈ s.hub.stopsOn a → z ∈ c.live → (∀ x ∈ s.hub.stopsOn a, x.src = .reg .mgmt) →
    Answers (.corkAbort r) s fun h =>
      h.tookWrite r ∧ (h.dom z).st = .running ∧ (h.dom z).stopScn = none ∧ (∀ x ∈ h.corks, x.id ≠ c.id) ∧ h.shows Ev.CORK_ABORTED 0 = true ∧
      h.rd F.CORK_STATUS_STATUS = St.OK ∧ h.rd F.CORK_STATUS_DONE = 1 ∧
      s.hub.rest h = { s.hub with doms := h.doms, tiles := h.tiles, corks := h.corks, corkShown := h.corkShown, fed := h.fed, link := (s.hub.rest h).link } ∧
      s.hub.keeps h [R.CORK_STATUS, R.CORK_LEAD])

/-- A wave reaches a spur 24 HCLK after it was sent and in no other period: with copy A good the spur is armed as the wave says; with A bad and copy B good it waits for copy B and its masked-fault report is on its way; with both bad it does not act. An armed spur gates its tile at its next edge and sends its SCN; a STOPPED report is taken 24 HCLK later; the last one of a STOP that agrees ends it with OK, a consistent domain at the target and CORK_DONE; a spur silent for CORK_REPORT_LIMIT ends it with TIMEOUT, a domain that is not consistent, CORK_SKEW_INFO and CORK_TIMEOUT naming the lowest silent tile (stated for a slot whose divergence policy does nothing more). At Gs a resumed domain runs from its SCN, the RESUME is complete and RESUMED is raised. -/
def Obligations.a_stop_completes_when_its_spurs_report : Prop :=
  (∀ (s : State) (tile : TileId) (goodB : Bool) (w : SpurWave),
    s.hub.calm = true → (s.hub.tile tile).wave = some w → s.hub.waveArrives w.sentAt = true → w.viaB = false →
    Answers (.corkWaveRx tile true goodB) s fun h =>
      h.tile tile = { s.hub.tile tile with wave := none, arm := (if w.stopNow then Arm.now else w.arm), start := w.start, stopNow := w.stopNow && ((s.hub.tile tile).stopNow || !(s.hub.tile tile).gated) } ∧
      (∀ u, u ≠ (tile : Nat) → h.tile u = s.hub.tile u) ∧ s.hub.rest h = { s.hub with tiles := h.tiles } ∧ s.hub.keeps h []) ∧
  (∀ (s : State) (tile : TileId) (w : SpurWave),
    s.hub.calm = true → (s.hub.tile tile).wave = some w → s.hub.waveArrives w.sentAt = true → w.viaB = false →
    Answers (.corkWaveRx tile false true) s fun h =>
      h.tile tile = { s.hub.tile tile with wave := some { w with viaB := true } } ∧
      h.waveCrc = s.hub.waveCrc ++ [(s.hub.time.hclk + 27, (tile : Nat))] ∧ (∀ u, u ≠ (tile : Nat) → h.tile u = s.hub.tile u) ∧
      s.hub.rest h = { s.hub with tiles := h.tiles, waveCrc := h.waveCrc } ∧ s.hub.keeps h []) ∧
  (∀ (s : State) (tile : TileId) (w : SpurWave),
    s.hub.calm = true → (s.hub.tile tile).wave = some w → s.hub.waveArrives w.sentAt = true → w.viaB = false →
    Answers (.corkWaveRx tile false false) s fun h =>
      (h.tile tile).wave = none ∧ (h.tile tile).arm = (s.hub.tile tile).arm ∧ (h.tile tile).start = (s.hub.tile tile).start ∧
      (∀ u, u ≠ (tile : Nat) → h.tile u = s.hub.tile u) ∧ s.hub.rest h = { s.hub with tiles := h.tiles } ∧ s.hub.keeps h []) ∧
  (∀ (s : State) (tile : TileId) (goodA : Bool) (goodB : Bool) (w : SpurWave),
    s.hub.calm = true → (s.hub.tile tile).wave = some w → (!s.hub.waveArrives w.sentAt || w.viaB) = true →
    Answers (.corkWaveRx tile goodA goodB) s fun h =>
      s.hub.rest h = s.hub ∧ s.hub.keeps h []) ∧
  (∀ (s : State) (tile : TileId),
    s.hub.calm = true → s.hub.gateDue tile = true →
    Answers (.tileStopped tile) s fun h =>
      (h.tile tile).gated = true ∧ (h.tile tile).gateGcn = s.hub.now ∧
      (h.tile tile).report = (if (s.hub.tile tile).st = .inContext then some (s.hub.tile tile).scn else none) ∧
      (h.tile tile).reportAt = s.hub.time.hclk ∧ (h.tile tile).scn = (s.hub.tile tile).scn ∧
      (∀ u, u ≠ (tile : Nat) → h.tile u = s.hub.tile u) ∧ s.hub.rest h = { s.hub with tiles := h.tiles } ∧ s.hub.keeps h []) ∧
  (∀ (s : State) (tile : TileId) (v : Nat),
    s.hub.calm = true → (s.hub.tile tile).report = some v → s.hub.waveArrives (s.hub.tile tile).reportAt = true → s.hub.corks = [] →
    Answers (.stoppedReportRx tile) s fun h =>
      (h.tile tile).report = none ∧ (h.tile tile).reported = true ∧ (∀ u, u ≠ (tile : Nat) → h.tile u = s.hub.tile u) ∧
      s.hub.rest h = { s.hub with tiles := h.tiles } ∧ s.hub.keeps h []) ∧
  (∀ (s : State) (tile : TileId) (c : CorkOp) (q : Req) (v : Nat),
    s.hub.calm = true → s.hub.corks = [c] → c.src = .reg q → c.members = [] → c.packages = [] → c.op = 1 → c.localDone = false →
    c.disagree = none → c.silent = none → c.fedFinal = St.OK → c.unmatched = false → c.live = [(s.hub.tile tile).slot] →
    (s.hub.tile tile).report = some v → s.hub.waveArrives (s.hub.tile tile).reportAt = true →
    (s.hub.dom (s.hub.tile tile).slot).stopScn = some v → (s.hub.dom (s.hub.tile tile).slot).skewed = false →
    (s.hub.dom (s.hub.tile tile).slot).stopNow = false →
    (s.hub.slotTiles (s.hub.tile tile).slot).all (fun u => u == (tile : Nat) || (s.hub.tile u).reported) = true →
    Answers (.stoppedReportRx tile) s fun h =>
      (h.dom (s.hub.tile tile).slot).st = .stopped ∧ (h.dom (s.hub.tile tile).slot).scn = v ∧
      (h.dom (s.hub.tile tile).slot).consistent = true ∧ (h.dom (s.hub.tile tile).slot).final = St.OK ∧ h.corks = [] ∧
      h.shows Ev.CORK_DONE c.firstSlot = true ∧
      (s.hub.corkShown = some c.id → h.rd F.CORK_STATUS_DONE = 1 ∧ h.rd F.CORK_STATUS_FINAL = St.OK) ∧
      s.hub.rest h = { s.hub with tiles := h.tiles, doms := h.doms, corks := h.corks, fed := h.fed } ∧
      s.hub.keeps h [R.CORK_STATUS, R.CORK_RESULT_SCN_LO, R.CORK_RESULT_SCN_LO + 4, R.CORK_RESULT_GCN_LO, R.CORK_RESULT_GCN_LO + 4, R.PG_ERROR + Pg.FED * 0x1000, R.PG_ERROR_INFO + Pg.FED * 0x1000]) ∧
  (∀ (s : State) (c : CorkOp) (q : Req) (z : Nat) (t : Nat),
    s.hub.calm = true → s.hub.corks = [c] → c.src = .reg q → c.members = [] → c.packages = [] → s.hub.reportDue c = true → c.live = [z] →
    c.disagree = none → (s.hub.silentTiles c).head? = some t → s.hub.rdB F.HANG_MON_CFG_DIV_POLICY z = 0 →
    Answers .corkReportTimeout s fun h =>
      (h.dom z).st = .stopped ∧ (h.dom z).consistent = false ∧ (h.dom z).final ≠ St.OK ∧ h.corks = [] ∧
      h.reg R.CORK_SKEW_INFO = (t + 0x4000) % 2 ^ 32 ∧ h.shows Ev.CORK_TIMEOUT t = true ∧
      (s.hub.corkShown = some c.id → h.rd F.CORK_STATUS_DONE = 1 ∧ h.rd F.CORK_STATUS_FINAL = St.TIMEOUT) ∧
      s.hub.rest h = { s.hub with tiles := h.tiles, doms := h.doms, corks := h.corks, hang := h.hang, hangCtl := h.hangCtl, fed := h.fed } ∧
      s.hub.keepsOff h [Pg.CORK, Pg.HANG, Pg.FED]) ∧
  (∀ (s : State) (c : CorkOp) (q : Req) (z : Nat),
    s.hub.calm = true → s.hub.corks = [c] → c.src = .reg q → c.members = [] → c.packages = [] → c.op = 3 → c.localDone = false →
    c.unmatched = false → c.started = false → reachedGcn c.start s.hub.now = true → z ∈ c.live → (s.hub.dom z).stepping = false →
    Answers .resumed s fun h =>
      (h.dom z).st = .running ∧ (h.dom z).startAt = none ∧ (h.dom z).scn = (s.hub.dom z).scn ∧ h.corks = [] ∧
      h.shows Ev.RESUMED c.firstSlot = true ∧ (s.hub.corkShown = some c.id → h.rd F.CORK_STATUS_DONE = 1) ∧
      s.hub.rest h = { s.hub with tiles := h.tiles, doms := h.doms, corks := h.corks } ∧
      s.hub.keeps h [R.CORK_STATUS, F.PWR_STATUS_ISSUE_CAP.addr, R.CORK_RESULT_SCN_LO, R.CORK_RESULT_SCN_LO + 4, R.CORK_RESULT_GCN_LO, R.CORK_RESULT_GCN_LO + 4])

/-- STALL_SET gives every domain of the scope a MANUAL source 32 periods ahead and STALL_CLEAR takes it away; a pattern takes force at its Ga; a MANUAL source ends when its edges are counted, and its share of the mask at once; a hold request of a spur with 128 words or more, of a lossless slot, holds its domain; the release of the last requester, at 32 words or fewer, ends the hold; and a hold longer than CORK_HOLD_LIMIT ends with HOLD_LIMIT and the slot no longer lossless. -/
def Obligations.stall_patterns_and_holds_change_the_sources_of_a_domain : Prop :=
  (∀ (s : State) (r : Req) (a : CorkArgs) (z : Nat),
    s.hub.calm = true → s.hub.takesWrite r R.CORK_CMD 5 = true → s.hub.corkRegArgs = a → s.hub.stallCheck (isExternal r) 5 a = St.OK →
    z ∈ s.hub.scopeSlots a →
    Answers (.stallSet r) s fun h =>
      h.tookWrite r ∧
      (h.dom z).manual = some { mask := s.hub.rd F.CORK_STALL_MASK_MANUAL, ga := s.hub.now + 32, left := if s.hub.rd F.CORK_STALL_DURATION_EDGES = 0 then none else some (s.hub.rd F.CORK_STALL_DURATION_EDGES) } ∧
      (h.dom z).st = (s.hub.dom z).st ∧ h.rd F.CORK_STATUS_STATUS = St.OK ∧ h.rd F.CORK_STATUS_DONE = 1 ∧
      s.hub.rest h = { s.hub with doms := h.doms, fed := h.fed, corkShown := none } ∧
      s.hub.keeps h [R.CORK_STATUS, R.CORK_LEAD, R.PG_ERROR + Pg.FED * 0x1000, R.PG_ERROR_INFO + Pg.FED * 0x1000]) ∧
  (∀ (s : State) (r : Req) (a : CorkArgs) (z : Nat),
    s.hub.calm = true → s.hub.takesWrite r R.CORK_CMD 6 = true → s.hub.corkRegArgs = a → s.hub.stallCheck (isExternal r) 6 a = St.OK →
    z ∈ s.hub.scopeSlots a →
    Answers (.stallClear r) s fun h =>
      h.tookWrite r ∧ (h.dom z).manual = none ∧ (h.dom z).st = (s.hub.dom z).st ∧ h.rd F.CORK_STATUS_STATUS = St.OK ∧
      h.rd F.CORK_STATUS_DONE = 1 ∧ s.hub.rest h = { s.hub with doms := h.doms, fed := h.fed, corkShown := none } ∧
      s.hub.keeps h [R.CORK_STATUS, R.CORK_LEAD, R.PG_ERROR + Pg.FED * 0x1000, R.PG_ERROR_INFO + Pg.FED * 0x1000]) ∧
  (∀ (s : State) (z : Nat) (ga : Nat) (m : Nat) (b : Nat),
    s.hub.calm = true → z ∈ s.hub.doms.keys → ((s.hub.dom z).waiting.filter (fun w => w.1 ≤ s.hub.now)).getLast? = some (ga, m, b) →
    Answers .stallPatternApply s fun h =>
      (h.dom z).mask = m ∧ (h.dom z).bare = b ∧ (h.dom z).ga = ga ∧ (h.dom z).scn = (s.hub.dom z).scn ∧ (h.dom z).st = (s.hub.dom z).st ∧
      (h.dom z).waiting = (s.hub.dom z).waiting.filter (fun w => s.hub.now < w.1) ∧
      s.hub.rest h = { s.hub with doms := h.doms, tiles := h.tiles } ∧ s.hub.keeps h [F.PWR_STATUS_ISSUE_CAP.addr]) ∧
  (∀ (s : State) (z : Nat) (m : ManualStall),
    s.hub.calm = true → z ∈ s.hub.doms.keys → (s.hub.dom z).manual = some m → m.left = some 0 →
    Answers .manualStallExpiry s fun h =>
      (h.dom z).manual = none ∧
      (s.hub.rdB F.FED_JOB_FEDERATED z ≠ 1 → (s.hub.dom z).mask ≠ (s.hub.dom z).bare → (h.dom z).waiting.head? = some (s.hub.now, (s.hub.dom z).bare, (s.hub.dom z).bare)) ∧
      (h.dom z).scn = (s.hub.dom z).scn ∧ s.hub.rest h = { s.hub with doms := h.doms, fed := h.fed } ∧
      s.hub.keeps h [R.PG_ERROR + Pg.FED * 0x1000, R.PG_ERROR_INFO + Pg.FED * 0x1000]) ∧
  (∀ (s : State) (tile : TileId) (z : Nat),
    s.hub.calm = true → (s.hub.tile tile).st = .inContext → (s.hub.tile tile).slot = z → 128 ≤ (s.hub.tile tile).traceWords →
    ((s.hub.dom z).st = .running ∨ (s.hub.dom z).st = .stopping) → (s.hub.dom z).held = false → (s.hub.dom z).losslessOff = false →
    s.hub.rdB F.TRACEF_SLOT_LOSSLESS z = 1 → s.hub.rdB F.FED_JOB_FEDERATED z = 0 →
    Answers (.holdRequestRx tile) s fun h =>
      (h.tile tile).holdReq = true ∧ (h.dom z).hold = some ((s.hub.dom z).hold.getD s.hub.time.hclk) ∧
      (∀ y, y ≠ z → h.dom y = s.hub.dom y) ∧ s.hub.rest h = { s.hub with doms := h.doms, tiles := h.tiles } ∧ s.hub.keeps h []) ∧
  (∀ (s : State) (tile : TileId) (z : Nat),
    s.hub.calm = true → (s.hub.tile tile).st = .inContext → (s.hub.tile tile).slot = z → (s.hub.tile tile).holdReq = true →
    (s.hub.tile tile).traceWords ≤ 32 → (s.hub.slotTiles z).all (fun u => u == (tile : Nat) || !(s.hub.tile u).holdReq) = true →
    Answers (.holdReleaseRx tile) s fun h =>
      (h.tile tile).holdReq = false ∧ (h.dom z).hold = none ∧ (∀ y, y ≠ z → h.dom y = s.hub.dom y) ∧
      s.hub.rest h = { s.hub with doms := h.doms, tiles := h.tiles, fed := h.fed } ∧
      s.hub.keeps h [R.PG_ERROR + Pg.FED * 0x1000, R.PG_ERROR_INFO + Pg.FED * 0x1000]) ∧
  (∀ (s : State) (z : Nat) (t : Nat),
    s.hub.calm = true → z ∈ s.hub.doms.keys → (s.hub.dom z).hold = some t → s.hub.elapsed t (s.hub.rd F.CORK_HOLD_LIMIT_HCLK) = true →
    Answers .holdLimit s fun h =>
      (h.dom z).hold = none ∧ (h.dom z).losslessOff = true ∧ h.rdB F.TRACEF_SLOT_LOSSLESS z = 0 ∧ h.shows Ev.HOLD_LIMIT z = true ∧
      s.hub.rest h = { s.hub with doms := h.doms, tiles := h.tiles, fed := h.fed } ∧ s.hub.keepsOff h [Pg.TRACEF, Pg.FED])

/-- A WAVE frame seen for the first time starts the stop in the domains of its scope at a member; a CORK_REPORT takes its sender off the members awaited; members silent for FED_CMD_TIMEOUT end a federated command with TIMEOUT and MEMBER_STATUS; a STALL_REQ at the anchor records the mask of a member, and a STALL frame in time becomes a pattern with its Ga. -/
def Obligations.waves_and_stalls_cross_the_fields_of_a_package : Prop :=
  (∀ (s : State) (tendril : TendrilId) (waveId : BitVec 8) (issuer : Fin 2048) (extReq : Bool) (target : BitVec 64) (start : Word) (tag : BitVec 16) (mode : Fin 4) (field : Bool) (a : CorkArgs) (z : Nat),
    s.hub.calm = true → (s.hub.tend tendril).st = Ts.UP → s.hub.fed.wavesSeen.contains ((issuer : Nat), waveId.toNat) = false →
    issuer ≠ s.hub.hubAddr → s.hub.flag F.FED_CTRL_EN = true → waveArgs tag.toNat mode (b2n field) target.toNat = a →
    s.hub.corkCheck8 extReq 1 a = St.OK → z ∈ s.hub.liveSlots 1 { a with fed := false } →
    Answers (.waveFrameRx tendril waveId issuer 1 extReq target start tag mode field) s fun h =>
      (h.dom z).st = .stopping ∧ (h.dom z).scn = (s.hub.dom z).scn ∧ h.fed.wavesSeen.contains ((issuer : Nat), waveId.toNat) = true ∧
      (∃ c ∈ h.corks, c.src = .member issuer waveId.toNat ∧ z ∈ c.live) ∧
      s.hub.rest h = { s.hub with doms := h.doms, tiles := h.tiles, corks := h.corks, nextOp := h.nextOp, fed := h.fed } ∧ s.hub.keeps h []) ∧
  (∀ (s : State) (hd : Hdr2) (waveId : BitVec 8) (flags : BitVec 3) (scn : BitVec 64) (c : CorkOp),
    s.hub.calm = true → s.hub.takesFrame hd Op.CORK_REPORT = true → s.hub.corks = [c] → c.fed = true → c.wave = waveId.toNat →
    c.localDone = false → (hd.src : Nat) ∈ c.members → bitAt flags.toNat 1 = false →
    Answers (.corkReportRx hd waveId 0 flags scn) s fun h =>
      h.corks = [{ c with members := removeNat hd.src c.members, found := c.found || !bitAt flags.toNat 2 }] ∧
      s.hub.rest h = { s.hub with corks := h.corks, fed := h.fed } ∧
      s.hub.keeps h [R.PG_ERROR + Pg.FED * 0x1000, R.PG_ERROR_INFO + Pg.FED * 0x1000]) ∧
  (∀ (s : State) (c : CorkOp) (q : Req) (m : Nat),
    s.hub.calm = true → s.hub.corks = [c] → c.src = .reg q → c.packages = [] → c.fed = true → c.localDone = true → m ∈ c.members →
    s.hub.elapsed c.localAt (s.hub.rd F.FED_CMD_TIMEOUT_HCLK) = true →
    Answers .memberReportTimeout s fun h =>
      h.corks = [] ∧ h.shows Ev.MEMBER_STATUS m = true ∧
      (s.hub.corkShown = some c.id → c.localFinal = St.OK → c.fedFinal = St.OK → h.rd F.CORK_STATUS_DONE = 1 ∧ h.rd F.CORK_STATUS_FINAL = St.TIMEOUT) ∧
      s.hub.rest h = { s.hub with corks := h.corks } ∧
      s.hub.keeps h [R.CORK_STATUS, R.CORK_RESULT_SCN_LO, R.CORK_RESULT_SCN_LO + 4, R.CORK_RESULT_GCN_LO, R.CORK_RESULT_GCN_LO + 4]) ∧
  (∀ (s : State) (hd : Hdr2) (mask : BitVec 16) (tag : BitVec 16) (z : Nat),
    s.hub.calm = true → s.hub.takesFrame hd Op.STALL_REQ = true → s.hub.isSafe = false → s.hub.flag F.FED_CTRL_EN = true →
    s.hub.openSlots.filter (fun y => (s.hub.dom y).tag == tag.toNat) = [z] → s.hub.rdB F.FED_JOB_FEDERATED z = 1 →
    s.hub.rdB F.FED_JOB_ANCHOR z = s.hub.rd F.FED_SELF_HUB →
    Answers (.stallReqRx hd mask tag) s fun h =>
      ((hd.src : Nat), mask.toNat) ∈ (h.dom z).memberMasks ∧ (h.dom z).scn = (s.hub.dom z).scn ∧ (∀ y, y ≠ z → h.dom y = s.hub.dom y) ∧
      s.hub.rest h = { s.hub with doms := h.doms, fed := h.fed } ∧
      s.hub.keeps h [R.PG_ERROR + Pg.FED * 0x1000, R.PG_ERROR_INFO + Pg.FED * 0x1000]) ∧
  (∀ (s : State) (tendril : TendrilId) (anchor : Fin 2048) (mask : BitVec 16) (tag : BitVec 16) (ga : BitVec 64) (z : Nat),
    s.hub.calm = true → (s.hub.tend tendril).st = Ts.UP → s.hub.fed.stallsSeen.contains ((anchor : Nat), tag.toNat, ga.toNat) = false →
    anchor ≠ s.hub.hubAddr → s.hub.openSlots.filter (fun y => (s.hub.dom y).tag == tag.toNat) = [z] → s.hub.rdB F.FED_JOB_FEDERATED z = 1 →
    s.hub.rdB F.FED_JOB_ANCHOR z = anchor → s.hub.now + 32 ≤ ga.toNat →
    Answers (.stallFrameRx tendril anchor mask tag ga) s fun h =>
      (h.dom z).waiting = (s.hub.dom z).waiting ++ [(ga.toNat, mask.toNat, mask.toNat)] ∧ (∀ y, y ≠ z → h.dom y = s.hub.dom y) ∧
      s.hub.rest h = { s.hub with doms := h.doms, fed := h.fed } ∧ s.hub.keeps h [])

/-- At its boundary a full window shows the estimate of R85 and begins the next; a good telemetry frame becomes the sample and ends estimate-only operation, a bad one is an error, a missing one after PWR_TELEM_TIMEOUT makes the loop estimate-only; CAL_START begins a calibration of 256 windows; EST_ONLY_FORCE forces; PWR_CLKREQ asks for a clock change 4,096 periods ahead or is refused; PWR_CTX takes a floor of 1 to 16 for a slot that does not run, whose domain then has no cap below the floor, and none without CAP_TOL; for a slot that runs it is ignored and recorded. -/
def Obligations.the_power_loop_measures_calibrates_and_changes_clocks : Prop :=
  (∀ (s : State) (counts : List Nat),
    s.hub.calm = true → counts.length = 16 → s.hub.powerBoundary ≤ s.hub.now → s.hub.power.short = false → s.hub.measured = none →
    s.hub.flag F.PWR_CTRL_GUARD_EN = false →
    Answers (.powerWindowEnd counts) s fun h =>
      h.rd F.PWR_EST_MW = sat 24 (s.hub.estimate counts * s.hub.rd F.PWR_CAL_FACTOR_FACTOR / 256) ∧ h.rd F.PWR_USED_MW = h.rd F.PWR_EST_MW ∧
      h.rd F.PWR_USED_SOURCE = 2 ∧ h.power.winStart = s.hub.powerBoundary ∧ s.hub.rest h = { s.hub with power := h.power } ∧
      s.hub.keeps h [F.PWR_EST_MW.addr, R.PWR_MEAS, F.PWR_USED_MW.addr]) ∧
  (∀ (s : State) (r : Req),
    s.hub.calm = true → s.hub.takesWrite r R.PWR_CTRL (s.hub.reg R.PWR_CTRL ||| 8) = true → s.hub.power.calLeft = 0 →
    Answers (.calStart r) s fun h =>
      h.tookWrite r ∧ h.power.calLeft = 256 ∧ h.power.calM = 0 ∧ h.power.calE = 0 ∧ h.rd F.PWR_CTRL_CAL_START = 1 ∧
      h.rd F.PWR_CTRL_EST_ONLY_FORCE = s.hub.rd F.PWR_CTRL_EST_ONLY_FORCE ∧ s.hub.rest h = { s.hub with power := h.power } ∧
      s.hub.keeps h [R.PWR_CTRL]) ∧
  (∀ (s : State) (v : Word),
    s.hub.calm = true → crc4 28 v.toNat 0 = bitsOf v.toNat 28 4 → s.hub.flag F.PWR_CTRL_EST_ONLY_FORCE = false →
    Answers (.pwrTelemFrame v) s fun h =>
      h.power.sample = some (v.toNat % 2 ^ 24) ∧ h.power.sampleAt = s.hub.time.hclk ∧ h.rd F.PWR_STATUS_EST_ONLY = 0 ∧
      s.hub.rest h = { s.hub with power := h.power } ∧ s.hub.keeps h [R.PWR_STATUS]) ∧
  (∀ (s : State) (v : Word),
    s.hub.calm = true → crc4 28 v.toNat 0 ≠ bitsOf v.toNat 28 4 →
    Answers (.pwrTelemFrame v) s fun h =>
      h.hasErr Er.PWR_TELEM_FORMAT = true ∧ s.hub.rest h = s.hub ∧
      s.hub.keeps h [R.PG_ERROR + Pg.PWR * 0x1000, R.PG_ERROR_INFO + Pg.PWR * 0x1000]) ∧
  (∀ (s : State),
    s.hub.calm = true → s.hub.boot.released = true → s.hub.flag F.PWR_CTRL_EST_ONLY_FORCE = false → s.hub.power.missRaised = false →
    s.hub.power.everSample = false → s.hub.elapsed s.hub.power.missFrom (s.hub.rd F.PWR_TELEM_TIMEOUT_HCLK) = true →
    Answers .telemMissing s fun h =>
      h.rd F.PWR_STATUS_EST_ONLY = 1 ∧ h.power.missRaised = true ∧ h.shows Ev.TELEM_MISSING 0 = true ∧
      s.hub.rest h = { s.hub with power := h.power } ∧ s.hub.keeps h [R.PWR_STATUS]) ∧
  (∀ (s : State) (r : Req),
    s.hub.calm = true → s.hub.takesWrite r R.PWR_CTRL (setBits (setBits (s.hub.reg R.PWR_CTRL) 3 1 0) 2 1 1) = true →
    s.hub.flag F.PWR_CTRL_EST_ONLY_FORCE = false →
    Answers (.estOnlyForce r true) s fun h =>
      h.tookWrite r ∧ h.rd F.PWR_CTRL_EST_ONLY_FORCE = 1 ∧ h.rd F.PWR_STATUS_EST_ONLY = 1 ∧ h.rd F.PWR_USED_SOURCE = 2 ∧
      s.hub.rest h = { s.hub with power := h.power } ∧ s.hub.keeps h [R.PWR_CTRL, R.PWR_STATUS, F.PWR_USED_MW.addr]) ∧
  (∀ (s : State) (r : Req),
    s.hub.calm = true → s.hub.takesWrite r R.PWR_CTRL (setBits (setBits (s.hub.reg R.PWR_CTRL) 3 1 0) 2 1 0) = true →
    s.hub.flag F.PWR_CTRL_EST_ONLY_FORCE = true →
    Answers (.estOnlyForce r false) s fun h =>
      h.tookWrite r ∧ h.rd F.PWR_CTRL_EST_ONLY_FORCE = 0 ∧ h.power.missFrom = s.hub.time.hclk ∧
      s.hub.rest h = { s.hub with power := h.power } ∧ s.hub.keeps h [R.PWR_CTRL]) ∧
  (∀ (s : State) (r : Req) (part : Fin 2) (div : Fin 4),
    s.hub.calm = true → s.hub.takesWrite r R.PWR_CLKREQ (part + 2 * div + 8) = true → s.hub.isSafe = false →
    s.hub.clkchgCheck part (s.hub.now + 4096) = St.OK → (div : Nat) ≠ s.hub.divCode part →
    Answers (.pwrClkreq r part div) s fun h =>
      h.tookWrite r ∧ h.rd F.PWR_CLKREQ_STATUS = St.OK ∧ h.pendingChg part = some ((div : Nat), s.hub.applyGcn part (s.hub.now + 4096)) ∧
      s.hub.rest h = { s.hub with time := h.time } ∧
      s.hub.keeps h [R.PWR_CLKREQ, R.TIME_CLK_DIV, R.TIME_CLKCHG_APPLY_LO, R.TIME_CLKCHG_APPLY_LO + 4]) ∧
  (∀ (s : State) (r : Req) (part : Fin 2) (div : Fin 4),
    s.hub.calm = true → s.hub.takesWrite r R.PWR_CLKREQ (part + 2 * div + 8) = true → s.hub.isSafe = false →
    s.hub.clkchgCheck part (s.hub.now + 4096) ≠ St.OK →
    Answers (.pwrClkreq r part div) s fun h =>
      h.tookWrite r ∧ h.rd F.PWR_CLKREQ_STATUS = s.hub.clkchgCheck part (s.hub.now + 4096) ∧ h.shows Ev.CLKREQ_REFUSED 0 = true ∧
      s.hub.rest h = s.hub ∧ s.hub.keeps h [R.PWR_CLKREQ]) ∧
  (∀ (s : State) (r : Req) (v : Word) (z : Nat),
    s.hub.calm = true → s.hub.takesWrite r R.PWR_CTX v.toNat = true → s.hub.rd F.PWR_CTX_SEL_SLOT = z → (s.hub.dom z).st ≠ .running →
    (s.hub.dom z).st ≠ .stopping → 1 ≤ bitsOf v.toNat 1 5 → bitsOf v.toNat 1 5 ≤ 16 →
    Answers (.pwrCtxWrite r v) s fun h =>
      h.tookWrite r ∧ h.regB R.PWR_CTX z = v.toNat % 64 ∧
      (h.dom z).cap = (if v.toNat % 2 = 0 then 16 else if (s.hub.dom z).cap < bitsOf v.toNat 1 5 then bitsOf v.toNat 1 5 else (s.hub.dom z).cap) ∧
      (∀ y, y ≠ z → h.dom y = s.hub.dom y) ∧ s.hub.rest h = { s.hub with doms := h.doms, tiles := h.tiles } ∧
      s.hub.keeps h [regKey R.PWR_CTX z, F.PWR_STATUS_ISSUE_CAP.addr]) ∧
  (∀ (s : State) (r : Req) (v : Word) (z : Nat),
    s.hub.calm = true → s.hub.takesWrite r R.PWR_CTX v.toNat = true → s.hub.rd F.PWR_CTX_SEL_SLOT = z →
    ((s.hub.dom z).st = .running ∨ (s.hub.dom z).st = .stopping) →
    Answers (.pwrCtxWrite r v) s fun h =>
      h.tookWrite r ∧ h.hasErr Er.PWR_CTX_RUNNING = true ∧ h.regB R.PWR_CTX z = s.hub.regB R.PWR_CTX z ∧ s.hub.rest h = s.hub ∧
      s.hub.keeps h [R.PG_ERROR + Pg.PWR * 0x1000, R.PG_ERROR_INFO + Pg.PWR * 0x1000])

/-- A write of CORK_SCOPE, CORK_MODE, CORK_TARGET, CORK_STEP_COUNT or a stall register while CORK_STATUS.DONE is 0 is ignored: it sets PG_ERROR.ARG_BUSY and puts the register's offset into PG_ERROR_INFO; a write of an argument register of the time unit while TIME_CMD_STATUS.DONE is 0 is ignored and puts its offset into PG_ERROR_INFO. Nothing else changes. -/
def Obligations.arguments_of_a_command_under_way_are_ignored : Prop :=
  (∀ (s : State) (r : Req) (a : Nat) (v : Word),
    s.hub.calm = true →
    a ∈ [R.CORK_SCOPE, R.CORK_MODE, R.CORK_TARGET_LO, R.CORK_TARGET_HI, R.CORK_STEP_COUNT, R.CORK_STALL_MASK, R.CORK_STALL_DURATION] →
    s.hub.takesWrite r a v.toNat = true → s.hub.flag F.CORK_STATUS_DONE = false →
    Answers (.registerWrite r (BitVec.ofNat 20 a) v) s fun h =>
      h.tookWrite r ∧ h.hasErr Er.CORK_ARG_BUSY = true ∧ h.rd (F.PG_ERROR_INFO_OFFSET.lane Pg.CORK) = a % 0x1000 ∧ s.hub.rest h = s.hub ∧
      s.hub.keeps h [R.PG_ERROR + Pg.CORK * 0x1000, R.PG_ERROR_INFO + Pg.CORK * 0x1000]) ∧
  (∀ (s : State) (r : Req) (a : Nat) (v : Word),
    s.hub.calm = true →
    a ∈ [R.TIME_CLKCHG_REQ, R.TIME_CLKCHG_GCN_LO, R.TIME_CLKCHG_GCN_HI, R.TIME_TBS_GCN_LO, R.TIME_TBS_GCN_HI, R.TIME_ARG_EPOCH, R.TIME_TBS_COMP] →
    s.hub.takesWrite r a v.toNat = true → s.hub.flag F.TIME_CMD_STATUS_DONE = false →
    Answers (.registerWrite r (BitVec.ofNat 20 a) v) s fun h =>
      h.tookWrite r ∧ h.rd (F.PG_ERROR_INFO_OFFSET.lane Pg.TIME) = a % 0x1000 ∧ s.hub.rest h = s.hub ∧
      s.hub.keeps h [R.PG_ERROR + Pg.TIME * 0x1000, R.PG_ERROR_INFO + Pg.TIME * 0x1000])

/-- LOCATE begins on the selected cane and, when it ends, leaves its row in BREAK_ROW with CANE_LOCATE_DONE or sets the error bit, and a suspect cane is bypassed where AUTO_BYPASS is 1; writing a bit of CANE_BROKEN marks the cane broken and bypasses it into its neighbour, CLEAR_BROKEN ends that, CLEAR_STATS zeroes the counts; a cane takes its new direction when its turn is over. -/
def Obligations.canes_are_located_bypassed_cleared_and_turned : Prop :=
  (∀ (s : State) (r : Req) (c : Nat),
    s.hub.calm = true → s.hub.takesWrite r R.CANE_CMD 1 = true → s.hub.rd F.CANE_SEL_CANE = c → s.hub.caneCheck 1 = St.OK →
    Answers (.caneLocate r) s fun h =>
      h.tookWrite r ∧ h.cane c = { s.hub.cane c with locate := some s.hub.time.hclk } ∧ (∀ q, q ≠ c → h.cane q = s.hub.cane q) ∧
      h.rd F.CANE_CMD_STATUS_STATUS = St.OK ∧ h.rd F.CANE_CMD_STATUS_DONE = 0 ∧ s.hub.rest h = { s.hub with canes := h.canes } ∧
      s.hub.keeps h [R.CANE_CMD_STATUS]) ∧
  (∀ (s : State) (c : Cane) (row : Fin 128) (t : Nat),
    s.hub.calm = true → (s.hub.cane c).locate = some t → (s.hub.cane c).suspect = false →
    Answers (.locateDone c (some row)) s fun h =>
      h.cane c = { s.hub.cane c with locate := none, breakRow := row, breakValid := true } ∧
      (∀ q, q ≠ (c : Nat) → h.cane q = s.hub.cane q) ∧ h.shows Ev.CANE_LOCATE_DONE c = true ∧
      h.rd F.CANE_CMD_STATUS_DONE = b2n !(h.canes.cells.any (fun x => x.2.locate.isSome)) ∧ s.hub.rest h = { s.hub with canes := h.canes } ∧
      s.hub.keeps h [R.CANE_CMD_STATUS]) ∧
  (∀ (s : State) (c : Cane) (t : Nat),
    s.hub.calm = true → (s.hub.cane c).locate = some t → (s.hub.cane c).suspect = false →
    Answers (.locateDone c none) s fun h =>
      h.cane c = { s.hub.cane c with locate := none } ∧ (∀ q, q ≠ (c : Nat) → h.cane q = s.hub.cane q) ∧
      h.hasErr Er.CANE_LOCATE_FAIL = true ∧ h.shows Ev.CANE_LOCATE_DONE c = true ∧ s.hub.rest h = { s.hub with canes := h.canes } ∧
      s.hub.keeps h [R.CANE_CMD_STATUS, R.PG_ERROR + Pg.CANE * 0x1000, R.PG_ERROR_INFO + Pg.CANE * 0x1000]) ∧
  (∀ (s : State) (c : Cane) (row : Fin 128) (t : Nat) (n : Nat) (mode : Nat),
    s.hub.calm = true → (s.hub.cane c).locate = some t → (s.hub.cane c).suspect = true → (s.hub.cane c).broken = false →
    s.hub.flag F.CANE_CTRL_AUTO_BYPASS = true → s.hub.bypassTo c = some (n, mode) →
    Answers (.locateDone c (some row)) s fun h =>
      h.cane c = { s.hub.cane c with locate := none, breakRow := row, breakValid := true, broken := true, mode := mode, suspect := false } ∧
      h.cane n = { s.hub.cane n with mode := 3 } ∧ h.shows Ev.CANE_LOCATE_DONE c = true ∧ h.shows Ev.CANE_BROKEN c = true ∧
      s.hub.rest h = { s.hub with canes := h.canes } ∧ s.hub.keeps h [R.CANE_CMD_STATUS]) ∧
  (∀ (s : State) (r : Req) (c : Nat),
    s.hub.calm = true → s.hub.takesWrite r R.CANE_CMD 2 = true → s.hub.rd F.CANE_SEL_CANE = c → s.hub.caneCheck 2 = St.OK →
    Answers (.clearBroken r) s fun h =>
      h.tookWrite r ∧ h.cane c = { s.hub.cane c with broken := false, mode := if s.hub.carries c then 3 else 0 } ∧
      h.rd F.CANE_CMD_STATUS_STATUS = St.OK ∧ h.rd F.CANE_CMD_STATUS_DONE = 1 ∧ s.hub.rest h = { s.hub with canes := h.canes } ∧
      s.hub.keeps h [R.CANE_CMD_STATUS]) ∧
  (∀ (s : State) (r : Req) (c : Nat),
    s.hub.calm = true → s.hub.takesWrite r R.CANE_CMD 3 = true → s.hub.rd F.CANE_SEL_CANE = c → s.hub.caneCheck 3 = St.OK →
    Answers (.caneClearStats r) s fun h =>
      h.tookWrite r ∧ h.cane c = { s.hub.cane c with parityErrs := 0, peak := 0 } ∧ (∀ q, q ≠ c → h.cane q = s.hub.cane q) ∧
      h.rd F.CANE_CMD_STATUS_STATUS = St.OK ∧ h.rd F.CANE_CMD_STATUS_DONE = 1 ∧ s.hub.rest h = { s.hub with canes := h.canes } ∧
      s.hub.keeps h [R.CANE_CMD_STATUS]) ∧
  (∀ (s : State) (r : Req) (word : Fin 4) (v : Word) (i : Nat) (n : Nat) (mode : Nat),
    s.hub.calm = true → s.hub.takesWrite r (R.CANE_BROKEN_0 + 4 * word) v.toNat = true → maskList 32 v.toNat = [i] →
    (s.hub.cane (32 * word + i)).broken = false → s.hub.bypassTo (32 * word + i) = some (n, mode) →
    Answers (.caneBrokenWrite r word v) s fun h =>
      h.tookWrite r ∧ h.cane (32 * word + i) = { s.hub.cane (32 * word + i) with broken := true, mode := mode, suspect := false } ∧
      h.cane n = { s.hub.cane n with mode := 3 } ∧ h.shows Ev.CANE_BROKEN (32 * word + i) = true ∧
      s.hub.rest h = { s.hub with canes := h.canes } ∧ s.hub.keeps h []) ∧
  (∀ (s : State) (q : Nat) (t : Nat) (d : Bool),
    s.hub.calm = true → s.hub.harv.op ≠ 2 → (s.hub.cane q).turning = some (d, t) → t ≤ s.hub.time.hclk →
    Answers .caneTurnDone s fun h =>
      h.cane q = { s.hub.cane q with down := d, turning := none } ∧ s.hub.rest h = { s.hub with canes := h.canes } ∧ s.hub.keeps h [])

/-- A HARVEST that passes R126 starts in phase 0 with its vintage number and HARV_STARTED; with room its reservation is admitted; after HARV_DRAIN_LIMIT its records start though a tile is not quiet, with NOT_QUIET; an intact record joins the entry queue of its cane and the cursor moves on; a first parity error is counted and the record sent again; a silent spur leaves a gap; space that returns lets a waiting harvest in; HARVEST_ARGS of another hub are kept for its HARVEST, which starts a member harvest under its vintage number. -/
def Obligations.a_harvest_sets_up_drains_and_takes_records : Prop :=
  (∀ (s : State) (r : Req) (q : HarvReq),
    s.hub.calm = true → s.hub.takesWrite r R.HARV_CMD 1 = true → s.hub.harvRegReq (reqCode r) = q → s.hub.harvCheck q = St.OK →
    q.vintage ≠ 0 → q.a.fed = false → q.a.xpkg = false →
    Answers (.harvest r) s fun h =>
      h.tookWrite r ∧ h.harv.op = 1 ∧ h.harv.vintage = q.vintage ∧ h.harv.slots = s.hub.scopeSlots q.a ∧ h.harv.sel = q.sel ∧
      h.harv.openGcn = s.hub.now ∧ h.harv.admitted = false ∧ h.rd F.HARV_STATUS_STATUS = St.OK ∧ h.rd F.HARV_STATUS_OP = 1 ∧
      h.rd F.HARV_STATUS_DONE = 0 ∧ h.rd F.HARV_STATUS_PHASE = 1 ∧ h.reg R.HARV_CUR_VINTAGE = q.vintage ∧
      h.shows Ev.HARV_STARTED (minNat q.a.slot (s.hub.scopeSlots q.a)) = true ∧
      s.hub.rest h = { s.hub with harv := h.harv, cell := h.cell } ∧
      s.hub.keeps h [R.HARV_STATUS, R.HARV_CUR_VINTAGE, R.HARV_OPEN_GCN_LO, R.HARV_OPEN_GCN_HI, R.HARV_PROGRESS, R.HARV_RAW_LO, R.HARV_RAW_HI, R.HARV_PRESSED_LO, R.HARV_PRESSED_HI]) ∧
  (∀ (s : State),
    s.hub.calm = true → s.hub.harv.op = 1 → s.hub.harv.admitted = false → s.hub.harv.drained = false → s.hub.harv.closed = false →
    (let need := s.hub.reservation s.hub.harv.slots.length s.hub.harv.caps.keys s.hub.harv.regions.length (s.hub.rectRows s.hub.harv.rect); if need < s.hub.rd F.CELL_ADMIT_CASKS then s.hub.rd F.CELL_ADMIT_CASKS else need) ≤ s.hub.freeCasks →
    s.hub.freeEntry.isSome = true → s.hub.drainTiles.all (fun t => (s.hub.tile t).quietNow) = false →
    Answers .harvSetupDone s fun h =>
      h.harv.admitted = true ∧ h.harv.drained = false ∧ h.harv.waveAt = s.hub.time.hclk ∧ h.rd F.CELL_STATE_STALLED = 0 ∧
      (h.cell.index.get h.harv.entry {}).number = s.hub.harv.vintage ∧ (h.cell.index.get h.harv.entry {}).state = 1 ∧
      (∀ a, a < s.hub.geo.indexAt h.harv.entry ∨ s.hub.geo.indexAt h.harv.entry + 64 ≤ a → memRead h.store.mem a = memRead s.hub.store.mem a) ∧
      s.hub.rest h = { s.hub with harv := h.harv, cell := h.cell, lanes := h.lanes, store := h.store } ∧
      s.hub.keeps h (R.CELL_STATE :: (List.range 16).map (fun l => (F.PRESS_VERIFY_FAILS.lane l).addr))) ∧
  (∀ (s : State),
    s.hub.calm = true → s.hub.harv.op = 1 → s.hub.harv.admitted = false → s.hub.harv.closed = false → s.hub.harv.stalled = true →
    (let need := s.hub.reservation s.hub.harv.slots.length s.hub.harv.caps.keys s.hub.harv.regions.length (s.hub.rectRows s.hub.harv.rect); if need < s.hub.rd F.CELL_ADMIT_CASKS then s.hub.rd F.CELL_ADMIT_CASKS else need) ≤ s.hub.freeCasks →
    s.hub.freeEntry.isSome = true → s.hub.drainTiles.all (fun t => (s.hub.tile t).quietNow) = false →
    Answers .caskAvailable s fun h =>
      h.harv.admitted = true ∧ h.harv.waveAt = s.hub.time.hclk ∧ h.rd F.CELL_STATE_STALLED = 0 ∧
      s.hub.rest h = { s.hub with harv := h.harv, cell := h.cell, lanes := h.lanes, store := h.store } ∧
      s.hub.keeps h (R.CELL_STATE :: (List.range 16).map (fun l => (F.PRESS_VERIFY_FAILS.lane l).addr))) ∧
  (∀ (s : State) (t : Nat),
    { s.hub with harv := {} }.calm = true → s.hub.harv.op = 1 → s.hub.harv.admitted = true → s.hub.harv.drained = false →
    s.hub.harv.ended = none → s.hub.elapsed s.hub.harv.waveAt (s.hub.rd F.HARV_DRAIN_LIMIT_HCLK) = true →
    s.hub.drainTiles.find? (fun u => !(s.hub.tile u).quietNow) = some t → Sel.traceSnap s.hub.harv.sel = false →
    Answers .drainLimit s fun h =>
      h.harv.drained = true ∧ h.harv.admitted = true ∧ (h.harv.caps.get t {}).quiet = false ∧ h.shows Ev.NOT_QUIET t = true ∧
      s.hub.rest h = { s.hub with harv := h.harv, canes := h.canes, lanes := h.lanes, cell := h.cell } ∧
      s.hub.keeps h [R.HARV_STATUS, R.HARV_PROGRESS]) ∧
  (∀ (s : State) (column : Cane) (got : List Byte) (t : Nat) (rest : List Nat),
    s.hub.calm = true → s.hub.recordGranted column = true → (s.hub.cursor column).tiles = t :: rest → s.hub.shut t = none →
    (s.hub.lane (s.hub.servedBy (s.hub.caneFor column / 8))).cur.isSome = true →
    (s.hub.cursor column).sub + 1 < s.hub.subCount (s.hub.cursor column).phase (s.hub.cursor column).sub t →
    Answers (.harvRecordRx column 0 false got) s fun h =>
      (h.cane (s.hub.caneFor column)).queue = (s.hub.cane (s.hub.caneFor column)).queue ++ [{ s.hub.recordAt t (s.hub.cursor column) with flags := (s.hub.recordAt t (s.hub.cursor column)).flags + 32 * b2n ((s.hub.cursor column).tries != 0) }] ∧
      h.cursor column = { s.hub.cursor column with sub := (s.hub.cursor column).sub + 1, tries := 0, silent := 0 } ∧
      h.harv.gaps = s.hub.harv.gaps ∧ s.hub.rest h = { s.hub with harv := h.harv, canes := h.canes, cell := h.cell } ∧
      s.hub.keeps h [R.HARV_STATUS]) ∧
  (∀ (s : State) (column : Cane) (got : List Byte) (t : Nat) (u : Nat) (rest : List Nat),
    s.hub.calm = true → s.hub.recordGranted column = true → (s.hub.cursor column).tiles = t :: u :: rest → s.hub.shut t = none →
    (s.hub.lane (s.hub.servedBy (s.hub.caneFor column / 8))).cur.isSome = true → s.hub.shut u = none →
    s.hub.subCount (s.hub.cursor column).phase (s.hub.cursor column).sub t ≤ (s.hub.cursor column).sub + 1 →
    Answers (.harvRecordRx column 0 false got) s fun h =>
      (h.cane (s.hub.caneFor column)).queue = (s.hub.cane (s.hub.caneFor column)).queue ++ [{ s.hub.recordAt t (s.hub.cursor column) with flags := (s.hub.recordAt t (s.hub.cursor column)).flags + 32 * b2n ((s.hub.cursor column).tries != 0) }] ∧
      h.cursor column = { s.hub.cursor column with tiles := u :: rest, sub := 0, tries := 0, silent := 0 } ∧
      s.hub.rest h = { s.hub with harv := h.harv, canes := h.canes, cell := h.cell } ∧ s.hub.keeps h [R.HARV_STATUS]) ∧
  (∀ (s : State) (column : Cane) (srcErr : Bool) (got : List Byte),
    s.hub.calm = true → s.hub.recordGranted column = true → (s.hub.cursor column).tries = 0 → s.hub.flag F.CANE_CTRL_PARITY_EN = true →
    Answers (.harvRecordRx column 1 srcErr got) s fun h =>
      h.cursor column = { s.hub.cursor column with tries := 1, silent := 0 } ∧
      (h.cane (s.hub.caneFor column)).parityErrs = sat 16 ((s.hub.cane (s.hub.caneFor column)).parityErrs + 1) ∧
      (h.cane (s.hub.caneFor column)).queue = (s.hub.cane (s.hub.caneFor column)).queue ∧ h.hasErr Er.CANE_DATA_PARITY = true ∧
      h.shows Ev.CANE_PARITY (s.hub.caneFor column) = true ∧ s.hub.rest h = { s.hub with harv := h.harv, canes := h.canes } ∧
      s.hub.keeps h [R.PG_ERROR + Pg.CANE * 0x1000, R.PG_ERROR_INFO + Pg.CANE * 0x1000]) ∧
  (∀ (s : State) (column : Cane) (t : Nat) (rest : List Nat),
    s.hub.calm = true → s.hub.harv.op = 1 → s.hub.harv.ended = none → s.hub.spurFree column = true →
    (s.hub.cursor column).tiles = t :: rest → s.hub.spurLimit ≤ (s.hub.cursor column).silent →
    s.hub.harv.gapSeen.contains Gp.SPUR_TIMEOUT = false →
    Answers (.harvSpurTimeout column) s fun h =>
      h.harv.gaps.any (fun g => !g.region && g.id == t) = true ∧ h.harv.gapSeen.contains Gp.SPUR_TIMEOUT = true ∧
      h.shows Ev.HARV_GAP t = true ∧ s.hub.rest h = { s.hub with harv := h.harv, canes := h.canes, lanes := h.lanes, cell := h.cell } ∧
      s.hub.keeps h [R.HARV_STATUS, R.HARV_PROGRESS]) ∧
  (∀ (s : State) (hd : Hdr2) (args : BitVec 96),
    s.hub.calm = true → s.hub.takesFrame hd Op.HARVEST_ARGS = true → s.hub.isSafe = false → s.hub.flag F.FED_CTRL_EN = true →
    Answers (.harvestArgsRx hd args) s fun h =>
      h.harv.argsFrom = s.hub.harv.argsFrom.filter (fun p => !(p.1 == (hd.src : Nat) && p.2.1 == (hd.txn : Nat))) ++ [((hd.src : Nat), (hd.txn : Nat), le 12 args.toNat)] ∧
      s.hub.rest h = { s.hub with harv := { s.hub.harv with argsFrom := h.harv.argsFrom }, fed := h.fed } ∧
      s.hub.keeps h [R.PG_ERROR + Pg.FED * 0x1000, R.PG_ERROR_INFO + Pg.FED * 0x1000]) ∧
  (∀ (s : State) (hd : Hdr2) (args : BitVec 96) (argsE : List Byte) (q : HarvReq),
    s.hub.calm = true → s.hub.takesFrame hd Op.HARVEST = true → s.hub.flag F.FED_CTRL_EN = true →
    s.hub.harv.argsFrom.find? (fun p => p.1 == (hd.src : Nat) && p.2.1 == (hd.txn : Nat)) = some ((hd.src : Nat), (hd.txn : Nat), argsE) →
    q = { fedHarvReq (le 12 args.toNat) argsE with issuer := some hd.src, txn := some hd.txn } →
    s.hub.harvCheck { q with a := { q.a with fed := true } } = St.OK → q.vintage ≠ 0 → s.hub.scopeSlots q.a ≠ [] →
    Answers (.fedHarvestRx hd args) s fun h =>
      h.harv.op = 1 ∧ h.harv.vintage = q.vintage ∧ h.harv.slots = s.hub.scopeSlots q.a ∧ h.harv.issuer = hd.src ∧
      h.harv.txn = some (hd.txn : Nat) ∧ h.harv.federated = true ∧ h.reg R.HARV_CUR_VINTAGE = q.vintage ∧
      h.rd F.HARV_STATUS_STATUS = St.OK ∧ h.rd F.HARV_STATUS_DONE = 0 ∧
      h.shows Ev.HARV_STARTED (minNat q.a.slot (s.hub.scopeSlots q.a)) = true ∧
      s.hub.rest h = { s.hub with harv := h.harv, cell := h.cell, fed := h.fed } ∧
      s.hub.keeps h [R.HARV_STATUS, R.HARV_CUR_VINTAGE, R.HARV_OPEN_GCN_LO, R.HARV_OPEN_GCN_HI, R.HARV_PROGRESS, R.HARV_RAW_LO, R.HARV_RAW_HI, R.HARV_PRESSED_LO, R.HARV_PRESSED_HI, R.PG_ERROR + Pg.FED * 0x1000, R.PG_ERROR_INFO + Pg.FED * 0x1000])

/-- Once everything is in the streams HARV_DONE closes the vintage under the next SEQ, shows the final status with DONE and HARV_DONE and frees the engine; an ABORT before admission drops the vintage and ends the harvest, after admission, with no lane waiting for its reference, it ends every lane, drops what still waited, and leaves the manifest to be written in phase 5. -/
def Obligations.a_harvest_ends_with_its_manifest_or_is_aborted : Prop :=
  (∀ (s : State),
    s.hub.calm = true → s.hub.harvReady = true → s.hub.harv.memLeft = [] → s.hub.harv.pkgLeft = [] → s.hub.harv.policySlot = none →
    s.hub.harv.peerTag = none → s.hub.harv.txn = none → s.hub.harv.xsrc = none → s.hub.harv.memStatus = St.OK →
    Answers (.harvDone false) s fun h =>
      h.harv.op = 0 ∧ h.rd F.HARV_STATUS_DONE = 1 ∧ h.rd F.HARV_STATUS_FINAL = s.hub.harv.ended.getD St.OK % 256 ∧
      h.rd F.HARV_STATUS_PHASE = 0 ∧ (h.cell.index.get s.hub.harv.entry {}).state = 2 ∧
      (h.cell.index.get s.hub.harv.entry {}).number = s.hub.harv.vintage ∧ (h.cell.index.get s.hub.harv.entry {}).seq = s.hub.cell.nextSeq ∧
      h.cell.nextSeq = s.hub.cell.nextSeq + 1 ∧ h.shows Ev.HARV_DONE (s.hub.harv.vintage % 65536) = true ∧
      s.hub.rest h = { s.hub with harv := h.harv, cell := h.cell, lanes := h.lanes, store := h.store, rack := h.rack, trace := h.trace, fed := h.fed, freeCount := h.freeCount } ∧
      h.store.sram = s.hub.store.sram ∧ h.store.scan = s.hub.store.scan ∧
      s.hub.keepsOff h [Pg.HARV, Pg.PRESS, Pg.CELL, Pg.TRACE, Pg.FED, Pg.RACK]) ∧
  (∀ (s : State) (r : Req),
    s.hub.calm = true → s.hub.takesWrite r R.HARV_CMD 3 = true → s.hub.abortCheck = St.OK → s.hub.harv.admitted = false →
    s.hub.harv.ended = none → s.hub.harv.memLeft = [] → s.hub.harv.pkgLeft = [] → s.hub.harv.policySlot = none → s.hub.harv.peerTag = none →
    s.hub.harv.txn = none → s.hub.harv.xsrc = none → s.hub.harv.memStatus = St.OK →
    s.hub.lanesUp.all (fun l => (s.hub.lane l).cur.isNone && !(s.hub.lane l).refWait) = true →
    Answers (.harvAbort r) s fun h =>
      h.tookWrite r ∧ h.harv = { argsFrom := s.hub.harv.argsFrom } ∧ h.rd F.HARV_STATUS_STATUS = St.OK ∧ h.rd F.HARV_STATUS_DONE = 1 ∧
      h.rd F.HARV_STATUS_FINAL = St.OK ∧ h.reg R.HARV_CUR_VINTAGE = 0 ∧ h.shows Ev.HARV_ABORTED s.hub.harv.first = true ∧
      h.shows Ev.HARV_DONE 0 = true ∧ s.hub.rest h = { s.hub with harv := h.harv } ∧
      s.hub.keeps h [R.HARV_STATUS, R.HARV_CUR_VINTAGE, R.CELL_STATE]) ∧
  (∀ (s : State) (r : Req),
    s.hub.calm = true → s.hub.takesWrite r R.HARV_CMD 3 = true → s.hub.abortCheck = St.OK → s.hub.harv.admitted = true →
    s.hub.harv.ended = none → s.hub.lanesUp.all (fun l => !(s.hub.lane l).refWait) = true →
    Answers (.harvAbort r) s fun h =>
      h.tookWrite r ∧ h.harv.ended = some St.OK ∧ h.harv.closed = false ∧ h.rd F.HARV_STATUS_STATUS = St.OK ∧ h.rd F.HARV_STATUS_OP = 3 ∧
      h.rd F.HARV_STATUS_PHASE = 5 ∧ h.shows Ev.HARV_ABORTED s.hub.harv.first = true ∧
      s.hub.rest h = { s.hub with harv := h.harv, cell := h.cell, canes := h.canes, lanes := h.lanes, store := h.store, trace := h.trace, freeCount := h.freeCount, rack := h.rack, fed := h.fed } ∧
      h.store.sram = s.hub.store.sram ∧ h.store.scan = s.hub.store.scan ∧
      s.hub.keepsOff h [Pg.HARV, Pg.PRESS, Pg.CELL, Pg.TRACE, Pg.FED, Pg.RACK])

/-- A DECANT that passes R126 and R123 step 1 starts for its slot and holds the vintage; a fabric error in steps 2 to 5 ends it with FAULT and DECANT_FAILED and leaves the slot held (phase 7); its last step gives the slot the SCN of the manifest as its stop SCN and frees the engine with DECANT_DONE; DECANT_RELEASE of a failed decant closes its slot. -/
def Obligations.a_decant_starts_completes_or_holds_its_slot : Prop :=
  (∀ (s : State) (r : Req) (z : Nat) (e : Nat) (v : Vint),
    s.hub.calm = true → s.hub.takesWrite r R.HARV_CMD 2 = true → s.hub.rd F.HARV_DECANT_SLOT_SLOT = z → s.hub.decantCheck.1 = St.OK →
    s.hub.decantVintage = some (e, v) →
    Answers (.decant r) s fun h =>
      h.tookWrite r ∧ h.harv.op = 2 ∧ h.harv.dSlot = z ∧ h.harv.dStep = 2 ∧ h.harv.vintage = v.number ∧
      (h.cell.index.get e {}).decantHold = true ∧ h.rd F.HARV_STATUS_STATUS = St.OK ∧ h.rd F.HARV_STATUS_OP = 2 ∧
      h.rd F.HARV_STATUS_DONE = 0 ∧ h.rd F.HARV_STATUS_PHASE = 6 ∧ h.shows Ev.DECANT_STARTED z = true ∧ h.tiles = s.hub.tiles ∧
      s.hub.rest h = { s.hub with harv := h.harv, cell := h.cell, lanes := h.lanes, doms := h.doms } ∧
      s.hub.keeps h (R.HARV_STATUS :: (List.range 16).map (fun l => (F.PRESS_VERIFY_FAILS.lane l).addr))) ∧
  (∀ (s : State) (z : Nat),
    s.hub.calm = true → s.hub.harv.op = 2 → s.hub.harv.dStep = 6 → s.hub.harv.dSlot = z →
    Answers .decantDone s fun h =>
      h.harv = { argsFrom := s.hub.harv.argsFrom } ∧ (h.dom z).scn = s.hub.decantDom.scn ∧ (h.dom z).final = St.OK ∧
      (h.dom z).consistent = true ∧ (h.dom z).st = (s.hub.dom z).st ∧ h.rd F.HARV_STATUS_DONE = 1 ∧ h.rd F.HARV_STATUS_FINAL = St.OK ∧
      h.rd F.HARV_STATUS_PHASE = 0 ∧ h.shows Ev.DECANT_DONE z = true ∧
      s.hub.rest h = { s.hub with harv := h.harv, doms := h.doms, tiles := h.tiles, canes := h.canes, lanes := h.lanes, cell := h.cell, hang := h.hang } ∧
      s.hub.keeps h [R.HARV_STATUS]) ∧
  (∀ (s : State) (z : Nat),
    s.hub.calm = true → s.hub.harv.op = 2 → s.hub.harv.dSlot = z → s.hub.harv.dStep ∈ [2, 4, 5] → s.hub.outstanding Cu.DECANT ≠ 0 →
    (Man.lane s.hub.harv.manifest s.hub.harv.dLane).1 ≠ 0 →
    Answers (.cellarResponse .decant true) s fun h =>
      (h.dom z).failedDecant = true ∧ (h.dom z).st = (s.hub.dom z).st ∧ (h.dom z).scn = (s.hub.dom z).scn ∧
      h.harv = { op := 2, slots := [z], dSlot := z, first := z, argsFrom := s.hub.harv.argsFrom } ∧ h.tiles = s.hub.tiles ∧
      h.rd F.HARV_STATUS_DONE = 1 ∧ h.rd F.HARV_STATUS_FINAL = St.FAULT ∧ h.rd F.HARV_STATUS_PHASE = 7 ∧ h.shows Ev.DECANT_FAILED 0 = true ∧
      h.shows Ev.DECODE_ERROR (s.hub.servedBy s.hub.harv.dLane) = true ∧
      s.hub.rest h = { s.hub with harv := h.harv, doms := h.doms, canes := h.canes, lanes := h.lanes, cell := h.cell, freeCount := h.freeCount } ∧
      s.hub.keepsOff h [Pg.HARV, Pg.PRESS + s.hub.servedBy s.hub.harv.dLane]) ∧
  (∀ (s : State) (r : Req) (z : Nat),
    s.hub.calm = true → s.hub.takesWrite r R.HARV_CMD 4 = true → s.hub.rd F.HARV_DECANT_SLOT_SLOT = z → s.hub.decantReleaseCheck = St.OK →
    s.hub.flag F.HARV_STATUS_DONE = true →
    Answers (.decantRelease r) s fun h =>
      h.tookWrite r ∧ h.dom z = {} ∧ h.harv = { argsFrom := s.hub.harv.argsFrom } ∧
      (∀ t, (s.hub.tile t).isOf z = true → (h.tile t).st = .parked) ∧ h.rd F.HARV_STATUS_STATUS = St.OK ∧ h.rd F.HARV_STATUS_OP = 4 ∧
      h.rd F.HARV_STATUS_DONE = 1 ∧ h.rd F.HARV_STATUS_FINAL = St.OK ∧ h.rd F.HARV_STATUS_PHASE = 0 ∧
      s.hub.rest h = { s.hub with doms := h.doms, tiles := h.tiles, harv := h.harv, auth := h.auth, digTiles := h.digTiles, taste := h.taste } ∧
      s.hub.keeps h [R.HARV_STATUS, regKey R.FED_JOB z, F.PWR_STATUS_ISSUE_CAP.addr])

/-- The block that completes a record goes to the stream of an open lane, its bytes and the block counted, and the record belongs to its tile; a flush that cuts a record short writes its block with FLUSHED; a reference that was found stands ready, one that failed is counted with REF_FETCH_ERROR; RETIRE and RESTORE change the mode of a lane with their events, CLEAR_STATS zeroes its counters, and PRESS_CTRL is taken only by a lane that is IDLE or RETIRED. (What the verification of a flushed block finds is the model's free value: log entry 322.) -/
def Obligations.the_press_writes_blocks_and_its_lanes_retire : Prop :=
  (∀ (s : State) (lane : Lane) (b : DataBlock) (rec : Rec),
    s.hub.calm = true → s.hub.blockDue lane = true → (s.hub.lane lane).isOpen = true → s.hub.curBlock lane none false = some b →
    (s.hub.writeBlock lane none false false).1 = .block (some rec) → rec.type = 1 →
    Answers (.pressBlockDone lane 0) s fun h =>
      (h.lane lane).pos = (s.hub.lane lane).pos + b.bytes.length ∧ (h.lane lane).blocks = (s.hub.lane lane).blocks + 1 ∧
      (h.lane lane).recs = (s.hub.lane lane).recs + 1 ∧ (h.lane lane).held = false ∧ (h.harv.caps.get rec.tile {}).tcs = true ∧
      h.rd (F.PRESS_BLOCKS_COUNT.lane lane) = sat (F.PRESS_BLOCKS_COUNT.lane lane).width (s.hub.rd (F.PRESS_BLOCKS_COUNT.lane lane) + 1) ∧
      (∀ l, l ≠ (lane : Nat) → h.lane l = s.hub.lane l) ∧
      s.hub.rest h = { s.hub with harv := h.harv, lanes := h.lanes, canes := h.canes, cell := h.cell, store := h.store } ∧
      h.store.sram = s.hub.store.sram ∧ h.store.scan = s.hub.store.scan ∧ s.hub.keepsOff h [Pg.HARV, Pg.CELL, Pg.PRESS + lane]) ∧
  (∀ (s : State) (r : Req) (lane : Lane) (taken : BitVec 25) (rec : Rec) (v : Bool × Hub),
    s.hub.calm = true → s.hub.takesWrite r (R.PRESS_CMD + 0x1000 * lane) 1 = true → s.hub.pressCheck lane 1 = St.OK →
    (s.hub.lane lane).cur = some rec → (s.hub.lane lane).held = false → (s.hub.lane lane).refWait = false → taken ≠ 0 →
    blockStop (s.hub.recBytes rec).length (s.hub.lane lane).curPos (some taken.toNat) ≠ blockStop (s.hub.recBytes rec).length (s.hub.lane lane).curPos none →
    v = (s.hub.pressStatus lane 1 St.OK).verdict lane (s.hub.curBlock lane (some taken.toNat) false) →
    (v.2.writeBlock lane (some taken.toNat) v.1 false).1 = .block none →
    Answers (.flushBlock r lane taken) s fun h =>
      h.tookWrite r ∧ (h.lane lane).blocks = (s.hub.lane lane).blocks + 1 ∧ h.rd (F.PRESS_CMD_STATUS_STATUS.lane lane) = St.OK ∧
      h.rd (F.PRESS_CMD_STATUS_DONE.lane lane) = 1 ∧ h.shows Ev.FLUSHED lane = true ∧ (∀ l, l ≠ (lane : Nat) → h.lane l = s.hub.lane l) ∧
      s.hub.rest h = { s.hub with harv := h.harv, lanes := h.lanes, cell := h.cell, store := h.store, freeCount := h.freeCount } ∧
      s.hub.keepsOff h [Pg.HARV, Pg.CELL, Pg.PRESS + lane]) ∧
  (∀ (s : State) (lane : Lane) (rec : Rec) (p : Option (List Byte)),
    s.hub.calm = true → (s.hub.lane lane).cur = some rec → (s.hub.lane lane).refWait = true → s.hub.harv.abortWait = false →
    s.hub.refFetch s.hub.harv.refMap s.hub.harv.ref rec.type rec.tile rec.offset rec.payload.length = (false, p) →
    Answers (.refFetchDone lane true) s fun h =>
      (h.lane lane).refWait = false ∧ (h.lane lane).refRec = p ∧ (h.lane lane).cur = some rec ∧
      (∀ l, l ≠ (lane : Nat) → h.lane l = s.hub.lane l) ∧ s.hub.rest h = { s.hub with lanes := h.lanes } ∧
      s.hub.keeps h [R.PRESS_REF_STAT + lane * 0x1000]) ∧
  (∀ (s : State) (lane : Lane) (rec : Rec),
    s.hub.calm = true → (s.hub.lane lane).cur = some rec → (s.hub.lane lane).refWait = true → s.hub.harv.abortWait = false →
    Answers (.refFetchDone lane false) s fun h =>
      (h.lane lane).refWait = false ∧ (h.lane lane).refRec = none ∧ h.hasErr (Er.PRESS_REF_FETCH.lane lane) = true ∧
      h.shows Ev.REF_FETCH_ERROR lane = true ∧ (∀ l, l ≠ (lane : Nat) → h.lane l = s.hub.lane l) ∧
      s.hub.rest h = { s.hub with lanes := h.lanes } ∧
      s.hub.keeps h [R.PRESS_REF_STAT + lane * 0x1000, R.PG_ERROR + (Pg.PRESS + lane) * 0x1000, R.PG_ERROR_INFO + (Pg.PRESS + lane) * 0x1000]) ∧
  (∀ (s : State) (r : Req) (lane : Lane),
    s.hub.calm = true → s.hub.takesWrite r (R.PRESS_CMD + 0x1000 * lane) 2 = true → s.hub.pressCheck lane 2 = St.OK →
    s.hub.retired lane = false →
    Answers (.laneRetire r lane) s fun h =>
      h.tookWrite r ∧ h.lane lane = { s.hub.lane lane with mode := 4, bistOk := false } ∧ h.shows Ev.LANE_RETIRED lane = true ∧
      h.rd (F.PRESS_CMD_STATUS_STATUS.lane lane) = St.OK ∧ h.rd (F.PRESS_CMD_STATUS_OP.lane lane) = 2 ∧
      (∀ l, l ≠ (lane : Nat) → h.lane l = s.hub.lane l) ∧ s.hub.rest h = { s.hub with lanes := h.lanes } ∧
      s.hub.keeps h [R.PRESS_CMD_STATUS + lane * 0x1000]) ∧
  (∀ (s : State) (r : Req) (lane : Lane),
    s.hub.calm = true → s.hub.takesWrite r (R.PRESS_CMD + 0x1000 * lane) 3 = true → s.hub.pressCheck lane 3 = St.OK →
    Answers (.laneRestore r lane) s fun h =>
      h.tookWrite r ∧ h.lane lane = (if s.hub.retired lane then { s.hub.lane lane with mode := 0 } else s.hub.lane lane) ∧
      h.shows Ev.LANE_RESTORED lane = true ∧ h.rd (F.PRESS_CMD_STATUS_STATUS.lane lane) = St.OK ∧
      (∀ l, l ≠ (lane : Nat) → h.lane l = s.hub.lane l) ∧ s.hub.rest h = { s.hub with lanes := h.lanes } ∧
      s.hub.keeps h [R.PRESS_CMD_STATUS + lane * 0x1000]) ∧
  (∀ (s : State) (r : Req) (lane : Lane),
    s.hub.calm = true → s.hub.takesWrite r (R.PRESS_CMD + 0x1000 * lane) 4 = true → s.hub.pressCheck lane 4 = St.OK →
    Answers (.pressClearStats r lane) s fun h =>
      h.tookWrite r ∧ h.reg64 (R.PRESS_IN_LO + lane * 0x1000) = 0 ∧ h.reg64 (R.PRESS_OUT_LO + lane * 0x1000) = 0 ∧
      h.reg (R.PRESS_BLOCKS + lane * 0x1000) = 0 ∧ h.reg (R.PRESS_REF_STAT + lane * 0x1000) = 0 ∧
      h.rd (F.PRESS_VERIFY_FAILS.lane lane) = 0 ∧ h.rd (F.PRESS_CMD_STATUS_STATUS.lane lane) = St.OK ∧ s.hub.rest h = s.hub ∧
      s.hub.keepsOff h [Pg.PRESS + lane]) ∧
  (∀ (s : State) (r : Req) (lane : Lane) (v : Word),
    s.hub.calm = true → s.hub.takesWrite r (R.PRESS_CTRL + 0x1000 * lane) v.toNat = true →
    ((s.hub.lane lane).mode = 0 ∨ (s.hub.lane lane).mode = 4) →
    Answers (.pressCtrlWrite r lane v) s fun h =>
      h.tookWrite r ∧ h.reg (R.PRESS_CTRL + lane * 0x1000) = v.toNat % 8 ∧ s.hub.rest h = s.hub ∧
      s.hub.keeps h [R.PRESS_CTRL + lane * 0x1000]) ∧
  (∀ (s : State) (r : Req) (lane : Lane) (v : Word),
    s.hub.calm = true → s.hub.takesWrite r (R.PRESS_CTRL + 0x1000 * lane) v.toNat = true → (s.hub.lane lane).mode ≠ 0 →
    (s.hub.lane lane).mode ≠ 4 →
    Answers (.pressCtrlWrite r lane v) s fun h =>
      h.tookWrite r ∧ s.hub.rest h = s.hub ∧ s.hub.keeps h [R.PG_ERROR_INFO + (Pg.PRESS + lane) * 0x1000])

/-- An accepted PIN or UNPIN rewrites the index entry with its PIN bit and no other byte, DELETE takes the vintage out of the index with VINTAGE_DELETED, FORMAT starts and, when it finishes, leaves an empty READY cellar under the geometry of the registers with CELLAR_FORMATTED, CLEAR_STATS zeroes CELL_EVICTED; an answer of the fabric takes one access off those outstanding, and an error of a stream write ends the harvest with FAULT. -/
def Obligations.cellar_commands_pin_delete_and_format : Prop :=
  (∀ (s : State) (r : Req) (e : Nat) (v : Vint),
    s.hub.calm = true → s.hub.takesWrite r R.CELL_CMD 1 = true → s.hub.cellCheck (isExternal r) 1 = St.OK →
    s.hub.findVintage (s.hub.reg R.CELL_ARG_VINTAGE) = some (e, v) →
    Answers (.cellPin r) s fun h =>
      h.tookWrite r ∧ h.cell.index.get e {} = { v with flags := setBits v.flags 0 1 1 } ∧
      (∀ x, x ≠ e → h.cell.index.get x {} = s.hub.cell.index.get x {}) ∧ h.rd F.CELL_CMD_STATUS_STATUS = St.OK ∧
      h.rd F.CELL_CMD_STATUS_OP = 1 ∧ h.rd F.CELL_CMD_STATUS_DONE = 1 ∧
      (∀ a, a < s.hub.geo.indexAt e ∨ s.hub.geo.indexAt e + 64 ≤ a → memRead h.store.mem a = memRead s.hub.store.mem a) ∧
      s.hub.rest h = { s.hub with cell := h.cell, store := h.store } ∧ s.hub.keeps h [R.CELL_CMD_STATUS]) ∧
  (∀ (s : State) (r : Req) (e : Nat) (v : Vint),
    s.hub.calm = true → s.hub.takesWrite r R.CELL_CMD 2 = true → s.hub.cellCheck (isExternal r) 2 = St.OK →
    s.hub.findVintage (s.hub.reg R.CELL_ARG_VINTAGE) = some (e, v) →
    Answers (.cellUnpin r) s fun h =>
      h.tookWrite r ∧ h.cell.index.get e {} = { v with flags := setBits v.flags 0 1 0 } ∧
      (∀ x, x ≠ e → h.cell.index.get x {} = s.hub.cell.index.get x {}) ∧ h.rd F.CELL_CMD_STATUS_STATUS = St.OK ∧
      h.rd F.CELL_CMD_STATUS_OP = 2 ∧
      (∀ a, a < s.hub.geo.indexAt e ∨ s.hub.geo.indexAt e + 64 ≤ a → memRead h.store.mem a = memRead s.hub.store.mem a) ∧
      s.hub.rest h = { s.hub with cell := h.cell, store := h.store } ∧ s.hub.keeps h [R.CELL_CMD_STATUS]) ∧
  (∀ (s : State) (r : Req) (e : Nat) (v : Vint),
    s.hub.calm = true → s.hub.takesWrite r R.CELL_CMD 3 = true → s.hub.cellCheck (isExternal r) 3 = St.OK →
    s.hub.findVintage (s.hub.reg R.CELL_ARG_VINTAGE) = some (e, v) →
    Answers (.cellDelete r) s fun h =>
      h.tookWrite r ∧ h.cell.index.keys.contains e = false ∧ (∀ x, x ≠ e → h.cell.index.get x {} = s.hub.cell.index.get x {}) ∧
      h.cell.usedCasks = v.chain.foldl (fun l c => removeNat c l) s.hub.cell.usedCasks ∧ h.rd F.CELL_CMD_STATUS_STATUS = St.OK ∧
      h.shows Ev.VINTAGE_DELETED (v.number % 65536) = true ∧
      s.hub.rest h = { s.hub with cell := h.cell, store := h.store, rack := h.rack } ∧ s.hub.keeps h [R.CELL_CMD_STATUS, R.RACK_FAIL_INFO]) ∧
  (∀ (s : State) (r : Req),
    s.hub.calm = true → s.hub.takesWrite r R.CELL_CMD 4 = true → s.hub.cellCheck (isExternal r) 4 = St.OK →
    Answers (.cellFormat r) s fun h =>
      h.tookWrite r ∧ h.cell.formatAt = some s.hub.time.hclk ∧ h.rd F.CELL_STATE_STATE = 3 ∧ h.rd F.CELL_CMD_STATUS_STATUS = St.OK ∧
      h.rd F.CELL_CMD_STATUS_DONE = 0 ∧ h.cell.index = s.hub.cell.index ∧ s.hub.rest h = { s.hub with cell := h.cell } ∧
      s.hub.keeps h [R.CELL_CMD_STATUS, R.CELL_STATE]) ∧
  (∀ (s : State) (t : Nat),
    s.hub.calm = true → s.hub.cell.formatAt = some t →
    Answers .formatDone s fun h =>
      h.cell.formatAt = none ∧ h.cell.index = {} ∧ h.cell.usedCasks = [] ∧ h.cell.nextSeq = 1 ∧ h.geo = s.hub.geoAsked ∧
      h.rd F.CELL_STATE_STATE = 1 ∧ h.rd F.CELL_STATE_KEPT = 0 ∧ h.rd F.CELL_CMD_STATUS_DONE = 1 ∧ h.shows Ev.CELLAR_FORMATTED 0 = true ∧
      s.hub.rest h = { s.hub with cell := h.cell, store := h.store } ∧ s.hub.keeps h [R.CELL_CMD_STATUS, R.CELL_STATE]) ∧
  (∀ (s : State) (r : Req),
    s.hub.calm = true → s.hub.takesWrite r R.CELL_CMD 5 = true → s.hub.cellCheck (isExternal r) 5 = St.OK →
    Answers (.cellClearStats r) s fun h =>
      h.tookWrite r ∧ h.rd F.CELL_EVICTED_COUNT = 0 ∧ h.rd F.CELL_CMD_STATUS_STATUS = St.OK ∧ s.hub.rest h = s.hub ∧
      s.hub.keeps h [R.CELL_CMD_STATUS, F.CELL_EVICTED_COUNT.addr]) ∧
  (∀ (s : State) (user : CellUser),
    s.hub.calm = true → (user = .metadata ∨ user = .trace) → s.hub.outstanding (cellUser user) = 1 →
    Answers (.cellarResponse user false) s fun h =>
      h.outstanding (cellUser user) = 0 ∧ h.cell.index = s.hub.cell.index ∧ s.hub.rest h = { s.hub with cell := h.cell } ∧ s.hub.keeps h []) ∧
  (∀ (s : State) (lane : Lane),
    s.hub.calm = true → s.hub.outstanding lane = 1 →
    Answers (.cellarResponse (.lane lane) false) s fun h =>
      h.outstanding lane = 0 ∧ h.cell.index = s.hub.cell.index ∧ s.hub.rest h = { s.hub with cell := h.cell } ∧ s.hub.keeps h []) ∧
  (∀ (s : State) (lane : Lane),
    s.hub.calm = true → s.hub.outstanding lane ≠ 0 → s.hub.harv.op = 1 → s.hub.harv.admitted = true → s.hub.harv.closed = false →
    s.hub.harv.ended = none →
    Answers (.cellarResponse (.lane lane) true) s fun h =>
      h.harv.ended = some St.FAULT ∧ h.hasErr Er.HARV_STREAM_WRITE = true ∧ h.rd F.HARV_STATUS_PHASE = 5 ∧
      s.hub.rest h = { s.hub with harv := h.harv, cell := h.cell, canes := h.canes, lanes := h.lanes, store := h.store, trace := h.trace, freeCount := h.freeCount, rack := h.rack, fed := h.fed } ∧
      h.store.sram = s.hub.store.sram ∧ h.store.scan = s.hub.store.scan ∧
      s.hub.keepsOff h [Pg.HARV, Pg.PRESS, Pg.CELL, Pg.TRACE, Pg.FED, Pg.RACK])

/-- RACK of a vintage of the own cellar and RACK_TRACE queue a request under the next ID; RACK of a vintage of another hub, which the lead looks up there first, leaves DONE 0; CANCEL takes a queued one out with RACK_CANCELLED, CLEAR_STATS zeroes RACK_SENT; an idle engine takes the request R183 chooses with RACK_STARTED and holds a vintage of its own cellar; of a request for its own cellar and of a trace request the renewal at 1 ms sets the time anew, and every hold unrenewed for 10 ms lapses; a HOLD of a lead sets its own hold of a closed vintage and leaves any other; a CLOSED with CRASH queues the vintage. -/
def Obligations.racking_queues_starts_holds_and_cancels : Prop :=
  (∀ (s : State) (r : Req) (a : RackArgs),
    s.hub.calm = true → s.hub.takesWrite r R.RACK_CMD 1 = true → s.hub.rackRegArgs = a → a.hub = s.hub.hubAddr →
    s.hub.rackCheck (isExternal r) 1 a = St.OK →
    Answers (.rack r) s fun h =>
      h.tookWrite r ∧
      h.rack.queue = s.hub.rack.queue ++ [{ id := s.hub.rack.nextId, hub := a.hub, vintage := a.vintage, objs := a.obj % 0x40000, crash := s.hub.isCrashVintage a }] ∧
      h.rack.nextId = (s.hub.rack.nextId + 1) % 255 ∧ h.rd F.RACK_STATUS_STATUS = St.OK ∧
      h.rd F.RACK_STATUS_REQ_ID = s.hub.rack.nextId % 256 ∧ h.rd F.RACK_STATUS_DONE = 1 ∧ s.hub.rest h = { s.hub with rack := h.rack } ∧
      s.hub.keeps h [R.RACK_STATUS]) ∧
  (∀ (s : State) (r : Req) (a : RackArgs),
    s.hub.calm = true → s.hub.takesWrite r R.RACK_CMD 1 = true → s.hub.rackRegArgs = a → a.hub ≠ s.hub.hubAddr →
    s.hub.rackCheck (isExternal r) 1 a = St.OK →
    Answers (.rack r) s fun h =>
      h.tookWrite r ∧ h.rack.queue = s.hub.rack.queue ∧
      h.rack.ask.map RackAsk.req = some { hub := a.hub, vintage := a.vintage, objs := a.obj % 0x40000 } ∧ h.rd F.RACK_STATUS_DONE = 0 ∧
      s.hub.rest h = { s.hub with rack := h.rack, fed := h.fed } ∧
      s.hub.keeps h [R.RACK_STATUS, R.PG_ERROR + Pg.FED * 0x1000, R.PG_ERROR_INFO + Pg.FED * 0x1000]) ∧
  (∀ (s : State) (r : Req) (a : RackArgs),
    s.hub.calm = true → s.hub.takesWrite r R.RACK_CMD 2 = true → s.hub.rackRegArgs = a → s.hub.rackCheck (isExternal r) 2 a = St.OK →
    Answers (.rackTrace r) s fun h =>
      h.tookWrite r ∧ h.rack.queue = s.hub.rack.queue ++ [{ id := s.hub.rack.nextId, hub := a.hub, trace := true }] ∧
      h.rd F.RACK_STATUS_STATUS = St.OK ∧ h.rd F.RACK_STATUS_OP = 2 ∧ s.hub.rest h = { s.hub with rack := h.rack } ∧
      s.hub.keeps h [R.RACK_STATUS]) ∧
  (∀ (s : State) (r : Req) (a : RackArgs),
    s.hub.calm = true → s.hub.takesWrite r R.RACK_CMD 3 = true → s.hub.rackRegArgs = a → s.hub.rackCheck (isExternal r) 3 a = St.OK →
    s.hub.rack.active = none →
    Answers (.rackCancel r) s fun h =>
      h.tookWrite r ∧ h.rack.queue = s.hub.rack.queue.filter (fun q => q.id != bitsOf a.obj 24 8) ∧ h.rd F.RACK_STATUS_STATUS = St.OK ∧
      h.shows Ev.RACK_CANCELLED (bitsOf a.obj 24 8) = true ∧ s.hub.rest h = { s.hub with rack := h.rack } ∧ s.hub.keeps h [R.RACK_STATUS]) ∧
  (∀ (s : State) (r : Req) (a : RackArgs),
    s.hub.calm = true → s.hub.takesWrite r R.RACK_CMD 4 = true → s.hub.rackRegArgs = a → s.hub.rackCheck (isExternal r) 4 a = St.OK →
    Answers (.rackClearStats r) s fun h =>
      h.tookWrite r ∧ h.reg64 R.RACK_SENT_LO = 0 ∧ h.rd F.RACK_STATUS_STATUS = St.OK ∧ s.hub.rest h = s.hub ∧
      s.hub.keeps h [R.RACK_STATUS, R.RACK_SENT_LO, R.RACK_SENT_HI]) ∧
  (∀ (s : State) (q : RackReq) (e : Nat) (v : Vint),
    s.hub.calm = true → s.hub.rack.active = none → s.hub.isLead = true → s.hub.rd F.LINK_STATE_STATE ≠ Lk.DISABLED →
    s.hub.rackChoice = some q → q.trace = false → q.hub = s.hub.hubAddr → s.hub.findVintage q.vintage = some (e, v) →
    Answers .rackStart s fun h =>
      h.rack.active = some q ∧ h.rack.queue = s.hub.rack.queue.filter (fun x => x.id != q.id) ∧ h.rack.step = 3 ∧
      (h.cell.index.get e {}).rackHold = putKey s.hub.hubAddr s.hub.time.hclk v.rackHold ∧
      (∀ x, x ≠ e → h.cell.index.get x {} = s.hub.cell.index.get x {}) ∧ h.shows Ev.RACK_STARTED q.id = true ∧
      s.hub.rest h = { s.hub with rack := h.rack, cell := h.cell } ∧ s.hub.keeps h []) ∧
  (∀ (s : State) (r : Req) (on : Bool),
    s.hub.calm = true → s.hub.takesWrite r R.RACK_CTRL (setBits (s.hub.reg R.RACK_CTRL) 1 1 (b2n on)) = true →
    Answers (.rackPause r on) s fun h =>
      h.tookWrite r ∧ h.rd F.RACK_CTRL_PAUSE = b2n on ∧ h.rd F.RACK_CTRL_AUTO_CRASH = s.hub.rd F.RACK_CTRL_AUTO_CRASH ∧
      h.rack = s.hub.rack ∧ s.hub.rest h = { s.hub with cell := h.cell } ∧ s.hub.keeps h [R.RACK_CTRL]) ∧
  (∀ (s : State) (q : RackReq),
    s.hub.calm = true → s.hub.rack.active = some q → s.hub.elapsed s.hub.rack.renewAt Config.millisecond = true → q.trace = true →
    Answers .holdRenew s fun h =>
      h.rack = { s.hub.rack with renewAt := s.hub.time.hclk } ∧ s.hub.rest h = { s.hub with rack := h.rack } ∧ s.hub.keeps h []) ∧
  (∀ (s : State) (q : RackReq) (e : Nat) (v : Vint),
    s.hub.calm = true → s.hub.rack.active = some q → s.hub.elapsed s.hub.rack.renewAt Config.millisecond = true → q.trace = false →
    q.hub = s.hub.hubAddr → s.hub.findVintage q.vintage = some (e, v) →
    Answers .holdRenew s fun h =>
      h.rack = { s.hub.rack with renewAt := s.hub.time.hclk } ∧
      h.cell.index.get e {} = { v with rackHold := putKey s.hub.hubAddr s.hub.time.hclk v.rackHold } ∧
      (∀ x, x ≠ e → h.cell.index.get x {} = s.hub.cell.index.get x {}) ∧ s.hub.rest h = { s.hub with rack := h.rack, cell := h.cell } ∧
      s.hub.keeps h []) ∧
  (∀ (s : State) (e : Nat) (v : Vint),
    s.hub.calm = true → s.hub.cell.index.cells.find? (fun p => p.1 == e) = some (e, v) →
    Answers .rackHoldLapse s fun h =>
      h.cell.index.cells.find? (fun p => p.1 == e) = some (e, { v with rackHold := v.rackHold.filter (fun x => !s.hub.elapsed x.2 (10 * Config.millisecond)) }) ∧
      s.hub.rest h = { s.hub with cell := h.cell } ∧ s.hub.keeps h []) ∧
  (∀ (s : State) (hd : Hdr2) (vintage : Word) (e : Nat) (v : Vint),
    s.hub.calm = true → s.hub.takesFrame hd Op.HOLD = true → s.hub.isSafe = false → s.hub.findVintage vintage.toNat = some (e, v) →
    v.state = 2 →
    Answers (.holdRx hd vintage 0) s fun h =>
      h.cell.index.get e {} = { v with rackHold := putKey hd.src s.hub.time.hclk v.rackHold } ∧
      (∀ x, x ≠ e → h.cell.index.get x {} = s.hub.cell.index.get x {}) ∧ s.hub.rest h = { s.hub with cell := h.cell, fed := h.fed } ∧
      s.hub.keeps h [R.PG_ERROR + Pg.FED * 0x1000, R.PG_ERROR_INFO + Pg.FED * 0x1000]) ∧
  (∀ (s : State) (hd : Hdr2) (vintage : Word) (flags : BitVec 8),
    s.hub.calm = true → s.hub.takesFrame hd Op.CLOSED = true → s.hub.isSafe = false → s.hub.isLead = true →
    s.hub.flag F.RACK_CTRL_AUTO_CRASH = true → s.hub.serves hd.src = true → bitAt flags.toNat 6 = true → s.hub.rack.queue.length < 32 →
    s.hub.rack.queue.all (fun x => x.hub != (hd.src : Nat) || x.vintage != vintage.toNat || x.trace) = true →
    Answers (.closedRx hd vintage flags) s fun h =>
      h.rack.queue = s.hub.rack.queue ++ [{ id := s.hub.rack.nextId, hub := hd.src, vintage := vintage.toNat, objs := Obj.full, crash := true }] ∧
      h.rack.nextId = (s.hub.rack.nextId + 1) % 255 ∧ s.hub.rest h = { s.hub with rack := h.rack, fed := h.fed } ∧
      s.hub.keeps h [R.PG_ERROR + Pg.FED * 0x1000, R.PG_ERROR_INFO + Pg.FED * 0x1000])

/-- START sets RUNNING with the effective mode of R211 and TRACE_STARTED (stated with no trigger armed); STOP flushes the spurs and frames and then clears it with TRACE_STOPPED and DONE, or stays outstanding with DONE 0 while packets are left in a spur (log entry 327); FREEZE and UNFREEZE set and clear the freeze reasons; RESYNC asks every spur in a context for a SYNC; CLEAR_RING empties the ring, CLEAR_STATS the counts; ARM arms, and TRIGGER on an armed trigger records where it fired, while an unarmed one changes no trigger state. -/
def Obligations.trace_commands_start_stop_freeze_and_trigger : Prop :=
  (∀ (s : State) (r : Req),
    s.hub.calm = true → s.hub.takesWrite r R.TRACE_CMD 1 = true → s.hub.traceCheck 1 = St.OK → s.hub.flag F.TRACE_STATE_ARMED = false →
    s.hub.flag F.TRACE_STATE_TRIGGERED = false →
    Answers (.traceStart r) s fun h =>
      h.tookWrite r ∧ h.rd F.TRACE_STATE_RUNNING = 1 ∧
      h.rd F.TRACE_STATE_EFF_OPEN = b2n (s.hub.rd F.TRACE_CTRL_MODE == 1 && s.hub.openAllowed) ∧
      h.rd F.TRACE_STATE_OPEN_DENIED = b2n (s.hub.rd F.TRACE_CTRL_MODE == 1 && !s.hub.openAllowed) ∧
      h.trace.ringMode = s.hub.rd F.TRACE_CTRL_RING_MODE ∧ h.rd F.TRACE_CMD_STATUS_STATUS = St.OK ∧ h.shows Ev.TRACE_STARTED 0 = true ∧
      s.hub.rest h = { s.hub with tiles := h.tiles, trace := h.trace } ∧
      s.hub.keeps h [R.TRACE_CMD_STATUS, R.TRACE_STATE, R.TRACE_WPTR_LO, R.TRACE_WPTR_HI]) ∧
  (∀ (s : State) (r : Req),
    (s.hub.wr F.TRACE_STATE_RUNNING 0).calm = true → s.hub.flag F.TRACE_STATE_RUNNING = true → s.hub.trace.stopping = false →
    s.hub.takesWrite r R.TRACE_CMD 2 = true → s.hub.traceCheck 2 = St.OK →
    Answers (.traceStop r) s fun h =>
      h.tookWrite r ∧ h.rd F.TRACE_STATE_RUNNING = b2n h.trace.stopping ∧ h.rd F.TRACE_CMD_STATUS_STATUS = St.OK ∧
      h.rd F.TRACE_CMD_STATUS_DONE = b2n (!h.trace.stopping) ∧ (h.trace.stopping = true ↔ h.tracing ≠ []) ∧
      (h.trace.stopping = false → h.shows Ev.TRACE_STOPPED 0 = true) ∧
      s.hub.rest h = { s.hub with tiles := h.tiles, trace := h.trace, cell := h.cell, store := h.store, canes := h.canes } ∧
      s.hub.keepsOff h [Pg.TRACE] ∧ h.store.sram = s.hub.store.sram ∧ h.store.scan = s.hub.store.scan) ∧
  (∀ (s : State) (r : Req),
    (s.hub.wr F.TRACE_STATE_RUNNING 0).calm = true → s.hub.flag F.TRACE_STATE_RUNNING = true → s.hub.trace.stopping = false →
    s.hub.tracing = [] → s.hub.tiles.cells.all (fun p => p.2.branch.isEmpty) = true → s.hub.takesWrite r R.TRACE_CMD 2 = true →
    s.hub.traceCheck 2 = St.OK →
    Answers (.traceStop r) s fun h =>
      h.tookWrite r ∧ h.rd F.TRACE_STATE_RUNNING = 0 ∧ h.rd F.TRACE_CMD_STATUS_STATUS = St.OK ∧ h.rd F.TRACE_CMD_STATUS_DONE = 1 ∧
      h.shows Ev.TRACE_STOPPED 0 = true ∧ s.hub.rest h = { s.hub with trace := h.trace, cell := h.cell, store := h.store } ∧
      s.hub.keepsOff h [Pg.TRACE] ∧ h.store.sram = s.hub.store.sram ∧ h.store.scan = s.hub.store.scan) ∧
  (∀ (s : State) (r : Req),
    s.hub.calm = true → s.hub.takesWrite r R.TRACE_CMD 3 = true → s.hub.traceCheck 3 = St.OK →
    Answers (.traceFreeze r) s fun h =>
      h.tookWrite r ∧ h.rd F.TRACE_STATE_FROZEN = s.hub.rd F.TRACE_STATE_FROZEN ||| 4 ∧ h.rd F.TRACE_CMD_STATUS_STATUS = St.OK ∧
      (s.hub.frozenRing = false → h.shows Ev.RING_FROZEN 4 = true) ∧ s.hub.rest h = s.hub ∧
      s.hub.keeps h [R.TRACE_CMD_STATUS, R.TRACE_STATE]) ∧
  (∀ (s : State) (r : Req),
    s.hub.calm = true → s.hub.takesWrite r R.TRACE_CMD 4 = true → s.hub.traceCheck 4 = St.OK →
    Answers (.traceUnfreeze r) s fun h =>
      h.tookWrite r ∧ h.rd F.TRACE_STATE_FROZEN = setBits (setBits (s.hub.rd F.TRACE_STATE_FROZEN) 2 1 0) 0 1 0 ∧
      h.rd F.TRACE_CMD_STATUS_STATUS = St.OK ∧ (s.hub.frozenRing = true → h.frozenRing = false → h.shows Ev.RING_UNFROZEN 0 = true) ∧
      s.hub.rest h = s.hub ∧ s.hub.keeps h [R.TRACE_CMD_STATUS, R.TRACE_STATE]) ∧
  (∀ (s : State) (r : Req) (t : Nat),
    s.hub.calm = true → s.hub.takesWrite r R.TRACE_CMD 5 = true → s.hub.traceCheck 5 = St.OK → (s.hub.tile t).st = .inContext →
    Answers (.traceResync r) s fun h =>
      h.tookWrite r ∧ h.tile t = { s.hub.tile t with syncDue := some 7, chain := none } ∧ h.rd F.TRACE_CMD_STATUS_STATUS = St.OK ∧
      s.hub.rest h = { s.hub with tiles := h.tiles } ∧ s.hub.keeps h [R.TRACE_CMD_STATUS]) ∧
  (∀ (s : State) (r : Req),
    s.hub.calm = true → s.hub.takesWrite r R.TRACE_CMD 6 = true → s.hub.traceCheck 6 = St.OK →
    Answers (.clearRing r) s fun h =>
      h.tookWrite r ∧ h.wptr = 0 ∧ h.rd F.TRACE_STATE_WRAPPED = 0 ∧ h.rd F.TRACE_STATE_RING_OPEN = 0 ∧
      h.rd F.TRACE_STATE_FROZEN = setBits (s.hub.rd F.TRACE_STATE_FROZEN) 3 1 0 ∧ h.trace.everWrapped = false ∧
      h.rd F.TRACE_CMD_STATUS_STATUS = St.OK ∧ s.hub.rest h = { s.hub with trace := h.trace } ∧
      s.hub.keeps h [R.TRACE_CMD_STATUS, R.TRACE_STATE, R.TRACE_WPTR_LO, R.TRACE_WPTR_HI]) ∧
  (∀ (s : State) (r : Req),
    s.hub.calm = true → s.hub.takesWrite r R.TRACE_CMD 7 = true → s.hub.traceCheck 7 = St.OK →
    Answers (.traceArm r) s fun h =>
      h.tookWrite r ∧ h.rd F.TRACE_STATE_ARMED = 1 ∧ h.rd F.TRACE_STATE_TRIGGERED = 0 ∧ h.rd F.TRACE_CMD_STATUS_STATUS = St.OK ∧
      s.hub.rest h = s.hub ∧ s.hub.keeps h [R.TRACE_CMD_STATUS, R.TRACE_STATE]) ∧
  (∀ (s : State) (r : Req),
    s.hub.calm = true → s.hub.takesWrite r R.TRACE_CMD 8 = true → s.hub.traceCheck 8 = St.OK → s.hub.flag F.TRACE_STATE_ARMED = true →
    s.hub.flag F.CORK_TRIG_SCOPE_EN = false →
    Answers (.traceTrigger r) s fun h =>
      h.tookWrite r ∧ h.rd F.TRACE_STATE_ARMED = 0 ∧ h.rd F.TRACE_STATE_TRIGGERED = 1 ∧ h.reg R.TRACE_TRIG_INFO = 3 ∧
      h.reg64 R.TRACE_TRIG_GCN_LO = s.hub.now % 2 ^ 64 ∧ h.reg64 R.TRACE_TRIG_WPTR_LO = s.hub.wptr ∧
      h.rd F.TRACE_CMD_STATUS_STATUS = St.OK ∧ h.shows Ev.TRIGGERED 0 = true ∧ s.hub.rest h = { s.hub with trace := h.trace } ∧
      s.hub.keeps h [R.TRACE_CMD_STATUS, R.TRACE_STATE, R.TRACE_TRIG_INFO, R.TRACE_TRIG_GCN_LO, R.TRACE_TRIG_GCN_HI, R.TRACE_TRIG_WPTR_LO, R.TRACE_TRIG_WPTR_HI]) ∧
  (∀ (s : State) (r : Req),
    s.hub.calm = true → s.hub.takesWrite r R.TRACE_CMD 8 = true → s.hub.traceCheck 8 = St.OK → s.hub.flag F.TRACE_STATE_ARMED = false →
    Answers (.traceTrigger r) s fun h =>
      h.tookWrite r ∧ h.rd F.TRACE_CMD_STATUS_STATUS = St.OK ∧ s.hub.rest h = { s.hub with trace := h.trace } ∧
      s.hub.keeps h [R.TRACE_CMD_STATUS]) ∧
  (∀ (s : State) (r : Req),
    s.hub.calm = true → s.hub.takesWrite r R.TRACE_CMD 9 = true → s.hub.traceCheck 9 = St.OK →
    Answers (.traceClearStats r) s fun h =>
      h.tookWrite r ∧ h.reg64 R.TRACE_FRAMES_LO = 0 ∧ h.reg64 R.TRACE_LOST_LO = 0 ∧ h.reg R.TRACE_DISCARDED = 0 ∧ h.trace.evLoss = {} ∧
      (∀ i, (h.frameBuf i).lossCount = 0) ∧ h.rd F.TRACE_CMD_STATUS_STATUS = St.OK ∧ s.hub.rest h = { s.hub with trace := h.trace } ∧
      s.hub.keeps h [R.TRACE_CMD_STATUS, R.TRACE_FRAMES_LO, R.TRACE_FRAMES_HI, R.TRACE_LOST_LO, R.TRACE_LOST_HI, R.TRACE_DISCARDED])

/-- On an executed edge a traced spur keeps the branch outcome, and the accesses issued are counted; low-power entry sends POWER and leaves a SYNC due with reason POWER, exit sends that SYNC; after TRACE_SYNC_PERIOD a SYNC is due; a packet of the spur whose turn it is on an open cane joins the frame of its column at a router with room, one at a frozen ring is discarded and counted and its row noted; no other tile, frame buffer or cane changes. -/
def Obligations.spurs_trace_what_their_tiles_show : Prop :=
  (∀ (s : State) (tile : TileId) (m : Nat) (n : Nat),
    s.hub.calm = true → (m ≠ 0 ∨ n ≠ 0) → (s.hub.tile tile).branch = [] →
    Answers (.tileTapEdge tile { reads := m, writes := n }) s fun h =>
      h.tile tile = { s.hub.tile tile with rdOut := sat 16 ((s.hub.tile tile).rdOut + m), wrOut := sat 16 ((s.hub.tile tile).wrOut + n) } ∧
      (∀ u, u ≠ (tile : Nat) → h.tile u = s.hub.tile u) ∧ s.hub.rest h = { s.hub with tiles := h.tiles } ∧ s.hub.keeps h []) ∧
  (∀ (s : State) (tile : TileId) (b : Bool),
    s.hub.traces tile = true → (s.hub.wr F.TRACE_STATE_RUNNING 0).calm = true → s.hub.reg R.REL_DEGRADED = s.hub.degradedNow →
    s.hub.rdB F.TRACEF_SLOT_BRANCH (s.hub.tile tile).slot = 1 → (s.hub.tile tile).branch.length < 26 →
    Answers (.tileTapEdge tile { branch := some b }) s fun h =>
      h.tile tile = { s.hub.tile tile with branch := (s.hub.tile tile).branch ++ [b], branchGcn := s.hub.now } ∧
      (∀ u, u ≠ (tile : Nat) → h.tile u = s.hub.tile u) ∧ s.hub.rest h = { s.hub with tiles := h.tiles } ∧ s.hub.keeps h []) ∧
  (∀ (s : State) (tile : TileId) (state : Fin 16),
    s.hub.calm = true → s.hub.traces tile = false →
    Answers (.lowPowerEntry tile state) s fun h =>
      h.tile tile = { s.hub.tile tile with lowPower := state, syncDue := some 4, chain := none } ∧
      (∀ u, u ≠ (tile : Nat) → h.tile u = s.hub.tile u) ∧ s.hub.rest h = { s.hub with tiles := h.tiles } ∧ s.hub.keeps h []) ∧
  (∀ (s : State) (tile : TileId) (state : Fin 16),
    s.hub.traces tile = true → (s.hub.wr F.TRACE_STATE_RUNNING 0).calm = true → s.hub.reg R.REL_DEGRADED = s.hub.degradedNow →
    (s.hub.tile tile).lost = 0 → (s.hub.tile tile).branch = [] → s.hub.syncReason (s.hub.tile tile) s.hub.now false = none →
    (s.hub.tile tile).traceWords + 4 ≤ 512 →
    Answers (.lowPowerEntry tile state) s fun h =>
      h.tile tile = { s.hub.tile tile with tbuf := (s.hub.tile tile).tbuf ++ [packet Pk.POWER (rowOf tile) 0 ([(state : Nat)] ++ two s.hub.now)], lowPower := state, syncDue := some 4, chain := none } ∧
      (∀ u, u ≠ (tile : Nat) → h.tile u = s.hub.tile u) ∧ s.hub.rest h = { s.hub with tiles := h.tiles } ∧ s.hub.keeps h []) ∧
  (∀ (s : State) (tile : TileId),
    s.hub.calm = true → s.hub.traces tile = false →
    Answers (.lowPowerExit tile) s fun h =>
      h.tile tile = { s.hub.tile tile with lowPower := 0 } ∧ (∀ u, u ≠ (tile : Nat) → h.tile u = s.hub.tile u) ∧
      s.hub.rest h = { s.hub with tiles := h.tiles } ∧ s.hub.keeps h []) ∧
  (∀ (s : State) (tile : TileId),
    s.hub.traces tile = true → (s.hub.wr F.TRACE_STATE_RUNNING 0).calm = true → s.hub.reg R.REL_DEGRADED = s.hub.degradedNow →
    (s.hub.tile tile).lost = 0 → (s.hub.tile tile).traceWords + 7 ≤ 512 →
    Answers (.lowPowerExit tile) s fun h =>
      h.tile tile = { s.hub.tile tile with lowPower := 0, tbuf := (s.hub.tile tile).tbuf ++ [s.hub.syncPacket tile s.hub.now 4], syncDue := none, chain := some s.hub.now, lastSyncAt := s.hub.time.hclk } ∧
      (∀ u, u ≠ (tile : Nat) → h.tile u = s.hub.tile u) ∧ s.hub.rest h = { s.hub with tiles := h.tiles } ∧ s.hub.keeps h []) ∧
  (∀ (s : State) (tile : TileId),
    s.hub.calm = true → s.hub.elapsed (s.hub.tile tile).lastSyncAt s.hub.syncPeriod = true → (s.hub.tile tile).syncDue = none →
    Answers (.traceSyncPeriod tile) s fun h =>
      h.tile tile = { s.hub.tile tile with syncDue := some 1 } ∧ (∀ u, u ≠ (tile : Nat) → h.tile u = s.hub.tile u) ∧
      s.hub.rest h = { s.hub with tiles := h.tiles } ∧ s.hub.keeps h []) ∧
  (∀ (s : State) (tile : TileId) (p : List Word) (more : List (List Word)) (f : FrameBuf),
    s.hub.calm = true → s.hub.caneShut (s.hub.caneFor (colOf tile)) = false → s.hub.traceGranted tile = true → (s.hub.tile tile).lost = 0 →
    (s.hub.tile tile).tbuf = p :: more → s.hub.frozenRing = false → (s.hub.frameBuf (colOf tile)).lost = 0 →
    (s.hub.frameBuf (colOf tile)).noted = [] → pktType p ≠ Pk.OVERFLOW → (s.hub.frameBuf (colOf tile)).add p s.hub.time.hclk = some f →
    Answers (.tracePacketRx tile false) s fun h =>
      h.tile tile = { s.hub.tile tile with tbuf := more } ∧ h.frameBuf (colOf tile) = { f with noted := removeNat (rowOf tile) f.noted } ∧
      (∀ u, u ≠ (tile : Nat) → h.tile u = s.hub.tile u) ∧ (∀ c, c ≠ colOf tile → c ≠ s.hub.caneFor (colOf tile) → h.cane c = s.hub.cane c) ∧
      (∀ i, i ≠ colOf tile → h.frameBuf i = s.hub.frameBuf i) ∧
      s.hub.rest h = { s.hub with tiles := h.tiles, trace := h.trace, canes := h.canes } ∧ s.hub.keeps h []) ∧
  (∀ (s : State) (tile : TileId) (p : List Word) (more : List (List Word)),
    s.hub.calm = true → s.hub.caneShut (s.hub.caneFor (colOf tile)) = false → s.hub.traceGranted tile = true → (s.hub.tile tile).lost = 0 →
    (s.hub.tile tile).tbuf = p :: more → s.hub.frozenRing = true →
    Answers (.tracePacketRx tile false) s fun h =>
      h.tile tile = { s.hub.tile tile with tbuf := more } ∧
      h.rd F.TRACE_DISCARDED_COUNT = sat F.TRACE_DISCARDED_COUNT.width (s.hub.rd F.TRACE_DISCARDED_COUNT + 1) ∧
      (h.frameBuf (colOf tile)).words = (s.hub.frameBuf (colOf tile)).words ∧ rowOf tile ∈ (h.frameBuf (colOf tile)).noted ∧
      (∀ u, u ≠ (tile : Nat) → h.tile u = s.hub.tile u) ∧ (∀ c, c ≠ colOf tile → c ≠ s.hub.caneFor (colOf tile) → h.cane c = s.hub.cane c) ∧
      (∀ i, i ≠ colOf tile → h.frameBuf i = s.hub.frameBuf i) ∧
      s.hub.rest h = { s.hub with tiles := h.tiles, trace := h.trace, canes := h.canes } ∧ s.hub.keeps h [F.TRACE_DISCARDED_COUNT.addr])

/-- A closed frame is written at TRACE_WPTR, 64 bytes and no other, and the pointer moves on; at the end of a STOP ring the ring freezes FULL; frames open for TRACE_FLUSH_LIMIT close; after a loss the next frame begins with OVERFLOW; a spur trigger on an armed trigger records tile, source and window; a filter write is stored and broadcast, a bad rectangle is not; the broadcast is over with every acknowledgement (48 HCLK later at the soonest, log entry 328), and where one is missing it is over 256 HCLK later with BCAST_FAIL. -/
def Obligations.frames_go_to_the_ring_and_triggers_are_recorded : Prop :=
  (∀ (s : State) (buffer : Fin 129) (ws : List Word),
    s.hub.calm = true → (s.hub.frameBuf buffer).ready = some ws → ws.length ≤ 15 → s.hub.frozenRing = false → s.hub.guarded = false →
    s.hub.wptr + 64 < s.hub.ringLen → s.hub.trace.postLeft = none →
    Answers (.traceFrameWritten buffer false) s fun h =>
      (∀ i, i < 64 → memRead h.store.mem (s.hub.geo.ringAt + s.hub.wptr + i) = (frameBytes buffer ws (s.hub.frameBuf buffer).readyLoss (s.hub.frameBuf buffer).seq).getD i 0) ∧
      (∀ a, a < s.hub.geo.ringAt + s.hub.wptr ∨ s.hub.geo.ringAt + s.hub.wptr + 64 ≤ a → memRead h.store.mem a = memRead s.hub.store.mem a) ∧
      h.wptr = (s.hub.wptr + 64) % 2 ^ 64 ∧
      h.frameBuf buffer = { s.hub.frameBuf buffer with ready := none, readyLoss := false, seq := ((s.hub.frameBuf buffer).seq + 1) % 65536 } ∧
      h.reg64 R.TRACE_FRAMES_LO = (s.hub.reg64 R.TRACE_FRAMES_LO + 1) % 2 ^ 64 ∧
      s.hub.rest h = { s.hub with trace := h.trace, cell := h.cell, store := h.store } ∧
      s.hub.keeps h [R.TRACE_WPTR_LO, R.TRACE_WPTR_HI, R.TRACE_FRAMES_LO, R.TRACE_FRAMES_HI]) ∧
  (∀ (s : State) (buffer : Fin 129) (ws : List Word),
    s.hub.calm = true → (s.hub.frameBuf buffer).ready = some ws → ws.length ≤ 15 → s.hub.frozenRing = false → s.hub.guarded = false →
    s.hub.wptr < s.hub.ringLen → s.hub.ringLen ≤ s.hub.wptr + 64 → s.hub.trace.ringMode = 1 → s.hub.trace.postLeft = none →
    Answers (.traceFrameWritten buffer false) s fun h =>
      (∀ i, i < 64 → memRead h.store.mem (s.hub.geo.ringAt + s.hub.wptr + i) = (frameBytes buffer ws (s.hub.frameBuf buffer).readyLoss (s.hub.frameBuf buffer).seq).getD i 0) ∧
      (∀ a, a < s.hub.geo.ringAt + s.hub.wptr ∨ s.hub.geo.ringAt + s.hub.wptr + 64 ≤ a → memRead h.store.mem a = memRead s.hub.store.mem a) ∧
      h.rd F.TRACE_STATE_FROZEN = 8 ∧ h.wptr = (s.hub.wptr + 64) % 2 ^ 64 ∧ h.shows Ev.RING_FROZEN 8 = true ∧
      s.hub.rest h = { s.hub with trace := h.trace, cell := h.cell, store := h.store } ∧
      s.hub.keeps h [R.TRACE_WPTR_LO, R.TRACE_WPTR_HI, R.TRACE_FRAMES_LO, R.TRACE_FRAMES_HI, R.TRACE_STATE]) ∧
  (∀ (s : State) (i : Nat),
    s.hub.calm = true → i ∈ s.hub.trace.frames.keys →
    Answers .traceFlushLimit s fun h =>
      h.frameBuf i = (if (s.hub.frameBuf i).since + s.hub.flushLimit ≤ s.hub.time.hclk then (s.hub.frameBuf i).close else s.hub.frameBuf i) ∧
      s.hub.rest h = { s.hub with trace := h.trace } ∧ s.hub.keeps h []) ∧
  (∀ (s : State) (column : Cane) (row : Nat),
    s.hub.calm = true → (s.hub.frameBuf column).lost ≠ 0 → s.hub.frozenRing = false →
    ((s.hub.frameBuf column).words = [] ∨ (s.hub.frameBuf column).ready = none) → row ∈ (s.hub.frameBuf column).noted →
    Answers (.frameBufferFree column) s fun h =>
      (h.frameBuf column).words = packet Pk.OVERFLOW 0 0 ([(s.hub.frameBuf column).lost + 2 ^ 24] ++ two (s.hub.frameBuf column).lostFirst ++ two (s.hub.frameBuf column).lostLast) ∧
      (h.frameBuf column).lost = 0 ∧ (h.frameBuf column).loss = true ∧ (h.tile (tileAt column row)).syncDue = some 3 ∧
      (h.tile (tileAt column row)).chain = none ∧
      (∀ t, (∀ r ∈ (s.hub.frameBuf column).noted, tileAt column r ≠ t) → h.tile t = s.hub.tile t) ∧
      s.hub.rest h = { s.hub with tiles := h.tiles, trace := h.trace } ∧ s.hub.keeps h []) ∧
  (∀ (s : State) (tile : TileId) (event : Bool) (window : Fin 4),
    s.hub.calm = true → (s.hub.tile tile).trigs.contains (b2n event, (window : Nat)) = true → s.hub.flag F.TRACE_STATE_ARMED = true →
    s.hub.flag F.CORK_TRIG_SCOPE_EN = false →
    Answers (.spurTriggerRx tile event window) s fun h =>
      h.rd F.TRACE_STATE_ARMED = 0 ∧ h.rd F.TRACE_STATE_TRIGGERED = 1 ∧
      h.reg R.TRACE_TRIG_INFO = b2n event + window * 4 + tile * 16 + 2 ^ 18 ∧ h.reg64 R.TRACE_TRIG_GCN_LO = s.hub.now % 2 ^ 64 ∧
      h.shows Ev.TRIGGERED tile = true ∧
      h.tile tile = { s.hub.tile tile with trigs := (s.hub.tile tile).trigs.erase (b2n event, (window : Nat)) } ∧
      (∀ u, u ≠ (tile : Nat) → h.tile u = s.hub.tile u) ∧ s.hub.rest h = { s.hub with trace := h.trace, tiles := h.tiles } ∧
      s.hub.keeps h [R.TRACE_STATE, R.TRACE_TRIG_INFO, R.TRACE_TRIG_GCN_LO, R.TRACE_TRIG_GCN_HI, R.TRACE_TRIG_WPTR_LO, R.TRACE_TRIG_WPTR_HI]) ∧
  (∀ (s : State) (tile : TileId) (event : Bool) (window : Fin 4),
    s.hub.calm = true → (s.hub.tile tile).trigs.contains (b2n event, (window : Nat)) = true → s.hub.flag F.TRACE_STATE_ARMED = false →
    s.hub.flag F.TRACE_STATE_TRIGGERED = true →
    Answers (.spurTriggerRx tile event window) s fun h =>
      h.rd F.TRACE_TRIG_INFO_LATER = sat F.TRACE_TRIG_INFO_LATER.width (s.hub.rd F.TRACE_TRIG_INFO_LATER + 1) ∧
      h.tile tile = { s.hub.tile tile with trigs := (s.hub.tile tile).trigs.erase (b2n event, (window : Nat)) } ∧
      (∀ u, u ≠ (tile : Nat) → h.tile u = s.hub.tile u) ∧ s.hub.rest h = { s.hub with tiles := h.tiles } ∧ s.hub.keeps h [R.TRACE_TRIG_INFO]) ∧
  (∀ (s : State) (tile : TileId) (event : Bool) (window : Fin 4),
    s.hub.calm = true → (s.hub.tile tile).trigs.contains (b2n event, (window : Nat)) = false →
    Answers (.spurTriggerRx tile event window) s fun h =>
      s.hub.rest h = s.hub ∧ s.hub.keeps h []) ∧
  (∀ (s : State) (r : Req) (v : Word),
    s.hub.calm = true → s.hub.takesWrite r R.TRACEF_RECT v.toNat = true → (rectOf v.toNat).bad = false →
    Answers (.tracefWrite r 0x048#12 v) s fun h =>
      h.tookWrite r ∧ h.reg R.TRACEF_RECT = v.toNat &&& 0x7F7F7F7F ∧ h.rd F.TRACEF_BCAST_PENDING = 1 ∧
      h.trace.bcastAt = some s.hub.time.hclk ∧ s.hub.rest h = { s.hub with trace := h.trace } ∧
      s.hub.keeps h [R.TRACEF_RECT, R.TRACEF_BCAST]) ∧
  (∀ (s : State) (r : Req) (v : Word),
    s.hub.calm = true → s.hub.takesWrite r R.TRACEF_RECT v.toNat = true → (rectOf v.toNat).bad = true →
    Answers (.tracefWrite r 0x048#12 v) s fun h =>
      h.tookWrite r ∧ h.reg R.TRACEF_RECT = s.hub.reg R.TRACEF_RECT ∧ h.hasErr Er.TRACEF_ARG_RANGE = true ∧ s.hub.rest h = s.hub ∧
      s.hub.keeps h [R.PG_ERROR + Pg.TRACEF * 0x1000, R.PG_ERROR_INFO + Pg.TRACEF * 0x1000]) ∧
  (∀ (s : State) (missing : Bool) (t : Nat),
    s.hub.calm = true → s.hub.trace.bcastAt = some t → s.hub.elapsed t (if missing then 256 else 48) = true →
    Answers (.tracefBcastTimeout missing) s fun h =>
      h.rd F.TRACEF_BCAST_PENDING = 0 ∧ h.trace.bcastAt = none ∧ (missing = true → h.hasErr Er.TRACEF_BCAST_FAIL = true) ∧
      s.hub.rest h = { s.hub with trace := h.trace } ∧
      s.hub.keeps h [R.TRACEF_BCAST, R.PG_ERROR + Pg.TRACEF * 0x1000, R.PG_ERROR_INFO + Pg.TRACEF * 0x1000])

/-- A scheduler tick with a free buffer requests a sample of the tile it chooses, without one it is counted as throttled; a request arms its spur 8 HCLK later; an armed spur samples an eligible operation, in alternate halves where all columns would not fit, or, while its cane is turned downward, ends the request ABANDONED; a request that misses its operation ends MISSED, one that overstays its residency LATE with TASTE_LOSS, a damaged sample CORRUPT; a good sample, its result written, waits for a taster; a result the tasters and the tile agree on ends TASTED. -/
def Obligations.tasting_requests_samples_and_judges : Prop :=
  (∀ (s : State) (b : Nat) (z : Nat) (left : Nat) (t : Nat) (i : Nat),
    s.hub.calm = true → s.hub.flag F.TASTE_CTRL_EN = true → s.hub.rd F.TASTE_INTERVAL_HCLK = i →
    s.hub.elapsed s.hub.taste.lastTick (if i < 25000 then 25000 else i) = true → s.hub.tasteOrder ≠ [] → s.hub.freeBuf = some b →
    s.hub.tasteChoice s.hub.tasteOrder = some (z, left, t) →
    Answers .tasteTick s fun h =>
      h.sampBuf b = { tile := t, slot := z, req := s.hub.taste.nextReq } ∧
      h.tile t = { s.hub.tile t with taste := some { req := s.hub.taste.nextReq } } ∧ (∀ u, u ≠ t → h.tile u = s.hub.tile u) ∧
      h.taste.lastTick = s.hub.time.hclk ∧ h.taste.nextReq = (s.hub.taste.nextReq + 1) % 2 ^ 32 ∧
      h.taste.stats.get (z * 8 + Tc.REQUESTED) 0 = sat 32 (s.hub.taste.stats.get (z * 8 + Tc.REQUESTED) 0 + 1) ∧
      s.hub.rest h = { s.hub with taste := h.taste, tiles := h.tiles } ∧ s.hub.keeps h []) ∧
  (∀ (s : State) (i : Nat),
    s.hub.calm = true → s.hub.flag F.TASTE_CTRL_EN = true → s.hub.rd F.TASTE_INTERVAL_HCLK = i →
    s.hub.elapsed s.hub.taste.lastTick (if i < 25000 then 25000 else i) = true → s.hub.tasteOrder ≠ [] → s.hub.freeBuf = none →
    Answers .tasteTick s fun h =>
      h.rd F.TASTE_THROTTLED_COUNT = sat F.TASTE_THROTTLED_COUNT.width (s.hub.rd F.TASTE_THROTTLED_COUNT + 1) ∧
      h.taste = { s.hub.taste with lastTick := s.hub.time.hclk } ∧ s.hub.rest h = { s.hub with taste := h.taste } ∧
      s.hub.keeps h [F.TASTE_THROTTLED_COUNT.addr]) ∧
  (∀ (s : State) (t : TileId) (q : SpurTaste),
    s.hub.calm = true → (s.hub.tile t).taste = some q → q.armAt = 0 →
    Answers (.tasteRequestRx t) s fun h =>
      h.tile t = { s.hub.tile t with taste := some { q with armAt := s.hub.time.hclk + 8, armScn := (s.hub.tile t).scn } } ∧
      (∀ u, u ≠ (t : Nat) → h.tile u = s.hub.tile u) ∧ s.hub.rest h = { s.hub with tiles := h.tiles } ∧ s.hub.keeps h []) ∧
  (∀ (s : State) (t : TileId) (desc : OpDesc) (q : SpurTaste) (half : Bool),
    s.hub.calm = true → (s.hub.tile t).taste = some q → s.hub.tasteArmed q = true → (s.hub.tile t).gated = false →
    s.hub.tasteEligible ((s.hub.bufOf t).map s.hub.sampBuf) (s.hub.tile t).slot desc = true →
    s.hub.caneDown (s.hub.caneFor (colOf t)) = false →
    half = (desc.kind == 1 && sampleMax < 80 + Sh.len (s.hub.sampleHeader t q desc (s.hub.tile t).scn false false)) →
    Answers (.tasteOpIssue t desc) s fun h =>
      h.tile t = { s.hub.tile t with taste := some { q with started := true, ns := (s.hub.tile t).scn, header := if half then s.hub.sampleHeader t q desc (s.hub.tile t).scn true (s.hub.tile t).halfHigh else s.hub.sampleHeader t q desc (s.hub.tile t).scn false false, desc := desc }, halfHigh := half != (s.hub.tile t).halfHigh } ∧
      (∀ u, u ≠ (t : Nat) → h.tile u = s.hub.tile u) ∧ s.hub.rest h = { s.hub with tiles := h.tiles } ∧ s.hub.keeps h []) ∧
  (∀ (s : State) (t : TileId) (desc : OpDesc) (q : SpurTaste) (b : Nat) (x : SampBuf),
    s.hub.calm = true → (s.hub.tile t).taste = some q → s.hub.tasteArmed q = true → (s.hub.tile t).gated = false →
    s.hub.tasteEligible ((s.hub.bufOf t).map s.hub.sampBuf) (s.hub.tile t).slot desc = true →
    s.hub.caneDown (s.hub.caneFor (colOf t)) = true → s.hub.bufOf t = some b → s.hub.sampBuf b = x → x.tile = t → x.req = q.req →
    Answers (.tasteOpIssue t desc) s fun h =>
      (h.tile t).taste = none ∧ h.taste.bufs.keys.contains b = false ∧
      h.taste.stats.get (x.slot * 8 + Tc.ABANDONED) 0 = sat 32 (s.hub.taste.stats.get (x.slot * 8 + Tc.ABANDONED) 0 + 1) ∧
      s.hub.rest h = { s.hub with taste := h.taste, tiles := h.tiles } ∧ s.hub.keeps h []) ∧
  (∀ (s : State) (t : TileId) (q : SpurTaste) (b : Nat) (x : SampBuf),
    s.hub.calm = true → (s.hub.tile t).taste = some q → s.hub.bufOf t = some b → s.hub.sampBuf b = x → x.tile = t → x.req = q.req →
    s.hub.tasteArmed q = true → q.armScn + s.hub.tasteWait ≤ (s.hub.tile t).scn →
    Answers (.tasteMissed t) s fun h =>
      (h.tile t).taste = none ∧ h.taste.bufs.keys.contains b = false ∧
      h.taste.stats.get (x.slot * 8 + Tc.MISSED) 0 = sat 32 (s.hub.taste.stats.get (x.slot * 8 + Tc.MISSED) 0 + 1) ∧
      h.taste.lossAt = s.hub.taste.lossAt ∧ s.hub.rest h = { s.hub with taste := h.taste, tiles := h.tiles } ∧ s.hub.keeps h []) ∧
  (∀ (s : State) (t : TileId) (q : SpurTaste) (b : Nat) (x : SampBuf),
    s.hub.calm = true → (s.hub.tile t).taste = some q → s.hub.bufOf t = some b → s.hub.sampBuf b = x → x.tile = t → x.req = q.req →
    q.started = true → x.conf = none → q.ns + 1024 * s.hub.rdB F.TASTE_SLOT_RESIDENCY (s.hub.tile t).slot ≤ (s.hub.tile t).scn →
    s.hub.taste.lossAt = none →
    Answers (.tasteLate t) s fun h =>
      (h.tile t).taste = none ∧ h.taste.bufs.keys.contains b = false ∧
      h.taste.stats.get (x.slot * 8 + Tc.LATE) 0 = sat 32 (s.hub.taste.stats.get (x.slot * 8 + Tc.LATE) 0 + 1) ∧
      h.taste.lossAt = some s.hub.time.hclk ∧ h.shows Ev.TASTE_LOSS x.slot = true ∧
      s.hub.rest h = { s.hub with taste := h.taste, tiles := h.tiles } ∧ s.hub.keeps h []) ∧
  (∀ (s : State) (b : Fin 8) (q : SpurTaste) (x : SampBuf) (d : List Byte),
    s.hub.calm = true → s.hub.sampleDue b = true → s.hub.sampBuf b = x → (s.hub.tile x.tile).taste = some q →
    (q.header ++ s.hub.samplePayload x.tile q.header q.desc ++ sampleTrailer (q.header ++ s.hub.samplePayload x.tile q.header q.desc) (s.hub.samplePayload x.tile q.header q.desc).length 0) = d →
    sampleOk d = true → sampleFits d = true → ((s.hub.profileOf (Sh.profile d)).filter (fun p => Sh.legal p d)).isSome = true →
    Answers (.sampleRx b 0 none) s fun h =>
      (h.sampBuf b).ready = true ∧ (h.sampBuf b).data = d ∧ (h.sampBuf b).tile = x.tile ∧ (h.tile x.tile).taste = none ∧
      s.hub.rest h = { s.hub with taste := h.taste, tiles := h.tiles, canes := h.canes } ∧ s.hub.keeps h []) ∧
  (∀ (s : State) (b : Fin 8) (got : Option (List Byte)) (q : SpurTaste) (x : SampBuf),
    s.hub.calm = true → s.hub.sampleDue b = true → s.hub.sampBuf b = x → (s.hub.tile x.tile).taste = some q → x.req = q.req →
    Answers (.sampleRx b 1 got) s fun h =>
      h.taste.bufs.keys.contains b = false ∧ (h.tile x.tile).taste = none ∧ h.hasErr Er.TASTE_SAMPLE_CHECK = true ∧
      h.taste.stats.get (x.slot * 8 + Tc.CORRUPT) 0 = sat 32 (s.hub.taste.stats.get (x.slot * 8 + Tc.CORRUPT) 0 + 1) ∧
      s.hub.rest h = { s.hub with taste := h.taste, tiles := h.tiles, canes := h.canes } ∧
      s.hub.keeps h [R.PG_ERROR + Pg.TASTE * 0x1000, R.PG_ERROR_INFO + Pg.TASTE * 0x1000]) ∧
  (∀ (s : State) (n : Fin 4) (b : Nat) (x : SampBuf) (p : Prof),
    s.hub.calm = true → s.hub.taste.bufs.cells = [(b, x)] → x.busyOn = some (n : Nat) → x.ready = true → x.conf = none → x.tasters = [] →
    s.hub.profileOf (Sh.profile x.data) = some p →
    (differing (s.hub.rdB F.TASTE_SLOT_MODE x.slot) (s.hub.rdB F.TASTE_SLOT_ULP_TOL x.slot) x.data (tileResult x.data) (resultOf x.data (contractResult p x.data).toList)).isEmpty = true →
    Answers (.tasterResult n none) s fun h =>
      h.taste.bufs.keys.contains b = false ∧
      h.taste.stats.get (x.slot * 8 + Tc.TASTED) 0 = sat 32 (s.hub.taste.stats.get (x.slot * 8 + Tc.TASTED) 0 + 1) ∧
      s.hub.rest h = { s.hub with taste := h.taste, tiles := h.tiles } ∧ s.hub.keeps h [])

/-- SAMPLE_NOW requests a sample of the tile of TASTE_ARG, UNLOCK_EVID unlocks the evidence, RETIRE_TASTER and RESTORE_TASTER change the tasters in service with their events (stated with no sample waiting), CLEAR_STATS zeroes the counters; a read of TASTE_EVID_DATA answers the word at its offset and moves the offset on. -/
def Obligations.taste_commands_act_on_buffers_evidence_and_tasters : Prop :=
  (∀ (s : State) (r : Req) (b : Nat) (t : Nat),
    s.hub.calm = true → s.hub.takesWrite r R.TASTE_CMD 1 = true → s.hub.tasteCheck 1 = St.OK → s.hub.freeBuf = some b →
    s.hub.rd F.TASTE_ARG_TILE = t →
    Answers (.sampleNow r) s fun h =>
      h.tookWrite r ∧ h.sampBuf b = { tile := t, slot := (s.hub.tile t).slot, req := s.hub.taste.nextReq } ∧
      h.tile t = { s.hub.tile t with taste := some { req := s.hub.taste.nextReq } } ∧ (∀ u, u ≠ t → h.tile u = s.hub.tile u) ∧
      h.rd F.TASTE_CMD_STATUS_STATUS = St.OK ∧ h.rd F.TASTE_CMD_STATUS_OP = 1 ∧
      s.hub.rest h = { s.hub with taste := h.taste, tiles := h.tiles } ∧ s.hub.keeps h [R.TASTE_CMD_STATUS]) ∧
  (∀ (s : State) (r : Req),
    s.hub.calm = true → s.hub.takesWrite r R.TASTE_CMD 2 = true → s.hub.tasteCheck 2 = St.OK →
    Answers (.unlockEvid r) s fun h =>
      h.tookWrite r ∧ h.rd F.TASTE_STATE_EVID_LOCKED = 0 ∧ h.rd F.TASTE_CMD_STATUS_STATUS = St.OK ∧ s.hub.rest h = s.hub ∧
      s.hub.keeps h [R.TASTE_CMD_STATUS, R.TASTE_STATE]) ∧
  (∀ (s : State) (r : Req) (n : Nat),
    s.hub.calm = true → s.hub.takesWrite r R.TASTE_CMD 3 = true → s.hub.tasteCheck 3 = St.OK → s.hub.rd F.TASTE_ARG_TASTER = n →
    s.hub.tasterUp n = true → s.hub.taste.bufs.cells = [] →
    Answers (.retireTaster r) s fun h =>
      h.tookWrite r ∧ h.taste.retired = insertNat n s.hub.taste.retired ∧ h.taste.bistOk = removeNat n s.hub.taste.bistOk ∧
      h.shows Ev.TASTER_LOST n = true ∧ h.rd F.TASTE_CMD_STATUS_STATUS = St.OK ∧ s.hub.rest h = { s.hub with taste := h.taste } ∧
      s.hub.keeps h [R.TASTE_CMD_STATUS]) ∧
  (∀ (s : State) (r : Req) (n : Nat),
    s.hub.calm = true → s.hub.takesWrite r R.TASTE_CMD 4 = true → s.hub.tasteCheck 4 = St.OK → s.hub.rd F.TASTE_ARG_TASTER = n →
    s.hub.taste.bufs.cells = [] →
    Answers (.restoreTaster r) s fun h =>
      h.tookWrite r ∧ h.taste.retired = removeNat n s.hub.taste.retired ∧ h.shows Ev.TASTER_RESTORED n = true ∧
      h.rd F.TASTE_CMD_STATUS_STATUS = St.OK ∧ s.hub.rest h = { s.hub with taste := h.taste } ∧ s.hub.keeps h [R.TASTE_CMD_STATUS]) ∧
  (∀ (s : State) (r : Req),
    s.hub.calm = true → s.hub.takesWrite r R.TASTE_CMD 5 = true → s.hub.tasteCheck 5 = St.OK →
    Answers (.tasteClearStats r) s fun h =>
      h.tookWrite r ∧ h.taste = { s.hub.taste with stats := {}, lossAt := none } ∧ h.rd F.TASTE_THROTTLED_COUNT = 0 ∧
      h.rd F.TASTE_CMD_STATUS_STATUS = St.OK ∧ s.hub.rest h = { s.hub with taste := h.taste } ∧
      s.hub.keeps h [R.TASTE_CMD_STATUS, F.TASTE_THROTTLED_COUNT.addr]) ∧
  (∀ (s : State) (r : Req) (a : Nat),
    s.hub.calm = true → s.hub.accessStatus r R.TASTE_EVID_DATA false 0 = St.OK → s.hub.rd F.TASTE_EVID_ADDR_OFFSET / 4 * 4 = a →
    (Sh.priv s.hub.taste.evidSample ≠ 2 ∨ isExternal r = false ∨ s.hub.covers Right.SECURE s.hub.taste.evidSlot = true) →
    Answers (.evidDataRead r) s fun h =>
      h.bus.get (reqCode r) {} = { value := (if a < 0x6000 then leAt s.hub.taste.evidSample a 4 else leAt s.hub.taste.evidWant (a - 0x6000) 4), status := St.OK } ∧
      h.rd F.TASTE_EVID_ADDR_OFFSET = (a + 4) % 2 ^ 15 ∧ s.hub.rest h = s.hub ∧ s.hub.keeps h [F.TASTE_EVID_ADDR_OFFSET.addr]) ∧
  (∀ (s : State) (r : Req),
    s.hub.calm = true → s.hub.accessStatus r R.TASTE_EVID_DATA false 0 = St.OK → Sh.priv s.hub.taste.evidSample = 2 → isExternal r = true →
    s.hub.covers Right.SECURE s.hub.taste.evidSlot = false →
    Answers (.evidDataRead r) s fun h =>
      h.bus.get (reqCode r) {} = { value := 0, status := St.OK } ∧ s.hub.rest h = s.hub ∧ s.hub.keeps h [F.TASTE_EVID_ADDR_OFFSET.addr])

/-- An accepted RUN_TILES or RUN_EXT starts a pass under DIGEST_ARG with DONE 0, ABORT ends both kinds and CLEAR_STATS zeroes the count; the end of a tile pass shows the sum of the partials modulo 2^64, that of an external pass its own sum, each with DIGEST_DONE and FINAL OK (stated for a pass that neither compares nor repeats); the results of a tile pass wait while a cane of its tiles is turned downward; a repeating pass starts again when its period is over (stated without FED); a DIGEST of another hub starts a pass over the slot with its tag. -/
def Obligations.digest_passes_sum_what_they_name : Prop :=
  (∀ (s : State) (r : Req) (a : Nat),
    s.hub.calm = true → s.hub.takesWrite r R.DIGEST_CMD 1 = true → s.hub.digestCheck 1 = St.OK → s.hub.reg R.DIGEST_ARG = a →
    Da.fed a = false →
    Answers (.runTiles r) s fun h =>
      h.tookWrite r ∧ h.digTiles = { active := true, slot := Da.slot a, set := Da.set a, arg := a, startedAt := s.hub.time.hclk } ∧
      h.rd F.DIGEST_CMD_STATUS_STATUS = St.OK ∧ h.rd F.DIGEST_CMD_STATUS_OP = 1 ∧ h.rd F.DIGEST_CMD_STATUS_DONE = 0 ∧
      s.hub.rest h = { s.hub with digTiles := h.digTiles } ∧ s.hub.keeps h [R.DIGEST_CMD_STATUS]) ∧
  (∀ (s : State) (r : Req) (a : Nat),
    s.hub.calm = true → s.hub.takesWrite r R.DIGEST_CMD 2 = true → s.hub.digestCheck 2 = St.OK → s.hub.reg R.DIGEST_ARG = a →
    Answers (.runExt r) s fun h =>
      h.tookWrite r ∧ h.digExt = { active := true, arg := a, startedAt := s.hub.time.hclk } ∧
      h.outstanding Cu.DIGEST = s.hub.outstanding Cu.DIGEST + 1 ∧ h.rd F.DIGEST_CMD_STATUS_STATUS = St.OK ∧
      h.rd F.DIGEST_CMD_STATUS_DONE = 0 ∧ s.hub.rest h = { s.hub with digExt := h.digExt, cell := h.cell } ∧
      s.hub.keeps h [R.DIGEST_CMD_STATUS]) ∧
  (∀ (s : State) (r : Req) (a : Nat),
    s.hub.calm = true → s.hub.takesWrite r R.DIGEST_CMD 3 = true → s.hub.digestCheck 3 = St.OK → s.hub.reg R.DIGEST_ARG = a →
    s.hub.digTiles.fedReq = none →
    Answers (.digestAbort r) s fun h =>
      h.tookWrite r ∧ h.digTiles = {} ∧ h.digExt = {} ∧ h.digAgain = [] ∧ h.rd F.DIGEST_CMD_STATUS_STATUS = St.OK ∧
      h.rd F.DIGEST_CMD_STATUS_DONE = 1 ∧ s.hub.rest h = { s.hub with digTiles := h.digTiles, digExt := h.digExt, digAgain := h.digAgain } ∧
      s.hub.keeps h [R.DIGEST_CMD_STATUS]) ∧
  (∀ (s : State) (r : Req) (a : Nat),
    s.hub.calm = true → s.hub.takesWrite r R.DIGEST_CMD 4 = true → s.hub.digestCheck 4 = St.OK → s.hub.reg R.DIGEST_ARG = a →
    Answers (.digestClearStats r) s fun h =>
      h.tookWrite r ∧ h.rd F.DIGEST_PASSES_COUNT = 0 ∧ h.rd F.DIGEST_CMD_STATUS_STATUS = St.OK ∧ s.hub.rest h = s.hub ∧
      s.hub.keeps h [R.DIGEST_CMD_STATUS, R.DIGEST_PASSES]) ∧
  (∀ (s : State) (p : Pass),
    s.hub.calm = true → s.hub.digTiles = p → p.own = false → Da.perTile p.arg = false → s.hub.sumsWait = false → p.active = true →
    Da.compare p.arg = false → Da.repeats p.arg = false → p.fedReq = none → p.missing = none → p.fedBad = false → p.fedLeft = [] →
    p.diff = [] →
    Answers (.digestPassEnd false none) s fun h =>
      h.reg64 R.DIGEST_RESULT_LO = (p.sum + sumNat ((s.hub.slotTiles p.slot).map (fun t => s.hub.tilePartial t p.set))) % 2 ^ 64 ∧
      h.digTiles.active = false ∧ h.rd F.DIGEST_CMD_STATUS_FINAL = St.OK ∧
      h.rd F.DIGEST_PASSES_COUNT = sat F.DIGEST_PASSES_COUNT.width (s.hub.rd F.DIGEST_PASSES_COUNT + 1) ∧
      h.shows Ev.DIGEST_DONE p.slot = true ∧ (∀ u, u ∉ s.hub.slotTiles p.slot → h.tile u = s.hub.tile u) ∧
      s.hub.rest h = { s.hub with digTiles := h.digTiles, tiles := h.tiles } ∧
      s.hub.keeps h [R.DIGEST_CMD_STATUS, R.DIGEST_PASSES, R.DIGEST_DONE_GCN_LO, R.DIGEST_DONE_GCN_HI, R.DIGEST_RESULT_LO, R.DIGEST_RESULT_HI, R.DIGEST_RESULT_INFO, R.DIGEST_NAMED]) ∧
  (∀ (s : State) (crcBad : Option TileId) (p : Pass),
    s.hub.calm = true → s.hub.digExt = p → p.own = true → p.active = true → Da.compare p.arg = false → Da.repeats p.arg = false →
    p.fedReq = none → p.missing = none → p.fedBad = false → p.fedLeft = [] → p.diff = [] →
    Answers (.digestPassEnd true crcBad) s fun h =>
      h.reg64 R.DIGEST_RESULT_LO = p.sum % 2 ^ 64 ∧ h.digExt.active = false ∧ h.rd F.DIGEST_CMD_STATUS_FINAL = St.OK ∧
      h.shows Ev.DIGEST_DONE (Da.region p.arg) = true ∧ s.hub.rest h = { s.hub with digExt := h.digExt } ∧
      s.hub.keeps h [R.DIGEST_CMD_STATUS, R.DIGEST_PASSES, R.DIGEST_DONE_GCN_LO, R.DIGEST_DONE_GCN_HI, R.DIGEST_RESULT_LO, R.DIGEST_RESULT_HI, R.DIGEST_RESULT_INFO, R.DIGEST_NAMED]) ∧
  (∀ (s : State) (p : Pass),
    s.hub.calm = true → s.hub.digTiles = p → p.active = true → p.own = false → s.hub.sumsWait = true →
    Answers (.digestPassEnd false none) s fun h =>
      s.hub.rest h = s.hub ∧ s.hub.keeps h []) ∧
  (∀ (s : State) (a : Again),
    s.hub.calm = true → s.hub.digAgain.find? (fun x => x.ext == true && x.nextAt ≤ s.hub.time.hclk) = some a → s.hub.digExt.active = false →
    Answers (.digestRepeat true) s fun h =>
      h.digExt = { active := true, arg := a.arg, startedAt := s.hub.time.hclk, hasBase := a.hasBase } ∧
      h.outstanding Cu.DIGEST = s.hub.outstanding Cu.DIGEST + 1 ∧ h.rd F.DIGEST_CMD_STATUS_DONE = 0 ∧
      s.hub.rest h = { s.hub with digExt := h.digExt, cell := h.cell } ∧ s.hub.keeps h [R.DIGEST_CMD_STATUS]) ∧
  (∀ (s : State) (a : Again),
    s.hub.calm = true → s.hub.digAgain.find? (fun x => x.ext == false && x.nextAt ≤ s.hub.time.hclk) = some a →
    s.hub.digTiles.active = false → (s.hub.dom (Da.slot a.arg)).st ≠ .empty → Da.fed a.arg = false →
    Answers (.digestRepeat false) s fun h =>
      h.digTiles = { active := true, slot := Da.slot a.arg, set := Da.set a.arg, arg := a.arg, startedAt := s.hub.time.hclk, hasBase := a.hasBase } ∧
      h.rd F.DIGEST_CMD_STATUS_DONE = 0 ∧ s.hub.rest h = { s.hub with digTiles := h.digTiles } ∧ s.hub.keeps h [R.DIGEST_CMD_STATUS]) ∧
  (∀ (s : State) (hd : Hdr2) (tag : BitVec 16) (set : BitVec 8) (flags : BitVec 8) (z : Nat),
    s.hub.calm = true → s.hub.takesFrame hd Op.DIGEST = true → s.hub.flag F.FED_CTRL_EN = true → s.hub.isSafe = false →
    s.hub.openSlots.find? (fun y => (s.hub.dom y).tag == tag.toNat) = some z → z < 64 → s.hub.digTiles.active = false →
    Answers (.fedDigestRx hd tag set flags) s fun h =>
      h.digTiles = { active := true, slot := z, set := set.toNat % 8, arg := z + set.toNat % 8 * 64, startedAt := s.hub.time.hclk, fedReq := some ((hd.src : Nat), (hd.txn : Nat)) } ∧
      s.hub.rest h = { s.hub with digTiles := h.digTiles, fed := h.fed } ∧
      s.hub.keeps h [R.DIGEST_CMD_STATUS, R.PG_ERROR + Pg.FED * 0x1000, R.PG_ERROR_INFO + Pg.FED * 0x1000])

/-- At the end of a window the counts of a slot are summed per kind into LAST and the total, and the counters of its spurs clear (stated for one open slot); REARM_FIRST rearms the selected pair; CLEAR_STATS zeroes every total. -/
def Obligations.the_numeric_watch_collects_at_the_end_of_its_window : Prop :=
  (∀ (s : State) (z : Nat) (k : Nat) (t : Nat),
    s.hub.calm = true → s.hub.flag F.NUMW_CTRL_EN = true → s.hub.numwEnd ≤ s.hub.now → s.hub.openSlots = [z] → t ∈ s.hub.slotTiles z → k < 8 →
    Answers (.numwWindowEnd none) s fun h =>
      (h.numwPair z k).last = sumNat ((s.hub.slotTiles z).map (fun u => nth (s.hub.tile u).numw k 0)) ∧
      (h.numwPair z k).total = ((s.hub.numwPair z k).total + (h.numwPair z k).last) % 2 ^ 64 ∧ h.tile t = { s.hub.tile t with numw := [] } ∧
      (∀ u, u ∉ s.hub.slotTiles z → h.tile u = s.hub.tile u) ∧ h.numwHeld = {} ∧
      s.hub.rest h = { s.hub with numw := h.numw, numwHeld := h.numwHeld, tiles := h.tiles, time := { s.hub.time with numwFrom := h.time.numwFrom } } ∧
      s.hub.keeps h []) ∧
  (∀ (s : State) (r : Req) (z : Nat) (k : Nat),
    s.hub.calm = true → s.hub.takesWrite r R.NUMW_CMD 1 = true → s.hub.numwCheck 1 = St.OK → s.hub.rd F.NUMW_SEL_SLOT = z →
    s.hub.rd F.NUMW_SEL_KIND = k →
    Answers (.rearmFirst r) s fun h =>
      h.tookWrite r ∧ h.numwPair z k = { s.hub.numwPair z k with fired := false, first := none } ∧
      (∀ t ∈ s.hub.slotTiles z, nth (h.tile t).firstScn k none = none) ∧ (∀ u, u ∉ s.hub.slotTiles z → h.tile u = s.hub.tile u) ∧
      h.rd F.NUMW_CMD_STATUS_STATUS = St.OK ∧ s.hub.rest h = { s.hub with numw := h.numw, tiles := h.tiles } ∧
      s.hub.keeps h [R.NUMW_CMD_STATUS]) ∧
  (∀ (s : State) (r : Req) (z : Nat) (k : Nat),
    s.hub.calm = true → s.hub.takesWrite r R.NUMW_CMD 2 = true → s.hub.numwCheck 2 = St.OK →
    Answers (.numwClearStats r) s fun h =>
      h.tookWrite r ∧ h.numwPair z k = { s.hub.numwPair z k with total := 0 } ∧ h.rd F.NUMW_CMD_STATUS_STATUS = St.OK ∧
      s.hub.rest h = { s.hub with numw := h.numw } ∧ s.hub.keeps h [R.NUMW_CMD_STATUS])

/-- A complete beat restarts the timer and, but for the first, enters the history; a partial one is recorded as PARTIAL and audited; a timer above its threshold fires with HANG_BEAT; a strobe fault is latched once per tile; an audit goes out every 16 HCLK, one that agrees changes nothing, one that differs is recorded with SCN_DIVERGE (stated for slots whose policies are NONE). -/
def Obligations.beats_audits_and_timers_find_faults : Prop :=
  (∀ (s : State) (z : Slot) (n : Nat),
    s.hub.calm = true → s.hub.flag F.HANG_CTRL_BEAT_EN = true → (s.hub.dom z).st ≠ .empty → s.hub.hangCtl.beats = [] →
    n = (s.hub.countedTiles z).length → s.hub.rdB F.HANG_MON_CFG_EN z = 1 → (s.hub.mon z).st ≠ 0 →
    Answers (.beatReportRx z n) s fun h =>
      (h.mon z).timer = 0 ∧
      (h.mon z).durs = (if (s.hub.mon z).openSkip then (s.hub.mon z).durs else ((s.hub.mon z).timer :: (s.hub.mon z).durs).take 16) ∧
      (h.mon z).openSkip = false ∧ (h.mon z).st = s.hub.monState z (h.mon z).durs ∧ (h.mon z).policy = (s.hub.mon z).policy ∧
      (∀ y, y ≠ (z : Nat) → h.mon y = s.hub.mon y) ∧ s.hub.rest h = { s.hub with hang := h.hang } ∧ s.hub.keeps h []) ∧
  (∀ (s : State) (z : Slot) (n : Nat),
    s.hub.calm = true → s.hub.flag F.HANG_CTRL_BEAT_EN = true → (s.hub.dom z).st ≠ .empty → (s.hub.dom z).stopNow = false →
    s.hub.hangCtl.beats = [] → n ≠ (s.hub.countedTiles z).length → s.hub.rdB F.HANG_MON_CFG_DIV_POLICY z = 0 →
    Answers (.beatReportRx z n) s fun h =>
      (h.mon z).st = 3 ∧ h.hangCtl.audits = s.hub.hangCtl.audits ++ [{ slot := z, gq := s.hub.time.hclk + 32, names := true }] ∧
      h.reg R.HANG_LAST_FAULT = z * 0x10000 + 3 * 2 ^ 22 ∧ h.reg64 R.HANG_LAST_GCN_LO = s.hub.now % 2 ^ 64 ∧
      h.shows Ev.BEAT_PARTIAL z = true ∧ s.hub.rest h = { s.hub with hang := h.hang, hangCtl := h.hangCtl } ∧
      s.hub.keeps h [R.HANG_LAST_FAULT, R.HANG_LAST_DELTA, R.HANG_LAST_GCN_LO, R.HANG_LAST_GCN_HI]) ∧
  (∀ (s : State) (z : Nat),
    s.hub.calm = true → s.hub.openSlots = [z] → ((s.hub.mon z).st = 1 ∨ (s.hub.mon z).st = 2) → s.hub.rdB F.HANG_MON_CFG_EN z = 1 →
    s.hub.hangThreshold z < (s.hub.mon z).timer → s.hub.rdB F.HANG_MON_CFG_BEAT_POLICY z = 0 →
    Answers .hangThresholdExpiry s fun h =>
      h.mon z = { s.hub.mon z with st := 3 } ∧ (∀ y, y ≠ z → h.mon y = s.hub.mon y) ∧ h.reg R.HANG_LAST_FAULT = z * 0x10000 % 2 ^ 32 ∧
      h.shows Ev.HANG_BEAT z = true ∧ s.hub.rest h = { s.hub with hang := h.hang } ∧
      s.hub.keeps h [R.HANG_LAST_FAULT, R.HANG_LAST_DELTA, R.HANG_LAST_GCN_LO, R.HANG_LAST_GCN_HI]) ∧
  (∀ (s : State) (t : TileId) (z : Nat),
    s.hub.calm = true → (s.hub.tile t).readmit ≠ 2 → s.hub.flag F.HANG_CTRL_STROBE_EN = true → (s.hub.tile t).st = .inContext →
    (s.hub.tile t).scnValid = true → (s.hub.tile t).strobeFault = false → (s.hub.tile t).slot = z →
    s.hub.rdB F.HANG_MON_CFG_DIV_POLICY z = 0 →
    Answers (.strobeFaultRx t) s fun h =>
      h.tile t = { s.hub.tile t with strobeFault := true, strobeDue := false } ∧ (∀ u, u ≠ (t : Nat) → h.tile u = s.hub.tile u) ∧
      (h.mon z).st = 3 ∧ h.reg R.HANG_LAST_FAULT = (t + 0x4000 + z * 0x10000 + 2 * 2 ^ 22) % 2 ^ 32 ∧ h.shows Ev.SCN_STROBE t = true ∧
      s.hub.rest h = { s.hub with tiles := h.tiles, hang := h.hang } ∧
      s.hub.keeps h [R.HANG_LAST_FAULT, R.HANG_LAST_DELTA, R.HANG_LAST_GCN_LO, R.HANG_LAST_GCN_HI]) ∧
  (∀ (s : State) (z : Nat),
    s.hub.calm = true → s.hub.flag F.HANG_CTRL_AUDIT_EN = true → s.hub.elapsed s.hub.hangCtl.auditAt 16 = true →
    (s.hub.auditSlots.find? (fun y => s.hub.hangCtl.auditSlot < y) <|> s.hub.auditSlots.head?) = some z →
    Answers .auditTick s fun h =>
      h.hangCtl = { s.hub.hangCtl with auditAt := s.hub.time.hclk, auditSlot := z, audits := s.hub.hangCtl.audits ++ [{ slot := z, gq := s.hub.time.hclk + 32 }] } ∧
      s.hub.rest h = { s.hub with hangCtl := h.hangCtl } ∧ s.hub.keeps h []) ∧
  (∀ (s : State) (a : Audit) (more : List Audit),
    s.hub.calm = true → s.hub.hangCtl.audits = a :: more → a.diffs = some [] → (a.names = true ∨ (s.hub.mon a.slot).st ≠ 3) →
    Answers (.auditResult false) s fun h =>
      h.hangCtl = { s.hub.hangCtl with audits := more } ∧ s.hub.rest h = { s.hub with hangCtl := h.hangCtl } ∧ s.hub.keeps h []) ∧
  (∀ (s : State) (a : Audit) (more : List Audit) (d : Nat × Int) (ds : List (Nat × Int)),
    s.hub.calm = true → s.hub.hangCtl.audits = a :: more → a.diffs = some (d :: ds) → a.names = false → (s.hub.mon a.slot).st ≠ 3 →
    s.hub.rdB F.HANG_MON_CFG_DIV_POLICY a.slot = 0 →
    Answers (.auditResult false) s fun h =>
      h.hangCtl = { s.hub.hangCtl with audits := more } ∧ h.mon a.slot = { s.hub.mon a.slot with st := 3 } ∧
      (∀ y, y ≠ a.slot → h.mon y = s.hub.mon y) ∧ h.reg R.HANG_DIV_COUNT = sat 15 (ds.length + 1) ∧
      h.reg R.HANG_LAST_DELTA = satSigned 32 d.2 ∧
      h.shows Ev.SCN_DIVERGE ((if s.hub.auditAll a.slot (d :: ds) then a.slot else d.1)) = true ∧
      s.hub.rest h = { s.hub with hang := h.hang, hangCtl := h.hangCtl } ∧
      s.hub.keeps h [R.HANG_DIV_COUNT, R.HANG_LAST_FAULT, R.HANG_LAST_DELTA, R.HANG_LAST_GCN_LO, R.HANG_LAST_GCN_HI]) ∧
  (∀ (s : State) (a : Audit) (more : List Audit) (d : List (Nat × Int)),
    s.hub.calm = true → s.hub.hangCtl.audits = a :: more → a.diffs = some d → a.names = false → (s.hub.mon a.slot).st = 3 →
    s.hub.rd F.HANG_LAST_FAULT_SLOT = a.slot →
    Answers (.auditResult false) s fun h =>
      h.hangCtl = { s.hub.hangCtl with audits := more } ∧ h.reg R.HANG_DIV_COUNT = sat 15 d.length ∧
      h.reg R.HANG_LAST_DELTA = satSigned 32 ((d.map Prod.snd).headD 0) ∧ s.hub.rest h = { s.hub with hangCtl := h.hangCtl } ∧
      s.hub.keeps h [R.HANG_DIV_COUNT, R.HANG_LAST_DELTA]) ∧
  (∀ (s : State) (a : Audit) (more : List Audit) (d : List (Nat × Int)),
    s.hub.calm = true → s.hub.hangCtl.audits = a :: more → a.diffs = some d →
    Answers (.auditResult true) s fun h =>
      h.hangCtl = { s.hub.hangCtl with audits := more } ∧ h.hasErr Er.HANG_AUDIT_CRC = true ∧
      s.hub.rest h = { s.hub with hangCtl := h.hangCtl } ∧ s.hub.keeps h [R.PG_ERROR + Pg.HANG * 0x1000, R.PG_ERROR_INFO + Pg.HANG * 0x1000])

/-- FENCE asks for the fence of the slot, RELEASE withdraws it with FENCE_RELEASED, CLEAR_FIRED, CLEAR_HISTORY and CLEAR_STATS restart what they name; a drained slot is fenced with FENCED; the drain limit asserts abandon, and what the port abandoned leaves ABANDONED tiles with no request outstanding; the fence limit ends the fence with FENCE_LIMIT; a fence not acknowledged in 64 HCLK sets the error bit; a policy refused with BUSY offers its harvest again. -/
def Obligations.fences_are_asked_for_drained_and_released : Prop :=
  (∀ (s : State) (r : Req) (z : Nat),
    s.hub.calm = true → s.hub.takesWrite r R.HANG_CMD 1 = true → s.hub.hangCheck 1 = St.OK → s.hub.rd F.HANG_ARG_SLOT = z →
    (s.hub.mon z).fenceAt = none →
    Answers (.hangFence r) s fun h =>
      h.tookWrite r ∧ h.mon z = { s.hub.mon z with fenceAt := some s.hub.time.hclk, fenceAck := false, fenced := false, abandon := false } ∧
      (∀ y, y ≠ z → h.mon y = s.hub.mon y) ∧ h.rd F.HANG_CMD_STATUS_STATUS = St.OK ∧ h.rd F.HANG_CMD_STATUS_OP = 1 ∧
      s.hub.rest h = { s.hub with hang := h.hang } ∧ s.hub.keeps h [R.HANG_CMD_STATUS]) ∧
  (∀ (s : State) (r : Req) (z : Nat),
    s.hub.calm = true → s.hub.takesWrite r R.HANG_CMD 2 = true → s.hub.hangCheck 2 = St.OK → s.hub.rd F.HANG_ARG_SLOT = z →
    Answers (.hangRelease r) s fun h =>
      h.tookWrite r ∧ h.mon z = { s.hub.mon z with fenceAt := none, fenceAck := false, fenced := false, abandon := false } ∧
      (∀ y, y ≠ z → h.mon y = s.hub.mon y) ∧ h.rd F.HANG_CMD_STATUS_STATUS = St.OK ∧ h.shows Ev.FENCE_RELEASED z = true ∧
      s.hub.rest h = { s.hub with hang := h.hang } ∧ s.hub.keeps h [R.HANG_CMD_STATUS]) ∧
  (∀ (s : State) (r : Req) (z : Nat),
    s.hub.calm = true → s.hub.takesWrite r R.HANG_CMD 3 = true → s.hub.hangCheck 3 = St.OK → s.hub.rd F.HANG_ARG_SLOT = z →
    (s.hub.mon z).st = 3 →
    Answers (.clearFired r) s fun h =>
      h.tookWrite r ∧ h.mon z = { s.hub.mon z with st := s.hub.monState z (s.hub.mon z).durs, timer := 0 } ∧
      (∀ y, y ≠ z → h.mon y = s.hub.mon y) ∧ (∀ t ∈ s.hub.slotTiles z, (h.tile t).strobeFault = false) ∧
      (∀ u, u ∉ s.hub.slotTiles z → h.tile u = s.hub.tile u) ∧ h.rd F.HANG_CMD_STATUS_STATUS = St.OK ∧
      s.hub.rest h = { s.hub with hang := h.hang, tiles := h.tiles } ∧ s.hub.keeps h [R.HANG_CMD_STATUS]) ∧
  (∀ (s : State) (r : Req) (z : Nat),
    s.hub.calm = true → s.hub.takesWrite r R.HANG_CMD 4 = true → s.hub.hangCheck 4 = St.OK → s.hub.rd F.HANG_ARG_SLOT = z →
    Answers (.clearHistory r) s fun h =>
      h.tookWrite r ∧
      h.mon z = { s.hub.mon z with durs := [], timer := 0, openSkip := true, st := if s.hub.rdB F.HANG_MON_CFG_EN z == 1 then 1 else 0 } ∧
      (∀ y, y ≠ z → h.mon y = s.hub.mon y) ∧ h.rd F.HANG_CMD_STATUS_STATUS = St.OK ∧ s.hub.rest h = { s.hub with hang := h.hang } ∧
      s.hub.keeps h [R.HANG_CMD_STATUS]) ∧
  (∀ (s : State) (r : Req) (z : Nat),
    s.hub.calm = true → s.hub.takesWrite r R.HANG_CMD 5 = true → s.hub.hangCheck 5 = St.OK → s.hub.rd F.HANG_ARG_SLOT = z →
    Answers (.hangClearStats r) s fun h =>
      h.tookWrite r ∧ h.reg R.HANG_DIV_COUNT = 0 ∧ h.rd F.HANG_CMD_STATUS_STATUS = St.OK ∧ s.hub.rest h = s.hub ∧
      s.hub.keeps h [R.HANG_CMD_STATUS, R.HANG_DIV_COUNT]) ∧
  (∀ (s : State) (z : Slot),
    s.hub.calm = true → (s.hub.mon z).fenceAt.isSome = true → (s.hub.mon z).fenced = false → (s.hub.mon z).policy = 0 →
    Answers (.fenceDrained z) s fun h =>
      h.mon z = { s.hub.mon z with fenced := true, fenceAck := true, abandon := false } ∧ (∀ y, y ≠ (z : Nat) → h.mon y = s.hub.mon y) ∧
      h.ladder = { s.hub.ladder with drain := removeNat z s.hub.ladder.drain } ∧ h.shows Ev.FENCED z = true ∧
      s.hub.rest h = { s.hub with hang := h.hang, ladder := h.ladder } ∧ s.hub.keeps h []) ∧
  (∀ (s : State) (z : Nat) (t : Nat),
    s.hub.calm = true → z ∈ s.hub.hang.keys → (s.hub.mon z).fenceAt = some t → (s.hub.mon z).fenced = false →
    (s.hub.mon z).abandon = false → s.hub.elapsed t (s.hub.rd F.HANG_FENCE_DRAIN_HCLK) = true →
    Answers .fenceDrainLimit s fun h =>
      h.mon z = { s.hub.mon z with abandon := true } ∧ h.shows Ev.FENCE_DRAIN_LIMIT z = true ∧
      s.hub.rest h = { s.hub with hang := h.hang } ∧ s.hub.keeps h []) ∧
  (∀ (s : State) (z : Slot) (t : Nat),
    s.hub.calm = true → (s.hub.mon z).abandon = true → (s.hub.mon z).policy = 0 → t ∈ s.hub.slotTiles z →
    ((s.hub.tile t).rdOut ≠ 0 ∨ (s.hub.tile t).wrOut ≠ 0) →
    Answers (.fenceAbandonDone z) s fun h =>
      h.tile t = { s.hub.tile t with abandoned := true, rdOut := 0, wrOut := 0 } ∧
      h.mon z = { s.hub.mon z with fenced := true, fenceAck := true, abandon := false } ∧ (∀ y, y ≠ z → h.mon y = s.hub.mon y) ∧
      (∀ u, u ∉ s.hub.slotTiles z → h.tile u = s.hub.tile u) ∧ h.shows Ev.FENCED z = true ∧
      s.hub.rest h = { s.hub with tiles := h.tiles, hang := h.hang, ladder := h.ladder } ∧ s.hub.keeps h []) ∧
  (∀ (s : State) (z : Nat) (t : Nat),
    s.hub.calm = true → s.hub.hang.keys.filter (fun y => (s.hub.mon y).fenceAt.isSome && s.hub.fenceOver y) = [z] →
    (s.hub.mon z).fenceAt = some t → (s.hub.mon z).policy = 0 → s.hub.flag F.RSET_CTRL_AUTO_EN = false →
    Answers .fenceLimit s fun h =>
      h.mon z = { s.hub.mon z with fenceAt := none, fenceAck := false, fenced := false, abandon := false } ∧
      (∀ y, y ≠ z → h.mon y = s.hub.mon y) ∧ h.shows Ev.FENCE_LIMIT z = true ∧ s.hub.rest h = { s.hub with hang := h.hang } ∧
      s.hub.keeps h []) ∧
  (∀ (s : State) (z : Slot) (t : Nat),
    s.hub.calm = true → (s.hub.mon z).fenceAt = some t → (s.hub.mon z).fenceAck = false → s.hub.elapsed t 64 = true →
    Answers (.fenceAckTimeout z) s fun h =>
      h.hasErr Er.HANG_FENCE_NACK = true ∧ s.hub.rest h = s.hub ∧
      s.hub.keeps h [R.PG_ERROR + Pg.HANG * 0x1000, R.PG_ERROR_INFO + Pg.HANG * 0x1000]) ∧
  (∀ (s : State) (z : Nat) (m : Monitor),
    s.hub.calm = true → s.hub.hang.cells = [(z, m)] → m.policy ≠ 0 → m.pstep = 2 → m.retryAt ≠ 0 → m.retryAt ≤ s.hub.time.hclk →
    s.hub.fenceOver z = false → s.hub.hangCtl.peers = [] → s.hub.rdB F.HANG_MON_CFG_FED z = 0 → s.hub.harvCheck (s.hub.policyReq z) = St.OK →
    Answers .policyRetry s fun h =>
      h.mon z = { m with pstep := 3, pdue := false, retryAt := 0 } ∧ h.harv.op = 1 ∧ h.harv.policySlot = some z ∧
      h.harv.slots = s.hub.scopeSlots (s.hub.policyScope z) ∧ h.rd F.HARV_STATUS_PHASE = 1 ∧
      s.hub.rest h = { s.hub with hang := h.hang, harv := h.harv, cell := h.cell } ∧ s.hub.keepsOff h [Pg.HARV])

/-- RESET at CONTEXT level starts the ladder and fences its slot; ISOLATE takes a tile out of service, reset and watched; READMIT puts an isolated tile under test; CLEAR_STATS zeroes the counts; a reset acknowledge parks the tile or completes its re-admission with TILE_READMITTED, a missing one isolates it with TILE_RESET_TIMEOUT; a quiet watch ends with TILE_ISOLATED, one that saw a strobe with ISOLATION_FAILED; a level that has done its work ends OK with LADDER_DONE, one past its limit fails where AUTO_EN is 0. -/
def Obligations.the_ladder_resets_isolates_and_readmits : Prop :=
  (∀ (s : State) (r : Req) (z : Nat),
    s.hub.calm = true → s.hub.takesWrite r R.RSET_CMD 1 = true → s.hub.rsetCheck r 1 = St.OK → s.hub.rd F.RSET_ARG_LEVEL = Lv.CONTEXT →
    s.hub.rd F.RSET_ARG_SLOT = z → s.hub.slotHeld z = false → (s.hub.mon z).fenceAt = none → (s.hub.mon z).fenced = false →
    (s.hub.ladder.active = false ∨ (s.hub.mon s.hub.ladder.slot).policy = 0) →
    Answers (.ladderReset r) s fun h =>
      h.tookWrite r ∧ h.ladder.active = true ∧ h.ladder.level = Lv.CONTEXT ∧ h.ladder.slot = z ∧ h.ladder.since = s.hub.time.hclk ∧
      h.ladder.drain = [z] ∧ h.ladder.begun = false ∧ (h.mon z).fenceAt = some s.hub.time.hclk ∧ h.rd F.RSET_STATUS_STATUS = St.OK ∧
      h.rd F.RSET_STATUS_LEVEL = 0 ∧ h.rd F.RSET_STATUS_DONE = 0 ∧ h.shows Ev.LADDER_STEP 0 = true ∧
      s.hub.rest h = { s.hub with ladder := h.ladder, hang := h.hang } ∧ s.hub.keeps h [R.RSET_STATUS]) ∧
  (∀ (s : State) (r : Req) (t : Nat),
    s.hub.calm = true → s.hub.takesWrite r R.RSET_CMD 2 = true → s.hub.rsetCheck r 2 = St.OK → s.hub.rd F.RSET_ARG_TILE = t →
    s.hub.bist.runs = [] → s.hub.digTiles.active = false → (s.hub.tile t).taste = none → (s.hub.tile t).inReset = false →
    Answers (.isolate r) s fun h =>
      h.tookWrite r ∧ (h.tile t).st = .outOfService ∧ (h.tile t).isolated = true ∧ (h.tile t).inReset = true ∧
      (h.tile t).watchAt = some s.hub.time.hclk ∧ (h.tile t).resetAt = s.hub.time.hclk ∧ (h.tile t).catchBuf = [] ∧
      (∀ u, u ≠ t → h.tile u = s.hub.tile u) ∧ h.rd F.RSET_STATUS_STATUS = St.OK ∧ h.rd F.RSET_STATUS_DONE = 0 ∧
      s.hub.rest h = { s.hub with tiles := h.tiles } ∧ s.hub.keeps h [R.RSET_STATUS]) ∧
  (∀ (s : State) (r : Req) (t : Nat) (p : Option Nat),
    s.hub.calm = true → s.hub.takesWrite r R.RSET_CMD 3 = true → s.hub.rsetCheck r 3 = St.OK → s.hub.rd F.RSET_ARG_TILE = t →
    s.hub.digTiles.active = false → (s.hub.tile t).taste = none → s.hub.takePack Bt.TILE = (p, s.hub) →
    Answers (.readmit r) s fun h =>
      h.tookWrite r ∧ (h.tile t).st = .underTest ∧ (h.tile t).readmit = 1 ∧ (h.tile t).watchAt = none ∧
      (∀ u, u ≠ t → h.tile u = s.hub.tile u) ∧
      h.bist.runs = s.hub.bist.runs ++ [{ target := Bt.TILE, unit := t, packEn := p.isSome, pack := p.getD 0, readmit := true, wasOos := true, at_ := s.hub.time.hclk }] ∧
      h.rd F.RSET_STATUS_STATUS = St.OK ∧ h.rd F.RSET_STATUS_DONE = 0 ∧ h.shows Ev.BIST_STARTED t = true ∧
      s.hub.rest h = { s.hub with tiles := h.tiles, bist := h.bist, store := h.store, freeCount := h.freeCount } ∧
      s.hub.keeps h [R.RSET_STATUS] ∧ h.store.mem = s.hub.store.mem) ∧
  (∀ (s : State) (r : Req),
    s.hub.calm = true → s.hub.takesWrite r R.RSET_CMD 4 = true → s.hub.rsetCheck r 4 = St.OK →
    Answers (.rsetClearStats r) s fun h =>
      h.tookWrite r ∧ h.ladder = { s.hub.ladder with counts := {} } ∧ h.rd F.RSET_STATUS_STATUS = St.OK ∧
      s.hub.rest h = { s.hub with ladder := h.ladder } ∧ s.hub.keeps h [R.RSET_STATUS]) ∧
  (∀ (s : State) (t : TileId),
    s.hub.calm = true → s.hub.resetDone t = true → (s.hub.tile t).readmit ≠ 2 → (s.hub.tile t).st = .parked →
    s.hub.ladder.isolateAfter = none →
    Answers (.tileResetAck t) s fun h =>
      h.tile t = { s.hub.tile t with inReset := false, rstAck := false, abandoned := false, strobeFault := false, strobeDue := false } ∧
      (∀ u, u ≠ (t : Nat) → h.tile u = s.hub.tile u) ∧ h.ladder = { s.hub.ladder with tilesLeft := removeNat t s.hub.ladder.tilesLeft } ∧
      s.hub.rest h = { s.hub with tiles := h.tiles, ladder := h.ladder } ∧ s.hub.keeps h []) ∧
  (∀ (s : State) (t : TileId),
    s.hub.calm = true → s.hub.resetDone t = true → (s.hub.tile t).readmit = 2 →
    Answers (.tileResetAck t) s fun h =>
      (h.tile t).st = .parked ∧ (h.tile t).readmit = 0 ∧ (h.tile t).inReset = false ∧ (∀ u, u ≠ (t : Nat) → h.tile u = s.hub.tile u) ∧
      h.reg R.RSET_LAST_TILE = t + 0x4000 ∧ h.shows Ev.TILE_READMITTED t = true ∧ s.hub.rest h = { s.hub with tiles := h.tiles } ∧
      s.hub.keeps h [R.RSET_LAST_TILE, R.RSET_STATUS]) ∧
  (∀ (s : State) (t : TileId),
    s.hub.calm = true → (s.hub.tile t).inReset = true → (s.hub.tile t).isolated = false →
    s.hub.elapsed (s.hub.tile t).resetAt (s.hub.tclks t 4096) = true → (s.hub.tile t).readmit ≠ 2 →
    Answers (.tileResetTimeout t) s fun h =>
      h.tile t = { s.hub.tile t with st := .outOfService, isolated := true, watchAt := some s.hub.time.hclk, watchWhy := 1, readmit := 0, branch := [] } ∧
      (∀ u, u ≠ (t : Nat) → h.tile u = s.hub.tile u) ∧ h.reg R.RSET_LAST_TILE = t + 0x4000 + 0x10000 ∧
      h.shows Ev.TILE_RESET_TIMEOUT t = true ∧ s.hub.rest h = { s.hub with tiles := h.tiles } ∧ s.hub.keeps h [R.RSET_LAST_TILE]) ∧
  (∀ (s : State) (t : TileId) (w : Nat),
    s.hub.calm = true → (s.hub.tile t).watchAt = some w → s.hub.elapsed w 256 = true → (s.hub.tile t).strobeSeen = false →
    Answers (.isolationWatchEnd t false true) s fun h =>
      h.tile t = { s.hub.tile t with watchAt := none } ∧ (∀ u, u ≠ (t : Nat) → h.tile u = s.hub.tile u) ∧
      h.reg R.RSET_LAST_TILE = (t + 0x4000 + (s.hub.tile t).watchWhy * 0x10000) % 2 ^ 32 ∧
      h.ladder = { s.hub.ladder with tilesLeft := removeNat t s.hub.ladder.tilesLeft } ∧ h.shows Ev.TILE_ISOLATED t = true ∧
      s.hub.rest h = { s.hub with tiles := h.tiles, ladder := h.ladder } ∧ s.hub.keeps h [R.RSET_LAST_TILE, R.RSET_STATUS]) ∧
  (∀ (s : State) (t : TileId) (answered : Bool) (w : Nat),
    s.hub.calm = true → (s.hub.tile t).watchAt = some w → s.hub.elapsed w 256 = true →
    Answers (.isolationWatchEnd t true answered) s fun h =>
      h.tile t = { s.hub.tile t with watchAt := none, isoFailed := true } ∧ (∀ u, u ≠ (t : Nat) → h.tile u = s.hub.tile u) ∧
      h.reg R.RSET_LAST_TILE = t + 0x4000 + 0x8000 + 0x30000 ∧ h.hasErr Er.RSET_ISO_FAILED = true ∧ h.shows Ev.ISOLATION_FAILED t = true ∧
      s.hub.rest h = { s.hub with tiles := h.tiles, ladder := h.ladder } ∧
      s.hub.keeps h [R.RSET_LAST_TILE, R.RSET_STATUS, R.PG_ERROR + Pg.RSET * 0x1000, R.PG_ERROR_INFO + Pg.RSET * 0x1000]) ∧
  (∀ (s : State) (z : Nat),
    s.hub.calm = true → s.hub.levelOver = true → s.hub.ladder.failed = none → s.hub.ladder.level = Lv.CONTEXT → s.hub.ladder.slot = z →
    s.hub.ladder.next = [] → s.hub.ladder.reportTo = none → (s.hub.mon z).policy = 0 → (s.hub.dom z).st = .empty →
    Answers .ladderLevelDone s fun h =>
      h.ladder.active = false ∧ (h.mon z).fenceAt = none ∧ h.rd F.RSET_STATUS_FINAL = St.OK ∧ h.shows Ev.LADDER_DONE 0 = true ∧
      ((s.hub.mon z).fenceAt.isSome = true → h.shows Ev.FENCE_RELEASED z = true) ∧
      s.hub.rest h = { s.hub with ladder := h.ladder, hang := h.hang } ∧ s.hub.keeps h [R.RSET_STATUS]) ∧
  (∀ (s : State),
    { s.hub with ladder := {} }.calm = true → s.hub.ladder.active = true → s.hub.ladder.level = Lv.FIELD →
    s.hub.elapsed s.hub.ladder.since 62500000 = true → s.hub.flag F.RSET_CTRL_AUTO_EN = false → s.hub.ladder.next = [] →
    (s.hub.mon s.hub.ladder.slot).policy = 0 →
    Answers .ladderLevelTimeout s fun h =>
      h.ladder.active = false ∧ h.rd F.RSET_STATUS_FINAL = St.FAULT ∧ h.rd F.TRAY_ALERT_LADDER_FAIL = 1 ∧ h.shows Ev.LADDER_DONE 3 = true ∧
      s.hub.rest h = { s.hub with ladder := h.ladder } ∧ s.hub.keeps h [R.RSET_STATUS, F.TRAY_ALERT_LADDER_FAIL.addr])

/-- A LADDER that reports a release takes its sender off the hubs waited for, one that orders CONTEXT for a job tag starts that level for the slot with the tag; a PEER_LOST not seen within 1 ms is noted and raised (stated at a lead with no policy for any tag); a peer policy in its last step ends in HANG_PEER_LAST with PEER_POLICY_DONE. -/
def Obligations.hubs_order_levels_and_report_lost_packages : Prop :=
  (∀ (s : State) (hd : Hdr2) (level : BitVec 8) (tag : BitVec 16),
    s.hub.calm = true → s.hub.takesFrame hd Op.LADDER = true → s.hub.hangCtl.peers = [] →
    Answers (.ladderRx hd level true tag) s fun h =>
      h.ladder = { s.hub.ladder with hubsLeft := removeNat hd.src s.hub.ladder.hubsLeft } ∧
      s.hub.rest h = { s.hub with ladder := h.ladder, fed := h.fed, hangCtl := { s.hub.hangCtl with peers := [] } } ∧
      s.hub.keeps h [R.PG_ERROR + Pg.FED * 0x1000, R.PG_ERROR_INFO + Pg.FED * 0x1000]) ∧
  (∀ (s : State) (hd : Hdr2) (tag : BitVec 16) (z : Nat),
    s.hub.calm = true → s.hub.takesFrame hd Op.LADDER = true → s.hub.ladder.active = false →
    s.hub.openSlots.filter (fun y => (s.hub.dom y).tag == tag.toNat) = [z] → s.hub.slotHeld z = false → (s.hub.mon z).fenceAt = none →
    (s.hub.mon z).fenced = false →
    Answers (.ladderRx hd 0 false tag) s fun h =>
      h.ladder.active = true ∧ h.ladder.level = Lv.CONTEXT ∧ h.ladder.slot = z ∧ h.ladder.drain = [z] ∧
      (h.mon z).fenceAt = some s.hub.time.hclk ∧ h.shows Ev.LADDER_STEP 0 = true ∧
      s.hub.rest h = { s.hub with ladder := h.ladder, hang := h.hang, fed := h.fed } ∧
      s.hub.keeps h [R.RSET_STATUS, R.PG_ERROR + Pg.FED * 0x1000, R.PG_ERROR_INFO + Pg.FED * 0x1000]) ∧
  (∀ (s : State) (pkg : Fin 16) (tags : List (BitVec 16)),
    s.hub.calm = true → s.hub.isLead = true → s.hub.isSafe = false → s.hub.peerSeen pkg ((tags.map BitVec.toNat).take 16) = false →
    s.hub.corks = [] → s.hub.rd F.HANG_PEER_DEFAULT_POLICY = 0 →
    (List.range 16).all (fun i => s.hub.rdB F.HANG_PEER_POLICY_VALID i != 1) = true →
    Answers (.peerLost pkg tags) s fun h =>
      ((pkg : Nat), (tags.map BitVec.toNat).take 16, s.hub.time.hclk) ∈ h.hangCtl.lastPeer ∧ h.shows Ev.PEER_LOST pkg = true ∧
      h.hangCtl.peers = s.hub.hangCtl.peers ∧ s.hub.rest h = { s.hub with hangCtl := h.hangCtl, fed := h.fed } ∧
      s.hub.keeps h [R.PG_ERROR + Pg.FED * 0x1000, R.PG_ERROR_INFO + Pg.FED * 0x1000]) ∧
  (∀ (s : State) (hd : Hdr2) (pkg : BitVec 8) (count : BitVec 8) (tags : BitVec 80) (l : List Nat),
    s.hub.calm = true → s.hub.takesFrame hd Op.PEER_LOST = true →
    (List.range (least 5 count.toNat)).map (fun i => bitsOf tags.toNat (16 * i) 16) = l → s.hub.peerSeen pkg.toNat l = false →
    Answers (.tendrilPeerLost hd pkg count tags) s fun h =>
      (pkg.toNat, l, s.hub.time.hclk) ∈ h.hangCtl.lastPeer ∧ h.shows Ev.PEER_LOST pkg.toNat = true ∧
      s.hub.rest h = { s.hub with hangCtl := h.hangCtl, fed := h.fed } ∧
      s.hub.keeps h [R.PG_ERROR + Pg.FED * 0x1000, R.PG_ERROR_INFO + Pg.FED * 0x1000]) ∧
  (∀ (s : State) (p : Peer),
    s.hub.calm = true → s.hub.hangCtl.peers.filter (fun q => q.step == 4) = [p] → p.status ≠ St.BAD_ARG →
    Answers .peerPolicyDone s fun h =>
      h.hangCtl.peers = s.hub.hangCtl.peers.filter (fun q => q.step != 4) ∧
      h.reg R.HANG_PEER_LAST = (p.tag + p.pkg * 0x10000 + 0x100000 + p.status * 0x1000000) % 2 ^ 32 ∧
      h.shows Ev.PEER_POLICY_DONE p.tag = true ∧ s.hub.rest h = { s.hub with hangCtl := h.hangCtl } ∧ s.hub.keeps h [R.HANG_PEER_LAST])

/-- An accepted RUN of a lane, taster or cane adds the run and raises BIST_STARTED, one of the hub logic of a pair marks the standby UNDER TEST, one of a tile (stated with ROM patterns) puts it under test; a RUN whose pack fails its check is refused with BAD_ARG and empties the slot; ABORT of a lane, taster or cane ends the run ABORTED, and its cane turns back where the run held it; a passed lane counts and raises BIST_PASS, a failed tile is isolated with BIST_FAIL, a cane run that takes too long ends TIMEOUT and leaves the cane suspect; LOAD_PACK starts the check of a slot, its end makes the slot valid with PACK_LOADED or empties it with PACK_REJECTED; DROP_PACK empties the slot; CLEAR_STATS zeroes the counts. A REGBUS update reads or writes one register as requester JTAG (a write is stated for GLB_CTX_RECT); a TAP reset selects IDCODE and ends the ownership of every page by JTAG. -/
def Obligations.bist_runs_packs_results_and_the_tap : Prop :=
  (∀ (s : State) (r : Req) (u : Nat) (p : Nat),
    s.hub.calm = true → s.hub.takesWrite r R.BIST_CMD 1 = true → s.hub.bistCheck r 1 = (St.OK, 0) → s.hub.rd F.BIST_ARG_TARGET = 1 →
    s.hub.rd F.BIST_ARG_UNIT = u → s.hub.rd F.BIST_ARG_PACK = p →
    (s.hub.wantsPack = false ∨ packGood (s.hub.packBytes (s.hub.packSlot p).addr) 1 = true) →
    Answers (.bistRun r) s fun h =>
      h.tookWrite r ∧
      h.bist = { s.hub.bist with runs := s.hub.bist.runs ++ [{ target := 1, packEn := s.hub.wantsPack, unit := u, pack := p, at_ := s.hub.time.hclk, wasOos := (s.hub.tile u).st == .outOfService, wasIn := s.hub.pairReady }] } ∧
      h.shows Ev.BIST_STARTED u = true ∧ h.rd F.BIST_CMD_STATUS_STATUS = St.OK ∧ h.rd F.BIST_CMD_STATUS_OP = 1 ∧
      s.hub.rest h = { s.hub with bist := h.bist } ∧ s.hub.keeps h [R.BIST_CMD_STATUS]) ∧
  (∀ (s : State) (r : Req) (u : Nat) (p : Nat),
    s.hub.calm = true → s.hub.takesWrite r R.BIST_CMD 1 = true → s.hub.bistCheck r 1 = (St.OK, 0) → s.hub.rd F.BIST_ARG_TARGET = 2 →
    s.hub.rd F.BIST_ARG_UNIT = u → s.hub.rd F.BIST_ARG_PACK = p →
    (s.hub.wantsPack = false ∨ packGood (s.hub.packBytes (s.hub.packSlot p).addr) 2 = true) → s.hub.taste.bufs.cells = [] →
    Answers (.bistRun r) s fun h =>
      h.tookWrite r ∧
      h.bist = { s.hub.bist with runs := s.hub.bist.runs ++ [{ target := 2, packEn := s.hub.wantsPack, unit := u, pack := p, at_ := s.hub.time.hclk, wasOos := (s.hub.tile u).st == .outOfService, wasIn := !s.hub.taste.retired.contains u }] } ∧
      h.shows Ev.BIST_STARTED u = true ∧ h.rd F.BIST_CMD_STATUS_STATUS = St.OK ∧ h.rd F.BIST_CMD_STATUS_OP = 1 ∧
      s.hub.rest h = { s.hub with bist := h.bist, taste := h.taste } ∧ s.hub.keeps h [R.BIST_CMD_STATUS]) ∧
  (∀ (s : State) (r : Req) (u : Nat) (p : Nat),
    s.hub.calm = true → s.hub.takesWrite r R.BIST_CMD 1 = true → s.hub.bistCheck r 1 = (St.OK, 0) → s.hub.rd F.BIST_ARG_TARGET = 3 →
    s.hub.rd F.BIST_ARG_UNIT = u → s.hub.rd F.BIST_ARG_PACK = p →
    (s.hub.wantsPack = false ∨ packGood (s.hub.packBytes (s.hub.packSlot p).addr) 3 = true) →
    Answers (.bistRun r) s fun h =>
      h.tookWrite r ∧
      h.bist = { s.hub.bist with runs := s.hub.bist.runs ++ [{ target := 3, packEn := s.hub.wantsPack, unit := u, pack := p, at_ := s.hub.time.hclk, wasOos := (s.hub.tile u).st == .outOfService, wasIn := s.hub.pairReady }] } ∧
      h.shows Ev.BIST_STARTED u = true ∧ h.rd F.BIST_CMD_STATUS_STATUS = St.OK ∧ h.rd F.BIST_CMD_STATUS_OP = 1 ∧
      s.hub.rest h = { s.hub with bist := h.bist } ∧ s.hub.keeps h [R.BIST_CMD_STATUS]) ∧
  (∀ (s : State) (r : Req) (p : Nat),
    s.hub.calm = true → s.hub.takesWrite r R.BIST_CMD 1 = true → s.hub.bistCheck r 1 = (St.OK, 0) → s.hub.rd F.BIST_ARG_TARGET = 0 →
    s.hub.rd F.BIST_ARG_PACK = p → s.hub.isPair = true →
    (s.hub.wantsPack = false ∨ packGood (s.hub.packBytes (s.hub.packSlot p).addr) 0 = true) →
    Answers (.bistRun r) s fun h =>
      h.tookWrite r ∧ (h.bistRun 0 (s.hub.rd F.BIST_ARG_UNIT)).isSome = true ∧ h.rd F.PAIR_STATE_STANDBY = 3 ∧
      h.shows Ev.BIST_STARTED (s.hub.rd F.BIST_ARG_UNIT) = true ∧ h.rd F.BIST_CMD_STATUS_STATUS = St.OK ∧ h.rd F.BIST_CMD_STATUS_OP = 1 ∧
      s.hub.rest h = { s.hub with bist := h.bist } ∧ s.hub.keeps h [R.BIST_CMD_STATUS, R.PAIR_STATE]) ∧
  (∀ (s : State) (r : Req) (g : Nat) (u : Nat) (p : Nat),
    s.hub.calm = true → s.hub.takesWrite r R.BIST_CMD 1 = true → s.hub.bistCheck r 1 = (St.OK, 0) → s.hub.rd F.BIST_ARG_TARGET = g →
    s.hub.rd F.BIST_ARG_UNIT = u → s.hub.rd F.BIST_ARG_PACK = p → s.hub.wantsPack = true →
    packGood (s.hub.packBytes (s.hub.packSlot p).addr) g = false →
    Answers (.bistRun r) s fun h =>
      h.tookWrite r ∧ h.packSlot p = {} ∧ h.rd F.BIST_CMD_STATUS_STATUS = St.BAD_ARG ∧ h.hasErr Er.BIST_PACK_CHECK = true ∧
      h.shows Ev.PACK_REJECTED p = true ∧ h.bist.runs = s.hub.bist.runs ∧ s.hub.rest h = { s.hub with bist := h.bist } ∧
      s.hub.keeps h [R.BIST_CMD_STATUS, R.PG_ERROR + Pg.BIST * 0x1000, R.PG_ERROR_INFO + Pg.BIST * 0x1000]) ∧
  (∀ (s : State) (r : Req) (u : Nat),
    s.hub.calm = true → s.hub.takesWrite r R.BIST_CMD 1 = true → s.hub.bistCheck r 1 = (St.OK, 0) → s.hub.rd F.BIST_ARG_TARGET = 4 →
    s.hub.rd F.BIST_ARG_UNIT = u → s.hub.wantsPack = false →
    Answers (.bistRun r) s fun h =>
      h.tookWrite r ∧ (h.tile u).st = .underTest ∧ (h.tile u).catchBuf = [] ∧ (h.tile u).taste = none ∧ h.shows Ev.BIST_STARTED u = true ∧
      (∀ t, t ≠ u → h.tile t = s.hub.tile t) ∧ h.rd F.BIST_CMD_STATUS_STATUS = St.OK ∧ h.rd F.BIST_CMD_STATUS_OP = 1 ∧
      s.hub.rest h = { s.hub with bist := h.bist, tiles := h.tiles, store := h.store, freeCount := h.freeCount, digTiles := h.digTiles, taste := h.taste } ∧
      s.hub.keeps h [R.BIST_CMD_STATUS] ∧ h.store.mem = s.hub.store.mem) ∧
  (∀ (s : State) (r : Req) (u : Nat) (x : Run),
    s.hub.calm = true → s.hub.takesWrite r R.BIST_CMD 2 = true → s.hub.bistCheck r 2 = (St.OK, 0) → s.hub.rd F.BIST_ARG_TARGET = 1 →
    s.hub.rd F.BIST_ARG_UNIT = u → s.hub.bist.runs = [x] → x.target = 1 → x.unit = u → x.readmit = false →
    Answers (.bistAbort r) s fun h =>
      h.tookWrite r ∧ h.bist.runs = [] ∧
      h.bist.results.get (1 * 16384 + u) {} = { outcome := Bo.ABORTED, valid := true, packUsed := x.packEn } ∧
      h.shows Ev.BIST_ABORTED u = true ∧ (x.det ≠ 1 → h.canes = s.hub.canes) ∧ (∀ c, c ≠ s.hub.runCane x → h.cane c = s.hub.cane c) ∧
      h.rd F.BIST_CMD_STATUS_STATUS = St.OK ∧ h.rd F.BIST_CMD_STATUS_OP = 2 ∧
      s.hub.rest h = { s.hub with bist := h.bist, canes := h.canes } ∧ s.hub.keeps h [R.BIST_CMD_STATUS]) ∧
  (∀ (s : State) (r : Req) (u : Nat) (x : Run),
    s.hub.calm = true → s.hub.takesWrite r R.BIST_CMD 2 = true → s.hub.bistCheck r 2 = (St.OK, 0) → s.hub.rd F.BIST_ARG_TARGET = 2 →
    s.hub.rd F.BIST_ARG_UNIT = u → s.hub.bist.runs = [x] → x.target = 2 → x.unit = u → x.readmit = false →
    Answers (.bistAbort r) s fun h =>
      h.tookWrite r ∧ h.bist.runs = [] ∧
      h.bist.results.get (2 * 16384 + u) {} = { outcome := Bo.ABORTED, valid := true, packUsed := x.packEn } ∧
      h.shows Ev.BIST_ABORTED u = true ∧ (x.det ≠ 1 → h.canes = s.hub.canes) ∧ (∀ c, c ≠ s.hub.runCane x → h.cane c = s.hub.cane c) ∧
      h.rd F.BIST_CMD_STATUS_STATUS = St.OK ∧ h.rd F.BIST_CMD_STATUS_OP = 2 ∧
      s.hub.rest h = { s.hub with bist := h.bist, canes := h.canes } ∧ s.hub.keeps h [R.BIST_CMD_STATUS]) ∧
  (∀ (s : State) (r : Req) (u : Nat) (x : Run),
    s.hub.calm = true → s.hub.takesWrite r R.BIST_CMD 2 = true → s.hub.bistCheck r 2 = (St.OK, 0) → s.hub.rd F.BIST_ARG_TARGET = 3 →
    s.hub.rd F.BIST_ARG_UNIT = u → s.hub.bist.runs = [x] → x.target = 3 → x.unit = u → x.readmit = false →
    Answers (.bistAbort r) s fun h =>
      h.tookWrite r ∧ h.bist.runs = [] ∧
      h.bist.results.get (3 * 16384 + u) {} = { outcome := Bo.ABORTED, valid := true, packUsed := x.packEn } ∧
      h.shows Ev.BIST_ABORTED u = true ∧ (x.det ≠ 1 → h.canes = s.hub.canes) ∧ (∀ c, c ≠ s.hub.runCane x → h.cane c = s.hub.cane c) ∧
      h.rd F.BIST_CMD_STATUS_STATUS = St.OK ∧ h.rd F.BIST_CMD_STATUS_OP = 2 ∧
      s.hub.rest h = { s.hub with bist := h.bist, canes := h.canes } ∧ s.hub.keeps h [R.BIST_CMD_STATUS]) ∧
  (∀ (s : State) (r : Req) (n : Nat),
    s.hub.calm = true → s.hub.takesWrite r R.BIST_CMD 3 = true → s.hub.bistCheck r 3 = (St.OK, 0) → s.hub.rd F.BIST_ARG_PACK = n →
    Answers (.loadPack r) s fun h =>
      h.tookWrite r ∧
      h.bist = { s.hub.bist with packs := s.hub.bist.packs.set n { pushed := true, addr := s.hub.reg64 R.BIST_PACK_ADDR_LO / 4096 * 4096, checking := true } } ∧
      h.rd F.BIST_CMD_STATUS_STATUS = St.OK ∧ h.rd F.BIST_CMD_STATUS_OP = 3 ∧ h.rd F.BIST_CMD_STATUS_DONE = 0 ∧
      s.hub.rest h = { s.hub with bist := h.bist } ∧ s.hub.keeps h [R.BIST_CMD_STATUS]) ∧
  (∀ (s : State) (r : Req) (n : Nat),
    s.hub.calm = true → s.hub.takesWrite r R.BIST_CMD 4 = true → s.hub.bistCheck r 4 = (St.OK, 0) → s.hub.rd F.BIST_ARG_PACK = n →
    Answers (.dropPack r) s fun h =>
      h.tookWrite r ∧ h.bist = { s.hub.bist with packs := s.hub.bist.packs.set n {} } ∧ h.rd F.BIST_CMD_STATUS_STATUS = St.OK ∧
      h.rd F.BIST_CMD_STATUS_OP = 4 ∧ s.hub.rest h = { s.hub with bist := h.bist } ∧ s.hub.keeps h [R.BIST_CMD_STATUS]) ∧
  (∀ (s : State) (r : Req),
    s.hub.calm = true → s.hub.takesWrite r R.BIST_CMD 5 = true → s.hub.bistCheck r 5 = (St.OK, 0) →
    Answers (.bistClearStats r) s fun h =>
      h.tookWrite r ∧ h.reg R.BIST_PASSES = 0 ∧ h.rd F.BIST_CMD_STATUS_STATUS = St.OK ∧ h.rd F.BIST_CMD_STATUS_OP = 5 ∧
      s.hub.rest h = s.hub ∧ s.hub.keeps h [R.BIST_CMD_STATUS, R.BIST_PASSES]) ∧
  (∀ (s : State) (n : Fin 16) (p : Pack) (b : List Byte),
    s.hub.calm = true → s.hub.packSlot n = p → p.checking = true → p.pushed = true → s.hub.packBytes p.addr = b →
    packGood b (leAt b 6 1) = true →
    Answers (.packCheckDone n false) s fun h =>
      h.packSlot n = { p with checking := false, valid := true, target := leAt b 6 1, len := leAt b 8 4 } ∧
      (∀ k, k ≠ (n : Nat) → h.packSlot k = s.hub.packSlot k) ∧ h.rd F.BIST_CMD_STATUS_DONE = 1 ∧
      h.rd F.BIST_CMD_STATUS_STATUS = s.hub.rd F.BIST_CMD_STATUS_STATUS ∧ h.shows Ev.PACK_LOADED n = true ∧
      s.hub.rest h = { s.hub with bist := h.bist } ∧ s.hub.keeps h [R.BIST_CMD_STATUS]) ∧
  (∀ (s : State) (n : Fin 16) (err : Bool) (p : Pack),
    s.hub.calm = true → s.hub.packSlot n = p → p.checking = true → p.pushed = true →
    (err = true ∨ packGood (s.hub.packBytes p.addr) (leAt (s.hub.packBytes p.addr) 6 1) = false) →
    Answers (.packCheckDone n err) s fun h =>
      h.packSlot n = {} ∧ h.rd F.BIST_CMD_STATUS_DONE = 1 ∧ h.rd F.BIST_CMD_STATUS_STATUS = St.FAULT ∧
      h.hasErr (if err then Er.BIST_PACK_FABRIC else Er.BIST_PACK_CHECK) = true ∧ h.shows Ev.PACK_REJECTED n = true ∧
      s.hub.rest h = { s.hub with bist := h.bist } ∧
      s.hub.keeps h [R.BIST_CMD_STATUS, R.PG_ERROR + Pg.BIST * 0x1000, R.PG_ERROR_INFO + Pg.BIST * 0x1000]) ∧
  (∀ (s : State) (u : Nat) (info : Nat) (got : Nat) (want : Nat) (x : Run),
    s.hub.calm = true → s.hub.bistRun 1 u = some x → x.target = 1 → x.unit = u → x.readmit = false →
    Answers (.bistRunEnd 1 u Bo.PASS false info got want) s fun h =>
      h.bist.results.get (1 * 16384 + u) {} = { outcome := Bo.PASS, valid := true, packUsed := x.packEn, info := info % 256, got := got, want := want } ∧
      h.bist.runs = s.hub.bist.runs.filter (fun y => !(y.target == 1 && y.unit == u)) ∧ h.lane u = { s.hub.lane u with bistOk := true } ∧
      h.rd F.BIST_PASSES_COUNT = sat F.BIST_PASSES_COUNT.width (s.hub.rd F.BIST_PASSES_COUNT + 1) ∧ h.shows Ev.BIST_PASS u = true ∧
      s.hub.rest h = { s.hub with bist := h.bist, lanes := h.lanes } ∧ s.hub.keeps h [R.BIST_PASSES]) ∧
  (∀ (s : State) (u : Nat) (outcome : Nat) (info : Nat) (got : Nat) (want : Nat) (randomFail : Bool) (x : Run),
    s.hub.calm = true → s.hub.bistRun 4 u = some x → x.target = 4 → x.unit = u → x.readmit = false → outcome ≠ Bo.PASS →
    (s.hub.tile u).st = .underTest → (s.hub.tile u).taste = none →
    Answers (.bistRunEnd 4 u outcome randomFail info got want) s fun h =>
      h.bist.results.get (4 * 16384 + u) {} = { outcome := outcome, valid := true, packUsed := x.packEn, randomFail := randomFail, info := info % 256, got := got, want := want } ∧
      (h.tile u).st = .outOfService ∧ h.rd F.BIST_PASSES_FAILS = sat F.BIST_PASSES_FAILS.width (s.hub.rd F.BIST_PASSES_FAILS + 1) ∧
      h.shows Ev.BIST_FAIL u = true ∧ (h.tile u).isolated = true ∧ (x.det ≠ 1 → h.canes = s.hub.canes) ∧
      s.hub.rest h = { s.hub with bist := h.bist, tiles := h.tiles, canes := h.canes } ∧ s.hub.keeps h [R.BIST_PASSES] ∧
      (∀ t, t ≠ u → h.tile t = s.hub.tile t)) ∧
  (∀ (s : State) (x : Run) (u : Nat),
    s.hub.calm = true → s.hub.bist.runs = [x] → s.hub.bistOverdue = [x] → x.target = 3 → x.unit = u → x.readmit = false →
    Answers .bistRunTimeout s fun h =>
      h.bist.runs = [] ∧ (h.bist.results.get (3 * 16384 + u) {}).outcome = Bo.TIMEOUT ∧ (h.cane u).suspect = true ∧
      (x.det ≠ 1 → h.cane u = { s.hub.cane u with suspect := true }) ∧ (∀ c, c ≠ u → h.cane c = s.hub.cane c) ∧
      h.shows Ev.BIST_FAIL u = true ∧ s.hub.rest h = { s.hub with bist := h.bist, canes := h.canes } ∧ s.hub.keeps h [R.BIST_PASSES]) ∧
  (∀ (s : State) (data : BitVec 66) (a : Nat),
    s.hub.calm = true → bitsOf data.toNat 64 2 = 1 → bitsOf data.toNat 0 20 = a → s.hub.accessStatus .jtag a false 0 = St.OK →
    (regDef (normAddr a)).isSome = true → inWindow (normAddr a) = false → isHi (normAddr a) = false →
    [R.TASTE_EVID_DATA, R.COOP_PROG_DATA, R.COOP_DATA_DATA, R.AUTH_DATA, R.TIME_GCN_LO].contains (baseAddr (normAddr a)) = false →
    isLo (normAddr a) = false →
    Answers (.jtagRegbusAccess data) s fun h =>
      h.bist = { s.hub.bist with ir := 0x10, regbus := s.hub.value .jtag (normAddr a) % 2 ^ 32 + St.OK * 2 ^ 32 + 2 ^ 40 } ∧
      s.hub.rest h = { s.hub with bist := h.bist } ∧ s.hub.keeps h []) ∧
  (∀ (s : State) (data : BitVec 66) (v : Nat),
    s.hub.calm = true → bitsOf data.toNat 64 2 = 2 → bitsOf data.toNat 0 20 = R.GLB_CTX_RECT → bitsOf data.toNat 32 32 = v →
    s.hub.takesWrite .jtag R.GLB_CTX_RECT v = true → s.hub.flag F.GLB_CMD_STATUS_DONE = true →
    Answers (.jtagRegbusAccess data) s fun h =>
      h.rd F.GLB_CTX_RECT_RECT = bitsOf v F.GLB_CTX_RECT_RECT.lo F.GLB_CTX_RECT_RECT.width ∧
      h.bist = { s.hub.bist with ir := 0x10, regbus := 2 ^ 40 + St.OK * 2 ^ 32 } ∧ s.hub.rest h = { s.hub with bist := h.bist } ∧
      s.hub.keeps h [R.GLB_CTX_RECT]) ∧
  (∀ (s : State),
    s.hub.calm = true →
    Answers .tapReset s fun h =>
      h.bist = { s.hub.bist with ir := 1 } ∧
      (∀ p, h.owner p ≠ reqCode .jtag + 1 ∧ (s.hub.owner p ≠ reqCode .jtag + 1 → h.owner p = s.hub.owner p)) ∧
      s.hub.rest h = { s.hub with bist := h.bist, owners := h.owners } ∧ s.hub.keeps h [])

/-- TEND_NOW asks for a round, CLEAR_STATS zeroes the counts; a due round that finds nothing counts and ends; a round that finds a failing taster retires it; a planted fault waits for its use with DONE 0, and a REL_INJECT without GO only writes the register; a state machine fault of the tasting unit sets its error bit and raises FSM_FAULT (stated with no sample waiting); one of the cork unit with no standby ready to take over enters SAFE. -/
def Obligations.tending_faults_and_safe : Prop :=
  (∀ (s : State) (r : Req),
    s.hub.calm = true → s.hub.takesWrite r R.REL_CMD 1 = true → s.hub.flag F.REL_STATE_TENDING = false →
    Answers (.tendNow r) s fun h =>
      h.tookWrite r ∧ h.rd F.REL_STATE_TENDING = 1 ∧ h.rd F.REL_CMD_STATUS_STATUS = St.OK ∧ s.hub.rest h = s.hub ∧
      s.hub.keeps h [R.REL_STATE, R.REL_CMD_STATUS]) ∧
  (∀ (s : State) (r : Req),
    s.hub.calm = true → s.hub.takesWrite r R.REL_CMD 2 = true →
    Answers (.relClearStats r) s fun h =>
      h.tookWrite r ∧ h.reg R.REL_TEND_ROUNDS = 0 ∧ h.reg R.REL_ECC_CORR = 0 ∧ h.reg R.REL_ECC_UNCORR = 0 ∧
      h.rd F.REL_CMD_STATUS_STATUS = St.OK ∧ s.hub.rest h = { s.hub with rel := { s.hub.rel with eccEvAt := none } } ∧
      s.hub.keeps h [R.REL_TEND_ROUNDS, R.REL_ECC_CORR, R.REL_ECC_UNCORR, R.REL_CMD_STATUS]) ∧
  (∀ (s : State),
    s.hub.calm = true → s.hub.flag F.REL_CTRL_TEND_EN = true → s.hub.elapsed s.hub.rel.lastTend s.hub.tendPeriod = true →
    Answers (.tendingRound []) s fun h =>
      h.rd F.REL_TEND_ROUNDS_COUNT = sat F.REL_TEND_ROUNDS_COUNT.width (s.hub.rd F.REL_TEND_ROUNDS_COUNT + 1) ∧
      h.rd F.REL_STATE_TENDING = 0 ∧ s.hub.rest h = { s.hub with rel := { s.hub.rel with lastTend := s.hub.time.hclk } } ∧
      s.hub.keeps h [R.REL_TEND_ROUNDS, R.REL_STATE]) ∧
  (∀ (s : State) (n : Fin 4),
    s.hub.calm = true → s.hub.flag F.REL_STATE_TENDING = true → s.hub.taste.retired.contains (n : Nat) = false → s.hub.taste.bufs.cells = [] →
    Answers (.tendingRound [.taster n]) s fun h =>
      h.taste.retired = insertNat n s.hub.taste.retired ∧ h.hasErr Er.REL_KAT = true ∧ h.rd F.REL_STATE_TENDING = 0 ∧
      h.rel.lastTend = s.hub.time.hclk ∧ h.shows Ev.TASTER_LOST n = true ∧ h.shows Ev.TEND_FAULT Pg.TASTE = true ∧
      s.hub.rest h = { s.hub with taste := h.taste, rel := h.rel } ∧ s.hub.keepsOff h [Pg.REL]) ∧
  (∀ (s : State) (r : Req) (v : Word) (k : Nat) (p : Nat) (t : Nat),
    s.hub.calm = true → s.hub.takesWrite r R.REL_INJECT v.toNat = true → bitAt v.toNat 31 = true →
    bitsOf v.toNat F.REL_INJECT_KIND.lo F.REL_INJECT_KIND.width = k → bitsOf v.toNat F.REL_INJECT_PAGE.lo F.REL_INJECT_PAGE.width = p →
    bitsOf v.toNat F.REL_INJECT_TILE.lo F.REL_INJECT_TILE.width = t → s.hub.injectCheck k = St.OK → k ∈ [4, 5, 6, 8] →
    Answers (.faultInject r v) s fun h =>
      h.tookWrite r ∧ h.rel = { s.hub.rel with inject := some (k, p, t) } ∧ h.rd F.REL_INJECT_GO = 1 ∧ h.rd F.REL_CMD_STATUS_DONE = 0 ∧
      h.rd F.REL_CMD_STATUS_STATUS = St.OK ∧ s.hub.rest h = { s.hub with rel := h.rel } ∧ s.hub.keeps h [R.REL_INJECT, R.REL_CMD_STATUS]) ∧
  (∀ (s : State) (r : Req) (v : Word),
    s.hub.calm = true → s.hub.takesWrite r R.REL_INJECT v.toNat = true → bitAt v.toNat 31 = false →
    Answers (.faultInject r v) s fun h =>
      h.tookWrite r ∧ h.reg R.REL_INJECT = v.toNat % 2 ^ 31 ∧ s.hub.rest h = s.hub ∧ s.hub.keeps h [R.REL_INJECT]) ∧
  (∀ (s : State),
    s.hub.calm = true → s.hub.taste.bufs.cells = [] →
    Answers (.stateMachineFault Pg.TASTE) s fun h =>
      h.hasErr Er.TASTE_FSM_CODE = true ∧ h.shows Ev.FSM_FAULT Pg.TASTE = true ∧ s.hub.rest h = s.hub ∧ s.hub.keepsOff h [Pg.TASTE, Pg.REL]) ∧
  (∀ (s : State),
    s.hub.calm = true → s.hub.isPair = false → s.hub.flag F.PAIR_STATE_TAKEOVER = false → s.hub.isSafe = false →
    Answers (.stateMachineFault Pg.CORK) s fun h =>
      h.isSafe = true ∧ h.pins.tileHold = true ∧ h.rd F.REL_STATE_SAFE_CAUSE = Sc.CORK ∧
      (∀ t, (s.hub.tile t).st = .inContext → (h.tile t).gated = true) ∧ h.shows Ev.FSM_FAULT Pg.CORK = true ∧
      h.shows Ev.SAFE_ENTERED Sc.CORK = true ∧ h.hasErr Er.CORK_FSM_CODE = true) ∧
  (∀ (s : State),
    s.hub.calm = true → s.hub.isPair = false → s.hub.flag F.PAIR_STATE_TAKEOVER = false → s.hub.isSafe = false → s.hub.corks = [] →
    s.hub.taste.bufs.cells = [] → s.hub.tiles.cells.all (fun p => p.2.branch.isEmpty) = true →
    Answers (.stateMachineFault Pg.CORK) s fun h =>
      h.isSafe = true ∧ h.doms = ⟨s.hub.doms.cells.map (fun p => (p.1, p.2.safeStop s.hub.now s.hub.epoch))⟩ ∧
      h.tiles = ⟨s.hub.tiles.cells.map (fun p => (p.1, p.2.safeStop s.hub.now s.hub.epoch))⟩ ∧
      h.hangCtl = { s.hub.hangCtl with audits := s.hub.hangCtl.audits.filter (fun a => a.diffs.isSome) } ∧
      s.hub.rest h = { s.hub with doms := h.doms, tiles := h.tiles, rel := h.rel, hangCtl := h.hangCtl, coops := (s.hub.rest h).coops, owners := h.owners, fed := h.fed } ∧
      s.hub.keepsOff h [Pg.CORK, Pg.REL, Pg.COOP, Pg.COOP + 1])

/-- TAKEOVER and a lost heartbeat (with AUTO_TAKEOVER) move the active core, raise TAKEOVER_START and leave the standby LOST (stated with the rack link DISABLED and no harvest, decant or digest open); the end of a takeover clears TAKEOVER, shows its time and raises TAKEOVER_DONE; RESTORE_STANDBY makes the standby READY again with a checkpoint; CLEAR_STATS zeroes the counts; a mirror entry of a register reaches the mirror, a heartbeat restarts its count, a bad entry and a lost path raise MIRROR_PATH; a checkpoint is due each period, a good one holds the racking queue, the grants, the out-of-service map and the statistics counters, a bad one counts, and the third loses the standby. -/
def Obligations.a_pair_mirrors_checkpoints_and_takes_over : Prop :=
  (∀ (s : State) (r : Req),
    s.hub.calm = true → s.hub.takesWrite r R.PAIR_CMD 1 = true → s.hub.pairCheck 1 = St.OK → s.hub.linkSt = Lk.DISABLED →
    s.hub.harv.op = 0 → s.hub.digTiles.active = false → s.hub.digExt.active = false →
    Answers (.pairTakeover r) s fun h =>
      h.tookWrite r ∧ h.rd F.PAIR_STATE_ACTIVE = (s.hub.rd F.PAIR_STATE_ACTIVE + 1) % 2 ∧ h.rd F.PAIR_STATE_TAKEOVER = 1 ∧
      h.rd F.PAIR_STATE_STANDBY = 2 ∧ h.rel.takeoverAt = s.hub.time.hclk ∧
      h.rd F.PAIR_TAKEOVERS_COUNT = sat F.PAIR_TAKEOVERS_COUNT.width (s.hub.rd F.PAIR_TAKEOVERS_COUNT + 1) ∧
      h.shows Ev.TAKEOVER_START (1 - s.hub.rd F.PAIR_STATE_ACTIVE) = true ∧ h.shows Ev.STANDBY_LOST (s.hub.rd F.PAIR_STATE_ACTIVE) = true ∧
      s.hub.rest h = { s.hub with rel := h.rel, hi := h.hi, bist := h.bist, link := (s.hub.rest h).link, fed := h.fed } ∧
      s.hub.keepsOff h [Pg.PAIR, Pg.LINK, Pg.FED, Pg.RACK] ∧ h.rd F.PAIR_CMD_STATUS_STATUS = St.OK ∧ h.rd F.PAIR_CMD_STATUS_DONE = 0 ∧
      h.rd F.PAIR_STATE_LAST_CAUSE = 3) ∧
  (∀ (s : State) (n : Nat),
    s.hub.calm = true → s.hub.pairReady = true → s.hub.rd F.PAIR_HB_LIMIT_HCLK = n →
    s.hub.elapsed s.hub.rel.beatAt (if n < 128 then 128 else n) = true → s.hub.flag F.PAIR_CTRL_AUTO_TAKEOVER = true →
    s.hub.linkSt = Lk.DISABLED → s.hub.harv.op = 0 → s.hub.digTiles.active = false → s.hub.digExt.active = false →
    Answers .heartbeatTimeout s fun h =>
      h.rd F.PAIR_STATE_ACTIVE = (s.hub.rd F.PAIR_STATE_ACTIVE + 1) % 2 ∧ h.rd F.PAIR_STATE_TAKEOVER = 1 ∧ h.rd F.PAIR_STATE_STANDBY = 2 ∧
      h.rel.takeoverAt = s.hub.time.hclk ∧
      h.rd F.PAIR_TAKEOVERS_COUNT = sat F.PAIR_TAKEOVERS_COUNT.width (s.hub.rd F.PAIR_TAKEOVERS_COUNT + 1) ∧
      h.shows Ev.TAKEOVER_START (1 - s.hub.rd F.PAIR_STATE_ACTIVE) = true ∧ h.shows Ev.STANDBY_LOST (s.hub.rd F.PAIR_STATE_ACTIVE) = true ∧
      s.hub.rest h = { s.hub with rel := h.rel, hi := h.hi, bist := h.bist, link := (s.hub.rest h).link, fed := h.fed } ∧
      h.rd F.PAIR_STATE_LAST_CAUSE = 2 ∧ s.hub.keepsOff h [Pg.PAIR, Pg.LINK, Pg.FED, Pg.RACK, Pg.REL]) ∧
  (∀ (s : State),
    s.hub.calm = true → s.hub.flag F.PAIR_STATE_TAKEOVER = true → s.hub.harv.op = 0 → s.hub.taste.bufs.cells = [] →
    s.hub.digTiles.active = false → s.hub.digExt.active = false → s.hub.bist.runs = [] → s.hub.ladder.active = false →
    s.hub.rel.ckptRack.active = none → s.hub.rel.mirrorRegs.cells = [] → s.hub.rel.ckptGood = true → s.hub.rel.ckptStats = [] →
    s.hub.rel.ckptOos = [] → s.hub.openSlots = [] → (s.hub.coop 0).st = .empty → (s.hub.coop 1).st = .empty →
    Answers .takeoverDone s fun h =>
      h.rd F.PAIR_STATE_TAKEOVER = 0 ∧ h.reg R.PAIR_TAKEOVER_TIME = sat 32 (s.hub.time.hclk - s.hub.rel.takeoverAt) ∧
      h.rd F.PAIR_CMD_STATUS_DONE = 1 ∧ h.rack = { s.hub.rel.ckptRack with nextId := s.hub.rack.nextId, ask := s.hub.rack.ask } ∧
      h.auth = { s.hub.auth with grants := s.hub.rel.ckptGrants } ∧ h.shows Ev.TAKEOVER_DONE (s.hub.rd F.PAIR_STATE_ACTIVE) = true ∧
      (s.hub.trace.frames.cells = [] → h.tiles = s.hub.tiles) ∧
      s.hub.rest h = { s.hub with rack := h.rack, auth := h.auth, harv := h.harv, lanes := h.lanes, canes := h.canes, cell := h.cell, trace := h.trace, tiles := h.tiles } ∧
      s.hub.keepsOff h [Pg.PAIR, Pg.TRACE]) ∧
  (∀ (s : State) (r : Req),
    s.hub.calm = true → s.hub.takesWrite r R.PAIR_CMD 2 = true → s.hub.pairCheck 2 = St.OK →
    Answers (.restoreStandby r) s fun h =>
      h.tookWrite r ∧ h.rd F.PAIR_STATE_STANDBY = 1 ∧ h.rel.ckptRack = s.hub.rack ∧ h.rel.ckptGrants = s.hub.auth.grants ∧
      h.rel.ckptGood = true ∧ h.rel.pathLost = [] ∧ h.rel.beatAt = s.hub.time.hclk ∧ h.reg64 R.PAIR_CKPT_GCN_LO = s.hub.now ∧
      h.shows Ev.STANDBY_RESTORED (1 - s.hub.rd F.PAIR_STATE_ACTIVE) = true ∧ h.rd F.PAIR_CMD_STATUS_STATUS = St.OK ∧
      s.hub.rest h = { s.hub with rel := h.rel } ∧ s.hub.keepsOff h [Pg.PAIR]) ∧
  (∀ (s : State) (r : Req),
    s.hub.calm = true → s.hub.takesWrite r R.PAIR_CMD 3 = true → s.hub.pairCheck 3 = St.OK →
    Answers (.pairClearStats r) s fun h =>
      h.tookWrite r ∧ h.reg R.PAIR_TAKEOVERS = 0 ∧ h.rd F.PAIR_CMD_STATUS_STATUS = St.OK ∧ s.hub.rest h = s.hub ∧
      s.hub.keeps h [R.PAIR_TAKEOVERS, R.PAIR_CMD_STATUS]) ∧
  (∀ (s : State) (path : Fin 2) (addr : Nat) (v : Word),
    s.hub.calm = true → s.hub.pairReady = true →
    Answers (.mirrorEntryRx path true (.register addr v)) s fun h =>
      h.rel = { s.hub.rel with pathLost := removeNat path s.hub.rel.pathLost, mirrorRegs := s.hub.rel.mirrorRegs.set (regKey (normAddr addr) (s.hub.bankOf (normAddr addr))) (BitVec.ofNat 32 (s.hub.regB (normAddr addr) (s.hub.bankOf (normAddr addr))), v) } ∧
      s.hub.rest h = { s.hub with rel := h.rel } ∧ s.hub.keeps h []) ∧
  (∀ (s : State) (path : Fin 2),
    s.hub.calm = true → s.hub.pairReady = true →
    Answers (.mirrorEntryRx path true .heartbeat) s fun h =>
      h.rel = { s.hub.rel with pathLost := removeNat path s.hub.rel.pathLost, beatAt := s.hub.time.hclk } ∧
      s.hub.rest h = { s.hub with rel := h.rel } ∧ s.hub.keeps h []) ∧
  (∀ (s : State) (path : Fin 2) (e : MirrorEntry),
    s.hub.calm = true → s.hub.pairReady = true → s.hub.rel.pathLost = [] →
    Answers (.mirrorEntryRx path false e) s fun h =>
      h.rel = { s.hub.rel with pathLost := [(path : Nat)] } ∧ h.hasErr Er.PAIR_MIRROR_PATH = true ∧ h.shows Ev.MIRROR_PATH path = true ∧
      s.hub.rest h = { s.hub with rel := h.rel } ∧ s.hub.keeps h [R.PG_ERROR + Pg.PAIR * 0x1000, R.PG_ERROR_INFO + Pg.PAIR * 0x1000]) ∧
  (∀ (s : State) (path : Fin 2),
    s.hub.calm = true → s.hub.pairReady = true → s.hub.rel.pathLost = [] →
    Answers (.mirrorPathLoss path) s fun h =>
      h.rel = { s.hub.rel with pathLost := [(path : Nat)] } ∧ h.hasErr Er.PAIR_MIRROR_PATH = true ∧ h.shows Ev.MIRROR_PATH path = true ∧
      s.hub.rest h = { s.hub with rel := h.rel } ∧ s.hub.keeps h [R.PG_ERROR + Pg.PAIR * 0x1000, R.PG_ERROR_INFO + Pg.PAIR * 0x1000]) ∧
  (∀ (s : State),
    s.hub.calm = true → s.hub.pairReady = true → s.hub.flag F.PAIR_CTRL_CKPT_EN = true →
    s.hub.elapsed s.hub.rel.ckptAt s.hub.ckptPeriod = true →
    Answers .checkpointPeriod s fun h =>
      h.rel = { s.hub.rel with ckptAt := s.hub.time.hclk } ∧ s.hub.rest h = { s.hub with rel := h.rel } ∧ s.hub.keeps h []) ∧
  (∀ (s : State),
    s.hub.calm = true → s.hub.pairReady = true →
    Answers (.checkpointRx true) s fun h =>
      h.rel = { s.hub.rel with ckptRack := s.hub.rack, ckptGrants := s.hub.auth.grants, ckptOos := s.hub.oosTiles, ckptStats := statRegs.map (fun a => (a, s.hub.reg a)), ckptGood := true, ckptAt := s.hub.time.hclk, ckptBad := 0 } ∧
      h.reg64 R.PAIR_CKPT_GCN_LO = s.hub.now ∧ s.hub.rest h = { s.hub with rel := h.rel } ∧
      s.hub.keeps h [R.PAIR_CKPT_GCN_LO, R.PAIR_CKPT_GCN_HI]) ∧
  (∀ (s : State),
    s.hub.calm = true → s.hub.pairReady = true → s.hub.rel.ckptBad < 2 →
    Answers (.checkpointRx false) s fun h =>
      h.rel = { s.hub.rel with ckptBad := s.hub.rel.ckptBad + 1 } ∧
      h.rd F.PAIR_TAKEOVERS_CKPT_FAILS = sat F.PAIR_TAKEOVERS_CKPT_FAILS.width (s.hub.rd F.PAIR_TAKEOVERS_CKPT_FAILS + 1) ∧
      h.rd F.PAIR_STATE_STANDBY = s.hub.rd F.PAIR_STATE_STANDBY ∧ h.shows Ev.CHECKPOINT_FAIL 0 = true ∧
      s.hub.rest h = { s.hub with rel := h.rel } ∧ s.hub.keepsOff h [Pg.PAIR]) ∧
  (∀ (s : State),
    s.hub.calm = true → s.hub.pairReady = true → s.hub.rel.ckptBad = 2 →
    Answers (.checkpointRx false) s fun h =>
      h.rel = { s.hub.rel with ckptBad := 0 } ∧ h.rd F.PAIR_STATE_STANDBY = 2 ∧ h.shows Ev.CHECKPOINT_FAIL 0 = true ∧
      h.shows Ev.STANDBY_LOST (1 - s.hub.rd F.PAIR_STATE_ACTIVE) = true ∧
      s.hub.rest h = { s.hub with rel := h.rel, bist := { s.hub.bist with standbyPass := false } } ∧ s.hub.keepsOff h [Pg.PAIR])

/-- While the port listens a codeword that decodes updates the expected CW_SEQ, the descrambler and the run of good codewords (stated below the lock); a good flit in UP updates the credits, an in-order DATA flit advances the expected SEQ and frees its buffer, a bad one asks for a replay once; an INIT flit in INIT gives the peer its version, address and credits; each flit slot hands one flit to the PCS (NULL in FEC_LOCK, the flit of the replay, or DATA of the COMMAND class); replay, NAK, idle, training and retrain timers act as their rules say; RETRAIN, DOWN and CLEAR_STATS do what they name; a message acknowledged leaves the list. -/
def Obligations.the_rack_link_trains_retries_and_goes_down : Prop :=
  (∀ (s : State) (symbols : List (BitVec 10)) (m : List Nat) (n : Nat) (good : Bool),
    s.hub.calm = true → symbols.length = 544 → s.hub.flag F.LINK_CTRL_PCS_LOOPBACK = false → s.hub.linkSt = Lk.FEC_LOCK →
    s.hub.flag F.LINK_STATE_FEC_LOCKED = false → s.hub.link.lockRun < 63 → rsDecode (symbols.map BitVec.toNat) = some (m, n) →
    ((codewordOf m).sync && (codewordOf m).seq == s.hub.link.cwExpect) = good →
    Answers (.pcsCodewordRx symbols) s fun h =>
      h.link.cwExpect = ((codewordOf m).seq + 1) % 256 ∧ h.link.lockRun = (if good then s.hub.link.lockRun + 1 else 0) ∧
      h.linkSt = Lk.FEC_LOCK ∧ h.link.reqQ = s.hub.link.reqQ ∧ s.hub.rest h = { s.hub with link := (s.hub.rest h).link } ∧ s.hub.keeps h []) ∧
  (∀ (s : State) (flit : List Byte),
    s.hub.calm = true → flit.length = 80 → s.hub.linkUp = true → flitGood flit = true → Fl.kind flit = 0 → bitAt (Fl.ack flit) 12 = false →
    bitAt (Fl.nak flit) 12 = false →
    Answers (.flitRx flit) s fun h =>
      h.link = { s.hub.link with lastGood := s.hub.time.hclk, credit := s.hub.link.credit.set (Fl.credClass flit) (s.hub.link.credit.get (Fl.credClass flit) 0 + (leAt flit 7 1 + 256 - s.hub.link.credLast.get (Fl.credClass flit) 0) % 256), credLast := s.hub.link.credLast.set (Fl.credClass flit) (leAt flit 7 1) } ∧
      s.hub.rest h = { s.hub with link := (s.hub.rest h).link } ∧ s.hub.keeps h []) ∧
  (∀ (s : State) (flit : List Byte) (left : List Byte),
    s.hub.calm = true → flit.length = 80 → s.hub.linkUp = true → flitGood flit = true → Fl.kind flit = 1 → Fl.cls flit = 0 →
    Fl.seq flit = s.hub.link.rxExpect → s.hub.commandCredits ≠ 0 → takeMessages 9 (s.hub.link.rxMsg ++ Fl.payload flit) [] = ([], left) →
    bitAt (Fl.ack flit) 12 = false → bitAt (Fl.nak flit) 12 = false →
    Answers (.flitRx flit) s fun h =>
      h.link = { s.hub.link with lastGood := s.hub.time.hclk, credit := s.hub.link.credit.set (Fl.credClass flit) (s.hub.link.credit.get (Fl.credClass flit) 0 + (leAt flit 7 1 + 256 - s.hub.link.credLast.get (Fl.credClass flit) 0) % 256), credLast := s.hub.link.credLast.set (Fl.credClass flit) (leAt flit 7 1), rxExpect := (s.hub.link.rxExpect + 1) % 4096, rxAny := true, nakOut := false, freed := s.hub.link.freed.set 0 ((s.hub.link.freed.get 0 0 + 1) % 256), rxMsg := left } ∧
      h.reg64 R.LINK_FLITS_RX_LO = (s.hub.reg64 R.LINK_FLITS_RX_LO + 1) % 2 ^ 64 ∧
      s.hub.rest h = { s.hub with link := (s.hub.rest h).link } ∧ s.hub.keeps h [R.LINK_FLITS_RX_LO, R.LINK_FLITS_RX_HI]) ∧
  (∀ (s : State) (flit : List Byte),
    s.hub.calm = true → flit.length = 80 → s.hub.linkUp = true → flitGood flit = false → s.hub.link.nakOut = false →
    Answers (.flitRx flit) s fun h =>
      h.link = { s.hub.link with nakOut := true, nakAt := s.hub.time.hclk, lastGood := if flitIntact flit then s.hub.time.hclk else s.hub.link.lastGood } ∧
      h.hasErr Er.LINK_FLIT_CRC = true ∧ h.rd F.LINK_REPLAYS_NAKS = sat F.LINK_REPLAYS_NAKS.width (s.hub.rd F.LINK_REPLAYS_NAKS + 1) ∧
      s.hub.rest h = { s.hub with link := (s.hub.rest h).link } ∧
      s.hub.keeps h [R.LINK_REPLAYS, R.PG_ERROR + Pg.LINK * 0x1000, R.PG_ERROR_INFO + Pg.LINK * 0x1000]) ∧
  (∀ (s : State) (flit : List Byte),
    s.hub.calm = true → flit.length = 80 → s.hub.linkSt = Lk.INIT → flitGood flit = true → Fl.kind flit = 2 →
    leAt (Fl.payload flit) 0 1 = 1 → s.hub.link.initAckSent = false →
    Answers (.initFlitRx flit) s fun h =>
      h.link = { s.hub.link with lastGood := s.hub.time.hclk, initAcked := true, initPeerAcked := s.hub.link.initPeerAcked || bitAt (leAt (Fl.payload flit) 1 1) 0, credit := ⟨[(0, leAt (Fl.payload flit) 4 1), (1, leAt (Fl.payload flit) 5 1), (2, leAt (Fl.payload flit) 6 2)]⟩ } ∧
      h.rd F.LINK_PEER_VERSION = 1 ∧ h.rd F.LINK_PEER_ID = leAt (Fl.payload flit) 2 2 % 2 ^ F.LINK_PEER_ID.width ∧
      s.hub.rest h = { s.hub with link := (s.hub.rest h).link } ∧ s.hub.keeps h [F.LINK_PEER_VERSION.addr, F.LINK_PEER_ID.addr]) ∧
  (∀ (s : State) (flit : List Byte),
    s.hub.calm = true → flit.length = 80 → s.hub.linkSt = Lk.INIT → flitGood flit = true → Fl.kind flit = 2 → leAt (Fl.payload flit) 0 1 ≠ 1 →
    Answers (.initFlitRx flit) s fun h =>
      h.shows Ev.LINK_DOWN 0 = true ∧
      h.rd F.LINK_DOWN_COUNT_COUNT = sat F.LINK_DOWN_COUNT_COUNT.width (s.hub.rd F.LINK_DOWN_COUNT_COUNT + 1) ∧ h.link.noAuto = true ∧
      h.linkSt = Lk.DOWN ∧ h.rd F.LINK_STATE_DOWN_CAUSE = Dc.VERSION ∧ h.link.since = s.hub.time.hclk ∧ h.link.replayBuf = [] ∧
      h.link.cmdQ = [] ∧ h.link.bulkQ = [] ∧ h.link.rxMsg = [] ∧ s.hub.rest h = { s.hub with link := (s.hub.rest h).link } ∧
      s.hub.keepsOff h [Pg.LINK]) ∧
  (∀ (s : State),
    s.hub.calm = true → s.hub.linkSt = Lk.FEC_LOCK → s.hub.link.txFifo.length < 16 →
    Answers .flitSlot s fun h =>
      h.link.txFifo = s.hub.link.txFifo ++ [(s.hub.flit 0 0 0 255 []).1] ∧
      h.link.txOut = s.hub.link.txOut ++ [(s.hub.flit 0 0 0 255 []).1] ∧ h.link.credClass = (s.hub.link.credClass + 1) % 3 ∧
      s.hub.rest h = { s.hub with link := (s.hub.rest h).link } ∧ s.hub.keeps h []) ∧
  (∀ (s : State) (p : Nat),
    s.hub.calm = true → s.hub.linkSt = Lk.UP → s.hub.link.txFifo.length < 16 → s.hub.link.replayPos = some p →
    Answers .flitSlot s fun h =>
      h.link.txOut = s.hub.link.txOut ++ [(s.hub.resent (nth s.hub.link.replayBuf p [])).1] ∧
      h.link.replayPos = (if p + 1 < s.hub.link.replayBuf.length then some (p + 1) else none) ∧ h.link.replayBuf = s.hub.link.replayBuf ∧
      h.reg64 R.LINK_FLITS_TX_LO = (s.hub.reg64 R.LINK_FLITS_TX_LO + 1) % 2 ^ 64 ∧
      s.hub.rest h = { s.hub with link := (s.hub.rest h).link } ∧ s.hub.keeps h [R.LINK_FLITS_TX_LO, R.LINK_FLITS_TX_HI]) ∧
  (∀ (s : State),
    s.hub.calm = true → s.hub.linkSt = Lk.UP → s.hub.link.txFifo.length < 16 → s.hub.link.replayPos = none → s.hub.mayClass 0 = true →
    Answers .flitSlot s fun h =>
      h.link.txNext = (s.hub.link.txNext + 1) % 4096 ∧ h.link.replayBuf.length = s.hub.link.replayBuf.length + 1 ∧
      h.link.replayBuf.take s.hub.link.replayBuf.length = s.hub.link.replayBuf ∧ h.link.txOut.getLast? = h.link.replayBuf.getLast? ∧
      h.link.credit.get 0 0 = s.hub.link.credit.get 0 0 - 1 ∧ h.reg64 R.LINK_FLITS_TX_LO = (s.hub.reg64 R.LINK_FLITS_TX_LO + 1) % 2 ^ 64 ∧
      s.hub.rest h = { s.hub with link := (s.hub.rest h).link } ∧ s.hub.keeps h [R.LINK_FLITS_TX_LO, R.LINK_FLITS_TX_HI]) ∧
  (∀ (s : State),
    s.hub.calm = true → s.hub.linkSt = Lk.UP → s.hub.rack.active = none → 16 ≤ s.hub.link.txFifo.length →
    Answers .flitSlot s fun h =>
      h.hasErr Er.LINK_FIFO = true ∧ h.shows Ev.LINK_DOWN 0 = true ∧
      h.rd F.LINK_DOWN_COUNT_COUNT = sat F.LINK_DOWN_COUNT_COUNT.width (s.hub.rd F.LINK_DOWN_COUNT_COUNT + 1) ∧ h.linkSt = Lk.DOWN ∧
      h.rd F.LINK_STATE_DOWN_CAUSE = Dc.PROTOCOL ∧ h.link.since = s.hub.time.hclk ∧ h.link.replayBuf = [] ∧ h.link.cmdQ = [] ∧
      h.link.bulkQ = [] ∧ h.link.rxMsg = [] ∧ s.hub.rest h = { s.hub with link := (s.hub.rest h).link } ∧ s.hub.keepsOff h [Pg.LINK]) ∧
  (∀ (s : State),
    s.hub.calm = true → s.hub.linkUp = true → s.hub.link.replayBuf ≠ [] → s.hub.elapsed s.hub.link.progressAt s.hub.link.timeout = true →
    s.hub.link.replayRun < s.hub.link.limit →
    Answers .linkReplayTimeout s fun h =>
      h.link.replayPos = some 0 ∧ h.link.replayRun = s.hub.link.replayRun + 1 ∧ h.link.progressAt = s.hub.time.hclk ∧
      h.link.replayBuf = s.hub.link.replayBuf ∧ h.linkUp = true ∧
      h.rd F.LINK_REPLAYS_REPLAYS = sat F.LINK_REPLAYS_REPLAYS.width (s.hub.rd F.LINK_REPLAYS_REPLAYS + 1) ∧
      s.hub.rest h = { s.hub with link := (s.hub.rest h).link } ∧ s.hub.keeps h [R.LINK_REPLAYS]) ∧
  (∀ (s : State),
    s.hub.calm = true → s.hub.linkUp = true → s.hub.link.replayBuf ≠ [] → s.hub.elapsed s.hub.link.progressAt s.hub.link.timeout = true →
    s.hub.link.limit ≤ s.hub.link.replayRun → s.hub.rack.active = none →
    Answers .linkReplayTimeout s fun h =>
      h.hasErr Er.LINK_REPLAY_LIMIT = true ∧ h.shows Ev.REPLAY_LIMIT 0 = true ∧ h.shows Ev.LINK_DOWN 0 = true ∧ h.linkSt = Lk.DOWN ∧
      h.rd F.LINK_STATE_DOWN_CAUSE = Dc.REPLAY_LIMIT ∧ h.link.since = s.hub.time.hclk ∧ h.link.replayBuf = [] ∧ h.link.cmdQ = [] ∧
      h.link.bulkQ = [] ∧ h.link.rxMsg = [] ∧ s.hub.rest h = { s.hub with link := (s.hub.rest h).link } ∧ s.hub.keepsOff h [Pg.LINK]) ∧
  (∀ (s : State),
    s.hub.calm = true → s.hub.linkUp = true → s.hub.link.nakOut = true → s.hub.elapsed s.hub.link.nakAt s.hub.link.timeout = true →
    Answers .nakTimeout s fun h =>
      h.link = { s.hub.link with nakAt := s.hub.time.hclk } ∧
      h.rd F.LINK_REPLAYS_NAKS = sat F.LINK_REPLAYS_NAKS.width (s.hub.rd F.LINK_REPLAYS_NAKS + 1) ∧
      s.hub.rest h = { s.hub with link := (s.hub.rest h).link } ∧ s.hub.keeps h [R.LINK_REPLAYS]) ∧
  (∀ (s : State) (n : Nat),
    s.hub.calm = true → s.hub.linkSt = Lk.UP → s.hub.rack.active = none → s.hub.rd F.LINK_IDLE_LIMIT_HCLK = n →
    s.hub.elapsed s.hub.link.lastGood (if n < 256 then 256 else n) = true →
    Answers .linkIdleTimeout s fun h =>
      h.shows Ev.LINK_DOWN 0 = true ∧
      h.rd F.LINK_DOWN_COUNT_COUNT = sat F.LINK_DOWN_COUNT_COUNT.width (s.hub.rd F.LINK_DOWN_COUNT_COUNT + 1) ∧ h.linkSt = Lk.DOWN ∧
      h.rd F.LINK_STATE_DOWN_CAUSE = Dc.IDLE ∧ h.link.since = s.hub.time.hclk ∧ h.link.replayBuf = [] ∧ h.link.cmdQ = [] ∧
      h.link.bulkQ = [] ∧ h.link.rxMsg = [] ∧ s.hub.rest h = { s.hub with link := (s.hub.rest h).link } ∧ s.hub.keepsOff h [Pg.LINK]) ∧
  (∀ (s : State),
    s.hub.calm = true → (s.hub.linkSt = Lk.FEC_LOCK ∨ s.hub.linkSt = Lk.PMA_WAIT) →
    s.hub.elapsed s.hub.link.retrainAt (s.hub.rd F.LINK_TRAIN_LIMIT_HCLK) = true →
    Answers .linkTrainTimeout s fun h =>
      h.hasErr Er.LINK_TRAIN = true ∧ h.rd F.LINK_CMD_STATUS_STATUS = St.TIMEOUT ∧ h.rd F.LINK_CMD_STATUS_DONE = 1 ∧
      h.reg R.LINK_DOWN_COUNT = s.hub.reg R.LINK_DOWN_COUNT ∧ h.linkSt = Lk.DOWN ∧ h.rd F.LINK_STATE_DOWN_CAUSE = Dc.TRAIN_TIMEOUT ∧
      h.link.since = s.hub.time.hclk ∧ h.link.replayBuf = [] ∧ h.link.cmdQ = [] ∧ h.link.bulkQ = [] ∧ h.link.rxMsg = [] ∧
      s.hub.rest h = { s.hub with link := (s.hub.rest h).link } ∧ s.hub.keepsOff h [Pg.LINK]) ∧
  (∀ (s : State),
    s.hub.calm = true → s.hub.linkSt = Lk.DOWN → s.hub.portOn = true → s.hub.flag F.LINK_CTRL_AUTO_RETRAIN = true →
    s.hub.link.noAuto = false → s.hub.elapsed s.hub.link.since Config.millisecond = true →
    Answers .linkRetrainTimer s fun h =>
      h.linkSt = Lk.PMA_WAIT ∧ h.link.retrainAt = s.hub.time.hclk ∧ h.link.lockRun = 0 ∧ h.shows Ev.LINK_RETRAIN 0 = true ∧
      h.rd F.LINK_CMD_STATUS_DONE = 0 ∧ s.hub.rest h = { s.hub with link := (s.hub.rest h).link } ∧
      s.hub.keeps h [R.LINK_STATE, R.LINK_CMD_STATUS]) ∧
  (∀ (s : State),
    s.hub.calm = true → s.hub.isLead = true → s.hub.linkSt = Lk.PMA_WAIT →
    Answers (.pmaReadyChange true) s fun h =>
      h.linkSt = Lk.FEC_LOCK ∧ h.rd F.LINK_STATE_PMA_READY = 1 ∧
      h.link = { s.hub.link with since := s.hub.time.hclk, lockRun := 0, badRun := 0 } ∧
      s.hub.rest h = { s.hub with link := (s.hub.rest h).link } ∧ s.hub.keeps h [R.LINK_STATE]) ∧
  (∀ (s : State),
    s.hub.calm = true → s.hub.isLead = true → s.hub.linkSt = Lk.UP → s.hub.rack.active = none →
    Answers (.pmaReadyChange false) s fun h =>
      h.rd F.LINK_STATE_PMA_READY = 0 ∧ h.shows Ev.LINK_DOWN 0 = true ∧
      h.rd F.LINK_DOWN_COUNT_COUNT = sat F.LINK_DOWN_COUNT_COUNT.width (s.hub.rd F.LINK_DOWN_COUNT_COUNT + 1) ∧ h.linkSt = Lk.DOWN ∧
      h.rd F.LINK_STATE_DOWN_CAUSE = Dc.PMA_LOST ∧ h.link.since = s.hub.time.hclk ∧ h.link.replayBuf = [] ∧ h.link.cmdQ = [] ∧
      h.link.bulkQ = [] ∧ h.link.rxMsg = [] ∧ s.hub.rest h = { s.hub with link := (s.hub.rest h).link } ∧ s.hub.keepsOff h [Pg.LINK]) ∧
  (∀ (s : State) (r : Req),
    s.hub.calm = true → s.hub.takesWrite r R.LINK_CMD 1 = true → s.hub.linkCheck 1 = St.OK → s.hub.linkSt = Lk.UP → s.hub.rack.active = none →
    Answers (.linkRetrain r) s fun h =>
      h.tookWrite r ∧ h.linkSt = Lk.PMA_WAIT ∧ h.rd F.LINK_STATE_DOWN_CAUSE = Dc.COMMAND ∧ h.link.retrainAt = s.hub.time.hclk ∧
      h.link.cmdQ = [] ∧ h.rd F.LINK_CMD_STATUS_DONE = 0 ∧
      h.rd F.LINK_DOWN_COUNT_COUNT = sat F.LINK_DOWN_COUNT_COUNT.width (s.hub.rd F.LINK_DOWN_COUNT_COUNT + 1) ∧
      h.shows Ev.LINK_DOWN 0 = true ∧ h.shows Ev.LINK_RETRAIN 0 = true ∧ h.rd F.LINK_CMD_STATUS_STATUS = St.OK ∧
      h.rd F.LINK_CMD_STATUS_OP = 1 ∧ s.hub.rest h = { s.hub with link := (s.hub.rest h).link } ∧ s.hub.keepsOff h [Pg.LINK]) ∧
  (∀ (s : State) (r : Req),
    s.hub.calm = true → s.hub.takesWrite r R.LINK_CMD 2 = true → s.hub.linkCheck 2 = St.OK → s.hub.linkSt = Lk.UP → s.hub.rack.active = none →
    Answers (.linkDownCmd r) s fun h =>
      h.tookWrite r ∧ h.rd F.LINK_DOWN_COUNT_COUNT = sat F.LINK_DOWN_COUNT_COUNT.width (s.hub.rd F.LINK_DOWN_COUNT_COUNT + 1) ∧
      h.shows Ev.LINK_DOWN 0 = true ∧ h.rd F.LINK_CMD_STATUS_DONE = 1 ∧ h.rd F.LINK_CMD_STATUS_STATUS = St.OK ∧
      h.rd F.LINK_CMD_STATUS_OP = 2 ∧ h.linkSt = Lk.DOWN ∧ h.rd F.LINK_STATE_DOWN_CAUSE = Dc.COMMAND ∧ h.link.since = s.hub.time.hclk ∧
      h.link.replayBuf = [] ∧ h.link.cmdQ = [] ∧ h.link.bulkQ = [] ∧ h.link.rxMsg = [] ∧
      s.hub.rest h = { s.hub with link := (s.hub.rest h).link } ∧ s.hub.keepsOff h [Pg.LINK]) ∧
  (∀ (s : State) (r : Req),
    s.hub.calm = true → s.hub.takesWrite r R.LINK_CMD 3 = true → s.hub.linkCheck 3 = St.OK →
    Answers (.linkClearStats r) s fun h =>
      h.tookWrite r ∧ h.link = { s.hub.link with evLoss := {}, fecEvAt := none, replayEvAt := none } ∧ h.reg64 R.LINK_FEC_CORR_LO = 0 ∧
      h.reg R.LINK_FEC_UNCORR = 0 ∧ h.reg R.LINK_REPLAYS = 0 ∧ h.reg64 R.LINK_FLITS_TX_LO = 0 ∧ h.reg64 R.LINK_FLITS_RX_LO = 0 ∧
      h.rd F.LINK_TAG_DUPS = 0 ∧ h.reg R.LINK_DOWN_COUNT = 0 ∧ h.rd F.LINK_CMD_STATUS_STATUS = St.OK ∧ h.rd F.LINK_CMD_STATUS_OP = 3 ∧
      s.hub.rest h = { s.hub with link := (s.hub.rest h).link } ∧ s.hub.keepsOff h [Pg.LINK]) ∧
  (∀ (s : State) (m : Msg),
    s.hub.calm = true → s.hub.link.inFlight.find? (fun p => p.1 == 4096) = some (4096, m) → m.src = .resp →
    Answers .messageDelivered s fun h =>
      h.link = { s.hub.link with inFlight := s.hub.link.inFlight.erase (4096, m) } ∧
      s.hub.rest h = { s.hub with link := (s.hub.rest h).link } ∧ s.hub.keeps h [])

/-- A request that passes the format check under a new TAG while the link is UP is executed: REG_READ answers the register of this hub, or leaves as a request to another hub of the package; REG_WRITE writes it (stated of GLB_CTX_RECT); CORK starts the stop and answers its acceptance without FINAL; XPKG with a wrong hub address answers BAD_ARG, an XPKG stop of the package starts it under its XID; an XPKG_REPORT takes its package off the cork that waits for it; PEER_LOST raises the event once and answers OK; TIME_PING is answered with GCN, the epoch and its own 8 bytes. A repeat of a request gets the kept response again. -/
def Obligations.the_rack_port_executes_the_requests_it_takes : Prop :=
  (∀ (s : State) (tag : BitVec 16) (dest : BitVec 16) (body : List Byte) (m : Hub) (a : Nat),
    s.hub.calm = true → s.hub.takesMessage Mt.REG_READ tag.toNat dest.toNat body = true → dest.toNat = s.hub.hubAddr →
    s.hub.wr F.LINK_TAG_LAST tag.toNat = m → leAt body 0 4 = a → leAt body 4 1 = 1 → a < 2 ^ 20 → m.accessStatus .port a false 0 = St.OK →
    (regDef (normAddr a)).isSome = true → inWindow (normAddr a) = false → isHi (normAddr a) = false →
    [R.TASTE_EVID_DATA, R.COOP_PROG_DATA, R.COOP_DATA_DATA, R.AUTH_DATA, R.TIME_GCN_LO].contains (baseAddr (normAddr a)) = false →
    isLo (normAddr a) = false →
    Answers (.portRegRead tag dest body) s fun h =>
      s.hub.portAnswers h tag.toNat Mt.REG_READ Mt.REG_RESP true (regRespBody St.OK 1 [m.value .port (normAddr a) % 2 ^ 32]) ∧
      h.rd F.LINK_TAG_LAST = tag.toNat % 2 ^ F.LINK_TAG_LAST.width ∧ s.hub.rest h = { s.hub with link := (s.hub.rest h).link } ∧
      s.hub.keeps h [F.LINK_TAG_LAST.addr]) ∧
  (∀ (s : State) (tag : BitVec 16) (dest : BitVec 16) (body : List Byte),
    s.hub.calm = true → s.hub.takesMessage Mt.REG_READ tag.toNat dest.toNat body = true → dest.toNat ≠ s.hub.hubAddr →
    packageOf dest.toNat = packageOf s.hub.hubAddr → fieldOf dest.toNat ≠ 127 → leAt body 4 1 = 1 → leAt body 0 4 < 2 ^ 20 →
    s.hub.relayStatus (leAt body 0 4) 1 false = St.OK →
    Answers (.portRegRead tag dest body) s fun h =>
      { txn := s.hub.newTxn, dest := dest.toNat, opcode := Op.REG_READ, sentAt := s.hub.time.hclk, who := .port tag.toNat 1 false } ∈ h.fed.reqs ∧
      h.link.cmdQ = s.hub.link.cmdQ ∧ h.rd F.LINK_TAG_LAST = tag.toNat % 2 ^ F.LINK_TAG_LAST.width ∧
      s.hub.rest h = { s.hub with fed := h.fed, link := (s.hub.rest h).link } ∧
      s.hub.keeps h [F.LINK_TAG_LAST.addr, R.PG_ERROR + Pg.FED * 0x1000, R.PG_ERROR_INFO + Pg.FED * 0x1000]) ∧
  (∀ (s : State) (tag : BitVec 16) (dest : BitVec 16) (body : List Byte) (x : TagEnt),
    s.hub.calm = true → s.hub.linkUp = true → s.hub.relayPending = false →
    messageOk (message Mt.REG_READ 0 tag.toNat dest.toNat body) = true →
    s.hub.link.tagTab.find? (fun e => e.tag == tag.toNat && e.type == Mt.REG_READ) = some x → x.resp ≠ [] →
    Answers (.portRegRead tag dest body) s fun h =>
      h.link.cmdQ = s.hub.link.cmdQ ++ [{ cls := 0, bytes := x.resp, src := .resp }] ∧ h.link.tagTab = s.hub.link.tagTab ∧
      h.shows Ev.DUP_COMMAND 0 = true ∧ h.rd F.LINK_TAG_DUPS = sat F.LINK_TAG_DUPS.width (s.hub.rd F.LINK_TAG_DUPS + 1) ∧
      s.hub.rest h = { s.hub with link := (s.hub.rest h).link } ∧ s.hub.keeps h [F.LINK_TAG_DUPS.addr]) ∧
  (∀ (s : State) (tag : BitVec 16) (dest : BitVec 16) (body : List Byte) (v : Nat),
    s.hub.calm = true → s.hub.takesMessage Mt.REG_WRITE tag.toNat dest.toNat body = true → dest.toNat = s.hub.hubAddr →
    leAt body 0 4 = R.GLB_CTX_RECT → leAt body 4 1 = 1 → leAt body 8 4 = v → s.hub.takesWrite .port R.GLB_CTX_RECT v = true →
    s.hub.flag F.GLB_CMD_STATUS_DONE = true →
    Answers (.portRegWrite tag dest body) s fun h =>
      h.rd F.GLB_CTX_RECT_RECT = bitsOf v F.GLB_CTX_RECT_RECT.lo F.GLB_CTX_RECT_RECT.width ∧
      s.hub.portAnswers h tag.toNat Mt.REG_WRITE Mt.REG_RESP true (regRespBody St.OK 1 []) ∧
      h.rd F.LINK_TAG_LAST = tag.toNat % 2 ^ F.LINK_TAG_LAST.width ∧ s.hub.rest h = { s.hub with link := (s.hub.rest h).link } ∧
      s.hub.keeps h [F.LINK_TAG_LAST.addr, R.GLB_CTX_RECT]) ∧
  (∀ (s : State) (tag : BitVec 16) (dest : BitVec 16) (body : List Byte) (m : Hub) (z : Nat),
    s.hub.calm = true → s.hub.takesMessage Mt.CORK tag.toNat dest.toNat body = true → dest.toNat = s.hub.hubAddr →
    s.hub.wr F.LINK_TAG_LAST tag.toNat = m → leAt body 0 1 = 1 → m.corkCheck true 1 (corkBodyArgs body) = St.OK →
    m.alreadyStopped (corkBodyArgs body) = false → z ∈ m.liveSlots 1 (corkBodyArgs body) → (corkBodyArgs body).xpkg = false →
    Answers (.portCork tag dest body) s fun h =>
      (h.dom z).st = .stopping ∧ (h.dom z).stopScn = m.stopTarget (corkBodyArgs body) z ∧
      (∃ c ∈ h.corks, c.id = s.hub.nextOp ∧ c.op = 1 ∧ c.src = .port tag.toNat ∧ z ∈ c.live) ∧
      s.hub.portAnswers h tag.toNat Mt.CORK Mt.CORK_RESP false (corkRespBody St.OK 0 1 false false false 0 0) ∧
      h.corkShown = s.hub.corkShown ∧
      s.hub.rest h = { s.hub with doms := h.doms, tiles := h.tiles, corks := h.corks, nextOp := h.nextOp, fed := h.fed, link := (s.hub.rest h).link } ∧
      s.hub.keeps h [F.LINK_TAG_LAST.addr, R.PG_ERROR + Pg.FED * 0x1000, R.PG_ERROR_INFO + Pg.FED * 0x1000]) ∧
  (∀ (s : State) (tag : BitVec 16) (dest : BitVec 16) (body : List Byte),
    s.hub.calm = true → s.hub.takesMessage Mt.XPKG tag.toNat dest.toNat body = true → dest.toNat ≠ s.hub.hubAddr →
    Answers (.portXpkg tag dest body) s fun h =>
      s.hub.portAnswers h tag.toNat Mt.XPKG Mt.XPKG_REPORT true (xpkgReportBody (leAt body 4 4) St.BAD_ARG false s.hub.hubAddr 0) ∧
      h.rd F.LINK_TAG_LAST = tag.toNat % 2 ^ F.LINK_TAG_LAST.width ∧ s.hub.rest h = { s.hub with link := (s.hub.rest h).link } ∧
      s.hub.keeps h [F.LINK_TAG_LAST.addr]) ∧
  (∀ (s : State) (tag : BitVec 16) (dest : BitVec 16) (body : List Byte) (m : Hub) (a : CorkArgs) (z : Nat),
    s.hub.calm = true → s.hub.takesMessage Mt.XPKG tag.toNat dest.toNat body = true → dest.toNat = s.hub.hubAddr →
    s.hub.wr F.LINK_TAG_LAST tag.toNat = m → leAt body 0 1 = 1 → body.length = 36 → leAt body 8 1 = 1 →
    { corkBodyArgs (body.drop 8) with fed := true, xpkg := false } = a → m.tooSoon a = false → m.corkCheck false 1 a = St.OK →
    m.alreadyStopped a = false → z ∈ m.liveSlots 1 a →
    Answers (.portXpkg tag dest body) s fun h =>
      (h.dom z).st = .stopping ∧ (∃ c ∈ h.corks, c.id = s.hub.nextOp ∧ c.src = .xpkg (leAt body 4 4) tag.toNat ∧ z ∈ c.live) ∧
      h.link.cmdQ = s.hub.link.cmdQ ∧ h.rd F.LINK_TAG_LAST = tag.toNat % 2 ^ F.LINK_TAG_LAST.width ∧
      s.hub.rest h = { s.hub with doms := h.doms, tiles := h.tiles, corks := h.corks, nextOp := h.nextOp, fed := h.fed, link := (s.hub.rest h).link } ∧
      s.hub.keeps h [F.LINK_TAG_LAST.addr, R.PG_ERROR + Pg.FED * 0x1000, R.PG_ERROR_INFO + Pg.FED * 0x1000]) ∧
  (∀ (s : State) (tag : BitVec 16) (dest : BitVec 16) (body : List Byte) (c : CorkOp) (p : Nat) (q : Nat),
    s.hub.calm = true → s.hub.takesMessage Mt.XPKG_REPORT tag.toNat dest.toNat body = true → s.hub.corks = [c] → c.xpkg = true →
    c.xid = leAt body 0 4 → packageOf (leAt body 6 2) = p → c.packages = [p, q] → p ≠ q → leAt body 4 1 = St.OK → s.hub.harv.op = 0 →
    Answers (.portXpkgReport tag dest body) s fun h =>
      h.corks = [{ c with packages := [q], found := true }] ∧ s.hub.rest h = { s.hub with corks := h.corks } ∧ s.hub.keeps h []) ∧
  (∀ (s : State) (tag : BitVec 16) (dest : BitVec 16) (body : List Byte) (l : List Nat),
    s.hub.calm = true → s.hub.takesMessage Mt.PEER_LOST tag.toNat dest.toNat body = true → dest.toNat = s.hub.hubAddr →
    s.hub.isSafe = false → leAt body 1 1 ≤ 16 → (List.range (leAt body 1 1)).map (fun i => leAt body (4 + 2 * i) 2) = l →
    s.hub.peerSeen (leAt body 0 1) l = false → s.hub.corks = [] → s.hub.rd F.HANG_PEER_DEFAULT_POLICY = 0 →
    (List.range 16).all (fun i => s.hub.rdB F.HANG_PEER_POLICY_VALID i != 1) = true →
    Answers (.portPeerLost tag dest body) s fun h =>
      (leAt body 0 1, l, s.hub.time.hclk) ∈ h.hangCtl.lastPeer ∧ h.shows Ev.PEER_LOST (leAt body 0 1) = true ∧
      s.hub.portAnswers h tag.toNat Mt.PEER_LOST Mt.ERROR true (errorBody St.OK Mt.PEER_LOST) ∧
      h.rd F.LINK_TAG_LAST = tag.toNat % 2 ^ F.LINK_TAG_LAST.width ∧ h.hangCtl.peers = s.hub.hangCtl.peers ∧
      s.hub.rest h = { s.hub with hangCtl := h.hangCtl, fed := h.fed, link := (s.hub.rest h).link } ∧
      s.hub.keeps h [F.LINK_TAG_LAST.addr, R.PG_ERROR + Pg.FED * 0x1000, R.PG_ERROR_INFO + Pg.FED * 0x1000]) ∧
  (∀ (s : State) (tag : BitVec 16) (dest : BitVec 16) (body : List Byte),
    s.hub.calm = true → s.hub.takesMessage Mt.TIME_PING tag.toNat dest.toNat body = true → s.hub.isSafe = false →
    Answers (.timePing tag dest body) s fun h =>
      s.hub.portAnswers h tag.toNat Mt.TIME_PING Mt.TIME_PONG true (le 8 s.hub.time.gcn ++ zeros 8 ++ le 4 s.hub.epoch ++ body.take 8) ∧
      h.rd F.LINK_TAG_LAST = tag.toNat % 2 ^ F.LINK_TAG_LAST.width ∧ s.hub.rest h = { s.hub with link := (s.hub.rest h).link } ∧
      s.hub.keeps h [F.LINK_TAG_LAST.addr])

/-- A RUNNING cooper (of a hub whose REL_DEGRADED shows its causes, as it does after every command) at one of NOP, LI, LIH, ADDI, ANDI, ORI, ADD, SUB, AND, OR, XOR, SHL, SHR, LD, ST, GETEV and STAT goes to the next word, takes the word into its signature, and writes what the row of R442 says, modulo 2^32, to W[D] or to the data store word; a write to W0 writes nothing (Cooper.setReg). The other cooper, the registers and every unit are unchanged. -/
def Obligations.cooper_arithmetic_gives_the_result_of_its_table_row : Prop :=
  (∀ (s : State) (coop : CoopId) (x : Cooper) (w : Nat),
    s.hub.calm = true → s.hub.coop coop = x → x.executes Co.NOP w = true → s.hub.degradedNow = s.hub.reg R.REL_DEGRADED →
    Answers (.coopNop coop) s fun h =>
      s.hub.onlyCoop h coop (x.past w) ∧ s.hub.rest h = { s.hub with coops := (s.hub.rest h).coops } ∧ s.hub.keeps h []) ∧
  (∀ (s : State) (coop : CoopId) (x : Cooper) (w : Nat),
    s.hub.calm = true → s.hub.coop coop = x → x.executes Co.LI w = true → s.hub.degradedNow = s.hub.reg R.REL_DEGRADED →
    Answers (.coopLi coop) s fun h =>
      s.hub.onlyCoop h coop ((x.past w).setReg (Iw.f1 w) (Iw.imm w)) ∧ s.hub.rest h = { s.hub with coops := (s.hub.rest h).coops } ∧
      s.hub.keeps h []) ∧
  (∀ (s : State) (coop : CoopId) (x : Cooper) (w : Nat),
    s.hub.calm = true → s.hub.coop coop = x → x.executes Co.LIH w = true → s.hub.degradedNow = s.hub.reg R.REL_DEGRADED →
    Answers (.coopLih coop) s fun h =>
      s.hub.onlyCoop h coop ((x.past w).setReg (Iw.f1 w) (x.reg (Iw.f1 w) % 2 ^ 18 + Iw.imm w % 2 ^ 14 * 2 ^ 18)) ∧
      s.hub.rest h = { s.hub with coops := (s.hub.rest h).coops } ∧ s.hub.keeps h []) ∧
  (∀ (s : State) (coop : CoopId) (x : Cooper) (w : Nat),
    s.hub.calm = true → s.hub.coop coop = x → x.executes Co.ADDI w = true → s.hub.degradedNow = s.hub.reg R.REL_DEGRADED →
    Answers (.coopAddi coop) s fun h =>
      s.hub.onlyCoop h coop ((x.past w).setReg (Iw.f1 w) (x.reg (Iw.f2 w) + unsigned 32 (signed 18 (Iw.imm w)))) ∧
      s.hub.rest h = { s.hub with coops := (s.hub.rest h).coops } ∧ s.hub.keeps h []) ∧
  (∀ (s : State) (coop : CoopId) (x : Cooper) (w : Nat),
    s.hub.calm = true → s.hub.coop coop = x → x.executes Co.ANDI w = true → s.hub.degradedNow = s.hub.reg R.REL_DEGRADED →
    Answers (.coopAndi coop) s fun h =>
      s.hub.onlyCoop h coop ((x.past w).setReg (Iw.f1 w) (x.reg (Iw.f2 w) &&& Iw.imm w)) ∧
      s.hub.rest h = { s.hub with coops := (s.hub.rest h).coops } ∧ s.hub.keeps h []) ∧
  (∀ (s : State) (coop : CoopId) (x : Cooper) (w : Nat),
    s.hub.calm = true → s.hub.coop coop = x → x.executes Co.ORI w = true → s.hub.degradedNow = s.hub.reg R.REL_DEGRADED →
    Answers (.coopOri coop) s fun h =>
      s.hub.onlyCoop h coop ((x.past w).setReg (Iw.f1 w) (x.reg (Iw.f2 w) ||| Iw.imm w)) ∧
      s.hub.rest h = { s.hub with coops := (s.hub.rest h).coops } ∧ s.hub.keeps h []) ∧
  (∀ (s : State) (coop : CoopId) (x : Cooper) (w : Nat),
    s.hub.calm = true → s.hub.coop coop = x → x.executes Co.ADD w = true → s.hub.degradedNow = s.hub.reg R.REL_DEGRADED →
    Answers (.coopAdd coop) s fun h =>
      s.hub.onlyCoop h coop ((x.past w).setReg (Iw.f1 w) (x.reg (Iw.f2 w) + x.reg (Iw.f3 w))) ∧
      s.hub.rest h = { s.hub with coops := (s.hub.rest h).coops } ∧ s.hub.keeps h []) ∧
  (∀ (s : State) (coop : CoopId) (x : Cooper) (w : Nat),
    s.hub.calm = true → s.hub.coop coop = x → x.executes Co.SUB w = true → s.hub.degradedNow = s.hub.reg R.REL_DEGRADED →
    Answers (.coopSub coop) s fun h =>
      s.hub.onlyCoop h coop ((x.past w).setReg (Iw.f1 w) (x.reg (Iw.f2 w) + 2 ^ 32 - x.reg (Iw.f3 w))) ∧
      s.hub.rest h = { s.hub with coops := (s.hub.rest h).coops } ∧ s.hub.keeps h []) ∧
  (∀ (s : State) (coop : CoopId) (x : Cooper) (w : Nat),
    s.hub.calm = true → s.hub.coop coop = x → x.executes Co.AND w = true → s.hub.degradedNow = s.hub.reg R.REL_DEGRADED →
    Answers (.coopAnd coop) s fun h =>
      s.hub.onlyCoop h coop ((x.past w).setReg (Iw.f1 w) (x.reg (Iw.f2 w) &&& x.reg (Iw.f3 w))) ∧
      s.hub.rest h = { s.hub with coops := (s.hub.rest h).coops } ∧ s.hub.keeps h []) ∧
  (∀ (s : State) (coop : CoopId) (x : Cooper) (w : Nat),
    s.hub.calm = true → s.hub.coop coop = x → x.executes Co.OR w = true → s.hub.degradedNow = s.hub.reg R.REL_DEGRADED →
    Answers (.coopOr coop) s fun h =>
      s.hub.onlyCoop h coop ((x.past w).setReg (Iw.f1 w) (x.reg (Iw.f2 w) ||| x.reg (Iw.f3 w))) ∧
      s.hub.rest h = { s.hub with coops := (s.hub.rest h).coops } ∧ s.hub.keeps h []) ∧
  (∀ (s : State) (coop : CoopId) (x : Cooper) (w : Nat),
    s.hub.calm = true → s.hub.coop coop = x → x.executes Co.XOR w = true → s.hub.degradedNow = s.hub.reg R.REL_DEGRADED →
    Answers (.coopXor coop) s fun h =>
      s.hub.onlyCoop h coop ((x.past w).setReg (Iw.f1 w) (x.reg (Iw.f2 w) ^^^ x.reg (Iw.f3 w))) ∧
      s.hub.rest h = { s.hub with coops := (s.hub.rest h).coops } ∧ s.hub.keeps h []) ∧
  (∀ (s : State) (coop : CoopId) (x : Cooper) (w : Nat),
    s.hub.calm = true → s.hub.coop coop = x → x.executes Co.SHL w = true → s.hub.degradedNow = s.hub.reg R.REL_DEGRADED →
    Answers (.coopShl coop) s fun h =>
      s.hub.onlyCoop h coop ((x.past w).setReg (Iw.f1 w) (x.reg (Iw.f2 w) * 2 ^ (x.reg (Iw.f3 w) % 32))) ∧
      s.hub.rest h = { s.hub with coops := (s.hub.rest h).coops } ∧ s.hub.keeps h []) ∧
  (∀ (s : State) (coop : CoopId) (x : Cooper) (w : Nat),
    s.hub.calm = true → s.hub.coop coop = x → x.executes Co.SHR w = true → s.hub.degradedNow = s.hub.reg R.REL_DEGRADED →
    Answers (.coopShr coop) s fun h =>
      s.hub.onlyCoop h coop ((x.past w).setReg (Iw.f1 w) (x.reg (Iw.f2 w) / 2 ^ (x.reg (Iw.f3 w) % 32))) ∧
      s.hub.rest h = { s.hub with coops := (s.hub.rest h).coops } ∧ s.hub.keeps h []) ∧
  (∀ (s : State) (coop : CoopId) (x : Cooper) (w : Nat) (a : Nat),
    s.hub.calm = true → s.hub.coop coop = x → x.executes Co.LD w = true → s.hub.degradedNow = s.hub.reg R.REL_DEGRADED →
    x.reg (Iw.f2 w) + Iw.imm w = a → a < 256 →
    Answers (.coopLd coop) s fun h =>
      s.hub.onlyCoop h coop ((x.past w).setReg (Iw.f1 w) ((x.data.get a 0).toNat)) ∧
      s.hub.rest h = { s.hub with coops := (s.hub.rest h).coops } ∧ s.hub.keeps h []) ∧
  (∀ (s : State) (coop : CoopId) (x : Cooper) (w : Nat) (a : Nat),
    s.hub.calm = true → s.hub.coop coop = x → x.executes Co.ST w = true → s.hub.degradedNow = s.hub.reg R.REL_DEGRADED →
    x.reg (Iw.f2 w) + Iw.imm w = a → a < 256 →
    Answers (.coopSt coop) s fun h =>
      s.hub.onlyCoop h coop ({ x.past w with data := x.data.set a (BitVec.ofNat 32 (x.reg (Iw.f1 w))) }) ∧
      s.hub.rest h = { s.hub with coops := (s.hub.rest h).coops } ∧ s.hub.keeps h []) ∧
  (∀ (s : State) (coop : CoopId) (x : Cooper) (w : Nat),
    s.hub.calm = true → s.hub.coop coop = x → x.executes Co.GETEV w = true → s.hub.degradedNow = s.hub.reg R.REL_DEGRADED → Iw.imm w < 4 →
    Answers (.coopGetev coop) s fun h =>
      s.hub.onlyCoop h coop ((x.past w).setReg (Iw.f1 w) (nth [x.last.gcn % 2 ^ 32, x.last.gcn / 2 ^ 32, x.last.epoch, x.last.hub] (Iw.imm w) 0)) ∧
      s.hub.rest h = { s.hub with coops := (s.hub.rest h).coops } ∧ s.hub.keeps h []) ∧
  (∀ (s : State) (coop : CoopId) (x : Cooper) (w : Nat),
    s.hub.calm = true → s.hub.coop coop = x → x.executes Co.STAT w = true → s.hub.degradedNow = s.hub.reg R.REL_DEGRADED →
    Answers (.coopStat coop) s fun h =>
      s.hub.onlyCoop h coop ((x.past w).setReg (Iw.f1 w) (x.lastStatus)) ∧ s.hub.rest h = { s.hub with coops := (s.hub.rest h).coops } ∧
      s.hub.keeps h [])

/-- JMP goes to next + OFF, a conditional branch when its comparison holds, CALL pushes the next word and goes, RET pops; each leaves S at its start value. END makes the cooper IDLE with COOP_ENDED, FAIL halts it with its code, releases its pages and raises COOP_FAILED. A SIG whose field agrees with S starts the watchdog and S anew; one that does not, a ninth push and a pop of an empty stack halt with causes SIGNATURE and STACK and COOP_FAULT. So do an LD or ST beyond the data store and a CORK, HARV, RACK, XREG or WAITT whose words are not all in it with BAD_ADDR, and a GETEV of another IMM with ILLEGAL. A word with no opcode of R442 (the model takes it to the row of NOP; every instruction row does the same) halts with ILLEGAL. -/
def Obligations.cooper_control_transfers_and_signatures : Prop :=
  (∀ (s : State) (coop : CoopId) (x : Cooper) (w : Nat),
    s.hub.calm = true → s.hub.coop coop = x → x.executes Co.JMP w = true → s.hub.degradedNow = s.hub.reg R.REL_DEGRADED →
    Answers (.coopJmp coop) s fun h =>
      s.hub.onlyCoop h coop ({ x.past w with pc := unsigned 10 ((x.pc : Int) + 1 + Iw.off w), sig := 0xFFFFFFFF }) ∧
      s.hub.rest h = { s.hub with coops := (s.hub.rest h).coops } ∧ s.hub.keeps h []) ∧
  (∀ (s : State) (coop : CoopId) (x : Cooper) (w : Nat),
    s.hub.calm = true → s.hub.coop coop = x → x.executes Co.BEQ w = true → s.hub.degradedNow = s.hub.reg R.REL_DEGRADED →
    Answers (.coopBeq coop) s fun h =>
      s.hub.onlyCoop h coop ({ x.past w with pc := if x.reg (Iw.f1 w) = x.reg (Iw.f2 w) then unsigned 10 ((x.pc : Int) + 1 + Iw.off w) else (x.pc + 1) % 1024, sig := 0xFFFFFFFF }) ∧
      s.hub.rest h = { s.hub with coops := (s.hub.rest h).coops } ∧ s.hub.keeps h []) ∧
  (∀ (s : State) (coop : CoopId) (x : Cooper) (w : Nat),
    s.hub.calm = true → s.hub.coop coop = x → x.executes Co.BNE w = true → s.hub.degradedNow = s.hub.reg R.REL_DEGRADED →
    Answers (.coopBne coop) s fun h =>
      s.hub.onlyCoop h coop ({ x.past w with pc := if x.reg (Iw.f1 w) ≠ x.reg (Iw.f2 w) then unsigned 10 ((x.pc : Int) + 1 + Iw.off w) else (x.pc + 1) % 1024, sig := 0xFFFFFFFF }) ∧
      s.hub.rest h = { s.hub with coops := (s.hub.rest h).coops } ∧ s.hub.keeps h []) ∧
  (∀ (s : State) (coop : CoopId) (x : Cooper) (w : Nat),
    s.hub.calm = true → s.hub.coop coop = x → x.executes Co.BLTU w = true → s.hub.degradedNow = s.hub.reg R.REL_DEGRADED →
    Answers (.coopBltu coop) s fun h =>
      s.hub.onlyCoop h coop ({ x.past w with pc := if x.reg (Iw.f1 w) < x.reg (Iw.f2 w) then unsigned 10 ((x.pc : Int) + 1 + Iw.off w) else (x.pc + 1) % 1024, sig := 0xFFFFFFFF }) ∧
      s.hub.rest h = { s.hub with coops := (s.hub.rest h).coops } ∧ s.hub.keeps h []) ∧
  (∀ (s : State) (coop : CoopId) (x : Cooper) (w : Nat),
    s.hub.calm = true → s.hub.coop coop = x → x.executes Co.BGEU w = true → s.hub.degradedNow = s.hub.reg R.REL_DEGRADED →
    Answers (.coopBgeu coop) s fun h =>
      s.hub.onlyCoop h coop ({ x.past w with pc := if x.reg (Iw.f2 w) ≤ x.reg (Iw.f1 w) then unsigned 10 ((x.pc : Int) + 1 + Iw.off w) else (x.pc + 1) % 1024, sig := 0xFFFFFFFF }) ∧
      s.hub.rest h = { s.hub with coops := (s.hub.rest h).coops } ∧ s.hub.keeps h []) ∧
  (∀ (s : State) (coop : CoopId) (x : Cooper) (w : Nat),
    s.hub.calm = true → s.hub.coop coop = x → x.executes Co.CALL w = true → s.hub.degradedNow = s.hub.reg R.REL_DEGRADED →
    x.stack.length < 8 →
    Answers (.coopCall coop) s fun h =>
      s.hub.onlyCoop h coop ({ x.past w with pc := unsigned 10 ((x.pc : Int) + 1 + Iw.off w), sig := 0xFFFFFFFF, stack := (x.pc + 1) % 1024 :: x.stack }) ∧
      s.hub.rest h = { s.hub with coops := (s.hub.rest h).coops } ∧ s.hub.keeps h []) ∧
  (∀ (s : State) (coop : CoopId) (x : Cooper) (w : Nat),
    s.hub.calm = true → s.hub.coop coop = x → x.executes Co.CALL w = true → 8 ≤ x.stack.length →
    Answers (.coopCall coop) s fun h =>
      s.hub.onlyCoopTold h coop ({ x with st := .halted, cause := Cc.STACK, wait := .none, sig := (x.past w).sig }) ∧
      (∀ p, h.owner p ≠ reqCode (coopReq coop) + 1 ∧ (s.hub.owner p ≠ reqCode (coopReq coop) + 1 → h.owner p = s.hub.owner p)) ∧
      h.shows Ev.COOP_FAULT ((coop : Nat) + 2 * x.script) = true ∧
      s.hub.rest h = { s.hub with owners := h.owners, coops := (s.hub.rest h).coops } ∧
      s.hub.keeps h [R.COOP_RUNS + 0x1000 * coop, R.PG_ERROR + (Pg.COOP + coop) * 0x1000, R.PG_ERROR_INFO + (Pg.COOP + coop) * 0x1000]) ∧
  (∀ (s : State) (coop : CoopId) (x : Cooper) (w : Nat) (p : Nat) (rest : List Nat),
    s.hub.calm = true → s.hub.coop coop = x → x.executes Co.RET w = true → s.hub.degradedNow = s.hub.reg R.REL_DEGRADED →
    x.stack = p :: rest →
    Answers (.coopRet coop) s fun h =>
      s.hub.onlyCoop h coop ({ x.past w with pc := p, sig := 0xFFFFFFFF, stack := rest }) ∧
      s.hub.rest h = { s.hub with coops := (s.hub.rest h).coops } ∧ s.hub.keeps h []) ∧
  (∀ (s : State) (coop : CoopId) (x : Cooper) (w : Nat),
    s.hub.calm = true → s.hub.coop coop = x → x.executes Co.RET w = true → x.stack = [] →
    Answers (.coopRet coop) s fun h =>
      s.hub.onlyCoopTold h coop ({ x with st := .halted, cause := Cc.STACK, wait := .none, sig := (x.past w).sig }) ∧
      (∀ p, h.owner p ≠ reqCode (coopReq coop) + 1 ∧ (s.hub.owner p ≠ reqCode (coopReq coop) + 1 → h.owner p = s.hub.owner p)) ∧
      h.shows Ev.COOP_FAULT ((coop : Nat) + 2 * x.script) = true ∧
      s.hub.rest h = { s.hub with owners := h.owners, coops := (s.hub.rest h).coops } ∧
      s.hub.keeps h [R.COOP_RUNS + 0x1000 * coop, R.PG_ERROR + (Pg.COOP + coop) * 0x1000, R.PG_ERROR_INFO + (Pg.COOP + coop) * 0x1000]) ∧
  (∀ (s : State) (coop : CoopId) (x : Cooper) (w : Nat),
    s.hub.calm = true → s.hub.coop coop = x → x.executes Co.LD w = true → 256 ≤ x.reg (Iw.f2 w) + Iw.imm w →
    Answers (.coopLd coop) s fun h =>
      s.hub.onlyCoopTold h coop ({ x with st := .halted, cause := Cc.BAD_ADDR, wait := .none, sig := (x.past w).sig }) ∧
      (∀ p, h.owner p ≠ reqCode (coopReq coop) + 1 ∧ (s.hub.owner p ≠ reqCode (coopReq coop) + 1 → h.owner p = s.hub.owner p)) ∧
      h.shows Ev.COOP_FAULT ((coop : Nat) + 2 * x.script) = true ∧
      s.hub.rest h = { s.hub with owners := h.owners, coops := (s.hub.rest h).coops } ∧
      s.hub.keeps h [R.COOP_RUNS + 0x1000 * coop, R.PG_ERROR + (Pg.COOP + coop) * 0x1000, R.PG_ERROR_INFO + (Pg.COOP + coop) * 0x1000]) ∧
  (∀ (s : State) (coop : CoopId) (x : Cooper) (w : Nat),
    s.hub.calm = true → s.hub.coop coop = x → x.executes Co.ST w = true → 256 ≤ x.reg (Iw.f2 w) + Iw.imm w →
    Answers (.coopSt coop) s fun h =>
      s.hub.onlyCoopTold h coop ({ x with st := .halted, cause := Cc.BAD_ADDR, wait := .none, sig := (x.past w).sig }) ∧
      (∀ p, h.owner p ≠ reqCode (coopReq coop) + 1 ∧ (s.hub.owner p ≠ reqCode (coopReq coop) + 1 → h.owner p = s.hub.owner p)) ∧
      h.shows Ev.COOP_FAULT ((coop : Nat) + 2 * x.script) = true ∧
      s.hub.rest h = { s.hub with owners := h.owners, coops := (s.hub.rest h).coops } ∧
      s.hub.keeps h [R.COOP_RUNS + 0x1000 * coop, R.PG_ERROR + (Pg.COOP + coop) * 0x1000, R.PG_ERROR_INFO + (Pg.COOP + coop) * 0x1000]) ∧
  (∀ (s : State) (coop : CoopId) (x : Cooper) (w : Nat),
    s.hub.calm = true → s.hub.coop coop = x → x.executes Co.CORK w = true → 256 < x.reg (Iw.f2 w) + Iw.imm w + 7 →
    Answers (.coopCork coop) s fun h =>
      s.hub.onlyCoopTold h coop ({ x with st := .halted, cause := Cc.BAD_ADDR, wait := .none, sig := (x.past w).sig }) ∧
      (∀ p, h.owner p ≠ reqCode (coopReq coop) + 1 ∧ (s.hub.owner p ≠ reqCode (coopReq coop) + 1 → h.owner p = s.hub.owner p)) ∧
      h.shows Ev.COOP_FAULT ((coop : Nat) + 2 * x.script) = true ∧
      s.hub.rest h = { s.hub with owners := h.owners, coops := (s.hub.rest h).coops } ∧
      s.hub.keeps h [R.COOP_RUNS + 0x1000 * coop, R.PG_ERROR + (Pg.COOP + coop) * 0x1000, R.PG_ERROR_INFO + (Pg.COOP + coop) * 0x1000]) ∧
  (∀ (s : State) (coop : CoopId) (x : Cooper) (w : Nat),
    s.hub.calm = true → s.hub.coop coop = x → x.executes Co.HARV w = true → 256 < x.reg (Iw.f2 w) + Iw.imm w + 8 →
    Answers (.coopHarv coop) s fun h =>
      s.hub.onlyCoopTold h coop ({ x with st := .halted, cause := Cc.BAD_ADDR, wait := .none, sig := (x.past w).sig }) ∧
      (∀ p, h.owner p ≠ reqCode (coopReq coop) + 1 ∧ (s.hub.owner p ≠ reqCode (coopReq coop) + 1 → h.owner p = s.hub.owner p)) ∧
      h.shows Ev.COOP_FAULT ((coop : Nat) + 2 * x.script) = true ∧
      s.hub.rest h = { s.hub with owners := h.owners, coops := (s.hub.rest h).coops } ∧
      s.hub.keeps h [R.COOP_RUNS + 0x1000 * coop, R.PG_ERROR + (Pg.COOP + coop) * 0x1000, R.PG_ERROR_INFO + (Pg.COOP + coop) * 0x1000]) ∧
  (∀ (s : State) (coop : CoopId) (x : Cooper) (w : Nat),
    s.hub.calm = true → s.hub.coop coop = x → x.executes Co.RACK w = true → 256 < x.reg (Iw.f2 w) + Iw.imm w + 4 →
    Answers (.coopRack coop) s fun h =>
      s.hub.onlyCoopTold h coop ({ x with st := .halted, cause := Cc.BAD_ADDR, wait := .none, sig := (x.past w).sig }) ∧
      (∀ p, h.owner p ≠ reqCode (coopReq coop) + 1 ∧ (s.hub.owner p ≠ reqCode (coopReq coop) + 1 → h.owner p = s.hub.owner p)) ∧
      h.shows Ev.COOP_FAULT ((coop : Nat) + 2 * x.script) = true ∧
      s.hub.rest h = { s.hub with owners := h.owners, coops := (s.hub.rest h).coops } ∧
      s.hub.keeps h [R.COOP_RUNS + 0x1000 * coop, R.PG_ERROR + (Pg.COOP + coop) * 0x1000, R.PG_ERROR_INFO + (Pg.COOP + coop) * 0x1000]) ∧
  (∀ (s : State) (coop : CoopId) (x : Cooper) (w : Nat),
    s.hub.calm = true → s.hub.coop coop = x → x.executes Co.XREG w = true → 256 < x.reg (Iw.f2 w) + Iw.imm w + 4 →
    Answers (.coopXreg coop) s fun h =>
      s.hub.onlyCoopTold h coop ({ x with st := .halted, cause := Cc.BAD_ADDR, wait := .none, sig := (x.past w).sig }) ∧
      (∀ p, h.owner p ≠ reqCode (coopReq coop) + 1 ∧ (s.hub.owner p ≠ reqCode (coopReq coop) + 1 → h.owner p = s.hub.owner p)) ∧
      h.shows Ev.COOP_FAULT ((coop : Nat) + 2 * x.script) = true ∧
      s.hub.rest h = { s.hub with owners := h.owners, coops := (s.hub.rest h).coops } ∧
      s.hub.keeps h [R.COOP_RUNS + 0x1000 * coop, R.PG_ERROR + (Pg.COOP + coop) * 0x1000, R.PG_ERROR_INFO + (Pg.COOP + coop) * 0x1000]) ∧
  (∀ (s : State) (coop : CoopId) (x : Cooper) (w : Nat),
    s.hub.calm = true → s.hub.coop coop = x → x.executes Co.WAITT w = true → 256 < x.reg (Iw.f2 w) + Iw.imm w + 2 →
    Answers (.coopWaitt coop) s fun h =>
      s.hub.onlyCoopTold h coop ({ x with st := .halted, cause := Cc.BAD_ADDR, wait := .none, sig := (x.past w).sig }) ∧
      (∀ p, h.owner p ≠ reqCode (coopReq coop) + 1 ∧ (s.hub.owner p ≠ reqCode (coopReq coop) + 1 → h.owner p = s.hub.owner p)) ∧
      h.shows Ev.COOP_FAULT ((coop : Nat) + 2 * x.script) = true ∧
      s.hub.rest h = { s.hub with owners := h.owners, coops := (s.hub.rest h).coops } ∧
      s.hub.keeps h [R.COOP_RUNS + 0x1000 * coop, R.PG_ERROR + (Pg.COOP + coop) * 0x1000, R.PG_ERROR_INFO + (Pg.COOP + coop) * 0x1000]) ∧
  (∀ (s : State) (coop : CoopId) (x : Cooper) (w : Nat),
    s.hub.calm = true → s.hub.coop coop = x → x.executes Co.GETEV w = true → 4 ≤ Iw.imm w →
    Answers (.coopGetev coop) s fun h =>
      s.hub.onlyCoopTold h coop ({ x with st := .halted, cause := Cc.ILLEGAL, wait := .none, sig := (x.past w).sig }) ∧
      (∀ p, h.owner p ≠ reqCode (coopReq coop) + 1 ∧ (s.hub.owner p ≠ reqCode (coopReq coop) + 1 → h.owner p = s.hub.owner p)) ∧
      h.shows Ev.COOP_FAULT ((coop : Nat) + 2 * x.script) = true ∧
      s.hub.rest h = { s.hub with owners := h.owners, coops := (s.hub.rest h).coops } ∧
      s.hub.keeps h [R.COOP_RUNS + 0x1000 * coop, R.PG_ERROR + (Pg.COOP + coop) * 0x1000, R.PG_ERROR_INFO + (Pg.COOP + coop) * 0x1000]) ∧
  (∀ (s : State) (coop : CoopId) (x : Cooper) (w : Nat),
    s.hub.calm = true → s.hub.coop coop = x → x.executes Co.END w = true →
    Answers (.coopEnd coop) s fun h =>
      s.hub.onlyCoopTold h coop ({ x with st := .idle, cause := Cc.END, sig := 0xFFFFFFFF }) ∧
      h.shows Ev.COOP_ENDED ((coop : Nat) + 2 * x.script) = true ∧ s.hub.rest h = { s.hub with coops := (s.hub.rest h).coops } ∧
      s.hub.keeps h []) ∧
  (∀ (s : State) (coop : CoopId) (x : Cooper) (w : Nat),
    s.hub.calm = true → s.hub.coop coop = x → x.executes Co.FAIL w = true →
    Answers (.coopFail coop) s fun h =>
      s.hub.onlyCoopTold h coop ({ x with st := .halted, cause := Cc.FAIL, wait := .none, sig := 0xFFFFFFFF }) ∧
      h.rd (F.COOP_FAIL_CODE_CODE.lane coop) = w % 2 ^ 16 ∧
      (∀ p, h.owner p ≠ reqCode (coopReq coop) + 1 ∧ (s.hub.owner p ≠ reqCode (coopReq coop) + 1 → h.owner p = s.hub.owner p)) ∧
      h.shows Ev.COOP_FAILED ((coop : Nat) + 2 * x.script) = true ∧
      s.hub.rest h = { s.hub with owners := h.owners, coops := (s.hub.rest h).coops } ∧
      s.hub.keeps h [(F.COOP_FAIL_CODE_CODE.lane coop).addr]) ∧
  (∀ (s : State) (coop : CoopId) (x : Cooper) (w : Nat),
    s.hub.calm = true → s.hub.coop coop = x → x.executes Co.SIG w = true → s.hub.degradedNow = s.hub.reg R.REL_DEGRADED →
    (x.sig.toNat ^^^ 0xFFFFFFFF) % 2 ^ 16 = w % 2 ^ 16 →
    Answers (.coopSig coop) s fun h =>
      s.hub.onlyCoop h coop ({ x with pc := (x.pc + 1) % 1024, wdog := x.cur.budget, sig := 0xFFFFFFFF }) ∧
      s.hub.rest h = { s.hub with coops := (s.hub.rest h).coops } ∧ s.hub.keeps h []) ∧
  (∀ (s : State) (coop : CoopId) (x : Cooper) (w : Nat),
    s.hub.calm = true → s.hub.coop coop = x → x.executes Co.SIG w = true → (x.sig.toNat ^^^ 0xFFFFFFFF) % 2 ^ 16 ≠ w % 2 ^ 16 →
    Answers (.coopSig coop) s fun h =>
      s.hub.onlyCoopTold h coop ({ x with st := .halted, cause := Cc.SIGNATURE, wait := .none, sig := 0xFFFFFFFF }) ∧
      h.hasErr (Er.COOP_SIGNATURE.lane coop) = true ∧
      (∀ p, h.owner p ≠ reqCode (coopReq coop) + 1 ∧ (s.hub.owner p ≠ reqCode (coopReq coop) + 1 → h.owner p = s.hub.owner p)) ∧
      h.shows Ev.COOP_FAULT ((coop : Nat) + 2 * x.script) = true ∧
      s.hub.rest h = { s.hub with owners := h.owners, coops := (s.hub.rest h).coops } ∧
      s.hub.keeps h [R.COOP_RUNS + 0x1000 * coop, R.PG_ERROR + (Pg.COOP + coop) * 0x1000, R.PG_ERROR_INFO + (Pg.COOP + coop) * 0x1000]) ∧
  (∀ (s : State) (coop : CoopId) (x : Cooper) (w : Nat),
    s.hub.calm = true → s.hub.coop coop = x → x.st = .running → (x.prog.get x.pc 0).toNat = w → coopOps.contains (Iw.op w) = false →
    Answers (.coopNop coop) s fun h =>
      s.hub.onlyCoopTold h coop ({ x with st := .halted, cause := Cc.ILLEGAL, wait := .none }) ∧
      (∀ p, h.owner p ≠ reqCode (coopReq coop) + 1 ∧ (s.hub.owner p ≠ reqCode (coopReq coop) + 1 → h.owner p = s.hub.owner p)) ∧
      h.shows Ev.COOP_FAULT ((coop : Nat) + 2 * x.script) = true ∧
      s.hub.rest h = { s.hub with owners := h.owners, coops := (s.hub.rest h).coops } ∧ s.hub.keeps h [R.COOP_RUNS + 0x1000 * coop])

/-- ARM sets the filter and empties the queue; a WAIT with the filter in force takes the oldest occurrence queued, and otherwise waits, with its timeout; DELAY and WAITT wait; an occurrence that arrives completes a WAIT of its filter or joins the queue, and a full queue counts it as lost; the ends of the waits give W[D] its value; an EVENT script and a pending script start at an IDLE cooper; a cooper whose watchdog has run out halts with COOP_FAULT. -/
def Obligations.coopers_wait_take_events_and_start : Prop :=
  (∀ (s : State) (coop : CoopId) (x : Cooper) (w : Nat),
    s.hub.calm = true → s.hub.coop coop = x → x.executes Co.ARM w = true → s.hub.degradedNow = s.hub.reg R.REL_DEGRADED →
    Answers (.coopArm coop) s fun h =>
      s.hub.onlyCoop h coop ({ x.past w with filter := some (BitVec.ofNat 32 (x.reg (Iw.f2 w))), queue := [] }) ∧
      s.hub.rest h = { s.hub with coops := (s.hub.rest h).coops } ∧ s.hub.keeps h []) ∧
  (∀ (s : State) (coop : CoopId) (x : Cooper) (w : Nat) (o : Occ) (rest : List Occ),
    s.hub.calm = true → s.hub.coop coop = x → x.executes Co.WAIT w = true → s.hub.degradedNow = s.hub.reg R.REL_DEGRADED →
    x.filter = some (BitVec.ofNat 32 (x.reg (Iw.f2 w))) → x.queue = o :: rest →
    Answers (.coopWait coop) s fun h =>
      s.hub.onlyCoop h coop (({ x.past w with queue := rest, last := o }).setReg (Iw.f1 w) o.word) ∧
      s.hub.rest h = { s.hub with coops := (s.hub.rest h).coops } ∧ s.hub.keeps h []) ∧
  (∀ (s : State) (coop : CoopId) (x : Cooper) (w : Nat),
    s.hub.calm = true → s.hub.coop coop = x → x.executes Co.WAIT w = true → s.hub.degradedNow = s.hub.reg R.REL_DEGRADED →
    (x.filter ≠ some (BitVec.ofNat 32 (x.reg (Iw.f2 w))) ∨ x.queue = []) →
    Answers (.coopWait coop) s fun h =>
      s.hub.onlyCoop h coop ({ x.past w with st := .waiting, filter := some (BitVec.ofNat 32 (x.reg (Iw.f2 w))), queue := [], wait := .event (Iw.f1 w) (BitVec.ofNat 32 (x.reg (Iw.f2 w))) (if x.reg (Iw.f3 w) = 0 then none else some (s.hub.time.hclk + x.reg (Iw.f3 w))) }) ∧
      s.hub.rest h = { s.hub with coops := (s.hub.rest h).coops } ∧ s.hub.keeps h []) ∧
  (∀ (s : State) (coop : CoopId) (x : Cooper) (w : Nat),
    s.hub.calm = true → s.hub.coop coop = x → x.executes Co.DELAY w = true → s.hub.degradedNow = s.hub.reg R.REL_DEGRADED →
    Answers (.coopDelay coop) s fun h =>
      s.hub.onlyCoop h coop ({ x.past w with st := .waiting, wait := .delay (s.hub.time.hclk + x.reg (Iw.f2 w)) }) ∧
      s.hub.rest h = { s.hub with coops := (s.hub.rest h).coops } ∧ s.hub.keeps h []) ∧
  (∀ (s : State) (coop : CoopId) (x : Cooper) (w : Nat) (a : Nat) (v : Nat),
    s.hub.calm = true → s.hub.coop coop = x → x.executes Co.WAITT w = true → s.hub.degradedNow = s.hub.reg R.REL_DEGRADED →
    x.reg (Iw.f2 w) + Iw.imm w = a → a + 1 < 256 → (x.data.get a 0).toNat + (x.data.get (a + 1) 0).toNat * 2 ^ 32 = v → s.hub.now < v →
    Answers (.coopWaitt coop) s fun h =>
      s.hub.onlyCoop h coop ({ x.past w with st := .waiting, wait := .gcn (Iw.f1 w) v false }) ∧
      s.hub.rest h = { s.hub with coops := (s.hub.rest h).coops } ∧ s.hub.keeps h []) ∧
  (∀ (s : State) (coop : CoopId) (x : Cooper) (w : Nat) (a : Nat) (v : Nat),
    s.hub.calm = true → s.hub.coop coop = x → x.executes Co.WAITT w = true → s.hub.degradedNow = s.hub.reg R.REL_DEGRADED →
    x.reg (Iw.f2 w) + Iw.imm w = a → a + 1 < 256 → (x.data.get a 0).toNat + (x.data.get (a + 1) 0).toNat * 2 ^ 32 = v → v ≤ s.hub.now →
    Answers (.coopWaitt coop) s fun h =>
      s.hub.onlyCoop h coop (({ x.past w with wait := .none }).setReg (Iw.f1 w) 0) ∧
      s.hub.rest h = { s.hub with coops := (s.hub.rest h).coops } ∧ s.hub.keeps h []) ∧
  (∀ (s : State) (coop : CoopId) (x : Cooper) (o : Occ) (f : BitVec 32) (d : Nat) (g : BitVec 32) (t : Option Nat),
    s.hub.calm = true → s.hub.coop coop = x → s.hub.degradedNow = s.hub.reg R.REL_DEGRADED → x.transit = [o] → o.at_ + 2 ≤ s.hub.time.hclk →
    x.filter = some f → filterHit f.toNat o.code = true → x.wait = .event d g t →
    Answers (.coopEventArrival coop) s fun h =>
      s.hub.onlyCoop h coop (({ x with transit := [], st := .running, wait := .none, last := o }).setReg d o.word) ∧
      s.hub.rest h = { s.hub with coops := (s.hub.rest h).coops } ∧ s.hub.keeps h []) ∧
  (∀ (s : State) (coop : CoopId) (x : Cooper) (o : Occ) (f : BitVec 32),
    s.hub.calm = true → s.hub.coop coop = x → s.hub.degradedNow = s.hub.reg R.REL_DEGRADED → x.transit = [o] → o.at_ + 2 ≤ s.hub.time.hclk →
    x.filter = some f → filterHit f.toNat o.code = true → x.wait = .none → x.queue.length < 16 →
    Answers (.coopEventArrival coop) s fun h =>
      s.hub.onlyCoop h coop ({ x with transit := [], queue := x.queue ++ [o] }) ∧
      s.hub.rest h = { s.hub with coops := (s.hub.rest h).coops } ∧ s.hub.keeps h []) ∧
  (∀ (s : State) (coop : CoopId) (x : Cooper) (o : Occ) (f : BitVec 32),
    s.hub.calm = true → s.hub.coop coop = x → s.hub.degradedNow = s.hub.reg R.REL_DEGRADED → x.transit = [o] → o.at_ + 2 ≤ s.hub.time.hclk →
    x.filter = some f → filterHit f.toNat o.code = true → x.wait = .none → 16 ≤ x.queue.length →
    Answers (.coopEventArrival coop) s fun h =>
      s.hub.onlyCoop h coop ({ x with transit := [] }) ∧
      h.rd (F.COOP_EVLOSS_QUEUE.lane coop) = sat (F.COOP_EVLOSS_QUEUE.lane coop).width (s.hub.rd (F.COOP_EVLOSS_QUEUE.lane coop) + 1) ∧
      s.hub.rest h = { s.hub with coops := (s.hub.rest h).coops } ∧ s.hub.keeps h [(F.COOP_EVLOSS_QUEUE.lane coop).addr]) ∧
  (∀ (s : State) (coop : CoopId) (x : Cooper) (o : Occ),
    s.hub.calm = true → s.hub.coop coop = x → s.hub.degradedNow = s.hub.reg R.REL_DEGRADED → x.transit = [o] → s.hub.time.hclk < o.at_ + 2 →
    Answers (.coopEventArrival coop) s fun h =>
      s.hub.onlyCoop h coop (x) ∧ s.hub.rest h = { s.hub with coops := (s.hub.rest h).coops } ∧ s.hub.keeps h []) ∧
  (∀ (s : State) (coop : CoopId) (x : Cooper) (d : Nat) (g : BitVec 32) (t : Nat),
    s.hub.calm = true → s.hub.coop coop = x → s.hub.degradedNow = s.hub.reg R.REL_DEGRADED → x.wait = .event d g (some t) →
    t ≤ s.hub.time.hclk →
    Answers (.coopWaitTimeout coop) s fun h =>
      s.hub.onlyCoop h coop (({ x with st := .running, wait := .none }).setReg d 0) ∧
      s.hub.rest h = { s.hub with coops := (s.hub.rest h).coops } ∧ s.hub.keeps h []) ∧
  (∀ (s : State) (coop : CoopId) (x : Cooper) (t : Nat),
    s.hub.calm = true → s.hub.coop coop = x → s.hub.degradedNow = s.hub.reg R.REL_DEGRADED → x.wait = .delay t → t ≤ s.hub.time.hclk →
    Answers (.coopDelayExpiry coop) s fun h =>
      s.hub.onlyCoop h coop ({ x with st := .running, wait := .none }) ∧ s.hub.rest h = { s.hub with coops := (s.hub.rest h).coops } ∧
      s.hub.keeps h []) ∧
  (∀ (s : State) (coop : CoopId) (x : Cooper) (d : Nat) (v : Nat) (joined : Bool),
    s.hub.calm = true → s.hub.coop coop = x → s.hub.degradedNow = s.hub.reg R.REL_DEGRADED → x.wait = .gcn d v joined →
    (joined = true ∨ v ≤ s.hub.now) →
    Answers (.coopWaittReached coop) s fun h =>
      s.hub.onlyCoop h coop (({ x with st := .running, wait := .none }).setReg d (b2n joined)) ∧
      s.hub.rest h = { s.hub with coops := (s.hub.rest h).coops } ∧ s.hub.keeps h []) ∧
  (∀ (s : State) (coop : CoopId) (x : Cooper) (o : Occ) (i : Nat),
    s.hub.calm = true → s.hub.coop coop = x → x.trig = [o] → o.at_ + 2 ≤ s.hub.time.hclk → s.hub.flag (F.COOP_CTRL_EN.lane coop) = true →
    x.st = .idle →
    x.defined.filter (fun n => (x.scripts.get n {}).trigger == 2 && filterHit ((x.scripts.get n {}).code + 65536 * (x.scripts.get n {}).mask) o.code) = [i] →
    Answers (.coopEventTrigger coop) s fun h =>
      (h.coop coop).st = .running ∧ (h.coop coop).script = i ∧ (h.coop coop).pc = (x.scripts.get i {}).entry ∧ (h.coop coop).stack = [] ∧
      (h.coop coop).queue = [] ∧ (h.coop coop).filter = none ∧ (h.coop coop).sig = 0xFFFFFFFF ∧
      (h.coop coop).wdog = (x.scripts.get i {}).budget ∧ (h.coop coop).prog = x.prog ∧ (h.coop coop).data = x.data ∧
      (h.coop coop).last = o ∧ (∀ n, n ≠ 1 → (h.coop coop).reg n = 0) ∧
      h.rd (F.COOP_RUNS_STARTS.lane coop) = sat (F.COOP_RUNS_STARTS.lane coop).width (s.hub.rd (F.COOP_RUNS_STARTS.lane coop) + 1) ∧
      h.shows Ev.COOP_STARTED ((coop : Nat) + 2 * i) = true ∧ (h.coop coop).reg 1 = o.word ∧
      s.hub.rest h = { s.hub with coops := (s.hub.rest h).coops } ∧ s.hub.keeps h [R.COOP_RUNS + 0x1000 * coop]) ∧
  (∀ (s : State) (coop : CoopId) (x : Cooper) (o : Occ) (i : Nat),
    s.hub.calm = true → s.hub.coop coop = x → x.st = .idle → s.hub.flag (F.COOP_CTRL_EN.lane coop) = true →
    (List.range 8).find? (fun n => (x.scripts.get n {}).pending.isSome) = some i → (x.scripts.get i {}).pending = some o →
    Answers (.coopPendingStart coop) s fun h =>
      (h.coop coop).st = .running ∧ (h.coop coop).script = i ∧ (h.coop coop).pc = (x.scripts.get i {}).entry ∧ (h.coop coop).stack = [] ∧
      (h.coop coop).queue = [] ∧ (h.coop coop).filter = none ∧ (h.coop coop).sig = 0xFFFFFFFF ∧
      (h.coop coop).wdog = (x.scripts.get i {}).budget ∧ (h.coop coop).prog = x.prog ∧ (h.coop coop).data = x.data ∧
      (h.coop coop).last = o ∧ (∀ n, n ≠ 1 → (h.coop coop).reg n = 0) ∧
      h.rd (F.COOP_RUNS_STARTS.lane coop) = sat (F.COOP_RUNS_STARTS.lane coop).width (s.hub.rd (F.COOP_RUNS_STARTS.lane coop) + 1) ∧
      h.shows Ev.COOP_STARTED ((coop : Nat) + 2 * i) = true ∧ (h.coop coop).reg 1 = o.word ∧
      ((h.coop coop).scripts.get i {}).pending = none ∧ s.hub.rest h = { s.hub with coops := (s.hub.rest h).coops } ∧
      s.hub.keeps h [R.COOP_RUNS + 0x1000 * coop]) ∧
  (∀ (s : State) (coop : CoopId) (x : Cooper),
    s.hub.calm = true → s.hub.coop coop = x → x.st = .running → x.wdog = 0 →
    Answers (.coopWatchdog coop) s fun h =>
      s.hub.onlyCoopTold h coop ({ x with st := .halted, cause := Cc.WATCHDOG, wait := .none }) ∧
      h.hasErr (Er.COOP_WATCHDOG.lane coop) = true ∧
      h.rd (F.COOP_RUNS_FAULTS.lane coop) = sat (F.COOP_RUNS_FAULTS.lane coop).width (s.hub.rd (F.COOP_RUNS_FAULTS.lane coop) + 1) ∧
      (∀ p, h.owner p ≠ reqCode (coopReq coop) + 1 ∧ (s.hub.owner p ≠ reqCode (coopReq coop) + 1 → h.owner p = s.hub.owner p)) ∧
      h.shows Ev.COOP_FAULT ((coop : Nat) + 2 * x.script) = true ∧
      s.hub.rest h = { s.hub with owners := h.owners, coops := (s.hub.rest h).coops } ∧
      s.hub.keeps h [R.COOP_RUNS + 0x1000 * coop, R.PG_ERROR + (Pg.COOP + coop) * 0x1000, R.PG_ERROR_INFO + (Pg.COOP + coop) * 0x1000])

/-- RD gives W[D] the register, WR writes it (stated of GLB_CTX_RECT while its DONE is 1) and gives W[D] the status; a refused WR leaves its status in W[D] and in GLB_REFUSED; CORK starts the stop of its block, HARV the harvest of its block with the vintage number in its word 5, RACK queues the request of its block with the request ID in its word 3; each leaves OK in W[D] and as the last status. XREG to another hub of the package waits for its request, and one to a hub of another package ends with BAD_ARG. -/
def Obligations.coopers_reach_registers_and_units : Prop :=
  (∀ (s : State) (coop : CoopId) (x : Cooper) (w : Nat) (m : Hub) (a : Nat),
    s.hub.calm = true → s.hub.coop coop = x → x.executes Co.RD w = true → s.hub.setCoop coop (x.past w) = m →
    s.hub.degradedNow = s.hub.reg R.REL_DEGRADED → (x.reg (Iw.f2 w) + Iw.imm w) % 2 ^ 20 = a →
    m.accessStatus (coopReq coop) a false 0 = St.OK → (regDef (normAddr a)).isSome = true → inWindow (normAddr a) = false →
    isHi (normAddr a) = false → isLo (normAddr a) = false →
    [R.TASTE_EVID_DATA, R.COOP_PROG_DATA, R.COOP_DATA_DATA, R.AUTH_DATA, R.TIME_GCN_LO].contains (baseAddr (normAddr a)) = false →
    Answers (.coopRd coop) s fun h =>
      s.hub.onlyCoop h coop (({ x.past w with lastStatus := St.OK }).setReg (Iw.f1 w) (m.value (coopReq coop) (normAddr a) % 2 ^ 32)) ∧
      s.hub.rest h = { s.hub with coops := (s.hub.rest h).coops } ∧ s.hub.keeps h []) ∧
  (∀ (s : State) (coop : CoopId) (x : Cooper) (w : Nat) (m : Hub) (a : Nat) (st : Nat),
    s.hub.calm = true → s.hub.coop coop = x → x.executes Co.WR w = true → s.hub.setCoop coop (x.past w) = m → x.reg (Iw.f2 w) % 2 ^ 20 = a →
    m.accessStatus (coopReq coop) a true (x.reg (Iw.f3 w)) = st → st ≠ St.OK →
    Answers (.coopWr coop) s fun h =>
      s.hub.onlyCoopTold h coop (({ x.past w with lastStatus := st }).setReg (Iw.f1 w) (st)) ∧
      h.bus.get (reqCode (coopReq coop)) {} = { value := 0, status := st } ∧
      h.reg R.GLB_REFUSED = (normAddr a + reqCode (coopReq coop) * 2 ^ 20 + 2 ^ 23 + st * 2 ^ 24) % 2 ^ 32 ∧
      s.hub.rest h = { s.hub with coops := (s.hub.rest h).coops } ∧ s.hub.keepsOff h [Pg.GLB]) ∧
  (∀ (s : State) (coop : CoopId) (x : Cooper) (w : Nat) (m : Hub),
    s.hub.calm = true → s.hub.coop coop = x → x.executes Co.WR w = true → s.hub.setCoop coop (x.past w) = m →
    s.hub.degradedNow = s.hub.reg R.REL_DEGRADED → x.reg (Iw.f2 w) % 2 ^ 20 = R.GLB_CTX_RECT →
    m.takesWrite (coopReq coop) R.GLB_CTX_RECT (x.reg (Iw.f3 w)) = true → m.flag F.GLB_CMD_STATUS_DONE = true →
    Answers (.coopWr coop) s fun h =>
      s.hub.onlyCoop h coop (({ x.past w with lastStatus := St.OK }).setReg (Iw.f1 w) (St.OK)) ∧
      h.rd F.GLB_CTX_RECT_RECT = bitsOf (x.reg (Iw.f3 w)) F.GLB_CTX_RECT_RECT.lo F.GLB_CTX_RECT_RECT.width ∧
      s.hub.rest h = { s.hub with coops := (s.hub.rest h).coops } ∧ s.hub.keeps h [R.GLB_CTX_RECT]) ∧
  (∀ (s : State) (coop : CoopId) (x : Cooper) (w : Nat) (m : Hub) (a : Nat) (z : Nat) (l : List Byte),
    s.hub.calm = true → s.hub.coop coop = x → x.executes Co.CORK w = true → s.hub.setCoop coop (x.past w) = m →
    x.reg (Iw.f2 w) + Iw.imm w = a → a + 7 ≤ 256 → (List.range 7).flatMap (fun i => le 4 (x.data.get (a + i) 0).toNat) = l →
    leAt l 0 1 = 1 → m.corkCheck false 1 (corkBodyArgs l) = St.OK → m.alreadyStopped (corkBodyArgs l) = false →
    z ∈ m.liveSlots 1 (corkBodyArgs l) →
    Answers (.coopCork coop) s fun h =>
      s.hub.onlyCoopTold h coop (({ x.past w with lastStatus := St.OK }).setReg (Iw.f1 w) (St.OK)) ∧ (h.dom z).st = .stopping ∧
      (h.dom z).stopScn = m.stopTarget (corkBodyArgs l) z ∧
      (∃ c ∈ h.corks, c.id = s.hub.nextOp ∧ c.op = 1 ∧ c.src = .coop coop ∧ z ∈ c.live) ∧ h.corkShown = s.hub.corkShown ∧
      s.hub.rest h = { s.hub with doms := h.doms, tiles := h.tiles, corks := h.corks, nextOp := h.nextOp, fed := h.fed, link := (s.hub.rest h).link, coops := (s.hub.rest h).coops } ∧
      s.hub.keeps h []) ∧
  (∀ (s : State) (coop : CoopId) (x : Cooper) (w : Nat) (m : Hub) (a : Nat) (q : HarvReq),
    s.hub.calm = true → s.hub.coop coop = x → x.executes Co.HARV w = true → s.hub.setCoop coop (x.past w) = m →
    x.reg (Iw.f2 w) + Iw.imm w = a → a + 8 ≤ 256 → (x.data.get a 0).toNat = 1 →
    ({ a := scopeOf (x.data.get (a + 1) 0).toNat, sel := (x.data.get (a + 2) 0).toNat, rect := (x.data.get (a + 3) 0).toNat, range := (x.data.get (a + 4) 0).toNat, vintage := (x.data.get (a + 5) 0).toNat, ref := (x.data.get (a + 6) 0).toNat, snap := (x.data.get (a + 7) 0).toNat % 256, req := reqCode (coopReq coop) } : HarvReq) = q →
    m.harvCheck q = St.OK → q.vintage ≠ 0 → q.a.fed = false → q.a.xpkg = false →
    Answers (.coopHarv coop) s fun h =>
      s.hub.onlyCoopTold h coop (({ x.past w with lastStatus := St.OK, data := x.data.set (a + 5) (BitVec.ofNat 32 q.vintage) }).setReg (Iw.f1 w) St.OK) ∧
      h.harv.op = 1 ∧ h.harv.vintage = q.vintage ∧ h.harv.slots = m.scopeSlots q.a ∧ h.rd F.HARV_STATUS_OP = 1 ∧
      h.rd F.HARV_STATUS_DONE = 0 ∧ h.shows Ev.HARV_STARTED (minNat q.a.slot (m.scopeSlots q.a)) = true ∧
      s.hub.rest h = { s.hub with harv := h.harv, cell := h.cell, coops := (s.hub.rest h).coops } ∧
      s.hub.keeps h [R.HARV_STATUS, R.HARV_CUR_VINTAGE, R.HARV_OPEN_GCN_LO, R.HARV_OPEN_GCN_HI, R.HARV_PROGRESS, R.HARV_RAW_LO, R.HARV_RAW_HI, R.HARV_PRESSED_LO, R.HARV_PRESSED_HI]) ∧
  (∀ (s : State) (coop : CoopId) (x : Cooper) (w : Nat) (m : Hub) (a : Nat) (q : RackArgs),
    s.hub.calm = true → s.hub.coop coop = x → x.executes Co.RACK w = true → s.hub.setCoop coop (x.past w) = m →
    x.reg (Iw.f2 w) + Iw.imm w = a → a + 4 ≤ 256 → (x.data.get a 0).toNat = 1 →
    ({ hub := (x.data.get (a + 1) 0).toNat % 2048, vintage := (x.data.get (a + 2) 0).toNat, obj := (x.data.get (a + 3) 0).toNat } : RackArgs) = q →
    m.rackCheck false 1 q = St.OK →
    Answers (.coopRack coop) s fun h =>
      s.hub.onlyCoopTold h coop (({ x.past w with lastStatus := St.OK, data := x.data.set (a + 3) (BitVec.ofNat 32 (setBits q.obj 24 8 s.hub.rack.nextId)) }).setReg (Iw.f1 w) St.OK) ∧
      h.rack.queue = s.hub.rack.queue ++ [{ id := s.hub.rack.nextId, hub := q.hub, vintage := q.vintage, objs := q.obj % 0x40000, crash := m.isCrashVintage q }] ∧
      h.rack.nextId = (s.hub.rack.nextId + 1) % 255 ∧ s.hub.rest h = { s.hub with rack := h.rack, coops := (s.hub.rest h).coops } ∧
      s.hub.keeps h [R.RACK_STATUS]) ∧
  (∀ (s : State) (coop : CoopId) (x : Cooper) (w : Nat) (m : Hub) (a : Nat) (d : Nat),
    s.hub.calm = true → s.hub.coop coop = x → x.executes Co.XREG w = true → s.hub.setCoop coop (x.past w) = m →
    x.reg (Iw.f2 w) + Iw.imm w = a → a + 4 ≤ 256 → (x.data.get a 0).toNat = 1 → (x.data.get (a + 1) 0).toNat % 2048 = d →
    packageOf d = packageOf s.hub.hubAddr →
    Answers (.coopXreg coop) s fun h =>
      (h.coop coop).st = .waiting ∧ (h.coop coop).wait = .remote (Iw.f1 w) ∧
      { txn := s.hub.newTxn, dest := d, opcode := Op.REG_READ, sentAt := s.hub.time.hclk, who := .coop coop (Iw.f1 w) false, arg := a } ∈ h.fed.reqs ∧
      h.fed.nextTxn = (s.hub.fed.nextTxn + 1) % 256 ∧ s.hub.rest h = { s.hub with fed := h.fed, coops := (s.hub.rest h).coops } ∧
      s.hub.keeps h [R.PG_ERROR + Pg.FED * 0x1000, R.PG_ERROR_INFO + Pg.FED * 0x1000]) ∧
  (∀ (s : State) (coop : CoopId) (x : Cooper) (w : Nat) (m : Hub) (a : Nat),
    s.hub.calm = true → s.hub.coop coop = x → x.executes Co.XREG w = true → s.hub.setCoop coop (x.past w) = m →
    s.hub.degradedNow = s.hub.reg R.REL_DEGRADED → x.reg (Iw.f2 w) + Iw.imm w = a → a + 4 ≤ 256 →
    packageOf ((x.data.get (a + 1) 0).toNat % 2048) ≠ packageOf s.hub.hubAddr →
    Answers (.coopXreg coop) s fun h =>
      s.hub.onlyCoop h coop (({ x.past w with lastStatus := St.BAD_ARG }).setReg (Iw.f1 w) (St.BAD_ARG)) ∧
      s.hub.rest h = { s.hub with coops := (s.hub.rest h).coops } ∧ s.hub.keeps h [])

/-- An accepted START runs the script from its entry with COOP_ARG in W1, ABORT halts a cooper and gives up a load, LOAD_BEGIN opens LOADING, LOAD_COMMIT of a program that passes R449 leaves the cooper IDLE and raises COOP_LOADED, one that does not leaves it EMPTY with COOP_LOAD_REJECT and BAD_ARG, CLEAR_STATS zeroes the counters; a program word is stored at PROG_SEL while LOADING, and refused outside it; a data word is read or stored at DATA_SEL; the selector moves on. -/
def Obligations.cooper_commands_start_abort_and_load : Prop :=
  (∀ (s : State) (r : Req) (coop : CoopId) (x : Cooper) (script : Fin 8),
    s.hub.calm = true → s.hub.coop coop = x → s.hub.takesWrite r (R.COOP_CMD + 0x1000 * coop) (1 + 16 * script) = true →
    s.hub.coopCheck coop 1 script = St.OK →
    Answers (.coopStart r coop script) s fun h =>
      h.tookWrite r ∧ h.rd (F.COOP_CMD_STATUS_STATUS.lane coop) = St.OK ∧ h.rd (F.COOP_CMD_STATUS_OP.lane coop) = 1 ∧
      h.rd (F.COOP_CMD_STATUS_DONE.lane coop) = 1 ∧ (h.coop coop).st = .running ∧ (h.coop coop).script = script ∧
      (h.coop coop).pc = (x.scripts.get script {}).entry ∧ (h.coop coop).stack = [] ∧ (h.coop coop).queue = [] ∧
      (h.coop coop).filter = none ∧ (h.coop coop).sig = 0xFFFFFFFF ∧ (h.coop coop).wdog = (x.scripts.get script {}).budget ∧
      (h.coop coop).prog = x.prog ∧ (h.coop coop).data = x.data ∧ (h.coop coop).last = {} ∧ (∀ n, n ≠ 1 → (h.coop coop).reg n = 0) ∧
      h.rd (F.COOP_RUNS_STARTS.lane coop) = sat (F.COOP_RUNS_STARTS.lane coop).width (s.hub.rd (F.COOP_RUNS_STARTS.lane coop) + 1) ∧
      h.shows Ev.COOP_STARTED ((coop : Nat) + 2 * script) = true ∧ (h.coop coop).reg 1 = s.hub.rd (F.COOP_ARG_VALUE.lane coop) ∧
      s.hub.rest h = { s.hub with coops := (s.hub.rest h).coops } ∧
      s.hub.keeps h [(F.COOP_CMD_STATUS_STATUS.lane coop).addr, R.COOP_RUNS + 0x1000 * coop]) ∧
  (∀ (s : State) (r : Req) (coop : CoopId) (x : Cooper),
    s.hub.calm = true → s.hub.coop coop = x → s.hub.takesWrite r (R.COOP_CMD + 0x1000 * coop) 2 = true → s.hub.coopCheck coop 2 0 = St.OK →
    x.st ≠ .empty → x.st ≠ .loading →
    Answers (.coopAbort r coop) s fun h =>
      h.tookWrite r ∧ h.rd (F.COOP_CMD_STATUS_STATUS.lane coop) = St.OK ∧ h.rd (F.COOP_CMD_STATUS_OP.lane coop) = 2 ∧
      h.rd (F.COOP_CMD_STATUS_DONE.lane coop) = 1 ∧ s.hub.onlyCoopTold h coop ({ x with st := .halted, cause := Cc.ABORT, wait := .none }) ∧
      (∀ p, h.owner p ≠ reqCode (coopReq coop) + 1 ∧ (s.hub.owner p ≠ reqCode (coopReq coop) + 1 → h.owner p = s.hub.owner p)) ∧
      s.hub.rest h = { s.hub with owners := h.owners, coops := (s.hub.rest h).coops } ∧
      s.hub.keeps h [(F.COOP_CMD_STATUS_STATUS.lane coop).addr]) ∧
  (∀ (s : State) (r : Req) (coop : CoopId) (x : Cooper),
    s.hub.calm = true → s.hub.coop coop = x → s.hub.takesWrite r (R.COOP_CMD + 0x1000 * coop) 2 = true → s.hub.coopCheck coop 2 0 = St.OK →
    x.st = .loading →
    Answers (.coopAbort r coop) s fun h =>
      h.tookWrite r ∧ h.rd (F.COOP_CMD_STATUS_STATUS.lane coop) = St.OK ∧ h.rd (F.COOP_CMD_STATUS_OP.lane coop) = 2 ∧
      h.rd (F.COOP_CMD_STATUS_DONE.lane coop) = 1 ∧ s.hub.onlyCoop h coop ({ x with st := .empty, loading := false }) ∧
      s.hub.rest h = { s.hub with coops := (s.hub.rest h).coops } ∧ s.hub.keeps h [(F.COOP_CMD_STATUS_STATUS.lane coop).addr]) ∧
  (∀ (s : State) (r : Req) (coop : CoopId) (x : Cooper),
    s.hub.calm = true → s.hub.coop coop = x → s.hub.takesWrite r (R.COOP_CMD + 0x1000 * coop) 3 = true → s.hub.coopCheck coop 3 0 = St.OK →
    Answers (.loadBegin r coop) s fun h =>
      h.tookWrite r ∧ h.rd (F.COOP_CMD_STATUS_STATUS.lane coop) = St.OK ∧ h.rd (F.COOP_CMD_STATUS_OP.lane coop) = 3 ∧
      h.rd (F.COOP_CMD_STATUS_DONE.lane coop) = 1 ∧ s.hub.onlyCoop h coop ({ x with st := .loading, loading := true }) ∧
      s.hub.rest h = { s.hub with coops := (s.hub.rest h).coops } ∧ s.hub.keeps h [(F.COOP_CMD_STATUS_STATUS.lane coop).addr]) ∧
  (∀ (s : State) (r : Req) (coop : CoopId) (x : Cooper),
    s.hub.calm = true → s.hub.coop coop = x → s.hub.takesWrite r (R.COOP_CMD + 0x1000 * coop) 4 = true → s.hub.coopCheck coop 4 0 = St.OK →
    x.defined.all (fun i => (x.scripts.get i {}).trigger != 3) = true →
    programOk (x.words (s.hub.rd (F.COOP_PROG_WORDS_COUNT.lane coop))) (x.defined.map (fun i => (x.scripts.get i {}).entry)) (s.hub.rd (F.COOP_PROG_CRC_CRC.lane coop)) = true →
    Answers (.loadCommit r coop) s fun h =>
      h.tookWrite r ∧ h.rd (F.COOP_CMD_STATUS_STATUS.lane coop) = St.OK ∧ h.rd (F.COOP_CMD_STATUS_OP.lane coop) = 4 ∧
      h.rd (F.COOP_CMD_STATUS_DONE.lane coop) = 1 ∧
      s.hub.onlyCoopTold h coop ({ x with st := .idle, loading := false, cause := 0, initData := x.data }) ∧
      h.shows Ev.COOP_LOADED coop = true ∧ s.hub.rest h = { s.hub with coops := (s.hub.rest h).coops } ∧
      s.hub.keeps h [(F.COOP_CMD_STATUS_STATUS.lane coop).addr]) ∧
  (∀ (s : State) (r : Req) (coop : CoopId) (x : Cooper),
    s.hub.calm = true → s.hub.coop coop = x → s.hub.takesWrite r (R.COOP_CMD + 0x1000 * coop) 4 = true → s.hub.coopCheck coop 4 0 = St.OK →
    programOk (x.words (s.hub.rd (F.COOP_PROG_WORDS_COUNT.lane coop))) (x.defined.map (fun i => (x.scripts.get i {}).entry)) (s.hub.rd (F.COOP_PROG_CRC_CRC.lane coop)) = false →
    Answers (.loadCommit r coop) s fun h =>
      h.tookWrite r ∧ h.rd (F.COOP_CMD_STATUS_STATUS.lane coop) = St.BAD_ARG ∧
      s.hub.onlyCoopTold h coop ({ x with st := .empty, loading := false }) ∧ h.shows Ev.COOP_LOAD_REJECT coop = true ∧
      s.hub.rest h = { s.hub with coops := (s.hub.rest h).coops } ∧ s.hub.keeps h [(F.COOP_CMD_STATUS_STATUS.lane coop).addr]) ∧
  (∀ (s : State) (r : Req) (coop : CoopId) (x : Cooper),
    s.hub.calm = true → s.hub.coop coop = x → s.hub.takesWrite r (R.COOP_CMD + 0x1000 * coop) 5 = true → s.hub.coopCheck coop 5 0 = St.OK →
    Answers (.coopClearStats r coop) s fun h =>
      h.tookWrite r ∧ h.rd (F.COOP_CMD_STATUS_STATUS.lane coop) = St.OK ∧ h.rd (F.COOP_CMD_STATUS_OP.lane coop) = 5 ∧
      h.rd (F.COOP_CMD_STATUS_DONE.lane coop) = 1 ∧ h.reg (R.COOP_EVLOSS + coop * 0x1000) = 0 ∧ h.reg (R.COOP_RUNS + coop * 0x1000) = 0 ∧
      s.hub.onlyCoop h coop (x) ∧ s.hub.rest h = s.hub ∧
      s.hub.keeps h [(F.COOP_CMD_STATUS_STATUS.lane coop).addr, R.COOP_RUNS + 0x1000 * coop, R.COOP_EVLOSS + 0x1000 * coop]) ∧
  (∀ (s : State) (r : Req) (coop : CoopId) (v : Word) (x : Cooper),
    s.hub.calm = true → s.hub.coop coop = x → s.hub.takesWrite r (R.COOP_PROG_DATA + 0x1000 * coop) v.toNat = true → x.st = .loading →
    Answers (.coopProgDataWrite r coop v) s fun h =>
      h.tookWrite r ∧ s.hub.onlyCoop h coop ({ x with prog := x.prog.set (s.hub.rd (F.COOP_PROG_SEL_WORD.lane coop)) v }) ∧
      h.rd (F.COOP_PROG_SEL_WORD.lane coop) = (s.hub.rd (F.COOP_PROG_SEL_WORD.lane coop) + 1) % 1024 ∧
      s.hub.rest h = { s.hub with coops := (s.hub.rest h).coops } ∧ s.hub.keeps h [(F.COOP_PROG_SEL_WORD.lane coop).addr]) ∧
  (∀ (s : State) (r : Req) (coop : CoopId) (v : Word) (x : Cooper),
    s.hub.calm = true → s.hub.coop coop = x → s.hub.takesWrite r (R.COOP_PROG_DATA + 0x1000 * coop) v.toNat = true → x.st ≠ .loading →
    Answers (.coopProgDataWrite r coop v) s fun h =>
      h.tookWrite r ∧ s.hub.onlyCoop h coop (x) ∧ h.hasErr (Er.COOP_ARG_BUSY.lane coop) = true ∧ s.hub.rest h = s.hub ∧
      s.hub.keeps h [R.PG_ERROR + (Pg.COOP + coop) * 0x1000, R.PG_ERROR_INFO + (Pg.COOP + coop) * 0x1000]) ∧
  (∀ (s : State) (r : Req) (coop : CoopId) (v : Word) (x : Cooper),
    s.hub.calm = true → s.hub.coop coop = x → s.hub.takesWrite r (R.COOP_DATA_DATA + 0x1000 * coop) v.toNat = true → x.st ≠ .running →
    x.st ≠ .waiting →
    Answers (.coopDataDataAccess r coop (some v)) s fun h =>
      h.tookWrite r ∧ s.hub.onlyCoop h coop ({ x with data := x.data.set (s.hub.rd (F.COOP_DATA_SEL_WORD.lane coop)) v }) ∧
      h.rd (F.COOP_DATA_SEL_WORD.lane coop) = (s.hub.rd (F.COOP_DATA_SEL_WORD.lane coop) + 1) % 256 ∧
      s.hub.rest h = { s.hub with coops := (s.hub.rest h).coops } ∧ s.hub.keeps h [(F.COOP_DATA_SEL_WORD.lane coop).addr]) ∧
  (∀ (s : State) (r : Req) (coop : CoopId) (x : Cooper),
    s.hub.calm = true → s.hub.coop coop = x → s.hub.accessStatus r (R.COOP_DATA_DATA + 0x1000 * coop) false 0 = St.OK →
    Answers (.coopDataDataAccess r coop none) s fun h =>
      h.bus.get (reqCode r) {} = { value := (x.data.get (s.hub.rd (F.COOP_DATA_SEL_WORD.lane coop)) 0).toNat, status := St.OK } ∧
      s.hub.onlyCoop h coop (x) ∧ h.rd (F.COOP_DATA_SEL_WORD.lane coop) = (s.hub.rd (F.COOP_DATA_SEL_WORD.lane coop) + 1) % 256 ∧
      s.hub.rest h = s.hub ∧ s.hub.keeps h [(F.COOP_DATA_SEL_WORD.lane coop).addr])
end

