-- ==== Sys2Proof/Laws/Tab.lean ====
section
/-! SUPPORT. The laws of tables: what a key holds after a write or a removal. -/

namespace Sys2Proof

@[simp] theorem findKey_putKey_same {α : Type} (k : Nat) (v d : α) (l : List (Nat × α)) : findKey k d (putKey k v l) = v := by
  induction l with
  | nil => simp [putKey, findKey]
  | cons p rest ih =>
    obtain ⟨j, w⟩ := p
    by_cases h1 : j < k
    · have : j ≠ k := by omega
      simp [putKey, findKey, h1, this, ih]
    · by_cases h2 : j = k <;> simp [putKey, findKey, h2]
      have h3 : ¬ j < k := h1
      simp [h3, findKey]

theorem findKey_putKey_ne {α : Type} {k k' : Nat} (h : k' ≠ k) (v d : α) (l : List (Nat × α)) :
    findKey k' d (putKey k v l) = findKey k' d l := by
  have h' : k ≠ k' := fun e => h e.symm
  induction l with
  | nil => simp [putKey, findKey, h']
  | cons p rest ih =>
    obtain ⟨j, w⟩ := p
    by_cases h1 : j < k
    · simp [putKey, findKey, h1, ih]
    · by_cases h2 : j = k
      · subst h2; simp [putKey, findKey, h']
      · simp [putKey, findKey, h1, h2, h']

@[simp] theorem findKey_dropKey_same {α : Type} (k : Nat) (d : α) (l : List (Nat × α)) : findKey k d (dropKey k l) = d := by
  induction l with
  | nil => simp [dropKey, findKey]
  | cons p rest ih =>
    obtain ⟨j, w⟩ := p
    by_cases h : j = k <;> simp [dropKey, findKey, h, ih]

theorem findKey_dropKey_ne {α : Type} {k k' : Nat} (h : k' ≠ k) (d : α) (l : List (Nat × α)) :
    findKey k' d (dropKey k l) = findKey k' d l := by
  have h' : k ≠ k' := fun e => h e.symm
  induction l with
  | nil => simp [dropKey]
  | cons p rest ih =>
    obtain ⟨j, w⟩ := p
    by_cases h2 : j = k
    · subst h2; simp [dropKey, findKey, h', ih]
    · simp [dropKey, findKey, h2, ih]

@[simp] theorem Tab.get_set_same {α : Type} (t : Tab α) (k : Nat) (v d : α) : (t.set k v).get k d = v := findKey_putKey_same ..

theorem Tab.get_set_ne {α : Type} (t : Tab α) {k k' : Nat} (h : k' ≠ k) (v d : α) : (t.set k v).get k' d = t.get k' d :=
  findKey_putKey_ne h ..

theorem Tab.get_set {α : Type} (t : Tab α) (k k' : Nat) (v d : α) : (t.set k v).get k' d = if k' = k then v else t.get k' d := by
  by_cases h : k' = k
  · subst h; simp
  · simp [h, Tab.get_set_ne t h]

@[simp] theorem Tab.get_del_same {α : Type} (t : Tab α) (k : Nat) (d : α) : (t.del k).get k d = d := findKey_dropKey_same ..

theorem Tab.get_del_ne {α : Type} (t : Tab α) {k k' : Nat} (h : k' ≠ k) (d : α) : (t.del k).get k' d = t.get k' d := findKey_dropKey_ne h ..

end Sys2Proof
end

