-- ==== Sys2Proof/Laws/Memory.lean ====
section
/-! SUPPORT. The laws of the memories: the canonical form is kept by every write, a byte written reads back, no other byte changes. -/

namespace Sys2Proof.Machine

/-- The canonical form as a fact about the whole list: addresses rise, and no cell holds the default. -/
theorem Memory.wf_iff (m : List Host.Cell) : Memory.wf m = true ↔ m.Pairwise (fun c d => c.1 < d.1) ∧ ∀ c ∈ m, c.2 ≠ memDefault := by
  induction m with
  | nil => simp [Memory.wf]
  | cons c m ih =>
    cases m with
    | nil => simp [Memory.wf]
    | cons d m =>
      simp only [Memory.wf, Bool.and_eq_true, ih, decide_eq_true_eq, bne_iff_ne, List.pairwise_cons, List.mem_cons, forall_eq_or_imp]
      constructor
      · rintro ⟨⟨h1, h2⟩, ⟨h3, h4⟩, h5, h6⟩
        exact ⟨⟨⟨h1, fun e he => Nat.lt_trans h1 (h3 e he)⟩, h3, h4⟩, h2, h5, h6⟩
      · rintro ⟨⟨⟨h1, -⟩, h3, h4⟩, h2, h5, h6⟩
        exact ⟨⟨h1, h2⟩, ⟨h3, h4⟩, h5, h6⟩

theorem mem_putKey {α : Type} {k : Nat} {v : α} {l : List (Nat × α)} {c : Nat × α} (h : c ∈ putKey k v l) : c = (k, v) ∨ c ∈ l := by
  induction l with
  | nil => left; simpa [putKey] using h
  | cons d l ih =>
    obtain ⟨j, w⟩ := d
    unfold putKey at h
    split at h
    · rcases List.mem_cons.mp h with h | h
      · exact .inr (h ▸ List.mem_cons_self)
      · exact (ih h).imp id (List.mem_cons_of_mem _)
    · split at h
      · exact (List.mem_cons.mp h).imp id (List.mem_cons_of_mem _)
      · exact List.mem_cons.mp h

theorem mem_dropKey {α : Type} {k : Nat} {l : List (Nat × α)} {c : Nat × α} (h : c ∈ dropKey k l) : c ∈ l := by
  induction l with
  | nil => simp [dropKey] at h
  | cons d l ih =>
    obtain ⟨j, w⟩ := d
    unfold dropKey at h
    split at h
    · exact List.mem_cons_of_mem _ (ih h)
    · rcases List.mem_cons.mp h with h | h
      · exact h ▸ List.mem_cons_self
      · exact List.mem_cons_of_mem _ (ih h)

theorem memWrite_wf (m : List Host.Cell) (a : Nat) (b : Byte) (h : Memory.wf m = true) : Memory.wf (memWrite m a b) = true := by
  rw [Memory.wf_iff] at h ⊢
  unfold memWrite
  split
  · rename_i hb
    refine ⟨?_, fun c hc => h.2 c (mem_dropKey hc)⟩
    obtain ⟨h, -⟩ := h
    induction m with
    | nil => simp [dropKey]
    | cons d m ih =>
      obtain ⟨j, w⟩ := d
      rw [List.pairwise_cons] at h
      unfold dropKey
      split
      · exact ih h.2
      · exact List.pairwise_cons.mpr ⟨fun c hc => h.1 c (mem_dropKey hc), ih h.2⟩
  · rename_i hb
    refine ⟨?_, fun c hc => ?_⟩
    · obtain ⟨h, -⟩ := h
      induction m with
      | nil => simp [putKey]
      | cons d m ih =>
        obtain ⟨j, w⟩ := d
        rw [List.pairwise_cons] at h
        unfold putKey
        split
        · refine List.pairwise_cons.mpr ⟨fun c hc => ?_, ih h.2⟩
          rcases mem_putKey hc with rfl | hc
          · assumption
          · exact h.1 c hc
        · rename_i e1
          split
          · rename_i e; simp only [beq_iff_eq] at e; subst e
            exact List.pairwise_cons.mpr ⟨h.1, h.2⟩
          · rename_i e2
            simp only [beq_iff_eq] at e2
            refine List.pairwise_cons.mpr ⟨fun c hc => ?_, List.pairwise_cons.mpr h⟩
            rcases List.mem_cons.mp hc with rfl | hc
            · show a < j; omega
            · have := h.1 c hc
              show a < c.1; omega
    · rcases mem_putKey hc with rfl | hc
      · simpa using hb
      · exact h.2 c hc

theorem memWriteAll_wf (m : List Host.Cell) (a : Nat) (bs : List Byte) (h : Memory.wf m = true) : Memory.wf (memWriteAll m a bs) = true := by
  induction bs generalizing m a with
  | nil => exact h
  | cons b bs ih => exact ih _ _ (memWrite_wf m a b h)

theorem Store.write_wf (st : Store) (w : StoreWrite) (h : st.wf = true) : (st.write w).wf = true := by
  simp only [Store.wf, Bool.and_eq_true] at h ⊢
  obtain ⟨⟨h1, h2⟩, h3⟩ := h
  unfold Store.write
  split
  · exact ⟨⟨memWriteAll_wf _ _ _ h1, h2⟩, h3⟩
  · exact ⟨⟨h1, memWriteAll_wf _ _ _ h2⟩, h3⟩
  · exact ⟨⟨h1, h2⟩, memWriteAll_wf _ _ _ h3⟩

theorem Store.writeAll_wf (st : Store) (ws : List StoreWrite) (h : st.wf = true) : (st.writeAll ws).wf = true := by
  induction ws generalizing st with
  | nil => exact h
  | cons w ws ih => exact ih _ (Store.write_wf st w h)

/-- A byte written to a memory reads back. -/
theorem memRead_memWrite (m : List Host.Cell) (a : Nat) (b : Byte) : memRead (memWrite m a b) a = b := by
  unfold memRead memWrite
  split
  · rename_i hb
    have hb : b = memDefault := by simpa using hb
    rw [hb]
    clear hb
    induction m with
    | nil => rfl
    | cons d m ih =>
      obtain ⟨j, w⟩ := d
      unfold dropKey
      split
      · exact ih
      · rename_i e
        unfold findKey
        rw [if_neg e]
        exact ih
  · exact findKey_putKey_same ..

/-- Writing a byte leaves every other one alone. -/
theorem memRead_memWrite_ne (m : List Host.Cell) {a a' : Nat} (b : Byte) (h : a' ≠ a) : memRead (memWrite m a b) a' = memRead m a' := by
  unfold memRead memWrite
  split
  · exact findKey_dropKey_ne h _ _
  · exact findKey_putKey_ne h _ _ _

/-- Writing bytes leaves every byte outside them alone. -/
theorem memRead_memWriteAll_ne (m : List Host.Cell) (a : Nat) (bs : List Byte) {a' : Nat} (h : a' < a ∨ a + bs.length ≤ a') :
    memRead (memWriteAll m a bs) a' = memRead m a' := by
  induction bs generalizing m a with
  | nil => rfl
  | cons b bs ih =>
    simp only [List.length_cons] at h
    rw [memWriteAll, ih _ _ (by omega), memRead_memWrite_ne _ _ (by omega)]

end Sys2Proof.Machine
end

