-- ==== Sys2Proof/Laws/Regs.lean ====
section
/-! SUPPORT. The laws of bit fields and of registers: reading after writing. -/

namespace Sys2Proof.Machine

/-! ### Bit fields -/

theorem bitsOf_lt (v lo w : Nat) : bitsOf v lo w < 2 ^ w := Nat.mod_lt _ (Nat.two_pow_pos w)

theorem setBits_div (v lo w x : Nat) : setBits v lo w x / 2 ^ lo = x % 2 ^ w + v / 2 ^ (lo + w) * 2 ^ w := by
  have hp : 0 < 2 ^ lo := Nat.two_pow_pos lo
  have : setBits v lo w x = v % 2 ^ lo + (x % 2 ^ w + v / 2 ^ (lo + w) * 2 ^ w) * 2 ^ lo := by
    unfold setBits; rw [pow_add]; ring
  rw [this, Nat.add_mul_div_right _ _ hp, Nat.div_eq_of_lt (Nat.mod_lt _ hp), Nat.zero_add]

/-- A field reads what was put into it. -/
theorem bitsOf_setBits (v lo w x : Nat) : bitsOf (setBits v lo w x) lo w = x % 2 ^ w := by
  rw [bitsOf, Nat.shiftRight_eq_div_pow, setBits_div, Nat.add_mul_mod_self_right, Nat.mod_mod]

/-- A field below keeps its value. -/
theorem bitsOf_setBits_below (v lo w x lo' w' : Nat) (h : lo' + w' ≤ lo) : bitsOf (setBits v lo w x) lo' w' = bitsOf v lo' w' := by
  have e : bitsOf v lo' w' = bitsOf (v % 2 ^ lo) lo' w' := by
    apply Nat.eq_of_testBit_eq; intro i
    simp only [bitsOf, Nat.testBit_mod_two_pow, Nat.testBit_shiftRight]
    by_cases hi : i < w' <;> simp [hi]
    intro; omega
  have e2 : bitsOf (setBits v lo w x) lo' w' = bitsOf (setBits v lo w x % 2 ^ lo) lo' w' := by
    apply Nat.eq_of_testBit_eq; intro i
    simp only [bitsOf, Nat.testBit_mod_two_pow, Nat.testBit_shiftRight]
    by_cases hi : i < w' <;> simp [hi]
    intro; omega
  rw [e, e2]; congr 1
  have : setBits v lo w x = v % 2 ^ lo + (x % 2 ^ w + v / 2 ^ (lo + w) * 2 ^ w) * 2 ^ lo := by
    unfold setBits; rw [pow_add]; ring
  rw [this, Nat.add_mul_mod_self_right, Nat.mod_mod]

/-- A field above keeps its value. -/
theorem bitsOf_setBits_above (v lo w x lo' w' : Nat) (h : lo + w ≤ lo') : bitsOf (setBits v lo w x) lo' w' = bitsOf v lo' w' := by
  have key : setBits v lo w x / 2 ^ (lo + w) = v / 2 ^ (lo + w) := by
    have hp : 0 < 2 ^ (lo + w) := Nat.two_pow_pos _
    have hlt : v % 2 ^ lo + (x % 2 ^ w) * 2 ^ lo < 2 ^ (lo + w) := by
      have h1 : v % 2 ^ lo < 2 ^ lo := Nat.mod_lt _ (Nat.two_pow_pos lo)
      have h2 : x % 2 ^ w + 1 ≤ 2 ^ w := Nat.mod_lt _ (Nat.two_pow_pos w)
      calc v % 2 ^ lo + (x % 2 ^ w) * 2 ^ lo < 2 ^ lo + (x % 2 ^ w) * 2 ^ lo := by omega
        _ = (x % 2 ^ w + 1) * 2 ^ lo := by ring
        _ ≤ 2 ^ w * 2 ^ lo := Nat.mul_le_mul_right _ h2
        _ = 2 ^ (lo + w) := by rw [pow_add]; ring
    unfold setBits
    rw [Nat.add_mul_div_right _ _ hp, Nat.div_eq_of_lt hlt, Nat.zero_add]
  have e : ∀ u : Nat, bitsOf u lo' w' = bitsOf (u / 2 ^ (lo + w)) (lo' - (lo + w)) w' := by
    intro u
    simp only [bitsOf, Nat.shiftRight_eq_div_pow, Nat.div_div_eq_div_mul, ← pow_add]
    congr 3; omega
  rw [e, key, ← e]

/-- The fields of a register stored in 32 bits. -/
theorem bitsOf_mod_word (v lo w : Nat) (h : lo + w ≤ 32) : bitsOf (v % 2 ^ 32) lo w = bitsOf v lo w := by
  apply Nat.eq_of_testBit_eq; intro i
  simp only [bitsOf, Nat.testBit_mod_two_pow, Nat.testBit_shiftRight]
  by_cases hi : i < w <;> simp [hi]
  intro; omega

theorem bitAt_eq_testBit (v n : Nat) : bitAt v n = v.testBit n := by
  simp [bitAt, Nat.testBit, Nat.and_comm]

/-! ### Registers -/

@[simp] theorem Hub.regB_setRegB (s : Hub) (a b v : Nat) : (s.setRegB a b v).regB a b = v % 2 ^ 32 := by
  simp [Hub.regB, Hub.setRegB]

/-- Writing a register leaves every other one alone. -/
theorem Hub.regB_setRegB_ne (s : Hub) {a b a' b' : Nat} (v : Nat) (h : regKey a' b' ≠ regKey a b) :
    (s.setRegB a b v).regB a' b' = s.regB a' b' := by
  simp only [Hub.regB, Hub.setRegB]
  rw [Tab.get_set_ne _ h]

@[simp] theorem Hub.reg_setReg (s : Hub) (a v : Nat) : (s.setReg a v).reg a = v % 2 ^ 32 := by
  simp [Hub.reg, Hub.setReg]

theorem Hub.reg_setReg_ne (s : Hub) {a a' : Nat} (v : Nat) (h : a' ≠ a) : (s.setReg a v).reg a' = s.reg a' := by
  apply Hub.regB_setRegB_ne; simpa [regKey] using h

/-- Two fields share no bit. -/
def Fld.apart (f g : Fld) : Bool := f.addr != g.addr || f.lo + f.width ≤ g.lo || g.lo + g.width ≤ f.lo

/-- A field reads what was written to it. -/
theorem Hub.rdB_wrB (s : Hub) (f : Fld) (b v : Nat) (h : f.lo + f.width ≤ 32) : (s.wrB f b v).rdB f b = v % 2 ^ f.width := by
  simp only [Hub.rdB, Hub.wrB, Hub.regB_setRegB]
  rw [bitsOf_mod_word _ _ _ h, bitsOf_setBits]

/-- Writing a field leaves the fields apart from it alone. -/
theorem Hub.rdB_wrB_apart (s : Hub) (f g : Fld) (b v : Nat) (hg : g.lo + g.width ≤ 32)
    (h : f.apart g = true) : (s.wrB f b v).rdB g b = s.rdB g b := by
  simp only [Hub.rdB, Hub.wrB]
  by_cases e : f.addr = g.addr
  · rw [← e, Hub.regB_setRegB, bitsOf_mod_word _ _ _ hg]
    simp only [Fld.apart, e, bne_self_eq_false, Bool.false_or, Bool.or_eq_true, decide_eq_true_eq] at h
    rcases h with h | h
    · exact bitsOf_setBits_above _ _ _ _ _ _ h
    · exact bitsOf_setBits_below _ _ _ _ _ _ h
  · rw [Hub.regB_setRegB_ne]
    intro k; apply e; simp only [regKey] at k; omega

/-- A field reads what was written to it. -/
theorem Hub.rd_wr (s : Hub) (f : Fld) (v : Nat) (h : f.lo + f.width ≤ 32) : (s.wr f v).rd f = v % 2 ^ f.width := s.rdB_wrB f 0 v h

/-- Writing a field leaves the fields apart from it alone. -/
theorem Hub.rd_wr_apart (s : Hub) (f g : Fld) (v : Nat) (hg : g.lo + g.width ≤ 32) (h : f.apart g = true) :
    (s.wr f v).rd g = s.rd g := by
  by_cases e : f.addr = g.addr
  · simp only [Hub.rd, Hub.rdB, Hub.wr, Hub.wrB]
    rw [← e, Hub.regB_setRegB, bitsOf_mod_word _ _ _ hg]
    simp only [Fld.apart, e, bne_self_eq_false, Bool.false_or, Bool.or_eq_true, decide_eq_true_eq] at h
    rcases h with h | h
    · exact bitsOf_setBits_above _ _ _ _ _ _ h
    · exact bitsOf_setBits_below _ _ _ _ _ _ h
  · simp only [Hub.rd, Hub.rdB, Hub.wr, Hub.wrB]
    rw [Hub.regB_setRegB_ne]; simpa [regKey] using fun k => e k.symm

/-- Writing a field leaves every other register alone. -/
theorem Hub.reg_wr_ne (s : Hub) (f : Fld) (v : Nat) {a : Nat} (h : a ≠ f.addr) : (s.wr f v).reg a = s.reg a := by
  apply Hub.regB_setRegB_ne; simpa [regKey] using h

/-- Writing a register leaves the fields of every other one alone. -/
theorem Hub.rd_setReg_ne (s : Hub) (f : Fld) {a : Nat} (v : Nat) (h : f.addr ≠ a) : (s.setReg a v).rd f = s.rd f := by
  have := Hub.reg_setReg_ne s v h
  simp only [Hub.rd, Hub.rdB, Hub.reg] at *; rw [this]

/-- A field of a register just written. -/
theorem Hub.rd_setReg (s : Hub) (f : Fld) (v : Nat) (h : f.lo + f.width ≤ 32) : (s.setReg f.addr v).rd f = bitsOf v f.lo f.width := by
  have := Hub.reg_setReg s f.addr v
  simp only [Hub.rd, Hub.rdB, Hub.reg] at *; rw [this, bitsOf_mod_word _ _ _ h]

end Sys2Proof.Machine
end

