-- ==== Sys2Proof/Laws/State.lean ====
section
/-! SUPPORT. What the named operations over the hub leave alone: one lemma per field and operation, true by unfolding. No later proof unfolds a
record update. -/

namespace Sys2Proof.Machine

variable (s : Hub)

/-! ### `Hub.setRegB` -/

@[simp] theorem Hub.setRegB_hi (a b v : Nat) : (s.setRegB a b v).hi = s.hi := rfl
@[simp] theorem Hub.setRegB_stage (a b v : Nat) : (s.setRegB a b v).stage = s.stage := rfl
@[simp] theorem Hub.setRegB_bus (a b v : Nat) : (s.setRegB a b v).bus = s.bus := rfl
@[simp] theorem Hub.setRegB_owners (a b v : Nat) : (s.setRegB a b v).owners = s.owners := rfl
@[simp] theorem Hub.setRegB_softReset (a b v : Nat) : (s.setRegB a b v).softReset = s.softReset := rfl
@[simp] theorem Hub.setRegB_pins (a b v : Nat) : (s.setRegB a b v).pins = s.pins := rfl
@[simp] theorem Hub.setRegB_time (a b v : Nat) : (s.setRegB a b v).time = s.time := rfl
@[simp] theorem Hub.setRegB_doms (a b v : Nat) : (s.setRegB a b v).doms = s.doms := rfl
@[simp] theorem Hub.setRegB_glbLeft (a b v : Nat) : (s.setRegB a b v).glbLeft = s.glbLeft := rfl
@[simp] theorem Hub.setRegB_corks (a b v : Nat) : (s.setRegB a b v).corks = s.corks := rfl
@[simp] theorem Hub.setRegB_nextOp (a b v : Nat) : (s.setRegB a b v).nextOp = s.nextOp := rfl
@[simp] theorem Hub.setRegB_corkShown (a b v : Nat) : (s.setRegB a b v).corkShown = s.corkShown := rfl
@[simp] theorem Hub.setRegB_waveCrc (a b v : Nat) : (s.setRegB a b v).waveCrc = s.waveCrc := rfl
@[simp] theorem Hub.setRegB_tiles (a b v : Nat) : (s.setRegB a b v).tiles = s.tiles := rfl
@[simp] theorem Hub.setRegB_power (a b v : Nat) : (s.setRegB a b v).power = s.power := rfl
@[simp] theorem Hub.setRegB_harv (a b v : Nat) : (s.setRegB a b v).harv = s.harv := rfl
@[simp] theorem Hub.setRegB_canes (a b v : Nat) : (s.setRegB a b v).canes = s.canes := rfl
@[simp] theorem Hub.setRegB_lanes (a b v : Nat) : (s.setRegB a b v).lanes = s.lanes := rfl
@[simp] theorem Hub.setRegB_cell (a b v : Nat) : (s.setRegB a b v).cell = s.cell := rfl
@[simp] theorem Hub.setRegB_rack (a b v : Nat) : (s.setRegB a b v).rack = s.rack := rfl
@[simp] theorem Hub.setRegB_trace (a b v : Nat) : (s.setRegB a b v).trace = s.trace := rfl
@[simp] theorem Hub.setRegB_taste (a b v : Nat) : (s.setRegB a b v).taste = s.taste := rfl
@[simp] theorem Hub.setRegB_digTiles (a b v : Nat) : (s.setRegB a b v).digTiles = s.digTiles := rfl
@[simp] theorem Hub.setRegB_digExt (a b v : Nat) : (s.setRegB a b v).digExt = s.digExt := rfl
@[simp] theorem Hub.setRegB_numw (a b v : Nat) : (s.setRegB a b v).numw = s.numw := rfl
@[simp] theorem Hub.setRegB_hang (a b v : Nat) : (s.setRegB a b v).hang = s.hang := rfl
@[simp] theorem Hub.setRegB_hangCtl (a b v : Nat) : (s.setRegB a b v).hangCtl = s.hangCtl := rfl
@[simp] theorem Hub.setRegB_ladder (a b v : Nat) : (s.setRegB a b v).ladder = s.ladder := rfl
@[simp] theorem Hub.setRegB_fed (a b v : Nat) : (s.setRegB a b v).fed = s.fed := rfl
@[simp] theorem Hub.setRegB_link (a b v : Nat) : (s.setRegB a b v).link = s.link := rfl
@[simp] theorem Hub.setRegB_boot (a b v : Nat) : (s.setRegB a b v).boot = s.boot := rfl
@[simp] theorem Hub.setRegB_auth (a b v : Nat) : (s.setRegB a b v).auth = s.auth := rfl
@[simp] theorem Hub.setRegB_bist (a b v : Nat) : (s.setRegB a b v).bist = s.bist := rfl
@[simp] theorem Hub.setRegB_rel (a b v : Nat) : (s.setRegB a b v).rel = s.rel := rfl
@[simp] theorem Hub.setRegB_coops (a b v : Nat) : (s.setRegB a b v).coops = s.coops := rfl
@[simp] theorem Hub.setRegB_freeCount (a b v : Nat) : (s.setRegB a b v).freeCount = s.freeCount := rfl
@[simp] theorem Hub.setRegB_digAgain (a b v : Nat) : (s.setRegB a b v).digAgain = s.digAgain := rfl
@[simp] theorem Hub.setRegB_numwHeld (a b v : Nat) : (s.setRegB a b v).numwHeld = s.numwHeld := rfl
@[simp] theorem Hub.setRegB_store (a b v : Nat) : (s.setRegB a b v).store = s.store := rfl
@[simp] theorem Hub.setRegB_occs (a b v : Nat) : (s.setRegB a b v).occs = s.occs := rfl
@[simp] theorem Hub.setRegB_writes (a b v : Nat) : (s.setRegB a b v).writes = s.writes := rfl

/-! ### `Hub.setReg` -/

@[simp] theorem Hub.setReg_hi (a v : Nat) : (s.setReg a v).hi = s.hi := rfl
@[simp] theorem Hub.setReg_stage (a v : Nat) : (s.setReg a v).stage = s.stage := rfl
@[simp] theorem Hub.setReg_bus (a v : Nat) : (s.setReg a v).bus = s.bus := rfl
@[simp] theorem Hub.setReg_owners (a v : Nat) : (s.setReg a v).owners = s.owners := rfl
@[simp] theorem Hub.setReg_softReset (a v : Nat) : (s.setReg a v).softReset = s.softReset := rfl
@[simp] theorem Hub.setReg_pins (a v : Nat) : (s.setReg a v).pins = s.pins := rfl
@[simp] theorem Hub.setReg_time (a v : Nat) : (s.setReg a v).time = s.time := rfl
@[simp] theorem Hub.setReg_doms (a v : Nat) : (s.setReg a v).doms = s.doms := rfl
@[simp] theorem Hub.setReg_glbLeft (a v : Nat) : (s.setReg a v).glbLeft = s.glbLeft := rfl
@[simp] theorem Hub.setReg_corks (a v : Nat) : (s.setReg a v).corks = s.corks := rfl
@[simp] theorem Hub.setReg_nextOp (a v : Nat) : (s.setReg a v).nextOp = s.nextOp := rfl
@[simp] theorem Hub.setReg_corkShown (a v : Nat) : (s.setReg a v).corkShown = s.corkShown := rfl
@[simp] theorem Hub.setReg_waveCrc (a v : Nat) : (s.setReg a v).waveCrc = s.waveCrc := rfl
@[simp] theorem Hub.setReg_tiles (a v : Nat) : (s.setReg a v).tiles = s.tiles := rfl
@[simp] theorem Hub.setReg_power (a v : Nat) : (s.setReg a v).power = s.power := rfl
@[simp] theorem Hub.setReg_harv (a v : Nat) : (s.setReg a v).harv = s.harv := rfl
@[simp] theorem Hub.setReg_canes (a v : Nat) : (s.setReg a v).canes = s.canes := rfl
@[simp] theorem Hub.setReg_lanes (a v : Nat) : (s.setReg a v).lanes = s.lanes := rfl
@[simp] theorem Hub.setReg_cell (a v : Nat) : (s.setReg a v).cell = s.cell := rfl
@[simp] theorem Hub.setReg_rack (a v : Nat) : (s.setReg a v).rack = s.rack := rfl
@[simp] theorem Hub.setReg_trace (a v : Nat) : (s.setReg a v).trace = s.trace := rfl
@[simp] theorem Hub.setReg_taste (a v : Nat) : (s.setReg a v).taste = s.taste := rfl
@[simp] theorem Hub.setReg_digTiles (a v : Nat) : (s.setReg a v).digTiles = s.digTiles := rfl
@[simp] theorem Hub.setReg_digExt (a v : Nat) : (s.setReg a v).digExt = s.digExt := rfl
@[simp] theorem Hub.setReg_numw (a v : Nat) : (s.setReg a v).numw = s.numw := rfl
@[simp] theorem Hub.setReg_hang (a v : Nat) : (s.setReg a v).hang = s.hang := rfl
@[simp] theorem Hub.setReg_hangCtl (a v : Nat) : (s.setReg a v).hangCtl = s.hangCtl := rfl
@[simp] theorem Hub.setReg_ladder (a v : Nat) : (s.setReg a v).ladder = s.ladder := rfl
@[simp] theorem Hub.setReg_fed (a v : Nat) : (s.setReg a v).fed = s.fed := rfl
@[simp] theorem Hub.setReg_link (a v : Nat) : (s.setReg a v).link = s.link := rfl
@[simp] theorem Hub.setReg_boot (a v : Nat) : (s.setReg a v).boot = s.boot := rfl
@[simp] theorem Hub.setReg_auth (a v : Nat) : (s.setReg a v).auth = s.auth := rfl
@[simp] theorem Hub.setReg_bist (a v : Nat) : (s.setReg a v).bist = s.bist := rfl
@[simp] theorem Hub.setReg_rel (a v : Nat) : (s.setReg a v).rel = s.rel := rfl
@[simp] theorem Hub.setReg_coops (a v : Nat) : (s.setReg a v).coops = s.coops := rfl
@[simp] theorem Hub.setReg_freeCount (a v : Nat) : (s.setReg a v).freeCount = s.freeCount := rfl
@[simp] theorem Hub.setReg_digAgain (a v : Nat) : (s.setReg a v).digAgain = s.digAgain := rfl
@[simp] theorem Hub.setReg_numwHeld (a v : Nat) : (s.setReg a v).numwHeld = s.numwHeld := rfl
@[simp] theorem Hub.setReg_store (a v : Nat) : (s.setReg a v).store = s.store := rfl
@[simp] theorem Hub.setReg_occs (a v : Nat) : (s.setReg a v).occs = s.occs := rfl
@[simp] theorem Hub.setReg_writes (a v : Nat) : (s.setReg a v).writes = s.writes := rfl

/-! ### `Hub.wrB` -/

@[simp] theorem Hub.wrB_hi (f : Fld) (b v : Nat) : (s.wrB f b v).hi = s.hi := rfl
@[simp] theorem Hub.wrB_stage (f : Fld) (b v : Nat) : (s.wrB f b v).stage = s.stage := rfl
@[simp] theorem Hub.wrB_bus (f : Fld) (b v : Nat) : (s.wrB f b v).bus = s.bus := rfl
@[simp] theorem Hub.wrB_owners (f : Fld) (b v : Nat) : (s.wrB f b v).owners = s.owners := rfl
@[simp] theorem Hub.wrB_softReset (f : Fld) (b v : Nat) : (s.wrB f b v).softReset = s.softReset := rfl
@[simp] theorem Hub.wrB_pins (f : Fld) (b v : Nat) : (s.wrB f b v).pins = s.pins := rfl
@[simp] theorem Hub.wrB_time (f : Fld) (b v : Nat) : (s.wrB f b v).time = s.time := rfl
@[simp] theorem Hub.wrB_doms (f : Fld) (b v : Nat) : (s.wrB f b v).doms = s.doms := rfl
@[simp] theorem Hub.wrB_glbLeft (f : Fld) (b v : Nat) : (s.wrB f b v).glbLeft = s.glbLeft := rfl
@[simp] theorem Hub.wrB_corks (f : Fld) (b v : Nat) : (s.wrB f b v).corks = s.corks := rfl
@[simp] theorem Hub.wrB_nextOp (f : Fld) (b v : Nat) : (s.wrB f b v).nextOp = s.nextOp := rfl
@[simp] theorem Hub.wrB_corkShown (f : Fld) (b v : Nat) : (s.wrB f b v).corkShown = s.corkShown := rfl
@[simp] theorem Hub.wrB_waveCrc (f : Fld) (b v : Nat) : (s.wrB f b v).waveCrc = s.waveCrc := rfl
@[simp] theorem Hub.wrB_tiles (f : Fld) (b v : Nat) : (s.wrB f b v).tiles = s.tiles := rfl
@[simp] theorem Hub.wrB_power (f : Fld) (b v : Nat) : (s.wrB f b v).power = s.power := rfl
@[simp] theorem Hub.wrB_harv (f : Fld) (b v : Nat) : (s.wrB f b v).harv = s.harv := rfl
@[simp] theorem Hub.wrB_canes (f : Fld) (b v : Nat) : (s.wrB f b v).canes = s.canes := rfl
@[simp] theorem Hub.wrB_lanes (f : Fld) (b v : Nat) : (s.wrB f b v).lanes = s.lanes := rfl
@[simp] theorem Hub.wrB_cell (f : Fld) (b v : Nat) : (s.wrB f b v).cell = s.cell := rfl
@[simp] theorem Hub.wrB_rack (f : Fld) (b v : Nat) : (s.wrB f b v).rack = s.rack := rfl
@[simp] theorem Hub.wrB_trace (f : Fld) (b v : Nat) : (s.wrB f b v).trace = s.trace := rfl
@[simp] theorem Hub.wrB_taste (f : Fld) (b v : Nat) : (s.wrB f b v).taste = s.taste := rfl
@[simp] theorem Hub.wrB_digTiles (f : Fld) (b v : Nat) : (s.wrB f b v).digTiles = s.digTiles := rfl
@[simp] theorem Hub.wrB_digExt (f : Fld) (b v : Nat) : (s.wrB f b v).digExt = s.digExt := rfl
@[simp] theorem Hub.wrB_numw (f : Fld) (b v : Nat) : (s.wrB f b v).numw = s.numw := rfl
@[simp] theorem Hub.wrB_hang (f : Fld) (b v : Nat) : (s.wrB f b v).hang = s.hang := rfl
@[simp] theorem Hub.wrB_hangCtl (f : Fld) (b v : Nat) : (s.wrB f b v).hangCtl = s.hangCtl := rfl
@[simp] theorem Hub.wrB_ladder (f : Fld) (b v : Nat) : (s.wrB f b v).ladder = s.ladder := rfl
@[simp] theorem Hub.wrB_fed (f : Fld) (b v : Nat) : (s.wrB f b v).fed = s.fed := rfl
@[simp] theorem Hub.wrB_link (f : Fld) (b v : Nat) : (s.wrB f b v).link = s.link := rfl
@[simp] theorem Hub.wrB_boot (f : Fld) (b v : Nat) : (s.wrB f b v).boot = s.boot := rfl
@[simp] theorem Hub.wrB_auth (f : Fld) (b v : Nat) : (s.wrB f b v).auth = s.auth := rfl
@[simp] theorem Hub.wrB_bist (f : Fld) (b v : Nat) : (s.wrB f b v).bist = s.bist := rfl
@[simp] theorem Hub.wrB_rel (f : Fld) (b v : Nat) : (s.wrB f b v).rel = s.rel := rfl
@[simp] theorem Hub.wrB_coops (f : Fld) (b v : Nat) : (s.wrB f b v).coops = s.coops := rfl
@[simp] theorem Hub.wrB_freeCount (f : Fld) (b v : Nat) : (s.wrB f b v).freeCount = s.freeCount := rfl
@[simp] theorem Hub.wrB_digAgain (f : Fld) (b v : Nat) : (s.wrB f b v).digAgain = s.digAgain := rfl
@[simp] theorem Hub.wrB_numwHeld (f : Fld) (b v : Nat) : (s.wrB f b v).numwHeld = s.numwHeld := rfl
@[simp] theorem Hub.wrB_store (f : Fld) (b v : Nat) : (s.wrB f b v).store = s.store := rfl
@[simp] theorem Hub.wrB_occs (f : Fld) (b v : Nat) : (s.wrB f b v).occs = s.occs := rfl
@[simp] theorem Hub.wrB_writes (f : Fld) (b v : Nat) : (s.wrB f b v).writes = s.writes := rfl

/-! ### `Hub.wr` -/

@[simp] theorem Hub.wr_hi (f : Fld) (v : Nat) : (s.wr f v).hi = s.hi := rfl
@[simp] theorem Hub.wr_stage (f : Fld) (v : Nat) : (s.wr f v).stage = s.stage := rfl
@[simp] theorem Hub.wr_bus (f : Fld) (v : Nat) : (s.wr f v).bus = s.bus := rfl
@[simp] theorem Hub.wr_owners (f : Fld) (v : Nat) : (s.wr f v).owners = s.owners := rfl
@[simp] theorem Hub.wr_softReset (f : Fld) (v : Nat) : (s.wr f v).softReset = s.softReset := rfl
@[simp] theorem Hub.wr_pins (f : Fld) (v : Nat) : (s.wr f v).pins = s.pins := rfl
@[simp] theorem Hub.wr_time (f : Fld) (v : Nat) : (s.wr f v).time = s.time := rfl
@[simp] theorem Hub.wr_doms (f : Fld) (v : Nat) : (s.wr f v).doms = s.doms := rfl
@[simp] theorem Hub.wr_glbLeft (f : Fld) (v : Nat) : (s.wr f v).glbLeft = s.glbLeft := rfl
@[simp] theorem Hub.wr_corks (f : Fld) (v : Nat) : (s.wr f v).corks = s.corks := rfl
@[simp] theorem Hub.wr_nextOp (f : Fld) (v : Nat) : (s.wr f v).nextOp = s.nextOp := rfl
@[simp] theorem Hub.wr_corkShown (f : Fld) (v : Nat) : (s.wr f v).corkShown = s.corkShown := rfl
@[simp] theorem Hub.wr_waveCrc (f : Fld) (v : Nat) : (s.wr f v).waveCrc = s.waveCrc := rfl
@[simp] theorem Hub.wr_tiles (f : Fld) (v : Nat) : (s.wr f v).tiles = s.tiles := rfl
@[simp] theorem Hub.wr_power (f : Fld) (v : Nat) : (s.wr f v).power = s.power := rfl
@[simp] theorem Hub.wr_harv (f : Fld) (v : Nat) : (s.wr f v).harv = s.harv := rfl
@[simp] theorem Hub.wr_canes (f : Fld) (v : Nat) : (s.wr f v).canes = s.canes := rfl
@[simp] theorem Hub.wr_lanes (f : Fld) (v : Nat) : (s.wr f v).lanes = s.lanes := rfl
@[simp] theorem Hub.wr_cell (f : Fld) (v : Nat) : (s.wr f v).cell = s.cell := rfl
@[simp] theorem Hub.wr_rack (f : Fld) (v : Nat) : (s.wr f v).rack = s.rack := rfl
@[simp] theorem Hub.wr_trace (f : Fld) (v : Nat) : (s.wr f v).trace = s.trace := rfl
@[simp] theorem Hub.wr_taste (f : Fld) (v : Nat) : (s.wr f v).taste = s.taste := rfl
@[simp] theorem Hub.wr_digTiles (f : Fld) (v : Nat) : (s.wr f v).digTiles = s.digTiles := rfl
@[simp] theorem Hub.wr_digExt (f : Fld) (v : Nat) : (s.wr f v).digExt = s.digExt := rfl
@[simp] theorem Hub.wr_numw (f : Fld) (v : Nat) : (s.wr f v).numw = s.numw := rfl
@[simp] theorem Hub.wr_hang (f : Fld) (v : Nat) : (s.wr f v).hang = s.hang := rfl
@[simp] theorem Hub.wr_hangCtl (f : Fld) (v : Nat) : (s.wr f v).hangCtl = s.hangCtl := rfl
@[simp] theorem Hub.wr_ladder (f : Fld) (v : Nat) : (s.wr f v).ladder = s.ladder := rfl
@[simp] theorem Hub.wr_fed (f : Fld) (v : Nat) : (s.wr f v).fed = s.fed := rfl
@[simp] theorem Hub.wr_link (f : Fld) (v : Nat) : (s.wr f v).link = s.link := rfl
@[simp] theorem Hub.wr_boot (f : Fld) (v : Nat) : (s.wr f v).boot = s.boot := rfl
@[simp] theorem Hub.wr_auth (f : Fld) (v : Nat) : (s.wr f v).auth = s.auth := rfl
@[simp] theorem Hub.wr_bist (f : Fld) (v : Nat) : (s.wr f v).bist = s.bist := rfl
@[simp] theorem Hub.wr_rel (f : Fld) (v : Nat) : (s.wr f v).rel = s.rel := rfl
@[simp] theorem Hub.wr_coops (f : Fld) (v : Nat) : (s.wr f v).coops = s.coops := rfl
@[simp] theorem Hub.wr_freeCount (f : Fld) (v : Nat) : (s.wr f v).freeCount = s.freeCount := rfl
@[simp] theorem Hub.wr_digAgain (f : Fld) (v : Nat) : (s.wr f v).digAgain = s.digAgain := rfl
@[simp] theorem Hub.wr_numwHeld (f : Fld) (v : Nat) : (s.wr f v).numwHeld = s.numwHeld := rfl
@[simp] theorem Hub.wr_store (f : Fld) (v : Nat) : (s.wr f v).store = s.store := rfl
@[simp] theorem Hub.wr_occs (f : Fld) (v : Nat) : (s.wr f v).occs = s.occs := rfl
@[simp] theorem Hub.wr_writes (f : Fld) (v : Nat) : (s.wr f v).writes = s.writes := rfl

/-! ### `Hub.setReg64` -/

@[simp] theorem Hub.setReg64_hi (a v : Nat) : (s.setReg64 a v).hi = s.hi := rfl
@[simp] theorem Hub.setReg64_stage (a v : Nat) : (s.setReg64 a v).stage = s.stage := rfl
@[simp] theorem Hub.setReg64_bus (a v : Nat) : (s.setReg64 a v).bus = s.bus := rfl
@[simp] theorem Hub.setReg64_owners (a v : Nat) : (s.setReg64 a v).owners = s.owners := rfl
@[simp] theorem Hub.setReg64_softReset (a v : Nat) : (s.setReg64 a v).softReset = s.softReset := rfl
@[simp] theorem Hub.setReg64_pins (a v : Nat) : (s.setReg64 a v).pins = s.pins := rfl
@[simp] theorem Hub.setReg64_time (a v : Nat) : (s.setReg64 a v).time = s.time := rfl
@[simp] theorem Hub.setReg64_doms (a v : Nat) : (s.setReg64 a v).doms = s.doms := rfl
@[simp] theorem Hub.setReg64_glbLeft (a v : Nat) : (s.setReg64 a v).glbLeft = s.glbLeft := rfl
@[simp] theorem Hub.setReg64_corks (a v : Nat) : (s.setReg64 a v).corks = s.corks := rfl
@[simp] theorem Hub.setReg64_nextOp (a v : Nat) : (s.setReg64 a v).nextOp = s.nextOp := rfl
@[simp] theorem Hub.setReg64_corkShown (a v : Nat) : (s.setReg64 a v).corkShown = s.corkShown := rfl
@[simp] theorem Hub.setReg64_waveCrc (a v : Nat) : (s.setReg64 a v).waveCrc = s.waveCrc := rfl
@[simp] theorem Hub.setReg64_tiles (a v : Nat) : (s.setReg64 a v).tiles = s.tiles := rfl
@[simp] theorem Hub.setReg64_power (a v : Nat) : (s.setReg64 a v).power = s.power := rfl
@[simp] theorem Hub.setReg64_harv (a v : Nat) : (s.setReg64 a v).harv = s.harv := rfl
@[simp] theorem Hub.setReg64_canes (a v : Nat) : (s.setReg64 a v).canes = s.canes := rfl
@[simp] theorem Hub.setReg64_lanes (a v : Nat) : (s.setReg64 a v).lanes = s.lanes := rfl
@[simp] theorem Hub.setReg64_cell (a v : Nat) : (s.setReg64 a v).cell = s.cell := rfl
@[simp] theorem Hub.setReg64_rack (a v : Nat) : (s.setReg64 a v).rack = s.rack := rfl
@[simp] theorem Hub.setReg64_trace (a v : Nat) : (s.setReg64 a v).trace = s.trace := rfl
@[simp] theorem Hub.setReg64_taste (a v : Nat) : (s.setReg64 a v).taste = s.taste := rfl
@[simp] theorem Hub.setReg64_digTiles (a v : Nat) : (s.setReg64 a v).digTiles = s.digTiles := rfl
@[simp] theorem Hub.setReg64_digExt (a v : Nat) : (s.setReg64 a v).digExt = s.digExt := rfl
@[simp] theorem Hub.setReg64_numw (a v : Nat) : (s.setReg64 a v).numw = s.numw := rfl
@[simp] theorem Hub.setReg64_hang (a v : Nat) : (s.setReg64 a v).hang = s.hang := rfl
@[simp] theorem Hub.setReg64_hangCtl (a v : Nat) : (s.setReg64 a v).hangCtl = s.hangCtl := rfl
@[simp] theorem Hub.setReg64_ladder (a v : Nat) : (s.setReg64 a v).ladder = s.ladder := rfl
@[simp] theorem Hub.setReg64_fed (a v : Nat) : (s.setReg64 a v).fed = s.fed := rfl
@[simp] theorem Hub.setReg64_link (a v : Nat) : (s.setReg64 a v).link = s.link := rfl
@[simp] theorem Hub.setReg64_boot (a v : Nat) : (s.setReg64 a v).boot = s.boot := rfl
@[simp] theorem Hub.setReg64_auth (a v : Nat) : (s.setReg64 a v).auth = s.auth := rfl
@[simp] theorem Hub.setReg64_bist (a v : Nat) : (s.setReg64 a v).bist = s.bist := rfl
@[simp] theorem Hub.setReg64_rel (a v : Nat) : (s.setReg64 a v).rel = s.rel := rfl
@[simp] theorem Hub.setReg64_coops (a v : Nat) : (s.setReg64 a v).coops = s.coops := rfl
@[simp] theorem Hub.setReg64_freeCount (a v : Nat) : (s.setReg64 a v).freeCount = s.freeCount := rfl
@[simp] theorem Hub.setReg64_digAgain (a v : Nat) : (s.setReg64 a v).digAgain = s.digAgain := rfl
@[simp] theorem Hub.setReg64_numwHeld (a v : Nat) : (s.setReg64 a v).numwHeld = s.numwHeld := rfl
@[simp] theorem Hub.setReg64_store (a v : Nat) : (s.setReg64 a v).store = s.store := rfl
@[simp] theorem Hub.setReg64_occs (a v : Nat) : (s.setReg64 a v).occs = s.occs := rfl
@[simp] theorem Hub.setReg64_writes (a v : Nat) : (s.setReg64 a v).writes = s.writes := rfl

/-! ### `Hub.setReg64B` -/

@[simp] theorem Hub.setReg64B_hi (a b v : Nat) : (s.setReg64B a b v).hi = s.hi := rfl
@[simp] theorem Hub.setReg64B_stage (a b v : Nat) : (s.setReg64B a b v).stage = s.stage := rfl
@[simp] theorem Hub.setReg64B_bus (a b v : Nat) : (s.setReg64B a b v).bus = s.bus := rfl
@[simp] theorem Hub.setReg64B_owners (a b v : Nat) : (s.setReg64B a b v).owners = s.owners := rfl
@[simp] theorem Hub.setReg64B_softReset (a b v : Nat) : (s.setReg64B a b v).softReset = s.softReset := rfl
@[simp] theorem Hub.setReg64B_pins (a b v : Nat) : (s.setReg64B a b v).pins = s.pins := rfl
@[simp] theorem Hub.setReg64B_time (a b v : Nat) : (s.setReg64B a b v).time = s.time := rfl
@[simp] theorem Hub.setReg64B_doms (a b v : Nat) : (s.setReg64B a b v).doms = s.doms := rfl
@[simp] theorem Hub.setReg64B_glbLeft (a b v : Nat) : (s.setReg64B a b v).glbLeft = s.glbLeft := rfl
@[simp] theorem Hub.setReg64B_corks (a b v : Nat) : (s.setReg64B a b v).corks = s.corks := rfl
@[simp] theorem Hub.setReg64B_nextOp (a b v : Nat) : (s.setReg64B a b v).nextOp = s.nextOp := rfl
@[simp] theorem Hub.setReg64B_corkShown (a b v : Nat) : (s.setReg64B a b v).corkShown = s.corkShown := rfl
@[simp] theorem Hub.setReg64B_waveCrc (a b v : Nat) : (s.setReg64B a b v).waveCrc = s.waveCrc := rfl
@[simp] theorem Hub.setReg64B_tiles (a b v : Nat) : (s.setReg64B a b v).tiles = s.tiles := rfl
@[simp] theorem Hub.setReg64B_power (a b v : Nat) : (s.setReg64B a b v).power = s.power := rfl
@[simp] theorem Hub.setReg64B_harv (a b v : Nat) : (s.setReg64B a b v).harv = s.harv := rfl
@[simp] theorem Hub.setReg64B_canes (a b v : Nat) : (s.setReg64B a b v).canes = s.canes := rfl
@[simp] theorem Hub.setReg64B_lanes (a b v : Nat) : (s.setReg64B a b v).lanes = s.lanes := rfl
@[simp] theorem Hub.setReg64B_cell (a b v : Nat) : (s.setReg64B a b v).cell = s.cell := rfl
@[simp] theorem Hub.setReg64B_rack (a b v : Nat) : (s.setReg64B a b v).rack = s.rack := rfl
@[simp] theorem Hub.setReg64B_trace (a b v : Nat) : (s.setReg64B a b v).trace = s.trace := rfl
@[simp] theorem Hub.setReg64B_taste (a b v : Nat) : (s.setReg64B a b v).taste = s.taste := rfl
@[simp] theorem Hub.setReg64B_digTiles (a b v : Nat) : (s.setReg64B a b v).digTiles = s.digTiles := rfl
@[simp] theorem Hub.setReg64B_digExt (a b v : Nat) : (s.setReg64B a b v).digExt = s.digExt := rfl
@[simp] theorem Hub.setReg64B_numw (a b v : Nat) : (s.setReg64B a b v).numw = s.numw := rfl
@[simp] theorem Hub.setReg64B_hang (a b v : Nat) : (s.setReg64B a b v).hang = s.hang := rfl
@[simp] theorem Hub.setReg64B_hangCtl (a b v : Nat) : (s.setReg64B a b v).hangCtl = s.hangCtl := rfl
@[simp] theorem Hub.setReg64B_ladder (a b v : Nat) : (s.setReg64B a b v).ladder = s.ladder := rfl
@[simp] theorem Hub.setReg64B_fed (a b v : Nat) : (s.setReg64B a b v).fed = s.fed := rfl
@[simp] theorem Hub.setReg64B_link (a b v : Nat) : (s.setReg64B a b v).link = s.link := rfl
@[simp] theorem Hub.setReg64B_boot (a b v : Nat) : (s.setReg64B a b v).boot = s.boot := rfl
@[simp] theorem Hub.setReg64B_auth (a b v : Nat) : (s.setReg64B a b v).auth = s.auth := rfl
@[simp] theorem Hub.setReg64B_bist (a b v : Nat) : (s.setReg64B a b v).bist = s.bist := rfl
@[simp] theorem Hub.setReg64B_rel (a b v : Nat) : (s.setReg64B a b v).rel = s.rel := rfl
@[simp] theorem Hub.setReg64B_coops (a b v : Nat) : (s.setReg64B a b v).coops = s.coops := rfl
@[simp] theorem Hub.setReg64B_freeCount (a b v : Nat) : (s.setReg64B a b v).freeCount = s.freeCount := rfl
@[simp] theorem Hub.setReg64B_digAgain (a b v : Nat) : (s.setReg64B a b v).digAgain = s.digAgain := rfl
@[simp] theorem Hub.setReg64B_numwHeld (a b v : Nat) : (s.setReg64B a b v).numwHeld = s.numwHeld := rfl
@[simp] theorem Hub.setReg64B_store (a b v : Nat) : (s.setReg64B a b v).store = s.store := rfl
@[simp] theorem Hub.setReg64B_occs (a b v : Nat) : (s.setReg64B a b v).occs = s.occs := rfl
@[simp] theorem Hub.setReg64B_writes (a b v : Nat) : (s.setReg64B a b v).writes = s.writes := rfl

/-! ### `Hub.bump` -/

@[simp] theorem Hub.bump_hi (f : Fld) (n : Nat) : (s.bump f n).hi = s.hi := rfl
@[simp] theorem Hub.bump_stage (f : Fld) (n : Nat) : (s.bump f n).stage = s.stage := rfl
@[simp] theorem Hub.bump_bus (f : Fld) (n : Nat) : (s.bump f n).bus = s.bus := rfl
@[simp] theorem Hub.bump_owners (f : Fld) (n : Nat) : (s.bump f n).owners = s.owners := rfl
@[simp] theorem Hub.bump_softReset (f : Fld) (n : Nat) : (s.bump f n).softReset = s.softReset := rfl
@[simp] theorem Hub.bump_pins (f : Fld) (n : Nat) : (s.bump f n).pins = s.pins := rfl
@[simp] theorem Hub.bump_time (f : Fld) (n : Nat) : (s.bump f n).time = s.time := rfl
@[simp] theorem Hub.bump_doms (f : Fld) (n : Nat) : (s.bump f n).doms = s.doms := rfl
@[simp] theorem Hub.bump_glbLeft (f : Fld) (n : Nat) : (s.bump f n).glbLeft = s.glbLeft := rfl
@[simp] theorem Hub.bump_corks (f : Fld) (n : Nat) : (s.bump f n).corks = s.corks := rfl
@[simp] theorem Hub.bump_nextOp (f : Fld) (n : Nat) : (s.bump f n).nextOp = s.nextOp := rfl
@[simp] theorem Hub.bump_corkShown (f : Fld) (n : Nat) : (s.bump f n).corkShown = s.corkShown := rfl
@[simp] theorem Hub.bump_waveCrc (f : Fld) (n : Nat) : (s.bump f n).waveCrc = s.waveCrc := rfl
@[simp] theorem Hub.bump_tiles (f : Fld) (n : Nat) : (s.bump f n).tiles = s.tiles := rfl
@[simp] theorem Hub.bump_power (f : Fld) (n : Nat) : (s.bump f n).power = s.power := rfl
@[simp] theorem Hub.bump_harv (f : Fld) (n : Nat) : (s.bump f n).harv = s.harv := rfl
@[simp] theorem Hub.bump_canes (f : Fld) (n : Nat) : (s.bump f n).canes = s.canes := rfl
@[simp] theorem Hub.bump_lanes (f : Fld) (n : Nat) : (s.bump f n).lanes = s.lanes := rfl
@[simp] theorem Hub.bump_cell (f : Fld) (n : Nat) : (s.bump f n).cell = s.cell := rfl
@[simp] theorem Hub.bump_rack (f : Fld) (n : Nat) : (s.bump f n).rack = s.rack := rfl
@[simp] theorem Hub.bump_trace (f : Fld) (n : Nat) : (s.bump f n).trace = s.trace := rfl
@[simp] theorem Hub.bump_taste (f : Fld) (n : Nat) : (s.bump f n).taste = s.taste := rfl
@[simp] theorem Hub.bump_digTiles (f : Fld) (n : Nat) : (s.bump f n).digTiles = s.digTiles := rfl
@[simp] theorem Hub.bump_digExt (f : Fld) (n : Nat) : (s.bump f n).digExt = s.digExt := rfl
@[simp] theorem Hub.bump_numw (f : Fld) (n : Nat) : (s.bump f n).numw = s.numw := rfl
@[simp] theorem Hub.bump_hang (f : Fld) (n : Nat) : (s.bump f n).hang = s.hang := rfl
@[simp] theorem Hub.bump_hangCtl (f : Fld) (n : Nat) : (s.bump f n).hangCtl = s.hangCtl := rfl
@[simp] theorem Hub.bump_ladder (f : Fld) (n : Nat) : (s.bump f n).ladder = s.ladder := rfl
@[simp] theorem Hub.bump_fed (f : Fld) (n : Nat) : (s.bump f n).fed = s.fed := rfl
@[simp] theorem Hub.bump_link (f : Fld) (n : Nat) : (s.bump f n).link = s.link := rfl
@[simp] theorem Hub.bump_boot (f : Fld) (n : Nat) : (s.bump f n).boot = s.boot := rfl
@[simp] theorem Hub.bump_auth (f : Fld) (n : Nat) : (s.bump f n).auth = s.auth := rfl
@[simp] theorem Hub.bump_bist (f : Fld) (n : Nat) : (s.bump f n).bist = s.bist := rfl
@[simp] theorem Hub.bump_rel (f : Fld) (n : Nat) : (s.bump f n).rel = s.rel := rfl
@[simp] theorem Hub.bump_coops (f : Fld) (n : Nat) : (s.bump f n).coops = s.coops := rfl
@[simp] theorem Hub.bump_freeCount (f : Fld) (n : Nat) : (s.bump f n).freeCount = s.freeCount := rfl
@[simp] theorem Hub.bump_digAgain (f : Fld) (n : Nat) : (s.bump f n).digAgain = s.digAgain := rfl
@[simp] theorem Hub.bump_numwHeld (f : Fld) (n : Nat) : (s.bump f n).numwHeld = s.numwHeld := rfl
@[simp] theorem Hub.bump_store (f : Fld) (n : Nat) : (s.bump f n).store = s.store := rfl
@[simp] theorem Hub.bump_occs (f : Fld) (n : Nat) : (s.bump f n).occs = s.occs := rfl
@[simp] theorem Hub.bump_writes (f : Fld) (n : Nat) : (s.bump f n).writes = s.writes := rfl

/-! ### `Hub.bump64` -/

@[simp] theorem Hub.bump64_hi (a n : Nat) : (s.bump64 a n).hi = s.hi := rfl
@[simp] theorem Hub.bump64_stage (a n : Nat) : (s.bump64 a n).stage = s.stage := rfl
@[simp] theorem Hub.bump64_bus (a n : Nat) : (s.bump64 a n).bus = s.bus := rfl
@[simp] theorem Hub.bump64_owners (a n : Nat) : (s.bump64 a n).owners = s.owners := rfl
@[simp] theorem Hub.bump64_softReset (a n : Nat) : (s.bump64 a n).softReset = s.softReset := rfl
@[simp] theorem Hub.bump64_pins (a n : Nat) : (s.bump64 a n).pins = s.pins := rfl
@[simp] theorem Hub.bump64_time (a n : Nat) : (s.bump64 a n).time = s.time := rfl
@[simp] theorem Hub.bump64_doms (a n : Nat) : (s.bump64 a n).doms = s.doms := rfl
@[simp] theorem Hub.bump64_glbLeft (a n : Nat) : (s.bump64 a n).glbLeft = s.glbLeft := rfl
@[simp] theorem Hub.bump64_corks (a n : Nat) : (s.bump64 a n).corks = s.corks := rfl
@[simp] theorem Hub.bump64_nextOp (a n : Nat) : (s.bump64 a n).nextOp = s.nextOp := rfl
@[simp] theorem Hub.bump64_corkShown (a n : Nat) : (s.bump64 a n).corkShown = s.corkShown := rfl
@[simp] theorem Hub.bump64_waveCrc (a n : Nat) : (s.bump64 a n).waveCrc = s.waveCrc := rfl
@[simp] theorem Hub.bump64_tiles (a n : Nat) : (s.bump64 a n).tiles = s.tiles := rfl
@[simp] theorem Hub.bump64_power (a n : Nat) : (s.bump64 a n).power = s.power := rfl
@[simp] theorem Hub.bump64_harv (a n : Nat) : (s.bump64 a n).harv = s.harv := rfl
@[simp] theorem Hub.bump64_canes (a n : Nat) : (s.bump64 a n).canes = s.canes := rfl
@[simp] theorem Hub.bump64_lanes (a n : Nat) : (s.bump64 a n).lanes = s.lanes := rfl
@[simp] theorem Hub.bump64_cell (a n : Nat) : (s.bump64 a n).cell = s.cell := rfl
@[simp] theorem Hub.bump64_rack (a n : Nat) : (s.bump64 a n).rack = s.rack := rfl
@[simp] theorem Hub.bump64_trace (a n : Nat) : (s.bump64 a n).trace = s.trace := rfl
@[simp] theorem Hub.bump64_taste (a n : Nat) : (s.bump64 a n).taste = s.taste := rfl
@[simp] theorem Hub.bump64_digTiles (a n : Nat) : (s.bump64 a n).digTiles = s.digTiles := rfl
@[simp] theorem Hub.bump64_digExt (a n : Nat) : (s.bump64 a n).digExt = s.digExt := rfl
@[simp] theorem Hub.bump64_numw (a n : Nat) : (s.bump64 a n).numw = s.numw := rfl
@[simp] theorem Hub.bump64_hang (a n : Nat) : (s.bump64 a n).hang = s.hang := rfl
@[simp] theorem Hub.bump64_hangCtl (a n : Nat) : (s.bump64 a n).hangCtl = s.hangCtl := rfl
@[simp] theorem Hub.bump64_ladder (a n : Nat) : (s.bump64 a n).ladder = s.ladder := rfl
@[simp] theorem Hub.bump64_fed (a n : Nat) : (s.bump64 a n).fed = s.fed := rfl
@[simp] theorem Hub.bump64_link (a n : Nat) : (s.bump64 a n).link = s.link := rfl
@[simp] theorem Hub.bump64_boot (a n : Nat) : (s.bump64 a n).boot = s.boot := rfl
@[simp] theorem Hub.bump64_auth (a n : Nat) : (s.bump64 a n).auth = s.auth := rfl
@[simp] theorem Hub.bump64_bist (a n : Nat) : (s.bump64 a n).bist = s.bist := rfl
@[simp] theorem Hub.bump64_rel (a n : Nat) : (s.bump64 a n).rel = s.rel := rfl
@[simp] theorem Hub.bump64_coops (a n : Nat) : (s.bump64 a n).coops = s.coops := rfl
@[simp] theorem Hub.bump64_freeCount (a n : Nat) : (s.bump64 a n).freeCount = s.freeCount := rfl
@[simp] theorem Hub.bump64_digAgain (a n : Nat) : (s.bump64 a n).digAgain = s.digAgain := rfl
@[simp] theorem Hub.bump64_numwHeld (a n : Nat) : (s.bump64 a n).numwHeld = s.numwHeld := rfl
@[simp] theorem Hub.bump64_store (a n : Nat) : (s.bump64 a n).store = s.store := rfl
@[simp] theorem Hub.bump64_occs (a n : Nat) : (s.bump64 a n).occs = s.occs := rfl
@[simp] theorem Hub.bump64_writes (a n : Nat) : (s.bump64 a n).writes = s.writes := rfl

/-! ### `Hub.err` -/

@[simp] theorem Hub.err_hi (e : ErrBit) : (s.err e).hi = s.hi := rfl
@[simp] theorem Hub.err_stage (e : ErrBit) : (s.err e).stage = s.stage := rfl
@[simp] theorem Hub.err_bus (e : ErrBit) : (s.err e).bus = s.bus := rfl
@[simp] theorem Hub.err_owners (e : ErrBit) : (s.err e).owners = s.owners := rfl
@[simp] theorem Hub.err_softReset (e : ErrBit) : (s.err e).softReset = s.softReset := rfl
@[simp] theorem Hub.err_pins (e : ErrBit) : (s.err e).pins = s.pins := rfl
@[simp] theorem Hub.err_time (e : ErrBit) : (s.err e).time = s.time := rfl
@[simp] theorem Hub.err_doms (e : ErrBit) : (s.err e).doms = s.doms := rfl
@[simp] theorem Hub.err_glbLeft (e : ErrBit) : (s.err e).glbLeft = s.glbLeft := rfl
@[simp] theorem Hub.err_corks (e : ErrBit) : (s.err e).corks = s.corks := rfl
@[simp] theorem Hub.err_nextOp (e : ErrBit) : (s.err e).nextOp = s.nextOp := rfl
@[simp] theorem Hub.err_corkShown (e : ErrBit) : (s.err e).corkShown = s.corkShown := rfl
@[simp] theorem Hub.err_waveCrc (e : ErrBit) : (s.err e).waveCrc = s.waveCrc := rfl
@[simp] theorem Hub.err_tiles (e : ErrBit) : (s.err e).tiles = s.tiles := rfl
@[simp] theorem Hub.err_power (e : ErrBit) : (s.err e).power = s.power := rfl
@[simp] theorem Hub.err_harv (e : ErrBit) : (s.err e).harv = s.harv := rfl
@[simp] theorem Hub.err_canes (e : ErrBit) : (s.err e).canes = s.canes := rfl
@[simp] theorem Hub.err_lanes (e : ErrBit) : (s.err e).lanes = s.lanes := rfl
@[simp] theorem Hub.err_cell (e : ErrBit) : (s.err e).cell = s.cell := rfl
@[simp] theorem Hub.err_rack (e : ErrBit) : (s.err e).rack = s.rack := rfl
@[simp] theorem Hub.err_trace (e : ErrBit) : (s.err e).trace = s.trace := rfl
@[simp] theorem Hub.err_taste (e : ErrBit) : (s.err e).taste = s.taste := rfl
@[simp] theorem Hub.err_digTiles (e : ErrBit) : (s.err e).digTiles = s.digTiles := rfl
@[simp] theorem Hub.err_digExt (e : ErrBit) : (s.err e).digExt = s.digExt := rfl
@[simp] theorem Hub.err_numw (e : ErrBit) : (s.err e).numw = s.numw := rfl
@[simp] theorem Hub.err_hang (e : ErrBit) : (s.err e).hang = s.hang := rfl
@[simp] theorem Hub.err_hangCtl (e : ErrBit) : (s.err e).hangCtl = s.hangCtl := rfl
@[simp] theorem Hub.err_ladder (e : ErrBit) : (s.err e).ladder = s.ladder := rfl
@[simp] theorem Hub.err_fed (e : ErrBit) : (s.err e).fed = s.fed := rfl
@[simp] theorem Hub.err_link (e : ErrBit) : (s.err e).link = s.link := rfl
@[simp] theorem Hub.err_boot (e : ErrBit) : (s.err e).boot = s.boot := rfl
@[simp] theorem Hub.err_auth (e : ErrBit) : (s.err e).auth = s.auth := rfl
@[simp] theorem Hub.err_bist (e : ErrBit) : (s.err e).bist = s.bist := rfl
@[simp] theorem Hub.err_rel (e : ErrBit) : (s.err e).rel = s.rel := rfl
@[simp] theorem Hub.err_coops (e : ErrBit) : (s.err e).coops = s.coops := rfl
@[simp] theorem Hub.err_freeCount (e : ErrBit) : (s.err e).freeCount = s.freeCount := rfl
@[simp] theorem Hub.err_digAgain (e : ErrBit) : (s.err e).digAgain = s.digAgain := rfl
@[simp] theorem Hub.err_numwHeld (e : ErrBit) : (s.err e).numwHeld = s.numwHeld := rfl
@[simp] theorem Hub.err_store (e : ErrBit) : (s.err e).store = s.store := rfl
@[simp] theorem Hub.err_occs (e : ErrBit) : (s.err e).occs = s.occs := rfl
@[simp] theorem Hub.err_writes (e : ErrBit) : (s.err e).writes = s.writes := rfl

/-! ### `Hub.errAt` -/

@[simp] theorem Hub.errAt_hi (r : Req) (a : Nat) : (s.errAt r a).hi = s.hi := rfl
@[simp] theorem Hub.errAt_stage (r : Req) (a : Nat) : (s.errAt r a).stage = s.stage := rfl
@[simp] theorem Hub.errAt_bus (r : Req) (a : Nat) : (s.errAt r a).bus = s.bus := rfl
@[simp] theorem Hub.errAt_owners (r : Req) (a : Nat) : (s.errAt r a).owners = s.owners := rfl
@[simp] theorem Hub.errAt_softReset (r : Req) (a : Nat) : (s.errAt r a).softReset = s.softReset := rfl
@[simp] theorem Hub.errAt_pins (r : Req) (a : Nat) : (s.errAt r a).pins = s.pins := rfl
@[simp] theorem Hub.errAt_time (r : Req) (a : Nat) : (s.errAt r a).time = s.time := rfl
@[simp] theorem Hub.errAt_doms (r : Req) (a : Nat) : (s.errAt r a).doms = s.doms := rfl
@[simp] theorem Hub.errAt_glbLeft (r : Req) (a : Nat) : (s.errAt r a).glbLeft = s.glbLeft := rfl
@[simp] theorem Hub.errAt_corks (r : Req) (a : Nat) : (s.errAt r a).corks = s.corks := rfl
@[simp] theorem Hub.errAt_nextOp (r : Req) (a : Nat) : (s.errAt r a).nextOp = s.nextOp := rfl
@[simp] theorem Hub.errAt_corkShown (r : Req) (a : Nat) : (s.errAt r a).corkShown = s.corkShown := rfl
@[simp] theorem Hub.errAt_waveCrc (r : Req) (a : Nat) : (s.errAt r a).waveCrc = s.waveCrc := rfl
@[simp] theorem Hub.errAt_tiles (r : Req) (a : Nat) : (s.errAt r a).tiles = s.tiles := rfl
@[simp] theorem Hub.errAt_power (r : Req) (a : Nat) : (s.errAt r a).power = s.power := rfl
@[simp] theorem Hub.errAt_harv (r : Req) (a : Nat) : (s.errAt r a).harv = s.harv := rfl
@[simp] theorem Hub.errAt_canes (r : Req) (a : Nat) : (s.errAt r a).canes = s.canes := rfl
@[simp] theorem Hub.errAt_lanes (r : Req) (a : Nat) : (s.errAt r a).lanes = s.lanes := rfl
@[simp] theorem Hub.errAt_cell (r : Req) (a : Nat) : (s.errAt r a).cell = s.cell := rfl
@[simp] theorem Hub.errAt_rack (r : Req) (a : Nat) : (s.errAt r a).rack = s.rack := rfl
@[simp] theorem Hub.errAt_trace (r : Req) (a : Nat) : (s.errAt r a).trace = s.trace := rfl
@[simp] theorem Hub.errAt_taste (r : Req) (a : Nat) : (s.errAt r a).taste = s.taste := rfl
@[simp] theorem Hub.errAt_digTiles (r : Req) (a : Nat) : (s.errAt r a).digTiles = s.digTiles := rfl
@[simp] theorem Hub.errAt_digExt (r : Req) (a : Nat) : (s.errAt r a).digExt = s.digExt := rfl
@[simp] theorem Hub.errAt_numw (r : Req) (a : Nat) : (s.errAt r a).numw = s.numw := rfl
@[simp] theorem Hub.errAt_hang (r : Req) (a : Nat) : (s.errAt r a).hang = s.hang := rfl
@[simp] theorem Hub.errAt_hangCtl (r : Req) (a : Nat) : (s.errAt r a).hangCtl = s.hangCtl := rfl
@[simp] theorem Hub.errAt_ladder (r : Req) (a : Nat) : (s.errAt r a).ladder = s.ladder := rfl
@[simp] theorem Hub.errAt_fed (r : Req) (a : Nat) : (s.errAt r a).fed = s.fed := rfl
@[simp] theorem Hub.errAt_link (r : Req) (a : Nat) : (s.errAt r a).link = s.link := rfl
@[simp] theorem Hub.errAt_boot (r : Req) (a : Nat) : (s.errAt r a).boot = s.boot := rfl
@[simp] theorem Hub.errAt_auth (r : Req) (a : Nat) : (s.errAt r a).auth = s.auth := rfl
@[simp] theorem Hub.errAt_bist (r : Req) (a : Nat) : (s.errAt r a).bist = s.bist := rfl
@[simp] theorem Hub.errAt_rel (r : Req) (a : Nat) : (s.errAt r a).rel = s.rel := rfl
@[simp] theorem Hub.errAt_coops (r : Req) (a : Nat) : (s.errAt r a).coops = s.coops := rfl
@[simp] theorem Hub.errAt_freeCount (r : Req) (a : Nat) : (s.errAt r a).freeCount = s.freeCount := rfl
@[simp] theorem Hub.errAt_digAgain (r : Req) (a : Nat) : (s.errAt r a).digAgain = s.digAgain := rfl
@[simp] theorem Hub.errAt_numwHeld (r : Req) (a : Nat) : (s.errAt r a).numwHeld = s.numwHeld := rfl
@[simp] theorem Hub.errAt_store (r : Req) (a : Nat) : (s.errAt r a).store = s.store := rfl
@[simp] theorem Hub.errAt_occs (r : Req) (a : Nat) : (s.errAt r a).occs = s.occs := rfl
@[simp] theorem Hub.errAt_writes (r : Req) (a : Nat) : (s.errAt r a).writes = s.writes := rfl

/-! ### `Hub.raise` -/

@[simp] theorem Hub.raise_regs (c : Nat) (u : Option Nat) : (s.raise c u).regs = s.regs := rfl
@[simp] theorem Hub.raise_hi (c : Nat) (u : Option Nat) : (s.raise c u).hi = s.hi := rfl
@[simp] theorem Hub.raise_stage (c : Nat) (u : Option Nat) : (s.raise c u).stage = s.stage := rfl
@[simp] theorem Hub.raise_bus (c : Nat) (u : Option Nat) : (s.raise c u).bus = s.bus := rfl
@[simp] theorem Hub.raise_owners (c : Nat) (u : Option Nat) : (s.raise c u).owners = s.owners := rfl
@[simp] theorem Hub.raise_softReset (c : Nat) (u : Option Nat) : (s.raise c u).softReset = s.softReset := rfl
@[simp] theorem Hub.raise_pins (c : Nat) (u : Option Nat) : (s.raise c u).pins = s.pins := rfl
@[simp] theorem Hub.raise_time (c : Nat) (u : Option Nat) : (s.raise c u).time = s.time := rfl
@[simp] theorem Hub.raise_doms (c : Nat) (u : Option Nat) : (s.raise c u).doms = s.doms := rfl
@[simp] theorem Hub.raise_glbLeft (c : Nat) (u : Option Nat) : (s.raise c u).glbLeft = s.glbLeft := rfl
@[simp] theorem Hub.raise_corks (c : Nat) (u : Option Nat) : (s.raise c u).corks = s.corks := rfl
@[simp] theorem Hub.raise_nextOp (c : Nat) (u : Option Nat) : (s.raise c u).nextOp = s.nextOp := rfl
@[simp] theorem Hub.raise_corkShown (c : Nat) (u : Option Nat) : (s.raise c u).corkShown = s.corkShown := rfl
@[simp] theorem Hub.raise_waveCrc (c : Nat) (u : Option Nat) : (s.raise c u).waveCrc = s.waveCrc := rfl
@[simp] theorem Hub.raise_tiles (c : Nat) (u : Option Nat) : (s.raise c u).tiles = s.tiles := rfl
@[simp] theorem Hub.raise_power (c : Nat) (u : Option Nat) : (s.raise c u).power = s.power := rfl
@[simp] theorem Hub.raise_harv (c : Nat) (u : Option Nat) : (s.raise c u).harv = s.harv := rfl
@[simp] theorem Hub.raise_canes (c : Nat) (u : Option Nat) : (s.raise c u).canes = s.canes := rfl
@[simp] theorem Hub.raise_lanes (c : Nat) (u : Option Nat) : (s.raise c u).lanes = s.lanes := rfl
@[simp] theorem Hub.raise_cell (c : Nat) (u : Option Nat) : (s.raise c u).cell = s.cell := rfl
@[simp] theorem Hub.raise_rack (c : Nat) (u : Option Nat) : (s.raise c u).rack = s.rack := rfl
@[simp] theorem Hub.raise_trace (c : Nat) (u : Option Nat) : (s.raise c u).trace = s.trace := rfl
@[simp] theorem Hub.raise_taste (c : Nat) (u : Option Nat) : (s.raise c u).taste = s.taste := rfl
@[simp] theorem Hub.raise_digTiles (c : Nat) (u : Option Nat) : (s.raise c u).digTiles = s.digTiles := rfl
@[simp] theorem Hub.raise_digExt (c : Nat) (u : Option Nat) : (s.raise c u).digExt = s.digExt := rfl
@[simp] theorem Hub.raise_numw (c : Nat) (u : Option Nat) : (s.raise c u).numw = s.numw := rfl
@[simp] theorem Hub.raise_hang (c : Nat) (u : Option Nat) : (s.raise c u).hang = s.hang := rfl
@[simp] theorem Hub.raise_hangCtl (c : Nat) (u : Option Nat) : (s.raise c u).hangCtl = s.hangCtl := rfl
@[simp] theorem Hub.raise_ladder (c : Nat) (u : Option Nat) : (s.raise c u).ladder = s.ladder := rfl
@[simp] theorem Hub.raise_fed (c : Nat) (u : Option Nat) : (s.raise c u).fed = s.fed := rfl
@[simp] theorem Hub.raise_link (c : Nat) (u : Option Nat) : (s.raise c u).link = s.link := rfl
@[simp] theorem Hub.raise_boot (c : Nat) (u : Option Nat) : (s.raise c u).boot = s.boot := rfl
@[simp] theorem Hub.raise_auth (c : Nat) (u : Option Nat) : (s.raise c u).auth = s.auth := rfl
@[simp] theorem Hub.raise_bist (c : Nat) (u : Option Nat) : (s.raise c u).bist = s.bist := rfl
@[simp] theorem Hub.raise_rel (c : Nat) (u : Option Nat) : (s.raise c u).rel = s.rel := rfl
@[simp] theorem Hub.raise_coops (c : Nat) (u : Option Nat) : (s.raise c u).coops = s.coops := rfl
@[simp] theorem Hub.raise_freeCount (c : Nat) (u : Option Nat) : (s.raise c u).freeCount = s.freeCount := rfl
@[simp] theorem Hub.raise_digAgain (c : Nat) (u : Option Nat) : (s.raise c u).digAgain = s.digAgain := rfl
@[simp] theorem Hub.raise_numwHeld (c : Nat) (u : Option Nat) : (s.raise c u).numwHeld = s.numwHeld := rfl
@[simp] theorem Hub.raise_store (c : Nat) (u : Option Nat) : (s.raise c u).store = s.store := rfl
@[simp] theorem Hub.raise_writes (c : Nat) (u : Option Nat) : (s.raise c u).writes = s.writes := rfl

/-! ### `Hub.raiseOf` -/

@[simp] theorem Hub.raiseOf_regs (c u : Nat) : (s.raiseOf c u).regs = s.regs := rfl
@[simp] theorem Hub.raiseOf_hi (c u : Nat) : (s.raiseOf c u).hi = s.hi := rfl
@[simp] theorem Hub.raiseOf_stage (c u : Nat) : (s.raiseOf c u).stage = s.stage := rfl
@[simp] theorem Hub.raiseOf_bus (c u : Nat) : (s.raiseOf c u).bus = s.bus := rfl
@[simp] theorem Hub.raiseOf_owners (c u : Nat) : (s.raiseOf c u).owners = s.owners := rfl
@[simp] theorem Hub.raiseOf_softReset (c u : Nat) : (s.raiseOf c u).softReset = s.softReset := rfl
@[simp] theorem Hub.raiseOf_pins (c u : Nat) : (s.raiseOf c u).pins = s.pins := rfl
@[simp] theorem Hub.raiseOf_time (c u : Nat) : (s.raiseOf c u).time = s.time := rfl
@[simp] theorem Hub.raiseOf_doms (c u : Nat) : (s.raiseOf c u).doms = s.doms := rfl
@[simp] theorem Hub.raiseOf_glbLeft (c u : Nat) : (s.raiseOf c u).glbLeft = s.glbLeft := rfl
@[simp] theorem Hub.raiseOf_corks (c u : Nat) : (s.raiseOf c u).corks = s.corks := rfl
@[simp] theorem Hub.raiseOf_nextOp (c u : Nat) : (s.raiseOf c u).nextOp = s.nextOp := rfl
@[simp] theorem Hub.raiseOf_corkShown (c u : Nat) : (s.raiseOf c u).corkShown = s.corkShown := rfl
@[simp] theorem Hub.raiseOf_waveCrc (c u : Nat) : (s.raiseOf c u).waveCrc = s.waveCrc := rfl
@[simp] theorem Hub.raiseOf_tiles (c u : Nat) : (s.raiseOf c u).tiles = s.tiles := rfl
@[simp] theorem Hub.raiseOf_power (c u : Nat) : (s.raiseOf c u).power = s.power := rfl
@[simp] theorem Hub.raiseOf_harv (c u : Nat) : (s.raiseOf c u).harv = s.harv := rfl
@[simp] theorem Hub.raiseOf_canes (c u : Nat) : (s.raiseOf c u).canes = s.canes := rfl
@[simp] theorem Hub.raiseOf_lanes (c u : Nat) : (s.raiseOf c u).lanes = s.lanes := rfl
@[simp] theorem Hub.raiseOf_cell (c u : Nat) : (s.raiseOf c u).cell = s.cell := rfl
@[simp] theorem Hub.raiseOf_rack (c u : Nat) : (s.raiseOf c u).rack = s.rack := rfl
@[simp] theorem Hub.raiseOf_trace (c u : Nat) : (s.raiseOf c u).trace = s.trace := rfl
@[simp] theorem Hub.raiseOf_taste (c u : Nat) : (s.raiseOf c u).taste = s.taste := rfl
@[simp] theorem Hub.raiseOf_digTiles (c u : Nat) : (s.raiseOf c u).digTiles = s.digTiles := rfl
@[simp] theorem Hub.raiseOf_digExt (c u : Nat) : (s.raiseOf c u).digExt = s.digExt := rfl
@[simp] theorem Hub.raiseOf_numw (c u : Nat) : (s.raiseOf c u).numw = s.numw := rfl
@[simp] theorem Hub.raiseOf_hang (c u : Nat) : (s.raiseOf c u).hang = s.hang := rfl
@[simp] theorem Hub.raiseOf_hangCtl (c u : Nat) : (s.raiseOf c u).hangCtl = s.hangCtl := rfl
@[simp] theorem Hub.raiseOf_ladder (c u : Nat) : (s.raiseOf c u).ladder = s.ladder := rfl
@[simp] theorem Hub.raiseOf_fed (c u : Nat) : (s.raiseOf c u).fed = s.fed := rfl
@[simp] theorem Hub.raiseOf_link (c u : Nat) : (s.raiseOf c u).link = s.link := rfl
@[simp] theorem Hub.raiseOf_boot (c u : Nat) : (s.raiseOf c u).boot = s.boot := rfl
@[simp] theorem Hub.raiseOf_auth (c u : Nat) : (s.raiseOf c u).auth = s.auth := rfl
@[simp] theorem Hub.raiseOf_bist (c u : Nat) : (s.raiseOf c u).bist = s.bist := rfl
@[simp] theorem Hub.raiseOf_rel (c u : Nat) : (s.raiseOf c u).rel = s.rel := rfl
@[simp] theorem Hub.raiseOf_coops (c u : Nat) : (s.raiseOf c u).coops = s.coops := rfl
@[simp] theorem Hub.raiseOf_freeCount (c u : Nat) : (s.raiseOf c u).freeCount = s.freeCount := rfl
@[simp] theorem Hub.raiseOf_digAgain (c u : Nat) : (s.raiseOf c u).digAgain = s.digAgain := rfl
@[simp] theorem Hub.raiseOf_numwHeld (c u : Nat) : (s.raiseOf c u).numwHeld = s.numwHeld := rfl
@[simp] theorem Hub.raiseOf_store (c u : Nat) : (s.raiseOf c u).store = s.store := rfl
@[simp] theorem Hub.raiseOf_writes (c u : Nat) : (s.raiseOf c u).writes = s.writes := rfl

/-! ### `Hub.respond` -/

@[simp] theorem Hub.respond_regs (r : Req) (v st : Nat) : (s.respond r v st).regs = s.regs := rfl
@[simp] theorem Hub.respond_hi (r : Req) (v st : Nat) : (s.respond r v st).hi = s.hi := rfl
@[simp] theorem Hub.respond_stage (r : Req) (v st : Nat) : (s.respond r v st).stage = s.stage := rfl
@[simp] theorem Hub.respond_owners (r : Req) (v st : Nat) : (s.respond r v st).owners = s.owners := rfl
@[simp] theorem Hub.respond_softReset (r : Req) (v st : Nat) : (s.respond r v st).softReset = s.softReset := rfl
@[simp] theorem Hub.respond_pins (r : Req) (v st : Nat) : (s.respond r v st).pins = s.pins := rfl
@[simp] theorem Hub.respond_time (r : Req) (v st : Nat) : (s.respond r v st).time = s.time := rfl
@[simp] theorem Hub.respond_doms (r : Req) (v st : Nat) : (s.respond r v st).doms = s.doms := rfl
@[simp] theorem Hub.respond_glbLeft (r : Req) (v st : Nat) : (s.respond r v st).glbLeft = s.glbLeft := rfl
@[simp] theorem Hub.respond_corks (r : Req) (v st : Nat) : (s.respond r v st).corks = s.corks := rfl
@[simp] theorem Hub.respond_nextOp (r : Req) (v st : Nat) : (s.respond r v st).nextOp = s.nextOp := rfl
@[simp] theorem Hub.respond_corkShown (r : Req) (v st : Nat) : (s.respond r v st).corkShown = s.corkShown := rfl
@[simp] theorem Hub.respond_waveCrc (r : Req) (v st : Nat) : (s.respond r v st).waveCrc = s.waveCrc := rfl
@[simp] theorem Hub.respond_tiles (r : Req) (v st : Nat) : (s.respond r v st).tiles = s.tiles := rfl
@[simp] theorem Hub.respond_power (r : Req) (v st : Nat) : (s.respond r v st).power = s.power := rfl
@[simp] theorem Hub.respond_harv (r : Req) (v st : Nat) : (s.respond r v st).harv = s.harv := rfl
@[simp] theorem Hub.respond_canes (r : Req) (v st : Nat) : (s.respond r v st).canes = s.canes := rfl
@[simp] theorem Hub.respond_lanes (r : Req) (v st : Nat) : (s.respond r v st).lanes = s.lanes := rfl
@[simp] theorem Hub.respond_cell (r : Req) (v st : Nat) : (s.respond r v st).cell = s.cell := rfl
@[simp] theorem Hub.respond_rack (r : Req) (v st : Nat) : (s.respond r v st).rack = s.rack := rfl
@[simp] theorem Hub.respond_trace (r : Req) (v st : Nat) : (s.respond r v st).trace = s.trace := rfl
@[simp] theorem Hub.respond_taste (r : Req) (v st : Nat) : (s.respond r v st).taste = s.taste := rfl
@[simp] theorem Hub.respond_digTiles (r : Req) (v st : Nat) : (s.respond r v st).digTiles = s.digTiles := rfl
@[simp] theorem Hub.respond_digExt (r : Req) (v st : Nat) : (s.respond r v st).digExt = s.digExt := rfl
@[simp] theorem Hub.respond_numw (r : Req) (v st : Nat) : (s.respond r v st).numw = s.numw := rfl
@[simp] theorem Hub.respond_hang (r : Req) (v st : Nat) : (s.respond r v st).hang = s.hang := rfl
@[simp] theorem Hub.respond_hangCtl (r : Req) (v st : Nat) : (s.respond r v st).hangCtl = s.hangCtl := rfl
@[simp] theorem Hub.respond_ladder (r : Req) (v st : Nat) : (s.respond r v st).ladder = s.ladder := rfl
@[simp] theorem Hub.respond_fed (r : Req) (v st : Nat) : (s.respond r v st).fed = s.fed := rfl
@[simp] theorem Hub.respond_link (r : Req) (v st : Nat) : (s.respond r v st).link = s.link := rfl
@[simp] theorem Hub.respond_boot (r : Req) (v st : Nat) : (s.respond r v st).boot = s.boot := rfl
@[simp] theorem Hub.respond_auth (r : Req) (v st : Nat) : (s.respond r v st).auth = s.auth := rfl
@[simp] theorem Hub.respond_bist (r : Req) (v st : Nat) : (s.respond r v st).bist = s.bist := rfl
@[simp] theorem Hub.respond_rel (r : Req) (v st : Nat) : (s.respond r v st).rel = s.rel := rfl
@[simp] theorem Hub.respond_coops (r : Req) (v st : Nat) : (s.respond r v st).coops = s.coops := rfl
@[simp] theorem Hub.respond_freeCount (r : Req) (v st : Nat) : (s.respond r v st).freeCount = s.freeCount := rfl
@[simp] theorem Hub.respond_digAgain (r : Req) (v st : Nat) : (s.respond r v st).digAgain = s.digAgain := rfl
@[simp] theorem Hub.respond_numwHeld (r : Req) (v st : Nat) : (s.respond r v st).numwHeld = s.numwHeld := rfl
@[simp] theorem Hub.respond_store (r : Req) (v st : Nat) : (s.respond r v st).store = s.store := rfl
@[simp] theorem Hub.respond_occs (r : Req) (v st : Nat) : (s.respond r v st).occs = s.occs := rfl
@[simp] theorem Hub.respond_writes (r : Req) (v st : Nat) : (s.respond r v st).writes = s.writes := rfl

/-! ### `Hub.setDom` -/

@[simp] theorem Hub.setDom_regs (i : Nat) (d : Domain) : (s.setDom i d).regs = s.regs := rfl
@[simp] theorem Hub.setDom_hi (i : Nat) (d : Domain) : (s.setDom i d).hi = s.hi := rfl
@[simp] theorem Hub.setDom_stage (i : Nat) (d : Domain) : (s.setDom i d).stage = s.stage := rfl
@[simp] theorem Hub.setDom_bus (i : Nat) (d : Domain) : (s.setDom i d).bus = s.bus := rfl
@[simp] theorem Hub.setDom_owners (i : Nat) (d : Domain) : (s.setDom i d).owners = s.owners := rfl
@[simp] theorem Hub.setDom_softReset (i : Nat) (d : Domain) : (s.setDom i d).softReset = s.softReset := rfl
@[simp] theorem Hub.setDom_pins (i : Nat) (d : Domain) : (s.setDom i d).pins = s.pins := rfl
@[simp] theorem Hub.setDom_time (i : Nat) (d : Domain) : (s.setDom i d).time = s.time := rfl
@[simp] theorem Hub.setDom_glbLeft (i : Nat) (d : Domain) : (s.setDom i d).glbLeft = s.glbLeft := rfl
@[simp] theorem Hub.setDom_corks (i : Nat) (d : Domain) : (s.setDom i d).corks = s.corks := rfl
@[simp] theorem Hub.setDom_nextOp (i : Nat) (d : Domain) : (s.setDom i d).nextOp = s.nextOp := rfl
@[simp] theorem Hub.setDom_corkShown (i : Nat) (d : Domain) : (s.setDom i d).corkShown = s.corkShown := rfl
@[simp] theorem Hub.setDom_waveCrc (i : Nat) (d : Domain) : (s.setDom i d).waveCrc = s.waveCrc := rfl
@[simp] theorem Hub.setDom_tiles (i : Nat) (d : Domain) : (s.setDom i d).tiles = s.tiles := rfl
@[simp] theorem Hub.setDom_power (i : Nat) (d : Domain) : (s.setDom i d).power = s.power := rfl
@[simp] theorem Hub.setDom_harv (i : Nat) (d : Domain) : (s.setDom i d).harv = s.harv := rfl
@[simp] theorem Hub.setDom_canes (i : Nat) (d : Domain) : (s.setDom i d).canes = s.canes := rfl
@[simp] theorem Hub.setDom_lanes (i : Nat) (d : Domain) : (s.setDom i d).lanes = s.lanes := rfl
@[simp] theorem Hub.setDom_cell (i : Nat) (d : Domain) : (s.setDom i d).cell = s.cell := rfl
@[simp] theorem Hub.setDom_rack (i : Nat) (d : Domain) : (s.setDom i d).rack = s.rack := rfl
@[simp] theorem Hub.setDom_trace (i : Nat) (d : Domain) : (s.setDom i d).trace = s.trace := rfl
@[simp] theorem Hub.setDom_taste (i : Nat) (d : Domain) : (s.setDom i d).taste = s.taste := rfl
@[simp] theorem Hub.setDom_digTiles (i : Nat) (d : Domain) : (s.setDom i d).digTiles = s.digTiles := rfl
@[simp] theorem Hub.setDom_digExt (i : Nat) (d : Domain) : (s.setDom i d).digExt = s.digExt := rfl
@[simp] theorem Hub.setDom_numw (i : Nat) (d : Domain) : (s.setDom i d).numw = s.numw := rfl
@[simp] theorem Hub.setDom_hang (i : Nat) (d : Domain) : (s.setDom i d).hang = s.hang := rfl
@[simp] theorem Hub.setDom_hangCtl (i : Nat) (d : Domain) : (s.setDom i d).hangCtl = s.hangCtl := rfl
@[simp] theorem Hub.setDom_ladder (i : Nat) (d : Domain) : (s.setDom i d).ladder = s.ladder := rfl
@[simp] theorem Hub.setDom_fed (i : Nat) (d : Domain) : (s.setDom i d).fed = s.fed := rfl
@[simp] theorem Hub.setDom_link (i : Nat) (d : Domain) : (s.setDom i d).link = s.link := rfl
@[simp] theorem Hub.setDom_boot (i : Nat) (d : Domain) : (s.setDom i d).boot = s.boot := rfl
@[simp] theorem Hub.setDom_auth (i : Nat) (d : Domain) : (s.setDom i d).auth = s.auth := rfl
@[simp] theorem Hub.setDom_bist (i : Nat) (d : Domain) : (s.setDom i d).bist = s.bist := rfl
@[simp] theorem Hub.setDom_rel (i : Nat) (d : Domain) : (s.setDom i d).rel = s.rel := rfl
@[simp] theorem Hub.setDom_coops (i : Nat) (d : Domain) : (s.setDom i d).coops = s.coops := rfl
@[simp] theorem Hub.setDom_freeCount (i : Nat) (d : Domain) : (s.setDom i d).freeCount = s.freeCount := rfl
@[simp] theorem Hub.setDom_digAgain (i : Nat) (d : Domain) : (s.setDom i d).digAgain = s.digAgain := rfl
@[simp] theorem Hub.setDom_numwHeld (i : Nat) (d : Domain) : (s.setDom i d).numwHeld = s.numwHeld := rfl
@[simp] theorem Hub.setDom_store (i : Nat) (d : Domain) : (s.setDom i d).store = s.store := rfl
@[simp] theorem Hub.setDom_occs (i : Nat) (d : Domain) : (s.setDom i d).occs = s.occs := rfl
@[simp] theorem Hub.setDom_writes (i : Nat) (d : Domain) : (s.setDom i d).writes = s.writes := rfl

/-! ### `Hub.setTile` -/

@[simp] theorem Hub.setTile_regs (t : Nat) (x : Tile) : (s.setTile t x).regs = s.regs := rfl
@[simp] theorem Hub.setTile_hi (t : Nat) (x : Tile) : (s.setTile t x).hi = s.hi := rfl
@[simp] theorem Hub.setTile_stage (t : Nat) (x : Tile) : (s.setTile t x).stage = s.stage := rfl
@[simp] theorem Hub.setTile_bus (t : Nat) (x : Tile) : (s.setTile t x).bus = s.bus := rfl
@[simp] theorem Hub.setTile_owners (t : Nat) (x : Tile) : (s.setTile t x).owners = s.owners := rfl
@[simp] theorem Hub.setTile_softReset (t : Nat) (x : Tile) : (s.setTile t x).softReset = s.softReset := rfl
@[simp] theorem Hub.setTile_pins (t : Nat) (x : Tile) : (s.setTile t x).pins = s.pins := rfl
@[simp] theorem Hub.setTile_time (t : Nat) (x : Tile) : (s.setTile t x).time = s.time := rfl
@[simp] theorem Hub.setTile_doms (t : Nat) (x : Tile) : (s.setTile t x).doms = s.doms := rfl
@[simp] theorem Hub.setTile_glbLeft (t : Nat) (x : Tile) : (s.setTile t x).glbLeft = s.glbLeft := rfl
@[simp] theorem Hub.setTile_corks (t : Nat) (x : Tile) : (s.setTile t x).corks = s.corks := rfl
@[simp] theorem Hub.setTile_nextOp (t : Nat) (x : Tile) : (s.setTile t x).nextOp = s.nextOp := rfl
@[simp] theorem Hub.setTile_corkShown (t : Nat) (x : Tile) : (s.setTile t x).corkShown = s.corkShown := rfl
@[simp] theorem Hub.setTile_waveCrc (t : Nat) (x : Tile) : (s.setTile t x).waveCrc = s.waveCrc := rfl
@[simp] theorem Hub.setTile_power (t : Nat) (x : Tile) : (s.setTile t x).power = s.power := rfl
@[simp] theorem Hub.setTile_harv (t : Nat) (x : Tile) : (s.setTile t x).harv = s.harv := rfl
@[simp] theorem Hub.setTile_canes (t : Nat) (x : Tile) : (s.setTile t x).canes = s.canes := rfl
@[simp] theorem Hub.setTile_lanes (t : Nat) (x : Tile) : (s.setTile t x).lanes = s.lanes := rfl
@[simp] theorem Hub.setTile_cell (t : Nat) (x : Tile) : (s.setTile t x).cell = s.cell := rfl
@[simp] theorem Hub.setTile_rack (t : Nat) (x : Tile) : (s.setTile t x).rack = s.rack := rfl
@[simp] theorem Hub.setTile_trace (t : Nat) (x : Tile) : (s.setTile t x).trace = s.trace := rfl
@[simp] theorem Hub.setTile_taste (t : Nat) (x : Tile) : (s.setTile t x).taste = s.taste := rfl
@[simp] theorem Hub.setTile_digTiles (t : Nat) (x : Tile) : (s.setTile t x).digTiles = s.digTiles := rfl
@[simp] theorem Hub.setTile_digExt (t : Nat) (x : Tile) : (s.setTile t x).digExt = s.digExt := rfl
@[simp] theorem Hub.setTile_numw (t : Nat) (x : Tile) : (s.setTile t x).numw = s.numw := rfl
@[simp] theorem Hub.setTile_hang (t : Nat) (x : Tile) : (s.setTile t x).hang = s.hang := rfl
@[simp] theorem Hub.setTile_hangCtl (t : Nat) (x : Tile) : (s.setTile t x).hangCtl = s.hangCtl := rfl
@[simp] theorem Hub.setTile_ladder (t : Nat) (x : Tile) : (s.setTile t x).ladder = s.ladder := rfl
@[simp] theorem Hub.setTile_fed (t : Nat) (x : Tile) : (s.setTile t x).fed = s.fed := rfl
@[simp] theorem Hub.setTile_link (t : Nat) (x : Tile) : (s.setTile t x).link = s.link := rfl
@[simp] theorem Hub.setTile_boot (t : Nat) (x : Tile) : (s.setTile t x).boot = s.boot := rfl
@[simp] theorem Hub.setTile_auth (t : Nat) (x : Tile) : (s.setTile t x).auth = s.auth := rfl
@[simp] theorem Hub.setTile_bist (t : Nat) (x : Tile) : (s.setTile t x).bist = s.bist := rfl
@[simp] theorem Hub.setTile_rel (t : Nat) (x : Tile) : (s.setTile t x).rel = s.rel := rfl
@[simp] theorem Hub.setTile_coops (t : Nat) (x : Tile) : (s.setTile t x).coops = s.coops := rfl
@[simp] theorem Hub.setTile_freeCount (t : Nat) (x : Tile) : (s.setTile t x).freeCount = s.freeCount := rfl
@[simp] theorem Hub.setTile_digAgain (t : Nat) (x : Tile) : (s.setTile t x).digAgain = s.digAgain := rfl
@[simp] theorem Hub.setTile_numwHeld (t : Nat) (x : Tile) : (s.setTile t x).numwHeld = s.numwHeld := rfl
@[simp] theorem Hub.setTile_store (t : Nat) (x : Tile) : (s.setTile t x).store = s.store := rfl
@[simp] theorem Hub.setTile_occs (t : Nat) (x : Tile) : (s.setTile t x).occs = s.occs := rfl
@[simp] theorem Hub.setTile_writes (t : Nat) (x : Tile) : (s.setTile t x).writes = s.writes := rfl

/-! ### `Hub.setCane` -/

@[simp] theorem Hub.setCane_regs (c : Nat) (x : CaneSt) : (s.setCane c x).regs = s.regs := rfl
@[simp] theorem Hub.setCane_hi (c : Nat) (x : CaneSt) : (s.setCane c x).hi = s.hi := rfl
@[simp] theorem Hub.setCane_stage (c : Nat) (x : CaneSt) : (s.setCane c x).stage = s.stage := rfl
@[simp] theorem Hub.setCane_bus (c : Nat) (x : CaneSt) : (s.setCane c x).bus = s.bus := rfl
@[simp] theorem Hub.setCane_owners (c : Nat) (x : CaneSt) : (s.setCane c x).owners = s.owners := rfl
@[simp] theorem Hub.setCane_softReset (c : Nat) (x : CaneSt) : (s.setCane c x).softReset = s.softReset := rfl
@[simp] theorem Hub.setCane_pins (c : Nat) (x : CaneSt) : (s.setCane c x).pins = s.pins := rfl
@[simp] theorem Hub.setCane_time (c : Nat) (x : CaneSt) : (s.setCane c x).time = s.time := rfl
@[simp] theorem Hub.setCane_doms (c : Nat) (x : CaneSt) : (s.setCane c x).doms = s.doms := rfl
@[simp] theorem Hub.setCane_glbLeft (c : Nat) (x : CaneSt) : (s.setCane c x).glbLeft = s.glbLeft := rfl
@[simp] theorem Hub.setCane_corks (c : Nat) (x : CaneSt) : (s.setCane c x).corks = s.corks := rfl
@[simp] theorem Hub.setCane_nextOp (c : Nat) (x : CaneSt) : (s.setCane c x).nextOp = s.nextOp := rfl
@[simp] theorem Hub.setCane_corkShown (c : Nat) (x : CaneSt) : (s.setCane c x).corkShown = s.corkShown := rfl
@[simp] theorem Hub.setCane_waveCrc (c : Nat) (x : CaneSt) : (s.setCane c x).waveCrc = s.waveCrc := rfl
@[simp] theorem Hub.setCane_tiles (c : Nat) (x : CaneSt) : (s.setCane c x).tiles = s.tiles := rfl
@[simp] theorem Hub.setCane_power (c : Nat) (x : CaneSt) : (s.setCane c x).power = s.power := rfl
@[simp] theorem Hub.setCane_harv (c : Nat) (x : CaneSt) : (s.setCane c x).harv = s.harv := rfl
@[simp] theorem Hub.setCane_lanes (c : Nat) (x : CaneSt) : (s.setCane c x).lanes = s.lanes := rfl
@[simp] theorem Hub.setCane_cell (c : Nat) (x : CaneSt) : (s.setCane c x).cell = s.cell := rfl
@[simp] theorem Hub.setCane_rack (c : Nat) (x : CaneSt) : (s.setCane c x).rack = s.rack := rfl
@[simp] theorem Hub.setCane_trace (c : Nat) (x : CaneSt) : (s.setCane c x).trace = s.trace := rfl
@[simp] theorem Hub.setCane_taste (c : Nat) (x : CaneSt) : (s.setCane c x).taste = s.taste := rfl
@[simp] theorem Hub.setCane_digTiles (c : Nat) (x : CaneSt) : (s.setCane c x).digTiles = s.digTiles := rfl
@[simp] theorem Hub.setCane_digExt (c : Nat) (x : CaneSt) : (s.setCane c x).digExt = s.digExt := rfl
@[simp] theorem Hub.setCane_numw (c : Nat) (x : CaneSt) : (s.setCane c x).numw = s.numw := rfl
@[simp] theorem Hub.setCane_hang (c : Nat) (x : CaneSt) : (s.setCane c x).hang = s.hang := rfl
@[simp] theorem Hub.setCane_hangCtl (c : Nat) (x : CaneSt) : (s.setCane c x).hangCtl = s.hangCtl := rfl
@[simp] theorem Hub.setCane_ladder (c : Nat) (x : CaneSt) : (s.setCane c x).ladder = s.ladder := rfl
@[simp] theorem Hub.setCane_fed (c : Nat) (x : CaneSt) : (s.setCane c x).fed = s.fed := rfl
@[simp] theorem Hub.setCane_link (c : Nat) (x : CaneSt) : (s.setCane c x).link = s.link := rfl
@[simp] theorem Hub.setCane_boot (c : Nat) (x : CaneSt) : (s.setCane c x).boot = s.boot := rfl
@[simp] theorem Hub.setCane_auth (c : Nat) (x : CaneSt) : (s.setCane c x).auth = s.auth := rfl
@[simp] theorem Hub.setCane_bist (c : Nat) (x : CaneSt) : (s.setCane c x).bist = s.bist := rfl
@[simp] theorem Hub.setCane_rel (c : Nat) (x : CaneSt) : (s.setCane c x).rel = s.rel := rfl
@[simp] theorem Hub.setCane_coops (c : Nat) (x : CaneSt) : (s.setCane c x).coops = s.coops := rfl
@[simp] theorem Hub.setCane_freeCount (c : Nat) (x : CaneSt) : (s.setCane c x).freeCount = s.freeCount := rfl
@[simp] theorem Hub.setCane_digAgain (c : Nat) (x : CaneSt) : (s.setCane c x).digAgain = s.digAgain := rfl
@[simp] theorem Hub.setCane_numwHeld (c : Nat) (x : CaneSt) : (s.setCane c x).numwHeld = s.numwHeld := rfl
@[simp] theorem Hub.setCane_store (c : Nat) (x : CaneSt) : (s.setCane c x).store = s.store := rfl
@[simp] theorem Hub.setCane_occs (c : Nat) (x : CaneSt) : (s.setCane c x).occs = s.occs := rfl
@[simp] theorem Hub.setCane_writes (c : Nat) (x : CaneSt) : (s.setCane c x).writes = s.writes := rfl

/-! ### `Hub.setLane` -/

@[simp] theorem Hub.setLane_regs (l : Nat) (x : LaneSt) : (s.setLane l x).regs = s.regs := rfl
@[simp] theorem Hub.setLane_hi (l : Nat) (x : LaneSt) : (s.setLane l x).hi = s.hi := rfl
@[simp] theorem Hub.setLane_stage (l : Nat) (x : LaneSt) : (s.setLane l x).stage = s.stage := rfl
@[simp] theorem Hub.setLane_bus (l : Nat) (x : LaneSt) : (s.setLane l x).bus = s.bus := rfl
@[simp] theorem Hub.setLane_owners (l : Nat) (x : LaneSt) : (s.setLane l x).owners = s.owners := rfl
@[simp] theorem Hub.setLane_softReset (l : Nat) (x : LaneSt) : (s.setLane l x).softReset = s.softReset := rfl
@[simp] theorem Hub.setLane_pins (l : Nat) (x : LaneSt) : (s.setLane l x).pins = s.pins := rfl
@[simp] theorem Hub.setLane_time (l : Nat) (x : LaneSt) : (s.setLane l x).time = s.time := rfl
@[simp] theorem Hub.setLane_doms (l : Nat) (x : LaneSt) : (s.setLane l x).doms = s.doms := rfl
@[simp] theorem Hub.setLane_glbLeft (l : Nat) (x : LaneSt) : (s.setLane l x).glbLeft = s.glbLeft := rfl
@[simp] theorem Hub.setLane_corks (l : Nat) (x : LaneSt) : (s.setLane l x).corks = s.corks := rfl
@[simp] theorem Hub.setLane_nextOp (l : Nat) (x : LaneSt) : (s.setLane l x).nextOp = s.nextOp := rfl
@[simp] theorem Hub.setLane_corkShown (l : Nat) (x : LaneSt) : (s.setLane l x).corkShown = s.corkShown := rfl
@[simp] theorem Hub.setLane_waveCrc (l : Nat) (x : LaneSt) : (s.setLane l x).waveCrc = s.waveCrc := rfl
@[simp] theorem Hub.setLane_tiles (l : Nat) (x : LaneSt) : (s.setLane l x).tiles = s.tiles := rfl
@[simp] theorem Hub.setLane_power (l : Nat) (x : LaneSt) : (s.setLane l x).power = s.power := rfl
@[simp] theorem Hub.setLane_harv (l : Nat) (x : LaneSt) : (s.setLane l x).harv = s.harv := rfl
@[simp] theorem Hub.setLane_canes (l : Nat) (x : LaneSt) : (s.setLane l x).canes = s.canes := rfl
@[simp] theorem Hub.setLane_cell (l : Nat) (x : LaneSt) : (s.setLane l x).cell = s.cell := rfl
@[simp] theorem Hub.setLane_rack (l : Nat) (x : LaneSt) : (s.setLane l x).rack = s.rack := rfl
@[simp] theorem Hub.setLane_trace (l : Nat) (x : LaneSt) : (s.setLane l x).trace = s.trace := rfl
@[simp] theorem Hub.setLane_taste (l : Nat) (x : LaneSt) : (s.setLane l x).taste = s.taste := rfl
@[simp] theorem Hub.setLane_digTiles (l : Nat) (x : LaneSt) : (s.setLane l x).digTiles = s.digTiles := rfl
@[simp] theorem Hub.setLane_digExt (l : Nat) (x : LaneSt) : (s.setLane l x).digExt = s.digExt := rfl
@[simp] theorem Hub.setLane_numw (l : Nat) (x : LaneSt) : (s.setLane l x).numw = s.numw := rfl
@[simp] theorem Hub.setLane_hang (l : Nat) (x : LaneSt) : (s.setLane l x).hang = s.hang := rfl
@[simp] theorem Hub.setLane_hangCtl (l : Nat) (x : LaneSt) : (s.setLane l x).hangCtl = s.hangCtl := rfl
@[simp] theorem Hub.setLane_ladder (l : Nat) (x : LaneSt) : (s.setLane l x).ladder = s.ladder := rfl
@[simp] theorem Hub.setLane_fed (l : Nat) (x : LaneSt) : (s.setLane l x).fed = s.fed := rfl
@[simp] theorem Hub.setLane_link (l : Nat) (x : LaneSt) : (s.setLane l x).link = s.link := rfl
@[simp] theorem Hub.setLane_boot (l : Nat) (x : LaneSt) : (s.setLane l x).boot = s.boot := rfl
@[simp] theorem Hub.setLane_auth (l : Nat) (x : LaneSt) : (s.setLane l x).auth = s.auth := rfl
@[simp] theorem Hub.setLane_bist (l : Nat) (x : LaneSt) : (s.setLane l x).bist = s.bist := rfl
@[simp] theorem Hub.setLane_rel (l : Nat) (x : LaneSt) : (s.setLane l x).rel = s.rel := rfl
@[simp] theorem Hub.setLane_coops (l : Nat) (x : LaneSt) : (s.setLane l x).coops = s.coops := rfl
@[simp] theorem Hub.setLane_freeCount (l : Nat) (x : LaneSt) : (s.setLane l x).freeCount = s.freeCount := rfl
@[simp] theorem Hub.setLane_digAgain (l : Nat) (x : LaneSt) : (s.setLane l x).digAgain = s.digAgain := rfl
@[simp] theorem Hub.setLane_numwHeld (l : Nat) (x : LaneSt) : (s.setLane l x).numwHeld = s.numwHeld := rfl
@[simp] theorem Hub.setLane_store (l : Nat) (x : LaneSt) : (s.setLane l x).store = s.store := rfl
@[simp] theorem Hub.setLane_occs (l : Nat) (x : LaneSt) : (s.setLane l x).occs = s.occs := rfl
@[simp] theorem Hub.setLane_writes (l : Nat) (x : LaneSt) : (s.setLane l x).writes = s.writes := rfl

/-! ### `Hub.setMon` -/

@[simp] theorem Hub.setMon_regs (i : Nat) (m : Monitor) : (s.setMon i m).regs = s.regs := rfl
@[simp] theorem Hub.setMon_hi (i : Nat) (m : Monitor) : (s.setMon i m).hi = s.hi := rfl
@[simp] theorem Hub.setMon_stage (i : Nat) (m : Monitor) : (s.setMon i m).stage = s.stage := rfl
@[simp] theorem Hub.setMon_bus (i : Nat) (m : Monitor) : (s.setMon i m).bus = s.bus := rfl
@[simp] theorem Hub.setMon_owners (i : Nat) (m : Monitor) : (s.setMon i m).owners = s.owners := rfl
@[simp] theorem Hub.setMon_softReset (i : Nat) (m : Monitor) : (s.setMon i m).softReset = s.softReset := rfl
@[simp] theorem Hub.setMon_pins (i : Nat) (m : Monitor) : (s.setMon i m).pins = s.pins := rfl
@[simp] theorem Hub.setMon_time (i : Nat) (m : Monitor) : (s.setMon i m).time = s.time := rfl
@[simp] theorem Hub.setMon_doms (i : Nat) (m : Monitor) : (s.setMon i m).doms = s.doms := rfl
@[simp] theorem Hub.setMon_glbLeft (i : Nat) (m : Monitor) : (s.setMon i m).glbLeft = s.glbLeft := rfl
@[simp] theorem Hub.setMon_corks (i : Nat) (m : Monitor) : (s.setMon i m).corks = s.corks := rfl
@[simp] theorem Hub.setMon_nextOp (i : Nat) (m : Monitor) : (s.setMon i m).nextOp = s.nextOp := rfl
@[simp] theorem Hub.setMon_corkShown (i : Nat) (m : Monitor) : (s.setMon i m).corkShown = s.corkShown := rfl
@[simp] theorem Hub.setMon_waveCrc (i : Nat) (m : Monitor) : (s.setMon i m).waveCrc = s.waveCrc := rfl
@[simp] theorem Hub.setMon_tiles (i : Nat) (m : Monitor) : (s.setMon i m).tiles = s.tiles := rfl
@[simp] theorem Hub.setMon_power (i : Nat) (m : Monitor) : (s.setMon i m).power = s.power := rfl
@[simp] theorem Hub.setMon_harv (i : Nat) (m : Monitor) : (s.setMon i m).harv = s.harv := rfl
@[simp] theorem Hub.setMon_canes (i : Nat) (m : Monitor) : (s.setMon i m).canes = s.canes := rfl
@[simp] theorem Hub.setMon_lanes (i : Nat) (m : Monitor) : (s.setMon i m).lanes = s.lanes := rfl
@[simp] theorem Hub.setMon_cell (i : Nat) (m : Monitor) : (s.setMon i m).cell = s.cell := rfl
@[simp] theorem Hub.setMon_rack (i : Nat) (m : Monitor) : (s.setMon i m).rack = s.rack := rfl
@[simp] theorem Hub.setMon_trace (i : Nat) (m : Monitor) : (s.setMon i m).trace = s.trace := rfl
@[simp] theorem Hub.setMon_taste (i : Nat) (m : Monitor) : (s.setMon i m).taste = s.taste := rfl
@[simp] theorem Hub.setMon_digTiles (i : Nat) (m : Monitor) : (s.setMon i m).digTiles = s.digTiles := rfl
@[simp] theorem Hub.setMon_digExt (i : Nat) (m : Monitor) : (s.setMon i m).digExt = s.digExt := rfl
@[simp] theorem Hub.setMon_numw (i : Nat) (m : Monitor) : (s.setMon i m).numw = s.numw := rfl
@[simp] theorem Hub.setMon_hangCtl (i : Nat) (m : Monitor) : (s.setMon i m).hangCtl = s.hangCtl := rfl
@[simp] theorem Hub.setMon_ladder (i : Nat) (m : Monitor) : (s.setMon i m).ladder = s.ladder := rfl
@[simp] theorem Hub.setMon_fed (i : Nat) (m : Monitor) : (s.setMon i m).fed = s.fed := rfl
@[simp] theorem Hub.setMon_link (i : Nat) (m : Monitor) : (s.setMon i m).link = s.link := rfl
@[simp] theorem Hub.setMon_boot (i : Nat) (m : Monitor) : (s.setMon i m).boot = s.boot := rfl
@[simp] theorem Hub.setMon_auth (i : Nat) (m : Monitor) : (s.setMon i m).auth = s.auth := rfl
@[simp] theorem Hub.setMon_bist (i : Nat) (m : Monitor) : (s.setMon i m).bist = s.bist := rfl
@[simp] theorem Hub.setMon_rel (i : Nat) (m : Monitor) : (s.setMon i m).rel = s.rel := rfl
@[simp] theorem Hub.setMon_coops (i : Nat) (m : Monitor) : (s.setMon i m).coops = s.coops := rfl
@[simp] theorem Hub.setMon_freeCount (i : Nat) (m : Monitor) : (s.setMon i m).freeCount = s.freeCount := rfl
@[simp] theorem Hub.setMon_digAgain (i : Nat) (m : Monitor) : (s.setMon i m).digAgain = s.digAgain := rfl
@[simp] theorem Hub.setMon_numwHeld (i : Nat) (m : Monitor) : (s.setMon i m).numwHeld = s.numwHeld := rfl
@[simp] theorem Hub.setMon_store (i : Nat) (m : Monitor) : (s.setMon i m).store = s.store := rfl
@[simp] theorem Hub.setMon_occs (i : Nat) (m : Monitor) : (s.setMon i m).occs = s.occs := rfl
@[simp] theorem Hub.setMon_writes (i : Nat) (m : Monitor) : (s.setMon i m).writes = s.writes := rfl

/-! ### `Hub.setCoop` -/

@[simp] theorem Hub.setCoop_regs (c : Nat) (x : Cooper) : (s.setCoop c x).regs = s.regs := rfl
@[simp] theorem Hub.setCoop_hi (c : Nat) (x : Cooper) : (s.setCoop c x).hi = s.hi := rfl
@[simp] theorem Hub.setCoop_stage (c : Nat) (x : Cooper) : (s.setCoop c x).stage = s.stage := rfl
@[simp] theorem Hub.setCoop_bus (c : Nat) (x : Cooper) : (s.setCoop c x).bus = s.bus := rfl
@[simp] theorem Hub.setCoop_owners (c : Nat) (x : Cooper) : (s.setCoop c x).owners = s.owners := rfl
@[simp] theorem Hub.setCoop_softReset (c : Nat) (x : Cooper) : (s.setCoop c x).softReset = s.softReset := rfl
@[simp] theorem Hub.setCoop_pins (c : Nat) (x : Cooper) : (s.setCoop c x).pins = s.pins := rfl
@[simp] theorem Hub.setCoop_time (c : Nat) (x : Cooper) : (s.setCoop c x).time = s.time := rfl
@[simp] theorem Hub.setCoop_doms (c : Nat) (x : Cooper) : (s.setCoop c x).doms = s.doms := rfl
@[simp] theorem Hub.setCoop_glbLeft (c : Nat) (x : Cooper) : (s.setCoop c x).glbLeft = s.glbLeft := rfl
@[simp] theorem Hub.setCoop_corks (c : Nat) (x : Cooper) : (s.setCoop c x).corks = s.corks := rfl
@[simp] theorem Hub.setCoop_nextOp (c : Nat) (x : Cooper) : (s.setCoop c x).nextOp = s.nextOp := rfl
@[simp] theorem Hub.setCoop_corkShown (c : Nat) (x : Cooper) : (s.setCoop c x).corkShown = s.corkShown := rfl
@[simp] theorem Hub.setCoop_waveCrc (c : Nat) (x : Cooper) : (s.setCoop c x).waveCrc = s.waveCrc := rfl
@[simp] theorem Hub.setCoop_tiles (c : Nat) (x : Cooper) : (s.setCoop c x).tiles = s.tiles := rfl
@[simp] theorem Hub.setCoop_power (c : Nat) (x : Cooper) : (s.setCoop c x).power = s.power := rfl
@[simp] theorem Hub.setCoop_harv (c : Nat) (x : Cooper) : (s.setCoop c x).harv = s.harv := rfl
@[simp] theorem Hub.setCoop_canes (c : Nat) (x : Cooper) : (s.setCoop c x).canes = s.canes := rfl
@[simp] theorem Hub.setCoop_lanes (c : Nat) (x : Cooper) : (s.setCoop c x).lanes = s.lanes := rfl
@[simp] theorem Hub.setCoop_cell (c : Nat) (x : Cooper) : (s.setCoop c x).cell = s.cell := rfl
@[simp] theorem Hub.setCoop_rack (c : Nat) (x : Cooper) : (s.setCoop c x).rack = s.rack := rfl
@[simp] theorem Hub.setCoop_trace (c : Nat) (x : Cooper) : (s.setCoop c x).trace = s.trace := rfl
@[simp] theorem Hub.setCoop_taste (c : Nat) (x : Cooper) : (s.setCoop c x).taste = s.taste := rfl
@[simp] theorem Hub.setCoop_digTiles (c : Nat) (x : Cooper) : (s.setCoop c x).digTiles = s.digTiles := rfl
@[simp] theorem Hub.setCoop_digExt (c : Nat) (x : Cooper) : (s.setCoop c x).digExt = s.digExt := rfl
@[simp] theorem Hub.setCoop_numw (c : Nat) (x : Cooper) : (s.setCoop c x).numw = s.numw := rfl
@[simp] theorem Hub.setCoop_hang (c : Nat) (x : Cooper) : (s.setCoop c x).hang = s.hang := rfl
@[simp] theorem Hub.setCoop_hangCtl (c : Nat) (x : Cooper) : (s.setCoop c x).hangCtl = s.hangCtl := rfl
@[simp] theorem Hub.setCoop_ladder (c : Nat) (x : Cooper) : (s.setCoop c x).ladder = s.ladder := rfl
@[simp] theorem Hub.setCoop_fed (c : Nat) (x : Cooper) : (s.setCoop c x).fed = s.fed := rfl
@[simp] theorem Hub.setCoop_link (c : Nat) (x : Cooper) : (s.setCoop c x).link = s.link := rfl
@[simp] theorem Hub.setCoop_boot (c : Nat) (x : Cooper) : (s.setCoop c x).boot = s.boot := rfl
@[simp] theorem Hub.setCoop_auth (c : Nat) (x : Cooper) : (s.setCoop c x).auth = s.auth := rfl
@[simp] theorem Hub.setCoop_bist (c : Nat) (x : Cooper) : (s.setCoop c x).bist = s.bist := rfl
@[simp] theorem Hub.setCoop_rel (c : Nat) (x : Cooper) : (s.setCoop c x).rel = s.rel := rfl
@[simp] theorem Hub.setCoop_freeCount (c : Nat) (x : Cooper) : (s.setCoop c x).freeCount = s.freeCount := rfl
@[simp] theorem Hub.setCoop_digAgain (c : Nat) (x : Cooper) : (s.setCoop c x).digAgain = s.digAgain := rfl
@[simp] theorem Hub.setCoop_numwHeld (c : Nat) (x : Cooper) : (s.setCoop c x).numwHeld = s.numwHeld := rfl
@[simp] theorem Hub.setCoop_store (c : Nat) (x : Cooper) : (s.setCoop c x).store = s.store := rfl
@[simp] theorem Hub.setCoop_occs (c : Nat) (x : Cooper) : (s.setCoop c x).occs = s.occs := rfl
@[simp] theorem Hub.setCoop_writes (c : Nat) (x : Cooper) : (s.setCoop c x).writes = s.writes := rfl

/-! ### `Hub.setTend` -/

@[simp] theorem Hub.setTend_regs (t : Nat) (x : Tendril) : (s.setTend t x).regs = s.regs := rfl
@[simp] theorem Hub.setTend_hi (t : Nat) (x : Tendril) : (s.setTend t x).hi = s.hi := rfl
@[simp] theorem Hub.setTend_stage (t : Nat) (x : Tendril) : (s.setTend t x).stage = s.stage := rfl
@[simp] theorem Hub.setTend_bus (t : Nat) (x : Tendril) : (s.setTend t x).bus = s.bus := rfl
@[simp] theorem Hub.setTend_owners (t : Nat) (x : Tendril) : (s.setTend t x).owners = s.owners := rfl
@[simp] theorem Hub.setTend_softReset (t : Nat) (x : Tendril) : (s.setTend t x).softReset = s.softReset := rfl
@[simp] theorem Hub.setTend_pins (t : Nat) (x : Tendril) : (s.setTend t x).pins = s.pins := rfl
@[simp] theorem Hub.setTend_time (t : Nat) (x : Tendril) : (s.setTend t x).time = s.time := rfl
@[simp] theorem Hub.setTend_doms (t : Nat) (x : Tendril) : (s.setTend t x).doms = s.doms := rfl
@[simp] theorem Hub.setTend_glbLeft (t : Nat) (x : Tendril) : (s.setTend t x).glbLeft = s.glbLeft := rfl
@[simp] theorem Hub.setTend_corks (t : Nat) (x : Tendril) : (s.setTend t x).corks = s.corks := rfl
@[simp] theorem Hub.setTend_nextOp (t : Nat) (x : Tendril) : (s.setTend t x).nextOp = s.nextOp := rfl
@[simp] theorem Hub.setTend_corkShown (t : Nat) (x : Tendril) : (s.setTend t x).corkShown = s.corkShown := rfl
@[simp] theorem Hub.setTend_waveCrc (t : Nat) (x : Tendril) : (s.setTend t x).waveCrc = s.waveCrc := rfl
@[simp] theorem Hub.setTend_tiles (t : Nat) (x : Tendril) : (s.setTend t x).tiles = s.tiles := rfl
@[simp] theorem Hub.setTend_power (t : Nat) (x : Tendril) : (s.setTend t x).power = s.power := rfl
@[simp] theorem Hub.setTend_harv (t : Nat) (x : Tendril) : (s.setTend t x).harv = s.harv := rfl
@[simp] theorem Hub.setTend_canes (t : Nat) (x : Tendril) : (s.setTend t x).canes = s.canes := rfl
@[simp] theorem Hub.setTend_lanes (t : Nat) (x : Tendril) : (s.setTend t x).lanes = s.lanes := rfl
@[simp] theorem Hub.setTend_cell (t : Nat) (x : Tendril) : (s.setTend t x).cell = s.cell := rfl
@[simp] theorem Hub.setTend_rack (t : Nat) (x : Tendril) : (s.setTend t x).rack = s.rack := rfl
@[simp] theorem Hub.setTend_trace (t : Nat) (x : Tendril) : (s.setTend t x).trace = s.trace := rfl
@[simp] theorem Hub.setTend_taste (t : Nat) (x : Tendril) : (s.setTend t x).taste = s.taste := rfl
@[simp] theorem Hub.setTend_digTiles (t : Nat) (x : Tendril) : (s.setTend t x).digTiles = s.digTiles := rfl
@[simp] theorem Hub.setTend_digExt (t : Nat) (x : Tendril) : (s.setTend t x).digExt = s.digExt := rfl
@[simp] theorem Hub.setTend_numw (t : Nat) (x : Tendril) : (s.setTend t x).numw = s.numw := rfl
@[simp] theorem Hub.setTend_hang (t : Nat) (x : Tendril) : (s.setTend t x).hang = s.hang := rfl
@[simp] theorem Hub.setTend_hangCtl (t : Nat) (x : Tendril) : (s.setTend t x).hangCtl = s.hangCtl := rfl
@[simp] theorem Hub.setTend_ladder (t : Nat) (x : Tendril) : (s.setTend t x).ladder = s.ladder := rfl
@[simp] theorem Hub.setTend_link (t : Nat) (x : Tendril) : (s.setTend t x).link = s.link := rfl
@[simp] theorem Hub.setTend_boot (t : Nat) (x : Tendril) : (s.setTend t x).boot = s.boot := rfl
@[simp] theorem Hub.setTend_auth (t : Nat) (x : Tendril) : (s.setTend t x).auth = s.auth := rfl
@[simp] theorem Hub.setTend_bist (t : Nat) (x : Tendril) : (s.setTend t x).bist = s.bist := rfl
@[simp] theorem Hub.setTend_rel (t : Nat) (x : Tendril) : (s.setTend t x).rel = s.rel := rfl
@[simp] theorem Hub.setTend_coops (t : Nat) (x : Tendril) : (s.setTend t x).coops = s.coops := rfl
@[simp] theorem Hub.setTend_freeCount (t : Nat) (x : Tendril) : (s.setTend t x).freeCount = s.freeCount := rfl
@[simp] theorem Hub.setTend_digAgain (t : Nat) (x : Tendril) : (s.setTend t x).digAgain = s.digAgain := rfl
@[simp] theorem Hub.setTend_numwHeld (t : Nat) (x : Tendril) : (s.setTend t x).numwHeld = s.numwHeld := rfl
@[simp] theorem Hub.setTend_store (t : Nat) (x : Tendril) : (s.setTend t x).store = s.store := rfl
@[simp] theorem Hub.setTend_occs (t : Nat) (x : Tendril) : (s.setTend t x).occs = s.occs := rfl
@[simp] theorem Hub.setTend_writes (t : Nat) (x : Tendril) : (s.setTend t x).writes = s.writes := rfl

/-! ### `Hub.mapLink` -/

@[simp] theorem Hub.mapLink_regs (f : LinkSt → LinkSt) : (s.mapLink f).regs = s.regs := rfl
@[simp] theorem Hub.mapLink_hi (f : LinkSt → LinkSt) : (s.mapLink f).hi = s.hi := rfl
@[simp] theorem Hub.mapLink_stage (f : LinkSt → LinkSt) : (s.mapLink f).stage = s.stage := rfl
@[simp] theorem Hub.mapLink_bus (f : LinkSt → LinkSt) : (s.mapLink f).bus = s.bus := rfl
@[simp] theorem Hub.mapLink_owners (f : LinkSt → LinkSt) : (s.mapLink f).owners = s.owners := rfl
@[simp] theorem Hub.mapLink_softReset (f : LinkSt → LinkSt) : (s.mapLink f).softReset = s.softReset := rfl
@[simp] theorem Hub.mapLink_pins (f : LinkSt → LinkSt) : (s.mapLink f).pins = s.pins := rfl
@[simp] theorem Hub.mapLink_time (f : LinkSt → LinkSt) : (s.mapLink f).time = s.time := rfl
@[simp] theorem Hub.mapLink_doms (f : LinkSt → LinkSt) : (s.mapLink f).doms = s.doms := rfl
@[simp] theorem Hub.mapLink_glbLeft (f : LinkSt → LinkSt) : (s.mapLink f).glbLeft = s.glbLeft := rfl
@[simp] theorem Hub.mapLink_corks (f : LinkSt → LinkSt) : (s.mapLink f).corks = s.corks := rfl
@[simp] theorem Hub.mapLink_nextOp (f : LinkSt → LinkSt) : (s.mapLink f).nextOp = s.nextOp := rfl
@[simp] theorem Hub.mapLink_corkShown (f : LinkSt → LinkSt) : (s.mapLink f).corkShown = s.corkShown := rfl
@[simp] theorem Hub.mapLink_waveCrc (f : LinkSt → LinkSt) : (s.mapLink f).waveCrc = s.waveCrc := rfl
@[simp] theorem Hub.mapLink_tiles (f : LinkSt → LinkSt) : (s.mapLink f).tiles = s.tiles := rfl
@[simp] theorem Hub.mapLink_power (f : LinkSt → LinkSt) : (s.mapLink f).power = s.power := rfl
@[simp] theorem Hub.mapLink_harv (f : LinkSt → LinkSt) : (s.mapLink f).harv = s.harv := rfl
@[simp] theorem Hub.mapLink_canes (f : LinkSt → LinkSt) : (s.mapLink f).canes = s.canes := rfl
@[simp] theorem Hub.mapLink_lanes (f : LinkSt → LinkSt) : (s.mapLink f).lanes = s.lanes := rfl
@[simp] theorem Hub.mapLink_cell (f : LinkSt → LinkSt) : (s.mapLink f).cell = s.cell := rfl
@[simp] theorem Hub.mapLink_rack (f : LinkSt → LinkSt) : (s.mapLink f).rack = s.rack := rfl
@[simp] theorem Hub.mapLink_trace (f : LinkSt → LinkSt) : (s.mapLink f).trace = s.trace := rfl
@[simp] theorem Hub.mapLink_taste (f : LinkSt → LinkSt) : (s.mapLink f).taste = s.taste := rfl
@[simp] theorem Hub.mapLink_digTiles (f : LinkSt → LinkSt) : (s.mapLink f).digTiles = s.digTiles := rfl
@[simp] theorem Hub.mapLink_digExt (f : LinkSt → LinkSt) : (s.mapLink f).digExt = s.digExt := rfl
@[simp] theorem Hub.mapLink_numw (f : LinkSt → LinkSt) : (s.mapLink f).numw = s.numw := rfl
@[simp] theorem Hub.mapLink_hang (f : LinkSt → LinkSt) : (s.mapLink f).hang = s.hang := rfl
@[simp] theorem Hub.mapLink_hangCtl (f : LinkSt → LinkSt) : (s.mapLink f).hangCtl = s.hangCtl := rfl
@[simp] theorem Hub.mapLink_ladder (f : LinkSt → LinkSt) : (s.mapLink f).ladder = s.ladder := rfl
@[simp] theorem Hub.mapLink_fed (f : LinkSt → LinkSt) : (s.mapLink f).fed = s.fed := rfl
@[simp] theorem Hub.mapLink_boot (f : LinkSt → LinkSt) : (s.mapLink f).boot = s.boot := rfl
@[simp] theorem Hub.mapLink_auth (f : LinkSt → LinkSt) : (s.mapLink f).auth = s.auth := rfl
@[simp] theorem Hub.mapLink_bist (f : LinkSt → LinkSt) : (s.mapLink f).bist = s.bist := rfl
@[simp] theorem Hub.mapLink_rel (f : LinkSt → LinkSt) : (s.mapLink f).rel = s.rel := rfl
@[simp] theorem Hub.mapLink_coops (f : LinkSt → LinkSt) : (s.mapLink f).coops = s.coops := rfl
@[simp] theorem Hub.mapLink_freeCount (f : LinkSt → LinkSt) : (s.mapLink f).freeCount = s.freeCount := rfl
@[simp] theorem Hub.mapLink_digAgain (f : LinkSt → LinkSt) : (s.mapLink f).digAgain = s.digAgain := rfl
@[simp] theorem Hub.mapLink_numwHeld (f : LinkSt → LinkSt) : (s.mapLink f).numwHeld = s.numwHeld := rfl
@[simp] theorem Hub.mapLink_store (f : LinkSt → LinkSt) : (s.mapLink f).store = s.store := rfl
@[simp] theorem Hub.mapLink_occs (f : LinkSt → LinkSt) : (s.mapLink f).occs = s.occs := rfl
@[simp] theorem Hub.mapLink_writes (f : LinkSt → LinkSt) : (s.mapLink f).writes = s.writes := rfl

/-! ### `Hub.mapLadder` -/

@[simp] theorem Hub.mapLadder_regs (f : Ladder → Ladder) : (s.mapLadder f).regs = s.regs := rfl
@[simp] theorem Hub.mapLadder_hi (f : Ladder → Ladder) : (s.mapLadder f).hi = s.hi := rfl
@[simp] theorem Hub.mapLadder_stage (f : Ladder → Ladder) : (s.mapLadder f).stage = s.stage := rfl
@[simp] theorem Hub.mapLadder_bus (f : Ladder → Ladder) : (s.mapLadder f).bus = s.bus := rfl
@[simp] theorem Hub.mapLadder_owners (f : Ladder → Ladder) : (s.mapLadder f).owners = s.owners := rfl
@[simp] theorem Hub.mapLadder_softReset (f : Ladder → Ladder) : (s.mapLadder f).softReset = s.softReset := rfl
@[simp] theorem Hub.mapLadder_pins (f : Ladder → Ladder) : (s.mapLadder f).pins = s.pins := rfl
@[simp] theorem Hub.mapLadder_time (f : Ladder → Ladder) : (s.mapLadder f).time = s.time := rfl
@[simp] theorem Hub.mapLadder_doms (f : Ladder → Ladder) : (s.mapLadder f).doms = s.doms := rfl
@[simp] theorem Hub.mapLadder_glbLeft (f : Ladder → Ladder) : (s.mapLadder f).glbLeft = s.glbLeft := rfl
@[simp] theorem Hub.mapLadder_corks (f : Ladder → Ladder) : (s.mapLadder f).corks = s.corks := rfl
@[simp] theorem Hub.mapLadder_nextOp (f : Ladder → Ladder) : (s.mapLadder f).nextOp = s.nextOp := rfl
@[simp] theorem Hub.mapLadder_corkShown (f : Ladder → Ladder) : (s.mapLadder f).corkShown = s.corkShown := rfl
@[simp] theorem Hub.mapLadder_waveCrc (f : Ladder → Ladder) : (s.mapLadder f).waveCrc = s.waveCrc := rfl
@[simp] theorem Hub.mapLadder_tiles (f : Ladder → Ladder) : (s.mapLadder f).tiles = s.tiles := rfl
@[simp] theorem Hub.mapLadder_power (f : Ladder → Ladder) : (s.mapLadder f).power = s.power := rfl
@[simp] theorem Hub.mapLadder_harv (f : Ladder → Ladder) : (s.mapLadder f).harv = s.harv := rfl
@[simp] theorem Hub.mapLadder_canes (f : Ladder → Ladder) : (s.mapLadder f).canes = s.canes := rfl
@[simp] theorem Hub.mapLadder_lanes (f : Ladder → Ladder) : (s.mapLadder f).lanes = s.lanes := rfl
@[simp] theorem Hub.mapLadder_cell (f : Ladder → Ladder) : (s.mapLadder f).cell = s.cell := rfl
@[simp] theorem Hub.mapLadder_rack (f : Ladder → Ladder) : (s.mapLadder f).rack = s.rack := rfl
@[simp] theorem Hub.mapLadder_trace (f : Ladder → Ladder) : (s.mapLadder f).trace = s.trace := rfl
@[simp] theorem Hub.mapLadder_taste (f : Ladder → Ladder) : (s.mapLadder f).taste = s.taste := rfl
@[simp] theorem Hub.mapLadder_digTiles (f : Ladder → Ladder) : (s.mapLadder f).digTiles = s.digTiles := rfl
@[simp] theorem Hub.mapLadder_digExt (f : Ladder → Ladder) : (s.mapLadder f).digExt = s.digExt := rfl
@[simp] theorem Hub.mapLadder_numw (f : Ladder → Ladder) : (s.mapLadder f).numw = s.numw := rfl
@[simp] theorem Hub.mapLadder_hang (f : Ladder → Ladder) : (s.mapLadder f).hang = s.hang := rfl
@[simp] theorem Hub.mapLadder_hangCtl (f : Ladder → Ladder) : (s.mapLadder f).hangCtl = s.hangCtl := rfl
@[simp] theorem Hub.mapLadder_fed (f : Ladder → Ladder) : (s.mapLadder f).fed = s.fed := rfl
@[simp] theorem Hub.mapLadder_link (f : Ladder → Ladder) : (s.mapLadder f).link = s.link := rfl
@[simp] theorem Hub.mapLadder_boot (f : Ladder → Ladder) : (s.mapLadder f).boot = s.boot := rfl
@[simp] theorem Hub.mapLadder_auth (f : Ladder → Ladder) : (s.mapLadder f).auth = s.auth := rfl
@[simp] theorem Hub.mapLadder_bist (f : Ladder → Ladder) : (s.mapLadder f).bist = s.bist := rfl
@[simp] theorem Hub.mapLadder_rel (f : Ladder → Ladder) : (s.mapLadder f).rel = s.rel := rfl
@[simp] theorem Hub.mapLadder_coops (f : Ladder → Ladder) : (s.mapLadder f).coops = s.coops := rfl
@[simp] theorem Hub.mapLadder_freeCount (f : Ladder → Ladder) : (s.mapLadder f).freeCount = s.freeCount := rfl
@[simp] theorem Hub.mapLadder_digAgain (f : Ladder → Ladder) : (s.mapLadder f).digAgain = s.digAgain := rfl
@[simp] theorem Hub.mapLadder_numwHeld (f : Ladder → Ladder) : (s.mapLadder f).numwHeld = s.numwHeld := rfl
@[simp] theorem Hub.mapLadder_store (f : Ladder → Ladder) : (s.mapLadder f).store = s.store := rfl
@[simp] theorem Hub.mapLadder_occs (f : Ladder → Ladder) : (s.mapLadder f).occs = s.occs := rfl
@[simp] theorem Hub.mapLadder_writes (f : Ladder → Ladder) : (s.mapLadder f).writes = s.writes := rfl

/-! ### `Hub.put` -/

@[simp] theorem Hub.put_regs (sp : Space) (a : Nat) (bs : List Byte) : (s.put sp a bs).regs = s.regs := rfl
@[simp] theorem Hub.put_hi (sp : Space) (a : Nat) (bs : List Byte) : (s.put sp a bs).hi = s.hi := rfl
@[simp] theorem Hub.put_stage (sp : Space) (a : Nat) (bs : List Byte) : (s.put sp a bs).stage = s.stage := rfl
@[simp] theorem Hub.put_bus (sp : Space) (a : Nat) (bs : List Byte) : (s.put sp a bs).bus = s.bus := rfl
@[simp] theorem Hub.put_owners (sp : Space) (a : Nat) (bs : List Byte) : (s.put sp a bs).owners = s.owners := rfl
@[simp] theorem Hub.put_softReset (sp : Space) (a : Nat) (bs : List Byte) : (s.put sp a bs).softReset = s.softReset := rfl
@[simp] theorem Hub.put_pins (sp : Space) (a : Nat) (bs : List Byte) : (s.put sp a bs).pins = s.pins := rfl
@[simp] theorem Hub.put_time (sp : Space) (a : Nat) (bs : List Byte) : (s.put sp a bs).time = s.time := rfl
@[simp] theorem Hub.put_doms (sp : Space) (a : Nat) (bs : List Byte) : (s.put sp a bs).doms = s.doms := rfl
@[simp] theorem Hub.put_glbLeft (sp : Space) (a : Nat) (bs : List Byte) : (s.put sp a bs).glbLeft = s.glbLeft := rfl
@[simp] theorem Hub.put_corks (sp : Space) (a : Nat) (bs : List Byte) : (s.put sp a bs).corks = s.corks := rfl
@[simp] theorem Hub.put_nextOp (sp : Space) (a : Nat) (bs : List Byte) : (s.put sp a bs).nextOp = s.nextOp := rfl
@[simp] theorem Hub.put_corkShown (sp : Space) (a : Nat) (bs : List Byte) : (s.put sp a bs).corkShown = s.corkShown := rfl
@[simp] theorem Hub.put_waveCrc (sp : Space) (a : Nat) (bs : List Byte) : (s.put sp a bs).waveCrc = s.waveCrc := rfl
@[simp] theorem Hub.put_tiles (sp : Space) (a : Nat) (bs : List Byte) : (s.put sp a bs).tiles = s.tiles := rfl
@[simp] theorem Hub.put_power (sp : Space) (a : Nat) (bs : List Byte) : (s.put sp a bs).power = s.power := rfl
@[simp] theorem Hub.put_harv (sp : Space) (a : Nat) (bs : List Byte) : (s.put sp a bs).harv = s.harv := rfl
@[simp] theorem Hub.put_canes (sp : Space) (a : Nat) (bs : List Byte) : (s.put sp a bs).canes = s.canes := rfl
@[simp] theorem Hub.put_lanes (sp : Space) (a : Nat) (bs : List Byte) : (s.put sp a bs).lanes = s.lanes := rfl
@[simp] theorem Hub.put_cell (sp : Space) (a : Nat) (bs : List Byte) : (s.put sp a bs).cell = s.cell := rfl
@[simp] theorem Hub.put_rack (sp : Space) (a : Nat) (bs : List Byte) : (s.put sp a bs).rack = s.rack := rfl
@[simp] theorem Hub.put_trace (sp : Space) (a : Nat) (bs : List Byte) : (s.put sp a bs).trace = s.trace := rfl
@[simp] theorem Hub.put_taste (sp : Space) (a : Nat) (bs : List Byte) : (s.put sp a bs).taste = s.taste := rfl
@[simp] theorem Hub.put_digTiles (sp : Space) (a : Nat) (bs : List Byte) : (s.put sp a bs).digTiles = s.digTiles := rfl
@[simp] theorem Hub.put_digExt (sp : Space) (a : Nat) (bs : List Byte) : (s.put sp a bs).digExt = s.digExt := rfl
@[simp] theorem Hub.put_numw (sp : Space) (a : Nat) (bs : List Byte) : (s.put sp a bs).numw = s.numw := rfl
@[simp] theorem Hub.put_hang (sp : Space) (a : Nat) (bs : List Byte) : (s.put sp a bs).hang = s.hang := rfl
@[simp] theorem Hub.put_hangCtl (sp : Space) (a : Nat) (bs : List Byte) : (s.put sp a bs).hangCtl = s.hangCtl := rfl
@[simp] theorem Hub.put_ladder (sp : Space) (a : Nat) (bs : List Byte) : (s.put sp a bs).ladder = s.ladder := rfl
@[simp] theorem Hub.put_fed (sp : Space) (a : Nat) (bs : List Byte) : (s.put sp a bs).fed = s.fed := rfl
@[simp] theorem Hub.put_link (sp : Space) (a : Nat) (bs : List Byte) : (s.put sp a bs).link = s.link := rfl
@[simp] theorem Hub.put_boot (sp : Space) (a : Nat) (bs : List Byte) : (s.put sp a bs).boot = s.boot := rfl
@[simp] theorem Hub.put_auth (sp : Space) (a : Nat) (bs : List Byte) : (s.put sp a bs).auth = s.auth := rfl
@[simp] theorem Hub.put_bist (sp : Space) (a : Nat) (bs : List Byte) : (s.put sp a bs).bist = s.bist := rfl
@[simp] theorem Hub.put_rel (sp : Space) (a : Nat) (bs : List Byte) : (s.put sp a bs).rel = s.rel := rfl
@[simp] theorem Hub.put_coops (sp : Space) (a : Nat) (bs : List Byte) : (s.put sp a bs).coops = s.coops := rfl
@[simp] theorem Hub.put_freeCount (sp : Space) (a : Nat) (bs : List Byte) : (s.put sp a bs).freeCount = s.freeCount := rfl
@[simp] theorem Hub.put_digAgain (sp : Space) (a : Nat) (bs : List Byte) : (s.put sp a bs).digAgain = s.digAgain := rfl
@[simp] theorem Hub.put_numwHeld (sp : Space) (a : Nat) (bs : List Byte) : (s.put sp a bs).numwHeld = s.numwHeld := rfl
@[simp] theorem Hub.put_store (sp : Space) (a : Nat) (bs : List Byte) : (s.put sp a bs).store = s.store := rfl
@[simp] theorem Hub.put_occs (sp : Space) (a : Nat) (bs : List Byte) : (s.put sp a bs).occs = s.occs := rfl

end Sys2Proof.Machine
end

