-- ==== Sys2Proof/Laws/Run.lean ====
section
/-! SUPPORT. What every command ends with: the laws of delivering events and of what follows a command on its own edge. -/

namespace Sys2Proof.Machine

theorem doEach_nil {σ α : Type} (s : σ) (f : σ → α → σ) : doEach [] s f = s := rfl

theorem doEach_cons {σ α : Type} (a : α) (l : List α) (s : σ) (f : σ → α → σ) : doEach (a :: l) s f = doEach l (f s a) f := rfl

/-- A property every item keeps holds at the end. -/
theorem doEach_keeps {σ α : Type} (p : σ → Prop) (f : σ → α → σ) (hf : ∀ s a, p s → p (f s a)) (l : List α) (s : σ) (h : p s) :
    p (doEach l s f) := by
  induction l generalizing s with
  | nil => exact h
  | cons a l ih => exact ih _ (hf s a h)

/-- What no item changes is as it was at the start. -/
theorem doEach_same {σ α β : Type} (g : σ → β) (f : σ → α → σ) (hf : ∀ s a, g (f s a) = g s) (l : List α) (s : σ) : g (doEach l s f) = g s :=
  doEach_keeps (fun x => g x = g s) f (fun s' a h => (hf s' a).trans h) l s rfl

/-! ### The parts of calm -/

section
variable {h : Hub} (c : h.calm = true)

include c in
theorem calm_parts : h.hangCtl.reports = [] ∧ (h.hang.cells.all (fun p => p.2.policy == 0 || !p.2.pdue)) = true ∧
    (h.hangCtl.peers.all (fun p => !p.due)) = true ∧ h.link.reqQ = [] ∧ h.softReset = [] ∧
    (h.ladder.active = false ∨ (h.ladder.begun = true ∧ h.ladder.level < Lv.FIELD)) ∧
    (h.harv.op == 1 && h.harv.admitted && !h.harv.drained && h.harv.ended.isNone) = false ∧ h.rel.inject = none ∧
    (h.harv.cur.cells.all (fun p => p.2.phase != 1 || !p.2.tiles.isEmpty)) = true ∧ (h.harvReady = false ∨ h.rd F.HARV_STATUS_PHASE = 5) ∧
    h.flag F.TRACE_STATE_RUNNING = false ∧ h.flag F.TRACE_TRIG_CTRL_HUBEV_EN = false ∧ h.occs = [] ∧ h.writes = [] := by
  simp only [Hub.calm, Bool.and_eq_true, Bool.or_eq_true, Bool.not_eq_true', List.isEmpty_iff, Option.isNone_iff_eq_none,
    decide_eq_true_eq, beq_iff_eq] at c
  obtain ⟨⟨⟨⟨⟨⟨⟨⟨⟨⟨⟨⟨⟨h1, h2⟩, h3⟩, h4⟩, h5⟩, h6⟩, h7⟩, h8⟩, hc⟩, hp⟩, h9⟩, h10⟩, h11⟩, h12⟩ := c
  exact ⟨h1, h2, h3, h4, h5, h6, h7, h8, hc, hp, h9, h10, h11, h12⟩

end

/-- What `follow` needs to leave the hub alone. -/
def Hub.still (h : Hub) : Prop :=
  h.hangCtl.reports = [] ∧ (h.hang.cells.all (fun p => p.2.policy == 0 || !p.2.pdue)) = true ∧
  (h.hangCtl.peers.all (fun p => !p.due)) = true ∧ h.link.reqQ = [] ∧ h.softReset = [] ∧
  (h.ladder.active = false ∨ (h.ladder.begun = true ∧ h.ladder.level < Lv.FIELD)) ∧
  (h.harv.op == 1 && h.harv.admitted && !h.harv.drained && h.harv.ended.isNone) = false ∧
  (h.harv.cur.cells.all (fun p => p.2.phase != 1 || !p.2.tiles.isEmpty)) = true ∧ (h.harvReady = false ∨ h.rd F.HARV_STATUS_PHASE = 5)

theorem calm_still {h : Hub} (c : h.calm = true) : h.still := by
  obtain ⟨h1, h2, h3, h4, h5, h6, h7, -, h8, h9, -⟩ := calm_parts c
  exact ⟨h1, h2, h3, h4, h5, h6, h7, h8, h9⟩

theorem follow_still {h : Hub} (c : h.still) : h.follow = h := by
  obtain ⟨h1, h2, h3, h4, h5, h6, h7, h8, h9⟩ := c
  have e1 : h.takeReports = h := by
    have e : ({ h.hangCtl with reports := [] } : HangCtl) = h.hangCtl := by rw [← h1]
    simp only [Hub.takeReports, h1, doEach_nil, e]
  have e2 : h.policies 256 = h := by
    have : h.hang.cells.find? (fun p => p.2.policy != 0 && p.2.pdue) = none := by
      rw [List.find?_eq_none]; intro x hx
      have := List.all_eq_true.mp h2 x hx
      simp at this ⊢; tauto
    simp only [Hub.policies, this]
  have e3 : h.peers 256 = h := by
    have : h.hangCtl.peers.find? (fun p => p.due) = none := by
      rw [List.find?_eq_none]; intro x hx
      have := List.all_eq_true.mp h3 x hx
      simpa using this
    simp only [Hub.peers, this]
  have e4 : Hub.portNext 64 h = h := by simp only [Hub.portNext, h4]
  have e5 : h.softResets = h := by simp [Hub.softResets, h5, doEach_nil]
  have e6 : h.ladderGo = h := by
    rcases h6 with h6 | ⟨h6, hl⟩
    · simp [Hub.ladderGo, Hub.fieldDue, h6]
    · have n1 : h.ladder.level ≠ 3 := by simp only [Lv.FIELD] at hl; omega
      have n2 : h.ladder.level ≠ 4 := by simp only [Lv.FIELD] at hl; omega
      simp [Hub.ladderGo, Hub.fieldDue, h6, Lv.FIELD, Lv.CHIP, n1, n2]
  have e7 : h.drainCheck = h := by simp only [Hub.drainCheck, h7, Bool.false_and]; rfl
  have e8 : h.columnsGo = h := by
    have : h.harv.cur.cells.filter (fun p => p.2.phase == 1 && p.2.tiles.isEmpty) = [] := by
      rw [List.filter_eq_nil_iff]; intro x hx
      have := List.all_eq_true.mp h8 x hx
      simp at this ⊢; tauto
    simp only [Hub.columnsGo, this, List.map_nil, doEach_nil, ite_self]
  have e9 : h.closePhase = h := by
    rcases h9 with h9 | h9 <;> simp [Hub.closePhase, h9]
  simp only [Hub.follow, e1, e2, e3, e4, e5, e6, e7, e8, e9]

/-! ### Delivering events -/

/-- `t` with everything that delivering events may change taken from `s`. -/
def Hub.undelivered (s t : Hub) : Hub :=
  { t with
    regs := s.regs
    coops := s.coops
    occs := s.occs
    link := { t.link with evQ := s.link.evQ, evLoss := s.link.evLoss, lossDue := s.link.lossDue } }

/-- The registers that the RELEASE scripts of the coopers may change as they start (R439, R440). -/
def releaseKey (k : Nat) : Bool := [R.COOP_RUNS, R.COOP_RUNS + 0x1000, R.COOP_EVLOSS, R.COOP_EVLOSS + 0x1000].contains k

/-- `t` comes from `s` by delivering events, RELEASED among them only when `rel` is set: all but the registers of `eventKey`, the occurrences on
their way to the coopers, the rack port's event queue and the occurrences still to be delivered is as it was, and no PG_EVENT bit is cleared.
RELEASED may start scripts, besides. -/
structure Deliv (rel : Bool) (s t : Hub) : Prop where
  core : s.undelivered t = s
  regs : ∀ a b, eventKey (regKey a b) = false → (rel = true → releaseKey (regKey a b) = false) → t.regB a b = s.regB a b
  events : ∀ p i, bitAt (s.reg (R.PG_EVENT + p * 0x1000)) i = true → bitAt (t.reg (R.PG_EVENT + p * 0x1000)) i = true
  told : rel = false → ∀ c, (t.coop c).told = (s.coop c).told
  quiet : rel = false → ∀ o ∈ t.occs, o ∈ s.occs ∨ o.code ≠ Ev.RELEASED

variable {rel : Bool}

theorem Deliv.refl (s : Hub) : Deliv rel s s :=
  ⟨rfl, fun _ _ _ _ => rfl, fun _ _ h => h, fun _ _ => rfl, fun _ _ h => .inl h⟩

theorem Deliv.trans {s t u : Hub} (h1 : Deliv rel s t) (h2 : Deliv rel t u) : Deliv rel s u := by
  refine ⟨?_, fun a b k r => (h2.regs a b k r).trans (h1.regs a b k r), fun p i k => h2.events p i (h1.events p i k),
    fun r c => (h2.told r c).trans (h1.told r c), fun r o ho => (h2.quiet r o ho).elim (h1.quiet r o) .inr⟩
  have e : s.undelivered u = s.undelivered (t.undelivered u) := rfl
  rw [e, h2.core, h1.core]

theorem Deliv.doEach {α : Type} {f : Hub → α → Hub} (hf : ∀ s a, Deliv rel s (f s a)) (l : List α) (s : Hub) :
    Deliv rel s (Machine.doEach l s f) :=
  doEach_keeps (Deliv rel s) f (fun t a h => h.trans (hf t a)) l s (Deliv.refl s)

theorem Deliv.raise (s : Hub) (c : Nat) (u : Option Nat) (n : rel = false → c ≠ Ev.RELEASED) : Deliv rel s (s.raise c u) := by
  refine ⟨rfl, fun _ _ _ _ => rfl, fun _ _ h => h, fun _ _ => rfl, fun r o ho => ?_⟩
  rcases List.mem_append.mp ho with h | h
  · exact .inl h
  · rw [List.mem_singleton.mp h]; exact .inr (n r)

theorem Hub.coop_setCoop (s : Hub) (c d : Nat) (x : Cooper) : (s.setCoop c x).coop d = if d = c then x else s.coop d := by
  exact Tab.get_set _ _ _ _ _

theorem Deliv.setCoop (s : Hub) (c : Nat) (x : Cooper) (n : rel = false → x.told = (s.coop c).told) : Deliv rel s (s.setCoop c x) := by
  refine ⟨rfl, fun _ _ _ _ => rfl, fun _ _ h => h, fun r d => ?_, fun _ _ h => .inl h⟩
  rw [Hub.coop_setCoop]
  split
  · rename_i e; rw [e]; exact n r
  · rfl

/-- A register of the delivery's own, no PG_EVENT, is written. -/
theorem Deliv.setReg (s : Hub) (a v : Nat) (k : eventKey a = true ∨ (rel = true ∧ releaseKey a = true)) (n : a % 0x1000 ≠ R.PG_EVENT) :
    Deliv rel s (s.setReg a v) := by
  refine ⟨rfl, fun a' b' h r => ?_, fun p i h => ?_, fun _ _ => rfl, fun _ _ h => .inl h⟩
  · apply Hub.regB_setRegB_ne
    intro e; rw [e] at h r
    rcases k with k | ⟨k, k'⟩
    · simp [regKey, k] at h
    · simp [regKey, k'] at r; simp [r] at k
  · rw [Hub.reg_setReg_ne]; exact h
    intro e; apply n; rw [← e]; simp [R.PG_EVENT]

theorem bitAt_or (v w n : Nat) : bitAt (v ||| w) n = (bitAt v n || bitAt w n) := by
  simp only [bitAt_eq_testBit, Nat.testBit_or]

theorem bitAt_word (v n : Nat) : bitAt (v % 2 ^ 32) n = (decide (n < 32) && bitAt v n) := by
  simp only [bitAt_eq_testBit, Nat.testBit_mod_two_pow]

theorem Hub.reg_lt (s : Hub) (a : Nat) : s.reg a < 2 ^ 32 := BitVec.isLt _

theorem bitAt_lt {v n : Nat} (h : v < 2 ^ 32) (k : bitAt v n = true) : n < 32 := by
  by_contra c
  rw [bitAt_eq_testBit, Nat.testBit_lt_two_pow (lt_of_lt_of_le h (Nat.pow_le_pow_right (by norm_num) (by omega)))] at k
  cases k

/-- A bit of PG_EVENT is set. -/
theorem Deliv.setEvent (s : Hub) (p w : Nat) :
    Deliv rel s (s.setReg (R.PG_EVENT + p * 0x1000) (s.reg (R.PG_EVENT + p * 0x1000) ||| w)) := by
  refine ⟨rfl, fun a' b' h _ => ?_, fun q i h => ?_, fun _ _ => rfl, fun _ _ h => .inl h⟩
  · apply Hub.regB_setRegB_ne
    intro e; rw [e] at h
    simp [regKey, eventKey, R.PG_EVENT] at h
  · by_cases e : R.PG_EVENT + q * 0x1000 = R.PG_EVENT + p * 0x1000
    · rw [e] at h ⊢
      rw [Hub.reg_setReg, bitAt_word, bitAt_or, h]
      simp [bitAt_lt (s.reg_lt _) h]
    · rw [Hub.reg_setReg_ne _ _ e]; exact h

theorem Deliv.setEventBit (s : Hub) (o : Occ) : Deliv rel s (s.setEventBit o) := by
  unfold Hub.setEventBit
  split
  · exact Deliv.setEvent s _ _
  · exact Deliv.refl s

theorem Deliv.coopSend (s : Hub) (o : Occ) : Deliv rel s (s.coopSend o) := by
  unfold Hub.coopSend
  apply Deliv.doEach
  intro s c
  dsimp only
  split
  · exact Deliv.setCoop _ _ _ (fun _ => rfl)
  · exact Deliv.refl _

theorem Deliv.mapLink (s : Hub) (f : LinkSt → LinkSt)
    (k : ({ f s.link with evQ := s.link.evQ, evLoss := s.link.evLoss, lossDue := s.link.lossDue } : LinkSt) = s.link) :
    Deliv rel s (s.mapLink f) := by
  refine ⟨?_, fun _ _ _ _ => rfl, fun _ _ h => h, fun _ _ => rfl, fun _ _ h => .inl h⟩
  show ({ s with link := { f s.link with evQ := s.link.evQ, evLoss := s.link.evLoss, lossDue := s.link.lossDue } } : Hub) = s
  rw [k]

theorem Deliv.portEvent (s : Hub) (o : Occ) : Deliv rel s (s.portEvent o) := by
  unfold Hub.portEvent Hub.portLoss
  split
  · exact Deliv.refl _
  · split
    · exact Deliv.mapLink _ _ rfl
    · dsimp only
      split
      · exact Deliv.mapLink _ _ rfl
      · exact (Deliv.mapLink _ _ rfl).trans (Deliv.raise _ _ _ (fun _ => by decide))

theorem Deliv.bump_coop (s : Hub) (f : Fld) (c n : Nat) (hf : f.addr = R.COOP_RUNS ∨ f.addr = R.COOP_EVLOSS) (hc : c < 2) :
    Deliv true s (s.bump (f.lane c) n) := by
  unfold Hub.bump Hub.wr Hub.wrB
  have e : (f.lane c).addr = f.addr + c * 0x1000 := rfl
  have : c = 0 ∨ c = 1 := by omega
  apply Deliv.setReg
  · right
    rw [e]
    rcases hf with hf | hf <;> rcases this with rfl | rfl <;> rw [hf] <;> decide
  · rw [e]
    rcases hf with hf | hf <;> rcases this with rfl | rfl <;> rw [hf] <;> decide

theorem Deliv.coopTrigger (s : Hub) (c script : Nat) (o : Occ) (hc : c < 2) : Deliv true s (s.coopTrigger c script o) := by
  have no {p : Prop} : true = false → p := fun h => by cases h
  unfold Hub.coopTrigger Hub.coopStart
  dsimp only
  split
  · exact Deliv.refl _
  · split
    · exact ((Deliv.setCoop _ _ _ no).trans (Deliv.bump_coop _ _ _ _ (.inl (by decide)) hc)).trans (Deliv.raise _ _ _ no)
    · split
      · split
        · exact (Deliv.bump_coop _ _ _ _ (.inr (by decide)) hc).trans (Deliv.raise _ _ _ no)
        · exact Deliv.setCoop _ _ _ no
      · exact Deliv.refl _

theorem Deliv.coopRelease (s : Hub) : Deliv true s s.coopRelease := by
  unfold Hub.coopRelease
  simp only [doEach_cons, doEach_nil]
  exact (Deliv.doEach (fun s i => Deliv.coopTrigger s 0 i _ (by decide)) _ _).trans
    (Deliv.doEach (fun s i => Deliv.coopTrigger s 1 i _ (by decide)) _ _)

/-- Trace does not run, and no hub event is a trigger. -/
def Hub.untraced (s : Hub) : Prop := s.flag F.TRACE_STATE_RUNNING = false ∧ s.flag F.TRACE_TRIG_CTRL_HUBEV_EN = false

theorem Deliv.flag {s t : Hub} (h : Deliv rel s t) (f : Fld) (k : eventKey f.addr = false) (k' : releaseKey f.addr = false) :
    t.rd f = s.rd f := by
  simp only [Hub.rd, Hub.rdB]
  rw [h.regs]
  · simpa [regKey] using k
  · intro _; simpa [regKey] using k'

theorem Deliv.untraced {s t : Hub} (h : Deliv rel s t) (u : s.untraced) : t.untraced := by
  unfold Hub.untraced Hub.flag at *
  rw [h.flag _ (by decide) (by decide), h.flag _ (by decide) (by decide)]; exact u

/-- One occurrence delivered sets its PG_EVENT bit and changes nothing but what delivering changes. -/
theorem deliverOne_deliv (s : Hub) (o : Occ) (u : s.untraced) (n : rel = false → o.code ≠ Ev.RELEASED) :
    Deliv rel s (s.deliverOne o) ∧ (∀ p i, eventBit o.code (o.unit.getD 0) = some (p, i) → i < 32 →
      bitAt ((s.deliverOne o).reg (R.PG_EVENT + p * 0x1000)) i = true) := by
  have d1 := Deliv.setEventBit (rel := rel) s o
  have d2 := d1.trans (Deliv.coopSend _ o)
  have d3 := d2.trans (Deliv.portEvent _ o)
  have e : (((s.setEventBit o).coopSend o).portEvent o).traceEvent o = ((s.setEventBit o).coopSend o).portEvent o := by
    have := d3.untraced u
    unfold Hub.untraced at this
    simp [Hub.traceEvent, this.1, this.2]
  have last : Deliv rel (((s.setEventBit o).coopSend o).portEvent o) (s.deliverOne o) := by
    unfold Hub.deliverOne
    simp only [e]
    split
    · rename_i e
      cases rel with
      | true => exact Deliv.coopRelease _
      | false => exact absurd (by simpa using e) (n rfl)
    · exact Deliv.refl _
  refine ⟨d3.trans last, fun p i h hi => ?_⟩
  have b : bitAt ((s.setEventBit o).reg (R.PG_EVENT + p * 0x1000)) i = true := by
    simp only [Hub.setEventBit, h, Hub.reg_setReg, bitAt_word, bitAt_or]
    simp [hi, bitAt_eq_testBit]
  exact last.events _ _ ((Deliv.portEvent (rel := rel) _ o).events _ _ ((Deliv.coopSend (rel := rel) _ o).events _ _ b))

theorem mem_insertOcc (o x : Occ) (l : List Occ) : o ∈ insertOcc x l ↔ o = x ∨ o ∈ l := by
  induction l with
  | nil => simp [insertOcc]
  | cons y l ih =>
    unfold insertOcc
    split
    · simp
    · simp [ih]; tauto

theorem mem_sortOccs (o : Occ) (l : List Occ) : o ∈ sortOccs l ↔ o ∈ l := by
  have : ∀ (l acc : List Occ), o ∈ l.foldl (fun l o => insertOcc o l) acc ↔ o ∈ l ∨ o ∈ acc := by
    intro l
    induction l with
    | nil => simp
    | cons x l ih => intro acc; simp only [List.foldl_cons, ih, mem_insertOcc, List.mem_cons]; tauto
  simpa [sortOccs] using this l []

theorem doEach_deliver (l : List Occ) (s : Hub) (u : s.untraced) (n : rel = false → ∀ o ∈ l, o.code ≠ Ev.RELEASED) :
    Deliv rel s (doEach l s Hub.deliverOne) ∧ ∀ o ∈ l, ∀ p i, eventBit o.code (o.unit.getD 0) = some (p, i) → i < 32 →
      bitAt ((doEach l s Hub.deliverOne).reg (R.PG_EVENT + p * 0x1000)) i = true := by
  induction l generalizing s with
  | nil => exact ⟨Deliv.refl s, by simp⟩
  | cons x l ih =>
    obtain ⟨d, b⟩ := deliverOne_deliv s x u (fun r => n r x (by simp))
    obtain ⟨d', b'⟩ := ih (s.deliverOne x) (d.untraced u) (fun r o ho => n r o (by simp [ho]))
    rw [doEach_cons]
    refine ⟨d.trans d', fun o ho p i h hi => ?_⟩
    rcases List.mem_cons.mp ho with rfl | ho
    · exact d'.events _ _ (b p i h hi)
    · exact b' o ho p i h hi

/-- Delivering everything raised: no occurrence is left over, each set its PG_EVENT bit, and nothing else changes but what delivering changes. -/
theorem deliverAll_deliv (n : Nat) (s : Hub) (u : s.untraced) (m : rel = false → ∀ o ∈ s.occs, o.code ≠ Ev.RELEASED) :
    Deliv rel s (Hub.deliverAll n s) ∧ (Hub.deliverAll n s).occs = [] ∧ (n ≠ 0 → ∀ o ∈ s.occs, ∀ p i, eventBit o.code (o.unit.getD 0) = some (p, i) →
      i < 32 → bitAt ((Hub.deliverAll n s).reg (R.PG_EVENT + p * 0x1000)) i = true) := by
  induction n generalizing s with
  | zero => exact ⟨⟨rfl, fun _ _ _ _ => rfl, fun _ _ h => h, fun _ _ => rfl, fun _ _ h => nomatch h⟩, rfl, fun h => absurd rfl h⟩
  | succ n ih =>
    unfold Hub.deliverAll
    split
    · rename_i h
      refine ⟨Deliv.refl s, h, fun _ o ho => ?_⟩
      rw [h] at ho; cases ho
    · have d0 : Deliv rel s { s with occs := [] } :=
        ⟨rfl, fun _ _ _ _ => rfl, fun _ _ h => h, fun _ _ => rfl, fun _ _ h => nomatch h⟩
      obtain ⟨d1, b1⟩ := doEach_deliver (sortOccs s.occs) _ (d0.untraced u) (fun r o ho => m r o ((mem_sortOccs _ _).mp ho))
      obtain ⟨d2, e2, b2⟩ := ih _ (d1.untraced (d0.untraced u)) (fun r o ho => (d1.quiet r o ho).elim (fun h => nomatch h) id)
      exact ⟨(d0.trans d1).trans d2, e2, fun _ o ho p i h hi => d2.events _ _ (b1 o ((mem_sortOccs _ _).mpr ho) p i h hi)⟩

theorem Deliv.degradedCheck (s : Hub) : Deliv rel s s.degradedCheck := by
  unfold Hub.degradedCheck
  dsimp only
  split
  · exact Deliv.refl _
  · have d1 := Deliv.setReg (rel := rel) s R.REL_DEGRADED s.degradedNow (.inl (by decide)) (by decide)
    have d2 := d1.trans (Deliv.doEach (f := fun s b => s.raiseOf Ev.DEGRADED (degradedPage b)) (fun s b => Deliv.raise s _ _ (fun _ => by decide))
      ((maskList 22 s.degradedNow).filter (fun b => !bitAt (s.reg R.REL_DEGRADED) b)) _)
    split
    · exact d2.trans (Deliv.raise _ _ _ (fun _ => by decide))
    · exact d2

/-- The degraded modes only add occurrences. -/
theorem degradedCheck_occs (s : Hub) : ∀ o ∈ s.occs, o ∈ s.degradedCheck.occs := by
  intro o ho
  unfold Hub.degradedCheck
  dsimp only
  split
  · exact ho
  · have : ∀ (l : List Nat) (t : Hub), o ∈ t.occs → o ∈ (Machine.doEach l t (fun s b => s.raiseOf Ev.DEGRADED (degradedPage b))).occs := by
      intro l t h
      apply doEach_keeps (fun t => o ∈ t.occs) _ _ l t h
      intro t b h; simp [Hub.raiseOf, Hub.raise, h]
    split
    · simp only [Hub.raise]; exact List.mem_append_left _ (this _ _ ho)
    · exact this _ _ ho

/-- What follows a command on its own edge when nothing waits: its events are delivered. -/
theorem settle_still {h : Hub} (c : h.still) (u : h.untraced) (n : rel = false → ∀ o ∈ h.occs, o.code ≠ Ev.RELEASED) :
    Deliv rel h h.settle ∧ h.settle.occs = [] ∧ (∀ o ∈ h.occs, ∀ p i, eventBit o.code (o.unit.getD 0) = some (p, i) → i < 32 →
      bitAt (h.settle.reg (R.PG_EVENT + p * 0x1000)) i = true) := by
  have e : h.settle = Hub.deliverAll 64 h.degradedCheck := by
    simp only [Hub.settle, follow_still c]
  rw [e]
  have d := Deliv.degradedCheck (rel := rel) h
  obtain ⟨d1, e1, b1⟩ := deliverAll_deliv 64 _ (d.untraced u) (fun r o ho => (d.quiet r o ho).elim (n r o) id)
  exact ⟨d.trans d1, e1, fun o ho => b1 (by decide) o (degradedCheck_occs h o ho)⟩

/-! ### One command -/

theorem deliverAll_occs (n : Nat) (s : Hub) : (Hub.deliverAll n s).occs = [] := by
  induction n generalizing s with
  | zero => rfl
  | succ n ih =>
    unfold Hub.deliverAll
    split
    · assumption
    · exact ih _

/-- What a command leaves: `t` is the hub after a unit answered `h`, over the memories `st`; with `rel` set, RELEASED may be among its events. -/
structure Ran (rel : Bool) (h : Hub) (st : Store) (t : Hub) : Prop where
  rest : h.rest t = { h with occs := [], writes := [], store := st.writeAll h.writes, coops := if rel then (h.rest t).coops else h.coops }
  told : rel = false → ∀ c, (t.coop c).told = (h.coop c).told
  keeps : h.keeps t (if rel then [R.COOP_RUNS, R.COOP_RUNS + 0x1000, R.COOP_EVLOSS, R.COOP_EVLOSS + 0x1000] else [])
  bus : t.bus = h.bus
  shows : ∀ o ∈ h.occs, (∀ p i, eventBit o.code (o.unit.getD 0) = some (p, i) → i < 32) → t.shows o.code (o.unit.getD 0) = true
  kept : ∀ p i, bitAt (h.reg (R.PG_EVENT + p * 0x1000)) i = true → bitAt (t.reg (R.PG_EVENT + p * 0x1000)) i = true

theorem Deliv.ran {h k : Hub} (st : Store) (d : Deliv rel h k) (e : k.occs = []) (b : ∀ o ∈ h.occs, ∀ p i,
    eventBit o.code (o.unit.getD 0) = some (p, i) → i < 32 → bitAt (k.reg (R.PG_EVENT + p * 0x1000)) i = true) :
    Ran rel h st (k.drivePins.commit st) := by
  have w := d.core
  have wr : k.writes = h.writes := (show (h.undelivered k).writes = _ by rw [w])
  have bu : k.bus = h.bus := (show (h.undelivered k).bus = _ by rw [w])
  refine ⟨?_, fun r c => d.told r c, fun a b' n m => ?_, bu, ?_, d.events⟩
  · have : h.rest (k.drivePins.commit st) =
        { h.undelivered k with
          bus := h.bus
          pins := h.pins
          occs := []
          writes := []
          coops := (h.rest (k.drivePins.commit st)).coops
          store := st.writeAll k.writes } := by
      simp only [Hub.rest, Hub.commit, Hub.drivePins, Hub.undelivered, e]
    have c : (h.rest (k.drivePins.commit st)).coops = if rel then (h.rest (k.drivePins.commit st)).coops else h.coops := by
      cases rel with
      | true => rfl
      | false =>
        have n : ((k.drivePins.commit st).coop 0).told = (h.coop 0).told ∧ ((k.drivePins.commit st).coop 1).told = (h.coop 1).told :=
          ⟨d.told rfl 0, d.told rfl 1⟩
        simp only [Hub.rest, n, and_self, if_true]
        rfl
    rw [this, w, wr]
    exact congrArg (fun x => ({ h with occs := [], writes := [], store := st.writeAll h.writes, coops := x } : Hub)) c
  · refine d.regs a b' n (fun r => ?_)
    subst r
    simpa [releaseKey] using m
  · intro o ho n
    unfold Hub.shows
    split
    · rename_i p i he
      exact b o ho p i he (n p i he)
    · rfl

/-- A unit that leaves nothing waiting and no trace running: the command answers a next state that shows what the unit did and the events it
raised, and nothing more; with RELEASED among them, what the coopers' RELEASE scripts do as they start, besides. -/
theorem run_spec (f : Hub → Hub) (s : State) (c : (f s.hub).still) (u : (f s.hub).untraced)
    (n : rel = false → ∀ o ∈ (f s.hub).occs, o.code ≠ Ev.RELEASED) :
    ∃ t, run f s = .next { s with hub := t } ∧ Ran rel (f s.hub) s.hub.store t := by
  obtain ⟨d, e, b⟩ := settle_still c u n
  exact ⟨_, rfl, d.ran _ e b⟩

/-- Every command that goes on leaves clean memories and nothing raised or written behind. -/
theorem run_clean (f : Hub → Hub) (s t : State) (h : run f s = .next t) (c : s.hub.store.wf = true) : t.clean = true := by
  simp only [run, Host.Outcome.next.injEq] at h
  subst h
  have e : (f s.hub).settle.occs = [] := deliverAll_occs _ _
  simp only [State.clean, Hub.commit, Hub.drivePins, e, Store.writeAll_wf _ _ c]
  rfl

/-- A register command the bus takes, with no fault planted: what the unit does, answered OK. -/
theorem cmd_taken {s : Hub} {r : Req} {addr v : Nat} {f : Hub → Hub} (t : s.takesWrite r addr v = true) (i : (f s).rel.inject = none) :
    s.cmd r addr v f = (f s).respond r 0 St.OK := by
  unfold Hub.takesWrite at t
  simp [Hub.cmd, Hub.command, t, Hub.usePage, Hub.planted, Hub.respond, i]

/-- The pairs of the bus: what a requester last saw. -/
theorem respond_took (h : Hub) (r : Req) : (h.respond r 0 St.OK).tookWrite r := by
  simp [Hub.tookWrite, Hub.respond]

end Sys2Proof.Machine
end

