-- ==== Sys2Proof/Tests/Slice0.lean ====
section
/-! SUPPORT. Tests on small states: ill-formed commands, one step of each family, and states that meet the hypotheses of every statement. -/

namespace Sys2Proof.Machine

set_option Elab.async false

/-! ### States the tests start from -/

/-- A lead hub of 8 columns and 4 rows, released, with a time base, at GCN 100,000. -/
def Hub.live (h : Hub) : Hub :=
  let h := ((((h.setReg R.GLB_GRID 0x00040408).wr F.BOOT_STATUS_STEP 9).wr F.GLB_HUB_LEAD 1).wr F.GLB_HUB_HUB 130).wr F.TIME_EPOCH_EPOCH 1
  { h with time := { h.time with powered := true, gcn := 100000, hclk := 200000 }, pins := { h.pins with tileHold := false } }

/-- That hub with a change made to it, and no command waiting. -/
def on (f : Hub → Hub) : State := { State.reset with hub := f State.reset.hub.live }

/-- A stopped domain in slot 3 with tiles 5 and 6. -/
def Hub.stopped3 (h : Hub) : Hub :=
  let x : Tile := { st := .inContext, slot := 3, scnValid := true, gated := true, scn := 70 }
  ((h.setDom 3 { st := .stopped, scn := 70, consistent := true }).setTile 5 x).setTile 6 x

/-- A running domain in slot 3 with tiles 5 and 6. -/
def Hub.running3 (h : Hub) : Hub :=
  let x : Tile := { st := .inContext, slot := 3, scnValid := true, scn := 70 }
  ((h.setDom 3 { st := .running, scn := 70, consistent := true }).setTile 5 x).setTile 6 x

/-- A cellar that is READY and empty. -/
def Hub.cellar1 (h : Hub) : Hub :=
  let g : Geo := ⟨0x200000, 1, 0, 16⟩
  { h.wr F.CELL_STATE_STATE 1 with cell := { base := 0x200000, units := 1, caskCode := 0, ringMib := 16, pool := g.pool } }

/-- A cooper that runs at the word `w`. -/
def script1 (w : Nat) (x : Cooper) : Cooper := { x with st := .running, prog := ⟨[(x.pc, BitVec.ofNat 32 w)]⟩ }

/-- A pattern pack of the press lanes, with one random pattern and no body. -/
def packW : List Byte :=
  let h := le 4 0x4B434150 ++ le 2 1 ++ le 1 1 ++ le 1 1 ++ le 4 68 ++ le 2 64 ++ le 2 256 ++ le 8 1 ++ le 4 1 ++ zeros 32
  h ++ le 4 (crc32c h) ++ le 4 (crc32c [])

/-- An image of 100 bytes: the header, one package section without records, the check word. -/
def testImage : List Byte :=
  [68, 89, 83, 75, 1, 0, 1, 0, 100, 0, 0, 0, 7, 0, 0, 0, 1, 0, 0, 0, 0, 0, 0, 0, 0, 0, 0, 0, 0, 0, 0, 0] ++
  [0, 0, 0, 0, 0, 0, 0, 0, 0, 0, 0, 0, 0, 0, 0, 0, 0, 0, 0, 0, 0, 0, 0, 0, 0, 0, 0, 0, 232, 248, 190, 24] ++
  [1, 0, 128, 0, 16, 0, 0, 0, 0, 0, 0, 0, 234, 154, 112, 66, 0, 0, 0, 0, 0, 0, 0, 0, 0, 0, 0, 0, 0, 0, 0, 0, 53, 177, 155, 125]

/-- A hub in start-up step 4 whose fuses say that a flash is fitted. -/
def Hub.booting (h : Hub) : Hub :=
  { h.wr F.BOOT_STATUS_STEP 4 with boot := { h.boot with fuses := h.boot.fuses.set 6 0x40000000 } }

/-! ### Ill-formed commands -/

/-- An image header is 64 bytes (R381). -/
theorem test_wf_header : Instr.WellFormed (.flashHeaderRead (zeros 63)) = false ∧ Instr.WellFormed (.flashHeaderRead (zeros 64)) = true := by
  decide +kernel

/-- A codeword is 544 symbols (R341). -/
theorem test_wf_codeword : Instr.WellFormed (.pcsCodewordRx (List.replicate 514 0)) = false := by decide +kernel

/-- A flit is 80 bytes (R344). -/
theorem test_wf_flit : Instr.WellFormed (.flitRx (zeros 64)) = false ∧ Instr.WellFormed (.initFlitRx (zeros 81)) = false := by decide +kernel

/-- A power window ends with sixteen counts (R85). -/
theorem test_wf_window : Instr.WellFormed (.powerWindowEnd (List.replicate 15 0)) = false := by decide +kernel

/-- A delivery is 64 bytes (R493). -/
theorem test_wf_delivery : Instr.WellFormed (.memoryDelivery 5 3 (zeros 63) 0 0 false) = false := by decide +kernel

/-- The state after a step that goes on has the property. -/
def after (o : Host.Outcome State Fault Refusal) (p : Hub → Bool) : Bool :=
  match o with
  | .next t => p t.hub
  | _ => false

/-- An ill-formed command stops in the fault malformed. -/
theorem test_malformed_flit : exec (.flitRx []) State.reset = .fault .malformed := rfl

/-! ### The vectors of R260 -/

theorem test_mix64_multiply : mix64 0 1 = 0xBF584768E626DED1 := by decide +kernel

theorem test_mix64_shift : mix64 0 0x10000000000 = 0x9574933D626FEBCE := by decide +kernel

theorem test_mix64_offset : mix64 8 0xF1BBCDCBFA53E0A8 = 0 := by decide +kernel

/-! ### One step each -/

/-- The step takes the command in front and leaves the rest (R465). -/
theorem test_step_takes_front :
    step { State.reset with pending := [.tapReset, .coopNop 0] } = exec .tapReset { State.reset with pending := [.coopNop 0] } := rfl

/-- ADDI of 0 and minus 1 wraps (R442); a write to W0 is ignored (R437). -/
theorem test_addi_wraps : after (exec (.coopAddi 0) (on (fun h => h.setCoop 0 (script1 0x10C7FFFF {}))))
    (fun h => ((h.coop 0).w.get 3 0).toNat == 0xFFFFFFFF && (h.coop 0).pc == 1) = true := by decide +kernel

theorem test_write_to_w0_is_ignored : after (exec (.coopLi 0) (on (fun h => h.setCoop 0 (script1 0x08000007 {}))))
    (fun h => (h.coop 0).reg 0 == 0) = true := by decide +kernel

/-- The all-zero word halts with cause ILLEGAL (R442). -/
theorem test_zero_word_halts : after (exec (.coopNop 0) (on (fun h => h.setCoop 0 (script1 0 {}))))
    (fun h => (h.coop 0).st == .halted && (h.coop 0).cause == Cc.ILLEGAL) = true := by decide +kernel

/-- GLB_CMD while DONE is 0 is refused with BUSY (R469, R472). -/
theorem test_glb_busy : after (exec (.glbOpen .mgmt) (on (fun h => h.wr F.GLB_CMD_STATUS_DONE 0)))
    (fun h => (h.bus.get (reqCode .mgmt) {}).status == St.BUSY && h.rd F.GLB_REFUSED_COUNT_COUNT == 1) = true := by decide +kernel

/-- A port requester may not end another's ownership (R467). -/
theorem test_force_release_denied : after (exec (.forceRelease .port 0x19#8) (on (fun h => { h with owners := h.owners.set 0x19 1 })))
    (fun h => (h.bus.get (reqCode .port) {}).status == St.DENIED && h.owner 0x19 == 1) = true := by decide +kernel

/-- A step with no command is one period: both counts step (R37, R43). -/
theorem test_period_counts : after (step (on (fun h => h))) (fun h => h.time.gcn == 100001 && h.time.hclk == 200001) = true := by
  decide +kernel

/-! ### The vectors of R237 and its example -/

theorem test_draws : draw 0 0 0 0 0 = 0x00042021 ∧ draw 0 0 0 0 1 = 0x04080601 ∧ draw 0 0 0 0 2 = 0x9DCCA8C5 := by decide +kernel

theorem test_draw_seed : drawState 1 0 0 = 0x9E3779B1 ∧ draw 1 0 0 0 0 = 0x512D4711 := by decide +kernel

theorem test_draw_tile_term : drawU 0x100000000 0x12E4 0x12E40000 = 1 ∧ draw 0x100000000 0x12E4 0x12E40000 0 0 = 0x512D4711 := by
  decide +kernel

/-- 1.3 to FP4 E2M1 by SR: element 0 becomes 1.5, element 2 becomes 1.0. -/
theorem test_stochastic_conversion :
    convert Ef.E2M1 true false (some (draw 0 0 0 0 0)) (valueOf Ef.FP32 0x3FA66666) = 3 ∧
    convert Ef.E2M1 true false (some (draw 0 0 0 0 2)) (valueOf Ef.FP32 0x3FA66666) = 2 ∧
    convert Ef.E2M1 true false none (valueOf Ef.FP32 0x3FA66666) = 3 := by decide +kernel

/-- The hypotheses of a_step_without_a_command_is_one_period can be met, clause by clause. -/
theorem witness_a_step_without_a_command_is_one_period :
    (State.reset.pending = [] ∧ State.reset.hub.time.powered = false) ∧
    ((on (fun h => h)).pending = [] ∧ (on (fun h => h)).hub.time.powered = true ∧ (on (fun h => h)).hub.calm = true ∧
     (on (fun h => h)).hub.openSlots = [] ∧ (on (fun h => h)).hub.corks = [] ∧ (on (fun h => h)).hub.waveCrc = [] ∧
     (on (fun h => h)).hub.bist.runs = [] ∧ (on (fun h => h)).hub.tiles.cells.all (fun p => p.2.wave.isNone && !p.2.rstAck) = true ∧ (on (fun h => h)).hub.flag F.LINK_CTRL_PCS_LOOPBACK = false) := by
  and_intros <;> decide +kernel

/-- Both hypotheses of well_formed_commands_complete can be met. -/
theorem witness_well_formed_commands_complete :
    Instr.WellFormed .tapReset = true ∧ Instr.WellFormed (.flitRx []) = false := by
  and_intros <;> decide +kernel

/-- The hypotheses of every_step_keeps_the_machine_clean can be met. -/
theorem witness_every_step_keeps_the_machine_clean :
    (on (fun h => h)).clean = true ∧ goesOn (step (on (fun h => h))) = true := by
  and_intros <;> decide +kernel

/-- The hypotheses of every_step_drives_the_outputs can be met. -/
theorem witness_every_step_drives_the_outputs :
    State.reset.hub.driven = true ∧ goesOn (step State.reset) = true := by
  and_intros <;> decide +kernel

/-- The hypotheses of a_refused_register_write_changes_nothing_but_its_record can be met. -/
theorem witness_a_refused_register_write_changes_nothing_but_its_record :
    (on (fun h => h.wr F.GLB_CMD_STATUS_DONE 0)).hub.calm = true ∧
    asWrite (on (fun h => h.wr F.GLB_CMD_STATUS_DONE 0)).hub (.glbOpen .mgmt) = some (.mgmt, R.GLB_CMD, 1) ∧
    (on (fun h => h.wr F.GLB_CMD_STATUS_DONE 0)).hub.accessStatus .mgmt R.GLB_CMD true (1 % 2 ^ 32) = St.BUSY ∧ St.BUSY ≠ St.OK := by
  decide +kernel

/-- The hypotheses of changing_a_word_changes_the_digest can be met, clause by clause, at the ends of their ranges. -/
theorem witness_changing_a_word_changes_the_digest :
    ((2 ^ 64 - 1 : Nat) < 2 ^ 64 ∧ mix64 8 (2 ^ 64 - 1) = mix64 8 (2 ^ 64 - 1)) ∧ ((0 : Nat) < 2 ^ 64) ∧
    ((zeros 8).length = 8 * 1 ∧ (zeros 8).length = 8 ∧ (List.replicate 8 (255 : Byte)).length = 8 ∧ (zeros 0).length % 8 = 0 ∧
      zeros 8 ≠ List.replicate 8 (255 : Byte)) := by
  and_intros <;> decide +kernel

/-- The hypotheses of glb_commands_form_and_clear_contexts can be met, clause by clause. -/
theorem witness_glb_commands_form_and_clear_contexts :
    ((on (fun h => h)).hub.calm = true ∧ (on (fun h => h)).hub.takesWrite (.mgmt : Req) R.GLB_CMD 1 = true ∧ (on (fun h => h)).hub.rd F.GLB_CTX_SEL_SLOT = (0 : Nat) ∧ (on (fun h => h)).hub.glbCheck (.mgmt : Req) 1 = St.OK) ∧
    ((on (fun h => (h.stopped3.wr F.GLB_CTX_SEL_SLOT 3).setReg R.GLB_CTX_RECT 0x00040004)).hub.calm = true ∧ (on (fun h => (h.stopped3.wr F.GLB_CTX_SEL_SLOT 3).setReg R.GLB_CTX_RECT 0x00040004)).hub.takesWrite (.mgmt : Req) R.GLB_CMD 2 = true ∧ (on (fun h => (h.stopped3.wr F.GLB_CTX_SEL_SLOT 3).setReg R.GLB_CTX_RECT 0x00040004)).hub.rd F.GLB_CTX_SEL_SLOT = (3 : Nat) ∧ (on (fun h => (h.stopped3.wr F.GLB_CTX_SEL_SLOT 3).setReg R.GLB_CTX_RECT 0x00040004)).hub.glbCheck (.mgmt : Req) 2 = St.OK ∧ (4 : Nat) ∈ (on (fun h => (h.stopped3.wr F.GLB_CTX_SEL_SLOT 3).setReg R.GLB_CTX_RECT 0x00040004)).hub.parkedIn (rectOf ((on (fun h => (h.stopped3.wr F.GLB_CTX_SEL_SLOT 3).setReg R.GLB_CTX_RECT 0x00040004)).hub.reg R.GLB_CTX_RECT))) ∧
    ((on (fun h => (h.stopped3.wr F.GLB_CTX_SEL_SLOT 3).setReg R.GLB_CTX_RECT 0x00060005)).hub.calm = true ∧ (on (fun h => (h.stopped3.wr F.GLB_CTX_SEL_SLOT 3).setReg R.GLB_CTX_RECT 0x00060005)).hub.takesWrite (.mgmt : Req) R.GLB_CMD 3 = true ∧ (on (fun h => (h.stopped3.wr F.GLB_CTX_SEL_SLOT 3).setReg R.GLB_CTX_RECT 0x00060005)).hub.rd F.GLB_CTX_SEL_SLOT = (3 : Nat) ∧ (on (fun h => (h.stopped3.wr F.GLB_CTX_SEL_SLOT 3).setReg R.GLB_CTX_RECT 0x00060005)).hub.glbCheck (.mgmt : Req) 3 = St.OK ∧ (5 : Nat) ∈ (on (fun h => (h.stopped3.wr F.GLB_CTX_SEL_SLOT 3).setReg R.GLB_CTX_RECT 0x00060005)).hub.slotTilesIn (3 : Nat) (rectOf ((on (fun h => (h.stopped3.wr F.GLB_CTX_SEL_SLOT 3).setReg R.GLB_CTX_RECT 0x00060005)).hub.reg R.GLB_CTX_RECT))) ∧
    ((on (fun h => h.stopped3.wr F.GLB_CTX_SEL_SLOT 3)).hub.calm = true ∧ (on (fun h => h.stopped3.wr F.GLB_CTX_SEL_SLOT 3)).hub.takesWrite (.mgmt : Req) R.GLB_CMD 4 = true ∧ (on (fun h => h.stopped3.wr F.GLB_CTX_SEL_SLOT 3)).hub.rd F.GLB_CTX_SEL_SLOT = (3 : Nat) ∧ (on (fun h => h.stopped3.wr F.GLB_CTX_SEL_SLOT 3)).hub.glbCheck (.mgmt : Req) 4 = St.OK ∧ (5 : Nat) ∈ (on (fun h => h.stopped3.wr F.GLB_CTX_SEL_SLOT 3)).hub.slotTiles (3 : Nat)) := by
  and_intros <;> decide +kernel

/-- The hypotheses of page_headers_are_claimed_released_and_locked can be met, clause by clause. -/
theorem witness_page_headers_are_claimed_released_and_locked :
    ((on (fun h => h)).hub.calm = true ∧ (on (fun h => h)).hub.takesWrite (.port : Req) (R.PG_OWNER + 0x1000 * (0x19#8 : BitVec 8).toNat) (2 ^ F.PG_OWNER_CLAIM.lo) = true ∧ ownable (0x19#8 : BitVec 8).toNat = true ∧ (on (fun h => h)).hub.owner (0x19#8 : BitVec 8).toNat = 0) ∧
    ((on (fun h => { h with owners := h.owners.set 0x19 2 })).hub.calm = true ∧ (on (fun h => { h with owners := h.owners.set 0x19 2 })).hub.takesWrite (.port : Req) (R.PG_OWNER + 0x1000 * (0x19#8 : BitVec 8).toNat) (2 ^ F.PG_OWNER_RELEASE.lo) = true ∧ ownable (0x19#8 : BitVec 8).toNat = true ∧ (on (fun h => { h with owners := h.owners.set 0x19 2 })).hub.owner (0x19#8 : BitVec 8).toNat = reqCode (.port : Req) + 1) ∧
    ((on (fun h => { h with owners := h.owners.set 0x19 2 })).hub.calm = true ∧ (on (fun h => { h with owners := h.owners.set 0x19 2 })).hub.takesWrite (.mgmt : Req) (R.PG_OWNER + 0x1000 * (0x19#8 : BitVec 8).toNat) (2 ^ F.PG_OWNER_FORCE_RELEASE.lo) = true ∧ ownable (0x19#8 : BitVec 8).toNat = true) ∧
    ((on (fun h => h)).hub.calm = true ∧ (on (fun h => h)).hub.takesWrite (.mgmt : Req) (R.PG_CTRL + 0x1000 * (0x19#8 : BitVec 8).toNat) ((on (fun h => h)).hub.reg (R.PG_CTRL + 0x1000 * (0x19#8 : BitVec 8).toNat) % 2 + 2 ^ F.PG_CTRL_LOCK.lo) = true ∧ lockable (0x19#8 : BitVec 8).toNat = true) ∧
    ((on (fun h => h)).hub.calm = true ∧ (on (fun h => h)).hub.takesWrite (.mgmt : Req) (R.PG_EVENT_FORCE + 0x1000 * (0x19#8 : BitVec 8).toNat) (0xFF#32 : Word).toNat = true ∧ pageExists (0x19#8 : BitVec 8).toNat = true ∧ (on (fun h => h)).hub.scrapped = false ∧ bitAt (0xFF#32 : Word).toNat (2 : Nat) = true ∧ (2 : Nat) < eventCount (0x19#8 : BitVec 8).toNat) ∧
    ((on (fun h => h.wr F.REL_CMD_STATUS_DONE 0)).hub.calm = true ∧ (on (fun h => h.wr F.REL_CMD_STATUS_DONE 0)).hub.takesWrite (.mgmt : Req) (R.PG_CTRL + 0x1000 * (0x23#8 : BitVec 8).toNat) ((on (fun h => h.wr F.REL_CMD_STATUS_DONE 0)).hub.reg (R.PG_CTRL + 0x1000 * (0x23#8 : BitVec 8).toNat) % 2 + 2 ^ F.PG_CTRL_SOFT_RESET.lo) = true ∧ pageExists (0x23#8 : BitVec 8).toNat = true ∧ softIgnored (0x23#8 : BitVec 8).toNat = false ∧ (on (fun h => h.wr F.REL_CMD_STATUS_DONE 0)).hub.pageBusy (0x23#8 : BitVec 8).toNat = true) ∧
    ((on (fun h => h.err Er.DIGEST_ARG_BUSY)).hub.calm = true ∧ (on (fun h => h.err Er.DIGEST_ARG_BUSY)).hub.takesWrite (.mgmt : Req) (R.PG_CTRL + 0x1000 * (0x1F#8 : BitVec 8).toNat) ((on (fun h => h.err Er.DIGEST_ARG_BUSY)).hub.reg (R.PG_CTRL + 0x1000 * (0x1F#8 : BitVec 8).toNat) % 2 + 2 ^ F.PG_CTRL_SOFT_RESET.lo) = true ∧ (0x1F#8 : BitVec 8).toNat ∈ [Pg.HARV, Pg.CELL, Pg.TRACE, Pg.TASTE, Pg.NUMW, Pg.DIGEST, Pg.RSET, Pg.BIST, Pg.REL, Pg.FED] ∧ (on (fun h => h.err Er.DIGEST_ARG_BUSY)).hub.pageBusy (0x1F#8 : BitVec 8).toNat = false) := by
  and_intros <;> decide +kernel

/-- The hypotheses of register_reads_and_writes_reach_their_register can be met, clause by clause. -/
theorem witness_register_reads_and_writes_reach_their_register :
    ((on (fun h => h)).hub.calm = true ∧ (on (fun h => h)).hub.takesWrite (.mgmt : Req) R.GLB_CTX_RECT (0x01020304#32 : Word).toNat = true ∧ (on (fun h => h)).hub.flag F.GLB_CMD_STATUS_DONE = true) ∧
    ((on (fun h => h.wr F.GLB_CMD_STATUS_DONE 0)).hub.calm = true ∧ (on (fun h => h.wr F.GLB_CMD_STATUS_DONE 0)).hub.takesWrite (.mgmt : Req) R.GLB_CTX_RECT (0x01020304#32 : Word).toNat = true ∧ (on (fun h => h.wr F.GLB_CMD_STATUS_DONE 0)).hub.flag F.GLB_CMD_STATUS_DONE = false) ∧
    ((on (fun h => h)).hub.calm = true ∧ (regDef (normAddr (0x00FFC#20 : BitVec 20).toNat)).isNone = true) ∧
    ((on (fun h => h.setReg64 R.CELL_BASE_LO 0x123456789A)).hub.calm = true ∧ (on (fun h => h.setReg64 R.CELL_BASE_LO 0x123456789A)).hub.accessStatus (.mgmt : Req) (R.CELL_BASE_LO : BitVec 20).toNat false 0 = St.OK ∧ (regDef (normAddr (R.CELL_BASE_LO : BitVec 20).toNat)).isSome = true ∧ inWindow (normAddr (R.CELL_BASE_LO : BitVec 20).toNat) = false ∧ isHi (normAddr (R.CELL_BASE_LO : BitVec 20).toNat) = false ∧ [R.TASTE_EVID_DATA, R.COOP_PROG_DATA, R.COOP_DATA_DATA, R.AUTH_DATA, R.TIME_GCN_LO].contains (baseAddr (normAddr (R.CELL_BASE_LO : BitVec 20).toNat)) = false ∧ isLo (normAddr (R.CELL_BASE_LO : BitVec 20).toNat) = true) ∧
    ((on (fun h => h)).hub.calm = true) ∧
    ((on (fun h => h)).hub.calm = true) ∧
    ((on (fun h => h)).hub.calm = true) ∧
    ((on (fun h => { h with pins := { h.pins with i3cPtr := R.GLB_HUB } })).hub.calm = true ∧ (on (fun h => { h with pins := { h.pins with i3cPtr := R.GLB_HUB } })).hub.pins.i3cPtr = (R.GLB_HUB : Nat) ∧ (on (fun h => { h with pins := { h.pins with i3cPtr := R.GLB_HUB } })).hub.accessStatus .i3c (R.GLB_HUB : Nat) false 0 = St.OK ∧ (regDef (normAddr (R.GLB_HUB : Nat))).isSome = true ∧ inWindow (normAddr (R.GLB_HUB : Nat)) = false ∧ isHi (normAddr (R.GLB_HUB : Nat)) = false ∧ [R.TASTE_EVID_DATA, R.COOP_PROG_DATA, R.COOP_DATA_DATA, R.AUTH_DATA, R.TIME_GCN_LO].contains (baseAddr (normAddr (R.GLB_HUB : Nat))) = false ∧ isLo (normAddr (R.GLB_HUB : Nat)) = false) ∧
    ((on (fun h => h)).hub.calm = true) := by
  and_intros <;> decide +kernel

/-- The hypotheses of the_spur_window_reaches_the_selected_spur can be met, clause by clause. -/
theorem witness_the_spur_window_reaches_the_selected_spur :
    ((on (fun h => h.stopped3.setReg R.SPURW_TILE 5)).hub.calm = true ∧ (on (fun h => h.stopped3.setReg R.SPURW_TILE 5)).hub.rd F.SPURW_TILE_TILE = (5 : Nat) ∧ (on (fun h => h.stopped3.setReg R.SPURW_TILE 5)).hub.accessStatus (.mgmt : Req) (R.SPUR_ID + (0#8 : BitVec 8).toNat) false 0 = St.OK ∧ (regDef (normAddr (R.SPUR_ID + (0#8 : BitVec 8).toNat))).isSome = true ∧ isHi (R.SPUR_ID + (0#8 : BitVec 8).toNat) = false ∧ isLo (R.SPUR_ID + (0#8 : BitVec 8).toNat) = false ∧ R.SPUR_ID + (0#8 : BitVec 8).toNat ≠ R.SPUR_SRAM_HI ∧ (on (fun h => h.stopped3.setReg R.SPURW_TILE 5)).hub.spurStatus (.mgmt : Req) (5 : Nat) (R.SPUR_ID + (0#8 : BitVec 8).toNat) false = St.OK) ∧
    ((on (fun h => h.stopped3.setReg R.SPURW_TILE 5)).hub.calm = true ∧ (on (fun h => h.stopped3.setReg R.SPURW_TILE 5)).hub.rd F.SPURW_TILE_TILE = (5 : Nat)) ∧
    ((on (fun h => h.stopped3.setReg R.SPURW_TILE 5)).hub.calm = true ∧ (on (fun h => h.stopped3.setReg R.SPURW_TILE 5)).hub.rd F.SPURW_TILE_TILE = (5 : Nat) ∧ (on (fun h => h.stopped3.setReg R.SPURW_TILE 5)).hub.accessStatus (.mgmt : Req) R.SPUR_SRAM_LO false 0 = St.OK ∧ (on (fun h => h.stopped3.setReg R.SPURW_TILE 5)).hub.spurStatus (.mgmt : Req) (5 : Nat) R.SPUR_SRAM_LO false = St.OK) ∧
    ((on (fun h => h.stopped3.setReg R.SPURW_TILE 5)).hub.calm = true ∧ (on (fun h => h.stopped3.setReg R.SPURW_TILE 5)).hub.rd F.SPURW_TILE_TILE = (5 : Nat) ∧ (on (fun h => h.stopped3.setReg R.SPURW_TILE 5)).hub.takesWrite (.mgmt : Req) R.SPUR_SRAM_LO (0x12345678#32 : Word).toNat = true ∧ (on (fun h => h.stopped3.setReg R.SPURW_TILE 5)).hub.spurStatus (.mgmt : Req) (5 : Nat) R.SPUR_SRAM_LO true = St.OK) ∧
    ((on (fun h => { h.stopped3.setReg R.SPURW_TILE 5 with stage := h.stage.set 0 7 })).hub.calm = true ∧ (on (fun h => { h.stopped3.setReg R.SPURW_TILE 5 with stage := h.stage.set 0 7 })).hub.rd F.SPURW_TILE_TILE = (5 : Nat) ∧ (on (fun h => { h.stopped3.setReg R.SPURW_TILE 5 with stage := h.stage.set 0 7 })).hub.takesWrite (.mgmt : Req) R.SPUR_SRAM_HI (0x12345678#32 : Word).toNat = true ∧ (on (fun h => { h.stopped3.setReg R.SPURW_TILE 5 with stage := h.stage.set 0 7 })).hub.spurStatus (.mgmt : Req) (5 : Nat) R.SPUR_SRAM_HI true = St.OK ∧ (5 : Nat) * 65536 + ((on (fun h => { h.stopped3.setReg R.SPURW_TILE 5 with stage := h.stage.set 0 7 })).hub.tile (5 : Nat)).sramAddr % 0x10000 = (327680 : Nat)) := by
  and_intros <;> decide +kernel

/-- The hypotheses of memory_port_traffic_of_a_tile_is_counted_and_kept can be met, clause by clause. -/
theorem witness_memory_port_traffic_of_a_tile_is_counted_and_kept :
    ((on (fun h => h.stopped3)).hub.calm = true ∧ (List.replicate 64 7 : List Byte).length = 64 ∧ ((on (fun h => h.stopped3)).hub.tile (5 : TileId)).discards = false ∧ ((on (fun h => h.stopped3)).hub.tile (5 : TileId)).catchBuf.length < 64 ∧ (on (fun h => h.stopped3)).hub.tileRuns (5 : TileId) = false) ∧
    ((on (fun h => h.setTile 5 { discard := true, rdOut := 2 })).hub.calm = true ∧ (List.replicate 64 7 : List Byte).length = 64 ∧ ((on (fun h => h.setTile 5 { discard := true, rdOut := 2 })).hub.tile (5 : TileId)).discards = true) ∧
    ((on (fun h => h.running3)).hub.calm = true ∧ (List.replicate 64 7 : List Byte).length = 64 ∧ ((on (fun h => h.running3)).hub.tile (5 : TileId)).discards = false ∧ ((on (fun h => h.running3)).hub.tile (5 : TileId)).catchBuf = [] ∧ (on (fun h => h.running3)).hub.tileRuns (5 : TileId) = true) ∧
    ((on (fun h => h.setTile 5 { rdOut := 2 })).hub.calm = true) ∧
    ((on (fun h => h.running3)).hub.calm = true ∧ ((on (fun h => h.running3)).hub.tile (5 : TileId)).readmit ≠ 2 ∧ ((on (fun h => h.running3)).hub.tile (5 : TileId)).st = .inContext) := by
  and_intros <;> decide +kernel

/-- The hypotheses of forced_event_bits_reach_the_interrupt_alone can be met, clause by clause. -/
theorem witness_forced_event_bits_reach_the_interrupt_alone :
    ((on (fun h => h)).hub.calm = true ∧ (on (fun h => h)).hub.takesWrite (.mgmt : Req) (R.PG_EVENT_FORCE + 0x1000 * (0x19#8 : BitVec 8).toNat) (0xFF#32 : Word).toNat = true ∧ pageExists (0x19#8 : BitVec 8).toNat = true ∧ (on (fun h => h)).hub.scrapped = false) ∧
    ((on (fun h => { h with boot := { h.boot with life := Life.SCRAPPED } })).hub.calm = true ∧ (on (fun h => { h with boot := { h.boot with life := Life.SCRAPPED } })).hub.takesWrite (.mgmt : Req) (R.PG_EVENT_FORCE + 0x1000 * (0x19#8 : BitVec 8).toNat) (0xFF#32 : Word).toNat = true ∧ (on (fun h => { h with boot := { h.boot with life := Life.SCRAPPED } })).hub.scrapped = true) := by
  and_intros <;> decide +kernel

/-- The hypotheses of power_starts_and_ends_the_block can be met, clause by clause. -/
theorem witness_power_starts_and_ends_the_block :
    (State.reset.hub.time.powered = false) ∧
    ((on (fun h => h)).hub.calm = true ∧ (on (fun h => h)).hub.time.powered = true) ∧
    ((on (fun h => h.booting.wr F.TIME_STATE_IS_MASTER 1)).hub.calm = true ∧ (on (fun h => h.booting.wr F.TIME_STATE_IS_MASTER 1)).hub.inStep 4 = true ∧ (on (fun h => h.booting.wr F.TIME_STATE_IS_MASTER 1)).hub.flag F.TIME_STATE_IS_MASTER = true ∧ (on (fun h => h.booting.wr F.TIME_STATE_IS_MASTER 1)).hub.boot.reading = false ∧ (on (fun h => h.booting.wr F.TIME_STATE_IS_MASTER 1)).hub.elapsed (on (fun h => h.booting.wr F.TIME_STATE_IS_MASTER 1)).hub.linksUpAt 4096 = true) ∧
    ((on (fun h => { h.booting with fed := { h.fed with firstUp := some 0 }, time := { h.time with hclk := 5000000 } })).hub.calm = true ∧ (on (fun h => { h.booting with fed := { h.fed with firstUp := some 0 }, time := { h.time with hclk := 5000000 } })).hub.inStep 4 = true ∧ (on (fun h => { h.booting with fed := { h.fed with firstUp := some 0 }, time := { h.time with hclk := 5000000 } })).hub.isLead = true ∧ (on (fun h => { h.booting with fed := { h.fed with firstUp := some 0 }, time := { h.time with hclk := 5000000 } })).hub.flag F.TIME_CTRL_MASTER = false ∧ (on (fun h => { h.booting with fed := { h.fed with firstUp := some 0 }, time := { h.time with hclk := 5000000 } })).hub.boot.reading = false ∧ (on (fun h => { h.booting with fed := { h.fed with firstUp := some 0 }, time := { h.time with hclk := 5000000 } })).hub.boot.firstFrame = none ∧ (on (fun h => { h.booting with fed := { h.fed with firstUp := some 0 }, time := { h.time with hclk := 5000000 } })).hub.fed.masterSeen = false ∧ (on (fun h => { h.booting with fed := { h.fed with firstUp := some 0 }, time := { h.time with hclk := 5000000 } })).hub.fed.firstUp = some (0 : Nat) ∧ (on (fun h => { h.booting with fed := { h.fed with firstUp := some 0 }, time := { h.time with hclk := 5000000 } })).hub.elapsed (0 : Nat) 4000000 = true) := by
  and_intros <;> decide +kernel

/-- The hypotheses of the_image_is_read_flooded_and_checked can be met, clause by clause. -/
theorem witness_the_image_is_read_flooded_and_checked :
    ((on (fun h => { h.booting with boot := { h.booting.boot with reading := true } })).hub.calm = true ∧ (testImage.take 64 : List Byte).length = 64 ∧ (on (fun h => { h.booting with boot := { h.booting.boot with reading := true } })).hub.inStep 4 = true ∧ (on (fun h => { h.booting with boot := { h.booting.boot with reading := true } })).hub.boot.reading = true ∧ (on (fun h => { h.booting with boot := { h.booting.boot with reading := true } })).hub.boot.flooding = false ∧ bitAt ((on (fun h => { h.booting with boot := { h.booting.boot with reading := true } })).hub.fuseUsed 6) 30 = true ∧ (testImage.take 64 : List Byte).all (fun x => x == 0) = false ∧ (testImage.take 64 : List Byte).all (fun x => x == 0xFF) = false ∧ headerFault (testImage.take 64 : List Byte) = 0) ∧
    ((on (fun h => { h.booting with boot := { h.booting.boot with reading := true } })).hub.calm = true ∧ (List.replicate 64 9 : List Byte).length = 64 ∧ (on (fun h => { h.booting with boot := { h.booting.boot with reading := true } })).hub.inStep 4 = true ∧ (on (fun h => { h.booting with boot := { h.booting.boot with reading := true } })).hub.boot.reading = true ∧ (on (fun h => { h.booting with boot := { h.booting.boot with reading := true } })).hub.boot.flooding = false ∧ bitAt ((on (fun h => { h.booting with boot := { h.booting.boot with reading := true } })).hub.fuseUsed 6) 30 = true ∧ (List.replicate 64 9 : List Byte).all (fun x => x == 0) = false ∧ (List.replicate 64 9 : List Byte).all (fun x => x == 0xFF) = false ∧ headerFault (List.replicate 64 9 : List Byte) ≠ 0) ∧
    ((on (fun h => { h.booting with boot := { h.booting.boot with reading := true, flooding := true, header := testImage.take 64 } })).hub.calm = true ∧ (on (fun h => { h.booting with boot := { h.booting.boot with reading := true, flooding := true, header := testImage.take 64 } })).hub.inStep 4 = true ∧ (on (fun h => { h.booting with boot := { h.booting.boot with reading := true, flooding := true, header := testImage.take 64 } })).hub.boot.reading = true ∧ (on (fun h => { h.booting with boot := { h.booting.boot with reading := true, flooding := true, header := testImage.take 64 } })).hub.boot.flooding = true ∧ (testImage : List Byte) = (on (fun h => { h.booting with boot := { h.booting.boot with reading := true, flooding := true, header := testImage.take 64 } })).hub.boot.header ++ padTo (Img.length (on (fun h => { h.booting with boot := { h.booting.boot with reading := true, flooding := true, header := testImage.take 64 } })).hub.boot.header - 64) ((testImage.drop 64 : List Byte).take (Img.length (on (fun h => { h.booting with boot := { h.booting.boot with reading := true, flooding := true, header := testImage.take 64 } })).hub.boot.header - 64)) ∧ (on (fun h => { h.booting with boot := { h.booting.boot with reading := true, flooding := true, header := testImage.take 64 } })).hub.imageFault (testImage : List Byte) (true : Bool) (true : Bool) = 0 ∧ ((imageSections (testImage : List Byte)).getD []).all (fun x => !(on (fun h => { h.booting with boot := { h.booting.boot with reading := true, flooding := true, header := testImage.take 64 } })).hub.sectionMine x || (x.type == 1 && x.body.length == 16)) = true) ∧
    ((on (fun h => h.booting.setTend 1 { st := Ts.UP })).hub.calm = true ∧ ((on (fun h => h.booting.setTend 1 { st := Ts.UP })).hub.accept2 (1 : TendrilId) (0#8 : BitVec 8).toNat).1 = true ∧ (on (fun h => h.booting.setTend 1 { st := Ts.UP })).hub.boot.stage.any (fun p => p.1 == (24#32 : Word).toNat) = false) ∧
    ((on (fun h => h.booting.setTend 1 { st := Ts.UP })).hub.calm = true ∧ (on (fun h => h.booting.setTend 1 { st := Ts.UP })).hub.takesFrame ({ tendril := 1, dest := 130, src := 131 } : Hdr2) Op.IMAGE_DONE = true ∧ (on (fun h => h.booting.setTend 1 { st := Ts.UP })).hub.inStep 4 = true ∧ (on (fun h => h.booting.setTend 1 { st := Ts.UP })).hub.flag F.TIME_STATE_IS_MASTER = false) ∧
    ((on (fun h => { h.booting.setTend 1 { st := Ts.UP } with boot := { h.booting.boot with stage := (List.range 9).map (fun i => (12 * i, padTo 12 ((testImage.drop (12 * i)).take 12))) } })).hub.calm = true ∧ (on (fun h => { h.booting.setTend 1 { st := Ts.UP } with boot := { h.booting.boot with stage := (List.range 9).map (fun i => (12 * i, padTo 12 ((testImage.drop (12 * i)).take 12))) } })).hub.takesFrame ({ tendril := 1, dest := 130, src := 131 } : Hdr2) Op.IMAGE_DONE = true ∧ (on (fun h => { h.booting.setTend 1 { st := Ts.UP } with boot := { h.booting.boot with stage := (List.range 9).map (fun i => (12 * i, padTo 12 ((testImage.drop (12 * i)).take 12))) } })).hub.inStep 4 = true ∧ (on (fun h => { h.booting.setTend 1 { st := Ts.UP } with boot := { h.booting.boot with stage := (List.range 9).map (fun i => (12 * i, padTo 12 ((testImage.drop (12 * i)).take 12))) } })).hub.flag F.TIME_STATE_IS_MASTER = false ∧ (100#32 : Word) ≠ 0 ∧ (on (fun h => { h.booting.setTend 1 { st := Ts.UP } with boot := { h.booting.boot with stage := (List.range 9).map (fun i => (12 * i, padTo 12 ((testImage.drop (12 * i)).take 12))) } })).hub.received (100#32 : Word).toNat (1214729159#32 : Word).toNat = some (testImage : List Byte) ∧ (on (fun h => { h.booting.setTend 1 { st := Ts.UP } with boot := { h.booting.boot with stage := (List.range 9).map (fun i => (12 * i, padTo 12 ((testImage.drop (12 * i)).take 12))) } })).hub.stageFits (testImage : List Byte) = true ∧ ((imageSections (testImage : List Byte)).getD []).all (fun x => !(on (fun h => { h.booting.setTend 1 { st := Ts.UP } with boot := { h.booting.boot with stage := (List.range 9).map (fun i => (12 * i, padTo 12 ((testImage.drop (12 * i)).take 12))) } })).hub.sectionMine x || (x.type == 1 && x.body.length == 16)) = true) ∧
    ((on (fun h => { h.booting with time := { h.time with hclk := 9000000 } })).hub.calm = true ∧ (on (fun h => { h.booting with time := { h.time with hclk := 9000000 } })).hub.waitsImage = true ∧ (on (fun h => { h.booting with time := { h.time with hclk := 9000000 } })).hub.boot.firstFrame = none ∧ (on (fun h => { h.booting with time := { h.time with hclk := 9000000 } })).hub.elapsed (on (fun h => { h.booting with time := { h.time with hclk := 9000000 } })).hub.linksUpAt 8000000 = true) ∧
    ((on (fun h => { h.booting with time := { h.time with hclk := 30000000 }, boot := { h.booting.boot with firstFrame := some 1 } })).hub.calm = true ∧ (on (fun h => { h.booting with time := { h.time with hclk := 30000000 }, boot := { h.booting.boot with firstFrame := some 1 } })).hub.waitsImage = true ∧ (on (fun h => { h.booting with time := { h.time with hclk := 30000000 }, boot := { h.booting.boot with firstFrame := some 1 } })).hub.boot.firstFrame = some (1 : Nat) ∧ (on (fun h => { h.booting with time := { h.time with hclk := 30000000 }, boot := { h.booting.boot with firstFrame := some 1 } })).hub.elapsed (1 : Nat) 20000000 = true) := by
  and_intros <;> decide +kernel

/-- The hypotheses of boot_self_test_and_release_end_start_up can be met, clause by clause. -/
theorem witness_boot_self_test_and_release_end_start_up :
    ((on (fun h => (h.booting.wr F.BOOT_STATUS_STEP 7).wr F.BOOT_BIST_SEL_TARGETS 2)).hub.calm = true ∧ (on (fun h => (h.booting.wr F.BOOT_STATUS_STEP 7).wr F.BOOT_BIST_SEL_TARGETS 2)).hub.inStep 7 = true ∧ (on (fun h => (h.booting.wr F.BOOT_STATUS_STEP 7).wr F.BOOT_BIST_SEL_TARGETS 2)).hub.boot.kept = []) ∧
    ((on (fun h => { (h.booting.wr F.BOOT_STATUS_STEP 7).wr F.BOOT_BIST_SEL_TARGETS 6 with time := { h.time with hclk := 40000000 } })).hub.calm = true ∧ (on (fun h => { (h.booting.wr F.BOOT_STATUS_STEP 7).wr F.BOOT_BIST_SEL_TARGETS 6 with time := { h.time with hclk := 40000000 } })).hub.inStep 7 = true ∧ (on (fun h => { (h.booting.wr F.BOOT_STATUS_STEP 7).wr F.BOOT_BIST_SEL_TARGETS 6 with time := { h.time with hclk := 40000000 } })).hub.boot.kept = [] ∧ (on (fun h => { (h.booting.wr F.BOOT_STATUS_STEP 7).wr F.BOOT_BIST_SEL_TARGETS 6 with time := { h.time with hclk := 40000000 } })).hub.elapsed (on (fun h => { (h.booting.wr F.BOOT_STATUS_STEP 7).wr F.BOOT_BIST_SEL_TARGETS 6 with time := { h.time with hclk := 40000000 } })).hub.boot.stepAt ((on (fun h => { (h.booting.wr F.BOOT_STATUS_STEP 7).wr F.BOOT_BIST_SEL_TARGETS 6 with time := { h.time with hclk := 40000000 } })).hub.rd F.BOOT_BIST_LIMIT_HCLK) = true) ∧
    ((on (fun h => { h.booting.wr F.BOOT_STATUS_STEP 8 with boot := { h.boot with life := Life.FIELD } })).hub.calm = true ∧ (on (fun h => { h.booting.wr F.BOOT_STATUS_STEP 8 with boot := { h.boot with life := Life.FIELD } })).hub.readyToRelease = true) ∧
    ((on (fun h => { (h.booting.wr F.BOOT_STATUS_STEP 8).wr F.TIME_EPOCH_EPOCH 0 with boot := { h.boot with life := Life.FIELD }, time := { h.time with hclk := 9000000 } })).hub.calm = true ∧ (on (fun h => { (h.booting.wr F.BOOT_STATUS_STEP 8).wr F.TIME_EPOCH_EPOCH 0 with boot := { h.boot with life := Life.FIELD }, time := { h.time with hclk := 9000000 } })).hub.inStep 8 = true ∧ (on (fun h => { (h.booting.wr F.BOOT_STATUS_STEP 8).wr F.TIME_EPOCH_EPOCH 0 with boot := { h.boot with life := Life.FIELD }, time := { h.time with hclk := 9000000 } })).hub.boot.life ≠ Life.BLANK ∧ (on (fun h => { (h.booting.wr F.BOOT_STATUS_STEP 8).wr F.TIME_EPOCH_EPOCH 0 with boot := { h.boot with life := Life.FIELD }, time := { h.time with hclk := 9000000 } })).hub.timeOk = false ∧ (on (fun h => { (h.booting.wr F.BOOT_STATUS_STEP 8).wr F.TIME_EPOCH_EPOCH 0 with boot := { h.boot with life := Life.FIELD }, time := { h.time with hclk := 9000000 } })).hub.isSafe = false ∧ (on (fun h => { (h.booting.wr F.BOOT_STATUS_STEP 8).wr F.TIME_EPOCH_EPOCH 0 with boot := { h.boot with life := Life.FIELD }, time := { h.time with hclk := 9000000 } })).hub.elapsed (on (fun h => { (h.booting.wr F.BOOT_STATUS_STEP 8).wr F.TIME_EPOCH_EPOCH 0 with boot := { h.boot with life := Life.FIELD }, time := { h.time with hclk := 9000000 } })).hub.boot.stepAt 8000000 = true) ∧
    ((on (fun h => h.booting.wr F.BOOT_STATUS_STEP 8)).hub.calm = true ∧ (on (fun h => h.booting.wr F.BOOT_STATUS_STEP 8)).hub.takesWrite .jtag R.BOOT_CMD 1 = true ∧ (on (fun h => h.booting.wr F.BOOT_STATUS_STEP 8)).hub.boot.life = Life.BLANK ∧ (on (fun h => h.booting.wr F.BOOT_STATUS_STEP 8)).hub.boot.released = false) ∧
    ((on (fun h => h.booting.wr F.BOOT_STATUS_STEP 8)).hub.calm = true ∧ (on (fun h => h.booting.wr F.BOOT_STATUS_STEP 8)).hub.takesWrite (.mgmt : Req) R.BOOT_CMD 1 = true ∧ (on (fun h => h.booting.wr F.BOOT_STATUS_STEP 8)).hub.boot.life = Life.BLANK ∧ (on (fun h => h.booting.wr F.BOOT_STATUS_STEP 8)).hub.boot.released = false ∧ (.mgmt : Req) ≠ .jtag) := by
  and_intros <;> decide +kernel

/-- The hypotheses of the_life_cycle_advances_by_burning_fuses can be met, clause by clause. -/
theorem witness_the_life_cycle_advances_by_burning_fuses :
    ((on (fun h => { h.setReg F.LIFE_ARG_TARGET.addr 1 with boot := { h.boot with life := 0 } })).hub.calm = true ∧ (on (fun h => { h.setReg F.LIFE_ARG_TARGET.addr 1 with boot := { h.boot with life := 0 } })).hub.takesWrite (.jtag : Req) R.LIFE_CMD 1 = true ∧ ((on (fun h => { h.setReg F.LIFE_ARG_TARGET.addr 1 with boot := { h.boot with life := 0 } })).hub.wr F.LIFE_STATE_VPP_READY (b2n (true : Bool))).lifeCheck (.jtag : Req) 1 = St.OK) ∧
    ((on (fun h => { h.setReg R.LIFE_KEY_0 77 with boot := { h.boot with life := Life.MANUFACTURE } })).hub.calm = true ∧ (on (fun h => { h.setReg R.LIFE_KEY_0 77 with boot := { h.boot with life := Life.MANUFACTURE } })).hub.takesWrite (.mgmt : Req) R.LIFE_CMD 2 = true ∧ ((on (fun h => { h.setReg R.LIFE_KEY_0 77 with boot := { h.boot with life := Life.MANUFACTURE } })).hub.wr F.LIFE_STATE_VPP_READY (b2n (true : Bool))).lifeCheck (.mgmt : Req) 2 = St.OK) ∧
    ((on (fun h => { h with boot := { h.boot with life := Life.MANUFACTURE } })).hub.calm = true ∧ (on (fun h => { h with boot := { h.boot with life := Life.MANUFACTURE } })).hub.takesWrite (.mgmt : Req) R.LIFE_CMD 3 = true ∧ ((on (fun h => { h with boot := { h.boot with life := Life.MANUFACTURE } })).hub.wr F.LIFE_STATE_VPP_READY (b2n (true : Bool))).lifeCheck (.mgmt : Req) 3 = St.OK) ∧
    ((on (fun h => { h with boot := { h.boot with life := Life.RETURN } })).hub.calm = true ∧ (on (fun h => { h with boot := { h.boot with life := Life.RETURN } })).hub.takesWrite (.mgmt : Req) R.LIFE_CMD 4 = true ∧ ((on (fun h => { h with boot := { h.boot with life := Life.RETURN } })).hub.wr F.LIFE_STATE_VPP_READY (b2n (true : Bool))).lifeCheck (.mgmt : Req) 4 = St.OK) ∧
    ((on (fun h => { h.setReg F.LIFE_ARG_TARGET.addr 1 with boot := { h.boot with life := 0 } })).hub.calm = true ∧ (on (fun h => { h.setReg F.LIFE_ARG_TARGET.addr 1 with boot := { h.boot with life := 0 } })).hub.takesWrite (.jtag : Req) R.LIFE_CMD 1 = true ∧ ((on (fun h => { h.setReg F.LIFE_ARG_TARGET.addr 1 with boot := { h.boot with life := 0 } })).hub.wr F.LIFE_STATE_VPP_READY (b2n (true : Bool))).lifeCheck (.jtag : Req) 1 = St.OK) ∧
    ((on (fun h => { h.setReg R.LIFE_KEY_0 77 with boot := { h.boot with life := Life.MANUFACTURE } })).hub.calm = true ∧ (on (fun h => { h.setReg R.LIFE_KEY_0 77 with boot := { h.boot with life := Life.MANUFACTURE } })).hub.takesWrite (.mgmt : Req) R.LIFE_CMD 2 = true ∧ ((on (fun h => { h.setReg R.LIFE_KEY_0 77 with boot := { h.boot with life := Life.MANUFACTURE } })).hub.wr F.LIFE_STATE_VPP_READY (b2n (true : Bool))).lifeCheck (.mgmt : Req) 2 = St.OK) ∧
    ((on (fun h => { h with boot := { h.boot with life := Life.MANUFACTURE } })).hub.calm = true ∧ (on (fun h => { h with boot := { h.boot with life := Life.MANUFACTURE } })).hub.takesWrite (.mgmt : Req) R.LIFE_CMD 3 = true ∧ ((on (fun h => { h with boot := { h.boot with life := Life.MANUFACTURE } })).hub.wr F.LIFE_STATE_VPP_READY (b2n (true : Bool))).lifeCheck (.mgmt : Req) 3 = St.OK) ∧
    ((on (fun h => { h with boot := { h.boot with life := Life.RETURN } })).hub.calm = true ∧ (on (fun h => { h with boot := { h.boot with life := Life.RETURN } })).hub.takesWrite (.mgmt : Req) R.LIFE_CMD 4 = true ∧ ((on (fun h => { h with boot := { h.boot with life := Life.RETURN } })).hub.wr F.LIFE_STATE_VPP_READY (b2n (true : Bool))).lifeCheck (.mgmt : Req) 4 = St.OK) := by
  and_intros <;> decide +kernel

/-- The hypotheses of grants_begin_with_verify_and_end_with_revoke_or_expiry can be met, clause by clause. -/
theorem witness_grants_begin_with_verify_and_end_with_revoke_or_expiry :
    ((on (fun h => { h with boot := { h.boot with keyBad := true, life := 1 } })).hub.calm = true ∧ (on (fun h => { h with boot := { h.boot with keyBad := true, life := 1 } })).hub.takesWrite (.mgmt : Req) R.AUTH_CMD 1 = true ∧ (on (fun h => { h with boot := { h.boot with keyBad := true, life := 1 } })).hub.authCheck 1 = St.OK) ∧
    ((on (fun h => { h with boot := { h.boot with keyBad := true, life := 1 }, auth := { h.auth with nonceAt := some 200000 } })).hub.calm = true ∧ (on (fun h => { h with boot := { h.boot with keyBad := true, life := 1 }, auth := { h.auth with nonceAt := some 200000 } })).hub.takesWrite (.mgmt : Req) R.AUTH_CMD 2 = true ∧ (on (fun h => { h with boot := { h.boot with keyBad := true, life := 1 }, auth := { h.auth with nonceAt := some 200000 } })).hub.authCheck 2 = St.OK ∧ (on (fun h => { h with boot := { h.boot with keyBad := true, life := 1 }, auth := { h.auth with nonceAt := some 200000 } })).hub.freeGrant = some (0 : Nat)) ∧
    ((on (fun h => { h with boot := { h.boot with keyBad := true, life := 1 }, auth := { h.auth with nonceAt := some 200000 } })).hub.calm = true ∧ (on (fun h => { h with boot := { h.boot with keyBad := true, life := 1 }, auth := { h.auth with nonceAt := some 200000 } })).hub.takesWrite (.mgmt : Req) R.AUTH_CMD 2 = true ∧ (on (fun h => { h with boot := { h.boot with keyBad := true, life := 1 }, auth := { h.auth with nonceAt := some 200000 } })).hub.authCheck 2 = St.OK ∧ ((true : Bool) && (false : Bool)) = false) ∧
    ((on (fun h => { h with auth := { h.auth with grants := h.auth.grants.set 0 { valid := true } } })).hub.calm = true ∧ (on (fun h => { h with auth := { h.auth with grants := h.auth.grants.set 0 { valid := true } } })).hub.takesWrite (.mgmt : Req) R.AUTH_CMD 3 = true ∧ (on (fun h => { h with auth := { h.auth with grants := h.auth.grants.set 0 { valid := true } } })).hub.authCheck 3 = St.OK ∧ (on (fun h => { h with auth := { h.auth with grants := h.auth.grants.set 0 { valid := true } } })).hub.rd F.AUTH_GRANT_SEL_RECORD = (0 : Nat)) ∧
    ((on (fun h => { h with auth := { h.auth with grants := h.auth.grants.set 0 { valid := true, left := 5 } } })).hub.calm = true ∧ (0 : Nat) < 4 ∧ (on (fun h => { h with auth := { h.auth with grants := h.auth.grants.set 0 { valid := true, left := 5 } } })).hub.grantOver ((on (fun h => { h with auth := { h.auth with grants := h.auth.grants.set 0 { valid := true, left := 5 } } })).hub.auth.grants.get (0 : Nat) {}) = true) ∧
    ((on (fun h => { h with auth := { h.auth with nonceAt := some 0 }, time := { h.time with hclk := 2000000000 } })).hub.calm = true ∧ (on (fun h => { h with auth := { h.auth with nonceAt := some 0 }, time := { h.time with hclk := 2000000000 } })).hub.nonceValid = false) ∧
    ((on (fun h => { (h.wr F.AUTH_FAILS_COUNT 8).wr F.AUTH_FAILS_LOCKED 1 with auth := { h.auth with lockedAt := some 0 }, time := { h.time with hclk := 2000000000 } })).hub.calm = true ∧ (on (fun h => { (h.wr F.AUTH_FAILS_COUNT 8).wr F.AUTH_FAILS_LOCKED 1 with auth := { h.auth with lockedAt := some 0 }, time := { h.time with hclk := 2000000000 } })).hub.auth.lockedAt.isSome = true ∧ (on (fun h => { (h.wr F.AUTH_FAILS_COUNT 8).wr F.AUTH_FAILS_LOCKED 1 with auth := { h.auth with lockedAt := some 0 }, time := { h.time with hclk := 2000000000 } })).hub.authLocked = false) := by
  and_intros <;> decide +kernel

/-- The hypotheses of time_commands_set_gcn_epoch_and_clock_changes can be met, clause by clause. -/
theorem witness_time_commands_set_gcn_epoch_and_clock_changes :
    ((on (fun h => (h.wr F.TIME_STATE_IS_MASTER 1).wr F.TIME_EPOCH_EPOCH 0)).hub.calm = true ∧ (on (fun h => (h.wr F.TIME_STATE_IS_MASTER 1).wr F.TIME_EPOCH_EPOCH 0)).hub.takesWrite (.mgmt : Req) R.TIME_CMD 1 = true ∧ (on (fun h => (h.wr F.TIME_STATE_IS_MASTER 1).wr F.TIME_EPOCH_EPOCH 0)).hub.timeCheck 1 = St.OK) ∧
    ((on (fun h => h.wr F.TIME_STATE_IS_MASTER 1)).hub.calm = true ∧ (on (fun h => h.wr F.TIME_STATE_IS_MASTER 1)).hub.takesWrite (.mgmt : Req) R.TIME_CMD 2 = true ∧ (on (fun h => h.wr F.TIME_STATE_IS_MASTER 1)).hub.timeCheck 2 = St.OK) ∧
    ((on (fun h => h.wr F.TIME_STATE_IS_MASTER 1)).hub.calm = true ∧ (on (fun h => h.wr F.TIME_STATE_IS_MASTER 1)).hub.takesWrite (.mgmt : Req) R.TIME_CMD 3 = true ∧ (on (fun h => h.wr F.TIME_STATE_IS_MASTER 1)).hub.timeCheck 3 = St.OK) ∧
    ((on (fun h => (h.wr F.TIME_STATE_IS_MASTER 1).wr F.TIME_CTRL_TBS_EN 1)).hub.calm = true ∧ (on (fun h => (h.wr F.TIME_STATE_IS_MASTER 1).wr F.TIME_CTRL_TBS_EN 1)).hub.takesWrite (.mgmt : Req) R.TIME_CMD 4 = true ∧ (on (fun h => (h.wr F.TIME_STATE_IS_MASTER 1).wr F.TIME_CTRL_TBS_EN 1)).hub.timeCheck 4 = St.OK) ∧
    ((on (fun h => (h.wr F.TIME_CLKCHG_REQ_DIV 2).setReg64 R.TIME_CLKCHG_GCN_LO 200000)).hub.calm = true ∧ (on (fun h => (h.wr F.TIME_CLKCHG_REQ_DIV 2).setReg64 R.TIME_CLKCHG_GCN_LO 200000)).hub.takesWrite (.mgmt : Req) R.TIME_CMD 5 = true ∧ (on (fun h => (h.wr F.TIME_CLKCHG_REQ_DIV 2).setReg64 R.TIME_CLKCHG_GCN_LO 200000)).hub.timeCheck 5 = St.OK ∧ (on (fun h => (h.wr F.TIME_CLKCHG_REQ_DIV 2).setReg64 R.TIME_CLKCHG_GCN_LO 200000)).hub.rd F.TIME_CLKCHG_REQ_PART = (0 : Nat) ∧ (on (fun h => (h.wr F.TIME_CLKCHG_REQ_DIV 2).setReg64 R.TIME_CLKCHG_GCN_LO 200000)).hub.rd F.TIME_CLKCHG_REQ_DIV = (2 : Nat) ∧ (on (fun h => (h.wr F.TIME_CLKCHG_REQ_DIV 2).setReg64 R.TIME_CLKCHG_GCN_LO 200000)).hub.reg64 R.TIME_CLKCHG_GCN_LO = (200000 : Nat) ∧ (on (fun h => (h.wr F.TIME_CLKCHG_REQ_DIV 2).setReg64 R.TIME_CLKCHG_GCN_LO 200000)).hub.clkchgCheck (0 : Nat) (200000 : Nat) = St.OK ∧ (2 : Nat) ≠ (on (fun h => (h.wr F.TIME_CLKCHG_REQ_DIV 2).setReg64 R.TIME_CLKCHG_GCN_LO 200000)).hub.divCode (0 : Nat)) ∧
    ((on (fun h => h.setChg 0 (some (2, 200000)))).hub.calm = true ∧ (on (fun h => h.setChg 0 (some (2, 200000)))).hub.takesWrite (.mgmt : Req) R.TIME_CMD 6 = true ∧ (on (fun h => h.setChg 0 (some (2, 200000)))).hub.timeCheck 6 = St.OK ∧ (on (fun h => h.setChg 0 (some (2, 200000)))).hub.rd F.TIME_CLKCHG_REQ_PART = (0 : Nat) ∧ (on (fun h => h.setChg 0 (some (2, 200000)))).hub.pendingChg (0 : Nat) = some ((2 : Nat), (200000 : Nat)) ∧ reachedGcn ((on (fun h => h.setChg 0 (some (2, 200000)))).hub.now + 64) (200000 : Nat) = true) ∧
    ((on (fun h => h.setChg 0 (some (2, 100010)))).hub.calm = true ∧ (on (fun h => h.setChg 0 (some (2, 100010)))).hub.takesWrite (.mgmt : Req) R.TIME_CMD 6 = true ∧ (on (fun h => h.setChg 0 (some (2, 100010)))).hub.timeCheck 6 = St.OK ∧ (on (fun h => h.setChg 0 (some (2, 100010)))).hub.rd F.TIME_CLKCHG_REQ_PART = (0 : Nat) ∧ (on (fun h => h.setChg 0 (some (2, 100010)))).hub.pendingChg (0 : Nat) = some ((2 : Nat), (100010 : Nat)) ∧ reachedGcn ((on (fun h => h.setChg 0 (some (2, 100010)))).hub.now + 64) (100010 : Nat) = false) := by
  and_intros <;> decide +kernel

/-- The hypotheses of the_time_base_follows_its_own_clock_events can be met, clause by clause. -/
theorem witness_the_time_base_follows_its_own_clock_events :
    ((on (fun h => { h.running3 with time := { h.time with restartAt := some 99990 } })).hub.calm = true ∧ (on (fun h => { h.running3 with time := { h.time with restartAt := some 99990 } })).hub.time.restartAt = some (99990 : Nat) ∧ reachedGcn (99990 : Nat) (on (fun h => { h.running3 with time := { h.time with restartAt := some 99990 } })).hub.time.gcn = true) ∧
    ((on (fun h => h.running3.setChg 1 (some (2, 99990)))).hub.calm = true ∧ (on (fun h => h.running3.setChg 1 (some (2, 99990)))).hub.pendingChg (b2n (true : Bool)) = some ((2 : Nat), (99990 : Nat)) ∧ reachedGcn (99990 : Nat) (on (fun h => h.running3.setChg 1 (some (2, 99990)))).hub.time.gcn = true) ∧
    ((on (fun h => { (((h.wr F.TIME_STATE_IS_MASTER 1).wr F.TIME_CTRL_TBS_EN 1).wr F.TIME_STATE_STATE 2).setTend 1 { st := Ts.UP } with time := { h.time with armGcn := 5000, armEpoch := 2, armComp := -3, armedAt := some 5 } })).hub.calm = true ∧ (on (fun h => { (((h.wr F.TIME_STATE_IS_MASTER 1).wr F.TIME_CTRL_TBS_EN 1).wr F.TIME_STATE_STATE 2).setTend 1 { st := Ts.UP } with time := { h.time with armGcn := 5000, armEpoch := 2, armComp := -3, armedAt := some 5 } })).hub.flag F.TIME_STATE_IS_MASTER = true ∧ (on (fun h => { (((h.wr F.TIME_STATE_IS_MASTER 1).wr F.TIME_CTRL_TBS_EN 1).wr F.TIME_STATE_STATE 2).setTend 1 { st := Ts.UP } with time := { h.time with armGcn := 5000, armEpoch := 2, armComp := -3, armedAt := some 5 } })).hub.flag F.TIME_CTRL_TBS_EN = true ∧ 8 ≤ (9 : Nat) ∧ (match (on (fun h => { (((h.wr F.TIME_STATE_IS_MASTER 1).wr F.TIME_CTRL_TBS_EN 1).wr F.TIME_STATE_STATE 2).setTend 1 { st := Ts.UP } with time := { h.time with armGcn := 5000, armEpoch := 2, armComp := -3, armedAt := some 5 } })).hub.time.lastPulse with | some t => decide (t + 1024 ≤ (on (fun h => { (((h.wr F.TIME_STATE_IS_MASTER 1).wr F.TIME_CTRL_TBS_EN 1).wr F.TIME_STATE_STATE 2).setTend 1 { st := Ts.UP } with time := { h.time with armGcn := 5000, armEpoch := 2, armComp := -3, armedAt := some 5 } })).hub.time.hclk) | none => true) = true ∧ (on (fun h => { (((h.wr F.TIME_STATE_IS_MASTER 1).wr F.TIME_CTRL_TBS_EN 1).wr F.TIME_STATE_STATE 2).setTend 1 { st := Ts.UP } with time := { h.time with armGcn := 5000, armEpoch := 2, armComp := -3, armedAt := some 5 } })).hub.rd F.TIME_STATE_STATE = 2) ∧
    ((on (fun h => (h.wr F.TIME_STATE_IS_MASTER 1).wr F.TIME_CTRL_TBS_EN 1)).hub.calm = true ∧ (on (fun h => (h.wr F.TIME_STATE_IS_MASTER 1).wr F.TIME_CTRL_TBS_EN 1)).hub.flag F.TIME_STATE_IS_MASTER = true ∧ (on (fun h => (h.wr F.TIME_STATE_IS_MASTER 1).wr F.TIME_CTRL_TBS_EN 1)).hub.flag F.TIME_CTRL_TBS_EN = true ∧ ((7 : Nat) < 8 || !(match (on (fun h => (h.wr F.TIME_STATE_IS_MASTER 1).wr F.TIME_CTRL_TBS_EN 1)).hub.time.lastPulse with | some t => decide (t + 1024 ≤ (on (fun h => (h.wr F.TIME_STATE_IS_MASTER 1).wr F.TIME_CTRL_TBS_EN 1)).hub.time.hclk) | none => true)) = true) ∧
    ((on (fun h => { (((h.wr F.TIME_STATE_IS_MASTER 1).wr F.TIME_CTRL_TBS_EN 1).wr F.TIME_TBS_PERIOD_PERIOD 50000) with time := { h.time with pulseGcn := some 49989 } })).hub.calm = true ∧ (on (fun h => { (((h.wr F.TIME_STATE_IS_MASTER 1).wr F.TIME_CTRL_TBS_EN 1).wr F.TIME_TBS_PERIOD_PERIOD 50000) with time := { h.time with pulseGcn := some 49989 } })).hub.flag F.TIME_STATE_IS_MASTER = true ∧ (on (fun h => { (((h.wr F.TIME_STATE_IS_MASTER 1).wr F.TIME_CTRL_TBS_EN 1).wr F.TIME_TBS_PERIOD_PERIOD 50000) with time := { h.time with pulseGcn := some 49989 } })).hub.flag F.TIME_CTRL_TBS_EN = true ∧ 8 ≤ (9 : Nat) ∧ (match (on (fun h => { (((h.wr F.TIME_STATE_IS_MASTER 1).wr F.TIME_CTRL_TBS_EN 1).wr F.TIME_TBS_PERIOD_PERIOD 50000) with time := { h.time with pulseGcn := some 49989 } })).hub.time.lastPulse with | some t => decide (t + 1024 ≤ (on (fun h => { (((h.wr F.TIME_STATE_IS_MASTER 1).wr F.TIME_CTRL_TBS_EN 1).wr F.TIME_TBS_PERIOD_PERIOD 50000) with time := { h.time with pulseGcn := some 49989 } })).hub.time.hclk) | none => true) = true ∧ (on (fun h => { (((h.wr F.TIME_STATE_IS_MASTER 1).wr F.TIME_CTRL_TBS_EN 1).wr F.TIME_TBS_PERIOD_PERIOD 50000) with time := { h.time with pulseGcn := some 49989 } })).hub.rd F.TIME_STATE_STATE ≠ 2 ∧ (on (fun h => { (((h.wr F.TIME_STATE_IS_MASTER 1).wr F.TIME_CTRL_TBS_EN 1).wr F.TIME_TBS_PERIOD_PERIOD 50000) with time := { h.time with pulseGcn := some 49989 } })).hub.nextPulse = some (99989 : Nat) ∧ signed 64 (unsigned 64 (((on (fun h => { (((h.wr F.TIME_STATE_IS_MASTER 1).wr F.TIME_CTRL_TBS_EN 1).wr F.TIME_TBS_PERIOD_PERIOD 50000) with time := { h.time with pulseGcn := some 49989 } })).hub.time.gcn : Int) - 8 - (99989 : Nat))) = (3 : Int)) ∧
    ((on (fun h => { h.wr F.TIME_STATE_STATE 2 with time := { h.time with armedAt := some 5, hclk := 5000000000 } })).hub.calm = true ∧ (on (fun h => { h.wr F.TIME_STATE_STATE 2 with time := { h.time with armedAt := some 5, hclk := 5000000000 } })).hub.time.armedAt = some (5 : Nat) ∧ (on (fun h => { h.wr F.TIME_STATE_STATE 2 with time := { h.time with armedAt := some 5, hclk := 5000000000 } })).hub.rd F.TIME_STATE_STATE = 2 ∧ (on (fun h => { h.wr F.TIME_STATE_STATE 2 with time := { h.time with armedAt := some 5, hclk := 5000000000 } })).hub.elapsed (5 : Nat) (2 ^ 32) = true) ∧
    ((on (fun h => { h.wr F.TIME_TBS_PERIOD_PERIOD 50000 with time := { h.time with pulseGcn := some 49998 } })).hub.calm = true ∧ (on (fun h => { h.wr F.TIME_TBS_PERIOD_PERIOD 50000 with time := { h.time with pulseGcn := some 49998 } })).hub.nextPulse = some (99998 : Nat) ∧ 2 ≤ (on (fun h => { h.wr F.TIME_TBS_PERIOD_PERIOD 50000 with time := { h.time with pulseGcn := some 49998 } })).hub.time.gcn - (99998 : Nat) ∧ (on (fun h => { h.wr F.TIME_TBS_PERIOD_PERIOD 50000 with time := { h.time with pulseGcn := some 49998 } })).hub.time.gcn < (99998 : Nat) + 2 ^ 62) ∧
    ((on (fun h => { h.setTend 1 { st := Ts.UP } with time := { h.time with hclk := 90000000 } })).hub.calm = true ∧ (on (fun h => { h.setTend 1 { st := Ts.UP } with time := { h.time with hclk := 90000000 } })).hub.timeOk = true ∧ (on (fun h => { h.setTend 1 { st := Ts.UP } with time := { h.time with hclk := 90000000 } })).hub.elapsed (on (fun h => { h.setTend 1 { st := Ts.UP } with time := { h.time with hclk := 90000000 } })).hub.time.lastSync (if (on (fun h => { h.setTend 1 { st := Ts.UP } with time := { h.time with hclk := 90000000 } })).hub.rd F.TIME_SYNC_PERIOD_PERIOD < 4096 then 4096 else (on (fun h => { h.setTend 1 { st := Ts.UP } with time := { h.time with hclk := 90000000 } })).hub.rd F.TIME_SYNC_PERIOD_PERIOD) = true) := by
  and_intros <;> decide +kernel

/-- The hypotheses of sync_frames_carry_the_time_to_a_hub can be met, clause by clause. -/
theorem witness_sync_frames_carry_the_time_to_a_hub :
    ((on (fun h => h.setTend 1 { st := Ts.UP })).hub.calm = true ∧ ((on (fun h => h.setTend 1 { st := Ts.UP })).hub.tend (1 : TendrilId)).st = Ts.UP ∧ ((on (fun h => h.setTend 1 { st := Ts.UP })).hub.timeOk && (2#32 : Word).toNat == (on (fun h => h.setTend 1 { st := Ts.UP })).hub.epoch) = false) ∧
    ((on (fun h => h.setTend 1 { st := Ts.UP })).hub.calm = true ∧ ((on (fun h => h.setTend 1 { st := Ts.UP })).hub.tend (1 : TendrilId)).st = Ts.UP ∧ (on (fun h => h.setTend 1 { st := Ts.UP })).hub.timeOk = true ∧ (1#32 : Word).toNat = (on (fun h => h.setTend 1 { st := Ts.UP })).hub.epoch ∧ (on (fun h => h.setTend 1 { st := Ts.UP })).hub.syncDiff (500#64 : BitVec 64).toNat ≠ 0) ∧
    ((on (fun h => (h.setTend 1 { st := Ts.UP }).wr F.TIME_CTRL_SYNC_CHECK_EN 1)).hub.calm = true ∧ ((on (fun h => (h.setTend 1 { st := Ts.UP }).wr F.TIME_CTRL_SYNC_CHECK_EN 1)).hub.tend (1 : TendrilId)).st = Ts.UP ∧ (on (fun h => (h.setTend 1 { st := Ts.UP }).wr F.TIME_CTRL_SYNC_CHECK_EN 1)).hub.fed.joining = false ∧ (on (fun h => (h.setTend 1 { st := Ts.UP }).wr F.TIME_CTRL_SYNC_CHECK_EN 1)).hub.timeOk = true ∧ (on (fun h => (h.setTend 1 { st := Ts.UP }).wr F.TIME_CTRL_SYNC_CHECK_EN 1)).hub.flag F.TIME_CTRL_SYNC_CHECK_EN = true ∧ ((on (fun h => (h.setTend 1 { st := Ts.UP }).wr F.TIME_CTRL_SYNC_CHECK_EN 1)).hub.syncDiff (500#64 : BitVec 64).toNat == 0 && (1#32 : Word).toNat == (on (fun h => (h.setTend 1 { st := Ts.UP }).wr F.TIME_CTRL_SYNC_CHECK_EN 1)).hub.epoch) = false) ∧
    ((on (fun h => h.setTend 1 { st := Ts.UP })).hub.calm = true ∧ ((on (fun h => h.setTend 1 { st := Ts.UP })).hub.tend (1 : TendrilId)).st = Ts.UP ∧ (on (fun h => h.setTend 1 { st := Ts.UP })).hub.fed.joining = false ∧ (on (fun h => h.setTend 1 { st := Ts.UP })).hub.syncDiff (99988#64 : BitVec 64).toNat = 0 ∧ (1#32 : Word).toNat = (on (fun h => h.setTend 1 { st := Ts.UP })).hub.epoch) ∧
    ((on (fun h => h.setTend 1 { st := Ts.UP })).hub.calm = true ∧ ((on (fun h => h.setTend 1 { st := Ts.UP })).hub.tend (1 : TendrilId)).st = Ts.UP ∧ ((on (fun h => h.setTend 1 { st := Ts.UP })).hub.timeOk && (on (fun h => h.setTend 1 { st := Ts.UP })).hub.syncDiff (500#64 : BitVec 64).toNat == 0 && (2#32 : Word).toNat == (on (fun h => h.setTend 1 { st := Ts.UP })).hub.epoch) = false ∧ (match (on (fun h => h.setTend 1 { st := Ts.UP })).hub.time.resyncAt with | some (a, f) => decide (a + 1024 ≤ (on (fun h => h.setTend 1 { st := Ts.UP })).hub.time.hclk) || f != ((131 : Fin 2048) : Nat) | none => true) = true ∧ ((131 : Fin 2048) : Nat) ≠ (on (fun h => h.setTend 1 { st := Ts.UP })).hub.hubAddr) ∧
    ((on (fun h => { h.setTend 1 { st := Ts.UP } with time := { h.time with resyncAt := some (199990, 131) } })).hub.calm = true ∧ ((on (fun h => { h.setTend 1 { st := Ts.UP } with time := { h.time with resyncAt := some (199990, 131) } })).hub.tend (1 : TendrilId)).st = Ts.UP ∧ (on (fun h => { h.setTend 1 { st := Ts.UP } with time := { h.time with resyncAt := some (199990, 131) } })).hub.timeOk = true ∧ ((on (fun h => { h.setTend 1 { st := Ts.UP } with time := { h.time with resyncAt := some (199990, 131) } })).hub.syncDiff (500#64 : BitVec 64).toNat == 0 && (2#32 : Word).toNat == (on (fun h => { h.setTend 1 { st := Ts.UP } with time := { h.time with resyncAt := some (199990, 131) } })).hub.epoch) = false ∧ (!(match (on (fun h => { h.setTend 1 { st := Ts.UP } with time := { h.time with resyncAt := some (199990, 131) } })).hub.time.resyncAt with | some (a, f) => decide (a + 1024 ≤ (on (fun h => { h.setTend 1 { st := Ts.UP } with time := { h.time with resyncAt := some (199990, 131) } })).hub.time.hclk) || f != ((131 : Fin 2048) : Nat) | none => true) || ((131 : Fin 2048) : Nat) == (on (fun h => { h.setTend 1 { st := Ts.UP } with time := { h.time with resyncAt := some (199990, 131) } })).hub.hubAddr) = true) ∧
    ((on (fun h => { h.setTend 1 { st := Ts.UP } with fed := { (h.setTend 1 { st := Ts.UP }).fed with joining := true } })).hub.calm = true ∧ ((on (fun h => { h.setTend 1 { st := Ts.UP } with fed := { (h.setTend 1 { st := Ts.UP }).fed with joining := true } })).hub.tend (1 : TendrilId)).st = Ts.UP ∧ (on (fun h => { h.setTend 1 { st := Ts.UP } with fed := { (h.setTend 1 { st := Ts.UP }).fed with joining := true } })).hub.fed.joining = true) ∧
    ((on (fun h => h.setTend 1 { st := Ts.UP })).hub.calm = true ∧ (on (fun h => h.setTend 1 { st := Ts.UP })).hub.takesFrame ({ tendril := 1, dest := 130, src := 131 } : Hdr2) Op.TIME_REQ = true ∧ (on (fun h => h.setTend 1 { st := Ts.UP })).hub.isSafe = false ∧ (on (fun h => h.setTend 1 { st := Ts.UP })).hub.timeOk = true) := by
  and_intros <;> decide +kernel

/-- The hypotheses of tendrils_train_acknowledge_and_resend can be met, clause by clause. -/
theorem witness_tendrils_train_acknowledge_and_resend :
    ((on (fun h => h.setTend 1 { st := Ts.TRAINING })).hub.calm = true ∧ (on (fun h => h.setTend 1 { st := Ts.TRAINING })).hub.time.powered = true ∧ ((on (fun h => h.setTend 1 { st := Ts.TRAINING })).hub.tend (1 : TendrilId)).st ≠ Ts.UP ∧ ((on (fun h => h.setTend 1 { st := Ts.TRAINING })).hub.time.hclk + 2 ^ 32 - (199968#32 : Word).toNat) % 2 ^ 32 = (32 : Nat) ∧ (32 : Nat) % 2 = 0 ∧ 30 ≤ (32 : Nat) ∧ (32 : Nat) ≤ 46) ∧
    ((on (fun h => h.setTend 1 { st := Ts.TRAINING })).hub.calm = true ∧ (on (fun h => h.setTend 1 { st := Ts.TRAINING })).hub.time.powered = true ∧ ((on (fun h => h.setTend 1 { st := Ts.TRAINING })).hub.tend (1 : TendrilId)).st ≠ Ts.UP ∧ ((on (fun h => h.setTend 1 { st := Ts.TRAINING })).hub.time.hclk + 2 ^ 32 - (190000#32 : Word).toNat) % 2 ^ 32 = (10000 : Nat) ∧ ((10000 : Nat) < 30 ∨ 46 < (10000 : Nat))) ∧
    ((on (fun h => h.setTend 1 { st := Ts.TRAINING })).hub.calm = true ∧ (on (fun h => h.setTend 1 { st := Ts.TRAINING })).hub.time.powered = true ∧ ((on (fun h => h.setTend 1 { st := Ts.TRAINING })).hub.tend (1 : TendrilId)).st = Ts.TRAINING) ∧
    ((on (fun h => h.setTend 1 { st := Ts.UP, unacked := [frame 3 7 5 [], frame 3 8 5 []] })).hub.calm = true ∧ ((on (fun h => h.setTend 1 { st := Ts.UP, unacked := [frame 3 7 5 [], frame 3 8 5 []] })).hub.tend (1 : TendrilId)).st = Ts.UP ∧ ((on (fun h => h.setTend 1 { st := Ts.UP, unacked := [frame 3 7 5 [], frame 3 8 5 []] })).hub.tend (1 : TendrilId)).unacked ≠ [] ∧ ((7#8 : BitVec 8).toNat + 256 - leAt (((on (fun h => h.setTend 1 { st := Ts.UP, unacked := [frame 3 7 5 [], frame 3 8 5 []] })).hub.tend (1 : TendrilId)).unacked.headD []) 1 1) % 256 + 1 = (1 : Nat) ∧ (1 : Nat) ≤ ((on (fun h => h.setTend 1 { st := Ts.UP, unacked := [frame 3 7 5 [], frame 3 8 5 []] })).hub.tend (1 : TendrilId)).unacked.length ∧ ((on (fun h => h.setTend 1 { st := Ts.UP, unacked := [frame 3 7 5 [], frame 3 8 5 []] })).hub.tend (1 : TendrilId)).waitQ = []) ∧
    ((on (fun h => h.setTend 1 { st := Ts.UP, rxUnacked := 2 })).hub.calm = true ∧ (1 : Nat) < 4 ∧ ((on (fun h => h.setTend 1 { st := Ts.UP, rxUnacked := 2 })).hub.tend (1 : Nat)).st = Ts.UP ∧ ((on (fun h => h.setTend 1 { st := Ts.UP, rxUnacked := 2 })).hub.tend (1 : Nat)).rxUnacked ≠ 0 ∧ (on (fun h => h.setTend 1 { st := Ts.UP, rxUnacked := 2 })).hub.elapsed ((on (fun h => h.setTend 1 { st := Ts.UP, rxUnacked := 2 })).hub.tend (1 : Nat)).rxAt 64 = true) ∧
    ((on (fun h => h.setTend 1 { st := Ts.UP, unacked := [frame 3 7 5 []] })).hub.calm = true ∧ (1 : Nat) < 4 ∧ ((on (fun h => h.setTend 1 { st := Ts.UP, unacked := [frame 3 7 5 []] })).hub.tend (1 : Nat)).st = Ts.UP ∧ ((on (fun h => h.setTend 1 { st := Ts.UP, unacked := [frame 3 7 5 []] })).hub.tend (1 : Nat)).unacked ≠ [] ∧ (on (fun h => h.setTend 1 { st := Ts.UP, unacked := [frame 3 7 5 []] })).hub.elapsed ((on (fun h => h.setTend 1 { st := Ts.UP, unacked := [frame 3 7 5 []] })).hub.tend (1 : Nat)).ackAt 256 = true ∧ ((on (fun h => h.setTend 1 { st := Ts.UP, unacked := [frame 3 7 5 []] })).hub.tend (1 : Nat)).resendRun < 15) ∧
    ((on (fun h => { (h.setTend 1 { st := Ts.FAILED }).wr F.FED_CTRL_AUTO_RETRAIN 1 with time := { h.time with hclk := 2000000 } })).hub.calm = true ∧ (1 : Nat) < 4 ∧ (on (fun h => { (h.setTend 1 { st := Ts.FAILED }).wr F.FED_CTRL_AUTO_RETRAIN 1 with time := { h.time with hclk := 2000000 } })).hub.flag F.FED_CTRL_AUTO_RETRAIN = true ∧ ((on (fun h => { (h.setTend 1 { st := Ts.FAILED }).wr F.FED_CTRL_AUTO_RETRAIN 1 with time := { h.time with hclk := 2000000 } })).hub.tend (1 : Nat)).st = Ts.FAILED ∧ (on (fun h => { (h.setTend 1 { st := Ts.FAILED }).wr F.FED_CTRL_AUTO_RETRAIN 1 with time := { h.time with hclk := 2000000 } })).hub.elapsed ((on (fun h => { (h.setTend 1 { st := Ts.FAILED }).wr F.FED_CTRL_AUTO_RETRAIN 1 with time := { h.time with hclk := 2000000 } })).hub.tend (1 : Nat)).failedAt Config.millisecond = true) ∧
    ((on (fun h => h.setTend 1 { st := Ts.UP })).hub.calm = true ∧ (((on (fun h => h.setTend 1 { st := Ts.UP })).hub.tend (1 : TendrilId)).badRun < 7 ∨ ((on (fun h => h.setTend 1 { st := Ts.UP })).hub.tend (1 : TendrilId)).st ≠ Ts.UP)) ∧
    ((on (fun h => h.setTend 1 { st := Ts.UP, badRun := 7 })).hub.calm = true ∧ 7 ≤ ((on (fun h => h.setTend 1 { st := Ts.UP, badRun := 7 })).hub.tend (1 : TendrilId)).badRun ∧ ((on (fun h => h.setTend 1 { st := Ts.UP, badRun := 7 })).hub.tend (1 : TendrilId)).st = Ts.UP) := by
  and_intros <;> decide +kernel

/-- The hypotheses of fed_page_commands_act_on_tendrils_and_settings can be met, clause by clause. -/
theorem witness_fed_page_commands_act_on_tendrils_and_settings :
    ((on (fun h => h.setTend 0 { st := Ts.FAILED })).hub.calm = true ∧ (on (fun h => h.setTend 0 { st := Ts.FAILED })).hub.takesWrite (.mgmt : Req) R.FED_CMD 1 = true ∧ (on (fun h => h.setTend 0 { st := Ts.FAILED })).hub.fedCheck 1 = St.OK ∧ (on (fun h => h.setTend 0 { st := Ts.FAILED })).hub.rd F.FED_LINK_SEL_TENDRIL = (0 : Nat) ∧ ((on (fun h => h.setTend 0 { st := Ts.FAILED })).hub.tend (0 : Nat)).st ≠ Ts.DOWN) ∧
    ((on (fun h => h)).hub.calm = true ∧ (on (fun h => h)).hub.takesWrite (.mgmt : Req) R.FED_CMD 1 = true ∧ (on (fun h => h)).hub.fedCheck 1 = St.OK ∧ (on (fun h => h)).hub.rd F.FED_LINK_SEL_TENDRIL = (0 : Nat) ∧ (0 : Nat) < 4 ∧ ((on (fun h => h)).hub.tend (0 : Nat)).st = Ts.DOWN) ∧
    ((on (fun h => h)).hub.calm = true ∧ (on (fun h => h)).hub.takesWrite (.mgmt : Req) R.FED_CMD 2 = true ∧ (on (fun h => h)).hub.fedCheck 2 = St.OK) ∧
    ((on (fun h => h.setTend 1 { crcErrs := 5 })).hub.calm = true ∧ (on (fun h => h.setTend 1 { crcErrs := 5 })).hub.takesWrite (.mgmt : Req) R.FED_CMD 3 = true ∧ (on (fun h => h.setTend 1 { crcErrs := 5 })).hub.fedCheck 3 = St.OK ∧ (1 : Nat) < 4) ∧
    ((on (fun h => h)).hub.calm = true ∧ (on (fun h => h)).hub.takesWrite (.mgmt : Req) R.FED_DOMAIN (0x00100003#32 : Word).toNat = true ∧ bitsOf (0x00100003#32 : Word).toNat 16 11 ≤ 1024) ∧
    ((on (fun h => h)).hub.calm = true ∧ (on (fun h => h)).hub.takesWrite (.mgmt : Req) R.FED_DOMAIN (0x05000003#32 : Word).toNat = true ∧ 1024 < bitsOf (0x05000003#32 : Word).toNat 16 11) ∧
    ((on (fun h => h.wr F.FED_JOB_SEL_SLOT 3)).hub.calm = true ∧ (on (fun h => h.wr F.FED_JOB_SEL_SLOT 3)).hub.takesWrite (.mgmt : Req) R.FED_JOB (0x183#32 : Word).toNat = true ∧ (on (fun h => h.wr F.FED_JOB_SEL_SLOT 3)).hub.rd F.FED_JOB_SEL_SLOT = (3 : Nat) ∧ ((on (fun h => h.wr F.FED_JOB_SEL_SLOT 3)).hub.dom (3 : Nat)).st ≠ .running ∧ ((on (fun h => h.wr F.FED_JOB_SEL_SLOT 3)).hub.dom (3 : Nat)).st ≠ .stopping) ∧
    ((on (fun h => h.running3.wr F.FED_JOB_SEL_SLOT 3)).hub.calm = true ∧ (on (fun h => h.running3.wr F.FED_JOB_SEL_SLOT 3)).hub.takesWrite (.mgmt : Req) R.FED_JOB (0x183#32 : Word).toNat = true ∧ (on (fun h => h.running3.wr F.FED_JOB_SEL_SLOT 3)).hub.rd F.FED_JOB_SEL_SLOT = (3 : Nat) ∧ (((on (fun h => h.running3.wr F.FED_JOB_SEL_SLOT 3)).hub.dom (3 : Nat)).st = .running ∨ ((on (fun h => h.running3.wr F.FED_JOB_SEL_SLOT 3)).hub.dom (3 : Nat)).st = .stopping)) := by
  and_intros <;> decide +kernel

/-- The hypotheses of routes_requests_and_answers_between_hubs can be met, clause by clause. -/
theorem witness_routes_requests_and_answers_between_hubs :
    ((on (fun h => h.setTend 1 { st := Ts.UP })).hub.calm = true ∧ ((on (fun h => h.setTend 1 { st := Ts.UP })).hub.accept2 ({ tendril := 1, dest := 255, src := 131 } : Hdr2).tendril ({ tendril := 1, dest := 255, src := 131 } : Hdr2).seq).1 = true ∧ ({ tendril := 1, dest := 255, src := 131 } : Hdr2).src ≠ (on (fun h => h.setTend 1 { st := Ts.UP })).hub.hubAddr ∧ packageOf ({ tendril := 1, dest := 255, src := 131 } : Hdr2).src = packageOf (on (fun h => h.setTend 1 { st := Ts.UP })).hub.hubAddr ∧ (1#8 : BitVec 8).toNat ≠ 0 ∧ (1#8 : BitVec 8).toNat ≠ 255 ∧ bitAt (0#4 : BitVec 4).toNat 3 = false ∧ ((on (fun h => h.setTend 1 { st := Ts.UP })).hub.fed.routes.get (fieldOf ({ tendril := 1, dest := 255, src := 131 } : Hdr2).src) {}).takes (3#32 : Word).toNat ((1#8 : BitVec 8).toNat + 1) = true) ∧
    ((on (fun h => { h with fed := { h.fed with routes := h.fed.routes.set 4 { valid := true, age := 2 } }, time := { h.time with hclk := 20000000 } })).hub.calm = true ∧ (on (fun h => { h with fed := { h.fed with routes := h.fed.routes.set 4 { valid := true, age := 2 } }, time := { h.time with hclk := 20000000 } })).hub.time.powered = true ∧ (on (fun h => { h with fed := { h.fed with routes := h.fed.routes.set 4 { valid := true, age := 2 } }, time := { h.time with hclk := 20000000 } })).hub.elapsed (on (fun h => { h with fed := { h.fed with routes := h.fed.routes.set 4 { valid := true, age := 2 } }, time := { h.time with hclk := 20000000 } })).hub.fed.lastAnn (2 ^ 24) = true ∧ (4 : Nat) ∈ (on (fun h => { h with fed := { h.fed with routes := h.fed.routes.set 4 { valid := true, age := 2 } }, time := { h.time with hclk := 20000000 } })).hub.fed.routes.keys ∧ 2 ≤ ((on (fun h => { h with fed := { h.fed with routes := h.fed.routes.set 4 { valid := true, age := 2 } }, time := { h.time with hclk := 20000000 } })).hub.fed.routes.get (4 : Nat) {}).age) ∧
    ((on (fun h => h.setTend 1 { st := Ts.UP })).hub.calm = true ∧ (on (fun h => h.setTend 1 { st := Ts.UP })).hub.takesFrame ({ tendril := 1, dest := 130, src := 131 } : Hdr2) Op.REG_READ = true ∧ (on (fun h => h.setTend 1 { st := Ts.UP })).hub.accessStatus .tendril (R.GLB_HUB : Word).toNat false 0 = St.OK ∧ (regDef (normAddr (R.GLB_HUB : Word).toNat)).isSome = true ∧ inWindow (normAddr (R.GLB_HUB : Word).toNat) = false ∧ isHi (normAddr (R.GLB_HUB : Word).toNat) = false ∧ [R.TASTE_EVID_DATA, R.COOP_PROG_DATA, R.COOP_DATA_DATA, R.AUTH_DATA, R.TIME_GCN_LO].contains (baseAddr (normAddr (R.GLB_HUB : Word).toNat)) = false ∧ isLo (normAddr (R.GLB_HUB : Word).toNat) = false ∧ pageOf (normAddr (R.GLB_HUB : Word).toNat) = Pg.GLB) ∧
    ((on (fun h => h.setTend 1 { st := Ts.UP })).hub.calm = true ∧ (on (fun h => h.setTend 1 { st := Ts.UP })).hub.takesFrame ({ tendril := 1, dest := 130, src := 131 } : Hdr2) Op.REG_WRITE = true ∧ (on (fun h => h.setTend 1 { st := Ts.UP })).hub.takesWrite .tendril R.GLB_CTX_RECT (0x01020304#32 : Word).toNat = true ∧ (on (fun h => h.setTend 1 { st := Ts.UP })).hub.flag F.GLB_CMD_STATUS_DONE = true) ∧
    ((on (fun h => { h.setTend 1 { st := Ts.UP } with fed := { (h.setTend 1 { st := Ts.UP }).fed with reqs := [{ txn := 3, dest := 131, opcode := Op.REG_READ, who := .port 9 0 false }] } })).hub.calm = true ∧ (on (fun h => { h.setTend 1 { st := Ts.UP } with fed := { (h.setTend 1 { st := Ts.UP }).fed with reqs := [{ txn := 3, dest := 131, opcode := Op.REG_READ, who := .port 9 0 false }] } })).hub.takesFrame ({ tendril := 1, dest := 130, src := 131, txn := 3 } : Hdr2) (256 + (1#8 : BitVec 8).toNat) = true ∧ (on (fun h => { h.setTend 1 { st := Ts.UP } with fed := { (h.setTend 1 { st := Ts.UP }).fed with reqs := [{ txn := 3, dest := 131, opcode := Op.REG_READ, who := .port 9 0 false }] } })).hub.fed.reqs.find? (fun x => x.txn == ({ tendril := 1, dest := 130, src := 131, txn := 3 } : Hdr2).txn.val && x.opcode == (1#8 : BitVec 8).toNat && x.dest == ({ tendril := 1, dest := 130, src := 131, txn := 3 } : Hdr2).src.val) = some ({ txn := 3, dest := 131, opcode := Op.REG_READ, who := .port 9 0 false } : RemoteReq) ∧ ({ txn := 3, dest := 131, opcode := Op.REG_READ, who := .port 9 0 false } : RemoteReq).who = .port (9 : Nat) (0 : Nat) false) ∧
    ((on (fun h => { h with time := { h.time with hclk := 90000000 }, fed := { h.fed with reqs := [{ txn := 3, dest := 131, opcode := Op.REG_READ, who := .port 9 0 false }] } })).hub.calm = true ∧ (on (fun h => { h with time := { h.time with hclk := 90000000 }, fed := { h.fed with reqs := [{ txn := 3, dest := 131, opcode := Op.REG_READ, who := .port 9 0 false }] } })).hub.fed.reqs = [({ txn := 3, dest := 131, opcode := Op.REG_READ, who := .port 9 0 false } : RemoteReq)] ∧ ({ txn := 3, dest := 131, opcode := Op.REG_READ, who := .port 9 0 false } : RemoteReq).who = .port (9 : Nat) (0 : Nat) false ∧ (on (fun h => { h with time := { h.time with hclk := 90000000 }, fed := { h.fed with reqs := [{ txn := 3, dest := 131, opcode := Op.REG_READ, who := .port 9 0 false }] } })).hub.elapsed ({ txn := 3, dest := 131, opcode := Op.REG_READ, who := .port 9 0 false } : RemoteReq).sentAt ((on (fun h => { h with time := { h.time with hclk := 90000000 }, fed := { h.fed with reqs := [{ txn := 3, dest := 131, opcode := Op.REG_READ, who := .port 9 0 false }] } })).hub.rd F.FED_CMD_TIMEOUT_HCLK) = true) ∧
    ((on (fun h => { h with time := { h.time with hclk := 90000000 }, fed := { h.fed with reqs := [{ txn := 3, dest := 131, opcode := Op.REG_READ, who := .port 9 0 false }] } })).hub.calm = true ∧ ({ txn := 3, dest := 131, opcode := Op.REG_READ, who := .port 9 0 false } : RemoteReq) ∈ (on (fun h => { h with time := { h.time with hclk := 90000000 }, fed := { h.fed with reqs := [{ txn := 3, dest := 131, opcode := Op.REG_READ, who := .port 9 0 false }] } })).hub.fed.reqs ∧ (on (fun h => { h with time := { h.time with hclk := 90000000 }, fed := { h.fed with reqs := [{ txn := 3, dest := 131, opcode := Op.REG_READ, who := .port 9 0 false }] } })).hub.elapsed ({ txn := 3, dest := 131, opcode := Op.REG_READ, who := .port 9 0 false } : RemoteReq).sentAt ((on (fun h => { h with time := { h.time with hclk := 90000000 }, fed := { h.fed with reqs := [{ txn := 3, dest := 131, opcode := Op.REG_READ, who := .port 9 0 false }] } })).hub.rd F.FED_CMD_TIMEOUT_HCLK) = true) ∧
    ((on (fun h => { h.wr F.FED_CTRL_JOB_CHECK_EN 1 with time := { h.time with hclk := 9000000000 } })).hub.calm = true ∧ (on (fun h => { h.wr F.FED_CTRL_JOB_CHECK_EN 1 with time := { h.time with hclk := 9000000000 } })).hub.flag F.FED_CTRL_JOB_CHECK_EN = true ∧ (on (fun h => { h.wr F.FED_CTRL_JOB_CHECK_EN 1 with time := { h.time with hclk := 9000000000 } })).hub.elapsed (on (fun h => { h.wr F.FED_CTRL_JOB_CHECK_EN 1 with time := { h.time with hclk := 9000000000 } })).hub.fed.jobCheckAt (on (fun h => { h.wr F.FED_CTRL_JOB_CHECK_EN 1 with time := { h.time with hclk := 9000000000 } })).hub.jobCheckTime = true) ∧
    ((on (fun h => { (h.stopped3.setTend 1 { st := Ts.UP }).wr F.FED_CTRL_EN 1 with fed := { (h.setTend 1 { st := Ts.UP }).fed with routes := h.fed.routes.set 3 { valid := true, tendril := 1 } } })).hub.calm = true ∧ (on (fun h => { (h.stopped3.setTend 1 { st := Ts.UP }).wr F.FED_CTRL_EN 1 with fed := { (h.setTend 1 { st := Ts.UP }).fed with routes := h.fed.routes.set 3 { valid := true, tendril := 1 } } })).hub.takesFrame ({ tendril := 1, dest := 130, src := 131 } : Hdr2) Op.JOB_CHECK = true ∧ (on (fun h => { (h.stopped3.setTend 1 { st := Ts.UP }).wr F.FED_CTRL_EN 1 with fed := { (h.setTend 1 { st := Ts.UP }).fed with routes := h.fed.routes.set 3 { valid := true, tendril := 1 } } })).hub.canAnswer ({ tendril := 1, dest := 130, src := 131 } : Hdr2) (1 : Nat) = true ∧ (on (fun h => { (h.stopped3.setTend 1 { st := Ts.UP }).wr F.FED_CTRL_EN 1 with fed := { (h.setTend 1 { st := Ts.UP }).fed with routes := h.fed.routes.set 3 { valid := true, tendril := 1 } } })).hub.isSafe = false ∧ (on (fun h => { (h.stopped3.setTend 1 { st := Ts.UP }).wr F.FED_CTRL_EN 1 with fed := { (h.setTend 1 { st := Ts.UP }).fed with routes := h.fed.routes.set 3 { valid := true, tendril := 1 } } })).hub.flag F.FED_CTRL_EN = true ∧ (on (fun h => { (h.stopped3.setTend 1 { st := Ts.UP }).wr F.FED_CTRL_EN 1 with fed := { (h.setTend 1 { st := Ts.UP }).fed with routes := h.fed.routes.set 3 { valid := true, tendril := 1 } } })).hub.openSlots.find? (fun y => ((on (fun h => { (h.stopped3.setTend 1 { st := Ts.UP }).wr F.FED_CTRL_EN 1 with fed := { (h.setTend 1 { st := Ts.UP }).fed with routes := h.fed.routes.set 3 { valid := true, tendril := 1 } } })).hub.dom y).tag == (0#16 : BitVec 16).toNat) = some (3 : Nat) ∧ (5#64 : BitVec 64).toNat < (on (fun h => { (h.stopped3.setTend 1 { st := Ts.UP }).wr F.FED_CTRL_EN 1 with fed := { (h.setTend 1 { st := Ts.UP }).fed with routes := h.fed.routes.set 3 { valid := true, tendril := 1 } } })).hub.now) ∧
    ((on (fun h => { (h.stopped3.setTend 1 { st := Ts.UP }).wr F.FED_CTRL_EN 1 with fed := { (h.setTend 1 { st := Ts.UP }).fed with routes := h.fed.routes.set 3 { valid := true, tendril := 1 } } })).hub.calm = true ∧ (on (fun h => { (h.stopped3.setTend 1 { st := Ts.UP }).wr F.FED_CTRL_EN 1 with fed := { (h.setTend 1 { st := Ts.UP }).fed with routes := h.fed.routes.set 3 { valid := true, tendril := 1 } } })).hub.takesFrame ({ tendril := 1, dest := 130, src := 131 } : Hdr2) Op.JOB_CHECK = true ∧ (on (fun h => { (h.stopped3.setTend 1 { st := Ts.UP }).wr F.FED_CTRL_EN 1 with fed := { (h.setTend 1 { st := Ts.UP }).fed with routes := h.fed.routes.set 3 { valid := true, tendril := 1 } } })).hub.canAnswer ({ tendril := 1, dest := 130, src := 131 } : Hdr2) (1 : Nat) = true ∧ (on (fun h => { (h.stopped3.setTend 1 { st := Ts.UP }).wr F.FED_CTRL_EN 1 with fed := { (h.setTend 1 { st := Ts.UP }).fed with routes := h.fed.routes.set 3 { valid := true, tendril := 1 } } })).hub.isSafe = false ∧ (on (fun h => { (h.stopped3.setTend 1 { st := Ts.UP }).wr F.FED_CTRL_EN 1 with fed := { (h.setTend 1 { st := Ts.UP }).fed with routes := h.fed.routes.set 3 { valid := true, tendril := 1 } } })).hub.flag F.FED_CTRL_EN = true ∧ (on (fun h => { (h.stopped3.setTend 1 { st := Ts.UP }).wr F.FED_CTRL_EN 1 with fed := { (h.setTend 1 { st := Ts.UP }).fed with routes := h.fed.routes.set 3 { valid := true, tendril := 1 } } })).hub.openSlots.find? (fun y => ((on (fun h => { (h.stopped3.setTend 1 { st := Ts.UP }).wr F.FED_CTRL_EN 1 with fed := { (h.setTend 1 { st := Ts.UP }).fed with routes := h.fed.routes.set 3 { valid := true, tendril := 1 } } })).hub.dom y).tag == (0#16 : BitVec 16).toNat) = some (3 : Nat) ∧ (on (fun h => { (h.stopped3.setTend 1 { st := Ts.UP }).wr F.FED_CTRL_EN 1 with fed := { (h.setTend 1 { st := Ts.UP }).fed with routes := h.fed.routes.set 3 { valid := true, tendril := 1 } } })).hub.now ≤ (100050#64 : BitVec 64).toNat) ∧
    ((on (fun h => { h.setTend 1 { st := Ts.UP } with fed := { (h.setTend 1 { st := Ts.UP }).fed with jobChecks := [(3, 5, 70)], reqs := [{ txn := 3, dest := 131, opcode := Op.JOB_CHECK, who := .unit, arg := 3 }] } })).hub.calm = true ∧ (on (fun h => { h.setTend 1 { st := Ts.UP } with fed := { (h.setTend 1 { st := Ts.UP }).fed with jobChecks := [(3, 5, 70)], reqs := [{ txn := 3, dest := 131, opcode := Op.JOB_CHECK, who := .unit, arg := 3 }] } })).hub.takesFrame ({ tendril := 1, dest := 130, src := 131, txn := 3 } : Hdr2) (256 + Op.JOB_CHECK) = true ∧ (on (fun h => { h.setTend 1 { st := Ts.UP } with fed := { (h.setTend 1 { st := Ts.UP }).fed with jobChecks := [(3, 5, 70)], reqs := [{ txn := 3, dest := 131, opcode := Op.JOB_CHECK, who := .unit, arg := 3 }] } })).hub.fed.reqs.find? (fun x => x.txn == ({ tendril := 1, dest := 130, src := 131, txn := 3 } : Hdr2).txn.val && x.opcode == Op.JOB_CHECK && x.dest == ({ tendril := 1, dest := 130, src := 131, txn := 3 } : Hdr2).src.val) = some ({ txn := 3, dest := 131, opcode := Op.JOB_CHECK, who := .unit, arg := 3 } : RemoteReq) ∧ ({ txn := 3, dest := 131, opcode := Op.JOB_CHECK, who := .unit, arg := 3 } : RemoteReq).who = .unit ∧ ({ txn := 3, dest := 131, opcode := Op.JOB_CHECK, who := .unit, arg := 3 } : RemoteReq).opcode = Op.JOB_CHECK ∧ (on (fun h => { h.setTend 1 { st := Ts.UP } with fed := { (h.setTend 1 { st := Ts.UP }).fed with jobChecks := [(3, 5, 70)], reqs := [{ txn := 3, dest := 131, opcode := Op.JOB_CHECK, who := .unit, arg := 3 }] } })).hub.fed.jobChecks.find? (fun c => c.1 == ({ txn := 3, dest := 131, opcode := Op.JOB_CHECK, who := .unit, arg := 3 } : RemoteReq).arg) = some (({ txn := 3, dest := 131, opcode := Op.JOB_CHECK, who := .unit, arg := 3 } : RemoteReq).arg, (5 : Nat), (70#64 : BitVec 64).toNat)) := by
  and_intros <;> decide +kernel

/-- The hypotheses of cork_commands_stop_step_resume_and_abort_domains can be met, clause by clause. -/
theorem witness_cork_commands_stop_step_resume_and_abort_domains :
    ((on (fun h => (h.running3.setReg R.CORK_SCOPE 0xC0))).hub.calm = true ∧ (on (fun h => (h.running3.setReg R.CORK_SCOPE 0xC0))).hub.takesWrite (.mgmt : Req) R.CORK_CMD 1 = true ∧ (on (fun h => (h.running3.setReg R.CORK_SCOPE 0xC0))).hub.corkRegArgs = ((on (fun h => h.setReg R.CORK_SCOPE 0xC0)).hub.corkRegArgs : CorkArgs) ∧ (((on (fun h => h.setReg R.CORK_SCOPE 0xC0)).hub.corkRegArgs : CorkArgs).xpkg && (.mgmt : Req) == .jtag) = false ∧ (on (fun h => (h.running3.setReg R.CORK_SCOPE 0xC0))).hub.corkCheck (isExternal (.mgmt : Req)) 1 ((on (fun h => h.setReg R.CORK_SCOPE 0xC0)).hub.corkRegArgs : CorkArgs) = St.OK ∧ (on (fun h => (h.running3.setReg R.CORK_SCOPE 0xC0))).hub.alreadyStopped ((on (fun h => h.setReg R.CORK_SCOPE 0xC0)).hub.corkRegArgs : CorkArgs) = false ∧ (3 : Nat) ∈ (on (fun h => (h.running3.setReg R.CORK_SCOPE 0xC0))).hub.liveSlots 1 ((on (fun h => h.setReg R.CORK_SCOPE 0xC0)).hub.corkRegArgs : CorkArgs)) ∧
    ((on (fun h => (h.stopped3.setReg R.CORK_SCOPE 0xC0).wr F.CORK_MODE_TARGET 3 |>.setReg64 R.CORK_TARGET_LO 200000)).hub.calm = true ∧ (on (fun h => (h.stopped3.setReg R.CORK_SCOPE 0xC0).wr F.CORK_MODE_TARGET 3 |>.setReg64 R.CORK_TARGET_LO 200000)).hub.takesWrite (.mgmt : Req) R.CORK_CMD 1 = true ∧ (on (fun h => (h.stopped3.setReg R.CORK_SCOPE 0xC0).wr F.CORK_MODE_TARGET 3 |>.setReg64 R.CORK_TARGET_LO 200000)).hub.corkRegArgs = ((on (fun h => (h.setReg R.CORK_SCOPE 0xC0).wr F.CORK_MODE_TARGET 3 |>.setReg64 R.CORK_TARGET_LO 200000)).hub.corkRegArgs : CorkArgs) ∧ (((on (fun h => (h.setReg R.CORK_SCOPE 0xC0).wr F.CORK_MODE_TARGET 3 |>.setReg64 R.CORK_TARGET_LO 200000)).hub.corkRegArgs : CorkArgs).xpkg && (.mgmt : Req) == .jtag) = false ∧ (on (fun h => (h.stopped3.setReg R.CORK_SCOPE 0xC0).wr F.CORK_MODE_TARGET 3 |>.setReg64 R.CORK_TARGET_LO 200000)).hub.corkCheck (isExternal (.mgmt : Req)) 1 ((on (fun h => (h.setReg R.CORK_SCOPE 0xC0).wr F.CORK_MODE_TARGET 3 |>.setReg64 R.CORK_TARGET_LO 200000)).hub.corkRegArgs : CorkArgs) = St.OK ∧ (on (fun h => (h.stopped3.setReg R.CORK_SCOPE 0xC0).wr F.CORK_MODE_TARGET 3 |>.setReg64 R.CORK_TARGET_LO 200000)).hub.alreadyStopped ((on (fun h => (h.setReg R.CORK_SCOPE 0xC0).wr F.CORK_MODE_TARGET 3 |>.setReg64 R.CORK_TARGET_LO 200000)).hub.corkRegArgs : CorkArgs) = true) ∧
    ((on (fun h => ((h.stopped3.setReg R.CORK_SCOPE 0xC0).wr F.CORK_STEP_COUNT_COUNT 5))).hub.calm = true ∧ (on (fun h => ((h.stopped3.setReg R.CORK_SCOPE 0xC0).wr F.CORK_STEP_COUNT_COUNT 5))).hub.takesWrite (.mgmt : Req) R.CORK_CMD 2 = true ∧ (on (fun h => ((h.stopped3.setReg R.CORK_SCOPE 0xC0).wr F.CORK_STEP_COUNT_COUNT 5))).hub.corkRegArgs = ((on (fun h => (h.setReg R.CORK_SCOPE 0xC0).wr F.CORK_STEP_COUNT_COUNT 5)).hub.corkRegArgs : CorkArgs) ∧ (((on (fun h => (h.setReg R.CORK_SCOPE 0xC0).wr F.CORK_STEP_COUNT_COUNT 5)).hub.corkRegArgs : CorkArgs).xpkg && (.mgmt : Req) == .jtag) = false ∧ (on (fun h => ((h.stopped3.setReg R.CORK_SCOPE 0xC0).wr F.CORK_STEP_COUNT_COUNT 5))).hub.corkCheck (isExternal (.mgmt : Req)) 2 ((on (fun h => (h.setReg R.CORK_SCOPE 0xC0).wr F.CORK_STEP_COUNT_COUNT 5)).hub.corkRegArgs : CorkArgs) = St.OK ∧ (3 : Nat) ∈ (on (fun h => ((h.stopped3.setReg R.CORK_SCOPE 0xC0).wr F.CORK_STEP_COUNT_COUNT 5))).hub.liveSlots 2 ((on (fun h => (h.setReg R.CORK_SCOPE 0xC0).wr F.CORK_STEP_COUNT_COUNT 5)).hub.corkRegArgs : CorkArgs)) ∧
    ((on (fun h => (h.stopped3.setReg R.CORK_SCOPE 0xC0))).hub.calm = true ∧ (on (fun h => (h.stopped3.setReg R.CORK_SCOPE 0xC0))).hub.takesWrite (.mgmt : Req) R.CORK_CMD 3 = true ∧ (on (fun h => (h.stopped3.setReg R.CORK_SCOPE 0xC0))).hub.corkRegArgs = ((on (fun h => h.setReg R.CORK_SCOPE 0xC0)).hub.corkRegArgs : CorkArgs) ∧ (((on (fun h => h.setReg R.CORK_SCOPE 0xC0)).hub.corkRegArgs : CorkArgs).xpkg && (.mgmt : Req) == .jtag) = false ∧ (on (fun h => (h.stopped3.setReg R.CORK_SCOPE 0xC0))).hub.corkCheck (isExternal (.mgmt : Req)) 3 ((on (fun h => h.setReg R.CORK_SCOPE 0xC0)).hub.corkRegArgs : CorkArgs) = St.OK ∧ (3 : Nat) ∈ (on (fun h => (h.stopped3.setReg R.CORK_SCOPE 0xC0))).hub.liveSlots 3 ((on (fun h => h.setReg R.CORK_SCOPE 0xC0)).hub.corkRegArgs : CorkArgs)) ∧
    ((on (fun h => { h.running3.setReg R.CORK_SCOPE 0xC0 with corks := [{ id := 4, slots := [3], live := [3] }], doms := h.doms.set 3 { st := .stopping, scn := 70, predP := 200000 } })).hub.calm = true ∧ (on (fun h => { h.running3.setReg R.CORK_SCOPE 0xC0 with corks := [{ id := 4, slots := [3], live := [3] }], doms := h.doms.set 3 { st := .stopping, scn := 70, predP := 200000 } })).hub.takesWrite (.mgmt : Req) R.CORK_CMD 4 = true ∧ (on (fun h => { h.running3.setReg R.CORK_SCOPE 0xC0 with corks := [{ id := 4, slots := [3], live := [3] }], doms := h.doms.set 3 { st := .stopping, scn := 70, predP := 200000 } })).hub.corkRegArgs = ((on (fun h => h.setReg R.CORK_SCOPE 0xC0)).hub.corkRegArgs : CorkArgs) ∧ (((on (fun h => h.setReg R.CORK_SCOPE 0xC0)).hub.corkRegArgs : CorkArgs).xpkg && (.mgmt : Req) == .jtag) = false ∧ (on (fun h => { h.running3.setReg R.CORK_SCOPE 0xC0 with corks := [{ id := 4, slots := [3], live := [3] }], doms := h.doms.set 3 { st := .stopping, scn := 70, predP := 200000 } })).hub.corkCheck (isExternal (.mgmt : Req)) 4 ((on (fun h => h.setReg R.CORK_SCOPE 0xC0)).hub.corkRegArgs : CorkArgs) = St.OK ∧ ({ id := 4, slots := [3], live := [3] } : CorkOp) ∈ (on (fun h => { h.running3.setReg R.CORK_SCOPE 0xC0 with corks := [{ id := 4, slots := [3], live := [3] }], doms := h.doms.set 3 { st := .stopping, scn := 70, predP := 200000 } })).hub.stopsOn ((on (fun h => h.setReg R.CORK_SCOPE 0xC0)).hub.corkRegArgs : CorkArgs) ∧ (3 : Nat) ∈ ({ id := 4, slots := [3], live := [3] } : CorkOp).live ∧ (∀ x ∈ (on (fun h => { h.running3.setReg R.CORK_SCOPE 0xC0 with corks := [{ id := 4, slots := [3], live := [3] }], doms := h.doms.set 3 { st := .stopping, scn := 70, predP := 200000 } })).hub.stopsOn ((on (fun h => h.setReg R.CORK_SCOPE 0xC0)).hub.corkRegArgs : CorkArgs), x.src = .reg .mgmt)) := by
  and_intros <;> decide +kernel

/-- The hypotheses of a_stop_completes_when_its_spurs_report can be met, clause by clause. -/
theorem witness_a_stop_completes_when_its_spurs_report :
    ((on (fun h => h.setTile 5 { st := .inContext, slot := 3, wave := some { arm := .scn 80, sentAt := 199976 } })).hub.calm = true ∧ ((on (fun h => h.setTile 5 { st := .inContext, slot := 3, wave := some { arm := .scn 80, sentAt := 199976 } })).hub.tile (5 : TileId)).wave = some ({ arm := .scn 80, sentAt := 199976 } : SpurWave) ∧ (on (fun h => h.setTile 5 { st := .inContext, slot := 3, wave := some { arm := .scn 80, sentAt := 199976 } })).hub.waveArrives ({ arm := .scn 80, sentAt := 199976 } : SpurWave).sentAt = true ∧ ({ arm := .scn 80, sentAt := 199976 } : SpurWave).viaB = false) ∧
    ((on (fun h => h.setTile 5 { st := .inContext, slot := 3, wave := some { arm := .scn 80, sentAt := 199976 } })).hub.calm = true ∧ ((on (fun h => h.setTile 5 { st := .inContext, slot := 3, wave := some { arm := .scn 80, sentAt := 199976 } })).hub.tile (5 : TileId)).wave = some ({ arm := .scn 80, sentAt := 199976 } : SpurWave) ∧ (on (fun h => h.setTile 5 { st := .inContext, slot := 3, wave := some { arm := .scn 80, sentAt := 199976 } })).hub.waveArrives ({ arm := .scn 80, sentAt := 199976 } : SpurWave).sentAt = true ∧ ({ arm := .scn 80, sentAt := 199976 } : SpurWave).viaB = false) ∧
    ((on (fun h => h.setTile 5 { st := .inContext, slot := 3, wave := some { arm := .scn 80, sentAt := 199976 } })).hub.calm = true ∧ ((on (fun h => h.setTile 5 { st := .inContext, slot := 3, wave := some { arm := .scn 80, sentAt := 199976 } })).hub.tile (5 : TileId)).wave = some ({ arm := .scn 80, sentAt := 199976 } : SpurWave) ∧ (on (fun h => h.setTile 5 { st := .inContext, slot := 3, wave := some { arm := .scn 80, sentAt := 199976 } })).hub.waveArrives ({ arm := .scn 80, sentAt := 199976 } : SpurWave).sentAt = true ∧ ({ arm := .scn 80, sentAt := 199976 } : SpurWave).viaB = false) ∧
    ((on (fun h => h.setTile 5 { st := .inContext, slot := 3, wave := some { arm := .scn 80, sentAt := 199970 } })).hub.calm = true ∧ ((on (fun h => h.setTile 5 { st := .inContext, slot := 3, wave := some { arm := .scn 80, sentAt := 199970 } })).hub.tile (5 : TileId)).wave = some ({ arm := .scn 80, sentAt := 199970 } : SpurWave) ∧ (!(on (fun h => h.setTile 5 { st := .inContext, slot := 3, wave := some { arm := .scn 80, sentAt := 199970 } })).hub.waveArrives ({ arm := .scn 80, sentAt := 199970 } : SpurWave).sentAt || ({ arm := .scn 80, sentAt := 199970 } : SpurWave).viaB) = true) ∧
    ((on (fun h => h.setTile 5 { st := .inContext, slot := 3, scn := 80, arm := .scn 80 })).hub.calm = true ∧ (on (fun h => h.setTile 5 { st := .inContext, slot := 3, scn := 80, arm := .scn 80 })).hub.gateDue (5 : TileId) = true) ∧
    ((on (fun h => h.setTile 5 { st := .inContext, slot := 3, report := some 70, reportAt := 199976 })).hub.calm = true ∧ ((on (fun h => h.setTile 5 { st := .inContext, slot := 3, report := some 70, reportAt := 199976 })).hub.tile (5 : TileId)).report = some (70 : Nat) ∧ (on (fun h => h.setTile 5 { st := .inContext, slot := 3, report := some 70, reportAt := 199976 })).hub.waveArrives ((on (fun h => h.setTile 5 { st := .inContext, slot := 3, report := some 70, reportAt := 199976 })).hub.tile (5 : TileId)).reportAt = true ∧ (on (fun h => h.setTile 5 { st := .inContext, slot := 3, report := some 70, reportAt := 199976 })).hub.corks = []) ∧
    ((on (fun h => { h.running3 with corks := [{ id := 4, slots := [3], live := [3] }], doms := h.doms.set 3 { st := .stopping, scn := 70, stopScn := some 70 }, tiles := (h.tiles.set 5 { st := .inContext, slot := 3, report := some 70, reportAt := 199976 }).set 6 { st := .inContext, slot := 3, reported := true } })).hub.calm = true ∧ (on (fun h => { h.running3 with corks := [{ id := 4, slots := [3], live := [3] }], doms := h.doms.set 3 { st := .stopping, scn := 70, stopScn := some 70 }, tiles := (h.tiles.set 5 { st := .inContext, slot := 3, report := some 70, reportAt := 199976 }).set 6 { st := .inContext, slot := 3, reported := true } })).hub.corks = [({ id := 4, slots := [3], live := [3] } : CorkOp)] ∧ ({ id := 4, slots := [3], live := [3] } : CorkOp).src = .reg (.mgmt : Req) ∧ ({ id := 4, slots := [3], live := [3] } : CorkOp).members = [] ∧ ({ id := 4, slots := [3], live := [3] } : CorkOp).packages = [] ∧ ({ id := 4, slots := [3], live := [3] } : CorkOp).op = 1 ∧ ({ id := 4, slots := [3], live := [3] } : CorkOp).localDone = false ∧ ({ id := 4, slots := [3], live := [3] } : CorkOp).disagree = none ∧ ({ id := 4, slots := [3], live := [3] } : CorkOp).silent = none ∧ ({ id := 4, slots := [3], live := [3] } : CorkOp).fedFinal = St.OK ∧ ({ id := 4, slots := [3], live := [3] } : CorkOp).unmatched = false ∧ ({ id := 4, slots := [3], live := [3] } : CorkOp).live = [((on (fun h => { h.running3 with corks := [{ id := 4, slots := [3], live := [3] }], doms := h.doms.set 3 { st := .stopping, scn := 70, stopScn := some 70 }, tiles := (h.tiles.set 5 { st := .inContext, slot := 3, report := some 70, reportAt := 199976 }).set 6 { st := .inContext, slot := 3, reported := true } })).hub.tile (5 : TileId)).slot] ∧ ((on (fun h => { h.running3 with corks := [{ id := 4, slots := [3], live := [3] }], doms := h.doms.set 3 { st := .stopping, scn := 70, stopScn := some 70 }, tiles := (h.tiles.set 5 { st := .inContext, slot := 3, report := some 70, reportAt := 199976 }).set 6 { st := .inContext, slot := 3, reported := true } })).hub.tile (5 : TileId)).report = some (70 : Nat) ∧ (on (fun h => { h.running3 with corks := [{ id := 4, slots := [3], live := [3] }], doms := h.doms.set 3 { st := .stopping, scn := 70, stopScn := some 70 }, tiles := (h.tiles.set 5 { st := .inContext, slot := 3, report := some 70, reportAt := 199976 }).set 6 { st := .inContext, slot := 3, reported := true } })).hub.waveArrives ((on (fun h => { h.running3 with corks := [{ id := 4, slots := [3], live := [3] }], doms := h.doms.set 3 { st := .stopping, scn := 70, stopScn := some 70 }, tiles := (h.tiles.set 5 { st := .inContext, slot := 3, report := some 70, reportAt := 199976 }).set 6 { st := .inContext, slot := 3, reported := true } })).hub.tile (5 : TileId)).reportAt = true ∧ ((on (fun h => { h.running3 with corks := [{ id := 4, slots := [3], live := [3] }], doms := h.doms.set 3 { st := .stopping, scn := 70, stopScn := some 70 }, tiles := (h.tiles.set 5 { st := .inContext, slot := 3, report := some 70, reportAt := 199976 }).set 6 { st := .inContext, slot := 3, reported := true } })).hub.dom ((on (fun h => { h.running3 with corks := [{ id := 4, slots := [3], live := [3] }], doms := h.doms.set 3 { st := .stopping, scn := 70, stopScn := some 70 }, tiles := (h.tiles.set 5 { st := .inContext, slot := 3, report := some 70, reportAt := 199976 }).set 6 { st := .inContext, slot := 3, reported := true } })).hub.tile (5 : TileId)).slot).stopScn = some (70 : Nat) ∧ ((on (fun h => { h.running3 with corks := [{ id := 4, slots := [3], live := [3] }], doms := h.doms.set 3 { st := .stopping, scn := 70, stopScn := some 70 }, tiles := (h.tiles.set 5 { st := .inContext, slot := 3, report := some 70, reportAt := 199976 }).set 6 { st := .inContext, slot := 3, reported := true } })).hub.dom ((on (fun h => { h.running3 with corks := [{ id := 4, slots := [3], live := [3] }], doms := h.doms.set 3 { st := .stopping, scn := 70, stopScn := some 70 }, tiles := (h.tiles.set 5 { st := .inContext, slot := 3, report := some 70, reportAt := 199976 }).set 6 { st := .inContext, slot := 3, reported := true } })).hub.tile (5 : TileId)).slot).skewed = false ∧ ((on (fun h => { h.running3 with corks := [{ id := 4, slots := [3], live := [3] }], doms := h.doms.set 3 { st := .stopping, scn := 70, stopScn := some 70 }, tiles := (h.tiles.set 5 { st := .inContext, slot := 3, report := some 70, reportAt := 199976 }).set 6 { st := .inContext, slot := 3, reported := true } })).hub.dom ((on (fun h => { h.running3 with corks := [{ id := 4, slots := [3], live := [3] }], doms := h.doms.set 3 { st := .stopping, scn := 70, stopScn := some 70 }, tiles := (h.tiles.set 5 { st := .inContext, slot := 3, report := some 70, reportAt := 199976 }).set 6 { st := .inContext, slot := 3, reported := true } })).hub.tile (5 : TileId)).slot).stopNow = false ∧ ((on (fun h => { h.running3 with corks := [{ id := 4, slots := [3], live := [3] }], doms := h.doms.set 3 { st := .stopping, scn := 70, stopScn := some 70 }, tiles := (h.tiles.set 5 { st := .inContext, slot := 3, report := some 70, reportAt := 199976 }).set 6 { st := .inContext, slot := 3, reported := true } })).hub.slotTiles ((on (fun h => { h.running3 with corks := [{ id := 4, slots := [3], live := [3] }], doms := h.doms.set 3 { st := .stopping, scn := 70, stopScn := some 70 }, tiles := (h.tiles.set 5 { st := .inContext, slot := 3, report := some 70, reportAt := 199976 }).set 6 { st := .inContext, slot := 3, reported := true } })).hub.tile (5 : TileId)).slot).all (fun u => u == ((5 : TileId) : Nat) || ((on (fun h => { h.running3 with corks := [{ id := 4, slots := [3], live := [3] }], doms := h.doms.set 3 { st := .stopping, scn := 70, stopScn := some 70 }, tiles := (h.tiles.set 5 { st := .inContext, slot := 3, report := some 70, reportAt := 199976 }).set 6 { st := .inContext, slot := 3, reported := true } })).hub.tile u).reported) = true) ∧
    ((on (fun h => { h.running3.wrB F.HANG_MON_CFG_DIV_POLICY 3 0 with corks := [{ id := 4, slots := [3], live := [3] }], doms := h.doms.set 3 { st := .stopping, scn := 70, reached := some 5 } })).hub.calm = true ∧ (on (fun h => { h.running3.wrB F.HANG_MON_CFG_DIV_POLICY 3 0 with corks := [{ id := 4, slots := [3], live := [3] }], doms := h.doms.set 3 { st := .stopping, scn := 70, reached := some 5 } })).hub.corks = [({ id := 4, slots := [3], live := [3] } : CorkOp)] ∧ ({ id := 4, slots := [3], live := [3] } : CorkOp).src = .reg (.mgmt : Req) ∧ ({ id := 4, slots := [3], live := [3] } : CorkOp).members = [] ∧ ({ id := 4, slots := [3], live := [3] } : CorkOp).packages = [] ∧ (on (fun h => { h.running3.wrB F.HANG_MON_CFG_DIV_POLICY 3 0 with corks := [{ id := 4, slots := [3], live := [3] }], doms := h.doms.set 3 { st := .stopping, scn := 70, reached := some 5 } })).hub.reportDue ({ id := 4, slots := [3], live := [3] } : CorkOp) = true ∧ ({ id := 4, slots := [3], live := [3] } : CorkOp).live = [(3 : Nat)] ∧ ({ id := 4, slots := [3], live := [3] } : CorkOp).disagree = none ∧ ((on (fun h => { h.running3.wrB F.HANG_MON_CFG_DIV_POLICY 3 0 with corks := [{ id := 4, slots := [3], live := [3] }], doms := h.doms.set 3 { st := .stopping, scn := 70, reached := some 5 } })).hub.silentTiles ({ id := 4, slots := [3], live := [3] } : CorkOp)).head? = some (5 : Nat) ∧ (on (fun h => { h.running3.wrB F.HANG_MON_CFG_DIV_POLICY 3 0 with corks := [{ id := 4, slots := [3], live := [3] }], doms := h.doms.set 3 { st := .stopping, scn := 70, reached := some 5 } })).hub.rdB F.HANG_MON_CFG_DIV_POLICY (3 : Nat) = 0) ∧
    ((on (fun h => { h.stopped3 with corks := [{ id := 4, op := 3, slots := [3], live := [3], start := 99990 }], doms := h.doms.set 3 { st := .stopped, scn := 70, startAt := some 99990 } })).hub.calm = true ∧ (on (fun h => { h.stopped3 with corks := [{ id := 4, op := 3, slots := [3], live := [3], start := 99990 }], doms := h.doms.set 3 { st := .stopped, scn := 70, startAt := some 99990 } })).hub.corks = [({ id := 4, op := 3, slots := [3], live := [3], start := 99990 } : CorkOp)] ∧ ({ id := 4, op := 3, slots := [3], live := [3], start := 99990 } : CorkOp).src = .reg (.mgmt : Req) ∧ ({ id := 4, op := 3, slots := [3], live := [3], start := 99990 } : CorkOp).members = [] ∧ ({ id := 4, op := 3, slots := [3], live := [3], start := 99990 } : CorkOp).packages = [] ∧ ({ id := 4, op := 3, slots := [3], live := [3], start := 99990 } : CorkOp).op = 3 ∧ ({ id := 4, op := 3, slots := [3], live := [3], start := 99990 } : CorkOp).localDone = false ∧ ({ id := 4, op := 3, slots := [3], live := [3], start := 99990 } : CorkOp).unmatched = false ∧ ({ id := 4, op := 3, slots := [3], live := [3], start := 99990 } : CorkOp).started = false ∧ reachedGcn ({ id := 4, op := 3, slots := [3], live := [3], start := 99990 } : CorkOp).start (on (fun h => { h.stopped3 with corks := [{ id := 4, op := 3, slots := [3], live := [3], start := 99990 }], doms := h.doms.set 3 { st := .stopped, scn := 70, startAt := some 99990 } })).hub.now = true ∧ (3 : Nat) ∈ ({ id := 4, op := 3, slots := [3], live := [3], start := 99990 } : CorkOp).live ∧ ((on (fun h => { h.stopped3 with corks := [{ id := 4, op := 3, slots := [3], live := [3], start := 99990 }], doms := h.doms.set 3 { st := .stopped, scn := 70, startAt := some 99990 } })).hub.dom (3 : Nat)).stepping = false) := by
  and_intros <;> decide +kernel

/-- The hypotheses of stall_patterns_and_holds_change_the_sources_of_a_domain can be met, clause by clause. -/
theorem witness_stall_patterns_and_holds_change_the_sources_of_a_domain :
    ((on (fun h => ((h.running3.setReg R.CORK_SCOPE 0xC0).wr F.CORK_STALL_MASK_MANUAL 5))).hub.calm = true ∧ (on (fun h => ((h.running3.setReg R.CORK_SCOPE 0xC0).wr F.CORK_STALL_MASK_MANUAL 5))).hub.takesWrite (.mgmt : Req) R.CORK_CMD 5 = true ∧ (on (fun h => ((h.running3.setReg R.CORK_SCOPE 0xC0).wr F.CORK_STALL_MASK_MANUAL 5))).hub.corkRegArgs = ((on (fun h => h.setReg R.CORK_SCOPE 0xC0)).hub.corkRegArgs : CorkArgs) ∧ (on (fun h => ((h.running3.setReg R.CORK_SCOPE 0xC0).wr F.CORK_STALL_MASK_MANUAL 5))).hub.stallCheck (isExternal (.mgmt : Req)) 5 ((on (fun h => h.setReg R.CORK_SCOPE 0xC0)).hub.corkRegArgs : CorkArgs) = St.OK ∧ (3 : Nat) ∈ (on (fun h => ((h.running3.setReg R.CORK_SCOPE 0xC0).wr F.CORK_STALL_MASK_MANUAL 5))).hub.scopeSlots ((on (fun h => h.setReg R.CORK_SCOPE 0xC0)).hub.corkRegArgs : CorkArgs)) ∧
    ((on (fun h => (h.setReg R.CORK_SCOPE 0xC0).setDom 3 { st := .running, manual := some {} })).hub.calm = true ∧ (on (fun h => (h.setReg R.CORK_SCOPE 0xC0).setDom 3 { st := .running, manual := some {} })).hub.takesWrite (.mgmt : Req) R.CORK_CMD 6 = true ∧ (on (fun h => (h.setReg R.CORK_SCOPE 0xC0).setDom 3 { st := .running, manual := some {} })).hub.corkRegArgs = ((on (fun h => h.setReg R.CORK_SCOPE 0xC0)).hub.corkRegArgs : CorkArgs) ∧ (on (fun h => (h.setReg R.CORK_SCOPE 0xC0).setDom 3 { st := .running, manual := some {} })).hub.stallCheck (isExternal (.mgmt : Req)) 6 ((on (fun h => h.setReg R.CORK_SCOPE 0xC0)).hub.corkRegArgs : CorkArgs) = St.OK ∧ (3 : Nat) ∈ (on (fun h => (h.setReg R.CORK_SCOPE 0xC0).setDom 3 { st := .running, manual := some {} })).hub.scopeSlots ((on (fun h => h.setReg R.CORK_SCOPE 0xC0)).hub.corkRegArgs : CorkArgs)) ∧
    ((on (fun h => h.setDom 3 { st := .running, waiting := [(99999, 7, 3)] })).hub.calm = true ∧ (3 : Nat) ∈ (on (fun h => h.setDom 3 { st := .running, waiting := [(99999, 7, 3)] })).hub.doms.keys ∧ (((on (fun h => h.setDom 3 { st := .running, waiting := [(99999, 7, 3)] })).hub.dom (3 : Nat)).waiting.filter (fun w => w.1 ≤ (on (fun h => h.setDom 3 { st := .running, waiting := [(99999, 7, 3)] })).hub.now)).getLast? = some ((99999 : Nat), (7 : Nat), (3 : Nat))) ∧
    ((on (fun h => h.setDom 3 { st := .running, manual := some { mask := 3, left := some 0 } })).hub.calm = true ∧ (3 : Nat) ∈ (on (fun h => h.setDom 3 { st := .running, manual := some { mask := 3, left := some 0 } })).hub.doms.keys ∧ ((on (fun h => h.setDom 3 { st := .running, manual := some { mask := 3, left := some 0 } })).hub.dom (3 : Nat)).manual = some ({ mask := 3, left := some 0 } : ManualStall) ∧ ({ mask := 3, left := some 0 } : ManualStall).left = some 0) ∧
    ((on (fun h => (h.running3.setTile 5 { h.running3.tile 5 with tbuf := [List.replicate 130 0] }).wrB F.TRACEF_SLOT_LOSSLESS 3 1)).hub.calm = true ∧ ((on (fun h => (h.running3.setTile 5 { h.running3.tile 5 with tbuf := [List.replicate 130 0] }).wrB F.TRACEF_SLOT_LOSSLESS 3 1)).hub.tile (5 : TileId)).st = .inContext ∧ ((on (fun h => (h.running3.setTile 5 { h.running3.tile 5 with tbuf := [List.replicate 130 0] }).wrB F.TRACEF_SLOT_LOSSLESS 3 1)).hub.tile (5 : TileId)).slot = (3 : Nat) ∧ 128 ≤ ((on (fun h => (h.running3.setTile 5 { h.running3.tile 5 with tbuf := [List.replicate 130 0] }).wrB F.TRACEF_SLOT_LOSSLESS 3 1)).hub.tile (5 : TileId)).traceWords ∧ (((on (fun h => (h.running3.setTile 5 { h.running3.tile 5 with tbuf := [List.replicate 130 0] }).wrB F.TRACEF_SLOT_LOSSLESS 3 1)).hub.dom (3 : Nat)).st = .running ∨ ((on (fun h => (h.running3.setTile 5 { h.running3.tile 5 with tbuf := [List.replicate 130 0] }).wrB F.TRACEF_SLOT_LOSSLESS 3 1)).hub.dom (3 : Nat)).st = .stopping) ∧ ((on (fun h => (h.running3.setTile 5 { h.running3.tile 5 with tbuf := [List.replicate 130 0] }).wrB F.TRACEF_SLOT_LOSSLESS 3 1)).hub.dom (3 : Nat)).held = false ∧ ((on (fun h => (h.running3.setTile 5 { h.running3.tile 5 with tbuf := [List.replicate 130 0] }).wrB F.TRACEF_SLOT_LOSSLESS 3 1)).hub.dom (3 : Nat)).losslessOff = false ∧ (on (fun h => (h.running3.setTile 5 { h.running3.tile 5 with tbuf := [List.replicate 130 0] }).wrB F.TRACEF_SLOT_LOSSLESS 3 1)).hub.rdB F.TRACEF_SLOT_LOSSLESS (3 : Nat) = 1 ∧ (on (fun h => (h.running3.setTile 5 { h.running3.tile 5 with tbuf := [List.replicate 130 0] }).wrB F.TRACEF_SLOT_LOSSLESS 3 1)).hub.rdB F.FED_JOB_FEDERATED (3 : Nat) = 0) ∧
    ((on (fun h => (h.running3.setDom 3 { st := .running, hold := some 9 }).setTile 5 { st := .inContext, slot := 3, holdReq := true })).hub.calm = true ∧ ((on (fun h => (h.running3.setDom 3 { st := .running, hold := some 9 }).setTile 5 { st := .inContext, slot := 3, holdReq := true })).hub.tile (5 : TileId)).st = .inContext ∧ ((on (fun h => (h.running3.setDom 3 { st := .running, hold := some 9 }).setTile 5 { st := .inContext, slot := 3, holdReq := true })).hub.tile (5 : TileId)).slot = (3 : Nat) ∧ ((on (fun h => (h.running3.setDom 3 { st := .running, hold := some 9 }).setTile 5 { st := .inContext, slot := 3, holdReq := true })).hub.tile (5 : TileId)).holdReq = true ∧ ((on (fun h => (h.running3.setDom 3 { st := .running, hold := some 9 }).setTile 5 { st := .inContext, slot := 3, holdReq := true })).hub.tile (5 : TileId)).traceWords ≤ 32 ∧ ((on (fun h => (h.running3.setDom 3 { st := .running, hold := some 9 }).setTile 5 { st := .inContext, slot := 3, holdReq := true })).hub.slotTiles (3 : Nat)).all (fun u => u == ((5 : TileId) : Nat) || !((on (fun h => (h.running3.setDom 3 { st := .running, hold := some 9 }).setTile 5 { st := .inContext, slot := 3, holdReq := true })).hub.tile u).holdReq) = true) ∧
    ((on (fun h => { h.setDom 3 { st := .running, hold := some 9 } with time := { h.time with hclk := 90000000 } })).hub.calm = true ∧ (3 : Nat) ∈ (on (fun h => { h.setDom 3 { st := .running, hold := some 9 } with time := { h.time with hclk := 90000000 } })).hub.doms.keys ∧ ((on (fun h => { h.setDom 3 { st := .running, hold := some 9 } with time := { h.time with hclk := 90000000 } })).hub.dom (3 : Nat)).hold = some (9 : Nat) ∧ (on (fun h => { h.setDom 3 { st := .running, hold := some 9 } with time := { h.time with hclk := 90000000 } })).hub.elapsed (9 : Nat) ((on (fun h => { h.setDom 3 { st := .running, hold := some 9 } with time := { h.time with hclk := 90000000 } })).hub.rd F.CORK_HOLD_LIMIT_HCLK) = true) := by
  and_intros <;> decide +kernel

/-- The hypotheses of waves_and_stalls_cross_the_fields_of_a_package can be met, clause by clause. -/
theorem witness_waves_and_stalls_cross_the_fields_of_a_package :
    ((on (fun h => (h.running3.setTend 1 { st := Ts.UP }).wr F.FED_CTRL_EN 1)).hub.calm = true ∧ ((on (fun h => (h.running3.setTend 1 { st := Ts.UP }).wr F.FED_CTRL_EN 1)).hub.tend (1 : TendrilId)).st = Ts.UP ∧ (on (fun h => (h.running3.setTend 1 { st := Ts.UP }).wr F.FED_CTRL_EN 1)).hub.fed.wavesSeen.contains (((131 : Fin 2048) : Nat), (7#8 : BitVec 8).toNat) = false ∧ (131 : Fin 2048) ≠ (on (fun h => (h.running3.setTend 1 { st := Ts.UP }).wr F.FED_CTRL_EN 1)).hub.hubAddr ∧ (on (fun h => (h.running3.setTend 1 { st := Ts.UP }).wr F.FED_CTRL_EN 1)).hub.flag F.FED_CTRL_EN = true ∧ waveArgs (0#16 : BitVec 16).toNat (3 : Fin 4) (b2n (false : Bool)) (100200#64 : BitVec 64).toNat = (waveArgs 0 3 0 100200 : CorkArgs) ∧ (on (fun h => (h.running3.setTend 1 { st := Ts.UP }).wr F.FED_CTRL_EN 1)).hub.corkCheck8 (false : Bool) 1 (waveArgs 0 3 0 100200 : CorkArgs) = St.OK ∧ (3 : Nat) ∈ (on (fun h => (h.running3.setTend 1 { st := Ts.UP }).wr F.FED_CTRL_EN 1)).hub.liveSlots 1 { (waveArgs 0 3 0 100200 : CorkArgs) with fed := false }) ∧
    ((on (fun h => { h.setTend 1 { st := Ts.UP } with corks := [{ id := 4, fed := true, wave := 9, members := [131, 132] }] })).hub.calm = true ∧ (on (fun h => { h.setTend 1 { st := Ts.UP } with corks := [{ id := 4, fed := true, wave := 9, members := [131, 132] }] })).hub.takesFrame ({ tendril := 1, dest := 130, src := 131 } : Hdr2) Op.CORK_REPORT = true ∧ (on (fun h => { h.setTend 1 { st := Ts.UP } with corks := [{ id := 4, fed := true, wave := 9, members := [131, 132] }] })).hub.corks = [({ id := 4, fed := true, wave := 9, members := [131, 132] } : CorkOp)] ∧ ({ id := 4, fed := true, wave := 9, members := [131, 132] } : CorkOp).fed = true ∧ ({ id := 4, fed := true, wave := 9, members := [131, 132] } : CorkOp).wave = (9#8 : BitVec 8).toNat ∧ ({ id := 4, fed := true, wave := 9, members := [131, 132] } : CorkOp).localDone = false ∧ (({ tendril := 1, dest := 130, src := 131 } : Hdr2).src : Nat) ∈ ({ id := 4, fed := true, wave := 9, members := [131, 132] } : CorkOp).members ∧ bitAt (1#3 : BitVec 3).toNat 1 = false) ∧
    ((on (fun h => { h with corks := [{ id := 4, fed := true, localDone := true, members := [131, 132] }], time := { h.time with hclk := 90000000 } })).hub.calm = true ∧ (on (fun h => { h with corks := [{ id := 4, fed := true, localDone := true, members := [131, 132] }], time := { h.time with hclk := 90000000 } })).hub.corks = [({ id := 4, fed := true, localDone := true, members := [131, 132] } : CorkOp)] ∧ ({ id := 4, fed := true, localDone := true, members := [131, 132] } : CorkOp).src = .reg (.mgmt : Req) ∧ ({ id := 4, fed := true, localDone := true, members := [131, 132] } : CorkOp).packages = [] ∧ ({ id := 4, fed := true, localDone := true, members := [131, 132] } : CorkOp).fed = true ∧ ({ id := 4, fed := true, localDone := true, members := [131, 132] } : CorkOp).localDone = true ∧ (132 : Nat) ∈ ({ id := 4, fed := true, localDone := true, members := [131, 132] } : CorkOp).members ∧ (on (fun h => { h with corks := [{ id := 4, fed := true, localDone := true, members := [131, 132] }], time := { h.time with hclk := 90000000 } })).hub.elapsed ({ id := 4, fed := true, localDone := true, members := [131, 132] } : CorkOp).localAt ((on (fun h => { h with corks := [{ id := 4, fed := true, localDone := true, members := [131, 132] }], time := { h.time with hclk := 90000000 } })).hub.rd F.FED_CMD_TIMEOUT_HCLK) = true) ∧
    ((on (fun h => (((h.running3.setTend 1 { st := Ts.UP }).wr F.FED_CTRL_EN 1).wrB F.FED_JOB_FEDERATED 3 1))).hub.calm = true ∧ (on (fun h => (((h.running3.setTend 1 { st := Ts.UP }).wr F.FED_CTRL_EN 1).wrB F.FED_JOB_FEDERATED 3 1))).hub.takesFrame ({ tendril := 1, dest := 130, src := 131 } : Hdr2) Op.STALL_REQ = true ∧ (on (fun h => (((h.running3.setTend 1 { st := Ts.UP }).wr F.FED_CTRL_EN 1).wrB F.FED_JOB_FEDERATED 3 1))).hub.isSafe = false ∧ (on (fun h => (((h.running3.setTend 1 { st := Ts.UP }).wr F.FED_CTRL_EN 1).wrB F.FED_JOB_FEDERATED 3 1))).hub.flag F.FED_CTRL_EN = true ∧ (on (fun h => (((h.running3.setTend 1 { st := Ts.UP }).wr F.FED_CTRL_EN 1).wrB F.FED_JOB_FEDERATED 3 1))).hub.openSlots.filter (fun y => ((on (fun h => (((h.running3.setTend 1 { st := Ts.UP }).wr F.FED_CTRL_EN 1).wrB F.FED_JOB_FEDERATED 3 1))).hub.dom y).tag == (0#16 : BitVec 16).toNat) = [(3 : Nat)] ∧ (on (fun h => (((h.running3.setTend 1 { st := Ts.UP }).wr F.FED_CTRL_EN 1).wrB F.FED_JOB_FEDERATED 3 1))).hub.rdB F.FED_JOB_FEDERATED (3 : Nat) = 1 ∧ (on (fun h => (((h.running3.setTend 1 { st := Ts.UP }).wr F.FED_CTRL_EN 1).wrB F.FED_JOB_FEDERATED 3 1))).hub.rdB F.FED_JOB_ANCHOR (3 : Nat) = (on (fun h => (((h.running3.setTend 1 { st := Ts.UP }).wr F.FED_CTRL_EN 1).wrB F.FED_JOB_FEDERATED 3 1))).hub.rd F.FED_SELF_HUB) ∧
    ((on (fun h => ((h.running3.setTend 1 { st := Ts.UP }).wrB F.FED_JOB_FEDERATED 3 1).wrB F.FED_JOB_ANCHOR 3 131)).hub.calm = true ∧ ((on (fun h => ((h.running3.setTend 1 { st := Ts.UP }).wrB F.FED_JOB_FEDERATED 3 1).wrB F.FED_JOB_ANCHOR 3 131)).hub.tend (1 : TendrilId)).st = Ts.UP ∧ (on (fun h => ((h.running3.setTend 1 { st := Ts.UP }).wrB F.FED_JOB_FEDERATED 3 1).wrB F.FED_JOB_ANCHOR 3 131)).hub.fed.stallsSeen.contains (((131 : Fin 2048) : Nat), (0#16 : BitVec 16).toNat, (100100#64 : BitVec 64).toNat) = false ∧ (131 : Fin 2048) ≠ (on (fun h => ((h.running3.setTend 1 { st := Ts.UP }).wrB F.FED_JOB_FEDERATED 3 1).wrB F.FED_JOB_ANCHOR 3 131)).hub.hubAddr ∧ (on (fun h => ((h.running3.setTend 1 { st := Ts.UP }).wrB F.FED_JOB_FEDERATED 3 1).wrB F.FED_JOB_ANCHOR 3 131)).hub.openSlots.filter (fun y => ((on (fun h => ((h.running3.setTend 1 { st := Ts.UP }).wrB F.FED_JOB_FEDERATED 3 1).wrB F.FED_JOB_ANCHOR 3 131)).hub.dom y).tag == (0#16 : BitVec 16).toNat) = [(3 : Nat)] ∧ (on (fun h => ((h.running3.setTend 1 { st := Ts.UP }).wrB F.FED_JOB_FEDERATED 3 1).wrB F.FED_JOB_ANCHOR 3 131)).hub.rdB F.FED_JOB_FEDERATED (3 : Nat) = 1 ∧ (on (fun h => ((h.running3.setTend 1 { st := Ts.UP }).wrB F.FED_JOB_FEDERATED 3 1).wrB F.FED_JOB_ANCHOR 3 131)).hub.rdB F.FED_JOB_ANCHOR (3 : Nat) = (131 : Fin 2048) ∧ (on (fun h => ((h.running3.setTend 1 { st := Ts.UP }).wrB F.FED_JOB_FEDERATED 3 1).wrB F.FED_JOB_ANCHOR 3 131)).hub.now + 32 ≤ (100100#64 : BitVec 64).toNat) := by
  and_intros <;> decide +kernel

/-- The hypotheses of the_power_loop_measures_calibrates_and_changes_clocks can be met, clause by clause. -/
theorem witness_the_power_loop_measures_calibrates_and_changes_clocks :
    ((on (fun h => h.wr F.PWR_CTRL_GUARD_EN 0)).hub.calm = true ∧ (List.replicate 16 1000 : List Nat).length = 16 ∧ (on (fun h => h.wr F.PWR_CTRL_GUARD_EN 0)).hub.powerBoundary ≤ (on (fun h => h.wr F.PWR_CTRL_GUARD_EN 0)).hub.now ∧ (on (fun h => h.wr F.PWR_CTRL_GUARD_EN 0)).hub.power.short = false ∧ (on (fun h => h.wr F.PWR_CTRL_GUARD_EN 0)).hub.measured = none ∧ (on (fun h => h.wr F.PWR_CTRL_GUARD_EN 0)).hub.flag F.PWR_CTRL_GUARD_EN = false) ∧
    ((on (fun h => h)).hub.calm = true ∧ (on (fun h => h)).hub.takesWrite (.mgmt : Req) R.PWR_CTRL ((on (fun h => h)).hub.reg R.PWR_CTRL ||| 8) = true ∧ (on (fun h => h)).hub.power.calLeft = 0) ∧
    ((on (fun h => h)).hub.calm = true ∧ crc4 28 (0#32 : Word).toNat 0 = bitsOf (0#32 : Word).toNat 28 4 ∧ (on (fun h => h)).hub.flag F.PWR_CTRL_EST_ONLY_FORCE = false) ∧
    ((on (fun h => h)).hub.calm = true ∧ crc4 28 (0x10000000#32 : Word).toNat 0 ≠ bitsOf (0x10000000#32 : Word).toNat 28 4) ∧
    ((on (fun h => { h with boot := { h.boot with released := true }, time := { h.time with hclk := 900000000 } })).hub.calm = true ∧ (on (fun h => { h with boot := { h.boot with released := true }, time := { h.time with hclk := 900000000 } })).hub.boot.released = true ∧ (on (fun h => { h with boot := { h.boot with released := true }, time := { h.time with hclk := 900000000 } })).hub.flag F.PWR_CTRL_EST_ONLY_FORCE = false ∧ (on (fun h => { h with boot := { h.boot with released := true }, time := { h.time with hclk := 900000000 } })).hub.power.missRaised = false ∧ (on (fun h => { h with boot := { h.boot with released := true }, time := { h.time with hclk := 900000000 } })).hub.power.everSample = false ∧ (on (fun h => { h with boot := { h.boot with released := true }, time := { h.time with hclk := 900000000 } })).hub.elapsed (on (fun h => { h with boot := { h.boot with released := true }, time := { h.time with hclk := 900000000 } })).hub.power.missFrom ((on (fun h => { h with boot := { h.boot with released := true }, time := { h.time with hclk := 900000000 } })).hub.rd F.PWR_TELEM_TIMEOUT_HCLK) = true) ∧
    ((on (fun h => h)).hub.calm = true ∧ (on (fun h => h)).hub.takesWrite (.mgmt : Req) R.PWR_CTRL (setBits (setBits ((on (fun h => h)).hub.reg R.PWR_CTRL) 3 1 0) 2 1 1) = true ∧ (on (fun h => h)).hub.flag F.PWR_CTRL_EST_ONLY_FORCE = false) ∧
    ((on (fun h => h.wr F.PWR_CTRL_EST_ONLY_FORCE 1)).hub.calm = true ∧ (on (fun h => h.wr F.PWR_CTRL_EST_ONLY_FORCE 1)).hub.takesWrite (.mgmt : Req) R.PWR_CTRL (setBits (setBits ((on (fun h => h.wr F.PWR_CTRL_EST_ONLY_FORCE 1)).hub.reg R.PWR_CTRL) 3 1 0) 2 1 0) = true ∧ (on (fun h => h.wr F.PWR_CTRL_EST_ONLY_FORCE 1)).hub.flag F.PWR_CTRL_EST_ONLY_FORCE = true) ∧
    ((on (fun h => h)).hub.calm = true ∧ (on (fun h => h)).hub.takesWrite (.mgmt : Req) R.PWR_CLKREQ ((1 : Fin 2) + 2 * (2 : Fin 4) + 8) = true ∧ (on (fun h => h)).hub.isSafe = false ∧ (on (fun h => h)).hub.clkchgCheck (1 : Fin 2) ((on (fun h => h)).hub.now + 4096) = St.OK ∧ ((2 : Fin 4) : Nat) ≠ (on (fun h => h)).hub.divCode (1 : Fin 2)) ∧
    ((on (fun h => h.setChg 1 (some (2, 200000)))).hub.calm = true ∧ (on (fun h => h.setChg 1 (some (2, 200000)))).hub.takesWrite (.mgmt : Req) R.PWR_CLKREQ ((1 : Fin 2) + 2 * (2 : Fin 4) + 8) = true ∧ (on (fun h => h.setChg 1 (some (2, 200000)))).hub.isSafe = false ∧ (on (fun h => h.setChg 1 (some (2, 200000)))).hub.clkchgCheck (1 : Fin 2) ((on (fun h => h.setChg 1 (some (2, 200000)))).hub.now + 4096) ≠ St.OK) ∧
    ((on (fun h => h.wr F.PWR_CTX_SEL_SLOT 3)).hub.calm = true ∧ (on (fun h => h.wr F.PWR_CTX_SEL_SLOT 3)).hub.takesWrite (.mgmt : Req) R.PWR_CTX (0x09#32 : Word).toNat = true ∧ (on (fun h => h.wr F.PWR_CTX_SEL_SLOT 3)).hub.rd F.PWR_CTX_SEL_SLOT = (3 : Nat) ∧ ((on (fun h => h.wr F.PWR_CTX_SEL_SLOT 3)).hub.dom (3 : Nat)).st ≠ .running ∧ ((on (fun h => h.wr F.PWR_CTX_SEL_SLOT 3)).hub.dom (3 : Nat)).st ≠ .stopping ∧ 1 ≤ bitsOf (0x09#32 : Word).toNat 1 5 ∧ bitsOf (0x09#32 : Word).toNat 1 5 ≤ 16) ∧
    ((on (fun h => h.running3.wr F.PWR_CTX_SEL_SLOT 3)).hub.calm = true ∧ (on (fun h => h.running3.wr F.PWR_CTX_SEL_SLOT 3)).hub.takesWrite (.mgmt : Req) R.PWR_CTX (0x09#32 : Word).toNat = true ∧ (on (fun h => h.running3.wr F.PWR_CTX_SEL_SLOT 3)).hub.rd F.PWR_CTX_SEL_SLOT = (3 : Nat) ∧ (((on (fun h => h.running3.wr F.PWR_CTX_SEL_SLOT 3)).hub.dom (3 : Nat)).st = .running ∨ ((on (fun h => h.running3.wr F.PWR_CTX_SEL_SLOT 3)).hub.dom (3 : Nat)).st = .stopping)) := by
  and_intros <;> decide +kernel

/-- The hypotheses of arguments_of_a_command_under_way_are_ignored can be met, clause by clause. -/
theorem witness_arguments_of_a_command_under_way_are_ignored :
    ((on (fun h => h.wr F.CORK_STATUS_DONE 0)).hub.calm = true ∧ (R.CORK_STALL_DURATION : Nat) ∈ [R.CORK_SCOPE, R.CORK_MODE, R.CORK_TARGET_LO, R.CORK_TARGET_HI, R.CORK_STEP_COUNT, R.CORK_STALL_MASK, R.CORK_STALL_DURATION] ∧ (on (fun h => h.wr F.CORK_STATUS_DONE 0)).hub.takesWrite (.mgmt : Req) (R.CORK_STALL_DURATION : Nat) (5 : Word).toNat = true ∧ (on (fun h => h.wr F.CORK_STATUS_DONE 0)).hub.flag F.CORK_STATUS_DONE = false) ∧
    ((on (fun h => h.wr F.TIME_CMD_STATUS_DONE 0)).hub.calm = true ∧ (R.TIME_TBS_GCN_HI : Nat) ∈ [R.TIME_CLKCHG_REQ, R.TIME_CLKCHG_GCN_LO, R.TIME_CLKCHG_GCN_HI, R.TIME_TBS_GCN_LO, R.TIME_TBS_GCN_HI, R.TIME_ARG_EPOCH, R.TIME_TBS_COMP] ∧ (on (fun h => h.wr F.TIME_CMD_STATUS_DONE 0)).hub.takesWrite (.mgmt : Req) (R.TIME_TBS_GCN_HI : Nat) (5 : Word).toNat = true ∧ (on (fun h => h.wr F.TIME_CMD_STATUS_DONE 0)).hub.flag F.TIME_CMD_STATUS_DONE = false) := by
  and_intros <;> decide +kernel

/-- The hypotheses of canes_are_located_bypassed_cleared_and_turned can be met, clause by clause. -/
theorem witness_canes_are_located_bypassed_cleared_and_turned :
    ((on (fun h => ((h).setReg R.CANE_SEL 2))).hub.calm = true ∧ (on (fun h => ((h).setReg R.CANE_SEL 2))).hub.takesWrite (.mgmt : Req) R.CANE_CMD 1 = true ∧ (on (fun h => ((h).setReg R.CANE_SEL 2))).hub.rd F.CANE_SEL_CANE = (2 : Nat) ∧ (on (fun h => ((h).setReg R.CANE_SEL 2))).hub.caneCheck 1 = St.OK) ∧
    ((on (fun h => ((h).setReg R.CANE_SEL 2).setCane 2 { locate := some 5 })).hub.calm = true ∧ ((on (fun h => ((h).setReg R.CANE_SEL 2).setCane 2 { locate := some 5 })).hub.cane (2 : Cane)).locate = some (5 : Nat) ∧ ((on (fun h => ((h).setReg R.CANE_SEL 2).setCane 2 { locate := some 5 })).hub.cane (2 : Cane)).suspect = false) ∧
    ((on (fun h => ((h).setReg R.CANE_SEL 2).setCane 2 { locate := some 5 })).hub.calm = true ∧ ((on (fun h => ((h).setReg R.CANE_SEL 2).setCane 2 { locate := some 5 })).hub.cane (2 : Cane)).locate = some (5 : Nat) ∧ ((on (fun h => ((h).setReg R.CANE_SEL 2).setCane 2 { locate := some 5 })).hub.cane (2 : Cane)).suspect = false) ∧
    ((on (fun h => (((h).setReg R.CANE_SEL 2).setCane 2 { locate := some 5, suspect := true }).wr F.CANE_CTRL_AUTO_BYPASS 1)).hub.calm = true ∧ ((on (fun h => (((h).setReg R.CANE_SEL 2).setCane 2 { locate := some 5, suspect := true }).wr F.CANE_CTRL_AUTO_BYPASS 1)).hub.cane (2 : Cane)).locate = some (5 : Nat) ∧ ((on (fun h => (((h).setReg R.CANE_SEL 2).setCane 2 { locate := some 5, suspect := true }).wr F.CANE_CTRL_AUTO_BYPASS 1)).hub.cane (2 : Cane)).suspect = true ∧ ((on (fun h => (((h).setReg R.CANE_SEL 2).setCane 2 { locate := some 5, suspect := true }).wr F.CANE_CTRL_AUTO_BYPASS 1)).hub.cane (2 : Cane)).broken = false ∧ (on (fun h => (((h).setReg R.CANE_SEL 2).setCane 2 { locate := some 5, suspect := true }).wr F.CANE_CTRL_AUTO_BYPASS 1)).hub.flag F.CANE_CTRL_AUTO_BYPASS = true ∧ (on (fun h => (((h).setReg R.CANE_SEL 2).setCane 2 { locate := some 5, suspect := true }).wr F.CANE_CTRL_AUTO_BYPASS 1)).hub.bypassTo (2 : Cane) = some ((3 : Nat), (1 : Nat))) ∧
    ((on (fun h => (((h).setReg R.CANE_SEL 2).setCane 2 { broken := true, mode := 1 }).setCane 3 { mode := 3 })).hub.calm = true ∧ (on (fun h => (((h).setReg R.CANE_SEL 2).setCane 2 { broken := true, mode := 1 }).setCane 3 { mode := 3 })).hub.takesWrite (.mgmt : Req) R.CANE_CMD 2 = true ∧ (on (fun h => (((h).setReg R.CANE_SEL 2).setCane 2 { broken := true, mode := 1 }).setCane 3 { mode := 3 })).hub.rd F.CANE_SEL_CANE = (2 : Nat) ∧ (on (fun h => (((h).setReg R.CANE_SEL 2).setCane 2 { broken := true, mode := 1 }).setCane 3 { mode := 3 })).hub.caneCheck 2 = St.OK) ∧
    ((on (fun h => ((h).setReg R.CANE_SEL 2).setCane 2 { parityErrs := 4 })).hub.calm = true ∧ (on (fun h => ((h).setReg R.CANE_SEL 2).setCane 2 { parityErrs := 4 })).hub.takesWrite (.mgmt : Req) R.CANE_CMD 3 = true ∧ (on (fun h => ((h).setReg R.CANE_SEL 2).setCane 2 { parityErrs := 4 })).hub.rd F.CANE_SEL_CANE = (2 : Nat) ∧ (on (fun h => ((h).setReg R.CANE_SEL 2).setCane 2 { parityErrs := 4 })).hub.caneCheck 3 = St.OK) ∧
    ((on (fun h => h)).hub.calm = true ∧ (on (fun h => h)).hub.takesWrite (.mgmt : Req) (R.CANE_BROKEN_0 + 4 * (0 : Fin 4)) (4#32 : Word).toNat = true ∧ maskList 32 (4#32 : Word).toNat = [(2 : Nat)] ∧ ((on (fun h => h)).hub.cane (32 * (0 : Fin 4) + (2 : Nat))).broken = false ∧ (on (fun h => h)).hub.bypassTo (32 * (0 : Fin 4) + (2 : Nat)) = some ((3 : Nat), (1 : Nat))) ∧
    ((on (fun h => h.setCane 2 { turning := some (true, 7) })).hub.calm = true ∧ (on (fun h => h.setCane 2 { turning := some (true, 7) })).hub.harv.op ≠ 2 ∧ ((on (fun h => h.setCane 2 { turning := some (true, 7) })).hub.cane (2 : Nat)).turning = some ((true : Bool), (7 : Nat)) ∧ (7 : Nat) ≤ (on (fun h => h.setCane 2 { turning := some (true, 7) })).hub.time.hclk) := by
  and_intros <;> decide +kernel

/-- The hypotheses of a_harvest_sets_up_drains_and_takes_records can be met, clause by clause. -/
theorem witness_a_harvest_sets_up_drains_and_takes_records :
    ((on (fun h => (h.stopped3.cellar1.setReg R.HARV_SCOPE 0xC0).setReg R.HARV_VINTAGE 9)).hub.calm = true ∧ (on (fun h => (h.stopped3.cellar1.setReg R.HARV_SCOPE 0xC0).setReg R.HARV_VINTAGE 9)).hub.takesWrite (.mgmt : Req) R.HARV_CMD 1 = true ∧ (on (fun h => (h.stopped3.cellar1.setReg R.HARV_SCOPE 0xC0).setReg R.HARV_VINTAGE 9)).hub.harvRegReq (reqCode (.mgmt : Req)) = ((on (fun h => (h.setReg R.HARV_SCOPE 0xC0).setReg R.HARV_VINTAGE 9)).hub.harvRegReq 0 : HarvReq) ∧ (on (fun h => (h.stopped3.cellar1.setReg R.HARV_SCOPE 0xC0).setReg R.HARV_VINTAGE 9)).hub.harvCheck ((on (fun h => (h.setReg R.HARV_SCOPE 0xC0).setReg R.HARV_VINTAGE 9)).hub.harvRegReq 0 : HarvReq) = St.OK ∧ ((on (fun h => (h.setReg R.HARV_SCOPE 0xC0).setReg R.HARV_VINTAGE 9)).hub.harvRegReq 0 : HarvReq).vintage ≠ 0 ∧ ((on (fun h => (h.setReg R.HARV_SCOPE 0xC0).setReg R.HARV_VINTAGE 9)).hub.harvRegReq 0 : HarvReq).a.fed = false ∧ ((on (fun h => (h.setReg R.HARV_SCOPE 0xC0).setReg R.HARV_VINTAGE 9)).hub.harvRegReq 0 : HarvReq).a.xpkg = false) ∧
    ((on (fun h => ({ h.running3.cellar1 with harv := { op := 1, vintage := 9, slots := [3], rect := 0x03070000, caps := ⟨[(5, { selected := true }), (6, { selected := true })]⟩ }, tiles := h.running3.tiles.set 5 { st := .inContext, slot := 3, rdOut := 1 } }))).hub.calm = true ∧ (on (fun h => ({ h.running3.cellar1 with harv := { op := 1, vintage := 9, slots := [3], rect := 0x03070000, caps := ⟨[(5, { selected := true }), (6, { selected := true })]⟩ }, tiles := h.running3.tiles.set 5 { st := .inContext, slot := 3, rdOut := 1 } }))).hub.harv.op = 1 ∧ (on (fun h => ({ h.running3.cellar1 with harv := { op := 1, vintage := 9, slots := [3], rect := 0x03070000, caps := ⟨[(5, { selected := true }), (6, { selected := true })]⟩ }, tiles := h.running3.tiles.set 5 { st := .inContext, slot := 3, rdOut := 1 } }))).hub.harv.admitted = false ∧ (on (fun h => ({ h.running3.cellar1 with harv := { op := 1, vintage := 9, slots := [3], rect := 0x03070000, caps := ⟨[(5, { selected := true }), (6, { selected := true })]⟩ }, tiles := h.running3.tiles.set 5 { st := .inContext, slot := 3, rdOut := 1 } }))).hub.harv.drained = false ∧ (on (fun h => ({ h.running3.cellar1 with harv := { op := 1, vintage := 9, slots := [3], rect := 0x03070000, caps := ⟨[(5, { selected := true }), (6, { selected := true })]⟩ }, tiles := h.running3.tiles.set 5 { st := .inContext, slot := 3, rdOut := 1 } }))).hub.harv.closed = false ∧ (let need := (on (fun h => ({ h.running3.cellar1 with harv := { op := 1, vintage := 9, slots := [3], rect := 0x03070000, caps := ⟨[(5, { selected := true }), (6, { selected := true })]⟩ }, tiles := h.running3.tiles.set 5 { st := .inContext, slot := 3, rdOut := 1 } }))).hub.reservation (on (fun h => ({ h.running3.cellar1 with harv := { op := 1, vintage := 9, slots := [3], rect := 0x03070000, caps := ⟨[(5, { selected := true }), (6, { selected := true })]⟩ }, tiles := h.running3.tiles.set 5 { st := .inContext, slot := 3, rdOut := 1 } }))).hub.harv.slots.length (on (fun h => ({ h.running3.cellar1 with harv := { op := 1, vintage := 9, slots := [3], rect := 0x03070000, caps := ⟨[(5, { selected := true }), (6, { selected := true })]⟩ }, tiles := h.running3.tiles.set 5 { st := .inContext, slot := 3, rdOut := 1 } }))).hub.harv.caps.keys (on (fun h => ({ h.running3.cellar1 with harv := { op := 1, vintage := 9, slots := [3], rect := 0x03070000, caps := ⟨[(5, { selected := true }), (6, { selected := true })]⟩ }, tiles := h.running3.tiles.set 5 { st := .inContext, slot := 3, rdOut := 1 } }))).hub.harv.regions.length ((on (fun h => ({ h.running3.cellar1 with harv := { op := 1, vintage := 9, slots := [3], rect := 0x03070000, caps := ⟨[(5, { selected := true }), (6, { selected := true })]⟩ }, tiles := h.running3.tiles.set 5 { st := .inContext, slot := 3, rdOut := 1 } }))).hub.rectRows (on (fun h => ({ h.running3.cellar1 with harv := { op := 1, vintage := 9, slots := [3], rect := 0x03070000, caps := ⟨[(5, { selected := true }), (6, { selected := true })]⟩ }, tiles := h.running3.tiles.set 5 { st := .inContext, slot := 3, rdOut := 1 } }))).hub.harv.rect); if need < (on (fun h => ({ h.running3.cellar1 with harv := { op := 1, vintage := 9, slots := [3], rect := 0x03070000, caps := ⟨[(5, { selected := true }), (6, { selected := true })]⟩ }, tiles := h.running3.tiles.set 5 { st := .inContext, slot := 3, rdOut := 1 } }))).hub.rd F.CELL_ADMIT_CASKS then (on (fun h => ({ h.running3.cellar1 with harv := { op := 1, vintage := 9, slots := [3], rect := 0x03070000, caps := ⟨[(5, { selected := true }), (6, { selected := true })]⟩ }, tiles := h.running3.tiles.set 5 { st := .inContext, slot := 3, rdOut := 1 } }))).hub.rd F.CELL_ADMIT_CASKS else need) ≤ (on (fun h => ({ h.running3.cellar1 with harv := { op := 1, vintage := 9, slots := [3], rect := 0x03070000, caps := ⟨[(5, { selected := true }), (6, { selected := true })]⟩ }, tiles := h.running3.tiles.set 5 { st := .inContext, slot := 3, rdOut := 1 } }))).hub.freeCasks ∧ (on (fun h => ({ h.running3.cellar1 with harv := { op := 1, vintage := 9, slots := [3], rect := 0x03070000, caps := ⟨[(5, { selected := true }), (6, { selected := true })]⟩ }, tiles := h.running3.tiles.set 5 { st := .inContext, slot := 3, rdOut := 1 } }))).hub.freeEntry.isSome = true ∧ (on (fun h => ({ h.running3.cellar1 with harv := { op := 1, vintage := 9, slots := [3], rect := 0x03070000, caps := ⟨[(5, { selected := true }), (6, { selected := true })]⟩ }, tiles := h.running3.tiles.set 5 { st := .inContext, slot := 3, rdOut := 1 } }))).hub.drainTiles.all (fun t => ((on (fun h => ({ h.running3.cellar1 with harv := { op := 1, vintage := 9, slots := [3], rect := 0x03070000, caps := ⟨[(5, { selected := true }), (6, { selected := true })]⟩ }, tiles := h.running3.tiles.set 5 { st := .inContext, slot := 3, rdOut := 1 } }))).hub.tile t).quietNow) = false) ∧
    ((on (fun h => { ({ h.running3.cellar1 with harv := { op := 1, vintage := 9, slots := [3], rect := 0x03070000, caps := ⟨[(5, { selected := true }), (6, { selected := true })]⟩ }, tiles := h.running3.tiles.set 5 { st := .inContext, slot := 3, rdOut := 1 } }) with harv := { ({ h.running3.cellar1 with harv := { op := 1, vintage := 9, slots := [3], rect := 0x03070000, caps := ⟨[(5, { selected := true }), (6, { selected := true })]⟩ }, tiles := h.running3.tiles.set 5 { st := .inContext, slot := 3, rdOut := 1 } }).harv with stalled := true } })).hub.calm = true ∧ (on (fun h => { ({ h.running3.cellar1 with harv := { op := 1, vintage := 9, slots := [3], rect := 0x03070000, caps := ⟨[(5, { selected := true }), (6, { selected := true })]⟩ }, tiles := h.running3.tiles.set 5 { st := .inContext, slot := 3, rdOut := 1 } }) with harv := { ({ h.running3.cellar1 with harv := { op := 1, vintage := 9, slots := [3], rect := 0x03070000, caps := ⟨[(5, { selected := true }), (6, { selected := true })]⟩ }, tiles := h.running3.tiles.set 5 { st := .inContext, slot := 3, rdOut := 1 } }).harv with stalled := true } })).hub.harv.op = 1 ∧ (on (fun h => { ({ h.running3.cellar1 with harv := { op := 1, vintage := 9, slots := [3], rect := 0x03070000, caps := ⟨[(5, { selected := true }), (6, { selected := true })]⟩ }, tiles := h.running3.tiles.set 5 { st := .inContext, slot := 3, rdOut := 1 } }) with harv := { ({ h.running3.cellar1 with harv := { op := 1, vintage := 9, slots := [3], rect := 0x03070000, caps := ⟨[(5, { selected := true }), (6, { selected := true })]⟩ }, tiles := h.running3.tiles.set 5 { st := .inContext, slot := 3, rdOut := 1 } }).harv with stalled := true } })).hub.harv.admitted = false ∧ (on (fun h => { ({ h.running3.cellar1 with harv := { op := 1, vintage := 9, slots := [3], rect := 0x03070000, caps := ⟨[(5, { selected := true }), (6, { selected := true })]⟩ }, tiles := h.running3.tiles.set 5 { st := .inContext, slot := 3, rdOut := 1 } }) with harv := { ({ h.running3.cellar1 with harv := { op := 1, vintage := 9, slots := [3], rect := 0x03070000, caps := ⟨[(5, { selected := true }), (6, { selected := true })]⟩ }, tiles := h.running3.tiles.set 5 { st := .inContext, slot := 3, rdOut := 1 } }).harv with stalled := true } })).hub.harv.closed = false ∧ (on (fun h => { ({ h.running3.cellar1 with harv := { op := 1, vintage := 9, slots := [3], rect := 0x03070000, caps := ⟨[(5, { selected := true }), (6, { selected := true })]⟩ }, tiles := h.running3.tiles.set 5 { st := .inContext, slot := 3, rdOut := 1 } }) with harv := { ({ h.running3.cellar1 with harv := { op := 1, vintage := 9, slots := [3], rect := 0x03070000, caps := ⟨[(5, { selected := true }), (6, { selected := true })]⟩ }, tiles := h.running3.tiles.set 5 { st := .inContext, slot := 3, rdOut := 1 } }).harv with stalled := true } })).hub.harv.stalled = true ∧ (let need := (on (fun h => { ({ h.running3.cellar1 with harv := { op := 1, vintage := 9, slots := [3], rect := 0x03070000, caps := ⟨[(5, { selected := true }), (6, { selected := true })]⟩ }, tiles := h.running3.tiles.set 5 { st := .inContext, slot := 3, rdOut := 1 } }) with harv := { ({ h.running3.cellar1 with harv := { op := 1, vintage := 9, slots := [3], rect := 0x03070000, caps := ⟨[(5, { selected := true }), (6, { selected := true })]⟩ }, tiles := h.running3.tiles.set 5 { st := .inContext, slot := 3, rdOut := 1 } }).harv with stalled := true } })).hub.reservation (on (fun h => { ({ h.running3.cellar1 with harv := { op := 1, vintage := 9, slots := [3], rect := 0x03070000, caps := ⟨[(5, { selected := true }), (6, { selected := true })]⟩ }, tiles := h.running3.tiles.set 5 { st := .inContext, slot := 3, rdOut := 1 } }) with harv := { ({ h.running3.cellar1 with harv := { op := 1, vintage := 9, slots := [3], rect := 0x03070000, caps := ⟨[(5, { selected := true }), (6, { selected := true })]⟩ }, tiles := h.running3.tiles.set 5 { st := .inContext, slot := 3, rdOut := 1 } }).harv with stalled := true } })).hub.harv.slots.length (on (fun h => { ({ h.running3.cellar1 with harv := { op := 1, vintage := 9, slots := [3], rect := 0x03070000, caps := ⟨[(5, { selected := true }), (6, { selected := true })]⟩ }, tiles := h.running3.tiles.set 5 { st := .inContext, slot := 3, rdOut := 1 } }) with harv := { ({ h.running3.cellar1 with harv := { op := 1, vintage := 9, slots := [3], rect := 0x03070000, caps := ⟨[(5, { selected := true }), (6, { selected := true })]⟩ }, tiles := h.running3.tiles.set 5 { st := .inContext, slot := 3, rdOut := 1 } }).harv with stalled := true } })).hub.harv.caps.keys (on (fun h => { ({ h.running3.cellar1 with harv := { op := 1, vintage := 9, slots := [3], rect := 0x03070000, caps := ⟨[(5, { selected := true }), (6, { selected := true })]⟩ }, tiles := h.running3.tiles.set 5 { st := .inContext, slot := 3, rdOut := 1 } }) with harv := { ({ h.running3.cellar1 with harv := { op := 1, vintage := 9, slots := [3], rect := 0x03070000, caps := ⟨[(5, { selected := true }), (6, { selected := true })]⟩ }, tiles := h.running3.tiles.set 5 { st := .inContext, slot := 3, rdOut := 1 } }).harv with stalled := true } })).hub.harv.regions.length ((on (fun h => { ({ h.running3.cellar1 with harv := { op := 1, vintage := 9, slots := [3], rect := 0x03070000, caps := ⟨[(5, { selected := true }), (6, { selected := true })]⟩ }, tiles := h.running3.tiles.set 5 { st := .inContext, slot := 3, rdOut := 1 } }) with harv := { ({ h.running3.cellar1 with harv := { op := 1, vintage := 9, slots := [3], rect := 0x03070000, caps := ⟨[(5, { selected := true }), (6, { selected := true })]⟩ }, tiles := h.running3.tiles.set 5 { st := .inContext, slot := 3, rdOut := 1 } }).harv with stalled := true } })).hub.rectRows (on (fun h => { ({ h.running3.cellar1 with harv := { op := 1, vintage := 9, slots := [3], rect := 0x03070000, caps := ⟨[(5, { selected := true }), (6, { selected := true })]⟩ }, tiles := h.running3.tiles.set 5 { st := .inContext, slot := 3, rdOut := 1 } }) with harv := { ({ h.running3.cellar1 with harv := { op := 1, vintage := 9, slots := [3], rect := 0x03070000, caps := ⟨[(5, { selected := true }), (6, { selected := true })]⟩ }, tiles := h.running3.tiles.set 5 { st := .inContext, slot := 3, rdOut := 1 } }).harv with stalled := true } })).hub.harv.rect); if need < (on (fun h => { ({ h.running3.cellar1 with harv := { op := 1, vintage := 9, slots := [3], rect := 0x03070000, caps := ⟨[(5, { selected := true }), (6, { selected := true })]⟩ }, tiles := h.running3.tiles.set 5 { st := .inContext, slot := 3, rdOut := 1 } }) with harv := { ({ h.running3.cellar1 with harv := { op := 1, vintage := 9, slots := [3], rect := 0x03070000, caps := ⟨[(5, { selected := true }), (6, { selected := true })]⟩ }, tiles := h.running3.tiles.set 5 { st := .inContext, slot := 3, rdOut := 1 } }).harv with stalled := true } })).hub.rd F.CELL_ADMIT_CASKS then (on (fun h => { ({ h.running3.cellar1 with harv := { op := 1, vintage := 9, slots := [3], rect := 0x03070000, caps := ⟨[(5, { selected := true }), (6, { selected := true })]⟩ }, tiles := h.running3.tiles.set 5 { st := .inContext, slot := 3, rdOut := 1 } }) with harv := { ({ h.running3.cellar1 with harv := { op := 1, vintage := 9, slots := [3], rect := 0x03070000, caps := ⟨[(5, { selected := true }), (6, { selected := true })]⟩ }, tiles := h.running3.tiles.set 5 { st := .inContext, slot := 3, rdOut := 1 } }).harv with stalled := true } })).hub.rd F.CELL_ADMIT_CASKS else need) ≤ (on (fun h => { ({ h.running3.cellar1 with harv := { op := 1, vintage := 9, slots := [3], rect := 0x03070000, caps := ⟨[(5, { selected := true }), (6, { selected := true })]⟩ }, tiles := h.running3.tiles.set 5 { st := .inContext, slot := 3, rdOut := 1 } }) with harv := { ({ h.running3.cellar1 with harv := { op := 1, vintage := 9, slots := [3], rect := 0x03070000, caps := ⟨[(5, { selected := true }), (6, { selected := true })]⟩ }, tiles := h.running3.tiles.set 5 { st := .inContext, slot := 3, rdOut := 1 } }).harv with stalled := true } })).hub.freeCasks ∧ (on (fun h => { ({ h.running3.cellar1 with harv := { op := 1, vintage := 9, slots := [3], rect := 0x03070000, caps := ⟨[(5, { selected := true }), (6, { selected := true })]⟩ }, tiles := h.running3.tiles.set 5 { st := .inContext, slot := 3, rdOut := 1 } }) with harv := { ({ h.running3.cellar1 with harv := { op := 1, vintage := 9, slots := [3], rect := 0x03070000, caps := ⟨[(5, { selected := true }), (6, { selected := true })]⟩ }, tiles := h.running3.tiles.set 5 { st := .inContext, slot := 3, rdOut := 1 } }).harv with stalled := true } })).hub.freeEntry.isSome = true ∧ (on (fun h => { ({ h.running3.cellar1 with harv := { op := 1, vintage := 9, slots := [3], rect := 0x03070000, caps := ⟨[(5, { selected := true }), (6, { selected := true })]⟩ }, tiles := h.running3.tiles.set 5 { st := .inContext, slot := 3, rdOut := 1 } }) with harv := { ({ h.running3.cellar1 with harv := { op := 1, vintage := 9, slots := [3], rect := 0x03070000, caps := ⟨[(5, { selected := true }), (6, { selected := true })]⟩ }, tiles := h.running3.tiles.set 5 { st := .inContext, slot := 3, rdOut := 1 } }).harv with stalled := true } })).hub.drainTiles.all (fun t => ((on (fun h => { ({ h.running3.cellar1 with harv := { op := 1, vintage := 9, slots := [3], rect := 0x03070000, caps := ⟨[(5, { selected := true }), (6, { selected := true })]⟩ }, tiles := h.running3.tiles.set 5 { st := .inContext, slot := 3, rdOut := 1 } }) with harv := { ({ h.running3.cellar1 with harv := { op := 1, vintage := 9, slots := [3], rect := 0x03070000, caps := ⟨[(5, { selected := true }), (6, { selected := true })]⟩ }, tiles := h.running3.tiles.set 5 { st := .inContext, slot := 3, rdOut := 1 } }).harv with stalled := true } })).hub.tile t).quietNow) = false) ∧
    ({ (on (fun h => { ({ h.running3.cellar1 with harv := { op := 1, vintage := 9, slots := [3], rect := 0x03070000, caps := ⟨[(5, { selected := true }), (6, { selected := true })]⟩ }, tiles := h.running3.tiles.set 5 { st := .inContext, slot := 3, rdOut := 1 } }) with harv := { ({ h.running3.cellar1 with harv := { op := 1, vintage := 9, slots := [3], rect := 0x03070000, caps := ⟨[(5, { selected := true }), (6, { selected := true })]⟩ }, tiles := h.running3.tiles.set 5 { st := .inContext, slot := 3, rdOut := 1 } }).harv with admitted := true, waveAt := 0 }, time := { h.time with hclk := 20000000 } })).hub with harv := {} }.calm = true ∧ (on (fun h => { ({ h.running3.cellar1 with harv := { op := 1, vintage := 9, slots := [3], rect := 0x03070000, caps := ⟨[(5, { selected := true }), (6, { selected := true })]⟩ }, tiles := h.running3.tiles.set 5 { st := .inContext, slot := 3, rdOut := 1 } }) with harv := { ({ h.running3.cellar1 with harv := { op := 1, vintage := 9, slots := [3], rect := 0x03070000, caps := ⟨[(5, { selected := true }), (6, { selected := true })]⟩ }, tiles := h.running3.tiles.set 5 { st := .inContext, slot := 3, rdOut := 1 } }).harv with admitted := true, waveAt := 0 }, time := { h.time with hclk := 20000000 } })).hub.harv.op = 1 ∧ (on (fun h => { ({ h.running3.cellar1 with harv := { op := 1, vintage := 9, slots := [3], rect := 0x03070000, caps := ⟨[(5, { selected := true }), (6, { selected := true })]⟩ }, tiles := h.running3.tiles.set 5 { st := .inContext, slot := 3, rdOut := 1 } }) with harv := { ({ h.running3.cellar1 with harv := { op := 1, vintage := 9, slots := [3], rect := 0x03070000, caps := ⟨[(5, { selected := true }), (6, { selected := true })]⟩ }, tiles := h.running3.tiles.set 5 { st := .inContext, slot := 3, rdOut := 1 } }).harv with admitted := true, waveAt := 0 }, time := { h.time with hclk := 20000000 } })).hub.harv.admitted = true ∧ (on (fun h => { ({ h.running3.cellar1 with harv := { op := 1, vintage := 9, slots := [3], rect := 0x03070000, caps := ⟨[(5, { selected := true }), (6, { selected := true })]⟩ }, tiles := h.running3.tiles.set 5 { st := .inContext, slot := 3, rdOut := 1 } }) with harv := { ({ h.running3.cellar1 with harv := { op := 1, vintage := 9, slots := [3], rect := 0x03070000, caps := ⟨[(5, { selected := true }), (6, { selected := true })]⟩ }, tiles := h.running3.tiles.set 5 { st := .inContext, slot := 3, rdOut := 1 } }).harv with admitted := true, waveAt := 0 }, time := { h.time with hclk := 20000000 } })).hub.harv.drained = false ∧ (on (fun h => { ({ h.running3.cellar1 with harv := { op := 1, vintage := 9, slots := [3], rect := 0x03070000, caps := ⟨[(5, { selected := true }), (6, { selected := true })]⟩ }, tiles := h.running3.tiles.set 5 { st := .inContext, slot := 3, rdOut := 1 } }) with harv := { ({ h.running3.cellar1 with harv := { op := 1, vintage := 9, slots := [3], rect := 0x03070000, caps := ⟨[(5, { selected := true }), (6, { selected := true })]⟩ }, tiles := h.running3.tiles.set 5 { st := .inContext, slot := 3, rdOut := 1 } }).harv with admitted := true, waveAt := 0 }, time := { h.time with hclk := 20000000 } })).hub.harv.ended = none ∧ (on (fun h => { ({ h.running3.cellar1 with harv := { op := 1, vintage := 9, slots := [3], rect := 0x03070000, caps := ⟨[(5, { selected := true }), (6, { selected := true })]⟩ }, tiles := h.running3.tiles.set 5 { st := .inContext, slot := 3, rdOut := 1 } }) with harv := { ({ h.running3.cellar1 with harv := { op := 1, vintage := 9, slots := [3], rect := 0x03070000, caps := ⟨[(5, { selected := true }), (6, { selected := true })]⟩ }, tiles := h.running3.tiles.set 5 { st := .inContext, slot := 3, rdOut := 1 } }).harv with admitted := true, waveAt := 0 }, time := { h.time with hclk := 20000000 } })).hub.elapsed (on (fun h => { ({ h.running3.cellar1 with harv := { op := 1, vintage := 9, slots := [3], rect := 0x03070000, caps := ⟨[(5, { selected := true }), (6, { selected := true })]⟩ }, tiles := h.running3.tiles.set 5 { st := .inContext, slot := 3, rdOut := 1 } }) with harv := { ({ h.running3.cellar1 with harv := { op := 1, vintage := 9, slots := [3], rect := 0x03070000, caps := ⟨[(5, { selected := true }), (6, { selected := true })]⟩ }, tiles := h.running3.tiles.set 5 { st := .inContext, slot := 3, rdOut := 1 } }).harv with admitted := true, waveAt := 0 }, time := { h.time with hclk := 20000000 } })).hub.harv.waveAt ((on (fun h => { ({ h.running3.cellar1 with harv := { op := 1, vintage := 9, slots := [3], rect := 0x03070000, caps := ⟨[(5, { selected := true }), (6, { selected := true })]⟩ }, tiles := h.running3.tiles.set 5 { st := .inContext, slot := 3, rdOut := 1 } }) with harv := { ({ h.running3.cellar1 with harv := { op := 1, vintage := 9, slots := [3], rect := 0x03070000, caps := ⟨[(5, { selected := true }), (6, { selected := true })]⟩ }, tiles := h.running3.tiles.set 5 { st := .inContext, slot := 3, rdOut := 1 } }).harv with admitted := true, waveAt := 0 }, time := { h.time with hclk := 20000000 } })).hub.rd F.HARV_DRAIN_LIMIT_HCLK) = true ∧ (on (fun h => { ({ h.running3.cellar1 with harv := { op := 1, vintage := 9, slots := [3], rect := 0x03070000, caps := ⟨[(5, { selected := true }), (6, { selected := true })]⟩ }, tiles := h.running3.tiles.set 5 { st := .inContext, slot := 3, rdOut := 1 } }) with harv := { ({ h.running3.cellar1 with harv := { op := 1, vintage := 9, slots := [3], rect := 0x03070000, caps := ⟨[(5, { selected := true }), (6, { selected := true })]⟩ }, tiles := h.running3.tiles.set 5 { st := .inContext, slot := 3, rdOut := 1 } }).harv with admitted := true, waveAt := 0 }, time := { h.time with hclk := 20000000 } })).hub.drainTiles.find? (fun u => !((on (fun h => { ({ h.running3.cellar1 with harv := { op := 1, vintage := 9, slots := [3], rect := 0x03070000, caps := ⟨[(5, { selected := true }), (6, { selected := true })]⟩ }, tiles := h.running3.tiles.set 5 { st := .inContext, slot := 3, rdOut := 1 } }) with harv := { ({ h.running3.cellar1 with harv := { op := 1, vintage := 9, slots := [3], rect := 0x03070000, caps := ⟨[(5, { selected := true }), (6, { selected := true })]⟩ }, tiles := h.running3.tiles.set 5 { st := .inContext, slot := 3, rdOut := 1 } }).harv with admitted := true, waveAt := 0 }, time := { h.time with hclk := 20000000 } })).hub.tile u).quietNow) = some (5 : Nat) ∧ Sel.traceSnap (on (fun h => { ({ h.running3.cellar1 with harv := { op := 1, vintage := 9, slots := [3], rect := 0x03070000, caps := ⟨[(5, { selected := true }), (6, { selected := true })]⟩ }, tiles := h.running3.tiles.set 5 { st := .inContext, slot := 3, rdOut := 1 } }) with harv := { ({ h.running3.cellar1 with harv := { op := 1, vintage := 9, slots := [3], rect := 0x03070000, caps := ⟨[(5, { selected := true }), (6, { selected := true })]⟩ }, tiles := h.running3.tiles.set 5 { st := .inContext, slot := 3, rdOut := 1 } }).harv with admitted := true, waveAt := 0 }, time := { h.time with hclk := 20000000 } })).hub.harv.sel = false) ∧
    ((on (fun h => { ({ h.stopped3.cellar1 with lanes := ⟨[(0, { cur := some { type := 5, flags := 0, tile := 0, offset := 0, payload := [] } })]⟩, harv := { op := 1, admitted := true, drained := true, vintage := 9, slots := [3], rect := 0x03070000, range := 0x03FF0000, caps := ⟨[(5, { selected := true, slot := some 3 }), (6, { selected := true, slot := some 3 })]⟩, cur := ⟨[(5, { phase := 1, tiles := [5], silent := 100000000 }), (6, { phase := 1, tiles := [6] })]⟩ } }) with tiles := h.stopped3.tiles.set 5 { st := .inContext, slot := 3, catchBuf := [{}] } })).hub.calm = true ∧ (on (fun h => { ({ h.stopped3.cellar1 with lanes := ⟨[(0, { cur := some { type := 5, flags := 0, tile := 0, offset := 0, payload := [] } })]⟩, harv := { op := 1, admitted := true, drained := true, vintage := 9, slots := [3], rect := 0x03070000, range := 0x03FF0000, caps := ⟨[(5, { selected := true, slot := some 3 }), (6, { selected := true, slot := some 3 })]⟩, cur := ⟨[(5, { phase := 1, tiles := [5], silent := 100000000 }), (6, { phase := 1, tiles := [6] })]⟩ } }) with tiles := h.stopped3.tiles.set 5 { st := .inContext, slot := 3, catchBuf := [{}] } })).hub.recordGranted (5 : Cane) = true ∧ ((on (fun h => { ({ h.stopped3.cellar1 with lanes := ⟨[(0, { cur := some { type := 5, flags := 0, tile := 0, offset := 0, payload := [] } })]⟩, harv := { op := 1, admitted := true, drained := true, vintage := 9, slots := [3], rect := 0x03070000, range := 0x03FF0000, caps := ⟨[(5, { selected := true, slot := some 3 }), (6, { selected := true, slot := some 3 })]⟩, cur := ⟨[(5, { phase := 1, tiles := [5], silent := 100000000 }), (6, { phase := 1, tiles := [6] })]⟩ } }) with tiles := h.stopped3.tiles.set 5 { st := .inContext, slot := 3, catchBuf := [{}] } })).hub.cursor (5 : Cane)).tiles = (5 : Nat) :: ([] : List Nat) ∧ (on (fun h => { ({ h.stopped3.cellar1 with lanes := ⟨[(0, { cur := some { type := 5, flags := 0, tile := 0, offset := 0, payload := [] } })]⟩, harv := { op := 1, admitted := true, drained := true, vintage := 9, slots := [3], rect := 0x03070000, range := 0x03FF0000, caps := ⟨[(5, { selected := true, slot := some 3 }), (6, { selected := true, slot := some 3 })]⟩, cur := ⟨[(5, { phase := 1, tiles := [5], silent := 100000000 }), (6, { phase := 1, tiles := [6] })]⟩ } }) with tiles := h.stopped3.tiles.set 5 { st := .inContext, slot := 3, catchBuf := [{}] } })).hub.shut (5 : Nat) = none ∧ ((on (fun h => { ({ h.stopped3.cellar1 with lanes := ⟨[(0, { cur := some { type := 5, flags := 0, tile := 0, offset := 0, payload := [] } })]⟩, harv := { op := 1, admitted := true, drained := true, vintage := 9, slots := [3], rect := 0x03070000, range := 0x03FF0000, caps := ⟨[(5, { selected := true, slot := some 3 }), (6, { selected := true, slot := some 3 })]⟩, cur := ⟨[(5, { phase := 1, tiles := [5], silent := 100000000 }), (6, { phase := 1, tiles := [6] })]⟩ } }) with tiles := h.stopped3.tiles.set 5 { st := .inContext, slot := 3, catchBuf := [{}] } })).hub.lane ((on (fun h => { ({ h.stopped3.cellar1 with lanes := ⟨[(0, { cur := some { type := 5, flags := 0, tile := 0, offset := 0, payload := [] } })]⟩, harv := { op := 1, admitted := true, drained := true, vintage := 9, slots := [3], rect := 0x03070000, range := 0x03FF0000, caps := ⟨[(5, { selected := true, slot := some 3 }), (6, { selected := true, slot := some 3 })]⟩, cur := ⟨[(5, { phase := 1, tiles := [5], silent := 100000000 }), (6, { phase := 1, tiles := [6] })]⟩ } }) with tiles := h.stopped3.tiles.set 5 { st := .inContext, slot := 3, catchBuf := [{}] } })).hub.servedBy ((on (fun h => { ({ h.stopped3.cellar1 with lanes := ⟨[(0, { cur := some { type := 5, flags := 0, tile := 0, offset := 0, payload := [] } })]⟩, harv := { op := 1, admitted := true, drained := true, vintage := 9, slots := [3], rect := 0x03070000, range := 0x03FF0000, caps := ⟨[(5, { selected := true, slot := some 3 }), (6, { selected := true, slot := some 3 })]⟩, cur := ⟨[(5, { phase := 1, tiles := [5], silent := 100000000 }), (6, { phase := 1, tiles := [6] })]⟩ } }) with tiles := h.stopped3.tiles.set 5 { st := .inContext, slot := 3, catchBuf := [{}] } })).hub.caneFor (5 : Cane) / 8))).cur.isSome = true ∧ ((on (fun h => { ({ h.stopped3.cellar1 with lanes := ⟨[(0, { cur := some { type := 5, flags := 0, tile := 0, offset := 0, payload := [] } })]⟩, harv := { op := 1, admitted := true, drained := true, vintage := 9, slots := [3], rect := 0x03070000, range := 0x03FF0000, caps := ⟨[(5, { selected := true, slot := some 3 }), (6, { selected := true, slot := some 3 })]⟩, cur := ⟨[(5, { phase := 1, tiles := [5], silent := 100000000 }), (6, { phase := 1, tiles := [6] })]⟩ } }) with tiles := h.stopped3.tiles.set 5 { st := .inContext, slot := 3, catchBuf := [{}] } })).hub.cursor (5 : Cane)).sub + 1 < (on (fun h => { ({ h.stopped3.cellar1 with lanes := ⟨[(0, { cur := some { type := 5, flags := 0, tile := 0, offset := 0, payload := [] } })]⟩, harv := { op := 1, admitted := true, drained := true, vintage := 9, slots := [3], rect := 0x03070000, range := 0x03FF0000, caps := ⟨[(5, { selected := true, slot := some 3 }), (6, { selected := true, slot := some 3 })]⟩, cur := ⟨[(5, { phase := 1, tiles := [5], silent := 100000000 }), (6, { phase := 1, tiles := [6] })]⟩ } }) with tiles := h.stopped3.tiles.set 5 { st := .inContext, slot := 3, catchBuf := [{}] } })).hub.subCount ((on (fun h => { ({ h.stopped3.cellar1 with lanes := ⟨[(0, { cur := some { type := 5, flags := 0, tile := 0, offset := 0, payload := [] } })]⟩, harv := { op := 1, admitted := true, drained := true, vintage := 9, slots := [3], rect := 0x03070000, range := 0x03FF0000, caps := ⟨[(5, { selected := true, slot := some 3 }), (6, { selected := true, slot := some 3 })]⟩, cur := ⟨[(5, { phase := 1, tiles := [5], silent := 100000000 }), (6, { phase := 1, tiles := [6] })]⟩ } }) with tiles := h.stopped3.tiles.set 5 { st := .inContext, slot := 3, catchBuf := [{}] } })).hub.cursor (5 : Cane)).phase ((on (fun h => { ({ h.stopped3.cellar1 with lanes := ⟨[(0, { cur := some { type := 5, flags := 0, tile := 0, offset := 0, payload := [] } })]⟩, harv := { op := 1, admitted := true, drained := true, vintage := 9, slots := [3], rect := 0x03070000, range := 0x03FF0000, caps := ⟨[(5, { selected := true, slot := some 3 }), (6, { selected := true, slot := some 3 })]⟩, cur := ⟨[(5, { phase := 1, tiles := [5], silent := 100000000 }), (6, { phase := 1, tiles := [6] })]⟩ } }) with tiles := h.stopped3.tiles.set 5 { st := .inContext, slot := 3, catchBuf := [{}] } })).hub.cursor (5 : Cane)).sub (5 : Nat)) ∧
    ((on (fun h => { ({ h.stopped3.cellar1 with lanes := ⟨[(0, { cur := some { type := 5, flags := 0, tile := 0, offset := 0, payload := [] } })]⟩, harv := { op := 1, admitted := true, drained := true, vintage := 9, slots := [3], rect := 0x03070000, range := 0x03FF0000, caps := ⟨[(5, { selected := true, slot := some 3 }), (6, { selected := true, slot := some 3 })]⟩, cur := ⟨[(5, { phase := 1, tiles := [5], silent := 100000000 }), (6, { phase := 1, tiles := [6] })]⟩ } }) with harv := { ({ h.stopped3.cellar1 with lanes := ⟨[(0, { cur := some { type := 5, flags := 0, tile := 0, offset := 0, payload := [] } })]⟩, harv := { op := 1, admitted := true, drained := true, vintage := 9, slots := [3], rect := 0x03070000, range := 0x03FF0000, caps := ⟨[(5, { selected := true, slot := some 3 }), (6, { selected := true, slot := some 3 })]⟩, cur := ⟨[(5, { phase := 1, tiles := [5], silent := 100000000 }), (6, { phase := 1, tiles := [6] })]⟩ } }).harv with cur := ⟨[(5, { phase := 1, tiles := [5, 6] })]⟩ } })).hub.calm = true ∧ (on (fun h => { ({ h.stopped3.cellar1 with lanes := ⟨[(0, { cur := some { type := 5, flags := 0, tile := 0, offset := 0, payload := [] } })]⟩, harv := { op := 1, admitted := true, drained := true, vintage := 9, slots := [3], rect := 0x03070000, range := 0x03FF0000, caps := ⟨[(5, { selected := true, slot := some 3 }), (6, { selected := true, slot := some 3 })]⟩, cur := ⟨[(5, { phase := 1, tiles := [5], silent := 100000000 }), (6, { phase := 1, tiles := [6] })]⟩ } }) with harv := { ({ h.stopped3.cellar1 with lanes := ⟨[(0, { cur := some { type := 5, flags := 0, tile := 0, offset := 0, payload := [] } })]⟩, harv := { op := 1, admitted := true, drained := true, vintage := 9, slots := [3], rect := 0x03070000, range := 0x03FF0000, caps := ⟨[(5, { selected := true, slot := some 3 }), (6, { selected := true, slot := some 3 })]⟩, cur := ⟨[(5, { phase := 1, tiles := [5], silent := 100000000 }), (6, { phase := 1, tiles := [6] })]⟩ } }).harv with cur := ⟨[(5, { phase := 1, tiles := [5, 6] })]⟩ } })).hub.recordGranted (5 : Cane) = true ∧ ((on (fun h => { ({ h.stopped3.cellar1 with lanes := ⟨[(0, { cur := some { type := 5, flags := 0, tile := 0, offset := 0, payload := [] } })]⟩, harv := { op := 1, admitted := true, drained := true, vintage := 9, slots := [3], rect := 0x03070000, range := 0x03FF0000, caps := ⟨[(5, { selected := true, slot := some 3 }), (6, { selected := true, slot := some 3 })]⟩, cur := ⟨[(5, { phase := 1, tiles := [5], silent := 100000000 }), (6, { phase := 1, tiles := [6] })]⟩ } }) with harv := { ({ h.stopped3.cellar1 with lanes := ⟨[(0, { cur := some { type := 5, flags := 0, tile := 0, offset := 0, payload := [] } })]⟩, harv := { op := 1, admitted := true, drained := true, vintage := 9, slots := [3], rect := 0x03070000, range := 0x03FF0000, caps := ⟨[(5, { selected := true, slot := some 3 }), (6, { selected := true, slot := some 3 })]⟩, cur := ⟨[(5, { phase := 1, tiles := [5], silent := 100000000 }), (6, { phase := 1, tiles := [6] })]⟩ } }).harv with cur := ⟨[(5, { phase := 1, tiles := [5, 6] })]⟩ } })).hub.cursor (5 : Cane)).tiles = (5 : Nat) :: (6 : Nat) :: ([] : List Nat) ∧ (on (fun h => { ({ h.stopped3.cellar1 with lanes := ⟨[(0, { cur := some { type := 5, flags := 0, tile := 0, offset := 0, payload := [] } })]⟩, harv := { op := 1, admitted := true, drained := true, vintage := 9, slots := [3], rect := 0x03070000, range := 0x03FF0000, caps := ⟨[(5, { selected := true, slot := some 3 }), (6, { selected := true, slot := some 3 })]⟩, cur := ⟨[(5, { phase := 1, tiles := [5], silent := 100000000 }), (6, { phase := 1, tiles := [6] })]⟩ } }) with harv := { ({ h.stopped3.cellar1 with lanes := ⟨[(0, { cur := some { type := 5, flags := 0, tile := 0, offset := 0, payload := [] } })]⟩, harv := { op := 1, admitted := true, drained := true, vintage := 9, slots := [3], rect := 0x03070000, range := 0x03FF0000, caps := ⟨[(5, { selected := true, slot := some 3 }), (6, { selected := true, slot := some 3 })]⟩, cur := ⟨[(5, { phase := 1, tiles := [5], silent := 100000000 }), (6, { phase := 1, tiles := [6] })]⟩ } }).harv with cur := ⟨[(5, { phase := 1, tiles := [5, 6] })]⟩ } })).hub.shut (5 : Nat) = none ∧ ((on (fun h => { ({ h.stopped3.cellar1 with lanes := ⟨[(0, { cur := some { type := 5, flags := 0, tile := 0, offset := 0, payload := [] } })]⟩, harv := { op := 1, admitted := true, drained := true, vintage := 9, slots := [3], rect := 0x03070000, range := 0x03FF0000, caps := ⟨[(5, { selected := true, slot := some 3 }), (6, { selected := true, slot := some 3 })]⟩, cur := ⟨[(5, { phase := 1, tiles := [5], silent := 100000000 }), (6, { phase := 1, tiles := [6] })]⟩ } }) with harv := { ({ h.stopped3.cellar1 with lanes := ⟨[(0, { cur := some { type := 5, flags := 0, tile := 0, offset := 0, payload := [] } })]⟩, harv := { op := 1, admitted := true, drained := true, vintage := 9, slots := [3], rect := 0x03070000, range := 0x03FF0000, caps := ⟨[(5, { selected := true, slot := some 3 }), (6, { selected := true, slot := some 3 })]⟩, cur := ⟨[(5, { phase := 1, tiles := [5], silent := 100000000 }), (6, { phase := 1, tiles := [6] })]⟩ } }).harv with cur := ⟨[(5, { phase := 1, tiles := [5, 6] })]⟩ } })).hub.lane ((on (fun h => { ({ h.stopped3.cellar1 with lanes := ⟨[(0, { cur := some { type := 5, flags := 0, tile := 0, offset := 0, payload := [] } })]⟩, harv := { op := 1, admitted := true, drained := true, vintage := 9, slots := [3], rect := 0x03070000, range := 0x03FF0000, caps := ⟨[(5, { selected := true, slot := some 3 }), (6, { selected := true, slot := some 3 })]⟩, cur := ⟨[(5, { phase := 1, tiles := [5], silent := 100000000 }), (6, { phase := 1, tiles := [6] })]⟩ } }) with harv := { ({ h.stopped3.cellar1 with lanes := ⟨[(0, { cur := some { type := 5, flags := 0, tile := 0, offset := 0, payload := [] } })]⟩, harv := { op := 1, admitted := true, drained := true, vintage := 9, slots := [3], rect := 0x03070000, range := 0x03FF0000, caps := ⟨[(5, { selected := true, slot := some 3 }), (6, { selected := true, slot := some 3 })]⟩, cur := ⟨[(5, { phase := 1, tiles := [5], silent := 100000000 }), (6, { phase := 1, tiles := [6] })]⟩ } }).harv with cur := ⟨[(5, { phase := 1, tiles := [5, 6] })]⟩ } })).hub.servedBy ((on (fun h => { ({ h.stopped3.cellar1 with lanes := ⟨[(0, { cur := some { type := 5, flags := 0, tile := 0, offset := 0, payload := [] } })]⟩, harv := { op := 1, admitted := true, drained := true, vintage := 9, slots := [3], rect := 0x03070000, range := 0x03FF0000, caps := ⟨[(5, { selected := true, slot := some 3 }), (6, { selected := true, slot := some 3 })]⟩, cur := ⟨[(5, { phase := 1, tiles := [5], silent := 100000000 }), (6, { phase := 1, tiles := [6] })]⟩ } }) with harv := { ({ h.stopped3.cellar1 with lanes := ⟨[(0, { cur := some { type := 5, flags := 0, tile := 0, offset := 0, payload := [] } })]⟩, harv := { op := 1, admitted := true, drained := true, vintage := 9, slots := [3], rect := 0x03070000, range := 0x03FF0000, caps := ⟨[(5, { selected := true, slot := some 3 }), (6, { selected := true, slot := some 3 })]⟩, cur := ⟨[(5, { phase := 1, tiles := [5], silent := 100000000 }), (6, { phase := 1, tiles := [6] })]⟩ } }).harv with cur := ⟨[(5, { phase := 1, tiles := [5, 6] })]⟩ } })).hub.caneFor (5 : Cane) / 8))).cur.isSome = true ∧ (on (fun h => { ({ h.stopped3.cellar1 with lanes := ⟨[(0, { cur := some { type := 5, flags := 0, tile := 0, offset := 0, payload := [] } })]⟩, harv := { op := 1, admitted := true, drained := true, vintage := 9, slots := [3], rect := 0x03070000, range := 0x03FF0000, caps := ⟨[(5, { selected := true, slot := some 3 }), (6, { selected := true, slot := some 3 })]⟩, cur := ⟨[(5, { phase := 1, tiles := [5], silent := 100000000 }), (6, { phase := 1, tiles := [6] })]⟩ } }) with harv := { ({ h.stopped3.cellar1 with lanes := ⟨[(0, { cur := some { type := 5, flags := 0, tile := 0, offset := 0, payload := [] } })]⟩, harv := { op := 1, admitted := true, drained := true, vintage := 9, slots := [3], rect := 0x03070000, range := 0x03FF0000, caps := ⟨[(5, { selected := true, slot := some 3 }), (6, { selected := true, slot := some 3 })]⟩, cur := ⟨[(5, { phase := 1, tiles := [5], silent := 100000000 }), (6, { phase := 1, tiles := [6] })]⟩ } }).harv with cur := ⟨[(5, { phase := 1, tiles := [5, 6] })]⟩ } })).hub.shut (6 : Nat) = none ∧ (on (fun h => { ({ h.stopped3.cellar1 with lanes := ⟨[(0, { cur := some { type := 5, flags := 0, tile := 0, offset := 0, payload := [] } })]⟩, harv := { op := 1, admitted := true, drained := true, vintage := 9, slots := [3], rect := 0x03070000, range := 0x03FF0000, caps := ⟨[(5, { selected := true, slot := some 3 }), (6, { selected := true, slot := some 3 })]⟩, cur := ⟨[(5, { phase := 1, tiles := [5], silent := 100000000 }), (6, { phase := 1, tiles := [6] })]⟩ } }) with harv := { ({ h.stopped3.cellar1 with lanes := ⟨[(0, { cur := some { type := 5, flags := 0, tile := 0, offset := 0, payload := [] } })]⟩, harv := { op := 1, admitted := true, drained := true, vintage := 9, slots := [3], rect := 0x03070000, range := 0x03FF0000, caps := ⟨[(5, { selected := true, slot := some 3 }), (6, { selected := true, slot := some 3 })]⟩, cur := ⟨[(5, { phase := 1, tiles := [5], silent := 100000000 }), (6, { phase := 1, tiles := [6] })]⟩ } }).harv with cur := ⟨[(5, { phase := 1, tiles := [5, 6] })]⟩ } })).hub.subCount ((on (fun h => { ({ h.stopped3.cellar1 with lanes := ⟨[(0, { cur := some { type := 5, flags := 0, tile := 0, offset := 0, payload := [] } })]⟩, harv := { op := 1, admitted := true, drained := true, vintage := 9, slots := [3], rect := 0x03070000, range := 0x03FF0000, caps := ⟨[(5, { selected := true, slot := some 3 }), (6, { selected := true, slot := some 3 })]⟩, cur := ⟨[(5, { phase := 1, tiles := [5], silent := 100000000 }), (6, { phase := 1, tiles := [6] })]⟩ } }) with harv := { ({ h.stopped3.cellar1 with lanes := ⟨[(0, { cur := some { type := 5, flags := 0, tile := 0, offset := 0, payload := [] } })]⟩, harv := { op := 1, admitted := true, drained := true, vintage := 9, slots := [3], rect := 0x03070000, range := 0x03FF0000, caps := ⟨[(5, { selected := true, slot := some 3 }), (6, { selected := true, slot := some 3 })]⟩, cur := ⟨[(5, { phase := 1, tiles := [5], silent := 100000000 }), (6, { phase := 1, tiles := [6] })]⟩ } }).harv with cur := ⟨[(5, { phase := 1, tiles := [5, 6] })]⟩ } })).hub.cursor (5 : Cane)).phase ((on (fun h => { ({ h.stopped3.cellar1 with lanes := ⟨[(0, { cur := some { type := 5, flags := 0, tile := 0, offset := 0, payload := [] } })]⟩, harv := { op := 1, admitted := true, drained := true, vintage := 9, slots := [3], rect := 0x03070000, range := 0x03FF0000, caps := ⟨[(5, { selected := true, slot := some 3 }), (6, { selected := true, slot := some 3 })]⟩, cur := ⟨[(5, { phase := 1, tiles := [5], silent := 100000000 }), (6, { phase := 1, tiles := [6] })]⟩ } }) with harv := { ({ h.stopped3.cellar1 with lanes := ⟨[(0, { cur := some { type := 5, flags := 0, tile := 0, offset := 0, payload := [] } })]⟩, harv := { op := 1, admitted := true, drained := true, vintage := 9, slots := [3], rect := 0x03070000, range := 0x03FF0000, caps := ⟨[(5, { selected := true, slot := some 3 }), (6, { selected := true, slot := some 3 })]⟩, cur := ⟨[(5, { phase := 1, tiles := [5], silent := 100000000 }), (6, { phase := 1, tiles := [6] })]⟩ } }).harv with cur := ⟨[(5, { phase := 1, tiles := [5, 6] })]⟩ } })).hub.cursor (5 : Cane)).sub (5 : Nat) ≤ ((on (fun h => { ({ h.stopped3.cellar1 with lanes := ⟨[(0, { cur := some { type := 5, flags := 0, tile := 0, offset := 0, payload := [] } })]⟩, harv := { op := 1, admitted := true, drained := true, vintage := 9, slots := [3], rect := 0x03070000, range := 0x03FF0000, caps := ⟨[(5, { selected := true, slot := some 3 }), (6, { selected := true, slot := some 3 })]⟩, cur := ⟨[(5, { phase := 1, tiles := [5], silent := 100000000 }), (6, { phase := 1, tiles := [6] })]⟩ } }) with harv := { ({ h.stopped3.cellar1 with lanes := ⟨[(0, { cur := some { type := 5, flags := 0, tile := 0, offset := 0, payload := [] } })]⟩, harv := { op := 1, admitted := true, drained := true, vintage := 9, slots := [3], rect := 0x03070000, range := 0x03FF0000, caps := ⟨[(5, { selected := true, slot := some 3 }), (6, { selected := true, slot := some 3 })]⟩, cur := ⟨[(5, { phase := 1, tiles := [5], silent := 100000000 }), (6, { phase := 1, tiles := [6] })]⟩ } }).harv with cur := ⟨[(5, { phase := 1, tiles := [5, 6] })]⟩ } })).hub.cursor (5 : Cane)).sub + 1) ∧
    ((on (fun h => ({ h.stopped3.cellar1 with lanes := ⟨[(0, { cur := some { type := 5, flags := 0, tile := 0, offset := 0, payload := [] } })]⟩, harv := { op := 1, admitted := true, drained := true, vintage := 9, slots := [3], rect := 0x03070000, range := 0x03FF0000, caps := ⟨[(5, { selected := true, slot := some 3 }), (6, { selected := true, slot := some 3 })]⟩, cur := ⟨[(5, { phase := 1, tiles := [5], silent := 100000000 }), (6, { phase := 1, tiles := [6] })]⟩ } }))).hub.calm = true ∧ (on (fun h => ({ h.stopped3.cellar1 with lanes := ⟨[(0, { cur := some { type := 5, flags := 0, tile := 0, offset := 0, payload := [] } })]⟩, harv := { op := 1, admitted := true, drained := true, vintage := 9, slots := [3], rect := 0x03070000, range := 0x03FF0000, caps := ⟨[(5, { selected := true, slot := some 3 }), (6, { selected := true, slot := some 3 })]⟩, cur := ⟨[(5, { phase := 1, tiles := [5], silent := 100000000 }), (6, { phase := 1, tiles := [6] })]⟩ } }))).hub.recordGranted (5 : Cane) = true ∧ ((on (fun h => ({ h.stopped3.cellar1 with lanes := ⟨[(0, { cur := some { type := 5, flags := 0, tile := 0, offset := 0, payload := [] } })]⟩, harv := { op := 1, admitted := true, drained := true, vintage := 9, slots := [3], rect := 0x03070000, range := 0x03FF0000, caps := ⟨[(5, { selected := true, slot := some 3 }), (6, { selected := true, slot := some 3 })]⟩, cur := ⟨[(5, { phase := 1, tiles := [5], silent := 100000000 }), (6, { phase := 1, tiles := [6] })]⟩ } }))).hub.cursor (5 : Cane)).tries = 0 ∧ (on (fun h => ({ h.stopped3.cellar1 with lanes := ⟨[(0, { cur := some { type := 5, flags := 0, tile := 0, offset := 0, payload := [] } })]⟩, harv := { op := 1, admitted := true, drained := true, vintage := 9, slots := [3], rect := 0x03070000, range := 0x03FF0000, caps := ⟨[(5, { selected := true, slot := some 3 }), (6, { selected := true, slot := some 3 })]⟩, cur := ⟨[(5, { phase := 1, tiles := [5], silent := 100000000 }), (6, { phase := 1, tiles := [6] })]⟩ } }))).hub.flag F.CANE_CTRL_PARITY_EN = true) ∧
    ((on (fun h => ({ h.stopped3.cellar1 with lanes := ⟨[(0, { cur := some { type := 5, flags := 0, tile := 0, offset := 0, payload := [] } })]⟩, harv := { op := 1, admitted := true, drained := true, vintage := 9, slots := [3], rect := 0x03070000, range := 0x03FF0000, caps := ⟨[(5, { selected := true, slot := some 3 }), (6, { selected := true, slot := some 3 })]⟩, cur := ⟨[(5, { phase := 1, tiles := [5], silent := 100000000 }), (6, { phase := 1, tiles := [6] })]⟩ } }))).hub.calm = true ∧ (on (fun h => ({ h.stopped3.cellar1 with lanes := ⟨[(0, { cur := some { type := 5, flags := 0, tile := 0, offset := 0, payload := [] } })]⟩, harv := { op := 1, admitted := true, drained := true, vintage := 9, slots := [3], rect := 0x03070000, range := 0x03FF0000, caps := ⟨[(5, { selected := true, slot := some 3 }), (6, { selected := true, slot := some 3 })]⟩, cur := ⟨[(5, { phase := 1, tiles := [5], silent := 100000000 }), (6, { phase := 1, tiles := [6] })]⟩ } }))).hub.harv.op = 1 ∧ (on (fun h => ({ h.stopped3.cellar1 with lanes := ⟨[(0, { cur := some { type := 5, flags := 0, tile := 0, offset := 0, payload := [] } })]⟩, harv := { op := 1, admitted := true, drained := true, vintage := 9, slots := [3], rect := 0x03070000, range := 0x03FF0000, caps := ⟨[(5, { selected := true, slot := some 3 }), (6, { selected := true, slot := some 3 })]⟩, cur := ⟨[(5, { phase := 1, tiles := [5], silent := 100000000 }), (6, { phase := 1, tiles := [6] })]⟩ } }))).hub.harv.ended = none ∧ (on (fun h => ({ h.stopped3.cellar1 with lanes := ⟨[(0, { cur := some { type := 5, flags := 0, tile := 0, offset := 0, payload := [] } })]⟩, harv := { op := 1, admitted := true, drained := true, vintage := 9, slots := [3], rect := 0x03070000, range := 0x03FF0000, caps := ⟨[(5, { selected := true, slot := some 3 }), (6, { selected := true, slot := some 3 })]⟩, cur := ⟨[(5, { phase := 1, tiles := [5], silent := 100000000 }), (6, { phase := 1, tiles := [6] })]⟩ } }))).hub.spurFree (5 : Cane) = true ∧ ((on (fun h => ({ h.stopped3.cellar1 with lanes := ⟨[(0, { cur := some { type := 5, flags := 0, tile := 0, offset := 0, payload := [] } })]⟩, harv := { op := 1, admitted := true, drained := true, vintage := 9, slots := [3], rect := 0x03070000, range := 0x03FF0000, caps := ⟨[(5, { selected := true, slot := some 3 }), (6, { selected := true, slot := some 3 })]⟩, cur := ⟨[(5, { phase := 1, tiles := [5], silent := 100000000 }), (6, { phase := 1, tiles := [6] })]⟩ } }))).hub.cursor (5 : Cane)).tiles = (5 : Nat) :: ([] : List Nat) ∧ (on (fun h => ({ h.stopped3.cellar1 with lanes := ⟨[(0, { cur := some { type := 5, flags := 0, tile := 0, offset := 0, payload := [] } })]⟩, harv := { op := 1, admitted := true, drained := true, vintage := 9, slots := [3], rect := 0x03070000, range := 0x03FF0000, caps := ⟨[(5, { selected := true, slot := some 3 }), (6, { selected := true, slot := some 3 })]⟩, cur := ⟨[(5, { phase := 1, tiles := [5], silent := 100000000 }), (6, { phase := 1, tiles := [6] })]⟩ } }))).hub.spurLimit ≤ ((on (fun h => ({ h.stopped3.cellar1 with lanes := ⟨[(0, { cur := some { type := 5, flags := 0, tile := 0, offset := 0, payload := [] } })]⟩, harv := { op := 1, admitted := true, drained := true, vintage := 9, slots := [3], rect := 0x03070000, range := 0x03FF0000, caps := ⟨[(5, { selected := true, slot := some 3 }), (6, { selected := true, slot := some 3 })]⟩, cur := ⟨[(5, { phase := 1, tiles := [5], silent := 100000000 }), (6, { phase := 1, tiles := [6] })]⟩ } }))).hub.cursor (5 : Cane)).silent ∧ (on (fun h => ({ h.stopped3.cellar1 with lanes := ⟨[(0, { cur := some { type := 5, flags := 0, tile := 0, offset := 0, payload := [] } })]⟩, harv := { op := 1, admitted := true, drained := true, vintage := 9, slots := [3], rect := 0x03070000, range := 0x03FF0000, caps := ⟨[(5, { selected := true, slot := some 3 }), (6, { selected := true, slot := some 3 })]⟩, cur := ⟨[(5, { phase := 1, tiles := [5], silent := 100000000 }), (6, { phase := 1, tiles := [6] })]⟩ } }))).hub.harv.gapSeen.contains Gp.SPUR_TIMEOUT = false) ∧
    ((on (fun h => (h.setTend 1 { st := Ts.UP }).wr F.FED_CTRL_EN 1)).hub.calm = true ∧ (on (fun h => (h.setTend 1 { st := Ts.UP }).wr F.FED_CTRL_EN 1)).hub.takesFrame ({ tendril := 1, dest := 130, src := 131 } : Hdr2) Op.HARVEST_ARGS = true ∧ (on (fun h => (h.setTend 1 { st := Ts.UP }).wr F.FED_CTRL_EN 1)).hub.isSafe = false ∧ (on (fun h => (h.setTend 1 { st := Ts.UP }).wr F.FED_CTRL_EN 1)).hub.flag F.FED_CTRL_EN = true) ∧
    ((on (fun h => { ((h.stopped3.cellar1.setTend 1 { st := Ts.UP }).wr F.FED_CTRL_EN 1) with harv := { argsFrom := [(131, 0, le 12 0x01000000000000000000)] } })).hub.calm = true ∧ (on (fun h => { ((h.stopped3.cellar1.setTend 1 { st := Ts.UP }).wr F.FED_CTRL_EN 1) with harv := { argsFrom := [(131, 0, le 12 0x01000000000000000000)] } })).hub.takesFrame ({ tendril := 1, dest := 130, src := 131 } : Hdr2) Op.HARVEST = true ∧ (on (fun h => { ((h.stopped3.cellar1.setTend 1 { st := Ts.UP }).wr F.FED_CTRL_EN 1) with harv := { argsFrom := [(131, 0, le 12 0x01000000000000000000)] } })).hub.flag F.FED_CTRL_EN = true ∧ (on (fun h => { ((h.stopped3.cellar1.setTend 1 { st := Ts.UP }).wr F.FED_CTRL_EN 1) with harv := { argsFrom := [(131, 0, le 12 0x01000000000000000000)] } })).hub.harv.argsFrom.find? (fun p => p.1 == (({ tendril := 1, dest := 130, src := 131 } : Hdr2).src : Nat) && p.2.1 == (({ tendril := 1, dest := 130, src := 131 } : Hdr2).txn : Nat)) = some ((({ tendril := 1, dest := 130, src := 131 } : Hdr2).src : Nat), (({ tendril := 1, dest := 130, src := 131 } : Hdr2).txn : Nat), (le 12 0x01000000000000000000 : List Byte)) ∧ ({ fedHarvReq (le 12 9) (le 12 0x01000000000000000000) with issuer := some 131, txn := some 0 } : HarvReq) = { fedHarvReq (le 12 (9#96 : BitVec 96).toNat) (le 12 0x01000000000000000000 : List Byte) with issuer := some ({ tendril := 1, dest := 130, src := 131 } : Hdr2).src, txn := some ({ tendril := 1, dest := 130, src := 131 } : Hdr2).txn } ∧ (on (fun h => { ((h.stopped3.cellar1.setTend 1 { st := Ts.UP }).wr F.FED_CTRL_EN 1) with harv := { argsFrom := [(131, 0, le 12 0x01000000000000000000)] } })).hub.harvCheck { ({ fedHarvReq (le 12 9) (le 12 0x01000000000000000000) with issuer := some 131, txn := some 0 } : HarvReq) with a := { ({ fedHarvReq (le 12 9) (le 12 0x01000000000000000000) with issuer := some 131, txn := some 0 } : HarvReq).a with fed := true } } = St.OK ∧ ({ fedHarvReq (le 12 9) (le 12 0x01000000000000000000) with issuer := some 131, txn := some 0 } : HarvReq).vintage ≠ 0 ∧ (on (fun h => { ((h.stopped3.cellar1.setTend 1 { st := Ts.UP }).wr F.FED_CTRL_EN 1) with harv := { argsFrom := [(131, 0, le 12 0x01000000000000000000)] } })).hub.scopeSlots ({ fedHarvReq (le 12 9) (le 12 0x01000000000000000000) with issuer := some 131, txn := some 0 } : HarvReq).a ≠ []) := by
  and_intros <;> decide +kernel

/-- The hypotheses of a_harvest_ends_with_its_manifest_or_is_aborted can be met, clause by clause. -/
theorem witness_a_harvest_ends_with_its_manifest_or_is_aborted :
    ((on (fun h => { h.stopped3.cellar1.wr F.HARV_STATUS_PHASE 5 with harv := { op := 1, admitted := true, drained := true, vintage := 9, slots := [3], rect := 0x03070000, manifestChain := [0] } })).hub.calm = true ∧ (on (fun h => { h.stopped3.cellar1.wr F.HARV_STATUS_PHASE 5 with harv := { op := 1, admitted := true, drained := true, vintage := 9, slots := [3], rect := 0x03070000, manifestChain := [0] } })).hub.harvReady = true ∧ (on (fun h => { h.stopped3.cellar1.wr F.HARV_STATUS_PHASE 5 with harv := { op := 1, admitted := true, drained := true, vintage := 9, slots := [3], rect := 0x03070000, manifestChain := [0] } })).hub.harv.memLeft = [] ∧ (on (fun h => { h.stopped3.cellar1.wr F.HARV_STATUS_PHASE 5 with harv := { op := 1, admitted := true, drained := true, vintage := 9, slots := [3], rect := 0x03070000, manifestChain := [0] } })).hub.harv.pkgLeft = [] ∧ (on (fun h => { h.stopped3.cellar1.wr F.HARV_STATUS_PHASE 5 with harv := { op := 1, admitted := true, drained := true, vintage := 9, slots := [3], rect := 0x03070000, manifestChain := [0] } })).hub.harv.policySlot = none ∧ (on (fun h => { h.stopped3.cellar1.wr F.HARV_STATUS_PHASE 5 with harv := { op := 1, admitted := true, drained := true, vintage := 9, slots := [3], rect := 0x03070000, manifestChain := [0] } })).hub.harv.peerTag = none ∧ (on (fun h => { h.stopped3.cellar1.wr F.HARV_STATUS_PHASE 5 with harv := { op := 1, admitted := true, drained := true, vintage := 9, slots := [3], rect := 0x03070000, manifestChain := [0] } })).hub.harv.txn = none ∧ (on (fun h => { h.stopped3.cellar1.wr F.HARV_STATUS_PHASE 5 with harv := { op := 1, admitted := true, drained := true, vintage := 9, slots := [3], rect := 0x03070000, manifestChain := [0] } })).hub.harv.xsrc = none ∧ (on (fun h => { h.stopped3.cellar1.wr F.HARV_STATUS_PHASE 5 with harv := { op := 1, admitted := true, drained := true, vintage := 9, slots := [3], rect := 0x03070000, manifestChain := [0] } })).hub.harv.memStatus = St.OK) ∧
    ((on (fun h => { h.stopped3.cellar1 with harv := { op := 1, vintage := 9, slots := [3], first := 3 } })).hub.calm = true ∧ (on (fun h => { h.stopped3.cellar1 with harv := { op := 1, vintage := 9, slots := [3], first := 3 } })).hub.takesWrite (.mgmt : Req) R.HARV_CMD 3 = true ∧ (on (fun h => { h.stopped3.cellar1 with harv := { op := 1, vintage := 9, slots := [3], first := 3 } })).hub.abortCheck = St.OK ∧ (on (fun h => { h.stopped3.cellar1 with harv := { op := 1, vintage := 9, slots := [3], first := 3 } })).hub.harv.admitted = false ∧ (on (fun h => { h.stopped3.cellar1 with harv := { op := 1, vintage := 9, slots := [3], first := 3 } })).hub.harv.ended = none ∧ (on (fun h => { h.stopped3.cellar1 with harv := { op := 1, vintage := 9, slots := [3], first := 3 } })).hub.harv.memLeft = [] ∧ (on (fun h => { h.stopped3.cellar1 with harv := { op := 1, vintage := 9, slots := [3], first := 3 } })).hub.harv.pkgLeft = [] ∧ (on (fun h => { h.stopped3.cellar1 with harv := { op := 1, vintage := 9, slots := [3], first := 3 } })).hub.harv.policySlot = none ∧ (on (fun h => { h.stopped3.cellar1 with harv := { op := 1, vintage := 9, slots := [3], first := 3 } })).hub.harv.peerTag = none ∧ (on (fun h => { h.stopped3.cellar1 with harv := { op := 1, vintage := 9, slots := [3], first := 3 } })).hub.harv.txn = none ∧ (on (fun h => { h.stopped3.cellar1 with harv := { op := 1, vintage := 9, slots := [3], first := 3 } })).hub.harv.xsrc = none ∧ (on (fun h => { h.stopped3.cellar1 with harv := { op := 1, vintage := 9, slots := [3], first := 3 } })).hub.harv.memStatus = St.OK ∧ (on (fun h => { h.stopped3.cellar1 with harv := { op := 1, vintage := 9, slots := [3], first := 3 } })).hub.lanesUp.all (fun l => ((on (fun h => { h.stopped3.cellar1 with harv := { op := 1, vintage := 9, slots := [3], first := 3 } })).hub.lane l).cur.isNone && !((on (fun h => { h.stopped3.cellar1 with harv := { op := 1, vintage := 9, slots := [3], first := 3 } })).hub.lane l).refWait) = true) ∧
    ((on (fun h => ({ h.stopped3.cellar1 with lanes := ⟨[(0, { cur := some { type := 5, flags := 0, tile := 0, offset := 0, payload := [] } })]⟩, harv := { op := 1, admitted := true, drained := true, vintage := 9, slots := [3], rect := 0x03070000, range := 0x03FF0000, caps := ⟨[(5, { selected := true, slot := some 3 }), (6, { selected := true, slot := some 3 })]⟩, cur := ⟨[(5, { phase := 1, tiles := [5], silent := 100000000 }), (6, { phase := 1, tiles := [6] })]⟩ } }))).hub.calm = true ∧ (on (fun h => ({ h.stopped3.cellar1 with lanes := ⟨[(0, { cur := some { type := 5, flags := 0, tile := 0, offset := 0, payload := [] } })]⟩, harv := { op := 1, admitted := true, drained := true, vintage := 9, slots := [3], rect := 0x03070000, range := 0x03FF0000, caps := ⟨[(5, { selected := true, slot := some 3 }), (6, { selected := true, slot := some 3 })]⟩, cur := ⟨[(5, { phase := 1, tiles := [5], silent := 100000000 }), (6, { phase := 1, tiles := [6] })]⟩ } }))).hub.takesWrite (.mgmt : Req) R.HARV_CMD 3 = true ∧ (on (fun h => ({ h.stopped3.cellar1 with lanes := ⟨[(0, { cur := some { type := 5, flags := 0, tile := 0, offset := 0, payload := [] } })]⟩, harv := { op := 1, admitted := true, drained := true, vintage := 9, slots := [3], rect := 0x03070000, range := 0x03FF0000, caps := ⟨[(5, { selected := true, slot := some 3 }), (6, { selected := true, slot := some 3 })]⟩, cur := ⟨[(5, { phase := 1, tiles := [5], silent := 100000000 }), (6, { phase := 1, tiles := [6] })]⟩ } }))).hub.abortCheck = St.OK ∧ (on (fun h => ({ h.stopped3.cellar1 with lanes := ⟨[(0, { cur := some { type := 5, flags := 0, tile := 0, offset := 0, payload := [] } })]⟩, harv := { op := 1, admitted := true, drained := true, vintage := 9, slots := [3], rect := 0x03070000, range := 0x03FF0000, caps := ⟨[(5, { selected := true, slot := some 3 }), (6, { selected := true, slot := some 3 })]⟩, cur := ⟨[(5, { phase := 1, tiles := [5], silent := 100000000 }), (6, { phase := 1, tiles := [6] })]⟩ } }))).hub.harv.admitted = true ∧ (on (fun h => ({ h.stopped3.cellar1 with lanes := ⟨[(0, { cur := some { type := 5, flags := 0, tile := 0, offset := 0, payload := [] } })]⟩, harv := { op := 1, admitted := true, drained := true, vintage := 9, slots := [3], rect := 0x03070000, range := 0x03FF0000, caps := ⟨[(5, { selected := true, slot := some 3 }), (6, { selected := true, slot := some 3 })]⟩, cur := ⟨[(5, { phase := 1, tiles := [5], silent := 100000000 }), (6, { phase := 1, tiles := [6] })]⟩ } }))).hub.harv.ended = none ∧ (on (fun h => ({ h.stopped3.cellar1 with lanes := ⟨[(0, { cur := some { type := 5, flags := 0, tile := 0, offset := 0, payload := [] } })]⟩, harv := { op := 1, admitted := true, drained := true, vintage := 9, slots := [3], rect := 0x03070000, range := 0x03FF0000, caps := ⟨[(5, { selected := true, slot := some 3 }), (6, { selected := true, slot := some 3 })]⟩, cur := ⟨[(5, { phase := 1, tiles := [5], silent := 100000000 }), (6, { phase := 1, tiles := [6] })]⟩ } }))).hub.lanesUp.all (fun l => !((on (fun h => ({ h.stopped3.cellar1 with lanes := ⟨[(0, { cur := some { type := 5, flags := 0, tile := 0, offset := 0, payload := [] } })]⟩, harv := { op := 1, admitted := true, drained := true, vintage := 9, slots := [3], rect := 0x03070000, range := 0x03FF0000, caps := ⟨[(5, { selected := true, slot := some 3 }), (6, { selected := true, slot := some 3 })]⟩, cur := ⟨[(5, { phase := 1, tiles := [5], silent := 100000000 }), (6, { phase := 1, tiles := [6] })]⟩ } }))).hub.lane l).refWait) = true) := by
  and_intros <;> decide +kernel

set_option maxRecDepth 100000 in
/-- The hypotheses of a_decant_starts_completes_or_holds_its_slot can be met, clause by clause. -/
theorem witness_a_decant_starts_completes_or_holds_its_slot :
    ((on (fun h => ((let x := ((({ h.stopped3.cellar1 with boot := { h.boot with tcsMap := 5 }, tiles := {}, harv := { op := 1, admitted := true, drained := true, vintage := 9, slots := [3], rect := 0x03070000, manifestChain := [0] } }).wr F.GLB_GRID_COLUMNS 1).harvDone false); { x.commit h.store with occs := [] }).setReg R.HARV_VINTAGE 9).wr F.HARV_DECANT_SLOT_SLOT 3)).hub.calm = true ∧ (on (fun h => ((let x := ((({ h.stopped3.cellar1 with boot := { h.boot with tcsMap := 5 }, tiles := {}, harv := { op := 1, admitted := true, drained := true, vintage := 9, slots := [3], rect := 0x03070000, manifestChain := [0] } }).wr F.GLB_GRID_COLUMNS 1).harvDone false); { x.commit h.store with occs := [] }).setReg R.HARV_VINTAGE 9).wr F.HARV_DECANT_SLOT_SLOT 3)).hub.takesWrite (.mgmt : Req) R.HARV_CMD 2 = true ∧ (on (fun h => ((let x := ((({ h.stopped3.cellar1 with boot := { h.boot with tcsMap := 5 }, tiles := {}, harv := { op := 1, admitted := true, drained := true, vintage := 9, slots := [3], rect := 0x03070000, manifestChain := [0] } }).wr F.GLB_GRID_COLUMNS 1).harvDone false); { x.commit h.store with occs := [] }).setReg R.HARV_VINTAGE 9).wr F.HARV_DECANT_SLOT_SLOT 3)).hub.rd F.HARV_DECANT_SLOT_SLOT = (3 : Nat) ∧ (on (fun h => ((let x := ((({ h.stopped3.cellar1 with boot := { h.boot with tcsMap := 5 }, tiles := {}, harv := { op := 1, admitted := true, drained := true, vintage := 9, slots := [3], rect := 0x03070000, manifestChain := [0] } }).wr F.GLB_GRID_COLUMNS 1).harvDone false); { x.commit h.store with occs := [] }).setReg R.HARV_VINTAGE 9).wr F.HARV_DECANT_SLOT_SLOT 3)).hub.decantCheck.1 = St.OK ∧ (on (fun h => ((let x := ((({ h.stopped3.cellar1 with boot := { h.boot with tcsMap := 5 }, tiles := {}, harv := { op := 1, admitted := true, drained := true, vintage := 9, slots := [3], rect := 0x03070000, manifestChain := [0] } }).wr F.GLB_GRID_COLUMNS 1).harvDone false); { x.commit h.store with occs := [] }).setReg R.HARV_VINTAGE 9).wr F.HARV_DECANT_SLOT_SLOT 3)).hub.decantVintage = some ((0 : Nat), (((on (fun h => ((let x := ((({ h.stopped3.cellar1 with boot := { h.boot with tcsMap := 5 }, tiles := {}, harv := { op := 1, admitted := true, drained := true, vintage := 9, slots := [3], rect := 0x03070000, manifestChain := [0] } }).wr F.GLB_GRID_COLUMNS 1).harvDone false); { x.commit h.store with occs := [] }).setReg R.HARV_VINTAGE 9).wr F.HARV_DECANT_SLOT_SLOT 3)).hub.decantVintage.getD (0, {})).2 : Vint))) ∧
    ((on (fun h => { h.stopped3 with harv := { op := 2, dStep := 6, dSlot := 3, slots := [3], manifest := List.replicate 200 7 } })).hub.calm = true ∧ (on (fun h => { h.stopped3 with harv := { op := 2, dStep := 6, dSlot := 3, slots := [3], manifest := List.replicate 200 7 } })).hub.harv.op = 2 ∧ (on (fun h => { h.stopped3 with harv := { op := 2, dStep := 6, dSlot := 3, slots := [3], manifest := List.replicate 200 7 } })).hub.harv.dStep = 6 ∧ (on (fun h => { h.stopped3 with harv := { op := 2, dStep := 6, dSlot := 3, slots := [3], manifest := List.replicate 200 7 } })).hub.harv.dSlot = (3 : Nat)) ∧
    ((on (fun h => ({ h.stopped3 with harv := { op := 2, dStep := 2, dSlot := 3, slots := [3], manifest := zeros 120 ++ List.replicate 400 7 } } : Hub).issued Cu.DECANT)).hub.calm = true ∧ (on (fun h => ({ h.stopped3 with harv := { op := 2, dStep := 2, dSlot := 3, slots := [3], manifest := zeros 120 ++ List.replicate 400 7 } } : Hub).issued Cu.DECANT)).hub.harv.op = 2 ∧ (on (fun h => ({ h.stopped3 with harv := { op := 2, dStep := 2, dSlot := 3, slots := [3], manifest := zeros 120 ++ List.replicate 400 7 } } : Hub).issued Cu.DECANT)).hub.harv.dSlot = (3 : Nat) ∧ (on (fun h => ({ h.stopped3 with harv := { op := 2, dStep := 2, dSlot := 3, slots := [3], manifest := zeros 120 ++ List.replicate 400 7 } } : Hub).issued Cu.DECANT)).hub.harv.dStep ∈ [2, 4, 5] ∧ (on (fun h => ({ h.stopped3 with harv := { op := 2, dStep := 2, dSlot := 3, slots := [3], manifest := zeros 120 ++ List.replicate 400 7 } } : Hub).issued Cu.DECANT)).hub.outstanding Cu.DECANT ≠ 0 ∧ (Man.lane (on (fun h => ({ h.stopped3 with harv := { op := 2, dStep := 2, dSlot := 3, slots := [3], manifest := zeros 120 ++ List.replicate 400 7 } } : Hub).issued Cu.DECANT)).hub.harv.manifest (on (fun h => ({ h.stopped3 with harv := { op := 2, dStep := 2, dSlot := 3, slots := [3], manifest := zeros 120 ++ List.replicate 400 7 } } : Hub).issued Cu.DECANT)).hub.harv.dLane).1 ≠ 0) ∧
    ((on (fun h => { ((h.stopped3.setDom 3 { st := .stopped, failedDecant := true }).wr F.HARV_DECANT_SLOT_SLOT 3).wr F.HARV_STATUS_DONE 1 with harv := { op := 2, dSlot := 3, slots := [3] } })).hub.calm = true ∧ (on (fun h => { ((h.stopped3.setDom 3 { st := .stopped, failedDecant := true }).wr F.HARV_DECANT_SLOT_SLOT 3).wr F.HARV_STATUS_DONE 1 with harv := { op := 2, dSlot := 3, slots := [3] } })).hub.takesWrite (.mgmt : Req) R.HARV_CMD 4 = true ∧ (on (fun h => { ((h.stopped3.setDom 3 { st := .stopped, failedDecant := true }).wr F.HARV_DECANT_SLOT_SLOT 3).wr F.HARV_STATUS_DONE 1 with harv := { op := 2, dSlot := 3, slots := [3] } })).hub.rd F.HARV_DECANT_SLOT_SLOT = (3 : Nat) ∧ (on (fun h => { ((h.stopped3.setDom 3 { st := .stopped, failedDecant := true }).wr F.HARV_DECANT_SLOT_SLOT 3).wr F.HARV_STATUS_DONE 1 with harv := { op := 2, dSlot := 3, slots := [3] } })).hub.decantReleaseCheck = St.OK ∧ (on (fun h => { ((h.stopped3.setDom 3 { st := .stopped, failedDecant := true }).wr F.HARV_DECANT_SLOT_SLOT 3).wr F.HARV_STATUS_DONE 1 with harv := { op := 2, dSlot := 3, slots := [3] } })).hub.flag F.HARV_STATUS_DONE = true) := by
  and_intros <;> decide +kernel

/-- The hypotheses of the_press_writes_blocks_and_its_lanes_retire can be met, clause by clause. -/
theorem witness_the_press_writes_blocks_and_its_lanes_retire :
    ((on (fun h => ({ h.stopped3.cellar1 with lanes := ⟨[(0, { mode := 1, isOpen := true, casks := [0], pos := 48, firstHdr := some 48, cur := some { type := 1, flags := 0, tile := 5, offset := 0, payload := List.replicate 64 9 } })]⟩, harv := { op := 1, admitted := true, drained := true, vintage := 9, slots := [3], rect := 0x03070000, range := 0x03FF0000, caps := ⟨[(5, { selected := true, slot := some 3 })]⟩ } }))).hub.calm = true ∧ (on (fun h => ({ h.stopped3.cellar1 with lanes := ⟨[(0, { mode := 1, isOpen := true, casks := [0], pos := 48, firstHdr := some 48, cur := some { type := 1, flags := 0, tile := 5, offset := 0, payload := List.replicate 64 9 } })]⟩, harv := { op := 1, admitted := true, drained := true, vintage := 9, slots := [3], rect := 0x03070000, range := 0x03FF0000, caps := ⟨[(5, { selected := true, slot := some 3 })]⟩ } }))).hub.blockDue (0 : Lane) = true ∧ ((on (fun h => ({ h.stopped3.cellar1 with lanes := ⟨[(0, { mode := 1, isOpen := true, casks := [0], pos := 48, firstHdr := some 48, cur := some { type := 1, flags := 0, tile := 5, offset := 0, payload := List.replicate 64 9 } })]⟩, harv := { op := 1, admitted := true, drained := true, vintage := 9, slots := [3], rect := 0x03070000, range := 0x03FF0000, caps := ⟨[(5, { selected := true, slot := some 3 })]⟩ } }))).hub.lane (0 : Lane)).isOpen = true ∧ (on (fun h => ({ h.stopped3.cellar1 with lanes := ⟨[(0, { mode := 1, isOpen := true, casks := [0], pos := 48, firstHdr := some 48, cur := some { type := 1, flags := 0, tile := 5, offset := 0, payload := List.replicate 64 9 } })]⟩, harv := { op := 1, admitted := true, drained := true, vintage := 9, slots := [3], rect := 0x03070000, range := 0x03FF0000, caps := ⟨[(5, { selected := true, slot := some 3 })]⟩ } }))).hub.curBlock (0 : Lane) none false = some (((on (fun h => ({ h.stopped3.cellar1 with lanes := ⟨[(0, { mode := 1, isOpen := true, casks := [0], pos := 48, firstHdr := some 48, cur := some { type := 1, flags := 0, tile := 5, offset := 0, payload := List.replicate 64 9 } })]⟩, harv := { op := 1, admitted := true, drained := true, vintage := 9, slots := [3], rect := 0x03070000, range := 0x03FF0000, caps := ⟨[(5, { selected := true, slot := some 3 })]⟩ } }))).hub.curBlock 0 none false).getD { bytes := [], raw := false, usesRef := false } : DataBlock) ∧ ((on (fun h => ({ h.stopped3.cellar1 with lanes := ⟨[(0, { mode := 1, isOpen := true, casks := [0], pos := 48, firstHdr := some 48, cur := some { type := 1, flags := 0, tile := 5, offset := 0, payload := List.replicate 64 9 } })]⟩, harv := { op := 1, admitted := true, drained := true, vintage := 9, slots := [3], rect := 0x03070000, range := 0x03FF0000, caps := ⟨[(5, { selected := true, slot := some 3 })]⟩ } }))).hub.writeBlock (0 : Lane) none false false).1 = .block (some ({ type := 1, flags := 0, tile := 5, offset := 0, payload := List.replicate 64 9 } : Rec)) ∧ ({ type := 1, flags := 0, tile := 5, offset := 0, payload := List.replicate 64 9 } : Rec).type = 1) ∧
    ((on (fun h => (({ h.stopped3.cellar1 with lanes := ⟨[(0, { mode := 1, isOpen := true, casks := [0], pos := 48, firstHdr := some 48, cur := some { type := 1, flags := 0, tile := 5, offset := 0, payload := List.replicate 64 9 } })]⟩, harv := { op := 1, admitted := true, drained := true, vintage := 9, slots := [3], rect := 0x03070000, range := 0x03FF0000, caps := ⟨[(5, { selected := true, slot := some 3 })]⟩ } }) : Hub).wr (F.PRESS_CTRL_VERIFY_EN.lane 0) 0)).hub.calm = true ∧ (on (fun h => (({ h.stopped3.cellar1 with lanes := ⟨[(0, { mode := 1, isOpen := true, casks := [0], pos := 48, firstHdr := some 48, cur := some { type := 1, flags := 0, tile := 5, offset := 0, payload := List.replicate 64 9 } })]⟩, harv := { op := 1, admitted := true, drained := true, vintage := 9, slots := [3], rect := 0x03070000, range := 0x03FF0000, caps := ⟨[(5, { selected := true, slot := some 3 })]⟩ } }) : Hub).wr (F.PRESS_CTRL_VERIFY_EN.lane 0) 0)).hub.takesWrite (.mgmt : Req) (R.PRESS_CMD + 0x1000 * (0 : Lane)) 1 = true ∧ (on (fun h => (({ h.stopped3.cellar1 with lanes := ⟨[(0, { mode := 1, isOpen := true, casks := [0], pos := 48, firstHdr := some 48, cur := some { type := 1, flags := 0, tile := 5, offset := 0, payload := List.replicate 64 9 } })]⟩, harv := { op := 1, admitted := true, drained := true, vintage := 9, slots := [3], rect := 0x03070000, range := 0x03FF0000, caps := ⟨[(5, { selected := true, slot := some 3 })]⟩ } }) : Hub).wr (F.PRESS_CTRL_VERIFY_EN.lane 0) 0)).hub.pressCheck (0 : Lane) 1 = St.OK ∧ ((on (fun h => (({ h.stopped3.cellar1 with lanes := ⟨[(0, { mode := 1, isOpen := true, casks := [0], pos := 48, firstHdr := some 48, cur := some { type := 1, flags := 0, tile := 5, offset := 0, payload := List.replicate 64 9 } })]⟩, harv := { op := 1, admitted := true, drained := true, vintage := 9, slots := [3], rect := 0x03070000, range := 0x03FF0000, caps := ⟨[(5, { selected := true, slot := some 3 })]⟩ } }) : Hub).wr (F.PRESS_CTRL_VERIFY_EN.lane 0) 0)).hub.lane (0 : Lane)).cur = some ({ type := 1, flags := 0, tile := 5, offset := 0, payload := List.replicate 64 9 } : Rec) ∧ ((on (fun h => (({ h.stopped3.cellar1 with lanes := ⟨[(0, { mode := 1, isOpen := true, casks := [0], pos := 48, firstHdr := some 48, cur := some { type := 1, flags := 0, tile := 5, offset := 0, payload := List.replicate 64 9 } })]⟩, harv := { op := 1, admitted := true, drained := true, vintage := 9, slots := [3], rect := 0x03070000, range := 0x03FF0000, caps := ⟨[(5, { selected := true, slot := some 3 })]⟩ } }) : Hub).wr (F.PRESS_CTRL_VERIFY_EN.lane 0) 0)).hub.lane (0 : Lane)).held = false ∧ ((on (fun h => (({ h.stopped3.cellar1 with lanes := ⟨[(0, { mode := 1, isOpen := true, casks := [0], pos := 48, firstHdr := some 48, cur := some { type := 1, flags := 0, tile := 5, offset := 0, payload := List.replicate 64 9 } })]⟩, harv := { op := 1, admitted := true, drained := true, vintage := 9, slots := [3], rect := 0x03070000, range := 0x03FF0000, caps := ⟨[(5, { selected := true, slot := some 3 })]⟩ } }) : Hub).wr (F.PRESS_CTRL_VERIFY_EN.lane 0) 0)).hub.lane (0 : Lane)).refWait = false ∧ (20 : BitVec 25) ≠ 0 ∧ blockStop ((on (fun h => (({ h.stopped3.cellar1 with lanes := ⟨[(0, { mode := 1, isOpen := true, casks := [0], pos := 48, firstHdr := some 48, cur := some { type := 1, flags := 0, tile := 5, offset := 0, payload := List.replicate 64 9 } })]⟩, harv := { op := 1, admitted := true, drained := true, vintage := 9, slots := [3], rect := 0x03070000, range := 0x03FF0000, caps := ⟨[(5, { selected := true, slot := some 3 })]⟩ } }) : Hub).wr (F.PRESS_CTRL_VERIFY_EN.lane 0) 0)).hub.recBytes ({ type := 1, flags := 0, tile := 5, offset := 0, payload := List.replicate 64 9 } : Rec)).length ((on (fun h => (({ h.stopped3.cellar1 with lanes := ⟨[(0, { mode := 1, isOpen := true, casks := [0], pos := 48, firstHdr := some 48, cur := some { type := 1, flags := 0, tile := 5, offset := 0, payload := List.replicate 64 9 } })]⟩, harv := { op := 1, admitted := true, drained := true, vintage := 9, slots := [3], rect := 0x03070000, range := 0x03FF0000, caps := ⟨[(5, { selected := true, slot := some 3 })]⟩ } }) : Hub).wr (F.PRESS_CTRL_VERIFY_EN.lane 0) 0)).hub.lane (0 : Lane)).curPos (some (20 : BitVec 25).toNat) ≠ blockStop ((on (fun h => (({ h.stopped3.cellar1 with lanes := ⟨[(0, { mode := 1, isOpen := true, casks := [0], pos := 48, firstHdr := some 48, cur := some { type := 1, flags := 0, tile := 5, offset := 0, payload := List.replicate 64 9 } })]⟩, harv := { op := 1, admitted := true, drained := true, vintage := 9, slots := [3], rect := 0x03070000, range := 0x03FF0000, caps := ⟨[(5, { selected := true, slot := some 3 })]⟩ } }) : Hub).wr (F.PRESS_CTRL_VERIFY_EN.lane 0) 0)).hub.recBytes ({ type := 1, flags := 0, tile := 5, offset := 0, payload := List.replicate 64 9 } : Rec)).length ((on (fun h => (({ h.stopped3.cellar1 with lanes := ⟨[(0, { mode := 1, isOpen := true, casks := [0], pos := 48, firstHdr := some 48, cur := some { type := 1, flags := 0, tile := 5, offset := 0, payload := List.replicate 64 9 } })]⟩, harv := { op := 1, admitted := true, drained := true, vintage := 9, slots := [3], rect := 0x03070000, range := 0x03FF0000, caps := ⟨[(5, { selected := true, slot := some 3 })]⟩ } }) : Hub).wr (F.PRESS_CTRL_VERIFY_EN.lane 0) 0)).hub.lane (0 : Lane)).curPos none ∧ (((on (fun h => (({ h.stopped3.cellar1 with lanes := ⟨[(0, { mode := 1, isOpen := true, casks := [0], pos := 48, firstHdr := some 48, cur := some { type := 1, flags := 0, tile := 5, offset := 0, payload := List.replicate 64 9 } })]⟩, harv := { op := 1, admitted := true, drained := true, vintage := 9, slots := [3], rect := 0x03070000, range := 0x03FF0000, caps := ⟨[(5, { selected := true, slot := some 3 })]⟩ } }) : Hub).wr (F.PRESS_CTRL_VERIFY_EN.lane 0) 0)).hub.pressStatus 0 1 St.OK).verdict 0 ((on (fun h => (({ h.stopped3.cellar1 with lanes := ⟨[(0, { mode := 1, isOpen := true, casks := [0], pos := 48, firstHdr := some 48, cur := some { type := 1, flags := 0, tile := 5, offset := 0, payload := List.replicate 64 9 } })]⟩, harv := { op := 1, admitted := true, drained := true, vintage := 9, slots := [3], rect := 0x03070000, range := 0x03FF0000, caps := ⟨[(5, { selected := true, slot := some 3 })]⟩ } }) : Hub).wr (F.PRESS_CTRL_VERIFY_EN.lane 0) 0)).hub.curBlock 0 (some 20) false) : Bool × Hub) = ((on (fun h => (({ h.stopped3.cellar1 with lanes := ⟨[(0, { mode := 1, isOpen := true, casks := [0], pos := 48, firstHdr := some 48, cur := some { type := 1, flags := 0, tile := 5, offset := 0, payload := List.replicate 64 9 } })]⟩, harv := { op := 1, admitted := true, drained := true, vintage := 9, slots := [3], rect := 0x03070000, range := 0x03FF0000, caps := ⟨[(5, { selected := true, slot := some 3 })]⟩ } }) : Hub).wr (F.PRESS_CTRL_VERIFY_EN.lane 0) 0)).hub.pressStatus (0 : Lane) 1 St.OK).verdict (0 : Lane) ((on (fun h => (({ h.stopped3.cellar1 with lanes := ⟨[(0, { mode := 1, isOpen := true, casks := [0], pos := 48, firstHdr := some 48, cur := some { type := 1, flags := 0, tile := 5, offset := 0, payload := List.replicate 64 9 } })]⟩, harv := { op := 1, admitted := true, drained := true, vintage := 9, slots := [3], rect := 0x03070000, range := 0x03FF0000, caps := ⟨[(5, { selected := true, slot := some 3 })]⟩ } }) : Hub).wr (F.PRESS_CTRL_VERIFY_EN.lane 0) 0)).hub.curBlock (0 : Lane) (some (20 : BitVec 25).toNat) false) ∧ ((((on (fun h => (({ h.stopped3.cellar1 with lanes := ⟨[(0, { mode := 1, isOpen := true, casks := [0], pos := 48, firstHdr := some 48, cur := some { type := 1, flags := 0, tile := 5, offset := 0, payload := List.replicate 64 9 } })]⟩, harv := { op := 1, admitted := true, drained := true, vintage := 9, slots := [3], rect := 0x03070000, range := 0x03FF0000, caps := ⟨[(5, { selected := true, slot := some 3 })]⟩ } }) : Hub).wr (F.PRESS_CTRL_VERIFY_EN.lane 0) 0)).hub.pressStatus 0 1 St.OK).verdict 0 ((on (fun h => (({ h.stopped3.cellar1 with lanes := ⟨[(0, { mode := 1, isOpen := true, casks := [0], pos := 48, firstHdr := some 48, cur := some { type := 1, flags := 0, tile := 5, offset := 0, payload := List.replicate 64 9 } })]⟩, harv := { op := 1, admitted := true, drained := true, vintage := 9, slots := [3], rect := 0x03070000, range := 0x03FF0000, caps := ⟨[(5, { selected := true, slot := some 3 })]⟩ } }) : Hub).wr (F.PRESS_CTRL_VERIFY_EN.lane 0) 0)).hub.curBlock 0 (some 20) false) : Bool × Hub).2.writeBlock (0 : Lane) (some (20 : BitVec 25).toNat) (((on (fun h => (({ h.stopped3.cellar1 with lanes := ⟨[(0, { mode := 1, isOpen := true, casks := [0], pos := 48, firstHdr := some 48, cur := some { type := 1, flags := 0, tile := 5, offset := 0, payload := List.replicate 64 9 } })]⟩, harv := { op := 1, admitted := true, drained := true, vintage := 9, slots := [3], rect := 0x03070000, range := 0x03FF0000, caps := ⟨[(5, { selected := true, slot := some 3 })]⟩ } }) : Hub).wr (F.PRESS_CTRL_VERIFY_EN.lane 0) 0)).hub.pressStatus 0 1 St.OK).verdict 0 ((on (fun h => (({ h.stopped3.cellar1 with lanes := ⟨[(0, { mode := 1, isOpen := true, casks := [0], pos := 48, firstHdr := some 48, cur := some { type := 1, flags := 0, tile := 5, offset := 0, payload := List.replicate 64 9 } })]⟩, harv := { op := 1, admitted := true, drained := true, vintage := 9, slots := [3], rect := 0x03070000, range := 0x03FF0000, caps := ⟨[(5, { selected := true, slot := some 3 })]⟩ } }) : Hub).wr (F.PRESS_CTRL_VERIFY_EN.lane 0) 0)).hub.curBlock 0 (some 20) false) : Bool × Hub).1 false).1 = .block none) ∧
    ((on (fun h => { ({ h.stopped3.cellar1 with lanes := ⟨[(0, { mode := 1, isOpen := true, casks := [0], pos := 48, firstHdr := some 48, cur := some { type := 1, flags := 0, tile := 5, offset := 0, payload := List.replicate 64 9 } })]⟩, harv := { op := 1, admitted := true, drained := true, vintage := 9, slots := [3], rect := 0x03070000, range := 0x03FF0000, caps := ⟨[(5, { selected := true, slot := some 3 })]⟩ } }) with lanes := ⟨[(0, { refWait := true, cur := some { type := 1, flags := 0, tile := 5, offset := 0, payload := List.replicate 64 9 } })]⟩ })).hub.calm = true ∧ ((on (fun h => { ({ h.stopped3.cellar1 with lanes := ⟨[(0, { mode := 1, isOpen := true, casks := [0], pos := 48, firstHdr := some 48, cur := some { type := 1, flags := 0, tile := 5, offset := 0, payload := List.replicate 64 9 } })]⟩, harv := { op := 1, admitted := true, drained := true, vintage := 9, slots := [3], rect := 0x03070000, range := 0x03FF0000, caps := ⟨[(5, { selected := true, slot := some 3 })]⟩ } }) with lanes := ⟨[(0, { refWait := true, cur := some { type := 1, flags := 0, tile := 5, offset := 0, payload := List.replicate 64 9 } })]⟩ })).hub.lane (0 : Lane)).cur = some ({ type := 1, flags := 0, tile := 5, offset := 0, payload := List.replicate 64 9 } : Rec) ∧ ((on (fun h => { ({ h.stopped3.cellar1 with lanes := ⟨[(0, { mode := 1, isOpen := true, casks := [0], pos := 48, firstHdr := some 48, cur := some { type := 1, flags := 0, tile := 5, offset := 0, payload := List.replicate 64 9 } })]⟩, harv := { op := 1, admitted := true, drained := true, vintage := 9, slots := [3], rect := 0x03070000, range := 0x03FF0000, caps := ⟨[(5, { selected := true, slot := some 3 })]⟩ } }) with lanes := ⟨[(0, { refWait := true, cur := some { type := 1, flags := 0, tile := 5, offset := 0, payload := List.replicate 64 9 } })]⟩ })).hub.lane (0 : Lane)).refWait = true ∧ (on (fun h => { ({ h.stopped3.cellar1 with lanes := ⟨[(0, { mode := 1, isOpen := true, casks := [0], pos := 48, firstHdr := some 48, cur := some { type := 1, flags := 0, tile := 5, offset := 0, payload := List.replicate 64 9 } })]⟩, harv := { op := 1, admitted := true, drained := true, vintage := 9, slots := [3], rect := 0x03070000, range := 0x03FF0000, caps := ⟨[(5, { selected := true, slot := some 3 })]⟩ } }) with lanes := ⟨[(0, { refWait := true, cur := some { type := 1, flags := 0, tile := 5, offset := 0, payload := List.replicate 64 9 } })]⟩ })).hub.harv.abortWait = false ∧ (on (fun h => { ({ h.stopped3.cellar1 with lanes := ⟨[(0, { mode := 1, isOpen := true, casks := [0], pos := 48, firstHdr := some 48, cur := some { type := 1, flags := 0, tile := 5, offset := 0, payload := List.replicate 64 9 } })]⟩, harv := { op := 1, admitted := true, drained := true, vintage := 9, slots := [3], rect := 0x03070000, range := 0x03FF0000, caps := ⟨[(5, { selected := true, slot := some 3 })]⟩ } }) with lanes := ⟨[(0, { refWait := true, cur := some { type := 1, flags := 0, tile := 5, offset := 0, payload := List.replicate 64 9 } })]⟩ })).hub.refFetch (on (fun h => { ({ h.stopped3.cellar1 with lanes := ⟨[(0, { mode := 1, isOpen := true, casks := [0], pos := 48, firstHdr := some 48, cur := some { type := 1, flags := 0, tile := 5, offset := 0, payload := List.replicate 64 9 } })]⟩, harv := { op := 1, admitted := true, drained := true, vintage := 9, slots := [3], rect := 0x03070000, range := 0x03FF0000, caps := ⟨[(5, { selected := true, slot := some 3 })]⟩ } }) with lanes := ⟨[(0, { refWait := true, cur := some { type := 1, flags := 0, tile := 5, offset := 0, payload := List.replicate 64 9 } })]⟩ })).hub.harv.refMap (on (fun h => { ({ h.stopped3.cellar1 with lanes := ⟨[(0, { mode := 1, isOpen := true, casks := [0], pos := 48, firstHdr := some 48, cur := some { type := 1, flags := 0, tile := 5, offset := 0, payload := List.replicate 64 9 } })]⟩, harv := { op := 1, admitted := true, drained := true, vintage := 9, slots := [3], rect := 0x03070000, range := 0x03FF0000, caps := ⟨[(5, { selected := true, slot := some 3 })]⟩ } }) with lanes := ⟨[(0, { refWait := true, cur := some { type := 1, flags := 0, tile := 5, offset := 0, payload := List.replicate 64 9 } })]⟩ })).hub.harv.ref ({ type := 1, flags := 0, tile := 5, offset := 0, payload := List.replicate 64 9 } : Rec).type ({ type := 1, flags := 0, tile := 5, offset := 0, payload := List.replicate 64 9 } : Rec).tile ({ type := 1, flags := 0, tile := 5, offset := 0, payload := List.replicate 64 9 } : Rec).offset ({ type := 1, flags := 0, tile := 5, offset := 0, payload := List.replicate 64 9 } : Rec).payload.length = (false, (none : Option (List Byte)))) ∧
    ((on (fun h => { ({ h.stopped3.cellar1 with lanes := ⟨[(0, { mode := 1, isOpen := true, casks := [0], pos := 48, firstHdr := some 48, cur := some { type := 1, flags := 0, tile := 5, offset := 0, payload := List.replicate 64 9 } })]⟩, harv := { op := 1, admitted := true, drained := true, vintage := 9, slots := [3], rect := 0x03070000, range := 0x03FF0000, caps := ⟨[(5, { selected := true, slot := some 3 })]⟩ } }) with lanes := ⟨[(0, { refWait := true, cur := some { type := 1, flags := 0, tile := 5, offset := 0, payload := List.replicate 64 9 } })]⟩ })).hub.calm = true ∧ ((on (fun h => { ({ h.stopped3.cellar1 with lanes := ⟨[(0, { mode := 1, isOpen := true, casks := [0], pos := 48, firstHdr := some 48, cur := some { type := 1, flags := 0, tile := 5, offset := 0, payload := List.replicate 64 9 } })]⟩, harv := { op := 1, admitted := true, drained := true, vintage := 9, slots := [3], rect := 0x03070000, range := 0x03FF0000, caps := ⟨[(5, { selected := true, slot := some 3 })]⟩ } }) with lanes := ⟨[(0, { refWait := true, cur := some { type := 1, flags := 0, tile := 5, offset := 0, payload := List.replicate 64 9 } })]⟩ })).hub.lane (0 : Lane)).cur = some ({ type := 1, flags := 0, tile := 5, offset := 0, payload := List.replicate 64 9 } : Rec) ∧ ((on (fun h => { ({ h.stopped3.cellar1 with lanes := ⟨[(0, { mode := 1, isOpen := true, casks := [0], pos := 48, firstHdr := some 48, cur := some { type := 1, flags := 0, tile := 5, offset := 0, payload := List.replicate 64 9 } })]⟩, harv := { op := 1, admitted := true, drained := true, vintage := 9, slots := [3], rect := 0x03070000, range := 0x03FF0000, caps := ⟨[(5, { selected := true, slot := some 3 })]⟩ } }) with lanes := ⟨[(0, { refWait := true, cur := some { type := 1, flags := 0, tile := 5, offset := 0, payload := List.replicate 64 9 } })]⟩ })).hub.lane (0 : Lane)).refWait = true ∧ (on (fun h => { ({ h.stopped3.cellar1 with lanes := ⟨[(0, { mode := 1, isOpen := true, casks := [0], pos := 48, firstHdr := some 48, cur := some { type := 1, flags := 0, tile := 5, offset := 0, payload := List.replicate 64 9 } })]⟩, harv := { op := 1, admitted := true, drained := true, vintage := 9, slots := [3], rect := 0x03070000, range := 0x03FF0000, caps := ⟨[(5, { selected := true, slot := some 3 })]⟩ } }) with lanes := ⟨[(0, { refWait := true, cur := some { type := 1, flags := 0, tile := 5, offset := 0, payload := List.replicate 64 9 } })]⟩ })).hub.harv.abortWait = false) ∧
    ((on (fun h => h)).hub.calm = true ∧ (on (fun h => h)).hub.takesWrite (.mgmt : Req) (R.PRESS_CMD + 0x1000 * (3 : Lane)) 2 = true ∧ (on (fun h => h)).hub.pressCheck (3 : Lane) 2 = St.OK ∧ (on (fun h => h)).hub.retired (3 : Lane) = false) ∧
    ((on (fun h => h.setLane 3 { mode := 4, bistOk := true })).hub.calm = true ∧ (on (fun h => h.setLane 3 { mode := 4, bistOk := true })).hub.takesWrite (.mgmt : Req) (R.PRESS_CMD + 0x1000 * (3 : Lane)) 3 = true ∧ (on (fun h => h.setLane 3 { mode := 4, bistOk := true })).hub.pressCheck (3 : Lane) 3 = St.OK) ∧
    ((on (fun h => h.setReg (R.PRESS_BLOCKS + 0x3000) 9)).hub.calm = true ∧ (on (fun h => h.setReg (R.PRESS_BLOCKS + 0x3000) 9)).hub.takesWrite (.mgmt : Req) (R.PRESS_CMD + 0x1000 * (3 : Lane)) 4 = true ∧ (on (fun h => h.setReg (R.PRESS_BLOCKS + 0x3000) 9)).hub.pressCheck (3 : Lane) 4 = St.OK) ∧
    ((on (fun h => h)).hub.calm = true ∧ (on (fun h => h)).hub.takesWrite (.mgmt : Req) (R.PRESS_CTRL + 0x1000 * (3 : Lane)) (5#32 : Word).toNat = true ∧ (((on (fun h => h)).hub.lane (3 : Lane)).mode = 0 ∨ ((on (fun h => h)).hub.lane (3 : Lane)).mode = 4)) ∧
    ((on (fun h => h.setLane 3 { mode := 1 })).hub.calm = true ∧ (on (fun h => h.setLane 3 { mode := 1 })).hub.takesWrite (.mgmt : Req) (R.PRESS_CTRL + 0x1000 * (3 : Lane)) (5#32 : Word).toNat = true ∧ ((on (fun h => h.setLane 3 { mode := 1 })).hub.lane (3 : Lane)).mode ≠ 0 ∧ ((on (fun h => h.setLane 3 { mode := 1 })).hub.lane (3 : Lane)).mode ≠ 4) := by
  and_intros <;> decide +kernel

/-- The hypotheses of cellar_commands_pin_delete_and_format can be met, clause by clause. -/
theorem witness_cellar_commands_pin_delete_and_format :
    ((on (fun h => ({ h.cellar1.setReg R.CELL_ARG_VINTAGE 9 with cell := { h.cellar1.cell with index := ⟨[(4, { number := 9, state := 2, casks := 1, chain := [0] })]⟩, usedCasks := [0] } }))).hub.calm = true ∧ (on (fun h => ({ h.cellar1.setReg R.CELL_ARG_VINTAGE 9 with cell := { h.cellar1.cell with index := ⟨[(4, { number := 9, state := 2, casks := 1, chain := [0] })]⟩, usedCasks := [0] } }))).hub.takesWrite (.mgmt : Req) R.CELL_CMD 1 = true ∧ (on (fun h => ({ h.cellar1.setReg R.CELL_ARG_VINTAGE 9 with cell := { h.cellar1.cell with index := ⟨[(4, { number := 9, state := 2, casks := 1, chain := [0] })]⟩, usedCasks := [0] } }))).hub.cellCheck (isExternal (.mgmt : Req)) 1 = St.OK ∧ (on (fun h => ({ h.cellar1.setReg R.CELL_ARG_VINTAGE 9 with cell := { h.cellar1.cell with index := ⟨[(4, { number := 9, state := 2, casks := 1, chain := [0] })]⟩, usedCasks := [0] } }))).hub.findVintage ((on (fun h => ({ h.cellar1.setReg R.CELL_ARG_VINTAGE 9 with cell := { h.cellar1.cell with index := ⟨[(4, { number := 9, state := 2, casks := 1, chain := [0] })]⟩, usedCasks := [0] } }))).hub.reg R.CELL_ARG_VINTAGE) = some ((4 : Nat), ({ number := 9, state := 2, casks := 1, chain := [0] } : Vint))) ∧
    ((on (fun h => ({ h.cellar1.setReg R.CELL_ARG_VINTAGE 9 with cell := { h.cellar1.cell with index := ⟨[(4, { number := 9, state := 2, casks := 1, chain := [0] })]⟩, usedCasks := [0] } }))).hub.calm = true ∧ (on (fun h => ({ h.cellar1.setReg R.CELL_ARG_VINTAGE 9 with cell := { h.cellar1.cell with index := ⟨[(4, { number := 9, state := 2, casks := 1, chain := [0] })]⟩, usedCasks := [0] } }))).hub.takesWrite (.mgmt : Req) R.CELL_CMD 2 = true ∧ (on (fun h => ({ h.cellar1.setReg R.CELL_ARG_VINTAGE 9 with cell := { h.cellar1.cell with index := ⟨[(4, { number := 9, state := 2, casks := 1, chain := [0] })]⟩, usedCasks := [0] } }))).hub.cellCheck (isExternal (.mgmt : Req)) 2 = St.OK ∧ (on (fun h => ({ h.cellar1.setReg R.CELL_ARG_VINTAGE 9 with cell := { h.cellar1.cell with index := ⟨[(4, { number := 9, state := 2, casks := 1, chain := [0] })]⟩, usedCasks := [0] } }))).hub.findVintage ((on (fun h => ({ h.cellar1.setReg R.CELL_ARG_VINTAGE 9 with cell := { h.cellar1.cell with index := ⟨[(4, { number := 9, state := 2, casks := 1, chain := [0] })]⟩, usedCasks := [0] } }))).hub.reg R.CELL_ARG_VINTAGE) = some ((4 : Nat), ({ number := 9, state := 2, casks := 1, chain := [0] } : Vint))) ∧
    ((on (fun h => ({ h.cellar1.setReg R.CELL_ARG_VINTAGE 9 with cell := { h.cellar1.cell with index := ⟨[(4, { number := 9, state := 2, casks := 1, chain := [0] })]⟩, usedCasks := [0] } }))).hub.calm = true ∧ (on (fun h => ({ h.cellar1.setReg R.CELL_ARG_VINTAGE 9 with cell := { h.cellar1.cell with index := ⟨[(4, { number := 9, state := 2, casks := 1, chain := [0] })]⟩, usedCasks := [0] } }))).hub.takesWrite (.mgmt : Req) R.CELL_CMD 3 = true ∧ (on (fun h => ({ h.cellar1.setReg R.CELL_ARG_VINTAGE 9 with cell := { h.cellar1.cell with index := ⟨[(4, { number := 9, state := 2, casks := 1, chain := [0] })]⟩, usedCasks := [0] } }))).hub.cellCheck (isExternal (.mgmt : Req)) 3 = St.OK ∧ (on (fun h => ({ h.cellar1.setReg R.CELL_ARG_VINTAGE 9 with cell := { h.cellar1.cell with index := ⟨[(4, { number := 9, state := 2, casks := 1, chain := [0] })]⟩, usedCasks := [0] } }))).hub.findVintage ((on (fun h => ({ h.cellar1.setReg R.CELL_ARG_VINTAGE 9 with cell := { h.cellar1.cell with index := ⟨[(4, { number := 9, state := 2, casks := 1, chain := [0] })]⟩, usedCasks := [0] } }))).hub.reg R.CELL_ARG_VINTAGE) = some ((4 : Nat), ({ number := 9, state := 2, casks := 1, chain := [0] } : Vint))) ∧
    ((on (fun h => (({ h.cellar1.setReg R.CELL_ARG_VINTAGE 9 with cell := { h.cellar1.cell with index := ⟨[(4, { number := 9, state := 2, casks := 1, chain := [0] })]⟩, usedCasks := [0] } }).wr F.CELL_SIZE_UNITS 2).wr F.CELL_RING_MIB 16)).hub.calm = true ∧ (on (fun h => (({ h.cellar1.setReg R.CELL_ARG_VINTAGE 9 with cell := { h.cellar1.cell with index := ⟨[(4, { number := 9, state := 2, casks := 1, chain := [0] })]⟩, usedCasks := [0] } }).wr F.CELL_SIZE_UNITS 2).wr F.CELL_RING_MIB 16)).hub.takesWrite (.mgmt : Req) R.CELL_CMD 4 = true ∧ (on (fun h => (({ h.cellar1.setReg R.CELL_ARG_VINTAGE 9 with cell := { h.cellar1.cell with index := ⟨[(4, { number := 9, state := 2, casks := 1, chain := [0] })]⟩, usedCasks := [0] } }).wr F.CELL_SIZE_UNITS 2).wr F.CELL_RING_MIB 16)).hub.cellCheck (isExternal (.mgmt : Req)) 4 = St.OK) ∧
    ((on (fun h => { (((h.cellar1.wr F.CELL_SIZE_UNITS 1).wr F.CELL_CASK_CODE 8).wr F.CELL_RING_MIB 16) with cell := { h.cellar1.cell with formatAt := some 7 } })).hub.calm = true ∧ (on (fun h => { (((h.cellar1.wr F.CELL_SIZE_UNITS 1).wr F.CELL_CASK_CODE 8).wr F.CELL_RING_MIB 16) with cell := { h.cellar1.cell with formatAt := some 7 } })).hub.cell.formatAt = some (7 : Nat)) ∧
    ((on (fun h => ({ h.cellar1.setReg R.CELL_ARG_VINTAGE 9 with cell := { h.cellar1.cell with index := ⟨[(4, { number := 9, state := 2, casks := 1, chain := [0] })]⟩, usedCasks := [0] } }).wr F.CELL_EVICTED_COUNT 7)).hub.calm = true ∧ (on (fun h => ({ h.cellar1.setReg R.CELL_ARG_VINTAGE 9 with cell := { h.cellar1.cell with index := ⟨[(4, { number := 9, state := 2, casks := 1, chain := [0] })]⟩, usedCasks := [0] } }).wr F.CELL_EVICTED_COUNT 7)).hub.takesWrite (.mgmt : Req) R.CELL_CMD 5 = true ∧ (on (fun h => ({ h.cellar1.setReg R.CELL_ARG_VINTAGE 9 with cell := { h.cellar1.cell with index := ⟨[(4, { number := 9, state := 2, casks := 1, chain := [0] })]⟩, usedCasks := [0] } }).wr F.CELL_EVICTED_COUNT 7)).hub.cellCheck (isExternal (.mgmt : Req)) 5 = St.OK) ∧
    ((on (fun h => h.issued Cu.META)).hub.calm = true ∧ ((.metadata : CellUser) = .metadata ∨ (.metadata : CellUser) = .trace) ∧ (on (fun h => h.issued Cu.META)).hub.outstanding (cellUser (.metadata : CellUser)) = 1) ∧
    ((on (fun h => h.issued 3)).hub.calm = true ∧ (on (fun h => h.issued 3)).hub.outstanding (3 : Lane) = 1) ∧
    ((on (fun h => ({ h.stopped3.cellar1 with lanes := ⟨[(0, { mode := 1, isOpen := true, casks := [0], pos := 48, firstHdr := some 48, cur := some { type := 1, flags := 0, tile := 5, offset := 0, payload := List.replicate 64 9 } })]⟩, harv := { op := 1, admitted := true, drained := true, vintage := 9, slots := [3], rect := 0x03070000, range := 0x03FF0000, caps := ⟨[(5, { selected := true, slot := some 3 })]⟩ } }).issued 0)).hub.calm = true ∧ (on (fun h => ({ h.stopped3.cellar1 with lanes := ⟨[(0, { mode := 1, isOpen := true, casks := [0], pos := 48, firstHdr := some 48, cur := some { type := 1, flags := 0, tile := 5, offset := 0, payload := List.replicate 64 9 } })]⟩, harv := { op := 1, admitted := true, drained := true, vintage := 9, slots := [3], rect := 0x03070000, range := 0x03FF0000, caps := ⟨[(5, { selected := true, slot := some 3 })]⟩ } }).issued 0)).hub.outstanding (0 : Lane) ≠ 0 ∧ (on (fun h => ({ h.stopped3.cellar1 with lanes := ⟨[(0, { mode := 1, isOpen := true, casks := [0], pos := 48, firstHdr := some 48, cur := some { type := 1, flags := 0, tile := 5, offset := 0, payload := List.replicate 64 9 } })]⟩, harv := { op := 1, admitted := true, drained := true, vintage := 9, slots := [3], rect := 0x03070000, range := 0x03FF0000, caps := ⟨[(5, { selected := true, slot := some 3 })]⟩ } }).issued 0)).hub.harv.op = 1 ∧ (on (fun h => ({ h.stopped3.cellar1 with lanes := ⟨[(0, { mode := 1, isOpen := true, casks := [0], pos := 48, firstHdr := some 48, cur := some { type := 1, flags := 0, tile := 5, offset := 0, payload := List.replicate 64 9 } })]⟩, harv := { op := 1, admitted := true, drained := true, vintage := 9, slots := [3], rect := 0x03070000, range := 0x03FF0000, caps := ⟨[(5, { selected := true, slot := some 3 })]⟩ } }).issued 0)).hub.harv.admitted = true ∧ (on (fun h => ({ h.stopped3.cellar1 with lanes := ⟨[(0, { mode := 1, isOpen := true, casks := [0], pos := 48, firstHdr := some 48, cur := some { type := 1, flags := 0, tile := 5, offset := 0, payload := List.replicate 64 9 } })]⟩, harv := { op := 1, admitted := true, drained := true, vintage := 9, slots := [3], rect := 0x03070000, range := 0x03FF0000, caps := ⟨[(5, { selected := true, slot := some 3 })]⟩ } }).issued 0)).hub.harv.closed = false ∧ (on (fun h => ({ h.stopped3.cellar1 with lanes := ⟨[(0, { mode := 1, isOpen := true, casks := [0], pos := 48, firstHdr := some 48, cur := some { type := 1, flags := 0, tile := 5, offset := 0, payload := List.replicate 64 9 } })]⟩, harv := { op := 1, admitted := true, drained := true, vintage := 9, slots := [3], rect := 0x03070000, range := 0x03FF0000, caps := ⟨[(5, { selected := true, slot := some 3 })]⟩ } }).issued 0)).hub.harv.ended = none) := by
  and_intros <;> decide +kernel

/-- The hypotheses of racking_queues_starts_holds_and_cancels can be met, clause by clause. -/
theorem witness_racking_queues_starts_holds_and_cancels :
    ((on (fun h => ({ (((h.cellar1.wr F.LINK_STATE_STATE 5).wr F.RACK_ARG_HUB_HUB 130).setReg R.RACK_ARG_VINTAGE 9) with cell := { h.cellar1.cell with index := ⟨[(4, { number := 9, state := 2, casks := 1, chain := [0] })]⟩ } }.setReg R.RACK_ARG_OBJ 0x3FFFF))).hub.calm = true ∧ (on (fun h => ({ (((h.cellar1.wr F.LINK_STATE_STATE 5).wr F.RACK_ARG_HUB_HUB 130).setReg R.RACK_ARG_VINTAGE 9) with cell := { h.cellar1.cell with index := ⟨[(4, { number := 9, state := 2, casks := 1, chain := [0] })]⟩ } }.setReg R.RACK_ARG_OBJ 0x3FFFF))).hub.takesWrite (.mgmt : Req) R.RACK_CMD 1 = true ∧ (on (fun h => ({ (((h.cellar1.wr F.LINK_STATE_STATE 5).wr F.RACK_ARG_HUB_HUB 130).setReg R.RACK_ARG_VINTAGE 9) with cell := { h.cellar1.cell with index := ⟨[(4, { number := 9, state := 2, casks := 1, chain := [0] })]⟩ } }.setReg R.RACK_ARG_OBJ 0x3FFFF))).hub.rackRegArgs = (((on (fun h => ({ (((h.cellar1.wr F.LINK_STATE_STATE 5).wr F.RACK_ARG_HUB_HUB 130).setReg R.RACK_ARG_VINTAGE 9) with cell := { h.cellar1.cell with index := ⟨[(4, { number := 9, state := 2, casks := 1, chain := [0] })]⟩ } }.setReg R.RACK_ARG_OBJ 0x3FFFF))).hub.rackRegArgs) : RackArgs) ∧ (((on (fun h => ({ (((h.cellar1.wr F.LINK_STATE_STATE 5).wr F.RACK_ARG_HUB_HUB 130).setReg R.RACK_ARG_VINTAGE 9) with cell := { h.cellar1.cell with index := ⟨[(4, { number := 9, state := 2, casks := 1, chain := [0] })]⟩ } }.setReg R.RACK_ARG_OBJ 0x3FFFF))).hub.rackRegArgs) : RackArgs).hub = (on (fun h => ({ (((h.cellar1.wr F.LINK_STATE_STATE 5).wr F.RACK_ARG_HUB_HUB 130).setReg R.RACK_ARG_VINTAGE 9) with cell := { h.cellar1.cell with index := ⟨[(4, { number := 9, state := 2, casks := 1, chain := [0] })]⟩ } }.setReg R.RACK_ARG_OBJ 0x3FFFF))).hub.hubAddr ∧ (on (fun h => ({ (((h.cellar1.wr F.LINK_STATE_STATE 5).wr F.RACK_ARG_HUB_HUB 130).setReg R.RACK_ARG_VINTAGE 9) with cell := { h.cellar1.cell with index := ⟨[(4, { number := 9, state := 2, casks := 1, chain := [0] })]⟩ } }.setReg R.RACK_ARG_OBJ 0x3FFFF))).hub.rackCheck (isExternal (.mgmt : Req)) 1 (((on (fun h => ({ (((h.cellar1.wr F.LINK_STATE_STATE 5).wr F.RACK_ARG_HUB_HUB 130).setReg R.RACK_ARG_VINTAGE 9) with cell := { h.cellar1.cell with index := ⟨[(4, { number := 9, state := 2, casks := 1, chain := [0] })]⟩ } }.setReg R.RACK_ARG_OBJ 0x3FFFF))).hub.rackRegArgs) : RackArgs) = St.OK) ∧
    ((on (fun h => { (((({ (((h.cellar1.wr F.LINK_STATE_STATE 5).wr F.RACK_ARG_HUB_HUB 130).setReg R.RACK_ARG_VINTAGE 9) with cell := { h.cellar1.cell with index := ⟨[(4, { number := 9, state := 2, casks := 1, chain := [0] })]⟩ } }.setReg R.RACK_ARG_OBJ 0x3FFFF).wr F.RACK_ARG_HUB_HUB 131).setReg R.RACK_SERVE_0 8).setTend 1 { st := Ts.UP }) with fed := { (({ (((h.cellar1.wr F.LINK_STATE_STATE 5).wr F.RACK_ARG_HUB_HUB 130).setReg R.RACK_ARG_VINTAGE 9) with cell := { h.cellar1.cell with index := ⟨[(4, { number := 9, state := 2, casks := 1, chain := [0] })]⟩ } }.setReg R.RACK_ARG_OBJ 0x3FFFF).setTend 1 { st := Ts.UP }).fed with routes := h.fed.routes.set 3 { valid := true, tendril := 1 } } })).hub.calm = true ∧ (on (fun h => { (((({ (((h.cellar1.wr F.LINK_STATE_STATE 5).wr F.RACK_ARG_HUB_HUB 130).setReg R.RACK_ARG_VINTAGE 9) with cell := { h.cellar1.cell with index := ⟨[(4, { number := 9, state := 2, casks := 1, chain := [0] })]⟩ } }.setReg R.RACK_ARG_OBJ 0x3FFFF).wr F.RACK_ARG_HUB_HUB 131).setReg R.RACK_SERVE_0 8).setTend 1 { st := Ts.UP }) with fed := { (({ (((h.cellar1.wr F.LINK_STATE_STATE 5).wr F.RACK_ARG_HUB_HUB 130).setReg R.RACK_ARG_VINTAGE 9) with cell := { h.cellar1.cell with index := ⟨[(4, { number := 9, state := 2, casks := 1, chain := [0] })]⟩ } }.setReg R.RACK_ARG_OBJ 0x3FFFF).setTend 1 { st := Ts.UP }).fed with routes := h.fed.routes.set 3 { valid := true, tendril := 1 } } })).hub.takesWrite (.mgmt : Req) R.RACK_CMD 1 = true ∧ (on (fun h => { (((({ (((h.cellar1.wr F.LINK_STATE_STATE 5).wr F.RACK_ARG_HUB_HUB 130).setReg R.RACK_ARG_VINTAGE 9) with cell := { h.cellar1.cell with index := ⟨[(4, { number := 9, state := 2, casks := 1, chain := [0] })]⟩ } }.setReg R.RACK_ARG_OBJ 0x3FFFF).wr F.RACK_ARG_HUB_HUB 131).setReg R.RACK_SERVE_0 8).setTend 1 { st := Ts.UP }) with fed := { (({ (((h.cellar1.wr F.LINK_STATE_STATE 5).wr F.RACK_ARG_HUB_HUB 130).setReg R.RACK_ARG_VINTAGE 9) with cell := { h.cellar1.cell with index := ⟨[(4, { number := 9, state := 2, casks := 1, chain := [0] })]⟩ } }.setReg R.RACK_ARG_OBJ 0x3FFFF).setTend 1 { st := Ts.UP }).fed with routes := h.fed.routes.set 3 { valid := true, tendril := 1 } } })).hub.rackRegArgs = ((on (fun h => { (((({ (((h.cellar1.wr F.LINK_STATE_STATE 5).wr F.RACK_ARG_HUB_HUB 130).setReg R.RACK_ARG_VINTAGE 9) with cell := { h.cellar1.cell with index := ⟨[(4, { number := 9, state := 2, casks := 1, chain := [0] })]⟩ } }.setReg R.RACK_ARG_OBJ 0x3FFFF).wr F.RACK_ARG_HUB_HUB 131).setReg R.RACK_SERVE_0 8).setTend 1 { st := Ts.UP }) with fed := { (({ (((h.cellar1.wr F.LINK_STATE_STATE 5).wr F.RACK_ARG_HUB_HUB 130).setReg R.RACK_ARG_VINTAGE 9) with cell := { h.cellar1.cell with index := ⟨[(4, { number := 9, state := 2, casks := 1, chain := [0] })]⟩ } }.setReg R.RACK_ARG_OBJ 0x3FFFF).setTend 1 { st := Ts.UP }).fed with routes := h.fed.routes.set 3 { valid := true, tendril := 1 } } })).hub.rackRegArgs : RackArgs) ∧ ((on (fun h => { (((({ (((h.cellar1.wr F.LINK_STATE_STATE 5).wr F.RACK_ARG_HUB_HUB 130).setReg R.RACK_ARG_VINTAGE 9) with cell := { h.cellar1.cell with index := ⟨[(4, { number := 9, state := 2, casks := 1, chain := [0] })]⟩ } }.setReg R.RACK_ARG_OBJ 0x3FFFF).wr F.RACK_ARG_HUB_HUB 131).setReg R.RACK_SERVE_0 8).setTend 1 { st := Ts.UP }) with fed := { (({ (((h.cellar1.wr F.LINK_STATE_STATE 5).wr F.RACK_ARG_HUB_HUB 130).setReg R.RACK_ARG_VINTAGE 9) with cell := { h.cellar1.cell with index := ⟨[(4, { number := 9, state := 2, casks := 1, chain := [0] })]⟩ } }.setReg R.RACK_ARG_OBJ 0x3FFFF).setTend 1 { st := Ts.UP }).fed with routes := h.fed.routes.set 3 { valid := true, tendril := 1 } } })).hub.rackRegArgs : RackArgs).hub ≠ (on (fun h => { (((({ (((h.cellar1.wr F.LINK_STATE_STATE 5).wr F.RACK_ARG_HUB_HUB 130).setReg R.RACK_ARG_VINTAGE 9) with cell := { h.cellar1.cell with index := ⟨[(4, { number := 9, state := 2, casks := 1, chain := [0] })]⟩ } }.setReg R.RACK_ARG_OBJ 0x3FFFF).wr F.RACK_ARG_HUB_HUB 131).setReg R.RACK_SERVE_0 8).setTend 1 { st := Ts.UP }) with fed := { (({ (((h.cellar1.wr F.LINK_STATE_STATE 5).wr F.RACK_ARG_HUB_HUB 130).setReg R.RACK_ARG_VINTAGE 9) with cell := { h.cellar1.cell with index := ⟨[(4, { number := 9, state := 2, casks := 1, chain := [0] })]⟩ } }.setReg R.RACK_ARG_OBJ 0x3FFFF).setTend 1 { st := Ts.UP }).fed with routes := h.fed.routes.set 3 { valid := true, tendril := 1 } } })).hub.hubAddr ∧ (on (fun h => { (((({ (((h.cellar1.wr F.LINK_STATE_STATE 5).wr F.RACK_ARG_HUB_HUB 130).setReg R.RACK_ARG_VINTAGE 9) with cell := { h.cellar1.cell with index := ⟨[(4, { number := 9, state := 2, casks := 1, chain := [0] })]⟩ } }.setReg R.RACK_ARG_OBJ 0x3FFFF).wr F.RACK_ARG_HUB_HUB 131).setReg R.RACK_SERVE_0 8).setTend 1 { st := Ts.UP }) with fed := { (({ (((h.cellar1.wr F.LINK_STATE_STATE 5).wr F.RACK_ARG_HUB_HUB 130).setReg R.RACK_ARG_VINTAGE 9) with cell := { h.cellar1.cell with index := ⟨[(4, { number := 9, state := 2, casks := 1, chain := [0] })]⟩ } }.setReg R.RACK_ARG_OBJ 0x3FFFF).setTend 1 { st := Ts.UP }).fed with routes := h.fed.routes.set 3 { valid := true, tendril := 1 } } })).hub.rackCheck (isExternal (.mgmt : Req)) 1 ((on (fun h => { (((({ (((h.cellar1.wr F.LINK_STATE_STATE 5).wr F.RACK_ARG_HUB_HUB 130).setReg R.RACK_ARG_VINTAGE 9) with cell := { h.cellar1.cell with index := ⟨[(4, { number := 9, state := 2, casks := 1, chain := [0] })]⟩ } }.setReg R.RACK_ARG_OBJ 0x3FFFF).wr F.RACK_ARG_HUB_HUB 131).setReg R.RACK_SERVE_0 8).setTend 1 { st := Ts.UP }) with fed := { (({ (((h.cellar1.wr F.LINK_STATE_STATE 5).wr F.RACK_ARG_HUB_HUB 130).setReg R.RACK_ARG_VINTAGE 9) with cell := { h.cellar1.cell with index := ⟨[(4, { number := 9, state := 2, casks := 1, chain := [0] })]⟩ } }.setReg R.RACK_ARG_OBJ 0x3FFFF).setTend 1 { st := Ts.UP }).fed with routes := h.fed.routes.set 3 { valid := true, tendril := 1 } } })).hub.rackRegArgs : RackArgs) = St.OK) ∧
    ((on (fun h => ({ (((h.cellar1.wr F.LINK_STATE_STATE 5).wr F.RACK_ARG_HUB_HUB 130).setReg R.RACK_ARG_VINTAGE 9) with cell := { h.cellar1.cell with index := ⟨[(4, { number := 9, state := 2, casks := 1, chain := [0] })]⟩ } }.setReg R.RACK_ARG_OBJ 0x3FFFF))).hub.calm = true ∧ (on (fun h => ({ (((h.cellar1.wr F.LINK_STATE_STATE 5).wr F.RACK_ARG_HUB_HUB 130).setReg R.RACK_ARG_VINTAGE 9) with cell := { h.cellar1.cell with index := ⟨[(4, { number := 9, state := 2, casks := 1, chain := [0] })]⟩ } }.setReg R.RACK_ARG_OBJ 0x3FFFF))).hub.takesWrite (.mgmt : Req) R.RACK_CMD 2 = true ∧ (on (fun h => ({ (((h.cellar1.wr F.LINK_STATE_STATE 5).wr F.RACK_ARG_HUB_HUB 130).setReg R.RACK_ARG_VINTAGE 9) with cell := { h.cellar1.cell with index := ⟨[(4, { number := 9, state := 2, casks := 1, chain := [0] })]⟩ } }.setReg R.RACK_ARG_OBJ 0x3FFFF))).hub.rackRegArgs = (((on (fun h => ({ (((h.cellar1.wr F.LINK_STATE_STATE 5).wr F.RACK_ARG_HUB_HUB 130).setReg R.RACK_ARG_VINTAGE 9) with cell := { h.cellar1.cell with index := ⟨[(4, { number := 9, state := 2, casks := 1, chain := [0] })]⟩ } }.setReg R.RACK_ARG_OBJ 0x3FFFF))).hub.rackRegArgs) : RackArgs) ∧ (on (fun h => ({ (((h.cellar1.wr F.LINK_STATE_STATE 5).wr F.RACK_ARG_HUB_HUB 130).setReg R.RACK_ARG_VINTAGE 9) with cell := { h.cellar1.cell with index := ⟨[(4, { number := 9, state := 2, casks := 1, chain := [0] })]⟩ } }.setReg R.RACK_ARG_OBJ 0x3FFFF))).hub.rackCheck (isExternal (.mgmt : Req)) 2 (((on (fun h => ({ (((h.cellar1.wr F.LINK_STATE_STATE 5).wr F.RACK_ARG_HUB_HUB 130).setReg R.RACK_ARG_VINTAGE 9) with cell := { h.cellar1.cell with index := ⟨[(4, { number := 9, state := 2, casks := 1, chain := [0] })]⟩ } }.setReg R.RACK_ARG_OBJ 0x3FFFF))).hub.rackRegArgs) : RackArgs) = St.OK) ∧
    ((on (fun h => { ({ (((h.cellar1.wr F.LINK_STATE_STATE 5).wr F.RACK_ARG_HUB_HUB 130).setReg R.RACK_ARG_VINTAGE 9) with cell := { h.cellar1.cell with index := ⟨[(4, { number := 9, state := 2, casks := 1, chain := [0] })]⟩ } }.setReg R.RACK_ARG_OBJ 0x3FFFF).setReg R.RACK_ARG_OBJ 0x07000000 with rack := { queue := [{ id := 7 }, { id := 8 }], nextId := 9 } })).hub.calm = true ∧ (on (fun h => { ({ (((h.cellar1.wr F.LINK_STATE_STATE 5).wr F.RACK_ARG_HUB_HUB 130).setReg R.RACK_ARG_VINTAGE 9) with cell := { h.cellar1.cell with index := ⟨[(4, { number := 9, state := 2, casks := 1, chain := [0] })]⟩ } }.setReg R.RACK_ARG_OBJ 0x3FFFF).setReg R.RACK_ARG_OBJ 0x07000000 with rack := { queue := [{ id := 7 }, { id := 8 }], nextId := 9 } })).hub.takesWrite (.mgmt : Req) R.RACK_CMD 3 = true ∧ (on (fun h => { ({ (((h.cellar1.wr F.LINK_STATE_STATE 5).wr F.RACK_ARG_HUB_HUB 130).setReg R.RACK_ARG_VINTAGE 9) with cell := { h.cellar1.cell with index := ⟨[(4, { number := 9, state := 2, casks := 1, chain := [0] })]⟩ } }.setReg R.RACK_ARG_OBJ 0x3FFFF).setReg R.RACK_ARG_OBJ 0x07000000 with rack := { queue := [{ id := 7 }, { id := 8 }], nextId := 9 } })).hub.rackRegArgs = ((on (fun h => ({ (((h.cellar1.wr F.LINK_STATE_STATE 5).wr F.RACK_ARG_HUB_HUB 130).setReg R.RACK_ARG_VINTAGE 9) with cell := { h.cellar1.cell with index := ⟨[(4, { number := 9, state := 2, casks := 1, chain := [0] })]⟩ } }.setReg R.RACK_ARG_OBJ 0x3FFFF).setReg R.RACK_ARG_OBJ 0x07000000)).hub.rackRegArgs : RackArgs) ∧ (on (fun h => { ({ (((h.cellar1.wr F.LINK_STATE_STATE 5).wr F.RACK_ARG_HUB_HUB 130).setReg R.RACK_ARG_VINTAGE 9) with cell := { h.cellar1.cell with index := ⟨[(4, { number := 9, state := 2, casks := 1, chain := [0] })]⟩ } }.setReg R.RACK_ARG_OBJ 0x3FFFF).setReg R.RACK_ARG_OBJ 0x07000000 with rack := { queue := [{ id := 7 }, { id := 8 }], nextId := 9 } })).hub.rackCheck (isExternal (.mgmt : Req)) 3 ((on (fun h => ({ (((h.cellar1.wr F.LINK_STATE_STATE 5).wr F.RACK_ARG_HUB_HUB 130).setReg R.RACK_ARG_VINTAGE 9) with cell := { h.cellar1.cell with index := ⟨[(4, { number := 9, state := 2, casks := 1, chain := [0] })]⟩ } }.setReg R.RACK_ARG_OBJ 0x3FFFF).setReg R.RACK_ARG_OBJ 0x07000000)).hub.rackRegArgs : RackArgs) = St.OK ∧ (on (fun h => { ({ (((h.cellar1.wr F.LINK_STATE_STATE 5).wr F.RACK_ARG_HUB_HUB 130).setReg R.RACK_ARG_VINTAGE 9) with cell := { h.cellar1.cell with index := ⟨[(4, { number := 9, state := 2, casks := 1, chain := [0] })]⟩ } }.setReg R.RACK_ARG_OBJ 0x3FFFF).setReg R.RACK_ARG_OBJ 0x07000000 with rack := { queue := [{ id := 7 }, { id := 8 }], nextId := 9 } })).hub.rack.active = none) ∧
    ((on (fun h => ({ (((h.cellar1.wr F.LINK_STATE_STATE 5).wr F.RACK_ARG_HUB_HUB 130).setReg R.RACK_ARG_VINTAGE 9) with cell := { h.cellar1.cell with index := ⟨[(4, { number := 9, state := 2, casks := 1, chain := [0] })]⟩ } }.setReg R.RACK_ARG_OBJ 0x3FFFF).setReg R.RACK_SENT_LO 5)).hub.calm = true ∧ (on (fun h => ({ (((h.cellar1.wr F.LINK_STATE_STATE 5).wr F.RACK_ARG_HUB_HUB 130).setReg R.RACK_ARG_VINTAGE 9) with cell := { h.cellar1.cell with index := ⟨[(4, { number := 9, state := 2, casks := 1, chain := [0] })]⟩ } }.setReg R.RACK_ARG_OBJ 0x3FFFF).setReg R.RACK_SENT_LO 5)).hub.takesWrite (.mgmt : Req) R.RACK_CMD 4 = true ∧ (on (fun h => ({ (((h.cellar1.wr F.LINK_STATE_STATE 5).wr F.RACK_ARG_HUB_HUB 130).setReg R.RACK_ARG_VINTAGE 9) with cell := { h.cellar1.cell with index := ⟨[(4, { number := 9, state := 2, casks := 1, chain := [0] })]⟩ } }.setReg R.RACK_ARG_OBJ 0x3FFFF).setReg R.RACK_SENT_LO 5)).hub.rackRegArgs = (((on (fun h => ({ (((h.cellar1.wr F.LINK_STATE_STATE 5).wr F.RACK_ARG_HUB_HUB 130).setReg R.RACK_ARG_VINTAGE 9) with cell := { h.cellar1.cell with index := ⟨[(4, { number := 9, state := 2, casks := 1, chain := [0] })]⟩ } }.setReg R.RACK_ARG_OBJ 0x3FFFF))).hub.rackRegArgs) : RackArgs) ∧ (on (fun h => ({ (((h.cellar1.wr F.LINK_STATE_STATE 5).wr F.RACK_ARG_HUB_HUB 130).setReg R.RACK_ARG_VINTAGE 9) with cell := { h.cellar1.cell with index := ⟨[(4, { number := 9, state := 2, casks := 1, chain := [0] })]⟩ } }.setReg R.RACK_ARG_OBJ 0x3FFFF).setReg R.RACK_SENT_LO 5)).hub.rackCheck (isExternal (.mgmt : Req)) 4 (((on (fun h => ({ (((h.cellar1.wr F.LINK_STATE_STATE 5).wr F.RACK_ARG_HUB_HUB 130).setReg R.RACK_ARG_VINTAGE 9) with cell := { h.cellar1.cell with index := ⟨[(4, { number := 9, state := 2, casks := 1, chain := [0] })]⟩ } }.setReg R.RACK_ARG_OBJ 0x3FFFF))).hub.rackRegArgs) : RackArgs) = St.OK) ∧
    ((on (fun h => { ({ (((h.cellar1.wr F.LINK_STATE_STATE 5).wr F.RACK_ARG_HUB_HUB 130).setReg R.RACK_ARG_VINTAGE 9) with cell := { h.cellar1.cell with index := ⟨[(4, { number := 9, state := 2, casks := 1, chain := [0] })]⟩ } }.setReg R.RACK_ARG_OBJ 0x3FFFF) with rack := { queue := [{ id := 7, hub := 130, vintage := 9 }] } })).hub.calm = true ∧ (on (fun h => { ({ (((h.cellar1.wr F.LINK_STATE_STATE 5).wr F.RACK_ARG_HUB_HUB 130).setReg R.RACK_ARG_VINTAGE 9) with cell := { h.cellar1.cell with index := ⟨[(4, { number := 9, state := 2, casks := 1, chain := [0] })]⟩ } }.setReg R.RACK_ARG_OBJ 0x3FFFF) with rack := { queue := [{ id := 7, hub := 130, vintage := 9 }] } })).hub.rack.active = none ∧ (on (fun h => { ({ (((h.cellar1.wr F.LINK_STATE_STATE 5).wr F.RACK_ARG_HUB_HUB 130).setReg R.RACK_ARG_VINTAGE 9) with cell := { h.cellar1.cell with index := ⟨[(4, { number := 9, state := 2, casks := 1, chain := [0] })]⟩ } }.setReg R.RACK_ARG_OBJ 0x3FFFF) with rack := { queue := [{ id := 7, hub := 130, vintage := 9 }] } })).hub.isLead = true ∧ (on (fun h => { ({ (((h.cellar1.wr F.LINK_STATE_STATE 5).wr F.RACK_ARG_HUB_HUB 130).setReg R.RACK_ARG_VINTAGE 9) with cell := { h.cellar1.cell with index := ⟨[(4, { number := 9, state := 2, casks := 1, chain := [0] })]⟩ } }.setReg R.RACK_ARG_OBJ 0x3FFFF) with rack := { queue := [{ id := 7, hub := 130, vintage := 9 }] } })).hub.rd F.LINK_STATE_STATE ≠ Lk.DISABLED ∧ (on (fun h => { ({ (((h.cellar1.wr F.LINK_STATE_STATE 5).wr F.RACK_ARG_HUB_HUB 130).setReg R.RACK_ARG_VINTAGE 9) with cell := { h.cellar1.cell with index := ⟨[(4, { number := 9, state := 2, casks := 1, chain := [0] })]⟩ } }.setReg R.RACK_ARG_OBJ 0x3FFFF) with rack := { queue := [{ id := 7, hub := 130, vintage := 9 }] } })).hub.rackChoice = some ({ id := 7, hub := 130, vintage := 9 } : RackReq) ∧ ({ id := 7, hub := 130, vintage := 9 } : RackReq).trace = false ∧ ({ id := 7, hub := 130, vintage := 9 } : RackReq).hub = (on (fun h => { ({ (((h.cellar1.wr F.LINK_STATE_STATE 5).wr F.RACK_ARG_HUB_HUB 130).setReg R.RACK_ARG_VINTAGE 9) with cell := { h.cellar1.cell with index := ⟨[(4, { number := 9, state := 2, casks := 1, chain := [0] })]⟩ } }.setReg R.RACK_ARG_OBJ 0x3FFFF) with rack := { queue := [{ id := 7, hub := 130, vintage := 9 }] } })).hub.hubAddr ∧ (on (fun h => { ({ (((h.cellar1.wr F.LINK_STATE_STATE 5).wr F.RACK_ARG_HUB_HUB 130).setReg R.RACK_ARG_VINTAGE 9) with cell := { h.cellar1.cell with index := ⟨[(4, { number := 9, state := 2, casks := 1, chain := [0] })]⟩ } }.setReg R.RACK_ARG_OBJ 0x3FFFF) with rack := { queue := [{ id := 7, hub := 130, vintage := 9 }] } })).hub.findVintage ({ id := 7, hub := 130, vintage := 9 } : RackReq).vintage = some ((4 : Nat), ({ number := 9, state := 2, casks := 1, chain := [0] } : Vint))) ∧
    ((Machine.on (fun h => ({ (((h.cellar1.wr F.LINK_STATE_STATE 5).wr F.RACK_ARG_HUB_HUB 130).setReg R.RACK_ARG_VINTAGE 9) with cell := { h.cellar1.cell with index := ⟨[(4, { number := 9, state := 2, casks := 1, chain := [0] })]⟩ } }.setReg R.RACK_ARG_OBJ 0x3FFFF))).hub.calm = true ∧ (Machine.on (fun h => ({ (((h.cellar1.wr F.LINK_STATE_STATE 5).wr F.RACK_ARG_HUB_HUB 130).setReg R.RACK_ARG_VINTAGE 9) with cell := { h.cellar1.cell with index := ⟨[(4, { number := 9, state := 2, casks := 1, chain := [0] })]⟩ } }.setReg R.RACK_ARG_OBJ 0x3FFFF))).hub.takesWrite (.mgmt : Req) R.RACK_CTRL (setBits ((Machine.on (fun h => ({ (((h.cellar1.wr F.LINK_STATE_STATE 5).wr F.RACK_ARG_HUB_HUB 130).setReg R.RACK_ARG_VINTAGE 9) with cell := { h.cellar1.cell with index := ⟨[(4, { number := 9, state := 2, casks := 1, chain := [0] })]⟩ } }.setReg R.RACK_ARG_OBJ 0x3FFFF))).hub.reg R.RACK_CTRL) 1 1 (b2n (true : Bool))) = true) ∧
    ((on (fun h => { h with time := { h.time with hclk := 4000000 }, rack := { active := some { id := 7, hub := 130, trace := true } } })).hub.calm = true ∧ (on (fun h => { h with time := { h.time with hclk := 4000000 }, rack := { active := some { id := 7, hub := 130, trace := true } } })).hub.rack.active = some ({ id := 7, hub := 130, trace := true } : RackReq) ∧ (on (fun h => { h with time := { h.time with hclk := 4000000 }, rack := { active := some { id := 7, hub := 130, trace := true } } })).hub.elapsed (on (fun h => { h with time := { h.time with hclk := 4000000 }, rack := { active := some { id := 7, hub := 130, trace := true } } })).hub.rack.renewAt Config.millisecond = true ∧ ({ id := 7, hub := 130, trace := true } : RackReq).trace = true) ∧
    ((on (fun h => { ({ (((h.cellar1.wr F.LINK_STATE_STATE 5).wr F.RACK_ARG_HUB_HUB 130).setReg R.RACK_ARG_VINTAGE 9) with cell := { h.cellar1.cell with index := ⟨[(4, { number := 9, state := 2, casks := 1, chain := [0] })]⟩ } }.setReg R.RACK_ARG_OBJ 0x3FFFF) with time := { h.time with hclk := 4000000 }, rack := { active := some { id := 7, hub := 130, vintage := 9 } } })).hub.calm = true ∧ (on (fun h => { ({ (((h.cellar1.wr F.LINK_STATE_STATE 5).wr F.RACK_ARG_HUB_HUB 130).setReg R.RACK_ARG_VINTAGE 9) with cell := { h.cellar1.cell with index := ⟨[(4, { number := 9, state := 2, casks := 1, chain := [0] })]⟩ } }.setReg R.RACK_ARG_OBJ 0x3FFFF) with time := { h.time with hclk := 4000000 }, rack := { active := some { id := 7, hub := 130, vintage := 9 } } })).hub.rack.active = some ({ id := 7, hub := 130, vintage := 9 } : RackReq) ∧ (on (fun h => { ({ (((h.cellar1.wr F.LINK_STATE_STATE 5).wr F.RACK_ARG_HUB_HUB 130).setReg R.RACK_ARG_VINTAGE 9) with cell := { h.cellar1.cell with index := ⟨[(4, { number := 9, state := 2, casks := 1, chain := [0] })]⟩ } }.setReg R.RACK_ARG_OBJ 0x3FFFF) with time := { h.time with hclk := 4000000 }, rack := { active := some { id := 7, hub := 130, vintage := 9 } } })).hub.elapsed (on (fun h => { ({ (((h.cellar1.wr F.LINK_STATE_STATE 5).wr F.RACK_ARG_HUB_HUB 130).setReg R.RACK_ARG_VINTAGE 9) with cell := { h.cellar1.cell with index := ⟨[(4, { number := 9, state := 2, casks := 1, chain := [0] })]⟩ } }.setReg R.RACK_ARG_OBJ 0x3FFFF) with time := { h.time with hclk := 4000000 }, rack := { active := some { id := 7, hub := 130, vintage := 9 } } })).hub.rack.renewAt Config.millisecond = true ∧ ({ id := 7, hub := 130, vintage := 9 } : RackReq).trace = false ∧ ({ id := 7, hub := 130, vintage := 9 } : RackReq).hub = (on (fun h => { ({ (((h.cellar1.wr F.LINK_STATE_STATE 5).wr F.RACK_ARG_HUB_HUB 130).setReg R.RACK_ARG_VINTAGE 9) with cell := { h.cellar1.cell with index := ⟨[(4, { number := 9, state := 2, casks := 1, chain := [0] })]⟩ } }.setReg R.RACK_ARG_OBJ 0x3FFFF) with time := { h.time with hclk := 4000000 }, rack := { active := some { id := 7, hub := 130, vintage := 9 } } })).hub.hubAddr ∧ (on (fun h => { ({ (((h.cellar1.wr F.LINK_STATE_STATE 5).wr F.RACK_ARG_HUB_HUB 130).setReg R.RACK_ARG_VINTAGE 9) with cell := { h.cellar1.cell with index := ⟨[(4, { number := 9, state := 2, casks := 1, chain := [0] })]⟩ } }.setReg R.RACK_ARG_OBJ 0x3FFFF) with time := { h.time with hclk := 4000000 }, rack := { active := some { id := 7, hub := 130, vintage := 9 } } })).hub.findVintage ({ id := 7, hub := 130, vintage := 9 } : RackReq).vintage = some ((4 : Nat), ({ number := 9, state := 2, casks := 1, chain := [0] } : Vint))) ∧
    ((on (fun h => { h with time := { h.time with hclk := 40000000 }, cell := { index := ⟨[(4, { number := 9, state := 2, rackHold := [(5, 100), (6, 39999999)] })]⟩ } })).hub.calm = true ∧ (on (fun h => { h with time := { h.time with hclk := 40000000 }, cell := { index := ⟨[(4, { number := 9, state := 2, rackHold := [(5, 100), (6, 39999999)] })]⟩ } })).hub.cell.index.cells.find? (fun p => p.1 == (4 : Nat)) = some ((4 : Nat), ({ number := 9, state := 2, rackHold := [(5, 100), (6, 39999999)] } : Vint))) ∧
    ((on (fun h => ({ h.cellar1.setReg R.CELL_ARG_VINTAGE 9 with cell := { h.cellar1.cell with index := ⟨[(4, { number := 9, state := 2, casks := 1, chain := [0] })]⟩, usedCasks := [0] } }).setTend 1 { st := Ts.UP })).hub.calm = true ∧ (on (fun h => ({ h.cellar1.setReg R.CELL_ARG_VINTAGE 9 with cell := { h.cellar1.cell with index := ⟨[(4, { number := 9, state := 2, casks := 1, chain := [0] })]⟩, usedCasks := [0] } }).setTend 1 { st := Ts.UP })).hub.takesFrame ({ tendril := 1, dest := 130, src := 131 } : Hdr2) Op.HOLD = true ∧ (on (fun h => ({ h.cellar1.setReg R.CELL_ARG_VINTAGE 9 with cell := { h.cellar1.cell with index := ⟨[(4, { number := 9, state := 2, casks := 1, chain := [0] })]⟩, usedCasks := [0] } }).setTend 1 { st := Ts.UP })).hub.isSafe = false ∧ (on (fun h => ({ h.cellar1.setReg R.CELL_ARG_VINTAGE 9 with cell := { h.cellar1.cell with index := ⟨[(4, { number := 9, state := 2, casks := 1, chain := [0] })]⟩, usedCasks := [0] } }).setTend 1 { st := Ts.UP })).hub.findVintage (9#32 : Word).toNat = some ((4 : Nat), ({ number := 9, state := 2, casks := 1, chain := [0] } : Vint)) ∧ ({ number := 9, state := 2, casks := 1, chain := [0] } : Vint).state = 2) ∧
    ((on (fun h => ((h.setTend 1 { st := Ts.UP }).wr F.RACK_CTRL_AUTO_CRASH 1).setReg R.RACK_SERVE_0 8)).hub.calm = true ∧ (on (fun h => ((h.setTend 1 { st := Ts.UP }).wr F.RACK_CTRL_AUTO_CRASH 1).setReg R.RACK_SERVE_0 8)).hub.takesFrame ({ tendril := 1, dest := 130, src := 131 } : Hdr2) Op.CLOSED = true ∧ (on (fun h => ((h.setTend 1 { st := Ts.UP }).wr F.RACK_CTRL_AUTO_CRASH 1).setReg R.RACK_SERVE_0 8)).hub.isSafe = false ∧ (on (fun h => ((h.setTend 1 { st := Ts.UP }).wr F.RACK_CTRL_AUTO_CRASH 1).setReg R.RACK_SERVE_0 8)).hub.isLead = true ∧ (on (fun h => ((h.setTend 1 { st := Ts.UP }).wr F.RACK_CTRL_AUTO_CRASH 1).setReg R.RACK_SERVE_0 8)).hub.flag F.RACK_CTRL_AUTO_CRASH = true ∧ (on (fun h => ((h.setTend 1 { st := Ts.UP }).wr F.RACK_CTRL_AUTO_CRASH 1).setReg R.RACK_SERVE_0 8)).hub.serves ({ tendril := 1, dest := 130, src := 131 } : Hdr2).src = true ∧ bitAt (64#8 : BitVec 8).toNat 6 = true ∧ (on (fun h => ((h.setTend 1 { st := Ts.UP }).wr F.RACK_CTRL_AUTO_CRASH 1).setReg R.RACK_SERVE_0 8)).hub.rack.queue.length < 32 ∧ (on (fun h => ((h.setTend 1 { st := Ts.UP }).wr F.RACK_CTRL_AUTO_CRASH 1).setReg R.RACK_SERVE_0 8)).hub.rack.queue.all (fun x => x.hub != (({ tendril := 1, dest := 130, src := 131 } : Hdr2).src : Nat) || x.vintage != (9#32 : Word).toNat || x.trace) = true) := by
  and_intros <;> decide +kernel

/-- The hypotheses of trace_commands_start_stop_freeze_and_trigger can be met, clause by clause. -/
theorem witness_trace_commands_start_stop_freeze_and_trigger :
    ((on (fun h => h.running3.cellar1)).hub.calm = true ∧ (on (fun h => h.running3.cellar1)).hub.takesWrite (.mgmt : Req) R.TRACE_CMD 1 = true ∧ (on (fun h => h.running3.cellar1)).hub.traceCheck 1 = St.OK ∧ (on (fun h => h.running3.cellar1)).hub.flag F.TRACE_STATE_ARMED = false ∧ (on (fun h => h.running3.cellar1)).hub.flag F.TRACE_STATE_TRIGGERED = false) ∧
    (((on (fun h => (h.running3.cellar1.wr F.TRACE_STATE_RUNNING 1).setTile 5 { st := .inContext, slot := 3, branch := [true], tbuf := [[7#32]] })).hub.wr F.TRACE_STATE_RUNNING 0).calm = true ∧ (on (fun h => (h.running3.cellar1.wr F.TRACE_STATE_RUNNING 1).setTile 5 { st := .inContext, slot := 3, branch := [true], tbuf := [[7#32]] })).hub.flag F.TRACE_STATE_RUNNING = true ∧ (on (fun h => (h.running3.cellar1.wr F.TRACE_STATE_RUNNING 1).setTile 5 { st := .inContext, slot := 3, branch := [true], tbuf := [[7#32]] })).hub.trace.stopping = false ∧ (on (fun h => (h.running3.cellar1.wr F.TRACE_STATE_RUNNING 1).setTile 5 { st := .inContext, slot := 3, branch := [true], tbuf := [[7#32]] })).hub.takesWrite (.mgmt : Req) R.TRACE_CMD 2 = true ∧ (on (fun h => (h.running3.cellar1.wr F.TRACE_STATE_RUNNING 1).setTile 5 { st := .inContext, slot := 3, branch := [true], tbuf := [[7#32]] })).hub.traceCheck 2 = St.OK) ∧
    (((on (fun h => (h.running3.cellar1.wr F.TRACE_STATE_RUNNING 1).setFrameBuf 2 { words := [7#32] })).hub.wr F.TRACE_STATE_RUNNING 0).calm = true ∧ (on (fun h => (h.running3.cellar1.wr F.TRACE_STATE_RUNNING 1).setFrameBuf 2 { words := [7#32] })).hub.flag F.TRACE_STATE_RUNNING = true ∧ (on (fun h => (h.running3.cellar1.wr F.TRACE_STATE_RUNNING 1).setFrameBuf 2 { words := [7#32] })).hub.trace.stopping = false ∧ (on (fun h => (h.running3.cellar1.wr F.TRACE_STATE_RUNNING 1).setFrameBuf 2 { words := [7#32] })).hub.tracing = [] ∧ (on (fun h => (h.running3.cellar1.wr F.TRACE_STATE_RUNNING 1).setFrameBuf 2 { words := [7#32] })).hub.tiles.cells.all (fun p => p.2.branch.isEmpty) = true ∧ (on (fun h => (h.running3.cellar1.wr F.TRACE_STATE_RUNNING 1).setFrameBuf 2 { words := [7#32] })).hub.takesWrite (.mgmt : Req) R.TRACE_CMD 2 = true ∧ (on (fun h => (h.running3.cellar1.wr F.TRACE_STATE_RUNNING 1).setFrameBuf 2 { words := [7#32] })).hub.traceCheck 2 = St.OK) ∧
    ((on (fun h => h)).hub.calm = true ∧ (on (fun h => h)).hub.takesWrite (.mgmt : Req) R.TRACE_CMD 3 = true ∧ (on (fun h => h)).hub.traceCheck 3 = St.OK) ∧
    ((on (fun h => h.wr F.TRACE_STATE_FROZEN 5)).hub.calm = true ∧ (on (fun h => h.wr F.TRACE_STATE_FROZEN 5)).hub.takesWrite (.mgmt : Req) R.TRACE_CMD 4 = true ∧ (on (fun h => h.wr F.TRACE_STATE_FROZEN 5)).hub.traceCheck 4 = St.OK) ∧
    ((on (fun h => h.running3)).hub.calm = true ∧ (on (fun h => h.running3)).hub.takesWrite (.mgmt : Req) R.TRACE_CMD 5 = true ∧ (on (fun h => h.running3)).hub.traceCheck 5 = St.OK ∧ ((on (fun h => h.running3)).hub.tile (5 : Nat)).st = .inContext) ∧
    ((on (fun h => (h.wr F.TRACE_STATE_FROZEN 8).setReg R.TRACE_WPTR_LO 128)).hub.calm = true ∧ (on (fun h => (h.wr F.TRACE_STATE_FROZEN 8).setReg R.TRACE_WPTR_LO 128)).hub.takesWrite (.mgmt : Req) R.TRACE_CMD 6 = true ∧ (on (fun h => (h.wr F.TRACE_STATE_FROZEN 8).setReg R.TRACE_WPTR_LO 128)).hub.traceCheck 6 = St.OK) ∧
    ((on (fun h => h)).hub.calm = true ∧ (on (fun h => h)).hub.takesWrite (.mgmt : Req) R.TRACE_CMD 7 = true ∧ (on (fun h => h)).hub.traceCheck 7 = St.OK) ∧
    ((on (fun h => h.wr F.TRACE_STATE_ARMED 1)).hub.calm = true ∧ (on (fun h => h.wr F.TRACE_STATE_ARMED 1)).hub.takesWrite (.mgmt : Req) R.TRACE_CMD 8 = true ∧ (on (fun h => h.wr F.TRACE_STATE_ARMED 1)).hub.traceCheck 8 = St.OK ∧ (on (fun h => h.wr F.TRACE_STATE_ARMED 1)).hub.flag F.TRACE_STATE_ARMED = true ∧ (on (fun h => h.wr F.TRACE_STATE_ARMED 1)).hub.flag F.CORK_TRIG_SCOPE_EN = false) ∧
    ((on (fun h => h)).hub.calm = true ∧ (on (fun h => h)).hub.takesWrite (.mgmt : Req) R.TRACE_CMD 8 = true ∧ (on (fun h => h)).hub.traceCheck 8 = St.OK ∧ (on (fun h => h)).hub.flag F.TRACE_STATE_ARMED = false) ∧
    ((on (fun h => h.setReg R.TRACE_DISCARDED 9)).hub.calm = true ∧ (on (fun h => h.setReg R.TRACE_DISCARDED 9)).hub.takesWrite (.mgmt : Req) R.TRACE_CMD 9 = true ∧ (on (fun h => h.setReg R.TRACE_DISCARDED 9)).hub.traceCheck 9 = St.OK) := by
  and_intros <;> decide +kernel

/-- The hypotheses of spurs_trace_what_their_tiles_show can be met, clause by clause. -/
theorem witness_spurs_trace_what_their_tiles_show :
    ((on (fun h => h.running3)).hub.calm = true ∧ ((2 : Nat) ≠ 0 ∨ (1 : Nat) ≠ 0) ∧ ((on (fun h => h.running3)).hub.tile (5 : TileId)).branch = []) ∧
    ((on (fun h => (((h.running3.cellar1.wr F.TRACE_STATE_RUNNING 1).wrB F.TRACEF_SLOT_EN 3 1).wrB F.TRACEF_SLOT_BRANCH 3 1))).hub.traces (5 : TileId) = true ∧ ((on (fun h => (((h.running3.cellar1.wr F.TRACE_STATE_RUNNING 1).wrB F.TRACEF_SLOT_EN 3 1).wrB F.TRACEF_SLOT_BRANCH 3 1))).hub.wr F.TRACE_STATE_RUNNING 0).calm = true ∧ (on (fun h => (((h.running3.cellar1.wr F.TRACE_STATE_RUNNING 1).wrB F.TRACEF_SLOT_EN 3 1).wrB F.TRACEF_SLOT_BRANCH 3 1))).hub.reg R.REL_DEGRADED = (on (fun h => (((h.running3.cellar1.wr F.TRACE_STATE_RUNNING 1).wrB F.TRACEF_SLOT_EN 3 1).wrB F.TRACEF_SLOT_BRANCH 3 1))).hub.degradedNow ∧ (on (fun h => (((h.running3.cellar1.wr F.TRACE_STATE_RUNNING 1).wrB F.TRACEF_SLOT_EN 3 1).wrB F.TRACEF_SLOT_BRANCH 3 1))).hub.rdB F.TRACEF_SLOT_BRANCH ((on (fun h => (((h.running3.cellar1.wr F.TRACE_STATE_RUNNING 1).wrB F.TRACEF_SLOT_EN 3 1).wrB F.TRACEF_SLOT_BRANCH 3 1))).hub.tile (5 : TileId)).slot = 1 ∧ ((on (fun h => (((h.running3.cellar1.wr F.TRACE_STATE_RUNNING 1).wrB F.TRACEF_SLOT_EN 3 1).wrB F.TRACEF_SLOT_BRANCH 3 1))).hub.tile (5 : TileId)).branch.length < 26) ∧
    ((on (fun h => h.running3)).hub.calm = true ∧ (on (fun h => h.running3)).hub.traces (5 : TileId) = false) ∧
    ((on (fun h => ((h.running3.cellar1.wr F.TRACE_STATE_RUNNING 1).wrB F.TRACEF_SLOT_EN 3 1).setTile 5 { st := .inContext, slot := 3, chain := some 99990, lastSyncAt := 199990 })).hub.traces (5 : TileId) = true ∧ ((on (fun h => ((h.running3.cellar1.wr F.TRACE_STATE_RUNNING 1).wrB F.TRACEF_SLOT_EN 3 1).setTile 5 { st := .inContext, slot := 3, chain := some 99990, lastSyncAt := 199990 })).hub.wr F.TRACE_STATE_RUNNING 0).calm = true ∧ (on (fun h => ((h.running3.cellar1.wr F.TRACE_STATE_RUNNING 1).wrB F.TRACEF_SLOT_EN 3 1).setTile 5 { st := .inContext, slot := 3, chain := some 99990, lastSyncAt := 199990 })).hub.reg R.REL_DEGRADED = (on (fun h => ((h.running3.cellar1.wr F.TRACE_STATE_RUNNING 1).wrB F.TRACEF_SLOT_EN 3 1).setTile 5 { st := .inContext, slot := 3, chain := some 99990, lastSyncAt := 199990 })).hub.degradedNow ∧ ((on (fun h => ((h.running3.cellar1.wr F.TRACE_STATE_RUNNING 1).wrB F.TRACEF_SLOT_EN 3 1).setTile 5 { st := .inContext, slot := 3, chain := some 99990, lastSyncAt := 199990 })).hub.tile (5 : TileId)).lost = 0 ∧ ((on (fun h => ((h.running3.cellar1.wr F.TRACE_STATE_RUNNING 1).wrB F.TRACEF_SLOT_EN 3 1).setTile 5 { st := .inContext, slot := 3, chain := some 99990, lastSyncAt := 199990 })).hub.tile (5 : TileId)).branch = [] ∧ (on (fun h => ((h.running3.cellar1.wr F.TRACE_STATE_RUNNING 1).wrB F.TRACEF_SLOT_EN 3 1).setTile 5 { st := .inContext, slot := 3, chain := some 99990, lastSyncAt := 199990 })).hub.syncReason ((on (fun h => ((h.running3.cellar1.wr F.TRACE_STATE_RUNNING 1).wrB F.TRACEF_SLOT_EN 3 1).setTile 5 { st := .inContext, slot := 3, chain := some 99990, lastSyncAt := 199990 })).hub.tile (5 : TileId)) (on (fun h => ((h.running3.cellar1.wr F.TRACE_STATE_RUNNING 1).wrB F.TRACEF_SLOT_EN 3 1).setTile 5 { st := .inContext, slot := 3, chain := some 99990, lastSyncAt := 199990 })).hub.now false = none ∧ ((on (fun h => ((h.running3.cellar1.wr F.TRACE_STATE_RUNNING 1).wrB F.TRACEF_SLOT_EN 3 1).setTile 5 { st := .inContext, slot := 3, chain := some 99990, lastSyncAt := 199990 })).hub.tile (5 : TileId)).traceWords + 4 ≤ 512) ∧
    ((on (fun h => h.running3)).hub.calm = true ∧ (on (fun h => h.running3)).hub.traces (5 : TileId) = false) ∧
    ((on (fun h => (h.running3.cellar1.wr F.TRACE_STATE_RUNNING 1).wrB F.TRACEF_SLOT_EN 3 1)).hub.traces (5 : TileId) = true ∧ ((on (fun h => (h.running3.cellar1.wr F.TRACE_STATE_RUNNING 1).wrB F.TRACEF_SLOT_EN 3 1)).hub.wr F.TRACE_STATE_RUNNING 0).calm = true ∧ (on (fun h => (h.running3.cellar1.wr F.TRACE_STATE_RUNNING 1).wrB F.TRACEF_SLOT_EN 3 1)).hub.reg R.REL_DEGRADED = (on (fun h => (h.running3.cellar1.wr F.TRACE_STATE_RUNNING 1).wrB F.TRACEF_SLOT_EN 3 1)).hub.degradedNow ∧ ((on (fun h => (h.running3.cellar1.wr F.TRACE_STATE_RUNNING 1).wrB F.TRACEF_SLOT_EN 3 1)).hub.tile (5 : TileId)).lost = 0 ∧ ((on (fun h => (h.running3.cellar1.wr F.TRACE_STATE_RUNNING 1).wrB F.TRACEF_SLOT_EN 3 1)).hub.tile (5 : TileId)).traceWords + 7 ≤ 512) ∧
    ((on (fun h => { h.running3 with time := { h.time with hclk := 40000000 } })).hub.calm = true ∧ (on (fun h => { h.running3 with time := { h.time with hclk := 40000000 } })).hub.elapsed ((on (fun h => { h.running3 with time := { h.time with hclk := 40000000 } })).hub.tile (5 : TileId)).lastSyncAt (on (fun h => { h.running3 with time := { h.time with hclk := 40000000 } })).hub.syncPeriod = true ∧ ((on (fun h => { h.running3 with time := { h.time with hclk := 40000000 } })).hub.tile (5 : TileId)).syncDue = none) ∧
    ((on (fun h => h.running3.setTile 5 { st := .inContext, slot := 3, tbuf := [[7#32], [8#32]] })).hub.calm = true ∧ (on (fun h => h.running3.setTile 5 { st := .inContext, slot := 3, tbuf := [[7#32], [8#32]] })).hub.caneShut ((on (fun h => h.running3.setTile 5 { st := .inContext, slot := 3, tbuf := [[7#32], [8#32]] })).hub.caneFor (colOf (5 : TileId))) = false ∧ (on (fun h => h.running3.setTile 5 { st := .inContext, slot := 3, tbuf := [[7#32], [8#32]] })).hub.traceGranted (5 : TileId) = true ∧ ((on (fun h => h.running3.setTile 5 { st := .inContext, slot := 3, tbuf := [[7#32], [8#32]] })).hub.tile (5 : TileId)).lost = 0 ∧ ((on (fun h => h.running3.setTile 5 { st := .inContext, slot := 3, tbuf := [[7#32], [8#32]] })).hub.tile (5 : TileId)).tbuf = ([7#32] : List Word) :: ([[8#32]] : List (List Word)) ∧ (on (fun h => h.running3.setTile 5 { st := .inContext, slot := 3, tbuf := [[7#32], [8#32]] })).hub.frozenRing = false ∧ ((on (fun h => h.running3.setTile 5 { st := .inContext, slot := 3, tbuf := [[7#32], [8#32]] })).hub.frameBuf (colOf (5 : TileId))).lost = 0 ∧ ((on (fun h => h.running3.setTile 5 { st := .inContext, slot := 3, tbuf := [[7#32], [8#32]] })).hub.frameBuf (colOf (5 : TileId))).noted = [] ∧ pktType ([7#32] : List Word) ≠ Pk.OVERFLOW ∧ ((on (fun h => h.running3.setTile 5 { st := .inContext, slot := 3, tbuf := [[7#32], [8#32]] })).hub.frameBuf (colOf (5 : TileId))).add ([7#32] : List Word) (on (fun h => h.running3.setTile 5 { st := .inContext, slot := 3, tbuf := [[7#32], [8#32]] })).hub.time.hclk = some ({ words := [7#32], since := 200000 } : FrameBuf)) ∧
    ((on (fun h => (h.running3.setTile 5 { st := .inContext, slot := 3, tbuf := [[7#32], [8#32]] }).wr F.TRACE_STATE_FROZEN 4)).hub.calm = true ∧ (on (fun h => (h.running3.setTile 5 { st := .inContext, slot := 3, tbuf := [[7#32], [8#32]] }).wr F.TRACE_STATE_FROZEN 4)).hub.caneShut ((on (fun h => (h.running3.setTile 5 { st := .inContext, slot := 3, tbuf := [[7#32], [8#32]] }).wr F.TRACE_STATE_FROZEN 4)).hub.caneFor (colOf (5 : TileId))) = false ∧ (on (fun h => (h.running3.setTile 5 { st := .inContext, slot := 3, tbuf := [[7#32], [8#32]] }).wr F.TRACE_STATE_FROZEN 4)).hub.traceGranted (5 : TileId) = true ∧ ((on (fun h => (h.running3.setTile 5 { st := .inContext, slot := 3, tbuf := [[7#32], [8#32]] }).wr F.TRACE_STATE_FROZEN 4)).hub.tile (5 : TileId)).lost = 0 ∧ ((on (fun h => (h.running3.setTile 5 { st := .inContext, slot := 3, tbuf := [[7#32], [8#32]] }).wr F.TRACE_STATE_FROZEN 4)).hub.tile (5 : TileId)).tbuf = ([7#32] : List Word) :: ([[8#32]] : List (List Word)) ∧ (on (fun h => (h.running3.setTile 5 { st := .inContext, slot := 3, tbuf := [[7#32], [8#32]] }).wr F.TRACE_STATE_FROZEN 4)).hub.frozenRing = true) := by
  and_intros <;> decide +kernel

/-- The hypotheses of frames_go_to_the_ring_and_triggers_are_recorded can be met, clause by clause. -/
theorem witness_frames_go_to_the_ring_and_triggers_are_recorded :
    ((on (fun h => h.cellar1.setFrameBuf 2 { ready := some [7#32] })).hub.calm = true ∧ ((on (fun h => h.cellar1.setFrameBuf 2 { ready := some [7#32] })).hub.frameBuf (2 : Fin 129)).ready = some ([7#32] : List Word) ∧ ([7#32] : List Word).length ≤ 15 ∧ (on (fun h => h.cellar1.setFrameBuf 2 { ready := some [7#32] })).hub.frozenRing = false ∧ (on (fun h => h.cellar1.setFrameBuf 2 { ready := some [7#32] })).hub.guarded = false ∧ (on (fun h => h.cellar1.setFrameBuf 2 { ready := some [7#32] })).hub.wptr + 64 < (on (fun h => h.cellar1.setFrameBuf 2 { ready := some [7#32] })).hub.ringLen ∧ (on (fun h => h.cellar1.setFrameBuf 2 { ready := some [7#32] })).hub.trace.postLeft = none) ∧
    ((on (fun h => { (h.cellar1.setFrameBuf 2 { ready := some [7#32] }).setReg R.TRACE_WPTR_LO 0xFFFFC0 with trace := { ringMode := 1, frames := ⟨[(2, { ready := some [7#32] })]⟩ } })).hub.calm = true ∧ ((on (fun h => { (h.cellar1.setFrameBuf 2 { ready := some [7#32] }).setReg R.TRACE_WPTR_LO 0xFFFFC0 with trace := { ringMode := 1, frames := ⟨[(2, { ready := some [7#32] })]⟩ } })).hub.frameBuf (2 : Fin 129)).ready = some ([7#32] : List Word) ∧ ([7#32] : List Word).length ≤ 15 ∧ (on (fun h => { (h.cellar1.setFrameBuf 2 { ready := some [7#32] }).setReg R.TRACE_WPTR_LO 0xFFFFC0 with trace := { ringMode := 1, frames := ⟨[(2, { ready := some [7#32] })]⟩ } })).hub.frozenRing = false ∧ (on (fun h => { (h.cellar1.setFrameBuf 2 { ready := some [7#32] }).setReg R.TRACE_WPTR_LO 0xFFFFC0 with trace := { ringMode := 1, frames := ⟨[(2, { ready := some [7#32] })]⟩ } })).hub.guarded = false ∧ (on (fun h => { (h.cellar1.setFrameBuf 2 { ready := some [7#32] }).setReg R.TRACE_WPTR_LO 0xFFFFC0 with trace := { ringMode := 1, frames := ⟨[(2, { ready := some [7#32] })]⟩ } })).hub.wptr < (on (fun h => { (h.cellar1.setFrameBuf 2 { ready := some [7#32] }).setReg R.TRACE_WPTR_LO 0xFFFFC0 with trace := { ringMode := 1, frames := ⟨[(2, { ready := some [7#32] })]⟩ } })).hub.ringLen ∧ (on (fun h => { (h.cellar1.setFrameBuf 2 { ready := some [7#32] }).setReg R.TRACE_WPTR_LO 0xFFFFC0 with trace := { ringMode := 1, frames := ⟨[(2, { ready := some [7#32] })]⟩ } })).hub.ringLen ≤ (on (fun h => { (h.cellar1.setFrameBuf 2 { ready := some [7#32] }).setReg R.TRACE_WPTR_LO 0xFFFFC0 with trace := { ringMode := 1, frames := ⟨[(2, { ready := some [7#32] })]⟩ } })).hub.wptr + 64 ∧ (on (fun h => { (h.cellar1.setFrameBuf 2 { ready := some [7#32] }).setReg R.TRACE_WPTR_LO 0xFFFFC0 with trace := { ringMode := 1, frames := ⟨[(2, { ready := some [7#32] })]⟩ } })).hub.trace.ringMode = 1 ∧ (on (fun h => { (h.cellar1.setFrameBuf 2 { ready := some [7#32] }).setReg R.TRACE_WPTR_LO 0xFFFFC0 with trace := { ringMode := 1, frames := ⟨[(2, { ready := some [7#32] })]⟩ } })).hub.trace.postLeft = none) ∧
    ((on (fun h => h.setFrameBuf 2 { words := [7#32], since := 5 })).hub.calm = true ∧ (2 : Nat) ∈ (on (fun h => h.setFrameBuf 2 { words := [7#32], since := 5 })).hub.trace.frames.keys) ∧
    ((on (fun h => h.running3.setFrameBuf 2 { lost := 4, noted := [1] })).hub.calm = true ∧ ((on (fun h => h.running3.setFrameBuf 2 { lost := 4, noted := [1] })).hub.frameBuf (2 : Cane)).lost ≠ 0 ∧ (on (fun h => h.running3.setFrameBuf 2 { lost := 4, noted := [1] })).hub.frozenRing = false ∧ (((on (fun h => h.running3.setFrameBuf 2 { lost := 4, noted := [1] })).hub.frameBuf (2 : Cane)).words = [] ∨ ((on (fun h => h.running3.setFrameBuf 2 { lost := 4, noted := [1] })).hub.frameBuf (2 : Cane)).ready = none) ∧ (1 : Nat) ∈ ((on (fun h => h.running3.setFrameBuf 2 { lost := 4, noted := [1] })).hub.frameBuf (2 : Cane)).noted) ∧
    ((on (fun h => (h.wr F.TRACE_STATE_ARMED 1).setTile 5 { trigs := [(1, 2)] })).hub.calm = true ∧ ((on (fun h => (h.wr F.TRACE_STATE_ARMED 1).setTile 5 { trigs := [(1, 2)] })).hub.tile (5 : TileId)).trigs.contains (b2n (true : Bool), ((2 : Fin 4) : Nat)) = true ∧ (on (fun h => (h.wr F.TRACE_STATE_ARMED 1).setTile 5 { trigs := [(1, 2)] })).hub.flag F.TRACE_STATE_ARMED = true ∧ (on (fun h => (h.wr F.TRACE_STATE_ARMED 1).setTile 5 { trigs := [(1, 2)] })).hub.flag F.CORK_TRIG_SCOPE_EN = false) ∧
    ((on (fun h => (h.wr F.TRACE_STATE_TRIGGERED 1).setTile 5 { trigs := [(1, 2)] })).hub.calm = true ∧ ((on (fun h => (h.wr F.TRACE_STATE_TRIGGERED 1).setTile 5 { trigs := [(1, 2)] })).hub.tile (5 : TileId)).trigs.contains (b2n (true : Bool), ((2 : Fin 4) : Nat)) = true ∧ (on (fun h => (h.wr F.TRACE_STATE_TRIGGERED 1).setTile 5 { trigs := [(1, 2)] })).hub.flag F.TRACE_STATE_ARMED = false ∧ (on (fun h => (h.wr F.TRACE_STATE_TRIGGERED 1).setTile 5 { trigs := [(1, 2)] })).hub.flag F.TRACE_STATE_TRIGGERED = true) ∧
    ((on (fun h => h)).hub.calm = true ∧ ((on (fun h => h)).hub.tile (5 : TileId)).trigs.contains (b2n (true : Bool), ((2 : Fin 4) : Nat)) = false) ∧
    ((on (fun h => h)).hub.calm = true ∧ (on (fun h => h)).hub.takesWrite (.mgmt : Req) R.TRACEF_RECT (0x03030101#32 : Word).toNat = true ∧ (rectOf (0x03030101#32 : Word).toNat).bad = false) ∧
    ((on (fun h => h)).hub.calm = true ∧ (on (fun h => h)).hub.takesWrite (.mgmt : Req) R.TRACEF_RECT (0x01010303#32 : Word).toNat = true ∧ (rectOf (0x01010303#32 : Word).toNat).bad = true) ∧
    ((on (fun h => { h with trace := { bcastAt := some 5 } })).hub.calm = true ∧ (on (fun h => { h with trace := { bcastAt := some 5 } })).hub.trace.bcastAt = some (5 : Nat) ∧ (on (fun h => { h with trace := { bcastAt := some 5 } })).hub.elapsed (5 : Nat) (if (true : Bool) then 256 else 48) = true) := by
  and_intros <;> decide +kernel

/-- The hypotheses of tasting_requests_samples_and_judges can be met, clause by clause. -/
theorem witness_tasting_requests_samples_and_judges :
    ((on (fun h => { (((((h.running3.wrB F.TASTE_SLOT_EN 3 1).wrB F.TASTE_SLOT_RESIDENCY 3 4).wr F.TASTE_CTRL_EN 1).wrB F.TASTE_SLOT_CONV 3 1).wrB F.TASTE_SLOT_FMT_FORMATS 3 0x3FFF) with time := { h.time with hclk := 40000000 } })).hub.calm = true ∧ (on (fun h => { (((((h.running3.wrB F.TASTE_SLOT_EN 3 1).wrB F.TASTE_SLOT_RESIDENCY 3 4).wr F.TASTE_CTRL_EN 1).wrB F.TASTE_SLOT_CONV 3 1).wrB F.TASTE_SLOT_FMT_FORMATS 3 0x3FFF) with time := { h.time with hclk := 40000000 } })).hub.flag F.TASTE_CTRL_EN = true ∧ (on (fun h => { (((((h.running3.wrB F.TASTE_SLOT_EN 3 1).wrB F.TASTE_SLOT_RESIDENCY 3 4).wr F.TASTE_CTRL_EN 1).wrB F.TASTE_SLOT_CONV 3 1).wrB F.TASTE_SLOT_FMT_FORMATS 3 0x3FFF) with time := { h.time with hclk := 40000000 } })).hub.rd F.TASTE_INTERVAL_HCLK = (State.reset.hub.rd F.TASTE_INTERVAL_HCLK : Nat) ∧ (on (fun h => { (((((h.running3.wrB F.TASTE_SLOT_EN 3 1).wrB F.TASTE_SLOT_RESIDENCY 3 4).wr F.TASTE_CTRL_EN 1).wrB F.TASTE_SLOT_CONV 3 1).wrB F.TASTE_SLOT_FMT_FORMATS 3 0x3FFF) with time := { h.time with hclk := 40000000 } })).hub.elapsed (on (fun h => { (((((h.running3.wrB F.TASTE_SLOT_EN 3 1).wrB F.TASTE_SLOT_RESIDENCY 3 4).wr F.TASTE_CTRL_EN 1).wrB F.TASTE_SLOT_CONV 3 1).wrB F.TASTE_SLOT_FMT_FORMATS 3 0x3FFF) with time := { h.time with hclk := 40000000 } })).hub.taste.lastTick (if (State.reset.hub.rd F.TASTE_INTERVAL_HCLK : Nat) < 25000 then 25000 else (State.reset.hub.rd F.TASTE_INTERVAL_HCLK : Nat)) = true ∧ (on (fun h => { (((((h.running3.wrB F.TASTE_SLOT_EN 3 1).wrB F.TASTE_SLOT_RESIDENCY 3 4).wr F.TASTE_CTRL_EN 1).wrB F.TASTE_SLOT_CONV 3 1).wrB F.TASTE_SLOT_FMT_FORMATS 3 0x3FFF) with time := { h.time with hclk := 40000000 } })).hub.tasteOrder ≠ [] ∧ (on (fun h => { (((((h.running3.wrB F.TASTE_SLOT_EN 3 1).wrB F.TASTE_SLOT_RESIDENCY 3 4).wr F.TASTE_CTRL_EN 1).wrB F.TASTE_SLOT_CONV 3 1).wrB F.TASTE_SLOT_FMT_FORMATS 3 0x3FFF) with time := { h.time with hclk := 40000000 } })).hub.freeBuf = some (0 : Nat) ∧ (on (fun h => { (((((h.running3.wrB F.TASTE_SLOT_EN 3 1).wrB F.TASTE_SLOT_RESIDENCY 3 4).wr F.TASTE_CTRL_EN 1).wrB F.TASTE_SLOT_CONV 3 1).wrB F.TASTE_SLOT_FMT_FORMATS 3 0x3FFF) with time := { h.time with hclk := 40000000 } })).hub.tasteChoice (on (fun h => { (((((h.running3.wrB F.TASTE_SLOT_EN 3 1).wrB F.TASTE_SLOT_RESIDENCY 3 4).wr F.TASTE_CTRL_EN 1).wrB F.TASTE_SLOT_CONV 3 1).wrB F.TASTE_SLOT_FMT_FORMATS 3 0x3FFF) with time := { h.time with hclk := 40000000 } })).hub.tasteOrder = some ((3 : Nat), (1 : Nat), (6 : Nat))) ∧
    ((on (fun h => { (((((h.running3.wrB F.TASTE_SLOT_EN 3 1).wrB F.TASTE_SLOT_RESIDENCY 3 4).wr F.TASTE_CTRL_EN 1).wrB F.TASTE_SLOT_CONV 3 1).wrB F.TASTE_SLOT_FMT_FORMATS 3 0x3FFF) with time := { h.time with hclk := 40000000 }, taste := { bufs := ⟨(List.range 8).map (fun b => (b, {}))⟩ } })).hub.calm = true ∧ (on (fun h => { (((((h.running3.wrB F.TASTE_SLOT_EN 3 1).wrB F.TASTE_SLOT_RESIDENCY 3 4).wr F.TASTE_CTRL_EN 1).wrB F.TASTE_SLOT_CONV 3 1).wrB F.TASTE_SLOT_FMT_FORMATS 3 0x3FFF) with time := { h.time with hclk := 40000000 }, taste := { bufs := ⟨(List.range 8).map (fun b => (b, {}))⟩ } })).hub.flag F.TASTE_CTRL_EN = true ∧ (on (fun h => { (((((h.running3.wrB F.TASTE_SLOT_EN 3 1).wrB F.TASTE_SLOT_RESIDENCY 3 4).wr F.TASTE_CTRL_EN 1).wrB F.TASTE_SLOT_CONV 3 1).wrB F.TASTE_SLOT_FMT_FORMATS 3 0x3FFF) with time := { h.time with hclk := 40000000 }, taste := { bufs := ⟨(List.range 8).map (fun b => (b, {}))⟩ } })).hub.rd F.TASTE_INTERVAL_HCLK = (State.reset.hub.rd F.TASTE_INTERVAL_HCLK : Nat) ∧ (on (fun h => { (((((h.running3.wrB F.TASTE_SLOT_EN 3 1).wrB F.TASTE_SLOT_RESIDENCY 3 4).wr F.TASTE_CTRL_EN 1).wrB F.TASTE_SLOT_CONV 3 1).wrB F.TASTE_SLOT_FMT_FORMATS 3 0x3FFF) with time := { h.time with hclk := 40000000 }, taste := { bufs := ⟨(List.range 8).map (fun b => (b, {}))⟩ } })).hub.elapsed (on (fun h => { (((((h.running3.wrB F.TASTE_SLOT_EN 3 1).wrB F.TASTE_SLOT_RESIDENCY 3 4).wr F.TASTE_CTRL_EN 1).wrB F.TASTE_SLOT_CONV 3 1).wrB F.TASTE_SLOT_FMT_FORMATS 3 0x3FFF) with time := { h.time with hclk := 40000000 }, taste := { bufs := ⟨(List.range 8).map (fun b => (b, {}))⟩ } })).hub.taste.lastTick (if (State.reset.hub.rd F.TASTE_INTERVAL_HCLK : Nat) < 25000 then 25000 else (State.reset.hub.rd F.TASTE_INTERVAL_HCLK : Nat)) = true ∧ (on (fun h => { (((((h.running3.wrB F.TASTE_SLOT_EN 3 1).wrB F.TASTE_SLOT_RESIDENCY 3 4).wr F.TASTE_CTRL_EN 1).wrB F.TASTE_SLOT_CONV 3 1).wrB F.TASTE_SLOT_FMT_FORMATS 3 0x3FFF) with time := { h.time with hclk := 40000000 }, taste := { bufs := ⟨(List.range 8).map (fun b => (b, {}))⟩ } })).hub.tasteOrder ≠ [] ∧ (on (fun h => { (((((h.running3.wrB F.TASTE_SLOT_EN 3 1).wrB F.TASTE_SLOT_RESIDENCY 3 4).wr F.TASTE_CTRL_EN 1).wrB F.TASTE_SLOT_CONV 3 1).wrB F.TASTE_SLOT_FMT_FORMATS 3 0x3FFF) with time := { h.time with hclk := 40000000 }, taste := { bufs := ⟨(List.range 8).map (fun b => (b, {}))⟩ } })).hub.freeBuf = none) ∧
    ((on (fun h => { (((((h.running3.wrB F.TASTE_SLOT_EN 3 1).wrB F.TASTE_SLOT_RESIDENCY 3 4).wr F.TASTE_CTRL_EN 1).wrB F.TASTE_SLOT_CONV 3 1).wrB F.TASTE_SLOT_FMT_FORMATS 3 0x3FFF) with tiles := h.running3.tiles.set 5 { st := .inContext, slot := 3, scn := 90000, taste := some { req := 1 } }, taste := { bufs := ⟨[(0, { tile := 5, slot := 3, req := 1 })]⟩ }, time := { h.time with hclk := 40000000 } })).hub.calm = true ∧ ((on (fun h => { (((((h.running3.wrB F.TASTE_SLOT_EN 3 1).wrB F.TASTE_SLOT_RESIDENCY 3 4).wr F.TASTE_CTRL_EN 1).wrB F.TASTE_SLOT_CONV 3 1).wrB F.TASTE_SLOT_FMT_FORMATS 3 0x3FFF) with tiles := h.running3.tiles.set 5 { st := .inContext, slot := 3, scn := 90000, taste := some { req := 1 } }, taste := { bufs := ⟨[(0, { tile := 5, slot := 3, req := 1 })]⟩ }, time := { h.time with hclk := 40000000 } })).hub.tile (5 : TileId)).taste = some ({ req := 1 } : SpurTaste) ∧ ({ req := 1 } : SpurTaste).armAt = 0) ∧
    ((on (fun h => { (((((h.running3.wrB F.TASTE_SLOT_EN 3 1).wrB F.TASTE_SLOT_RESIDENCY 3 4).wr F.TASTE_CTRL_EN 1).wrB F.TASTE_SLOT_CONV 3 1).wrB F.TASTE_SLOT_FMT_FORMATS 3 0x3FFF) with tiles := h.running3.tiles.set 5 { st := .inContext, slot := 3, scn := 90000, taste := some { req := 1, armAt := 5 } }, taste := { bufs := ⟨[(0, { tile := 5, slot := 3, req := 1 })]⟩ }, time := { h.time with hclk := 40000000 } })).hub.calm = true ∧ ((on (fun h => { (((((h.running3.wrB F.TASTE_SLOT_EN 3 1).wrB F.TASTE_SLOT_RESIDENCY 3 4).wr F.TASTE_CTRL_EN 1).wrB F.TASTE_SLOT_CONV 3 1).wrB F.TASTE_SLOT_FMT_FORMATS 3 0x3FFF) with tiles := h.running3.tiles.set 5 { st := .inContext, slot := 3, scn := 90000, taste := some { req := 1, armAt := 5 } }, taste := { bufs := ⟨[(0, { tile := 5, slot := 3, req := 1 })]⟩ }, time := { h.time with hclk := 40000000 } })).hub.tile (5 : TileId)).taste = some ({ req := 1, armAt := 5 } : SpurTaste) ∧ (on (fun h => { (((((h.running3.wrB F.TASTE_SLOT_EN 3 1).wrB F.TASTE_SLOT_RESIDENCY 3 4).wr F.TASTE_CTRL_EN 1).wrB F.TASTE_SLOT_CONV 3 1).wrB F.TASTE_SLOT_FMT_FORMATS 3 0x3FFF) with tiles := h.running3.tiles.set 5 { st := .inContext, slot := 3, scn := 90000, taste := some { req := 1, armAt := 5 } }, taste := { bufs := ⟨[(0, { tile := 5, slot := 3, req := 1 })]⟩ }, time := { h.time with hclk := 40000000 } })).hub.tasteArmed ({ req := 1, armAt := 5 } : SpurTaste) = true ∧ ((on (fun h => { (((((h.running3.wrB F.TASTE_SLOT_EN 3 1).wrB F.TASTE_SLOT_RESIDENCY 3 4).wr F.TASTE_CTRL_EN 1).wrB F.TASTE_SLOT_CONV 3 1).wrB F.TASTE_SLOT_FMT_FORMATS 3 0x3FFF) with tiles := h.running3.tiles.set 5 { st := .inContext, slot := 3, scn := 90000, taste := some { req := 1, armAt := 5 } }, taste := { bufs := ⟨[(0, { tile := 5, slot := 3, req := 1 })]⟩ }, time := { h.time with hclk := 40000000 } })).hub.tile (5 : TileId)).gated = false ∧ (on (fun h => { (((((h.running3.wrB F.TASTE_SLOT_EN 3 1).wrB F.TASTE_SLOT_RESIDENCY 3 4).wr F.TASTE_CTRL_EN 1).wrB F.TASTE_SLOT_CONV 3 1).wrB F.TASTE_SLOT_FMT_FORMATS 3 0x3FFF) with tiles := h.running3.tiles.set 5 { st := .inContext, slot := 3, scn := 90000, taste := some { req := 1, armAt := 5 } }, taste := { bufs := ⟨[(0, { tile := 5, slot := 3, req := 1 })]⟩ }, time := { h.time with hclk := 40000000 } })).hub.tasteEligible (((on (fun h => { (((((h.running3.wrB F.TASTE_SLOT_EN 3 1).wrB F.TASTE_SLOT_RESIDENCY 3 4).wr F.TASTE_CTRL_EN 1).wrB F.TASTE_SLOT_CONV 3 1).wrB F.TASTE_SLOT_FMT_FORMATS 3 0x3FFF) with tiles := h.running3.tiles.set 5 { st := .inContext, slot := 3, scn := 90000, taste := some { req := 1, armAt := 5 } }, taste := { bufs := ⟨[(0, { tile := 5, slot := 3, req := 1 })]⟩ }, time := { h.time with hclk := 40000000 } })).hub.bufOf (5 : TileId)).map (on (fun h => { (((((h.running3.wrB F.TASTE_SLOT_EN 3 1).wrB F.TASTE_SLOT_RESIDENCY 3 4).wr F.TASTE_CTRL_EN 1).wrB F.TASTE_SLOT_CONV 3 1).wrB F.TASTE_SLOT_FMT_FORMATS 3 0x3FFF) with tiles := h.running3.tiles.set 5 { st := .inContext, slot := 3, scn := 90000, taste := some { req := 1, armAt := 5 } }, taste := { bufs := ⟨[(0, { tile := 5, slot := 3, req := 1 })]⟩ }, time := { h.time with hclk := 40000000 } })).hub.sampBuf) ((on (fun h => { (((((h.running3.wrB F.TASTE_SLOT_EN 3 1).wrB F.TASTE_SLOT_RESIDENCY 3 4).wr F.TASTE_CTRL_EN 1).wrB F.TASTE_SLOT_CONV 3 1).wrB F.TASTE_SLOT_FMT_FORMATS 3 0x3FFF) with tiles := h.running3.tiles.set 5 { st := .inContext, slot := 3, scn := 90000, taste := some { req := 1, armAt := 5 } }, taste := { bufs := ⟨[(0, { tile := 5, slot := 3, req := 1 })]⟩ }, time := { h.time with hclk := 40000000 } })).hub.tile (5 : TileId)).slot ({ kind := 2, fmtA := 13, fmtB := 13, kn := 4 } : OpDesc) = true ∧ (on (fun h => { (((((h.running3.wrB F.TASTE_SLOT_EN 3 1).wrB F.TASTE_SLOT_RESIDENCY 3 4).wr F.TASTE_CTRL_EN 1).wrB F.TASTE_SLOT_CONV 3 1).wrB F.TASTE_SLOT_FMT_FORMATS 3 0x3FFF) with tiles := h.running3.tiles.set 5 { st := .inContext, slot := 3, scn := 90000, taste := some { req := 1, armAt := 5 } }, taste := { bufs := ⟨[(0, { tile := 5, slot := 3, req := 1 })]⟩ }, time := { h.time with hclk := 40000000 } })).hub.caneDown ((on (fun h => { (((((h.running3.wrB F.TASTE_SLOT_EN 3 1).wrB F.TASTE_SLOT_RESIDENCY 3 4).wr F.TASTE_CTRL_EN 1).wrB F.TASTE_SLOT_CONV 3 1).wrB F.TASTE_SLOT_FMT_FORMATS 3 0x3FFF) with tiles := h.running3.tiles.set 5 { st := .inContext, slot := 3, scn := 90000, taste := some { req := 1, armAt := 5 } }, taste := { bufs := ⟨[(0, { tile := 5, slot := 3, req := 1 })]⟩ }, time := { h.time with hclk := 40000000 } })).hub.caneFor (colOf (5 : TileId))) = false ∧ (false : Bool) = (({ kind := 2, fmtA := 13, fmtB := 13, kn := 4 } : OpDesc).kind == 1 && sampleMax < 80 + Sh.len ((on (fun h => { (((((h.running3.wrB F.TASTE_SLOT_EN 3 1).wrB F.TASTE_SLOT_RESIDENCY 3 4).wr F.TASTE_CTRL_EN 1).wrB F.TASTE_SLOT_CONV 3 1).wrB F.TASTE_SLOT_FMT_FORMATS 3 0x3FFF) with tiles := h.running3.tiles.set 5 { st := .inContext, slot := 3, scn := 90000, taste := some { req := 1, armAt := 5 } }, taste := { bufs := ⟨[(0, { tile := 5, slot := 3, req := 1 })]⟩ }, time := { h.time with hclk := 40000000 } })).hub.sampleHeader (5 : TileId) ({ req := 1, armAt := 5 } : SpurTaste) ({ kind := 2, fmtA := 13, fmtB := 13, kn := 4 } : OpDesc) ((on (fun h => { (((((h.running3.wrB F.TASTE_SLOT_EN 3 1).wrB F.TASTE_SLOT_RESIDENCY 3 4).wr F.TASTE_CTRL_EN 1).wrB F.TASTE_SLOT_CONV 3 1).wrB F.TASTE_SLOT_FMT_FORMATS 3 0x3FFF) with tiles := h.running3.tiles.set 5 { st := .inContext, slot := 3, scn := 90000, taste := some { req := 1, armAt := 5 } }, taste := { bufs := ⟨[(0, { tile := 5, slot := 3, req := 1 })]⟩ }, time := { h.time with hclk := 40000000 } })).hub.tile (5 : TileId)).scn false false))) ∧
    ((on (fun h => { ({ ((((h.running3.wrB F.TASTE_SLOT_EN 3 1).wrB F.TASTE_SLOT_RESIDENCY 3 4).wr F.TASTE_CTRL_EN 1).wrB F.TASTE_SLOT_CONV 3 1).wrB F.TASTE_SLOT_FMT_FORMATS 3 0x3FFF with canes := ⟨[(5, { down := true })]⟩ }) with tiles := h.running3.tiles.set 5 { st := .inContext, slot := 3, scn := 90000, taste := some { req := 1, armAt := 5 } }, taste := { bufs := ⟨[(0, { tile := 5, slot := 3, req := 1 })]⟩ }, time := { h.time with hclk := 40000000 } })).hub.calm = true ∧ ((on (fun h => { ({ ((((h.running3.wrB F.TASTE_SLOT_EN 3 1).wrB F.TASTE_SLOT_RESIDENCY 3 4).wr F.TASTE_CTRL_EN 1).wrB F.TASTE_SLOT_CONV 3 1).wrB F.TASTE_SLOT_FMT_FORMATS 3 0x3FFF with canes := ⟨[(5, { down := true })]⟩ }) with tiles := h.running3.tiles.set 5 { st := .inContext, slot := 3, scn := 90000, taste := some { req := 1, armAt := 5 } }, taste := { bufs := ⟨[(0, { tile := 5, slot := 3, req := 1 })]⟩ }, time := { h.time with hclk := 40000000 } })).hub.tile (5 : TileId)).taste = some ({ req := 1, armAt := 5 } : SpurTaste) ∧ (on (fun h => { ({ ((((h.running3.wrB F.TASTE_SLOT_EN 3 1).wrB F.TASTE_SLOT_RESIDENCY 3 4).wr F.TASTE_CTRL_EN 1).wrB F.TASTE_SLOT_CONV 3 1).wrB F.TASTE_SLOT_FMT_FORMATS 3 0x3FFF with canes := ⟨[(5, { down := true })]⟩ }) with tiles := h.running3.tiles.set 5 { st := .inContext, slot := 3, scn := 90000, taste := some { req := 1, armAt := 5 } }, taste := { bufs := ⟨[(0, { tile := 5, slot := 3, req := 1 })]⟩ }, time := { h.time with hclk := 40000000 } })).hub.tasteArmed ({ req := 1, armAt := 5 } : SpurTaste) = true ∧ ((on (fun h => { ({ ((((h.running3.wrB F.TASTE_SLOT_EN 3 1).wrB F.TASTE_SLOT_RESIDENCY 3 4).wr F.TASTE_CTRL_EN 1).wrB F.TASTE_SLOT_CONV 3 1).wrB F.TASTE_SLOT_FMT_FORMATS 3 0x3FFF with canes := ⟨[(5, { down := true })]⟩ }) with tiles := h.running3.tiles.set 5 { st := .inContext, slot := 3, scn := 90000, taste := some { req := 1, armAt := 5 } }, taste := { bufs := ⟨[(0, { tile := 5, slot := 3, req := 1 })]⟩ }, time := { h.time with hclk := 40000000 } })).hub.tile (5 : TileId)).gated = false ∧ (on (fun h => { ({ ((((h.running3.wrB F.TASTE_SLOT_EN 3 1).wrB F.TASTE_SLOT_RESIDENCY 3 4).wr F.TASTE_CTRL_EN 1).wrB F.TASTE_SLOT_CONV 3 1).wrB F.TASTE_SLOT_FMT_FORMATS 3 0x3FFF with canes := ⟨[(5, { down := true })]⟩ }) with tiles := h.running3.tiles.set 5 { st := .inContext, slot := 3, scn := 90000, taste := some { req := 1, armAt := 5 } }, taste := { bufs := ⟨[(0, { tile := 5, slot := 3, req := 1 })]⟩ }, time := { h.time with hclk := 40000000 } })).hub.tasteEligible (((on (fun h => { ({ ((((h.running3.wrB F.TASTE_SLOT_EN 3 1).wrB F.TASTE_SLOT_RESIDENCY 3 4).wr F.TASTE_CTRL_EN 1).wrB F.TASTE_SLOT_CONV 3 1).wrB F.TASTE_SLOT_FMT_FORMATS 3 0x3FFF with canes := ⟨[(5, { down := true })]⟩ }) with tiles := h.running3.tiles.set 5 { st := .inContext, slot := 3, scn := 90000, taste := some { req := 1, armAt := 5 } }, taste := { bufs := ⟨[(0, { tile := 5, slot := 3, req := 1 })]⟩ }, time := { h.time with hclk := 40000000 } })).hub.bufOf (5 : TileId)).map (on (fun h => { ({ ((((h.running3.wrB F.TASTE_SLOT_EN 3 1).wrB F.TASTE_SLOT_RESIDENCY 3 4).wr F.TASTE_CTRL_EN 1).wrB F.TASTE_SLOT_CONV 3 1).wrB F.TASTE_SLOT_FMT_FORMATS 3 0x3FFF with canes := ⟨[(5, { down := true })]⟩ }) with tiles := h.running3.tiles.set 5 { st := .inContext, slot := 3, scn := 90000, taste := some { req := 1, armAt := 5 } }, taste := { bufs := ⟨[(0, { tile := 5, slot := 3, req := 1 })]⟩ }, time := { h.time with hclk := 40000000 } })).hub.sampBuf) ((on (fun h => { ({ ((((h.running3.wrB F.TASTE_SLOT_EN 3 1).wrB F.TASTE_SLOT_RESIDENCY 3 4).wr F.TASTE_CTRL_EN 1).wrB F.TASTE_SLOT_CONV 3 1).wrB F.TASTE_SLOT_FMT_FORMATS 3 0x3FFF with canes := ⟨[(5, { down := true })]⟩ }) with tiles := h.running3.tiles.set 5 { st := .inContext, slot := 3, scn := 90000, taste := some { req := 1, armAt := 5 } }, taste := { bufs := ⟨[(0, { tile := 5, slot := 3, req := 1 })]⟩ }, time := { h.time with hclk := 40000000 } })).hub.tile (5 : TileId)).slot ({ kind := 2, fmtA := 13, fmtB := 13, kn := 4 } : OpDesc) = true ∧ (on (fun h => { ({ ((((h.running3.wrB F.TASTE_SLOT_EN 3 1).wrB F.TASTE_SLOT_RESIDENCY 3 4).wr F.TASTE_CTRL_EN 1).wrB F.TASTE_SLOT_CONV 3 1).wrB F.TASTE_SLOT_FMT_FORMATS 3 0x3FFF with canes := ⟨[(5, { down := true })]⟩ }) with tiles := h.running3.tiles.set 5 { st := .inContext, slot := 3, scn := 90000, taste := some { req := 1, armAt := 5 } }, taste := { bufs := ⟨[(0, { tile := 5, slot := 3, req := 1 })]⟩ }, time := { h.time with hclk := 40000000 } })).hub.caneDown ((on (fun h => { ({ ((((h.running3.wrB F.TASTE_SLOT_EN 3 1).wrB F.TASTE_SLOT_RESIDENCY 3 4).wr F.TASTE_CTRL_EN 1).wrB F.TASTE_SLOT_CONV 3 1).wrB F.TASTE_SLOT_FMT_FORMATS 3 0x3FFF with canes := ⟨[(5, { down := true })]⟩ }) with tiles := h.running3.tiles.set 5 { st := .inContext, slot := 3, scn := 90000, taste := some { req := 1, armAt := 5 } }, taste := { bufs := ⟨[(0, { tile := 5, slot := 3, req := 1 })]⟩ }, time := { h.time with hclk := 40000000 } })).hub.caneFor (colOf (5 : TileId))) = true ∧ (on (fun h => { ({ ((((h.running3.wrB F.TASTE_SLOT_EN 3 1).wrB F.TASTE_SLOT_RESIDENCY 3 4).wr F.TASTE_CTRL_EN 1).wrB F.TASTE_SLOT_CONV 3 1).wrB F.TASTE_SLOT_FMT_FORMATS 3 0x3FFF with canes := ⟨[(5, { down := true })]⟩ }) with tiles := h.running3.tiles.set 5 { st := .inContext, slot := 3, scn := 90000, taste := some { req := 1, armAt := 5 } }, taste := { bufs := ⟨[(0, { tile := 5, slot := 3, req := 1 })]⟩ }, time := { h.time with hclk := 40000000 } })).hub.bufOf (5 : TileId) = some (0 : Nat) ∧ (on (fun h => { ({ ((((h.running3.wrB F.TASTE_SLOT_EN 3 1).wrB F.TASTE_SLOT_RESIDENCY 3 4).wr F.TASTE_CTRL_EN 1).wrB F.TASTE_SLOT_CONV 3 1).wrB F.TASTE_SLOT_FMT_FORMATS 3 0x3FFF with canes := ⟨[(5, { down := true })]⟩ }) with tiles := h.running3.tiles.set 5 { st := .inContext, slot := 3, scn := 90000, taste := some { req := 1, armAt := 5 } }, taste := { bufs := ⟨[(0, { tile := 5, slot := 3, req := 1 })]⟩ }, time := { h.time with hclk := 40000000 } })).hub.sampBuf (0 : Nat) = ({ tile := 5, slot := 3, req := 1 } : SampBuf) ∧ ({ tile := 5, slot := 3, req := 1 } : SampBuf).tile = (5 : TileId) ∧ ({ tile := 5, slot := 3, req := 1 } : SampBuf).req = ({ req := 1, armAt := 5 } : SpurTaste).req) ∧
    ((on (fun h => { (((((h.running3.wrB F.TASTE_SLOT_EN 3 1).wrB F.TASTE_SLOT_RESIDENCY 3 4).wr F.TASTE_CTRL_EN 1).wrB F.TASTE_SLOT_CONV 3 1).wrB F.TASTE_SLOT_FMT_FORMATS 3 0x3FFF) with tiles := h.running3.tiles.set 5 { st := .inContext, slot := 3, scn := 90000, taste := some { req := 1, armAt := 5 } }, taste := { bufs := ⟨[(0, { tile := 5, slot := 3, req := 1 })]⟩ }, time := { h.time with hclk := 40000000 } })).hub.calm = true ∧ ((on (fun h => { (((((h.running3.wrB F.TASTE_SLOT_EN 3 1).wrB F.TASTE_SLOT_RESIDENCY 3 4).wr F.TASTE_CTRL_EN 1).wrB F.TASTE_SLOT_CONV 3 1).wrB F.TASTE_SLOT_FMT_FORMATS 3 0x3FFF) with tiles := h.running3.tiles.set 5 { st := .inContext, slot := 3, scn := 90000, taste := some { req := 1, armAt := 5 } }, taste := { bufs := ⟨[(0, { tile := 5, slot := 3, req := 1 })]⟩ }, time := { h.time with hclk := 40000000 } })).hub.tile (5 : TileId)).taste = some ({ req := 1, armAt := 5 } : SpurTaste) ∧ (on (fun h => { (((((h.running3.wrB F.TASTE_SLOT_EN 3 1).wrB F.TASTE_SLOT_RESIDENCY 3 4).wr F.TASTE_CTRL_EN 1).wrB F.TASTE_SLOT_CONV 3 1).wrB F.TASTE_SLOT_FMT_FORMATS 3 0x3FFF) with tiles := h.running3.tiles.set 5 { st := .inContext, slot := 3, scn := 90000, taste := some { req := 1, armAt := 5 } }, taste := { bufs := ⟨[(0, { tile := 5, slot := 3, req := 1 })]⟩ }, time := { h.time with hclk := 40000000 } })).hub.bufOf (5 : TileId) = some (0 : Nat) ∧ (on (fun h => { (((((h.running3.wrB F.TASTE_SLOT_EN 3 1).wrB F.TASTE_SLOT_RESIDENCY 3 4).wr F.TASTE_CTRL_EN 1).wrB F.TASTE_SLOT_CONV 3 1).wrB F.TASTE_SLOT_FMT_FORMATS 3 0x3FFF) with tiles := h.running3.tiles.set 5 { st := .inContext, slot := 3, scn := 90000, taste := some { req := 1, armAt := 5 } }, taste := { bufs := ⟨[(0, { tile := 5, slot := 3, req := 1 })]⟩ }, time := { h.time with hclk := 40000000 } })).hub.sampBuf (0 : Nat) = ({ tile := 5, slot := 3, req := 1 } : SampBuf) ∧ ({ tile := 5, slot := 3, req := 1 } : SampBuf).tile = (5 : TileId) ∧ ({ tile := 5, slot := 3, req := 1 } : SampBuf).req = ({ req := 1, armAt := 5 } : SpurTaste).req ∧ (on (fun h => { (((((h.running3.wrB F.TASTE_SLOT_EN 3 1).wrB F.TASTE_SLOT_RESIDENCY 3 4).wr F.TASTE_CTRL_EN 1).wrB F.TASTE_SLOT_CONV 3 1).wrB F.TASTE_SLOT_FMT_FORMATS 3 0x3FFF) with tiles := h.running3.tiles.set 5 { st := .inContext, slot := 3, scn := 90000, taste := some { req := 1, armAt := 5 } }, taste := { bufs := ⟨[(0, { tile := 5, slot := 3, req := 1 })]⟩ }, time := { h.time with hclk := 40000000 } })).hub.tasteArmed ({ req := 1, armAt := 5 } : SpurTaste) = true ∧ ({ req := 1, armAt := 5 } : SpurTaste).armScn + (on (fun h => { (((((h.running3.wrB F.TASTE_SLOT_EN 3 1).wrB F.TASTE_SLOT_RESIDENCY 3 4).wr F.TASTE_CTRL_EN 1).wrB F.TASTE_SLOT_CONV 3 1).wrB F.TASTE_SLOT_FMT_FORMATS 3 0x3FFF) with tiles := h.running3.tiles.set 5 { st := .inContext, slot := 3, scn := 90000, taste := some { req := 1, armAt := 5 } }, taste := { bufs := ⟨[(0, { tile := 5, slot := 3, req := 1 })]⟩ }, time := { h.time with hclk := 40000000 } })).hub.tasteWait ≤ ((on (fun h => { (((((h.running3.wrB F.TASTE_SLOT_EN 3 1).wrB F.TASTE_SLOT_RESIDENCY 3 4).wr F.TASTE_CTRL_EN 1).wrB F.TASTE_SLOT_CONV 3 1).wrB F.TASTE_SLOT_FMT_FORMATS 3 0x3FFF) with tiles := h.running3.tiles.set 5 { st := .inContext, slot := 3, scn := 90000, taste := some { req := 1, armAt := 5 } }, taste := { bufs := ⟨[(0, { tile := 5, slot := 3, req := 1 })]⟩ }, time := { h.time with hclk := 40000000 } })).hub.tile (5 : TileId)).scn) ∧
    ((on (fun h => { (((((h.running3.wrB F.TASTE_SLOT_EN 3 1).wrB F.TASTE_SLOT_RESIDENCY 3 4).wr F.TASTE_CTRL_EN 1).wrB F.TASTE_SLOT_CONV 3 1).wrB F.TASTE_SLOT_FMT_FORMATS 3 0x3FFF) with tiles := h.running3.tiles.set 5 { st := .inContext, slot := 3, scn := 90000, taste := some { req := 1, armAt := 5, started := true } }, taste := { bufs := ⟨[(0, { tile := 5, slot := 3, req := 1 })]⟩ }, time := { h.time with hclk := 40000000 } })).hub.calm = true ∧ ((on (fun h => { (((((h.running3.wrB F.TASTE_SLOT_EN 3 1).wrB F.TASTE_SLOT_RESIDENCY 3 4).wr F.TASTE_CTRL_EN 1).wrB F.TASTE_SLOT_CONV 3 1).wrB F.TASTE_SLOT_FMT_FORMATS 3 0x3FFF) with tiles := h.running3.tiles.set 5 { st := .inContext, slot := 3, scn := 90000, taste := some { req := 1, armAt := 5, started := true } }, taste := { bufs := ⟨[(0, { tile := 5, slot := 3, req := 1 })]⟩ }, time := { h.time with hclk := 40000000 } })).hub.tile (5 : TileId)).taste = some ({ req := 1, armAt := 5, started := true } : SpurTaste) ∧ (on (fun h => { (((((h.running3.wrB F.TASTE_SLOT_EN 3 1).wrB F.TASTE_SLOT_RESIDENCY 3 4).wr F.TASTE_CTRL_EN 1).wrB F.TASTE_SLOT_CONV 3 1).wrB F.TASTE_SLOT_FMT_FORMATS 3 0x3FFF) with tiles := h.running3.tiles.set 5 { st := .inContext, slot := 3, scn := 90000, taste := some { req := 1, armAt := 5, started := true } }, taste := { bufs := ⟨[(0, { tile := 5, slot := 3, req := 1 })]⟩ }, time := { h.time with hclk := 40000000 } })).hub.bufOf (5 : TileId) = some (0 : Nat) ∧ (on (fun h => { (((((h.running3.wrB F.TASTE_SLOT_EN 3 1).wrB F.TASTE_SLOT_RESIDENCY 3 4).wr F.TASTE_CTRL_EN 1).wrB F.TASTE_SLOT_CONV 3 1).wrB F.TASTE_SLOT_FMT_FORMATS 3 0x3FFF) with tiles := h.running3.tiles.set 5 { st := .inContext, slot := 3, scn := 90000, taste := some { req := 1, armAt := 5, started := true } }, taste := { bufs := ⟨[(0, { tile := 5, slot := 3, req := 1 })]⟩ }, time := { h.time with hclk := 40000000 } })).hub.sampBuf (0 : Nat) = ({ tile := 5, slot := 3, req := 1 } : SampBuf) ∧ ({ tile := 5, slot := 3, req := 1 } : SampBuf).tile = (5 : TileId) ∧ ({ tile := 5, slot := 3, req := 1 } : SampBuf).req = ({ req := 1, armAt := 5, started := true } : SpurTaste).req ∧ ({ req := 1, armAt := 5, started := true } : SpurTaste).started = true ∧ ({ tile := 5, slot := 3, req := 1 } : SampBuf).conf = none ∧ ({ req := 1, armAt := 5, started := true } : SpurTaste).ns + 1024 * (on (fun h => { (((((h.running3.wrB F.TASTE_SLOT_EN 3 1).wrB F.TASTE_SLOT_RESIDENCY 3 4).wr F.TASTE_CTRL_EN 1).wrB F.TASTE_SLOT_CONV 3 1).wrB F.TASTE_SLOT_FMT_FORMATS 3 0x3FFF) with tiles := h.running3.tiles.set 5 { st := .inContext, slot := 3, scn := 90000, taste := some { req := 1, armAt := 5, started := true } }, taste := { bufs := ⟨[(0, { tile := 5, slot := 3, req := 1 })]⟩ }, time := { h.time with hclk := 40000000 } })).hub.rdB F.TASTE_SLOT_RESIDENCY ((on (fun h => { (((((h.running3.wrB F.TASTE_SLOT_EN 3 1).wrB F.TASTE_SLOT_RESIDENCY 3 4).wr F.TASTE_CTRL_EN 1).wrB F.TASTE_SLOT_CONV 3 1).wrB F.TASTE_SLOT_FMT_FORMATS 3 0x3FFF) with tiles := h.running3.tiles.set 5 { st := .inContext, slot := 3, scn := 90000, taste := some { req := 1, armAt := 5, started := true } }, taste := { bufs := ⟨[(0, { tile := 5, slot := 3, req := 1 })]⟩ }, time := { h.time with hclk := 40000000 } })).hub.tile (5 : TileId)).slot ≤ ((on (fun h => { (((((h.running3.wrB F.TASTE_SLOT_EN 3 1).wrB F.TASTE_SLOT_RESIDENCY 3 4).wr F.TASTE_CTRL_EN 1).wrB F.TASTE_SLOT_CONV 3 1).wrB F.TASTE_SLOT_FMT_FORMATS 3 0x3FFF) with tiles := h.running3.tiles.set 5 { st := .inContext, slot := 3, scn := 90000, taste := some { req := 1, armAt := 5, started := true } }, taste := { bufs := ⟨[(0, { tile := 5, slot := 3, req := 1 })]⟩ }, time := { h.time with hclk := 40000000 } })).hub.tile (5 : TileId)).scn ∧ (on (fun h => { (((((h.running3.wrB F.TASTE_SLOT_EN 3 1).wrB F.TASTE_SLOT_RESIDENCY 3 4).wr F.TASTE_CTRL_EN 1).wrB F.TASTE_SLOT_CONV 3 1).wrB F.TASTE_SLOT_FMT_FORMATS 3 0x3FFF) with tiles := h.running3.tiles.set 5 { st := .inContext, slot := 3, scn := 90000, taste := some { req := 1, armAt := 5, started := true } }, taste := { bufs := ⟨[(0, { tile := 5, slot := 3, req := 1 })]⟩ }, time := { h.time with hclk := 40000000 } })).hub.taste.lossAt = none) ∧
    ((on (fun h => { (((((h.running3.wrB F.TASTE_SLOT_EN 3 1).wrB F.TASTE_SLOT_RESIDENCY 3 4).wr F.TASTE_CTRL_EN 1).wrB F.TASTE_SLOT_CONV 3 1).wrB F.TASTE_SLOT_FMT_FORMATS 3 0x3FFF) with tiles := h.running3.tiles.set 5 { st := .inContext, slot := 3, scn := 90000, taste := some { req := 1, armAt := 5, started := true, written := true, ns := 70, header := ((on (fun h => h.running3)).hub.sampleHeader 5 { req := 1 } { kind := 2, fmtA := 13, fmtB := 13, kn := 4 } 70 false false), desc := { kind := 2, fmtA := 13, fmtB := 13, kn := 4 } } }, taste := { bufs := ⟨[(0, { tile := 5, slot := 3, req := 1 })]⟩ }, time := { h.time with hclk := 40000000 } })).hub.calm = true ∧ (on (fun h => { (((((h.running3.wrB F.TASTE_SLOT_EN 3 1).wrB F.TASTE_SLOT_RESIDENCY 3 4).wr F.TASTE_CTRL_EN 1).wrB F.TASTE_SLOT_CONV 3 1).wrB F.TASTE_SLOT_FMT_FORMATS 3 0x3FFF) with tiles := h.running3.tiles.set 5 { st := .inContext, slot := 3, scn := 90000, taste := some { req := 1, armAt := 5, started := true, written := true, ns := 70, header := ((on (fun h => h.running3)).hub.sampleHeader 5 { req := 1 } { kind := 2, fmtA := 13, fmtB := 13, kn := 4 } 70 false false), desc := { kind := 2, fmtA := 13, fmtB := 13, kn := 4 } } }, taste := { bufs := ⟨[(0, { tile := 5, slot := 3, req := 1 })]⟩ }, time := { h.time with hclk := 40000000 } })).hub.sampleDue (0 : Fin 8) = true ∧ (on (fun h => { (((((h.running3.wrB F.TASTE_SLOT_EN 3 1).wrB F.TASTE_SLOT_RESIDENCY 3 4).wr F.TASTE_CTRL_EN 1).wrB F.TASTE_SLOT_CONV 3 1).wrB F.TASTE_SLOT_FMT_FORMATS 3 0x3FFF) with tiles := h.running3.tiles.set 5 { st := .inContext, slot := 3, scn := 90000, taste := some { req := 1, armAt := 5, started := true, written := true, ns := 70, header := ((on (fun h => h.running3)).hub.sampleHeader 5 { req := 1 } { kind := 2, fmtA := 13, fmtB := 13, kn := 4 } 70 false false), desc := { kind := 2, fmtA := 13, fmtB := 13, kn := 4 } } }, taste := { bufs := ⟨[(0, { tile := 5, slot := 3, req := 1 })]⟩ }, time := { h.time with hclk := 40000000 } })).hub.sampBuf (0 : Fin 8) = ({ tile := 5, slot := 3, req := 1 } : SampBuf) ∧ ((on (fun h => { (((((h.running3.wrB F.TASTE_SLOT_EN 3 1).wrB F.TASTE_SLOT_RESIDENCY 3 4).wr F.TASTE_CTRL_EN 1).wrB F.TASTE_SLOT_CONV 3 1).wrB F.TASTE_SLOT_FMT_FORMATS 3 0x3FFF) with tiles := h.running3.tiles.set 5 { st := .inContext, slot := 3, scn := 90000, taste := some { req := 1, armAt := 5, started := true, written := true, ns := 70, header := ((on (fun h => h.running3)).hub.sampleHeader 5 { req := 1 } { kind := 2, fmtA := 13, fmtB := 13, kn := 4 } 70 false false), desc := { kind := 2, fmtA := 13, fmtB := 13, kn := 4 } } }, taste := { bufs := ⟨[(0, { tile := 5, slot := 3, req := 1 })]⟩ }, time := { h.time with hclk := 40000000 } })).hub.tile ({ tile := 5, slot := 3, req := 1 } : SampBuf).tile).taste = some ({ req := 1, armAt := 5, started := true, written := true, ns := 70, header := ((on (fun h => h.running3)).hub.sampleHeader 5 { req := 1 } { kind := 2, fmtA := 13, fmtB := 13, kn := 4 } 70 false false), desc := { kind := 2, fmtA := 13, fmtB := 13, kn := 4 } } : SpurTaste) ∧ (({ req := 1, armAt := 5, started := true, written := true, ns := 70, header := ((on (fun h => h.running3)).hub.sampleHeader 5 { req := 1 } { kind := 2, fmtA := 13, fmtB := 13, kn := 4 } 70 false false), desc := { kind := 2, fmtA := 13, fmtB := 13, kn := 4 } } : SpurTaste).header ++ (on (fun h => { (((((h.running3.wrB F.TASTE_SLOT_EN 3 1).wrB F.TASTE_SLOT_RESIDENCY 3 4).wr F.TASTE_CTRL_EN 1).wrB F.TASTE_SLOT_CONV 3 1).wrB F.TASTE_SLOT_FMT_FORMATS 3 0x3FFF) with tiles := h.running3.tiles.set 5 { st := .inContext, slot := 3, scn := 90000, taste := some { req := 1, armAt := 5, started := true, written := true, ns := 70, header := ((on (fun h => h.running3)).hub.sampleHeader 5 { req := 1 } { kind := 2, fmtA := 13, fmtB := 13, kn := 4 } 70 false false), desc := { kind := 2, fmtA := 13, fmtB := 13, kn := 4 } } }, taste := { bufs := ⟨[(0, { tile := 5, slot := 3, req := 1 })]⟩ }, time := { h.time with hclk := 40000000 } })).hub.samplePayload ({ tile := 5, slot := 3, req := 1 } : SampBuf).tile ({ req := 1, armAt := 5, started := true, written := true, ns := 70, header := ((on (fun h => h.running3)).hub.sampleHeader 5 { req := 1 } { kind := 2, fmtA := 13, fmtB := 13, kn := 4 } 70 false false), desc := { kind := 2, fmtA := 13, fmtB := 13, kn := 4 } } : SpurTaste).header ({ req := 1, armAt := 5, started := true, written := true, ns := 70, header := ((on (fun h => h.running3)).hub.sampleHeader 5 { req := 1 } { kind := 2, fmtA := 13, fmtB := 13, kn := 4 } 70 false false), desc := { kind := 2, fmtA := 13, fmtB := 13, kn := 4 } } : SpurTaste).desc ++ sampleTrailer (({ req := 1, armAt := 5, started := true, written := true, ns := 70, header := ((on (fun h => h.running3)).hub.sampleHeader 5 { req := 1 } { kind := 2, fmtA := 13, fmtB := 13, kn := 4 } 70 false false), desc := { kind := 2, fmtA := 13, fmtB := 13, kn := 4 } } : SpurTaste).header ++ (on (fun h => { (((((h.running3.wrB F.TASTE_SLOT_EN 3 1).wrB F.TASTE_SLOT_RESIDENCY 3 4).wr F.TASTE_CTRL_EN 1).wrB F.TASTE_SLOT_CONV 3 1).wrB F.TASTE_SLOT_FMT_FORMATS 3 0x3FFF) with tiles := h.running3.tiles.set 5 { st := .inContext, slot := 3, scn := 90000, taste := some { req := 1, armAt := 5, started := true, written := true, ns := 70, header := ((on (fun h => h.running3)).hub.sampleHeader 5 { req := 1 } { kind := 2, fmtA := 13, fmtB := 13, kn := 4 } 70 false false), desc := { kind := 2, fmtA := 13, fmtB := 13, kn := 4 } } }, taste := { bufs := ⟨[(0, { tile := 5, slot := 3, req := 1 })]⟩ }, time := { h.time with hclk := 40000000 } })).hub.samplePayload ({ tile := 5, slot := 3, req := 1 } : SampBuf).tile ({ req := 1, armAt := 5, started := true, written := true, ns := 70, header := ((on (fun h => h.running3)).hub.sampleHeader 5 { req := 1 } { kind := 2, fmtA := 13, fmtB := 13, kn := 4 } 70 false false), desc := { kind := 2, fmtA := 13, fmtB := 13, kn := 4 } } : SpurTaste).header ({ req := 1, armAt := 5, started := true, written := true, ns := 70, header := ((on (fun h => h.running3)).hub.sampleHeader 5 { req := 1 } { kind := 2, fmtA := 13, fmtB := 13, kn := 4 } 70 false false), desc := { kind := 2, fmtA := 13, fmtB := 13, kn := 4 } } : SpurTaste).desc) ((on (fun h => { (((((h.running3.wrB F.TASTE_SLOT_EN 3 1).wrB F.TASTE_SLOT_RESIDENCY 3 4).wr F.TASTE_CTRL_EN 1).wrB F.TASTE_SLOT_CONV 3 1).wrB F.TASTE_SLOT_FMT_FORMATS 3 0x3FFF) with tiles := h.running3.tiles.set 5 { st := .inContext, slot := 3, scn := 90000, taste := some { req := 1, armAt := 5, started := true, written := true, ns := 70, header := ((on (fun h => h.running3)).hub.sampleHeader 5 { req := 1 } { kind := 2, fmtA := 13, fmtB := 13, kn := 4 } 70 false false), desc := { kind := 2, fmtA := 13, fmtB := 13, kn := 4 } } }, taste := { bufs := ⟨[(0, { tile := 5, slot := 3, req := 1 })]⟩ }, time := { h.time with hclk := 40000000 } })).hub.samplePayload ({ tile := 5, slot := 3, req := 1 } : SampBuf).tile ({ req := 1, armAt := 5, started := true, written := true, ns := 70, header := ((on (fun h => h.running3)).hub.sampleHeader 5 { req := 1 } { kind := 2, fmtA := 13, fmtB := 13, kn := 4 } 70 false false), desc := { kind := 2, fmtA := 13, fmtB := 13, kn := 4 } } : SpurTaste).header ({ req := 1, armAt := 5, started := true, written := true, ns := 70, header := ((on (fun h => h.running3)).hub.sampleHeader 5 { req := 1 } { kind := 2, fmtA := 13, fmtB := 13, kn := 4 } 70 false false), desc := { kind := 2, fmtA := 13, fmtB := 13, kn := 4 } } : SpurTaste).desc).length 0) = ((let q : SpurTaste := { req := 1, armAt := 5, started := true, written := true, ns := 70, header := ((on (fun h => h.running3)).hub.sampleHeader 5 { req := 1 } { kind := 2, fmtA := 13, fmtB := 13, kn := 4 } 70 false false), desc := { kind := 2, fmtA := 13, fmtB := 13, kn := 4 } }; let h := (on (fun h => { (((((h.running3.wrB F.TASTE_SLOT_EN 3 1).wrB F.TASTE_SLOT_RESIDENCY 3 4).wr F.TASTE_CTRL_EN 1).wrB F.TASTE_SLOT_CONV 3 1).wrB F.TASTE_SLOT_FMT_FORMATS 3 0x3FFF) with tiles := h.running3.tiles.set 5 { st := .inContext, slot := 3, scn := 90000, taste := some { req := 1, armAt := 5, started := true, written := true, ns := 70, header := ((on (fun h => h.running3)).hub.sampleHeader 5 { req := 1 } { kind := 2, fmtA := 13, fmtB := 13, kn := 4 } 70 false false), desc := { kind := 2, fmtA := 13, fmtB := 13, kn := 4 } } }, taste := { bufs := ⟨[(0, { tile := 5, slot := 3, req := 1 })]⟩ }, time := { h.time with hclk := 40000000 } })).hub; q.header ++ h.samplePayload 5 q.header q.desc ++ sampleTrailer (q.header ++ h.samplePayload 5 q.header q.desc) (h.samplePayload 5 q.header q.desc).length 0) : List Byte) ∧ sampleOk ((let q : SpurTaste := { req := 1, armAt := 5, started := true, written := true, ns := 70, header := ((on (fun h => h.running3)).hub.sampleHeader 5 { req := 1 } { kind := 2, fmtA := 13, fmtB := 13, kn := 4 } 70 false false), desc := { kind := 2, fmtA := 13, fmtB := 13, kn := 4 } }; let h := (on (fun h => { (((((h.running3.wrB F.TASTE_SLOT_EN 3 1).wrB F.TASTE_SLOT_RESIDENCY 3 4).wr F.TASTE_CTRL_EN 1).wrB F.TASTE_SLOT_CONV 3 1).wrB F.TASTE_SLOT_FMT_FORMATS 3 0x3FFF) with tiles := h.running3.tiles.set 5 { st := .inContext, slot := 3, scn := 90000, taste := some { req := 1, armAt := 5, started := true, written := true, ns := 70, header := ((on (fun h => h.running3)).hub.sampleHeader 5 { req := 1 } { kind := 2, fmtA := 13, fmtB := 13, kn := 4 } 70 false false), desc := { kind := 2, fmtA := 13, fmtB := 13, kn := 4 } } }, taste := { bufs := ⟨[(0, { tile := 5, slot := 3, req := 1 })]⟩ }, time := { h.time with hclk := 40000000 } })).hub; q.header ++ h.samplePayload 5 q.header q.desc ++ sampleTrailer (q.header ++ h.samplePayload 5 q.header q.desc) (h.samplePayload 5 q.header q.desc).length 0) : List Byte) = true ∧ sampleFits ((let q : SpurTaste := { req := 1, armAt := 5, started := true, written := true, ns := 70, header := ((on (fun h => h.running3)).hub.sampleHeader 5 { req := 1 } { kind := 2, fmtA := 13, fmtB := 13, kn := 4 } 70 false false), desc := { kind := 2, fmtA := 13, fmtB := 13, kn := 4 } }; let h := (on (fun h => { (((((h.running3.wrB F.TASTE_SLOT_EN 3 1).wrB F.TASTE_SLOT_RESIDENCY 3 4).wr F.TASTE_CTRL_EN 1).wrB F.TASTE_SLOT_CONV 3 1).wrB F.TASTE_SLOT_FMT_FORMATS 3 0x3FFF) with tiles := h.running3.tiles.set 5 { st := .inContext, slot := 3, scn := 90000, taste := some { req := 1, armAt := 5, started := true, written := true, ns := 70, header := ((on (fun h => h.running3)).hub.sampleHeader 5 { req := 1 } { kind := 2, fmtA := 13, fmtB := 13, kn := 4 } 70 false false), desc := { kind := 2, fmtA := 13, fmtB := 13, kn := 4 } } }, taste := { bufs := ⟨[(0, { tile := 5, slot := 3, req := 1 })]⟩ }, time := { h.time with hclk := 40000000 } })).hub; q.header ++ h.samplePayload 5 q.header q.desc ++ sampleTrailer (q.header ++ h.samplePayload 5 q.header q.desc) (h.samplePayload 5 q.header q.desc).length 0) : List Byte) = true ∧ (((on (fun h => { (((((h.running3.wrB F.TASTE_SLOT_EN 3 1).wrB F.TASTE_SLOT_RESIDENCY 3 4).wr F.TASTE_CTRL_EN 1).wrB F.TASTE_SLOT_CONV 3 1).wrB F.TASTE_SLOT_FMT_FORMATS 3 0x3FFF) with tiles := h.running3.tiles.set 5 { st := .inContext, slot := 3, scn := 90000, taste := some { req := 1, armAt := 5, started := true, written := true, ns := 70, header := ((on (fun h => h.running3)).hub.sampleHeader 5 { req := 1 } { kind := 2, fmtA := 13, fmtB := 13, kn := 4 } 70 false false), desc := { kind := 2, fmtA := 13, fmtB := 13, kn := 4 } } }, taste := { bufs := ⟨[(0, { tile := 5, slot := 3, req := 1 })]⟩ }, time := { h.time with hclk := 40000000 } })).hub.profileOf (Sh.profile ((let q : SpurTaste := { req := 1, armAt := 5, started := true, written := true, ns := 70, header := ((on (fun h => h.running3)).hub.sampleHeader 5 { req := 1 } { kind := 2, fmtA := 13, fmtB := 13, kn := 4 } 70 false false), desc := { kind := 2, fmtA := 13, fmtB := 13, kn := 4 } }; let h := (on (fun h => { (((((h.running3.wrB F.TASTE_SLOT_EN 3 1).wrB F.TASTE_SLOT_RESIDENCY 3 4).wr F.TASTE_CTRL_EN 1).wrB F.TASTE_SLOT_CONV 3 1).wrB F.TASTE_SLOT_FMT_FORMATS 3 0x3FFF) with tiles := h.running3.tiles.set 5 { st := .inContext, slot := 3, scn := 90000, taste := some { req := 1, armAt := 5, started := true, written := true, ns := 70, header := ((on (fun h => h.running3)).hub.sampleHeader 5 { req := 1 } { kind := 2, fmtA := 13, fmtB := 13, kn := 4 } 70 false false), desc := { kind := 2, fmtA := 13, fmtB := 13, kn := 4 } } }, taste := { bufs := ⟨[(0, { tile := 5, slot := 3, req := 1 })]⟩ }, time := { h.time with hclk := 40000000 } })).hub; q.header ++ h.samplePayload 5 q.header q.desc ++ sampleTrailer (q.header ++ h.samplePayload 5 q.header q.desc) (h.samplePayload 5 q.header q.desc).length 0) : List Byte))).filter (fun p => Sh.legal p ((let q : SpurTaste := { req := 1, armAt := 5, started := true, written := true, ns := 70, header := ((on (fun h => h.running3)).hub.sampleHeader 5 { req := 1 } { kind := 2, fmtA := 13, fmtB := 13, kn := 4 } 70 false false), desc := { kind := 2, fmtA := 13, fmtB := 13, kn := 4 } }; let h := (on (fun h => { (((((h.running3.wrB F.TASTE_SLOT_EN 3 1).wrB F.TASTE_SLOT_RESIDENCY 3 4).wr F.TASTE_CTRL_EN 1).wrB F.TASTE_SLOT_CONV 3 1).wrB F.TASTE_SLOT_FMT_FORMATS 3 0x3FFF) with tiles := h.running3.tiles.set 5 { st := .inContext, slot := 3, scn := 90000, taste := some { req := 1, armAt := 5, started := true, written := true, ns := 70, header := ((on (fun h => h.running3)).hub.sampleHeader 5 { req := 1 } { kind := 2, fmtA := 13, fmtB := 13, kn := 4 } 70 false false), desc := { kind := 2, fmtA := 13, fmtB := 13, kn := 4 } } }, taste := { bufs := ⟨[(0, { tile := 5, slot := 3, req := 1 })]⟩ }, time := { h.time with hclk := 40000000 } })).hub; q.header ++ h.samplePayload 5 q.header q.desc ++ sampleTrailer (q.header ++ h.samplePayload 5 q.header q.desc) (h.samplePayload 5 q.header q.desc).length 0) : List Byte))).isSome = true) ∧
    ((on (fun h => { (((((h.running3.wrB F.TASTE_SLOT_EN 3 1).wrB F.TASTE_SLOT_RESIDENCY 3 4).wr F.TASTE_CTRL_EN 1).wrB F.TASTE_SLOT_CONV 3 1).wrB F.TASTE_SLOT_FMT_FORMATS 3 0x3FFF) with tiles := h.running3.tiles.set 5 { st := .inContext, slot := 3, scn := 90000, taste := some { req := 1, armAt := 5, started := true, written := true, ns := 70, header := ((on (fun h => h.running3)).hub.sampleHeader 5 { req := 1 } { kind := 2, fmtA := 13, fmtB := 13, kn := 4 } 70 false false), desc := { kind := 2, fmtA := 13, fmtB := 13, kn := 4 } } }, taste := { bufs := ⟨[(0, { tile := 5, slot := 3, req := 1 })]⟩ }, time := { h.time with hclk := 40000000 } })).hub.calm = true ∧ (on (fun h => { (((((h.running3.wrB F.TASTE_SLOT_EN 3 1).wrB F.TASTE_SLOT_RESIDENCY 3 4).wr F.TASTE_CTRL_EN 1).wrB F.TASTE_SLOT_CONV 3 1).wrB F.TASTE_SLOT_FMT_FORMATS 3 0x3FFF) with tiles := h.running3.tiles.set 5 { st := .inContext, slot := 3, scn := 90000, taste := some { req := 1, armAt := 5, started := true, written := true, ns := 70, header := ((on (fun h => h.running3)).hub.sampleHeader 5 { req := 1 } { kind := 2, fmtA := 13, fmtB := 13, kn := 4 } 70 false false), desc := { kind := 2, fmtA := 13, fmtB := 13, kn := 4 } } }, taste := { bufs := ⟨[(0, { tile := 5, slot := 3, req := 1 })]⟩ }, time := { h.time with hclk := 40000000 } })).hub.sampleDue (0 : Fin 8) = true ∧ (on (fun h => { (((((h.running3.wrB F.TASTE_SLOT_EN 3 1).wrB F.TASTE_SLOT_RESIDENCY 3 4).wr F.TASTE_CTRL_EN 1).wrB F.TASTE_SLOT_CONV 3 1).wrB F.TASTE_SLOT_FMT_FORMATS 3 0x3FFF) with tiles := h.running3.tiles.set 5 { st := .inContext, slot := 3, scn := 90000, taste := some { req := 1, armAt := 5, started := true, written := true, ns := 70, header := ((on (fun h => h.running3)).hub.sampleHeader 5 { req := 1 } { kind := 2, fmtA := 13, fmtB := 13, kn := 4 } 70 false false), desc := { kind := 2, fmtA := 13, fmtB := 13, kn := 4 } } }, taste := { bufs := ⟨[(0, { tile := 5, slot := 3, req := 1 })]⟩ }, time := { h.time with hclk := 40000000 } })).hub.sampBuf (0 : Fin 8) = ({ tile := 5, slot := 3, req := 1 } : SampBuf) ∧ ((on (fun h => { (((((h.running3.wrB F.TASTE_SLOT_EN 3 1).wrB F.TASTE_SLOT_RESIDENCY 3 4).wr F.TASTE_CTRL_EN 1).wrB F.TASTE_SLOT_CONV 3 1).wrB F.TASTE_SLOT_FMT_FORMATS 3 0x3FFF) with tiles := h.running3.tiles.set 5 { st := .inContext, slot := 3, scn := 90000, taste := some { req := 1, armAt := 5, started := true, written := true, ns := 70, header := ((on (fun h => h.running3)).hub.sampleHeader 5 { req := 1 } { kind := 2, fmtA := 13, fmtB := 13, kn := 4 } 70 false false), desc := { kind := 2, fmtA := 13, fmtB := 13, kn := 4 } } }, taste := { bufs := ⟨[(0, { tile := 5, slot := 3, req := 1 })]⟩ }, time := { h.time with hclk := 40000000 } })).hub.tile ({ tile := 5, slot := 3, req := 1 } : SampBuf).tile).taste = some ({ req := 1, armAt := 5, started := true, written := true, ns := 70, header := ((on (fun h => h.running3)).hub.sampleHeader 5 { req := 1 } { kind := 2, fmtA := 13, fmtB := 13, kn := 4 } 70 false false), desc := { kind := 2, fmtA := 13, fmtB := 13, kn := 4 } } : SpurTaste) ∧ ({ tile := 5, slot := 3, req := 1 } : SampBuf).req = ({ req := 1, armAt := 5, started := true, written := true, ns := 70, header := ((on (fun h => h.running3)).hub.sampleHeader 5 { req := 1 } { kind := 2, fmtA := 13, fmtB := 13, kn := 4 } 70 false false), desc := { kind := 2, fmtA := 13, fmtB := 13, kn := 4 } } : SpurTaste).req) ∧
    ((on (fun h => { (((((h.running3.wrB F.TASTE_SLOT_EN 3 1).wrB F.TASTE_SLOT_RESIDENCY 3 4).wr F.TASTE_CTRL_EN 1).wrB F.TASTE_SLOT_CONV 3 1).wrB F.TASTE_SLOT_FMT_FORMATS 3 0x3FFF) with tiles := h.running3.tiles.set 5 { st := .inContext, slot := 3, scn := 90000, taste := some { req := 1 } }, taste := { bufs := ⟨[(0, { tile := 5, slot := 3, req := 1, data := (let q : SpurTaste := { req := 1, armAt := 5, started := true, written := true, ns := 70, header := ((on (fun h => h.running3)).hub.sampleHeader 5 { req := 1 } { kind := 2, fmtA := 13, fmtB := 13, kn := 4 } 70 false false), desc := { kind := 2, fmtA := 13, fmtB := 13, kn := 4 } }; let h := (on (fun h => { (((((h.running3.wrB F.TASTE_SLOT_EN 3 1).wrB F.TASTE_SLOT_RESIDENCY 3 4).wr F.TASTE_CTRL_EN 1).wrB F.TASTE_SLOT_CONV 3 1).wrB F.TASTE_SLOT_FMT_FORMATS 3 0x3FFF) with tiles := h.running3.tiles.set 5 { st := .inContext, slot := 3, scn := 90000, taste := some { req := 1, armAt := 5, started := true, written := true, ns := 70, header := ((on (fun h => h.running3)).hub.sampleHeader 5 { req := 1 } { kind := 2, fmtA := 13, fmtB := 13, kn := 4 } 70 false false), desc := { kind := 2, fmtA := 13, fmtB := 13, kn := 4 } } }, taste := { bufs := ⟨[(0, { tile := 5, slot := 3, req := 1 })]⟩ }, time := { h.time with hclk := 40000000 } })).hub; q.header ++ h.samplePayload 5 q.header q.desc ++ sampleTrailer (q.header ++ h.samplePayload 5 q.header q.desc) (h.samplePayload 5 q.header q.desc).length 0), ready := true, busyOn := some 2 })]⟩ }, time := { h.time with hclk := 40000000 } })).hub.calm = true ∧ (on (fun h => { (((((h.running3.wrB F.TASTE_SLOT_EN 3 1).wrB F.TASTE_SLOT_RESIDENCY 3 4).wr F.TASTE_CTRL_EN 1).wrB F.TASTE_SLOT_CONV 3 1).wrB F.TASTE_SLOT_FMT_FORMATS 3 0x3FFF) with tiles := h.running3.tiles.set 5 { st := .inContext, slot := 3, scn := 90000, taste := some { req := 1 } }, taste := { bufs := ⟨[(0, { tile := 5, slot := 3, req := 1, data := (let q : SpurTaste := { req := 1, armAt := 5, started := true, written := true, ns := 70, header := ((on (fun h => h.running3)).hub.sampleHeader 5 { req := 1 } { kind := 2, fmtA := 13, fmtB := 13, kn := 4 } 70 false false), desc := { kind := 2, fmtA := 13, fmtB := 13, kn := 4 } }; let h := (on (fun h => { (((((h.running3.wrB F.TASTE_SLOT_EN 3 1).wrB F.TASTE_SLOT_RESIDENCY 3 4).wr F.TASTE_CTRL_EN 1).wrB F.TASTE_SLOT_CONV 3 1).wrB F.TASTE_SLOT_FMT_FORMATS 3 0x3FFF) with tiles := h.running3.tiles.set 5 { st := .inContext, slot := 3, scn := 90000, taste := some { req := 1, armAt := 5, started := true, written := true, ns := 70, header := ((on (fun h => h.running3)).hub.sampleHeader 5 { req := 1 } { kind := 2, fmtA := 13, fmtB := 13, kn := 4 } 70 false false), desc := { kind := 2, fmtA := 13, fmtB := 13, kn := 4 } } }, taste := { bufs := ⟨[(0, { tile := 5, slot := 3, req := 1 })]⟩ }, time := { h.time with hclk := 40000000 } })).hub; q.header ++ h.samplePayload 5 q.header q.desc ++ sampleTrailer (q.header ++ h.samplePayload 5 q.header q.desc) (h.samplePayload 5 q.header q.desc).length 0), ready := true, busyOn := some 2 })]⟩ }, time := { h.time with hclk := 40000000 } })).hub.taste.bufs.cells = [((0 : Nat), ({ tile := 5, slot := 3, req := 1, data := (let q : SpurTaste := { req := 1, armAt := 5, started := true, written := true, ns := 70, header := ((on (fun h => h.running3)).hub.sampleHeader 5 { req := 1 } { kind := 2, fmtA := 13, fmtB := 13, kn := 4 } 70 false false), desc := { kind := 2, fmtA := 13, fmtB := 13, kn := 4 } }; let h := (on (fun h => { (((((h.running3.wrB F.TASTE_SLOT_EN 3 1).wrB F.TASTE_SLOT_RESIDENCY 3 4).wr F.TASTE_CTRL_EN 1).wrB F.TASTE_SLOT_CONV 3 1).wrB F.TASTE_SLOT_FMT_FORMATS 3 0x3FFF) with tiles := h.running3.tiles.set 5 { st := .inContext, slot := 3, scn := 90000, taste := some { req := 1, armAt := 5, started := true, written := true, ns := 70, header := ((on (fun h => h.running3)).hub.sampleHeader 5 { req := 1 } { kind := 2, fmtA := 13, fmtB := 13, kn := 4 } 70 false false), desc := { kind := 2, fmtA := 13, fmtB := 13, kn := 4 } } }, taste := { bufs := ⟨[(0, { tile := 5, slot := 3, req := 1 })]⟩ }, time := { h.time with hclk := 40000000 } })).hub; q.header ++ h.samplePayload 5 q.header q.desc ++ sampleTrailer (q.header ++ h.samplePayload 5 q.header q.desc) (h.samplePayload 5 q.header q.desc).length 0), ready := true, busyOn := some 2 } : SampBuf))] ∧ ({ tile := 5, slot := 3, req := 1, data := (let q : SpurTaste := { req := 1, armAt := 5, started := true, written := true, ns := 70, header := ((on (fun h => h.running3)).hub.sampleHeader 5 { req := 1 } { kind := 2, fmtA := 13, fmtB := 13, kn := 4 } 70 false false), desc := { kind := 2, fmtA := 13, fmtB := 13, kn := 4 } }; let h := (on (fun h => { (((((h.running3.wrB F.TASTE_SLOT_EN 3 1).wrB F.TASTE_SLOT_RESIDENCY 3 4).wr F.TASTE_CTRL_EN 1).wrB F.TASTE_SLOT_CONV 3 1).wrB F.TASTE_SLOT_FMT_FORMATS 3 0x3FFF) with tiles := h.running3.tiles.set 5 { st := .inContext, slot := 3, scn := 90000, taste := some { req := 1, armAt := 5, started := true, written := true, ns := 70, header := ((on (fun h => h.running3)).hub.sampleHeader 5 { req := 1 } { kind := 2, fmtA := 13, fmtB := 13, kn := 4 } 70 false false), desc := { kind := 2, fmtA := 13, fmtB := 13, kn := 4 } } }, taste := { bufs := ⟨[(0, { tile := 5, slot := 3, req := 1 })]⟩ }, time := { h.time with hclk := 40000000 } })).hub; q.header ++ h.samplePayload 5 q.header q.desc ++ sampleTrailer (q.header ++ h.samplePayload 5 q.header q.desc) (h.samplePayload 5 q.header q.desc).length 0), ready := true, busyOn := some 2 } : SampBuf).busyOn = some ((2 : Fin 4) : Nat) ∧ ({ tile := 5, slot := 3, req := 1, data := (let q : SpurTaste := { req := 1, armAt := 5, started := true, written := true, ns := 70, header := ((on (fun h => h.running3)).hub.sampleHeader 5 { req := 1 } { kind := 2, fmtA := 13, fmtB := 13, kn := 4 } 70 false false), desc := { kind := 2, fmtA := 13, fmtB := 13, kn := 4 } }; let h := (on (fun h => { (((((h.running3.wrB F.TASTE_SLOT_EN 3 1).wrB F.TASTE_SLOT_RESIDENCY 3 4).wr F.TASTE_CTRL_EN 1).wrB F.TASTE_SLOT_CONV 3 1).wrB F.TASTE_SLOT_FMT_FORMATS 3 0x3FFF) with tiles := h.running3.tiles.set 5 { st := .inContext, slot := 3, scn := 90000, taste := some { req := 1, armAt := 5, started := true, written := true, ns := 70, header := ((on (fun h => h.running3)).hub.sampleHeader 5 { req := 1 } { kind := 2, fmtA := 13, fmtB := 13, kn := 4 } 70 false false), desc := { kind := 2, fmtA := 13, fmtB := 13, kn := 4 } } }, taste := { bufs := ⟨[(0, { tile := 5, slot := 3, req := 1 })]⟩ }, time := { h.time with hclk := 40000000 } })).hub; q.header ++ h.samplePayload 5 q.header q.desc ++ sampleTrailer (q.header ++ h.samplePayload 5 q.header q.desc) (h.samplePayload 5 q.header q.desc).length 0), ready := true, busyOn := some 2 } : SampBuf).ready = true ∧ ({ tile := 5, slot := 3, req := 1, data := (let q : SpurTaste := { req := 1, armAt := 5, started := true, written := true, ns := 70, header := ((on (fun h => h.running3)).hub.sampleHeader 5 { req := 1 } { kind := 2, fmtA := 13, fmtB := 13, kn := 4 } 70 false false), desc := { kind := 2, fmtA := 13, fmtB := 13, kn := 4 } }; let h := (on (fun h => { (((((h.running3.wrB F.TASTE_SLOT_EN 3 1).wrB F.TASTE_SLOT_RESIDENCY 3 4).wr F.TASTE_CTRL_EN 1).wrB F.TASTE_SLOT_CONV 3 1).wrB F.TASTE_SLOT_FMT_FORMATS 3 0x3FFF) with tiles := h.running3.tiles.set 5 { st := .inContext, slot := 3, scn := 90000, taste := some { req := 1, armAt := 5, started := true, written := true, ns := 70, header := ((on (fun h => h.running3)).hub.sampleHeader 5 { req := 1 } { kind := 2, fmtA := 13, fmtB := 13, kn := 4 } 70 false false), desc := { kind := 2, fmtA := 13, fmtB := 13, kn := 4 } } }, taste := { bufs := ⟨[(0, { tile := 5, slot := 3, req := 1 })]⟩ }, time := { h.time with hclk := 40000000 } })).hub; q.header ++ h.samplePayload 5 q.header q.desc ++ sampleTrailer (q.header ++ h.samplePayload 5 q.header q.desc) (h.samplePayload 5 q.header q.desc).length 0), ready := true, busyOn := some 2 } : SampBuf).conf = none ∧ ({ tile := 5, slot := 3, req := 1, data := (let q : SpurTaste := { req := 1, armAt := 5, started := true, written := true, ns := 70, header := ((on (fun h => h.running3)).hub.sampleHeader 5 { req := 1 } { kind := 2, fmtA := 13, fmtB := 13, kn := 4 } 70 false false), desc := { kind := 2, fmtA := 13, fmtB := 13, kn := 4 } }; let h := (on (fun h => { (((((h.running3.wrB F.TASTE_SLOT_EN 3 1).wrB F.TASTE_SLOT_RESIDENCY 3 4).wr F.TASTE_CTRL_EN 1).wrB F.TASTE_SLOT_CONV 3 1).wrB F.TASTE_SLOT_FMT_FORMATS 3 0x3FFF) with tiles := h.running3.tiles.set 5 { st := .inContext, slot := 3, scn := 90000, taste := some { req := 1, armAt := 5, started := true, written := true, ns := 70, header := ((on (fun h => h.running3)).hub.sampleHeader 5 { req := 1 } { kind := 2, fmtA := 13, fmtB := 13, kn := 4 } 70 false false), desc := { kind := 2, fmtA := 13, fmtB := 13, kn := 4 } } }, taste := { bufs := ⟨[(0, { tile := 5, slot := 3, req := 1 })]⟩ }, time := { h.time with hclk := 40000000 } })).hub; q.header ++ h.samplePayload 5 q.header q.desc ++ sampleTrailer (q.header ++ h.samplePayload 5 q.header q.desc) (h.samplePayload 5 q.header q.desc).length 0), ready := true, busyOn := some 2 } : SampBuf).tasters = [] ∧ (on (fun h => { (((((h.running3.wrB F.TASTE_SLOT_EN 3 1).wrB F.TASTE_SLOT_RESIDENCY 3 4).wr F.TASTE_CTRL_EN 1).wrB F.TASTE_SLOT_CONV 3 1).wrB F.TASTE_SLOT_FMT_FORMATS 3 0x3FFF) with tiles := h.running3.tiles.set 5 { st := .inContext, slot := 3, scn := 90000, taste := some { req := 1 } }, taste := { bufs := ⟨[(0, { tile := 5, slot := 3, req := 1, data := (let q : SpurTaste := { req := 1, armAt := 5, started := true, written := true, ns := 70, header := ((on (fun h => h.running3)).hub.sampleHeader 5 { req := 1 } { kind := 2, fmtA := 13, fmtB := 13, kn := 4 } 70 false false), desc := { kind := 2, fmtA := 13, fmtB := 13, kn := 4 } }; let h := (on (fun h => { (((((h.running3.wrB F.TASTE_SLOT_EN 3 1).wrB F.TASTE_SLOT_RESIDENCY 3 4).wr F.TASTE_CTRL_EN 1).wrB F.TASTE_SLOT_CONV 3 1).wrB F.TASTE_SLOT_FMT_FORMATS 3 0x3FFF) with tiles := h.running3.tiles.set 5 { st := .inContext, slot := 3, scn := 90000, taste := some { req := 1, armAt := 5, started := true, written := true, ns := 70, header := ((on (fun h => h.running3)).hub.sampleHeader 5 { req := 1 } { kind := 2, fmtA := 13, fmtB := 13, kn := 4 } 70 false false), desc := { kind := 2, fmtA := 13, fmtB := 13, kn := 4 } } }, taste := { bufs := ⟨[(0, { tile := 5, slot := 3, req := 1 })]⟩ }, time := { h.time with hclk := 40000000 } })).hub; q.header ++ h.samplePayload 5 q.header q.desc ++ sampleTrailer (q.header ++ h.samplePayload 5 q.header q.desc) (h.samplePayload 5 q.header q.desc).length 0), ready := true, busyOn := some 2 })]⟩ }, time := { h.time with hclk := 40000000 } })).hub.profileOf (Sh.profile ({ tile := 5, slot := 3, req := 1, data := (let q : SpurTaste := { req := 1, armAt := 5, started := true, written := true, ns := 70, header := ((on (fun h => h.running3)).hub.sampleHeader 5 { req := 1 } { kind := 2, fmtA := 13, fmtB := 13, kn := 4 } 70 false false), desc := { kind := 2, fmtA := 13, fmtB := 13, kn := 4 } }; let h := (on (fun h => { (((((h.running3.wrB F.TASTE_SLOT_EN 3 1).wrB F.TASTE_SLOT_RESIDENCY 3 4).wr F.TASTE_CTRL_EN 1).wrB F.TASTE_SLOT_CONV 3 1).wrB F.TASTE_SLOT_FMT_FORMATS 3 0x3FFF) with tiles := h.running3.tiles.set 5 { st := .inContext, slot := 3, scn := 90000, taste := some { req := 1, armAt := 5, started := true, written := true, ns := 70, header := ((on (fun h => h.running3)).hub.sampleHeader 5 { req := 1 } { kind := 2, fmtA := 13, fmtB := 13, kn := 4 } 70 false false), desc := { kind := 2, fmtA := 13, fmtB := 13, kn := 4 } } }, taste := { bufs := ⟨[(0, { tile := 5, slot := 3, req := 1 })]⟩ }, time := { h.time with hclk := 40000000 } })).hub; q.header ++ h.samplePayload 5 q.header q.desc ++ sampleTrailer (q.header ++ h.samplePayload 5 q.header q.desc) (h.samplePayload 5 q.header q.desc).length 0), ready := true, busyOn := some 2 } : SampBuf).data) = some (profile0 : Prof) ∧ (differing ((on (fun h => { (((((h.running3.wrB F.TASTE_SLOT_EN 3 1).wrB F.TASTE_SLOT_RESIDENCY 3 4).wr F.TASTE_CTRL_EN 1).wrB F.TASTE_SLOT_CONV 3 1).wrB F.TASTE_SLOT_FMT_FORMATS 3 0x3FFF) with tiles := h.running3.tiles.set 5 { st := .inContext, slot := 3, scn := 90000, taste := some { req := 1 } }, taste := { bufs := ⟨[(0, { tile := 5, slot := 3, req := 1, data := (let q : SpurTaste := { req := 1, armAt := 5, started := true, written := true, ns := 70, header := ((on (fun h => h.running3)).hub.sampleHeader 5 { req := 1 } { kind := 2, fmtA := 13, fmtB := 13, kn := 4 } 70 false false), desc := { kind := 2, fmtA := 13, fmtB := 13, kn := 4 } }; let h := (on (fun h => { (((((h.running3.wrB F.TASTE_SLOT_EN 3 1).wrB F.TASTE_SLOT_RESIDENCY 3 4).wr F.TASTE_CTRL_EN 1).wrB F.TASTE_SLOT_CONV 3 1).wrB F.TASTE_SLOT_FMT_FORMATS 3 0x3FFF) with tiles := h.running3.tiles.set 5 { st := .inContext, slot := 3, scn := 90000, taste := some { req := 1, armAt := 5, started := true, written := true, ns := 70, header := ((on (fun h => h.running3)).hub.sampleHeader 5 { req := 1 } { kind := 2, fmtA := 13, fmtB := 13, kn := 4 } 70 false false), desc := { kind := 2, fmtA := 13, fmtB := 13, kn := 4 } } }, taste := { bufs := ⟨[(0, { tile := 5, slot := 3, req := 1 })]⟩ }, time := { h.time with hclk := 40000000 } })).hub; q.header ++ h.samplePayload 5 q.header q.desc ++ sampleTrailer (q.header ++ h.samplePayload 5 q.header q.desc) (h.samplePayload 5 q.header q.desc).length 0), ready := true, busyOn := some 2 })]⟩ }, time := { h.time with hclk := 40000000 } })).hub.rdB F.TASTE_SLOT_MODE ({ tile := 5, slot := 3, req := 1, data := (let q : SpurTaste := { req := 1, armAt := 5, started := true, written := true, ns := 70, header := ((on (fun h => h.running3)).hub.sampleHeader 5 { req := 1 } { kind := 2, fmtA := 13, fmtB := 13, kn := 4 } 70 false false), desc := { kind := 2, fmtA := 13, fmtB := 13, kn := 4 } }; let h := (on (fun h => { (((((h.running3.wrB F.TASTE_SLOT_EN 3 1).wrB F.TASTE_SLOT_RESIDENCY 3 4).wr F.TASTE_CTRL_EN 1).wrB F.TASTE_SLOT_CONV 3 1).wrB F.TASTE_SLOT_FMT_FORMATS 3 0x3FFF) with tiles := h.running3.tiles.set 5 { st := .inContext, slot := 3, scn := 90000, taste := some { req := 1, armAt := 5, started := true, written := true, ns := 70, header := ((on (fun h => h.running3)).hub.sampleHeader 5 { req := 1 } { kind := 2, fmtA := 13, fmtB := 13, kn := 4 } 70 false false), desc := { kind := 2, fmtA := 13, fmtB := 13, kn := 4 } } }, taste := { bufs := ⟨[(0, { tile := 5, slot := 3, req := 1 })]⟩ }, time := { h.time with hclk := 40000000 } })).hub; q.header ++ h.samplePayload 5 q.header q.desc ++ sampleTrailer (q.header ++ h.samplePayload 5 q.header q.desc) (h.samplePayload 5 q.header q.desc).length 0), ready := true, busyOn := some 2 } : SampBuf).slot) ((on (fun h => { (((((h.running3.wrB F.TASTE_SLOT_EN 3 1).wrB F.TASTE_SLOT_RESIDENCY 3 4).wr F.TASTE_CTRL_EN 1).wrB F.TASTE_SLOT_CONV 3 1).wrB F.TASTE_SLOT_FMT_FORMATS 3 0x3FFF) with tiles := h.running3.tiles.set 5 { st := .inContext, slot := 3, scn := 90000, taste := some { req := 1 } }, taste := { bufs := ⟨[(0, { tile := 5, slot := 3, req := 1, data := (let q : SpurTaste := { req := 1, armAt := 5, started := true, written := true, ns := 70, header := ((on (fun h => h.running3)).hub.sampleHeader 5 { req := 1 } { kind := 2, fmtA := 13, fmtB := 13, kn := 4 } 70 false false), desc := { kind := 2, fmtA := 13, fmtB := 13, kn := 4 } }; let h := (on (fun h => { (((((h.running3.wrB F.TASTE_SLOT_EN 3 1).wrB F.TASTE_SLOT_RESIDENCY 3 4).wr F.TASTE_CTRL_EN 1).wrB F.TASTE_SLOT_CONV 3 1).wrB F.TASTE_SLOT_FMT_FORMATS 3 0x3FFF) with tiles := h.running3.tiles.set 5 { st := .inContext, slot := 3, scn := 90000, taste := some { req := 1, armAt := 5, started := true, written := true, ns := 70, header := ((on (fun h => h.running3)).hub.sampleHeader 5 { req := 1 } { kind := 2, fmtA := 13, fmtB := 13, kn := 4 } 70 false false), desc := { kind := 2, fmtA := 13, fmtB := 13, kn := 4 } } }, taste := { bufs := ⟨[(0, { tile := 5, slot := 3, req := 1 })]⟩ }, time := { h.time with hclk := 40000000 } })).hub; q.header ++ h.samplePayload 5 q.header q.desc ++ sampleTrailer (q.header ++ h.samplePayload 5 q.header q.desc) (h.samplePayload 5 q.header q.desc).length 0), ready := true, busyOn := some 2 })]⟩ }, time := { h.time with hclk := 40000000 } })).hub.rdB F.TASTE_SLOT_ULP_TOL ({ tile := 5, slot := 3, req := 1, data := (let q : SpurTaste := { req := 1, armAt := 5, started := true, written := true, ns := 70, header := ((on (fun h => h.running3)).hub.sampleHeader 5 { req := 1 } { kind := 2, fmtA := 13, fmtB := 13, kn := 4 } 70 false false), desc := { kind := 2, fmtA := 13, fmtB := 13, kn := 4 } }; let h := (on (fun h => { (((((h.running3.wrB F.TASTE_SLOT_EN 3 1).wrB F.TASTE_SLOT_RESIDENCY 3 4).wr F.TASTE_CTRL_EN 1).wrB F.TASTE_SLOT_CONV 3 1).wrB F.TASTE_SLOT_FMT_FORMATS 3 0x3FFF) with tiles := h.running3.tiles.set 5 { st := .inContext, slot := 3, scn := 90000, taste := some { req := 1, armAt := 5, started := true, written := true, ns := 70, header := ((on (fun h => h.running3)).hub.sampleHeader 5 { req := 1 } { kind := 2, fmtA := 13, fmtB := 13, kn := 4 } 70 false false), desc := { kind := 2, fmtA := 13, fmtB := 13, kn := 4 } } }, taste := { bufs := ⟨[(0, { tile := 5, slot := 3, req := 1 })]⟩ }, time := { h.time with hclk := 40000000 } })).hub; q.header ++ h.samplePayload 5 q.header q.desc ++ sampleTrailer (q.header ++ h.samplePayload 5 q.header q.desc) (h.samplePayload 5 q.header q.desc).length 0), ready := true, busyOn := some 2 } : SampBuf).slot) ({ tile := 5, slot := 3, req := 1, data := (let q : SpurTaste := { req := 1, armAt := 5, started := true, written := true, ns := 70, header := ((on (fun h => h.running3)).hub.sampleHeader 5 { req := 1 } { kind := 2, fmtA := 13, fmtB := 13, kn := 4 } 70 false false), desc := { kind := 2, fmtA := 13, fmtB := 13, kn := 4 } }; let h := (on (fun h => { (((((h.running3.wrB F.TASTE_SLOT_EN 3 1).wrB F.TASTE_SLOT_RESIDENCY 3 4).wr F.TASTE_CTRL_EN 1).wrB F.TASTE_SLOT_CONV 3 1).wrB F.TASTE_SLOT_FMT_FORMATS 3 0x3FFF) with tiles := h.running3.tiles.set 5 { st := .inContext, slot := 3, scn := 90000, taste := some { req := 1, armAt := 5, started := true, written := true, ns := 70, header := ((on (fun h => h.running3)).hub.sampleHeader 5 { req := 1 } { kind := 2, fmtA := 13, fmtB := 13, kn := 4 } 70 false false), desc := { kind := 2, fmtA := 13, fmtB := 13, kn := 4 } } }, taste := { bufs := ⟨[(0, { tile := 5, slot := 3, req := 1 })]⟩ }, time := { h.time with hclk := 40000000 } })).hub; q.header ++ h.samplePayload 5 q.header q.desc ++ sampleTrailer (q.header ++ h.samplePayload 5 q.header q.desc) (h.samplePayload 5 q.header q.desc).length 0), ready := true, busyOn := some 2 } : SampBuf).data (tileResult ({ tile := 5, slot := 3, req := 1, data := (let q : SpurTaste := { req := 1, armAt := 5, started := true, written := true, ns := 70, header := ((on (fun h => h.running3)).hub.sampleHeader 5 { req := 1 } { kind := 2, fmtA := 13, fmtB := 13, kn := 4 } 70 false false), desc := { kind := 2, fmtA := 13, fmtB := 13, kn := 4 } }; let h := (on (fun h => { (((((h.running3.wrB F.TASTE_SLOT_EN 3 1).wrB F.TASTE_SLOT_RESIDENCY 3 4).wr F.TASTE_CTRL_EN 1).wrB F.TASTE_SLOT_CONV 3 1).wrB F.TASTE_SLOT_FMT_FORMATS 3 0x3FFF) with tiles := h.running3.tiles.set 5 { st := .inContext, slot := 3, scn := 90000, taste := some { req := 1, armAt := 5, started := true, written := true, ns := 70, header := ((on (fun h => h.running3)).hub.sampleHeader 5 { req := 1 } { kind := 2, fmtA := 13, fmtB := 13, kn := 4 } 70 false false), desc := { kind := 2, fmtA := 13, fmtB := 13, kn := 4 } } }, taste := { bufs := ⟨[(0, { tile := 5, slot := 3, req := 1 })]⟩ }, time := { h.time with hclk := 40000000 } })).hub; q.header ++ h.samplePayload 5 q.header q.desc ++ sampleTrailer (q.header ++ h.samplePayload 5 q.header q.desc) (h.samplePayload 5 q.header q.desc).length 0), ready := true, busyOn := some 2 } : SampBuf).data) (resultOf ({ tile := 5, slot := 3, req := 1, data := (let q : SpurTaste := { req := 1, armAt := 5, started := true, written := true, ns := 70, header := ((on (fun h => h.running3)).hub.sampleHeader 5 { req := 1 } { kind := 2, fmtA := 13, fmtB := 13, kn := 4 } 70 false false), desc := { kind := 2, fmtA := 13, fmtB := 13, kn := 4 } }; let h := (on (fun h => { (((((h.running3.wrB F.TASTE_SLOT_EN 3 1).wrB F.TASTE_SLOT_RESIDENCY 3 4).wr F.TASTE_CTRL_EN 1).wrB F.TASTE_SLOT_CONV 3 1).wrB F.TASTE_SLOT_FMT_FORMATS 3 0x3FFF) with tiles := h.running3.tiles.set 5 { st := .inContext, slot := 3, scn := 90000, taste := some { req := 1, armAt := 5, started := true, written := true, ns := 70, header := ((on (fun h => h.running3)).hub.sampleHeader 5 { req := 1 } { kind := 2, fmtA := 13, fmtB := 13, kn := 4 } 70 false false), desc := { kind := 2, fmtA := 13, fmtB := 13, kn := 4 } } }, taste := { bufs := ⟨[(0, { tile := 5, slot := 3, req := 1 })]⟩ }, time := { h.time with hclk := 40000000 } })).hub; q.header ++ h.samplePayload 5 q.header q.desc ++ sampleTrailer (q.header ++ h.samplePayload 5 q.header q.desc) (h.samplePayload 5 q.header q.desc).length 0), ready := true, busyOn := some 2 } : SampBuf).data (contractResult (profile0 : Prof) ({ tile := 5, slot := 3, req := 1, data := (let q : SpurTaste := { req := 1, armAt := 5, started := true, written := true, ns := 70, header := ((on (fun h => h.running3)).hub.sampleHeader 5 { req := 1 } { kind := 2, fmtA := 13, fmtB := 13, kn := 4 } 70 false false), desc := { kind := 2, fmtA := 13, fmtB := 13, kn := 4 } }; let h := (on (fun h => { (((((h.running3.wrB F.TASTE_SLOT_EN 3 1).wrB F.TASTE_SLOT_RESIDENCY 3 4).wr F.TASTE_CTRL_EN 1).wrB F.TASTE_SLOT_CONV 3 1).wrB F.TASTE_SLOT_FMT_FORMATS 3 0x3FFF) with tiles := h.running3.tiles.set 5 { st := .inContext, slot := 3, scn := 90000, taste := some { req := 1, armAt := 5, started := true, written := true, ns := 70, header := ((on (fun h => h.running3)).hub.sampleHeader 5 { req := 1 } { kind := 2, fmtA := 13, fmtB := 13, kn := 4 } 70 false false), desc := { kind := 2, fmtA := 13, fmtB := 13, kn := 4 } } }, taste := { bufs := ⟨[(0, { tile := 5, slot := 3, req := 1 })]⟩ }, time := { h.time with hclk := 40000000 } })).hub; q.header ++ h.samplePayload 5 q.header q.desc ++ sampleTrailer (q.header ++ h.samplePayload 5 q.header q.desc) (h.samplePayload 5 q.header q.desc).length 0), ready := true, busyOn := some 2 } : SampBuf).data).toList)).isEmpty = true) := by
  and_intros <;> decide +kernel

/-- The hypotheses of taste_commands_act_on_buffers_evidence_and_tasters can be met, clause by clause. -/
theorem witness_taste_commands_act_on_buffers_evidence_and_tasters :
    ((on (fun h => h.running3.wr F.TASTE_ARG_TILE 5)).hub.calm = true ∧ (on (fun h => h.running3.wr F.TASTE_ARG_TILE 5)).hub.takesWrite (.mgmt : Req) R.TASTE_CMD 1 = true ∧ (on (fun h => h.running3.wr F.TASTE_ARG_TILE 5)).hub.tasteCheck 1 = St.OK ∧ (on (fun h => h.running3.wr F.TASTE_ARG_TILE 5)).hub.freeBuf = some (0 : Nat) ∧ (on (fun h => h.running3.wr F.TASTE_ARG_TILE 5)).hub.rd F.TASTE_ARG_TILE = (5 : Nat)) ∧
    ((on (fun h => h.wr F.TASTE_STATE_EVID_LOCKED 1)).hub.calm = true ∧ (on (fun h => h.wr F.TASTE_STATE_EVID_LOCKED 1)).hub.takesWrite (.mgmt : Req) R.TASTE_CMD 2 = true ∧ (on (fun h => h.wr F.TASTE_STATE_EVID_LOCKED 1)).hub.tasteCheck 2 = St.OK) ∧
    ((on (fun h => h.wr F.TASTE_ARG_TASTER 2)).hub.calm = true ∧ (on (fun h => h.wr F.TASTE_ARG_TASTER 2)).hub.takesWrite (.mgmt : Req) R.TASTE_CMD 3 = true ∧ (on (fun h => h.wr F.TASTE_ARG_TASTER 2)).hub.tasteCheck 3 = St.OK ∧ (on (fun h => h.wr F.TASTE_ARG_TASTER 2)).hub.rd F.TASTE_ARG_TASTER = (2 : Nat) ∧ (on (fun h => h.wr F.TASTE_ARG_TASTER 2)).hub.tasterUp (2 : Nat) = true ∧ (on (fun h => h.wr F.TASTE_ARG_TASTER 2)).hub.taste.bufs.cells = []) ∧
    ((on (fun h => { h.wr F.TASTE_ARG_TASTER 2 with taste := { retired := [2], bistOk := [2] } })).hub.calm = true ∧ (on (fun h => { h.wr F.TASTE_ARG_TASTER 2 with taste := { retired := [2], bistOk := [2] } })).hub.takesWrite (.mgmt : Req) R.TASTE_CMD 4 = true ∧ (on (fun h => { h.wr F.TASTE_ARG_TASTER 2 with taste := { retired := [2], bistOk := [2] } })).hub.tasteCheck 4 = St.OK ∧ (on (fun h => { h.wr F.TASTE_ARG_TASTER 2 with taste := { retired := [2], bistOk := [2] } })).hub.rd F.TASTE_ARG_TASTER = (2 : Nat) ∧ (on (fun h => { h.wr F.TASTE_ARG_TASTER 2 with taste := { retired := [2], bistOk := [2] } })).hub.taste.bufs.cells = []) ∧
    ((on (fun h => { h with taste := { stats := ⟨[(9, 4)]⟩ } })).hub.calm = true ∧ (on (fun h => { h with taste := { stats := ⟨[(9, 4)]⟩ } })).hub.takesWrite (.mgmt : Req) R.TASTE_CMD 5 = true ∧ (on (fun h => { h with taste := { stats := ⟨[(9, 4)]⟩ } })).hub.tasteCheck 5 = St.OK) ∧
    ((on (fun h => { h.wr F.TASTE_EVID_ADDR_OFFSET 4 with taste := { evidSample := List.replicate 64 7 } })).hub.calm = true ∧ (on (fun h => { h.wr F.TASTE_EVID_ADDR_OFFSET 4 with taste := { evidSample := List.replicate 64 7 } })).hub.accessStatus (.mgmt : Req) R.TASTE_EVID_DATA false 0 = St.OK ∧ (on (fun h => { h.wr F.TASTE_EVID_ADDR_OFFSET 4 with taste := { evidSample := List.replicate 64 7 } })).hub.rd F.TASTE_EVID_ADDR_OFFSET / 4 * 4 = (4 : Nat) ∧ (Sh.priv (on (fun h => { h.wr F.TASTE_EVID_ADDR_OFFSET 4 with taste := { evidSample := List.replicate 64 7 } })).hub.taste.evidSample ≠ 2 ∨ isExternal (.mgmt : Req) = false ∨ (on (fun h => { h.wr F.TASTE_EVID_ADDR_OFFSET 4 with taste := { evidSample := List.replicate 64 7 } })).hub.covers Right.SECURE (on (fun h => { h.wr F.TASTE_EVID_ADDR_OFFSET 4 with taste := { evidSample := List.replicate 64 7 } })).hub.taste.evidSlot = true)) ∧
    ((on (fun h => { h.wr F.TASTE_EVID_ADDR_OFFSET 4 with taste := { evidSample := List.replicate 64 0x80 } })).hub.calm = true ∧ (on (fun h => { h.wr F.TASTE_EVID_ADDR_OFFSET 4 with taste := { evidSample := List.replicate 64 0x80 } })).hub.accessStatus (.jtag : Req) R.TASTE_EVID_DATA false 0 = St.OK ∧ Sh.priv (on (fun h => { h.wr F.TASTE_EVID_ADDR_OFFSET 4 with taste := { evidSample := List.replicate 64 0x80 } })).hub.taste.evidSample = 2 ∧ isExternal (.jtag : Req) = true ∧ (on (fun h => { h.wr F.TASTE_EVID_ADDR_OFFSET 4 with taste := { evidSample := List.replicate 64 0x80 } })).hub.covers Right.SECURE (on (fun h => { h.wr F.TASTE_EVID_ADDR_OFFSET 4 with taste := { evidSample := List.replicate 64 0x80 } })).hub.taste.evidSlot = false) := by
  and_intros <;> decide +kernel

/-- The hypotheses of digest_passes_sum_what_they_name can be met, clause by clause. -/
theorem witness_digest_passes_sum_what_they_name :
    ((on (fun h => h.running3.setReg R.DIGEST_ARG 3)).hub.calm = true ∧ (on (fun h => h.running3.setReg R.DIGEST_ARG 3)).hub.takesWrite (.mgmt : Req) R.DIGEST_CMD 1 = true ∧ (on (fun h => h.running3.setReg R.DIGEST_ARG 3)).hub.digestCheck 1 = St.OK ∧ (on (fun h => h.running3.setReg R.DIGEST_ARG 3)).hub.reg R.DIGEST_ARG = (3 : Nat) ∧ Da.fed (3 : Nat) = false) ∧
    ((on (fun h => (h.wrB F.HARV_REGION_CTRL_VALID 0 1).setReg R.DIGEST_ARG 3)).hub.calm = true ∧ (on (fun h => (h.wrB F.HARV_REGION_CTRL_VALID 0 1).setReg R.DIGEST_ARG 3)).hub.takesWrite (.mgmt : Req) R.DIGEST_CMD 2 = true ∧ (on (fun h => (h.wrB F.HARV_REGION_CTRL_VALID 0 1).setReg R.DIGEST_ARG 3)).hub.digestCheck 2 = St.OK ∧ (on (fun h => (h.wrB F.HARV_REGION_CTRL_VALID 0 1).setReg R.DIGEST_ARG 3)).hub.reg R.DIGEST_ARG = (3 : Nat)) ∧
    ((on (fun h => { h with digTiles := { active := true } })).hub.calm = true ∧ (on (fun h => { h with digTiles := { active := true } })).hub.takesWrite (.mgmt : Req) R.DIGEST_CMD 3 = true ∧ (on (fun h => { h with digTiles := { active := true } })).hub.digestCheck 3 = St.OK ∧ (on (fun h => { h with digTiles := { active := true } })).hub.reg R.DIGEST_ARG = (0 : Nat) ∧ (on (fun h => { h with digTiles := { active := true } })).hub.digTiles.fedReq = none) ∧
    ((on (fun h => h.wr F.DIGEST_PASSES_COUNT 5)).hub.calm = true ∧ (on (fun h => h.wr F.DIGEST_PASSES_COUNT 5)).hub.takesWrite (.mgmt : Req) R.DIGEST_CMD 4 = true ∧ (on (fun h => h.wr F.DIGEST_PASSES_COUNT 5)).hub.digestCheck 4 = St.OK ∧ (on (fun h => h.wr F.DIGEST_PASSES_COUNT 5)).hub.reg R.DIGEST_ARG = (0 : Nat)) ∧
    ((on (fun h => { h.running3 with digTiles := { active := true, slot := 3 } })).hub.calm = true ∧ (on (fun h => { h.running3 with digTiles := { active := true, slot := 3 } })).hub.digTiles = ({ active := true, slot := 3 } : Pass) ∧ ({ active := true, slot := 3 } : Pass).own = false ∧ Da.perTile ({ active := true, slot := 3 } : Pass).arg = false ∧ (on (fun h => { h.running3 with digTiles := { active := true, slot := 3 } })).hub.sumsWait = false ∧ ({ active := true, slot := 3 } : Pass).active = true ∧ Da.compare ({ active := true, slot := 3 } : Pass).arg = false ∧ Da.repeats ({ active := true, slot := 3 } : Pass).arg = false ∧ ({ active := true, slot := 3 } : Pass).fedReq = none ∧ ({ active := true, slot := 3 } : Pass).missing = none ∧ ({ active := true, slot := 3 } : Pass).fedBad = false ∧ ({ active := true, slot := 3 } : Pass).fedLeft = [] ∧ ({ active := true, slot := 3 } : Pass).diff = []) ∧
    ((on (fun h => { h.running3 with digExt := { active := true, own := true, sum := 77 } })).hub.calm = true ∧ (on (fun h => { h.running3 with digExt := { active := true, own := true, sum := 77 } })).hub.digExt = ({ active := true, own := true, sum := 77 } : Pass) ∧ ({ active := true, own := true, sum := 77 } : Pass).own = true ∧ ({ active := true, own := true, sum := 77 } : Pass).active = true ∧ Da.compare ({ active := true, own := true, sum := 77 } : Pass).arg = false ∧ Da.repeats ({ active := true, own := true, sum := 77 } : Pass).arg = false ∧ ({ active := true, own := true, sum := 77 } : Pass).fedReq = none ∧ ({ active := true, own := true, sum := 77 } : Pass).missing = none ∧ ({ active := true, own := true, sum := 77 } : Pass).fedBad = false ∧ ({ active := true, own := true, sum := 77 } : Pass).fedLeft = [] ∧ ({ active := true, own := true, sum := 77 } : Pass).diff = []) ∧
    ((on (fun h => { h.running3 with digTiles := { active := true, slot := 3, arg := 0x200 }, canes := ⟨[(5, { down := true })]⟩ })).hub.calm = true ∧ (on (fun h => { h.running3 with digTiles := { active := true, slot := 3, arg := 0x200 }, canes := ⟨[(5, { down := true })]⟩ })).hub.digTiles = ({ active := true, slot := 3, arg := 0x200 } : Pass) ∧ ({ active := true, slot := 3, arg := 0x200 } : Pass).active = true ∧ ({ active := true, slot := 3, arg := 0x200 } : Pass).own = false ∧ (on (fun h => { h.running3 with digTiles := { active := true, slot := 3, arg := 0x200 }, canes := ⟨[(5, { down := true })]⟩ })).hub.sumsWait = true) ∧
    ((on (fun h => { h with digAgain := [{ ext := true, nextAt := 7 }] })).hub.calm = true ∧ (on (fun h => { h with digAgain := [{ ext := true, nextAt := 7 }] })).hub.digAgain.find? (fun x => x.ext == true && x.nextAt ≤ (on (fun h => { h with digAgain := [{ ext := true, nextAt := 7 }] })).hub.time.hclk) = some ({ ext := true, nextAt := 7 } : Again) ∧ (on (fun h => { h with digAgain := [{ ext := true, nextAt := 7 }] })).hub.digExt.active = false) ∧
    ((on (fun h => { h.running3 with digAgain := [{ ext := false, arg := 3, nextAt := 7 }] })).hub.calm = true ∧ (on (fun h => { h.running3 with digAgain := [{ ext := false, arg := 3, nextAt := 7 }] })).hub.digAgain.find? (fun x => x.ext == false && x.nextAt ≤ (on (fun h => { h.running3 with digAgain := [{ ext := false, arg := 3, nextAt := 7 }] })).hub.time.hclk) = some ({ ext := false, arg := 3, nextAt := 7 } : Again) ∧ (on (fun h => { h.running3 with digAgain := [{ ext := false, arg := 3, nextAt := 7 }] })).hub.digTiles.active = false ∧ ((on (fun h => { h.running3 with digAgain := [{ ext := false, arg := 3, nextAt := 7 }] })).hub.dom (Da.slot ({ ext := false, arg := 3, nextAt := 7 } : Again).arg)).st ≠ .empty ∧ Da.fed ({ ext := false, arg := 3, nextAt := 7 } : Again).arg = false) ∧
    ((on (fun h => (h.running3.setTend 1 { st := Ts.UP }).wr F.FED_CTRL_EN 1)).hub.calm = true ∧ (on (fun h => (h.running3.setTend 1 { st := Ts.UP }).wr F.FED_CTRL_EN 1)).hub.takesFrame ({ tendril := 1, dest := 130, src := 131 } : Hdr2) Op.DIGEST = true ∧ (on (fun h => (h.running3.setTend 1 { st := Ts.UP }).wr F.FED_CTRL_EN 1)).hub.flag F.FED_CTRL_EN = true ∧ (on (fun h => (h.running3.setTend 1 { st := Ts.UP }).wr F.FED_CTRL_EN 1)).hub.isSafe = false ∧ (on (fun h => (h.running3.setTend 1 { st := Ts.UP }).wr F.FED_CTRL_EN 1)).hub.openSlots.find? (fun y => ((on (fun h => (h.running3.setTend 1 { st := Ts.UP }).wr F.FED_CTRL_EN 1)).hub.dom y).tag == (0#16 : BitVec 16).toNat) = some (3 : Nat) ∧ (3 : Nat) < 64 ∧ (on (fun h => (h.running3.setTend 1 { st := Ts.UP }).wr F.FED_CTRL_EN 1)).hub.digTiles.active = false) := by
  and_intros <;> decide +kernel

/-- The hypotheses of the_numeric_watch_collects_at_the_end_of_its_window can be met, clause by clause. -/
theorem witness_the_numeric_watch_collects_at_the_end_of_its_window :
    ((on (fun h => { (h.running3.wr F.NUMW_CTRL_EN 1).setTile 5 { st := .inContext, slot := 3, numw := [4, 5] } with time := { h.time with gcn := 1000000000 } })).hub.calm = true ∧ (on (fun h => { (h.running3.wr F.NUMW_CTRL_EN 1).setTile 5 { st := .inContext, slot := 3, numw := [4, 5] } with time := { h.time with gcn := 1000000000 } })).hub.flag F.NUMW_CTRL_EN = true ∧ (on (fun h => { (h.running3.wr F.NUMW_CTRL_EN 1).setTile 5 { st := .inContext, slot := 3, numw := [4, 5] } with time := { h.time with gcn := 1000000000 } })).hub.numwEnd ≤ (on (fun h => { (h.running3.wr F.NUMW_CTRL_EN 1).setTile 5 { st := .inContext, slot := 3, numw := [4, 5] } with time := { h.time with gcn := 1000000000 } })).hub.now ∧ (on (fun h => { (h.running3.wr F.NUMW_CTRL_EN 1).setTile 5 { st := .inContext, slot := 3, numw := [4, 5] } with time := { h.time with gcn := 1000000000 } })).hub.openSlots = [(3 : Nat)] ∧ (5 : Nat) ∈ (on (fun h => { (h.running3.wr F.NUMW_CTRL_EN 1).setTile 5 { st := .inContext, slot := 3, numw := [4, 5] } with time := { h.time with gcn := 1000000000 } })).hub.slotTiles (3 : Nat) ∧ (1 : Nat) < 8) ∧
    ((on (fun h => h.running3.wr F.NUMW_SEL_SLOT 3)).hub.calm = true ∧ (on (fun h => h.running3.wr F.NUMW_SEL_SLOT 3)).hub.takesWrite (.mgmt : Req) R.NUMW_CMD 1 = true ∧ (on (fun h => h.running3.wr F.NUMW_SEL_SLOT 3)).hub.numwCheck 1 = St.OK ∧ (on (fun h => h.running3.wr F.NUMW_SEL_SLOT 3)).hub.rd F.NUMW_SEL_SLOT = (3 : Nat) ∧ (on (fun h => h.running3.wr F.NUMW_SEL_SLOT 3)).hub.rd F.NUMW_SEL_KIND = (0 : Nat)) ∧
    ((on (fun h => h.setNumw 3 1 { total := 7 })).hub.calm = true ∧ (on (fun h => h.setNumw 3 1 { total := 7 })).hub.takesWrite (.mgmt : Req) R.NUMW_CMD 2 = true ∧ (on (fun h => h.setNumw 3 1 { total := 7 })).hub.numwCheck 2 = St.OK) := by
  and_intros <;> decide +kernel

/-- The hypotheses of beats_audits_and_timers_find_faults can be met, clause by clause. -/
theorem witness_beats_audits_and_timers_find_faults :
    ((on (fun h => ((h.running3.wr F.HANG_CTRL_BEAT_EN 1).wrB F.HANG_MON_CFG_EN 3 1).setMon 3 { st := 1, timer := 77 })).hub.calm = true ∧ (on (fun h => ((h.running3.wr F.HANG_CTRL_BEAT_EN 1).wrB F.HANG_MON_CFG_EN 3 1).setMon 3 { st := 1, timer := 77 })).hub.flag F.HANG_CTRL_BEAT_EN = true ∧ ((on (fun h => ((h.running3.wr F.HANG_CTRL_BEAT_EN 1).wrB F.HANG_MON_CFG_EN 3 1).setMon 3 { st := 1, timer := 77 })).hub.dom (3 : Slot)).st ≠ .empty ∧ (on (fun h => ((h.running3.wr F.HANG_CTRL_BEAT_EN 1).wrB F.HANG_MON_CFG_EN 3 1).setMon 3 { st := 1, timer := 77 })).hub.hangCtl.beats = [] ∧ (2 : Nat) = ((on (fun h => ((h.running3.wr F.HANG_CTRL_BEAT_EN 1).wrB F.HANG_MON_CFG_EN 3 1).setMon 3 { st := 1, timer := 77 })).hub.countedTiles (3 : Slot)).length ∧ (on (fun h => ((h.running3.wr F.HANG_CTRL_BEAT_EN 1).wrB F.HANG_MON_CFG_EN 3 1).setMon 3 { st := 1, timer := 77 })).hub.rdB F.HANG_MON_CFG_EN (3 : Slot) = 1 ∧ ((on (fun h => ((h.running3.wr F.HANG_CTRL_BEAT_EN 1).wrB F.HANG_MON_CFG_EN 3 1).setMon 3 { st := 1, timer := 77 })).hub.mon (3 : Slot)).st ≠ 0) ∧
    ((on (fun h => (h.running3.wr F.HANG_CTRL_BEAT_EN 1).wrB F.HANG_MON_CFG_DIV_POLICY 3 0)).hub.calm = true ∧ (on (fun h => (h.running3.wr F.HANG_CTRL_BEAT_EN 1).wrB F.HANG_MON_CFG_DIV_POLICY 3 0)).hub.flag F.HANG_CTRL_BEAT_EN = true ∧ ((on (fun h => (h.running3.wr F.HANG_CTRL_BEAT_EN 1).wrB F.HANG_MON_CFG_DIV_POLICY 3 0)).hub.dom (3 : Slot)).st ≠ .empty ∧ ((on (fun h => (h.running3.wr F.HANG_CTRL_BEAT_EN 1).wrB F.HANG_MON_CFG_DIV_POLICY 3 0)).hub.dom (3 : Slot)).stopNow = false ∧ (on (fun h => (h.running3.wr F.HANG_CTRL_BEAT_EN 1).wrB F.HANG_MON_CFG_DIV_POLICY 3 0)).hub.hangCtl.beats = [] ∧ (1 : Nat) ≠ ((on (fun h => (h.running3.wr F.HANG_CTRL_BEAT_EN 1).wrB F.HANG_MON_CFG_DIV_POLICY 3 0)).hub.countedTiles (3 : Slot)).length ∧ (on (fun h => (h.running3.wr F.HANG_CTRL_BEAT_EN 1).wrB F.HANG_MON_CFG_DIV_POLICY 3 0)).hub.rdB F.HANG_MON_CFG_DIV_POLICY (3 : Slot) = 0) ∧
    ((on (fun h => ((h.running3.wrB F.HANG_MON_CFG_EN 3 1).wrB F.HANG_MON_CFG_BEAT_POLICY 3 0).setMon 3 { st := 1, timer := 2 ^ 40 })).hub.calm = true ∧ (on (fun h => ((h.running3.wrB F.HANG_MON_CFG_EN 3 1).wrB F.HANG_MON_CFG_BEAT_POLICY 3 0).setMon 3 { st := 1, timer := 2 ^ 40 })).hub.openSlots = [(3 : Nat)] ∧ (((on (fun h => ((h.running3.wrB F.HANG_MON_CFG_EN 3 1).wrB F.HANG_MON_CFG_BEAT_POLICY 3 0).setMon 3 { st := 1, timer := 2 ^ 40 })).hub.mon (3 : Nat)).st = 1 ∨ ((on (fun h => ((h.running3.wrB F.HANG_MON_CFG_EN 3 1).wrB F.HANG_MON_CFG_BEAT_POLICY 3 0).setMon 3 { st := 1, timer := 2 ^ 40 })).hub.mon (3 : Nat)).st = 2) ∧ (on (fun h => ((h.running3.wrB F.HANG_MON_CFG_EN 3 1).wrB F.HANG_MON_CFG_BEAT_POLICY 3 0).setMon 3 { st := 1, timer := 2 ^ 40 })).hub.rdB F.HANG_MON_CFG_EN (3 : Nat) = 1 ∧ (on (fun h => ((h.running3.wrB F.HANG_MON_CFG_EN 3 1).wrB F.HANG_MON_CFG_BEAT_POLICY 3 0).setMon 3 { st := 1, timer := 2 ^ 40 })).hub.hangThreshold (3 : Nat) < ((on (fun h => ((h.running3.wrB F.HANG_MON_CFG_EN 3 1).wrB F.HANG_MON_CFG_BEAT_POLICY 3 0).setMon 3 { st := 1, timer := 2 ^ 40 })).hub.mon (3 : Nat)).timer ∧ (on (fun h => ((h.running3.wrB F.HANG_MON_CFG_EN 3 1).wrB F.HANG_MON_CFG_BEAT_POLICY 3 0).setMon 3 { st := 1, timer := 2 ^ 40 })).hub.rdB F.HANG_MON_CFG_BEAT_POLICY (3 : Nat) = 0) ∧
    ((on (fun h => (h.running3.wr F.HANG_CTRL_STROBE_EN 1).wrB F.HANG_MON_CFG_DIV_POLICY 3 0)).hub.calm = true ∧ ((on (fun h => (h.running3.wr F.HANG_CTRL_STROBE_EN 1).wrB F.HANG_MON_CFG_DIV_POLICY 3 0)).hub.tile (5 : TileId)).readmit ≠ 2 ∧ (on (fun h => (h.running3.wr F.HANG_CTRL_STROBE_EN 1).wrB F.HANG_MON_CFG_DIV_POLICY 3 0)).hub.flag F.HANG_CTRL_STROBE_EN = true ∧ ((on (fun h => (h.running3.wr F.HANG_CTRL_STROBE_EN 1).wrB F.HANG_MON_CFG_DIV_POLICY 3 0)).hub.tile (5 : TileId)).st = .inContext ∧ ((on (fun h => (h.running3.wr F.HANG_CTRL_STROBE_EN 1).wrB F.HANG_MON_CFG_DIV_POLICY 3 0)).hub.tile (5 : TileId)).scnValid = true ∧ ((on (fun h => (h.running3.wr F.HANG_CTRL_STROBE_EN 1).wrB F.HANG_MON_CFG_DIV_POLICY 3 0)).hub.tile (5 : TileId)).strobeFault = false ∧ ((on (fun h => (h.running3.wr F.HANG_CTRL_STROBE_EN 1).wrB F.HANG_MON_CFG_DIV_POLICY 3 0)).hub.tile (5 : TileId)).slot = (3 : Nat) ∧ (on (fun h => (h.running3.wr F.HANG_CTRL_STROBE_EN 1).wrB F.HANG_MON_CFG_DIV_POLICY 3 0)).hub.rdB F.HANG_MON_CFG_DIV_POLICY (3 : Nat) = 0) ∧
    ((on (fun h => h.running3.wr F.HANG_CTRL_AUDIT_EN 1)).hub.calm = true ∧ (on (fun h => h.running3.wr F.HANG_CTRL_AUDIT_EN 1)).hub.flag F.HANG_CTRL_AUDIT_EN = true ∧ (on (fun h => h.running3.wr F.HANG_CTRL_AUDIT_EN 1)).hub.elapsed (on (fun h => h.running3.wr F.HANG_CTRL_AUDIT_EN 1)).hub.hangCtl.auditAt 16 = true ∧ ((on (fun h => h.running3.wr F.HANG_CTRL_AUDIT_EN 1)).hub.auditSlots.find? (fun y => (on (fun h => h.running3.wr F.HANG_CTRL_AUDIT_EN 1)).hub.hangCtl.auditSlot < y) <|> (on (fun h => h.running3.wr F.HANG_CTRL_AUDIT_EN 1)).hub.auditSlots.head?) = some (3 : Nat)) ∧
    ((on (fun h => { h.running3 with hangCtl := { audits := [{ slot := 3, diffs := some [] }] } })).hub.calm = true ∧ (on (fun h => { h.running3 with hangCtl := { audits := [{ slot := 3, diffs := some [] }] } })).hub.hangCtl.audits = ({ slot := 3, diffs := some [] } : Audit) :: ([] : List Audit) ∧ ({ slot := 3, diffs := some [] } : Audit).diffs = some [] ∧ (({ slot := 3, diffs := some [] } : Audit).names = true ∨ ((on (fun h => { h.running3 with hangCtl := { audits := [{ slot := 3, diffs := some [] }] } })).hub.mon ({ slot := 3, diffs := some [] } : Audit).slot).st ≠ 3)) ∧
    ((on (fun h => { h.running3.wrB F.HANG_MON_CFG_DIV_POLICY 3 0 with hangCtl := { audits := [{ slot := 3, diffs := some [(5, -2)] }] } })).hub.calm = true ∧ (on (fun h => { h.running3.wrB F.HANG_MON_CFG_DIV_POLICY 3 0 with hangCtl := { audits := [{ slot := 3, diffs := some [(5, -2)] }] } })).hub.hangCtl.audits = ({ slot := 3, diffs := some [(5, -2)] } : Audit) :: ([] : List Audit) ∧ ({ slot := 3, diffs := some [(5, -2)] } : Audit).diffs = some (((5, -2) : Nat × Int) :: ([] : List (Nat × Int))) ∧ ({ slot := 3, diffs := some [(5, -2)] } : Audit).names = false ∧ ((on (fun h => { h.running3.wrB F.HANG_MON_CFG_DIV_POLICY 3 0 with hangCtl := { audits := [{ slot := 3, diffs := some [(5, -2)] }] } })).hub.mon ({ slot := 3, diffs := some [(5, -2)] } : Audit).slot).st ≠ 3 ∧ (on (fun h => { h.running3.wrB F.HANG_MON_CFG_DIV_POLICY 3 0 with hangCtl := { audits := [{ slot := 3, diffs := some [(5, -2)] }] } })).hub.rdB F.HANG_MON_CFG_DIV_POLICY ({ slot := 3, diffs := some [(5, -2)] } : Audit).slot = 0) ∧
    ((on (fun h => { (h.running3.setMon 3 { st := 3 }).wr F.HANG_LAST_FAULT_SLOT 3 with hangCtl := { audits := [{ slot := 3, diffs := some [(5, -2)] }] } })).hub.calm = true ∧ (on (fun h => { (h.running3.setMon 3 { st := 3 }).wr F.HANG_LAST_FAULT_SLOT 3 with hangCtl := { audits := [{ slot := 3, diffs := some [(5, -2)] }] } })).hub.hangCtl.audits = ({ slot := 3, diffs := some [(5, -2)] } : Audit) :: ([] : List Audit) ∧ ({ slot := 3, diffs := some [(5, -2)] } : Audit).diffs = some ([(5, -2)] : List (Nat × Int)) ∧ ({ slot := 3, diffs := some [(5, -2)] } : Audit).names = false ∧ ((on (fun h => { (h.running3.setMon 3 { st := 3 }).wr F.HANG_LAST_FAULT_SLOT 3 with hangCtl := { audits := [{ slot := 3, diffs := some [(5, -2)] }] } })).hub.mon ({ slot := 3, diffs := some [(5, -2)] } : Audit).slot).st = 3 ∧ (on (fun h => { (h.running3.setMon 3 { st := 3 }).wr F.HANG_LAST_FAULT_SLOT 3 with hangCtl := { audits := [{ slot := 3, diffs := some [(5, -2)] }] } })).hub.rd F.HANG_LAST_FAULT_SLOT = ({ slot := 3, diffs := some [(5, -2)] } : Audit).slot) ∧
    ((on (fun h => { h.running3 with hangCtl := { audits := [{ slot := 3, diffs := some [(5, -2)] }] } })).hub.calm = true ∧ (on (fun h => { h.running3 with hangCtl := { audits := [{ slot := 3, diffs := some [(5, -2)] }] } })).hub.hangCtl.audits = ({ slot := 3, diffs := some [(5, -2)] } : Audit) :: ([] : List Audit) ∧ ({ slot := 3, diffs := some [(5, -2)] } : Audit).diffs = some ([(5, -2)] : List (Nat × Int))) := by
  and_intros <;> decide +kernel

/-- The hypotheses of fences_are_asked_for_drained_and_released can be met, clause by clause. -/
theorem witness_fences_are_asked_for_drained_and_released :
    ((on (fun h => (h.running3.wr F.HANG_ARG_SLOT 3))).hub.calm = true ∧ (on (fun h => (h.running3.wr F.HANG_ARG_SLOT 3))).hub.takesWrite (.mgmt : Req) R.HANG_CMD 1 = true ∧ (on (fun h => (h.running3.wr F.HANG_ARG_SLOT 3))).hub.hangCheck 1 = St.OK ∧ (on (fun h => (h.running3.wr F.HANG_ARG_SLOT 3))).hub.rd F.HANG_ARG_SLOT = (3 : Nat) ∧ ((on (fun h => (h.running3.wr F.HANG_ARG_SLOT 3))).hub.mon (3 : Nat)).fenceAt = none) ∧
    ((on (fun h => (h.stopped3.wr F.HANG_ARG_SLOT 3).setMon 3 { fenceAt := some 5 })).hub.calm = true ∧ (on (fun h => (h.stopped3.wr F.HANG_ARG_SLOT 3).setMon 3 { fenceAt := some 5 })).hub.takesWrite (.mgmt : Req) R.HANG_CMD 2 = true ∧ (on (fun h => (h.stopped3.wr F.HANG_ARG_SLOT 3).setMon 3 { fenceAt := some 5 })).hub.hangCheck 2 = St.OK ∧ (on (fun h => (h.stopped3.wr F.HANG_ARG_SLOT 3).setMon 3 { fenceAt := some 5 })).hub.rd F.HANG_ARG_SLOT = (3 : Nat)) ∧
    ((on (fun h => (h.running3.wr F.HANG_ARG_SLOT 3).setMon 3 { st := 3 })).hub.calm = true ∧ (on (fun h => (h.running3.wr F.HANG_ARG_SLOT 3).setMon 3 { st := 3 })).hub.takesWrite (.mgmt : Req) R.HANG_CMD 3 = true ∧ (on (fun h => (h.running3.wr F.HANG_ARG_SLOT 3).setMon 3 { st := 3 })).hub.hangCheck 3 = St.OK ∧ (on (fun h => (h.running3.wr F.HANG_ARG_SLOT 3).setMon 3 { st := 3 })).hub.rd F.HANG_ARG_SLOT = (3 : Nat) ∧ ((on (fun h => (h.running3.wr F.HANG_ARG_SLOT 3).setMon 3 { st := 3 })).hub.mon (3 : Nat)).st = 3) ∧
    ((on (fun h => (h.running3.wr F.HANG_ARG_SLOT 3).setMon 3 { durs := [4] })).hub.calm = true ∧ (on (fun h => (h.running3.wr F.HANG_ARG_SLOT 3).setMon 3 { durs := [4] })).hub.takesWrite (.mgmt : Req) R.HANG_CMD 4 = true ∧ (on (fun h => (h.running3.wr F.HANG_ARG_SLOT 3).setMon 3 { durs := [4] })).hub.hangCheck 4 = St.OK ∧ (on (fun h => (h.running3.wr F.HANG_ARG_SLOT 3).setMon 3 { durs := [4] })).hub.rd F.HANG_ARG_SLOT = (3 : Nat)) ∧
    ((on (fun h => (h.running3.wr F.HANG_ARG_SLOT 3).setReg R.HANG_DIV_COUNT 4)).hub.calm = true ∧ (on (fun h => (h.running3.wr F.HANG_ARG_SLOT 3).setReg R.HANG_DIV_COUNT 4)).hub.takesWrite (.mgmt : Req) R.HANG_CMD 5 = true ∧ (on (fun h => (h.running3.wr F.HANG_ARG_SLOT 3).setReg R.HANG_DIV_COUNT 4)).hub.hangCheck 5 = St.OK ∧ (on (fun h => (h.running3.wr F.HANG_ARG_SLOT 3).setReg R.HANG_DIV_COUNT 4)).hub.rd F.HANG_ARG_SLOT = (3 : Nat)) ∧
    ((on (fun h => h.running3.setMon 3 { fenceAt := some 5 })).hub.calm = true ∧ ((on (fun h => h.running3.setMon 3 { fenceAt := some 5 })).hub.mon (3 : Slot)).fenceAt.isSome = true ∧ ((on (fun h => h.running3.setMon 3 { fenceAt := some 5 })).hub.mon (3 : Slot)).fenced = false ∧ ((on (fun h => h.running3.setMon 3 { fenceAt := some 5 })).hub.mon (3 : Slot)).policy = 0) ∧
    ((on (fun h => { h.running3.setMon 3 { fenceAt := some 5 } with time := { h.time with hclk := 2000000000 } })).hub.calm = true ∧ (3 : Nat) ∈ (on (fun h => { h.running3.setMon 3 { fenceAt := some 5 } with time := { h.time with hclk := 2000000000 } })).hub.hang.keys ∧ ((on (fun h => { h.running3.setMon 3 { fenceAt := some 5 } with time := { h.time with hclk := 2000000000 } })).hub.mon (3 : Nat)).fenceAt = some (5 : Nat) ∧ ((on (fun h => { h.running3.setMon 3 { fenceAt := some 5 } with time := { h.time with hclk := 2000000000 } })).hub.mon (3 : Nat)).fenced = false ∧ ((on (fun h => { h.running3.setMon 3 { fenceAt := some 5 } with time := { h.time with hclk := 2000000000 } })).hub.mon (3 : Nat)).abandon = false ∧ (on (fun h => { h.running3.setMon 3 { fenceAt := some 5 } with time := { h.time with hclk := 2000000000 } })).hub.elapsed (5 : Nat) ((on (fun h => { h.running3.setMon 3 { fenceAt := some 5 } with time := { h.time with hclk := 2000000000 } })).hub.rd F.HANG_FENCE_DRAIN_HCLK) = true) ∧
    ((on (fun h => (h.running3.setMon 3 { abandon := true }).setTile 5 { st := .inContext, slot := 3, rdOut := 2 })).hub.calm = true ∧ ((on (fun h => (h.running3.setMon 3 { abandon := true }).setTile 5 { st := .inContext, slot := 3, rdOut := 2 })).hub.mon (3 : Slot)).abandon = true ∧ ((on (fun h => (h.running3.setMon 3 { abandon := true }).setTile 5 { st := .inContext, slot := 3, rdOut := 2 })).hub.mon (3 : Slot)).policy = 0 ∧ (5 : Nat) ∈ (on (fun h => (h.running3.setMon 3 { abandon := true }).setTile 5 { st := .inContext, slot := 3, rdOut := 2 })).hub.slotTiles (3 : Slot) ∧ (((on (fun h => (h.running3.setMon 3 { abandon := true }).setTile 5 { st := .inContext, slot := 3, rdOut := 2 })).hub.tile (5 : Nat)).rdOut ≠ 0 ∨ ((on (fun h => (h.running3.setMon 3 { abandon := true }).setTile 5 { st := .inContext, slot := 3, rdOut := 2 })).hub.tile (5 : Nat)).wrOut ≠ 0)) ∧
    ((on (fun h => { (h.running3.setMon 3 { fenceAt := some 5 }).wr F.RSET_CTRL_AUTO_EN 0 with time := { h.time with hclk := 2 ^ 40 } })).hub.calm = true ∧ (on (fun h => { (h.running3.setMon 3 { fenceAt := some 5 }).wr F.RSET_CTRL_AUTO_EN 0 with time := { h.time with hclk := 2 ^ 40 } })).hub.hang.keys.filter (fun y => ((on (fun h => { (h.running3.setMon 3 { fenceAt := some 5 }).wr F.RSET_CTRL_AUTO_EN 0 with time := { h.time with hclk := 2 ^ 40 } })).hub.mon y).fenceAt.isSome && (on (fun h => { (h.running3.setMon 3 { fenceAt := some 5 }).wr F.RSET_CTRL_AUTO_EN 0 with time := { h.time with hclk := 2 ^ 40 } })).hub.fenceOver y) = [(3 : Nat)] ∧ ((on (fun h => { (h.running3.setMon 3 { fenceAt := some 5 }).wr F.RSET_CTRL_AUTO_EN 0 with time := { h.time with hclk := 2 ^ 40 } })).hub.mon (3 : Nat)).fenceAt = some (5 : Nat) ∧ ((on (fun h => { (h.running3.setMon 3 { fenceAt := some 5 }).wr F.RSET_CTRL_AUTO_EN 0 with time := { h.time with hclk := 2 ^ 40 } })).hub.mon (3 : Nat)).policy = 0 ∧ (on (fun h => { (h.running3.setMon 3 { fenceAt := some 5 }).wr F.RSET_CTRL_AUTO_EN 0 with time := { h.time with hclk := 2 ^ 40 } })).hub.flag F.RSET_CTRL_AUTO_EN = false) ∧
    ((on (fun h => h.running3.setMon 3 { fenceAt := some 5 })).hub.calm = true ∧ ((on (fun h => h.running3.setMon 3 { fenceAt := some 5 })).hub.mon (3 : Slot)).fenceAt = some (5 : Nat) ∧ ((on (fun h => h.running3.setMon 3 { fenceAt := some 5 })).hub.mon (3 : Slot)).fenceAck = false ∧ (on (fun h => h.running3.setMon 3 { fenceAt := some 5 })).hub.elapsed (5 : Nat) 64 = true) ∧
    ((on (fun h => h.stopped3.cellar1.setMon 3 { policy := 2, pstep := 2, retryAt := 7, fenceAt := some 5, fenced := true })).hub.calm = true ∧ (on (fun h => h.stopped3.cellar1.setMon 3 { policy := 2, pstep := 2, retryAt := 7, fenceAt := some 5, fenced := true })).hub.hang.cells = [((3 : Nat), ({ policy := 2, pstep := 2, retryAt := 7, fenceAt := some 5, fenced := true } : Monitor))] ∧ ({ policy := 2, pstep := 2, retryAt := 7, fenceAt := some 5, fenced := true } : Monitor).policy ≠ 0 ∧ ({ policy := 2, pstep := 2, retryAt := 7, fenceAt := some 5, fenced := true } : Monitor).pstep = 2 ∧ ({ policy := 2, pstep := 2, retryAt := 7, fenceAt := some 5, fenced := true } : Monitor).retryAt ≠ 0 ∧ ({ policy := 2, pstep := 2, retryAt := 7, fenceAt := some 5, fenced := true } : Monitor).retryAt ≤ (on (fun h => h.stopped3.cellar1.setMon 3 { policy := 2, pstep := 2, retryAt := 7, fenceAt := some 5, fenced := true })).hub.time.hclk ∧ (on (fun h => h.stopped3.cellar1.setMon 3 { policy := 2, pstep := 2, retryAt := 7, fenceAt := some 5, fenced := true })).hub.fenceOver (3 : Nat) = false ∧ (on (fun h => h.stopped3.cellar1.setMon 3 { policy := 2, pstep := 2, retryAt := 7, fenceAt := some 5, fenced := true })).hub.hangCtl.peers = [] ∧ (on (fun h => h.stopped3.cellar1.setMon 3 { policy := 2, pstep := 2, retryAt := 7, fenceAt := some 5, fenced := true })).hub.rdB F.HANG_MON_CFG_FED (3 : Nat) = 0 ∧ (on (fun h => h.stopped3.cellar1.setMon 3 { policy := 2, pstep := 2, retryAt := 7, fenceAt := some 5, fenced := true })).hub.harvCheck ((on (fun h => h.stopped3.cellar1.setMon 3 { policy := 2, pstep := 2, retryAt := 7, fenceAt := some 5, fenced := true })).hub.policyReq (3 : Nat)) = St.OK) := by
  and_intros <;> decide +kernel

/-- The hypotheses of the_ladder_resets_isolates_and_readmits can be met, clause by clause. -/
theorem witness_the_ladder_resets_isolates_and_readmits :
    ((on (fun h => (((h.stopped3.wr F.RSET_ARG_LEVEL 0).wr F.RSET_ARG_SLOT 3).wr F.RSET_ARG_TILE 4))).hub.calm = true ∧ (on (fun h => (((h.stopped3.wr F.RSET_ARG_LEVEL 0).wr F.RSET_ARG_SLOT 3).wr F.RSET_ARG_TILE 4))).hub.takesWrite (.mgmt : Req) R.RSET_CMD 1 = true ∧ (on (fun h => (((h.stopped3.wr F.RSET_ARG_LEVEL 0).wr F.RSET_ARG_SLOT 3).wr F.RSET_ARG_TILE 4))).hub.rsetCheck (.mgmt : Req) 1 = St.OK ∧ (on (fun h => (((h.stopped3.wr F.RSET_ARG_LEVEL 0).wr F.RSET_ARG_SLOT 3).wr F.RSET_ARG_TILE 4))).hub.rd F.RSET_ARG_LEVEL = Lv.CONTEXT ∧ (on (fun h => (((h.stopped3.wr F.RSET_ARG_LEVEL 0).wr F.RSET_ARG_SLOT 3).wr F.RSET_ARG_TILE 4))).hub.rd F.RSET_ARG_SLOT = (3 : Nat) ∧ (on (fun h => (((h.stopped3.wr F.RSET_ARG_LEVEL 0).wr F.RSET_ARG_SLOT 3).wr F.RSET_ARG_TILE 4))).hub.slotHeld (3 : Nat) = false ∧ ((on (fun h => (((h.stopped3.wr F.RSET_ARG_LEVEL 0).wr F.RSET_ARG_SLOT 3).wr F.RSET_ARG_TILE 4))).hub.mon (3 : Nat)).fenceAt = none ∧ ((on (fun h => (((h.stopped3.wr F.RSET_ARG_LEVEL 0).wr F.RSET_ARG_SLOT 3).wr F.RSET_ARG_TILE 4))).hub.mon (3 : Nat)).fenced = false ∧ ((on (fun h => (((h.stopped3.wr F.RSET_ARG_LEVEL 0).wr F.RSET_ARG_SLOT 3).wr F.RSET_ARG_TILE 4))).hub.ladder.active = false ∨ ((on (fun h => (((h.stopped3.wr F.RSET_ARG_LEVEL 0).wr F.RSET_ARG_SLOT 3).wr F.RSET_ARG_TILE 4))).hub.mon (on (fun h => (((h.stopped3.wr F.RSET_ARG_LEVEL 0).wr F.RSET_ARG_SLOT 3).wr F.RSET_ARG_TILE 4))).hub.ladder.slot).policy = 0)) ∧
    ((on (fun h => (((h.stopped3.wr F.RSET_ARG_LEVEL 0).wr F.RSET_ARG_SLOT 3).wr F.RSET_ARG_TILE 4))).hub.calm = true ∧ (on (fun h => (((h.stopped3.wr F.RSET_ARG_LEVEL 0).wr F.RSET_ARG_SLOT 3).wr F.RSET_ARG_TILE 4))).hub.takesWrite (.mgmt : Req) R.RSET_CMD 2 = true ∧ (on (fun h => (((h.stopped3.wr F.RSET_ARG_LEVEL 0).wr F.RSET_ARG_SLOT 3).wr F.RSET_ARG_TILE 4))).hub.rsetCheck (.mgmt : Req) 2 = St.OK ∧ (on (fun h => (((h.stopped3.wr F.RSET_ARG_LEVEL 0).wr F.RSET_ARG_SLOT 3).wr F.RSET_ARG_TILE 4))).hub.rd F.RSET_ARG_TILE = (4 : Nat) ∧ (on (fun h => (((h.stopped3.wr F.RSET_ARG_LEVEL 0).wr F.RSET_ARG_SLOT 3).wr F.RSET_ARG_TILE 4))).hub.bist.runs = [] ∧ (on (fun h => (((h.stopped3.wr F.RSET_ARG_LEVEL 0).wr F.RSET_ARG_SLOT 3).wr F.RSET_ARG_TILE 4))).hub.digTiles.active = false ∧ ((on (fun h => (((h.stopped3.wr F.RSET_ARG_LEVEL 0).wr F.RSET_ARG_SLOT 3).wr F.RSET_ARG_TILE 4))).hub.tile (4 : Nat)).taste = none ∧ ((on (fun h => (((h.stopped3.wr F.RSET_ARG_LEVEL 0).wr F.RSET_ARG_SLOT 3).wr F.RSET_ARG_TILE 4))).hub.tile (4 : Nat)).inReset = false) ∧
    ((on (fun h => (((h.stopped3.wr F.RSET_ARG_LEVEL 0).wr F.RSET_ARG_SLOT 3).wr F.RSET_ARG_TILE 4).setTile 4 { st := .outOfService, isolated := true })).hub.calm = true ∧ (on (fun h => (((h.stopped3.wr F.RSET_ARG_LEVEL 0).wr F.RSET_ARG_SLOT 3).wr F.RSET_ARG_TILE 4).setTile 4 { st := .outOfService, isolated := true })).hub.takesWrite (.mgmt : Req) R.RSET_CMD 3 = true ∧ (on (fun h => (((h.stopped3.wr F.RSET_ARG_LEVEL 0).wr F.RSET_ARG_SLOT 3).wr F.RSET_ARG_TILE 4).setTile 4 { st := .outOfService, isolated := true })).hub.rsetCheck (.mgmt : Req) 3 = St.OK ∧ (on (fun h => (((h.stopped3.wr F.RSET_ARG_LEVEL 0).wr F.RSET_ARG_SLOT 3).wr F.RSET_ARG_TILE 4).setTile 4 { st := .outOfService, isolated := true })).hub.rd F.RSET_ARG_TILE = (4 : Nat) ∧ (on (fun h => (((h.stopped3.wr F.RSET_ARG_LEVEL 0).wr F.RSET_ARG_SLOT 3).wr F.RSET_ARG_TILE 4).setTile 4 { st := .outOfService, isolated := true })).hub.digTiles.active = false ∧ ((on (fun h => (((h.stopped3.wr F.RSET_ARG_LEVEL 0).wr F.RSET_ARG_SLOT 3).wr F.RSET_ARG_TILE 4).setTile 4 { st := .outOfService, isolated := true })).hub.tile (4 : Nat)).taste = none ∧ (on (fun h => (((h.stopped3.wr F.RSET_ARG_LEVEL 0).wr F.RSET_ARG_SLOT 3).wr F.RSET_ARG_TILE 4).setTile 4 { st := .outOfService, isolated := true })).hub.takePack Bt.TILE = ((none : Option Nat), (on (fun h => (((h.stopped3.wr F.RSET_ARG_LEVEL 0).wr F.RSET_ARG_SLOT 3).wr F.RSET_ARG_TILE 4).setTile 4 { st := .outOfService, isolated := true })).hub)) ∧
    ((on (fun h => { h with ladder := { counts := ⟨[(0, 4)]⟩ } })).hub.calm = true ∧ (on (fun h => { h with ladder := { counts := ⟨[(0, 4)]⟩ } })).hub.takesWrite (.mgmt : Req) R.RSET_CMD 4 = true ∧ (on (fun h => { h with ladder := { counts := ⟨[(0, 4)]⟩ } })).hub.rsetCheck (.mgmt : Req) 4 = St.OK) ∧
    ((on (fun h => h.setTile 4 { st := .parked, inReset := true })).hub.calm = true ∧ (on (fun h => h.setTile 4 { st := .parked, inReset := true })).hub.resetDone (4 : TileId) = true ∧ ((on (fun h => h.setTile 4 { st := .parked, inReset := true })).hub.tile (4 : TileId)).readmit ≠ 2 ∧ ((on (fun h => h.setTile 4 { st := .parked, inReset := true })).hub.tile (4 : TileId)).st = .parked ∧ (on (fun h => h.setTile 4 { st := .parked, inReset := true })).hub.ladder.isolateAfter = none) ∧
    ((on (fun h => h.setTile 4 { st := .outOfService, inReset := true, readmit := 2 })).hub.calm = true ∧ (on (fun h => h.setTile 4 { st := .outOfService, inReset := true, readmit := 2 })).hub.resetDone (4 : TileId) = true ∧ ((on (fun h => h.setTile 4 { st := .outOfService, inReset := true, readmit := 2 })).hub.tile (4 : TileId)).readmit = 2) ∧
    ((on (fun h => h.setTile 4 { inReset := true })).hub.calm = true ∧ ((on (fun h => h.setTile 4 { inReset := true })).hub.tile (4 : TileId)).inReset = true ∧ ((on (fun h => h.setTile 4 { inReset := true })).hub.tile (4 : TileId)).isolated = false ∧ (on (fun h => h.setTile 4 { inReset := true })).hub.elapsed ((on (fun h => h.setTile 4 { inReset := true })).hub.tile (4 : TileId)).resetAt ((on (fun h => h.setTile 4 { inReset := true })).hub.tclks (4 : TileId) 4096) = true ∧ ((on (fun h => h.setTile 4 { inReset := true })).hub.tile (4 : TileId)).readmit ≠ 2) ∧
    ((on (fun h => h.setTile 4 { st := .outOfService, watchAt := some 5, watchWhy := 1 })).hub.calm = true ∧ ((on (fun h => h.setTile 4 { st := .outOfService, watchAt := some 5, watchWhy := 1 })).hub.tile (4 : TileId)).watchAt = some (5 : Nat) ∧ (on (fun h => h.setTile 4 { st := .outOfService, watchAt := some 5, watchWhy := 1 })).hub.elapsed (5 : Nat) 256 = true ∧ ((on (fun h => h.setTile 4 { st := .outOfService, watchAt := some 5, watchWhy := 1 })).hub.tile (4 : TileId)).strobeSeen = false) ∧
    ((on (fun h => h.setTile 4 { st := .outOfService, watchAt := some 5 })).hub.calm = true ∧ ((on (fun h => h.setTile 4 { st := .outOfService, watchAt := some 5 })).hub.tile (4 : TileId)).watchAt = some (5 : Nat) ∧ (on (fun h => h.setTile 4 { st := .outOfService, watchAt := some 5 })).hub.elapsed (5 : Nat) 256 = true) ∧
    ((on (fun h => { h.setMon 3 { fenceAt := some 5 } with ladder := { active := true, begun := true, slot := 3 } })).hub.calm = true ∧ (on (fun h => { h.setMon 3 { fenceAt := some 5 } with ladder := { active := true, begun := true, slot := 3 } })).hub.levelOver = true ∧ (on (fun h => { h.setMon 3 { fenceAt := some 5 } with ladder := { active := true, begun := true, slot := 3 } })).hub.ladder.failed = none ∧ (on (fun h => { h.setMon 3 { fenceAt := some 5 } with ladder := { active := true, begun := true, slot := 3 } })).hub.ladder.level = Lv.CONTEXT ∧ (on (fun h => { h.setMon 3 { fenceAt := some 5 } with ladder := { active := true, begun := true, slot := 3 } })).hub.ladder.slot = (3 : Nat) ∧ (on (fun h => { h.setMon 3 { fenceAt := some 5 } with ladder := { active := true, begun := true, slot := 3 } })).hub.ladder.next = [] ∧ (on (fun h => { h.setMon 3 { fenceAt := some 5 } with ladder := { active := true, begun := true, slot := 3 } })).hub.ladder.reportTo = none ∧ ((on (fun h => { h.setMon 3 { fenceAt := some 5 } with ladder := { active := true, begun := true, slot := 3 } })).hub.mon (3 : Nat)).policy = 0 ∧ ((on (fun h => { h.setMon 3 { fenceAt := some 5 } with ladder := { active := true, begun := true, slot := 3 } })).hub.dom (3 : Nat)).st = .empty) ∧
    ({ (on (fun h => { h.wr F.RSET_CTRL_AUTO_EN 0 with ladder := { active := true, level := 3 }, time := { h.time with hclk := 70000000 } })).hub with ladder := {} }.calm = true ∧ (on (fun h => { h.wr F.RSET_CTRL_AUTO_EN 0 with ladder := { active := true, level := 3 }, time := { h.time with hclk := 70000000 } })).hub.ladder.active = true ∧ (on (fun h => { h.wr F.RSET_CTRL_AUTO_EN 0 with ladder := { active := true, level := 3 }, time := { h.time with hclk := 70000000 } })).hub.ladder.level = Lv.FIELD ∧ (on (fun h => { h.wr F.RSET_CTRL_AUTO_EN 0 with ladder := { active := true, level := 3 }, time := { h.time with hclk := 70000000 } })).hub.elapsed (on (fun h => { h.wr F.RSET_CTRL_AUTO_EN 0 with ladder := { active := true, level := 3 }, time := { h.time with hclk := 70000000 } })).hub.ladder.since 62500000 = true ∧ (on (fun h => { h.wr F.RSET_CTRL_AUTO_EN 0 with ladder := { active := true, level := 3 }, time := { h.time with hclk := 70000000 } })).hub.flag F.RSET_CTRL_AUTO_EN = false ∧ (on (fun h => { h.wr F.RSET_CTRL_AUTO_EN 0 with ladder := { active := true, level := 3 }, time := { h.time with hclk := 70000000 } })).hub.ladder.next = [] ∧ ((on (fun h => { h.wr F.RSET_CTRL_AUTO_EN 0 with ladder := { active := true, level := 3 }, time := { h.time with hclk := 70000000 } })).hub.mon (on (fun h => { h.wr F.RSET_CTRL_AUTO_EN 0 with ladder := { active := true, level := 3 }, time := { h.time with hclk := 70000000 } })).hub.ladder.slot).policy = 0) := by
  and_intros <;> decide +kernel

/-- The hypotheses of hubs_order_levels_and_report_lost_packages can be met, clause by clause. -/
theorem witness_hubs_order_levels_and_report_lost_packages :
    ((on (fun h => { h.setTend 1 { st := Ts.UP } with ladder := { hubsLeft := [131, 132] } })).hub.calm = true ∧ (on (fun h => { h.setTend 1 { st := Ts.UP } with ladder := { hubsLeft := [131, 132] } })).hub.takesFrame ({ tendril := 1, dest := 130, src := 131 } : Hdr2) Op.LADDER = true ∧ (on (fun h => { h.setTend 1 { st := Ts.UP } with ladder := { hubsLeft := [131, 132] } })).hub.hangCtl.peers = []) ∧
    ((on (fun h => h.stopped3.setTend 1 { st := Ts.UP })).hub.calm = true ∧ (on (fun h => h.stopped3.setTend 1 { st := Ts.UP })).hub.takesFrame ({ tendril := 1, dest := 130, src := 131 } : Hdr2) Op.LADDER = true ∧ (on (fun h => h.stopped3.setTend 1 { st := Ts.UP })).hub.ladder.active = false ∧ (on (fun h => h.stopped3.setTend 1 { st := Ts.UP })).hub.openSlots.filter (fun y => ((on (fun h => h.stopped3.setTend 1 { st := Ts.UP })).hub.dom y).tag == (0#16 : BitVec 16).toNat) = [(3 : Nat)] ∧ (on (fun h => h.stopped3.setTend 1 { st := Ts.UP })).hub.slotHeld (3 : Nat) = false ∧ ((on (fun h => h.stopped3.setTend 1 { st := Ts.UP })).hub.mon (3 : Nat)).fenceAt = none ∧ ((on (fun h => h.stopped3.setTend 1 { st := Ts.UP })).hub.mon (3 : Nat)).fenced = false) ∧
    ((on (fun h => h.wr F.HANG_PEER_DEFAULT_POLICY 0)).hub.calm = true ∧ (on (fun h => h.wr F.HANG_PEER_DEFAULT_POLICY 0)).hub.isLead = true ∧ (on (fun h => h.wr F.HANG_PEER_DEFAULT_POLICY 0)).hub.isSafe = false ∧ (on (fun h => h.wr F.HANG_PEER_DEFAULT_POLICY 0)).hub.peerSeen (2 : Fin 16) ((([7#16] : List (BitVec 16)).map BitVec.toNat).take 16) = false ∧ (on (fun h => h.wr F.HANG_PEER_DEFAULT_POLICY 0)).hub.corks = [] ∧ (on (fun h => h.wr F.HANG_PEER_DEFAULT_POLICY 0)).hub.rd F.HANG_PEER_DEFAULT_POLICY = 0 ∧ (List.range 16).all (fun i => (on (fun h => h.wr F.HANG_PEER_DEFAULT_POLICY 0)).hub.rdB F.HANG_PEER_POLICY_VALID i != 1) = true) ∧
    ((on (fun h => h.setTend 1 { st := Ts.UP })).hub.calm = true ∧ (on (fun h => h.setTend 1 { st := Ts.UP })).hub.takesFrame ({ tendril := 1, dest := 130, src := 131 } : Hdr2) Op.PEER_LOST = true ∧ (List.range (least 5 (1#8 : BitVec 8).toNat)).map (fun i => bitsOf (7#80 : BitVec 80).toNat (16 * i) 16) = ([7] : List Nat) ∧ (on (fun h => h.setTend 1 { st := Ts.UP })).hub.peerSeen (2#8 : BitVec 8).toNat ([7] : List Nat) = false) ∧
    ((on (fun h => { h with hangCtl := { peers := [{ tag := 7, pkg := 2, policy := 1, step := 4 }] } })).hub.calm = true ∧ (on (fun h => { h with hangCtl := { peers := [{ tag := 7, pkg := 2, policy := 1, step := 4 }] } })).hub.hangCtl.peers.filter (fun q => q.step == 4) = [({ tag := 7, pkg := 2, policy := 1, step := 4 } : Peer)] ∧ ({ tag := 7, pkg := 2, policy := 1, step := 4 } : Peer).status ≠ St.BAD_ARG) := by
  and_intros <;> decide +kernel

/-- The hypotheses of bist_runs_packs_results_and_the_tap can be met, clause by clause. -/
theorem witness_bist_runs_packs_results_and_the_tap :
    ((on (fun h => { (h.wr F.BIST_ARG_TARGET 1).wr F.BIST_ARG_UNIT 2 with boot := { h.boot with life := Life.RETURN } })).hub.calm = true ∧ (on (fun h => { (h.wr F.BIST_ARG_TARGET 1).wr F.BIST_ARG_UNIT 2 with boot := { h.boot with life := Life.RETURN } })).hub.takesWrite (.mgmt : Req) R.BIST_CMD 1 = true ∧ (on (fun h => { (h.wr F.BIST_ARG_TARGET 1).wr F.BIST_ARG_UNIT 2 with boot := { h.boot with life := Life.RETURN } })).hub.bistCheck (.mgmt : Req) 1 = (St.OK, 0) ∧ (on (fun h => { (h.wr F.BIST_ARG_TARGET 1).wr F.BIST_ARG_UNIT 2 with boot := { h.boot with life := Life.RETURN } })).hub.rd F.BIST_ARG_TARGET = 1 ∧ (on (fun h => { (h.wr F.BIST_ARG_TARGET 1).wr F.BIST_ARG_UNIT 2 with boot := { h.boot with life := Life.RETURN } })).hub.rd F.BIST_ARG_UNIT = (2 : Nat) ∧ (on (fun h => { (h.wr F.BIST_ARG_TARGET 1).wr F.BIST_ARG_UNIT 2 with boot := { h.boot with life := Life.RETURN } })).hub.rd F.BIST_ARG_PACK = (0 : Nat) ∧ ((on (fun h => { (h.wr F.BIST_ARG_TARGET 1).wr F.BIST_ARG_UNIT 2 with boot := { h.boot with life := Life.RETURN } })).hub.wantsPack = false ∨ packGood ((on (fun h => { (h.wr F.BIST_ARG_TARGET 1).wr F.BIST_ARG_UNIT 2 with boot := { h.boot with life := Life.RETURN } })).hub.packBytes ((on (fun h => { (h.wr F.BIST_ARG_TARGET 1).wr F.BIST_ARG_UNIT 2 with boot := { h.boot with life := Life.RETURN } })).hub.packSlot (0 : Nat)).addr) 1 = true)) ∧
    ((on (fun h => { (h.wr F.BIST_ARG_TARGET 2).wr F.BIST_ARG_UNIT 2 with boot := { h.boot with life := Life.RETURN } })).hub.calm = true ∧ (on (fun h => { (h.wr F.BIST_ARG_TARGET 2).wr F.BIST_ARG_UNIT 2 with boot := { h.boot with life := Life.RETURN } })).hub.takesWrite (.mgmt : Req) R.BIST_CMD 1 = true ∧ (on (fun h => { (h.wr F.BIST_ARG_TARGET 2).wr F.BIST_ARG_UNIT 2 with boot := { h.boot with life := Life.RETURN } })).hub.bistCheck (.mgmt : Req) 1 = (St.OK, 0) ∧ (on (fun h => { (h.wr F.BIST_ARG_TARGET 2).wr F.BIST_ARG_UNIT 2 with boot := { h.boot with life := Life.RETURN } })).hub.rd F.BIST_ARG_TARGET = 2 ∧ (on (fun h => { (h.wr F.BIST_ARG_TARGET 2).wr F.BIST_ARG_UNIT 2 with boot := { h.boot with life := Life.RETURN } })).hub.rd F.BIST_ARG_UNIT = (2 : Nat) ∧ (on (fun h => { (h.wr F.BIST_ARG_TARGET 2).wr F.BIST_ARG_UNIT 2 with boot := { h.boot with life := Life.RETURN } })).hub.rd F.BIST_ARG_PACK = (0 : Nat) ∧ ((on (fun h => { (h.wr F.BIST_ARG_TARGET 2).wr F.BIST_ARG_UNIT 2 with boot := { h.boot with life := Life.RETURN } })).hub.wantsPack = false ∨ packGood ((on (fun h => { (h.wr F.BIST_ARG_TARGET 2).wr F.BIST_ARG_UNIT 2 with boot := { h.boot with life := Life.RETURN } })).hub.packBytes ((on (fun h => { (h.wr F.BIST_ARG_TARGET 2).wr F.BIST_ARG_UNIT 2 with boot := { h.boot with life := Life.RETURN } })).hub.packSlot (0 : Nat)).addr) 2 = true) ∧ (on (fun h => { (h.wr F.BIST_ARG_TARGET 2).wr F.BIST_ARG_UNIT 2 with boot := { h.boot with life := Life.RETURN } })).hub.taste.bufs.cells = []) ∧
    ((on (fun h => { (h.wr F.BIST_ARG_TARGET 3).wr F.BIST_ARG_UNIT 2 with boot := { h.boot with life := Life.RETURN } })).hub.calm = true ∧ (on (fun h => { (h.wr F.BIST_ARG_TARGET 3).wr F.BIST_ARG_UNIT 2 with boot := { h.boot with life := Life.RETURN } })).hub.takesWrite (.mgmt : Req) R.BIST_CMD 1 = true ∧ (on (fun h => { (h.wr F.BIST_ARG_TARGET 3).wr F.BIST_ARG_UNIT 2 with boot := { h.boot with life := Life.RETURN } })).hub.bistCheck (.mgmt : Req) 1 = (St.OK, 0) ∧ (on (fun h => { (h.wr F.BIST_ARG_TARGET 3).wr F.BIST_ARG_UNIT 2 with boot := { h.boot with life := Life.RETURN } })).hub.rd F.BIST_ARG_TARGET = 3 ∧ (on (fun h => { (h.wr F.BIST_ARG_TARGET 3).wr F.BIST_ARG_UNIT 2 with boot := { h.boot with life := Life.RETURN } })).hub.rd F.BIST_ARG_UNIT = (2 : Nat) ∧ (on (fun h => { (h.wr F.BIST_ARG_TARGET 3).wr F.BIST_ARG_UNIT 2 with boot := { h.boot with life := Life.RETURN } })).hub.rd F.BIST_ARG_PACK = (0 : Nat) ∧ ((on (fun h => { (h.wr F.BIST_ARG_TARGET 3).wr F.BIST_ARG_UNIT 2 with boot := { h.boot with life := Life.RETURN } })).hub.wantsPack = false ∨ packGood ((on (fun h => { (h.wr F.BIST_ARG_TARGET 3).wr F.BIST_ARG_UNIT 2 with boot := { h.boot with life := Life.RETURN } })).hub.packBytes ((on (fun h => { (h.wr F.BIST_ARG_TARGET 3).wr F.BIST_ARG_UNIT 2 with boot := { h.boot with life := Life.RETURN } })).hub.packSlot (0 : Nat)).addr) 3 = true)) ∧
    ((on (fun h => { ((h.wr F.GLB_HUB_PAIR 1).wr F.PAIR_STATE_STANDBY 1).wr F.BIST_ARG_UNIT 1 with boot := { h.boot with life := Life.RETURN } })).hub.calm = true ∧ (on (fun h => { ((h.wr F.GLB_HUB_PAIR 1).wr F.PAIR_STATE_STANDBY 1).wr F.BIST_ARG_UNIT 1 with boot := { h.boot with life := Life.RETURN } })).hub.takesWrite (.mgmt : Req) R.BIST_CMD 1 = true ∧ (on (fun h => { ((h.wr F.GLB_HUB_PAIR 1).wr F.PAIR_STATE_STANDBY 1).wr F.BIST_ARG_UNIT 1 with boot := { h.boot with life := Life.RETURN } })).hub.bistCheck (.mgmt : Req) 1 = (St.OK, 0) ∧ (on (fun h => { ((h.wr F.GLB_HUB_PAIR 1).wr F.PAIR_STATE_STANDBY 1).wr F.BIST_ARG_UNIT 1 with boot := { h.boot with life := Life.RETURN } })).hub.rd F.BIST_ARG_TARGET = 0 ∧ (on (fun h => { ((h.wr F.GLB_HUB_PAIR 1).wr F.PAIR_STATE_STANDBY 1).wr F.BIST_ARG_UNIT 1 with boot := { h.boot with life := Life.RETURN } })).hub.rd F.BIST_ARG_PACK = (0 : Nat) ∧ (on (fun h => { ((h.wr F.GLB_HUB_PAIR 1).wr F.PAIR_STATE_STANDBY 1).wr F.BIST_ARG_UNIT 1 with boot := { h.boot with life := Life.RETURN } })).hub.isPair = true ∧ ((on (fun h => { ((h.wr F.GLB_HUB_PAIR 1).wr F.PAIR_STATE_STANDBY 1).wr F.BIST_ARG_UNIT 1 with boot := { h.boot with life := Life.RETURN } })).hub.wantsPack = false ∨ packGood ((on (fun h => { ((h.wr F.GLB_HUB_PAIR 1).wr F.PAIR_STATE_STANDBY 1).wr F.BIST_ARG_UNIT 1 with boot := { h.boot with life := Life.RETURN } })).hub.packBytes ((on (fun h => { ((h.wr F.GLB_HUB_PAIR 1).wr F.PAIR_STATE_STANDBY 1).wr F.BIST_ARG_UNIT 1 with boot := { h.boot with life := Life.RETURN } })).hub.packSlot (0 : Nat)).addr) 0 = true)) ∧
    ((on (fun h => { ((((h.wr F.BIST_CTRL_PACKS_EN 1).wr F.BIST_ARG_TARGET 1).wr F.BIST_ARG_UNIT 2).wr F.BIST_ARG_PACK_EN 1).setPack 0 { pushed := true, valid := true, target := 1 } with boot := { h.boot with life := Life.RETURN } })).hub.calm = true ∧ (on (fun h => { ((((h.wr F.BIST_CTRL_PACKS_EN 1).wr F.BIST_ARG_TARGET 1).wr F.BIST_ARG_UNIT 2).wr F.BIST_ARG_PACK_EN 1).setPack 0 { pushed := true, valid := true, target := 1 } with boot := { h.boot with life := Life.RETURN } })).hub.takesWrite (.mgmt : Req) R.BIST_CMD 1 = true ∧ (on (fun h => { ((((h.wr F.BIST_CTRL_PACKS_EN 1).wr F.BIST_ARG_TARGET 1).wr F.BIST_ARG_UNIT 2).wr F.BIST_ARG_PACK_EN 1).setPack 0 { pushed := true, valid := true, target := 1 } with boot := { h.boot with life := Life.RETURN } })).hub.bistCheck (.mgmt : Req) 1 = (St.OK, 0) ∧ (on (fun h => { ((((h.wr F.BIST_CTRL_PACKS_EN 1).wr F.BIST_ARG_TARGET 1).wr F.BIST_ARG_UNIT 2).wr F.BIST_ARG_PACK_EN 1).setPack 0 { pushed := true, valid := true, target := 1 } with boot := { h.boot with life := Life.RETURN } })).hub.rd F.BIST_ARG_TARGET = (1 : Nat) ∧ (on (fun h => { ((((h.wr F.BIST_CTRL_PACKS_EN 1).wr F.BIST_ARG_TARGET 1).wr F.BIST_ARG_UNIT 2).wr F.BIST_ARG_PACK_EN 1).setPack 0 { pushed := true, valid := true, target := 1 } with boot := { h.boot with life := Life.RETURN } })).hub.rd F.BIST_ARG_UNIT = (2 : Nat) ∧ (on (fun h => { ((((h.wr F.BIST_CTRL_PACKS_EN 1).wr F.BIST_ARG_TARGET 1).wr F.BIST_ARG_UNIT 2).wr F.BIST_ARG_PACK_EN 1).setPack 0 { pushed := true, valid := true, target := 1 } with boot := { h.boot with life := Life.RETURN } })).hub.rd F.BIST_ARG_PACK = (0 : Nat) ∧ (on (fun h => { ((((h.wr F.BIST_CTRL_PACKS_EN 1).wr F.BIST_ARG_TARGET 1).wr F.BIST_ARG_UNIT 2).wr F.BIST_ARG_PACK_EN 1).setPack 0 { pushed := true, valid := true, target := 1 } with boot := { h.boot with life := Life.RETURN } })).hub.wantsPack = true ∧ packGood ((on (fun h => { ((((h.wr F.BIST_CTRL_PACKS_EN 1).wr F.BIST_ARG_TARGET 1).wr F.BIST_ARG_UNIT 2).wr F.BIST_ARG_PACK_EN 1).setPack 0 { pushed := true, valid := true, target := 1 } with boot := { h.boot with life := Life.RETURN } })).hub.packBytes ((on (fun h => { ((((h.wr F.BIST_CTRL_PACKS_EN 1).wr F.BIST_ARG_TARGET 1).wr F.BIST_ARG_UNIT 2).wr F.BIST_ARG_PACK_EN 1).setPack 0 { pushed := true, valid := true, target := 1 } with boot := { h.boot with life := Life.RETURN } })).hub.packSlot (0 : Nat)).addr) (1 : Nat) = false) ∧
    ((on (fun h => { (h.wr F.BIST_ARG_TARGET 4).wr F.BIST_ARG_UNIT 7 with boot := { h.boot with life := Life.RETURN } })).hub.calm = true ∧ (on (fun h => { (h.wr F.BIST_ARG_TARGET 4).wr F.BIST_ARG_UNIT 7 with boot := { h.boot with life := Life.RETURN } })).hub.takesWrite (.mgmt : Req) R.BIST_CMD 1 = true ∧ (on (fun h => { (h.wr F.BIST_ARG_TARGET 4).wr F.BIST_ARG_UNIT 7 with boot := { h.boot with life := Life.RETURN } })).hub.bistCheck (.mgmt : Req) 1 = (St.OK, 0) ∧ (on (fun h => { (h.wr F.BIST_ARG_TARGET 4).wr F.BIST_ARG_UNIT 7 with boot := { h.boot with life := Life.RETURN } })).hub.rd F.BIST_ARG_TARGET = 4 ∧ (on (fun h => { (h.wr F.BIST_ARG_TARGET 4).wr F.BIST_ARG_UNIT 7 with boot := { h.boot with life := Life.RETURN } })).hub.rd F.BIST_ARG_UNIT = (7 : Nat) ∧ (on (fun h => { (h.wr F.BIST_ARG_TARGET 4).wr F.BIST_ARG_UNIT 7 with boot := { h.boot with life := Life.RETURN } })).hub.wantsPack = false) ∧
    ((on (fun h => { (h.wr F.BIST_ARG_TARGET 1).wr F.BIST_ARG_UNIT 2 with boot := { h.boot with life := Life.RETURN }, bist := { runs := [{ target := 1, unit := 2, at_ := 5 }] } })).hub.calm = true ∧ (on (fun h => { (h.wr F.BIST_ARG_TARGET 1).wr F.BIST_ARG_UNIT 2 with boot := { h.boot with life := Life.RETURN }, bist := { runs := [{ target := 1, unit := 2, at_ := 5 }] } })).hub.takesWrite (.mgmt : Req) R.BIST_CMD 2 = true ∧ (on (fun h => { (h.wr F.BIST_ARG_TARGET 1).wr F.BIST_ARG_UNIT 2 with boot := { h.boot with life := Life.RETURN }, bist := { runs := [{ target := 1, unit := 2, at_ := 5 }] } })).hub.bistCheck (.mgmt : Req) 2 = (St.OK, 0) ∧ (on (fun h => { (h.wr F.BIST_ARG_TARGET 1).wr F.BIST_ARG_UNIT 2 with boot := { h.boot with life := Life.RETURN }, bist := { runs := [{ target := 1, unit := 2, at_ := 5 }] } })).hub.rd F.BIST_ARG_TARGET = 1 ∧ (on (fun h => { (h.wr F.BIST_ARG_TARGET 1).wr F.BIST_ARG_UNIT 2 with boot := { h.boot with life := Life.RETURN }, bist := { runs := [{ target := 1, unit := 2, at_ := 5 }] } })).hub.rd F.BIST_ARG_UNIT = (2 : Nat) ∧ (on (fun h => { (h.wr F.BIST_ARG_TARGET 1).wr F.BIST_ARG_UNIT 2 with boot := { h.boot with life := Life.RETURN }, bist := { runs := [{ target := 1, unit := 2, at_ := 5 }] } })).hub.bist.runs = [({ target := 1, unit := 2, at_ := 5 } : Run)] ∧ ({ target := 1, unit := 2, at_ := 5 } : Run).target = 1 ∧ ({ target := 1, unit := 2, at_ := 5 } : Run).unit = (2 : Nat) ∧ ({ target := 1, unit := 2, at_ := 5 } : Run).readmit = false) ∧
    ((on (fun h => { (h.wr F.BIST_ARG_TARGET 2).wr F.BIST_ARG_UNIT 2 with boot := { h.boot with life := Life.RETURN }, bist := { runs := [{ target := 2, unit := 2, at_ := 5 }] } })).hub.calm = true ∧ (on (fun h => { (h.wr F.BIST_ARG_TARGET 2).wr F.BIST_ARG_UNIT 2 with boot := { h.boot with life := Life.RETURN }, bist := { runs := [{ target := 2, unit := 2, at_ := 5 }] } })).hub.takesWrite (.mgmt : Req) R.BIST_CMD 2 = true ∧ (on (fun h => { (h.wr F.BIST_ARG_TARGET 2).wr F.BIST_ARG_UNIT 2 with boot := { h.boot with life := Life.RETURN }, bist := { runs := [{ target := 2, unit := 2, at_ := 5 }] } })).hub.bistCheck (.mgmt : Req) 2 = (St.OK, 0) ∧ (on (fun h => { (h.wr F.BIST_ARG_TARGET 2).wr F.BIST_ARG_UNIT 2 with boot := { h.boot with life := Life.RETURN }, bist := { runs := [{ target := 2, unit := 2, at_ := 5 }] } })).hub.rd F.BIST_ARG_TARGET = 2 ∧ (on (fun h => { (h.wr F.BIST_ARG_TARGET 2).wr F.BIST_ARG_UNIT 2 with boot := { h.boot with life := Life.RETURN }, bist := { runs := [{ target := 2, unit := 2, at_ := 5 }] } })).hub.rd F.BIST_ARG_UNIT = (2 : Nat) ∧ (on (fun h => { (h.wr F.BIST_ARG_TARGET 2).wr F.BIST_ARG_UNIT 2 with boot := { h.boot with life := Life.RETURN }, bist := { runs := [{ target := 2, unit := 2, at_ := 5 }] } })).hub.bist.runs = [({ target := 2, unit := 2, at_ := 5 } : Run)] ∧ ({ target := 2, unit := 2, at_ := 5 } : Run).target = 2 ∧ ({ target := 2, unit := 2, at_ := 5 } : Run).unit = (2 : Nat) ∧ ({ target := 2, unit := 2, at_ := 5 } : Run).readmit = false) ∧
    ((on (fun h => { (h.wr F.BIST_ARG_TARGET 3).wr F.BIST_ARG_UNIT 2 with boot := { h.boot with life := Life.RETURN }, bist := { runs := [{ target := 3, unit := 2, at_ := 5 }] } })).hub.calm = true ∧ (on (fun h => { (h.wr F.BIST_ARG_TARGET 3).wr F.BIST_ARG_UNIT 2 with boot := { h.boot with life := Life.RETURN }, bist := { runs := [{ target := 3, unit := 2, at_ := 5 }] } })).hub.takesWrite (.mgmt : Req) R.BIST_CMD 2 = true ∧ (on (fun h => { (h.wr F.BIST_ARG_TARGET 3).wr F.BIST_ARG_UNIT 2 with boot := { h.boot with life := Life.RETURN }, bist := { runs := [{ target := 3, unit := 2, at_ := 5 }] } })).hub.bistCheck (.mgmt : Req) 2 = (St.OK, 0) ∧ (on (fun h => { (h.wr F.BIST_ARG_TARGET 3).wr F.BIST_ARG_UNIT 2 with boot := { h.boot with life := Life.RETURN }, bist := { runs := [{ target := 3, unit := 2, at_ := 5 }] } })).hub.rd F.BIST_ARG_TARGET = 3 ∧ (on (fun h => { (h.wr F.BIST_ARG_TARGET 3).wr F.BIST_ARG_UNIT 2 with boot := { h.boot with life := Life.RETURN }, bist := { runs := [{ target := 3, unit := 2, at_ := 5 }] } })).hub.rd F.BIST_ARG_UNIT = (2 : Nat) ∧ (on (fun h => { (h.wr F.BIST_ARG_TARGET 3).wr F.BIST_ARG_UNIT 2 with boot := { h.boot with life := Life.RETURN }, bist := { runs := [{ target := 3, unit := 2, at_ := 5 }] } })).hub.bist.runs = [({ target := 3, unit := 2, at_ := 5 } : Run)] ∧ ({ target := 3, unit := 2, at_ := 5 } : Run).target = 3 ∧ ({ target := 3, unit := 2, at_ := 5 } : Run).unit = (2 : Nat) ∧ ({ target := 3, unit := 2, at_ := 5 } : Run).readmit = false) ∧
    ((on (fun h => { h.wr F.BIST_ARG_PACK 3 with boot := { h.boot with life := Life.RETURN } })).hub.calm = true ∧ (on (fun h => { h.wr F.BIST_ARG_PACK 3 with boot := { h.boot with life := Life.RETURN } })).hub.takesWrite (.mgmt : Req) R.BIST_CMD 3 = true ∧ (on (fun h => { h.wr F.BIST_ARG_PACK 3 with boot := { h.boot with life := Life.RETURN } })).hub.bistCheck (.mgmt : Req) 3 = (St.OK, 0) ∧ (on (fun h => { h.wr F.BIST_ARG_PACK 3 with boot := { h.boot with life := Life.RETURN } })).hub.rd F.BIST_ARG_PACK = (3 : Nat)) ∧
    ((on (fun h => { h.wr F.BIST_ARG_PACK 3 with boot := { h.boot with life := Life.RETURN } })).hub.calm = true ∧ (on (fun h => { h.wr F.BIST_ARG_PACK 3 with boot := { h.boot with life := Life.RETURN } })).hub.takesWrite (.mgmt : Req) R.BIST_CMD 4 = true ∧ (on (fun h => { h.wr F.BIST_ARG_PACK 3 with boot := { h.boot with life := Life.RETURN } })).hub.bistCheck (.mgmt : Req) 4 = (St.OK, 0) ∧ (on (fun h => { h.wr F.BIST_ARG_PACK 3 with boot := { h.boot with life := Life.RETURN } })).hub.rd F.BIST_ARG_PACK = (3 : Nat)) ∧
    ((on (fun h => { h.wr F.BIST_PASSES_COUNT 5 with boot := { h.boot with life := Life.RETURN } })).hub.calm = true ∧ (on (fun h => { h.wr F.BIST_PASSES_COUNT 5 with boot := { h.boot with life := Life.RETURN } })).hub.takesWrite (.mgmt : Req) R.BIST_CMD 5 = true ∧ (on (fun h => { h.wr F.BIST_PASSES_COUNT 5 with boot := { h.boot with life := Life.RETURN } })).hub.bistCheck (.mgmt : Req) 5 = (St.OK, 0)) ∧
    ((on (fun h => ((h.putMem 0x1000 packW).commit h.store).setPack 3 { pushed := true, addr := 0x1000, checking := true })).hub.calm = true ∧ (on (fun h => ((h.putMem 0x1000 packW).commit h.store).setPack 3 { pushed := true, addr := 0x1000, checking := true })).hub.packSlot (3 : Fin 16) = ({ pushed := true, addr := 0x1000, checking := true } : Pack) ∧ ({ pushed := true, addr := 0x1000, checking := true } : Pack).checking = true ∧ ({ pushed := true, addr := 0x1000, checking := true } : Pack).pushed = true ∧ (on (fun h => ((h.putMem 0x1000 packW).commit h.store).setPack 3 { pushed := true, addr := 0x1000, checking := true })).hub.packBytes ({ pushed := true, addr := 0x1000, checking := true } : Pack).addr = (packW : List Byte) ∧ packGood (packW : List Byte) (leAt (packW : List Byte) 6 1) = true) ∧
    ((on (fun h => h.setPack 3 { pushed := true, addr := 0x1000, checking := true })).hub.calm = true ∧ (on (fun h => h.setPack 3 { pushed := true, addr := 0x1000, checking := true })).hub.packSlot (3 : Fin 16) = ({ pushed := true, addr := 0x1000, checking := true } : Pack) ∧ ({ pushed := true, addr := 0x1000, checking := true } : Pack).checking = true ∧ ({ pushed := true, addr := 0x1000, checking := true } : Pack).pushed = true ∧ ((false : Bool) = true ∨ packGood ((on (fun h => h.setPack 3 { pushed := true, addr := 0x1000, checking := true })).hub.packBytes ({ pushed := true, addr := 0x1000, checking := true } : Pack).addr) (leAt ((on (fun h => h.setPack 3 { pushed := true, addr := 0x1000, checking := true })).hub.packBytes ({ pushed := true, addr := 0x1000, checking := true } : Pack).addr) 6 1) = false)) ∧
    ((on (fun h => { h with bist := { runs := [{ target := 1, unit := 2, at_ := 5 }] } })).hub.calm = true ∧ (on (fun h => { h with bist := { runs := [{ target := 1, unit := 2, at_ := 5 }] } })).hub.bistRun 1 (2 : Nat) = some ({ target := 1, unit := 2, at_ := 5 } : Run) ∧ ({ target := 1, unit := 2, at_ := 5 } : Run).target = 1 ∧ ({ target := 1, unit := 2, at_ := 5 } : Run).unit = (2 : Nat) ∧ ({ target := 1, unit := 2, at_ := 5 } : Run).readmit = false) ∧
    ((on (fun h => (({ h with bist := { runs := [{ target := 4, unit := 7 }] } } : Hub).setTile 7 { st := .underTest }))).hub.calm = true ∧ (on (fun h => (({ h with bist := { runs := [{ target := 4, unit := 7 }] } } : Hub).setTile 7 { st := .underTest }))).hub.bistRun 4 (7 : Nat) = some ({ target := 4, unit := 7 } : Run) ∧ ({ target := 4, unit := 7 } : Run).target = 4 ∧ ({ target := 4, unit := 7 } : Run).unit = (7 : Nat) ∧ ({ target := 4, unit := 7 } : Run).readmit = false ∧ (2 : Nat) ≠ Bo.PASS ∧ ((on (fun h => (({ h with bist := { runs := [{ target := 4, unit := 7 }] } } : Hub).setTile 7 { st := .underTest }))).hub.tile (7 : Nat)).st = .underTest ∧ ((on (fun h => (({ h with bist := { runs := [{ target := 4, unit := 7 }] } } : Hub).setTile 7 { st := .underTest }))).hub.tile (7 : Nat)).taste = none) ∧
    ((on (fun h => { h with bist := { runs := [{ target := 3, unit := 2, at_ := 5 }] }, time := { h.time with hclk := 90000000 } })).hub.calm = true ∧ (on (fun h => { h with bist := { runs := [{ target := 3, unit := 2, at_ := 5 }] }, time := { h.time with hclk := 90000000 } })).hub.bist.runs = [({ target := 3, unit := 2, at_ := 5 } : Run)] ∧ (on (fun h => { h with bist := { runs := [{ target := 3, unit := 2, at_ := 5 }] }, time := { h.time with hclk := 90000000 } })).hub.bistOverdue = [({ target := 3, unit := 2, at_ := 5 } : Run)] ∧ ({ target := 3, unit := 2, at_ := 5 } : Run).target = 3 ∧ ({ target := 3, unit := 2, at_ := 5 } : Run).unit = (2 : Nat) ∧ ({ target := 3, unit := 2, at_ := 5 } : Run).readmit = false) ∧
    ((on (fun h => h)).hub.calm = true ∧ bitsOf ((2 ^ 64 + R.GLB_HUB) : BitVec 66).toNat 64 2 = 1 ∧ bitsOf ((2 ^ 64 + R.GLB_HUB) : BitVec 66).toNat 0 20 = (R.GLB_HUB : Nat) ∧ (on (fun h => h)).hub.accessStatus .jtag (R.GLB_HUB : Nat) false 0 = St.OK ∧ (regDef (normAddr (R.GLB_HUB : Nat))).isSome = true ∧ inWindow (normAddr (R.GLB_HUB : Nat)) = false ∧ isHi (normAddr (R.GLB_HUB : Nat)) = false ∧ [R.TASTE_EVID_DATA, R.COOP_PROG_DATA, R.COOP_DATA_DATA, R.AUTH_DATA, R.TIME_GCN_LO].contains (baseAddr (normAddr (R.GLB_HUB : Nat))) = false ∧ isLo (normAddr (R.GLB_HUB : Nat)) = false) ∧
    ((on (fun h => h)).hub.calm = true ∧ bitsOf ((2 ^ 65 + 0x01020304 * 2 ^ 32 + R.GLB_CTX_RECT) : BitVec 66).toNat 64 2 = 2 ∧ bitsOf ((2 ^ 65 + 0x01020304 * 2 ^ 32 + R.GLB_CTX_RECT) : BitVec 66).toNat 0 20 = R.GLB_CTX_RECT ∧ bitsOf ((2 ^ 65 + 0x01020304 * 2 ^ 32 + R.GLB_CTX_RECT) : BitVec 66).toNat 32 32 = (0x01020304 : Nat) ∧ (on (fun h => h)).hub.takesWrite .jtag R.GLB_CTX_RECT (0x01020304 : Nat) = true ∧ (on (fun h => h)).hub.flag F.GLB_CMD_STATUS_DONE = true) ∧
    ((on (fun h => { h with owners := ⟨[(0x19, reqCode .jtag + 1)]⟩ })).hub.calm = true) := by
  and_intros <;> decide +kernel

/-- The hypotheses of tending_faults_and_safe can be met, clause by clause. -/
theorem witness_tending_faults_and_safe :
    ((on (fun h => h)).hub.calm = true ∧ (on (fun h => h)).hub.takesWrite (.mgmt : Req) R.REL_CMD 1 = true ∧ (on (fun h => h)).hub.flag F.REL_STATE_TENDING = false) ∧
    ((on (fun h => h.wr F.REL_TEND_ROUNDS_COUNT 7)).hub.calm = true ∧ (on (fun h => h.wr F.REL_TEND_ROUNDS_COUNT 7)).hub.takesWrite (.mgmt : Req) R.REL_CMD 2 = true) ∧
    ((on (fun h => { h.wr F.REL_CTRL_TEND_EN 1 with time := { h.time with hclk := 90000000 } })).hub.calm = true ∧ (on (fun h => { h.wr F.REL_CTRL_TEND_EN 1 with time := { h.time with hclk := 90000000 } })).hub.flag F.REL_CTRL_TEND_EN = true ∧ (on (fun h => { h.wr F.REL_CTRL_TEND_EN 1 with time := { h.time with hclk := 90000000 } })).hub.elapsed (on (fun h => { h.wr F.REL_CTRL_TEND_EN 1 with time := { h.time with hclk := 90000000 } })).hub.rel.lastTend (on (fun h => { h.wr F.REL_CTRL_TEND_EN 1 with time := { h.time with hclk := 90000000 } })).hub.tendPeriod = true) ∧
    ((on (fun h => h.wr F.REL_STATE_TENDING 1)).hub.calm = true ∧ (on (fun h => h.wr F.REL_STATE_TENDING 1)).hub.flag F.REL_STATE_TENDING = true ∧ (on (fun h => h.wr F.REL_STATE_TENDING 1)).hub.taste.retired.contains ((2 : Fin 4) : Nat) = false ∧ (on (fun h => h.wr F.REL_STATE_TENDING 1)).hub.taste.bufs.cells = []) ∧
    ((on (fun h => { h with boot := { h.boot with life := Life.RETURN } })).hub.calm = true ∧ (on (fun h => { h with boot := { h.boot with life := Life.RETURN } })).hub.takesWrite (.mgmt : Req) R.REL_INJECT (0x80000005 : Word).toNat = true ∧ bitAt (0x80000005 : Word).toNat 31 = true ∧ bitsOf (0x80000005 : Word).toNat F.REL_INJECT_KIND.lo F.REL_INJECT_KIND.width = (5 : Nat) ∧ bitsOf (0x80000005 : Word).toNat F.REL_INJECT_PAGE.lo F.REL_INJECT_PAGE.width = (0 : Nat) ∧ bitsOf (0x80000005 : Word).toNat F.REL_INJECT_TILE.lo F.REL_INJECT_TILE.width = (0 : Nat) ∧ (on (fun h => { h with boot := { h.boot with life := Life.RETURN } })).hub.injectCheck (5 : Nat) = St.OK ∧ (5 : Nat) ∈ [4, 5, 6, 8]) ∧
    ((on (fun h => h)).hub.calm = true ∧ (on (fun h => h)).hub.takesWrite (.mgmt : Req) R.REL_INJECT (0x00000005 : Word).toNat = true ∧ bitAt (0x00000005 : Word).toNat 31 = false) ∧
    ((on (fun h => h)).hub.calm = true ∧ (on (fun h => h)).hub.taste.bufs.cells = []) ∧
    ((on (fun h => h.running3)).hub.calm = true ∧ (on (fun h => h.running3)).hub.isPair = false ∧ (on (fun h => h.running3)).hub.flag F.PAIR_STATE_TAKEOVER = false ∧ (on (fun h => h.running3)).hub.isSafe = false) ∧
    ((on (fun h => h.running3)).hub.calm = true ∧ (on (fun h => h.running3)).hub.isPair = false ∧ (on (fun h => h.running3)).hub.flag F.PAIR_STATE_TAKEOVER = false ∧ (on (fun h => h.running3)).hub.isSafe = false ∧ (on (fun h => h.running3)).hub.corks = [] ∧ (on (fun h => h.running3)).hub.taste.bufs.cells = [] ∧ (on (fun h => h.running3)).hub.tiles.cells.all (fun p => p.2.branch.isEmpty) = true) := by
  and_intros <;> decide +kernel

/-- The hypotheses of a_pair_mirrors_checkpoints_and_takes_over can be met, clause by clause. -/
theorem witness_a_pair_mirrors_checkpoints_and_takes_over :
    ((on (fun h => ((h.wr F.GLB_HUB_PAIR 1).wr F.PAIR_STATE_STANDBY 1))).hub.calm = true ∧ (on (fun h => ((h.wr F.GLB_HUB_PAIR 1).wr F.PAIR_STATE_STANDBY 1))).hub.takesWrite (.mgmt : Req) R.PAIR_CMD 1 = true ∧ (on (fun h => ((h.wr F.GLB_HUB_PAIR 1).wr F.PAIR_STATE_STANDBY 1))).hub.pairCheck 1 = St.OK ∧ (on (fun h => ((h.wr F.GLB_HUB_PAIR 1).wr F.PAIR_STATE_STANDBY 1))).hub.linkSt = Lk.DISABLED ∧ (on (fun h => ((h.wr F.GLB_HUB_PAIR 1).wr F.PAIR_STATE_STANDBY 1))).hub.harv.op = 0 ∧ (on (fun h => ((h.wr F.GLB_HUB_PAIR 1).wr F.PAIR_STATE_STANDBY 1))).hub.digTiles.active = false ∧ (on (fun h => ((h.wr F.GLB_HUB_PAIR 1).wr F.PAIR_STATE_STANDBY 1))).hub.digExt.active = false) ∧
    ((on (fun h => { ((h.wr F.GLB_HUB_PAIR 1).wr F.PAIR_STATE_STANDBY 1).wr F.PAIR_CTRL_AUTO_TAKEOVER 1 with time := { h.time with hclk := 90000000 } })).hub.calm = true ∧ (on (fun h => { ((h.wr F.GLB_HUB_PAIR 1).wr F.PAIR_STATE_STANDBY 1).wr F.PAIR_CTRL_AUTO_TAKEOVER 1 with time := { h.time with hclk := 90000000 } })).hub.pairReady = true ∧ (on (fun h => { ((h.wr F.GLB_HUB_PAIR 1).wr F.PAIR_STATE_STANDBY 1).wr F.PAIR_CTRL_AUTO_TAKEOVER 1 with time := { h.time with hclk := 90000000 } })).hub.rd F.PAIR_HB_LIMIT_HCLK = (State.reset.hub.rd F.PAIR_HB_LIMIT_HCLK : Nat) ∧ (on (fun h => { ((h.wr F.GLB_HUB_PAIR 1).wr F.PAIR_STATE_STANDBY 1).wr F.PAIR_CTRL_AUTO_TAKEOVER 1 with time := { h.time with hclk := 90000000 } })).hub.elapsed (on (fun h => { ((h.wr F.GLB_HUB_PAIR 1).wr F.PAIR_STATE_STANDBY 1).wr F.PAIR_CTRL_AUTO_TAKEOVER 1 with time := { h.time with hclk := 90000000 } })).hub.rel.beatAt (if (State.reset.hub.rd F.PAIR_HB_LIMIT_HCLK : Nat) < 128 then 128 else (State.reset.hub.rd F.PAIR_HB_LIMIT_HCLK : Nat)) = true ∧ (on (fun h => { ((h.wr F.GLB_HUB_PAIR 1).wr F.PAIR_STATE_STANDBY 1).wr F.PAIR_CTRL_AUTO_TAKEOVER 1 with time := { h.time with hclk := 90000000 } })).hub.flag F.PAIR_CTRL_AUTO_TAKEOVER = true ∧ (on (fun h => { ((h.wr F.GLB_HUB_PAIR 1).wr F.PAIR_STATE_STANDBY 1).wr F.PAIR_CTRL_AUTO_TAKEOVER 1 with time := { h.time with hclk := 90000000 } })).hub.linkSt = Lk.DISABLED ∧ (on (fun h => { ((h.wr F.GLB_HUB_PAIR 1).wr F.PAIR_STATE_STANDBY 1).wr F.PAIR_CTRL_AUTO_TAKEOVER 1 with time := { h.time with hclk := 90000000 } })).hub.harv.op = 0 ∧ (on (fun h => { ((h.wr F.GLB_HUB_PAIR 1).wr F.PAIR_STATE_STANDBY 1).wr F.PAIR_CTRL_AUTO_TAKEOVER 1 with time := { h.time with hclk := 90000000 } })).hub.digTiles.active = false ∧ (on (fun h => { ((h.wr F.GLB_HUB_PAIR 1).wr F.PAIR_STATE_STANDBY 1).wr F.PAIR_CTRL_AUTO_TAKEOVER 1 with time := { h.time with hclk := 90000000 } })).hub.digExt.active = false) ∧
    ((on (fun h => { ((h.wr F.GLB_HUB_PAIR 1).wr F.PAIR_STATE_STANDBY 1).wr F.PAIR_STATE_TAKEOVER 1 with rel := { ckptGood := true, ckptRack := { queue := [{ id := 3 }] }, takeoverAt := 199000 } })).hub.calm = true ∧ (on (fun h => { ((h.wr F.GLB_HUB_PAIR 1).wr F.PAIR_STATE_STANDBY 1).wr F.PAIR_STATE_TAKEOVER 1 with rel := { ckptGood := true, ckptRack := { queue := [{ id := 3 }] }, takeoverAt := 199000 } })).hub.flag F.PAIR_STATE_TAKEOVER = true ∧ (on (fun h => { ((h.wr F.GLB_HUB_PAIR 1).wr F.PAIR_STATE_STANDBY 1).wr F.PAIR_STATE_TAKEOVER 1 with rel := { ckptGood := true, ckptRack := { queue := [{ id := 3 }] }, takeoverAt := 199000 } })).hub.harv.op = 0 ∧ (on (fun h => { ((h.wr F.GLB_HUB_PAIR 1).wr F.PAIR_STATE_STANDBY 1).wr F.PAIR_STATE_TAKEOVER 1 with rel := { ckptGood := true, ckptRack := { queue := [{ id := 3 }] }, takeoverAt := 199000 } })).hub.taste.bufs.cells = [] ∧ (on (fun h => { ((h.wr F.GLB_HUB_PAIR 1).wr F.PAIR_STATE_STANDBY 1).wr F.PAIR_STATE_TAKEOVER 1 with rel := { ckptGood := true, ckptRack := { queue := [{ id := 3 }] }, takeoverAt := 199000 } })).hub.digTiles.active = false ∧ (on (fun h => { ((h.wr F.GLB_HUB_PAIR 1).wr F.PAIR_STATE_STANDBY 1).wr F.PAIR_STATE_TAKEOVER 1 with rel := { ckptGood := true, ckptRack := { queue := [{ id := 3 }] }, takeoverAt := 199000 } })).hub.digExt.active = false ∧ (on (fun h => { ((h.wr F.GLB_HUB_PAIR 1).wr F.PAIR_STATE_STANDBY 1).wr F.PAIR_STATE_TAKEOVER 1 with rel := { ckptGood := true, ckptRack := { queue := [{ id := 3 }] }, takeoverAt := 199000 } })).hub.bist.runs = [] ∧ (on (fun h => { ((h.wr F.GLB_HUB_PAIR 1).wr F.PAIR_STATE_STANDBY 1).wr F.PAIR_STATE_TAKEOVER 1 with rel := { ckptGood := true, ckptRack := { queue := [{ id := 3 }] }, takeoverAt := 199000 } })).hub.ladder.active = false ∧ (on (fun h => { ((h.wr F.GLB_HUB_PAIR 1).wr F.PAIR_STATE_STANDBY 1).wr F.PAIR_STATE_TAKEOVER 1 with rel := { ckptGood := true, ckptRack := { queue := [{ id := 3 }] }, takeoverAt := 199000 } })).hub.rel.ckptRack.active = none ∧ (on (fun h => { ((h.wr F.GLB_HUB_PAIR 1).wr F.PAIR_STATE_STANDBY 1).wr F.PAIR_STATE_TAKEOVER 1 with rel := { ckptGood := true, ckptRack := { queue := [{ id := 3 }] }, takeoverAt := 199000 } })).hub.rel.mirrorRegs.cells = [] ∧ (on (fun h => { ((h.wr F.GLB_HUB_PAIR 1).wr F.PAIR_STATE_STANDBY 1).wr F.PAIR_STATE_TAKEOVER 1 with rel := { ckptGood := true, ckptRack := { queue := [{ id := 3 }] }, takeoverAt := 199000 } })).hub.rel.ckptGood = true ∧ (on (fun h => { ((h.wr F.GLB_HUB_PAIR 1).wr F.PAIR_STATE_STANDBY 1).wr F.PAIR_STATE_TAKEOVER 1 with rel := { ckptGood := true, ckptRack := { queue := [{ id := 3 }] }, takeoverAt := 199000 } })).hub.rel.ckptStats = [] ∧ (on (fun h => { ((h.wr F.GLB_HUB_PAIR 1).wr F.PAIR_STATE_STANDBY 1).wr F.PAIR_STATE_TAKEOVER 1 with rel := { ckptGood := true, ckptRack := { queue := [{ id := 3 }] }, takeoverAt := 199000 } })).hub.rel.ckptOos = [] ∧ (on (fun h => { ((h.wr F.GLB_HUB_PAIR 1).wr F.PAIR_STATE_STANDBY 1).wr F.PAIR_STATE_TAKEOVER 1 with rel := { ckptGood := true, ckptRack := { queue := [{ id := 3 }] }, takeoverAt := 199000 } })).hub.openSlots = [] ∧ ((on (fun h => { ((h.wr F.GLB_HUB_PAIR 1).wr F.PAIR_STATE_STANDBY 1).wr F.PAIR_STATE_TAKEOVER 1 with rel := { ckptGood := true, ckptRack := { queue := [{ id := 3 }] }, takeoverAt := 199000 } })).hub.coop 0).st = .empty ∧ ((on (fun h => { ((h.wr F.GLB_HUB_PAIR 1).wr F.PAIR_STATE_STANDBY 1).wr F.PAIR_STATE_TAKEOVER 1 with rel := { ckptGood := true, ckptRack := { queue := [{ id := 3 }] }, takeoverAt := 199000 } })).hub.coop 1).st = .empty) ∧
    ((on (fun h => { (h.wr F.GLB_HUB_PAIR 1).wr F.PAIR_STATE_STANDBY 2 with bist := { standbyPass := true } })).hub.calm = true ∧ (on (fun h => { (h.wr F.GLB_HUB_PAIR 1).wr F.PAIR_STATE_STANDBY 2 with bist := { standbyPass := true } })).hub.takesWrite (.mgmt : Req) R.PAIR_CMD 2 = true ∧ (on (fun h => { (h.wr F.GLB_HUB_PAIR 1).wr F.PAIR_STATE_STANDBY 2 with bist := { standbyPass := true } })).hub.pairCheck 2 = St.OK) ∧
    ((on (fun h => ((h.wr F.GLB_HUB_PAIR 1).wr F.PAIR_STATE_STANDBY 1).wr F.PAIR_TAKEOVERS_COUNT 5)).hub.calm = true ∧ (on (fun h => ((h.wr F.GLB_HUB_PAIR 1).wr F.PAIR_STATE_STANDBY 1).wr F.PAIR_TAKEOVERS_COUNT 5)).hub.takesWrite (.mgmt : Req) R.PAIR_CMD 3 = true ∧ (on (fun h => ((h.wr F.GLB_HUB_PAIR 1).wr F.PAIR_STATE_STANDBY 1).wr F.PAIR_TAKEOVERS_COUNT 5)).hub.pairCheck 3 = St.OK) ∧
    ((on (fun h => ((h.wr F.GLB_HUB_PAIR 1).wr F.PAIR_STATE_STANDBY 1))).hub.calm = true ∧ (on (fun h => ((h.wr F.GLB_HUB_PAIR 1).wr F.PAIR_STATE_STANDBY 1))).hub.pairReady = true) ∧
    ((on (fun h => ((h.wr F.GLB_HUB_PAIR 1).wr F.PAIR_STATE_STANDBY 1))).hub.calm = true ∧ (on (fun h => ((h.wr F.GLB_HUB_PAIR 1).wr F.PAIR_STATE_STANDBY 1))).hub.pairReady = true) ∧
    ((on (fun h => ((h.wr F.GLB_HUB_PAIR 1).wr F.PAIR_STATE_STANDBY 1))).hub.calm = true ∧ (on (fun h => ((h.wr F.GLB_HUB_PAIR 1).wr F.PAIR_STATE_STANDBY 1))).hub.pairReady = true ∧ (on (fun h => ((h.wr F.GLB_HUB_PAIR 1).wr F.PAIR_STATE_STANDBY 1))).hub.rel.pathLost = []) ∧
    ((on (fun h => ((h.wr F.GLB_HUB_PAIR 1).wr F.PAIR_STATE_STANDBY 1))).hub.calm = true ∧ (on (fun h => ((h.wr F.GLB_HUB_PAIR 1).wr F.PAIR_STATE_STANDBY 1))).hub.pairReady = true ∧ (on (fun h => ((h.wr F.GLB_HUB_PAIR 1).wr F.PAIR_STATE_STANDBY 1))).hub.rel.pathLost = []) ∧
    ((on (fun h => { ((h.wr F.GLB_HUB_PAIR 1).wr F.PAIR_STATE_STANDBY 1).wr F.PAIR_CTRL_CKPT_EN 1 with time := { h.time with hclk := 90000000 } })).hub.calm = true ∧ (on (fun h => { ((h.wr F.GLB_HUB_PAIR 1).wr F.PAIR_STATE_STANDBY 1).wr F.PAIR_CTRL_CKPT_EN 1 with time := { h.time with hclk := 90000000 } })).hub.pairReady = true ∧ (on (fun h => { ((h.wr F.GLB_HUB_PAIR 1).wr F.PAIR_STATE_STANDBY 1).wr F.PAIR_CTRL_CKPT_EN 1 with time := { h.time with hclk := 90000000 } })).hub.flag F.PAIR_CTRL_CKPT_EN = true ∧ (on (fun h => { ((h.wr F.GLB_HUB_PAIR 1).wr F.PAIR_STATE_STANDBY 1).wr F.PAIR_CTRL_CKPT_EN 1 with time := { h.time with hclk := 90000000 } })).hub.elapsed (on (fun h => { ((h.wr F.GLB_HUB_PAIR 1).wr F.PAIR_STATE_STANDBY 1).wr F.PAIR_CTRL_CKPT_EN 1 with time := { h.time with hclk := 90000000 } })).hub.rel.ckptAt (on (fun h => { ((h.wr F.GLB_HUB_PAIR 1).wr F.PAIR_STATE_STANDBY 1).wr F.PAIR_CTRL_CKPT_EN 1 with time := { h.time with hclk := 90000000 } })).hub.ckptPeriod = true) ∧
    ((on (fun h => { ((h.wr F.GLB_HUB_PAIR 1).wr F.PAIR_STATE_STANDBY 1) with rack := { queue := [{ id := 3 }] } })).hub.calm = true ∧ (on (fun h => { ((h.wr F.GLB_HUB_PAIR 1).wr F.PAIR_STATE_STANDBY 1) with rack := { queue := [{ id := 3 }] } })).hub.pairReady = true) ∧
    ((on (fun h => ((h.wr F.GLB_HUB_PAIR 1).wr F.PAIR_STATE_STANDBY 1))).hub.calm = true ∧ (on (fun h => ((h.wr F.GLB_HUB_PAIR 1).wr F.PAIR_STATE_STANDBY 1))).hub.pairReady = true ∧ (on (fun h => ((h.wr F.GLB_HUB_PAIR 1).wr F.PAIR_STATE_STANDBY 1))).hub.rel.ckptBad < 2) ∧
    ((on (fun h => { ((h.wr F.GLB_HUB_PAIR 1).wr F.PAIR_STATE_STANDBY 1) with rel := { ckptBad := 2 } })).hub.calm = true ∧ (on (fun h => { ((h.wr F.GLB_HUB_PAIR 1).wr F.PAIR_STATE_STANDBY 1) with rel := { ckptBad := 2 } })).hub.pairReady = true ∧ (on (fun h => { ((h.wr F.GLB_HUB_PAIR 1).wr F.PAIR_STATE_STANDBY 1) with rel := { ckptBad := 2 } })).hub.rel.ckptBad = 2) := by
  and_intros <;> decide +kernel

set_option maxRecDepth 100000 in
/-- The hypotheses of the_rack_link_trains_retries_and_goes_down can be met, clause by clause. -/
theorem witness_the_rack_link_trains_retries_and_goes_down :
    ((on (fun h => h.wr F.LINK_STATE_STATE Lk.FEC_LOCK)).hub.calm = true ∧ (List.replicate 544 (0 : BitVec 10) : List (BitVec 10)).length = 544 ∧ (on (fun h => h.wr F.LINK_STATE_STATE Lk.FEC_LOCK)).hub.flag F.LINK_CTRL_PCS_LOOPBACK = false ∧ (on (fun h => h.wr F.LINK_STATE_STATE Lk.FEC_LOCK)).hub.linkSt = Lk.FEC_LOCK ∧ (on (fun h => h.wr F.LINK_STATE_STATE Lk.FEC_LOCK)).hub.flag F.LINK_STATE_FEC_LOCKED = false ∧ (on (fun h => h.wr F.LINK_STATE_STATE Lk.FEC_LOCK)).hub.link.lockRun < 63 ∧ rsDecode ((List.replicate 544 (0 : BitVec 10) : List (BitVec 10)).map BitVec.toNat) = some ((List.replicate 514 0 : List Nat), (0 : Nat)) ∧ ((codewordOf (List.replicate 514 0 : List Nat)).sync && (codewordOf (List.replicate 514 0 : List Nat)).seq == (on (fun h => h.wr F.LINK_STATE_STATE Lk.FEC_LOCK)).hub.link.cwExpect) = (false : Bool)) ∧
    ((on (fun h => (h.wr F.LINK_STATE_STATE Lk.UP))).hub.calm = true ∧ ((let b := le 1 0 ++ le 2 0 ++ le 2 0 ++ le 1 255 ++ le 1 1 ++ le 1 9 ++ zeros 68; b ++ le 4 (crc32c b)) : List Byte).length = 80 ∧ (on (fun h => (h.wr F.LINK_STATE_STATE Lk.UP))).hub.linkUp = true ∧ flitGood ((let b := le 1 0 ++ le 2 0 ++ le 2 0 ++ le 1 255 ++ le 1 1 ++ le 1 9 ++ zeros 68; b ++ le 4 (crc32c b)) : List Byte) = true ∧ Fl.kind ((let b := le 1 0 ++ le 2 0 ++ le 2 0 ++ le 1 255 ++ le 1 1 ++ le 1 9 ++ zeros 68; b ++ le 4 (crc32c b)) : List Byte) = 0 ∧ bitAt (Fl.ack ((let b := le 1 0 ++ le 2 0 ++ le 2 0 ++ le 1 255 ++ le 1 1 ++ le 1 9 ++ zeros 68; b ++ le 4 (crc32c b)) : List Byte)) 12 = false ∧ bitAt (Fl.nak ((let b := le 1 0 ++ le 2 0 ++ le 2 0 ++ le 1 255 ++ le 1 1 ++ le 1 9 ++ zeros 68; b ++ le 4 (crc32c b)) : List Byte)) 12 = false) ∧
    ((on (fun h => (h.wr F.LINK_STATE_STATE Lk.UP))).hub.calm = true ∧ ((let b := le 1 1 ++ le 2 0 ++ le 2 0 ++ le 1 255 ++ le 1 1 ++ le 1 9 ++ zeros 68; b ++ le 4 (crc32c b)) : List Byte).length = 80 ∧ (on (fun h => (h.wr F.LINK_STATE_STATE Lk.UP))).hub.linkUp = true ∧ flitGood ((let b := le 1 1 ++ le 2 0 ++ le 2 0 ++ le 1 255 ++ le 1 1 ++ le 1 9 ++ zeros 68; b ++ le 4 (crc32c b)) : List Byte) = true ∧ Fl.kind ((let b := le 1 1 ++ le 2 0 ++ le 2 0 ++ le 1 255 ++ le 1 1 ++ le 1 9 ++ zeros 68; b ++ le 4 (crc32c b)) : List Byte) = 1 ∧ Fl.cls ((let b := le 1 1 ++ le 2 0 ++ le 2 0 ++ le 1 255 ++ le 1 1 ++ le 1 9 ++ zeros 68; b ++ le 4 (crc32c b)) : List Byte) = 0 ∧ Fl.seq ((let b := le 1 1 ++ le 2 0 ++ le 2 0 ++ le 1 255 ++ le 1 1 ++ le 1 9 ++ zeros 68; b ++ le 4 (crc32c b)) : List Byte) = (on (fun h => (h.wr F.LINK_STATE_STATE Lk.UP))).hub.link.rxExpect ∧ (on (fun h => (h.wr F.LINK_STATE_STATE Lk.UP))).hub.commandCredits ≠ 0 ∧ takeMessages 9 ((on (fun h => (h.wr F.LINK_STATE_STATE Lk.UP))).hub.link.rxMsg ++ Fl.payload ((let b := le 1 1 ++ le 2 0 ++ le 2 0 ++ le 1 255 ++ le 1 1 ++ le 1 9 ++ zeros 68; b ++ le 4 (crc32c b)) : List Byte)) [] = ([], ([] : List Byte)) ∧ bitAt (Fl.ack ((let b := le 1 1 ++ le 2 0 ++ le 2 0 ++ le 1 255 ++ le 1 1 ++ le 1 9 ++ zeros 68; b ++ le 4 (crc32c b)) : List Byte)) 12 = false ∧ bitAt (Fl.nak ((let b := le 1 1 ++ le 2 0 ++ le 2 0 ++ le 1 255 ++ le 1 1 ++ le 1 9 ++ zeros 68; b ++ le 4 (crc32c b)) : List Byte)) 12 = false) ∧
    ((on (fun h => (h.wr F.LINK_STATE_STATE Lk.UP))).hub.calm = true ∧ (zeros 80 : List Byte).length = 80 ∧ (on (fun h => (h.wr F.LINK_STATE_STATE Lk.UP))).hub.linkUp = true ∧ flitGood (zeros 80 : List Byte) = false ∧ (on (fun h => (h.wr F.LINK_STATE_STATE Lk.UP))).hub.link.nakOut = false) ∧
    ((on (fun h => h.wr F.LINK_STATE_STATE Lk.INIT)).hub.calm = true ∧ ((let b := le 1 2 ++ zeros 4 ++ le 1 255 ++ zeros 6 ++ le 1 1 ++ le 1 1 ++ le 2 300 ++ le 1 7 ++ le 1 8 ++ le 2 9 ++ zeros 56; b ++ le 4 (crc32c b)) : List Byte).length = 80 ∧ (on (fun h => h.wr F.LINK_STATE_STATE Lk.INIT)).hub.linkSt = Lk.INIT ∧ flitGood ((let b := le 1 2 ++ zeros 4 ++ le 1 255 ++ zeros 6 ++ le 1 1 ++ le 1 1 ++ le 2 300 ++ le 1 7 ++ le 1 8 ++ le 2 9 ++ zeros 56; b ++ le 4 (crc32c b)) : List Byte) = true ∧ Fl.kind ((let b := le 1 2 ++ zeros 4 ++ le 1 255 ++ zeros 6 ++ le 1 1 ++ le 1 1 ++ le 2 300 ++ le 1 7 ++ le 1 8 ++ le 2 9 ++ zeros 56; b ++ le 4 (crc32c b)) : List Byte) = 2 ∧ leAt (Fl.payload ((let b := le 1 2 ++ zeros 4 ++ le 1 255 ++ zeros 6 ++ le 1 1 ++ le 1 1 ++ le 2 300 ++ le 1 7 ++ le 1 8 ++ le 2 9 ++ zeros 56; b ++ le 4 (crc32c b)) : List Byte)) 0 1 = 1 ∧ (on (fun h => h.wr F.LINK_STATE_STATE Lk.INIT)).hub.link.initAckSent = false) ∧
    ((on (fun h => h.wr F.LINK_STATE_STATE Lk.INIT)).hub.calm = true ∧ ((let b := le 1 2 ++ zeros 75; b ++ le 4 (crc32c b)) : List Byte).length = 80 ∧ (on (fun h => h.wr F.LINK_STATE_STATE Lk.INIT)).hub.linkSt = Lk.INIT ∧ flitGood ((let b := le 1 2 ++ zeros 75; b ++ le 4 (crc32c b)) : List Byte) = true ∧ Fl.kind ((let b := le 1 2 ++ zeros 75; b ++ le 4 (crc32c b)) : List Byte) = 2 ∧ leAt (Fl.payload ((let b := le 1 2 ++ zeros 75; b ++ le 4 (crc32c b)) : List Byte)) 0 1 ≠ 1) ∧
    ((on (fun h => h.wr F.LINK_STATE_STATE Lk.FEC_LOCK)).hub.calm = true ∧ (on (fun h => h.wr F.LINK_STATE_STATE Lk.FEC_LOCK)).hub.linkSt = Lk.FEC_LOCK ∧ (on (fun h => h.wr F.LINK_STATE_STATE Lk.FEC_LOCK)).hub.link.txFifo.length < 16) ∧
    ((on (fun h => { (h.wr F.LINK_STATE_STATE Lk.UP) with link := { h.link with replayPos := some 0, replayBuf := [zeros 80] } })).hub.calm = true ∧ (on (fun h => { (h.wr F.LINK_STATE_STATE Lk.UP) with link := { h.link with replayPos := some 0, replayBuf := [zeros 80] } })).hub.linkSt = Lk.UP ∧ (on (fun h => { (h.wr F.LINK_STATE_STATE Lk.UP) with link := { h.link with replayPos := some 0, replayBuf := [zeros 80] } })).hub.link.txFifo.length < 16 ∧ (on (fun h => { (h.wr F.LINK_STATE_STATE Lk.UP) with link := { h.link with replayPos := some 0, replayBuf := [zeros 80] } })).hub.link.replayPos = some (0 : Nat)) ∧
    ((on (fun h => { (h.wr F.LINK_STATE_STATE Lk.UP) with link := { h.link with cmdQ := [{ bytes := [2, 0, 0, 0, 0, 0, 0, 0] }], credit := ⟨[(0, 3)]⟩ } })).hub.calm = true ∧ (on (fun h => { (h.wr F.LINK_STATE_STATE Lk.UP) with link := { h.link with cmdQ := [{ bytes := [2, 0, 0, 0, 0, 0, 0, 0] }], credit := ⟨[(0, 3)]⟩ } })).hub.linkSt = Lk.UP ∧ (on (fun h => { (h.wr F.LINK_STATE_STATE Lk.UP) with link := { h.link with cmdQ := [{ bytes := [2, 0, 0, 0, 0, 0, 0, 0] }], credit := ⟨[(0, 3)]⟩ } })).hub.link.txFifo.length < 16 ∧ (on (fun h => { (h.wr F.LINK_STATE_STATE Lk.UP) with link := { h.link with cmdQ := [{ bytes := [2, 0, 0, 0, 0, 0, 0, 0] }], credit := ⟨[(0, 3)]⟩ } })).hub.link.replayPos = none ∧ (on (fun h => { (h.wr F.LINK_STATE_STATE Lk.UP) with link := { h.link with cmdQ := [{ bytes := [2, 0, 0, 0, 0, 0, 0, 0] }], credit := ⟨[(0, 3)]⟩ } })).hub.mayClass 0 = true) ∧
    ((on (fun h => { (h.wr F.LINK_STATE_STATE Lk.UP) with link := { h.link with txFifo := List.replicate 16 [] } })).hub.calm = true ∧ (on (fun h => { (h.wr F.LINK_STATE_STATE Lk.UP) with link := { h.link with txFifo := List.replicate 16 [] } })).hub.linkSt = Lk.UP ∧ (on (fun h => { (h.wr F.LINK_STATE_STATE Lk.UP) with link := { h.link with txFifo := List.replicate 16 [] } })).hub.rack.active = none ∧ 16 ≤ (on (fun h => { (h.wr F.LINK_STATE_STATE Lk.UP) with link := { h.link with txFifo := List.replicate 16 [] } })).hub.link.txFifo.length) ∧
    ((on (fun h => { (h.wr F.LINK_STATE_STATE Lk.UP) with link := { h.link with replayBuf := [zeros 80] } })).hub.calm = true ∧ (on (fun h => { (h.wr F.LINK_STATE_STATE Lk.UP) with link := { h.link with replayBuf := [zeros 80] } })).hub.linkUp = true ∧ (on (fun h => { (h.wr F.LINK_STATE_STATE Lk.UP) with link := { h.link with replayBuf := [zeros 80] } })).hub.link.replayBuf ≠ [] ∧ (on (fun h => { (h.wr F.LINK_STATE_STATE Lk.UP) with link := { h.link with replayBuf := [zeros 80] } })).hub.elapsed (on (fun h => { (h.wr F.LINK_STATE_STATE Lk.UP) with link := { h.link with replayBuf := [zeros 80] } })).hub.link.progressAt (on (fun h => { (h.wr F.LINK_STATE_STATE Lk.UP) with link := { h.link with replayBuf := [zeros 80] } })).hub.link.timeout = true ∧ (on (fun h => { (h.wr F.LINK_STATE_STATE Lk.UP) with link := { h.link with replayBuf := [zeros 80] } })).hub.link.replayRun < (on (fun h => { (h.wr F.LINK_STATE_STATE Lk.UP) with link := { h.link with replayBuf := [zeros 80] } })).hub.link.limit) ∧
    ((on (fun h => { (h.wr F.LINK_STATE_STATE Lk.UP) with link := { h.link with replayBuf := [zeros 80], replayRun := 16 } })).hub.calm = true ∧ (on (fun h => { (h.wr F.LINK_STATE_STATE Lk.UP) with link := { h.link with replayBuf := [zeros 80], replayRun := 16 } })).hub.linkUp = true ∧ (on (fun h => { (h.wr F.LINK_STATE_STATE Lk.UP) with link := { h.link with replayBuf := [zeros 80], replayRun := 16 } })).hub.link.replayBuf ≠ [] ∧ (on (fun h => { (h.wr F.LINK_STATE_STATE Lk.UP) with link := { h.link with replayBuf := [zeros 80], replayRun := 16 } })).hub.elapsed (on (fun h => { (h.wr F.LINK_STATE_STATE Lk.UP) with link := { h.link with replayBuf := [zeros 80], replayRun := 16 } })).hub.link.progressAt (on (fun h => { (h.wr F.LINK_STATE_STATE Lk.UP) with link := { h.link with replayBuf := [zeros 80], replayRun := 16 } })).hub.link.timeout = true ∧ (on (fun h => { (h.wr F.LINK_STATE_STATE Lk.UP) with link := { h.link with replayBuf := [zeros 80], replayRun := 16 } })).hub.link.limit ≤ (on (fun h => { (h.wr F.LINK_STATE_STATE Lk.UP) with link := { h.link with replayBuf := [zeros 80], replayRun := 16 } })).hub.link.replayRun ∧ (on (fun h => { (h.wr F.LINK_STATE_STATE Lk.UP) with link := { h.link with replayBuf := [zeros 80], replayRun := 16 } })).hub.rack.active = none) ∧
    ((on (fun h => { (h.wr F.LINK_STATE_STATE Lk.UP) with link := { h.link with nakOut := true } })).hub.calm = true ∧ (on (fun h => { (h.wr F.LINK_STATE_STATE Lk.UP) with link := { h.link with nakOut := true } })).hub.linkUp = true ∧ (on (fun h => { (h.wr F.LINK_STATE_STATE Lk.UP) with link := { h.link with nakOut := true } })).hub.link.nakOut = true ∧ (on (fun h => { (h.wr F.LINK_STATE_STATE Lk.UP) with link := { h.link with nakOut := true } })).hub.elapsed (on (fun h => { (h.wr F.LINK_STATE_STATE Lk.UP) with link := { h.link with nakOut := true } })).hub.link.nakAt (on (fun h => { (h.wr F.LINK_STATE_STATE Lk.UP) with link := { h.link with nakOut := true } })).hub.link.timeout = true) ∧
    ((on (fun h => { (h.wr F.LINK_STATE_STATE Lk.UP) with time := { h.time with hclk := 90000000 } })).hub.calm = true ∧ (on (fun h => { (h.wr F.LINK_STATE_STATE Lk.UP) with time := { h.time with hclk := 90000000 } })).hub.linkSt = Lk.UP ∧ (on (fun h => { (h.wr F.LINK_STATE_STATE Lk.UP) with time := { h.time with hclk := 90000000 } })).hub.rack.active = none ∧ (on (fun h => { (h.wr F.LINK_STATE_STATE Lk.UP) with time := { h.time with hclk := 90000000 } })).hub.rd F.LINK_IDLE_LIMIT_HCLK = (State.reset.hub.rd F.LINK_IDLE_LIMIT_HCLK : Nat) ∧ (on (fun h => { (h.wr F.LINK_STATE_STATE Lk.UP) with time := { h.time with hclk := 90000000 } })).hub.elapsed (on (fun h => { (h.wr F.LINK_STATE_STATE Lk.UP) with time := { h.time with hclk := 90000000 } })).hub.link.lastGood (if (State.reset.hub.rd F.LINK_IDLE_LIMIT_HCLK : Nat) < 256 then 256 else (State.reset.hub.rd F.LINK_IDLE_LIMIT_HCLK : Nat)) = true) ∧
    ((on (fun h => { (h.wr F.LINK_STATE_STATE Lk.FEC_LOCK) with time := { h.time with hclk := 900000000000 } })).hub.calm = true ∧ ((on (fun h => { (h.wr F.LINK_STATE_STATE Lk.FEC_LOCK) with time := { h.time with hclk := 900000000000 } })).hub.linkSt = Lk.FEC_LOCK ∨ (on (fun h => { (h.wr F.LINK_STATE_STATE Lk.FEC_LOCK) with time := { h.time with hclk := 900000000000 } })).hub.linkSt = Lk.PMA_WAIT) ∧ (on (fun h => { (h.wr F.LINK_STATE_STATE Lk.FEC_LOCK) with time := { h.time with hclk := 900000000000 } })).hub.elapsed (on (fun h => { (h.wr F.LINK_STATE_STATE Lk.FEC_LOCK) with time := { h.time with hclk := 900000000000 } })).hub.link.retrainAt ((on (fun h => { (h.wr F.LINK_STATE_STATE Lk.FEC_LOCK) with time := { h.time with hclk := 900000000000 } })).hub.rd F.LINK_TRAIN_LIMIT_HCLK) = true) ∧
    ((on (fun h => { ((h.wr F.LINK_STATE_STATE Lk.DOWN).wr F.LINK_CTRL_EN 1).wr F.LINK_CTRL_AUTO_RETRAIN 1 with time := { h.time with hclk := 90000000 } })).hub.calm = true ∧ (on (fun h => { ((h.wr F.LINK_STATE_STATE Lk.DOWN).wr F.LINK_CTRL_EN 1).wr F.LINK_CTRL_AUTO_RETRAIN 1 with time := { h.time with hclk := 90000000 } })).hub.linkSt = Lk.DOWN ∧ (on (fun h => { ((h.wr F.LINK_STATE_STATE Lk.DOWN).wr F.LINK_CTRL_EN 1).wr F.LINK_CTRL_AUTO_RETRAIN 1 with time := { h.time with hclk := 90000000 } })).hub.portOn = true ∧ (on (fun h => { ((h.wr F.LINK_STATE_STATE Lk.DOWN).wr F.LINK_CTRL_EN 1).wr F.LINK_CTRL_AUTO_RETRAIN 1 with time := { h.time with hclk := 90000000 } })).hub.flag F.LINK_CTRL_AUTO_RETRAIN = true ∧ (on (fun h => { ((h.wr F.LINK_STATE_STATE Lk.DOWN).wr F.LINK_CTRL_EN 1).wr F.LINK_CTRL_AUTO_RETRAIN 1 with time := { h.time with hclk := 90000000 } })).hub.link.noAuto = false ∧ (on (fun h => { ((h.wr F.LINK_STATE_STATE Lk.DOWN).wr F.LINK_CTRL_EN 1).wr F.LINK_CTRL_AUTO_RETRAIN 1 with time := { h.time with hclk := 90000000 } })).hub.elapsed (on (fun h => { ((h.wr F.LINK_STATE_STATE Lk.DOWN).wr F.LINK_CTRL_EN 1).wr F.LINK_CTRL_AUTO_RETRAIN 1 with time := { h.time with hclk := 90000000 } })).hub.link.since Config.millisecond = true) ∧
    ((on (fun h => h.wr F.LINK_STATE_STATE Lk.PMA_WAIT)).hub.calm = true ∧ (on (fun h => h.wr F.LINK_STATE_STATE Lk.PMA_WAIT)).hub.isLead = true ∧ (on (fun h => h.wr F.LINK_STATE_STATE Lk.PMA_WAIT)).hub.linkSt = Lk.PMA_WAIT) ∧
    ((on (fun h => (h.wr F.LINK_STATE_STATE Lk.UP))).hub.calm = true ∧ (on (fun h => (h.wr F.LINK_STATE_STATE Lk.UP))).hub.isLead = true ∧ (on (fun h => (h.wr F.LINK_STATE_STATE Lk.UP))).hub.linkSt = Lk.UP ∧ (on (fun h => (h.wr F.LINK_STATE_STATE Lk.UP))).hub.rack.active = none) ∧
    ((on (fun h => (h.wr F.LINK_STATE_STATE Lk.UP))).hub.calm = true ∧ (on (fun h => (h.wr F.LINK_STATE_STATE Lk.UP))).hub.takesWrite (.mgmt : Req) R.LINK_CMD 1 = true ∧ (on (fun h => (h.wr F.LINK_STATE_STATE Lk.UP))).hub.linkCheck 1 = St.OK ∧ (on (fun h => (h.wr F.LINK_STATE_STATE Lk.UP))).hub.linkSt = Lk.UP ∧ (on (fun h => (h.wr F.LINK_STATE_STATE Lk.UP))).hub.rack.active = none) ∧
    ((on (fun h => (h.wr F.LINK_STATE_STATE Lk.UP))).hub.calm = true ∧ (on (fun h => (h.wr F.LINK_STATE_STATE Lk.UP))).hub.takesWrite (.mgmt : Req) R.LINK_CMD 2 = true ∧ (on (fun h => (h.wr F.LINK_STATE_STATE Lk.UP))).hub.linkCheck 2 = St.OK ∧ (on (fun h => (h.wr F.LINK_STATE_STATE Lk.UP))).hub.linkSt = Lk.UP ∧ (on (fun h => (h.wr F.LINK_STATE_STATE Lk.UP))).hub.rack.active = none) ∧
    ((on (fun h => (h.wr F.LINK_STATE_STATE Lk.UP))).hub.calm = true ∧ (on (fun h => (h.wr F.LINK_STATE_STATE Lk.UP))).hub.takesWrite (.mgmt : Req) R.LINK_CMD 3 = true ∧ (on (fun h => (h.wr F.LINK_STATE_STATE Lk.UP))).hub.linkCheck 3 = St.OK) ∧
    ((on (fun h => { (h.wr F.LINK_STATE_STATE Lk.UP) with link := { h.link with inFlight := [(7, {}), (4096, {})] } })).hub.calm = true ∧ (on (fun h => { (h.wr F.LINK_STATE_STATE Lk.UP) with link := { h.link with inFlight := [(7, {}), (4096, {})] } })).hub.link.inFlight.find? (fun p => p.1 == 4096) = some (4096, ({} : Msg)) ∧ ({} : Msg).src = .resp) := by
  and_intros <;> decide +kernel

/-- The hypotheses of the_rack_port_executes_the_requests_it_takes can be met, clause by clause. -/
theorem witness_the_rack_port_executes_the_requests_it_takes :
    ((on (fun h => (h.wr F.LINK_STATE_STATE Lk.UP))).hub.calm = true ∧ (on (fun h => (h.wr F.LINK_STATE_STATE Lk.UP))).hub.takesMessage Mt.REG_READ (7 : BitVec 16).toNat (130 : BitVec 16).toNat ((le 4 R.GLB_HUB ++ le 1 1 ++ zeros 3) : List Byte) = true ∧ (130 : BitVec 16).toNat = (on (fun h => (h.wr F.LINK_STATE_STATE Lk.UP))).hub.hubAddr ∧ (on (fun h => (h.wr F.LINK_STATE_STATE Lk.UP))).hub.wr F.LINK_TAG_LAST (7 : BitVec 16).toNat = (((on (fun h => (h.wr F.LINK_STATE_STATE Lk.UP))).hub.wr F.LINK_TAG_LAST 7) : Hub) ∧ leAt ((le 4 R.GLB_HUB ++ le 1 1 ++ zeros 3) : List Byte) 0 4 = (R.GLB_HUB : Nat) ∧ leAt ((le 4 R.GLB_HUB ++ le 1 1 ++ zeros 3) : List Byte) 4 1 = 1 ∧ (R.GLB_HUB : Nat) < 2 ^ 20 ∧ (((on (fun h => (h.wr F.LINK_STATE_STATE Lk.UP))).hub.wr F.LINK_TAG_LAST 7) : Hub).accessStatus .port (R.GLB_HUB : Nat) false 0 = St.OK ∧ (regDef (normAddr (R.GLB_HUB : Nat))).isSome = true ∧ inWindow (normAddr (R.GLB_HUB : Nat)) = false ∧ isHi (normAddr (R.GLB_HUB : Nat)) = false ∧ [R.TASTE_EVID_DATA, R.COOP_PROG_DATA, R.COOP_DATA_DATA, R.AUTH_DATA, R.TIME_GCN_LO].contains (baseAddr (normAddr (R.GLB_HUB : Nat))) = false ∧ isLo (normAddr (R.GLB_HUB : Nat)) = false) ∧
    ((on (fun h => (h.wr F.LINK_STATE_STATE Lk.UP))).hub.calm = true ∧ (on (fun h => (h.wr F.LINK_STATE_STATE Lk.UP))).hub.takesMessage Mt.REG_READ (7 : BitVec 16).toNat (131 : BitVec 16).toNat ((le 4 R.GLB_HUB ++ le 1 1 ++ zeros 3) : List Byte) = true ∧ (131 : BitVec 16).toNat ≠ (on (fun h => (h.wr F.LINK_STATE_STATE Lk.UP))).hub.hubAddr ∧ packageOf (131 : BitVec 16).toNat = packageOf (on (fun h => (h.wr F.LINK_STATE_STATE Lk.UP))).hub.hubAddr ∧ fieldOf (131 : BitVec 16).toNat ≠ 127 ∧ leAt ((le 4 R.GLB_HUB ++ le 1 1 ++ zeros 3) : List Byte) 4 1 = 1 ∧ leAt ((le 4 R.GLB_HUB ++ le 1 1 ++ zeros 3) : List Byte) 0 4 < 2 ^ 20 ∧ (on (fun h => (h.wr F.LINK_STATE_STATE Lk.UP))).hub.relayStatus (leAt ((le 4 R.GLB_HUB ++ le 1 1 ++ zeros 3) : List Byte) 0 4) 1 false = St.OK) ∧
    ((on (fun h => { (h.wr F.LINK_STATE_STATE Lk.UP) with link := { tagTab := [{ tag := 7, type := 1, resp := [3] }] } })).hub.calm = true ∧ (on (fun h => { (h.wr F.LINK_STATE_STATE Lk.UP) with link := { tagTab := [{ tag := 7, type := 1, resp := [3] }] } })).hub.linkUp = true ∧ (on (fun h => { (h.wr F.LINK_STATE_STATE Lk.UP) with link := { tagTab := [{ tag := 7, type := 1, resp := [3] }] } })).hub.relayPending = false ∧ messageOk (message Mt.REG_READ 0 (7 : BitVec 16).toNat (130 : BitVec 16).toNat ((le 4 R.GLB_HUB ++ le 1 1 ++ zeros 3) : List Byte)) = true ∧ (on (fun h => { (h.wr F.LINK_STATE_STATE Lk.UP) with link := { tagTab := [{ tag := 7, type := 1, resp := [3] }] } })).hub.link.tagTab.find? (fun e => e.tag == (7 : BitVec 16).toNat && e.type == Mt.REG_READ) = some ({ tag := 7, type := 1, resp := [3] } : TagEnt) ∧ ({ tag := 7, type := 1, resp := [3] } : TagEnt).resp ≠ []) ∧
    ((on (fun h => (h.wr F.LINK_STATE_STATE Lk.UP))).hub.calm = true ∧ (on (fun h => (h.wr F.LINK_STATE_STATE Lk.UP))).hub.takesMessage Mt.REG_WRITE (7 : BitVec 16).toNat (130 : BitVec 16).toNat ((le 4 R.GLB_CTX_RECT ++ le 1 1 ++ zeros 3 ++ le 4 0x01020304) : List Byte) = true ∧ (130 : BitVec 16).toNat = (on (fun h => (h.wr F.LINK_STATE_STATE Lk.UP))).hub.hubAddr ∧ leAt ((le 4 R.GLB_CTX_RECT ++ le 1 1 ++ zeros 3 ++ le 4 0x01020304) : List Byte) 0 4 = R.GLB_CTX_RECT ∧ leAt ((le 4 R.GLB_CTX_RECT ++ le 1 1 ++ zeros 3 ++ le 4 0x01020304) : List Byte) 4 1 = 1 ∧ leAt ((le 4 R.GLB_CTX_RECT ++ le 1 1 ++ zeros 3 ++ le 4 0x01020304) : List Byte) 8 4 = (0x01020304 : Nat) ∧ (on (fun h => (h.wr F.LINK_STATE_STATE Lk.UP))).hub.takesWrite .port R.GLB_CTX_RECT (0x01020304 : Nat) = true ∧ (on (fun h => (h.wr F.LINK_STATE_STATE Lk.UP))).hub.flag F.GLB_CMD_STATUS_DONE = true) ∧
    ((on (fun h => h.running3.wr F.LINK_STATE_STATE Lk.UP)).hub.calm = true ∧ (on (fun h => h.running3.wr F.LINK_STATE_STATE Lk.UP)).hub.takesMessage Mt.CORK (7 : BitVec 16).toNat (130 : BitVec 16).toNat ((le 1 1 ++ zeros 3 ++ le 4 0xC0 ++ zeros 20) : List Byte) = true ∧ (130 : BitVec 16).toNat = (on (fun h => h.running3.wr F.LINK_STATE_STATE Lk.UP)).hub.hubAddr ∧ (on (fun h => h.running3.wr F.LINK_STATE_STATE Lk.UP)).hub.wr F.LINK_TAG_LAST (7 : BitVec 16).toNat = (((on (fun h => h.running3.wr F.LINK_STATE_STATE Lk.UP)).hub.wr F.LINK_TAG_LAST 7) : Hub) ∧ leAt ((le 1 1 ++ zeros 3 ++ le 4 0xC0 ++ zeros 20) : List Byte) 0 1 = 1 ∧ (((on (fun h => h.running3.wr F.LINK_STATE_STATE Lk.UP)).hub.wr F.LINK_TAG_LAST 7) : Hub).corkCheck true 1 (corkBodyArgs ((le 1 1 ++ zeros 3 ++ le 4 0xC0 ++ zeros 20) : List Byte)) = St.OK ∧ (((on (fun h => h.running3.wr F.LINK_STATE_STATE Lk.UP)).hub.wr F.LINK_TAG_LAST 7) : Hub).alreadyStopped (corkBodyArgs ((le 1 1 ++ zeros 3 ++ le 4 0xC0 ++ zeros 20) : List Byte)) = false ∧ (3 : Nat) ∈ (((on (fun h => h.running3.wr F.LINK_STATE_STATE Lk.UP)).hub.wr F.LINK_TAG_LAST 7) : Hub).liveSlots 1 (corkBodyArgs ((le 1 1 ++ zeros 3 ++ le 4 0xC0 ++ zeros 20) : List Byte)) ∧ (corkBodyArgs ((le 1 1 ++ zeros 3 ++ le 4 0xC0 ++ zeros 20) : List Byte)).xpkg = false) ∧
    ((on (fun h => (h.wr F.LINK_STATE_STATE Lk.UP))).hub.calm = true ∧ (on (fun h => (h.wr F.LINK_STATE_STATE Lk.UP))).hub.takesMessage Mt.XPKG (7 : BitVec 16).toNat (131 : BitVec 16).toNat ((zeros 36) : List Byte) = true ∧ (131 : BitVec 16).toNat ≠ (on (fun h => (h.wr F.LINK_STATE_STATE Lk.UP))).hub.hubAddr) ∧
    ((on (fun h => h.running3.wr F.LINK_STATE_STATE Lk.UP |>.wr F.FED_CTRL_EN 1)).hub.calm = true ∧ (on (fun h => h.running3.wr F.LINK_STATE_STATE Lk.UP |>.wr F.FED_CTRL_EN 1)).hub.takesMessage Mt.XPKG (7 : BitVec 16).toNat (130 : BitVec 16).toNat ((le 1 1 ++ zeros 1 ++ le 2 300 ++ le 4 9 ++ (le 1 1 ++ zeros 3 ++ le 4 0x000000C1 ++ zeros 20)) : List Byte) = true ∧ (130 : BitVec 16).toNat = (on (fun h => h.running3.wr F.LINK_STATE_STATE Lk.UP |>.wr F.FED_CTRL_EN 1)).hub.hubAddr ∧ (on (fun h => h.running3.wr F.LINK_STATE_STATE Lk.UP |>.wr F.FED_CTRL_EN 1)).hub.wr F.LINK_TAG_LAST (7 : BitVec 16).toNat = (((on (fun h => h.running3.wr F.LINK_STATE_STATE Lk.UP |>.wr F.FED_CTRL_EN 1)).hub.wr F.LINK_TAG_LAST 7) : Hub) ∧ leAt ((le 1 1 ++ zeros 1 ++ le 2 300 ++ le 4 9 ++ (le 1 1 ++ zeros 3 ++ le 4 0x000000C1 ++ zeros 20)) : List Byte) 0 1 = 1 ∧ ((le 1 1 ++ zeros 1 ++ le 2 300 ++ le 4 9 ++ (le 1 1 ++ zeros 3 ++ le 4 0x000000C1 ++ zeros 20)) : List Byte).length = 36 ∧ leAt ((le 1 1 ++ zeros 1 ++ le 2 300 ++ le 4 9 ++ (le 1 1 ++ zeros 3 ++ le 4 0x000000C1 ++ zeros 20)) : List Byte) 8 1 = 1 ∧ { corkBodyArgs (((le 1 1 ++ zeros 1 ++ le 2 300 ++ le 4 9 ++ (le 1 1 ++ zeros 3 ++ le 4 0x000000C1 ++ zeros 20)) : List Byte).drop 8) with fed := true, xpkg := false } = ({ corkBodyArgs (le 1 1 ++ zeros 3 ++ le 4 0xC1 ++ zeros 20) with fed := true, xpkg := false } : CorkArgs) ∧ (((on (fun h => h.running3.wr F.LINK_STATE_STATE Lk.UP |>.wr F.FED_CTRL_EN 1)).hub.wr F.LINK_TAG_LAST 7) : Hub).tooSoon ({ corkBodyArgs (le 1 1 ++ zeros 3 ++ le 4 0xC1 ++ zeros 20) with fed := true, xpkg := false } : CorkArgs) = false ∧ (((on (fun h => h.running3.wr F.LINK_STATE_STATE Lk.UP |>.wr F.FED_CTRL_EN 1)).hub.wr F.LINK_TAG_LAST 7) : Hub).corkCheck false 1 ({ corkBodyArgs (le 1 1 ++ zeros 3 ++ le 4 0xC1 ++ zeros 20) with fed := true, xpkg := false } : CorkArgs) = St.OK ∧ (((on (fun h => h.running3.wr F.LINK_STATE_STATE Lk.UP |>.wr F.FED_CTRL_EN 1)).hub.wr F.LINK_TAG_LAST 7) : Hub).alreadyStopped ({ corkBodyArgs (le 1 1 ++ zeros 3 ++ le 4 0xC1 ++ zeros 20) with fed := true, xpkg := false } : CorkArgs) = false ∧ (3 : Nat) ∈ (((on (fun h => h.running3.wr F.LINK_STATE_STATE Lk.UP |>.wr F.FED_CTRL_EN 1)).hub.wr F.LINK_TAG_LAST 7) : Hub).liveSlots 1 ({ corkBodyArgs (le 1 1 ++ zeros 3 ++ le 4 0xC1 ++ zeros 20) with fed := true, xpkg := false } : CorkArgs)) ∧
    ((on (fun h => { (h.wr F.LINK_STATE_STATE Lk.UP) with corks := [{ id := 4, xpkg := true, xid := 9, packages := [2, 3] }] })).hub.calm = true ∧ (on (fun h => { (h.wr F.LINK_STATE_STATE Lk.UP) with corks := [{ id := 4, xpkg := true, xid := 9, packages := [2, 3] }] })).hub.takesMessage Mt.XPKG_REPORT (7 : BitVec 16).toNat (130 : BitVec 16).toNat ((le 4 9 ++ zeros 2 ++ le 2 300 ++ zeros 8) : List Byte) = true ∧ (on (fun h => { (h.wr F.LINK_STATE_STATE Lk.UP) with corks := [{ id := 4, xpkg := true, xid := 9, packages := [2, 3] }] })).hub.corks = [({ id := 4, xpkg := true, xid := 9, packages := [2, 3] } : CorkOp)] ∧ ({ id := 4, xpkg := true, xid := 9, packages := [2, 3] } : CorkOp).xpkg = true ∧ ({ id := 4, xpkg := true, xid := 9, packages := [2, 3] } : CorkOp).xid = leAt ((le 4 9 ++ zeros 2 ++ le 2 300 ++ zeros 8) : List Byte) 0 4 ∧ packageOf (leAt ((le 4 9 ++ zeros 2 ++ le 2 300 ++ zeros 8) : List Byte) 6 2) = (2 : Nat) ∧ ({ id := 4, xpkg := true, xid := 9, packages := [2, 3] } : CorkOp).packages = [(2 : Nat), (3 : Nat)] ∧ (2 : Nat) ≠ (3 : Nat) ∧ leAt ((le 4 9 ++ zeros 2 ++ le 2 300 ++ zeros 8) : List Byte) 4 1 = St.OK ∧ (on (fun h => { (h.wr F.LINK_STATE_STATE Lk.UP) with corks := [{ id := 4, xpkg := true, xid := 9, packages := [2, 3] }] })).hub.harv.op = 0) ∧
    ((on (fun h => (h.wr F.LINK_STATE_STATE Lk.UP).wr F.HANG_PEER_DEFAULT_POLICY 0)).hub.calm = true ∧ (on (fun h => (h.wr F.LINK_STATE_STATE Lk.UP).wr F.HANG_PEER_DEFAULT_POLICY 0)).hub.takesMessage Mt.PEER_LOST (7 : BitVec 16).toNat (130 : BitVec 16).toNat ((le 1 2 ++ le 1 1 ++ zeros 2 ++ le 2 7 ++ zeros 30) : List Byte) = true ∧ (130 : BitVec 16).toNat = (on (fun h => (h.wr F.LINK_STATE_STATE Lk.UP).wr F.HANG_PEER_DEFAULT_POLICY 0)).hub.hubAddr ∧ (on (fun h => (h.wr F.LINK_STATE_STATE Lk.UP).wr F.HANG_PEER_DEFAULT_POLICY 0)).hub.isSafe = false ∧ leAt ((le 1 2 ++ le 1 1 ++ zeros 2 ++ le 2 7 ++ zeros 30) : List Byte) 1 1 ≤ 16 ∧ (List.range (leAt ((le 1 2 ++ le 1 1 ++ zeros 2 ++ le 2 7 ++ zeros 30) : List Byte) 1 1)).map (fun i => leAt ((le 1 2 ++ le 1 1 ++ zeros 2 ++ le 2 7 ++ zeros 30) : List Byte) (4 + 2 * i) 2) = ([7] : List Nat) ∧ (on (fun h => (h.wr F.LINK_STATE_STATE Lk.UP).wr F.HANG_PEER_DEFAULT_POLICY 0)).hub.peerSeen (leAt ((le 1 2 ++ le 1 1 ++ zeros 2 ++ le 2 7 ++ zeros 30) : List Byte) 0 1) ([7] : List Nat) = false ∧ (on (fun h => (h.wr F.LINK_STATE_STATE Lk.UP).wr F.HANG_PEER_DEFAULT_POLICY 0)).hub.corks = [] ∧ (on (fun h => (h.wr F.LINK_STATE_STATE Lk.UP).wr F.HANG_PEER_DEFAULT_POLICY 0)).hub.rd F.HANG_PEER_DEFAULT_POLICY = 0 ∧ (List.range 16).all (fun i => (on (fun h => (h.wr F.LINK_STATE_STATE Lk.UP).wr F.HANG_PEER_DEFAULT_POLICY 0)).hub.rdB F.HANG_PEER_POLICY_VALID i != 1) = true) ∧
    ((on (fun h => (h.wr F.LINK_STATE_STATE Lk.UP))).hub.calm = true ∧ (on (fun h => (h.wr F.LINK_STATE_STATE Lk.UP))).hub.takesMessage Mt.TIME_PING (7 : BitVec 16).toNat (130 : BitVec 16).toNat ((le 8 77) : List Byte) = true ∧ (on (fun h => (h.wr F.LINK_STATE_STATE Lk.UP))).hub.isSafe = false) := by
  and_intros <;> decide +kernel

/-- The hypotheses of cooper_arithmetic_gives_the_result_of_its_table_row can be met, clause by clause. -/
theorem witness_cooper_arithmetic_gives_the_result_of_its_table_row :
    ((on (fun h => (h).setCoop 0 (script1 0x4000000 { pc := 3, w := ⟨[(1, 9), (2, 5)]⟩ }))).hub.calm = true ∧ (on (fun h => (h).setCoop 0 (script1 0x4000000 { pc := 3, w := ⟨[(1, 9), (2, 5)]⟩ }))).hub.coop (0 : CoopId) = ((script1 0x4000000 { pc := 3, w := ⟨[(1, 9), (2, 5)]⟩ }) : Cooper) ∧ ((script1 0x4000000 { pc := 3, w := ⟨[(1, 9), (2, 5)]⟩ }) : Cooper).executes Co.NOP (0x4000000 : Nat) = true ∧ (on (fun h => (h).setCoop 0 (script1 0x4000000 { pc := 3, w := ⟨[(1, 9), (2, 5)]⟩ }))).hub.degradedNow = (on (fun h => (h).setCoop 0 (script1 0x4000000 { pc := 3, w := ⟨[(1, 9), (2, 5)]⟩ }))).hub.reg R.REL_DEGRADED) ∧
    ((on (fun h => (h).setCoop 0 (script1 0x8c0004d { pc := 3, w := ⟨[(1, 9), (2, 5)]⟩ }))).hub.calm = true ∧ (on (fun h => (h).setCoop 0 (script1 0x8c0004d { pc := 3, w := ⟨[(1, 9), (2, 5)]⟩ }))).hub.coop (0 : CoopId) = ((script1 0x8c0004d { pc := 3, w := ⟨[(1, 9), (2, 5)]⟩ }) : Cooper) ∧ ((script1 0x8c0004d { pc := 3, w := ⟨[(1, 9), (2, 5)]⟩ }) : Cooper).executes Co.LI (0x8c0004d : Nat) = true ∧ (on (fun h => (h).setCoop 0 (script1 0x8c0004d { pc := 3, w := ⟨[(1, 9), (2, 5)]⟩ }))).hub.degradedNow = (on (fun h => (h).setCoop 0 (script1 0x8c0004d { pc := 3, w := ⟨[(1, 9), (2, 5)]⟩ }))).hub.reg R.REL_DEGRADED) ∧
    ((on (fun h => (h).setCoop 0 (script1 0xc40004d { pc := 3, w := ⟨[(1, 9), (2, 5)]⟩ }))).hub.calm = true ∧ (on (fun h => (h).setCoop 0 (script1 0xc40004d { pc := 3, w := ⟨[(1, 9), (2, 5)]⟩ }))).hub.coop (0 : CoopId) = ((script1 0xc40004d { pc := 3, w := ⟨[(1, 9), (2, 5)]⟩ }) : Cooper) ∧ ((script1 0xc40004d { pc := 3, w := ⟨[(1, 9), (2, 5)]⟩ }) : Cooper).executes Co.LIH (0xc40004d : Nat) = true ∧ (on (fun h => (h).setCoop 0 (script1 0xc40004d { pc := 3, w := ⟨[(1, 9), (2, 5)]⟩ }))).hub.degradedNow = (on (fun h => (h).setCoop 0 (script1 0xc40004d { pc := 3, w := ⟨[(1, 9), (2, 5)]⟩ }))).hub.reg R.REL_DEGRADED) ∧
    ((on (fun h => (h).setCoop 0 (script1 0x10c7ffff { pc := 3, w := ⟨[(1, 9), (2, 5)]⟩ }))).hub.calm = true ∧ (on (fun h => (h).setCoop 0 (script1 0x10c7ffff { pc := 3, w := ⟨[(1, 9), (2, 5)]⟩ }))).hub.coop (0 : CoopId) = ((script1 0x10c7ffff { pc := 3, w := ⟨[(1, 9), (2, 5)]⟩ }) : Cooper) ∧ ((script1 0x10c7ffff { pc := 3, w := ⟨[(1, 9), (2, 5)]⟩ }) : Cooper).executes Co.ADDI (0x10c7ffff : Nat) = true ∧ (on (fun h => (h).setCoop 0 (script1 0x10c7ffff { pc := 3, w := ⟨[(1, 9), (2, 5)]⟩ }))).hub.degradedNow = (on (fun h => (h).setCoop 0 (script1 0x10c7ffff { pc := 3, w := ⟨[(1, 9), (2, 5)]⟩ }))).hub.reg R.REL_DEGRADED) ∧
    ((on (fun h => (h).setCoop 0 (script1 0x14c40003 { pc := 3, w := ⟨[(1, 9), (2, 5)]⟩ }))).hub.calm = true ∧ (on (fun h => (h).setCoop 0 (script1 0x14c40003 { pc := 3, w := ⟨[(1, 9), (2, 5)]⟩ }))).hub.coop (0 : CoopId) = ((script1 0x14c40003 { pc := 3, w := ⟨[(1, 9), (2, 5)]⟩ }) : Cooper) ∧ ((script1 0x14c40003 { pc := 3, w := ⟨[(1, 9), (2, 5)]⟩ }) : Cooper).executes Co.ANDI (0x14c40003 : Nat) = true ∧ (on (fun h => (h).setCoop 0 (script1 0x14c40003 { pc := 3, w := ⟨[(1, 9), (2, 5)]⟩ }))).hub.degradedNow = (on (fun h => (h).setCoop 0 (script1 0x14c40003 { pc := 3, w := ⟨[(1, 9), (2, 5)]⟩ }))).hub.reg R.REL_DEGRADED) ∧
    ((on (fun h => (h).setCoop 0 (script1 0x18c40006 { pc := 3, w := ⟨[(1, 9), (2, 5)]⟩ }))).hub.calm = true ∧ (on (fun h => (h).setCoop 0 (script1 0x18c40006 { pc := 3, w := ⟨[(1, 9), (2, 5)]⟩ }))).hub.coop (0 : CoopId) = ((script1 0x18c40006 { pc := 3, w := ⟨[(1, 9), (2, 5)]⟩ }) : Cooper) ∧ ((script1 0x18c40006 { pc := 3, w := ⟨[(1, 9), (2, 5)]⟩ }) : Cooper).executes Co.ORI (0x18c40006 : Nat) = true ∧ (on (fun h => (h).setCoop 0 (script1 0x18c40006 { pc := 3, w := ⟨[(1, 9), (2, 5)]⟩ }))).hub.degradedNow = (on (fun h => (h).setCoop 0 (script1 0x18c40006 { pc := 3, w := ⟨[(1, 9), (2, 5)]⟩ }))).hub.reg R.REL_DEGRADED) ∧
    ((on (fun h => (h).setCoop 0 (script1 0x20c48000 { pc := 3, w := ⟨[(1, 9), (2, 5)]⟩ }))).hub.calm = true ∧ (on (fun h => (h).setCoop 0 (script1 0x20c48000 { pc := 3, w := ⟨[(1, 9), (2, 5)]⟩ }))).hub.coop (0 : CoopId) = ((script1 0x20c48000 { pc := 3, w := ⟨[(1, 9), (2, 5)]⟩ }) : Cooper) ∧ ((script1 0x20c48000 { pc := 3, w := ⟨[(1, 9), (2, 5)]⟩ }) : Cooper).executes Co.ADD (0x20c48000 : Nat) = true ∧ (on (fun h => (h).setCoop 0 (script1 0x20c48000 { pc := 3, w := ⟨[(1, 9), (2, 5)]⟩ }))).hub.degradedNow = (on (fun h => (h).setCoop 0 (script1 0x20c48000 { pc := 3, w := ⟨[(1, 9), (2, 5)]⟩ }))).hub.reg R.REL_DEGRADED) ∧
    ((on (fun h => (h).setCoop 0 (script1 0x24c48000 { pc := 3, w := ⟨[(1, 9), (2, 5)]⟩ }))).hub.calm = true ∧ (on (fun h => (h).setCoop 0 (script1 0x24c48000 { pc := 3, w := ⟨[(1, 9), (2, 5)]⟩ }))).hub.coop (0 : CoopId) = ((script1 0x24c48000 { pc := 3, w := ⟨[(1, 9), (2, 5)]⟩ }) : Cooper) ∧ ((script1 0x24c48000 { pc := 3, w := ⟨[(1, 9), (2, 5)]⟩ }) : Cooper).executes Co.SUB (0x24c48000 : Nat) = true ∧ (on (fun h => (h).setCoop 0 (script1 0x24c48000 { pc := 3, w := ⟨[(1, 9), (2, 5)]⟩ }))).hub.degradedNow = (on (fun h => (h).setCoop 0 (script1 0x24c48000 { pc := 3, w := ⟨[(1, 9), (2, 5)]⟩ }))).hub.reg R.REL_DEGRADED) ∧
    ((on (fun h => (h).setCoop 0 (script1 0x28c48000 { pc := 3, w := ⟨[(1, 9), (2, 5)]⟩ }))).hub.calm = true ∧ (on (fun h => (h).setCoop 0 (script1 0x28c48000 { pc := 3, w := ⟨[(1, 9), (2, 5)]⟩ }))).hub.coop (0 : CoopId) = ((script1 0x28c48000 { pc := 3, w := ⟨[(1, 9), (2, 5)]⟩ }) : Cooper) ∧ ((script1 0x28c48000 { pc := 3, w := ⟨[(1, 9), (2, 5)]⟩ }) : Cooper).executes Co.AND (0x28c48000 : Nat) = true ∧ (on (fun h => (h).setCoop 0 (script1 0x28c48000 { pc := 3, w := ⟨[(1, 9), (2, 5)]⟩ }))).hub.degradedNow = (on (fun h => (h).setCoop 0 (script1 0x28c48000 { pc := 3, w := ⟨[(1, 9), (2, 5)]⟩ }))).hub.reg R.REL_DEGRADED) ∧
    ((on (fun h => (h).setCoop 0 (script1 0x2cc48000 { pc := 3, w := ⟨[(1, 9), (2, 5)]⟩ }))).hub.calm = true ∧ (on (fun h => (h).setCoop 0 (script1 0x2cc48000 { pc := 3, w := ⟨[(1, 9), (2, 5)]⟩ }))).hub.coop (0 : CoopId) = ((script1 0x2cc48000 { pc := 3, w := ⟨[(1, 9), (2, 5)]⟩ }) : Cooper) ∧ ((script1 0x2cc48000 { pc := 3, w := ⟨[(1, 9), (2, 5)]⟩ }) : Cooper).executes Co.OR (0x2cc48000 : Nat) = true ∧ (on (fun h => (h).setCoop 0 (script1 0x2cc48000 { pc := 3, w := ⟨[(1, 9), (2, 5)]⟩ }))).hub.degradedNow = (on (fun h => (h).setCoop 0 (script1 0x2cc48000 { pc := 3, w := ⟨[(1, 9), (2, 5)]⟩ }))).hub.reg R.REL_DEGRADED) ∧
    ((on (fun h => (h).setCoop 0 (script1 0x30c48000 { pc := 3, w := ⟨[(1, 9), (2, 5)]⟩ }))).hub.calm = true ∧ (on (fun h => (h).setCoop 0 (script1 0x30c48000 { pc := 3, w := ⟨[(1, 9), (2, 5)]⟩ }))).hub.coop (0 : CoopId) = ((script1 0x30c48000 { pc := 3, w := ⟨[(1, 9), (2, 5)]⟩ }) : Cooper) ∧ ((script1 0x30c48000 { pc := 3, w := ⟨[(1, 9), (2, 5)]⟩ }) : Cooper).executes Co.XOR (0x30c48000 : Nat) = true ∧ (on (fun h => (h).setCoop 0 (script1 0x30c48000 { pc := 3, w := ⟨[(1, 9), (2, 5)]⟩ }))).hub.degradedNow = (on (fun h => (h).setCoop 0 (script1 0x30c48000 { pc := 3, w := ⟨[(1, 9), (2, 5)]⟩ }))).hub.reg R.REL_DEGRADED) ∧
    ((on (fun h => (h).setCoop 0 (script1 0x34c48000 { pc := 3, w := ⟨[(1, 9), (2, 5)]⟩ }))).hub.calm = true ∧ (on (fun h => (h).setCoop 0 (script1 0x34c48000 { pc := 3, w := ⟨[(1, 9), (2, 5)]⟩ }))).hub.coop (0 : CoopId) = ((script1 0x34c48000 { pc := 3, w := ⟨[(1, 9), (2, 5)]⟩ }) : Cooper) ∧ ((script1 0x34c48000 { pc := 3, w := ⟨[(1, 9), (2, 5)]⟩ }) : Cooper).executes Co.SHL (0x34c48000 : Nat) = true ∧ (on (fun h => (h).setCoop 0 (script1 0x34c48000 { pc := 3, w := ⟨[(1, 9), (2, 5)]⟩ }))).hub.degradedNow = (on (fun h => (h).setCoop 0 (script1 0x34c48000 { pc := 3, w := ⟨[(1, 9), (2, 5)]⟩ }))).hub.reg R.REL_DEGRADED) ∧
    ((on (fun h => (h).setCoop 0 (script1 0x38c48000 { pc := 3, w := ⟨[(1, 9), (2, 5)]⟩ }))).hub.calm = true ∧ (on (fun h => (h).setCoop 0 (script1 0x38c48000 { pc := 3, w := ⟨[(1, 9), (2, 5)]⟩ }))).hub.coop (0 : CoopId) = ((script1 0x38c48000 { pc := 3, w := ⟨[(1, 9), (2, 5)]⟩ }) : Cooper) ∧ ((script1 0x38c48000 { pc := 3, w := ⟨[(1, 9), (2, 5)]⟩ }) : Cooper).executes Co.SHR (0x38c48000 : Nat) = true ∧ (on (fun h => (h).setCoop 0 (script1 0x38c48000 { pc := 3, w := ⟨[(1, 9), (2, 5)]⟩ }))).hub.degradedNow = (on (fun h => (h).setCoop 0 (script1 0x38c48000 { pc := 3, w := ⟨[(1, 9), (2, 5)]⟩ }))).hub.reg R.REL_DEGRADED) ∧
    ((on (fun h => (h).setCoop 0 (script1 0x40c40004 { pc := 3, w := ⟨[(1, 9)]⟩, data := ⟨[(13, 6)]⟩ }))).hub.calm = true ∧ (on (fun h => (h).setCoop 0 (script1 0x40c40004 { pc := 3, w := ⟨[(1, 9)]⟩, data := ⟨[(13, 6)]⟩ }))).hub.coop (0 : CoopId) = ((script1 0x40c40004 { pc := 3, w := ⟨[(1, 9)]⟩, data := ⟨[(13, 6)]⟩ }) : Cooper) ∧ ((script1 0x40c40004 { pc := 3, w := ⟨[(1, 9)]⟩, data := ⟨[(13, 6)]⟩ }) : Cooper).executes Co.LD (0x40c40004 : Nat) = true ∧ (on (fun h => (h).setCoop 0 (script1 0x40c40004 { pc := 3, w := ⟨[(1, 9)]⟩, data := ⟨[(13, 6)]⟩ }))).hub.degradedNow = (on (fun h => (h).setCoop 0 (script1 0x40c40004 { pc := 3, w := ⟨[(1, 9)]⟩, data := ⟨[(13, 6)]⟩ }))).hub.reg R.REL_DEGRADED ∧ ((script1 0x40c40004 { pc := 3, w := ⟨[(1, 9)]⟩, data := ⟨[(13, 6)]⟩ }) : Cooper).reg (Iw.f2 (0x40c40004 : Nat)) + Iw.imm (0x40c40004 : Nat) = (13 : Nat) ∧ (13 : Nat) < 256) ∧
    ((on (fun h => (h).setCoop 0 (script1 0x44840004 { pc := 3, w := ⟨[(1, 9), (2, 5)]⟩ }))).hub.calm = true ∧ (on (fun h => (h).setCoop 0 (script1 0x44840004 { pc := 3, w := ⟨[(1, 9), (2, 5)]⟩ }))).hub.coop (0 : CoopId) = ((script1 0x44840004 { pc := 3, w := ⟨[(1, 9), (2, 5)]⟩ }) : Cooper) ∧ ((script1 0x44840004 { pc := 3, w := ⟨[(1, 9), (2, 5)]⟩ }) : Cooper).executes Co.ST (0x44840004 : Nat) = true ∧ (on (fun h => (h).setCoop 0 (script1 0x44840004 { pc := 3, w := ⟨[(1, 9), (2, 5)]⟩ }))).hub.degradedNow = (on (fun h => (h).setCoop 0 (script1 0x44840004 { pc := 3, w := ⟨[(1, 9), (2, 5)]⟩ }))).hub.reg R.REL_DEGRADED ∧ ((script1 0x44840004 { pc := 3, w := ⟨[(1, 9), (2, 5)]⟩ }) : Cooper).reg (Iw.f2 (0x44840004 : Nat)) + Iw.imm (0x44840004 : Nat) = (13 : Nat) ∧ (13 : Nat) < 256) ∧
    ((on (fun h => (h).setCoop 0 (script1 0xacc00003 { pc := 3, last := { code := 5, hub := 130 } }))).hub.calm = true ∧ (on (fun h => (h).setCoop 0 (script1 0xacc00003 { pc := 3, last := { code := 5, hub := 130 } }))).hub.coop (0 : CoopId) = ((script1 0xacc00003 { pc := 3, last := { code := 5, hub := 130 } }) : Cooper) ∧ ((script1 0xacc00003 { pc := 3, last := { code := 5, hub := 130 } }) : Cooper).executes Co.GETEV (0xacc00003 : Nat) = true ∧ (on (fun h => (h).setCoop 0 (script1 0xacc00003 { pc := 3, last := { code := 5, hub := 130 } }))).hub.degradedNow = (on (fun h => (h).setCoop 0 (script1 0xacc00003 { pc := 3, last := { code := 5, hub := 130 } }))).hub.reg R.REL_DEGRADED ∧ Iw.imm (0xacc00003 : Nat) < 4) ∧
    ((on (fun h => (h).setCoop 0 (script1 0xb0c00000 { lastStatus := 7 }))).hub.calm = true ∧ (on (fun h => (h).setCoop 0 (script1 0xb0c00000 { lastStatus := 7 }))).hub.coop (0 : CoopId) = ((script1 0xb0c00000 { lastStatus := 7 }) : Cooper) ∧ ((script1 0xb0c00000 { lastStatus := 7 }) : Cooper).executes Co.STAT (0xb0c00000 : Nat) = true ∧ (on (fun h => (h).setCoop 0 (script1 0xb0c00000 { lastStatus := 7 }))).hub.degradedNow = (on (fun h => (h).setCoop 0 (script1 0xb0c00000 { lastStatus := 7 }))).hub.reg R.REL_DEGRADED) := by
  and_intros <;> decide +kernel

/-- The hypotheses of cooper_control_transfers_and_signatures can be met, clause by clause. -/
theorem witness_cooper_control_transfers_and_signatures :
    ((on (fun h => (h).setCoop 0 (script1 0x5003fffe { pc := 3, w := ⟨[(1, 9), (2, 5)]⟩ }))).hub.calm = true ∧ (on (fun h => (h).setCoop 0 (script1 0x5003fffe { pc := 3, w := ⟨[(1, 9), (2, 5)]⟩ }))).hub.coop (0 : CoopId) = ((script1 0x5003fffe { pc := 3, w := ⟨[(1, 9), (2, 5)]⟩ }) : Cooper) ∧ ((script1 0x5003fffe { pc := 3, w := ⟨[(1, 9), (2, 5)]⟩ }) : Cooper).executes Co.JMP (0x5003fffe : Nat) = true ∧ (on (fun h => (h).setCoop 0 (script1 0x5003fffe { pc := 3, w := ⟨[(1, 9), (2, 5)]⟩ }))).hub.degradedNow = (on (fun h => (h).setCoop 0 (script1 0x5003fffe { pc := 3, w := ⟨[(1, 9), (2, 5)]⟩ }))).hub.reg R.REL_DEGRADED) ∧
    ((on (fun h => (h).setCoop 0 (script1 0x544bfffe { pc := 3, w := ⟨[(1, 9), (2, 5)]⟩ }))).hub.calm = true ∧ (on (fun h => (h).setCoop 0 (script1 0x544bfffe { pc := 3, w := ⟨[(1, 9), (2, 5)]⟩ }))).hub.coop (0 : CoopId) = ((script1 0x544bfffe { pc := 3, w := ⟨[(1, 9), (2, 5)]⟩ }) : Cooper) ∧ ((script1 0x544bfffe { pc := 3, w := ⟨[(1, 9), (2, 5)]⟩ }) : Cooper).executes Co.BEQ (0x544bfffe : Nat) = true ∧ (on (fun h => (h).setCoop 0 (script1 0x544bfffe { pc := 3, w := ⟨[(1, 9), (2, 5)]⟩ }))).hub.degradedNow = (on (fun h => (h).setCoop 0 (script1 0x544bfffe { pc := 3, w := ⟨[(1, 9), (2, 5)]⟩ }))).hub.reg R.REL_DEGRADED) ∧
    ((on (fun h => (h).setCoop 0 (script1 0x584bfffe { pc := 3, w := ⟨[(1, 9), (2, 5)]⟩ }))).hub.calm = true ∧ (on (fun h => (h).setCoop 0 (script1 0x584bfffe { pc := 3, w := ⟨[(1, 9), (2, 5)]⟩ }))).hub.coop (0 : CoopId) = ((script1 0x584bfffe { pc := 3, w := ⟨[(1, 9), (2, 5)]⟩ }) : Cooper) ∧ ((script1 0x584bfffe { pc := 3, w := ⟨[(1, 9), (2, 5)]⟩ }) : Cooper).executes Co.BNE (0x584bfffe : Nat) = true ∧ (on (fun h => (h).setCoop 0 (script1 0x584bfffe { pc := 3, w := ⟨[(1, 9), (2, 5)]⟩ }))).hub.degradedNow = (on (fun h => (h).setCoop 0 (script1 0x584bfffe { pc := 3, w := ⟨[(1, 9), (2, 5)]⟩ }))).hub.reg R.REL_DEGRADED) ∧
    ((on (fun h => (h).setCoop 0 (script1 0x5c4bfffe { pc := 3, w := ⟨[(1, 9), (2, 5)]⟩ }))).hub.calm = true ∧ (on (fun h => (h).setCoop 0 (script1 0x5c4bfffe { pc := 3, w := ⟨[(1, 9), (2, 5)]⟩ }))).hub.coop (0 : CoopId) = ((script1 0x5c4bfffe { pc := 3, w := ⟨[(1, 9), (2, 5)]⟩ }) : Cooper) ∧ ((script1 0x5c4bfffe { pc := 3, w := ⟨[(1, 9), (2, 5)]⟩ }) : Cooper).executes Co.BLTU (0x5c4bfffe : Nat) = true ∧ (on (fun h => (h).setCoop 0 (script1 0x5c4bfffe { pc := 3, w := ⟨[(1, 9), (2, 5)]⟩ }))).hub.degradedNow = (on (fun h => (h).setCoop 0 (script1 0x5c4bfffe { pc := 3, w := ⟨[(1, 9), (2, 5)]⟩ }))).hub.reg R.REL_DEGRADED) ∧
    ((on (fun h => (h).setCoop 0 (script1 0x604bfffe { pc := 3, w := ⟨[(1, 9), (2, 5)]⟩ }))).hub.calm = true ∧ (on (fun h => (h).setCoop 0 (script1 0x604bfffe { pc := 3, w := ⟨[(1, 9), (2, 5)]⟩ }))).hub.coop (0 : CoopId) = ((script1 0x604bfffe { pc := 3, w := ⟨[(1, 9), (2, 5)]⟩ }) : Cooper) ∧ ((script1 0x604bfffe { pc := 3, w := ⟨[(1, 9), (2, 5)]⟩ }) : Cooper).executes Co.BGEU (0x604bfffe : Nat) = true ∧ (on (fun h => (h).setCoop 0 (script1 0x604bfffe { pc := 3, w := ⟨[(1, 9), (2, 5)]⟩ }))).hub.degradedNow = (on (fun h => (h).setCoop 0 (script1 0x604bfffe { pc := 3, w := ⟨[(1, 9), (2, 5)]⟩ }))).hub.reg R.REL_DEGRADED) ∧
    ((on (fun h => (h).setCoop 0 (script1 0x64000005 { pc := 3, w := ⟨[(1, 9), (2, 5)]⟩ }))).hub.calm = true ∧ (on (fun h => (h).setCoop 0 (script1 0x64000005 { pc := 3, w := ⟨[(1, 9), (2, 5)]⟩ }))).hub.coop (0 : CoopId) = ((script1 0x64000005 { pc := 3, w := ⟨[(1, 9), (2, 5)]⟩ }) : Cooper) ∧ ((script1 0x64000005 { pc := 3, w := ⟨[(1, 9), (2, 5)]⟩ }) : Cooper).executes Co.CALL (0x64000005 : Nat) = true ∧ (on (fun h => (h).setCoop 0 (script1 0x64000005 { pc := 3, w := ⟨[(1, 9), (2, 5)]⟩ }))).hub.degradedNow = (on (fun h => (h).setCoop 0 (script1 0x64000005 { pc := 3, w := ⟨[(1, 9), (2, 5)]⟩ }))).hub.reg R.REL_DEGRADED ∧ ((script1 0x64000005 { pc := 3, w := ⟨[(1, 9), (2, 5)]⟩ }) : Cooper).stack.length < 8) ∧
    ((on (fun h => (h).setCoop 0 (script1 0x64000005 { pc := 3, stack := [1, 2, 3, 4, 5, 6, 7, 8] }))).hub.calm = true ∧ (on (fun h => (h).setCoop 0 (script1 0x64000005 { pc := 3, stack := [1, 2, 3, 4, 5, 6, 7, 8] }))).hub.coop (0 : CoopId) = ((script1 0x64000005 { pc := 3, stack := [1, 2, 3, 4, 5, 6, 7, 8] }) : Cooper) ∧ ((script1 0x64000005 { pc := 3, stack := [1, 2, 3, 4, 5, 6, 7, 8] }) : Cooper).executes Co.CALL (0x64000005 : Nat) = true ∧ 8 ≤ ((script1 0x64000005 { pc := 3, stack := [1, 2, 3, 4, 5, 6, 7, 8] }) : Cooper).stack.length) ∧
    ((on (fun h => (h).setCoop 0 (script1 0x68000000 { pc := 3, stack := [7, 8] }))).hub.calm = true ∧ (on (fun h => (h).setCoop 0 (script1 0x68000000 { pc := 3, stack := [7, 8] }))).hub.coop (0 : CoopId) = ((script1 0x68000000 { pc := 3, stack := [7, 8] }) : Cooper) ∧ ((script1 0x68000000 { pc := 3, stack := [7, 8] }) : Cooper).executes Co.RET (0x68000000 : Nat) = true ∧ (on (fun h => (h).setCoop 0 (script1 0x68000000 { pc := 3, stack := [7, 8] }))).hub.degradedNow = (on (fun h => (h).setCoop 0 (script1 0x68000000 { pc := 3, stack := [7, 8] }))).hub.reg R.REL_DEGRADED ∧ ((script1 0x68000000 { pc := 3, stack := [7, 8] }) : Cooper).stack = (7 : Nat) :: ([8] : List Nat)) ∧
    ((on (fun h => (h).setCoop 0 (script1 0x68000000 { pc := 3, w := ⟨[(1, 9), (2, 5)]⟩ }))).hub.calm = true ∧ (on (fun h => (h).setCoop 0 (script1 0x68000000 { pc := 3, w := ⟨[(1, 9), (2, 5)]⟩ }))).hub.coop (0 : CoopId) = ((script1 0x68000000 { pc := 3, w := ⟨[(1, 9), (2, 5)]⟩ }) : Cooper) ∧ ((script1 0x68000000 { pc := 3, w := ⟨[(1, 9), (2, 5)]⟩ }) : Cooper).executes Co.RET (0x68000000 : Nat) = true ∧ ((script1 0x68000000 { pc := 3, w := ⟨[(1, 9), (2, 5)]⟩ }) : Cooper).stack = []) ∧
    ((on (fun h => (h).setCoop 0 (script1 0x40c400fa { pc := 3, w := ⟨[(1, 9), (2, 5)]⟩ }))).hub.calm = true ∧ (on (fun h => (h).setCoop 0 (script1 0x40c400fa { pc := 3, w := ⟨[(1, 9), (2, 5)]⟩ }))).hub.coop (0 : CoopId) = ((script1 0x40c400fa { pc := 3, w := ⟨[(1, 9), (2, 5)]⟩ }) : Cooper) ∧ ((script1 0x40c400fa { pc := 3, w := ⟨[(1, 9), (2, 5)]⟩ }) : Cooper).executes Co.LD (0x40c400fa : Nat) = true ∧ 256 ≤ ((script1 0x40c400fa { pc := 3, w := ⟨[(1, 9), (2, 5)]⟩ }) : Cooper).reg (Iw.f2 (0x40c400fa : Nat)) + Iw.imm (0x40c400fa : Nat)) ∧
    ((on (fun h => (h).setCoop 0 (script1 0x448400fa { pc := 3, w := ⟨[(1, 9), (2, 5)]⟩ }))).hub.calm = true ∧ (on (fun h => (h).setCoop 0 (script1 0x448400fa { pc := 3, w := ⟨[(1, 9), (2, 5)]⟩ }))).hub.coop (0 : CoopId) = ((script1 0x448400fa { pc := 3, w := ⟨[(1, 9), (2, 5)]⟩ }) : Cooper) ∧ ((script1 0x448400fa { pc := 3, w := ⟨[(1, 9), (2, 5)]⟩ }) : Cooper).executes Co.ST (0x448400fa : Nat) = true ∧ 256 ≤ ((script1 0x448400fa { pc := 3, w := ⟨[(1, 9), (2, 5)]⟩ }) : Cooper).reg (Iw.f2 (0x448400fa : Nat)) + Iw.imm (0x448400fa : Nat)) ∧
    ((on (fun h => (h).setCoop 0 (script1 0x88c400fa { pc := 3, w := ⟨[(1, 9), (2, 5)]⟩ }))).hub.calm = true ∧ (on (fun h => (h).setCoop 0 (script1 0x88c400fa { pc := 3, w := ⟨[(1, 9), (2, 5)]⟩ }))).hub.coop (0 : CoopId) = ((script1 0x88c400fa { pc := 3, w := ⟨[(1, 9), (2, 5)]⟩ }) : Cooper) ∧ ((script1 0x88c400fa { pc := 3, w := ⟨[(1, 9), (2, 5)]⟩ }) : Cooper).executes Co.CORK (0x88c400fa : Nat) = true ∧ 256 < ((script1 0x88c400fa { pc := 3, w := ⟨[(1, 9), (2, 5)]⟩ }) : Cooper).reg (Iw.f2 (0x88c400fa : Nat)) + Iw.imm (0x88c400fa : Nat) + 7) ∧
    ((on (fun h => (h).setCoop 0 (script1 0x8cc400fa { pc := 3, w := ⟨[(1, 9), (2, 5)]⟩ }))).hub.calm = true ∧ (on (fun h => (h).setCoop 0 (script1 0x8cc400fa { pc := 3, w := ⟨[(1, 9), (2, 5)]⟩ }))).hub.coop (0 : CoopId) = ((script1 0x8cc400fa { pc := 3, w := ⟨[(1, 9), (2, 5)]⟩ }) : Cooper) ∧ ((script1 0x8cc400fa { pc := 3, w := ⟨[(1, 9), (2, 5)]⟩ }) : Cooper).executes Co.HARV (0x8cc400fa : Nat) = true ∧ 256 < ((script1 0x8cc400fa { pc := 3, w := ⟨[(1, 9), (2, 5)]⟩ }) : Cooper).reg (Iw.f2 (0x8cc400fa : Nat)) + Iw.imm (0x8cc400fa : Nat) + 8) ∧
    ((on (fun h => (h).setCoop 0 (script1 0x90c400fa { pc := 3, w := ⟨[(1, 9), (2, 5)]⟩ }))).hub.calm = true ∧ (on (fun h => (h).setCoop 0 (script1 0x90c400fa { pc := 3, w := ⟨[(1, 9), (2, 5)]⟩ }))).hub.coop (0 : CoopId) = ((script1 0x90c400fa { pc := 3, w := ⟨[(1, 9), (2, 5)]⟩ }) : Cooper) ∧ ((script1 0x90c400fa { pc := 3, w := ⟨[(1, 9), (2, 5)]⟩ }) : Cooper).executes Co.RACK (0x90c400fa : Nat) = true ∧ 256 < ((script1 0x90c400fa { pc := 3, w := ⟨[(1, 9), (2, 5)]⟩ }) : Cooper).reg (Iw.f2 (0x90c400fa : Nat)) + Iw.imm (0x90c400fa : Nat) + 4) ∧
    ((on (fun h => (h).setCoop 0 (script1 0x94c400fa { pc := 3, w := ⟨[(1, 9), (2, 5)]⟩ }))).hub.calm = true ∧ (on (fun h => (h).setCoop 0 (script1 0x94c400fa { pc := 3, w := ⟨[(1, 9), (2, 5)]⟩ }))).hub.coop (0 : CoopId) = ((script1 0x94c400fa { pc := 3, w := ⟨[(1, 9), (2, 5)]⟩ }) : Cooper) ∧ ((script1 0x94c400fa { pc := 3, w := ⟨[(1, 9), (2, 5)]⟩ }) : Cooper).executes Co.XREG (0x94c400fa : Nat) = true ∧ 256 < ((script1 0x94c400fa { pc := 3, w := ⟨[(1, 9), (2, 5)]⟩ }) : Cooper).reg (Iw.f2 (0x94c400fa : Nat)) + Iw.imm (0x94c400fa : Nat) + 4) ∧
    ((on (fun h => (h).setCoop 0 (script1 0xa8c400fa { pc := 3, w := ⟨[(1, 9), (2, 5)]⟩ }))).hub.calm = true ∧ (on (fun h => (h).setCoop 0 (script1 0xa8c400fa { pc := 3, w := ⟨[(1, 9), (2, 5)]⟩ }))).hub.coop (0 : CoopId) = ((script1 0xa8c400fa { pc := 3, w := ⟨[(1, 9), (2, 5)]⟩ }) : Cooper) ∧ ((script1 0xa8c400fa { pc := 3, w := ⟨[(1, 9), (2, 5)]⟩ }) : Cooper).executes Co.WAITT (0xa8c400fa : Nat) = true ∧ 256 < ((script1 0xa8c400fa { pc := 3, w := ⟨[(1, 9), (2, 5)]⟩ }) : Cooper).reg (Iw.f2 (0xa8c400fa : Nat)) + Iw.imm (0xa8c400fa : Nat) + 2) ∧
    ((on (fun h => (h).setCoop 0 (script1 0xacc00004 { pc := 3, w := ⟨[(1, 9), (2, 5)]⟩ }))).hub.calm = true ∧ (on (fun h => (h).setCoop 0 (script1 0xacc00004 { pc := 3, w := ⟨[(1, 9), (2, 5)]⟩ }))).hub.coop (0 : CoopId) = ((script1 0xacc00004 { pc := 3, w := ⟨[(1, 9), (2, 5)]⟩ }) : Cooper) ∧ ((script1 0xacc00004 { pc := 3, w := ⟨[(1, 9), (2, 5)]⟩ }) : Cooper).executes Co.GETEV (0xacc00004 : Nat) = true ∧ 4 ≤ Iw.imm (0xacc00004 : Nat)) ∧
    ((on (fun h => (h).setCoop 0 (script1 0x6c000000 { pc := 3, w := ⟨[(1, 9), (2, 5)]⟩ }))).hub.calm = true ∧ (on (fun h => (h).setCoop 0 (script1 0x6c000000 { pc := 3, w := ⟨[(1, 9), (2, 5)]⟩ }))).hub.coop (0 : CoopId) = ((script1 0x6c000000 { pc := 3, w := ⟨[(1, 9), (2, 5)]⟩ }) : Cooper) ∧ ((script1 0x6c000000 { pc := 3, w := ⟨[(1, 9), (2, 5)]⟩ }) : Cooper).executes Co.END (0x6c000000 : Nat) = true) ∧
    ((on (fun h => ({ h with owners := ⟨[(0x19, reqCode (coopReq 0) + 1), (0x18, 1)]⟩ }).setCoop 0 (script1 0x70000063 { pc := 3, w := ⟨[(1, 9), (2, 5)]⟩ }))).hub.calm = true ∧ (on (fun h => ({ h with owners := ⟨[(0x19, reqCode (coopReq 0) + 1), (0x18, 1)]⟩ }).setCoop 0 (script1 0x70000063 { pc := 3, w := ⟨[(1, 9), (2, 5)]⟩ }))).hub.coop (0 : CoopId) = ((script1 0x70000063 { pc := 3, w := ⟨[(1, 9), (2, 5)]⟩ }) : Cooper) ∧ ((script1 0x70000063 { pc := 3, w := ⟨[(1, 9), (2, 5)]⟩ }) : Cooper).executes Co.FAIL (0x70000063 : Nat) = true) ∧
    ((on (fun h => (h).setCoop 0 (script1 0x74000000 { pc := 3, w := ⟨[(1, 9), (2, 5)]⟩ }))).hub.calm = true ∧ (on (fun h => (h).setCoop 0 (script1 0x74000000 { pc := 3, w := ⟨[(1, 9), (2, 5)]⟩ }))).hub.coop (0 : CoopId) = ((script1 0x74000000 { pc := 3, w := ⟨[(1, 9), (2, 5)]⟩ }) : Cooper) ∧ ((script1 0x74000000 { pc := 3, w := ⟨[(1, 9), (2, 5)]⟩ }) : Cooper).executes Co.SIG (0x74000000 : Nat) = true ∧ (on (fun h => (h).setCoop 0 (script1 0x74000000 { pc := 3, w := ⟨[(1, 9), (2, 5)]⟩ }))).hub.degradedNow = (on (fun h => (h).setCoop 0 (script1 0x74000000 { pc := 3, w := ⟨[(1, 9), (2, 5)]⟩ }))).hub.reg R.REL_DEGRADED ∧ (((script1 0x74000000 { pc := 3, w := ⟨[(1, 9), (2, 5)]⟩ }) : Cooper).sig.toNat ^^^ 0xFFFFFFFF) % 2 ^ 16 = (0x74000000 : Nat) % 2 ^ 16) ∧
    ((on (fun h => (h).setCoop 0 (script1 0x74000005 { pc := 3, w := ⟨[(1, 9), (2, 5)]⟩ }))).hub.calm = true ∧ (on (fun h => (h).setCoop 0 (script1 0x74000005 { pc := 3, w := ⟨[(1, 9), (2, 5)]⟩ }))).hub.coop (0 : CoopId) = ((script1 0x74000005 { pc := 3, w := ⟨[(1, 9), (2, 5)]⟩ }) : Cooper) ∧ ((script1 0x74000005 { pc := 3, w := ⟨[(1, 9), (2, 5)]⟩ }) : Cooper).executes Co.SIG (0x74000005 : Nat) = true ∧ (((script1 0x74000005 { pc := 3, w := ⟨[(1, 9), (2, 5)]⟩ }) : Cooper).sig.toNat ^^^ 0xFFFFFFFF) % 2 ^ 16 ≠ (0x74000005 : Nat) % 2 ^ 16) ∧
    ((on (fun h => h.setCoop 0 (script1 0 { pc := 3 }))).hub.calm = true ∧ (on (fun h => h.setCoop 0 (script1 0 { pc := 3 }))).hub.coop (0 : CoopId) = ((script1 0 { pc := 3 }) : Cooper) ∧ ((script1 0 { pc := 3 }) : Cooper).st = .running ∧ (((script1 0 { pc := 3 }) : Cooper).prog.get ((script1 0 { pc := 3 }) : Cooper).pc 0).toNat = (0 : Nat) ∧ coopOps.contains (Iw.op (0 : Nat)) = false) := by
  and_intros <;> decide +kernel

/-- The hypotheses of coopers_wait_take_events_and_start can be met, clause by clause. -/
theorem witness_coopers_wait_take_events_and_start :
    ((on (fun h => (h).setCoop 0 (script1 0xb4040000 { pc := 3, w := ⟨[(1, 9), (2, 5)]⟩ }))).hub.calm = true ∧ (on (fun h => (h).setCoop 0 (script1 0xb4040000 { pc := 3, w := ⟨[(1, 9), (2, 5)]⟩ }))).hub.coop (0 : CoopId) = ((script1 0xb4040000 { pc := 3, w := ⟨[(1, 9), (2, 5)]⟩ }) : Cooper) ∧ ((script1 0xb4040000 { pc := 3, w := ⟨[(1, 9), (2, 5)]⟩ }) : Cooper).executes Co.ARM (0xb4040000 : Nat) = true ∧ (on (fun h => (h).setCoop 0 (script1 0xb4040000 { pc := 3, w := ⟨[(1, 9), (2, 5)]⟩ }))).hub.degradedNow = (on (fun h => (h).setCoop 0 (script1 0xb4040000 { pc := 3, w := ⟨[(1, 9), (2, 5)]⟩ }))).hub.reg R.REL_DEGRADED) ∧
    ((on (fun h => (h).setCoop 0 (script1 0xa0c48000 { filter := some 0, queue := [{ code := 5, at_ := 9 }, {}] }))).hub.calm = true ∧ (on (fun h => (h).setCoop 0 (script1 0xa0c48000 { filter := some 0, queue := [{ code := 5, at_ := 9 }, {}] }))).hub.coop (0 : CoopId) = ((script1 0xa0c48000 { filter := some 0, queue := [{ code := 5, at_ := 9 }, {}] }) : Cooper) ∧ ((script1 0xa0c48000 { filter := some 0, queue := [{ code := 5, at_ := 9 }, {}] }) : Cooper).executes Co.WAIT (0xa0c48000 : Nat) = true ∧ (on (fun h => (h).setCoop 0 (script1 0xa0c48000 { filter := some 0, queue := [{ code := 5, at_ := 9 }, {}] }))).hub.degradedNow = (on (fun h => (h).setCoop 0 (script1 0xa0c48000 { filter := some 0, queue := [{ code := 5, at_ := 9 }, {}] }))).hub.reg R.REL_DEGRADED ∧ ((script1 0xa0c48000 { filter := some 0, queue := [{ code := 5, at_ := 9 }, {}] }) : Cooper).filter = some (BitVec.ofNat 32 (((script1 0xa0c48000 { filter := some 0, queue := [{ code := 5, at_ := 9 }, {}] }) : Cooper).reg (Iw.f2 (0xa0c48000 : Nat)))) ∧ ((script1 0xa0c48000 { filter := some 0, queue := [{ code := 5, at_ := 9 }, {}] }) : Cooper).queue = ({ code := 5, at_ := 9 } : Occ) :: ([{}] : List Occ)) ∧
    ((on (fun h => (h).setCoop 0 (script1 0xa0c48000 { pc := 3, w := ⟨[(1, 9), (2, 5)]⟩ }))).hub.calm = true ∧ (on (fun h => (h).setCoop 0 (script1 0xa0c48000 { pc := 3, w := ⟨[(1, 9), (2, 5)]⟩ }))).hub.coop (0 : CoopId) = ((script1 0xa0c48000 { pc := 3, w := ⟨[(1, 9), (2, 5)]⟩ }) : Cooper) ∧ ((script1 0xa0c48000 { pc := 3, w := ⟨[(1, 9), (2, 5)]⟩ }) : Cooper).executes Co.WAIT (0xa0c48000 : Nat) = true ∧ (on (fun h => (h).setCoop 0 (script1 0xa0c48000 { pc := 3, w := ⟨[(1, 9), (2, 5)]⟩ }))).hub.degradedNow = (on (fun h => (h).setCoop 0 (script1 0xa0c48000 { pc := 3, w := ⟨[(1, 9), (2, 5)]⟩ }))).hub.reg R.REL_DEGRADED ∧ (((script1 0xa0c48000 { pc := 3, w := ⟨[(1, 9), (2, 5)]⟩ }) : Cooper).filter ≠ some (BitVec.ofNat 32 (((script1 0xa0c48000 { pc := 3, w := ⟨[(1, 9), (2, 5)]⟩ }) : Cooper).reg (Iw.f2 (0xa0c48000 : Nat)))) ∨ ((script1 0xa0c48000 { pc := 3, w := ⟨[(1, 9), (2, 5)]⟩ }) : Cooper).queue = [])) ∧
    ((on (fun h => (h).setCoop 0 (script1 0xa4040000 { pc := 3, w := ⟨[(1, 9), (2, 5)]⟩ }))).hub.calm = true ∧ (on (fun h => (h).setCoop 0 (script1 0xa4040000 { pc := 3, w := ⟨[(1, 9), (2, 5)]⟩ }))).hub.coop (0 : CoopId) = ((script1 0xa4040000 { pc := 3, w := ⟨[(1, 9), (2, 5)]⟩ }) : Cooper) ∧ ((script1 0xa4040000 { pc := 3, w := ⟨[(1, 9), (2, 5)]⟩ }) : Cooper).executes Co.DELAY (0xa4040000 : Nat) = true ∧ (on (fun h => (h).setCoop 0 (script1 0xa4040000 { pc := 3, w := ⟨[(1, 9), (2, 5)]⟩ }))).hub.degradedNow = (on (fun h => (h).setCoop 0 (script1 0xa4040000 { pc := 3, w := ⟨[(1, 9), (2, 5)]⟩ }))).hub.reg R.REL_DEGRADED) ∧
    ((on (fun h => (h).setCoop 0 (script1 0xa8c40004 { w := ⟨[(1, 9)]⟩, data := ⟨[(14, 6)]⟩ }))).hub.calm = true ∧ (on (fun h => (h).setCoop 0 (script1 0xa8c40004 { w := ⟨[(1, 9)]⟩, data := ⟨[(14, 6)]⟩ }))).hub.coop (0 : CoopId) = ((script1 0xa8c40004 { w := ⟨[(1, 9)]⟩, data := ⟨[(14, 6)]⟩ }) : Cooper) ∧ ((script1 0xa8c40004 { w := ⟨[(1, 9)]⟩, data := ⟨[(14, 6)]⟩ }) : Cooper).executes Co.WAITT (0xa8c40004 : Nat) = true ∧ (on (fun h => (h).setCoop 0 (script1 0xa8c40004 { w := ⟨[(1, 9)]⟩, data := ⟨[(14, 6)]⟩ }))).hub.degradedNow = (on (fun h => (h).setCoop 0 (script1 0xa8c40004 { w := ⟨[(1, 9)]⟩, data := ⟨[(14, 6)]⟩ }))).hub.reg R.REL_DEGRADED ∧ ((script1 0xa8c40004 { w := ⟨[(1, 9)]⟩, data := ⟨[(14, 6)]⟩ }) : Cooper).reg (Iw.f2 (0xa8c40004 : Nat)) + Iw.imm (0xa8c40004 : Nat) = (13 : Nat) ∧ (13 : Nat) + 1 < 256 ∧ (((script1 0xa8c40004 { w := ⟨[(1, 9)]⟩, data := ⟨[(14, 6)]⟩ }) : Cooper).data.get (13 : Nat) 0).toNat + (((script1 0xa8c40004 { w := ⟨[(1, 9)]⟩, data := ⟨[(14, 6)]⟩ }) : Cooper).data.get ((13 : Nat) + 1) 0).toNat * 2 ^ 32 = (6 * 2 ^ 32 : Nat) ∧ (on (fun h => (h).setCoop 0 (script1 0xa8c40004 { w := ⟨[(1, 9)]⟩, data := ⟨[(14, 6)]⟩ }))).hub.now < (6 * 2 ^ 32 : Nat)) ∧
    ((on (fun h => (h).setCoop 0 (script1 0xa8c40004 { w := ⟨[(1, 9)]⟩, data := ⟨[(13, 6)]⟩ }))).hub.calm = true ∧ (on (fun h => (h).setCoop 0 (script1 0xa8c40004 { w := ⟨[(1, 9)]⟩, data := ⟨[(13, 6)]⟩ }))).hub.coop (0 : CoopId) = ((script1 0xa8c40004 { w := ⟨[(1, 9)]⟩, data := ⟨[(13, 6)]⟩ }) : Cooper) ∧ ((script1 0xa8c40004 { w := ⟨[(1, 9)]⟩, data := ⟨[(13, 6)]⟩ }) : Cooper).executes Co.WAITT (0xa8c40004 : Nat) = true ∧ (on (fun h => (h).setCoop 0 (script1 0xa8c40004 { w := ⟨[(1, 9)]⟩, data := ⟨[(13, 6)]⟩ }))).hub.degradedNow = (on (fun h => (h).setCoop 0 (script1 0xa8c40004 { w := ⟨[(1, 9)]⟩, data := ⟨[(13, 6)]⟩ }))).hub.reg R.REL_DEGRADED ∧ ((script1 0xa8c40004 { w := ⟨[(1, 9)]⟩, data := ⟨[(13, 6)]⟩ }) : Cooper).reg (Iw.f2 (0xa8c40004 : Nat)) + Iw.imm (0xa8c40004 : Nat) = (13 : Nat) ∧ (13 : Nat) + 1 < 256 ∧ (((script1 0xa8c40004 { w := ⟨[(1, 9)]⟩, data := ⟨[(13, 6)]⟩ }) : Cooper).data.get (13 : Nat) 0).toNat + (((script1 0xa8c40004 { w := ⟨[(1, 9)]⟩, data := ⟨[(13, 6)]⟩ }) : Cooper).data.get ((13 : Nat) + 1) 0).toNat * 2 ^ 32 = (6 : Nat) ∧ (6 : Nat) ≤ (on (fun h => (h).setCoop 0 (script1 0xa8c40004 { w := ⟨[(1, 9)]⟩, data := ⟨[(13, 6)]⟩ }))).hub.now) ∧
    ((on (fun h => (h).setCoop 0 { st := .waiting, wait := .event 4 0xFFFF0000 (some 9), filter := some 0xFFFF0000 , transit := [{ code := 0, at_ := 9 }] })).hub.calm = true ∧ (on (fun h => (h).setCoop 0 { st := .waiting, wait := .event 4 0xFFFF0000 (some 9), filter := some 0xFFFF0000 , transit := [{ code := 0, at_ := 9 }] })).hub.coop (0 : CoopId) = ({ st := .waiting, wait := .event 4 0xFFFF0000 (some 9), filter := some 0xFFFF0000 , transit := [{ code := 0, at_ := 9 }] } : Cooper) ∧ (on (fun h => (h).setCoop 0 { st := .waiting, wait := .event 4 0xFFFF0000 (some 9), filter := some 0xFFFF0000 , transit := [{ code := 0, at_ := 9 }] })).hub.degradedNow = (on (fun h => (h).setCoop 0 { st := .waiting, wait := .event 4 0xFFFF0000 (some 9), filter := some 0xFFFF0000 , transit := [{ code := 0, at_ := 9 }] })).hub.reg R.REL_DEGRADED ∧ ({ st := .waiting, wait := .event 4 0xFFFF0000 (some 9), filter := some 0xFFFF0000 , transit := [{ code := 0, at_ := 9 }] } : Cooper).transit = [({ code := 0, at_ := 9 } : Occ)] ∧ ({ code := 0, at_ := 9 } : Occ).at_ + 2 ≤ (on (fun h => (h).setCoop 0 { st := .waiting, wait := .event 4 0xFFFF0000 (some 9), filter := some 0xFFFF0000 , transit := [{ code := 0, at_ := 9 }] })).hub.time.hclk ∧ ({ st := .waiting, wait := .event 4 0xFFFF0000 (some 9), filter := some 0xFFFF0000 , transit := [{ code := 0, at_ := 9 }] } : Cooper).filter = some (0xFFFF0000 : BitVec 32) ∧ filterHit (0xFFFF0000 : BitVec 32).toNat ({ code := 0, at_ := 9 } : Occ).code = true ∧ ({ st := .waiting, wait := .event 4 0xFFFF0000 (some 9), filter := some 0xFFFF0000 , transit := [{ code := 0, at_ := 9 }] } : Cooper).wait = .event (4 : Nat) (0xFFFF0000 : BitVec 32) (some 9 : Option Nat)) ∧
    ((on (fun h => (h).setCoop 0 { st := .running, filter := some 0, transit := [{ code := 5, at_ := 9 }] })).hub.calm = true ∧ (on (fun h => (h).setCoop 0 { st := .running, filter := some 0, transit := [{ code := 5, at_ := 9 }] })).hub.coop (0 : CoopId) = ({ st := .running, filter := some 0, transit := [{ code := 5, at_ := 9 }] } : Cooper) ∧ (on (fun h => (h).setCoop 0 { st := .running, filter := some 0, transit := [{ code := 5, at_ := 9 }] })).hub.degradedNow = (on (fun h => (h).setCoop 0 { st := .running, filter := some 0, transit := [{ code := 5, at_ := 9 }] })).hub.reg R.REL_DEGRADED ∧ ({ st := .running, filter := some 0, transit := [{ code := 5, at_ := 9 }] } : Cooper).transit = [({ code := 5, at_ := 9 } : Occ)] ∧ ({ code := 5, at_ := 9 } : Occ).at_ + 2 ≤ (on (fun h => (h).setCoop 0 { st := .running, filter := some 0, transit := [{ code := 5, at_ := 9 }] })).hub.time.hclk ∧ ({ st := .running, filter := some 0, transit := [{ code := 5, at_ := 9 }] } : Cooper).filter = some (0 : BitVec 32) ∧ filterHit (0 : BitVec 32).toNat ({ code := 5, at_ := 9 } : Occ).code = true ∧ ({ st := .running, filter := some 0, transit := [{ code := 5, at_ := 9 }] } : Cooper).wait = .none ∧ ({ st := .running, filter := some 0, transit := [{ code := 5, at_ := 9 }] } : Cooper).queue.length < 16) ∧
    ((on (fun h => (h).setCoop 0 { st := .running, filter := some 0, queue := List.replicate 16 {}, transit := [{ code := 5, at_ := 9 }] })).hub.calm = true ∧ (on (fun h => (h).setCoop 0 { st := .running, filter := some 0, queue := List.replicate 16 {}, transit := [{ code := 5, at_ := 9 }] })).hub.coop (0 : CoopId) = ({ st := .running, filter := some 0, queue := List.replicate 16 {}, transit := [{ code := 5, at_ := 9 }] } : Cooper) ∧ (on (fun h => (h).setCoop 0 { st := .running, filter := some 0, queue := List.replicate 16 {}, transit := [{ code := 5, at_ := 9 }] })).hub.degradedNow = (on (fun h => (h).setCoop 0 { st := .running, filter := some 0, queue := List.replicate 16 {}, transit := [{ code := 5, at_ := 9 }] })).hub.reg R.REL_DEGRADED ∧ ({ st := .running, filter := some 0, queue := List.replicate 16 {}, transit := [{ code := 5, at_ := 9 }] } : Cooper).transit = [({ code := 5, at_ := 9 } : Occ)] ∧ ({ code := 5, at_ := 9 } : Occ).at_ + 2 ≤ (on (fun h => (h).setCoop 0 { st := .running, filter := some 0, queue := List.replicate 16 {}, transit := [{ code := 5, at_ := 9 }] })).hub.time.hclk ∧ ({ st := .running, filter := some 0, queue := List.replicate 16 {}, transit := [{ code := 5, at_ := 9 }] } : Cooper).filter = some (0 : BitVec 32) ∧ filterHit (0 : BitVec 32).toNat ({ code := 5, at_ := 9 } : Occ).code = true ∧ ({ st := .running, filter := some 0, queue := List.replicate 16 {}, transit := [{ code := 5, at_ := 9 }] } : Cooper).wait = .none ∧ 16 ≤ ({ st := .running, filter := some 0, queue := List.replicate 16 {}, transit := [{ code := 5, at_ := 9 }] } : Cooper).queue.length) ∧
    ((on (fun h => (h).setCoop 0 { st := .running, filter := some 0, transit := [{ at_ := 300000 }] })).hub.calm = true ∧ (on (fun h => (h).setCoop 0 { st := .running, filter := some 0, transit := [{ at_ := 300000 }] })).hub.coop (0 : CoopId) = ({ st := .running, filter := some 0, transit := [{ at_ := 300000 }] } : Cooper) ∧ (on (fun h => (h).setCoop 0 { st := .running, filter := some 0, transit := [{ at_ := 300000 }] })).hub.degradedNow = (on (fun h => (h).setCoop 0 { st := .running, filter := some 0, transit := [{ at_ := 300000 }] })).hub.reg R.REL_DEGRADED ∧ ({ st := .running, filter := some 0, transit := [{ at_ := 300000 }] } : Cooper).transit = [({ at_ := 300000 } : Occ)] ∧ (on (fun h => (h).setCoop 0 { st := .running, filter := some 0, transit := [{ at_ := 300000 }] })).hub.time.hclk < ({ at_ := 300000 } : Occ).at_ + 2) ∧
    ((on (fun h => (h).setCoop 0 { st := .waiting, wait := .event 4 0xFFFF0000 (some 9), filter := some 0xFFFF0000 })).hub.calm = true ∧ (on (fun h => (h).setCoop 0 { st := .waiting, wait := .event 4 0xFFFF0000 (some 9), filter := some 0xFFFF0000 })).hub.coop (0 : CoopId) = ({ st := .waiting, wait := .event 4 0xFFFF0000 (some 9), filter := some 0xFFFF0000 } : Cooper) ∧ (on (fun h => (h).setCoop 0 { st := .waiting, wait := .event 4 0xFFFF0000 (some 9), filter := some 0xFFFF0000 })).hub.degradedNow = (on (fun h => (h).setCoop 0 { st := .waiting, wait := .event 4 0xFFFF0000 (some 9), filter := some 0xFFFF0000 })).hub.reg R.REL_DEGRADED ∧ ({ st := .waiting, wait := .event 4 0xFFFF0000 (some 9), filter := some 0xFFFF0000 } : Cooper).wait = .event (4 : Nat) (0xFFFF0000 : BitVec 32) (some (9 : Nat)) ∧ (9 : Nat) ≤ (on (fun h => (h).setCoop 0 { st := .waiting, wait := .event 4 0xFFFF0000 (some 9), filter := some 0xFFFF0000 })).hub.time.hclk) ∧
    ((on (fun h => (h).setCoop 0 { st := .waiting, wait := .delay 9 })).hub.calm = true ∧ (on (fun h => (h).setCoop 0 { st := .waiting, wait := .delay 9 })).hub.coop (0 : CoopId) = ({ st := .waiting, wait := .delay 9 } : Cooper) ∧ (on (fun h => (h).setCoop 0 { st := .waiting, wait := .delay 9 })).hub.degradedNow = (on (fun h => (h).setCoop 0 { st := .waiting, wait := .delay 9 })).hub.reg R.REL_DEGRADED ∧ ({ st := .waiting, wait := .delay 9 } : Cooper).wait = .delay (9 : Nat) ∧ (9 : Nat) ≤ (on (fun h => (h).setCoop 0 { st := .waiting, wait := .delay 9 })).hub.time.hclk) ∧
    ((on (fun h => (h).setCoop 0 { st := .waiting, wait := .gcn 4 9 true })).hub.calm = true ∧ (on (fun h => (h).setCoop 0 { st := .waiting, wait := .gcn 4 9 true })).hub.coop (0 : CoopId) = ({ st := .waiting, wait := .gcn 4 9 true } : Cooper) ∧ (on (fun h => (h).setCoop 0 { st := .waiting, wait := .gcn 4 9 true })).hub.degradedNow = (on (fun h => (h).setCoop 0 { st := .waiting, wait := .gcn 4 9 true })).hub.reg R.REL_DEGRADED ∧ ({ st := .waiting, wait := .gcn 4 9 true } : Cooper).wait = .gcn (4 : Nat) (9 : Nat) (true : Bool) ∧ ((true : Bool) = true ∨ (9 : Nat) ≤ (on (fun h => (h).setCoop 0 { st := .waiting, wait := .gcn 4 9 true })).hub.now)) ∧
    ((on (fun h => (h.wr (F.COOP_CTRL_EN.lane 0) 1).setCoop 0 { st := .idle, scripts := ⟨[(2, { valid := true, entry := 4, trigger := 2, code := 5, pending := some { code := 5, at_ := 9 } })]⟩, trig := [{ code := 5, at_ := 9 }] })).hub.calm = true ∧ (on (fun h => (h.wr (F.COOP_CTRL_EN.lane 0) 1).setCoop 0 { st := .idle, scripts := ⟨[(2, { valid := true, entry := 4, trigger := 2, code := 5, pending := some { code := 5, at_ := 9 } })]⟩, trig := [{ code := 5, at_ := 9 }] })).hub.coop (0 : CoopId) = ({ st := .idle, scripts := ⟨[(2, { valid := true, entry := 4, trigger := 2, code := 5, pending := some { code := 5, at_ := 9 } })]⟩, trig := [{ code := 5, at_ := 9 }] } : Cooper) ∧ ({ st := .idle, scripts := ⟨[(2, { valid := true, entry := 4, trigger := 2, code := 5, pending := some { code := 5, at_ := 9 } })]⟩, trig := [{ code := 5, at_ := 9 }] } : Cooper).trig = [({ code := 5, at_ := 9 } : Occ)] ∧ ({ code := 5, at_ := 9 } : Occ).at_ + 2 ≤ (on (fun h => (h.wr (F.COOP_CTRL_EN.lane 0) 1).setCoop 0 { st := .idle, scripts := ⟨[(2, { valid := true, entry := 4, trigger := 2, code := 5, pending := some { code := 5, at_ := 9 } })]⟩, trig := [{ code := 5, at_ := 9 }] })).hub.time.hclk ∧ (on (fun h => (h.wr (F.COOP_CTRL_EN.lane 0) 1).setCoop 0 { st := .idle, scripts := ⟨[(2, { valid := true, entry := 4, trigger := 2, code := 5, pending := some { code := 5, at_ := 9 } })]⟩, trig := [{ code := 5, at_ := 9 }] })).hub.flag (F.COOP_CTRL_EN.lane (0 : CoopId)) = true ∧ ({ st := .idle, scripts := ⟨[(2, { valid := true, entry := 4, trigger := 2, code := 5, pending := some { code := 5, at_ := 9 } })]⟩, trig := [{ code := 5, at_ := 9 }] } : Cooper).st = .idle ∧ ({ st := .idle, scripts := ⟨[(2, { valid := true, entry := 4, trigger := 2, code := 5, pending := some { code := 5, at_ := 9 } })]⟩, trig := [{ code := 5, at_ := 9 }] } : Cooper).defined.filter (fun n => (({ st := .idle, scripts := ⟨[(2, { valid := true, entry := 4, trigger := 2, code := 5, pending := some { code := 5, at_ := 9 } })]⟩, trig := [{ code := 5, at_ := 9 }] } : Cooper).scripts.get n {}).trigger == 2 && filterHit ((({ st := .idle, scripts := ⟨[(2, { valid := true, entry := 4, trigger := 2, code := 5, pending := some { code := 5, at_ := 9 } })]⟩, trig := [{ code := 5, at_ := 9 }] } : Cooper).scripts.get n {}).code + 65536 * (({ st := .idle, scripts := ⟨[(2, { valid := true, entry := 4, trigger := 2, code := 5, pending := some { code := 5, at_ := 9 } })]⟩, trig := [{ code := 5, at_ := 9 }] } : Cooper).scripts.get n {}).mask) ({ code := 5, at_ := 9 } : Occ).code) = [(2 : Nat)]) ∧
    ((on (fun h => (h.wr (F.COOP_CTRL_EN.lane 0) 1).setCoop 0 { st := .idle, scripts := ⟨[(2, { valid := true, entry := 4, trigger := 2, code := 5, pending := some { code := 5, at_ := 9 } })]⟩, trig := [{ code := 5, at_ := 9 }] })).hub.calm = true ∧ (on (fun h => (h.wr (F.COOP_CTRL_EN.lane 0) 1).setCoop 0 { st := .idle, scripts := ⟨[(2, { valid := true, entry := 4, trigger := 2, code := 5, pending := some { code := 5, at_ := 9 } })]⟩, trig := [{ code := 5, at_ := 9 }] })).hub.coop (0 : CoopId) = ({ st := .idle, scripts := ⟨[(2, { valid := true, entry := 4, trigger := 2, code := 5, pending := some { code := 5, at_ := 9 } })]⟩, trig := [{ code := 5, at_ := 9 }] } : Cooper) ∧ ({ st := .idle, scripts := ⟨[(2, { valid := true, entry := 4, trigger := 2, code := 5, pending := some { code := 5, at_ := 9 } })]⟩, trig := [{ code := 5, at_ := 9 }] } : Cooper).st = .idle ∧ (on (fun h => (h.wr (F.COOP_CTRL_EN.lane 0) 1).setCoop 0 { st := .idle, scripts := ⟨[(2, { valid := true, entry := 4, trigger := 2, code := 5, pending := some { code := 5, at_ := 9 } })]⟩, trig := [{ code := 5, at_ := 9 }] })).hub.flag (F.COOP_CTRL_EN.lane (0 : CoopId)) = true ∧ (List.range 8).find? (fun n => (({ st := .idle, scripts := ⟨[(2, { valid := true, entry := 4, trigger := 2, code := 5, pending := some { code := 5, at_ := 9 } })]⟩, trig := [{ code := 5, at_ := 9 }] } : Cooper).scripts.get n {}).pending.isSome) = some (2 : Nat) ∧ (({ st := .idle, scripts := ⟨[(2, { valid := true, entry := 4, trigger := 2, code := 5, pending := some { code := 5, at_ := 9 } })]⟩, trig := [{ code := 5, at_ := 9 }] } : Cooper).scripts.get (2 : Nat) {}).pending = some ({ code := 5, at_ := 9 } : Occ)) ∧
    ((on (fun h => (h).setCoop 0 { st := .running })).hub.calm = true ∧ (on (fun h => (h).setCoop 0 { st := .running })).hub.coop (0 : CoopId) = ({ st := .running } : Cooper) ∧ ({ st := .running } : Cooper).st = .running ∧ ({ st := .running } : Cooper).wdog = 0) := by
  and_intros <;> decide +kernel

/-- The hypotheses of coopers_reach_registers_and_units can be met, clause by clause. -/
theorem witness_coopers_reach_registers_and_units :
    ((on (fun h => (h).setCoop 0 (script1 0x80c40000 { pc := 3, w := ⟨[(1, BitVec.ofNat 32 R.GLB_HUB)]⟩ }))).hub.calm = true ∧ (on (fun h => (h).setCoop 0 (script1 0x80c40000 { pc := 3, w := ⟨[(1, BitVec.ofNat 32 R.GLB_HUB)]⟩ }))).hub.coop (0 : CoopId) = ((script1 0x80c40000 { pc := 3, w := ⟨[(1, BitVec.ofNat 32 R.GLB_HUB)]⟩ }) : Cooper) ∧ ((script1 0x80c40000 { pc := 3, w := ⟨[(1, BitVec.ofNat 32 R.GLB_HUB)]⟩ }) : Cooper).executes Co.RD (0x80c40000 : Nat) = true ∧ (on (fun h => (h).setCoop 0 (script1 0x80c40000 { pc := 3, w := ⟨[(1, BitVec.ofNat 32 R.GLB_HUB)]⟩ }))).hub.setCoop (0 : CoopId) (((script1 0x80c40000 { pc := 3, w := ⟨[(1, BitVec.ofNat 32 R.GLB_HUB)]⟩ }) : Cooper).past (0x80c40000 : Nat)) = ((on (fun h => ((h).setCoop 0 (script1 0x80c40000 { pc := 3, w := ⟨[(1, BitVec.ofNat 32 R.GLB_HUB)]⟩ })).setCoop 0 ((script1 0x80c40000 { pc := 3, w := ⟨[(1, BitVec.ofNat 32 R.GLB_HUB)]⟩ }).past 0x80c40000))).hub : Hub) ∧ (on (fun h => (h).setCoop 0 (script1 0x80c40000 { pc := 3, w := ⟨[(1, BitVec.ofNat 32 R.GLB_HUB)]⟩ }))).hub.degradedNow = (on (fun h => (h).setCoop 0 (script1 0x80c40000 { pc := 3, w := ⟨[(1, BitVec.ofNat 32 R.GLB_HUB)]⟩ }))).hub.reg R.REL_DEGRADED ∧ (((script1 0x80c40000 { pc := 3, w := ⟨[(1, BitVec.ofNat 32 R.GLB_HUB)]⟩ }) : Cooper).reg (Iw.f2 (0x80c40000 : Nat)) + Iw.imm (0x80c40000 : Nat)) % 2 ^ 20 = (R.GLB_HUB : Nat) ∧ ((on (fun h => ((h).setCoop 0 (script1 0x80c40000 { pc := 3, w := ⟨[(1, BitVec.ofNat 32 R.GLB_HUB)]⟩ })).setCoop 0 ((script1 0x80c40000 { pc := 3, w := ⟨[(1, BitVec.ofNat 32 R.GLB_HUB)]⟩ }).past 0x80c40000))).hub : Hub).accessStatus (coopReq (0 : CoopId)) (R.GLB_HUB : Nat) false 0 = St.OK ∧ (regDef (normAddr (R.GLB_HUB : Nat))).isSome = true ∧ inWindow (normAddr (R.GLB_HUB : Nat)) = false ∧ isHi (normAddr (R.GLB_HUB : Nat)) = false ∧ isLo (normAddr (R.GLB_HUB : Nat)) = false ∧ [R.TASTE_EVID_DATA, R.COOP_PROG_DATA, R.COOP_DATA_DATA, R.AUTH_DATA, R.TIME_GCN_LO].contains (baseAddr (normAddr (R.GLB_HUB : Nat))) = false) ∧
    ((on (fun h => (h.wr F.GLB_CMD_STATUS_DONE 0).setCoop 0 (script1 0x84c48000 { pc := 3, w := ⟨[(1, BitVec.ofNat 32 R.GLB_CMD)]⟩ }))).hub.calm = true ∧ (on (fun h => (h.wr F.GLB_CMD_STATUS_DONE 0).setCoop 0 (script1 0x84c48000 { pc := 3, w := ⟨[(1, BitVec.ofNat 32 R.GLB_CMD)]⟩ }))).hub.coop (0 : CoopId) = ((script1 0x84c48000 { pc := 3, w := ⟨[(1, BitVec.ofNat 32 R.GLB_CMD)]⟩ }) : Cooper) ∧ ((script1 0x84c48000 { pc := 3, w := ⟨[(1, BitVec.ofNat 32 R.GLB_CMD)]⟩ }) : Cooper).executes Co.WR (0x84c48000 : Nat) = true ∧ (on (fun h => (h.wr F.GLB_CMD_STATUS_DONE 0).setCoop 0 (script1 0x84c48000 { pc := 3, w := ⟨[(1, BitVec.ofNat 32 R.GLB_CMD)]⟩ }))).hub.setCoop (0 : CoopId) (((script1 0x84c48000 { pc := 3, w := ⟨[(1, BitVec.ofNat 32 R.GLB_CMD)]⟩ }) : Cooper).past (0x84c48000 : Nat)) = ((on (fun h => ((h.wr F.GLB_CMD_STATUS_DONE 0).setCoop 0 (script1 0x84c48000 { pc := 3, w := ⟨[(1, BitVec.ofNat 32 R.GLB_CMD)]⟩ })).setCoop 0 ((script1 0x84c48000 { pc := 3, w := ⟨[(1, BitVec.ofNat 32 R.GLB_CMD)]⟩ }).past 0x84c48000))).hub : Hub) ∧ ((script1 0x84c48000 { pc := 3, w := ⟨[(1, BitVec.ofNat 32 R.GLB_CMD)]⟩ }) : Cooper).reg (Iw.f2 (0x84c48000 : Nat)) % 2 ^ 20 = (R.GLB_CMD : Nat) ∧ ((on (fun h => ((h.wr F.GLB_CMD_STATUS_DONE 0).setCoop 0 (script1 0x84c48000 { pc := 3, w := ⟨[(1, BitVec.ofNat 32 R.GLB_CMD)]⟩ })).setCoop 0 ((script1 0x84c48000 { pc := 3, w := ⟨[(1, BitVec.ofNat 32 R.GLB_CMD)]⟩ }).past 0x84c48000))).hub : Hub).accessStatus (coopReq (0 : CoopId)) (R.GLB_CMD : Nat) true (((script1 0x84c48000 { pc := 3, w := ⟨[(1, BitVec.ofNat 32 R.GLB_CMD)]⟩ }) : Cooper).reg (Iw.f3 (0x84c48000 : Nat))) = (St.BUSY : Nat) ∧ (St.BUSY : Nat) ≠ St.OK) ∧
    ((on (fun h => (h).setCoop 0 (script1 0x84c48000 { pc := 3, w := ⟨[(1, BitVec.ofNat 32 R.GLB_CTX_RECT), (2, 0x01020304)]⟩ }))).hub.calm = true ∧ (on (fun h => (h).setCoop 0 (script1 0x84c48000 { pc := 3, w := ⟨[(1, BitVec.ofNat 32 R.GLB_CTX_RECT), (2, 0x01020304)]⟩ }))).hub.coop (0 : CoopId) = ((script1 0x84c48000 { pc := 3, w := ⟨[(1, BitVec.ofNat 32 R.GLB_CTX_RECT), (2, 0x01020304)]⟩ }) : Cooper) ∧ ((script1 0x84c48000 { pc := 3, w := ⟨[(1, BitVec.ofNat 32 R.GLB_CTX_RECT), (2, 0x01020304)]⟩ }) : Cooper).executes Co.WR (0x84c48000 : Nat) = true ∧ (on (fun h => (h).setCoop 0 (script1 0x84c48000 { pc := 3, w := ⟨[(1, BitVec.ofNat 32 R.GLB_CTX_RECT), (2, 0x01020304)]⟩ }))).hub.setCoop (0 : CoopId) (((script1 0x84c48000 { pc := 3, w := ⟨[(1, BitVec.ofNat 32 R.GLB_CTX_RECT), (2, 0x01020304)]⟩ }) : Cooper).past (0x84c48000 : Nat)) = ((on (fun h => ((h).setCoop 0 (script1 0x84c48000 { pc := 3, w := ⟨[(1, BitVec.ofNat 32 R.GLB_CTX_RECT), (2, 0x01020304)]⟩ })).setCoop 0 ((script1 0x84c48000 { pc := 3, w := ⟨[(1, BitVec.ofNat 32 R.GLB_CTX_RECT), (2, 0x01020304)]⟩ }).past 0x84c48000))).hub : Hub) ∧ (on (fun h => (h).setCoop 0 (script1 0x84c48000 { pc := 3, w := ⟨[(1, BitVec.ofNat 32 R.GLB_CTX_RECT), (2, 0x01020304)]⟩ }))).hub.degradedNow = (on (fun h => (h).setCoop 0 (script1 0x84c48000 { pc := 3, w := ⟨[(1, BitVec.ofNat 32 R.GLB_CTX_RECT), (2, 0x01020304)]⟩ }))).hub.reg R.REL_DEGRADED ∧ ((script1 0x84c48000 { pc := 3, w := ⟨[(1, BitVec.ofNat 32 R.GLB_CTX_RECT), (2, 0x01020304)]⟩ }) : Cooper).reg (Iw.f2 (0x84c48000 : Nat)) % 2 ^ 20 = R.GLB_CTX_RECT ∧ ((on (fun h => ((h).setCoop 0 (script1 0x84c48000 { pc := 3, w := ⟨[(1, BitVec.ofNat 32 R.GLB_CTX_RECT), (2, 0x01020304)]⟩ })).setCoop 0 ((script1 0x84c48000 { pc := 3, w := ⟨[(1, BitVec.ofNat 32 R.GLB_CTX_RECT), (2, 0x01020304)]⟩ }).past 0x84c48000))).hub : Hub).takesWrite (coopReq (0 : CoopId)) R.GLB_CTX_RECT (((script1 0x84c48000 { pc := 3, w := ⟨[(1, BitVec.ofNat 32 R.GLB_CTX_RECT), (2, 0x01020304)]⟩ }) : Cooper).reg (Iw.f3 (0x84c48000 : Nat))) = true ∧ ((on (fun h => ((h).setCoop 0 (script1 0x84c48000 { pc := 3, w := ⟨[(1, BitVec.ofNat 32 R.GLB_CTX_RECT), (2, 0x01020304)]⟩ })).setCoop 0 ((script1 0x84c48000 { pc := 3, w := ⟨[(1, BitVec.ofNat 32 R.GLB_CTX_RECT), (2, 0x01020304)]⟩ }).past 0x84c48000))).hub : Hub).flag F.GLB_CMD_STATUS_DONE = true) ∧
    ((on (fun h => (h.running3).setCoop 0 (script1 0x88c00014 { data := ⟨[(20, 1), (21, 0xC0), (22, 0), (23, 0), (24, 0), (25, 0), (26, 0)]⟩ }))).hub.calm = true ∧ (on (fun h => (h.running3).setCoop 0 (script1 0x88c00014 { data := ⟨[(20, 1), (21, 0xC0), (22, 0), (23, 0), (24, 0), (25, 0), (26, 0)]⟩ }))).hub.coop (0 : CoopId) = ((script1 0x88c00014 { data := ⟨[(20, 1), (21, 0xC0), (22, 0), (23, 0), (24, 0), (25, 0), (26, 0)]⟩ }) : Cooper) ∧ ((script1 0x88c00014 { data := ⟨[(20, 1), (21, 0xC0), (22, 0), (23, 0), (24, 0), (25, 0), (26, 0)]⟩ }) : Cooper).executes Co.CORK (0x88c00014 : Nat) = true ∧ (on (fun h => (h.running3).setCoop 0 (script1 0x88c00014 { data := ⟨[(20, 1), (21, 0xC0), (22, 0), (23, 0), (24, 0), (25, 0), (26, 0)]⟩ }))).hub.setCoop (0 : CoopId) (((script1 0x88c00014 { data := ⟨[(20, 1), (21, 0xC0), (22, 0), (23, 0), (24, 0), (25, 0), (26, 0)]⟩ }) : Cooper).past (0x88c00014 : Nat)) = ((on (fun h => ((h.running3).setCoop 0 (script1 0x88c00014 { data := ⟨[(20, 1), (21, 0xC0), (22, 0), (23, 0), (24, 0), (25, 0), (26, 0)]⟩ })).setCoop 0 ((script1 0x88c00014 { data := ⟨[(20, 1), (21, 0xC0), (22, 0), (23, 0), (24, 0), (25, 0), (26, 0)]⟩ }).past 0x88c00014))).hub : Hub) ∧ ((script1 0x88c00014 { data := ⟨[(20, 1), (21, 0xC0), (22, 0), (23, 0), (24, 0), (25, 0), (26, 0)]⟩ }) : Cooper).reg (Iw.f2 (0x88c00014 : Nat)) + Iw.imm (0x88c00014 : Nat) = (20 : Nat) ∧ (20 : Nat) + 7 ≤ 256 ∧ (List.range 7).flatMap (fun i => le 4 (((script1 0x88c00014 { data := ⟨[(20, 1), (21, 0xC0), (22, 0), (23, 0), (24, 0), (25, 0), (26, 0)]⟩ }) : Cooper).data.get ((20 : Nat) + i) 0).toNat) = (((List.range 7).flatMap (fun i => le 4 ([1, 0xC0, 0, 0, 0, 0, 0].getD i 0))) : List Byte) ∧ leAt (((List.range 7).flatMap (fun i => le 4 ([1, 0xC0, 0, 0, 0, 0, 0].getD i 0))) : List Byte) 0 1 = 1 ∧ ((on (fun h => ((h.running3).setCoop 0 (script1 0x88c00014 { data := ⟨[(20, 1), (21, 0xC0), (22, 0), (23, 0), (24, 0), (25, 0), (26, 0)]⟩ })).setCoop 0 ((script1 0x88c00014 { data := ⟨[(20, 1), (21, 0xC0), (22, 0), (23, 0), (24, 0), (25, 0), (26, 0)]⟩ }).past 0x88c00014))).hub : Hub).corkCheck false 1 (corkBodyArgs (((List.range 7).flatMap (fun i => le 4 ([1, 0xC0, 0, 0, 0, 0, 0].getD i 0))) : List Byte)) = St.OK ∧ ((on (fun h => ((h.running3).setCoop 0 (script1 0x88c00014 { data := ⟨[(20, 1), (21, 0xC0), (22, 0), (23, 0), (24, 0), (25, 0), (26, 0)]⟩ })).setCoop 0 ((script1 0x88c00014 { data := ⟨[(20, 1), (21, 0xC0), (22, 0), (23, 0), (24, 0), (25, 0), (26, 0)]⟩ }).past 0x88c00014))).hub : Hub).alreadyStopped (corkBodyArgs (((List.range 7).flatMap (fun i => le 4 ([1, 0xC0, 0, 0, 0, 0, 0].getD i 0))) : List Byte)) = false ∧ (3 : Nat) ∈ ((on (fun h => ((h.running3).setCoop 0 (script1 0x88c00014 { data := ⟨[(20, 1), (21, 0xC0), (22, 0), (23, 0), (24, 0), (25, 0), (26, 0)]⟩ })).setCoop 0 ((script1 0x88c00014 { data := ⟨[(20, 1), (21, 0xC0), (22, 0), (23, 0), (24, 0), (25, 0), (26, 0)]⟩ }).past 0x88c00014))).hub : Hub).liveSlots 1 (corkBodyArgs (((List.range 7).flatMap (fun i => le 4 ([1, 0xC0, 0, 0, 0, 0, 0].getD i 0))) : List Byte))) ∧
    ((on (fun h => (h.stopped3.cellar1).setCoop 0 (script1 0x8cc00014 { data := ⟨[(20, 1), (21, 192), (22, 1), (23, 50790400), (24, 67043328), (25, 9), (26, 0), (27, 0)]⟩ }))).hub.calm = true ∧ (on (fun h => (h.stopped3.cellar1).setCoop 0 (script1 0x8cc00014 { data := ⟨[(20, 1), (21, 192), (22, 1), (23, 50790400), (24, 67043328), (25, 9), (26, 0), (27, 0)]⟩ }))).hub.coop (0 : CoopId) = ((script1 0x8cc00014 { data := ⟨[(20, 1), (21, 192), (22, 1), (23, 50790400), (24, 67043328), (25, 9), (26, 0), (27, 0)]⟩ }) : Cooper) ∧ ((script1 0x8cc00014 { data := ⟨[(20, 1), (21, 192), (22, 1), (23, 50790400), (24, 67043328), (25, 9), (26, 0), (27, 0)]⟩ }) : Cooper).executes Co.HARV (0x8cc00014 : Nat) = true ∧ (on (fun h => (h.stopped3.cellar1).setCoop 0 (script1 0x8cc00014 { data := ⟨[(20, 1), (21, 192), (22, 1), (23, 50790400), (24, 67043328), (25, 9), (26, 0), (27, 0)]⟩ }))).hub.setCoop (0 : CoopId) (((script1 0x8cc00014 { data := ⟨[(20, 1), (21, 192), (22, 1), (23, 50790400), (24, 67043328), (25, 9), (26, 0), (27, 0)]⟩ }) : Cooper).past (0x8cc00014 : Nat)) = ((on (fun h => ((h.stopped3.cellar1).setCoop 0 (script1 0x8cc00014 { data := ⟨[(20, 1), (21, 192), (22, 1), (23, 50790400), (24, 67043328), (25, 9), (26, 0), (27, 0)]⟩ })).setCoop 0 ((script1 0x8cc00014 { data := ⟨[(20, 1), (21, 192), (22, 1), (23, 50790400), (24, 67043328), (25, 9), (26, 0), (27, 0)]⟩ }).past 0x8cc00014))).hub : Hub) ∧ ((script1 0x8cc00014 { data := ⟨[(20, 1), (21, 192), (22, 1), (23, 50790400), (24, 67043328), (25, 9), (26, 0), (27, 0)]⟩ }) : Cooper).reg (Iw.f2 (0x8cc00014 : Nat)) + Iw.imm (0x8cc00014 : Nat) = (20 : Nat) ∧ (20 : Nat) + 8 ≤ 256 ∧ (((script1 0x8cc00014 { data := ⟨[(20, 1), (21, 192), (22, 1), (23, 50790400), (24, 67043328), (25, 9), (26, 0), (27, 0)]⟩ }) : Cooper).data.get (20 : Nat) 0).toNat = 1 ∧ ({ a := scopeOf (((script1 0x8cc00014 { data := ⟨[(20, 1), (21, 192), (22, 1), (23, 50790400), (24, 67043328), (25, 9), (26, 0), (27, 0)]⟩ }) : Cooper).data.get ((20 : Nat) + 1) 0).toNat, sel := (((script1 0x8cc00014 { data := ⟨[(20, 1), (21, 192), (22, 1), (23, 50790400), (24, 67043328), (25, 9), (26, 0), (27, 0)]⟩ }) : Cooper).data.get ((20 : Nat) + 2) 0).toNat, rect := (((script1 0x8cc00014 { data := ⟨[(20, 1), (21, 192), (22, 1), (23, 50790400), (24, 67043328), (25, 9), (26, 0), (27, 0)]⟩ }) : Cooper).data.get ((20 : Nat) + 3) 0).toNat, range := (((script1 0x8cc00014 { data := ⟨[(20, 1), (21, 192), (22, 1), (23, 50790400), (24, 67043328), (25, 9), (26, 0), (27, 0)]⟩ }) : Cooper).data.get ((20 : Nat) + 4) 0).toNat, vintage := (((script1 0x8cc00014 { data := ⟨[(20, 1), (21, 192), (22, 1), (23, 50790400), (24, 67043328), (25, 9), (26, 0), (27, 0)]⟩ }) : Cooper).data.get ((20 : Nat) + 5) 0).toNat, ref := (((script1 0x8cc00014 { data := ⟨[(20, 1), (21, 192), (22, 1), (23, 50790400), (24, 67043328), (25, 9), (26, 0), (27, 0)]⟩ }) : Cooper).data.get ((20 : Nat) + 6) 0).toNat, snap := (((script1 0x8cc00014 { data := ⟨[(20, 1), (21, 192), (22, 1), (23, 50790400), (24, 67043328), (25, 9), (26, 0), (27, 0)]⟩ }) : Cooper).data.get ((20 : Nat) + 7) 0).toNat % 256, req := reqCode (coopReq (0 : CoopId)) } : HarvReq) = ({ a := scopeOf 0xC0, sel := 1, rect := 0x03070000, range := 0x03FF0000, vintage := 9, ref := 0, snap := 0, req := reqCode (coopReq 0) } : HarvReq) ∧ ((on (fun h => ((h.stopped3.cellar1).setCoop 0 (script1 0x8cc00014 { data := ⟨[(20, 1), (21, 192), (22, 1), (23, 50790400), (24, 67043328), (25, 9), (26, 0), (27, 0)]⟩ })).setCoop 0 ((script1 0x8cc00014 { data := ⟨[(20, 1), (21, 192), (22, 1), (23, 50790400), (24, 67043328), (25, 9), (26, 0), (27, 0)]⟩ }).past 0x8cc00014))).hub : Hub).harvCheck ({ a := scopeOf 0xC0, sel := 1, rect := 0x03070000, range := 0x03FF0000, vintage := 9, ref := 0, snap := 0, req := reqCode (coopReq 0) } : HarvReq) = St.OK ∧ ({ a := scopeOf 0xC0, sel := 1, rect := 0x03070000, range := 0x03FF0000, vintage := 9, ref := 0, snap := 0, req := reqCode (coopReq 0) } : HarvReq).vintage ≠ 0 ∧ ({ a := scopeOf 0xC0, sel := 1, rect := 0x03070000, range := 0x03FF0000, vintage := 9, ref := 0, snap := 0, req := reqCode (coopReq 0) } : HarvReq).a.fed = false ∧ ({ a := scopeOf 0xC0, sel := 1, rect := 0x03070000, range := 0x03FF0000, vintage := 9, ref := 0, snap := 0, req := reqCode (coopReq 0) } : HarvReq).a.xpkg = false) ∧
    ((on (fun h => (({ (((h.cellar1.wr F.LINK_STATE_STATE 5).wr F.RACK_ARG_HUB_HUB 130).setReg R.RACK_ARG_VINTAGE 9) with cell := { h.cellar1.cell with index := ⟨[(4, { number := 9, state := 2, casks := 1, chain := [0] })]⟩ } }.setReg R.RACK_ARG_OBJ 0x3FFFF)).setCoop 0 (script1 0x90c00014 { data := ⟨[(20, 1), (21, 130), (22, 9), (23, 262143)]⟩ }))).hub.calm = true ∧ (on (fun h => (({ (((h.cellar1.wr F.LINK_STATE_STATE 5).wr F.RACK_ARG_HUB_HUB 130).setReg R.RACK_ARG_VINTAGE 9) with cell := { h.cellar1.cell with index := ⟨[(4, { number := 9, state := 2, casks := 1, chain := [0] })]⟩ } }.setReg R.RACK_ARG_OBJ 0x3FFFF)).setCoop 0 (script1 0x90c00014 { data := ⟨[(20, 1), (21, 130), (22, 9), (23, 262143)]⟩ }))).hub.coop (0 : CoopId) = ((script1 0x90c00014 { data := ⟨[(20, 1), (21, 130), (22, 9), (23, 262143)]⟩ }) : Cooper) ∧ ((script1 0x90c00014 { data := ⟨[(20, 1), (21, 130), (22, 9), (23, 262143)]⟩ }) : Cooper).executes Co.RACK (0x90c00014 : Nat) = true ∧ (on (fun h => (({ (((h.cellar1.wr F.LINK_STATE_STATE 5).wr F.RACK_ARG_HUB_HUB 130).setReg R.RACK_ARG_VINTAGE 9) with cell := { h.cellar1.cell with index := ⟨[(4, { number := 9, state := 2, casks := 1, chain := [0] })]⟩ } }.setReg R.RACK_ARG_OBJ 0x3FFFF)).setCoop 0 (script1 0x90c00014 { data := ⟨[(20, 1), (21, 130), (22, 9), (23, 262143)]⟩ }))).hub.setCoop (0 : CoopId) (((script1 0x90c00014 { data := ⟨[(20, 1), (21, 130), (22, 9), (23, 262143)]⟩ }) : Cooper).past (0x90c00014 : Nat)) = ((on (fun h => ((({ (((h.cellar1.wr F.LINK_STATE_STATE 5).wr F.RACK_ARG_HUB_HUB 130).setReg R.RACK_ARG_VINTAGE 9) with cell := { h.cellar1.cell with index := ⟨[(4, { number := 9, state := 2, casks := 1, chain := [0] })]⟩ } }.setReg R.RACK_ARG_OBJ 0x3FFFF)).setCoop 0 (script1 0x90c00014 { data := ⟨[(20, 1), (21, 130), (22, 9), (23, 262143)]⟩ })).setCoop 0 ((script1 0x90c00014 { data := ⟨[(20, 1), (21, 130), (22, 9), (23, 262143)]⟩ }).past 0x90c00014))).hub : Hub) ∧ ((script1 0x90c00014 { data := ⟨[(20, 1), (21, 130), (22, 9), (23, 262143)]⟩ }) : Cooper).reg (Iw.f2 (0x90c00014 : Nat)) + Iw.imm (0x90c00014 : Nat) = (20 : Nat) ∧ (20 : Nat) + 4 ≤ 256 ∧ (((script1 0x90c00014 { data := ⟨[(20, 1), (21, 130), (22, 9), (23, 262143)]⟩ }) : Cooper).data.get (20 : Nat) 0).toNat = 1 ∧ ({ hub := (((script1 0x90c00014 { data := ⟨[(20, 1), (21, 130), (22, 9), (23, 262143)]⟩ }) : Cooper).data.get ((20 : Nat) + 1) 0).toNat % 2048, vintage := (((script1 0x90c00014 { data := ⟨[(20, 1), (21, 130), (22, 9), (23, 262143)]⟩ }) : Cooper).data.get ((20 : Nat) + 2) 0).toNat, obj := (((script1 0x90c00014 { data := ⟨[(20, 1), (21, 130), (22, 9), (23, 262143)]⟩ }) : Cooper).data.get ((20 : Nat) + 3) 0).toNat } : RackArgs) = ({ hub := 130, vintage := 9, obj := 0x3FFFF } : RackArgs) ∧ ((on (fun h => ((({ (((h.cellar1.wr F.LINK_STATE_STATE 5).wr F.RACK_ARG_HUB_HUB 130).setReg R.RACK_ARG_VINTAGE 9) with cell := { h.cellar1.cell with index := ⟨[(4, { number := 9, state := 2, casks := 1, chain := [0] })]⟩ } }.setReg R.RACK_ARG_OBJ 0x3FFFF)).setCoop 0 (script1 0x90c00014 { data := ⟨[(20, 1), (21, 130), (22, 9), (23, 262143)]⟩ })).setCoop 0 ((script1 0x90c00014 { data := ⟨[(20, 1), (21, 130), (22, 9), (23, 262143)]⟩ }).past 0x90c00014))).hub : Hub).rackCheck false 1 ({ hub := 130, vintage := 9, obj := 0x3FFFF } : RackArgs) = St.OK) ∧
    ((on (fun h => (h.setTend 1 { st := Ts.UP }).setCoop 0 (script1 0x94c00014 { data := ⟨[(20, 1), (21, 131), (22, 0), (23, 0)]⟩ }))).hub.calm = true ∧ (on (fun h => (h.setTend 1 { st := Ts.UP }).setCoop 0 (script1 0x94c00014 { data := ⟨[(20, 1), (21, 131), (22, 0), (23, 0)]⟩ }))).hub.coop (0 : CoopId) = ((script1 0x94c00014 { data := ⟨[(20, 1), (21, 131), (22, 0), (23, 0)]⟩ }) : Cooper) ∧ ((script1 0x94c00014 { data := ⟨[(20, 1), (21, 131), (22, 0), (23, 0)]⟩ }) : Cooper).executes Co.XREG (0x94c00014 : Nat) = true ∧ (on (fun h => (h.setTend 1 { st := Ts.UP }).setCoop 0 (script1 0x94c00014 { data := ⟨[(20, 1), (21, 131), (22, 0), (23, 0)]⟩ }))).hub.setCoop (0 : CoopId) (((script1 0x94c00014 { data := ⟨[(20, 1), (21, 131), (22, 0), (23, 0)]⟩ }) : Cooper).past (0x94c00014 : Nat)) = ((on (fun h => ((h.setTend 1 { st := Ts.UP }).setCoop 0 (script1 0x94c00014 { data := ⟨[(20, 1), (21, 131), (22, 0), (23, 0)]⟩ })).setCoop 0 ((script1 0x94c00014 { data := ⟨[(20, 1), (21, 131), (22, 0), (23, 0)]⟩ }).past 0x94c00014))).hub : Hub) ∧ ((script1 0x94c00014 { data := ⟨[(20, 1), (21, 131), (22, 0), (23, 0)]⟩ }) : Cooper).reg (Iw.f2 (0x94c00014 : Nat)) + Iw.imm (0x94c00014 : Nat) = (20 : Nat) ∧ (20 : Nat) + 4 ≤ 256 ∧ (((script1 0x94c00014 { data := ⟨[(20, 1), (21, 131), (22, 0), (23, 0)]⟩ }) : Cooper).data.get (20 : Nat) 0).toNat = 1 ∧ (((script1 0x94c00014 { data := ⟨[(20, 1), (21, 131), (22, 0), (23, 0)]⟩ }) : Cooper).data.get ((20 : Nat) + 1) 0).toNat % 2048 = (131 : Nat) ∧ packageOf (131 : Nat) = packageOf (on (fun h => (h.setTend 1 { st := Ts.UP }).setCoop 0 (script1 0x94c00014 { data := ⟨[(20, 1), (21, 131), (22, 0), (23, 0)]⟩ }))).hub.hubAddr) ∧
    ((on (fun h => (h).setCoop 0 (script1 0x94c00014 { data := ⟨[(20, 1), (21, 300), (22, 0), (23, 0)]⟩ }))).hub.calm = true ∧ (on (fun h => (h).setCoop 0 (script1 0x94c00014 { data := ⟨[(20, 1), (21, 300), (22, 0), (23, 0)]⟩ }))).hub.coop (0 : CoopId) = ((script1 0x94c00014 { data := ⟨[(20, 1), (21, 300), (22, 0), (23, 0)]⟩ }) : Cooper) ∧ ((script1 0x94c00014 { data := ⟨[(20, 1), (21, 300), (22, 0), (23, 0)]⟩ }) : Cooper).executes Co.XREG (0x94c00014 : Nat) = true ∧ (on (fun h => (h).setCoop 0 (script1 0x94c00014 { data := ⟨[(20, 1), (21, 300), (22, 0), (23, 0)]⟩ }))).hub.setCoop (0 : CoopId) (((script1 0x94c00014 { data := ⟨[(20, 1), (21, 300), (22, 0), (23, 0)]⟩ }) : Cooper).past (0x94c00014 : Nat)) = ((on (fun h => ((h).setCoop 0 (script1 0x94c00014 { data := ⟨[(20, 1), (21, 300), (22, 0), (23, 0)]⟩ })).setCoop 0 ((script1 0x94c00014 { data := ⟨[(20, 1), (21, 300), (22, 0), (23, 0)]⟩ }).past 0x94c00014))).hub : Hub) ∧ (on (fun h => (h).setCoop 0 (script1 0x94c00014 { data := ⟨[(20, 1), (21, 300), (22, 0), (23, 0)]⟩ }))).hub.degradedNow = (on (fun h => (h).setCoop 0 (script1 0x94c00014 { data := ⟨[(20, 1), (21, 300), (22, 0), (23, 0)]⟩ }))).hub.reg R.REL_DEGRADED ∧ ((script1 0x94c00014 { data := ⟨[(20, 1), (21, 300), (22, 0), (23, 0)]⟩ }) : Cooper).reg (Iw.f2 (0x94c00014 : Nat)) + Iw.imm (0x94c00014 : Nat) = (20 : Nat) ∧ (20 : Nat) + 4 ≤ 256 ∧ packageOf ((((script1 0x94c00014 { data := ⟨[(20, 1), (21, 300), (22, 0), (23, 0)]⟩ }) : Cooper).data.get ((20 : Nat) + 1) 0).toNat % 2048) ≠ packageOf (on (fun h => (h).setCoop 0 (script1 0x94c00014 { data := ⟨[(20, 1), (21, 300), (22, 0), (23, 0)]⟩ }))).hub.hubAddr) := by
  and_intros <;> decide +kernel

/-- The hypotheses of cooper_commands_start_abort_and_load can be met, clause by clause. -/
theorem witness_cooper_commands_start_abort_and_load :
    ((on (fun h => (h.wr (F.COOP_ARG_VALUE.lane 0) 77).setCoop 0 { st := .idle, scripts := ⟨[(2, { valid := true, entry := 4 })]⟩ })).hub.calm = true ∧ (on (fun h => (h.wr (F.COOP_ARG_VALUE.lane 0) 77).setCoop 0 { st := .idle, scripts := ⟨[(2, { valid := true, entry := 4 })]⟩ })).hub.coop (0 : CoopId) = ({ st := .idle, scripts := ⟨[(2, { valid := true, entry := 4 })]⟩ } : Cooper) ∧ (on (fun h => (h.wr (F.COOP_ARG_VALUE.lane 0) 77).setCoop 0 { st := .idle, scripts := ⟨[(2, { valid := true, entry := 4 })]⟩ })).hub.takesWrite (.mgmt : Req) (R.COOP_CMD + 0x1000 * (0 : CoopId)) (1 + 16 * (2 : Fin 8)) = true ∧ (on (fun h => (h.wr (F.COOP_ARG_VALUE.lane 0) 77).setCoop 0 { st := .idle, scripts := ⟨[(2, { valid := true, entry := 4 })]⟩ })).hub.coopCheck (0 : CoopId) 1 (2 : Fin 8) = St.OK) ∧
    ((on (fun h => (h).setCoop 0 { st := .running })).hub.calm = true ∧ (on (fun h => (h).setCoop 0 { st := .running })).hub.coop (0 : CoopId) = ({ st := .running } : Cooper) ∧ (on (fun h => (h).setCoop 0 { st := .running })).hub.takesWrite (.mgmt : Req) (R.COOP_CMD + 0x1000 * (0 : CoopId)) 2 = true ∧ (on (fun h => (h).setCoop 0 { st := .running })).hub.coopCheck (0 : CoopId) 2 0 = St.OK ∧ ({ st := .running } : Cooper).st ≠ .empty ∧ ({ st := .running } : Cooper).st ≠ .loading) ∧
    ((on (fun h => (h).setCoop 0 { st := .loading, loading := true })).hub.calm = true ∧ (on (fun h => (h).setCoop 0 { st := .loading, loading := true })).hub.coop (0 : CoopId) = ({ st := .loading, loading := true } : Cooper) ∧ (on (fun h => (h).setCoop 0 { st := .loading, loading := true })).hub.takesWrite (.mgmt : Req) (R.COOP_CMD + 0x1000 * (0 : CoopId)) 2 = true ∧ (on (fun h => (h).setCoop 0 { st := .loading, loading := true })).hub.coopCheck (0 : CoopId) 2 0 = St.OK ∧ ({ st := .loading, loading := true } : Cooper).st = .loading) ∧
    ((on (fun h => (h).setCoop 0 { st := .idle })).hub.calm = true ∧ (on (fun h => (h).setCoop 0 { st := .idle })).hub.coop (0 : CoopId) = ({ st := .idle } : Cooper) ∧ (on (fun h => (h).setCoop 0 { st := .idle })).hub.takesWrite (.mgmt : Req) (R.COOP_CMD + 0x1000 * (0 : CoopId)) 3 = true ∧ (on (fun h => (h).setCoop 0 { st := .idle })).hub.coopCheck (0 : CoopId) 3 0 = St.OK) ∧
    ((on (fun h => ((h.wr (F.COOP_PROG_WORDS_COUNT.lane 0) 1).wr (F.COOP_PROG_CRC_CRC.lane 0) (crc32c (le 4 0x6C000000))).setCoop 0 { st := .loading, loading := true, prog := ⟨[(0, 0x6C000000)]⟩, scripts := ⟨[(0, { valid := true })]⟩ })).hub.calm = true ∧ (on (fun h => ((h.wr (F.COOP_PROG_WORDS_COUNT.lane 0) 1).wr (F.COOP_PROG_CRC_CRC.lane 0) (crc32c (le 4 0x6C000000))).setCoop 0 { st := .loading, loading := true, prog := ⟨[(0, 0x6C000000)]⟩, scripts := ⟨[(0, { valid := true })]⟩ })).hub.coop (0 : CoopId) = ({ st := .loading, loading := true, prog := ⟨[(0, 0x6C000000)]⟩, scripts := ⟨[(0, { valid := true })]⟩ } : Cooper) ∧ (on (fun h => ((h.wr (F.COOP_PROG_WORDS_COUNT.lane 0) 1).wr (F.COOP_PROG_CRC_CRC.lane 0) (crc32c (le 4 0x6C000000))).setCoop 0 { st := .loading, loading := true, prog := ⟨[(0, 0x6C000000)]⟩, scripts := ⟨[(0, { valid := true })]⟩ })).hub.takesWrite (.mgmt : Req) (R.COOP_CMD + 0x1000 * (0 : CoopId)) 4 = true ∧ (on (fun h => ((h.wr (F.COOP_PROG_WORDS_COUNT.lane 0) 1).wr (F.COOP_PROG_CRC_CRC.lane 0) (crc32c (le 4 0x6C000000))).setCoop 0 { st := .loading, loading := true, prog := ⟨[(0, 0x6C000000)]⟩, scripts := ⟨[(0, { valid := true })]⟩ })).hub.coopCheck (0 : CoopId) 4 0 = St.OK ∧ ({ st := .loading, loading := true, prog := ⟨[(0, 0x6C000000)]⟩, scripts := ⟨[(0, { valid := true })]⟩ } : Cooper).defined.all (fun i => (({ st := .loading, loading := true, prog := ⟨[(0, 0x6C000000)]⟩, scripts := ⟨[(0, { valid := true })]⟩ } : Cooper).scripts.get i {}).trigger != 3) = true ∧ programOk (({ st := .loading, loading := true, prog := ⟨[(0, 0x6C000000)]⟩, scripts := ⟨[(0, { valid := true })]⟩ } : Cooper).words ((on (fun h => ((h.wr (F.COOP_PROG_WORDS_COUNT.lane 0) 1).wr (F.COOP_PROG_CRC_CRC.lane 0) (crc32c (le 4 0x6C000000))).setCoop 0 { st := .loading, loading := true, prog := ⟨[(0, 0x6C000000)]⟩, scripts := ⟨[(0, { valid := true })]⟩ })).hub.rd (F.COOP_PROG_WORDS_COUNT.lane (0 : CoopId)))) (({ st := .loading, loading := true, prog := ⟨[(0, 0x6C000000)]⟩, scripts := ⟨[(0, { valid := true })]⟩ } : Cooper).defined.map (fun i => (({ st := .loading, loading := true, prog := ⟨[(0, 0x6C000000)]⟩, scripts := ⟨[(0, { valid := true })]⟩ } : Cooper).scripts.get i {}).entry)) ((on (fun h => ((h.wr (F.COOP_PROG_WORDS_COUNT.lane 0) 1).wr (F.COOP_PROG_CRC_CRC.lane 0) (crc32c (le 4 0x6C000000))).setCoop 0 { st := .loading, loading := true, prog := ⟨[(0, 0x6C000000)]⟩, scripts := ⟨[(0, { valid := true })]⟩ })).hub.rd (F.COOP_PROG_CRC_CRC.lane (0 : CoopId))) = true) ∧
    ((on (fun h => h.setCoop 0 { st := .loading })).hub.calm = true ∧ (on (fun h => h.setCoop 0 { st := .loading })).hub.coop (0 : CoopId) = ({ st := .loading } : Cooper) ∧ (on (fun h => h.setCoop 0 { st := .loading })).hub.takesWrite (.mgmt : Req) (R.COOP_CMD + 0x1000 * (0 : CoopId)) 4 = true ∧ (on (fun h => h.setCoop 0 { st := .loading })).hub.coopCheck (0 : CoopId) 4 0 = St.OK ∧ programOk (({ st := .loading } : Cooper).words ((on (fun h => h.setCoop 0 { st := .loading })).hub.rd (F.COOP_PROG_WORDS_COUNT.lane (0 : CoopId)))) (({ st := .loading } : Cooper).defined.map (fun i => (({ st := .loading } : Cooper).scripts.get i {}).entry)) ((on (fun h => h.setCoop 0 { st := .loading })).hub.rd (F.COOP_PROG_CRC_CRC.lane (0 : CoopId))) = false) ∧
    ((on (fun h => (h.wr (F.COOP_RUNS_STARTS.lane 0) 7).setCoop 0 { st := .idle })).hub.calm = true ∧ (on (fun h => (h.wr (F.COOP_RUNS_STARTS.lane 0) 7).setCoop 0 { st := .idle })).hub.coop (0 : CoopId) = ({ st := .idle } : Cooper) ∧ (on (fun h => (h.wr (F.COOP_RUNS_STARTS.lane 0) 7).setCoop 0 { st := .idle })).hub.takesWrite (.mgmt : Req) (R.COOP_CMD + 0x1000 * (0 : CoopId)) 5 = true ∧ (on (fun h => (h.wr (F.COOP_RUNS_STARTS.lane 0) 7).setCoop 0 { st := .idle })).hub.coopCheck (0 : CoopId) 5 0 = St.OK) ∧
    ((on (fun h => (h.wr (F.COOP_PROG_SEL_WORD.lane 0) 5).setCoop 0 { st := .loading })).hub.calm = true ∧ (on (fun h => (h.wr (F.COOP_PROG_SEL_WORD.lane 0) 5).setCoop 0 { st := .loading })).hub.coop (0 : CoopId) = ({ st := .loading } : Cooper) ∧ (on (fun h => (h.wr (F.COOP_PROG_SEL_WORD.lane 0) 5).setCoop 0 { st := .loading })).hub.takesWrite (.mgmt : Req) (R.COOP_PROG_DATA + 0x1000 * (0 : CoopId)) (0x6C000000#32 : Word).toNat = true ∧ ({ st := .loading } : Cooper).st = .loading) ∧
    ((on (fun h => h)).hub.calm = true ∧ (on (fun h => h)).hub.coop (0 : CoopId) = ({} : Cooper) ∧ (on (fun h => h)).hub.takesWrite (.mgmt : Req) (R.COOP_PROG_DATA + 0x1000 * (0 : CoopId)) (0x6C000000#32 : Word).toNat = true ∧ ({} : Cooper).st ≠ .loading) ∧
    ((on (fun h => h.wr (F.COOP_DATA_SEL_WORD.lane 0) 255)).hub.calm = true ∧ (on (fun h => h.wr (F.COOP_DATA_SEL_WORD.lane 0) 255)).hub.coop (0 : CoopId) = ({} : Cooper) ∧ (on (fun h => h.wr (F.COOP_DATA_SEL_WORD.lane 0) 255)).hub.takesWrite (.mgmt : Req) (R.COOP_DATA_DATA + 0x1000 * (0 : CoopId)) (7#32 : Word).toNat = true ∧ ({} : Cooper).st ≠ .running ∧ ({} : Cooper).st ≠ .waiting) ∧
    ((on (fun h => h.setCoop 0 { data := ⟨[(0, 7)]⟩ })).hub.calm = true ∧ (on (fun h => h.setCoop 0 { data := ⟨[(0, 7)]⟩ })).hub.coop (0 : CoopId) = ({ data := ⟨[(0, 7)]⟩ } : Cooper) ∧ (on (fun h => h.setCoop 0 { data := ⟨[(0, 7)]⟩ })).hub.accessStatus (.mgmt : Req) (R.COOP_DATA_DATA + 0x1000 * (0 : CoopId)) false 0 = St.OK) := by
  and_intros <;> decide +kernel

end Sys2Proof.Machine
end

section
/-! SUPPORT. Commands that change registers, the bus, the HI latches and the pins, and nothing else: their whole effect on a calm hub. -/

namespace Sys2Proof.Machine

/-! ### Changes of registers, bus, latches and pins alone -/

/-- `h` comes from `s` by changing the registers of the keys, the bus, the HI latches and the pins, and nothing else. -/
structure Touched (keys : List Nat) (s h : Hub) : Prop where
  core : { h with regs := s.regs, bus := s.bus, hi := s.hi, pins := s.pins } = s
  regs : ∀ a b, regKey a b ∉ keys → h.regB a b = s.regB a b

variable {keys : List Nat}

theorem Touched.trans {s t u : Hub} (h1 : Touched keys s t) (h2 : Touched keys t u) : Touched keys s u := by
  refine ⟨?_, fun a b n => (h2.regs a b n).trans (h1.regs a b n)⟩
  have e : ({ u with regs := s.regs, bus := s.bus, hi := s.hi, pins := s.pins } : Hub) =
      { ({ u with regs := t.regs, bus := t.bus, hi := t.hi, pins := t.pins } : Hub) with
        regs := s.regs, bus := s.bus, hi := s.hi, pins := s.pins } := rfl
  rw [e, h2.core, h1.core]

theorem Touched.setReg (s : Hub) {a : Nat} (v : Nat) (k : a ∈ keys) : Touched keys s (s.setReg a v) := by
  refine ⟨rfl, fun a' b' n => Hub.regB_setRegB_ne s v fun e => n ?_⟩
  rw [e]; simpa [regKey] using k

theorem Touched.wr (s : Hub) {f : Fld} (v : Nat) (k : f.addr ∈ keys) : Touched keys s (s.wr f v) := Touched.setReg s _ k

theorem Touched.err (s : Hub) {e : ErrBit} (k : (F.PG_ERROR_ERRORS.lane e.page).addr ∈ keys)
    (k' : (F.PG_ERROR_INFO_BIT.lane e.page).addr ∈ keys) : Touched keys s (s.err e) :=
  (Touched.wr s _ k).trans (Touched.wr _ _ k')

theorem Touched.errAt (s : Hub) (r : Req) {a : Nat} (k : (F.PG_ERROR_INFO_OFFSET.lane (a / 0x1000)).addr ∈ keys) :
    Touched keys s (s.errAt r a) := (Touched.wr s _ k).trans (Touched.wr _ _ k)

theorem Touched.respond (s : Hub) (r : Req) (v st : Nat) : Touched keys s (s.respond r v st) := ⟨rfl, fun _ _ _ => rfl⟩

theorem Touched.latchHi (s : Hub) (r : Req) (a v : Nat) : Touched keys s (s.latchHi r a v) := ⟨rfl, fun _ _ _ => rfl⟩

/-- The I3C register address set to `n` (R466). -/
def Hub.setI3cPtr (s : Hub) (n : Nat) : Hub := { s with pins := { s.pins with i3cPtr := n } }

theorem Touched.setI3cPtr (s : Hub) (n : Nat) : Touched keys s (s.setI3cPtr n) := ⟨rfl, fun _ _ _ => rfl⟩

/-- The registers that the condition `calm` looks at. -/
def calmKeys : List Nat := [F.HARV_STATUS_PHASE.addr, F.TRACE_STATE_RUNNING.addr, F.TRACE_TRIG_CTRL_HUBEV_EN.addr]

theorem Touched.rd {s h : Hub} (t : Touched keys s h) (f : Fld) (n : f.addr ∉ keys) : h.rd f = s.rd f := by
  simp only [Hub.rd, Hub.rdB, t.regs f.addr 0 (by simpa [regKey] using n)]

/-- A calm hub stays calm where no register is touched that `calm` looks at. -/
theorem Touched.calm {s h : Hub} (t : Touched keys s h) (k : ∀ a ∈ calmKeys, a ∉ keys) (c : s.calm = true) : h.calm = true := by
  have phase := t.rd F.HARV_STATUS_PHASE (k _ (by simp [calmKeys]))
  have running := t.rd F.TRACE_STATE_RUNNING (k _ (by simp [calmKeys]))
  have hubev := t.rd F.TRACE_TRIG_CTRL_HUBEV_EN (k _ (by simp [calmKeys]))
  rw [← t.core] at c
  rw [← c]
  simp only [Hub.calm, Hub.flag, phase, running, hubev]
  rfl

/-! ### The command's whole effect -/

/-- What a calm hub `s` becomes by a command whose unit only touches registers, bus, latches and pins on the way to `h`: `t`. -/
structure Effect (keys : List Nat) (s h t : Hub) : Prop where
  rest : s.rest t = { s with hi := h.hi }
  keeps : s.keeps t keys
  regs : ∀ a b, eventKey (regKey a b) = false → t.regB a b = h.regB a b
  bus : t.bus = h.bus
  i3cPtr : t.pins.i3cPtr = h.pins.i3cPtr

theorem Effect.rd {s h t : Hub} (e : Effect keys s h t) (f : Fld) (n : eventKey f.addr = false) : t.rd f = h.rd f := by
  simp only [Hub.rd, Hub.rdB, e.regs f.addr 0 (by simpa [regKey] using n)]

theorem Effect.hi {s h t : Hub} (e : Effect keys s h t) : t.hi = h.hi :=
  show (s.rest t).hi = _ by rw [e.rest]

theorem calm_untraced {h : Hub} (c : h.calm = true) : h.untraced := by
  obtain ⟨-, -, -, -, -, -, -, -, -, -, running, hubev, -⟩ := calm_parts c
  exact ⟨running, hubev⟩

theorem calm_unplanted {h : Hub} (c : h.calm = true) : h.rel.inject = none := by
  obtain ⟨-, -, -, -, -, -, -, i, -⟩ := calm_parts c
  exact i

theorem calm_nothing_left {h : Hub} (c : h.calm = true) : h.occs = [] ∧ h.writes = [] := by
  obtain ⟨-, -, -, -, -, -, -, -, -, -, -, -, o, w⟩ := calm_parts c
  exact ⟨o, w⟩

/-- Delivering events leaves the pins alone. -/
theorem Deliv.pins {rel : Bool} {s t : Hub} (d : Deliv rel s t) : t.pins = s.pins :=
  show (s.undelivered t).pins = _ by rw [d.core]

/-- What a command leaves, seen from the hub `s` before its unit touched it. -/
theorem Touched.rest_ran {s h t : Hub} (k : Touched keys s h) (o : h.occs = []) (w : h.writes = []) (r : Ran false h s.store t) :
    s.rest t = { s with hi := h.hi } := by
  have same {α : Type} (g : Hub → α) : g { h with regs := s.regs, bus := s.bus, hi := s.hi, pins := s.pins } = g s := congrArg g k.core
  have coops : h.coops = s.coops := same Hub.coops
  have link : h.link = s.link := same Hub.link
  have store : h.store = s.store := same Hub.store
  have told (c : Nat) : (t.coop c).told = (s.coop c).told := by rw [r.told rfl c, Hub.coop, Hub.coop, coops]
  calc s.rest t = { h.rest t with regs := s.regs, bus := s.bus, pins := s.pins, coops := s.coops } := by
        simp only [Hub.rest, told, and_self, if_true, link]
    _ = { ({ h with regs := s.regs, bus := s.bus, hi := s.hi, pins := s.pins } : Hub) with hi := h.hi } := by
        rw [r.rest]; simp only [w, o, Store.writeAll, List.foldl_nil, coops, store]
    _ = { s with hi := h.hi } := by rw [k.core]

/-- Driving the outputs leaves the I3C register address alone. -/
theorem commit_i3cPtr (h : Hub) (st : Store) : (h.drivePins.commit st).pins.i3cPtr = h.pins.i3cPtr := rfl

/-- The whole effect of a command on a calm hub whose unit only touches registers, bus, latches and pins. -/
theorem run_touched (f : Hub → Hub) (s : State) (c : s.hub.calm = true) (k : Touched keys s.hub (f s.hub))
    (n : ∀ a ∈ calmKeys, a ∉ keys) : ∃ t, run f s = .next { s with hub := t } ∧ Effect keys s.hub (f s.hub) t := by
  have calm := k.calm n c
  obtain ⟨o, w⟩ := calm_nothing_left calm
  obtain ⟨d, e, b⟩ := settle_still (rel := false) (calm_still calm) (calm_untraced calm) (by simp [o])
  have r := d.ran s.hub.store e b
  have regs (a b : Nat) (q : eventKey (regKey a b) = false) := r.keeps a b q (by simp)
  have i3cPtr := (commit_i3cPtr (f s.hub).settle s.hub.store).trans (congrArg Pins.i3cPtr d.pins)
  exact ⟨_, rfl, ⟨k.rest_ran o w r, fun a b q m => (regs a b q).trans (k.regs a b m), regs, r.bus, i3cPtr⟩⟩

/-- A command answers what its unit's effect shows. -/
theorem answers_touched {i : Instr} {s : State} {p : Hub → Prop} {f : Hub → Hub} {h : Hub} (x : exec i s = run f s) (e : f s.hub = h)
    (k : Touched keys s.hub h) (n : ∀ a ∈ calmKeys, a ∉ keys) (c : s.hub.calm = true) (q : ∀ t, Effect keys s.hub h t → p t) :
    Answers i s p := by
  subst e
  obtain ⟨t, a, b⟩ := run_touched f s c k n
  exact ⟨_, x.trans a, rfl, q t b⟩

/-! ### Errors recorded in PG_ERROR -/

@[simp] theorem Hub.rd_respond (s : Hub) (r : Req) (v st : Nat) (f : Fld) : (s.respond r v st).rd f = s.rd f := rfl

@[simp] theorem Hub.hasErr_respond (s : Hub) (r : Req) (v st : Nat) (e : ErrBit) : (s.respond r v st).hasErr e = s.hasErr e := rfl

/-- No PG_ERROR shares a bit with a PG_ERROR_INFO of the same or another page. -/
theorem info_apart_errors {f : Fld} (p q : Nat) (i : f.addr = R.PG_ERROR_INFO) : (f.lane q).apart (F.PG_ERROR_ERRORS.lane p) = true := by
  have : (f.lane q).addr ≠ (F.PG_ERROR_ERRORS.lane p).addr := by
    simp only [Fld.lane, i, R.PG_ERROR_INFO, F.PG_ERROR_ERRORS]; omega
  simp [Fld.apart, this]

/-- An error recorded is seen (R459). -/
theorem Hub.hasErr_err (s : Hub) (e : ErrBit) (b : e.bit < 32) : (s.err e).hasErr e = true := by
  rw [Hub.hasErr, Hub.err, Hub.rd_wr_apart _ _ _ _ (le_refl 32) (info_apart_errors _ _ rfl), Hub.rd_wr _ _ _ (le_refl 32)]
  exact (bitAt_word _ _).trans (by simp [b, bitAt_eq_testBit])

/-- Recording where an ignored write fell keeps the PG_ERROR bits. -/
theorem Hub.hasErr_errAt (s : Hub) (e : ErrBit) (r : Req) (a : Nat) : (s.errAt r a).hasErr e = s.hasErr e := by
  rw [Hub.hasErr, Hub.errAt, Hub.rd_wr_apart _ _ _ _ (le_refl 32) (info_apart_errors _ _ rfl),
    Hub.rd_wr_apart _ _ _ _ (le_refl 32) (info_apart_errors _ _ rfl), Hub.hasErr]

/-- PG_ERROR_INFO of the register's page names the offset of an ignored write (R459). -/
theorem Hub.rd_offset_errAt (s : Hub) (r : Req) {a p : Nat} (page : a / 0x1000 = p) :
    (s.errAt r a).rd (F.PG_ERROR_INFO_OFFSET.lane p) = a % 0x1000 := by
  have apart : Fld.apart (F.PG_ERROR_INFO_REQUESTER.lane p) (F.PG_ERROR_INFO_OFFSET.lane p) = true := by
    simp [Fld.apart, Fld.lane, F.PG_ERROR_INFO_OFFSET, F.PG_ERROR_INFO_REQUESTER]
  have fits : (F.PG_ERROR_INFO_OFFSET.lane p).lo + (F.PG_ERROR_INFO_OFFSET.lane p).width ≤ 32 := by
    simp [Fld.lane, F.PG_ERROR_INFO_OFFSET]
  rw [Hub.errAt, page, Hub.rd_wr_apart _ _ _ _ fits apart, Hub.rd_wr _ _ _ fits]
  exact Nat.mod_mod _ _

/-- Delivering events changes no PG_ERROR. -/
theorem eventKey_errors (p : Nat) : eventKey (F.PG_ERROR_ERRORS.lane p).addr = false := by
  simp only [eventKey, Fld.lane, F.PG_ERROR_ERRORS, R.PG_EVENT, R.REL_DEGRADED, Bool.or_eq_false_iff, beq_eq_false_iff_ne]
  omega

theorem Effect.hasErr {s h t : Hub} (x : Effect keys s h t) (e : ErrBit) : t.hasErr e = h.hasErr e := by
  rw [Hub.hasErr, x.rd _ (eventKey_errors _), Hub.hasErr]

/-! ### Addresses -/

theorem normAddr_normAddr (a : Nat) : normAddr (normAddr a) = normAddr a := by simp only [normAddr]; omega

/-! ### Writes (R7, R8, R469) -/

theorem usePage_unplanted {s : Hub} (i : s.rel.inject = none) (a : Nat) : s.usePage a = s := by
  simp [Hub.usePage, Hub.planted, i]

/-- A write of a reserved address is ignored and answered OK (R8). -/
theorem regWrite_reserved (s : Hub) (r : Req) {a : Nat} (v : Nat) (d : (regDef (normAddr a)).isNone = true) :
    s.regWrite r a v = s.respond r 0 St.OK := by rw [Hub.regWrite, if_pos d]

/-- A write that the bus takes, of a register that is there: what the page's unit does, answered OK. -/
theorem regWrite_taken {s : Hub} {r : Req} {a v : Nat} (d : (regDef (normAddr a)).isNone = false) (t : s.takesWrite r a (v % 2 ^ 32) = true)
    (i : (s.writeReg r a v).rel.inject = none) : s.regWrite r a v = (s.writeReg r a v).respond r 0 St.OK := by
  rw [Hub.regWrite, if_neg (by simp [d]), cmd_taken t i]

/-- A register of RW fields alone takes the written value in those fields. -/
theorem storeWrite_rw {s : Hub} {a v : Nat} {d : RegDef} (e : regDef a = some d) (rw : d.mask .rw ≠ 0) (w1c : d.mask .w1c = 0) :
    s.storeWrite a v = s.setRegB a (s.bankOf a)
      ((s.regB a (s.bankOf a) ^^^ (s.regB a (s.bankOf a) &&& d.mask .rw)) ||| (v &&& d.mask .rw)) := by
  simp [Hub.storeWrite, e, rw, w1c]

/-- A field inside the mask takes the bits of the value merged in under the mask. -/
theorem bitsOf_merge (old v : Nat) {m lo w : Nat} (c : ∀ i < w, m.testBit (lo + i) = true) :
    bitsOf ((old ^^^ (old &&& m)) ||| (v &&& m)) lo w = bitsOf v lo w := by
  apply Nat.eq_of_testBit_eq; intro i
  simp only [bitsOf, Nat.testBit_mod_two_pow, Nat.testBit_shiftRight]
  by_cases hi : i < w
  · simp [hi, c i hi]
  · simp [hi]

/-- A write of an argument register with no rule of its own, while its DONE is 1: the value is stored. -/
theorem writeReg_argOpen {s : Hub} {r : Req} {a v : Nat} {done : Fld} {e : Option ErrBit} (block : 0x40 ≤ offOf (normAddr a))
    (win : inWindow (normAddr a) = false) (rule : argRule (normAddr a) = some (done, e)) (o : s.argOpen (normAddr a) done = true)
    (special : s.specialWrite r (pageStep (normAddr a)) (baseAddr (normAddr a)) (v % 2 ^ 32) = none) :
    s.writeReg r a v = s.storeWrite (normAddr a) (v % 2 ^ 32) := by
  simp only [Hub.writeReg, Nat.not_lt.mpr block, if_false, win, Bool.false_eq_true, rule, o, if_true, special]

/-- A write of an argument register while its DONE is 0: it is ignored and recorded (R459). -/
theorem writeReg_argBusy {s : Hub} {r : Req} {a v : Nat} {done : Fld} {e : ErrBit} (block : 0x40 ≤ offOf (normAddr a))
    (win : inWindow (normAddr a) = false) (rule : argRule (normAddr a) = some (done, some e)) (o : s.argOpen (normAddr a) done = false) :
    s.writeReg r a v = (s.err e).errAt r (normAddr a) := by
  simp only [Hub.writeReg, Nat.not_lt.mpr block, if_false, win, Bool.false_eq_true, rule, o]

/-! ### Reads (R6, R469) -/

/-- A read that the bus takes of a register that is neither behind a window, a HI half nor TIME_GCN_LO: the low half of its value is answered,
and for the LO half of a pair the high half is latched. -/
theorem regRead_value {s : Hub} {r : Req} {a : Nat} (t : s.accessStatus r a false 0 = St.OK) (d : (regDef (normAddr a)).isSome = true)
    (win : inWindow (normAddr a) = false) (hi : isHi (normAddr a) = false)
    (plain : [R.TASTE_EVID_DATA, R.COOP_PROG_DATA, R.COOP_DATA_DATA, R.AUTH_DATA, R.TIME_GCN_LO].contains (baseAddr (normAddr a)) = false)
    (i : s.rel.inject = none) :
    s.regRead r a = (if isLo (normAddr a) then s.latchHi r (normAddr a) (s.value r (normAddr a)) else s).respond r
      (s.value r (normAddr a) % 2 ^ 32) St.OK := by
  simp only [List.contains_eq_mem, List.mem_cons, List.not_mem_nil, or_false, decide_eq_false_iff_not, not_or] at plain
  obtain ⟨evid, prog, data, auth, gcn⟩ := plain
  have value : s.readReg r a = (s.value r (normAddr a) % 2 ^ 32,
      if isLo (normAddr a) then s.latchHi r (normAddr a) (s.value r (normAddr a)) else s) := by
    simp [Hub.readReg, win, hi, evid, prog, data, auth, gcn]
  rw [Option.isSome_iff_ne_none] at d
  simp only [Hub.regRead, t, value, Option.isNone_iff_eq_none, d, bne_self_eq_false, Bool.false_eq_true, if_false]
  apply usePage_unplanted
  split <;> exact i

/-- The HI half a pair's LO read has latched (R6). -/
theorem Hub.hi_latchHi (s : Hub) (r : Req) (a v : Nat) :
    ((s.latchHi r a v).hi.get (hiKey r (normAddr a + 4)) 0).toNat = v / 2 ^ 32 % 2 ^ 32 := by
  simp [Hub.latchHi]

theorem Hub.bus_respond (s : Hub) (r : Req) (v st : Nat) : (s.respond r v st).bus.get (reqCode r) {} = { value := v, status := st } := by
  simp [Hub.respond]

/-! ### Writes of GLB_CTX_RECT (R473, R474) -/

theorem argRule_ctxRect : argRule (normAddr R.GLB_CTX_RECT) = some (F.GLB_CMD_STATUS_DONE, some Er.GLB_ARG_BUSY) := by decide

/-- GLB_CTX_RECT is a register of RW bits [30:0]. -/
theorem regDef_ctxRect : regDef R.GLB_CTX_RECT = some ⟨0x078, [⟨0, 31, .rw, 0x7F7F0000⟩]⟩ := by decide

/-- The value that GLB_CTX_RECT holds after a write of `v`. -/
def Hub.ctxRectNew (s : Hub) (v : Nat) : Nat :=
  (s.reg R.GLB_CTX_RECT ^^^ (s.reg R.GLB_CTX_RECT &&& maskOf 0 31)) ||| (v &&& maskOf 0 31)

theorem bitsOf_ctxRectNew (s : Hub) (v : Nat) :
    bitsOf (s.ctxRectNew v) F.GLB_CTX_RECT_RECT.lo F.GLB_CTX_RECT_RECT.width =
      bitsOf v F.GLB_CTX_RECT_RECT.lo F.GLB_CTX_RECT_RECT.width := by
  apply bitsOf_merge
  intro i hi
  have mask : maskOf 0 31 = 2 ^ 31 - 1 := rfl
  have hi : i < 31 := hi
  rw [mask, Nat.testBit_two_pow_sub_one]
  simp [F.GLB_CTX_RECT_RECT, hi]

theorem regWrite_ctxRect_open {s : Hub} {r : Req} {v : Nat} (small : v < 2 ^ 32) (t : s.takesWrite r R.GLB_CTX_RECT v = true)
    (o : s.flag F.GLB_CMD_STATUS_DONE = true) (i : s.rel.inject = none) :
    s.regWrite r R.GLB_CTX_RECT v = (s.setReg R.GLB_CTX_RECT (s.ctxRectNew v)).respond r 0 St.OK := by
  have word : v % 2 ^ 32 = v := Nat.mod_eq_of_lt small
  have store : s.storeWrite R.GLB_CTX_RECT v = s.setReg R.GLB_CTX_RECT (s.ctxRectNew v) :=
    storeWrite_rw regDef_ctxRect (by decide) (by decide)
  have write : s.writeReg r R.GLB_CTX_RECT v = s.setReg R.GLB_CTX_RECT (s.ctxRectNew v) := by
    rw [writeReg_argOpen (by decide) (by decide) argRule_ctxRect o rfl, word]
    exact store
  rw [regWrite_taken (by decide) (by rwa [word]) (by rw [write]; exact i), write]

theorem regWrite_ctxRect_busy {s : Hub} {r : Req} {v : Nat} (small : v < 2 ^ 32) (t : s.takesWrite r R.GLB_CTX_RECT v = true)
    (o : s.flag F.GLB_CMD_STATUS_DONE = false) (i : s.rel.inject = none) :
    s.regWrite r R.GLB_CTX_RECT v = ((s.err Er.GLB_ARG_BUSY).errAt r R.GLB_CTX_RECT).respond r 0 St.OK := by
  have write : s.writeReg r R.GLB_CTX_RECT v = (s.err Er.GLB_ARG_BUSY).errAt r R.GLB_CTX_RECT :=
    writeReg_argBusy (by decide) (by decide) argRule_ctxRect o
  rw [regWrite_taken (by decide) (by rwa [Nat.mod_eq_of_lt small]) (by rw [write]; exact i), write]

/-! ### What the commands run -/

theorem exec_registerWrite (r : Req) (a : BitVec 20) (v : Word) (s : State) :
    exec (.registerWrite r a v) s = run (fun h => h.regWrite r a.toNat v.toNat) s := rfl

theorem exec_registerWrite_ctxRect (r : Req) (v : Word) (s : State) :
    exec (.registerWrite r R.GLB_CTX_RECT v) s = run (fun h => h.regWrite r R.GLB_CTX_RECT v.toNat) s := by
  have address : (R.GLB_CTX_RECT : BitVec 20).toNat = R.GLB_CTX_RECT := by decide
  simp only [exec_registerWrite, address]

theorem exec_loReadLatch (r : Req) (a : BitVec 20) (s : State) : exec (.loReadLatch r a) s = run (fun h => h.regRead r a.toNat) s := rfl

theorem exec_i3cEntdaa (a : BitVec 7) (s : State) : exec (.i3cEntdaa a) s = run (fun h => h.i3cEntdaa a.toNat) s := rfl

theorem exec_i3cPrivateWrite_bad (a : BitVec 24) (d : Option Word) (s : State) :
    exec (.i3cPrivateWrite a d true) s = run Hub.i3cBad s := rfl

theorem exec_i3cPrivateWrite_address (a : BitVec 24) (s : State) :
    exec (.i3cPrivateWrite a none false) s = run (fun h => h.setI3cPtr (a.toNat % 2 ^ 20)) s := rfl

theorem exec_i3cPrivateRead_bad (s : State) : exec (.i3cPrivateRead true) s = run Hub.i3cBad s := rfl

theorem exec_i3cPrivateRead_good (s : State) :
    exec (.i3cPrivateRead false) s = run (fun h => (h.regRead .i3c h.pins.i3cPtr).setI3cPtr ((h.pins.i3cPtr + 4) % 2 ^ 20)) s := rfl

/-! ### The clauses of the statement -/

theorem registerWrite_ctxRect_open (s : State) (r : Req) (v : Word) (c : s.hub.calm = true)
    (t : s.hub.takesWrite r R.GLB_CTX_RECT v.toNat = true) (o : s.hub.flag F.GLB_CMD_STATUS_DONE = true) :
    Answers (.registerWrite r R.GLB_CTX_RECT v) s fun h =>
      h.tookWrite r ∧ h.rd F.GLB_CTX_RECT_RECT = bitsOf v.toNat F.GLB_CTX_RECT_RECT.lo F.GLB_CTX_RECT_RECT.width ∧ s.hub.rest h = s.hub ∧
      s.hub.keeps h [R.GLB_CTX_RECT] := by
  have k : Touched [R.GLB_CTX_RECT] s.hub ((s.hub.setReg R.GLB_CTX_RECT (s.hub.ctxRectNew v.toNat)).respond r 0 St.OK) :=
    (Touched.setReg _ _ (by simp)).trans (Touched.respond _ _ _ _)
  refine answers_touched (exec_registerWrite_ctxRect _ _ _) (regWrite_ctxRect_open v.isLt t o (calm_unplanted c)) k (by decide) c
    fun h x => ⟨?_, ?_, x.rest, x.keeps⟩
  · rw [Hub.tookWrite, x.bus]; exact respond_took _ _
  · rw [x.rd _ (by decide), ← bitsOf_ctxRectNew s.hub v.toNat]
    exact (Hub.rd_respond _ _ _ _ _).trans (Hub.rd_setReg s.hub F.GLB_CTX_RECT_RECT _ (by decide))

theorem registerWrite_ctxRect_busy (s : State) (r : Req) (v : Word) (c : s.hub.calm = true)
    (t : s.hub.takesWrite r R.GLB_CTX_RECT v.toNat = true) (o : s.hub.flag F.GLB_CMD_STATUS_DONE = false) :
    Answers (.registerWrite r R.GLB_CTX_RECT v) s fun h =>
      h.tookWrite r ∧ h.hasErr Er.GLB_ARG_BUSY = true ∧ h.rd (F.PG_ERROR_INFO_OFFSET.lane 0) = 0x078 ∧ s.hub.rest h = s.hub ∧
      s.hub.keeps h [R.PG_ERROR, R.PG_ERROR_INFO] := by
  have k : Touched [R.PG_ERROR, R.PG_ERROR_INFO] s.hub
      (((s.hub.err Er.GLB_ARG_BUSY).errAt r R.GLB_CTX_RECT).respond r 0 St.OK) :=
    ((Touched.err _ (by decide) (by decide)).trans (Touched.errAt _ _ (by decide))).trans (Touched.respond _ _ _ _)
  refine answers_touched (exec_registerWrite_ctxRect _ _ _) (regWrite_ctxRect_busy v.isLt t o (calm_unplanted c)) k (by decide) c
    fun h x => ⟨?_, ?_, ?_, x.rest, x.keeps⟩
  · rw [Hub.tookWrite, x.bus]; exact respond_took _ _
  · rw [x.hasErr, Hub.hasErr_respond, Hub.hasErr_errAt, Hub.hasErr_err _ _ (by decide)]
  · rw [x.rd _ (by decide), Hub.rd_respond, Hub.rd_offset_errAt _ _ (by decide)]
    decide

theorem registerWrite_reserved (s : State) (r : Req) (a : BitVec 20) (v : Word) (c : s.hub.calm = true)
    (d : (regDef (normAddr a.toNat)).isNone = true) :
    Answers (.registerWrite r a v) s fun h => h.tookWrite r ∧ s.hub.rest h = s.hub ∧ s.hub.keeps h [] := by
  have k : Touched [] s.hub (s.hub.respond r 0 St.OK) := Touched.respond _ _ _ _
  refine answers_touched (exec_registerWrite _ _ _ _) (regWrite_reserved s.hub r v.toNat d) k (by decide) c fun h x => ⟨?_, x.rest, x.keeps⟩
  rw [Hub.tookWrite, x.bus]; exact respond_took _ _

theorem loReadLatch_latches (s : State) (r : Req) (a : BitVec 20) (c : s.hub.calm = true)
    (t : s.hub.accessStatus r a.toNat false 0 = St.OK) (d : (regDef (normAddr a.toNat)).isSome = true)
    (win : inWindow (normAddr a.toNat) = false) (hi : isHi (normAddr a.toNat) = false)
    (plain : [R.TASTE_EVID_DATA, R.COOP_PROG_DATA, R.COOP_DATA_DATA, R.AUTH_DATA, R.TIME_GCN_LO].contains (baseAddr (normAddr a.toNat)) = false)
    (lo : isLo (normAddr a.toNat) = true) :
    Answers (.loReadLatch r a) s fun h =>
      h.bus.get (reqCode r) {} = { value := s.hub.value r (normAddr a.toNat) % 2 ^ 32, status := St.OK } ∧
      (h.hi.get (hiKey r (normAddr a.toNat + 4)) 0).toNat = s.hub.value r (normAddr a.toNat) / 2 ^ 32 % 2 ^ 32 ∧
      s.hub.rest h = { s.hub with hi := h.hi } ∧ s.hub.keeps h [] := by
  have read := regRead_value t d win hi plain (calm_unplanted c)
  rw [if_pos lo] at read
  have k : Touched [] s.hub ((s.hub.latchHi r (normAddr a.toNat) (s.hub.value r (normAddr a.toNat))).respond r
      (s.hub.value r (normAddr a.toNat) % 2 ^ 32) St.OK) := (Touched.latchHi _ _ _ _).trans (Touched.respond _ _ _ _)
  refine answers_touched (exec_loReadLatch _ _ _) read k (by decide) c fun h x => ⟨?_, ?_, ?_, x.keeps⟩
  · rw [x.bus]; exact Hub.bus_respond _ _ _ _
  · rw [x.hi, ← Hub.hi_latchHi s.hub r (normAddr a.toNat), normAddr_normAddr, Hub.respond_hi]
  · rw [x.rest, x.hi]

theorem i3cEntdaa_gives_address (s : State) (addr : BitVec 7) (c : s.hub.calm = true) :
    Answers (.i3cEntdaa addr) s fun h =>
      h.rd F.TRAY_I3C_DYN_ADDR = addr.toNat ∧ h.rd F.TRAY_I3C_ADDR_VALID = 1 ∧ s.hub.rest h = s.hub ∧ s.hub.keeps h [R.TRAY_I3C] := by
  have k : Touched [R.TRAY_I3C] s.hub (s.hub.i3cEntdaa addr.toNat) := (Touched.wr _ _ (by decide)).trans (Touched.wr _ _ (by decide))
  refine answers_touched (exec_i3cEntdaa _ _) rfl k (by decide) c fun h x => ⟨?_, ?_, x.rest, x.keeps⟩
  · rw [x.rd _ (by decide), Hub.i3cEntdaa, Hub.rd_wr_apart _ _ _ _ (by decide) (by decide), Hub.rd_wr _ _ _ (by decide)]
    exact Nat.mod_eq_of_lt addr.isLt
  · rw [x.rd _ (by decide), Hub.i3cEntdaa, Hub.rd_wr _ _ _ (by decide)]
    rfl

/-- A transfer that fails its parity check, whichever command brings it: counted as an error, and nothing more (R466). -/
theorem i3cBad_answers {i : Instr} {s : State} (x : exec i s = run Hub.i3cBad s) (c : s.hub.calm = true) :
    Answers i s fun h =>
      h.hasErr Er.TRAY_I3C_PARITY = true ∧ h.pins.i3cPtr = s.hub.pins.i3cPtr ∧ s.hub.rest h = s.hub ∧
      s.hub.keeps h [R.PG_ERROR + Pg.TRAY * 0x1000, R.PG_ERROR_INFO + Pg.TRAY * 0x1000] := by
  have k : Touched [R.PG_ERROR + Pg.TRAY * 0x1000, R.PG_ERROR_INFO + Pg.TRAY * 0x1000] s.hub s.hub.i3cBad :=
    Touched.err _ (by decide) (by decide)
  refine answers_touched x rfl k (by decide) c fun h y => ⟨?_, y.i3cPtr, y.rest, y.keeps⟩
  rw [y.hasErr]; exact Hub.hasErr_err _ _ (by decide)

theorem i3cPrivateWrite_sets_pointer (s : State) (addr : BitVec 24) (c : s.hub.calm = true) :
    Answers (.i3cPrivateWrite addr none false) s fun h =>
      h.pins.i3cPtr = addr.toNat % 2 ^ 20 ∧ s.hub.rest h = s.hub ∧ s.hub.keeps h [] :=
  answers_touched (exec_i3cPrivateWrite_address _ _) rfl (Touched.setI3cPtr _ _) (by decide) c fun _ x => ⟨x.i3cPtr, x.rest, x.keeps⟩

theorem i3cPrivateRead_answers_register (s : State) (a : Nat) (c : s.hub.calm = true) (ptr : s.hub.pins.i3cPtr = a)
    (t : s.hub.accessStatus .i3c a false 0 = St.OK) (d : (regDef (normAddr a)).isSome = true) (win : inWindow (normAddr a) = false)
    (hi : isHi (normAddr a) = false)
    (plain : [R.TASTE_EVID_DATA, R.COOP_PROG_DATA, R.COOP_DATA_DATA, R.AUTH_DATA, R.TIME_GCN_LO].contains (baseAddr (normAddr a)) = false)
    (lo : isLo (normAddr a) = false) :
    Answers (.i3cPrivateRead false) s fun h =>
      h.bus.get (reqCode .i3c) {} = { value := s.hub.value .i3c (normAddr a) % 2 ^ 32, status := St.OK } ∧
      h.pins.i3cPtr = (a + 4) % 2 ^ 20 ∧ s.hub.rest h = s.hub ∧ s.hub.keeps h [] := by
  have read := regRead_value t d win hi plain (calm_unplanted c)
  rw [lo, if_neg Bool.false_ne_true] at read
  have k : Touched [] s.hub ((s.hub.respond .i3c (s.hub.value .i3c (normAddr a) % 2 ^ 32) St.OK).setI3cPtr ((a + 4) % 2 ^ 20)) :=
    (Touched.respond _ _ _ _).trans (Touched.setI3cPtr _ _)
  refine answers_touched (exec_i3cPrivateRead_good _) (by rw [ptr, read]) k (by decide) c fun h x => ⟨?_, x.i3cPtr, x.rest, x.keeps⟩
  rw [x.bus]; exact Hub.bus_respond _ _ _ _

/-- Settles O12: each clause is a command whose unit touches registers, bus, latches and pins alone, so its effect on a calm hub is the
unit's own. -/
theorem register_reads_and_writes_reach_their_register : Obligations.register_reads_and_writes_reach_their_register :=
  ⟨registerWrite_ctxRect_open, registerWrite_ctxRect_busy, registerWrite_reserved, loReadLatch_latches, i3cEntdaa_gives_address,
    fun _ _ _ c => i3cBad_answers (exec_i3cPrivateWrite_bad _ _ _) c, i3cPrivateWrite_sets_pointer, i3cPrivateRead_answers_register,
    fun _ c => i3cBad_answers (exec_i3cPrivateRead_bad _) c⟩

/-- Settles O1: `step` takes the command at the front of the queue. -/
theorem a_step_runs_the_command_in_front : Obligations.a_step_runs_the_command_in_front := fun _ _ _ => rfl

end Sys2Proof.Machine
end

section
/-! SUPPORT. The statements of the architecture's chapter: every step leaves nothing over, the occurrences of one edge leave by code, and
CANE_CMD_STATUS.DONE speaks of every cane. -/

namespace Sys2Proof.Machine

/-! ### Nothing left over -/

theorem State.clean_store {s : State} (c : s.clean = true) : s.hub.store.wf = true := by
  simp only [State.clean, Bool.and_eq_true] at c
  obtain ⟨⟨store, -⟩, -⟩ := c
  exact store

/-- A command whose operand must have a shape goes on only as a run, and that leaves the state clean. -/
theorem runIf_clean (ok : Bool) (f : Hub → Hub) (s t : State) (h : runIf ok f s = .next t) (c : s.hub.store.wf = true) : t.clean = true := by
  unfold runIf at h
  split at h
  · exact run_clean f s t h c
  · cases h

/-- Every command that goes on leaves a clean state: each is one run, the one of PWR_GOOD falling over emptied memories. -/
theorem exec_clean (i : Instr) (s t : State) (h : exec i s = .next t) (c : s.hub.store.wf = true) : t.clean = true := by
  unfold exec at h
  cases i with
  | powerGoodFall => exact run_clean Hub.powerFall s.withoutMemory t h rfl
  | flashHeaderRead | pcsCodewordRx | flitRx | initFlitRx | powerWindowEnd | memoryDelivery => exact runIf_clean _ _ s t h c
  | _ => exact run_clean _ s t h c

/-- A period leaves a clean state: a powered hub runs the period, the other one does nothing. -/
theorem tick_clean (s t : State) (h : s.tick = .next t) (c : s.clean = true) : t.clean = true := by
  unfold State.tick at h
  split at h
  · exact run_clean _ s t h (State.clean_store c)
  · cases h; exact c

/-- Settles O5: the command at the front runs over memories in canonical form, and an empty queue is one period. -/
theorem every_step_keeps_the_machine_clean : Obligations.every_step_keeps_the_machine_clean := by
  intro s t c h
  unfold step at h
  split at h
  case h_1 i rest _ => exact exec_clean i _ t h (State.clean_store c)
  case h_2 => exact tick_clean s t h c

/-! ### Occurrences by code -/

/-- A list of occurrences rises by code. -/
abbrev RisesByCode (l : List Occ) : Prop := l.Pairwise (fun x y => x.code ≤ y.code)

theorem insertOcc_perm (o : Occ) (l : List Occ) : (insertOcc o l).Perm (o :: l) := by
  induction l with
  | nil => exact .refl _
  | cons x rest ih =>
    unfold insertOcc
    split
    · exact .refl _
    · exact (ih.cons x).trans (.swap o x rest)

theorem RisesByCode.head_le {x : Occ} {rest : List Occ} (h : RisesByCode (x :: rest)) : ∀ y ∈ x :: rest, x.code ≤ y.code :=
  List.forall_mem_cons.mpr ⟨le_refl _, (List.pairwise_cons.mp h).1⟩

theorem insertOcc_rises (o : Occ) (l : List Occ) (h : RisesByCode l) : RisesByCode (insertOcc o l) := by
  induction l with
  | nil => exact List.pairwise_singleton ..
  | cons x rest ih =>
    obtain ⟨least, tail⟩ := List.pairwise_cons.mp h
    unfold insertOcc
    split
    · rename_i below
      exact List.pairwise_cons.mpr ⟨fun y m => below.le.trans (h.head_le y m), h⟩
    · rename_i above
      refine List.pairwise_cons.mpr ⟨fun y m => ?_, ih tail⟩
      rcases (mem_insertOcc y o rest).mp m with rfl | m
      · exact not_lt.mp above
      · exact least y m

/-- An occurrence is put behind those of its own code, and those of every other code keep their order. -/
theorem filter_insertOcc (o : Occ) (l : List Occ) (c : Nat) (h : RisesByCode l) :
    (insertOcc o l).filter (fun x => x.code == c) = l.filter (fun x => x.code == c) ++ [o].filter (fun x => x.code == c) := by
  induction l with
  | nil => rfl
  | cons x rest ih =>
    unfold insertOcc
    split
    · rename_i below
      by_cases e : o.code = c
      · have none : (x :: rest).filter (fun x => x.code == c) = [] := by
          refine List.filter_eq_nil_iff.mpr fun y m => ?_
          have := h.head_le y m
          simp only [beq_iff_eq]; omega
        rw [List.filter_cons, none]
        simp [e]
      · simp [e]
    · rw [List.filter_cons, List.filter_cons, ih (List.pairwise_cons.mp h).2]
      split <;> rfl

/-- Sorting puts the occurrences into a list that already rises, one by one. -/
theorem foldl_insertOcc (l acc : List Occ) (h : RisesByCode acc) :
    RisesByCode (l.foldl (fun l o => insertOcc o l) acc) ∧ (l.foldl (fun l o => insertOcc o l) acc).Perm (acc ++ l) ∧
    ∀ c, (l.foldl (fun l o => insertOcc o l) acc).filter (fun o => o.code == c) =
      acc.filter (fun o => o.code == c) ++ l.filter (fun o => o.code == c) := by
  induction l generalizing acc with
  | nil => simp [h]
  | cons o l ih =>
    obtain ⟨rises, perm, filters⟩ := ih (insertOcc o acc) (insertOcc_rises o acc h)
    refine ⟨rises, ?_, fun c => ?_⟩
    · exact perm.trans (((insertOcc_perm o acc).append_right l).trans List.perm_middle.symm)
    · rw [List.foldl_cons, filters, filter_insertOcc o acc c h, List.append_assoc, ← List.filter_append, List.singleton_append]

/-- Settles O9: the sort puts each occurrence behind those of its code, starting from the empty list. -/
theorem occurrences_leave_in_ascending_order_of_code : Obligations.occurrences_leave_in_ascending_order_of_code :=
  fun l => foldl_insertOcc l [] .nil

/-! ### DONE of the CANE page -/

/-- A released hub of 8 columns and 4 rows with cane 2 selected, while LOCATE runs on cane 5. -/
def locatingOnCane5 : State :=
  let h := ((State.reset.hub.setReg R.GLB_GRID 0x00040408).wr F.BOOT_STATUS_STEP 9).setReg R.CANE_SEL 2
  { State.reset with hub := { h with time := { h.time with powered := true } }.setCane 5 { locate := some 0 } }

/-- CLEAR_STATS of cane 2 leaves CANE_CMD_STATUS.DONE 0 there, for the LOCATE of cane 5 (R135). -/
theorem caneClearStats_shows_locate_of_other_cane (t : State) (x : exec (.caneClearStats .mgmt) locatingOnCane5 = .next t) :
    t.hub.rd F.CANE_CMD_STATUS_DONE = 0 := by
  cases x
  decide +kernel

/-- Refutes O33: CLEAR_STATS of the selected cane completes with DONE 0, and not 1, while LOCATE runs on another cane, for DONE is 0 as long
as LOCATE runs on any cane. -/
theorem not_canes_are_located_bypassed_cleared_and_turned : ¬ Obligations.canes_are_located_bypassed_cleared_and_turned := by
  intro h
  obtain ⟨-, -, -, -, -, clearStats, -, -⟩ := h
  have calm : locatingOnCane5.hub.calm = true := by decide +kernel
  have taken : locatingOnCane5.hub.takesWrite .mgmt R.CANE_CMD 3 = true := by decide +kernel
  have selected : locatingOnCane5.hub.rd F.CANE_SEL_CANE = 2 := by decide +kernel
  have passes : locatingOnCane5.hub.caneCheck 3 = St.OK := by decide +kernel
  obtain ⟨t, next, -, -, -, -, -, done, -, -⟩ := clearStats locatingOnCane5 .mgmt 2 calm taken selected passes
  rw [caneClearStats_shows_locate_of_other_cane t next] at done
  exact absurd done (by decide)

end Sys2Proof.Machine
end

section
/-! SUPPORT. The time base's own clock events: a divider restart makes no stall cycle in a domain that is past its stop. -/

namespace Sys2Proof.Machine

/-- A hub whose divider restart has come (R35), with a STOPPING domain in slot 3 whose stop period is past. -/
def restartPastStop : State :=
  on fun h => { h.setDom 3 { st := .stopping, held := true } with time := { h.time with restartAt := some 99990 } }

/-- The restart leaves a domain that executes no further edge without a stall edge (R56). -/
theorem dividerRestart_spares_held_domain (t : State) (x : exec .dividerRestart restartPastStop = .next t) :
    (t.hub.dom 3).clkStall = false := by
  cases x
  decide +kernel

/-- Refutes O22: a STOPPING domain whose stop period has come is among the running slots, and a divider restart makes no stall edge
due in it. -/
theorem not_the_time_base_follows_its_own_clock_events : ¬ Obligations.the_time_base_follows_its_own_clock_events := by
  intro h
  obtain ⟨restart, -⟩ := h
  have calm : restartPastStop.hub.calm = true := by decide +kernel
  have due : restartPastStop.hub.time.restartAt = some 99990 := by decide +kernel
  have reached : reachedGcn 99990 restartPastStop.hub.time.gcn = true := by decide +kernel
  have running : restartPastStop.hub.runningSlots.contains 3 = true := by decide +kernel
  obtain ⟨t, next, -, -, -, doms, -⟩ := restart restartPastStop 99990 calm due reached
  have stalls : (t.hub.dom 3).clkStall = true := by rw [doms, running]; rfl
  rw [dividerRestart_spares_held_domain t next] at stalls
  cases stalls

end Sys2Proof.Machine
end

section
/-! SUPPORT. What the units of the time base change on a calm hub: their registers, the time, the power windows, the trace of the tiles, the
grants, the tendrils and the scripts that wait. -/

namespace Sys2Proof.Machine

/-! ### Changes of the time base -/

/-- `h` comes from `s` by changing the registers of the keys, the bus, the time, the power windows, the tiles, the grants, the tendrils and the
coopers, and by raising occurrences, RELEASED not among them. -/
structure Timed (keys : List Nat) (s h : Hub) : Prop where
  core : { h with
    regs := s.regs, bus := s.bus, time := s.time, power := s.power, tiles := s.tiles, auth := s.auth, fed := s.fed, coops := s.coops
    occs := s.occs } = s
  regs : ∀ a b, regKey a b ∉ keys → h.regB a b = s.regB a b
  quiet : ∀ o ∈ h.occs, o ∈ s.occs ∨ o.code ≠ Ev.RELEASED
  kept : ∀ o ∈ s.occs, o ∈ h.occs

variable {keys : List Nat}

theorem Timed.trans {s t u : Hub} (h1 : Timed keys s t) (h2 : Timed keys t u) : Timed keys s u := by
  refine ⟨?_, fun a b n => (h2.regs a b n).trans (h1.regs a b n), fun o m => (h2.quiet o m).elim (h1.quiet o) .inr,
    fun o m => h2.kept o (h1.kept o m)⟩
  have e : ({ u with
        regs := s.regs, bus := s.bus, time := s.time, power := s.power, tiles := s.tiles, auth := s.auth, fed := s.fed, coops := s.coops
        occs := s.occs } : Hub) =
      { ({ u with
          regs := t.regs, bus := t.bus, time := t.time, power := t.power, tiles := t.tiles, auth := t.auth, fed := t.fed, coops := t.coops
          occs := t.occs } : Hub) with
        regs := s.regs, bus := s.bus, time := s.time, power := s.power, tiles := s.tiles, auth := s.auth, fed := s.fed, coops := s.coops
        occs := s.occs } := rfl
  rw [e, h2.core, h1.core]

/-- A change of the time, the power windows, the tiles, the grants, the tendrils, the coopers or the bus alone. -/
theorem Timed.of_core {s h : Hub} (core : { h with
      bus := s.bus, time := s.time, power := s.power, tiles := s.tiles, auth := s.auth, fed := s.fed, coops := s.coops } = s) :
    Timed keys s h := by
  have same {α : Type} (g : Hub → α) := congrArg g core
  have regs : h.regs = s.regs := same Hub.regs
  have occs : h.occs = s.occs := same Hub.occs
  refine ⟨?_, fun a b _ => by rw [Hub.regB, Hub.regB, regs], fun o m => .inl (occs ▸ m), fun o m => occs ▸ m⟩
  rw [← regs, ← occs]; exact core

theorem Timed.withTime (s : Hub) (time : TimeBase) : Timed keys s { s with time := time } := .of_core rfl

theorem Timed.refl (s : Hub) : Timed keys s s := .of_core rfl

theorem Timed.setReg (s : Hub) {a : Nat} (v : Nat) (k : a ∈ keys) : Timed keys s (s.setReg a v) := by
  refine ⟨rfl, fun a' b' n => Hub.regB_setRegB_ne s v fun e => n ?_, fun _ m => .inl m, fun _ m => m⟩
  rw [e]; simpa [regKey] using k

theorem Timed.wr (s : Hub) {f : Fld} (v : Nat) (k : f.addr ∈ keys) : Timed keys s (s.wr f v) := Timed.setReg s _ k

theorem Timed.err (s : Hub) {e : ErrBit} (k : (F.PG_ERROR_ERRORS.lane e.page).addr ∈ keys)
    (k' : (F.PG_ERROR_INFO_BIT.lane e.page).addr ∈ keys) : Timed keys s (s.err e) :=
  (Timed.wr s _ k).trans (Timed.wr _ _ k')

theorem Timed.raise (s : Hub) {c : Nat} (u : Option Nat) (n : c ≠ Ev.RELEASED) : Timed keys s (s.raise c u) := by
  refine ⟨rfl, fun _ _ _ => rfl, fun o m => ?_, fun o m => List.mem_append_left _ m⟩
  rcases List.mem_append.mp m with m | m
  · exact .inl m
  · rw [List.mem_singleton.mp m]; exact .inr n

theorem Timed.raiseOf (s : Hub) {c : Nat} (u : Nat) (n : c ≠ Ev.RELEASED) : Timed keys s (s.raiseOf c u) := .raise s _ n

theorem Timed.rd {s h : Hub} (t : Timed keys s h) (f : Fld) (n : f.addr ∉ keys) : h.rd f = s.rd f := by
  simp only [Hub.rd, Hub.rdB, t.regs f.addr 0 (by simpa [regKey] using n)]

/-- Nothing comes to wait where no register is touched that `calm` looks at. -/
theorem Timed.still {s h : Hub} (t : Timed keys s h) (k : ∀ a ∈ calmKeys, a ∉ keys) (c : s.still) : h.still := by
  have phase := t.rd F.HARV_STATUS_PHASE (k _ (by simp [calmKeys]))
  rw [← t.core] at c
  obtain ⟨reports, policies, peers, reqs, soft, ladder, drain, columns, close⟩ := c
  exact ⟨reports, policies, peers, reqs, soft, ladder, drain, columns, close.imp id phase.trans⟩

theorem Timed.untraced {s h : Hub} (t : Timed keys s h) (k : ∀ a ∈ calmKeys, a ∉ keys) (c : s.untraced) : h.untraced := by
  unfold Hub.untraced Hub.flag at *
  rwa [t.rd F.TRACE_STATE_RUNNING (k _ (by simp [calmKeys])), t.rd F.TRACE_TRIG_CTRL_HUBEV_EN (k _ (by simp [calmKeys]))]

/-! ### The command's whole effect -/

/-- What a calm hub `s` becomes by a command whose unit makes changes of the time base on the way to `h`: `t`. -/
structure TimeEffect (keys : List Nat) (s h t : Hub) : Prop where
  rest : s.rest t = { s with
    time := h.time, power := h.power, tiles := h.tiles, auth := h.auth, fed := h.fed, coops := (s.rest t).coops }
  coops : h.coops = s.coops → (s.rest t).coops = s.coops
  keeps : s.keeps t keys
  regs : ∀ a b, eventKey (regKey a b) = false → t.regB a b = h.regB a b
  shows : ∀ o ∈ h.occs, (∀ p i, eventBit o.code (o.unit.getD 0) = some (p, i) → i < 32) → t.shows o.code (o.unit.getD 0) = true

theorem TimeEffect.time {s h t : Hub} (x : TimeEffect keys s h t) : t.time = h.time := show (s.rest t).time = _ by rw [x.rest]

theorem TimeEffect.fed {s h t : Hub} (x : TimeEffect keys s h t) : t.fed = h.fed := show (s.rest t).fed = _ by rw [x.rest]

theorem TimeEffect.tend {s h t : Hub} (x : TimeEffect keys s h t) (u : Nat) : t.tend u = h.tend u := by rw [Hub.tend, x.fed, Hub.tend]

theorem TimeEffect.rd {s h t : Hub} (x : TimeEffect keys s h t) (f : Fld) (n : eventKey f.addr = false) : t.rd f = h.rd f := by
  simp only [Hub.rd, Hub.rdB, x.regs f.addr 0 (by simpa [regKey] using n)]

theorem TimeEffect.hasErr {s h t : Hub} (x : TimeEffect keys s h t) (e : ErrBit) : t.hasErr e = h.hasErr e := by
  rw [Hub.hasErr, x.rd _ (eventKey_errors _), Hub.hasErr]

/-- What a command leaves, seen from the hub `s` before its unit changed it. -/
theorem Timed.rest_ran {s h t : Hub} (k : Timed keys s h) (o : s.occs = []) (w : s.writes = []) (r : Ran false h s.store t) :
    s.rest t = { s with
      time := h.time, power := h.power, tiles := h.tiles, auth := h.auth, fed := h.fed, coops := (s.rest t).coops } := by
  have same {α : Type} (g : Hub → α) := congrArg g k.core
  have link : h.link = s.link := same Hub.link
  have store : h.store = s.store := same Hub.store
  have writes : h.writes = [] := (same Hub.writes).trans w
  calc s.rest t = { h.rest t with regs := s.regs, bus := s.bus, pins := s.pins, coops := (s.rest t).coops } := by
        simp only [Hub.rest, link]
    _ = { ({ h with
            regs := s.regs, bus := s.bus, time := s.time, power := s.power, tiles := s.tiles, auth := s.auth, fed := s.fed, coops := s.coops
            occs := s.occs } : Hub) with
          time := h.time, power := h.power, tiles := h.tiles, auth := h.auth, fed := h.fed, coops := (s.rest t).coops } := by
        have pins : h.pins = s.pins := same Hub.pins
        rw [r.rest]; simp only [writes, o, Store.writeAll, List.foldl_nil, store, pins]
    _ = _ := by rw [k.core]

/-- The whole effect of a command on a calm hub whose unit makes changes of the time base. -/
theorem run_timed (f : Hub → Hub) (s : State) (c : s.hub.calm = true) (k : Timed keys s.hub (f s.hub)) (n : ∀ a ∈ calmKeys, a ∉ keys) :
    ∃ t, run f s = .next { s with hub := t } ∧ t.bus = (f s.hub).bus ∧ TimeEffect keys s.hub (f s.hub) t := by
  obtain ⟨o, w⟩ := calm_nothing_left c
  obtain ⟨t, e, r⟩ := run_spec (rel := false) f s (k.still n (calm_still c)) (k.untraced n (calm_untraced c))
    fun _ x m => (k.quiet x m).resolve_left (by simp [o])
  have regs (a b : Nat) (q : eventKey (regKey a b) = false) := r.keeps a b q (by simp)
  refine ⟨t, e, r.bus, k.rest_ran o w r, fun same => ?_, fun a b q m => (regs a b q).trans (k.regs a b m), regs, r.shows⟩
  have told (d : Nat) : (t.coop d).told = (s.hub.coop d).told := by rw [r.told rfl d, Hub.coop, Hub.coop, same]
  simp only [Hub.rest, told, and_self, if_true]

/-- A command answers what its unit's effect on the time base shows. -/
theorem answers_timed {i : Instr} {s : State} {p : Hub → Prop} {f : Hub → Hub} {h : Hub} (x : exec i s = run f s) (e : f s.hub = h)
    (k : Timed keys s.hub h) (n : ∀ a ∈ calmKeys, a ∉ keys) (c : s.hub.calm = true) (q : ∀ t, TimeEffect keys s.hub h t → p t) :
    Answers i s p := by
  subst e
  obtain ⟨t, a, -, b⟩ := run_timed f s c k n
  exact ⟨_, x.trans a, rfl, q t b⟩

/-- An operation of TIME_CMD that the bus takes answers what its unit's effect shows, and the requester sees it carried out. -/
theorem answers_timeCmd {i : Instr} {s : State} {p : Hub → Prop} {r : Req} {op : Nat} {h : Hub}
    (x : exec i s = run (fun h => h.cmd r R.TIME_CMD op (fun h => h.timeCmd op)) s) (w : s.hub.takesWrite r R.TIME_CMD op = true)
    (e : s.hub.timeCmd op = h) (k : Timed keys s.hub h) (n : ∀ a ∈ calmKeys, a ∉ keys) (c : s.hub.calm = true)
    (q : ∀ t, t.tookWrite r → TimeEffect keys s.hub h t → p t) : Answers i s p := by
  subst e
  have inject : (s.hub.timeCmd op).rel.inject = none := (congrArg (fun h => h.rel.inject) k.core).trans (calm_unplanted c)
  have taken : s.hub.cmd r R.TIME_CMD op (fun h => h.timeCmd op) = (s.hub.timeCmd op).respond r 0 St.OK := cmd_taken w inject
  have k' : Timed keys s.hub ((s.hub.timeCmd op).respond r 0 St.OK) := k.trans (.of_core rfl)
  obtain ⟨t, a, bus, y⟩ := run_timed (fun h => h.cmd r R.TIME_CMD op (fun h => h.timeCmd op)) s c (by rw [taken]; exact k') n
  rw [taken] at bus y
  refine ⟨_, x.trans a, rfl, q t ?_ ⟨y.rest, y.coops, y.keeps, y.regs, y.shows⟩⟩
  rw [Hub.tookWrite, bus]; exact respond_took _ _

end Sys2Proof.Machine
end

section
/-! SUPPORT. The units of the time base: what each does to the registers, to GCN and to the tendrils. -/

namespace Sys2Proof.Machine

variable {keys : List Nat}

theorem Hub.rd_congr {s t : Hub} (e : s.regs = t.regs) (f : Fld) : s.rd f = t.rd f := by
  rw [Hub.rd, Hub.rdB, Hub.regB, e, Hub.rd, Hub.rdB, Hub.regB]

/-! ### SYNC frames -/

/-- SYNC frames sent on some tendrils change the tendrils alone. -/
theorem sendSyncs_fed_only (l : List Nat) (s : Hub) (kind origin : Nat) :
    ∃ fed, doEach l s (fun s t => s.sendSync t kind origin) = { s with fed := fed } :=
  doEach_keeps (fun h : Hub => ∃ fed, h = { s with fed := fed }) _ (by rintro _ _ ⟨_, rfl⟩; exact ⟨_, rfl⟩) l s ⟨s.fed, rfl⟩

theorem floodSync_fed_only (s : Hub) (e : Option Nat) (kind origin : Nat) : ∃ fed, s.floodSync e kind origin = { s with fed := fed } :=
  sendSyncs_fed_only _ s kind origin

theorem Timed.floodSync (s : Hub) (e : Option Nat) (kind origin : Nat) : Timed keys s (s.floodSync e kind origin) := by
  obtain ⟨_, x⟩ := floodSync_fed_only s e kind origin
  exact .of_core (by rw [x])

section
variable (s : Hub) (e : Option Nat) (kind origin : Nat)

@[simp] theorem Hub.floodSync_regs : (s.floodSync e kind origin).regs = s.regs := by
  obtain ⟨_, x⟩ := floodSync_fed_only s e kind origin; rw [x]

@[simp] theorem Hub.floodSync_time : (s.floodSync e kind origin).time = s.time := by
  obtain ⟨_, x⟩ := floodSync_fed_only s e kind origin; rw [x]

@[simp] theorem Hub.floodSync_power : (s.floodSync e kind origin).power = s.power := by
  obtain ⟨_, x⟩ := floodSync_fed_only s e kind origin; rw [x]

@[simp] theorem Hub.floodSync_tiles : (s.floodSync e kind origin).tiles = s.tiles := by
  obtain ⟨_, x⟩ := floodSync_fed_only s e kind origin; rw [x]

@[simp] theorem Hub.floodSync_auth : (s.floodSync e kind origin).auth = s.auth := by
  obtain ⟨_, x⟩ := floodSync_fed_only s e kind origin; rw [x]

@[simp] theorem Hub.floodSync_coops : (s.floodSync e kind origin).coops = s.coops := by
  obtain ⟨_, x⟩ := floodSync_fed_only s e kind origin; rw [x]

@[simp] theorem Hub.floodSync_occs : (s.floodSync e kind origin).occs = s.occs := by
  obtain ⟨_, x⟩ := floodSync_fed_only s e kind origin; rw [x]

@[simp] theorem Hub.rd_floodSync (f : Fld) : (s.floodSync e kind origin).rd f = s.rd f := Hub.rd_congr (by simp) f

end

theorem Hub.tend_setTend (s : Hub) (t u : Nat) (x : Tendril) : (s.setTend t x).tend u = if u = t then x else s.tend u := Tab.get_set _ _ _ _ _

/-- A frame a transmitter holds stays there when another one is handed over. -/
theorem mem_txQ_emit {s : Hub} {u : Nat} {f : List Byte} (t : Nat) (g : List Byte) (m : f ∈ (s.tend u).txQ) :
    f ∈ ((s.emit t g).tend u).txQ := by
  rw [Hub.emit, Hub.tend_setTend]
  split
  · next e => subst e; exact List.mem_append_left _ m
  · exact m

/-- The frame handed to a transmitter is there. -/
theorem mem_txQ_emit_same (s : Hub) (t : Nat) (f : List Byte) : f ∈ ((s.emit t f).tend t).txQ := by
  rw [Hub.emit, Hub.tend_setTend, if_pos rfl]
  exact List.mem_append_right _ (List.mem_singleton_self f)

/-- The SYNC frame of a kind and an origin, with the GCN and the epoch of this edge (R318). -/
def Hub.syncFrame (s : Hub) (kind origin : Nat) : List Byte := frame Ft.SYNC kind 0 (le 8 s.time.gcn ++ le 4 s.epoch ++ le 2 origin)

/-- A flood of SYNC frames reaches every UP tendril but the one excepted (R44, R49). -/
theorem mem_txQ_floodSync {s : Hub} {e : Option Nat} (kind origin : Nat) {u : Nat} (up : u ∈ s.upTendrils) (other : e ≠ some u) :
    s.syncFrame kind origin ∈ ((s.floodSync e kind origin).tend u).txQ := by
  have m : u ∈ s.upTendrils.filter (fun t => some t != e) := List.mem_filter.mpr ⟨up, by simpa using Ne.symm other⟩
  obtain ⟨before, after, split⟩ := List.append_of_mem m
  obtain ⟨fed, x⟩ := sendSyncs_fed_only before s kind origin
  have sent : s.syncFrame kind origin ∈ (((doEach before s (fun s t => s.sendSync t kind origin)).sendSync u kind origin).tend u).txQ := by
    rw [x]; exact mem_txQ_emit_same _ u _
  have whole : s.floodSync e kind origin =
      doEach after ((doEach before s (fun s t => s.sendSync t kind origin)).sendSync u kind origin) (fun s t => s.sendSync t kind origin) := by
    rw [Hub.floodSync, split, doEach, List.foldl_append]; rfl
  rw [whole]
  exact doEach_keeps (fun h : Hub => s.syncFrame kind origin ∈ (h.tend u).txQ) _ (fun _ _ m => mem_txQ_emit _ _ m) after _ sent

theorem upTendrils_congr {s t : Hub} (e : s.fed.tend = t.fed.tend) : s.upTendrils = t.upTendrils := by
  simp only [Hub.upTendrils, Hub.tend, e]

/-! ### GCN is loaded (R35, R47) -/

/-- The registers that a load of GCN writes. -/
def gcnKeys : List Nat := [R.TIME_EPOCH, R.TIME_STATE, R.TIME_ORIGIN_W, R.TIME_ORIGIN_E]

theorem setOrigin_part (s : Hub) (part : Nat) (g : Int) :
    ∃ f v, s.setOrigin part g = s.wr f v ∧ (f = F.TIME_ORIGIN_W_G0 ∨ f = F.TIME_ORIGIN_E_G0) := by
  unfold Hub.setOrigin
  dsimp only
  split
  · exact ⟨_, _, rfl, .inl rfl⟩
  · exact ⟨_, _, rfl, .inr rfl⟩

theorem Timed.setOrigin (s : Hub) (part : Nat) (g : Int) (k : gcnKeys ⊆ keys) : Timed keys s (s.setOrigin part g) := by
  obtain ⟨f, v, e, rfl | rfl⟩ := setOrigin_part s part g <;> rw [e]
  · exact Timed.wr _ _ (k (by decide))
  · exact Timed.wr _ _ (k (by decide))

/-- GCN is loaded (R35, R47): both origins, the time with GCN and the power window, then the registers of the epoch. -/
theorem loadGcn_writes (s : Hub) (value epoch : Nat) :
    ∃ g time power, s.loadGcn value epoch =
        ((({ (s.setOrigin 0 (s.origin 0 + g)).setOrigin 1 ((s.setOrigin 0 (s.origin 0 + g)).origin 1 + g) with
              time := time, power := power } : Hub).wr F.TIME_EPOCH_EPOCH epoch).wr
          F.TIME_STATE_STATE (if s.time.armedAt.isSome then 2 else 1)).wr F.TIME_STATE_PKG_OK 1 ∧
      time.gcn = value % 2 ^ 64 ∧ time.armedAt = s.time.armedAt ∧ time.hclk = s.time.hclk := by
  refine ⟨((value % 2 ^ 64 : Nat) : Int) - s.now, ?_⟩
  unfold Hub.loadGcn
  dsimp only
  split
  · exact ⟨_, s.power, rfl, rfl, rfl, rfl⟩
  · exact ⟨_, _, rfl, rfl, rfl, rfl⟩

theorem Timed.loadGcn (s : Hub) (value epoch : Nat) (k : gcnKeys ⊆ keys) : Timed keys s (s.loadGcn value epoch) := by
  obtain ⟨g, time, power, e, -⟩ := loadGcn_writes s value epoch
  have state : R.TIME_STATE ∈ keys := k (by decide)
  have origins := (Timed.setOrigin s 0 (s.origin 0 + g) k).trans (Timed.setOrigin _ 1 ((s.setOrigin 0 (s.origin 0 + g)).origin 1 + g) k)
  rw [e]
  exact (((origins.trans (.of_core rfl)).trans (.wr _ _ (k (by decide)))).trans (.wr _ _ state)).trans (.wr _ _ state)

section
variable (s : Hub) (value epoch : Nat)

@[simp] theorem loadGcn_gcn : (s.loadGcn value epoch).time.gcn = value % 2 ^ 64 := by
  obtain ⟨g, time, power, e, gcn, -⟩ := loadGcn_writes s value epoch
  rw [e]; exact gcn

@[simp] theorem loadGcn_armedAt : (s.loadGcn value epoch).time.armedAt = s.time.armedAt := by
  obtain ⟨g, time, power, e, -, armed, -⟩ := loadGcn_writes s value epoch
  rw [e]; exact armed

@[simp] theorem loadGcn_hclk : (s.loadGcn value epoch).time.hclk = s.time.hclk := by
  obtain ⟨g, time, power, e, -, -, hclk⟩ := loadGcn_writes s value epoch
  rw [e]; exact hclk

@[simp] theorem loadGcn_epoch : (s.loadGcn value epoch).epoch = epoch % 2 ^ 32 := by
  obtain ⟨g, time, power, e, -⟩ := loadGcn_writes s value epoch
  rw [e, Hub.epoch, Hub.rd_wr_apart _ _ _ _ (by decide) (by decide), Hub.rd_wr_apart _ _ _ _ (by decide) (by decide),
    Hub.rd_wr _ _ _ (by decide)]
  rfl

@[simp] theorem loadGcn_state : (s.loadGcn value epoch).rd F.TIME_STATE_STATE = if s.time.armedAt.isSome then 2 else 1 := by
  obtain ⟨g, time, power, e, -⟩ := loadGcn_writes s value epoch
  rw [e, Hub.rd_wr_apart _ _ _ _ (by decide) (by decide), Hub.rd_wr _ _ _ (by decide)]
  split <;> rfl

/-- A load of GCN leaves the tiles, the grants, the tendrils, the coopers and the occurrences alone. -/
theorem loadGcn_rest : (s.loadGcn value epoch).tiles = s.tiles ∧ (s.loadGcn value epoch).auth = s.auth ∧
    (s.loadGcn value epoch).fed = s.fed ∧ (s.loadGcn value epoch).coops = s.coops := by
  obtain ⟨g, time, power, e, -⟩ := loadGcn_writes s value epoch
  obtain ⟨f, v, w, -⟩ := setOrigin_part s 0 (s.origin 0 + g)
  obtain ⟨f', v', w', -⟩ := setOrigin_part (s.setOrigin 0 (s.origin 0 + g)) 1 ((s.setOrigin 0 (s.origin 0 + g)).origin 1 + g)
  rw [e, w', w]
  exact ⟨rfl, rfl, rfl, rfl⟩

end

/-! ### Establishment and joins (R44, R46, R47) -/

/-- The end of the grants with an absolute expiry, while no trace runs: the grants, and their GRANT_END. -/
theorem endAbsGrants_parts {s : Hub} (u : s.untraced) :
    ∃ auth occs, s.endAbsGrants = { s with auth := auth, occs := s.occs ++ occs } ∧ ∀ o ∈ occs, o.code = Ev.GRANT_END := by
  have ended (l : List Nat) : ∃ auth occs, doEach l s Hub.endGrant = { s with auth := auth, occs := s.occs ++ occs } ∧
      ∀ o ∈ occs, o.code = Ev.GRANT_END := by
    refine doEach_keeps (fun h : Hub => ∃ auth occs, h = { s with auth := auth, occs := s.occs ++ occs } ∧
      ∀ o ∈ occs, o.code = Ev.GRANT_END) _ ?_ l s ⟨s.auth, [], by simp, by simp⟩
    rintro _ g ⟨auth, occs, rfl, codes⟩
    refine ⟨_, occs ++ [_], by rw [← List.append_assoc]; rfl, fun o m => ?_⟩
    rcases List.mem_append.mp m with m | m
    · exact codes o m
    · rw [List.mem_singleton.mp m]
  obtain ⟨auth, occs, e, codes⟩ := ended ((s.auth.grants.cells.filter (fun p => p.2.valid && p.2.abs)).map Prod.fst)
  refine ⟨auth, occs, ?_, codes⟩
  have running : Hub.flag { s with auth := auth, occs := s.occs ++ occs } F.TRACE_STATE_RUNNING = false := u.1
  rw [Hub.endAbsGrants, e, Hub.traceGrants, running]
  rfl

/-- What establishments and joins do once GCN is loaded (R47): the tiles resynchronise and grants end. -/
theorem resync_endAbsGrants_parts {g : Hub} (u : g.untraced) :
    ∃ tiles auth occs, (g.traceResync 5).endAbsGrants = { g with tiles := tiles, auth := auth, occs := g.occs ++ occs } ∧
      ∀ o ∈ occs, o.code = Ev.GRANT_END := by
  obtain ⟨auth, occs, e, codes⟩ := endAbsGrants_parts (s := g.traceResync 5) u
  exact ⟨_, auth, occs, e, codes⟩

theorem Timed.resync_endAbsGrants {g : Hub} (u : g.untraced) : Timed keys g (g.traceResync 5).endAbsGrants := by
  obtain ⟨tiles, auth, occs, e, codes⟩ := resync_endAbsGrants_parts u
  rw [e]
  refine ⟨rfl, fun _ _ _ => rfl, fun o m => (List.mem_append.mp m).imp id fun m => ?_, fun o m => List.mem_append_left _ m⟩
  rw [codes o m]; decide

/-- An establishment once GCN is loaded (R44, R46). -/
def Hub.established (g : Hub) (epoch : Nat) : Hub :=
  let g := (g.traceResync 5).endAbsGrants
  ({ g with fed := { g.fed with joining := false } }).raiseOf Ev.TIME_ESTABLISHED (epoch % 65536)

/-- A join once GCN is loaded (R47, R326). -/
def Hub.joined (g : Hub) (how : Nat) : Hub :=
  let g := ((g.traceResync 5).endAbsGrants).joinWaits
  (({ g with fed := { g.fed with joining := false } } : Hub).wr F.FED_SELF_JOINED 1).raiseOf Ev.TIME_JOINED how

theorem enterEpoch_eq (s : Hub) (value epoch : Nat) : s.enterEpoch value epoch = (s.loadGcn value epoch).established epoch := rfl

theorem joinEpoch_eq (s : Hub) (value epoch how : Nat) : s.joinEpoch value epoch how = (s.loadGcn value epoch).joined how := rfl

section
variable {g : Hub} (u : g.untraced) (epoch how : Nat)
include u

theorem Timed.established : Timed keys g (g.established epoch) := by
  unfold Hub.established
  dsimp only
  refine (Timed.resync_endAbsGrants u).trans (Timed.trans ?_ (Timed.raiseOf _ _ (by decide)))
  exact .of_core rfl

theorem Timed.joined (k : R.FED_SELF ∈ keys) : Timed keys g (g.joined how) := by
  unfold Hub.joined Hub.joinWaits
  dsimp only
  refine (Timed.resync_endAbsGrants u).trans (Timed.trans (Timed.trans ?_ (.wr _ _ k)) (Timed.raiseOf _ _ (by decide)))
  exact .of_core rfl

/-- What an establishment leaves as loading GCN left it, and that it ends a wait to join. -/
theorem established_rest : (g.established epoch).regs = g.regs ∧ (g.established epoch).time = g.time ∧
    (g.established epoch).coops = g.coops ∧ (g.established epoch).fed = { g.fed with joining := false } := by
  obtain ⟨tiles, auth, occs, e, -⟩ := resync_endAbsGrants_parts u
  simp only [Hub.established, e]
  exact ⟨rfl, rfl, rfl, rfl⟩

theorem joined_rest : (g.joined how).epoch = g.epoch ∧ (g.joined how).time = g.time ∧
    (g.joined how).fed = { g.fed with joining := false } := by
  obtain ⟨tiles, auth, occs, e, -⟩ := resync_endAbsGrants_parts u
  refine ⟨(Timed.joined (keys := [R.FED_SELF]) u how (by simp)).rd _ (by decide), ?_⟩
  simp only [Hub.joined, e]
  exact ⟨rfl, rfl⟩

end

/-- A join shows in FED_SELF (R326). -/
theorem joined_shown (g : Hub) (how : Nat) : (g.joined how).rd F.FED_SELF_JOINED = 1 := Hub.rd_wr _ _ _ (by decide)

theorem established_raises (g : Hub) (epoch : Nat) : ∃ o ∈ (g.established epoch).occs, o.code = Ev.TIME_ESTABLISHED :=
  ⟨_, List.mem_append_right _ (List.mem_singleton_self _), rfl⟩

theorem joined_raises (g : Hub) (how : Nat) : ∃ o ∈ (g.joined how).occs, o.code = Ev.TIME_JOINED :=
  ⟨_, List.mem_append_right _ (List.mem_singleton_self _), rfl⟩

theorem loadGcn_untraced {s : Hub} (u : s.untraced) (value epoch : Nat) : (s.loadGcn value epoch).untraced :=
  (Timed.loadGcn (keys := gcnKeys) s value epoch (List.Subset.refl _)).untraced (by decide) u

theorem Timed.enterEpoch {s : Hub} (u : s.untraced) (value epoch : Nat) (k : gcnKeys ⊆ keys) : Timed keys s (s.enterEpoch value epoch) :=
  (Timed.loadGcn s value epoch k).trans (enterEpoch_eq s value epoch ▸ Timed.established (loadGcn_untraced u value epoch) epoch)

/-! ### The command's status (R58) -/

theorem Timed.timeStatus (s : Hub) (op st : Nat) (done : Bool) (k : R.TIME_CMD_STATUS ∈ keys) : Timed keys s (s.timeStatus op st done) :=
  ((Timed.wr _ _ k).trans (Timed.wr _ _ k)).trans (Timed.wr _ _ k)

section
variable (s : Hub) (op st : Nat) (done : Bool)

@[simp] theorem Hub.timeStatus_time : (s.timeStatus op st done).time = s.time := rfl
@[simp] theorem Hub.timeStatus_power : (s.timeStatus op st done).power = s.power := rfl
@[simp] theorem Hub.timeStatus_tiles : (s.timeStatus op st done).tiles = s.tiles := rfl
@[simp] theorem Hub.timeStatus_auth : (s.timeStatus op st done).auth = s.auth := rfl
@[simp] theorem Hub.timeStatus_fed : (s.timeStatus op st done).fed = s.fed := rfl
@[simp] theorem Hub.timeStatus_coops : (s.timeStatus op st done).coops = s.coops := rfl
@[simp] theorem Hub.timeStatus_occs : (s.timeStatus op st done).occs = s.occs := rfl
@[simp] theorem Hub.tend_timeStatus (u : Nat) : (s.timeStatus op st done).tend u = s.tend u := rfl

theorem timeStatus_status (n : st < 2 ^ 8) : (s.timeStatus op st done).rd F.TIME_CMD_STATUS_STATUS = st := by
  rw [Hub.timeStatus, Hub.rd_wr_apart _ _ _ _ (by decide) (by decide), Hub.rd_wr_apart _ _ _ _ (by decide) (by decide),
    Hub.rd_wr _ _ _ (by decide)]
  exact Nat.mod_eq_of_lt n

theorem timeStatus_op (n : op < 2 ^ 4) : (s.timeStatus op st done).rd F.TIME_CMD_STATUS_OP = op := by
  rw [Hub.timeStatus, Hub.rd_wr_apart _ _ _ _ (by decide) (by decide), Hub.rd_wr _ _ _ (by decide)]
  exact Nat.mod_eq_of_lt n

theorem timeStatus_done : (s.timeStatus op st done).rd F.TIME_CMD_STATUS_DONE = b2n (done && s.time.armedAt.isNone) := by
  rw [Hub.timeStatus, Hub.rd_wr _ _ _ (by decide)]
  exact Nat.mod_eq_of_lt (by unfold b2n; split <;> decide)

theorem rd_timeStatus (f : Fld) (n : f.addr ≠ R.TIME_CMD_STATUS) : (s.timeStatus op st done).rd f = s.rd f :=
  (Timed.timeStatus (keys := [R.TIME_CMD_STATUS]) s op st done (by simp)).rd f (by simpa using n)

end

end Sys2Proof.Machine
end

section
/-! SUPPORT. TIME_CMD (R44, R46, R49, R51, R55, R56, R60): what each operation answers on a calm hub. -/

namespace Sys2Proof.Machine

variable {keys : List Nat}

/-! ### What is left of the hub -/

/-- Whatever the unit makes of the waiting scripts. -/
theorem TimeEffect.rest_eq_coops {s h t : Hub} (x : TimeEffect keys s h t) :
    s.rest t = { s with
      time := t.time, power := t.power, tiles := t.tiles, auth := t.auth, fed := t.fed, coops := (s.rest t).coops } := by
  have power : t.power = h.power := show (s.rest t).power = _ by rw [x.rest]
  have tiles : t.tiles = h.tiles := show (s.rest t).tiles = _ by rw [x.rest]
  have auth : t.auth = h.auth := show (s.rest t).auth = _ by rw [x.rest]
  rw [x.time, power, tiles, auth, x.fed]
  exact x.rest

theorem TimeEffect.rest_eq {s h t : Hub} (x : TimeEffect keys s h t) (coops : h.coops = s.coops) :
    s.rest t = { s with time := t.time, power := t.power, tiles := t.tiles, auth := t.auth, fed := t.fed } := by
  rw [x.rest_eq_coops, x.coops coops]

/-- A unit that changes registers, the time and the tendrils alone. -/
theorem TimeEffect.rest_eq_time_fed {s h t : Hub} (x : TimeEffect keys s h t)
    (same : h.power = s.power ∧ h.tiles = s.tiles ∧ h.auth = s.auth ∧ h.coops = s.coops) :
    s.rest t = { s with time := t.time, fed := t.fed } := by
  obtain ⟨power, tiles, auth, coops⟩ := same
  rw [x.rest, x.coops coops, x.time, power, tiles, auth, x.fed]

/-- A unit that changes registers, the time, the power windows and the tendrils alone. -/
theorem TimeEffect.rest_eq_time_power_fed {s h t : Hub} (x : TimeEffect keys s h t) (tiles : h.tiles = s.tiles) (auth : h.auth = s.auth)
    (coops : h.coops = s.coops) : s.rest t = { s with time := t.time, power := t.power, fed := t.fed } := by
  have same : t.tiles = s.tiles ∧ t.auth = s.auth :=
    ⟨show (s.rest t).tiles = _ by rw [x.rest, tiles], show (s.rest t).auth = _ by rw [x.rest, auth]⟩
  rw [x.rest_eq coops, same.1, same.2]

/-- A unit that changes registers and the tendrils alone. -/
theorem TimeEffect.rest_eq_fed {s h t : Hub} (x : TimeEffect keys s h t) (time : h.time = s.time)
    (same : h.power = s.power ∧ h.tiles = s.tiles ∧ h.auth = s.auth ∧ h.coops = s.coops) : s.rest t = { s with fed := t.fed } := by
  rw [x.rest_eq_time_fed same, x.time, time]

/-- A unit that changes registers and the time alone. -/
theorem TimeEffect.rest_eq_time {s h t : Hub} (x : TimeEffect keys s h t) (fed : h.fed = s.fed)
    (same : h.power = s.power ∧ h.tiles = s.tiles ∧ h.auth = s.auth ∧ h.coops = s.coops) : s.rest t = { s with time := t.time } := by
  rw [x.rest_eq_time_fed same, x.fed, fed]

/-- A unit that changes registers alone. -/
theorem TimeEffect.rest_eq_self {s h t : Hub} (x : TimeEffect keys s h t) (time : h.time = s.time) (fed : h.fed = s.fed)
    (same : h.power = s.power ∧ h.tiles = s.tiles ∧ h.auth = s.auth ∧ h.coops = s.coops) : s.rest t = s := by
  rw [x.rest_eq_time fed same, x.time, time]

/-- An event of the time base is seen in PG_EVENT of the FED page, whatever its unit. -/
theorem TimeEffect.shows_code {s h t : Hub} (x : TimeEffect keys s h t) {code unit : Nat} (m : ∃ o ∈ h.occs, o.code = code)
    (bit : ∀ u p i, eventBit code u = some (p, i) → i < 32) (any : ∀ u, eventBit code u = eventBit code unit) : t.shows code unit = true := by
  obtain ⟨o, m, rfl⟩ := m
  have shown := x.shows o m (bit _)
  unfold Hub.shows at *
  rwa [any] at shown

theorem Answers.mono {i : Instr} {s : State} {p q : Hub → Prop} (a : Answers i s p) (h : ∀ t, p t → q t) : Answers i s q := by
  obtain ⟨t, e, pending, pt⟩ := a
  exact ⟨t, e, pending, h _ pt⟩

/-! ### ESTABLISH and REEPOCH (R44, R46) -/

theorem Timed.establish {s : Hub} (u : s.untraced) (epoch : Nat) (k : gcnKeys ⊆ keys) : Timed keys s (s.establish epoch) :=
  (Timed.enterEpoch u 0 epoch k).trans (Timed.floodSync _ _ _ _)

/-- ESTABLISH leaves the registers, the time and the coopers as loading GCN 0 left them. -/
theorem establish_rest {s : Hub} (u : s.untraced) (epoch : Nat) :
    (s.establish epoch).regs = (s.loadGcn 0 epoch).regs ∧ (s.establish epoch).time = (s.loadGcn 0 epoch).time ∧
    (s.establish epoch).coops = s.coops := by
  obtain ⟨regs, time, coops, -⟩ := established_rest (loadGcn_untraced u 0 epoch) epoch
  obtain ⟨-, -, -, same⟩ := loadGcn_rest s 0 epoch
  simp only [Hub.establish, Hub.floodSync_regs, Hub.floodSync_time, Hub.floodSync_coops, enterEpoch_eq, regs, time, coops, same, and_self]

theorem establish_raises (s : Hub) (epoch : Nat) : ∃ o ∈ (s.establish epoch).occs, o.code = Ev.TIME_ESTABLISHED := by
  simp only [Hub.establish, Hub.floodSync_occs, enterEpoch_eq]
  exact established_raises _ _

/-- An operation that establishes GCN 0 under an epoch. -/
theorem establish_answers {i : Instr} {s : State} {r : Req} {op epoch : Nat}
    (x : exec i s = run (fun h => h.cmd r R.TIME_CMD op (fun h => h.timeCmd op)) s) (c : s.hub.calm = true)
    (w : s.hub.takesWrite r R.TIME_CMD op = true) (e : s.hub.timeCmd op = (s.hub.establish epoch).timeStatus op St.OK true)
    (small : epoch < 2 ^ 32) (named : op < 2 ^ 4) :
    Answers i s fun h =>
      h.tookWrite r ∧ h.rd F.TIME_CMD_STATUS_STATUS = St.OK ∧ h.rd F.TIME_CMD_STATUS_OP = op ∧
      h.rd F.TIME_CMD_STATUS_DONE = b2n s.hub.time.armedAt.isNone ∧ h.time.gcn = 0 ∧ h.epoch = epoch ∧
      h.rd F.TIME_STATE_STATE = (if s.hub.time.armedAt.isSome then 2 else 1) ∧ h.shows Ev.TIME_ESTABLISHED 0 = true ∧
      s.hub.rest h = { s.hub with time := h.time, power := h.power, tiles := h.tiles, auth := h.auth, fed := h.fed } ∧
      s.hub.keeps h [R.TIME_EPOCH, R.TIME_STATE, R.TIME_ORIGIN_W, R.TIME_ORIGIN_E, R.TIME_CMD_STATUS] := by
  have u := calm_untraced c
  have k := (Timed.establish (keys := [R.TIME_EPOCH, R.TIME_STATE, R.TIME_ORIGIN_W, R.TIME_ORIGIN_E, R.TIME_CMD_STATUS]) u epoch
    (by decide)).trans (Timed.timeStatus _ op St.OK true (by decide))
  obtain ⟨regs, time, coops⟩ := establish_rest u epoch
  have read (f : Fld) (n : f.addr ≠ R.TIME_CMD_STATUS) :
      ((s.hub.establish epoch).timeStatus op St.OK true).rd f = (s.hub.loadGcn 0 epoch).rd f :=
    (rd_timeStatus _ _ _ _ f n).trans (Hub.rd_congr regs f)
  refine answers_timeCmd x w e k (by decide) c fun t took y => ⟨took, ?_, ?_, ?_, ?_, ?_, ?_, ?_, ?_, y.keeps⟩
  · rw [y.rd _ (by decide), timeStatus_status _ _ _ _ (by decide)]
  · rw [y.rd _ (by decide), timeStatus_op _ _ _ _ named]
  · rw [y.rd _ (by decide), timeStatus_done, time, loadGcn_armedAt, Bool.true_and]
  · rw [y.time, Hub.timeStatus_time, time, loadGcn_gcn, Nat.zero_mod]
  · rw [Hub.epoch, y.rd _ (by decide), read _ (by decide), ← Hub.epoch, loadGcn_epoch, Nat.mod_eq_of_lt small]
  · rw [y.rd _ (by decide), read _ (by decide), loadGcn_state]
  · exact y.shows_code (by rw [Hub.timeStatus_occs]; exact establish_raises s.hub epoch) (fun _ _ _ e => by cases e; decide) fun _ => rfl
  · exact y.rest_eq (by rw [Hub.timeStatus_coops, coops])

theorem establish_clause (s : State) (r : Req) (c : s.hub.calm = true) (w : s.hub.takesWrite r R.TIME_CMD 1 = true)
    (ok : s.hub.timeCheck 1 = St.OK) :
    Answers (.establish r) s fun h =>
      h.tookWrite r ∧ h.rd F.TIME_CMD_STATUS_STATUS = St.OK ∧ h.rd F.TIME_CMD_STATUS_OP = 1 ∧
      h.rd F.TIME_CMD_STATUS_DONE = b2n s.hub.time.armedAt.isNone ∧ h.time.gcn = 0 ∧
      h.epoch = (if s.hub.rd F.TIME_ARG_EPOCH_EPOCH = 0 then 1 else s.hub.rd F.TIME_ARG_EPOCH_EPOCH) ∧
      h.rd F.TIME_STATE_STATE = (if s.hub.time.armedAt.isSome then 2 else 1) ∧ h.shows Ev.TIME_ESTABLISHED 0 = true ∧
      s.hub.rest h = { s.hub with time := h.time, power := h.power, tiles := h.tiles, auth := h.auth, fed := h.fed } ∧
      s.hub.keeps h [R.TIME_EPOCH, R.TIME_STATE, R.TIME_ORIGIN_W, R.TIME_ORIGIN_E, R.TIME_CMD_STATUS] := by
  have given : s.hub.rd F.TIME_ARG_EPOCH_EPOCH < 2 ^ 32 := bitsOf_lt _ _ _
  refine establish_answers rfl c w ?_ ?_ (by decide)
  · simp only [Hub.timeCmd, Hub.timeEstablish, ok, beq_self_eq_true, if_true, beq_iff_eq]
  · split <;> omega

theorem reepoch_clause (s : State) (r : Req) (c : s.hub.calm = true) (w : s.hub.takesWrite r R.TIME_CMD 2 = true)
    (ok : s.hub.timeCheck 2 = St.OK) :
    Answers (.reepoch r) s fun h =>
      h.tookWrite r ∧ h.rd F.TIME_CMD_STATUS_STATUS = St.OK ∧ h.rd F.TIME_CMD_STATUS_OP = 2 ∧
      h.rd F.TIME_CMD_STATUS_DONE = b2n s.hub.time.armedAt.isNone ∧ h.time.gcn = 0 ∧
      h.epoch = (if s.hub.rd F.TIME_ARG_EPOCH_EPOCH = 0 then (if s.hub.epoch = 0xFFFFFFFF then 1 else s.hub.epoch + 1)
        else s.hub.rd F.TIME_ARG_EPOCH_EPOCH) ∧
      h.shows Ev.TIME_ESTABLISHED 0 = true ∧
      s.hub.rest h = { s.hub with time := h.time, power := h.power, tiles := h.tiles, auth := h.auth, fed := h.fed } ∧
      s.hub.keeps h [R.TIME_EPOCH, R.TIME_STATE, R.TIME_ORIGIN_W, R.TIME_ORIGIN_E, R.TIME_CMD_STATUS] := by
  have given : s.hub.rd F.TIME_ARG_EPOCH_EPOCH < 2 ^ 32 := bitsOf_lt _ _ _
  have present : s.hub.epoch < 2 ^ 32 := bitsOf_lt _ _ _
  refine (establish_answers rfl c w ?_ ?_ (by decide)).mono
    fun h ⟨took, status, op, done, gcn, epoch, _, shown, rest, keeps⟩ => ⟨took, status, op, done, gcn, epoch, shown, rest, keeps⟩
  · simp only [Hub.timeCmd, Hub.timeReepoch, ok, beq_self_eq_true, if_true, beq_iff_eq]
  · split
    · split <;> omega
    · exact given

/-! ### RESYNC and ARM_TBS (R49, R51) -/

theorem timeResync_clause (s : State) (r : Req) (c : s.hub.calm = true) (w : s.hub.takesWrite r R.TIME_CMD 3 = true)
    (ok : s.hub.timeCheck 3 = St.OK) :
    Answers (.timeResync r) s fun h =>
      h.tookWrite r ∧ h.rd F.TIME_CMD_STATUS_STATUS = St.OK ∧ h.rd F.TIME_CMD_STATUS_OP = 3 ∧
      h.rd F.TIME_CMD_STATUS_DONE = b2n s.hub.time.armedAt.isNone ∧ h.time.gcn = s.hub.time.gcn ∧
      (∀ u ∈ s.hub.upTendrils,
        frame Ft.SYNC SyncKind.RESYNC 0 (le 8 s.hub.time.gcn ++ le 4 s.hub.epoch ++ le 2 s.hub.hubAddr) ∈ (h.tend u).txQ) ∧
      s.hub.rest h = { s.hub with fed := h.fed } ∧ s.hub.keeps h [R.TIME_CMD_STATUS] := by
  have e : s.hub.timeCmd 3 = (s.hub.floodSync none SyncKind.RESYNC s.hub.hubAddr).timeStatus 3 St.OK true := by
    simp only [Hub.timeCmd, Hub.timeResync, ok, beq_self_eq_true, if_true]
  have k : Timed [R.TIME_CMD_STATUS] s.hub _ := (Timed.floodSync s.hub none SyncKind.RESYNC s.hub.hubAddr).trans
    (Timed.timeStatus _ 3 St.OK true (by simp))
  refine answers_timeCmd rfl w e k (by decide) c fun t took y => ⟨took, ?_, ?_, ?_, ?_, fun u up => ?_, ?_, y.keeps⟩
  · rw [y.rd _ (by decide), timeStatus_status _ _ _ _ (by decide)]
  · rw [y.rd _ (by decide), timeStatus_op _ _ _ _ (by decide)]
  · rw [y.rd _ (by decide), timeStatus_done, Hub.floodSync_time, Bool.true_and]
  · rw [y.time, Hub.timeStatus_time, Hub.floodSync_time]
  · rw [y.tend, Hub.tend_timeStatus]
    exact mem_txQ_floodSync _ _ up (by simp)
  · exact y.rest_eq_fed (by simp) (by simp)

/-- The time with the TBS registers armed (R51). -/
def Hub.armedTime (s : Hub) : TimeBase :=
  { s.time with
    armGcn := s.reg64 R.TIME_TBS_GCN_LO
    armEpoch := if s.rd F.TIME_ARG_EPOCH_EPOCH = 0 then (if s.timeOk then s.epoch else 1) else s.rd F.TIME_ARG_EPOCH_EPOCH
    armComp := signed 8 (s.rd F.TIME_TBS_COMP_COMP)
    armedAt := some s.time.hclk }

theorem timeCmd_arm {s : Hub} (ok : s.timeCheck 4 = St.OK) :
    s.timeCmd 4 = ((({ s with time := s.armedTime } : Hub).wr F.TIME_STATE_STATE 2).wr F.TIME_TBS_LAST_COUNT 0).timeStatus 4 St.OK
      false := by
  simp only [Hub.timeCmd, Hub.timeArm, ok, beq_self_eq_true, if_true, beq_iff_eq, Hub.armedTime]

/-- An operation that sets the time and waits for TB_SYNC. -/
theorem arm_answers {s : State} {r : Req} {time : TimeBase} (c : s.hub.calm = true) (w : s.hub.takesWrite r R.TIME_CMD 4 = true)
    (e : s.hub.timeCmd 4 =
      ((({ s.hub with time := time } : Hub).wr F.TIME_STATE_STATE 2).wr F.TIME_TBS_LAST_COUNT 0).timeStatus 4 St.OK false) :
    Answers (.armTbs r) s fun h =>
      h.tookWrite r ∧ h.rd F.TIME_CMD_STATUS_STATUS = St.OK ∧ h.rd F.TIME_CMD_STATUS_OP = 4 ∧ h.rd F.TIME_CMD_STATUS_DONE = 0 ∧
      h.rd F.TIME_STATE_STATE = 2 ∧ h.time = time ∧ s.hub.rest h = { s.hub with time := h.time } ∧
      s.hub.keeps h [R.TIME_STATE, F.TIME_TBS_LAST_COUNT.addr, R.TIME_CMD_STATUS] := by
  have k := (((Timed.withTime (keys := [R.TIME_STATE, F.TIME_TBS_LAST_COUNT.addr, R.TIME_CMD_STATUS]) s.hub time).trans
    (.wr _ (f := F.TIME_STATE_STATE) 2 (by decide))).trans (.wr _ (f := F.TIME_TBS_LAST_COUNT) 0 (by decide))).trans
    (Timed.timeStatus _ 4 St.OK false (by decide))
  refine answers_timeCmd rfl w e k (by decide) c fun t took y =>
    ⟨took, ?_, ?_, ?_, ?_, ?_, y.rest_eq_time (by simp) (by simp), y.keeps⟩
  · rw [y.rd _ (by decide), timeStatus_status _ _ _ _ (by decide)]
  · rw [y.rd _ (by decide), timeStatus_op _ _ _ _ (by decide)]
  · rw [y.rd _ (by decide), timeStatus_done, Bool.false_and]; rfl
  · rw [y.rd _ (by decide), rd_timeStatus _ _ _ _ _ (by decide), Hub.rd_wr_apart _ _ _ _ (by decide) (by decide),
      Hub.rd_wr _ _ _ (by decide)]
    rfl
  · rw [y.time, Hub.timeStatus_time, Hub.wr_time, Hub.wr_time]

theorem armTbs_clause (s : State) (r : Req) (c : s.hub.calm = true) (w : s.hub.takesWrite r R.TIME_CMD 4 = true)
    (ok : s.hub.timeCheck 4 = St.OK) :
    Answers (.armTbs r) s fun h =>
      h.tookWrite r ∧ h.rd F.TIME_CMD_STATUS_STATUS = St.OK ∧ h.rd F.TIME_CMD_STATUS_OP = 4 ∧ h.rd F.TIME_CMD_STATUS_DONE = 0 ∧
      h.rd F.TIME_STATE_STATE = 2 ∧ h.time.armedAt = some s.hub.time.hclk ∧ h.time.armGcn = s.hub.reg64 R.TIME_TBS_GCN_LO ∧
      h.time.armComp = signed 8 (s.hub.rd F.TIME_TBS_COMP_COMP) ∧ h.time.gcn = s.hub.time.gcn ∧
      s.hub.rest h = { s.hub with time := h.time } ∧ s.hub.keeps h [R.TIME_STATE, F.TIME_TBS_LAST_COUNT.addr, R.TIME_CMD_STATUS] := by
  refine (arm_answers c w (timeCmd_arm ok)).mono fun h ⟨took, status, op, done, state, time, rest, keeps⟩ =>
    ⟨took, status, op, done, state, ?_, ?_, ?_, ?_, rest, keeps⟩
  all_goals rw [time, Hub.armedTime]

/-! ### CLKCHG and CLKCHG_CANCEL (R55, R56) -/

/-- A pending change set or cleared is that of its partition, and the other partition's stays. -/
theorem pendingChg_setChg (s : Hub) (part : Nat) (x : Option (Nat × Nat)) :
    (s.setChg part x).pendingChg part = x ∧ (s.setChg part x).pendingChg (1 - part) = s.pendingChg (1 - part) := by
  match part with
  | 0 => exact ⟨rfl, rfl⟩
  | n + 1 =>
    have other : 1 - (n + 1) = 0 := by omega
    rw [other]
    exact ⟨rfl, rfl⟩

/-- A pending change is the time's and a bit of TIME_CLK_DIV. -/
theorem setChg_parts (s : Hub) (part : Nat) (x : Option (Nat × Nat)) :
    ∃ time f v, s.setChg part x = ({ s with time := time } : Hub).wr f v ∧ f.addr = R.TIME_CLK_DIV := by
  unfold Hub.setChg
  split
  · exact ⟨_, _, _, rfl, rfl⟩
  · exact ⟨_, _, _, rfl, rfl⟩

theorem Timed.setChg (s : Hub) (part : Nat) (x : Option (Nat × Nat)) (k : R.TIME_CLK_DIV ∈ keys) : Timed keys s (s.setChg part x) := by
  obtain ⟨time, f, v, e, a⟩ := setChg_parts s part x
  rw [e]
  exact (Timed.withTime s time).trans (.wr _ _ (by rwa [a]))

theorem setChg_rest (s : Hub) (part : Nat) (x : Option (Nat × Nat)) :
    (s.setChg part x).fed = s.fed ∧ (s.setChg part x).power = s.power ∧ (s.setChg part x).tiles = s.tiles ∧
    (s.setChg part x).auth = s.auth ∧ (s.setChg part x).coops = s.coops := by
  obtain ⟨time, f, v, e, -⟩ := setChg_parts s part x
  rw [e]
  exact ⟨rfl, rfl, rfl, rfl, rfl⟩

theorem pendingChg_congr {s t : Hub} (e : s.time = t.time) (part : Nat) : s.pendingChg part = t.pendingChg part := by
  rw [Hub.pendingChg, Hub.pendingChg, e]

/-- The effect of an operation that sets or clears a pending change, seen in the time. -/
theorem TimeEffect.pendingChg {s h t : Hub} (y : TimeEffect keys s h t) {part : Nat} {x : Option (Nat × Nat)}
    (time : h.time = (s.setChg part x).time) : t.pendingChg part = x ∧ t.pendingChg (1 - part) = s.pendingChg (1 - part) := by
  have same (q : Nat) : t.pendingChg q = (s.setChg part x).pendingChg q := pendingChg_congr (y.time.trans time) q
  rw [same, same]
  exact pendingChg_setChg s part x

theorem clkchg_clause (s : State) (r : Req) (p code declared : Nat) (c : s.hub.calm = true) (w : s.hub.takesWrite r R.TIME_CMD 5 = true)
    (ok : s.hub.timeCheck 5 = St.OK) (part : s.hub.rd F.TIME_CLKCHG_REQ_PART = p) (div : s.hub.rd F.TIME_CLKCHG_REQ_DIV = code)
    (gcn : s.hub.reg64 R.TIME_CLKCHG_GCN_LO = declared) (passes : s.hub.clkchgCheck p declared = St.OK) (new : code ≠ s.hub.divCode p) :
    Answers (.clkchg r) s fun h =>
      h.tookWrite r ∧ h.rd F.TIME_CMD_STATUS_STATUS = St.OK ∧ h.pendingChg p = some (code, s.hub.applyGcn p declared) ∧
      h.pendingChg (1 - p) = s.hub.pendingChg (1 - p) ∧ s.hub.rest h = { s.hub with time := h.time } ∧
      s.hub.keeps h [R.TIME_CLK_DIV, R.TIME_CLKCHG_APPLY_LO, R.TIME_CLKCHG_APPLY_LO + 4, R.TIME_CMD_STATUS] := by
  have e : s.hub.timeCmd 5 = (((s.hub.setChg p (some (code, s.hub.applyGcn p declared))).setReg64 R.TIME_CLKCHG_APPLY_LO
      (s.hub.applyGcn p declared)).timeStatus 5 St.OK true) := by
    simp only [Hub.timeCmd, Hub.timeClkchg, Hub.acceptChg, part, div, gcn, ok, passes, bne_self_eq_false, beq_self_eq_true, if_true,
      Bool.false_eq_true, if_false, beq_eq_false_iff_ne.mpr new]
  have chg := Timed.setChg (keys := [R.TIME_CLK_DIV, R.TIME_CLKCHG_APPLY_LO, R.TIME_CLKCHG_APPLY_LO + 4, R.TIME_CMD_STATUS]) s.hub p
    (some (code, s.hub.applyGcn p declared)) (by decide)
  have k := ((chg.trans (.setReg _ (s.hub.applyGcn p declared % 0x100000000) (a := R.TIME_CLKCHG_APPLY_LO) (by decide))).trans
    (.setReg _ (s.hub.applyGcn p declared / 0x100000000 % 0x100000000) (a := R.TIME_CLKCHG_APPLY_LO + 4) (by decide))).trans
    (Timed.timeStatus _ 5 St.OK true (by decide))
  refine answers_timeCmd rfl w e k (by decide) c fun t took y => ?_
  obtain ⟨pending, other⟩ := TimeEffect.pendingChg y rfl
  obtain ⟨fed, same⟩ := setChg_rest s.hub p (some (code, s.hub.applyGcn p declared))
  refine ⟨took, ?_, pending, other, y.rest_eq_time fed same, y.keeps⟩
  rw [y.rd _ (by decide), timeStatus_status _ _ _ _ (by decide)]

theorem clkchgCancel_clause (s : State) (r : Req) (p code gc : Nat) (c : s.hub.calm = true) (w : s.hub.takesWrite r R.TIME_CMD 6 = true)
    (ok : s.hub.timeCheck 6 = St.OK) (part : s.hub.rd F.TIME_CLKCHG_REQ_PART = p) (pending : s.hub.pendingChg p = some (code, gc))
    (early : reachedGcn (s.hub.now + 64) gc = true) :
    Answers (.clkchgCancel r) s fun h =>
      h.tookWrite r ∧ h.rd F.TIME_CMD_STATUS_STATUS = St.OK ∧ h.pendingChg p = none ∧
      h.pendingChg (1 - p) = s.hub.pendingChg (1 - p) ∧ h.shows Ev.CLKCHG_CANCELLED 0 = true ∧
      s.hub.rest h = { s.hub with time := h.time } ∧ s.hub.keeps h [R.TIME_CLK_DIV, R.TIME_CMD_STATUS] := by
  have e : s.hub.timeCmd 6 = ((s.hub.setChg p none).raiseOf Ev.CLKCHG_CANCELLED p).timeStatus 6 St.OK true := by
    simp only [Hub.timeCmd, Hub.timeCancel, part, pending, ok, early, bne_self_eq_false, if_true, Bool.false_eq_true, if_false]
  have chg := Timed.setChg (keys := [R.TIME_CLK_DIV, R.TIME_CMD_STATUS]) s.hub p none (by decide)
  have k := (chg.trans (.raiseOf _ p (c := Ev.CLKCHG_CANCELLED) (by decide))).trans (Timed.timeStatus _ 6 St.OK true (by decide))
  refine answers_timeCmd rfl w e k (by decide) c fun t took y => ?_
  obtain ⟨pending, other⟩ := TimeEffect.pendingChg y rfl
  obtain ⟨fed, same⟩ := setChg_rest s.hub p none
  refine ⟨took, ?_, pending, other, ?_, y.rest_eq_time fed same, y.keeps⟩
  · rw [y.rd _ (by decide), timeStatus_status _ _ _ _ (by decide)]
  · exact y.shows_code ⟨_, List.mem_append_right _ (List.mem_singleton_self _), rfl⟩ (fun _ _ _ e => by cases e; decide) fun _ => rfl

theorem clkchgCancel_late_clause (s : State) (r : Req) (p code gc : Nat) (c : s.hub.calm = true)
    (w : s.hub.takesWrite r R.TIME_CMD 6 = true) (ok : s.hub.timeCheck 6 = St.OK) (part : s.hub.rd F.TIME_CLKCHG_REQ_PART = p)
    (pending : s.hub.pendingChg p = some (code, gc)) (late : reachedGcn (s.hub.now + 64) gc = false) :
    Answers (.clkchgCancel r) s fun h =>
      h.tookWrite r ∧ h.rd F.TIME_CMD_STATUS_STATUS = St.TOO_SOON ∧ s.hub.rest h = s.hub ∧ s.hub.keeps h [R.TIME_CMD_STATUS] := by
  have e : s.hub.timeCmd 6 = s.hub.timeStatus 6 St.TOO_SOON true := by
    simp only [Hub.timeCmd, Hub.timeCancel, part, pending, ok, late, bne_self_eq_false, Bool.false_eq_true, if_false]
  have k : Timed [R.TIME_CMD_STATUS] s.hub _ := Timed.timeStatus s.hub 6 St.TOO_SOON true (by simp)
  refine answers_timeCmd rfl w e k (by decide) c fun t took y => ⟨took, ?_, y.rest_eq_self rfl rfl ⟨rfl, rfl, rfl, rfl⟩, y.keeps⟩
  rw [y.rd _ (by decide), timeStatus_status _ _ _ _ (by decide)]

/-- Settles O21: each operation changes registers, the time, the grants, the tiles' trace and the tendrils alone, and its effect on a calm hub
is the unit's own. -/
theorem time_commands_set_gcn_epoch_and_clock_changes : Obligations.time_commands_set_gcn_epoch_and_clock_changes :=
  ⟨establish_clause, reepoch_clause, timeResync_clause, armTbs_clause, clkchg_clause, clkchgCancel_clause, clkchgCancel_late_clause⟩

end Sys2Proof.Machine
end

section
/-! SUPPORT. SYNC frames on a tendril (R47 to R49, R326): what each makes of the time. -/

namespace Sys2Proof.Machine

variable {keys : List Nat}

/-! ### A frame on a tendril -/

/-- A good frame on tendril `t` ends a run of bad ones (R321). -/
def Hub.heard (s : Hub) (t : Nat) : Hub := s.setTend t { s.tend t with badRun := 0 }

theorem heard_state (s : Hub) (t u : Nat) : ((s.heard t).tend u).st = (s.tend u).st := by
  rw [Hub.heard, Hub.tend_setTend]
  split
  · next e => rw [e]
  · rfl

theorem heard_upTendrils (s : Hub) (t : Nat) : (s.heard t).upTendrils = s.upTendrils := by
  simp only [Hub.upTendrils, heard_state]

theorem Timed.heard (s : Hub) (t : Nat) : Timed keys s (s.heard t) := .of_core rfl

/-- A frame on an UP tendril answers what its unit makes of the hub that heard it. -/
theorem answers_frame {i : Instr} {s : State} {p : Hub → Prop} {t : Nat} {f : Hub → Hub} {h : Hub}
    (x : exec i s = run (fun h => h.goodFrame t f) s) (up : (s.hub.tend t).st = Ts.UP) (e : f (s.hub.heard t) = h)
    (k : Timed keys (s.hub.heard t) h) (n : ∀ a ∈ calmKeys, a ∉ keys) (c : s.hub.calm = true)
    (q : ∀ t, TimeEffect keys s.hub h t → p t) : Answers i s p := by
  refine answers_timed x ?_ ((Timed.heard s.hub t).trans k) n c q
  rw [Hub.goodFrame, up, beq_self_eq_true, if_pos rfl, ← Hub.heard, e]

/-! ### Mismatches (R49) -/

theorem Hub.rd_raiseOf (s : Hub) (c u : Nat) (f : Fld) : (s.raiseOf c u).rd f = s.rd f := Hub.rd_congr rfl f

/-- The registers that a mismatch writes. -/
def mismatchKeys : List Nat := [R.TIME_STATE, F.TIME_SYNC_ERR_TENDRIL.addr, R.PG_ERROR + Pg.TIME * 0x1000, R.PG_ERROR_INFO + Pg.TIME * 0x1000]

theorem Timed.syncMismatch (s : Hub) (t v : Nat) : Timed mismatchKeys s (s.syncMismatch t v) := by
  unfold Hub.syncMismatch
  exact ((((Timed.err s (by decide) (by decide)).trans (.wr _ _ (by decide))).trans (.wr _ _ (by decide))).trans (.wr _ _ (by decide))).trans
    (.raiseOf _ _ (by decide))

theorem syncMismatch_records (s : Hub) {t : Nat} (v : Nat) (small : t < 4) :
    (s.syncMismatch t v).hasErr Er.TIME_SYNC_MISMATCH = true ∧ (s.syncMismatch t v).rd F.TIME_STATE_PKG_OK = 0 ∧
    (s.syncMismatch t v).rd F.TIME_SYNC_ERR_TENDRIL = t := by
  refine ⟨?_, ?_, ?_⟩
  · have recorded := s.hasErr_err Er.TIME_SYNC_MISMATCH (by decide)
    unfold Hub.hasErr at *
    rwa [Hub.syncMismatch, Hub.rd_raiseOf, Hub.rd_wr_apart _ _ _ _ (by decide) (by decide),
      Hub.rd_wr_apart _ _ _ _ (by decide) (by decide), Hub.rd_wr_apart _ _ _ _ (by decide) (by decide)]
  · rw [Hub.syncMismatch, Hub.rd_raiseOf, Hub.rd_wr _ _ _ (by decide)]
    exact Nat.zero_mod _
  · rw [Hub.syncMismatch, Hub.rd_raiseOf, Hub.rd_wr_apart _ _ _ _ (by decide) (by decide),
      Hub.rd_wr_apart _ _ _ _ (by decide) (by decide), Hub.rd_wr _ _ _ (by decide)]
    exact Nat.mod_eq_of_lt small

theorem syncMismatch_rest (s : Hub) (t v : Nat) :
    (s.syncMismatch t v).time = s.time ∧ (s.syncMismatch t v).power = s.power ∧ (s.syncMismatch t v).tiles = s.tiles ∧
    (s.syncMismatch t v).auth = s.auth ∧ (s.syncMismatch t v).coops = s.coops := ⟨rfl, rfl, rfl, rfl, rfl⟩

/-- A frame whose value disagrees is recorded and raised, and GCN is not corrected. -/
theorem syncMismatch_answers {i : Instr} {s : State} {t v : Nat} {f : Hub → Hub} (x : exec i s = run (fun h => h.goodFrame t f) s)
    (c : s.hub.calm = true) (up : (s.hub.tend t).st = Ts.UP) (small : t < 4) (e : f (s.hub.heard t) = (s.hub.heard t).syncMismatch t v) :
    Answers i s fun h =>
      h.time.gcn = s.hub.time.gcn ∧ h.hasErr Er.TIME_SYNC_MISMATCH = true ∧ h.rd F.TIME_STATE_PKG_OK = 0 ∧
      h.rd F.TIME_SYNC_ERR_TENDRIL = t ∧ h.shows Ev.TIME_MISMATCH t = true ∧ s.hub.rest h = { s.hub with fed := h.fed } ∧
      s.hub.keeps h [R.TIME_STATE, F.TIME_SYNC_ERR_TENDRIL.addr, R.PG_ERROR + Pg.TIME * 0x1000, R.PG_ERROR_INFO + Pg.TIME * 0x1000] := by
  obtain ⟨err, ok, tendril⟩ := syncMismatch_records (s.hub.heard t) v small
  obtain ⟨time, same⟩ := syncMismatch_rest (s.hub.heard t) t v
  refine answers_frame x up e (Timed.syncMismatch _ t v) (by decide) c fun h y => ⟨?_, ?_, ?_, ?_, ?_, y.rest_eq_fed time same, y.keeps⟩
  · rw [y.time, time]; rfl
  · rw [y.hasErr, err]
  · rw [y.rd _ (by decide), ok]
  · rw [y.rd _ (by decide), tendril]
  · exact y.shows_code ⟨_, List.mem_append_right _ (List.mem_singleton_self _), rfl⟩ (fun _ _ _ e => by cases e; decide) fun _ => rfl

/-! ### ESTABLISH and CHECK (R44, R49) -/

/-- The SYNC frame that a hub sends once its GCN and epoch are known. -/
theorem syncFrame_of {s : Hub} {gcn epoch : Nat} (g : s.time.gcn = gcn) (e : s.epoch = epoch) (kind origin : Nat) :
    s.syncFrame kind origin = frame Ft.SYNC kind 0 (le 8 gcn ++ le 4 epoch ++ le 2 origin) := by
  rw [Hub.syncFrame, g, e]

/-- A hub that enters an epoch: the registers, the time, the coopers and the UP tendrils. -/
theorem enterEpoch_rest {s : Hub} (u : s.untraced) (value epoch : Nat) :
    (s.enterEpoch value epoch).regs = (s.loadGcn value epoch).regs ∧ (s.enterEpoch value epoch).time = (s.loadGcn value epoch).time ∧
    (s.enterEpoch value epoch).coops = s.coops ∧ (s.enterEpoch value epoch).upTendrils = s.upTendrils := by
  obtain ⟨regs, time, coops, fed⟩ := established_rest (loadGcn_untraced u value epoch) epoch
  obtain ⟨-, -, tend, same⟩ := loadGcn_rest s value epoch
  rw [enterEpoch_eq]
  exact ⟨regs, time, coops.trans same, upTendrils_congr (by rw [fed, tend])⟩

theorem syncEstablish_new {s : Hub} {epoch : Nat} (other : (s.timeOk && epoch == s.epoch) = false) (t v origin : Nat) :
    s.syncEstablish t v epoch origin = (s.enterEpoch (syncValue v) epoch).floodSync (some t) SyncKind.ESTABLISH origin := by
  simp only [Hub.syncEstablish, other, Bool.false_eq_true, if_false]

theorem syncValue_lt (v : Nat) : syncValue v < 2 ^ 64 := Nat.mod_lt _ (by decide)

theorem syncEstablishRx_clause (s : State) (tendril : TendrilId) (gcn : BitVec 64) (epoch : Word) (origin : Fin 2048)
    (c : s.hub.calm = true) (up : (s.hub.tend tendril).st = Ts.UP) (other : (s.hub.timeOk && epoch.toNat == s.hub.epoch) = false) :
    Answers (.syncEstablishRx tendril gcn epoch origin) s fun h =>
      h.time.gcn = syncValue gcn.toNat ∧ h.epoch = epoch.toNat ∧ h.rd F.TIME_STATE_STATE = (if s.hub.time.armedAt.isSome then 2 else 1) ∧
      (∀ u ∈ s.hub.upTendrils, u ≠ (tendril : Nat) →
        frame Ft.SYNC SyncKind.ESTABLISH 0 (le 8 (syncValue gcn.toNat) ++ le 4 epoch.toNat ++ le 2 (origin : Nat)) ∈ (h.tend u).txQ) ∧
      h.shows Ev.TIME_ESTABLISHED 0 = true ∧
      s.hub.rest h = { s.hub with time := h.time, power := h.power, tiles := h.tiles, auth := h.auth, fed := h.fed } ∧
      s.hub.keeps h [R.TIME_EPOCH, R.TIME_STATE, R.TIME_ORIGIN_W, R.TIME_ORIGIN_E] := by
  have u : (s.hub.heard tendril).untraced := calm_untraced c
  have value := syncValue_lt gcn.toNat
  have e := syncEstablish_new (s := s.hub.heard tendril) other tendril gcn.toNat origin
  generalize syncValue gcn.toNat = v at value e ⊢
  obtain ⟨regs, time, coops, tendrils⟩ := enterEpoch_rest u v epoch.toNat
  have gcn' : ((s.hub.heard tendril).enterEpoch v epoch.toNat).time.gcn = v := by rw [time, loadGcn_gcn, Nat.mod_eq_of_lt value]
  have epoch' : ((s.hub.heard tendril).enterEpoch v epoch.toNat).epoch = epoch.toNat := by
    rw [Hub.epoch, Hub.rd_congr regs, ← Hub.epoch, loadGcn_epoch, Nat.mod_eq_of_lt epoch.isLt]
  have k := (Timed.enterEpoch u v epoch.toNat (keys := gcnKeys) (List.Subset.refl _)).trans
    (Timed.floodSync _ (some (tendril : Nat)) SyncKind.ESTABLISH origin)
  refine answers_frame rfl up e k (by decide) c fun h y => ⟨?_, ?_, ?_, fun n m other => ?_, ?_, ?_, y.keeps⟩
  · rw [y.time, Hub.floodSync_time, gcn']
  · rw [Hub.epoch, y.rd _ (by decide), Hub.rd_floodSync, ← Hub.epoch, epoch']
  · rw [y.rd _ (by decide), Hub.rd_floodSync, Hub.rd_congr regs, loadGcn_state]; rfl
  · rw [y.tend, ← syncFrame_of gcn' epoch']
    exact mem_txQ_floodSync _ _ (by rwa [tendrils, heard_upTendrils]) (by simpa using Ne.symm other)
  · exact y.shows_code (by rw [Hub.floodSync_occs]; exact established_raises _ _) (fun _ _ _ e => by cases e; decide) fun _ => rfl
  · exact y.rest_eq (by rw [Hub.floodSync_coops, coops]; rfl)

theorem syncEstablishRx_mismatch_clause (s : State) (tendril : TendrilId) (gcn : BitVec 64) (epoch : Word) (origin : Fin 2048)
    (c : s.hub.calm = true) (up : (s.hub.tend tendril).st = Ts.UP) (ok : s.hub.timeOk = true) (same : epoch.toNat = s.hub.epoch)
    (off : s.hub.syncDiff gcn.toNat ≠ 0) :
    Answers (.syncEstablishRx tendril gcn epoch origin) s fun h =>
      h.time.gcn = s.hub.time.gcn ∧ h.hasErr Er.TIME_SYNC_MISMATCH = true ∧ h.rd F.TIME_STATE_PKG_OK = 0 ∧
      h.rd F.TIME_SYNC_ERR_TENDRIL = tendril ∧ h.shows Ev.TIME_MISMATCH tendril = true ∧ s.hub.rest h = { s.hub with fed := h.fed } ∧
      s.hub.keeps h [R.TIME_STATE, F.TIME_SYNC_ERR_TENDRIL.addr, R.PG_ERROR + Pg.TIME * 0x1000, R.PG_ERROR_INFO + Pg.TIME * 0x1000] := by
  have ok' : (s.hub.heard tendril).timeOk = true := ok
  have same' : epoch.toNat = (s.hub.heard tendril).epoch := same
  have off' : (s.hub.heard tendril).syncDiff gcn.toNat ≠ 0 := off
  refine syncMismatch_answers rfl c up tendril.isLt (v := gcn.toNat) ?_
  simp only [Hub.syncEstablish, ok', same', beq_self_eq_true, Bool.and_self, if_true, beq_eq_false_iff_ne.mpr off', Bool.false_eq_true,
    if_false]

/-- A CHECK at a hub that does not wait to join compares (R49). -/
theorem syncCheck_compares {s : Hub} (joined : s.fed.joining = false) (t v epoch : Nat) :
    s.syncCheck t v epoch =
      if (!s.timeOk || !s.flag F.TIME_CTRL_SYNC_CHECK_EN || s.syncDiff v == 0 && epoch == s.epoch) = true then s else s.syncMismatch t v := by
  simp only [Hub.syncCheck, joined, Bool.false_eq_true, if_false]
  split
  · next off => simp only [off, Bool.true_or, if_true]
  · next on => simp only [Bool.eq_false_iff.mpr on, Bool.false_or]

theorem syncCheckRx_mismatch_clause (s : State) (tendril : TendrilId) (gcn : BitVec 64) (epoch : Word) (c : s.hub.calm = true)
    (up : (s.hub.tend tendril).st = Ts.UP) (joined : s.hub.fed.joining = false) (ok : s.hub.timeOk = true)
    (enabled : s.hub.flag F.TIME_CTRL_SYNC_CHECK_EN = true) (off : (s.hub.syncDiff gcn.toNat == 0 && epoch.toNat == s.hub.epoch) = false) :
    Answers (.syncCheckRx tendril gcn epoch) s fun h =>
      h.time.gcn = s.hub.time.gcn ∧ h.hasErr Er.TIME_SYNC_MISMATCH = true ∧ h.rd F.TIME_STATE_PKG_OK = 0 ∧
      h.shows Ev.TIME_MISMATCH tendril = true ∧ s.hub.rest h = { s.hub with fed := h.fed } ∧
      s.hub.keeps h [R.TIME_STATE, F.TIME_SYNC_ERR_TENDRIL.addr, R.PG_ERROR + Pg.TIME * 0x1000, R.PG_ERROR_INFO + Pg.TIME * 0x1000] := by
  have ok' : (s.hub.heard tendril).timeOk = true := ok
  have enabled' : (s.hub.heard tendril).flag F.TIME_CTRL_SYNC_CHECK_EN = true := enabled
  have off' : ((s.hub.heard tendril).syncDiff gcn.toNat == 0 && epoch.toNat == (s.hub.heard tendril).epoch) = false := off
  refine (syncMismatch_answers rfl c up tendril.isLt (v := gcn.toNat) ?_).mono
    fun h ⟨gcn, err, pkg, _, shown, rest, keeps⟩ => ⟨gcn, err, pkg, shown, rest, keeps⟩
  simp only [syncCheck_compares (s := s.hub.heard tendril) joined, ok', enabled', off', Bool.not_true, Bool.or_self, Bool.false_eq_true,
    if_false]

theorem syncCheckRx_equal_clause (s : State) (tendril : TendrilId) (gcn : BitVec 64) (epoch : Word) (c : s.hub.calm = true)
    (up : (s.hub.tend tendril).st = Ts.UP) (joined : s.hub.fed.joining = false) (equal : s.hub.syncDiff gcn.toNat = 0)
    (same : epoch.toNat = s.hub.epoch) :
    Answers (.syncCheckRx tendril gcn epoch) s fun h =>
      s.hub.rest h = { s.hub with fed := h.fed } ∧ s.hub.keeps h [] ∧ h.time.gcn = s.hub.time.gcn := by
  have equal' : (s.hub.heard tendril).syncDiff gcn.toNat = 0 := equal
  have same' : epoch.toNat = (s.hub.heard tendril).epoch := same
  have e : (s.hub.heard tendril).syncCheck tendril gcn.toNat epoch.toNat = s.hub.heard tendril := by
    simp only [syncCheck_compares (s := s.hub.heard tendril) joined, equal', same', beq_self_eq_true, Bool.and_self, Bool.or_true, if_true]
  refine answers_frame (keys := []) rfl up e (Timed.refl _) (by decide) c fun h y =>
    ⟨y.rest_eq_fed rfl ⟨rfl, rfl, rfl, rfl⟩, y.keeps, ?_⟩
  rw [y.time]; rfl

/-! ### RESYNC (R49) -/

/-- A RESYNC of an origin that is no copy of the last one forwarded within 1,024 HCLK (R49, log entry 9). -/
def Hub.resyncFresh (s : Hub) (origin : Nat) : Bool :=
  match s.time.resyncAt with
  | some (a, f) => decide (a + 1024 ≤ s.time.hclk) || f != origin
  | none => true

/-- The step of a hub whose time differs (R49). -/
def Hub.resyncStep (s : Hub) (t v epoch : Nat) : Hub :=
  (((s.wr F.TIME_SYNC_ERR_TENDRIL t).wr F.TIME_SYNC_ERR_DIFF (satSigned 16 (s.syncDiff v))).loadGcn (syncValue v) epoch).raiseOf Ev.TIME_STEPPED t

/-- The RESYNC of an origin is remembered (R49). -/
def Hub.noteResync (s : Hub) (origin : Nat) : Hub := { s with time := { s.time with resyncAt := some (s.time.hclk, origin) } }

theorem syncResync_eq (s : Hub) (t v epoch origin : Nat) :
    s.syncResync t v epoch origin =
      let again := !s.resyncFresh origin || origin == s.hubAddr
      let k := if s.timeOk && s.syncDiff v == 0 && epoch == s.epoch then s.wr F.TIME_STATE_PKG_OK 1
        else if again && s.timeOk then s.syncMismatch t v
        else s.resyncStep t v epoch
      if again then k else (k.noteResync origin).floodSync (some t) SyncKind.RESYNC origin := by
  unfold Hub.syncResync Hub.resyncFresh
  rcases s.time.resyncAt with _ | ⟨a, f⟩
  · rfl
  · have repeated : (decide (s.time.hclk < a + 1024) && f == origin) = !(decide (a + 1024 ≤ s.time.hclk) || f != origin) := by
      simp only [Bool.not_or, bne, Bool.not_not, ← decide_not, Nat.not_le]
    simp only [repeated]
    rfl

theorem syncResync_step {s : Hub} {v epoch origin : Nat} (t : Nat) (off : (s.timeOk && s.syncDiff v == 0 && epoch == s.epoch) = false)
    (fresh : s.resyncFresh origin = true) (other : origin ≠ s.hubAddr) :
    s.syncResync t v epoch origin = ((s.resyncStep t v epoch).noteResync origin).floodSync (some t) SyncKind.RESYNC origin := by
  simp only [syncResync_eq, off, fresh, beq_eq_false_iff_ne.mpr other, Bool.not_true, Bool.or_self, Bool.false_and, Bool.false_eq_true,
    if_false]

theorem syncResync_mismatch {s : Hub} {v epoch origin : Nat} (t : Nat) (ok : s.timeOk = true)
    (off : (s.syncDiff v == 0 && epoch == s.epoch) = false) (again : (!s.resyncFresh origin || origin == s.hubAddr) = true) :
    s.syncResync t v epoch origin = s.syncMismatch t v := by
  simp only [syncResync_eq, ok, again, off, Bool.true_and, Bool.and_self, Bool.false_eq_true, if_false, if_true]

/-- The step alone: GCN, the epoch, what stays, and TIME_STEPPED. -/
theorem resyncStep_facts (s : Hub) (t : Nat) {v epoch value : Nat} (e : syncValue v = value) (small : epoch < 2 ^ 32) :
    (s.resyncStep t v epoch).time.gcn = value ∧ (s.resyncStep t v epoch).time.hclk = s.time.hclk ∧
    (s.resyncStep t v epoch).epoch = epoch ∧ (s.resyncStep t v epoch).fed = s.fed ∧ (s.resyncStep t v epoch).tiles = s.tiles ∧
    (s.resyncStep t v epoch).auth = s.auth ∧ (s.resyncStep t v epoch).coops = s.coops := by
  have whole : value < 2 ^ 64 := e ▸ syncValue_lt v
  rw [Hub.resyncStep, e]
  obtain ⟨tiles, auth, fed, coops⟩ :=
    loadGcn_rest ((s.wr F.TIME_SYNC_ERR_TENDRIL t).wr F.TIME_SYNC_ERR_DIFF (satSigned 16 (s.syncDiff v))) value epoch
  refine ⟨?_, ?_, ?_, ?_, ?_, ?_, ?_⟩
  · rw [Hub.raiseOf_time, loadGcn_gcn, Nat.mod_eq_of_lt whole]
  · rw [Hub.raiseOf_time, loadGcn_hclk, Hub.wr_time, Hub.wr_time]
  · rw [Hub.epoch, Hub.rd_raiseOf, ← Hub.epoch, loadGcn_epoch, Nat.mod_eq_of_lt small]
  · rw [Hub.raiseOf_fed, fed, Hub.wr_fed, Hub.wr_fed]
  · rw [Hub.raiseOf_tiles, tiles, Hub.wr_tiles, Hub.wr_tiles]
  · rw [Hub.raiseOf_auth, auth, Hub.wr_auth, Hub.wr_auth]
  · rw [Hub.raiseOf_coops, coops, Hub.wr_coops, Hub.wr_coops]

theorem resyncStep_raises (s : Hub) (t v epoch : Nat) : ∃ o ∈ (s.resyncStep t v epoch).occs, o.code = Ev.TIME_STEPPED :=
  ⟨_, List.mem_append_right _ (List.mem_singleton_self _), rfl⟩

theorem Timed.resyncStep (s : Hub) (t v epoch : Nat) (k : gcnKeys ⊆ keys) (k' : F.TIME_SYNC_ERR_TENDRIL.addr ∈ keys) :
    Timed keys s (s.resyncStep t v epoch) := by
  have written := (Timed.wr s t k').trans (.wr _ (f := F.TIME_SYNC_ERR_DIFF) (satSigned 16 (s.syncDiff v)) k')
  have loaded := written.trans (.loadGcn _ (syncValue v) epoch k)
  rw [Hub.resyncStep]
  exact loaded.trans (.raiseOf _ t (by decide))

/-- What a step `g` of the hub that heard the frame answers once the RESYNC is remembered and flooded on. -/
theorem resyncStep_answers {i : Instr} {s : State} {t origin value epoch : Nat} {f : Hub → Hub} {g : Hub}
    (x : exec i s = run (fun h => h.goodFrame t f) s) (c : s.hub.calm = true) (up : (s.hub.tend t).st = Ts.UP)
    (e : f (s.hub.heard t) = (g.noteResync origin).floodSync (some t) SyncKind.RESYNC origin) (k : Timed keys (s.hub.heard t) g)
    (n : ∀ a ∈ calmKeys, a ∉ keys) (gcn : g.time.gcn = value) (hclk : g.time.hclk = s.hub.time.hclk) (epoch' : g.epoch = epoch)
    (fed : g.fed = (s.hub.heard t).fed) (tiles : g.tiles = s.hub.tiles) (auth : g.auth = s.hub.auth) (coops : g.coops = s.hub.coops)
    (raised : ∃ o ∈ g.occs, o.code = Ev.TIME_STEPPED) :
    Answers i s fun h =>
      h.time.gcn = value ∧ h.epoch = epoch ∧ h.time.resyncAt = some (s.hub.time.hclk, origin) ∧
      (∀ u ∈ s.hub.upTendrils, u ≠ t → frame Ft.SYNC SyncKind.RESYNC 0 (le 8 value ++ le 4 epoch ++ le 2 origin) ∈ (h.tend u).txQ) ∧
      h.shows Ev.TIME_STEPPED t = true ∧ s.hub.rest h = { s.hub with time := h.time, power := h.power, fed := h.fed } ∧ s.hub.keeps h keys := by
  have tendrils : (g.noteResync origin).upTendrils = s.hub.upTendrils := by
    rw [← heard_upTendrils s.hub t]; exact upTendrils_congr (congrArg Fed.tend fed)
  refine answers_frame x up e ((k.trans (.withTime _ _)).trans (.floodSync _ _ _ _)) n c fun h y =>
    ⟨?_, ?_, ?_, fun n m other => ?_, ?_, ?_, y.keeps⟩
  · rw [y.time, Hub.floodSync_time]; exact gcn
  · rw [Hub.epoch, y.rd _ (by decide), Hub.rd_floodSync]; exact epoch'
  · rw [y.time, Hub.floodSync_time, Hub.noteResync, hclk]
  · rw [y.tend, ← syncFrame_of (s := g.noteResync origin) gcn epoch']
    exact mem_txQ_floodSync _ _ (by rwa [tendrils]) (by simpa using Ne.symm other)
  · exact y.shows_code (by rw [Hub.floodSync_occs]; exact raised) (fun _ _ _ e => by cases e; decide) fun _ => rfl
  · exact y.rest_eq_time_power_fed (by rw [Hub.floodSync_tiles]; exact tiles) (by rw [Hub.floodSync_auth]; exact auth)
      (by rw [Hub.floodSync_coops]; exact coops)

theorem syncResyncRx_clause (s : State) (tendril : TendrilId) (gcn : BitVec 64) (epoch : Word) (origin : Fin 2048)
    (c : s.hub.calm = true) (up : (s.hub.tend tendril).st = Ts.UP)
    (off : (s.hub.timeOk && s.hub.syncDiff gcn.toNat == 0 && epoch.toNat == s.hub.epoch) = false)
    (fresh : s.hub.resyncFresh origin = true) (other : (origin : Nat) ≠ s.hub.hubAddr) :
    Answers (.syncResyncRx tendril gcn epoch origin) s fun h =>
      h.time.gcn = syncValue gcn.toNat ∧ h.epoch = epoch.toNat ∧ h.time.resyncAt = some (s.hub.time.hclk, (origin : Nat)) ∧
      (∀ u ∈ s.hub.upTendrils, u ≠ (tendril : Nat) →
        frame Ft.SYNC SyncKind.RESYNC 0 (le 8 (syncValue gcn.toNat) ++ le 4 epoch.toNat ++ le 2 (origin : Nat)) ∈ (h.tend u).txQ) ∧
      h.shows Ev.TIME_STEPPED tendril = true ∧ s.hub.rest h = { s.hub with time := h.time, power := h.power, fed := h.fed } ∧
      s.hub.keeps h [R.TIME_EPOCH, R.TIME_STATE, R.TIME_ORIGIN_W, R.TIME_ORIGIN_E, F.TIME_SYNC_ERR_TENDRIL.addr] := by
  have e := syncResync_step (s := s.hub.heard tendril) (epoch := epoch.toNat) tendril off fresh other
  obtain ⟨gcn', hclk, epoch', fed, tiles, auth, coops⟩ :=
    resyncStep_facts (s.hub.heard tendril) tendril (v := gcn.toNat) rfl epoch.isLt
  exact resyncStep_answers rfl c up e (Timed.resyncStep _ _ _ _ (by decide) (by decide)) (by decide) gcn' hclk epoch' fed tiles auth coops
    (resyncStep_raises _ _ _ _)

theorem syncResyncRx_mismatch_clause (s : State) (tendril : TendrilId) (gcn : BitVec 64) (epoch : Word) (origin : Fin 2048)
    (c : s.hub.calm = true) (up : (s.hub.tend tendril).st = Ts.UP) (ok : s.hub.timeOk = true)
    (off : (s.hub.syncDiff gcn.toNat == 0 && epoch.toNat == s.hub.epoch) = false)
    (again : (!s.hub.resyncFresh origin || (origin : Nat) == s.hub.hubAddr) = true) :
    Answers (.syncResyncRx tendril gcn epoch origin) s fun h =>
      h.time.gcn = s.hub.time.gcn ∧ h.hasErr Er.TIME_SYNC_MISMATCH = true ∧ h.rd F.TIME_STATE_PKG_OK = 0 ∧
      h.shows Ev.TIME_MISMATCH tendril = true ∧ s.hub.rest h = { s.hub with fed := h.fed } ∧
      s.hub.keeps h [R.TIME_STATE, F.TIME_SYNC_ERR_TENDRIL.addr, R.PG_ERROR + Pg.TIME * 0x1000, R.PG_ERROR_INFO + Pg.TIME * 0x1000] :=
  (syncMismatch_answers rfl c up tendril.isLt (syncResync_mismatch (s := s.hub.heard tendril) tendril ok off again)).mono
    fun _ ⟨gcn, err, pkg, _, shown, rest, keeps⟩ => ⟨gcn, err, pkg, shown, rest, keeps⟩

/-! ### REPLY (R326) -/

theorem syncReplyRx_clause (s : State) (tendril : TendrilId) (gcn : BitVec 64) (epoch : Word) (c : s.hub.calm = true)
    (up : (s.hub.tend tendril).st = Ts.UP) (waits : s.hub.fed.joining = true) :
    Answers (.syncReplyRx tendril gcn epoch) s fun h =>
      h.time.gcn = syncValue gcn.toNat ∧ h.epoch = epoch.toNat ∧ h.fed.joining = false ∧ h.rd F.FED_SELF_JOINED = 1 ∧
      h.shows Ev.TIME_JOINED tendril = true ∧
      s.hub.rest h = { s.hub with
        time := h.time, power := h.power, tiles := h.tiles, auth := h.auth, fed := h.fed, coops := (s.hub.rest h).coops } ∧
      s.hub.keeps h [R.TIME_EPOCH, R.TIME_STATE, R.TIME_ORIGIN_W, R.TIME_ORIGIN_E, R.FED_SELF] := by
  have u : (s.hub.heard tendril).untraced := calm_untraced c
  have waits' : (s.hub.heard tendril).fed.joining = true := waits
  have value := syncValue_lt gcn.toNat
  have e : (s.hub.heard tendril).syncReply tendril gcn.toNat epoch.toNat =
      ((s.hub.heard tendril).loadGcn (syncValue gcn.toNat) epoch.toNat).joined tendril := by
    simp only [Hub.syncReply, waits', if_true, joinEpoch_eq]
  generalize syncValue gcn.toNat = v at value e ⊢
  have u' := loadGcn_untraced u v epoch.toNat
  obtain ⟨epoch', time, fed⟩ := joined_rest u' tendril
  have k : Timed [R.TIME_EPOCH, R.TIME_STATE, R.TIME_ORIGIN_W, R.TIME_ORIGIN_E, R.FED_SELF] (s.hub.heard tendril) _ :=
    (Timed.loadGcn _ v epoch.toNat (by decide)).trans (Timed.joined u' tendril (by decide))
  refine answers_frame rfl up e k (by decide) c fun h y => ⟨?_, ?_, ?_, ?_, ?_, ?_, y.keeps⟩
  · rw [y.time, time, loadGcn_gcn, Nat.mod_eq_of_lt value]
  · rw [Hub.epoch, y.rd _ (by decide), ← Hub.epoch, epoch', loadGcn_epoch, Nat.mod_eq_of_lt epoch.isLt]
  · rw [y.fed, fed]
  · rw [y.rd _ (by decide), joined_shown]
  · exact y.shows_code (joined_raises _ _) (fun _ _ _ e => by cases e; decide) fun _ => rfl
  · exact y.rest_eq_coops

/-! ### TIME_REQ (R326) -/

/-- `h` differs from `s` in its tendrils alone. -/
def Hub.tendrilsOnly (s h : Hub) : Prop := ∃ tend, h = { s with fed := { s.fed with tend := tend } }

theorem tendrilsOnly_trans {s t u : Hub} (h1 : s.tendrilsOnly t) (h2 : t.tendrilsOnly u) : s.tendrilsOnly u := by
  obtain ⟨_, rfl⟩ := h1
  obtain ⟨tend, rfl⟩ := h2
  exact ⟨tend, rfl⟩

theorem tendrilsOnly_setTend (s : Hub) (t : Nat) (x : Tendril) : s.tendrilsOnly (s.setTend t x) := ⟨_, rfl⟩

theorem tendrilsOnly_send2 (s : Hub) (t type dest : Nat) (payload : List Byte) : s.tendrilsOnly (s.send2 t type dest payload) := by
  unfold Hub.send2
  dsimp only
  split
  · exact tendrilsOnly_setTend _ _ _
  · exact tendrilsOnly_setTend _ _ _

theorem tendrilsOnly_flood2 (s : Hub) (e : Option Nat) (type : Nat) (payload : List Byte) : s.tendrilsOnly (s.flood2 e type payload) :=
  doEach_keeps s.tendrilsOnly _ (fun t _ k => tendrilsOnly_trans k (tendrilsOnly_send2 t _ _ _ _)) _ s ⟨s.fed.tend, rfl⟩

/-- The next frame of class 2 is accepted (R320), and the tendrils alone change. -/
theorem accept2_next {s : Hub} {t seq : Nat} (up : ((s.tend t).st == Ts.UP) = true) (next : (seq == (s.tend t).rxExpect) = true)
    (small : seq < 256) : (s.accept2 t seq).1 = true ∧ s.tendrilsOnly (s.accept2 t seq).2 := by
  have st : ((s.tend t).st != Ts.UP) = false := by rw [bne, up]; rfl
  have expected : (seq % 256 != (s.tend t).rxExpect) = false := by rw [Nat.mod_eq_of_lt small, bne, next]; rfl
  unfold Hub.accept2
  simp only [st, expected, Bool.false_eq_true, if_false, true_and]
  split
  · exact tendrilsOnly_trans (tendrilsOnly_setTend _ _ _)
      (tendrilsOnly_trans (tendrilsOnly_setTend _ _ _) (tendrilsOnly_setTend _ _ _))
  · exact tendrilsOnly_setTend _ _ _

/-- A command frame that this hub takes runs its command on a hub where the tendrils and the memory of broadcasts changed. -/
theorem cmdFrame_taken {s : Hub} {d : Hdr2} {op : Nat} (taken : s.takesFrame d op = true) (args : List Byte) (own : Hub → Hub) :
    ∃ fed, s.cmdFrame d op args own = own { s with fed := fed } := by
  simp only [Hub.takesFrame, Bool.and_eq_true] at taken
  obtain ⟨⟨up, next⟩, here⟩ := taken
  obtain ⟨accepted, tend, e⟩ := accept2_next up next d.seq.isLt
  simp only [Hub.cmdFrame, Hub.frame2, accepted, e, Bool.not_true, Bool.false_eq_true, if_false]
  by_cases all : (d.dest : Nat) == s.broadcast
  · have unseen : s.bcastOld ((d.src : Nat), op, (d.txn : Nat)) = false := by simpa [all] using here
    have all' : ((d.dest : Nat) == Hub.broadcast { s with fed := { s.fed with tend := tend } }) = true := all
    have unseen' : Hub.bcastOld { s with fed := { s.fed with tend := tend } } ((d.src : Nat), op, (d.txn : Nat)) = false := unseen
    simp only [all', unseen', if_true, Bool.false_eq_true, if_false]
    obtain ⟨tend', flooded⟩ := tendrilsOnly_flood2
      (Hub.bcastNote { s with fed := { s.fed with tend := tend } } ((d.src : Nat), op, (d.txn : Nat))) (some (d.tendril : Nat)) Ft.CMD
      (cmdPayload d.src op d.txn args)
    exact ⟨_, congrArg own flooded⟩
  · have mine : ((d.dest : Nat) == s.hubAddr) = true := by simpa [all] using here
    have all' : ((d.dest : Nat) == Hub.broadcast { s with fed := { s.fed with tend := tend } }) = false := Bool.eq_false_iff.mpr all
    have mine' : ((d.dest : Nat) == Hub.hubAddr { s with fed := { s.fed with tend := tend } }) = true := mine
    simp only [all', mine', if_true, Bool.false_eq_true, if_false]
    exact ⟨_, rfl⟩

/-- What TIME_REQ runs once its frame is taken (R326). -/
def Hub.timeReqOwn (d : Hdr2) (h : Hub) : Hub := if h.isSafe then h.reply d Op.TIME_REQ St.FAULT [] else h.timeReq d.tendril

theorem exec_timeReqRx (d : Hdr2) (s : State) :
    exec (.timeReqRx d) s = run (fun h => h.cmdFrame d Op.TIME_REQ [] (Hub.timeReqOwn d)) s := rfl

theorem timeReqOwn_replies {s : Hub} (safe : s.isSafe = false) (ok : s.timeOk = true) (d : Hdr2) :
    s.timeReqOwn d = s.emit d.tendril (s.syncFrame SyncKind.REPLY s.hubAddr) := by
  simp only [Hub.timeReqOwn, safe, Bool.false_eq_true, if_false, Hub.timeReq, ok, if_true]
  rfl

theorem timeReqRx_clause (s : State) (hd : Hdr2) (c : s.hub.calm = true) (taken : s.hub.takesFrame hd Op.TIME_REQ = true)
    (safe : s.hub.isSafe = false) (ok : s.hub.timeOk = true) :
    Answers (.timeReqRx hd) s fun h =>
      frame Ft.SYNC SyncKind.REPLY 0 (le 8 s.hub.time.gcn ++ le 4 s.hub.epoch ++ le 2 s.hub.hubAddr) ∈ (h.tend hd.tendril).txQ ∧
      s.hub.rest h = { s.hub with fed := h.fed } ∧ s.hub.keeps h [] := by
  obtain ⟨fed, e⟩ := cmdFrame_taken taken [] (Hub.timeReqOwn hd)
  rw [timeReqOwn_replies (s := { s.hub with fed := fed }) safe ok] at e
  refine answers_timed (keys := []) (exec_timeReqRx hd s) e (.of_core rfl) (by decide) c fun h y =>
    ⟨?_, y.rest_eq_fed rfl ⟨rfl, rfl, rfl, rfl⟩, y.keeps⟩
  rw [y.tend]
  exact mem_txQ_emit_same _ _ _

/-- Settles O23: each SYNC frame changes the time, the registers and the tendrils of the hub that heard it, and what it makes of them on a
calm hub is its unit's own. -/
theorem sync_frames_carry_the_time_to_a_hub : Obligations.sync_frames_carry_the_time_to_a_hub :=
  ⟨syncEstablishRx_clause, syncEstablishRx_mismatch_clause, syncCheckRx_mismatch_clause, syncCheckRx_equal_clause, syncResyncRx_clause,
    syncResyncRx_mismatch_clause, syncReplyRx_clause, timeReqRx_clause⟩

end Sys2Proof.Machine
end

section
/-! SUPPORT. One HCLK period of a hub with nothing under way (R37, R43, R316, R341, R450): what each of its parts changes. -/

namespace Sys2Proof.Machine

/-! ### The parts of a period before the counts step -/

/-- The registers that a period may change: a count of PRESS_STALL, DONE of GLB_CMD_STATUS and LINK_STATE, by key. -/
def tickKey (k : Nat) : Bool := k % 0x1000 == 0x080 || k == R.LINK_STATE

/-- Every column of a harvest in phase 1 has a tile: none goes on by itself (R109). -/
def Hub.columnsBusy (s : Hub) : Prop := ∀ p ∈ s.harv.cur.cells, (p.2.phase != 1 || !p.2.tiles.isEmpty) = true

/-- `h` comes from `s` in a period: nothing comes to wait, and all but the registers of `tickKey`, the tendrils, the audits, the coopers, the
silence of the harvest's columns, the pins, the link and the count of a GLB command is as it was. -/
structure Elapses (s h : Hub) : Prop where
  core : { h with
    regs := s.regs, fed := s.fed, hangCtl := s.hangCtl, coops := s.coops, harv := s.harv, pins := s.pins, link := s.link
    glbLeft := s.glbLeft } = s
  regs : ∀ a b, tickKey (regKey a b) = false → h.regB a b = s.regB a b
  hangCtl : h.hangCtl.reports = s.hangCtl.reports ∧ h.hangCtl.peers = s.hangCtl.peers
  harv : ∃ cur, h.harv = { s.harv with cur := cur }
  columns : s.columnsBusy → h.columnsBusy
  ready : h.harvReady = true → s.harvReady = true
  reqQ : h.link.reqQ = s.link.reqQ
  up : s.linkSt = Lk.UP → h.linkSt = Lk.UP

theorem Elapses.trans {s t u : Hub} (h1 : Elapses s t) (h2 : Elapses t u) : Elapses s u := by
  obtain ⟨core1, regs1, ⟨reports1, peers1⟩, ⟨_, harv1⟩, columns1, ready1, reqQ1, up1⟩ := h1
  obtain ⟨core2, regs2, ⟨reports2, peers2⟩, ⟨cur, harv2⟩, columns2, ready2, reqQ2, up2⟩ := h2
  refine ⟨?_, fun a b n => (regs2 a b n).trans (regs1 a b n), ⟨reports2.trans reports1, peers2.trans peers1⟩, ?_,
    fun c => columns2 (columns1 c), fun r => ready1 (ready2 r), reqQ2.trans reqQ1, fun l => up2 (up1 l)⟩
  · have e : ({ u with
          regs := s.regs, fed := s.fed, hangCtl := s.hangCtl, coops := s.coops, harv := s.harv, pins := s.pins, link := s.link
          glbLeft := s.glbLeft } : Hub) =
        { ({ u with
            regs := t.regs, fed := t.fed, hangCtl := t.hangCtl, coops := t.coops, harv := t.harv, pins := t.pins, link := t.link
            glbLeft := t.glbLeft } : Hub) with
          regs := s.regs, fed := s.fed, hangCtl := s.hangCtl, coops := s.coops, harv := s.harv, pins := s.pins, link := s.link
          glbLeft := s.glbLeft } := rfl
    rw [e, core2, core1]
  · exact ⟨cur, by rw [harv2, harv1]⟩

/-- A change of the tendrils, the audits, the coopers, the pins, the link or the count of a GLB command alone. -/
theorem Elapses.apart (s : Hub) (fed : Fed) (audits : List Audit) (coops : Tab Cooper) (pins : Pins) {link : LinkSt} (glbLeft : Nat)
    (reqQ : link.reqQ = s.link.reqQ) :
    Elapses s { s with
      fed := fed, hangCtl := { s.hangCtl with audits := audits }, coops := coops, pins := pins, link := link, glbLeft := glbLeft } :=
  ⟨rfl, fun _ _ _ => rfl, ⟨rfl, rfl⟩, ⟨_, rfl⟩, id, id, reqQ, id⟩

theorem Elapses.refl (s : Hub) : Elapses s s := .apart s _ _ _ _ _ rfl

theorem Elapses.doEach {α : Type} {f : Hub → α → Hub} (hf : ∀ s a, Elapses s (f s a)) (l : List α) (s : Hub) :
    Elapses s (Machine.doEach l s f) :=
  doEach_keeps (Elapses s) f (fun t a h => h.trans (hf t a)) l s (Elapses.refl s)

theorem Elapses.wr (s : Hub) (f : Fld) (v : Nat) (k : tickKey f.addr = true) (up : s.linkSt = Lk.UP → (s.wr f v).linkSt = Lk.UP) :
    Elapses s (s.wr f v) := by
  refine ⟨rfl, fun a b n => Hub.regB_setRegB_ne s _ fun e => ?_, ⟨rfl, rfl⟩, ⟨_, rfl⟩, id, id, rfl, up⟩
  rw [e, regKey, Nat.zero_mul, Nat.zero_add, k] at n
  exact Bool.noConfusion n

theorem Elapses.rd {s h : Hub} (x : Elapses s h) (f : Fld) (n : tickKey f.addr = false) : h.rd f = s.rd f := by
  simp only [Hub.rd, Hub.rdB, x.regs f.addr 0 (by rwa [regKey, Nat.zero_mul, Nat.zero_add])]

theorem Elapses.flag {s h : Hub} (x : Elapses s h) (f : Fld) (n : tickKey f.addr = false) : h.flag f = s.flag f := by
  rw [Hub.flag, x.rd f n, Hub.flag]

theorem Elapses.still {s h : Hub} (x : Elapses s h) (c : s.still) : h.still := by
  have phase := x.rd F.HARV_STATUS_PHASE (by decide)
  obtain ⟨core, -, ⟨reports, peers⟩, ⟨cur, harv⟩, columns, ready, reqQ, -⟩ := x
  obtain ⟨reports', policies, peers', reqs, soft, ladder, drain, columns', close⟩ := c
  have same {α : Type} (g : Hub → α) := congrArg g core
  refine ⟨reports.trans reports', ?_, ?_, reqQ.trans reqs, (same Hub.softReset).trans soft, ?_, ?_, ?_, ?_⟩
  · rwa [show h.hang = s.hang from same Hub.hang]
  · rwa [peers]
  · rwa [show h.ladder = s.ladder from same Hub.ladder]
  · rwa [harv]
  · exact List.all_eq_true.mpr (columns (List.all_eq_true.mp columns'))
  · rw [phase]
    cases done : h.harvReady with
    | false => exact .inl rfl
    | true => exact .inr (close.resolve_left (by rw [ready done]; decide))

theorem Elapses.untraced {s h : Hub} (x : Elapses s h) (u : s.untraced) : h.untraced := by
  unfold Hub.untraced at *
  rwa [x.flag F.TRACE_STATE_RUNNING (by decide), x.flag F.TRACE_TRIG_CTRL_HUBEV_EN (by decide)]

theorem Elapses.time {s h : Hub} (x : Elapses s h) : h.time = s.time := by
  have same {α : Type} (g : Hub → α) := congrArg g x.core
  exact same Hub.time

theorem Elapses.timeOk {s h : Hub} (x : Elapses s h) : h.timeOk = s.timeOk := by
  rw [Hub.timeOk, Hub.epoch, x.rd _ (by decide), Hub.timeOk, Hub.epoch]

/-! ### The tendrils' transmitters (R316, R318) -/

/-- `h` is `s` in a period but for tendril `t`. -/
structure OnlyTend (t : Nat) (s h : Hub) : Prop extends Elapses s h where
  coops : h.coops = s.coops
  link : h.link = s.link
  tend : ∀ u, u ≠ t → h.tend u = s.tend u

theorem OnlyTend.trans {t : Nat} {s h k : Hub} (h1 : OnlyTend t s h) (h2 : OnlyTend t h k) : OnlyTend t s k :=
  ⟨h1.toElapses.trans h2.toElapses, h2.coops.trans h1.coops, h2.link.trans h1.link, fun u n => (h2.tend u n).trans (h1.tend u n)⟩

theorem OnlyTend.refl (t : Nat) (s : Hub) : OnlyTend t s s := ⟨.refl s, rfl, rfl, fun _ _ => rfl⟩

theorem OnlyTend.setTend (s : Hub) (t : Nat) (x : Tendril) : OnlyTend t s (s.setTend t x) :=
  ⟨.apart _ _ _ _ _ _ rfl, rfl, rfl, fun u n => by rw [Hub.tend_setTend, if_neg n]⟩

/-- A frame beginning leaves the frames that are out. -/
theorem beginTx_only (s : Hub) (t : Nat) : OnlyTend t s (s.beginTx t) ∧ ((s.beginTx t).tend t).out = (s.tend t).out := by
  unfold Hub.beginTx
  dsimp only
  split
  · exact ⟨OnlyTend.setTend _ _ _, by rw [Hub.tend_setTend, if_pos rfl]⟩
  · exact ⟨OnlyTend.setTend _ _ _, by rw [Hub.tend_setTend, if_pos rfl]⟩

/-- The echo of a TRAIN frame that is due is handed to the transmitter (R319). -/
def Hub.echoSent (s : Hub) (t : Nat) : Hub :=
  match (s.tend t).echo with
  | some (due, n) => if due ≤ s.time.hclk then
      s.setTend t { s.tend t with echo := none, txQ := (s.tend t).txQ ++ [frame Ft.TRAIN 1 0 (le 4 s.time.hclk ++ le 4 n)] }
    else s
  | none => s

/-- A beat of the transmitter. -/
def Hub.beat (s : Hub) (t : Nat) : Hub :=
  match (s.tend t).sending with
  | none => if (s.tend t).txQ.isEmpty then s else s.beginTx t
  | some (f, n) =>
    if n == 11 then (s.setTend t { s.tend t with sending := none, out := (s.tend t).out ++ [f] }).beginTx t
    else if Fr.cls f != 0 && (s.tend t).txQ.any (fun g => Fr.cls g == 0) then
      (s.setTend t { s.tend t with sending := none, txQ := f :: (s.tend t).txQ }).beginTx t
    else s.setTend t { s.tend t with sending := some (f, n + 1) }

theorem tendTick_eq (s : Hub) (t : Nat) : s.tendTick t = (s.echoSent t).beat t := rfl

theorem cls_train (b1 b23 : Nat) (payload : List Byte) : Fr.cls (frame Ft.TRAIN b1 b23 payload) = 1 := rfl

/-- No frame of class 0 waits. -/
def Tendril.calm0 (x : Tendril) : Prop := ∀ g ∈ x.txQ, Fr.cls g ≠ 0

theorem echoSent_only (s : Hub) (t : Nat) :
    OnlyTend t s (s.echoSent t) ∧ ((s.echoSent t).tend t).out = (s.tend t).out ∧
    ((s.echoSent t).tend t).sending = (s.tend t).sending ∧ ((s.tend t).calm0 → ((s.echoSent t).tend t).calm0) := by
  unfold Hub.echoSent
  split
  · split
    · refine ⟨OnlyTend.setTend _ _ _, ?_⟩
      rw [Hub.tend_setTend, if_pos rfl]
      refine ⟨rfl, rfl, fun calm g m => ?_⟩
      rcases List.mem_append.mp m with m | m
      · exact calm g m
      · rw [List.mem_singleton.mp m, cls_train]; decide
    · exact ⟨OnlyTend.refl t s, rfl, rfl, id⟩
  · exact ⟨OnlyTend.refl t s, rfl, rfl, id⟩

theorem beat_only (s : Hub) (t : Nat) : OnlyTend t s (s.beat t) := by
  unfold Hub.beat
  split
  · split
    · exact OnlyTend.refl t s
    · exact (beginTx_only s t).1
  · split
    · exact (OnlyTend.setTend _ _ _).trans (beginTx_only _ t).1
    · split
      · exact (OnlyTend.setTend _ _ _).trans (beginTx_only _ t).1
      · exact OnlyTend.setTend _ _ _

theorem tendTick_only (s : Hub) (t : Nat) : OnlyTend t s (s.tendTick t) := (echoSent_only s t).1.trans (beat_only _ t)

/-- What a beat makes of a tendril `x` that has sent `n` beats of the frame `f`. -/
def Tendril.carried (f : List Byte) (n : Nat) (x y : Tendril) : Prop :=
  y.out = x.out ++ (if n = 11 then [f] else []) ∧ (n < 11 → (Fr.cls f = 0 ∨ x.calm0) → y.sending = some (f, n + 1))

theorem beat_carries {s : Hub} {t : Nat} {f : List Byte} {n : Nat} (h : (s.tend t).sending = some (f, n)) :
    Tendril.carried f n (s.tend t) ((s.beat t).tend t) := by
  unfold Hub.beat
  rw [h]
  dsimp only
  by_cases last : n = 11
  · subst last
    refine ⟨?_, fun l => absurd l (by decide)⟩
    rw [if_pos (beq_self_eq_true _), (beginTx_only _ t).2, Hub.tend_setTend, if_pos rfl, if_pos rfl]
  · rw [if_neg (by simpa using last)]
    split
    · next preempted =>
      obtain ⟨low, waits⟩ := Bool.and_eq_true_iff.mp preempted
      obtain ⟨g, m, urgent⟩ := List.any_eq_true.mp waits
      refine ⟨?_, fun _ first => ?_⟩
      · rw [(beginTx_only _ t).2, Hub.tend_setTend, if_pos rfl, if_neg last, List.append_nil]
      · rcases first with first | first
        · exact absurd first (by simpa using low)
        · exact absurd (by simpa using urgent) (first g m)
    · rw [Hub.tend_setTend, if_pos rfl]
      exact ⟨by rw [if_neg last, List.append_nil], fun _ _ => rfl⟩

theorem tendTick_carries {s : Hub} {t : Nat} {f : List Byte} {n : Nat} (h : (s.tend t).sending = some (f, n)) :
    Tendril.carried f n (s.tend t) ((s.tendTick t).tend t) := by
  obtain ⟨-, out, sending, calm⟩ := echoSent_only s t
  obtain ⟨out', sending'⟩ := beat_carries (s := s.echoSent t) (sending.trans h)
  exact ⟨by rw [tendTick_eq, out', out], fun l first => sending' l (first.imp id calm)⟩

/-- The transmitters at a clock edge. -/
def Hub.tendTicks (s : Hub) : Hub := doEach [0, 1, 2, 3] s Hub.tendTick

theorem tendTicks_rest (s : Hub) : Elapses s s.tendTicks ∧ s.tendTicks.coops = s.coops ∧ s.tendTicks.link = s.link :=
  ⟨.doEach (fun s t => (tendTick_only s t).toElapses) _ s, doEach_same Hub.coops _ (fun s t => (tendTick_only s t).coops) _ s,
    doEach_same Hub.link _ (fun s t => (tendTick_only s t).link) _ s⟩

/-- Each of four transmitters acts on its own tendril. -/
theorem tendTicks_tend (s : Hub) {u : Nat} (four : u < 4) : ∃ k : Hub, k.tend u = s.tend u ∧ s.tendTicks.tend u = (k.tendTick u).tend u := by
  have apart (h : Hub) {t : Nat} (n : u ≠ t) : (h.tendTick t).tend u = h.tend u := (tendTick_only h t).tend u n
  simp only [Hub.tendTicks, doEach_cons, doEach_nil]
  obtain rfl | rfl | rfl | rfl : u = 0 ∨ u = 1 ∨ u = 2 ∨ u = 3 := by omega
  · exact ⟨s, rfl, by simp [apart]⟩
  · exact ⟨s.tendTick 0, by simp [apart], by simp [apart]⟩
  · exact ⟨(s.tendTick 0).tendTick 1, by simp [apart], by simp [apart]⟩
  · exact ⟨((s.tendTick 0).tendTick 1).tendTick 2, by simp [apart], rfl⟩

theorem tendTicks_carry {s : Hub} {u : Nat} {f : List Byte} {n : Nat} (four : u < 4) (h : (s.tend u).sending = some (f, n)) :
    Tendril.carried f n (s.tend u) (s.tendTicks.tend u) := by
  obtain ⟨k, same, e⟩ := tendTicks_tend s four
  rw [e, ← same]
  exact tendTick_carries (by rw [same, h])

/-! ### Audits, watchdogs, stall counts and silent spurs -/

/-- `h` is `s` in a period, and the tendrils, the coopers and the link are as they were. -/
structure Aside (s h : Hub) : Prop extends Elapses s h where
  fed : h.fed = s.fed
  coops : h.coops = s.coops
  link : h.link = s.link

theorem Aside.trans {s h k : Hub} (h1 : Aside s h) (h2 : Aside h k) : Aside s k :=
  ⟨h1.toElapses.trans h2.toElapses, h2.fed.trans h1.fed, h2.coops.trans h1.coops, h2.link.trans h1.link⟩

theorem Aside.refl (s : Hub) : Aside s s := ⟨.refl s, rfl, rfl, rfl⟩

theorem Aside.doEach {α : Type} {f : Hub → α → Hub} (hf : ∀ s a, Aside s (f s a)) (l : List α) (s : Hub) : Aside s (Machine.doEach l s f) :=
  doEach_keeps (Aside s) f (fun t a h => h.trans (hf t a)) l s (Aside.refl s)

theorem auditLatch_aside (s : Hub) : Aside s s.auditLatch := ⟨.apart _ _ _ _ _ _ rfl, rfl, rfl, rfl⟩

/-- The watchdogs at a clock edge. -/
def Hub.coopTicks (s : Hub) : Hub := doEach [0, 1] s Hub.coopTick

theorem coopTick_rest (s : Hub) (c : Nat) : Elapses s (s.coopTick c) ∧ (s.coopTick c).fed = s.fed ∧ (s.coopTick c).link = s.link := by
  unfold Hub.coopTick
  dsimp only
  split
  · exact ⟨.apart _ _ _ _ _ _ rfl, rfl, rfl⟩
  · exact ⟨.refl s, rfl, rfl⟩

theorem coopTicks_rest (s : Hub) : Elapses s s.coopTicks ∧ s.coopTicks.fed = s.fed ∧ s.coopTicks.link = s.link :=
  ⟨.doEach (fun s c => (coopTick_rest s c).1) _ s, doEach_same Hub.fed _ (fun s c => (coopTick_rest s c).2.1) _ s,
    doEach_same Hub.link _ (fun s c => (coopTick_rest s c).2.2) _ s⟩

/-- The watchdog of a RUNNING cooper counts down, and of no other (R450). -/
theorem coopTick_wdog (s : Hub) (c d : Nat) :
    ((s.coopTick c).coop d).wdog = (s.coop d).wdog - (if d = c ∧ (s.coop d).st = .running then 1 else 0) ∧
    ((s.coopTick c).coop d).st = (s.coop d).st := by
  unfold Hub.coopTick
  dsimp only
  split
  · next running =>
    rw [Hub.coop_setCoop]
    split
    · next own => subst own; exact ⟨by rw [if_pos ⟨rfl, by simpa using running⟩], rfl⟩
    · next other => exact ⟨by rw [if_neg fun h => other h.1, Nat.sub_zero], rfl⟩
  · next idle =>
    refine ⟨?_, rfl⟩
    rw [if_neg fun h => idle (by rw [← h.1, h.2]; rfl), Nat.sub_zero]

theorem coopTicks_wdog (s : Hub) {c : Nat} (two : c < 2) :
    (s.coopTicks.coop c).wdog = (s.coop c).wdog - (if (s.coop c).st = .running then 1 else 0) := by
  obtain ⟨wdog0, st0⟩ := coopTick_wdog s 0 c
  simp only [Hub.coopTicks, doEach_cons, doEach_nil, coopTick_wdog (s.coopTick 0) 1 c, wdog0, st0]
  obtain rfl | rfl : c = 0 ∨ c = 1 := by omega
  · simp
  · simp

/-- The stall counters at a clock edge (R164). -/
def Hub.stallTicks (s : Hub) : Hub := doEach (s.lanes.cells.map Prod.fst) s Hub.stallCount

theorem stallCount_aside (s : Hub) (l : Nat) : Aside s (s.stallCount l) := by
  have key : (F.PRESS_STALL_HCLK.lane l).addr % 0x1000 = 0x080 := by simp only [Fld.lane, F.PRESS_STALL_HCLK]; omega
  unfold Hub.stallCount
  split
  · have other : (F.PRESS_STALL_HCLK.lane l).addr ≠ F.LINK_STATE_STATE.addr := fun e => by rw [e] at key; exact absurd key (by decide)
    refine ⟨.wr _ _ _ (by rw [tickKey, key]; rfl) fun up => ?_, rfl, rfl, rfl⟩
    exact (Hub.rd_wr_apart _ _ _ _ (by decide) (by simp [Fld.apart, other])).trans up
  · exact .refl s

theorem stallTicks_aside (s : Hub) : Aside s s.stallTicks := .doEach stallCount_aside _ s

theorem mem_putKey_self {α : Type} (k : Nat) (v : α) (l : List (Nat × α)) : (k, v) ∈ putKey k v l := by
  induction l with
  | nil => exact List.mem_singleton_self _
  | cons c l ih =>
    obtain ⟨j, w⟩ := c
    unfold putKey
    split
    · exact List.mem_cons_of_mem _ ih
    · split <;> exact List.mem_cons_self

/-- A column whose spur could send is in phase 1 or 2, and has a tile (R114). -/
theorem spurFree_busy {s : Hub} {c : Nat} (free : s.spurFree c = true) :
    ((s.cursor c).phase = 1 ∨ (s.cursor c).phase = 2) ∧ (s.cursor c).tiles.isEmpty = false := by
  simp only [Hub.spurFree, Bool.and_eq_true, Bool.or_eq_true, beq_iff_eq, Bool.not_eq_true'] at free
  obtain ⟨⟨⟨⟨tiles, phase⟩, -⟩, -⟩, -⟩ := free
  exact ⟨phase, tiles⟩

/-- The silence of the harvest's spurs at a clock edge (R114). -/
def Hub.silentTicks (s : Hub) : Hub := doEach s.harv.cur.keys s Hub.silentTick

theorem silentTick_aside (s : Hub) (c : Nat) : Aside s (s.silentTick c) := by
  unfold Hub.silentTick
  split
  · next counts =>
    simp only [Bool.and_eq_true] at counts
    obtain ⟨⟨-, running⟩, free⟩ := counts
    obtain ⟨phase, tiles⟩ := spurFree_busy free
    refine ⟨⟨rfl, fun _ _ _ => rfl, ⟨rfl, rfl⟩, ⟨_, rfl⟩, fun busy p m => ?_, fun ready => ?_, rfl, id⟩, rfl, rfl, rfl⟩
    · rcases mem_putKey m with e | m
      · rw [e, tiles, Bool.not_false, Bool.or_true]
      · exact busy p m
    · have ended : s.harv.ended.isSome = false := by simpa using running
      have here := mem_putKey_self c { s.cursor c with silent := (s.cursor c).silent + 1 } s.harv.cur.cells
      simp only [Hub.harvReady, Hub.setCursor, ended, Bool.false_or, Bool.and_eq_true] at ready
      obtain ⟨-, ⟨⟨⟨⟨⟨-, third⟩, -⟩, -⟩, -⟩, -⟩, -⟩ := ready
      have done := List.all_eq_true.mp third _ here
      have third : (s.cursor c).phase = 3 := by simpa using done
      omega
  · exact .refl s

theorem silentTicks_aside (s : Hub) : Aside s s.silentTicks := .doEach silentTick_aside _ s

/-! ### The link (R341, R353) and the trellis (R471) -/

theorem pmaGo_rest (s : Hub) :
    Elapses s s.pmaGo ∧ s.pmaGo.fed = s.fed ∧ s.pmaGo.coops = s.coops ∧ (s.linkSt = Lk.UP → s.pmaGo = s) := by
  unfold Hub.pmaGo
  split
  · next waits =>
    have down (up : s.linkSt = Lk.UP) : False := by rw [up] at waits; exact absurd waits (by decide)
    have written := Elapses.wr s F.LINK_STATE_STATE Lk.FEC_LOCK (by decide) fun up => (down up).elim
    exact ⟨written.trans (.apart _ _ _ _ _ _ rfl), rfl, rfl, fun up => (down up).elim⟩
  · exact ⟨.refl s, rfl, rfl, fun _ => rfl⟩

theorem pmaRelease_rest (s : Hub) :
    Elapses s s.pmaRelease ∧ s.pmaRelease.fed = s.fed ∧ s.pmaRelease.coops = s.coops ∧
    (s.linkSt = Lk.UP → s.pmaRelease.link = s.link) := by
  have pins (pins : Pins) : Elapses s { s with pins := pins } := .apart _ _ _ _ _ _ rfl
  unfold Hub.pmaRelease
  split
  · dsimp only
    split
    · obtain ⟨x, fed, coops, up⟩ := pmaGo_rest { s with pins := { s.pins with pmaResetN := true } }
      exact ⟨(pins _).trans x, fed, coops, fun h => by rw [up h]⟩
    · exact ⟨pins _, rfl, rfl, fun _ => rfl⟩
  · exact ⟨.refl s, rfl, rfl, fun _ => rfl⟩

theorem pcsSend_rest (s : Hub) : Elapses s s.pcsSend ∧ s.pcsSend.fed = s.fed ∧ s.pcsSend.coops = s.coops := by
  unfold Hub.pcsSend
  dsimp only
  split
  · exact ⟨.refl s, rfl, rfl⟩
  · split <;> exact ⟨.apart _ _ _ _ _ _ rfl, rfl, rfl⟩

/-- Without PCS_LOOPBACK the codewords sent reach the lanes alone (R351). -/
theorem pcsTick_apart {s : Hub} (apart : s.flag F.LINK_CTRL_PCS_LOOPBACK = false) : s.pcsTick = s.pcsSend := by
  simp only [Hub.pcsTick, apart, Bool.and_false, Bool.false_eq_true, if_false]

/-- A codeword begins every 425/14 HCLK of an UP link and takes up to eight flits of the FIFO (R341). -/
theorem pcsSend_up {s : Hub} (up : s.linkSt = Lk.UP) :
    s.pcsSend.link.cwOut = s.link.cwOut ++ (if s.link.cwPhase < 411 then [] else
      [codeword (s.link.txFifo.take 8) s.link.cwSeq (if s.link.cwSeq = 0 then scrOnes else s.link.txScr)]) ∧
    s.pcsSend.link.txFifo = if s.link.cwPhase < 411 then s.link.txFifo else s.link.txFifo.drop 8 := by
  have going : (s.linkSt != Lk.FEC_LOCK && s.linkSt != Lk.INIT && s.linkSt != Lk.UP) = false := by rw [up]; decide
  have phase : s.link.cwPhase + 14 < 425 ↔ s.link.cwPhase < 411 := by omega
  simp only [Hub.pcsSend, going, Bool.false_eq_true, if_false, phase, beq_iff_eq]
  split
  · exact ⟨(List.append_nil _).symm, rfl⟩
  · exact ⟨rfl, rfl⟩

theorem glbTick_aside (s : Hub) : Aside s s.glbTick := by
  unfold Hub.glbTick
  split
  · exact .refl s
  · have written := Elapses.wr s F.GLB_CMD_STATUS_DONE 1 (by decide) (Hub.rd_wr_apart _ _ _ _ (by decide) (by decide)).trans
    exact ⟨written.trans (.apart _ _ _ _ _ _ rfl), rfl, rfl, rfl⟩
  · exact ⟨.apart _ _ _ _ _ _ rfl, rfl, rfl, rfl⟩

/-! ### The whole period -/

/-- No domain is open, no cork operation, masked wave report, wave, tile reset or BIST run is under way, no trace runs and the PCS is not looped
back. -/
structure Hub.idle (s : Hub) : Prop where
  domains : s.openSlots = []
  corks : s.corks = []
  waveCrc : s.waveCrc = []
  runs : s.bist.runs = []
  tiles : s.tiles.cells.all (fun p => p.2.wave.isNone && !p.2.rstAck) = true
  trace : s.flag F.TRACE_STATE_RUNNING = false
  apart : s.flag F.LINK_CTRL_PCS_LOOPBACK = false

theorem Elapses.idle {s h : Hub} (x : Elapses s h) (i : s.idle) : h.idle := by
  have same {α : Type} (g : Hub → α) := congrArg g x.core
  have doms : h.doms = s.doms := same Hub.doms
  have bist : h.bist = s.bist := same Hub.bist
  have tiles : h.tiles = s.tiles := same Hub.tiles
  obtain ⟨domains, corks, waveCrc, runs, idle, trace, apart⟩ := i
  exact ⟨by rwa [Hub.openSlots, doms], (same Hub.corks).trans corks, (same Hub.waveCrc).trans waveCrc, by rwa [bist], by rwa [tiles],
    by rwa [x.flag _ (by decide)], by rwa [x.flag _ (by decide)]⟩

theorem doEach_idle {σ α : Type} {f : σ → α → σ} {s : σ} {l : List α} (h : ∀ a ∈ l, f s a = s) : doEach l s f = s := by
  induction l with
  | nil => rfl
  | cons a l ih => rw [doEach_cons, h a List.mem_cons_self, ih fun b m => h b (List.mem_cons_of_mem _ m)]

section
variable {s : Hub} (i : s.idle)
include i

theorem wavesLand_idle : s.wavesLand = s := by
  have none (p : Nat × Tile) (m : p ∈ s.tiles.cells) : p.2.wave = none := by
    have quiet := List.all_eq_true.mp i.tiles p m
    simp only [Bool.and_eq_true, Option.isNone_iff_eq_none] at quiet
    exact quiet.1
  exact doEach_idle fun p m => by rw [none p m]

theorem corkTick_idle : s.corkTick = s := by simp only [Hub.corkTick, i.corks, List.filter_nil, doEach_nil]

theorem bistTick_idle : s.bistTick = s := by simp only [Hub.bistTick, i.runs, doEach_nil]

theorem resetsTick_idle : s.resetsTick = s := by
  have none : s.tiles.cells.filter (fun (p : Nat × Tile) => p.2.rstAck && s.resetDone p.1) = [] := by
    refine List.filter_eq_nil_iff.mpr fun p m => ?_
    have quiet := List.all_eq_true.mp i.tiles p m
    simp only [Bool.and_eq_true, Bool.not_eq_true'] at quiet
    rw [quiet.2, Bool.false_and]
    exact Bool.false_ne_true
  rw [Hub.resetsTick, none, List.map_nil, doEach_nil]

theorem waveCrcRx_idle : s.countOn.waveCrcRx = s.countOn := by
  have none : s.countOn.waveCrc = [] := i.waveCrc
  rw [Hub.waveCrcRx, none]

end

/-- What the units do in a period, before the counts step. -/
def Hub.unitTicks (s : Hub) : Hub := s.tendTicks.auditLatch.coopTicks.stallTicks.silentTicks.pmaRelease.pcsSend.glbTick

theorem tick_idle {s : Hub} (i : s.idle) : s.tick = s.unitTicks.countOn := by
  have i1 := (tendTicks_rest s).1.idle i
  have i2 := (auditLatch_aside _).toElapses.idle i1
  have i3 := (coopTicks_rest _).1.idle i2
  have i4 := (stallTicks_aside _).toElapses.idle i3
  have i5 := (silentTicks_aside _).toElapses.idle i4
  have i6 := (pmaRelease_rest _).1.idle i5
  have i7 := (pcsSend_rest _).1.idle i6
  have i8 := (glbTick_aside _).toElapses.idle i7
  have tendrils (h : Hub) : doEach [0, 1, 2, 3] h Hub.tendTick = h.tendTicks := rfl
  have coopers (h : Hub) : doEach [0, 1] h Hub.coopTick = h.coopTicks := rfl
  have lanes (h : Hub) : doEach (h.lanes.cells.map Prod.fst) h Hub.stallCount = h.stallTicks := rfl
  have columns (h : Hub) : doEach h.harv.cur.keys h Hub.silentTick = h.silentTicks := rfl
  simp only [Hub.tick, tendrils, wavesLand_idle i1, i2.domains, doEach_nil, corkTick_idle i2, coopers, lanes, columns, bistTick_idle i5,
    resetsTick_idle i5, i5.trace, Bool.and_false, Bool.false_eq_true, if_false, pcsTick_apart i6.apart, waveCrcRx_idle i8, Hub.unitTicks]

theorem unitTicks_rest (s : Hub) :
    Elapses s s.unitTicks ∧ s.unitTicks.fed = s.tendTicks.fed ∧ s.unitTicks.coops = s.tendTicks.auditLatch.coopTicks.coops := by
  obtain ⟨x1, -⟩ := tendTicks_rest s
  have x2 := auditLatch_aside s.tendTicks
  obtain ⟨x3, fed3, -⟩ := coopTicks_rest s.tendTicks.auditLatch
  have x5 := (stallTicks_aside s.tendTicks.auditLatch.coopTicks).trans (silentTicks_aside _)
  obtain ⟨x6, fed6, coops6, -⟩ := pmaRelease_rest s.tendTicks.auditLatch.coopTicks.stallTicks.silentTicks
  obtain ⟨x7, fed7, coops7⟩ := pcsSend_rest s.tendTicks.auditLatch.coopTicks.stallTicks.silentTicks.pmaRelease
  have x8 := glbTick_aside s.tendTicks.auditLatch.coopTicks.stallTicks.silentTicks.pmaRelease.pcsSend
  refine ⟨(((((x1.trans x2.toElapses).trans x3).trans x5.toElapses).trans x6).trans x7).trans x8.toElapses, ?_, ?_⟩
  · rw [Hub.unitTicks, x8.fed, fed7, fed6, x5.fed, fed3, x2.fed]
  · rw [Hub.unitTicks, x8.coops, coops7, coops6, x5.coops]

/-- On an UP link the codewords are those of the transmit PCS. -/
theorem unitTicks_link {s : Hub} (up : s.linkSt = Lk.UP) :
    ∃ k : Hub, k.link = s.link ∧ k.linkSt = Lk.UP ∧ s.unitTicks.link = k.pcsSend.link := by
  obtain ⟨x1, -, link1⟩ := tendTicks_rest s
  have x2 := auditLatch_aside s.tendTicks
  obtain ⟨x3, -, link3⟩ := coopTicks_rest s.tendTicks.auditLatch
  have x5 := (stallTicks_aside s.tendTicks.auditLatch.coopTicks).trans (silentTicks_aside _)
  obtain ⟨x6, -, -, link6⟩ := pmaRelease_rest s.tendTicks.auditLatch.coopTicks.stallTicks.silentTicks
  have up5 := (((x1.trans x2.toElapses).trans x3).trans x5.toElapses).up up
  refine ⟨_, ?_, x6.up up5, (glbTick_aside _).link⟩
  rw [link6 up5, x5.link, link3, x2.link, link1]

theorem unitTicks_wdog (s : Hub) {c : Nat} (two : c < 2) :
    (s.unitTicks.coop c).wdog = (s.coop c).wdog - (if (s.coop c).st = .running then 1 else 0) := by
  obtain ⟨-, -, coops⟩ := unitTicks_rest s
  obtain ⟨-, same, -⟩ := tendTicks_rest s
  have before : s.tendTicks.auditLatch.coop c = s.coop c := by rw [Hub.coop, (auditLatch_aside s.tendTicks).coops, same, Hub.coop]
  rw [Hub.coop, coops, ← Hub.coop, coopTicks_wdog _ two, before]

/-! ### The period as a step -/

/-- A period of an idle hub, with what follows on its edge: the units' ticks and the counts alone. -/
theorem run_tick {s : State} (c : s.hub.calm = true) (i : s.hub.idle) :
    ∃ t, run Hub.tick s = .next { s with hub := t } ∧ t.time = s.hub.unitTicks.countOn.time ∧ t.fed = s.hub.tendTicks.fed ∧
      (∀ d, (t.coop d).wdog = (s.hub.unitTicks.coop d).wdog) ∧ t.link.cwOut = s.hub.unitTicks.link.cwOut ∧
      t.link.txFifo = s.hub.unitTicks.link.txFifo := by
  obtain ⟨x, fed, -⟩ := unitTicks_rest s.hub
  have same {α : Type} (g : Hub → α) := congrArg g x.core
  have occs : s.hub.unitTicks.countOn.occs = [] := (same Hub.occs).trans (calm_nothing_left c).1
  have ticked := tick_idle i
  obtain ⟨t, e, r⟩ := run_spec (rel := false) Hub.tick s (by rw [ticked]; exact x.still (calm_still c))
    (by rw [ticked]; exact x.untraced (calm_untraced c)) fun _ o m => absurd m (by rw [ticked, occs]; exact List.not_mem_nil)
  rw [ticked] at r
  have rest {α : Type} (g : Hub → α) := congrArg g r.rest
  refine ⟨t, e, rest Hub.time, (rest Hub.fed).trans fed, fun d => ?_, rest fun h => h.link.cwOut, rest fun h => h.link.txFifo⟩
  have told := congrArg Cooper.wdog (r.told rfl d)
  exact told

/-- Settles O2: without power nothing happens; with power an idle hub's units tick and its counts step, and nothing follows on the edge. -/
theorem a_step_without_a_command_is_one_period : Obligations.a_step_without_a_command_is_one_period := by
  refine ⟨fun s empty off => ?_, fun s empty powered c domains corks waveCrc runs tiles apart => ?_⟩
  · simp only [step, empty, State.tick, off, Bool.false_eq_true, if_false]
  · have i : s.hub.idle := ⟨domains, corks, waveCrc, runs, tiles, (calm_untraced c).1, apart⟩
    obtain ⟨x, -⟩ := unitTicks_rest s.hub
    obtain ⟨t, e, time, fed, wdog, cwOut, txFifo⟩ := run_tick c i
    refine ⟨{ s with hub := t }, ?_, empty, ?_, ?_, fun d two => ?_, fun u f n four sending _ => ?_, fun up => ?_⟩
    · simp only [step, empty, State.tick, powered, if_true, e]
    · rw [time, Hub.countOn, x.time]
    · rw [time, Hub.countOn, x.time, x.timeOk]
    · rw [wdog, unitTicks_wdog _ two]
    · have tend : t.tend u = s.hub.tendTicks.tend u := by rw [Hub.tend, fed, Hub.tend]
      rw [tend]
      exact tendTicks_carry four sending
    · obtain ⟨k, link, up', sent⟩ := unitTicks_link up
      obtain ⟨out, fifo⟩ := pcsSend_up up'
      rw [cwOut, txFifo, sent, out, fifo, link]
      exact ⟨rfl, rfl⟩

end Sys2Proof.Machine
end

section
/-! SUPPORT. The cork page: a federated FIELD STOP stops its own domains in GCN mode, a spur that gates its tile abandons the sample in
progress there, and the argument registers are closed while a command is under way. -/

namespace Sys2Proof.Machine

/-! ### A federated FIELD STOP (R64, R327) -/

/-- A running domain in slot 3, federation on, and a CORK page that asks for an ASAP STOP of the federated FIELD. -/
def federatedFieldStop : State := on fun h => (h.running3.wr F.FED_CTRL_EN 1).setReg R.CORK_SCOPE 0xB

/-- That STOP gives its domain no schedule cycle: its wave carries a GCN, and the issuer's own domains stop so too (R327). -/
theorem corkStop_federatedField_stops_at_gcn (t : State) (x : exec (.corkStop .mgmt) federatedFieldStop = .next t) :
    (t.hub.dom 3).stopScn = none := by
  injection x with x
  subst x
  decide +kernel

/-- Refutes O27: an ASAP STOP of the federated FIELD stops its domains in GCN mode, and not at the schedule cycle that the ASAP target names. -/
theorem not_cork_commands_stop_step_resume_and_abort_domains : ¬ Obligations.cork_commands_stop_step_resume_and_abort_domains := by
  intro h
  obtain ⟨stop, -⟩ := h
  have calm : federatedFieldStop.hub.calm = true := by decide +kernel
  have taken : federatedFieldStop.hub.takesWrite .mgmt R.CORK_CMD 1 = true := by decide +kernel
  have inPackage : (federatedFieldStop.hub.corkRegArgs.xpkg && Req.mgmt == Req.jtag) = false := by decide +kernel
  have passes : federatedFieldStop.hub.corkCheck (isExternal .mgmt) 1 federatedFieldStop.hub.corkRegArgs = St.OK := by decide +kernel
  have runs : federatedFieldStop.hub.alreadyStopped federatedFieldStop.hub.corkRegArgs = false := by decide +kernel
  have live : 3 ∈ federatedFieldStop.hub.liveSlots 1 federatedFieldStop.hub.corkRegArgs := by decide +kernel
  have target : federatedFieldStop.hub.stopTarget federatedFieldStop.hub.corkRegArgs 3 = some 102 := by decide +kernel
  obtain ⟨t, next, -, -, -, stopScn, -⟩ := stop federatedFieldStop .mgmt _ 3 calm taken rfl inPackage passes runs live
  rw [corkStop_federatedField_stops_at_gcn t next, target] at stopScn
  cases stopScn

/-! ### A spur that gates its tile (R68, R272) -/

/-- An armed tile 5 of slot 3 at its stop, with a sample in progress for buffer 0. -/
def armedWithSample : State := on fun h =>
  let h := h.running3.setTile 5 { st := .inContext, slot := 3, scnValid := true, scn := 70, arm := .scn 70, taste := some { req := 1 } }
  { h with taste := { h.taste with bufs := h.taste.bufs.set 0 { tile := 5, slot := 3, req := 1 } } }

/-- Gating the tile ends its sample ABANDONED, counted for the slot (R249, R272). -/
theorem tileStopped_counts_abandoned_sample (t : State) (x : exec (.tileStopped 5) armedWithSample = .next t) :
    t.hub.taste.stats.get (3 * 8 + Tc.ABANDONED) 0 = 1 := by
  cases x
  decide +kernel

/-- Refutes O28: a spur that gates its tile abandons the sample in progress there, so the tiles are not all that changes. -/
theorem not_a_stop_completes_when_its_spurs_report : ¬ Obligations.a_stop_completes_when_its_spurs_report := by
  intro h
  obtain ⟨-, -, -, -, gates, -⟩ := h
  have calm : armedWithSample.hub.calm = true := by decide +kernel
  have due : armedWithSample.hub.gateDue (5 : TileId) = true := by decide +kernel
  obtain ⟨t, next, -, -, -, -, -, -, -, rest, -⟩ := gates armedWithSample 5 calm due
  have taste : t.hub.taste = armedWithSample.hub.taste := show (armedWithSample.hub.rest t.hub).taste = _ by rw [rest]
  have counted := tileStopped_counts_abandoned_sample t next
  rw [taste] at counted
  exact absurd counted (by decide +kernel)

/-! ### Arguments of a command under way (R59, R97) -/

/-- A write of an argument register with no PG_ERROR bit of its own while its DONE is 0: it is ignored and recorded (R59, R459). -/
theorem writeReg_argBusy_recorded {s : Hub} {r : Req} {a v : Nat} {done : Fld} (block : 0x40 ≤ offOf (normAddr a))
    (win : inWindow (normAddr a) = false) (rule : argRule (normAddr a) = some (done, none)) (o : s.argOpen (normAddr a) done = false) :
    s.writeReg r a v = s.errAt r (normAddr a) := by
  simp only [Hub.writeReg, Nat.not_lt.mpr block, if_false, win, Bool.false_eq_true, rule, o]

/-- The argument registers of the cork unit. -/
def corkArgs : List Nat :=
  [R.CORK_SCOPE, R.CORK_MODE, R.CORK_TARGET_LO, R.CORK_TARGET_HI, R.CORK_STEP_COUNT, R.CORK_STALL_MASK, R.CORK_STALL_DURATION]

/-- The argument registers of the time unit. -/
def timeArgs : List Nat :=
  [R.TIME_CLKCHG_REQ, R.TIME_CLKCHG_GCN_LO, R.TIME_CLKCHG_GCN_HI, R.TIME_TBS_GCN_LO, R.TIME_TBS_GCN_HI, R.TIME_ARG_EPOCH, R.TIME_TBS_COMP]

/-- An argument register on the page `page`: a block register that is there, with the DONE it waits for and its PG_ERROR bit, outside the
window and the region table. -/
structure ArgReg (page : Nat) (done : Fld) (e : Option ErrBit) (a : Nat) : Prop where
  norm : normAddr a = a
  fits : (BitVec.ofNat 20 a).toNat = a
  page : a / 0x1000 = page
  block : 0x40 ≤ offOf a
  known : (regDef a).isNone = false
  win : inWindow a = false
  rule : argRule a = some (done, e)
  noRegion : ¬ (R.HARV_REGION_CTRL ≤ a ∧ a ≤ R.HARV_REGION_LEN_HI)

theorem corkArgs_argReg : ∀ a ∈ corkArgs, ArgReg Pg.CORK F.CORK_STATUS_DONE (some Er.CORK_ARG_BUSY) a := by
  intro a m
  simp only [corkArgs, List.mem_cons, List.not_mem_nil, or_false] at m
  rcases m with rfl | rfl | rfl | rfl | rfl | rfl | rfl <;> constructor <;> decide

theorem timeArgs_argReg : ∀ a ∈ timeArgs, ArgReg Pg.TIME F.TIME_CMD_STATUS_DONE none a := by
  intro a m
  simp only [timeArgs, List.mem_cons, List.not_mem_nil, or_false] at m
  rcases m with rfl | rfl | rfl | rfl | rfl | rfl | rfl <;> constructor <;> decide

variable {page : Nat} {done : Fld} {e : Option ErrBit} {a : Nat}

theorem ArgReg.closed {s : Hub} (k : ArgReg page done e a) (o : s.flag done = false) : s.argOpen a done = false := by
  rw [Hub.argOpen, if_neg k.noRegion, o]

/-- A write that the bus takes of a closed argument register answers OK; what is recorded is that of `writeReg`. -/
theorem ArgReg.regWrite {s : State} {r : Req} {v : Word} {h : Hub} (k : ArgReg page done e a)
    (t : s.hub.takesWrite r a v.toNat = true) (w : s.hub.writeReg r a v.toNat = h) (i : h.rel.inject = none) :
    s.hub.regWrite r (BitVec.ofNat 20 a).toNat v.toNat = h.respond r 0 St.OK := by
  subst w
  rw [k.fits]
  exact regWrite_taken (by rw [k.norm]; exact k.known) (by rwa [Nat.mod_eq_of_lt v.isLt]) i

theorem registerWrite_corkArg_busy (s : State) (r : Req) (a : Nat) (v : Word) (c : s.hub.calm = true) (m : a ∈ corkArgs)
    (t : s.hub.takesWrite r a v.toNat = true) (o : s.hub.flag F.CORK_STATUS_DONE = false) :
    Answers (.registerWrite r (BitVec.ofNat 20 a) v) s fun h =>
      h.tookWrite r ∧ h.hasErr Er.CORK_ARG_BUSY = true ∧ h.rd (F.PG_ERROR_INFO_OFFSET.lane Pg.CORK) = a % 0x1000 ∧ s.hub.rest h = s.hub ∧
      s.hub.keeps h [R.PG_ERROR + Pg.CORK * 0x1000, R.PG_ERROR_INFO + Pg.CORK * 0x1000] := by
  have reg := corkArgs_argReg a m
  have write : s.hub.writeReg r a v.toNat = (s.hub.err Er.CORK_ARG_BUSY).errAt r a := by
    have := writeReg_argBusy (s := s.hub) (r := r) (a := a) (v := v.toNat) (e := Er.CORK_ARG_BUSY) (done := F.CORK_STATUS_DONE)
    rw [reg.norm] at this
    exact this reg.block reg.win reg.rule (reg.closed o)
  have k : Touched [R.PG_ERROR + Pg.CORK * 0x1000, R.PG_ERROR_INFO + Pg.CORK * 0x1000] s.hub
      (((s.hub.err Er.CORK_ARG_BUSY).errAt r a).respond r 0 St.OK) :=
    ((Touched.err _ (by decide) (by decide)).trans (Touched.errAt _ _ (by rw [reg.page]; decide))).trans (Touched.respond _ _ _ _)
  refine answers_touched (exec_registerWrite _ _ _ _) (reg.regWrite t write (calm_unplanted (h := s.hub) c)) k (by decide) c
    fun h x => ⟨?_, ?_, ?_, x.rest, x.keeps⟩
  · rw [Hub.tookWrite, x.bus]; exact respond_took _ _
  · rw [x.hasErr, Hub.hasErr_respond, Hub.hasErr_errAt, Hub.hasErr_err _ _ (by decide)]
  · rw [x.rd _ (by decide), Hub.rd_respond, Hub.rd_offset_errAt _ _ reg.page]

theorem registerWrite_timeArg_busy (s : State) (r : Req) (a : Nat) (v : Word) (c : s.hub.calm = true) (m : a ∈ timeArgs)
    (t : s.hub.takesWrite r a v.toNat = true) (o : s.hub.flag F.TIME_CMD_STATUS_DONE = false) :
    Answers (.registerWrite r (BitVec.ofNat 20 a) v) s fun h =>
      h.tookWrite r ∧ h.rd (F.PG_ERROR_INFO_OFFSET.lane Pg.TIME) = a % 0x1000 ∧ s.hub.rest h = s.hub ∧
      s.hub.keeps h [R.PG_ERROR + Pg.TIME * 0x1000, R.PG_ERROR_INFO + Pg.TIME * 0x1000] := by
  have reg := timeArgs_argReg a m
  have write : s.hub.writeReg r a v.toNat = s.hub.errAt r a := by
    have := writeReg_argBusy_recorded (s := s.hub) (r := r) (a := a) (v := v.toNat) (done := F.TIME_CMD_STATUS_DONE)
    rw [reg.norm] at this
    exact this reg.block reg.win reg.rule (reg.closed o)
  have k : Touched [R.PG_ERROR + Pg.TIME * 0x1000, R.PG_ERROR_INFO + Pg.TIME * 0x1000] s.hub ((s.hub.errAt r a).respond r 0 St.OK) :=
    (Touched.errAt _ _ (by rw [reg.page]; decide)).trans (Touched.respond _ _ _ _)
  refine answers_touched (exec_registerWrite _ _ _ _) (reg.regWrite t write (calm_unplanted (h := s.hub) c)) k (by decide) c
    fun h x => ⟨?_, ?_, x.rest, x.keeps⟩
  · rw [Hub.tookWrite, x.bus]; exact respond_took _ _
  · rw [x.rd _ (by decide), Hub.rd_respond, Hub.rd_offset_errAt _ _ reg.page]

/-- Settles O32: each of the fourteen registers is an argument register whose DONE is 0, so a write of it changes PG_ERROR and
PG_ERROR_INFO alone. -/
theorem arguments_of_a_command_under_way_are_ignored : Obligations.arguments_of_a_command_under_way_are_ignored :=
  ⟨registerWrite_corkArg_busy, registerWrite_timeArg_busy⟩

end Sys2Proof.Machine
end

section
/-! SUPPORT. What the cork unit and the power loop change on a calm hub: their registers, the time, the power windows, the domains, the tiles,
the tendrils and the operation that CORK_STATUS describes. -/

namespace Sys2Proof.Machine

/-! ### Changes of the cork unit and the power loop -/

/-- `h` comes from `s` by changing the registers of the keys `touched`, the bus, the time, the power windows, the domains, the tiles, the
tendrils and the operation shown, and by raising occurrences, RELEASED not among them. -/
structure Corked (touched : Nat → Bool) (s h : Hub) : Prop where
  core : { h with
    regs := s.regs, bus := s.bus, time := s.time, power := s.power, doms := s.doms, tiles := s.tiles, fed := s.fed
    corkShown := s.corkShown, occs := s.occs } = s
  regs : ∀ a b, touched (regKey a b) = false → h.regB a b = s.regB a b
  quiet : ∀ o ∈ h.occs, o ∈ s.occs ∨ o.code ≠ Ev.RELEASED
  kept : ∀ o ∈ s.occs, o ∈ h.occs

/-- The registers of a list of keys. -/
def ofKeys (keys : List Nat) (k : Nat) : Bool := keys.contains k

/-- The registers of whole pages. -/
def ofPages (pages : List Nat) (k : Nat) : Bool := pages.contains (k % 0x100000 / 0x1000)

variable {touched : Nat → Bool}

theorem Corked.trans {s t u : Hub} (h1 : Corked touched s t) (h2 : Corked touched t u) : Corked touched s u := by
  refine ⟨?_, fun a b n => (h2.regs a b n).trans (h1.regs a b n), fun o m => (h2.quiet o m).elim (h1.quiet o) .inr,
    fun o m => h2.kept o (h1.kept o m)⟩
  have e : ({ u with
        regs := s.regs, bus := s.bus, time := s.time, power := s.power, doms := s.doms, tiles := s.tiles, fed := s.fed
        corkShown := s.corkShown, occs := s.occs } : Hub) =
      { ({ u with
          regs := t.regs, bus := t.bus, time := t.time, power := t.power, doms := t.doms, tiles := t.tiles, fed := t.fed
          corkShown := t.corkShown, occs := t.occs } : Hub) with
        regs := s.regs, bus := s.bus, time := s.time, power := s.power, doms := s.doms, tiles := s.tiles, fed := s.fed
        corkShown := s.corkShown, occs := s.occs } := rfl
  rw [e, h2.core, h1.core]

/-- A change of the bus, the time, the power windows, the domains, the tiles, the tendrils or the operation shown alone. -/
theorem Corked.of_core {s h : Hub} (core : { h with
      bus := s.bus, time := s.time, power := s.power, doms := s.doms, tiles := s.tiles, fed := s.fed, corkShown := s.corkShown } = s) :
    Corked touched s h := by
  have same {α : Type} (g : Hub → α) := congrArg g core
  have regs : h.regs = s.regs := same Hub.regs
  have occs : h.occs = s.occs := same Hub.occs
  refine ⟨?_, fun a b _ => by rw [Hub.regB, Hub.regB, regs], fun o m => .inl (occs ▸ m), fun o m => occs ▸ m⟩
  rw [← regs, ← occs]; exact core

theorem Hub.dom_setDom (s : Hub) (z y : Nat) (d : Domain) : (s.setDom z d).dom y = if y = z then d else s.dom y := Tab.get_set ..

theorem Hub.tile_setTile (s : Hub) (t u : Nat) (x : Tile) : (s.setTile t x).tile u = if u = t then x else s.tile u := Tab.get_set ..

theorem Corked.refl (s : Hub) : Corked touched s s := .of_core rfl

theorem Corked.setDom (s : Hub) (z : Nat) (d : Domain) : Corked touched s (s.setDom z d) := .of_core rfl

theorem Corked.setTile (s : Hub) (t : Nat) (x : Tile) : Corked touched s (s.setTile t x) := .of_core rfl

theorem Corked.setTend (s : Hub) (t : Nat) (x : Tendril) : Corked touched s (s.setTend t x) := .of_core rfl

theorem Corked.withPower (s : Hub) (p : Power) : Corked touched s { s with power := p } := .of_core rfl

theorem Corked.withFed (s : Hub) (f : Fed) : Corked touched s { s with fed := f } := .of_core rfl

theorem Corked.setRegB (s : Hub) {a b : Nat} (v : Nat) (k : touched (regKey a b) = true) : Corked touched s (s.setRegB a b v) := by
  refine ⟨rfl, fun a' b' n => Hub.regB_setRegB_ne s v fun e => ?_, fun _ m => .inl m, fun _ m => m⟩
  rw [e, k] at n; cases n

theorem regKey_zero (a : Nat) : regKey a 0 = a := by simp [regKey]

theorem Corked.setReg (s : Hub) {a : Nat} (v : Nat) (k : touched a = true) : Corked touched s (s.setReg a v) :=
  .setRegB s v (by rwa [regKey_zero])

theorem Corked.setReg64 (s : Hub) {a : Nat} (v : Nat) (lo : touched a = true) (hi : touched (a + 4) = true) :
    Corked touched s (s.setReg64 a v) := (Corked.setReg s _ lo).trans (.setReg _ _ hi)

theorem Corked.wr (s : Hub) {f : Fld} (v : Nat) (k : touched f.addr = true) : Corked touched s (s.wr f v) := .setReg s _ k

theorem Corked.wrB (s : Hub) {f : Fld} {b : Nat} (v : Nat) (k : touched (regKey f.addr b) = true) : Corked touched s (s.wrB f b v) :=
  .setRegB s _ k

theorem Corked.err (s : Hub) {e : ErrBit} (k : touched (F.PG_ERROR_ERRORS.lane e.page).addr = true)
    (k' : touched (F.PG_ERROR_INFO_BIT.lane e.page).addr = true) : Corked touched s (s.err e) :=
  (Corked.wr s _ k).trans (.wr _ _ k')

theorem Corked.errAt (s : Hub) (r : Req) {a : Nat} (k : touched (F.PG_ERROR_INFO_OFFSET.lane (a / 0x1000)).addr = true) :
    Corked touched s (s.errAt r a) := (Corked.wr s _ k).trans (.wr _ _ k)

theorem Corked.raise (s : Hub) {c : Nat} (u : Option Nat) (n : c ≠ Ev.RELEASED) : Corked touched s (s.raise c u) := by
  refine ⟨rfl, fun _ _ _ => rfl, fun o m => ?_, fun o m => List.mem_append_left _ m⟩
  rcases List.mem_append.mp m with m | m
  · exact .inl m
  · rw [List.mem_singleton.mp m]; exact .inr n

theorem Corked.raiseOf (s : Hub) {c : Nat} (u : Nat) (n : c ≠ Ev.RELEASED) : Corked touched s (s.raiseOf c u) := .raise s _ n

theorem Corked.doEach {α : Type} {f : Hub → α → Hub} (hf : ∀ s a, Corked touched s (f s a)) (l : List α) (s : Hub) :
    Corked touched s (Machine.doEach l s f) :=
  doEach_keeps (Corked touched s) f (fun t a h => h.trans (hf t a)) l s (.refl s)

theorem Corked.rdB {s h : Hub} (t : Corked touched s h) (f : Fld) (b : Nat) (n : touched (regKey f.addr b) = false) :
    h.rdB f b = s.rdB f b := by
  simp only [Hub.rdB, t.regs f.addr b n]

theorem Corked.rd {s h : Hub} (t : Corked touched s h) (f : Fld) (n : touched f.addr = false) : h.rd f = s.rd f :=
  t.rdB f 0 (by rwa [regKey_zero])

/-- Nothing comes to wait where no register is touched that `calm` looks at. -/
theorem Corked.still {s h : Hub} (t : Corked touched s h) (k : ∀ a ∈ calmKeys, touched a = false) (c : s.still) : h.still := by
  have phase := t.rd F.HARV_STATUS_PHASE (k _ (by simp [calmKeys]))
  rw [← t.core] at c
  obtain ⟨reports, policies, peers, reqs, soft, ladder, drain, columns, close⟩ := c
  exact ⟨reports, policies, peers, reqs, soft, ladder, drain, columns, close.imp id phase.trans⟩

theorem Corked.untraced {s h : Hub} (t : Corked touched s h) (k : ∀ a ∈ calmKeys, touched a = false) (c : s.untraced) : h.untraced := by
  unfold Hub.untraced Hub.flag at *
  rwa [t.rd F.TRACE_STATE_RUNNING (k _ (by simp [calmKeys])), t.rd F.TRACE_TRIG_CTRL_HUBEV_EN (k _ (by simp [calmKeys]))]

/-! ### The command's whole effect -/

/-- What a calm hub `s` becomes by a command whose unit makes changes of the cork unit or the power loop on the way to `h`: `t`. -/
structure CorkEffect (touched : Nat → Bool) (s h t : Hub) : Prop where
  rest : s.rest t = { s with
    time := h.time, power := h.power, doms := h.doms, tiles := h.tiles, fed := h.fed, corkShown := h.corkShown }
  keeps : ∀ a b, eventKey (regKey a b) = false → touched (regKey a b) = false → t.regB a b = s.regB a b
  regs : ∀ a b, eventKey (regKey a b) = false → t.regB a b = h.regB a b
  shows : ∀ o ∈ h.occs, (∀ p i, eventBit o.code (o.unit.getD 0) = some (p, i) → i < 32) → t.shows o.code (o.unit.getD 0) = true

section
variable {s h t : Hub} (x : CorkEffect touched s h t)
include x

theorem CorkEffect.time : t.time = h.time := show (s.rest t).time = _ by rw [x.rest]
theorem CorkEffect.power : t.power = h.power := show (s.rest t).power = _ by rw [x.rest]
theorem CorkEffect.doms : t.doms = h.doms := show (s.rest t).doms = _ by rw [x.rest]
theorem CorkEffect.tiles : t.tiles = h.tiles := show (s.rest t).tiles = _ by rw [x.rest]
theorem CorkEffect.fed : t.fed = h.fed := show (s.rest t).fed = _ by rw [x.rest]
theorem CorkEffect.dom (z : Nat) : t.dom z = h.dom z := by rw [Hub.dom, x.doms, Hub.dom]
theorem CorkEffect.tile (u : Nat) : t.tile u = h.tile u := by rw [Hub.tile, x.tiles, Hub.tile]

/-- A unit that changes registers and the power windows alone. -/
theorem CorkEffect.rest_power (same : h.time = s.time ∧ h.doms = s.doms ∧ h.tiles = s.tiles ∧ h.fed = s.fed ∧ h.corkShown = s.corkShown) :
    s.rest t = { s with power := t.power } := by
  obtain ⟨time, doms, tiles, fed, shown⟩ := same
  rw [x.rest, x.power, time, doms, tiles, fed, shown]

theorem CorkEffect.rd (f : Fld) (n : eventKey f.addr = false) : t.rd f = h.rd f := by
  simp only [Hub.rd, Hub.rdB, x.regs f.addr 0 (by rwa [regKey_zero])]

theorem CorkEffect.hasErr (e : ErrBit) : t.hasErr e = h.hasErr e := by
  rw [Hub.hasErr, x.rd _ (eventKey_errors _), Hub.hasErr]

/-- An event that the unit raised is seen in PG_EVENT. -/
theorem CorkEffect.shows_raised {code unit : Nat} (m : ∃ o ∈ h.occs, o.code = code ∧ o.unit.getD 0 = unit)
    (bit : ∀ p i, eventBit code unit = some (p, i) → i < 32) : t.shows code unit = true := by
  obtain ⟨o, m, rfl, rfl⟩ := m
  exact x.shows o m bit

end

theorem CorkEffect.keeps_keys {keys : List Nat} {s h t : Hub} (x : CorkEffect (ofKeys keys) s h t) : s.keeps t keys :=
  fun a b q n => x.keeps a b q (by simpa [ofKeys] using n)

theorem CorkEffect.keeps_pages {pages : List Nat} {s h t : Hub} (x : CorkEffect (ofPages pages) s h t) : s.keepsOff t pages :=
  fun a b q n => x.keeps a b q (by simpa [ofPages] using n)

/-- What a command leaves, seen from the hub `s` before its unit changed it. -/
theorem Corked.rest_ran {s h t : Hub} (k : Corked touched s h) (o : s.occs = []) (w : s.writes = []) (r : Ran false h s.store t) :
    s.rest t = { s with
      time := h.time, power := h.power, doms := h.doms, tiles := h.tiles, fed := h.fed, corkShown := h.corkShown } := by
  have same {α : Type} (g : Hub → α) := congrArg g k.core
  have link : h.link = s.link := same Hub.link
  have store : h.store = s.store := same Hub.store
  have pins : h.pins = s.pins := same Hub.pins
  have coops : h.coops = s.coops := same Hub.coops
  have writes : h.writes = [] := (same Hub.writes).trans w
  have told (c : Nat) : (t.coop c).told = (s.coop c).told := by rw [r.told rfl c, Hub.coop, Hub.coop, coops]
  calc s.rest t = { h.rest t with regs := s.regs, bus := s.bus, pins := s.pins, coops := s.coops } := by
        simp only [Hub.rest, told, and_self, if_true, link]
    _ = { ({ h with
            regs := s.regs, bus := s.bus, time := s.time, power := s.power, doms := s.doms, tiles := s.tiles, fed := s.fed
            corkShown := s.corkShown, occs := s.occs } : Hub) with
          time := h.time, power := h.power, doms := h.doms, tiles := h.tiles, fed := h.fed, corkShown := h.corkShown } := by
        rw [r.rest]; simp only [writes, o, Store.writeAll, List.foldl_nil, store, pins, coops]
    _ = _ := by rw [k.core]

/-- A command answers what its unit's effect shows. -/
theorem answers_corked {i : Instr} {s : State} {p : Hub → Prop} {f : Hub → Hub} {h : Hub} (x : exec i s = run f s) (e : f s.hub = h)
    (k : Corked touched s.hub h) (n : ∀ a ∈ calmKeys, touched a = false) (c : s.hub.calm = true)
    (q : ∀ t, t.bus = h.bus → CorkEffect touched s.hub h t → p t) : Answers i s p := by
  subst e
  obtain ⟨o, w⟩ := calm_nothing_left c
  obtain ⟨t, e, r⟩ := run_spec (rel := false) f s (k.still n (calm_still c)) (k.untraced n (calm_untraced c))
    fun _ x m => (k.quiet x m).resolve_left (by simp [o])
  have regs (a b : Nat) (q : eventKey (regKey a b) = false) := r.keeps a b q (by simp)
  exact ⟨_, x.trans e, rfl, q t r.bus ⟨k.rest_ran o w r, fun a b q m => (regs a b q).trans (k.regs a b m), regs, r.shows⟩⟩

/-- A write that the bus answers OK shows what its unit did, and the requester sees it carried out. -/
theorem answers_corkedWrite {i : Instr} {s : State} {p : Hub → Prop} {r : Req} {f : Hub → Hub} {h : Hub} (x : exec i s = run f s)
    (e : f s.hub = h.respond r 0 St.OK) (k : Corked touched s.hub h) (n : ∀ a ∈ calmKeys, touched a = false) (c : s.hub.calm = true)
    (q : ∀ t, t.tookWrite r → CorkEffect touched s.hub h t → p t) : Answers i s p := by
  refine answers_corked x e (k.trans (.of_core rfl)) n c fun t bus y => q t ?_ ⟨y.rest, y.keeps, y.regs, y.shows⟩
  rw [Hub.tookWrite, bus]; exact respond_took _ _

end Sys2Proof.Machine
end


section
/-! SUPPORT. The power loop (R84 to R92): what its windows, frames and registers make of a calm hub. -/

namespace Sys2Proof.Machine

/-! ### The window's end (R85) -/

/-- The registers that show a window. -/
def windowKeys : List Nat := [F.PWR_EST_MW.addr, R.PWR_MEAS, F.PWR_USED_MW.addr]

/-- The window ended with no measurement shows the estimate `ec` (R86). -/
def Hub.showEstimate (s : Hub) (ec : Nat) : Hub :=
  (((s.wr F.PWR_EST_MW (sat 24 ec)).setReg R.PWR_MEAS 0).wr F.PWR_USED_MW (sat 24 ec)).wr F.PWR_USED_SOURCE 2

theorem Corked.showEstimate (s : Hub) (ec : Nat) : Corked (ofKeys windowKeys) s (s.showEstimate ec) :=
  (((Corked.wr s _ (by decide)).trans (.setReg _ _ (by decide))).trans (.wr _ _ (by decide))).trans (.wr _ _ (by decide))

theorem sat_lt (w v : Nat) : sat w v < 2 ^ w := by
  have := Nat.two_pow_pos w
  unfold sat; split <;> omega

theorem showEstimate_shows (s : Hub) (ec : Nat) :
    (s.showEstimate ec).rd F.PWR_EST_MW = sat 24 ec ∧ (s.showEstimate ec).rd F.PWR_USED_MW = sat 24 ec ∧
    (s.showEstimate ec).rd F.PWR_USED_SOURCE = 2 := by
  have fits : sat 24 ec % 2 ^ 24 = sat 24 ec := Nat.mod_eq_of_lt (sat_lt 24 ec)
  refine ⟨?_, ?_, ?_⟩
  · rw [Hub.showEstimate, Hub.rd_wr_apart _ _ _ _ (by decide) (by decide), Hub.rd_wr_apart _ _ _ _ (by decide) (by decide),
      Hub.rd_setReg_ne _ _ _ (by decide), Hub.rd_wr _ _ _ (by decide)]
    exact fits
  · rw [Hub.showEstimate, Hub.rd_wr_apart _ _ _ _ (by decide) (by decide), Hub.rd_wr _ _ _ (by decide)]
    exact fits
  · rw [Hub.showEstimate, Hub.rd_wr _ _ _ (by decide)]
    rfl

theorem powerWindowEnd_unmeasured {s : Hub} (counts : List Nat) (due : s.powerBoundary ≤ s.now) (whole : s.power.short = false)
    (none : s.measured = none) (off : s.flag F.PWR_CTRL_GUARD_EN = false) :
    s.powerWindowEnd counts =
      (s.showEstimate (s.estimate counts * s.rd F.PWR_CAL_FACTOR_FACTOR / 256)).nextWindow s.powerBoundary := by
  have guard (ec : Nat) : (s.showEstimate ec).flag F.PWR_CTRL_GUARD_EN = false := by
    rw [Hub.flag, (Corked.showEstimate s ec).rd _ (by decide)]; exact off
  have guard := guard (s.estimate counts * s.rd F.PWR_CAL_FACTOR_FACTOR / 256)
  unfold Hub.showEstimate at guard
  simp only [Hub.powerWindowEnd, Nat.not_lt.mpr due, whole, none, Bool.false_eq_true, if_false, guard, Hub.showEstimate]

theorem rd_nextWindow (s : Hub) (b : Nat) (f : Fld) : (s.nextWindow b).rd f = s.rd f := Hub.rd_congr rfl f

theorem exec_powerWindowEnd {counts : List Nat} (n : counts.length = 16) (s : State) :
    exec (.powerWindowEnd counts) s = run (fun h => h.powerWindowEnd counts) s := by
  have ok : (counts.length == 16) = true := by simp [n]
  exact if_pos ok

theorem powerWindowEnd_clause (s : State) (counts : List Nat) (c : s.hub.calm = true) (n : counts.length = 16)
    (due : s.hub.powerBoundary ≤ s.hub.now) (whole : s.hub.power.short = false) (none : s.hub.measured = none)
    (off : s.hub.flag F.PWR_CTRL_GUARD_EN = false) :
    Answers (.powerWindowEnd counts) s fun h =>
      h.rd F.PWR_EST_MW = sat 24 (s.hub.estimate counts * s.hub.rd F.PWR_CAL_FACTOR_FACTOR / 256) ∧ h.rd F.PWR_USED_MW = h.rd F.PWR_EST_MW ∧
      h.rd F.PWR_USED_SOURCE = 2 ∧ h.power.winStart = s.hub.powerBoundary ∧ s.hub.rest h = { s.hub with power := h.power } ∧
      s.hub.keeps h [F.PWR_EST_MW.addr, R.PWR_MEAS, F.PWR_USED_MW.addr] := by
  generalize ec : s.hub.estimate counts * s.hub.rd F.PWR_CAL_FACTOR_FACTOR / 256 = w
  have k : Corked (ofKeys windowKeys) s.hub ((s.hub.showEstimate w).nextWindow s.hub.powerBoundary) :=
    (Corked.showEstimate s.hub w).trans (.withPower _ _)
  obtain ⟨est, used, source⟩ := showEstimate_shows s.hub w
  refine answers_corked (exec_powerWindowEnd n s) (powerWindowEnd_unmeasured counts due whole none off)
    (by rw [ec]; exact k) (by decide) c fun t _ x => ?_
  rw [ec] at x
  have estT : t.rd F.PWR_EST_MW = sat 24 w := by rw [x.rd _ (by decide), rd_nextWindow, est]
  refine ⟨estT, ?_, by rw [x.rd _ (by decide), rd_nextWindow, source], by rw [x.power]; rfl, x.rest_power ⟨rfl, rfl, rfl, rfl, rfl⟩, x.keeps_keys⟩
  rw [estT, x.rd _ (by decide), rd_nextWindow, used]

/-! ### Telemetry (R86, R490) -/

/-- A good sample is taken: estimate-only operation ends. -/
def Hub.sampled (s : Hub) (mw : Nat) : Hub :=
  ({ s with power := { s.power with
      sample := some mw, sampleAt := s.time.hclk, everSample := true, missRaised := false, sampleInWin := true } } : Hub).wr
    F.PWR_STATUS_EST_ONLY 0

theorem Corked.sampled (s : Hub) (mw : Nat) : Corked (ofKeys [R.PWR_STATUS]) s (s.sampled mw) :=
  (Corked.withPower s _).trans (.wr _ _ (by decide))

theorem telemFrame_good {s : Hub} {w : Nat} (good : crc4 28 w 0 = bitsOf w 28 4) (free : s.flag F.PWR_CTRL_EST_ONLY_FORCE = false) :
    s.telemFrame w =
      if s.power.missRaised then (s.sampled (w % 2 ^ 24)).raise Ev.TELEM_RESTORED else s.sampled (w % 2 ^ 24) := by
  simp only [Hub.telemFrame, good, bne_self_eq_false, free, Bool.false_eq_true, if_false, Hub.sampled]

theorem telemFrame_bad {s : Hub} {w : Nat} (bad : crc4 28 w 0 ≠ bitsOf w 28 4) : s.telemFrame w = s.err Er.PWR_TELEM_FORMAT := by
  rw [Hub.telemFrame, if_pos (bne_iff_ne.mpr bad)]

theorem exec_pwrTelemFrame (v : Word) (s : State) : exec (.pwrTelemFrame v) s = run (fun h => h.telemFrame v.toNat) s := rfl

/-- What a taken sample shows, with TELEM_RESTORED raised or not. -/
theorem CorkEffect.sampled_shows {keys : List Nat} {s h t : Hub} {mw : Nat} (x : CorkEffect (ofKeys keys) s h t)
    (regs : h.regs = (s.sampled mw).regs) (power : h.power = (s.sampled mw).power)
    (same : h.time = s.time ∧ h.doms = s.doms ∧ h.tiles = s.tiles ∧ h.fed = s.fed ∧ h.corkShown = s.corkShown) :
    t.power.sample = some mw ∧ t.power.sampleAt = s.time.hclk ∧ t.rd F.PWR_STATUS_EST_ONLY = 0 ∧
    s.rest t = { s with power := t.power } ∧ s.keeps t keys := by
  refine ⟨?_, ?_, ?_, x.rest_power same, x.keeps_keys⟩
  · rw [x.power, power]; rfl
  · rw [x.power, power]; rfl
  · rw [x.rd _ (by decide), Hub.rd_congr regs]
    exact Hub.rd_wr _ _ _ (by decide)

theorem pwrTelemFrame_good_clause (s : State) (v : Word) (c : s.hub.calm = true) (good : crc4 28 v.toNat 0 = bitsOf v.toNat 28 4)
    (free : s.hub.flag F.PWR_CTRL_EST_ONLY_FORCE = false) :
    Answers (.pwrTelemFrame v) s fun h =>
      h.power.sample = some (v.toNat % 2 ^ 24) ∧ h.power.sampleAt = s.hub.time.hclk ∧ h.rd F.PWR_STATUS_EST_ONLY = 0 ∧
      s.hub.rest h = { s.hub with power := h.power } ∧ s.hub.keeps h [R.PWR_STATUS] := by
  have e := telemFrame_good good free
  have k := Corked.sampled s.hub (v.toNat % 2 ^ 24)
  cases missed : s.hub.power.missRaised <;> rw [missed] at e
  · exact answers_corked (exec_pwrTelemFrame v s) e k (by decide) c fun t _ x => x.sampled_shows rfl rfl ⟨rfl, rfl, rfl, rfl, rfl⟩
  · exact answers_corked (exec_pwrTelemFrame v s) e (k.trans (.raise _ _ (by decide))) (by decide) c fun t _ x =>
      x.sampled_shows rfl rfl ⟨rfl, rfl, rfl, rfl, rfl⟩

theorem pwrTelemFrame_bad_clause (s : State) (v : Word) (c : s.hub.calm = true) (bad : crc4 28 v.toNat 0 ≠ bitsOf v.toNat 28 4) :
    Answers (.pwrTelemFrame v) s fun h =>
      h.hasErr Er.PWR_TELEM_FORMAT = true ∧ s.hub.rest h = s.hub ∧
      s.hub.keeps h [R.PG_ERROR + Pg.PWR * 0x1000, R.PG_ERROR_INFO + Pg.PWR * 0x1000] := by
  have k : Touched [R.PG_ERROR + Pg.PWR * 0x1000, R.PG_ERROR_INFO + Pg.PWR * 0x1000] s.hub (s.hub.err Er.PWR_TELEM_FORMAT) :=
    Touched.err _ (by decide) (by decide)
  refine answers_touched (exec_pwrTelemFrame v s) (telemFrame_bad bad) k (by decide) c fun t x => ⟨?_, x.rest, x.keeps⟩
  rw [x.hasErr]; exact Hub.hasErr_err _ _ (by decide)

/-- PWR_TELEM_TIMEOUT has passed: the loop is estimate-only. -/
def Hub.unsampled (s : Hub) : Hub :=
  (({ s with power := { s.power with missRaised := true } } : Hub).wr F.PWR_STATUS_EST_ONLY 1).raise Ev.TELEM_MISSING

theorem telemMissing_due {s : Hub} (released : s.boot.released = true) (free : s.flag F.PWR_CTRL_EST_ONLY_FORCE = false)
    (new : s.power.missRaised = false) (never : s.power.everSample = false)
    (late : s.elapsed s.power.missFrom (s.rd F.PWR_TELEM_TIMEOUT_HCLK) = true) : s.telemMissing = s.unsampled := by
  simp only [Hub.telemMissing, released, free, new, never, late, Bool.false_and, Bool.false_eq_true, if_false, Bool.not_false,
    Bool.and_self, if_true, Hub.unsampled]

theorem exec_telemMissing (s : State) : exec .telemMissing s = run Hub.telemMissing s := rfl

theorem telemMissing_clause (s : State) (c : s.hub.calm = true) (released : s.hub.boot.released = true)
    (free : s.hub.flag F.PWR_CTRL_EST_ONLY_FORCE = false) (new : s.hub.power.missRaised = false) (never : s.hub.power.everSample = false)
    (late : s.hub.elapsed s.hub.power.missFrom (s.hub.rd F.PWR_TELEM_TIMEOUT_HCLK) = true) :
    Answers .telemMissing s fun h =>
      h.rd F.PWR_STATUS_EST_ONLY = 1 ∧ h.power.missRaised = true ∧ h.shows Ev.TELEM_MISSING 0 = true ∧
      s.hub.rest h = { s.hub with power := h.power } ∧ s.hub.keeps h [R.PWR_STATUS] := by
  have k : Corked (ofKeys [R.PWR_STATUS]) s.hub s.hub.unsampled :=
    ((Corked.withPower s.hub _).trans (.wr _ _ (by decide))).trans (.raise _ _ (by decide))
  refine answers_corked (exec_telemMissing s) (telemMissing_due released free new never late) k (by decide) c fun t _ x =>
    ⟨?_, by rw [x.power]; rfl, ?_, x.rest_power ⟨rfl, rfl, rfl, rfl, rfl⟩, x.keeps_keys⟩
  · rw [x.rd _ (by decide)]
    exact Hub.rd_wr _ _ _ (by decide)
  · exact x.shows_raised ⟨_, List.mem_append_right _ (List.mem_singleton_self _), rfl, rfl⟩ (fun _ _ e => by cases e; decide)

/-! ### PWR_CTRL (R86, R88) -/

/-- PWR_CTRL is a register of RW bits [2:0] and the command bit CAL_START. -/
theorem regDef_pwrCtrl : regDef R.PWR_CTRL = some ⟨0x040, [⟨0, 1, .rw, 1⟩, ⟨1, 1, .rw, 0⟩, ⟨2, 1, .rw, 0⟩, ⟨3, 1, .w1s, 0⟩]⟩ := by decide

/-- PWR_CTRL with its RW bits from the value `v`. -/
def Hub.storeCtrl (s : Hub) (v : Nat) : Hub :=
  s.setReg R.PWR_CTRL ((s.reg R.PWR_CTRL ^^^ (s.reg R.PWR_CTRL &&& 7)) ||| (v &&& 7))

theorem storeCtrl_force (s : Hub) (v : Nat) : (s.storeCtrl v).rd F.PWR_CTRL_EST_ONLY_FORCE = bitsOf v 2 1 := by
  have stored := Hub.rd_setReg s F.PWR_CTRL_EST_ONLY_FORCE ((s.reg R.PWR_CTRL ^^^ (s.reg R.PWR_CTRL &&& 7)) ||| (v &&& 7)) (by decide)
  exact stored.trans (bitsOf_merge _ _ (by decide))

/-- A write of PWR_CTRL that the bus takes: the RW bits are stored, then forcing and calibration follow. -/
theorem regWrite_pwrCtrl {s : Hub} {r : Req} {v : Nat} (small : v < 2 ^ 32) (t : s.takesWrite r R.PWR_CTRL v = true) {h : Hub}
    (e : (s.storeCtrl v).pwrCtrlWritten (s.flag F.PWR_CTRL_EST_ONLY_FORCE) (bitAt v 3) = h) (i : h.rel.inject = none) :
    s.regWrite r R.PWR_CTRL v = h.respond r 0 St.OK := by
  have word : v % 2 ^ 32 = v := Nat.mod_eq_of_lt small
  have store : s.storeWrite R.PWR_CTRL v = s.storeCtrl v := storeWrite_rw regDef_pwrCtrl (by decide) (by decide)
  have write : s.writeReg r R.PWR_CTRL v = h := by
    rw [← e, ← store]
    show (s.storeWrite R.PWR_CTRL (v % 2 ^ 32)).pwrCtrlWritten _ (bitAt (v % 2 ^ 32) 3) = _
    rw [word]
  rw [regWrite_taken (by decide) (by rwa [word]) (by rw [write]; exact i), write]

theorem bitAt_eq_bitsOf (v n : Nat) : bitAt v n = (bitsOf v n 1 == 1) := rfl

theorem bitsOf_or (v w lo n : Nat) : bitsOf (v ||| w) lo n = bitsOf v lo n ||| bitsOf w lo n := by
  simp only [bitsOf, Nat.shiftRight_or_distrib, Nat.or_mod_two_pow]

/-- A field set within a word leaves a word. -/
theorem setBits_lt {v lo w n : Nat} (x : Nat) (h : v < 2 ^ n) (fits : lo + w ≤ n) : setBits v lo w x < 2 ^ n := by
  have high : setBits v lo w x / 2 ^ (lo + w) = v / 2 ^ (lo + w) := by
    have kept := bitsOf_setBits_above v lo w x (lo + w) (n + setBits v lo w x) (le_refl _)
    simp only [bitsOf, Nat.shiftRight_eq_div_pow] at kept
    have small {m : Nat} (b : m ≤ v ∨ m ≤ setBits v lo w x) : m / 2 ^ (lo + w) < 2 ^ (n + setBits v lo w x) := by
      refine (Nat.div_le_self _ _).trans_lt ?_
      have big : setBits v lo w x < 2 ^ setBits v lo w x := Nat.lt_two_pow_self
      have up : 2 ^ n ≤ 2 ^ (n + setBits v lo w x) := Nat.pow_le_pow_right (by decide) (Nat.le_add_right _ _)
      have up' : 2 ^ setBits v lo w x ≤ 2 ^ (n + setBits v lo w x) := Nat.pow_le_pow_right (by decide) (Nat.le_add_left _ _)
      omega
    rwa [Nat.mod_eq_of_lt (small (.inr (le_refl _))), Nat.mod_eq_of_lt (small (.inl (le_refl _)))] at kept
  have split : 2 ^ n = 2 ^ (n - (lo + w)) * 2 ^ (lo + w) := by rw [← pow_add]; congr 1; omega
  rw [split] at h ⊢
  rw [← Nat.div_lt_iff_lt_mul (Nat.two_pow_pos _)] at h ⊢
  rwa [high]

/-- Where forcing stays as it is, a write of PWR_CTRL starts a calibration or does nothing more. -/
theorem pwrCtrlWritten_same (s : Hub) (start : Bool) :
    s.pwrCtrlWritten (s.flag F.PWR_CTRL_EST_ONLY_FORCE) start = if start && s.power.calLeft == 0 then s.calStart else s := by
  simp only [Hub.pwrCtrlWritten, Bool.and_not_self, Bool.not_and_self, Bool.false_eq_true, if_false]

theorem Corked.calStart (s : Hub) : Corked (ofKeys [R.PWR_CTRL]) s s.calStart := (Corked.withPower s _).trans (.wr _ _ (by decide))

theorem Corked.storeCtrl (s : Hub) (v : Nat) {keys : List Nat} (k : R.PWR_CTRL ∈ keys) : Corked (ofKeys keys) s (s.storeCtrl v) :=
  .setReg s _ (by simpa [ofKeys] using k)

theorem exec_calStart (r : Req) (s : State) :
    exec (.calStart r) s = run (fun h => h.regWrite r R.PWR_CTRL (h.reg R.PWR_CTRL ||| 8)) s := rfl

theorem calStart_clause (s : State) (r : Req) (c : s.hub.calm = true)
    (t : s.hub.takesWrite r R.PWR_CTRL (s.hub.reg R.PWR_CTRL ||| 8) = true) (idle : s.hub.power.calLeft = 0) :
    Answers (.calStart r) s fun h =>
      h.tookWrite r ∧ h.power.calLeft = 256 ∧ h.power.calM = 0 ∧ h.power.calE = 0 ∧ h.rd F.PWR_CTRL_CAL_START = 1 ∧
      h.rd F.PWR_CTRL_EST_ONLY_FORCE = s.hub.rd F.PWR_CTRL_EST_ONLY_FORCE ∧ s.hub.rest h = { s.hub with power := h.power } ∧
      s.hub.keeps h [R.PWR_CTRL] := by
  have small : s.hub.reg R.PWR_CTRL ||| 8 < 2 ^ 32 := Nat.or_lt_two_pow (s.hub.reg_lt _) (by decide)
  have start : bitAt (s.hub.reg R.PWR_CTRL ||| 8) 3 = true := by
    rw [bitAt_or]; exact Bool.or_true _
  have force : (s.hub.storeCtrl (s.hub.reg R.PWR_CTRL ||| 8)).rd F.PWR_CTRL_EST_ONLY_FORCE = s.hub.rd F.PWR_CTRL_EST_ONLY_FORCE := by
    rw [storeCtrl_force, bitsOf_or]
    exact Nat.or_zero _
  have e : (s.hub.storeCtrl (s.hub.reg R.PWR_CTRL ||| 8)).pwrCtrlWritten (s.hub.flag F.PWR_CTRL_EST_ONLY_FORCE)
      (bitAt (s.hub.reg R.PWR_CTRL ||| 8) 3) = (s.hub.storeCtrl (s.hub.reg R.PWR_CTRL ||| 8)).calStart := by
    have same : s.hub.flag F.PWR_CTRL_EST_ONLY_FORCE =
        (s.hub.storeCtrl (s.hub.reg R.PWR_CTRL ||| 8)).flag F.PWR_CTRL_EST_ONLY_FORCE := by rw [Hub.flag, Hub.flag, force]
    have none : (s.hub.storeCtrl (s.hub.reg R.PWR_CTRL ||| 8)).power.calLeft = 0 := idle
    rw [same, pwrCtrlWritten_same, start, none]
    rfl
  have k := (Corked.storeCtrl s.hub (s.hub.reg R.PWR_CTRL ||| 8) (by simp)).trans (Corked.calStart _)
  refine answers_corkedWrite (exec_calStart r s) (regWrite_pwrCtrl small t e (calm_unplanted (h := s.hub) c)) k (by decide) c fun h took x =>
    ⟨took, by rw [x.power]; rfl, by rw [x.power]; rfl, by rw [x.power]; rfl, ?_, ?_, x.rest_power ⟨rfl, rfl, rfl, rfl, rfl⟩, x.keeps_keys⟩
  · rw [x.rd _ (by decide)]
    exact Hub.rd_wr _ _ _ (by decide)
  · rw [x.rd _ (by decide), Hub.calStart, Hub.rd_wr_apart _ _ _ _ (by decide) (by decide)]
    exact force

/-- The value that EST_ONLY_FORCE writes: forcing as given, CAL_START 0 and the other bits as they stand. -/
def Hub.forceWord (s : Hub) (on : Nat) : Nat := setBits (setBits (s.reg R.PWR_CTRL) 3 1 0) 2 1 on

theorem forceWord_lt (s : Hub) (on : Nat) : s.forceWord on < 2 ^ 32 :=
  setBits_lt _ (setBits_lt _ (s.reg_lt _) (by decide)) (by decide)

theorem forceWord_start (s : Hub) (on : Nat) : bitAt (s.forceWord on) 3 = false := by
  rw [bitAt_eq_bitsOf, Hub.forceWord, bitsOf_setBits_above _ _ _ _ _ _ (le_refl _), bitsOf_setBits]
  rfl

/-- PWR_CTRL after the write of EST_ONLY_FORCE shows forcing as written. -/
theorem storeCtrl_forceWord (s : Hub) (on : Nat) : (s.storeCtrl (s.forceWord on)).rd F.PWR_CTRL_EST_ONLY_FORCE = on % 2 ^ 1 := by
  rw [storeCtrl_force, Hub.forceWord, bitsOf_setBits]

/-- Forcing begins (R86): the loop is estimate-only and uses the estimate. -/
def Hub.beginForcing (s : Hub) : Hub :=
  (({ s with power := { s.power with missRaised := false } } : Hub).wr F.PWR_STATUS_EST_ONLY 1).wr F.PWR_USED_SOURCE 2

theorem Corked.beginForcing (s : Hub) :
    Corked (ofKeys [R.PWR_CTRL, R.PWR_STATUS, F.PWR_USED_MW.addr]) s s.beginForcing :=
  ((Corked.withPower s _).trans (.wr _ _ (by decide))).trans (.wr _ _ (by decide))

/-- Forcing ends (R86): the wait for a sample begins again. -/
def Hub.endForcing (s : Hub) : Hub := { s with power := { s.power with missFrom := s.time.hclk } }

theorem exec_estOnlyForce (r : Req) (on : Bool) (s : State) :
    exec (.estOnlyForce r on) s = run (fun h => h.regWrite r R.PWR_CTRL (h.forceWord (b2n on))) s := rfl

theorem estOnlyForce_on_clause (s : State) (r : Req) (c : s.hub.calm = true)
    (t : s.hub.takesWrite r R.PWR_CTRL (setBits (setBits (s.hub.reg R.PWR_CTRL) 3 1 0) 2 1 1) = true)
    (free : s.hub.flag F.PWR_CTRL_EST_ONLY_FORCE = false) :
    Answers (.estOnlyForce r true) s fun h =>
      h.tookWrite r ∧ h.rd F.PWR_CTRL_EST_ONLY_FORCE = 1 ∧ h.rd F.PWR_STATUS_EST_ONLY = 1 ∧ h.rd F.PWR_USED_SOURCE = 2 ∧
      s.hub.rest h = { s.hub with power := h.power } ∧ s.hub.keeps h [R.PWR_CTRL, R.PWR_STATUS, F.PWR_USED_MW.addr] := by
  have force := storeCtrl_forceWord s.hub 1
  have e : (s.hub.storeCtrl (s.hub.forceWord 1)).pwrCtrlWritten (s.hub.flag F.PWR_CTRL_EST_ONLY_FORCE) (bitAt (s.hub.forceWord 1) 3) =
      (s.hub.storeCtrl (s.hub.forceWord 1)).beginForcing := by
    have forced : (s.hub.storeCtrl (s.hub.forceWord 1)).flag F.PWR_CTRL_EST_ONLY_FORCE = true := by rw [Hub.flag, force]; rfl
    simp only [Hub.pwrCtrlWritten, forced, free, forceWord_start, Bool.not_false, Bool.and_self, if_true, Bool.false_and,
      Bool.false_eq_true, if_false, Hub.beginForcing]
  have k := (Corked.storeCtrl s.hub (s.hub.forceWord 1) (by decide)).trans (Corked.beginForcing _)
  refine answers_corkedWrite (exec_estOnlyForce r true s) (regWrite_pwrCtrl (forceWord_lt s.hub 1) t e (calm_unplanted (h := s.hub) c)) k
    (by decide) c fun h took x => ⟨took, ?_, ?_, ?_, x.rest_power ⟨rfl, rfl, rfl, rfl, rfl⟩, x.keeps_keys⟩ <;>
    rw [x.rd _ (by decide), Hub.beginForcing]
  · rw [Hub.rd_wr_apart _ _ _ _ (by decide) (by decide), Hub.rd_wr_apart _ _ _ _ (by decide) (by decide)]
    exact force
  · rw [Hub.rd_wr_apart _ _ _ _ (by decide) (by decide)]
    exact Hub.rd_wr _ _ _ (by decide)
  · exact Hub.rd_wr _ _ _ (by decide)

theorem estOnlyForce_off_clause (s : State) (r : Req) (c : s.hub.calm = true)
    (t : s.hub.takesWrite r R.PWR_CTRL (setBits (setBits (s.hub.reg R.PWR_CTRL) 3 1 0) 2 1 0) = true)
    (forced : s.hub.flag F.PWR_CTRL_EST_ONLY_FORCE = true) :
    Answers (.estOnlyForce r false) s fun h =>
      h.tookWrite r ∧ h.rd F.PWR_CTRL_EST_ONLY_FORCE = 0 ∧ h.power.missFrom = s.hub.time.hclk ∧
      s.hub.rest h = { s.hub with power := h.power } ∧ s.hub.keeps h [R.PWR_CTRL] := by
  have force := storeCtrl_forceWord s.hub 0
  have e : (s.hub.storeCtrl (s.hub.forceWord 0)).pwrCtrlWritten (s.hub.flag F.PWR_CTRL_EST_ONLY_FORCE) (bitAt (s.hub.forceWord 0) 3) =
      (s.hub.storeCtrl (s.hub.forceWord 0)).endForcing := by
    have free : (s.hub.storeCtrl (s.hub.forceWord 0)).flag F.PWR_CTRL_EST_ONLY_FORCE = false := by rw [Hub.flag, force]; rfl
    simp only [Hub.pwrCtrlWritten, forced, free, forceWord_start, Bool.not_false, Bool.and_self, if_true, Bool.false_and,
      Bool.false_eq_true, if_false, Hub.endForcing]
  have k : Corked (ofKeys [R.PWR_CTRL]) s.hub (s.hub.storeCtrl (s.hub.forceWord 0)).endForcing :=
    (Corked.storeCtrl s.hub (s.hub.forceWord 0) (by decide)).trans (.withPower _ _)
  refine answers_corkedWrite (exec_estOnlyForce r false s) (regWrite_pwrCtrl (forceWord_lt s.hub 0) t e (calm_unplanted (h := s.hub) c)) k
    (by decide) c fun h took x => ⟨took, ?_, by rw [x.power]; rfl, x.rest_power ⟨rfl, rfl, rfl, rfl, rfl⟩, x.keeps_keys⟩
  rw [x.rd _ (by decide)]
  exact force

/-! ### PWR_CLKREQ (R92) -/

/-- PWR_CLKREQ is a register of RW bits [2:0], the command bit GO and STATUS. -/
theorem regDef_pwrClkreq : regDef R.PWR_CLKREQ = some ⟨0x0A4, [⟨0, 1, .rw, 0⟩, ⟨1, 2, .rw, 0⟩, ⟨3, 1, .w1s, 0⟩, ⟨4, 8, .ro, 0⟩]⟩ := by
  decide

/-- PWR_CLKREQ with its RW bits from the value `v`. -/
def Hub.storeClkreq (s : Hub) (v : Nat) : Hub :=
  s.setReg R.PWR_CLKREQ ((s.reg R.PWR_CLKREQ ^^^ (s.reg R.PWR_CLKREQ &&& 7)) ||| (v &&& 7))

theorem storeClkreq_rd (s : Hub) (v : Nat) :
    (s.storeClkreq v).rd F.PWR_CLKREQ_PART = bitsOf v 0 1 ∧ (s.storeClkreq v).rd F.PWR_CLKREQ_DIV = bitsOf v 1 2 := by
  have stored (f : Fld) (a : f.addr = R.PWR_CLKREQ) (fits : f.lo + f.width ≤ 32)
      (low : ∀ i < f.width, Nat.testBit 7 (f.lo + i) = true) : (s.storeClkreq v).rd f = bitsOf v f.lo f.width := by
    rw [Hub.storeClkreq, ← a, Hub.rd_setReg _ _ _ fits]
    exact bitsOf_merge _ _ low
  exact ⟨stored F.PWR_CLKREQ_PART rfl (by decide) (by decide), stored F.PWR_CLKREQ_DIV rfl (by decide) (by decide)⟩

/-- What decides on a clock change does not look at PWR_CLKREQ. -/
theorem Touched.clkchg {s h : Hub} (k : Touched [R.PWR_CLKREQ] s h) (part declared : Nat) :
    h.now = s.now ∧ h.clkchgCheck part declared = s.clkchgCheck part declared ∧ h.divCode part = s.divCode part ∧
    h.applyGcn part declared = s.applyGcn part declared := by
  have same {α : Type} (g : Hub → α) := congrArg g k.core
  have doms : h.doms = s.doms := same Hub.doms
  have tiles : h.tiles = s.tiles := same Hub.tiles
  have corks : h.corks = s.corks := same Hub.corks
  have harv : h.harv = s.harv := same Hub.harv
  have time : h.time = s.time := same Hub.time
  have epoch : h.epoch = s.epoch := k.rd _ (by decide)
  have timeOk : h.timeOk = s.timeOk := by simp only [Hub.timeOk, epoch]
  have now : h.now = s.now := by simp only [Hub.now, timeOk, time]
  have seam : h.rd F.GLB_GRID_SEAM = s.rd F.GLB_GRID_SEAM := k.rd _ (by decide)
  have federated (z : Nat) : h.rdB F.FED_JOB_FEDERATED z = s.rdB F.FED_JOB_FEDERATED z := by
    rw [Hub.rdB, k.regs _ _ (by simp [regKey, F.FED_JOB_FEDERATED, R.PWR_CLKREQ]; omega), Hub.rdB]
  have slotIn : h.slotIn = s.slotIn := by
    funext z p
    simp only [Hub.slotIn, Hub.slotTiles, Hub.partOf, Hub.isEast, tiles, seam]
  have spans : h.spans = s.spans := by funext z; simp only [Hub.spans, slotIn]
  have openSlots : h.openSlots = s.openSlots := by simp only [Hub.openSlots, doms]
  have anySpans : h.anySpans = s.anySpans := by simp only [Hub.anySpans, openSlots, spans]
  have pending := pendingChg_congr time part
  have busy (z : Nat) : h.slotBusy z = s.slotBusy z := by simp only [Hub.slotBusy, corks, harv]
  have dom (z : Nat) : h.dom z = s.dom z := by rw [Hub.dom, doms, Hub.dom]
  have divCode : h.divCode part = s.divCode part := by
    simp only [Hub.divCode, k.rd F.TIME_CLK_DIV_WEST (by decide), k.rd F.TIME_CLK_DIV_EAST (by decide)]
  have origin : h.origin part = s.origin part := by
    simp only [Hub.origin, k.rd F.TIME_ORIGIN_W_G0 (by decide), k.rd F.TIME_ORIGIN_E_G0 (by decide)]
  refine ⟨now, ?_, divCode, by simp only [Hub.applyGcn, divCode, origin]⟩
  simp only [Hub.clkchgCheck, timeOk, anySpans, openSlots, pending, busy, dom, now, slotIn, federated]

/-- The word that PWR_CLKREQ writes: the partition, the divider code and GO. -/
def clkreqWord (part : Fin 2) (div : Fin 4) : Nat := part + 2 * div + 8

theorem clkreqWord_fields (part : Fin 2) (div : Fin 4) :
    clkreqWord part div < 2 ^ 32 ∧ bitsOf (clkreqWord part div) 0 1 = part ∧ bitsOf (clkreqWord part div) 1 2 = div ∧
    bitAt (clkreqWord part div) 3 = true := by
  revert part div; decide

/-- PWR_CLKREQ after the write of GO, with the status `st`. -/
def Hub.clkreqShown (s : Hub) (v st : Nat) : Hub := (s.storeClkreq v).wr F.PWR_CLKREQ_STATUS st

theorem Touched.clkreqShown (s : Hub) (v st : Nat) : Touched [R.PWR_CLKREQ] s (s.clkreqShown v st) :=
  (Touched.setReg s _ (by decide)).trans (.wr _ _ (by decide))

theorem Corked.clkreqShown (s : Hub) (v st : Nat) {keys : List Nat} (k : R.PWR_CLKREQ ∈ keys) :
    Corked (ofKeys keys) s (s.clkreqShown v st) :=
  have touched : ofKeys keys R.PWR_CLKREQ = true := by simpa [ofKeys] using k
  (Corked.setReg s _ touched).trans (.wr _ _ touched)

/-- GO asks for a clock change of the partition 4,096 periods ahead (R92). -/
theorem pwrClkreq_go {s : Hub} (part : Fin 2) (div : Fin 4) (safe : s.isSafe = false) {st : Nat}
    (check : s.clkchgCheck part (s.now + 4096) = st) :
    (s.storeClkreq (clkreqWord part div)).pwrClkreq =
      if st == St.OK then (s.clkreqShown (clkreqWord part div) st).acceptChg part div (s.now + 4096)
      else (s.clkreqShown (clkreqWord part div) st).raise Ev.CLKREQ_REFUSED := by
  obtain ⟨-, low, high, -⟩ := clkreqWord_fields part div
  obtain ⟨p, d⟩ := storeClkreq_rd s (clkreqWord part div)
  have k : Touched [R.PWR_CLKREQ] s (s.storeClkreq (clkreqWord part div)) := .setReg s _ (by decide)
  obtain ⟨now, same, -⟩ := k.clkchg part (s.now + 4096)
  have notSafe : (s.storeClkreq (clkreqWord part div)).isSafe = false := safe
  simp only [Hub.pwrClkreq, p, d, low, high, now, same, check, notSafe, Bool.false_eq_true, if_false, Hub.clkreqShown]

theorem exec_pwrClkreq (r : Req) (part : Fin 2) (div : Fin 4) (s : State) :
    exec (.pwrClkreq r part div) s = run (fun h => h.regWrite r R.PWR_CLKREQ (clkreqWord part div)) s := rfl

/-- A write of GO that the bus takes. -/
theorem regWrite_clkreq {s : Hub} {r : Req} {part : Fin 2} {div : Fin 4} (t : s.takesWrite r R.PWR_CLKREQ (clkreqWord part div) = true)
    {h : Hub} (e : (s.storeClkreq (clkreqWord part div)).pwrClkreq = h) (i : h.rel.inject = none) :
    s.regWrite r R.PWR_CLKREQ (clkreqWord part div) = h.respond r 0 St.OK := by
  obtain ⟨small, -, -, go⟩ := clkreqWord_fields part div
  have word : clkreqWord part div % 2 ^ 32 = clkreqWord part div := Nat.mod_eq_of_lt small
  have store : s.storeWrite R.PWR_CLKREQ (clkreqWord part div) = s.storeClkreq (clkreqWord part div) :=
    storeWrite_rw regDef_pwrClkreq (by decide) (by decide)
  have write : s.writeReg r R.PWR_CLKREQ (clkreqWord part div) = h := by
    rw [← e, ← store]
    show (if bitAt (clkreqWord part div % 2 ^ 32) 3 then (s.storeWrite R.PWR_CLKREQ (clkreqWord part div % 2 ^ 32)).pwrClkreq
      else s.storeWrite R.PWR_CLKREQ (clkreqWord part div % 2 ^ 32)) = _
    rw [word, go, if_pos rfl]
  rw [regWrite_taken (by decide) (by rwa [word]) (by rw [write]; exact i), write]

theorem clkchgCheck_lt (s : Hub) (part declared : Nat) : s.clkchgCheck part declared < 2 ^ 8 := by
  unfold Hub.clkchgCheck
  split_ifs <;> decide

theorem clkreqShown_status (s : Hub) (v : Nat) {st : Nat} (n : st < 2 ^ 8) : (s.clkreqShown v st).rd F.PWR_CLKREQ_STATUS = st := by
  rw [Hub.clkreqShown, Hub.rd_wr _ _ _ (by decide)]
  exact Nat.mod_eq_of_lt n

/-- A new divider code becomes a pending change, shown in TIME_CLKCHG_APPLY (R54). -/
theorem acceptChg_new {s : Hub} {part code : Nat} (new : code ≠ s.divCode part) (declared : Nat) :
    s.acceptChg part code declared =
      (s.setChg part (some (code, s.applyGcn part declared))).setReg64 R.TIME_CLKCHG_APPLY_LO (s.applyGcn part declared) := by
  simp only [Hub.acceptChg, beq_eq_false_iff_ne.mpr new, Bool.false_eq_true, if_false]

theorem Corked.setChg (s : Hub) (part : Nat) (x : Option (Nat × Nat)) {touched : Nat → Bool} (k : touched R.TIME_CLK_DIV = true) :
    Corked touched s (s.setChg part x) := by
  obtain ⟨time, f, v, e, a⟩ := setChg_parts s part x
  rw [e]
  exact (Corked.of_core rfl : Corked touched s { s with time := time }).trans (.wr _ _ (by rwa [a]))

/-- A pending change is the time's: nothing else beside its registers changes. -/
theorem setChg_same (s : Hub) (part : Nat) (x : Option (Nat × Nat)) :
    (s.setChg part x).power = s.power ∧ (s.setChg part x).doms = s.doms ∧ (s.setChg part x).tiles = s.tiles ∧
    (s.setChg part x).fed = s.fed ∧ (s.setChg part x).corkShown = s.corkShown := by
  obtain ⟨time, f, v, e, -⟩ := setChg_parts s part x
  rw [e]
  exact ⟨rfl, rfl, rfl, rfl, rfl⟩

theorem pwrClkreq_clause (s : State) (r : Req) (part : Fin 2) (div : Fin 4) (c : s.hub.calm = true)
    (t : s.hub.takesWrite r R.PWR_CLKREQ (part + 2 * div + 8) = true) (safe : s.hub.isSafe = false)
    (ok : s.hub.clkchgCheck part (s.hub.now + 4096) = St.OK) (new : (div : Nat) ≠ s.hub.divCode part) :
    Answers (.pwrClkreq r part div) s fun h =>
      h.tookWrite r ∧ h.rd F.PWR_CLKREQ_STATUS = St.OK ∧
      h.pendingChg part = some ((div : Nat), s.hub.applyGcn part (s.hub.now + 4096)) ∧ s.hub.rest h = { s.hub with time := h.time } ∧
      s.hub.keeps h [R.PWR_CLKREQ, R.TIME_CLK_DIV, R.TIME_CLKCHG_APPLY_LO, R.TIME_CLKCHG_APPLY_LO + 4] := by
  generalize shown : s.hub.clkreqShown (clkreqWord part div) St.OK = g
  obtain ⟨-, -, divCode, apply⟩ := (Touched.clkreqShown s.hub (clkreqWord part div) St.OK).clkchg part (s.hub.now + 4096)
  rw [shown] at divCode apply
  have e := pwrClkreq_go part div safe ok
  rw [if_pos (beq_self_eq_true _), shown, acceptChg_new (by rwa [divCode]), apply] at e
  have k : Corked (ofKeys [R.PWR_CLKREQ, R.TIME_CLK_DIV, R.TIME_CLKCHG_APPLY_LO, R.TIME_CLKCHG_APPLY_LO + 4]) s.hub g := by
    rw [← shown]; exact .clkreqShown _ _ _ (by decide)
  have chg := (k.trans (.setChg g part (some ((div : Nat), s.hub.applyGcn part (s.hub.now + 4096))) (by decide))).trans
    (.setReg64 _ (a := R.TIME_CLKCHG_APPLY_LO) (s.hub.applyGcn part (s.hub.now + 4096)) (by decide) (by decide))
  obtain ⟨power, doms, tiles, fed, corkShown⟩ := setChg_same g part (some ((div : Nat), s.hub.applyGcn part (s.hub.now + 4096)))
  have same : g.power = s.hub.power ∧ g.doms = s.hub.doms ∧ g.tiles = s.hub.tiles ∧ g.fed = s.hub.fed ∧ g.corkShown = s.hub.corkShown := by
    rw [← shown]; exact ⟨rfl, rfl, rfl, rfl, rfl⟩
  have unplanted : (((g.setChg part (some ((div : Nat), s.hub.applyGcn part (s.hub.now + 4096)))).setReg64 R.TIME_CLKCHG_APPLY_LO
      (s.hub.applyGcn part (s.hub.now + 4096)))).rel.inject = none :=
    (congrArg (fun h => h.rel.inject) chg.core).trans (calm_unplanted c)
  refine answers_corkedWrite (exec_pwrClkreq r part div s) (regWrite_clkreq t e unplanted) chg (by decide) c fun h took x =>
    ⟨took, ?_, ?_, ?_, x.keeps_keys⟩
  · have kept := Corked.setChg (touched := ofKeys [R.TIME_CLK_DIV, R.TIME_CLKCHG_APPLY_LO, R.TIME_CLKCHG_APPLY_LO + 4]) g part
      (some ((div : Nat), s.hub.applyGcn part (s.hub.now + 4096))) (by decide)
    rw [x.rd _ (by decide), (kept.trans (.setReg64 _ (a := R.TIME_CLKCHG_APPLY_LO) _ (by decide) (by decide))).rd _ (by decide), ← shown]
    exact clkreqShown_status _ _ (by decide)
  · have time : h.time = (g.setChg part (some ((div : Nat), s.hub.applyGcn part (s.hub.now + 4096)))).time := x.time
    rw [pendingChg_congr time]
    exact (pendingChg_setChg g part _).1
  · obtain ⟨power', doms', tiles', fed', corkShown'⟩ := same
    rw [x.rest, x.time]
    simp only [Hub.setReg64_power, Hub.setReg64_doms, Hub.setReg64_tiles, Hub.setReg64_fed, Hub.setReg64_corkShown, power, doms, tiles, fed,
      corkShown, power', doms', tiles', fed', corkShown']

theorem pwrClkreq_refused_clause (s : State) (r : Req) (part : Fin 2) (div : Fin 4) (c : s.hub.calm = true)
    (t : s.hub.takesWrite r R.PWR_CLKREQ (part + 2 * div + 8) = true) (safe : s.hub.isSafe = false)
    (bad : s.hub.clkchgCheck part (s.hub.now + 4096) ≠ St.OK) :
    Answers (.pwrClkreq r part div) s fun h =>
      h.tookWrite r ∧ h.rd F.PWR_CLKREQ_STATUS = s.hub.clkchgCheck part (s.hub.now + 4096) ∧ h.shows Ev.CLKREQ_REFUSED 0 = true ∧
      s.hub.rest h = s.hub ∧ s.hub.keeps h [R.PWR_CLKREQ] := by
  have e := pwrClkreq_go part div safe rfl
  rw [if_neg (by simpa using bad)] at e
  have k : Corked (ofKeys [R.PWR_CLKREQ]) s.hub ((s.hub.clkreqShown (clkreqWord part div)
      (s.hub.clkchgCheck part (s.hub.now + 4096))).raise Ev.CLKREQ_REFUSED) :=
    (Corked.clkreqShown _ _ _ (by decide)).trans (.raise _ _ (by decide))
  refine answers_corkedWrite (exec_pwrClkreq r part div s) (regWrite_clkreq t e (calm_unplanted (h := s.hub) c)) k (by decide) c
    fun h took x => ⟨took, ?_, ?_, ?_, x.keeps_keys⟩
  · rw [x.rd _ (by decide)]
    exact clkreqShown_status _ _ (clkchgCheck_lt _ _ _)
  · exact x.shows_raised ⟨_, List.mem_append_right _ (List.mem_singleton_self _), rfl, rfl⟩ (fun _ _ e => by cases e; decide)
  · rw [x.rest]; rfl

/-! ### PWR_CTX (R84, R99) -/

/-- The issue cap `c` under a written PWR_CTX: 16 without CAP_TOL, else no less than the floor. -/
def fitCap (v c : Nat) : Nat := if v % 2 == 0 then 16 else if c < bitsOf v 1 5 then bitsOf v 1 5 else c

/-- PWR_CTX of slot `z` is stored, its domain becomes `d` and its tiles have their caps fitted. -/
def Hub.ctxStored (s : Hub) (z v : Nat) (d : Domain) : Hub :=
  doEach (s.slotTiles z) ((s.setRegB R.PWR_CTX z (v % 64)).setDom z d)
    (fun s t => s.setTile t { s.tile t with cap := fitCap v (s.tile t).cap })

/-- What fitting the caps of the tiles leaves alone. -/
theorem ctxStored_same {α : Type} (f : Hub → α) (n : ∀ s t x, f (Hub.setTile s t x) = f s) (s : Hub) (z v : Nat) (d : Domain) :
    f (s.ctxStored z v d) = f ((s.setRegB R.PWR_CTX z (v % 64)).setDom z d) := doEach_same f _ (fun _ _ => n _ _ _) _ _

theorem ctxStored_doms (s : Hub) (z v : Nat) (d : Domain) : (s.ctxStored z v d).doms = s.doms.set z d :=
  ctxStored_same Hub.doms (fun _ _ _ => rfl) s z v d

theorem ctxStored_regB (s : Hub) (z v : Nat) (d : Domain) : (s.ctxStored z v d).regB R.PWR_CTX z = v % 64 := by
  rw [ctxStored_same (fun h => h.regB R.PWR_CTX z) (fun _ _ _ => rfl) s z v d]
  exact (Hub.regB_setRegB s _ _ _).trans (Nat.mod_eq_of_lt ((Nat.mod_lt v (by decide)).trans (by decide)))

theorem ctxStored_rest (s : Hub) (z v : Nat) (d : Domain) :
    (s.ctxStored z v d).time = s.time ∧ (s.ctxStored z v d).power = s.power ∧ (s.ctxStored z v d).fed = s.fed ∧
    (s.ctxStored z v d).corkShown = s.corkShown :=
  ⟨ctxStored_same Hub.time (fun _ _ _ => rfl) s z v d, ctxStored_same Hub.power (fun _ _ _ => rfl) s z v d,
    ctxStored_same Hub.fed (fun _ _ _ => rfl) s z v d, ctxStored_same Hub.corkShown (fun _ _ _ => rfl) s z v d⟩

theorem Corked.ctxStored (s : Hub) (z v : Nat) (d : Domain) {touched : Nat → Bool} (k : touched (regKey R.PWR_CTX z) = true) :
    Corked touched s (s.ctxStored z v d) :=
  ((Corked.setRegB s _ k).trans (.setDom _ _ _)).trans (.doEach (fun _ _ => .setTile _ _ _) _ _)

theorem Corked.showCap (s : Hub) {touched : Nat → Bool} (k : touched F.PWR_STATUS_ISSUE_CAP.addr = true) : Corked touched s s.showCap :=
  .wr s _ k

/-- The registers that a write of PWR_CTX of slot `z` changes. -/
def ctxKeys (z : Nat) : List Nat := [regKey R.PWR_CTX z, F.PWR_STATUS_ISSUE_CAP.addr]

theorem ctxKeys_calm (z : Nat) : ∀ a ∈ calmKeys, ofKeys (ctxKeys z) a = false := by
  intro a m
  have low : a < 0x26058 := by
    simp only [calmKeys, List.mem_cons, List.not_mem_nil, or_false] at m
    rcases m with rfl | rfl | rfl <;> decide
  simp only [ofKeys, ctxKeys, regKey, R.PWR_CTX, F.PWR_STATUS_ISSUE_CAP, List.contains_eq_mem, List.mem_cons, List.not_mem_nil, or_false,
    decide_eq_false_iff_not]
  omega

/-- A write that is taken stores the word, fits the domain's cap and those of its tiles, and shows the smallest cap (R84, R99). -/
theorem pwrCtxWrite_takes {s : Hub} (r : Req) {v z : Nat} (sel : s.rd F.PWR_CTX_SEL_SLOT = z) (run : (s.dom z).st ≠ .running)
    (stopping : (s.dom z).st ≠ .stopping) (low : 1 ≤ bitsOf v 1 5) (high : bitsOf v 1 5 ≤ 16) :
    ∃ d, d.cap = fitCap v (s.dom z).cap ∧ s.pwrCtxWrite r v = (s.ctxStored z v d).showCap := by
  have notRuns : ((s.dom z).st == .running || (s.dom z).st == .stopping) = false := by simp [run, stopping]
  have inRange : (bitsOf v 1 5 == 0 || decide (16 < bitsOf v 1 5)) = false := by simp; omega
  simp only [Hub.pwrCtxWrite, sel, notRuns, inRange, Bool.false_eq_true, if_false]
  exact ⟨_, rfl, rfl⟩

theorem pwrCtxWrite_runs {s : Hub} (r : Req) {v z : Nat} (sel : s.rd F.PWR_CTX_SEL_SLOT = z)
    (runs : (s.dom z).st = .running ∨ (s.dom z).st = .stopping) :
    s.pwrCtxWrite r v = (s.err Er.PWR_CTX_RUNNING).errAt r R.PWR_CTX := by
  have runs : ((s.dom z).st == .running || (s.dom z).st == .stopping) = true := by simpa using runs
  simp only [Hub.pwrCtxWrite, sel, runs, if_true]

/-- A write of PWR_CTX that the bus takes. -/
theorem regWrite_pwrCtx {s : Hub} {r : Req} {v : Nat} (small : v < 2 ^ 32) (t : s.takesWrite r R.PWR_CTX v = true) {h : Hub}
    (e : s.pwrCtxWrite r v = h) (i : h.rel.inject = none) : s.regWrite r R.PWR_CTX v = h.respond r 0 St.OK := by
  have word : v % 2 ^ 32 = v := Nat.mod_eq_of_lt small
  have write : s.writeReg r R.PWR_CTX v = h := by
    rw [← e]
    show s.pwrCtxWrite r (v % 2 ^ 32) = _
    rw [word]
  rw [regWrite_taken (by decide) (by rwa [word]) (by rw [write]; exact i), write]

theorem exec_pwrCtxWrite (r : Req) (v : Word) (s : State) :
    exec (.pwrCtxWrite r v) s = run (fun h => h.regWrite r R.PWR_CTX v.toNat) s := rfl

theorem pwrCtxWrite_stopped_clause (s : State) (r : Req) (v : Word) (z : Nat) (c : s.hub.calm = true)
    (t : s.hub.takesWrite r R.PWR_CTX v.toNat = true) (sel : s.hub.rd F.PWR_CTX_SEL_SLOT = z) (run : (s.hub.dom z).st ≠ .running)
    (stopping : (s.hub.dom z).st ≠ .stopping) (low : 1 ≤ bitsOf v.toNat 1 5) (high : bitsOf v.toNat 1 5 ≤ 16) :
    Answers (.pwrCtxWrite r v) s fun h =>
      h.tookWrite r ∧ h.regB R.PWR_CTX z = v.toNat % 64 ∧
      (h.dom z).cap = (if v.toNat % 2 = 0 then 16 else if (s.hub.dom z).cap < bitsOf v.toNat 1 5 then bitsOf v.toNat 1 5 else (s.hub.dom z).cap) ∧
      (∀ y, y ≠ z → h.dom y = s.hub.dom y) ∧ s.hub.rest h = { s.hub with doms := h.doms, tiles := h.tiles } ∧
      s.hub.keeps h [regKey R.PWR_CTX z, F.PWR_STATUS_ISSUE_CAP.addr] := by
  obtain ⟨d, cap, e⟩ := pwrCtxWrite_takes r sel run stopping low high
  have k : Corked (ofKeys (ctxKeys z)) s.hub (s.hub.ctxStored z v.toNat d).showCap :=
    (Corked.ctxStored s.hub z v.toNat d (by simp [ofKeys, ctxKeys])).trans (.showCap _ (by simp [ofKeys, ctxKeys]))
  have unplanted : (s.hub.ctxStored z v.toNat d).showCap.rel.inject = none :=
    (congrArg (fun h => h.rel.inject) k.core).trans (calm_unplanted c)
  obtain ⟨time, power, fed, shown⟩ := ctxStored_rest s.hub z v.toNat d
  refine answers_corkedWrite (exec_pwrCtxWrite r v s) (regWrite_pwrCtx v.isLt t e unplanted) k (ctxKeys_calm z) c fun h took x => ?_
  have doms : h.doms = s.hub.doms.set z d := x.doms.trans (ctxStored_doms s.hub z v.toNat d)
  refine ⟨took, ?_, ?_, fun y other => ?_, ?_, x.keeps_keys⟩
  · rw [x.regs _ _ (by simp only [eventKey, regKey, R.PWR_CTX, R.PG_EVENT, R.REL_DEGRADED, Bool.or_eq_false_iff, beq_eq_false_iff_ne]; omega)]
    refine Eq.trans (Hub.regB_setRegB_ne _ _ ?_) (ctxStored_regB s.hub z v.toNat d)
    simp only [regKey, R.PWR_CTX, F.PWR_STATUS_ISSUE_CAP]; omega
  · rw [Hub.dom, doms, Tab.get_set_same, cap, fitCap]
    simp only [beq_iff_eq]
  · rw [Hub.dom, doms, Tab.get_set_ne _ other, Hub.dom]
  · rw [x.rest, x.doms, x.tiles]
    simp only [Hub.showCap, Hub.wr_time, Hub.wr_power, Hub.wr_fed, Hub.wr_corkShown, time, power, fed, shown]

theorem pwrCtxWrite_running_clause (s : State) (r : Req) (v : Word) (z : Nat) (c : s.hub.calm = true)
    (t : s.hub.takesWrite r R.PWR_CTX v.toNat = true) (sel : s.hub.rd F.PWR_CTX_SEL_SLOT = z)
    (runs : (s.hub.dom z).st = .running ∨ (s.hub.dom z).st = .stopping) :
    Answers (.pwrCtxWrite r v) s fun h =>
      h.tookWrite r ∧ h.hasErr Er.PWR_CTX_RUNNING = true ∧ h.regB R.PWR_CTX z = s.hub.regB R.PWR_CTX z ∧ s.hub.rest h = s.hub ∧
      s.hub.keeps h [R.PG_ERROR + Pg.PWR * 0x1000, R.PG_ERROR_INFO + Pg.PWR * 0x1000] := by
  have k : Corked (ofKeys [R.PG_ERROR + Pg.PWR * 0x1000, R.PG_ERROR_INFO + Pg.PWR * 0x1000]) s.hub
      ((s.hub.err Er.PWR_CTX_RUNNING).errAt r R.PWR_CTX) := (Corked.err _ (by decide) (by decide)).trans (.errAt _ _ (by decide))
  refine answers_corkedWrite (exec_pwrCtxWrite r v s)
    (regWrite_pwrCtx v.isLt t (pwrCtxWrite_runs r sel runs) (calm_unplanted (h := s.hub) c)) k (by decide) c fun h took x =>
    ⟨took, ?_, ?_, ?_, x.keeps_keys⟩
  · rw [x.hasErr, Hub.hasErr_errAt, Hub.hasErr_err _ _ (by decide)]
  · apply x.keeps
    · simp only [eventKey, regKey, R.PWR_CTX, R.PG_EVENT, R.REL_DEGRADED, Bool.or_eq_false_iff, beq_eq_false_iff_ne]; omega
    · simp only [ofKeys, regKey, R.PWR_CTX, R.PG_ERROR, R.PG_ERROR_INFO, Pg.PWR, List.contains_eq_mem, List.mem_cons, List.not_mem_nil,
        or_false, decide_eq_false_iff_not]
      omega
  · rw [x.rest]; rfl

/-- Settles O31: each of the eleven commands changes registers and at most one record of the hub beside them, and its effect on a calm hub
is the unit's own. -/
theorem the_power_loop_measures_calibrates_and_changes_clocks : Obligations.the_power_loop_measures_calibrates_and_changes_clocks :=
  ⟨powerWindowEnd_clause, calStart_clause, pwrTelemFrame_good_clause, pwrTelemFrame_bad_clause, telemMissing_clause, estOnlyForce_on_clause,
    estOnlyForce_off_clause, pwrClkreq_clause, pwrClkreq_refused_clause, pwrCtxWrite_stopped_clause, pwrCtxWrite_running_clause⟩

end Sys2Proof.Machine
end


section
/-! SUPPORT. The stall sources of a domain (R80 to R83): what a pattern, a manual source and a hold make of a calm hub. -/

namespace Sys2Proof.Machine

/-! ### Changes of the stall sources -/

/-- A change of the cork unit that leaves the time, the power windows and the operation shown alone. -/
structure Stalled (touched : Nat → Bool) (s h : Hub) : Prop extends Corked touched s h where
  time : h.time = s.time
  power : h.power = s.power
  shown : h.corkShown = s.corkShown

variable {touched : Nat → Bool}

theorem Stalled.trans {s t u : Hub} (h1 : Stalled touched s t) (h2 : Stalled touched t u) : Stalled touched s u :=
  ⟨h1.toCorked.trans h2.toCorked, h2.time.trans h1.time, h2.power.trans h1.power, h2.shown.trans h1.shown⟩

theorem Stalled.refl (s : Hub) : Stalled touched s s := ⟨.refl s, rfl, rfl, rfl⟩

theorem Stalled.setDom (s : Hub) (z : Nat) (d : Domain) : Stalled touched s (s.setDom z d) := ⟨.setDom s z d, rfl, rfl, rfl⟩

theorem Stalled.setTile (s : Hub) (t : Nat) (x : Tile) : Stalled touched s (s.setTile t x) := ⟨.setTile s t x, rfl, rfl, rfl⟩

theorem Stalled.doEach {α : Type} {f : Hub → α → Hub} (hf : ∀ s a, Stalled touched s (f s a)) (l : List α) (s : Hub) :
    Stalled touched s (Machine.doEach l s f) :=
  doEach_keeps (Stalled touched s) f (fun t a h => h.trans (hf t a)) l s (.refl s)

theorem Stalled.now {s h : Hub} (k : Stalled touched s h) (n : touched F.TIME_EPOCH_EPOCH.addr = false) : h.now = s.now := by
  rw [Hub.now, Hub.now, Hub.timeOk, Hub.timeOk, Hub.epoch, Hub.epoch, k.toCorked.rd _ n, k.time]

/-- What a command leaves whose unit changes stall sources. -/
theorem CorkEffect.rest_stalled {s h t : Hub} (x : CorkEffect touched s h t) (k : Stalled touched s h) :
    s.rest t = { s with doms := t.doms, tiles := t.tiles, fed := t.fed } := by
  rw [x.rest, x.doms, x.tiles, x.fed, k.time, k.power, k.shown]

/-- A fact that one item brings about, and every item keeps, holds at the end; `p` is what holds until then. -/
theorem doEach_reaches {σ α : Type} {p q : σ → Prop} {f : σ → α → σ} {a : α} (before : ∀ s b, b ≠ a → p s → p (f s b))
    (at_ : ∀ s, p s → q (f s a)) (after : ∀ s b, q s → q (f s b)) {l : List α} (m : a ∈ l) {s : σ} (h : p s) : q (doEach l s f) := by
  induction l generalizing s with
  | nil => cases m
  | cons b l ih =>
    rw [doEach_cons]
    by_cases e : b = a
    · subst e
      exact doEach_keeps q f after l _ (at_ s h)
    · exact ih ((List.mem_cons.mp m).resolve_left fun x => e x.symm) (before s b e h)

/-! ### Patterns to a domain or to its anchor (R80, R330) -/

/-- A domain without what issuing a pattern changes. -/
def Domain.sources (d : Domain) : Domain := { d with waiting := [], wavesOut := [], fedMask := 0, memberMasks := [] }

/-- A pattern of domain `z` was issued: the tendrils, FED's PG_ERROR and the patterns of `z` alone may have changed. -/
structure Restalled (touched : Nat → Bool) (z : Nat) (s h : Hub) : Prop extends Stalled touched s h where
  tiles : h.tiles = s.tiles
  others : ∀ y, y ≠ z → h.dom y = s.dom y
  own : (h.dom z).sources = (s.dom z).sources

variable {z : Nat}

theorem Restalled.trans {s t u : Hub} (h1 : Restalled touched z s t) (h2 : Restalled touched z t u) : Restalled touched z s u :=
  ⟨h1.toStalled.trans h2.toStalled, h2.tiles.trans h1.tiles, fun y n => (h2.others y n).trans (h1.others y n), h2.own.trans h1.own⟩

theorem Restalled.refl (s : Hub) : Restalled touched z s s := ⟨.refl s, rfl, fun _ _ => rfl, rfl⟩

theorem Restalled.setDom (s : Hub) {d : Domain} (e : d.sources = (s.dom z).sources) : Restalled touched z s (s.setDom z d) :=
  ⟨.setDom s z d, rfl, fun y n => by rw [Hub.dom_setDom, if_neg n], by rw [Hub.dom_setDom, if_pos rfl, e]⟩

theorem Restalled.ofSetDom {s h : Hub} {d : Domain} (k : Restalled touched z (s.setDom z d) h) (e : d.sources = (s.dom z).sources) :
    Restalled touched z s h := (Restalled.setDom s e).trans k

theorem Restalled.withFed (s : Hub) (f : Fed) : Restalled touched z s { s with fed := f } :=
  ⟨⟨.withFed s f, rfl, rfl, rfl⟩, rfl, fun _ _ => rfl, rfl⟩

theorem Restalled.of_tendrilsOnly {s h : Hub} (t : s.tendrilsOnly h) : Restalled touched z s h := by
  obtain ⟨tend, rfl⟩ := t
  exact .withFed s _

theorem Restalled.flood0 (s : Hub) (e : Option Nat) (type b1 b23 : Nat) (payload : List Byte) :
    Restalled touched z s (s.flood0 e type b1 b23 payload) :=
  doEach_keeps (Restalled touched z s) _ (fun _ _ h => (h.trans (.withFed _ _)).trans (.withFed _ _)) _ s (.refl s)

/-- The keys of FED's PG_ERROR and PG_ERROR_INFO: a frame with no route sets them (R323). -/
def fedErrKeys : List Nat := [R.PG_ERROR + Pg.FED * 0x1000, R.PG_ERROR_INFO + Pg.FED * 0x1000]

section
variable (k : ∀ a ∈ fedErrKeys, touched a = true)
include k

theorem Restalled.unrouted (s : Hub) : Restalled touched z s (s.err Er.FED_NO_ROUTE) :=
  ⟨⟨.err s (k _ (by decide)) (k _ (by decide)), rfl, rfl, rfl⟩, rfl, fun _ _ => rfl, rfl⟩

theorem Restalled.sendTo (s : Hub) (dest type : Nat) (payload : List Byte) : Restalled touched z s (s.sendTo dest type payload) := by
  unfold Hub.sendTo
  split
  · exact .of_tendrilsOnly (tendrilsOnly_flood2 _ _ _ _)
  · split
    · exact .of_tendrilsOnly (tendrilsOnly_send2 _ _ _ _ _)
    · exact .unrouted k s

theorem Restalled.sendRequest (s : Hub) (dest opcode : Nat) (args : List Byte) (who : RemoteWho) (arg : Nat) :
    Restalled touched z s (s.sendRequest dest opcode args who arg) := by
  unfold Hub.sendRequest
  dsimp only
  split
  · exact .withFed s _
  · exact (Restalled.withFed s _).trans (.sendTo k _ _ _ _)

end

theorem Restalled.patternOf (s : Hub) (ga mask bare : Nat) : Restalled touched z s (s.patternOf z ga mask bare) := .setDom s rfl

theorem Restalled.anchorTake (s : Hub) (hub mask : Nat) : Restalled touched z s (s.anchorTake z hub mask) := by
  unfold Hub.anchorTake
  dsimp only
  split
  · exact .ofSetDom (.refl _) rfl
  · exact .ofSetDom ((Restalled.flood0 _ _ _ _ _ _).trans (.patternOf _ _ _ _)) rfl

theorem Restalled.restall (k : ∀ a ∈ fedErrKeys, touched a = true) (s : Hub) (ga : Nat) : Restalled touched z s (s.restall z ga) := by
  unfold Hub.restall
  dsimp only
  split
  · split
    · exact .refl s
    · split
      · exact .ofSetDom (.anchorTake _ _ _) rfl
      · exact .ofSetDom (.sendRequest k _ _ _ _ _ _) rfl
  · split
    · exact .refl s
    · exact .patternOf s _ _ _

theorem restall_setDom_own (k : ∀ a ∈ fedErrKeys, touched a = true) (s : Hub) (z : Nat) (d : Domain) (ga : Nat) :
    (((s.setDom z d).restall z ga).dom z).sources = d.sources := by
  rw [(Restalled.restall (z := z) k _ ga).own, Hub.dom_setDom, if_pos rfl]

theorem restall_setDom_other (k : ∀ a ∈ fedErrKeys, touched a = true) (s : Hub) {y z : Nat} (n : y ≠ z) (d : Domain) (ga : Nat) :
    ((s.setDom z d).restall z ga).dom y = s.dom y := by
  rw [(Restalled.restall (z := z) k _ ga).others y n, Hub.dom_setDom, if_neg n]

/-- A domain of no federated slot keeps its patterns to itself. -/
theorem restall_unfederated {s : Hub} (n : s.rdB F.FED_JOB_FEDERATED z ≠ 1) (ga : Nat) :
    Restalled touched z s (s.restall z ga) ∧ (s.restall z ga).fed = s.fed := by
  unfold Hub.restall
  dsimp only
  rw [if_neg (by simpa using n)]
  split
  · exact ⟨.refl s, rfl⟩
  · exact ⟨.patternOf s _ _ _, rfl⟩

/-! ### STALL_SET and STALL_CLEAR (R500) -/

/-- Domain `y` has the MANUAL source that `m` gives for the apply GCN, 32 periods ahead. -/
def Hub.setManual (m : Nat → Option ManualStall) (s : Hub) (y : Nat) : Hub :=
  (s.setDom y { s.dom y with manual := m (s.now + 32) }).restall y (s.now + 32)

/-- The MANUAL source of STALL_SET. -/
def manualStall (mask duration ga : Nat) : Option ManualStall :=
  some { mask := mask, ga := ga, left := if duration = 0 then none else some duration }

theorem manualSet_eq (mask duration : Nat) : (fun (s : Hub) z => s.manualSet z mask duration) = Hub.setManual (manualStall mask duration) := by
  funext s z
  simp only [Hub.manualSet, Hub.setManual, manualStall, beq_iff_eq]

theorem manualClear_eq : Hub.manualClear = Hub.setManual (fun _ => none) := rfl

section
variable {keys : List Nat} (k : ∀ a ∈ fedErrKeys, ofKeys keys a = true) (m : Nat → Option ManualStall)
include k

theorem Stalled.setManual (s : Hub) (y : Nat) : Stalled (ofKeys keys) s (s.setManual m y) :=
  (Stalled.setDom s y _).trans (Restalled.restall k _ _).toStalled

theorem setManual_tiles (s : Hub) (y : Nat) : (s.setManual m y).tiles = s.tiles := (Restalled.restall k _ _).tiles

theorem setManual_other (s : Hub) {y z : Nat} (n : z ≠ y) : (s.setManual m y).dom z = s.dom z :=
  restall_setDom_other k s n _ _

theorem setManual_own (s : Hub) (z : Nat) :
    ((s.setManual m z).dom z).manual = m (s.now + 32) ∧ ((s.setManual m z).dom z).st = (s.dom z).st := by
  have own := restall_setDom_own k s z { s.dom z with manual := m (s.now + 32) } (s.now + 32)
  have field {α : Type} (f : Domain → α) := congrArg f own
  exact ⟨field Domain.manual, field Domain.st⟩

/-- Every domain of the scope gets the source, and nothing else changes its state. -/
theorem setManual_scope {l : List Nat} {z : Nat} (mem : z ∈ l) (s : Hub) (e : ofKeys keys F.TIME_EPOCH_EPOCH.addr = false) :
    ((doEach l s (Hub.setManual m)).dom z).manual = m (s.now + 32) ∧ ((doEach l s (Hub.setManual m)).dom z).st = (s.dom z).st := by
  have own {h : Hub} (moved : Stalled (ofKeys keys) s h ∧ (h.dom z).st = (s.dom z).st) :
      Stalled (ofKeys keys) s (h.setManual m z) ∧ ((h.setManual m z).dom z).st = (s.dom z).st ∧
        ((h.setManual m z).dom z).manual = m (s.now + 32) := by
    obtain ⟨manual, st⟩ := setManual_own k m h z
    exact ⟨moved.1.trans (.setManual k m h z), st.trans moved.2, by rw [manual, moved.1.now e]⟩
  have reached := doEach_reaches (a := z) (l := l) (s := s) (f := Hub.setManual m)
    (p := fun h => Stalled (ofKeys keys) s h ∧ (h.dom z).st = (s.dom z).st)
    (q := fun h => Stalled (ofKeys keys) s h ∧ (h.dom z).st = (s.dom z).st ∧ (h.dom z).manual = m (s.now + 32))
    (fun h y n p => ⟨p.1.trans (.setManual k m h y), by rw [setManual_other k m h (Ne.symm n)]; exact p.2⟩)
    (fun h p => own p)
    (fun h y q => by
      by_cases n : z = y
      · rw [← n]; exact own ⟨q.1, q.2.1⟩
      · exact ⟨q.1.trans (.setManual k m h y), by rw [setManual_other k m h n]; exact q.2⟩)
    mem ⟨.refl s, rfl⟩
  exact ⟨reached.2.2, reached.2.1⟩

end

/-- A stall command is complete at once: CORK_STATUS and CORK_LEAD show it, and no operation. -/
def Hub.stallShown (s : Hub) (op lead : Nat) : Hub :=
  (({ s with corkShown := none } : Hub).wr F.CORK_LEAD_LMIN lead).corkStatus op St.OK St.OK true false

/-- The registers of a stall command. -/
def stallKeys : List Nat := [R.CORK_STATUS, R.CORK_LEAD, R.PG_ERROR + Pg.FED * 0x1000, R.PG_ERROR_INFO + Pg.FED * 0x1000]

theorem Corked.stallShown (s : Hub) (op lead : Nat) : Corked (ofKeys stallKeys) s (s.stallShown op lead) :=
  ((Corked.of_core rfl : Corked (ofKeys stallKeys) s { s with corkShown := none }).trans (.wr _ _ (by decide))).trans (.setReg _ _ (by decide))

theorem corkCmd_stallSet {s : Hub} {r : Req} {a : CorkArgs} (args : s.corkRegArgs = a) (ok : s.stallCheck (isExternal r) 5 a = St.OK) :
    s.corkCmd r 5 = (doEach (s.scopeSlots a) s
      (Hub.setManual (manualStall (s.rd F.CORK_STALL_MASK_MANUAL) (s.rd F.CORK_STALL_DURATION_EDGES)))).stallShown 5 (sat 16 (s.lMin a)) := by
  subst args
  rw [← manualSet_eq]
  simp only [Hub.corkCmd, Hub.corkIssue, ok]
  rfl

theorem corkCmd_stallClear {s : Hub} {r : Req} {a : CorkArgs} (args : s.corkRegArgs = a) (ok : s.stallCheck (isExternal r) 6 a = St.OK) :
    s.corkCmd r 6 = (doEach (s.scopeSlots a) s (Hub.setManual fun _ => none)).stallShown 6 (sat 16 (s.lMin a)) := by
  subst args
  rw [← manualClear_eq]
  simp only [Hub.corkCmd, Hub.corkIssue, ok]
  rfl

/-- What a stall command of either kind leaves. -/
theorem answers_stall {i : Instr} {s : State} {r : Req} {op lead z : Nat} {l : List Nat} (m : Nat → Option ManualStall)
    (x : exec i s = run (fun h => h.cmd r R.CORK_CMD op (fun h => h.corkCmd r op)) s) (c : s.hub.calm = true)
    (t : s.hub.takesWrite r R.CORK_CMD op = true) (small : op < 16) (e : s.hub.corkCmd r op = (doEach l s.hub (Hub.setManual m)).stallShown op lead)
    (mem : z ∈ l) :
    Answers i s fun h =>
      h.tookWrite r ∧ (h.dom z).manual = m (s.hub.now + 32) ∧ (h.dom z).st = (s.hub.dom z).st ∧ h.rd F.CORK_STATUS_STATUS = St.OK ∧
      h.rd F.CORK_STATUS_DONE = 1 ∧ s.hub.rest h = { s.hub with doms := h.doms, fed := h.fed, corkShown := none } ∧
      s.hub.keeps h stallKeys := by
  have fedKeys : ∀ a ∈ fedErrKeys, ofKeys stallKeys a = true := by decide
  obtain ⟨manual, st⟩ := setManual_scope fedKeys m mem s.hub (by decide)
  have stalled : Stalled (ofKeys stallKeys) s.hub (doEach l s.hub (Hub.setManual m)) := .doEach (.setManual fedKeys m) l s.hub
  have tiles : (doEach l s.hub (Hub.setManual m)).tiles = s.hub.tiles := doEach_same Hub.tiles _ (setManual_tiles fedKeys m) l s.hub
  generalize doEach l s.hub (Hub.setManual m) = g at manual st stalled tiles e
  have k := stalled.toCorked.trans (.stallShown g op lead)
  have unplanted : (g.stallShown op lead).rel.inject = none := (congrArg (fun h => h.rel.inject) k.core).trans (calm_unplanted c)
  have status : (g.stallShown op lead).rd F.CORK_STATUS_STATUS = St.OK ∧ (g.stallShown op lead).rd F.CORK_STATUS_DONE = 1 := by
    constructor
    · refine (Hub.rd_setReg _ F.CORK_STATUS_STATUS _ (by decide)).trans ?_
      interval_cases op <;> rfl
    · refine (Hub.rd_setReg _ F.CORK_STATUS_DONE _ (by decide)).trans ?_
      interval_cases op <;> rfl
  refine answers_corkedWrite x ((cmd_taken t (by rw [e]; exact unplanted)).trans (by rw [e])) k (by decide) c fun h took y =>
    ⟨took, ?_, ?_, ?_, ?_, ?_, y.keeps_keys⟩
  · rw [y.dom]; exact manual
  · rw [y.dom]; exact st
  · rw [y.rd _ (by decide), status.1]
  · rw [y.rd _ (by decide), status.2]
  · have shown : (g.stallShown op lead).tiles = s.hub.tiles ∧ (g.stallShown op lead).time = s.hub.time ∧
        (g.stallShown op lead).power = s.hub.power ∧ (g.stallShown op lead).corkShown = none := ⟨tiles, stalled.time, stalled.power, rfl⟩
    obtain ⟨tiles, time, power, none⟩ := shown
    rw [y.rest, y.doms, y.fed, tiles, time, power, none]

theorem exec_stallSet (r : Req) (s : State) :
    exec (.stallSet r) s = run (fun h => h.cmd r R.CORK_CMD 5 (fun h => h.corkCmd r 5)) s := rfl

theorem exec_stallClear (r : Req) (s : State) :
    exec (.stallClear r) s = run (fun h => h.cmd r R.CORK_CMD 6 (fun h => h.corkCmd r 6)) s := rfl

theorem stallSet_clause (s : State) (r : Req) (a : CorkArgs) (z : Nat) (c : s.hub.calm = true)
    (t : s.hub.takesWrite r R.CORK_CMD 5 = true) (args : s.hub.corkRegArgs = a) (ok : s.hub.stallCheck (isExternal r) 5 a = St.OK)
    (mem : z ∈ s.hub.scopeSlots a) :
    Answers (.stallSet r) s fun h =>
      h.tookWrite r ∧
      (h.dom z).manual = some { mask := s.hub.rd F.CORK_STALL_MASK_MANUAL, ga := s.hub.now + 32, left := if s.hub.rd F.CORK_STALL_DURATION_EDGES = 0 then none else some (s.hub.rd F.CORK_STALL_DURATION_EDGES) } ∧
      (h.dom z).st = (s.hub.dom z).st ∧ h.rd F.CORK_STATUS_STATUS = St.OK ∧ h.rd F.CORK_STATUS_DONE = 1 ∧
      s.hub.rest h = { s.hub with doms := h.doms, fed := h.fed, corkShown := none } ∧
      s.hub.keeps h [R.CORK_STATUS, R.CORK_LEAD, R.PG_ERROR + Pg.FED * 0x1000, R.PG_ERROR_INFO + Pg.FED * 0x1000] :=
  answers_stall _ (exec_stallSet r s) c t (by decide) (corkCmd_stallSet args ok) mem

theorem stallClear_clause (s : State) (r : Req) (a : CorkArgs) (z : Nat) (c : s.hub.calm = true)
    (t : s.hub.takesWrite r R.CORK_CMD 6 = true) (args : s.hub.corkRegArgs = a) (ok : s.hub.stallCheck (isExternal r) 6 a = St.OK)
    (mem : z ∈ s.hub.scopeSlots a) :
    Answers (.stallClear r) s fun h =>
      h.tookWrite r ∧ (h.dom z).manual = none ∧ (h.dom z).st = (s.hub.dom z).st ∧ h.rd F.CORK_STATUS_STATUS = St.OK ∧
      h.rd F.CORK_STATUS_DONE = 1 ∧ s.hub.rest h = { s.hub with doms := h.doms, fed := h.fed, corkShown := none } ∧
      s.hub.keeps h [R.CORK_STATUS, R.CORK_LEAD, R.PG_ERROR + Pg.FED * 0x1000, R.PG_ERROR_INFO + Pg.FED * 0x1000] :=
  answers_stall (fun _ => none) (exec_stallClear r s) c t (by decide) (corkCmd_stallClear args ok) mem

/-! ### A pattern at its Ga (R80) -/

theorem mem_keys_set {α : Type} {t : Tab α} {j : Nat} (k : Nat) (v : α) (m : j ∈ t.keys) : j ∈ (t.set k v).keys := by
  obtain ⟨cells⟩ := t
  simp only [Tab.keys, Tab.set] at m ⊢
  induction cells with
  | nil => cases m
  | cons c rest ih =>
    obtain ⟨i, w⟩ := c
    rw [List.map_cons, List.mem_cons] at m
    unfold putKey
    split
    · rw [List.map_cons, List.mem_cons]
      exact m.imp id ih
    · split
      · next e => rwa [List.map_cons, List.mem_cons, ← beq_iff_eq.mp e]
      · rw [List.map_cons, List.mem_cons, List.map_cons, List.mem_cons]
        exact .inr m

/-- A domain without its issue cap. -/
def Domain.uncapped (d : Domain) : Domain := { d with cap := 0, capNext := none }

/-- Issue caps took force: nothing of a domain but its cap changed. -/
structure Capped (s h : Hub) : Prop extends Stalled (ofKeys [F.PWR_STATUS_ISSUE_CAP.addr]) s h where
  fed : h.fed = s.fed
  doms : ∀ z, (h.dom z).uncapped = (s.dom z).uncapped
  keys : ∀ z ∈ s.doms.keys, z ∈ h.doms.keys

theorem Capped.refl (s : Hub) : Capped s s := ⟨.refl s, rfl, fun _ => rfl, fun _ m => m⟩

theorem Capped.trans {s t u : Hub} (h1 : Capped s t) (h2 : Capped t u) : Capped s u :=
  ⟨h1.toStalled.trans h2.toStalled, h2.fed.trans h1.fed, fun z => (h2.doms z).trans (h1.doms z), fun z m => h2.keys z (h1.keys z m)⟩

theorem Capped.setTile (s : Hub) (t : Nat) (x : Tile) : Capped s (s.setTile t x) := ⟨.setTile s t x, rfl, fun _ => rfl, fun _ m => m⟩

theorem Capped.setDom (s : Hub) {z : Nat} {d : Domain} (e : d.uncapped = (s.dom z).uncapped) : Capped s (s.setDom z d) := by
  refine ⟨.setDom s z d, rfl, fun y => ?_, fun y m => mem_keys_set z d m⟩
  rw [Hub.dom_setDom]
  split
  · next n => rw [e, n]
  · rfl

theorem Capped.ofSetDom {s h : Hub} {z : Nat} {d : Domain} (k : Capped (s.setDom z d) h) (e : d.uncapped = (s.dom z).uncapped) : Capped s h :=
  (Capped.setDom s e).trans k

theorem Capped.showCap (s : Hub) : Capped s s.showCap := ⟨⟨.showCap s (by decide), rfl, rfl, rfl⟩, rfl, fun _ => rfl, fun _ m => m⟩

theorem Capped.doEach {f : Hub → Nat → Hub} (hf : ∀ s a, Capped s (f s a)) (l : List Nat) (s : Hub) : Capped s (Machine.doEach l s f) :=
  doEach_keeps (Capped s) f (fun t a h => h.trans (hf t a)) l s (.refl s)

theorem Capped.capApply (s : Hub) (z : Nat) : Capped s (s.capApply z) := by
  unfold Hub.capApply
  dsimp only
  split
  · split
    · exact .ofSetDom (Capped.trans (.doEach (fun _ _ => .setTile _ _ _) _ _) (.showCap _)) rfl
    · exact .refl s
  · exact .refl s

/-- The newest of a domain's patterns whose Ga has come. -/
def Domain.due (d : Domain) (now : Nat) : Option (Nat × Nat × Nat) := (d.waiting.filter (fun w => w.1 ≤ now)).getLast?

/-- A domain with the pattern `w` in force, `edge` being the number of its next edge. -/
def Domain.withPattern (d : Domain) (now edge : Nat) (w : Nat × Nat × Nat) : Domain :=
  { d with mask := w.2.1, bare := w.2.2, ga := w.1, edge := edge, waiting := d.waiting.filter (fun w => now < w.1) }

/-- The pattern of one domain takes force. -/
def Hub.patternStep (s : Hub) (z : Nat) : Hub :=
  match (s.dom z).due s.now with
  | some w =>
    let edge := (s.edges (s.domPart z) s.now - s.edges (s.domPart z) w.1) % 16
    (s.spurPatterns z w.1 edge).setDom z ((s.dom z).withPattern s.now edge w)
  | none => s

theorem patternApply_eq (s : Hub) :
    s.patternApply = doEach (doEach s.doms.keys s Hub.capApply).doms.keys (doEach s.doms.keys s Hub.capApply) Hub.patternStep := by
  refine congrArg (doEach _ _) (funext₂ fun s z => ?_)
  unfold Hub.patternStep Domain.due
  dsimp only
  cases ((s.dom z).waiting.filter (fun w => w.1 ≤ s.now)).getLast? with
  | none => rfl
  | some w => rfl

/-- No pattern is due in a domain whose due patterns took force. -/
theorem due_withPattern (d : Domain) (now edge : Nat) (w : Nat × Nat × Nat) : (d.withPattern now edge w).due now = none := by
  have empty : (d.waiting.filter (fun w => now < w.1)).filter (fun w => w.1 ≤ now) = [] := by
    rw [List.filter_filter, List.filter_eq_nil_iff]
    intro w _
    simp
  simp only [Domain.due, Domain.withPattern, empty, List.getLast?_nil]

theorem Stalled.spurPatterns (s : Hub) (z ga edge : Nat) : Stalled touched s (s.spurPatterns z ga edge) :=
  .doEach (fun _ _ => .setTile _ _ _) _ s

theorem spurPatterns_doms (s : Hub) (z ga edge : Nat) : (s.spurPatterns z ga edge).doms = s.doms := by
  refine doEach_same Hub.doms _ (fun a t => ?_) _ s
  rfl

theorem spurPatterns_fed (s : Hub) (z ga edge : Nat) : (s.spurPatterns z ga edge).fed = s.fed := by
  refine doEach_same Hub.fed _ (fun a t => ?_) _ s
  rfl

theorem Stalled.patternStep (s : Hub) (z : Nat) : Stalled touched s (s.patternStep z) := by
  unfold Hub.patternStep
  split
  · exact (Stalled.spurPatterns s _ _ _).trans (.setDom _ _ _)
  · exact .refl s

theorem patternStep_fed (s : Hub) (z : Nat) : (s.patternStep z).fed = s.fed := by
  unfold Hub.patternStep
  split
  · exact spurPatterns_fed s _ _ _
  · rfl

theorem patternStep_other (s : Hub) {y z : Nat} (n : y ≠ z) : (s.patternStep z).dom y = s.dom y := by
  unfold Hub.patternStep
  split
  · dsimp only
    rw [Hub.dom_setDom, if_neg n, Hub.dom, spurPatterns_doms, Hub.dom]
  · rfl

theorem patternStep_own {s : Hub} {z : Nat} {w : Nat × Nat × Nat} (due : (s.dom z).due s.now = some w) :
    ∃ edge, (s.patternStep z).dom z = (s.dom z).withPattern s.now edge w := by
  simp only [Hub.patternStep, due]
  exact ⟨_, by rw [Hub.dom_setDom, if_pos rfl]⟩

theorem patternStep_idle {s : Hub} {z : Nat} (none : (s.dom z).due s.now = none) : s.patternStep z = s := by
  simp only [Hub.patternStep, none]

/-- The pattern of each domain takes force once, whatever becomes of the others. -/
theorem patternStep_each {l : List Nat} {s : Hub} {z : Nat} {w : Nat × Nat × Nat} (mem : z ∈ l) (due : (s.dom z).due s.now = some w) :
    ∃ edge, (doEach l s Hub.patternStep).dom z = (s.dom z).withPattern s.now edge w := by
  have now {h : Hub} (y : Nat) (k : h.now = s.now) : (h.patternStep y).now = s.now :=
    ((Stalled.patternStep (touched := fun _ => false) h y).now rfl).trans k
  have reached := doEach_reaches (a := z) (l := l) (s := s) (f := Hub.patternStep)
    (p := fun h => h.now = s.now ∧ h.dom z = s.dom z)
    (q := fun h => h.now = s.now ∧ ∃ edge, h.dom z = (s.dom z).withPattern s.now edge w)
    (fun h y n ⟨same, dom⟩ => ⟨now y same, (patternStep_other h (Ne.symm n)).trans dom⟩)
    (fun h ⟨same, dom⟩ => by
      obtain ⟨edge, own⟩ := patternStep_own (s := h) (z := z) (w := w) (by rw [same, dom]; exact due)
      exact ⟨now z same, edge, by rw [own, same, dom]⟩)
    (fun h y ⟨same, edge, dom⟩ => by
      refine ⟨now y same, edge, ?_⟩
      by_cases n : z = y
      · rw [← n, patternStep_idle (by rw [same, dom]; exact due_withPattern _ _ _ _), dom]
      · rw [patternStep_other h n, dom])
    mem ⟨rfl, rfl⟩
  exact reached.2

theorem exec_stallPatternApply (s : State) : exec .stallPatternApply s = run Hub.patternApply s := rfl

theorem stallPatternApply_clause (s : State) (z : Nat) (ga : Nat) (m : Nat) (b : Nat) (c : s.hub.calm = true) (mem : z ∈ s.hub.doms.keys)
    (due : ((s.hub.dom z).waiting.filter (fun w => w.1 ≤ s.hub.now)).getLast? = some (ga, m, b)) :
    Answers .stallPatternApply s fun h =>
      (h.dom z).mask = m ∧ (h.dom z).bare = b ∧ (h.dom z).ga = ga ∧ (h.dom z).scn = (s.hub.dom z).scn ∧ (h.dom z).st = (s.hub.dom z).st ∧
      (h.dom z).waiting = (s.hub.dom z).waiting.filter (fun w => s.hub.now < w.1) ∧
      s.hub.rest h = { s.hub with doms := h.doms, tiles := h.tiles } ∧ s.hub.keeps h [F.PWR_STATUS_ISSUE_CAP.addr] := by
  have capped : Capped s.hub (doEach s.hub.doms.keys s.hub Hub.capApply) := .doEach .capApply _ _
  have e := patternApply_eq s.hub
  generalize doEach s.hub.doms.keys s.hub Hub.capApply = g at capped e
  have now : g.now = s.hub.now := capped.now (by decide)
  have field {α : Type} (f : Domain → α) := congrArg f (capped.doms z)
  have waiting : (g.dom z).waiting = (s.hub.dom z).waiting := field Domain.waiting
  obtain ⟨edge, dom⟩ := patternStep_each (w := (ga, m, b)) (capped.keys z mem)
    (by rw [Domain.due, now, waiting]; exact due)
  have k : Stalled (ofKeys [F.PWR_STATUS_ISSUE_CAP.addr]) s.hub (doEach g.doms.keys g Hub.patternStep) :=
    capped.toStalled.trans (.doEach .patternStep _ g)
  have fed : (doEach g.doms.keys g Hub.patternStep).fed = s.hub.fed := (doEach_same Hub.fed _ patternStep_fed _ g).trans capped.fed
  refine answers_corked (exec_stallPatternApply s) e k.toCorked (by decide) c fun h _ x => ?_
  rw [x.dom, dom, x.rest_stalled k, x.fed, fed, now]
  exact ⟨rfl, rfl, rfl, field Domain.scn, field Domain.st, congrArg _ waiting, rfl, x.keeps_keys⟩

/-! ### The end of a MANUAL source (R82) -/

/-- A domain whose MANUAL source ended: the patterns still to apply lose its share. -/
def Domain.manualEnded (d : Domain) : Domain := { d with manual := none, waiting := d.waiting.map (fun w => (w.1, w.2.2, w.2.2)) }

/-- The MANUAL source of domain `z` ends: a federated domain tells its anchor, any other decides the mask without it at once. -/
def Hub.manualEnd (s : Hub) (z : Nat) : Hub :=
  let g := s.setDom z (s.dom z).manualEnded
  if g.rdB F.FED_JOB_FEDERATED z == 1 then g.restall z g.now
  else if (s.dom z).mask == (s.dom z).bare then g
  else g.setDom z { g.dom z with waiting := (g.now, (s.dom z).bare, (s.dom z).bare) :: (g.dom z).waiting }

/-- One domain of `manualExpiry`. -/
def Hub.manualStep (s : Hub) (z : Nat) : Hub :=
  match (s.dom z).manual with
  | some { left := some 0, .. } => s.manualEnd z
  | _ => s

theorem manualExpiry_eq (s : Hub) : s.manualExpiry = doEach s.doms.keys s Hub.manualStep := rfl

theorem manualStep_counted {s : Hub} {z : Nat} {m : ManualStall} (has : (s.dom z).manual = some m) (counted : m.left = some 0) :
    s.manualStep z = s.manualEnd z := by
  obtain ⟨mask, ga, left⟩ := m
  cases counted
  simp only [Hub.manualStep, has]

theorem manualStep_idle {s : Hub} {z : Nat} (none : (s.dom z).manual = none) : s.manualStep z = s := by
  simp only [Hub.manualStep, none]

section
variable (k : ∀ a ∈ fedErrKeys, touched a = true)
include k

theorem Restalled.manualEnd (s : Hub) (z : Nat) : Restalled touched z (s.setDom z (s.dom z).manualEnded) (s.manualEnd z) := by
  unfold Hub.manualEnd
  dsimp only
  split
  · exact .restall k _ _
  · split
    · exact .refl _
    · exact .setDom _ rfl

theorem manualEnd_own (s : Hub) (z : Nat) : ((s.manualEnd z).dom z).manual = none ∧ ((s.manualEnd z).dom z).scn = (s.dom z).scn := by
  have own := (Restalled.manualEnd k s z).own
  rw [Hub.dom_setDom, if_pos rfl] at own
  have field {α : Type} (f : Domain → α) := congrArg f own
  exact ⟨field Domain.manual, field Domain.scn⟩

theorem Stalled.manualStep (s : Hub) (z : Nat) : Stalled touched s (s.manualStep z) := by
  unfold Hub.manualStep
  split
  · exact (Stalled.setDom s z _).trans (Restalled.manualEnd k s z).toStalled
  · exact .refl s

theorem manualStep_tiles (s : Hub) (z : Nat) : (s.manualStep z).tiles = s.tiles := by
  unfold Hub.manualStep
  split
  · exact (Restalled.manualEnd k s z).tiles
  · rfl

theorem manualStep_other (s : Hub) {y z : Nat} (n : y ≠ z) : (s.manualStep z).dom y = s.dom y := by
  unfold Hub.manualStep
  split
  · rw [(Restalled.manualEnd k s z).others y n, Hub.dom_setDom, if_neg n]
  · rfl

end

theorem manualEnd_waiting {s : Hub} {z : Nat} (free : s.rdB F.FED_JOB_FEDERATED z ≠ 1) (share : (s.dom z).mask ≠ (s.dom z).bare) :
    ((s.manualEnd z).dom z).waiting.head? = some (s.now, (s.dom z).bare, (s.dom z).bare) := by
  have free : ((s.setDom z (s.dom z).manualEnded).rdB F.FED_JOB_FEDERATED z == 1) = false := beq_eq_false_iff_ne.mpr free
  have share : ((s.dom z).mask == (s.dom z).bare) = false := by simpa using share
  simp only [Hub.manualEnd, free, share, Bool.false_eq_true, if_false]
  rw [Hub.dom_setDom, if_pos rfl]
  rfl

/-- A banked register of FED is none of its page's PG_ERROR registers. -/
theorem fedJob_not_fedErr (z : Nat) : ofKeys fedErrKeys (regKey F.FED_JOB_FEDERATED.addr z) = false := by
  simp only [ofKeys, fedErrKeys, regKey, F.FED_JOB_FEDERATED, R.PG_ERROR, R.PG_ERROR_INFO, Pg.FED, List.contains_eq_mem, List.mem_cons,
    List.not_mem_nil, or_false, decide_eq_false_iff_not]
  omega

/-- What the end of its MANUAL source makes of domain `z` of the hub `s`. -/
structure ManualEnded (s : Hub) (z : Nat) (d : Domain) : Prop where
  manual : d.manual = none
  head : s.rdB F.FED_JOB_FEDERATED z ≠ 1 → (s.dom z).mask ≠ (s.dom z).bare → d.waiting.head? = some (s.now, (s.dom z).bare, (s.dom z).bare)
  scn : d.scn = (s.dom z).scn

theorem manualStep_each {l : List Nat} {s : Hub} {z : Nat} {m : ManualStall} (mem : z ∈ l) (has : (s.dom z).manual = some m)
    (counted : m.left = some 0) : ManualEnded s z ((doEach l s Hub.manualStep).dom z) := by
  have k : ∀ a ∈ fedErrKeys, ofKeys fedErrKeys a = true := by decide
  have reached := doEach_reaches (a := z) (l := l) (s := s) (f := Hub.manualStep)
    (p := fun h => Stalled (ofKeys fedErrKeys) s h ∧ h.dom z = s.dom z) (q := fun h => ManualEnded s z (h.dom z))
    (fun h y n ⟨same, dom⟩ => ⟨same.trans (.manualStep k h y), (manualStep_other k h (Ne.symm n)).trans dom⟩)
    (fun h ⟨same, dom⟩ => by
      rw [manualStep_counted (by rw [dom]; exact has) counted]
      obtain ⟨manual, scn⟩ := manualEnd_own k h z
      refine ⟨manual, fun free share => ?_, by rw [scn, dom]⟩
      have := manualEnd_waiting (s := h) (z := z) (by rwa [same.toCorked.rdB _ _ (fedJob_not_fedErr z)]) (by rwa [dom])
      rwa [dom, same.now (by decide)] at this)
    (fun h y ended => by
      by_cases n : z = y
      · rwa [← n, manualStep_idle ended.manual]
      · rwa [manualStep_other k h n])
    mem ⟨.refl s, rfl⟩
  exact reached

theorem exec_manualStallExpiry (s : State) : exec .manualStallExpiry s = run Hub.manualExpiry s := rfl

theorem manualStallExpiry_clause (s : State) (z : Nat) (m : ManualStall) (c : s.hub.calm = true) (mem : z ∈ s.hub.doms.keys)
    (has : (s.hub.dom z).manual = some m) (counted : m.left = some 0) :
    Answers .manualStallExpiry s fun h =>
      (h.dom z).manual = none ∧
      (s.hub.rdB F.FED_JOB_FEDERATED z ≠ 1 → (s.hub.dom z).mask ≠ (s.hub.dom z).bare → (h.dom z).waiting.head? = some (s.hub.now, (s.hub.dom z).bare, (s.hub.dom z).bare)) ∧
      (h.dom z).scn = (s.hub.dom z).scn ∧ s.hub.rest h = { s.hub with doms := h.doms, fed := h.fed } ∧
      s.hub.keeps h [R.PG_ERROR + Pg.FED * 0x1000, R.PG_ERROR_INFO + Pg.FED * 0x1000] := by
  have keys : ∀ a ∈ fedErrKeys, ofKeys fedErrKeys a = true := by decide
  have ended := manualStep_each mem has counted
  have k : Stalled (ofKeys fedErrKeys) s.hub (doEach s.hub.doms.keys s.hub Hub.manualStep) := .doEach (.manualStep keys) _ _
  have tiles : (doEach s.hub.doms.keys s.hub Hub.manualStep).tiles = s.hub.tiles := doEach_same Hub.tiles _ (manualStep_tiles keys) _ _
  refine answers_corked (exec_manualStallExpiry s) (manualExpiry_eq s.hub) k.toCorked (by decide) c fun h _ x => ?_
  rw [x.dom, x.rest_stalled k, x.tiles, tiles]
  exact ⟨ended.manual, ended.head, ended.scn, rfl, x.keeps_keys⟩

/-! ### Holds (R83) -/

theorem holdRequest_taken {s : Hub} {t z : Nat} (ctx : (s.tile t).st = .inContext) (slot : (s.tile t).slot = z)
    (words : 128 ≤ (s.tile t).traceWords) (runs : (s.dom z).st = .running ∨ (s.dom z).st = .stopping) (held : (s.dom z).held = false)
    (on : (s.dom z).losslessOff = false) (lossless : s.rdB F.TRACEF_SLOT_LOSSLESS z = 1) (free : s.rdB F.FED_JOB_FEDERATED z = 0) :
    s.holdRequest t = ((s.setTile t { s.tile t with holdReq := true }).setDom z
      { s.dom z with hold := some ((s.dom z).hold.getD s.time.hclk) }).restall z (s.now + 32) := by
  have runs : ((s.dom z).st == .running || (s.dom z).st == .stopping) = true := by simpa using runs
  have ctx : ((s.tile t).st == .inContext) = true := by rw [ctx]; rfl
  subst slot
  simp only [Hub.holdRequest, words, ctx, runs, held, on, lossless, free, decide_true, Bool.not_false, beq_self_eq_true, Bool.and_self, if_true]
  rfl

theorem exec_holdRequestRx (tile : TileId) (s : State) : exec (.holdRequestRx tile) s = run (fun h => h.holdRequest tile) s := rfl

theorem holdRequestRx_clause (s : State) (tile : TileId) (z : Nat) (c : s.hub.calm = true) (ctx : (s.hub.tile tile).st = .inContext)
    (slot : (s.hub.tile tile).slot = z) (words : 128 ≤ (s.hub.tile tile).traceWords)
    (runs : (s.hub.dom z).st = .running ∨ (s.hub.dom z).st = .stopping) (held : (s.hub.dom z).held = false)
    (on : (s.hub.dom z).losslessOff = false) (lossless : s.hub.rdB F.TRACEF_SLOT_LOSSLESS z = 1)
    (free : s.hub.rdB F.FED_JOB_FEDERATED z = 0) :
    Answers (.holdRequestRx tile) s fun h =>
      (h.tile tile).holdReq = true ∧ (h.dom z).hold = some ((s.hub.dom z).hold.getD s.hub.time.hclk) ∧
      (∀ y, y ≠ z → h.dom y = s.hub.dom y) ∧ s.hub.rest h = { s.hub with doms := h.doms, tiles := h.tiles } ∧ s.hub.keeps h [] := by
  have e := holdRequest_taken ctx slot words runs held on lossless free
  generalize dg : ({ s.hub.dom z with hold := some ((s.hub.dom z).hold.getD s.hub.time.hclk) } : Domain) = d at e
  generalize tg : s.hub.setTile tile { s.hub.tile tile with holdReq := true } = g at e
  have first : Stalled (ofKeys []) s.hub g := by rw [← tg]; exact .setTile _ _ _
  have doms : g.doms = s.hub.doms := by rw [← tg]; rfl
  obtain ⟨again, fed⟩ := restall_unfederated (touched := ofKeys []) (s := g.setDom z d) (z := z)
    (by rw [← tg]; exact fun one => absurd (free.symm.trans one) (by decide)) (s.hub.now + 32)
  have k : Stalled (ofKeys []) s.hub ((g.setDom z d).restall z (s.hub.now + 32)) :=
    (first.trans (.setDom g z d)).trans again.toStalled
  refine answers_corked (exec_holdRequestRx tile s) e k.toCorked (by decide) c fun h _ x => ⟨?_, ?_, fun y n => ?_, ?_, x.keeps_keys⟩
  · rw [x.tile, Hub.tile, again.tiles]
    show (g.tile tile).holdReq = true
    rw [← tg, Hub.tile_setTile, if_pos rfl]
  · have own := again.own
    rw [Hub.dom_setDom, if_pos rfl] at own
    have field {α : Type} (f : Domain → α) := congrArg f own
    have hold : d.hold = some ((s.hub.dom z).hold.getD s.hub.time.hclk) := by rw [← dg]
    rw [x.dom, ← hold]
    exact field Domain.hold
  · rw [x.dom, again.others y n, Hub.dom_setDom, if_neg n, Hub.dom, doms, Hub.dom]
  · have fed : ((g.setDom z d).restall z (s.hub.now + 32)).fed = s.hub.fed := by rw [fed, ← tg]; rfl
    rw [x.rest_stalled k, x.fed, fed]

theorem slotTiles_setTile {s : Hub} {t u z : Nat} {x : Tile} (m : u ∈ (s.setTile t x).slotTiles z) : u = t ∨ u ∈ s.slotTiles z := by
  obtain ⟨p, mem, rfl⟩ := List.mem_map.mp m
  obtain ⟨cell, isOf⟩ := List.mem_filter.mp mem
  rcases mem_putKey cell with rfl | old
  · exact .inl rfl
  · exact .inr (List.mem_map_of_mem (List.mem_filter.mpr ⟨old, isOf⟩))

/-- The last requester of a hold releases it. -/
theorem holdRelease_last {s : Hub} {t z : Nat} (slot : (s.tile t).slot = z) (asked : (s.tile t).holdReq = true)
    (low : (s.tile t).traceWords ≤ 32) (last : (s.slotTiles z).all (fun u => u == t || !(s.tile u).holdReq) = true) :
    s.holdRelease t = ((s.setTile t { s.tile t with holdReq := false }).setDom z { s.dom z with hold := none }).restall z (s.now + 32) := by
  subst slot
  have quiet : (!(s.tile t).holdReq || decide (32 < (s.tile t).traceWords)) = false := by simp [asked, low]
  have none : (((s.setTile t { s.tile t with holdReq := false }).slotTiles (s.tile t).slot).any
      fun u => ((s.setTile t { s.tile t with holdReq := false }).tile u).holdReq) = false := by
    refine List.any_eq_false.mpr fun u m => ?_
    rw [Hub.tile_setTile]
    split
    · exact Bool.false_ne_true
    · next n =>
      have old := List.all_eq_true.mp last u ((slotTiles_setTile m).resolve_left n)
      simpa [n] using old
  unfold Hub.holdRelease
  dsimp only
  rw [quiet, if_neg Bool.false_ne_true, none, if_neg Bool.false_ne_true]
  rfl

theorem exec_holdReleaseRx (tile : TileId) (s : State) : exec (.holdReleaseRx tile) s = run (fun h => h.holdRelease tile) s := rfl

theorem holdReleaseRx_clause (s : State) (tile : TileId) (z : Nat) (c : s.hub.calm = true) (_ctx : (s.hub.tile tile).st = .inContext)
    (slot : (s.hub.tile tile).slot = z) (asked : (s.hub.tile tile).holdReq = true) (low : (s.hub.tile tile).traceWords ≤ 32)
    (last : (s.hub.slotTiles z).all (fun u => u == (tile : Nat) || !(s.hub.tile u).holdReq) = true) :
    Answers (.holdReleaseRx tile) s fun h =>
      (h.tile tile).holdReq = false ∧ (h.dom z).hold = none ∧ (∀ y, y ≠ z → h.dom y = s.hub.dom y) ∧
      s.hub.rest h = { s.hub with doms := h.doms, tiles := h.tiles, fed := h.fed } ∧
      s.hub.keeps h [R.PG_ERROR + Pg.FED * 0x1000, R.PG_ERROR_INFO + Pg.FED * 0x1000] := by
  have keys : ∀ a ∈ fedErrKeys, ofKeys fedErrKeys a = true := by decide
  have e := holdRelease_last slot asked low last
  generalize dg : ({ s.hub.dom z with hold := none } : Domain) = d at e
  generalize tg : s.hub.setTile tile { s.hub.tile tile with holdReq := false } = g at e
  have doms : g.doms = s.hub.doms := by rw [← tg]; rfl
  have again := Restalled.restall (z := z) keys (g.setDom z d) (s.hub.now + 32)
  have k : Stalled (ofKeys fedErrKeys) s.hub ((g.setDom z d).restall z (s.hub.now + 32)) :=
    ((by rw [← tg]; exact .setTile _ _ _ : Stalled (ofKeys fedErrKeys) s.hub g).trans (.setDom g z d)).trans again.toStalled
  refine answers_corked (exec_holdReleaseRx tile s) e k.toCorked (by decide) c fun h _ x =>
    ⟨?_, ?_, fun y n => ?_, x.rest_stalled k, x.keeps_keys⟩
  · rw [x.tile, Hub.tile, again.tiles]
    show (g.tile tile).holdReq = false
    rw [← tg, Hub.tile_setTile, if_pos rfl]
  · have own := restall_setDom_own keys g z d (s.hub.now + 32)
    have field {α : Type} (f : Domain → α) := congrArg f own
    have hold : d.hold = none := by rw [← dg]
    rw [x.dom, ← hold]
    exact field Domain.hold
  · rw [x.dom, restall_setDom_other keys g n, Hub.dom, doms, Hub.dom]

/-! ### CORK_HOLD_LIMIT (R83) -/

/-- The hold of domain `z` is given up: its lossless mode is off, in the domain and in TRACEF_SLOT. -/
def Hub.holdOff (s : Hub) (z : Nat) : Hub :=
  (s.setDom z { s.dom z with hold := none, losslessOff := true }).wrB F.TRACEF_SLOT_LOSSLESS z 0

/-- No tile of slot `z` asks for a hold. -/
def Hub.unasked (s : Hub) (z : Nat) : Hub := doEach (s.slotTiles z) s (fun s u => s.setTile u { s.tile u with holdReq := false })

/-- The hold of domain `z` ends with HOLD_LIMIT. -/
def Hub.holdEnd (s : Hub) (z : Nat) : Hub :=
  (((s.holdOff z).unasked z).restall z (((s.holdOff z).unasked z).now + 32)).raiseOf Ev.HOLD_LIMIT z

/-- One domain of `holdLimit`. -/
def Hub.holdStep (s : Hub) (z : Nat) : Hub :=
  match (s.dom z).hold with
  | some t => if s.elapsed t (s.rd F.CORK_HOLD_LIMIT_HCLK) then s.holdEnd z else s
  | none => s

theorem holdLimit_eq (s : Hub) : s.holdLimit = doEach s.doms.keys s Hub.holdStep := rfl

theorem holdStep_late {s : Hub} {z t : Nat} (hold : (s.dom z).hold = some t) (late : s.elapsed t (s.rd F.CORK_HOLD_LIMIT_HCLK) = true) :
    s.holdStep z = s.holdEnd z := by
  simp only [Hub.holdStep, hold, late, if_true]

theorem holdStep_idle {s : Hub} {z : Nat} (none : (s.dom z).hold = none) : s.holdStep z = s := by
  simp only [Hub.holdStep, none]

/-- The pages of a hold that ends. -/
def holdPages : List Nat := [Pg.TRACEF, Pg.FED]

theorem unasked_doms (s : Hub) (z : Nat) : (s.unasked z).doms = s.doms := by
  refine doEach_same Hub.doms _ (fun _ _ => ?_) _ s
  rfl

theorem unasked_regs (s : Hub) (z : Nat) : (s.unasked z).regs = s.regs := by
  refine doEach_same Hub.regs _ (fun _ _ => ?_) _ s
  rfl

theorem tracefSlot_page (z : Nat) : ofPages holdPages (regKey F.TRACEF_SLOT_LOSSLESS.addr z) = true := by
  have page : regKey F.TRACEF_SLOT_LOSSLESS.addr z % 0x100000 / 0x1000 = Pg.TRACEF := by
    simp only [regKey, F.TRACEF_SLOT_LOSSLESS, Pg.TRACEF]; omega
  rw [ofPages, page]; decide

/-- A banked register of TRACEF is none of FED's PG_ERROR registers. -/
theorem tracefSlot_not_fedErr (z : Nat) : ofKeys fedErrKeys (regKey F.TRACEF_SLOT_LOSSLESS.addr z) = false := by
  simp only [ofKeys, fedErrKeys, regKey, F.TRACEF_SLOT_LOSSLESS, R.PG_ERROR, R.PG_ERROR_INFO, Pg.FED, List.contains_eq_mem, List.mem_cons,
    List.not_mem_nil, or_false, decide_eq_false_iff_not]
  omega

theorem Stalled.holdEnd (s : Hub) (z : Nat) : Stalled (ofPages holdPages) s (s.holdEnd z) := by
  have off : Stalled (ofPages holdPages) s (s.holdOff z) :=
    (Stalled.setDom s z _).trans ⟨.wrB _ _ (tracefSlot_page z), rfl, rfl, rfl⟩
  have unasked : Stalled (ofPages holdPages) (s.holdOff z) ((s.holdOff z).unasked z) := .doEach (fun _ _ => .setTile _ _ _) _ _
  have again := Restalled.restall (touched := ofPages holdPages) (z := z) (by decide) ((s.holdOff z).unasked z)
    (((s.holdOff z).unasked z).now + 32)
  exact ((off.trans unasked).trans again.toStalled).trans ⟨.raiseOf _ _ (by decide), rfl, rfl, rfl⟩

theorem Stalled.holdStep (s : Hub) (z : Nat) : Stalled (ofPages holdPages) s (s.holdStep z) := by
  unfold Hub.holdStep
  split
  · split
    · exact .holdEnd s z
    · exact .refl s
  · exact .refl s

/-- A pattern that follows the end of a hold changes neither lossless mode nor another domain. -/
theorem restalled_holdEnd (s : Hub) (z : Nat) : Restalled (ofKeys fedErrKeys) z ((s.holdOff z).unasked z)
    (((s.holdOff z).unasked z).restall z (((s.holdOff z).unasked z).now + 32)) := .restall (by decide) _ _

theorem holdEnd_own (s : Hub) (z : Nat) :
    ((s.holdEnd z).dom z).hold = none ∧ ((s.holdEnd z).dom z).losslessOff = true ∧ (s.holdEnd z).rdB F.TRACEF_SLOT_LOSSLESS z = 0 := by
  have own := (restalled_holdEnd s z).own
  rw [Hub.dom, Hub.dom, unasked_doms, ← Hub.dom, ← Hub.dom] at own
  have off : (s.holdOff z).dom z = { s.dom z with hold := none, losslessOff := true } :=
    (Hub.dom_setDom s z z _).trans (if_pos rfl)
  rw [off] at own
  have field {α : Type} (f : Domain → α) := congrArg f own
  refine ⟨field Domain.hold, field Domain.losslessOff, ?_⟩
  have kept := (restalled_holdEnd s z).toCorked.rdB F.TRACEF_SLOT_LOSSLESS z (tracefSlot_not_fedErr z)
  refine kept.trans ?_
  rw [Hub.rdB, Hub.regB, unasked_regs, ← Hub.regB, ← Hub.rdB]
  exact Hub.rdB_wrB _ _ _ _ (by decide)

theorem holdEnd_other (s : Hub) {y z : Nat} (n : y ≠ z) :
    (s.holdEnd z).dom y = s.dom y ∧ (s.holdEnd z).rdB F.TRACEF_SLOT_LOSSLESS y = s.rdB F.TRACEF_SLOT_LOSSLESS y := by
  constructor
  · refine ((restalled_holdEnd s z).others y n).trans ?_
    rw [Hub.dom, unasked_doms, ← Hub.dom]
    exact (Hub.dom_setDom s z y _).trans (if_neg n)
  · refine ((restalled_holdEnd s z).toCorked.rdB F.TRACEF_SLOT_LOSSLESS y (tracefSlot_not_fedErr y)).trans ?_
    rw [Hub.rdB, Hub.regB, unasked_regs, ← Hub.regB, Hub.rdB]
    refine congrArg (bitsOf · _ _) (Hub.regB_setRegB_ne _ _ ?_)
    simp only [regKey]
    omega

theorem holdStep_other (s : Hub) {y z : Nat} (n : y ≠ z) :
    (s.holdStep z).dom y = s.dom y ∧ (s.holdStep z).rdB F.TRACEF_SLOT_LOSSLESS y = s.rdB F.TRACEF_SLOT_LOSSLESS y := by
  unfold Hub.holdStep
  split
  · split
    · exact holdEnd_other s n
    · exact ⟨rfl, rfl⟩
  · exact ⟨rfl, rfl⟩

/-- The hold of domain `z` was given up, and HOLD_LIMIT raised for it. -/
structure HoldEnded (z : Nat) (h : Hub) : Prop where
  hold : (h.dom z).hold = none
  off : (h.dom z).losslessOff = true
  lossless : h.rdB F.TRACEF_SLOT_LOSSLESS z = 0
  raised : ∃ o ∈ h.occs, o.code = Ev.HOLD_LIMIT ∧ o.unit.getD 0 = z

theorem holdEnded_holdEnd (s : Hub) (z : Nat) : HoldEnded z (s.holdEnd z) := by
  obtain ⟨hold, off, lossless⟩ := holdEnd_own s z
  exact ⟨hold, off, lossless, _, List.mem_append_right _ (List.mem_singleton_self _), rfl, rfl⟩

theorem HoldEnded.holdStep {z : Nat} {h : Hub} (o : HoldEnded z h) (y : Nat) : HoldEnded z (h.holdStep y) := by
  by_cases n : z = y
  · rwa [← n, holdStep_idle o.hold]
  · obtain ⟨dom, lossless⟩ := holdStep_other h n
    obtain ⟨x, m, named⟩ := o.raised
    exact ⟨by rw [dom]; exact o.hold, by rw [dom]; exact o.off, by rw [lossless]; exact o.lossless,
      x, (Stalled.holdStep h y).kept x m, named⟩

theorem holdStep_each {l : List Nat} {s : Hub} {z t : Nat} (mem : z ∈ l) (hold : (s.dom z).hold = some t)
    (late : s.elapsed t (s.rd F.CORK_HOLD_LIMIT_HCLK) = true) : HoldEnded z (doEach l s Hub.holdStep) :=
  doEach_reaches (p := fun h => Stalled (ofPages holdPages) s h ∧ h.dom z = s.dom z) (q := HoldEnded z)
    (fun h y n ⟨same, dom⟩ => ⟨same.trans (.holdStep h y), (holdStep_other h (Ne.symm n)).1.trans dom⟩)
    (fun h ⟨same, dom⟩ => by
      have limit : h.elapsed t (h.rd F.CORK_HOLD_LIMIT_HCLK) = true := by
        rw [same.toCorked.rd _ (by decide), Hub.elapsed, same.time]; exact late
      rw [holdStep_late (by rw [dom]; exact hold) limit]
      exact holdEnded_holdEnd h z)
    (fun _ y o => o.holdStep y) mem ⟨.refl s, rfl⟩

theorem exec_holdLimit (s : State) : exec .holdLimit s = run Hub.holdLimit s := rfl

theorem holdLimit_clause (s : State) (z : Nat) (t : Nat) (c : s.hub.calm = true) (mem : z ∈ s.hub.doms.keys)
    (hold : (s.hub.dom z).hold = some t) (late : s.hub.elapsed t (s.hub.rd F.CORK_HOLD_LIMIT_HCLK) = true) :
    Answers .holdLimit s fun h =>
      (h.dom z).hold = none ∧ (h.dom z).losslessOff = true ∧ h.rdB F.TRACEF_SLOT_LOSSLESS z = 0 ∧ h.shows Ev.HOLD_LIMIT z = true ∧
      s.hub.rest h = { s.hub with doms := h.doms, tiles := h.tiles, fed := h.fed } ∧ s.hub.keepsOff h [Pg.TRACEF, Pg.FED] := by
  have ended := holdStep_each mem hold late
  have k : Stalled (ofPages holdPages) s.hub (doEach s.hub.doms.keys s.hub Hub.holdStep) := .doEach .holdStep _ _
  have quiet : eventKey (regKey F.TRACEF_SLOT_LOSSLESS.addr z) = false := by
    simp only [eventKey, regKey, F.TRACEF_SLOT_LOSSLESS, R.PG_EVENT, R.REL_DEGRADED, Bool.or_eq_false_iff, beq_eq_false_iff_ne]; omega
  refine answers_corked (exec_holdLimit s) (holdLimit_eq s.hub) k.toCorked (by decide) c fun h _ x => ⟨?_, ?_, ?_, ?_, x.rest_stalled k, x.keeps_pages⟩
  · rw [x.dom]; exact ended.hold
  · rw [x.dom]; exact ended.off
  · rw [Hub.rdB, x.regs _ _ quiet]; exact ended.lossless
  · exact x.shows_raised ended.raised (fun _ _ e => by cases e; decide)

/-- Settles O29: every change of a source is a change of one domain, followed by a pattern that touches nothing else of that domain; what a
command brings about in one domain of its list is kept by the others. -/
theorem stall_patterns_and_holds_change_the_sources_of_a_domain : Obligations.stall_patterns_and_holds_change_the_sources_of_a_domain :=
  ⟨stallSet_clause, stallClear_clause, stallPatternApply_clause, manualStallExpiry_clause, holdRequestRx_clause, holdReleaseRx_clause,
    holdLimit_clause⟩

end Sys2Proof.Machine
end

section
/-! SUPPORT. The statements of harvest, decant and cellar: registers that a command writes though the statement's frame leaves them as they
were. -/

namespace Sys2Proof.Machine

/-! ### A bad reference found at setup (R148, R191) -/

/-- A DELTA harvest of slot 3 whose reservation has room and whose tile 5 still drains; the first descriptor of the reference vintage 5 fails
its CRC. -/
def deltaOverBadReference : State := on fun h =>
  let h := h.running3.cellar1
  { h.setTile 5 { st := .inContext, slot := 3, rdOut := 1 } with
    harv := { op := 1, vintage := 9, ref := 5, slots := [3], rect := 0x03070000, caps := ⟨[(5, { selected := true })]⟩ }
    cell := { h.cell with index := ⟨[(4, { number := 5, state := 2, manifest := h.geo.descAt 0 })]⟩ } }

/-- Loading the cask map of that reference sets DESC_CRC in PG_ERROR of the cellar (R148, R190, R191). -/
theorem harvSetupDone_records_bad_reference (t : State) (x : exec .harvSetupDone deltaOverBadReference = .next t) :
    t.hub.regB (R.PG_ERROR + Pg.CELL * 0x1000) 0 ≠ deltaOverBadReference.hub.regB (R.PG_ERROR + Pg.CELL * 0x1000) 0 := by
  injection x with x
  subst x
  decide +kernel

/-- Refutes O34: the admission of a DELTA harvest records in PG_ERROR that its reference fails its check, which the statement keeps. -/
theorem not_a_harvest_sets_up_drains_and_takes_records : ¬ Obligations.a_harvest_sets_up_drains_and_takes_records := by
  intro h
  obtain ⟨-, setup, -⟩ := h
  have calm : deltaOverBadReference.hub.calm = true := by decide +kernel
  have entry : deltaOverBadReference.hub.freeEntry.isSome = true := by decide +kernel
  have drains : deltaOverBadReference.hub.drainTiles.all (fun t => (deltaOverBadReference.hub.tile t).quietNow) = false := by decide +kernel
  obtain ⟨t, next, -, -, -, -, -, -, -, -, -, keeps⟩ := setup deltaOverBadReference calm rfl rfl rfl rfl (by decide +kernel) entry drains
  exact harvSetupDone_records_bad_reference t next (keeps _ 0 (by decide) (by decide))

/-! ### The counters of a lane other than lane 0 (R164) -/

/-- A lane whose stream is open in cask 1, after its LOCATOR. -/
def openLane : LaneSt := { mode := 1, isOpen := true, casks := [1], pos := 48, firstHdr := some 48 }

/-- A harvest of slot 3 that is ready for its close, with a stream on lane 1. -/
def closingOverLane1 : State := on fun h =>
  { h.stopped3.cellar1.wr F.HARV_STATUS_PHASE 5 with
    harv := { op := 1, admitted := true, drained := true, vintage := 9, slots := [3], rect := 0x03070000, manifestChain := [0] }
    lanes := ⟨[(1, openLane)]⟩ }

/-- The END block of the stream counts in PRESS_OUT of lane 1 (R151, R164). -/
theorem harvDone_counts_end_of_lane1 (t : State) (x : exec (.harvDone false) closingOverLane1 = .next t) :
    t.hub.regB (R.PRESS_OUT_LO + 0x1000) 0 ≠ closingOverLane1.hub.regB (R.PRESS_OUT_LO + 0x1000) 0 := by
  injection x with x
  subst x
  decide +kernel

/-- Refutes O35: HARV_DONE writes the END of every open stream, counted in its lane's own page, and of the lanes' pages the statement lets only
that of lane 0 change. -/
theorem not_a_harvest_ends_with_its_manifest_or_is_aborted : ¬ Obligations.a_harvest_ends_with_its_manifest_or_is_aborted := by
  intro h
  obtain ⟨done, -⟩ := h
  have calm : closingOverLane1.hub.calm = true := by decide +kernel
  have ready : closingOverLane1.hub.harvReady = true := by decide +kernel
  obtain ⟨t, next, -, -, -, -, -, -, -, -, -, -, -, -, -, keeps⟩ := done closingOverLane1 calm ready rfl rfl rfl rfl rfl rfl rfl
  exact harvDone_counts_end_of_lane1 t next (keeps _ 0 (by decide) (by decide))

/-- A harvest of slot 3 that waits for the record of tile 5 on lane 1, which serves the queues of the retired lane 0, with a stream write of
lane 1 outstanding. No verification of its blocks is enabled. -/
def writingOverLane1 : State := on fun h =>
  ({ h.stopped3.cellar1.wr (F.PRESS_CTRL_VERIFY_EN.lane 1) 0 with
    harv := { op := 1, admitted := true, drained := true, vintage := 9, slots := [3], rect := 0x03070000, range := 0x03FF0000,
              caps := ⟨[(5, { selected := true, slot := some 3 })]⟩, cur := ⟨[(5, { phase := 1, tiles := [5] })]⟩ }
    lanes := ⟨[(0, { mode := 4 }), (1, openLane)]⟩ } : Hub).issued 1

/-- The GAP record that the failed write leads to is a block of lane 1, counted there (R127, R164). -/
theorem streamError_counts_gap_of_lane1 (t : State) (x : exec (.cellarResponse (.lane 1) true) writingOverLane1 = .next t) :
    t.hub.regB (R.PRESS_BLOCKS + 0x1000) 0 ≠ writingOverLane1.hub.regB (R.PRESS_BLOCKS + 0x1000) 0 := by
  injection x with x
  subst x
  decide +kernel

/-- Refutes O38: an error of a stream write ends the harvest with GAP records, counted in their lane's own page, and of the lanes' pages the
statement lets only that of lane 0 change. -/
theorem not_cellar_commands_pin_delete_and_format : ¬ Obligations.cellar_commands_pin_delete_and_format := by
  intro h
  obtain ⟨-, -, -, -, -, -, -, -, error⟩ := h
  have calm : writingOverLane1.hub.calm = true := by decide +kernel
  have waits : writingOverLane1.hub.outstanding (1 : Lane) ≠ 0 := by decide +kernel
  obtain ⟨t, next, -, -, -, -, -, -, -, keeps⟩ := error writingOverLane1 1 calm waits rfl rfl rfl rfl
  exact streamError_counts_gap_of_lane1 t next (keeps _ 0 (by decide) (by decide))

/-! ### The stream a lane decodes (R158, R164) -/

/-- A stream without records: a LOCATOR without rows, then END (R150, R151). -/
def emptyStream : List Byte :=
  let locator := locBody 0 {}
  let last := le 8 0xFFFFFFFFFFFFFFFF ++ zeros 8
  block BlkKind.LOCATOR 0 locator.length locator locator ++ block BlkKind.END 0 16 last last

/-- The manifest of a vintage of one RESTORABLE domain without tiles, of slot 3: LANE_COUNT is 1, and the stream of that lane begins in the cask
whose descriptor lies at `first` (R118, R119). -/
def oneStreamManifest (first : Nat) : List Byte :=
  let head := zeros 40 ++ le 2 1 ++ le 2 1 ++ zeros 84
  let domain := le 1 3 ++ zeros 5 ++ le 1 1 ++ zeros 25
  let lane := le 8 first ++ zeros 8 ++ le 8 emptyStream.length ++ zeros 8
  head ++ domain ++ lane

/-- The descriptor of the only cask of a chain of vintage 9. -/
def onlyCask (kind used : Nat) : Desc :=
  { next := noCask, vintage := 9, kind := kind, lane := 0, closed := true, used := used, pos := 0, firstHdr := 0 }

/-- A cellar with vintage 9: its manifest in cask 0, its stream in cask 1. -/
def Hub.cellarOfStream (h : Hub) : Hub :=
  let h := h.cellar1
  let manifest := oneStreamManifest (h.geo.descAt 1)
  let record := recHeader 6 0 0 9 0 manifest ++ manifest
  let described := (h.putDesc 0 (onlyCask 2 record.length)).putDesc 1 (onlyCask 1 emptyStream.length)
  let written := (described.putMem (h.geo.caskAt 0) record).putMem (h.geo.caskAt 1) emptyStream
  let vintage : Vint := { number := 9, state := 2, manifest := h.geo.descAt 0, casks := 2, chain := [1, 0] }
  { written.commit h.store with cell := { h.cell with usedCasks := [0, 1], index := ⟨[(0, vintage)]⟩ } }

/-- A stopped domain without tiles in slot 3, and a HARV page that asks for the decant of vintage 9 into it. -/
def decantOfStream : State := on fun h =>
  ((h.cellarOfStream.setDom 3 { st := .stopped, consistent := true }).setReg R.HARV_VINTAGE 9).wr F.HARV_DECANT_SLOT_SLOT 3

-- The kernel takes the CRCs of the manifest byte by byte, deeper than the default depth.
set_option maxRecDepth 2000 in
/-- The DECANT passes R126 and step 1 of R123. -/
theorem decantOfStream_passes : decantOfStream.hub.decantCheck.1 = St.OK := by decide +kernel

set_option maxRecDepth 2000 in
/-- The DECANT shows its vintage in PRESS_STREAM of the lane that decodes the stream (R164). -/
theorem decant_shows_stream_of_lane0 (t : State) (x : exec (.decant .mgmt) decantOfStream = .next t) :
    t.hub.regB R.PRESS_STREAM 0 ≠ decantOfStream.hub.regB R.PRESS_STREAM 0 := by
  injection x with x
  subst x
  decide +kernel

/-- Refutes O36: a DECANT that starts writes PRESS_STREAM of each lane that decodes a stream of the vintage, which the statement keeps. -/
theorem not_a_decant_starts_completes_or_holds_its_slot : ¬ Obligations.a_decant_starts_completes_or_holds_its_slot := by
  intro h
  obtain ⟨start, -⟩ := h
  have calm : decantOfStream.hub.calm = true := by decide +kernel
  have taken : decantOfStream.hub.takesWrite .mgmt R.HARV_CMD 2 = true := by decide +kernel
  have slot : decantOfStream.hub.rd F.HARV_DECANT_SLOT_SLOT = 3 := by decide +kernel
  have found : decantOfStream.hub.decantVintage.isSome = true := by decide +kernel
  obtain ⟨⟨e, v⟩, found⟩ := Option.isSome_iff_exists.mp found
  obtain ⟨t, next, -, -, -, -, -, -, -, -, -, -, -, -, -, -, keeps⟩ :=
    start decantOfStream .mgmt 3 e v calm taken slot decantOfStream_passes found
  exact decant_shows_stream_of_lane0 t next (keeps _ 0 (by decide) (by decide))

end Sys2Proof.Machine
end

section
/-! SUPPORT. The statement of the press: a block whose lane buffers hold an uncorrectable word is not the block the statement counts. -/

namespace Sys2Proof.Machine

/-! ### An uncorrectable word in a lane's buffers (R159, R415) -/

/-- A TCS record of tile 5 whose payload repeats one byte, so that its block is COMPRESSED. -/
def runRecord : Rec := { type := 1, flags := 0, tile := 5, offset := 0, payload := List.replicate 64 9 }

/-- A harvest of slot 3 that waits for the record of tile 5; lane 0 has it whole in its encoder, and an uncorrectable word was met in the lane's
buffers since its last block. -/
def blockOverBadWord : State := on fun h =>
  { h.stopped3.cellar1 with
    harv := { op := 1, admitted := true, drained := true, vintage := 9, slots := [3], rect := 0x03070000, range := 0x03FF0000,
              caps := ⟨[(5, { selected := true, slot := some 3 })]⟩ }
    lanes := ⟨[(0, { openLane with casks := [0], cur := some runRecord, eccDue := true })]⟩ }

/-- The block as the encoder made it, COMPRESSED, has 35 bytes. -/
theorem curBlock_of_blockOverBadWord_length (b : DataBlock) (x : blockOverBadWord.hub.curBlock 0 none false = some b) :
    b.bytes.length = 35 := by
  have length : (blockOverBadWord.hub.curBlock 0 none false).map (·.bytes.length) = some 35 := by decide +kernel
  rw [x] at length
  exact Option.some.inj length

/-- The uncorrectable word is handled as a mismatch (R159): a RAW block of a header and the record's 80 bytes is written, not the COMPRESSED one,
though the command reports no fault. -/
theorem pressBlockDone_writes_raw_over_bad_word (t : State) (x : exec (.pressBlockDone 0 0) blockOverBadWord = .next t) :
    (t.hub.lane 0).pos = (blockOverBadWord.hub.lane 0).pos + 96 := by
  injection x with x
  subst x
  decide +kernel

/-- Refutes O37: with an uncorrectable word in the lane's buffers the block is written RAW even where the command reports no fault, and the stream
grows by the RAW block's bytes, not by those of the encoder's COMPRESSED block that the statement counts. -/
theorem not_the_press_writes_blocks_and_its_lanes_retire : ¬ Obligations.the_press_writes_blocks_and_its_lanes_retire := by
  intro h
  obtain ⟨blockDone, -⟩ := h
  have calm : blockOverBadWord.hub.calm = true := by decide +kernel
  have due : blockOverBadWord.hub.blockDue 0 = true := by decide +kernel
  have made : (blockOverBadWord.hub.curBlock 0 none false).isSome = true := by decide +kernel
  have completes : (blockOverBadWord.hub.writeBlock 0 none false false).1 = .block (some runRecord) := by decide +kernel
  obtain ⟨b, made⟩ := Option.isSome_iff_exists.mp made
  obtain ⟨t, next, -, pos, -⟩ := blockDone blockOverBadWord 0 b runRecord calm due rfl made completes rfl
  have compressed := curBlock_of_blockOverBadWord_length b made
  have raw := pressBlockDone_writes_raw_over_bad_word t next
  have pos : (t.hub.lane 0).pos = (blockOverBadWord.hub.lane 0).pos + b.bytes.length := pos
  omega

end Sys2Proof.Machine
end

section
/-! SUPPORT. The statement of racking: a trace request of another hub renews its hold over the tendrils, which the statement's frame leaves as
they were. -/

namespace Sys2Proof.Machine

/-! ### The renewal of a hold on another hub's ring (R183, R186) -/

/-- Lead hub 130 sends the trace ring of hub 131, which tendril 1 reaches, and last renewed its hold there more than 1 ms ago. -/
def rackingRemoteRing : State := on fun h =>
  { h with
    time := { h.time with hclk := 4000000 }
    fed := { h.fed with tend := ⟨[(1, { st := Ts.UP })]⟩, routes := ⟨[(3, { valid := true, tendril := 1 })]⟩ }
    rack := { active := some { id := 7, hub := 131, trace := true }, step := 4 } }

/-- The renewal is a HOLD command to hub 131 that awaits its answer (R186, log entry 335), where none awaited one before. -/
theorem holdRenew_asks_remote_ring (t : State) (x : exec .holdRenew rackingRemoteRing = .next t) :
    t.hub.fed.reqs.map (fun q => (q.dest, q.opcode)) = [(131, Op.HOLD)] := by
  injection x with x
  subst x
  decide +kernel

/-- Refutes O39: the renewal of a trace request sets the time anew, and where the ring is another hub's it also sends a HOLD command there, though
the statement lets nothing but the racking engine change. -/
theorem not_racking_queues_starts_holds_and_cancels : ¬ Obligations.racking_queues_starts_holds_and_cancels := by
  intro h
  obtain ⟨-, -, -, -, -, -, -, renewTrace, -⟩ := h
  have calm : rackingRemoteRing.hub.calm = true := by decide +kernel
  have due : rackingRemoteRing.hub.elapsed rackingRemoteRing.hub.rack.renewAt Config.millisecond = true := by decide +kernel
  obtain ⟨t, next, -, -, rest, -⟩ := renewTrace rackingRemoteRing _ calm rfl due rfl
  have unasked : t.hub.fed.reqs = [] := congrArg (fun h : Hub => h.fed.reqs) rest
  have asked := holdRenew_asks_remote_ring t next
  rw [unasked] at asked
  cases asked

end Sys2Proof.Machine
end

section
/-! SUPPORT. The statements of the trace commands and of the spurs: trace that starts into a frozen ring, and a spur that leaves low power after
a loss. -/

namespace Sys2Proof.Machine

/-! ### A START while the ring is frozen (R209, R216) -/

/-- Trace stopped, the ring frozen by FREEZE, and EVENT packets of the trace class enabled. -/
def frozenBeforeStart : State := on fun h =>
  ((h.running3.cellar1.wr F.TRACE_STATE_FROZEN (2 ^ Fz.COMMAND)).wr F.TRACE_CTRL_EV_EN 1).setReg R.TRACEF_EVCLASS (2 ^ 6)

/-- The EVENT packet of TRACE_STARTED meets a frozen ring: it is discarded and counted (R209, R215). -/
theorem traceStart_counts_discarded_event (t : State) (x : exec (.traceStart .mgmt) frozenBeforeStart = .next t) :
    t.hub.regB R.TRACE_DISCARDED 0 ≠ frozenBeforeStart.hub.regB R.TRACE_DISCARDED 0 := by
  injection x with x
  subst x
  decide +kernel

/-- Refutes O40: a START into a frozen ring discards the EVENT packet of its own TRACE_STARTED and counts it in TRACE_DISCARDED, which the
statement keeps. -/
theorem not_trace_commands_start_stop_freeze_and_trigger : ¬ Obligations.trace_commands_start_stop_freeze_and_trigger := by
  intro h
  obtain ⟨start, -⟩ := h
  have calm : frozenBeforeStart.hub.calm = true := by decide +kernel
  have taken : frozenBeforeStart.hub.takesWrite .mgmt R.TRACE_CMD 1 = true := by decide +kernel
  have passes : frozenBeforeStart.hub.traceCheck 1 = St.OK := by decide +kernel
  have unarmed : frozenBeforeStart.hub.flag F.TRACE_STATE_ARMED = false := by decide +kernel
  have untriggered : frozenBeforeStart.hub.flag F.TRACE_STATE_TRIGGERED = false := by decide +kernel
  obtain ⟨t, next, -, -, -, -, -, -, -, -, -, keeps⟩ := start frozenBeforeStart .mgmt calm taken passes unarmed untriggered
  exact traceStart_counts_discarded_event t next (keeps _ 0 (by decide) (by decide))

/-! ### A low-power exit after a loss (R204, R207) -/

/-- Tile 5 of slot 3, traced and in low power; the router has asked its row for a SYNC since, after a loss. -/
def lowPowerOverLoss : State := on fun h =>
  ((h.running3.cellar1.wr F.TRACE_STATE_RUNNING 1).wrB F.TRACEF_SLOT_EN 3 1).setTile 5
    { st := .inContext, slot := 3, lowPower := 2, syncDue := some 3 }

/-- The SYNC of the exit has the reason of the loss (R204). -/
theorem lowPowerExit_syncs_with_overflow (t : State) (x : exec (.lowPowerExit 5) lowPowerOverLoss = .next t) :
    (t.hub.tile 5).tbuf = [lowPowerOverLoss.hub.syncPacket 5 lowPowerOverLoss.hub.now 3] := by
  injection x with x
  subst x
  decide +kernel

/-- Refutes O41: where the router has asked for a SYNC after a loss, the SYNC of a low-power exit has the reason OVERFLOW, and not POWER. -/
theorem not_spurs_trace_what_their_tiles_show : ¬ Obligations.spurs_trace_what_their_tiles_show := by
  intro h
  obtain ⟨-, -, -, -, -, exit, -⟩ := h
  have traced : lowPowerOverLoss.hub.traces (5 : TileId) = true := by decide +kernel
  have calm : (lowPowerOverLoss.hub.wr F.TRACE_STATE_RUNNING 0).calm = true := by decide +kernel
  have undegraded : lowPowerOverLoss.hub.reg R.REL_DEGRADED = lowPowerOverLoss.hub.degradedNow := by decide +kernel
  have room : (lowPowerOverLoss.hub.tile (5 : TileId)).traceWords + 7 ≤ 512 := by decide +kernel
  obtain ⟨t, next, -, tile, -⟩ := exit lowPowerOverLoss 5 traced calm undegraded rfl room
  have power : (t.hub.tile 5).tbuf = [lowPowerOverLoss.hub.syncPacket 5 lowPowerOverLoss.hub.now 4] := congrArg Tile.tbuf tile
  rw [lowPowerExit_syncs_with_overflow t next] at power
  exact absurd power (by decide +kernel)

end Sys2Proof.Machine
end

section
/-! SUPPORT. What the trace unit changes on a calm hub: its registers, the tiles, the router and the ring, the accesses it has issued, and
package memory. -/

namespace Sys2Proof.Machine

/-! ### Changes of the trace unit -/

/-- `h` with everything that the trace unit may change taken from `s`. -/
def Hub.offTrace (s h : Hub) : Hub :=
  { h with regs := s.regs, bus := s.bus, tiles := s.tiles, cell := s.cell, trace := s.trace, occs := s.occs, writes := s.writes }

/-- `h` comes from `s` by changing the registers of the keys `touched`, the bus, the tiles, the cellar's accesses and the trace state, by writing
memory and by raising occurrences, RELEASED not among them; trace neither starts nor stops. -/
structure Traced (touched : Nat → Bool) (s h : Hub) : Prop where
  core : s.offTrace h = s
  regs : ∀ a b, touched (regKey a b) = false → h.regB a b = s.regB a b
  quiet : ∀ o ∈ h.occs, o ∈ s.occs ∨ o.code ≠ Ev.RELEASED
  kept : ∀ o ∈ s.occs, o ∈ h.occs
  running : h.rd F.TRACE_STATE_RUNNING = s.rd F.TRACE_STATE_RUNNING

variable {touched : Nat → Bool}

theorem Traced.trans {s t u : Hub} (h1 : Traced touched s t) (h2 : Traced touched t u) : Traced touched s u := by
  refine ⟨?_, fun a b n => (h2.regs a b n).trans (h1.regs a b n), fun o m => (h2.quiet o m).elim (h1.quiet o) .inr,
    fun o m => h2.kept o (h1.kept o m), h2.running.trans h1.running⟩
  have e : s.offTrace u = s.offTrace (t.offTrace u) := rfl
  rw [e, h2.core, h1.core]

/-- A change of the cork unit that is one of the trace unit too. -/
theorem Traced.of_corked {s h : Hub} (k : Corked touched s h) (core : s.offTrace h = s)
    (running : h.rd F.TRACE_STATE_RUNNING = s.rd F.TRACE_STATE_RUNNING) : Traced touched s h :=
  ⟨core, k.regs, k.quiet, k.kept, running⟩

/-- A change of the tiles, the cellar's accesses, the trace state or memory alone. -/
theorem Traced.of_core {s h : Hub} (core : { s.offTrace h with regs := h.regs, occs := h.occs } = s) : Traced touched s h := by
  have same {α : Type} (g : Hub → α) := congrArg g core
  have regs : h.regs = s.regs := same Hub.regs
  have occs : h.occs = s.occs := same Hub.occs
  refine ⟨?_, fun a b _ => by rw [Hub.regB, Hub.regB, regs], fun o m => .inl (occs ▸ m), fun o m => occs ▸ m, ?_⟩
  · rw [regs, occs] at core; exact core
  · rw [Hub.rd, Hub.rd, Hub.rdB, Hub.rdB, Hub.regB, Hub.regB, regs]

theorem Traced.refl (s : Hub) : Traced touched s s := .of_core rfl

theorem Traced.setTile (s : Hub) (t : Nat) (x : Tile) : Traced touched s (s.setTile t x) := .of_core rfl

theorem Traced.setFrameBuf (s : Hub) (i : Nat) (f : FrameBuf) : Traced touched s (s.setFrameBuf i f) := .of_core rfl

theorem Traced.withTrace (s : Hub) (x : TraceSt) : Traced touched s { s with trace := x } := .of_core rfl

theorem Traced.issued (s : Hub) (unit : Nat) : Traced touched s (s.issued unit) := .of_core rfl

theorem Traced.putMem (s : Hub) (a : Nat) (bs : List Byte) : Traced touched s (s.putMem a bs) := .of_core rfl

theorem Traced.respond (s : Hub) (r : Req) (v st : Nat) : Traced touched s (s.respond r v st) := .of_core rfl

theorem Traced.setReg (s : Hub) {a : Nat} (v : Nat) (k : touched a = true) (n : F.TRACE_STATE_RUNNING.addr ≠ a := by decide) :
    Traced touched s (s.setReg a v) := .of_corked (.setReg s v k) rfl (Hub.rd_setReg_ne s _ v n)

theorem Traced.setReg64 (s : Hub) {a : Nat} (v : Nat) (lo : touched a = true) (hi : touched (a + 4) = true)
    (n : F.TRACE_STATE_RUNNING.addr ≠ a := by decide) (n' : F.TRACE_STATE_RUNNING.addr ≠ a + 4 := by decide) :
    Traced touched s (s.setReg64 a v) := (Traced.setReg s _ lo n).trans (.setReg _ _ hi n')

theorem Traced.wr (s : Hub) {f : Fld} (v : Nat) (k : touched f.addr = true) (n : f.apart F.TRACE_STATE_RUNNING = true := by decide) :
    Traced touched s (s.wr f v) := .of_corked (.wr s v k) rfl (Hub.rd_wr_apart s f _ v (by decide) n)

theorem Traced.raise (s : Hub) {c : Nat} (u : Option Nat) (n : c ≠ Ev.RELEASED) : Traced touched s (s.raise c u) :=
  .of_corked (.raise s u n) rfl rfl

theorem Traced.doEach {α : Type} {f : Hub → α → Hub} (hf : ∀ s a, Traced touched s (f s a)) (l : List α) (s : Hub) :
    Traced touched s (Machine.doEach l s f) :=
  doEach_keeps (Traced touched s) f (fun t a h => h.trans (hf t a)) l s (.refl s)

theorem Traced.rd {s h : Hub} (k : Traced touched s h) (f : Fld) (n : touched f.addr = false) : h.rd f = s.rd f := by
  simp only [Hub.rd, Hub.rdB, k.regs f.addr 0 (by rwa [regKey_zero])]

theorem Traced.reg {s h : Hub} (k : Traced touched s h) {a : Nat} (n : touched a = false) : h.reg a = s.reg a :=
  k.regs a 0 (by rwa [regKey_zero])

theorem Traced.reg64 {s h : Hub} (k : Traced touched s h) {a : Nat} (lo : touched a = false) (hi : touched (a + 4) = false) :
    h.reg64 a = s.reg64 a := by rw [Hub.reg64, Hub.reg64, k.reg lo, k.reg hi]

theorem Traced.now {s h : Hub} (k : Traced touched s h) (n : touched F.TIME_EPOCH_EPOCH.addr = false) : h.now = s.now := by
  have time : h.time = s.time := show (s.offTrace h).time = _ by rw [k.core]
  rw [Hub.now, Hub.now, Hub.timeOk, Hub.timeOk, Hub.epoch, Hub.epoch, k.rd _ n, time]

/-- The registers that the condition `calm` looks at, but for RUNNING. -/
def waitKeys : List Nat := [F.HARV_STATUS_PHASE.addr, F.TRACE_TRIG_CTRL_HUBEV_EN.addr]

/-- Nothing comes to wait where no register is touched that `calm` looks at. -/
theorem Traced.still {s h : Hub} (k : Traced touched s h) (n : ∀ a ∈ waitKeys, touched a = false) (c : s.still) : h.still := by
  have phase := k.rd F.HARV_STATUS_PHASE (n _ (by simp [waitKeys]))
  rw [← k.core] at c
  obtain ⟨reports, policies, peers, reqs, soft, ladder, drain, columns, close⟩ := c
  exact ⟨reports, policies, peers, reqs, soft, ladder, drain, columns, close.imp id phase.trans⟩

theorem Traced.untraced {s h : Hub} (k : Traced touched s h) (n : ∀ a ∈ waitKeys, touched a = false) (c : s.untraced) : h.untraced := by
  unfold Hub.untraced Hub.flag at *
  rwa [k.running, k.rd F.TRACE_TRIG_CTRL_HUBEV_EN (n _ (by simp [waitKeys]))]

/-! ### The command's whole effect -/

/-- What a calm hub `s` becomes by a command whose unit makes changes of the trace unit on the way to `h`: `t`. -/
structure TraceEffect (touched : Nat → Bool) (s h t : Hub) : Prop where
  rest : s.rest t = { s with tiles := h.tiles, cell := h.cell, trace := h.trace, store := s.store.writeAll h.writes }
  keeps : ∀ a b, eventKey (regKey a b) = false → touched (regKey a b) = false → t.regB a b = s.regB a b
  regs : ∀ a b, eventKey (regKey a b) = false → t.regB a b = h.regB a b
  shows : ∀ o ∈ h.occs, (∀ p i, eventBit o.code (o.unit.getD 0) = some (p, i) → i < 32) → t.shows o.code (o.unit.getD 0) = true

section
variable {s h t : Hub} (x : TraceEffect touched s h t)
include x

theorem TraceEffect.tiles : t.tiles = h.tiles := show (s.rest t).tiles = _ by rw [x.rest]
theorem TraceEffect.cell : t.cell = h.cell := show (s.rest t).cell = _ by rw [x.rest]
theorem TraceEffect.trace : t.trace = h.trace := show (s.rest t).trace = _ by rw [x.rest]
theorem TraceEffect.store : t.store = s.store.writeAll h.writes := show (s.rest t).store = _ by rw [x.rest]
theorem TraceEffect.tile (u : Nat) : t.tile u = h.tile u := by rw [Hub.tile, x.tiles, Hub.tile]
theorem TraceEffect.frameBuf (i : Nat) : t.frameBuf i = h.frameBuf i := by rw [Hub.frameBuf, x.trace, Hub.frameBuf]

/-- A unit that changes registers and the trace state and writes memory. -/
theorem TraceEffect.rest_ring (tiles : h.tiles = s.tiles) : s.rest t = { s with trace := t.trace, cell := t.cell, store := t.store } := by
  rw [x.rest, x.trace, x.cell, x.store, tiles]

/-- A unit that changes registers, the trace state and the tiles, and writes no memory. -/
theorem TraceEffect.rest_spurs (same : h.cell = s.cell ∧ h.writes = []) : s.rest t = { s with tiles := t.tiles, trace := t.trace } := by
  rw [x.rest, x.trace, x.tiles, same.1, same.2]; rfl

/-- A unit that changes registers and the trace state. -/
theorem TraceEffect.rest_trace (tiles : h.tiles = s.tiles) (same : h.cell = s.cell ∧ h.writes = []) :
    s.rest t = { s with trace := t.trace } := by
  rw [x.rest_spurs same, x.tiles, tiles]

theorem TraceEffect.reg {a : Nat} (n : eventKey a = false) : t.reg a = h.reg a := x.regs a 0 (by rwa [regKey_zero])

theorem TraceEffect.reg64 {a : Nat} (lo : eventKey a = false) (hi : eventKey (a + 4) = false) : t.reg64 a = h.reg64 a := by
  rw [Hub.reg64, Hub.reg64, x.reg lo, x.reg hi]

theorem TraceEffect.rd (f : Fld) (n : eventKey f.addr = false) : t.rd f = h.rd f := by
  simp only [Hub.rd, Hub.rdB, x.regs f.addr 0 (by rwa [regKey_zero])]

theorem TraceEffect.hasErr (e : ErrBit) : t.hasErr e = h.hasErr e := by
  rw [Hub.hasErr, x.rd _ (eventKey_errors _), Hub.hasErr]

/-- An event that the unit raised is seen in PG_EVENT. -/
theorem TraceEffect.shows_raised {code unit : Nat} (m : ∃ o ∈ h.occs, o.code = code ∧ o.unit.getD 0 = unit)
    (bit : ∀ p i, eventBit code unit = some (p, i) → i < 32) : t.shows code unit = true := by
  obtain ⟨o, m, rfl, rfl⟩ := m
  exact x.shows o m bit

end

theorem TraceEffect.keeps_keys {keys : List Nat} {s h t : Hub} (x : TraceEffect (ofKeys keys) s h t) : s.keeps t keys :=
  fun a b q n => x.keeps a b q (by simpa [ofKeys] using n)

/-- What a command leaves, seen from the hub `s` before its unit changed it. -/
theorem Traced.rest_ran {s h t : Hub} (k : Traced touched s h) (o : s.occs = []) (w : s.writes = []) (r : Ran false h s.store t) :
    s.rest t = { s with tiles := h.tiles, cell := h.cell, trace := h.trace, store := s.store.writeAll h.writes } := by
  have same {α : Type} (g : Hub → α) := congrArg g k.core
  have link : h.link = s.link := same Hub.link
  have pins : h.pins = s.pins := same Hub.pins
  have coops : h.coops = s.coops := same Hub.coops
  have told (c : Nat) : (t.coop c).told = (s.coop c).told := by rw [r.told rfl c, Hub.coop, Hub.coop, coops]
  calc s.rest t = { h.rest t with regs := s.regs, bus := s.bus, pins := s.pins, coops := s.coops } := by
        simp only [Hub.rest, told, and_self, if_true, link]
    _ = { s.offTrace h with
          tiles := h.tiles, cell := h.cell, trace := h.trace, store := s.store.writeAll h.writes, occs := [], writes := [] } := by
        rw [r.rest]; simp only [Hub.offTrace, pins, coops]
    _ = { s with
          tiles := h.tiles, cell := h.cell, trace := h.trace, store := s.store.writeAll h.writes, occs := [], writes := [] } := by
        rw [k.core]
    _ = _ := by rw [← o, ← w]

/-- A command answers what its unit's effect shows. -/
theorem answers_traced {i : Instr} {s : State} {p : Hub → Prop} {f : Hub → Hub} {h : Hub} (x : exec i s = run f s) (e : f s.hub = h)
    (k : Traced touched s.hub h) (n : ∀ a ∈ waitKeys, touched a = false) (c : s.hub.calm = true)
    (q : ∀ t, t.bus = h.bus → TraceEffect touched s.hub h t → p t) : Answers i s p := by
  subst e
  obtain ⟨o, w⟩ := calm_nothing_left c
  obtain ⟨t, e, r⟩ := run_spec (rel := false) f s (k.still n (calm_still c)) (k.untraced n (calm_untraced c))
    fun _ x m => (k.quiet x m).resolve_left (by simp [o])
  have regs (a b : Nat) (q : eventKey (regKey a b) = false) := r.keeps a b q (by simp)
  exact ⟨_, x.trans e, rfl, q t r.bus ⟨k.rest_ran o w r, fun a b q m => (regs a b q).trans (k.regs a b m), regs, r.shows⟩⟩

end Sys2Proof.Machine
end

section
/-! SUPPORT. The ring (R205, R208): a closed frame is 64 bytes, which stand in package memory where TRACE_WPTR was, and the pointer moves on. -/

namespace Sys2Proof.Machine

/-! ### Pairs of registers and bytes of a memory -/

/-- A LO/HI pair reads what was stored in it. -/
theorem Hub.reg64_setReg64 (s : Hub) (a v : Nat) : (s.setReg64 a v).reg64 a = v % 2 ^ 64 := by
  rw [Hub.reg64, Hub.setReg64, Hub.reg_setReg, Hub.reg_setReg_ne _ _ (by omega), Hub.reg_setReg]
  omega

/-- Storing a LO/HI pair leaves every other one alone. -/
theorem Hub.reg64_setReg64_ne (s : Hub) {a a' : Nat} (v : Nat) (n : a' ≠ a ∧ a' ≠ a + 4 ∧ a' + 4 ≠ a) :
    (s.setReg64 a v).reg64 a' = s.reg64 a' := by
  obtain ⟨lo, mid, hi⟩ := n
  rw [Hub.reg64, Hub.setReg64, Hub.reg_setReg_ne _ _ mid, Hub.reg_setReg_ne _ _ lo, Hub.reg_setReg_ne _ _ (by omega),
    Hub.reg_setReg_ne _ _ hi, Hub.reg64]

theorem Hub.reg64_issued (s : Hub) (unit a : Nat) : (s.issued unit).reg64 a = s.reg64 a := rfl

/-- A byte string written to a memory reads back. -/
theorem memRead_memWriteAll (m : List Host.Cell) (a : Nat) (bs : List Byte) {i : Nat} (h : i < bs.length) :
    memRead (memWriteAll m a bs) (a + i) = bs.getD i 0 := by
  induction bs generalizing m a i with
  | nil => cases h
  | cons b bs ih =>
    rw [memWriteAll]
    cases i with
    | zero => rw [memRead_memWriteAll_ne _ _ _ (by omega), Nat.add_zero, memRead_memWrite, List.getD_cons_zero]
    | succ i =>
      rw [List.getD_cons_succ, ← ih _ (a + 1) (Nat.lt_of_succ_lt_succ h)]
      congr 1
      omega

theorem length_le (n v : Nat) : (le n v).length = n := by
  induction n generalizing v with
  | zero => rfl
  | succ n ih => rw [le, List.length_cons, ih]

theorem length_flatMap_le (n : Nat) (ws : List Word) : (ws.flatMap fun w => le n w.toNat).length = n * ws.length := by
  simp [List.length_flatMap, length_le, Nat.mul_comm]

/-- A frame of at most fifteen words is 64 bytes (R205). -/
theorem length_frameBytes (i : Nat) {ws : List Word} (loss : Bool) (seq : Nat) (h : ws.length ≤ 15) :
    (frameBytes i ws loss seq).length = 64 := by
  simp only [frameBytes, padTo, zeros, List.length_append, List.length_replicate, length_le, length_flatMap_le]
  omega

/-! ### Frame buffers and freezing -/

@[simp] theorem Hub.frameBuf_setFrameBuf_same (s : Hub) (i : Nat) (f : FrameBuf) : (s.setFrameBuf i f).frameBuf i = f := Tab.get_set_same ..

theorem frozen_zero {s : Hub} (u : s.frozenRing = false) : s.rd F.TRACE_STATE_FROZEN = 0 := by
  simpa [Hub.frozenRing] using u

/-- The first freeze reason raises RING_FROZEN (R209). -/
theorem freeze_unfrozen {s : Hub} (u : s.rd F.TRACE_STATE_FROZEN = 0) (bit : Nat) :
    s.freeze bit = (s.wr F.TRACE_STATE_FROZEN (2 ^ bit)).raiseOf Ev.RING_FROZEN (2 ^ bit) := by
  simp [Hub.freeze, u]

/-- The hub once the end of a STOP ring has frozen it, the first reason to do so (R208). -/
def Hub.frozenFull (s : Hub) : Hub := (s.wr F.TRACE_STATE_FROZEN 8).raiseOf Ev.RING_FROZEN 8

theorem freeze_full {s : Hub} (u : s.rd F.TRACE_STATE_FROZEN = 0) : s.freeze Fz.FULL = s.frozenFull := freeze_unfrozen u Fz.FULL

theorem frozenFull_writes (s : Hub) : s.frozenFull.writes = s.writes := rfl

theorem frozenFull_trace (s : Hub) : s.frozenFull.trace = s.trace := rfl

theorem frozenFull_tiles (s : Hub) : s.frozenFull.tiles = s.tiles := rfl

theorem frozenFull_frozen (s : Hub) : s.frozenFull.rd F.TRACE_STATE_FROZEN = 8 := by
  rw [Hub.frozenFull, Hub.rd_raiseOf, Hub.rd_wr _ _ _ (by decide)]
  rfl

theorem frozenFull_raises (s : Hub) : ∃ o ∈ s.frozenFull.occs, o.code = Ev.RING_FROZEN ∧ o.unit.getD 0 = 8 :=
  ⟨_, List.mem_append_right _ (List.mem_singleton_self _), rfl, rfl⟩

variable {touched : Nat → Bool}

theorem Traced.frozenFull (s : Hub) (k : touched R.TRACE_STATE = true) : Traced touched s s.frozenFull :=
  (Traced.wr s _ k).trans (.raise _ _ (by decide))

theorem Traced.freeze (s : Hub) (bit : Nat) (k : touched R.TRACE_STATE = true) : Traced touched s (s.freeze bit) := by
  have set := Traced.wr (f := F.TRACE_STATE_FROZEN) s (s.rd F.TRACE_STATE_FROZEN ||| 2 ^ bit) k
  unfold Hub.freeze
  dsimp only
  split
  · exact set.trans (.raise _ _ (by decide))
  · exact set

/-! ### A frame is written (R208) -/

section
variable (s : Hub) (i : Nat) (ws : List Word)

/-- The hub once the closed frame `ws` of buffer `i` stands at TRACE_WPTR and the pointer has moved past it, before the ring's end is looked at. -/
def Hub.frameStored : Hub :=
  let f := s.frameBuf i
  let freed := s.setFrameBuf i { f with ready := none, readyLoss := false, seq := (f.seq + 1) % 65536 }
  let put := (freed.putMem (s.geo.ringAt + s.wptr) (frameBytes i ws f.readyLoss f.seq)).bump64 R.TRACE_FRAMES_LO 1
  (put.issued Cu.TRACE).setReg64 R.TRACE_WPTR_LO (s.wptr + 64)

/-- A closed frame inside the ring: it is stored; where it reaches the end, the ring freezes or begins anew. -/
theorem frameWritten_inside (ready : (s.frameBuf i).ready = some ws) (unfrozen : s.frozenRing = false) (unguarded : s.guarded = false)
    (inside : s.wptr < s.ringLen) :
    s.frameWritten i false = (if s.wptr + 64 < s.ringLen then s.frameStored i ws else
      if s.trace.ringMode == 1 then (s.frameStored i ws).freeze Fz.FULL else (s.frameStored i ws).wrapRing).postFrame := by
  have some_ring : (s.ringLen == 0) = false := by simp; omega
  simp only [Hub.frameWritten, ready, unfrozen, some_ring, Bool.false_or, Bool.false_eq_true, if_false, unguarded, inside, if_true]
  rfl

/-- The registers of the ring's pointer and of its count of frames. -/
def ringKeys : List Nat := [R.TRACE_WPTR_LO, R.TRACE_WPTR_HI, R.TRACE_FRAMES_LO, R.TRACE_FRAMES_HI]

theorem Traced.frameStored (k : ∀ a ∈ ringKeys, touched a = true) : Traced touched s (s.frameStored i ws) := by
  have k (a : Nat) (m : a ∈ ringKeys := by decide) : touched a = true := k a m
  have freed := Traced.setFrameBuf (touched := touched) s i
    { s.frameBuf i with ready := none, readyLoss := false, seq := ((s.frameBuf i).seq + 1) % 65536 }
  have put := freed.trans (.putMem _ (s.geo.ringAt + s.wptr) (frameBytes i ws (s.frameBuf i).readyLoss (s.frameBuf i).seq))
  have counted := put.trans (.setReg64 _ (s.reg64 R.TRACE_FRAMES_LO + 1) (k R.TRACE_FRAMES_LO) (k R.TRACE_FRAMES_HI))
  exact (counted.trans (.issued _ Cu.TRACE)).trans (.setReg64 _ _ (k R.TRACE_WPTR_LO) (k R.TRACE_WPTR_HI))

theorem frameStored_wptr : (s.frameStored i ws).wptr = (s.wptr + 64) % 2 ^ 64 := Hub.reg64_setReg64 _ _ _

theorem frameStored_frames : (s.frameStored i ws).reg64 R.TRACE_FRAMES_LO = (s.reg64 R.TRACE_FRAMES_LO + 1) % 2 ^ 64 := by
  rw [Hub.frameStored, Hub.reg64_setReg64_ne _ _ (by decide), Hub.reg64_issued, Hub.bump64, Hub.reg64_setReg64]
  rfl

theorem frameStored_frameBuf : (s.frameStored i ws).frameBuf i =
    { s.frameBuf i with ready := none, readyLoss := false, seq := ((s.frameBuf i).seq + 1) % 65536 } := Hub.frameBuf_setFrameBuf_same ..

theorem frameStored_tiles : (s.frameStored i ws).tiles = s.tiles := rfl

theorem frameStored_postLeft : (s.frameStored i ws).trace.postLeft = s.trace.postLeft := rfl

theorem frameStored_writes (none : s.writes = []) : (s.frameStored i ws).writes =
    [⟨.mem, s.geo.ringAt + s.wptr, frameBytes i ws (s.frameBuf i).readyLoss (s.frameBuf i).seq⟩] := by
  show s.writes ++ [_] = _
  rw [none]; rfl

end

/-- The 64 bytes of a frame stand where TRACE_WPTR was, and no other byte of package memory has changed. -/
theorem TraceEffect.frame_in_memory {s h t : Hub} (x : TraceEffect touched s h t) {at_ : Nat} {frame : List Byte}
    (w : h.writes = [⟨.mem, at_, frame⟩]) (l : frame.length = 64) :
    (∀ i, i < 64 → memRead t.store.mem (at_ + i) = frame.getD i 0) ∧
    (∀ a, a < at_ ∨ at_ + 64 ≤ a → memRead t.store.mem a = memRead s.store.mem a) := by
  have mem : t.store.mem = memWriteAll s.store.mem at_ frame := by rw [x.store, w]; rfl
  rw [mem]
  exact ⟨fun i m => memRead_memWriteAll _ _ _ (by omega), fun a m => memRead_memWriteAll_ne _ _ _ (by omega)⟩

theorem exec_traceFrameWritten (buffer : Fin 129) (err : Bool) (s : State) :
    exec (.traceFrameWritten buffer err) s = run (fun h => h.frameWritten buffer err) s := rfl

theorem postFrame_outside_window {s : Hub} (none : s.trace.postLeft = none) : s.postFrame = s := by rw [Hub.postFrame, none]

theorem traceFrameWritten_inside_ring (s : State) (buffer : Fin 129) (ws : List Word) (c : s.hub.calm = true)
    (ready : (s.hub.frameBuf buffer).ready = some ws) (short : ws.length ≤ 15) (unfrozen : s.hub.frozenRing = false)
    (unguarded : s.hub.guarded = false) (inside : s.hub.wptr + 64 < s.hub.ringLen) (window : s.hub.trace.postLeft = none) :
    Answers (.traceFrameWritten buffer false) s fun h =>
      (∀ i, i < 64 → memRead h.store.mem (s.hub.geo.ringAt + s.hub.wptr + i) = (frameBytes buffer ws (s.hub.frameBuf buffer).readyLoss (s.hub.frameBuf buffer).seq).getD i 0) ∧
      (∀ a, a < s.hub.geo.ringAt + s.hub.wptr ∨ s.hub.geo.ringAt + s.hub.wptr + 64 ≤ a → memRead h.store.mem a = memRead s.hub.store.mem a) ∧
      h.wptr = (s.hub.wptr + 64) % 2 ^ 64 ∧
      h.frameBuf buffer = { s.hub.frameBuf buffer with ready := none, readyLoss := false, seq := ((s.hub.frameBuf buffer).seq + 1) % 65536 } ∧
      h.reg64 R.TRACE_FRAMES_LO = (s.hub.reg64 R.TRACE_FRAMES_LO + 1) % 2 ^ 64 ∧
      s.hub.rest h = { s.hub with trace := h.trace, cell := h.cell, store := h.store } ∧
      s.hub.keeps h [R.TRACE_WPTR_LO, R.TRACE_WPTR_HI, R.TRACE_FRAMES_LO, R.TRACE_FRAMES_HI] := by
  have e : s.hub.frameWritten buffer false = s.hub.frameStored buffer ws := by
    rw [frameWritten_inside _ _ _ ready unfrozen unguarded (by omega), if_pos inside]
    exact postFrame_outside_window window
  have k : Traced (ofKeys ringKeys) s.hub (s.hub.frameStored buffer ws) := .frameStored _ _ _ (by decide)
  refine answers_traced (exec_traceFrameWritten _ _ _) e k (by decide) c fun t _ x => ?_
  obtain ⟨bytes, others⟩ := x.frame_in_memory (frameStored_writes _ _ _ (calm_nothing_left (h := s.hub) c).2) (length_frameBytes _ _ _ short)
  refine ⟨bytes, others, ?_, ?_, ?_, x.rest_ring rfl, x.keeps_keys⟩
  · exact (x.reg64 (by decide) (by decide)).trans (frameStored_wptr _ _ _)
  · exact (x.frameBuf _).trans (frameStored_frameBuf _ _ _)
  · exact (x.reg64 (by decide) (by decide)).trans (frameStored_frames _ _ _)

theorem traceFrameWritten_fills_ring (s : State) (buffer : Fin 129) (ws : List Word) (c : s.hub.calm = true)
    (ready : (s.hub.frameBuf buffer).ready = some ws) (short : ws.length ≤ 15) (unfrozen : s.hub.frozenRing = false)
    (unguarded : s.hub.guarded = false) (inside : s.hub.wptr < s.hub.ringLen) (last : s.hub.ringLen ≤ s.hub.wptr + 64)
    (stop : s.hub.trace.ringMode = 1) (window : s.hub.trace.postLeft = none) :
    Answers (.traceFrameWritten buffer false) s fun h =>
      (∀ i, i < 64 → memRead h.store.mem (s.hub.geo.ringAt + s.hub.wptr + i) = (frameBytes buffer ws (s.hub.frameBuf buffer).readyLoss (s.hub.frameBuf buffer).seq).getD i 0) ∧
      (∀ a, a < s.hub.geo.ringAt + s.hub.wptr ∨ s.hub.geo.ringAt + s.hub.wptr + 64 ≤ a → memRead h.store.mem a = memRead s.hub.store.mem a) ∧
      h.rd F.TRACE_STATE_FROZEN = 8 ∧ h.wptr = (s.hub.wptr + 64) % 2 ^ 64 ∧ h.shows Ev.RING_FROZEN 8 = true ∧
      s.hub.rest h = { s.hub with trace := h.trace, cell := h.cell, store := h.store } ∧
      s.hub.keeps h [R.TRACE_WPTR_LO, R.TRACE_WPTR_HI, R.TRACE_FRAMES_LO, R.TRACE_FRAMES_HI, R.TRACE_STATE] := by
  have stored : Traced (ofKeys ringKeys) s.hub (s.hub.frameStored buffer ws) := .frameStored _ _ _ (by decide)
  have still_unfrozen : (s.hub.frameStored buffer ws).rd F.TRACE_STATE_FROZEN = 0 := (stored.rd _ (by decide)).trans (frozen_zero unfrozen)
  have e : s.hub.frameWritten buffer false = (s.hub.frameStored buffer ws).frozenFull := by
    rw [frameWritten_inside _ _ _ ready unfrozen unguarded inside, if_neg (by omega), stop, if_pos (by decide), freeze_full still_unfrozen,
      postFrame_outside_window]
    rw [frozenFull_trace, frameStored_postLeft, window]
  have k : Traced (ofKeys (ringKeys ++ [R.TRACE_STATE])) s.hub (s.hub.frameStored buffer ws).frozenFull :=
    (Traced.frameStored _ _ _ (by decide)).trans (.frozenFull _ (by decide))
  have kept : Traced (ofKeys [R.TRACE_STATE]) (s.hub.frameStored buffer ws) (s.hub.frameStored buffer ws).frozenFull :=
    .frozenFull _ (by decide)
  have written := (frozenFull_writes _).trans (frameStored_writes s.hub buffer ws (calm_nothing_left c).2)
  refine answers_traced (exec_traceFrameWritten _ _ _) e k (by decide) c fun t _ x => ?_
  obtain ⟨bytes, others⟩ := x.frame_in_memory written (length_frameBytes _ _ _ short)
  refine ⟨bytes, others, ?_, ?_, ?_, ?_, x.keeps_keys⟩
  · rw [x.rd _ (by decide), frozenFull_frozen]
  · rw [← frameStored_wptr, Hub.wptr, Hub.wptr, x.reg64 (by decide) (by decide), kept.reg64 (by decide) (by decide)]
  · exact x.shows_raised (frozenFull_raises _) (fun _ _ e => by cases e; decide)
  · exact x.rest_ring ((frozenFull_tiles _).trans (frameStored_tiles _ _ _))

end Sys2Proof.Machine
end

section
/-! SUPPORT. The router's frames between the spurs and the ring: those that close by time (R206), and the one that begins anew after a loss
(R207). -/

namespace Sys2Proof.Machine

/-! ### Frames open for TRACE_FLUSH_LIMIT (R206) -/

/-- A table whose values are mapped reads the mapped value under every key it has. -/
theorem findKey_map {α : Type} {g : Nat × α → Nat × α} {f : α → α} (e : ∀ p, g p = (p.1, f p.2)) {k : Nat} {d : α}
    {l : List (Nat × α)} (m : k ∈ l.map Prod.fst) : findKey k d (l.map g) = f (findKey k d l) := by
  induction l with
  | nil => cases m
  | cons p l ih =>
    rw [List.map_cons, e, findKey, findKey]
    by_cases same : p.1 = k
    · simp only [same, BEq.rfl, if_true]
    · have rest : k ∈ l.map Prod.fst := (List.mem_cons.mp m).resolve_left fun x => same x.symm
      simp only [beq_iff_eq, same, if_false, ih rest]

/-- A frame buffer as TRACE_FLUSH_LIMIT leaves it. -/
def Hub.flushed (s : Hub) (f : FrameBuf) : FrameBuf := if f.since + s.flushLimit ≤ s.time.hclk then f.close else f

theorem frameBuf_flushFrames (s : Hub) {i : Nat} (m : i ∈ s.trace.frames.keys) :
    s.flushFrames.frameBuf i = s.flushed (s.frameBuf i) := by
  refine findKey_map (f := s.flushed) (fun p => ?_) m
  unfold Hub.flushed
  split <;> rfl

theorem exec_traceFlushLimit (s : State) : exec .traceFlushLimit s = run Hub.flushFrames s := rfl

theorem traceFlushLimit_closes_frames (s : State) (i : Nat) (c : s.hub.calm = true) (m : i ∈ s.hub.trace.frames.keys) :
    Answers .traceFlushLimit s fun h =>
      h.frameBuf i = (if (s.hub.frameBuf i).since + s.hub.flushLimit ≤ s.hub.time.hclk then (s.hub.frameBuf i).close else s.hub.frameBuf i) ∧
      s.hub.rest h = { s.hub with trace := h.trace } ∧ s.hub.keeps h [] := by
  have k : Traced (ofKeys []) s.hub s.hub.flushFrames := .withTrace _ _
  refine answers_traced (exec_traceFlushLimit s) rfl k (by decide) c fun t _ x =>
    ⟨?_, x.rest_trace rfl ⟨rfl, (calm_nothing_left (h := s.hub) c).2⟩, x.keeps_keys⟩
  rw [x.frameBuf, frameBuf_flushFrames _ m, Hub.flushed]

/-! ### The next frame after a loss (R207) -/

/-- A noted row is asked for a SYNC with reason OVERFLOW before its next packet. -/
def Hub.askSync (c : Nat) (s : Hub) (row : Nat) : Hub :=
  s.setTile (tileAt c row) { s.tile (tileAt c row) with syncDue := some 3, chain := none }

/-- The tile's spur is to emit a SYNC with reason OVERFLOW, outside its chain. -/
def Hub.syncAsked (t : Nat) (s : Hub) : Prop := (s.tile t).syncDue = some 3 ∧ (s.tile t).chain = none

theorem syncAsked_askSync (c t : Nat) (s : Hub) (row : Nat) (h : s.syncAsked t) : (s.askSync c row).syncAsked t := by
  unfold Hub.syncAsked at *
  rw [Hub.askSync, Hub.tile_setTile]
  split
  · exact ⟨rfl, rfl⟩
  · exact h

theorem askSync_asks (c row : Nat) (s : Hub) : (s.askSync c row).syncAsked (tileAt c row) := by
  unfold Hub.syncAsked
  rw [Hub.askSync, Hub.tile_setTile, if_pos rfl]
  exact ⟨rfl, rfl⟩

/-- Every noted row is asked. -/
theorem doEach_askSync_asks (c : Nat) {row : Nat} {rows : List Nat} (m : row ∈ rows) (s : Hub) :
    (doEach rows s (Hub.askSync c)).syncAsked (tileAt c row) :=
  doEach_reaches (p := fun _ => True) (fun _ _ _ _ => trivial) (fun s _ => askSync_asks c row s) (fun s b => syncAsked_askSync c _ s b) m trivial

/-- No other tile is asked. -/
theorem doEach_askSync_others (c t : Nat) {rows : List Nat} (n : ∀ r ∈ rows, tileAt c r ≠ t) (s : Hub) :
    (doEach rows s (Hub.askSync c)).tile t = s.tile t := by
  induction rows generalizing s with
  | nil => rfl
  | cons r rows ih =>
    rw [doEach_cons, ih (fun r m => n r (List.mem_cons_of_mem _ m)), Hub.askSync, Hub.tile_setTile,
      if_neg (n r List.mem_cons_self).symm]

theorem doEach_askSync_trace (c : Nat) (rows : List Nat) (s : Hub) : (doEach rows s (Hub.askSync c)).trace = s.trace :=
  doEach_same Hub.trace (Hub.askSync c) (fun _ _ => rfl) rows s

/-- The OVERFLOW packet that tells what the router of a column has lost. -/
def FrameBuf.overflow (f : FrameBuf) : List Word :=
  packet Pk.OVERFLOW 0 0 ([f.lost + 2 ^ 24] ++ two f.lostFirst ++ two f.lostLast)

/-- The frame buffers of a column once the frame that begins with OVERFLOW is open. -/
def FrameBuf.resumed (f : FrameBuf) (now : Nat) : FrameBuf :=
  { f.close with words := f.overflow, since := now, loss := true, lost := 0, lostFirst := 0, lostLast := 0 }

theorem close_eq_or (f : FrameBuf) : f.close = f ∨ f.close = { f with ready := some f.words, readyLoss := f.loss, words := [], loss := false } := by
  unfold FrameBuf.close
  split
  · exact .inl rfl
  · exact .inr rfl

/-- Closing a frame keeps what the OVERFLOW packet tells and the rows that wait for it. -/
theorem close_overflow_noted (f : FrameBuf) : f.close.overflow = f.overflow ∧ f.close.noted = f.noted := by
  rcases close_eq_or f with e | e <;> rw [e] <;> exact ⟨rfl, rfl⟩

theorem beginOverflow_resumes {s : Hub} {c : Nat} (lost : (s.frameBuf c).lost ≠ 0) (unfrozen : s.frozenRing = false)
    (free : (s.frameBuf c).words = [] ∨ (s.frameBuf c).ready = none) :
    s.beginOverflow c =
      doEach (s.frameBuf c).noted (s.setFrameBuf c ((s.frameBuf c).resumed s.time.hclk)) (Hub.askSync c) := by
  have goes_on : ((s.frameBuf c).lost == 0 || s.frozenRing || (!(s.frameBuf c).words.isEmpty && (s.frameBuf c).ready.isSome)) = false := by
    rcases free with free | free <;> simp [lost, unfrozen, free]
  obtain ⟨overflow, noted⟩ := close_overflow_noted (s.frameBuf c)
  rw [← noted, FrameBuf.resumed, ← overflow]
  simp only [Hub.beginOverflow, goes_on, Bool.false_eq_true, if_false]
  rfl

theorem exec_frameBufferFree (column : Cane) (s : State) : exec (.frameBufferFree column) s = run (fun h => h.beginOverflow column) s := rfl

theorem frameBufferFree_begins_with_overflow (s : State) (column : Cane) (row : Nat) (c : s.hub.calm = true)
    (lost : (s.hub.frameBuf column).lost ≠ 0) (unfrozen : s.hub.frozenRing = false)
    (free : (s.hub.frameBuf column).words = [] ∨ (s.hub.frameBuf column).ready = none) (m : row ∈ (s.hub.frameBuf column).noted) :
    Answers (.frameBufferFree column) s fun h =>
      (h.frameBuf column).words = packet Pk.OVERFLOW 0 0 ([(s.hub.frameBuf column).lost + 2 ^ 24] ++ two (s.hub.frameBuf column).lostFirst ++ two (s.hub.frameBuf column).lostLast) ∧
      (h.frameBuf column).lost = 0 ∧ (h.frameBuf column).loss = true ∧ (h.tile (tileAt column row)).syncDue = some 3 ∧
      (h.tile (tileAt column row)).chain = none ∧
      (∀ t, (∀ r ∈ (s.hub.frameBuf column).noted, tileAt column r ≠ t) → h.tile t = s.hub.tile t) ∧
      s.hub.rest h = { s.hub with tiles := h.tiles, trace := h.trace } ∧ s.hub.keeps h [] := by
  have e := beginOverflow_resumes lost unfrozen free
  have asks := Traced.doEach (touched := ofKeys []) (f := Hub.askSync column) (fun s _ => .setTile s _ _) (s.hub.frameBuf column).noted
  have k := (Traced.setFrameBuf s.hub column ((s.hub.frameBuf column).resumed s.hub.time.hclk)).trans (asks _)
  refine answers_traced (exec_frameBufferFree column s) e k (by decide) c fun t _ x => ?_
  have frame : t.frameBuf column = (s.hub.frameBuf column).resumed s.hub.time.hclk := by
    rw [x.frameBuf, Hub.frameBuf, doEach_askSync_trace]
    exact Hub.frameBuf_setFrameBuf_same _ _ _
  obtain ⟨due, chain⟩ := doEach_askSync_asks column m (s.hub.setFrameBuf column ((s.hub.frameBuf column).resumed s.hub.time.hclk))
  have cell := doEach_same Hub.cell (Hub.askSync column) (fun _ _ => rfl) (s.hub.frameBuf column).noted
  have writes := doEach_same Hub.writes (Hub.askSync column) (fun _ _ => rfl) (s.hub.frameBuf column).noted
  refine ⟨by rw [frame]; rfl, by rw [frame]; rfl, by rw [frame]; rfl, by rw [x.tile]; exact due, by rw [x.tile]; exact chain,
    fun u n => ?_, x.rest_spurs ⟨cell _, (writes _).trans (calm_nothing_left (h := s.hub) c).2⟩, x.keeps_keys⟩
  rw [x.tile, doEach_askSync_others _ _ n]
  rfl

end Sys2Proof.Machine
end

section
/-! SUPPORT. Triggers of the spurs (R213, R214), and the statement of the ring and the filters. -/

namespace Sys2Proof.Machine

variable {touched : Nat → Bool}

/-! ### A trigger fires (R213) -/

/-- The trigger is spent. -/
def Hub.disarmed (s : Hub) : Hub := (s.wr F.TRACE_STATE_ARMED 0).wr F.TRACE_STATE_TRIGGERED 1

/-- A trigger recorded: what fired it, when, and where the ring stood. -/
def Hub.recorded (s : Hub) (source window : Nat) (tile : Option Nat) : Hub :=
  let named := s.setReg R.TRACE_TRIG_INFO (source + window * 4 + tile.getD 0 * 16 + b2n tile.isSome * 2 ^ 18)
  ((named.setReg64 R.TRACE_TRIG_GCN_LO named.now).setReg64 R.TRACE_TRIG_WPTR_LO named.wptr).raise Ev.TRIGGERED tile

/-- The post-trigger window begins (R214). -/
def Hub.postWindow (s : Hub) : Hub :=
  if s.flag F.TRACE_TRIG_CTRL_POST_FREEZE then
    if s.rd F.TRACE_POST_FRAMES_FRAMES == 0 then s.freeze Fz.TRIGGER
    else { s with trace := { s.trace with postLeft := some (s.rd F.TRACE_POST_FRAMES_FRAMES) } }
  else s

/-- No cork is issued where CORK_TRIG_SCOPE is not enabled (R214). -/
theorem trigCork_disabled {s : Hub} (off : s.flag F.CORK_TRIG_SCOPE_EN = false) : s.trigCork = s := by
  simp [Hub.trigCork, off]

theorem trigger_unarmed {s : Hub} (unarmed : s.flag F.TRACE_STATE_ARMED = false) (spent : s.flag F.TRACE_STATE_TRIGGERED = true)
    (source window : Nat) (tile : Option Nat) : s.trigger source window tile = s.bump F.TRACE_TRIG_INFO_LATER 1 := by
  simp [Hub.trigger, unarmed, spent]

theorem Traced.disarmed (s : Hub) (k : touched R.TRACE_STATE = true) : Traced touched s s.disarmed := (Traced.wr s _ k).trans (.wr _ _ k)

/-- The registers that record a trigger. -/
def recordKeys : List Nat :=
  [R.TRACE_TRIG_INFO, R.TRACE_TRIG_GCN_LO, R.TRACE_TRIG_GCN_HI, R.TRACE_TRIG_WPTR_LO, R.TRACE_TRIG_WPTR_HI]

theorem Traced.recorded (s : Hub) (source window : Nat) (tile : Option Nat) (k : ∀ a ∈ recordKeys, touched a = true) :
    Traced touched s (s.recorded source window tile) := by
  have k (a : Nat) (m : a ∈ recordKeys := by decide) : touched a = true := k a m
  have named := Traced.setReg s (source + window * 4 + tile.getD 0 * 16 + b2n tile.isSome * 2 ^ 18) (k R.TRACE_TRIG_INFO)
  refine ((named.trans ?_).trans (.setReg64 _ _ (k R.TRACE_TRIG_WPTR_LO) (k R.TRACE_TRIG_WPTR_HI))).trans (.raise _ tile (by decide))
  exact .setReg64 _ _ (k R.TRACE_TRIG_GCN_LO) (k R.TRACE_TRIG_GCN_HI)

theorem Traced.postWindow (s : Hub) (k : touched R.TRACE_STATE = true) : Traced touched s s.postWindow := by
  unfold Hub.postWindow
  split
  · split
    · exact .freeze s _ k
    · exact .withTrace s _
  · exact .refl s

/-- A reason to freeze the ring leaves the other fields of TRACE_STATE alone. -/
theorem rd_freeze_apart (s : Hub) (bit : Nat) (f : Fld) (fits : f.lo + f.width ≤ 32) (apart : F.TRACE_STATE_FROZEN.apart f = true) :
    (s.freeze bit).rd f = s.rd f := by
  rw [← Hub.rd_wr_apart s _ f (s.rd F.TRACE_STATE_FROZEN ||| 2 ^ bit) fits apart]
  unfold Hub.freeze
  dsimp only
  split
  · exact Hub.rd_raiseOf _ _ _ _
  · rfl

theorem rd_postWindow_apart (s : Hub) (f : Fld) (fits : f.lo + f.width ≤ 32) (apart : F.TRACE_STATE_FROZEN.apart f = true) :
    s.postWindow.rd f = s.rd f := by
  unfold Hub.postWindow
  split
  · split
    · exact rd_freeze_apart s _ f fits apart
    · rfl
  · rfl

theorem freeze_same (s : Hub) (bit : Nat) : (s.freeze bit).tiles = s.tiles ∧ (s.freeze bit).cell = s.cell ∧ (s.freeze bit).writes = s.writes := by
  unfold Hub.freeze
  dsimp only
  split <;> exact ⟨rfl, rfl, rfl⟩

/-- The post-trigger window changes no tile, no access of the cellar and no memory. -/
theorem postWindow_same (s : Hub) : s.postWindow.tiles = s.tiles ∧ s.postWindow.cell = s.cell ∧ s.postWindow.writes = s.writes := by
  unfold Hub.postWindow
  split
  · split
    · exact freeze_same s _
    · exact ⟨rfl, rfl, rfl⟩
  · exact ⟨rfl, rfl, rfl⟩

theorem recorded_info (s : Hub) (source window : Nat) (tile : Option Nat) : (s.recorded source window tile).reg R.TRACE_TRIG_INFO =
    (source + window * 4 + tile.getD 0 * 16 + b2n tile.isSome * 2 ^ 18) % 2 ^ 32 := by
  have later (h : Hub) (now wptr : Nat) : Traced (ofKeys (recordKeys.tail)) h
      (((h.setReg64 R.TRACE_TRIG_GCN_LO now).setReg64 R.TRACE_TRIG_WPTR_LO wptr).raise Ev.TRIGGERED tile) :=
    ((Traced.setReg64 h now (by decide) (by decide)).trans (.setReg64 _ wptr (by decide) (by decide))).trans (.raise _ tile (by decide))
  exact ((later _ _ _).reg (by decide)).trans (Hub.reg_setReg _ _ _)

theorem recorded_gcn (s : Hub) (source window : Nat) (tile : Option Nat) :
    (s.recorded source window tile).reg64 R.TRACE_TRIG_GCN_LO = s.now % 2 ^ 64 := by
  have named : Traced (ofKeys [R.TRACE_TRIG_INFO]) s
      (s.setReg R.TRACE_TRIG_INFO (source + window * 4 + tile.getD 0 * 16 + b2n tile.isSome * 2 ^ 18)) := .setReg _ _ (by decide)
  have later (h : Hub) (wptr : Nat) : Traced (ofKeys [R.TRACE_TRIG_WPTR_LO, R.TRACE_TRIG_WPTR_HI]) h
      ((h.setReg64 R.TRACE_TRIG_WPTR_LO wptr).raise Ev.TRIGGERED tile) :=
    (Traced.setReg64 h wptr (by decide) (by decide)).trans (.raise _ tile (by decide))
  rw [← named.now (by decide), ← Hub.reg64_setReg64 _ R.TRACE_TRIG_GCN_LO]
  exact (later _ _).reg64 (by decide) (by decide)

theorem recorded_raises (s : Hub) (source window : Nat) (tile : Option Nat) :
    ∃ o ∈ (s.recorded source window tile).occs, o.code = Ev.TRIGGERED ∧ o.unit.getD 0 = tile.getD 0 :=
  ⟨_, List.mem_append_right _ (List.mem_singleton_self _), rfl, rfl⟩

theorem disarmed_armed (s : Hub) : s.disarmed.rd F.TRACE_STATE_ARMED = 0 := by
  rw [Hub.disarmed, Hub.rd_wr_apart _ _ _ _ (by decide) (by decide), Hub.rd_wr _ _ _ (by decide)]
  rfl

theorem disarmed_triggered (s : Hub) : s.disarmed.rd F.TRACE_STATE_TRIGGERED = 1 := Hub.rd_wr _ _ _ (by decide)

/-- The hub once an armed trigger has fired, without the cork that may follow. -/
def Hub.fired (s : Hub) (source window : Nat) (tile : Option Nat) : Hub := (s.disarmed.recorded source window tile).postWindow

section
variable (s : Hub) (source window : Nat) (tile : Option Nat)

theorem Traced.fired (k : ∀ a ∈ R.TRACE_STATE :: recordKeys, touched a = true) : Traced touched s (s.fired source window tile) := by
  have state := k R.TRACE_STATE List.mem_cons_self
  have record := Traced.recorded s.disarmed source window tile fun a m => k a (List.mem_cons_of_mem _ m)
  exact ((Traced.disarmed s state).trans record).trans (.postWindow _ state)

/-- The window after the trigger touches TRACE_STATE alone. -/
theorem recorded_to_fired : Traced (ofKeys [R.TRACE_STATE]) (s.disarmed.recorded source window tile) (s.fired source window tile) :=
  .postWindow _ (by decide)

/-- An armed trigger fires, and without CORK_TRIG_SCOPE no cork follows it (R213, R214). -/
theorem trigger_fires (armed : s.flag F.TRACE_STATE_ARMED = true) (uncorked : s.flag F.CORK_TRIG_SCOPE_EN = false) :
    s.trigger source window tile = s.fired source window tile := by
  have e : s.trigger source window tile = (s.fired source window tile).trigCork := by
    simp only [Hub.trigger, armed, Bool.not_true, Bool.false_eq_true, if_false]
    rfl
  have k : Traced (ofKeys (R.TRACE_STATE :: recordKeys)) s (s.fired source window tile) := .fired _ _ _ _ (by decide)
  rw [e, trigCork_disabled]
  rwa [Hub.flag, k.rd _ (by decide)]

theorem fired_field (f : Fld) (fits : f.lo + f.width ≤ 32) (apart : F.TRACE_STATE_FROZEN.apart f = true)
    (n : ofKeys recordKeys f.addr = false) : (s.fired source window tile).rd f = s.disarmed.rd f := by
  have record : Traced (ofKeys recordKeys) s.disarmed (s.disarmed.recorded source window tile) := .recorded _ _ _ _ (by decide)
  rw [Hub.fired, rd_postWindow_apart _ _ fits apart, record.rd _ n]

theorem fired_armed : (s.fired source window tile).rd F.TRACE_STATE_ARMED = 0 := by
  rw [fired_field _ _ _ _ _ (by decide) (by decide) (by decide), disarmed_armed]

theorem fired_triggered : (s.fired source window tile).rd F.TRACE_STATE_TRIGGERED = 1 := by
  rw [fired_field _ _ _ _ _ (by decide) (by decide) (by decide), disarmed_triggered]

theorem fired_info : (s.fired source window tile).reg R.TRACE_TRIG_INFO =
    (source + window * 4 + tile.getD 0 * 16 + b2n tile.isSome * 2 ^ 18) % 2 ^ 32 := by
  rw [(recorded_to_fired s source window tile).reg (by decide), recorded_info]

theorem fired_gcn : (s.fired source window tile).reg64 R.TRACE_TRIG_GCN_LO = s.now % 2 ^ 64 := by
  have spent : Traced (ofKeys [R.TRACE_STATE]) s s.disarmed := .disarmed _ (by decide)
  rw [(recorded_to_fired s source window tile).reg64 (by decide) (by decide), recorded_gcn, spent.now (by decide)]

theorem fired_raises : ∃ o ∈ (s.fired source window tile).occs, o.code = Ev.TRIGGERED ∧ o.unit.getD 0 = tile.getD 0 := by
  obtain ⟨o, m, shown⟩ := recorded_raises s.disarmed source window tile
  exact ⟨o, (recorded_to_fired s source window tile).kept o m, shown⟩

theorem fired_same : (s.fired source window tile).tiles = s.tiles ∧ (s.fired source window tile).cell = s.cell ∧
    (s.fired source window tile).writes = s.writes := postWindow_same (s.disarmed.recorded source window tile)

end

/-! ### Triggers of the spurs (R213) -/

/-- The spur of tile `t` without a trigger on its way. -/
def Hub.withoutTrig (s : Hub) (t : Nat) (trig : Nat × Nat) : Hub :=
  s.setTile t { s.tile t with trigs := (s.tile t).trigs.erase trig }

theorem withoutTrig_tile (s : Hub) (t : Nat) (trig : Nat × Nat) :
    (s.withoutTrig t trig).tile t = { s.tile t with trigs := (s.tile t).trigs.erase trig } ∧
    ∀ u, u ≠ t → (s.withoutTrig t trig).tile u = s.tile u := by
  refine ⟨?_, fun u n => ?_⟩
  · rw [Hub.withoutTrig, Hub.tile_setTile, if_pos rfl]
  · rw [Hub.withoutTrig, Hub.tile_setTile, if_neg n]

theorem spurTrigger_sent {s : Hub} {t source window : Nat} (sent : (s.tile t).trigs.contains (source, window) = true) :
    s.spurTrigger t source window = (s.withoutTrig t (source, window)).trigger source window (some t) := by
  simp only [Hub.spurTrigger, sent, if_true]
  rfl

theorem withoutTrig_flag (s : Hub) (t : Nat) (trig : Nat × Nat) (f : Fld) : (s.withoutTrig t trig).flag f = s.flag f := rfl

theorem withoutTrig_now (s : Hub) (t : Nat) (trig : Nat × Nat) : (s.withoutTrig t trig).now = s.now := rfl

theorem spurTrigger_unsent {s : Hub} {t source window : Nat} (unsent : (s.tile t).trigs.contains (source, window) = false) :
    s.spurTrigger t source window = s := by
  simp only [Hub.spurTrigger, unsent, Bool.false_eq_true, if_false]

theorem exec_spurTriggerRx (tile : TileId) (event : Bool) (window : Fin 4) (s : State) :
    exec (.spurTriggerRx tile event window) s = run (fun h => h.spurTrigger tile (b2n event) window) s := rfl

/-- What a spur trigger leaves in TRACE_TRIG_INFO, which holds all of it. -/
theorem spurTrigger_info (tile : TileId) (event : Bool) (window : Fin 4) :
    (b2n event + window * 4 + (some (tile : Nat)).getD 0 * 16 + b2n (some (tile : Nat)).isSome * 2 ^ 18) % 2 ^ 32 =
      b2n event + window * 4 + tile * 16 + 2 ^ 18 := by
  have source : b2n event ≤ 1 := by cases event <;> decide
  have named : b2n (some (tile : Nat)).isSome = 1 := rfl
  rw [Option.getD_some, named, one_mul]
  exact Nat.mod_eq_of_lt (by omega)

theorem spurTriggerRx_fires (s : State) (tile : TileId) (event : Bool) (window : Fin 4) (c : s.hub.calm = true)
    (sent : (s.hub.tile tile).trigs.contains (b2n event, (window : Nat)) = true) (armed : s.hub.flag F.TRACE_STATE_ARMED = true)
    (uncorked : s.hub.flag F.CORK_TRIG_SCOPE_EN = false) :
    Answers (.spurTriggerRx tile event window) s fun h =>
      h.rd F.TRACE_STATE_ARMED = 0 ∧ h.rd F.TRACE_STATE_TRIGGERED = 1 ∧
      h.reg R.TRACE_TRIG_INFO = b2n event + window * 4 + tile * 16 + 2 ^ 18 ∧ h.reg64 R.TRACE_TRIG_GCN_LO = s.hub.now % 2 ^ 64 ∧
      h.shows Ev.TRIGGERED tile = true ∧
      h.tile tile = { s.hub.tile tile with trigs := (s.hub.tile tile).trigs.erase (b2n event, (window : Nat)) } ∧
      (∀ u, u ≠ (tile : Nat) → h.tile u = s.hub.tile u) ∧ s.hub.rest h = { s.hub with trace := h.trace, tiles := h.tiles } ∧
      s.hub.keeps h [R.TRACE_STATE, R.TRACE_TRIG_INFO, R.TRACE_TRIG_GCN_LO, R.TRACE_TRIG_GCN_HI, R.TRACE_TRIG_WPTR_LO, R.TRACE_TRIG_WPTR_HI] := by
  have e : s.hub.spurTrigger tile (b2n event) window =
      (s.hub.withoutTrig tile (b2n event, (window : Nat))).fired (b2n event) window (some (tile : Nat)) := by
    rw [spurTrigger_sent sent, trigger_fires]
    · rw [withoutTrig_flag, armed]
    · rw [withoutTrig_flag, uncorked]
  have k : Traced (ofKeys (R.TRACE_STATE :: recordKeys)) s.hub
      ((s.hub.withoutTrig tile (b2n event, (window : Nat))).fired (b2n event) window (some (tile : Nat))) :=
    (Traced.setTile s.hub _ _).trans (.fired _ _ _ _ (by decide))
  obtain ⟨own, others⟩ := withoutTrig_tile s.hub tile (b2n event, (window : Nat))
  obtain ⟨tiles, cell, writes⟩ :=
    fired_same (s.hub.withoutTrig tile (b2n event, (window : Nat))) (b2n event) window (some (tile : Nat))
  have no_writes : (s.hub.withoutTrig tile (b2n event, (window : Nat))).writes = [] := (calm_nothing_left (h := s.hub) c).2
  refine answers_traced (exec_spurTriggerRx _ _ _ _) e k (by decide) c fun t _ x =>
    ⟨?_, ?_, ?_, ?_, x.shows_raised (fired_raises _ _ _ _) (fun _ _ e => by cases e; decide), ?_, fun u n => ?_,
      x.rest_spurs ⟨cell, writes.trans no_writes⟩, x.keeps_keys⟩
  · rw [x.rd _ (by decide), fired_armed]
  · rw [x.rd _ (by decide), fired_triggered]
  · rw [x.reg (by decide), fired_info, spurTrigger_info]
  · rw [x.reg64 (by decide) (by decide), fired_gcn, withoutTrig_now]
  · rw [x.tile, Hub.tile, tiles]; exact own
  · rw [x.tile, Hub.tile, tiles]; exact others u n

theorem spurTriggerRx_counts_later (s : State) (tile : TileId) (event : Bool) (window : Fin 4) (c : s.hub.calm = true)
    (sent : (s.hub.tile tile).trigs.contains (b2n event, (window : Nat)) = true) (unarmed : s.hub.flag F.TRACE_STATE_ARMED = false)
    (spent : s.hub.flag F.TRACE_STATE_TRIGGERED = true) :
    Answers (.spurTriggerRx tile event window) s fun h =>
      h.rd F.TRACE_TRIG_INFO_LATER = sat F.TRACE_TRIG_INFO_LATER.width (s.hub.rd F.TRACE_TRIG_INFO_LATER + 1) ∧
      h.tile tile = { s.hub.tile tile with trigs := (s.hub.tile tile).trigs.erase (b2n event, (window : Nat)) } ∧
      (∀ u, u ≠ (tile : Nat) → h.tile u = s.hub.tile u) ∧ s.hub.rest h = { s.hub with tiles := h.tiles } ∧ s.hub.keeps h [R.TRACE_TRIG_INFO] := by
  have e : s.hub.spurTrigger tile (b2n event) window =
      (s.hub.withoutTrig tile (b2n event, (window : Nat))).bump F.TRACE_TRIG_INFO_LATER 1 := by
    rw [spurTrigger_sent sent, trigger_unarmed]
    · rw [withoutTrig_flag, unarmed]
    · rw [withoutTrig_flag, spent]
  have k : Corked (ofKeys [R.TRACE_TRIG_INFO]) s.hub
      ((s.hub.withoutTrig tile (b2n event, (window : Nat))).bump F.TRACE_TRIG_INFO_LATER 1) :=
    (Corked.setTile s.hub _ _).trans (.wr _ _ (by decide))
  obtain ⟨own, others⟩ := withoutTrig_tile s.hub tile (b2n event, (window : Nat))
  refine answers_corked (exec_spurTriggerRx _ _ _ _) e k (by decide) c fun t _ x => ⟨?_, ?_, fun u n => ?_, ?_, x.keeps_keys⟩
  · rw [x.rd _ (by decide), Hub.bump, Hub.rd_wr _ _ _ (by decide)]
    exact Nat.mod_eq_of_lt (sat_lt _ _)
  · rw [x.tile, Hub.tile, Hub.bump_tiles]; exact own
  · rw [x.tile, Hub.tile, Hub.bump_tiles]; exact others u n
  · rw [x.rest, x.tiles]; rfl

theorem spurTriggerRx_unsent (s : State) (tile : TileId) (event : Bool) (window : Fin 4) (c : s.hub.calm = true)
    (unsent : (s.hub.tile tile).trigs.contains (b2n event, (window : Nat)) = false) :
    Answers (.spurTriggerRx tile event window) s fun h => s.hub.rest h = s.hub ∧ s.hub.keeps h [] := by
  have k : Touched [] s.hub s.hub := ⟨rfl, fun _ _ _ => rfl⟩
  exact answers_touched (exec_spurTriggerRx _ _ _ _) (spurTrigger_unsent unsent) k (by decide) c fun _ x => ⟨x.rest, x.keeps⟩

/-! ### Filters (R220, R221) -/

theorem exec_tracefWrite_rect (r : Req) (v : Word) (s : State) :
    exec (.tracefWrite r 0x048#12 v) s = run (fun h => h.regWrite r R.TRACEF_RECT v.toNat) s := rfl

/-- A write of a register that is no argument and no command, but has a rule of its own. -/
theorem writeReg_special {s : Hub} {r : Req} {a v : Nat} {h : Hub} (block : 0x40 ≤ offOf (normAddr a)) (win : inWindow (normAddr a) = false)
    (rule : argRule (normAddr a) = none) (first : s.commandWrite1 r (baseAddr (normAddr a)) (v % 2 ^ 32) = none)
    (second : s.commandWrite2 r (pageStep (normAddr a)) (baseAddr (normAddr a)) (v % 2 ^ 32) = none)
    (special : s.specialWrite r (pageStep (normAddr a)) (baseAddr (normAddr a)) (v % 2 ^ 32) = some h) : s.writeReg r a v = h := by
  simp only [Hub.writeReg, Nat.not_lt.mpr block, if_false, win, Bool.false_eq_true, rule, first, second, special]

theorem writeReg_tracefRect (s : Hub) (r : Req) (v : Nat) :
    s.writeReg r R.TRACEF_RECT v = s.tracefWrite r R.TRACEF_RECT (v % 2 ^ 32) :=
  writeReg_special (by decide) (by decide) (by decide) rfl rfl rfl

/-- A write of TRACEF_RECT that the bus takes: what the filter's unit does, answered OK. -/
theorem regWrite_tracefRect {s : Hub} {r : Req} {v : Word} (t : s.takesWrite r R.TRACEF_RECT v.toNat = true) {h : Hub}
    (e : s.tracefWrite r R.TRACEF_RECT v.toNat = h) (i : h.rel.inject = none) :
    s.regWrite r R.TRACEF_RECT v.toNat = h.respond r 0 St.OK := by
  have word : v.toNat % 2 ^ 32 = v.toNat := Nat.mod_eq_of_lt v.isLt
  have write : s.writeReg r R.TRACEF_RECT v.toNat = h := by
    rw [writeReg_tracefRect, word, e]
  rw [regWrite_taken (by decide) (by rwa [word]) (by rw [write]; exact i), write]

/-- The bits of a written rectangle stand in TRACEF_RECT. -/
def Hub.storeRect (s : Hub) (v : Nat) : Hub := s.setReg R.TRACEF_RECT (v &&& 0x7F7F7F7F)

theorem storeRect_reg (s : Hub) (v : Nat) : (s.storeRect v).reg R.TRACEF_RECT = v &&& 0x7F7F7F7F := by
  rw [Hub.storeRect, Hub.reg_setReg]
  exact Nat.mod_eq_of_lt (lt_of_le_of_lt Nat.and_le_right (by decide))

theorem tracefWrite_rect (s : Hub) (r : Req) (v : Nat) : s.tracefWrite r R.TRACEF_RECT v =
    if (rectOf v).bad then (s.err Er.TRACEF_ARG_RANGE).errAt r R.TRACEF_RECT
    else (s.storeRect v).broadcastFilter := rfl

theorem Traced.broadcastFilter (s : Hub) (k : touched R.TRACEF_BCAST = true) : Traced touched s s.broadcastFilter :=
  (Traced.withTrace s { s.trace with bcastAt := some s.time.hclk }).trans (.wr _ _ k)

theorem tracefWrite_broadcasts (s : State) (r : Req) (v : Word) (c : s.hub.calm = true)
    (w : s.hub.takesWrite r R.TRACEF_RECT v.toNat = true) (good : (rectOf v.toNat).bad = false) :
    Answers (.tracefWrite r 0x048#12 v) s fun h =>
      h.tookWrite r ∧ h.reg R.TRACEF_RECT = v.toNat &&& 0x7F7F7F7F ∧ h.rd F.TRACEF_BCAST_PENDING = 1 ∧
      h.trace.bcastAt = some s.hub.time.hclk ∧ s.hub.rest h = { s.hub with trace := h.trace } ∧
      s.hub.keeps h [R.TRACEF_RECT, R.TRACEF_BCAST] := by
  have e : s.hub.tracefWrite r R.TRACEF_RECT v.toNat = (s.hub.storeRect v.toNat).broadcastFilter := by
    rw [tracefWrite_rect, good, if_neg Bool.false_ne_true]
  have toStored : Traced (ofKeys [R.TRACEF_RECT, R.TRACEF_BCAST]) s.hub (s.hub.storeRect v.toNat) := .setReg _ _ (by decide)
  have k := (toStored.trans (.broadcastFilter _ (by decide))).trans (.respond _ r 0 St.OK)
  have sent : Traced (ofKeys [R.TRACEF_BCAST]) (s.hub.storeRect v.toNat)
      ((s.hub.storeRect v.toNat).broadcastFilter.respond r 0 St.OK) :=
    (Traced.broadcastFilter _ (by decide)).trans (.respond _ _ _ _)
  refine answers_traced (exec_tracefWrite_rect r v s) (regWrite_tracefRect w e (calm_unplanted (h := s.hub) c)) k (by decide) c
    fun t bus x => ⟨?_, ?_, ?_, by rw [x.trace]; rfl, x.rest_trace rfl ⟨rfl, (calm_nothing_left (h := s.hub) c).2⟩, x.keeps_keys⟩
  · rw [Hub.tookWrite, bus]; exact respond_took _ _
  · rw [x.reg (by decide), sent.reg (by decide), storeRect_reg]
  · rw [x.rd _ (by decide), Hub.rd_respond, Hub.broadcastFilter, Hub.rd_wr _ _ _ (by decide)]
    rfl

theorem tracefWrite_rejects_bad (s : State) (r : Req) (v : Word) (c : s.hub.calm = true)
    (w : s.hub.takesWrite r R.TRACEF_RECT v.toNat = true) (bad : (rectOf v.toNat).bad = true) :
    Answers (.tracefWrite r 0x048#12 v) s fun h =>
      h.tookWrite r ∧ h.reg R.TRACEF_RECT = s.hub.reg R.TRACEF_RECT ∧ h.hasErr Er.TRACEF_ARG_RANGE = true ∧ s.hub.rest h = s.hub ∧
      s.hub.keeps h [R.PG_ERROR + Pg.TRACEF * 0x1000, R.PG_ERROR_INFO + Pg.TRACEF * 0x1000] := by
  have e : s.hub.tracefWrite r R.TRACEF_RECT v.toNat = (s.hub.err Er.TRACEF_ARG_RANGE).errAt r R.TRACEF_RECT := by
    rw [tracefWrite_rect, if_pos bad]
  have k : Touched [R.PG_ERROR + Pg.TRACEF * 0x1000, R.PG_ERROR_INFO + Pg.TRACEF * 0x1000] s.hub
      (((s.hub.err Er.TRACEF_ARG_RANGE).errAt r R.TRACEF_RECT).respond r 0 St.OK) :=
    ((Touched.err _ (by decide) (by decide)).trans (Touched.errAt _ _ (by decide))).trans (Touched.respond _ _ _ _)
  refine answers_touched (exec_tracefWrite_rect r v s) (regWrite_tracefRect w e (calm_unplanted (h := s.hub) c)) k (by decide) c
    fun h x => ⟨?_, x.keeps _ 0 (by decide) (by decide), ?_, x.rest, x.keeps⟩
  · rw [Hub.tookWrite, x.bus]; exact respond_took _ _
  · rw [x.hasErr, Hub.hasErr_respond, Hub.hasErr_errAt, Hub.hasErr_err _ _ (by decide)]

/-! ### The acknowledgements of a filter write (R220) -/

/-- No filter write is pending. -/
def Hub.acknowledged (s : Hub) : Hub := ({ s with trace := { s.trace with bcastAt := none } }).wr F.TRACEF_BCAST_PENDING 0

/-- The end of a broadcast: BCAST_FAIL is recorded where an acknowledgement is `missing`. -/
def Hub.bcastEnded (s : Hub) (missing : Bool) : Hub := if missing then s.acknowledged.err Er.TRACEF_BCAST_FAIL else s.acknowledged

theorem bcastTimeout_past {s : Hub} {missing : Bool} {t : Nat} (at_ : s.trace.bcastAt = some t)
    (past : s.elapsed t (if missing then 256 else 48) = true) : s.bcastTimeout missing = s.bcastEnded missing := by
  simp only [Hub.bcastTimeout, at_, past, Bool.not_true, Bool.false_eq_true, if_false]
  rfl

/-- The registers of PG_ERROR and PG_ERROR_INFO of the TRACEF page. -/
def tracefErrKeys : List Nat := [R.PG_ERROR + Pg.TRACEF * 0x1000, R.PG_ERROR_INFO + Pg.TRACEF * 0x1000]

/-- Recording BCAST_FAIL, where an acknowledgement is missing, changes no more than PG_ERROR and PG_ERROR_INFO. -/
theorem Traced.bcastEnded (s : Hub) (missing : Bool) (k : ∀ a ∈ tracefErrKeys, touched a = true) :
    Traced touched s.acknowledged (s.bcastEnded missing) := by
  cases missing with
  | false => exact .refl _
  | true => exact (Traced.wr _ _ (k _ (by decide))).trans (.wr _ _ (k _ (by decide)))

theorem bcastEnded_same (s : Hub) (missing : Bool) : (s.bcastEnded missing).trace = { s.trace with bcastAt := none } ∧
    (s.bcastEnded missing).tiles = s.tiles ∧ (s.bcastEnded missing).cell = s.cell ∧ (s.bcastEnded missing).writes = s.writes := by
  cases missing <;> exact ⟨rfl, rfl, rfl, rfl⟩

theorem exec_tracefBcastTimeout (missing : Bool) (s : State) :
    exec (.tracefBcastTimeout missing) s = run (fun h => h.bcastTimeout missing) s := rfl

theorem tracefBcastTimeout_ends (s : State) (missing : Bool) (t : Nat) (c : s.hub.calm = true) (at_ : s.hub.trace.bcastAt = some t)
    (past : s.hub.elapsed t (if missing then 256 else 48) = true) :
    Answers (.tracefBcastTimeout missing) s fun h =>
      h.rd F.TRACEF_BCAST_PENDING = 0 ∧ h.trace.bcastAt = none ∧ (missing = true → h.hasErr Er.TRACEF_BCAST_FAIL = true) ∧
      s.hub.rest h = { s.hub with trace := h.trace } ∧
      s.hub.keeps h [R.TRACEF_BCAST, R.PG_ERROR + Pg.TRACEF * 0x1000, R.PG_ERROR_INFO + Pg.TRACEF * 0x1000] := by
  have toAcknowledged : Traced (ofKeys (R.TRACEF_BCAST :: tracefErrKeys)) s.hub s.hub.acknowledged :=
    (Traced.withTrace s.hub _).trans (.wr _ _ (by decide))
  have k := toAcknowledged.trans (.bcastEnded s.hub missing (by decide))
  have failed : Traced (ofKeys tracefErrKeys) s.hub.acknowledged (s.hub.bcastEnded missing) := .bcastEnded _ _ (by decide)
  obtain ⟨trace, tiles, cell, writes⟩ := bcastEnded_same s.hub missing
  refine answers_traced (exec_tracefBcastTimeout missing s) (bcastTimeout_past at_ past) k (by decide) c fun h _ x =>
    ⟨?_, by rw [x.trace, trace], fun m => ?_, x.rest_trace tiles ⟨cell, writes.trans (calm_nothing_left (h := s.hub) c).2⟩, x.keeps_keys⟩
  · rw [x.rd _ (by decide), failed.rd _ (by decide), Hub.acknowledged, Hub.rd_wr _ _ _ (by decide)]
    rfl
  · subst m
    rw [x.hasErr]
    exact Hub.hasErr_err _ _ (by decide)

/-- Settles O42: each clause is a command whose unit changes trace registers, the router and the tiles alone, and writes at most the 64 bytes of one
frame, so its effect on a calm hub is the unit's own. -/
theorem frames_go_to_the_ring_and_triggers_are_recorded : Obligations.frames_go_to_the_ring_and_triggers_are_recorded :=
  ⟨traceFrameWritten_inside_ring, traceFrameWritten_fills_ring, traceFlushLimit_closes_frames, frameBufferFree_begins_with_overflow,
    spurTriggerRx_fires, spurTriggerRx_counts_later, spurTriggerRx_unsent, tracefWrite_broadcasts, tracefWrite_rejects_bad,
    tracefBcastTimeout_ends⟩

end Sys2Proof.Machine
end

section
/-! SUPPORT. Weight digests (R259, R260): mix64 is one to one on 64-bit words, so every word of a byte string shows in its digest. -/

namespace Sys2Proof.Machine

/-! ### mix64 over 64-bit words -/

/-- A word with its own bits from `k` up added in below (one step of mix64). -/
def xorShift (k : Nat) (x : BitVec 64) : BitVec 64 := x ^^^ (x >>> k)

/-- mix64 for a fixed offset, on 64-bit words. -/
def mixWord (a : Nat) (w : BitVec 64) : BitVec 64 :=
  xorShift 29 (xorShift 31 (w ^^^ BitVec.ofNat 64 (a * 0x9E3779B97F4A7C15)) * 0xBF58476D1CE4E5B9)

theorem toNat_xorShift (k : Nat) (x : BitVec 64) : (xorShift k x).toNat = x.toNat ^^^ (x.toNat >>> k) := by
  rw [xorShift, BitVec.toNat_xor, BitVec.toNat_ushiftRight]

theorem toNat_mixConstant : (0xBF58476D1CE4E5B9 : BitVec 64).toNat = 0xBF58476D1CE4E5B9 := by decide

theorem mix64_toNat (a : Nat) (w : BitVec 64) : mix64 a w.toNat = (mixWord a w).toNat := by
  have offset : (w ^^^ BitVec.ofNat 64 (a * 0x9E3779B97F4A7C15)).toNat = w.toNat % 2 ^ 64 ^^^ a * 0x9E3779B97F4A7C15 % 2 ^ 64 := by
    rw [BitVec.toNat_xor, BitVec.toNat_ofNat, Nat.mod_eq_of_lt w.isLt]
  rw [mixWord, toNat_xorShift, BitVec.toNat_mul, toNat_xorShift, offset, toNat_mixConstant, mix64]

theorem mix64_ofNat (a : Nat) {v : Nat} (small : v < 2 ^ 64) : mix64 a v = (mixWord a (BitVec.ofNat 64 v)).toNat := by
  rw [← mix64_toNat, BitVec.toNat_ofNat, Nat.mod_eq_of_lt small]

/-- Adding the bits in once more, and those from `2 * k` up, takes a word back: the bits from `3 * k` up are none. -/
theorem xorShift_injective {k : Nat} (wide : 64 ≤ 3 * k) : Function.Injective (xorShift k) := by
  have back (x : BitVec 64) : xorShift k x ^^^ (xorShift k x >>> k) ^^^ (xorShift k x >>> (2 * k)) = x := by
    ext i hi
    have none : x.getLsbD (2 * k + (k + i)) = false := BitVec.getLsbD_of_ge _ _ (by omega)
    have twice : k + (k + i) = 2 * k + i := by omega
    have thrice : k + (2 * k + i) = 2 * k + (k + i) := by omega
    simp [xorShift, BitVec.getLsbD_xor, BitVec.getLsbD_ushiftRight, twice, thrice, none]
  intro x y e
  rw [← back x, e, back y]

/-- The odd constant of mix64 has an inverse modulo 2^64. -/
theorem mul_mixConstant_injective : Function.Injective fun x : BitVec 64 => x * 0xBF58476D1CE4E5B9 := by
  intro x y e
  have inverse : (0xBF58476D1CE4E5B9 : BitVec 64) * 0x96DE1B173F119089 = 1 := by decide
  calc x = x * 0xBF58476D1CE4E5B9 * 0x96DE1B173F119089 := by rw [BitVec.mul_assoc, inverse, mul_one]
    _ = y * 0xBF58476D1CE4E5B9 * 0x96DE1B173F119089 := congrArg (· * 0x96DE1B173F119089) e
    _ = y := by rw [BitVec.mul_assoc, inverse, mul_one]

theorem mixWord_injective (a : Nat) : Function.Injective (mixWord a) := fun _ _ e =>
  (BitVec.xor_left_inj _).mp (xorShift_injective (by decide) (mul_mixConstant_injective (xorShift_injective (by decide) e)))

theorem mixWord_surjective (a : Nat) : Function.Surjective (mixWord a) := Finite.surjective_of_injective (mixWord_injective a)

theorem mix64_inj (a : Nat) {v w : Nat} (hv : v < 2 ^ 64) (hw : w < 2 ^ 64) (e : mix64 a v = mix64 a w) : v = w := by
  rw [mix64_ofNat a hv, mix64_ofNat a hw] at e
  have words := congrArg BitVec.toNat (mixWord_injective a (BitVec.eq_of_toNat_eq e))
  rwa [BitVec.toNat_ofNat, BitVec.toNat_ofNat, Nat.mod_eq_of_lt hv, Nat.mod_eq_of_lt hw] at words

theorem mix64_onto (a : Nat) {y : Nat} (small : y < 2 ^ 64) : ∃ w, w < 2 ^ 64 ∧ mix64 a w = y := by
  obtain ⟨w, e⟩ := mixWord_surjective a (BitVec.ofNat 64 y)
  exact ⟨w.toNat, w.isLt, by rw [mix64_toNat, e, BitVec.toNat_ofNat, Nat.mod_eq_of_lt small]⟩

theorem mix64_lt (a : Nat) {w : Nat} (small : w < 2 ^ 64) : mix64 a w < 2 ^ 64 := by
  rw [mix64_ofNat a small]; exact BitVec.isLt _

/-! ### The digest of a byte string -/

theorem fromLe_lt (bs : List Byte) : fromLe bs < 256 ^ bs.length := by
  induction bs with
  | nil => decide
  | cons b bs ih =>
    rw [fromLe, List.length_cons, pow_succ]
    have := b.isLt
    omega

/-- Byte strings of one length spell different numbers. -/
theorem fromLe_inj {u v : List Byte} (same : u.length = v.length) (e : fromLe u = fromLe v) : u = v := by
  induction u generalizing v with
  | nil => exact (List.length_eq_zero_iff.mp same.symm).symm
  | cons b u ih =>
    cases v with
    | nil => cases same
    | cons c v =>
      rw [fromLe, fromLe] at e
      have hb := b.isLt
      have hc := c.isLt
      have low : b = c := BitVec.eq_of_toNat_eq (by omega)
      rw [low, ih (Nat.succ.inj same) (by omega)]

theorem leAt_first {u : List Byte} (len : u.length = 8) (post : List Byte) : leAt (u ++ post) 0 8 = fromLe u := by
  rw [leAt, List.drop_zero, ← len, List.take_left]

/-- The digest of the words before a point and of those from there on add up. -/
theorem digestBytes_append {pre : List Byte} {n : Nat} (len : pre.length = 8 * n) (rest : List Byte) (a m : Nat) :
    digestBytes (pre ++ rest) a (n + m) % 2 ^ 64 = (digestBytes pre a n + digestBytes rest (a + 8 * n) m) % 2 ^ 64 := by
  induction n generalizing pre a with
  | zero =>
    rw [List.length_eq_zero_iff.mp len, List.nil_append, digestBytes]
    simp
  | succ n ih =>
    have long : 8 ≤ pre.length := by omega
    have word : leAt (pre ++ rest) 0 8 = leAt pre 0 8 := by
      rw [leAt, leAt, List.drop_zero, List.drop_zero, List.take_append_of_le_length long]
    have tail := ih (pre := pre.drop 8) (by rw [List.length_drop]; omega) (a + 8)
    rw [Nat.add_right_comm, digestBytes, digestBytes, word, List.drop_append_of_le_length long]
    have offset : a + 8 + 8 * n = a + 8 * (n + 1) := by omega
    rw [offset] at tail
    omega

/-- A word counts in the digest as its mix64, whatever stands around it. -/
theorem digestOf_around {pre u : List Byte} {n : Nat} (len : pre.length = 8 * n) (one : u.length = 8) (post : List Byte) (a : Nat) :
    digestOf (pre ++ u ++ post) a % 2 ^ 64 =
      (digestBytes pre a n + (mix64 (a + 8 * n) (fromLe u) + digestBytes post (a + 8 * n + 8) (post.length / 8)) % 2 ^ 64) % 2 ^ 64 := by
  have words : (pre ++ u ++ post).length / 8 = n + (post.length / 8 + 1) := by
    rw [List.length_append, List.length_append]; omega
  have rest : (u ++ post).drop 8 = post := by rw [← one, List.drop_left]
  rw [digestOf, words, List.append_assoc, digestBytes_append len, digestBytes, leAt_first one, rest]

theorem digestOf_word_changed {a n : Nat} {pre post u v : List Byte} (len : pre.length = 8 * n) (hu : u.length = 8) (hv : v.length = 8)
    (other : u ≠ v) : digestOf (pre ++ u ++ post) a ≠ digestOf (pre ++ v ++ post) a := by
  intro e
  have e := congrArg (· % 2 ^ 64) e
  simp only [digestOf_around len hu, digestOf_around len hv] at e
  have small {w : List Byte} (h : w.length = 8) : fromLe w < 2 ^ 64 := lt_of_lt_of_eq (fromLe_lt w) (by rw [h]; rfl)
  have mu := mix64_lt (a + 8 * n) (small hu)
  have mv := mix64_lt (a + 8 * n) (small hv)
  exact other (fromLe_inj (hu.trans hv.symm) (mix64_inj (a + 8 * n) (small hu) (small hv) (by omega)))

/-- Settles O8: mix64 is a composition of steps that each have an inverse on 64-bit words, and a word counts in the digest as its mix64. -/
theorem changing_a_word_changes_the_digest : Obligations.changing_a_word_changes_the_digest :=
  ⟨mix64_toNat, fun a _ _ => mix64_inj a, fun a _ => mix64_onto a, fun _ _ _ _ _ _ len hu hv _ => digestOf_word_changed len hu hv⟩

end Sys2Proof.Machine
end

section
/-! SUPPORT. What tasting, the digests and the numeric watch change on a calm hub: their registers, the tiles, the canes' last slots, the accesses
issued, the time of a window and their own records. -/

namespace Sys2Proof.Machine

/-! ### Changes of the units of chapter 09 -/

/-- `h` with the registers, the bus and the occurrences of `s`. -/
def Hub.restored (s h : Hub) : Hub := { h with regs := s.regs, bus := s.bus, occs := s.occs }

/-- `h` with everything that the units of chapter 09 may change taken from `s`. -/
def Hub.offTaste (s h : Hub) : Hub :=
  { s.restored h with
    time := s.time, tiles := s.tiles, canes := s.canes, cell := s.cell, taste := s.taste, digTiles := s.digTiles, digExt := s.digExt
    digAgain := s.digAgain, numw := s.numw, numwHeld := s.numwHeld, fed := s.fed }

/-- No cane holds a record that waits for its lane. -/
def Hub.canesEmpty (s : Hub) : Bool := s.canes.cells.all (fun p => p.2.queue.isEmpty)

/-- `h` comes from `s` by changing the registers of the keys, the bus and the records of the units of chapter 09, and by raising occurrences,
RELEASED not among them; no record enters or leaves a cane's queue. -/
structure Tasted (keys : List Nat) (s h : Hub) : Prop where
  core : s.offTaste h = s
  queues : h.canesEmpty = s.canesEmpty
  regs : ∀ a b, regKey a b ∉ keys → h.regB a b = s.regB a b
  quiet : ∀ o ∈ h.occs, o ∈ s.occs ∨ o.code ≠ Ev.RELEASED
  kept : ∀ o ∈ s.occs, o ∈ h.occs

variable {keys : List Nat}

theorem Tasted.trans {s t u : Hub} (h1 : Tasted keys s t) (h2 : Tasted keys t u) : Tasted keys s u := by
  refine ⟨?_, h2.queues.trans h1.queues, fun a b n => (h2.regs a b n).trans (h1.regs a b n),
    fun o m => (h2.quiet o m).elim (h1.quiet o) .inr, fun o m => h2.kept o (h1.kept o m)⟩
  have e : s.offTaste u = s.offTaste (t.offTaste u) := rfl
  rw [e, h2.core, h1.core]

/-- A change of the records of the units of chapter 09 alone, the canes left as they are. -/
theorem Tasted.of_core {s h : Hub} (core : { s.offTaste h with regs := h.regs, occs := h.occs, canes := h.canes } = s) : Tasted keys s h := by
  have same {α : Type} (g : Hub → α) := congrArg g core
  have regs : h.regs = s.regs := same Hub.regs
  have occs : h.occs = s.occs := same Hub.occs
  have canes : h.canes = s.canes := same Hub.canes
  refine ⟨?_, by rw [Hub.canesEmpty, canes, Hub.canesEmpty], fun a b _ => by rw [Hub.regB, Hub.regB, regs], fun o m => .inl (occs ▸ m),
    fun o m => occs ▸ m⟩
  rw [regs, occs, canes] at core; exact core

theorem Tasted.refl (s : Hub) : Tasted keys s s := .of_core rfl

theorem Tasted.withTaste (s : Hub) (x : Taste) : Tasted keys s { s with taste := x } := .of_core rfl

theorem Tasted.withDigTiles (s : Hub) (p : Pass) : Tasted keys s { s with digTiles := p } := .of_core rfl

theorem Tasted.withDigExt (s : Hub) (p : Pass) : Tasted keys s { s with digExt := p } := .of_core rfl

theorem Tasted.withDigAgain (s : Hub) (l : List Again) : Tasted keys s { s with digAgain := l } := .of_core rfl

theorem Tasted.withNumw (s : Hub) (x : Tab NumwPair) : Tasted keys s { s with numw := x } := .of_core rfl

theorem Tasted.withNumwHeld (s : Hub) (x : Tab Nat) : Tasted keys s { s with numwHeld := x } := .of_core rfl

theorem Tasted.withTime (s : Hub) (x : TimeBase) : Tasted keys s { s with time := x } := .of_core rfl

theorem Tasted.withCell (s : Hub) (x : Cellar) : Tasted keys s { s with cell := x } := .of_core rfl

theorem Tasted.withFed (s : Hub) (x : Fed) : Tasted keys s { s with fed := x } := .of_core rfl

theorem Tasted.withTiles (s : Hub) (x : Tab Tile) : Tasted keys s { s with tiles := x } := .of_core rfl

theorem Tasted.withBus (s : Hub) (x : Tab BusResp) : Tasted keys s { s with bus := x } := .of_core rfl

theorem Tasted.setTile (s : Hub) (t : Nat) (x : Tile) : Tasted keys s (s.setTile t x) := .withTiles s _

theorem Tasted.setBuf (s : Hub) (b : Nat) (x : SampBuf) : Tasted keys s (s.setBuf b x) := .withTaste s _

theorem Tasted.setPass (s : Hub) (ext : Bool) (p : Pass) : Tasted keys s (s.setPass ext p) := by
  cases ext with
  | false => exact .withDigTiles s p
  | true => exact .withDigExt s p

theorem Tasted.setNumw (s : Hub) (slot kind : Nat) (p : NumwPair) : Tasted keys s (s.setNumw slot kind p) := .withNumw s _

theorem Tasted.issued (s : Hub) (unit : Nat) : Tasted keys s (s.issued unit) := .withCell s _

theorem Tasted.respond (s : Hub) (r : Req) (v st : Nat) : Tasted keys s (s.respond r v st) := .withBus s _

theorem Tasted.setReg (s : Hub) {a : Nat} (v : Nat) (k : a ∈ keys) : Tasted keys s (s.setReg a v) := by
  refine ⟨rfl, rfl, fun a' b' n => Hub.regB_setRegB_ne s v fun e => n ?_, fun _ m => .inl m, fun _ m => m⟩
  rw [e, regKey_zero]; exact k

theorem Tasted.setReg64 (s : Hub) {a : Nat} (v : Nat) (lo : a ∈ keys) (hi : a + 4 ∈ keys) : Tasted keys s (s.setReg64 a v) :=
  (Tasted.setReg s _ lo).trans (.setReg _ _ hi)

theorem Tasted.wr (s : Hub) {f : Fld} (v : Nat) (k : f.addr ∈ keys) : Tasted keys s (s.wr f v) := .setReg s _ k

theorem Tasted.err (s : Hub) {e : ErrBit} (k : (F.PG_ERROR_ERRORS.lane e.page).addr ∈ keys)
    (k' : (F.PG_ERROR_INFO_BIT.lane e.page).addr ∈ keys) : Tasted keys s (s.err e) := (Tasted.wr s _ k).trans (.wr _ _ k')

theorem Tasted.raise (s : Hub) {c : Nat} (u : Option Nat) (n : c ≠ Ev.RELEASED) : Tasted keys s (s.raise c u) := by
  refine ⟨rfl, rfl, fun _ _ _ => rfl, fun o m => ?_, fun o m => List.mem_append_left _ m⟩
  rcases List.mem_append.mp m with m | m
  · exact .inl m
  · rw [List.mem_singleton.mp m]; exact .inr n

theorem Tasted.raiseOf (s : Hub) {c : Nat} (u : Nat) (n : c ≠ Ev.RELEASED) : Tasted keys s (s.raiseOf c u) := .raise s _ n

theorem Tasted.doEach {α : Type} {f : Hub → α → Hub} (hf : ∀ s a, Tasted keys s (f s a)) (l : List α) (s : Hub) :
    Tasted keys s (Machine.doEach l s f) :=
  doEach_keeps (Tasted keys s) f (fun t a h => h.trans (hf t a)) l s (.refl s)

/-- A value put in place of one that meets `p` exactly when it does changes no answer about all values of a table. -/
theorem all_putKey {α : Type} {p : α → Bool} {d v : α} (dflt : p d = true) {k : Nat} {l : List (Nat × α)} (same : p v = p (findKey k d l)) :
    (putKey k v l).all (fun c => p c.2) = l.all (fun c => p c.2) := by
  induction l with
  | nil => simpa [putKey, findKey, dflt] using same
  | cons c l ih =>
    obtain ⟨j, w⟩ := c
    by_cases below : j < k
    · have other : j ≠ k := by omega
      rw [findKey, if_neg (by simpa using other)] at same
      simp [putKey, below, ih same]
    · by_cases here : j = k
      · rw [findKey, if_pos (by simpa using here)] at same
        simp [putKey, here, same]
      · rw [findKey, if_neg (by simpa using here)] at same
        have kept : l.all (fun c => p c.2) = true → p v = true := by
          intro all
          rw [same]
          clear same ih
          induction l with
          | nil => exact dflt
          | cons c l ih =>
            obtain ⟨i, u⟩ := c
            simp only [List.all_cons, Bool.and_eq_true] at all
            rw [findKey]
            split
            · exact all.1
            · exact ih all.2
        simp only [putKey, below, here, if_false, beq_iff_eq, List.all_cons]
        cases all : l.all (fun c => p c.2)
        · simp
        · simp [kept all]

/-- A change of a cane that leaves its queue alone. -/
theorem Tasted.setCane (s : Hub) (c : Nat) {x : CaneSt} (same : x.queue = (s.cane c).queue) : Tasted keys s (s.setCane c x) := by
  refine ⟨rfl, ?_, fun _ _ _ => rfl, fun _ m => .inl m, fun _ m => m⟩
  exact all_putKey (p := fun x : CaneSt => x.queue.isEmpty) (d := {}) rfl (congrArg List.isEmpty same)

theorem Tasted.rd {s h : Hub} (k : Tasted keys s h) (f : Fld) (n : f.addr ∉ keys) : h.rd f = s.rd f := by
  simp only [Hub.rd, Hub.rdB, k.regs f.addr 0 (by rwa [regKey_zero])]

theorem Tasted.reg {s h : Hub} (k : Tasted keys s h) {a : Nat} (n : a ∉ keys) : h.reg a = s.reg a := k.regs a 0 (by rwa [regKey_zero])

theorem Tasted.reg64 {s h : Hub} (k : Tasted keys s h) {a : Nat} (lo : a ∉ keys) (hi : a + 4 ∉ keys) : h.reg64 a = s.reg64 a := by
  rw [Hub.reg64, Hub.reg64, k.reg lo, k.reg hi]

theorem Tasted.unplanted {s h : Hub} (k : Tasted keys s h) (c : s.calm = true) : h.rel.inject = none :=
  (congrArg (fun h => h.rel.inject) k.core).trans (calm_unplanted c)

/-- The harvest's close is as ready as before. -/
theorem Tasted.harvReady {s h : Hub} (k : Tasted keys s h) : h.harvReady = s.harvReady := by
  have same := congrArg Hub.harvReady k.core
  have queues := k.queues
  unfold Hub.canesEmpty at queues
  rw [← same]
  unfold Hub.harvReady
  rw [queues]
  rfl

/-- Nothing comes to wait where no register is touched that `calm` looks at. -/
theorem Tasted.still {s h : Hub} (k : Tasted keys s h) (n : ∀ a ∈ calmKeys, a ∉ keys) (c : s.still) : h.still := by
  have phase := k.rd F.HARV_STATUS_PHASE (n _ (by simp [calmKeys]))
  obtain ⟨reports, policies, peers, reqs, soft, ladder, drain, columns, close⟩ := c
  rw [← k.harvReady, ← phase] at close
  have same {α : Type} (g : Hub → α) := congrArg g k.core
  have hangCtl : h.hangCtl = s.hangCtl := same Hub.hangCtl
  have hang : h.hang = s.hang := same Hub.hang
  have link : h.link = s.link := same Hub.link
  have softReset : h.softReset = s.softReset := same Hub.softReset
  have lad : h.ladder = s.ladder := same Hub.ladder
  have harv : h.harv = s.harv := same Hub.harv
  rw [← hangCtl] at reports peers
  rw [← hang] at policies
  rw [← link] at reqs
  rw [← softReset] at soft
  rw [← lad] at ladder
  rw [← harv] at drain columns
  exact ⟨reports, policies, peers, reqs, soft, ladder, drain, columns, close⟩

theorem Tasted.untraced {s h : Hub} (k : Tasted keys s h) (n : ∀ a ∈ calmKeys, a ∉ keys) (c : s.untraced) : h.untraced := by
  unfold Hub.untraced Hub.flag at *
  rwa [k.rd F.TRACE_STATE_RUNNING (n _ (by simp [calmKeys])), k.rd F.TRACE_TRIG_CTRL_HUBEV_EN (n _ (by simp [calmKeys]))]

/-! ### The command's whole effect -/

/-- What a calm hub `s` becomes by a command whose unit makes changes of chapter 09 on the way to `h`: `t`. -/
structure TasteEffect (keys : List Nat) (s h t : Hub) : Prop where
  rest : s.rest t = s.restored h
  keeps : s.keeps t keys
  regs : ∀ a b, eventKey (regKey a b) = false → t.regB a b = h.regB a b
  shows : ∀ o ∈ h.occs, (∀ p i, eventBit o.code (o.unit.getD 0) = some (p, i) → i < 32) → t.shows o.code (o.unit.getD 0) = true

section
variable {s h t : Hub} (x : TasteEffect keys s h t)
include x

theorem TasteEffect.field {α : Type} (g : Hub → α) (n : ∀ u, g (s.rest u) = g u) (n' : ∀ u, g (s.restored u) = g u) : g t = g h := by
  rw [← n t, x.rest, n']

theorem TasteEffect.taste : t.taste = h.taste := x.field Hub.taste (fun _ => rfl) fun _ => rfl
theorem TasteEffect.tiles : t.tiles = h.tiles := x.field Hub.tiles (fun _ => rfl) fun _ => rfl
theorem TasteEffect.canes : t.canes = h.canes := x.field Hub.canes (fun _ => rfl) fun _ => rfl
theorem TasteEffect.cell : t.cell = h.cell := x.field Hub.cell (fun _ => rfl) fun _ => rfl
theorem TasteEffect.time : t.time = h.time := x.field Hub.time (fun _ => rfl) fun _ => rfl
theorem TasteEffect.fed : t.fed = h.fed := x.field Hub.fed (fun _ => rfl) fun _ => rfl
theorem TasteEffect.digTiles : t.digTiles = h.digTiles := x.field Hub.digTiles (fun _ => rfl) fun _ => rfl
theorem TasteEffect.digExt : t.digExt = h.digExt := x.field Hub.digExt (fun _ => rfl) fun _ => rfl
theorem TasteEffect.digAgain : t.digAgain = h.digAgain := x.field Hub.digAgain (fun _ => rfl) fun _ => rfl
theorem TasteEffect.numw : t.numw = h.numw := x.field Hub.numw (fun _ => rfl) fun _ => rfl
theorem TasteEffect.numwHeld : t.numwHeld = h.numwHeld := x.field Hub.numwHeld (fun _ => rfl) fun _ => rfl
theorem TasteEffect.tile (u : Nat) : t.tile u = h.tile u := by rw [Hub.tile, x.tiles, Hub.tile]
theorem TasteEffect.sampBuf (b : Nat) : t.sampBuf b = h.sampBuf b := by rw [Hub.sampBuf, x.taste, Hub.sampBuf]

theorem TasteEffect.reg {a : Nat} (n : eventKey a = false) : t.reg a = h.reg a := x.regs a 0 (by rwa [regKey_zero])

theorem TasteEffect.reg64 {a : Nat} (lo : eventKey a = false) (hi : eventKey (a + 4) = false) : t.reg64 a = h.reg64 a := by
  rw [Hub.reg64, Hub.reg64, x.reg lo, x.reg hi]

theorem TasteEffect.rd (f : Fld) (n : eventKey f.addr = false) : t.rd f = h.rd f := by
  simp only [Hub.rd, Hub.rdB, x.regs f.addr 0 (by rwa [regKey_zero])]

theorem TasteEffect.hasErr (e : ErrBit) : t.hasErr e = h.hasErr e := by
  rw [Hub.hasErr, x.rd _ (eventKey_errors _), Hub.hasErr]

/-- An event that the unit raised is seen in PG_EVENT. -/
theorem TasteEffect.shows_raised {code unit : Nat} (m : ∃ o ∈ h.occs, o.code = code ∧ o.unit.getD 0 = unit)
    (bit : ∀ p i, eventBit code unit = some (p, i) → i < 32) : t.shows code unit = true := by
  obtain ⟨o, m, rfl, rfl⟩ := m
  exact x.shows o m bit

/-- A unit that changes the sample buffers and the spurs. -/
theorem TasteEffect.rest_taste_tiles (only : s.restored h = { s with taste := h.taste, tiles := h.tiles }) :
    s.rest t = { s with taste := t.taste, tiles := t.tiles } := by rw [x.rest, x.taste, x.tiles, only]

/-- A unit that changes the spurs. -/
theorem TasteEffect.rest_tiles (only : s.restored h = { s with tiles := h.tiles }) : s.rest t = { s with tiles := t.tiles } := by
  rw [x.rest, x.tiles, only]

/-- A unit that changes the sample buffers, the tasters or their counts. -/
theorem TasteEffect.rest_taste (only : s.restored h = { s with taste := h.taste }) : s.rest t = { s with taste := t.taste } := by
  rw [x.rest, x.taste, only]

end

/-- What a command leaves, seen from the hub `s` before its unit changed it. -/
theorem Tasted.rest_ran {s h t : Hub} (k : Tasted keys s h) (o : s.occs = []) (w : s.writes = []) (r : Ran false h s.store t) :
    s.rest t = s.restored h := by
  have same {α : Type} (g : Hub → α) := congrArg g k.core
  have link : h.link = s.link := same Hub.link
  have pins : h.pins = s.pins := same Hub.pins
  have store : h.store = s.store := same Hub.store
  have coops : h.coops = s.coops := same Hub.coops
  have writes : h.writes = [] := (same Hub.writes).trans w
  have told (c : Nat) : (t.coop c).told = (s.coop c).told := by rw [r.told rfl c, Hub.coop, Hub.coop, coops]
  calc s.rest t = { h.rest t with regs := s.regs, bus := s.bus, pins := s.pins, coops := s.coops } := by
        simp only [Hub.rest, told, and_self, if_true, link]
    _ = s.restored h := by
        rw [r.rest]
        simp only [Hub.restored, writes, o, Store.writeAll, List.foldl_nil, ← store, ← pins, ← coops]

/-- A command answers what its unit's effect shows. -/
theorem answers_tasted {i : Instr} {s : State} {p : Hub → Prop} {f : Hub → Hub} {h : Hub} (x : exec i s = run f s) (e : f s.hub = h)
    (k : Tasted keys s.hub h) (n : ∀ a ∈ calmKeys, a ∉ keys) (c : s.hub.calm = true)
    (q : ∀ t, t.bus = h.bus → TasteEffect keys s.hub h t → p t) : Answers i s p := by
  subst e
  obtain ⟨o, w⟩ := calm_nothing_left c
  obtain ⟨t, e, r⟩ := run_spec (rel := false) f s (k.still n (calm_still c)) (k.untraced n (calm_untraced c))
    fun _ x m => (k.quiet x m).resolve_left (by simp [o])
  have regs (a b : Nat) (q : eventKey (regKey a b) = false) := r.keeps a b q (by simp)
  exact ⟨_, x.trans e, rfl, q t r.bus ⟨k.rest_ran o w r, fun a b q m => (regs a b q).trans (k.regs a b m), regs, r.shows⟩⟩

/-- A command register that the bus takes: what its unit does, and the requester sees it carried out. -/
theorem answers_tasteCmd {i : Instr} {s : State} {p : Hub → Prop} {r : Req} {a v : Nat} {f : Hub → Hub} {h : Hub}
    (x : exec i s = run (fun h => h.cmd r a v f) s) (w : s.hub.takesWrite r a v = true) (e : f s.hub = h) (k : Tasted keys s.hub h)
    (n : ∀ a ∈ calmKeys, a ∉ keys) (c : s.hub.calm = true) (q : ∀ t, t.tookWrite r → TasteEffect keys s.hub h t → p t) :
    Answers i s p := by
  have taken : s.hub.cmd r a v f = h.respond r 0 St.OK := by
    rw [cmd_taken w (by rw [e]; exact k.unplanted c), e]
  refine answers_tasted x taken (k.trans (.respond _ _ _ _)) n c fun t bus y => q t ?_ ⟨y.rest, y.keeps, y.regs, y.shows⟩
  rw [Hub.tookWrite, bus]
  exact respond_took _ _

end Sys2Proof.Machine
end

section
/-! SUPPORT. Requests and samples (R246 to R252, R272, R274): what the scheduler, the spurs and the ends of a request change. -/

namespace Sys2Proof.Machine

variable {keys : List Nat}

/-! ### A request is made (R246) -/

theorem tile_setTile_same (s : Hub) (t : Nat) (x : Tile) : (s.setTile t x).tile t = x := by rw [Hub.tile_setTile, if_pos rfl]

theorem tile_setTile_other (s : Hub) {t u : Nat} (x : Tile) (n : u ≠ t) : (s.setTile t x).tile u = s.tile u := by
  rw [Hub.tile_setTile, if_neg n]

theorem sampBuf_setBuf_same (s : Hub) (b : Nat) (x : SampBuf) : (s.setBuf b x).sampBuf b = x := Tab.get_set_same ..

theorem sampBuf_setBuf (s : Hub) (b b' : Nat) (x : SampBuf) : (s.setBuf b x).sampBuf b' = if b' = b then x else s.sampBuf b' := Tab.get_set ..

/-- The tasting records with buffer `b` reserved for the next request, for tile `t` of slot `z`, and the request counted. -/
def Taste.reserve (x : Taste) (b z t : Nat) : Taste :=
  { x with
    bufs := x.bufs.set b { tile := t, slot := z, req := x.nextReq }, nextReq := (x.nextReq + 1) % 2 ^ 32
    stats := x.stats.set (z * 8 + Tc.REQUESTED) (sat 32 (x.stats.get (z * 8 + Tc.REQUESTED) 0 + 1)) }

theorem requestSample_eq (s : Hub) (b z t : Nat) : s.requestSample b z t =
    { s.setTile t { s.tile t with taste := some { req := s.taste.nextReq } } with taste := s.taste.reserve b z t } := rfl

theorem Tasted.requestSample (s : Hub) (b z t : Nat) : Tasted keys s (s.requestSample b z t) :=
  (Tasted.setTile s t _).trans (.withTaste _ _)

theorem requestSample_tile (s : Hub) (b z t : Nat) :
    (s.requestSample b z t).tile t = { s.tile t with taste := some { req := s.taste.nextReq } } ∧
    ∀ u, u ≠ t → (s.requestSample b z t).tile u = s.tile u :=
  ⟨tile_setTile_same _ _ _, fun _ n => tile_setTile_other _ _ n⟩

theorem requestSample_buf (s : Hub) (b z t : Nat) :
    (s.requestSample b z t).sampBuf b = { tile := t, slot := z, req := s.taste.nextReq } := Tab.get_set_same ..

theorem requestSample_counts (s : Hub) (b z t : Nat) : (s.requestSample b z t).taste.stats.get (z * 8 + Tc.REQUESTED) 0 =
    sat 32 (s.taste.stats.get (z * 8 + Tc.REQUESTED) 0 + 1) := Tab.get_set_same ..

theorem requestSample_only (s : Hub) (b z t : Nat) :
    s.restored (s.requestSample b z t) = { s with taste := (s.requestSample b z t).taste, tiles := (s.requestSample b z t).tiles } := by
  rw [requestSample_eq]; rfl

theorem requestSample_regs (s : Hub) (b z t : Nat) : (s.requestSample b z t).regs = s.regs := rfl

/-! ### The scheduler's tick (R246) -/

/-- The tick is noted. -/
def Hub.ticked (s : Hub) : Hub := { s with taste := { s.taste with lastTick := s.time.hclk } }

theorem cursorNext_ticked (s : Hub) (z n c : Nat) : s.ticked.cursorNext z n c = s.cursorNext z n c := by
  induction n generalizing c with
  | zero => rfl
  | succ n ih => rw [Hub.cursorNext, Hub.cursorNext, ih]; rfl

theorem tasteChoice_ticked (s : Hub) (l : List (Nat × Nat)) : s.ticked.tasteChoice l = s.tasteChoice l := by
  induction l with
  | nil => rfl
  | cons p l ih => rw [Hub.tasteChoice, Hub.tasteChoice, ih, cursorNext_ticked]; rfl

/-- The scheduler's records after a tick at `now` that gives slot `z`, which has `left` requests left, one for its tile `t`. -/
def Taste.tickedTo (x : Taste) (now z left t : Nat) : Taste :=
  { x with lastTick := now, rrSlot := z, rrLeft := left - 1, cursor := x.cursor.set z t }

/-- The hub after such a tick. -/
def Hub.tickedTo (s : Hub) (z left t : Nat) : Hub := { s with taste := s.taste.tickedTo s.time.hclk z left t }

/-- The interval between two ticks, at least 25,000 HCLK. -/
def Hub.tickEvery (s : Hub) : Nat := if s.rd F.TASTE_INTERVAL_HCLK < 25000 then 25000 else s.rd F.TASTE_INTERVAL_HCLK

/-- A tick that is due, with a slot to serve. -/
theorem tasteTick_due {s : Hub} (en : s.flag F.TASTE_CTRL_EN = true) (due : s.elapsed s.taste.lastTick s.tickEvery = true)
    (some_slot : s.tasteOrder ≠ []) : s.tasteTick =
      match s.freeBuf, s.tasteChoice s.tasteOrder with
      | some b, some (z, left, t) => (s.tickedTo z left t).requestSample b z t
      | _, _ => s.ticked.bump F.TASTE_THROTTLED_COUNT 1 := by
  have slots : s.tasteOrder.isEmpty = false := by simpa using some_slot
  have order : s.ticked.tasteOrder = s.tasteOrder := rfl
  have free : s.ticked.freeBuf = s.freeBuf := rfl
  rw [← tasteChoice_ticked, ← order, ← free]
  rw [← order] at slots
  unfold Hub.tickEvery at due
  unfold Hub.tasteTick
  simp only [en, due, Bool.not_true, Bool.or_false, Bool.false_eq_true, if_false]
  change (if s.ticked.tasteOrder.isEmpty = true then _ else _) = _
  rw [slots]
  rfl

theorem Tasted.ticked (s : Hub) : Tasted keys s s.ticked := .withTaste s _

theorem Tasted.tickedTo (s : Hub) (z left t : Nat) : Tasted keys s (s.tickedTo z left t) := .withTaste _ _

theorem exec_tasteTick (s : State) : exec .tasteTick s = run Hub.tasteTick s := rfl

theorem tasteTick_requests (s : State) (b z left t i : Nat) (c : s.hub.calm = true) (en : s.hub.flag F.TASTE_CTRL_EN = true)
    (int : s.hub.rd F.TASTE_INTERVAL_HCLK = i) (due : s.hub.elapsed s.hub.taste.lastTick (if i < 25000 then 25000 else i) = true)
    (order : s.hub.tasteOrder ≠ []) (free : s.hub.freeBuf = some b) (choice : s.hub.tasteChoice s.hub.tasteOrder = some (z, left, t)) :
    Answers .tasteTick s fun h =>
      h.sampBuf b = { tile := t, slot := z, req := s.hub.taste.nextReq } ∧
      h.tile t = { s.hub.tile t with taste := some { req := s.hub.taste.nextReq } } ∧ (∀ u, u ≠ t → h.tile u = s.hub.tile u) ∧
      h.taste.lastTick = s.hub.time.hclk ∧ h.taste.nextReq = (s.hub.taste.nextReq + 1) % 2 ^ 32 ∧
      h.taste.stats.get (z * 8 + Tc.REQUESTED) 0 = sat 32 (s.hub.taste.stats.get (z * 8 + Tc.REQUESTED) 0 + 1) ∧
      s.hub.rest h = { s.hub with taste := h.taste, tiles := h.tiles } ∧ s.hub.keeps h [] := by
  subst int
  have e : s.hub.tasteTick = (s.hub.tickedTo z left t).requestSample b z t := by rw [tasteTick_due en due order, free, choice]
  have k : Tasted [] s.hub ((s.hub.tickedTo z left t).requestSample b z t) := (Tasted.tickedTo _ _ _ _).trans (.requestSample _ _ _ _)
  obtain ⟨own, others⟩ := requestSample_tile (s.hub.tickedTo z left t) b z t
  refine answers_tasted (exec_tasteTick s) e k (by decide) c fun h _ x =>
    ⟨(x.sampBuf b).trans (requestSample_buf _ _ _ _), (x.tile t).trans own, fun u n => (x.tile u).trans (others u n),
      congrArg Taste.lastTick x.taste, congrArg Taste.nextReq x.taste, ?_, x.rest_taste_tiles (requestSample_only (s.hub.tickedTo z left t) b z t), x.keeps⟩
  rw [x.taste]
  exact requestSample_counts _ _ _ _

theorem tasteTick_throttled (s : State) (i : Nat) (c : s.hub.calm = true) (en : s.hub.flag F.TASTE_CTRL_EN = true)
    (int : s.hub.rd F.TASTE_INTERVAL_HCLK = i) (due : s.hub.elapsed s.hub.taste.lastTick (if i < 25000 then 25000 else i) = true)
    (order : s.hub.tasteOrder ≠ []) (full : s.hub.freeBuf = none) :
    Answers .tasteTick s fun h =>
      h.rd F.TASTE_THROTTLED_COUNT = sat F.TASTE_THROTTLED_COUNT.width (s.hub.rd F.TASTE_THROTTLED_COUNT + 1) ∧
      h.taste = { s.hub.taste with lastTick := s.hub.time.hclk } ∧ s.hub.rest h = { s.hub with taste := h.taste } ∧
      s.hub.keeps h [F.TASTE_THROTTLED_COUNT.addr] := by
  subst int
  have e : s.hub.tasteTick = s.hub.ticked.bump F.TASTE_THROTTLED_COUNT 1 := by rw [tasteTick_due en due order, full]
  have k : Tasted [F.TASTE_THROTTLED_COUNT.addr] s.hub (s.hub.ticked.bump F.TASTE_THROTTLED_COUNT 1) :=
    (Tasted.ticked _).trans (.wr _ _ (by decide))
  refine answers_tasted (exec_tasteTick s) e k (by decide) c fun h _ x => ⟨?_, x.taste, x.rest_taste rfl, x.keeps⟩
  rw [x.rd _ (by decide), Hub.bump, Hub.rd_wr _ _ _ (by decide)]
  exact Nat.mod_eq_of_lt (sat_lt _ _)

/-! ### The spur (R247, R252) -/

/-- A command that changes one tile alone. -/
theorem answers_oneTile {i : Instr} {s : State} {f : Hub → Hub} {t : Nat} {y : Tile} (x : exec i s = run f s)
    (e : f s.hub = s.hub.setTile t y) (c : s.hub.calm = true) :
    Answers i s fun h =>
      h.tile t = y ∧ (∀ u, u ≠ t → h.tile u = s.hub.tile u) ∧ s.hub.rest h = { s.hub with tiles := h.tiles } ∧ s.hub.keeps h [] :=
  answers_tasted (keys := []) x e (.setTile _ _ _) (by decide) c fun h _ x =>
    ⟨(x.tile t).trans (tile_setTile_same _ _ _), fun u n => (x.tile u).trans (tile_setTile_other _ _ n), x.rest_tiles rfl, x.keeps⟩

theorem exec_tasteRequestRx (t : TileId) (s : State) : exec (.tasteRequestRx t) s = run (fun h => h.tasteRequestRx t) s := rfl

theorem tasteRequestRx_arms (s : State) (t : TileId) (q : SpurTaste) (c : s.hub.calm = true) (req : (s.hub.tile t).taste = some q)
    (unarmed : q.armAt = 0) :
    Answers (.tasteRequestRx t) s fun h =>
      h.tile t = { s.hub.tile t with taste := some { q with armAt := s.hub.time.hclk + 8, armScn := (s.hub.tile t).scn } } ∧
      (∀ u, u ≠ (t : Nat) → h.tile u = s.hub.tile u) ∧ s.hub.rest h = { s.hub with tiles := h.tiles } ∧ s.hub.keeps h [] := by
  refine answers_oneTile (exec_tasteRequestRx t s) ?_ c
  simp only [Hub.tasteRequestRx, req, unarmed, BEq.rfl, if_true]

theorem exec_tasteOpIssue (t : TileId) (d : OpDesc) (s : State) : exec (.tasteOpIssue t d) s = run (fun h => h.tasteOpIssue t d) s := rfl

/-- An eligible operation at an armed spur: abandoned over a cane turned downward, sampled otherwise. -/
theorem tasteOpIssue_eligible {s : Hub} {t : Nat} {d : OpDesc} {q : SpurTaste} (req : (s.tile t).taste = some q)
    (armed : s.tasteArmed q = true) (going : (s.tile t).gated = false)
    (ok : s.tasteEligible ((s.bufOf t).map s.sampBuf) (s.tile t).slot d = true) :
    s.tasteOpIssue t d =
      if s.caneDown (s.caneFor (colOf t)) then s.abandonSample t
      else
        let full := s.sampleHeader t q d (s.tile t).scn false false
        let half := d.kind == 1 && sampleMax < 80 + Sh.len full
        s.setTile t { s.tile t with
          taste := some { q with
            started := true, ns := (s.tile t).scn
            header := if half then s.sampleHeader t q d (s.tile t).scn true (s.tile t).halfHigh else full, desc := d }
          halfHigh := if half then !(s.tile t).halfHigh else (s.tile t).halfHigh } := by
  simp only [Hub.tasteOpIssue, req, armed, going, ok, Bool.not_true, Bool.or_self, Bool.false_eq_true, if_false]

theorem tasteOpIssue_samples (s : State) (t : TileId) (desc : OpDesc) (q : SpurTaste) (half : Bool) (c : s.hub.calm = true)
    (req : (s.hub.tile t).taste = some q) (armed : s.hub.tasteArmed q = true) (going : (s.hub.tile t).gated = false)
    (ok : s.hub.tasteEligible ((s.hub.bufOf t).map s.hub.sampBuf) (s.hub.tile t).slot desc = true)
    (up : s.hub.caneDown (s.hub.caneFor (colOf t)) = false)
    (fits : half = (desc.kind == 1 && sampleMax < 80 + Sh.len (s.hub.sampleHeader t q desc (s.hub.tile t).scn false false))) :
    Answers (.tasteOpIssue t desc) s fun h =>
      h.tile t = { s.hub.tile t with taste := some { q with started := true, ns := (s.hub.tile t).scn, header := if half then s.hub.sampleHeader t q desc (s.hub.tile t).scn true (s.hub.tile t).halfHigh else s.hub.sampleHeader t q desc (s.hub.tile t).scn false false, desc := desc }, halfHigh := half != (s.hub.tile t).halfHigh } ∧
      (∀ u, u ≠ (t : Nat) → h.tile u = s.hub.tile u) ∧ s.hub.rest h = { s.hub with tiles := h.tiles } ∧ s.hub.keeps h [] := by
  have turn : (half != (s.hub.tile t).halfHigh) = if half then !(s.hub.tile t).halfHigh else (s.hub.tile t).halfHigh := by
    cases half <;> simp
  refine answers_oneTile (exec_tasteOpIssue t desc s) ?_ c
  rw [tasteOpIssue_eligible req armed going ok, up, turn, fits]
  rfl

/-! ### A request ends (R249, R272, R274) -/

/-- The tasting records with buffer `b` free again and the outcome counted. -/
def Taste.freed (x : Taste) (b slot outcome : Nat) : Taste :=
  { x with
    bufs := x.bufs.del b
    stats := x.stats.set (slot * 8 + outcome) (sat 32 (x.stats.get (slot * 8 + outcome) 0 + 1)) }

/-- The spur of tile `t` without request `req`. -/
def Hub.forgetRequest (s : Hub) (t req : Nat) : Hub :=
  if (s.tile t).taste.any (fun q => q.req == req) then s.setTile t { s.tile t with taste := none } else s

/-- A request ends, before a loss is told. -/
def Hub.sampleEnded (s : Hub) (b outcome : Nat) : Hub :=
  { s.forgetRequest (s.sampBuf b).tile (s.sampBuf b).req with taste := s.taste.freed b (s.sampBuf b).slot outcome }

/-- TASTE_LOSS, once per 1,048,576 HCLK (R274). -/
def Hub.tellLoss (s : Hub) (slot : Nat) : Hub :=
  let r := s.raiseLimited s.taste.lossAt Ev.TASTE_LOSS (some slot)
  { r.1 with taste := { r.1.taste with lossAt := r.2 } }

/-- The outcomes that raise TASTE_LOSS (R274). -/
def isLoss (outcome : Nat) : Bool := outcome == Tc.LATE || outcome == Tc.ABANDONED || outcome == Tc.CORRUPT

theorem endSample_eq (s : Hub) (b outcome : Nat) : s.endSample b outcome =
    if isLoss outcome then (s.sampleEnded b outcome).tellLoss (s.sampBuf b).slot else s.sampleEnded b outcome := by
  have ended : s.sampleEnded b outcome =
      (Hub.forgetRequest { s with taste := { s.taste with bufs := s.taste.bufs.del b } } (s.sampBuf b).tile (s.sampBuf b).req).tasteCount
        (s.sampBuf b).slot outcome := by
    unfold Hub.sampleEnded Hub.forgetRequest
    have same : Hub.tile { s with taste := { s.taste with bufs := s.taste.bufs.del b } } = s.tile := rfl
    rw [same]
    split <;> rfl
  rw [ended]
  rfl

theorem Tasted.forgetRequest (s : Hub) (t req : Nat) : Tasted keys s (s.forgetRequest t req) := by
  unfold Hub.forgetRequest
  split
  · exact .setTile _ _ _
  · exact .refl s

theorem Tasted.sampleEnded (s : Hub) (b outcome : Nat) : Tasted keys s (s.sampleEnded b outcome) :=
  (Tasted.forgetRequest s _ _).trans (.withTaste _ _)

theorem Tasted.tellLoss (s : Hub) (slot : Nat) : Tasted keys s (s.tellLoss slot) := by
  unfold Hub.tellLoss Hub.raiseLimited
  split
  · split
    · exact (Tasted.raise s _ (by decide)).trans (.withTaste _ _)
    · exact .withTaste s _
  · exact (Tasted.raise s _ (by decide)).trans (.withTaste _ _)

theorem Tasted.endSample (s : Hub) (b outcome : Nat) : Tasted keys s (s.endSample b outcome) := by
  rw [endSample_eq]
  split
  · exact (Tasted.sampleEnded s b outcome).trans (.tellLoss _ _)
  · exact .sampleEnded s b outcome

/-- Telling a loss changes no more than when it was told. -/
theorem tellLoss_only (s : Hub) (slot : Nat) : s.restored (s.tellLoss slot) = { s with taste := { s.taste with lossAt := (s.tellLoss slot).taste.lossAt } } := by
  unfold Hub.tellLoss Hub.raiseLimited
  split
  · split <;> rfl
  · rfl

/-- What a request's end leaves: `h` comes from `s` by ending the request of buffer `b`. -/
structure RequestEnds (s h : Hub) (b outcome : Nat) : Prop where
  only : s.restored h = { s with taste := h.taste, tiles := h.tiles }
  freed : h.taste.bufs = s.taste.bufs.del b
  counted : h.taste.stats.get ((s.sampBuf b).slot * 8 + outcome) 0 = sat 32 (s.taste.stats.get ((s.sampBuf b).slot * 8 + outcome) 0 + 1)
  spur : h.tiles = (s.forgetRequest (s.sampBuf b).tile (s.sampBuf b).req).tiles

theorem forgetRequest_only (s : Hub) (t req : Nat) : s.forgetRequest t req = { s with tiles := (s.forgetRequest t req).tiles } := by
  unfold Hub.forgetRequest
  split <;> rfl

theorem sampleEnded_ends (s : Hub) (b outcome : Nat) : RequestEnds s (s.sampleEnded b outcome) b outcome := by
  refine ⟨?_, rfl, Tab.get_set_same .., rfl⟩
  rw [Hub.sampleEnded, forgetRequest_only]
  rfl

theorem endSample_ends (s : Hub) (b outcome : Nat) : RequestEnds s (s.endSample b outcome) b outcome := by
  have ended := sampleEnded_ends s b outcome
  rw [endSample_eq]
  split
  · have told := tellLoss_only (s.sampleEnded b outcome) (s.sampBuf b).slot
    generalize s.sampleEnded b outcome = g at ended told
    have same {α : Type} (f : Hub → α) := congrArg f told
    have bufs : (g.tellLoss (s.sampBuf b).slot).taste.bufs = g.taste.bufs := same fun h => h.taste.bufs
    have stats : (g.tellLoss (s.sampBuf b).slot).taste.stats = g.taste.stats := same fun h => h.taste.stats
    have tiles : (g.tellLoss (s.sampBuf b).slot).tiles = g.tiles := same Hub.tiles
    refine ⟨?_, by rw [bufs, ended.freed], by rw [stats, ended.counted], by rw [tiles, ended.spur]⟩
    have via : s.restored (g.tellLoss (s.sampBuf b).slot) = s.restored (g.restored (g.tellLoss (s.sampBuf b).slot)) := rfl
    rw [via, told]
    have only := congrArg (fun h : Hub => { h with taste := { h.taste with lossAt := (g.tellLoss (s.sampBuf b).slot).taste.lossAt } }) ended.only
    refine only.trans ?_
    rw [tiles]
    have taste : (g.tellLoss (s.sampBuf b).slot).taste = { g.taste with lossAt := (g.tellLoss (s.sampBuf b).slot).taste.lossAt } :=
      same Hub.taste
    rw [← taste]
  · exact ended

end Sys2Proof.Machine
end

section
/-! SUPPORT. Requests that end at a spur, samples that reach the hub, and a taster's result (R247, R249, R254, R255). -/

namespace Sys2Proof.Machine

variable {keys : List Nat}

/-! ### What an ended request leaves -/

theorem not_mem_keys_del {α : Type} (t : Tab α) (k : Nat) : (t.del k).keys.contains k = false := by
  have dropped (l : List (Nat × α)) : k ∉ (dropKey k l).map Prod.fst := by
    induction l with
    | nil => simp [dropKey]
    | cons p l ih =>
      obtain ⟨j, w⟩ := p
      rw [dropKey]
      split
      · exact ih
      · rename_i other
        simpa using ⟨fun e => other (by simp [e]), by simpa using ih⟩
  rw [List.contains_eq_mem, decide_eq_false_iff_not]
  exact dropped t.cells

theorem forgetRequest_own {s : Hub} {t : Nat} {q : SpurTaste} (req : (s.tile t).taste = some q) :
    s.forgetRequest t q.req = s.setTile t { s.tile t with taste := none } := by
  simp [Hub.forgetRequest, req]

section
variable {s g h t : Hub} {b outcome : Nat} (x : TasteEffect keys s h t) (r : RequestEnds g h b outcome)
include x r

/-- The buffer is free again. -/
theorem RequestEnds.free : t.taste.bufs.keys.contains b = false := by rw [x.taste, r.freed]; exact not_mem_keys_del _ _

/-- The outcome is counted for the slot. -/
theorem RequestEnds.counts {y : SampBuf} (buf : g.sampBuf b = y) :
    t.taste.stats.get (y.slot * 8 + outcome) 0 = sat 32 (g.taste.stats.get (y.slot * 8 + outcome) 0 + 1) := by
  rw [x.taste, ← buf, r.counted]

/-- The spur whose request it was has none. -/
theorem RequestEnds.spurless {y : SampBuf} {q : SpurTaste} (buf : g.sampBuf b = y) (req : (g.tile y.tile).taste = some q)
    (same : y.req = q.req) : (t.tile y.tile).taste = none := by
  rw [x.tile, Hub.tile, r.spur, buf, same, forgetRequest_own req]
  exact congrArg Tile.taste (tile_setTile_same g y.tile { g.tile y.tile with taste := none })

end

/-- The loss told for the first time since it was cleared: noted, and raised. -/
theorem tellLoss_first {s : Hub} (first : s.taste.lossAt = none) (slot : Nat) :
    (s.tellLoss slot).taste.lossAt = some s.time.hclk ∧
    ∃ o ∈ (s.tellLoss slot).occs, o.code = Ev.TASTE_LOSS ∧ o.unit.getD 0 = slot := by
  simp only [Hub.tellLoss, Hub.raiseLimited, first, true_and]
  exact ⟨_, List.mem_append_right _ (List.mem_singleton_self _), rfl, rfl⟩

theorem sampleEnded_lossAt (s : Hub) (b outcome : Nat) :
    (s.sampleEnded b outcome).taste.lossAt = s.taste.lossAt ∧ (s.sampleEnded b outcome).time = s.time := by
  refine ⟨rfl, ?_⟩
  rw [Hub.sampleEnded, forgetRequest_only]

/-! ### Requests that end at the spur (R247, R249, R272) -/

theorem abandonSample_request {s : Hub} {t b : Nat} {q : SpurTaste} (req : (s.tile t).taste = some q) (buf : s.bufOf t = some b) :
    s.abandonSample t = s.endSample b Tc.ABANDONED := by
  simp only [Hub.abandonSample, req, buf, Option.isSome_some, if_true]

theorem tasteOpIssue_abandons (s : State) (t : TileId) (desc : OpDesc) (q : SpurTaste) (b : Nat) (x : SampBuf) (c : s.hub.calm = true)
    (req : (s.hub.tile t).taste = some q) (armed : s.hub.tasteArmed q = true) (going : (s.hub.tile t).gated = false)
    (ok : s.hub.tasteEligible ((s.hub.bufOf t).map s.hub.sampBuf) (s.hub.tile t).slot desc = true)
    (down : s.hub.caneDown (s.hub.caneFor (colOf t)) = true) (of : s.hub.bufOf t = some b) (buf : s.hub.sampBuf b = x)
    (own : x.tile = t) (same : x.req = q.req) :
    Answers (.tasteOpIssue t desc) s fun h =>
      (h.tile t).taste = none ∧ h.taste.bufs.keys.contains b = false ∧
      h.taste.stats.get (x.slot * 8 + Tc.ABANDONED) 0 = sat 32 (s.hub.taste.stats.get (x.slot * 8 + Tc.ABANDONED) 0 + 1) ∧
      s.hub.rest h = { s.hub with taste := h.taste, tiles := h.tiles } ∧ s.hub.keeps h [] := by
  have e : s.hub.tasteOpIssue t desc = s.hub.endSample b Tc.ABANDONED := by
    rw [tasteOpIssue_eligible req armed going ok, if_pos down, abandonSample_request req of]
  have r := endSample_ends s.hub b Tc.ABANDONED
  rw [← own] at req ⊢
  exact answers_tasted (exec_tasteOpIssue t desc s) e (.endSample _ _ _) (by decide) c fun h _ y =>
    ⟨r.spurless y buf req same, r.free y, r.counts y buf, y.rest_taste_tiles r.only, y.keeps⟩

theorem exec_tasteMissed (t : TileId) (s : State) : exec (.tasteMissed t) s = run (fun h => h.tasteMissed t) s := rfl

theorem tasteMissed_ends (s : State) (t : TileId) (q : SpurTaste) (b : Nat) (x : SampBuf) (c : s.hub.calm = true)
    (req : (s.hub.tile t).taste = some q) (of : s.hub.bufOf t = some b) (buf : s.hub.sampBuf b = x) (own : x.tile = t)
    (same : x.req = q.req) (armed : s.hub.tasteArmed q = true) (late : q.armScn + s.hub.tasteWait ≤ (s.hub.tile t).scn) :
    Answers (.tasteMissed t) s fun h =>
      (h.tile t).taste = none ∧ h.taste.bufs.keys.contains b = false ∧
      h.taste.stats.get (x.slot * 8 + Tc.MISSED) 0 = sat 32 (s.hub.taste.stats.get (x.slot * 8 + Tc.MISSED) 0 + 1) ∧
      h.taste.lossAt = s.hub.taste.lossAt ∧ s.hub.rest h = { s.hub with taste := h.taste, tiles := h.tiles } ∧ s.hub.keeps h [] := by
  have e : s.hub.tasteMissed t = s.hub.sampleEnded b Tc.MISSED := by
    simp only [Hub.tasteMissed, req, of, armed, late, decide_true, Bool.and_self, if_true, endSample_eq]
    rfl
  have r := sampleEnded_ends s.hub b Tc.MISSED
  rw [← own] at req ⊢
  refine answers_tasted (exec_tasteMissed t s) e (.sampleEnded _ _ _) (by decide) c fun h _ y =>
    ⟨r.spurless y buf req same, r.free y, r.counts y buf, ?_, y.rest_taste_tiles r.only, y.keeps⟩
  rw [y.taste, (sampleEnded_lossAt _ _ _).1]

theorem exec_tasteLate (t : TileId) (s : State) : exec (.tasteLate t) s = run (fun h => h.tasteLate t) s := rfl

/-- A request that has kept no configuration of its own uses its slot's (R281). -/
theorem tasteConf_none (s : Hub) {x : SampBuf} (n : x.conf = none) (z : Nat) (f : Fld) : s.tasteConf (some x) z f = s.rdB f z := by
  simp only [Hub.tasteConf, Option.bind_some, n]

theorem tasteLate_ends (s : State) (t : TileId) (q : SpurTaste) (b : Nat) (x : SampBuf) (c : s.hub.calm = true)
    (req : (s.hub.tile t).taste = some q) (of : s.hub.bufOf t = some b) (buf : s.hub.sampBuf b = x) (own : x.tile = t)
    (same : x.req = q.req) (started : q.started = true) (conf : x.conf = none)
    (late : q.ns + 1024 * s.hub.rdB F.TASTE_SLOT_RESIDENCY (s.hub.tile t).slot ≤ (s.hub.tile t).scn) (first : s.hub.taste.lossAt = none) :
    Answers (.tasteLate t) s fun h =>
      (h.tile t).taste = none ∧ h.taste.bufs.keys.contains b = false ∧
      h.taste.stats.get (x.slot * 8 + Tc.LATE) 0 = sat 32 (s.hub.taste.stats.get (x.slot * 8 + Tc.LATE) 0 + 1) ∧
      h.taste.lossAt = some s.hub.time.hclk ∧ h.shows Ev.TASTE_LOSS x.slot = true ∧
      s.hub.rest h = { s.hub with taste := h.taste, tiles := h.tiles } ∧ s.hub.keeps h [] := by
  have e : s.hub.tasteLate t = s.hub.endSample b Tc.LATE := by
    simp only [Hub.tasteLate, req, of, started, buf, tasteConf_none _ conf, late, decide_true, Bool.and_self, if_true]
  have r := endSample_ends s.hub b Tc.LATE
  obtain ⟨lossAt, time⟩ := sampleEnded_lossAt s.hub b Tc.LATE
  obtain ⟨noted, raised⟩ := tellLoss_first (lossAt.trans first) (s.hub.sampBuf b).slot
  have told : s.hub.endSample b Tc.LATE = (s.hub.sampleEnded b Tc.LATE).tellLoss (s.hub.sampBuf b).slot := endSample_eq _ _ _
  rw [← told, time] at noted
  rw [← told, buf] at raised
  rw [← own] at req ⊢
  exact answers_tasted (exec_tasteLate t s) e (.endSample _ _ _) (by decide) c fun h _ y =>
    ⟨r.spurless y buf req same, r.free y, r.counts y buf, by rw [y.taste, noted],
      y.shows_raised raised (fun _ _ e => by cases e; decide), y.rest_taste_tiles r.only, y.keeps⟩

/-! ### Tasters are handed out (R254) -/

/-- `h` comes from `s` by giving buffers to tasters. -/
structure HandedOut (s h : Hub) : Prop where
  only : h = { s with taste := { s.taste with bufs := h.taste.bufs } }
  same : ∀ b, { h.sampBuf b with busyOn := none } = { s.sampBuf b with busyOn := none }

theorem HandedOut.refl (s : Hub) : HandedOut s s := ⟨rfl, fun _ => rfl⟩

theorem HandedOut.trans {s t u : Hub} (h1 : HandedOut s t) (h2 : HandedOut t u) : HandedOut s u := by
  refine ⟨?_, fun b => (h2.same b).trans (h1.same b)⟩
  rw [h2.only, h1.only]

theorem HandedOut.setBusy (s : Hub) (b n : Nat) : HandedOut s (s.setBuf b { s.sampBuf b with busyOn := some n }) := by
  refine ⟨rfl, fun b' => ?_⟩
  rw [sampBuf_setBuf]
  split
  · rename_i here; rw [here]
  · rfl

theorem assignTasters_handsOut (s : Hub) : HandedOut s s.assignTasters := by
  refine doEach_keeps (HandedOut s) _ (fun g b k => k.trans ?_) _ s (.refl s)
  dsimp only
  split
  · exact .setBusy g b _
  · exact .refl g

theorem assignTasters_none {s : Hub} (none : s.taste.bufs.cells = []) : s.assignTasters = s := by
  simp only [Hub.assignTasters, none, List.filter_nil, List.map_nil, doEach_nil]

/-! ### A sample reaches the hub (R249, R254) -/

theorem exec_sampleRx (b : Fin 8) (bad : Fin 3) (got : Option (List Byte)) (s : State) :
    exec (.sampleRx b bad got) s = run (fun h => h.sampleIn b bad got) s := rfl

/-- What a spur has sent of its sample of tile `t`: the header, the payload and the trailer. -/
def Hub.sampleSent (s : Hub) (t : Nat) (q : SpurTaste) : List Byte :=
  q.header ++ s.samplePayload t q.header q.desc ++
    sampleTrailer (q.header ++ s.samplePayload t q.header q.desc) (s.samplePayload t q.header q.desc).length 0

theorem Tasted.sampleSlot (s : Hub) (t : Nat) : Tasted keys s (s.sampleSlot t) := .setCane s _ rfl

/-- The trailer of a sample that passes its check says that the spur ended it OK. -/
theorem sampleSent_status {s : Hub} {t : Nat} {q : SpurTaste} (ok : sampleOk (s.sampleSent t q) = true) :
    leAt (s.sampleSent t q) (64 + Sh.len (s.sampleSent t q) + 4) 1 = 0 := by
  simp only [sampleOk, Bool.and_eq_true, beq_iff_eq] at ok
  obtain ⟨⟨-, len⟩, -⟩ := ok
  generalize Sh.len (s.sampleSent t q) = n at len ⊢
  unfold Hub.sampleSent at len ⊢
  generalize q.header ++ s.samplePayload t q.header q.desc = body at len ⊢
  generalize (s.samplePayload t q.header q.desc).length = m at len ⊢
  have whole : body.length = 64 + n := by
    simp only [List.length_append, sampleTrailer, length_le, zeros, List.length_replicate] at len
    omega
  have status : (sampleTrailer body m 0).drop 4 = le 1 0 ++ (zeros 3 ++ (le 4 (m / 8) ++ zeros 4)) := by
    have four : (le 4 (crc32c body)).length = 4 := length_le _ _
    simp only [sampleTrailer, List.append_assoc]
    exact List.drop_left' four
  rw [leAt, ← whole, ← List.drop_drop, List.drop_left, status]
  rfl

/-- A good sample of a legal operation, complete: its buffer holds it, and its spur has no request. -/
def Hub.sampleTaken (s : Hub) (b : Nat) (d : List Byte) : Hub :=
  ((s.sampleSlot (s.sampBuf b).tile).setTile (s.sampBuf b).tile { s.tile (s.sampBuf b).tile with taste := none }).setBuf b
    { s.sampBuf b with data := d, ready := true }

theorem sampleIn_good {s : Hub} {b : Nat} {q : SpurTaste} {d : List Byte} (due : s.sampleDue b = true)
    (req : (s.tile (s.sampBuf b).tile).taste = some q) (sent : s.sampleSent (s.sampBuf b).tile q = d) (ok : sampleOk d = true)
    (fits : sampleFits d = true) (legal : ((s.profileOf (Sh.profile d)).filter (fun p => Sh.legal p d)).isSome = true) :
    s.sampleIn b 0 none = (s.sampleTaken b d).assignTasters := by
  have status : leAt d (64 + Sh.len d + 4) 1 = 0 := by subst sent; exact sampleSent_status ok
  obtain ⟨p, legal⟩ := Option.isSome_iff_exists.mp legal
  have profile (u : Nat) : (s.sampleSlot u).profileOf (Sh.profile d) = s.profileOf (Sh.profile d) := rfl
  have payload (u : Nat) : (s.sampleSlot u).samplePayload u q.header q.desc = s.samplePayload u q.header q.desc := rfl
  unfold Hub.sampleIn Hub.sampleRx
  simp only [due, req, payload, Bool.not_true, Bool.false_eq_true, if_false, Option.getD_none]
  unfold Hub.sampleSent at sent
  rw [sent]
  simp only [ok, status, profile, legal, fits, bne_self_eq_false, Bool.not_true, Bool.or_self, Bool.false_eq_true, if_false, Bool.and_false,
    Nat.reduceBEq]
  rfl

end Sys2Proof.Machine
end

section
/-! SUPPORT. A sample's arrival and a taster's result on a calm hub (R249, R250, R254, R255). -/

namespace Sys2Proof.Machine

variable {keys : List Nat}

/-! ### A sample reaches the hub -/

theorem Tasted.handedOut {s h : Hub} (out : HandedOut s h) : Tasted keys s h := by
  rw [out.only]; exact .withTaste _ _

theorem Tasted.sampleTaken (s : Hub) (b : Nat) (d : List Byte) : Tasted keys s (s.sampleTaken b d) :=
  ((Tasted.sampleSlot s _).trans (.setTile _ _ _)).trans (.setBuf _ _ _)

/-- A unit that changes the sample buffers, the spurs and the canes' last slots. -/
theorem TasteEffect.rest_taste_tiles_canes {s h t : Hub} (x : TasteEffect keys s h t)
    (only : s.restored h = { s with taste := h.taste, tiles := h.tiles, canes := h.canes }) :
    s.rest t = { s with taste := t.taste, tiles := t.tiles, canes := t.canes } := by rw [x.rest, x.taste, x.tiles, x.canes, only]

theorem sampleRx_keepsGood (s : State) (b : Fin 8) (q : SpurTaste) (x : SampBuf) (d : List Byte) (c : s.hub.calm = true)
    (due : s.hub.sampleDue b = true) (buf : s.hub.sampBuf b = x) (req : (s.hub.tile x.tile).taste = some q)
    (sent : (q.header ++ s.hub.samplePayload x.tile q.header q.desc ++ sampleTrailer (q.header ++ s.hub.samplePayload x.tile q.header q.desc) (s.hub.samplePayload x.tile q.header q.desc).length 0) = d)
    (ok : sampleOk d = true) (fits : sampleFits d = true)
    (legal : ((s.hub.profileOf (Sh.profile d)).filter (fun p => Sh.legal p d)).isSome = true) :
    Answers (.sampleRx b 0 none) s fun h =>
      (h.sampBuf b).ready = true ∧ (h.sampBuf b).data = d ∧ (h.sampBuf b).tile = x.tile ∧ (h.tile x.tile).taste = none ∧
      s.hub.rest h = { s.hub with taste := h.taste, tiles := h.tiles, canes := h.canes } ∧ s.hub.keeps h [] := by
  subst buf
  have e : s.hub.sampleIn b 0 none = (s.hub.sampleTaken b d).assignTasters := sampleIn_good due req sent ok fits legal
  have out := assignTasters_handsOut (s.hub.sampleTaken b d)
  refine answers_tasted (keys := []) (exec_sampleRx b 0 none s) e ((Tasted.sampleTaken _ _ _).trans (.handedOut out)) (by decide) c fun h _ y => ?_
  have same := out.same b
  have only := out.only
  rw [← y.sampBuf] at same
  generalize (s.hub.sampleTaken b d).assignTasters = g at *
  have kept : (s.hub.sampleTaken b d).sampBuf b = { s.hub.sampBuf b with data := d, ready := true } := sampBuf_setBuf_same _ _ _
  rw [kept] at same
  have tile := congrArg SampBuf.tile same
  refine ⟨congrArg SampBuf.ready same, congrArg SampBuf.data same, tile, ?_,
    y.rest_taste_tiles_canes (by rw [only]; rfl), y.keeps⟩
  have tiles : g.tile (s.hub.sampBuf b).tile = { s.hub.tile (s.hub.sampBuf b).tile with taste := none } := by
    rw [only]; exact tile_setTile_same _ _ _
  rw [y.tile, tiles]

/-- The hub when a sample for tile `t` arrives damaged, before its request ends. -/
def Hub.sampleDamaged (s : Hub) (t : Nat) : Hub := (s.sampleSlot t).err Er.TASTE_SAMPLE_CHECK

theorem Tasted.sampleDamaged (s : Hub) (t : Nat) :
    Tasted [R.PG_ERROR + Pg.TASTE * 0x1000, R.PG_ERROR_INFO + Pg.TASTE * 0x1000] s (s.sampleDamaged t) :=
  (Tasted.sampleSlot s t).trans (.err _ (by decide) (by decide))

theorem sampleIn_damaged {s : Hub} {b : Nat} {got : Option (List Byte)} {q : SpurTaste} (due : s.sampleDue b = true)
    (req : (s.tile (s.sampBuf b).tile).taste = some q) :
    s.sampleIn b 1 got = (s.sampleDamaged (s.sampBuf b).tile).endSample b Tc.CORRUPT := by
  simp only [Hub.sampleIn, Hub.sampleRx, due, req, Bool.not_true, Bool.false_eq_true, if_false]
  rfl

theorem sampleRx_endsDamaged (s : State) (b : Fin 8) (got : Option (List Byte)) (q : SpurTaste) (x : SampBuf) (c : s.hub.calm = true)
    (due : s.hub.sampleDue b = true) (buf : s.hub.sampBuf b = x) (req : (s.hub.tile x.tile).taste = some q) (same : x.req = q.req) :
    Answers (.sampleRx b 1 got) s fun h =>
      h.taste.bufs.keys.contains b = false ∧ (h.tile x.tile).taste = none ∧ h.hasErr Er.TASTE_SAMPLE_CHECK = true ∧
      h.taste.stats.get (x.slot * 8 + Tc.CORRUPT) 0 = sat 32 (s.hub.taste.stats.get (x.slot * 8 + Tc.CORRUPT) 0 + 1) ∧
      s.hub.rest h = { s.hub with taste := h.taste, tiles := h.tiles, canes := h.canes } ∧
      s.hub.keeps h [R.PG_ERROR + Pg.TASTE * 0x1000, R.PG_ERROR_INFO + Pg.TASTE * 0x1000] := by
  subst buf
  have e := sampleIn_damaged (got := got) due req
  have r := endSample_ends (s.hub.sampleDamaged (s.hub.sampBuf b).tile) b Tc.CORRUPT
  have ended : Tasted [] (s.hub.sampleDamaged (s.hub.sampBuf b).tile) _ := .endSample _ b Tc.CORRUPT
  have damaged := Tasted.sampleDamaged s.hub (s.hub.sampBuf b).tile
  refine answers_tasted (exec_sampleRx b 1 got s) e (damaged.trans (.endSample _ _ _)) (by decide) c fun h _ y => ?_
  have told : h.hasErr Er.TASTE_SAMPLE_CHECK = true := by
    rw [y.hasErr, Hub.hasErr, ended.rd _ List.not_mem_nil]
    exact Hub.hasErr_err _ _ (by decide)
  refine ⟨r.free y, r.spurless y rfl req same, told, r.counts y rfl, y.rest_taste_tiles_canes ?_, y.keeps⟩
  generalize (s.hub.sampleDamaged (s.hub.sampBuf b).tile).endSample b Tc.CORRUPT = g at r
  have canes : g.canes = (s.hub.sampleSlot (s.hub.sampBuf b).tile).canes := by
    have same := congrArg Hub.canes r.only
    exact same
  rw [canes]
  exact congrArg s.hub.restored r.only

/-! ### A taster finishes (R255) -/

theorem exec_tasterResult (n : Fin 4) (faulty : Option (List Nat)) (s : State) :
    exec (.tasterResult n faulty) s = run (fun h => h.tasterResult n faulty) s := rfl

/-- The one sample, recomputed by one taster that agrees with its tile, ends. -/
theorem tastersGo_agrees {s : Hub} {b n : Nat} {x : SampBuf} {r : List Nat} (bufs : s.taste.bufs.cells = [(b, x)])
    (waits : x.busyOn = none) (ready : x.ready = true) (one : x.tasters = [(n, r)]) (conf : x.conf = none)
    (agrees : (differing (s.rdB F.TASTE_SLOT_MODE x.slot) (s.rdB F.TASTE_SLOT_ULP_TOL x.slot) x.data (tileResult x.data) (resultOf x.data r)).isEmpty = true) :
    s.tastersGo = s.endSample b Tc.TASTED := by
  have buf : s.sampBuf b = x := by simp [Hub.sampBuf, Tab.get, bufs, findKey]
  have judged : s.tasteJudge b = s.endSample b Tc.TASTED := by
    simp only [Hub.tasteJudge, buf, one, tasteConf_none _ conf, agrees, if_true]
  have emptied : (s.endSample b Tc.TASTED).taste.bufs.cells = [] := by
    rw [(endSample_ends s b Tc.TASTED).freed, Tab.del, bufs]
    simp [dropKey]
  simp only [Hub.tastersGo, bufs, ready, waits, one, Option.isNone_none, List.isEmpty_cons, Bool.not_false, Bool.and_self, List.filter_cons,
    List.filter_nil, if_true, List.map_cons, List.map_nil, doEach_cons, doEach_nil, judged]
  exact assignTasters_none emptied

/-- The taster's result stands with the sample in buffer `b`. -/
def Hub.recomputed (s : Hub) (n b : Nat) (x : SampBuf) (p : Prof) : Hub :=
  s.setBuf b { x with busyOn := none, tasters := [(n, (contractResult p x.data).toList)] }

theorem tasterResult_recomputed {s : Hub} {n b : Nat} {x : SampBuf} {p : Prof} (bufs : s.taste.bufs.cells = [(b, x)])
    (busy : x.busyOn = some n) (first : x.tasters = []) (prof : s.profileOf (Sh.profile x.data) = some p) :
    s.tasterResult n none = (s.recomputed n b x p).tastersGo := by
  have its : s.taste.bufs.cells.find? (fun p => p.2.busyOn == some n) = some (b, x) := by simp [bufs, busy]
  simp only [Hub.tasterResult, its, prof, first, Option.getD_none, List.nil_append, Hub.recomputed]

theorem tasterResult_agrees (s : State) (n : Fin 4) (b : Nat) (x : SampBuf) (p : Prof) (c : s.hub.calm = true)
    (bufs : s.hub.taste.bufs.cells = [(b, x)]) (busy : x.busyOn = some (n : Nat)) (ready : x.ready = true) (conf : x.conf = none)
    (first : x.tasters = []) (prof : s.hub.profileOf (Sh.profile x.data) = some p)
    (agrees : (differing (s.hub.rdB F.TASTE_SLOT_MODE x.slot) (s.hub.rdB F.TASTE_SLOT_ULP_TOL x.slot) x.data (tileResult x.data) (resultOf x.data (contractResult p x.data).toList)).isEmpty = true) :
    Answers (.tasterResult n none) s fun h =>
      h.taste.bufs.keys.contains b = false ∧
      h.taste.stats.get (x.slot * 8 + Tc.TASTED) 0 = sat 32 (s.hub.taste.stats.get (x.slot * 8 + Tc.TASTED) 0 + 1) ∧
      s.hub.rest h = { s.hub with taste := h.taste, tiles := h.tiles } ∧ s.hub.keeps h [] := by
  have one : (s.hub.recomputed n b x p).taste.bufs.cells =
      [(b, { x with busyOn := none, tasters := [((n : Nat), (contractResult p x.data).toList)] })] := by
    simp [Hub.recomputed, Hub.setBuf, Tab.set, bufs, putKey]
  have e : s.hub.tasterResult n none = (s.hub.recomputed n b x p).endSample b Tc.TASTED :=
    (tasterResult_recomputed bufs busy first prof).trans (tastersGo_agrees one rfl ready rfl conf agrees)
  have r := endSample_ends (s.hub.recomputed n b x p) b Tc.TASTED
  refine answers_tasted (exec_tasterResult n none s) e ((Tasted.setBuf _ _ _).trans (.endSample _ _ _)) (by decide) c fun h _ y =>
    ⟨r.free y, ?_, y.rest_taste_tiles (congrArg s.hub.restored r.only), y.keeps⟩
  have counts := r.counts y (sampBuf_setBuf_same _ _ _)
  exact counts

/-- Settles O43: each of tasting's steps is a command whose unit changes the sample buffers, the counts and one spur. -/
theorem tasting_requests_samples_and_judges : Obligations.tasting_requests_samples_and_judges :=
  ⟨tasteTick_requests, tasteTick_throttled, tasteRequestRx_arms, tasteOpIssue_samples, tasteOpIssue_abandons, tasteMissed_ends,
    tasteLate_ends, sampleRx_keepsGood, sampleRx_endsDamaged, tasterResult_agrees⟩

end Sys2Proof.Machine
end

section
/-! SUPPORT. TASTE_CMD and the read of TASTE_EVID_DATA (R257, R273, R276). -/

namespace Sys2Proof.Machine

variable {keys : List Nat}

/-! ### TASTE_CMD -/

theorem Tasted.tasteStatus (s : Hub) (op status : Nat) (k : R.TASTE_CMD_STATUS ∈ keys) : Tasted keys s (s.tasteStatus op status) :=
  (Tasted.wr s (f := F.TASTE_CMD_STATUS_STATUS) _ k).trans (.wr _ (f := F.TASTE_CMD_STATUS_OP) _ k)

theorem tasteStatus_status (s : Hub) (op : Nat) : (s.tasteStatus op St.OK).rd F.TASTE_CMD_STATUS_STATUS = St.OK := by
  rw [Hub.tasteStatus, Hub.rd_wr_apart _ _ _ _ (by decide) (by decide), Hub.rd_wr _ _ _ (by decide)]
  rfl

theorem exec_sampleNow (r : Req) (s : State) : exec (.sampleNow r) s = run (fun h => h.cmd r R.TASTE_CMD 1 fun h => h.tasteCmd 1) s := rfl

theorem sampleNow_requests (s : State) (r : Req) (b t : Nat) (c : s.hub.calm = true) (w : s.hub.takesWrite r R.TASTE_CMD 1 = true)
    (ok : s.hub.tasteCheck 1 = St.OK) (free : s.hub.freeBuf = some b) (arg : s.hub.rd F.TASTE_ARG_TILE = t) :
    Answers (.sampleNow r) s fun h =>
      h.tookWrite r ∧ h.sampBuf b = { tile := t, slot := (s.hub.tile t).slot, req := s.hub.taste.nextReq } ∧
      h.tile t = { s.hub.tile t with taste := some { req := s.hub.taste.nextReq } } ∧ (∀ u, u ≠ t → h.tile u = s.hub.tile u) ∧
      h.rd F.TASTE_CMD_STATUS_STATUS = St.OK ∧ h.rd F.TASTE_CMD_STATUS_OP = 1 ∧
      s.hub.rest h = { s.hub with taste := h.taste, tiles := h.tiles } ∧ s.hub.keeps h [R.TASTE_CMD_STATUS] := by
  have e : s.hub.tasteCmd 1 = (s.hub.tasteStatus 1 St.OK).requestSample b (s.hub.tile t).slot t := by
    have free : (s.hub.tasteStatus 1 St.OK).freeBuf = some b := free
    simp only [Hub.tasteCmd, ok, free, arg, bne_self_eq_false, Bool.false_eq_true, if_false]
    rfl
  obtain ⟨own, others⟩ := requestSample_tile (s.hub.tasteStatus 1 St.OK) b (s.hub.tile t).slot t
  refine answers_tasteCmd (exec_sampleNow r s) w e ((Tasted.tasteStatus _ _ _ (by decide)).trans (.requestSample _ _ _ _)) (by decide) c
    fun h took x => ⟨took, (x.sampBuf b).trans (requestSample_buf _ _ _ _), (x.tile t).trans own, fun u n => (x.tile u).trans (others u n), ?_, ?_,
      x.rest_taste_tiles (congrArg s.hub.restored (requestSample_only (s.hub.tasteStatus 1 St.OK) b (s.hub.tile t).slot t)), x.keeps⟩
  · rw [x.rd _ (by decide), Hub.rd_congr (requestSample_regs _ _ _ _), tasteStatus_status]
  · rw [x.rd _ (by decide), Hub.rd_congr (requestSample_regs _ _ _ _), Hub.tasteStatus, Hub.rd_wr _ _ _ (by decide)]
    rfl

theorem exec_unlockEvid (r : Req) (s : State) : exec (.unlockEvid r) s = run (fun h => h.cmd r R.TASTE_CMD 2 fun h => h.tasteCmd 2) s := rfl

theorem unlockEvid_unlocks (s : State) (r : Req) (c : s.hub.calm = true) (w : s.hub.takesWrite r R.TASTE_CMD 2 = true)
    (ok : s.hub.tasteCheck 2 = St.OK) :
    Answers (.unlockEvid r) s fun h =>
      h.tookWrite r ∧ h.rd F.TASTE_STATE_EVID_LOCKED = 0 ∧ h.rd F.TASTE_CMD_STATUS_STATUS = St.OK ∧ s.hub.rest h = s.hub ∧
      s.hub.keeps h [R.TASTE_CMD_STATUS, R.TASTE_STATE] := by
  have e : s.hub.tasteCmd 2 = (s.hub.tasteStatus 2 St.OK).wr F.TASTE_STATE_EVID_LOCKED 0 := by
    simp only [Hub.tasteCmd, ok, bne_self_eq_false, Bool.false_eq_true, if_false]
  refine answers_tasteCmd (exec_unlockEvid r s) w e ((Tasted.tasteStatus _ _ _ (by decide)).trans (.wr _ _ (by decide))) (by decide) c
    fun h took x => ⟨took, ?_, ?_, x.rest, x.keeps⟩
  · rw [x.rd _ (by decide), Hub.rd_wr _ _ _ (by decide)]
    rfl
  · rw [x.rd _ (by decide), Hub.rd_wr_apart _ _ _ _ (by decide) (by decide), tasteStatus_status]

/-! ### The tasters in service -/

/-- With no sample the tasters have nothing to do. -/
theorem tastersGo_none {s : Hub} (none : s.taste.bufs.cells = []) : s.tastersGo = s := by
  simp only [Hub.tastersGo, none, List.filter_nil, List.map_nil, doEach_nil]
  exact assignTasters_none none

theorem Tasted.retireTaster (s : Hub) (n : Nat) : Tasted keys s (s.retireTaster n) := (Tasted.withTaste s _).trans (.raiseOf _ n (by decide))

/-- Taster `n` in service again. -/
def Hub.restoreTaster (s : Hub) (n : Nat) : Hub :=
  ({ s with taste := { s.taste with retired := removeNat n s.taste.retired } } : Hub).raiseOf Ev.TASTER_RESTORED n

theorem Tasted.restoreTaster (s : Hub) (n : Nat) : Tasted keys s (s.restoreTaster n) := (Tasted.withTaste s _).trans (.raiseOf _ n (by decide))

theorem raiseOf_raised (s : Hub) (code unit : Nat) : ∃ o ∈ (s.raiseOf code unit).occs, o.code = code ∧ o.unit.getD 0 = unit :=
  ⟨_, List.mem_append_right _ (List.mem_singleton_self _), rfl, rfl⟩

theorem exec_retireTaster (r : Req) (s : State) : exec (.retireTaster r) s = run (fun h => h.cmd r R.TASTE_CMD 3 fun h => h.tasteCmd 3) s := rfl

theorem retireTaster_retires (s : State) (r : Req) (n : Nat) (c : s.hub.calm = true) (w : s.hub.takesWrite r R.TASTE_CMD 3 = true)
    (ok : s.hub.tasteCheck 3 = St.OK) (arg : s.hub.rd F.TASTE_ARG_TASTER = n) (up : s.hub.tasterUp n = true)
    (none : s.hub.taste.bufs.cells = []) :
    Answers (.retireTaster r) s fun h =>
      h.tookWrite r ∧ h.taste.retired = insertNat n s.hub.taste.retired ∧ h.taste.bistOk = removeNat n s.hub.taste.bistOk ∧
      h.shows Ev.TASTER_LOST n = true ∧ h.rd F.TASTE_CMD_STATUS_STATUS = St.OK ∧ s.hub.rest h = { s.hub with taste := h.taste } ∧
      s.hub.keeps h [R.TASTE_CMD_STATUS] := by
  have e : s.hub.tasteCmd 3 = (s.hub.tasteStatus 3 St.OK).retireTaster n := by
    have up : (s.hub.tasteStatus 3 St.OK).tasterUp n = true := up
    have empty : ((s.hub.tasteStatus 3 St.OK).retireTaster n).taste.bufs.cells = [] := List.map_eq_nil_iff.mpr none
    simp only [Hub.tasteCmd, ok, arg, up, bne_self_eq_false, Bool.false_eq_true, if_false, if_true]
    exact tastersGo_none empty
  refine answers_tasteCmd (exec_retireTaster r s) w e ((Tasted.tasteStatus _ _ _ (by decide)).trans (.retireTaster _ _)) (by decide) c
    fun h took x => ⟨took, congrArg Taste.retired x.taste, congrArg Taste.bistOk x.taste,
      x.shows_raised (raiseOf_raised _ _ _) (fun _ _ e => by cases e; decide), ?_, x.rest_taste rfl, x.keeps⟩
  rw [x.rd _ (by decide), Hub.retireTaster, Hub.rd_raiseOf]
  exact tasteStatus_status _ _

theorem exec_restoreTaster (r : Req) (s : State) : exec (.restoreTaster r) s = run (fun h => h.cmd r R.TASTE_CMD 4 fun h => h.tasteCmd 4) s := rfl

theorem restoreTaster_restores (s : State) (r : Req) (n : Nat) (c : s.hub.calm = true) (w : s.hub.takesWrite r R.TASTE_CMD 4 = true)
    (ok : s.hub.tasteCheck 4 = St.OK) (arg : s.hub.rd F.TASTE_ARG_TASTER = n) (none : s.hub.taste.bufs.cells = []) :
    Answers (.restoreTaster r) s fun h =>
      h.tookWrite r ∧ h.taste.retired = removeNat n s.hub.taste.retired ∧ h.shows Ev.TASTER_RESTORED n = true ∧
      h.rd F.TASTE_CMD_STATUS_STATUS = St.OK ∧ s.hub.rest h = { s.hub with taste := h.taste } ∧ s.hub.keeps h [R.TASTE_CMD_STATUS] := by
  have e : s.hub.tasteCmd 4 = (s.hub.tasteStatus 4 St.OK).restoreTaster n := by
    have empty : ((s.hub.tasteStatus 4 St.OK).restoreTaster n).taste.bufs.cells = [] := none
    simp only [Hub.tasteCmd, ok, arg, bne_self_eq_false, Bool.false_eq_true, if_false]
    exact tastersGo_none empty
  refine answers_tasteCmd (exec_restoreTaster r s) w e ((Tasted.tasteStatus _ _ _ (by decide)).trans (.restoreTaster _ _)) (by decide) c
    fun h took x => ⟨took, congrArg Taste.retired x.taste, x.shows_raised (raiseOf_raised _ _ _) (fun _ _ e => by cases e; decide), ?_,
      x.rest_taste rfl, x.keeps⟩
  rw [x.rd _ (by decide), Hub.restoreTaster, Hub.rd_raiseOf]
  exact tasteStatus_status _ _

theorem exec_tasteClearStats (r : Req) (s : State) :
    exec (.tasteClearStats r) s = run (fun h => h.cmd r R.TASTE_CMD 5 fun h => h.tasteCmd 5) s := rfl

theorem tasteClearStats_clears (s : State) (r : Req) (c : s.hub.calm = true) (w : s.hub.takesWrite r R.TASTE_CMD 5 = true)
    (ok : s.hub.tasteCheck 5 = St.OK) :
    Answers (.tasteClearStats r) s fun h =>
      h.tookWrite r ∧ h.taste = { s.hub.taste with stats := {}, lossAt := none } ∧ h.rd F.TASTE_THROTTLED_COUNT = 0 ∧
      h.rd F.TASTE_CMD_STATUS_STATUS = St.OK ∧ s.hub.rest h = { s.hub with taste := h.taste } ∧
      s.hub.keeps h [R.TASTE_CMD_STATUS, F.TASTE_THROTTLED_COUNT.addr] := by
  have e : s.hub.tasteCmd 5 = (s.hub.tasteStatus 5 St.OK).clearTaste := by
    simp only [Hub.tasteCmd, ok, bne_self_eq_false, Bool.false_eq_true, if_false]
  refine answers_tasteCmd (exec_tasteClearStats r s) w e
    (((Tasted.tasteStatus _ _ _ (by decide)).trans (.withTaste _ _)).trans (.wr _ _ (by decide))) (by decide) c
    fun h took x => ⟨took, x.taste, ?_, ?_, x.rest_taste rfl, x.keeps⟩
  · rw [x.rd _ (by decide), Hub.clearTaste, Hub.rd_wr _ _ _ (by decide)]
    rfl
  · rw [x.rd _ (by decide), Hub.clearTaste, Hub.rd_wr_apart _ _ _ _ (by decide) (by decide)]
    exact tasteStatus_status _ _

/-! ### TASTE_EVID_DATA -/

theorem exec_evidDataRead (r : Req) (s : State) : exec (.evidDataRead r) s = run (fun h => h.regRead r R.TASTE_EVID_DATA) s := rfl

/-- The evidence's OFFSET after a read. -/
def Hub.evidMoved (s : Hub) : Hub :=
  s.wr F.TASTE_EVID_ADDR_OFFSET ((s.rd F.TASTE_EVID_ADDR_OFFSET / 4 * 4 + 4) % 2 ^ 15)

/-- A read of the evidence that the bus takes: what it does, and its answer. -/
theorem answers_evidData {s : State} {r : Req} {p : Hub → Prop} (c : s.hub.calm = true)
    (t : s.hub.accessStatus r R.TASTE_EVID_DATA false 0 = St.OK)
    (q : ∀ h, h.bus.get (reqCode r) {} = { value := (s.hub.evidRead r).1, status := St.OK } →
      h.rd F.TASTE_EVID_ADDR_OFFSET = (s.hub.rd F.TASTE_EVID_ADDR_OFFSET / 4 * 4 + 4) % 2 ^ 15 → s.hub.rest h = s.hub →
      s.hub.keeps h [F.TASTE_EVID_ADDR_OFFSET.addr] → p h) : Answers (.evidDataRead r) s p := by
  have own : normAddr R.TASTE_EVID_DATA = R.TASTE_EVID_DATA ∧ inWindow R.TASTE_EVID_DATA = false ∧ isHi R.TASTE_EVID_DATA = false ∧
      baseAddr R.TASTE_EVID_DATA = R.TASTE_EVID_DATA ∧ (regDef R.TASTE_EVID_DATA).isNone = false := by decide
  obtain ⟨norm, window, hi, base, there⟩ := own
  have k : Tasted [F.TASTE_EVID_ADDR_OFFSET.addr] s.hub (s.hub.evidMoved.respond r (s.hub.evidRead r).1 St.OK) :=
    (Tasted.wr s.hub _ (by decide)).trans (.respond _ _ _ _)
  have e : s.hub.regRead r R.TASTE_EVID_DATA = s.hub.evidMoved.respond r (s.hub.evidRead r).1 St.OK := by
    have read : s.hub.readReg r R.TASTE_EVID_DATA = ((s.hub.evidRead r).1, s.hub.evidMoved) := by
      rw [Hub.readReg]
      simp only [norm, window, hi, base, beq_self_eq_true, Bool.false_eq_true, if_false, if_true]
      exact Prod.ext rfl rfl
    simp only [Hub.regRead, t, norm, there, read, bne_self_eq_false, Bool.false_eq_true, if_false, usePage_unplanted (k.unplanted c)]
  refine answers_tasted (exec_evidDataRead r s) e k (by decide) c fun h bus x =>
    q h ?_ ?_ x.rest x.keeps
  · rw [bus, Hub.bus_respond]
  · rw [x.rd _ (by decide), Hub.rd_respond, Hub.evidMoved, Hub.rd_wr _ _ _ (by decide)]
    exact Nat.mod_mod _ _

theorem evidDataRead_readable (s : State) (r : Req) (a : Nat) (c : s.hub.calm = true)
    (t : s.hub.accessStatus r R.TASTE_EVID_DATA false 0 = St.OK) (offset : s.hub.rd F.TASTE_EVID_ADDR_OFFSET / 4 * 4 = a)
    (readable : Sh.priv s.hub.taste.evidSample ≠ 2 ∨ isExternal r = false ∨ s.hub.covers Right.SECURE s.hub.taste.evidSlot = true) :
    Answers (.evidDataRead r) s fun h =>
      h.bus.get (reqCode r) {} = { value := (if a < 0x6000 then leAt s.hub.taste.evidSample a 4 else leAt s.hub.taste.evidWant (a - 0x6000) 4), status := St.OK } ∧
      h.rd F.TASTE_EVID_ADDR_OFFSET = (a + 4) % 2 ^ 15 ∧ s.hub.rest h = s.hub ∧ s.hub.keeps h [F.TASTE_EVID_ADDR_OFFSET.addr] := by
  subst offset
  have plain : (Sh.priv s.hub.taste.evidSample == 2 && !s.hub.covers Right.SECURE s.hub.taste.evidSlot && isExternal r) = false := by
    rcases readable with other | inside | granted
    · simp [other]
    · simp [inside]
    · simp [granted]
  refine answers_evidData c t fun h bus moved rest keeps => ⟨bus.trans ?_, moved, rest, keeps⟩
  simp only [Hub.evidRead, plain, Bool.false_eq_true, if_false]

theorem evidDataRead_secret (s : State) (r : Req) (c : s.hub.calm = true) (t : s.hub.accessStatus r R.TASTE_EVID_DATA false 0 = St.OK)
    (secure : Sh.priv s.hub.taste.evidSample = 2) (outside : isExternal r = true)
    (ungranted : s.hub.covers Right.SECURE s.hub.taste.evidSlot = false) :
    Answers (.evidDataRead r) s fun h =>
      h.bus.get (reqCode r) {} = { value := 0, status := St.OK } ∧ s.hub.rest h = s.hub ∧ s.hub.keeps h [F.TASTE_EVID_ADDR_OFFSET.addr] := by
  refine answers_evidData c t fun h bus _ rest keeps => ⟨bus.trans ?_, rest, keeps⟩
  simp only [Hub.evidRead, secure, outside, ungranted, BEq.rfl, Bool.not_false, Bool.and_self, if_true]

/-- Settles O44: each TASTE_CMD that is accepted writes its status and changes what its operation names; a read of TASTE_EVID_DATA answers and
moves the offset. -/
theorem taste_commands_act_on_buffers_evidence_and_tasters : Obligations.taste_commands_act_on_buffers_evidence_and_tasters :=
  ⟨sampleNow_requests, unlockEvid_unlocks, retireTaster_retires, restoreTaster_restores, tasteClearStats_clears, evidDataRead_readable,
    evidDataRead_secret⟩

end Sys2Proof.Machine
end

section
/-! SUPPORT. Digest passes (R262, R264, R266, R267, R273, R278): how a pass of each kind starts, ends and repeats. -/

namespace Sys2Proof.Machine

variable {keys : List Nat}

/-! ### A pass starts -/

/-- A tile pass without FED is alone in its hub: DONE reads 0 while it runs (R262). -/
theorem startTiles_alone {s : Hub} {arg : Nat} (alone : Da.fed arg = false) (hasBase : Bool) (fedReq : Option (Nat × Nat)) :
    s.startTiles arg hasBase fedReq =
      ({ s with digTiles := { active := true, slot := Da.slot arg, set := Da.set arg, arg := arg, startedAt := s.time.hclk, hasBase := hasBase, fedReq := fedReq } } : Hub).wr
        F.DIGEST_CMD_STATUS_DONE 0 := by
  simp only [Hub.startTiles, alone, Bool.false_eq_true, if_false, doEach_nil]
  rfl

theorem startExt_runs (s : Hub) (arg : Nat) (hasBase : Bool) :
    s.startExt arg hasBase =
      (Hub.issued { s with digExt := { active := true, arg := arg, startedAt := s.time.hclk, hasBase := hasBase } } Cu.DIGEST).wr
        F.DIGEST_CMD_STATUS_DONE 0 := by
  rw [Hub.startExt, Hub.digestBusy]
  have ext : (Hub.issued { s with digExt := { active := true, arg := arg, startedAt := s.time.hclk, hasBase := hasBase } } Cu.DIGEST).digExt.active = true := rfl
  rw [ext, Bool.not_true, Bool.and_false]
  rfl

/-- A tile pass that starts changes its own record and DONE. -/
theorem startTiles_starts (s : Hub) {arg : Nat} (alone : Da.fed arg = false) (hasBase : Bool) (fedReq : Option (Nat × Nat)) :
    (s.startTiles arg hasBase fedReq).digTiles =
      { active := true, slot := Da.slot arg, set := Da.set arg, arg := arg, startedAt := s.time.hclk, hasBase := hasBase, fedReq := fedReq } ∧
    (s.startTiles arg hasBase fedReq).rd F.DIGEST_CMD_STATUS_DONE = 0 ∧
    s.restored (s.startTiles arg hasBase fedReq) = { s with digTiles := (s.startTiles arg hasBase fedReq).digTiles } := by
  rw [startTiles_alone alone]
  exact ⟨rfl, Hub.rd_wr _ _ _ (by decide), rfl⟩

/-- An external pass that starts changes its own record, the accesses issued and DONE. -/
theorem startExt_starts (s : Hub) (arg : Nat) (hasBase : Bool) :
    (s.startExt arg hasBase).digExt = { active := true, arg := arg, startedAt := s.time.hclk, hasBase := hasBase } ∧
    (s.startExt arg hasBase).outstanding Cu.DIGEST = s.outstanding Cu.DIGEST + 1 ∧
    (s.startExt arg hasBase).rd F.DIGEST_CMD_STATUS_DONE = 0 ∧
    s.restored (s.startExt arg hasBase) = { s with digExt := (s.startExt arg hasBase).digExt, cell := (s.startExt arg hasBase).cell } := by
  rw [startExt_runs]
  exact ⟨rfl, findKey_putKey_same .., Hub.rd_wr _ _ _ (by decide), rfl⟩

/-- DONE shares no bit with STATUS and OP. -/
theorem startTiles_rd (s : Hub) {arg : Nat} (alone : Da.fed arg = false) (hasBase : Bool) (fedReq : Option (Nat × Nat)) {f : Fld}
    (word : f.lo + f.width ≤ 32) (apart : F.DIGEST_CMD_STATUS_DONE.apart f = true) : (s.startTiles arg hasBase fedReq).rd f = s.rd f := by
  rw [startTiles_alone alone, Hub.rd_wr_apart _ _ _ _ word apart]
  rfl

theorem startExt_rd (s : Hub) (arg : Nat) (hasBase : Bool) {f : Fld} (word : f.lo + f.width ≤ 32)
    (apart : F.DIGEST_CMD_STATUS_DONE.apart f = true) : (s.startExt arg hasBase).rd f = s.rd f := by
  rw [startExt_runs, Hub.rd_wr_apart _ _ _ _ word apart]
  rfl

theorem Tasted.startTiles (s : Hub) {arg : Nat} (alone : Da.fed arg = false) (hasBase : Bool) (fedReq : Option (Nat × Nat))
    (k : R.DIGEST_CMD_STATUS ∈ keys) : Tasted keys s (s.startTiles arg hasBase fedReq) := by
  rw [startTiles_alone alone]
  exact (Tasted.withDigTiles s _).trans (.wr _ _ k)

theorem Tasted.startExt (s : Hub) (arg : Nat) (hasBase : Bool) (k : R.DIGEST_CMD_STATUS ∈ keys) : Tasted keys s (s.startExt arg hasBase) := by
  rw [startExt_runs]
  exact ((Tasted.withDigExt s _).trans (.issued _ _)).trans (.wr _ _ k)

/-! ### What a pass changes -/

section
variable {s h t : Hub} (x : TasteEffect keys s h t)
include x

theorem TasteEffect.rest_digTiles (only : s.restored h = { s with digTiles := h.digTiles }) : s.rest t = { s with digTiles := t.digTiles } := by
  rw [x.rest, x.digTiles, only]

theorem TasteEffect.rest_digExt_cell (only : s.restored h = { s with digExt := h.digExt, cell := h.cell }) :
    s.rest t = { s with digExt := t.digExt, cell := t.cell } := by rw [x.rest, x.digExt, x.cell, only]

theorem TasteEffect.outstanding (unit : Nat) : t.outstanding unit = h.outstanding unit := by rw [Hub.outstanding, x.cell, Hub.outstanding]

end

/-! ### DIGEST_CMD -/

/-- DIGEST_CMD_STATUS after an accepted command `op`. -/
def Hub.digestAccept (s : Hub) (op : Nat) : Hub := (s.wr F.DIGEST_CMD_STATUS_STATUS St.OK).wr F.DIGEST_CMD_STATUS_OP op

theorem Tasted.digestAccept (s : Hub) (op : Nat) (k : R.DIGEST_CMD_STATUS ∈ keys) : Tasted keys s (s.digestAccept op) :=
  (Tasted.wr s (f := F.DIGEST_CMD_STATUS_STATUS) _ k).trans (.wr _ (f := F.DIGEST_CMD_STATUS_OP) _ k)

theorem digestAccept_status (s : Hub) (op : Nat) : (s.digestAccept op).rd F.DIGEST_CMD_STATUS_STATUS = St.OK := by
  rw [Hub.digestAccept, Hub.rd_wr_apart _ _ _ _ (by decide) (by decide), Hub.rd_wr _ _ _ (by decide)]
  rfl

theorem digestAccept_op (s : Hub) (op : Nat) : (s.digestAccept op).rd F.DIGEST_CMD_STATUS_OP = op % 2 ^ F.DIGEST_CMD_STATUS_OP.width :=
  Hub.rd_wr _ _ _ (by decide)

/-- A command's acceptance changes registers alone: a start is seen from the hub before it. -/
theorem digestAccept_thenTiles {s h : Hub} {op : Nat}
    (only : (s.digestAccept op).restored h = { s.digestAccept op with digTiles := h.digTiles }) : s.restored h = { s with digTiles := h.digTiles } :=
  congrArg s.restored only

theorem digestAccept_thenExt {s h : Hub} {op : Nat}
    (only : (s.digestAccept op).restored h = { s.digestAccept op with digExt := h.digExt, cell := h.cell }) :
    s.restored h = { s with digExt := h.digExt, cell := h.cell } :=
  congrArg s.restored only

theorem exec_runTiles (r : Req) (s : State) : exec (.runTiles r) s = run (fun h => h.cmd r R.DIGEST_CMD 1 fun h => h.digestCmd 1) s := rfl

theorem runTiles_starts (s : State) (r : Req) (a : Nat) (c : s.hub.calm = true) (w : s.hub.takesWrite r R.DIGEST_CMD 1 = true)
    (ok : s.hub.digestCheck 1 = St.OK) (arg : s.hub.reg R.DIGEST_ARG = a) (alone : Da.fed a = false) :
    Answers (.runTiles r) s fun h =>
      h.tookWrite r ∧ h.digTiles = { active := true, slot := Da.slot a, set := Da.set a, arg := a, startedAt := s.hub.time.hclk } ∧
      h.rd F.DIGEST_CMD_STATUS_STATUS = St.OK ∧ h.rd F.DIGEST_CMD_STATUS_OP = 1 ∧ h.rd F.DIGEST_CMD_STATUS_DONE = 0 ∧
      s.hub.rest h = { s.hub with digTiles := h.digTiles } ∧ s.hub.keeps h [R.DIGEST_CMD_STATUS] := by
  have e : s.hub.digestCmd 1 = (s.hub.digestAccept 1).startTiles a false none := by
    simp only [Hub.digestCmd, ok, arg, bne_self_eq_false, Bool.false_eq_true, if_false]
    rfl
  have k : Tasted [R.DIGEST_CMD_STATUS] s.hub ((s.hub.digestAccept 1).startTiles a false none) :=
    (Tasted.digestAccept _ _ (by decide)).trans (.startTiles _ alone _ _ (by decide))
  obtain ⟨pass, done, only⟩ := startTiles_starts (s.hub.digestAccept 1) alone false none
  refine answers_tasteCmd (exec_runTiles r s) w e k (by decide) c fun h took x =>
    ⟨took, x.digTiles.trans pass, ?_, ?_, (x.rd _ (by decide)).trans done, x.rest_digTiles (digestAccept_thenTiles only), x.keeps⟩
  · rw [x.rd _ (by decide), startTiles_rd _ alone _ _ (by decide) (by decide), digestAccept_status]
  · rw [x.rd _ (by decide), startTiles_rd _ alone _ _ (by decide) (by decide), digestAccept_op]
    rfl

theorem exec_runExt (r : Req) (s : State) : exec (.runExt r) s = run (fun h => h.cmd r R.DIGEST_CMD 2 fun h => h.digestCmd 2) s := rfl

theorem runExt_starts (s : State) (r : Req) (a : Nat) (c : s.hub.calm = true) (w : s.hub.takesWrite r R.DIGEST_CMD 2 = true)
    (ok : s.hub.digestCheck 2 = St.OK) (arg : s.hub.reg R.DIGEST_ARG = a) :
    Answers (.runExt r) s fun h =>
      h.tookWrite r ∧ h.digExt = { active := true, arg := a, startedAt := s.hub.time.hclk } ∧
      h.outstanding Cu.DIGEST = s.hub.outstanding Cu.DIGEST + 1 ∧ h.rd F.DIGEST_CMD_STATUS_STATUS = St.OK ∧
      h.rd F.DIGEST_CMD_STATUS_DONE = 0 ∧ s.hub.rest h = { s.hub with digExt := h.digExt, cell := h.cell } ∧
      s.hub.keeps h [R.DIGEST_CMD_STATUS] := by
  have e : s.hub.digestCmd 2 = (s.hub.digestAccept 2).startExt a false := by
    simp only [Hub.digestCmd, ok, arg, bne_self_eq_false, Bool.false_eq_true, if_false]
    rfl
  have k : Tasted [R.DIGEST_CMD_STATUS] s.hub ((s.hub.digestAccept 2).startExt a false) :=
    (Tasted.digestAccept _ _ (by decide)).trans (.startExt _ _ _ (by decide))
  obtain ⟨pass, issued, done, only⟩ := startExt_starts (s.hub.digestAccept 2) a false
  refine answers_tasteCmd (exec_runExt r s) w e k (by decide) c fun h took x =>
    ⟨took, x.digExt.trans pass, (x.outstanding _).trans issued, ?_, (x.rd _ (by decide)).trans done,
      x.rest_digExt_cell (digestAccept_thenExt only), x.keeps⟩
  rw [x.rd _ (by decide), startExt_rd _ _ _ (by decide) (by decide), digestAccept_status]

theorem exec_digestAbort (r : Req) (s : State) : exec (.digestAbort r) s = run (fun h => h.cmd r R.DIGEST_CMD 3 fun h => h.digestCmd 3) s := rfl

/-- No pass runs or waits for its period. -/
def Hub.passless (s : Hub) : Hub := { s with digTiles := {}, digExt := {}, digAgain := [] }

theorem Tasted.passless (s : Hub) : Tasted keys s s.passless :=
  ((Tasted.withDigTiles s {}).trans (.withDigExt { s with digTiles := {} } {})).trans (.withDigAgain { s with digTiles := {}, digExt := {} } [])

theorem rd_passless (s : Hub) (f : Fld) : s.passless.rd f = s.rd f := Hub.rd_congr rfl f

theorem digestAbort_ends (s : State) (r : Req) (a : Nat) (c : s.hub.calm = true) (w : s.hub.takesWrite r R.DIGEST_CMD 3 = true)
    (ok : s.hub.digestCheck 3 = St.OK) (_ : s.hub.reg R.DIGEST_ARG = a) (own : s.hub.digTiles.fedReq = none) :
    Answers (.digestAbort r) s fun h =>
      h.tookWrite r ∧ h.digTiles = {} ∧ h.digExt = {} ∧ h.digAgain = [] ∧ h.rd F.DIGEST_CMD_STATUS_STATUS = St.OK ∧
      h.rd F.DIGEST_CMD_STATUS_DONE = 1 ∧ s.hub.rest h = { s.hub with digTiles := h.digTiles, digExt := h.digExt, digAgain := h.digAgain } ∧
      s.hub.keeps h [R.DIGEST_CMD_STATUS] := by
  have e : s.hub.digestCmd 3 = (s.hub.digestAccept 3).passless.wr F.DIGEST_CMD_STATUS_DONE 1 := by
    have own : (s.hub.digestAccept 3).digTiles.fedReq = none := own
    have cmd : s.hub.digestCmd 3 = (s.hub.digestAccept 3).digestAbort := by
      simp only [Hub.digestCmd, ok, bne_self_eq_false, Bool.false_eq_true, if_false]
      rfl
    rw [cmd]
    simp only [Hub.digestAbort, own]
    rfl
  have k : Tasted [R.DIGEST_CMD_STATUS] s.hub ((s.hub.digestAccept 3).passless.wr F.DIGEST_CMD_STATUS_DONE 1) :=
    ((Tasted.digestAccept _ _ (by decide)).trans (.passless _)).trans (.wr _ _ (by decide))
  refine answers_tasteCmd (exec_digestAbort r s) w e k (by decide) c fun h took x =>
    ⟨took, x.digTiles, x.digExt, x.digAgain, ?_, ?_, ?_, x.keeps⟩
  · rw [x.rd _ (by decide), Hub.rd_wr_apart _ _ _ _ (by decide) (by decide), rd_passless, digestAccept_status]
  · rw [x.rd _ (by decide), Hub.rd_wr _ _ _ (by decide)]
    rfl
  · rw [x.rest, x.digTiles, x.digExt, x.digAgain]
    rfl

theorem exec_digestClearStats (r : Req) (s : State) :
    exec (.digestClearStats r) s = run (fun h => h.cmd r R.DIGEST_CMD 4 fun h => h.digestCmd 4) s := rfl

theorem digestClearStats_clears (s : State) (r : Req) (a : Nat) (c : s.hub.calm = true) (w : s.hub.takesWrite r R.DIGEST_CMD 4 = true)
    (ok : s.hub.digestCheck 4 = St.OK) (_ : s.hub.reg R.DIGEST_ARG = a) :
    Answers (.digestClearStats r) s fun h =>
      h.tookWrite r ∧ h.rd F.DIGEST_PASSES_COUNT = 0 ∧ h.rd F.DIGEST_CMD_STATUS_STATUS = St.OK ∧ s.hub.rest h = s.hub ∧
      s.hub.keeps h [R.DIGEST_CMD_STATUS, R.DIGEST_PASSES] := by
  have e : s.hub.digestCmd 4 = (s.hub.digestAccept 4).wr F.DIGEST_PASSES_COUNT 0 := by
    simp only [Hub.digestCmd, ok, bne_self_eq_false, Bool.false_eq_true, if_false]
    rfl
  refine answers_tasteCmd (exec_digestClearStats r s) w e ((Tasted.digestAccept _ _ (by decide)).trans (.wr _ _ (by decide))) (by decide) c
    fun h took x => ⟨took, ?_, ?_, x.rest, x.keeps⟩
  · rw [x.rd _ (by decide), Hub.rd_wr _ _ _ (by decide)]
    rfl
  · rw [x.rd _ (by decide), Hub.rd_wr_apart _ _ _ _ (by decide) (by decide), digestAccept_status]

/-! ### A pass repeats (R264) -/

theorem exec_digestRepeat (ext : Bool) (s : State) : exec (.digestRepeat ext) s = run (fun h => h.digestRepeat ext) s := rfl

theorem digestRepeat_ext (s : State) (a : Again) (c : s.hub.calm = true)
    (due : s.hub.digAgain.find? (fun x => x.ext == true && x.nextAt ≤ s.hub.time.hclk) = some a) (idle : s.hub.digExt.active = false) :
    Answers (.digestRepeat true) s fun h =>
      h.digExt = { active := true, arg := a.arg, startedAt := s.hub.time.hclk, hasBase := a.hasBase } ∧
      h.outstanding Cu.DIGEST = s.hub.outstanding Cu.DIGEST + 1 ∧ h.rd F.DIGEST_CMD_STATUS_DONE = 0 ∧
      s.hub.rest h = { s.hub with digExt := h.digExt, cell := h.cell } ∧ s.hub.keeps h [R.DIGEST_CMD_STATUS] := by
  have e : s.hub.digestRepeat true = s.hub.startExt a.arg a.hasBase := by
    simp only [Hub.digestRepeat, due, Hub.pass, idle, Bool.false_eq_true, if_false, if_true]
  have k : Tasted [R.DIGEST_CMD_STATUS] s.hub (s.hub.startExt a.arg a.hasBase) := .startExt _ _ _ (by decide)
  obtain ⟨pass, issued, done, only⟩ := startExt_starts s.hub a.arg a.hasBase
  exact answers_tasted (exec_digestRepeat true s) e k (by decide) c fun h _ x =>
    ⟨x.digExt.trans pass, (x.outstanding _).trans issued, (x.rd _ (by decide)).trans done, x.rest_digExt_cell only, x.keeps⟩

theorem digestRepeat_tiles (s : State) (a : Again) (c : s.hub.calm = true)
    (due : s.hub.digAgain.find? (fun x => x.ext == false && x.nextAt ≤ s.hub.time.hclk) = some a) (idle : s.hub.digTiles.active = false)
    (held : (s.hub.dom (Da.slot a.arg)).st ≠ .empty) (alone : Da.fed a.arg = false) :
    Answers (.digestRepeat false) s fun h =>
      h.digTiles = { active := true, slot := Da.slot a.arg, set := Da.set a.arg, arg := a.arg, startedAt := s.hub.time.hclk, hasBase := a.hasBase } ∧
      h.rd F.DIGEST_CMD_STATUS_DONE = 0 ∧ s.hub.rest h = { s.hub with digTiles := h.digTiles } ∧ s.hub.keeps h [R.DIGEST_CMD_STATUS] := by
  have e : s.hub.digestRepeat false = s.hub.startTiles a.arg a.hasBase none := by
    simp only [Hub.digestRepeat, due, Hub.pass, idle, held, beq_iff_eq, Bool.false_eq_true, if_false]
  have k : Tasted [R.DIGEST_CMD_STATUS] s.hub (s.hub.startTiles a.arg a.hasBase none) := .startTiles _ alone _ _ (by decide)
  obtain ⟨pass, done, only⟩ := startTiles_starts s.hub alone a.hasBase none
  exact answers_tasted (exec_digestRepeat false s) e k (by decide) c fun h _ x =>
    ⟨x.digTiles.trans pass, (x.rd _ (by decide)).trans done, x.rest_digTiles only, x.keeps⟩

/-! ### The passes of a federation (R267) -/

/-- What a DIGEST frame asks for. -/
def digestArgs (tag : BitVec 16) (set flags : BitVec 8) : List Byte := le 2 tag.toNat ++ le 1 set.toNat ++ le 1 flags.toNat

theorem digestArgs_fields (tag : BitVec 16) (set flags : BitVec 8) :
    leAt (digestArgs tag set flags) 0 2 = tag.toNat ∧ leAt (digestArgs tag set flags) 2 1 = set.toNat := by
  constructor
  · simp [digestArgs, leAt, le, fromLe]
    omega
  · simp [digestArgs, leAt, le, fromLe]

/-- The DIGEST_ARG of a member's pass names the slot and the set alone. -/
theorem memberArg_fields {z set : Nat} (slot : z < 64) (small : set < 8) :
    Da.slot (z + set * 64) = z ∧ Da.set (z + set * 64) = set ∧ Da.fed (z + set * 64) = false := by
  simp only [Da.slot, Da.set, Da.fed, bitsOf, bitAt, Nat.shiftRight_eq_div_pow, beq_eq_false_iff_ne, Nat.reducePow]
  omega

theorem exec_fedDigestRx (hd : Hdr2) (tag : BitVec 16) (set flags : BitVec 8) (s : State) :
    exec (.fedDigestRx hd tag set flags) s = run (fun h => h.cmdFrame hd Op.DIGEST (digestArgs tag set flags)
      (fun h => h.memberRequest hd Op.DIGEST (fun h => h.fedDigestRx hd.src hd.txn (digestArgs tag set flags)))) s := rfl

/-- A member that has the tag starts a pass over its slot. -/
theorem fedDigestRx_member {s : Hub} {src txn z : Nat} {tag : BitVec 16} {set : BitVec 8} (flags : BitVec 8) (safe : s.isSafe = false)
    (en : s.flag F.FED_CTRL_EN = true) (has : s.openSlots.find? (fun y => (s.dom y).tag == tag.toNat) = some z) (idle : s.digTiles.active = false) :
    s.fedDigestRx src txn (digestArgs tag set flags) = s.startTiles (z + set.toNat % 8 * 64) false (some (src, txn)) := by
  obtain ⟨fst, snd⟩ := digestArgs_fields tag set flags
  simp only [Hub.fedDigestRx, fst, snd, safe, en, has, idle, Bool.not_true, Bool.false_eq_true, if_false]

theorem fedDigestRx_starts (s : State) (hd : Hdr2) (tag : BitVec 16) (set flags : BitVec 8) (z : Nat) (c : s.hub.calm = true)
    (taken : s.hub.takesFrame hd Op.DIGEST = true) (en : s.hub.flag F.FED_CTRL_EN = true) (safe : s.hub.isSafe = false)
    (has : s.hub.openSlots.find? (fun y => (s.hub.dom y).tag == tag.toNat) = some z) (slot : z < 64) (idle : s.hub.digTiles.active = false) :
    Answers (.fedDigestRx hd tag set flags) s fun h =>
      h.digTiles = { active := true, slot := z, set := set.toNat % 8, arg := z + set.toNat % 8 * 64, startedAt := s.hub.time.hclk, fedReq := some ((hd.src : Nat), (hd.txn : Nat)) } ∧
      s.hub.rest h = { s.hub with digTiles := h.digTiles, fed := h.fed } ∧
      s.hub.keeps h [R.DIGEST_CMD_STATUS, R.PG_ERROR + Pg.FED * 0x1000, R.PG_ERROR_INFO + Pg.FED * 0x1000] := by
  obtain ⟨argSlot, argSet, alone⟩ := memberArg_fields slot (Nat.mod_lt set.toNat (by decide : 0 < 8))
  obtain ⟨fed, e⟩ := cmdFrame_taken taken (digestArgs tag set flags)
    (fun h => h.memberRequest hd Op.DIGEST (fun h => h.fedDigestRx hd.src hd.txn (digestArgs tag set flags)))
  have k : Tasted [R.DIGEST_CMD_STATUS, R.PG_ERROR + Pg.FED * 0x1000, R.PG_ERROR_INFO + Pg.FED * 0x1000] s.hub
      (Hub.startTiles { s.hub with fed := fed } (z + set.toNat % 8 * 64) false (some ((hd.src : Nat), (hd.txn : Nat)))) :=
    (Tasted.withFed s.hub fed).trans (.startTiles _ alone _ _ (by decide))
  have same : Hub.isSafe { s.hub with fed := fed } = s.hub.isSafe ∧ Hub.flag { s.hub with fed := fed } = s.hub.flag ∧
      Hub.openSlots { s.hub with fed := fed } = s.hub.openSlots ∧ Hub.dom { s.hub with fed := fed } = s.hub.dom := ⟨rfl, rfl, rfl, rfl⟩
  obtain ⟨safe', en', slots, doms⟩ := same
  rw [← slots, ← doms] at has
  rw [← safe'] at safe
  rw [← en'] at en
  simp only [Hub.memberRequest, safe, en, Bool.false_eq_true, if_false, if_true] at e
  rw [fedDigestRx_member flags safe en has idle] at e
  obtain ⟨pass, -, only⟩ := startTiles_starts { s.hub with fed := fed } alone false (some ((hd.src : Nat), (hd.txn : Nat)))
  rw [argSlot, argSet] at pass
  refine answers_tasted (exec_fedDigestRx hd tag set flags s) e k (by decide) c fun h _ x => ⟨x.digTiles.trans pass, ?_, x.keeps⟩
  generalize Hub.startTiles { s.hub with fed := fed } _ _ _ = g at only x
  have via : g.fed = fed := by
    have same := congrArg Hub.fed only
    exact same
  rw [x.rest, x.digTiles, x.fed, via]
  exact congrArg s.hub.restored only

end Sys2Proof.Machine
end

section
/-! SUPPORT. The end of a digest pass that neither compares nor repeats (R262, R264, R266). -/

namespace Sys2Proof.Machine

variable {keys : List Nat}

theorem Tasted.mono {more : List Nat} {s h : Hub} (k : Tasted keys s h) (sub : ∀ a ∈ keys, a ∈ more) : Tasted more s h :=
  ⟨k.core, k.queues, fun a b n => k.regs a b fun m => n (sub _ m), k.quiet, k.kept⟩

/-! ### A pass ends OK -/

/-- A pass whose sum is shown and no more: it neither compares nor repeats, and no other hub asked for it. -/
structure Pass.plain (p : Pass) : Prop where
  compares : Da.compare p.arg = false
  repeats : Da.repeats p.arg = false
  own : p.fedReq = none

/-- The sum, the counts `info` and the tiles named of a pass are shown, and DIGEST_DONE is raised for its unit. -/
def Hub.passShown (s : Hub) (p : Pass) (info unit : Nat) : Hub :=
  (((s.setReg64 R.DIGEST_RESULT_LO p.sum).setReg R.DIGEST_RESULT_INFO info).digestNamed p.diff.head? false).raiseOf Ev.DIGEST_DONE unit

/-- FINAL OK, the count of passes and the time of the end. -/
def Hub.passFinal (s : Hub) : Hub :=
  let g := (s.wr F.DIGEST_CMD_STATUS_FINAL St.OK).bump F.DIGEST_PASSES_COUNT 1
  g.setReg64 R.DIGEST_DONE_GCN_LO g.now

/-- The unit that DIGEST_DONE names: the region of an external pass, the slot of a tile pass. -/
def Pass.unit (p : Pass) (ext : Bool) : Nat := if ext then Da.region p.arg else p.slot

/-- The record of a plain pass that is over. -/
def Pass.over (p : Pass) : Pass := { p with active := false, fedLeft := [], missing := none, fedReq := none }

theorem passOver_plain {s : Hub} {ext : Bool} (plain : (s.pass ext).plain) :
    s.passOver ext St.OK (s.pass ext).hasBase = (s.passFinal.setPass ext (s.pass ext).over).digestBusy := by
  simp only [Hub.passOver, plain.repeats, plain.own, Bool.false_and, Bool.false_eq_true, if_false]
  rfl

theorem passOk_plain {s : Hub} {ext : Bool} (plain : (s.pass ext).plain) :
    ∃ info, s.passOk ext = ((s.passShown (s.pass ext) info ((s.pass ext).unit ext)).passFinal.setPass ext (s.pass ext).over).digestBusy := by
  have compares : (s.pass ext).compares = false := by
    rw [Pass.compares, plain.compares, plain.repeats]
    rfl
  have shown : s.passOk ext =
      (s.passShown (s.pass ext) (sat 15 (s.pass ext).tiles + sat 14 (s.pass ext).diff.length * 0x40000) ((s.pass ext).unit ext)).passOver ext St.OK
        (s.pass ext).hasBase := by
    simp only [Hub.passOk, compares, plain.repeats, Bool.false_and, Bool.false_eq_true, if_false, Bool.or_false]
    rfl
  exact ⟨_, shown.trans (passOver_plain plain)⟩

/-- The registers that the end of a pass writes. -/
def passKeys : List Nat :=
  [R.DIGEST_CMD_STATUS, R.DIGEST_PASSES, R.DIGEST_DONE_GCN_LO, R.DIGEST_DONE_GCN_HI, R.DIGEST_RESULT_LO, R.DIGEST_RESULT_HI, R.DIGEST_RESULT_INFO, R.DIGEST_NAMED]

theorem Tasted.digestBusy (s : Hub) (k : R.DIGEST_CMD_STATUS ∈ keys) : Tasted keys s s.digestBusy := .wr s (f := F.DIGEST_CMD_STATUS_DONE) _ k

theorem Tasted.passFinal (s : Hub) (status : R.DIGEST_CMD_STATUS ∈ keys) (passes : R.DIGEST_PASSES ∈ keys) (lo : R.DIGEST_DONE_GCN_LO ∈ keys)
    (hi : R.DIGEST_DONE_GCN_HI ∈ keys) : Tasted keys s s.passFinal :=
  ((Tasted.wr s (f := F.DIGEST_CMD_STATUS_FINAL) _ status).trans (.wr _ (f := F.DIGEST_PASSES_COUNT) _ passes)).trans (.setReg64 _ _ lo hi)

/-- What is shown of a pass beside its sum. -/
theorem Tasted.passShown (s : Hub) (p : Pass) (info unit : Nat) (i : R.DIGEST_RESULT_INFO ∈ keys) (n : R.DIGEST_NAMED ∈ keys) :
    Tasted keys (s.setReg64 R.DIGEST_RESULT_LO p.sum) (s.passShown p info unit) :=
  ((Tasted.setReg _ _ i).trans (.setReg _ _ n)).trans (.raiseOf _ _ (by decide))

/-- What the end of a plain pass leaves: `h` comes from `s`. -/
structure PassEnds (s h : Hub) (ext : Bool) : Prop where
  changes : Tasted passKeys s h
  sum : h.reg64 R.DIGEST_RESULT_LO = (s.pass ext).sum % 2 ^ 64
  final : h.rd F.DIGEST_CMD_STATUS_FINAL = St.OK
  count : h.rd F.DIGEST_PASSES_COUNT = sat F.DIGEST_PASSES_COUNT.width (s.rd F.DIGEST_PASSES_COUNT + 1)
  raised : ∃ o ∈ h.occs, o.code = Ev.DIGEST_DONE ∧ o.unit.getD 0 = (s.pass ext).unit ext
  only : s.restored h = s.setPass ext (s.pass ext).over

theorem passFinal_shown (s : Hub) : s.passFinal.rd F.DIGEST_CMD_STATUS_FINAL = St.OK ∧
    s.passFinal.rd F.DIGEST_PASSES_COUNT = sat F.DIGEST_PASSES_COUNT.width (s.rd F.DIGEST_PASSES_COUNT + 1) := by
  have stamped : Tasted [R.DIGEST_DONE_GCN_LO, R.DIGEST_DONE_GCN_HI] ((s.wr F.DIGEST_CMD_STATUS_FINAL St.OK).bump F.DIGEST_PASSES_COUNT 1) s.passFinal :=
    .setReg64 _ _ (by decide) (by decide)
  rw [stamped.rd _ (by decide), stamped.rd _ (by decide), Hub.bump, Hub.rd_wr_apart _ _ _ _ (by decide) (by decide), Hub.rd_wr _ _ _ (by decide),
    Hub.rd_wr _ _ _ (by decide), Hub.rd_wr_apart _ _ _ _ (by decide) (by decide)]
  exact ⟨rfl, Nat.mod_eq_of_lt (sat_lt _ _)⟩

/-- The end of a pass whose sum is shown changes its record beside the registers. -/
theorem passFinal_only (s g : Hub) (ext : Bool) (p : Pass) :
    s.restored ((g.passFinal.setPass ext p).digestBusy) = (s.restored g).setPass ext p := by
  cases ext <;> rfl

theorem passOk_ends {s : Hub} {ext : Bool} (plain : (s.pass ext).plain) : PassEnds s (s.passOk ext) ext := by
  obtain ⟨info, e⟩ := passOk_plain plain
  rw [e]
  have shown {k : List Nat} (i : R.DIGEST_RESULT_INFO ∈ k) (n : R.DIGEST_NAMED ∈ k) :=
    Tasted.passShown s (s.pass ext) info ((s.pass ext).unit ext) i n
  have raised : ∃ o ∈ (s.passShown (s.pass ext) info ((s.pass ext).unit ext)).occs, o.code = Ev.DIGEST_DONE ∧ o.unit.getD 0 = (s.pass ext).unit ext :=
    raiseOf_raised _ _ _
  have only : s.restored (s.passShown (s.pass ext) info ((s.pass ext).unit ext)) = s := rfl
  generalize s.passShown (s.pass ext) info ((s.pass ext).unit ext) = g at shown raised only
  have summed : Tasted [R.DIGEST_RESULT_LO, R.DIGEST_RESULT_HI, R.DIGEST_RESULT_INFO, R.DIGEST_NAMED] s g :=
    (Tasted.setReg64 s _ (by decide) (by decide)).trans (shown (by decide) (by decide))
  have recorded : Tasted [R.DIGEST_CMD_STATUS] g.passFinal (g.passFinal.setPass ext (s.pass ext).over).digestBusy :=
    (Tasted.setPass _ _ _).trans (.digestBusy _ (by decide))
  have ended : Tasted [R.DIGEST_CMD_STATUS, R.DIGEST_PASSES, R.DIGEST_DONE_GCN_LO, R.DIGEST_DONE_GCN_HI] g
      (g.passFinal.setPass ext (s.pass ext).over).digestBusy :=
    ((Tasted.passFinal g (by decide) (by decide) (by decide) (by decide)).trans (.setPass _ _ _)).trans (.digestBusy _ (by decide))
  have set : Tasted [] g.passFinal (g.passFinal.setPass ext (s.pass ext).over) := .setPass _ _ _
  obtain ⟨final, count⟩ := passFinal_shown g
  refine ⟨(summed.mono (by decide)).trans (ended.mono (by decide)), ?_, ?_, ?_, ?_, ?_⟩
  · rw [ended.reg64 (by decide) (by decide),
      (shown (k := [R.DIGEST_RESULT_INFO, R.DIGEST_NAMED]) (by decide) (by decide)).reg64 (by decide) (by decide), Hub.reg64_setReg64]
  · rw [Hub.digestBusy, Hub.rd_wr_apart _ _ _ _ (by decide) (by decide), set.rd _ List.not_mem_nil, final]
  · rw [recorded.rd _ (by decide), count, summed.rd _ (by decide)]
  · obtain ⟨o, m, named⟩ := raised
    exact ⟨o, ended.kept o m, named⟩
  · rw [passFinal_only, only]

/-! ### Tiles changed one by one -/

section
variable {F : Hub → Nat → Tile}

theorem doEach_setTile_only (l : List Nat) (s : Hub) :
    doEach l s (fun s t => s.setTile t (F s t)) = { s with tiles := (doEach l s fun s t => s.setTile t (F s t)).tiles } := by
  refine doEach_keeps (fun h => h = { s with tiles := h.tiles }) _ (fun h t e => ?_) l s rfl
  rw [e]
  rfl

theorem doEach_setTile_other {l : List Nat} {u : Nat} (n : u ∉ l) (s : Hub) : (doEach l s fun s t => s.setTile t (F s t)).tile u = s.tile u := by
  induction l generalizing s with
  | nil => rfl
  | cons t l ih =>
    obtain ⟨here, rest⟩ := not_or.mp (mt List.mem_cons.mpr n)
    rw [doEach_cons, ih rest, tile_setTile_other _ _ here]

end

/-! ### The partials of a tile pass (R262) -/

/-- The spurs of the tiles hold their partials of a set. -/
def Hub.partialsTaken (s : Hub) (tiles : List Nat) (set : Nat) : Hub :=
  doEach tiles s (fun s t => s.setTile t { s.tile t with partialSum := s.tilePartial t set })

/-- The descriptors and the memories of `h` are those of `s`: the tiles have the same partials. -/
structure SamePartials (s h : Hub) : Prop where
  store : h.store = s.store
  writes : h.writes = s.writes
  dig : ∀ t, (h.tile t).dig = (s.tile t).dig

theorem SamePartials.tilePartial {s h : Hub} (k : SamePartials s h) (t set : Nat) : h.tilePartial t set = s.tilePartial t set := by
  have sums : h.descSum t = s.descSum t := by
    funext d
    simp only [Hub.descSum, Hub.sram, Hub.peeks, Hub.peek, k.store, k.writes]
  rw [Hub.tilePartial, Hub.tilePartial, k.dig, sums]

theorem SamePartials.setTile {s h : Hub} (k : SamePartials s h) {t : Nat} {x : Tile} (dig : x.dig = (h.tile t).dig) :
    SamePartials s (h.setTile t x) := by
  refine ⟨k.store, k.writes, fun u => ?_⟩
  rw [← k.dig, Hub.tile_setTile]
  split
  · rename_i here
    rw [dig, here]
  · rfl

theorem partialsTaken_mem {s : Hub} {tiles : List Nat} {t : Nat} (m : t ∈ tiles) (set : Nat) :
    ((s.partialsTaken tiles set).tile t).partialSum = s.tilePartial t set := by
  refine (doEach_reaches (f := fun s t => s.setTile t { s.tile t with partialSum := s.tilePartial t set }) (p := SamePartials s)
    (q := fun h => SamePartials s h ∧ (h.tile t).partialSum = s.tilePartial t set)
    (fun h u _ k => k.setTile rfl) (fun h k => ⟨k.setTile rfl, ?_⟩) (fun h u k => ⟨k.1.setTile rfl, ?_⟩) m ⟨rfl, rfl, fun _ => rfl⟩).2
  · rw [tile_setTile_same]
    exact k.tilePartial t set
  · rw [Hub.tile_setTile]
    split
    · rename_i here
      rw [here]
      exact k.1.tilePartial u set
    · exact k.2

theorem Tasted.partialsTaken (s : Hub) (tiles : List Nat) (set : Nat) : Tasted keys s (s.partialsTaken tiles set) :=
  .doEach (fun s t => .setTile s t _) tiles s

/-- A tile pass with its partials summed. -/
def Pass.summed (p : Pass) (s : Hub) (tiles : List Nat) : Pass :=
  { p with sum := (p.sum + sumNat (tiles.map fun t => s.tilePartial t p.set)) % 2 ^ 64, own := true, tiles := tiles.length, diff := [] }

/-- The hub when the partials of its tile pass have been summed. -/
def Hub.tilesAdded (s : Hub) : Hub :=
  { s.partialsTaken (s.slotTiles s.digTiles.slot) s.digTiles.set with digTiles := s.digTiles.summed s (s.slotTiles s.digTiles.slot) }

theorem tilesSummed_plain {s : Hub} (perTile : Da.perTile s.digTiles.arg = false) : s.tilesSummed none = s.tilesAdded.passJoin := by
  have all (l : List Nat) : l.filter (fun t => (none : Option Nat) != some t) = l := List.filter_eq_self.mpr fun _ _ => rfl
  have sums : (s.slotTiles s.digTiles.slot).map (fun t => ((s.partialsTaken (s.slotTiles s.digTiles.slot) s.digTiles.set).tile t).partialSum) =
      (s.slotTiles s.digTiles.slot).map (fun t => s.tilePartial t s.digTiles.set) :=
    List.map_congr_left fun t m => partialsTaken_mem m _
  have same : (s.partialsTaken (s.slotTiles s.digTiles.slot) s.digTiles.set).digTiles = s.digTiles := by
    rw [Hub.partialsTaken, doEach_setTile_only]
  unfold Hub.tilesSummed Hub.tilesAdded Pass.summed
  rw [← sums]
  unfold Hub.partialsTaken at *
  simp only [all, perTile, Hub.tableDiff, Bool.false_and, Bool.false_eq_true, if_false, same]

/-- A tile pass alone, its own part and no other waited for, ends OK. -/
theorem passJoin_own {s : Hub} (active : s.digTiles.active = true) (own : s.digTiles.own = true) (alone : s.digTiles.fedLeft = [])
    (missing : s.digTiles.missing = none) (good : s.digTiles.fedBad = false) : s.passJoin = s.passOk false := by
  simp only [Hub.passJoin, active, own, alone, missing, good, List.isEmpty_nil, Option.isSome_none, Bool.not_true, Bool.or_self, Bool.false_eq_true,
    if_false]

theorem Tasted.tilesAdded (s : Hub) : Tasted keys s s.tilesAdded := (Tasted.partialsTaken s _ _).trans (.withDigTiles _ _)

theorem tilesAdded_only (s : Hub) : s.restored s.tilesAdded = { s with digTiles := s.tilesAdded.digTiles, tiles := s.tilesAdded.tiles } := by
  rw [Hub.tilesAdded, Hub.partialsTaken, doEach_setTile_only]
  rfl

/-! ### The end of a pass is reached -/

theorem exec_digestPassEnd (ext : Bool) (crcBad : Option TileId) (s : State) :
    exec (.digestPassEnd ext crcBad) s = run (fun h => h.digestPassEnd ext (crcBad.map Fin.val)) s := rfl

/-- A pass that ends changes its record; the change before it is of the record and the tiles. -/
theorem PassEnds.only_tiles {s g h : Hub} (ends : PassEnds g h false) (before : s.restored g = { s with digTiles := g.digTiles, tiles := g.tiles }) :
    h.digTiles = g.digTiles.over ∧ h.tiles = g.tiles ∧ s.restored h = { s with digTiles := h.digTiles, tiles := h.tiles } := by
  have only : g.restored h = { g with digTiles := g.digTiles.over } := ends.only
  have pass : h.digTiles = g.digTiles.over := by
    have same := congrArg Hub.digTiles only
    exact same
  have tiles : h.tiles = g.tiles := by
    have same := congrArg Hub.tiles only
    exact same
  refine ⟨pass, tiles, ?_⟩
  calc s.restored h = s.restored (g.restored h) := rfl
    _ = { s.restored g with digTiles := g.digTiles.over } := by rw [only]; rfl
    _ = { s with digTiles := h.digTiles, tiles := h.tiles } := by rw [before, pass, tiles]

theorem digestPassEnd_tiles (s : State) (p : Pass) (c : s.hub.calm = true) (pass : s.hub.digTiles = p) (own : p.own = false)
    (perTile : Da.perTile p.arg = false) (ready : s.hub.sumsWait = false) (active : p.active = true) (compares : Da.compare p.arg = false)
    (repeats : Da.repeats p.arg = false) (asked : p.fedReq = none) (missing : p.missing = none) (good : p.fedBad = false) (alone : p.fedLeft = [])
    (_ : p.diff = []) :
    Answers (.digestPassEnd false none) s fun h =>
      h.reg64 R.DIGEST_RESULT_LO = (p.sum + sumNat ((s.hub.slotTiles p.slot).map (fun t => s.hub.tilePartial t p.set))) % 2 ^ 64 ∧
      h.digTiles.active = false ∧ h.rd F.DIGEST_CMD_STATUS_FINAL = St.OK ∧
      h.rd F.DIGEST_PASSES_COUNT = sat F.DIGEST_PASSES_COUNT.width (s.hub.rd F.DIGEST_PASSES_COUNT + 1) ∧
      h.shows Ev.DIGEST_DONE p.slot = true ∧ (∀ u, u ∉ s.hub.slotTiles p.slot → h.tile u = s.hub.tile u) ∧
      s.hub.rest h = { s.hub with digTiles := h.digTiles, tiles := h.tiles } ∧
      s.hub.keeps h [R.DIGEST_CMD_STATUS, R.DIGEST_PASSES, R.DIGEST_DONE_GCN_LO, R.DIGEST_DONE_GCN_HI, R.DIGEST_RESULT_LO, R.DIGEST_RESULT_HI, R.DIGEST_RESULT_INFO, R.DIGEST_NAMED] := by
  subst pass
  have plain : (s.hub.tilesAdded.pass false).plain := ⟨compares, repeats, asked⟩
  have e : s.hub.digestPassEnd false none = s.hub.tilesAdded.passOk false := by
    rw [← passJoin_own (s := s.hub.tilesAdded) active rfl alone missing good, ← tilesSummed_plain perTile]
    simp only [Hub.digestPassEnd, Hub.pass, own, active, ready, Bool.not_true, Bool.not_false, Bool.or_self, Bool.false_eq_true, if_false, if_true]
  have ends := passOk_ends plain
  have others (u : Nat) (n : u ∉ s.hub.slotTiles s.hub.digTiles.slot) : s.hub.tilesAdded.tile u = s.hub.tile u := doEach_setTile_other n s.hub
  have counted : s.hub.tilesAdded.rd F.DIGEST_PASSES_COUNT = s.hub.rd F.DIGEST_PASSES_COUNT :=
    (Tasted.tilesAdded (keys := []) s.hub).rd _ List.not_mem_nil
  have sum : (s.hub.tilesAdded.pass false).sum = (s.hub.digTiles.summed s.hub (s.hub.slotTiles s.hub.digTiles.slot)).sum := rfl
  have unit : (s.hub.tilesAdded.pass false).unit false = s.hub.digTiles.slot := rfl
  obtain ⟨pass, tiles, only⟩ := ends.only_tiles (tilesAdded_only s.hub)
  have k := (Tasted.tilesAdded s.hub).trans ends.changes
  generalize s.hub.tilesAdded.passOk false = g at e ends pass tiles only k
  refine answers_tasted (exec_digestPassEnd false none s) e k (by decide) c fun h _ x => ⟨?_, ?_, ?_, ?_, ?_, fun u n => ?_, ?_, x.keeps⟩
  · rw [x.reg64 (by decide) (by decide), ends.sum, sum]
    exact Nat.mod_mod _ _
  · rw [x.digTiles, pass]
    rfl
  · rw [x.rd _ (by decide), ends.final]
  · rw [x.rd _ (by decide), ends.count, counted]
  · exact x.shows_raised (unit ▸ ends.raised) (fun _ _ e => by cases e; decide)
  · rw [x.tile, Hub.tile, tiles, ← Hub.tile, others u n]
  · rw [x.rest, only, x.digTiles, x.tiles]

theorem digestPassEnd_ext (s : State) (crcBad : Option TileId) (p : Pass) (c : s.hub.calm = true) (pass : s.hub.digExt = p) (own : p.own = true)
    (active : p.active = true) (compares : Da.compare p.arg = false) (repeats : Da.repeats p.arg = false) (asked : p.fedReq = none)
    (_ : p.missing = none) (_ : p.fedBad = false) (_ : p.fedLeft = []) (_ : p.diff = []) :
    Answers (.digestPassEnd true crcBad) s fun h =>
      h.reg64 R.DIGEST_RESULT_LO = p.sum % 2 ^ 64 ∧ h.digExt.active = false ∧ h.rd F.DIGEST_CMD_STATUS_FINAL = St.OK ∧
      h.shows Ev.DIGEST_DONE (Da.region p.arg) = true ∧ s.hub.rest h = { s.hub with digExt := h.digExt } ∧
      s.hub.keeps h [R.DIGEST_CMD_STATUS, R.DIGEST_PASSES, R.DIGEST_DONE_GCN_LO, R.DIGEST_DONE_GCN_HI, R.DIGEST_RESULT_LO, R.DIGEST_RESULT_HI, R.DIGEST_RESULT_INFO, R.DIGEST_NAMED] := by
  subst pass
  have plain : (s.hub.pass true).plain := ⟨compares, repeats, asked⟩
  have e : s.hub.digestPassEnd true (crcBad.map Fin.val) = s.hub.passOk true := by
    simp only [Hub.digestPassEnd, Hub.pass, own, active, Bool.not_true, Bool.false_eq_true, if_false, if_true]
  have ends := passOk_ends plain
  have only : s.hub.restored (s.hub.passOk true) = { s.hub with digExt := s.hub.digExt.over } := ends.only
  have unit : (s.hub.pass true).unit true = Da.region s.hub.digExt.arg := rfl
  generalize s.hub.passOk true = g at e ends only
  have pass : g.digExt = s.hub.digExt.over := by
    have same := congrArg Hub.digExt only
    exact same
  refine answers_tasted (exec_digestPassEnd true crcBad s) e ends.changes (by decide) c fun h _ x => ⟨?_, ?_, ?_, ?_, ?_, x.keeps⟩
  · rw [x.reg64 (by decide) (by decide), ends.sum]
    rfl
  · rw [x.digExt, pass]
    rfl
  · rw [x.rd _ (by decide), ends.final]
  · exact x.shows_raised (unit ▸ ends.raised) (fun _ _ e => by cases e; decide)
  · rw [x.rest, only, x.digExt, pass]

theorem digestPassEnd_waits (s : State) (p : Pass) (c : s.hub.calm = true) (pass : s.hub.digTiles = p) (active : p.active = true)
    (own : p.own = false) (waits : s.hub.sumsWait = true) :
    Answers (.digestPassEnd false none) s fun h => s.hub.rest h = s.hub ∧ s.hub.keeps h [] := by
  subst pass
  have e : s.hub.digestPassEnd false none = s.hub := by
    simp only [Hub.digestPassEnd, Hub.pass, active, own, waits, Bool.not_true, Bool.not_false, Bool.false_or, Bool.false_eq_true, if_false, if_true]
  exact answers_tasted (exec_digestPassEnd false none s) e (.refl _) (by decide) c fun h _ x => ⟨x.rest, x.keeps⟩

/-- Settles O45: a pass that starts, ends or repeats changes its own record, the registers that show it, and the spurs' partials. -/
theorem digest_passes_sum_what_they_name : Obligations.digest_passes_sum_what_they_name :=
  ⟨runTiles_starts, runExt_starts, digestAbort_ends, digestClearStats_clears, digestPassEnd_tiles, digestPassEnd_ext, digestPassEnd_waits,
    digestRepeat_ext, digestRepeat_tiles, fedDigestRx_starts⟩

end Sys2Proof.Machine
end

section
/-! SUPPORT. The numeric watch (R269 to R271, R273, R280): the end of a window, REARM_FIRST and CLEAR_STATS. -/

namespace Sys2Proof.Machine

variable {keys : List Nat}

/-! ### One item of a list among the others -/

theorem doEach_keeps_mem {σ α : Type} {q : σ → Prop} {f : σ → α → σ} {l : List α} (hf : ∀ s, ∀ b ∈ l, q s → q (f s b)) {s : σ} (h : q s) :
    q (doEach l s f) := by
  induction l generalizing s with
  | nil => exact h
  | cons b l ih => exact ih (fun s c m => hf s c (List.mem_cons_of_mem _ m)) (hf s b List.mem_cons_self h)

/-- A fact that the one occurrence of an item brings about, and the other items keep, holds at the end. -/
theorem doEach_once {σ α : Type} {p q : σ → Prop} {f : σ → α → σ} {a : α} (before : ∀ s b, b ≠ a → p s → p (f s b))
    (at_ : ∀ s, p s → q (f s a)) (after : ∀ s b, b ≠ a → q s → q (f s b)) {l : List α} (m : a ∈ l) (once : l.Nodup) {s : σ} (h : p s) :
    q (doEach l s f) := by
  induction l generalizing s with
  | nil => cases m
  | cons b l ih =>
    obtain ⟨fresh, once⟩ := List.nodup_cons.mp once
    rw [doEach_cons]
    by_cases e : b = a
    · subst e
      exact doEach_keeps_mem (fun s c m => after s c fun e => fresh (e ▸ m)) (at_ s h)
    · exact ih ((List.mem_cons.mp m).resolve_left fun x => e x.symm) once (before s b e h)

/-! ### A pair is collected (R269, R270) -/

/-- The spurs' counts of a kind, summed over tiles. -/
def Hub.numwSum (s : Hub) (tiles : List Nat) (k : Nat) : Nat := sumNat (tiles.map fun t => nth (s.tile t).numw k 0)

/-- The events of a collection. -/
def Hub.numwTell (s : Hub) (exceeds : Bool) (big : Option Nat) (first : Option (Nat × Nat)) (fires : Bool) : Hub :=
  let s := if exceeds then s.raise Ev.NUMW_THRESHOLD big else s
  match first with
  | some (t, _) => if fires then s.raiseOf Ev.NUMW_FIRST t else s
  | none => s

theorem numwCollect_eq (s : Hub) (z k : Nat) (tiles : List Nat) :
    ∃ p exceeds big first fires, s.numwCollect z k tiles = (s.setNumw z k p).numwTell exceeds big first fires ∧
      p.last = s.numwSum tiles k ∧ p.total = ((s.numwPair z k).total + s.numwSum tiles k) % 2 ^ 64 := by
  have sum : sumNat ((tiles.map fun t => (t, nth (s.tile t).numw k 0)).map Prod.snd) = s.numwSum tiles k := by rw [List.map_map]; rfl
  rw [← sum]
  exact ⟨_, _, _, _, _, rfl, rfl, rfl⟩

/-- `h` comes from `s` by changing pairs and raising events. -/
structure Collected (s h : Hub) : Prop where
  changes : Tasted [] s h
  only : s.restored h = { s with numw := h.numw }

theorem Collected.trans {s t u : Hub} (h1 : Collected s t) (h2 : Collected t u) : Collected s u := by
  refine ⟨h1.changes.trans h2.changes, ?_⟩
  calc s.restored u = s.restored (t.restored u) := rfl
    _ = { s.restored t with numw := u.numw } := by rw [h2.only]; rfl
    _ = { s with numw := u.numw } := by rw [h1.only]

theorem Collected.refl (s : Hub) : Collected s s := ⟨.refl s, rfl⟩

theorem Collected.numwTell (s : Hub) (exceeds : Bool) (big : Option Nat) (first : Option (Nat × Nat)) (fires : Bool) :
    Collected s (s.numwTell exceeds big first fires) ∧ (s.numwTell exceeds big first fires).numw = s.numw := by
  have raise (s : Hub) (code : Nat) (u : Option Nat) (n : code ≠ Ev.RELEASED) : Collected s (s.raise code u) := ⟨.raise s u n, rfl⟩
  have threshold : Collected s (if exceeds then s.raise Ev.NUMW_THRESHOLD big else s) ∧
      (if exceeds then s.raise Ev.NUMW_THRESHOLD big else s).numw = s.numw := by
    split
    · exact ⟨raise _ _ _ (by decide), rfl⟩
    · exact ⟨.refl s, rfl⟩
  obtain ⟨collected, numw⟩ := threshold
  unfold Hub.numwTell
  generalize (if exceeds then s.raise Ev.NUMW_THRESHOLD big else s) = g at collected numw ⊢
  split
  · split
    · exact ⟨collected.trans (raise _ _ _ (by decide)), numw⟩
    · exact ⟨collected, numw⟩
  · exact ⟨collected, numw⟩

theorem Collected.tile {s h : Hub} (k : Collected s h) (u : Nat) : h.tile u = s.tile u := by
  have tiles : h.tiles = s.tiles := by
    have same := congrArg Hub.tiles k.only
    exact same
  rw [Hub.tile, tiles, Hub.tile]

theorem Collected.numwSum {s h : Hub} (k : Collected s h) (tiles : List Nat) (n : Nat) : h.numwSum tiles n = s.numwSum tiles n := by
  rw [Hub.numwSum, funext k.tile, Hub.numwSum]

/-- `h` comes from `s` by collecting pairs, pair `k` of slot `z` once. -/
structure Summed (s : Hub) (z k : Nat) (tiles : List Nat) (h : Hub) : Prop where
  collected : Collected s h
  last : (h.numwPair z k).last = s.numwSum tiles k
  total : (h.numwPair z k).total = ((s.numwPair z k).total + s.numwSum tiles k) % 2 ^ 64

/-- Collecting a pair leaves the slot's other pairs alone. -/
theorem numwCollect_sums (s : Hub) (z k : Nat) (tiles : List Nat) :
    Summed s z k tiles (s.numwCollect z k tiles) ∧ ∀ j, j ≠ k → (s.numwCollect z k tiles).numwPair z j = s.numwPair z j := by
  obtain ⟨p, exceeds, big, first, fires, e, last, total⟩ := numwCollect_eq s z k tiles
  obtain ⟨told, numw⟩ := Collected.numwTell (s.setNumw z k p) exceeds big first fires
  rw [e]
  generalize (s.setNumw z k p).numwTell exceeds big first fires = g at told numw
  have set : Collected s (s.setNumw z k p) := ⟨.setNumw s z k p, rfl⟩
  have own : g.numwPair z k = p := by rw [Hub.numwPair, numw]; exact Tab.get_set_same ..
  refine ⟨⟨set.trans told, own ▸ last, own ▸ total⟩, fun j n => ?_⟩
  rw [Hub.numwPair, numw]
  exact Tab.get_set_ne _ (by simpa [numwKey] using n) ..

/-! ### A window ends (R269, R271) -/

/-- The eight pairs of a slot are collected. -/
def Hub.numwGather (s : Hub) (z : Nat) (tiles : List Nat) : Hub := doEach (List.range 8) s fun s k => s.numwCollect z k tiles

theorem numwGather_sums (s : Hub) (z : Nat) {k : Nat} (tiles : List Nat) (kind : k < 8) : Summed s z k tiles (s.numwGather z tiles) := by
  refine doEach_once (f := fun s k => s.numwCollect z k tiles) (p := fun h => Collected s h ∧ h.numwPair z k = s.numwPair z k)
    (q := Summed s z k tiles) (fun h j n before => ?_) (fun h before => ?_) (fun h j n after => ?_) (List.mem_range.mpr kind) List.nodup_range
    ⟨.refl s, rfl⟩
  · obtain ⟨collected, pair⟩ := before
    obtain ⟨more, others⟩ := numwCollect_sums h z j tiles
    exact ⟨collected.trans more.collected, (others k n.symm).trans pair⟩
  · obtain ⟨collected, pair⟩ := before
    obtain ⟨⟨more, last, total⟩, -⟩ := numwCollect_sums h z k tiles
    rw [collected.numwSum] at last total
    rw [pair] at total
    exact ⟨collected.trans more, last, total⟩
  · obtain ⟨collected, last, total⟩ := after
    obtain ⟨more, others⟩ := numwCollect_sums h z j tiles
    exact ⟨collected.trans more.collected, (others k n.symm) ▸ last, (others k n.symm) ▸ total⟩

/-- The spurs' counters clear. -/
def Hub.numwClear (s : Hub) (tiles : List Nat) : Hub := doEach tiles s fun s t => s.setTile t { s.tile t with numw := [] }

theorem numwClear_mem {tiles : List Nat} {t : Nat} (m : t ∈ tiles) (s : Hub) :
    (s.numwClear tiles).tile t = { s.tile t with numw := [] } := by
  refine doEach_reaches (p := fun h : Hub => { h.tile t with numw := [] } = { s.tile t with numw := [] })
    (q := fun h : Hub => h.tile t = { s.tile t with numw := [] }) (f := fun (s : Hub) t => s.setTile t { s.tile t with numw := [] })
    (fun h u n before => ?_) (fun h before => ?_) (fun h u after => ?_) m rfl
  · rw [tile_setTile_other _ _ n.symm]
    exact before
  · rw [tile_setTile_same]
    exact before
  · rw [Hub.tile_setTile]
    split
    · rename_i here
      rw [← here, after]
    · exact after

theorem numwClear_only (s : Hub) (tiles : List Nat) : s.numwClear tiles = { s with tiles := (s.numwClear tiles).tiles } :=
  doEach_setTile_only _ _

theorem numwClear_other {tiles : List Nat} {u : Nat} (n : u ∉ tiles) (s : Hub) : (s.numwClear tiles).tile u = s.tile u := doEach_setTile_other n s

/-- The next window begins. -/
def Hub.numwNext (s : Hub) : Hub := { s with time := { s.time with numwFrom := s.now / s.numwLen * s.numwLen }, numwHeld := {} }

theorem numwWindowEnd_one {s : Hub} {z t : Nat} (en : s.flag F.NUMW_CTRL_EN = true) (due : s.numwEnd ≤ s.now) (one : s.openSlots = [z])
    (m : t ∈ s.slotTiles z) : s.numwWindowEnd none = ((s.numwGather z (s.slotTiles z)).numwClear (s.slotTiles z)).numwNext := by
  have some_tile : (s.slotTiles z).isEmpty = false := List.isEmpty_eq_false_iff.mpr (List.ne_nil_of_mem m)
  have all : ((none : Option Nat) == some z) = false := rfl
  simp only [Hub.numwWindowEnd, en, not_lt.mpr due, one, some_tile, all, doEach_cons, doEach_nil, Bool.not_true, Bool.false_or, decide_false,
    Bool.false_eq_true, if_false]
  rfl

/-- The end of a window, seen from the hub before the pairs were collected. -/
theorem numwNext_only {s a b : Hub} (only : s.restored a = { s with numw := a.numw }) (cleared : b = { a with tiles := b.tiles }) :
    s.restored b.numwNext =
      { s with numw := a.numw, numwHeld := {}, tiles := b.tiles, time := { s.time with numwFrom := b.numwNext.time.numwFrom } } := by
  have kept : a.time = s.time := by
    have same := congrArg Hub.time only
    exact same
  have time : b.time = s.time := (congrArg Hub.time cleared).trans kept
  calc s.restored b.numwNext = { s.restored a with numwHeld := {}, tiles := b.tiles, time := { b.time with numwFrom := b.numwNext.time.numwFrom } } := by
        rw [cleared]; rfl
    _ = _ := by rw [only, time]

theorem exec_numwWindowEnd (bad : Option Slot) (s : State) :
    exec (.numwWindowEnd bad) s = run (fun h => h.numwWindowEnd (bad.map Fin.val)) s := rfl

theorem Tasted.numwClear (s : Hub) (tiles : List Nat) : Tasted keys s (s.numwClear tiles) := .doEach (fun s t => .setTile s t _) tiles s

theorem Tasted.numwNext (s : Hub) : Tasted keys s s.numwNext := 
  (Tasted.withTime s _).trans (.withNumwHeld { s with time := { s.time with numwFrom := s.now / s.numwLen * s.numwLen } } {})

theorem numwWindowEnd_collects (s : State) (z k t : Nat) (c : s.hub.calm = true) (en : s.hub.flag F.NUMW_CTRL_EN = true)
    (due : s.hub.numwEnd ≤ s.hub.now) (one : s.hub.openSlots = [z]) (m : t ∈ s.hub.slotTiles z) (kind : k < 8) :
    Answers (.numwWindowEnd none) s fun h =>
      (h.numwPair z k).last = sumNat ((s.hub.slotTiles z).map (fun u => nth (s.hub.tile u).numw k 0)) ∧
      (h.numwPair z k).total = ((s.hub.numwPair z k).total + (h.numwPair z k).last) % 2 ^ 64 ∧ h.tile t = { s.hub.tile t with numw := [] } ∧
      (∀ u, u ∉ s.hub.slotTiles z → h.tile u = s.hub.tile u) ∧ h.numwHeld = {} ∧
      s.hub.rest h = { s.hub with numw := h.numw, numwHeld := h.numwHeld, tiles := h.tiles, time := { s.hub.time with numwFrom := h.time.numwFrom } } ∧
      s.hub.keeps h [] := by
  have e := numwWindowEnd_one en due one m
  obtain ⟨collected, last, total⟩ := numwGather_sums s.hub z (s.hub.slotTiles z) kind
  have cleared := numwClear_only (s.hub.numwGather z (s.hub.slotTiles z)) (s.hub.slotTiles z)
  have emptied := (numwClear_mem m (s.hub.numwGather z (s.hub.slotTiles z))).trans (by rw [collected.tile])
  have others (u : Nat) (n : u ∉ s.hub.slotTiles z) := (numwClear_other n (s.hub.numwGather z (s.hub.slotTiles z))).trans (collected.tile u)
  have changes := (collected.changes.trans (.numwClear _ (s.hub.slotTiles z))).trans (.numwNext _)
  have only := collected.only
  generalize s.hub.numwGather z (s.hub.slotTiles z) = a at *
  generalize a.numwClear (s.hub.slotTiles z) = b at *
  have pairs : b.numw = a.numw := by
    have same := congrArg Hub.numw cleared
    exact same
  refine answers_tasted (exec_numwWindowEnd none s) e changes (by decide) c fun h _ x => ?_
  have numw : h.numw = a.numw := x.numw.trans pairs
  have pair : h.numwPair z k = a.numwPair z k := by rw [Hub.numwPair, numw, Hub.numwPair]
  refine ⟨?_, ?_, (x.tile t).trans emptied, fun u n => (x.tile u).trans (others u n), x.numwHeld, ?_, x.keeps⟩
  · rw [pair, last, Hub.numwSum]
  · rw [pair, total, last]
  · rw [x.rest, numwNext_only only cleared, numw, x.numwHeld, x.tiles, x.time]
    rfl

/-! ### NUMW_CMD (R270, R273, R280) -/

theorem nth_setNth {α : Type} (l : List α) (k : Nat) (d : α) : nth (setNth l k d) k d = d := by
  induction l generalizing k with
  | nil => rfl
  | cons x l ih =>
    cases k with
    | zero => rfl
    | succ k => exact ih k

/-- NUMW_CMD_STATUS after an accepted command. -/
def Hub.numwAccept (s : Hub) : Hub := s.numwStatus St.OK

theorem Tasted.numwAccept (s : Hub) (k : R.NUMW_CMD_STATUS ∈ keys) : Tasted keys s s.numwAccept :=
  .wr s (f := F.NUMW_CMD_STATUS_STATUS) _ k

theorem numwAccept_status (s : Hub) : s.numwAccept.rd F.NUMW_CMD_STATUS_STATUS = St.OK := Hub.rd_wr _ _ _ (by decide)

/-- The spurs of a slot latch a kind's first occurrence anew. -/
def Hub.firstCleared (s : Hub) (tiles : List Nat) (k : Nat) : Hub :=
  doEach tiles s fun s t => s.setTile t { s.tile t with firstScn := setNth (padList 8 none (s.tile t).firstScn) k none }

theorem firstCleared_mem {tiles : List Nat} {t : Nat} (m : t ∈ tiles) (s : Hub) (k : Nat) :
    nth ((s.firstCleared tiles k).tile t).firstScn k none = none := by
  refine doEach_reaches (p := fun _ => True) (q := fun h : Hub => nth (h.tile t).firstScn k none = none)
    (f := fun (s : Hub) t => s.setTile t { s.tile t with firstScn := setNth (padList 8 none (s.tile t).firstScn) k none })
    (fun _ _ _ _ => trivial) (fun h _ => ?_) (fun h u after => ?_) m trivial
  · rw [tile_setTile_same]
    exact nth_setNth _ _ _
  · rw [Hub.tile_setTile]
    split
    · exact nth_setNth _ _ _
    · exact after

theorem firstCleared_only (s : Hub) (tiles : List Nat) (k : Nat) :
    s.firstCleared tiles k = { s with tiles := (s.firstCleared tiles k).tiles } := doEach_setTile_only _ _

theorem Tasted.firstCleared (s : Hub) (tiles : List Nat) (k : Nat) : Tasted keys s (s.firstCleared tiles k) :=
  .doEach (fun s t => .setTile s t _) tiles s

/-- REARM_FIRST changes the pair, then its spurs. -/
theorem rearmFirst_eq (s : Hub) (z k : Nat) :
    s.rearmFirst z k = (s.setNumw z k { s.numwPair z k with fired := false, first := none }).firstCleared (s.slotTiles z) k := rfl

theorem rearmFirst_only (s : Hub) (z k : Nat) : s.rearmFirst z k = { s with numw := (s.rearmFirst z k).numw, tiles := (s.rearmFirst z k).tiles } := by
  rw [rearmFirst_eq, firstCleared_only]
  rfl

theorem rearmFirst_pair (s : Hub) (z k : Nat) : (s.rearmFirst z k).numwPair z k = { s.numwPair z k with fired := false, first := none } := by
  rw [rearmFirst_eq, firstCleared_only]
  exact Tab.get_set_same ..

theorem rearmFirst_mem (s : Hub) {z t : Nat} (m : t ∈ s.slotTiles z) (k : Nat) : nth ((s.rearmFirst z k).tile t).firstScn k none = none :=
  firstCleared_mem m _ k

theorem rearmFirst_other (s : Hub) {z u : Nat} (n : u ∉ s.slotTiles z) (k : Nat) : (s.rearmFirst z k).tile u = s.tile u :=
  doEach_setTile_other n _

theorem Tasted.rearmFirst (s : Hub) (z k : Nat) : Tasted keys s (s.rearmFirst z k) := (Tasted.setNumw s z k _).trans (.firstCleared _ _ _)

theorem exec_rearmFirst (r : Req) (s : State) : exec (.rearmFirst r) s = run (fun h => h.cmd r R.NUMW_CMD 1 fun h => h.numwCmd 1) s := rfl

theorem rearmFirst_rearms (s : State) (r : Req) (z k : Nat) (c : s.hub.calm = true) (w : s.hub.takesWrite r R.NUMW_CMD 1 = true)
    (ok : s.hub.numwCheck 1 = St.OK) (slot : s.hub.rd F.NUMW_SEL_SLOT = z) (kind : s.hub.rd F.NUMW_SEL_KIND = k) :
    Answers (.rearmFirst r) s fun h =>
      h.tookWrite r ∧ h.numwPair z k = { s.hub.numwPair z k with fired := false, first := none } ∧
      (∀ t ∈ s.hub.slotTiles z, nth (h.tile t).firstScn k none = none) ∧ (∀ u, u ∉ s.hub.slotTiles z → h.tile u = s.hub.tile u) ∧
      h.rd F.NUMW_CMD_STATUS_STATUS = St.OK ∧ s.hub.rest h = { s.hub with numw := h.numw, tiles := h.tiles } ∧
      s.hub.keeps h [R.NUMW_CMD_STATUS] := by
  have e : s.hub.numwCmd 1 = s.hub.numwAccept.rearmFirst z k := by
    have slot : s.hub.numwAccept.rd F.NUMW_SEL_SLOT = z := (Hub.rd_wr_apart _ _ _ _ (by decide) (by decide)).trans slot
    have kind : s.hub.numwAccept.rd F.NUMW_SEL_KIND = k := (Hub.rd_wr_apart _ _ _ _ (by decide) (by decide)).trans kind
    rw [Hub.numwAccept] at slot kind ⊢
    simp only [Hub.numwCmd, ok, slot, kind, bne_self_eq_false, BEq.rfl, Bool.false_eq_true, if_false, if_true]
  have changes := (Tasted.numwAccept (keys := [R.NUMW_CMD_STATUS]) s.hub (by decide)).trans (.rearmFirst _ z k)
  have pair := rearmFirst_pair s.hub.numwAccept z k
  have own {u : Nat} (m : u ∈ s.hub.slotTiles z) := rearmFirst_mem s.hub.numwAccept m k
  have others {u : Nat} (n : u ∉ s.hub.slotTiles z) : (s.hub.numwAccept.rearmFirst z k).tile u = s.hub.tile u :=
    rearmFirst_other s.hub.numwAccept n k
  have only := rearmFirst_only s.hub.numwAccept z k
  generalize s.hub.numwAccept.rearmFirst z k = g at *
  refine answers_tasteCmd (exec_rearmFirst r s) w e changes (by decide) c fun h took x =>
    ⟨took, ?_, fun t m => ?_, fun u n => (x.tile u).trans (others n), ?_, ?_, x.keeps⟩
  · rw [Hub.numwPair, x.numw]
    exact pair
  · rw [x.tile]
    exact own m
  · rw [x.rd _ (by decide), only, ← numwAccept_status s.hub]
    rfl
  · rw [x.rest, x.numw, x.tiles]
    exact congrArg s.hub.restored only

/-- A table whose values are mapped by a function that keeps the value of an absent key reads the mapped value. -/
theorem findKey_map_fixed {α : Type} {f : α → α} {d : α} (fixed : f d = d) (k : Nat) (l : List (Nat × α)) :
    findKey k d (l.map fun p => (p.1, f p.2)) = f (findKey k d l) := by
  induction l with
  | nil => exact fixed.symm
  | cons p l ih =>
    rw [List.map_cons, findKey, findKey, ih]
    split <;> rfl

/-- The pairs with their totals zero. -/
def Hub.totalsZero (s : Hub) : Hub := { s with numw := ⟨s.numw.cells.map fun (p : Nat × NumwPair) => (p.1, { p.2 with total := 0 })⟩ }

theorem exec_numwClearStats (r : Req) (s : State) :
    exec (.numwClearStats r) s = run (fun h => h.cmd r R.NUMW_CMD 2 fun h => h.numwCmd 2) s := rfl

theorem numwClearStats_clears (s : State) (r : Req) (z k : Nat) (c : s.hub.calm = true) (w : s.hub.takesWrite r R.NUMW_CMD 2 = true)
    (ok : s.hub.numwCheck 2 = St.OK) :
    Answers (.numwClearStats r) s fun h =>
      h.tookWrite r ∧ h.numwPair z k = { s.hub.numwPair z k with total := 0 } ∧ h.rd F.NUMW_CMD_STATUS_STATUS = St.OK ∧
      s.hub.rest h = { s.hub with numw := h.numw } ∧ s.hub.keeps h [R.NUMW_CMD_STATUS] := by
  have e : s.hub.numwCmd 2 = s.hub.numwAccept.totalsZero := by
    simp only [Hub.numwCmd, ok, bne_self_eq_false, Bool.false_eq_true, if_false, Nat.reduceBEq]
    rfl
  refine answers_tasteCmd (exec_numwClearStats r s) w e ((Tasted.numwAccept _ (by decide)).trans (.withNumw _ _)) (by decide) c
    fun h took x => ⟨took, ?_, ?_, ?_, x.keeps⟩
  · rw [Hub.numwPair, x.numw]
    exact findKey_map_fixed (f := fun p : NumwPair => { p with total := 0 }) rfl _ _
  · rw [x.rd _ (by decide), ← numwAccept_status s.hub]
    rfl
  · rw [x.rest, x.numw]
    rfl

/-- Settles O46: each pair's sum comes from one of the eight collections of its slot, which change pairs alone; the spurs clear after them. -/
theorem the_numeric_watch_collects_at_the_end_of_its_window : Obligations.the_numeric_watch_collects_at_the_end_of_its_window :=
  ⟨numwWindowEnd_collects, rearmFirst_rearms, numwClearStats_clears⟩

end Sys2Proof.Machine
end

section
/-! SUPPORT. What the hang controller and the reset ladder change on a calm hub: their registers, the monitors, the audits, the fences, the
ladder and the tiles. -/

namespace Sys2Proof.Machine

/-! ### Changes of the units of chapter 10 -/

/-- `h` with everything that the hang controller and the ladder may change taken from `s`. -/
def Hub.offHang (s h : Hub) : Hub :=
  { s.restored h with hang := s.hang, hangCtl := s.hangCtl, ladder := s.ladder, tiles := s.tiles }

/-- No step of the policy in progress, if there is one, has ended. -/
def Monitor.idle (m : Monitor) : Bool := m.policy == 0 || !m.pdue

/-- No divergence is handed over, and no policy of a slot or of a lost package goes on. -/
def Hub.policiesWait (h : Hub) : Prop :=
  h.hangCtl.reports = [] ∧ (h.hang.cells.all fun p => p.2.idle) = true ∧ (h.hangCtl.peers.all fun p => !p.due) = true

/-- `h` comes from `s` by changing the registers of the keys, the bus and the records of the units of chapter 10, and by raising occurrences,
RELEASED not among them; no policy comes to go on. -/
structure Hung (keys : List Nat) (s h : Hub) : Prop where
  core : s.offHang h = s
  regs : ∀ a b, regKey a b ∉ keys → h.regB a b = s.regB a b
  quiet : ∀ o ∈ h.occs, o ∈ s.occs ∨ o.code ≠ Ev.RELEASED
  kept : ∀ o ∈ s.occs, o ∈ h.occs
  waits : s.policiesWait → h.policiesWait

variable {keys : List Nat}

theorem Hung.trans {s t u : Hub} (h1 : Hung keys s t) (h2 : Hung keys t u) : Hung keys s u := by
  refine ⟨?_, fun a b n => (h2.regs a b n).trans (h1.regs a b n), fun o m => (h2.quiet o m).elim (h1.quiet o) .inr,
    fun o m => h2.kept o (h1.kept o m), fun c => h2.waits (h1.waits c)⟩
  have e : s.offHang u = s.offHang (t.offHang u) := rfl
  rw [e, h2.core, h1.core]

/-- A change of the records of the units of chapter 10 alone. -/
theorem Hung.of_core {s h : Hub} (core : { s.offHang h with regs := h.regs, occs := h.occs } = s) (waits : s.policiesWait → h.policiesWait) :
    Hung keys s h := by
  have same {α : Type} (g : Hub → α) := congrArg g core
  have regs : h.regs = s.regs := same Hub.regs
  have occs : h.occs = s.occs := same Hub.occs
  refine ⟨?_, fun a b _ => by rw [Hub.regB, Hub.regB, regs], fun o m => .inl (occs ▸ m), fun o m => occs ▸ m, waits⟩
  rw [regs, occs] at core; exact core

theorem Hung.refl (s : Hub) : Hung keys s s := .of_core rfl id

theorem Hung.withTiles (s : Hub) (x : Tab Tile) : Hung keys s { s with tiles := x } := .of_core rfl id

theorem Hung.setTile (s : Hub) (t : Nat) (x : Tile) : Hung keys s (s.setTile t x) := .withTiles s _

theorem Hung.withBus (s : Hub) (x : Tab BusResp) : Hung keys s { s with bus := x } := .of_core rfl id

theorem Hung.respond (s : Hub) (r : Req) (v st : Nat) : Hung keys s (s.respond r v st) := .withBus s _

theorem Hung.mapLadder (s : Hub) (f : Ladder → Ladder) : Hung keys s (s.mapLadder f) := .of_core rfl id

/-- A change of the audits, the beats or the packages seen lost. -/
theorem Hung.withHangCtl (s : Hub) {x : HangCtl} (reports : x.reports = s.hangCtl.reports) (peers : x.peers = s.hangCtl.peers) :
    Hung keys s { s with hangCtl := x } := by
  refine .of_core rfl fun ⟨handed, idle, due⟩ => ⟨reports.trans handed, idle, ?_⟩
  rwa [← peers] at due

/-- A monitor whose policy waits as before. -/
theorem Hung.setMon (s : Hub) (z : Nat) {m : Monitor} (same : m.idle = (s.mon z).idle) : Hung keys s (s.setMon z m) := by
  refine Hung.of_core (h := { s with hang := s.hang.set z m }) rfl fun ⟨handed, idle, due⟩ => ⟨handed, ?_, due⟩
  exact (all_putKey (p := Monitor.idle) (d := {}) (k := z) (l := s.hang.cells) rfl same).trans idle

theorem Hung.setReg (s : Hub) {a : Nat} (v : Nat) (k : a ∈ keys) : Hung keys s (s.setReg a v) := by
  refine ⟨rfl, fun a' b' n => Hub.regB_setRegB_ne s v fun e => n ?_, fun _ m => .inl m, fun _ m => m, id⟩
  rw [e, regKey_zero]; exact k

theorem Hung.setReg64 (s : Hub) {a : Nat} (v : Nat) (lo : a ∈ keys) (hi : a + 4 ∈ keys) : Hung keys s (s.setReg64 a v) :=
  (Hung.setReg s _ lo).trans (.setReg _ _ hi)

theorem Hung.wr (s : Hub) {f : Fld} (v : Nat) (k : f.addr ∈ keys) : Hung keys s (s.wr f v) := .setReg s _ k

theorem Hung.err (s : Hub) {e : ErrBit} (k : (F.PG_ERROR_ERRORS.lane e.page).addr ∈ keys)
    (k' : (F.PG_ERROR_INFO_BIT.lane e.page).addr ∈ keys) : Hung keys s (s.err e) := (Hung.wr s _ k).trans (.wr _ _ k')

theorem Hung.raiseOf (s : Hub) {c : Nat} (u : Nat) (n : c ≠ Ev.RELEASED) : Hung keys s (s.raiseOf c u) := by
  refine ⟨rfl, fun _ _ _ => rfl, fun o m => ?_, fun o m => List.mem_append_left _ m, id⟩
  rcases List.mem_append.mp m with m | m
  · exact .inl m
  · rw [List.mem_singleton.mp m]; exact .inr n

theorem Hung.doEach {α : Type} {f : Hub → α → Hub} (hf : ∀ s a, Hung keys s (f s a)) (l : List α) (s : Hub) :
    Hung keys s (Machine.doEach l s f) :=
  doEach_keeps (Hung keys s) f (fun t a h => h.trans (hf t a)) l s (.refl s)

theorem Hung.rdB {s h : Hub} (k : Hung keys s h) (f : Fld) (b : Nat) (n : regKey f.addr b ∉ keys) : h.rdB f b = s.rdB f b := by
  simp only [Hub.rdB, k.regs f.addr b n]

theorem Hung.rd {s h : Hub} (k : Hung keys s h) (f : Fld) (n : f.addr ∉ keys) : h.rd f = s.rd f := k.rdB f 0 (by rwa [regKey_zero])

theorem Hung.time {s h : Hub} (k : Hung keys s h) : h.time = s.time := show (s.offHang h).time = _ by rw [k.core]

theorem Hung.unplanted {s h : Hub} (k : Hung keys s h) (c : s.calm = true) : h.rel.inject = none :=
  (congrArg (fun h => h.rel.inject) k.core).trans (calm_unplanted c)

theorem Hung.untraced {s h : Hub} (k : Hung keys s h) (n : ∀ a ∈ calmKeys, a ∉ keys) (c : s.untraced) : h.untraced := by
  unfold Hub.untraced Hub.flag at *
  rwa [k.rd F.TRACE_STATE_RUNNING (n _ (by simp [calmKeys])), k.rd F.TRACE_TRIG_CTRL_HUBEV_EN (n _ (by simp [calmKeys]))]

/-- The ladder waits for nothing but the tiles of a level below FIELD. -/
def Ladder.waitsForTiles (l : Ladder) : Bool := !l.active || (l.begun && l.level < Lv.FIELD)

/-- Nothing comes to wait where no register is touched that `calm` looks at, and the ladder is as far as before. -/
theorem Hung.still {s h : Hub} (k : Hung keys s h) (n : ∀ a ∈ calmKeys, a ∉ keys) (lad : h.ladder.waitsForTiles = s.ladder.waitsForTiles)
    (c : s.still) : h.still := by
  have phase := k.rd F.HARV_STATUS_PHASE (n _ (by simp [calmKeys]))
  obtain ⟨reports, policies, peers, reqs, soft, ladder, drain, columns, close⟩ := c
  obtain ⟨reports, policies, peers⟩ := k.waits ⟨reports, policies, peers⟩
  have far : s.ladder.waitsForTiles = true := by simpa [Ladder.waitsForTiles] using ladder
  rw [← lad] at far
  have ladder : h.ladder.active = false ∨ h.ladder.begun = true ∧ h.ladder.level < Lv.FIELD := by
    simpa [Ladder.waitsForTiles] using far
  have same {α : Type} (g : Hub → α) (n : ∀ u, g (s.offHang u) = g u) : g h = g s := (n h).symm.trans (congrArg g k.core)
  rw [← same Hub.harv fun _ => rfl] at drain columns
  rw [← same Hub.harvReady fun _ => rfl, ← phase] at close
  rw [← same Hub.link fun _ => rfl] at reqs
  rw [← same Hub.softReset fun _ => rfl] at soft
  exact ⟨reports, policies, peers, reqs, soft, ladder, drain, columns, close⟩

/-! ### The command's whole effect -/

section
variable {s h t : Hub} (x : TasteEffect keys s h t)
include x

theorem TasteEffect.hang : t.hang = h.hang := x.field Hub.hang (fun _ => rfl) fun _ => rfl
theorem TasteEffect.hangCtl : t.hangCtl = h.hangCtl := x.field Hub.hangCtl (fun _ => rfl) fun _ => rfl
theorem TasteEffect.ladder : t.ladder = h.ladder := x.field Hub.ladder (fun _ => rfl) fun _ => rfl
theorem TasteEffect.harv : t.harv = h.harv := x.field Hub.harv (fun _ => rfl) fun _ => rfl
theorem TasteEffect.mon (z : Nat) : t.mon z = h.mon z := by rw [Hub.mon, x.hang, Hub.mon]

/-- A unit that changes the monitors. -/
theorem TasteEffect.rest_hang (only : s.restored h = { s with hang := h.hang }) : s.rest t = { s with hang := t.hang } := by
  rw [x.rest, x.hang, only]

/-- A unit that changes the audits, the beats or the policies of lost packages. -/
theorem TasteEffect.rest_hangCtl (only : s.restored h = { s with hangCtl := h.hangCtl }) : s.rest t = { s with hangCtl := t.hangCtl } := by
  rw [x.rest, x.hangCtl, only]

/-- A unit that changes the monitors and the audits. -/
theorem TasteEffect.rest_hang_hangCtl (only : s.restored h = { s with hang := h.hang, hangCtl := h.hangCtl }) :
    s.rest t = { s with hang := t.hang, hangCtl := t.hangCtl } := by rw [x.rest, x.hang, x.hangCtl, only]

/-- A unit that changes the monitors and the tiles. -/
theorem TasteEffect.rest_hang_tiles (only : s.restored h = { s with hang := h.hang, tiles := h.tiles }) :
    s.rest t = { s with hang := t.hang, tiles := t.tiles } := by rw [x.rest, x.hang, x.tiles, only]

end

/-- `h` comes from `s` with the link, the pins, the memories and the coopers of `s` and every register but those of the keys, nothing is left to
be written, and RELEASED is not raised. -/
structure Apart (keys : List Nat) (s h : Hub) : Prop where
  link : h.link = s.link
  pins : h.pins = s.pins
  store : h.store = s.store
  coops : h.coops = s.coops
  writes : h.writes = []
  regs : ∀ a b, regKey a b ∉ keys → h.regB a b = s.regB a b
  quiet : ∀ o ∈ h.occs, o.code ≠ Ev.RELEASED

theorem Hung.apart {s h : Hub} (k : Hung keys s h) (c : s.calm = true) : Apart keys s h := by
  obtain ⟨o, w⟩ := calm_nothing_left c
  have same {α : Type} (g : Hub → α) := congrArg g k.core
  exact ⟨same Hub.link, same Hub.pins, same Hub.store, same Hub.coops, (same Hub.writes).trans w, k.regs,
    fun x m => (k.quiet x m).resolve_left (by simp [o])⟩

/-- What a command leaves, seen from the hub `s` before its unit changed it. -/
theorem Apart.rest_ran {s h t : Hub} (k : Apart keys s h) (c : s.calm = true) (r : Ran false h s.store t) :
    s.rest t = s.restored h := by
  obtain ⟨o, w⟩ := calm_nothing_left c
  have told (c : Nat) : (t.coop c).told = (s.coop c).told := by rw [r.told rfl c, Hub.coop, Hub.coop, k.coops]
  calc s.rest t = { h.rest t with regs := s.regs, bus := s.bus, pins := s.pins, coops := s.coops } := by
        simp only [Hub.rest, told, and_self, if_true, k.link]
    _ = s.restored h := by
        rw [r.rest]
        simp only [Hub.restored, k.writes, o, Store.writeAll, List.foldl_nil, ← k.store, ← k.pins, ← k.coops]

/-- What follows a command on its own edge when nothing goes on: its events are delivered. -/
theorem settle_followed {h : Hub} (fix : h.follow = h) (u : h.untraced) (n : ∀ o ∈ h.occs, o.code ≠ Ev.RELEASED) :
    Deliv false h h.settle ∧ h.settle.occs = [] ∧ (∀ o ∈ h.occs, ∀ p i, eventBit o.code (o.unit.getD 0) = some (p, i) → i < 32 →
      bitAt (h.settle.reg (R.PG_EVENT + p * 0x1000)) i = true) := by
  have e : h.settle = Hub.deliverAll 64 h.degradedCheck := by simp only [Hub.settle, fix]
  have d := Deliv.degradedCheck (rel := false) h
  obtain ⟨d1, e1, b1⟩ := deliverAll_deliv 64 _ (d.untraced u) (fun r o m => (d.quiet r o m).elim (n o) id)
  rw [e]
  exact ⟨d.trans d1, e1, fun o m => b1 (by decide) o (degradedCheck_occs h o m)⟩

/-- A command whose unit leaves nothing that goes on by itself answers what its unit's effect shows. -/
theorem answers_followed {i : Instr} {s : State} {p : Hub → Prop} {f : Hub → Hub} {h : Hub} (x : exec i s = run f s) (e : f s.hub = h)
    (k : Apart keys s.hub h) (fix : h.follow = h) (u : h.untraced) (c : s.hub.calm = true)
    (q : ∀ t, t.bus = h.bus → TasteEffect keys s.hub h t → p t) : Answers i s p := by
  subst e
  obtain ⟨d, left, b⟩ := settle_followed fix u k.quiet
  have r := d.ran s.hub.store left b
  have regs (a b : Nat) (q : eventKey (regKey a b) = false) := r.keeps a b q (by simp)
  exact ⟨_, x, rfl, q _ r.bus ⟨k.rest_ran c r, fun a b q m => (regs a b q).trans (k.regs a b m), regs, r.shows⟩⟩

/-- A command answers what its unit's effect shows. -/
theorem answers_hung {i : Instr} {s : State} {p : Hub → Prop} {f : Hub → Hub} {h : Hub} (x : exec i s = run f s) (e : f s.hub = h)
    (k : Hung keys s.hub h) (lad : h.ladder.waitsForTiles = s.hub.ladder.waitsForTiles) (n : ∀ a ∈ calmKeys, a ∉ keys)
    (c : s.hub.calm = true) (q : ∀ t, t.bus = h.bus → TasteEffect keys s.hub h t → p t) : Answers i s p :=
  answers_followed x e (k.apart c) (follow_still (k.still n lad (calm_still c))) (k.untraced n (calm_untraced c)) c q

/-- A command register that the bus takes: what its unit does, and the requester sees it carried out. -/
theorem answers_hungCmd {i : Instr} {s : State} {p : Hub → Prop} {r : Req} {a v : Nat} {f : Hub → Hub} {h : Hub}
    (x : exec i s = run (fun h => h.cmd r a v f) s) (w : s.hub.takesWrite r a v = true) (e : f s.hub = h) (k : Hung keys s.hub h)
    (lad : h.ladder.waitsForTiles = s.hub.ladder.waitsForTiles) (n : ∀ a ∈ calmKeys, a ∉ keys) (c : s.hub.calm = true)
    (q : ∀ t, t.tookWrite r → TasteEffect keys s.hub h t → p t) : Answers i s p := by
  have taken : s.hub.cmd r a v f = h.respond r 0 St.OK := by
    rw [cmd_taken w (by rw [e]; exact k.unplanted c), e]
  refine answers_hung x taken (k.trans (.respond _ _ _ _)) lad n c fun t bus y => q t ?_ ⟨y.rest, y.keeps, y.regs, y.shows⟩
  rw [Hub.tookWrite, bus]
  exact respond_took _ _

/-! ### Monitors -/

theorem mon_setMon (s : Hub) (z y : Nat) (m : Monitor) : (s.setMon z m).mon y = if y = z then m else s.mon y := Tab.get_set ..

theorem mon_setMon_same (s : Hub) (z : Nat) (m : Monitor) : (s.setMon z m).mon z = m := by rw [mon_setMon, if_pos rfl]

theorem mon_setMon_other (s : Hub) {z y : Nat} (m : Monitor) (n : y ≠ z) : (s.setMon z m).mon y = s.mon y := by
  rw [mon_setMon, if_neg n]

/-- A banked register is none of a list of registers of other addresses. -/
theorem regKey_not_mem {a : Nat} (b : Nat) {keys : List Nat} (n : ∀ k ∈ keys, k % 0x100000 ≠ a % 0x100000) : regKey a b ∉ keys := by
  intro m
  have := n _ m
  simp only [regKey] at this
  omega

end Sys2Proof.Machine
end

section
/-! SUPPORT. The fault of a slot whose policy is NONE: the registers of the last fault (R312) and the state FIRED (R286, R291). -/

namespace Sys2Proof.Machine

variable {keys : List Nat}

/-! ### The record of the last fault (R312) and the state FIRED (R286) -/

/-- The registers of the last fault. -/
def lastKeys : List Nat := [R.HANG_LAST_FAULT, R.HANG_LAST_DELTA, R.HANG_LAST_GCN_LO, R.HANG_LAST_GCN_HI]

/-- TILE and TILE_VALID of HANG_LAST_FAULT. -/
def namedTile : Option Nat → Nat
  | some t => t % 0x4000 + 0x4000
  | none => 0

theorem hangLast_eq (s : Hub) (z kind : Nat) (tile : Option Nat) (all : Bool) (delta : Int) :
    s.hangLast z kind tile all delta =
      ((s.setReg R.HANG_LAST_FAULT (namedTile tile + b2n all * 0x8000 + z * 0x10000 + kind * 2 ^ 22)).setReg R.HANG_LAST_DELTA
        (satSigned 32 delta)).setReg64 R.HANG_LAST_GCN_LO s.now := by
  have now (v : Nat) : (s.setReg R.HANG_LAST_FAULT v).now = s.now := by
    rw [Hub.now, Hub.timeOk, Hub.epoch, Hub.rd_setReg_ne _ _ _ (by decide)]; rfl
  rw [← now (namedTile tile + b2n all * 0x8000 + z * 0x10000 + kind * 2 ^ 22)]
  cases tile <;> rfl

theorem Hung.hangLast (s : Hub) (z kind : Nat) (tile : Option Nat) (all : Bool) (delta : Int) (sub : ∀ a ∈ lastKeys, a ∈ keys) :
    Hung keys s (s.hangLast z kind tile all delta) := by
  rw [hangLast_eq]
  exact ((Hung.setReg s _ (sub _ (by decide))).trans (.setReg _ _ (sub _ (by decide)))).trans
    (.setReg64 _ _ (sub _ (by decide)) (sub _ (by decide)))

theorem satSigned_lt (w : Nat) (i : Int) : satSigned w i < 2 ^ w := by
  have pos : (0 : Int) < ((2 ^ w : Nat) : Int) := by exact_mod_cast Nat.two_pow_pos w
  simp only [satSigned, unsigned]
  rw [Int.toNat_lt (Int.emod_nonneg _ pos.ne')]
  exact Int.emod_lt_of_pos _ pos

/-- What the registers of the last fault show. -/
theorem hangLast_shows (s : Hub) (z kind : Nat) (tile : Option Nat) (all : Bool) (delta : Int) :
    (s.hangLast z kind tile all delta).reg R.HANG_LAST_FAULT =
        (namedTile tile + b2n all * 0x8000 + z * 0x10000 + kind * 2 ^ 22) % 2 ^ 32 ∧
      (s.hangLast z kind tile all delta).reg R.HANG_LAST_DELTA = satSigned 32 delta ∧
      (s.hangLast z kind tile all delta).reg64 R.HANG_LAST_GCN_LO = s.now % 2 ^ 64 := by
  have gcn (g : Hub) {a : Nat} (lo : a ≠ R.HANG_LAST_GCN_LO) (hi : a ≠ R.HANG_LAST_GCN_LO + 4) :
      (g.setReg64 R.HANG_LAST_GCN_LO s.now).reg a = g.reg a := by
    rw [Hub.setReg64, Hub.reg_setReg_ne _ _ hi, Hub.reg_setReg_ne _ _ lo]
  rw [hangLast_eq]
  refine ⟨?_, ?_, Hub.reg64_setReg64 _ _ _⟩
  · rw [gcn _ (by decide) (by decide), Hub.reg_setReg_ne _ _ (by decide), Hub.reg_setReg]
  · rw [gcn _ (by decide) (by decide), Hub.reg_setReg, Nat.mod_eq_of_lt (satSigned_lt 32 delta)]

theorem reg_hangLast_other (s : Hub) {z kind a : Nat} {tile : Option Nat} {all : Bool} {delta : Int} (n : a ∉ lastKeys) :
    (s.hangLast z kind tile all delta).reg a = s.reg a :=
  (Hung.hangLast s z kind tile all delta fun _ m => m).regs a 0 (by rwa [regKey_zero])

/-- The slot's monitor FIRED. -/
def Hub.firedOf (s : Hub) (z : Nat) : Hub :=
  { s with hang := if (s.mon z).st == 3 then s.hang else s.hang.set z { s.mon z with st := 3 } }

/-- A fault of a slot whose policy is NONE makes its monitor FIRED and no more (R286, R291). -/
theorem hangFire_none (s : Hub) (z code : Nat) (tile : Option Nat) : s.hangFire z 0 code tile = s.firedOf z := by
  unfold Hub.hangFire Hub.firedOf
  by_cases was : (s.mon z).st == 3 <;> simp [was, Hub.setMon]

theorem mon_firedOf (s : Hub) (z : Nat) : (s.firedOf z).mon z = { s.mon z with st := 3 } := by
  by_cases was : (s.mon z).st = 3
  · have same : s.firedOf z = s := by simp [Hub.firedOf, was]
    rw [same, ← was]
  · have new : s.firedOf z = s.setMon z { s.mon z with st := 3 } := by simp [Hub.firedOf, Hub.setMon, was]
    rw [new, mon_setMon_same]

theorem mon_firedOf_other (s : Hub) {z y : Nat} (n : y ≠ z) : (s.firedOf z).mon y = s.mon y := by
  unfold Hub.firedOf Hub.mon
  split
  · rfl
  · exact Tab.get_set_ne _ n _ _

theorem Hung.firedOf (s : Hub) (z : Nat) : Hung keys s (s.firedOf z) := by
  unfold Hub.firedOf
  split
  · exact .refl s
  · exact .setMon s z rfl

/-- The fault of a slot whose policy is NONE: recorded, and the monitor FIRED. -/
def Hub.faulted (s : Hub) (z kind : Nat) (tile : Option Nat) (all : Bool) (delta : Int) : Hub := (s.hangLast z kind tile all delta).firedOf z

theorem Hung.faulted (s : Hub) (z kind : Nat) (tile : Option Nat) (all : Bool) (delta : Int) (sub : ∀ a ∈ lastKeys, a ∈ keys) :
    Hung keys s (s.faulted z kind tile all delta) := (Hung.hangLast s z kind tile all delta sub).trans (.firedOf _ z)

/-- A slot whose DIV_POLICY is NONE is handled as divergent (R291). -/
theorem diverge_none {s : Hub} {z : Nat} (policy : s.rdB F.HANG_MON_CFG_DIV_POLICY z = 0) (kind code : Nat) (tile : Option Nat) (delta : Int) :
    s.diverge z kind code tile delta = s.faulted z kind tile false delta := by
  rw [Hub.diverge, policy, hangFire_none, Hub.faulted]

theorem reg_firedOf (s : Hub) (z a : Nat) : (s.firedOf z).reg a = s.reg a := rfl

theorem reg64_firedOf (s : Hub) (z a : Nat) : (s.firedOf z).reg64 a = s.reg64 a := rfl

/-- What a command shows whose unit ends with the fault of a slot whose policy is NONE. -/
theorem TasteEffect.faulted {s g t : Hub} {z kind : Nat} {tile : Option Nat} {all : Bool} {delta : Int}
    (x : TasteEffect keys s (g.faulted z kind tile all delta) t) :
    t.mon z = { g.mon z with st := 3 } ∧ (∀ y, y ≠ z → t.mon y = g.mon y) ∧
      t.reg R.HANG_LAST_FAULT = (namedTile tile + b2n all * 0x8000 + z * 0x10000 + kind * 2 ^ 22) % 2 ^ 32 ∧
      t.reg R.HANG_LAST_DELTA = satSigned 32 delta ∧ t.reg64 R.HANG_LAST_GCN_LO = g.now % 2 ^ 64 := by
  obtain ⟨fault, diff, gcn⟩ := hangLast_shows g z kind tile all delta
  have mon (y : Nat) : (g.hangLast z kind tile all delta).mon y = g.mon y := rfl
  refine ⟨?_, fun y n => ?_, ?_, ?_, ?_⟩
  · rw [x.mon, Hub.faulted, mon_firedOf, mon]
  · rw [x.mon, Hub.faulted, mon_firedOf_other _ n, mon]
  · rw [x.reg (by decide), Hub.faulted, reg_firedOf, fault]
  · rw [x.reg (by decide), Hub.faulted, reg_firedOf, diff]
  · rw [x.reg64 (by decide) (by decide), Hub.faulted, reg64_firedOf, gcn]

/-- An event raised before the end of a unit is among those it leaves. -/
theorem Hung.raised {s h : Hub} {code unit : Nat} (k : Hung keys s h) (m : ∃ o ∈ s.occs, o.code = code ∧ o.unit.getD 0 = unit) :
    ∃ o ∈ h.occs, o.code = code ∧ o.unit.getD 0 = unit := by
  obtain ⟨o, m, eq⟩ := m
  exact ⟨o, k.kept o m, eq⟩

end Sys2Proof.Machine
end

section
/-! SUPPORT. Beats, timers, strobe faults and audits (R283 to R290, R311, R312) on a calm hub. -/

namespace Sys2Proof.Machine

/-! ### Beats (R283, R284) -/

theorem exec_beatReportRx (z : Slot) (n : Nat) (s : State) : exec (.beatReportRx z n) s = run (fun h => h.beatReport z n) s := rfl

theorem beatTaken_none {s : Hub} (none' : s.hangCtl.beats = []) (z n : Nat) : s.beatTaken z n = s := by
  simp only [Hub.beatTaken, none', List.find?_nil]

/-- The durations of a monitor after a complete beat: the one that ends is recorded unless its epoch is skipped. -/
def Monitor.beaten (m : Monitor) : List Nat := if m.openSkip then m.durs else (m.timer :: m.durs).take 16

theorem beatReportRx_complete (s : State) (z : Slot) (n : Nat) (c : s.hub.calm = true) (en : s.hub.flag F.HANG_CTRL_BEAT_EN = true)
    (held : (s.hub.dom z).st ≠ .empty) (none' : s.hub.hangCtl.beats = []) (all : n = (s.hub.countedTiles z).length)
    (mon : s.hub.rdB F.HANG_MON_CFG_EN z = 1) (on : (s.hub.mon z).st ≠ 0) :
    Answers (.beatReportRx z n) s fun h =>
      (h.mon z).timer = 0 ∧
      (h.mon z).durs = (if (s.hub.mon z).openSkip then (s.hub.mon z).durs else ((s.hub.mon z).timer :: (s.hub.mon z).durs).take 16) ∧
      (h.mon z).openSkip = false ∧ (h.mon z).st = s.hub.monState z (h.mon z).durs ∧ (h.mon z).policy = (s.hub.mon z).policy ∧
      (∀ y, y ≠ (z : Nat) → h.mon y = s.hub.mon y) ∧ s.hub.rest h = { s.hub with hang := h.hang } ∧ s.hub.keeps h [] := by
  have e : s.hub.beatReport z n = s.hub.setMon z { s.hub.mon z with
      durs := (s.hub.mon z).beaten, timer := 0, openSkip := false, st := s.hub.monState z (s.hub.mon z).beaten } := by
    simp only [Hub.beatReport, beatTaken_none none', en, mon, all, beq_iff_eq, Bool.not_true, Bool.or_self,
      beq_eq_false_iff_ne.mpr held, beq_eq_false_iff_ne.mpr on, Nat.reduceBEq, Bool.false_eq_true, if_false, if_true]
    rfl
  refine answers_hung (exec_beatReportRx z n s) e (keys := []) (.setMon _ _ rfl) rfl (by decide) c fun h _ x => ?_
  have own := (x.mon z).trans (mon_setMon_same _ _ _)
  exact ⟨congrArg Monitor.timer own, congrArg Monitor.durs own, congrArg Monitor.openSkip own, by rw [own], by rw [own],
    fun y o => (x.mon y).trans (mon_setMon_other _ _ o), x.rest_hang rfl, x.keeps⟩

/-- An audit wave for a partial beat leaves (R283). -/
def Hub.partialAudit (s : Hub) (z : Nat) : Hub :=
  { s with hangCtl := { s.hangCtl with audits := s.hangCtl.audits ++ [{ slot := z, gq := s.time.hclk + 32, names := true }] } }

theorem Hung.partialAudit (s : Hub) (z : Nat) : Hung keys s (s.partialAudit z) := .withHangCtl s rfl rfl

theorem beatReportRx_partial (s : State) (z : Slot) (n : Nat) (c : s.hub.calm = true) (en : s.hub.flag F.HANG_CTRL_BEAT_EN = true)
    (held : (s.hub.dom z).st ≠ .empty) (audited : (s.hub.dom z).stopNow = false) (none' : s.hub.hangCtl.beats = [])
    (part : n ≠ (s.hub.countedTiles z).length) (policy : s.hub.rdB F.HANG_MON_CFG_DIV_POLICY z = 0) :
    Answers (.beatReportRx z n) s fun h =>
      (h.mon z).st = 3 ∧ h.hangCtl.audits = s.hub.hangCtl.audits ++ [{ slot := z, gq := s.hub.time.hclk + 32, names := true }] ∧
      h.reg R.HANG_LAST_FAULT = z * 0x10000 + 3 * 2 ^ 22 ∧ h.reg64 R.HANG_LAST_GCN_LO = s.hub.now % 2 ^ 64 ∧
      h.shows Ev.BEAT_PARTIAL z = true ∧ s.hub.rest h = { s.hub with hang := h.hang, hangCtl := h.hangCtl } ∧
      s.hub.keeps h [R.HANG_LAST_FAULT, R.HANG_LAST_DELTA, R.HANG_LAST_GCN_LO, R.HANG_LAST_GCN_HI] := by
  have e : s.hub.beatReport z n = ((s.hub.raiseOf Ev.BEAT_PARTIAL z).partialAudit z).faulted z Fk.PARTIAL none false 0 := by
    have stop : ((s.hub.raiseOf Ev.BEAT_PARTIAL z).dom z).stopNow = false := audited
    have policy : ((s.hub.raiseOf Ev.BEAT_PARTIAL z).partialAudit z).rdB F.HANG_MON_CFG_DIV_POLICY z = 0 := policy
    rw [← diverge_none policy _ Ev.BEAT_PARTIAL]
    simp only [Hub.beatReport, beatTaken_none none', en, beq_eq_false_iff_ne.mpr held, beq_eq_false_iff_ne.mpr part, stop, Bool.not_true,
      Bool.or_self, Bool.false_eq_true, if_false]
    rfl
  have k1 : Hung lastKeys (s.hub.raiseOf Ev.BEAT_PARTIAL z) _ := (Hung.partialAudit _ z).trans (.faulted _ z Fk.PARTIAL none false 0 fun _ m => m)
  refine answers_hung (exec_beatReportRx z n s) e ((Hung.raiseOf s.hub z (c := Ev.BEAT_PARTIAL) (by decide)).trans k1) rfl (by decide) c
    fun h _ x => ?_
  obtain ⟨own, -, fault, -, gcn⟩ := x.faulted
  refine ⟨by rw [own], congrArg HangCtl.audits x.hangCtl, fault.trans ?_, gcn,
    x.shows_raised (k1.raised (raiseOf_raised _ _ _)) fun _ _ e => by cases e; decide, x.rest_hang_hangCtl rfl, x.keeps⟩
  simp only [namedTile, b2n, Fk.PARTIAL, Bool.false_eq_true, if_false]
  omega

/-! ### Timers (R286) -/

theorem exec_hangThresholdExpiry (s : State) : exec .hangThresholdExpiry s = run Hub.hangExpiry s := rfl

theorem hangThresholdExpiry_fires (s : State) (z : Nat) (c : s.hub.calm = true) (slots : s.hub.openSlots = [z])
    (on : (s.hub.mon z).st = 1 ∨ (s.hub.mon z).st = 2) (en : s.hub.rdB F.HANG_MON_CFG_EN z = 1)
    (late : s.hub.hangThreshold z < (s.hub.mon z).timer) (policy : s.hub.rdB F.HANG_MON_CFG_BEAT_POLICY z = 0) :
    Answers .hangThresholdExpiry s fun h =>
      h.mon z = { s.hub.mon z with st := 3 } ∧ (∀ y, y ≠ z → h.mon y = s.hub.mon y) ∧ h.reg R.HANG_LAST_FAULT = z * 0x10000 % 2 ^ 32 ∧
      h.shows Ev.HANG_BEAT z = true ∧ s.hub.rest h = { s.hub with hang := h.hang } ∧
      s.hub.keeps h [R.HANG_LAST_FAULT, R.HANG_LAST_DELTA, R.HANG_LAST_GCN_LO, R.HANG_LAST_GCN_HI] := by
  have k1 : Hung lastKeys (s.hub.raiseOf Ev.HANG_BEAT z) _ := .hangLast _ z Fk.BEAT none false 0 fun _ m => m
  have e : s.hub.hangExpiry = (s.hub.raiseOf Ev.HANG_BEAT z).faulted z Fk.BEAT none false 0 := by
    have on : ((s.hub.mon z).st == 1 || (s.hub.mon z).st == 2) = true := by simpa using on
    have policy : ((s.hub.raiseOf Ev.HANG_BEAT z).hangLast z Fk.BEAT none false 0).rdB F.HANG_MON_CFG_BEAT_POLICY z = 0 :=
      (k1.rdB _ _ (regKey_not_mem z (by decide))).trans policy
    simp only [Hub.hangExpiry, slots, doEach_cons, doEach_nil, on, en, late, beq_self_eq_true, Bool.and_self, decide_true, if_true, policy,
      hangFire_none]
    rfl
  have k2 : Hung lastKeys (s.hub.raiseOf Ev.HANG_BEAT z) _ := .faulted _ z Fk.BEAT none false 0 fun _ m => m
  refine answers_hung (exec_hangThresholdExpiry s) e ((Hung.raiseOf s.hub z (c := Ev.HANG_BEAT) (by decide)).trans k2) rfl (by decide) c
    fun h _ x => ?_
  obtain ⟨own, other, fault, -, -⟩ := x.faulted
  refine ⟨own, other, fault.trans ?_, x.shows_raised (k2.raised (raiseOf_raised _ _ _)) fun _ _ e => by cases e; decide, x.rest_hang rfl,
    x.keeps⟩
  simp only [namedTile, b2n, Fk.BEAT, Nat.zero_add, Nat.zero_mul, Nat.add_zero, Bool.false_eq_true, if_false]

/-! ### Strobe faults (R287) -/

theorem exec_strobeFaultRx (t : TileId) (s : State) : exec (.strobeFaultRx t) s = run (fun h => h.strobeReport t) s := rfl

/-- The strobe fault of a tile is latched. -/
def Hub.strobeLatched (s : Hub) (t : Nat) : Hub := s.setTile t { s.tile t with strobeFault := true, strobeDue := false }

theorem strobeFaultRx_latches (s : State) (t : TileId) (z : Nat) (c : s.hub.calm = true) (settled : (s.hub.tile t).readmit ≠ 2)
    (en : s.hub.flag F.HANG_CTRL_STROBE_EN = true) (ctx : (s.hub.tile t).st = .inContext) (valid : (s.hub.tile t).scnValid = true)
    (new : (s.hub.tile t).strobeFault = false) (slot : (s.hub.tile t).slot = z) (policy : s.hub.rdB F.HANG_MON_CFG_DIV_POLICY z = 0) :
    Answers (.strobeFaultRx t) s fun h =>
      h.tile t = { s.hub.tile t with strobeFault := true, strobeDue := false } ∧ (∀ u, u ≠ (t : Nat) → h.tile u = s.hub.tile u) ∧
      (h.mon z).st = 3 ∧ h.reg R.HANG_LAST_FAULT = (t + 0x4000 + z * 0x10000 + 2 * 2 ^ 22) % 2 ^ 32 ∧ h.shows Ev.SCN_STROBE t = true ∧
      s.hub.rest h = { s.hub with tiles := h.tiles, hang := h.hang } ∧
      s.hub.keeps h [R.HANG_LAST_FAULT, R.HANG_LAST_DELTA, R.HANG_LAST_GCN_LO, R.HANG_LAST_GCN_HI] := by
  subst slot
  have e : s.hub.strobeReport t =
      ((s.hub.strobeLatched t).raiseOf Ev.SCN_STROBE t).faulted (s.hub.tile t).slot Fk.STROBE (some t) false 0 := by
    have policy : ((s.hub.strobeLatched t).raiseOf Ev.SCN_STROBE t).rdB F.HANG_MON_CFG_DIV_POLICY (s.hub.tile t).slot = 0 := policy
    have first : (!s.hub.flag F.HANG_CTRL_STROBE_EN || (s.hub.tile t).st != .inContext || !(s.hub.tile t).scnValid ||
        ((s.hub.tile t).strobeFault && !(s.hub.tile t).strobeDue)) = false := by
      rw [en, ctx, valid, new]; rfl
    rw [← diverge_none policy _ Ev.SCN_STROBE]
    simp only [Hub.strobeReport, Hub.strobeFaultRx, beq_eq_false_iff_ne.mpr settled, first, Bool.false_eq_true, if_false]
    rfl
  have k1 : Hung lastKeys ((s.hub.strobeLatched t).raiseOf Ev.SCN_STROBE t) _ :=
    .faulted _ (s.hub.tile t).slot Fk.STROBE (some t) false 0 fun _ m => m
  have k : Hung lastKeys s.hub _ :=
    ((Hung.setTile s.hub t _).trans (.raiseOf (s.hub.strobeLatched t) t (c := Ev.SCN_STROBE) (by decide))).trans k1
  refine answers_hung (exec_strobeFaultRx t s) e k rfl (by decide) c fun h _ x => ?_
  obtain ⟨own, -, fault, -, -⟩ := x.faulted
  refine ⟨(x.tile t).trans (tile_setTile_same _ _ _), fun u n => (x.tile u).trans (tile_setTile_other _ _ n), by rw [own], fault.trans ?_,
    x.shows_raised (k1.raised (raiseOf_raised _ _ _)) fun _ _ e => by cases e; decide, x.rest_hang_tiles rfl, x.keeps⟩
  simp only [namedTile, b2n, Fk.STROBE, Nat.mod_eq_of_lt t.isLt]
  rfl

/-! ### Audits (R288 to R290, R311, R312) -/

theorem exec_auditTick (s : State) : exec .auditTick s = run Hub.auditTick s := rfl

theorem auditTick_sends (s : State) (z : Nat) (c : s.hub.calm = true) (en : s.hub.flag F.HANG_CTRL_AUDIT_EN = true)
    (due : s.hub.elapsed s.hub.hangCtl.auditAt 16 = true)
    (next : (s.hub.auditSlots.find? (fun y => s.hub.hangCtl.auditSlot < y) <|> s.hub.auditSlots.head?) = some z) :
    Answers .auditTick s fun h =>
      h.hangCtl = { s.hub.hangCtl with auditAt := s.hub.time.hclk, auditSlot := z, audits := s.hub.hangCtl.audits ++ [{ slot := z, gq := s.hub.time.hclk + 32 }] } ∧
      s.hub.rest h = { s.hub with hangCtl := h.hangCtl } ∧ s.hub.keeps h [] := by
  have e : s.hub.auditTick = { s.hub with hangCtl := { s.hub.hangCtl with
      auditAt := s.hub.time.hclk, auditSlot := z, audits := s.hub.hangCtl.audits ++ [{ slot := z, gq := s.hub.time.hclk + 32 }] } } := by
    simp only [Hub.auditTick, en, due, next, Bool.not_true, Bool.or_self, Bool.false_eq_true, if_false]
  exact answers_hung (exec_auditTick s) e (keys := []) (.withHangCtl _ rfl rfl) rfl (by decide) c fun h _ x =>
    ⟨x.hangCtl, x.rest_hangCtl rfl, x.keeps⟩

theorem exec_auditResult (bad : Bool) (s : State) : exec (.auditResult bad) s = run (fun h => h.auditResult bad) s := rfl

/-- The oldest audit leaves the trellis. -/
def Hub.auditsLeft (s : Hub) (more : List Audit) : Hub := { s with hangCtl := { s.hangCtl with audits := more } }

theorem Hung.auditsLeft (s : Hub) (more : List Audit) : Hung keys s (s.auditsLeft more) := .withHangCtl s rfl rfl

theorem auditResult_good {s : Hub} {a : Audit} {more : List Audit} {d : List (Nat × Int)} (first : s.hangCtl.audits = a :: more)
    (latched : a.diffs = some d) : s.auditResult false = (s.auditsLeft more).auditJudge a.slot a.names d := by
  simp only [Hub.auditResult, first, latched, Bool.false_eq_true, if_false]
  rfl

theorem auditResult_agrees (s : State) (a : Audit) (more : List Audit) (c : s.hub.calm = true) (first : s.hub.hangCtl.audits = a :: more)
    (latched : a.diffs = some []) (judged : a.names = true ∨ (s.hub.mon a.slot).st ≠ 3) :
    Answers (.auditResult false) s fun h =>
      h.hangCtl = { s.hub.hangCtl with audits := more } ∧ s.hub.rest h = { s.hub with hangCtl := h.hangCtl } ∧ s.hub.keeps h [] := by
  have e : s.hub.auditResult false = s.hub.auditsLeft more := by
    have later : (((s.hub.auditsLeft more).mon a.slot).st == 3 && !a.names) = false := by
      rcases judged with names | quiet
      · rw [names, Bool.not_true, Bool.and_false]
      · rw [beq_eq_false_iff_ne.mpr (show ((s.hub.auditsLeft more).mon a.slot).st ≠ 3 from quiet), Bool.false_and]
    simp only [auditResult_good first latched, Hub.auditJudge, later, Bool.false_eq_true, if_false]
  exact answers_hung (exec_auditResult false s) e (keys := []) (.auditsLeft _ _) rfl (by decide) c fun h _ x =>
    ⟨x.hangCtl, x.rest_hangCtl rfl, x.keeps⟩

/-- The registers that an audit which differs writes. -/
def diffKeys : List Nat := R.HANG_DIV_COUNT :: lastKeys

/-- The oldest audit leaves the trellis, and its tiles that differ are counted. -/
def Hub.diffsCounted (s : Hub) (more : List Audit) (n : Nat) : Hub := (s.auditsLeft more).setReg R.HANG_DIV_COUNT (sat 15 n)

theorem Hung.diffsCounted (s : Hub) (more : List Audit) (n : Nat) : Hung diffKeys s (s.diffsCounted more n) :=
  (Hung.auditsLeft s more).trans (.setReg _ _ (by decide))

theorem diffsCounted_count (s : Hub) (more : List Audit) (n : Nat) : (s.diffsCounted more n).reg R.HANG_DIV_COUNT = sat 15 n := by
  rw [Hub.diffsCounted, Hub.reg_setReg, Nat.mod_eq_of_lt (lt_trans (sat_lt 15 n) (by decide))]

theorem auditResult_differs (s : State) (a : Audit) (more : List Audit) (d : Nat × Int) (ds : List (Nat × Int)) (c : s.hub.calm = true)
    (first : s.hub.hangCtl.audits = a :: more) (latched : a.diffs = some (d :: ds)) (periodic : a.names = false)
    (quiet : (s.hub.mon a.slot).st ≠ 3) (policy : s.hub.rdB F.HANG_MON_CFG_DIV_POLICY a.slot = 0) :
    Answers (.auditResult false) s fun h =>
      h.hangCtl = { s.hub.hangCtl with audits := more } ∧ h.mon a.slot = { s.hub.mon a.slot with st := 3 } ∧
      (∀ y, y ≠ a.slot → h.mon y = s.hub.mon y) ∧ h.reg R.HANG_DIV_COUNT = sat 15 (ds.length + 1) ∧
      h.reg R.HANG_LAST_DELTA = satSigned 32 d.2 ∧
      h.shows Ev.SCN_DIVERGE ((if s.hub.auditAll a.slot (d :: ds) then a.slot else d.1)) = true ∧
      s.hub.rest h = { s.hub with hang := h.hang, hangCtl := h.hangCtl } ∧
      s.hub.keeps h [R.HANG_DIV_COUNT, R.HANG_LAST_FAULT, R.HANG_LAST_DELTA, R.HANG_LAST_GCN_LO, R.HANG_LAST_GCN_HI] := by
  have e : s.hub.auditResult false = ((s.hub.diffsCounted more (ds.length + 1)).raiseOf Ev.SCN_DIVERGE
      (if s.hub.auditAll a.slot (d :: ds) then a.slot else d.1)).faulted a.slot Fk.DIVERGE
        (if s.hub.auditAll a.slot (d :: ds) then none else some d.1) (s.hub.auditAll a.slot (d :: ds)) d.2 := by
    have every : (s.hub.diffsCounted more (ds.length + 1)).auditAll a.slot (d :: ds) = s.hub.auditAll a.slot (d :: ds) := rfl
    have unit (all : Bool) : (if all then none else some d.1).getD a.slot = if all then a.slot else d.1 := by cases all <;> rfl
    have k (u : Nat) (tile : Option Nat) (all : Bool) : Hung diffKeys s.hub
        (((s.hub.diffsCounted more (ds.length + 1)).raiseOf Ev.SCN_DIVERGE u).hangLast a.slot Fk.DIVERGE tile all d.2) :=
      ((Hung.diffsCounted s.hub more (ds.length + 1)).trans (.raiseOf _ u (by decide))).trans (.hangLast _ _ _ _ _ _ (by decide))
    have policy (u : Nat) (tile : Option Nat) (all : Bool) := ((k u tile all).rdB _ _ (regKey_not_mem a.slot (by decide))).trans policy
    have counted : (s.hub.auditsLeft more).setReg R.HANG_DIV_COUNT (sat 15 (d :: ds).length) = s.hub.diffsCounted more (ds.length + 1) := rfl
    rw [auditResult_good first latched, periodic]
    simp only [Hub.auditJudge, beq_eq_false_iff_ne.mpr (show ((s.hub.auditsLeft more).mon a.slot).st ≠ 3 from quiet), counted, every, unit,
      policy, hangFire_none, Bool.false_and, Bool.false_eq_true, if_false]
    rfl
  generalize s.hub.auditAll a.slot (d :: ds) = all at e ⊢
  have k1 : Hung diffKeys ((s.hub.diffsCounted more (ds.length + 1)).raiseOf Ev.SCN_DIVERGE (if all then a.slot else d.1)) _ :=
    .faulted _ a.slot Fk.DIVERGE (if all then none else some d.1) all d.2 (by decide)
  have k := ((Hung.diffsCounted s.hub more (ds.length + 1)).trans
    (.raiseOf (c := Ev.SCN_DIVERGE) _ (if all then a.slot else d.1) (by decide))).trans k1
  refine answers_hung (exec_auditResult false s) e k rfl (by decide) c fun h _ x => ?_
  obtain ⟨own, other, -, diff, -⟩ := x.faulted
  refine ⟨x.hangCtl, own, other, ?_, diff, x.shows_raised (k1.raised (raiseOf_raised _ _ _)) fun _ _ e => by cases e; decide,
    x.rest_hang_hangCtl rfl, x.keeps⟩
  rw [x.reg (by decide), Hub.faulted, reg_firedOf, reg_hangLast_other _ (by decide)]
  exact diffsCounted_count _ _ _

theorem auditResult_later (s : State) (a : Audit) (more : List Audit) (d : List (Nat × Int)) (c : s.hub.calm = true)
    (first : s.hub.hangCtl.audits = a :: more) (latched : a.diffs = some d) (periodic : a.names = false) (was : (s.hub.mon a.slot).st = 3)
    (named : s.hub.rd F.HANG_LAST_FAULT_SLOT = a.slot) :
    Answers (.auditResult false) s fun h =>
      h.hangCtl = { s.hub.hangCtl with audits := more } ∧ h.reg R.HANG_DIV_COUNT = sat 15 d.length ∧
      h.reg R.HANG_LAST_DELTA = satSigned 32 ((d.map Prod.snd).headD 0) ∧ s.hub.rest h = { s.hub with hangCtl := h.hangCtl } ∧
      s.hub.keeps h [R.HANG_DIV_COUNT, R.HANG_LAST_DELTA] := by
  have e : s.hub.auditResult false =
      (s.hub.diffsCounted more d.length).setReg R.HANG_LAST_DELTA (satSigned 32 ((d.map Prod.snd).headD 0)) := by
    have named : (s.hub.auditsLeft more).rd F.HANG_LAST_FAULT_SLOT = a.slot := named
    rw [auditResult_good first latched, periodic]
    simp only [Hub.auditJudge, show ((s.hub.auditsLeft more).mon a.slot).st = 3 from was, named, beq_self_eq_true, Bool.not_false,
      Bool.and_self, if_true]
    rfl
  have k : Hung [R.HANG_DIV_COUNT, R.HANG_LAST_DELTA] s.hub
      ((s.hub.diffsCounted more d.length).setReg R.HANG_LAST_DELTA (satSigned 32 ((d.map Prod.snd).headD 0))) :=
    ((Hung.auditsLeft s.hub more).trans (.setReg (a := R.HANG_DIV_COUNT) _ _ (by decide))).trans
      (.setReg (a := R.HANG_LAST_DELTA) _ _ (by decide))
  refine answers_hung (exec_auditResult false s) e k rfl (by decide) c fun h _ x => ⟨x.hangCtl, ?_, ?_, x.rest_hangCtl rfl, x.keeps⟩
  · rw [x.reg (by decide), Hub.reg_setReg_ne _ _ (by decide)]
    exact diffsCounted_count _ _ _
  · rw [x.reg (by decide), Hub.reg_setReg, Nat.mod_eq_of_lt (satSigned_lt 32 _)]

theorem auditResult_bad (s : State) (a : Audit) (more : List Audit) (d : List (Nat × Int)) (c : s.hub.calm = true)
    (first : s.hub.hangCtl.audits = a :: more) (latched : a.diffs = some d) :
    Answers (.auditResult true) s fun h =>
      h.hangCtl = { s.hub.hangCtl with audits := more } ∧ h.hasErr Er.HANG_AUDIT_CRC = true ∧
      s.hub.rest h = { s.hub with hangCtl := h.hangCtl } ∧ s.hub.keeps h [R.PG_ERROR + Pg.HANG * 0x1000, R.PG_ERROR_INFO + Pg.HANG * 0x1000] := by
  have e : s.hub.auditResult true = (s.hub.auditsLeft more).err Er.HANG_AUDIT_CRC := by
    simp only [Hub.auditResult, first, latched, if_true]
    rfl
  exact answers_hung (exec_auditResult true s) e ((Hung.auditsLeft s.hub more).trans (.err _ (by decide) (by decide))) rfl (by decide) c
    fun h _ x => ⟨x.hangCtl, (x.hasErr _).trans (Hub.hasErr_err _ _ (by decide)), x.rest_hangCtl rfl, x.keeps⟩

/-- Settles O47: a beat, a timer, a strobe fault and an audit each change a monitor, the audits under way and the registers of the last fault. -/
theorem beats_audits_and_timers_find_faults : Obligations.beats_audits_and_timers_find_faults :=
  ⟨beatReportRx_complete, beatReportRx_partial, hangThresholdExpiry_fires, strobeFaultRx_latches, auditTick_sends, auditResult_agrees,
    auditResult_differs, auditResult_later, auditResult_bad⟩

end Sys2Proof.Machine
end

section
/-! SUPPORT. The statement of the reset ladder: a tile that is isolated anew forgets the strobe of its watch before. -/

namespace Sys2Proof.Machine

/-! ### A tile whose isolation failed, reset anew by a level (R298, R300) -/

/-- Tile 5 was isolated, a strobe came during its watch and the isolation failed; a level has reset it anew since, and no acknowledge came for
4,096 TCLK. -/
def resetAfterFailedIsolation : State := on fun h => h.setTile 5 { st := .outOfService, inReset := true, strobeSeen := true }

/-- The timeout isolates the tile, and the new watch begins without a strobe seen (R298). -/
theorem tileResetTimeout_forgets_strobe (t : State) (x : exec (.tileResetTimeout 5) resetAfterFailedIsolation = .next t) :
    (t.hub.tile 5).strobeSeen = false := by
  injection x with x
  subst x
  decide +kernel

/-- Refutes O49: a reset without an acknowledge isolates its tile and begins a watch with no strobe seen, while the statement keeps the strobe
that an earlier watch of the tile had seen. -/
theorem not_the_ladder_resets_isolates_and_readmits : ¬ Obligations.the_ladder_resets_isolates_and_readmits := by
  intro h
  obtain ⟨-, -, -, -, -, -, timeout, -⟩ := h
  have calm : resetAfterFailedIsolation.hub.calm = true := by decide +kernel
  have late : resetAfterFailedIsolation.hub.elapsed (resetAfterFailedIsolation.hub.tile (5 : TileId)).resetAt
      (resetAfterFailedIsolation.hub.tclks (5 : TileId) 4096) = true := by decide +kernel
  obtain ⟨t, next, -, tile, -⟩ := timeout resetAfterFailedIsolation 5 calm rfl rfl late (by decide +kernel)
  have kept : (t.hub.tile (5 : TileId)).strobeSeen = true := by
    rw [tile]
    rfl
  exact absurd kept (Bool.eq_false_iff.mp (tileResetTimeout_forgets_strobe t next))

end Sys2Proof.Machine
end

section
/-! SUPPORT. HANG_CMD (R308, R312): a fence asked for and withdrawn, what the three CLEAR commands restart. -/

namespace Sys2Proof.Machine

variable {keys : List Nat}

/-- A change that touches no register touches none but those of any list. -/
theorem Hung.widen {s h : Hub} (k : Hung [] s h) : Hung keys s h :=
  ⟨k.core, fun a b _ => k.regs a b List.not_mem_nil, k.quiet, k.kept, k.waits⟩

/-! ### The status of a command of the hang controller -/

/-- An accepted HANG_CMD shows OK. -/
def Hub.hangAccept (s : Hub) (op : Nat) : Hub := s.hangStatus op St.OK

theorem Hung.hangAccept (s : Hub) (op : Nat) (k : R.HANG_CMD_STATUS ∈ keys) : Hung keys s (s.hangAccept op) :=
  (Hung.wr s (f := F.HANG_CMD_STATUS_STATUS) _ k).trans (.wr _ (f := F.HANG_CMD_STATUS_OP) _ k)

theorem hangAccept_status (s : Hub) (op : Nat) : (s.hangAccept op).rd F.HANG_CMD_STATUS_STATUS = St.OK := by
  rw [Hub.hangAccept, Hub.hangStatus, Hub.rd_wr_apart _ _ _ _ (by decide) (by decide), Hub.rd_wr _ _ _ (by decide)]
  rfl

theorem hangAccept_op (s : Hub) (op : Nat) : (s.hangAccept op).rd F.HANG_CMD_STATUS_OP = op % 2 ^ F.HANG_CMD_STATUS_OP.width :=
  Hub.rd_wr _ _ _ (by decide)

/-- What an accepted HANG_CMD does to its slot. -/
def Hub.hangDo (s : Hub) (op z : Nat) : Hub :=
  match op with
  | 1 => s.fence z
  | 2 => s.fenceRelease z
  | 3 => s.clearFired z
  | 4 => s.startHistory z
  | _ => s.clearHang

theorem hangCmd_ok {s : Hub} {op : Nat} (ok : s.hangCheck op = St.OK) :
    s.hangCmd op = (s.hangAccept op).hangDo op (s.rd F.HANG_ARG_SLOT) := by
  simp only [Hub.hangCmd, ok, bne_self_eq_false, Bool.false_eq_true, if_false, Hub.hangAccept]
  rfl

theorem fence_asks {s : Hub} {z : Nat} (none' : (s.mon z).fenceAt = none) :
    s.fence z = s.setMon z { s.mon z with fenceAt := some s.time.hclk, fenceAck := false, fenced := false, abandon := false } := by
  simp only [Hub.fence, none', Option.isSome_none, Bool.false_eq_true, if_false]

theorem Hung.unfence (s : Hub) (z : Nat) : Hung keys s (s.unfence z) := .setMon s z rfl

theorem exec_hangFence (r : Req) (s : State) : exec (.hangFence r) s = run (fun h => h.cmd r R.HANG_CMD 1 fun h => h.hangCmd 1) s := rfl

theorem hangFence_asks (s : State) (r : Req) (z : Nat) (c : s.hub.calm = true) (w : s.hub.takesWrite r R.HANG_CMD 1 = true)
    (ok : s.hub.hangCheck 1 = St.OK) (slot : s.hub.rd F.HANG_ARG_SLOT = z) (none' : (s.hub.mon z).fenceAt = none) :
    Answers (.hangFence r) s fun h =>
      h.tookWrite r ∧ h.mon z = { s.hub.mon z with fenceAt := some s.hub.time.hclk, fenceAck := false, fenced := false, abandon := false } ∧
      (∀ y, y ≠ z → h.mon y = s.hub.mon y) ∧ h.rd F.HANG_CMD_STATUS_STATUS = St.OK ∧ h.rd F.HANG_CMD_STATUS_OP = 1 ∧
      s.hub.rest h = { s.hub with hang := h.hang } ∧ s.hub.keeps h [R.HANG_CMD_STATUS] := by
  have e : s.hub.hangCmd 1 = (s.hub.hangAccept 1).setMon z
      { s.hub.mon z with fenceAt := some s.hub.time.hclk, fenceAck := false, fenced := false, abandon := false } := by
    rw [hangCmd_ok ok, slot]
    exact fence_asks (s := s.hub.hangAccept 1) none'
  have asked : Hung [] (s.hub.hangAccept 1) ((s.hub.hangAccept 1).setMon z
      { s.hub.mon z with fenceAt := some s.hub.time.hclk, fenceAck := false, fenced := false, abandon := false }) := .setMon _ z (by rfl)
  refine answers_hungCmd (exec_hangFence r s) w e ((Hung.hangAccept s.hub 1 (by decide)).trans asked.widen) rfl (by decide) c
    fun h took x => ⟨took, (x.mon z).trans (mon_setMon_same _ _ _), fun y n => (x.mon y).trans (mon_setMon_other _ _ n), ?_, ?_,
      x.rest_hang rfl, x.keeps⟩
  · rw [x.rd _ (by decide), asked.rd _ (by decide), hangAccept_status]
  · rw [x.rd _ (by decide), asked.rd _ (by decide), hangAccept_op]
    rfl

theorem exec_hangRelease (r : Req) (s : State) : exec (.hangRelease r) s = run (fun h => h.cmd r R.HANG_CMD 2 fun h => h.hangCmd 2) s := rfl

/-- RELEASE of a slot without a fence is refused (R308). -/
theorem fenceAt_of_release {s : Hub} (ok : s.hangCheck 2 = St.OK) : (s.mon (s.rd F.HANG_ARG_SLOT)).fenceAt.isSome = true := by
  unfold Hub.hangCheck at ok
  split at ok
  · cases ok
  · by_contra unasked
    have unasked : (s.mon (s.rd F.HANG_ARG_SLOT)).fenceAt = none := by simpa using unasked
    rw [if_pos (by simp [unasked])] at ok
    cases ok

theorem hangRelease_withdraws (s : State) (r : Req) (z : Nat) (c : s.hub.calm = true) (w : s.hub.takesWrite r R.HANG_CMD 2 = true)
    (ok : s.hub.hangCheck 2 = St.OK) (slot : s.hub.rd F.HANG_ARG_SLOT = z) :
    Answers (.hangRelease r) s fun h =>
      h.tookWrite r ∧ h.mon z = { s.hub.mon z with fenceAt := none, fenceAck := false, fenced := false, abandon := false } ∧
      (∀ y, y ≠ z → h.mon y = s.hub.mon y) ∧ h.rd F.HANG_CMD_STATUS_STATUS = St.OK ∧ h.shows Ev.FENCE_RELEASED z = true ∧
      s.hub.rest h = { s.hub with hang := h.hang } ∧ s.hub.keeps h [R.HANG_CMD_STATUS] := by
  have e : s.hub.hangCmd 2 = ((s.hub.hangAccept 2).unfence z).raiseOf Ev.FENCE_RELEASED z := by
    have asked : ((s.hub.hangAccept 2).mon z).fenceAt.isSome = true := slot ▸ fenceAt_of_release ok
    rw [hangCmd_ok ok, slot, Hub.hangDo, Hub.fenceRelease, if_pos asked]
  have withdrawn : Hung [] (s.hub.hangAccept 2) (((s.hub.hangAccept 2).unfence z).raiseOf Ev.FENCE_RELEASED z) :=
    (Hung.unfence _ z).trans (.raiseOf _ z (by decide))
  refine answers_hungCmd (exec_hangRelease r s) w e ((Hung.hangAccept s.hub 2 (by decide)).trans withdrawn.widen) rfl (by decide) c
    fun h took x => ⟨took, (x.mon z).trans (mon_setMon_same _ _ _), fun y n => (x.mon y).trans (mon_setMon_other _ _ n), ?_,
      x.shows_raised (raiseOf_raised _ _ _) fun _ _ e => by cases e; decide, x.rest_hang rfl, x.keeps⟩
  rw [x.rd _ (by decide), withdrawn.rd _ (by decide), hangAccept_status]

/-! ### CLEAR_FIRED, CLEAR_HISTORY and CLEAR_STATS -/

/-- The spurs of the tiles clear their strobe latches (R287). -/
def Hub.strobesCleared (s : Hub) (tiles : List Nat) : Hub :=
  doEach tiles s fun s t => s.setTile t { s.tile t with strobeFault := false, strobeDue := false }

theorem Hung.strobesCleared (s : Hub) (tiles : List Nat) : Hung keys s (s.strobesCleared tiles) :=
  .doEach (fun s t => .setTile s t _) tiles s

theorem strobesCleared_only (s : Hub) (tiles : List Nat) : s.strobesCleared tiles = { s with tiles := (s.strobesCleared tiles).tiles } :=
  doEach_setTile_only _ _

theorem strobesCleared_mem {tiles : List Nat} {t : Nat} (m : t ∈ tiles) (s : Hub) : ((s.strobesCleared tiles).tile t).strobeFault = false := by
  refine doEach_reaches (p := fun _ => True) (q := fun h : Hub => (h.tile t).strobeFault = false)
    (f := fun (s : Hub) t => s.setTile t { s.tile t with strobeFault := false, strobeDue := false }) (fun _ _ _ _ => trivial) (fun h _ => ?_)
    (fun h u after => ?_) m trivial
  · rw [tile_setTile_same]
  · rw [Hub.tile_setTile]
    split
    · rfl
    · exact after

/-- The slot's monitor leaves FIRED and its timer restarts (R286). -/
def Hub.monRestarted (s : Hub) (z : Nat) : Hub := s.setMon z { s.mon z with st := s.monState z (s.mon z).durs, timer := 0 }

theorem exec_clearFired (r : Req) (s : State) : exec (.clearFired r) s = run (fun h => h.cmd r R.HANG_CMD 3 fun h => h.hangCmd 3) s := rfl

theorem clearFired_restarts (s : State) (r : Req) (z : Nat) (c : s.hub.calm = true) (w : s.hub.takesWrite r R.HANG_CMD 3 = true)
    (ok : s.hub.hangCheck 3 = St.OK) (slot : s.hub.rd F.HANG_ARG_SLOT = z) (fired : (s.hub.mon z).st = 3) :
    Answers (.clearFired r) s fun h =>
      h.tookWrite r ∧ h.mon z = { s.hub.mon z with st := s.hub.monState z (s.hub.mon z).durs, timer := 0 } ∧
      (∀ y, y ≠ z → h.mon y = s.hub.mon y) ∧ (∀ t ∈ s.hub.slotTiles z, (h.tile t).strobeFault = false) ∧
      (∀ u, u ∉ s.hub.slotTiles z → h.tile u = s.hub.tile u) ∧ h.rd F.HANG_CMD_STATUS_STATUS = St.OK ∧
      s.hub.rest h = { s.hub with hang := h.hang, tiles := h.tiles } ∧ s.hub.keeps h [R.HANG_CMD_STATUS] := by
  have accept := Hung.hangAccept (keys := [R.HANG_CMD_STATUS]) s.hub 3 (by decide)
  have e : s.hub.hangCmd 3 = ((s.hub.hangAccept 3).monRestarted z).strobesCleared (s.hub.slotTiles z) := by
    have fired : (((s.hub.hangAccept 3).mon z).st == 3) = true := beq_iff_eq.mpr fired
    rw [hangCmd_ok ok, slot, Hub.hangDo, Hub.clearFired, if_pos fired]
    rfl
  have state : (s.hub.hangAccept 3).monState z (s.hub.mon z).durs = s.hub.monState z (s.hub.mon z).durs := by
    simp only [Hub.monState, accept.rdB F.HANG_MON_CFG_EN z (regKey_not_mem z (by decide))]
  have cleared : Hung [] (s.hub.hangAccept 3) (((s.hub.hangAccept 3).monRestarted z).strobesCleared (s.hub.slotTiles z)) :=
    (Hung.setMon (s.hub.hangAccept 3) z (by rfl)).trans (.strobesCleared _ _)
  have own {t : Nat} (m : t ∈ s.hub.slotTiles z) := strobesCleared_mem m ((s.hub.hangAccept 3).monRestarted z)
  have others {u : Nat} (n : u ∉ s.hub.slotTiles z) :
      (((s.hub.hangAccept 3).monRestarted z).strobesCleared (s.hub.slotTiles z)).tile u = s.hub.tile u := doEach_setTile_other n _
  have only := strobesCleared_only ((s.hub.hangAccept 3).monRestarted z) (s.hub.slotTiles z)
  generalize ((s.hub.hangAccept 3).monRestarted z).strobesCleared (s.hub.slotTiles z) = g at *
  have mon (y : Nat) : g.mon y = ((s.hub.hangAccept 3).monRestarted z).mon y := by rw [only]; rfl
  refine answers_hungCmd (exec_clearFired r s) w e (accept.trans (cleared.widen)) (by rw [only]; rfl) (by decide) c
    fun h took x => ⟨took, ?_, fun y n => ?_, fun t m => (congrArg Tile.strobeFault (x.tile t)).trans (own m),
      fun u n => (x.tile u).trans (others n), ?_, x.rest_hang_tiles (by rw [only]; rfl), x.keeps⟩
  · rw [x.mon, mon, Hub.monRestarted, mon_setMon_same, ← state]
    rfl
  · rw [x.mon, mon, Hub.monRestarted, mon_setMon_other _ _ n]
    rfl
  · rw [x.rd _ (by decide), cleared.rd _ (by decide), hangAccept_status]

theorem exec_clearHistory (r : Req) (s : State) : exec (.clearHistory r) s = run (fun h => h.cmd r R.HANG_CMD 4 fun h => h.hangCmd 4) s := rfl

theorem clearHistory_restarts (s : State) (r : Req) (z : Nat) (c : s.hub.calm = true) (w : s.hub.takesWrite r R.HANG_CMD 4 = true)
    (ok : s.hub.hangCheck 4 = St.OK) (slot : s.hub.rd F.HANG_ARG_SLOT = z) :
    Answers (.clearHistory r) s fun h =>
      h.tookWrite r ∧
      h.mon z = { s.hub.mon z with durs := [], timer := 0, openSkip := true, st := if s.hub.rdB F.HANG_MON_CFG_EN z == 1 then 1 else 0 } ∧
      (∀ y, y ≠ z → h.mon y = s.hub.mon y) ∧ h.rd F.HANG_CMD_STATUS_STATUS = St.OK ∧ s.hub.rest h = { s.hub with hang := h.hang } ∧
      s.hub.keeps h [R.HANG_CMD_STATUS] := by
  have accept := Hung.hangAccept (keys := [R.HANG_CMD_STATUS]) s.hub 4 (by decide)
  have e : s.hub.hangCmd 4 = (s.hub.hangAccept 4).startHistory z := by rw [hangCmd_ok ok, slot, Hub.hangDo]
  have began : Hung [] (s.hub.hangAccept 4) ((s.hub.hangAccept 4).startHistory z) := .setMon (s.hub.hangAccept 4) z (by rfl)
  refine answers_hungCmd (exec_clearHistory r s) w e (accept.trans began.widen) rfl (by decide) c
    fun h took x => ⟨took, ?_, fun y n => (x.mon y).trans (mon_setMon_other _ _ n), ?_, x.rest_hang rfl, x.keeps⟩
  · rw [x.mon, Hub.startHistory, mon_setMon_same, accept.rdB F.HANG_MON_CFG_EN z (regKey_not_mem z (by decide))]
    rfl
  · rw [x.rd _ (by decide), began.rd _ (by decide), hangAccept_status]

theorem exec_hangClearStats (r : Req) (s : State) : exec (.hangClearStats r) s = run (fun h => h.cmd r R.HANG_CMD 5 fun h => h.hangCmd 5) s :=
  rfl

theorem hangClearStats_clears (s : State) (r : Req) (z : Nat) (c : s.hub.calm = true) (w : s.hub.takesWrite r R.HANG_CMD 5 = true)
    (ok : s.hub.hangCheck 5 = St.OK) (_ : s.hub.rd F.HANG_ARG_SLOT = z) :
    Answers (.hangClearStats r) s fun h =>
      h.tookWrite r ∧ h.reg R.HANG_DIV_COUNT = 0 ∧ h.rd F.HANG_CMD_STATUS_STATUS = St.OK ∧ s.hub.rest h = s.hub ∧
      s.hub.keeps h [R.HANG_CMD_STATUS, R.HANG_DIV_COUNT] := by
  have e : s.hub.hangCmd 5 = (s.hub.hangAccept 5).setReg R.HANG_DIV_COUNT 0 := by
    rw [hangCmd_ok ok]
    rfl
  refine answers_hungCmd (exec_hangClearStats r s) w e
    ((Hung.hangAccept s.hub 5 (by decide)).trans (.setReg (a := R.HANG_DIV_COUNT) _ _ (by decide))) rfl (by decide) c
    fun h took x => ⟨took, ?_, ?_, x.rest, x.keeps⟩
  · rw [x.reg (by decide), Hub.reg_setReg, Nat.zero_mod]
  · rw [x.rd _ (by decide), Hub.rd_setReg_ne _ _ _ (by decide), hangAccept_status]

end Sys2Proof.Machine
end

section
/-! SUPPORT. The life of a fence (R294 to R296, R311): drained, abandoned, over its limit, not acknowledged. -/

namespace Sys2Proof.Machine

variable {keys : List Nat}

/-! ### A slot is fenced (R294) -/

/-- The slot shows FENCED, and the ladder no longer waits for it. -/
def Hub.fencedOff (s : Hub) (z : Nat) : Hub :=
  ((s.setMon z { s.mon z with fenced := true, fenceAck := true, abandon := false }).mapLadder
    fun l => { l with drain := removeNat z l.drain }).raiseOf Ev.FENCED z

theorem fenceShut_idle {s : Hub} {z : Nat} (idle : (s.mon z).policy = 0) : s.fenceShut z = s.fencedOff z := by
  have due : ((s.mon z).pdue || ((s.mon z).policy != 0 && (s.mon z).pstep == 2)) = (s.mon z).pdue := by simp [idle]
  rw [Hub.fenceShut, due]
  rfl

theorem Hung.fencedOff (s : Hub) (z : Nat) : Hung keys s (s.fencedOff z) :=
  ((Hung.setMon s z (by rfl)).trans (.mapLadder _ _)).trans (.raiseOf _ z (by decide))

theorem mon_fencedOff_same (s : Hub) (z : Nat) :
    (s.fencedOff z).mon z = { s.mon z with fenced := true, fenceAck := true, abandon := false } := mon_setMon_same _ _ _

theorem mon_fencedOff_other (s : Hub) {z y : Nat} (n : y ≠ z) : (s.fencedOff z).mon y = s.mon y := mon_setMon_other _ _ n

theorem exec_fenceDrained (z : Slot) (s : State) : exec (.fenceDrained z) s = run (fun h => h.fenceDrained z) s := rfl

theorem fenceDrained_fences (s : State) (z : Slot) (c : s.hub.calm = true) (asked : (s.hub.mon z).fenceAt.isSome = true)
    (unfenced : (s.hub.mon z).fenced = false) (idle : (s.hub.mon z).policy = 0) :
    Answers (.fenceDrained z) s fun h =>
      h.mon z = { s.hub.mon z with fenced := true, fenceAck := true, abandon := false } ∧ (∀ y, y ≠ (z : Nat) → h.mon y = s.hub.mon y) ∧
      h.ladder = { s.hub.ladder with drain := removeNat z s.hub.ladder.drain } ∧ h.shows Ev.FENCED z = true ∧
      s.hub.rest h = { s.hub with hang := h.hang, ladder := h.ladder } ∧ s.hub.keeps h [] := by
  have e : s.hub.fenceDrained z = s.hub.fencedOff z := by
    rw [Hub.fenceDrained, asked, unfenced, fenceShut_idle idle]
    rfl
  refine answers_hung (exec_fenceDrained z s) e (.fencedOff _ z) rfl (by decide) c fun h _ x =>
    ⟨(x.mon z).trans (mon_fencedOff_same _ _), fun y n => (x.mon y).trans (mon_fencedOff_other _ n), x.ladder,
      x.shows_raised (raiseOf_raised _ _ _) fun _ _ e => by cases e; decide, ?_, x.keeps⟩
  rw [x.rest, x.hang, x.ladder]
  rfl

/-! ### The drain limit (R295) -/

/-- The drain limit of one slot. -/
def Hub.drainLimitOf (s : Hub) (z : Nat) : Hub :=
  match (s.mon z).fenceAt with
  | some t =>
    if !(s.mon z).fenced && !(s.mon z).abandon && s.elapsed t (s.rd F.HANG_FENCE_DRAIN_HCLK) then
      (s.setMon z { s.mon z with abandon := true }).raiseOf Ev.FENCE_DRAIN_LIMIT z
    else s
  | none => s

/-- The drain limit of a slot asserts abandon, or leaves everything as it is. -/
theorem drainLimitOf_cases (s : Hub) (z : Nat) :
    s.drainLimitOf z = s ∨ s.drainLimitOf z = (s.setMon z { s.mon z with abandon := true }).raiseOf Ev.FENCE_DRAIN_LIMIT z := by
  unfold Hub.drainLimitOf
  split
  · split
    · exact .inr rfl
    · exact .inl rfl
  · exact .inl rfl

theorem Hung.drainLimitOf (s : Hub) (z : Nat) : Hung keys s (s.drainLimitOf z) := by
  rcases drainLimitOf_cases s z with e | e <;> rw [e]
  · exact .refl s
  · exact (Hung.setMon s z (by rfl)).trans (.raiseOf _ z (by decide))

theorem mon_drainLimitOf_other (s : Hub) {z y : Nat} (n : y ≠ z) : (s.drainLimitOf z).mon y = s.mon y := by
  rcases drainLimitOf_cases s z with e | e
  · rw [e]
  · rw [e]
    exact mon_setMon_other _ _ n

theorem drainLimitOf_only (s : Hub) (z : Nat) : s.drainLimitOf z = { s with hang := (s.drainLimitOf z).hang, occs := (s.drainLimitOf z).occs } := by
  rcases drainLimitOf_cases s z with e | e
  · rw [e]
  · rw [e]
    rfl

theorem drainLimitOf_abandons {s : Hub} {z t : Nat} (asked : (s.mon z).fenceAt = some t) (unfenced : (s.mon z).fenced = false)
    (held : (s.mon z).abandon = false) (late : s.elapsed t (s.rd F.HANG_FENCE_DRAIN_HCLK) = true) :
    s.drainLimitOf z = (s.setMon z { s.mon z with abandon := true }).raiseOf Ev.FENCE_DRAIN_LIMIT z := by
  simp only [Hub.drainLimitOf, asked, unfenced, held, late, Bool.not_false, Bool.and_self, if_true]

theorem drainLimitOf_abandoned {s : Hub} {z : Nat} (was : (s.mon z).abandon = true) : s.drainLimitOf z = s := by
  unfold Hub.drainLimitOf
  split
  · rw [was, Bool.not_true, Bool.and_false, Bool.false_and, if_neg Bool.false_ne_true]
  · rfl

theorem fenceDrainLimit_only (s : Hub) : s.fenceDrainLimit = { s with hang := s.fenceDrainLimit.hang, occs := s.fenceDrainLimit.occs } := by
  refine doEach_keeps (fun h => h = { s with hang := h.hang, occs := h.occs }) Hub.drainLimitOf (fun h z e => ?_) s.hang.keys s rfl
  rw [drainLimitOf_only, e]

/-- A fence past the drain limit is abandoned, with FENCE_DRAIN_LIMIT. -/
theorem fenceDrainLimit_mem {s : Hub} {z t : Nat} (m : z ∈ s.hang.keys) (asked : (s.mon z).fenceAt = some t)
    (unfenced : (s.mon z).fenced = false) (held : (s.mon z).abandon = false) (late : s.elapsed t (s.rd F.HANG_FENCE_DRAIN_HCLK) = true) :
    s.fenceDrainLimit.mon z = { s.mon z with abandon := true } ∧
      ∃ o ∈ s.fenceDrainLimit.occs, o.code = Ev.FENCE_DRAIN_LIMIT ∧ o.unit.getD 0 = z := by
  refine doEach_reaches (p := fun h : Hub => Hung [] s h ∧ h.mon z = s.mon z)
    (q := fun h : Hub => h.mon z = { s.mon z with abandon := true } ∧ ∃ o ∈ h.occs, o.code = Ev.FENCE_DRAIN_LIMIT ∧ o.unit.getD 0 = z)
    (fun h y n ⟨k, same⟩ => ⟨k.trans (.drainLimitOf h y), (mon_drainLimitOf_other h n.symm).trans same⟩) (fun h ⟨k, same⟩ => ?_)
    (fun h y ⟨own, raised⟩ => ⟨?_, Hung.raised (Hung.drainLimitOf (keys := []) h y) raised⟩) m ⟨.refl s, rfl⟩
  · have late : h.elapsed t (h.rd F.HANG_FENCE_DRAIN_HCLK) = true := by
      rwa [Hub.elapsed, k.time, k.rd _ List.not_mem_nil]
    rw [drainLimitOf_abandons (same ▸ asked) (same ▸ unfenced) (same ▸ held) late]
    exact ⟨(mon_setMon_same _ _ _).trans (by rw [same]), raiseOf_raised _ _ _⟩
  · by_cases e : z = y
    · rw [← e, drainLimitOf_abandoned (by rw [own]), own]
    · rw [mon_drainLimitOf_other h e, own]

theorem exec_fenceDrainLimit (s : State) : exec .fenceDrainLimit s = run Hub.fenceDrainLimit s := rfl

theorem fenceDrainLimit_abandons (s : State) (z : Nat) (t : Nat) (c : s.hub.calm = true) (m : z ∈ s.hub.hang.keys)
    (asked : (s.hub.mon z).fenceAt = some t) (unfenced : (s.hub.mon z).fenced = false) (held : (s.hub.mon z).abandon = false)
    (late : s.hub.elapsed t (s.hub.rd F.HANG_FENCE_DRAIN_HCLK) = true) :
    Answers .fenceDrainLimit s fun h =>
      h.mon z = { s.hub.mon z with abandon := true } ∧ h.shows Ev.FENCE_DRAIN_LIMIT z = true ∧
      s.hub.rest h = { s.hub with hang := h.hang } ∧ s.hub.keeps h [] := by
  obtain ⟨own, raised⟩ := fenceDrainLimit_mem m asked unfenced held late
  have only := fenceDrainLimit_only s.hub
  have changes : Hung [] s.hub s.hub.fenceDrainLimit := .doEach (fun h y => .drainLimitOf h y) _ _
  refine answers_hung (exec_fenceDrainLimit s) rfl changes (by rw [only]) (by decide) c fun h _ x => ⟨(x.mon z).trans own,
    x.shows_raised raised fun _ _ e => by cases e; decide, x.rest_hang (by rw [only]; rfl), x.keeps⟩

/-! ### What the port abandoned (R295) -/

/-- A spur whose requests were abandoned sets ABANDONED and clears its counts. -/
def Hub.abandonTile (s : Hub) (t : Nat) : Hub :=
  if (s.tile t).rdOut == 0 && (s.tile t).wrOut == 0 then s else s.setTile t { s.tile t with abandoned := true, rdOut := 0, wrOut := 0 }

/-- The spurs of the tiles give up what they have outstanding. -/
def Hub.abandonTiles (s : Hub) (tiles : List Nat) : Hub := doEach tiles s Hub.abandonTile

theorem fenceAbandonDone_asserted {s : Hub} {z : Nat} (on : (s.mon z).abandon = true) :
    s.fenceAbandonDone z = (s.abandonTiles (s.slotTiles z)).fenceShut z := by
  rw [Hub.fenceAbandonDone, on]
  rfl

theorem Hung.abandonTile (s : Hub) (t : Nat) : Hung keys s (s.abandonTile t) := by
  unfold Hub.abandonTile
  split
  · exact .refl s
  · exact .setTile s t _

theorem Hung.abandonTiles (s : Hub) (tiles : List Nat) : Hung keys s (s.abandonTiles tiles) := .doEach (fun h t => .abandonTile h t) tiles s

theorem tile_abandonTile_other (s : Hub) {t u : Nat} (n : u ≠ t) : (s.abandonTile t).tile u = s.tile u := by
  unfold Hub.abandonTile
  split
  · rfl
  · exact tile_setTile_other _ _ n

theorem abandonTiles_only (s : Hub) (tiles : List Nat) : s.abandonTiles tiles = { s with tiles := (s.abandonTiles tiles).tiles } := by
  refine doEach_keeps (fun h => h = { s with tiles := h.tiles }) Hub.abandonTile (fun h t e => ?_) tiles s rfl
  unfold Hub.abandonTile
  split
  · exact e
  · rw [e]; rfl

theorem abandonTiles_other {s : Hub} {tiles : List Nat} {u : Nat} (n : u ∉ tiles) : (s.abandonTiles tiles).tile u = s.tile u :=
  doEach_keeps_mem (q := fun h : Hub => h.tile u = s.tile u)
    (fun h t m same => (tile_abandonTile_other h fun e => n (by rwa [e])).trans same) rfl

theorem abandonTiles_mem {s : Hub} {tiles : List Nat} {t : Nat} (m : t ∈ tiles) (out : (s.tile t).rdOut ≠ 0 ∨ (s.tile t).wrOut ≠ 0) :
    (s.abandonTiles tiles).tile t = { s.tile t with abandoned := true, rdOut := 0, wrOut := 0 } := by
  refine doEach_reaches (p := fun h : Hub => h.tile t = s.tile t)
    (q := fun h : Hub => h.tile t = { s.tile t with abandoned := true, rdOut := 0, wrOut := 0 })
    (fun h u n same => (tile_abandonTile_other h n.symm).trans same) (fun h same => ?_) (fun h u own => ?_) m rfl
  · have busy : ¬ ((s.tile t).rdOut == 0 && (s.tile t).wrOut == 0) = true := by
      simpa only [Bool.and_eq_true, beq_iff_eq, not_and_or] using out
    rw [Hub.abandonTile, same, if_neg busy, tile_setTile_same]
  · by_cases e : t = u
    · rw [← e, Hub.abandonTile, own]
      exact own
    · rw [tile_abandonTile_other h e, own]

theorem exec_fenceAbandonDone (z : Slot) (s : State) : exec (.fenceAbandonDone z) s = run (fun h => h.fenceAbandonDone z) s := rfl

theorem fenceAbandonDone_fences (s : State) (z : Slot) (t : Nat) (c : s.hub.calm = true) (on : (s.hub.mon z).abandon = true)
    (idle : (s.hub.mon z).policy = 0) (m : t ∈ s.hub.slotTiles z) (out : (s.hub.tile t).rdOut ≠ 0 ∨ (s.hub.tile t).wrOut ≠ 0) :
    Answers (.fenceAbandonDone z) s fun h =>
      h.tile t = { s.hub.tile t with abandoned := true, rdOut := 0, wrOut := 0 } ∧
      h.mon z = { s.hub.mon z with fenced := true, fenceAck := true, abandon := false } ∧ (∀ y, y ≠ z → h.mon y = s.hub.mon y) ∧
      (∀ u, u ∉ s.hub.slotTiles z → h.tile u = s.hub.tile u) ∧ h.shows Ev.FENCED z = true ∧
      s.hub.rest h = { s.hub with tiles := h.tiles, hang := h.hang, ladder := h.ladder } ∧ s.hub.keeps h [] := by
  have only := abandonTiles_only s.hub (s.hub.slotTiles z)
  have given := abandonTiles_mem m out
  have others {u : Nat} (n : u ∉ s.hub.slotTiles z) := abandonTiles_other (s := s.hub) n
  have changes : Hung [] s.hub (s.hub.abandonTiles (s.hub.slotTiles z)) := .abandonTiles _ _
  have e := fenceAbandonDone_asserted on
  generalize s.hub.abandonTiles (s.hub.slotTiles z) = g at *
  have mon (y : Nat) : g.mon y = s.hub.mon y := by rw [only]; rfl
  have e := e.trans (fenceShut_idle ((congrArg Monitor.policy (mon z)).trans idle))
  refine answers_hung (exec_fenceAbandonDone z s) e (changes.trans (.fencedOff _ z)) (by rw [only]; rfl) (by decide) c fun h _ x =>
    ⟨(x.tile t).trans given, ?_, fun y n => ?_, fun u n => (x.tile u).trans (others n),
      x.shows_raised (raiseOf_raised _ _ _) fun _ _ e => by cases e; decide, ?_, x.keeps⟩
  · rw [x.mon, mon_fencedOff_same, mon]
  · rw [x.mon, mon_fencedOff_other _ (Fin.val_ne_of_ne n), mon]
  · rw [x.rest, x.tiles, x.hang, x.ladder, only]
    rfl

/-! ### The limit of a fence (R296) and its acknowledge (R311) -/

theorem exec_fenceLimit (s : State) : exec .fenceLimit s = run Hub.fenceLimit s := rfl

theorem fenceLimitOf_manual {s : Hub} {z : Nat} (idle : (s.mon z).policy = 0) (manual : s.flag F.RSET_CTRL_AUTO_EN = false) :
    s.fenceLimitOf z = (s.unfence z).raiseOf Ev.FENCE_LIMIT z := by
  have idle : (((s.unfence z).raiseOf Ev.FENCE_LIMIT z).mon z).policy = 0 := (congrArg Monitor.policy (mon_setMon_same _ _ _)).trans idle
  have manual : ((s.unfence z).raiseOf Ev.FENCE_LIMIT z).flag F.RSET_CTRL_AUTO_EN = false := manual
  simp only [Hub.fenceLimitOf, idle, manual, bne_self_eq_false, Bool.false_and, Bool.not_false, Bool.true_or, if_true, Bool.false_eq_true,
    if_false]

theorem fenceLimit_ends (s : State) (z : Nat) (t : Nat) (c : s.hub.calm = true)
    (one : s.hub.hang.keys.filter (fun y => (s.hub.mon y).fenceAt.isSome && s.hub.fenceOver y) = [z])
    (_ : (s.hub.mon z).fenceAt = some t) (idle : (s.hub.mon z).policy = 0) (manual : s.hub.flag F.RSET_CTRL_AUTO_EN = false) :
    Answers .fenceLimit s fun h =>
      h.mon z = { s.hub.mon z with fenceAt := none, fenceAck := false, fenced := false, abandon := false } ∧
      (∀ y, y ≠ z → h.mon y = s.hub.mon y) ∧ h.shows Ev.FENCE_LIMIT z = true ∧ s.hub.rest h = { s.hub with hang := h.hang } ∧
      s.hub.keeps h [] := by
  have e : s.hub.fenceLimit = (s.hub.unfence z).raiseOf Ev.FENCE_LIMIT z := by
    rw [Hub.fenceLimit, one, doEach_cons, doEach_nil, fenceLimitOf_manual idle manual]
  exact answers_hung (exec_fenceLimit s) e ((Hung.unfence _ z).trans (.raiseOf _ z (by decide))) rfl (by decide) c fun h _ x =>
    ⟨(x.mon z).trans (mon_setMon_same _ _ _), fun y n => (x.mon y).trans (mon_setMon_other _ _ n),
      x.shows_raised (raiseOf_raised _ _ _) fun _ _ e => by cases e; decide, x.rest_hang rfl, x.keeps⟩

theorem exec_fenceAckTimeout (z : Slot) (s : State) : exec (.fenceAckTimeout z) s = run (fun h => h.fenceAckTimeout z) s := rfl

theorem fenceAckTimeout_errs (s : State) (z : Slot) (t : Nat) (c : s.hub.calm = true) (asked : (s.hub.mon z).fenceAt = some t)
    (silent : (s.hub.mon z).fenceAck = false) (late : s.hub.elapsed t 64 = true) :
    Answers (.fenceAckTimeout z) s fun h =>
      h.hasErr Er.HANG_FENCE_NACK = true ∧ s.hub.rest h = s.hub ∧
      s.hub.keeps h [R.PG_ERROR + Pg.HANG * 0x1000, R.PG_ERROR_INFO + Pg.HANG * 0x1000] := by
  have e : s.hub.fenceAckTimeout z = s.hub.err Er.HANG_FENCE_NACK := by
    simp only [Hub.fenceAckTimeout, asked, silent, late, Bool.not_false, Bool.and_self, if_true]
  exact answers_hung (exec_fenceAckTimeout z s) e (.err _ (by decide) (by decide)) rfl (by decide) c fun h _ x =>
    ⟨(x.hasErr _).trans (Hub.hasErr_err _ _ (by decide)), x.rest, x.keeps⟩

end Sys2Proof.Machine
end

section
/-! SUPPORT. The retry of a policy's harvest (R293): a harvest of the slot's own domain is accepted, and the policy waits for it. -/

namespace Sys2Proof.Machine

variable {keys : List Nat}

/-! ### Changes of registers alone -/

/-- `h` comes from `s` by changing the registers of the keys and nothing else. -/
structure RegsOnly (keys : List Nat) (s h : Hub) : Prop where
  core : { h with regs := s.regs } = s
  regs : ∀ a b, regKey a b ∉ keys → h.regB a b = s.regB a b

theorem RegsOnly.trans {s t u : Hub} (h1 : RegsOnly keys s t) (h2 : RegsOnly keys t u) : RegsOnly keys s u := by
  refine ⟨?_, fun a b n => (h2.regs a b n).trans (h1.regs a b n)⟩
  have e : ({ u with regs := s.regs } : Hub) = { ({ u with regs := t.regs } : Hub) with regs := s.regs } := rfl
  rw [e, h2.core, h1.core]

theorem RegsOnly.setReg (s : Hub) {a : Nat} (v : Nat) (k : a ∈ keys) : RegsOnly keys s (s.setReg a v) :=
  ⟨rfl, (Hung.setReg s v k).regs⟩

theorem RegsOnly.setReg64 (s : Hub) {a : Nat} (v : Nat) (lo : a ∈ keys) (hi : a + 4 ∈ keys) : RegsOnly keys s (s.setReg64 a v) :=
  (RegsOnly.setReg s _ lo).trans (.setReg _ _ hi)

theorem RegsOnly.wr (s : Hub) {f : Fld} (v : Nat) (k : f.addr ∈ keys) : RegsOnly keys s (s.wr f v) := .setReg s _ k

theorem RegsOnly.same {s h : Hub} (k : RegsOnly keys s h) {α : Type} (g : Hub → α) (n : ∀ u r, g { u with regs := r } = g u) : g h = g s :=
  (n h s.regs).symm.trans (congrArg g k.core)

theorem RegsOnly.hung {s h : Hub} (k : RegsOnly keys s h) : Hung keys s h := by
  have occs := k.same Hub.occs fun _ _ => rfl
  refine ⟨k.same s.offHang (fun _ _ => rfl), k.regs, fun o m => .inl (occs ▸ m), fun o m => occs ▸ m, fun w => ?_⟩
  rwa [Hub.policiesWait, k.same Hub.hangCtl fun _ _ => rfl, k.same Hub.hang fun _ _ => rfl]

/-! ### What an accepted harvest of this hub's own domains shows (R100, R128) -/

/-- The registers an accepted harvest writes. -/
def harvShownKeys : List Nat :=
  [R.HARV_NEXT_VINTAGE, R.HARV_CUR_VINTAGE, R.HARV_OPEN_GCN_LO, R.HARV_OPEN_GCN_HI, R.HARV_PROGRESS, R.HARV_RAW_LO, R.HARV_RAW_HI,
    R.HARV_PRESSED_LO, R.HARV_PRESSED_HI, R.HARV_STATUS]

/-- The registers of a harvest with the vintage `number`, whose window opened at `now`, as it is accepted. -/
def Hub.harvShown (s : Hub) (next number now : Nat) : Hub :=
  (((((((s.setReg R.HARV_NEXT_VINTAGE next).setReg R.HARV_CUR_VINTAGE number).setReg64 R.HARV_OPEN_GCN_LO now).setReg R.HARV_PROGRESS
    0).setReg64 R.HARV_RAW_LO 0).setReg64 R.HARV_PRESSED_LO 0).harvPhase 1).harvStatus 1 St.OK false

theorem RegsOnly.harvShown (s : Hub) (next number now : Nat) : RegsOnly harvShownKeys s (s.harvShown next number now) :=
  (((((((((RegsOnly.setReg s (a := R.HARV_NEXT_VINTAGE) next (by decide)).trans (.setReg (a := R.HARV_CUR_VINTAGE) _ number (by decide))).trans
    (.setReg64 (a := R.HARV_OPEN_GCN_LO) _ now (by decide) (by decide))).trans (.setReg (a := R.HARV_PROGRESS) _ 0 (by decide))).trans
    (.setReg64 (a := R.HARV_RAW_LO) _ 0 (by decide) (by decide))).trans
    (.setReg64 (a := R.HARV_PRESSED_LO) _ 0 (by decide) (by decide))).trans (.wr (f := F.HARV_STATUS_PHASE) _ 1 (by decide))).trans
    (.wr (f := F.HARV_STATUS_STATUS) _ _ (by decide))).trans (.wr (f := F.HARV_STATUS_OP) _ _ (by decide))).trans
    (.wr (f := F.HARV_STATUS_DONE) _ _ (by decide))

theorem harvShown_phase (s : Hub) (next number now : Nat) : (s.harvShown next number now).rd F.HARV_STATUS_PHASE = 1 := by
  rw [Hub.harvShown, Hub.harvStatus, Hub.rd_wr_apart _ _ _ _ (by decide) (by decide), Hub.rd_wr_apart _ _ _ _ (by decide) (by decide),
    Hub.rd_wr_apart _ _ _ _ (by decide) (by decide), Hub.harvPhase, Hub.rd_wr _ _ _ (by decide)]
  rfl

/-- A harvest has begun and no piece of it has been taken. -/
def Harv.begun (v : Harv) : Prop := v.op = 1 ∧ v.admitted = false ∧ v.cur = {}

/-- The hub with other contents of the harvest, the cellar and the occurrences. -/
def Hub.harvesting (s : Hub) (v : Harv) (cell : Cellar) (occs : List Occ) : Hub := { s with harv := v, cell := cell, occs := occs }

section
variable (s : Hub) (v : Harv) (cell : Cellar) (occs : List Occ)

theorem setReg_harvesting (a x : Nat) : (s.harvesting v cell occs).setReg a x = (s.setReg a x).harvesting v cell occs := rfl

theorem setReg64_harvesting (a x : Nat) : (s.harvesting v cell occs).setReg64 a x = (s.setReg64 a x).harvesting v cell occs := rfl

theorem wr_harvesting (f : Fld) (x : Nat) : (s.harvesting v cell occs).wr f x = (s.wr f x).harvesting v cell occs := rfl

theorem issuedMeta_harvesting (t : Hub) : (s.harvesting v t.cell occs).issuedMeta 0 = s.harvesting v (t.issuedMeta 0).cell occs := rfl

theorem raiseOf_harvesting (c u : Nat) :
    ∃ o : Occ, o.code = c ∧ (s.harvesting v cell occs).raiseOf c u = s.harvesting v cell (occs ++ [o]) := ⟨_, rfl, rfl⟩

theorem rd_harvesting (f : Fld) (z : Nat) (m : Monitor) : ((s.harvesting v cell occs).setMon z m).rd f = s.rd f := rfl

theorem hangCtl_harvesting (z : Nat) (m : Monitor) : ((s.harvesting v cell occs).setMon z m).hangCtl = s.hangCtl := rfl

theorem restored_harvesting (t : Hub) (z : Nat) (m : Monitor) : t.restored ((s.harvesting v cell occs).setMon z m) =
    { t.restored s with hang := s.hang.set z m, harv := v, cell := cell } := rfl

theorem untraced_harvesting (z : Nat) (m : Monitor) : ((s.harvesting v cell occs).setMon z m).untraced = s.untraced := rfl

theorem mon_harvesting (z : Nat) : (s.harvesting v cell occs).mon z = s.mon z := rfl

end

/-- An accepted harvest of the hub's own domains, with the next free vintage number, begins. -/
theorem harvAccept_local {s : Hub} {q : HarvReq} (fed : q.a.fed = false) (xpkg : q.a.xpkg = false) (fresh : q.vintage = 0) :
    ∃ next number now unit v, s.harvAccept q =
        ((((((((((s.setReg R.HARV_NEXT_VINTAGE next).harvesting v s.cell s.occs).setReg R.HARV_CUR_VINTAGE number).setReg64
          R.HARV_OPEN_GCN_LO now).setReg R.HARV_PROGRESS 0).setReg64 R.HARV_RAW_LO 0).setReg64 R.HARV_PRESSED_LO 0).harvPhase 1).issuedMeta
          0).raiseOf Ev.HARV_STARTED unit) ∧
      v.begun ∧ v.policySlot = q.policySlot ∧ v.slots = s.scopeSlots q.a := by
  have number : s.takeNumber q.vintage = (s.freeNumber 1026 (s.reg R.HARV_NEXT_VINTAGE),
      s.setReg R.HARV_NEXT_VINTAGE (nextNumber (s.freeNumber 1026 (s.reg R.HARV_NEXT_VINTAGE)))) := by
    rw [fresh]; rfl
  simp only [Hub.harvAccept, number, fed, xpkg, Bool.false_eq_true, if_false]
  exact ⟨_, _, _, _, _, rfl, ⟨rfl, rfl, rfl⟩, rfl, rfl⟩

theorem harvStart_local {s : Hub} {q : HarvReq} (ok : s.harvCheck q = St.OK) (fed : q.a.fed = false) (xpkg : q.a.xpkg = false)
    (fresh : q.vintage = 0) :
    ∃ next number now o v, s.harvStart q = (St.OK, (s.harvShown next number now).harvesting v (s.issuedMeta 0).cell (s.occs ++ [o])) ∧
      o.code = Ev.HARV_STARTED ∧ v.begun ∧ v.policySlot = q.policySlot ∧ v.slots = s.scopeSlots q.a := by
  obtain ⟨next, number, now, unit, v, accept, fact⟩ := harvAccept_local (s := s) fed xpkg fresh
  have issue : s.harvStart q = (St.OK, (s.harvAccept q).harvStatus 1 St.OK false) := by
    simp only [Hub.harvStart, Hub.harvIssue, ok, beq_self_eq_true, if_true]
  rw [setReg_harvesting, setReg64_harvesting, setReg_harvesting, setReg64_harvesting, setReg64_harvesting, Hub.harvPhase, wr_harvesting,
    issuedMeta_harvesting] at accept
  obtain ⟨o, code, raised⟩ := raiseOf_harvesting (((((((s.setReg R.HARV_NEXT_VINTAGE next).setReg R.HARV_CUR_VINTAGE number).setReg64
    R.HARV_OPEN_GCN_LO now).setReg R.HARV_PROGRESS 0).setReg64 R.HARV_RAW_LO 0).setReg64 R.HARV_PRESSED_LO 0).wr F.HARV_STATUS_PHASE 1) v
    (s.issuedMeta 0).cell s.occs Ev.HARV_STARTED unit
  refine ⟨next, number, now, o, v, ?_, code, fact⟩
  rw [issue, accept, raised, Hub.harvStatus, wr_harvesting, wr_harvesting, wr_harvesting, Hub.harvShown, Hub.harvPhase, Hub.harvStatus]

/-! ### The retry (R293) -/

/-- The harvest of a policy that is not federated is accepted: the policy waits for its end. -/
theorem policyHarvest_local {s : Hub} {z : Nat} (ok : s.harvCheck (s.policyReq z) = St.OK) (own : s.rdB F.HANG_MON_CFG_FED z = 0) :
    ∃ next number now o v, s.policyHarvest z = ((s.harvShown next number now).harvesting v (s.issuedMeta 0).cell (s.occs ++ [o])).setMon z
        { s.mon z with pstep := 3, pdue := false, retryAt := 0 } ∧
      o.code = Ev.HARV_STARTED ∧ v.begun ∧ v.policySlot = some z ∧ v.slots = s.scopeSlots (s.policyScope z) := by
  have fed : (s.policyReq z).a.fed = false := by simp only [Hub.policyReq, Hub.policyScope, own]; rfl
  obtain ⟨next, number, now, o, v, start, fact⟩ := harvStart_local ok fed rfl rfl
  refine ⟨next, number, now, o, v, ?_, fact⟩
  have mon : (s.harvShown next number now).mon z = s.mon z := rfl
  rw [Hub.policyHarvest, start, if_pos (beq_self_eq_true _), Hub.policyAt, mon_harvesting, mon]

/-- One policy waits for its retry: its harvest is accepted. -/
theorem policyRetry_local {s : Hub} {z : Nat} {m : Monitor} (one : s.hang.cells = [(z, m)]) (on : m.policy ≠ 0) (step : m.pstep = 2)
    (asked : m.retryAt ≠ 0) (due : m.retryAt ≤ s.time.hclk) (within : s.fenceOver z = false) (none' : s.hangCtl.peers = [])
    (own : s.rdB F.HANG_MON_CFG_FED z = 0) (ok : s.harvCheck (s.policyReq z) = St.OK) :
    ∃ g o v, s.policyRetry = (g.harvesting v (s.issuedMeta 0).cell (s.occs ++ [o])).setMon z { m with pstep := 3, pdue := false, retryAt := 0 } ∧
      RegsOnly harvShownKeys s g ∧ g.rd F.HARV_STATUS_PHASE = 1 ∧ o.code = Ev.HARV_STARTED ∧ v.begun ∧ v.policySlot = some z ∧
      v.slots = s.scopeSlots (s.policyScope z) := by
  obtain ⟨next, number, now, o, v, e, fact⟩ := policyHarvest_local ok own
  have shown := RegsOnly.harvShown s next number now
  have phase := harvShown_phase s next number now
  generalize s.harvShown next number now = g at *
  refine ⟨g, o, v, ?_, shown, phase, fact⟩
  have mon : s.mon z = m := by
    rw [Hub.mon, Tab.get, one]
    simp [findKey]
  have peers : (s.policyHarvest z).hangCtl.peers = [] := by
    rw [e, hangCtl_harvesting, shown.same Hub.hangCtl fun _ _ => rfl, none']
  have first : s.policyRetry = doEach ((s.policyHarvest z).hangCtl.peers.filter
      fun p => p.step == 2 && p.retryAt != 0 && p.retryAt ≤ (s.policyHarvest z).time.hclk) (s.policyHarvest z)
        fun s p => s.peerHarvest { p with retryAt := 0 } := by
    simp only [Hub.policyRetry, one, List.filter_cons, List.filter_nil, bne_iff_ne.mpr on, step, bne_iff_ne.mpr asked, due, decide_true,
      beq_self_eq_true, Bool.and_self, if_true, List.map_cons, List.map_nil, doEach_cons, doEach_nil, within, Bool.false_eq_true, if_false]
  rw [first, peers, List.filter_nil, doEach_nil, e, mon]

/-- A harvest that has just begun keeps nothing of `follow` from waiting. -/
theorem Hub.still.harvesting {s g : Hub} (k : s.still) (only : RegsOnly keys s g) {v : Harv} (begun : v.begun) {z : Nat} {m was : Monitor}
    (idle : m.pdue = false) (one : s.hang.cells = [(z, was)]) (cell : Cellar) (occs : List Occ) :
    ((g.harvesting v cell occs).setMon z m).still := by
  obtain ⟨reports, -, peers, reqs, soft, ladder, -, -, -⟩ := k
  obtain ⟨op, waiting, empty⟩ := begun
  have hang := only.same Hub.hang fun _ _ => rfl
  rw [← only.same Hub.hangCtl fun _ _ => rfl] at reports peers
  rw [← only.same Hub.link fun _ _ => rfl] at reqs
  rw [← only.same Hub.softReset fun _ _ => rfl] at soft
  rw [← only.same Hub.ladder fun _ _ => rfl] at ladder
  have cells : ((g.harvesting v cell occs).setMon z m).hang.cells = [(z, m)] := by
    show putKey z m g.hang.cells = _
    rw [hang, one]
    simp [putKey]
  have harv : (g.harvesting v cell occs).harv = v := rfl
  refine ⟨reports, by simp [cells, idle], peers, reqs, soft, ladder, by simp [harv, waiting], by simp [harv, empty], .inl ?_⟩
  simp [Hub.harvReady, harv, waiting]

theorem exec_policyRetry (s : State) : exec .policyRetry s = run Hub.policyRetry s := rfl

theorem policyRetry_harvests (s : State) (z : Nat) (m : Monitor) (c : s.hub.calm = true) (one : s.hub.hang.cells = [(z, m)])
    (on : m.policy ≠ 0) (step : m.pstep = 2) (asked : m.retryAt ≠ 0) (due : m.retryAt ≤ s.hub.time.hclk)
    (within : s.hub.fenceOver z = false) (none' : s.hub.hangCtl.peers = []) (own : s.hub.rdB F.HANG_MON_CFG_FED z = 0)
    (ok : s.hub.harvCheck (s.hub.policyReq z) = St.OK) :
    Answers .policyRetry s fun h =>
      h.mon z = { m with pstep := 3, pdue := false, retryAt := 0 } ∧ h.harv.op = 1 ∧ h.harv.policySlot = some z ∧
      h.harv.slots = s.hub.scopeSlots (s.hub.policyScope z) ∧ h.rd F.HARV_STATUS_PHASE = 1 ∧
      s.hub.rest h = { s.hub with hang := h.hang, harv := h.harv, cell := h.cell } ∧ s.hub.keepsOff h [Pg.HARV] := by
  obtain ⟨g, o, v, e, shown, phase, code, begun, policySlot, slots⟩ := policyRetry_local one on step asked due within none' own ok
  obtain ⟨link, pins, store, coops, writes, regs, -⟩ := shown.hung.apart c
  have quiet : ∀ a ∈ s.hub.occs ++ [o], a.code ≠ Ev.RELEASED := by
    rw [(calm_nothing_left c).1]
    intro a m
    rw [List.mem_singleton.mp m, code]
    decide
  have untraced : g.untraced := by
    obtain ⟨running, hubev⟩ := calm_untraced c
    exact ⟨by rw [Hub.flag, shown.hung.rd _ (by decide), ← Hub.flag, running], by rw [Hub.flag, shown.hung.rd _ (by decide), ← Hub.flag, hubev]⟩
  have page : ∀ k ∈ harvShownKeys, k % 0x100000 / 0x1000 = Pg.HARV := by decide
  refine answers_followed (exec_policyRetry s) e ⟨link, pins, store, coops, writes, regs, quiet⟩
    (follow_still ((calm_still c).harvesting shown begun rfl one _ _)) ((untraced_harvesting ..).mpr untraced) c fun t _ x =>
      ⟨(x.mon z).trans (mon_setMon_same _ _ _), (congrArg Harv.op x.harv).trans begun.1, (congrArg Harv.policySlot x.harv).trans policySlot,
        (congrArg Harv.slots x.harv).trans slots, ?_, ?_, fun a b q n => x.keeps a b q fun m => n (by simp [page _ m])⟩
  · rw [x.rd _ (by decide), rd_harvesting, phase]
  · rw [x.rest, x.hang, x.harv, x.cell, restored_harvesting, shown.same s.hub.restored fun _ _ => rfl]
    rfl

/-- Settles O48: the commands of the hang controller, the life of a fence from its request to its end, and the retry of a policy's harvest. -/
theorem fences_are_asked_for_drained_and_released : Obligations.fences_are_asked_for_drained_and_released :=
  ⟨hangFence_asks, hangRelease_withdraws, clearFired_restarts, clearHistory_restarts, hangClearStats_clears, fenceDrained_fences,
    fenceDrainLimit_abandons, fenceAbandonDone_fences, fenceLimit_ends, fenceAckTimeout_errs, policyRetry_harvests⟩

end Sys2Proof.Machine
end

section
/-! SUPPORT. LADDER between hubs: a CONTEXT level ordered for a slot whose table entry stands twice. -/

namespace Sys2Proof.Machine

/-! ### A CONTEXT level for a tag whose slot reads EMPTY (R297, R333) -/

/-- A hub whose table of domains holds slot 3 twice, first EMPTY with tag 7 and then RUNNING, and whose tendril 1 is UP: the slot counts as open,
and reads EMPTY. -/
def slotListedTwice : State :=
  on fun h => { h.setTend 1 { st := Ts.UP } with doms := ⟨[(3, { tag := 7 }), (3, { st := .running })]⟩ }

/-- A LADDER frame to that hub on tendril 1. -/
def ladderFrame : Hdr2 := { tendril := 1, dest := 130, src := 131 }

/-- The level finds no slot to drain (R297). -/
theorem ladderRx_drains_nothing (t : State) (x : exec (.ladderRx ladderFrame 0 false 7) slotListedTwice = .next t) :
    t.hub.ladder.drain = [] := by
  injection x with x
  subst x
  decide +kernel

/-- Refutes O50: the slot of an ordered CONTEXT level is taken from the open slots with the tag, and the level covers it only where its domain does
not read EMPTY; the statement does not ask that the table of domains hold each slot once, and where it holds an open slot twice, EMPTY first, the
level has nothing to drain. -/
theorem not_hubs_order_levels_and_report_lost_packages : ¬ Obligations.hubs_order_levels_and_report_lost_packages := by
  intro h
  obtain ⟨-, ordered, -⟩ := h
  have calm : slotListedTwice.hub.calm = true := by decide +kernel
  have taken : slotListedTwice.hub.takesFrame ladderFrame Op.LADDER = true := by decide +kernel
  have tagged : slotListedTwice.hub.openSlots.filter (fun y => (slotListedTwice.hub.dom y).tag == (7 : BitVec 16).toNat) = [3] := by
    decide +kernel
  obtain ⟨t, next, -, -, -, -, drain, -⟩ :=
    ordered slotListedTwice ladderFrame 7 3 calm taken rfl tagged (by decide +kernel) (by decide +kernel) (by decide +kernel)
  rw [ladderRx_drains_nothing t next] at drain
  cases drain

end Sys2Proof.Machine
end

section
/-! SUPPORT. The statements of federation: a training that fails announces the hub anew, a federated slot leaves its local mask, a route that goes
out of use shows in MAX_HOPS, and a cross-package stop that ends with TIMEOUT marks its domains. -/

namespace Sys2Proof.Machine

/-! ### A failed training beside a tendril that is UP (R319, R322) -/

/-- Tendril 0 trains, and tendril 1 is UP. -/
def trainingBesideUp : State := on fun h => (h.setTend 0 { st := Ts.TRAINING }).setTend 1 { st := Ts.UP }

/-- The echo after a round trip of 20 HCLK fails the training of tendril 0, and a fresh ANNOUNCE goes out on tendril 1 (log entry 170). -/
theorem trainFail_announces_on_up_tendril (t : State) (x : exec (.trainRx 0 true 0 199980) trainingBesideUp = .next t) :
    ((t.hub.tend 1).txQ.map Fr.type) = [Ft.ANNOUNCE] := by
  injection x with x
  subst x
  decide +kernel

/-- Refutes O24: a training that fails floods a fresh ANNOUNCE, so a tendril that is UP then has a frame to send, though the statement keeps every
other tendril as it was. -/
theorem not_tendrils_train_acknowledge_and_resend : ¬ Obligations.tendrils_train_acknowledge_and_resend := by
  intro h
  obtain ⟨-, trainFails, -⟩ := h
  have calm : trainingBesideUp.hub.calm = true := by decide +kernel
  have powered : trainingBesideUp.hub.time.powered = true := by decide +kernel
  have training : (trainingBesideUp.hub.tend (0 : TendrilId)).st ≠ Ts.UP := by decide +kernel
  have trip : (trainingBesideUp.hub.time.hclk + 2 ^ 32 - (199980 : Word).toNat) % 2 ^ 32 = 20 := by decide +kernel
  obtain ⟨t, next, -, -, -, -, others, -⟩ := trainFails trainingBesideUp 0 0 199980 20 calm powered training trip (by decide)
  have announced := trainFail_announces_on_up_tendril t next
  rw [others 1 (by decide)] at announced
  exact absurd announced (by decide +kernel)

/-! ### A slot that becomes federated under a local mask (R330) -/

/-- A stopped domain in slot 3 under a MANUAL stall mask in force, selected on the FED page. -/
def stalledSlotSelected : State := on fun h =>
  (h.setDom 3 { st := .stopped, manual := some { mask := 3 }, mask := 3 }).wr F.FED_JOB_SEL_SLOT 3

/-- Made federated with anchor 131, the slot applies its local mask no more (R330). -/
theorem fedJobWrite_lifts_local_mask (t : State) (x : exec (.fedJobWrite .mgmt 0x107) stalledSlotSelected = .next t) :
    (t.hub.dom 3).mask = 0 := by
  injection x with x
  subst x
  decide +kernel

/-- Refutes O25: a FED_JOB that makes a stopped slot federated takes its local mask out of force, which the statement leaves in the domain. -/
theorem not_fed_page_commands_act_on_tendrils_and_settings : ¬ Obligations.fed_page_commands_act_on_tendrils_and_settings := by
  intro h
  obtain ⟨-, -, -, -, -, -, jobTaken, -⟩ := h
  have calm : stalledSlotSelected.hub.calm = true := by decide +kernel
  have taken : stalledSlotSelected.hub.takesWrite .mgmt R.FED_JOB (0x107 : Word).toNat = true := by decide +kernel
  have selected : stalledSlotSelected.hub.rd F.FED_JOB_SEL_SLOT = 3 := by decide +kernel
  have stopped : (stalledSlotSelected.hub.dom 3).st = .stopped := by decide +kernel
  have stalled : (stalledSlotSelected.hub.dom 3).mask = 3 := by decide +kernel
  obtain ⟨t, next, -, -, -, dom, -⟩ :=
    jobTaken stalledSlotSelected .mgmt 0x107 3 calm taken selected (by rw [stopped]; decide) (by rw [stopped]; decide)
  have lifted := fedJobWrite_lifts_local_mask t next
  rw [dom] at lifted
  exact absurd (stalled.symm.trans lifted) (by decide)

/-! ### A route that two rounds did not refresh (R322) -/

/-- A hub whose only route, to field 4 over 3 hops, has age 2 at the end of an announce period; FED_SELF shows its hops. -/
def staleOnlyRoute : State := on fun h =>
  { h.wr F.FED_SELF_MAX_HOPS 3 with
    fed := { h.fed with routes := ⟨[(4, { hops := 3, valid := true, age := 2 })]⟩ }
    time := { h.time with hclk := 20000000 } }

/-- Without the route FED_SELF.MAX_HOPS shows another distance. -/
theorem announcePeriod_changes_maxHops (t : State) (x : exec .announcePeriod staleOnlyRoute = .next t) :
    t.hub.regB R.FED_SELF 0 ≠ staleOnlyRoute.hub.regB R.FED_SELF 0 := by
  injection x with x
  subst x
  decide +kernel

/-- Refutes O26: the entry that becomes invalid no longer counts for MAX_HOPS of FED_SELF, and the statement keeps every register. -/
theorem not_routes_requests_and_answers_between_hubs : ¬ Obligations.routes_requests_and_answers_between_hubs := by
  intro h
  obtain ⟨-, period, -⟩ := h
  have calm : staleOnlyRoute.hub.calm = true := by decide +kernel
  have powered : staleOnlyRoute.hub.time.powered = true := by decide +kernel
  have due : staleOnlyRoute.hub.elapsed staleOnlyRoute.hub.fed.lastAnn (2 ^ 24) = true := by decide +kernel
  have listed : 4 ∈ staleOnlyRoute.hub.fed.routes.keys := by decide +kernel
  have stale : 2 ≤ (staleOnlyRoute.hub.fed.routes.get 4 {}).age := by decide +kernel
  obtain ⟨t, next, -, -, -, -, -, keeps⟩ := period staleOnlyRoute 4 calm powered due listed stale
  exact announcePeriod_changes_maxHops t next (keeps _ 0 (by decide) (by decide))

/-! ### A cross-package stop that waits for a member alone (R306, R329) -/

/-- A cross-package STOP of slot 3: its own field has stopped, every package has reported, member 132 has not. -/
def stopAwaitingMember : CorkOp :=
  { id := 4, slots := [3], live := [3], fed := true, xpkg := true, firstSlot := 3, localDone := true, members := [132] }

/-- The hub that issued it, longer than FED_CMD_TIMEOUT after its own completion. -/
def memberSilent : State := on fun h =>
  { h.stopped3 with corks := [stopAwaitingMember], time := { h.time with hclk := 90000000 } }

/-- Ending with TIMEOUT, the stop leaves its domain marked as inconsistent across packages (R78, R306). -/
theorem memberReportTimeout_marks_domain (t : State) (x : exec .memberReportTimeout memberSilent = .next t) :
    (t.hub.dom 3).xpkgLate = true := by
  injection x with x
  subst x
  decide +kernel

/-- Refutes O30: where the federated command is a cross-package STOP, its end with TIMEOUT marks its domains, and the statement lets nothing but
the list of operations change. -/
theorem not_waves_and_stalls_cross_the_fields_of_a_package : ¬ Obligations.waves_and_stalls_cross_the_fields_of_a_package := by
  intro h
  obtain ⟨-, -, silent, -⟩ := h
  have calm : memberSilent.hub.calm = true := by decide +kernel
  have late : memberSilent.hub.elapsed stopAwaitingMember.localAt (memberSilent.hub.rd F.FED_CMD_TIMEOUT_HCLK) = true := by decide +kernel
  obtain ⟨t, next, -, -, -, -, rest, -⟩ :=
    silent memberSilent stopAwaitingMember .mgmt 132 calm rfl rfl rfl rfl rfl (List.mem_singleton_self 132) late
  have doms : t.hub.doms = memberSilent.hub.doms := show (memberSilent.hub.rest t.hub).doms = _ by rw [rest]
  have marked := memberReportTimeout_marks_domain t next
  rw [Hub.dom, doms] at marked
  exact absurd marked (by decide +kernel)

end Sys2Proof.Machine
end


section
/-! SUPPORT. The statements about the machine as a whole: its reset state, the commands that complete, its outputs, and the writes of one
register that the bus refuses. -/

namespace Sys2Proof.Machine

set_option Elab.async false

/-! ### Reset (R459, R482) -/

/-- Settles O3: no register is listed at reset, so each reads the value of its table. -/
theorem reset_leaves_every_register_at_its_reset_value : Obligations.reset_leaves_every_register_at_its_reset_value :=
  ⟨rfl, rfl, by decide +kernel, rfl, rfl, rfl, fun a _ => BitVec.toNat_ofNat (regReset a) 32⟩

/-! ### Commands complete (R341, R344, R380, R493) -/

theorem runIf_goesOn {ok : Bool} (f : Hub → Hub) (s : State) :
    (ok = true → goesOn (runIf ok f s) = true) ∧ (ok = false → runIf ok f s = .fault .malformed) := by
  cases ok with
  | true => exact ⟨fun _ => rfl, nofun⟩
  | false => exact ⟨nofun, fun _ => rfl⟩

/-- Settles O4: the rows that carry strings of a fixed length run under the check of that length, and every other row runs. -/
theorem well_formed_commands_complete : Obligations.well_formed_commands_complete := by
  intro i s
  cases i with
  | flashHeaderRead | pcsCodewordRx | flitRx | initFlitRx | powerWindowEnd | memoryDelivery => exact runIf_goesOn _ s
  | _ => exact ⟨fun _ => rfl, nofun⟩

/-! ### Outputs (R420, R486, R487) -/

/-- Driving the outputs makes them what the registers and the time base say, whatever the memories then become. -/
theorem commit_driven (h : Hub) (st : Store) : (h.drivePins.commit st).driven = true := by
  have time : (h.drivePins.commit st).time = h.time := rfl
  have lead : (h.drivePins.commit st).isLead = h.isLead := rfl
  have pma : (h.drivePins.commit st).pins.pmaResetN = (h.time.powered && h.isLead && h.pins.pmaResetN) := rfl
  have on : (!(h.time.powered && h.isLead && h.pins.pmaResetN) || (h.time.powered && h.isLead)) = true := by
    cases h.time.powered <;> cases h.isLead <;> simp
  unfold Hub.driven
  rw [pma, time, lead, on, Bool.and_true]
  simp only [Bool.and_eq_true, beq_iff_eq]
  exact ⟨⟨⟨⟨⟨rfl, rfl⟩, rfl⟩, rfl⟩, rfl⟩, rfl⟩

/-- A command that goes on ends by driving the outputs. -/
theorem run_driven {f : Hub → Hub} {s t : State} (h : run f s = .next t) : t.hub.driven = true := by
  simp only [run, Host.Outcome.next.injEq] at h
  subst h
  exact commit_driven _ _

theorem runIf_driven {ok : Bool} {f : Hub → Hub} {s t : State} (h : runIf ok f s = .next t) : t.hub.driven = true := by
  cases ok with
  | true => exact run_driven h
  | false => cases h

theorem exec_driven (i : Instr) (s t : State) (h : exec i s = .next t) : t.hub.driven = true := by
  unfold exec at h
  cases i with
  | flashHeaderRead | pcsCodewordRx | flitRx | initFlitRx | powerWindowEnd | memoryDelivery => exact runIf_driven h
  | _ => exact run_driven h

/-- Settles O6: every command and every period of a powered hub ends by driving the outputs, and a hub without power stays as it is. -/
theorem every_step_drives_the_outputs : Obligations.every_step_drives_the_outputs := by
  intro s t d h
  unfold step at h
  split at h
  case h_1 i rest _ => exact exec_driven i _ t h
  case h_2 =>
    unfold State.tick at h
    split at h
    · exact run_driven h
    · cases h; exact d

/-! ### Refused writes (R468, R469) -/

/-- Every row that writes one register is that write: a command row its register's command, any other row a write through the bus. -/
theorem exec_asWrite {s : State} {i : Instr} {r : Req} {a v : Nat} (w : asWrite s.hub i = some (r, a, v)) :
    ∃ f, exec i s = run f s ∧ ((v < 2 ^ 32 ∧ ∃ g, f s.hub = s.hub.cmd r a v g) ∨ f s.hub = s.hub.regWrite r a v) := by
  unfold exec
  cases i with
  | coopStart q coop script =>
    simp only [asWrite, Option.some.injEq, Prod.mk.injEq] at w
    obtain ⟨rfl, rfl, rfl⟩ := w
    exact ⟨_, rfl, .inl ⟨by omega, _, rfl⟩⟩
  | faultInject q x =>
    simp only [asWrite, Option.some.injEq, Prod.mk.injEq] at w
    obtain ⟨rfl, rfl, rfl⟩ := w
    exact ⟨_, rfl, .inl ⟨x.isLt, _, rfl⟩⟩
  | rackPause | coopProgDataWrite | fedDomainWrite | fedJobWrite | caneBrokenWrite | calStart | pwrClkreq | pwrCtxWrite | pressCtrlWrite
  | pgEventForce | pgClaim | pgRelease | forceRelease | registerWrite | spurSramLoWrite | spurSramHiWrite | tracefWrite | estOnlyForce
  | softReset | pgLock =>
    simp only [asWrite, Option.some.injEq, Prod.mk.injEq] at w
    obtain ⟨rfl, rfl, rfl⟩ := w
    exact ⟨_, rfl, .inr rfl⟩
  | bistRun | bistAbort | loadPack | dropPack | bistClearStats | bootRelease | authChallenge | authVerify | authRevoke | cellPin | cellUnpin
  | cellDelete | cellFormat | cellClearStats | rack | rackTrace | rackCancel | rackClearStats | coopAbort | loadBegin | loadCommit
  | coopClearStats | corkStop | corkStep | corkResume | corkAbort | stallSet | stallClear | fedRetrain | reannounce | fedClearStats | hangFence
  | hangRelease | clearFired | clearHistory | hangClearStats | ladderReset | isolate | readmit | rsetClearStats | harvest | harvAbort | decant
  | decantRelease | caneLocate | clearBroken | caneClearStats | linkRetrain | linkDownCmd | linkClearStats | flushBlock | laneRetire
  | laneRestore | pressClearStats | glbOpen | addTiles | removeTiles | glbClose | tendNow | relClearStats | pairTakeover | restoreStandby
  | pairClearStats | sampleNow | unlockEvid | retireTaster | restoreTaster | tasteClearStats | runTiles | runExt | digestAbort
  | digestClearStats | rearmFirst | numwClearStats | establish | reepoch | timeResync | armTbs | clkchg | clkchgCancel | traceStart | traceStop
  | traceFreeze | traceUnfreeze | traceResync | clearRing | traceArm | traceTrigger | traceClearStats =>
    simp only [asWrite, Option.some.injEq, Prod.mk.injEq] at w
    obtain ⟨rfl, rfl, rfl⟩ := w
    exact ⟨_, rfl, .inl ⟨by decide, _, rfl⟩⟩
  | _ => cases w

/-- Requesters have codes of their own (R464). -/
theorem reqCode_injective {q r : Req} (e : reqCode q = reqCode r) : q = r := by
  revert e
  cases q <;> cases r <;> decide

/-- A command register that the bus refuses, with no fault planted. -/
theorem cmd_refused {s : Hub} {r : Req} {a v st : Nat} (f : Hub → Hub) (t : s.accessStatus r a true v = st) (n : st ≠ St.OK)
    (i : s.rel.inject = none) : s.cmd r a v f = s.refuse r a true st := by
  have same : (s.refuse r a true st).rel.inject = none := i
  simp only [Hub.cmd, Hub.command, t, beq_iff_eq, n, if_false]
  exact usePage_unplanted same a

/-- A reserved address is refused to nobody (R469). -/
theorem accessStatus_reserved {s : Hub} {r : Req} {a v : Nat} {write : Bool} (d : (regDef (normAddr a)).isNone = true) :
    s.accessStatus r a write v = St.OK := by
  simp only [Hub.accessStatus, d, if_true]

theorem regWrite_refused {s : Hub} {r : Req} {a v st : Nat} (t : s.accessStatus r a true (v % 2 ^ 32) = st) (n : st ≠ St.OK)
    (i : s.rel.inject = none) : s.regWrite r a v = s.refuse r a true st := by
  by_cases d : (regDef (normAddr a)).isNone = true
  · exact absurd ((accessStatus_reserved d).symm.trans t).symm n
  · rw [Hub.regWrite, if_neg d, cmd_refused _ t n i]

/-- A row that writes one register is refused as R469 says. -/
theorem exec_refused {s : State} {i : Instr} {r : Req} {a v st : Nat} (w : asWrite s.hub i = some (r, a, v))
    (t : s.hub.accessStatus r a true (v % 2 ^ 32) = st) (n : st ≠ St.OK) (none' : s.hub.rel.inject = none) :
    ∃ f, exec i s = run f s ∧ f s.hub = s.hub.refuse r a true st := by
  obtain ⟨f, x, ⟨small, g, e⟩ | e⟩ := exec_asWrite w
  · rw [Nat.mod_eq_of_lt small] at t
    exact ⟨f, x, e.trans (cmd_refused g t n none')⟩
  · exact ⟨f, x, e.trans (regWrite_refused t n none')⟩

/-- The registers that record a refused access (R469). -/
def refusedKeys : List Nat := [R.GLB_REFUSED, R.GLB_REFUSED_COUNT, R.PG_ERROR, R.PG_ERROR_INFO]

theorem Touched.refuse (s : Hub) (r : Req) (a : Nat) (write : Bool) (st : Nat) : Touched refusedKeys s (s.refuse r a write st) :=
  (((Touched.setReg s _ (by decide)).trans (.wr _ _ (by decide))).trans (.err _ (by decide) (by decide))).trans (.respond _ _ _ _)

/-- What GLB_REFUSED shows of a refused access. -/
theorem Hub.reg_refused (s : Hub) (r : Req) (a st : Nat) (write : Bool) : (s.refuse r a write st).reg R.GLB_REFUSED =
    (normAddr a + reqCode r * 2 ^ 20 + b2n write * 2 ^ 23 + st * 2 ^ 24) % 2 ^ 32 := by
  have same : (s.refuse r a write st).reg R.GLB_REFUSED = (s.setReg R.GLB_REFUSED
      (normAddr a + reqCode r * 0x100000 + b2n write * 0x800000 + st * 0x1000000)).reg R.GLB_REFUSED := by
    simp only [Hub.refuse, Hub.err, Hub.bump]
    rw [show ∀ (h : Hub) v w, (h.respond r v w).reg R.GLB_REFUSED = h.reg R.GLB_REFUSED from fun _ _ _ => rfl]
    rw [Hub.reg_wr_ne _ _ _ (by decide), Hub.reg_wr_ne _ _ _ (by decide), Hub.reg_wr_ne _ _ _ (by decide)]
  rw [same, Hub.reg_setReg]
  rfl

/-- GLB_REFUSED_COUNT counts a refused access. -/
theorem Hub.rd_refusedCount (s : Hub) (r : Req) (a st : Nat) (write : Bool) : (s.refuse r a write st).rd F.GLB_REFUSED_COUNT_COUNT =
    sat F.GLB_REFUSED_COUNT_COUNT.width (s.rd F.GLB_REFUSED_COUNT_COUNT + 1) := by
  rw [Hub.refuse, Hub.rd_respond, Hub.err, Hub.rd_wr_apart _ _ _ _ (by decide) (by decide),
    Hub.rd_wr_apart _ _ _ _ (by decide) (by decide), Hub.bump, Hub.rd_wr _ _ _ (by decide), Nat.mod_eq_of_lt (sat_lt _ _),
    Hub.rd_setReg_ne _ _ _ (by decide)]

/-- Settles O7: a row that writes one register is either a command or a write through the bus, and both leave a refused access to its record,
which touches the registers that record it alone. -/
theorem a_refused_register_write_changes_nothing_but_its_record : Obligations.a_refused_register_write_changes_nothing_but_its_record := by
  intro s i r a v st c w t n
  obtain ⟨f, x, e⟩ := exec_refused w t n (calm_unplanted c)
  refine answers_touched x e (Touched.refuse s.hub r a true st) (by decide) c fun h x => ?_
  refine ⟨?_, fun q m => ?_, ?_, ?_, ?_, x.rest, x.keeps⟩
  · rw [x.bus]; exact Hub.bus_respond _ _ _ _
  · rw [x.bus]
    exact Tab.get_set_ne _ (fun e => m (reqCode_injective e)) _ _
  · have same := x.regs R.GLB_REFUSED 0 (by decide)
    exact same.trans (Hub.reg_refused s.hub r a st true)
  · rw [x.rd _ (by decide)]; exact Hub.rd_refusedCount s.hub r a st true
  · rw [x.hasErr, Hub.refuse, Hub.hasErr_respond]; exact Hub.hasErr_err _ _ (by decide)

end Sys2Proof.Machine
end


section
/-! SUPPORT. Cooper and rack port statements that fail: a STOP of the federated FIELD stops at a GCN, an occurrence word keeps 32 bits of a
code, and a degraded cause not shown yet tells every cooper on the edge of any command. -/

namespace Sys2Proof.Machine

set_option Elab.async false

/-! ### A federated FIELD STOP, by message and by cooper (R64, R327) -/

/-- The body of a CORK message: an ASAP STOP of the federated FIELD (R358). -/
def federatedStopBody : List Byte := le 1 1 ++ zeros 3 ++ le 4 0xB ++ zeros 20

/-- A running domain in slot 3, federation on, the rack link UP. -/
def federatedPort : State := on fun h => (h.running3.wr F.FED_CTRL_EN 1).wr F.LINK_STATE_STATE Lk.UP

/-- The STOP a message asks for gives its domain no schedule cycle: its wave carries a GCN (R327). -/
theorem portCork_federatedField_stops_at_gcn (t : State) (x : exec (.portCork 7 130 federatedStopBody) federatedPort = .next t) :
    (t.hub.dom 3).stopScn = none := by
  injection x with x
  subst x
  decide +kernel

/-- Refutes O55: a CORK message that asks for an ASAP STOP of the federated FIELD stops its domains in GCN mode, and not at the schedule
cycle that the ASAP target names. -/
theorem not_the_rack_port_executes_the_requests_it_takes : ¬ Obligations.the_rack_port_executes_the_requests_it_takes := by
  intro h
  obtain ⟨-, -, -, -, cork, -⟩ := h
  have calm : federatedPort.hub.calm = true := by decide +kernel
  have takes : federatedPort.hub.takesMessage Mt.CORK (7 : BitVec 16).toNat (130 : BitVec 16).toNat federatedStopBody = true := by decide +kernel
  have here : (130 : BitVec 16).toNat = federatedPort.hub.hubAddr := by decide +kernel
  have stop : leAt federatedStopBody 0 1 = 1 := by decide +kernel
  have passes : (federatedPort.hub.wr F.LINK_TAG_LAST (7 : BitVec 16).toNat).corkCheck true 1 (corkBodyArgs federatedStopBody) = St.OK := by
    decide +kernel
  have runs : (federatedPort.hub.wr F.LINK_TAG_LAST (7 : BitVec 16).toNat).alreadyStopped (corkBodyArgs federatedStopBody) = false := by
    decide +kernel
  have live : 3 ∈ (federatedPort.hub.wr F.LINK_TAG_LAST (7 : BitVec 16).toNat).liveSlots 1 (corkBodyArgs federatedStopBody) := by
    decide +kernel
  have inPackage : (corkBodyArgs federatedStopBody).xpkg = false := by decide +kernel
  have target : (federatedPort.hub.wr F.LINK_TAG_LAST (7 : BitVec 16).toNat).stopTarget (corkBodyArgs federatedStopBody) 3 = some 102 := by
    decide +kernel
  obtain ⟨t, next, -, -, stopScn, -⟩ :=
    cork federatedPort 7 130 federatedStopBody _ 3 calm takes here rfl stop passes runs live inPackage
  rw [portCork_federatedField_stops_at_gcn t next, target] at stopScn
  cases stopScn

/-- A CORK instruction whose block at word 20 asks for an ASAP STOP of the federated FIELD, with a running domain in slot 3. -/
def federatedCooper : State :=
  on fun h => (h.running3.wr F.FED_CTRL_EN 1).setCoop 0 (script1 0x88c00014 { data := ⟨[(20, 1), (21, 0xB)]⟩ })

/-- The STOP a cooper asks for gives its domain no schedule cycle either. -/
theorem coopCork_federatedField_stops_at_gcn (t : State) (x : exec (.coopCork 0) federatedCooper = .next t) : (t.hub.dom 3).stopScn = none := by
  injection x with x
  subst x
  decide +kernel

/-- The hub in which that CORK instruction acts: its cooper has gone past the word. -/
def federatedCooperPast : Hub := federatedCooper.hub.setCoop (0 : CoopId) ((federatedCooper.hub.coop (0 : CoopId)).past 0x88c00014)

/-- The block of that CORK instruction, as bytes. -/
def federatedBlock : List Byte :=
  (List.range 7).flatMap fun i => le 4 ((federatedCooper.hub.coop (0 : CoopId)).data.get (20 + i) 0).toNat

/-- Refutes O59: a CORK block that asks for an ASAP STOP of the federated FIELD stops its domains in GCN mode, and not at the schedule cycle
that the ASAP target names. -/
theorem not_coopers_reach_registers_and_units : ¬ Obligations.coopers_reach_registers_and_units := by
  intro h
  obtain ⟨-, -, -, cork, -⟩ := h
  have calm : federatedCooper.hub.calm = true := by decide +kernel
  have at_ : (federatedCooper.hub.coop (0 : CoopId)).executes Co.CORK 0x88c00014 = true := by decide +kernel
  have block : (federatedCooper.hub.coop (0 : CoopId)).reg (Iw.f2 0x88c00014) + Iw.imm 0x88c00014 = 20 := by decide +kernel
  have stop : leAt federatedBlock 0 1 = 1 := by decide +kernel
  have passes : federatedCooperPast.corkCheck false 1 (corkBodyArgs federatedBlock) = St.OK := by decide +kernel
  have runs : federatedCooperPast.alreadyStopped (corkBodyArgs federatedBlock) = false := by decide +kernel
  have live : 3 ∈ federatedCooperPast.liveSlots 1 (corkBodyArgs federatedBlock) := by decide +kernel
  have target : federatedCooperPast.stopTarget (corkBodyArgs federatedBlock) 3 = some 102 := by decide +kernel
  obtain ⟨t, next, -, -, -, stopScn, -⟩ :=
    cork federatedCooper 0 _ 0x88c00014 federatedCooperPast 20 3 federatedBlock calm rfl at_ rfl block (by decide) rfl stop passes runs live
  rw [coopCork_federatedField_stops_at_gcn t next, target] at stopScn
  cases stopScn

/-! ### The occurrence word (R446) -/

/-- An IDLE cooper whose script 0 waits to start on an occurrence with a code of 33 bits. -/
def widePending : State :=
  on fun h => (h.wr (F.COOP_CTRL_EN.lane (0 : CoopId)) 1).setCoop 0 { st := .idle, scripts := ⟨[(0, { pending := some { code := 2 ^ 32 } })]⟩ }

/-- W1 takes the low 32 bits of the occurrence word. -/
theorem coopPendingStart_keeps_low_word (t : State) (x : exec (.coopPendingStart 0) widePending = .next t) :
    (t.hub.coop (0 : CoopId)).reg 1 = 0 := by
  injection x with x
  subst x
  decide +kernel

/-- Refutes O58: an occurrence of the model may have a code beyond 32 bits, and W1 then takes its word modulo 2^32 only. -/
theorem not_coopers_wait_take_events_and_start : ¬ Obligations.coopers_wait_take_events_and_start := by
  intro h
  obtain ⟨-, -, -, -, -, -, -, -, -, -, -, -, -, -, pending, -⟩ := h
  have calm : widePending.hub.calm = true := by decide +kernel
  have idle : (widePending.hub.coop (0 : CoopId)).st = .idle := by decide +kernel
  have on' : widePending.hub.flag (F.COOP_CTRL_EN.lane (0 : CoopId)) = true := by decide +kernel
  have lowest : (List.range 8).find? (fun n => ((widePending.hub.coop (0 : CoopId)).scripts.get n {}).pending.isSome) = some 0 := by decide +kernel
  have waits : ((widePending.hub.coop (0 : CoopId)).scripts.get 0 {}).pending = some { code := 2 ^ 32 } := by decide +kernel
  obtain ⟨t, next, -, -, -, -, -, -, -, -, -, -, -, -, -, -, -, w1, -⟩ :=
    pending widePending 0 _ _ 0 calm rfl idle on' lowest waits
  rw [coopPendingStart_keeps_low_word t next] at w1
  exact absurd w1 (by decide +kernel)

/-! ### A degraded cause that is not shown yet (R426, R446) -/

/-- Cane 0 is bypassed, which REL_DEGRADED does not show yet; cooper 0 runs. -/
def causeNotShown : State := on fun h => (h.setCane 0 { mode := 1 }).setCoop 0 { st := .running }

/-- The next command raises DEGRADED, and the occurrence sets out for the cooper that runs. -/
theorem coopClearStats_tells_degraded (t : State) (x : exec (.coopClearStats .mgmt 0) causeNotShown = .next t) :
    (t.hub.coop (0 : CoopId)).transit ≠ [] := by
  injection x with x
  subst x
  decide +kernel

/-- Refutes O60: while a degraded cause is not shown yet, CLEAR_STATS does not leave a running cooper as it was: DEGRADED is on its way to it. -/
theorem not_cooper_commands_start_abort_and_load : ¬ Obligations.cooper_commands_start_abort_and_load := by
  intro h
  obtain ⟨-, -, -, -, -, -, clear, -⟩ := h
  have calm : causeNotShown.hub.calm = true := by decide +kernel
  have taken : causeNotShown.hub.takesWrite .mgmt (R.COOP_CMD + 0x1000 * (0 : CoopId)) 5 = true := by decide +kernel
  have passes : causeNotShown.hub.coopCheck (0 : CoopId) 5 0 = St.OK := by decide +kernel
  obtain ⟨t, next, -, -, -, -, -, -, -, ⟨same, -⟩, -⟩ := clear causeNotShown .mgmt 0 _ calm rfl taken passes
  apply coopClearStats_tells_degraded t next
  rw [same]
  decide +kernel

/-- A write of 0 to PG_EVENT_FORCE of the page of the causes: DEGRADED, raised on its edge, sets a PG_EVENT bit that no written bit names. -/
theorem pgEventForce_shows_degraded (t : State) (x : exec (.pgEventForce .mgmt 0x23 0) causeNotShown = .next t) :
    bitAt (t.hub.reg (R.PG_EVENT + 0x23 * 0x1000)) 5 = true := by
  injection x with x
  subst x
  decide +kernel

/-- Refutes O15: while a degraded cause is not shown yet, a forced PG_EVENT bit is not the only one that the command's edge sets. -/
theorem not_forced_event_bits_reach_the_interrupt_alone : ¬ Obligations.forced_event_bits_reach_the_interrupt_alone := by
  intro h
  obtain ⟨force, -⟩ := h
  have calm : causeNotShown.hub.calm = true := by decide +kernel
  have taken : causeNotShown.hub.takesWrite .mgmt (R.PG_EVENT_FORCE + 0x1000 * (0x23 : BitVec 8).toNat) (0 : Word).toNat = true := by decide +kernel
  have lives : causeNotShown.hub.scrapped = false := by decide +kernel
  obtain ⟨t, next, -, -, bits, -⟩ := force causeNotShown .mgmt 0x23 0 calm taken (by decide +kernel) lives
  have bit5 := bits 5 (by decide +kernel)
  exact absurd ((pgEventForce_shows_degraded t next).symm.trans bit5) (by decide +kernel)

end Sys2Proof.Machine
end

section
/-! SUPPORT. The receive PCS below the lock: a codeword with one wrong symbol. -/
namespace Sys2Proof.Machine

set_option Elab.async false

/-! ### A codeword with one wrong symbol (R341) -/

/-- The codeword of zeros, its last symbol received as 1. -/
def oneWrong : List (BitVec 10) := List.replicate 543 0 ++ [1]

theorem gfMul_zero (b : Nat) : gfMul 0 b = 0 := by
  have add : ∀ n b, gfMulAdd n 0 b 0 = 0 := by
    intro n
    induction n with
    | zero => exact fun _ => rfl
    | succ n ih => exact fun b => by simp [gfMulAdd, gfX, ih]
  exact add 10 b

/-- Zeros at the start of a word add nothing to its syndromes. -/
theorem syndrome_zeros (n : Nat) (w : List Nat) (j : Nat) : syndrome (List.replicate n 0 ++ w) j = syndrome w j := by
  induction n with
  | zero => rfl
  | succ n ih => simpa [syndrome, List.replicate_succ, gfMul_zero] using ih

/-- The error is located at the last symbol and corrected. -/
theorem rsDecode_oneWrong : rsDecode (oneWrong.map BitVec.toNat) = some (List.replicate 514 0, 1) := by
  have word : oneWrong.map BitVec.toNat = List.replicate 543 0 ++ [1] := by
    rw [oneWrong, List.map_append, List.map_replicate]
    rfl
  have synd : (List.range 30).map (syndrome (List.replicate 543 0 ++ [1])) = List.replicate 30 1 := by
    rw [show syndrome (List.replicate 543 0 ++ [1]) = syndrome [1] from funext (syndrome_zeros 543 [1])]
    decide +kernel
  have errs : rsErrors (List.replicate 30 1) = some [(0, 1)] := by decide +kernel
  have fixed : setNth (List.replicate 543 0 ++ [1]) 543 (nth (List.replicate 543 0 ++ [1]) 543 0 ^^^ 1) = List.replicate 544 0 ++ [] := by
    decide +kernel
  have checks : (List.range 30).all (fun j => syndrome (List.replicate 544 0 ++ []) j == 0) = true := by
    simp only [syndrome_zeros]
    decide +kernel
  have kept : (List.replicate 544 0 ++ []).take rsK = List.replicate 514 0 := by
    rw [List.append_nil, List.take_replicate]
    rfl
  simp only [rsDecode, word, synd, errs, List.foldl_cons, List.foldl_nil]
  rw [show rsN - 1 - 0 = 543 from rfl, fixed, checks, kept]
  rfl

/-- What the receive PCS does below the lock with a codeword that decodes (R343). -/
theorem pcsRx_unlocked {s : Hub} {w m : List Nat} {n : Nat} (lane : s.flag F.LINK_CTRL_PCS_LOOPBACK = false) (trains : s.linkSt = Lk.FEC_LOCK)
    (unlocked : s.flag F.LINK_STATE_FEC_LOCKED = false) (decodes : rsDecode w = some (m, n)) :
    s.pcsRx w = Hub.lockStep
      ((s.bump64 R.LINK_FEC_CORR_LO n).mapLink fun l => { l with
        cwExpect := ((codewordOf m).seq + 1) % 256
        rxScr := scrAfter 1 (if (codewordOf m).seq == 0 then scrOnes else
          if (codewordOf m).seq == s.link.cwExpect then s.link.rxScr else scrAfter (codewordOf m).seq scrOnes) })
      ((codewordOf m).sync && (codewordOf m).seq == s.link.cwExpect) := by
  simp only [Hub.pcsRx, lane, Bool.false_eq_true, if_false, Hub.pcsTake, Hub.codewordRx, trains, decodes, unlocked]
  rfl

theorem exec_pcsCodewordRx (w : List (BitVec 10)) (s : State) :
    exec (.pcsCodewordRx w) s = runIf (w.length == 544) (fun h => h.pcsRx (w.map BitVec.toNat)) s := rfl

/-- A link that trains, below the lock. -/
def trainingLink : State := on fun h => h.wr F.LINK_STATE_STATE Lk.FEC_LOCK

/-- The symbol corrected below the lock is counted in LINK_FEC_CORR (R343). -/
theorem pcsCodewordRx_counts_corrected (t : State) (x : exec (.pcsCodewordRx oneWrong) trainingLink = .next t) :
    t.hub.regB R.LINK_FEC_CORR_LO 0 = 1 := by
  have lane : trainingLink.hub.flag F.LINK_CTRL_PCS_LOOPBACK = false := by decide +kernel
  have trains : trainingLink.hub.linkSt = Lk.FEC_LOCK := by decide +kernel
  have unlocked : trainingLink.hub.flag F.LINK_STATE_FEC_LOCKED = false := by decide +kernel
  rw [exec_pcsCodewordRx, show (oneWrong.length == 544) = true by decide +kernel, runIf, if_pos rfl, run, pcsRx_unlocked lane trains unlocked rsDecode_oneWrong] at x
  injection x with x
  subst x
  decide +kernel

/-- Refutes O54: a codeword with a wrong symbol that decodes below the lock counts the symbol in LINK_FEC_CORR, so the registers do not all
stay. -/
theorem not_the_rack_link_trains_retries_and_goes_down : ¬ Obligations.the_rack_link_trains_retries_and_goes_down := by
  intro h
  obtain ⟨codeword, -⟩ := h
  have calm : trainingLink.hub.calm = true := by decide +kernel
  have symbols : oneWrong.length = 544 := by decide +kernel
  have lane : trainingLink.hub.flag F.LINK_CTRL_PCS_LOOPBACK = false := by decide +kernel
  have trains : trainingLink.hub.linkSt = Lk.FEC_LOCK := by decide +kernel
  have unlocked : trainingLink.hub.flag F.LINK_STATE_FEC_LOCKED = false := by decide +kernel
  have early : trainingLink.hub.link.lockRun < 63 := by decide +kernel
  obtain ⟨t, next, -, -, -, -, -, -, keeps⟩ :=
    codeword trainingLink oneWrong _ _ _ calm symbols lane trains unlocked early rsDecode_oneWrong rfl
  have kept := keeps R.LINK_FEC_CORR_LO 0 (by decide +kernel) (by simp)
  rw [pcsCodewordRx_counts_corrected t next] at kept
  exact absurd kept (by decide +kernel)

end Sys2Proof.Machine
end

section
/-! SUPPORT. Start-up and the life cycle: SCRAP takes the rack link down and with it the transfer under way. -/
namespace Sys2Proof.Machine

set_option Elab.async false

/-! ### SCRAP with a transfer under way (R187, R388) -/

/-- A hub in RETURN whose rack link is UP and whose racking engine has a request under way. -/
def returnedRacking : State := on fun h =>
  { h.wr F.LINK_STATE_STATE Lk.UP with boot := { h.boot with life := Life.RETURN }, rack := { h.rack with active := some {} } }

/-- SCRAP takes the link down, which suspends the request. -/
theorem lifeScrap_suspends_racking (t : State) (x : exec (.lifeScrap .mgmt true true) returnedRacking = .next t) :
    t.hub.rack.suspended = true := by
  injection x with x
  subst x
  decide +kernel

/-- Refutes O19: SCRAP takes the link down with cause COMMAND, and a racking request under way is suspended with it. -/
theorem not_the_life_cycle_advances_by_burning_fuses : ¬ Obligations.the_life_cycle_advances_by_burning_fuses := by
  intro h
  obtain ⟨-, -, -, scrap, -⟩ := h
  have calm : returnedRacking.hub.calm = true := by decide +kernel
  have taken : returnedRacking.hub.takesWrite .mgmt R.LIFE_CMD 4 = true := by decide +kernel
  have allowed : (returnedRacking.hub.wr F.LIFE_STATE_VPP_READY (b2n true)).lifeCheck .mgmt 4 = St.OK := by decide +kernel
  obtain ⟨t, next, -, -, -, -, -, -, -, rest, -⟩ := scrap returnedRacking .mgmt true calm taken allowed
  have rack : t.hub.rack = returnedRacking.hub.rack := show (returnedRacking.hub.rest t.hub).rack = _ by rw [rest]
  have suspended := lifeScrap_suspends_racking t next
  rw [rack] at suspended
  exact absurd suspended (by decide +kernel)

end Sys2Proof.Machine
end

section
/-! SUPPORT. Power-up, self-test, tending and the pair: a corrected fuse row dates its event, a run that ends lets go of the cane it holds, a
test of a taster keeps the tending round from retiring one, and PAIR_CKPT_GCN holds 64 bits. -/

namespace Sys2Proof.Machine

set_option Elab.async false

/-! ### A corrected fuse row (R372, R431) -/

/-- The correction of a fuse row raises ECC_CORRECTED, which the hub remembers as just raised. -/
theorem powerGood_dates_corrected_row (t : State) (x : exec (.powerGood 0 [] [3] []) State.reset = .next t) : t.hub.rel.eccEvAt = some 0 := by
  injection x with x
  subst x
  decide +kernel

/-- Refutes O16: a fuse row that is corrected at power-up leaves the unit of tending with the time of its last ECC_CORRECTED, so that unit
leaves its reset state too. -/
theorem not_power_starts_and_ends_the_block : ¬ Obligations.power_starts_and_ends_the_block := by
  intro h
  obtain ⟨rise, -⟩ := h
  have off : State.reset.hub.time.powered = false := by decide +kernel
  obtain ⟨t, next, -, -, -, -, -, -, -, -, -, -, -, -, -, -, -, -, rest⟩ := rise State.reset 0 [] [3] [] off
  have rel : t.hub.rel = State.reset.hub.rel := show (State.reset.hub.rest t.hub).rel = _ by rw [rest]
  have dated := powerGood_dates_corrected_row t next
  rw [rel] at dated
  exact absurd dated (by decide +kernel)

/-! ### The cane of a run that ends (R26, R402) -/

/-- A test of lane 0 that holds cane 0 downward. -/
def laneTestHoldsCane : State := on fun h =>
  { h.setCane 0 { down := true } with bist := { h.bist with runs := [{ target := Bt.LANE, det := 1 }] } }

/-- With the end of the run the cane begins to turn back upward. -/
theorem bistRunEnd_turns_cane (t : State) (x : exec (.bistRunEnd 1 0 Bo.PASS false 0 0 0) laneTestHoldsCane = .next t) :
    (t.hub.cane 0).turning.isSome = true := by
  injection x with x
  subst x
  decide +kernel

/-- Refutes O51: a test of a lane that holds its cane downward in the state gives it free as it passes, so that the cane changes too. -/
theorem not_bist_runs_packs_results_and_the_tap : ¬ Obligations.bist_runs_packs_results_and_the_tap := by
  intro h
  obtain ⟨-, -, -, -, -, -, -, -, -, -, -, -, -, -, passed, -⟩ := h
  have calm : laneTestHoldsCane.hub.calm = true := by decide +kernel
  have runs : laneTestHoldsCane.hub.bistRun 1 0 = some { target := Bt.LANE, det := 1 } := by decide +kernel
  obtain ⟨t, next, -, -, -, -, -, -, rest, -⟩ := passed laneTestHoldsCane 0 0 0 0 _ calm runs rfl rfl rfl
  have canes : t.hub.canes = laneTestHoldsCane.hub.canes := show (laneTestHoldsCane.hub.rest t.hub).canes = _ by rw [rest]
  have turns := bistRunEnd_turns_cane t next
  rw [Hub.cane, canes] at turns
  exact absurd turns (by decide +kernel)

/-! ### A taster that fails while another is under test (R417, R419) -/

/-- A tending round is asked for, and taster 1 is under test. -/
def tendingDuringTest : State := on fun h => { h.wr F.REL_STATE_TENDING 1 with bist := { h.bist with runs := [{ target := Bt.TASTER, unit := 1 }] } }

/-- The round passes over the failing taster. -/
theorem tendingRound_keeps_taster (t : State) (x : exec (.tendingRound [.taster 0]) tendingDuringTest = .next t) : t.hub.taste.retired = [] := by
  injection x with x
  subst x
  decide +kernel

/-- Refutes O52: while a taster is under test a tending round retires no taster. -/
theorem not_tending_faults_and_safe : ¬ Obligations.tending_faults_and_safe := by
  intro h
  obtain ⟨-, -, -, taster, -⟩ := h
  have calm : tendingDuringTest.hub.calm = true := by decide +kernel
  have asked : tendingDuringTest.hub.flag F.REL_STATE_TENDING = true := by decide +kernel
  have inService : tendingDuringTest.hub.taste.retired.contains ((0 : Fin 4) : Nat) = false := by decide +kernel
  have noSample : tendingDuringTest.hub.taste.bufs.cells = [] := by decide +kernel
  obtain ⟨t, next, -, retired, -⟩ := taster tendingDuringTest 0 calm asked inService noSample
  rw [tendingRound_keeps_taster t next] at retired
  exact absurd retired (by decide +kernel)

/-! ### The time of a checkpoint (R422) -/

/-- A hub of a pair with its standby READY, and a GCN of the model beyond 64 bits. -/
def latePair : State := on fun h =>
  let h := (h.wr F.GLB_HUB_PAIR 1).wr F.PAIR_STATE_STANDBY 1
  { h with time := { h.time with gcn := 2 ^ 64 } }

/-- PAIR_CKPT_GCN takes the low 64 bits. -/
theorem checkpointRx_keeps_64_bits (t : State) (x : exec (.checkpointRx true) latePair = .next t) : t.hub.reg64 R.PAIR_CKPT_GCN_LO = 0 := by
  injection x with x
  subst x
  decide +kernel

/-- Refutes O53: the GCN of a state may be beyond 64 bits, and PAIR_CKPT_GCN takes it modulo 2^64 only. -/
theorem not_a_pair_mirrors_checkpoints_and_takes_over : ¬ Obligations.a_pair_mirrors_checkpoints_and_takes_over := by
  intro h
  obtain ⟨-, -, -, -, -, -, -, -, -, -, good, -⟩ := h
  have calm : latePair.hub.calm = true := by decide +kernel
  have ready : latePair.hub.pairReady = true := by decide +kernel
  obtain ⟨t, next, -, -, gcn, -⟩ := good latePair calm ready
  rw [checkpointRx_keeps_64_bits t next] at gcn
  exact absurd gcn (by decide +kernel)

end Sys2Proof.Machine
end


section
/-! SUPPORT. The instructions of the coopers that work on the cooper alone, and those that halt it. -/

namespace Sys2Proof.Machine

set_option Elab.async false

/-! ### A change of one cooper -/

/-- `h` is `s` with cooper `c` as `x`. -/
structure Becomes (c : Nat) (x : Cooper) (s h : Hub) : Prop where
  core : { h with coops := s.coops } = s
  this : h.coop c = x
  other : ∀ d, d ≠ c → h.coop d = s.coop d

theorem Becomes.refl (s : Hub) (c : Nat) : Becomes c (s.coop c) s s := ⟨rfl, rfl, fun _ _ => rfl⟩

theorem Becomes.setCoop {c : Nat} {x : Cooper} {s h : Hub} (k : Becomes c x s h) (y : Cooper) : Becomes c y s (h.setCoop c y) := by
  refine ⟨k.core, ?_, fun d n => ?_⟩
  · rw [Hub.coop_setCoop, if_pos rfl]
  · rw [Hub.coop_setCoop, if_neg n, k.other d n]

theorem Becomes.same {c : Nat} {x : Cooper} {s h : Hub} (k : Becomes c x s h) {α : Type} (g : Hub → α)
    (n : ∀ u t, g { u with coops := t } = g u) : g h = g s := by
  rw [← n h s.coops, k.core]

theorem Becomes.still {c : Nat} {x : Cooper} {s h : Hub} (k : Becomes c x s h) (w : s.still) : h.still := by
  have e : h.still = s.still := k.same Hub.still fun _ _ => rfl
  rwa [e]

theorem deliverAll_nil {h : Hub} {n : Nat} (o : h.occs = []) (pos : 0 < n) : Hub.deliverAll n h = h := by
  obtain ⟨n, rfl⟩ := Nat.exists_eq_add_of_lt pos
  rw [Hub.deliverAll, o]

/-- Nothing follows a change of one cooper where no degraded cause waits to be shown. -/
theorem Becomes.settle {c : Nat} {x : Cooper} {s h : Hub} (k : Becomes c x s h) (calm : s.calm = true)
    (shown : s.degradedNow = s.reg R.REL_DEGRADED) : h.settle = h := by
  have now : h.degradedNow = h.reg R.REL_DEGRADED :=
    (k.same Hub.degradedNow fun _ _ => rfl).trans (shown.trans (k.same (Hub.reg · R.REL_DEGRADED) fun _ _ => rfl).symm)
  have checked : h.degradedCheck = h := by
    rw [Hub.degradedCheck]
    exact if_pos (beq_iff_eq.mpr now.symm)
  have quiet : h.occs = [] := (k.same Hub.occs fun _ _ => rfl).trans (calm_nothing_left calm).1
  simp only [Hub.settle, follow_still (k.still (calm_still calm)), checked]
  exact deliverAll_nil quiet (by decide)

/-- A change of one cooper is all that shows after the memories and the outputs have been written. -/
theorem Becomes.rest {c : Nat} {x : Cooper} {s h : Hub} (k : Becomes c x s h) (w : s.writes = []) :
    s.rest (h.drivePins.commit s.store) = { s with coops := (s.rest (h.drivePins.commit s.store)).coops } := by
  have set : h = { s with coops := h.coops } := congrArg (fun u : Hub => { u with coops := h.coops }) k.core
  generalize h.coops = t at set
  subst set
  simp only [Hub.rest, Hub.commit, Hub.drivePins, w, Store.writeAll, List.foldl_nil]

/-- A change of one cooper that raises nothing: the command leaves just that. -/
theorem answers_becomes {i : Instr} {s : State} {f : Hub → Hub} {c : Nat} {x : Cooper} (e : exec i s = run f s)
    (k : Becomes c x s.hub (f s.hub)) (calm : s.hub.calm = true) (shown : s.hub.degradedNow = s.hub.reg R.REL_DEGRADED) :
    Answers i s fun h => s.hub.onlyCoop h c x ∧ s.hub.rest h = { s.hub with coops := (s.hub.rest h).coops } ∧ s.hub.keeps h [] := by
  refine ⟨_, e, rfl, ?_⟩
  rw [k.settle calm shown]
  exact ⟨⟨k.this, k.other⟩, k.rest (calm_nothing_left calm).2, fun a b _ _ => k.same (Hub.regB · a b) fun _ _ => rfl⟩

/-! ### The word a RUNNING cooper executes -/

/-- The cooper past a word with opcode `op`; SIG compares S before S takes the word in (R448). -/
def Cooper.pastWord (x : Cooper) (op w : Nat) : Cooper := if op == Co.SIG then { x with pc := (x.pc + 1) % 1024 } else x.past w

theorem coopDo_executes {s : Hub} {c op w : Nat} {x : Cooper} {f : Hub → Nat → Nat → Hub} (y : s.coop c = x) (e : x.executes op w = true)
    (o : coopOps.contains op = true) : s.coopDo c op f = f (s.setCoop c (x.pastWord op w)) w x.pc := by
  simp only [Cooper.executes, Bool.and_eq_true, beq_iff_eq] at e
  obtain ⟨⟨run, word⟩, opcode⟩ := e
  subst y
  have running : ((s.coop c).st != .running) = false := by rw [run]; rfl
  simp only [Hub.coopDo, running, word, opcode, o, Bool.not_true, bne_self_eq_false, Bool.false_eq_true, if_false, Cooper.pastWord,
    Cooper.past]
  split <;> rfl

theorem pastWord_of_ne {op : Nat} (x : Cooper) (w : Nat) (n : (op == Co.SIG) = false) : x.pastWord op w = x.past w := by
  rw [Cooper.pastWord, n, if_neg Bool.false_ne_true]

section
variable {s : Hub} {c op w : Nat} {x : Cooper} (y : s.coop c = x) (e : x.executes op w = true) (o : coopOps.contains op = true)
  (n : (op == Co.SIG) = false)
include y e o n

/-- An instruction that gives the cooper one new state. -/
theorem becomes_do {f : Hub → Nat → Nat → Hub} {z : Cooper} (g : ∀ h : Hub, h.coop c = x.past w → f h w x.pc = h.setCoop c z) :
    Becomes c z s (s.coopDo c op f) := by
  rw [coopDo_executes y e o, pastWord_of_ne x w n, g _ (by rw [Hub.coop_setCoop, if_pos rfl])]
  subst y
  exact ((Becomes.refl s c).setCoop _).setCoop _

/-- NOP gets past its word. -/
theorem becomes_past : Becomes c (x.past w) s (s.coopDo c op fun h _ _ => h) := by
  rw [coopDo_executes y e o, pastWord_of_ne x w n]
  subst y
  exact (Becomes.refl s c).setCoop _

/-- An instruction of format R leaves its value in W[D] (R442). -/
theorem becomes_alu (f : Nat → Nat → Nat) :
    Becomes c ((x.past w).setReg (Iw.f1 w) (f (x.reg (Iw.f2 w)) (x.reg (Iw.f3 w)))) s (s.coopAlu c op f) :=
  becomes_do y e o n fun h k => by rw [k]; rfl

/-- An instruction with an immediate operand leaves its value in W[D] (R442). -/
theorem becomes_imm (f : Nat → Nat → Nat → Nat) :
    Becomes c ((x.past w).setReg (Iw.f1 w) (f (x.reg (Iw.f1 w)) (x.reg (Iw.f2 w)) (Iw.imm w))) s (s.coopImm c op f) :=
  becomes_do y e o n fun h k => by rw [k]; rfl

end

/-- The block that format I names lies in the data store. -/
theorem coopBlock_inside {s : Hub} {c w at_ n a : Nat} {f : Hub → Nat → List Nat → Hub} (e : (s.coop c).reg (Iw.f2 w) + Iw.imm w = a)
    (i : a + n ≤ 256) (p : 0 < n) : s.coopBlock c w at_ n f = f s a ((s.coop c).block a n) := by
  have low : a < 256 := by omega
  simp only [Hub.coopBlock, Cooper.dataAddr, e, low, if_true, i]

/-- GETEV reads the last occurrence (R446). -/
theorem coopGetev_field {s : Hub} {c w : Nat} {x : Cooper} (y : s.coop c = x) (e : x.executes Co.GETEV w = true) (i : Iw.imm w < 4) :
    Becomes c ((x.past w).setReg (Iw.f1 w) (nth [x.last.gcn % 2 ^ 32, x.last.gcn / 2 ^ 32, x.last.epoch, x.last.hub] (Iw.imm w) 0)) s
      (s.coopGetev c) := by
  refine becomes_do y e rfl rfl fun h k => ?_
  simp only [k]
  obtain v | v | v | v : Iw.imm w = 0 ∨ Iw.imm w = 1 ∨ Iw.imm w = 2 ∨ Iw.imm w = 3 := by omega
  all_goals
    rw [v]
    rfl

section
variable {i : Instr} {s : State} {c op w : Nat} {x : Cooper}

/-- An instruction of format R: what its command answers. -/
theorem answers_alu (f : Nat → Nat → Nat) (r : exec i s = run (fun h => h.coopAlu c op f) s) (o : coopOps.contains op = true)
    (n : (op == Co.SIG) = false) (calm : s.hub.calm = true) (y : s.hub.coop c = x) (e : x.executes op w = true)
    (d : s.hub.degradedNow = s.hub.reg R.REL_DEGRADED) :
    Answers i s fun h => s.hub.onlyCoop h c ((x.past w).setReg (Iw.f1 w) (f (x.reg (Iw.f2 w)) (x.reg (Iw.f3 w)))) ∧
      s.hub.rest h = { s.hub with coops := (s.hub.rest h).coops } ∧ s.hub.keeps h [] :=
  answers_becomes r (becomes_alu y e o n f) calm d

/-- An instruction with an immediate operand: what its command answers. -/
theorem answers_imm (f : Nat → Nat → Nat → Nat) (r : exec i s = run (fun h => h.coopImm c op f) s) (o : coopOps.contains op = true)
    (n : (op == Co.SIG) = false) (calm : s.hub.calm = true) (y : s.hub.coop c = x) (e : x.executes op w = true)
    (d : s.hub.degradedNow = s.hub.reg R.REL_DEGRADED) :
    Answers i s fun h => s.hub.onlyCoop h c ((x.past w).setReg (Iw.f1 w) (f (x.reg (Iw.f1 w)) (x.reg (Iw.f2 w)) (Iw.imm w))) ∧
      s.hub.rest h = { s.hub with coops := (s.hub.rest h).coops } ∧ s.hub.keeps h [] :=
  answers_becomes r (becomes_imm y e o n f) calm d

end

/-- Settles O56: each of these instructions gives its cooper one new state and raises nothing, so the command leaves just that. -/
theorem cooper_arithmetic_gives_the_result_of_its_table_row : Obligations.cooper_arithmetic_gives_the_result_of_its_table_row := by
  refine ⟨fun s coop x w calm y e => answers_becomes (f := fun h => h.coopDo coop Co.NOP fun h _ _ => h) rfl (becomes_past y e rfl rfl) calm,
    fun s coop x w => answers_imm (fun _ _ i => i) rfl rfl rfl,
    fun s coop x w => answers_imm (fun d _ i => d % 2 ^ 18 + i % 2 ^ 14 * 2 ^ 18) rfl rfl rfl,
    fun s coop x w => answers_imm (fun _ a i => a + unsigned 32 (signed 18 i)) rfl rfl rfl,
    fun s coop x w => answers_imm (fun _ a i => a &&& i) rfl rfl rfl, fun s coop x w => answers_imm (fun _ a i => a ||| i) rfl rfl rfl,
    fun s coop x w => answers_alu (fun a b => a + b) rfl rfl rfl, fun s coop x w => answers_alu (fun a b => a + 2 ^ 32 - b) rfl rfl rfl,
    fun s coop x w => answers_alu (fun a b => a &&& b) rfl rfl rfl, fun s coop x w => answers_alu (fun a b => a ||| b) rfl rfl rfl,
    fun s coop x w => answers_alu (fun a b => a ^^^ b) rfl rfl rfl, fun s coop x w => ?shl, fun s coop x w => ?shr,
    fun s coop x w a calm y e d at_ low => ?ld, fun s coop x w a calm y e d at_ low => ?st,
    fun s coop x w calm y e d i => answers_becomes (f := fun h => h.coopGetev coop) rfl (coopGetev_field y e i) calm d,
    fun s coop x w calm y e => answers_becomes (f := fun h => h.coopStat coop) rfl (becomes_do y e rfl rfl fun h k => by rw [k]; rfl) calm⟩
  case shl =>
    rw [← Nat.shiftLeft_eq]
    exact answers_alu (fun a b => a <<< (b % 32)) rfl rfl rfl
  case shr =>
    rw [← Nat.shiftRight_eq_div_pow]
    exact answers_alu (fun a b => a >>> (b % 32)) rfl rfl rfl
  case ld =>
    refine answers_becomes (f := fun h => h.coopLd coop) rfl (becomes_do y e rfl rfl fun h k => ?_) calm d
    rw [coopBlock_inside (by rw [k]; exact at_) low (by decide), k]
    rfl
  case st =>
    refine answers_becomes (f := fun h => h.coopSt coop) rfl (becomes_do y e rfl rfl fun h k => ?_) calm d
    rw [coopBlock_inside (by rw [k]; exact at_) low (by decide), k]
    rfl

end Sys2Proof.Machine
end

section
/-! SUPPORT. The control transfers of the coopers, and what a halt leaves. -/

namespace Sys2Proof.Machine

set_option Elab.async false

/-! ### Control transfers -/

section
variable {s : Hub} {c op w : Nat} {x : Cooper} (y : s.coop c = x)
include y

/-- A branch goes where its comparison says, and S starts anew (R448). -/
theorem becomes_branch (e : x.executes op w = true) (o : coopOps.contains op = true) (n : (op == Co.SIG) = false) {f : Nat → Nat → Bool}
    {p : Prop} [Decidable p] (q : f (x.reg (Iw.f1 w)) (x.reg (Iw.f2 w)) = true ↔ p) :
    Becomes c { x.past w with
      pc := if p then unsigned 10 ((x.pc : Int) + 1 + Iw.off w) else (x.pc + 1) % 1024
      sig := 0xFFFFFFFF } s (s.coopBranch c op f) := by
  refine becomes_do y e o n fun h k => ?_
  have reg (i : Nat) : (x.past w).reg i = x.reg i := rfl
  simp only [reg, Hub.coopGo, k]
  by_cases taken : p
  · rw [if_pos (q.mpr taken), if_pos taken]
    rfl
  · rw [if_neg fun t => taken (q.mp t), if_neg taken]
    rfl

theorem becomes_call (e : x.executes Co.CALL w = true) (room : x.stack.length < 8) :
    Becomes c { x.past w with pc := unsigned 10 ((x.pc : Int) + 1 + Iw.off w), sig := 0xFFFFFFFF, stack := (x.pc + 1) % 1024 :: x.stack } s
      (s.coopCall c) := by
  rw [Hub.coopCall, coopDo_executes y e rfl, pastWord_of_ne x w rfl, Hub.coop_setCoop, if_pos rfl]
  have room : ¬ 8 ≤ (x.past w).stack.length := by exact Nat.not_le.mpr room
  simp only [room, if_false, Hub.coopGo, Hub.coop_setCoop, if_pos]
  subst y
  exact (((Becomes.refl s c).setCoop _).setCoop _).setCoop _

theorem becomes_ret {p : Nat} {rest : List Nat} (e : x.executes Co.RET w = true) (pushed : x.stack = p :: rest) :
    Becomes c { x.past w with pc := p, sig := 0xFFFFFFFF, stack := rest } s (s.coopRet c) := by
  rw [Hub.coopRet, coopDo_executes y e rfl, pastWord_of_ne x w rfl, Hub.coop_setCoop, if_pos rfl]
  have pushed : (x.past w).stack = p :: rest := pushed
  simp only [pushed, Hub.coopGo, Hub.coop_setCoop, if_pos]
  subst y
  exact (((Becomes.refl s c).setCoop _).setCoop _).setCoop _

/-- A SIG that agrees with S starts the watchdog and S anew (R448, R450). -/
theorem becomes_sig (e : x.executes Co.SIG w = true) (agrees : (x.sig.toNat ^^^ 0xFFFFFFFF) % 2 ^ 16 = w % 2 ^ 16) :
    Becomes c { x with pc := (x.pc + 1) % 1024, wdog := x.cur.budget, sig := 0xFFFFFFFF } s (s.coopSig c) := by
  rw [Hub.coopSig, coopDo_executes y e rfl, Hub.coop_setCoop, if_pos rfl]
  have agrees : (((x.pastWord Co.SIG w).sig.toNat ^^^ 0xFFFFFFFF) % 65536 == Iw.imm16 w) = true := by
    have kept : (x.pastWord Co.SIG w).sig = x.sig := rfl
    simpa [kept, Iw.imm16, bitsOf] using agrees
  simp only [agrees, if_true]
  subst y
  exact ((Becomes.refl s c).setCoop _).setCoop _

end

/-! ### A cooper halts (R451) -/

/-- `h` comes from `s` by changing the coopers, the owners of the pages and the registers of the keys, and by raising occurrences other than
RELEASED. -/
structure Cooped (keys : List Nat) (s h : Hub) : Prop where
  core : { s.restored h with coops := s.coops, owners := s.owners } = s
  regs : ∀ a b, regKey a b ∉ keys → h.regB a b = s.regB a b
  quiet : ∀ o ∈ h.occs, o ∈ s.occs ∨ o.code ≠ Ev.RELEASED

variable {keys : List Nat}

theorem Cooped.trans {s t u : Hub} (h1 : Cooped keys s t) (h2 : Cooped keys t u) : Cooped keys s u := by
  refine ⟨?_, fun a b n => (h2.regs a b n).trans (h1.regs a b n), fun o m => (h2.quiet o m).elim (h1.quiet o) .inr⟩
  have e : ({ s.restored u with coops := s.coops, owners := s.owners } : Hub) =
      { s.restored { t.restored u with coops := t.coops, owners := t.owners } with coops := s.coops, owners := s.owners } := rfl
  rw [e, h2.core, h1.core]

theorem Cooped.setCoop (s : Hub) (c : Nat) (x : Cooper) : Cooped keys s (s.setCoop c x) := ⟨rfl, fun _ _ _ => rfl, fun _ m => .inl m⟩

theorem Cooped.disown (s : Hub) (r : Req) : Cooped keys s (s.disown r) := ⟨rfl, fun _ _ _ => rfl, fun _ m => .inl m⟩

theorem Cooped.wr (s : Hub) {f : Fld} (v : Nat) (k : f.addr ∈ keys) : Cooped keys s (s.wr f v) :=
  ⟨rfl, (Hung.wr s v k).regs, fun _ m => .inl m⟩

theorem Cooped.err (s : Hub) {e : ErrBit} (k : (F.PG_ERROR_ERRORS.lane e.page).addr ∈ keys)
    (k' : (F.PG_ERROR_INFO_BIT.lane e.page).addr ∈ keys) : Cooped keys s (s.err e) := (Cooped.wr s _ k).trans (.wr _ _ k')

theorem Cooped.raiseOf (s : Hub) {code : Nat} (u : Nat) (n : code ≠ Ev.RELEASED) : Cooped keys s (s.raiseOf code u) := by
  refine ⟨rfl, fun _ _ _ => rfl, fun o m => ?_⟩
  rcases List.mem_append.mp m with m | m
  · exact .inl m
  · exact .inr (by rw [List.mem_singleton.mp m]; exact n)

theorem Becomes.cooped {c : Nat} {x : Cooper} {s h : Hub} (k : Becomes c x s h) : Cooped keys s h :=
  ⟨by
    have e : ({ s.restored h with coops := s.coops, owners := s.owners } : Hub) =
      { s.restored { h with coops := s.coops } with owners := s.owners } := rfl
    rw [e, k.core]; rfl, fun a b _ => k.same (Hub.regB · a b) fun _ _ => rfl, fun o m => .inl ((k.same Hub.occs fun _ _ => rfl) ▸ m)⟩

section
variable {s h : Hub} (k : Cooped keys s h)
include k

theorem Cooped.same {α : Type} (g : Hub → α) (n : ∀ u, g { s.restored u with coops := s.coops, owners := s.owners } = g u) : g h = g s :=
  (n h).symm.trans (congrArg g k.core)

theorem Cooped.rd (f : Fld) (n : f.addr ∉ keys) : h.rd f = s.rd f := by
  simp only [Hub.rd, Hub.rdB, k.regs f.addr 0 (by rwa [regKey_zero])]

theorem Cooped.untraced (n : ∀ a ∈ calmKeys, a ∉ keys) (u : s.untraced) : h.untraced := by
  unfold Hub.untraced Hub.flag at *
  rwa [k.rd F.TRACE_STATE_RUNNING (n _ (by simp [calmKeys])), k.rd F.TRACE_TRIG_CTRL_HUBEV_EN (n _ (by simp [calmKeys]))]

theorem Cooped.still (n : ∀ a ∈ calmKeys, a ∉ keys) (c : s.still) : h.still := by
  obtain ⟨reports, policies, peers, reqs, soft, ladder, drain, columns, close⟩ := c
  rw [← k.same Hub.hangCtl fun _ => rfl] at reports peers
  rw [← k.same Hub.hang fun _ => rfl] at policies
  rw [← k.same Hub.link fun _ => rfl] at reqs
  rw [← k.same Hub.softReset fun _ => rfl] at soft
  rw [← k.same Hub.ladder fun _ => rfl] at ladder
  rw [← k.same Hub.harv fun _ => rfl] at drain columns
  rw [← k.same Hub.harvReady fun _ => rfl, ← k.rd F.HARV_STATUS_PHASE (n _ (by simp [calmKeys]))] at close
  exact ⟨reports, policies, peers, reqs, soft, ladder, drain, columns, close⟩

end

/-- What the command of such a change leaves. -/
structure CoopEffect (keys : List Nat) (s h t : Hub) : Prop where
  told : ∀ c, (t.coop c).told = (h.coop c).told
  owners : t.owners = h.owners
  rest : s.rest t = { s with owners := t.owners, coops := (s.rest t).coops }
  keeps : s.keeps t keys
  regs : ∀ a b, eventKey (regKey a b) = false → t.regB a b = h.regB a b
  shows : ∀ o ∈ h.occs, (∀ p i, eventBit o.code (o.unit.getD 0) = some (p, i) → i < 32) → t.shows o.code (o.unit.getD 0) = true

theorem Cooped.effect {s h t : Hub} (k : Cooped keys s h) (calm : s.calm = true) (r : Ran false h s.store t) : CoopEffect keys s h t := by
  obtain ⟨o, w⟩ := calm_nothing_left calm
  have regs (a b : Nat) (q : eventKey (regKey a b) = false) := r.keeps a b q (by simp)
  have whole : h.rest t = { s.restored h with occs := [], writes := [], store := s.store, regs := h.regs, bus := h.bus } := by
    rw [r.rest, k.same Hub.writes fun _ => rfl, w]
    rfl
  have owners : t.owners = h.owners := (congrArg Hub.owners whole :)
  refine ⟨r.told rfl, owners, ?_, fun a b q m => (regs a b q).trans (k.regs a b m), regs, r.shows⟩
  calc s.rest t = { h.rest t with regs := s.regs, bus := s.bus, pins := s.pins, coops := (s.rest t).coops } := by
        simp only [Hub.rest, k.same Hub.link fun _ => rfl]
    _ = { ({ s.restored h with coops := s.coops, owners := s.owners } : Hub) with
          occs := [], writes := [], store := s.store, pins := s.pins, owners := t.owners, coops := (s.rest t).coops } := by
        rw [whole, owners]
        rfl
    _ = { s with owners := t.owners, coops := (s.rest t).coops } := by
        rw [k.core, ← o, ← w]

theorem answers_cooped {i : Instr} {s : State} {p : Hub → Prop} {f : Hub → Hub} {h : Hub} (e : exec i s = run f s) (g : f s.hub = h)
    (k : Cooped keys s.hub h) (n : ∀ a ∈ calmKeys, a ∉ keys) (calm : s.hub.calm = true)
    (q : ∀ t, CoopEffect keys s.hub h t → p t) : Answers i s p := by
  subst g
  obtain ⟨t, ran, r⟩ := run_spec (rel := false) f s (k.still n (calm_still calm)) (k.untraced n (calm_untraced calm))
    fun _ x m => (k.quiet x m).resolve_left (by simp [(calm_nothing_left calm).1])
  exact ⟨_, e.trans ran, rfl, q t (k.effect calm r)⟩

/-! ### What a halt does -/

/-- The cooper halted with a cause, and its pages released, before the halt is counted and raised. -/
def Hub.halted (g : Hub) (c cause : Nat) : Hub :=
  (g.setCoop c { g.coop c with st := .halted, cause := cause, wait := .none }).disown (coopReq c)

theorem coopHalt_counted (g : Hub) (c : Nat) {cause : Nat} (m : cause = Cc.ILLEGAL ∨ cause = Cc.STACK ∨ cause = Cc.BAD_ADDR) :
    g.coopHalt c cause = ((g.halted c cause).bump (F.COOP_RUNS_FAULTS.lane c) 1).raiseOf Ev.COOP_FAULT (coopUnit c (g.coop c).script) := by
  rcases m with rfl | rfl | rfl <;> rfl

theorem coopHalt_signature (g : Hub) (c : Nat) : g.coopHalt c Cc.SIGNATURE =
    (((g.halted c Cc.SIGNATURE).bump (F.COOP_RUNS_FAULTS.lane c) 1).err (Er.COOP_SIGNATURE.lane c)).raiseOf Ev.COOP_FAULT
      (coopUnit c (g.coop c).script) := rfl

theorem coopHalt_fail (g : Hub) (c : Nat) :
    g.coopHalt c Cc.FAIL = (g.halted c Cc.FAIL).raiseOf Ev.COOP_FAILED (coopUnit c (g.coop c).script) := rfl

theorem Hub.coop_halted (g : Hub) (c cause d : Nat) :
    (g.halted c cause).coop d = if d = c then { g.coop c with st := .halted, cause := cause, wait := .none } else g.coop d :=
  Hub.coop_setCoop ..

theorem findKey_released (n p : Nat) (l : List (Nat × Nat)) : findKey p 0 (l.filter fun x => x.2 != n + 1) ≠ n + 1 ∧
    (findKey p 0 l ≠ n + 1 → findKey p 0 (l.filter fun x => x.2 != n + 1) = findKey p 0 l) := by
  induction l with
  | nil => exact ⟨(Nat.succ_ne_zero n).symm, fun _ => rfl⟩
  | cons x l ih =>
    obtain ⟨j, v⟩ := x
    by_cases held : v = n + 1 <;> by_cases same : j = p <;> simp_all [findKey]

/-- A requester's pages are released, and no other (R467). -/
theorem Hub.owner_disown (g : Hub) (r : Req) (p : Nat) :
    (g.disown r).owner p ≠ reqCode r + 1 ∧ (g.owner p ≠ reqCode r + 1 → (g.disown r).owner p = g.owner p) :=
  findKey_released _ p g.owners.cells

section
variable {i : Instr} {s : State} {f : Hub → Hub} {g h : Hub} {cause : Nat} {x : Cooper} {coop : CoopId}

/-- What the statements about a halt say. -/
def haltAnswer (s h : Hub) (coop : CoopId) (x : Cooper) (code : Nat) (keys : List Nat) : Prop :=
  s.onlyCoopTold h coop x ∧
  (∀ p, h.owner p ≠ reqCode (coopReq coop) + 1 ∧ (s.owner p ≠ reqCode (coopReq coop) + 1 → h.owner p = s.owner p)) ∧
  h.shows code ((coop : Nat) + 2 * x.script) = true ∧ s.rest h = { s with owners := h.owners, coops := (s.rest h).coops } ∧ s.keeps h keys

theorem eventBit_coop {code : Nat} (m : code = Ev.COOP_FAULT ∨ code = Ev.COOP_FAILED ∨ code = Ev.COOP_ENDED) (u p i : Nat)
    (e : eventBit code u = some (p, i)) : i < 32 := by
  rcases m with rfl | rfl | rfl <;>
  · cases e
    decide

theorem RegsOnly.cooped {s h : Hub} (k : RegsOnly keys s h) : Cooped keys s h :=
  ⟨by
    have e : ({ s.restored h with coops := s.coops, owners := s.owners } : Hub) =
      { s.restored { h with regs := s.regs } with coops := s.coops, owners := s.owners } := rfl
    rw [e, k.core]; rfl, k.regs, fun o m => .inl ((k.same Hub.occs fun _ _ => rfl) ▸ m)⟩

/-- A cooper halts, and registers are written and an event is raised besides. -/
theorem answers_halted {code : Nat} (e : exec i s = run f s) (b : Becomes coop x s.hub g) (eq : f s.hub = h.raiseOf code (coopUnit coop x.script))
    (k : RegsOnly keys (g.halted coop cause) h) (m : code = Ev.COOP_FAULT ∨ code = Ev.COOP_FAILED ∨ code = Ev.COOP_ENDED)
    (n : ∀ a ∈ calmKeys, a ∉ keys) (calm : s.hub.calm = true) :
    Answers i s fun t => haltAnswer s.hub t coop { x with st := .halted, cause := cause, wait := .none } code keys ∧
      ∀ a b, eventKey (regKey a b) = false → t.regB a b = h.regB a b := by
  have released : code ≠ Ev.RELEASED := by rcases m with rfl | rfl | rfl <;> decide
  have all : Cooped keys s.hub (h.raiseOf code (coopUnit coop x.script)) :=
    (b.cooped.trans ((Cooped.setCoop g _ _).trans (.disown _ _))).trans (k.cooped.trans (.raiseOf _ _ released))
  have coops (d : Nat) : h.coop d = (g.halted coop cause).coop d := k.same (Hub.coop · d) fun _ _ => rfl
  refine answers_cooped e eq all n calm fun t y => ⟨⟨⟨?_, fun d other => ?_⟩, fun p => ?_, ?_, y.rest, y.keeps⟩, y.regs⟩
  · rw [y.told]
    exact congrArg Cooper.told ((coops coop).trans (by rw [Hub.coop_halted, if_pos rfl, b.this]))
  · rw [y.told]
    exact congrArg Cooper.told ((coops d).trans (by rw [Hub.coop_halted, if_neg other, b.other d other]))
  · have kept : t.owner p = (g.disown (coopReq coop)).owner p := by
      rw [Hub.owner, y.owners]
      exact k.same (Hub.owner · p) fun _ _ => rfl
    rw [kept, ← (b.same (Hub.owner · p) fun _ _ => rfl :)]
    exact g.owner_disown _ p
  · exact y.shows _ (List.mem_append_right _ (List.mem_singleton_self _)) (eventBit_coop m _)

/-- The registers that a faulted halt touches: the count of faults and the error record of the page (R455). -/
def haltKeys (c : Nat) : List Nat :=
  [R.COOP_RUNS + 0x1000 * c, R.PG_ERROR + (Pg.COOP + c) * 0x1000, R.PG_ERROR_INFO + (Pg.COOP + c) * 0x1000]

/-- The count of faults is no register that a calm hub is known by. -/
theorem calmKeys_not_haltKeys (c : CoopId) : ∀ a ∈ calmKeys, a ∉ haltKeys c := by
  fin_cases c <;> decide

/-- A fault of the script halts its cooper and counts (R451, R455). -/
theorem answers_fault (e : exec i s = run f s) (b : Becomes coop x s.hub g) (eq : f s.hub = g.coopHalt coop cause)
    (m : cause = Cc.ILLEGAL ∨ cause = Cc.STACK ∨ cause = Cc.BAD_ADDR) (calm : s.hub.calm = true) :
    Answers i s fun t => haltAnswer s.hub t coop { x with st := .halted, cause := cause, wait := .none } Ev.COOP_FAULT
      [R.COOP_RUNS + 0x1000 * coop] := by
  have bumped : RegsOnly [R.COOP_RUNS + 0x1000 * coop] (g.halted coop cause) ((g.halted coop cause).bump (F.COOP_RUNS_FAULTS.lane coop) 1) :=
    .wr _ _ (by rw [Nat.mul_comm]; exact List.mem_singleton_self _)
  have keys : ∀ a ∈ calmKeys, a ∉ [R.COOP_RUNS + 0x1000 * (coop : Nat)] := fun a k l =>
    calmKeys_not_haltKeys coop a k (List.mem_cons.mpr (.inl (List.mem_singleton.mp l)))
  rw [coopHalt_counted g coop m, b.this] at eq
  exact (answers_halted e b eq bumped (.inl rfl) keys calm).mono fun t a => a.1

theorem haltAnswer.more {t : Hub} {code : Nat} (a : haltAnswer s.hub t coop x code [R.COOP_RUNS + 0x1000 * coop]) :
    haltAnswer s.hub t coop x code (haltKeys coop) := by
  obtain ⟨told, owners, shows, rest, keeps⟩ := a
  exact ⟨told, owners, shows, rest, fun a b q m => keeps a b q fun l => m (List.mem_cons.mpr (.inl (List.mem_singleton.mp l)))⟩

theorem counted_err_only (g : Hub) (c : Nat) :
    RegsOnly (haltKeys c) g ((g.bump (F.COOP_RUNS_FAULTS.lane c) 1).err (Er.COOP_SIGNATURE.lane c)) := by
  have count : (F.COOP_RUNS_FAULTS.lane c).addr ∈ haltKeys c := List.mem_cons.mpr (.inl (by rw [Nat.mul_comm 0x1000]; rfl))
  have error : (F.PG_ERROR_ERRORS.lane (Er.COOP_SIGNATURE.lane c).page).addr ∈ haltKeys c := .tail _ (.head _)
  have info : (F.PG_ERROR_INFO_BIT.lane (Er.COOP_SIGNATURE.lane c).page).addr ∈ haltKeys c := .tail _ (.tail _ (.head _))
  exact (RegsOnly.wr g _ count).trans ((RegsOnly.wr _ _ error).trans (.wr _ _ info))

variable {op w : Nat} (y : s.hub.coop coop = x) (calm : s.hub.calm = true)
include y calm

/-- A SIG that does not agree with S halts the cooper (R448). -/
theorem answers_sig_fault (e : exec i s = run (·.coopSig coop) s) (z : x.executes Co.SIG w = true)
    (differs : (x.sig.toNat ^^^ 0xFFFFFFFF) % 2 ^ 16 ≠ w % 2 ^ 16) :
    Answers i s fun t => haltAnswer s.hub t coop { x with st := .halted, cause := Cc.SIGNATURE, wait := .none, sig := 0xFFFFFFFF }
      Ev.COOP_FAULT (haltKeys coop) ∧ t.hasErr (Er.COOP_SIGNATURE.lane coop) = true := by
  have b := ((Becomes.refl s.hub coop).setCoop (x.pastWord Co.SIG w)).setCoop { x with sig := sigStart }
  have differs : ((x.sig.toNat ^^^ 0xFFFFFFFF) % 65536 == Iw.imm16 w) = false := by
    rw [beq_eq_false_iff_ne]
    simpa [Iw.imm16, bitsOf] using differs
  have eq : s.hub.coopSig coop =
      ((s.hub.setCoop coop (x.pastWord Co.SIG w)).setCoop coop { x with sig := sigStart }).coopHalt coop Cc.SIGNATURE := by
    have kept : (x.pastWord Co.SIG w).sig = x.sig := rfl
    rw [Hub.coopSig, coopDo_executes y z rfl, Hub.coop_setCoop, if_pos rfl]
    simp only [kept, differs, Bool.false_eq_true, if_false]
    rfl
  rw [coopHalt_signature, b.this] at eq
  refine (answers_halted e b eq (counted_err_only _ coop) (.inl rfl) (calmKeys_not_haltKeys coop) calm).mono fun t ⟨a, regs⟩ => ⟨a, ?_⟩
  have same := regs (F.PG_ERROR_ERRORS.lane (Er.COOP_SIGNATURE.lane coop).page).addr 0 (by rw [regKey_zero]; exact eventKey_errors _)
  rw [Hub.hasErr, Hub.rd, Hub.rdB, same]
  exact Hub.hasErr_err _ (Er.COOP_SIGNATURE.lane coop) (by decide : 1 < 32)

/-- FAIL halts the cooper with its code (R442). -/
theorem answers_fail (e : exec i s = run (·.coopFail coop) s) (z : x.executes Co.FAIL w = true) :
    Answers i s fun t => haltAnswer s.hub t coop { x with st := .halted, cause := Cc.FAIL, wait := .none, sig := 0xFFFFFFFF }
      Ev.COOP_FAILED [(F.COOP_FAIL_CODE_CODE.lane coop).addr] ∧ t.rd (F.COOP_FAIL_CODE_CODE.lane coop) = w % 2 ^ 16 := by
  have b := ((Becomes.refl s.hub coop).setCoop (x.past w)).setCoop { x with sig := sigStart }
  have eq : s.hub.coopFail coop = ((((s.hub.setCoop coop (x.past w)).setCoop coop { x with sig := sigStart }).halted coop Cc.FAIL).wr
      (F.COOP_FAIL_CODE_CODE.lane coop) (Iw.imm16 w)).raiseOf Ev.COOP_FAILED (coopUnit coop x.script) := by
    have kept : ((s.hub.setCoop coop (x.past w)).wr (F.COOP_FAIL_CODE_CODE.lane coop) (Iw.imm16 w)).coop coop = x.past w :=
      ((Becomes.refl s.hub coop).setCoop (x.past w)).this
    rw [Hub.coopFail, coopDo_executes y z rfl, pastWord_of_ne x w rfl]
    simp only [kept]
    rw [coopHalt_fail, Hub.coop_setCoop, if_pos rfl]
    rfl
  refine (answers_halted e b eq (.wr _ _ (List.mem_singleton_self _)) (.inr (.inl rfl)) ?_ calm).mono fun t ⟨a, regs⟩ => ⟨a, ?_⟩
  · fin_cases coop <;> decide
  · have same := regs (F.COOP_FAIL_CODE_CODE.lane coop).addr 0 (by fin_cases coop <;> decide)
    rw [Hub.rd, Hub.rdB, same]
    exact (Hub.rd_wr _ (F.COOP_FAIL_CODE_CODE.lane coop) _ (by decide : 0 + 16 ≤ 32)).trans (by simp [Iw.imm16, bitsOf, Fld.lane, F.COOP_FAIL_CODE_CODE])

/-- END makes the cooper IDLE (R442). -/
theorem answers_end (e : exec i s = run (·.coopEnd coop) s) (z : x.executes Co.END w = true) : Answers i s fun t =>
    s.hub.onlyCoopTold t coop { x with st := .idle, cause := Cc.END, sig := 0xFFFFFFFF } ∧
    t.shows Ev.COOP_ENDED ((coop : Nat) + 2 * x.script) = true ∧ s.hub.rest t = { s.hub with coops := (s.hub.rest t).coops } ∧
    s.hub.keeps t [] := by
  have b := ((Becomes.refl s.hub coop).setCoop (x.past w)).setCoop { x with st := .idle, cause := Cc.END, sig := sigStart }
  have eq : s.hub.coopEnd coop = ((s.hub.setCoop coop (x.past w)).setCoop coop { x with st := .idle, cause := Cc.END, sig := sigStart }).raiseOf
      Ev.COOP_ENDED (coopUnit coop x.script) := by
    rw [Hub.coopEnd, coopDo_executes y z rfl, pastWord_of_ne x w rfl, Hub.coop_setCoop, if_pos rfl]
    rfl
  refine answers_cooped (keys := []) e eq (b.cooped.trans (.raiseOf _ _ (by decide))) (fun _ _ l => nomatch l) calm fun t k =>
    ⟨⟨?_, fun d other => ?_⟩, ?_, ?_, k.keeps⟩
  · exact (k.told _).trans (congrArg Cooper.told b.this)
  · exact (k.told _).trans (congrArg Cooper.told (b.other d other))
  · exact k.shows _ (List.mem_append_right _ (List.mem_singleton_self _)) (eventBit_coop (.inr (.inr rfl)) _)
  · rw [k.rest, k.owners]
    rfl

/-- A word at which a fault is found halts the cooper there; S has taken the word in. -/
theorem answers_word_fault (z : x.executes op w = true) (o : coopOps.contains op = true) (n : (op == Co.SIG) = false)
    {F : Hub → Nat → Nat → Hub} (e : exec i s = run (fun h => h.coopDo coop op F) s)
    (m : cause = Cc.ILLEGAL ∨ cause = Cc.STACK ∨ cause = Cc.BAD_ADDR)
    (halts : ∀ h : Hub, h.coop coop = x.past w → F h w x.pc = (h.setCoop coop { x.past w with pc := x.pc }).coopHalt coop cause) :
    Answers i s fun t => haltAnswer s.hub t coop { x with st := .halted, cause := cause, wait := .none, sig := (x.past w).sig }
      Ev.COOP_FAULT (haltKeys coop) := by
  have past : (s.hub.setCoop coop (x.past w)).coop coop = x.past w := by rw [Hub.coop_setCoop, if_pos rfl]
  have b := ((Becomes.refl s.hub coop).setCoop (x.past w)).setCoop { x.past w with pc := x.pc }
  have eq : s.hub.coopDo coop op F = ((s.hub.setCoop coop (x.past w)).setCoop coop { x.past w with pc := x.pc }).coopHalt coop cause := by
    rw [coopDo_executes y z o, pastWord_of_ne x w n, halts _ past]
  exact (answers_fault e b eq m calm).mono fun t a => haltAnswer.more a

/-- A block of words not all in the data store (R443). -/
theorem answers_block_fault (size : Nat) (z : x.executes op w = true) (o : coopOps.contains op = true) (n : (op == Co.SIG) = false)
    (out : 256 < x.reg (Iw.f2 w) + Iw.imm w + size) {F : Nat → Nat → Hub → Nat → List Nat → Hub}
    (e : exec i s = run (fun h => h.coopDo coop op fun h w at_ => h.coopBlock coop w at_ size (F w at_)) s) :
    Answers i s fun t => haltAnswer s.hub t coop { x with st := .halted, cause := Cc.BAD_ADDR, wait := .none, sig := (x.past w).sig }
      Ev.COOP_FAULT (haltKeys coop) := by
  refine answers_word_fault y calm z o n e (.inr (.inr rfl)) fun h k => ?_
  have at_ : (x.past w).reg (Iw.f2 w) = x.reg (Iw.f2 w) := rfl
  have beyond : ¬ x.reg (Iw.f2 w) + Iw.imm w + size ≤ 256 := Nat.not_le.mpr out
  by_cases low : x.reg (Iw.f2 w) + Iw.imm w < 256 <;>
    simp only [Hub.coopBlock, Cooper.dataAddr, Hub.coopBadAddr, k, at_, low, beyond, if_true, if_false]

end

/-- Settles O57: a transfer gives its cooper one new state, a fault, FAIL and a SIG that differs halt it, and each leaves just that. -/
theorem cooper_control_transfers_and_signatures : Obligations.cooper_control_transfers_and_signatures := by
  refine ⟨fun s coop x w calm y e => answers_becomes (f := fun h => h.coopBranch coop Co.JMP fun _ _ => true) rfl
      (becomes_branch y e rfl rfl (p := True) (iff_of_true rfl trivial)) calm,
    fun s coop x w calm y e => answers_becomes (f := fun h => h.coopBranch coop Co.BEQ fun a b => a == b) rfl
      (becomes_branch y e rfl rfl beq_iff_eq) calm,
    fun s coop x w calm y e => answers_becomes (f := fun h => h.coopBranch coop Co.BNE fun a b => a != b) rfl
      (becomes_branch y e rfl rfl bne_iff_ne) calm,
    fun s coop x w calm y e => answers_becomes (f := fun h => h.coopBranch coop Co.BLTU fun a b => a < b) rfl
      (becomes_branch y e rfl rfl decide_eq_true_iff) calm,
    fun s coop x w calm y e => answers_becomes (f := fun h => h.coopBranch coop Co.BGEU fun a b => b ≤ a) rfl
      (becomes_branch y e rfl rfl decide_eq_true_iff) calm,
    fun s coop x w calm y e d room => answers_becomes (f := (·.coopCall coop)) rfl (becomes_call y e room) calm d,
    fun s coop x w calm y e full => ?callFull,
    fun s coop x w p rest calm y e d pushed => answers_becomes (f := (·.coopRet coop)) rfl (becomes_ret y e pushed) calm d,
    fun s coop x w calm y e none => ?retEmpty,
    fun s coop x w calm y e out => answers_block_fault y calm 1 e rfl rfl (Nat.lt_succ_of_le out) rfl,
    fun s coop x w calm y e out => answers_block_fault y calm 1 e rfl rfl (Nat.lt_succ_of_le out) rfl,
    fun s coop x w calm y e out => answers_block_fault y calm 7 e rfl rfl out rfl,
    fun s coop x w calm y e out => answers_block_fault y calm 8 e rfl rfl out rfl,
    fun s coop x w calm y e out => answers_block_fault y calm 4 e rfl rfl out rfl,
    fun s coop x w calm y e out => answers_block_fault y calm 4 e rfl rfl out rfl,
    fun s coop x w calm y e out => answers_block_fault y calm 2 e rfl rfl out rfl,
    fun s coop x w calm y e other => ?getev, fun s coop x w calm y e => answers_end y calm rfl e,
    fun s coop x w calm y e => ?fail, fun s coop x w calm y e d agrees => answers_becomes (f := (·.coopSig coop)) rfl (becomes_sig y e agrees) calm d,
    fun s coop x w calm y e differs => ?sig, fun s coop x w calm y running word none => ?illegal⟩
  case callFull =>
    refine answers_word_fault y calm e rfl rfl rfl (.inr (.inl rfl)) fun h k => ?_
    have full : 8 ≤ (x.past w).stack.length := by exact full
    simp only [k, full, if_true]
  case retEmpty =>
    refine answers_word_fault y calm e rfl rfl rfl (.inr (.inl rfl)) fun h k => ?_
    have none : (x.past w).stack = [] := none
    simp only [k, none]
  case getev =>
    refine answers_word_fault y calm e rfl rfl rfl (.inl rfl) fun h k => ?_
    simp only [k]
    split
    case h_5 => rfl
    all_goals omega
  case fail =>
    refine (answers_fail y calm rfl e).mono fun t ⟨⟨told, owners, shows, rest, keeps⟩, code⟩ => ⟨told, code, owners, shows, rest, keeps⟩
  case sig =>
    refine (answers_sig_fault y calm rfl e differs).mono fun t ⟨⟨told, owners, shows, rest, keeps⟩, err⟩ => ⟨told, err, owners, shows, rest, keeps⟩
  case illegal =>
    refine answers_fault (f := fun h => h.coopDo coop Co.NOP fun h _ _ => h) rfl (y ▸ Becomes.refl s.hub coop) ?_ (.inl rfl) calm
    have run : (x.st != .running) = false := by rw [running]; rfl
    simp only [Hub.coopDo, y, run, word, none, Bool.false_eq_true, if_false, Bool.not_false, if_true]

end Sys2Proof.Machine
end


section
/-! SUPPORT. Commands that change grants, the free values, the spurs and the latches of the register bus, and registers: nothing follows them
on their edge. -/

namespace Sys2Proof.Machine

set_option Elab.async false

/-- `h` with the grants, the count of free values, the spurs, the latches of the register bus, the registers, the bus and the occurrences
of `s`. -/
def Hub.offMinor (s h : Hub) : Hub :=
  { s.restored h with auth := s.auth, freeCount := s.freeCount, tiles := s.tiles, hi := s.hi, stage := s.stage }

/-- `h` comes from `s` by changing those and the registers of the keys, RELEASED not among the events raised. -/
structure Minor (keys : List Nat) (s h : Hub) : Prop where
  core : s.offMinor h = s
  regs : ∀ a b, regKey a b ∉ keys → h.regB a b = s.regB a b
  quiet : ∀ o ∈ h.occs, o ∈ s.occs ∨ o.code ≠ Ev.RELEASED

variable {keys : List Nat}

theorem Minor.trans {s t u : Hub} (h1 : Minor keys s t) (h2 : Minor keys t u) : Minor keys s u := by
  refine ⟨?_, fun a b n => (h2.regs a b n).trans (h1.regs a b n), fun o m => (h2.quiet o m).elim (h1.quiet o) .inr⟩
  have e : s.offMinor u = s.offMinor (t.offMinor u) := rfl
  rw [e, h2.core, h1.core]

/-- A change that touches no register and raises nothing. -/
theorem Minor.of_core {s h : Hub} (core : s.offMinor h = s) (regs : h.regs = s.regs) (occs : h.occs = s.occs) : Minor keys s h :=
  ⟨core, fun a b _ => by rw [Hub.regB, Hub.regB, regs], fun o m => .inl (occs ▸ m)⟩

theorem Minor.refl (s : Hub) : Minor keys s s := .of_core rfl rfl rfl

/-- The hub with other grants. -/
def Hub.setAuth (s : Hub) (a : Auth) : Hub := { s with auth := a }

theorem Minor.setAuth (s : Hub) (a : Auth) : Minor keys s (s.setAuth a) := .of_core rfl rfl rfl

theorem Minor.withFree (s : Hub) (n : Nat) : Minor keys s { s with freeCount := n } := .of_core rfl rfl rfl

theorem Minor.withBus (s : Hub) (x : Tab BusResp) : Minor keys s { s with bus := x } := .of_core rfl rfl rfl

theorem Minor.respond (s : Hub) (r : Req) (v st : Nat) : Minor keys s (s.respond r v st) := .withBus s _

theorem Minor.setReg (s : Hub) {a : Nat} (v : Nat) (k : a ∈ keys) : Minor keys s (s.setReg a v) :=
  ⟨rfl, (RegsOnly.setReg s v k).regs, fun _ m => .inl m⟩

theorem Minor.wr (s : Hub) {f : Fld} (v : Nat) (k : f.addr ∈ keys) : Minor keys s (s.wr f v) := .setReg s _ k

theorem Minor.raise (s : Hub) {c : Nat} (u : Option Nat) (n : c ≠ Ev.RELEASED) : Minor keys s (s.raise c u) := by
  refine ⟨rfl, fun _ _ _ => rfl, fun o m => ?_⟩
  rcases List.mem_append.mp m with m | m
  · exact .inl m
  · exact .inr (by rw [List.mem_singleton.mp m]; exact n)

theorem Minor.raiseOf (s : Hub) {c : Nat} (u : Nat) (n : c ≠ Ev.RELEASED) : Minor keys s (s.raiseOf c u) := .raise s _ n

section
variable {s h : Hub} (k : Minor keys s h)
include k

theorem Minor.same {α : Type} (g : Hub → α) (n : ∀ u, g (s.offMinor u) = g u) : g h = g s := (n h).symm.trans (congrArg g k.core)

theorem Minor.only : s.restored h =
    { s with auth := h.auth, freeCount := h.freeCount, tiles := h.tiles, hi := h.hi, stage := h.stage } :=
  congrArg (fun u : Hub => { u with auth := h.auth, freeCount := h.freeCount, tiles := h.tiles, hi := h.hi, stage := h.stage }) k.core

theorem Minor.rd (f : Fld) (n : f.addr ∉ keys) : h.rd f = s.rd f := by
  simp only [Hub.rd, Hub.rdB, k.regs f.addr 0 (by rwa [regKey_zero])]

theorem Minor.unplanted (c : s.calm = true) : h.rel.inject = none := (k.same (·.rel.inject) fun _ => rfl).trans (calm_unplanted c)

theorem Minor.untraced (n : ∀ a ∈ calmKeys, a ∉ keys) (u : s.untraced) : h.untraced := by
  unfold Hub.untraced Hub.flag at *
  rwa [k.rd F.TRACE_STATE_RUNNING (n _ (by simp [calmKeys])), k.rd F.TRACE_TRIG_CTRL_HUBEV_EN (n _ (by simp [calmKeys]))]

theorem Minor.still (n : ∀ a ∈ calmKeys, a ∉ keys) (c : s.still) : h.still := by
  obtain ⟨reports, policies, peers, reqs, soft, ladder, drain, columns, close⟩ := c
  rw [← k.same Hub.hangCtl fun _ => rfl] at reports peers
  rw [← k.same Hub.hang fun _ => rfl] at policies
  rw [← k.same Hub.link fun _ => rfl] at reqs
  rw [← k.same Hub.softReset fun _ => rfl] at soft
  rw [← k.same Hub.ladder fun _ => rfl] at ladder
  rw [← k.same Hub.harv fun _ => rfl] at drain columns
  rw [← k.same Hub.harvReady fun _ => rfl, ← k.rd F.HARV_STATUS_PHASE (n _ (by simp [calmKeys]))] at close
  exact ⟨reports, policies, peers, reqs, soft, ladder, drain, columns, close⟩

theorem Minor.apart (c : s.calm = true) : Apart keys s h := by
  obtain ⟨o, w⟩ := calm_nothing_left c
  exact ⟨k.same Hub.link fun _ => rfl, k.same Hub.pins fun _ => rfl, k.same Hub.store fun _ => rfl, k.same Hub.coops fun _ => rfl,
    (k.same Hub.writes fun _ => rfl).trans w, k.regs, fun x m => (k.quiet x m).resolve_left (by simp [o])⟩

end

/-- What the command of such a change answers. -/
theorem answers_minor {i : Instr} {s : State} {p : Hub → Prop} {f : Hub → Hub} {h : Hub} (x : exec i s = run f s) (e : f s.hub = h)
    (k : Minor keys s.hub h) (n : ∀ a ∈ calmKeys, a ∉ keys) (c : s.hub.calm = true)
    (q : ∀ t, t.bus = h.bus → TasteEffect keys s.hub h t → p t) : Answers i s p :=
  answers_followed x e (k.apart c) (follow_still (k.still n (calm_still c))) (k.untraced n (calm_untraced c)) c q

/-- A command register that the bus takes, with such a change. -/
theorem answers_minorCmd {i : Instr} {s : State} {p : Hub → Prop} {r : Req} {a v : Nat} {f : Hub → Hub} {h : Hub}
    (x : exec i s = run (fun h => h.cmd r a v f) s) (w : s.hub.takesWrite r a v = true) (e : f s.hub = h) (k : Minor keys s.hub h)
    (n : ∀ a ∈ calmKeys, a ∉ keys) (c : s.hub.calm = true) (q : ∀ t, t.tookWrite r → TasteEffect keys s.hub h t → p t) :
    Answers i s p := by
  have taken : s.hub.cmd r a v f = h.respond r 0 St.OK := by
    rw [cmd_taken w (by rw [e]; exact k.unplanted c), e]
  refine answers_minor x taken (k.trans (.respond _ _ _ _)) n c fun t bus y => q t ?_ ⟨y.rest, y.keeps, y.regs, y.shows⟩
  rw [Hub.tookWrite, bus]
  exact respond_took _ _

/-! ### Grants, R389 to R391 -/

theorem Hub.rd_authStatus (s : Hub) (st : Nat) : (s.authStatus st).rd F.AUTH_CMD_STATUS_STATUS = st % 2 ^ 8 := by
  rw [Hub.authStatus, Hub.rd_wr_apart _ _ _ _ (by decide) (by decide), Hub.rd_wr _ _ _ (by decide)]
  rfl

theorem Hub.reg_authStatus (s : Hub) (st : Nat) {a : Nat} (n : a ≠ R.AUTH_CMD_STATUS) : (s.authStatus st).reg a = s.reg a :=
  (Hub.reg_wr_ne _ _ _ n).trans (Hub.reg_wr_ne _ _ _ n)

theorem Minor.authStatus (s : Hub) (st : Nat) (k : R.AUTH_CMD_STATUS ∈ keys) : Minor keys s (s.authStatus st) :=
  (Minor.wr s _ k).trans (.wr _ _ k)

/-- A free word is drawn into a word of the nonce. -/
def Hub.drawnInto (s : Hub) (o : Nat) : Hub := s.drawWord.2.setReg (R.AUTH_NONCE_0 + o) s.drawWord.1.toNat

theorem Hub.reg_drawnInto (s : Hub) (o : Nat) : (s.drawnInto o).reg (R.AUTH_NONCE_0 + o) = (Config.freeWord s.freeCount).toNat :=
  (Hub.reg_setReg _ _ _).trans (Nat.mod_eq_of_lt s.drawWord.1.isLt)

theorem Hub.reg_drawnInto_ne (s : Hub) {o o' : Nat} (n : o' ≠ o) : (s.drawnInto o).reg (R.AUTH_NONCE_0 + o') = s.reg (R.AUTH_NONCE_0 + o') :=
  Hub.reg_setReg_ne _ _ fun e => n (Nat.add_left_cancel e)

theorem Minor.drawnInto (s : Hub) {o : Nat} (k : R.AUTH_NONCE_0 + o ∈ keys) : Minor keys s (s.drawnInto o) :=
  (Minor.withFree s _).trans (.setReg _ _ k)

/-- The four words of the nonce have been drawn. -/
def Hub.nonceDrawn (s : Hub) : Hub := (((s.drawnInto 0).drawnInto 4).drawnInto 8).drawnInto 12

/-- The registers that CHALLENGE writes. -/
def challengeKeys : List Nat :=
  [R.AUTH_NONCE_0, R.AUTH_NONCE_0 + 4, R.AUTH_NONCE_0 + 8, R.AUTH_NONCE_0 + 12, R.AUTH_CMD_STATUS]

theorem Minor.nonceDrawn (s : Hub) : Minor challengeKeys s s.nonceDrawn :=
  (((Minor.drawnInto s (by decide)).trans (.drawnInto _ (by decide))).trans (.drawnInto _ (by decide))).trans (.drawnInto _ (by decide))

theorem authChallenge_taken {s : Hub} (ok : s.authCheck 1 = St.OK) : s.authChallenge true =
    (s.nonceDrawn.setAuth { s.auth with nonceAt := some s.time.hclk }).authStatus St.OK := by
  rw [Hub.authChallenge, ok]
  rfl

theorem answers_authChallenge (s : State) (r : Req) (calm : s.hub.calm = true) (w : s.hub.takesWrite r R.AUTH_CMD 1 = true)
    (ok : s.hub.authCheck 1 = St.OK) : Answers (.authChallenge r true) s fun h =>
      h.tookWrite r ∧ h.auth.nonceAt = some s.hub.time.hclk ∧ h.reg R.AUTH_NONCE_0 = (Config.freeWord s.hub.freeCount).toNat ∧
      h.reg (R.AUTH_NONCE_0 + 4) = (Config.freeWord (s.hub.freeCount + 1)).toNat ∧
      h.reg (R.AUTH_NONCE_0 + 8) = (Config.freeWord (s.hub.freeCount + 2)).toNat ∧
      h.reg (R.AUTH_NONCE_0 + 12) = (Config.freeWord (s.hub.freeCount + 3)).toNat ∧ h.freeCount = s.hub.freeCount + 4 ∧
      h.rd F.AUTH_CMD_STATUS_STATUS = St.OK ∧ h.auth.grants = s.hub.auth.grants ∧
      s.hub.rest h = { s.hub with auth := h.auth, freeCount := h.freeCount } ∧
      s.hub.keeps h [R.AUTH_NONCE_0, R.AUTH_NONCE_0 + 4, R.AUTH_NONCE_0 + 8, R.AUTH_NONCE_0 + 12, R.AUTH_CMD_STATUS] := by
  have k := ((Minor.nonceDrawn s.hub).trans (.setAuth _ { s.hub.auth with nonceAt := some s.hub.time.hclk })).trans (.authStatus _ St.OK (by decide))
  refine answers_minorCmd (f := fun h => h.authCmd 1 true) rfl w (authChallenge_taken ok) k (by decide) calm fun t took x => ?_
  have auth := x.field Hub.auth (fun _ => rfl) fun _ => rfl
  have free := x.field Hub.freeCount (fun _ => rfl) fun _ => rfl
  have nonce (o : Nat) (e : eventKey (R.AUTH_NONCE_0 + o) = false) (n : R.AUTH_NONCE_0 + o ≠ R.AUTH_CMD_STATUS) :
      t.reg (R.AUTH_NONCE_0 + o) = s.hub.nonceDrawn.reg (R.AUTH_NONCE_0 + o) := by
    rw [x.reg e, Hub.reg_authStatus _ _ n]
    rfl
  refine ⟨took, ?_, ?_, ?_, ?_, ?_, free, ?_, ?_, ?_, x.keeps⟩
  · rw [auth]
    rfl
  · refine (nonce 0 (by decide) (by decide)).trans ?_
    rw [Hub.nonceDrawn, Hub.reg_drawnInto_ne _ (by decide), Hub.reg_drawnInto_ne _ (by decide), Hub.reg_drawnInto_ne _ (by decide),
      Hub.reg_drawnInto]
  · refine (nonce 4 (by decide) (by decide)).trans ?_
    rw [Hub.nonceDrawn, Hub.reg_drawnInto_ne _ (by decide), Hub.reg_drawnInto_ne _ (by decide), Hub.reg_drawnInto]
    rfl
  · refine (nonce 8 (by decide) (by decide)).trans ?_
    rw [Hub.nonceDrawn, Hub.reg_drawnInto_ne _ (by decide), Hub.reg_drawnInto]
    rfl
  · refine (nonce 12 (by decide) (by decide)).trans ?_
    rw [Hub.nonceDrawn, Hub.reg_drawnInto]
    rfl
  · rw [x.rd _ (by decide), Hub.rd_authStatus]
    rfl
  · rw [auth]
    rfl
  · rw [x.rest, k.only, auth, free]
    rfl

theorem traceGrants_untraced {s : Hub} (u : s.untraced) (old : Hub) : s.traceGrants old = s := by
  rw [Hub.traceGrants, u.1]
  rfl

/-- A VERIFY with a good key and signature (R389). -/
theorem authVerify_taken {s : Hub} {g : Nat} (ok : s.authCheck 2 = St.OK) (free : s.freeGrant = some g) (u : s.untraced) : s.authVerify true =
    (((s.setAuth { s.auth with nonceAt := none, grants := s.auth.grants.set g s.grantAsked }).wr F.AUTH_FAILS_COUNT 0).raiseOf
      Ev.GRANT_BEGIN g).authStatus St.OK := by
  have free : (s.setAuth { s.auth with nonceAt := none }).freeGrant = some g := free
  have still : (s.setAuth { s.auth with nonceAt := none, grants := s.auth.grants.set g s.grantAsked }).untraced := u
  have kept := traceGrants_untraced still (s.setAuth { s.auth with nonceAt := none })
  rw [Hub.authVerify, ok, if_neg (by decide)]
  change (match true, (s.setAuth { s.auth with nonceAt := none }).freeGrant with | true, some g => _ | _, _ => _) = _
  rw [free]
  exact congrArg (fun h : Hub => ((h.wr F.AUTH_FAILS_COUNT 0).raiseOf Ev.GRANT_BEGIN g).authStatus St.OK) kept

/-- A failed VERIFY counts; the eighth failure locks (R391). -/
def Hub.failCounted (s : Hub) : Hub :=
  if (s.bump F.AUTH_FAILS_COUNT 1).rd F.AUTH_FAILS_COUNT == 8 && !(s.bump F.AUTH_FAILS_COUNT 1).flag F.AUTH_FAILS_LOCKED then
    ((s.bump F.AUTH_FAILS_COUNT 1).setAuth { s.auth with lockedAt := some s.time.hclk }).wr F.AUTH_FAILS_LOCKED 1
  else s.bump F.AUTH_FAILS_COUNT 1

theorem authVerify_failed {s : Hub} (ok : s.authCheck 2 = St.OK) : s.authVerify false =
    ((s.setAuth { s.auth with nonceAt := none }).failCounted.raise Ev.AUTH_FAIL).authStatus St.DENIED := by
  rw [Hub.authVerify, ok]
  rfl

theorem Minor.failCounted (s : Hub) (k : R.AUTH_FAILS ∈ keys) : Minor keys s s.failCounted := by
  have counted : Minor keys s (s.bump F.AUTH_FAILS_COUNT 1) := .wr s _ k
  unfold Hub.failCounted
  split
  · exact (counted.trans (.setAuth _ _)).trans (.wr _ _ k)
  · exact counted

theorem Hub.rd_failCounted (s : Hub) :
    s.failCounted.rd F.AUTH_FAILS_COUNT = sat F.AUTH_FAILS_COUNT.width (s.rd F.AUTH_FAILS_COUNT + 1) := by
  have counted : (s.bump F.AUTH_FAILS_COUNT 1).rd F.AUTH_FAILS_COUNT = sat F.AUTH_FAILS_COUNT.width (s.rd F.AUTH_FAILS_COUNT + 1) :=
    (Hub.rd_wr _ _ _ (by decide)).trans (Nat.mod_eq_of_lt (sat_lt _ _))
  unfold Hub.failCounted
  split
  · rw [Hub.rd_wr_apart _ _ _ _ (by decide) (by decide)]
    exact counted
  · exact counted

theorem Hub.auth_failCounted (s : Hub) : s.failCounted.auth.grants = s.auth.grants ∧ s.failCounted.auth.nonceAt = s.auth.nonceAt := by
  unfold Hub.failCounted
  split <;> exact ⟨rfl, rfl⟩

theorem Hub.rd_fails_authStatus (s : Hub) (st : Nat) : (s.authStatus st).rd F.AUTH_FAILS_COUNT = s.rd F.AUTH_FAILS_COUNT :=
  (Hub.rd_setReg_ne _ _ _ (by decide)).trans (Hub.rd_setReg_ne _ _ _ (by decide))

/-- The events of grants have one bit each, whatever record they name. -/
theorem eventBit_auth {code : Nat} (m : code = Ev.GRANT_BEGIN ∨ code = Ev.GRANT_END ∨ code = Ev.AUTH_FAIL) (u p i : Nat)
    (e : eventBit code u = some (p, i)) : i < 32 := by
  rcases m with rfl | rfl | rfl <;>
  · cases e
    decide

theorem authRevoke_taken {s : Hub} {g : Nat} (ok : s.authCheck 3 = St.OK) (sel : s.rd F.AUTH_GRANT_SEL_RECORD = g) (u : s.untraced) :
    s.authRevoke = (s.endGrant g).authStatus St.OK := by
  have still : (s.endGrant g).untraced := u
  rw [Hub.authRevoke, ok, if_neg (by decide), sel, traceGrants_untraced still]

theorem Minor.endGrant (s : Hub) (g : Nat) : Minor keys s (s.endGrant g) := (Minor.setAuth s _).trans (.raiseOf _ _ (by decide))

theorem grants_endGrant (s : Hub) (g k : Nat) : (s.endGrant g).auth.grants.get k {} = if k = g then {} else s.auth.grants.get k {} :=
  Tab.get_set ..

/-! ### The grants that are over (R390) -/

/-- One record of the expiry. -/
def Hub.expireGrant (s : Hub) (g : Nat) : Hub := if s.grantOver (s.auth.grants.get g {}) then s.endGrant g else s

theorem grantExpiry_untraced {s : Hub} (u : s.untraced) : s.grantExpiry = doEach [0, 1, 2, 3] s Hub.expireGrant := by
  refine traceGrants_untraced (doEach_keeps Hub.untraced _ (fun t g w => ?_) _ _ u) s
  split
  · exact w
  · exact w

theorem Minor.expireGrant (s : Hub) (g : Nat) : Minor keys s (s.expireGrant g) := by
  unfold Hub.expireGrant
  split
  · exact .endGrant s g
  · exact .refl s

theorem grantOver_expireGrant (s : Hub) (g : Nat) (x : Grant) : (s.expireGrant g).grantOver x = s.grantOver x := by
  unfold Hub.expireGrant
  split <;> rfl

theorem grants_expireGrant_ne (s : Hub) {g k : Nat} (n : k ≠ g) : (s.expireGrant g).auth.grants.get k {} = s.auth.grants.get k {} := by
  unfold Hub.expireGrant
  split
  · rw [grants_endGrant, if_neg n]
  · rfl

/-- The record is free, and its end has been raised. -/
def Hub.grantEnded (s : Hub) (g : Nat) : Prop :=
  (s.auth.grants.get g {}).valid = false ∧ ∃ o ∈ s.occs, o.code = Ev.GRANT_END ∧ o.unit.getD 0 = g

theorem grantEnded_endGrant (s : Hub) (g : Nat) : (s.endGrant g).grantEnded g := by
  refine ⟨?_, _, List.mem_append_right _ (List.mem_singleton_self _), rfl, rfl⟩
  rw [grants_endGrant, if_pos rfl]

theorem grantEnded_expireGrant {s : Hub} {g : Nat} (e : s.grantEnded g) (k : Nat) : (s.expireGrant k).grantEnded g := by
  obtain ⟨free, o, m, eq⟩ := e
  unfold Hub.expireGrant
  split
  · refine ⟨?_, o, List.mem_append_left _ m, eq⟩
    rw [grants_endGrant]
    split
    · rfl
    · exact free
  · exact ⟨free, o, m, eq⟩

theorem doEach_expireGrant_ends {l : List Nat} {s : Hub} {g : Nat} (m : g ∈ l) (due : s.grantOver (s.auth.grants.get g {}) = true) :
    (doEach l s Hub.expireGrant).grantEnded g := by
  refine doEach_reaches (p := fun t : Hub => t.grantOver (t.auth.grants.get g {}) = true) (q := fun t => t.grantEnded g) (fun t k n w => ?_) (fun t w => ?_)
    (fun t k e => grantEnded_expireGrant e k) m due
  · rw [grantOver_expireGrant, grants_expireGrant_ne t n.symm]
    exact w
  · rw [Hub.expireGrant, if_pos w]
    exact grantEnded_endGrant t g

theorem doEach_expireGrant_keeps (l : List Nat) {s : Hub} {k : Nat} (stays : s.grantOver (s.auth.grants.get k {}) = false) :
    (doEach l s Hub.expireGrant).auth.grants.get k {} = s.auth.grants.get k {} := by
  refine (doEach_keeps (fun t : Hub => t.grantOver (t.auth.grants.get k {}) = false ∧ t.auth.grants.get k {} = s.auth.grants.get k {}) _
    (fun t g ⟨w, same⟩ => ?_) l s ⟨stays, rfl⟩).2
  have kept : (t.expireGrant g).auth.grants.get k {} = t.auth.grants.get k {} := by
    by_cases n : k = g
    · subst n
      rw [Hub.expireGrant, if_neg (by rw [w]; decide)]
    · exact grants_expireGrant_ne t n
  rw [grantOver_expireGrant, kept]
  exact ⟨w, same⟩

/-- Settles O20: each command and each expiry changes the grants, the free values and the registers of AUTH alone, and nothing follows. -/
theorem grants_begin_with_verify_and_end_with_revoke_or_expiry : Obligations.grants_begin_with_verify_and_end_with_revoke_or_expiry := by
  refine ⟨answers_authChallenge, fun s r g calm w ok free => ?good, fun s r keyOk sigOk calm w ok bad => ?failed,
    fun s r g calm w ok sel => ?revoke, fun s g calm low due => ?expiry, fun s calm gone => ?nonce, fun s calm locked lapsed => ?lockout⟩
  case good =>
    have k := ((Minor.setAuth (keys := [R.AUTH_FAILS, R.AUTH_CMD_STATUS]) s.hub
      { s.hub.auth with nonceAt := none, grants := s.hub.auth.grants.set g s.hub.grantAsked }).trans (.wr _ (f := F.AUTH_FAILS_COUNT) 0 (by decide))).trans
      ((Minor.raiseOf _ (c := Ev.GRANT_BEGIN) g (by decide)).trans (.authStatus _ St.OK (by decide)))
    refine answers_minorCmd (f := fun h => h.authCmd 2 (true && true)) rfl w (authVerify_taken ok free (calm_untraced calm)) k (by decide)
      calm fun t took x => ?_
    have auth := x.field Hub.auth (fun _ => rfl) fun _ => rfl
    refine ⟨took, ?_, ?_, ?_, ?_, ?_, ?_, x.keeps⟩
    · rw [auth]
      exact Tab.get_set_same ..
    · rw [auth]
      rfl
    · rw [x.rd _ (by decide), Hub.rd_fails_authStatus]
      exact Hub.rd_wr _ _ _ (by decide)
    · rw [x.rd _ (by decide), Hub.rd_authStatus]
      rfl
    · have shown : t.shows Ev.GRANT_BEGIN g = true :=
        x.shows_raised ⟨_, List.mem_append_right _ (List.mem_singleton_self _), rfl, rfl⟩ (eventBit_auth (.inl rfl) g)
      exact shown
    · rw [x.rest, k.only, auth]
      rfl
  case failed =>
    have k := ((Minor.setAuth (keys := [R.AUTH_FAILS, R.AUTH_CMD_STATUS]) s.hub { s.hub.auth with nonceAt := none }).trans
      (.failCounted _ (by decide))).trans ((Minor.raise _ (c := Ev.AUTH_FAIL) none (by decide)).trans (.authStatus _ St.DENIED (by decide)))
    refine answers_minorCmd (f := fun h => h.authCmd 2 (keyOk && sigOk)) rfl w (by rw [bad]; exact authVerify_failed ok) k (by decide)
      calm fun t took x => ?_
    have auth := x.field Hub.auth (fun _ => rfl) fun _ => rfl
    obtain ⟨grants, nonceAt⟩ := Hub.auth_failCounted (s.hub.setAuth { s.hub.auth with nonceAt := none })
    refine ⟨took, ?_, ?_, ?_, ?_, ?_, ?_, x.keeps⟩
    · rw [auth]
      exact grants
    · rw [auth]
      exact nonceAt
    · rw [x.rd _ (by decide), Hub.rd_fails_authStatus]
      exact Hub.rd_failCounted _
    · rw [x.rd _ (by decide), Hub.rd_authStatus]
      rfl
    · exact x.shows_raised ⟨_, List.mem_append_right _ (List.mem_singleton_self _), rfl, rfl⟩ (eventBit_auth (.inr (.inr rfl)) 0)
    · rw [x.rest, k.only, auth]
      unfold Hub.failCounted
      split <;> rfl
  case revoke =>
    have k := (Minor.endGrant (keys := [R.AUTH_CMD_STATUS]) s.hub g).trans (.authStatus _ St.OK (by decide))
    refine answers_minorCmd (f := fun h => h.authCmd 3 true) rfl w (authRevoke_taken ok sel (calm_untraced calm)) k (by decide)
      calm fun t took x => ?_
    have auth := x.field Hub.auth (fun _ => rfl) fun _ => rfl
    refine ⟨took, ?_, ?_, ?_, ?_, x.keeps, fun k n => ?_⟩
    · rw [auth]
      exact (grantEnded_endGrant s.hub g).1
    · rw [x.rd _ (by decide), Hub.rd_authStatus]
      rfl
    · exact x.shows_raised (grantEnded_endGrant s.hub g).2 (eventBit_auth (.inr (.inl rfl)) g)
    · rw [x.rest, k.only, auth, x.tiles]
      rfl
    · rw [auth]
      exact (grants_endGrant s.hub g k).trans (if_neg n)
  case expiry =>
    have k : Minor [] s.hub (doEach [0, 1, 2, 3] s.hub Hub.expireGrant) :=
      doEach_keeps (Minor [] s.hub) _ (fun t g w => w.trans (.expireGrant t g)) _ _ (.refl s.hub)
    have rest := doEach_same (fun h : Hub => (h.freeCount, h.hi, h.stage)) Hub.expireGrant
      (fun t g => by unfold Hub.expireGrant; split <;> rfl) [0, 1, 2, 3] s.hub
    simp only [Prod.mk.injEq] at rest
    obtain ⟨free, hi, stage⟩ := rest
    have ended := doEach_expireGrant_ends (l := [0, 1, 2, 3]) (by simp only [List.mem_cons]; omega) due
    refine answers_minor (f := Hub.grantExpiry) rfl (grantExpiry_untraced (calm_untraced calm)) k (fun _ _ m => nomatch m) calm fun t _ x => ?_
    have auth := x.field Hub.auth (fun _ => rfl) fun _ => rfl
    refine ⟨?_, x.shows_raised ended.2 (eventBit_auth (.inr (.inl rfl)) g), ?_, x.keeps, fun j stays => ?_⟩
    · rw [auth]
      exact ended.1
    · rw [x.rest, k.only, auth, x.tiles, free, hi, stage]
    · rw [auth]
      exact doEach_expireGrant_keeps _ stays
  case nonce =>
    have k := Minor.setAuth (keys := []) s.hub { s.hub.auth with nonceAt := none }
    refine answers_minor (f := Hub.nonceExpiry) rfl (by rw [Hub.nonceExpiry, gone]; rfl) k (fun _ _ m => nomatch m) calm fun t _ x => ?_
    refine ⟨congrArg Auth.nonceAt (x.field Hub.auth (fun _ => rfl) fun _ => rfl), ?_, x.keeps⟩
    rw [x.rest, k.only]
    rfl
  case lockout =>
    have k := (Minor.setAuth (keys := [R.AUTH_FAILS]) s.hub { s.hub.auth with lockedAt := none }).trans (.setReg _ (a := R.AUTH_FAILS) 0 (by decide))
    refine answers_minor (f := Hub.lockoutExpiry) rfl (by rw [Hub.lockoutExpiry, locked, lapsed]; rfl) k (by decide) calm fun t _ x => ?_
    refine ⟨congrArg Auth.lockedAt (x.field Hub.auth (fun _ => rfl) fun _ => rfl), ?_, ?_, ?_, x.keeps⟩
    · rw [x.rd _ (by decide)]
      exact Hub.rd_setReg _ F.AUTH_FAILS_COUNT 0 (by decide)
    · rw [x.rd _ (by decide)]
      exact Hub.rd_setReg _ F.AUTH_FAILS_LOCKED 0 (by decide)
    · rw [x.rest, k.only]
      rfl

end Sys2Proof.Machine
end


section
/-! SUPPORT. Accesses through the spur window (R475 to R477). -/

namespace Sys2Proof.Machine

set_option Elab.async false

variable {keys : List Nat}

/-! ### Addresses with bits [1:0] set -/

theorem offOf_normAddr (a : Nat) : offOf (normAddr a) = offOf a := by
  simp only [normAddr, offOf]
  omega

theorem pageOf_normAddr (a : Nat) : pageOf (normAddr a) = pageOf a := by
  simp only [normAddr, pageOf]
  omega

theorem baseAddr_normAddr (a : Nat) : baseAddr (normAddr a) = baseAddr a := by
  simp only [baseAddr, pageOf_normAddr, offOf_normAddr]

theorem isLo_normAddr (a : Nat) : isLo (normAddr a) = isLo a := by simp only [isLo, baseAddr_normAddr]

theorem isHi_normAddr (a : Nat) : isHi (normAddr a) = isHi a := by simp only [isHi, baseAddr_normAddr, offOf_normAddr]

theorem spurSram_normAddr (a : Nat) (w : Bool) : spurSram (normAddr a) w = spurSram a w := by rw [spurSram, normAddr_normAddr, spurSram]

theorem spurDig_normAddr (a : Nat) : spurDig (normAddr a) = spurDig a := by
  unfold spurDig
  rw [normAddr_normAddr]

theorem spurStatus_normAddr (s : Hub) (r : Req) (t a : Nat) (w : Bool) : s.spurStatus r t (normAddr a) w = s.spurStatus r t a w := by
  rw [Hub.spurStatus, spurSram_normAddr, spurDig_normAddr, Hub.spurStatus]

theorem inWindow_normAddr (a : Nat) : inWindow (normAddr a) = inWindow a := by rw [inWindow, pageOf_normAddr, offOf_normAddr, inWindow]

/-! ### An access that the spur takes (R475) -/

/-- A read of a window offset that the bus takes. -/
theorem regRead_window {s : Hub} {r : Req} {a t : Nat} (tile : s.rd F.SPURW_TILE_TILE = t) (taken : s.accessStatus r a false 0 = St.OK)
    (defined : (regDef (normAddr a)).isSome = true) (window : inWindow a = true) (ok : s.spurStatus r t a false = St.OK)
    (i : ((s.spurwStatus St.OK).spurReadOk r t (normAddr a)).2.rel.inject = none) : s.regRead r a =
      ((s.spurwStatus St.OK).spurReadOk r t (normAddr a)).2.respond r ((s.spurwStatus St.OK).spurReadOk r t (normAddr a)).1 St.OK := by
  have read : s.readReg r a = (s.spurwStatus St.OK).spurReadOk r t (normAddr a) := by
    simp only [Hub.readReg, inWindow_normAddr, window, if_true, Hub.spurAccess, tile, Option.isSome_none, spurStatus_normAddr, ok,
      bne_self_eq_false, Bool.false_eq_true, if_false]
  have some : (regDef (normAddr a)).isNone = false := by rw [← Option.not_isSome, defined]; rfl
  simp only [Hub.regRead, taken, bne_self_eq_false, Bool.false_eq_true, if_false, some, read]
  exact usePage_unplanted (by exact i) a

/-- A write of a window offset that the bus takes. -/
theorem regWrite_window {s : Hub} {r : Req} {a t v : Nat} (tile : s.rd F.SPURW_TILE_TILE = t) (taken : s.takesWrite r a v = true)
    (defined : (regDef (normAddr a)).isSome = true) (window : inWindow a = true) (ok : s.spurStatus r t a true = St.OK) (low : v < 2 ^ 32)
    (i : ((s.spurwStatus St.OK).spurWriteOk r t (normAddr a) v).rel.inject = none) :
    s.regWrite r a v = ((s.spurwStatus St.OK).spurWriteOk r t (normAddr a) v).respond r 0 St.OK := by
  have some : (regDef (normAddr a)).isNone = false := by rw [← Option.not_isSome, defined]; rfl
  have block : ¬ offOf (normAddr a) < 0x40 := by
    have w : inWindow (normAddr a) = true := (inWindow_normAddr a).trans window
    simp only [inWindow, Bool.and_eq_true, decide_eq_true_eq] at w
    omega
  have written : s.writeReg r a v = (s.spurwStatus St.OK).spurWriteOk r t (normAddr a) v := by
    simp only [Hub.writeReg, block, inWindow_normAddr, window, if_true, if_false, Hub.spurAccess, tile, Option.isSome_some,
      spurStatus_normAddr, ok, bne_self_eq_false, Bool.false_eq_true, Nat.mod_eq_of_lt low]
  have taken : s.takesWrite r a (v % 2 ^ 32) = true := by rw [Nat.mod_eq_of_lt low]; exact taken
  rw [Hub.regWrite, some, if_neg Bool.false_ne_true, cmd_taken taken (by rw [written]; exact i), written]

theorem spurValue_normAddr (s : Hub) (t a : Nat) : s.spurValue t (normAddr a) = s.spurValue t a := by
  unfold Hub.spurValue
  rw [normAddr_normAddr]

/-- A read of a register of 32 bits gives its value and changes nothing. -/
theorem spurReadOk_word {s : Hub} {r : Req} {t a : Nat} (hi : isHi a = false) (lo : isLo a = false) :
    s.spurReadOk r t (normAddr a) = (s.spurValue t a % 2 ^ 32, s) := by
  have notHi : (normAddr a == R.SPUR_SRAM_HI) = false := by
    rw [beq_eq_false_iff_ne]
    intro e
    rw [← isHi_normAddr, e] at hi
    exact absurd hi (by decide)
  have notLo : (normAddr a == R.SPUR_SRAM_LO) = false := by
    rw [beq_eq_false_iff_ne]
    intro e
    rw [← isLo_normAddr, e] at lo
    exact absurd lo (by decide)
  simp only [Hub.spurReadOk, normAddr_normAddr, isHi_normAddr, hi, notHi, Bool.or_self, Bool.false_eq_true, if_false, isLo_normAddr, lo,
    notLo, spurValue_normAddr]

/-- A read of SPUR_SRAM_LO latches the high word and moves the address on (R476). -/
theorem spurReadOk_sram (s : Hub) (r : Req) (t : Nat) : s.spurReadOk r t R.SPUR_SRAM_LO =
    (s.spurValue t R.SPUR_SRAM_LO % 2 ^ 32, (s.latchHi r R.SPUR_SRAM_LO (s.spurValue t R.SPUR_SRAM_LO)).setTile t (s.tile t).sramNext) := by
  have norm : normAddr R.SPUR_SRAM_LO = R.SPUR_SRAM_LO := by decide
  have hi : (isHi R.SPUR_SRAM_LO || R.SPUR_SRAM_LO == R.SPUR_SRAM_HI) = false := by decide
  have lo : isLo R.SPUR_SRAM_LO = true := by decide
  simp only [Hub.spurReadOk, norm, hi, lo, Bool.false_eq_true, if_false, if_true, beq_self_eq_true]
  rfl

theorem spurWriteOk_sramLo (s : Hub) (r : Req) (t v : Nat) :
    s.spurWriteOk r t R.SPUR_SRAM_LO v = { s with stage := s.stage.set (reqCode r) (BitVec.ofNat 32 v) } := rfl

theorem spurWriteOk_sramHi (s : Hub) (r : Req) (t v : Nat) : s.spurWriteOk r t R.SPUR_SRAM_HI v =
    (s.putSram t ((s.tile t).sramAddr % 0x10000) (le 4 (s.stage.get (reqCode r) 0).toNat ++ le 4 v)).setTile t (s.tile t).sramNext := rfl

theorem spurValue_sramLo (s : Hub) (t : Nat) : s.spurValue t R.SPUR_SRAM_LO = fromLe (s.sram t ((s.tile t).sramAddr % 0x10000) 8) := rfl

theorem Minor.err (s : Hub) {e : ErrBit} (k : (F.PG_ERROR_ERRORS.lane e.page).addr ∈ keys)
    (k' : (F.PG_ERROR_INFO_BIT.lane e.page).addr ∈ keys) : Minor keys s (s.err e) := (Minor.wr s _ k).trans (.wr _ _ k')

theorem Minor.latchHi (s : Hub) (r : Req) (lo v : Nat) : Minor keys s (s.latchHi r lo v) := .of_core rfl rfl rfl

theorem Minor.setTile (s : Hub) (t : Nat) (x : Tile) : Minor keys s (s.setTile t x) := .of_core rfl rfl rfl

/-- Another error of the page keeps those recorded. -/
theorem Hub.hasErr_err_of {s : Hub} {e e' : ErrBit} (h : s.hasErr e = true) (page : e.page = e'.page) (b : e.bit < 32) :
    (s.err e').hasErr e = true := by
  rw [Hub.hasErr, Hub.err, page, Hub.rd_wr_apart _ _ _ _ (le_refl 32) (info_apart_errors _ _ rfl), Hub.rd_wr _ _ _ (le_refl 32)]
  rw [Hub.hasErr, page, bitAt_eq_testBit] at h
  exact (bitAt_word _ _).trans (by simp [b, bitAt_eq_testBit, h])

theorem inWindow_spur (off : BitVec 8) : inWindow (R.SPUR_ID + off.toNat) = true := by
  have low := off.isLt
  have beyond : 0x100 ≤ offOf (R.SPUR_ID + off.toNat) := by
    simp only [offOf, R.SPUR_ID]
    omega
  have page : pageOf (R.SPUR_ID + off.toNat) = Pg.SPURW := by
    simp only [pageOf, R.SPUR_ID, Pg.SPURW]
    omega
  rw [inWindow, page, decide_eq_true beyond]
  rfl

theorem Hub.rd_spurwStatus (s : Hub) (st : Nat) : (s.spurwStatus st).rd F.SPURW_STATUS_STATUS = st % 2 ^ 8 := Hub.rd_wr _ _ _ (by decide)

/-- The registers of the spur window's status and of its errors. -/
def spurwKeys : List Nat := [R.SPURW_STATUS, R.PG_ERROR + Pg.SPURW * 0x1000, R.PG_ERROR_INFO + Pg.SPURW * 0x1000]

/-- The errors of a window that timed out (R475). -/
def Hub.windowFailed (s : Hub) (crc : Bool) : Hub :=
  if crc then ((s.spurwStatus St.TIMEOUT).err Er.SPURW_WINDOW_TIMEOUT).err Er.SPURW_WINDOW_CRC
  else (s.spurwStatus St.TIMEOUT).err Er.SPURW_WINDOW_TIMEOUT

theorem Minor.windowFailed (s : Hub) (crc : Bool) : Minor spurwKeys s (s.windowFailed crc) := by
  have timeout : Minor spurwKeys s ((s.spurwStatus St.TIMEOUT).err Er.SPURW_WINDOW_TIMEOUT) :=
    (Minor.wr s _ (by decide)).trans (.err _ (by decide) (by decide))
  cases crc with
  | false => exact timeout
  | true => exact timeout.trans (.err _ (by decide) (by decide))

theorem windowFailed_status (s : Hub) (crc : Bool) : (s.windowFailed crc).rd F.SPURW_STATUS_STATUS = St.TIMEOUT := by
  have timeout : ((s.spurwStatus St.TIMEOUT).err Er.SPURW_WINDOW_TIMEOUT).rd F.SPURW_STATUS_STATUS = St.TIMEOUT := by
    rw [Hub.err, Hub.rd_wr_apart _ _ _ _ (by decide) (by decide), Hub.rd_wr_apart _ _ _ _ (by decide) (by decide), Hub.rd_spurwStatus]
    rfl
  cases crc with
  | false => exact timeout
  | true => exact (Hub.rd_wr_apart _ _ _ _ (by decide) (by decide)).trans ((Hub.rd_wr_apart _ _ _ _ (by decide) (by decide)).trans timeout)

theorem windowFailed_timeout (s : Hub) (crc : Bool) : (s.windowFailed crc).hasErr Er.SPURW_WINDOW_TIMEOUT = true := by
  have timeout := Hub.hasErr_err (s.spurwStatus St.TIMEOUT) Er.SPURW_WINDOW_TIMEOUT (by decide)
  cases crc with
  | false => exact timeout
  | true => exact Hub.hasErr_err_of timeout rfl (by decide)

/-- An event and an answer leave every field. -/
theorem rd_raised_answered (s : Hub) (code u : Nat) (r : Req) (v st : Nat) (f : Fld) :
    ((s.raiseOf code u).respond r v st).rd f = s.rd f := rfl

theorem hasErr_raised_answered (s : Hub) (code u : Nat) (r : Req) (v st : Nat) (e : ErrBit) :
    ((s.raiseOf code u).respond r v st).hasErr e = s.hasErr e := rfl

theorem answers_spurWindowTimeout (s : State) (r : Req) (crc : Bool) (t : Nat) (calm : s.hub.calm = true)
    (tile : s.hub.rd F.SPURW_TILE_TILE = t) : Answers (.spurWindowTimeout r crc) s fun h =>
      h.tookWrite r ∧ h.rd F.SPURW_STATUS_STATUS = St.TIMEOUT ∧ h.hasErr Er.SPURW_WINDOW_TIMEOUT = true ∧
      (crc = true → h.hasErr Er.SPURW_WINDOW_CRC = true) ∧ h.shows Ev.TRELLIS_SILENT t = true ∧ s.hub.rest h = s.hub ∧
      s.hub.keeps h [R.SPURW_STATUS, R.PG_ERROR + Pg.SPURW * 0x1000, R.PG_ERROR_INFO + Pg.SPURW * 0x1000] := by
  have k := ((Minor.windowFailed s.hub crc).trans (.raiseOf _ (c := Ev.TRELLIS_SILENT) t (by decide))).trans (.respond _ r 0 St.OK)
  have eq : s.hub.windowTimeout r crc = ((s.hub.windowFailed crc).raiseOf Ev.TRELLIS_SILENT t).respond r 0 St.OK := by
    rw [Hub.windowTimeout, tile]
    rfl
  refine answers_minor (f := fun h => h.windowTimeout r crc) rfl eq k (by decide) calm fun h bus x => ⟨?_, ?_, ?_, fun e => ?_, ?_, ?_, x.keeps⟩
  · rw [Hub.tookWrite, bus]
    exact respond_took _ _
  · rw [x.rd _ (by decide), rd_raised_answered, windowFailed_status]
  · rw [x.hasErr, hasErr_raised_answered, windowFailed_timeout]
  · rw [x.hasErr, hasErr_raised_answered, e]
    exact Hub.hasErr_err _ _ (by decide)
  · refine x.shows_raised ⟨_, List.mem_append_right _ (List.mem_singleton_self _), rfl, rfl⟩ fun p i e => ?_
    cases e
    decide
  · rw [x.rest, k.only]
    cases crc <;> rfl

/-! ### SRAM through the window (R476) -/

theorem window_sram : inWindow R.SPUR_SRAM_LO = true ∧ inWindow R.SPUR_SRAM_HI = true := by decide

theorem norm_sram : normAddr R.SPUR_SRAM_LO = R.SPUR_SRAM_LO ∧ normAddr R.SPUR_SRAM_HI = R.SPUR_SRAM_HI := by decide

/-- The hub after a read of SPUR_SRAM_LO: its high word is latched and the address moves on. -/
def Hub.sramLatched (s : Hub) (r : Req) (t : Nat) : Hub :=
  ((s.spurwStatus St.OK).latchHi r R.SPUR_SRAM_LO (s.spurValue t R.SPUR_SRAM_LO)).setTile t (s.tile t).sramNext

theorem Minor.sramLatched (s : Hub) (r : Req) (t : Nat) : Minor [R.SPURW_STATUS] s (s.sramLatched r t) :=
  (Minor.wr s _ (by decide)).trans ((Minor.latchHi _ _ _ _).trans (.setTile _ _ _))

/-- The hub after a write of SPUR_SRAM_LO: its word is staged for the requester. -/
def Hub.sramStaged (s : Hub) (r : Req) (v : Word) : Hub :=
  { s.spurwStatus St.OK with stage := s.stage.set (reqCode r) v }

theorem Minor.sramStaged (s : Hub) (r : Req) (v : Word) : Minor [R.SPURW_STATUS] s (s.sramStaged r v) :=
  (Minor.wr s (f := F.SPURW_STATUS_STATUS) St.OK (by decide)).trans (.of_core rfl rfl rfl)

/-- The eight bytes that a write of SPUR_SRAM_HI completes. -/
def Hub.sramBytes (s : Hub) (r : Req) (v : Word) : List Byte := le 4 (s.stage.get (reqCode r) 0).toNat ++ le 4 v.toNat

/-- The hub after a write of SPUR_SRAM_HI: eight bytes go to the tile, and the address moves on. -/
def Hub.sramPut (s : Hub) (r : Req) (t : Nat) (v : Word) : Hub :=
  ((s.spurwStatus St.OK).putSram t ((s.tile t).sramAddr % 0x10000) (s.sramBytes r v)).setTile t (s.tile t).sramNext

theorem Traced.sramPut (s : Hub) (r : Req) (t : Nat) (v : Word) : Traced (ofKeys [R.SPURW_STATUS]) s (s.sramPut r t v) :=
  (Traced.wr s (f := F.SPURW_STATUS_STATUS) St.OK (by decide)).trans ((Traced.of_core rfl).trans (.setTile _ _ _))

section
variable {s : State} {r : Req} {t : Nat} (calm : s.hub.calm = true) (tile : s.hub.rd F.SPURW_TILE_TILE = t)
include calm tile

theorem regRead_sramLo (taken : s.hub.accessStatus r R.SPUR_SRAM_LO false 0 = St.OK) (ok : s.hub.spurStatus r t R.SPUR_SRAM_LO false = St.OK) :
    s.hub.regRead r R.SPUR_SRAM_LO = (s.hub.sramLatched r t).respond r (s.hub.spurValue t R.SPUR_SRAM_LO % 2 ^ 32) St.OK := by
  have unplanted : ((s.hub.spurwStatus St.OK).spurReadOk r t R.SPUR_SRAM_LO).2.rel.inject = none := by
    rw [spurReadOk_sram]
    exact (calm_unplanted calm :)
  rw [regRead_window tile taken (by decide) window_sram.1 ok (by rw [norm_sram.1]; exact unplanted), norm_sram.1, spurReadOk_sram]
  rfl

theorem regWrite_sramLo {v : Word} (taken : s.hub.takesWrite r R.SPUR_SRAM_LO v.toNat = true)
    (ok : s.hub.spurStatus r t R.SPUR_SRAM_LO true = St.OK) :
    s.hub.regWrite r R.SPUR_SRAM_LO v.toNat = (s.hub.sramStaged r v).respond r 0 St.OK := by
  rw [regWrite_window tile taken (by decide) window_sram.1 ok v.isLt (by rw [norm_sram.1, spurWriteOk_sramLo]; exact (calm_unplanted calm :)),
    norm_sram.1, spurWriteOk_sramLo, BitVec.ofNat_toNat, BitVec.setWidth_eq]
  rfl

theorem regWrite_sramHi {v : Word} (taken : s.hub.takesWrite r R.SPUR_SRAM_HI v.toNat = true)
    (ok : s.hub.spurStatus r t R.SPUR_SRAM_HI true = St.OK) :
    s.hub.regWrite r R.SPUR_SRAM_HI v.toNat = (s.hub.sramPut r t v).respond r 0 St.OK := by
  rw [regWrite_window tile taken (by decide) window_sram.2 ok v.isLt (by rw [norm_sram.2, spurWriteOk_sramHi]; exact (calm_unplanted calm :)),
    norm_sram.2, spurWriteOk_sramHi]
  rfl

end

/-- The eight bytes of an SRAM access are a number of 64 bits, whose high word is latched whole. -/
theorem sramLatched_hi (s : Hub) (r : Req) (t : Nat) : ((s.sramLatched r t).hi.get (hiKey r R.SPUR_SRAM_HI) 0).toNat =
    fromLe (s.sram t ((s.tile t).sramAddr % 0x10000) 8) / 2 ^ 32 := by
  have high : (s.sramLatched r t).hi.get (hiKey r R.SPUR_SRAM_HI) 0 = BitVec.ofNat 32 (s.spurValue t R.SPUR_SRAM_LO / 2 ^ 32) :=
    Tab.get_set_same ..
  have bound := fromLe_lt (s.sram t ((s.tile t).sramAddr % 0x10000) 8)
  have eight : (s.sram t ((s.tile t).sramAddr % 0x10000) 8).length = 8 := by simp [Hub.sram, Hub.peeks]
  rw [eight] at bound
  rw [high, spurValue_sramLo, BitVec.toNat_ofNat, Nat.mod_eq_of_lt]
  omega

/-- Settles O13: each access changes SPURW_STATUS and what its offset names, and nothing follows it. -/
theorem the_spur_window_reaches_the_selected_spur : Obligations.the_spur_window_reaches_the_selected_spur := by
  refine ⟨fun s r off t calm tile taken defined hi lo _ ok => ?read, answers_spurWindowTimeout, fun s r t calm tile taken ok => ?sramRead,
    fun s r v t calm tile taken ok => ?sramLo, fun s r v t p calm tile taken ok at_ => ?sramHi⟩
  case read =>
    have word := spurReadOk_word (s := s.hub.spurwStatus St.OK) (r := r) (t := t) hi lo
    have k := (Minor.wr (keys := [R.SPURW_STATUS]) s.hub (f := F.SPURW_STATUS_STATUS) St.OK (by decide)).trans
      (.respond _ r (s.hub.spurValue t (R.SPUR_ID + off.toNat) % 2 ^ 32) St.OK)
    refine answers_minor (f := fun h => h.regRead r (R.SPUR_ID + off.toNat)) rfl ?_ k (by decide) calm fun h bus x => ⟨?_, ?_, ?_, x.keeps⟩
    · rw [regRead_window tile taken defined (inWindow_spur off) ok (by rw [word]; exact (calm_unplanted calm :)), word]
      rfl
    · rw [bus, Hub.bus_respond]
    · rw [x.rd _ (by decide)]
      exact Hub.rd_spurwStatus _ _
    · rw [x.rest, k.only]
      rfl
  case sramRead =>
    have k := (Minor.sramLatched s.hub r t).trans (.respond _ r (s.hub.spurValue t R.SPUR_SRAM_LO % 2 ^ 32) St.OK)
    refine answers_minor (f := fun h => h.regRead r R.SPUR_SRAM_LO) rfl (regRead_sramLo calm tile taken ok) k (by decide) calm
      fun h bus x => ?_
    have hi := x.field Hub.hi (fun _ => rfl) fun _ => rfl
    refine ⟨?_, ?_, ?_, ?_, x.keeps⟩
    · rw [bus, Hub.bus_respond]
      rfl
    · rw [hi]
      exact sramLatched_hi s.hub r t
    · rw [x.tile]
      exact Tab.get_set_same ..
    · rw [x.rest, k.only, x.tiles, hi]
      rfl
  case sramLo =>
    have k := (Minor.sramStaged s.hub r v).trans (.respond _ r 0 St.OK)
    refine answers_minor (f := fun h => h.regWrite r R.SPUR_SRAM_LO v.toNat) rfl (regWrite_sramLo calm tile taken ok) k (by decide) calm
      fun h bus x => ?_
    have stage := x.field Hub.stage (fun _ => rfl) fun _ => rfl
    refine ⟨?_, ?_, ?_, ?_, x.keeps⟩
    · rw [Hub.tookWrite, bus]
      exact respond_took _ _
    · rw [stage]
      exact Tab.get_set_same ..
    · rw [x.rd _ (by decide)]
      exact Hub.rd_spurwStatus _ _
    · rw [x.rest, k.only, stage]
      rfl
  case sramHi =>
    have k := (Traced.sramPut s.hub r t v).trans (.respond _ r 0 St.OK)
    refine answers_traced (f := fun h => h.regWrite r R.SPUR_SRAM_HI v.toNat) rfl (regWrite_sramHi calm tile taken ok) k (by decide) calm
      fun h bus x => ?_
    have writes : ((s.hub.sramPut r t v).respond r 0 St.OK).writes = [⟨.sram, p, s.hub.sramBytes r v⟩] := by
      rw [← at_]
      show s.hub.writes ++ [_] = _
      rw [(calm_nothing_left calm).2]
      rfl
    have store := x.store
    rw [writes] at store
    have sram : h.store.sram = memWriteAll s.hub.store.sram p (s.hub.sramBytes r v) := by
      rw [store]
      rfl
    have eight : (s.hub.sramBytes r v).length = 8 := by simp only [Hub.sramBytes, List.length_append, length_le]
    refine ⟨?_, ?_, fun i low => ?_, fun a out => ?_, ?_, ?_, x.keeps_keys⟩
    · rw [Hub.tookWrite, bus]
      exact respond_took _ _
    · rw [x.tile]
      exact Tab.get_set_same ..
    · rw [sram]
      exact memRead_memWriteAll _ _ _ (by omega)
    · rw [sram]
      exact memRead_memWriteAll_ne _ _ _ (by omega)
    · rw [x.rest, x.tiles, x.store]
      rfl
    · rw [sram, store]
      rfl

end Sys2Proof.Machine
end


section
/-! SUPPORT. Start-up from step 4 to step 7: what the flood of the image, the cellar's start-up and the end of step 6 change. -/

namespace Sys2Proof.Machine

set_option Elab.async false

/-! ### Changes of start-up -/

/-- `h` with what start-up may change taken from `s`. -/
def Hub.offBoot (s h : Hub) : Hub :=
  { s.restored h with
    boot := s.boot, fed := s.fed, cell := s.cell, taste := s.taste, freeCount := s.freeCount, writes := s.writes }

/-- `h` comes from `s` by changing those and the registers of the keys `touched`, and by raising events, RELEASED not among them; the profiles
of the tasters change only with `profiles`, and the record of start-up only where BOOT_STATUS may. -/
structure Booted (profiles : Bool) (touched : Nat → Bool) (s h : Hub) : Prop where
  core : s.offBoot h = s
  regs : ∀ a b, touched (regKey a b) = false → h.regB a b = s.regB a b
  quiet : ∀ o ∈ h.occs, o ∈ s.occs ∨ o.code ≠ Ev.RELEASED
  kept : ∀ o ∈ s.occs, o ∈ h.occs
  plain : profiles = false → h.taste = s.taste
  steps : touched R.BOOT_STATUS = false → h.boot = s.boot

variable {profiles : Bool} {touched : Nat → Bool}

theorem Booted.trans {s t u : Hub} (h1 : Booted profiles touched s t) (h2 : Booted profiles touched t u) : Booted profiles touched s u := by
  refine ⟨?_, fun a b n => (h2.regs a b n).trans (h1.regs a b n), fun o m => (h2.quiet o m).elim (h1.quiet o) .inr,
    fun o m => h2.kept o (h1.kept o m), fun n => (h2.plain n).trans (h1.plain n), fun n => (h2.steps n).trans (h1.steps n)⟩
  have e : s.offBoot u = s.offBoot (t.offBoot u) := rfl
  rw [e, h2.core, h1.core]

theorem Booted.mono {profiles' : Bool} {touched' : Nat → Bool} {s h : Hub} (k : Booted profiles touched s h)
    (p : profiles' = false → profiles = false) (n : ∀ a, touched' a = false → touched a = false) : Booted profiles' touched' s h :=
  ⟨k.core, fun a b m => k.regs a b (n _ m), k.quiet, k.kept, fun m => k.plain (p m), fun m => k.steps (n _ m)⟩

/-- A change that touches no register and raises nothing. -/
theorem Booted.of_core {s h : Hub} (core : s.offBoot h = s) (regs : h.regs = s.regs) (occs : h.occs = s.occs) (taste : h.taste = s.taste)
    (boot : h.boot = s.boot) : Booted profiles touched s h :=
  ⟨core, fun a b _ => by rw [Hub.regB, Hub.regB, regs], fun o m => .inl (occs ▸ m), fun o m => occs ▸ m, fun _ => taste, fun _ => boot⟩

theorem Booted.refl (s : Hub) : Booted profiles touched s s := .of_core rfl rfl rfl rfl rfl

/-- The hub with other state of start-up. -/
def Hub.setBoot (s : Hub) (b : Boot) : Hub := { s with boot := b }

theorem Booted.setBoot (s : Hub) (b : Boot) (k : touched R.BOOT_STATUS = true) : Booted profiles touched s (s.setBoot b) :=
  ⟨rfl, fun _ _ _ => rfl, fun _ m => .inl m, fun _ m => m, fun _ => rfl, fun n => absurd (n.symm.trans k) Bool.false_ne_true⟩

theorem Booted.put (s : Hub) (sp : Space) (a : Nat) (bs : List Byte) : Booted profiles touched s (s.put sp a bs) := .of_core rfl rfl rfl rfl rfl

theorem Booted.setReg (s : Hub) {a : Nat} (v : Nat) (k : touched a = true) : Booted profiles touched s (s.setReg a v) := by
  refine ⟨rfl, fun a' b' n => Hub.regB_setRegB_ne s v fun e => ?_, fun _ m => .inl m, fun _ m => m, fun _ => rfl, fun _ => rfl⟩
  rw [e, regKey_zero, k] at n
  cases n

theorem Booted.wr (s : Hub) {f : Fld} (v : Nat) (k : touched f.addr = true) : Booted profiles touched s (s.wr f v) := .setReg s _ k

theorem Booted.err (s : Hub) {e : ErrBit} (k : touched (F.PG_ERROR_ERRORS.lane e.page).addr = true)
    (k' : touched (F.PG_ERROR_INFO_BIT.lane e.page).addr = true) : Booted profiles touched s (s.err e) := (Booted.wr s _ k).trans (.wr _ _ k')

theorem Booted.raise (s : Hub) {c : Nat} (u : Option Nat) (n : c ≠ Ev.RELEASED) : Booted profiles touched s (s.raise c u) := by
  refine ⟨rfl, fun _ _ _ => rfl, fun o m => ?_, fun o m => List.mem_append_left _ m, fun _ => rfl, fun _ => rfl⟩
  rcases List.mem_append.mp m with m | m
  · exact .inl m
  · exact .inr (by rw [List.mem_singleton.mp m]; exact n)

theorem Booted.doEach {α : Type} {f : Hub → α → Hub} (hf : ∀ s a, Booted profiles touched s (f s a)) (l : List α) (s : Hub) :
    Booted profiles touched s (Machine.doEach l s f) :=
  doEach_keeps (Booted profiles touched s) f (fun _ a k => k.trans (hf _ a)) l s (.refl s)

section
variable {s h : Hub} (k : Booted profiles touched s h)
include k

theorem Booted.same {α : Type} (g : Hub → α) (n : ∀ u, g (s.offBoot u) = g u) : g h = g s := (n h).symm.trans (congrArg g k.core)

theorem Booted.rd (f : Fld) (n : touched f.addr = false) : h.rd f = s.rd f := by
  simp only [Hub.rd, Hub.rdB, k.regs f.addr 0 (by rwa [regKey_zero])]

theorem Booted.reg {a : Nat} (n : touched a = false) : h.reg a = s.reg a := k.regs a 0 (by rwa [regKey_zero])

theorem Booted.hasErr (e : ErrBit) (n : touched (F.PG_ERROR_ERRORS.lane e.page).addr = false) : h.hasErr e = s.hasErr e := by
  rw [Hub.hasErr, k.rd _ n, Hub.hasErr]

theorem Booted.untraced (n : ∀ a ∈ calmKeys, touched a = false) (u : s.untraced) : h.untraced := by
  unfold Hub.untraced Hub.flag at *
  rwa [k.rd F.TRACE_STATE_RUNNING (n _ (by simp [calmKeys])), k.rd F.TRACE_TRIG_CTRL_HUBEV_EN (n _ (by simp [calmKeys]))]

theorem Booted.still (n : ∀ a ∈ calmKeys, touched a = false) (c : s.still) : h.still := by
  obtain ⟨reports, policies, peers, reqs, soft, ladder, drain, columns, close⟩ := c
  rw [← k.same Hub.hangCtl fun _ => rfl] at reports peers
  rw [← k.same Hub.hang fun _ => rfl] at policies
  rw [← k.same Hub.link fun _ => rfl] at reqs
  rw [← k.same Hub.softReset fun _ => rfl] at soft
  rw [← k.same Hub.ladder fun _ => rfl] at ladder
  rw [← k.same Hub.harv fun _ => rfl] at drain columns
  rw [← k.same Hub.harvReady fun _ => rfl, ← k.rd F.HARV_STATUS_PHASE (n _ (by simp [calmKeys]))] at close
  exact ⟨reports, policies, peers, reqs, soft, ladder, drain, columns, close⟩

/-- What a command leaves, seen from the hub `s` before start-up changed it. -/
theorem Booted.rest_ran {t : Hub} (c : s.calm = true) (r : Ran false h s.store t) : s.rest t =
    { s with
      boot := h.boot, fed := h.fed, cell := h.cell, taste := h.taste, freeCount := h.freeCount, store := s.store.writeAll h.writes } := by
  obtain ⟨o, w⟩ := calm_nothing_left c
  have told (c : Nat) : (t.coop c).told = (s.coop c).told := by rw [r.told rfl c, Hub.coop, Hub.coop, k.same Hub.coops fun _ => rfl]
  calc s.rest t = { h.rest t with regs := s.regs, bus := s.bus, pins := s.pins, coops := s.coops } := by
        simp only [Hub.rest, told, and_self, if_true, k.same Hub.link fun _ => rfl]
    _ = { s.offBoot h with
          boot := h.boot, fed := h.fed, cell := h.cell, taste := h.taste, freeCount := h.freeCount, store := s.store.writeAll h.writes
          occs := [], writes := [] } := by
        rw [r.rest]
        simp only [Hub.offBoot, Hub.restored, k.same Hub.pins fun _ => rfl, k.same Hub.coops fun _ => rfl]
    _ = { s with
          boot := h.boot, fed := h.fed, cell := h.cell, taste := h.taste, freeCount := h.freeCount, store := s.store.writeAll h.writes
          occs := [], writes := [] } := by rw [k.core]
    _ = _ := by rw [← o, ← w]

end

/-- What the command of such a change leaves. -/
structure BootEffect (touched : Nat → Bool) (s h t : Hub) : Prop where
  rest : s.rest t =
    { s with
      boot := h.boot, fed := h.fed, cell := h.cell, taste := h.taste, freeCount := h.freeCount, store := s.store.writeAll h.writes }
  keeps : ∀ a b, eventKey (regKey a b) = false → touched (regKey a b) = false → t.regB a b = s.regB a b
  regs : ∀ a b, eventKey (regKey a b) = false → t.regB a b = h.regB a b
  shows : ∀ o ∈ h.occs, (∀ p i, eventBit o.code (o.unit.getD 0) = some (p, i) → i < 32) → t.shows o.code (o.unit.getD 0) = true

/-- A command that changes a calm hub `g` so, `g` having the memories of the hub before the command. -/
theorem answers_booted_from {i : Instr} {s : State} {p : Hub → Prop} {f : Hub → Hub} {g h : Hub} (x : exec i s = run f s) (e : f s.hub = h)
    (store : g.store = s.hub.store) (k : Booted profiles touched g h) (n : ∀ a ∈ calmKeys, touched a = false) (c : g.calm = true)
    (q : ∀ t, BootEffect touched g h t → p t) : Answers i s p := by
  subst e
  obtain ⟨t, e, r⟩ := run_spec (rel := false) f s (k.still n (calm_still c)) (k.untraced n (calm_untraced c))
    fun _ x m => (k.quiet x m).resolve_left (by simp [(calm_nothing_left c).1])
  rw [← store] at r
  have regs (a b : Nat) (q : eventKey (regKey a b) = false) := r.keeps a b q (by simp)
  exact ⟨_, x.trans e, rfl, q t ⟨k.rest_ran c r, fun a b q m => (regs a b q).trans (k.regs a b m), regs, r.shows⟩⟩

theorem answers_booted {i : Instr} {s : State} {p : Hub → Prop} {f : Hub → Hub} {h : Hub} (x : exec i s = run f s) (e : f s.hub = h)
    (k : Booted profiles touched s.hub h) (n : ∀ a ∈ calmKeys, touched a = false) (c : s.hub.calm = true)
    (q : ∀ t, BootEffect touched s.hub h t → p t) : Answers i s p := answers_booted_from x e rfl k n c q

/-! ### The cellar's start-up (R178) -/

/-- The registers that the cellar's start-up writes: those of its page, and the number of the next vintage. -/
def cellTouched (k : Nat) : Bool := k % 0x100000 / 0x1000 == Pg.CELL || k == R.HARV_NEXT_VINTAGE

/-- What the cellar's start-up may do. -/
abbrev CellStarted (s h : Hub) : Prop := Booted false cellTouched s h

theorem CellStarted.err (s : Hub) {e : ErrBit} (page : e.page = Pg.CELL) : CellStarted s (s.err e) := by
  refine Booted.err s ?_ ?_ <;>
  · rw [page]
    decide

theorem CellStarted.metaError (s : Hub) (a : Nat) (bs : List Byte) (n : Nat) : CellStarted s ((s.putMem a bs).raiseOf Ev.META_ERROR n) :=
  (Booted.put s _ _ _).trans (.raise _ _ (by decide))

theorem CellStarted.setCell (s : Hub) (c : Cellar) : CellStarted s { s with cell := c } := .of_core rfl rfl rfl rfl rfl

theorem CellStarted.keepEntry (s : Hub) (e : Nat) : CellStarted s (s.keepEntry e) := by
  rw [Hub.keepEntry]
  split
  · exact .refl s
  split
  · exact (CellStarted.err s rfl).trans (CellStarted.metaError _ _ _ _)
  split
  · exact .put _ _ _ _
  split
  · split
    · exact (CellStarted.err s rfl).trans (CellStarted.metaError _ _ _ _)
    · exact CellStarted.metaError _ _ _ _
  · exact CellStarted.setCell _ _

theorem CellStarted.keepCellar (s : Hub) (g : Geo) : CellStarted s (s.keepCellar g) := by
  unfold Hub.keepCellar
  dsimp only
  refine Booted.trans (Booted.trans (Booted.trans (Booted.trans (Booted.trans (Booted.trans ?_ (.doEach CellStarted.keepEntry _ _))
    (.doEach (fun _ _ => .put _ _ _ _) _ _)) (.setReg _ _ (by decide))) (.wr _ _ (by decide))) (.wr _ _ (by decide))) (.raise _ _ (by decide))
  exact .of_core rfl rfl rfl rfl rfl

theorem CellStarted.formatCellar (s : Hub) (g : Geo) : CellStarted s (s.formatCellar g) := by
  unfold Hub.formatCellar
  dsimp only
  refine Booted.trans (Booted.trans (Booted.trans (Booted.trans (Booted.trans (Booted.trans (Booted.trans ?_
    (.doEach (fun _ _ => .put _ _ _ _) _ _)) (.doEach (fun _ _ => .put _ _ _ _) _ _)) (.put _ _ _ _)) (.put _ _ _ _)) (.wr _ _ (by decide)))
    (.wr _ _ (by decide))) (.raise _ _ (by decide))
  exact .of_core rfl rfl rfl rfl rfl

theorem CellStarted.superBad (s : Hub) : CellStarted s s.superBad := (CellStarted.err s rfl).trans (.raise _ _ (by decide))

theorem CellStarted.cellarStartup (s : Hub) (base : Bool) : CellStarted s (s.cellarStartup base) := by
  unfold Hub.cellarStartup
  dsimp only
  split
  · exact .wr s _ (by decide)
  split
  · exact (CellStarted.err s rfl).trans (.wr _ _ (by decide))
  split
  · split
    · exact .keepCellar s _
    · refine Booted.trans ?_ (CellStarted.formatCellar _ _)
      split
      · exact .refl s
      · exact CellStarted.superBad s
  · exact (CellStarted.superBad s).trans (CellStarted.formatCellar _ _)

/-! ### The flood of the image (R323, R379) -/

/-- `h` differs from `s` in the federation, and in the staged bytes of the image. -/
def Hub.floodedOnly (s h : Hub) : Prop := ∃ fed stage, h = { s with fed := fed, boot := { s.boot with stage := stage } }

theorem floodedOnly_trans {s t u : Hub} (h1 : s.floodedOnly t) (h2 : t.floodedOnly u) : s.floodedOnly u := by
  obtain ⟨_, _, rfl⟩ := h1
  obtain ⟨fed, stage, rfl⟩ := h2
  exact ⟨fed, stage, rfl⟩

theorem floodedOnly_refl (s : Hub) : s.floodedOnly s := ⟨s.fed, s.boot.stage, rfl⟩

theorem Hub.tendrilsOnly.flooded {s h : Hub} (k : s.tendrilsOnly h) : s.floodedOnly h := by
  obtain ⟨tend, rfl⟩ := k
  exact ⟨_, s.boot.stage, rfl⟩

theorem floodedOnly_floodImage (s : Hub) (a n : Nat) (b : List Byte) : s.floodedOnly (s.floodImage a n b) := by
  induction n generalizing s a b with
  | zero => exact floodedOnly_refl s
  | succ n ih =>
    unfold Hub.floodImage
    split
    · exact floodedOnly_refl s
    · exact floodedOnly_trans (tendrilsOnly_flood2 s _ _ _).flooded (ih _ _ _)

theorem floodedOnly_stageBytes (s : Hub) (a : Nat) (b : List Byte) : s.floodedOnly (s.stageBytes a b) := by
  unfold Hub.stageBytes
  split
  · exact floodedOnly_refl s
  · exact ⟨s.fed, _, rfl⟩

theorem floodedOnly_sendImage (s : Hub) (a : Nat) (b : List Byte) : s.floodedOnly (s.sendImage a b) :=
  doEach_keeps s.floodedOnly _ (fun _ _ k => floodedOnly_trans k (floodedOnly_stageBytes _ _ _)) _ _ (floodedOnly_floodImage s _ _ _)

theorem floodedOnly_sendImageDone (s : Hub) (len crc reason : Nat) : s.floodedOnly (s.sendImageDone len crc reason) := by
  have noted : s.floodedOnly { s with fed := { s.fed with nextTxn := (s.newTxn + 1) % 256 } } := ⟨_, s.boot.stage, rfl⟩
  have all : (s.broadcast == Hub.broadcast { s with fed := { s.fed with nextTxn := (s.newTxn + 1) % 256 } }) = true :=
    beq_self_eq_true s.broadcast
  rw [Hub.sendImageDone, Hub.sendCmd, Hub.sendTo, all, if_pos rfl]
  exact floodedOnly_trans noted (tendrilsOnly_flood2 _ _ _ _).flooded

theorem tendrilsOnly_accept2 (s : Hub) (t seq : Nat) : s.tendrilsOnly (s.accept2 t seq).2 := by
  unfold Hub.accept2
  dsimp only
  split
  · exact ⟨s.fed.tend, rfl⟩
  split
  · exact tendrilsOnly_setTend _ _ _
  dsimp only
  split
  · exact tendrilsOnly_trans (tendrilsOnly_setTend _ _ _) (tendrilsOnly_trans (tendrilsOnly_setTend _ _ _) (tendrilsOnly_setTend _ _ _))
  · exact tendrilsOnly_setTend _ _ _

theorem Booted.flooded {s h : Hub} (k : s.floodedOnly h) (n : touched R.BOOT_STATUS = true) : Booted profiles touched s h := by
  obtain ⟨fed, stage, rfl⟩ := k
  exact ⟨rfl, fun _ _ _ => rfl, fun _ m => .inl m, fun _ m => m, fun _ => rfl, fun f => absurd (f.symm.trans n) Bool.false_ne_true⟩

/-! ### The end of step 6 (R372, R383) -/

/-- The registers that the end of step 6 writes: those of BOOT and of the cellar's start-up. -/
def bootTouched (k : Nat) : Bool := k % 0x100000 / 0x1000 == Pg.BOOT || cellTouched k

theorem CellStarted.booted {s h : Hub} (k : CellStarted s h) : Booted profiles bootTouched s h :=
  k.mono (fun _ => rfl) fun a n => by
    rw [bootTouched, Bool.or_eq_false_iff] at n
    exact n.2

/-- The record of start-up at the end of step 6, with the values SOFT_RESET returns to (R462). -/
def Hub.step6Boot (s : Hub) : Boot :=
  { s.boot with fuseRegs := s.startValues, stage := [], header := [], reading := false, flooding := false }

/-- Step 6 ends, the cellar having been started, with a record `b`: BOOT_TIME_IMAGE; step 7 begins. -/
def Hub.step6Ended (s : Hub) (b : Boot) : Hub :=
  ((s.setBoot b).wr F.BOOT_TIME_IMAGE_HCLK (sat 32 (s.setBoot b).time.hclk)).setStep 7

theorem endStep6_eq (s : Hub) : s.endStep6 =
    (s.cellarStartup (s.reg64 R.CELL_BASE_LO != 0)).step6Ended (s.cellarStartup (s.reg64 R.CELL_BASE_LO != 0)).step6Boot := rfl

theorem Booted.setStep (s : Hub) (n : Nat) (k : touched R.BOOT_STATUS = true) : Booted profiles touched s (s.setStep n) :=
  (Booted.setBoot s { s.boot with stepAt := s.time.hclk } k).trans (.wr _ n k)

theorem Booted.step6Ended (s : Hub) (b : Boot) : Booted profiles bootTouched s (s.step6Ended b) :=
  ((Booted.setBoot s _ (by decide)).trans (.wr _ (f := F.BOOT_TIME_IMAGE_HCLK) _ (by decide))).trans (.setStep _ 7 (by decide))

/-- The end of step 6 keeps a field that is neither STEP nor BOOT_TIME_IMAGE. -/
theorem step6Ended_rd (s : Hub) (b : Boot) {f : Fld} (fits : f.lo + f.width ≤ 32) (image : F.BOOT_TIME_IMAGE_HCLK.apart f = true)
    (step : F.BOOT_STATUS_STEP.apart f = true) : (s.step6Ended b).rd f = s.rd f :=
  (Hub.rd_wr_apart _ _ _ _ fits step).trans (Hub.rd_wr_apart _ _ _ _ fits image)

theorem step6Ended_reg (s : Hub) (b : Boot) {a : Nat} (image : a ≠ F.BOOT_TIME_IMAGE_HCLK.addr) (step : a ≠ F.BOOT_STATUS_STEP.addr) :
    (s.step6Ended b).reg a = s.reg a := (Hub.reg_wr_ne _ _ _ step).trans (Hub.reg_wr_ne _ _ _ image)

theorem step6Ended_kept (s : Hub) (b : Boot) : (s.step6Ended b).boot.kept = b.kept := rfl

theorem step6Ended_step (s : Hub) (b : Boot) : (s.step6Ended b).rd F.BOOT_STATUS_STEP = 7 := Hub.rd_wr _ F.BOOT_STATUS_STEP 7 (by decide)

theorem Booted.endStep6 (s : Hub) : Booted profiles bootTouched s s.endStep6 := by
  rw [endStep6_eq]
  exact (CellStarted.cellarStartup s _).booted.trans (.step6Ended _ _)

theorem endStep6_step (s : Hub) : s.endStep6.rd F.BOOT_STATUS_STEP = 7 := by rw [endStep6_eq, step6Ended_step]

theorem endStep6_rd (s : Hub) {f : Fld} (cell : cellTouched f.addr = false) (fits : f.lo + f.width ≤ 32)
    (image : F.BOOT_TIME_IMAGE_HCLK.apart f = true) (step : F.BOOT_STATUS_STEP.apart f = true) : s.endStep6.rd f = s.rd f := by
  rw [endStep6_eq, step6Ended_rd _ _ fits image step, (CellStarted.cellarStartup s _).rd f cell]

theorem endStep6_reg (s : Hub) {a : Nat} (cell : cellTouched a = false) (image : a ≠ F.BOOT_TIME_IMAGE_HCLK.addr)
    (step : a ≠ F.BOOT_STATUS_STEP.addr) : s.endStep6.reg a = s.reg a := by
  rw [endStep6_eq, step6Ended_reg _ _ image step, (CellStarted.cellarStartup s _).reg cell]

theorem endStep6_kept (s : Hub) : s.endStep6.boot.kept = s.boot.kept := by
  rw [endStep6_eq, step6Ended_kept, Hub.step6Boot, (CellStarted.cellarStartup s _).steps (by decide)]

/-! ### Factory defaults (R383) -/

/-- The hub that takes factory defaults, before step 6 ends. -/
def Hub.defaulted (s : Hub) (reason : Nat) : Hub :=
  (((s.setBoot { s.boot with kept := [] }).wr F.BOOT_STATUS_CFG_DEFAULTED 1).wr F.BOOT_STATUS_DEFAULT_REASON reason).raiseOf
    Ev.CFG_DEFAULTED reason

theorem useDefaults_eq (s : Hub) (reason : Nat) : s.useDefaults reason = (s.defaulted reason).endStep6 := rfl

theorem Booted.useDefaults (s : Hub) (reason : Nat) : Booted profiles bootTouched s (s.useDefaults reason) :=
  ((((Booted.setBoot s _ (by decide)).trans (.wr _ _ (by decide))).trans (.wr _ _ (by decide))).trans (.raise _ _ (by decide))).trans
    (.endStep6 _)

theorem useDefaults_step (s : Hub) (reason : Nat) : (s.useDefaults reason).rd F.BOOT_STATUS_STEP = 7 := endStep6_step _

theorem useDefaults_defaulted (s : Hub) (reason : Nat) : (s.useDefaults reason).rd F.BOOT_STATUS_CFG_DEFAULTED = 1 := by
  rw [useDefaults_eq, endStep6_rd _ (by decide) (by decide) (by decide) (by decide), Hub.defaulted, Hub.rd_raiseOf,
    Hub.rd_wr_apart _ _ _ _ (by decide) (by decide), Hub.rd_wr _ _ _ (by decide)]
  rfl

theorem useDefaults_reason (s : Hub) (reason : Nat) : (s.useDefaults reason).rd F.BOOT_STATUS_DEFAULT_REASON = reason % 8 := by
  rw [useDefaults_eq, endStep6_rd _ (by decide) (by decide) (by decide) (by decide), Hub.defaulted, Hub.rd_raiseOf,
    Hub.rd_wr _ _ _ (by decide)]
  rfl

theorem useDefaults_raises (s : Hub) (reason : Nat) : ∃ o ∈ (s.useDefaults reason).occs, o.code = Ev.CFG_DEFAULTED ∧ o.unit.getD 0 = reason :=
  ⟨_, (Booted.endStep6 (profiles := false) (s.defaulted reason)).kept _ (List.mem_append_right _ (List.mem_singleton_self _)), rfl, rfl⟩

/-- An error of BOOT stays recorded. -/
theorem useDefaults_hasErr (s : Hub) (reason : Nat) {e : ErrBit} (page : e.page = Pg.BOOT) : (s.useDefaults reason).hasErr e = s.hasErr e := by
  have f : (F.PG_ERROR_ERRORS.lane e.page) = F.PG_ERROR_ERRORS.lane Pg.BOOT := by rw [page]
  rw [Hub.hasErr, Hub.hasErr, f, useDefaults_eq, endStep6_rd _ (by decide) (by decide) (by decide) (by decide), Hub.defaulted, Hub.rd_raiseOf,
    Hub.rd_wr_apart _ _ _ _ (by decide) (by decide), Hub.rd_wr_apart _ _ _ _ (by decide) (by decide)]
  rfl

/-! ### The commands that end in factory defaults -/

/-- The pages of the registers that the end of step 6 writes. -/
theorem bootTouched_off {k : Nat} (n : k % 0x100000 / 0x1000 ∉ [Pg.BOOT, Pg.CELL, Pg.HARV]) : bootTouched k = false := by
  simp only [List.mem_cons, List.not_mem_nil, or_false, not_or] at n
  obtain ⟨boot, cell, harv⟩ := n
  have next : k ≠ R.HARV_NEXT_VINTAGE := fun e => harv (by rw [e]; decide)
  simp only [bootTouched, cellTouched, beq_eq_false_iff_ne.mpr boot, beq_eq_false_iff_ne.mpr cell, beq_eq_false_iff_ne.mpr next, Bool.or_self]

section
variable {s h t : Hub}

theorem BootEffect.rd (x : BootEffect touched s h t) (f : Fld) (n : eventKey f.addr = false) : t.rd f = h.rd f := by
  simp only [Hub.rd, Hub.rdB, x.regs f.addr 0 (by rwa [regKey_zero])]

theorem BootEffect.reg (x : BootEffect touched s h t) {a : Nat} (n : eventKey a = false) : t.reg a = h.reg a := x.regs a 0 (by rwa [regKey_zero])

theorem BootEffect.hasErr (x : BootEffect touched s h t) (e : ErrBit) : t.hasErr e = h.hasErr e := by
  rw [Hub.hasErr, x.rd _ (eventKey_errors _), Hub.hasErr]

theorem BootEffect.boot (x : BootEffect touched s h t) : t.boot = h.boot := show (s.rest t).boot = _ by rw [x.rest]

/-- An event of BOOT that was raised is seen in PG_EVENT, whatever unit it named. -/
theorem BootEffect.shows_code (x : BootEffect touched s h t) {code u v : Nat} (m : ∃ o ∈ h.occs, o.code = code ∧ o.unit.getD 0 = u)
    (any : eventBit code v = eventBit code u) (bit : ∀ p i, eventBit code u = some (p, i) → i < 32) : t.shows code v = true := by
  obtain ⟨o, mem, rfl, rfl⟩ := m
  rw [Hub.shows, any]
  exact x.shows o mem bit

theorem BootEffect.keepsOff (x : BootEffect bootTouched s h t) : s.keepsOff t [Pg.BOOT, Pg.CELL, Pg.HARV] :=
  fun a b q n => x.keeps a b q (bootTouched_off n)

/-- All that start-up changed, seen in the state after the command. -/
theorem BootEffect.rest_all (x : BootEffect touched s h t) : s.rest t =
    { s with boot := t.boot, fed := t.fed, taste := t.taste, cell := t.cell, store := t.store, freeCount := t.freeCount } := by
  have field {α : Type} (g : Hub → α) (n : g (s.rest t) = g t) := n.symm.trans (congrArg g x.rest)
  rw [field Hub.boot rfl, field Hub.fed rfl, field Hub.taste rfl, field Hub.cell rfl, field Hub.store rfl, field Hub.freeCount rfl]
  exact x.rest

/-- The same where the profiles of the tasters stay. -/
theorem BootEffect.rest_plain (x : BootEffect touched s h t) (k : Booted false touched s h) : s.rest t =
    { s with boot := t.boot, fed := t.fed, cell := t.cell, store := t.store, freeCount := t.freeCount } := by
  have taste : t.taste = s.taste := (congrArg Hub.taste x.rest :).trans (k.plain rfl)
  rw [x.rest_all, taste]

end

theorem calmKeys_not_bootTouched : ∀ a ∈ calmKeys, bootTouched a = false := by decide

theorem eventBit_boot {code : Nat} (m : code = Ev.CFG_DEFAULTED ∨ code = Ev.IMAGE_ACCEPTED) (u p i : Nat)
    (e : eventBit code u = some (p, i)) : i < 32 := by
  rcases m with rfl | rfl <;>
  · cases e
    decide

/-- What the statements about factory defaults say. -/
def defaultsAnswer (s h : Hub) (reason shown : Nat) : Prop :=
  h.rd F.BOOT_STATUS_CFG_DEFAULTED = 1 ∧ h.rd F.BOOT_STATUS_DEFAULT_REASON = reason ∧ h.rd F.BOOT_STATUS_STEP = 7 ∧
  h.shows Ev.CFG_DEFAULTED shown = true ∧
  s.rest h = { s with boot := h.boot, fed := h.fed, cell := h.cell, store := h.store, freeCount := h.freeCount } ∧
  s.keepsOff h [Pg.BOOT, Pg.CELL, Pg.HARV]

/-- A hub that takes factory defaults after changes of start-up. -/
theorem answers_defaults {i : Instr} {s : State} {f : Hub → Hub} {h : Hub} {reason : Nat} (shown : Nat) (x : exec i s = run f s)
    (e : f s.hub = h.useDefaults reason) (k : Booted false bootTouched s.hub h) (c : s.hub.calm = true) :
    Answers i s fun t => defaultsAnswer s.hub t (reason % 8) shown ∧ ∀ e, e.page = Pg.BOOT → t.hasErr e = h.hasErr e := by
  have all := k.trans (.useDefaults h reason)
  refine answers_booted x e all calmKeys_not_bootTouched c fun t y =>
    ⟨⟨?_, ?_, ?_, y.shows_code (useDefaults_raises h reason) rfl (eventBit_boot (.inl rfl) _), y.rest_plain all, y.keepsOff⟩, fun e page => ?_⟩
  · rw [y.rd _ (by decide), useDefaults_defaulted]
  · rw [y.rd _ (by decide), useDefaults_reason]
  · rw [y.rd _ (by decide), useDefaults_step]
  · rw [y.hasErr, useDefaults_hasErr _ _ page]

/-! ### The flash header (R379) -/

theorem exec_flashHeaderRead {header : List Byte} (l : header.length = 64) (s : State) :
    exec (.flashHeaderRead header) s = run (fun h => h.headerRead header) s := by
  have six : (header.length == 64) = true := beq_iff_eq.mpr l
  show runIf (header.length == 64) _ s = _
  rw [runIf, six, if_pos rfl]

theorem headerFault_lt (b : List Byte) : headerFault b < 8 := by
  unfold headerFault
  split_ifs <;> decide

section
variable {s : Hub} {header : List Byte} (step : s.inStep 4 = true) (reading : s.boot.reading = true) (idle : s.boot.flooding = false)
  (flash : bitAt (s.fuseUsed 6) 30 = true) (zeros : header.all (fun x => x == 0) = false) (ones : header.all (fun x => x == 0xFF) = false)
include step reading idle flash zeros ones

theorem headerRead_good (good : headerFault header = 0) : s.headerRead header =
    (s.setBoot { s.boot with header := header, flooding := true }).sendImage 0 (header.take 60) := by
  simp only [Hub.headerRead, step, reading, idle, flash, zeros, ones, good, Bool.not_true, Bool.or_self, Bool.false_eq_true, if_false,
    bne_self_eq_false]
  rfl

theorem headerRead_bad (bad : headerFault header ≠ 0) : s.headerRead header =
    ((s.err Er.BOOT_IMAGE_CHECK).sendImageDone 0 0 (headerFault header)).useDefaults (headerFault header) := by
  have bad : (headerFault header != 0) = true := bne_iff_ne.mpr bad
  simp only [Hub.headerRead, step, reading, idle, flash, zeros, ones, bad, Bool.not_true, Bool.or_self, Bool.false_eq_true, if_false, if_true]
  rfl

end

/-- The frames of an image leave the registers and the events (R323). -/
theorem Hub.floodedOnly.hasErr {s h : Hub} (k : s.floodedOnly h) (e : ErrBit) : h.hasErr e = s.hasErr e := by
  obtain ⟨fed, stage, rfl⟩ := k
  rfl

/-- A command after which the federation and the record of start-up alone differ. -/
theorem answers_staged {i : Instr} {s : State} {f : Hub → Hub} {fed : Fed} {boot : Boot} (x : exec i s = run f s)
    (e : f s.hub = { s.hub with fed := fed, boot := boot }) (c : s.hub.calm = true) :
    Answers i s fun t => t.boot = boot ∧ s.hub.rest t = { s.hub with boot := t.boot, fed := t.fed } ∧ s.hub.keeps t [] := by
  have k : Booted false (fun k => k == R.BOOT_STATUS) s.hub { s.hub with fed := fed, boot := boot } :=
    (Booted.flooded ⟨fed, s.hub.boot.stage, rfl⟩ (by decide)).trans (.setBoot _ boot (by decide))
  refine answers_booted x e k (by decide) c fun t y => ⟨y.boot, ?_, fun a b q _ => y.regs a b q⟩
  rw [y.boot, show t.fed = fed from (congrArg Hub.fed y.rest :), y.rest]
  simp only [(calm_nothing_left c).2, Store.writeAll, List.foldl_nil]

/-- A good header is kept, and the frames of its bytes go out. -/
theorem headerRead_floods {s : Hub} {header : List Byte} (step : s.inStep 4 = true) (reading : s.boot.reading = true)
    (idle : s.boot.flooding = false) (flash : bitAt (s.fuseUsed 6) 30 = true) (zeros : header.all (fun x => x == 0) = false)
    (ones : header.all (fun x => x == 0xFF) = false) (good : headerFault header = 0) : ∃ fed stage, s.headerRead header =
    { s with fed := fed, boot := { s.boot with header := header, flooding := true, stage := stage } } := by
  rw [headerRead_good step reading idle flash zeros ones good]
  exact floodedOnly_sendImage (s.setBoot { s.boot with header := header, flooding := true }) 0 (header.take 60)

theorem answers_flashHeaderGood (s : State) (header : List Byte) (calm : s.hub.calm = true) (l : header.length = 64)
    (step : s.hub.inStep 4 = true) (reading : s.hub.boot.reading = true) (idle : s.hub.boot.flooding = false)
    (flash : bitAt (s.hub.fuseUsed 6) 30 = true) (zeros : header.all (fun x => x == 0) = false)
    (ones : header.all (fun x => x == 0xFF) = false) (good : headerFault header = 0) :
    Answers (.flashHeaderRead header) s fun h =>
      h.boot.header = header ∧ h.boot.flooding = true ∧ s.hub.rest h = { s.hub with boot := h.boot, fed := h.fed } ∧ s.hub.keeps h [] := by
  obtain ⟨fed, stage, e⟩ := headerRead_floods step reading idle flash zeros ones good
  refine (answers_staged (exec_flashHeaderRead l s) e calm).mono fun t ⟨boot, rest, keeps⟩ => ⟨?_, ?_, rest, keeps⟩ <;> rw [boot]

theorem answers_flashHeaderBad (s : State) (header : List Byte) (calm : s.hub.calm = true) (l : header.length = 64)
    (step : s.hub.inStep 4 = true) (reading : s.hub.boot.reading = true) (idle : s.hub.boot.flooding = false)
    (flash : bitAt (s.hub.fuseUsed 6) 30 = true) (zeros : header.all (fun x => x == 0) = false)
    (ones : header.all (fun x => x == 0xFF) = false) (bad : headerFault header ≠ 0) :
    Answers (.flashHeaderRead header) s fun h =>
      h.rd F.BOOT_STATUS_CFG_DEFAULTED = 1 ∧ h.rd F.BOOT_STATUS_DEFAULT_REASON = headerFault header ∧ h.rd F.BOOT_STATUS_STEP = 7 ∧
      h.hasErr Er.BOOT_IMAGE_CHECK = true ∧ h.shows Ev.CFG_DEFAULTED (headerFault header) = true ∧
      s.hub.rest h = { s.hub with boot := h.boot, fed := h.fed, cell := h.cell, store := h.store, freeCount := h.freeCount } ∧
      s.hub.keepsOff h [Pg.BOOT, Pg.CELL, Pg.HARV] := by
  have flood := floodedOnly_sendImageDone (s.hub.err Er.BOOT_IMAGE_CHECK) 0 0 (headerFault header)
  refine (answers_defaults (headerFault header) (exec_flashHeaderRead l s) (headerRead_bad step reading idle flash zeros ones bad)
    ((Booted.err _ (by decide) (by decide)).trans (.flooded flood (by decide))) calm).mono
    fun t ⟨⟨defaulted, reason, step, shows, rest, keeps⟩, errs⟩ =>
    ⟨defaulted, ?_, step, ?_, shows, rest, keeps⟩
  · rw [reason, Nat.mod_eq_of_lt (headerFault_lt header)]
  · rw [errs _ rfl, flood.hasErr, Hub.hasErr_err _ _ (by decide)]


/-! ### The limits of the wait for an image, and an IMAGE_DONE without one (R380) -/

theorem answers_imageWaitTimeout (s : State) (calm : s.hub.calm = true) (waits : s.hub.waitsImage = true)
    (none : s.hub.boot.firstFrame = none) (late : s.hub.elapsed s.hub.linksUpAt 8000000 = true) :
    Answers .imageWaitTimeout s fun h => defaultsAnswer s.hub h Dr.NO_IMAGE Dr.NO_IMAGE := by
  have e : s.hub.imageWaitTimeout = s.hub.useDefaults Dr.NO_IMAGE := by
    rw [Hub.imageWaitTimeout, waits, none, late]
    rfl
  exact (answers_defaults (f := Hub.imageWaitTimeout) Dr.NO_IMAGE rfl e (.refl _) calm).mono fun t x => x.1

theorem answers_imageDoneTimeout (s : State) (first : Nat) (calm : s.hub.calm = true) (waits : s.hub.waitsImage = true)
    (frame : s.hub.boot.firstFrame = some first) (late : s.hub.elapsed first 20000000 = true) :
    Answers .imageDoneTimeout s fun h =>
      h.rd F.BOOT_STATUS_CFG_DEFAULTED = 1 ∧ h.rd F.BOOT_STATUS_DEFAULT_REASON = Dr.NO_IMAGE ∧ h.rd F.BOOT_STATUS_STEP = 7 ∧
      h.hasErr Er.BOOT_FLOOD = true ∧ h.shows Ev.CFG_DEFAULTED Dr.NO_IMAGE = true ∧
      s.hub.rest h = { s.hub with boot := h.boot, fed := h.fed, cell := h.cell, store := h.store, freeCount := h.freeCount } ∧
      s.hub.keepsOff h [Pg.BOOT, Pg.CELL, Pg.HARV] := by
  have e : s.hub.imageDoneTimeout = (s.hub.err Er.BOOT_FLOOD).useDefaults Dr.NO_IMAGE := by
    simp only [Hub.imageDoneTimeout, frame, waits, late, Bool.and_self, if_true]
  refine (answers_defaults (f := Hub.imageDoneTimeout) Dr.NO_IMAGE rfl e (.err _ (by decide) (by decide)) calm).mono
    fun t ⟨⟨defaulted, reason, step, shows, rest, keeps⟩, errs⟩ => ⟨defaulted, reason, step, ?_, shows, rest, keeps⟩
  rw [errs _ rfl, Hub.hasErr_err _ _ (by decide)]

/-- The arguments of IMAGE_DONE (R333). -/
def imageDoneArgs (len crc reason : Nat) : List Byte := le 4 len ++ le 4 crc ++ le 1 reason

theorem imageDoneRx_taken {s : Hub} {d : Hdr2} (taken : s.takesFrame d Op.IMAGE_DONE = true) (len crc reason : Nat) (eccBad : Bool) :
    ∃ fed, s.imageDoneRx d len crc reason eccBad = Hub.imageDone { s with fed := fed } len crc reason eccBad :=
  cmdFrame_taken taken (imageDoneArgs len crc reason) fun s => s.imageDone len crc reason eccBad

theorem imageDone_empty {s : Hub} (step : s.inStep 4 = true) (heard : s.flag F.TIME_STATE_IS_MASTER = false) (crc reason : Nat)
    (eccBad : Bool) : s.imageDone 0 crc reason eccBad = s.useDefaults (reason % 8) := by
  simp only [Hub.imageDone, step, heard, Bool.not_true, Bool.or_self, Bool.false_eq_true, if_false, beq_self_eq_true, if_true]

theorem answers_imageDoneEmpty (s : State) (hd : Hdr2) (crc : Word) (reason : BitVec 8) (eccBad : Bool) (calm : s.hub.calm = true)
    (taken : s.hub.takesFrame hd Op.IMAGE_DONE = true) (step : s.hub.inStep 4 = true) (heard : s.hub.flag F.TIME_STATE_IS_MASTER = false) :
    Answers (.imageDoneRx hd 0 crc reason eccBad) s fun h => defaultsAnswer s.hub h (reason.toNat % 8) reason.toNat := by
  obtain ⟨fed, e⟩ := imageDoneRx_taken taken 0 crc.toNat reason.toNat eccBad
  have done := imageDone_empty (s := { s.hub with fed := fed }) step heard crc.toNat reason.toNat eccBad
  refine (answers_defaults (f := fun h => h.imageDoneRx hd 0 crc.toNat reason.toNat eccBad) reason.toNat rfl (e.trans done)
    (.flooded ⟨fed, s.hub.boot.stage, rfl⟩ (by decide)) calm).mono fun t x => ?_
  rw [Nat.mod_mod] at x
  exact x.1

/-! ### An image frame (R323, R380) -/

theorem padTo_le (n v : Nat) : padTo n ((le n v).take n) = le n v := by
  rw [List.take_of_length_le (length_le n v).le, padTo, length_le, Nat.sub_self]
  exact List.append_nil _

/-- A new frame at offset `at_` is staged, on a hub that took and forwarded it. -/
theorem imageFrame_new {s : Hub} {t seq at_ : Nat} (taken : (s.accept2 t seq).1 = true)
    (new : s.boot.stage.any (fun p => p.1 == at_) = false) (data : List Byte) :
    ∃ fed, s.imageFrame t seq at_ data = { s with
      fed := fed
      boot := { s.boot with
        stage := s.boot.stage ++ [(at_, padTo 12 (data.take 12))], firstFrame := some (s.boot.firstFrame.getD s.time.hclk) } } := by
  obtain ⟨tend, a⟩ := tendrilsOnly_accept2 s t seq
  obtain ⟨tend', b⟩ := tendrilsOnly_flood2 (s.accept2 t seq).2 (some t) Ft.IMAGE (le 4 at_ ++ padTo 12 data)
  have new' : (s.accept2 t seq).2.boot.stage.any (fun p => p.1 == at_) = false := by rwa [a]
  have new'' : ((s.accept2 t seq).2.flood2 (some t) Ft.IMAGE (le 4 at_ ++ padTo 12 data)).boot.stage.any (fun p => p.1 == at_) = false := by
    rwa [b]
  simp only [Hub.imageFrame, taken, new', Bool.not_true, Bool.or_self, Bool.false_eq_true, if_false, Hub.stageBytes, new'']
  rw [b, a]
  exact ⟨_, rfl⟩

theorem answers_imageFrame (s : State) (tendril : TendrilId) (seq : BitVec 8) (offset : Word) (data : BitVec 96) (calm : s.hub.calm = true)
    (taken : (s.hub.accept2 tendril seq.toNat).1 = true) (new : s.hub.boot.stage.any (fun p => p.1 == offset.toNat) = false) :
    Answers (.imageFrameRx tendril seq offset data) s fun h =>
      (offset.toNat, le 12 data.toNat) ∈ h.boot.stage ∧ h.boot.firstFrame.isSome = true ∧
      s.hub.rest h = { s.hub with boot := h.boot, fed := h.fed } ∧ s.hub.keeps h [] := by
  obtain ⟨fed, e⟩ := imageFrame_new taken new (le 12 data.toNat)
  rw [padTo_le] at e
  refine (answers_staged (f := fun h => h.imageFrame tendril seq.toNat offset.toNat (le 12 data.toNat)) rfl e calm).mono
    fun t ⟨boot, rest, keeps⟩ => ⟨?_, ?_, rest, keeps⟩ <;> rw [boot]
  · exact List.mem_append_right _ (List.mem_singleton_self _)
  · rfl


/-! ### An accepted image (R384) -/

/-- The sections of an image that are the hub's set the topcase map and the base of the packs alone. -/
def Hub.plainImage (s : Hub) (image : List Byte) : Prop :=
  ((imageSections image).getD []).all (fun x => !s.sectionMine x || (x.type == 1 && x.body.length == 16)) = true

/-- What applying a section of an image may do. -/
structure Applied (s h : Hub) : Prop where
  booted : Booted true bootTouched s h
  kept : h.boot.kept = s.boot.kept
  seq : h.reg R.BOOT_IMAGE_SEQ = s.reg R.BOOT_IMAGE_SEQ

theorem Applied.refl (s : Hub) : Applied s s := ⟨.refl s, rfl, rfl⟩

theorem Applied.trans {s t u : Hub} (h1 : Applied s t) (h2 : Applied t u) : Applied s u :=
  ⟨h1.booted.trans h2.booted, h2.kept.trans h1.kept, h2.seq.trans h1.seq⟩

theorem Applied.sectionMine {s h : Hub} (k : Applied s h) (x : Section) : h.sectionMine x = s.sectionMine x := by
  rw [Hub.sectionMine, Hub.sectionMine, Hub.hubAddr, Hub.hubAddr, k.booted.rd _ (by decide)]

theorem applySection_plain (s : Hub) (i : Nat) {x : Section} (type : x.type = 1) (l : x.body.length = 16) : s.applySection i x =
    (s.setBoot { s.boot with tcsMap := leAt x.body 0 2, packBase := leAt x.body 8 8 }).bump F.BOOT_CFG_INFO_SKIPPED 0 := by
  have none : x.body.drop 16 = [] := List.drop_of_length_le l.le
  simp only [Hub.applySection, type, none, Hub.recordSection]
  rfl

theorem Applied.applySection (s : Hub) (i : Nat) {x : Section} (type : x.type = 1) (l : x.body.length = 16) :
    Applied s (s.applySection i x) := by
  rw [applySection_plain s i type l]
  exact ⟨(Booted.setBoot s _ (by decide)).trans (.wr _ _ (by decide)), rfl, Hub.reg_wr_ne _ _ _ (by decide)⟩

/-- An image that sets no more than that is applied. -/
theorem Applied.applySections {s : Hub} {image : List Byte} (plain : s.plainImage image) : Applied s (s.applySections image) := by
  have start : Applied s { s.setReg R.BOOT_CFG_INFO 0 with taste := { s.taste with profiles := [] } } :=
    ⟨(Booted.setReg s 0 (by decide)).trans ⟨rfl, fun _ _ _ => rfl, fun _ m => .inl m, fun _ m => m, nofun, fun _ => rfl⟩, rfl,
      Hub.reg_setReg_ne s 0 (by decide)⟩
  refine doEach_keeps (Applied s) _ (fun h i k => ?_) _ _ start
  split
  case h_1 x m =>
    have own := List.all_eq_true.mp plain x (List.mem_of_getElem? m)
    rw [k.sectionMine]
    cases mine : s.sectionMine x with
    | false => exact k
    | true =>
      simp only [mine, Bool.not_true, Bool.false_or, Bool.and_eq_true, beq_iff_eq] at own
      exact k.trans (.applySection h i own.1 own.2)
  case h_2 => exact k

/-- The hub that keeps an image and shows its length and sequence number. -/
def Hub.imageKept (s : Hub) (image : List Byte) : Hub :=
  ((s.setBoot { s.boot with kept := image }).setReg R.BOOT_IMAGE_LEN (Img.length image)).setReg R.BOOT_IMAGE_SEQ (Img.seq image)

theorem useImage_eq (s : Hub) (image : List Byte) : s.useImage image =
    (((s.imageKept image).applySections image).raiseOf Ev.IMAGE_ACCEPTED (Img.seq image % 0x10000)).endStep6 := rfl

theorem Booted.imageKept (s : Hub) (image : List Byte) : Booted profiles bootTouched s (s.imageKept image) :=
  ((Booted.setBoot s _ (by decide)).trans (.setReg _ _ (by decide))).trans (.setReg _ _ (by decide))

section
variable {s : Hub} {image : List Byte} (plain : s.plainImage image)
include plain

theorem imageKept_plain : (s.imageKept image).plainImage image := by
  have mine (x : Section) : (s.imageKept image).sectionMine x = s.sectionMine x := by
    rw [Hub.sectionMine, Hub.sectionMine, Hub.hubAddr, Hub.hubAddr, (Booted.imageKept (profiles := true) s image).rd _ (by decide)]
  simp only [Hub.plainImage, mine]
  exact plain

theorem imageKept_applied : Applied (s.imageKept image) ((s.imageKept image).applySections image) := .applySections (imageKept_plain plain)

theorem useImage_booted : Booted true bootTouched s (s.useImage image) := by
  rw [useImage_eq]
  exact (((Booted.imageKept s image).trans (imageKept_applied plain).booted).trans (.raise _ _ (by decide))).trans (.endStep6 _)

theorem useImage_kept : (s.useImage image).boot.kept = image := by
  rw [useImage_eq, endStep6_kept]
  exact (imageKept_applied plain).kept

theorem useImage_seq : (s.useImage image).reg R.BOOT_IMAGE_SEQ = Img.seq image % 2 ^ 32 := by
  rw [useImage_eq, endStep6_reg _ (by decide) (by decide) (by decide)]
  exact (imageKept_applied plain).seq.trans (Hub.reg_setReg _ _ _)

end

theorem useImage_step (s : Hub) (image : List Byte) : (s.useImage image).rd F.BOOT_STATUS_STEP = 7 := endStep6_step _

theorem useImage_raises (s : Hub) (image : List Byte) :
    ∃ o ∈ (s.useImage image).occs, o.code = Ev.IMAGE_ACCEPTED ∧ o.unit.getD 0 = Img.seq image % 0x10000 :=
  ⟨_, (Booted.endStep6 (profiles := true) _).kept _ (List.mem_append_right _ (List.mem_singleton_self _)), rfl, rfl⟩

/-- A hub that accepts such an image after changes of start-up. -/
theorem answers_useImage {i : Instr} {s : State} {f : Hub → Hub} {h : Hub} {image : List Byte} (x : exec i s = run f s)
    (e : f s.hub = h.useImage image) (k : Booted true bootTouched s.hub h) (plain : s.hub.plainImage image) (c : s.hub.calm = true) :
    Answers i s fun t =>
      t.boot.kept = image ∧ t.rd F.BOOT_STATUS_STEP = 7 ∧ t.reg R.BOOT_IMAGE_SEQ = Img.seq image % 2 ^ 32 ∧
      t.shows Ev.IMAGE_ACCEPTED (Img.seq image % 0x10000) = true ∧
      s.hub.rest t = { s.hub with boot := t.boot, fed := t.fed, taste := t.taste, cell := t.cell, store := t.store, freeCount := t.freeCount } ∧
      s.hub.keepsOff t [Pg.BOOT, Pg.CELL, Pg.HARV] := by
  have mine (x : Section) : h.sectionMine x = s.hub.sectionMine x := by
    rw [Hub.sectionMine, Hub.sectionMine, Hub.hubAddr, Hub.hubAddr, k.rd _ (by decide)]
  have plain : h.plainImage image := by
    simp only [Hub.plainImage, mine]
    exact plain
  refine answers_booted x e (k.trans (useImage_booted plain)) calmKeys_not_bootTouched c fun t y =>
    ⟨?_, ?_, ?_, y.shows_code (useImage_raises h image) rfl (eventBit_boot (.inr rfl) _), y.rest_all, y.keepsOff⟩
  · rw [y.boot, useImage_kept plain]
  · rw [y.rd _ (by decide), useImage_step]
  · rw [y.reg (by decide), useImage_seq plain]


theorem answers_imageDoneImage (s : State) (hd : Hdr2) (length : Word) (crc : Word) (reason : BitVec 8) (image : List Byte)
    (calm : s.hub.calm = true) (taken : s.hub.takesFrame hd Op.IMAGE_DONE = true) (step : s.hub.inStep 4 = true)
    (heard : s.hub.flag F.TIME_STATE_IS_MASTER = false) (some_ : length ≠ 0)
    (received : s.hub.received length.toNat crc.toNat = some image) (fits : s.hub.stageFits image = true)
    (plain : s.hub.plainImage image) :
    Answers (.imageDoneRx hd length crc reason false) s fun h =>
      h.boot.kept = image ∧ h.rd F.BOOT_STATUS_STEP = 7 ∧ h.reg R.BOOT_IMAGE_SEQ = Img.seq image % 2 ^ 32 ∧
      h.shows Ev.IMAGE_ACCEPTED (Img.seq image % 0x10000) = true ∧
      s.hub.rest h = { s.hub with boot := h.boot, fed := h.fed, taste := h.taste, cell := h.cell, store := h.store, freeCount := h.freeCount } ∧
      s.hub.keepsOff h [Pg.BOOT, Pg.CELL, Pg.HARV] := by
  obtain ⟨fed, e⟩ := imageDoneRx_taken taken length.toNat crc.toNat reason.toNat false
  have long : (length.toNat == 0) = false := beq_eq_false_iff_ne.mpr fun z => some_ (BitVec.eq_of_toNat_eq z)
  have step : Hub.inStep { s.hub with fed := fed } 4 = true := step
  have heard : Hub.flag { s.hub with fed := fed } F.TIME_STATE_IS_MASTER = false := heard
  have received : Hub.received { s.hub with fed := fed } length.toNat crc.toNat = some image := received
  have fits : Hub.stageFits { s.hub with fed := fed } image = true := fits
  have done : Hub.imageDone { s.hub with fed := fed } length.toNat crc.toNat reason.toNat false =
      Hub.useImage { s.hub with fed := fed } image := by
    simp only [Hub.imageDone, step, heard, long, received, fits, Bool.not_true, Bool.or_self, Bool.false_eq_true, if_false]
  exact answers_useImage (f := fun h => h.imageDoneRx hd length.toNat crc.toNat reason.toNat false) rfl (e.trans done)
    (.flooded ⟨fed, s.hub.boot.stage, rfl⟩ (by decide)) plain calm

/-! ### The image read by the master (R379, R382) -/

theorem Booted.writePacks (s : Hub) (image : List Byte) : Booted profiles touched s (s.writePacks image) := by
  rw [Hub.writePacks]
  split
  · exact .refl s
  · refine .doEach (fun _ _ => .doEach (fun s e => ?_) _ _) _ _
    split
    · exact .put s _ _ _
    · exact .refl s

/-- The check of an image reads nothing that its flood and its packs change. -/
theorem Hub.floodedOnly.imageFault {s h : Hub} (k : s.floodedOnly h) (b : List Byte) (keyOk sigOk : Bool) :
    h.imageFault b keyOk sigOk = s.imageFault b keyOk sigOk := by
  obtain ⟨fed, stage, rfl⟩ := k
  rfl

theorem imageFault_writePacks (s : Hub) (image b : List Byte) (keyOk sigOk : Bool) :
    (s.writePacks image).imageFault b keyOk sigOk = s.imageFault b keyOk sigOk := by
  rw [Hub.writePacks]
  split
  · rfl
  · refine doEach_same (fun h => h.imageFault b keyOk sigOk) _ (fun s _ => doEach_same (fun h => h.imageFault b keyOk sigOk) _ (fun s e => ?_) _ s) _ s
    split <;> rfl

/-- The image that the master has read. -/
def Hub.readImage (s : Hub) (rest : List Byte) : List Byte :=
  s.boot.header ++ padTo (Img.length s.boot.header - 64) (rest.take (Img.length s.boot.header - 64))

/-- The hub that has flooded the rest of an image and written its packs. -/
def Hub.imageRead (s : Hub) (image : List Byte) : Hub := (s.sendImage 60 (image.drop 60)).writePacks image

/-- The hub that has sent IMAGE_DONE for a good image and shows whether a signature was needed. -/
def Hub.imageDoneSent (s : Hub) (len : Nat) (image : List Byte) : Hub :=
  ((s.imageRead image).sendImageDone len (crc32c image) 0).wr F.BOOT_STATUS_SIG_OK (b2n (s.imageRead image).needsSig)

theorem Booted.imageRead (s : Hub) (image : List Byte) (k : touched R.BOOT_STATUS = true) : Booted profiles touched s (s.imageRead image) :=
  (Booted.flooded (floodedOnly_sendImage s 60 (image.drop 60)) k).trans (.writePacks _ image)

theorem Booted.imageDoneSent (s : Hub) (len : Nat) (image : List Byte) :
    Booted profiles bootTouched s (s.imageDoneSent len image) :=
  ((Booted.imageRead s image (by decide)).trans (.flooded (floodedOnly_sendImageDone _ _ _ _) (by decide))).trans (.wr _ _ (by decide))

theorem imageRead_imageFault (s : Hub) (image : List Byte) (keyOk sigOk : Bool) :
    (s.imageRead image).imageFault image keyOk sigOk = s.imageFault image keyOk sigOk :=
  (imageFault_writePacks _ image image keyOk sigOk).trans ((floodedOnly_sendImage s 60 (image.drop 60)).imageFault image keyOk sigOk)

theorem readComplete_good {s : Hub} (step : s.inStep 4 = true) (reading : s.boot.reading = true) (flooding : s.boot.flooding = true)
    {rest : List Byte} {keyOk sigOk : Bool} (good : s.imageFault (s.readImage rest) keyOk sigOk = 0) :
    s.readComplete rest keyOk sigOk false =
      (s.imageDoneSent (Img.length s.boot.header) (s.readImage rest)).useImage (s.readImage rest) := by
  have good : (s.imageRead (s.readImage rest)).imageFault (s.readImage rest) keyOk sigOk = 0 := (imageRead_imageFault _ _ _ _).trans good
  rw [Hub.imageRead, Hub.readImage] at good
  simp only [Hub.readComplete, step, reading, flooding, good, Bool.not_true, Bool.or_self, Bool.false_eq_true, if_false, bne_self_eq_false]
  rfl

theorem answers_imageReadComplete (s : State) (rest : List Byte) (image : List Byte) (keyOk : Bool) (sigOk : Bool) (calm : s.hub.calm = true)
    (step : s.hub.inStep 4 = true) (reading : s.hub.boot.reading = true) (flooding : s.hub.boot.flooding = true)
    (e : image = s.hub.readImage rest) (good : s.hub.imageFault image keyOk sigOk = 0) (plain : s.hub.plainImage image) :
    Answers (.imageReadComplete rest keyOk sigOk false) s fun h =>
      h.boot.kept = image ∧ h.rd F.BOOT_STATUS_STEP = 7 ∧ h.reg R.BOOT_IMAGE_SEQ = Img.seq image % 2 ^ 32 ∧
      h.shows Ev.IMAGE_ACCEPTED (Img.seq image % 0x10000) = true ∧
      s.hub.rest h = { s.hub with boot := h.boot, fed := h.fed, taste := h.taste, cell := h.cell, store := h.store, freeCount := h.freeCount } ∧
      s.hub.keepsOff h [Pg.BOOT, Pg.CELL, Pg.HARV] := by
  subst e
  exact answers_useImage (f := fun h => h.readComplete rest keyOk sigOk false) rfl (readComplete_good step reading flooding good)
    (.imageDoneSent _ _ _) plain calm

/-- Settles O17: the flood of the image touches the federation and the staged bytes alone, and what follows it on a calm hub, factory defaults
or an image without records, writes the registers of BOOT and of the cellar's start-up. -/
theorem the_image_is_read_flooded_and_checked : Obligations.the_image_is_read_flooded_and_checked := by
  refine ⟨answers_flashHeaderGood, answers_flashHeaderBad, answers_imageReadComplete, answers_imageFrame, ?_, answers_imageDoneImage,
    answers_imageWaitTimeout, answers_imageDoneTimeout⟩
  exact answers_imageDoneEmpty

end Sys2Proof.Machine
end

section
/-! SUPPORT. What no unit but start-up changes: BOOT_STATUS and BOOT_BIST_RESULT, and what would let a page, the rack port or the ladder act on them. -/

namespace Sys2Proof.Machine

set_option Elab.async false

/-- A level of the ladder that would restart the hub core runs. -/
def Ladder.high (l : Ladder) : Bool := l.active && (l.level == Lv.FIELD || l.level == Lv.CHIP)

/-- BOOT_STATUS and BOOT_BIST_RESULT, and all that may lead to another change of them: the pages to reset, the requests of the rack port that
wait, whether a level runs that would restart the hub core, and the image kept. -/
def Hub.mark (h : Hub) : (Nat × Nat) × List Nat × List (List Byte × Nat × Nat) × Bool × List Byte :=
  ((h.reg R.BOOT_STATUS, h.reg R.BOOT_BIST_RESULT), h.softReset, h.link.reqQ, h.ladder.high, h.boot.kept)

/-- An address of neither register. -/
def asideAddr (a : Nat) : Bool := a != R.BOOT_STATUS && a != R.BOOT_BIST_RESULT

/-- An address past both. -/
def pastAddr (a : Nat) : Bool := R.BOOT_BIST_RESULT < a

/-- A change of other parts of the hub. -/
theorem mark_mk (s : Hub) {hi stage bus owners pins time doms glbLeft corks nextOp corkShown waveCrc tiles power harv canes lanes cell rack
    trace taste digTiles digExt digAgain numwHeld numw hang hangCtl ladder fed link boot auth bist rel coops freeCount store occs writes}
    (l : Ladder.high ladder = s.ladder.high) (q : LinkSt.reqQ link = s.link.reqQ)
    (i : Boot.kept boot = s.boot.kept) :
    Hub.mark ⟨s.regs, hi, stage, bus, owners, s.softReset, pins, time, doms, glbLeft, corks, nextOp, corkShown, waveCrc, tiles, power, harv,
      canes, lanes, cell, rack, trace, taste, digTiles, digExt, digAgain, numwHeld, numw, hang, hangCtl, ladder, fed, link, boot, auth, bist, rel,
      coops, freeCount, store, occs, writes⟩ = s.mark := by
  simp only [Hub.mark, l, q, i]
  rfl

theorem mark_setRegB_key (s : Hub) {a b : Nat} (v : Nat) (status : regKey a b ≠ R.BOOT_STATUS) (result : regKey a b ≠ R.BOOT_BIST_RESULT) :
    (s.setRegB a b v).mark = s.mark := by
  have status' : regKey R.BOOT_STATUS 0 ≠ regKey a b := by rw [regKey_zero]; exact status.symm
  have result' : regKey R.BOOT_BIST_RESULT 0 ≠ regKey a b := by rw [regKey_zero]; exact result.symm
  rw [Hub.mark, Hub.reg, Hub.reg, Hub.regB_setRegB_ne s v status', Hub.regB_setRegB_ne s v result']
  rfl

theorem mark_setReg (s : Hub) {a : Nat} (v : Nat) (k : asideAddr a = true) : (s.setReg a v).mark = s.mark := by
  simp only [asideAddr, Bool.and_eq_true, bne_iff_ne] at k
  exact mark_setRegB_key s v (by rw [regKey_zero]; exact k.1) (by rw [regKey_zero]; exact k.2)

theorem mark_setRegB (s : Hub) {a : Nat} (b v : Nat) (k : pastAddr a = true) : (s.setRegB a b v).mark = s.mark := by
  have k : R.BOOT_BIST_RESULT < a := of_decide_eq_true k
  simp only [R.BOOT_BIST_RESULT] at k
  refine mark_setRegB_key s v ?_ ?_ <;>
  · simp only [regKey, R.BOOT_STATUS, R.BOOT_BIST_RESULT]
    omega

theorem pastAddr_add {a : Nat} (n : Nat) (k : pastAddr a = true) : pastAddr (a + n) = true :=
  decide_eq_true ((of_decide_eq_true k : R.BOOT_BIST_RESULT < a).trans_le (Nat.le_add_right a n))

theorem asideAddr_of_past {a : Nat} (k : pastAddr a = true) : asideAddr a = true := by
  have k : R.BOOT_BIST_RESULT < a := of_decide_eq_true k
  simp only [asideAddr, R.BOOT_BIST_RESULT, R.BOOT_STATUS, Bool.and_eq_true, bne_iff_ne] at *
  omega

theorem asideAddr_add {a : Nat} (n : Nat) (k : pastAddr a = true) : asideAddr (a + n) = true := asideAddr_of_past (pastAddr_add n k)

theorem asideAddr_lane {f : Fld} (n : Nat) (k : pastAddr f.addr = true) : asideAddr (f.lane n).addr = true := asideAddr_add _ k

theorem mark_setReg_add (s : Hub) {a : Nat} (n v : Nat) (k : pastAddr a = true) : (s.setReg (a + n) v).mark = s.mark :=
  mark_setReg s v (asideAddr_add n k)

theorem mark_wr (s : Hub) {f : Fld} (v : Nat) (k : asideAddr f.addr = true) : (s.wr f v).mark = s.mark := mark_setReg s _ k

theorem mark_wr_lane (s : Hub) {f : Fld} (n v : Nat) (k : pastAddr f.addr = true) : (s.wr (f.lane n) v).mark = s.mark :=
  mark_setReg s _ (asideAddr_lane n k)

theorem mark_bump (s : Hub) {f : Fld} (v : Nat) (k : asideAddr f.addr = true) : (s.bump f v).mark = s.mark := mark_wr s _ k

theorem mark_bump_lane (s : Hub) {f : Fld} (n v : Nat) (k : pastAddr f.addr = true) : (s.bump (f.lane n) v).mark = s.mark :=
  mark_wr_lane s n _ k

theorem mark_setReg64 (s : Hub) {a : Nat} (v : Nat) (k : asideAddr a = true) (k' : asideAddr (a + 4) = true) :
    (s.setReg64 a v).mark = s.mark := (mark_setReg _ _ k').trans (mark_setReg s _ k)

theorem mark_setReg64_add (s : Hub) {a : Nat} (n v : Nat) (k : pastAddr a = true) : (s.setReg64 (a + n) v).mark = s.mark :=
  mark_setReg64 s v (asideAddr_add n k) (by rw [Nat.add_assoc]; exact asideAddr_add _ k)

theorem mark_setReg64B (s : Hub) {a : Nat} (b v : Nat) (k : pastAddr a = true) : (s.setReg64B a b v).mark = s.mark :=
  (mark_setRegB _ _ _ (pastAddr_add 4 k)).trans (mark_setRegB s _ _ k)

theorem mark_bump64 (s : Hub) {a : Nat} (n : Nat) (k : asideAddr a = true) (k' : asideAddr (a + 4) = true) : (s.bump64 a n).mark = s.mark :=
  mark_setReg64 s _ k k'

theorem mark_bump64_add (s : Hub) {a : Nat} (n v : Nat) (k : pastAddr a = true) : (s.bump64 (a + n) v).mark = s.mark :=
  mark_setReg64_add s n _ k

theorem mark_wr_page (s : Hub) {f : Fld} (n v : Nat) (status : f.addr % 0x1000 ≠ 0x40) (result : f.addr % 0x1000 ≠ 0x60) :
    (s.wr (f.lane n) v).mark = s.mark := by
  refine mark_wr s v ?_
  simp only [asideAddr, Fld.lane, R.BOOT_STATUS, R.BOOT_BIST_RESULT, Bool.and_eq_true, bne_iff_ne]
  omega

theorem mark_err (s : Hub) (e : ErrBit) : (s.err e).mark = s.mark :=
  (mark_wr_page _ _ _ (by decide) (by decide)).trans (mark_wr_page s _ _ (by decide) (by decide))

theorem mark_raise (s : Hub) (c : Nat) (u : Option Nat) : (s.raise c u).mark = s.mark := mark_mk s rfl rfl rfl

theorem mark_raiseOf (s : Hub) (c u : Nat) : (s.raiseOf c u).mark = s.mark := mark_raise s c _

theorem mark_raiseOther (s : Hub) (c u : Nat) : (s.raiseOther c u).mark = s.mark := mark_mk s rfl rfl rfl

/-- A choice between two changes. -/
theorem mark_ite {c : Prop} [Decidable c] {a b : Hub} (e : b.mark = a.mark) : (if c then a else b).mark = a.mark := by
  split
  · rfl
  · exact e

theorem mark_ite_snd {α : Type} {c : Prop} [Decidable c] {a b : α × Hub} (e : b.2.mark = a.2.mark) :
    (if c then a else b).2.mark = a.2.mark := by
  split
  · rfl
  · exact e

/-- The hub of a result that is taken apart. -/
theorem mark_of_eq {α : Type} {p : α × Hub} {a : α} {h s : Hub} (e : p = (a, h)) (k : p.2.mark = s.mark) : h.mark = s.mark := by
  rwa [e] at k

/-- No level that would restart the hub core begins. -/
theorem low_of_mark {s h : Hub} (e : h.mark = s.mark) (low : s.ladder.high = false) : h.ladder.high = false :=
  (congrArg (fun m => m.2.2.2.1) e).trans low

theorem mark_doEach {α : Type} {f : Hub → α → Hub} (e : ∀ s a, (f s a).mark = s.mark) (l : List α) (s : Hub) :
    (doEach l s f).mark = s.mark := doEach_same Hub.mark f e l s

/-!
### The functions of the model

Each lemma says of one function that it keeps the mark. The rewriting goes from the outside in (`↓`), so a proof names the function's steps and
never looks into the values they compute; where a function chooses by a match, the cases are split first.
-/

/-! ### Machine/Ops.lean -/

theorem mark_setDom (s : Hub) (i : Nat) (d : Domain) : (s.setDom i d).mark = s.mark := by
  simp only [Hub.setDom, ↓mark_mk]

theorem mark_setTile (s : Hub) (t : Nat) (x : Tile) : (s.setTile t x).mark = s.mark := by
  simp only [Hub.setTile, ↓mark_mk]

theorem mark_setCane (s : Hub) (c : Nat) (x : CaneSt) : (s.setCane c x).mark = s.mark := by
  simp only [Hub.setCane, ↓mark_mk]

theorem mark_setLane (s : Hub) (l : Nat) (x : LaneSt) : (s.setLane l x).mark = s.mark := by
  simp only [Hub.setLane, ↓mark_mk]

theorem mark_setMon (s : Hub) (i : Nat) (m : Monitor) : (s.setMon i m).mark = s.mark := by
  simp only [Hub.setMon, ↓mark_mk]

theorem mark_setCoop (s : Hub) (c : Nat) (x : Cooper) : (s.setCoop c x).mark = s.mark := by
  simp only [Hub.setCoop, ↓mark_mk]

theorem mark_setTend (s : Hub) (t : Nat) (x : Tendril) : (s.setTend t x).mark = s.mark := by
  simp only [Hub.setTend, ↓mark_mk]

theorem mark_put (s : Hub) (sp : Space) (a : Nat) (bs : List Byte) : (s.put sp a bs).mark = s.mark := by
  simp only [Hub.put, ↓mark_mk]

theorem mark_putSram (s : Hub) (t a : Nat) (bs : List Byte) : (s.putSram t a bs).mark = s.mark := by
  simp only [Hub.putSram, ↓mark_put]

theorem mark_putScan (s : Hub) (t a : Nat) (bs : List Byte) : (s.putScan t a bs).mark = s.mark := by
  simp only [Hub.putScan, ↓mark_put]

theorem mark_putMem (s : Hub) (a : Nat) (bs : List Byte) : (s.putMem a bs).mark = s.mark := by
  simp only [Hub.putMem, ↓mark_put]

theorem mark_drawWord (s : Hub) : s.drawWord.2.mark = s.mark := by
  simp only [Hub.drawWord, ↓mark_mk]

theorem mark_raiseLimited (s : Hub) (last : Option Nat) (code : Nat) (unit : Option Nat) :
    (s.raiseLimited last code unit).1.mark = s.mark := by
  unfold Hub.raiseLimited
  split
  · split <;> rfl
  · rfl

/-! ### Machine/Operands.lean -/

theorem mark_setOrigin (s : Hub) (part : Nat) (g : Int) : (s.setOrigin part g).mark = s.mark := by
  simp (decide := true) only [Hub.setOrigin, ↓mark_ite, ↓mark_wr]

/-! ### Machine/Messages.lean -/

theorem mark_portSend (s : Hub) (m : List Byte) : (s.portSend m).mark = s.mark := by
  simp only [Hub.portSend, ↓mark_mk]

theorem mark_portRespond (s : Hub) (tag type respType : Nat) (final : Bool) (body : List Byte) :
    (s.portRespond tag type respType final body).mark = s.mark := by
  simp only [Hub.portRespond, ↓mark_mk, ↓mark_portSend]

/-! ### Machine/Frames.lean -/

theorem mark_emit (s : Hub) (t : Nat) (f : List Byte) : (s.emit t f).mark = s.mark := by
  simp only [Hub.emit, ↓mark_setTend]

theorem mark_send0 (s : Hub) (t type b1 b23 : Nat) (payload : List Byte) : (s.send0 t type b1 b23 payload).mark = s.mark := by
  simp only [Hub.send0, ↓mark_emit]

theorem mark_flood0 (s : Hub) (except : Option Nat) (type b1 b23 : Nat) (payload : List Byte) :
    (s.flood0 except type b1 b23 payload).mark = s.mark := by
  simp only [Hub.flood0, ↓mark_doEach, ↓mark_send0, implies_true]

theorem mark_send2 (s : Hub) (t type dest : Nat) (payload : List Byte) : (s.send2 t type dest payload).mark = s.mark := by
  simp only [Hub.send2, ↓mark_ite, ↓mark_setTend]

theorem mark_flood2 (s : Hub) (except : Option Nat) (type : Nat) (payload : List Byte) : (s.flood2 except type payload).mark = s.mark := by
  simp only [Hub.flood2, ↓mark_doEach, ↓mark_send2, implies_true]

theorem mark_sendTo (s : Hub) (dest type : Nat) (payload : List Byte) : (s.sendTo dest type payload).mark = s.mark := by
  unfold Hub.sendTo
  split
  · exact mark_flood2 s _ _ _
  split
  · exact mark_send2 s _ _ _ _
  · exact mark_err s _

theorem mark_sendRequest (s : Hub) (dest opcode : Nat) (args : List Byte) (who : RemoteWho) (arg : Nat) :
    (s.sendRequest dest opcode args who arg).mark = s.mark := by
  simp only [Hub.sendRequest, ↓mark_mk, ↓mark_ite, ↓mark_sendTo]

theorem mark_answer (s : Hub) (dest opcode txn status : Nat) (data : List Byte) : (s.answer dest opcode txn status data).mark = s.mark := by
  simp only [Hub.answer, ↓mark_sendTo]

theorem mark_sendSync (s : Hub) (t kind origin : Nat) : (s.sendSync t kind origin).mark = s.mark := by
  simp only [Hub.sendSync, ↓mark_emit]

theorem mark_floodSync (s : Hub) (except : Option Nat) (kind origin : Nat) : (s.floodSync except kind origin).mark = s.mark := by
  simp only [Hub.floodSync, ↓mark_doEach, ↓mark_sendSync, implies_true]

/-! ### Machine/Time.lean -/

theorem mark_traceResync (s : Hub) (reason : Nat) : (s.traceResync reason).mark = s.mark := by
  simp only [Hub.traceResync, ↓mark_mk]

theorem mark_endGrant (s : Hub) (g : Nat) : (s.endGrant g).mark = s.mark := by
  simp only [Hub.endGrant, ↓mark_mk, ↓mark_raiseOf]

theorem mark_traceContext (s : Hub) (slot reason : Nat) : (s.traceContext slot reason).mark = s.mark := by
  simp only [Hub.traceContext, ↓mark_doEach, ↓mark_setTile, implies_true]

theorem mark_traceGrants (s old : Hub) : (s.traceGrants old).mark = s.mark := by
  simp (maxDischargeDepth := 9) (decide := true) only [Hub.traceGrants, ↓mark_ite, ↓mark_doEach, ↓mark_wr, ↓mark_raise, ↓mark_traceResync,
    ↓mark_traceContext, implies_true]

theorem mark_endAbsGrants (s : Hub) : s.endAbsGrants.mark = s.mark := by
  simp only [Hub.endAbsGrants, ↓mark_doEach, ↓mark_endGrant, ↓mark_traceGrants, implies_true]

theorem mark_loadGcn (s : Hub) (value epoch : Nat) : (s.loadGcn value epoch).mark = s.mark := by
  simp (decide := true) only [Hub.loadGcn, ↓mark_mk, ↓mark_ite, ↓mark_wr, ↓mark_setOrigin]

theorem mark_enterEpoch (s : Hub) (e epoch : Nat) : (s.enterEpoch e epoch).mark = s.mark := by
  simp only [Hub.enterEpoch, ↓mark_mk, ↓mark_raiseOf, ↓mark_traceResync, ↓mark_endAbsGrants, ↓mark_loadGcn]

theorem mark_establish (s : Hub) (epoch : Nat) : (s.establish epoch).mark = s.mark := by
  simp only [Hub.establish, ↓mark_floodSync, ↓mark_enterEpoch]

/-! ### Machine/Cork.lean -/

theorem mark_patternOf (s : Hub) (slot ga mask bare : Nat) : (s.patternOf slot ga mask bare).mark = s.mark := by
  simp only [Hub.patternOf, ↓mark_setDom]

theorem mark_pattern (s : Hub) (slot ga mask : Nat) : (s.pattern slot ga mask).mark = s.mark := by
  simp only [Hub.pattern, ↓mark_patternOf]

theorem mark_anchorTake (s : Hub) (slot hub mask : Nat) : (s.anchorTake slot hub mask).mark = s.mark := by
  simp only [Hub.anchorTake, ↓mark_ite, ↓mark_setDom, ↓mark_flood0, ↓mark_pattern]

theorem mark_restall (s : Hub) (slot ga : Nat) : (s.restall slot ga).mark = s.mark := by
  simp (maxDischargeDepth := 9) only [Hub.restall, ↓mark_ite, ↓mark_setDom, ↓mark_sendRequest, ↓mark_patternOf, ↓mark_anchorTake]

theorem mark_manualSet (s : Hub) (slot mask duration : Nat) : (s.manualSet slot mask duration).mark = s.mark := by
  simp only [Hub.manualSet, ↓mark_setDom, ↓mark_restall]

theorem mark_manualClear (s : Hub) (slot : Nat) : (s.manualClear slot).mark = s.mark := by
  simp only [Hub.manualClear, ↓mark_setDom, ↓mark_restall]

theorem mark_wave (s : Hub) (t : Nat) (w : SpurWave) : (s.wave t w).mark = s.mark := by
  simp only [Hub.wave, ↓mark_setTile]

theorem mark_waveSlot (s : Hub) (slot : Nat) (w : SpurWave) : (s.waveSlot slot w).mark = s.mark := by
  simp only [Hub.waveSlot, ↓mark_doEach, ↓mark_wave, implies_true]

theorem mark_clearReports (s : Hub) (slot : Nat) : (s.clearReports slot).mark = s.mark := by
  simp only [Hub.clearReports, ↓mark_doEach, ↓mark_setTile, implies_true]

theorem mark_startStop (s : Hub) (a : CorkArgs) (slot : Nat) : (s.startStop a slot).mark = s.mark := by
  unfold Hub.startStop
  dsimp only
  split <;> simp only [↓mark_setDom, ↓mark_waveSlot, ↓mark_clearReports]

theorem mark_startRun (s : Hub) (slot gs : Nat) (count : Option Nat) : (s.startRun slot gs count).mark = s.mark := by
  unfold Hub.startRun
  dsimp only
  split <;> simp only [↓mark_setDom, ↓mark_restall, ↓mark_waveSlot, ↓mark_clearReports]

theorem mark_showResult (s : Hub) (slot : Nat) : (s.showResult slot).mark = s.mark := by
  simp (decide := true) only [Hub.showResult, ↓mark_setReg64]

theorem mark_corkStatus (s : Hub) (op status final : Nat) (done already : Bool) : (s.corkStatus op status final done already).mark = s.mark := by
  simp (decide := true) only [Hub.corkStatus, ↓mark_setReg]

theorem mark_raiseScn (s : Hub) (code unit scn : Nat) : (s.raiseScn code unit scn).mark = s.mark := by
  simp only [Hub.raiseScn, ↓mark_mk]

theorem mark_corkEvent (s : Hub) (op slot : Nat) : (s.corkEvent op slot).mark = s.mark := by
  simp only [Hub.corkEvent, ↓mark_ite, ↓mark_raiseScn]

theorem mark_corkTell (s : Hub) (c : CorkOp) (final : Nat) (aborted : Bool) : (s.corkTell c final aborted).mark = s.mark := by
  unfold Hub.corkTell
  dsimp only
  split <;> simp only [↓mark_mk, ↓mark_ite, ↓mark_setMon, ↓mark_portRespond, ↓mark_sendRequest, ↓mark_showResult, ↓mark_corkStatus]

theorem mark_corkEnd (s : Hub) (c : CorkOp) (final : Nat) : (s.corkEnd c final).mark = s.mark := by
  simp only [Hub.corkEnd, ↓mark_mk, ↓mark_ite, ↓mark_doEach, ↓mark_setDom, ↓mark_corkEvent, ↓mark_corkTell, implies_true]

theorem mark_setCork (s : Hub) (c : CorkOp) : (s.setCork c).mark = s.mark := by
  simp only [Hub.setCork, ↓mark_mk]

theorem mark_corkJoin (s : Hub) (c : CorkOp) : (s.corkJoin c).mark = s.mark := by
  simp only [Hub.corkJoin, ↓mark_ite, ↓mark_corkEnd, ↓mark_setCork]

theorem mark_sendWave (s : Hub) (c : CorkOp) (external : Bool) (except : Option Nat) : (s.sendWave c external except).mark = s.mark := by
  simp only [Hub.sendWave, ↓mark_flood0]

theorem mark_corkStart (s : Hub) (src : CorkSrc) (external : Bool) (op : Nat) (a : CorkArgs) : (s.corkStart src external op a).mark = s.mark := by
  unfold Hub.corkStart
  extract_lets slots live gs loose gate arm wt c begun run waved loose' sent link numbered body
  have run_mark : run.mark = begun.mark := by
    simp only [run]
    split <;> simp only [↓mark_doEach, ↓mark_startStop, ↓mark_startRun, implies_true]
  have sent_mark : sent.mark = s.mark := by
    simp only [sent, loose', waved, begun, ↓mark_mk, ↓mark_ite, ↓mark_doEach, ↓mark_wave, ↓mark_sendWave, run_mark, implies_true]
  simp only [numbered, link, ↓mark_mk, ↓mark_ite, ↓mark_portSend, sent_mark]

theorem mark_corkCancel (s : Hub) (external : Bool) (c : CorkOp) : (s.corkCancel external c).mark = s.mark := by
  unfold Hub.corkCancel
  extract_lets running waved gone told sent link relayed
  have gone_mark : gone.mark = s.mark := by
    simp only [gone, waved, running, ↓mark_mk, ↓mark_doEach, ↓mark_setDom, ↓mark_wave, ↓mark_waveSlot, implies_true]
  have told_mark : told.mark = gone.mark := by
    simp only [told]
    split <;> simp only [↓mark_ite, ↓mark_corkTell, ↓mark_corkStatus]
  simp only [relayed, link, sent, ↓mark_mk, ↓mark_ite, ↓mark_portSend, ↓mark_sendWave, ↓mark_raiseOf, told_mark, gone_mark]

theorem mark_abortOps (s : Hub) (src : CorkSrc) (cs : List CorkOp) : (s.abortOps src cs).mark = s.mark := by
  simp only [Hub.abortOps, ↓mark_mk, ↓mark_doEach, ↓mark_corkJoin, implies_true]

theorem mark_corkIssue (s : Hub) (src : CorkSrc) (external : Bool) (op : Nat) (a : CorkArgs) (mask duration : Nat) :
    (s.corkIssue src external op a mask duration).2.mark = s.mark := by
  unfold Hub.corkIssue
  extract_lets stall check stops waits cancelled
  simp (maxDischargeDepth := 9) only [cancelled, ↓mark_ite_snd, ↓mark_ite, ↓mark_doEach, ↓mark_manualSet, ↓mark_manualClear, ↓mark_corkCancel,
    ↓mark_abortOps,
    ↓mark_corkEvent, ↓mark_corkStart, implies_true]

theorem mark_showCap (s : Hub) : s.showCap.mark = s.mark := by
  simp (decide := true) only [Hub.showCap, ↓mark_wr]

/-! ### Machine/Cane.lean -/

theorem mark_engageBypass (s : Hub) (c : Nat) : (s.engageBypass c).mark = s.mark := by
  unfold Hub.engageBypass
  dsimp only
  split
  · rfl
  split <;> simp only [↓mark_setCane, ↓mark_raiseOf]

theorem mark_turnCane (s : Hub) (c : Nat) (down : Bool) : (s.turnCane c down).mark = s.mark := by
  simp only [Hub.turnCane, ↓mark_ite, ↓mark_setCane]

theorem mark_turnUp (s : Hub) (c : Nat) : (s.turnUp c).mark = s.mark := by
  simp only [Hub.turnUp, ↓mark_ite, ↓mark_turnCane]

/-! ### Machine/Cellar.lean -/

theorem mark_putSuper (s : Hub) (fmtEpoch : Nat) : (s.putSuper fmtEpoch).mark = s.mark := by
  simp only [Hub.putSuper, ↓mark_putMem]

theorem mark_putDesc (s : Hub) (i : Nat) (d : Desc) : (s.putDesc i d).mark = s.mark := by
  simp only [Hub.putDesc, ↓mark_putMem]

theorem mark_putVintage (s : Hub) (e : Nat) (v : Vint) : (s.putVintage e v).mark = s.mark := by
  simp only [Hub.putVintage, ↓mark_mk, ↓mark_putMem]

theorem mark_takeCask (s : Hub) : s.takeCask.2.mark = s.mark := by
  simp (decide := true) only [Hub.takeCask, ↓mark_ite_snd, ↓mark_mk, ↓mark_wr]

theorem mark_takeCasks (s : Hub) (n : Nat) : (s.takeCasks n).2.mark = s.mark := by
  induction n generalizing s with
  | zero => rfl
  | succ n ih =>
    have cask := mark_takeCask s
    unfold Hub.takeCasks
    split
    case h_1 e => rwa [e] at cask
    case h_2 t e =>
      rw [e] at cask
      have rest := ih t
      split
      case h_1 e => exact (e ▸ rest).trans cask
      case h_2 => exact mark_wr s _ (by decide)

theorem mark_freeCask (s : Hub) (c : Nat) : (s.freeCask c).mark = s.mark := by
  simp only [Hub.freeCask, ↓mark_mk, ↓mark_putDesc]

theorem mark_giveBack (s : Hub) (l : List Nat) : (s.giveBack l).mark = s.mark := by
  simp only [Hub.giveBack, ↓mark_doEach, ↓mark_freeCask, implies_true]

theorem mark_rackFail (s : Hub) (r : RackReq) (status : Nat) : (s.rackFail r status).mark = s.mark := by
  simp (decide := true) only [Hub.rackFail, ↓mark_wr, ↓mark_raiseOf]

theorem mark_dropRacks (s : Hub) (v : Nat) : (s.dropRacks v).mark = s.mark := by
  simp only [Hub.dropRacks, ↓mark_mk, ↓mark_doEach, ↓mark_rackFail, implies_true]

theorem mark_removeVintage (s : Hub) (e : Nat) (v : Vint) : (s.removeVintage e v).mark = s.mark := by
  simp only [Hub.removeVintage, ↓mark_mk, ↓mark_putMem, ↓mark_giveBack, ↓mark_dropRacks]

theorem mark_evictOne {s h : Hub} (e : s.evictOne = some h) : h.mark = s.mark := by
  rw [Hub.evictOne] at e
  split at e
  · cases e
    exact (mark_raiseOf _ _ _).trans ((mark_bump _ _ (by decide)).trans (mark_removeVintage s _ _))
  · cases e

theorem mark_makeRoom (n : Nat) (entry : Bool) (k : Nat) (s : Hub) : (Hub.makeRoom n entry k s).2.mark = s.mark := by
  induction k generalizing s with
  | zero => exact mark_wr s _ (by decide)
  | succ k ih =>
    rw [Hub.makeRoom]
    split
    · rfl
    split
    · exact mark_wr s _ (by decide)
    split
    case h_1 e => exact (ih _).trans (mark_evictOne e)
    case h_2 => exact mark_wr s _ (by decide)

theorem mark_setGeo (s : Hub) (g : Geo) : (s.setGeo g).mark = s.mark := by
  simp only [Hub.setGeo, ↓mark_mk]

theorem mark_formatCellar (s : Hub) (g : Geo) : (s.formatCellar g).mark = s.mark := by
  simp (decide := true) only [Hub.formatCellar, ↓mark_mk, ↓mark_doEach, ↓mark_wr, ↓mark_raise, ↓mark_putMem, ↓mark_putSuper, ↓mark_putDesc,
    ↓mark_setGeo, implies_true]

theorem mark_keepEntry (s : Hub) (e : Nat) : (s.keepEntry e).mark = s.mark := by
  rw [Hub.keepEntry]
  split
  · rfl
  split
  · exact ((mark_raiseOf _ _ _).trans (mark_putMem _ _ _)).trans (mark_err s _)
  split
  · exact mark_putMem s _ _
  split
  · split
    · exact ((mark_raiseOf _ _ _).trans (mark_putMem _ _ _)).trans (mark_err s _)
    · exact (mark_raiseOf _ _ _).trans (mark_putMem s _ _)
  · exact mark_mk s rfl rfl rfl

theorem mark_keepCellar (s : Hub) (g : Geo) : (s.keepCellar g).mark = s.mark := by
  simp (decide := true) only [Hub.keepCellar, ↓mark_mk, ↓mark_doEach, ↓mark_setReg, ↓mark_wr, ↓mark_raiseOf, ↓mark_putDesc, ↓mark_setGeo,
    ↓mark_keepEntry, implies_true]

theorem mark_superBad (s : Hub) : s.superBad.mark = s.mark := by
  simp only [Hub.superBad, ↓mark_raiseOf, ↓mark_err]

theorem mark_cellarStartup (s : Hub) (base : Bool) : (s.cellarStartup base).mark = s.mark := by
  unfold Hub.cellarStartup
  dsimp only
  split
  · exact mark_wr s _ (by decide)
  split
  · simp (decide := true) only [↓mark_wr, ↓mark_err]
  split <;> simp (decide := true) only [↓mark_ite, ↓mark_keepCellar, ↓mark_superBad, ↓mark_formatCellar]

theorem mark_issued (s : Hub) (unit : Nat) : (s.issued unit).mark = s.mark := by
  simp only [Hub.issued, ↓mark_mk]

theorem mark_issuedMeta (s : Hub) (who : Nat) : (s.issuedMeta who).mark = s.mark := by
  simp only [Hub.issuedMeta, ↓mark_mk, ↓mark_issued]

/-! ### Machine/Trace.lean -/

theorem mark_endOverflow (s : Hub) (t : Nat) : (s.endOverflow t).mark = s.mark := by
  simp only [Hub.endOverflow, ↓mark_ite, ↓mark_setTile]

theorem mark_emitPacket (s : Hub) (t ts type : Nat) (payload : List Nat) (chained : Bool) :
    (s.emitPacket t ts type payload chained).mark = s.mark := by
  unfold Hub.emitPacket
  dsimp only
  split <;> simp only [↓mark_ite, ↓mark_setTile, ↓mark_endOverflow]

theorem mark_flushBranch (s : Hub) (t : Nat) : (s.flushBranch t).mark = s.mark := by
  simp only [Hub.flushBranch, ↓mark_ite, ↓mark_setTile, ↓mark_emitPacket]

theorem mark_freeze (s : Hub) (bit : Nat) : (s.freeze bit).mark = s.mark := by
  simp (decide := true) only [Hub.freeze, ↓mark_ite, ↓mark_wr, ↓mark_raiseOf]

theorem mark_setFrameBuf (s : Hub) (i : Nat) (f : FrameBuf) : (s.setFrameBuf i f).mark = s.mark := by
  simp only [Hub.setFrameBuf, ↓mark_mk]

theorem mark_traceLost (s : Hub) (cane n : Nat) : (s.traceLost cane n).mark = s.mark := by
  simp (decide := true) only [Hub.traceLost, ↓mark_mk, ↓mark_ite, ↓mark_bump64, ↓mark_raiseLimited, ↓mark_setFrameBuf]

theorem mark_traceDiscard (s : Hub) (cane n : Nat) : (s.traceDiscard cane n).mark = s.mark := by
  simp (decide := true) only [Hub.traceDiscard, ↓mark_bump, ↓mark_setFrameBuf]

theorem mark_postFrame (s : Hub) : s.postFrame.mark = s.mark := by
  unfold Hub.postFrame
  dsimp only
  split <;> simp only [↓mark_mk, ↓mark_ite, ↓mark_freeze]

theorem mark_wrapRing (s : Hub) : s.wrapRing.mark = s.mark := by
  simp (decide := true) only [Hub.wrapRing, ↓mark_mk, ↓mark_ite, ↓mark_wr, ↓mark_raise, ↓mark_setReg64]

theorem mark_frameWritten (s : Hub) (i : Nat) (err : Bool) : (s.frameWritten i err).mark = s.mark := by
  unfold Hub.frameWritten
  dsimp only
  split <;> simp (maxDischargeDepth := 9) (decide := true) only [↓mark_ite, ↓mark_bump64, ↓mark_setReg64, ↓mark_err, ↓mark_putMem, ↓mark_issued,
    ↓mark_freeze, ↓mark_setFrameBuf, ↓mark_traceLost, ↓mark_traceDiscard, ↓mark_postFrame, ↓mark_wrapRing]

theorem mark_closeFrames (s : Hub) : s.closeFrames.mark = s.mark := by
  simp only [Hub.closeFrames, ↓mark_mk]

theorem mark_writeFrames (s : Hub) : s.writeFrames.mark = s.mark := by
  simp only [Hub.writeFrames, ↓mark_doEach, ↓mark_setFrameBuf, ↓mark_frameWritten, implies_true]

theorem mark_hubPacket (s : Hub) (p : List Word) : (s.hubPacket p).2.mark = s.mark := by
  unfold Hub.hubPacket
  split
  · exact mark_bump s _ (by decide)
  split
  · exact mark_setFrameBuf s _ _
  · rfl

theorem mark_trigCork (s : Hub) : s.trigCork.mark = s.mark := by
  simp only [Hub.trigCork, ↓mark_ite, ↓mark_raiseOf, ↓mark_corkIssue]

theorem mark_trigger (s : Hub) (source window : Nat) (tile : Option Nat) : (s.trigger source window tile).mark = s.mark := by
  simp (maxDischargeDepth := 9) (decide := true) only [Hub.trigger, ↓mark_mk, ↓mark_ite, ↓mark_bump, ↓mark_setReg, ↓mark_wr, ↓mark_raise,
    ↓mark_setReg64, ↓mark_freeze, ↓mark_trigCork]

theorem mark_hubTrigger (s : Hub) (source : Nat) : (s.hubTrigger source).mark = s.mark := by
  simp only [Hub.hubTrigger, ↓mark_hubPacket]

theorem mark_traceFlush (s : Hub) : s.traceFlush.mark = s.mark := by
  simp (decide := true) only [Hub.traceFlush, ↓mark_mk, ↓mark_ite, ↓mark_wr, ↓mark_raise, ↓mark_writeFrames]

theorem mark_traceStop (s : Hub) : s.traceStop.mark = s.mark := by
  simp only [Hub.traceStop, ↓mark_ite, ↓mark_doEach, ↓mark_endOverflow, ↓mark_flushBranch, ↓mark_traceFlush, implies_true]

/-! ### Machine/Rack.lean -/

theorem mark_rackQueue (s : Hub) (r : RackReq) : (s.rackQueue r).mark = s.mark := by
  simp only [Hub.rackQueue, ↓mark_mk]

theorem mark_closedRx (s : Hub) (hub vintage flags : Nat) : (s.closedRx hub vintage flags).mark = s.mark := by
  simp only [Hub.closedRx, ↓mark_mk, ↓mark_ite, ↓mark_rackFail, ↓mark_rackQueue]

/-! ### Machine/Link.lean -/

theorem mark_mapLink (s : Hub) {f : LinkSt → LinkSt} (q : (f s.link).reqQ = s.link.reqQ) : (s.mapLink f).mark = s.mark :=
  mark_mk s rfl q rfl

theorem mark_portLoss (s : Hub) (code : Nat) : (s.portLoss code).mark = s.mark := by
  simp only [Hub.portLoss, ↓mark_ite, ↓mark_raiseOf, ↓mark_mapLink]

theorem mark_portEvent (s : Hub) (o : Occ) : (s.portEvent o).mark = s.mark := by
  simp (maxDischargeDepth := 9) only [Hub.portEvent, ↓mark_ite, ↓mark_mapLink, ↓mark_portLoss]

/-! ### Machine/Samples.lean -/

theorem mark_tasteCount (s : Hub) (slot counter : Nat) : (s.tasteCount slot counter).mark = s.mark := by
  simp only [Hub.tasteCount, ↓mark_mk]

theorem mark_setBuf (s : Hub) (b : Nat) (x : SampBuf) : (s.setBuf b x).mark = s.mark := by
  simp only [Hub.setBuf, ↓mark_mk]

theorem mark_endSample (s : Hub) (b outcome : Nat) : (s.endSample b outcome).mark = s.mark := by
  simp only [Hub.endSample, ↓mark_mk, ↓mark_ite, ↓mark_setTile, ↓mark_raiseLimited, ↓mark_tasteCount]

theorem mark_abandonSample (s : Hub) (t : Nat) : (s.abandonSample t).mark = s.mark := by
  rw [Hub.abandonSample]
  split
  · split
    · exact mark_endSample s _ _
    · exact mark_setTile s _ _
  · rfl

/-! ### Machine/Slots.lean -/

theorem mark_digestMiss (s : Hub) (t : Nat) : (s.digestMiss t).mark = s.mark := by
  simp only [Hub.digestMiss, ↓mark_mk, ↓mark_ite]

theorem mark_parkTile (s : Hub) (t : Nat) : (s.parkTile t).mark = s.mark := by
  simp only [Hub.parkTile, ↓mark_setTile, ↓mark_abandonSample, ↓mark_digestMiss]

theorem mark_uncover (s : Hub) (z : Nat) : (s.uncover z).mark = s.mark := by
  simp only [Hub.uncover, ↓mark_mk, ↓mark_traceGrants]

theorem mark_closeSlot (s : Hub) (z : Nat) : (s.closeSlot z).mark = s.mark := by
  simp (decide := true) only [Hub.closeSlot, ↓mark_mk, ↓mark_doEach, ↓mark_setRegB, ↓mark_showCap, ↓mark_parkTile, ↓mark_uncover, implies_true]

/-! ### Machine/Coop.lean -/

theorem mark_disown (s : Hub) (r : Req) : (s.disown r).mark = s.mark := by
  simp only [Hub.disown, ↓mark_mk]

theorem mark_coopHalt (s : Hub) (c cause : Nat) : (s.coopHalt c cause).mark = s.mark := by
  simp (maxDischargeDepth := 9) (decide := true) only [Hub.coopHalt, ↓mark_ite, ↓mark_bump_lane, ↓mark_raiseOf, ↓mark_err, ↓mark_setCoop,
    ↓mark_disown]

theorem mark_coopStart (s : Hub) (c script w1 : Nat) (occ : Occ) : (s.coopStart c script w1 occ).mark = s.mark := by
  simp (decide := true) only [Hub.coopStart, ↓mark_bump_lane, ↓mark_raiseOf, ↓mark_setCoop]

theorem mark_coopTrigger (s : Hub) (c script : Nat) (occ : Occ) : (s.coopTrigger c script occ).mark = s.mark := by
  simp (maxDischargeDepth := 9) (decide := true) only [Hub.coopTrigger, ↓mark_ite, ↓mark_bump_lane, ↓mark_raiseOf, ↓mark_setCoop, ↓mark_coopStart]

theorem mark_coopRelease (s : Hub) : s.coopRelease.mark = s.mark := by
  simp only [Hub.coopRelease, ↓mark_doEach, ↓mark_coopTrigger, implies_true]

theorem mark_coopSend (s : Hub) (o : Occ) : (s.coopSend o).mark = s.mark := by
  simp only [Hub.coopSend, ↓mark_ite, ↓mark_doEach, ↓mark_setCoop, implies_true]

theorem mark_coopSafe (s : Hub) : s.coopSafe.mark = s.mark := by
  simp only [Hub.coopSafe, ↓mark_ite, ↓mark_doEach, ↓mark_coopHalt, implies_true]

/-! ### Machine/Press.lean -/

theorem mark_linkCask (s : Hub) (l c : Nat) : (s.linkCask l c).mark = s.mark := by
  unfold Hub.linkCask
  dsimp only
  split <;> simp only [↓mark_setLane, ↓mark_putDesc]

theorem mark_laneCask (s : Hub) (l : Nat) (tail : Bool) : (s.laneCask l tail).2.mark = s.mark := by
  have cask := mark_takeCask s
  unfold Hub.laneCask
  dsimp only
  split
  · exact mark_setLane s _ _
  · exact mark_setLane s _ _
  split
  case h_1 e => exact mark_of_eq e cask
  case h_2 e =>
    have none := mark_of_eq e cask
    split
    · exact none
    split
    case h_1 e => exact (mark_takeCask _).trans ((mark_evictOne e).trans none)
    case h_2 => exact none

theorem mark_streamPut (s : Hub) (l n pos : Nat) (bs : List Byte) : (s.streamPut l n pos bs).mark = s.mark := by
  induction n generalizing s pos bs with
  | zero => rfl
  | succ n ih =>
    rw [Hub.streamPut]
    split
    · rfl
    · exact (ih _ _ _).trans (mark_putMem s _ _)

theorem mark_lanePour (l : Nat) (tail : Bool) (n : Nat) (s : Hub) (bs : List Byte) : (Hub.lanePour l tail n s bs).2.mark = s.mark := by
  induction n generalizing s bs with
  | zero => rfl
  | succ n ih =>
    rw [Hub.lanePour]
    split
    · rfl
    dsimp only
    split
    · have cask := mark_laneCask s l tail
      split
      case h_1 e => exact mark_of_eq e cask
      case h_2 e => exact (ih _ _).trans ((mark_linkCask _ _ _).trans (mark_of_eq e cask))
    · exact (ih _ _).trans ((mark_setLane _ _ _).trans (mark_putMem s _ _))

theorem mark_laneAppend (s : Hub) (l : Nat) (bs : List Byte) (tail : Bool) : (s.laneAppend l bs tail).2.mark = s.mark := by
  unfold Hub.laneAppend
  extract_lets x todo begun got n old spilled counted
  have got_mark : got.2.mark = s.mark := by
    simp (decide := true) only [got, begun, ↓mark_lanePour, ↓mark_ite, ↓mark_setLane]
  simp (decide := true) only [counted, spilled, old, ↓mark_ite, ↓mark_setLane, ↓mark_bump64, ↓mark_bump64_add, ↓mark_issued, got_mark]

theorem mark_dropSpill (s : Hub) (l : Nat) : (s.dropSpill l).mark = s.mark := by
  rw [Hub.dropSpill]
  dsimp only
  split
  · rfl
  split <;> simp only [↓mark_putDesc, ↓mark_setLane, ↓mark_giveBack]

theorem mark_openStream (s : Hub) (l rows : Nat) : (s.openStream l rows).2.mark = s.mark := by
  rw [Hub.openStream]
  dsimp only
  split
  · rfl
  split
  case h_1 e =>
    refine (mark_setReg_add _ _ _ (by decide)).trans ((mark_setLane _ _ _).trans (mark_of_eq e ?_))
    simp (decide := true) only [↓mark_laneAppend, ↓mark_setLane, ↓mark_wr_lane]
  case h_2 e =>
    refine mark_of_eq e ?_
    simp (decide := true) only [↓mark_laneAppend, ↓mark_setLane, ↓mark_wr_lane]

theorem mark_locate (s : Hub) (l : Nat) (r : Rec) (pos : Nat) (usesRef raw : Bool) : (s.locate l r pos usesRef raw).mark = s.mark := by
  unfold Hub.locate
  dsimp only
  split <;> simp only [↓mark_ite, ↓mark_setLane, ↓mark_streamPut]

theorem mark_closeStream (s : Hub) (l : Nat) : (s.closeStream l).mark = s.mark := by
  unfold Hub.closeStream
  extract_lets x body appended lb put ended y given
  have put_mark : put.mark = s.mark := by
    simp only [put, appended, ↓mark_streamPut, ↓mark_laneAppend]
  have ended_mark : ended.mark = s.mark := by
    simp only [ended]
    split
    · rfl
    split
    · exact (mark_putDesc _ _ _).trans put_mark
    · exact put_mark
  exact (mark_setLane _ _ _).trans ((mark_giveBack _ _).trans ended_mark)

theorem mark_beginRec (s : Hub) (l : Nat) (r : Rec) : (s.beginRec l r).mark = s.mark := by
  simp only [Hub.beginRec, ↓mark_setLane]

theorem mark_laneTake (s : Hub) (l : Nat) : (s.laneTake l).mark = s.mark := by
  rw [Hub.laneTake]
  dsimp only
  split
  · rfl
  split
  · rfl
  split
  · rfl
  · simp only [↓mark_beginRec, ↓mark_setLane, ↓mark_setCane]

theorem mark_countBlock (s : Hub) (l : Nat) (b : DataBlock) (raw : Nat) : (s.countBlock l b raw).mark = s.mark := by
  simp (decide := true) only [Hub.countBlock, ↓mark_ite, ↓mark_bump64_add, ↓mark_bump_lane]

theorem mark_verifyFail (s : Hub) (l : Nat) (ecc : Bool) : (s.verifyFail l ecc).mark = s.mark := by
  simp (decide := true) only [Hub.verifyFail, ↓mark_ite, ↓mark_bump_lane, ↓mark_raiseOf, ↓mark_err, ↓mark_setLane]

theorem mark_verdict (s : Hub) (l : Nat) (b : Option DataBlock) : (s.verdict l b).2.mark = s.mark := by
  unfold Hub.verdict
  dsimp only
  split <;> simp (maxDischargeDepth := 9) only [↓mark_ite_snd, ↓mark_setLane, ↓mark_drawWord, ↓mark_verifyFail]

theorem mark_writeBlock (s : Hub) (l : Nat) (flush : Option Nat) (bad tail : Bool) : (s.writeBlock l flush bad tail).2.mark = s.mark := by
  rw [Hub.writeBlock]
  dsimp only
  split
  · have appended := mark_laneAppend s l
    split
    case h_1 e => exact mark_of_eq e (appended _ _)
    case h_2 e =>
      have appended := mark_of_eq e (appended _ _)
      simp (decide := true) only [↓mark_ite_snd, ↓mark_locate, ↓mark_bump64, ↓mark_setLane, ↓mark_ite, ↓mark_mk, ↓mark_countBlock, appended]
  · rfl

theorem mark_retireLane (s : Hub) (l : Nat) : (s.retireLane l).mark = s.mark := by
  simp only [Hub.retireLane, ↓mark_ite, ↓mark_raiseOf, ↓mark_setLane]

/-! ### Machine/Harvest.lean -/

theorem mark_harvStatus (s : Hub) (op status : Nat) (done : Bool) : (s.harvStatus op status done).mark = s.mark := by
  simp (decide := true) only [Hub.harvStatus, ↓mark_wr]

theorem mark_harvPhase (s : Hub) (p : Nat) : (s.harvPhase p).mark = s.mark := by
  simp (decide := true) only [Hub.harvPhase, ↓mark_wr]

theorem mark_takeNumber (s : Hub) (v : Nat) : (s.takeNumber v).2.mark = s.mark := by
  simp (decide := true) only [Hub.takeNumber, ↓mark_ite_snd, ↓mark_setReg]

theorem mark_harvMembers (s : Hub) (h : HarvReq) (number : Nat) : (s.harvMembers h number).mark = s.mark := by
  simp only [Hub.harvMembers, ↓mark_doEach, ↓mark_sendTo, ↓mark_sendRequest, implies_true]

theorem mark_harvAccept (s : Hub) (h : HarvReq) : (s.harvAccept h).mark = s.mark := by
  unfold Hub.harvAccept
  extract_lets slots num taken number first crash tiles sel caps begun vintage gcn cleared phase started asked link numbered
  have taken_mark : taken.mark = s.mark := mark_takeNumber s _
  have asked_mark : asked.mark = s.mark := by
    simp (decide := true) only [asked, started, phase, cleared, gcn, vintage, begun, ↓mark_ite, ↓mark_mk, ↓mark_setReg, ↓mark_setReg64,
      ↓mark_harvPhase,
      ↓mark_issuedMeta, ↓mark_raiseOf, ↓mark_harvMembers, taken_mark]
  simp (decide := true) only [numbered, link, ↓mark_mk, ↓mark_ite, ↓mark_portSend, asked_mark]

theorem mark_harvRefused (s : Hub) (st : Nat) (h : HarvReq) : (s.harvRefused st h).mark = s.mark := by
  simp (decide := true) only [Hub.harvRefused, ↓mark_ite, ↓mark_wr, ↓mark_raiseOf]

theorem mark_harvIssue (s : Hub) (h : HarvReq) : (s.harvIssue h).2.mark = s.mark := by
  simp only [Hub.harvIssue, ↓mark_ite_snd, ↓mark_harvAccept, ↓mark_harvRefused]

theorem mark_setCursor (s : Hub) (c : Nat) (k : CaneCur) : (s.setCursor c k).mark = s.mark := by
  simp only [Hub.setCursor, ↓mark_mk]

theorem mark_setCap (s : Hub) (t : Nat) (c : TileCap) : (s.setCap t c).mark = s.mark := by
  simp only [Hub.setCap, ↓mark_mk]

theorem mark_noteGap (s : Hub) (region : Bool) (id reason missing line : Nat) : (s.noteGap region id reason missing line).mark = s.mark := by
  simp (decide := true) only [Hub.noteGap, ↓mark_mk, ↓mark_ite, ↓mark_raiseOther, ↓mark_wr, ↓mark_raiseOf]

theorem mark_queuePut (s : Hub) (q : Nat) (r : Rec) : (s.queuePut q r).mark = s.mark := by
  simp only [Hub.queuePut, ↓mark_setCane]

theorem mark_tileGap (s : Hub) (t reason missing line pieces : Nat) (last : Bool) : (s.tileGap t reason missing line pieces last).mark = s.mark := by
  simp only [Hub.tileGap, ↓mark_laneTake, ↓mark_setCap, ↓mark_noteGap, ↓mark_queuePut]

theorem mark_enterSram (s : Hub) (c : Nat) : (s.enterSram c).mark = s.mark := by
  simp only [Hub.enterSram, ↓mark_setCursor]

theorem mark_advance (s : Hub) (c n : Nat) : (s.advance c n).mark = s.mark := by
  induction n generalizing s c with
  | zero => rfl
  | succ n ih =>
    rw [Hub.advance]
    dsimp only
    split
    · rfl
    split
    · split
      · split
        · rfl
        · exact (mark_doEach (fun s m => ih s m) _ _).trans (mark_doEach (fun s m => mark_enterSram s m) _ s)
      · exact mark_setCursor s _ _
    · split
      · split <;>
        · exact (ih _ _).trans ((mark_tileGap _ _ _ _ _ _ _).trans ((mark_setCap _ _ _).trans (mark_setCursor s _ _)))
      · rfl

theorem mark_harvShow (s : Hub) : s.harvShow.mark = s.mark := by
  simp (maxDischargeDepth := 9) only [Hub.harvShow, ↓mark_mk, ↓mark_ite, ↓mark_raiseOf, ↓mark_harvPhase]

theorem mark_phase3 (s : Hub) : s.phase3.mark = s.mark := by
  simp (maxDischargeDepth := 9) only [Hub.phase3, ↓mark_ite, ↓mark_doEach, ↓mark_issued, implies_true]

theorem mark_harvGo (s : Hub) : s.harvGo.mark = s.mark := by
  simp only [Hub.harvGo, ↓mark_harvShow, ↓mark_phase3]

/-! ### Machine/HarvestEnd.lean -/

theorem mark_harvFinish (s : Hub) : s.harvFinish.mark = s.mark := by
  unfold Hub.harvFinish
  extract_lets h final shown dropped phase answered told policy
  have phase_mark : phase.mark = s.mark := by
    simp (decide := true) only [phase, dropped, shown, ↓mark_mk, ↓mark_harvPhase, ↓mark_wr, ↓mark_harvStatus]
  have answered_mark : answered.mark = s.mark := by
    simp only [answered]
    split
    · exact (mark_answer _ _ _ _ _ _).trans phase_mark
    · exact phase_mark
  have told_mark : told.mark = s.mark := by
    simp only [told]
    split
    · exact (mark_portRespond _ _ _ _ _ _).trans answered_mark
    · exact answered_mark
  have policy_mark : policy.mark = s.mark := by
    simp only [policy]
    split
    · exact (mark_setMon _ _ _).trans told_mark
    · exact told_mark
  split
  · exact (mark_mk policy rfl rfl rfl).trans policy_mark
  · exact policy_mark

theorem mark_harvOwn (s : Hub) (final : Nat) : (s.harvOwn final).mark = s.mark := by
  simp only [Hub.harvOwn, ↓mark_mk]

theorem mark_harvJoin (s : Hub) : s.harvJoin.mark = s.mark := by
  simp only [Hub.harvJoin, ↓mark_ite, ↓mark_harvFinish]

theorem mark_harvDrop (s : Hub) (final : Nat) : (s.harvDrop final).mark = s.mark := by
  simp (decide := true) only [Hub.harvDrop, ↓mark_mk, ↓mark_setReg, ↓mark_wr, ↓mark_raiseOf, ↓mark_harvOwn, ↓mark_harvJoin]

theorem mark_latchSnap (s : Hub) : s.latchSnap.mark = s.mark := by
  simp (decide := true) only [Hub.latchSnap, ↓mark_mk, ↓mark_ite, ↓mark_wr, ↓mark_closeFrames, ↓mark_writeFrames]

theorem mark_startState (s : Hub) : s.startState.mark = s.mark := by
  unfold Hub.startState
  extract_lets ts quiet noisy latched cols old drained started
  have quiet_mark : quiet.mark = s.mark := mark_doEach (fun s t => mark_setCap s t _) _ s
  have noisy_mark : noisy.mark = s.mark := by
    simp only [noisy]
    split
    · exact (mark_raiseOf _ _ _).trans quiet_mark
    · exact quiet_mark
  have started_mark : started.mark = s.mark := by
    simp only [started, drained, latched, ↓mark_mk, ↓mark_doEach, ↓mark_setCursor, ↓mark_latchSnap, noisy_mark, implies_true]
  exact (mark_harvGo _).trans ((mark_doEach (fun s c => mark_advance s c _) _ _).trans started_mark)

theorem mark_drainCheck (s : Hub) : s.drainCheck.mark = s.mark := by
  simp only [Hub.drainCheck, ↓mark_ite, ↓mark_startState]

theorem mark_laneOpened (s : Hub) (l : Nat) : (s.laneOpened l).2.mark = s.mark := by
  rw [Hub.laneOpened]
  dsimp only
  split
  · rfl
  have opened (rows : Nat) : (s.openStream l rows).2.mark = s.mark := mark_openStream s l rows
  split
  · exact opened _
  have room (n : Nat) := mark_makeRoom n false 1025 s
  split
  case h_1 e => exact mark_of_eq e (room _)
  case h_2 e =>
    have room := mark_of_eq e (room _)
    split
    case h_1 e => exact (mark_openStream _ _ _).trans ((mark_setLane _ _ _).trans ((mark_of_eq e (mark_takeCasks _ _)).trans room))
    case h_2 e => exact (mark_of_eq e (mark_takeCasks _ _)).trans room

theorem mark_setRegion (s : Hub) (r : RegionCap) : (s.setRegion r).mark = s.mark := by
  simp only [Hub.setRegion, ↓mark_mk]

theorem mark_regionDone (s : Hub) (r : RegionCap) : (s.regionDone r).mark = s.mark := by
  simp (decide := true) only [Hub.regionDone, ↓mark_setReg64B, ↓mark_setRegion]

theorem mark_recordDone (s : Hub) (r : Rec) : (s.recordDone r).mark = s.mark := by
  rw [Hub.recordDone]
  split
  · split
    · simp (decide := true) only [↓mark_ite, ↓mark_regionDone, ↓mark_setRegion]
    · rfl
  · rfl
  · rfl
  · simp (decide := true) only [↓mark_ite, ↓mark_bump, ↓mark_setCap]

theorem mark_tailGap (s : Hub) (l : Nat) (r : Rec) (ofTile : Bool) : (s.tailGap l r ofTile).mark = s.mark := by
  rw [Hub.tailGap]
  have opened := mark_laneOpened s l
  split
  case h_1 e => exact (mark_dropSpill _ _).trans (mark_of_eq e opened)
  case h_2 e =>
    have opened := mark_of_eq e opened
    dsimp only
    split
    case h_1 e => exact (mark_dropSpill _ _).trans ((mark_of_eq e (mark_laneAppend _ _ _ _)).trans ((mark_verdict _ _ _).trans opened))
    case h_2 e =>
      have appended := (mark_of_eq e (mark_laneAppend _ _ _ _)).trans ((mark_verdict _ _ _).trans opened)
      simp (decide := true) only [↓mark_bump64, ↓mark_setLane, ↓mark_ite, ↓mark_setCap, ↓mark_countBlock, appended]

theorem mark_endTile (s : Hub) (reason t : Nat) : (s.endTile reason t).mark = s.mark := by
  simp only [Hub.endTile, ↓mark_ite, ↓mark_noteGap, ↓mark_tailGap]

theorem mark_endRegion (s : Hub) (reason : Nat) (r : RegionCap) : (s.endRegion reason r).mark = s.mark := by
  simp only [Hub.endRegion, ↓mark_ite, ↓mark_noteGap, ↓mark_setRegion, ↓mark_tailGap]

theorem mark_dropQueues (s : Hub) : s.dropQueues.mark = s.mark := by
  simp only [Hub.dropQueues, ↓mark_mk]

theorem mark_endSnap (s : Hub) : s.endSnap.mark = s.mark := by
  simp (decide := true) only [Hub.endSnap, ↓mark_mk, ↓mark_wr]

theorem mark_laneStop (s : Hub) (l : Nat) : (s.laneStop l).mark = s.mark := by
  rw [Hub.laneStop]
  dsimp only
  split
  · exact mark_dropSpill s l
  have opened := mark_laneOpened s l
  split
  case h_1 e => exact (mark_dropSpill _ _).trans (mark_of_eq e opened)
  case h_2 e =>
    have opened := mark_of_eq e opened
    split
    case h_1 e => exact (mark_recordDone _ _).trans ((mark_of_eq e (mark_writeBlock _ _ _ _ _)).trans ((mark_verdict _ _ _).trans opened))
    case h_2 e => exact (mark_dropSpill _ _).trans ((mark_of_eq e (mark_writeBlock _ _ _ _ _)).trans ((mark_verdict _ _ _).trans opened))

theorem mark_harvEnd (s : Hub) (reason final : Nat) : (s.harvEnd reason final).mark = s.mark := by
  rw [Hub.harvEnd]
  split
  · rfl
  split
  · exact mark_harvDrop s _
  have lanes : (doEach s.lanesUp s (if reason == Gp.TAKEOVER then Hub.dropSpill else Hub.laneStop)).mark = s.mark := by
    split
    · exact mark_doEach mark_dropSpill _ s
    · exact mark_doEach mark_laneStop _ s
  simp (decide := true) only [↓mark_wr, ↓mark_harvPhase, ↓mark_doEach, ↓mark_endRegion, ↓mark_endTile, ↓mark_tailGap, ↓mark_mk, ↓mark_endSnap,
    ↓mark_dropQueues,
    lanes, implies_true]

theorem mark_putManifest (s : Hub) (rec_ : List Byte) : (s.putManifest rec_).2.mark = s.mark := by
  simp only [Hub.putManifest, ↓mark_doEach, ↓mark_putMem, ↓mark_putDesc, ↓mark_giveBack, implies_true]

theorem mark_lanesEnd (s : Hub) : s.lanesEnd.mark = s.mark := by
  simp (maxDischargeDepth := 9) only [Hub.lanesEnd, ↓mark_ite, ↓mark_doEach, ↓mark_setLane, ↓mark_retireLane, implies_true]

theorem mark_announceClose (s : Hub) (vintage flags : Nat) : (s.announceClose vintage flags).mark = s.mark := by
  simp only [Hub.announceClose, ↓mark_doEach, ↓mark_sendRequest, ↓mark_closedRx, implies_true]

theorem mark_harvDone (s : Hub) (err : Bool) : (s.harvDone err).mark = s.mark := by
  simp (maxDischargeDepth := 9) (decide := true) only [Hub.harvDone, ↓mark_mk, ↓mark_ite, ↓mark_doEach, ↓mark_wr, ↓mark_setReg64, ↓mark_raiseOf,
    ↓mark_err, ↓mark_putMem, ↓mark_putSuper, ↓mark_putVintage, ↓mark_giveBack, ↓mark_closeStream, ↓mark_harvOwn, ↓mark_harvJoin, ↓mark_harvDrop,
    ↓mark_endSnap, ↓mark_putManifest, ↓mark_lanesEnd, ↓mark_announceClose, implies_true]

/-! ### Machine/Decant.lean -/

theorem mark_decantLetGo (s : Hub) : s.decantLetGo.mark = s.mark := by
  rw [Hub.decantLetGo]
  have lanes : (doEach s.lanesUp s fun s l => if (s.lane l).mode == 2 then s.setLane l { s.lane l with mode := 0 } else s).mark = s.mark := by
    simp only [↓mark_doEach, ↓mark_ite, ↓mark_setLane, implies_true]
  dsimp only
  split
  · exact (mark_mk _ rfl rfl rfl).trans lanes
  · exact lanes

theorem mark_decantEnd (s : Hub) : s.decantEnd.mark = s.mark := by
  simp (decide := true) only [Hub.decantEnd, ↓mark_mk, ↓mark_ite, ↓mark_doEach, ↓mark_raiseOther, ↓mark_wr, ↓mark_setDom, ↓mark_turnUp,
    ↓mark_harvStatus, ↓mark_harvPhase, ↓mark_decantLetGo, implies_true]

/-! ### Machine/Hang.lean -/

theorem mark_hangLast (s : Hub) (z kind : Nat) (tile : Option Nat) (all : Bool) (delta : Int) : (s.hangLast z kind tile all delta).mark = s.mark := by
  unfold Hub.hangLast
  dsimp only
  split <;> simp (decide := true) only [↓mark_setReg, ↓mark_setReg64]

theorem mark_hangFire (s : Hub) (z policy code : Nat) (tile : Option Nat) : (s.hangFire z policy code tile).mark = s.mark := by
  simp only [Hub.hangFire, ↓mark_ite, ↓mark_setMon]

theorem mark_diverge (s : Hub) (z kind code : Nat) (tile : Option Nat) (delta : Int) : (s.diverge z kind code tile delta).mark = s.mark := by
  simp only [Hub.diverge, ↓mark_hangLast, ↓mark_hangFire]

theorem mark_takeReports (s : Hub) : s.takeReports.mark = s.mark := by
  simp only [Hub.takeReports, ↓mark_mk, ↓mark_ite, ↓mark_doEach, ↓mark_diverge, implies_true]

theorem mark_fence (s : Hub) (z : Nat) : (s.fence z).mark = s.mark := by
  simp only [Hub.fence, ↓mark_ite, ↓mark_setMon]

/-! ### Machine/Reset.lean -/

theorem mark_startReset (s : Hub) (t : Nat) : (s.startReset t).mark = s.mark := by
  simp only [Hub.startReset, ↓mark_setTile, ↓mark_abandonSample, ↓mark_digestMiss]

theorem mark_lastTile (s : Hub) (t : Nat) (failed : Bool) (reason : Nat) : (s.lastTile t failed reason).mark = s.mark := by
  simp (decide := true) only [Hub.lastTile, ↓mark_setReg]

theorem mark_isolate (s : Hub) (t why : Nat) : (s.isolate t why).mark = s.mark := by
  simp only [Hub.isolate, ↓mark_ite, ↓mark_setTile, ↓mark_startReset]

theorem mark_setResult (s : Hub) (target unit : Nat) (r : BistRes) : (s.setResult target unit r).mark = s.mark := by
  simp only [Hub.setResult, ↓mark_mk]

theorem mark_freeBytes (n : Nat) (s : Hub) : (Hub.freeBytes n s).2.mark = s.mark := by
  induction n generalizing s with
  | zero => rfl
  | succ n ih => exact (ih _).trans (mark_drawWord s)

theorem mark_bistStart (s : Hub) (r : Run) : (s.bistStart r).mark = s.mark := by
  rw [Hub.bistStart]
  refine (mark_raiseOf _ _ _).trans ?_
  dsimp only
  split <;> simp only [↓mark_mk, ↓mark_setTile, ↓mark_putScan, ↓mark_putSram, ↓mark_freeBytes, ↓mark_abandonSample, ↓mark_digestMiss]

theorem mark_bistReturn (s : Hub) (r : Run) : (s.bistReturn r).mark = s.mark := by
  unfold Hub.bistReturn
  dsimp only
  split <;> simp only [↓mark_setTile, ↓mark_startReset]

theorem mark_endDown (s : Hub) (c : Nat) : (s.endDown c).mark = s.mark := by
  simp only [Hub.endDown, ↓mark_ite, ↓mark_turnUp]

theorem mark_dropRun (s : Hub) (r : Run) : (s.dropRun r).mark = s.mark := by
  simp only [Hub.dropRun, ↓mark_mk, ↓mark_ite, ↓mark_endDown]

theorem mark_abortRun (s : Hub) (r : Run) : (s.abortRun r).mark = s.mark := by
  simp (decide := true) only [Hub.abortRun, ↓mark_ite, ↓mark_wr, ↓mark_raiseOf, ↓mark_setTile, ↓mark_lastTile, ↓mark_setResult, ↓mark_bistReturn,
    ↓mark_dropRun]

theorem mark_abortRuns (s : Hub) : s.abortRuns.mark = s.mark := by
  simp only [Hub.abortRuns, ↓mark_doEach, ↓mark_abortRun, implies_true]

/-! ### Machine/Tasting.lean -/

theorem mark_assignTasters (s : Hub) : s.assignTasters.mark = s.mark := by
  refine mark_doEach (fun s b => ?_) _ s
  dsimp only
  split
  · exact mark_setBuf s _ _
  · rfl

theorem mark_tasteLast (s : Hub) (b : List Byte) (corkStatus : Nat) : (s.tasteLast b corkStatus).mark = s.mark := by
  simp (decide := true) only [Hub.tasteLast, ↓mark_setReg, ↓mark_setReg64]

theorem mark_keepEvidence (s : Hub) (b : List Byte) (want : Result) : (s.keepEvidence b want).mark = s.mark := by
  simp (decide := true) only [Hub.keepEvidence, ↓mark_mk, ↓mark_ite, ↓mark_wr, ↓mark_raiseOf]

theorem mark_stopSlot (s : Hub) (src : CorkSrc) (z : Nat) : (s.stopSlot src z).2.mark = s.mark := by
  simp only [Hub.stopSlot, ↓mark_corkIssue]

theorem mark_tasteMismatch (s : Hub) (bufNo : Nat) (want : Result) (diffs : List (Nat × Nat × Nat)) (unconfirmed : Bool) :
    (s.tasteMismatch bufNo want diffs unconfirmed).mark = s.mark := by
  unfold Hub.tasteMismatch
  extract_lets x b counted action r last d conv c elem at_ got shown acted
  have acted_mark : acted.mark = s.mark := by
    simp (decide := true) only [acted, shown, got, at_, last, r, counted, ↓mark_ite, ↓mark_ite_snd, ↓mark_keepEvidence, ↓mark_raiseOf, ↓mark_setReg,
      ↓mark_tasteLast, ↓mark_stopSlot, ↓mark_tasteCount]
  exact (mark_endSample _ _ _).trans acted_mark

theorem mark_tasteCompare (s : Hub) (bufNo : Nat) (want : Result) (unconfirmed : Bool) : (s.tasteCompare bufNo want unconfirmed).mark = s.mark := by
  simp only [Hub.tasteCompare, ↓mark_ite, ↓mark_endSample, ↓mark_tasteMismatch]

theorem mark_retireTaster (s : Hub) (n : Nat) : (s.retireTaster n).mark = s.mark := by
  simp only [Hub.retireTaster, ↓mark_mk, ↓mark_raiseOf]

theorem mark_tasteJudge (s : Hub) (bufNo : Nat) : (s.tasteJudge bufNo).mark = s.mark := by
  rw [Hub.tasteJudge]
  dsimp only
  split <;> simp (maxDischargeDepth := 9) only [↓mark_ite, ↓mark_endSample, ↓mark_tasteCompare, ↓mark_retireTaster, ↓mark_err]

theorem mark_tastersGo (s : Hub) : s.tastersGo.mark = s.mark := by
  simp only [Hub.tastersGo, ↓mark_doEach, ↓mark_assignTasters, ↓mark_tasteJudge, implies_true]

/-! ### Machine/Rel.lean -/

theorem mark_degradedCheck (s : Hub) : s.degradedCheck.mark = s.mark := by
  simp (decide := true) only [Hub.degradedCheck, ↓mark_ite, ↓mark_doEach, ↓mark_setReg, ↓mark_raise, ↓mark_raiseOf, implies_true]

theorem mark_enterSafe (s : Hub) (cause : Nat) : (s.enterSafe cause).mark = s.mark := by
  simp (decide := true) only [Hub.enterSafe, ↓mark_mk, ↓mark_ite, ↓mark_doEach, ↓mark_wr, ↓mark_raiseOf, ↓mark_corkEnd, ↓mark_flushBranch,
    ↓mark_abandonSample, ↓mark_coopSafe, implies_true]

theorem mark_standbyLost (s : Hub) : s.standbyLost.mark = s.mark := by
  simp (decide := true) only [Hub.standbyLost, ↓mark_mk, ↓mark_ite, ↓mark_wr, ↓mark_raiseOf]

theorem mark_loseLane (s : Hub) (l : Nat) : (s.loseLane l).mark = s.mark := by
  simp only [Hub.loseLane, ↓mark_ite, ↓mark_raiseOf, ↓mark_setLane, ↓mark_retireLane]

/-! ### Machine/Bist.lean -/

theorem mark_setPack (s : Hub) (n : Nat) (p : Pack) : (s.setPack n p).mark = s.mark := by
  simp only [Hub.setPack, ↓mark_mk]

theorem mark_packReject (s : Hub) (n : Nat) (e : ErrBit) : (s.packReject n e).mark = s.mark := by
  simp only [Hub.packReject, ↓mark_raiseOf, ↓mark_err, ↓mark_setPack]

theorem mark_takePack (s : Hub) (target : Nat) : (s.takePack target).2.mark = s.mark := by
  rw [Hub.takePack]
  split
  · rfl
  split
  · rfl
  split
  · rfl
  · exact mark_packReject s _ _

theorem mark_bistPassed (s : Hub) (r : Run) : (s.bistPassed r).mark = s.mark := by
  rw [Hub.bistPassed]
  split
  · simp (maxDischargeDepth := 9) (decide := true) only [↓mark_ite, ↓mark_wr, ↓mark_mk]
  · exact mark_setLane s _ _
  · exact mark_mk s rfl rfl rfl
  · rfl

theorem mark_bistFailed (s : Hub) (r : Run) (outcome info : Nat) : (s.bistFailed r outcome info).mark = s.mark := by
  rw [Hub.bistFailed]
  split <;> simp (maxDischargeDepth := 9) (decide := true) only [↓mark_ite, ↓mark_mk, ↓mark_wr, ↓mark_standbyLost, ↓mark_enterSafe, ↓mark_loseLane,
    ↓mark_setLane, ↓mark_tastersGo,
    ↓mark_retireTaster, ↓mark_engageBypass, ↓mark_setCane, ↓mark_isolate]

theorem mark_bistEnd (s : Hub) (r : Run) (outcome : Nat) (randomFail : Bool) (info got want : Nat) :
    (s.bistEnd r outcome randomFail info got want).mark = s.mark := by
  simp (decide := true) only [Hub.bistEnd, ↓mark_ite, ↓mark_bump, ↓mark_raiseOf, ↓mark_setResult, ↓mark_bistReturn, ↓mark_dropRun, ↓mark_bistPassed,
    ↓mark_bistFailed]

/-! ### Machine/Ladder.lean -/

theorem mark_mapLadder (s : Hub) {f : Ladder → Ladder} (active : (f s.ladder).active = s.ladder.active)
    (level : (f s.ladder).level = s.ladder.level) : (s.mapLadder f).mark = s.mark :=
  mark_mk s (by rw [Ladder.high, active, level, ← Ladder.high]) rfl rfl

theorem mark_dropCorks (s : Hub) (z : Nat) : (s.dropCorks z).mark = s.mark := by
  simp only [Hub.dropCorks, ↓mark_ite, ↓mark_doEach, ↓mark_corkEnd, ↓mark_setCork, implies_true]

theorem mark_levelFence (s : Hub) (z : Nat) : (s.levelFence z).mark = s.mark := by
  simp only [Hub.levelFence, ↓mark_ite, ↓mark_err, ↓mark_setMon, ↓mark_fence, ↓mark_mapLadder]

theorem mark_unisolate (s : Hub) (t : Nat) : (s.unisolate t).mark = s.mark := by
  simp only [Hub.unisolate, ↓mark_setTile]

theorem mark_levelReset (s : Hub) : s.levelReset.mark = s.mark := by
  simp only [Hub.levelReset, ↓mark_doEach, ↓mark_closeSlot, ↓mark_startReset, ↓mark_mapLadder, ↓mark_dropCorks, ↓mark_unisolate, implies_true]

theorem mark_levelAborts (s : Hub) : s.levelAborts.mark = s.mark := by
  rw [Hub.levelAborts]
  split <;> simp only [↓mark_doEach, ↓mark_abortRun, ↓mark_abortRuns, implies_true]

theorem mark_levelEnds (s : Hub) : s.levelEnds.mark = s.mark := by
  simp only [Hub.levelEnds, ↓mark_ite, ↓mark_traceStop, ↓mark_harvEnd, ↓mark_harvDone, ↓mark_decantEnd, ↓mark_mapLadder]

theorem mark_levelGo (s : Hub) : s.levelGo.mark = s.mark := by
  simp (maxDischargeDepth := 9) only [Hub.levelGo, ↓mark_ite, ↓mark_doEach, ↓mark_mapLadder, ↓mark_levelFence, ↓mark_levelReset, implies_true]

theorem mark_levelStart {s : Hub} (low : s.ladder.high = false) (part slot tile : Nat) : (s.levelStart Lv.CONTEXT part slot tile).mark = s.mark := by
  have chip : (Lv.CONTEXT == Lv.CHIP) = false := rfl
  have cycle : (Lv.CONTEXT == Lv.POWER_CYCLE) = false := rfl
  have begun (f : Ladder → Ladder) (level : (f s.ladder).level = Lv.CONTEXT) : (s.mapLadder f).mark = s.mark :=
    mark_mk s (by rw [low, Ladder.high, level]; exact Bool.and_false _) rfl rfl
  simp (decide := true) only [Hub.levelStart, chip, Bool.false_and, Bool.false_eq_true, if_false, ↓mark_levelGo, ↓mark_levelEnds, ↓mark_levelAborts,
    ↓mark_wr,
    ↓mark_raiseOf, ↓begun]

theorem mark_peerLevelOver (s : Hub) (src : Nat) : (s.peerLevelOver src).mark = s.mark := by
  simp only [Hub.peerLevelOver, ↓mark_mk]

theorem mark_levelReport (s : Hub) (h level : Nat) : (s.levelReport h level).mark = s.mark := by
  simp only [Hub.levelReport, ↓mark_ite, ↓mark_sendRequest, ↓mark_peerLevelOver]

theorem mark_ladderRx {s : Hub} (low : s.ladder.high = false) (src tag : Nat) : (s.ladderRx src Lv.CONTEXT false tag).mark = s.mark := by
  rw [Hub.ladderRx, if_neg Bool.false_ne_true, if_pos (beq_self_eq_true Lv.CONTEXT)]
  split
  · exact mark_levelReport s _ _
  · have noted : (s.mapLadder fun l => { l with reportTo := some src }).mark = s.mark := mark_mapLadder s rfl rfl
    dsimp only
    split
    · exact (mark_mapLadder _ rfl rfl).trans noted
    · refine (mark_levelStart (low_of_mark (s := s) ?_ low) _ _ _).trans ?_ <;>
      exact (mark_mapLadder _ rfl rfl).trans noted

/-! ### Machine/Policy.lean -/

theorem mark_harvStart (s : Hub) (h : HarvReq) : (s.harvStart h).2.mark = s.mark := by
  simp only [Hub.harvStart, ↓mark_ite, ↓mark_harvStatus, ↓mark_harvIssue]

theorem mark_policyEnd (s : Hub) (z status : Nat) : (s.policyEnd z status).mark = s.mark := by
  simp only [Hub.policyEnd, ↓mark_setMon]

theorem mark_policyAt (s : Hub) (z step : Nat) : (s.policyAt z step).mark = s.mark := by
  simp only [Hub.policyAt, ↓mark_setMon]

theorem mark_policyFence (s : Hub) (z : Nat) : (s.policyFence z).mark = s.mark := by
  simp only [Hub.policyFence, ↓mark_setMon, ↓mark_fence, ↓mark_policyAt]

theorem mark_policyLadder {s : Hub} (low : s.ladder.high = false) (z : Nat) : (s.policyLadder z).mark = s.mark := by
  rw [Hub.policyLadder]
  split
  · exact mark_policyEnd s _ _
  split
  · split
    · exact (mark_mapLadder _ rfl rfl).trans (mark_policyAt s _ _)
    · exact mark_policyEnd s _ _
  · have begun := (mark_policyAt (s.mapLadder fun l => { l with next := [], reportTo := none, isolateAfter := (s.mon z).ptile }) z 4).trans
      (mark_mapLadder s rfl rfl)
    exact (mark_levelStart (low_of_mark begun low) _ _ _).trans begun

theorem mark_policyNoHarvest {s : Hub} (low : s.ladder.high = false) (z status : Nat) : (s.policyNoHarvest z status).mark = s.mark := by
  have noted := mark_setMon s z { s.mon z with pstatus := status }
  rw [Hub.policyNoHarvest]
  dsimp only
  split
  · exact (mark_policyLadder (low_of_mark noted low) z).trans noted
  · exact (mark_policyEnd _ _ _).trans noted

theorem mark_policyHarvest {s : Hub} (low : s.ladder.high = false) (z : Nat) : (s.policyHarvest z).mark = s.mark := by
  have offered := mark_harvStart s (s.policyReq z)
  rw [Hub.policyHarvest]
  dsimp only
  split
  · exact (mark_policyAt _ _ _).trans offered
  split
  · exact (mark_setMon _ _ _).trans offered
  · exact (mark_policyNoHarvest (low_of_mark offered low) _ _).trans offered

theorem mark_policyCork (s : Hub) (z : Nat) : (s.policyCork z).mark = s.mark := by
  simp only [Hub.policyCork, ↓mark_ite, ↓mark_corkIssue, ↓mark_policyEnd, ↓mark_policyAt, ↓mark_policyFence]

theorem mark_policyGo {s : Hub} (low : s.ladder.high = false) (z : Nat) : (s.policyGo z).mark = s.mark := by
  rw [Hub.policyGo]
  split
  · simp only [↓mark_ite, ↓mark_policyEnd, ↓mark_fence, ↓mark_policyCork]
  · simp only [↓mark_ite, ↓mark_policyEnd, ↓mark_policyFence]
  · exact mark_policyHarvest low z
  · split
    · exact mark_policyLadder low z
    · exact mark_policyEnd s _ _
  · exact mark_policyEnd s _ _

theorem mark_policies {s : Hub} (low : s.ladder.high = false) (n : Nat) : (s.policies n).mark = s.mark := by
  induction n generalizing s with
  | zero => rfl
  | succ n ih =>
    rw [Hub.policies]
    split
    · exact (ih (low_of_mark (mark_policyGo low _) low)).trans (mark_policyGo low _)
    · rfl

theorem mark_setPeer (s : Hub) (p : Peer) : (s.setPeer p).mark = s.mark := by
  simp only [Hub.setPeer, ↓mark_mk]

theorem mark_peerHarvest (s : Hub) (p : Peer) : (s.peerHarvest p).mark = s.mark := by
  simp only [Hub.peerHarvest, ↓mark_ite, ↓mark_harvStart, ↓mark_setPeer]

theorem mark_peerReset {s : Hub} (low : s.ladder.high = false) (p : Peer) : (s.peerReset p).mark = s.mark := by
  unfold Hub.peerReset
  extract_lets waits asked
  have asked_mark : asked.mark = s.mark := by
    simp only [asked, waits, ↓mark_doEach, ↓mark_sendRequest, ↓mark_setPeer, implies_true]
  exact (mark_ladderRx (low_of_mark asked_mark low) _ _).trans asked_mark

theorem mark_peerGo {s : Hub} (low : s.ladder.high = false) (p : Peer) : (s.peerGo p).mark = s.mark := by
  rw [Hub.peerGo]
  split
  · exact mark_peerHarvest s p
  split
  · exact mark_peerReset low p
  · exact mark_setPeer s _

theorem mark_peers {s : Hub} (low : s.ladder.high = false) (n : Nat) : (s.peers n).mark = s.mark := by
  induction n generalizing s with
  | zero => rfl
  | succ n ih =>
    rw [Hub.peers]
    split
    · exact (ih (low_of_mark (mark_peerGo low _) low)).trans (mark_peerGo low _)
    · rfl

/-! ### Machine/Run.lean -/

theorem mark_traceEvent (s : Hub) (o : Occ) : (s.traceEvent o).mark = s.mark := by
  simp (maxDischargeDepth := 9) only [Hub.traceEvent, ↓mark_mk, ↓mark_ite, ↓mark_hubPacket, ↓mark_trigger, ↓mark_hubTrigger]

theorem mark_setEventBit (s : Hub) (o : Occ) : (s.setEventBit o).mark = s.mark := by
  rw [Hub.setEventBit]
  split
  · refine mark_setReg s _ ?_
    simp only [asideAddr, R.PG_EVENT, R.BOOT_STATUS, R.BOOT_BIST_RESULT, Bool.and_eq_true, bne_iff_ne]
    omega
  · rfl

theorem mark_deliverOne (s : Hub) (o : Occ) : (s.deliverOne o).mark = s.mark := by
  simp only [Hub.deliverOne, ↓mark_ite, ↓mark_portEvent, ↓mark_coopRelease, ↓mark_coopSend, ↓mark_traceEvent, ↓mark_setEventBit]

theorem mark_deliverAll (n : Nat) (s : Hub) : (Hub.deliverAll n s).mark = s.mark := by
  induction n generalizing s with
  | zero => exact mark_mk s rfl rfl rfl
  | succ n ih =>
    rw [Hub.deliverAll]
    split
    · rfl
    · exact (ih _).trans ((mark_doEach mark_deliverOne _ _).trans (mark_mk s rfl rfl rfl))

theorem mark_columnsGo (s : Hub) : s.columnsGo.mark = s.mark := by
  simp only [Hub.columnsGo, ↓mark_ite, ↓mark_doEach, ↓mark_advance, ↓mark_harvGo, implies_true]

theorem mark_closePhase (s : Hub) : s.closePhase.mark = s.mark := by
  simp only [Hub.closePhase, ↓mark_ite, ↓mark_harvPhase]

end Sys2Proof.Machine
end

section
/-! SUPPORT. The end of step 7 and the release. -/

namespace Sys2Proof.Machine

set_option Elab.async false

variable {profiles : Bool} {touched : Nat → Bool}

/-! ### What follows a command leaves BOOT_STATUS and BOOT_BIST_RESULT -/

section
variable {s h : Hub} (e : h.mark = s.mark)
include e

theorem status_of_mark : h.reg R.BOOT_STATUS = s.reg R.BOOT_STATUS := congrArg (fun m => m.1.1) e

theorem result_of_mark : h.reg R.BOOT_BIST_RESULT = s.reg R.BOOT_BIST_RESULT := congrArg (fun m => m.1.2) e

theorem softReset_of_mark : h.softReset = s.softReset := congrArg (fun m => m.2.1) e

theorem reqQ_of_mark : h.link.reqQ = s.link.reqQ := congrArg (fun m => m.2.2.1) e

theorem kept_of_mark : h.boot.kept = s.boot.kept := congrArg (fun m => m.2.2.2.2) e

end

theorem fieldDue_low {s : Hub} (low : s.ladder.high = false) : s.fieldDue = s := by
  rw [Ladder.high] at low
  simp only [Hub.fieldDue, low, Bool.false_and, Bool.false_eq_true, if_false]

theorem mark_ladderGo {s : Hub} (low : s.ladder.high = false) : s.ladderGo.mark = s.mark := by
  have went : (if s.ladder.active && !s.ladder.begun then s.levelGo else s).mark = s.mark := by
    split
    · exact mark_levelGo s
    · rfl
  rw [Hub.ladderGo, fieldDue_low (low_of_mark went low), went]

section
variable {s : Hub} (low : s.ladder.high = false) (soft : s.softReset = []) (reqs : s.link.reqQ = [])
include low soft reqs

/-- What waits in the hub goes on, but for resets of pages, requests of the rack port and a restart of the hub core. -/
theorem mark_follow : s.follow.mark = s.mark := by
  have went : ((s.takeReports.policies 256).peers 256).mark = s.mark := by
    have reports := mark_takeReports s
    have policies := (mark_policies (low_of_mark reports low) 256).trans reports
    exact (mark_peers (low_of_mark policies low) 256).trans policies
  rw [Hub.follow]
  generalize (s.takeReports.policies 256).peers 256 = h at went
  have queue : h.link.reqQ = [] := (reqQ_of_mark went).trans reqs
  have pages : h.softReset = [] := (softReset_of_mark went).trans soft
  have port : Hub.portNext 64 h = h := by
    unfold Hub.portNext
    rw [queue]
  have resets : h.softResets = h := by
    rw [Hub.softResets, pages]
    rfl
  rw [port, resets, mark_closePhase, mark_columnsGo, mark_drainCheck, mark_ladderGo (low_of_mark went low), went]

theorem mark_settle : s.settle.mark = s.mark := by
  have once := mark_follow low soft reqs
  have twice : s.follow.follow.mark = s.mark :=
    (mark_follow (low_of_mark once low) ((softReset_of_mark once).trans soft) ((reqQ_of_mark once).trans reqs)).trans once
  rw [Hub.settle, mark_deliverAll, mark_degradedCheck, twice]

end

theorem rd_of_reg {s h : Hub} {f : Fld} (e : h.reg f.addr = s.reg f.addr) : h.rd f = s.rd f := by
  rw [Hub.reg, Hub.reg] at e
  rw [Hub.rd, Hub.rd, Hub.rdB, Hub.rdB, e]

theorem reg_driven (h : Hub) (st : Store) (a : Nat) : (h.drivePins.commit st).reg a = h.reg a := rfl

/-- What a command leaves in BOOT_STATUS and BOOT_BIST_RESULT is what it wrote there, while nothing waits that would act on them. -/
theorem answers_marked {i : Instr} {s : State} {f : Hub → Hub} (x : exec i s = run f s) (c : s.hub.calm = true)
    (k : (f s.hub).mark.2 = s.hub.mark.2) :
    Answers i s fun t => t.reg R.BOOT_STATUS = (f s.hub).reg R.BOOT_STATUS ∧ t.reg R.BOOT_BIST_RESULT = (f s.hub).reg R.BOOT_BIST_RESULT := by
  obtain ⟨-, -, -, reqs, soft, ladder, -⟩ := calm_parts c
  have low : s.hub.ladder.high = false := by
    rw [Ladder.high]
    rcases ladder with idle | ⟨-, level⟩
    · rw [idle]
      rfl
    · have field : (s.hub.ladder.level == Lv.FIELD) = false := beq_eq_false_iff_ne.mpr level.ne
      have chip : (s.hub.ladder.level == Lv.CHIP) = false := beq_eq_false_iff_ne.mpr (level.trans (by decide)).ne
      rw [field, chip]
      exact Bool.and_false _
  generalize hub : f s.hub = h at k
  have settled : h.settle.mark = h.mark :=
    mark_settle ((congrArg (fun m => m.2.2.1) k).trans low) ((congrArg (fun m => m.1) k).trans soft) ((congrArg (fun m => m.2.1) k).trans reqs)
  refine ⟨{ s with hub := h.settle.drivePins.commit s.hub.store }, by rw [x, run, hub], rfl, ?_, ?_⟩
  · rw [reg_driven, status_of_mark settled]
  · rw [reg_driven, result_of_mark settled]

/-! ### The end of step 7 (R373) -/

theorem mark_bootLogic {s : Hub} (none : s.boot.kept = []) (failed : List Nat) : (s.bootLogic failed).mark = s.mark := by
  have start := mark_cellarStartup s (s.reg64 R.CELL_BASE_LO != 0)
  rw [Hub.bootLogic, none]
  simp (maxDischargeDepth := 9) (decide := true) only [if_true, ↓mark_ite, ↓mark_enterSafe, ↓mark_standbyLost, ↓mark_wr, start]

theorem mark_bootRun (s : Hub) (f : BistFind) : (s.bootRun f).mark = s.mark := by
  have pack := mark_takePack s f.target
  simp (maxDischargeDepth := 9) (decide := true) only [Hub.bootRun, ↓mark_ite, ↓mark_raiseOf, ↓mark_bump, ↓mark_setResult, ↓mark_bistEnd,
    ↓mark_bistStart, pack]

theorem mark_setStep (s : Hub) (n : Nat) : (s.setStep n).mark.2 = s.mark.2 := rfl

/-- The targets among `sel` that `done` names. -/
def bootRan (sel done : List Nat) : List Nat := sel.filter done.contains

/-- What the boot BIST found, among the units of the targets that ran. -/
def Hub.bootFound (s : Hub) (ran : List Nat) (found : List BistFind) : List BistFind :=
  found.filter (fun f => ran.contains f.target && (s.bootUnits f.target).contains f.unit)

/-- The targets with a unit that failed. -/
def bootFailed (ran : List Nat) (found : List BistFind) : List Nat :=
  ran.filter (fun t => found.any (fun f => f.target == t && f.outcome != Bo.PASS))

/-- The hub after the runs of the boot BIST, those cut off included. -/
def Hub.bootTested (s : Hub) (ran cut : List Nat) (found : List BistFind) : Hub :=
  let t := doEach found s Hub.bootRun
  let t := if ran.contains 0 then
      t.bootLogic ((found.filter (fun f => f.target == 0 && f.outcome != Bo.PASS)).map BistFind.unit)
    else t
  doEach cut t (fun s t => doEach (s.bootUnits t) s (fun s u => s.setResult t u { outcome := Bo.NOT_RUN }))

/-- The hub that shows the outcome of the boot BIST. -/
def Hub.bootShown (s : Hub) (ran failed cut : List Nat) : Hub :=
  (((s.wr F.BOOT_BIST_RESULT_RUN (listMask ran)).wr F.BOOT_BIST_RESULT_FAILED (listMask failed)).wr F.BOOT_BIST_RESULT_NOT_RUN
    (listMask cut)).raiseOf Ev.BOOT_BIST_DONE (listMask failed)

/-- The end of step 7, by its parts. -/
theorem endStep7_eq (s : Hub) (done : List Nat) (found : List BistFind) {sel ran cut : List Nat} {found' : List BistFind}
    (targets : maskList 5 (s.rd F.BOOT_BIST_SEL_TARGETS) = sel) (completed : bootRan sel done = ran)
    (rest : sel.filter (fun t => !ran.contains t) = cut) (units : s.bootFound ran found = found') :
    s.endStep7 done found = ((s.bootTested ran cut found').bootShown ran (bootFailed ran found') cut).enterStep8 := by
  subst targets completed rest units
  rfl

theorem mark_bootTested {s : Hub} (none : s.boot.kept = []) (ran cut : List Nat) (found : List BistFind) :
    (s.bootTested ran cut found).mark = s.mark := by
  have runs : (doEach found s Hub.bootRun).mark = s.mark := mark_doEach mark_bootRun found s
  have none' : (doEach found s Hub.bootRun).boot.kept = [] := (kept_of_mark runs).trans none
  have logic := fun failed => (mark_bootLogic none' failed).trans runs
  simp (maxDischargeDepth := 9) only [Hub.bootTested, ↓mark_doEach, ↓mark_setResult, ↓mark_ite, logic, runs, implies_true]

theorem mark_enterStep8 (s : Hub) : s.enterStep8.mark = (s.setStep 8).mark := by
  rw [Hub.enterStep8]
  split
  · exact mark_establish _ _
  · rfl

theorem enterStep8_awaits (s : Hub) : s.enterStep8.mark.2 = s.mark.2 :=
  (congrArg Prod.snd (mark_enterStep8 s)).trans (mark_setStep s 8)

theorem enterStep8_step (s : Hub) : s.enterStep8.rd F.BOOT_STATUS_STEP = 8 := by
  rw [rd_of_reg (f := F.BOOT_STATUS_STEP) (status_of_mark (mark_enterStep8 s))]
  exact Hub.rd_wr _ F.BOOT_STATUS_STEP 8 (by decide)

/-- Step 8 begins without a change of what the boot BIST showed. -/
theorem enterStep8_result (s : Hub) {f : Fld} (result : f.addr = R.BOOT_BIST_RESULT) : s.enterStep8.rd f = s.rd f := by
  have step : (s.setStep 8).reg R.BOOT_BIST_RESULT = s.reg R.BOOT_BIST_RESULT := Hub.reg_wr_ne _ _ _ (by decide)
  refine rd_of_reg ?_
  rw [result, result_of_mark (mark_enterStep8 s), step]

theorem bootShown_awaits (s : Hub) (ran failed cut : List Nat) : (s.bootShown ran failed cut).mark.2 = s.mark.2 := rfl

theorem bootShown_run (s : Hub) (ran failed cut : List Nat) : (s.bootShown ran failed cut).rd F.BOOT_BIST_RESULT_RUN = listMask ran % 32 := by
  rw [Hub.bootShown, Hub.rd_raiseOf, Hub.rd_wr_apart _ _ _ _ (by decide) (by decide), Hub.rd_wr_apart _ _ _ _ (by decide) (by decide),
    Hub.rd_wr _ _ _ (by decide)]
  rfl

theorem bootShown_notRun (s : Hub) (ran failed cut : List Nat) :
    (s.bootShown ran failed cut).rd F.BOOT_BIST_RESULT_NOT_RUN = listMask cut % 32 := by
  rw [Hub.bootShown, Hub.rd_raiseOf, Hub.rd_wr _ _ _ (by decide)]
  rfl

/-! ### Masks of targets -/

theorem listMask_lt {n : Nat} {l : List Nat} (small : ∀ b ∈ l, b < n) : listMask l < 2 ^ n := by
  have step (l : List Nat) (m : Nat) (start : m < 2 ^ n) (small : ∀ b ∈ l, b < n) : l.foldl (fun m b => m ||| 2 ^ b) m < 2 ^ n := by
    induction l generalizing m with
    | nil => exact start
    | cons b l ih =>
      exact ih _ (Nat.or_lt_two_pow start (Nat.pow_lt_pow_right (by decide) (small b List.mem_cons_self)))
        fun c m => small c (List.mem_cons_of_mem _ m)
  exact step l 0 (Nat.two_pow_pos n) small

theorem mem_maskList {n v b : Nat} (m : b ∈ maskList n v) : b < n := List.mem_range.mp (List.mem_filter.mp m).1

theorem listMask_filter_targets (v : Nat) (p : Nat → Bool) : listMask ((maskList 5 v).filter p) % 32 = listMask ((maskList 5 v).filter p) :=
  Nat.mod_eq_of_lt (listMask_lt fun _ m => mem_maskList (List.mem_filter.mp m).1)

theorem listMask_maskList {v : Nat} (small : v < 32) : listMask (maskList 5 v) = v := by
  have all : ∀ v : Fin 32, listMask (maskList 5 v) = v := by decide
  exact all ⟨v, small⟩

/-- The targets cut off are those that were not completed. -/
theorem bootCut_eq (sel done : List Nat) :
    sel.filter (fun t => !(bootRan sel done).contains t) = sel.filter (fun t => !done.contains t) := by
  refine List.filter_congr fun t m => congrArg _ (Bool.eq_iff_iff.mpr ?_)
  simp only [List.contains_iff_mem, bootRan, List.mem_filter, m, true_and]

/-! ### The answer of the end of step 7 -/

theorem Answers.and {i : Instr} {s : State} {p q : Hub → Prop} (a : Answers i s p) (b : Answers i s q) : Answers i s fun t => p t ∧ q t := by
  obtain ⟨t, e, pending, pt⟩ := a
  obtain ⟨u, e', -, qu⟩ := b
  rw [e] at e'
  cases e'
  exact ⟨t, e, pending, pt, qu⟩

/-- A further answer under conditions on the command and the state. -/
theorem Answers.and_of {i : Instr} {s : State} {c : Prop} {p q : Hub → Prop} (a : Answers i s p) (b : c → Answers i s q) :
    Answers i s fun t => p t ∧ (c → q t) := by
  by_cases h : c
  · exact (a.and (b h)).mono fun t ⟨pt, qt⟩ => ⟨pt, fun _ => qt⟩
  · exact a.mono fun t pt => ⟨pt, fun k => absurd k h⟩

/-- A command that ends step 7 with a hub that shows the outcome of the boot BIST. -/
theorem answers_bootShown {i : Instr} {s : State} {f : Hub → Hub} {h : Hub} {ran failed cut : List Nat} (x : exec i s = run f s)
    (e : f s.hub = (h.bootShown ran failed cut).enterStep8) (c : s.hub.calm = true) (tested : h.mark = s.hub.mark) :
    Answers i s fun t => t.rd F.BOOT_STATUS_STEP = 8 ∧ t.rd F.BOOT_BIST_RESULT_RUN = listMask ran % 32 ∧
      t.rd F.BOOT_BIST_RESULT_NOT_RUN = listMask cut % 32 := by
  have awaits : (h.bootShown ran failed cut).enterStep8.mark.2 = s.hub.mark.2 :=
    (enterStep8_awaits _).trans ((bootShown_awaits h ran failed cut).trans (congrArg Prod.snd tested))
  refine (answers_marked x c (by rw [e]; exact awaits)).mono fun t ⟨status, result⟩ => ?_
  rw [e] at status result
  refine ⟨(rd_of_reg (f := F.BOOT_STATUS_STEP) status).trans (enterStep8_step _), (rd_of_reg (f := F.BOOT_BIST_RESULT_RUN) result).trans ?_,
    (rd_of_reg (f := F.BOOT_BIST_RESULT_NOT_RUN) result).trans ?_⟩
  · rw [enterStep8_result _ rfl, bootShown_run]
  · rw [enterStep8_result _ rfl, bootShown_notRun]

/-- What BOOT_BIST_RESULT shows when step 7 has ended. -/
theorem answers_endStep7 {i : Instr} {s : State} {f : Hub → Hub} {done : List Nat} {found : List BistFind} (x : exec i s = run f s)
    (e : f s.hub = s.hub.endStep7 done found) (c : s.hub.calm = true) (none : s.hub.boot.kept = []) :
    Answers i s fun t =>
      t.rd F.BOOT_STATUS_STEP = 8 ∧
      t.rd F.BOOT_BIST_RESULT_RUN = listMask ((maskList 5 (s.hub.rd F.BOOT_BIST_SEL_TARGETS)).filter done.contains) ∧
      t.rd F.BOOT_BIST_RESULT_NOT_RUN = listMask ((maskList 5 (s.hub.rd F.BOOT_BIST_SEL_TARGETS)).filter (fun t => !done.contains t)) := by
  refine (answers_bootShown x (e.trans (endStep7_eq s.hub done found rfl rfl (bootCut_eq _ done) rfl)) c (mark_bootTested none _ _ _)).mono
    fun t ⟨step, run, notRun⟩ => ⟨step, ?_, ?_⟩
  · rw [run, bootRan, listMask_filter_targets]
  · rw [notRun, listMask_filter_targets]

/-! ### The end of step 7 where no run found anything -/

/-- The hub with other results of the self-test. -/
def Hub.setBist (s : Hub) (b : Bist) : Hub := { s with bist := b }

theorem Booted.setBist {s h : Hub} (k : Booted profiles touched s h) (b : Bist) : Booted profiles touched (s.setBist b) (h.setBist b) := by
  refine ⟨?_, k.regs, k.quiet, k.kept, k.plain, k.steps⟩
  have e : (s.setBist b).offBoot (h.setBist b) = (s.offBoot h).setBist b := rfl
  rw [e, k.core]

/-- The targets cut off have results of their own, and nothing else changes. -/
theorem bootCut_bist (s : Hub) (cut : List Nat) :
    ∃ b, (doEach cut s fun s t => doEach (s.bootUnits t) s fun s u => s.setResult t u { outcome := Bo.NOT_RUN }) = s.setBist b := by
  refine doEach_keeps (fun h => ∃ b, h = s.setBist b) _ (fun h t k => ?_) cut s ⟨s.bist, rfl⟩
  refine doEach_keeps (fun h => ∃ b, h = s.setBist b) _ (fun h u k => ?_) _ h k
  obtain ⟨b, rfl⟩ := k
  exact ⟨_, rfl⟩

theorem Booted.bootLogic {s : Hub} (none : s.boot.kept = []) : Booted profiles bootTouched s (s.bootLogic []) := by
  have e : s.bootLogic [] = s.cellarStartup (s.reg64 R.CELL_BASE_LO != 0) := by
    simp only [Hub.bootLogic, none, List.isEmpty_nil, if_true]
  rw [e]
  exact (CellStarted.cellarStartup s _).booted

theorem bootTested_quiet {s : Hub} (none : s.boot.kept = []) (ran cut : List Nat) :
    ∃ b, Booted profiles bootTouched (s.setBist b) (s.bootTested ran cut []) := by
  have logic : Booted profiles bootTouched s (if ran.contains 0 then s.bootLogic [] else s) := by
    split
    · exact .bootLogic none
    · exact .refl s
  obtain ⟨b, e⟩ := bootCut_bist (if ran.contains 0 then s.bootLogic [] else s) cut
  refine ⟨b, ?_⟩
  have parts : s.bootTested ran cut [] = _ := e
  rw [parts]
  exact logic.setBist b

theorem Booted.bootShown (s : Hub) (ran failed cut : List Nat) : Booted profiles bootTouched s (s.bootShown ran failed cut) :=
  (((Booted.wr s _ (by decide)).trans (.wr _ _ (by decide))).trans (.wr _ _ (by decide))).trans (.raise _ _ (by decide))

theorem enterStep8_heard {s : Hub} (heard : s.flag F.TIME_STATE_IS_MASTER = false) : s.enterStep8 = s.setStep 8 := by
  have heard : (s.setStep 8).flag F.TIME_STATE_IS_MASTER = false := by
    rwa [Hub.flag, (Booted.setStep (profiles := false) (touched := bootTouched) s 8 (by decide)).rd _ (by decide)]
  simp only [Hub.enterStep8, heard, Bool.false_and, Bool.false_eq_true, if_false]

/-- A command that ends so with a hub tested by changes of start-up and of the results alone. -/
theorem answers_bootShown_quiet {i : Instr} {s : State} {f : Hub → Hub} {h : Hub} {b : Bist} {ran failed cut : List Nat}
    (x : exec i s = run f s) (e : f s.hub = (h.bootShown ran failed cut).enterStep8) (c : s.hub.calm = true)
    (heard : s.hub.flag F.TIME_STATE_IS_MASTER = false) (k : Booted false bootTouched (s.hub.setBist b) h) :
    Answers i s fun t =>
      s.hub.rest t = { s.hub with boot := t.boot, bist := t.bist, fed := t.fed, cell := t.cell, store := t.store, freeCount := t.freeCount } ∧
      s.hub.keepsOff t [Pg.BOOT, Pg.CELL, Pg.HARV] := by
  have shown := k.trans (.bootShown h ran failed cut)
  have heard : (h.bootShown ran failed cut).flag F.TIME_STATE_IS_MASTER = false := by
    rwa [Hub.flag, shown.rd _ (by decide)]
  rw [enterStep8_heard heard] at e
  have all := shown.trans (.setStep _ 8 (by decide))
  refine answers_booted_from x e rfl all calmKeys_not_bootTouched (g := s.hub.setBist b) c fun t y => ⟨?_, y.keepsOff⟩
  have bist : t.bist = b := congrArg Hub.bist y.rest
  rw [bist]
  exact y.rest_plain all

/-- What the end of step 7 changes where no run found anything, in a hub that is not the master. -/
theorem answers_endStep7_quiet {i : Instr} {s : State} {f : Hub → Hub} {done : List Nat} (x : exec i s = run f s)
    (e : f s.hub = s.hub.endStep7 done []) (c : s.hub.calm = true) (none : s.hub.boot.kept = [])
    (heard : s.hub.flag F.TIME_STATE_IS_MASTER = false) :
    Answers i s fun t =>
      s.hub.rest t = { s.hub with boot := t.boot, bist := t.bist, fed := t.fed, cell := t.cell, store := t.store, freeCount := t.freeCount } ∧
      s.hub.keepsOff t [Pg.BOOT, Pg.CELL, Pg.HARV] := by
  obtain ⟨b, tested⟩ := bootTested_quiet (profiles := false) none (bootRan (maskList 5 (s.hub.rd F.BOOT_BIST_SEL_TARGETS)) done)
    ((maskList 5 (s.hub.rd F.BOOT_BIST_SEL_TARGETS)).filter fun t => !done.contains t)
  exact answers_bootShown_quiet x (e.trans (endStep7_eq s.hub done [] rfl rfl (bootCut_eq _ done) rfl)) c heard tested

/-! ### The commands of the boot BIST (R373, R403) -/

theorem bootBistDone_clause (s : State) (found : List BistFind) (c : s.hub.calm = true) (step : s.hub.inStep 7 = true)
    (none : s.hub.boot.kept = []) :
    Answers (.bootBistDone found) s fun h =>
      h.rd F.BOOT_STATUS_STEP = 8 ∧ h.rd F.BOOT_BIST_RESULT_RUN = s.hub.rd F.BOOT_BIST_SEL_TARGETS ∧ h.rd F.BOOT_BIST_RESULT_NOT_RUN = 0 ∧
      (found = [] → s.hub.flag F.TIME_STATE_IS_MASTER = false → s.hub.rest h = { s.hub with boot := h.boot, bist := h.bist, fed := h.fed, cell := h.cell, store := h.store, freeCount := h.freeCount }) ∧
      (found = [] → s.hub.flag F.TIME_STATE_IS_MASTER = false → s.hub.keepsOff h [Pg.BOOT, Pg.CELL, Pg.HARV]) := by
  have e : s.hub.bootBistDone found = s.hub.endStep7 [0, 1, 2, 3, 4] found := if_pos step
  have small : s.hub.rd F.BOOT_BIST_SEL_TARGETS < 32 := bitsOf_lt _ _ 5
  have every : ∀ t ∈ maskList 5 (s.hub.rd F.BOOT_BIST_SEL_TARGETS), [0, 1, 2, 3, 4].contains t = true := fun t m => by
    have : t < 5 := mem_maskList m
    interval_cases t <;> rfl
  refine ((answers_endStep7 (f := fun h => h.bootBistDone found) rfl e c none).and_of
    (c := found = [] ∧ s.hub.flag F.TIME_STATE_IS_MASTER = false) fun ⟨nothing, heard⟩ =>
      answers_endStep7_quiet (f := fun h => h.bootBistDone found) rfl (by rw [e, nothing]) c none heard).mono
    fun t ⟨⟨step, run, notRun⟩, quiet⟩ => ⟨step, ?_, ?_, fun n m => (quiet ⟨n, m⟩).1, fun n m => (quiet ⟨n, m⟩).2⟩
  · rw [run, List.filter_eq_self.mpr every, listMask_maskList small]
  · rw [notRun, List.filter_eq_nil_iff.mpr fun t m => by rw [every t m]; exact Bool.false_ne_true]
    rfl

theorem bootBistTimeout_clause (s : State) (completed : List (Fin 5)) (found : List BistFind) (c : s.hub.calm = true)
    (step : s.hub.inStep 7 = true) (none : s.hub.boot.kept = [])
    (late : s.hub.elapsed s.hub.boot.stepAt (s.hub.rd F.BOOT_BIST_LIMIT_HCLK) = true) :
    Answers (.bootBistTimeout completed found) s fun h =>
      h.rd F.BOOT_STATUS_STEP = 8 ∧
      h.rd F.BOOT_BIST_RESULT_RUN = listMask ((maskList 5 (s.hub.rd F.BOOT_BIST_SEL_TARGETS)).filter (completed.map Fin.val).contains) ∧
      h.rd F.BOOT_BIST_RESULT_NOT_RUN = listMask ((maskList 5 (s.hub.rd F.BOOT_BIST_SEL_TARGETS)).filter (fun t => !(completed.map Fin.val).contains t)) ∧
      (found = [] → s.hub.flag F.TIME_STATE_IS_MASTER = false → s.hub.rest h = { s.hub with boot := h.boot, bist := h.bist, fed := h.fed, cell := h.cell, store := h.store, freeCount := h.freeCount }) ∧
      (found = [] → s.hub.flag F.TIME_STATE_IS_MASTER = false → s.hub.keepsOff h [Pg.BOOT, Pg.CELL, Pg.HARV]) := by
  have e : s.hub.bootBistTimeout (completed.map Fin.val) found = s.hub.endStep7 (completed.map Fin.val) found := by
    simp only [Hub.bootBistTimeout, step, late, Bool.or_true, Bool.and_self, if_true]
  exact ((answers_endStep7 (f := fun h => h.bootBistTimeout (completed.map Fin.val) found) rfl e c none).and_of
    (c := found = [] ∧ s.hub.flag F.TIME_STATE_IS_MASTER = false) fun ⟨nothing, heard⟩ =>
      answers_endStep7_quiet (f := fun h => h.bootBistTimeout (completed.map Fin.val) found) rfl (by rw [e, nothing]) c none heard).mono
    fun t ⟨⟨step, run, notRun⟩, quiet⟩ => ⟨step, run, notRun, fun n m => (quiet ⟨n, m⟩).1, fun n m => (quiet ⟨n, m⟩).2⟩

/-! ### The release (R373, R374) -/

/-- `h` comes from `s` by changing the registers of the keys, the bus, the pins, and the records of start-up and of the power loop, and by raising events. -/
structure Releases (keys : List Nat) (s h : Hub) : Prop where
  core : { h with regs := s.regs, bus := s.bus, boot := s.boot, power := s.power, pins := s.pins, occs := s.occs } = s
  regs : ∀ a b, regKey a b ∉ keys → h.regB a b = s.regB a b

variable {keys : List Nat}

theorem Releases.trans {s t u : Hub} (h1 : Releases keys s t) (h2 : Releases keys t u) : Releases keys s u := by
  refine ⟨?_, fun a b n => (h2.regs a b n).trans (h1.regs a b n)⟩
  have e : ({ u with regs := s.regs, bus := s.bus, boot := s.boot, power := s.power, pins := s.pins, occs := s.occs } : Hub) =
      { ({ u with regs := t.regs, bus := t.bus, boot := t.boot, power := t.power, pins := t.pins, occs := t.occs } : Hub) with
        regs := s.regs, bus := s.bus, boot := s.boot, power := s.power, pins := s.pins, occs := s.occs } := rfl
  rw [e, h2.core, h1.core]

theorem Releases.wr (s : Hub) {f : Fld} (v : Nat) (k : f.addr ∈ keys) : Releases keys s (s.wr f v) := by
  refine ⟨rfl, fun a b n => Hub.regB_setRegB_ne s _ fun e => n ?_⟩
  rwa [e, regKey_zero]

/-- The registers of the RELEASE scripts of the coopers. -/
def releaseKeys : List Nat := [R.COOP_RUNS, R.COOP_RUNS + 0x1000, R.COOP_EVLOSS, R.COOP_EVLOSS + 0x1000]

/-- What a calm hub `s` becomes by a command whose unit releases it on the way to `h`: `t`. -/
structure ReleaseEffect (keys : List Nat) (s h t : Hub) : Prop where
  rest : s.rest t = { s with boot := h.boot, power := h.power, coops := (s.rest t).coops }
  keeps : s.keeps t (releaseKeys ++ keys)
  regs : ∀ a b, eventKey (regKey a b) = false → regKey a b ∉ releaseKeys → t.regB a b = h.regB a b
  bus : t.bus = h.bus
  tileHold : t.pins.tileHold = h.pins.tileHold
  shows : ∀ o ∈ h.occs, (∀ p i, eventBit o.code (o.unit.getD 0) = some (p, i) → i < 32) → t.shows o.code (o.unit.getD 0) = true

theorem commit_tileHold (h : Hub) (st : Store) : (h.drivePins.commit st).pins.tileHold = h.pins.tileHold := rfl

section
variable {s h : Hub} (k : Releases keys s h)
include k

theorem Releases.same {α : Type} (g : Hub → α)
    (n : ∀ u, g { u with regs := s.regs, bus := s.bus, boot := s.boot, power := s.power, pins := s.pins, occs := s.occs } = g u) :
    g h = g s := (n h).symm.trans (congrArg g k.core)

theorem Releases.rd (f : Fld) (n : f.addr ∉ keys) : h.rd f = s.rd f := by
  simp only [Hub.rd, Hub.rdB, k.regs f.addr 0 (by rwa [regKey_zero])]

theorem Releases.untraced (n : ∀ a ∈ calmKeys, a ∉ keys) (u : s.untraced) : h.untraced := by
  unfold Hub.untraced Hub.flag at *
  rwa [k.rd F.TRACE_STATE_RUNNING (n _ (by simp [calmKeys])), k.rd F.TRACE_TRIG_CTRL_HUBEV_EN (n _ (by simp [calmKeys]))]

theorem Releases.still (n : ∀ a ∈ calmKeys, a ∉ keys) (c : s.still) : h.still := by
  obtain ⟨reports, policies, peers, reqs, soft, ladder, drain, columns, close⟩ := c
  rw [← k.same Hub.hangCtl fun _ => rfl] at reports peers
  rw [← k.same Hub.hang fun _ => rfl] at policies
  rw [← k.same Hub.link fun _ => rfl] at reqs
  rw [← k.same Hub.softReset fun _ => rfl] at soft
  rw [← k.same Hub.ladder fun _ => rfl] at ladder
  rw [← k.same Hub.harv fun _ => rfl] at drain columns
  rw [← k.same Hub.harvReady fun _ => rfl, ← k.rd F.HARV_STATUS_PHASE (n _ (by simp [calmKeys]))] at close
  exact ⟨reports, policies, peers, reqs, soft, ladder, drain, columns, close⟩

/-- What a command leaves, seen from the hub `s` before the release changed it. -/
theorem Releases.rest_ran {t : Hub} (c : s.calm = true) (r : Ran true h s.store t) :
    s.rest t = { s with boot := h.boot, power := h.power, coops := (s.rest t).coops } := by
  obtain ⟨o, w⟩ := calm_nothing_left c
  have w' : h.writes = [] := (k.same Hub.writes fun _ => rfl).trans w
  have rest : s.rest t = { h.rest t with regs := s.regs, bus := s.bus, pins := s.pins, coops := (s.rest t).coops } := by
    simp only [Hub.rest, k.same Hub.link fun _ => rfl]
  generalize (s.rest t).coops = coops at rest ⊢
  calc s.rest t = { h.rest t with regs := s.regs, bus := s.bus, pins := s.pins, coops := coops } := rest
    _ = { ({ h with regs := s.regs, bus := s.bus, boot := s.boot, power := s.power, pins := s.pins, occs := s.occs } : Hub) with
          boot := h.boot, power := h.power, coops := coops } := by
        rw [r.rest]
        simp only [w', o, Store.writeAll, List.foldl_nil, k.same Hub.store fun _ => rfl]
    _ = { s with boot := h.boot, power := h.power, coops := coops } := by rw [k.core]

end

theorem answers_releases {i : Instr} {s : State} {p : Hub → Prop} {f : Hub → Hub} {h : Hub} (x : exec i s = run f s) (e : f s.hub = h)
    (k : Releases keys s.hub h) (n : ∀ a ∈ calmKeys, a ∉ keys) (c : s.hub.calm = true) (q : ∀ t, ReleaseEffect keys s.hub h t → p t) :
    Answers i s p := by
  subst e
  obtain ⟨d, none, b⟩ := settle_still (rel := true) (k.still n (calm_still c)) (k.untraced n (calm_untraced c)) nofun
  have r := d.ran s.hub.store none b
  have tileHold := (commit_tileHold (f s.hub).settle s.hub.store).trans (congrArg Pins.tileHold d.pins)
  refine ⟨_, x, rfl, q _ ⟨k.rest_ran c r, fun a b q m => ?_, r.keeps, r.bus, tileHold, r.shows⟩⟩
  rw [List.mem_append, not_or] at m
  exact (r.keeps a b q m.1).trans (k.regs a b m.2)

theorem Releases.setBoot (s : Hub) (b : Boot) : Releases keys s (s.setBoot b) := ⟨rfl, fun _ _ _ => rfl⟩

theorem Releases.raise (s : Hub) (c : Nat) (u : Option Nat) : Releases keys s (s.raise c u) := ⟨rfl, fun _ _ _ => rfl⟩

theorem Releases.respond (s : Hub) (r : Req) (v st : Nat) : Releases keys s (s.respond r v st) := ⟨rfl, fun _ _ _ => rfl⟩

theorem Releases.setStep (s : Hub) (n : Nat) (status : R.BOOT_STATUS ∈ keys) : Releases keys s (s.setStep n) :=
  (Releases.setBoot s { s.boot with stepAt := s.time.hclk }).trans (.wr _ n status)

/-- Step 9 as the registers show it. -/
def Hub.step9 (s : Hub) : Hub := (s.setStep 9).wr F.BOOT_TIME_RELEASE_HCLK (sat 32 (s.setStep 9).time.hclk)

/-- TILE_HOLD is deasserted but in SAFE, and the power loop counts from here. -/
def Hub.letGo (s : Hub) : Hub :=
  { s with
    boot := { s.boot with released := true }
    pins := { s.pins with tileHold := s.rel.safe }
    power := { s.power with missFrom := s.time.hclk } }

/-- The registers that the release writes. -/
abbrev releasedKeys : List Nat := [R.BOOT_STATUS, F.BOOT_TIME_RELEASE_HCLK.addr]

theorem Releases.letGo (s : Hub) : Releases keys s s.letGo := ⟨rfl, fun _ _ _ => rfl⟩

theorem Releases.release (s : Hub) (status : R.BOOT_STATUS ∈ keys) (time : F.BOOT_TIME_RELEASE_HCLK.addr ∈ keys) : Releases keys s s.release :=
  (((Releases.setStep s 9 status).trans (.wr _ _ time)).trans (.letGo _)).trans (.raise _ _ _)

theorem release_rd (s : Hub) {f : Fld} (fits : f.lo + f.width ≤ 32) (step : F.BOOT_STATUS_STEP.apart f = true)
    (time : F.BOOT_TIME_RELEASE_HCLK.apart f = true) : s.release.rd f = s.rd f :=
  (Hub.rd_wr_apart _ _ _ _ fits time).trans (Hub.rd_wr_apart _ _ _ _ fits step)

theorem release_step (s : Hub) : s.release.rd F.BOOT_STATUS_STEP = 9 :=
  (Hub.rd_wr_apart _ _ _ _ (by decide) (by decide)).trans (Hub.rd_wr _ F.BOOT_STATUS_STEP 9 (by decide))

theorem release_raises (s : Hub) : ∃ o ∈ s.release.occs, o.code = Ev.RELEASED ∧ o.unit = none :=
  ⟨_, List.mem_append_right _ (List.mem_singleton_self _), rfl, rfl⟩

theorem eventBit_released (p i : Nat) (e : eventBit Ev.RELEASED 0 = some (p, i)) : i < 32 := by
  cases e
  decide

theorem ReleaseEffect.rd {s h t : Hub} (x : ReleaseEffect keys s h t) (f : Fld) (event : eventKey f.addr = false) (n : f.addr ∉ releaseKeys) :
    t.rd f = h.rd f := by
  simp only [Hub.rd, Hub.rdB, x.regs f.addr 0 (by rwa [regKey_zero]) (by rwa [regKey_zero])]

theorem ReleaseEffect.rest_now {s h t : Hub} (x : ReleaseEffect keys s h t) :
    s.rest t = { s with boot := t.boot, power := t.power, coops := (s.rest t).coops } := by
  have boot : t.boot = h.boot := (congrArg Hub.boot x.rest :)
  have power : t.power = h.power := (congrArg Hub.power x.rest :)
  rw [boot, power]
  exact x.rest

/-- What a command that releases a hub leaves, `h` being the hub released. -/
theorem answers_release {i : Instr} {s : State} {f : Hub → Hub} {h g : Hub} (x : exec i s = run f s) (e : f s.hub = g)
    (k : Releases keys s.hub g) (released : g.boot.released = true) (hold : g.pins.tileHold = h.rel.safe) (shows : ∃ o ∈ g.occs, o.code = Ev.RELEASED ∧ o.unit = none)
    (n : ∀ a ∈ calmKeys, a ∉ keys) (c : s.hub.calm = true) :
    Answers i s fun t =>
      ReleaseEffect keys s.hub g t ∧ t.boot.released = true ∧ t.pins.tileHold = h.rel.safe ∧ t.shows Ev.RELEASED 0 = true ∧
      s.hub.rest t = { s.hub with boot := t.boot, power := t.power, coops := (s.hub.rest t).coops } ∧ s.hub.keeps t (releaseKeys ++ keys) := by
  refine answers_releases x e k n c fun t y => ⟨y, ?_, y.tileHold.trans hold, ?_, y.rest_now, y.keeps⟩
  · have boot : t.boot = g.boot := (congrArg Hub.boot y.rest :)
    rw [boot, released]
  · obtain ⟨o, m, code, unit⟩ := shows
    have := y.shows o m (by rw [code, unit]; exact eventBit_released)
    rwa [code, unit] at this

/-- RELEASED of a hub at step 8 (R373). -/
theorem released_clause (s : State) (c : s.hub.calm = true) (ready : s.hub.readyToRelease = true) :
    Answers .released s fun h =>
      h.rd F.BOOT_STATUS_STEP = 9 ∧ h.boot.released = true ∧ h.pins.tileHold = false ∧ h.shows Ev.RELEASED 0 = true ∧
      s.hub.rest h = { s.hub with boot := h.boot, power := h.power, coops := (s.hub.rest h).coops } ∧
      s.hub.keeps h [R.COOP_RUNS, R.COOP_RUNS + 0x1000, R.COOP_EVLOSS, R.COOP_EVLOSS + 0x1000, R.BOOT_STATUS, F.BOOT_TIME_RELEASE_HCLK.addr] := by
  have safe : s.hub.rel.safe = false := by
    simp only [Hub.readyToRelease, Bool.and_eq_true, Bool.not_eq_true'] at ready
    exact ready.2
  refine (answers_release (f := Hub.releaseDue) rfl (if_pos ready) (.release (keys := releasedKeys) s.hub (by decide) (by decide)) rfl rfl (release_raises _)
    (by decide) c).mono fun t ⟨y, released, hold, shows, rest, keeps⟩ => ⟨?_, released, hold.trans safe, shows, rest, keeps⟩
  rw [y.rd _ (by decide) (by decide), release_step]

/-- The release of a hub without a time base (R373). -/
theorem noTimeRelease_clause (s : State) (c : s.hub.calm = true) (step : s.hub.inStep 8 = true) (life : s.hub.boot.life ≠ Life.BLANK)
    (untimed : s.hub.timeOk = false) (safe : s.hub.isSafe = false) (late : s.hub.elapsed s.hub.boot.stepAt 8000000 = true) :
    Answers .noTimeRelease s fun h =>
      h.rd F.BOOT_STATUS_STEP = 9 ∧ h.rd F.BOOT_STATUS_NO_TIME = 1 ∧ h.boot.released = true ∧ h.pins.tileHold = false ∧
      h.shows Ev.RELEASED 0 = true ∧ s.hub.rest h = { s.hub with boot := h.boot, power := h.power, coops := (s.hub.rest h).coops } ∧
      s.hub.keeps h [R.COOP_RUNS, R.COOP_RUNS + 0x1000, R.COOP_EVLOSS, R.COOP_EVLOSS + 0x1000, R.BOOT_STATUS, F.BOOT_TIME_RELEASE_HCLK.addr] := by
  have blank : (s.hub.boot.life != Life.BLANK) = true := bne_iff_ne.mpr life
  have e : s.hub.noTimeRelease = (s.hub.wr F.BOOT_STATUS_NO_TIME 1).release := by
    simp only [Hub.noTimeRelease, step, blank, untimed, safe, late, Bool.not_false, Bool.true_or, Bool.and_self, if_true]
  refine (answers_release (f := Hub.noTimeRelease) rfl e ((Releases.wr (keys := releasedKeys) s.hub 1 (by decide)).trans (.release _ (by decide) (by decide)))
    rfl rfl (release_raises _) (by decide) c).mono fun t ⟨y, released, hold, shows, rest, keeps⟩ =>
      ⟨?_, ?_, released, hold.trans safe, shows, rest, keeps⟩
  · rw [y.rd _ (by decide) (by decide), release_step]
  · rw [y.rd _ (by decide) (by decide), release_rd _ (by decide) (by decide) (by decide), Hub.rd_wr _ _ _ (by decide)]
    rfl

/-! ### BOOT_CMD (R374) -/

section
variable {s : Hub} (blank : s.boot.life = Life.BLANK) (held : s.boot.released = false)
include blank held

theorem bootCmd_jtag : s.bootCmd .jtag 1 = (s.wr F.BOOT_CMD_STATUS_STATUS St.OK).release := by
  simp only [Hub.bootCmd, blank, held]
  rfl

theorem bootCmd_denied {r : Req} (other : r ≠ .jtag) : s.bootCmd r 1 = s.wr F.BOOT_CMD_STATUS_STATUS St.DENIED := by
  have other : (r != .jtag) = true := bne_iff_ne.mpr other
  simp only [Hub.bootCmd, blank, held, other]
  rfl

end

theorem bootRelease_clause (s : State) (c : s.hub.calm = true) (taken : s.hub.takesWrite .jtag R.BOOT_CMD 1 = true)
    (blank : s.hub.boot.life = Life.BLANK) (held : s.hub.boot.released = false) :
    Answers (.bootRelease .jtag) s fun h =>
      h.tookWrite .jtag ∧ h.rd F.BOOT_STATUS_STEP = 9 ∧ h.rd F.BOOT_CMD_STATUS_STATUS = St.OK ∧ h.boot.released = true ∧
      h.pins.tileHold = s.hub.rel.safe ∧ h.shows Ev.RELEASED 0 = true ∧
      s.hub.rest h = { s.hub with boot := h.boot, power := h.power, coops := (s.hub.rest h).coops } ∧
      s.hub.keeps h [R.COOP_RUNS, R.COOP_RUNS + 0x1000, R.COOP_EVLOSS, R.COOP_EVLOSS + 0x1000, R.BOOT_STATUS, F.BOOT_TIME_RELEASE_HCLK.addr, R.BOOT_CMD_STATUS] := by
  have done := bootCmd_jtag blank held
  have e : s.hub.cmd .jtag R.BOOT_CMD 1 (fun h => h.bootCmd .jtag 1) =
      (s.hub.wr F.BOOT_CMD_STATUS_STATUS St.OK).release.respond .jtag 0 St.OK := by
    rw [cmd_taken taken (by rw [done]; exact (calm_unplanted c : s.hub.rel.inject = none)), done]
  have k : Releases [R.BOOT_STATUS, F.BOOT_TIME_RELEASE_HCLK.addr, R.BOOT_CMD_STATUS] s.hub
      ((s.hub.wr F.BOOT_CMD_STATUS_STATUS St.OK).release.respond .jtag 0 St.OK) :=
    ((Releases.wr s.hub St.OK (by decide)).trans (.release _ (by decide) (by decide))).trans (.respond _ _ _ _)
  refine (answers_release (f := fun h => h.cmd .jtag R.BOOT_CMD 1 fun h => h.bootCmd .jtag 1) rfl e k rfl rfl (release_raises _) (by decide) c).mono
    fun t ⟨y, released, hold, shows, rest, keeps⟩ => ⟨?_, ?_, ?_, released, hold, shows, rest, keeps⟩
  · rw [Hub.tookWrite, y.bus]
    exact respond_took _ _
  · rw [y.rd _ (by decide) (by decide), Hub.rd_respond, release_step]
  · rw [y.rd _ (by decide) (by decide), Hub.rd_respond, release_rd _ (by decide) (by decide) (by decide), Hub.rd_wr _ _ _ (by decide)]
    rfl

theorem bootRelease_denied_clause (s : State) (r : Req) (c : s.hub.calm = true) (taken : s.hub.takesWrite r R.BOOT_CMD 1 = true)
    (blank : s.hub.boot.life = Life.BLANK) (held : s.hub.boot.released = false) (other : r ≠ .jtag) :
    Answers (.bootRelease r) s fun h =>
      h.tookWrite r ∧ h.rd F.BOOT_CMD_STATUS_STATUS = St.DENIED ∧ s.hub.rest h = s.hub ∧ s.hub.keeps h [R.BOOT_CMD_STATUS] := by
  have done := bootCmd_denied blank held other
  have e : s.hub.cmd r R.BOOT_CMD 1 (fun h => h.bootCmd r 1) = (s.hub.wr F.BOOT_CMD_STATUS_STATUS St.DENIED).respond r 0 St.OK := by
    rw [cmd_taken taken (by rw [done]; exact (calm_unplanted c : s.hub.rel.inject = none)), done]
  have k : Touched [R.BOOT_CMD_STATUS] s.hub ((s.hub.wr F.BOOT_CMD_STATUS_STATUS St.DENIED).respond r 0 St.OK) :=
    (Touched.wr s.hub St.DENIED (by decide)).trans (.respond _ _ _ _)
  refine answers_touched (f := fun h => h.cmd r R.BOOT_CMD 1 fun h => h.bootCmd r 1) rfl e k (by decide) c fun t y => ⟨?_, ?_, y.rest, y.keeps⟩
  · rw [Hub.tookWrite, y.bus]
    exact respond_took _ _
  · rw [y.rd _ (by decide), Hub.rd_respond, Hub.rd_wr _ _ _ (by decide)]
    rfl

/-- Settles O18: BOOT_STATUS and BOOT_BIST_RESULT are left as the end of step 7 wrote them, since nothing that then goes on in a calm hub writes
them; the release changes the records of start-up and of the power loop alone. -/
theorem boot_self_test_and_release_end_start_up : Obligations.boot_self_test_and_release_end_start_up :=
  ⟨bootBistDone_clause, bootBistTimeout_clause, released_clause, noTimeRelease_clause, bootRelease_clause, bootRelease_denied_clause⟩

end Sys2Proof.Machine
end
